-- ==== Sys2Proof/Word.lean ====
section
/-! DEFINITION. The word types of the device: 32-bit registers and bytes, little-endian byte order. -/

namespace Sys2Proof

/-- A register word (the conventions of the scope chapter: registers are 32 bits wide). -/
abbrev Word := BitVec 32

/-- One byte of memory. -/
abbrev Byte := BitVec 8

/-- A pixel component or intermediate value of 16 bits. -/
abbrev Half := BitVec 16

end Sys2Proof
end

