-- ==== Sys2Proof/Syntax.lean ====
section
/-! DEFINITION. The commands of the block: one constructor for each row of spec/opcode_table.json, in its order.
The table gives its rows no operands; those here are what the rule of each row needs from outside the device: the
offset and data of an access, the bytes of a received frame, and facts of the environment that no state of the device
holds (whether a check passed, a measured count or temperature, which blocks fail their check). -/

namespace Sys2Proof

/-- How a SECDED word of the Bellboard's state read: without error, corrected, or uncorrectable with what it covered (R295, R405). -/
inductive BelEcc where
  | none
  | corrected
  /-- Pending state, counts or an entry: the sources that the word covers; 0x8000 + `t` is source 0x7FFF of target `t`. -/
  | sources (l : List (BitVec 16))
  /-- The configuration of a class page. -/
  | config (page : Fin 128)
  deriving DecidableEq, Repr


/-- The check of the shadow words that a command takes (R295, Table 12.4): no error, a corrected one, or an uncorrectable word at an
offset of the register map. -/
inductive ShadowEcc where
  | good
  | corrected
  | bad (offset : Nat)
  deriving DecidableEq, Repr

/-- How a SECDED word of a control store read: good, corrected, or uncorrectable (R295). -/
inductive Ecc where
  | good | corrected | bad
  deriving DecidableEq, Repr

/-- A timing image (R342): the timing registers, `STK_SHOW` and `STK_OUT` in the order of their offsets, the stroke counter,
and the camera-frame boundary at which the receiver takes it, as a time of the receiver's stroke clock, with the stroke that
begins there; none while the sender's timing does not run. -/
structure TimingImage where
  regs : List Nat
  stroke : Nat
  start : Option (Rat × Nat)
  deriving DecidableEq, Repr

/-- What a trunk frame carries: bytes, or the timing image of a PREPARE of `KIND` 1 with its set number; the spec does not
give the layout of that image. -/
inductive TrunkBody where
  | bytes (payload : List Byte)
  | timing (set : Nat) (image : TimingImage)
  deriving DecidableEq, Repr

/-- A trunk frame without the fields that belong to one lane (Table 14.1). -/
structure TrunkFrame where
  type_ : Nat
  origin : Nat
  sseq : Nat
  body : TrunkBody
  deriving DecidableEq, Repr

/-- An item of a MIRROR frame (R312, R313, R314, R330): a host write, a REFRAME with its start and first stroke, a flip set or
FENCE_WAIT with the primary's verdict and target, a software source, a down frame of the trunk, or an up frame of the trunk,
with the port that it came on, whether the acting secondary of its lodger sent it, and its `SEQ`. A start is a time on the time base of
the device that sends the item. -/
inductive MirrorItem where
  | write (offset : Nat) (data : Word)
  | reframe (start : Rat) (stroke : Nat)
  | set (ring index : Nat) (entries : List (List Nat)) (verdict target : Nat) (ecc : ShadowEcc := .good)
  | wait (ring index : Nat) (words : List Nat)
  | source (number : Nat)
  | down (frame : TrunkFrame)
  | up (port : Nat) (second : Bool) (seq : Nat) (frame : TrunkFrame)
  deriving DecidableEq, Repr

/-- The header fields of a twin frame that its receiver reads, the lane that it came on, and how many symbols of it were
corrected and how many codewords could not be (R303, Table 13.9). -/
structure TwinHead where
  lane : Fin 128
  corr : Nat
  uncorr : Nat
  seq : Word
  ack : Word
  deriving DecidableEq, Repr

/-- The header fields of a trunk frame that its receiver reads, the port that it came on, its corrected symbols and the
codewords that could not be corrected (Tables 14.1, 14.10). `second` says of
an up frame that the acting secondary of its lodger sent it, which no field of the header gives. -/
structure TrunkHead where
  port : Fin 128
  corr : Nat
  uncorr : Nat
  seq : Word
  ack : Word
  origin : Byte
  sseq : Word
  second : Bool
  deriving DecidableEq, Repr

/-- How a frame of a return line was received: whole, with a code violation, with a check that fails (R232, R233), or with a valid
check but a TYPE that has bit [7] set or that Table 10.1 does not list, or a `LENGTH` that its bytes do not agree with (R248). -/
inductive LineCheck where
  | good | violation | badCheck | otherType | otherLength
  deriving DecidableEq, Repr

/-- What the SECDED of the control stores found since the last latch point (R291, R295, Table 12.4): nothing, a corrected word,
an uncorrectable word of the live copies, restored from the version kept for the latest dealt stroke or lost with it, one of
the version kept for a stroke, one of a fence, or the settled cache's directory entry of a stack in reserved memory. -/
inductive ControlEcc where
  | none
  | corrected
  | live (offset : Nat) (restored : Bool)
  | kept (stroke offset : Nat)
  | fence
  | directory (stack : Fin 64)
  /-- The directory entry whose first read failed and whose re-read passes (R291). -/
  | directoryAgain (stack : Fin 64)
  deriving DecidableEq, Repr

/-- A member of a queued flip set (Table 8.2). -/
inductive Member where
  | flip (layer : Nat) (wait acqEn relEn : Bool) (buf acqIdx acqVal relIdx relVal : Nat)
  /-- A stack change with its snapshot: the live words it sets (R110). -/
  | stack (which layers : List Nat) (pmap reflatten : Bool) (words : List (Nat × Nat))
  | plate (ring action frame : Nat) (explicit : Bool)
  deriving DecidableEq, Repr

/-- A queued set as a state image carries it (R311): accepted, with its target. -/
structure ImageSet where
  ring : Nat
  index : Nat
  target : Nat
  deadline : Nat
  afEn : Bool
  afIdx : Nat
  afVal : Nat
  tag : Nat
  members : List Member
  /-- The trunk set whose group it is; none for a set of a SUBMIT ring. -/
  trunk : Option Nat := none
  deriving DecidableEq, Repr

/-- A command of the block (R-numbers name the rule of each row). An operand with a default says what the command is told where nothing
out of the ordinary happens. -/
inductive Instr where
  /-- A transfer from one half arrives at the other half across the bridge, 16 ns after it entered, in requester order. (R14) -/
  | bridgeTransfer (transfer : Nat := 0)
  /-- The sending half replays a transfer that failed its CRC-32C; the replay completes within 64 ns and counts in DEP_BRIDGE_REPLAY. (R15) -/
  | bridgeReplay (transfer : Nat := 0)
  /-- After 16 consecutive check failures of one transfer the bridge is down: log entry, FAULT_N low, source 0x43F0, all Coach ports HOLD and composition stops. (R16) -/
  | bridgeDown (transfer : Nat := 0)
  /-- A host read through the BAR2 aperture of device memory, atomic per 256 B block; Unsupported Request above software memory, poisoned completion for damaged blocks. (R34) -/
  | bar2Read (offset length : Nat) (bad : List Nat)
  /-- A host write through the BAR2 aperture, atomic per 256 B block; dropped and logged above software memory. (R34) -/
  | bar2Write (offset : Nat) (data : List Byte) (bad : List Nat)
  /-- A BAR0 write to a register that has no step of its own, taking effect in arrival order per block under Table 2.6. (R40) -/
  | registerWrite (offset : Nat) (data : Word)
  /-- A block in reset or powered down has not answered within 4 µs; the fabric ends the access with data 0 or a dropped write and logs it in GLB_ERR_FAR. (R39) -/
  | farAccessTimeout (offset : Nat) (write : Bool)
  /-- A read of GLB_FLUSH completes only after every earlier BAR0 write to every block has taken effect. (R40) -/
  | glbFlush
  /-- A write of the BAR2 aperture base, refused with APERTURE_RANGE above 112. (R32) -/
  | glbAperture (data : Word)
  /-- A write of 0x6A6A to GLB_RESET_KEY arms it for 10 µs. (R53) -/
  | resetKeyArm
  /-- A write of 0x9595 while armed starts a software reset; any other value while armed, or 0x9595 while unarmed, is refused with RESET_SEQUENCE. (R53) -/
  | resetKeyConfirm (key : BitVec 16)
  /-- The 10 µs arming period ends; the key disarms and GLB_REFUSED is set with RESET_SEQUENCE. (R53) -/
  | resetKeyTimeout
  /-- The SMBus IDENT command returns 0x3812. (R55) -/
  | ident (pec : Bool := false)
  /-- The SMBus STEPPING command returns the die stepping. (R55) -/
  | stepping (pec : Bool := false)
  /-- The SMBus STATUS command returns fault, trim, waybill, power, security and thermal status bits. (R55) -/
  | smbusStatus (pec : Bool := false)
  /-- The SMBus TEMP_MAX command returns the hottest of the 16 die sensors. (R55) -/
  | tempMax (pec : Bool := false)
  /-- The SMBus TEMP_HBM_MAX command returns the hottest HBM3E stack temperature. (R55) -/
  | tempHbmMax (pec : Bool := false)
  /-- The SMBus TEMP_n command returns die sensor n. (R55) -/
  | tempN (sensor : Fin 16) (pec : Bool := false)
  /-- The SMBus ALERT command returns the latched alert bits. (R55) -/
  | alert (pec : Bool := false)
  /-- The SMBus ALERT_CLEAR command clears the selected ALERT bits under R44. (R55) -/
  | alertClear (mask : Byte) (pecOk : Bool)
  /-- An SMBus command outside Table 2.17 is acknowledged, reads 0 and is ignored under the fall-back rule. (R55) -/
  | smbusUndefined (code : Byte) (write : Bool) (length : Nat := 0) (pec : Bool := false)
  /-- The target answers the Alert Response Address while it drives MB_ALERT_N low. (R54) -/
  | alertResponse (pec : Bool := false)
  /-- The always-on island samples the temperature sensors every 1 ms (100 ms in Rest). (R56) -/
  | sensorSample (die hbm : List (BitVec 16))
  /-- WBL_CTRL.LOAD starts a host load of the waybill, refused with ALREADY_LOADED, LOAD_BUSY or HOST_ADDR. (R76) -/
  | load
  /-- WBL leaving reset starts a load from flash slot A or slot B as BOOTSEL chooses. (R76) -/
  | flashLoad
  /-- The 256 B header is in the waybill copy and is checked for NO_IMAGE, FORMAT and SIZE. (R77) -/
  | headerCopyDone (readError : Bool)
  /-- The rest of the image is copied; WBL authenticates it, checks every section, sets WB registers and releases present blocks. (R77) -/
  | imageCopyDone (readError : Bool)
  /-- The phase length elapses: the stroke counter increments and the new stroke begins. (R85) -/
  | tick (departure : Nat := 0)
  /-- The latch lead before a tick arrives: every capturing block captures for the stroke dealt there. (R86) -/
  | latchPoint (ecc : ControlEcc)
  /-- A lock reference instant arrives and the stroke loop aligns or corrects the stroke clock. (R96) -/
  | referenceInstant (time : Rat)
  /-- No reference instant arrives within 1.5 expected periods: MISSING, good reset, HOLDOVER from LOCKED. (R96) -/
  | missing
  /-- ACQ_LIMIT camera frames pass in ACQUIRE and the lock state becomes HOLDOVER. (R97) -/
  | acqTimeout
  /-- A write of the lock source, refused with SOURCE when the role forbids it, moving the lock state per Table 4.4. (R93) -/
  | stkSrc (data : Word)
  /-- The TOD step trigger adds the step registers to the time of day on one STK edge. (R94) -/
  | todStep
  /-- STK_CTRL.REFRAME is checked against the shadows and, when accepted, sets TIMING to PENDING. (R100) -/
  | reframe
  /-- At B0 the new timing takes effect: old strokes withdrawn, live copies take shadows, ports HOLD, TIMING REFRAMING. (R102) -/
  | reframeTakesEffect (departure : Nat := 0)
  /-- At tick tr scan-out resumes and TIMING returns to RUNNING. (R103) -/
  | reframeDone
  /-- A complete LTC frame is decoded and recorded with its stroke and offset, or dropped. (R99) -/
  | ltcFrame (data : BitVec 64) (start : Nat) (rate : Fin 4) (reverse good : Bool)
  /-- A porter starts its next parcel, oldest stroke first in deal order. (R157) -/
  | parcelStart (porter : Fin 256) (ecc : Ecc) (list : Ecc := .good)
  /-- A porter with no unstarted parcel takes half of a victim's unstarted parcels of the oldest stroke. (R158) -/
  | lift (porter : Fin 256)
  /-- A porter finishes a parcel and its PCV is recomputed at the controller or staging. (R277) -/
  | parcelComposed (porter : Fin 256) (sealOk : Bool) (bad : List Nat) (parity : Nat) (err : Option (List Byte))
  /-- A parcel of a withdrawn or abandoned stroke is given up at the end of its current slice. (R157) -/
  | parcelAbandon (porter : Fin 256)
  /-- A parcel of the stroke is not composed by its ready time: LATE, PRT_LATE_CNT, source 0x4201. (R169) -/
  | strokeLate (region : Fin 4)
  /-- A porter starts a recomposition from a priority entry at its next slice boundary. (R290) -/
  | recomposeStart (porter : Fin 256) (ecc : Ecc := .good)
  /-- A porter of the audit crew starts a spot audit from a priority entry. (R292) -/
  | auditStart (porter : Fin 256) (ecc : Ecc := .good)
  /-- An audit not begun by its parcel's need time is dropped and counted. (R292) -/
  | auditDrop (stroke : Nat) (region : Fin 4) (parcel : Nat)
  /-- A host write advances a fence when in range, else refused with FENCE_ORDER; notification may raise a source. (R174) -/
  | fenceWrite (fence : Fin 1024) (value : Word)
  /-- FLP finishes reading a flip set from a SUBMIT ring and queues it or completes it MALFORMED, STATE, LATE or BUDGET. (R180) -/
  | flipset (ring : Fin 16384) (ecc : ShadowEcc)
  /-- FLP reads a FENCE_WAIT and reads nothing further from that ring until the fence is satisfied. (R178) -/
  | fenceWait (ring : Fin 16384)
  /-- The waited fence satisfies VAL; the FENCE_WAIT completes DONE and reading resumes. (R179) -/
  | fenceWaitDone (ring : Fin 16384)
  /-- LIMIT ticks pass; the FENCE_WAIT completes FENCE_TIMEOUT and reading resumes. (R179) -/
  | fenceWaitTimeout (ring : Fin 16384)
  /-- Enough queued sets have applied for FLP, full, to take the waiting set and read SUBMIT rings again. (R181) -/
  | submitResume (ecc : ShadowEcc := .good)
  /-- A displaced buffer becomes free after its last stroke and twin comparison; FLP writes its release fence. (R186) -/
  | bufferRelease
  /-- STL_PRr_COMMIT commits frame WRITE of a host-written plate ring and advances WRITE. (R193) -/
  | plateCommit (ring : Fin 64)
  /-- CPT_COMMIT.COMMIT is checked per Table 9.9 and, when accepted, sets PENDING. (R214) -/
  | coachCommit (port : Fin 128) (data : Word) (ecc : ShadowEcc)
  /-- The port sends a PIXELS frame of a run of a stop's pixels once its parcel has passed its checks. (R210) -/
  | pixels (port : Fin 128) (buffered : Fin 65537) (bad : List Nat) (record : Bool) (wait : Nat := 0) (again : Bool := false)
  /-- The port sends a SKIP frame for a run, for a withdrawn stroke or an unavailable segment. (R218) -/
  | skip (port : Fin 128) (buffered : Fin 65537 := 0) (wait : Nat := 0)
  /-- After tick m the port sends the stroke marker of stroke m at its next frame boundary. (R213) -/
  | strokeMarker (port : Fin 128) (delay : Nat)
  /-- A port in HOLD sends a HOLD frame on entry and every 100 µs. (R218) -/
  | hold (port : Fin 128)
  /-- The port sends a CONTROL frame of kind CONFIG to a stop. (R212) -/
  | config (port : Fin 128)
  /-- A Coach port with nothing else to send sends an IDLE frame. (R202) -/
  | idle (port : Fin 128) (length : Nat) (buffered : Fin 65537 := 0) (wait : Nat := 0)
  /-- CPT_CTRL.RETRAIN resets the port domain alone and returns it to TRAIN. (R217) -/
  | coachRetrain (port : Fin 128)
  /-- CPT_CTRL.EN set starts TRAIN once the quad PLL locks; cleared, the port goes DOWN. (R217) -/
  | coachEn (port : Fin 128) (data : Word)
  /-- TRAIN_MS elapses and the Coach port enters RUN, or HOLD while a hold cause stands. (R217) -/
  | trainDone (port : Fin 128)
  /-- The return-line controller opens a slot of 24.576 µs with its opening frame. (R235) -/
  | slotOpen (line : Fin 32) (stretched : Bool)
  /-- The line is still busy 24.576 µs after the nominal boundary; the controller transmits anyway and JAM latches. (R236) -/
  | jam (line : Fin 32)
  /-- A STATUS frame from a stop is received and written as a record; a new ASEQ is a new alarm. (R241) -/
  | status (line : Fin 32) (addr : BitVec 16) (payload : List Byte) (check : LineCheck) (inWindow : Bool)
  /-- An ALARM frame from an enrolled stop in a contention slot is accepted and recorded. (R241) -/
  | alarm (line : Fin 32) (addr : BitVec 16) (payload : List Byte) (check : LineCheck) (inWindow : Bool)
  /-- A HELLO frame is received; a stranger gets an entry and a CHALLENGE, an enrolled ID may be reassigned. (R246) -/
  | hello (line : Fin 32) (addr : BitVec 16) (payload : List Byte) (check : LineCheck) (inWindow : Bool)
  /-- An ACK answers ACCESS, ASSIGN or RELEASE and completes the command. (R244) -/
  | ack (line : Fin 32) (addr : BitVec 16) (payload : List Byte) (check : LineCheck) (inWindow : Bool)
  /-- The TELEMETRY ENROL command is checked and queues ASSIGNs for the stop. (R244) -/
  | enrol (line : Fin 32)
  /-- The TELEMETRY RELEASE command sends RELEASE to an enrolled line address. (R245) -/
  | release (line : Fin 32)
  /-- The TELEMETRY ACCESS command reads or writes the stop's own registers once. (R245) -/
  | access (line : Fin 32)
  /-- Four ASSIGNs pass without ACK: NO_ANSWER and one RELEASE to the address. (R244) -/
  | enrolNoAnswer (line : Fin 32)
  /-- A stranger entry expires 256 rounds after its last HELLO. (R246) -/
  | strangerExpiry (line : Fin 32) (entry : Fin 16)
  /-- MISS_LIMIT consecutive misses clear PRESENT and push an ABSENT word. (R249) -/
  | absent (line : Fin 32) (addr : Fin 256)
  /-- A read of RLC_RXF_DATA pops one receive FIFO word, or sets UNDERRUN when empty. (R252) -/
  | rxfPop (line : Fin 32) (ecc : Ecc)
  /-- RLC_CTRL.EN cleared resets the controller domain alone; set, it enters RUN and broadcasts RELEASE. (R253) -/
  | rlcEn (line : Fin 32) (data : Word)
  /-- A received Ethernet frame is filtered and classified to a stream context, the slow path or dropped. (R257) -/
  | ethFrame (port : Fin 128) (data : List Byte) (fcsOk overrun : Bool) (corrected uncorrected : Nat) (buffer : Ecc := .good)
      (bad : List Nat := []) (wait : Bool := false)
  /-- A complete frame's pixels have reached memory; the acquire fence is written or the plate frame committed. (R268) -/
  | frameLanded (port : Fin 128) (window : Fin 16)
  /-- A slow-path RX_POST entry posts a 16 KiB receive buffer. (R258) -/
  | rxPost (port : Fin 128)
  /-- A slow-path TX entry sends a frame unchanged, with optional transmit timestamp. (R258) -/
  | tx (port : Fin 128)
  /-- A slow-path transmit has left the port and its entry completes. (R258) -/
  | txDone (port : Fin 128)
  /-- A read of SIP_TSF_NS pops a timestamp FIFO entry, or sets UNDERRUN when empty. (R260) -/
  | tsfPop (port : Fin 128) (ecc : Ecc)
  /-- Setting SIP_CX_CTRL.EN is checked per Table 11.2 and enables the context in IDLE. (R262) -/
  | contextEnable (port : Fin 128) (window : Fin 16) (data : Word)
  /-- Clearing EN abandons the open frame and turns the context OFF. (R272) -/
  | contextDisable (port : Fin 128) (window : Fin 16) (data : Word)
  /-- No good packet for LOSS_MS: the context goes LOST and its open frame closes. (R272) -/
  | contextLoss (port : Fin 128) (window : Fin 16)
  /-- One path of a pair delivers nothing for LOSS_MS while the other does; PATH latches. (R270) -/
  | path (port : Fin 128) (window : Fin 16)
  /-- The Stream port completes training and its link comes UP. (R255) -/
  | linkUp (port : Fin 128)
  /-- The Stream link leaves UP; the port domain resets alone and contexts abandon open frames. (R274) -/
  | linkLeavesUp (port : Fin 128)
  /-- SIP_CTRL.RETRAIN resets the Stream port domain alone. (R274) -/
  | sipRetrain (port : Fin 128)
  /-- A re-read of a failed block completes within 0.5 µs; failing, the ladder goes on. (R287) -/
  | reread (block : Nat) (staging ok : Bool)
  /-- A twin repair receives no good block within its bound and fails. (R287) -/
  | twinRepairTimeout (block : Nat)
  /-- DEP scrubs the next block of software memory; a completed pass raises 0x4305. (R297) -/
  | scrubRead (fails : Bool)
  /-- A memory controller idle for IDLE_NS with enough slack enters power-down. (R298) -/
  | memPowerDown (controller : Fin 8)
  /-- A request, or slack falling to EXIT_NS + 2,000 ns, takes the controller out of power-down. (R298) -/
  | memPowerUp (controller : Fin 8)
  /-- A write of DEP_LOG_INDEX selects the error-log entry shown in DEP_LOG_DATA. (R299) -/
  | logIndex (data : Word) (bad : Bool) (again : Bool := false)
  /-- A twin lane gains alignment while PAIR_EN is 1; AUTH is sent. (R308) -/
  | twinLaneAligned (port : Fin 128)
  /-- A twin AUTH frame is received and TAG is sent. (R309) -/
  | twinAuth (head : TwinHead) (crc : Word) (payload : List Byte)
  /-- A twin TAG frame is received and the pairing checks decide PAIRED, JOIN or FAILED. (R310) -/
  | twinTag (head : TwinHead) (crc : Word) (payload : List Byte)
  /-- A PART frame is received and the device enters ALONE. (R308) -/
  | part (head : TwinHead) (crc : Word) (payload : List Byte)
  /-- A HEARTBEAT frame from the partner is received. (R303) -/
  | heartbeat (head : TwinHead) (crc : Word) (payload : List Byte) (wire : Bool)
  /-- Every 10 µs the device sends a HEARTBEAT frame. (R303) -/
  | heartbeatSend
  /-- A twin SYNC frame is received; delay and skew are computed. (R305) -/
  | twinSync (head : TwinHead) (crc : Word) (payload : List Byte) (frac : Fin 16)
  /-- Every 1 ms the device sends a twin SYNC frame. (R305) -/
  | twinSyncSend (frac : Fin 16)
  /-- A MIRROR frame is received and its writes, sets or software sources are applied in order. (R312) -/
  | mirror (head : TwinHead) (ok agrees : Bool) (items : List MirrorItem) (fold : BitVec 64 := 0) (value : Nat := 0)
  /-- A STATE frame with part of a state image is received and applied by the joining device. (R311) -/
  | state (head : TwinHead) (ok agrees first last : Bool) (regs : List (Nat × Nat)) (sets : List ImageSet) (start : Option (Rat × Nat))
      (fold : BitVec 64 := 0) (value : Nat := 0)
  /-- The primary receives the secondary's READY snapshot and sends DECISION. (R315) -/
  | twinReady (head : TwinHead) (ok agrees : Bool) (latch : Nat) (sets : List Nat) (fold : BitVec 64 := 0) (value : Nat := 0)
  /-- The secondary receives the DECISION for a latch point. (R315) -/
  | twinDecision (head : TwinHead) (ok agrees : Bool) (latch : Nat) (sets : List (Bool × Nat)) (fold : BitVec 64 := 0) (value : Nat := 0)
  /-- A PCV frame is received and parcel PCVs are compared. (R317) -/
  | pcv (head : TwinHead) (crc : Word) (payload : List Byte)
  /-- A RESOLVE frame with recomposition PCVs is received and the mismatch is resolved. (R318) -/
  | resolve (head : TwinHead) (crc : Word) (payload : List Byte) (sealOk : Bool := true)
  /-- A REPAIR_REQ is received and answered with REPAIR_DATA or REPAIR_NAK. (R320) -/
  | repairReq (head : TwinHead) (crc : Word) (payload : List Byte) (again bad : Bool)
  /-- A REPAIR_DATA frame returns a block; passing its check, the block is written. (R287) -/
  | repairData (head : TwinHead) (crc : Word) (payload : List Byte) (staging : Ecc := .good)
  /-- A REPAIR_NAK frame fails the twin repair. (R287) -/
  | repairNak (head : TwinHead) (crc : Word) (payload : List Byte)
  /-- A twin IDLE frame is received and carries nothing. (R303) -/
  | twinIdle (head : TwinHead) (crc : Word) (payload : List Byte)
  /-- ACK has not advanced for 2 µs; the sender resends from ACK + 1. (R304) -/
  | twinResend
  /-- One frame has been resent 16 times, or no lane is aligned; the twin link is down. (R304) -/
  | twinLinkDown (wire : Bool)
  /-- A twin lane loses alignment; its frames are resent on other lanes and LANE latches. (R304) -/
  | lane (port : Fin 128)
  /-- No heartbeat edge and no passing frame for TWN_LOSS.US: the partner is lost. (R307) -/
  | partnerLost
  /-- No heartbeat edge for 4 µs while frames pass; WIRE latches. (R307) -/
  | wire
  /-- 10 ms pass in AUTH without both TAGs; pairing FAILED. (R310) -/
  | authTimeout
  /-- JOIN_STROKES consecutive strokes agree and the pair enters PAIRED. (R308) -/
  | joinComplete
  /-- 6 µs before a latch point each device snapshots readiness; the secondary sends READY. (R315) -/
  | twinCutoff
  /-- Tick u + 2 passes and the twin comparison of stroke u finishes; missing PCVs count. (R319) -/
  | twinComparisonEnd
  /-- In one-live mode the standby becomes live at tick n + 2 after partner loss. (R322) -/
  | standbyLive
  /-- TWN_CTRL.SWAP exchanges the acting role, refused in AUTH, JOIN and PAIRED. (R324) -/
  | swap
  /-- TWN_CTRL.RETRY restarts AUTH from ALONE or FAILED. (R308) -/
  | twinRetry
  /-- Clearing PAIR_EN sends PART and returns pairing to IDLE. (R308) -/
  | pairEn
  /-- Setting STOP_ALIVE stops serving: PART, heartbeat low, lanes idle. (R306) -/
  | stopAlive
  /-- TWN_PORT_CTRL.RETRAIN retrains a twin lane and resets its domain alone. (R304) -/
  | twinPortRetrain (port : Fin 128)
  /-- A trunk lane aligns while JOIN_EN is 1 and trunk AUTH is sent. (R328) -/
  | trunkLaneAligned (port : Fin 128)
  /-- A trunk AUTH frame is received and TAG is sent. (R328) -/
  | trunkAuth (head : TrunkHead) (crc : Word) (payload : List Byte)
  /-- A trunk TAG is received and the lane's authentication checks decide. (R328) -/
  | trunkTag (head : TrunkHead) (crc : Word) (payload : List Byte)
  /-- A trunk SYNC frame is received and the uplink delay is computed. (R331) -/
  | trunkSync (head : TrunkHead) (crc : Word) (payload : List Byte) (frac : Fin 16)
  /-- Every 1 ms the device sends SYNC on each trunk port. (R331) -/
  | trunkSyncSend (frac : Fin 16)
  /-- A TICK frame is received, forwarded with corrected CORR and, at phase 0, gives the lodger's reference instant. (R332) -/
  | trunkTick (head : TrunkHead) (crc : Word) (payload : List Byte) (frac : Fin 16) (residence : Nat)
  /-- A PREPARE part is received; a complete group is checked and answered with PREPARED, or a timing image is applied. (R337) -/
  | prepare (head : TrunkHead) (crc : Word) (body : TrunkBody) (ok agrees : Bool) (value : Nat := 0) (ecc : ShadowEcc := .good)
  /-- The originator receives a lodger's verdict on a group. (R337) -/
  | prepared (head : TrunkHead) (crc : Word) (payload : List Byte)
  /-- A lodger receives COMMIT and queues its prepared group, or takes a REFRAME at B0. (R337) -/
  | trunkCommit (head : TrunkHead) (crc : Word) (payload : List Byte)
  /-- A lodger receives ABORT and discards its prepared group. (R337) -/
  | abort (head : TrunkHead) (crc : Word) (payload : List Byte)
  /-- The originator receives a lodger's readiness snapshot. (R338) -/
  | trunkReady (head : TrunkHead) (crc : Word) (payload : List Byte)
  /-- A lodger receives the decision to apply, defer or drop each eligible trunk set. (R338) -/
  | trunkDecision (head : TrunkHead) (crc : Word) (payload : List Byte)
  /-- The originator receives APPLIED and completes the trunk set when all have arrived. (R340) -/
  | applied (head : TrunkHead) (crc : Word) (payload : List Byte)
  /-- The originator receives RELEASED and writes the release fence when all have arrived. (R340) -/
  | released (head : TrunkHead) (crc : Word) (payload : List Byte)
  /-- The originator receives a ROLLUP and writes it as a record. (R343) -/
  | rollup (head : TrunkHead) (crc : Word) (payload : List Byte)
  /-- 1 ms after its camera-frame boundary a joined lodger sends ROLLUP. (R343) -/
  | rollupSend
  /-- A lodger named in a trunk DOORBELL rings the software source on its Bellboard. (R344) -/
  | doorbell (head : TrunkHead) (crc : Word) (payload : List Byte)
  /-- The originator receives LEAVE and removes the device from the roster. (R345) -/
  | leave (head : TrunkHead) (crc : Word) (payload : List Byte)
  /-- A trunk IDLE frame is received and carries nothing. (R327) -/
  | trunkIdle (head : TrunkHead) (crc : Word) (payload : List Byte)
  /-- The originator reads a trunk set and sends PREPARE parts, or completes it MALFORMED, LATE or STATE. (R335) -/
  | tset
  /-- At the commit cutoff the originator sends COMMIT or ABORT. (R337) -/
  | commitCutoff
  /-- READY_US before a latch point each lodger takes its readiness snapshot and sends READY. (R338) -/
  | readinessSnapshot
  /-- READY_US / 2 before the latch point the originator closes gathering and sends DECISION. (R338) -/
  | decisionSend
  /-- A trunk lane resends unacknowledged frames, or goes down after 16 resends. (R327) -/
  | trunkResend (port : Fin 128)
  /-- The active uplink carries no passing frame for TRK_LOSS.US and the other becomes active. (R329) -/
  | uplink
  /-- No path carries a passing frame from a lodger for TRK_LOSS.US; it leaves the roster. (R345) -/
  | lodgerLoss (index : Fin 64) (second : Bool)
  /-- TRK_DB_CTRL.SEND on the originator sends DOORBELL, refused with DB_SOURCE or STATE_ORIGIN. (R344) -/
  | doorbellSend
  /-- TRK_CTRL.RETRY restarts AUTH from ADRIFT or FAILED. (R327) -/
  | trunkRetry
  /-- Clearing JOIN_EN sends LEAVE and returns the trunk state to IDLE. (R327) -/
  | joinEn
  /-- TRK_PORT_CTRL.RETRAIN retrains a trunk lane and resets its domain alone. (R327) -/
  | trunkPortRetrain (port : Fin 128)
  /-- A COPY blit descriptor is read and checked. (R348) -/
  | copy (ring : Fin 16384)
  /-- A FILL blit descriptor is read and checked. (R348) -/
  | fill (ring : Fin 16384)
  /-- A BLEND blit descriptor is read and checked. (R357) -/
  | blend (ring : Fin 16384)
  /-- The blitter starts a blit whose wait fence is satisfied, choosing order and bounce. (R350) -/
  | blitStart
  /-- The source rectangle is in the bounce buffer and destination writes begin. (R355) -/
  | bounceFillDone (bad : List Nat)
  /-- Rows up to WM_LINE hold their final content; WM_VAL is written or 0x4640 raised. (R356) -/
  | watermark (bad : List Nat)
  /-- The blit's writes take effect, SIG_VAL is written and the completion record follows. (R353) -/
  | blitComplete (bad : List Nat)
  /-- WAIT_LIMIT passes first; the blit completes FENCE_TIMEOUT. (R351) -/
  | blitFenceTimeout (ring : Fin 16384)
  /-- BLT_CTRL.HALT lets the blit in progress finish and completes later descriptors STATE. (R360) -/
  | halt (data : Word)
  /-- A tally SCAN descriptor is read and checked. (R366) -/
  | scan (ring : Fin 16384)
  /-- A tally unit starts a scan whose wait fence is satisfied. (R367) -/
  | scanStart (unit : Fin 16)
  /-- A scan ends: result, FIFO entry, fence and completion record. (R368) -/
  | scanComplete (unit : Fin 16) (bad : List Nat)
  /-- A scan's wait limit passes and it completes FENCE_TIMEOUT. (R367) -/
  | scanFenceTimeout (ring : Fin 16384)
  /-- A write of TLY_CFG changes parameters or binds link mode, refused by state, mode or target. (R373) -/
  | tlyCfg (unit : Fin 16) (data : Word)
  /-- A read of TLY_RF_LO pops a result entry, or sets UNDERRUN when empty. (R374) -/
  | resultPop (unit : Fin 16) (ecc : Ecc)
  /-- A write of PROD posts command entries, or is refused with CURSOR_RANGE. (R380) -/
  | ringDoorbell (ring : Fin 16384) (prod : Word) (ecc : Ecc) (weak : List Nat := [])
  /-- A write of CONS on a record ring frees records, or is refused with CURSOR_RANGE. (R387) -/
  | consWrite (ring : Fin 16384) (cons : Word)
  /-- Setting EN of a ring is checked and resets its cursors. (R390) -/
  | ringEnable (ring : Fin 16384) (data : Word)
  /-- Clearing EN stops reads of a command ring or drops later records. (R390) -/
  | ringDisable (ring : Fin 16384) (data : Word)
  /-- A host write of BEL_DOORBELL rings a software source, optionally mirrored to the twin. (R396) -/
  | belDoorbell (data : Word)
  /-- A block's doorbell message pends a source, raises its count or updates a level copy. (R394) -/
  | doorbellMessage (source : BitVec 15) (deassert : Bool) (ecc : BelEcc)
  /-- A read of BEL_PG_CLAIM returns the entry, NONE, or claims the highest-priority pending source. (R398) -/
  | claim (page : Fin 128)
  /-- The first read of BEL_PG_PEND_LO pushes the class's entry under bit presentation. (R399) -/
  | pendRead (page : Fin 128)
  /-- Writing 1 to a pending bit acknowledges its source. (R399) -/
  | pendAck (page : Fin 128) (high : Bool) (mask : Word)
  /-- Writing 1 to STACK_FAULT acknowledges source 0x7FFF. (R399) -/
  | stackFaultAck (target : Fin 64)
  /-- A write of BEL_PG_COMPLETE retires the class's entry and re-arms it. (R400) -/
  | complete (page : Fin 128)
  /-- An armed class with a pending source meets its moderation condition and sends its MSI-X message. (R402) -/
  | msixMessage (page : Fin 128)
  /-- Host software sets IDLE of a class to permit an immediate message. (R403) -/
  | idleSet (page : Fin 128)
  /-- Unmasking an MSI-X vector releases the message that it held. (R403) -/
  | vectorUnmask (vector : Fin 64)
  /-- A wake edge sets its latch; enabled in Doze or Rest it starts the return to Run. (R448) -/
  | wakeLatch (latch : Fin 16)
  /-- A reference-monitor window of 65,536 AON cycles ends and each reference is judged good or lost. (R410) -/
  | refWindow (a b pcie : Nat)
  /-- A reference shows no edge for 1 µs and is lost. (R410) -/
  | refLoss (reference : Fin 3)
  /-- A PLL comparison window ends; the PLL locks or loses lock with the effects of Table 18.3. (R413) -/
  | pllWindow (pll : Fin 37) (diff : Int)
  /-- A system PLL stays unlocked for 16 windows: failed, FAULT_N low, HOLD, composition stops. (R414) -/
  | pllFail (pll : Fin 4)
  /-- A write of a PLL SEED loads its LFSR on the next reference cycle. (R412) -/
  | seed (pll : Fin 37) (data : Word)
  /-- A write of a clock-output register changes it at the end of the low phase, or is refused with CKOUT_RANGE. (R415) -/
  | ckout (output : Fin 8) (divider : Bool) (data : Word)
  /-- A write of 0x53A1 to SDP_FUSE_PROG arms fuse programming for 10 µs. (R427) -/
  | fuseArm
  /-- A write of 0xA153 while armed programs the SEALED fuse. (R427) -/
  | programSealed
  /-- A write of 0x4B48 while armed programs the waybill key hash. (R427) -/
  | programKeyHash
  /-- The fuse arming period ends and the sequence is refused with FUSE_SEQUENCE. (R427) -/
  | fuseDisarm
  /-- Fuse programming completes; FUSE_DONE latches and 0x46D2 rises. (R427) -/
  | fuseDone
  /-- A write of a stage-key word sticks once after cold reset; later writes are ignored. (R428) -/
  | stageKey (word : Fin 8) (data : Word)
  /-- SDP_CTRL.CHALLENGE draws a fresh nonce for a service unlock. (R431) -/
  | challenge
  /-- SDP_CTRL.UNLOCK checks the token; accepted, it holds the ports and clears memory. (R432) -/
  | unlock
  /-- The memory and SRAM clear of an unlock ends and a warm reset boots in Service. (R432) -/
  | unlockClearDone
  /-- A write of DBG_MODE selects Off, Observe or Intrude; Intrude in Sealed is forbidden. (R433) -/
  | dbgMode (data : Word)
  /-- DBG_SNAP.TAKE captures every counter on one FAB edge. (R434) -/
  | take
  /-- DBG_SNAP.RELEASE clears SNAP_HELD. (R434) -/
  | snapRelease
  /-- A write of DBG_HALT halts or resumes porters in Intrude. (R435) -/
  | dbgHalt (word : Fin 8) (data : Word)
  /-- DBG_READ starts a 32 B read from the selected space in Intrude. (R436) -/
  | dbgRead
  /-- The debug read completes within 4 µs; BUSY clears and DAMAGED may set. (R436) -/
  | dbgReadDone (damaged : Bool)
  /-- The test access port instruction BYPASS. (R437) -/
  | bypass
  /-- The test access port instruction IDCODE returns SDP_IDCODE. (R437) -/
  | idcode
  /-- The test access port instruction SAMPLE/PRELOAD. (R437) -/
  | samplePreload (balls : Nat)
  /-- The test access port instruction EXTEST takes the balls from the device's logic. (R437) -/
  | extest
  /-- The test access port instruction DBGACC reaches the DBG region. (R437) -/
  | dbgacc (offset : Nat) (write : Option Word)
  /-- SDP_POWER.GO_RUN requests Run from Doze or Rest. (R439) -/
  | goRun
  /-- SDP_POWER.GO_DOZE requests Doze, refused with TWIN_ACTIVE or STEWARD. (R439) -/
  | goDoze
  /-- SDP_POWER.GO_REST requests Rest, refused with WAYBILL_HOST or STEWARD. (R439) -/
  | goRest
  /-- At the first latch point after an accepted GO_DOZE the device enters Doze and aborts work. (R443) -/
  | dozeEntry
  /-- The device reaches Run from Doze within 5 ms and deals from the next latch point. (R444) -/
  | dozeExit
  /-- After an accepted GO_REST the device saves retained items and powers down all but the always-on island. (R445) -/
  | restEntry
  /-- A wake from Rest powers domains, locks PLLs, trains HBM3E and reloads the waybill. (R447) -/
  | restExit
  /-- The always-on timer reaches 0 in Doze or Rest and sets wake latch 10. (R448) -/
  | aonTimerExpiry
  /-- PORST_N low starts a cold reset of the whole device. (R454) -/
  | coldReset
  /-- VDD_CORE or VDD_HBM leaves its range and the island starts a cold reset. (R453) -/
  | railFault (hbm : Bool)
  /-- SYSRST_N or PERST_N low starts a warm reset that keeps memory. (R454) -/
  | warmReset (perst : Bool)
  /-- A PCI Express FLR, hot reset or link reset starts a function-level reset with a flush phase. (R455) -/
  | functionLevelReset (hot : Bool)
  /-- The flush phase of a function-level or software reset ends and CKG, CAL, MEM and WBL are released. (R456) -/
  | flushEnd
  /-- CAL reads and checks the trim page and applies trims or built-in values. (R462) -/
  | trimRead
  /-- HBM3E PHY training ends and MEM is released. (R457) -/
  | hbmTrainingDone
  /-- The cold-boot zeroing of all memory ends and WBL is released. (R461) -/
  | memoryClearDone
  /-- CAL_FL_CMD.GO with OP 1 copies flash into device memory. (R464) -/
  | flashToMemory
  /-- CAL_FL_CMD.GO with OP 2 erases and programs flash from device memory. (R464) -/
  | memoryToFlash
  /-- A flash command completes; BUSY clears and DONE or ERROR sets. (R464) -/
  | flashCommandDone (failed : Bool) (bad : List Nat := [])
  /-- A write of 0x5452 to CAL_TRIM_KEY arms trim-sector writing for 10 µs. (R465) -/
  | trimKeyArm
  /-- The trim-key arming period ends without a command. (R465) -/
  | trimKeyDisarm
  /-- A read of a capturing register (STK_STROKE_LO, STK_TOD_NS, STK_LTC_WORD0, PRT_DEAL_STROKE_LO, PRT_DONE_STROKE_LO, FLP_LAST_LO) captures its companion registers on one edge until the next such read. (R105) -/
  | capturingRegisterRead (register : Fin 6)
  /-- 10 ms pass in trunk authentication of a lane without both TAGs, so the lane fails with check TIMEOUT and the device may enter FAILED. (R328) -/
  | trunkAuthTimeout (port : Fin 128)
  /-- A trunk lane's receiver loses codeword alignment, so that lane's link is down and an active uplink gives way to the other uplink, or the device goes ADRIFT. (R327) -/
  | trunkLaneLosesAlignment (port : Fin 128)
  /-- Assertion of TRST_N resets the test access port and ends EXTEST, giving the balls back to the device's logic. (R437) -/
  | trstNAsserted
  deriving DecidableEq, Repr

end Sys2Proof
end

