-- ==== Sys2Proof/WellFormed.lean ====
section
/-! DEFINITION. Which commands a sender can form: the ranges that the operand types do not give. -/

namespace Sys2Proof

/-- A BAR0 offset: a 32-bit register inside the 64 MiB window (R30, R36). -/
def bar0 (offset : Nat) : Bool := decide (offset < 2 ^ 26) && decide (offset % 4 = 0)

/-- Whether the operands of a command are such as a sender can form. -/
def Instr.wellFormed : Instr → Bool
  | .bridgeTransfer _ => true
  | .bridgeReplay _ => true
  | .bridgeDown _ => true
  | .bar2Read offset length _ => decide (0 < length) && decide (offset + length ≤ 2 ^ 34)
  | .bar2Write offset data _ => decide (0 < data.length) && decide (offset + data.length ≤ 2 ^ 34)
  | .registerWrite offset _ => bar0 offset
  | .farAccessTimeout offset _ => bar0 offset
  | .glbFlush => true
  | .glbAperture _ => true
  | .resetKeyArm => true
  | .resetKeyConfirm _ => true
  | .resetKeyTimeout => true
  | .ident _ => true
  | .stepping _ => true
  | .smbusStatus _ => true
  | .tempMax _ => true
  | .tempHbmMax _ => true
  | .tempN _ _ => true
  | .alert _ => true
  | .alertClear _ _ => true
  | .smbusUndefined _ _ _ _ => true
  | .alertResponse _ => true
  | .sensorSample die hbm => decide (die.length = 16) && decide (hbm.length = 8)
  | .load => true
  | .flashLoad => true
  | .headerCopyDone _ => true
  | .imageCopyDone _ => true
  | .tick _ => true
  | .latchPoint _ => true
  | .referenceInstant _ => true
  | .missing => true
  | .acqTimeout => true
  | .stkSrc _ => true
  | .todStep => true
  | .reframe => true
  | .reframeTakesEffect _ => true
  | .reframeDone => true
  | .ltcFrame _ _ _ _ _ => true
  | .parcelStart _ _ _ => true
  | .lift _ => true
  | .parcelComposed _ _ _ _ _ => true
  | .parcelAbandon _ => true
  | .strokeLate _ => true
  | .recomposeStart _ _ => true
  | .auditStart _ _ => true
  | .auditDrop _ _ _ => true
  | .fenceWrite _ _ => true
  | .flipset _ _ => true
  | .fenceWait _ => true
  | .fenceWaitDone _ => true
  | .fenceWaitTimeout _ => true
  | .submitResume _ => true
  | .bufferRelease => true
  | .plateCommit _ => true
  | .coachCommit _ _ _ => true
  | .pixels _ _ _ _ _ _ => true
  | .skip _ _ _ => true
  | .strokeMarker _ _ => true
  | .hold _ => true
  | .config _ => true
  | .idle _ length _ _ => decide (length ≤ 16380)
  | .coachRetrain _ => true
  | .coachEn _ _ => true
  | .trainDone _ => true
  | .slotOpen _ _ => true
  | .jam _ => true
  | .status _ _ payload _ _ => decide (payload.length ≤ 255)
  | .alarm _ _ payload _ _ => decide (payload.length ≤ 255)
  | .hello _ _ payload _ _ => decide (payload.length ≤ 255)
  | .ack _ _ payload _ _ => decide (payload.length ≤ 255)
  | .enrol _ => true
  | .release _ => true
  | .access _ => true
  | .enrolNoAnswer _ => true
  | .strangerExpiry _ _ => true
  | .absent _ _ => true
  | .rxfPop _ _ => true
  | .rlcEn _ _ => true
  | .ethFrame _ _ _ _ _ _ _ _ _ => true
  | .frameLanded _ _ => true
  | .rxPost _ => true
  | .tx _ => true
  | .txDone _ => true
  | .tsfPop _ _ => true
  | .contextEnable _ _ _ => true
  | .contextDisable _ _ _ => true
  | .contextLoss _ _ => true
  | .path _ _ => true
  | .linkUp _ => true
  | .linkLeavesUp _ => true
  | .sipRetrain _ => true
  | .reread _ _ _ => true
  | .twinRepairTimeout _ => true
  | .scrubRead _ => true
  | .memPowerDown _ => true
  | .memPowerUp _ => true
  | .logIndex _ _ _ => true
  | .twinLaneAligned _ => true
  | .twinAuth _ _ payload => decide (payload.length ≤ 4096)
  | .twinTag _ _ payload => decide (payload.length ≤ 4096)
  | .part _ _ payload => decide (payload.length ≤ 4096)
  | .heartbeat _ _ payload _ => decide (payload.length ≤ 4096)
  | .heartbeatSend => true
  | .twinSync _ _ payload _ => decide (payload.length ≤ 4096)
  | .twinSyncSend _ => true
  | .mirror _ _ _ _ _ _ => true
  | .state _ _ _ _ _ _ _ _ _ _ => true
  | .twinReady _ _ _ _ _ _ _ => true
  | .twinDecision _ _ _ _ _ _ _ => true
  | .pcv _ _ payload => decide (payload.length ≤ 4096)
  | .resolve _ _ payload _ => decide (payload.length ≤ 4096)
  | .repairReq _ _ payload _ _ => decide (payload.length ≤ 4096)
  | .repairData _ _ payload _ => decide (payload.length ≤ 4096)
  | .repairNak _ _ payload => decide (payload.length ≤ 4096)
  | .twinIdle _ _ payload => decide (payload.length ≤ 4096)
  | .twinResend => true
  | .twinLinkDown _ => true
  | .lane _ => true
  | .partnerLost => true
  | .wire => true
  | .authTimeout => true
  | .joinComplete => true
  | .twinCutoff => true
  | .twinComparisonEnd => true
  | .standbyLive => true
  | .swap => true
  | .twinRetry => true
  | .pairEn => true
  | .stopAlive => true
  | .twinPortRetrain _ => true
  | .trunkLaneAligned _ => true
  | .trunkAuth _ _ payload => decide (payload.length ≤ 4096)
  | .trunkTag _ _ payload => decide (payload.length ≤ 4096)
  | .trunkSync _ _ payload _ => decide (payload.length ≤ 4096)
  | .trunkSyncSend _ => true
  | .trunkTick _ _ payload _ _ => decide (payload.length ≤ 4096)
  | .prepare _ _ _ _ _ _ _ => true
  | .prepared _ _ payload => decide (payload.length ≤ 4096)
  | .trunkCommit _ _ payload => decide (payload.length ≤ 4096)
  | .abort _ _ payload => decide (payload.length ≤ 4096)
  | .trunkReady _ _ payload => decide (payload.length ≤ 4096)
  | .trunkDecision _ _ payload => decide (payload.length ≤ 4096)
  | .applied _ _ payload => decide (payload.length ≤ 4096)
  | .released _ _ payload => decide (payload.length ≤ 4096)
  | .rollup _ _ payload => decide (payload.length ≤ 4096)
  | .rollupSend => true
  | .doorbell _ _ payload => decide (payload.length ≤ 4096)
  | .leave _ _ payload => decide (payload.length ≤ 4096)
  | .trunkIdle _ _ payload => decide (payload.length ≤ 4096)
  | .tset => true
  | .commitCutoff => true
  | .readinessSnapshot => true
  | .decisionSend => true
  | .trunkResend _ => true
  | .uplink => true
  | .lodgerLoss _ _ => true
  | .doorbellSend => true
  | .trunkRetry => true
  | .joinEn => true
  | .trunkPortRetrain _ => true
  | .copy _ => true
  | .fill _ => true
  | .blend _ => true
  | .blitStart => true
  | .bounceFillDone _ => true
  | .watermark _ => true
  | .blitComplete _ => true
  | .blitFenceTimeout _ => true
  | .halt _ => true
  | .scan _ => true
  | .scanStart _ => true
  | .scanComplete _ _ => true
  | .scanFenceTimeout _ => true
  | .tlyCfg _ _ => true
  | .resultPop _ _ => true
  | .ringDoorbell _ _ _ _ => true
  | .consWrite _ _ => true
  | .ringEnable _ _ => true
  | .ringDisable _ _ => true
  | .belDoorbell _ => true
  | .doorbellMessage _ _ _ => true
  | .claim _ => true
  | .pendRead _ => true
  | .pendAck _ _ _ => true
  | .stackFaultAck _ => true
  | .complete _ => true
  | .msixMessage _ => true
  | .idleSet _ => true
  | .vectorUnmask _ => true
  | .wakeLatch _ => true
  | .refWindow _ _ _ => true
  | .refLoss _ => true
  | .pllWindow _ _ => true
  | .pllFail _ => true
  | .seed _ _ => true
  | .ckout _ _ _ => true
  | .fuseArm => true
  | .programSealed => true
  | .programKeyHash => true
  | .fuseDisarm => true
  | .fuseDone => true
  | .stageKey _ _ => true
  | .challenge => true
  | .unlock => true
  | .unlockClearDone => true
  | .dbgMode _ => true
  | .take => true
  | .snapRelease => true
  | .dbgHalt _ _ => true
  | .dbgRead => true
  | .dbgReadDone _ => true
  | .bypass => true
  | .idcode => true
  | .samplePreload _ => true
  | .extest => true
  | .dbgacc offset _ => bar0 offset
  | .goRun => true
  | .goDoze => true
  | .goRest => true
  | .dozeEntry => true
  | .dozeExit => true
  | .restEntry => true
  | .restExit => true
  | .aonTimerExpiry => true
  | .coldReset => true
  | .railFault _ => true
  | .warmReset _ => true
  | .functionLevelReset _ => true
  | .flushEnd => true
  | .trimRead => true
  | .hbmTrainingDone => true
  | .memoryClearDone => true
  | .flashToMemory => true
  | .memoryToFlash => true
  | .flashCommandDone _ _ => true
  | .trimKeyArm => true
  | .trimKeyDisarm => true
  | .capturingRegisterRead _ => true
  | .trunkAuthTimeout _ => true
  | .trunkLaneLosesAlignment _ => true
  | .trstNAsserted => true

/-- The commands that a sender can form. -/
abbrev Instr.WellFormed (i : Instr) : Prop := i.wellFormed = true

end Sys2Proof
end

