-- ==== Sys2Proof/Decode.lean ====
section
/-! DEFINITION. The commands that words spell. The opcode table gives its rows no bits, since commands reach the block
as accesses, frames and events; so no word spells a command. -/

namespace Sys2Proof

/-- The command that a word of the table's bits spells: none, no row has bits. -/
def decodeTableWord (_nbits _w : Nat) : Option Instr := none

end Sys2Proof
end

