-- ==== Sys2Proof/Machine/Table.lean ====
section
/-! DEFINITION. Sparse tables: a list of (key, value) pairs with strictly rising keys that lists no entry equal to
what an unlisted key reads as, so that equal tables are equal data. Memory, flash and the register file are tables. -/

namespace Sys2Proof.Machine

/-- A sparse table over natural-number keys. -/
abbrev Tab (α : Type) := List (Nat × α)

/-- The value at key `k`: the listed one, else the default `d k`. -/
def Tab.get {α : Type} (d : Nat → α) : Tab α → Nat → α
  | [], k => d k
  | (k', v) :: t, k => if k' = k then v else Tab.get d t k

/-- Put an entry in its place, replacing one with the same key. -/
def Tab.insert {α : Type} : Tab α → Nat → α → Tab α
  | [], k, v => [(k, v)]
  | (k', v') :: t, k, v =>
    if k' = k then (k, v) :: t
    else if k < k' then (k, v) :: (k', v') :: t
    else (k', v') :: Tab.insert t k v

/-- Remove the entry of a key. -/
def Tab.remove {α : Type} (t : Tab α) (k : Nat) : Tab α := t.filter fun e => e.1 != k

/-- Write a value: writing what an unlisted key reads as removes the entry. -/
def Tab.set {α : Type} [DecidableEq α] (d : Nat → α) (t : Tab α) (k : Nat) (v : α) : Tab α :=
  if v = d k then t.remove k else t.insert k v

/-- All keys of a table lie above `lo` and rise strictly, and no entry equals its default. -/
def Tab.wfFrom {α : Type} [DecidableEq α] (d : Nat → α) : Option Nat → Tab α → Bool
  | _, [] => true
  | lo, (k, v) :: t => lo.all (· < k) && decide (v ≠ d k) && Tab.wfFrom d (some k) t

/-- The canonical form of a table. -/
def Tab.wf {α : Type} [DecidableEq α] (d : Nat → α) (t : Tab α) : Bool := Tab.wfFrom d none t

/-- Read `n` values from key `k` on. -/
def Tab.range {α : Type} (d : Nat → α) (t : Tab α) (k : Nat) : Nat → List α
  | 0 => []
  | n + 1 => t.get d k :: Tab.range d t (k + 1) n

/-- Write a list of values from key `k` on. -/
def Tab.write {α : Type} [DecidableEq α] (d : Nat → α) (t : Tab α) (k : Nat) : List α → Tab α
  | [] => t
  | v :: vs => Tab.write d (t.set d k v) (k + 1) vs

/-- Give every key of `[k, k + n)` its default again. -/
def Tab.clear {α : Type} (t : Tab α) (k n : Nat) : Tab α := t.filter fun e => !(k ≤ e.1 && e.1 < k + n)

/-! ### Little-endian numbers -/

/-- The number that bytes spell, least significant first. -/
def leNat : List Byte → Nat
  | [] => 0
  | b :: bs => b.toNat + 256 * leNat bs

/-- The low `n` bytes of a number, least significant first. -/
def leBytes : Nat → Nat → List Byte
  | 0, _ => []
  | n + 1, x => BitVec.ofNat 8 x :: leBytes n (x / 256)

/-- The number that bytes spell, most significant first. -/
def beNat (bs : List Byte) : Nat := bs.foldl (fun a b => a * 256 + b.toNat) 0

/-- The low `n` bytes of a number, most significant first. -/
def beBytes (n x : Nat) : List Byte := (leBytes n x).reverse

/-- Bits [hi:lo] of a number. -/
def bits (x hi lo : Nat) : Nat := x / 2 ^ lo % 2 ^ (hi + 1 - lo)

/-- Bit `i` of a number. -/
def bit (x i : Nat) : Bool := x / 2 ^ i % 2 == 1

/-- A number read as two's complement of `n` bits. -/
def signed (n x : Nat) : Int := if x % 2 ^ n < 2 ^ (n - 1) then (x % 2 ^ n : Nat) else ((x % 2 ^ n : Nat) : Int) - (2 ^ n : Nat)

/-- An integer as `n` bits of two's complement. -/
def toTwos (n : Nat) (x : Int) : Nat := (x % (2 ^ n : Nat)).toNat

/-- The `n` smallest numbers of a list of candidates that satisfy `p`. -/
def firstN {α : Type} (n : Nat) (p : α → Bool) (l : List α) : List α := (l.filter p).take n

end Sys2Proof.Machine
end

