-- ==== Sys2Proof/Machine/Crc.lean ====
section
/-! DEFINITION. Check values: the CRC-32C of frames, sections and the trim page (R206, R58, R462), the CRC-16 of
memory blocks (R279) and the general CRC of the tally units (R363). -/

namespace Sys2Proof.Machine

/-- The low `n` bits of a number, in reverse order. -/
def reflectBits : Nat → Nat → Nat
  | 0, _ => 0
  | n + 1, x => (x % 2) * 2 ^ n + reflectBits n (x / 2)

/-- One step of a CRC register of `w` bits (most significant bit first) on one message bit. -/
def crcStep (w poly : Nat) (reg : Nat) (b : Bool) : Nat :=
  let top := reg / 2 ^ (w - 1) % 2
  let sh := reg * 2 % 2 ^ w
  if (top == 1) != b then sh ^^^ poly else sh

/-- The bits of a byte in the order they enter a CRC. -/
def byteBits (reflect : Bool) (b : Byte) : List Bool :=
  let l := (List.range 8).map fun i => bit b.toNat i
  if reflect then l else l.reverse

/-- A CRC register of `w` bits run over bytes. -/
def crcRun (w poly : Nat) (refin : Bool) (reg : Nat) (bs : List Byte) : Nat :=
  bs.foldl (fun r b => (byteBits refin b).foldl (crcStep w poly) r) reg

/-- A CRC of `w` bits with the parameters of Table 16.1 (R363): polynomial, initial value, reflected input,
reflected output and final XOR. -/
def crcGeneral (w poly init : Nat) (refin refout : Bool) (xorout : Nat) (bs : List Byte) : Nat :=
  let r := crcRun w poly refin (init % 2 ^ w) bs
  (if refout then reflectBits w r else r) ^^^ (xorout % 2 ^ w)

/-- CRC-32C: polynomial 0x1EDC6F41, all ones before and after, reflected (R206). -/
def crc32c (bs : List Byte) : Nat := crcGeneral 32 0x1EDC6F41 0xFFFFFFFF true true 0xFFFFFFFF bs

/-- The block check of R279: CRC-16 with polynomial 0x8BB7 over the block number (4 B, little-endian) and the bytes. -/
def blockCheck (number : Nat) (bs : List Byte) : Nat :=
  crcGeneral 16 0x8BB7 0 false false 0 (leBytes 4 number ++ bs)

end Sys2Proof.Machine
end

