-- ==== Sys2Proof/Machine/Regs.lean ====
section
/-! DEFINITION. The register offsets and fields of the BAR0 map, by the names of the spec.

`Reg.X` is the BAR0 offset of register X (a function of its indices where it is replicated); `Fld.X_F` is
field F of register X. Offsets and bit ranges follow the register tables of each chapter (Tables 2.8, 3.10, 4.8,
7.2, 8.6, 8.9, 9.12, 10.7, 11.5, 12.6, 12.9, 13.6, 13.9, 14.8, 14.10, 15.5, 16.3, 17.8 to 17.12, 18.6, 19.12, 19.15, 20.10).
A port page is keyed by the role of the port: 0x1000_0000 times the role code of Table 2.4 is added to its offset, since the
layout of one BAR0 offset differs by role (R35). -/

namespace Sys2Proof.Machine

/-- A bit field [hi:lo] of a 32-bit register. -/
structure Fld where
  hi : Nat
  lo : Nat
  deriving DecidableEq, Repr

namespace Reg

/-! Registers of GLB (02_host_and_registers.md). -/
def GLB_BLKID : Nat := 0x0
def GLB_REFUSED : Nat := 0x4
def GLB_REFUSED_CNT : Nat := 0x8
def GLB_ID : Nat := 0x10
def GLB_GRADE : Nat := 0x14
def GLB_APERTURE : Nat := 0x20
def GLB_ERR_UNMAPPED : Nat := 0x30
def GLB_ERR_UNMAPPED_ADDR : Nat := 0x34
def GLB_ERR_UNMAPPED_CNT : Nat := 0x38
def GLB_FLUSH : Nat := 0x40
def GLB_ERR_FAR : Nat := 0x44
def GLB_ERR_FAR_ADDR : Nat := 0x48
def GLB_ERR_FAR_CNT : Nat := 0x4C
def GLB_RESET_KEY : Nat := 0x50
def GLB_SCRATCH (i : Nat) : Nat := 0x60 + i * 0x4
def MSIX_ADDR_LO (i : Nat) : Nat := 0x8000 + i * 0x10
def MSIX_ADDR_HI (i : Nat) : Nat := 0x8004 + i * 0x10
def MSIX_DATA (i : Nat) : Nat := 0x8008 + i * 0x10
def MSIX_VCTRL (i : Nat) : Nat := 0x800C + i * 0x10
def MSIX_PBA (i : Nat) : Nat := 0x9000 + i * 0x4
/-! Registers of WBL (03_waybill.md). -/
def WBL_BLKID : Nat := 0x10000
def WBL_REFUSED : Nat := 0x10004
def WBL_REFUSED_CNT : Nat := 0x10008
def WBL_CTRL : Nat := 0x10010
def WBL_STATUS : Nat := 0x10014
def WBL_ERR_OFFSET : Nat := 0x10018
def WBL_SLOT_A_ERROR : Nat := 0x1001C
def WBL_HOST_ADDR_LO : Nat := 0x10020
def WBL_HOST_ADDR_HI : Nat := 0x10024
def WBL_SERIAL : Nat := 0x10028
def WBL_ROLE : Nat := 0x1002C
def WBL_BLOCKS : Nat := 0x10030
def WBL_CREW_REGION : Nat := 0x10034
def WBL_HASH_SEED : Nat := 0x10038
def WBL_REF_WHITE : Nat := 0x1003C
def WBL_GLOBAL : Nat := 0x10040
def WBL_CANVAS : Nat := 0x10044
def WBL_DIGEST (i : Nat) : Nat := 0x10050 + i * 0x4
def WBL_PAIR_DIGEST (i : Nat) : Nat := 0x10080 + i * 0x4
def WBL_PORT_ROLE (i : Nat) : Nat := 0x100C0 + i * 0x4
/-! Registers of SDP (19_security_debug_power.md). -/
def SDP_BLKID : Nat := 0x20000
def SDP_REFUSED : Nat := 0x20004
def SDP_REFUSED_CNT : Nat := 0x20008
def SDP_SEC : Nat := 0x20010
def SDP_POWER : Nat := 0x20014
def SDP_EVENT : Nat := 0x20018
def SDP_WAKE_EN : Nat := 0x2001C
def SDP_WAKE_STATUS : Nat := 0x20020
def SDP_AON_TIMER : Nat := 0x20024
def SDP_CTRL : Nat := 0x20028
def SDP_FUSE_PROG : Nat := 0x2002C
def SDP_UNLOCK_ADDR_LO : Nat := 0x20030
def SDP_UNLOCK_ADDR_HI : Nat := 0x20034
def SDP_SERIAL_LO : Nat := 0x20038
def SDP_SERIAL_HI : Nat := 0x2003C
def SDP_NONCE (i : Nat) : Nat := 0x20040 + i * 0x4
def SDP_KEYHASH (i : Nat) : Nat := 0x20060 + i * 0x4
def SDP_STAGE_KEY (i : Nat) : Nat := 0x20090 + i * 0x4
def SDP_THERM_DIE : Nat := 0x200B0
def SDP_THERM_HBM : Nat := 0x200B4
def SDP_THERM_CTRL : Nat := 0x200B8
def SDP_TEMP (i : Nat) : Nat := 0x200C0 + i * 0x4
def SDP_TEMP_HBM (i : Nat) : Nat := 0x20100 + i * 0x4
def SDP_AUDIT_CNT : Nat := 0x20120
def SDP_AUDIT_INDEX : Nat := 0x20124
def SDP_AUDIT_DATA (i : Nat) : Nat := 0x20128 + i * 0x4
def SDP_LULL_CNT : Nat := 0x20140
def SDP_DOZE_CNT : Nat := 0x20144
def SDP_REST_CNT : Nat := 0x20148
def SDP_TRIP_CNT : Nat := 0x2014C
def SDP_IDCODE : Nat := 0x20150
/-! Registers of CKG (18_clocks_and_crossings.md). -/
def CKG_BLKID : Nat := 0x30000
def CKG_REFUSED : Nat := 0x30004
def CKG_REFUSED_CNT : Nat := 0x30008
def CKG_REF_STATUS : Nat := 0x30010
def CKG_EVENT : Nat := 0x30014
def CKG_SYS_LOSS_CNT : Nat := 0x30018
def CKG_QUAD_LOSS_CNT : Nat := 0x3001C
def CKG_REF_LOSS_CNT : Nat := 0x30020
def CKG_SPLL_CTRL (i : Nat) : Nat := 0x30100 + i * 0x20
def CKG_SPLL_DIV (i : Nat) : Nat := 0x30104 + i * 0x20
def CKG_SPLL_FRAC (i : Nat) : Nat := 0x30108 + i * 0x20
def CKG_SPLL_MOD (i : Nat) : Nat := 0x3010C + i * 0x20
def CKG_SPLL_LOCK (i : Nat) : Nat := 0x30110 + i * 0x20
def CKG_SPLL_SEED (i : Nat) : Nat := 0x30114 + i * 0x20
def CKG_SPLL_STATUS (i : Nat) : Nat := 0x30118 + i * 0x20
def CKG_QPLL_CTRL (i : Nat) : Nat := 0x30400 + i * 0x20
def CKG_QPLL_DIV (i : Nat) : Nat := 0x30404 + i * 0x20
def CKG_QPLL_FRAC (i : Nat) : Nat := 0x30408 + i * 0x20
def CKG_QPLL_MOD (i : Nat) : Nat := 0x3040C + i * 0x20
def CKG_QPLL_LOCK (i : Nat) : Nat := 0x30410 + i * 0x20
def CKG_QPLL_SEED (i : Nat) : Nat := 0x30414 + i * 0x20
def CKG_QPLL_STATUS (i : Nat) : Nat := 0x30418 + i * 0x20
def CKG_PPLL_CTRL (i : Nat) : Nat := 0x30800 + i * 0x20
def CKG_PPLL_DIV (i : Nat) : Nat := 0x30804 + i * 0x20
def CKG_PPLL_FRAC (i : Nat) : Nat := 0x30808 + i * 0x20
def CKG_PPLL_MOD (i : Nat) : Nat := 0x3080C + i * 0x20
def CKG_PPLL_LOCK (i : Nat) : Nat := 0x30810 + i * 0x20
def CKG_PPLL_SEED (i : Nat) : Nat := 0x30814 + i * 0x20
def CKG_PPLL_STATUS (i : Nat) : Nat := 0x30818 + i * 0x20
def CKG_OUT_CTRL (i : Nat) : Nat := 0x30900 + i * 0x10
def CKG_OUT_DIV (i : Nat) : Nat := 0x30904 + i * 0x10
/-! Registers of STK (04_strokes_and_genlock.md). -/
def STK_BLKID : Nat := 0x40000
def STK_REFUSED : Nat := 0x40004
def STK_REFUSED_CNT : Nat := 0x40008
def STK_CTRL : Nat := 0x40010
def STK_STATE : Nat := 0x40014
def STK_SRC : Nat := 0x40018
def STK_LOCK : Nat := 0x4001C
def STK_FRAME_PERIOD : Nat := 0x40020
def STK_FRAME_FRAC : Nat := 0x40024
def STK_SHUTTER : Nat := 0x40028
def STK_LATCH_LEAD : Nat := 0x4002C
def STK_PACING : Nat := 0x40030
def STK_FRAME_PERIOD_LIVE : Nat := 0x40040
def STK_FRAME_FRAC_LIVE : Nat := 0x40044
def STK_SHUTTER_LIVE : Nat := 0x40048
def STK_LATCH_LEAD_LIVE : Nat := 0x4004C
def STK_PACING_LIVE : Nat := 0x40050
def STK_STROKE_LO : Nat := 0x40060
def STK_STROKE_HI : Nat := 0x40064
def STK_CFRAME_LO : Nat := 0x40068
def STK_CFRAME_HI : Nat := 0x4006C
def STK_POSITION : Nat := 0x40070
def STK_ERROR : Nat := 0x40074
def STK_RATE : Nat := 0x40078
def STK_TOD_NS : Nat := 0x40080
def STK_TOD_SEC_LO : Nat := 0x40084
def STK_TOD_SEC_HI : Nat := 0x40088
def STK_TOD_RATE : Nat := 0x4008C
def STK_TOD_STEP_NS : Nat := 0x40090
def STK_TOD_STEP_SEC : Nat := 0x40094
def STK_EVENT : Nat := 0x400A0
def STK_HOLDOVER_CNT : Nat := 0x400A4
def STK_MISSING_CNT : Nat := 0x400A8
def STK_REFRAME_CNT : Nat := 0x400AC
def STK_OUT : Nat := 0x400B0
def STK_OUT_LIVE : Nat := 0x400B4
def STK_LTC_WORD0 : Nat := 0x400C0
def STK_LTC_WORD1 : Nat := 0x400C4
def STK_LTC_STROKE_LO : Nat := 0x400C8
def STK_LTC_STROKE_HI : Nat := 0x400CC
def STK_LTC_OFFSET : Nat := 0x400D0
def STK_LTC_STATUS : Nat := 0x400D4
def STK_LTC_DROP_CNT : Nat := 0x400D8
def STK_SHOW (i : Nat) : Nat := 0x40100 + i * 0x4
def STK_SHOW_LIVE (i : Nat) : Nat := 0x40140 + i * 0x4
def STK_PHASE_LEN (i : Nat) : Nat := 0x300000 + i * 0x10
def STK_PHASE_LEN_LIVE (i : Nat) : Nat := 0x300004 + i * 0x10
/-! Registers of FLP (08_flips_fences_plates.md). -/
def FLP_BLKID : Nat := 0x50000
def FLP_REFUSED : Nat := 0x50004
def FLP_REFUSED_CNT : Nat := 0x50008
def FLP_STATUS : Nat := 0x50010
def FLP_EVENT : Nat := 0x50014
def FLP_LAST_LO : Nat := 0x50018
def FLP_LAST_HI : Nat := 0x5001C
def FLP_APPLY_CNT : Nat := 0x50020
def FLP_DEFER_CNT : Nat := 0x50024
def FLP_HELD_CNT : Nat := 0x50028
def FLP_TIMEOUT_CNT : Nat := 0x5002C
def FLP_LATE_CNT : Nat := 0x50030
def FLP_MALFORMED_CNT : Nat := 0x50034
def FLP_BUDGET_CNT : Nat := 0x50038
def FLP_FENCE_NOTIFY (i : Nat) : Nat := 0x50100 + i * 0x4
def FLP_FENCE (i : Nat) : Nat := 0x51000 + i * 0x4
/-! Registers of BEL (17_rings_and_bellboard.md). -/
def BEL_BLKID : Nat := 0x60000
def BEL_REFUSED : Nat := 0x60004
def BEL_REFUSED_CNT : Nat := 0x60008
def BEL_FAULT : Nat := 0x60010
def BEL_FAULT_SRC : Nat := 0x60014
def BEL_FAULT_CNT : Nat := 0x60020
def BEL_SPURIOUS_CNT : Nat := 0x60024
def BEL_UNROUTED_CNT : Nat := 0x60028
def BEL_EMPTY_CNT : Nat := 0x6002C
def BEL_MSG_CNT : Nat := 0x60030
def BEL_PG_CLAIM (i : Nat) : Nat := 0x61000 + i % 64 * 0x100 + i / 64 * 0x7000
def BEL_PG_COMPLETE (i : Nat) : Nat := 0x61004 + i % 64 * 0x100 + i / 64 * 0x7000
def BEL_PG_PEND_LO (i : Nat) : Nat := 0x61008 + i % 64 * 0x100 + i / 64 * 0x7000
def BEL_PG_PEND_HI (i : Nat) : Nat := 0x6100C + i % 64 * 0x100 + i / 64 * 0x7000
def BEL_PG_CTRL (i : Nat) : Nat := 0x61010 + i % 64 * 0x100 + i / 64 * 0x7000
def BEL_PG_IDLE (i : Nat) : Nat := 0x61014 + i % 64 * 0x100 + i / 64 * 0x7000
def BEL_PG_STATUS (i : Nat) : Nat := 0x61018 + i % 64 * 0x100 + i / 64 * 0x7000
def BEL_PG_SIZE (i : Nat) : Nat := 0x6101C + i % 64 * 0x100 + i / 64 * 0x7000
def BEL_PG_MSG_CNT (i : Nat) : Nat := 0x61020 + i % 64 * 0x100 + i / 64 * 0x7000
/-! Registers of RNG (17_rings_and_bellboard.md). -/
def RNG_BLKID : Nat := 0x70000
def RNG_REFUSED : Nat := 0x70004
def RNG_REFUSED_CNT : Nat := 0x70008
def RNG_EVENT : Nat := 0x70010
def RNG_PROD_ERR_RING : Nat := 0x70014
def RNG_PROD_ERR_CNT : Nat := 0x70018
def RNG_DROP_CNT : Nat := 0x7001C
def RNG_FAULT_CNT : Nat := 0x70020
def RNG_RS_CTRL (i : Nat) : Nat := 0x800000 + i * 0x40
def RNG_RS_BASE_LO (i : Nat) : Nat := 0x800004 + i * 0x40
def RNG_RS_BASE_HI (i : Nat) : Nat := 0x800008 + i * 0x40
def RNG_RS_PROD (i : Nat) : Nat := 0x80000C + i * 0x40
def RNG_RS_CONS (i : Nat) : Nat := 0x800010 + i * 0x40
def RNG_RS_RETIRE (i : Nat) : Nat := 0x800014 + i * 0x40
def RNG_RS_MARK (i : Nat) : Nat := 0x800018 + i * 0x40
def RNG_RS_LEVEL (i : Nat) : Nat := 0x80001C + i * 0x40
def RNG_RS_EVENT (i : Nat) : Nat := 0x800020 + i * 0x40
def RNG_RS_MARK_CNT (i : Nat) : Nat := 0x800024 + i * 0x40
def RNG_RS_DONE_CNT (i : Nat) : Nat := 0x800028 + i * 0x40
def RNG_RS_DROP_CNT (i : Nat) : Nat := 0x80002C + i * 0x40
/-! Registers of BLT (15_blitter.md). -/
def BLT_BLKID : Nat := 0x80000
def BLT_REFUSED : Nat := 0x80004
def BLT_REFUSED_CNT : Nat := 0x80008
def BLT_CTRL : Nat := 0x80010
def BLT_STATUS : Nat := 0x80014
def BLT_EVENT : Nat := 0x80018
def BLT_DONE_CNT : Nat := 0x80020
def BLT_MALFORMED_CNT : Nat := 0x80024
def BLT_OVERLAP_CNT : Nat := 0x80028
def BLT_TIMEOUT_CNT : Nat := 0x8002C
def BLT_STATE_CNT : Nat := 0x80030
def BLT_ABORT_CNT : Nat := 0x80034
def BLT_POISON_CNT : Nat := 0x80038
def BLT_BOUNCE_CNT : Nat := 0x8003C
def BLT_KIB_CNT : Nat := 0x80040
/-! Registers of TLY (16_tally_units.md). -/
def TLY_BLKID : Nat := 0x90000
def TLY_REFUSED : Nat := 0x90004
def TLY_REFUSED_CNT : Nat := 0x90008
def TLY_CFG (i : Nat) : Nat := 0x90010 + i * 0x400
def TLY_STATUS (i : Nat) : Nat := 0x90014 + i * 0x400
def TLY_EVENT (i : Nat) : Nat := 0x90018 + i * 0x400
def TLY_POLY_LO (i : Nat) : Nat := 0x90020 + i * 0x400
def TLY_POLY_HI (i : Nat) : Nat := 0x90024 + i * 0x400
def TLY_INIT_LO (i : Nat) : Nat := 0x90028 + i * 0x400
def TLY_INIT_HI (i : Nat) : Nat := 0x9002C + i * 0x400
def TLY_XOROUT_LO (i : Nat) : Nat := 0x90030 + i * 0x400
def TLY_XOROUT_HI (i : Nat) : Nat := 0x90034 + i * 0x400
def TLY_RF_LO (i : Nat) : Nat := 0x90040 + i * 0x400
def TLY_RF_HI (i : Nat) : Nat := 0x90044 + i * 0x400
def TLY_RF_INFO (i : Nat) : Nat := 0x90048 + i * 0x400
def TLY_RF_COUNT (i : Nat) : Nat := 0x9004C + i * 0x400
def TLY_RF_STATUS (i : Nat) : Nat := 0x90050 + i * 0x400
def TLY_SCAN_CNT (i : Nat) : Nat := 0x90060 + i * 0x400
def TLY_MISMATCH_CNT (i : Nat) : Nat := 0x90064 + i * 0x400
def TLY_DAMAGED_CNT (i : Nat) : Nat := 0x90068 + i * 0x400
def TLY_APPEND_CNT (i : Nat) : Nat := 0x9006C + i * 0x400
def TLY_STRIP_CNT (i : Nat) : Nat := 0x90070 + i * 0x400
def TLY_STRIP_FAIL_CNT (i : Nat) : Nat := 0x90074 + i * 0x400
def TLY_RF_DROP_CNT (i : Nat) : Nat := 0x90078 + i * 0x400
def TLY_RF_CORR_CNT (i : Nat) : Nat := 0x9007C + i * 0x400
/-! Registers of PRT (07_porters_parcels_lifting.md). -/
def PRT_BLKID : Nat := 0xA0000
def PRT_REFUSED : Nat := 0xA0004
def PRT_REFUSED_CNT : Nat := 0xA0008
def PRT_PARCEL : Nat := 0xA0010
def PRT_PARCEL_LIVE : Nat := 0xA0014
def PRT_DEAL_STROKE_LO : Nat := 0xA0020
def PRT_DEAL_STROKE_HI : Nat := 0xA0024
def PRT_DEAL_COUNT : Nat := 0xA0028
def PRT_DONE_STROKE_LO : Nat := 0xA002C
def PRT_DONE_STROKE_HI : Nat := 0xA0030
def PRT_EVENT : Nat := 0xA0034
def PRT_LATE_CNT : Nat := 0xA0038
def PRT_LIFT_CNT : Nat := 0xA003C
def PRT_LIFT_XHALF_CNT : Nat := 0xA0040
def PRT_USE_MARK : Nat := 0xA0044
def PRT_USE : Nat := 0xA0048
def PRT_USE_HIGH_CNT : Nat := 0xA004C
def PRT_ADM_CLOCKS : Nat := 0xA0050
def PRT_ADM_BYTES : Nat := 0xA0054
def PRT_ADM_SLACK : Nat := 0xA0058
def PRT_ADM_REASON : Nat := 0xA005C
def PRT_ADM_REFUSE_CNT : Nat := 0xA0060
def PRT_WIT_CTRL (i : Nat) : Nat := 0xA1000 + i * 0x20
def PRT_WIT_POS (i : Nat) : Nat := 0xA1004 + i * 0x20
def PRT_WIT_SIZE (i : Nat) : Nat := 0xA1008 + i * 0x20
def PRT_WIT_EXPECT (i : Nat) : Nat := 0xA100C + i * 0x20
def PRT_WIT_LAST (i : Nat) : Nat := 0xA1010 + i * 0x20
def PRT_WIT_STROKE (i : Nat) : Nat := 0xA1014 + i * 0x20
def PRT_WIT_MISMATCH_CNT (i : Nat) : Nat := 0xA1018 + i * 0x20
def PRT_WIT_SKIP_CNT (i : Nat) : Nat := 0xA101C + i * 0x20
def PRT_PW_STATE (i : Nat) : Nat := 0x1000000 + i * 0x1000
def PRT_PW_SATCHEL (i : Nat) : Nat := 0x1000004 + i * 0x1000
def PRT_PW_DONE_CNT (i : Nat) : Nat := 0x1000008 + i * 0x1000
def PRT_PW_LIFT_CNT (i : Nat) : Nat := 0x100000C + i * 0x1000
def PRT_PW_LIFTED_CNT (i : Nat) : Nat := 0x1000010 + i * 0x1000
def PRT_PW_BUSY_CNT (i : Nat) : Nat := 0x1000014 + i * 0x1000
def PRT_PW_RECOMP_CNT (i : Nat) : Nat := 0x1000018 + i * 0x1000
def PRT_LD_CTRL (i : Nat) : Nat := 0x200000 + i * 0x100
def PRT_LD_PITCH (i : Nat) : Nat := 0x200004 + i * 0x100
def PRT_LD_SIZE (i : Nat) : Nat := 0x200008 + i * 0x100
def PRT_LD_CROP_POS (i : Nat) : Nat := 0x20000C + i * 0x100
def PRT_LD_CROP_SIZE (i : Nat) : Nat := 0x200010 + i * 0x100
def PRT_LD_DST_X (i : Nat) : Nat := 0x200014 + i * 0x100
def PRT_LD_DST_Y (i : Nat) : Nat := 0x200018 + i * 0x100
def PRT_LD_DST_SIZE (i : Nat) : Nat := 0x20001C + i * 0x100
def PRT_LD_WARP_LO (i : Nat) : Nat := 0x200020 + i * 0x100
def PRT_LD_WARP_HI (i : Nat) : Nat := 0x200024 + i * 0x100
def PRT_LD_BUF_LO (i : Nat) : Nat := 0x200028 + i * 0x100
def PRT_LD_BUF_HI (i : Nat) : Nat := 0x20002C + i * 0x100
def PRT_LD_CTRL_LIVE (i : Nat) : Nat := 0x200080 + i * 0x100
def PRT_LD_PITCH_LIVE (i : Nat) : Nat := 0x200084 + i * 0x100
def PRT_LD_SIZE_LIVE (i : Nat) : Nat := 0x200088 + i * 0x100
def PRT_LD_CROP_POS_LIVE (i : Nat) : Nat := 0x20008C + i * 0x100
def PRT_LD_CROP_SIZE_LIVE (i : Nat) : Nat := 0x200090 + i * 0x100
def PRT_LD_DST_X_LIVE (i : Nat) : Nat := 0x200094 + i * 0x100
def PRT_LD_DST_Y_LIVE (i : Nat) : Nat := 0x200098 + i * 0x100
def PRT_LD_DST_SIZE_LIVE (i : Nat) : Nat := 0x20009C + i * 0x100
def PRT_LD_WARP_LO_LIVE (i : Nat) : Nat := 0x2000A0 + i * 0x100
def PRT_LD_WARP_HI_LIVE (i : Nat) : Nat := 0x2000A4 + i * 0x100
def PRT_LD_BUF_LO_LIVE (i : Nat) : Nat := 0x2000A8 + i * 0x100
def PRT_LD_BUF_HI_LIVE (i : Nat) : Nat := 0x2000AC + i * 0x100
def PRT_SK_CTRL (i : Nat) : Nat := 0x240000 + i * 0x1000
def PRT_SK_POS (i : Nat) : Nat := 0x240004 + i * 0x1000
def PRT_SK_SIZE (i : Nat) : Nat := 0x240008 + i * 0x1000
def PRT_SK_BASE_R (i : Nat) : Nat := 0x24000C + i * 0x1000
def PRT_SK_BASE_G (i : Nat) : Nat := 0x240010 + i * 0x1000
def PRT_SK_BASE_B (i : Nat) : Nat := 0x240014 + i * 0x1000
def PRT_SK_BASE_A (i : Nat) : Nat := 0x240018 + i * 0x1000
def PRT_SLOT_CTRL (i : Nat) (j : Nat) : Nat := 0x240040 + i * 0x1000 + j * 0x8
def PRT_SLOT_OPACITY (i : Nat) (j : Nat) : Nat := 0x240044 + i * 0x1000 + j * 0x8
def PRT_STG_TYPE (i : Nat) (j : Nat) : Nat := 0x240140 + i * 0x1000 + j * 0x40
def PRT_STG_SLOTS (i : Nat) (j : Nat) : Nat := 0x240144 + i * 0x1000 + j * 0x40
def PRT_STG_P (i : Nat) (j : Nat) (k : Nat) : Nat := 0x240148 + i * 0x1000 + j * 0x40 + k * 0x4
def PRT_SK_CTRL_LIVE (i : Nat) : Nat := 0x240800 + i * 0x1000
def PRT_SK_POS_LIVE (i : Nat) : Nat := 0x240804 + i * 0x1000
def PRT_SK_SIZE_LIVE (i : Nat) : Nat := 0x240808 + i * 0x1000
def PRT_SK_BASE_R_LIVE (i : Nat) : Nat := 0x24080C + i * 0x1000
def PRT_SK_BASE_G_LIVE (i : Nat) : Nat := 0x240810 + i * 0x1000
def PRT_SK_BASE_B_LIVE (i : Nat) : Nat := 0x240814 + i * 0x1000
def PRT_SK_BASE_A_LIVE (i : Nat) : Nat := 0x240818 + i * 0x1000
def PRT_SLOT_CTRL_LIVE (i : Nat) (j : Nat) : Nat := 0x240840 + i * 0x1000 + j * 0x8
def PRT_SLOT_OPACITY_LIVE (i : Nat) (j : Nat) : Nat := 0x240844 + i * 0x1000 + j * 0x8
def PRT_STG_TYPE_LIVE (i : Nat) (j : Nat) : Nat := 0x240940 + i * 0x1000 + j * 0x40
def PRT_STG_SLOTS_LIVE (i : Nat) (j : Nat) : Nat := 0x240944 + i * 0x1000 + j * 0x40
def PRT_STG_P_LIVE (i : Nat) (j : Nat) (k : Nat) : Nat := 0x240948 + i * 0x1000 + j * 0x40 + k * 0x4
def PRT_PMAP_LO (i : Nat) : Nat := 0x301000 + i * 0x8
def PRT_PMAP_HI (i : Nat) : Nat := 0x301004 + i * 0x8
def PRT_PMAP_LO_LIVE (i : Nat) : Nat := 0x301100 + i * 0x8
def PRT_PMAP_HI_LIVE (i : Nat) : Nat := 0x301104 + i * 0x8
/-! Registers of STL (08_flips_fences_plates.md). -/
def STL_BLKID : Nat := 0xB0000
def STL_REFUSED : Nat := 0xB0004
def STL_REFUSED_CNT : Nat := 0xB0008
def STL_EVENT : Nat := 0xB0010
def STL_SETTLED_FREE : Nat := 0xB0014
def STL_REFLAT_CNT : Nat := 0xB0018
def STL_FUSED_CNT : Nat := 0xB001C
def STL_SK_STATE (i : Nat) : Nat := 0xB0100 + i * 0x8
def STL_SK_REFLAT_CNT (i : Nat) : Nat := 0xB0104 + i * 0x8
def STL_PR_CTRL (i : Nat) : Nat := 0xB1000 + i * 0x40
def STL_PR_BASE_LO (i : Nat) : Nat := 0xB1004 + i * 0x40
def STL_PR_BASE_HI (i : Nat) : Nat := 0xB1008 + i * 0x40
def STL_PR_GEOM (i : Nat) : Nat := 0xB100C + i * 0x40
def STL_PR_POS (i : Nat) : Nat := 0xB1010 + i * 0x40
def STL_PR_MARK (i : Nat) : Nat := 0xB1014 + i * 0x40
def STL_PR_COMMIT (i : Nat) : Nat := 0xB1018 + i * 0x40
def STL_PR_EVENT (i : Nat) : Nat := 0xB101C + i * 0x40
def STL_PR_STARVE_CNT (i : Nat) : Nat := 0xB1020 + i * 0x40
def STL_PR_FULL_CNT (i : Nat) : Nat := 0xB1024 + i * 0x40
def STL_PR_MARK_LOST_CNT (i : Nat) : Nat := 0xB1028 + i * 0x40
/-! Registers of MEM (12_checks_and_recomputation.md). -/
def MEM_BLKID : Nat := 0xC0000
def MEM_REFUSED : Nat := 0xC0004
def MEM_REFUSED_CNT : Nat := 0xC0008
def MEM_PD_CTRL : Nat := 0xC0010
def MEM_STATUS : Nat := 0xC0014
def MEM_FAIL_CNT (i : Nat) : Nat := 0xC0020 + i * 0x4
def MEM_PD_CNT (i : Nat) : Nat := 0xC0040 + i * 0x4
def MEM_PART_SPAN (i : Nat) : Nat := 0xC0100 + i * 0x8
def MEM_PART_KIND (i : Nat) : Nat := 0xC0104 + i * 0x8
/-! Registers of DEP (12_checks_and_recomputation.md). -/
def DEP_BLKID : Nat := 0xD0000
def DEP_REFUSED : Nat := 0xD0004
def DEP_REFUSED_CNT : Nat := 0xD0008
def DEP_CTRL : Nat := 0xD0010
def DEP_LAMBDA : Nat := 0xD0014
def DEP_STATUS : Nat := 0xD0018
def DEP_EVENT : Nat := 0xD001C
def DEP_LOG_RING : Nat := 0xD0020
def DEP_LOG_INDEX : Nat := 0xD0024
def DEP_LOG_COUNT : Nat := 0xD0028
def DEP_LOG_DATA (i : Nat) : Nat := 0xD0030 + i * 0x4
def DEP_LIFE_HOURS : Nat := 0xD0050
def DEP_LIFE_EQUIV : Nat := 0xD0054
def DEP_BRIDGE_REPLAY : Nat := 0xD0080
def DEP_BLOCK_FAIL_CNT : Nat := 0xD0084
def DEP_REREAD_OK_CNT : Nat := 0xD0088
def DEP_TWIN_REPAIR_CNT : Nat := 0xD008C
def DEP_TWIN_REPAIR_FAIL_CNT : Nat := 0xD0090
def DEP_SEAL_FAIL_CNT : Nat := 0xD0094
def DEP_RECOMP_CNT : Nat := 0xD0098
def DEP_AUDIT_CNT : Nat := 0xD009C
def DEP_AUDIT_MISMATCH_CNT : Nat := 0xD00A0
def DEP_AUDIT_DROP_CNT : Nat := 0xD00A4
def DEP_ESCAPE_CNT : Nat := 0xD00A8
def DEP_UNRECOV_CNT : Nat := 0xD00AC
def DEP_UNDERRUN_CNT : Nat := 0xD00B0
def DEP_PARITY_CNT : Nat := 0xD00B4
def DEP_SECDED_CORR_CNT : Nat := 0xD00B8
def DEP_SECDED_UNCORR_CNT : Nat := 0xD00BC
def DEP_POISON_READ_CNT : Nat := 0xD00C0
def DEP_SCRUB_FAIL_CNT : Nat := 0xD00C4
/-! Registers of TWN (13_twin_pairing.md). -/
def TWN_BLKID : Nat := 0xE0000
def TWN_REFUSED : Nat := 0xE0004
def TWN_REFUSED_CNT : Nat := 0xE0008
def TWN_CTRL : Nat := 0xE0010
def TWN_STATUS : Nat := 0xE0014
def TWN_EVENT : Nat := 0xE0018
def TWN_LOSS : Nat := 0xE001C
def TWN_DELAY : Nat := 0xE0020
def TWN_SKEW : Nat := 0xE0024
def TWN_SKEW_MARK : Nat := 0xE0028
def TWN_PCV_MATCH_CNT : Nat := 0xE0040
def TWN_PCV_MISMATCH_CNT : Nat := 0xE0044
def TWN_RESOLVED_CNT : Nat := 0xE0048
def TWN_DIVERGE_CNT : Nat := 0xE004C
def TWN_PCV_MISSING_CNT : Nat := 0xE0050
def TWN_REPAIR_SERVED_CNT : Nat := 0xE0054
def TWN_REPAIR_REFUSED_CNT : Nat := 0xE0058
def TWN_RETRANSMIT_CNT : Nat := 0xE005C
def TWN_VERDICT_DIFF_CNT : Nat := 0xE0060
def TWN_LOCAL_DROP_CNT : Nat := 0xE0064
def TWN_LOSS_CNT : Nat := 0xE0068
def TWN_SKEW_CNT : Nat := 0xE006C
def TWN_MIRROR_CNT : Nat := 0xE0070
/-! Registers of TRK (14_steward_and_lodgers.md). -/
def TRK_BLKID : Nat := 0xF0000
def TRK_REFUSED : Nat := 0xF0004
def TRK_REFUSED_CNT : Nat := 0xF0008
def TRK_CTRL : Nat := 0xF0010
def TRK_STATUS : Nat := 0xF0014
def TRK_EVENT : Nat := 0xF0018
def TRK_TIMES : Nat := 0xF001C
def TRK_LOSS : Nat := 0xF0020
def TRK_RING : Nat := 0xF0024
def TRK_ROSTER_LO : Nat := 0xF0028
def TRK_ROSTER_HI : Nat := 0xF002C
def TRK_DELAY0 : Nat := 0xF0030
def TRK_DELAY1 : Nat := 0xF0034
def TRK_DB_MASK_LO : Nat := 0xF0038
def TRK_DB_MASK_HI : Nat := 0xF003C
def TRK_DB_SOURCE : Nat := 0xF0040
def TRK_DB_CTRL : Nat := 0xF0044
def TRK_SET_CNT : Nat := 0xF0060
def TRK_ABORT_CNT : Nat := 0xF0064
def TRK_READY_LATE_CNT : Nat := 0xF0068
def TRK_DECISION_LATE_CNT : Nat := 0xF006C
def TRK_RETRANSMIT_CNT : Nat := 0xF0070
def TRK_UPLINK_CNT : Nat := 0xF0074
def TRK_ROLLUP_CNT : Nat := 0xF0078
def TRK_ROLLUP_DROP_CNT : Nat := 0xF007C
def TRK_DOORBELL_CNT : Nat := 0xF0080
/-! Registers of CAL (20_reset_boot_trim.md). -/
def CAL_BLKID : Nat := 0x100000
def CAL_REFUSED : Nat := 0x100004
def CAL_REFUSED_CNT : Nat := 0x100008
def CAL_STATUS : Nat := 0x100010
def CAL_FL_CMD : Nat := 0x100014
def CAL_FL_OFFSET : Nat := 0x100018
def CAL_FL_LEN : Nat := 0x10001C
def CAL_FL_ADDR_LO : Nat := 0x100020
def CAL_FL_ADDR_HI : Nat := 0x100024
def CAL_TRIM_KEY : Nat := 0x100028
def CAL_FL_SIZE : Nat := 0x10002C
/-! Registers of DBG (19_security_debug_power.md). -/
def DBG_BLKID : Nat := 0x110000
def DBG_REFUSED : Nat := 0x110004
def DBG_REFUSED_CNT : Nat := 0x110008
def DBG_MODE : Nat := 0x110010
def DBG_STATUS : Nat := 0x110014
def DBG_SNAP : Nat := 0x110018
def DBG_HALT (i : Nat) : Nat := 0x110020 + i * 0x4
def DBG_ADDR_LO : Nat := 0x110040
def DBG_ADDR_HI : Nat := 0x110044
def DBG_SPACE : Nat := 0x110048
def DBG_READ : Nat := 0x11004C
def DBG_DATA (i : Nat) : Nat := 0x110060 + i * 0x4
/-! Registers of CPT (09_coach_links_scanout.md). -/
def CPT_BLKID (i : Nat) : Nat := 0x12000000 + i * 0x10000
def CPT_REFUSED (i : Nat) : Nat := 0x12000004 + i * 0x10000
def CPT_REFUSED_CNT (i : Nat) : Nat := 0x12000008 + i * 0x10000
def CPT_CTRL (i : Nat) : Nat := 0x12000010 + i * 0x10000
def CPT_STATUS (i : Nat) : Nat := 0x12000014 + i * 0x10000
def CPT_CHAIN_ID (i : Nat) : Nat := 0x12000018 + i * 0x10000
def CPT_COMMIT (i : Nat) : Nat := 0x1200001C + i * 0x10000
def CPT_COMMIT_TGT_LO (i : Nat) : Nat := 0x12000020 + i * 0x10000
def CPT_COMMIT_TGT_HI (i : Nat) : Nat := 0x12000024 + i * 0x10000
def CPT_EVENT (i : Nat) : Nat := 0x12000028 + i * 0x10000
def CPT_SLACK (i : Nat) : Nat := 0x1200002C + i * 0x10000
def CPT_SLACK_MARK (i : Nat) : Nat := 0x12000030 + i * 0x10000
def CPT_TX (i : Nat) : Nat := 0x12000034 + i * 0x10000
def CPT_FRAME_CNT (i : Nat) : Nat := 0x12000040 + i * 0x10000
def CPT_MARKER_CNT (i : Nat) : Nat := 0x12000044 + i * 0x10000
def CPT_SKIP_CNT (i : Nat) : Nat := 0x12000048 + i * 0x10000
def CPT_REPEAT_CNT (i : Nat) : Nat := 0x1200004C + i * 0x10000
def CPT_UNDERRUN (i : Nat) : Nat := 0x12000050 + i * 0x10000
def CPT_SLACK_LOW_CNT (i : Nat) : Nat := 0x12000054 + i * 0x10000
def CPT_HOLD_CNT (i : Nat) : Nat := 0x12000058 + i * 0x10000
def CPT_TORN_CNT (i : Nat) : Nat := 0x1200005C + i * 0x10000
def CPT_COMMIT_CNT (i : Nat) : Nat := 0x12000060 + i * 0x10000
def CPT_RM_CTRL (i : Nat) (j : Nat) : Nat := 0x12001000 + i * 0x10000 + j * 0x20
def CPT_RM_POS (i : Nat) (j : Nat) : Nat := 0x12001004 + i * 0x10000 + j * 0x20
def CPT_RM_SIZE (i : Nat) (j : Nat) : Nat := 0x12001008 + i * 0x10000 + j * 0x20
def CPT_RM_CALIB (i : Nat) (j : Nat) : Nat := 0x1200100C + i * 0x10000 + j * 0x20
def CPT_RM_PATH (i : Nat) (j : Nat) : Nat := 0x12001010 + i * 0x10000 + j * 0x20
def CPT_RM_CTRL_LIVE (i : Nat) (j : Nat) : Nat := 0x12001800 + i * 0x10000 + j * 0x20
def CPT_RM_POS_LIVE (i : Nat) (j : Nat) : Nat := 0x12001804 + i * 0x10000 + j * 0x20
def CPT_RM_SIZE_LIVE (i : Nat) (j : Nat) : Nat := 0x12001808 + i * 0x10000 + j * 0x20
def CPT_RM_CALIB_LIVE (i : Nat) (j : Nat) : Nat := 0x1200180C + i * 0x10000 + j * 0x20
def CPT_RM_PATH_LIVE (i : Nat) (j : Nat) : Nat := 0x12001810 + i * 0x10000 + j * 0x20
/-! Registers of SIP (11_stream_inputs.md). -/
def SIP_BLKID (i : Nat) : Nat := 0x22000000 + i * 0x10000
def SIP_REFUSED (i : Nat) : Nat := 0x22000004 + i * 0x10000
def SIP_REFUSED_CNT (i : Nat) : Nat := 0x22000008 + i * 0x10000
def SIP_CTRL (i : Nat) : Nat := 0x22000010 + i * 0x10000
def SIP_STATUS (i : Nat) : Nat := 0x22000014 + i * 0x10000
def SIP_MAC_LO (i : Nat) : Nat := 0x22000018 + i * 0x10000
def SIP_MAC_HI (i : Nat) : Nat := 0x2200001C + i * 0x10000
def SIP_RING (i : Nat) : Nat := 0x22000020 + i * 0x10000
def SIP_EVENT (i : Nat) : Nat := 0x22000024 + i * 0x10000
def SIP_SP_UDP (i : Nat) (j : Nat) : Nat := 0x22000028 + i * 0x10000 + j * 0x4
def SIP_TSF_NS (i : Nat) : Nat := 0x22000030 + i * 0x10000
def SIP_TSF_SEC_LO (i : Nat) : Nat := 0x22000034 + i * 0x10000
def SIP_TSF_SEC_HI (i : Nat) : Nat := 0x22000038 + i * 0x10000
def SIP_TSF_COUNT (i : Nat) : Nat := 0x2200003C + i * 0x10000
def SIP_TSF_STATUS (i : Nat) : Nat := 0x22000040 + i * 0x10000
def SIP_RX_ERR_CNT (i : Nat) : Nat := 0x22000050 + i * 0x10000
def SIP_IP_ERR_CNT (i : Nat) : Nat := 0x22000054 + i * 0x10000
def SIP_NOMATCH_CNT (i : Nat) : Nat := 0x22000058 + i * 0x10000
def SIP_PAUSE_CNT (i : Nat) : Nat := 0x2200005C + i * 0x10000
def SIP_SP_RX_CNT (i : Nat) : Nat := 0x22000060 + i * 0x10000
def SIP_SP_DROP_CNT (i : Nat) : Nat := 0x22000064 + i * 0x10000
def SIP_SP_TX_CNT (i : Nat) : Nat := 0x22000068 + i * 0x10000
def SIP_FEC_CORR_CNT (i : Nat) : Nat := 0x2200006C + i * 0x10000
def SIP_FEC_UNCORR_CNT (i : Nat) : Nat := 0x22000070 + i * 0x10000
def SIP_TORN_CNT (i : Nat) : Nat := 0x22000074 + i * 0x10000
def SIP_TSF_DROP_CNT (i : Nat) : Nat := 0x22000078 + i * 0x10000
def SIP_TSF_CORR_CNT (i : Nat) : Nat := 0x2200007C + i * 0x10000
def SIP_CX_CTRL (i : Nat) (j : Nat) : Nat := 0x22004000 + i * 0x10000 + j * 0x100
def SIP_CX_DST_IP (i : Nat) (j : Nat) : Nat := 0x22004004 + i * 0x10000 + j * 0x100
def SIP_CX_PORTS (i : Nat) (j : Nat) : Nat := 0x22004008 + i * 0x10000 + j * 0x100
def SIP_CX_SRC_IP (i : Nat) (j : Nat) : Nat := 0x2200400C + i * 0x10000 + j * 0x100
def SIP_CX_SIZE (i : Nat) (j : Nat) : Nat := 0x22004010 + i * 0x10000 + j * 0x100
def SIP_CX_PITCH (i : Nat) (j : Nat) : Nat := 0x22004014 + i * 0x10000 + j * 0x100
def SIP_CX_PERIOD (i : Nat) (j : Nat) : Nat := 0x22004018 + i * 0x10000 + j * 0x100
def SIP_CX_FENCE (i : Nat) (j : Nat) : Nat := 0x2200401C + i * 0x10000 + j * 0x100
def SIP_CX_BUF_LO (i : Nat) (j : Nat) (k : Nat) : Nat := 0x22004020 + i * 0x10000 + j * 0x100 + k * 0x8
def SIP_CX_BUF_HI (i : Nat) (j : Nat) (k : Nat) : Nat := 0x22004024 + i * 0x10000 + j * 0x100 + k * 0x8
def SIP_CX_LIMITS (i : Nat) (j : Nat) : Nat := 0x22004040 + i * 0x10000 + j * 0x100
def SIP_CX_STATE (i : Nat) (j : Nat) : Nat := 0x22004044 + i * 0x10000 + j * 0x100
def SIP_CX_FRAME (i : Nat) (j : Nat) : Nat := 0x22004048 + i * 0x10000 + j * 0x100
def SIP_CX_RTP (i : Nat) (j : Nat) : Nat := 0x2200404C + i * 0x10000 + j * 0x100
def SIP_CX_SSRC (i : Nat) (j : Nat) : Nat := 0x22004050 + i * 0x10000 + j * 0x100
def SIP_CX_EVENT (i : Nat) (j : Nat) : Nat := 0x22004054 + i * 0x10000 + j * 0x100
def SIP_CX_PKT_CNT (i : Nat) (j : Nat) : Nat := 0x22004060 + i * 0x10000 + j * 0x100
def SIP_CX_DUP_CNT (i : Nat) (j : Nat) : Nat := 0x22004064 + i * 0x10000 + j * 0x100
def SIP_CX_STALE_CNT (i : Nat) (j : Nat) : Nat := 0x22004068 + i * 0x10000 + j * 0x100
def SIP_CX_BAD_CNT (i : Nat) (j : Nat) : Nat := 0x2200406C + i * 0x10000 + j * 0x100
def SIP_CX_LATE_CNT (i : Nat) (j : Nat) : Nat := 0x22004070 + i * 0x10000 + j * 0x100
def SIP_CX_INCOMPLETE_CNT (i : Nat) (j : Nat) : Nat := 0x22004074 + i * 0x10000 + j * 0x100
def SIP_CX_BUSY_CNT (i : Nat) (j : Nat) : Nat := 0x22004078 + i * 0x10000 + j * 0x100
def SIP_CX_MISSING_CNT (i : Nat) (j : Nat) : Nat := 0x2200407C + i * 0x10000 + j * 0x100
def SIP_CX_PATH0_MISS_CNT (i : Nat) (j : Nat) : Nat := 0x22004080 + i * 0x10000 + j * 0x100
def SIP_CX_PATH1_MISS_CNT (i : Nat) (j : Nat) : Nat := 0x22004084 + i * 0x10000 + j * 0x100
def SIP_CX_OVERRUN_CNT (i : Nat) (j : Nat) : Nat := 0x22004088 + i * 0x10000 + j * 0x100
/-! Registers of TWNPORT (13_twin_pairing.md). -/
def TWN_PORT_BLKID (i : Nat) : Nat := 0x32000000 + i * 0x10000
def TWN_PORT_REFUSED (i : Nat) : Nat := 0x32000004 + i * 0x10000
def TWN_PORT_REFUSED_CNT (i : Nat) : Nat := 0x32000008 + i * 0x10000
def TWN_PORT_CTRL (i : Nat) : Nat := 0x32000010 + i * 0x10000
def TWN_PORT_STATUS (i : Nat) : Nat := 0x32000014 + i * 0x10000
def TWN_PORT_TX (i : Nat) : Nat := 0x32000018 + i * 0x10000
def TWN_PORT_CORR_CNT (i : Nat) : Nat := 0x32000020 + i * 0x10000
def TWN_PORT_UNCORR_CNT (i : Nat) : Nat := 0x32000024 + i * 0x10000
def TWN_PORT_BAD_CNT (i : Nat) : Nat := 0x32000028 + i * 0x10000
/-! Registers of TRKPORT (14_steward_and_lodgers.md). -/
def TRK_PORT_BLKID (i : Nat) : Nat := 0x42000000 + i * 0x10000
def TRK_PORT_REFUSED (i : Nat) : Nat := 0x42000004 + i * 0x10000
def TRK_PORT_REFUSED_CNT (i : Nat) : Nat := 0x42000008 + i * 0x10000
def TRK_PORT_CTRL (i : Nat) : Nat := 0x42000010 + i * 0x10000
def TRK_PORT_STATUS (i : Nat) : Nat := 0x42000014 + i * 0x10000
def TRK_PORT_TX (i : Nat) : Nat := 0x42000018 + i * 0x10000
def TRK_PORT_CORR_CNT (i : Nat) : Nat := 0x42000020 + i * 0x10000
def TRK_PORT_UNCORR_CNT (i : Nat) : Nat := 0x42000024 + i * 0x10000
def TRK_PORT_BAD_CNT (i : Nat) : Nat := 0x42000028 + i * 0x10000
/-! Registers of RLC (10_return_line.md). -/
def RLC_BLKID (i : Nat) : Nat := 0x3000000 + i * 0x1000
def RLC_REFUSED (i : Nat) : Nat := 0x3000004 + i * 0x1000
def RLC_REFUSED_CNT (i : Nat) : Nat := 0x3000008 + i * 0x1000
def RLC_CTRL (i : Nat) : Nat := 0x3000010 + i * 0x1000
def RLC_STATUS (i : Nat) : Nat := 0x3000014 + i * 0x1000
def RLC_SCHED (i : Nat) : Nat := 0x3000018 + i * 0x1000
def RLC_SCHED_LIVE (i : Nat) : Nat := 0x300001C + i * 0x1000
def RLC_RING (i : Nat) : Nat := 0x3000020 + i * 0x1000
def RLC_EVENT (i : Nat) : Nat := 0x3000024 + i * 0x1000
def RLC_SLOT_CNT (i : Nat) : Nat := 0x3000028 + i * 0x1000
def RLC_RXF_DATA (i : Nat) : Nat := 0x3000030 + i * 0x1000
def RLC_RXF_COUNT (i : Nat) : Nat := 0x3000034 + i * 0x1000
def RLC_RXF_STATUS (i : Nat) : Nat := 0x3000038 + i * 0x1000
def RLC_POLL_CNT (i : Nat) : Nat := 0x3000040 + i * 0x1000
def RLC_MISS_CNT (i : Nat) : Nat := 0x3000044 + i * 0x1000
def RLC_COLLIDE_CNT (i : Nat) : Nat := 0x3000048 + i * 0x1000
def RLC_CODE_CNT (i : Nat) : Nat := 0x300004C + i * 0x1000
def RLC_CRC_CNT (i : Nat) : Nat := 0x3000050 + i * 0x1000
def RLC_FOREIGN_CNT (i : Nat) : Nat := 0x3000054 + i * 0x1000
def RLC_STRANGER_CNT (i : Nat) : Nat := 0x3000058 + i * 0x1000
def RLC_CHALLENGE_CNT (i : Nat) : Nat := 0x300005C + i * 0x1000
def RLC_ALARM_CNT (i : Nat) : Nat := 0x3000060 + i * 0x1000
def RLC_STRETCH_CNT (i : Nat) : Nat := 0x3000064 + i * 0x1000
def RLC_JAM_CNT (i : Nat) : Nat := 0x3000068 + i * 0x1000
def RLC_REC_DROP_CNT (i : Nat) : Nat := 0x300006C + i * 0x1000
def RLC_RXF_DROP_CNT (i : Nat) : Nat := 0x3000070 + i * 0x1000
def RLC_RXF_CORR_CNT (i : Nat) : Nat := 0x3000074 + i * 0x1000
def RLC_ST_STATE (i : Nat) (j : Nat) : Nat := 0x3000800 + i * 0x1000 + j * 0x8
def RLC_ST_MISS_CNT (i : Nat) (j : Nat) : Nat := 0x3000804 + i * 0x1000 + j * 0x8

end Reg

namespace Fld

def REFUSED_REFUSED : Fld := ⟨31, 31⟩
def REFUSED_MORE : Fld := ⟨30, 30⟩
def REFUSED_REASON : Fld := ⟨15, 0⟩
def GLB_ID_PART : Fld := ⟨31, 16⟩
def GLB_ID_STEPPING : Fld := ⟨15, 8⟩
def GLB_ID_PKG : Fld := ⟨7, 0⟩
def GLB_GRADE_TEMP : Fld := ⟨7, 4⟩
def GLB_GRADE_SPEED : Fld := ⟨3, 0⟩
def GLB_APERTURE_BASE : Fld := ⟨6, 0⟩
def GLB_ERR_UNMAPPED_WRITE : Fld := ⟨2, 2⟩
def GLB_ERR_UNMAPPED_MORE : Fld := ⟨1, 1⟩
def GLB_ERR_UNMAPPED_FLAG : Fld := ⟨0, 0⟩
def GLB_ERR_UNMAPPED_ADDR_OFFSET : Fld := ⟨25, 2⟩
def GLB_ERR_FAR_WRITE : Fld := ⟨2, 2⟩
def GLB_ERR_FAR_MORE : Fld := ⟨1, 1⟩
def GLB_ERR_FAR_FLAG : Fld := ⟨0, 0⟩
def GLB_ERR_FAR_ADDR_OFFSET : Fld := ⟨25, 2⟩
def GLB_RESET_KEY_ARMED : Fld := ⟨16, 16⟩
def GLB_RESET_KEY_KEY : Fld := ⟨15, 0⟩
def MSIX_VCTRL_MASK : Fld := ⟨0, 0⟩
def WBL_CTRL_LOAD : Fld := ⟨0, 0⟩
def WBL_STATUS_ERROR : Fld := ⟨15, 8⟩
def WBL_STATUS_FALLBACK : Fld := ⟨5, 5⟩
def WBL_STATUS_UNSIGNED : Fld := ⟨4, 4⟩
def WBL_STATUS_SOURCE : Fld := ⟨3, 2⟩
def WBL_STATUS_STATE : Fld := ⟨1, 0⟩
def WBL_SLOT_A_ERROR_ERROR : Fld := ⟨7, 0⟩
def WBL_HOST_ADDR_HI_ADDR : Fld := ⟨4, 0⟩
def WBL_BLOCKS_PRESENT : Fld := ⟨6, 0⟩
def WBL_REF_WHITE_WHITE : Fld := ⟨15, 0⟩
def WBL_GLOBAL_CLOCK : Fld := ⟨0, 0⟩
def SDP_SEC_STATE : Fld := ⟨17, 16⟩
def SDP_SEC_UNLOCK_LOCKED : Fld := ⟨12, 12⟩
def SDP_SEC_UNLOCK_FAILS : Fld := ⟨11, 10⟩
def SDP_SEC_NONCE_VALID : Fld := ⟨9, 9⟩
def SDP_SEC_KEY_PRESENT : Fld := ⟨8, 8⟩
def SDP_SEC_FUSE_BUSY : Fld := ⟨6, 6⟩
def SDP_SEC_SEAL_PENDING : Fld := ⟨5, 5⟩
def SDP_SEC_HASH_FUSE : Fld := ⟨4, 4⟩
def SDP_SEC_SEALED_FUSE : Fld := ⟨0, 0⟩
def SDP_POWER_STATE : Fld := ⟨17, 16⟩
def SDP_POWER_TRANSIT : Fld := ⟨12, 12⟩
def SDP_POWER_LULL_EN : Fld := ⟨8, 8⟩
def SDP_POWER_GO_REST : Fld := ⟨2, 2⟩
def SDP_POWER_GO_DOZE : Fld := ⟨1, 1⟩
def SDP_POWER_GO_RUN : Fld := ⟨0, 0⟩
def SDP_EVENT_TRIP : Fld := ⟨6, 6⟩
def SDP_EVENT_HBM_ALERT : Fld := ⟨5, 5⟩
def SDP_EVENT_DIE_ALERT : Fld := ⟨4, 4⟩
def SDP_EVENT_FUSE_DONE : Fld := ⟨3, 3⟩
def SDP_EVENT_UNLOCK_FAIL : Fld := ⟨2, 2⟩
def SDP_EVENT_WAKE : Fld := ⟨1, 1⟩
def SDP_EVENT_POWER : Fld := ⟨0, 0⟩
def SDP_WAKE_EN_EN : Fld := ⟨15, 0⟩
def SDP_WAKE_STATUS_LATCH : Fld := ⟨15, 0⟩
def SDP_AON_TIMER_MS : Fld := ⟨23, 0⟩
def SDP_CTRL_UNLOCK : Fld := ⟨1, 1⟩
def SDP_CTRL_CHALLENGE : Fld := ⟨0, 0⟩
def SDP_FUSE_PROG_ARMED : Fld := ⟨16, 16⟩
def SDP_FUSE_PROG_KEY : Fld := ⟨15, 0⟩
def SDP_UNLOCK_ADDR_LO_ADDR : Fld := ⟨31, 8⟩
def SDP_UNLOCK_ADDR_HI_ADDR : Fld := ⟨4, 0⟩
def SDP_THERM_DIE_TRIP : Fld := ⟨31, 16⟩
def SDP_THERM_DIE_ALERT : Fld := ⟨15, 0⟩
def SDP_THERM_HBM_TRIP : Fld := ⟨31, 16⟩
def SDP_THERM_HBM_ALERT : Fld := ⟨15, 0⟩
def SDP_THERM_CTRL_TRIP_EN : Fld := ⟨0, 0⟩
def SDP_TEMP_TEMP : Fld := ⟨15, 0⟩
def SDP_TEMP_HBM_TEMP : Fld := ⟨15, 0⟩
def CKG_REF_STATUS_PCIE_OK : Fld := ⟨2, 2⟩
def CKG_REF_STATUS_REFB_OK : Fld := ⟨1, 1⟩
def CKG_REF_STATUS_REFA_OK : Fld := ⟨0, 0⟩
def CKG_EVENT_HOST_TORN : Fld := ⟨4, 4⟩
def CKG_EVENT_SYS_FAIL : Fld := ⟨3, 3⟩
def CKG_EVENT_REF_LOST : Fld := ⟨2, 2⟩
def CKG_EVENT_QUAD_LOST : Fld := ⟨1, 1⟩
def CKG_EVENT_SYS_LOST : Fld := ⟨0, 0⟩
def CKG_PLL_CTRL_REF : Fld := ⟨8, 8⟩
def CKG_PLL_CTRL_RUN : Fld := ⟨0, 0⟩
def CKG_PLL_DIV_Q : Fld := ⟨23, 16⟩
def CKG_PLL_DIV_N : Fld := ⟨9, 0⟩
def CKG_PLL_FRAC_F : Fld := ⟨23, 0⟩
def CKG_PLL_MOD_MOD : Fld := ⟨23, 0⟩
def CKG_PLL_LOCK_WINLOG : Fld := ⟨28, 24⟩
def CKG_PLL_LOCK_TOL : Fld := ⟨15, 8⟩
def CKG_PLL_LOCK_COUNT : Fld := ⟨3, 0⟩
def CKG_PLL_STATUS_LOCKED : Fld := ⟨31, 31⟩
def CKG_PLL_STATUS_FAILED : Fld := ⟨30, 30⟩
def CKG_PLL_STATUS_DIFF : Fld := ⟨15, 0⟩
def CKG_OUT_CTRL_WIDTH : Fld := ⟨31, 24⟩
def CKG_OUT_CTRL_FMT : Fld := ⟨17, 16⟩
def CKG_OUT_CTRL_SRC : Fld := ⟨13, 12⟩
def CKG_OUT_CTRL_CLK : Fld := ⟨9, 8⟩
def CKG_OUT_CTRL_INV : Fld := ⟨4, 4⟩
def CKG_OUT_DIV_DIV : Fld := ⟨11, 0⟩
def STK_CTRL_TOD_STEP : Fld := ⟨1, 1⟩
def STK_CTRL_REFRAME : Fld := ⟨0, 0⟩
def STK_STATE_GOOD : Fld := ⟨11, 8⟩
def STK_STATE_ALIGNED : Fld := ⟨7, 7⟩
def STK_STATE_LOCK : Fld := ⟨6, 4⟩
def STK_STATE_TIMING : Fld := ⟨1, 0⟩
def STK_SRC_SYNC_DIV : Fld := ⟨26, 24⟩
def STK_SRC_SYNC_MUL : Fld := ⟨22, 20⟩
def STK_SRC_SYNC_TYPE : Fld := ⟨16, 16⟩
def STK_SRC_PORT : Fld := ⟨14, 8⟩
def STK_SRC_SRC : Fld := ⟨2, 0⟩
def STK_LOCK_ACQ_LIMIT : Fld := ⟨31, 24⟩
def STK_LOCK_SLEW : Fld := ⟨23, 16⟩
def STK_LOCK_COUNT : Fld := ⟨15, 12⟩
def STK_LOCK_WINDOW : Fld := ⟨11, 0⟩
def STK_FRAME_PERIOD_NS : Fld := ⟨25, 0⟩
def STK_FRAME_FRAC_REM : Fld := ⟨31, 16⟩
def STK_FRAME_FRAC_DEN : Fld := ⟨15, 0⟩
def STK_SHUTTER_OFFSET : Fld := ⟨25, 0⟩
def STK_LATCH_LEAD_LEAD : Fld := ⟨17, 0⟩
def STK_PACING_MODE : Fld := ⟨16, 16⟩
def STK_PACING_LEAD : Fld := ⟨12, 8⟩
def STK_PACING_PHASES : Fld := ⟨4, 0⟩
def STK_STROKE_HI_COUNT : Fld := ⟨15, 0⟩
def STK_CFRAME_HI_COUNT : Fld := ⟨15, 0⟩
def STK_POSITION_PHASE : Fld := ⟨3, 0⟩
def STK_TOD_NS_NS : Fld := ⟨29, 0⟩
def STK_TOD_SEC_HI_SEC : Fld := ⟨15, 0⟩
def STK_EVENT_LTC_DROP : Fld := ⟨5, 5⟩
def STK_EVENT_ALIGN : Fld := ⟨4, 4⟩
def STK_EVENT_MISSING : Fld := ⟨3, 3⟩
def STK_EVENT_REFRAME_DONE : Fld := ⟨2, 2⟩
def STK_EVENT_ACQ_TIMEOUT : Fld := ⟨1, 1⟩
def STK_EVENT_LOCK_LOST : Fld := ⟨0, 0⟩
def STK_OUT_WIDTH : Fld := ⟨15, 8⟩
def STK_OUT_MODE : Fld := ⟨1, 0⟩
def STK_LTC_STROKE_HI_STROKE : Fld := ⟨15, 0⟩
def STK_LTC_OFFSET_NS : Fld := ⟨25, 0⟩
def STK_LTC_STATUS_RATE : Fld := ⟨3, 2⟩
def STK_LTC_STATUS_REVERSE : Fld := ⟨1, 1⟩
def STK_LTC_STATUS_VALID : Fld := ⟨0, 0⟩
def STK_SHOW_OFFSET : Fld := ⟨17, 0⟩
def STK_PHASE_LEN_LEN : Fld := ⟨25, 0⟩
def FLP_STATUS_MEMBERS : Fld := ⟨28, 16⟩
def FLP_STATUS_SETS : Fld := ⟨8, 0⟩
def FLP_EVENT_FULL : Fld := ⟨2, 2⟩
def FLP_EVENT_TIMEOUT : Fld := ⟨1, 1⟩
def FLP_EVENT_DEFER : Fld := ⟨0, 0⟩
def FLP_LAST_HI_STROKE : Fld := ⟨15, 0⟩
def BEL_FAULT_TARGET : Fld := ⟨21, 16⟩
def BEL_FAULT_MORE : Fld := ⟨1, 1⟩
def BEL_FAULT_FLAG : Fld := ⟨0, 0⟩
def BEL_FAULT_SRC_NORMAL : Fld := ⟨30, 16⟩
def BEL_FAULT_SRC_FAST : Fld := ⟨14, 0⟩
def BEL_PG_CLAIM_COUNT : Fld := ⟨31, 16⟩
def BEL_PG_CLAIM_GONE : Fld := ⟨15, 15⟩
def BEL_PG_CLAIM_SOURCE : Fld := ⟨14, 0⟩
def BEL_PG_CTRL_MIN_US : Fld := ⟨25, 16⟩
def BEL_PG_CTRL_COALESCE : Fld := ⟨15, 8⟩
def BEL_PG_CTRL_EN : Fld := ⟨0, 0⟩
def BEL_PG_IDLE_IDLE : Fld := ⟨0, 0⟩
def BEL_PG_STATUS_SOURCE : Fld := ⟨30, 16⟩
def BEL_PG_STATUS_STACK_FAULT : Fld := ⟨2, 2⟩
def BEL_PG_STATUS_ARMED : Fld := ⟨1, 1⟩
def BEL_PG_STATUS_IN_SERVICE : Fld := ⟨0, 0⟩
def BEL_PG_SIZE_CLAIM_MODE : Fld := ⟨16, 16⟩
def BEL_PG_SIZE_SIZE : Fld := ⟨15, 0⟩
def RNG_EVENT_PROD_ERR : Fld := ⟨0, 0⟩
def RNG_PROD_ERR_RING_RING : Fld := ⟨13, 0⟩
def RNG_RS_CTRL_CLASS : Fld := ⟨31, 28⟩
def RNG_RS_CTRL_MAXLOG : Fld := ⟨26, 22⟩
def RNG_RS_CTRL_SIZELOG : Fld := ⟨20, 16⟩
def RNG_RS_CTRL_BUSY : Fld := ⟨15, 15⟩
def RNG_RS_CTRL_NOTIFY_EVENT : Fld := ⟨9, 9⟩
def RNG_RS_CTRL_NOTIFY : Fld := ⟨8, 8⟩
def RNG_RS_CTRL_HOST : Fld := ⟨2, 2⟩
def RNG_RS_CTRL_DIR : Fld := ⟨1, 1⟩
def RNG_RS_CTRL_EN : Fld := ⟨0, 0⟩
def RNG_RS_BASE_LO_ADDR : Fld := ⟨31, 12⟩
def RNG_RS_MARK_LEVEL : Fld := ⟨16, 0⟩
def RNG_RS_LEVEL_OCC : Fld := ⟨16, 0⟩
def RNG_RS_EVENT_SHARED : Fld := ⟨3, 3⟩
def RNG_RS_EVENT_FAULT : Fld := ⟨2, 2⟩
def RNG_RS_EVENT_DROP : Fld := ⟨1, 1⟩
def RNG_RS_EVENT_MARK : Fld := ⟨0, 0⟩
def BLT_CTRL_HALT : Fld := ⟨0, 0⟩
def BLT_STATUS_RING : Fld := ⟨29, 16⟩
def BLT_STATUS_STATE : Fld := ⟨2, 0⟩
def BLT_EVENT_HALTED : Fld := ⟨2, 2⟩
def BLT_EVENT_POISON : Fld := ⟨1, 1⟩
def BLT_EVENT_TIMEOUT : Fld := ⟨0, 0⟩
def TLY_CFG_LINK : Fld := ⟨20, 20⟩
def TLY_CFG_MODE : Fld := ⟨17, 16⟩
def TLY_CFG_REFOUT : Fld := ⟨9, 9⟩
def TLY_CFG_REFIN : Fld := ⟨8, 8⟩
def TLY_CFG_WIDTH : Fld := ⟨5, 0⟩
def TLY_STATUS_RING : Fld := ⟨29, 16⟩
def TLY_STATUS_STATE : Fld := ⟨1, 0⟩
def TLY_EVENT_STRIP_FAIL : Fld := ⟨2, 2⟩
def TLY_EVENT_DAMAGED : Fld := ⟨1, 1⟩
def TLY_EVENT_MISMATCH : Fld := ⟨0, 0⟩
def TLY_RF_INFO_TAG : Fld := ⟨31, 16⟩
def TLY_RF_INFO_TYPE : Fld := ⟨15, 8⟩
def TLY_RF_INFO_KIND : Fld := ⟨7, 4⟩
def TLY_RF_INFO_ECC_BAD : Fld := ⟨2, 2⟩
def TLY_RF_INFO_MISMATCH : Fld := ⟨1, 1⟩
def TLY_RF_INFO_DAMAGED : Fld := ⟨0, 0⟩
def TLY_RF_COUNT_COUNT : Fld := ⟨4, 0⟩
def TLY_RF_STATUS_UNDERRUN : Fld := ⟨0, 0⟩
def PRT_PARCEL_HEIGHT : Fld := ⟨19, 16⟩
def PRT_PARCEL_WIDTH : Fld := ⟨3, 0⟩
def PRT_DEAL_STROKE_HI_STROKE : Fld := ⟨15, 0⟩
def PRT_DEAL_COUNT_PARCELS : Fld := ⟨17, 0⟩
def PRT_DONE_STROKE_HI_STROKE : Fld := ⟨15, 0⟩
def PRT_EVENT_USE_HIGH : Fld := ⟨1, 1⟩
def PRT_EVENT_LATE : Fld := ⟨0, 0⟩
def PRT_USE_MARK_MARK : Fld := ⟨10, 0⟩
def PRT_USE_USE : Fld := ⟨10, 0⟩
def PRT_ADM_CLOCKS_REGION : Fld := ⟨17, 16⟩
def PRT_ADM_CLOCKS_USE : Fld := ⟨10, 0⟩
def PRT_ADM_BYTES_USE : Fld := ⟨10, 0⟩
def PRT_ADM_SLACK_PORT : Fld := ⟨30, 24⟩
def PRT_ADM_SLACK_US : Fld := ⟨23, 0⟩
def PRT_ADM_REASON_PORT : Fld := ⟨30, 24⟩
def PRT_ADM_REASON_REGION : Fld := ⟨17, 16⟩
def PRT_ADM_REASON_PHASE : Fld := ⟨11, 8⟩
def PRT_ADM_REASON_TEST : Fld := ⟨3, 0⟩
def PRT_WIT_CTRL_MISMATCH : Fld := ⟨31, 31⟩
def PRT_WIT_CTRL_PORT : Fld := ⟨14, 8⟩
def PRT_WIT_CTRL_PHASE : Fld := ⟨4, 1⟩
def PRT_WIT_CTRL_EN : Fld := ⟨0, 0⟩
def PRT_WIT_POS_Y : Fld := ⟨31, 16⟩
def PRT_WIT_POS_X : Fld := ⟨15, 0⟩
def PRT_WIT_SIZE_H : Fld := ⟨31, 16⟩
def PRT_WIT_SIZE_W : Fld := ⟨15, 0⟩
def PRT_PW_STATE_STROKE : Fld := ⟨31, 16⟩
def PRT_PW_STATE_STATE : Fld := ⟨2, 0⟩
def PRT_PW_SATCHEL_COUNT : Fld := ⟨9, 0⟩
def PRT_LD_CTRL_PLATE_RING : Fld := ⟨15, 10⟩
def PRT_LD_CTRL_PLATE : Fld := ⟨9, 9⟩
def PRT_LD_CTRL_EDGE : Fld := ⟨8, 8⟩
def PRT_LD_CTRL_OPAQUE : Fld := ⟨7, 7⟩
def PRT_LD_CTRL_SRGB : Fld := ⟨5, 5⟩
def PRT_LD_CTRL_FORMAT : Fld := ⟨4, 1⟩
def PRT_LD_CTRL_VALID : Fld := ⟨0, 0⟩
def PRT_LD_PITCH_PITCH : Fld := ⟨22, 0⟩
def PRT_LD_SIZE_HEIGHT : Fld := ⟨31, 16⟩
def PRT_LD_SIZE_WIDTH : Fld := ⟨15, 0⟩
def PRT_LD_CROP_POS_Y : Fld := ⟨31, 16⟩
def PRT_LD_CROP_POS_X : Fld := ⟨15, 0⟩
def PRT_LD_CROP_SIZE_H : Fld := ⟨31, 16⟩
def PRT_LD_CROP_SIZE_W : Fld := ⟨15, 0⟩
def PRT_LD_DST_X_POS : Fld := ⟨17, 0⟩
def PRT_LD_DST_Y_POS : Fld := ⟨17, 0⟩
def PRT_LD_DST_SIZE_H : Fld := ⟨31, 16⟩
def PRT_LD_DST_SIZE_W : Fld := ⟨15, 0⟩
def PRT_LD_WARP_LO_ADDR : Fld := ⟨31, 8⟩
def PRT_LD_WARP_HI_ADDR : Fld := ⟨4, 0⟩
def PRT_LD_BUF_LO_ADDR : Fld := ⟨31, 12⟩
def PRT_LD_BUF_HI_ADDR : Fld := ⟨4, 0⟩
def PRT_LD_CTRL_LIVE_BUFFERED : Fld := ⟨31, 31⟩
def PRT_LD_CTRL_LIVE_PLATE_RING : Fld := ⟨15, 10⟩
def PRT_LD_CTRL_LIVE_PLATE : Fld := ⟨9, 9⟩
def PRT_LD_CTRL_LIVE_EDGE : Fld := ⟨8, 8⟩
def PRT_LD_CTRL_LIVE_OPAQUE : Fld := ⟨7, 7⟩
def PRT_LD_CTRL_LIVE_SRGB : Fld := ⟨5, 5⟩
def PRT_LD_CTRL_LIVE_FORMAT : Fld := ⟨4, 1⟩
def PRT_LD_CTRL_LIVE_VALID : Fld := ⟨0, 0⟩
def PRT_LD_BUF_LO_LIVE_ADDR : Fld := ⟨31, 12⟩
def PRT_LD_BUF_HI_LIVE_ADDR : Fld := ⟨4, 0⟩
def PRT_SK_CTRL_SETTLE : Fld := ⟨21, 16⟩
def PRT_SK_CTRL_SLOTS : Fld := ⟨12, 8⟩
def PRT_SK_CTRL_VALID : Fld := ⟨0, 0⟩
def PRT_SK_POS_Y : Fld := ⟨31, 16⟩
def PRT_SK_POS_X : Fld := ⟨15, 0⟩
def PRT_SK_SIZE_H : Fld := ⟨31, 16⟩
def PRT_SK_SIZE_W : Fld := ⟨15, 0⟩
def PRT_SK_BASE_R_VALUE : Fld := ⟨23, 0⟩
def PRT_SK_BASE_G_VALUE : Fld := ⟨23, 0⟩
def PRT_SK_BASE_B_VALUE : Fld := ⟨23, 0⟩
def PRT_SK_BASE_A_VALUE : Fld := ⟨15, 0⟩
def PRT_SLOT_CTRL_MATTE_EN : Fld := ⟨21, 21⟩
def PRT_SLOT_CTRL_MATTE_SLOT : Fld := ⟨20, 16⟩
def PRT_SLOT_CTRL_MODE : Fld := ⟨13, 11⟩
def PRT_SLOT_CTRL_EN : Fld := ⟨10, 10⟩
def PRT_SLOT_CTRL_LAYER : Fld := ⟨9, 0⟩
def PRT_SLOT_OPACITY_O : Fld := ⟨15, 0⟩
def PRT_STG_TYPE_SCOPE : Fld := ⟨8, 8⟩
def PRT_STG_TYPE_TYPE : Fld := ⟨4, 0⟩
def STL_EVENT_REFLAT : Fld := ⟨0, 0⟩
def STL_SETTLED_FREE_UNITS : Fld := ⟨15, 0⟩
def STL_SK_STATE_FUSED : Fld := ⟨2, 2⟩
def STL_SK_STATE_COPY : Fld := ⟨1, 1⟩
def STL_SK_STATE_SETTLED : Fld := ⟨0, 0⟩
def STL_PR_CTRL_DIV : Fld := ⟨8, 5⟩
def STL_PR_CTRL_WRITER : Fld := ⟨2, 2⟩
def STL_PR_CTRL_RUN : Fld := ⟨1, 1⟩
def STL_PR_CTRL_EN : Fld := ⟨0, 0⟩
def STL_PR_BASE_LO_ADDR : Fld := ⟨31, 12⟩
def STL_PR_BASE_HI_ADDR : Fld := ⟨4, 0⟩
def STL_PR_GEOM_FRAMES : Fld := ⟨27, 16⟩
def STL_PR_GEOM_STRIDE : Fld := ⟨15, 0⟩
def STL_PR_POS_PLAY : Fld := ⟨31, 20⟩
def STL_PR_POS_OLDEST : Fld := ⟨19, 8⟩
def STL_PR_MARK_VALID : Fld := ⟨31, 31⟩
def STL_PR_MARK_MARK : Fld := ⟨27, 16⟩
def STL_PR_MARK_WRITE : Fld := ⟨11, 0⟩
def STL_PR_COMMIT_COMMIT : Fld := ⟨0, 0⟩
def STL_PR_EVENT_MARK_LOST : Fld := ⟨2, 2⟩
def STL_PR_EVENT_FULL : Fld := ⟨1, 1⟩
def STL_PR_EVENT_STARVE : Fld := ⟨0, 0⟩
def MEM_PD_CTRL_EN : Fld := ⟨31, 31⟩
def MEM_PD_CTRL_IDLE_NS : Fld := ⟨27, 16⟩
def MEM_PD_CTRL_EXIT_NS : Fld := ⟨11, 0⟩
def MEM_STATUS_PD : Fld := ⟨7, 0⟩
def MEM_PART_SPAN_SIZE : Fld := ⟨31, 16⟩
def MEM_PART_SPAN_BASE : Fld := ⟨15, 0⟩
def MEM_PART_KIND_VALID : Fld := ⟨31, 31⟩
def MEM_PART_KIND_KIND : Fld := ⟨2, 0⟩
def DEP_CTRL_SCRUB_HOURS : Fld := ⟨31, 24⟩
def DEP_CTRL_TWIN_REPAIR : Fld := ⟨16, 16⟩
def DEP_CTRL_AUDIT_DIV : Fld := ⟨15, 0⟩
def DEP_LAMBDA_US : Fld := ⟨10, 0⟩
def DEP_STATUS_SCRUB_ACTIVE : Fld := ⟨2, 2⟩
def DEP_STATUS_CONTROL_FAULT : Fld := ⟨1, 1⟩
def DEP_STATUS_BRIDGE_DOWN : Fld := ⟨0, 0⟩
def DEP_EVENT_SCRUB_DONE : Fld := ⟨6, 6⟩
def DEP_EVENT_LOG_DROP : Fld := ⟨5, 5⟩
def DEP_EVENT_ESCAPE : Fld := ⟨4, 4⟩
def DEP_EVENT_SECDED_UNCORR : Fld := ⟨3, 3⟩
def DEP_EVENT_DAMAGED : Fld := ⟨2, 2⟩
def DEP_EVENT_AUDIT_MISMATCH : Fld := ⟨1, 1⟩
def DEP_EVENT_UNRECOV : Fld := ⟨0, 0⟩
def DEP_LOG_RING_EN : Fld := ⟨31, 31⟩
def DEP_LOG_RING_RING : Fld := ⟨13, 0⟩
def TWN_CTRL_JOIN_STROKES : Fld := ⟨15, 8⟩
def TWN_CTRL_SWAP : Fld := ⟨3, 3⟩
def TWN_CTRL_RETRY : Fld := ⟨2, 2⟩
def TWN_CTRL_STOP_ALIVE : Fld := ⟨1, 1⟩
def TWN_CTRL_PAIR_EN : Fld := ⟨0, 0⟩
def TWN_STATUS_FAIL : Fld := ⟨27, 24⟩
def TWN_STATUS_LANES : Fld := ⟨23, 16⟩
def TWN_STATUS_MIRROR_GAP : Fld := ⟨11, 11⟩
def TWN_STATUS_WIRE_IN : Fld := ⟨10, 10⟩
def TWN_STATUS_LIVE : Fld := ⟨9, 9⟩
def TWN_STATUS_ACTING : Fld := ⟨8, 8⟩
def TWN_STATUS_CAUSE : Fld := ⟨6, 4⟩
def TWN_STATUS_STATE : Fld := ⟨2, 0⟩
def TWN_EVENT_TORN : Fld := ⟨8, 8⟩
def TWN_EVENT_DECISION_LATE : Fld := ⟨7, 7⟩
def TWN_EVENT_LANE : Fld := ⟨6, 6⟩
def TWN_EVENT_WIRE : Fld := ⟨5, 5⟩
def TWN_EVENT_SKEW : Fld := ⟨4, 4⟩
def TWN_EVENT_VERDICT : Fld := ⟨3, 3⟩
def TWN_EVENT_DIVERGE : Fld := ⟨2, 2⟩
def TWN_EVENT_LOST : Fld := ⟨1, 1⟩
def TWN_EVENT_STATE : Fld := ⟨0, 0⟩
def TWN_LOSS_US : Fld := ⟨9, 0⟩
def TWN_DELAY_DELAY : Fld := ⟨23, 0⟩
def TWN_SKEW_NS : Fld := ⟨15, 0⟩
def TWN_SKEW_MARK_NS : Fld := ⟨9, 0⟩
def TRK_CTRL_RETRY : Fld := ⟨1, 1⟩
def TRK_CTRL_JOIN_EN : Fld := ⟨0, 0⟩
def TRK_STATUS_UPLINK_VALID : Fld := ⟨23, 23⟩
def TRK_STATUS_UPLINK : Fld := ⟨22, 16⟩
def TRK_STATUS_ORIGIN : Fld := ⟨7, 7⟩
def TRK_STATUS_DEPTH : Fld := ⟨5, 4⟩
def TRK_STATUS_STATE : Fld := ⟨2, 0⟩
def TRK_EVENT_TORN : Fld := ⟨6, 6⟩
def TRK_EVENT_ROLLUP_DROP : Fld := ⟨5, 5⟩
def TRK_EVENT_DECISION_LATE : Fld := ⟨4, 4⟩
def TRK_EVENT_READY_LATE : Fld := ⟨3, 3⟩
def TRK_EVENT_LEAVE : Fld := ⟨2, 2⟩
def TRK_EVENT_UPLINK : Fld := ⟨1, 1⟩
def TRK_EVENT_STATE : Fld := ⟨0, 0⟩
def TRK_TIMES_READY_US : Fld := ⟨23, 16⟩
def TRK_TIMES_CUTOFF_US : Fld := ⟨12, 0⟩
def TRK_LOSS_US : Fld := ⟨9, 0⟩
def TRK_RING_REC : Fld := ⟨29, 16⟩
def TRK_RING_SET : Fld := ⟨13, 0⟩
def TRK_DELAY0_DELAY : Fld := ⟨23, 0⟩
def TRK_DELAY1_DELAY : Fld := ⟨23, 0⟩
def TRK_DB_SOURCE_SOURCE : Fld := ⟨15, 0⟩
def TRK_DB_CTRL_SEND : Fld := ⟨0, 0⟩
def CAL_STATUS_CAUSE : Fld := ⟨19, 16⟩
def CAL_STATUS_ERROR : Fld := ⟨4, 4⟩
def CAL_STATUS_DONE : Fld := ⟨3, 3⟩
def CAL_STATUS_BUSY : Fld := ⟨2, 2⟩
def CAL_STATUS_TRIM_INVALID : Fld := ⟨0, 0⟩
def CAL_FL_CMD_OP : Fld := ⟨2, 1⟩
def CAL_FL_CMD_GO : Fld := ⟨0, 0⟩
def CAL_FL_ADDR_LO_ADDR : Fld := ⟨31, 12⟩
def CAL_FL_ADDR_HI_ADDR : Fld := ⟨4, 0⟩
def CAL_TRIM_KEY_ARMED : Fld := ⟨16, 16⟩
def CAL_TRIM_KEY_KEY : Fld := ⟨15, 0⟩
def DBG_MODE_MODE : Fld := ⟨1, 0⟩
def DBG_STATUS_DAMAGED : Fld := ⟨2, 2⟩
def DBG_STATUS_BUSY : Fld := ⟨1, 1⟩
def DBG_STATUS_SNAP_HELD : Fld := ⟨0, 0⟩
def DBG_SNAP_RELEASE : Fld := ⟨1, 1⟩
def DBG_SNAP_TAKE : Fld := ⟨0, 0⟩
def DBG_ADDR_LO_ADDR : Fld := ⟨31, 5⟩
def DBG_ADDR_HI_ADDR : Fld := ⟨4, 0⟩
def DBG_SPACE_UNIT : Fld := ⟨15, 8⟩
def DBG_SPACE_SPACE : Fld := ⟨2, 0⟩
def DBG_READ_READ : Fld := ⟨0, 0⟩
def CPT_CTRL_TRAIN_MS : Fld := ⟨15, 8⟩
def CPT_CTRL_HOLD : Fld := ⟨2, 2⟩
def CPT_CTRL_RETRAIN : Fld := ⟨1, 1⟩
def CPT_CTRL_EN : Fld := ⟨0, 0⟩
def CPT_STATUS_STATE : Fld := ⟨2, 0⟩
def CPT_CHAIN_ID_ID : Fld := ⟨15, 0⟩
def CPT_COMMIT_PENDING : Fld := ⟨31, 31⟩
def CPT_COMMIT_NEXT : Fld := ⟨1, 1⟩
def CPT_COMMIT_COMMIT : Fld := ⟨0, 0⟩
def CPT_COMMIT_TGT_HI_STROKE : Fld := ⟨15, 0⟩
def CPT_EVENT_TORN : Fld := ⟨3, 3⟩
def CPT_EVENT_LINK : Fld := ⟨2, 2⟩
def CPT_EVENT_SLACK_LOW : Fld := ⟨1, 1⟩
def CPT_EVENT_UNDERRUN : Fld := ⟨0, 0⟩
def CPT_SLACK_NS : Fld := ⟨25, 0⟩
def CPT_SLACK_MARK_NS : Fld := ⟨25, 0⟩
def CPT_TX_SWING : Fld := ⟨21, 16⟩
def CPT_TX_C_POST : Fld := ⟨13, 8⟩
def CPT_TX_C_PRE : Fld := ⟨5, 0⟩
def CPT_RM_CTRL_SPLIT_I : Fld := ⟨21, 19⟩
def CPT_RM_CTRL_SPLIT_G : Fld := ⟨18, 16⟩
def CPT_RM_CTRL_BUF : Fld := ⟨12, 8⟩
def CPT_RM_CTRL_TYPE : Fld := ⟨6, 4⟩
def CPT_RM_CTRL_DEPTH : Fld := ⟨3, 2⟩
def CPT_RM_CTRL_HOLD_OK : Fld := ⟨1, 1⟩
def CPT_RM_CTRL_EN : Fld := ⟨0, 0⟩
def CPT_RM_POS_Y : Fld := ⟨31, 16⟩
def CPT_RM_POS_X : Fld := ⟨15, 0⟩
def CPT_RM_SIZE_H : Fld := ⟨31, 16⟩
def CPT_RM_SIZE_W : Fld := ⟨15, 0⟩
def CPT_RM_CALIB_INDEX : Fld := ⟨15, 0⟩
def CPT_RM_PATH_DELAY : Fld := ⟨19, 0⟩
def SIP_CTRL_PMD : Fld := ⟨4, 4⟩
def SIP_CTRL_RETRAIN : Fld := ⟨1, 1⟩
def SIP_CTRL_EN : Fld := ⟨0, 0⟩
def SIP_STATUS_STATE : Fld := ⟨1, 0⟩
def SIP_MAC_HI_MAC : Fld := ⟨15, 0⟩
def SIP_RING_TX : Fld := ⟨29, 16⟩
def SIP_RING_RX : Fld := ⟨13, 0⟩
def SIP_EVENT_TSF_FULL : Fld := ⟨4, 4⟩
def SIP_EVENT_SP_DROP : Fld := ⟨3, 3⟩
def SIP_EVENT_TORN : Fld := ⟨2, 2⟩
def SIP_EVENT_PATH : Fld := ⟨1, 1⟩
def SIP_EVENT_LINK : Fld := ⟨0, 0⟩
def SIP_SP_UDP_PORT_HI : Fld := ⟨31, 16⟩
def SIP_SP_UDP_PORT_LO : Fld := ⟨15, 0⟩
def SIP_TSF_NS_KIND : Fld := ⟨31, 30⟩
def SIP_TSF_NS_NS : Fld := ⟨29, 0⟩
def SIP_TSF_SEC_HI_TAG : Fld := ⟨31, 16⟩
def SIP_TSF_SEC_HI_SEC : Fld := ⟨15, 0⟩
def SIP_TSF_COUNT_COUNT : Fld := ⟨6, 0⟩
def SIP_TSF_STATUS_UNDERRUN : Fld := ⟨0, 0⟩
def SIP_CX_CTRL_PT : Fld := ⟨30, 24⟩
def SIP_CX_CTRL_PLATE_RING : Fld := ⟨21, 16⟩
def SIP_CX_CTRL_MATRIX : Fld := ⟨13, 13⟩
def SIP_CX_CTRL_RANGE : Fld := ⟨12, 12⟩
def SIP_CX_CTRL_NBUF : Fld := ⟨11, 10⟩
def SIP_CX_CTRL_FMT : Fld := ⟨9, 7⟩
def SIP_CX_CTRL_SRC_EN : Fld := ⟨5, 5⟩
def SIP_CX_CTRL_VLAN_EN : Fld := ⟨4, 4⟩
def SIP_CX_CTRL_GATE_EN : Fld := ⟨3, 3⟩
def SIP_CX_CTRL_INCOMPLETE : Fld := ⟨2, 2⟩
def SIP_CX_CTRL_TARGET : Fld := ⟨1, 1⟩
def SIP_CX_CTRL_EN : Fld := ⟨0, 0⟩
def SIP_CX_PORTS_VLAN : Fld := ⟨27, 16⟩
def SIP_CX_PORTS_UDP : Fld := ⟨15, 0⟩
def SIP_CX_SIZE_H : Fld := ⟨31, 16⟩
def SIP_CX_SIZE_W : Fld := ⟨15, 0⟩
def SIP_CX_PITCH_PITCH : Fld := ⟨22, 0⟩
def SIP_CX_PERIOD_NS : Fld := ⟨25, 0⟩
def SIP_CX_FENCE_GATE_IDX : Fld := ⟨25, 16⟩
def SIP_CX_FENCE_ACQ_IDX : Fld := ⟨9, 0⟩
def SIP_CX_BUF_LO_ADDR : Fld := ⟨31, 12⟩
def SIP_CX_BUF_HI_ADDR : Fld := ⟨4, 0⟩
def SIP_CX_LIMITS_LATE_US : Fld := ⟨31, 16⟩
def SIP_CX_LIMITS_LOSS_MS : Fld := ⟨15, 0⟩
def SIP_CX_STATE_STATE : Fld := ⟨1, 0⟩
def SIP_CX_EVENT_TORN : Fld := ⟨6, 6⟩
def SIP_CX_EVENT_OVERRUN : Fld := ⟨5, 5⟩
def SIP_CX_EVENT_SSRC : Fld := ⟨4, 4⟩
def SIP_CX_EVENT_BUSY : Fld := ⟨3, 3⟩
def SIP_CX_EVENT_INCOMPLETE : Fld := ⟨2, 2⟩
def SIP_CX_EVENT_LATE : Fld := ⟨1, 1⟩
def SIP_CX_EVENT_LOSS : Fld := ⟨0, 0⟩
def TWN_PORT_CTRL_RETRAIN : Fld := ⟨1, 1⟩
def TWN_PORT_CTRL_EN : Fld := ⟨0, 0⟩
def TWN_PORT_STATUS_STATE : Fld := ⟨1, 0⟩
def TWN_PORT_TX_SWING : Fld := ⟨21, 16⟩
def TWN_PORT_TX_C_POST : Fld := ⟨13, 8⟩
def TWN_PORT_TX_C_PRE : Fld := ⟨5, 0⟩
def TRK_PORT_CTRL_RETRAIN : Fld := ⟨1, 1⟩
def TRK_PORT_CTRL_EN : Fld := ⟨0, 0⟩
def TRK_PORT_STATUS_FAIL : Fld := ⟨10, 8⟩
def TRK_PORT_STATUS_DIR : Fld := ⟨5, 4⟩
def TRK_PORT_STATUS_STATE : Fld := ⟨1, 0⟩
def TRK_PORT_TX_SWING : Fld := ⟨21, 16⟩
def TRK_PORT_TX_C_POST : Fld := ⟨13, 8⟩
def TRK_PORT_TX_C_PRE : Fld := ⟨5, 0⟩
def RLC_CTRL_MISS_LIMIT : Fld := ⟨15, 8⟩
def RLC_CTRL_AUTO_REASSIGN : Fld := ⟨2, 2⟩
def RLC_CTRL_DE_EXT : Fld := ⟨1, 1⟩
def RLC_CTRL_EN : Fld := ⟨0, 0⟩
def RLC_STATUS_STRANGERS : Fld := ⟨28, 24⟩
def RLC_STATUS_ENROLLED : Fld := ⟨16, 8⟩
def RLC_STATUS_RUN : Fld := ⟨0, 0⟩
def RLC_SCHED_CONT_MASK : Fld := ⟨7, 0⟩
def RLC_RING_REC : Fld := ⟨29, 16⟩
def RLC_RING_CMD : Fld := ⟨13, 0⟩
def RLC_EVENT_REC_DROP : Fld := ⟨7, 7⟩
def RLC_EVENT_TORN : Fld := ⟨6, 6⟩
def RLC_EVENT_JAM : Fld := ⟨5, 5⟩
def RLC_EVENT_RX_FULL : Fld := ⟨4, 4⟩
def RLC_EVENT_PRESENT : Fld := ⟨3, 3⟩
def RLC_EVENT_ABSENT : Fld := ⟨2, 2⟩
def RLC_EVENT_ALARM : Fld := ⟨1, 1⟩
def RLC_EVENT_STRANGER : Fld := ⟨0, 0⟩
def RLC_RXF_COUNT_COUNT : Fld := ⟨6, 0⟩
def RLC_RXF_STATUS_UNDERRUN : Fld := ⟨0, 0⟩
def RLC_ST_STATE_MISSES : Fld := ⟨15, 8⟩
def RLC_ST_STATE_POLL_EN : Fld := ⟨2, 2⟩
def RLC_ST_STATE_PRESENT : Fld := ⟨1, 1⟩
def RLC_ST_STATE_ENROLLED : Fld := ⟨0, 0⟩

end Fld

end Sys2Proof.Machine
end

