-- ==== Sys2Proof/Machine/RegTable.lean ====
section
/-! DEFINITION. The register table: for every register of the BAR0 map its offset, how it is replicated, and
for each of its fields the bit range, the access code of Table 0.5 (R5) and the reset value (R7).

A Reset entry "WB", "trim" or "fuse", and the per-PLL entries, stand here as 0: the load, the boot or the reset
writes the value (PRESUMED before that moment; log 5). `VER` of a block header is 1 (DEDUCED from "The first version is
0x01" of Table 2.4; log 7). -/

namespace Sys2Proof.Machine

/-- The access codes of Table 0.5 (R5); WM is left out because no register of the map ends in `_WM`. -/
inductive Acc where
  | rw | ro | w1c | w1s | once | shd | trg
  deriving DecidableEq, Repr

/-- One field of a register: bits [hi:lo], access code and reset value. -/
structure FieldSpec where
  hi : Nat
  lo : Nat
  acc : Acc
  reset : Nat
  deriving DecidableEq, Repr

/-- One row of the map: a register at `base`, replicated by each pair (count, stride) of `dims`, outermost first;
`cnt` marks a register whose name ends in `_CNT` (what a debug snapshot captures, R434). -/
structure RegRow where
  base : Nat
  dims : List (Nat × Nat)
  fields : List FieldSpec
  cnt : Bool := false
  deriving DecidableEq, Repr

namespace RegTable

def glb : List RegRow := [
  ⟨0x0, [], [⟨31, 24, .ro, 165⟩, ⟨23, 16, .ro, 1⟩, ⟨15, 0, .ro, 0⟩], false⟩,
  ⟨0x4, [], [⟨31, 31, .w1c, 0⟩, ⟨30, 30, .ro, 0⟩, ⟨15, 0, .ro, 0⟩], false⟩,
  ⟨0x8, [], [⟨31, 0, .ro, 0⟩], true⟩,
  ⟨0x10, [], [⟨31, 16, .ro, 0x3812⟩, ⟨15, 8, .ro, 160⟩, ⟨7, 0, .ro, 1⟩], false⟩,
  ⟨0x14, [], [⟨7, 4, .ro, 0⟩, ⟨3, 0, .ro, 0⟩], false⟩,
  ⟨0x20, [], [⟨6, 0, .rw, 0⟩], false⟩,
  ⟨0x30, [], [⟨2, 2, .ro, 0⟩, ⟨1, 1, .ro, 0⟩, ⟨0, 0, .w1c, 0⟩], false⟩,
  ⟨0x34, [], [⟨25, 2, .ro, 0⟩], false⟩,
  ⟨0x38, [], [⟨31, 0, .ro, 0⟩], true⟩,
  ⟨0x40, [], [⟨31, 0, .ro, 0⟩], false⟩,
  ⟨0x44, [], [⟨2, 2, .ro, 0⟩, ⟨1, 1, .ro, 0⟩, ⟨0, 0, .w1c, 0⟩], false⟩,
  ⟨0x48, [], [⟨25, 2, .ro, 0⟩], false⟩,
  ⟨0x4C, [], [⟨31, 0, .ro, 0⟩], true⟩,
  ⟨0x50, [], [⟨16, 16, .ro, 0⟩, ⟨15, 0, .trg, 0⟩], false⟩,
  ⟨0x60, [(4, 0x4)], [⟨31, 0, .rw, 0⟩], false⟩]

def glbmsix : List RegRow := [
  ⟨0x8000, [(64, 0x10)], [⟨31, 0, .rw, 0⟩], false⟩,
  ⟨0x8004, [(64, 0x10)], [⟨31, 0, .rw, 0⟩], false⟩,
  ⟨0x8008, [(64, 0x10)], [⟨31, 0, .rw, 0⟩], false⟩,
  ⟨0x800C, [(64, 0x10)], [⟨0, 0, .rw, 1⟩], false⟩,
  ⟨0x9000, [(2, 0x4)], [⟨31, 0, .ro, 0⟩], false⟩]

def wbl : List RegRow := [
  ⟨0x10000, [], [⟨31, 24, .ro, 165⟩, ⟨23, 16, .ro, 1⟩, ⟨15, 0, .ro, 1⟩], false⟩,
  ⟨0x10004, [], [⟨31, 31, .w1c, 0⟩, ⟨30, 30, .ro, 0⟩, ⟨15, 0, .ro, 0⟩], false⟩,
  ⟨0x10008, [], [⟨31, 0, .ro, 0⟩], true⟩,
  ⟨0x10010, [], [⟨0, 0, .trg, 0⟩], false⟩,
  ⟨0x10014, [], [⟨15, 8, .ro, 0⟩, ⟨5, 5, .ro, 0⟩, ⟨4, 4, .ro, 0⟩, ⟨3, 2, .ro, 0⟩, ⟨1, 0, .ro, 0⟩], false⟩,
  ⟨0x10018, [], [⟨31, 0, .ro, 0⟩], false⟩,
  ⟨0x1001C, [], [⟨7, 0, .ro, 0⟩], false⟩,
  ⟨0x10020, [], [⟨31, 0, .rw, 0⟩], false⟩,
  ⟨0x10024, [], [⟨4, 0, .rw, 0⟩], false⟩,
  ⟨0x10028, [], [⟨31, 0, .ro, 0⟩], false⟩,
  ⟨0x1002C, [], [⟨31, 0, .ro, 0⟩], false⟩,
  ⟨0x10030, [], [⟨6, 0, .ro, 0⟩], false⟩,
  ⟨0x10034, [], [⟨31, 0, .ro, 0⟩], false⟩,
  ⟨0x10038, [], [⟨31, 0, .ro, 0⟩], false⟩,
  ⟨0x1003C, [], [⟨15, 0, .ro, 0⟩], false⟩,
  ⟨0x10040, [], [⟨0, 0, .ro, 0⟩], false⟩,
  ⟨0x10044, [], [⟨31, 0, .ro, 0⟩], false⟩,
  ⟨0x10050, [(12, 0x4)], [⟨31, 0, .ro, 0⟩], false⟩,
  ⟨0x10080, [(12, 0x4)], [⟨31, 0, .ro, 0⟩], false⟩,
  ⟨0x100C0, [(16, 0x4)], [⟨31, 0, .ro, 0⟩], false⟩]

def sdp_0 : List RegRow := [
  ⟨0x20000, [], [⟨31, 24, .ro, 165⟩, ⟨23, 16, .ro, 1⟩, ⟨15, 0, .ro, 2⟩], false⟩,
  ⟨0x20004, [], [⟨31, 31, .w1c, 0⟩, ⟨30, 30, .ro, 0⟩, ⟨15, 0, .ro, 0⟩], false⟩,
  ⟨0x20008, [], [⟨31, 0, .ro, 0⟩], true⟩,
  ⟨0x20010, [], [⟨17, 16, .ro, 0⟩, ⟨12, 12, .ro, 0⟩, ⟨11, 10, .ro, 0⟩, ⟨9, 9, .ro, 0⟩, ⟨8, 8, .ro, 0⟩, ⟨6, 6, .ro, 0⟩, ⟨5, 5, .ro, 0⟩, ⟨4, 4, .ro, 0⟩, ⟨0, 0, .ro, 0⟩], false⟩,
  ⟨0x20014, [], [⟨17, 16, .ro, 0⟩, ⟨12, 12, .ro, 0⟩, ⟨8, 8, .rw, 1⟩, ⟨2, 2, .trg, 0⟩, ⟨1, 1, .trg, 0⟩, ⟨0, 0, .trg, 0⟩], false⟩,
  ⟨0x20018, [], [⟨6, 6, .w1c, 0⟩, ⟨5, 5, .w1c, 0⟩, ⟨4, 4, .w1c, 0⟩, ⟨3, 3, .w1c, 0⟩, ⟨2, 2, .w1c, 0⟩, ⟨1, 1, .w1c, 0⟩, ⟨0, 0, .w1c, 0⟩], false⟩,
  ⟨0x2001C, [], [⟨15, 0, .rw, 256⟩], false⟩,
  ⟨0x20020, [], [⟨15, 0, .w1c, 0⟩], false⟩,
  ⟨0x20024, [], [⟨23, 0, .rw, 0⟩], false⟩,
  ⟨0x20028, [], [⟨1, 1, .trg, 0⟩, ⟨0, 0, .trg, 0⟩], false⟩,
  ⟨0x2002C, [], [⟨16, 16, .ro, 0⟩, ⟨15, 0, .trg, 0⟩], false⟩,
  ⟨0x20030, [], [⟨31, 8, .rw, 0⟩], false⟩,
  ⟨0x20034, [], [⟨4, 0, .rw, 0⟩], false⟩,
  ⟨0x20038, [], [⟨31, 0, .ro, 0⟩], false⟩,
  ⟨0x2003C, [], [⟨31, 0, .ro, 0⟩], false⟩,
  ⟨0x20040, [(8, 0x4)], [⟨31, 0, .ro, 0⟩], false⟩,
  ⟨0x20060, [(12, 0x4)], [⟨31, 0, .rw, 0⟩], false⟩,
  ⟨0x20090, [(8, 0x4)], [⟨31, 0, .once, 0⟩], false⟩,
  ⟨0x200B0, [], [⟨31, 16, .rw, 864⟩, ⟨15, 0, .rw, 800⟩], false⟩,
  ⟨0x200B4, [], [⟨31, 16, .rw, 784⟩, ⟨15, 0, .rw, 720⟩], false⟩,
  ⟨0x200B8, [], [⟨0, 0, .rw, 1⟩], false⟩,
  ⟨0x200C0, [(16, 0x4)], [⟨15, 0, .ro, 0⟩], false⟩,
  ⟨0x20100, [(8, 0x4)], [⟨15, 0, .ro, 0⟩], false⟩,
  ⟨0x20120, [], [⟨31, 0, .ro, 0⟩], true⟩]

def sdp_1 : List RegRow := [
  ⟨0x20124, [], [⟨31, 0, .rw, 0⟩], false⟩,
  ⟨0x20128, [(4, 0x4)], [⟨31, 0, .ro, 0⟩], false⟩,
  ⟨0x20140, [], [⟨31, 0, .ro, 0⟩], true⟩,
  ⟨0x20144, [], [⟨31, 0, .ro, 0⟩], true⟩,
  ⟨0x20148, [], [⟨31, 0, .ro, 0⟩], true⟩,
  ⟨0x2014C, [], [⟨31, 0, .ro, 0⟩], true⟩,
  ⟨0x20150, [], [⟨31, 0, .ro, 0⟩], false⟩]

def sdp : List RegRow := sdp_0 ++ sdp_1

def ckg_0 : List RegRow := [
  ⟨0x30000, [], [⟨31, 24, .ro, 165⟩, ⟨23, 16, .ro, 1⟩, ⟨15, 0, .ro, 3⟩], false⟩,
  ⟨0x30004, [], [⟨31, 31, .w1c, 0⟩, ⟨30, 30, .ro, 0⟩, ⟨15, 0, .ro, 0⟩], false⟩,
  ⟨0x30008, [], [⟨31, 0, .ro, 0⟩], true⟩,
  ⟨0x30010, [], [⟨2, 2, .ro, 0⟩, ⟨1, 1, .ro, 0⟩, ⟨0, 0, .ro, 0⟩], false⟩,
  ⟨0x30014, [], [⟨4, 4, .w1c, 0⟩, ⟨3, 3, .w1c, 0⟩, ⟨2, 2, .w1c, 0⟩, ⟨1, 1, .w1c, 0⟩, ⟨0, 0, .w1c, 0⟩], false⟩,
  ⟨0x30018, [], [⟨31, 0, .ro, 0⟩], true⟩,
  ⟨0x3001C, [], [⟨31, 0, .ro, 0⟩], true⟩,
  ⟨0x30020, [], [⟨31, 0, .ro, 0⟩], true⟩,
  ⟨0x30100, [(4, 0x20)], [⟨8, 8, .ro, 0⟩, ⟨0, 0, .ro, 0⟩], false⟩,
  ⟨0x30104, [(4, 0x20)], [⟨23, 16, .ro, 0⟩, ⟨9, 0, .ro, 0⟩], false⟩,
  ⟨0x30108, [(4, 0x20)], [⟨23, 0, .ro, 0⟩], false⟩,
  ⟨0x3010C, [(4, 0x20)], [⟨23, 0, .ro, 0⟩], false⟩,
  ⟨0x30110, [(4, 0x20)], [⟨28, 24, .rw, 12⟩, ⟨15, 8, .rw, 1⟩, ⟨3, 0, .rw, 4⟩], false⟩,
  ⟨0x30114, [(4, 0x20)], [⟨31, 0, .rw, 1⟩], false⟩,
  ⟨0x30118, [(4, 0x20)], [⟨31, 31, .ro, 0⟩, ⟨30, 30, .ro, 0⟩, ⟨15, 0, .ro, 0⟩], false⟩,
  ⟨0x30400, [(32, 0x20)], [⟨8, 8, .rw, 0⟩, ⟨0, 0, .ro, 0⟩], false⟩,
  ⟨0x30404, [(32, 0x20)], [⟨23, 16, .ro, 0⟩, ⟨9, 0, .ro, 0⟩], false⟩,
  ⟨0x30408, [(32, 0x20)], [⟨23, 0, .ro, 0⟩], false⟩,
  ⟨0x3040C, [(32, 0x20)], [⟨23, 0, .ro, 0⟩], false⟩,
  ⟨0x30410, [(32, 0x20)], [⟨28, 24, .rw, 12⟩, ⟨15, 8, .rw, 1⟩, ⟨3, 0, .rw, 4⟩], false⟩,
  ⟨0x30414, [(32, 0x20)], [⟨31, 0, .rw, 1⟩], false⟩,
  ⟨0x30418, [(32, 0x20)], [⟨31, 31, .ro, 0⟩, ⟨30, 30, .ro, 0⟩, ⟨15, 0, .ro, 0⟩], false⟩,
  ⟨0x30800, [(1, 0x20)], [⟨8, 8, .ro, 0⟩, ⟨0, 0, .ro, 0⟩], false⟩,
  ⟨0x30804, [(1, 0x20)], [⟨23, 16, .ro, 0⟩, ⟨9, 0, .ro, 0⟩], false⟩]

def ckg_1 : List RegRow := [
  ⟨0x30808, [(1, 0x20)], [⟨23, 0, .ro, 0⟩], false⟩,
  ⟨0x3080C, [(1, 0x20)], [⟨23, 0, .ro, 0⟩], false⟩,
  ⟨0x30810, [(1, 0x20)], [⟨28, 24, .rw, 12⟩, ⟨15, 8, .rw, 1⟩, ⟨3, 0, .rw, 4⟩], false⟩,
  ⟨0x30814, [(1, 0x20)], [⟨31, 0, .rw, 1⟩], false⟩,
  ⟨0x30818, [(1, 0x20)], [⟨31, 31, .ro, 0⟩, ⟨30, 30, .ro, 0⟩, ⟨15, 0, .ro, 0⟩], false⟩,
  ⟨0x30900, [(8, 0x10)], [⟨31, 24, .rw, 1⟩, ⟨17, 16, .rw, 0⟩, ⟨13, 12, .rw, 0⟩, ⟨9, 8, .rw, 0⟩, ⟨4, 4, .rw, 0⟩], false⟩,
  ⟨0x30904, [(8, 0x10)], [⟨11, 0, .rw, 0⟩], false⟩]

def ckg : List RegRow := ckg_0 ++ ckg_1

def stk_0 : List RegRow := [
  ⟨0x40000, [], [⟨31, 24, .ro, 165⟩, ⟨23, 16, .ro, 1⟩, ⟨15, 0, .ro, 4⟩], false⟩,
  ⟨0x40004, [], [⟨31, 31, .w1c, 0⟩, ⟨30, 30, .ro, 0⟩, ⟨15, 0, .ro, 0⟩], false⟩,
  ⟨0x40008, [], [⟨31, 0, .ro, 0⟩], true⟩,
  ⟨0x40010, [], [⟨1, 1, .trg, 0⟩, ⟨0, 0, .trg, 0⟩], false⟩,
  ⟨0x40014, [], [⟨11, 8, .ro, 0⟩, ⟨7, 7, .ro, 0⟩, ⟨6, 4, .ro, 0⟩, ⟨1, 0, .ro, 0⟩], false⟩,
  ⟨0x40018, [], [⟨26, 24, .rw, 0⟩, ⟨22, 20, .rw, 0⟩, ⟨16, 16, .rw, 0⟩, ⟨14, 8, .rw, 0⟩, ⟨2, 0, .rw, 0⟩], false⟩,
  ⟨0x4001C, [], [⟨31, 24, .rw, 0⟩, ⟨23, 16, .rw, 50⟩, ⟨15, 12, .rw, 4⟩, ⟨11, 0, .rw, 0x3E8⟩], false⟩,
  ⟨0x40020, [], [⟨25, 0, .shd, 0xFE502A⟩], false⟩,
  ⟨0x40024, [], [⟨31, 16, .shd, 2⟩, ⟨15, 0, .shd, 3⟩], false⟩,
  ⟨0x40028, [], [⟨25, 0, .shd, 0⟩], false⟩,
  ⟨0x4002C, [], [⟨17, 0, .shd, 0xC350⟩], false⟩,
  ⟨0x40030, [], [⟨16, 16, .shd, 0⟩, ⟨12, 8, .shd, 2⟩, ⟨4, 0, .shd, 1⟩], false⟩,
  ⟨0x40040, [], [⟨25, 0, .ro, 0xFE502A⟩], false⟩,
  ⟨0x40044, [], [⟨31, 16, .ro, 2⟩, ⟨15, 0, .ro, 3⟩], false⟩,
  ⟨0x40048, [], [⟨25, 0, .ro, 0⟩], false⟩,
  ⟨0x4004C, [], [⟨17, 0, .ro, 0xC350⟩], false⟩,
  ⟨0x40050, [], [⟨16, 16, .ro, 0⟩, ⟨12, 8, .ro, 2⟩, ⟨4, 0, .ro, 1⟩], false⟩,
  ⟨0x40060, [], [⟨31, 0, .ro, 0⟩], false⟩,
  ⟨0x40064, [], [⟨15, 0, .ro, 0⟩], false⟩,
  ⟨0x40068, [], [⟨31, 0, .ro, 0⟩], false⟩,
  ⟨0x4006C, [], [⟨15, 0, .ro, 0⟩], false⟩,
  ⟨0x40070, [], [⟨3, 0, .ro, 0⟩], false⟩,
  ⟨0x40074, [], [⟨31, 0, .ro, 0⟩], false⟩,
  ⟨0x40078, [], [⟨31, 0, .ro, 0⟩], false⟩]

def stk_1 : List RegRow := [
  ⟨0x40080, [], [⟨29, 0, .ro, 0⟩], false⟩,
  ⟨0x40084, [], [⟨31, 0, .ro, 0⟩], false⟩,
  ⟨0x40088, [], [⟨15, 0, .ro, 0⟩], false⟩,
  ⟨0x4008C, [], [⟨31, 0, .rw, 0⟩], false⟩,
  ⟨0x40090, [], [⟨31, 0, .rw, 0⟩], false⟩,
  ⟨0x40094, [], [⟨31, 0, .rw, 0⟩], false⟩,
  ⟨0x400A0, [], [⟨5, 5, .w1c, 0⟩, ⟨4, 4, .w1c, 0⟩, ⟨3, 3, .w1c, 0⟩, ⟨2, 2, .w1c, 0⟩, ⟨1, 1, .w1c, 0⟩, ⟨0, 0, .w1c, 0⟩], false⟩,
  ⟨0x400A4, [], [⟨31, 0, .ro, 0⟩], true⟩,
  ⟨0x400A8, [], [⟨31, 0, .ro, 0⟩], true⟩,
  ⟨0x400AC, [], [⟨31, 0, .ro, 0⟩], true⟩,
  ⟨0x400B0, [], [⟨15, 8, .shd, 1⟩, ⟨1, 0, .shd, 1⟩], false⟩,
  ⟨0x400B4, [], [⟨15, 8, .ro, 1⟩, ⟨1, 0, .ro, 1⟩], false⟩,
  ⟨0x400C0, [], [⟨31, 0, .ro, 0⟩], false⟩,
  ⟨0x400C4, [], [⟨31, 0, .ro, 0⟩], false⟩,
  ⟨0x400C8, [], [⟨31, 0, .ro, 0⟩], false⟩,
  ⟨0x400CC, [], [⟨15, 0, .ro, 0⟩], false⟩,
  ⟨0x400D0, [], [⟨25, 0, .ro, 0⟩], false⟩,
  ⟨0x400D4, [], [⟨3, 2, .ro, 0⟩, ⟨1, 1, .ro, 0⟩, ⟨0, 0, .ro, 0⟩], false⟩,
  ⟨0x400D8, [], [⟨31, 0, .ro, 0⟩], true⟩,
  ⟨0x40100, [(16, 0x4)], [⟨17, 0, .shd, 0x2710⟩], false⟩,
  ⟨0x40140, [(16, 0x4)], [⟨17, 0, .ro, 0x2710⟩], false⟩]

def stk : List RegRow := stk_0 ++ stk_1

def stkphase : List RegRow := [
  ⟨0x300000, [(16, 0x10)], [⟨25, 0, .shd, 0x7F281⟩], false⟩,
  ⟨0x300004, [(16, 0x10)], [⟨25, 0, .ro, 0x7F281⟩], false⟩]

def flp : List RegRow := [
  ⟨0x50000, [], [⟨31, 24, .ro, 165⟩, ⟨23, 16, .ro, 1⟩, ⟨15, 0, .ro, 5⟩], false⟩,
  ⟨0x50004, [], [⟨31, 31, .w1c, 0⟩, ⟨30, 30, .ro, 0⟩, ⟨15, 0, .ro, 0⟩], false⟩,
  ⟨0x50008, [], [⟨31, 0, .ro, 0⟩], true⟩,
  ⟨0x50010, [], [⟨28, 16, .ro, 0⟩, ⟨8, 0, .ro, 0⟩], false⟩,
  ⟨0x50014, [], [⟨2, 2, .w1c, 0⟩, ⟨1, 1, .w1c, 0⟩, ⟨0, 0, .w1c, 0⟩], false⟩,
  ⟨0x50018, [], [⟨31, 0, .ro, 0⟩], false⟩,
  ⟨0x5001C, [], [⟨15, 0, .ro, 0⟩], false⟩,
  ⟨0x50020, [], [⟨31, 0, .ro, 0⟩], true⟩,
  ⟨0x50024, [], [⟨31, 0, .ro, 0⟩], true⟩,
  ⟨0x50028, [], [⟨31, 0, .ro, 0⟩], true⟩,
  ⟨0x5002C, [], [⟨31, 0, .ro, 0⟩], true⟩,
  ⟨0x50030, [], [⟨31, 0, .ro, 0⟩], true⟩,
  ⟨0x50034, [], [⟨31, 0, .ro, 0⟩], true⟩,
  ⟨0x50038, [], [⟨31, 0, .ro, 0⟩], true⟩,
  ⟨0x50100, [(32, 0x4)], [⟨31, 0, .rw, 0⟩], false⟩,
  ⟨0x51000, [(1024, 0x4)], [⟨31, 0, .rw, 0⟩], false⟩]

def bel : List RegRow := [
  ⟨0x60000, [], [⟨31, 24, .ro, 165⟩, ⟨23, 16, .ro, 1⟩, ⟨15, 0, .ro, 6⟩], false⟩,
  ⟨0x60004, [], [⟨31, 31, .w1c, 0⟩, ⟨30, 30, .ro, 0⟩, ⟨15, 0, .ro, 0⟩], false⟩,
  ⟨0x60008, [], [⟨31, 0, .ro, 0⟩], true⟩,
  ⟨0x60010, [], [⟨21, 16, .ro, 0⟩, ⟨1, 1, .ro, 0⟩, ⟨0, 0, .w1c, 0⟩], false⟩,
  ⟨0x60014, [], [⟨30, 16, .ro, 0⟩, ⟨14, 0, .ro, 0⟩], false⟩,
  ⟨0x60020, [], [⟨31, 0, .ro, 0⟩], true⟩,
  ⟨0x60024, [], [⟨31, 0, .ro, 0⟩], true⟩,
  ⟨0x60028, [], [⟨31, 0, .ro, 0⟩], true⟩,
  ⟨0x6002C, [], [⟨31, 0, .ro, 0⟩], true⟩,
  ⟨0x60030, [], [⟨31, 0, .ro, 0⟩], true⟩]

def belpage : List RegRow := [
  ⟨0x61000, [(64, 0x100)], [⟨31, 16, .ro, 0⟩, ⟨15, 15, .ro, 0⟩, ⟨14, 0, .ro, 0⟩], false⟩,
  ⟨0x68000, [(64, 0x100)], [⟨31, 16, .ro, 0⟩, ⟨15, 15, .ro, 0⟩, ⟨14, 0, .ro, 0⟩], false⟩,
  ⟨0x61004, [(64, 0x100)], [⟨31, 0, .trg, 0⟩], false⟩,
  ⟨0x68004, [(64, 0x100)], [⟨31, 0, .trg, 0⟩], false⟩,
  ⟨0x61008, [(64, 0x100)], [⟨31, 0, .trg, 0⟩], false⟩,
  ⟨0x68008, [(64, 0x100)], [⟨31, 0, .trg, 0⟩], false⟩,
  ⟨0x6100C, [(64, 0x100)], [⟨31, 0, .trg, 0⟩], false⟩,
  ⟨0x6800C, [(64, 0x100)], [⟨31, 0, .trg, 0⟩], false⟩,
  ⟨0x61010, [(64, 0x100)], [⟨25, 16, .rw, 0⟩, ⟨15, 8, .rw, 0⟩, ⟨0, 0, .rw, 1⟩], false⟩,
  ⟨0x68010, [(64, 0x100)], [⟨25, 16, .rw, 0⟩, ⟨15, 8, .rw, 0⟩, ⟨0, 0, .rw, 1⟩], false⟩,
  ⟨0x61014, [(64, 0x100)], [⟨0, 0, .w1s, 0⟩], false⟩,
  ⟨0x68014, [(64, 0x100)], [⟨0, 0, .w1s, 0⟩], false⟩,
  ⟨0x61018, [(64, 0x100)], [⟨30, 16, .ro, 0⟩, ⟨2, 2, .trg, 0⟩, ⟨1, 1, .ro, 1⟩, ⟨0, 0, .ro, 0⟩], false⟩,
  ⟨0x68018, [(64, 0x100)], [⟨30, 16, .ro, 0⟩, ⟨2, 2, .trg, 0⟩, ⟨1, 1, .ro, 1⟩, ⟨0, 0, .ro, 0⟩], false⟩,
  ⟨0x6101C, [(64, 0x100)], [⟨16, 16, .ro, 0⟩, ⟨15, 0, .ro, 0⟩], false⟩,
  ⟨0x6801C, [(64, 0x100)], [⟨16, 16, .ro, 0⟩, ⟨15, 0, .ro, 0⟩], false⟩,
  ⟨0x61020, [(64, 0x100)], [⟨31, 0, .ro, 0⟩], true⟩,
  ⟨0x68020, [(64, 0x100)], [⟨31, 0, .ro, 0⟩], true⟩]

def rng : List RegRow := [
  ⟨0x70000, [], [⟨31, 24, .ro, 165⟩, ⟨23, 16, .ro, 1⟩, ⟨15, 0, .ro, 7⟩], false⟩,
  ⟨0x70004, [], [⟨31, 31, .w1c, 0⟩, ⟨30, 30, .ro, 0⟩, ⟨15, 0, .ro, 0⟩], false⟩,
  ⟨0x70008, [], [⟨31, 0, .ro, 0⟩], true⟩,
  ⟨0x70010, [], [⟨0, 0, .w1c, 0⟩], false⟩,
  ⟨0x70014, [], [⟨13, 0, .ro, 0⟩], false⟩,
  ⟨0x70018, [], [⟨31, 0, .ro, 0⟩], true⟩,
  ⟨0x7001C, [], [⟨31, 0, .ro, 0⟩], true⟩,
  ⟨0x70020, [], [⟨31, 0, .ro, 0⟩], true⟩]

def rngring : List RegRow := [
  ⟨0x800000, [(16384, 0x40)], [⟨31, 28, .ro, 0⟩, ⟨26, 22, .ro, 0⟩, ⟨20, 16, .rw, 0⟩, ⟨15, 15, .ro, 0⟩, ⟨9, 9, .rw, 0⟩, ⟨8, 8, .rw, 1⟩, ⟨2, 2, .rw, 0⟩, ⟨1, 1, .ro, 0⟩, ⟨0, 0, .rw, 0⟩], false⟩,
  ⟨0x800004, [(16384, 0x40)], [⟨31, 12, .rw, 0⟩], false⟩,
  ⟨0x800008, [(16384, 0x40)], [⟨31, 0, .rw, 0⟩], false⟩,
  ⟨0x80000C, [(16384, 0x40)], [⟨31, 0, .rw, 0⟩], false⟩,
  ⟨0x800010, [(16384, 0x40)], [⟨31, 0, .rw, 0⟩], false⟩,
  ⟨0x800014, [(16384, 0x40)], [⟨31, 0, .ro, 0⟩], false⟩,
  ⟨0x800018, [(16384, 0x40)], [⟨16, 0, .rw, 0⟩], false⟩,
  ⟨0x80001C, [(16384, 0x40)], [⟨16, 0, .ro, 0⟩], false⟩,
  ⟨0x800020, [(16384, 0x40)], [⟨3, 3, .w1c, 0⟩, ⟨2, 2, .w1c, 0⟩, ⟨1, 1, .w1c, 0⟩, ⟨0, 0, .w1c, 0⟩], false⟩,
  ⟨0x800024, [(16384, 0x40)], [⟨31, 0, .ro, 0⟩], true⟩,
  ⟨0x800028, [(16384, 0x40)], [⟨31, 0, .ro, 0⟩], true⟩,
  ⟨0x80002C, [(16384, 0x40)], [⟨31, 0, .ro, 0⟩], true⟩]

def blt : List RegRow := [
  ⟨0x80000, [], [⟨31, 24, .ro, 165⟩, ⟨23, 16, .ro, 1⟩, ⟨15, 0, .ro, 8⟩], false⟩,
  ⟨0x80004, [], [⟨31, 31, .w1c, 0⟩, ⟨30, 30, .ro, 0⟩, ⟨15, 0, .ro, 0⟩], false⟩,
  ⟨0x80008, [], [⟨31, 0, .ro, 0⟩], true⟩,
  ⟨0x80010, [], [⟨0, 0, .rw, 0⟩], false⟩,
  ⟨0x80014, [], [⟨29, 16, .ro, 0⟩, ⟨2, 0, .ro, 0⟩], false⟩,
  ⟨0x80018, [], [⟨2, 2, .w1c, 0⟩, ⟨1, 1, .w1c, 0⟩, ⟨0, 0, .w1c, 0⟩], false⟩,
  ⟨0x80020, [], [⟨31, 0, .ro, 0⟩], true⟩,
  ⟨0x80024, [], [⟨31, 0, .ro, 0⟩], true⟩,
  ⟨0x80028, [], [⟨31, 0, .ro, 0⟩], true⟩,
  ⟨0x8002C, [], [⟨31, 0, .ro, 0⟩], true⟩,
  ⟨0x80030, [], [⟨31, 0, .ro, 0⟩], true⟩,
  ⟨0x80034, [], [⟨31, 0, .ro, 0⟩], true⟩,
  ⟨0x80038, [], [⟨31, 0, .ro, 0⟩], true⟩,
  ⟨0x8003C, [], [⟨31, 0, .ro, 0⟩], true⟩,
  ⟨0x80040, [], [⟨31, 0, .ro, 0⟩], true⟩]

def tly : List RegRow := [
  ⟨0x90000, [], [⟨31, 24, .ro, 165⟩, ⟨23, 16, .ro, 1⟩, ⟨15, 0, .ro, 9⟩], false⟩,
  ⟨0x90004, [], [⟨31, 31, .w1c, 0⟩, ⟨30, 30, .ro, 0⟩, ⟨15, 0, .ro, 0⟩], false⟩,
  ⟨0x90008, [], [⟨31, 0, .ro, 0⟩], true⟩]

def tlyunit : List RegRow := [
  ⟨0x90010, [(16, 0x400)], [⟨20, 20, .rw, 0⟩, ⟨17, 16, .rw, 0⟩, ⟨9, 9, .rw, 1⟩, ⟨8, 8, .rw, 1⟩, ⟨5, 0, .rw, 31⟩], false⟩,
  ⟨0x90014, [(16, 0x400)], [⟨29, 16, .ro, 0⟩, ⟨1, 0, .ro, 0⟩], false⟩,
  ⟨0x90018, [(16, 0x400)], [⟨2, 2, .w1c, 0⟩, ⟨1, 1, .w1c, 0⟩, ⟨0, 0, .w1c, 0⟩], false⟩,
  ⟨0x90020, [(16, 0x400)], [⟨31, 0, .rw, 0x1EDC6F41⟩], false⟩,
  ⟨0x90024, [(16, 0x400)], [⟨31, 0, .rw, 0⟩], false⟩,
  ⟨0x90028, [(16, 0x400)], [⟨31, 0, .rw, 0xFFFFFFFF⟩], false⟩,
  ⟨0x9002C, [(16, 0x400)], [⟨31, 0, .rw, 0⟩], false⟩,
  ⟨0x90030, [(16, 0x400)], [⟨31, 0, .rw, 0xFFFFFFFF⟩], false⟩,
  ⟨0x90034, [(16, 0x400)], [⟨31, 0, .rw, 0⟩], false⟩,
  ⟨0x90040, [(16, 0x400)], [⟨31, 0, .ro, 0⟩], false⟩,
  ⟨0x90044, [(16, 0x400)], [⟨31, 0, .ro, 0⟩], false⟩,
  ⟨0x90048, [(16, 0x400)], [⟨31, 16, .ro, 0⟩, ⟨15, 8, .ro, 0⟩, ⟨7, 4, .ro, 0⟩, ⟨2, 2, .ro, 0⟩, ⟨1, 1, .ro, 0⟩, ⟨0, 0, .ro, 0⟩], false⟩,
  ⟨0x9004C, [(16, 0x400)], [⟨4, 0, .ro, 0⟩], false⟩,
  ⟨0x90050, [(16, 0x400)], [⟨0, 0, .w1c, 0⟩], false⟩,
  ⟨0x90060, [(16, 0x400)], [⟨31, 0, .ro, 0⟩], true⟩,
  ⟨0x90064, [(16, 0x400)], [⟨31, 0, .ro, 0⟩], true⟩,
  ⟨0x90068, [(16, 0x400)], [⟨31, 0, .ro, 0⟩], true⟩,
  ⟨0x9006C, [(16, 0x400)], [⟨31, 0, .ro, 0⟩], true⟩,
  ⟨0x90070, [(16, 0x400)], [⟨31, 0, .ro, 0⟩], true⟩,
  ⟨0x90074, [(16, 0x400)], [⟨31, 0, .ro, 0⟩], true⟩,
  ⟨0x90078, [(16, 0x400)], [⟨31, 0, .ro, 0⟩], true⟩,
  ⟨0x9007C, [(16, 0x400)], [⟨31, 0, .ro, 0⟩], true⟩]

def prt : List RegRow := [
  ⟨0xA0000, [], [⟨31, 24, .ro, 165⟩, ⟨23, 16, .ro, 1⟩, ⟨15, 0, .ro, 10⟩], false⟩,
  ⟨0xA0004, [], [⟨31, 31, .w1c, 0⟩, ⟨30, 30, .ro, 0⟩, ⟨15, 0, .ro, 0⟩], false⟩,
  ⟨0xA0008, [], [⟨31, 0, .ro, 0⟩], true⟩,
  ⟨0xA0010, [], [⟨19, 16, .shd, 7⟩, ⟨3, 0, .shd, 3⟩], false⟩,
  ⟨0xA0014, [], [⟨19, 16, .ro, 7⟩, ⟨3, 0, .ro, 3⟩], false⟩,
  ⟨0xA0020, [], [⟨31, 0, .ro, 0⟩], false⟩,
  ⟨0xA0024, [], [⟨15, 0, .ro, 0⟩], false⟩,
  ⟨0xA0028, [], [⟨17, 0, .ro, 0⟩], false⟩,
  ⟨0xA002C, [], [⟨31, 0, .ro, 0⟩], false⟩,
  ⟨0xA0030, [], [⟨15, 0, .ro, 0⟩], false⟩,
  ⟨0xA0034, [], [⟨1, 1, .w1c, 0⟩, ⟨0, 0, .w1c, 0⟩], false⟩,
  ⟨0xA0038, [], [⟨31, 0, .ro, 0⟩], true⟩,
  ⟨0xA003C, [], [⟨31, 0, .ro, 0⟩], true⟩,
  ⟨0xA0040, [], [⟨31, 0, .ro, 0⟩], true⟩,
  ⟨0xA0044, [], [⟨10, 0, .rw, 950⟩], false⟩,
  ⟨0xA0048, [], [⟨10, 0, .ro, 0⟩], false⟩,
  ⟨0xA004C, [], [⟨31, 0, .ro, 0⟩], true⟩,
  ⟨0xA0050, [], [⟨17, 16, .ro, 0⟩, ⟨10, 0, .ro, 0⟩], false⟩,
  ⟨0xA0054, [], [⟨10, 0, .ro, 0⟩], false⟩,
  ⟨0xA0058, [], [⟨30, 24, .ro, 0⟩, ⟨23, 0, .ro, 0xFFFFFF⟩], false⟩,
  ⟨0xA005C, [], [⟨30, 24, .ro, 0⟩, ⟨17, 16, .ro, 0⟩, ⟨11, 8, .ro, 0⟩, ⟨3, 0, .ro, 0⟩], false⟩,
  ⟨0xA0060, [], [⟨31, 0, .ro, 0⟩], true⟩]

def prtwit : List RegRow := [
  ⟨0xA1000, [(64, 0x20)], [⟨31, 31, .w1c, 0⟩, ⟨14, 8, .rw, 0⟩, ⟨4, 1, .rw, 0⟩, ⟨0, 0, .rw, 0⟩], false⟩,
  ⟨0xA1004, [(64, 0x20)], [⟨31, 16, .rw, 0⟩, ⟨15, 0, .rw, 0⟩], false⟩,
  ⟨0xA1008, [(64, 0x20)], [⟨31, 16, .rw, 0⟩, ⟨15, 0, .rw, 0⟩], false⟩,
  ⟨0xA100C, [(64, 0x20)], [⟨31, 0, .rw, 0⟩], false⟩,
  ⟨0xA1010, [(64, 0x20)], [⟨31, 0, .ro, 0⟩], false⟩,
  ⟨0xA1014, [(64, 0x20)], [⟨31, 0, .ro, 0⟩], false⟩,
  ⟨0xA1018, [(64, 0x20)], [⟨31, 0, .ro, 0⟩], true⟩,
  ⟨0xA101C, [(64, 0x20)], [⟨31, 0, .ro, 0⟩], true⟩]

def prtpw : List RegRow := [
  ⟨0x1000000, [(256, 0x1000)], [⟨31, 16, .ro, 0⟩, ⟨2, 0, .ro, 0⟩], false⟩,
  ⟨0x1000004, [(256, 0x1000)], [⟨9, 0, .ro, 0⟩], false⟩,
  ⟨0x1000008, [(256, 0x1000)], [⟨31, 0, .ro, 0⟩], true⟩,
  ⟨0x100000C, [(256, 0x1000)], [⟨31, 0, .ro, 0⟩], true⟩,
  ⟨0x1000010, [(256, 0x1000)], [⟨31, 0, .ro, 0⟩], true⟩,
  ⟨0x1000014, [(256, 0x1000)], [⟨31, 0, .ro, 0⟩], true⟩,
  ⟨0x1000018, [(256, 0x1000)], [⟨31, 0, .ro, 0⟩], true⟩]

def prtld : List RegRow := [
  ⟨0x200000, [(1024, 0x100)], [⟨15, 10, .shd, 0⟩, ⟨9, 9, .shd, 0⟩, ⟨8, 8, .shd, 0⟩, ⟨7, 7, .shd, 0⟩, ⟨5, 5, .shd, 0⟩, ⟨4, 1, .shd, 0⟩, ⟨0, 0, .shd, 0⟩], false⟩,
  ⟨0x200004, [(1024, 0x100)], [⟨22, 0, .shd, 0⟩], false⟩,
  ⟨0x200008, [(1024, 0x100)], [⟨31, 16, .shd, 0⟩, ⟨15, 0, .shd, 0⟩], false⟩,
  ⟨0x20000C, [(1024, 0x100)], [⟨31, 16, .shd, 0⟩, ⟨15, 0, .shd, 0⟩], false⟩,
  ⟨0x200010, [(1024, 0x100)], [⟨31, 16, .shd, 0⟩, ⟨15, 0, .shd, 0⟩], false⟩,
  ⟨0x200014, [(1024, 0x100)], [⟨17, 0, .shd, 0⟩], false⟩,
  ⟨0x200018, [(1024, 0x100)], [⟨17, 0, .shd, 0⟩], false⟩,
  ⟨0x20001C, [(1024, 0x100)], [⟨31, 16, .shd, 0⟩, ⟨15, 0, .shd, 0⟩], false⟩,
  ⟨0x200020, [(1024, 0x100)], [⟨31, 8, .shd, 0⟩], false⟩,
  ⟨0x200024, [(1024, 0x100)], [⟨4, 0, .shd, 0⟩], false⟩,
  ⟨0x200028, [(1024, 0x100)], [⟨31, 12, .ro, 0⟩], false⟩,
  ⟨0x20002C, [(1024, 0x100)], [⟨4, 0, .ro, 0⟩], false⟩,
  ⟨0x200080, [(1024, 0x100)], [⟨31, 31, .ro, 0⟩, ⟨15, 10, .ro, 0⟩, ⟨9, 9, .ro, 0⟩, ⟨8, 8, .ro, 0⟩, ⟨7, 7, .ro, 0⟩, ⟨5, 5, .ro, 0⟩, ⟨4, 1, .ro, 0⟩, ⟨0, 0, .ro, 0⟩], false⟩,
  ⟨0x200084, [(1024, 0x100)], [⟨22, 0, .ro, 0⟩], false⟩,
  ⟨0x200088, [(1024, 0x100)], [⟨31, 16, .ro, 0⟩, ⟨15, 0, .ro, 0⟩], false⟩,
  ⟨0x20008C, [(1024, 0x100)], [⟨31, 16, .ro, 0⟩, ⟨15, 0, .ro, 0⟩], false⟩,
  ⟨0x200090, [(1024, 0x100)], [⟨31, 16, .ro, 0⟩, ⟨15, 0, .ro, 0⟩], false⟩,
  ⟨0x200094, [(1024, 0x100)], [⟨17, 0, .ro, 0⟩], false⟩,
  ⟨0x200098, [(1024, 0x100)], [⟨17, 0, .ro, 0⟩], false⟩,
  ⟨0x20009C, [(1024, 0x100)], [⟨31, 16, .ro, 0⟩, ⟨15, 0, .ro, 0⟩], false⟩,
  ⟨0x2000A0, [(1024, 0x100)], [⟨31, 8, .ro, 0⟩], false⟩,
  ⟨0x2000A4, [(1024, 0x100)], [⟨4, 0, .ro, 0⟩], false⟩,
  ⟨0x2000A8, [(1024, 0x100)], [⟨31, 12, .ro, 0⟩], false⟩,
  ⟨0x2000AC, [(1024, 0x100)], [⟨4, 0, .ro, 0⟩], false⟩]

/-- The registers of the stacks. The offsets 0x01C to 0x03F of a stack, and those of its live copy, lie in the ranges that R109 calls occupied,
but no table names a register there: they are unimplemented (DESIGN CHOICE, log 57). -/
def prtsk : List RegRow := [
  ⟨0x240000, [(64, 0x1000)], [⟨21, 16, .shd, 0⟩, ⟨12, 8, .shd, 0⟩, ⟨0, 0, .shd, 0⟩], false⟩,
  ⟨0x240004, [(64, 0x1000)], [⟨31, 16, .shd, 0⟩, ⟨15, 0, .shd, 0⟩], false⟩,
  ⟨0x240008, [(64, 0x1000)], [⟨31, 16, .shd, 0⟩, ⟨15, 0, .shd, 0⟩], false⟩,
  ⟨0x24000C, [(64, 0x1000)], [⟨23, 0, .shd, 0⟩], false⟩,
  ⟨0x240010, [(64, 0x1000)], [⟨23, 0, .shd, 0⟩], false⟩,
  ⟨0x240014, [(64, 0x1000)], [⟨23, 0, .shd, 0⟩], false⟩,
  ⟨0x240018, [(64, 0x1000)], [⟨15, 0, .shd, 0⟩], false⟩,
  ⟨0x240040, [(64, 0x1000), (32, 0x8)], [⟨21, 21, .shd, 0⟩, ⟨20, 16, .shd, 0⟩, ⟨13, 11, .shd, 0⟩, ⟨10, 10, .shd, 0⟩, ⟨9, 0, .shd, 0⟩], false⟩,
  ⟨0x240044, [(64, 0x1000), (32, 0x8)], [⟨15, 0, .shd, 0⟩], false⟩,
  ⟨0x240140, [(64, 0x1000), (16, 0x40)], [⟨8, 8, .shd, 0⟩, ⟨4, 0, .shd, 0⟩], false⟩,
  ⟨0x240144, [(64, 0x1000), (16, 0x40)], [⟨31, 0, .shd, 0⟩], false⟩,
  ⟨0x240148, [(64, 0x1000), (16, 0x40), (14, 0x4)], [⟨31, 0, .shd, 0⟩], false⟩,
  ⟨0x240800, [(64, 0x1000)], [⟨21, 16, .ro, 0⟩, ⟨12, 8, .ro, 0⟩, ⟨0, 0, .ro, 0⟩], false⟩,
  ⟨0x240804, [(64, 0x1000)], [⟨31, 16, .ro, 0⟩, ⟨15, 0, .ro, 0⟩], false⟩,
  ⟨0x240808, [(64, 0x1000)], [⟨31, 16, .ro, 0⟩, ⟨15, 0, .ro, 0⟩], false⟩,
  ⟨0x24080C, [(64, 0x1000)], [⟨23, 0, .ro, 0⟩], false⟩,
  ⟨0x240810, [(64, 0x1000)], [⟨23, 0, .ro, 0⟩], false⟩,
  ⟨0x240814, [(64, 0x1000)], [⟨23, 0, .ro, 0⟩], false⟩,
  ⟨0x240818, [(64, 0x1000)], [⟨15, 0, .ro, 0⟩], false⟩,
  ⟨0x240840, [(64, 0x1000), (32, 0x8)], [⟨21, 21, .ro, 0⟩, ⟨20, 16, .ro, 0⟩, ⟨13, 11, .ro, 0⟩, ⟨10, 10, .ro, 0⟩, ⟨9, 0, .ro, 0⟩], false⟩,
  ⟨0x240844, [(64, 0x1000), (32, 0x8)], [⟨15, 0, .ro, 0⟩], false⟩,
  ⟨0x240940, [(64, 0x1000), (16, 0x40)], [⟨8, 8, .ro, 0⟩, ⟨4, 0, .ro, 0⟩], false⟩,
  ⟨0x240944, [(64, 0x1000), (16, 0x40)], [⟨31, 0, .ro, 0⟩], false⟩,
  ⟨0x240948, [(64, 0x1000), (16, 0x40), (14, 0x4)], [⟨31, 0, .ro, 0⟩], false⟩]

def prtpmap : List RegRow := [
  ⟨0x301000, [(16, 0x8)], [⟨31, 0, .shd, 0⟩], false⟩,
  ⟨0x301004, [(16, 0x8)], [⟨31, 0, .shd, 0⟩], false⟩,
  ⟨0x301100, [(16, 0x8)], [⟨31, 0, .ro, 0⟩], false⟩,
  ⟨0x301104, [(16, 0x8)], [⟨31, 0, .ro, 0⟩], false⟩]

def stl : List RegRow := [
  ⟨0xB0000, [], [⟨31, 24, .ro, 165⟩, ⟨23, 16, .ro, 1⟩, ⟨15, 0, .ro, 11⟩], false⟩,
  ⟨0xB0004, [], [⟨31, 31, .w1c, 0⟩, ⟨30, 30, .ro, 0⟩, ⟨15, 0, .ro, 0⟩], false⟩,
  ⟨0xB0008, [], [⟨31, 0, .ro, 0⟩], true⟩,
  ⟨0xB0010, [], [⟨0, 0, .w1c, 0⟩], false⟩,
  ⟨0xB0014, [], [⟨15, 0, .ro, 0⟩], false⟩,
  ⟨0xB0018, [], [⟨31, 0, .ro, 0⟩], true⟩,
  ⟨0xB001C, [], [⟨31, 0, .ro, 0⟩], true⟩]

def stlpr : List RegRow := [
  ⟨0xB0100, [(64, 0x8)], [⟨2, 2, .ro, 0⟩, ⟨1, 1, .ro, 0⟩, ⟨0, 0, .ro, 0⟩], false⟩,
  ⟨0xB0104, [(64, 0x8)], [⟨31, 0, .ro, 0⟩], true⟩,
  ⟨0xB1000, [(64, 0x40)], [⟨8, 5, .rw, 0⟩, ⟨2, 2, .rw, 0⟩, ⟨1, 1, .ro, 0⟩, ⟨0, 0, .rw, 0⟩], false⟩,
  ⟨0xB1004, [(64, 0x40)], [⟨31, 12, .rw, 0⟩], false⟩,
  ⟨0xB1008, [(64, 0x40)], [⟨4, 0, .rw, 0⟩], false⟩,
  ⟨0xB100C, [(64, 0x40)], [⟨27, 16, .rw, 1⟩, ⟨15, 0, .rw, 0⟩], false⟩,
  ⟨0xB1010, [(64, 0x40)], [⟨31, 20, .ro, 0⟩, ⟨19, 8, .ro, 0⟩], false⟩,
  ⟨0xB1014, [(64, 0x40)], [⟨31, 31, .ro, 0⟩, ⟨27, 16, .ro, 0⟩, ⟨11, 0, .ro, 0⟩], false⟩,
  ⟨0xB1018, [(64, 0x40)], [⟨0, 0, .trg, 0⟩], false⟩,
  ⟨0xB101C, [(64, 0x40)], [⟨2, 2, .w1c, 0⟩, ⟨1, 1, .w1c, 0⟩, ⟨0, 0, .w1c, 0⟩], false⟩,
  ⟨0xB1020, [(64, 0x40)], [⟨31, 0, .ro, 0⟩], true⟩,
  ⟨0xB1024, [(64, 0x40)], [⟨31, 0, .ro, 0⟩], true⟩,
  ⟨0xB1028, [(64, 0x40)], [⟨31, 0, .ro, 0⟩], true⟩]

def mem : List RegRow := [
  ⟨0xC0000, [], [⟨31, 24, .ro, 165⟩, ⟨23, 16, .ro, 1⟩, ⟨15, 0, .ro, 12⟩], false⟩,
  ⟨0xC0004, [], [⟨31, 31, .w1c, 0⟩, ⟨30, 30, .ro, 0⟩, ⟨15, 0, .ro, 0⟩], false⟩,
  ⟨0xC0008, [], [⟨31, 0, .ro, 0⟩], true⟩,
  ⟨0xC0010, [], [⟨31, 31, .rw, 1⟩, ⟨27, 16, .rw, 500⟩, ⟨11, 0, .rw, 0⟩], false⟩,
  ⟨0xC0014, [], [⟨7, 0, .ro, 0⟩], false⟩,
  ⟨0xC0020, [(8, 0x4)], [⟨31, 0, .ro, 0⟩], true⟩,
  ⟨0xC0040, [(8, 0x4)], [⟨31, 0, .ro, 0⟩], true⟩,
  ⟨0xC0100, [(16, 0x8)], [⟨31, 16, .ro, 0⟩, ⟨15, 0, .ro, 0⟩], false⟩,
  ⟨0xC0104, [(16, 0x8)], [⟨31, 31, .ro, 0⟩, ⟨2, 0, .ro, 0⟩], false⟩]

def dep_0 : List RegRow := [
  ⟨0xD0000, [], [⟨31, 24, .ro, 165⟩, ⟨23, 16, .ro, 1⟩, ⟨15, 0, .ro, 13⟩], false⟩,
  ⟨0xD0004, [], [⟨31, 31, .w1c, 0⟩, ⟨30, 30, .ro, 0⟩, ⟨15, 0, .ro, 0⟩], false⟩,
  ⟨0xD0008, [], [⟨31, 0, .ro, 0⟩], true⟩,
  ⟨0xD0010, [], [⟨31, 24, .rw, 24⟩, ⟨16, 16, .rw, 1⟩, ⟨15, 0, .rw, 64⟩], false⟩,
  ⟨0xD0014, [], [⟨10, 0, .rw, 100⟩], false⟩,
  ⟨0xD0018, [], [⟨2, 2, .ro, 0⟩, ⟨1, 1, .ro, 0⟩, ⟨0, 0, .ro, 0⟩], false⟩,
  ⟨0xD001C, [], [⟨6, 6, .w1c, 0⟩, ⟨5, 5, .w1c, 0⟩, ⟨4, 4, .w1c, 0⟩, ⟨3, 3, .w1c, 0⟩, ⟨2, 2, .w1c, 0⟩, ⟨1, 1, .w1c, 0⟩, ⟨0, 0, .w1c, 0⟩], false⟩,
  ⟨0xD0020, [], [⟨31, 31, .rw, 0⟩, ⟨13, 0, .rw, 0⟩], false⟩,
  ⟨0xD0024, [], [⟨31, 0, .rw, 0⟩], false⟩,
  ⟨0xD0028, [], [⟨31, 0, .ro, 0⟩], false⟩,
  ⟨0xD0030, [(8, 0x4)], [⟨31, 0, .ro, 0⟩], false⟩,
  ⟨0xD0050, [], [⟨31, 0, .ro, 0⟩], false⟩,
  ⟨0xD0054, [], [⟨31, 0, .ro, 0⟩], false⟩,
  ⟨0xD0080, [], [⟨31, 0, .ro, 0⟩], false⟩,
  ⟨0xD0084, [], [⟨31, 0, .ro, 0⟩], true⟩,
  ⟨0xD0088, [], [⟨31, 0, .ro, 0⟩], true⟩,
  ⟨0xD008C, [], [⟨31, 0, .ro, 0⟩], true⟩,
  ⟨0xD0090, [], [⟨31, 0, .ro, 0⟩], true⟩,
  ⟨0xD0094, [], [⟨31, 0, .ro, 0⟩], true⟩,
  ⟨0xD0098, [], [⟨31, 0, .ro, 0⟩], true⟩,
  ⟨0xD009C, [], [⟨31, 0, .ro, 0⟩], true⟩,
  ⟨0xD00A0, [], [⟨31, 0, .ro, 0⟩], true⟩,
  ⟨0xD00A4, [], [⟨31, 0, .ro, 0⟩], true⟩,
  ⟨0xD00A8, [], [⟨31, 0, .ro, 0⟩], true⟩]

def dep_1 : List RegRow := [
  ⟨0xD00AC, [], [⟨31, 0, .ro, 0⟩], true⟩,
  ⟨0xD00B0, [], [⟨31, 0, .ro, 0⟩], true⟩,
  ⟨0xD00B4, [], [⟨31, 0, .ro, 0⟩], true⟩,
  ⟨0xD00B8, [], [⟨31, 0, .ro, 0⟩], true⟩,
  ⟨0xD00BC, [], [⟨31, 0, .ro, 0⟩], true⟩,
  ⟨0xD00C0, [], [⟨31, 0, .ro, 0⟩], true⟩,
  ⟨0xD00C4, [], [⟨31, 0, .ro, 0⟩], true⟩]

def dep : List RegRow := dep_0 ++ dep_1

def twn : List RegRow := [
  ⟨0xE0000, [], [⟨31, 24, .ro, 165⟩, ⟨23, 16, .ro, 1⟩, ⟨15, 0, .ro, 14⟩], false⟩,
  ⟨0xE0004, [], [⟨31, 31, .w1c, 0⟩, ⟨30, 30, .ro, 0⟩, ⟨15, 0, .ro, 0⟩], false⟩,
  ⟨0xE0008, [], [⟨31, 0, .ro, 0⟩], true⟩,
  ⟨0xE0010, [], [⟨15, 8, .rw, 16⟩, ⟨3, 3, .trg, 0⟩, ⟨2, 2, .trg, 0⟩, ⟨1, 1, .rw, 0⟩, ⟨0, 0, .rw, 1⟩], false⟩,
  ⟨0xE0014, [], [⟨27, 24, .ro, 0⟩, ⟨23, 16, .ro, 0⟩, ⟨11, 11, .ro, 0⟩, ⟨10, 10, .ro, 0⟩, ⟨9, 9, .ro, 0⟩, ⟨8, 8, .ro, 0⟩, ⟨6, 4, .ro, 0⟩, ⟨2, 0, .ro, 0⟩], false⟩,
  ⟨0xE0018, [], [⟨8, 8, .w1c, 0⟩, ⟨7, 7, .w1c, 0⟩, ⟨6, 6, .w1c, 0⟩, ⟨5, 5, .w1c, 0⟩, ⟨4, 4, .w1c, 0⟩, ⟨3, 3, .w1c, 0⟩, ⟨2, 2, .w1c, 0⟩, ⟨1, 1, .w1c, 0⟩, ⟨0, 0, .w1c, 0⟩], false⟩,
  ⟨0xE001C, [], [⟨9, 0, .rw, 50⟩], false⟩,
  ⟨0xE0020, [], [⟨23, 0, .ro, 0⟩], false⟩,
  ⟨0xE0024, [], [⟨15, 0, .ro, 0⟩], false⟩,
  ⟨0xE0028, [], [⟨9, 0, .rw, 20⟩], false⟩,
  ⟨0xE0040, [], [⟨31, 0, .ro, 0⟩], true⟩,
  ⟨0xE0044, [], [⟨31, 0, .ro, 0⟩], true⟩,
  ⟨0xE0048, [], [⟨31, 0, .ro, 0⟩], true⟩,
  ⟨0xE004C, [], [⟨31, 0, .ro, 0⟩], true⟩,
  ⟨0xE0050, [], [⟨31, 0, .ro, 0⟩], true⟩,
  ⟨0xE0054, [], [⟨31, 0, .ro, 0⟩], true⟩,
  ⟨0xE0058, [], [⟨31, 0, .ro, 0⟩], true⟩,
  ⟨0xE005C, [], [⟨31, 0, .ro, 0⟩], true⟩,
  ⟨0xE0060, [], [⟨31, 0, .ro, 0⟩], true⟩,
  ⟨0xE0064, [], [⟨31, 0, .ro, 0⟩], true⟩,
  ⟨0xE0068, [], [⟨31, 0, .ro, 0⟩], true⟩,
  ⟨0xE006C, [], [⟨31, 0, .ro, 0⟩], true⟩,
  ⟨0xE0070, [], [⟨31, 0, .ro, 0⟩], true⟩]

def trk_0 : List RegRow := [
  ⟨0xF0000, [], [⟨31, 24, .ro, 165⟩, ⟨23, 16, .ro, 1⟩, ⟨15, 0, .ro, 15⟩], false⟩,
  ⟨0xF0004, [], [⟨31, 31, .w1c, 0⟩, ⟨30, 30, .ro, 0⟩, ⟨15, 0, .ro, 0⟩], false⟩,
  ⟨0xF0008, [], [⟨31, 0, .ro, 0⟩], true⟩,
  ⟨0xF0010, [], [⟨1, 1, .trg, 0⟩, ⟨0, 0, .rw, 1⟩], false⟩,
  ⟨0xF0014, [], [⟨23, 23, .ro, 0⟩, ⟨22, 16, .ro, 0⟩, ⟨7, 7, .ro, 0⟩, ⟨5, 4, .ro, 0⟩, ⟨2, 0, .ro, 0⟩], false⟩,
  ⟨0xF0018, [], [⟨6, 6, .w1c, 0⟩, ⟨5, 5, .w1c, 0⟩, ⟨4, 4, .w1c, 0⟩, ⟨3, 3, .w1c, 0⟩, ⟨2, 2, .w1c, 0⟩, ⟨1, 1, .w1c, 0⟩, ⟨0, 0, .w1c, 0⟩], false⟩,
  ⟨0xF001C, [], [⟨23, 16, .rw, 40⟩, ⟨12, 0, .rw, 200⟩], false⟩,
  ⟨0xF0020, [], [⟨9, 0, .rw, 20⟩], false⟩,
  ⟨0xF0024, [], [⟨29, 16, .rw, 0⟩, ⟨13, 0, .rw, 0⟩], false⟩,
  ⟨0xF0028, [], [⟨31, 0, .ro, 0⟩], false⟩,
  ⟨0xF002C, [], [⟨31, 0, .ro, 0⟩], false⟩,
  ⟨0xF0030, [], [⟨23, 0, .ro, 0⟩], false⟩,
  ⟨0xF0034, [], [⟨23, 0, .ro, 0⟩], false⟩,
  ⟨0xF0038, [], [⟨31, 0, .rw, 0⟩], false⟩,
  ⟨0xF003C, [], [⟨31, 0, .rw, 0⟩], false⟩,
  ⟨0xF0040, [], [⟨15, 0, .rw, 0x7000⟩], false⟩,
  ⟨0xF0044, [], [⟨0, 0, .trg, 0⟩], false⟩,
  ⟨0xF0060, [], [⟨31, 0, .ro, 0⟩], true⟩,
  ⟨0xF0064, [], [⟨31, 0, .ro, 0⟩], true⟩,
  ⟨0xF0068, [], [⟨31, 0, .ro, 0⟩], true⟩,
  ⟨0xF006C, [], [⟨31, 0, .ro, 0⟩], true⟩,
  ⟨0xF0070, [], [⟨31, 0, .ro, 0⟩], true⟩,
  ⟨0xF0074, [], [⟨31, 0, .ro, 0⟩], true⟩,
  ⟨0xF0078, [], [⟨31, 0, .ro, 0⟩], true⟩]

def trk_1 : List RegRow := [
  ⟨0xF007C, [], [⟨31, 0, .ro, 0⟩], true⟩,
  ⟨0xF0080, [], [⟨31, 0, .ro, 0⟩], true⟩]

def trk : List RegRow := trk_0 ++ trk_1

def cal : List RegRow := [
  ⟨0x100000, [], [⟨31, 24, .ro, 165⟩, ⟨23, 16, .ro, 1⟩, ⟨15, 0, .ro, 16⟩], false⟩,
  ⟨0x100004, [], [⟨31, 31, .w1c, 0⟩, ⟨30, 30, .ro, 0⟩, ⟨15, 0, .ro, 0⟩], false⟩,
  ⟨0x100008, [], [⟨31, 0, .ro, 0⟩], true⟩,
  ⟨0x100010, [], [⟨19, 16, .ro, 0⟩, ⟨4, 4, .w1c, 0⟩, ⟨3, 3, .w1c, 0⟩, ⟨2, 2, .ro, 0⟩, ⟨0, 0, .ro, 0⟩], false⟩,
  ⟨0x100014, [], [⟨2, 1, .rw, 0⟩, ⟨0, 0, .trg, 0⟩], false⟩,
  ⟨0x100018, [], [⟨31, 0, .rw, 0⟩], false⟩,
  ⟨0x10001C, [], [⟨31, 0, .rw, 0⟩], false⟩,
  ⟨0x100020, [], [⟨31, 12, .rw, 0⟩], false⟩,
  ⟨0x100024, [], [⟨4, 0, .rw, 0⟩], false⟩,
  ⟨0x100028, [], [⟨16, 16, .ro, 0⟩, ⟨15, 0, .trg, 0⟩], false⟩,
  ⟨0x10002C, [], [⟨31, 0, .ro, 0⟩], false⟩]

def dbg : List RegRow := [
  ⟨0x110000, [], [⟨31, 24, .ro, 165⟩, ⟨23, 16, .ro, 1⟩, ⟨15, 0, .ro, 17⟩], false⟩,
  ⟨0x110004, [], [⟨31, 31, .w1c, 0⟩, ⟨30, 30, .ro, 0⟩, ⟨15, 0, .ro, 0⟩], false⟩,
  ⟨0x110008, [], [⟨31, 0, .ro, 0⟩], true⟩,
  ⟨0x110010, [], [⟨1, 0, .rw, 0⟩], false⟩,
  ⟨0x110014, [], [⟨2, 2, .ro, 0⟩, ⟨1, 1, .ro, 0⟩, ⟨0, 0, .ro, 0⟩], false⟩,
  ⟨0x110018, [], [⟨1, 1, .trg, 0⟩, ⟨0, 0, .trg, 0⟩], false⟩,
  ⟨0x110020, [(8, 0x4)], [⟨31, 0, .rw, 0⟩], false⟩,
  ⟨0x110040, [], [⟨31, 5, .rw, 0⟩], false⟩,
  ⟨0x110044, [], [⟨4, 0, .rw, 0⟩], false⟩,
  ⟨0x110048, [], [⟨15, 8, .rw, 0⟩, ⟨2, 0, .rw, 0⟩], false⟩,
  ⟨0x11004C, [], [⟨0, 0, .trg, 0⟩], false⟩,
  ⟨0x110060, [(8, 0x4)], [⟨31, 0, .ro, 0⟩], false⟩]

def cpt : List RegRow := [
  ⟨0x12000000, [(128, 0x10000)], [⟨31, 24, .ro, 165⟩, ⟨23, 16, .ro, 1⟩, ⟨15, 0, .ro, 257⟩], false⟩,
  ⟨0x12000004, [(128, 0x10000)], [⟨31, 31, .w1c, 0⟩, ⟨30, 30, .ro, 0⟩, ⟨15, 0, .ro, 0⟩], false⟩,
  ⟨0x12000008, [(128, 0x10000)], [⟨31, 0, .ro, 0⟩], true⟩,
  ⟨0x12000010, [(128, 0x10000)], [⟨15, 8, .rw, 20⟩, ⟨2, 2, .rw, 0⟩, ⟨1, 1, .trg, 0⟩, ⟨0, 0, .rw, 1⟩], false⟩,
  ⟨0x12000014, [(128, 0x10000)], [⟨2, 0, .ro, 0⟩], false⟩,
  ⟨0x12000018, [(128, 0x10000)], [⟨15, 0, .rw, 0⟩], false⟩,
  ⟨0x1200001C, [(128, 0x10000)], [⟨31, 31, .ro, 0⟩, ⟨1, 1, .rw, 0⟩, ⟨0, 0, .trg, 0⟩], false⟩,
  ⟨0x12000020, [(128, 0x10000)], [⟨31, 0, .rw, 0⟩], false⟩,
  ⟨0x12000024, [(128, 0x10000)], [⟨15, 0, .rw, 0⟩], false⟩,
  ⟨0x12000028, [(128, 0x10000)], [⟨3, 3, .w1c, 0⟩, ⟨2, 2, .w1c, 0⟩, ⟨1, 1, .w1c, 0⟩, ⟨0, 0, .w1c, 0⟩], false⟩,
  ⟨0x1200002C, [(128, 0x10000)], [⟨25, 0, .ro, 0x3FFFFFF⟩], false⟩,
  ⟨0x12000030, [(128, 0x10000)], [⟨25, 0, .rw, 0x2710⟩], false⟩,
  ⟨0x12000034, [(128, 0x10000)], [⟨21, 16, .rw, 0⟩, ⟨13, 8, .rw, 0⟩, ⟨5, 0, .rw, 0⟩], false⟩,
  ⟨0x12000040, [(128, 0x10000)], [⟨31, 0, .ro, 0⟩], true⟩,
  ⟨0x12000044, [(128, 0x10000)], [⟨31, 0, .ro, 0⟩], true⟩,
  ⟨0x12000048, [(128, 0x10000)], [⟨31, 0, .ro, 0⟩], true⟩,
  ⟨0x1200004C, [(128, 0x10000)], [⟨31, 0, .ro, 0⟩], true⟩,
  ⟨0x12000050, [(128, 0x10000)], [⟨31, 0, .ro, 0⟩], false⟩,
  ⟨0x12000054, [(128, 0x10000)], [⟨31, 0, .ro, 0⟩], true⟩,
  ⟨0x12000058, [(128, 0x10000)], [⟨31, 0, .ro, 0⟩], true⟩,
  ⟨0x1200005C, [(128, 0x10000)], [⟨31, 0, .ro, 0⟩], true⟩,
  ⟨0x12000060, [(128, 0x10000)], [⟨31, 0, .ro, 0⟩], true⟩]

def cptrm : List RegRow := [
  ⟨0x12001000, [(128, 0x10000), (64, 0x20)], [⟨21, 19, .shd, 0⟩, ⟨18, 16, .shd, 0⟩, ⟨12, 8, .shd, 0⟩, ⟨6, 4, .shd, 0⟩, ⟨3, 2, .shd, 0⟩, ⟨1, 1, .shd, 0⟩, ⟨0, 0, .shd, 0⟩], false⟩,
  ⟨0x12001004, [(128, 0x10000), (64, 0x20)], [⟨31, 16, .shd, 0⟩, ⟨15, 0, .shd, 0⟩], false⟩,
  ⟨0x12001008, [(128, 0x10000), (64, 0x20)], [⟨31, 16, .shd, 0⟩, ⟨15, 0, .shd, 0⟩], false⟩,
  ⟨0x1200100C, [(128, 0x10000), (64, 0x20)], [⟨15, 0, .shd, 0⟩], false⟩,
  ⟨0x12001010, [(128, 0x10000), (64, 0x20)], [⟨19, 0, .shd, 0⟩], false⟩,
  ⟨0x12001800, [(128, 0x10000), (64, 0x20)], [⟨21, 19, .ro, 0⟩, ⟨18, 16, .ro, 0⟩, ⟨12, 8, .ro, 0⟩, ⟨6, 4, .ro, 0⟩, ⟨3, 2, .ro, 0⟩, ⟨1, 1, .ro, 0⟩, ⟨0, 0, .ro, 0⟩], false⟩,
  ⟨0x12001804, [(128, 0x10000), (64, 0x20)], [⟨31, 16, .ro, 0⟩, ⟨15, 0, .ro, 0⟩], false⟩,
  ⟨0x12001808, [(128, 0x10000), (64, 0x20)], [⟨31, 16, .ro, 0⟩, ⟨15, 0, .ro, 0⟩], false⟩,
  ⟨0x1200180C, [(128, 0x10000), (64, 0x20)], [⟨15, 0, .ro, 0⟩], false⟩,
  ⟨0x12001810, [(128, 0x10000), (64, 0x20)], [⟨19, 0, .ro, 0⟩], false⟩]

def sip_0 : List RegRow := [
  ⟨0x22000000, [(128, 0x10000)], [⟨31, 24, .ro, 165⟩, ⟨23, 16, .ro, 1⟩, ⟨15, 0, .ro, 258⟩], false⟩,
  ⟨0x22000004, [(128, 0x10000)], [⟨31, 31, .w1c, 0⟩, ⟨30, 30, .ro, 0⟩, ⟨15, 0, .ro, 0⟩], false⟩,
  ⟨0x22000008, [(128, 0x10000)], [⟨31, 0, .ro, 0⟩], true⟩,
  ⟨0x22000010, [(128, 0x10000)], [⟨4, 4, .rw, 0⟩, ⟨1, 1, .trg, 0⟩, ⟨0, 0, .rw, 1⟩], false⟩,
  ⟨0x22000014, [(128, 0x10000)], [⟨1, 0, .ro, 0⟩], false⟩,
  ⟨0x22000018, [(128, 0x10000)], [⟨31, 0, .rw, 0⟩], false⟩,
  ⟨0x2200001C, [(128, 0x10000)], [⟨15, 0, .rw, 0⟩], false⟩,
  ⟨0x22000020, [(128, 0x10000)], [⟨29, 16, .rw, 0⟩, ⟨13, 0, .rw, 0⟩], false⟩,
  ⟨0x22000024, [(128, 0x10000)], [⟨4, 4, .w1c, 0⟩, ⟨3, 3, .w1c, 0⟩, ⟨2, 2, .w1c, 0⟩, ⟨1, 1, .w1c, 0⟩, ⟨0, 0, .w1c, 0⟩], false⟩,
  ⟨0x22000028, [(128, 0x10000), (2, 0x4)], [⟨31, 16, .rw, 0⟩, ⟨15, 0, .rw, 0⟩], false⟩,
  ⟨0x22000030, [(128, 0x10000)], [⟨31, 30, .ro, 0⟩, ⟨29, 0, .ro, 0⟩], false⟩,
  ⟨0x22000034, [(128, 0x10000)], [⟨31, 0, .ro, 0⟩], false⟩,
  ⟨0x22000038, [(128, 0x10000)], [⟨31, 16, .ro, 0⟩, ⟨15, 0, .ro, 0⟩], false⟩,
  ⟨0x2200003C, [(128, 0x10000)], [⟨6, 0, .ro, 0⟩], false⟩,
  ⟨0x22000040, [(128, 0x10000)], [⟨0, 0, .w1c, 0⟩], false⟩,
  ⟨0x22000050, [(128, 0x10000)], [⟨31, 0, .ro, 0⟩], true⟩,
  ⟨0x22000054, [(128, 0x10000)], [⟨31, 0, .ro, 0⟩], true⟩,
  ⟨0x22000058, [(128, 0x10000)], [⟨31, 0, .ro, 0⟩], true⟩,
  ⟨0x2200005C, [(128, 0x10000)], [⟨31, 0, .ro, 0⟩], true⟩,
  ⟨0x22000060, [(128, 0x10000)], [⟨31, 0, .ro, 0⟩], true⟩,
  ⟨0x22000064, [(128, 0x10000)], [⟨31, 0, .ro, 0⟩], true⟩,
  ⟨0x22000068, [(128, 0x10000)], [⟨31, 0, .ro, 0⟩], true⟩,
  ⟨0x2200006C, [(128, 0x10000)], [⟨31, 0, .ro, 0⟩], true⟩,
  ⟨0x22000070, [(128, 0x10000)], [⟨31, 0, .ro, 0⟩], true⟩]

def sip_1 : List RegRow := [
  ⟨0x22000074, [(128, 0x10000)], [⟨31, 0, .ro, 0⟩], true⟩,
  ⟨0x22000078, [(128, 0x10000)], [⟨31, 0, .ro, 0⟩], true⟩,
  ⟨0x2200007C, [(128, 0x10000)], [⟨31, 0, .ro, 0⟩], true⟩]

def sip : List RegRow := sip_0 ++ sip_1

def sipcx_0 : List RegRow := [
  ⟨0x22004000, [(128, 0x10000), (16, 0x100)], [⟨30, 24, .rw, 96⟩, ⟨21, 16, .rw, 0⟩, ⟨13, 13, .rw, 0⟩, ⟨12, 12, .rw, 0⟩, ⟨11, 10, .rw, 2⟩, ⟨9, 7, .rw, 0⟩, ⟨5, 5, .shd, 0⟩, ⟨4, 4, .rw, 0⟩, ⟨3, 3, .rw, 0⟩, ⟨2, 2, .rw, 0⟩, ⟨1, 1, .rw, 0⟩, ⟨0, 0, .rw, 0⟩], false⟩,
  ⟨0x22004004, [(128, 0x10000), (16, 0x100)], [⟨31, 0, .rw, 0⟩], false⟩,
  ⟨0x22004008, [(128, 0x10000), (16, 0x100)], [⟨27, 16, .rw, 0⟩, ⟨15, 0, .rw, 0⟩], false⟩,
  ⟨0x2200400C, [(128, 0x10000), (16, 0x100)], [⟨31, 0, .shd, 0⟩], false⟩,
  ⟨0x22004010, [(128, 0x10000), (16, 0x100)], [⟨31, 16, .rw, 0⟩, ⟨15, 0, .rw, 0⟩], false⟩,
  ⟨0x22004014, [(128, 0x10000), (16, 0x100)], [⟨22, 0, .rw, 0⟩], false⟩,
  ⟨0x22004018, [(128, 0x10000), (16, 0x100)], [⟨25, 0, .rw, 0x13DE435⟩], false⟩,
  ⟨0x2200401C, [(128, 0x10000), (16, 0x100)], [⟨25, 16, .rw, 0⟩, ⟨9, 0, .rw, 0⟩], false⟩,
  ⟨0x22004020, [(128, 0x10000), (16, 0x100), (4, 0x8)], [⟨31, 12, .rw, 0⟩], false⟩,
  ⟨0x22004024, [(128, 0x10000), (16, 0x100), (4, 0x8)], [⟨4, 0, .rw, 0⟩], false⟩,
  ⟨0x22004040, [(128, 0x10000), (16, 0x100)], [⟨31, 16, .rw, 0⟩, ⟨15, 0, .rw, 100⟩], false⟩,
  ⟨0x22004044, [(128, 0x10000), (16, 0x100)], [⟨1, 0, .ro, 0⟩], false⟩,
  ⟨0x22004048, [(128, 0x10000), (16, 0x100)], [⟨31, 0, .ro, 0⟩], false⟩,
  ⟨0x2200404C, [(128, 0x10000), (16, 0x100)], [⟨31, 0, .ro, 0⟩], false⟩,
  ⟨0x22004050, [(128, 0x10000), (16, 0x100)], [⟨31, 0, .ro, 0⟩], false⟩,
  ⟨0x22004054, [(128, 0x10000), (16, 0x100)], [⟨6, 6, .w1c, 0⟩, ⟨5, 5, .w1c, 0⟩, ⟨4, 4, .w1c, 0⟩, ⟨3, 3, .w1c, 0⟩, ⟨2, 2, .w1c, 0⟩, ⟨1, 1, .w1c, 0⟩, ⟨0, 0, .w1c, 0⟩], false⟩,
  ⟨0x22004060, [(128, 0x10000), (16, 0x100)], [⟨31, 0, .ro, 0⟩], true⟩,
  ⟨0x22004064, [(128, 0x10000), (16, 0x100)], [⟨31, 0, .ro, 0⟩], true⟩,
  ⟨0x22004068, [(128, 0x10000), (16, 0x100)], [⟨31, 0, .ro, 0⟩], true⟩,
  ⟨0x2200406C, [(128, 0x10000), (16, 0x100)], [⟨31, 0, .ro, 0⟩], true⟩,
  ⟨0x22004070, [(128, 0x10000), (16, 0x100)], [⟨31, 0, .ro, 0⟩], true⟩,
  ⟨0x22004074, [(128, 0x10000), (16, 0x100)], [⟨31, 0, .ro, 0⟩], true⟩,
  ⟨0x22004078, [(128, 0x10000), (16, 0x100)], [⟨31, 0, .ro, 0⟩], true⟩,
  ⟨0x2200407C, [(128, 0x10000), (16, 0x100)], [⟨31, 0, .ro, 0⟩], true⟩]

def sipcx_1 : List RegRow := [
  ⟨0x22004080, [(128, 0x10000), (16, 0x100)], [⟨31, 0, .ro, 0⟩], true⟩,
  ⟨0x22004084, [(128, 0x10000), (16, 0x100)], [⟨31, 0, .ro, 0⟩], true⟩,
  ⟨0x22004088, [(128, 0x10000), (16, 0x100)], [⟨31, 0, .ro, 0⟩], true⟩]

def sipcx : List RegRow := sipcx_0 ++ sipcx_1

def twnport : List RegRow := [
  ⟨0x32000000, [(128, 0x10000)], [⟨31, 24, .ro, 165⟩, ⟨23, 16, .ro, 1⟩, ⟨15, 0, .ro, 259⟩], false⟩,
  ⟨0x32000004, [(128, 0x10000)], [⟨31, 31, .w1c, 0⟩, ⟨30, 30, .ro, 0⟩, ⟨15, 0, .ro, 0⟩], false⟩,
  ⟨0x32000008, [(128, 0x10000)], [⟨31, 0, .ro, 0⟩], true⟩,
  ⟨0x32000010, [(128, 0x10000)], [⟨1, 1, .trg, 0⟩, ⟨0, 0, .rw, 1⟩], false⟩,
  ⟨0x32000014, [(128, 0x10000)], [⟨1, 0, .ro, 0⟩], false⟩,
  ⟨0x32000018, [(128, 0x10000)], [⟨21, 16, .rw, 0⟩, ⟨13, 8, .rw, 0⟩, ⟨5, 0, .rw, 0⟩], false⟩,
  ⟨0x32000020, [(128, 0x10000)], [⟨31, 0, .ro, 0⟩], true⟩,
  ⟨0x32000024, [(128, 0x10000)], [⟨31, 0, .ro, 0⟩], true⟩,
  ⟨0x32000028, [(128, 0x10000)], [⟨31, 0, .ro, 0⟩], true⟩]

def trkport : List RegRow := [
  ⟨0x42000000, [(128, 0x10000)], [⟨31, 24, .ro, 165⟩, ⟨23, 16, .ro, 1⟩, ⟨15, 0, .ro, 260⟩], false⟩,
  ⟨0x42000004, [(128, 0x10000)], [⟨31, 31, .w1c, 0⟩, ⟨30, 30, .ro, 0⟩, ⟨15, 0, .ro, 0⟩], false⟩,
  ⟨0x42000008, [(128, 0x10000)], [⟨31, 0, .ro, 0⟩], true⟩,
  ⟨0x42000010, [(128, 0x10000)], [⟨1, 1, .trg, 0⟩, ⟨0, 0, .rw, 1⟩], false⟩,
  ⟨0x42000014, [(128, 0x10000)], [⟨10, 8, .ro, 0⟩, ⟨5, 4, .ro, 0⟩, ⟨1, 0, .ro, 0⟩], false⟩,
  ⟨0x42000018, [(128, 0x10000)], [⟨21, 16, .rw, 0⟩, ⟨13, 8, .rw, 0⟩, ⟨5, 0, .rw, 0⟩], false⟩,
  ⟨0x42000020, [(128, 0x10000)], [⟨31, 0, .ro, 0⟩], true⟩,
  ⟨0x42000024, [(128, 0x10000)], [⟨31, 0, .ro, 0⟩], true⟩,
  ⟨0x42000028, [(128, 0x10000)], [⟨31, 0, .ro, 0⟩], true⟩]

def rlc_0 : List RegRow := [
  ⟨0x3000000, [(32, 0x1000)], [⟨31, 24, .ro, 165⟩, ⟨23, 16, .ro, 1⟩, ⟨15, 0, .ro, 512⟩], false⟩,
  ⟨0x3000004, [(32, 0x1000)], [⟨31, 31, .w1c, 0⟩, ⟨30, 30, .ro, 0⟩, ⟨15, 0, .ro, 0⟩], false⟩,
  ⟨0x3000008, [(32, 0x1000)], [⟨31, 0, .ro, 0⟩], true⟩,
  ⟨0x3000010, [(32, 0x1000)], [⟨15, 8, .rw, 8⟩, ⟨2, 2, .rw, 0⟩, ⟨1, 1, .rw, 0⟩, ⟨0, 0, .rw, 1⟩], false⟩,
  ⟨0x3000014, [(32, 0x1000)], [⟨28, 24, .ro, 0⟩, ⟨16, 8, .ro, 0⟩, ⟨0, 0, .ro, 0⟩], false⟩,
  ⟨0x3000018, [(32, 0x1000)], [⟨7, 0, .shd, 170⟩], false⟩,
  ⟨0x300001C, [(32, 0x1000)], [⟨7, 0, .ro, 170⟩], false⟩,
  ⟨0x3000020, [(32, 0x1000)], [⟨29, 16, .rw, 0⟩, ⟨13, 0, .rw, 0⟩], false⟩,
  ⟨0x3000024, [(32, 0x1000)], [⟨7, 7, .w1c, 0⟩, ⟨6, 6, .w1c, 0⟩, ⟨5, 5, .w1c, 0⟩, ⟨4, 4, .w1c, 0⟩, ⟨3, 3, .w1c, 0⟩, ⟨2, 2, .w1c, 0⟩, ⟨1, 1, .w1c, 0⟩, ⟨0, 0, .w1c, 0⟩], false⟩,
  ⟨0x3000028, [(32, 0x1000)], [⟨31, 0, .ro, 0⟩], true⟩,
  ⟨0x3000030, [(32, 0x1000)], [⟨31, 0, .ro, 0⟩], false⟩,
  ⟨0x3000034, [(32, 0x1000)], [⟨6, 0, .ro, 0⟩], false⟩,
  ⟨0x3000038, [(32, 0x1000)], [⟨0, 0, .w1c, 0⟩], false⟩,
  ⟨0x3000040, [(32, 0x1000)], [⟨31, 0, .ro, 0⟩], true⟩,
  ⟨0x3000044, [(32, 0x1000)], [⟨31, 0, .ro, 0⟩], true⟩,
  ⟨0x3000048, [(32, 0x1000)], [⟨31, 0, .ro, 0⟩], true⟩,
  ⟨0x300004C, [(32, 0x1000)], [⟨31, 0, .ro, 0⟩], true⟩,
  ⟨0x3000050, [(32, 0x1000)], [⟨31, 0, .ro, 0⟩], true⟩,
  ⟨0x3000054, [(32, 0x1000)], [⟨31, 0, .ro, 0⟩], true⟩,
  ⟨0x3000058, [(32, 0x1000)], [⟨31, 0, .ro, 0⟩], true⟩,
  ⟨0x300005C, [(32, 0x1000)], [⟨31, 0, .ro, 0⟩], true⟩,
  ⟨0x3000060, [(32, 0x1000)], [⟨31, 0, .ro, 0⟩], true⟩,
  ⟨0x3000064, [(32, 0x1000)], [⟨31, 0, .ro, 0⟩], true⟩,
  ⟨0x3000068, [(32, 0x1000)], [⟨31, 0, .ro, 0⟩], true⟩]

def rlc_1 : List RegRow := [
  ⟨0x300006C, [(32, 0x1000)], [⟨31, 0, .ro, 0⟩], true⟩,
  ⟨0x3000070, [(32, 0x1000)], [⟨31, 0, .ro, 0⟩], true⟩,
  ⟨0x3000074, [(32, 0x1000)], [⟨31, 0, .ro, 0⟩], true⟩,
  ⟨0x3000800, [(32, 0x1000), (256, 0x8)], [⟨15, 8, .ro, 0⟩, ⟨2, 2, .rw, 1⟩, ⟨1, 1, .ro, 0⟩, ⟨0, 0, .ro, 0⟩], false⟩,
  ⟨0x3000804, [(32, 0x1000), (256, 0x8)], [⟨31, 0, .ro, 0⟩], true⟩]

def rlc : List RegRow := rlc_0 ++ rlc_1

/-- The rows of the region that holds an offset: the regions of Table 2.2, the larger blocks cut further. -/
def rowsAt (off : Nat) : List RegRow :=
  if off < 0x8000 then glb else
  if off < 0x10000 then glbmsix else
  if off < 0x20000 then wbl else
  if off < 0x30000 then sdp else
  if off < 0x40000 then ckg else
  if off < 0x50000 then stk else
  if off < 0x60000 then flp else
  if off < 0x61000 then bel else
  if off < 0x70000 then belpage else
  if off < 0x80000 then rng else
  if off < 0x90000 then blt else
  if off < 0xA0000 then tlyunit ++ tly else
  if off < 0xA1000 then prt else
  if off < 0xB0000 then prtwit else
  if off < 0xB0100 then stl else
  if off < 0xC0000 then stlpr else
  if off < 0xD0000 then mem else
  if off < 0xE0000 then dep else
  if off < 0xF0000 then twn else
  if off < 0x100000 then trk else
  if off < 0x110000 then cal else
  if off < 0x200000 then dbg else
  if off < 0x240000 then prtld else
  if off < 0x300000 then prtsk else
  if off < 0x301000 then stkphase else
  if off < 0x800000 then prtpmap else
  if off < 0x1000000 then rngring else
  if off < 0x2000000 then prtpw else
  if off < 0x3020000 then rlc else
  if off < 0x12000000 then [] else
  if off < 0x22000000 then (if off % 0x10000 < 0x1000 then cpt else cptrm) else
  if off < 0x32000000 then (if off % 0x10000 < 0x4000 then sip else sipcx) else
  if off < 0x42000000 then twnport else trkport

end RegTable

end Sys2Proof.Machine
end

