-- ==== Sys2Proof/Config.lean ====
section
/-! DEFINITION. What the spec leaves open: free values (constants without a body, so that no proof can see
what they are), each named in the assumption log. -/

namespace Sys2Proof.Config

/-- What a byte of host memory holds that no command of the model has written (log 8). -/
opaque hostByte : Nat → Byte

/-- A free 32-bit value, applied to the counter `Dev.free` (log 9): nonces, and every value the spec calls
unspecified or does not state. -/
opaque freeWord : Nat → Word

/-- A free byte, applied to the counter `Dev.free` (log 9). -/
opaque freeByte : Nat → Byte

/-- A free natural number, applied to the counter `Dev.free` (log 9), for values that are counts or times. -/
opaque freeNat : Nat → Nat

/-- By how many stacks the spread of a content of reserved memory is turned in a row of eight blocks: R24 gives the stacks equal shares and
no order (log 53). -/
opaque reservedTurn : Nat → Nat → Nat

/-- A free choice between two orders or outcomes that the spec allows both (log 9). -/
opaque freeBool : Nat → Bool

end Sys2Proof.Config
end

