-- ==== Sys2Proof/Machine/State.lean ====
section
/-! DEFINITION. The state of the block: every register of the BAR0 map (in one sparse table keyed by offset), memory,
flash, and for each unit the state the spec gives it beside its registers; and the queue of waiting commands. -/

namespace Sys2Proof.Machine

/-- Why a step can stop with a fault. The spec gives this block no behaviour that stops the machine; no meaning raises
the one reason below, which stands for a command that no unit of the device could ever serve (safe). -/
inductive Fault where
  /-- Raised by no meaning: every command of the table has an effect in the spec. Safe. -/
  | stuck
  deriving DecidableEq, Repr

/-- Why a command is refused by the model. -/
inductive Refusal where
  /-- A command that has no meaning yet, by its mnemonic. Safe. -/
  | notModelled (mnemonic : String)
  deriving DecidableEq, Repr

/-- A sequenced twin frame (Table 13.1): by its bytes, or where the spec gives its payload no layout by what it says. A state
image lists registers, those not listed holding their reset values, and the queued sets. -/
inductive TwinMsg where
  | bytes (type_ : Nat) (payload : List Byte)
  | mirror (items : List MirrorItem)
  | state (first last : Bool) (regs : List (Nat × Nat)) (sets : List ImageSet) (start : Option (Rat × Nat))
  | ready (latch : Nat) (sets : List Nat)
  | decision (latch : Nat) (sets : List (Bool × Nat))
  deriving DecidableEq, Repr

/-- What a link port's transmitter drives (R202, R217, R302, R326, R414): electrical idle in DOWN and while its quad PLL is not locked,
PRBS13Q in TRAIN, inverted where the port's transmit polarity is (R62), and then codewords. A twin or trunk lane sends PRBS13Q for 20 ms
and codewords after it, whatever its receiver does (`link`). -/
inductive LaneDrive where
  | idle
  | prbs13q (inverted : Bool)
  | codewords
  | link (inverted : Bool)
  deriving DecidableEq, Repr

/-- The formats in which a clock output drives (R415); in LVCMOS the `N` ball is held low. -/
inductive ClockFormat where
  | lvds | hcsl | lvcmos
  deriving DecidableEq, Repr

/-- What a clock output carries in a format (R415): nothing, a divided clock of source `clk`, high for `high` of each `divisor` source
cycles, or the pulses of source 1 to 3. -/
inductive ClockSignal where
  | off
  | divided (clk divisor high : Nat) (inverted : Bool) (format : ClockFormat)
  | pulses (source : Nat) (inverted : Bool) (format : ClockFormat)
  deriving DecidableEq, Repr

/-- The two heartbeat signals between twins (R306). -/
inductive AlivePin where
  | p | n
  deriving DecidableEq, Repr

/-- What the device sends out while it carries out one command. -/
inductive Out where
  /-- A Successful Completion of a BAR0 read, with its data. -/
  | completion (data : Word)
  /-- A read completed with Unsupported Request (R23, R49). -/
  | unsupported
  /-- A BAR2 read's bytes; `poisoned` where the completion is poisoned (R281). -/
  | bytes (poisoned : Bool) (data : List Byte)
  /-- An MSI-X message: vector, address and data of its table entry (R31, R402). -/
  | msix (vector : Nat) (address : Nat) (data : Nat)
  /-- An SMBus read's value (R55), and the PEC byte where the controller clocks one (R54). -/
  | smbus (value : Nat) (pec : Option Byte)
  /-- The target acknowledges the Alert Response Address with its address, and the PEC byte where one is clocked (R54). -/
  | alertResponse (address : Nat) (pec : Option Byte)
  /-- A frame sent on a link port: Coach, Twin or Trunk. -/
  | frame (port : Nat) (data : List Byte)
  /-- The PAM4 levels of a codeword that leaves a Coach port (R200, R201). -/
  | codeword (port : Nat) (levels : List Nat)
  /-- A link port's transmitter begins to drive something else (R217, R302, R414). -/
  | lane (port : Nat) (drive : LaneDrive)
  /-- A Stream port begins to train, advertising the CR1 ability or the KR1 ability (R255). -/
  | train (port : Nat) (cr1 : Bool)
  /-- An Ethernet frame sent on a Stream port. -/
  | eth (port : Nat) (data : List Byte)
  /-- A frame sent on a return line. -/
  | line (line : Nat) (data : List Byte)
  /-- What that frame is on the wire (R230): the level of `RLcc_DE` while it goes out, and the half-bits of the pair, true positive. -/
  | wire (line : Nat) (de : Bool) (halves : List Bool)
  /-- A pulse on `STROKE_OUT` of so many microseconds, for a stroke (R91). -/
  | strokeOut (stroke width : Nat)
  /-- A pulse of so many µs on a clock output, at a level of its `P` ball (R415). -/
  | clockPulse (output width : Nat) (high : Bool) (format : ClockFormat)
  /-- A clock output begins to carry a signal, after it has been held off for so many ns (R415, R417). -/
  | clockOut (output held : Nat) (signal : ClockSignal)
  /-- The twin heartbeat output, one of two pins by the waybill role, begins to toggle, or goes low (R306). -/
  | alive (pin : AlivePin) (on : Bool)
  /-- Test access port data (R437). -/
  | tap (data : Nat)
  /-- A PCI Express link power request: true asks for L1 with substates, false for L0 (R29). -/
  | linkL1 (on : Bool)
  /-- A twin frame whose payload the spec gives no layout, on a lane: the fields of its header, and the fold block of its check (R303,
  R311 to R315). -/
  | twin (port type_ seq ack : Nat) (fold : List Byte) (msg : TwinMsg)
  /-- A PREPARE of `KIND` 1 on a trunk port (R342), whose image the spec gives no layout. -/
  | timing (port seq : Nat) (frame : TrunkFrame)
  deriving DecidableEq, Repr

/-- An output region of the canvas and its crews (R64). -/
structure Region where
  x : Nat
  y : Nat
  w : Nat
  h : Nat
  crews : Nat
  deriving DecidableEq, Repr

/-- An entry of the RINGS section (R66). -/
structure RingDef where
  first : Nat
  count : Nat
  cls : Nat
  maxLog : Nat
  deriving DecidableEq, Repr

/-- A memory partition, base and size in 2 MiB units (R67). -/
structure Part where
  base : Nat
  size : Nat
  kind : Nat
  deriving DecidableEq, Repr

/-- An entry of the BELLBOARD section (R69). -/
structure Route where
  first : Nat
  count : Nat
  target : Nat
  fast : Bool
  deriving DecidableEq, Repr

/-- What a loaded waybill fixes (Table 3.1); the values of an unloaded one are not used. -/
structure Waybill where
  loaded : Bool := false
  serial : Nat := 0
  clock : Nat := 0
  white : Nat := 0
  seed : Nat := 0
  stage : Nat := 0
  /-- BLOCKS bits: BLT, TLY, PRT, STL, TWN, TRK, DBG from bit 0. -/
  blocks : Nat := 0
  /-- The 128 PORTS entries: role in [2:0], `PAIR` [3], polarity [5:4]. -/
  ports : List Nat := []
  canvasW : Nat := 0
  canvasH : Nat := 0
  regions : List Region := []
  rings : List RingDef := []
  parts : List Part := []
  routes : List Route := []
  /-- 0 standalone, 1 steward, 2 lodger. -/
  hierarchy : Nat := 0
  lodger : Nat := 0
  /-- 0 none, 1 primary, 2 secondary. -/
  twin : Nat := 0
  /-- 0 both-live, 1 one-live. -/
  twinMode : Nat := 0
  digest : List Byte := []
  pairDigest : List Byte := []
  deriving DecidableEq, Repr

/-- The fuses of Table 19.2. The values at reset are those of the modelled unit (DESIGN CHOICE, log 6): grade 5T,
not sealed, key hash not programmed, serial number 0, service key hash zero. -/
structure Fuses where
  sealed : Bool := false
  /-- Waybill key hash, 48 bytes; all zeros where not programmed (R426). -/
  keyHash : List Byte := List.replicate 48 0
  hashFused : Bool := false
  serviceHash : List Byte := List.replicate 48 0
  serial : Nat := 0
  speed : Nat := 5
  temp : Nat := 1
  idcode : Nat := 0x03812BA7
  deriving DecidableEq, Repr

/-- The resets of Table 20.2, widest first. -/
inductive ResetKind where
  | cold | warm | functionLevel | software
  deriving DecidableEq, Repr

/-- Where a waybill load takes its image from (R76). -/
inductive LoadSource where
  | slotA | slotB | host (address : Nat)
  deriving DecidableEq, Repr

/-- The boot sequence (R457 to R461) and the load in progress (R77). -/
structure Boot where
  /-- Released blocks of the reset window (R457). -/
  cal : Bool := false
  ckg : Bool := false
  mem : Bool := false
  wbl : Bool := false
  /-- The reset whose sequence has not ended; none once WBL is released. -/
  inReset : Option ResetKind := some .cold
  /-- A function-level or software reset is in its flush phase (R456). -/
  flush : Bool := false
  /-- HBM3E training has ended and the clear of a cold boot has still to end (R461). -/
  trained : Bool := false
  /-- `BOOTSEL[2:0]` as the pins stand (R459). -/
  bootsel : Nat := 0
  /-- The source of the load in progress. -/
  load : Option LoadSource := none
  /-- The waybill copy in reserved memory: what has been copied of the image (R77). -/
  copy : List Byte := []
  /-- The source of the last load that completed, for the reload after Rest (R80). -/
  lastSource : Option LoadSource := none
  /-- The return from Rest is under way: the items of Table 19.8 are restored when the waybill has loaded. -/
  fromRest : Bool := false
  /-- Discovery data of the flash could be read (R460), and the flash size it gives. -/
  flashOk : Bool := true
  flashSize : Nat := 0x2000000
  /-- The trim page in force: the 4 KiB that the last reading found valid, or none for built-in values (R463). -/
  trim : Option (List Byte) := none
  /-- `CAL_STATUS.CAUSE` of the last reading; 0 none. -/
  trimCause : Nat := 0
  /-- An erase or program of the trim sector was interrupted (R466). -/
  trimTorn : Bool := false
  /-- The flash command under way: operation, flash offset, length and device address (R464). -/
  flashJob : Option (Nat × Nat × Nat × Nat) := none
  /-- The sensor offsets in force, in 0.125 °C (Table 20.8, R463). -/
  toff : List Int := []
  deriving DecidableEq, Repr

/-- A power transition that has been accepted and has not begun (R443, R445). -/
inductive PowerReq where
  | none | doze | rest | run
  deriving DecidableEq, Repr

/-- What fuse programming is under way (R427). -/
inductive FuseJob where
  | none | sealed | keyHash (hash : List Byte)
  deriving DecidableEq, Repr

/-- Security, debug and power state beside the SDP registers. -/
structure Sdp where
  /-- 0 Open, 1 Sealed, 2 Service (R425). -/
  sec : Nat := 0
  unlockFails : Nat := 0
  nonceValid : Bool := false
  sealPending : Bool := false
  fuseJob : FuseJob := .none
  /-- The stage key words as written, and which have been written since cold reset (R428). -/
  stageKey : List Word := List.replicate 8 0
  keyWritten : Nat := 0
  /-- The unlock of R432 is clearing memory. -/
  unlocking : Bool := false
  /-- 0 Run, 1 Lull, 2 Doze, 3 Rest (R438). -/
  power : Nat := 0
  request : PowerReq := .none
  /-- A return to Run is under way (`TRANSIT`). -/
  waking : Bool := false
  /-- The SMBus ALERT bits (Table 2.17). -/
  alert : Nat := 0
  /-- A thermal trip holds `FAULT_N` low (R449). -/
  tripHold : Bool := false
  /-- The always-on timer counts down (R448). -/
  timerRunning : Bool := false
  /-- The audit log: entries written since cold reset, and the last 1,048,576 of them, newest first (R430). -/
  auditSeq : Nat := 0
  audit : List (List Nat) := []
  /-- `FAULT_N` was low after the last command. -/
  faultWas : Bool := false
  /-- Wake latches that set in Rest, whose sources rise when the Bellboard runs again (R406). -/
  restLatches : List Nat := []
  /-- The Doze hold cause of the Coach ports (R443), and the stroke at whose tick it ends (R444). -/
  dozeHold : Bool := false
  dozeUntil : Option Nat := none
  /-- Service life, in units of 2^-64 ms: equivalent time; and operating time in ms (R300). -/
  lifeEquiv : Nat := 0
  lifeMs : Nat := 0
  deriving DecidableEq, Repr

/-- A pending source: its count and since when it pends (R395, R402). -/
structure BelPend where
  source : Nat
  count : Nat
  since : Nat
  deriving DecidableEq, Repr

/-- What an entry of a service stack holds (R398, R399). -/
inductive BelEntry where
  | claimed (source count : Nat) (gone : Bool)
  | bits (acked : List Nat)
  deriving DecidableEq, Repr

/-- One class of one target (R397 to R402). -/
structure BelClass where
  entry : Option BelEntry := none
  armed : Bool := true
  /-- Time of the class's previous message; none before the first. -/
  tLast : Option Nat := none
  /-- Doorbell messages for its sources since then. -/
  n : Nat := 0
  deriving DecidableEq, Repr

/-- Bellboard state beside its registers: pending sources, the asserted levels, and the classes (source 0x7FFF of
target `t` pends as number 0x8000 + `t`, since it can pend on several targets at once; normal class of target `t` at key `t`, fast class at `64 + t`). -/
structure Bel where
  pend : List BelPend := []
  levels : List Nat := []
  classes : Tab BelClass := []
  deriving DecidableEq, Repr

/-- A command of a ring that its consumer has read: first index, number of entries, and whether it has completed. -/
structure RingCmd where
  index : Nat
  entries : Nat
  done : Bool
  deriving DecidableEq, Repr

/-- Ring state beside the ring registers: commands read and not yet passed by `RETIRE` in ring order (R382), and the
consumer register that bound the ring (R381). -/
structure RingSt where
  open_ : List RingCmd := []
  bound : Option Nat := none
  deriving DecidableEq, Repr

/-- Debug window state beside its registers. -/
structure Dbg where
  /-- What a snapshot captured: the register table at the capture (R434). -/
  snap : Option (Tab Word) := none
  /-- A debug read under way: space, unit and address (R436). -/
  read : Option (Nat × Nat × Nat) := none
  deriving DecidableEq, Repr

/-- The test access port's instruction (R437). -/
inductive Tap where
  | bypass | idcode | samplePreload | extest | dbgacc
  deriving DecidableEq, Repr

/-- An error-log entry to be numbered and written (Table 12.5). -/
structure LogEntry where
  kind : Nat
  outcome : Nat
  unavailable : Bool := false
  escaped : Bool := false
  unit_ : Nat := 0
  stroke : Nat := 0
  region : Nat := 0
  parcel : Nat := 0
  addr : Nat := 0
  pcv : Nat := 0
  deriving DecidableEq, Repr

/-- What STK captured at a latch point for one stroke: the show offsets and `STK_OUT` (R90, R91). -/
structure StkCapture where
  stroke : Nat
  show_ : List Nat
  out : Nat
  deriving DecidableEq, Repr

/-- A complete LTC record (R99). -/
structure LtcRecord where
  word0 : Nat := 0
  word1 : Nat := 0
  stroke : Nat := 0
  offset : Nat := 0
  rate : Nat := 0
  reverse : Bool := false
  valid : Bool := false
  deriving DecidableEq, Repr

/-- The stroke timer beside its registers. Stroke-clock times are exact rationals in ns (R83, R96). -/
structure Stk where
  /-- 0 STOPPED, 1 RUNNING, 2 PENDING, 3 REFRAMING. -/
  timing : Nat := 0
  /-- 0 FREE, 1 ACQUIRE, 2 LOCKED, 3 HOLDOVER. -/
  lock : Nat := 0
  aligned : Bool := false
  good : Nat := 0
  /-- `f` and `r` of R96 in units of 2^-40. -/
  f : Int := 0
  r : Int := 0
  /-- HOLDOVER was entered through `ACQ_LIMIT` (R103). -/
  viaAcq : Bool := false
  /-- Camera-frame boundaries since ACQUIRE began. -/
  acqFrames : Nat := 0
  /-- Sync frames since the last reference instant of source SYNC (R95), and the stroke-clock time of the last reference
  instant, or of the place of one that was missing (R96). -/
  syncFrames : Nat := 0
  lastRef : Rat := 0
  stroke : Nat := 0
  phase : Nat := 0
  cframe : Nat := 0
  /-- Ticks are placed: a REFRAME has taken effect since the timing was last STOPPED. -/
  running : Bool := false
  /-- `B₀` of the run, moved by every lengthening (R83, R96), and the number of the present camera frame's boundary. -/
  b0 : Rat := 0
  frame : Int := 0
  /-- The latch point of the next stroke has passed. -/
  latched : Bool := false
  /-- The stroke clock read `scBase` at time `nowBase`; since then it runs at (1 + r). -/
  scBase : Rat := 0
  nowBase : Nat := 0
  /-- Time of day in units of 2^-40 ns (R94). -/
  tod : Nat := 0
  ltc : LtcRecord := {}
  /-- The strokes that began last and when, newest first, for the place of an LTC frame. -/
  ticks : List (Nat × Nat) := []
  captures : List StkCapture := []
  /-- An accepted REFRAME's `B₀` (R102). -/
  reframe : Option Rat := none
  /-- The number that a mirrored REFRAME, or one of the hierarchy, gives its first stroke (R311, R314, R342). -/
  given : Option Nat := none
  /-- The number is that of a join, before whose boundary the strokes of this device and of the one above it differ (R342). -/
  joins : Bool := false
  /-- The first stroke of the new timing, and `tᵣ` once its latch point has passed (R103). -/
  s1 : Nat := 0
  tr : Option Nat := none
  deriving DecidableEq, Repr

/-- Where a parcel stands: not started, in progress, in progress with a ladder open on a block that it reads, composed
with a PCV that did not agree, sealed, unrecoverable, given up (R157, R277, R286). -/
inductive ParcelSt where
  | waiting | running | stalled | sealFailed | sealed | unrecoverable | abandoned
  deriving DecidableEq, Repr

/-- A parcel of a dealt stroke (R153 to R155). -/
structure Parcel where
  region : Nat
  number : Nat
  stack : Nat
  x : Nat
  y : Nat
  w : Nat
  h : Nat
  /-- The porter it was dealt to, and the porter that has it now. -/
  dealt : Nat
  porter : Nat
  lifted : Bool := false
  st : ParcelSt := .waiting
  /-- Its sealed PCV. -/
  pcv : Nat := 0
  /-- It composes in fused form because a settled read could not be cured (Table 12.2). -/
  fused : Bool := false
  /-- Segments of it that went out under its present seal (R293), and whether a port has needed it in vain (R219). -/
  began : Nat := 0
  missed : Bool := false
  /-- The partner's PCV (R317). -/
  theirs : Option Nat := none
  /-- Its own recompositions for the twin, and the partner's, by step (R318). -/
  redo : List Nat := []
  redoTheirs : List Nat := []
  /-- The pixels of its own last recomposition for the twin (R318). -/
  redoPixels : List (List Byte) := []
  /-- The twin comparison of it is over: agreed, or diverged. -/
  agreed : Bool := false
  diverged : Bool := false
  /-- A porter has composed it (R169, R191), and its spot audit has been asked for (R292). -/
  composed : Bool := false
  audit : Bool := false
  deriving DecidableEq, Repr

/-- A dealt stroke: the version it was dealt with (R114, R214), its parcels, and what its settled stacks read and write (R189). -/
structure StrokeRun where
  stroke : Nat
  /-- The stroke number that it was composed with: its own, but for a stroke replayed in Lull (R441). -/
  composedAs : Nat
  phase : Nat
  racing : Bool
  lead : Nat
  version : Tab Word
  parcels : List Parcel
  /-- The stacks that this stroke composes in fused form. -/
  fused : List Nat
  /-- The settled copy that each settled stack reads. -/
  reads : List (Nat × Nat)
  /-- The settled copy that this stroke writes as the writer of a stack. -/
  writes : List (Nat × Nat)
  /-- The plate rings and frames that this stroke reads. -/
  plates : List (Nat × Nat)
  /-- Regions whose lateness has been recorded (R169). -/
  late : List Nat := []
  withdrawn : Bool := false
  abandoned : Bool := false
  /-- The stroke is a writer that has composed every parcel (R191). -/
  written : Bool := false
  /-- The twin comparison of the stroke is over (R319). -/
  compared : Bool := false
  /-- The composition of the stroke has agreed, counted toward `JOIN_STROKES` (R317). -/
  agreed : Bool := false
  /-- Damaged words of the version: offsets of the live copies that it kept (Table 12.4). -/
  lost : List Nat := []
  deriving DecidableEq, Repr

/-- Why DEP asks a porter to compose a parcel again (R286, R292, R293, R318). -/
inductive JobKind where
  /-- A seal failure's first and second recomposition (Table 12.2). -/
  | seal1 | seal2
  /-- A packer's recomposition after a block that stayed bad (Table 12.2). -/
  | packer
  /-- A PCV record that could not be read (R291). -/
  | record
  | audit
  /-- The tie-break of an audit whose PCV was `audit`. -/
  | tieBreak (audit : Nat)
  /-- The recompositions of a twin mismatch (R318). -/
  | twin1 | twin2
  deriving DecidableEq, Repr

/-- A recomposition or audit: in a porter's priority entry, or in DEP's queue where it has no porter (R290). -/
structure Job where
  kind : JobKind
  stroke : Nat
  region : Nat
  number : Nat
  porter : Option Nat
  started : Bool := false
  stalled : Bool := false
  /-- The unit of the log entry of the failure behind it (Table 12.5). -/
  unit_ : Nat := 0
  /-- The block whose check failed at a packer: whether it lies in staging, and its number there or in software memory. -/
  block : Option (Bool × Nat) := none
  deriving DecidableEq, Repr

/-- An open fault ladder on a block (Table 12.2). `kind` is that of its log entry (Table 12.5). -/
structure Ladder where
  kind : Nat
  unit_ : Nat
  block : Nat
  stroke : Nat := 0
  region : Nat := 0
  parcel : Nat := 0
  /-- The block lies in output staging (R279). -/
  staging : Bool := false
  /-- The reader is a recomposition. -/
  job : Bool := false
  /-- The re-read has failed and the twin repair is under way (R287). -/
  twin : Bool := false
  /-- The reader is no porter or packer: the blitter (0) or tally unit u (1 + u) (R281). -/
  reader : Option Nat := none
  /-- What read the block is gone or over: the ladder goes on for the block alone. -/
  orphan : Bool := false
  deriving DecidableEq, Repr

/-- Porter and dispatcher state beside the PRT registers. -/
structure Prt where
  /-- The strokes that have been dealt and are not finished, oldest first. -/
  strokes : List StrokeRun := []
  jobs : List Job := []
  /-- Porters that have lifted and not yet started a parcel. -/
  lifting : List Nat := []
  /-- The last stroke dealt, its parcels, and the latest stroke done (R172). -/
  dealStroke : Nat := 0
  dealCount : Nat := 0
  doneStroke : Nat := 0
  /-- Busy porter-clocks of the stroke in progress and of those before it, newest first. -/
  busy : List Nat := [0]
  /-- Damaged words of the live control stores: register offsets (R295, R296). -/
  lost : List Nat := []
  /-- Shadow words that read 0 because they are uncorrectable, until they are written: register offsets (R295, Table 12.4). -/
  badShadow : List Nat := []
  deriving DecidableEq, Repr

/-- A sequenced twin frame that has not been acknowledged (R304). -/
structure SentTwin where
  seq : Nat
  msg : TwinMsg
  /-- The session value that its check folds: the one under which it was first sent. -/
  session : List Byte
  resends : Nat := 0
  deriving DecidableEq, Repr

/-- The lane of a Coach port below its frames (R201, R202): data bytes that no codeword has taken, the place among them of the
first frame that begins there, the number of the next codeword, and the state of the scrambler. -/
structure Lane where
  fill : List Byte := []
  mark : Option Nat := none
  seq : Nat := 0
  scrambler : Nat := 0
  deriving DecidableEq, Repr

/-- The codewords of a twin or trunk lane (R201, R202, R302): the one that fills, and when what waits on the lane has left, in ns of the
model's time. -/
structure LinkCodes where
  lane : Lane := {}
  until_ : Rat := -1
  deriving DecidableEq, Repr

/-- Twin link and pairing state beside the TWN registers. -/
structure Twn where
  /-- The next sequenced frame to send, the next to take, those that came early (none: one whose strip failed, R372), and
  those without `ACK` (R304). -/
  txSeq : Nat := 0
  rxNext : Nat := 0
  held : List (Nat × Option TwinMsg) := []
  sent : List SentTwin := []
  /-- The session value that every check folds (R303). -/
  session : List Byte := List.replicate 8 0
  /-- State of the lane of each twin port: 0 DOWN, 1 TRAIN, 2 ALIGNED. -/
  lanes : Tab Nat := []
  /-- When each twin port's lane will have sent the frames that wait on it, in ns (R303). -/
  queues : Tab Rat := []
  /-- This device's nonce, and the partner's AUTH payload, of the authentication under way (R309). -/
  nonce : List Byte := []
  theirAuth : Option (List Byte) := none
  /-- SYNC: departure and arrival of the partner's last, in 1/16 ns (R305). -/
  syncRx : Option (Nat × Nat) := none
  /-- The heartbeat output toggles (R306). -/
  serving : Bool := false
  /-- The runs of consecutive strokes that have agreed in JOIN: the first stroke and the length of each (R308, R317). -/
  agreed : List (Nat × Nat) := []
  /-- The device is a standby that keeps the standby hold cause (R321, R322). -/
  standby : Bool := false
  /-- The stroke at whose tick a standby becomes live (R322). -/
  liveAt : Option Nat := none
  /-- The readiness snapshot of the twin cutoff for a latch point: each eligible set with its ready members; the READY of the
  secondary, and the DECISION, for a latch point (R315). -/
  snapshot : Option (Nat × List (Nat × Nat)) := none
  ready : Option (Nat × List Nat) := none
  decision : Option (Nat × List (Bool × Nat)) := none
  /-- PCVs of the partner for parcels that this device has not dealt or sealed: stroke, region, parcel, PCV. -/
  pcvs : List (Nat × Nat × Nat × Nat) := []
  /-- The codewords of each lane (R302). -/
  codes : Tab LinkCodes := []
  deriving DecidableEq, Repr

/-- A sequenced trunk frame that has not been acknowledged (R327). -/
structure SentTrunk where
  seq : Nat
  frame : TrunkFrame
  session : List Byte
  resends : Nat := 0
  deriving DecidableEq, Repr

/-- A trunk lane beside its registers (R327, R328). -/
structure TrkLane where
  /-- 0 DOWN, 1 TRAIN, 2 ALIGNED, 3 AUTHENTICATED. -/
  state : Nat := 0
  txSeq : Nat := 0
  rxNext : Nat := 0
  /-- Frames that came early: `SEQ`, the frame, `second` of its header, and of a timing image the value of link mode that came with it where
  that does not agree. -/
  held : List (Nat × TrunkFrame × Bool × Option Nat) := []
  sent : List SentTrunk := []
  session : List Byte := List.replicate 8 0
  nonce : List Byte := []
  /-- The depth that this device advertised; 0xFF unjoined. -/
  depth : Nat := 0xFF
  theirAuth : Option (List Byte) := none
  syncRx : Option (Nat × Nat) := none
  /-- One-way delay in 1/16 ns (R331). -/
  delay : Nat := 0
  /-- No passing frame came for `TRK_LOSS.US` while it was the active uplink (R329). -/
  silent : Bool := false
  /-- It has given way to the other uplink so, since its authentication (R329). -/
  demoted : Bool := false
  deriving DecidableEq, Repr

/-- A trunk set, or a REFRAME for the lodgers, of the originator (R334 to R340, R342). Devices are lodger index and whether
they act as the secondary of their pair. -/
structure TrunkSet where
  number : Nat
  /-- Ring and index of the TSET; none for a REFRAME. -/
  ring : Option (Nat × Nat)
  target : Nat
  deadline : Nat := 0
  af : Option (Nat × Nat) := none
  rf : Option (Nat × Nat) := none
  tag : Nat := 0
  /-- Lodger index, and for each FLIP member whether it waits; no FLIP for other members. -/
  groups : List (Nat × List (Option Bool)) := []
  /-- Verdicts of PREPARED: device and status. -/
  answers : List ((Nat × Bool) × Nat) := []
  /-- 0 prepared, 1 committed, 2 decided to apply at a latch point, 3 applied, 4 complete and to be released. -/
  phase : Nat := 0
  /-- READYs for a latch point: latch point, device, ready mask and `BAD`. -/
  ready : List (Nat × (Nat × Bool) × Nat × Bool) := []
  latch : Nat := 0
  heldAny : Bool := false
  /-- Devices that have sent APPLIED, each with `MARK_LOST`, and RELEASED. -/
  applied : List ((Nat × Bool) × Bool) := []
  released : List (Nat × Bool) := []
  /-- What a DECISION has decided for a latch point: 0 apply, 1 defer, 2 drop. -/
  decided : Option (Nat × Nat) := none
  deriving DecidableEq, Repr

/-- A group of a trunk set that a lodger receives in parts, or an image of a REFRAME that it holds prepared (R336, R337, R342). -/
structure TrunkGroup where
  number : Nat
  target : Nat
  parts : Nat
  got : List (Nat × List (List Nat))
  deriving DecidableEq, Repr

/-- Trunk state beside the TRK registers. -/
structure Trk where
  lanes : Tab TrkLane := []
  /-- The active uplink, and the depth and lodger index of the device that the uplinks of a JOINED lodger lead to (R329). -/
  active : Option Nat := none
  upper : Option (Nat × Nat) := none
  /-- The time from the latest tick to the departure of its TICK, in 1/16 ns, as far as the tick's own command tells it (R332). -/
  departure : Nat := 0
  /-- The originator's sequence of down frames and of sets (R330, R335), and the down sequence numbers that have come. -/
  sseq : Nat := 0
  nextSet : Nat := 0
  seen : List Nat := []
  /-- Devices of the roster: lodger index, and acting secondary (R345). -/
  roster : List (Nat × Bool) := []
  sets : List TrunkSet := []
  /-- Down frames that wait until the twin has acknowledged the MIRROR frame that carries them (R330). -/
  waiting : List (Nat × TrunkFrame) := []
  groups : List TrunkGroup := []
  /-- The image of a REFRAME that this lodger holds prepared (R342): set number and timing registers. -/
  image : Option (Nat × List Nat) := none
  /-- The latest latch point for which a DECISION has come (R339). -/
  decisionFor : Option Nat := none
  /-- The readiness snapshot of a lodger for a latch point: set number and ready mask (R338). -/
  snapshot : Option (Nat × List (Nat × Nat)) := none
  /-- The codewords of each lane (R302, R326). -/
  codes : Tab LinkCodes := []
  deriving DecidableEq, Repr

/-- Where a queued set came from: a SUBMIT ring entry of this device, the partner's ring, or a trunk group (R313, R337). -/
inductive SetOrigin where
  | own (ring index : Nat)
  | mirrored (ring index : Nat)
  | trunk (set : Nat)
  deriving DecidableEq, Repr

/-- Space reserved or allocated for the two copies of a settled surface, in 2 MiB units (R189). -/
structure SettledCopies where
  stack : Nat
  base0 : Nat
  base1 : Nat
  size : Nat
  deriving DecidableEq, Repr

/-- A queued flip set (R180, R182). -/
structure QSet where
  id : Nat
  origin : SetOrigin
  target : Nat
  deadline : Nat
  afEn : Bool
  afIdx : Nat
  afVal : Nat
  tag : Nat
  members : List Member
  /-- The twin frame that carries it; until its `ACK` comes the set does not count as read (R313). -/
  ack : Option Nat := none
  /-- The set has deferred while timing was STOPPED (R184). -/
  deferred : Bool := false
  /-- The stacks that it changes below their settle line, and the space reserved for them (R188, R189). -/
  changes : List Nat := []
  reserved : List SettledCopies := []
  /-- A trunk set that was queued when its device left JOINED: it stays queued, and does not apply (R183, Table 14.3). -/
  missed : Bool := false
  deriving DecidableEq, Repr

/-- A FENCE_WAIT that holds its ring (R178, R179). -/
structure FenceWaitSt where
  ring : Nat
  index : Nat
  idx : Nat
  val : Nat
  limit : Nat
  ticks : Nat := 0
  mirrored : Bool := false
  /-- The fence satisfied `VAL` before `LIMIT` ticks had passed. -/
  met : Bool := false
  deriving DecidableEq, Repr

/-- A displaced buffer (R186): the last stroke dealt with it (none: no stroke used it), and its release fence. -/
structure Displaced where
  last : Option Nat
  relEn : Bool
  relIdx : Nat
  relVal : Nat
  /-- The trunk set whose release it belongs to (R340). -/
  trunk : Option Nat := none
  /-- The layer that held it, and its address. -/
  layer : Nat := 0
  buf : Nat := 0
  deriving DecidableEq, Repr

/-- An accepted settled change's window of latch points (R190). -/
structure FusedWindow where
  stack : Nat
  first : Nat
  last : Nat
  /-- The set that holds the change; its windows go with it if it does not apply. -/
  set : Nat
  deriving DecidableEq, Repr

/-- A flip set that the acting primary of a pair has judged and mirrored, and that does not count as read before `ACK` covers its frame
(R313): its ring, entries and tag, the frame's number, the status that it completes with or the set to queue, and the
failing admission test. -/
structure SetRead where
  ring : Nat
  entries : Nat
  tag : Nat
  seq : Option Nat
  status : Nat
  set : Option QSet
  fail : Option (Nat × Nat × Nat × Nat)
  deriving DecidableEq, Repr

/-- Flip and fence unit state beside its registers. -/
structure Flp where
  queue : List QSet := []
  /-- Groups of trunk sets that this lodger holds prepared (R337). -/
  prepared : List QSet := []
  /-- Sets that wait for the twin's `ACK` to count as read (R313). -/
  reading : List SetRead := []
  nextId : Nat := 0
  waits : List FenceWaitSt := []
  /-- FLP is full, and waits with the set at the front of this ring (R181). -/
  full : Option Nat := none
  displaced : List Displaced := []
  windows : List FusedWindow := []
  /-- Changes applied at latch points whose strokes are still on the way: the latch point and the version before (R163). -/
  recent : List (Nat × Tab Word) := []
  /-- The last stroke dealt with each layer's present buffer: layer and stroke. -/
  used : List (Nat × Nat) := []
  /-- The latest latch point at which a set applied. -/
  last : Nat := 0
  /-- Sets applied so far. -/
  applications : Nat := 0
  /-- The latest latch point at which something applied that R440 watches. -/
  stirred : Option Nat := none
  /-- What is decided for the trunk sets at a latch point: set, latch point, 0 apply, 1 defer or 2 drop, and the members
  held (R338). -/
  decided : List (Nat × Nat × Nat × Nat) := []
  /-- What became of trunk sets, for the originator: set, status, latch point and held members (R340). -/
  applied : List (Nat × Nat × Nat × Nat) := []
  /-- Trunk sets whose displaced buffers are not all free (R340). -/
  unreleased : List Nat := []
  deriving DecidableEq, Repr

/-- A settled stack (R189): its copies, the copy in use, a change that waits for its writer, and the fused strokes. -/
structure Settled where
  stack : Nat
  copies : SettledCopies
  /-- The copy in use; before the first writer, the second, so that the first copy is written first (log 40). -/
  copy : Nat := 1
  /-- A copy holds a finished or started settled surface that strokes may read. -/
  filled : Bool := false
  /-- A settled change has applied and its writer has not been dealt. -/
  pending : Bool := false
  /-- The latch point of the writer and the number of latch points of fused form, while they last. -/
  fusing : Option (Nat × Nat) := none
  deriving DecidableEq, Repr

/-- A plate ring beside its registers (R192 to R198). -/
structure Plate where
  play : Nat := 0
  write : Nat := 0
  mark : Nat := 0
  markValid : Bool := false
  run : Bool := false
  /-- A MARK of the present latch point takes `PLAY` as it is after the capture (R195). -/
  markLate : Bool := false
  /-- Phase 0 latch points since `PLAY` last advanced (R194). -/
  div : Nat := 0
  /-- Frames that strokes have read, each with the last such stroke. -/
  reads : List (Nat × Nat) := []
  /-- `WRITE` stood on a frame in use after its last advance. -/
  full : Bool := false
  deriving DecidableEq, Repr

/-- Settled cache and plate ring state. -/
structure Stl where
  settled : List Settled := []
  /-- Copies given up, which stay allocated until their last reader has finished: the stroke. -/
  leaving : List (SettledCopies × Option Nat) := []
  plates : Tab Plate := []
  /-- The layers with `PLATE` set, each with the frame that it holds, and whether it keeps that frame since its ring was
  disabled (R198). -/
  frames : List (Nat × Nat × Bool) := []
  deriving DecidableEq, Repr

/-- A Coach port beside its registers. -/
structure Coach where
  /-- 0 DOWN, 1 TRAIN, 2 RUN, 3 HOLD (Table 9.10). -/
  state : Nat := 0
  /-- Target latch point of the pending commit; none with `NEXT` (R214). -/
  target : Option Nat := none
  pending : Bool := false
  /-- The stroke that the port sends, or will send next, and where it stands in it: stop, and how many of
  the pixels that it carries for the stop have gone out. -/
  next : Nat := 0
  begun : Bool := false
  stop : Nat := 0
  at_ : Nat := 0
  /-- Frame number. -/
  seq : Nat := 0
  /-- Stop and value of the last pixel sent in the stroke: its three fields (R219). -/
  last : Option (Nat × Nat × Nat × Nat) := none
  /-- Witnesses that name the port in the stroke, as they stood when it began: number, position, size and expected value;
  the covered bytes that it has sent: witness, line, pixel and bytes; and the witnesses with a skipped or repeated pixel (R227). -/
  wits : List (Nat × Nat × Nat × Nat) := []
  seen : List (Nat × Nat × Nat × List Byte) := []
  holed : List Nat := []
  /-- Parcels of the stroke that have counted as unavailable: region and number (R219). -/
  missed : List (Nat × Nat) := []
  /-- Withdrawn strokes that are still to be skipped (R218), and where the first stands. -/
  withdrawn : List Nat := []
  skipStop : Nat := 0
  skipAt : Nat := 0
  /-- The stroke whose marker waits (R213). -/
  marker : Option Nat := none
  /-- Stops that await a CONFIG frame, each with the stroke that it governs (R212). -/
  configs : List (Nat × Nat) := []
  /-- A HOLD frame is due at the next frame boundary (R217). -/
  holdDue : Bool := false
  /-- The codewords of the lane (R201, R202). -/
  lane : Lane := {}
  /-- Transmit equaliser in force: it is taken at TRAIN. -/
  tx : Nat := 0
  deriving DecidableEq, Repr

/-- An entry of a return-line controller's command queue (R238): an ASSIGN, a RELEASE, an ACCESS or a CHALLENGE. The ring
and the index are those of the host command that asked for it; none for the controller's own. -/
structure LineJob where
  /-- 0 ASSIGN, 1 RELEASE, 2 ACCESS, 3 CHALLENGE. -/
  kind : Nat
  ring : Option (Nat × Nat) := none
  laddr : Nat := 0
  id : Nat := 0
  chain : Nat := 0
  seed : Nat := 0
  nonce : Nat := 0
  tag : Nat := 0
  write : Bool := false
  reg : Nat := 0
  count : Nat := 0
  data : List Byte := []
  /-- ASSIGN frames sent so far (R244). -/
  tries : Nat := 0
  deriving DecidableEq, Repr

/-- What the opening frame of the present slot was (R235, R237). -/
inductive LineSlot where
  | none
  | poll (addr : Nat)
  | contention
  | command (job : LineJob)
  /-- The RELEASE to every stop of R242, or the RELEASE after four unanswered ASSIGNs (R244). -/
  | releaseAll
  deriving DecidableEq, Repr

/-- An enrolled stop: line address, identity, chain identity and seed (R244). -/
structure Enrolled where
  laddr : Nat
  id : Nat
  chain : Nat
  seed : Nat
  deriving DecidableEq, Repr

/-- A return-line controller beside its registers. -/
structure Rlc where
  run : Bool := false
  /-- The next slot is the first since it entered RUN (R242). -/
  first : Bool := false
  /-- The present slot of the round, and the round. -/
  slot : Nat := 15
  round : Nat := 0
  present : LineSlot := .none
  /-- A frame has been taken in the present slot. -/
  answered : Bool := false
  queue : List LineJob := []
  /-- ASSIGNs that four tries have left without ACK (R244). -/
  unanswered : List LineJob := []
  enrolled : List Enrolled := []
  /-- Line addresses with the `ASEQ` of the last alarm accepted from each, enrolled still or not (R241). -/
  alarms : List (Nat × Nat) := []
  /-- Stranger entries 0 to 15: entry, identity and the slot of its last HELLO, slots counted over all rounds (R246). -/
  strangers : List (Nat × Nat × Nat) := []
  /-- Identities that have been challenged within 256 rounds, each with the slot of its last CHALLENGE (R246). -/
  challenged : List (Nat × Nat) := []
  /-- The address polled last. -/
  polled : Nat := 255
  /-- Outcome of the last contention slot: `LAST_ADDR`, `LAST_OUT` and `LAST_ID` (R239). -/
  lastAddr : Nat := 0
  lastOut : Nat := 0
  lastId : Nat := 0
  /-- The receive FIFO, oldest first, and the word read last (R252). -/
  fifo : List Nat := []
  lastWord : Nat := 0
  deriving DecidableEq, Repr

/-- The open frame of a stream context (R266 to R269): its number, where it lands, whether it is dropped whole, the pixels
that have come (runs of pixel numbers in raster order, rising and apart), and for YCbCr the pixel pairs as they came. -/
structure OpenFrame where
  rtp : Nat
  ssrc : Nat
  f : Nat
  base : Nat
  dropped : Bool
  runs : List (Nat × Nat) := []
  pairs : Tab Nat := []
  deriving DecidableEq, Repr

/-- A closed frame whose pixels are on their way to memory (R268). -/
structure Landing where
  f : Nat
  rtp : Nat
  ssrc : Nat
  deriving DecidableEq, Repr

/-- A stream context beside its registers. -/
structure Ctx where
  /-- 0 OFF, 1 IDLE, 2 ACTIVE, 3 LOST (Table 11.4). -/
  state : Nat := 0
  frame : Option OpenFrame := none
  /-- RTP timestamp of the last frame, open or closed, and those of all frames that have closed (R266). -/
  lastRtp : Option Nat := none
  closed : List Nat := []
  /-- The `EN` of its plate ring has been cleared while the context is enabled (R269). -/
  cut : Bool := false
  landing : List Landing := []
  /-- SSRC of the last landed frame (R271). -/
  lastSsrc : Option Nat := none
  /-- The highest sequence number, and those of the merge window that have come: number, by path 0, by path 1 (R270). -/
  top : Option Nat := none
  seqs : List (Nat × Bool × Bool) := []
  /-- The packets in its receive buffer, oldest first: the path of each, and its UDP payload (R24, R274). -/
  rx : List (Nat × List Byte × Ecc) := []
  deriving DecidableEq, Repr

/-- A slow-path entry that the port has read and not completed (R258). -/
structure SlowEntry where
  ring : Nat
  index : Nat
  buf : Nat
  tag : Nat
  stamp : Bool := false
  deriving DecidableEq, Repr

/-- A Stream port beside its registers. -/
structure Sip where
  /-- 0 DOWN, 1 TRAIN, 2 UP. -/
  state : Nat := 0
  /-- The ability that the latest training advertised: true for CR1, false for KR1 (R255). -/
  cr1 : Bool := false
  posted : List SlowEntry := []
  sending : List SlowEntry := []
  /-- The timestamp FIFO, oldest first, and the entry read last: tag, seconds, nanoseconds (R260). -/
  stamps : List (Nat × Nat × Nat) := []
  lastStamp : Option (Nat × Nat × Nat) := none
  deriving DecidableEq, Repr


/-- A blit descriptor that the blitter has read and not started: its ring, index and words (R347, R350). -/
structure BlitHead where
  ring : Nat
  index : Nat
  words : List Nat
  deriving DecidableEq, Repr

/-- The blit in progress (R350 to R356). -/
structure BlitRun where
  head : BlitHead
  /-- It uses the bounce buffer, and the fill of it has still to end. -/
  bounced : Bool := false
  filling : Bool := false
  descending : Bool := false
  /-- The bounce buffer: the source elements in raster order, byte by byte, each with whether it came from a damaged block. -/
  buffer : List (List (Byte × Bool)) := []
  /-- The bytes of the destination below this address hold their final content; it is the end of a block (R352). -/
  upTo : Nat := 0
  /-- The rest of an element that lies across that address: it is read once, before any of it is written (R354, R355). -/
  carry : List (Byte × Bool) := []
  /-- Source blocks whose ladders are over: the blit goes on with the bytes as read (R281). -/
  tried : List Nat := []
  marked : Bool := false
  poisoned : Bool := false
  deriving DecidableEq, Repr

/-- Blitter state beside its registers; `rest` counts written bytes that do not yet make a KiB. -/
structure Blt where
  heads : List BlitHead := []
  current : Option BlitRun := none
  last : Nat := 0
  rest : Nat := 0
  deriving DecidableEq, Repr


/-- A scan descriptor that a tally unit has read: its ring, index and words (R365). -/
structure Scan where
  ring : Nat
  index : Nat
  words : List Nat
  deriving DecidableEq, Repr

/-- An entry of a tally unit's result FIFO (R374): the value, and `TLY_RF_INFO`. -/
structure TlyResult where
  value : Nat
  info : Nat
  deriving DecidableEq, Repr

/-- A tally unit beside its registers: scans whose fence is awaited, the scan in progress with the parameters that it took, the
ring served last, and the result FIFO, oldest first, with the entry read last. -/
structure Tly where
  heads : List Scan := []
  current : Option Scan := none
  /-- Parameters in force: width, `POLY`, `INIT`, `REFIN`, `REFOUT`, `XOROUT` (R364). -/
  params : Option (Nat × Nat × Nat × Bool × Bool × Nat) := none
  last : Nat := 0
  /-- Source blocks of the scan whose ladders are over (R281). -/
  tried : List Nat := []
  fifo : List TlyResult := []
  lastRead : TlyResult := ⟨0, 0⟩
  deriving DecidableEq, Repr


/-- The monitor of a reference input: it is lost, and its good windows in a row (R410). -/
structure RefMon where
  lost : Bool := false
  run : Nat := 0
  deriving DecidableEq, Repr

/-- The modulator of a PLL (R412): the LFSR, the dither bit of the cycle before, the three accumulators, and the carries of each in the
last cycles, newest first, as the feedback divider takes them. The accumulators start at 0 (DESIGN CHOICE, log 28). -/
structure Modulator where
  lfsr : Nat := 1
  dither : Nat := 0
  acc1 : Nat := 0
  acc2 : Nat := 0
  acc3 : Nat := 0
  carry1 : Int := 0
  carry2 : Int × Int := (0, 0)
  carry3 : Int × Int × Int := (0, 0, 0)
  deriving DecidableEq, Repr

/-- A PLL beside its registers (R412 to R414): good windows in a row, lock lost and the windows since then, the value of
`_LOCK` that is still in force after a write, and the modulator. -/
structure Pll where
  good : Nat := 0
  lost : Bool := false
  out : Nat := 0
  lock : Option Nat := none
  sigma : Modulator := {}
  deriving DecidableEq, Repr

/-- Clock generator state beside its registers: references A, B and PCI Express by number, and PLLs: SPLL `k` at key `k`, quad
PLL `q` at `4 + q`, the PCI Express PLL at 36. -/
structure Ckg where
  refs : Tab RefMon := []
  plls : Tab Pll := []
  /-- Until when a clock output is held off after a change of its format, in ns of the model's time (R417). -/
  heldOff : Tab Nat := []
  deriving DecidableEq, Repr

/-- The device: everything the block holds but the queue of its commands. -/
structure Dev where
  /-- Time of the model in ns of the STK time base (log 2). -/
  now : Nat := 0
  /-- The counter that free values are applied to (the model's own field, log 9). -/
  free : Nat := 0
  /-- What the last command sent out. -/
  out : List Out := []
  /-- The register file: an offset not listed holds its reset word. -/
  regs : Tab Word := []
  /-- Software memory: an address not listed holds 0 (R461). -/
  mem : Tab Byte := []
  /-- Numbers of the damaged blocks of software memory, rising (R280, R281). -/
  damaged : List Nat := []
  /-- Blocks of software memory in which a bit error has come up that no read has met (log 50): named once, a controller's own next read of it
  fails and its re-read passes; named twice, both fail (R280). -/
  weak : List Nat := []
  /-- The epoch of each crossing that one side may reset alone (R422, Table 18.4), 0 to 3: of a port by its number, of return-line controller
  `c` at 128 + `c`, of the HOST crossing at 160. -/
  epochs : Tab Nat := []
  /-- Host memory: an address not listed holds a free byte (log 8). -/
  hostMem : Tab Byte := []
  /-- The flash: an offset not listed is erased and reads 0xFF. -/
  flash : Tab Byte := []
  /-- Bridge transfers that have failed their check and not arrived: how often in a row each has failed (R16). -/
  bridgeFails : Tab Nat := []
  fuses : Fuses := {}
  wb : Waybill := {}
  boot : Boot := {}
  sdp : Sdp := {}
  bel : Bel := {}
  rings : Tab RingSt := []
  dbg : Dbg := {}
  tap : Tap := .idcode
  /-- The error log, newest entry first, as the eight words of each (R299). -/
  depLogged : List (List Nat) := []
  stk : Stk := {}
  /-- Output staging (32 MiB), as bytes; an offset not listed holds 0. -/
  staging : Tab Byte := []
  prt : Prt := {}
  ladders : List Ladder := []
  /-- Numbers of the damaged blocks of output staging, rising. -/
  stagingDamaged : List Nat := []
  flp : Flp := {}
  stl : Stl := {}
  coaches : Tab Coach := []
  /-- The next block that a scrub pass reads, while one is in progress (R297). -/
  scrub : Option Nat := none
  twn : Twn := {}
  lines : Tab Rlc := []
  sips : Tab Sip := []
  /-- Stream contexts, context `j` of port `p` at key 16 `p` + `j`. -/
  ctxs : Tab Ctx := []
  trk : Trk := {}
  blt : Blt := {}
  /-- The tally units, by number. -/
  tallies : Tab Tly := []
  ckg : Ckg := {}
  deriving DecidableEq, Repr

/-- The state of the block: the queue of waiting commands, first in, first out, and the device. -/
structure State where
  pending : List Instr := []
  dev : Dev := {}
  deriving DecidableEq, Repr

/-- The block right after a cold reset, as `PORST_N` rises (R455, R457, Table 20.6): fuses sensed, every register at
its reset value, memory cleared, no waybill, and an empty queue. -/
def State.reset : State := {}

end Sys2Proof.Machine
end

