-- ==== Sys2Proof/Machine/Ops.lean ====
section
/-! DEFINITION. The named operations over the register file, memory, flash and outputs, which every meaning uses. -/

namespace Sys2Proof.Machine

/-! ### The register file -/

/-- Whether a displacement from a row's base is one of its replicas: each pair (count, stride), outermost first. -/
def dimsCover : List (Nat × Nat) → Nat → Bool
  | [], x => x == 0
  | (n, s) :: ds, x => x / s < n && dimsCover ds (x % s)

/-- Whether a row holds the register at an offset. -/
def RegRow.covers (r : RegRow) (off : Nat) : Bool := r.base ≤ off && dimsCover r.dims (off - r.base)

/-- The row of the register at an offset, if one is there. -/
def rowOf (off : Nat) : Option RegRow := (RegTable.rowsAt off).find? (·.covers off)

/-- The reset word a row's fields give (R7). -/
def RegRow.resetNat (r : RegRow) : Nat := r.fields.foldl (fun a f => a + f.reset * 2 ^ f.lo) 0

/-- The value of a register that the register file does not list: its reset word; 0 where there is no register. -/
def resetWord (off : Nat) : Word :=
  match rowOf off with
  | some r => BitVec.ofNat 32 r.resetNat
  | none => 0

/-- The stored value of a register. -/
def Dev.reg (d : Dev) (off : Nat) : Nat := (d.regs.get resetWord off).toNat

/-- Store a register's value. -/
def Dev.setReg (d : Dev) (off v : Nat) : Dev := { d with regs := d.regs.set resetWord off (BitVec.ofNat 32 v) }

/-- Field [hi:lo] of a number. -/
def Fld.get (f : Fld) (v : Nat) : Nat := bits v f.hi f.lo

/-- A number with field [hi:lo] replaced. -/
def Fld.put (f : Fld) (v x : Nat) : Nat :=
  v - f.get v * 2 ^ f.lo + x % 2 ^ (f.hi + 1 - f.lo) * 2 ^ f.lo

/-- A field of a stored register. -/
def Dev.fld (d : Dev) (off : Nat) (f : Fld) : Nat := f.get (d.reg off)

/-- A one-bit field of a stored register. -/
def Dev.flag (d : Dev) (off : Nat) (f : Fld) : Bool := d.fld off f == 1

/-- Store a field of a register. -/
def Dev.setFld (d : Dev) (off : Nat) (f : Fld) (x : Nat) : Dev := d.setReg off (f.put (d.reg off) x)

/-- Store a number over two registers: bits [31:0] in the first, the rest in the second. -/
def Dev.setPair (d : Dev) (lo hi x : Nat) : Dev := (d.setReg lo (x % 2 ^ 32)).setReg hi (x / 2 ^ 32)

/-- The number that two registers hold, the first the low word. -/
def Dev.pair (d : Dev) (lo hi : Nat) : Nat := d.reg lo + 2 ^ 32 * d.reg hi

/-- Store words in registers 4 B apart. -/
def Dev.setRegs (d : Dev) (off : Nat) : List Nat → Dev
  | [] => d
  | v :: vs => Dev.setRegs (d.setReg off v) (off + 4) vs

/-- Give the registers of `[off, off + n)` their reset values. -/
def Dev.clearRegs (d : Dev) (off n : Nat) : Dev := { d with regs := d.regs.clear off n }

/-! ### Outputs and free values -/

/-- Send something out. -/
def Dev.emit (d : Dev) (o : Out) : Dev := { d with out := d.out ++ [o] }

/-- Advance the counter of free values. -/
def Dev.tickFree (d : Dev) : Dev := { d with free := d.free + 1 }

/-- A fresh free number, and the device with the counter advanced. -/
def Dev.freshNat (d : Dev) : Nat × Dev := (Config.freeNat d.free, d.tickFree)

/-- `n` fresh free bytes. -/
def Dev.freshBytes (d : Dev) (n : Nat) : List Byte × Dev :=
  ((List.range n).map fun i => Config.freeByte (d.free + i), { d with free := d.free + n })

/-- A fresh free choice. -/
def Dev.freshBool (d : Dev) : Bool × Dev := (Config.freeBool d.free, d.tickFree)

/-! ### Memory -/

/-- What an unlisted byte of software memory reads as: zero, the value of the cold-boot clear (R455, R461). -/
def memDefault (_ : Nat) : Byte := 0

/-- What an unlisted byte of the flash reads as: erased. -/
def flashDefault (_ : Nat) : Byte := 0xFF

/-- The end of software memory (R21). -/
def memEnd : Nat := 0x1F80000000

/-- One byte of software memory. -/
def Dev.memByte (d : Dev) (a : Nat) : Byte := d.mem.get memDefault a

/-- `n` bytes of software memory. -/
def Dev.memRead (d : Dev) (a n : Nat) : List Byte := d.mem.range memDefault a n

/-- Put bytes into software memory. -/
def Dev.memPut (d : Dev) (a : Nat) (bs : List Byte) : Dev := { d with mem := d.mem.write memDefault a bs }

/-- A little-endian number of `n` bytes in software memory. -/
def Dev.memNat (d : Dev) (a n : Nat) : Nat := leNat (d.memRead a n)

/-- `n` bytes of flash. -/
def Dev.flashRead (d : Dev) (a n : Nat) : List Byte := d.flash.range flashDefault a n

/-- `n` bytes of host memory. -/
def Dev.hostRead (d : Dev) (a n : Nat) : List Byte := d.hostMem.range Config.hostByte a n

/-- Put bytes into host memory. -/
def Dev.hostPut (d : Dev) (a : Nat) (bs : List Byte) : Dev := { d with hostMem := d.hostMem.write Config.hostByte a bs }

/-- Put a number into a rising list without repeats. -/
def insertSorted : List Nat → Nat → List Nat
  | [], x => [x]
  | y :: ys, x => if x < y then x :: y :: ys else if x = y then y :: ys else y :: insertSorted ys x

/-- The 256 B blocks that a range of bytes touches. -/
def blocksOf (a n : Nat) : List Nat := if n = 0 then [] else (List.range ((a + n - 1) / 256 - a / 256 + 1)).map (· + a / 256)

/-- Whether a block is damaged (R280). -/
def Dev.isDamaged (d : Dev) (b : Nat) : Bool := d.damaged.contains b

/-- Mark a block damaged or whole. -/
def Dev.setDamaged (d : Dev) (b : Nat) (bad : Bool) : Dev :=
  { d with damaged := if bad then insertSorted d.damaged b else d.damaged.filter (· != b) }

/-- Whether any block of a range is damaged. -/
def Dev.rangeDamaged (d : Dev) (a n : Nat) : Bool := (blocksOf a n).any d.isDamaged

/-- The stack that holds a device address, by the interleave hash of R170. -/
def Dev.stackOf (d : Dev) (a : Nat) : Nat :=
  let g := a / 2 ^ 12
  let t := (g ^^^ g / 2 ^ 3 ^^^ g / 2 ^ 6 ^^^ g / 2 ^ 9 ^^^ g / 2 ^ 12) % 8
  (List.range 10).foldl (fun t j => if bit g (15 + j) then t ^^^ (d.wb.seed / 2 ^ (3 * j) % 8) else t) t

/-- Memory controller `c` leaves power-down (R298). -/
def Dev.memPowerUp (d : Dev) (c : Nat) : Dev :=
  if bit (d.reg Reg.MEM_STATUS) c then d.setReg Reg.MEM_STATUS (d.reg Reg.MEM_STATUS - 2 ^ c) else d

/-- A request for blocks of software memory wakes their controllers from power-down, and is held until they acknowledge it (R298, R421):
the time that this takes passes within the command (log 56). -/
def Dev.memWake (d : Dev) (blocks : List Nat) : Dev :=
  if d.reg Reg.MEM_STATUS == 0 then d else blocks.foldl (fun d b => d.memPowerUp (d.stackOf (b * 256))) d

/-- A write that covers whole blocks, or merges into blocks that read well: the bytes land, and each block written
whole is no longer damaged (R25, R280). A block written in part keeps its damage: it is stored poisoned (R280). The
controllers of the blocks are awake for it (R298). -/
def Dev.memWrite (d : Dev) (a : Nat) (bs : List Byte) : Dev :=
  let n := bs.length
  let whole (b : Nat) : Bool := a ≤ b * 256 && b * 256 + 256 ≤ a + n
  let d := d.memWake (blocksOf a n)
  { d.memPut a bs with damaged := d.damaged.filter fun b => !(whole b) }

/-! ### Partitions of software memory (R67) -/

/-- The size of a partition unit: 2 MiB. -/
def partUnit : Nat := 2 ^ 21

/-- Whether a range lies inside one partition of the given kind; kind 0 (GENERAL) is also met by a range that lies
inside one implicit partition, which means that it touches no explicit one. -/
def Dev.inPart (d : Dev) (kind a n : Nat) : Bool :=
  let hits (p : Part) : Bool := a < (p.base + p.size) * partUnit && p.base * partUnit < a + n
  let inside (p : Part) : Bool := p.base * partUnit ≤ a && a + n ≤ (p.base + p.size) * partUnit
  a + n ≤ memEnd && 0 < n &&
    (d.wb.parts.any (fun p => p.kind == kind && inside p) || (kind == 0 && !(d.wb.parts.any hits)))

/-- Whether a range lies inside one partition whose kind is among those given. -/
def Dev.inParts (d : Dev) (kinds : List Nat) (a n : Nat) : Bool := kinds.any fun k => d.inPart k a n

/-- The kind of the explicit partition that holds an address; 0 where none does. -/
def Dev.kindAt (d : Dev) (a : Nat) : Nat :=
  match d.wb.parts.find? fun p => p.base * partUnit ≤ a && a < (p.base + p.size) * partUnit with
  | some p => p.kind
  | none => 0

/-! ### What the waybill makes present -/

/-- Bits of the BLOCKS section (R61). -/
def Dev.hasBlt (d : Dev) : Bool := bit d.wb.blocks 0
def Dev.hasTly (d : Dev) : Bool := bit d.wb.blocks 1
def Dev.hasPrt (d : Dev) : Bool := bit d.wb.blocks 2
def Dev.hasStl (d : Dev) : Bool := bit d.wb.blocks 3
def Dev.hasTwn (d : Dev) : Bool := bit d.wb.blocks 4
def Dev.hasTrk (d : Dev) : Bool := bit d.wb.blocks 5
def Dev.hasDbg (d : Dev) : Bool := bit d.wb.blocks 6

/-- The role of a port: 0 OFF, 1 COACH, 2 STREAM, 3 TWIN, 4 TRUNK (R62). -/
def Dev.role (d : Dev) (p : Nat) : Nat := d.wb.ports.getD p 0 % 8

/-- Bit [4] of a port's entry inverts its transmit polarity (R62). What bit [5] inverts comes in as commands (log 54). -/
def Dev.txInverted (d : Dev) (p : Nat) : Bool := bit (d.wb.ports.getD p 0) 4

/-- Whether the PLL of a quad is locked (R413). -/
def Dev.quadLocked (d : Dev) (q : Nat) : Bool := bit (d.reg (Reg.CKG_QPLL_STATUS q)) 31

/-- The number of the HOST crossing among those of Table 18.4; return-line controller `c` has 128 + `c`, and a port its own. -/
def hostCrossing : Nat := 160
def lineCrossing (c : Nat) : Nat := 128 + c

/-- One side of a crossing is reset alone: its epoch advances, and the other side adopts it (R422). -/
def Dev.newEpoch (d : Dev) (crossing : Nat) : Dev :=
  { d with epochs := d.epochs.set (fun _ => 0) crossing ((d.epochs.get (fun _ => 0) crossing + 1) % 4) }

/-- What the transmitter of a Coach port drives in a state: 0 DOWN, 1 TRAIN, above them codewords (R217, R414). -/
def Dev.linkDrive (d : Dev) (p state : Nat) : LaneDrive :=
  match state with
  | 0 => .idle
  | 1 => if d.quadLocked (p / 4) then .prbs13q (d.txInverted p) else .idle
  | _ => .codewords

/-- A port's transmitter drives what a state asks for, where that differs from `was`. -/
def Dev.driveLane (d : Dev) (p state : Nat) (was : LaneDrive) : Dev :=
  if d.linkDrive p state == was then d else d.emit (.lane p (d.linkDrive p state))

/-- What the transmitter of a twin or trunk lane drives from the moment at which it begins to train: nothing while its quad PLL is not locked
(R302, R326, R414). -/
def Dev.pairDrive (d : Dev) (p : Nat) : LaneDrive := if d.quadLocked (p / 4) then .link (d.txInverted p) else .idle

/-- The ports that have a role, in rising order. -/
def Dev.portsOf (d : Dev) (role : Nat) : List Nat := (List.range 128).filter fun p => d.role p == role

/-- Whether a ring is present, and its entry of the RINGS section (R66). -/
def Dev.ringDef (d : Dev) (r : Nat) : Option RingDef :=
  d.wb.rings.find? fun e => e.first ≤ r && r < e.first + e.count

/-- The class of a ring; 0 where it is absent. -/
def Dev.ringClass (d : Dev) (r : Nat) : Nat := ((d.ringDef r).map (·.cls)).getD 0

/-- Whether a return-line controller is present: its quad holds a COACH port (R13). -/
def Dev.hasLine (d : Dev) (c : Nat) : Bool := (List.range 4).any fun k => d.role (4 * c + k) == 1

/-- Whether the steps of a boot or of a return from Rest can take place: no flush phase, which holds them in reset (R457), and no Rest before
its wake (R445). -/
def Dev.sequencing (d : Dev) : Bool := !d.boot.flush && (d.sdp.power != 3 || d.boot.fromRest)

/-- Whether the device composes and drives: a waybill is loaded. -/
def Dev.loaded (d : Dev) : Bool := d.wb.loaded

end Sys2Proof.Machine
end

