-- ==== Sys2Proof/Machine/Flags.lean ====
section
/-! DEFINITION. Flags, counters and refusals: sticky flags (R44), crossings (R45), event counters (R46), refusals
(R50, R51) and the effect of a write on each access code (R5). -/

namespace Sys2Proof.Machine

/-- Raise an event counter by `n`; it saturates at 0xFFFF_FFFF (R46). -/
def Dev.countBy (d : Dev) (off n : Nat) : Dev := d.setReg off (min (d.reg off + n) 0xFFFFFFFF)

/-- Raise an event counter by 1 (R46). -/
def Dev.count (d : Dev) (off : Nat) : Dev := d.countBy off 1

/-- Raise a counter that wraps at 2^32. -/
def Dev.countWrap (d : Dev) (off : Nat) : Dev := d.setReg off ((d.reg off + 1) % 2 ^ 32)

/-- Set a sticky flag (R44). -/
def Dev.setFlag (d : Dev) (off : Nat) (f : Fld) : Dev := d.setFld off f 1

/-- Record a refusal in the block whose header lies at `base` (R50, R51, Table 2.7). -/
def Dev.refuse (d : Dev) (base reason : Nat) : Dev :=
  let r := base + 4
  let d' := if d.flag r Fld.REFUSED_REFUSED then d.setFlag r Fld.REFUSED_MORE
    else (d.setFlag r Fld.REFUSED_REFUSED).setFld r Fld.REFUSED_REASON reason
  d'.count (base + 8)

/-- Whether a level crosses its threshold upwards (R45). -/
def crossesUp (old new threshold : Nat) : Bool := old < threshold && threshold ≤ new

/-- What a field holds after a write of `v` to its register, `old` being its register's value (R5). A trigger and a
read-only field keep their stored value; a ONCE field is decided where it is written. -/
def FieldSpec.afterWrite (f : FieldSpec) (old v : Nat) : Nat :=
  let o := bits old f.hi f.lo
  let w := bits v f.hi f.lo
  match f.acc with
  | .rw => w
  | .shd => w
  | .w1c => o - (o &&& w)
  | .w1s => o ||| w
  | .ro => o
  | .once => o
  | .trg => o

/-- A register's value after a write under the access codes of its fields; bits of no field stay 0 (R6). -/
def RegRow.afterWrite (r : RegRow) (old v : Nat) : Nat :=
  r.fields.foldl (fun a f => a + f.afterWrite old v * 2 ^ f.lo) 0

/-- A word with the bits of no field of its register at 0: reserved bits read 0 (R6). -/
def fieldBits (off v : Nat) : Nat :=
  match rowOf off with
  | some r => r.fields.foldl (fun a f => a + bits v f.hi f.lo * 2 ^ f.lo) 0
  | none => 0

/-- A register's value after a write, the row being found by its offset. -/
def Dev.genericWrite (d : Dev) (off v : Nat) : Dev :=
  match rowOf off with
  | some r => d.setReg off (r.afterWrite (d.reg off) v)
  | none => d

/-- Clearing a header's or log's leading flag also clears the bits beside it: `REFUSED` its `MORE` (Table 2.7), `FLAG`
of the GLB logs their `MORE` and `WRITE` (Table 2.12), `FLAG` of `BEL_FAULT` its `MORE` (Table 17.11). -/
def Dev.clearBeside (d : Dev) (off lead : Nat) (beside : List Nat) : Dev :=
  if bit (d.reg off) lead then d
  else d.setReg off (beside.foldl (fun v i => if bit v i then v - 2 ^ i else v) (d.reg off))

/-- A system PLL has failed (R414). -/
def Dev.pllFailed (d : Dev) : Bool := (List.range 4).any fun k => bit (d.reg (Reg.CKG_SPLL_STATUS k)) 30

/-- The bridge is down (R16). -/
def Dev.bridgeIsDown (d : Dev) : Bool := d.flag Reg.DEP_STATUS Fld.DEP_STATUS_BRIDGE_DOWN

/-- Whether any cause holds `FAULT_N` low (R16, R296, R414, R449). -/
def Dev.faultLow (d : Dev) : Bool :=
  d.bridgeIsDown || d.flag Reg.DEP_STATUS Fld.DEP_STATUS_CONTROL_FAULT || d.pllFailed || d.sdp.tripHold

/-- Whether the device drives `MB_ALERT_N` low: while any ALERT bit is 1 (R56). -/
def Dev.mbAlertLow (d : Dev) : Bool := d.sdp.alert % 8 != 0

/-- `FAULT_N` going low latches bit 2 of the SMBus ALERT byte (R45, R56). -/
def Dev.latchFault (d : Dev) : Dev :=
  let low := d.faultLow
  { d with sdp := { d.sdp with faultWas := low, alert := if low && !d.sdp.faultWas then d.sdp.alert ||| 4 else d.sdp.alert } }

/-- What leaves the device in EXTEST: the balls are taken from its logic, and only test data goes out (R437). -/
def Dev.extest (d : Dev) : Dev :=
  if d.tap == .extest then { d with out := d.out.filter fun o => match o with | .tap _ => true | _ => false } else d

/-- A device whose last outputs are gone: what the next command starts from. -/
def Dev.quiet (d : Dev) : Dev := { d with out := [] }

/-- The state after a command left device `d`: the edge of `FAULT_N` is latched, and EXTEST holds back what leaves. -/
def State.done (s : State) (d : Dev) : State := { s with dev := d.latchFault.extest }

/-- Carry out a command's effect: the outputs are those of this command alone. -/
def State.apply (s : State) (f : Dev → Dev) : Host.Outcome State Fault Refusal := .next (s.done (f s.dev.quiet))

end Sys2Proof.Machine
end

