-- ==== Sys2Proof/Machine/Access.lean ====
section
/-! DEFINITION. How a BAR0 access finds its register: the regions of Table 2.2, which blocks are present (R12, R13, R75,
R457), and the rows of Table 2.6 that decide an access before its register does (R47). -/

namespace Sys2Proof.Machine

/-- The owner of a BAR0 offset. -/
inductive Blk where
  | glb | wbl | sdp | ckg | stk | flp | bel | rng | blt | tly | prt | stl | mem | dep | twn | trk | cal | dbg
  | ring (r : Nat) | port (p : Nat) | line (c : Nat)
  deriving DecidableEq, Repr

/-- The eighteen blocks from GLB to DBG by their number, offset >> 16 (R36). -/
def blkNumber : Nat → Option Blk
  | 0 => some .glb | 1 => some .wbl | 2 => some .sdp | 3 => some .ckg | 4 => some .stk | 5 => some .flp
  | 6 => some .bel | 7 => some .rng | 8 => some .blt | 9 => some .tly | 10 => some .prt | 11 => some .stl
  | 12 => some .mem | 13 => some .dep | 14 => some .twn | 15 => some .trk | 16 => some .cal | 17 => some .dbg
  | _ => none

/-- The block, ring, port or line whose region holds an offset (Table 2.2); none where no region does. -/
def blkOf (off : Nat) : Option Blk :=
  if off < 0x120000 then blkNumber (off / 0x10000)
  else if off < 0x200000 then none
  else if off < 0x280000 then some .prt
  else if off < 0x300000 then none
  else if off < 0x310000 then some (if off < 0x301000 then .stk else .prt)
  else if off < 0x800000 then none
  else if off < 0x900000 then some (.ring ((off - 0x800000) / 0x40))
  else if off < 0x1000000 then none
  else if off < 0x1100000 then some .prt
  else if off < 0x2000000 then none
  else if off < 0x2800000 then some (.port ((off - 0x2000000) / 0x10000))
  else if off < 0x3000000 then none
  else if off < 0x3020000 then some (.line ((off - 0x3000000) / 0x1000))
  else none

/-- Whether the owner of a region is present and released: R75 before the waybill loads, R12, R13 and R66 after, R457
during a reset. Rest, its way out included, is no reset window: there a region that exists does not answer (R39), but what may be absent
(Table 1.2) follows the fall-back rule while the waybill loads again (R79). -/
def Dev.present (d : Dev) : Blk → Bool
  | .glb => true
  | .sdp => true
  | .cal => (d.boot.cal || d.sdp.power == 3) && !d.boot.flush
  | .ckg => (d.boot.ckg || d.sdp.power == 3) && !d.boot.flush
  | .mem => (d.boot.mem || d.sdp.power == 3) && !d.boot.flush
  | .wbl => (d.boot.wbl || d.sdp.power == 3) && !d.boot.flush
  | b => d.loaded && !d.boot.flush &&
    let fixed := d.boot.load.isNone
    match b with
    | .blt => d.hasBlt && fixed
    | .tly => d.hasTly && fixed
    | .prt => d.hasPrt && fixed
    | .stl => d.hasStl && fixed
    | .twn => d.hasTwn && fixed
    | .trk => d.hasTrk && fixed
    | .dbg => d.hasDbg && fixed
    | .ring r => (d.ringDef r).isSome
    | .port p => d.role p != 0 && fixed
    | .line c => d.hasLine c && fixed
    | _ => true

/-- The key of an offset in the register file: in a port page the role of the port selects the layout (R35). -/
def Dev.keyOf (d : Dev) (off : Nat) : Nat :=
  match blkOf off with
  | some (.port p) => off + d.role p * 0x10000000
  | _ => off

/-- What decides an access (Table 2.6, rows 2 to 4 and 6). -/
inductive Access where
  /-- Row 2: the fall-back rule (R49). -/
  | fallback
  /-- Row 3: a bus error. -/
  | unmapped
  /-- Row 4: the block does not answer (R39). -/
  | far
  /-- The register answers; its key in the register file. -/
  | normal (key : Nat)
  deriving DecidableEq, Repr

/-- Decide a BAR0 access by the first of rows 2 to 4 of Table 2.6 whose condition holds. In Rest every present region but GLB and
SDP does not answer (R39, R446). While the bridge is down the blocks of both halves answer as before (R16 does not say; DESIGN CHOICE,
log 36). -/
def Dev.access (d : Dev) (off : Nat) : Access :=
  match blkOf off with
  | none => .unmapped
  | some b =>
    if !d.present b then .fallback
    else
      let k := d.keyOf off
      if !(off % 4 == 0 && (rowOf k).isSome) then .unmapped
      else if d.sdp.power == 3 && b != .glb && b != .sdp then .far
      else .normal k

end Sys2Proof.Machine
end

