-- ==== Sys2Proof/Machine/Bell.lean ====
section
/-! DEFINITION. The Bellboard: sources and their routing, pending and counts (R394, R395), the service stack (R397 to R401)
and delivery (R402 to R404). -/

namespace Sys2Proof.Machine

/-- The level sources of the spec are 0x43F0 and 0x43F1 (Table 12.10); every other source is an edge source. -/
def isLevel (src : Nat) : Bool := src == 0x43F0 || src == 0x43F1

/-- The number under which source 0x7FFF of a target pends. -/
def stackFault (t : Nat) : Nat := 0x8000 + t

/-- The class (page number: target, plus 64 for the fast class) that a source is routed to (R69, R70). The waybill gives the target and the
class, but 0x43F0 is on the fast class of its target whatever class the waybill has for it: R16 names its class (DEDUCED, log 32). -/
def Dev.routeOf (d : Dev) (src : Nat) : Option Nat :=
  if 0x8000 ≤ src then some (64 + (src - 0x8000))
  else (d.wb.routes.find? fun r => r.first ≤ src && src < r.first + r.count).map fun r =>
    r.target + if r.fast || src == 0x43F0 then 64 else 0

/-- The routed order of a target: its sources over both classes (R70, R397). -/
def Dev.routedOrder (d : Dev) (t : Nat) : List Nat :=
  (d.wb.routes.filter (·.target == t)).flatMap fun r => (List.range r.count).map (· + r.first)

/-- The size of a target (R70). -/
def Dev.targetSize (d : Dev) (t : Nat) : Nat :=
  (d.wb.routes.filter (·.target == t)).foldl (fun a r => a + r.count) 0

/-- A target of size above 64 uses claim presentation (R397). -/
def Dev.claimMode (d : Dev) (t : Nat) : Bool := 64 < d.targetSize t

/-- The Bellboard runs in Run, Lull and Doze once a waybill is loaded (R75, R393, Table 19.6). -/
def Dev.belRunning (d : Dev) : Bool := d.loaded && d.sdp.power != 3

/-- The state of a class; the default is its state at reset. -/
def Dev.belClass (d : Dev) (c : Nat) : BelClass := d.bel.classes.get (fun _ => {}) c

/-- Store the state of a class. -/
def Dev.setBelClass (d : Dev) (c : Nat) (x : BelClass) : Dev :=
  { d with bel := { d.bel with classes := d.bel.classes.set (fun _ => {}) c x } }

/-- The pending record of a source. -/
def Dev.belPending (d : Dev) (src : Nat) : Option BelPend := d.bel.pend.find? (·.source == src)

/-- Pend a source, or raise its count, which saturates at 65,535 (R395). A level source has count 1. -/
def Dev.pendBy (d : Dev) (src n : Nat) : Dev :=
  let p := match d.belPending src with
    | some _ => d.bel.pend.map fun q =>
        if q.source == src then { q with count := if isLevel src then 1 else min (q.count + n) 65535 } else q
    | none => d.bel.pend ++ [⟨src, if isLevel src then 1 else min n 65535, d.now⟩]
  { d with bel := { d.bel with pend := p } }

/-- Take a source out of pending. -/
def Dev.unpend (d : Dev) (src : Nat) : Dev :=
  { d with bel := { d.bel with pend := d.bel.pend.filter (·.source != src) } }

/-- Pend a source again after service: an edge source takes `n` back, a level source only while asserted (R400, R401). -/
def Dev.repend (d : Dev) (src n : Nat) : Dev :=
  if isLevel src then (if d.bel.levels.contains src then d.pendBy src 1 else d) else d.pendBy src n

/-- A doorbell message: it pends its source or raises its count, updates a level copy, and counts for its class; a
source that no target takes counts in `BEL_UNROUTED_CNT` (R394, R395). -/
def Dev.message (d : Dev) (src : Nat) (deassert : Bool) : Dev :=
  if !d.belRunning then d
  else
    let d := if isLevel src then
        { d with bel := { d.bel with levels :=
            if deassert then d.bel.levels.filter (· != src) else insertSorted d.bel.levels src } }
      else d
    match d.routeOf src with
    | none => d.count Reg.BEL_UNROUTED_CNT
    | some c =>
      let d := d.setBelClass c { d.belClass c with n := (d.belClass c).n + 1 }
      if deassert && isLevel src then d else d.pendBy src 1

/-- A block raises a source: its doorbell message reaches the Bellboard in the same step (log 3). -/
def Dev.raise (d : Dev) (src : Nat) : Dev := d.message src false

/-- Raise a source when a condition holds. -/
def Dev.raiseIf (d : Dev) (b : Bool) (src : Nat) : Dev := if b then d.raise src else d

/-- The pending sources of a class. -/
def Dev.classPend (d : Dev) (c : Nat) : List BelPend := d.bel.pend.filter fun p => d.routeOf p.source == some c

/-- The pending source of highest priority of a class: on the fast class 0x7FFF, then the routed order (R397). -/
def Dev.topPending (d : Dev) (c : Nat) : Option BelPend :=
  let ps := d.classPend c
  let order := (if 64 ≤ c then [stackFault (c - 64)] else []) ++ d.routedOrder (c % 64)
  order.findSome? fun s => ps.find? (·.source == s)

/-- The number a source is shown under: 0x7FFF for the stack fault of any target. -/
def shownSource (src : Nat) : Nat := if 0x8000 ≤ src then 0x7FFF else src

/-- The word that a CLAIM returns for an entry (Table 17.12). -/
def claimWord : BelEntry → Nat
  | .claimed src n gone => n * 2 ^ 16 + (if gone then 2 ^ 15 else 0) + shownSource src
  | .bits _ => 0

/-- Arm a class. -/
def Dev.arm (d : Dev) (c : Nat) : Dev := d.setBelClass c { d.belClass c with armed := true }

/-- Whether the target of a class has a fast entry in service. -/
def Dev.fastInService (d : Dev) (c : Nat) : Bool := (d.belClass (c % 64 + 64)).entry.isSome

/-- A read of `BEL_PG_CLAIM` (R398, R400, R404): the word returned, and the device after it. Under bit presentation it returns NONE
(Table 17.12), which re-arms the class as any NONE but that of the second case of R398 does. -/
def Dev.claim (d : Dev) (c : Nat) : Nat × Dev :=
  if !d.claimMode (c % 64) then (0, d.arm c)
  else match (d.belClass c).entry with
    | some e => (claimWord e, d)
    | none =>
      if c < 64 && d.fastInService c then (0, d)
      else match d.topPending c with
        | none => (0, d.arm c)
        | some p =>
          let gone := isLevel p.source && !(d.bel.levels.contains p.source)
          let e := BelEntry.claimed p.source p.count gone
          let d := (d.unpend p.source)
          let d := d.setBelClass c { d.belClass c with entry := some e }
          (claimWord e, if gone then d.count Reg.BEL_SPURIOUS_CNT else d)

/-- The 64 pending bits of a class page under bit presentation (R399). -/
def Dev.pendBits (d : Dev) (c : Nat) : Nat :=
  if d.claimMode (c % 64) then 0
  else
    let ps := (d.classPend c).map (·.source)
    (d.routedOrder (c % 64)).foldr (fun s a => a * 2 + if ps.contains s then 1 else 0) 0

/-- A read of `BEL_PG_PEND_LO`: its first read pushes the class's entry (R399). -/
def Dev.pendRead (d : Dev) (c : Nat) : Nat × Dev :=
  let v := d.pendBits c % 2 ^ 32
  if d.claimMode (c % 64) then (0, d)
  else if (d.belClass c).entry.isSome || (c < 64 && d.fastInService c) then (v, d)
  else (v, d.setBelClass c { d.belClass c with entry := some (.bits []) })

/-- Record an acknowledged source in the class's entry (R399). -/
def Dev.recordAck (d : Dev) (c src : Nat) : Dev :=
  match (d.belClass c).entry with
  | some (.bits l) => d.setBelClass c { d.belClass c with entry := some (.bits (insertSorted l src)) }
  | _ => d

/-- Acknowledge a source: it leaves pending; a level source pends again while its copy is asserted (R399). -/
def Dev.ack (d : Dev) (c src : Nat) : Dev :=
  match d.belPending src with
  | none => d
  | some _ =>
    let d := (d.unpend src).recordAck c src
    if isLevel src then d.repend src 1 else d

/-- Writing 1 to pending bits of a class page (R399): bit `i` of `mask` is routed source `base + i`. -/
def Dev.pendAck (d : Dev) (c base mask : Nat) : Dev :=
  if d.claimMode (c % 64) then d
  else
    let srcs := ((d.routedOrder (c % 64)).drop base).take 32
    ((List.range 32).zip srcs).foldl (fun d p =>
      if bit mask p.1 && d.routeOf p.2 == some c then d.ack c p.2 else d) d

/-- The sources that an entry holds, with the counts they take back (R401). -/
def entrySources : Option BelEntry → List (Nat × Nat)
  | none => []
  | some (.claimed s n _) => [(s, n)]
  | some (.bits l) => l.map fun s => (s, 1)

/-- The source that an entry holds under claim presentation, 0 otherwise (`BEL_FAULT_SRC`, `BEL_PG_STATUS`). -/
def entrySource : Option BelEntry → Nat
  | some (.claimed s _ _) => shownSource s
  | _ => 0

/-- An out-of-order completion of target `t` (R401). -/
def Dev.outOfOrder (d : Dev) (t : Nat) : Dev :=
  let n := d.belClass t
  let f := d.belClass (64 + t)
  let d := if d.flag Reg.BEL_FAULT Fld.BEL_FAULT_FLAG then d.setFlag Reg.BEL_FAULT Fld.BEL_FAULT_MORE
    else (d.setReg Reg.BEL_FAULT (t * 2 ^ 16 + 1)).setReg Reg.BEL_FAULT_SRC (entrySource n.entry * 2 ^ 16 + entrySource f.entry)
  let d := d.count Reg.BEL_FAULT_CNT
  let d := d.setBelClass t { n with entry := none, armed := true }
  let d := d.setBelClass (64 + t) { f with entry := none, armed := true }
  let d := (entrySources n.entry ++ entrySources f.entry).foldl (fun d p => d.repend p.1 p.2) d
  d.pendBy (stackFault t) 1

/-- Retire the entry of a class, if it holds one (R400). -/
def Dev.retire (d : Dev) (c : Nat) : Dev :=
  let x := d.belClass c
  match x.entry with
  | none => (d.count Reg.BEL_EMPTY_CNT).arm c
  | some e =>
    let d := d.setBelClass c { x with entry := none, armed := true }
    let d := match e with
      | .claimed s _ _ => if isLevel s then d.repend s 1 else d
      | .bits _ => d
    if 64 ≤ c && (d.belClass (c - 64)).entry.isNone then d.arm (c - 64) else d

/-- A write to `BEL_PG_COMPLETE` (R400, R401). -/
def Dev.complete (d : Dev) (c : Nat) : Dev :=
  if c < 64 && d.fastInService c then d.outOfOrder c else d.retire c

/-- The condition under which a class sends a message (R402). -/
def Dev.messageDue (d : Dev) (c : Nat) : Bool :=
  let x := d.belClass c
  let ctrl := d.reg (Reg.BEL_PG_CTRL c)
  let minNs := Fld.BEL_PG_CTRL_MIN_US.get ctrl * 1000
  let ps := d.classPend c
  let since := (match x.tLast with | none => true | some t => minNs ≤ d.now - t)
  let oldest := ps.foldl (fun a p => min a p.since) d.now
  d.belRunning && bit ctrl 0 && x.armed && !ps.isEmpty && !(c < 64 && d.fastInService c) &&
    (d.reg (Reg.BEL_PG_IDLE c) == 1 ||
      (since && (Fld.BEL_PG_CTRL_COALESCE.get ctrl ≤ x.n || minNs ≤ d.now - oldest)))

/-- The MSI-X message of a vector: sent, or held where the vector is masked (R403). -/
def Dev.sendMsix (d : Dev) (v : Nat) : Dev :=
  if bit (d.reg (Reg.MSIX_VCTRL v)) 0 then
    d.setReg (Reg.MSIX_PBA (v / 32)) (d.reg (Reg.MSIX_PBA (v / 32)) ||| 2 ^ (v % 32))
  else d.emit (.msix v (d.pair (Reg.MSIX_ADDR_LO v) (Reg.MSIX_ADDR_HI v)) (d.reg (Reg.MSIX_DATA v)))

/-- Send the message of a class that is due: it disarms the class and clears `IDLE` (R402). -/
def Dev.sendMessage (d : Dev) (c : Nat) : Dev :=
  if d.messageDue c then
    let d := d.sendMsix (c % 64)
    let d := d.setBelClass c { d.belClass c with armed := false, tLast := some d.now, n := 0 }
    ((d.setReg (Reg.BEL_PG_IDLE c) 0).count (Reg.BEL_PG_MSG_CNT c)).count Reg.BEL_MSG_CNT
  else d

/-- Unmasking a vector releases the message that it held (R403). -/
def Dev.unmask (d : Dev) (v : Nat) : Dev :=
  let d := d.setReg (Reg.MSIX_VCTRL v) 0
  let pba := d.reg (Reg.MSIX_PBA (v / 32))
  if bit pba (v % 32) then (d.setReg (Reg.MSIX_PBA (v / 32)) (pba - 2 ^ (v % 32))).sendMsix v else d

/-! ### Errors that GLB logs -/

/-- Log an access in `GLB_ERR_UNMAPPED` or `GLB_ERR_FAR` (Tables 2.12, 2.13). -/
def Dev.logAccess (d : Dev) (flagReg addrReg cntReg off : Nat) (write : Bool) : Dev :=
  let v := d.reg flagReg
  let d := if bit v 0 then d.setReg flagReg (v ||| 2)
    else (d.setReg flagReg (1 + if write then 4 else 0)).setReg addrReg (off / 4 * 4 % 2 ^ 26)
  d.count cntReg

/-- A dropped write of row 3 (R49). -/
def Dev.busError (d : Dev) (off : Nat) : Dev :=
  (d.logAccess Reg.GLB_ERR_UNMAPPED Reg.GLB_ERR_UNMAPPED_ADDR Reg.GLB_ERR_UNMAPPED_CNT off false).raise 0x46D8

/-- An access that the fabric ends because the block does not answer (R39). -/
def Dev.farError (d : Dev) (off : Nat) (write : Bool) : Dev :=
  (d.logAccess Reg.GLB_ERR_FAR Reg.GLB_ERR_FAR_ADDR Reg.GLB_ERR_FAR_CNT off write).raise 0x46D9

/-- A write to the register at an offset: row 2 ignores it, rows 3 and 4 drop and log it, else `f` carries it out (R47). -/
def Dev.onWrite (d : Dev) (off : Nat) (f : Dev → Dev) : Dev :=
  match d.access off with
  | .fallback => d
  | .unmapped => d.busError off
  | .far => d.farError off true
  | .normal _ => f d

/-- A read of the register at an offset: row 2 returns 0, row 3 Unsupported Request, row 4 returns 0 and logs, else `f`
gives the value and the device after the read (R47). -/
def Dev.onRead (d : Dev) (off : Nat) (f : Dev → Nat × Dev) : Dev :=
  match d.access off with
  | .fallback => d.emit (.completion 0)
  | .unmapped => d.emit .unsupported
  | .far => (d.farError off false).emit (.completion 0)
  | .normal _ =>
    let r := f d
    r.2.emit (.completion (BitVec.ofNat 32 r.1))

/-! ### The commands -/

def execClaim (page : Fin 128) (s : State) : Host.Outcome State Fault Refusal :=
  s.apply fun d => d.onRead (Reg.BEL_PG_CLAIM page) fun d => d.claim page

def execPendRead (page : Fin 128) (s : State) : Host.Outcome State Fault Refusal :=
  s.apply fun d => d.onRead (Reg.BEL_PG_PEND_LO page) fun d => d.pendRead page

def execPendAck (page : Fin 128) (high : Bool) (mask : Word) (s : State) : Host.Outcome State Fault Refusal :=
  s.apply fun d => d.onWrite (if high then Reg.BEL_PG_PEND_HI page else Reg.BEL_PG_PEND_LO page) fun d =>
    d.pendAck page (if high then 32 else 0) mask.toNat

def execStackFaultAck (target : Fin 64) (s : State) : Host.Outcome State Fault Refusal :=
  s.apply fun d => d.onWrite (Reg.BEL_PG_STATUS (64 + target)) fun d => d.ack (64 + target) (stackFault target)

def execComplete (page : Fin 128) (s : State) : Host.Outcome State Fault Refusal :=
  s.apply fun d => d.onWrite (Reg.BEL_PG_COMPLETE page) fun d => d.complete page

def execMsixMessage (page : Fin 128) (s : State) : Host.Outcome State Fault Refusal :=
  s.apply fun d => d.sendMessage page

def execIdleSet (page : Fin 128) (s : State) : Host.Outcome State Fault Refusal :=
  s.apply fun d => d.onWrite (Reg.BEL_PG_IDLE page) fun d => d.setReg (Reg.BEL_PG_IDLE page) 1

def execVectorUnmask (vector : Fin 64) (s : State) : Host.Outcome State Fault Refusal :=
  s.apply fun d => d.onWrite (Reg.MSIX_VCTRL vector) fun d => d.unmask vector

end Sys2Proof.Machine
end

