-- ==== Sys2Proof/Machine/Arith.lean ====
section
/-! DEFINITION. The named rounding and saturation functions of the spec, on exact rationals. -/

namespace Sys2Proof.Machine

/-- Round to the nearest integer, ties to even: rne. -/
def rne (x : Rat) : Int :=
  let fl := x.floor
  let d := x - fl
  if d < 1 / 2 then fl else if 1 / 2 < d then fl + 1 else if fl % 2 == 0 then fl else fl + 1

/-- Round a quotient of integers (positive divisor) to the nearest integer, ties to even. -/
def rneDiv (a : Int) (b : Nat) : Int :=
  let q := a / (b : Int)
  let r := 2 * (a % (b : Int))
  if r < (b : Int) then q else if (b : Int) < r then q + 1 else if q % 2 == 0 then q else q + 1

/-- Limit a value to a range. -/
def clampInt (lo hi x : Int) : Int := if x < lo then lo else if hi < x then hi else x

/-- The least integer not below a rational, as a natural number. -/
def ceilNat (x : Rat) : Nat := (-((-x).floor)).toNat

/-- The greatest natural number not above a rational. -/
def floorNat (x : Rat) : Nat := x.floor.toNat

/-- Division rounded up. -/
def ceilDiv (a b : Nat) : Nat := (a + b - 1) / b

/-- The remainder of a rational by a positive rational. -/
def ratMod (x t : Rat) : Rat := x - (x / t).floor * t

/-- The largest `r` below `hi` with `r ^ k ≤ n`, by bisection from the top bit down. -/
def rootFrom (k n : Nat) : Nat → Nat → Nat
  | 0, r => r
  | b + 1, r => if (r + 2 ^ b) ^ k ≤ n then rootFrom k n b (r + 2 ^ b) else rootFrom k n b r

/-- The integer `k`-th root of a number below 2^(k·bits). -/
def intRoot (k width n : Nat) : Nat := rootFrom k n width 0

end Sys2Proof.Machine
end

