-- ==== Sys2Proof/Machine/Colour.lean ====
section
/-! DEFINITION. The colour arithmetic of the stages: fetch conversions (R116, R138), the lookups (R136, R137), DECODE
(R139), MATRIX (R140), TONE (R141), GAMUT tables (R142), CALIBRATE (R143, R144), ENCODE (R148) and DITHER (R149, R150).

The built-in tables need powers and logarithms; each is computed here with 192 fraction bits and then rounded once (R135). The
constants of PQ and HLG are those of SMPTE ST 2084 and ITU-R BT.2100, to which the spec refers (PRESUMED; log 15). -/

namespace Sys2Proof.Machine

/-! ### Named functions (R133) -/

/-- Clamp to the working colour range. -/
def sat (x : Int) : Int := clampInt (-8388608) 8388607 x

/-- The position of the highest 1 bit of a positive number. -/
def msb (x : Nat) : Nat := Nat.log2 x

/-! ### Exact powers -/

/-- `x^(p/q)` for a nonnegative `x`, rounded down to 192 fraction bits; `x^(p/q)` below 2^32. -/
def powFix (x : Rat) (p q : Nat) : Rat :=
  let v := x.num.toNat ^ p * 2 ^ (192 * q) / x.den ^ p
  (intRoot q 224 v : Nat) / (2 ^ 192 : Nat)

/-- The exponential of a rational in [0, 8], by its series to 80 terms. -/
def expFix (x : Rat) : Rat :=
  ((List.range 80).foldl (fun (s : Rat × Rat) i =>
    let t := s.2 * x / ((i + 1 : Nat) : Rat)
    let t := ((t * (2 ^ 192 : Nat)).floor : Rat) / (2 ^ 192 : Nat)
    (s.1 + t, t)) (1, 1)).1

/-! ### Transfer functions -/

/-- The sRGB-style decode of R138. -/
def srgbF (x : Rat) : Rat := if x ≤ 4045 / 100000 then x / (1292 / 100) else powFix ((x + 55 / 1000) / (1055 / 1000)) 12 5

def pqC1 : Rat := 3424 / 4096
def pqC2 : Rat := 2413 / 128
def pqC3 : Rat := 2392 / 128

/-- The EOTF of ST 2084 as a fraction of 10,000 cd/m². -/
def pqEotf (v : Rat) : Rat :=
  let y := powFix v 32 2523
  powFix (max (y - pqC1) 0 / (pqC2 - pqC3 * y)) 8192 1305

/-- The inverse EOTF of ST 2084 of a fraction of 10,000 cd/m². -/
def pqInverse (y : Rat) : Rat :=
  let m := powFix y 1305 8192
  powFix ((pqC1 + pqC2 * m) / (1 + pqC3 * m)) 2523 32

/-- The inverse OETF of BT.2100 HLG, with the constants as decimals: `c` is 0.55991073, and not 0.5 - a ln(4a) (PRESUMED, log 15). -/
def hlgInverse (v : Rat) : Rat :=
  if v ≤ 1 / 2 then v * v / 3
  else (expFix ((v - 55991073 / 100000000) / (17883277 / 100000000) + 4) / expFix 4 + 28466892 / 100000000) / 12

/-! ### Fetch conversions (R116, R138) -/

/-- An `n`-bit unsigned colour code in fetch form. -/
def fetchUnsigned (n c : Nat) : Int := rneDiv (c * 2 ^ 22 : Nat) (2 ^ n - 1)

/-- An `n`-bit alpha code. -/
def fetchAlpha (n a : Nat) : Nat := (rneDiv (a * 65535 : Nat) (2 ^ n - 1)).toNat

/-- The magnitude of a finite binary16 value in units of 2^-24. -/
def halfMag (h : Nat) : Nat :=
  let e := bits h 14 10
  let m := bits h 9 0
  if e == 0 then m else (1024 + m) * 2 ^ (e - 1)

/-- A binary16 colour value in fetch form. -/
def fetchHalf (h : Nat) : Int :=
  let neg := bit h 15
  if bits h 14 10 == 31 then (if bits h 9 0 != 0 then 0 else if neg then -8388608 else 8388607)
  else
    let m := rneDiv (halfMag h : Nat) 4
    sat (if neg then -m else m)

/-- A binary16 alpha value as an alpha code. -/
def fetchHalfAlpha (h : Nat) : Nat :=
  if bits h 14 10 == 31 then (if bits h 9 0 != 0 || bit h 15 then 0 else 65535)
  else if bit h 15 then 0
  else (rneDiv (min (halfMag h) (2 ^ 24) * 65535 : Nat) (2 ^ 24)).toNat

/-- The binary16 value nearest to a magnitude of `v` units of 2^-24 × 1/`d`, ties to even (R187). -/
def toHalfMag (v d : Nat) : Nat :=
  let e := if v / d < 2 ^ 11 then 0 else msb (v / d) - 10
  let m := (rneDiv (v : Nat) (d * 2 ^ e)).toNat
  let r := if m == 2048 then (e + 1, 1024) else (e, m)
  if r.2 < 1024 then r.2 else if 30 < r.1 + 1 then 31 * 1024 else (r.1 + 1) * 1024 + (r.2 - 1024)

/-- A working colour value as the nearest binary16 value. -/
def colourToHalf (c : Int) : Nat := toHalfMag (c.natAbs * 4) 1 + if c < 0 then 32768 else 0

/-- An alpha code as the nearest binary16 value. -/
def alphaToHalf (a : Nat) : Nat := toHalfMag (a * 2 ^ 24) 65535

/-! ### Lookups -/

/-- The uniform lookup of R136; `t` gives the table's entries. -/
def ulook (t : Nat → Int) (c : Int) : Int :=
  let cc := (clampInt 0 4194304 c).toNat
  let i := cc / 1024
  let f := cc % 1024
  if i == 4096 then t 4096 else rneDiv (t i * (1024 - f : Nat) + t (i + 1) * f) 1024

/-- Point `x_k` of the segmented lookup (R137). -/
def slookPoint (k : Nat) : Nat :=
  if k ≤ 256 then k
  else
    let n := k / 256 + 7
    2 ^ n + k % 256 * 2 ^ (n - 8)

/-- The segmented lookup of R137, for 0 ≤ c ≤ 2^23 - 1. -/
def slook (t : Nat → Int) (c : Nat) : Int :=
  if c < 256 then t c
  else
    let n := msb c
    let D := 2 ^ (n - 8)
    let k := 256 * (n - 7) + (c - 2 ^ n) / D
    let f := (c - 2 ^ n) % D
    if k == 4095 || f == 0 then t k else rneDiv (t k * (D - f : Nat) + t (k + 1) * f) D

/-! ### DECODE (R139) -/

/-- Whether a `TF` and `PARAM` lie in Table 6.1. -/
def decodeValid (tf param : Nat) : Bool :=
  match tf with
  | 0 => param == 0
  | 1 => param == 0
  | 2 => param ≤ 7
  | 3 => 1 ≤ param && param ≤ 10000
  | 4 => 1000 ≤ param && param ≤ 4000
  | _ => false

/-- Entry `i` of a built-in DECODE table. -/
def decodeEntry (white tf param i : Nat) : Int :=
  let v : Rat := (i : Rat) / 4096
  let f : Rat := match tf with
    | 1 => srgbF v
    | 2 => pqEotf v * 10000 / ((white * 2 ^ param : Nat) : Rat)
    | 3 => hlgInverse v * (param : Rat) / (white : Rat)
    | _ => powFix v param 1000
  sat (rne (f * 4194304))

/-- DECODE of one channel. -/
def decodeColour (white tf param : Nat) (c : Int) : Int :=
  if tf == 0 then c else ulook (decodeEntry white tf param) c

/-! ### MATRIX (R140) -/

/-- A working value from the low 24 bits of a word. -/
def working (w : Nat) : Int := signed 24 w

/-- A pixel's three channels. -/
abbrev Rgb := Int × Int × Int

/-- MATRIX: nine coefficient words row by row, then three offset words. -/
def matrixRgb (m : List Nat) (c : Rgb) : Rgb :=
  let coef (i : Nat) : Int := signed 32 (m.getD i 0)
  let row (i : Nat) : Int :=
    sat (rneDiv (coef (3 * i) * c.1 + coef (3 * i + 1) * c.2.1 + coef (3 * i + 2) * c.2.2) (2 ^ 24) + working (m.getD (9 + i) 0))
  (row 0, row 1, row 2)

/-! ### TONE (R141) -/

/-- TONE of one channel. -/
def toneColour (t : Nat → Int) (c : Int) : Int :=
  if 0 ≤ c then slook t c.toNat else sat (-(slook t (min (-c).toNat 8388607)))

/-! ### GAMUT tables (R142) -/

/-- Tetrahedral interpolation in a 33³ table; `t` gives the three values at an index. -/
def gamutTable (t : Nat → Nat → Nat → Rgb) (c : Rgb) : Rgb :=
  let cell (x : Int) : Nat × Nat :=
    let cc := (clampInt 0 4194304 x).toNat
    let i := min (cc / 131072) 31
    (i, cc - i * 131072)
  let r := cell c.1
  let g := cell c.2.1
  let b := cell c.2.2
  let fs : List (Nat × Nat) := [(0, r.2), (1, g.2), (2, b.2)]
  let ord := fs.mergeSort fun x y => y.2 ≤ x.2
  let step (v : Nat × Nat × Nat) (a : Nat) : Nat × Nat × Nat :=
    if a == 0 then (v.1 + 1, v.2.1, v.2.2) else if a == 1 then (v.1, v.2.1 + 1, v.2.2) else (v.1, v.2.1, v.2.2 + 1)
  let a (i : Nat) : Nat := (ord.getD i (0, 0)).1
  let f (i : Nat) : Nat := (ord.getD i (0, 0)).2
  let v0 := (r.1, g.1, b.1)
  let v1 := step v0 (a 0)
  let v2 := step v1 (a 1)
  let v3 := step v2 (a 2)
  let at_ (v : Nat × Nat × Nat) : Rgb := t v.1 v.2.1 v.2.2
  let mix (p q u w : Int) : Int :=
    sat (rneDiv ((131072 - f 0 : Nat) * p + (f 0 - f 1 : Nat) * q + (f 1 - f 2 : Nat) * u + (f 2 : Nat) * w) 131072)
  let x0 := at_ v0
  let x1 := at_ v1
  let x2 := at_ v2
  let x3 := at_ v3
  (mix x0.1 x1.1 x2.1 x3.1, mix x0.2.1 x1.2.1 x2.2.1 x3.2.1, mix x0.2.2 x1.2.2 x2.2.2 x3.2.2)

/-! ### ENCODE (R148) -/

/-- Whether an ENCODE parameter word lies in Table 6.3. -/
def encodeValid (w : Nat) : Bool :=
  let p := bits w 31 16
  bits w 15 4 == 0 &&
    match bits w 3 0 with
    | 0 => 1 ≤ p && p ≤ 32768
    | 1 => p == 0
    | 2 => 1000 ≤ p && p ≤ 4000
    | _ => false

/-- Entry `k` of a built-in ENCODE table. -/
def encodeEntry (white code param k : Nat) : Int :=
  let x : Rat := (slookPoint k : Rat) / 4194304
  if code == 1 then rne (1048560 * pqInverse (min (x * (white : Rat)) 10000 / 10000))
  else rne (1048560 * powFix (min x 1) 1000 param)

/-- ENCODE of one channel with its parameter word: a code with four fraction bits. -/
def encodeColour (white w : Nat) (c : Int) : Nat :=
  let p := bits w 31 16
  match bits w 3 0 with
  | 0 => (clampInt 0 1048560 (rneDiv (c * 1048560) (p * 256))).toNat
  | code => (slook (encodeEntry white code p) (clampInt 0 8388607 c).toNat).toNat

/-! ### DITHER (R149, R150) -/

/-- The noise of a channel at a pixel. -/
def ditherNoise (port stroke x y ch : Nat) (temporal : Bool) : Int :=
  let two := 2 ^ 32
  let seed := (port * 65536 + if temporal then stroke % 65536 else 0) % two
  let v := (x + y * 65536) % two
  let z := v ^^^ ((seed + ch * 0x3C6EF375) % two * 0x7A3D5C91 % two)
  let z := (z ^^^ z / 2 ^ 16) * 0x5E2B8F13 % two
  let z := (z ^^^ z / 2 ^ 13) * 0x7A3D5C91 % two
  let z := z ^^^ z / 2 ^ 16
  ((z % 4096 + z / 4096 % 4096 : Nat) : Int) - 4095

/-- The output code of a channel at a depth of `d` bits (R150). -/
def ditherCode (d amplitude : Nat) (noise : Int) (e : Nat) : Nat :=
  let q := 16 * 2 ^ (16 - d)
  (clampInt 0 ((2 ^ d - 1 : Nat) : Int) (rneDiv ((e * 32768 : Nat) + noise * (amplitude * q : Nat)) (q * 32768))).toNat

end Sys2Proof.Machine
end

