-- ==== Sys2Proof/Machine/Operands.lean ====
section
/-! DEFINITION. The forms that operands take: the words of a ring entry and their reserved bits, words as bytes, and a register
offset that names one of several replicas. -/

namespace Sys2Proof.Machine

/-! ### Entries of a ring (Tables 8.1, 8.2, 17.2) -/

/-- Word `k` of an entry. -/
def wordOf (e : List Nat) (k : Nat) : Nat := e.getD k 0

/-- The `OP` of an entry. -/
def opOf (e : List Nat) : Nat := wordOf e 0 % 256

/-- Whether a word has no bit outside a mask. -/
def within (w mask : Nat) : Bool := w &&& mask == w

/-- Whether every reserved bit of an entry is 0: the masks are those of its words, and words past them are reserved. -/
def reservedClear (masks : List Nat) (e : List Nat) : Bool :=
  (List.range 16).all fun k => within (wordOf e k) (masks.getD k 0)

def all32 : Nat := 0xFFFFFFFF

/-- Words as little-endian bytes. -/
def wordBytes (ws : List Nat) : List Byte := ws.flatMap (leBytes 4)

/-! ### Replicated registers -/

/-- The index of the replica that lies at an offset, of `n` replicas from `base`, `stride` apart. -/
def indexIn (base stride n off : Nat) : Option Nat :=
  if base ≤ off && (off - base) % stride == 0 && (off - base) / stride < n then some ((off - base) / stride) else none

/-- The PLL whose page holds an offset. -/
def pllAt (off : Nat) : Option Nat :=
  if 0x30100 ≤ off && off < 0x30180 then some ((off - 0x30100) / 0x20)
  else if 0x30400 ≤ off && off < 0x30800 then some (4 + (off - 0x30400) / 0x20)
  else if 0x30800 ≤ off && off < 0x30820 then some 36
  else none

/-- The page of the Bellboard that holds an offset: target, plus 64 for a fast page. -/
def belPageAt (off : Nat) : Option Nat :=
  if 0x61000 ≤ off && off < 0x65000 then some ((off - 0x61000) / 0x100)
  else if 0x68000 ≤ off && off < 0x6C000 then some (64 + (off - 0x68000) / 0x100)
  else none

/-- A timing register (R42, R101, Table 2.5). -/
def isTiming (off : Nat) : Bool :=
  (Reg.STK_FRAME_PERIOD ≤ off && off ≤ Reg.STK_PACING) || (indexIn (Reg.STK_PHASE_LEN 0) 0x10 16 off).isSome

/-- The Coach port whose `CPT_CTRL` has a key. -/
def coachCtrlAt (key : Nat) : Option Nat := indexIn (Reg.CPT_CTRL 0) 0x10000 128 key

end Sys2Proof.Machine
end

