-- ==== Sys2Proof/Machine/Scene.lean ====
section
/-! DEFINITION. Layers, stacks, recipes, the phase map and the route map as their live registers spell them (R109, R115 to
R123, R208), the rules of the chapter "Layers, stacks and recipes", and the cutting of a stroke into parcels (R152 to R154).
Every definition here reads a version: a table of register values, which is the present register file, a projected one, or
the version kept for a stroke (R114). -/

namespace Sys2Proof.Machine

/-- A version of the live registers. -/
abbrev Cfg := Tab Word

/-- A register of a version. -/
def cfgReg (c : Cfg) (off : Nat) : Nat := (Tab.get resetWord c off).toNat

/-- Set a register of a version. -/
def cfgSet (c : Cfg) (p : Nat × Nat) : Cfg := Tab.set resetWord c p.1 (BitVec.ofNat 32 p.2)

/-- Set several registers of a version, in order. -/
def cfgOverlay (c : Cfg) (ps : List (Nat × Nat)) : Cfg := ps.foldl cfgSet c

/-! ### Layers -/

/-- A layer descriptor (Table 5.3). Sizes are as used, not minus 1. -/
structure Layer where
  valid : Bool
  buffered : Bool
  plate : Bool
  ring : Nat
  edgeZero : Bool
  isOpaque : Bool
  srgb : Bool
  fmt : Nat
  pitch : Nat
  w : Nat
  h : Nat
  cx : Nat
  cy : Nat
  cw : Nat
  ch : Nat
  dx : Int
  dy : Int
  dw : Nat
  dh : Nat
  warp : Nat
  buf : Nat
  deriving DecidableEq, Repr

/-- The live layer descriptor `i` of a version. -/
def layerAt (c : Cfg) (i : Nat) : Layer :=
  let r (k : Nat) : Nat := cfgReg c (Reg.PRT_LD_CTRL_LIVE i + 4 * k)
  let ctrl := r 0
  { valid := bit ctrl 0, buffered := bit ctrl 31, plate := bit ctrl 9, ring := bits ctrl 15 10, edgeZero := bit ctrl 8,
    isOpaque := bit ctrl 7, srgb := bit ctrl 5, fmt := bits ctrl 4 1, pitch := r 1,
    w := bits (r 2) 15 0 + 1, h := bits (r 2) 31 16 + 1, cx := bits (r 3) 15 0, cy := bits (r 3) 31 16,
    cw := bits (r 4) 15 0 + 1, ch := bits (r 4) 31 16 + 1, dx := signed 18 (r 5), dy := signed 18 (r 6),
    dw := bits (r 7) 15 0 + 1, dh := bits (r 7) 31 16 + 1, warp := r 8 + 2 ^ 32 * r 9, buf := r 10 + 2 ^ 32 * r 11 }

/-- Bytes per pixel times 2 (Table 5.1); 0 for a reserved code. -/
def bpp2 (fmt : Nat) : Nat := [16, 8, 8, 12, 9, 2].getD fmt 0

/-- Bytes per pixel, exact. -/
def bpp (fmt : Nat) : Rat := (bpp2 fmt : Rat) / 2

/-- The pitch of a layer keeps R117. -/
def Layer.pitchGood (l : Layer) : Bool := l.pitch % 256 == 0 && ceilDiv (l.w * bpp2 l.fmt) 2 ≤ l.pitch

/-- Whether a layer's buffer keeps R117: its start, its pitch and its end. -/
def bufferGood (l : Layer) (buf : Nat) : Bool :=
  buf % 4096 == 0 && l.pitchGood && buf + l.pitch * l.h ≤ memEnd

/-! ### Stacks and recipes -/

/-- A slot of a stack (Table 5.5). -/
structure Slot where
  en : Bool
  layer : Nat
  mode : Nat
  matteEn : Bool
  matteSlot : Nat
  opacity : Nat
  deriving DecidableEq, Repr

/-- A stage descriptor (R121). -/
structure Stage where
  type_ : Nat
  stackScope : Bool
  slots : Nat
  p : List Nat
  deriving DecidableEq, Repr

/-- A stack with its slots below `N` and its recipe up to the first NONE. -/
structure StackV where
  valid : Bool
  settle : Nat
  x : Nat
  y : Nat
  w : Nat
  h : Nat
  base : Rgb
  baseA : Nat
  slots : List Slot
  stages : List Stage
  deriving DecidableEq, Repr

/-- The stages that stand before the first NONE. -/
def untilNone : List Stage → List Stage
  | [] => []
  | s :: ss => if s.type_ == 0 then [] else s :: untilNone ss

/-- The live stack `k` of a version. -/
def stackAt (c : Cfg) (k : Nat) : StackV :=
  let b := Reg.PRT_SK_CTRL_LIVE k
  let r (o : Nat) : Nat := cfgReg c (b + o)
  let slot (j : Nat) : Slot :=
    let v := r (0x40 + 8 * j)
    { en := bit v 10, layer := bits v 9 0, mode := bits v 13 11, matteEn := bit v 21, matteSlot := bits v 20 16,
      opacity := r (0x44 + 8 * j) }
  let stage (m : Nat) : Stage :=
    let o := 0x140 + 0x40 * m
    { type_ := bits (r o) 4 0, stackScope := bit (r o) 8, slots := r (o + 4), p := (List.range 14).map fun q => r (o + 8 + 4 * q) }
  { valid := bit (r 0) 0, settle := bits (r 0) 21 16, x := bits (r 4) 15 0, y := bits (r 4) 31 16,
    w := bits (r 8) 15 0 + 1, h := bits (r 8) 31 16 + 1, base := (working (r 12), working (r 16), working (r 20)), baseA := r 24,
    slots := (List.range (bits (r 0) 12 8 + 1)).map slot, stages := untilNone ((List.range 16).map stage) }

/-- The words of a stack's registers, by displacement from `PRT_SK_CTRL` (R109). -/
def stackWords : List Nat :=
  (List.range 7).map (4 * ·) ++ (List.range 64).map (fun i => 0x40 + 4 * i) ++ (List.range 256).map (fun i => 0x140 + 4 * i)

/-- The area of a stack. -/
def StackV.area (k : StackV) : Nat := k.w * k.h

/-- The layer-scope stage of a type that covers a slot. -/
def StackV.stageFor (k : StackV) (ty j : Nat) : Option Stage :=
  k.stages.find? fun s => s.type_ == ty && !s.stackScope && bit s.slots j

/-- Whether a layer-scope stage of a type covers a slot. -/
def StackV.covers (k : StackV) (ty j : Nat) : Bool := (k.stageFor ty j).isSome

/-- The stack-scope stage of a type. -/
def StackV.stackStage (k : StackV) (ty : Nat) : Option Stage := k.stages.find? fun s => s.type_ == ty && s.stackScope

/-- Types of stages (Table 5.8). -/
def tyFetch : Nat := 1
def tyRotate : Nat := 2
def tyWarp : Nat := 3
def tyScale : Nat := 4
def tyDecode : Nat := 5
def tyMatrix : Nat := 6
def tyTone : Nat := 7
def tyBlend : Nat := 8
def tyGamut : Nat := 9
def tyCalibrate : Nat := 10
def tyEncode : Nat := 11
def tyDither : Nat := 12

/-- The rotation and mirroring of a slot (R123). -/
def StackV.rotation (k : StackV) (j : Nat) : Nat × Bool :=
  match k.stageFor tyRotate j with
  | some s => (bits (s.p.getD 0 0) 1 0, bit (s.p.getD 0 0) 2)
  | none => (0, false)

/-- The crop of a slot after orientation: `W'`, `H'` (R123). -/
def StackV.oriented (k : StackV) (j : Nat) (l : Layer) : Nat × Nat :=
  if (k.rotation j).1 % 2 == 1 then (l.ch, l.cw) else (l.cw, l.ch)

/-- The ratios r_h and r_v of a slot (R118). -/
def StackV.ratios (k : StackV) (j : Nat) (l : Layer) : Rat × Rat :=
  let o := k.oriented j l
  ((o.1 : Rat) / (l.dw : Rat), (o.2 : Rat) / (l.dh : Rat))

/-- The enabled slots of a stack, with their numbers. -/
def StackV.enabled (k : StackV) : List (Nat × Slot) :=
  ((List.range k.slots.length).zip k.slots).filter fun p => p.2.en

/-- The stacks active in a phase (Table 5.7), in ascending number. -/
def activeStacks (c : Cfg) (p : Nat) : List Nat :=
  let m := cfgReg c (Reg.PRT_PMAP_LO_LIVE p) + 2 ^ 32 * cfgReg c (Reg.PRT_PMAP_HI_LIVE p)
  (List.range 64).filter fun k => bit m k

/-! ### The route map -/

/-- An entry of a route map (Table 9.13). -/
structure Stop where
  port : Nat
  addr : Nat
  x : Nat
  y : Nat
  w : Nat
  h : Nat
  depth : Nat
  type_ : Nat
  buf : Nat
  holdOk : Bool
  splitG : Nat
  splitI : Nat
  calib : Nat
  path : Nat
  deriving DecidableEq, Repr

/-- The live route-map entry of a stop address of a port. -/
def stopAt (c : Cfg) (p s : Nat) : Option Stop :=
  let r (k : Nat) : Nat := cfgReg c (Reg.CPT_RM_CTRL_LIVE p s + 4 * k)
  let v := r 0
  if !bit v 0 then none
  else some { port := p, addr := s, x := bits (r 1) 15 0, y := bits (r 1) 31 16, w := bits (r 2) 15 0 + 1, h := bits (r 2) 31 16 + 1,
              depth := bits v 3 2, type_ := bits v 6 4, buf := bits v 12 8, holdOk := bit v 1, splitG := bits v 18 16 + 1,
              splitI := bits v 21 19, calib := r 3, path := r 4 }

/-- The enabled stops of a port, in ascending address. -/
def portStops (c : Cfg) (p : Nat) : List Stop := (List.range 64).filterMap (stopAt c p)

/-- The enabled stops of all Coach ports. -/
def Dev.allStops (d : Dev) (c : Cfg) : List Stop := (d.portsOf 1).flatMap (portStops c)

/-- The pixel depth in bits per component and per pixel. -/
def Stop.d (s : Stop) : Nat := [16, 12, 10].getD s.depth 16
def Stop.pixelBits (s : Stop) : Nat := 3 * s.d

/-- The lines that this entry carries for its stop (R208). -/
def Stop.lines (s : Stop) : List Nat := (List.range s.h).filter fun l => l % s.splitG == s.splitI

/-- The pixels that this entry carries for its stop in a stroke. -/
def Stop.pixels (s : Stop) : Nat := s.lines.length * s.w

/-- Whether a stop shows a canvas pixel, and whether this entry carries it. -/
def Stop.shows (s : Stop) (x y : Nat) : Bool := s.x ≤ x && x < s.x + s.w && s.y ≤ y && y < s.y + s.h
def Stop.carries (s : Stop) (x y : Nat) : Bool := s.shows x y && (y - s.y) % s.splitG == s.splitI

/-- Whether two entries are members of one split stop. -/
def Stop.sameSplit (a b : Stop) : Bool :=
  1 < a.splitG && a.splitG == b.splitG && a.addr == b.addr && a.port != b.port && a.splitI != b.splitI &&
  a.x == b.x && a.y == b.y && a.w == b.w && a.h == b.h && a.depth == b.depth && a.type_ == b.type_ && a.buf == b.buf &&
  a.holdOk == b.holdOk && a.calib == b.calib

/-- The half of the device that holds a port: ports 0 to 63 west, 64 to 127 east (Table 1.1). -/
def portHalf (p : Nat) : Nat := p / 64

def Stop.overlaps (a b : Stop) : Bool := !(a.x + a.w ≤ b.x || b.x + b.w ≤ a.x || a.y + a.h ≤ b.y || b.y + b.h ≤ a.y)

/-- Whether a rectangle lies inside an output region, and in which. -/
def Dev.regionHolding (d : Dev) (x y w h : Nat) : Option Nat :=
  d.wb.regions.findIdx? fun r => r.x ≤ x && x + w ≤ r.x + r.w && r.y ≤ y && y + h ≤ r.y + r.h

/-- The entries of split groups that lack members (R215). -/
def Dev.incompleteSplits (d : Dev) (c : Cfg) : List Stop :=
  let ss := d.allStops c
  ss.filter fun s => 1 < s.splitG && (ss.filter fun t => s.sameSplit t).length + 1 != s.splitG

/-- Two entries could be members of one split stop: of one address and one half, of two ports and with two places among as many members. -/
def Stop.mates (a b : Stop) : Bool :=
  a.addr == b.addr && a.splitG == b.splitG && a.port != b.port && a.splitI != b.splitI && portHalf a.port == portHalf b.port

/-- R208 but for the completeness of split groups: two entries that overlap, both of groups that lack members, and that could be members of
one stop, are a completeness failure, as while the members of a group are changed in place one by one (DEDUCED, log 58). -/
def Dev.routeGood (d : Dev) (c : Cfg) : Bool :=
  let ss := d.allStops c
  let open_ := d.incompleteSplits c
  ss.all (fun s => s.depth ≤ 2 && 2 ≤ s.buf && s.buf ≤ 16 && (d.regionHolding s.x s.y s.w s.h).isSome &&
    s.splitI < s.splitG && 65536 * 8 ≤ (s.h / s.splitG) * s.w * s.pixelBits) &&
  ((List.range ss.length).zip ss).all fun p => (ss.take p.1).all fun q =>
    !(q.overlaps p.2) || (q.sameSplit p.2 && portHalf q.port == portHalf p.2.port) || (open_.contains q && open_.contains p.2 && q.mates p.2)

/-- What the route map gives a pixel: calibration index, stop type, depth in bits and Coach port (R145, R149). -/
def Dev.routeOfPixel (d : Dev) (c : Cfg) (x y : Nat) : Nat × Nat × Nat × Nat :=
  match (d.allStops c).find? (·.shows x y) with
  | some s => (s.calib, s.type_, s.d, s.port)
  | none => (0, 0, 16, 0)

/-! ### Tables that a recipe names -/

/-- A 256 B-aligned table address in two parameter words. -/
def tableAddr (s : Stage) (q : Nat) : Nat := s.p.getD q 0 + 2 ^ 32 * s.p.getD (q + 1) 0

/-- The size of a warp mesh (R124). -/
def meshSize (l : Layer) : Nat := 4 * (ceilDiv l.dw 64 + 1) * (ceilDiv l.dh 64 + 1)

/-- The stops whose pixels lie inside a stack's rectangle. -/
def StackV.stopsOf (k : StackV) (ss : List Stop) : List Stop :=
  ss.filter fun s => !(s.x + s.w ≤ k.x || k.x + k.w ≤ s.x || s.y + s.h ≤ k.y || k.y + k.h ≤ s.y)

/-- The entries of a tile matrix table: `e_max` + 1 (R122). `e_max` is at least 0 where a pixel of the rectangle has no
stop, and with no stop at all. -/
def StackV.tileEntries (k : StackV) (ss : List Stop) : Nat := (k.stopsOf ss).foldl (fun m s => max m (s.calib + 1)) 1

/-- The tables of a stack apart from those of CALIBRATE, as address and size (R122, R132). -/
def StackV.plainTables (k : StackV) (c : Cfg) : List (Nat × Nat) :=
  let stages := k.stages.filterMap fun s =>
    if s.type_ == tyScale then some (tableAddr s 0, 1792)
    else if s.type_ == tyTone then some (tableAddr s 0, if bit (s.p.getD 2 0) 0 then 49152 else 16384)
    else if s.type_ == tyGamut && bit (s.p.getD 0 0) 0 then some (tableAddr s 1, 431244)
    else none
  let meshes := k.enabled.filterMap fun e =>
    if k.covers tyWarp e.1 then some ((layerAt c e.2.layer).warp, meshSize (layerAt c e.2.layer)) else none
  stages ++ meshes

/-- The addresses of all tables that a stack's recipe names (R146). -/
def StackV.tableNames (k : StackV) (c : Cfg) : List Nat :=
  (k.plainTables c).map (·.1) ++ (k.stages.filter (·.type_ == tyCalibrate)).flatMap fun s => [tableAddr s 0, tableAddr s 2]

/-- The tables that admission charges per crew (R132): a tile matrix table is charged 48 B per stop of the rectangle, the
members of a split stop counting once. -/
def StackV.chargedTables (k : StackV) (c : Cfg) (ss : List Stop) : List (Nat × Nat) :=
  let stops := ((k.stopsOf ss).filter fun s => s.splitI == 0).length
  k.plainTables c ++ (k.stages.filter (·.type_ == tyCalibrate)).map fun s => (tableAddr s 0, 48 * stops)

/-- The extents of memory that a stack's recipe names (R122). -/
def StackV.tableExtents (k : StackV) (c : Cfg) (ss : List Stop) : List (Nat × Nat) :=
  k.plainTables c ++ (k.stages.filter (·.type_ == tyCalibrate)).flatMap fun s =>
    [(tableAddr s 0, 48 * k.tileEntries ss), (tableAddr s 2, s.p.getD 4 0 * k.h)]

/-- A table address counts once, at the largest size that anything names it with (R132). -/
def tableBytes (ts : List (Nat × Nat)) : Nat :=
  ((ts.map (·.1)).eraseDups.map fun a => ts.foldl (fun m t => if t.1 == a then max m t.2 else m) 0).foldl (· + ·) 0

/-! ### The rules of a layer, a stack, a recipe and the phase map -/

/-- The position of a stage in the canonical order (Table 5.8); none for an invalid one. -/
def stagePosition (s : Stage) : Option Nat :=
  if s.stackScope then
    match s.type_ with
    | 8 => some 8 | 6 => some 9 | 7 => some 10 | 9 => some 11 | 10 => some 12 | 11 => some 13 | 12 => some 14
    | _ => none
  else if 1 ≤ s.type_ && s.type_ ≤ 7 then some s.type_ else none

/-- The bits that the parameter words of a stage may use. -/
def stageMasks (s : Stage) : List Nat :=
  let all := 0xFFFFFFFF
  let off := 0xFFFFFF
  let lo := 0xFFFFFF00
  let hi := 0x1F
  match s.type_ with
  | 2 => [7]
  | 4 => [lo, hi]
  | 5 => [0xF, all]
  | 6 => List.replicate 9 all ++ [off, off, off]
  | 7 => [lo, hi, 1]
  | 9 => if bit (s.p.getD 0 0) 0 then [1, lo, hi] else 1 :: List.replicate 9 all ++ [off, off, off]
  | 10 => [lo, hi, lo, hi, all]
  | 11 => List.replicate 8 all
  | 12 => [0xF1]
  | _ => []

/-- Whether a stage's parameters are defined ones (R122, R139, R144, R148). -/
def stageParamsGood (k : StackV) (s : Stage) : Bool :=
  let m := stageMasks s
  ((List.range 14).all fun q => within (s.p.getD q 0) (m.getD q 0)) &&
    match s.type_ with
    | 5 => decodeValid (s.p.getD 0 0) (s.p.getD 1 0)
    | 10 => s.p.getD 4 0 % 256 == 0 && 3 * k.w ≤ s.p.getD 4 0
    | 11 => (List.range 8).all fun q => encodeValid (s.p.getD q 0)
    | _ => true

/-- Whether a list of numbers never falls. -/
def risingBy : List Nat → Bool
  | a :: b :: l => a ≤ b && risingBy (b :: l)
  | _ => true

/-- The window of a slot in the line store keeps R128, for parcels of `ph` lines. -/
def StackV.windowGood (k : StackV) (ph j : Nat) (l : Layer) : Bool :=
  let r := k.ratios j l
  let om := if k.covers tyWarp j then 2 else 0
  let ww := ceilNat (64 * r.1) + 7 + om * ceilNat (32 * r.1)
  let hw := ceilNat ((ph : Rat) * r.2) + 5 + om * ceilNat (32 * r.2)
  ww * hw * bpp2 l.fmt ≤ 2 * 98304

/-- A valid layer keeps R115, R117 and R118, as far as its descriptor shows it. A position outside the range of Table 5.3 that its field
holds is taken while the rectangle keeps R118 (DESIGN CHOICE, log 57). -/
def layerGood (l : Layer) : Bool :=
  l.pitchGood &&
  l.fmt ≤ 5 && (!l.srgb || l.fmt == 2) && l.cx + l.cw ≤ l.w && l.cy + l.ch ≤ l.h &&
  -65536 ≤ l.dx && l.dx + (l.dw : Int) - 1 ≤ 131071 && -65536 ≤ l.dy && l.dy + (l.dh : Int) - 1 ≤ 131071

/-- A ratio lies between 1/8 and 4 (R118). -/
def ratioGood (a b : Nat) : Bool := b ≤ 8 * a && a ≤ 4 * b

/-- The rules of one enabled slot of a stack that a valid one and one that a stack change names must keep (R119, R122, R128,
R187). -/
def StackV.slotNamedGood (k : StackV) (c : Cfg) (ph : Nat) (j : Nat) (s : Slot) : Bool :=
  let l := layerAt c s.layer
  let o := k.oriented j l
  let matte := s.mode == 5
  let m := k.slots.getD s.matteSlot ⟨false, 0, 0, false, 0, 0⟩
  s.mode ≤ 5 && (l.fmt == 5) == matte &&
  (!matte || !([tyDecode, tyMatrix, tyTone].any fun t => k.covers t j)) &&
  (!s.matteEn || (s.matteSlot < k.slots.length && m.en && m.mode == 5 && (decide (j < k.settle) == decide (s.matteSlot < k.settle)))) &&
  (!(o.1 != l.dw || o.2 != l.dh || k.covers tyWarp j) || k.covers tyScale j) &&
  (!(l.srgb && k.covers tyDecode j)) && (!(decide (j < k.settle) && l.plate)) && k.windowGood ph j l

/-- The rules of one enabled slot of a valid stack: its layer is valid too, and keeps R118. Its orientation is the slot's, so a valid layer
that no enabled slot of a valid stack names has none and is held to no ratio (DESIGN CHOICE, log 57). -/
def StackV.slotGood (k : StackV) (c : Cfg) (ph : Nat) (j : Nat) (s : Slot) : Bool :=
  let l := layerAt c s.layer
  let o := k.oriented j l
  l.valid && layerGood l && ratioGood o.1 l.dw && ratioGood o.2 l.dh && k.slotNamedGood c ph j s

/-- The recipe of a stack keeps R121 and R122, its tables apart. At most one layer-scope stage of each type covers a slot, a disabled slot too
(R122, R119; DESIGN CHOICE, log 57). -/
def StackV.recipeGood (k : StackV) : Bool :=
  let n := k.slots.length
  let count (p : Nat) : Nat := (k.stages.filter fun s => stagePosition s == some p).length
  let first := k.stages.headD ⟨0, false, 0, []⟩
  k.stages.all (fun s => (stagePosition s).isSome && stageParamsGood k s &&
    (if s.stackScope then s.slots == 0 else s.slots < 2 ^ n)) &&
  risingBy (k.stages.filterMap stagePosition) &&
  count 1 == 1 && first.type_ == tyFetch && first.slots == 2 ^ n - 1 && count 8 == 1 && count 13 == 1 &&
  [9, 10, 11, 12, 14].all (fun p => count p ≤ 1) &&
  (List.range n).all fun j => (List.range 8).all fun ty =>
    (k.stages.filter fun s => s.type_ == ty && !s.stackScope && bit s.slots j).length ≤ 1

/-- A stack that is valid, or that a stack change names, keeps its rules for parcels of `ph` lines: `SETTLE`, the recipe, its slots
and tables (R119, R122, R128, R187). -/
def StackV.namedGood (k : StackV) (c : Cfg) (ph : Nat) (ss : List Stop) : Bool :=
  k.settle ≤ k.slots.length && k.recipeGood && k.enabled.all (fun e => k.slotNamedGood c ph e.1 e.2) &&
  (k.tableExtents c ss).all fun t => t.1 + t.2 ≤ memEnd

/-- A stack keeps every rule: a valid one also lies inside one output region, and its slots name valid layers (R119). The slots of one
that is not are held to no ratio (DESIGN CHOICE, log 57). -/
def Dev.stackGood (d : Dev) (c : Cfg) (ph : Nat) (ss : List Stop) (k : StackV) : Bool :=
  k.namedGood c ph ss &&
  (!k.valid || ((d.regionHolding k.x k.y k.w k.h).isSome && k.enabled.all fun e => k.slotGood c ph e.1 e.2))

/-- The windows of the valid stacks of a version keep R128 for parcels of `ph` lines. -/
def windowsGood (c : Cfg) (ph : Nat) : Bool :=
  (List.range 64).all fun i =>
    let k := stackAt c i
    !k.valid || k.enabled.all fun e => k.windowGood ph e.1 (layerAt c e.2.layer)

/-- Height and width of parcels (R152). -/
def parcelHeight (c : Cfg) : Nat := bits (cfgReg c Reg.PRT_PARCEL_LIVE) 19 16 + 1
def parcelWidth (c : Cfg) : Nat := 64 * (bits (cfgReg c Reg.PRT_PARCEL_LIVE) 3 0 + 1)

/-- The first phase below `n` whose active stacks break R120. -/
def Dev.badPhase (d : Dev) (c : Cfg) (n : Nat) : Option Nat :=
  (List.range n).find? fun p =>
    let ks := (activeStacks c p).map (stackAt c)
    let inside (k : StackV) (r : Region) : Bool := r.x ≤ k.x && k.x + k.w ≤ r.x + r.w && r.y ≤ k.y && k.y + k.h ≤ r.y + r.h
    let apart2 (a b : StackV) : Bool := a.x + a.w ≤ b.x || b.x + b.w ≤ a.x || a.y + a.h ≤ b.y || b.y + b.h ≤ a.y
    let disjoint := ((List.range ks.length).zip ks).all fun q => (ks.take q.1).all (apart2 q.2)
    let filled := d.wb.regions.all fun r => ((ks.filter (inside · r)).foldl (fun a k => a + k.area) 0) == r.w * r.h
    !(ks.all (·.valid) && ks.all (fun k => d.wb.regions.any (inside k)) && disjoint && filled)

/-! ### Parcels -/

/-- A parcel as cut: region, number, stack and rectangle (R153, R154). -/
structure Cut where
  region : Nat
  number : Nat
  stack : Nat
  x : Nat
  y : Nat
  w : Nat
  h : Nat
  deriving DecidableEq, Repr

/-- The parcels of one stack, rows from the top and left to right (R153), with number 0. -/
def cutStack (c : Cfg) (region k : Nat) (s : StackV) : List Cut :=
  let ph := parcelHeight c
  let n := ceilDiv s.w (parcelWidth c)
  let q := s.w / n
  let r := s.w % n
  (List.range (ceilDiv s.h ph)).flatMap fun row => (List.range n).map fun i =>
    ⟨region, 0, k, s.x + i * q + min i r, s.y + row * ph, if i < r then q + 1 else q, min ph (s.h - row * ph)⟩

/-- The parcels of the stacks active in a phase, numbered within each region from 0 (R154). -/
def Dev.cutPhase (d : Dev) (c : Cfg) (p : Nat) : List Cut :=
  (List.range d.wb.regions.length).flatMap fun r =>
    let cuts := (activeStacks c p).flatMap fun k =>
      let s := stackAt c k
      if d.regionHolding s.x s.y s.w s.h == some r then cutStack c r k s else []
    ((List.range cuts.length).zip cuts).map fun q => { q.2 with number := q.1 }

/-- The number of parcels of a phase, without listing them. -/
def parcelCount (c : Cfg) (p : Nat) : Nat :=
  (activeStacks c p).foldl (fun a k =>
    let s := stackAt c k
    a + ceilDiv s.w (parcelWidth c) * ceilDiv s.h (parcelHeight c)) 0

/-- The parcel shape keeps R152. -/
def shapeGood (c : Cfg) : Bool := 1024 ≤ parcelHeight c * parcelWidth c

/-- Every rule of the chapter for a version: the parcel shape, every valid stack and those that a stack change names, the phase map
of `mapped` phases and the parcel limit in `n` phases (R110, R119, R120, R122, R128, R152, R154). -/
def Dev.sceneGood (d : Dev) (c : Cfg) (mapped n : Nat) (named : List Nat) : Bool :=
  let ss := d.allStops c
  let ks := ((List.range 64).filter fun i => named.contains i || (stackAt c i).valid).map (stackAt c)
  shapeGood c && (((List.range 1024).map (layerAt c)).filter (·.valid)).all layerGood && ks.all (d.stackGood c (parcelHeight c) ss) && (d.badPhase c mapped).isNone &&
  (List.range n).all fun p => parcelCount c p ≤ 131072

end Sys2Proof.Machine
end

