-- ==== Sys2Proof/Machine/Rings.lean ====
section
/-! DEFINITION. The ring engine: geometry and cursors (R376, R377, R481), command rings and their completions (R379 to
R385), record rings (R386, R387), enabling (R390) and marks (R391). -/

namespace Sys2Proof.Machine

/-- The ring classes (Table 3.6). -/
def classSubmit : Nat := 1
def classComplete : Nat := 2
def classBlit : Nat := 3
def classTally : Nat := 4
def classTelemetry : Nat := 5
def classSlowpath : Nat := 6
def classMirror : Nat := 7
def classTrunk : Nat := 8
def classGeneral : Nat := 9

/-- The completion status codes (Table 17.14). -/
def stDone : Nat := 0
def stState : Nat := 1
def stBudget : Nat := 2
def stLate : Nat := 3
def stMalformed : Nat := 4
def stOverlap : Nat := 5
def stMarkLost : Nat := 6
def stFenceTimeout : Nat := 7
def stAborted : Nat := 8

/-- Whether a class is a record ring (Table 17.1). -/
def isRecordClass (c : Nat) : Bool := c == classComplete || c == classMirror || c == classGeneral

/-- The number of entries of a ring (R376). -/
def Dev.ringN (d : Dev) (r : Nat) : Nat := 2 ^ d.fld (Reg.RNG_RS_CTRL r) Fld.RNG_RS_CTRL_SIZELOG

/-- The base of a ring's area. -/
def Dev.ringBase (d : Dev) (r : Nat) : Nat := d.pair (Reg.RNG_RS_BASE_LO r) (Reg.RNG_RS_BASE_HI r)

/-- Whether a ring's area lies in host memory. -/
def Dev.ringHost (d : Dev) (r : Nat) : Bool := d.flag (Reg.RNG_RS_CTRL r) Fld.RNG_RS_CTRL_HOST

/-- Whether a ring is enabled. -/
def Dev.ringEn (d : Dev) (r : Nat) : Bool := (d.ringDef r).isSome && d.flag (Reg.RNG_RS_CTRL r) Fld.RNG_RS_CTRL_EN

def Dev.ringProd (d : Dev) (r : Nat) : Nat := d.reg (Reg.RNG_RS_PROD r)
def Dev.ringCons (d : Dev) (r : Nat) : Nat := d.reg (Reg.RNG_RS_CONS r)
def Dev.ringRetire (d : Dev) (r : Nat) : Nat := d.reg (Reg.RNG_RS_RETIRE r)

/-- The difference of two cursors modulo 2^32 (R377). -/
def cursorSub (a b : Nat) : Nat := (a + 2 ^ 32 - b % 2 ^ 32) % 2 ^ 32

/-- Whether cursor `a` is at or beyond cursor `b` (R377). -/
def cursorBeyond (a b : Nat) : Bool := cursorSub a b < 2 ^ 31

/-- The occupancy of a ring (R377). -/
def Dev.ringOcc (d : Dev) (r : Nat) : Nat :=
  if isRecordClass (d.ringClass r) then cursorSub (d.ringProd r) (d.ringCons r)
  else cursorSub (d.ringProd r) (d.ringRetire r)

/-- The state of a ring beside its registers. -/
def Dev.ringSt (d : Dev) (r : Nat) : RingSt := d.rings.get (fun _ => {}) r

def Dev.setRingSt (d : Dev) (r : Nat) (x : RingSt) : Dev := { d with rings := d.rings.set (fun _ => {}) r x }

/-- `BUSY`: entries read and not retired (Table 17.9). -/
def Dev.ringBusy (d : Dev) (r : Nat) : Bool :=
  !isRecordClass (d.ringClass r) && d.ringCons r != d.ringRetire r

/-- The address of the entry that an index names (R377). -/
def Dev.ringAddr (d : Dev) (r i : Nat) : Nat := d.ringBase r + i % d.ringN r * 64

/-- Read bytes of a ring's area, in device or host memory. -/
def Dev.ringRead (d : Dev) (r a n : Nat) : List Byte := if d.ringHost r then d.hostRead a n else d.memRead a n

/-- Write bytes of a ring's area, in device or host memory. -/
def Dev.ringWrite (d : Dev) (r a : Nat) (bs : List Byte) : Dev := if d.ringHost r then d.hostPut a bs else d.memWrite a bs

/-- The sixteen words of an entry. -/
def Dev.ringEntry (d : Dev) (r i : Nat) : List Nat :=
  let bs := d.ringRead r (d.ringAddr r i) 64
  (List.range 16).map fun k => leNat ((bs.drop (4 * k)).take 4)

/-- Write the whole cursor line (R481). -/
def Dev.writeCursorLine (d : Dev) (r : Nat) : Dev :=
  d.ringWrite r (d.ringBase r + d.ringN r * 64)
    (wordBytes [d.ringProd r, d.ringCons r, if isRecordClass (d.ringClass r) then 0 else d.ringRetire r] ++ List.replicate 52 0)

/-- Set a bit of `RNG_RS_EVENT`; with `NOTIFY_EVENT` the ring raises its source as the bit sets (R391). -/
def Dev.ringEvent (d : Dev) (r : Nat) (f : Fld) : Dev :=
  if d.flag (Reg.RNG_RS_EVENT r) f then d
  else (d.setFlag (Reg.RNG_RS_EVENT r) f).raiseIf (d.flag (Reg.RNG_RS_CTRL r) Fld.RNG_RS_CTRL_NOTIFY_EVENT) r

/-- The mark of a ring whose occupancy was `old` (R391). -/
def Dev.ringMark (d : Dev) (r old : Nat) : Dev :=
  let level := d.fld (Reg.RNG_RS_MARK r) Fld.RNG_RS_MARK_LEVEL
  if level != 0 && crossesUp old (d.ringOcc r) level then
    (d.count (Reg.RNG_RS_MARK_CNT r)).ringEvent r Fld.RNG_RS_EVENT_MARK
  else d

/-! ### Command rings -/

/-- Whether a command ring has an entry to read: it is enabled, its area holds posted entries and no reset is flushing
(R379, R456). -/
def Dev.ringReadable (d : Dev) (r : Nat) : Bool :=
  d.ringEn r && !isRecordClass (d.ringClass r) && d.ringProd r != d.ringCons r && !d.boot.flush && d.sdp.power != 3

/-- The consumer takes a command of `n` entries: `CONS` advances past them (R381). -/
def Dev.ringTake (d : Dev) (r n : Nat) : Dev :=
  let st := d.ringSt r
  let i := d.ringCons r
  let d := if d.ringHost r then d else d.memWake ((List.range n).map fun k => d.ringAddr r (i + k) / 256)
  (d.setReg (Reg.RNG_RS_CONS r) ((i + n) % 2 ^ 32)).setRingSt r { st with open_ := st.open_ ++ [⟨i, n, false⟩] }

/-- The completed commands that lead a list, as the entries they free, and the commands that remain (R382). -/
def leadDone : List RingCmd → Nat × List RingCmd
  | [] => (0, [])
  | c :: cs => if c.done then ((leadDone cs).1 + c.entries, (leadDone cs).2) else (0, c :: cs)

/-- What a completion record says (Table 17.2). -/
structure Completion where
  op : Nat
  status : Nat
  tag : Nat
  stroke : Nat
  detail : Nat := 0
  extra : Nat := 0
  deriving DecidableEq, Repr

/-- The eight words of a completion record (Table 17.2). -/
def Completion.words (c : Completion) : List Nat :=
  [0xCE + c.op % 256 * 2 ^ 8 + c.status * 2 ^ 16, c.tag, c.stroke % 2 ^ 32, c.stroke / 2 ^ 32 % 2 ^ 16,
   c.detail % 2 ^ 32, c.detail / 2 ^ 32 % 2 ^ 32, c.extra % 2 ^ 32, c.extra / 2 ^ 32 % 2 ^ 32]

/-- Complete the command whose first entry has index `i`: steps 3 to 5 of R382, after its effects and fences. The blocks of its
writes are checked by `Dev.ringComplete`. -/
def Dev.putCompletion (d : Dev) (r i : Nat) (c : Completion) : Dev :=
  let d := d.ringWrite r (d.ringAddr r i) (wordBytes c.words)
  let st := d.ringSt r
  let marked := st.open_.map fun e => if e.index == i then { e with done := true } else e
  let lead := leadDone marked
  let d := d.setRingSt r { st with open_ := lead.2 }
  let d := if lead.1 == 0 then d
    else (d.setReg (Reg.RNG_RS_RETIRE r) ((d.ringRetire r + lead.1) % 2 ^ 32)).writeCursorLine r
  let d := d.countWrap (Reg.RNG_RS_DONE_CNT r)
  d.raiseIf (d.flag (Reg.RNG_RS_CTRL r) Fld.RNG_RS_CTRL_NOTIFY) r

/-- Bind a ring to the first consumer register that names it (R381): whether `who` may read it, and the device, on
whose ring `SHARED` latches when another consumer holds it. -/
def Dev.ringBind (d : Dev) (r who : Nat) : Bool × Dev :=
  let st := d.ringSt r
  match st.bound with
  | none => (true, d.setRingSt r { st with bound := some who })
  | some w => if w == who then (true, d) else (false, d.ringEvent r Fld.RNG_RS_EVENT_SHARED)

/-- End the binding of a ring to a consumer (R381). -/
def Dev.ringUnbind (d : Dev) (r who : Nat) : Dev :=
  let st := d.ringSt r
  if st.bound == some who then d.setRingSt r { st with bound := none } else d

/-! ### Record rings -/

/-- Write a record of whole entries (R386), or drop it whole (R387): whether it was written, and the device. The blocks of its
writes are checked by `Dev.record`. -/
def Dev.putRecord (d : Dev) (r : Nat) (entries : List (List Byte)) : Bool × Dev :=
  if (d.ringDef r).isNone || !isRecordClass (d.ringClass r) then (false, d)
  else
    let old := d.ringOcc r
    if !d.ringEn r || d.ringN r < old + entries.length then
      (false, ((d.count (Reg.RNG_RS_DROP_CNT r)).count Reg.RNG_DROP_CNT).ringEvent r Fld.RNG_RS_EVENT_DROP)
    else
      let p := d.ringProd r
      let d := ((List.range entries.length).zip entries).foldl (fun d e => d.ringWrite r (d.ringAddr r (p + e.1)) e.2) d
      let d := (d.setReg (Reg.RNG_RS_PROD r) ((p + entries.length) % 2 ^ 32)).writeCursorLine r
      let d := d.countWrap (Reg.RNG_RS_DONE_CNT r)
      let d := d.raiseIf (d.flag (Reg.RNG_RS_CTRL r) Fld.RNG_RS_CTRL_NOTIFY) r
      (true, d.ringMark r old)

/-! ### Register writes of a ring -/

/-- The RNG reason codes. -/
def rngCursorRange : Nat := 1
def rngBusy : Nat := 2
def rngPlace : Nat := 3

/-- A write to `PROD` (R379, R380). -/
def Dev.writeProd (d : Dev) (r v : Nat) : Dev :=
  if isRecordClass (d.ringClass r) then d
  else if !d.ringEn r || (cursorBeyond v (d.ringProd r) && cursorSub v (d.ringRetire r) ≤ d.ringN r) then
    let old := d.ringOcc r
    (d.setReg (Reg.RNG_RS_PROD r) v).ringMark r old
  else
    let d := if d.flag Reg.RNG_EVENT Fld.RNG_EVENT_PROD_ERR then d
      else (d.setFlag Reg.RNG_EVENT Fld.RNG_EVENT_PROD_ERR).setReg Reg.RNG_PROD_ERR_RING r
    (d.count Reg.RNG_PROD_ERR_CNT).refuse Reg.RNG_BLKID rngCursorRange

/-- A write to `CONS` of a record ring (R387); the cursor of a command ring is read-only. -/
def Dev.writeCons (d : Dev) (r v : Nat) : Dev :=
  if !isRecordClass (d.ringClass r) then d
  else if cursorBeyond v (d.ringCons r) && cursorBeyond (d.ringProd r) v then d.setReg (Reg.RNG_RS_CONS r) v
  else d.refuse Reg.RNG_BLKID rngCursorRange

/-- Whether the area of a ring is well placed for its present registers (R376, R390). -/
def Dev.ringPlaced (d : Dev) (r : Nat) : Bool :=
  let c := d.reg (Reg.RNG_RS_CTRL r)
  let log := Fld.RNG_RS_CTRL_SIZELOG.get c
  4 ≤ log && log ≤ Fld.RNG_RS_CTRL_MAXLOG.get c &&
    (d.ringHost r || d.inPart 0 (d.ringBase r) (d.ringN r * 64 + 64))

/-- Sets that do not count as read stay on their rings; their windows and reservations go. -/
def Dev.unread (d : Dev) (xs : List SetRead) : Dev :=
  let ids := xs.filterMap fun x => x.set.map (·.id)
  { d with flp := { d.flp with
    reading := d.flp.reading.filter fun x => !xs.contains x, windows := d.flp.windows.filter fun w => !ids.contains w.set } }

/-- A ring is no longer enabled: what it holds unread is read no further (R390), a set that is judged and does not count as read among it
(R313). -/
def Dev.ringStops (d : Dev) (r : Nat) : Dev := d.unread (d.flp.reading.filter (·.ring == r))

/-- A write to `RNG_RS_CTRL` (R390). `SIZELOG`, of Reset entry WB, can be written, as R390 and Table 17.9 have it (DEDUCED against R81,
log 30). -/
def Dev.writeRingCtrl (d : Dev) (r v : Nat) : Dev :=
  let k := Reg.RNG_RS_CTRL r
  let old := d.reg k
  let en := bit old 0
  let locked := en || d.ringBusy r
  let moves := Fld.RNG_RS_CTRL_SIZELOG.get v != Fld.RNG_RS_CTRL_SIZELOG.get old ||
    Fld.RNG_RS_CTRL_HOST.get v != Fld.RNG_RS_CTRL_HOST.get old
  let keep (x : Nat) : Nat := Fld.RNG_RS_CTRL_HOST.put (Fld.RNG_RS_CTRL_SIZELOG.put x (Fld.RNG_RS_CTRL_SIZELOG.get old))
    (Fld.RNG_RS_CTRL_HOST.get old)
  let d1 := if locked && moves then (d.genericWrite k (keep v)).refuse Reg.RNG_BLKID rngBusy else d.genericWrite k v
  if bit v 0 && !en then
    if d1.ringPlaced r then
      let d1 := d1.setRingSt r { d1.ringSt r with open_ := [] }
      if isRecordClass (d1.ringClass r) then d1.setReg (Reg.RNG_RS_PROD r) (d1.ringCons r)
      else (d1.setReg (Reg.RNG_RS_CONS r) (d1.ringProd r)).setReg (Reg.RNG_RS_RETIRE r) (d1.ringProd r)
    else d.refuse Reg.RNG_BLKID rngPlace
  else if !bit v 0 && en then d1.ringStops r
  else d1

/-- A write to a `BASE` register of a ring (R390). -/
def Dev.writeRingBase (d : Dev) (r key v : Nat) : Dev :=
  let d1 := d.genericWrite key v
  if (d.ringEn r || d.ringBusy r) && d1.reg key != d.reg key then d.refuse Reg.RNG_BLKID rngBusy else d1

/-! ### The commands -/

def execConsWrite (ring : Fin 16384) (cons : Word) (s : State) : Host.Outcome State Fault Refusal :=
  s.apply fun d => d.onWrite (Reg.RNG_RS_CONS ring) fun d => d.writeCons ring cons.toNat

/-- A write to `RNG_RS_CTRL` that sets `EN`. -/
def execRingEnable (ring : Fin 16384) (data : Word) (s : State) : Host.Outcome State Fault Refusal :=
  s.apply fun d => d.onWrite (Reg.RNG_RS_CTRL ring) fun d => d.writeRingCtrl ring (data.toNat ||| 1)

/-- A write to `RNG_RS_CTRL` that clears `EN`. -/
def execRingDisable (ring : Fin 16384) (data : Word) (s : State) : Host.Outcome State Fault Refusal :=
  s.apply fun d => d.onWrite (Reg.RNG_RS_CTRL ring) fun d => d.writeRingCtrl ring (data.toNat / 2 * 2)

end Sys2Proof.Machine
end

