-- ==== Sys2Proof/Machine/DepLog.lean ====
section
/-! DEFINITION. The error log (R299), the SECDED error counts (R295), block failures at the controllers, reserved memory (R24, R291), and
reads and writes of software memory under the block check (R25, R279, R280). -/

namespace Sys2Proof.Machine

/-- The eight words of a log entry (Table 12.5). -/
def LogEntry.words (e : LogEntry) (seq : Nat) : List Nat :=
  [e.kind % 256 + e.outcome % 16 * 2 ^ 8 + (if e.unavailable then 2 ^ 12 else 0) + (if e.escaped then 2 ^ 13 else 0)
     + e.unit_ % 2 ^ 16 * 2 ^ 16,
   e.stroke % 2 ^ 32, e.stroke / 2 ^ 32 % 2 ^ 16 + e.region % 4 * 2 ^ 16, e.parcel % 2 ^ 32,
   e.addr % 2 ^ 32, e.addr / 2 ^ 32 % 32, e.pcv % 2 ^ 32, seq]

/-- Word `k` of the log entry that `DEP_LOG_INDEX` selects; 0 for one not written or overwritten (R299). -/
def Dev.logWord (d : Dev) (k : Nat) : Nat :=
  match d.depLogged.find? fun ws => ws.getD 7 0 == d.reg Reg.DEP_LOG_INDEX with
  | some ws => ws.getD k 0
  | none => 0

/-- The entry of a number has its block in reserved memory damaged: it reads with `KIND` 0 from now on (R291). -/
def Dev.logDamaged (d : Dev) (n : Nat) : Dev :=
  { d with depLogged := d.depLogged.map fun ws => if ws.getD 7 0 == n then ws.set 0 (ws.getD 0 0 / 256 * 256) else ws }

/-- `DEP_LOG_DATA0` to `DEP_LOG_DATA7` show the selected entry (R299). -/
def Dev.showLog (d : Dev) : Dev := d.setRegs (Reg.DEP_LOG_DATA 0) ((List.range 8).map d.logWord)

/-- Set a flag of `DEP_EVENT`. -/
def Dev.depEvent (d : Dev) (f : Fld) : Dev := d.setFlag Reg.DEP_EVENT f

/-- A failed block check of a block of software memory: counted at DEP and at its controller (R280, Table 12.9). -/
def Dev.blockFailed (d : Dev) (block : Nat) : Dev :=
  (d.count Reg.DEP_BLOCK_FAIL_CNT).count (Reg.MEM_FAIL_CNT (d.stackOf (block * 256)))

/-- The re-read of a block fails too: a failure at its controller (Table 12.9); DEP counts one failed check (Table 12.3). -/
def Dev.failedAgain (d : Dev) (block : Nat) : Dev := d.count (Reg.MEM_FAIL_CNT (d.stackOf (block * 256)))

/-- A block's content as no write left it: what a damaged block holds is free (log 9). -/
def Dev.corrupt (d : Dev) (b : Nat) : Dev :=
  let r := d.freshBytes 256
  (r.2.memPut (b * 256) r.1).setDamaged b true

/-- A block left damaged: the flag and source 0x4303 (Table 12.10). -/
def Dev.blockDamaged (d : Dev) (block : Nat) : Dev :=
  ((d.setDamaged block true).depEvent Fld.DEP_EVENT_DAMAGED).raise 0x4303

/-- The blocks that a range of bytes touches in part: a write of it reads them first (R25). -/
def partBlocks (a n : Nat) : List Nat := (blocksOf a n).filter fun b => !(a ≤ b * 256 && b * 256 + 256 ≤ a + n)

/-! ### Reserved memory -/

/-- The contents of reserved memory and their sizes in MiB (R24, Table 1.4): check store, parcel lists, PCV records, settled cache
directory, stream receive buffers, twin repair staging, error and audit logs, waybill copy, held. -/
def reservedContents : List Nat := [1008, 136, 32, 64, 256, 64, 32, 16, 440]

/-- Their places in the table. -/
def contentLists : Nat := 1
def contentPcvs : Nat := 2
def contentDirectory : Nat := 3
def contentBuffers : Nat := 4
def contentStaging : Nat := 5
def contentLogs : Nat := 6
def contentWaybill : Nat := 7

/-- The bytes of a content of reserved memory. -/
def reservedSize (content : Nat) : Nat := reservedContents.getD content 0 * 2 ^ 20

/-- The stack that holds a block of a content of reserved memory: the contents beside the check store spread over the eight stacks in equal
shares (R24). Which of a row of eight blocks lies on which stack is not stated (log 53). -/
def reservedStack (content block : Nat) : Nat := (Config.reservedTurn content (block / 8) + block) % 8

/-- A block of reserved memory is read or written: its controller is awake for it (R298, R421). -/
def Dev.reservedWake (d : Dev) (content block : Nat) : Dev :=
  if d.reg Reg.MEM_STATUS == 0 then d else d.memPowerUp (reservedStack content block)

def Dev.reservedWakes (d : Dev) (content : Nat) (blocks : List Nat) : Dev :=
  if d.reg Reg.MEM_STATUS == 0 then d else blocks.foldl (fun d b => d.reservedWake content b) d

/-- The number of a parcel among all parcels of its stroke, in deal order: which item of a content is a parcel's (log 53). -/
def Dev.parcelPlace (d : Dev) (stroke region number : Nat) : Nat :=
  let i := match d.prt.strokes.find? fun r => r.stroke == stroke && !r.withdrawn with
    | some r => r.parcels.findIdx fun q => q.region == region && q.number == number
    | none => number
  stroke % 17 * 131072 + i

/-- The block of the parcel lists that holds a parcel's 64 B entry, and that of the PCV records that holds its two values (Table 1.4). -/
def Dev.listBlock (d : Dev) (stroke region number : Nat) : Nat := d.parcelPlace stroke region number / 4
def Dev.pcvBlock (d : Dev) (stroke region number : Nat) : Nat := d.parcelPlace stroke region number / 32

/-! ### The log -/

/-- Blocks whose check fails on a host's or a controller's own read, each counted, and the entries to log: named once, only the first of two
reads fails, and the re-read serves; named twice, both fail and the block becomes damaged; one damaged before fails both (R280). The
failure of a controller's own read is logged (`logged`); that of a BAR2 read is the poisoned read's entry (R281, R299). -/
def Dev.checkBlocks (d : Dev) (logged : Bool) (bad : List Nat) : Dev × List LogEntry :=
  bad.eraseDups.foldl (fun (x : Dev × List LogEntry) (b : Nat) =>
    let d := x.1
    let entry (o : Nat) : LogEntry := { kind := 1, outcome := o, unit_ := d.stackOf (b * 256), stroke := d.stk.stroke, addr := b * 256 }
    let lost := if logged then [entry 0] else []
    if d.isDamaged b then ((d.blockFailed b).failedAgain b, x.2 ++ lost)
    else if bad.count b < 2 then ((d.blockFailed b).count Reg.DEP_REREAD_OK_CNT, x.2 ++ [entry 1])
    else ((((d.blockFailed b).failedAgain b).corrupt b).blockDamaged b, x.2 ++ lost)) (d, [])

/-- The check of blocks that a controller reads of its own (R279, R280): of `read`, those fail that were damaged before, those that a command
names (`bad`), and those with a bit error that no read has met; no bit error is left unmet in `met`. -/
def Dev.checkOwn (d : Dev) (read met bad : List Nat) : Dev × List LogEntry :=
  let x := d.checkBlocks true (read.filter d.isDamaged ++ (bad ++ d.weak).filter read.contains)
  ({ x.1 with weak := x.1.weak.filter fun b => !(met.contains b) }, x.2)

/-- The controllers' own reads within writes of spans of software memory (address and length): those of the blocks covered in part (R25,
R280). A block written whole is new. -/
def Dev.ownChecks (d : Dev) (spans : List (Nat × Nat)) (bad : List Nat) : Dev × List LogEntry :=
  d.checkOwn (spans.flatMap fun x => partBlocks x.1 x.2) (spans.flatMap fun x => blocksOf x.1 x.2) bad

/-- What a record in a ring writes in software memory: its entries, of the lengths given, and the cursor line. -/
def Dev.recordSpans (d : Dev) (r : Nat) (lens : List Nat) : List (Nat × Nat) :=
  if d.ringHost r then []
  else ((List.range lens.length).zip lens).map (fun k => (d.ringAddr r (d.ringProd r + k.1), k.2)) ++
    [(d.ringBase r + d.ringN r * 64, 64)]

/-- Write a record of whole entries in a ring, or drop it whole (R386, R387): whether it was written, and the entries to log for the blocks
that its writes merge into, which the controllers read before the record lands (R25, R280). -/
def Dev.checkedRecord (d : Dev) (r : Nat) (entries : List (List Byte)) : Dev × Bool × List LogEntry :=
  let e := d.putRecord r entries
  if e.1 then
    let c := d.ownChecks (d.recordSpans r (entries.map (·.length))) []
    ((c.1.putRecord r entries).2, true, c.2)
  else (e.2, false, [])

/-- Write a log entry: into the log, into the named ring when `EN` is 1, and source 0x4300 rises (R299); with the entries to log for the
blocks that the ring's record merges into. -/
def Dev.logRecord (d : Dev) (e : LogEntry) : Dev × List LogEntry :=
  let seq := d.reg Reg.DEP_LOG_COUNT
  let ws := e.words seq
  let d := { d with depLogged := (ws :: d.depLogged).take 524288 }.reservedWake contentLogs (seq % 524288 / 8)
  let d := (d.countWrap Reg.DEP_LOG_COUNT).showLog
  let ring := d.reg Reg.DEP_LOG_RING
  if bit ring 31 then
    let r := d.checkedRecord (Fld.DEP_LOG_RING_RING.get ring) [wordBytes ws]
    ((if r.2.1 then r.1 else r.1.depEvent Fld.DEP_EVENT_LOG_DROP).raise 0x4300, r.2.2)
  else (d.raise 0x4300, [])

/-- Log an entry, and each failed check that its record in the named ring meets, until that ring is full: as many levels as it has entries,
and one (R299). -/
def Dev.logAt : Nat → Dev → LogEntry → Dev
  | 0, d, e => (d.logRecord e).1
  | n + 1, d, e =>
    let x := d.logRecord e
    x.2.foldl (Dev.logAt n) x.1

/-- Log a failed check, a ladder's outcome, an escape or a poisoned read (R299). -/
def Dev.depLog (d : Dev) (e : LogEntry) : Dev :=
  Dev.logAt (d.ringN (Fld.DEP_LOG_RING_RING.get (d.reg Reg.DEP_LOG_RING))) d e

/-- Log entries in order. -/
def Dev.logAll (d : Dev) (es : List LogEntry) : Dev := es.foldl Dev.depLog d

/-- A correctable single-bit error of a control store (R295). -/
def Dev.secdedCorrected (d : Dev) : Dev := d.count Reg.DEP_SECDED_CORR_CNT

/-- The stores of Table 12.4, numbered by row from 0: the store number of a log entry (DESIGN CHOICE, log 53). -/
def storeLive : Nat := 0
def storeKept : Nat := 1
def storeShadow : Nat := 2
def storeSatchel : Nat := 3
def storeFence : Nat := 4
def storeFifo : Nat := 5
def storeRing : Nat := 6

/-- An uncorrectable word of a control store: counted, logged and raised (R295); the outcome is the store's. -/
def Dev.secdedBad (d : Dev) (store outcome : Nat) (stroke region parcel : Nat := 0) : Dev :=
  (((d.count Reg.DEP_SECDED_UNCORR_CNT).depEvent Fld.DEP_EVENT_SECDED_UNCORR).depLog
    { kind := 7, outcome := outcome, unit_ := store, stroke, region, parcel }).raise 0x4304

/-- The check of a word of a control store: corrected words count, an uncorrectable one has its store's outcome (R295). -/
def Dev.secded (d : Dev) (ecc : Ecc) (store outcome : Nat) (stroke region parcel : Nat := 0) : Dev :=
  match ecc with
  | .good => d
  | .corrected => d.secdedCorrected
  | .bad => d.secdedBad store outcome stroke region parcel

/-- A block of reserved memory fails its check and its re-read: counted at DEP and at its controller, and left damaged (R291, R301). -/
def Dev.reservedLost (d : Dev) (content block : Nat) : Dev :=
  let n := Reg.MEM_FAIL_CNT (reservedStack content block)
  (((((d.reservedWake content block).count Reg.DEP_BLOCK_FAIL_CNT).count n).count n).depEvent Fld.DEP_EVENT_DAMAGED).raise 0x4303

/-- The read of a block in a content of reserved memory (R291): `.corrected` where the re-read passes, `.bad` where the block stays damaged
and its content has the outcome given. Its controller wakes for it, and counts what fails there (R298, Table 12.9). -/
def Dev.reserved (d : Dev) (ecc : Ecc) (content block outcome : Nat) (stroke region parcel : Nat := 0) : Dev :=
  let c := reservedStack content block
  let entry (o : Nat) : LogEntry := { kind := 8, outcome := o, unit_ := c, stroke, region, parcel }
  match ecc with
  | .good => d.reservedWake content block
  | .corrected =>
    let d := ((d.reservedWake content block).count Reg.DEP_BLOCK_FAIL_CNT).count (Reg.MEM_FAIL_CNT c)
    (d.depLog (entry 1)).count Reg.DEP_REREAD_OK_CNT
  | .bad => (d.reservedLost content block).depLog (entry outcome)

/-! ### The block check -/

/-- Where a 256 B block lies: in software memory, in a stack's reserved memory, or in output staging, with its byte address there. -/
inductive BlockPlace where
  | memory (address : Nat)
  | reserved (address : Nat)
  | staging (offset : Nat)
  deriving DecidableEq, Repr

/-- The block number that its check folds (R279). -/
def BlockPlace.number : BlockPlace → Nat
  | .memory a => a / 256
  | .reserved a => a / 256 ||| 2 ^ 30
  | .staging a => a / 256 ||| 2 ^ 31

/-- The bytes of a block of software memory. -/
def Dev.blockBytes (d : Dev) (b : Nat) : List Byte := d.memRead (b * 256) 256

/-- The check that the check store holds for a block of software memory (R24, R279): the one written with its bytes, and for a
damaged block one that does not fit them, as the complement that a poisoned block is stored with (R280). -/
def Dev.storedCheck (d : Dev) (b : Nat) : Nat :=
  let c := blockCheck (BlockPlace.memory (b * 256)).number (d.blockBytes b)
  if d.isDamaged b then 0xFFFF ^^^ c else c

/-- The test of a read of a block (R279). -/
def Dev.blockPasses (d : Dev) (b : Nat) : Bool :=
  d.storedCheck b == blockCheck (BlockPlace.memory (b * 256)).number (d.blockBytes b)

/-! ### Reads and writes under the block check -/

/-- Blocks whose check fails on a host's read, as `Dev.checkBlocks` says, what is to be logged being logged. -/
def Dev.failBlocks (d : Dev) (logged : Bool) (bad : List Nat) : Dev :=
  let x := d.checkBlocks logged bad
  x.1.logAll x.2

/-- The controllers' own reads within writes of spans, as `Dev.ownChecks` says, each failure logged. -/
def Dev.ownReads (d : Dev) (spans : List (Nat × Nat)) (bad : List Nat) : Dev :=
  let x := d.ownChecks spans bad
  x.1.logAll x.2

/-- A read of blocks of software memory by an engine for which Table 12.2 has no ladder (a ring entry, a frame to send, an image, a token):
their controllers wake, and every block is tested and read once more where it fails (R279, R280, R298). The engine goes on with the bytes
as read (DESIGN CHOICE, log 50). -/
def Dev.plainReads (d : Dev) (blocks : List Nat) (bad : List Nat := []) : Dev :=
  let x := (d.memWake blocks).checkOwn blocks blocks bad
  x.1.logAll x.2

/-- A write of bytes to software memory by any requester (R25, R280): `bad` lists blocks whose own read within the read-modify-write
fails, once for each of its two reads; that of a block damaged before fails anyway. -/
def Dev.memStore (d : Dev) (a : Nat) (bs : List Byte) (bad : List Nat) : Dev :=
  let x := d.ownChecks [(a, bs.length)] bad
  (x.1.memWrite a bs).logAll x.2

/-- The cursor line of a ring: address and length (R481). -/
def Dev.cursorLine (d : Dev) (r : Nat) : Nat × Nat := (d.ringBase r + d.ringN r * 64, 64)

/-- The blocks that hold `n` entries of a ring from index `i` on; none of a ring in host memory. -/
def Dev.entryBlocks (d : Dev) (r i n : Nat) : List Nat :=
  if d.ringHost r then [] else (List.range n).map fun k => d.ringAddr r (i + k) / 256

/-- The ring engine reads `n` entries of a command ring, `skip` past the next (R279, R379). -/
def Dev.ringFetch (d : Dev) (r skip n : Nat) : Dev := d.plainReads (d.entryBlocks r (d.ringCons r + skip) n).eraseDups

/-- What the completion of a command writes in software memory: its entry, and the cursor line where `RETIRE` moves. -/
def Dev.completionSpans (d : Dev) (r i : Nat) (c : Completion) : List (Nat × Nat) :=
  if d.ringHost r then []
  else (d.ringAddr r i, 32) :: if (d.putCompletion r i c).ringRetire r == d.ringRetire r then [] else [d.cursorLine r]

/-- Complete the command whose first entry has index `i` (R382); the controllers read what they merge into before it lands (R25, R280). -/
def Dev.ringComplete (d : Dev) (r i : Nat) (c : Completion) : Dev :=
  let x := d.ownChecks (d.completionSpans r i c) []
  (x.1.putCompletion r i c).logAll x.2

/-- Take and complete a command of one entry at once: one that its reading completes. -/
def Dev.ringReject (d : Dev) (r n : Nat) (c : Completion) : Dev :=
  let i := d.ringCons r
  (d.ringTake r n).ringComplete r i c

/-- Write a record of whole entries (R386), or drop it whole (R387): whether it was written, and the device. -/
def Dev.record (d : Dev) (r : Nat) (entries : List (List Byte)) : Bool × Dev :=
  let x := d.checkedRecord r entries
  (x.2.1, x.1.logAll x.2.2)

end Sys2Proof.Machine
end

