-- ==== Sys2Proof/Machine/Stk.lean ====
section
/-! DEFINITION. The stroke timer: the time base, the phase table (R83 to R85), latch points (R86), the lock loop (R96,
Table 4.4), time of day (R94), time code (R99) and the capturing reads (R105). -/

namespace Sys2Proof.Machine

/-- Strokes and camera frames are counted in 48 bits (R85). -/
def two48 : Nat := 2 ^ 48

/-- The stroke `k` after `n`. -/
def strokeAdd (n k : Nat) : Nat := (n + k) % two48

/-- How far stroke `a` lies after stroke `b`. -/
def strokeSub (a b : Nat) : Nat := (a + two48 - b % two48) % two48

/-- Whether stroke `a` is `b` or later, numbers being compared over the wrap. -/
def strokeGe (a b : Nat) : Bool := strokeSub a b < 2 ^ 47

/-! ### Time -/

/-- The rate of the stroke clock against the time base. -/
def Dev.scRate (d : Dev) : Rat := 1 + (d.stk.r : Rat) / 2 ^ 40

/-- The stroke-clock time now. -/
def Dev.scNow (d : Dev) : Rat := d.stk.scBase + ((d.now - d.stk.nowBase : Nat) : Rat) * d.scRate

/-- The signal that `CTRL` and `DIV` give a clock output (R415). -/
def clockSignal (ctrl div : Nat) : ClockSignal :=
  let inverted := Fld.CKG_OUT_CTRL_INV.get ctrl == 1
  let format : ClockFormat := match Fld.CKG_OUT_CTRL_FMT.get ctrl with
    | 1 => .lvds
    | 2 => .hcsl
    | _ => .lvcmos
  let n := Fld.CKG_OUT_DIV_DIV.get div + 1
  if Fld.CKG_OUT_CTRL_FMT.get ctrl == 0 then .off
  else match Fld.CKG_OUT_CTRL_SRC.get ctrl with
    | 0 => .divided (Fld.CKG_OUT_CTRL_CLK.get ctrl) n ((n + 1) / 2) inverted format
    | s => .pulses s inverted format

/-- The signal of clock output `n`. -/
def Dev.clockOf (d : Dev) (n : Nat) : ClockSignal := clockSignal (d.reg (Reg.CKG_OUT_CTRL n)) (d.reg (Reg.CKG_OUT_DIV n))

/-- The clock outputs that carry a signal pulse once, `WIDTH` µs long, 0 acting as 1 (R415): source 1 at a tick, 2 at a camera-frame
boundary, 3 at each second of TOD. One that is held off after a change of its format sends none (R417). -/
def Dev.clockPulses (d : Dev) (src : Nat) : Dev :=
  (List.range 8).foldl (fun (d : Dev) n =>
    match d.clockOf n with
    | .pulses s inverted format =>
      if s == src && d.ckg.heldOff.get (fun _ => 0) n ≤ d.now then
        d.emit (.clockPulse n (max 1 (Fld.CKG_OUT_CTRL_WIDTH.get (d.reg (Reg.CKG_OUT_CTRL n)))) (!inverted) format)
      else d
    | _ => d) d

/-- The clock outputs that are on go off: entry to Rest, and a reset (R417, R455). -/
def Dev.clocksOff (d : Dev) : Dev :=
  (List.range 8).foldl (fun (d : Dev) n => if d.clockOf n == .off then d else d.emit (.clockOut n 0 .off)) d

/-- Let time pass up to `t` ns of the time base: the time of day advances by (1 + `STK_TOD_RATE` × 2^-40) ns per ns (R94); each
second that it passes pulses the 1 PPS outputs (R415). -/
def Dev.advance (d : Dev) (t : Nat) : Dev :=
  if t ≤ d.now then d
  else
    let per := (2 ^ 40 + signed 32 (d.reg Reg.STK_TOD_RATE)).toNat
    let second := 1000000000 * 2 ^ 40
    let e := { d with now := t, stk := { d.stk with tod := d.stk.tod + (t - d.now) * per } }
    (List.range (e.stk.tod / second - d.stk.tod / second)).foldl (fun (e : Dev) _ => e.clockPulses 3) e

/-- What a step does with no command waiting: one nanosecond of the STK time base passes (log 2). -/
def tickOver (s : State) : Host.Outcome State Fault Refusal := s.apply fun d => d.advance (d.now + 1)

/-- Let time pass up to a stroke-clock time. -/
def Dev.advanceSc (d : Dev) (t : Rat) : Dev :=
  d.advance (d.stk.nowBase + ceilNat ((t - d.stk.scBase) / d.scRate))

/-- Set `r`: the stroke clock goes on from its present reading at the new rate (R96). -/
def Dev.setRate (d : Dev) (r : Int) : Dev :=
  { d with stk := { d.stk with scBase := d.scNow, nowBase := d.now, r := r } }

/-- The TOD as whole seconds (48 bits) and nanoseconds. -/
def Dev.todNs (d : Dev) : Nat := d.stk.tod / 2 ^ 40
def Dev.todSec (d : Dev) : Nat := d.todNs / 1000000000 % two48
def Dev.todNano (d : Dev) : Nat := d.todNs % 1000000000

/-! ### Timing registers -/

/-- A set of timing values: the shadows or the live copies. -/
structure Timing where
  ns : Nat
  rem : Nat
  den : Nat
  shutter : Nat
  lead : Nat
  racing : Bool
  compLead : Nat
  phases : Nat
  lens : List Nat
  deriving DecidableEq, Repr

/-- Timing values from registers. -/
def timingOf (period frac shutter latchLead pacing : Nat) (lens : List Nat) : Timing where
  ns := period
  rem := Fld.STK_FRAME_FRAC_REM.get frac
  den := Fld.STK_FRAME_FRAC_DEN.get frac
  shutter := shutter
  lead := latchLead
  racing := Fld.STK_PACING_MODE.get pacing == 1
  compLead := Fld.STK_PACING_LEAD.get pacing
  phases := Fld.STK_PACING_PHASES.get pacing
  lens := lens

/-- The live timing. -/
def Dev.live (d : Dev) : Timing :=
  timingOf (d.reg Reg.STK_FRAME_PERIOD_LIVE) (d.reg Reg.STK_FRAME_FRAC_LIVE) (d.reg Reg.STK_SHUTTER_LIVE)
    (d.reg Reg.STK_LATCH_LEAD_LIVE) (d.reg Reg.STK_PACING_LIVE) ((List.range 16).map fun p => d.reg (Reg.STK_PHASE_LEN_LIVE p))

/-- The shadow timing. -/
def Dev.shadowTiming (d : Dev) : Timing :=
  timingOf (d.reg Reg.STK_FRAME_PERIOD) (d.reg Reg.STK_FRAME_FRAC) (d.reg Reg.STK_SHUTTER)
    (d.reg Reg.STK_LATCH_LEAD) (d.reg Reg.STK_PACING) ((List.range 16).map fun p => d.reg (Reg.STK_PHASE_LEN p))

/-- The camera frame period `T` (R83). -/
def Timing.period (t : Timing) : Rat := t.ns + (t.rem : Rat) / t.den

/-- The start of phase `p` after its camera-frame boundary: the sum of the phases before it (R84). -/
def Timing.phaseStart (t : Timing) (p : Nat) : Nat := (t.lens.take p).foldl (· + ·) 0

/-- The length of phase `p`, exact (R84). -/
def Timing.phaseLen (t : Timing) (p : Nat) : Rat :=
  if p + 1 < t.phases then (t.lens.getD p 0 : Nat) else t.period - (t.phaseStart (t.phases - 1) : Nat)

/-- The captures at a latch point lie `L` strokes ahead of the stroke they serve; racing pacing serves the stroke of the
latch point itself (R90, R92). -/
def Timing.ahead (t : Timing) : Nat := if t.racing then 0 else t.compLead

/-- Camera-frame boundary `j` of the run (R83). -/
def Dev.boundary (d : Dev) (j : Int) : Rat :=
  let t := d.live
  d.stk.b0 + (j * t.ns + j * t.rem / (t.den : Int) : Int)

/-- The stroke-clock time of the next tick. -/
def Dev.nextTick (d : Dev) : Rat :=
  let t := d.live
  if d.stk.phase + 1 < t.phases then d.boundary d.stk.frame + (t.phaseStart (d.stk.phase + 1) : Nat)
  else d.boundary (d.stk.frame + 1)

/-- The strokes from the present one to a pending REFRAME's `B₀`, which is one of the coming camera-frame boundaries; 1 where
no ticks are placed. -/
def Dev.reframeAhead (d : Dev) (b : Rat) : Nat :=
  if !d.stk.running then 1
  else
    let k := ((List.range 4).find? fun (i : Nat) => decide (b ≤ d.boundary (d.stk.frame + 1 + (i : Int)))).getD 0
    d.live.phases * (k + 1) - d.stk.phase

/-- Whether the next tick is `B₀` of a pending REFRAME: no tick of the live timing comes before it (R102). A REFRAME from another device
may cut the stroke in progress short (R311, R342). -/
def Dev.reframeNext (d : Dev) : Bool :=
  match d.stk.reframe with
  | none => false
  | some b => !d.stk.running || decide (b ≤ d.nextTick)

/-- The timing whose latch point comes next: the new one for `s₁` (R102). -/
def Dev.latchTiming (d : Dev) : Timing := if d.reframeNext then d.shadowTiming else d.live

/-- The stroke-clock time of the next latch point (R86, R102). -/
def Dev.nextLatch (d : Dev) : Rat :=
  match d.stk.reframe with
  | some b => if d.reframeNext then b - (d.shadowTiming.lead : Nat) else d.nextTick - (d.live.lead : Nat)
  | none => d.nextTick - (d.live.lead : Nat)

/-- The stroke that begins at the next tick. -/
def Dev.nextStroke (d : Dev) : Nat := strokeAdd d.stk.stroke 1

/-- The phase of the stroke that begins at the next tick. -/
def Dev.nextPhase (d : Dev) : Nat :=
  if d.reframeNext then 0 else if d.stk.phase + 1 < d.live.phases then d.stk.phase + 1 else 0

/-- Whether strokes are being timed: ticks are placed or a first `B₀` is pending. -/
def Dev.timed (d : Dev) : Bool := d.stk.running || d.stk.reframe.isSome

/-! ### Events of the stroke timer -/

def Dev.stkEvent (d : Dev) (f : Fld) : Dev := d.setFlag Reg.STK_EVENT f

/-- What a latch point captured for a stroke; for one that none has served, what was captured last for a stroke before it (R90; DESIGN
CHOICE, log 52). -/
def Dev.captureFor (d : Dev) (stroke : Nat) : Option StkCapture :=
  d.stk.captures.find? (·.stroke == stroke) <|> d.stk.captures.find? fun c => strokeGe stroke c.stroke

/-- The `STROKE_OUT` pulse of the stroke that has begun, `WIDTH` µs long, 0 acting as 1 (R90, R91, Table 4.10): as captured for it; none
before the first capture. -/
def Dev.strokeOut (d : Dev) : Dev :=
  let out := match d.captureFor d.stk.stroke with
    | some c => c.out
    | none => 0
  let mode := Fld.STK_OUT_MODE.get out
  if mode == 1 || (mode == 2 && d.stk.phase == 0) then d.emit (.strokeOut d.stk.stroke (max 1 (Fld.STK_OUT_WIDTH.get out)))
  else d

/-- A stroke begins: the counters move and the sources rise (R85, R106). -/
def Dev.beginStroke (d : Dev) (phase : Nat) (frame : Int) : Dev :=
  let s := d.nextStroke
  let d := { d with stk := { d.stk with
    stroke := s, phase := phase, frame := frame, latched := false,
    cframe := if phase == 0 then (d.stk.cframe + 1) % two48 else d.stk.cframe,
    acqFrames := if phase == 0 then d.stk.acqFrames + 1 else d.stk.acqFrames,
    ticks := ((s, d.now) :: d.stk.ticks).take 128 } }
  let d := ((d.raise 0x4000).raiseIf (phase == 0) 0x4002).strokeOut
  if d.stk.timing == 2 then d
  else
    let d := d.clockPulses 1
    if phase == 0 then d.clockPulses 2 else d

/-- STK's part of a tick (R85). -/
def Dev.stkTick (d : Dev) : Dev :=
  let d := d.advanceSc d.nextTick
  let p := d.nextPhase
  d.beginStroke p (if p == 0 then d.stk.frame + 1 else d.stk.frame)

/-- Whether the lock state lets scan-out resume (R103). -/
def Dev.lockServes (d : Dev) : Bool := d.stk.lock == 0 || d.stk.lock == 2 || (d.stk.lock == 3 && d.stk.viaAcq)

/-- STK's part of a latch point: the show registers' live copies, the capture for the stroke served, `tᵣ` (R86, R90, R91,
R103) and source 0x4001. -/
def Dev.stkLatch (d : Dev) : Dev :=
  let t := d.latchTiming
  let n := d.nextStroke
  let d := d.advanceSc d.nextLatch
  let shows := (List.range 16).map fun p => d.reg (Reg.STK_SHOW p)
  let d := d.setRegs (Reg.STK_SHOW_LIVE 0) shows
  let d := d.setReg Reg.STK_OUT_LIVE (d.reg Reg.STK_OUT)
  let cap : StkCapture := ⟨strokeAdd n t.ahead, shows, d.reg Reg.STK_OUT⟩
  let old := d.stk.captures.filter (·.stroke != cap.stroke)
  let far := if t.racing then 1 else t.compLead
  let tr := if d.stk.timing == 3 && d.stk.tr.isNone && far ≤ strokeSub n d.stk.s1 && strokeGe n d.stk.s1 && d.lockServes
    then some n else d.stk.tr
  let d := { d with stk := { d.stk with latched := true, captures := (cap :: old).take 64, tr := tr } }
  d.raise 0x4001

/-- The `SLEW` limit in units of 2^-40 (R96). -/
def Dev.slew (d : Dev) : Int := rneDiv (d.fld Reg.STK_LOCK Fld.STK_LOCK_SLEW * 2 ^ 40 : Nat) 1000000

/-- `WINDOW` and `COUNT`; 0 acts as 1 (Table 4.9). -/
def Dev.lockWindow (d : Dev) : Nat := max 1 (d.fld Reg.STK_LOCK Fld.STK_LOCK_WINDOW)
def Dev.lockCount (d : Dev) : Nat := max 1 (d.fld Reg.STK_LOCK Fld.STK_LOCK_COUNT)

/-- The camera-frame boundary nearest to a stroke-clock time (R96); midway between two, the earlier one (DESIGN CHOICE, log 52). -/
def Dev.nearestBoundary (d : Dev) (t : Rat) : Rat :=
  let j := ((t - d.stk.b0) / d.live.period).floor
  [j, j + 1, j + 2].foldl (fun best k =>
    let b := d.boundary k
    if (b - t).abs < (best - t).abs then b else best) (d.boundary (j - 1))

/-- Enter HOLDOVER (Table 4.4). -/
def Dev.enterHoldover (d : Dev) (viaAcq : Bool) : Dev :=
  { d.count Reg.STK_HOLDOVER_CNT with stk := { d.stk with lock := 3, viaAcq := viaAcq } }

/-- LOCKED is lost (Table 4.4). -/
def Dev.lockLost (d : Dev) : Dev := ((d.enterHoldover false).stkEvent Fld.STK_EVENT_LOCK_LOST).raise 0x4003

/-- The stroke in progress is lengthened: every later tick moves by `x` (R96), and with them the boundary at which a REFRAME of this
device waits. Where the latch point of the next stroke has passed, it has passed: no second one comes (DESIGN CHOICE, log 52). -/
def Dev.lengthen (d : Dev) (x : Rat) : Dev :=
  let reframe := if d.stk.given.isNone then d.stk.reframe.map (· + x) else d.stk.reframe
  { d with stk := { d.stk with b0 := d.stk.b0 + x, reframe } }

/-- The loop of R96 at a reference instant of stroke-clock time `t`, and the transitions of Table 4.4 it causes. `good` stays at
15, the most that `GOOD` can show (DESIGN CHOICE, log 52). -/
def Dev.referenceAt (d : Dev) (t : Rat) : Dev :=
  if !d.stk.running || d.stk.lock == 0 then d
  else
    let d := d.advanceSc t
    let d := { d with stk := { d.stk with lastRef := t } }
    let T := d.live.period
    let target := t + (d.live.shutter : Nat)
    if d.stk.lock == 1 && !d.stk.aligned then
      let d := d.lengthen (ratMod (target - d.boundary (d.stk.frame + 1)) T)
      let d := (d.setRate 0).stkEvent Fld.STK_EVENT_ALIGN
      { d with stk := { d.stk with aligned := true, good := 0, f := 0 } }
    else
      let e := target - d.nearestBoundary target
      let d := d.setReg Reg.STK_ERROR (toTwos 32 (clampInt (-(2 ^ 31 - 1)) (2 ^ 31 - 1) (rne e)))
      let inWindow := e.abs ≤ (d.lockWindow : Nat)
      let good := if inWindow then d.stk.good + 1 else 0
      let corrects := d.stk.lock == 2 || d.stk.lock == 1
      let f := if corrects then rne ((d.stk.f : Rat) + e * 2 ^ 40 / (16 * T)) else d.stk.f
      let r := if corrects then clampInt (-d.slew) d.slew (rne ((f : Rat) + e * 2 ^ 40 / (2 * T)))
        else clampInt (-d.slew) d.slew f
      let d := d.setRate r
      let d := { d with stk := { d.stk with good := min good 15, f := f } }
      if d.stk.lock == 2 then (if inWindow then d else d.lockLost)
      else if d.lockCount ≤ good then
        { d.raise 0x4003 with stk := { d.stk with lock := 2, viaAcq := false } }
      else d

/-- Device time at which the TOD advances, against the STK time base (R94). -/
def Dev.todRate (d : Dev) : Rat := 1 + (signed 32 (d.reg Reg.STK_TOD_RATE) : Rat) / 2 ^ 40

/-- The TOD, in ns from the PTP epoch, at stroke-clock time `t` if it goes on at its present rate. -/
def Dev.todAt (d : Dev) (t : Rat) : Rat :=
  (d.stk.tod : Rat) / 2 ^ 40 + (t - d.scNow) / d.scRate * d.todRate

/-- The reference instant of source PTP that lies nearest to stroke-clock time `t`: there the TOD equals a multiple of `T`,
computed exactly (R94). A TOD step moves it. -/
def Dev.ptpInstant (d : Dev) (t : Rat) : Rat :=
  let T := d.live.period
  t + ((rne (d.todAt t / T) : Rat) * T - d.todAt t) / d.todRate * d.scRate

/-- Camera frames between consecutive reference instants (R95). -/
def Dev.refFrames (d : Dev) : Nat :=
  if d.fld Reg.STK_SRC Fld.STK_SRC_SRC == 2 then d.fld Reg.STK_SRC Fld.STK_SRC_SYNC_MUL + 1 else 1

/-- The lock source reports at stroke-clock time `t` (Table 4.3). With PTP that is the crossing of `k` × `T` that `t` names; with SYNC
it is the start of a sync frame, of which every `SYNC_DIV` give one reference instant, counted from when the source was selected
(R95; the start of the count is a DESIGN CHOICE, log 52). -/
def Dev.referenceInstant (d : Dev) (t : Rat) : Dev :=
  match d.fld Reg.STK_SRC Fld.STK_SRC_SRC with
  | 1 => d.referenceAt (d.ptpInstant t)
  | 2 =>
    if d.stk.syncFrames < d.fld Reg.STK_SRC Fld.STK_SRC_SYNC_DIV then
      { d.advanceSc t with stk := { (d.advanceSc t).stk with syncFrames := d.stk.syncFrames + 1 } }
    else { d with stk := { d.stk with syncFrames := 0 } }.referenceAt t
  | _ => d.referenceAt t

/-- A missing reference instant (R96, Table 4.4): none has come 1.5 periods after the expected one. None is expected with source
FREE or PTP, or before ACQUIRE has aligned. -/
def Dev.missingInstant (d : Dev) : Dev :=
  let src := d.fld Reg.STK_SRC Fld.STK_SRC_SRC
  if !d.stk.running || d.stk.lock == 0 || !d.stk.aligned || !(src == 2 || src == 3) then d
  else
    let expected := d.stk.lastRef + d.live.period * d.refFrames
    let d := d.advanceSc (expected + 3 / 2 * (d.live.period * d.refFrames))
    let d := { d with stk := { d.stk with lastRef := expected } }
    let d := ((d.stkEvent Fld.STK_EVENT_MISSING).count Reg.STK_MISSING_CNT).raise 0x4007
    let d := { d with stk := { d.stk with good := 0 } }
    if d.stk.lock == 2 then d.lockLost else d

/-- `ACQ_LIMIT` camera frames have passed in ACQUIRE (Table 4.4). -/
def Dev.acqTimeout (d : Dev) : Dev :=
  let lim := d.fld Reg.STK_LOCK Fld.STK_LOCK_ACQ_LIMIT
  if d.stk.lock == 1 && lim != 0 && lim ≤ d.stk.acqFrames then
    ((d.enterHoldover true).stkEvent Fld.STK_EVENT_ACQ_TIMEOUT).raise 0x4006
  else d

/-- The STK reason codes (Table 4.13). -/
def stkReframeBusy : Nat := 1
def stkTable : Nat := 2
def stkStoreSize : Nat := 3
def stkLeadSpan : Nat := 4
def stkBudget : Nat := 5
def stkPower : Nat := 6
def stkLodger : Nat := 7
def stkSource : Nat := 8
def stkLockRange : Nat := 9
def stkTodRange : Nat := 10
def stkPendingWrite : Nat := 11
def stkTwinSecondary : Nat := 12
def stkLodgerRefused : Nat := 13

/-- Whether the device's role allows a lock source (R93, Table 4.3). -/
def Dev.sourceAllowed (d : Dev) (v : Nat) : Bool :=
  match Fld.STK_SRC_SRC.get v with
  | 0 => d.wb.hierarchy != 2
  | 1 => d.wb.hierarchy != 2 && d.role (Fld.STK_SRC_PORT.get v) == 2
  | 2 => d.wb.hierarchy != 2
  | 3 => d.wb.hierarchy == 2
  | _ => false

/-- The fields of `STK_SRC` that its selected source uses. -/
def srcUsed (v : Nat) : List Nat :=
  Fld.STK_SRC_SRC.get v :: match Fld.STK_SRC_SRC.get v with
    | 1 => [Fld.STK_SRC_PORT.get v]
    | 2 => [Fld.STK_SRC_SYNC_DIV.get v, Fld.STK_SRC_SYNC_MUL.get v, Fld.STK_SRC_SYNC_TYPE.get v]
    | _ => []

/-- A write of `STK_SRC` (R93, Table 4.4, Table 4.9). HOLDOVER entered through `ACQ_LIMIT` is that no longer once another source is
selected, and the next instant is expected one period after the write (DESIGN CHOICE, log 52). A write that leaves the source and the fields
in use as they are moves no lock state, and a move from LOCKED to HOLDOVER by a write does not set `LOCK_LOST` (DESIGN CHOICE, log 34). -/
def Dev.writeStkSrc (d : Dev) (v : Nat) : Dev :=
  if !d.sourceAllowed v then d.refuse Reg.STK_BLKID stkSource
  else
    let old := d.reg Reg.STK_SRC
    let d := d.genericWrite Reg.STK_SRC v
    let free := Fld.STK_SRC_SRC.get v == 0
    if srcUsed old == srcUsed v then d
    else
    let d := { d with stk := { d.stk with syncFrames := 0, lastRef := d.scNow } }
    if free then
      (if d.stk.lock == 0 then d else let d := d.setRate 0; { d with stk := { d.stk with lock := 0 } })
    else if d.stk.lock == 1 then { d with stk := { d.stk with aligned := false } }
    else if d.stk.lock == 0 then
      let d := d.enterHoldover false
      { d with stk := { d.stk with f := 0, good := 0 } }
    else
      let d := if d.stk.lock == 2 then d.enterHoldover false else { d with stk := { d.stk with viaAcq := false } }
      { d with stk := { d.stk with good := 0 } }

/-- The TOD step (R94): refused outside ±999,999,999 ns. -/
def Dev.todStep (d : Dev) : Dev :=
  let ns := signed 32 (d.reg Reg.STK_TOD_STEP_NS)
  let sec := signed 32 (d.reg Reg.STK_TOD_STEP_SEC)
  if ns.natAbs > 999999999 then d.refuse Reg.STK_BLKID stkTodRange
  else
    let whole : Int := 2 ^ 48 * 1000000000 * 2 ^ 40
    let t := ((d.stk.tod : Int) + (sec * 1000000000 + ns) * 2 ^ 40) % whole
    { d with stk := { d.stk with tod := t.toNat } }

/-- A decoded LTC frame, its bit 0 at time `start` (R99); `good` is false for bad bit timing or a bad sync word. Where no tick
precedes bit 0, the stroke is the counter and the offset a free value (log 9). -/
def Dev.ltcFrame (d : Dev) (data start rate : Nat) (reverse good : Bool) : Dev :=
  if !d.loaded then d
  else if !good then (d.stkEvent Fld.STK_EVENT_LTC_DROP).count Reg.STK_LTC_DROP_CNT
  else
    let at_ := match d.stk.ticks.find? fun t => t.2 ≤ start with
      | some t => (t.1, start - t.2, d)
      | none => (d.stk.stroke, d.freshNat.1, d.freshNat.2)
    let d := at_.2.2
    ({ d with stk := { d.stk with ltc := {
      word0 := data % 2 ^ 32, word1 := data / 2 ^ 32 % 2 ^ 32, stroke := at_.1, offset := at_.2.1 % 2 ^ 26,
      rate := rate, reverse := reverse, valid := true } } }).raise 0x4005

/-- A read of `STK_STROKE_LO`, `STK_TOD_NS` or `STK_LTC_WORD0`: the value, and the companions captured (R105). -/
def Dev.captureStroke (d : Dev) : Nat × Dev :=
  (d.stk.stroke % 2 ^ 32,
    (((d.setReg Reg.STK_STROKE_HI (d.stk.stroke / 2 ^ 32)).setReg Reg.STK_CFRAME_LO (d.stk.cframe % 2 ^ 32)).setReg
      Reg.STK_CFRAME_HI (d.stk.cframe / 2 ^ 32)).setReg Reg.STK_POSITION d.stk.phase)

def Dev.captureTod (d : Dev) : Nat × Dev :=
  (d.todNano, (d.setReg Reg.STK_TOD_SEC_LO (d.todSec % 2 ^ 32)).setReg Reg.STK_TOD_SEC_HI (d.todSec / 2 ^ 32))

def Dev.captureLtc (d : Dev) : Nat × Dev :=
  let l := d.stk.ltc
  (l.word0, d.setRegs Reg.STK_LTC_WORD1 [l.word1, l.stroke % 2 ^ 32, l.stroke / 2 ^ 32, l.offset,
    l.rate * 4 + (if l.reverse then 2 else 0) + if l.valid then 1 else 0])

/-- A shadow set of timing values breaks none of R83, R84 and R86, nor the ranges of `LEAD` and `SHUTTER` (Table 4.5). -/
def Timing.valid (t : Timing) : Bool :=
  4166666 ≤ t.ns && t.ns ≤ 41708333 && 1 ≤ t.den && t.rem < t.den && 1 ≤ t.phases && t.phases ≤ 16 &&
  (List.range t.phases).all (fun p => (520833 : Rat) ≤ t.phaseLen p) &&
  10000 ≤ t.lead && t.lead ≤ 200000 && (t.racing || (1 ≤ t.compLead && t.compLead ≤ 16)) && t.shutter < t.ns

/-- The first `n` strokes of a timing together, exact. -/
def Timing.span (t : Timing) (n : Nat) : Rat := (List.range n).foldl (fun a i => a + t.phaseLen (i % t.phases)) 0

/-- `B₀` of a REFRAME accepted now (R102). -/
def Dev.reframeB0 (d : Dev) : Rat :=
  if !d.stk.running then d.scNow + 1000 + (d.shadowTiming.lead : Nat)
  else
    let need := d.scNow + (max d.live.lead d.shadowTiming.lead : Nat)
    let b1 := d.boundary (d.stk.frame + 1)
    if need < b1 then b1 else d.boundary (d.stk.frame + 2)

/-- STK's part of a REFRAME taking effect: the live copies, tick `s₁`, the lock state (Tables 4.4, 4.6). -/
def Dev.stkTakeEffect (d : Dev) (b : Rat) : Dev :=
  let d := d.advanceSc b
  let copy (d : Dev) (p : Nat × Nat) : Dev := d.setReg p.2 (d.reg p.1)
  let d := [(Reg.STK_FRAME_PERIOD, Reg.STK_FRAME_PERIOD_LIVE), (Reg.STK_FRAME_FRAC, Reg.STK_FRAME_FRAC_LIVE),
    (Reg.STK_SHUTTER, Reg.STK_SHUTTER_LIVE), (Reg.STK_LATCH_LEAD, Reg.STK_LATCH_LEAD_LIVE),
    (Reg.STK_PACING, Reg.STK_PACING_LIVE)].foldl copy d
  let d := (List.range 16).foldl (fun d p => copy d (Reg.STK_PHASE_LEN p, Reg.STK_PHASE_LEN_LIVE p)) d
  let free := d.fld Reg.STK_SRC Fld.STK_SRC_SRC == 0
  let s1 := d.nextStroke
  let d := if free then d.setRate 0 else d
  let d := { d with stk := { d.stk with
    b0 := b, running := true, reframe := none, given := none, timing := 3, s1 := s1, tr := none,
    lock := if free then 0 else 1, aligned := false, viaAcq := false, acqFrames := 0 } }
  let d := d.beginStroke 0 0
  { d with stk := { d.stk with acqFrames := 0 } }

/-- Scan-out resumes at tick `tᵣ` (Table 4.6, R103). -/
def Dev.stkReframeDone (d : Dev) : Dev :=
  let d := { d with stk := { d.stk with timing := 1, tr := none } }
  ((d.stkEvent Fld.STK_EVENT_REFRAME_DONE).count Reg.STK_REFRAME_CNT).raise 0x4004

/-! ### The commands -/

def execReferenceInstant (time : Rat) (s : State) : Host.Outcome State Fault Refusal :=
  s.apply fun d => d.referenceInstant time

def execMissing (s : State) : Host.Outcome State Fault Refusal := s.apply fun d => d.missingInstant

def execAcqTimeout (s : State) : Host.Outcome State Fault Refusal := s.apply fun d => d.acqTimeout

def execStkSrc (data : Word) (s : State) : Host.Outcome State Fault Refusal :=
  s.apply fun d => d.onWrite Reg.STK_SRC fun d => d.writeStkSrc data.toNat

def execTodStep (s : State) : Host.Outcome State Fault Refusal :=
  s.apply fun d => d.onWrite Reg.STK_CTRL fun d => d.todStep

def execLtcFrame (data : BitVec 64) (start : Nat) (rate : Fin 4) (reverse good : Bool) (s : State) :
    Host.Outcome State Fault Refusal :=
  s.apply fun d => d.ltcFrame data.toNat start rate reverse good

end Sys2Proof.Machine
end

