-- ==== Sys2Proof/Machine/Admission.lean ====
section
/-! DEFINITION. The cost of stacks (R131, R132) and admission (R163 to R168, R190).

Strokes are numbered relative to the stroke in progress: stroke 1 begins at the next tick. A change stands with the latch
point that it targets; the stroke of number i is dealt at latch point i - L. -/

namespace Sys2Proof.Machine

/-! ### The cost of a stack -/

/-- The fetched slots of a stack at or above a settle line. -/
def StackV.fetched (k : StackV) (settle : Nat) : List (Nat × Slot) := k.enabled.filter fun e => settle ≤ e.1

/-- `c_k`: porter-clocks per pixel (R131). -/
def StackV.clocks (k : StackV) (c : Cfg) (settle : Nat) : Nat :=
  let s := (k.fetched settle).foldl (fun a e => a + max 1 (ceilNat (k.ratios e.1 (layerAt c e.2.layer)).1)) 0
  max 1 (ceilDiv (s + if 0 < settle then 1 else 0) 4)

/-- κ of R132. -/
def StackV.kappa (k : StackV) (j : Nat) : Rat :=
  let turned := (k.rotation j).1 % 2 == 1
  let warped := k.covers tyWarp j
  if turned && warped then 3 else if turned then 2 else if warped then 3 / 2 else 1

/-- The length that two ranges of integers share. -/
def shared (a n b m : Int) : Nat := (min (a + n) (b + m) - max a b).toNat

/-- `bytes_k`: the memory charge of a stack per stroke (R132). -/
def StackV.bytes (k : StackV) (c : Cfg) (ss : List Stop) (crews settle : Nat) : Nat :=
  let slotBytes (e : Nat × Slot) : Rat :=
    let l := layerAt c e.2.layer
    let r := k.ratios e.1 l
    let area := shared k.x k.w l.dx l.dw * shared k.y k.h l.dy l.dh
    bpp l.fmt * k.kappa e.1 * (area : Rat) * r.1 * r.2
  let fetch := (k.fetched settle).foldl (fun a e => a + slotBytes e) 0
  ceilNat fetch + (if 0 < settle then 8 * k.area else 0) +
    (if (k.stackStage tyCalibrate).isSome then 3 * k.area else 0) + tableBytes (k.chargedTables c ss) * crews

/-- The number of crews of a region. -/
def Region.crewCount (r : Region) : Nat := ((List.range 16).filter (bit r.crews)).length

/-- A stack's porter-clocks and bytes in a stroke, with its settle line or in fused form (R131, R132, R190). -/
def Dev.stackCost (d : Dev) (c : Cfg) (k : StackV) (fused : Bool) : Nat × Nat :=
  let ss := d.allStops c
  let crews := match d.regionHolding k.x k.y k.w k.h with
    | some r => (d.wb.regions.getD r ⟨0, 0, 0, 0, 0⟩).crewCount
    | none => 0
  let t := if fused then 0 else k.settle
  (k.clocks c t * k.area, k.bytes c ss crews t + if fused then 8 * k.area else 0)

/-! ### What admission tests -/

/-- An accepted change that has not applied, or the one under test: the latch point it targets and the configuration after. -/
structure Change where
  latch : Int
  after : Cfg
  deriving DecidableEq, Repr

/-- A fused window of a stack: its first and last latch points (R190). -/
structure Window where
  stack : Nat
  first : Int
  last : Int
  deriving DecidableEq, Repr

/-- The projected configuration and what leads to it (R163). -/
structure Plan where
  timing : Timing
  /-- The phase of the stroke in progress, under the timing. -/
  phase0 : Nat
  lambda : Nat
  start : Cfg
  changes : List Change
  windows : List Window
  /-- The projected configuration: every accepted command in order, and then the one under test. -/
  final : Cfg
  /-- The show offset of each phase. -/
  shows : List Nat
  /-- The last stroke that the timing reaches, where a REFRAME that is pending ends it (R163). -/
  limit : Option Int := none
  deriving DecidableEq, Repr

/-- `P` and `L`. -/
def Plan.P (a : Plan) : Nat := a.timing.phases
def Plan.L (a : Plan) : Nat := a.timing.ahead

/-- The phase of a stroke. -/
def Plan.phase (a : Plan) (i : Int) : Nat := ((i + a.phase0) % (a.P : Int)).toNat

/-- The tick of a stroke, in ns from the camera-frame boundary of the stroke in progress. -/
def Plan.tick (a : Plan) (i : Int) : Rat := (((i + a.phase0) / (a.P : Int) : Int) : Rat) * a.timing.period + (a.timing.phaseStart (a.phase i) : Nat)

/-- The latch point of a stroke, and the length of a stroke. -/
def Plan.latch (a : Plan) (i : Int) : Rat := a.tick i - (a.timing.lead : Nat)
def Plan.len (a : Plan) (i : Int) : Rat := a.timing.phaseLen (a.phase i)

/-- The projected configuration. -/
def Plan.projected (a : Plan) : Cfg := a.final

/-- The configuration that a stroke dealt at latch point `g` holds, when every change applies at its target. -/
def Plan.own (a : Plan) (g : Int) : Cfg := a.changes.foldl (fun c x => if x.latch ≤ g then x.after else c) a.start

/-- The configurations dealt before a change that are still charged at latch point `g`: for the `L` strokes dealt after the change
takes effect. -/
def Plan.before (a : Plan) (g : Int) : List Cfg :=
  (a.changes.foldl (fun (s : Cfg × List Cfg) x => (x.after, if x.latch ≤ g && g < x.latch + (a.L : Int) then s.1 :: s.2 else s.2)) (a.start, [])).2

/-- Whether a stack's fused cost is charged at a latch point. -/
def Plan.fusedAt (a : Plan) (k : Nat) (g : Int) : Bool := a.windows.any fun w => w.stack == k && w.first ≤ g && g ≤ w.last

/-- The first stroke past every change and window: from there on only the projected configuration is charged. -/
def Plan.horizon (a : Plan) : Int :=
  let m := (a.changes.map fun c => c.latch + (a.L : Int)).foldl max 0
  (a.windows.map fun w => w.last + 1).foldl max m + (a.L : Int)

/-- The charge of a stroke: porter-clocks for each region, and bytes. In whole pacing it is taken stack by stack at the largest cost
each can have; in racing pacing at the stroke's own; fused costs count in both (R163, R168, R190). -/
def Dev.charge (d : Dev) (a : Plan) (i : Int) : List Nat × Nat :=
  let g := i - (a.L : Int)
  let p := a.phase i
  let costs (k : Nat) : Nat × Nat :=
    let of (c : Cfg) (fused : Bool) : Nat × Nat := let s := stackAt c k; if s.valid then d.stackCost c s fused else (0, 0)
    let all := a.own g :: if 0 ≤ g && !a.timing.racing then a.projected :: a.before g else []
    let fs := if a.fusedAt k g then [of a.projected true] else []
    (all.map (of · false) ++ fs).foldl (fun m x => (max m.1 x.1, max m.2 x.2)) (0, 0)
  let ks := activeStacks (a.own g) p
  let region (k : Nat) : Nat := let s := stackAt (a.own g) k; (d.regionHolding s.x s.y s.w s.h).getD 0
  let w := (List.range d.wb.regions.length).map fun r => ks.foldl (fun m k => if region k == r then m + (costs k).1 else m) 0
  (w, ks.foldl (fun m k => m + (costs k).2) 0)

/-- The strokes that a plan must hold at: those on the way and one camera frame of the projected configuration. -/
def Plan.strokes (a : Plan) : List Int :=
  ((List.range (a.horizon.toNat + 2 * a.P + 1)).map fun (n : Nat) => (n : Int) + 1).filter fun i => match a.limit with
    | some l => i ≤ l
    | none => true

/-- `c_r` in porter-clocks per ns (R164): 0.85 of the crews' rate. -/
def Dev.regionRate (d : Dev) (r : Nat) : Rat :=
  let clock : Rat := if d.wb.clock == 1 then 5 / 4 else 1
  85 / 100 * 16 * clock * ((d.wb.regions.getD r ⟨0, 0, 0, 0, 0⟩).crewCount : Nat)

/-- The canvas area `A`. -/
def Dev.canvasArea (d : Dev) : Nat := d.wb.canvasW * d.wb.canvasH

/-- Whether a context window is enabled. -/
def Dev.ctxEnabled (d : Dev) (p j : Nat) : Bool := d.role p == 2 && d.flag (Reg.SIP_CX_CTRL p j) Fld.SIP_CX_CTRL_EN

/-- The pitch that the ingest rate of a context uses under a configuration: its own, or that of the plate ring's layers (R273). -/
def Dev.ctxPitch (d : Dev) (c : Cfg) (p j : Nat) : Nat :=
  if d.flag (Reg.SIP_CX_CTRL p j) Fld.SIP_CX_CTRL_TARGET then
    let r := d.fld (Reg.SIP_CX_CTRL p j) Fld.SIP_CX_CTRL_PLATE_RING
    ((List.range 1024).map (layerAt c)).foldl (fun m l => if l.valid && l.plate && l.ring == r then max m l.pitch else m) 0
  else d.fld (Reg.SIP_CX_PITCH p j) Fld.SIP_CX_PITCH_PITCH

/-- The ingest rate of a context in B/ns (R273); a declared period of 0 has no stated rate, which is then free (log 9). -/
def Dev.ctxRate (d : Dev) (c : Cfg) (p j : Nat) : Rat :=
  let n := d.ctxPitch c p j * (d.fld (Reg.SIP_CX_SIZE p j) Fld.SIP_CX_SIZE_H + 1)
  let t := d.fld (Reg.SIP_CX_PERIOD p j) Fld.SIP_CX_PERIOD_NS
  if t == 0 then (Config.freeNat n : Nat) else (n : Rat) / (t : Rat)

/-- The ingest rate `I` of all enabled stream contexts under a configuration, in B/ns (R165, R273). -/
def Dev.ingestRate (d : Dev) (c : Cfg) : Rat :=
  (d.portsOf 2).foldl (fun a p => (List.range 16).foldl (fun a j => if d.ctxEnabled p j then a + d.ctxRate c p j else a) a) 0

/-- The memory ceiling, 0.80 × 9.8304 × 10¹² B/s, in B/ns. -/
def memCeiling : Rat := 80 / 100 * 98304 / 10

/-- A sum over consecutive strokes. -/
def sumOver (f : Int → Rat) (i : Int) (n : Nat) : Rat := (List.range n).foldl (fun s (k : Nat) => s + f (i + (k : Int))) 0

/-! ### Whole pacing -/

/-- The use of the R164 window of a stroke in a region, as a fraction of the ceiling. -/
def Dev.clockUse (d : Dev) (a : Plan) (r : Nat) (m : Int) : Rat :=
  let w (i : Int) : Rat := ((d.charge a i).1.getD r 0 : Nat)
  sumOver w (m - a.L + 1) a.L / (d.regionRate r * sumOver a.len (m - a.L) a.L)

/-- The use of the R165 window of a stroke, as a fraction of the ceiling. -/
def Dev.byteUse (d : Dev) (a : Plan) (m : Int) : Rat :=
  let dur := sumOver a.len (m - a.L) a.L
  let b (i : Int) : Rat := (((d.charge a i).2 + 12 * d.canvasArea : Nat) : Rat)
  129 / 128 * (sumOver b (m - a.L + 1) a.L + d.ingestRate a.projected * dur) / (memCeiling * dur)

/-- The ready time of a stroke in a region (R166). -/
def Dev.readyTime (d : Dev) (a : Plan) (r : Nat) (m : Int) : Rat :=
  let w (i : Int) : Rat := ((d.charge a i).1.getD r 0 : Nat)
  (List.range a.P).foldl (fun best (n : Nat) =>
    let k := m - (n : Int)
    let t := a.latch (k - a.L) + sumOver w k (n + 1) / d.regionRate r
    if best < t then t else best) (a.latch (m - a.L) + w m / d.regionRate r)

/-- What a port carries in a stroke under a configuration: τ_q in ns, the least stop buffer depth, and its regions. -/
def Dev.portLoad (d : Dev) (c : Cfg) (q : Nat) : Option (Rat × Nat × List Nat) :=
  match portStops c q with
  | [] => none
  | s :: ss =>
    let bitsSum := (s :: ss).foldl (fun n x => n + x.pixels * x.pixelBits) 0
    some (((bitsSum : Nat) : Rat) / 105, ss.foldl (fun m x => min m x.buf) s.buf,
      ((s :: ss).filterMap fun x => d.regionHolding x.x x.y x.w x.h).eraseDups)

/-- The show time of a stroke (R84, R163). -/
def Plan.showTime (a : Plan) (i : Int) : Rat := a.tick i + (a.shows.getD (a.phase i) 0 : Nat)

/-- The finish times of a port over strokes, in order, from an idle port (R167): each stroke with its finish and its slack. -/
def Dev.sendFrom (d : Dev) (a : Plan) (q : Nat) : Option Rat → List Int → List (Int × Rat)
  | _, [] => []
  | prev, i :: is =>
    match d.portLoad (a.own (i - a.L)) q with
    | none => Dev.sendFrom d a q prev is
    | some (tau, b, rs) =>
      let rho := rs.foldl (fun m r => let t := d.readyTime a r i; if m < t then t else m) (a.latch (i - a.L))
      let opens := max (rho + (a.lambda : Nat)) (a.showTime (i - (b : Int) + 1))
      let fin := (match prev with | none => opens | some f => max opens f) + tau
      (i, a.tick i - fin) :: Dev.sendFrom d a q (some fin) is

/-- The strokes over which a port's schedule is run: three camera frames of the live configuration, then the plan's. With
Σ τ at most T a port's schedule repeats from its second camera frame on. -/
def Plan.sendStrokes (a : Plan) : List Int := ((List.range (3 * a.P)).map fun (n : Nat) => (n : Int) + 1 - ((3 * a.P : Nat) : Int)) ++ a.strokes

/-- Σ τ_q over one camera frame of the projected configuration. -/
def Dev.frameLoad (d : Dev) (a : Plan) (q : Nat) : Rat :=
  match d.portLoad a.projected q with
  | none => 0
  | some x => x.1 * (a.P : Nat)

/-! ### The verdict -/

/-- Why admission refuses (Table 7.3, `PRT_ADM_REASON`). -/
structure AdmFail where
  test : Nat
  region : Nat := 0
  phase : Nat := 0
  port : Nat := 0
  deriving DecidableEq, Repr

/-- The memory test (R165, R168). -/
def Dev.memFail (d : Dev) (a : Plan) : Option AdmFail :=
  let lead : Rat := (a.timing.lead : Nat)
  a.strokes.findSome? fun m =>
    let past := if a.timing.racing then memCeiling * lead < 129 / 128 * (((d.charge a m).2 : Nat) + d.ingestRate a.projected * lead)
      else 1 < d.byteUse a m
    if past then some { test := 2, phase := a.phase m } else none

/-- The first failing test in whole pacing: porter-clocks, memory, send. -/
def Dev.admitWhole (d : Dev) (a : Plan) : Option AdmFail :=
  let ms := a.strokes
  let clock := ms.findSome? fun m => (List.range d.wb.regions.length).findSome? fun r =>
    if 1 < d.clockUse a r m then some { test := 1, region := r, phase := a.phase m : AdmFail } else none
  let send := (d.portsOf 1).findSome? fun q =>
    if a.timing.period < d.frameLoad a q then some { test := 3, port := q : AdmFail }
    else (d.sendFrom a q none a.sendStrokes).findSome? fun s =>
      if 0 < s.1 && s.2 < 0 then some { test := 3, phase := a.phase s.1, port := q : AdmFail } else none
  clock <|> d.memFail a <|> send

/-- The first failing test in racing pacing (R168): per stroke, region and port, then memory, then staging. -/
def Dev.admitRacing (d : Dev) (a : Plan) : Option AdmFail :=
  let lead : Rat := (a.timing.lead : Nat)
  let first := a.strokes.findSome? fun m => (d.portsOf 1).findSome? fun q =>
    match d.portLoad (a.own m) q with
    | none => none
    | some (tau, _, rs) => rs.findSome? fun r =>
      if lead < ((d.charge a m).1.getD r 0 : Nat) / d.regionRate r + (a.lambda : Nat) + tau then
        some { test := 4, region := r, phase := a.phase m, port := q : AdmFail } else none
  let staging := if 33554432 < 6 * d.canvasArea then some { test := 5 : AdmFail } else none
  first <|> d.memFail a <|> staging

/-- Admission: none when the plan is admitted. A device without PRT composes nothing, and every plan is admitted. -/
def Dev.admission (d : Dev) (a : Plan) : Option AdmFail :=
  if !d.hasPrt then none
  else if a.timing.racing then d.admitRacing a else d.admitWhole a

/-- The structure test of a REFRAME (R120, R154): a phase map that breaks R120, or a stroke above the parcel limit. -/
def Dev.admitStructure (d : Dev) (c : Cfg) (n : Nat) : Option AdmFail :=
  if !d.hasPrt then none
  else match d.badPhase c n with
  | some p => some { test := 6, phase := p }
  | none => ((List.range n).find? fun p => 131072 < parcelCount c p).map fun p => { test := 6, phase := p }

/-- Record a refusal in `PRT_ADM_REASON`. -/
def Dev.admRefused (d : Dev) (f : AdmFail) : Dev :=
  (d.setReg Reg.PRT_ADM_REASON (f.test + f.phase * 2 ^ 8 + f.region * 2 ^ 16 + f.port * 2 ^ 24)).count Reg.PRT_ADM_REFUSE_CNT

end Sys2Proof.Machine
end

