-- ==== Sys2Proof/Machine/Compose.lean ====
section
/-! DEFINITION. The pixel pipeline of the porters: FETCH (R115, R116, R138), orientation (R123), WARP (R124), SCALE (R125 to
R127), BLEND (R129, R130), the settled value (R187), the stack stages, and the composed parcel with its check value (R150,
R276). Everything is computed from memory and the version of the parcel's stroke (R27, R114, R151). -/

namespace Sys2Proof.Machine

/-- A pixel with alpha: three colour values and an alpha code. -/
abbrev Rgba := Rgb × Nat

/-! ### FETCH -/

/-- Where the bytes of a buffer pixel lie, and how many: RGB12 reads the 9 B of its pair (Table 5.1). -/
def Layer.pixelAt (l : Layer) (s t : Nat) : Nat × Nat :=
  let row := l.buf + t * l.pitch
  match l.fmt with
  | 0 => (row + 8 * s, 8)
  | 1 => (row + 4 * s, 4)
  | 2 => (row + 4 * s, 4)
  | 3 => (row + 6 * s, 6)
  | 4 => (row + 9 * (s / 2), 9)
  | _ => (row + s, 1)

/-- A stored pixel in fetch form (R116, R138); `v` is the number its bytes spell. -/
def Layer.fetchForm (l : Layer) (s v : Nat) : Rgba :=
  let uns (n lo : Nat) : Int := fetchUnsigned n (bits v (lo + n - 1) lo)
  let raw : Rgba := match l.fmt with
    | 0 => ((fetchHalf (bits v 15 0), fetchHalf (bits v 31 16), fetchHalf (bits v 47 32)), fetchHalfAlpha (bits v 63 48))
    | 1 => ((uns 10 0, uns 10 10, uns 10 20), fetchAlpha 2 (bits v 31 30))
    | 2 =>
      let c (lo : Nat) : Int := if l.srgb then rne (4194304 * srgbF ((bits v (lo + 7) lo : Rat) / 255)) else uns 8 lo
      ((c 0, c 8, c 16), fetchAlpha 8 (bits v 31 24))
    | 3 => ((uns 16 0, uns 16 16, uns 16 32), 65535)
    | 4 => let o := 36 * (s % 2); ((uns 12 o, uns 12 (o + 12), uns 12 (o + 24)), 65535)
    | _ => ((0, 0, 0), fetchAlpha 8 (bits v 7 0))
  if l.isOpaque then (raw.1, 65535) else raw

/-- One buffer pixel in fetch form. -/
def Dev.fetchPixel (d : Dev) (l : Layer) (s t : Nat) : Rgba :=
  let p := l.pixelAt s t
  l.fetchForm s (d.memNat p.1 p.2)

/-! ### Orientation and taps -/

/-- The buffer pixel of an oriented crop pixel (R123, Table 5.9). -/
def Layer.source (l : Layer) (rot : Nat × Bool) (a b : Nat) : Nat × Nat :=
  let w := if rot.1 % 2 == 1 then l.ch else l.cw
  let a := if rot.2 then w - 1 - a else a
  let st := match rot.1 with
    | 0 => (a, b)
    | 1 => (b, l.ch - 1 - a)
    | 2 => (l.cw - 1 - a, l.ch - 1 - b)
    | _ => (l.cw - 1 - b, a)
  (l.cx + st.1, l.cy + st.2)

/-- The oriented crop pixel that a tap reads: none where it is zero (R126). -/
def tapPixel (l : Layer) (o : Nat × Nat) (a b : Int) : Option (Nat × Nat) :=
  let inside := 0 ≤ a && a < (o.1 : Int) && 0 ≤ b && b < (o.2 : Int)
  if !inside && l.edgeZero then none
  else some ((clampInt 0 ((o.1 : Int) - 1) a).toNat, (clampInt 0 ((o.2 : Int) - 1) b).toNat)

/-! ### WARP and SCALE -/

/-- A control point of a warp mesh: displacements clamped to ±2,048 (R124). -/
def Dev.meshPoint (d : Dev) (l : Layer) (gx gy : Nat) : Int × Int :=
  let v := d.memNat (l.warp + 4 * (gy * (ceilDiv l.dw 64 + 1) + gx)) 4
  (clampInt (-2048) 2048 (signed 16 v), clampInt (-2048) 2048 (signed 16 (v / 2 ^ 16)))

/-- The displacement of a destination pixel in 1/64 pixel (R124). -/
def Dev.warpShift (d : Dev) (l : Layer) (dx dy : Nat) : Int × Int :=
  let gx := dx / 64
  let gy := dy / 64
  let fx : Int := (dx % 64 : Nat)
  let fy : Int := (dy % 64 : Nat)
  let p00 := d.meshPoint l gx gy
  let p10 := d.meshPoint l (gx + 1) gy
  let p01 := d.meshPoint l gx (gy + 1)
  let p11 := d.meshPoint l (gx + 1) (gy + 1)
  let mix (a b c e : Int) : Int :=
    rneDiv ((64 - fx) * (64 - fy) * a + fx * (64 - fy) * b + (64 - fx) * fy * c + fx * fy * e) 4096
  (mix p00.1 p10.1 p01.1 p11.1, mix p00.2 p10.2 p01.2 p11.2)

/-- The sample position on one axis in 1/64 pixel (R125). -/
def samplePos (dx : Nat) (shift : Int) (w dw : Nat) : Int :=
  rneDiv ((128 * (dx : Int) + 2 * shift + 64) * (w : Int) - 64 * (dw : Int)) (2 * dw)

/-- Where a slot samples its layer at a pixel that it covers. -/
inductive Sample where
  /-- The single oriented pixel (R125). -/
  | point (a b : Nat)
  /-- A filtered sample: the positions on both axes (R125). -/
  | scaled (u v : Int)
  deriving DecidableEq, Repr

/-- The destination coordinates of a canvas pixel in a layer, where the layer covers it. -/
def Layer.dest (l : Layer) (x y : Nat) : Option (Nat × Nat) :=
  let dx := (x : Int) - l.dx
  let dy := (y : Int) - l.dy
  if 0 ≤ dx && dx < (l.dw : Int) && 0 ≤ dy && dy < (l.dh : Int) then some (dx.toNat, dy.toNat) else none

/-- The sample of slot `j` at a destination pixel. -/
def Dev.sampleOf (d : Dev) (k : StackV) (j : Nat) (l : Layer) (p : Nat × Nat) : Sample :=
  if k.covers tyScale j then
    let o := k.oriented j l
    let sh := if k.covers tyWarp j then d.warpShift l p.1 p.2 else (0, 0)
    .scaled (samplePos p.1 sh.1 o.1 l.dw) (samplePos p.2 sh.2 o.2 l.dh)
  else .point p.1 p.2

/-- The taps of a sample in oriented coordinates: six rows of eight, or the one pixel (R126). -/
def tapsOf : Sample → List (List (Int × Int))
  | .point a b => [[((a : Int), (b : Int))]]
  | .scaled u v => (List.range 6).map fun (r : Nat) => (List.range 8).map fun (c : Nat) =>
      (u / 64 - 3 + (c : Int), v / 64 - 2 + (r : Int))

/-- A coefficient of a SCALE bank: horizontal tap `i` of 8, or vertical tap `i` of 6, of a phase (R126). -/
def Dev.bankH (d : Dev) (bank phase i : Nat) : Int := signed 16 (d.memNat (bank + 16 * phase + 2 * i) 2)
def Dev.bankV (d : Dev) (bank phase i : Nat) : Int := signed 16 (d.memNat (bank + 1024 + 12 * phase + 2 * i) 2)

/-- A weighted sum of pixels, rounded once per channel (R127). -/
def filterRow (ws : List Int) (ps : List Rgba) : Rgba :=
  let sum (f : Rgba → Int) : Int := rneDiv ((ws.zip ps).foldl (fun a p => a + p.1 * f p.2) 0) 16384
  ((sat (sum (·.1.1)), sat (sum (·.1.2.1)), sat (sum (·.1.2.2))), (clampInt 0 65535 (sum (fun p => (p.2 : Int)))).toNat)

/-- The pixel of slot `j` after FETCH, ROTATE, WARP and SCALE. -/
def Dev.sampled (d : Dev) (k : StackV) (j : Nat) (l : Layer) (s : Sample) : Rgba :=
  let o := k.oriented j l
  let rot := k.rotation j
  let px (p : Int × Int) : Rgba := match tapPixel l o p.1 p.2 with
    | some q => let st := l.source rot q.1 q.2; d.fetchPixel l st.1 st.2
    | none => ((0, 0, 0), 0)
  match s with
  | .point a b => px (a, b)
  | .scaled u v =>
    let bank := match k.stageFor tyScale j with
      | some g => tableAddr g 0
      | none => 0
    let hs := (List.range 8).map (d.bankH bank (u % 64).toNat)
    let vs := (List.range 6).map (d.bankV bank (v % 64).toNat)
    filterRow vs ((tapsOf (.scaled u v)).map fun row => filterRow hs (row.map px))

/-! ### Colour stages -/

/-- A working value in a table of 4 B entries. -/
def Dev.tableEntry (d : Dev) (a i : Nat) : Int := working (d.memNat (a + 4 * i) 4)

/-- Apply one colour stage of either scope: DECODE, MATRIX, TONE or GAMUT (R139 to R142). -/
def Dev.colourStage (d : Dev) (s : Stage) (c : Rgb) : Rgb :=
  match s.type_ with
  | 5 =>
    let f := decodeColour d.wb.white (bits (s.p.getD 0 0) 3 0) (s.p.getD 1 0)
    (f c.1, f c.2.1, f c.2.2)
  | 6 => matrixRgb (s.p.take 12) c
  | 7 =>
    let a := tableAddr s 0
    let step := if bit (s.p.getD 2 0) 0 then 16384 else 0
    (toneColour (d.tableEntry a) c.1, toneColour (d.tableEntry (a + step)) c.2.1, toneColour (d.tableEntry (a + 2 * step)) c.2.2)
  | 9 =>
    if bit (s.p.getD 0 0) 0 then
      let a := tableAddr s 1
      gamutTable (fun r g b =>
        let e := a + ((b * 33 + g) * 33 + r) * 12
        (d.tableEntry e 0, d.tableEntry e 1, d.tableEntry e 2)) c
    else matrixRgb ((s.p.drop 1).take 12) c
  | _ => c

/-- The layer-scope colour stages of a slot, in canonical order. -/
def StackV.slotStages (k : StackV) (j : Nat) : List Stage :=
  k.stages.filter fun s => !s.stackScope && bit s.slots j && 5 ≤ s.type_ && s.type_ ≤ 7

/-- The pixel of a slot after its layer-scope stages; none where its layer does not cover the pixel. -/
def Dev.slotPixel (d : Dev) (c : Cfg) (k : StackV) (j : Nat) (s : Slot) (x y : Nat) : Option Rgba :=
  let l := layerAt c s.layer
  match l.dest x y with
  | none => none
  | some p =>
    let v := d.sampled k j l (d.sampleOf k j l p)
    some ((k.slotStages j).foldl (fun a g => d.colourStage g a) v.1, v.2)

/-! ### BLEND -/

/-- The product of a value with opacity and matte, rounded once. -/
def scaleBy (v : Int) (o m : Nat) : Int := rneDiv (v * (o : Int) * (m : Int)) (65535 * 65535)

/-- BLEND of one slot over the accumulator (R129). -/
def blendSlot (mode o m : Nat) (src acc : Rgba) : Rgba :=
  let ae := (scaleBy src.2 o m).toNat
  let keep : Int := 65535 - (ae : Int)
  let under (x : Int) : Int := rneDiv (x * keep) 65535
  let s (c : Int) : Int := if mode == 1 then rneDiv (c * (ae : Int)) 65535 else scaleBy c o m
  let ch (f : Int → Int → Int) : Rgb := (f acc.1.1 (s src.1.1), f acc.1.2.1 (s src.1.2.1), f acc.1.2.2 (s src.1.2.2))
  match mode with
  | 2 => (ch fun dc sc => sat (dc + sc), min 65535 (acc.2 + ae))
  | 3 => (ch fun dc sc => sat (rneDiv (dc * (sc * 65535 + 4194304 * keep)) (4194304 * 65535)), acc.2)
  | 4 => (ch fun _ sc => sat sc, ae)
  | _ => (ch fun dc sc => sat (sc + under dc), ae + (under acc.2).toNat)

/-- The alpha code of a slot's matte at a pixel: none where the matte does not cover it (R119, R129). -/
def Dev.matteAt (d : Dev) (c : Cfg) (k : StackV) (s : Slot) (x y : Nat) : Option Nat :=
  if !s.matteEn then some 65535
  else
    let m := k.slots.getD s.matteSlot ⟨false, 0, 0, false, 0, 0⟩
    (d.slotPixel c k s.matteSlot m x y).map (·.2)

/-- Blend the slots of a range over an accumulator. -/
def Dev.blendSlots (d : Dev) (c : Cfg) (k : StackV) (x y lo hi : Nat) (acc : Rgba) : Rgba :=
  (k.enabled.filter fun e => lo ≤ e.1 && e.1 < hi && e.2.mode != 5).foldl (fun acc e =>
    match d.matteAt c k e.2 x y, d.slotPixel c k e.1 e.2 x y with
    | some m, some p => blendSlot e.2.mode e.2.opacity m p acc
    | _, _ => acc) acc

/-! ### The settled value -/

/-- The settled value of an accumulator as the 8 B it is stored in (R187). -/
def settledBytes (a : Rgba) : List Byte :=
  leBytes 2 (colourToHalf a.1.1) ++ leBytes 2 (colourToHalf a.1.2.1) ++ leBytes 2 (colourToHalf a.1.2.2) ++ leBytes 2 (alphaToHalf a.2)

/-- A settled pixel as the porter reads it back (R187). -/
def settledRead (v : Nat) : Rgba :=
  ((fetchHalf (bits v 15 0), fetchHalf (bits v 31 16), fetchHalf (bits v 47 32)), fetchHalfAlpha (bits v 63 48))

/-- Where the settled value of a canvas pixel lies in a copy (R189). -/
def StackV.settledAddr (k : StackV) (base x y : Nat) : Nat := base + ((y - k.y) * k.w + (x - k.x)) * 8

/-- The settled value of a pixel, computed from its slots. -/
def Dev.settledValue (d : Dev) (c : Cfg) (k : StackV) (x y : Nat) : List Byte :=
  settledBytes (d.blendSlots c k x y 0 k.settle (k.base, k.baseA))

/-- How a stack is composed in a stroke: in fused form, or from the settled copy at an address (R189). -/
inductive SettleForm where
  | fused
  | copy (base : Nat)
  deriving DecidableEq, Repr

/-- The blend accumulator of a pixel after the top slot. -/
def Dev.blended (d : Dev) (c : Cfg) (k : StackV) (form : SettleForm) (x y : Nat) : Rgba :=
  let n := k.slots.length
  if k.settle == 0 then d.blendSlots c k x y 0 n (k.base, k.baseA)
  else
    let below := match form with
      | .fused => leNat (d.settledValue c k x y)
      | .copy base => d.memNat (k.settledAddr base x y) 8
    d.blendSlots c k x y k.settle n (settledRead below)

/-! ### Stack stages -/

/-- CALIBRATE of a pixel with calibration index `e` (R143, R144). -/
def Dev.calibrate (d : Dev) (k : StackV) (s : Stage) (e x y : Nat) (c : Rgb) : Rgb :=
  let a := tableAddr s 0 + 48 * e
  let m := matrixRgb ((List.range 12).map fun i => d.memNat (a + 4 * i) 4) c
  let g := tableAddr s 2 + (y - k.y) * s.p.getD 4 0 + (x - k.x) * 3
  let gain (i : Nat) (v : Int) : Int := rneDiv (v * ((d.memByte (g + i)).toNat + 1 : Nat)) 256
  (gain 0 m.1, gain 1 m.2.1, gain 2 m.2.2)

/-- The three output codes of a composed pixel, before they are shifted up (R130, R139 to R150). -/
def Dev.composePixel (d : Dev) (c : Cfg) (k : StackV) (form : SettleForm) (stroke x y : Nat) : Nat × Nat × Nat × Nat :=
  let rt := d.routeOfPixel c x y
  let pre := k.stages.filter fun s => s.stackScope && (s.type_ == tyMatrix || s.type_ == tyTone || s.type_ == tyGamut)
  let v := pre.foldl (fun a s => d.colourStage s a) (d.blended c k form x y).1
  let v := match k.stackStage tyCalibrate with
    | some s => d.calibrate k s rt.1 x y v
    | none => v
  let word := match k.stackStage tyEncode with
    | some s => s.p.getD rt.2.1 0
    | none => 0
  let dither := match k.stackStage tyDither with
    | some s => s.p.getD 0 0
    | none => 0
  let code (ch : Nat) (w : Int) : Nat :=
    ditherCode rt.2.2.1 (bits dither 7 4) (ditherNoise rt.2.2.2 stroke x y ch (bit dither 0)) (encodeColour d.wb.white word w)
  (code 0 v.1, code 1 v.2.1, code 2 v.2.2, rt.2.2.1)

/-- A composed pixel as its 6 B (R150). -/
def pixelBytes (p : Nat × Nat × Nat × Nat) : List Byte :=
  let up (v : Nat) : List Byte := leBytes 2 (v * 2 ^ (16 - p.2.2.2))
  up p.1 ++ up p.2.1 ++ up p.2.2.1

/-! ### Parcels -/

/-- The pixels of a parcel in raster order. -/
def Cut.pixels (q : Cut) : List (Nat × Nat) :=
  (List.range q.h).flatMap fun b => (List.range q.w).map fun a => (q.x + a, q.y + b)

/-- The composed bytes of a parcel, pixel by pixel in raster order. -/
def Dev.composeCut (d : Dev) (c : Cfg) (form : SettleForm) (stroke : Nat) (q : Cut) : List (List Byte) :=
  let k := stackAt c q.stack
  q.pixels.map fun p => pixelBytes (d.composePixel c k form stroke p.1 p.2)

/-- The PCV of a parcel (R276). -/
def parcelPcv (stroke region number : Nat) (pixels : List (List Byte)) : Nat :=
  crc32c (leBytes 6 stroke ++ leBytes 1 region ++ leBytes 1 0 ++ leBytes 4 number ++ leBytes 4 0 ++ pixels.flatten)

/-- The settled values of a parcel row by row, with their places in a copy: what a writer stores (R189). -/
def Dev.settledCut (d : Dev) (c : Cfg) (base : Nat) (q : Cut) : List (Nat × List Byte) :=
  let k := stackAt c q.stack
  (List.range q.h).map fun b =>
    (k.settledAddr base q.x (q.y + b), (List.range q.w).flatMap fun a => d.settledValue c k (q.x + a) (q.y + b))

/-! ### What a parcel reads -/

/-- The memory that slot `j` reads for a pixel. -/
def Dev.slotReads (d : Dev) (c : Cfg) (k : StackV) (j : Nat) (s : Slot) (x y : Nat) : List (Nat × Nat) :=
  let l := layerAt c s.layer
  match l.dest x y with
  | none => []
  | some p =>
    let o := k.oriented j l
    (tapsOf (d.sampleOf k j l p)).flatten.filterMap fun t =>
      (tapPixel l o t.1 t.2).map fun q => let st := l.source (k.rotation j) q.1 q.2; l.pixelAt st.1 st.2

/-- The blocks of memory that a parcel reads: layer pixels, settled pixels, tables, meshes, matrix entries and gains. -/
def Dev.parcelBlocks (d : Dev) (c : Cfg) (form : SettleForm) (q : Cut) : List Nat :=
  let k := stackAt c q.stack
  let lo := match form with
    | .fused => 0
    | .copy _ => k.settle
  let used := k.enabled.filter fun e => lo ≤ e.1
  let px := q.pixels.flatMap fun p => used.flatMap fun e => d.slotReads c k e.1 e.2 p.1 p.2
  let settled := match form with
    | .fused => []
    | .copy base => if k.settle == 0 then [] else q.pixels.map fun p => (k.settledAddr base p.1 p.2, 8)
  let calib := match k.stackStage tyCalibrate with
    | none => []
    | some s => q.pixels.flatMap fun p =>
        [(tableAddr s 0 + 48 * (d.routeOfPixel c p.1 p.2).1, 48),
         (tableAddr s 2 + (p.2 - k.y) * s.p.getD 4 0 + (p.1 - k.x) * 3, 3)]
  ((px ++ settled ++ calib ++ k.plainTables c).flatMap fun r => blocksOf r.1 r.2).eraseDups

end Sys2Proof.Machine
end

