-- ==== Sys2Proof/Machine/Pcs.lean ====
section
/-! DEFINITION. The lane of a Coach, twin or trunk port below its frames: PAM4 levels (R200), RS(544,514) codewords (R201), the scrambler
(R202), and what a port drives outside RUN and HOLD (R217). The field, the generator polynomial, the order of the code's
symbols, the scrambler's feed and PRBS13Q are those of IEEE 802.3, which the rules name (log 54). -/

namespace Sys2Proof.Machine

/-- The bits of a number, least significant first. -/
def bitsUp (n x : Nat) : List Nat := (List.range n).map fun i => x / 2 ^ i % 2

/-- The bits of bytes in transmission order: each byte least significant bit first (R201). -/
def bitsOfBytes (bs : List Byte) : List Nat := bs.flatMap fun b => bitsUp 8 b.toNat

/-- Bits taken in groups of `k`, the first of each group in bit 0. -/
def groupBits (k : Nat) : Nat → List Nat → List Nat
  | 0, _ => []
  | fuel + 1, bs =>
    if bs.isEmpty then [] else ((bs.take k).foldr (fun b a => b + 2 * a) 0) :: groupBits k fuel (bs.drop k)

/-- The PAM4 level of a pair of bits in transmission order (Table 9.1). -/
def pam4 (first second : Nat) : Nat :=
  match first, second with
  | 0, 0 => 0
  | 1, 0 => 1
  | 1, 1 => 2
  | _, _ => 3

/-- The levels of a bit string, a pair for each (R200). -/
def pam4Levels (bs : List Nat) : List Nat :=
  (groupBits 2 bs.length bs).map fun v => pam4 (v % 2) (v / 2)

/-! ### RS(544,514) (R201) -/

/-- Double an element of GF(2¹⁰) with the polynomial x¹⁰ + x³ + 1. -/
def gfDouble (a : Nat) : Nat := if a < 512 then 2 * a else (2 * a) ^^^ 0x409

/-- The product of two elements of GF(2¹⁰): the bits of the second from the top down. -/
def gfMul (a b : Nat) : Nat := (List.range 10).foldl (fun r i => if bit b (9 - i) then gfDouble r ^^^ a else gfDouble r) 0

/-- α to the power `j`. -/
def gfPow : Nat → Nat
  | 0 => 1
  | j + 1 => gfDouble (gfPow j)

/-- A polynomial, lowest coefficient first, times (x + c). -/
def gfTimesRoot (p : List Nat) (c : Nat) : List Nat :=
  ((0 :: p).zip (p.map (gfMul c) ++ [0])).map fun x => x.1 ^^^ x.2

/-- The generator polynomial: the product of (x + αʲ) for j from 0 to 29, lowest coefficient first. -/
def rsGenerator : List Nat := ((List.range 30).map gfPow).foldl gfTimesRoot [1]

/-- The parity register takes one message symbol: division by the generator polynomial, highest coefficient first. -/
def rsStep (g : List Nat) (reg : List Nat) (m : Nat) : List Nat :=
  let f := m ^^^ (reg.getLast?.getD 0)
  ((0 :: reg).zip (g.take 30)).map fun x => x.1 ^^^ gfMul f x.2

/-- The 30 parity symbols of a message of 514, in the order in which they are sent. -/
def rsParity (message : List Nat) : List Nat :=
  (message.foldl (rsStep rsGenerator) (List.replicate 30 0)).reverse

/-! ### Codewords -/

/-- The codeword header (Table 9.2). -/
def codewordHeader (fsp : Nat) (fs : Bool) (seq : Nat) : Nat := fsp % 1024 + (if fs then 1024 else 0) + seq % 256 * 4096

/-- The scrambler x⁵⁸ + x³⁹ + 1 over bits (R202): what goes out enters the state, whose bit `i` is the output `i` + 1 bits ago. -/
def scramble : Nat → List Nat → List Nat × Nat
  | st, [] => ([], st)
  | st, b :: bs =>
    let o := (b + st / 2 ^ 38 % 2 + st / 2 ^ 57 % 2) % 2
    let r := scramble ((2 * st + o) % 2 ^ 58) bs
    (o :: r.1, r.2)

/-- The 544 symbols of a codeword from its header and its scrambled data bits. -/
def codewordSymbols (header : Nat) (data : List Nat) : List Nat :=
  let message := groupBits 10 514 (bitsUp 20 header ++ data)
  message ++ rsParity message

/-- The levels of a codeword: each symbol bit 0 first. -/
def codewordLevels (symbols : List Nat) : List Nat := pam4Levels (symbols.flatMap (bitsUp 10))

/-- The codeword that a port's lane fills next: data bytes that wait, where the first frame that begins among them begins, its
number, and the scrambler's state. -/
def Lane.start (seq scrambler : Nat) : Lane := { fill := [], mark := none, seq := seq % 256, scrambler := scrambler % 2 ^ 58 }

/-- A frame's bytes enter the lane at the next data byte. -/
def Lane.take (l : Lane) (bs : List Byte) : Lane := { l with fill := l.fill ++ bs, mark := l.mark <|> some l.fill.length }

/-- The full codewords of a lane leave; `FSP` of a codeword in which no frame begins is `idle`, which the spec does not state. -/
def Lane.drain (idle : Nat) : Nat → Lane → List (List Nat) × Lane
  | 0, l => ([], l)
  | fuel + 1, l =>
    if l.fill.length < 640 then ([], l)
    else
      let data := scramble l.scrambler (bitsOfBytes (l.fill.take 640))
      let symbols := codewordSymbols (codewordHeader (l.mark.getD idle) l.mark.isSome l.seq) data.1
      let r := Lane.drain idle fuel { fill := l.fill.drop 640, mark := none, seq := (l.seq + 1) % 256, scrambler := data.2 }
      (codewordLevels symbols :: r.1, r.2)

/-- Codewords leave a port as levels; inverted polarity sends each as its opposite (R62, R200). -/
def Dev.sendLevels (d : Dev) (p : Nat) (ws : List (List Nat)) : Dev :=
  let levels (w : List Nat) : List Nat := if d.txInverted p then w.map (3 - ·) else w
  ws.foldl (fun (d : Dev) w => d.emit (.codeword p (levels w))) d

/-! ### The lanes of twins and trunks (R302, R326) -/

/-- IDLE frames of free lengths that fill more than a codeword: `idle` gives one by its `SEQ` and the length of its payload (R303). -/
def Dev.idleRun (d : Dev) (idle : Nat → Nat → List Byte) : Nat → List (List Byte) × Dev
  | 0 => ([], d)
  | n + 1 =>
    let r := d.idleRun idle n
    let a := r.2.freshNat
    let b := a.2.freshNat
    (idle (a.1 % 2 ^ 32) (b.1 % 4097) :: r.1, b.2)

/-- A lane has had nothing to send for a time: an IDLE frame has filled the codeword that was begun, and others have followed it. Where they
have brought the lane by now is free (R202, log 55). -/
def Dev.lanePause (d : Dev) (p : Nat) (idle : Nat → Nat → List Byte) (l : Lane) : Lane × Dev :=
  let r := d.idleRun idle 32
  let f := r.2.freshNat
  let w := Lane.drain f.1 1 (r.1.foldl Lane.take l)
  let d := if l.fill.isEmpty then f.2 else f.2.sendLevels p w.1
  let n := d.freshNat
  let bs := n.2.freshBytes (n.1 % 640)
  let begun := bs.2.freshBool
  let at_ := begun.2.freshNat
  let seq := at_.2.freshNat
  let st := seq.2.freshNat
  ({ Lane.start seq.1 st.1 with fill := bs.1, mark := if begun.1 && !bs.1.isEmpty then some (at_.1 % bs.1.length) else none }, st.2)

/-- A frame's bytes enter a twin or trunk lane at the next data byte; the codewords that they fill leave. `FSP` of a codeword in which no
frame begins is a free value (log 54). A lane sends 224/17 B/ns (R302, Table 9.3). -/
def Dev.linkBytes (d : Dev) (p : Nat) (idle : Nat → Nat → List Byte) (x : LinkCodes) (bs : List Byte) : LinkCodes × Dev :=
  let now : Rat := (d.now : Nat)
  let y := if x.until_ < now then d.lanePause p idle x.lane else (x.lane, d)
  let f := y.2.freshNat
  let l := y.1.take bs
  let r := Lane.drain f.1 (l.fill.length / 640) l
  (⟨r.2, max now x.until_ + ((bs.length : Nat) : Rat) * 17 / 224⟩, f.2.sendLevels p r.1)

/-! ### Training -/

/-- One bit of PRBS13 (x¹³ + x¹² + x² + x + 1), and the next state. -/
def prbs13 : Nat → Nat → List Nat
  | 0, _ => []
  | n + 1, st =>
    let o := (st / 2 ^ 12 + st / 2 ^ 11 + st / 2 + st) % 2
    o :: prbs13 n ((2 * st + o) % 2 ^ 13)

/-- `n` symbols of PRBS13Q from a state of its generator: pairs of bits, Gray coded with the first bit the more significant. -/
def prbs13q (n st : Nat) : List Nat :=
  (groupBits 2 n (prbs13 (2 * n) st)).map fun v => match v with
    | 0 => 0
    | 2 => 1
    | 3 => 2
    | _ => 3

end Sys2Proof.Machine
end

