-- ==== Sys2Proof/Machine/TallyValue.lean ====
section
/-! DEFINITION. The tally units' check value (R363), their result FIFO (R374), and what a unit in link mode does with the
frames of a link (R370 to R372). -/

namespace Sys2Proof.Machine

def Dev.tly (d : Dev) (u : Nat) : Tly := d.tallies.get (fun _ => {}) u

/-- Store a unit, and show how many result entries it holds in `TLY_RF_COUNT`. -/
def Dev.setTly (d : Dev) (u : Nat) (t : Tly) : Dev :=
  { d with tallies := d.tallies.set (fun _ => {}) u t }.setReg (Reg.TLY_RF_COUNT u) t.fifo.length

/-- The parameters of a unit as its registers stand: width, `POLY`, `INIT`, `REFIN`, `REFOUT`, `XOROUT` (Table 16.4). -/
def Dev.tlyParams (d : Dev) (u : Nat) : Nat × Nat × Nat × Bool × Bool × Nat :=
  (d.fld (Reg.TLY_CFG u) Fld.TLY_CFG_WIDTH + 1, d.pair (Reg.TLY_POLY_LO u) (Reg.TLY_POLY_HI u),
    d.pair (Reg.TLY_INIT_LO u) (Reg.TLY_INIT_HI u), d.flag (Reg.TLY_CFG u) Fld.TLY_CFG_REFIN,
    d.flag (Reg.TLY_CFG u) Fld.TLY_CFG_REFOUT, d.pair (Reg.TLY_XOROUT_LO u) (Reg.TLY_XOROUT_HI u))

/-- The check value over bytes: only the low `w` bits of `POLY`, `INIT` and `XOROUT` take part (R363). -/
def tlyValue (p : Nat × Nat × Nat × Bool × Bool × Nat) (bs : List Byte) : Nat :=
  crcGeneral p.1 (p.2.1 % 2 ^ p.1) p.2.2.1 p.2.2.2.1 p.2.2.2.2.1 p.2.2.2.2.2 bs

/-- A flag of a unit's `TLY_EVENT` sets: the unit's source rises (R375). -/
def Dev.tlyEvent (d : Dev) (u : Nat) (f : Fld) : Dev :=
  (d.setFlag (Reg.TLY_EVENT u) f).raiseIf (!d.flag (Reg.TLY_EVENT u) f) (0x4620 + u)

/-- Push a result entry: a full FIFO drops it (R374). The flag says whether it was dropped. -/
def Dev.tlyPush (d : Dev) (u : Nat) (x : TlyResult) : Bool × Dev :=
  let t := d.tly u
  if 16 ≤ t.fifo.length then (true, d.count (Reg.TLY_RF_DROP_CNT u)) else (false, d.setTly u { t with fifo := t.fifo ++ [x] })

/-! ### Link mode -/

/-- The unit that is bound to a link: 0 the twin link, 1 the trunk (R370). -/
def Dev.tlyBound (d : Dev) (link : Nat) : Option Nat :=
  if !d.hasTly then none
  else (List.range 16).find? fun u =>
    d.fld (Reg.TLY_CFG u) Fld.TLY_CFG_MODE == 1 && d.fld (Reg.TLY_CFG u) Fld.TLY_CFG_LINK == link

/-- Whether a frame type is covered on the twin link, or on the trunk (R370). -/
def twinCovered (t : Nat) : Bool := 0x20 ≤ t
def trunkCovered (t : Nat) : Bool := (0x20 ≤ t && t ≤ 0x27) || t == 0x30 || t == 0x31

/-- The fold prefix of a covered frame (R370). -/
def linkPrefix (type_ origin seq : Nat) : List Byte := leBytes 1 type_ ++ leBytes 1 origin ++ leBytes 2 0 ++ leBytes 4 seq

/-- The parameters of a bound unit. -/
def Dev.linkParams (d : Dev) (u : Nat) : Nat × Nat × Nat × Bool × Bool × Nat := (d.tly u).params.getD (d.tlyParams u)

/-- Append the value of the bound unit to a covered frame that the device creates (R370). -/
def Dev.tlyAppend (d : Dev) (link type_ origin seq : Nat) (payload : List Byte) : List Byte × Dev :=
  match d.tlyBound link with
  | none => (payload, d)
  | some u =>
    let p := d.linkParams u
    (payload ++ leBytes ((p.1 + 7) / 8) (tlyValue p (linkPrefix type_ origin seq ++ payload)), d.count (Reg.TLY_APPEND_CNT u))

/-- A strip failure of a bound unit (R372); the device's own answer to it is its link's. -/
def Dev.stripFailed (d : Dev) (u type_ seq value : Nat) : Dev :=
  let d := d.count (Reg.TLY_STRIP_FAIL_CNT u)
  let d := (d.tlyPush u ⟨value, seq % 2 ^ 16 * 2 ^ 16 + type_ * 2 ^ 8 + 2 * 2 ^ 4⟩).2
  d.tlyEvent u Fld.TLY_EVENT_STRIP_FAIL

/-- Strip and check the value of a covered frame (R370, R372): the payload without it, or none where it fails. -/
def Dev.tlyStrip (d : Dev) (link type_ origin fold seq : Nat) (payload : List Byte) : Option (List Byte) × Dev :=
  match d.tlyBound link with
  | none => (some payload, d)
  | some u =>
    let p := d.linkParams u
    let n := payload.length - (p.1 + 7) / 8
    let body := payload.take n
    let got := leNat (payload.drop n)
    let d := d.count (Reg.TLY_STRIP_CNT u)
    if (p.1 + 7) / 8 ≤ payload.length && got == tlyValue p (linkPrefix type_ origin fold ++ body) then (some body, d)
    else (none, d.stripFailed u type_ seq got)

/-- The same of a covered frame whose payload the spec gives no layout: the value received is told from outside where it does not agree. -/
def Dev.tlyStripTold (d : Dev) (link type_ seq : Nat) (wrong : Option Nat) : Bool × Dev :=
  match d.tlyBound link with
  | none => (true, d)
  | some u =>
    let d := d.count (Reg.TLY_STRIP_CNT u)
    match wrong with
    | none => (true, d)
    | some v => (false, d.stripFailed u type_ seq (v % 2 ^ (8 * (((d.linkParams u).1 + 7) / 8))))

/-- The value that came with a covered frame where it does not agree, from the operands of its command. -/
def toldWrong (agrees : Bool) (value : Nat) : Option Nat := if agrees then none else some value

/-- Count the value that is appended to a covered frame whose payload the spec gives no layout. -/
def Dev.tlyAppendTold (d : Dev) (link : Nat) : Dev :=
  match d.tlyBound link with
  | none => d
  | some u => d.count (Reg.TLY_APPEND_CNT u)

end Sys2Proof.Machine
end

