-- ==== Sys2Proof/Machine/Link.lean ====
section
/-! DEFINITION. The twin link's frames and their sequence (R303, R304): what the other units use to send on it. -/

namespace Sys2Proof.Machine

/-- A frame whose check is the CRC-32C over a fold block, header and payload (R206, R303, R327). -/
def checkedFrame (fold header payload : List Byte) : List Byte :=
  header ++ payload ++ leBytes 4 (crc32c (fold ++ header ++ payload))

/-- The pairing state (`TWN_STATUS.STATE`): 0 IDLE, 1 AUTH, 2 JOIN, 3 PAIRED, 4 ALONE, 5 FAILED. -/
def Dev.twnState (d : Dev) : Nat := d.fld Reg.TWN_STATUS Fld.TWN_STATUS_STATE

/-- The device is in JOIN or PAIRED. -/
def Dev.paired (d : Dev) : Bool := d.hasTwn && (d.twnState == 2 || d.twnState == 3)

/-- The acting role: true for the acting secondary. -/
def Dev.secondary (d : Dev) : Bool := d.flag Reg.TWN_STATUS Fld.TWN_STATUS_ACTING

/-- The acting primary, or the acting secondary, of a pair in JOIN or PAIRED. -/
def Dev.primaryPaired (d : Dev) : Bool := d.paired && !d.secondary
def Dev.secondaryPaired (d : Dev) : Bool := d.paired && d.secondary

/-- State of a twin lane: 0 DOWN, 1 TRAIN, 2 ALIGNED. -/
def Dev.lane (d : Dev) (p : Nat) : Nat := d.twn.lanes.get (fun _ => 0) p

/-- The aligned twin lanes, in ascending port order. -/
def Dev.alignedLanes (d : Dev) : List Nat := (d.portsOf 3).filter fun p => d.lane p == 2

/-- `ACK`: the highest `SEQ` that has been taken in order (R304). -/
def Dev.twnAckField (d : Dev) : Nat := (d.twn.rxNext + (2 ^ 32 - 1)) % 2 ^ 32

/-- A twin frame's header (R303). -/
def Dev.twnHeader (d : Dev) (type_ seq length : Nat) : List Byte :=
  leBytes 1 type_ ++ leBytes 1 0 ++ leBytes 2 length ++ leBytes 4 seq ++ leBytes 4 d.twnAckField ++ leBytes 4 0

/-- A twin frame as it goes out (R303). -/
def Dev.twnFrame (d : Dev) (session : List Byte) (type_ seq : Nat) (payload : List Byte) : List Byte :=
  checkedFrame session (d.twnHeader type_ seq payload.length) payload

/-- The bytes that wait on a lane: it sends data bytes at 112.0 Gb/s × 5,120 ÷ 5,440, which is 224/17 B/ns (R302, Table 9.3). -/
def Dev.laneQueued (d : Dev) (p : Nat) : Rat :=
  let empty : Rat := d.twn.queues.get (fun _ => (0 : Rat)) p
  max (0 : Rat) ((empty - ((d.now : Nat) : Rat)) * 224 / 17)

/-- The aligned lane with the fewest queued bytes (R303); of several with equally few, a free one (log 9). -/
def Dev.leastLane (d : Dev) : Option Nat × Dev :=
  let least := d.alignedLanes.filter fun p => d.alignedLanes.all fun q => decide (d.laneQueued p ≤ d.laneQueued q)
  match least with
  | [] => (none, d)
  | [p] => (some p, d)
  | ps =>
    let r := d.freshNat
    (ps[r.1 % ps.length]?, r.2)

/-- `n` bytes join those that wait on a lane. -/
def Dev.laneQueue (d : Dev) (p n : Nat) : Dev :=
  let empty : Rat := d.twn.queues.get (fun _ => (0 : Rat)) p
  let at_ : Rat := max ((d.now : Nat) : Rat) empty + ((n : Nat) : Rat) * 17 / 224
  { d with twn := { d.twn with queues := d.twn.queues.set (fun _ => (0 : Rat)) p at_ } }

/-- `TYPE` of a message (Table 13.1). -/
def TwinMsg.type_ : TwinMsg → Nat
  | .bytes t _ => t
  | .mirror _ => 0x20
  | .state .. => 0x21
  | .ready .. => 0x22
  | .decision .. => 0x23

/-- An IDLE frame of `n` zero bytes on a lane: what it sends while it has nothing to send (R303). No command of the table stands for
that instant (log 55). -/
def Dev.twnIdleFrame (d : Dev) (seq n : Nat) : List Byte := d.twnFrame d.twn.session 0x00 seq (List.replicate n 0)

/-- A twin frame's bytes go through the lane's codewords (R302). -/
def Dev.twnCodes (d : Dev) (p : Nat) (bs : List Byte) : Dev :=
  let r := d.linkBytes p d.twnIdleFrame (d.twn.codes.get (fun _ => {}) p) bs
  { r.2 with twn := { r.2.twn with codes := r.2.twn.codes.set (fun _ => {}) p r.1 } }

/-- Put a twin frame on the aligned lane with the fewest queued bytes (R303). The bytes of a payload without a layout are free, and how many
they are (log 9). -/
def Dev.twnEmit (d : Dev) (session : List Byte) (seq : Nat) (msg : TwinMsg) : Dev :=
  let l := d.leastLane
  match l.1 with
  | none => d
  | some p =>
    let d := l.2
    match msg with
    | .bytes t payload =>
      let bs := d.twnFrame session t seq payload
      ((d.emit (.frame p bs)).twnCodes p bs).laneQueue p bs.length
    | m =>
      let n := d.freshNat
      let f := n.2.freshBytes (n.1 % 4097)
      let bs := d.twnFrame session m.type_ seq f.1
      ((f.2.emit (.twin p m.type_ seq d.twnAckField session m)).twnCodes p bs).laneQueue p bs.length

/-- Send a sequenced twin frame; it stays in the replay buffer until its number is acknowledged (R304). A covered frame takes
the value of a bound tally unit (R370). -/
def Dev.twnSendMsg (d : Dev) (msg : TwinMsg) : Dev :=
  let seq := d.twn.txSeq
  let r : TwinMsg × Dev := match msg with
    | .bytes t payload => if twinCovered t then
        let a := d.tlyAppend 0 t 0 seq payload
        (.bytes t a.1, a.2)
      else (msg, d)
    | m => (m, d.tlyAppendTold 0)
  let d := r.2.twnEmit d.twn.session seq r.1
  let x : SentTwin := { seq, msg := r.1, session := d.twn.session }
  { d with twn := { d.twn with txSeq := (seq + 1) % 2 ^ 32, sent := d.twn.sent ++ [x] } }

/-- Send a sequenced twin frame by its bytes. -/
def Dev.twnSend (d : Dev) (type_ : Nat) (payload : List Byte) : Dev := d.twnSendMsg (.bytes type_ payload)

/-- Send mirrored items in one MIRROR frame (R312, R313), which counts each. -/
def Dev.twnMirror (d : Dev) (items : List MirrorItem) : Dev :=
  (d.twnSendMsg (.mirror items)).countBy Reg.TWN_MIRROR_CNT items.length

/-- Send an unsequenced twin frame; the spec gives its `SEQ` field no value (log 9). -/
def Dev.twnSendLoose (d : Dev) (type_ : Nat) (payload : List Byte) : Dev :=
  let r := d.freshNat
  r.2.twnEmit d.twn.session (r.1 % 2 ^ 32) (.bytes type_ payload)

/-- Whether a sequenced frame has been acknowledged, or need no longer be: a device in neither JOIN nor PAIRED acts alone (R323). -/
def Dev.twnAcked (d : Dev) (seq : Nat) : Bool := !d.paired || !(d.twn.sent.any (·.seq == seq))

/-- Latch a flag of `TWN_EVENT`. -/
def Dev.twnEvent (d : Dev) (f : Fld) : Dev := d.setFlag Reg.TWN_EVENT f

end Sys2Proof.Machine
end

