-- ==== Sys2Proof/Machine/Crypto.lean ====
section
/-! DEFINITION. SHA-384, HMAC-SHA-384 and ECDSA P-384 verification, which the spec names without repeating
(R58, R72, R73, R309, R328, R431). PRESUMED from FIPS 180-4, FIPS 198-1 and FIPS 186-4 (log 10). -/

namespace Sys2Proof.Machine


/-- Whether a number above 1 has no divisor from 2 to itself less one. -/
def isPrime (n : Nat) : Bool := n > 1 && (List.range (intRoot 2 16 n + 1)).all fun d => d < 2 || n % d != 0

/-- The first `n` primes. -/
def primes (n : Nat) : List Nat := ((List.range 420).filter isPrime).take n

/-- The 64-bit fractional part of the cube root of a prime: the round constants of SHA-384. -/
def shaK : List Nat := (primes 80).map fun p => intRoot 3 68 (p * 2 ^ 192) % 2 ^ 64

/-- The 64-bit fractional part of the square roots of the ninth to sixteenth primes: the start of SHA-384. -/
def shaInit : List Nat := ((primes 16).drop 8).map fun p => intRoot 2 68 (p * 2 ^ 128) % 2 ^ 64

/-- Rotation to the right of a 64-bit number. -/
def rotr64 (n x : Nat) : Nat := (x / 2 ^ n + x % 2 ^ n * 2 ^ (64 - n)) % 2 ^ 64

/-- Extend the sixteen words of a block to the eighty of the message schedule (kept newest first). -/
def shaSchedule : Nat → List Nat → List Nat
  | 0, w => w
  | n + 1, w =>
    let a := w.getD 1 0
    let b := w.getD 14 0
    let s1 := rotr64 19 a ^^^ rotr64 61 a ^^^ (a / 2 ^ 6)
    let s0 := rotr64 1 b ^^^ rotr64 8 b ^^^ (b / 2 ^ 7)
    shaSchedule n ((s1 + w.getD 6 0 + s0 + w.getD 15 0) % 2 ^ 64 :: w)

/-- One round of SHA-384 on the eight working variables. -/
def shaRound (v : List Nat) (kw : Nat × Nat) : List Nat :=
  match v with
  | [a, b, c, d, e, f, g, h] =>
    let s1 := rotr64 14 e ^^^ rotr64 18 e ^^^ rotr64 41 e
    let ch := (e &&& f) ^^^ ((2 ^ 64 - 1 - e) &&& g)
    let t1 := h + s1 + ch + kw.1 + kw.2
    let s0 := rotr64 28 a ^^^ rotr64 34 a ^^^ rotr64 39 a
    let maj := (a &&& b) ^^^ (a &&& c) ^^^ (b &&& c)
    [(t1 + s0 + maj) % 2 ^ 64, a, b, c, (d + t1) % 2 ^ 64, e, f, g]
  | _ => v

/-- The compression of one block given as sixteen words. -/
def shaBlock (hs : List Nat) (w : List Nat) : List Nat :=
  let sched := (shaSchedule 64 w.reverse).reverse
  let v := (shaK.zip sched).foldl shaRound hs
  (hs.zip v).map fun p => (p.1 + p.2) % 2 ^ 64

/-- Cut a list into pieces of `n`, with fuel for the number of pieces. -/
def chunks {α : Type} (n : Nat) : Nat → List α → List (List α)
  | 0, _ => []
  | k + 1, l => if l.isEmpty then [] else l.take n :: chunks n k (l.drop n)

/-- SHA-384 of a list of bytes, as 48 bytes. -/
def sha384 (m : List Byte) : List Byte :=
  let n := m.length
  let zeros := (111 + 128 - n % 128) % 128
  let p := m ++ [0x80] ++ List.replicate zeros 0 ++ beBytes 16 (8 * n)
  let blocks := chunks 128 (p.length / 128) p
  let hs := blocks.foldl (fun h b => shaBlock h ((chunks 8 16 b).map beNat)) shaInit
  (hs.take 6).flatMap (beBytes 8)

/-- HMAC-SHA-384 of a message under a key of at most 128 bytes. -/
def hmac384 (key msg : List Byte) : List Byte :=
  let k := key ++ List.replicate (128 - key.length) 0
  sha384 (k.map (· ^^^ 0x5C) ++ sha384 (k.map (· ^^^ 0x36) ++ msg))

namespace P384

/-- The field prime of P-384. -/
def p : Nat := 2 ^ 384 - 2 ^ 128 - 2 ^ 96 + 2 ^ 32 - 1

/-- The order of the base point of P-384. -/
def n : Nat := 0xFFFFFFFFFFFFFFFFFFFFFFFFFFFFFFFFFFFFFFFFFFFFFFFFC7634D81F4372DDF581A0DB248B0A77AECEC196ACCC52973

/-- The curve coefficient b of P-384. -/
def b : Nat := 0xB3312FA7E23EE7E4988E056BE3F82D19181D9C6EFE8141120314088F5013875AC656398D8A2ED19D2A85C8EDD3EC2AEF

/-- The base point of P-384. -/
def gx : Nat := 0xAA87CA22BE8B05378EB1C71EF320AD746E1D3B628BA79B9859F741E082542A385502F25DBF55296C3A545E3872760AB7
def gy : Nat := 0x3617DE4A96262C6F5D9E98BF9292DC29F8F41DBD289A147CE9DA3113B5F0B8C00A60B1CE1D7E819D7A431D7C90EA0E5F

/-- Power modulo `m`, the exponent taken bit by bit from the top. -/
def powMod (m x : Nat) : Nat → Nat → Nat → Nat
  | 0, _, acc => acc
  | k + 1, e, acc =>
    let sq := acc * acc % m
    powMod m x k e (if e / 2 ^ k % 2 == 1 then sq * x % m else sq)

/-- The inverse modulo a prime, by Fermat's theorem. -/
def inv (m x : Nat) : Nat := powMod m (x % m) 384 (m - 2) 1

/-- Subtraction modulo `p`. -/
def sub (x y : Nat) : Nat := (x % p + p - y % p) % p

/-- Addition of points; `none` is the point at infinity. -/
def add : Option (Nat × Nat) → Option (Nat × Nat) → Option (Nat × Nat)
  | none, q => q
  | q, none => q
  | some (x1, y1), some (x2, y2) =>
    if x1 == x2 && (y1 + y2) % p == 0 then none
    else
      let l := if x1 == x2 then (sub (3 * x1 * x1) 3) * inv p (2 * y1) % p else (sub y2 y1) * inv p (sub x2 x1) % p
      let x3 := sub (l * l) (x1 + x2)
      some (x3, sub (l * sub x1 x3) y1)

/-- A multiple of a point, the scalar taken bit by bit from the top. -/
def mul (k : Nat) (q : Option (Nat × Nat)) : Nat → Option (Nat × Nat) → Option (Nat × Nat)
  | 0, acc => acc
  | i + 1, acc =>
    let d := add acc acc
    mul k q i (if k / 2 ^ i % 2 == 1 then add d q else d)

/-- Whether 97 bytes spell a point of the curve in uncompressed form. -/
def onCurve (x y : Nat) : Bool := x < p && y < p && y * y % p == (sub (x * x * x) (3 * x) + b) % p

end P384

/-- ECDSA P-384 verification: a 97-byte uncompressed key, the message and the 96-byte signature (r, s). -/
def ecdsaVerify (key msg sig : List Byte) : Bool :=
  let x := beNat ((key.drop 1).take 48)
  let y := beNat ((key.drop 49).take 48)
  let r := beNat (sig.take 48)
  let s := beNat ((sig.drop 48).take 48)
  let e := beNat (sha384 msg)
  if key.length != 97 || key.head? != some 4 || sig.length != 96 || !(P384.onCurve x y) then false
  else if r == 0 || s == 0 || P384.n ≤ r || P384.n ≤ s then false
  else
    let w := P384.inv P384.n s
    let u1 := e * w % P384.n
    let u2 := r * w % P384.n
    match P384.add (P384.mul u1 (some (P384.gx, P384.gy)) 384 none) (P384.mul u2 (some (x, y)) 384 none) with
    | none => false
    | some (x', _) => x' % P384.n == r

end Sys2Proof.Machine
end

