-- ==== Sys2Proof/Machine/Waybill.lean ====
section
/-! DEFINITION. The waybill loader: the checks of an image in the order of R77 (R58 to R74), what a loaded image sets (R57,
Table 3.1) and the course of a load (R76 to R78). -/

namespace Sys2Proof.Machine

/-- The load error codes (Table 3.8). -/
def errNoImage : Nat := 0x01
def errFormat : Nat := 0x02
def errKey : Nat := 0x03
def errSignature : Nat := 0x04
def errUnsigned : Nat := 0x05
def errSection : Nat := 0x06
def errGrade : Nat := 0x07
def errBlocks : Nat := 0x08
def errPorts : Nat := 0x09
def errCrews : Nat := 0x0A
def errRings : Nat := 0x0B
def errMemory : Nat := 0x0C
def errBellboard : Nat := 0x0D
def errRoles : Nat := 0x0E
def errFlash : Nat := 0x0F
def errSize : Nat := 0x10
def errGlobal : Nat := 0x11

/-- A check that gives an error code and the image offset of the failing item when it fails (R78, log 11). -/
def need (ok : Bool) (code offset : Nat) : Except (Nat × Nat) Unit := if ok then .ok () else .error (code, offset)

/-- `need` for every element of a list, in order. -/
def needAll {α : Type} (l : List α) (f : α → Except (Nat × Nat) Unit) : Except (Nat × Nat) Unit := l.forM f

/-- The little-endian number of `n` bytes at an offset of an image. -/
def imgNat (img : List Byte) (off n : Nat) : Nat := leNat ((img.drop off).take n)

/-- The header check, its conditions in the order of R77. -/
def checkHeader (img : List Byte) : Except (Nat × Nat) Unit := do
  need (imgNat img 0 4 == 0x4C425957) errNoImage 0
  need (imgNat img 4 2 == 1) errFormat 4
  let count := imgNat img 6 2
  need (count == 7 || count == 8) errFormat 6
  let length := imgNat img 8 4
  let signed := bit (imgNat img 0x10 4) 0
  need (length % 4 == 0 && 0x100 + 16 * count + (if signed then 96 else 0) ≤ length) errFormat 8
  need (length ≤ 2 ^ 23) errSize 8

/-- Authentication (R73, R74): `keyHash` is the fused hash, `sec` the security state. -/
def checkAuth (img keyHash : List Byte) (hashFused : Bool) (sec : Nat) : Except (Nat × Nat) Unit := do
  let length := imgNat img 8 4
  if bit (imgNat img 0x10 4) 0 then
    let key := (img.drop 0x40).take 97
    need (hashFused && sha384 key == keyHash) errKey 0x40
    need (ecdsaVerify key (img.take (length - 96)) ((img.drop (length - 96)).take 96)) errSignature (length - 96)
  else need (sec == 0) errUnsigned 0x10

/-- A section: its type, image offset and bytes. -/
structure Section_ where
  kind : Nat
  offset : Nat
  data : List Byte
  deriving DecidableEq, Repr

/-- The section of a type. -/
def sectionOf (ss : List Section_) (kind : Nat) : Option Section_ := ss.find? (·.kind == kind)

/-- Whether a section's size fits its layout (Table 3.3). -/
def sizeFits (kind size : Nat) (data : List Byte) : Bool :=
  match kind with
  | 1 => size == 16
  | 2 => size == 4
  | 3 => size == 512
  | 4 => 8 ≤ size && size == 8 + 12 * imgNat data 4 2
  | 5 => size % 8 == 0 && size ≤ 8 * 64
  | 6 => size % 8 == 0 && size ≤ 8 * 16
  | 7 => size % 4 == 0 && size ≤ 4 * 1024
  | 8 => size == 4
  | _ => false

/-- Two ranges of numbers have no element in common. -/
def apart (a n b m : Nat) : Bool := a + n ≤ b || b + m ≤ a || n == 0 || m == 0

/-- Check the directory entries in order and collect the sections (R59). -/
def readSections (img : List Byte) (limit : Nat) : List Nat → List Section_ → Except (Nat × Nat) (List Section_)
  | [], ss => .ok ss
  | i :: is, ss => do
    let e := 0x100 + 16 * i
    let kind := imgNat img e 2
    let off := imgNat img (e + 4) 4
    let size := imgNat img (e + 8) 4
    let data := (img.drop off).take size
    let count := imgNat img 6 2
    need (1 ≤ kind && kind ≤ 8 && imgNat img (e + 2) 2 == 1 && (sectionOf ss kind).isNone) errSection e
    need (off % 4 == 0 && off + size ≤ limit && 0x100 + 16 * count ≤ off &&
      ss.all fun s => apart off size s.offset s.data.length) errSection e
    need (sizeFits kind size data) errSection e
    need (crc32c data == imgNat img (e + 12) 4) errSection off
    readSections img limit is (ss ++ [⟨kind, off, data⟩])

/-- The directory, section sizes and section checks (R59): CREWS exactly when BLOCKS includes PRT (Table 3.3). -/
def checkSections (img : List Byte) : Except (Nat × Nat) (List Section_) := do
  let length := imgNat img 8 4
  let limit := if bit (imgNat img 0x10 4) 0 then length - 96 else length
  let ss ← readSections img limit (List.range (imgNat img 6 2)) []
  needAll [1, 2, 3, 5, 6, 7, 8] fun k => need (sectionOf ss k).isSome errSection 0x100
  let prt := match sectionOf ss 2 with | some b => bit (leNat b.data) 2 | none => false
  need ((sectionOf ss 4).isSome == prt) errSection 0x100
  return ss

/-- The bytes and offset of a section; empty where it is missing. -/
def secData (ss : List Section_) (kind : Nat) : List Byte := ((sectionOf ss kind).map (·.data)).getD []
def secOff (ss : List Section_) (kind : Nat) : Nat := ((sectionOf ss kind).map (·.offset)).getD 0

/-- The GLOBAL checks (R60). -/
def checkGlobal (ss : List Section_) (speed : Nat) : Except (Nat × Nat) Unit := do
  let g := secData ss 1
  let o := secOff ss 1
  need (imgNat g 0 1 ≤ 1) errGlobal o
  need (imgNat g 1 1 == 0) errGlobal (o + 1)
  need (1 ≤ imgNat g 2 2 && imgNat g 2 2 ≤ 10000) errGlobal (o + 2)
  need (imgNat g 12 4 == 0) errGlobal (o + 12)
  need (!(imgNat g 0 1 == 1 && speed == 4)) errGrade o

/-- The BLOCKS checks (R61, R13). -/
def checkBlocks (ss : List Section_) : Except (Nat × Nat) Unit := do
  let b := leNat (secData ss 2)
  need (bit b 2 == bit b 3 && b < 128) errBlocks (secOff ss 2)

/-- The PORTS entries. -/
def portEntries (ss : List Section_) : List Nat := (List.range 128).map fun p => imgNat (secData ss 3) (4 * p) 4

/-- How many entries have a role. -/
def roleCount (es : List Nat) (r : Nat) : Nat := (es.filter fun e => e % 8 == r).length

/-- The PORTS checks (R63, Table 3.5). -/
def checkPorts (ss : List Section_) : Except (Nat × Nat) Unit := do
  let es := portEntries ss
  let o := secOff ss 3
  let b := leNat (secData ss 2)
  let role (p : Nat) : Nat := es.getD p 0 % 8
  needAll (List.range 128) fun p => need (es.getD p 0 < 64 && role p ≤ 4) errPorts (o + 4 * p)
  needAll (List.range 32) fun q =>
    let rs := (List.range 4).map fun k => role (4 * q + k)
    need ((!(rs.contains 2) || rs.all fun r => r == 0 || r == 2) && (!(rs.contains 3) || rs.all (· == 3))) errPorts (o + 16 * q)
  let twin := roleCount es 3
  need ((twin == 0 || twin == 4 || twin == 8) && (twin == 0) == !(bit b 4)) errPorts o
  need (roleCount es 1 ≤ 120 && roleCount es 2 ≤ 64 && roleCount es 4 ≤ 16 && (roleCount es 4 == 0) == !(bit b 5)) errPorts o
  needAll (List.range 128) fun p =>
    need (!(bit (es.getD p 0) 3) || (p % 2 == 0 && role p == 2 && role (p + 1) == 2)) errPorts (o + 4 * p)
  need (roleCount es 1 == 0 || bit b 2) errPorts o

/-- The output regions of a CREWS section. -/
def crewRegions (ss : List Section_) : List Region :=
  let c := secData ss 4
  (List.range (imgNat c 4 2)).map fun i =>
    let o := 8 + 12 * i
    ⟨imgNat c o 2, imgNat c (o + 2) 2, imgNat c (o + 4) 2 + 1, imgNat c (o + 6) 2 + 1, imgNat c (o + 8) 2⟩

/-- Whether two regions share a canvas pixel. -/
def Region.overlaps (a b : Region) : Bool := !(apart a.x a.w b.x b.w) && !(apart a.y a.h b.y b.h)

/-- The CREWS checks (R64). -/
def checkCrews (ss : List Section_) : Except (Nat × Nat) Unit := do
  if (sectionOf ss 4).isNone then return
  let c := secData ss 4
  let o := secOff ss 4
  let w := imgNat c 0 2 + 1
  let h := imgNat c 2 2 + 1
  let n := imgNat c 4 2
  let rs := crewRegions ss
  need (w * h ≤ 2 ^ 28) errCrews o
  need (1 ≤ n && n ≤ 4) errCrews (o + 4)
  need (imgNat c 6 2 == 0) errCrews (o + 6)
  needAll ((List.range n).zip rs) fun p =>
    let r := p.2
    let earlier := rs.take p.1
    need (r.x + r.w ≤ w && r.y + r.h ≤ h && r.crews != 0 && imgNat c (8 + 12 * p.1 + 10) 2 == 0 &&
      earlier.all fun q => !(q.overlaps r) && (q.crews &&& r.crews) == 0) errCrews (o + 8 + 12 * p.1)
  need (rs.foldl (fun a r => a ||| r.crews) 0 == 0xFFFF) errCrews o

/-- The entries of the RINGS section. -/
def ringDefs (ss : List Section_) : List RingDef :=
  let d := secData ss 5
  (List.range (d.length / 8)).map fun i => ⟨imgNat d (8 * i) 2, imgNat d (8 * i + 2) 2, imgNat d (8 * i + 4) 1, imgNat d (8 * i + 5) 1⟩

/-- Whether a class needs an optional block that is absent (Table 3.6). -/
def classAllowed (blocks cls : Nat) : Bool :=
  match cls with
  | 3 => bit blocks 0
  | 4 => bit blocks 1
  | 7 => bit blocks 4
  | 8 => bit blocks 5
  | c => 1 ≤ c && c ≤ 9

/-- The RINGS checks (R66); a logarithm outside 4 to 16 fails too (log 31). -/
def checkRings (ss : List Section_) : Except (Nat × Nat) Unit := do
  let rs := ringDefs ss
  let o := secOff ss 5
  let b := leNat (secData ss 2)
  needAll ((List.range rs.length).zip rs) fun p =>
    let r := p.2
    need (r.first + r.count ≤ 16384 && classAllowed b r.cls && 4 ≤ r.maxLog && r.maxLog ≤ 16 &&
      (rs.take p.1).all fun q => apart q.first q.count r.first r.count) errRings (o + 8 * p.1)

/-- The entries of the MEMORY section. -/
def memParts (ss : List Section_) : List Part :=
  let d := secData ss 6
  (List.range (d.length / 8)).map fun i => ⟨imgNat d (8 * i) 2, imgNat d (8 * i + 2) 2, imgNat d (8 * i + 4) 1⟩

/-- The MEMORY checks (R67); a size of 0 fails too (log 31). -/
def checkMemory (ss : List Section_) : Except (Nat × Nat) Unit := do
  let ps := memParts ss
  let o := secOff ss 6
  needAll ((List.range ps.length).zip ps) fun q =>
    let p := q.2
    need (1 ≤ p.size && p.base + p.size ≤ 64512 && p.kind ≤ 5 &&
      (ps.take q.1).all fun x => apart x.base x.size p.base p.size) errMemory (o + 8 * q.1)
  need ((ps.filter (·.kind == 4)).length == (if bit (leNat (secData ss 2)) 2 then 1 else 0)) errMemory o

/-- The entries of the BELLBOARD section. -/
def bellRoutes (ss : List Section_) : List Route :=
  let d := secData ss 7
  (List.range (d.length / 4)).map fun i =>
    let t := imgNat d (4 * i + 3) 1
    ⟨imgNat d (4 * i) 2, imgNat d (4 * i + 2) 1 + 1, t % 64, bit t 6⟩

/-- Whether a source exists: it is no reserved number, and its block, ring, port or line is present (R69; the sources of
Tables 4.14, 7.3, 8.14, 9.16, 10.9, 11.9, 12.10, 13.12, 14.12, 15.7, 18.7 and 19.16). -/
def sourceExists (blocks : Nat) (roles : List Nat) (rings : List RingDef) (s : Nat) : Bool :=
  let role (p : Nat) : Nat := roles.getD p 0 % 8
  if s < 0x4000 then rings.any fun r => r.first ≤ s && s < r.first + r.count
  else if s ≤ 0x4007 then true
  else if 0x4100 ≤ s && s ≤ 0x4103 then true
  else if 0x4110 ≤ s && s ≤ 0x411F then true
  else if 0x4180 ≤ s && s ≤ 0x4183 then bit blocks 3
  else if 0x4200 ≤ s && s ≤ 0x4202 then bit blocks 2
  else if 0x4300 ≤ s && s ≤ 0x4306 then true
  else if s == 0x43F0 || s == 0x43F1 then true
  else if 0x4400 ≤ s && s < 0x4600 then role ((s - 0x4400) / 4) == 1 || role ((s - 0x4400) / 4) == 2
  else if 0x4600 ≤ s && s < 0x4620 then (List.range 4).any fun k => role (4 * (s - 0x4600) + k) == 1
  else if 0x4620 ≤ s && s < 0x4630 then bit blocks 1
  else if 0x4640 ≤ s && s ≤ 0x4643 then bit blocks 0
  else if 0x4660 ≤ s && s ≤ 0x4668 then bit blocks 4
  else if 0x4680 ≤ s && s ≤ 0x4687 then bit blocks 5
  else if 0x46A0 ≤ s && s ≤ 0x46A4 then true
  else if 0x46C0 ≤ s && s ≤ 0x46D2 then true
  else if s == 0x46D8 || s == 0x46D9 then true
  else if 0x46E0 ≤ s && s ≤ 0x46E2 then true
  else 0x7000 ≤ s && s ≤ 0x7EFF

/-- The BELLBOARD checks (R69). -/
def checkBellboard (ss : List Section_) : Except (Nat × Nat) Unit := do
  let rs := bellRoutes ss
  let o := secOff ss 7
  let b := leNat (secData ss 2)
  let es := portEntries ss
  let rings := ringDefs ss
  needAll ((List.range rs.length).zip rs) fun p =>
    let r := p.2
    need ((List.range r.count).all (fun k => sourceExists b es rings (r.first + k)) &&
      (rs.take p.1).all fun q => apart q.first q.count r.first r.count) errBellboard (o + 4 * p.1)

/-- The ROLES checks (R71). -/
def checkRoles (ss : List Section_) : Except (Nat × Nat) Unit := do
  let r := secData ss 8
  let o := secOff ss 8
  let b := leNat (secData ss 2)
  let h := imgNat r 0 1
  let i := imgNat r 1 1
  let t := imgNat r 2 1
  let m := imgNat r 3 1
  need (h ≤ 2) errRoles o
  need (i ≤ 63 && (h == 2 || i == 0)) errRoles (o + 1)
  need (t ≤ 2) errRoles (o + 2)
  need (m ≤ 1 && (t != 0 || m == 0)) errRoles (o + 3)
  need (bit b 5 == (h != 0)) errRoles o
  need (bit b 4 == (t != 0)) errRoles (o + 2)

/-- The pairing digest (R72). -/
def pairDigestOf (ss : List Section_) : List Byte := sha384 ([1, 2, 3, 4, 5, 6].flatMap (secData ss))

/-- Every check after the copy, in the order of R77; the waybill that a good image spells. -/
def checkImage (img keyHash : List Byte) (hashFused : Bool) (sec speed : Nat) : Except (Nat × Nat) Waybill := do
  checkAuth img keyHash hashFused sec
  let ss ← checkSections img
  checkGlobal ss speed
  checkBlocks ss
  checkPorts ss
  checkCrews ss
  checkRings ss
  checkMemory ss
  checkBellboard ss
  checkRoles ss
  let g := secData ss 1
  let c := secData ss 4
  let r := secData ss 8
  let crews := (sectionOf ss 4).isSome
  return {
    loaded := true, serial := imgNat img 0xC 4, clock := imgNat g 0 1, white := imgNat g 2 2,
    seed := imgNat g 4 4, stage := imgNat g 8 4, blocks := leNat (secData ss 2), ports := portEntries ss,
    canvasW := if crews then imgNat c 0 2 + 1 else 0, canvasH := if crews then imgNat c 2 2 + 1 else 0,
    regions := crewRegions ss, rings := ringDefs ss, parts := memParts ss, routes := bellRoutes ss,
    hierarchy := imgNat r 0 1, lodger := imgNat r 1 1, twin := imgNat r 2 1, twinMode := imgNat r 3 1,
    digest := sha384 img, pairDigest := pairDigestOf ss }

/-! ### What a loaded waybill sets -/

/-- Bytes as little-endian words. -/
def bytesWords (n : Nat) (bs : List Byte) : List Nat := (List.range n).map fun k => imgNat bs (4 * k) 4

/-- The region index of crew `c`: 0 where no region holds it. -/
def Waybill.regionOfCrew (w : Waybill) (c : Nat) : Nat := (w.regions.findIdx? fun r => bit r.crews c).getD 0

/-- The WB registers of WBL (Table 3.13). -/
def Dev.setWblRegs (d : Dev) (w : Waybill) : Dev :=
  let crew := (List.range 16).foldl (fun a c => a + w.regionOfCrew c * 2 ^ (2 * c)) 0
  let roleWord (k : Nat) : Nat := (List.range 8).foldl (fun a i => a + w.ports.getD (8 * k + i) 0 % 8 * 2 ^ (4 * i)) 0
  let d := d.setReg Reg.WBL_SERIAL w.serial
  let d := d.setReg Reg.WBL_ROLE (w.hierarchy + w.lodger * 2 ^ 8 + w.twin * 2 ^ 16 + w.twinMode * 2 ^ 24)
  let d := d.setReg Reg.WBL_BLOCKS w.blocks
  let d := d.setReg Reg.WBL_CREW_REGION crew
  let d := d.setReg Reg.WBL_HASH_SEED w.seed
  let d := d.setReg Reg.WBL_REF_WHITE w.white
  let d := d.setReg Reg.WBL_GLOBAL w.clock
  let d := d.setReg Reg.WBL_CANVAS (if w.canvasW == 0 then 0 else (w.canvasW - 1) + (w.canvasH - 1) * 2 ^ 16)
  let d := d.setRegs (Reg.WBL_DIGEST 0) (bytesWords 12 w.digest)
  let d := d.setRegs (Reg.WBL_PAIR_DIGEST 0) (bytesWords 12 w.pairDigest)
  d.setRegs (Reg.WBL_PORT_ROLE 0) ((List.range 16).map roleWord)

/-- The partition registers of MEM (Table 12.9). -/
def Dev.setPartRegs (d : Dev) (w : Waybill) : Dev :=
  ((List.range w.parts.length).zip w.parts).foldl (fun d q =>
    (d.setReg (Reg.MEM_PART_SPAN q.1) (q.2.size * 2 ^ 16 + q.2.base)).setReg (Reg.MEM_PART_KIND q.1) (2 ^ 31 + q.2.kind)) d

/-- The ring state of every present ring: class, `MAXLOG`, `SIZELOG` and direction (Table 17.9). -/
def Dev.setRingRegs (d : Dev) (w : Waybill) : Dev :=
  w.rings.foldl (fun d e => (List.range e.count).foldl (fun d k =>
    d.setReg (Reg.RNG_RS_CTRL (e.first + k)) (e.cls * 2 ^ 28 + e.maxLog * 2 ^ 22 + e.maxLog * 2 ^ 16 + 2 ^ 8 +
      if isRecordClass e.cls then 2 else 0)) d) d

/-- The size and presentation of every target (Table 17.12). -/
def Dev.setTargetRegs (d : Dev) : Dev :=
  (List.range 64).foldl (fun d t =>
    let v := d.targetSize t + if d.claimMode t then 2 ^ 16 else 0
    (d.setReg (Reg.BEL_PG_SIZE t) v).setReg (Reg.BEL_PG_SIZE (64 + t)) v) d

/-- A waybill is loaded: it fixes its items and sets the WB registers above (R57, R77). -/
def Dev.applyWaybill (d : Dev) (w : Waybill) : Dev :=
  let d := { d with wb := w }
  let d := (((d.setWblRegs w).setPartRegs w).setRingRegs w).setTargetRegs
  if w.hierarchy == 2 then d.setFld Reg.STK_SRC Fld.STK_SRC_SRC 3 else d

/-! ### The course of a load -/

/-- `WBL_STATUS.STATE`: 0 EMPTY, 1 LOADING, 2 LOADED, 3 FAILED. -/
def Dev.wblState (d : Dev) : Nat := d.fld Reg.WBL_STATUS Fld.WBL_STATUS_STATE
def Dev.setWblState (d : Dev) (x : Nat) : Dev := d.setFld Reg.WBL_STATUS Fld.WBL_STATUS_STATE x

/-- Start a load from a source. -/
def Dev.startLoad (d : Dev) (src : LoadSource) : Dev :=
  { d.setWblState 1 with boot := { d.boot with load := some src, copy := [] } }

/-- `n` bytes of the image that a load copies, from byte `o` on. -/
def Dev.imageBytes (d : Dev) (src : LoadSource) (o n : Nat) : List Byte :=
  match src with
  | .slotA => d.flashRead o n
  | .slotB => d.flashRead (0x800000 + o) n
  | .host a => d.memRead (a + o) n

/-- WBL copies `n` bytes of the image into the waybill copy, from byte `o` on; it reads software memory under the block check (R77, R279). -/
def Dev.imageRead (d : Dev) (src : LoadSource) (o n : Nat) : List Byte × Dev :=
  let d := match src with
    | .host a => d.plainReads (blocksOf (a + o) n)
    | _ => d
  (d.imageBytes src o n, d.reservedWakes contentWaybill (blocksOf o n))

/-- A load fails (R78); a failed slot A goes on with slot B (R76), at a reload after Rest too (R80, log 31). -/
def Dev.loadFailed (d : Dev) (code off : Nat) : Dev :=
  match d.boot.load with
  | some .slotA => (d.setReg Reg.WBL_SLOT_A_ERROR code).startLoad .slotB
  | _ =>
    let d := ((d.setWblState 3).setFld Reg.WBL_STATUS Fld.WBL_STATUS_ERROR code).setReg Reg.WBL_ERR_OFFSET off
    { d with boot := { d.boot with load := none, copy := [] } }

/-- Whether a copy step from the flash cannot read it (R77, R460). -/
def Dev.copyFails (d : Dev) (src : LoadSource) (readError : Bool) : Bool :=
  match src with
  | .host _ => false
  | _ => readError || !d.boot.flashOk

/-- The 256 B header is in the waybill copy (R77). -/
def Dev.headerCopied (d : Dev) (readError : Bool) : Dev :=
  match d.boot.load with
  | none => d
  | some src =>
    if !d.boot.copy.isEmpty || !d.sequencing then d
    else if d.copyFails src readError then d.loadFailed errFlash 0
    else
      let c := d.imageRead src 0 256
      let h := c.1
      let d := c.2
      match checkHeader h with
      | .error e => d.loadFailed e.1 e.2
      | .ok _ => { d with boot := { d.boot with copy := h } }

/-- The code that `WBL_STATUS.SOURCE` shows for a source. -/
def sourceCode : LoadSource → Nat
  | .slotA => 1
  | .slotB => 2
  | .host _ => 3

/-- The rest of the image is copied and every check made (R77): the device with a load that failed, or with the waybill. -/
def Dev.imageCopied (d : Dev) (readError : Bool) : Dev × Option Waybill :=
  match d.boot.load with
  | none => (d, none)
  | some src =>
    if d.boot.copy.isEmpty || !d.sequencing then (d, none)
    else if d.copyFails src readError then (d.loadFailed errFlash 256, none)
    else
      let c := d.imageRead src 256 (imgNat d.boot.copy 8 4 - 256)
      let img := d.boot.copy ++ c.1
      let d := c.2
      match checkImage img d.fuses.keyHash d.fuses.hashFused d.sdp.sec d.fuses.speed with
      | .error e => (d.loadFailed e.1 e.2, none)
      | .ok w =>
        let fell := src == .slotB && d.reg Reg.WBL_SLOT_A_ERROR != 0
        let st := 2 + sourceCode src * 4 + (if bit (imgNat img 0x10 4) 0 then 0 else 16) + (if fell then 32 else 0)
        let d := d.setReg Reg.WBL_STATUS (st + d.fld Reg.WBL_STATUS Fld.WBL_STATUS_ERROR * 2 ^ 8)
        ({ d with boot := { d.boot with load := none, copy := img, lastSource := some src, inReset := none } }, some w)

/-- The WBL reason codes (Table 3.14). -/
def wblAlreadyLoaded : Nat := 1
def wblLoadBusy : Nat := 2
def wblHostAddr : Nat := 3

/-- `WBL_CTRL.LOAD` (R78, R82, Table 3.11). The image's end is judged from the header in memory where it is one (R82). -/
def Dev.hostLoad (d : Dev) : Dev :=
  let a := d.pair Reg.WBL_HOST_ADDR_LO Reg.WBL_HOST_ADDR_HI
  if d.wblState == 2 then d.refuse Reg.WBL_BLKID wblAlreadyLoaded
  else if d.wblState == 1 then d.refuse Reg.WBL_BLKID wblLoadBusy
  else
    let d := if a + 256 ≤ memEnd then d.plainReads (blocksOf a 256) else d
    let len := if d.memNat a 4 == 0x4C425957 then max 256 (d.memNat (a + 8) 4) else 256
    if a % 4096 != 0 || memEnd < a + len then d.refuse Reg.WBL_BLKID wblHostAddr
    else d.startLoad (.host a)

def execLoad (s : State) : Host.Outcome State Fault Refusal :=
  s.apply fun d => d.onWrite Reg.WBL_CTRL fun d => d.hostLoad

end Sys2Proof.Machine
end

