-- ==== Sys2Proof/Machine/Smbus.lean ====
section
/-! DEFINITION. The SMBus management view (R54 to R56, Table 2.17). -/

namespace Sys2Proof.Machine

/-- The greater of two 16-bit temperatures, as signed values. -/
def hotter (a b : Nat) : Nat := if signed 16 a < signed 16 b then b else a

/-- The hottest of a list of temperatures; 0 for none. -/
def hottest : List Nat → Nat
  | [] => 0
  | t :: ts => ts.foldl hotter t

/-- The hottest die sensor and the hottest HBM3E stack, as last sampled. -/
def Dev.dieMax (d : Dev) : Nat := hottest ((List.range 16).map fun n => d.reg (Reg.SDP_TEMP n))
def Dev.hbmMax (d : Dev) : Nat := hottest ((List.range 8).map fun n => d.reg (Reg.SDP_TEMP_HBM n))

/-- The STATUS word (Table 2.17). Bit 2 is the verdict on the trim page (R463); in Rest, where CAL is off, it is the last one
(log 51). Bit 3 is 1 while the device holds a loaded waybill, in Rest and during the reload after it too, and bits 8 and 9 are the latched bits
of ALERT (Table 2.17 does not say; DESIGN CHOICE, log 51). -/
def Dev.smbusStatus (d : Dev) : Nat :=
  (if d.faultLow then 1 else 0) + (if d.bridgeIsDown then 2 else 0) +
  (if d.boot.trimCause != 0 then 4 else 0) + (if d.loaded then 8 else 0) +
  d.sdp.power % 4 * 16 + d.sdp.sec % 4 * 64 + d.sdp.alert % 4 * 256

/-- The target's 7-bit address (R54). -/
def smbusAddress : Nat := 0x5C

/-- One bit of the CRC-8 of Packet Error Checking, of polynomial x^8 + x^2 + x + 1. -/
def pecBit (c : Nat) : Nat := if bit c 7 then (c * 2 % 256) ^^^ 0x07 else c * 2 % 256

/-- One byte of the CRC-8. -/
def pecByte (c b : Nat) : Nat := (List.range 8).foldl (fun c _ => pecBit c) (c ^^^ b)

/-- The PEC byte of a message: the CRC-8 of its bytes, the address bytes included (SMBus 3.1, which R54 names; log 10). -/
def pecOf (bytes : List Nat) : Byte := BitVec.ofNat 8 (bytes.foldl pecByte 0)

/-- The answer to a read of `n` data bytes by a command code: the value, its low byte first, and a PEC byte when the controller
clocks one (R54). -/
def smbusAnswer (code n value : Nat) (pec : Bool) : Out :=
  let data := (List.range n).map fun k => value / 256 ^ k % 256
  .smbus value (if pec then some (pecOf ([smbusAddress * 2, code, smbusAddress * 2 + 1] ++ data)) else none)

def execIdent (s : State) (pec : Bool := false) : Host.Outcome State Fault Refusal :=
  s.apply fun d => d.emit (smbusAnswer 0x01 2 0x3812 pec)

def execStepping (s : State) (pec : Bool := false) : Host.Outcome State Fault Refusal :=
  s.apply fun d => d.emit (smbusAnswer 0x02 1 (d.fld Reg.GLB_ID Fld.GLB_ID_STEPPING) pec)

def execSmbusStatus (s : State) (pec : Bool := false) : Host.Outcome State Fault Refusal :=
  s.apply fun d => d.emit (smbusAnswer 0x03 2 d.smbusStatus pec)

def execTempMax (s : State) (pec : Bool := false) : Host.Outcome State Fault Refusal :=
  s.apply fun d => d.emit (smbusAnswer 0x04 2 d.dieMax pec)

def execTempHbmMax (s : State) (pec : Bool := false) : Host.Outcome State Fault Refusal :=
  s.apply fun d => d.emit (smbusAnswer 0x05 2 d.hbmMax pec)

def execTempN (sensor : Fin 16) (s : State) (pec : Bool := false) : Host.Outcome State Fault Refusal :=
  s.apply fun d => d.emit (smbusAnswer (0x10 + sensor) 2 (d.reg (Reg.SDP_TEMP sensor)) pec)

def execAlert (s : State) (pec : Bool := false) : Host.Outcome State Fault Refusal :=
  s.apply fun d => d.emit (smbusAnswer 0x20 1 (d.sdp.alert % 8) pec)

/-- ALERT_CLEAR: dropped when its PEC fails (R54), else a 1 clears the matching bit (R55). -/
def execAlertClear (mask : Byte) (pecOk : Bool) (s : State) : Host.Outcome State Fault Refusal :=
  s.apply fun d =>
    if pecOk then { d with sdp := { d.sdp with alert := d.sdp.alert - (d.sdp.alert &&& (mask.toNat % 8)) } } else d

/-- A command outside Table 2.17 follows the fall-back rule: a read, of as many bytes as the controller clocks, returns 0, a write
is ignored (R55). -/
def execSmbusUndefined (code : Byte) (write : Bool) (s : State) (n : Nat := 0) (pec : Bool := false) : Host.Outcome State Fault Refusal :=
  s.apply fun d => if write then d else d.emit (smbusAnswer code.toNat n 0 pec)

/-- The target answers the Alert Response Address, 0x0C, while it drives `MB_ALERT_N` low (R54, R56). -/
def execAlertResponse (s : State) (pec : Bool := false) : Host.Outcome State Fault Refusal :=
  s.apply fun d =>
    if d.mbAlertLow then
      d.emit (.alertResponse smbusAddress (if pec then some (pecOf [0x0C * 2 + 1, smbusAddress * 2]) else none))
    else d

end Sys2Proof.Machine
end

