-- ==== Sys2Proof/Machine/Sdp.lean ====
section
/-! DEFINITION. Security, fuses, the service unlock, wake latches, thermal limits and the debug window (R425 to R437,
R448, R449). -/

namespace Sys2Proof.Machine

/-! ### Audit -/

/-- Count and log an access that Service forbids or ignores (R430); other states change nothing. -/
def Dev.audit (d : Dev) (path : Nat) (write : Bool) (cause addr : Nat) : Dev :=
  if d.sdp.sec != 2 then d
  else
    let d := d.reservedWake contentLogs (65536 + d.sdp.auditSeq % 1048576 / 16)
    let e := [path + (if write then 8 else 0) + cause * 16, addr % 2 ^ 32, addr / 2 ^ 32 % 32, d.stk.stroke % 2 ^ 32]
    { d.count Reg.SDP_AUDIT_CNT with sdp := { d.sdp with
        audit := (e :: d.sdp.audit).take 1048576, auditSeq := d.sdp.auditSeq + 1 } }

/-- Word `k` of the audit entry that `SDP_AUDIT_INDEX` selects; 0 for one not written or overwritten (Table 19.13). -/
def Dev.auditWord (d : Dev) (k : Nat) : Nat :=
  let n := d.reg Reg.SDP_AUDIT_INDEX
  if n < d.sdp.auditSeq then ((d.sdp.audit.getD (d.sdp.auditSeq - 1 - n) []).getD k 0) else 0

/-! ### The SDP reason codes (Table 19.14) -/

def sdpPowerReq : Nat := 1
def sdpPowerBusy : Nat := 2
def sdpWaybillHost : Nat := 3
def sdpTwinActive : Nat := 4
def sdpSteward : Nat := 5
def sdpFuseState : Nat := 6
def sdpFuseSequence : Nat := 7
def sdpSealKey : Nat := 8
def sdpUnlockState : Nat := 9
def sdpUnlockLocked : Nat := 10
def sdpNoChallenge : Nat := 11
def sdpUnlockToken : Nat := 12
def sdpPower : Nat := 13
def sdpFuseDone : Nat := 14

/-- Set a flag of `SDP_EVENT`. -/
def Dev.sdpEvent (d : Dev) (f : Fld) : Dev := d.setFlag Reg.SDP_EVENT f

/-! ### Fuses (R427) -/

def Dev.fuseArmed (d : Dev) : Bool := d.flag Reg.SDP_FUSE_PROG Fld.SDP_FUSE_PROG_ARMED

/-- Refuse a fuse sequence: the register disarms (R427). -/
def Dev.refuseFuse (d : Dev) (reason : Nat) : Dev := (d.setReg Reg.SDP_FUSE_PROG 0).refuse Reg.SDP_BLKID reason

/-- Whether the fuse logic takes no sequence now: not Open, or programming in progress (R427). -/
def Dev.fuseClosed (d : Dev) : Bool := d.sdp.sec != 0 || d.sdp.fuseJob != .none

/-- A write of 0x53A1. -/
def Dev.fuseArm (d : Dev) : Dev :=
  if d.fuseClosed then d.refuseFuse sdpFuseState
  else if d.fuseArmed then d.refuseFuse sdpFuseSequence
  else d.setReg Reg.SDP_FUSE_PROG 0x10000

/-- A write of 0xA153 (R427). -/
def Dev.programSealed (d : Dev) : Dev :=
  if d.fuseClosed then d.refuseFuse sdpFuseState
  else if !d.fuseArmed then d.refuseFuse sdpFuseSequence
  else if d.fuses.sealed then d.refuseFuse sdpFuseDone
  else if !d.fuses.hashFused then d.refuseFuse sdpSealKey
  else { d.setReg Reg.SDP_FUSE_PROG 0 with sdp := { d.sdp with fuseJob := .sealed } }

/-- A write of 0x4B48: the hash staged in `SDP_KEYHASH` is programmed (R427). -/
def Dev.programKeyHash (d : Dev) : Dev :=
  if d.fuseClosed then d.refuseFuse sdpFuseState
  else if !d.fuseArmed then d.refuseFuse sdpFuseSequence
  else if d.fuses.hashFused then d.refuseFuse sdpFuseDone
  else
    let h := wordBytes ((List.range 12).map fun k => d.reg (Reg.SDP_KEYHASH k))
    { d.setReg Reg.SDP_FUSE_PROG 0 with sdp := { d.sdp with fuseJob := .keyHash h } }

/-- The arming period ends (R427). -/
def Dev.fuseTimeout (d : Dev) : Dev :=
  if !d.fuseArmed then d
  else if d.fuseClosed then d.refuseFuse sdpFuseState
  else d.refuseFuse sdpFuseSequence

/-- A write of any other code to `SDP_FUSE_PROG` (R427). -/
def Dev.fuseOther (d : Dev) : Dev :=
  if d.fuseClosed then d.refuseFuse sdpFuseState
  else if d.fuseArmed then d.refuseFuse sdpFuseSequence
  else d

/-- The fuse that a job programs reads programmed (R425, R426). -/
def Dev.burn (d : Dev) : FuseJob → Dev
  | .none => d
  | .sealed => { d with fuses := { d.fuses with sealed := true }, sdp := { d.sdp with sealPending := true } }
  | .keyHash h => { d with fuses := { d.fuses with keyHash := h, hashFused := true } }

/-- Programming ends (R427). -/
def Dev.fuseDone (d : Dev) : Dev :=
  if d.sdp.fuseJob == .none then d
  else
    let d := d.burn d.sdp.fuseJob
    let d := { d with sdp := { d.sdp with fuseJob := .none } }
    (d.sdpEvent Fld.SDP_EVENT_FUSE_DONE).raise 0x46D2

/-- A write of `SDP_FUSE_PROG`: forbidden in Service (Table 19.3), else by its code. -/
def Dev.writeFuseProg (d : Dev) (path v : Nat) : Dev :=
  if d.sdp.sec == 2 then d.audit path true 1 Reg.SDP_FUSE_PROG
  else match v % 2 ^ 16 with
    | 0x53A1 => d.fuseArm
    | 0xA153 => d.programSealed
    | 0x4B48 => d.programKeyHash
    | _ => d.fuseOther

/-! ### The stage key (R428) -/

/-- Whether the stage key is present: all eight words written since cold reset. -/
def Dev.keyPresent (d : Dev) : Bool := d.sdp.keyWritten == 255

/-- A write of a stage-key word: forbidden in Service; the first write since cold reset sticks. -/
def Dev.writeStageKey (d : Dev) (path k v : Nat) : Dev :=
  if d.sdp.sec == 2 then d.audit path true 1 (Reg.SDP_STAGE_KEY k)
  else if bit d.sdp.keyWritten k then d
  else { d with sdp := { d.sdp with
    keyWritten := d.sdp.keyWritten + 2 ^ k, stageKey := d.sdp.stageKey.set k (BitVec.ofNat 32 v) } }

/-- The stage key as the 32 bytes of its words in order (the byte order of `WBL_DIGEST`, log 12). -/
def Dev.stageKeyBytes (d : Dev) : List Byte := d.sdp.stageKey.flatMap fun w => leBytes 4 w.toNat

/-! ### The service unlock (R431, R432) -/

/-- `SDP_CTRL.CHALLENGE`: a fresh nonce. -/
def Dev.challenge (d : Dev) : Dev :=
  let r := d.freshBytes 32
  let d := r.2.setRegs (Reg.SDP_NONCE 0) (bytesWords 8 r.1)
  { d with sdp := { d.sdp with nonceValid := true } }

/-- SDP reads the token at the unlock address, where the rows above UNLOCK_TOKEN pass (R279, R298, R432). -/
def Dev.tokenRead (d : Dev) : Dev :=
  if d.sdp.sec == 2 || 2 ≤ d.sdp.power || 3 ≤ d.sdp.unlockFails || !d.sdp.nonceValid then d
  else d.plainReads (blocksOf (d.pair Reg.SDP_UNLOCK_ADDR_LO Reg.SDP_UNLOCK_ADDR_HI) 256)

/-- Whether the token at the unlock address is good (Table 19.4, R432). -/
def Dev.tokenGood (d : Dev) : Bool :=
  let t := d.memRead (d.pair Reg.SDP_UNLOCK_ADDR_LO Reg.SDP_UNLOCK_ADDR_HI) 256
  let key := (t.drop 0x30).take 97
  let nonce := wordBytes ((List.range 8).map fun k => d.reg (Reg.SDP_NONCE k))
  imgNat t 0 4 == 0x4B4C4E55 && imgNat t 4 4 == 0 && imgNat t 8 8 == d.fuses.serial && (t.drop 0x10).take 32 == nonce &&
    imgNat t 0x91 15 == 0 && sha384 key == d.fuses.serviceHash && ecdsaVerify key (t.take 0xA0) ((t.drop 0xA0).take 96)

/-- The verdict on an UNLOCK: the reason of the first failing row of R432. -/
def Dev.unlockRefusal (d : Dev) : Option Nat :=
  if d.sdp.sec == 2 then some sdpUnlockState
  else if 2 ≤ d.sdp.power then some sdpPower
  else if 3 ≤ d.sdp.unlockFails then some sdpUnlockLocked
  else if !d.sdp.nonceValid then some sdpNoChallenge
  else if !d.tokenGood then some sdpUnlockToken
  else none

/-- An UNLOCK that is refused; every check consumes the nonce (R432). -/
def Dev.unlockRefused (d : Dev) (reason : Nat) : Dev :=
  let d := { d.refuse Reg.SDP_BLKID reason with sdp := { d.sdp with nonceValid := false } }
  if reason == sdpUnlockToken then
    let d := { d with sdp := { d.sdp with unlockFails := min 3 (d.sdp.unlockFails + 1) } }
    (d.sdpEvent Fld.SDP_EVENT_UNLOCK_FAIL).raise 0x46D1
  else d

/-! ### Power state and wake latches -/

/-- Enter a power state: `POWER` latches, source 0x46D0 rises and the state's counter counts (R439). -/
def Dev.setPower (d : Dev) (x : Nat) : Dev :=
  if d.sdp.power == x then d
  else
    let d := { d with sdp := { d.sdp with power := x } }
    let d := match x with
      | 1 => d.count Reg.SDP_LULL_CNT
      | 2 => d.count Reg.SDP_DOZE_CNT
      | 3 => d.count Reg.SDP_REST_CNT
      | _ => d
    (d.sdpEvent Fld.SDP_EVENT_POWER).raise 0x46D0

/-- A wake cause of R442 ends Lull. -/
def Dev.lullExit (d : Dev) : Dev := if d.sdp.power == 1 then d.setPower 0 else d

/-- A wake latch sets (R406, R448): its source rises while the Bellboard runs; enabled in Doze or Rest it starts the
return to Run. -/
def Dev.setLatch (d : Dev) (i : Nat) : Dev :=
  if 11 ≤ i || bit (d.reg Reg.SDP_WAKE_STATUS) i then d
  else
    let d := d.setReg Reg.SDP_WAKE_STATUS (d.reg Reg.SDP_WAKE_STATUS + 2 ^ i)
    let d := if d.sdp.power == 3 then { d with sdp := { d.sdp with restLatches := d.sdp.restLatches ++ [i] } }
      else d.raise (0x46C0 + i)
    if 2 ≤ d.sdp.power && bit (d.reg Reg.SDP_WAKE_EN) i then
      { d.sdpEvent Fld.SDP_EVENT_WAKE with sdp := { d.sdp with waking := true } }
    else d

/-! ### Temperatures and life (R56, R300, R449) -/

/-- Equivalent time of one ms at a temperature in 0.125 °C, in units of 2^-64 ms: 2^((Tj − 85) / 10) rounded down (log 13). -/
def lifeRate (t : Nat) : Nat := intRoot 80 80 (2 ^ ((signed 16 t - 680) + 64 * 80).toNat)

/-- Service life of a sample period (R300). -/
def Dev.addLife (d : Dev) (t : Nat) : Dev :=
  let ms := if d.sdp.power == 3 then 100 else 1
  { d with sdp := { d.sdp with lifeMs := d.sdp.lifeMs + ms, lifeEquiv := d.sdp.lifeEquiv + ms * lifeRate t } }

/-- One crossing of an alert threshold (R449): event flag, SMBus ALERT bit, source, wake latch 9. -/
def Dev.thermalAlert (d : Dev) (f : Fld) (alertBit src : Nat) : Dev :=
  let d := { d with sdp := { d.sdp with alert := d.sdp.alert ||| 2 ^ alertBit } }
  ((d.sdpEvent f).raise src).setLatch 9

/-- One crossing of a trip threshold (R449). -/
def Dev.thermalTrip (d : Dev) : Dev :=
  let d := { d with sdp := { d.sdp with tripHold := true } }
  ((d.sdpEvent Fld.SDP_EVENT_TRIP).count Reg.SDP_TRIP_CNT).raise 0x46E2

/-- Whether a signed temperature crosses a threshold upwards. -/
def tempCrosses (old new thr : Nat) : Bool := signed 16 old < signed 16 thr && signed 16 thr ≤ signed 16 new

/-- A sensor sample (R56, R449): the device after it, and whether a trip was crossed. -/
def Dev.sample (d : Dev) (die hbm : List Nat) : Dev × Bool :=
  let oldDie := d.dieMax
  let oldHbm := d.hbmMax
  let die := ((List.range 16).zip die).map fun p => toTwos 16 (signed 16 p.2 + d.boot.toff.getD p.1 0)
  let d := (d.setRegs (Reg.SDP_TEMP 0) (die.take 16)).setRegs (Reg.SDP_TEMP_HBM 0) (hbm.take 8)
  let newDie := d.dieMax
  let newHbm := d.hbmMax
  let thD := d.reg Reg.SDP_THERM_DIE
  let thH := d.reg Reg.SDP_THERM_HBM
  let d := d.addLife newDie
  let d := if tempCrosses oldDie newDie (thD % 2 ^ 16) then d.thermalAlert Fld.SDP_EVENT_DIE_ALERT 0 0x46E0 else d
  let d := if tempCrosses oldHbm newHbm (thH % 2 ^ 16) then d.thermalAlert Fld.SDP_EVENT_HBM_ALERT 1 0x46E1 else d
  let tripD := tempCrosses oldDie newDie (thD / 2 ^ 16)
  let tripH := tempCrosses oldHbm newHbm (thH / 2 ^ 16)
  let d := if tripD then d.thermalTrip else d
  let d := if tripH then d.thermalTrip else d
  let below (t th : Nat) : Bool := signed 16 t ≤ signed 16 (th / 2 ^ 16) - 40
  let d := if below newDie thD && below newHbm thH then { d with sdp := { d.sdp with tripHold := false } } else d
  (d, tripD || tripH)

/-! ### The debug window (R433 to R436) -/

/-- The DBG reason codes. -/
def dbgMode : Nat := 1
def dbgModeRange : Nat := 2
def dbgReadRange : Nat := 3

def Dev.debugMode (d : Dev) : Nat := d.reg Reg.DBG_MODE

/-- A change of the debug mode (R433 to R435); a debug read under way ends as the mode leaves Intrude (DESIGN CHOICE, log 33). -/
def Dev.setDebugMode (d : Dev) (m : Nat) : Dev :=
  let old := d.debugMode
  let d := d.setReg Reg.DBG_MODE m
  let d := if m == 0 then { d with dbg := { d.dbg with snap := none } } else d
  let d := if old == 2 && m != 2 then { d.clearRegs (Reg.DBG_HALT 0) 32 with dbg := { d.dbg with read := none } } else d
  if m == 2 then d.lullExit else d

/-- Whether the security state forbids a write by its value (row 1 of Table 2.6): Intrude in Sealed (Table 19.3). -/
def Dev.forbidsMode (d : Dev) (off v : Nat) : Bool := off == Reg.DBG_MODE && v % 4 == 2 && d.sdp.sec == 1

/-- A write of `DBG_MODE`: Intrude is forbidden in Sealed (Table 19.3), 3 is refused with MODE_RANGE. -/
def Dev.writeDbgMode (d : Dev) (v : Nat) : Dev :=
  let m := v % 4
  if m == 2 && d.sdp.sec == 1 then d
  else if m == 3 then d.refuse Reg.DBG_BLKID dbgModeRange
  else d.setDebugMode m

/-- `DBG_SNAP.TAKE` (R434). -/
def Dev.snapTake (d : Dev) : Dev :=
  if d.debugMode == 0 then d.refuse Reg.DBG_BLKID dbgMode
  else { d with dbg := { d.dbg with snap := some d.regs } }

/-- `DBG_SNAP.RELEASE` (R434). -/
def Dev.snapRelease (d : Dev) : Dev :=
  if d.debugMode == 0 then d.refuse Reg.DBG_BLKID dbgMode
  else { d with dbg := { d.dbg with snap := none } }

/-- A write of a `DBG_HALT` word (R435). -/
def Dev.writeDbgHalt (d : Dev) (k v : Nat) : Dev :=
  if d.debugMode == 2 then d.setReg (Reg.DBG_HALT k) v else d.refuse Reg.DBG_BLKID dbgMode

/-- Whether a porter is halted (R435): a halt has no effect in Doze (Table 19.10). -/
def Dev.halted (d : Dev) (n : Nat) : Bool := d.debugMode == 2 && d.sdp.power != 2 && bit (d.reg (Reg.DBG_HALT (n / 32))) (n % 32)

/-- The size of a debug space for a unit; 0 where there is no such unit (R436, Table 1.1). -/
def dbgSpaceSize (space unit_ : Nat) : Nat :=
  match space with
  | 0 => memEnd
  | 1 => if unit_ < 16 then 2 ^ 23 else 0
  | 2 => 192 * 1024
  | 3 => 2 ^ 25
  | _ => 0

/-- `DBG_READ.READ` (R436). -/
def Dev.dbgRead (d : Dev) : Dev :=
  let sp := d.reg Reg.DBG_SPACE
  let space := Fld.DBG_SPACE_SPACE.get sp
  let unit_ := Fld.DBG_SPACE_UNIT.get sp
  let a := d.reg Reg.DBG_ADDR_LO + if space == 0 then 2 ^ 32 * d.reg Reg.DBG_ADDR_HI else 0
  if d.debugMode != 2 then d.refuse Reg.DBG_BLKID dbgMode
  else if a % 32 != 0 || dbgSpaceSize space unit_ < a + 32 then d.refuse Reg.DBG_BLKID dbgReadRange
  else { d with dbg := { d.dbg with read := some (space, unit_, a) } }

/-- The bytes of a debug read: memory as it stands, staging as it stands; the content of crew caches and line stores is a
free value. A power-gated block reads as zeros: crew caches and line stores in Doze and Rest, staging in Rest (R436, Table 19.6). -/
def Dev.dbgBytes (d : Dev) (space a : Nat) : List Byte × Dev :=
  if space == 0 then (d.memRead a 32, d)
  else if !d.hasPrt || d.sdp.power == 3 then (List.replicate 32 0, d)
  else if space == 3 then (d.staging.range memDefault a 32, d)
  else if d.sdp.power == 2 then (List.replicate 32 0, d)
  else d.freshBytes 32

/-- A read of the debug window meets its block: the controller awakes for it, and its check fails where the block is damaged or `bad`; it
passes on the bytes as read, so the block itself is left as it was. The failed check is counted and logged (R280, R299, R436). -/
def Dev.dbgBlock (d : Dev) (b : Nat) (bad : Bool) : Dev :=
  let d := d.memWake [b]
  if bad || d.isDamaged b then
    (d.blockFailed b).depLog { kind := 1, outcome := 0, unit_ := d.stackOf (b * 256), stroke := d.stk.stroke, addr := b * 256 }
  else d

/-- The debug read completes; `bad` is a check that fails on this read. -/
def Dev.dbgReadDone (d : Dev) (bad : Bool) : Dev :=
  match d.dbg.read with
  | none => d
  | some (space, _, a) =>
    let damaged := space == 0 && (bad || d.rangeDamaged a 32)
    let r := d.dbgBytes space a
    let d := r.2.setRegs (Reg.DBG_DATA 0) (bytesWords 8 r.1)
    let d := if space == 0 then d.dbgBlock (a / 256) bad else d
    let d := if damaged then d.setFlag Reg.DBG_STATUS Fld.DBG_STATUS_DAMAGED else d.setFld Reg.DBG_STATUS Fld.DBG_STATUS_DAMAGED 0
    { d with dbg := { d.dbg with read := none } }

/-- A write to a register of the DBG region, from BAR0 or the test access port. -/
def Dev.writeDbg (d : Dev) (off v : Nat) : Dev :=
  if off == Reg.DBG_MODE then d.writeDbgMode v
  else if off == Reg.DBG_SNAP then
    let d := if bit v 0 then d.snapTake else d
    if bit v 1 then d.snapRelease else d
  else if Reg.DBG_HALT 0 ≤ off && off ≤ Reg.DBG_HALT 7 then d.writeDbgHalt ((off - Reg.DBG_HALT 0) / 4) v
  else if off == Reg.DBG_SPACE && 4 ≤ Fld.DBG_SPACE_SPACE.get v then d.refuse Reg.DBG_BLKID dbgReadRange
  else if off == Reg.DBG_READ then (if bit v 0 then d.dbgRead else d)
  else
    let d := d.genericWrite off v
    if off == Reg.DBG_REFUSED then d.clearBeside off 31 [30] else d

/-! ### The commands -/

def execFuseArm (s : State) : Host.Outcome State Fault Refusal :=
  s.apply fun d => d.onWrite Reg.SDP_FUSE_PROG fun d => d.writeFuseProg 0 0x53A1

def execProgramSealed (s : State) : Host.Outcome State Fault Refusal :=
  s.apply fun d => d.onWrite Reg.SDP_FUSE_PROG fun d => d.writeFuseProg 0 0xA153

def execProgramKeyHash (s : State) : Host.Outcome State Fault Refusal :=
  s.apply fun d => d.onWrite Reg.SDP_FUSE_PROG fun d => d.writeFuseProg 0 0x4B48

def execFuseDisarm (s : State) : Host.Outcome State Fault Refusal := s.apply fun d => d.fuseTimeout

def execFuseDone (s : State) : Host.Outcome State Fault Refusal := s.apply fun d => d.fuseDone

def execStageKey (word : Fin 8) (data : Word) (s : State) : Host.Outcome State Fault Refusal :=
  s.apply fun d => d.onWrite (Reg.SDP_STAGE_KEY word) fun d => d.writeStageKey 0 word data.toNat

def execChallenge (s : State) : Host.Outcome State Fault Refusal :=
  s.apply fun d => d.onWrite Reg.SDP_CTRL fun d => d.challenge

/-- The edge of a wake latch comes. Latch 10 is the always-on timer's, whose expiry is a command of its own: nothing else sets it (R448). -/
def execWakeLatch (latch : Fin 16) (s : State) : Host.Outcome State Fault Refusal :=
  s.apply fun d => if latch.val == 10 then d else d.setLatch latch

def execTake (s : State) : Host.Outcome State Fault Refusal :=
  s.apply fun d => d.onWrite Reg.DBG_SNAP fun d => d.snapTake

def execSnapRelease (s : State) : Host.Outcome State Fault Refusal :=
  s.apply fun d => d.onWrite Reg.DBG_SNAP fun d => d.snapRelease

def execDbgRead (s : State) : Host.Outcome State Fault Refusal :=
  s.apply fun d => d.onWrite Reg.DBG_READ fun d => d.dbgRead

def execDbgReadDone (damaged : Bool) (s : State) : Host.Outcome State Fault Refusal := s.apply fun d => d.dbgReadDone damaged

/-- Load a test access port instruction (R437): leaving EXTEST gives the balls back. -/
def execBypass (s : State) : Host.Outcome State Fault Refusal := s.apply fun d => { d with tap := .bypass }

def execIdcode (s : State) : Host.Outcome State Fault Refusal :=
  s.apply fun d => { d with tap := .idcode }.emit (.tap d.fuses.idcode)

def execSamplePreload (balls : Nat) (s : State) : Host.Outcome State Fault Refusal :=
  s.apply fun d => { d with tap := .samplePreload }.emit (.tap balls)

def execExtest (s : State) : Host.Outcome State Fault Refusal := s.apply fun d => { d with tap := .extest }

def execTrstNAsserted (s : State) : Host.Outcome State Fault Refusal := s.apply fun d => { d with tap := .idcode }

end Sys2Proof.Machine
end

