-- ==== Sys2Proof/Machine/Porters.lean ====
section
/-! DEFINITION. Dealing (R155 to R157), lifting (R158, R159), composing and sealing (R161, R162, R276, R277), the priority
entries (R289, R290), fault ladders (R284 to R287), spot audits (R292, R293) and the comparison of check values with the twin
(R317, R318). -/

namespace Sys2Proof.Machine

/-! ### Strokes and parcels -/

/-- The stroke of a number that has been dealt and not withdrawn. -/
def Dev.runOf (d : Dev) (stroke : Nat) : Option StrokeRun := d.prt.strokes.find? fun r => r.stroke == stroke && !r.withdrawn

/-- Stroke `u` has finished for whatever waits for it: tick `u` + 1 has passed and its twin comparison is over, or it was
discarded (R146, R186, R193, R319). -/
def Dev.strokeFinished (d : Dev) (u : Nat) : Bool :=
  match d.runOf u with
  | none => true
  | some r => strokeGe d.stk.stroke (strokeAdd u 1) && (r.compared || !d.paired)

def Dev.setStrokes (d : Dev) (rs : List StrokeRun) : Dev := { d with prt := { d.prt with strokes := rs } }

/-- Change the strokes that a test selects. -/
def Dev.mapRuns (d : Dev) (p : StrokeRun → Bool) (f : StrokeRun → StrokeRun) : Dev :=
  d.setStrokes (d.prt.strokes.map fun r => if p r then f r else r)

/-- Change one parcel of a stroke. -/
def StrokeRun.mapParcel (r : StrokeRun) (region number : Nat) (f : Parcel → Parcel) : StrokeRun :=
  { r with parcels := r.parcels.map fun q => if q.region == region && q.number == number then f q else q }

def Dev.mapParcel (d : Dev) (stroke region number : Nat) (f : Parcel → Parcel) : Dev :=
  d.mapRuns (fun r => r.stroke == stroke && !r.withdrawn) (·.mapParcel region number f)

def StrokeRun.parcel (r : StrokeRun) (region number : Nat) : Option Parcel :=
  r.parcels.find? fun q => q.region == region && q.number == number

def Dev.parcel (d : Dev) (stroke region number : Nat) : Option Parcel := (d.runOf stroke).bind (·.parcel region number)

/-- A parcel as it was cut. -/
def Parcel.cut (q : Parcel) : Cut := ⟨q.region, q.number, q.stack, q.x, q.y, q.w, q.h⟩

def Parcel.area (q : Parcel) : Nat := q.w * q.h

/-- Whether the porters are done with a parcel: it is composed or given up (R172). -/
def Parcel.isOver (q : Parcel) : Bool := !(q.st == .waiting || q.st == .running || q.st == .stalled)

/-- A version of the stacks names a table: the recipe of a valid stack of it does (R146). -/
def versionNames (c : Cfg) (a : Nat) : Bool := (List.range 64).any fun k => (stackAt c k).valid && ((stackAt c k).tableNames c).contains a

/-- A table is in use: the live version names it, so that a stroke may still be dealt with it, or a stroke dealt with a version that names it
is not finished (R146). -/
def Dev.tableInUse (d : Dev) (a : Nat) : Bool :=
  versionNames d.regs a || d.prt.strokes.any fun r => !r.withdrawn && !d.strokeFinished r.stroke && versionNames r.version a

/-- A table that a parcel reads has left use: no engine reads it any more (R146). What is unfinished of the parcel is given up (DESIGN
CHOICE, log 39). -/
def Dev.tablesGone (d : Dev) (r : StrokeRun) (q : Parcel) : Bool :=
  d.strokeFinished r.stroke && ((stackAt r.version q.stack).tableNames r.version).any fun a => !d.tableInUse a

/-- The parcel that holds a canvas pixel. -/
def StrokeRun.parcelAt (r : StrokeRun) (x y : Nat) : Option Parcel :=
  r.parcels.find? fun q => q.x ≤ x && x < q.x + q.w && q.y ≤ y && y < q.y + q.h

/-- How a parcel's stack is composed: in fused form, or from the copy that its stroke reads (R189). -/
def StrokeRun.form (r : StrokeRun) (q : Parcel) : SettleForm :=
  if q.fused || r.fused.contains q.stack then .fused
  else match r.reads.find? (·.1 == q.stack) with
    | some p => .copy p.2
    | none => .fused

/-! ### Accepted sets -/

/-- The sets that FLP has accepted and that have not applied: queued, waiting for the twin's `ACK`, and prepared groups of trunk
sets (R163, R313, R337). -/
def Flp.accepted (f : Flp) : List QSet := f.queue ++ f.reading.filterMap (·.set) ++ f.prepared

/-! ### Whether anything is composed -/

/-- The porters compose: the device is in Run or Lull, and composition has not stopped (R16, R414, R456, Table 19.6). -/
def Dev.composes (d : Dev) : Bool :=
  d.loaded && d.hasPrt && !d.bridgeIsDown && !d.pllFailed && d.sdp.power ≤ 1 && !d.boot.flush && !d.sdp.unlocking

/-! ### Regions, crews and porters -/

def Dev.region (d : Dev) (r : Nat) : Region := d.wb.regions.getD r ⟨0, 0, 0, 0, 0⟩

/-- The crew list of a region: ascending order of 2 × (c mod 8) + (c div 8) (R155). -/
def Region.crewList (r : Region) : List Nat :=
  ([0, 8, 1, 9, 2, 10, 3, 11, 4, 12, 5, 13, 6, 14, 7, 15]).filter (bit r.crews)

/-- The deal position of parcel `i` of stroke `s` among `n` porters (R155). -/
def dealPosition (n i s : Nat) : Nat := (i + 37 * (s % 65536)) % n

/-- The porter of a deal position (R155). -/
def Region.porterAt (r : Region) (j : Nat) : Nat :=
  let crews := r.crewList
  16 * crews.getD (j % crews.length) 0 + j / crews.length

/-- The region that a porter's crew belongs to. -/
def Dev.regionOfPorter (d : Dev) (p : Nat) : Option Nat := d.wb.regions.findIdx? fun r => bit r.crews (p / 16)

/-- The parcels of a stroke that a porter has not started, in deal order (R158). -/
def StrokeRun.unstarted (r : StrokeRun) (p : Nat) : List Parcel := r.parcels.filter fun q => q.porter == p && q.st == .waiting

/-- Those of them that were dealt to it: what a lifter may take (R158). Parcels that it has lifted are not among them, so
that no porter makes more lifts than it composes parcels (R160; DEDUCED, log 16). -/
def StrokeRun.liftable (r : StrokeRun) (p : Nat) : List Parcel := (r.unstarted p).filter (!·.lifted)

/-- The number of parcels dealt to a porter that it has not started (R158). -/
def Dev.unstarted (d : Dev) (p : Nat) : Nat := d.prt.strokes.foldl (fun a r => a + (r.liftable p).length) 0

/-- The parcels that a porter has to compose and has not started, lifted ones included, in the order in which it composes them: the
first 512 are in its satchel, the rest in its parcel list (R156, R157). -/
def Dev.toCompose (d : Dev) (p : Nat) : List (StrokeRun × Parcel) :=
  d.prt.strokes.flatMap fun r => (r.unstarted p).map fun q => (r, q)

/-- The number of parcels in a porter's satchel (R156, Table 7.4). -/
def Dev.inSatchel (d : Dev) (p : Nat) : Nat := min 512 (d.toCompose p).length

/-- The parcels that wait in a porter's parcel list in reserved memory (R156). -/
def Dev.parcelList (d : Dev) (p : Nat) : List (StrokeRun × Parcel) := (d.toCompose p).drop 512

/-- The first parcel of a porter that it has not started: oldest stroke first, then deal order (R157). -/
def Dev.nextParcel (d : Dev) (p : Nat) : Option (StrokeRun × Parcel) := (d.toCompose p).head?

/-- The parcel that a porter has in progress. -/
def Dev.inProgress (d : Dev) (p : Nat) : Option (StrokeRun × Parcel) :=
  d.prt.strokes.findSome? fun r =>
    (r.parcels.find? fun q => q.porter == p && (q.st == .running || q.st == .stalled)).map fun q => (r, q)

/-- The recomposition or audit that a porter has in progress. -/
def Dev.jobOf (d : Dev) (p : Nat) : Option Job := d.prt.jobs.find? fun j => j.porter == some p && j.started

/-- `PRT_PW_STATE` of a porter (Table 7.4). -/
def Dev.porterState (d : Dev) (p : Nat) : Nat :=
  let at_ := (match d.jobOf p, d.inProgress p with
    | some j, _ => some (j.stroke, 3)
    | none, some x => some (x.1.stroke, 1)
    | none, none => none)
  let s := if d.halted p then 4 else match at_ with
    | some x => x.2
    | none => if d.prt.lifting.contains p then 2 else 0
  (match at_ with | some x => x.1 % 2 ^ 16 | none => 0) * 2 ^ 16 + s

/-- Count busy porter-clocks of a porter (Table 7.4, `PRT_USE`). -/
def Dev.busyBy (d : Dev) (p n : Nat) : Dev :=
  let d := d.setReg (Reg.PRT_PW_BUSY_CNT p) ((d.reg (Reg.PRT_PW_BUSY_CNT p) + n) % 2 ^ 32)
  match d.prt.busy with
  | b :: bs => { d with prt := { d.prt with busy := (b + n) :: bs } }
  | [] => { d with prt := { d.prt with busy := [n] } }

/-- The porter-clocks of a parcel (R131). -/
def StrokeRun.parcelClocks (r : StrokeRun) (q : Parcel) : Nat :=
  let k := stackAt r.version q.stack
  let t := match r.form q with
    | .fused => 0
    | .copy _ => k.settle
  k.clocks r.version t * q.area

/-! ### Stroke store and staging -/

/-- The base of the STROKE partition. -/
def Dev.storeBase (d : Dev) : Nat := ((d.wb.parts.find? (·.kind == 4)).map (·.base * partUnit)).getD 0

/-- Where the composed bytes of a pixel of a stroke lie: in the stroke store, or in staging (R161, R162). -/
def Dev.pixelPlace (d : Dev) (r : StrokeRun) (x y : Nat) : Nat :=
  let i := (y * d.wb.canvasW + x) * 6
  if r.racing then i else d.storeBase + r.stroke % (r.lead + 1) * d.canvasArea * 6 + i

/-- A staging block fails for good: it is left damaged (R280, R301). -/
def Dev.stagingLost (d : Dev) (b : Nat) : Dev :=
  ({ d with stagingDamaged := insertSorted d.stagingDamaged b }.depEvent Fld.DEP_EVENT_DAMAGED).raise 0x4303

/-- The reads of staging blocks that a write covers in part (R25, R279, R280): one damaged before fails both reads; one that `bad` names,
by its number with bit 31 (R279), fails the first, and named twice both. Each failure is counted and logged. -/
def Dev.stagingReads (d : Dev) (a n : Nat) (bad : List Nat) : Dev :=
  (partBlocks a n).foldl (fun (d : Dev) (b : Nat) =>
    let times := if d.stagingDamaged.contains b then 2 else bad.count (2 ^ 31 + b)
    let entry (o : Nat) : LogEntry := { kind := 1, outcome := o, stroke := d.stk.stroke }
    if times == 0 then d
    else if times == 1 then ((d.count Reg.DEP_BLOCK_FAIL_CNT).count Reg.DEP_REREAD_OK_CNT).depLog (entry 1)
    else ((d.count Reg.DEP_BLOCK_FAIL_CNT).stagingLost b).depLog (entry 0)) d

/-- Write bytes into staging; a block written whole is no longer damaged, and one written in part is read first. -/
def Dev.stagingWrite (d : Dev) (a : Nat) (bs : List Byte) (bad : List Nat) : Dev :=
  let d := d.stagingReads a bs.length bad
  { d with
    staging := d.staging.write memDefault a bs
    stagingDamaged := d.stagingDamaged.filter fun b => !(a ≤ b * 256 && b * 256 + 256 ≤ a + bs.length) }

/-- Read the composed bytes of a run of a stroke's pixels. -/
def Dev.storeRead (d : Dev) (r : StrokeRun) (x y n : Nat) : List Byte :=
  let a := d.pixelPlace r x y
  if r.racing then d.staging.range memDefault a (6 * n) else d.memRead a (6 * n)

/-- Write a row of composed pixels; `bad` lists the blocks whose own read within a read-modify-write fails, those of staging with bit 31
of their number set (R279, R280). -/
def Dev.storeWrite (d : Dev) (r : StrokeRun) (x y : Nat) (bs : List Byte) (bad : List Nat) : Dev :=
  let a := d.pixelPlace r x y
  if r.racing then d.stagingWrite a bs bad else d.memStore a bs bad

/-- Write a parcel's composed bytes, given pixel by pixel, row by row. -/
def Dev.writeParcel (d : Dev) (r : StrokeRun) (q : Parcel) (px : List (List Byte)) (bad : List Nat) : Dev :=
  (List.range q.h).foldl (fun d b => d.storeWrite r q.x (q.y + b) ((px.drop (b * q.w)).take q.w).flatten bad) d

/-- The bytes that a parcel composes to, pixel by pixel: as the pipeline gives them, or as a failing porter made them. -/
def Dev.composed (d : Dev) (r : StrokeRun) (q : Parcel) (err : Option (List Byte)) : List (List Byte) :=
  match err with
  | some bs => (List.range q.area).map fun i => (List.range 6).map fun j => bs.getD (6 * i + j) 0
  | none => d.composeCut r.version (r.form q) r.composedAs q.cut

/-- The PCV of a parcel's composed pixels (R276). -/
def pcvOf (r : StrokeRun) (q : Parcel) (px : List (List Byte)) : Nat := parcelPcv r.composedAs q.region q.number px

/-! ### DEP: events, and asking for a composition again -/

/-- A parcel becomes unrecoverable, once (R286). -/
def Dev.unrecoverable (d : Dev) (stroke region number : Nat) : Dev :=
  if (d.parcel stroke region number).any (·.st == .unrecoverable) then d else
  let d := d.mapParcel stroke region number fun q => { q with st := .unrecoverable }
  ((d.count Reg.DEP_UNRECOV_CNT).depEvent Fld.DEP_EVENT_UNRECOV).raise 0x4301

/-- The log entry of a parcel's ladder. -/
def Dev.logParcel (d : Dev) (kind outcome unit_ stroke region number addr : Nat) (escaped : Bool) : Dev :=
  let q := d.parcel stroke region number
  d.depLog { kind, outcome, unit_, stroke, region, parcel := number, addr, pcv := (q.map (·.pcv)).getD 0, escaped,
             unavailable := (q.map (·.missed)).getD false }

/-- Whether a kind is an audit; the rest are recompositions (R290). -/
def JobKind.isAudit : JobKind → Bool
  | .audit => true
  | _ => false

/-- How many crews past the dealt one a composition goes: the audit crew, or the tie-break crew (R289). -/
def JobKind.crewStep : JobKind → Nat
  | .seal2 => 2
  | .tieBreak _ => 2
  | .twin2 => 2
  | _ => 1

/-- A porter has a free priority entry and is not halted (R289). -/
def Dev.entryFree (d : Dev) (p : Nat) : Bool :=
  !d.halted p && (d.prt.jobs.filter fun j => j.porter == some p).length < 8

/-- The porter of a list with the fewest unstarted parcels, the lower number on a tie. -/
def Dev.leastLoaded (d : Dev) (ps : List Nat) : Option Nat :=
  ps.foldl (fun best p => match best with
    | none => some p
    | some b => if d.unstarted p < d.unstarted b || (d.unstarted p == d.unstarted b && p < b) then some p else some b) none

/-- The porter that takes a composition of a parcel again; none where every entry of the region is full (R289, R290). A
replayed parcel was dealt in the stroke that composed it (R441). -/
def Dev.choosePorter (d : Dev) (kind : JobKind) (stroke region number : Nat) : Option Nat :=
  let r := d.region region
  let crews := r.crewList
  let as := match d.runOf stroke with
    | some x => x.composedAs
    | none => stroke
  let j := dealPosition (16 * crews.length) number as
  let crewPorters (c : Nat) : List Nat := ((List.range 16).map (16 * c + ·)).filter d.entryFree
  let first := if crews.length == 1 then
      ([16 * crews.getD 0 0 + (j + kind.crewStep) % 16].filter d.entryFree).head?
    else none
  first <|> (List.range crews.length).findSome? fun i =>
    d.leastLoaded (crewPorters (crews.getD ((j + kind.crewStep + i) % crews.length) 0))

/-- Replace the first job that a test selects, or take it out. -/
def replaceJob (p : Job → Bool) (f : Job → Option Job) : List Job → List Job
  | [] => []
  | j :: js => if p j then (match f j with | some x => x :: js | none => js) else j :: replaceJob p f js

def Dev.mapJob (d : Dev) (p : Job → Bool) (f : Job → Option Job) : Dev :=
  { d with prt := { d.prt with jobs := replaceJob p f d.prt.jobs } }

/-- Give a waiting composition the entry that has freed: recompositions before audits, oldest first (R290). -/
def Dev.placeJobs (d : Dev) : Dev :=
  let waiting := d.prt.jobs.filter (·.porter.isNone)
  (waiting.filter (!·.kind.isAudit) ++ waiting.filter (·.kind.isAudit)).foldl (fun d j =>
    match d.choosePorter j.kind j.stroke j.region j.number with
    | some p => d.mapJob (· == j) fun j => some { j with porter := some p }
    | none => d) d

/-- DEP asks for a composition of a parcel again, after a failure at a unit and of a block: it takes a priority entry, behind what waits
for one already (R289, R290). -/
def Dev.addJob (d : Dev) (kind : JobKind) (stroke region number : Nat) (unit_ : Nat := 0)
    (block : Option (Bool × Nat) := none) : Dev :=
  Dev.placeJobs { d with prt := { d.prt with jobs := d.prt.jobs ++ [{ kind, stroke, region, number, porter := none, unit_, block }] } }

/-- Take a composition out of the porter's entries. -/
def Dev.dropJob (d : Dev) (j : Job) : Dev := (d.mapJob (· == j) fun _ => none).placeJobs

/-- The kind of the log entry of the failed check that asked for a composition (Table 12.5); none for an audit, and for the twin's
recompositions, whose mismatch counts in TWN. -/
def JobKind.logKind : JobKind → Option Nat
  | .seal1 => some 4
  | .seal2 => some 4
  | .packer => some 3
  | .record => some 8
  | .tieBreak _ => some 5
  | .audit => none
  | .twin1 => none
  | .twin2 => none

/-- The device address of the block behind a composition; 0 without one, and for a block of staging (Table 12.5). -/
def Job.addr (j : Job) : Nat :=
  match j.block with
  | some (false, b) => b * 256
  | _ => 0

/-- The block behind a composition stays damaged without it (R301). -/
def Dev.jobDamaged (d : Dev) (j : Job) : Dev :=
  match j.block with
  | some (true, b) => if d.stagingDamaged.contains b then d.stagingLost b else d
  | some (false, b) => if d.isDamaged b then d.blockDamaged b else d
  | none => d

/-- The ladder that asked for a composition ends without it: its block stays damaged, and its failed check is logged as not recovered (R299,
R301). -/
def Dev.jobLost (d : Dev) (j : Job) : Dev :=
  let d := d.jobDamaged j
  match j.kind.logKind with
  | some k => d.logParcel k 0 j.unit_ j.stroke j.region j.number j.addr false
  | none => d

/-- Compositions that a test selects are given up: their ladders are logged, and their entries free. -/
def Dev.loseJobs (d : Dev) (p : Job → Bool) : Dev :=
  let lost := d.prt.jobs.filter p
  let d := lost.foldl (fun d j => d.jobLost j) { d with prt := { d.prt with jobs := d.prt.jobs.filter fun j => !p j } }
  if lost.isEmpty then d else d.placeJobs

/-- What read the blocks of some porters' and packers' ladders is gone or over: the ladders go on for their blocks alone, step by step
(R286). -/
def Dev.orphanLadders (d : Dev) (p : Ladder → Bool) : Dev :=
  { d with ladders := d.ladders.map fun l => if l.reader.isNone && l.kind ≤ 3 && p l then { l with orphan := true } else l }

/-- The blitter or a tally unit gives up what it reads: its ladders go on for their blocks alone. -/
def Dev.orphanReader (d : Dev) (reader : Nat) : Dev :=
  { d with ladders := d.ladders.map fun l => if l.reader == some reader then { l with reader := none, orphan := true } else l }

/-! ### Done strokes -/

/-- Whether a stroke is composed whole or abandoned (R172). -/
def StrokeRun.complete (r : StrokeRun) : Bool := r.abandoned || r.withdrawn || r.parcels.all (·.isOver)

/-- Advance `PRT_DONE_STROKE` (R172) and raise 0x4200; composition that has stopped for good leaves it where it stands. -/
def Dev.advanceDone (d : Dev) : Dev :=
  if d.bridgeIsDown || d.pllFailed then d
  else match (d.prt.strokes.takeWhile (·.complete)).getLast? with
    | none => d
    | some r =>
      if r.stroke != d.prt.doneStroke && strokeGe r.stroke d.prt.doneStroke then
        ({ d with prt := { d.prt with doneStroke := r.stroke } }).raise 0x4200
      else d

/-- A writer stroke has composed every parcel (R191). -/
def Dev.writersDone (d : Dev) (stroke : Nat) : Dev :=
  match d.runOf stroke with
  | none => d
  | some r =>
    if r.written || r.writes.isEmpty || !(r.parcels.all (·.composed)) then d
    else
      let d := d.mapRuns (fun x => x.stroke == stroke && !x.withdrawn) fun x => { x with written := true }
      (d.setFlag Reg.STL_EVENT Fld.STL_EVENT_REFLAT).raise 0x4180

/-! ### The twin's check values -/

/-- A PCV record (Table 13.1). -/
def pcvRecord (stroke region number pcv : Nat) : List Byte :=
  leBytes 6 stroke ++ leBytes 1 region ++ leBytes 1 0 ++ leBytes 4 number ++ leBytes 4 pcv

/-- Seal a parcel anew with a value and its pixels; segments that began before are escaped (R293, R318). Where the value of the bytes that
arrive differs (`ok` false), this write suffers a seal failure (R277). -/
def Dev.replaceParcel (d : Dev) (r : StrokeRun) (q : Parcel) (px : List (List Byte)) (pcv : Nat) (bad : List Nat) (ok : Bool)
    (unit_ : Nat) : Dev :=
  let d := (d.writeParcel r q px bad).reservedWake contentPcvs (d.pcvBlock r.stroke q.region q.number)
  let d := if ok then d.mapParcel r.stroke q.region q.number fun x => { x with st := .sealed, pcv := pcv, began := 0 }
    else
      let d := d.mapParcel r.stroke q.region q.number fun x => { x with st := .sealFailed, began := 0 }
      (d.count Reg.DEP_SEAL_FAIL_CNT).addJob .seal1 r.stroke q.region q.number unit_
  if 0 < q.began then ((d.countBy Reg.DEP_ESCAPE_CNT q.began).depEvent Fld.DEP_EVENT_ESCAPE).raise 0x4306 else d

/-- The runs of consecutive strokes with stroke `u` among them. -/
def joinRuns (u : Nat) (xs : List (Nat × Nat)) : List (Nat × Nat) :=
  let below := xs.find? fun x => strokeAdd x.1 x.2 == u
  let above := xs.find? fun x => x.1 == strokeAdd u 1
  let rest := xs.filter fun x => below != some x && above != some x
  ((below.map (·.1)).getD u, (below.map (·.2)).getD 0 + 1 + (above.map (·.2)).getD 0) :: rest

/-- The longest run of consecutive strokes that have agreed in JOIN. -/
def Twn.inRow (t : Twn) : Nat := t.agreed.foldl (fun a x => max a x.2) 0

/-- The comparison of a stroke is over; in JOIN one that agrees joins the runs of those that count toward `JOIN_STROKES`, in whichever order
comparisons finish (R308, R317, R319). -/
def Dev.comparisonOver (d : Dev) (u : Nat) : Dev :=
  match d.runOf u with
  | none => d
  | some r =>
    if r.compared then d
    else
      let ok := d.paired && r.parcels.all (·.agreed)
      let d := d.mapRuns (fun x => x.stroke == u && !x.withdrawn) fun x => { x with compared := true, agreed := ok }
      if ok && d.twnState == 2 then { d with twn := { d.twn with agreed := joinRuns u d.twn.agreed } } else d

/-- Strokes whose parcels have all agreed or diverged have finished their comparison (R319). -/
def Dev.comparisonCheck (d : Dev) : Dev :=
  ((d.prt.strokes.filter fun r => !r.withdrawn && !r.compared && r.parcels.all fun q => q.agreed || q.diverged).map (·.stroke)).foldl
    Dev.comparisonOver d

/-- The twin comparison of a stroke finishes (R319): parcels whose partner value has not come count as missing. -/
def Dev.comparisonEnd (d : Dev) (u : Nat) : Dev :=
  match d.runOf u with
  | none => d
  | some r =>
    if r.compared then d
    else
      let early (q : Parcel) : Bool := d.twn.pcvs.any fun e => e.1 == u && e.2.1 == q.region && e.2.2.1 == q.number
      let missing := (r.parcels.filter fun q => !q.agreed && !q.diverged && q.theirs.isNone && !early q).length
      let d := if d.paired then d.countBy Reg.TWN_PCV_MISSING_CNT missing else d
      d.comparisonOver u

/-- DEP has been asked for a composition of a parcel, and it has not ended. -/
def Dev.asked (d : Dev) (kind : JobKind) (stroke region number : Nat) : Bool :=
  d.prt.jobs.any fun j => j.kind == kind && j.stroke == stroke && j.region == region && j.number == number

/-- A step of a twin mismatch for which both devices' recompositions are known (R318): a device whose sealed value differs writes the
pixels of its own recomposition; `sealOk` says that the value of the bytes that arrive agrees (R277). Segments that escape with it are
logged (R299; the kind of the entry is a DESIGN CHOICE, log 53). -/
def Dev.twnResolve (d : Dev) (stroke region number : Nat) (sealOk : Bool) : Dev :=
  match d.runOf stroke, d.parcel stroke region number with
  | some r, some q =>
    let n := min q.redo.length q.redoTheirs.length
    let a := q.redo.getD (n - 1) 0
    let b := q.redoTheirs.getD (n - 1) 0
    if n == 0 || q.agreed || q.diverged || q.redo.length != n then d
    else if a == b then
      let d := d.mapParcel stroke region number fun x => { x with agreed := true }
      let d := if q.pcv == a then d
        else
          let d := (d.replaceParcel r { q with agreed := true } q.redoPixels a [] sealOk 0).count Reg.TWN_RESOLVED_CNT
          if 0 < q.began then d.logParcel 5 3 0 stroke region number 0 true else d
      d.comparisonCheck
    else if n == 1 then (if d.asked .twin2 stroke region number then d else d.addJob .twin2 stroke region number)
    else
      let d := d.mapParcel stroke region number fun x => { x with diverged := true }
      (((d.count Reg.TWN_DIVERGE_CNT).twnEvent Fld.TWN_EVENT_DIVERGE).raise 0x4662).comparisonCheck
  | _, _ => d

/-- Compare the PCVs of a parcel once both are held (R317, R318). -/
def Dev.twnCompare (d : Dev) (stroke region number : Nat) : Dev :=
  match d.parcel stroke region number with
  | none => d
  | some q =>
    match q.st == .sealed, q.theirs with
    | true, some v =>
      if q.agreed || q.diverged then d
      else if v == q.pcv then
        ((d.mapParcel stroke region number fun x => { x with agreed := true }).count Reg.TWN_PCV_MATCH_CNT).comparisonCheck
      else (d.count Reg.TWN_PCV_MISMATCH_CNT).addJob .twin1 stroke region number
    | _, _ => d

/-- A parcel has been sealed: its PCV record in reserved memory is written (R24), and goes to the twin in JOIN and PAIRED (R317). -/
def Dev.sealedNews (d : Dev) (stroke region number pcv : Nat) : Dev :=
  let d := d.reservedWake contentPcvs (d.pcvBlock stroke region number)
  if !d.paired then d
  else
    let d := d.twnSend 0x30 (pcvRecord stroke region number pcv)
    let early := d.twn.pcvs.find? fun e => e.1 == stroke && e.2.1 == region && e.2.2.1 == number
    let d := match early with
      | some e => ({ d with twn := { d.twn with pcvs := d.twn.pcvs.filter (· != e) } }).mapParcel stroke region number
          fun x => { x with theirs := some e.2.2.2 }
      | none => d
    d.twnCompare stroke region number

/-! ### Ladders (Table 12.2) -/

/-- The device address, or staging offset, of a ladder's block. -/
def Ladder.addr (l : Ladder) : Nat := l.block * 256

/-- The device address that its log entry names; 0 for a block of staging (Table 12.5). -/
def Ladder.place (l : Ladder) : Nat := if l.staging then 0 else l.addr

/-- The outcome of a ladder whose reader is the blitter or a tally unit (R281): such a reader goes on with the bytes as read. -/
def Dev.plainLadder (d : Dev) (l : Ladder) (outcome : Nat) : Dev :=
  let d := { d with ladders := d.ladders.erase l }
  let d := if outcome == 0 then d.blockDamaged l.block else d
  d.depLog { kind := 1, outcome, stroke := l.stroke, addr := l.addr }

/-- The log entry of a ladder: that of its parcel, or of its block alone where its reader is gone. -/
def Dev.logLadder (d : Dev) (l : Ladder) (outcome : Nat) : Dev :=
  let addr := l.place
  if 3 < l.kind || l.orphan then
    d.depLog { kind := l.kind, outcome, unit_ := l.unit_, stroke := l.stroke, region := l.region, parcel := l.parcel, addr }
  else d.logParcel l.kind outcome l.unit_ l.stroke l.region l.parcel addr false

/-- A ladder concerns a parcel. -/
def Ladder.of (l : Ladder) (stroke region number : Nat) : Bool := l.stroke == stroke && l.region == region && l.parcel == number

/-- What read the block of a ladder that is over goes on, unless another of its input ladders is open (R286). -/
def Dev.readerResumes (d : Dev) (l : Ladder) : Dev :=
  let mine (m : Ladder) : Bool := m.reader.isNone && !m.orphan && m.of l.stroke l.region l.parcel && m.job == l.job && m.kind ≤ 2
  if 2 < l.kind || d.ladders.any mine then d
  else if l.job then
    d.mapJob (fun j => j.stalled && j.stroke == l.stroke && j.region == l.region && j.number == l.parcel) fun j => some { j with stalled := false }
  else d.mapParcel l.stroke l.region l.parcel fun q => if q.st == .stalled then { q with st := .running } else q

/-- A step of a ladder has cured its block: the reader goes on (R286). -/
def Dev.ladderCured (d : Dev) (l : Ladder) (outcome : Nat) : Dev :=
  if l.reader.isSome then d.plainLadder l outcome else
  let d := { d with ladders := d.ladders.erase l }.logLadder l outcome
  if l.orphan then d else d.readerResumes l

/-- The block of a ladder is left damaged, in staging or in software memory (R301). -/
def Dev.ladderDamaged (d : Dev) (l : Ladder) : Dev := if l.staging then d.stagingLost l.block else d.blockDamaged l.block

/-- A parcel can be composed again: the tables that it reads are in use (R146). -/
def Dev.recomposable (d : Dev) (stroke region number : Nat) : Bool :=
  match d.runOf stroke, d.parcel stroke region number with
  | some r, some q => !d.tablesGone r q
  | _, _ => false

/-- Every step on a block has failed (Table 12.2, R286, R290, R297). -/
def Dev.ladderFailed (d : Dev) (l : Ladder) : Dev :=
  if l.reader.isSome then d.plainLadder l 0 else
  let left := { d with ladders := d.ladders.erase l }
  if l.orphan then (left.ladderDamaged l).logLadder l 0 else
  match l.kind with
  | 2 =>
    let d := (left.blockDamaged l.block).logLadder l 4
    (d.mapParcel l.stroke l.region l.parcel fun q => { q with fused := true }).readerResumes l
  | 3 =>
    if left.recomposable l.stroke l.region l.parcel then left.addJob .packer l.stroke l.region l.parcel l.unit_ (some (l.staging, l.block))
    else (left.ladderDamaged l).logLadder l 0
  | 10 => ((left.blockDamaged l.block).count Reg.DEP_SCRUB_FAIL_CNT).logLadder l 0
  | _ =>
    let d := (left.blockDamaged l.block).logLadder l 0
    let d := (d.unrecoverable l.stroke l.region l.parcel).orphanLadders (·.of l.stroke l.region l.parcel)
    let own (j : Job) : Bool := j.started && j.stroke == l.stroke && j.region == l.region && j.number == l.parcel
    (if l.job then d.loseJobs own else d).advanceDone

/-- Whether twin repair may serve a block of software memory (R287). -/
def Dev.repairable (d : Dev) (block : Nat) : Bool :=
  d.paired && !d.alignedLanes.isEmpty && d.flag Reg.DEP_CTRL Fld.DEP_CTRL_TWIN_REPAIR && 1 ≤ d.kindAt (block * 256)

/-- The re-read has failed: the block is damaged, and the twin repair begins or fails at once (R280, R287). -/
def Dev.rereadFailed (d : Dev) (l : Ladder) : Dev :=
  if l.staging then
    ({ d with stagingDamaged := insertSorted d.stagingDamaged l.block }).ladderFailed l
  else
    let d := d.failedAgain l.block
    let d := if d.isDamaged l.block then d else d.corrupt l.block
    if d.repairable l.block then
      let d := d.twnSend 0x40 (leBytes 8 l.addr ++ leBytes 6 l.stroke ++ leBytes 2 0)
      { d with ladders := d.ladders.map fun m => if m == l then { m with twin := true } else m }
    else (d.count Reg.DEP_TWIN_REPAIR_FAIL_CNT).ladderFailed l

/-- A re-read of a failed block completes (R287); its controller is awake for it (R298). -/
def Dev.reread (d : Dev) (block : Nat) (staging ok : Bool) : Dev :=
  match d.ladders.find? fun l => l.block == block && l.staging == staging && !l.twin with
  | none => d
  | some l =>
    let d := if staging then d else d.memWake [block]
    if ok then (d.count Reg.DEP_REREAD_OK_CNT).ladderCured l 1 else d.rereadFailed l

/-- A twin repair of a block has failed (R287). -/
def Dev.repairFailed (d : Dev) (block : Nat) : Dev :=
  (d.ladders.filter fun l => l.block == block && l.twin && !l.staging).foldl (fun d l =>
    if d.ladders.contains l then (d.count Reg.DEP_TWIN_REPAIR_FAIL_CNT).ladderFailed l else d) d

/-- A twin repair has brought a block that passes its check: it is written with its check (R287). -/
def Dev.repairDone (d : Dev) (block : Nat) (bs : List Byte) : Dev :=
  let ls := d.ladders.filter fun l => l.block == block && l.twin && !l.staging
  if ls.isEmpty then d
  else
    let d := d.memStore (block * 256) bs []
    ls.foldl (fun d l => (d.count Reg.DEP_TWIN_REPAIR_CNT).ladderCured l 2) d

/-- Begin the ladders of blocks that a porter reads and that fail their check (Table 12.2, rows 1 and 2). -/
def Dev.inputLadders (d : Dev) (porter stroke region number : Nat) (job : Bool) (blocks : List Nat) : Dev :=
  blocks.foldl (fun d b =>
    let kind := if d.kindAt (b * 256) == 2 then 2 else 1
    let d := d.blockFailed b
    { d with ladders := d.ladders ++ [{ kind, unit_ := porter, block := b, stroke, region, parcel := number, job }] }) d

/-- The blocks that a parcel reads. -/
def Dev.inputBlocks (d : Dev) (r : StrokeRun) (q : Parcel) : List Nat := d.parcelBlocks r.version (r.form q) q.cut

/-- The blocks of a list that fail: those that fail now, and the damaged ones. -/
def Dev.failing (d : Dev) (blocks bad : List Nat) : List Nat := blocks.filter fun b => bad.contains b || d.isDamaged b

/-- Whether composing a parcel needs a damaged word of the version of its stroke: one lost with the version kept, or one that the live copies
had lost when the stroke was dealt (R295, R296). -/
def StrokeRun.needsLost (r : StrokeRun) (q : Parcel) : Bool :=
  let k := stackAt r.version q.stack
  let sk := Reg.PRT_SK_CTRL_LIVE q.stack
  let layers := k.enabled.map fun e => Reg.PRT_LD_CTRL_LIVE e.2.layer
  let pmap := Reg.PRT_PMAP_LO_LIVE r.phase
  r.lost.any fun w => (w == Reg.STL_SK_STATE q.stack && k.settle != 0) || w == Reg.PRT_PARCEL_LIVE ||
    (pmap ≤ w && w < pmap + 8) || (sk ≤ w && w < sk + 0x540) || layers.any fun a => a ≤ w && w < a + 0x30

/-- `CONTROL_FAULT` ends when no damaged word remains (R296). -/
def Dev.controlTidy (d : Dev) : Dev :=
  if d.prt.lost.isEmpty && d.flag Reg.DEP_STATUS Fld.DEP_STATUS_CONTROL_FAULT then
    (d.setFld Reg.DEP_STATUS Fld.DEP_STATUS_CONTROL_FAULT 0).message 0x43F1 true
  else d

/-- A word of the live control stores is lost, its kept version too; the level source rises with `CONTROL_FAULT` (R295, R296, R394). -/
def Dev.controlLost (d : Dev) (word : Nat) : Dev :=
  let rises := !d.flag Reg.DEP_STATUS Fld.DEP_STATUS_CONTROL_FAULT
  let d := { d with prt := { d.prt with lost := insertSorted d.prt.lost word } }
  (d.setFlag Reg.DEP_STATUS Fld.DEP_STATUS_CONTROL_FAULT).raiseIf rises 0x43F1

/-- Words of the live control stores are written anew (R296). -/
def Dev.controlWritten (d : Dev) (words : List Nat) : Dev :=
  ({ d with prt := { d.prt with lost := d.prt.lost.filter fun w => !(words.contains w) } }).controlTidy

/-- A porter's parity errors in a parcel: each line is fetched again (R283). -/
def Dev.parityErrors (d : Dev) (porter stroke region number n : Nat) : Dev :=
  (List.range n).foldl (fun d _ => (d.count Reg.DEP_PARITY_CNT).logParcel 6 1 porter stroke region number 0 false) d

/-! ### Composing -/

/-- Spot audits: whether parcel `i` of stroke `s` is audited (R292). -/
def Dev.audited (d : Dev) (i s : Nat) : Bool :=
  let a := d.fld Reg.DEP_CTRL Fld.DEP_CTRL_AUDIT_DIV
  a != 0 && (i + 29 * (s % 65536)) % max 4 a == 0

/-- A parcel that has been sealed for the first time is audited where R292 names it. -/
def Dev.auditAsk (d : Dev) (stroke region number unit_ : Nat) : Dev :=
  match d.parcel stroke region number with
  | some q =>
    if d.audited number stroke && !q.audit then
      (d.mapParcel stroke region number fun x => { x with audit := true }).addJob .audit stroke region number unit_
    else d
  | none => d

/-- What a parcel that is composed leaves behind it: its stroke may be done, and a writer stroke complete. -/
def Dev.parcelOver (d : Dev) (stroke : Nat) : Dev := (d.writersDone stroke).advanceDone

/-- A porter starts its next parcel (R157), where it has no priority entry (R290). The word of its satchel may have to be derived again
(R295), and so may the entry that moves from its parcel list into the satchel (R156, R291). -/
def Dev.parcelStart (d : Dev) (p : Nat) (ecc list : Ecc) : Dev :=
  if !d.composes || d.halted p || d.sdp.power == 1 || (d.prt.jobs.any (·.porter == some p)) || (d.inProgress p).isSome then d
  else match d.nextParcel p with
    | none => d
    | some x =>
      let moved := (d.parcelList p).head?
      let d := d.secded ecc storeSatchel 7 x.1.stroke x.2.region x.2.number
      let d := match moved with
        | some y => d.reserved list contentLists (d.listBlock y.1.stroke y.2.region y.2.number) 7 y.1.stroke y.2.region y.2.number
        | none => d
      let d := { d with prt := { d.prt with lifting := d.prt.lifting.filter (· != p) } }
      d.mapParcel x.1.stroke x.2.region x.2.number fun q => { q with st := .running }

/-- A porter finishes a parcel of its satchel (R277): a parcel that reads a failing block first takes its ladder; one that
composes is sealed, or suffers a seal failure. -/
def Dev.finishParcel (d : Dev) (p : Nat) (r : StrokeRun) (q : Parcel) (sealOk : Bool) (bad : List Nat) (err : Option (List Byte)) : Dev :=
  if r.needsLost q then
    let d := (d.unrecoverable r.stroke q.region q.number).logParcel 12 0 p r.stroke q.region q.number 0 false
    d.parcelOver r.stroke
  else
    let blocks := d.inputBlocks r q
    let d := d.memWake blocks
    let fails := d.failing blocks bad
    if !fails.isEmpty then
      let d := d.mapParcel r.stroke q.region q.number fun x => { x with st := .stalled }
      d.inputLadders p r.stroke q.region q.number false fails
    else
      let px := d.composed r q err
      let pcv := pcvOf r q px
      let d := (d.busyBy p (r.parcelClocks q)).count (Reg.PRT_PW_DONE_CNT p)
      let d := d.writeParcel r q px bad
      let d := match r.writes.find? (·.1 == q.stack) with
        | some w => (d.settledCut r.version w.2 q.cut).foldl (fun (d : Dev) (e : Nat × List Byte) => d.memStore e.1 e.2 bad) d
        | none => d
      let d := if sealOk then
          let d := d.mapParcel r.stroke q.region q.number fun x => { x with st := .sealed, pcv := pcv, composed := true }
          (d.sealedNews r.stroke q.region q.number pcv).auditAsk r.stroke q.region q.number p
        else
          let d := d.mapParcel r.stroke q.region q.number fun x => { x with st := .sealFailed, composed := true }
          (d.count Reg.DEP_SEAL_FAIL_CNT).addJob .seal1 r.stroke q.region q.number p
      d.parcelOver r.stroke

/-- Seal a recomposed parcel anew, in its place (R290). -/
def Dev.sealAgain (d : Dev) (r : StrokeRun) (q : Parcel) (px : List (List Byte)) (bad : List Nat) (kind : Nat) (j : Job) : Dev :=
  let d := d.replaceParcel r { q with began := 0 } px (pcvOf r q px) bad true 0
  let d := d.logParcel kind 3 j.unit_ r.stroke q.region q.number j.addr false
  (d.sealedNews r.stroke q.region q.number (pcvOf r q px)).auditAsk r.stroke q.region q.number j.unit_

/-- A composition of a parcel again whose seal fails: the next step of the seal failure row (Table 12.2). What asked for it does not
matter, since the parcel's place holds what it wrote; a packer's or record's ladder has no step left (R299). -/
def Dev.sealAgainFailed (d : Dev) (r : StrokeRun) (q : Parcel) (px : List (List Byte)) (bad : List Nat) (j : Job) (next : JobKind) : Dev :=
  let d := d.writeParcel r q px bad
  let d := d.mapParcel r.stroke q.region q.number fun x => { x with st := .sealFailed }
  let d := if j.kind == .packer || j.kind == .record then d.jobLost j else d
  (d.count Reg.DEP_SEAL_FAIL_CNT).addJob next r.stroke q.region q.number j.unit_

/-- A ladder that asked for a recomposition has no further step (R286). -/
def Dev.recompFailed (d : Dev) (r : StrokeRun) (q : Parcel) (kind : Nat) (j : Job) : Dev :=
  (d.logParcel kind 0 j.unit_ r.stroke q.region q.number j.addr false).unrecoverable r.stroke q.region q.number

/-- What an audit of a parcel finds (R293). -/
def Dev.auditResult (d : Dev) (r : StrokeRun) (q : Parcel) (j : Job) (v : Nat) : Dev :=
  let d := d.count Reg.DEP_AUDIT_CNT
  if v == q.pcv then d
  else (((d.count Reg.DEP_AUDIT_MISMATCH_CNT).depEvent Fld.DEP_EVENT_AUDIT_MISMATCH).raise 0x4302).addJob (.tieBreak v) r.stroke q.region q.number j.unit_

/-- What the tie-break of an audit mismatch decides (R293). Where it is written in place and that write's seal fails (R277), the parcel
takes the ladder of a seal failure. -/
def Dev.tieResult (d : Dev) (r : StrokeRun) (q : Parcel) (j : Job) (audit v : Nat) (px : List (List Byte)) (sealOk : Bool)
    (bad : List Nat) : Dev :=
  if v == q.pcv then d.logParcel 5 5 j.unit_ r.stroke q.region q.number 0 false
  else if v == audit then
    let d := d.replaceParcel r q px v bad sealOk j.unit_
    let d := d.logParcel 5 5 j.unit_ r.stroke q.region q.number 0 (0 < q.began)
    if sealOk then d.sealedNews r.stroke q.region q.number v else d
  else d.recompFailed r q 5 j

/-- A porter finishes a recomposition or an audit (R286, R290, R292, R293, R318). -/
def Dev.finishJob (d : Dev) (p : Nat) (j : Job) (r : StrokeRun) (q : Parcel) (sealOk : Bool) (bad : List Nat)
    (err : Option (List Byte)) : Dev :=
  let blocks := d.inputBlocks r q
  let fails := d.failing blocks bad
  if r.needsLost q then
    let d := (((d.jobLost j).dropJob j).unrecoverable r.stroke q.region q.number).orphanLadders (·.of r.stroke q.region q.number)
    let d := d.logParcel 12 0 p r.stroke q.region q.number 0 false
    d.parcelOver r.stroke
  else if !fails.isEmpty then
    let d := (d.memWake blocks).mapJob (· == j) fun j => some { j with stalled := true }
    d.inputLadders p r.stroke q.region q.number true fails
  else
    let px := d.composed r q err
    let v := pcvOf r q px
    let d := ((d.memWake blocks).busyBy p (r.parcelClocks q)).count (Reg.PRT_PW_RECOMP_CNT p)
    let d := if j.kind.isAudit then d else d.count Reg.DEP_RECOMP_CNT
    let d := d.dropJob j
    let d := match j.kind with
      | .seal1 => if sealOk then d.sealAgain r q px bad 4 j else d.sealAgainFailed r q px bad j .seal2
      | .seal2 => if sealOk then d.sealAgain r q px bad 4 j else ((d.writeParcel r q px bad).count Reg.DEP_SEAL_FAIL_CNT).recompFailed r q 4 j
      | .packer => if sealOk then d.sealAgain r q px bad 3 j else d.sealAgainFailed r q px bad j .seal1
      | .record => if sealOk then d.sealAgain r q px bad 8 j else d.sealAgainFailed r q px bad j .seal1
      | .audit => d.auditResult r q j v
      | .tieBreak a => d.tieResult r q j a v px sealOk bad
      | .twin1 =>
        let d := d.mapParcel r.stroke q.region q.number fun x => { x with redo := [v], redoPixels := px }
        let d := if d.paired then d.twnSend 0x31 (pcvRecord r.stroke q.region q.number v ++ leBytes 1 1) else d
        d.twnResolve r.stroke q.region q.number sealOk
      | .twin2 =>
        let d := d.mapParcel r.stroke q.region q.number fun x => { x with redo := x.redo ++ [v], redoPixels := px }
        let d := if d.paired then d.twnSend 0x31 (pcvRecord r.stroke q.region q.number v ++ leBytes 1 2) else d
        d.twnResolve r.stroke q.region q.number sealOk
    d.parcelOver r.stroke

/-- A porter finishes what it has in progress: its recomposition or audit, else its parcel (R277, R290). -/
def Dev.parcelComposed (d : Dev) (p : Nat) (sealOk : Bool) (bad : List Nat) (parity : Nat) (err : Option (List Byte)) : Dev :=
  if !d.composes || d.halted p then d
  else match d.jobOf p with
    | some j =>
      if j.stalled then d
      else match d.runOf j.stroke, d.parcel j.stroke j.region j.number with
        | some r, some q =>
          if d.tablesGone r q then (d.jobLost j).dropJob j
          else (d.parityErrors p r.stroke q.region q.number parity).finishJob p j r q sealOk bad err
        | _, _ => (d.jobLost j).dropJob j
    | none =>
      match d.inProgress p with
      | some x =>
        if x.1.withdrawn || x.1.abandoned || x.2.st == .stalled || d.tablesGone x.1 x.2 then d
        else (d.parityErrors p x.1.stroke x.2.region x.2.number parity).finishParcel p x.1 x.2 sealOk bad err
      | none => d

/-- A porter gives up a parcel of a withdrawn or abandoned stroke, or one whose tables have left use, at the end of its slice (R146,
R157). -/
def Dev.parcelAbandon (d : Dev) (p : Nat) : Dev :=
  match d.inProgress p with
  | none => d
  | some x =>
    if !(x.1.withdrawn || x.1.abandoned || d.tablesGone x.1 x.2) then d
    else (d.mapRuns (· == x.1) (·.mapParcel x.2.region x.2.number fun q => { q with st := .abandoned })).advanceDone

/-- A porter starts its oldest recomposition from its priority entries, or its oldest audit where it has no recomposition
(R290, R292); the word of the entry may have to be derived again (R295). -/
def Dev.jobStart (d : Dev) (p : Nat) (audit : Bool) (ecc : Ecc) : Dev :=
  let mine := d.prt.jobs.filter fun j => j.porter == some p
  if !d.composes || d.halted p || mine.any (·.started) || (audit && mine.any (!·.kind.isAudit)) then d
  else match mine.find? (·.kind.isAudit == audit) with
    | none => d
    | some j => (d.secded ecc storeSatchel 7 j.stroke j.region j.number).mapJob (· == j) fun j => some { j with started := true }

/-- An audit that has not begun when its parcel's need time passes is dropped (R292). -/
def Dev.auditDrop (d : Dev) (stroke region number : Nat) : Dev :=
  match d.prt.jobs.find? fun j => j.kind.isAudit && !j.started && j.stroke == stroke && j.region == region && j.number == number with
  | some j => (d.dropJob j).count Reg.DEP_AUDIT_DROP_CNT
  | none => d

/-- A stroke is late in a region (R169): the oldest one with a parcel of the region that no porter has composed, and not recorded. -/
def Dev.strokeLate (d : Dev) (region : Nat) : Dev :=
  match d.prt.strokes.find? fun r => !r.withdrawn && !r.abandoned && !r.late.contains region &&
      r.parcels.any fun q => q.region == region && !q.composed with
  | none => d
  | some r =>
    let d := d.mapRuns (fun x => x.stroke == r.stroke && !x.withdrawn) fun x => { x with late := region :: x.late }
    ((d.setFlag Reg.PRT_EVENT Fld.PRT_EVENT_LATE).count Reg.PRT_LATE_CNT).raise 0x4201

/-! ### Lifting -/

/-- The tiers that a porter searches: its crew, its half, the other half, within its region (R158). -/
def Dev.tiers (d : Dev) (p : Nat) : List (List Nat) :=
  match d.regionOfPorter p with
  | none => []
  | some g =>
    let mates := ((d.region g).crewList.flatMap fun c => (List.range 16).map (16 * c + ·)).filter (· != p)
    let crew := p / 16
    let half := crew / 8
    [mates.filter (· / 16 == crew), mates.filter fun q => q / 16 != crew && q / 128 == half, mates.filter (· / 128 != half)]

/-- The oldest stroke of which a porter has unstarted parcels: its place among the strokes, and how many. -/
def Dev.oldestOf (d : Dev) (p : Nat) : Option (Nat × Nat) :=
  ((List.range d.prt.strokes.length).zip d.prt.strokes).findSome? fun e =>
    let n := (e.2.liftable p).length
    if n == 0 then none else some (e.1, n)

/-- The victim of a tier: the oldest stroke, then the most unstarted parcels of it, then the lower number (R158). -/
def Dev.victim (d : Dev) (tier : List Nat) : Option (Nat × Nat × Nat) :=
  tier.foldl (fun best p => match d.oldestOf p with
    | none => best
    | some o => match best with
      | none => some (p, o.1, o.2)
      | some b => if o.1 < b.2.1 || (o.1 == b.2.1 && (b.2.2 < o.2 || (o.2 == b.2.2 && p < b.1))) then some (p, o.1, o.2) else best) none

/-- A porter with no unstarted parcel, be it composing its last one or not, takes half of a victim's, from the end of their run in deal order (R158, R159). -/
def Dev.lift (d : Dev) (p : Nat) : Dev :=
  if !d.composes || d.sdp.power == 1 || d.halted p || !(d.toCompose p).isEmpty then d
  else match (d.tiers p).findSome? d.victim with
    | none => d
    | some v =>
      match d.prt.strokes[v.2.1]? with
      | none => d
      | some r =>
        let u := r.liftable v.1
        let taken := u.drop (u.length - ceilDiv u.length 2)
        let give (q : Parcel) : Parcel := if taken.contains q then { q with porter := p, lifted := true } else q
        let d := d.setStrokes (d.prt.strokes.set v.2.1 { r with parcels := r.parcels.map give })
        let d := { d with prt := { d.prt with lifting := insertSorted d.prt.lifting p } }
        let d := ((d.count Reg.PRT_LIFT_CNT).count (Reg.PRT_PW_LIFT_CNT p)).countBy (Reg.PRT_PW_LIFTED_CNT v.1) taken.length
        let d := if v.1 / 128 != p / 128 then d.count Reg.PRT_LIFT_XHALF_CNT else d
        d.busyBy p 64

/-! ### The commands -/

def execParcelStart (porter : Fin 256) (ecc : Ecc) (s : State) (list : Ecc := .good) : Host.Outcome State Fault Refusal :=
  s.apply fun d => d.parcelStart porter ecc list

def execLift (porter : Fin 256) (s : State) : Host.Outcome State Fault Refusal := s.apply fun d => d.lift porter

def execParcelAbandon (porter : Fin 256) (s : State) : Host.Outcome State Fault Refusal :=
  s.apply fun d => d.parcelAbandon porter

def execStrokeLate (region : Fin 4) (s : State) : Host.Outcome State Fault Refusal := s.apply fun d => d.strokeLate region

def execRecomposeStart (porter : Fin 256) (s : State) (ecc : Ecc := .good) : Host.Outcome State Fault Refusal :=
  s.apply fun d => d.jobStart porter false ecc

def execAuditStart (porter : Fin 256) (s : State) (ecc : Ecc := .good) : Host.Outcome State Fault Refusal :=
  s.apply fun d => d.jobStart porter true ecc

def execAuditDrop (stroke : Nat) (region : Fin 4) (parcel : Nat) (s : State) : Host.Outcome State Fault Refusal :=
  s.apply fun d => d.auditDrop stroke region parcel

/-- A re-read of a failed block of software memory, or of staging, completes. -/
def execReread (block : Nat) (staging ok : Bool) (s : State) : Host.Outcome State Fault Refusal :=
  s.apply fun d => d.reread block staging ok

/-- A twin repair has received no good block within its bound (R287). -/
def execTwinRepairTimeout (block : Nat) (s : State) : Host.Outcome State Fault Refusal :=
  s.apply fun d => d.repairFailed block

end Sys2Proof.Machine
end

