-- ==== Sys2Proof/Machine/Settle.lean ====
section
/-! DEFINITION. The settled cache (R187 to R191) and the plate rings (R192 to R198). -/

namespace Sys2Proof.Machine

/-! ### Strokes that are finished -/

/-- The last stroke dealt that uses a stack. -/
def Dev.lastUse (d : Dev) (k : Nat) : Option Nat :=
  ((d.prt.strokes.filter fun r => !r.withdrawn && r.parcels.any (·.stack == k)).getLast?).map (·.stroke)

/-! ### Space for settled copies (R189) -/

/-- The ranges of 2 MiB units that two copies take. -/
def SettledCopies.ranges (c : SettledCopies) : List (Nat × Nat) := [(c.base0, c.size), (c.base1, c.size)]

/-- The ranges of SETTLED partitions in use: allocated, waiting for their last reader, or reserved. -/
def Dev.settledUsed (d : Dev) : List (Nat × Nat) :=
  d.stl.settled.flatMap (·.copies.ranges) ++ d.stl.leaving.flatMap (·.1.ranges) ++
    d.flp.accepted.flatMap fun q => q.reserved.flatMap (·.ranges)

/-- The SETTLED partitions. -/
def Dev.settledParts (d : Dev) : List Part := d.wb.parts.filter (·.kind == 2)

/-- The first place, in rising address, where `n` units fit beside the used ranges. -/
def Dev.firstFit (d : Dev) (used : List (Nat × Nat)) (n : Nat) : Option Nat :=
  let fits (b : Nat) : Bool :=
    d.settledParts.any (fun p => p.base ≤ b && b + n ≤ p.base + p.size) && used.all fun u => u.1 + u.2 ≤ b || b + n ≤ u.1
  let cands := (d.settledParts.map (·.base) ++ used.map fun u => u.1 + u.2).filter fits
  cands.foldl (fun m b => match m with | none => some b | some a => some (min a b)) none

/-- The size of a settled copy in 2 MiB units. -/
def StackV.settledUnits (k : StackV) : Nat := ceilDiv (k.area * 8) partUnit

/-- `STL_SETTLED_FREE`: units of the SETTLED partitions that are not in use. -/
def Dev.settledFree (d : Dev) : Nat :=
  (d.settledParts.foldl (fun a p => a + p.size) 0) - (d.settledUsed.foldl (fun a u => a + u.2) 0)

def Dev.settledOf (d : Dev) (k : Nat) : Option Settled := d.stl.settled.find? (·.stack == k)

/-- The size of the copies that a stack holds in a version: 0 where it is not settled. -/
def StackV.copyUnits (k : StackV) : Nat := if k.valid && k.settle != 0 then k.settledUnits else 0

/-- Whether a stack that a set leaves with copies of `n` units may lack them as the set applies: it does not hold them now, or may have none or
ones of another size in one of the versions that the set may find. -/
def Dev.lacksCopies (d : Dev) (versions : List Cfg) (k n : Nat) : Bool :=
  let now := match d.settledOf k with
    | some e => e.copies.size
    | none => 0
  n != 0 && !(now == n && (d.regs :: versions).all fun v => (stackAt v k).copyUnits == n)

/-- Place both copies for each of a list of demands (a set's number, a stack, the units of a copy), first fit and one after the other; none
where a copy cannot be placed (R189, R190). -/
def Dev.placeCopies (d : Dev) (asks : List (Nat × Nat × Nat)) : Option (List (Nat × SettledCopies)) :=
  asks.foldl (fun acc e => match acc with
    | none => none
    | some xs =>
      let used := d.settledUsed ++ xs.flatMap (·.2.ranges)
      match d.firstFit used e.2.2 with
      | none => none
      | some a => (d.firstFit ((a, e.2.2) :: used) e.2.2).map fun b => xs ++ [(e.1, ⟨e.2.1, a, b, e.2.2⟩)]) (some [])

/-- Accepted sets take the space and the settled changes that they have come to have (R189, R190): each by its number. -/
def Dev.giveSpace (d : Dev) (more : List (Nat × SettledCopies)) (gains : List (Nat × List Nat)) : Dev :=
  let give (q : QSet) : QSet := { q with
    reserved := q.reserved ++ (more.filter (·.1 == q.id)).map (·.2)
    changes := q.changes ++ (gains.filter (·.1 == q.id)).flatMap (·.2) }
  { d with flp := { d.flp with
    queue := d.flp.queue.map give, prepared := d.flp.prepared.map give
    reading := d.flp.reading.map fun x => { x with set := x.set.map give } } }

/-- A stack gives up its copies, which stay until their last reader has finished. -/
def Dev.leaveCopies (d : Dev) (k : Nat) : Dev :=
  match d.settledOf k with
  | none => d
  | some e =>
    let last := d.lastUse k
    { d with stl := { d.stl with settled := d.stl.settled.filter (·.stack != k), leaving := d.stl.leaving ++ [(e.copies, last)] } }

/-- Copies that their stack needs no more are given up: `SETTLE` has returned to 0, or the stack has become invalid (R189). -/
def Dev.settledLeave (d : Dev) : Dev :=
  ((d.stl.settled.map (·.stack)).filter fun k => (stackAt d.regs k).copyUnits == 0).foldl Dev.leaveCopies d

/-- Places for both copies of a stack outside every reservation, where there are any. -/
def Dev.copiesNow (d : Dev) (k n : Nat) : Option SettledCopies := (d.placeCopies [(0, k, n)]).bind fun xs => (xs.map (·.2)).head?

/-- A settled change of a stack applies: copies that it does not yet hold come from the reservation, or from free space where the set had no
need to reserve any as it was accepted; its writer is awaited (R189). -/
def Dev.settledApply (d : Dev) (reserved : List SettledCopies) (k : Nat) : Dev :=
  let n := (stackAt d.regs k).copyUnits
  if n == 0 then d.leaveCopies k
  else
    let holds := match d.settledOf k with
      | some e => e.copies.size == n
      | none => false
    let d := d.reservedWake contentDirectory k
    let d := match holds, reserved.find? (·.stack == k) <|> d.copiesNow k n with
      | false, some c =>
        let d := d.leaveCopies k
        let e : Settled := { stack := k, copies := c }
        { d with stl := { d.stl with settled := d.stl.settled ++ [e] } }
      | _, _ => d
    let await (e : Settled) : Settled := if e.stack == k then { e with pending := true } else e
    let d := if d.prt.lost.contains (Reg.STL_SK_STATE k) then d.controlWritten [Reg.STL_SK_STATE k] else d
    { d with stl := { d.stl with settled := d.stl.settled.map await } }

/-- Copies whose last reader has finished are free (R189). -/
def Dev.freeCopies (d : Dev) : Dev :=
  { d with stl := { d.stl with leaving := d.stl.leaving.filter fun e => match e.2 with
      | none => false
      | some u => !d.strokeFinished u } }

/-! ### What a stroke does with settled stacks -/

/-- The base address of a copy. -/
def Settled.baseOf (e : Settled) (copy : Nat) : Nat := (if copy == 0 then e.copies.base0 else e.copies.base1) * partUnit

/-- Fused form has ended for a stack at latch point `n`: the copy that its writer filled is in use (R189). -/
def Settled.settleAt (e : Settled) (n : Nat) : Settled :=
  match e.fusing with
  | none => e
  | some w => if w.2 ≤ strokeSub n w.1 then { e with copy := 1 - e.copy, fusing := none, filled := true } else e

/-- What the stroke dealt at latch point `n` does with stack `k`: composes it in fused form, reads a copy, writes one. -/
structure SettleUse where
  fused : Bool
  read : Option Nat
  write : Option Nat
  deriving DecidableEq, Repr

/-- The use of a settled stack by a stroke dealt at latch point `n`, with Λ latch points of fused form (R189). -/
def Settled.use (e : Settled) (n lambda : Nat) : SettleUse × Settled :=
  let e := e.settleAt n
  if e.pending then
    (⟨true, none, some (e.baseOf (1 - e.copy))⟩, { e with pending := false, fusing := some (n, lambda) })
  else if e.fusing.isSome || !e.filled then (⟨true, none, none⟩, e)
  else (⟨false, some (e.baseOf e.copy), none⟩, e)

/-- `FUSED` and `COPY` of `STL_SKk_STATE` once a stroke has been dealt (Table 8.10); `COPY` stands while none is read. -/
def Dev.showSettled (d : Dev) (k : Nat) (fused reads : Bool) : Dev :=
  let d := d.setFld (Reg.STL_SK_STATE k) Fld.STL_SK_STATE_FUSED (if fused then 1 else 0)
  match reads, d.settledOf k with
  | true, some e => d.setFld (Reg.STL_SK_STATE k) Fld.STL_SK_STATE_COPY e.copy
  | _, _ => d

/-- Whether copies of a stack are allocated: in use, or kept for their last reader (R189, Table 8.10). -/
def Dev.copiesHeld (d : Dev) (k : Nat) : Bool :=
  (d.settledOf k).isSome || d.stl.leaving.any fun e => e.1.stack == k

/-! ### Plate rings -/

def Dev.plate (d : Dev) (r : Nat) : Plate := d.stl.plates.get (fun _ => {}) r

/-- `FRAMES` of a plate ring: values below 1 act as 1 (Table 8.10). -/
def Dev.plateFrames (d : Dev) (r : Nat) : Nat := max 1 (d.fld (Reg.STL_PR_GEOM r) Fld.STL_PR_GEOM_FRAMES) + 1

/-- The address of a frame (R192). -/
def Dev.plateAddr (d : Dev) (r i : Nat) : Nat :=
  d.pair (Reg.STL_PR_BASE_LO r) (Reg.STL_PR_BASE_HI r) + i * (d.fld (Reg.STL_PR_GEOM r) Fld.STL_PR_GEOM_STRIDE * 4096)

def Dev.plateEn (d : Dev) (r : Nat) : Bool := d.hasStl && d.flag (Reg.STL_PR_CTRL r) Fld.STL_PR_CTRL_EN

/-- How far back from `PLAY` the oldest frame in use lies (R193). -/
def Dev.plateBack (d : Dev) (r : Nat) : Nat :=
  let p := d.plate r
  let n := d.plateFrames r
  (p.reads.filter fun e => !d.strokeFinished e.2).foldl (fun m e => max m ((p.play + n - e.1 % n) % n)) 0

/-- Whether a frame is in use: from `OLDEST` to `PLAY`, counted forwards (R193). -/
def Dev.plateInUse (d : Dev) (r f : Nat) : Bool :=
  let n := d.plateFrames r
  ((d.plate r).play + n - f % n) % n ≤ d.plateBack r

/-- Store a plate ring, whose marks stand in the settled cache directory (Table 1.4), and show it in its registers. -/
def Dev.setPlate (d : Dev) (r : Nat) (p : Plate) : Dev :=
  let d := d.reservedWake contentDirectory (64 + r)
  let d := { d with stl := { d.stl with plates := d.stl.plates.set (fun _ => {}) r p } }
  let n := d.plateFrames r
  let oldest := (p.play + n - d.plateBack r) % n
  let d := d.setReg (Reg.STL_PR_POS r) (p.play * 2 ^ 20 + oldest * 2 ^ 8)
  let d := d.setReg (Reg.STL_PR_MARK r) ((if p.markValid then 2 ^ 31 else 0) + p.mark * 2 ^ 16 + p.write)
  d.setFld (Reg.STL_PR_CTRL r) Fld.STL_PR_CTRL_RUN (if p.run then 1 else 0)

/-- A plate ring starves (R194). -/
def Dev.plateStarve (d : Dev) (r : Nat) : Dev :=
  ((d.setFlag (Reg.STL_PR_EVENT r) Fld.STL_PR_EVENT_STARVE).count (Reg.STL_PR_STARVE_CNT r)).raise 0x4182

/-- The mark of a plate ring is lost (R196). -/
def Dev.markLost (d : Dev) (r : Nat) : Dev :=
  let d := d.setPlate r { d.plate r with markValid := false, markLate := false }
  ((d.setFlag (Reg.STL_PR_EVENT r) Fld.STL_PR_EVENT_MARK_LOST).count (Reg.STL_PR_MARK_LOST_CNT r)).raise 0x4181

/-- Frame `WRITE` is committed and `WRITE` advances (R193, R196). An advance onto a frame in use is a crossing unless `WRITE` already
stood on one that is still in use (R45). -/
def Dev.plateAdvance (d : Dev) (r : Nat) : Dev :=
  let p := d.plate r
  let w := (p.write + 1) % d.plateFrames r
  let inUse := d.plateInUse r w
  let was := p.full && d.plateInUse r p.write
  let d := d.setPlate r { p with write := w, full := inUse }
  let d := if inUse && !was then
      ((d.setFlag (Reg.STL_PR_EVENT r) Fld.STL_PR_EVENT_FULL).count (Reg.STL_PR_FULL_CNT r)).raise 0x4183
    else d
  if p.markValid && p.mark == w then d.markLost r else d

/-- MARK of a frame (R195, R196): the mark is valid, unless the frame is `WRITE`. -/
def Dev.plateMark (d : Dev) (r f : Nat) (late : Bool) : Dev :=
  let d := d.setPlate r { d.plate r with mark := f, markValid := true, markLate := late }
  let d := d.setFld (Reg.STL_PR_EVENT r) Fld.STL_PR_EVENT_MARK_LOST 0
  if !late && f == (d.plate r).write then d.markLost r else d

/-- A PLATE action at the capture of its set (R195, R197): whether it found its mark lost. -/
def Dev.plateAction (d : Dev) (r action frame : Nat) (explicit : Bool) : Bool × Dev :=
  let p := d.plate r
  match action with
  | 0 => (false, d.setPlate r { p with run := true, div := if p.run then p.div else 0 })
  | 1 => (false, d.setPlate r { p with run := false })
  | 2 => (false, if explicit then d.plateMark r frame false else d.plateMark r p.play true)
  | 3 => if p.markValid then (false, d.setPlate r { p with play := p.mark }) else (true, d)
  | _ =>
    if frame == p.write then (false, d.setFlag (Reg.STL_PR_EVENT r) Fld.STL_PR_EVENT_STARVE)
    else if d.plateFrames r ≤ frame then (false, d)
    else (false, d.setPlate r { p with play := frame })

/-- The advance of `PLAY` at a latch point that deals a phase 0 stroke (R194). -/
def Dev.platePlay (d : Dev) (r : Nat) : Dev :=
  let p := d.plate r
  if !d.plateEn r || !p.run then d
  else
    let div := p.div + 1
    if div < d.fld (Reg.STL_PR_CTRL r) Fld.STL_PR_CTRL_DIV + 1 then d.setPlate r { p with div := div }
    else
      let next := (p.play + 1) % d.plateFrames r
      if next == p.write then (d.setPlate r { p with div := 0 }).plateStarve r
      else d.setPlate r { p with play := next, div := 0 }

/-- A MARK that takes `PLAY` as it is after the capture is settled (R195). -/
def Dev.plateMarkSettle (d : Dev) (r : Nat) : Dev :=
  let p := d.plate r
  if p.markLate then d.plateMark r p.play false else d

/-- The frame that a layer with `PLATE` set holds, and whether it keeps it (R198); the ring's `PLAY` where none is recorded. -/
def Dev.frameOf (d : Dev) (i ring : Nat) : Nat × Bool :=
  match d.stl.frames.find? (·.1 == i) with
  | some e => e.2
  | none => ((d.plate ring).play, false)

/-- Record the frame that a layer holds. -/
def Dev.setFrame (d : Dev) (i frame : Nat) (kept : Bool) : Dev :=
  { d with stl := { d.stl with frames := (i, frame, kept) :: d.stl.frames.filter (·.1 != i) } }

/-- The play pointers give the layers with `PLATE` set their buffers (R113, R194). A layer whose ring is disabled keeps the last frame,
also when the ring is enabled again, until a set clears `PLATE` (R198). A layer that a stack change made invalid while its `PLATE` stays 1
is given its buffer again (DESIGN CHOICE, log 57). -/
def Dev.plateBuffers (d : Dev) : Dev :=
  (List.range 1024).foldl (fun d i =>
    let l := layerAt d.regs i
    let held := d.frameOf i l.ring
    if !l.plate then { d with stl := { d.stl with frames := d.stl.frames.filter (·.1 != i) } }
    else if held.2 || !d.plateEn l.ring then d.setFrame i held.1 true
    else
      let d := d.setFrame i (d.plate l.ring).play false
      let a := d.plateAddr l.ring (d.plate l.ring).play
      let d := d.setPair (Reg.PRT_LD_BUF_LO_LIVE i) (Reg.PRT_LD_BUF_HI_LIVE i) a
      d.setFld (Reg.PRT_LD_CTRL_LIVE i) Fld.PRT_LD_CTRL_LIVE_BUFFERED 1) d

/-- The marks that take `PLAY` as it is after the capture are settled (R195, R196). -/
def Dev.plateMarks (d : Dev) : Dev := (List.range 64).foldl (fun d r => d.plateMarkSettle r) d

/-- The plate rings at a latch point (R194, R195); `deals` where the stroke dealt there has phase 0. -/
def Dev.plateLatch (d : Dev) (deals : Bool) : Dev :=
  if !d.hasStl then d
  else
    let d := (List.range 64).foldl (fun d r => (if deals then d.platePlay r else d).plateMarkSettle r) d
    d.plateBuffers

/-- Frames that no unfinished stroke reads leave use (R193). -/
def Dev.plateTidy (d : Dev) : Dev :=
  (d.stl.plates.map (·.1)).foldl (fun d r =>
    let p := d.plate r
    d.setPlate r { p with reads := p.reads.filter fun e => !d.strokeFinished e.2 }) d

/-- Record that a stroke reads a frame of a ring. -/
def Dev.plateRead (d : Dev) (r frame stroke : Nat) : Dev :=
  let p := d.plate r
  d.setPlate r { p with reads := (frame, stroke) :: p.reads.filter (·.1 != frame) }

/-! ### Register writes of STL -/

def stlPlateBusy : Nat := 1
def stlWriter : Nat := 2

/-- `STL_PRr_COMMIT` (R193). -/
def Dev.plateCommit (d : Dev) (r : Nat) : Dev :=
  if !d.plateEn r || d.flag (Reg.STL_PR_CTRL r) Fld.STL_PR_CTRL_WRITER then d.refuse Reg.STL_BLKID stlWriter
  else d.plateAdvance r

/-- Contexts, by number, drop every later frame. -/
def Dev.cutContexts (d : Dev) (ks : List Nat) : Dev :=
  { d with ctxs := ks.foldl (fun t k => t.set (fun _ => {}) k { t.get (fun _ => {}) k with cut := true }) d.ctxs }

/-- `EN` of a plate ring has been cleared: its enabled contexts drop every later frame (R269). -/
def Dev.plateCut (d : Dev) (r : Nat) : Dev :=
  let feeds (k : Nat) : Bool := d.ctxEnabled (k / 16) (k % 16) &&
    d.flag (Reg.SIP_CX_CTRL (k / 16) (k % 16)) Fld.SIP_CX_CTRL_TARGET &&
    d.fld (Reg.SIP_CX_CTRL (k / 16) (k % 16)) Fld.SIP_CX_CTRL_PLATE_RING == r
  d.cutContexts ((List.range 2048).filter feeds)

/-- A write of `STL_PRr_CTRL`: `WRITER` changes only while `EN` is 0 (R192). -/
def Dev.writePlateCtrl (d : Dev) (r v : Nat) : Dev :=
  let k := Reg.STL_PR_CTRL r
  let old := d.reg k
  let w := Fld.STL_PR_CTRL_WRITER
  let d1 := d.genericWrite k v
  let d1 := if d.plateEn r && !d1.plateEn r then d1.plateCut r else d1
  if d.plateEn r && w.get v != w.get old then (d1.setFld k w (w.get old)).refuse Reg.STL_BLKID stlPlateBusy else d1

/-- A write of the geometry of a plate ring (R192). -/
def Dev.writePlateGeom (d : Dev) (r key v : Nat) : Dev :=
  if d.plateEn r then d.refuse Reg.STL_BLKID stlPlateBusy else d.genericWrite key v

end Sys2Proof.Machine
end

