-- ==== Sys2Proof/Machine/Deal.lean ====
section
/-! DEFINITION. Dealing a stroke at its latch point (R92, R155, R156, R189, R441), withdrawing strokes (Table 4.6), the work
of the porters at a tick (`PRT_USE`, R319), and the plan that admission tests (R163). -/

namespace Sys2Proof.Machine

/-! ### Dealing -/

/-- The layers that the enabled slots of active stacks name. -/
def activeLayers (c : Cfg) (p : Nat) : List Nat :=
  ((activeStacks c p).flatMap fun k => (stackAt c k).enabled.map (·.2.layer)).eraseDups

/-- The parcels of a stroke, each with the porter it is dealt to (R153 to R155). -/
def Dev.dealParcels (d : Dev) (c : Cfg) (p s : Nat) : List Parcel :=
  (d.cutPhase c p).map fun q =>
    let g := d.region q.region
    let n := g.porterAt (dealPosition (16 * g.crewList.length) q.number s)
    { region := q.region, number := q.number, stack := q.stack, x := q.x, y := q.y, w := q.w, h := q.h, dealt := n, porter := n }

/-- What the stroke dealt at latch point `n` does with the settled stacks among `ks` (R189); a fused stroke and a writer count once
each, and a writer for each stack that it writes (R191). -/
def Dev.dealSettled (d : Dev) (ks : List Nat) (n lambda : Nat) : Dev × List (Nat × SettleUse) :=
  ks.foldl (fun a k =>
    let d := a.1
    if (stackAt d.regs k).settle == 0 then a
    else
      let u : SettleUse × Option Settled := match d.settledOf k with
        | some e => ((e.use n lambda).1, some (e.use n lambda).2)
        | none => (⟨true, none, none⟩, none)
      let put (e : Settled) : Settled := if e.stack == k then u.2.getD e else e
      let d := { d with stl := { d.stl with settled := d.stl.settled.map put } }
      let d := if u.1.fused && !a.2.any (·.2.fused) then d.count Reg.STL_FUSED_CNT else d
      let d := if u.1.write.isSome && !a.2.any (·.2.write.isSome) then d.count Reg.STL_REFLAT_CNT else d
      let d := if u.1.write.isSome then d.count (Reg.STL_SK_REFLAT_CNT k) else d
      (d, a.2 ++ [(k, u.1)])) (d, [])

/-- Strokes' layers have been dealt with the buffers that the layers hold (R186). -/
def Dev.useLayers (d : Dev) (layers : List Nat) (s : Nat) : Dev :=
  { d with flp := { d.flp with used := layers.map (fun i => (i, s)) ++ d.flp.used.filter fun e => !(layers.contains e.1) } }

/-- Deal stroke `s` of phase `p` at latch point `n` (R90, R92, R155): its parcels enter the parcel lists in reserved memory (R24, R156). -/
def Dev.dealStroke (d : Dev) (t : Timing) (n s p : Nat) : Dev :=
  let ks := activeStacks d.regs p
  let lambda := if t.racing then 1 else t.compLead
  let x := d.dealSettled ks n lambda
  let d := x.1
  let pick (f : SettleUse → Option Nat) : List (Nat × Nat) := x.2.filterMap fun e => (f e.2).map fun b => (e.1, b)
  let parcels := d.dealParcels d.regs p s
  let layers := activeLayers d.regs p
  let plates := (layers.filterMap fun i =>
    let l := layerAt d.regs i
    if l.plate && l.valid then some (l.ring, (d.frameOf i l.ring).1) else none).eraseDups
  let r : StrokeRun := {
    stroke := s, composedAs := s, phase := p, racing := t.racing, lead := t.compLead, version := d.regs, parcels
    fused := (x.2.filter (·.2.fused)).map (·.1), reads := pick (·.read), writes := pick (·.write)
    plates, lost := d.prt.lost }
  let d := { d with prt := { d.prt with strokes := d.prt.strokes ++ [r], dealStroke := s, dealCount := parcels.length } }
  let d := d.reservedWakes contentLists ((List.range (ceilDiv parcels.length 4)).map (s % 17 * 32768 + ·))
  let d := d.useLayers layers s
  let d := plates.foldl (fun d g => d.plateRead g.1 g.2 s) d
  (List.range 64).foldl (fun d k => d.showSettled k (r.fused.contains k) (r.reads.any (·.1 == k))) d

/-- Deal a stroke again from the store in Lull (R441): with the version and the sealed parcels of the stroke in its slot. It counts as
dealt with the buffers and frames of that stroke (R186). -/
def Dev.replayStroke (d : Dev) (s : Nat) : Dev :=
  match d.prt.strokes.find? fun r => !r.withdrawn && r.stroke == strokeSub s (r.lead + 1) with
  | none => d
  | some r =>
    let parcels := r.parcels.map fun q => { q with began := 0, missed := false }
    let d := d.setStrokes (d.prt.strokes ++ [{ r with stroke := s, compared := true, late := [], parcels }])
    let d := d.useLayers (activeLayers r.version r.phase) s
    r.plates.foldl (fun d g => d.plateRead g.1 g.2 s) d

/-- The last stroke still on its way that a test selects. -/
def Dev.lastRun (d : Dev) (p : StrokeRun → Bool) : Option Nat := ((d.prt.strokes.filter fun r => !r.withdrawn && p r).getLast?).map (·.stroke)

/-- A stroke was dealt with a buffer of a layer. -/
def StrokeRun.usesBuffer (r : StrokeRun) (layer buf : Nat) : Bool :=
  (activeLayers r.version r.phase).contains layer && (layerAt r.version layer).buf == buf

/-- Strokes that a REFRAME has discarded count as finished (R104, R186): what they used last was last used by a stroke before them. -/
def Dev.forgetDiscarded (d : Dev) (gone : List Nat) : Dev :=
  let buffer (layer buf : Nat) : Option Nat := d.lastRun (·.usesBuffer layer buf)
  let used := d.flp.used.filterMap fun e =>
    if gone.contains e.2 then (buffer e.1 (layerAt d.regs e.1).buf).map fun u => (e.1, u) else some e
  let displaced := d.flp.displaced.map fun x =>
    match x.last with
    | some u => if gone.contains u then { x with last := buffer x.layer x.buf } else x
    | none => x
  let leaving := d.stl.leaving.map fun e =>
    match e.2 with
    | some u => if gone.contains u then (e.1, d.lastRun fun r => r.parcels.any (·.stack == e.1.stack)) else e
    | none => e
  let plate (r : Nat) (p : Plate) : Plate :=
    { p with reads := p.reads.filterMap fun e =>
        if gone.contains e.2 then (d.lastRun (·.plates.contains (r, e.1))).map fun u => (e.1, u) else some e }
  let d := { d with flp := { d.flp with used, displaced }, stl := { d.stl with leaving } }
  (d.stl.plates.map (·.1)).foldl (fun d r => d.setPlate r (plate r (d.plate r))) d

/-- Porters that have nothing left to start have ended their lifts. -/
def Dev.liftingTidy (d : Dev) : Dev :=
  { d with prt := { d.prt with lifting := d.prt.lifting.filter fun p => !(d.toCompose p).isEmpty } }

/-- Deal at latch point `n` (R90, R156): in Run the stroke is composed, in Lull it is replayed. -/
def Dev.deal (d : Dev) (n : Nat) : Dev :=
  if !d.composes then d
  else
    let t := d.latchTiming
    let s := strokeAdd n t.ahead
    let p := (d.nextPhase + t.ahead) % t.phases
    if d.sdp.power == 1 then d.replayStroke s else d.dealStroke t n s p

/-- The strokes after the present one are discarded with their parcels (Table 4.6, R157, R172). -/
def Dev.withdraw (d : Dev) : Dev :=
  let gone (r : StrokeRun) : Bool := !r.withdrawn && strokeGe r.stroke (strokeAdd d.stk.stroke 1)
  let nums := (d.prt.strokes.filter gone).map (·.stroke)
  let drop (q : Parcel) : Parcel := if q.st == .waiting then { q with st := .abandoned } else q
  let d := (d.loseJobs fun j => nums.contains j.stroke).orphanLadders fun l => nums.contains l.stroke
  let d := d.mapRuns gone fun r => { r with withdrawn := true, compared := true, parcels := r.parcels.map drop }
  ((d.forgetDiscarded nums).liftingTidy).advanceDone

/-- Every stroke on the way is abandoned: Doze, the flush of a reset, and composition that stops (R172, R443, R456, R16, R414). -/
def Dev.abandonAll (d : Dev) : Dev :=
  let drop (q : Parcel) : Parcel := if q.st == .waiting then { q with st := .abandoned } else q
  let d := (d.loseJobs fun _ => true).orphanLadders fun _ => true
  let d := d.mapRuns (fun r => !r.complete) fun r => { r with abandoned := true, parcels := r.parcels.map drop }
  Dev.advanceDone { d with prt := { d.prt with lifting := [] } }

/-! ### At a tick -/

/-- A figure rounded to an integer: exact where it is whole; else up or down, which the spec leaves open (log 9). -/
def Dev.roundFree (d : Dev) (x : Rat) : Nat × Dev :=
  if x.den == 1 then (floorNat x, d)
  else let b := d.freshBool; ((if b.1 then ceilNat x else floorNat x), b.2)

/-- The admitted ceiling of the device, in porter-clocks per ns. -/
def Dev.deviceRate (d : Dev) : Rat := (List.range d.wb.regions.length).foldl (fun (a : Rat) (r : Nat) => a + d.regionRate r) 0

/-- `PRT_USE` at a tick, over the `L` strokes that end there (Table 7.3), and its threshold. In racing pacing, in which no `L` is in force
(R92), the strokes are as many as `LEAD` says, 1 at least (R172; DESIGN CHOICE, log 39). -/
def Dev.useTick (d : Dev) : Dev :=
  let t := d.live
  let n := max 1 t.compLead
  let sum : Nat := (d.prt.busy.take n).foldl (· + ·) 0
  let ended (i : Nat) : Nat := (d.stk.phase + t.phases * (n + 1) - 1 - i) % t.phases
  let span : Rat := (List.range n).foldl (fun (a : Rat) (i : Nat) => a + t.phaseLen (ended i)) 0
  let full := d.deviceRate * span
  let d := { d with prt := { d.prt with busy := 0 :: d.prt.busy.take 16 } }
  if full == 0 then d
  else
    let x := d.roundFree ((sum : Rat) * 1000 / full)
    let old := d.fld Reg.PRT_USE Fld.PRT_USE_USE
    let new := min x.1 2047
    let d := x.2.setFld Reg.PRT_USE Fld.PRT_USE_USE new
    if crossesUp old new (d.fld Reg.PRT_USE_MARK Fld.PRT_USE_MARK_MARK) then
      ((d.setFlag Reg.PRT_EVENT Fld.PRT_EVENT_USE_HIGH).count Reg.PRT_USE_HIGH_CNT).raise 0x4202
    else d

def Dev.coach (d : Dev) (p : Nat) : Coach := d.coaches.get (fun _ => {}) p
def Dev.setCoach (d : Dev) (p : Nat) (c : Coach) : Dev := { d with coaches := d.coaches.set (fun _ => {}) p c }

/-- A ladder ends before its steps are over, since its block may be read no more: its failed check is logged as not recovered (R299), and
a block whose re-read has failed is left damaged. -/
def Dev.endLadder (d : Dev) (l : Ladder) : Dev :=
  let d := { d with ladders := d.ladders.erase l }
  (if (if l.staging then d.stagingDamaged.contains l.block else d.isDamaged l.block) then d.ladderDamaged l else d).logLadder l 0

/-- A ladder that goes on for its block alone reads, for a stroke that is finished, a block of a table that has left use (R146). -/
def Dev.orphanOver (d : Dev) (l : Ladder) : Bool :=
  l.orphan && l.reader.isNone && l.kind ≤ 2 && d.strokeFinished l.stroke &&
    match d.runOf l.stroke, d.parcel l.stroke l.region l.parcel with
    | some r, some q =>
      ((stackAt r.version q.stack).tableExtents r.version (d.allStops r.version)).any fun t =>
        !d.tableInUse t.1 && (blocksOf t.1 t.2).contains l.block
    | _, _ => false

/-- Parcels that wait for tables which have left use are given up, and so are their recompositions and the ladders of what they read
(R146; DESIGN CHOICE, log 39). -/
def Dev.giveUpTables (d : Dev) : Dev :=
  let gone (stroke region number : Nat) : Bool := !d.recomposable stroke region number
  let drop (r : StrokeRun) (q : Parcel) : Parcel := if q.st == .waiting && d.tablesGone r q then { q with st := .abandoned } else q
  let e := d.mapRuns (fun r => !r.withdrawn && d.strokeFinished r.stroke) fun r => { r with parcels := r.parcels.map (drop r) }
  let ended := e.ladders.filter fun l =>
    (l.reader.isNone && !l.orphan && l.kind ≤ 2 && gone l.stroke l.region l.parcel) || e.orphanOver l
  let e := ended.foldl Dev.endLadder (e.loseJobs fun j => (!j.started || j.stalled) && gone j.stroke j.region j.number)
  e.liftingTidy.advanceDone

/-- Comparisons have ended since `before`: the tables, plate frames and copies that their strokes alone still held are free (R146, R189,
R193). -/
def Dev.readsOver (d : Dev) (before : Dev) : Dev :=
  let ended (x : Dev) : Nat := (x.prt.strokes.filter (·.compared)).length
  if ended before < ended d || (before.paired && !d.paired) then (d.giveUpTables.plateTidy).freeCopies else d

/-- A porter finishes a parcel, or a composition again. -/
def execParcelComposed (porter : Fin 256) (sealOk : Bool) (bad : List Nat) (parity : Nat) (err : Option (List Byte)) (s : State) :
    Host.Outcome State Fault Refusal :=
  s.apply fun d => (d.parcelComposed porter sealOk bad parity err).readsOver d

/-- A hold cause other than REFRAMING stands (R217, R414, R432, R444, R456). -/
def Dev.holdOther (d : Dev) (p : Nat) : Bool :=
  d.stk.timing == 0 || (d.stk.timing == 2 && !d.stk.running) || d.sdp.power == 2 || d.sdp.dozeHold || d.bridgeIsDown ||
  d.pllFailed || d.flag (Reg.CPT_CTRL p) Fld.CPT_CTRL_HOLD || d.twn.standby || d.boot.flush || d.sdp.unlocking

def Dev.reframing (d : Dev) : Bool := d.stk.timing == 3

/-- Whether a port sends pixels: it is in RUN, or only REFRAMING holds it (R218). -/
def Dev.coachSends (d : Dev) (p : Nat) : Bool :=
  (d.coach p).state == 2 || ((d.coach p).state == 3 && d.reframing && !d.holdOther p)

/-- A Coach port that sends strokes has still to send a stroke (R214, R218). -/
def Dev.unsent (d : Dev) (u : Nat) : Bool :=
  (d.portsOf 1).any fun p => d.coachSends p && !strokeGe (d.coach p).next (strokeAdd u 1)

/-- The versions of strokes are no longer kept that have been composed, sent and compared (R114, R214, R319); Lull keeps those that
the store holds (R441), and a withdrawn stroke stays until every port has skipped it (R218). -/
def Dev.retireStrokes (d : Dev) : Dev :=
  let d := d.giveUpTables
  d.setStrokes (d.prt.strokes.filter fun r =>
    if r.withdrawn then
      d.coaches.any (fun c => c.2.withdrawn.contains r.stroke) || r.parcels.any fun q => q.st == .running || q.st == .stalled
    else !(d.strokeFinished r.stroke && r.complete && !d.unsent r.stroke) || !strokeGe d.stk.stroke (strokeAdd r.stroke 1))

/-! ### The plan that admission tests (R163) -/

/-- A stroke number relative to the stroke in progress. -/
def Dev.rel (d : Dev) (n : Nat) : Int := signed 48 (strokeSub n d.stk.stroke)

/-- The live words that a queued set's STACK members set. -/
def memberWords : Member → List (Nat × Nat)
  | .stack _ _ _ _ ws => ws
  | _ => []

def QSet.words (q : QSet) : List (Nat × Nat) := q.members.flatMap memberWords

/-- Whether a set changes what admission tests. -/
def QSet.isChange (q : QSet) : Bool := !q.words.isEmpty || !q.changes.isEmpty

/-- The route-map words that a commit of a port would set: live offset and shadow value. -/
def Dev.routeWords (d : Dev) (p : Nat) : List (Nat × Nat) :=
  (List.range 64).flatMap fun s => (List.range 5).map fun k =>
    (Reg.CPT_RM_CTRL_LIVE p s + 4 * k, d.reg (Reg.CPT_RM_CTRL p s + 4 * k))

/-- The next latch point, as a relative stroke number. -/
def Dev.relLatch (d : Dev) : Int := if d.stk.latched then 2 else 1

/-- Accepted changes that have not applied: the latch point at which each can apply at the earliest, relative, and the words it
sets. One whose target has passed, having been deferred, can apply at the next latch point. -/
def Dev.pendingChanges (d : Dev) : List (Int × List (Nat × Nat)) :=
  (d.flp.accepted.filter (!·.words.isEmpty)).map (fun q => (max d.relLatch (d.rel q.target), q.words)) ++
    ((d.portsOf 1).filter fun p => (d.coach p).pending).map fun p =>
      (max d.relLatch (match (d.coach p).target with | some n => d.rel n | none => 1), d.routeWords p)

/-- They in the order in which they apply. -/
def Dev.comingChanges (d : Dev) : List (Int × List (Nat × Nat)) := d.pendingChanges.mergeSort fun a b => a.1 ≤ b.1

/-- The projected configuration: every accepted change, and then the one under test (R163). -/
def Dev.projectedWith (d : Dev) (extra : List (Nat × Nat)) : Cfg :=
  cfgOverlay (d.comingChanges.foldl (fun c x => cfgOverlay c x.2) d.regs) extra

/-- The live word of a shadow word that SECDED covers: layer descriptors, stacks and recipes, phase map, parcel shape and route maps
(Table 12.4). -/
def liveOfShadow (off : Nat) : Option Nat :=
  if off % 4 != 0 then none
  else if off == Reg.PRT_PARCEL then some Reg.PRT_PARCEL_LIVE
  else if Reg.PRT_PMAP_LO 0 ≤ off && off < Reg.PRT_PMAP_LO 16 then some (off - Reg.PRT_PMAP_LO 0 + Reg.PRT_PMAP_LO_LIVE 0)
  else if Reg.PRT_LD_CTRL 0 ≤ off && off < Reg.PRT_LD_CTRL 1024 && (off - Reg.PRT_LD_CTRL 0) % 0x100 < 40 then
    some (off - Reg.PRT_LD_CTRL 0 + Reg.PRT_LD_CTRL_LIVE 0)
  else if Reg.PRT_SK_CTRL 0 ≤ off && off < Reg.PRT_SK_CTRL 64 && (off - Reg.PRT_SK_CTRL 0) % 0x1000 < 0x540 then
    some (off - Reg.PRT_SK_CTRL 0 + Reg.PRT_SK_CTRL_LIVE 0)
  else if Reg.CPT_RM_CTRL 0 0 ≤ off && off < Reg.CPT_RM_CTRL 128 0 && (off - Reg.CPT_RM_CTRL 0 0) % 0x10000 < 0x800 &&
      (off - Reg.CPT_RM_CTRL 0 0) % 0x20 < 20 then some (off - Reg.CPT_RM_CTRL 0 0 + Reg.CPT_RM_CTRL_LIVE 0 0)
  else none

/-- The check of the shadow words that a command takes: an uncorrectable one counts, and reads 0 until it is written (R295). -/
def Dev.shadowChecked (d : Dev) (ecc : ShadowEcc) : Dev :=
  match ecc with
  | .good => d
  | .corrected => d.secdedCorrected
  | .bad off =>
    if (liveOfShadow off).isNone then d
    else
      let d := (d.secdedBad storeShadow 0).setReg off 0
      { d with prt := { d.prt with badShadow := insertSorted d.prt.badShadow off } }

/-- Live words to be taken from the shadows hold an uncorrectable shadow word (R295, Table 12.4). -/
def Dev.shadowHits (d : Dev) (words : List (Nat × Nat)) : Bool :=
  d.prt.badShadow.any fun off => match liveOfShadow off with
    | some live => words.any (·.1 == live)
    | none => false

/-- Shadow words are written anew. -/
def Dev.shadowsWritten (d : Dev) (offs : List Nat) : Dev :=
  { d with prt := { d.prt with badShadow := d.prt.badShadow.filter fun off => !offs.contains off } }

/-- A write of a shadow that SECDED covers: the word is sound again (R295). -/
def Dev.shadowWrite (d : Dev) (off v : Nat) : Dev := (d.shadowsWritten [off]).genericWrite off v

/-- Recompute the changes of a plan in the order in which they apply. -/
def sequence (start : Cfg) (xs : List (Int × List (Nat × Nat))) : List Change :=
  (xs.foldl (fun (a : Cfg × List Change) x =>
    let c := cfgOverlay a.1 x.2
    (c, a.2 ++ [⟨x.1, c⟩])) (start, [])).2

/-- λ in ns (R285). -/
def Dev.lambdaNs (d : Dev) : Nat := d.fld Reg.DEP_LAMBDA Fld.DEP_LAMBDA_US * 1000

/-- The accepted changes in the order in which they apply, and the command under test over them from its latch point on (R163). -/
def withTested (start : Cfg) (coming : List (Int × List (Nat × Nat))) (latch : Int) (extra : List (Nat × Nat)) : List Change :=
  let cs := sequence start coming
  let early := cs.filter fun x => x.latch ≤ latch
  let base := match early.getLast? with
    | some x => x.after
    | none => start
  early ++ ⟨latch, cfgOverlay base extra⟩ :: (cs.filter fun x => latch < x.latch).map fun x => { x with after := cfgOverlay x.after extra }

/-- The show offsets in force, which a REFRAME leaves as they are (R91, R163). -/
def Dev.liveShows (d : Dev) : List Nat := (List.range 16).map fun k => d.reg (Reg.STK_SHOW_LIVE k)

/-- The plan of the present configuration with the accepted changes and then one more, at a latch point, under the live timing, with
the fused windows of settled changes; a pending REFRAME ends it with its last stroke (R163). -/
def Dev.plan (d : Dev) (latch : Int) (extra : List (Nat × Nat)) (windows : List FusedWindow) : Plan :=
  let past := d.flp.recent.map fun e => (d.rel e.1, e.2)
  let start := match past with
    | e :: _ => e.2
    | [] => d.regs
  let afters := (past.drop 1).map (·.2) ++ [d.regs]
  let applied := (past.zip afters).map fun e => (⟨e.1.1, e.2⟩ : Change)
  { timing := d.live, phase0 := d.stk.phase, lambda := d.lambdaNs, start
    changes := applied ++ withTested d.regs d.comingChanges latch extra
    windows := windows.map fun w => ⟨w.stack, d.rel w.first, d.rel w.last⟩
    final := d.projectedWith extra, shows := d.liveShows, limit := d.stk.reframe.map fun b => (d.reframeAhead b : Int) - 1 }

/-- The plan of a REFRAME that takes effect at `b`: the new timing alone, from its first stroke on, since the strokes dealt under the
old one are withdrawn; changes and fused windows that reach past the REFRAME stand, and a command under test with them (R163). -/
def Dev.reframePlan (d : Dev) (b : Rat) (latch : Int) (extra : List (Nat × Nat)) (windows : List FusedWindow) : Plan :=
  let t := d.shadowTiming
  let r1 : Int := (d.reframeAhead b : Nat)
  let changes := withTested d.regs d.comingChanges latch extra
  let start := match (changes.filter fun x => x.latch ≤ r1).getLast? with
    | some x => x.after
    | none => d.regs
  { timing := t, phase0 := ((-r1) % (t.phases : Int)).toNat, lambda := d.lambdaNs, start
    changes := changes.filter fun x => r1 < x.latch
    windows := (windows.map fun w => (⟨w.stack, max r1 (d.rel w.first), d.rel w.last⟩ : Window)).filter fun w => r1 ≤ w.last
    final := d.projectedWith extra, shows := d.liveShows }

/-- The plans that a command under test must hold in: that of the live timing, up to the last stroke before a pending REFRAME, and that
of the REFRAME (R163). -/
def Dev.plans (d : Dev) (latch : Int) (extra : List (Nat × Nat)) (windows : List FusedWindow) : List Plan :=
  match d.stk.reframe with
  | none => [d.plan latch extra windows]
  | some b => (if d.stk.running then [d.plan latch extra windows] else []) ++ [d.reframePlan b latch extra windows]

/-- Admission of a command: the first test that fails in one of its plans. -/
def Dev.admitChange (d : Dev) (latch : Int) (extra : List (Nat × Nat)) (windows : List FusedWindow) : Option AdmFail :=
  (d.plans latch extra windows).findSome? d.admission

/-- The `PRT_ADM_` registers, for the live configuration (Table 7.3). Racing pacing has no R164 or R165 window: the figures
are then free (log 9). -/
def Dev.updateAdm (d : Dev) : Dev :=
  if !d.hasPrt then d
  else
    let a : Plan := { timing := d.live, phase0 := 0, lambda := d.lambdaNs, start := d.regs, changes := [], windows := []
                      final := d.regs, shows := d.liveShows }
    let ms := (List.range a.P).map fun (n : Nat) => (n : Int) + 1
    let regions := List.range d.wb.regions.length
    let worst := (ms.flatMap fun m => regions.map fun r => (d.clockUse a r m, r)).foldl
      (fun (b : Rat × Nat) x => if b.1 < x.1 then x else b) (0, 0)
    let bytes := (ms.map (d.byteUse a)).foldl max 0
    let lead : Rat := (a.timing.lead : Nat)
    let slacks := (d.portsOf 1).flatMap fun q =>
      if a.timing.racing then
        ms.filterMap fun m => (d.portLoad (a.own m) q).map fun x =>
          (x.2.2.foldl (fun s r => min s (lead - (((d.charge a m).1.getD r 0 : Nat) / d.regionRate r + (a.lambda : Nat) + x.1))) lead, q)
      else ((d.sendFrom a q none a.sendStrokes).filter fun x => 0 < x.1).map fun x => (x.2, q)
    let least := slacks.foldl (fun (b : Option (Rat × Nat)) x => match b with
      | none => some x
      | some y => if x.1 < y.1 then some x else b) none
    let cl := if a.timing.racing then d.freshNat else d.roundFree (worst.1 * 1000)
    let d := cl.2.setReg Reg.PRT_ADM_CLOCKS (cl.1 % 2 ^ 11 + worst.2 * 2 ^ 16)
    let by_ := if a.timing.racing then d.freshNat else d.roundFree (bytes * 1000)
    let d := by_.2.setReg Reg.PRT_ADM_BYTES (by_.1 % 2 ^ 11)
    match least with
    | none => d.setReg Reg.PRT_ADM_SLACK 0xFFFFFF
    | some x =>
      let us := d.roundFree (x.1 / 1000)
      us.2.setReg Reg.PRT_ADM_SLACK (min us.1 0xFFFFFF + x.2 * 2 ^ 24)

end Sys2Proof.Machine
end

