-- ==== Sys2Proof/Machine/Fences.lean ====
section
/-! DEFINITION. Fences (R174 to R176), the entries of SUBMIT rings (R177, R178) and the queue of flip sets. -/

namespace Sys2Proof.Machine

/-! ### Fences -/

def Dev.fence (d : Dev) (f : Nat) : Nat := d.reg (Reg.FLP_FENCE f)

/-- Whether a fence satisfies a wait value (R174). -/
def Dev.satisfies (d : Dev) (f v : Nat) : Bool := cursorBeyond (d.fence f) v

/-- Whether a new value advances a fence (R174). -/
def Dev.advances (d : Dev) (f v : Nat) : Bool :=
  let x := cursorSub v (d.fence f)
  1 ≤ x && x < 2 ^ 31

/-- `LIMIT` ticks have passed before the fence satisfied `VAL` (R179). -/
def FenceWaitSt.expired (w : FenceWaitSt) : Bool := !w.met && w.limit != 0 && w.limit ≤ w.ticks

/-- FENCE_WAITs whose fence satisfies `VAL` before their limit has passed hold that (R179). -/
def Dev.waitsMet (d : Dev) : Dev :=
  let look (w : FenceWaitSt) : FenceWaitSt := if !w.expired && d.satisfies w.idx w.val then { w with met := true } else w
  { d with flp := { d.flp with waits := d.flp.waits.map look } }

/-- A write to a fence takes effect only where it advances it; the fence's group may then raise its source (R174, R176). -/
def Dev.fenceWrite (d : Dev) (f v : Nat) : Dev :=
  if d.advances f v then
    (d.setReg (Reg.FLP_FENCE f) v).waitsMet.raiseIf (bit (d.reg (Reg.FLP_FENCE_NOTIFY (f / 32))) (f % 32)) (0x4110 + f / 64)
  else d

/-! ### Flip sets (Tables 8.1, 8.2) -/

/-- The header of a flip set. -/
structure SetHead where
  count : Nat
  next : Bool
  deadline : Nat
  target : Nat
  afEn : Bool
  afIdx : Nat
  afVal : Nat
  tag : Nat
  lodger : Nat
  deriving DecidableEq, Repr

/-- The fields of a FLIPSET entry; `lodger` is word 6 of a group of a trunk set (R334). -/
def setHead (e : List Nat) : SetHead where
  count := bits (wordOf e 0) 13 8
  next := bit (wordOf e 0) 16
  deadline := bits (wordOf e 0) 31 24
  target := wordOf e 1 + 2 ^ 32 * bits (wordOf e 2) 15 0
  afEn := bit (wordOf e 3) 31
  afIdx := bits (wordOf e 3) 9 0
  afVal := wordOf e 4
  tag := wordOf e 5
  lodger := bits (wordOf e 6) 5 0

/-- The form of a FLIPSET entry, on a SUBMIT ring or in a trunk set (R178, R334). -/
def headGood (trunk : Bool) (e : List Nat) : Bool :=
  opOf e == 1 && reservedClear [0xFF013FFF, all32, 0xFFFF, 0x800003FF, all32, all32, if trunk then 0x3F else 0] e &&
    (!trunk || (!(setHead e).next && (setHead e).target == 0 && (setHead e).deadline == 0))

/-- The live words that a stack change of the shadows sets (R110): stacks, layer descriptors, and with `pmap` the phase map
and the parcel shape. The buffer words and `BUFFERED` of a layer are not among them (R113). -/
def Dev.snapshotWords (d : Dev) (which layers : List Nat) (pmap : Bool) : List (Nat × Nat) :=
  (which.flatMap fun k => stackWords.map fun o => (Reg.PRT_SK_CTRL_LIVE k + o, d.reg (Reg.PRT_SK_CTRL k + o))) ++
  (layers.flatMap fun i => (List.range 10).map fun k => (Reg.PRT_LD_CTRL_LIVE i + 4 * k, d.reg (Reg.PRT_LD_CTRL i + 4 * k))) ++
  if pmap then (Reg.PRT_PARCEL_LIVE, d.reg Reg.PRT_PARCEL) ::
    (List.range 32).map fun k => (Reg.PRT_PMAP_LO_LIVE 0 + 4 * k, d.reg (Reg.PRT_PMAP_LO 0 + 4 * k))
  else []

/-- The layer descriptors that a STACK entry names; none where a range passes descriptor 1,023. -/
def stackRanges (e : List Nat) : Option (List Nat) :=
  (List.range 4).foldl (fun acc k =>
    let w := wordOf e (3 + k)
    let first := bits w 9 0
    let num := bits w 26 16
    match acc with
    | none => none
    | some l => if 1024 < first + num && num != 0 then none else some (l ++ (List.range num).map (· + first))) (some [])

/-- A member entry as it is read (Table 8.2); none where its form breaks R178. An `ACTION` of 5 to 7, which the table does not name, is such a
form (DESIGN CHOICE, log 40). -/
def Dev.readMember (d : Dev) (e : List Nat) : Option Member :=
  let w0 := wordOf e 0
  match opOf e with
  | 2 =>
    if reservedClear [0x0703FFFF, 0xFFFFF000, 0x1F, 0x3FF, all32, 0x3FF, all32] e then
      some (.flip (bits w0 17 8) (bit w0 24) (bit w0 25) (bit w0 26) (wordOf e 1 + 2 ^ 32 * wordOf e 2)
        (wordOf e 3) (wordOf e 4) (wordOf e 5) (wordOf e 6))
    else none
  | 3 =>
    if reservedClear [0x3FF, all32, all32, 0x07FF03FF, 0x07FF03FF, 0x07FF03FF, 0x07FF03FF] e then
      (stackRanges e).map fun layers =>
        let m := wordOf e 1 + 2 ^ 32 * wordOf e 2
        let which := (List.range 64).filter (bit m)
        let ls := layers.eraseDups
        .stack which ls (bit w0 8) (bit w0 9) (d.snapshotWords which ls (bit w0 8))
    else none
  | 4 =>
    if reservedClear [0x73FFF, 0x80000FFF] e && bits w0 18 16 ≤ 4 && bits w0 15 14 == 0 then
      some (.plate (bits w0 13 8) (bits w0 18 16) (bits (wordOf e 1) 11 0) (bit (wordOf e 1) 31))
    else none
  | _ => none

/-- The members of a set; none where one of them is malformed. -/
def Dev.readMembers (d : Dev) (es : List (List Nat)) : Option (List Member) := es.mapM d.readMember

/-! ### What a set changes -/

/-- The live words after a STACK member's words: `VALID` 0 clears `BUFFERED`, which is otherwise kept (R113); it does so too where
the layer was invalid before (DESIGN CHOICE, log 57). -/
def setLiveWord (c : Cfg) (w : Nat × Nat) : Cfg :=
  let layer := Reg.PRT_LD_CTRL_LIVE 0 ≤ w.1 && w.1 < Reg.PRT_LD_CTRL_LIVE 1024 && (w.1 - Reg.PRT_LD_CTRL_LIVE 0) % 0x100 == 0
  if layer then cfgSet c (w.1, w.2 % 2 ^ 31 + if bit w.2 0 && bit (cfgReg c w.1) 31 then 2 ^ 31 else 0) else cfgSet c w

/-- The layers that a set's FLIP members flip. -/
def flippedLayers (ms : List Member) : List Nat := ms.filterMap fun m => match m with
  | .flip l _ _ _ _ _ _ _ _ => some l
  | _ => none

/-- What slots below the settle line of a stack show: the slots and the layer-scope stages that cover them (R188). -/
def belowLine (k : StackV) : List (Slot × List Stage) :=
  ((List.range k.slots.length).zip k.slots).take k.settle |>.map fun e =>
    (e.2, k.stages.filter fun s => !s.stackScope && bit s.slots e.1)

/-- The layers of enabled slots below the settle line, and those of all slots below it. -/
def layersBelow (k : StackV) : List Nat := ((k.enabled.filter fun e => e.1 < k.settle).map (·.2.layer)).eraseDups
def layersNamedBelow (k : StackV) : List Nat := ((k.slots.take k.settle).map (·.layer)).eraseDups

/-- A layer descriptor without its buffer. -/
def Layer.shape (l : Layer) : Layer := { l with buf := 0, buffered := false }

/-- Whether stack `k` is settled before or after. -/
def settledEither (before after : Cfg) (k : Nat) : Bool :=
  let s (c : Cfg) : Bool := let v := stackAt c k; v.valid && v.settle != 0
  s before || s after

/-- One STACK member that names stack `k` changes what lies below its settle line, or the line itself (R188). A stack with a settle line
that becomes valid is one too, since it needs copies and a writer (DESIGN CHOICE, log 40). -/
def stackChanges (before after : Cfg) (k : Nat) : Bool :=
  let a := stackAt before k
  let b := stackAt after k
  a.settle != b.settle || a.base != b.base || a.baseA != b.baseA || (!a.valid && b.valid) || belowLine a != belowLine b ||
    (layersNamedBelow b).any fun l => (layerAt before l).shape != (layerAt after l).shape

/-- The stacks for which the STACK members of a set, taken one after the other, are settled changes: each by one member (R188). -/
def membersChange (c : Cfg) : List Member → List Nat
  | [] => []
  | .stack ks _ _ reflat words :: ms =>
    let after := words.foldl setLiveWord c
    (ks.filter fun k => reflat || stackChanges c after k) ++ membersChange after ms
  | _ :: ms => membersChange c ms

/-- The stacks for which a set is a settled change (R188): `flipped` are the layers that it flips. -/
def settledChanges (before after : Cfg) (ms : List Member) (flipped : List Nat) : List Nat :=
  let named := membersChange before ms
  (List.range 64).filter fun k =>
    settledEither before after k && ((layersBelow (stackAt after k)).any flipped.contains || named.contains k)

/-! ### The queue -/

/-- Queued members (R181). -/
def membersOf (qs : List QSet) : Nat := qs.foldl (fun a q => a + q.members.length) 0
def Dev.queuedMembers (d : Dev) : Nat := membersOf d.flp.queue

/-- `FLP_STATUS` (Table 8.7). -/
def Dev.flpStatus (d : Dev) : Nat := d.flp.queue.length + d.queuedMembers * 2 ^ 16

/-- The queue has room for a set of `n` members (R181); prepared groups of trunk sets hold their place in it (R337). -/
def Dev.queueRoom (d : Dev) (n : Nat) : Bool :=
  d.flp.accepted.length + 1 ≤ 256 && membersOf d.flp.accepted + n ≤ 4096

def Dev.flpEvent (d : Dev) (f : Fld) : Dev := d.setFlag Reg.FLP_EVENT f

/-- The lowest-numbered ring of class MIRROR (R313). -/
def Dev.mirrorRing (d : Dev) : Option Nat :=
  ((d.wb.rings.filter fun r => r.cls == classMirror && 0 < r.count).map (·.first)).foldl
    (fun m b => match m with | none => some b | some a => some (min a b)) none

/-- Copy the completion record of a mirrored set or wait to the MIRROR ring, on a device of a pair (R313). -/
def Dev.mirrorCopy (d : Dev) (c : Completion) : Dev :=
  match d.mirrorRing with
  | some r => (d.record r [wordBytes c.words]).2
  | none => d

/-- The completion of a set reaches the ring it was read from, or the trunk (R182, R313, R340). -/
def Dev.completeSet (d : Dev) (q : QSet) (status m held : Nat) : Dev :=
  let c : Completion := { op := 1, status, tag := q.tag, stroke := m, detail := held }
  match q.origin with
  | .own r i => if q.ack.isSome then (d.ringComplete r i c).mirrorCopy c else d.ringComplete r i c
  | .mirrored _ _ => d.mirrorCopy c
  | .trunk s => { d with flp := { d.flp with applied := d.flp.applied ++ [(s, status, m, held)] } }

/-- Take a set out of the queue; if it has not applied, its fused windows and reservation go with it (R189, R190). -/
def Dev.dequeue (d : Dev) (q : QSet) (applied : Bool) : Dev :=
  { d with flp := { d.flp with
    queue := d.flp.queue.filter (·.id != q.id)
    windows := if applied then d.flp.windows else d.flp.windows.filter (·.set != q.id) } }

/-- Every queued set completes with a status (Table 8.4): STATE on entry to Doze, ABORTED by a reset or a role change; one that does
not count as read stays on its ring. The latch stroke of a set that has none is free (log 9). -/
def Dev.flushSets (d : Dev) (status : Nat) : Dev :=
  let d := d.unread d.flp.reading
  d.flp.queue.foldl (fun d q =>
    let m := d.freshNat
    (m.2.dequeue q false).completeSet q status (m.1 % two48) 0) d

end Sys2Proof.Machine
end

