-- ==== Sys2Proof/Machine/TrunkLink.lean ====
section
/-! DEFINITION. Trunk lanes, uplinks and downlinks (R326 to R330): what the other units use to send on the trunk, and the trunk
states of Table 14.3 that a device leaves by itself. -/

namespace Sys2Proof.Machine

/-! ### The device and its place in the tree -/

/-- `TRK_STATUS.STATE`: 0 IDLE, 1 AUTH, 2 JOINED, 3 ADRIFT, 4 FAILED. -/
def Dev.trkState (d : Dev) : Nat := d.fld Reg.TRK_STATUS Fld.TRK_STATUS_STATE

def Dev.trkJoined (d : Dev) : Bool := d.hasTrk && d.trkState == 2

def Dev.steward (d : Dev) : Bool := d.wb.hierarchy == 1

/-- The originator: the steward, or the acting primary of a steward pair. -/
def Dev.originator (d : Dev) : Bool := d.hasTrk && d.steward && !d.secondary

/-- A lodger that has joined. -/
def Dev.joinedLodger (d : Dev) : Bool := d.trkJoined && d.wb.hierarchy == 2

/-- The lodger index that a device puts into `ORIGIN` and AUTH; 0xFF for the steward (Table 14.1). -/
def Dev.trkIndex (d : Dev) : Nat := if d.steward then 0xFF else d.wb.lodger

def Dev.trkEvent (d : Dev) (f : Fld) : Dev := d.setFlag Reg.TRK_EVENT f

/-- A change of the trunk state (Table 14.12). -/
def Dev.trkTo (d : Dev) (x : Nat) : Dev :=
  if d.trkState == x then d
  else ((d.setFld Reg.TRK_STATUS Fld.TRK_STATUS_STATE x).trkEvent Fld.TRK_EVENT_STATE).raise 0x4680

/-! ### Lanes -/

def Dev.tlane (d : Dev) (p : Nat) : TrkLane := d.trk.lanes.get (fun _ => {}) p

/-- Store a lane, and show its state. -/
def Dev.setTlane (d : Dev) (p : Nat) (x : TrkLane) : Dev :=
  { d with trk := { d.trk with lanes := d.trk.lanes.set (fun _ => {}) p x } }.setFld (Reg.TRK_PORT_STATUS p)
    Fld.TRK_PORT_STATUS_STATE x.state

/-- The depth and the lodger index that the partner of a lane has advertised (Table 14.2). -/
def TrkLane.theirDepth (x : TrkLane) : Nat := match x.theirAuth with
  | some a => (a.getD 37 0xFF).toNat
  | none => 0xFF
def TrkLane.theirIndex (x : TrkLane) : Nat := match x.theirAuth with
  | some a => (a.getD 36 0xFF).toNat
  | none => 0xFF

/-- An authenticated lane whose partner is joined. -/
def TrkLane.isJoined (x : TrkLane) : Bool := x.state == 3 && x.theirDepth < 0xFF

/-- Depth and lodger index of the device that the uplinks lead to (R329): a JOINED lodger keeps the one by which it joined, since losing
both uplinks makes it ADRIFT; another takes the least depth that a joined partner advertises. -/
def Dev.upperOf (d : Dev) : Option (Nat × Nat) :=
  if d.steward then none
  else if d.trkJoined then d.trk.upper
  else
    let cs := (d.portsOf 4).filter fun p => (d.tlane p).isJoined
    let least := cs.foldl (fun m p => min m (d.tlane p).theirDepth) 0xFF
    (cs.find? fun p => (d.tlane p).theirDepth == least).map fun p => (least, (d.tlane p).theirIndex)

/-- The uplinks, in port order (R329): at most two, leading to one device or pair. -/
def Dev.uplinks (d : Dev) : List Nat :=
  match d.upperOf with
  | none => []
  | some u => ((d.portsOf 4).filter fun p =>
      (d.tlane p).isJoined && (d.tlane p).theirDepth == u.1 && (d.tlane p).theirIndex == u.2).take 2

/-- The depth that a device advertises: 0xFF while it has not joined (R327, R329). -/
def Dev.trkDepth (d : Dev) : Nat :=
  if d.steward then 0 else if d.trkJoined then d.fld Reg.TRK_STATUS Fld.TRK_STATUS_DEPTH else 0xFF

/-- A downlink (R329): an authenticated port, not an uplink, whose partner advertises a greater depth than the device has. -/
def Dev.isDownlink (d : Dev) (p : Nat) : Bool :=
  (d.tlane p).state == 3 && !(d.uplinks.contains p) && decide (d.trkDepth < (d.tlane p).theirDepth)

def Dev.downlinks (d : Dev) : List Nat := (d.portsOf 4).filter d.isDownlink

/-! ### Sending -/

/-- A trunk frame's header (Table 14.1). -/
def trunkHeader (f : TrunkFrame) (length seq ack : Nat) : List Byte :=
  leBytes 1 f.type_ ++ leBytes 1 f.origin ++ leBytes 2 length ++ leBytes 4 seq ++ leBytes 4 ack ++ leBytes 4 f.sseq

/-- A trunk frame as it goes out (R303, R327). -/
def Dev.trkFrameBytes (d : Dev) (p : Nat) (session : List Byte) (seq : Nat) (f : TrunkFrame) (payload : List Byte) : List Byte :=
  checkedFrame session (trunkHeader f payload.length seq (((d.tlane p).rxNext + (2 ^ 32 - 1)) % 2 ^ 32)) payload

/-- An IDLE frame of `n` zero bytes on a trunk lane (R303, R327). -/
def Dev.trkIdleFrame (d : Dev) (p seq n : Nat) : List Byte :=
  d.trkFrameBytes p (d.tlane p).session seq { type_ := 0, origin := d.trkIndex, sseq := 0, body := .bytes [] } (List.replicate n 0)

/-- A trunk frame's bytes go through the lane's codewords (R302, R326). -/
def Dev.trkCodes (d : Dev) (p : Nat) (bs : List Byte) : Dev :=
  let r := d.linkBytes p (d.trkIdleFrame p) (d.trk.codes.get (fun _ => {}) p) bs
  { r.2 with trk := { r.2.trk with codes := r.2.trk.codes.set (fun _ => {}) p r.1 } }

/-- Put a frame on a lane. The bytes of a payload without a layout are free, and how many they are (log 9). -/
def Dev.trkPut (d : Dev) (p : Nat) (session : List Byte) (seq : Nat) (f : TrunkFrame) : Dev :=
  match f.body with
  | .bytes payload =>
    let bs := d.trkFrameBytes p session seq f payload
    (d.emit (.frame p bs)).trkCodes p bs
  | .timing _ _ =>
    let n := d.freshNat
    let b := n.2.freshBytes (n.1 % 4097)
    (b.2.emit (.timing p seq f)).trkCodes p (d.trkFrameBytes p session seq f b.1)

/-- Whether a type is sequenced on its lane: IDLE, SYNC and TICK are not, as on the twin link (DEDUCED, log 23). -/
def trunkSequenced (t : Nat) : Bool := !(t == 0x00 || t == 0x10 || t == 0x11)

/-- Send a frame on an aligned lane; a sequenced one stays in the lane's replay buffer until it is acknowledged (R327). -/
def Dev.trkSendOn (d : Dev) (p : Nat) (f : TrunkFrame) : Dev :=
  let x := d.tlane p
  if x.state < 2 then d
  else if trunkSequenced f.type_ then
    let e : SentTrunk := { seq := x.txSeq, frame := f, session := x.session }
    (d.trkPut p x.session x.txSeq f).setTlane p { x with txSeq := (x.txSeq + 1) % 2 ^ 32, sent := x.sent ++ [e] }
  else
    let r := d.freshNat
    r.2.trkPut p x.session (r.1 % 2 ^ 32) f

/-- `CORR` of a TICK that leaves a steward device now (R332): the time since its latest tick, and the time that its tick's command gives
for what follows to the departure, in 1/16 ns. -/
def Dev.tickCorr (d : Dev) : Nat :=
  match d.stk.ticks with
  | t :: _ => 16 * (d.now - t.2) + d.trk.departure
  | [] => d.trk.departure

/-- A TICK as it leaves a steward device. -/
def Dev.stewardTick (d : Dev) (p : Nat) (f : TrunkFrame) (payload : List Byte) : Dev :=
  d.trkSendOn p { f with body := .bytes (payload.take 8 ++ leBytes 8 d.tickCorr) }

/-- Send a down frame on every downlink (R330). -/
def Dev.trkFlood (d : Dev) (f : TrunkFrame) : Dev :=
  d.downlinks.foldl (fun (d : Dev) (p : Nat) => match f.type_, f.body with
    | 0x11, .bytes payload => d.stewardTick p f payload
    | _, _ => d.trkSendOn p f) d

/-- The originator creates a down frame: its twin gets it first, and its own ports once that is acknowledged (R330). The
originator's sequence begins at 1. -/
def Dev.trkDown (d : Dev) (type_ : Nat) (body : TrunkBody) : Dev :=
  let sseq := (d.trk.sseq + 1) % 2 ^ 32
  let d := { d with trk := { d.trk with sseq := sseq } }
  let r : TrunkBody × Dev := match body with
    | .bytes payload => if trunkCovered type_ then
        let a := d.tlyAppend 1 type_ 0xFF sseq payload
        (.bytes a.1, a.2)
      else (body, d)
    | .timing _ _ => (body, d.tlyAppendTold 1)
  let f : TrunkFrame := { type_, origin := 0xFF, sseq, body := r.1 }
  if d.hasTwn && d.twnState == 3 then
    let seq := r.2.twn.txSeq
    let d := r.2.twnMirror [.down f]
    { d with trk := { d.trk with waiting := d.trk.waiting ++ [(seq, f)] } }
  else r.2.trkFlood f

/-- Down frames whose MIRROR frame has been acknowledged leave on the originator's own ports; all of them where the device is
no longer PAIRED. -/
def Dev.trkRelease (d : Dev) : Dev :=
  let free (e : Nat × TrunkFrame) : Bool := d.twnState != 3 || d.twnAcked e.1
  let go := d.trk.waiting.takeWhile free
  if go.isEmpty then d
  else go.foldl (fun (d : Dev) e => d.trkFlood e.2) { d with trk := { d.trk with waiting := d.trk.waiting.dropWhile free } }

/-- A device sends an up frame on every uplink (R330). -/
def Dev.trkUp (d : Dev) (type_ : Nat) (payload : List Byte) : Dev :=
  let r := if trunkCovered type_ then d.tlyAppend 1 type_ d.trkIndex 0 payload else (payload, d)
  let f : TrunkFrame := { type_, origin := d.trkIndex, sseq := 0, body := .bytes r.1 }
  r.2.uplinks.foldl (fun (d : Dev) p => d.trkSendOn p f) r.2

/-- LEAVE, on every authenticated lane (Table 14.3). -/
def Dev.trkLeave (d : Dev) (cause : Nat) : Dev :=
  let f : TrunkFrame := { type_ := 0x32, origin := d.trkIndex, sseq := 0, body := .bytes (leBytes 1 cause) }
  ((d.portsOf 4).filter fun p => (d.tlane p).state == 3).foldl (fun (d : Dev) p => d.trkSendOn p f) d

/-! ### Leaving, and the routes -/

/-- A trunk set that a device holds when it leaves JOINED stays queued, and does not apply (R183, Table 14.3, log 25). -/
def QSet.miss (q : QSet) : QSet :=
  match q.origin with
  | .trunk _ => { q with missed := true }
  | _ => q

/-- What a device that is no longer JOINED forgets: groups and images of which no COMMIT can come to it, and what was decided (log 25).
Its queued trunk sets stay, since Table 8.4 has no such transition. -/
def Dev.trkForget (d : Dev) : Dev :=
  { d with
    flp := { d.flp with queue := d.flp.queue.map QSet.miss, decided := [] }
    trk := { d.trk with groups := [], image := none, snapshot := none, decisionFor := none } }

/-- The device leaves JOINED for ADRIFT, or for IDLE, with LEAVE where the table has it. -/
def Dev.trkQuit (d : Dev) (x : Nat) (leave : Option Nat) : Dev :=
  if !d.trkJoined then d
  else
    let d := match leave with
      | some c => d.trkLeave c
      | none => d
    (d.trkTo x).trkForget

/-- The active uplink (R329): the lower-numbered one that carries frames and has not given way to the other; the one that is active
stays so where every lower one has. -/
def Dev.activeUplink (d : Dev) : Option Nat :=
  let live := d.uplinks.filter fun p => !(d.tlane p).silent
  match live.find? fun p => !(d.tlane p).demoted, d.trk.active with
  | some p, _ => some p
  | none, some a => if live.contains a then some a else live.head?
  | none, none => live.head?

/-- Choose uplinks and the active one, show directions, depth and delays, and go ADRIFT where no uplink is left (R329, Table
14.3). `UPLINK` latches where the other uplink takes over from one that is lost. -/
def Dev.trkRoute (d : Dev) : Dev :=
  let ups := d.uplinks
  let active := d.activeUplink
  let changed := match d.trk.active, active with
    | some a, some b => a != b && !(ups.contains a && !(d.tlane a).silent)
    | _, _ => false
  let d := (d.portsOf 4).foldl (fun (d : Dev) (p : Nat) =>
    d.setFld (Reg.TRK_PORT_STATUS p) Fld.TRK_PORT_STATUS_DIR (if ups.contains p then 1 else if d.isDownlink p then 2 else 0)) d
  let d := { d with trk := { d.trk with active := active } }
  let d := d.setFld Reg.TRK_STATUS Fld.TRK_STATUS_UPLINK_VALID (if active.isSome then 1 else 0)
  let d := d.setFld Reg.TRK_STATUS Fld.TRK_STATUS_UPLINK (active.getD 0)
  let d := d.setFld Reg.TRK_STATUS Fld.TRK_STATUS_DEPTH (match ups with
    | p :: _ => (d.tlane p).theirDepth + 1
    | [] => 0)
  let d := d.setReg Reg.TRK_DELAY0 ((ups[0]?.map fun p => (d.tlane p).delay).getD 0)
  let d := d.setReg Reg.TRK_DELAY1 ((ups[1]?.map fun p => (d.tlane p).delay).getD 0)
  let d := if changed then ((d.trkEvent Fld.TRK_EVENT_UPLINK).count Reg.TRK_UPLINK_CNT).raise 0x4681 else d
  if !d.steward && active.isNone then d.trkQuit 3 none else d

/-- A lane begins its authentication: AUTH goes out, with a fresh nonce (R309, R328). -/
def Dev.laneAuth (d : Dev) (p : Nat) : Dev :=
  let r := d.freshBytes 32
  let old := d.tlane p
  let x : TrkLane := { state := 2, nonce := r.1, depth := d.trkDepth, delay := old.delay }
  let d := (r.2.setTlane p x).setFld (Reg.TRK_PORT_STATUS p) Fld.TRK_PORT_STATUS_FAIL 0
  let flags := (if d.secondary then 1 else 0) + if d.originator then 2 else 0
  let body := x.nonce ++ leBytes 4 d.wb.stage ++ leBytes 1 d.trkIndex ++ leBytes 1 x.depth ++ leBytes 2 flags
  let f : TrunkFrame := { type_ := 0x01, origin := d.trkIndex, sseq := 0, body := .bytes body }
  (d.trkSendOn p f).trkRoute

/-- The device enters AUTH: every aligned lane begins its authentication (Table 14.3). -/
def Dev.trkEnterAuth (d : Dev) : Dev :=
  let d := { d.trkTo 1 with trk := { d.trk with seen := [] } }
  ((d.portsOf 4).filter fun p => 2 ≤ (d.tlane p).state).foldl (fun (d : Dev) p => d.laneAuth p) d

/-- A lane has left alignment, or never had it: its sessions and its frames are gone (R327). A lane that is DOWN drives nothing (R445). -/
def Dev.laneTo (d : Dev) (p state : Nat) : Dev :=
  let d := if state == 0 && (d.tlane p).state != 0 then d.emit (.lane p .idle) else d
  (d.setTlane p { state := state, delay := (d.tlane p).delay }).trkRoute

/-- A lane's transmitter begins to train (R302, R326). -/
def Dev.trkTrain (d : Dev) (p : Nat) : Dev :=
  { d with trk := { d.trk with codes := d.trk.codes.set (fun _ => {}) p {} } }.emit (.lane p (d.pairDrive p))

/-- A lodger whose group has had every displaced buffer freed says so (R340). -/
def Dev.trkReleased (d : Dev) : Dev :=
  let done (s : Nat) : Bool := !(d.flp.displaced.any fun x => x.trunk == some s)
  let go := d.flp.unreleased.filter done
  go.foldl (fun (d : Dev) s => d.trkUp 0x27 (leBytes 4 s))
    { d with flp := { d.flp with unreleased := d.flp.unreleased.filter fun s => !done s } }

end Sys2Proof.Machine
end

