-- ==== Sys2Proof/Machine/Flips.lean ====
section
/-! DEFINITION. The flip and fence unit: reading flip sets (R180, R181, R190), applying them at a latch point (R182, R184),
releasing displaced buffers (R186), and FENCE_WAIT (R178, R179). -/

namespace Sys2Proof.Machine

/-! ### Release of displaced buffers -/

/-- FLP writes a release fence and raises 0x4103 (R186, Table 8.12). -/
def Dev.releaseFence (d : Dev) (x : Displaced) : Dev := if x.relEn then (d.fenceWrite x.relIdx x.relVal).raise 0x4103 else d

/-- A buffer is displaced: one that no stroke used is free at once (R186). -/
def Dev.displace (d : Dev) (x : Displaced) : Dev :=
  match x.last with
  | none => d.releaseFence x
  | some _ => { d with flp := { d.flp with displaced := d.flp.displaced ++ [x] } }

/-- The last stroke dealt with the buffer that a layer holds. -/
def Dev.lastUsed (d : Dev) (layer : Nat) : Option Nat := (d.flp.used.find? (·.1 == layer)).map (·.2)

def Dev.forgetUse (d : Dev) (layer : Nat) : Dev := { d with flp := { d.flp with used := d.flp.used.filter (·.1 != layer) } }

/-- A displaced buffer is free: tick `u` + 1 has passed and the comparison of stroke `u` is over (R186). -/
def Dev.bufferFree (d : Dev) (x : Displaced) : Bool := match x.last with
  | none => true
  | some u => d.strokeFinished u

/-- The oldest displaced buffer that has become free is released (R186), and a trunk set with it (R340). -/
def Dev.bufferRelease (d : Dev) : Dev :=
  match d.flp.displaced.find? d.bufferFree with
  | none => d
  | some x => (({ d with flp := { d.flp with displaced := d.flp.displaced.erase x } }).releaseFence x).trkReleased

/-! ### Applying a set -/

/-- The live version after words are set (R110, R112, R113). -/
def liveAfter (c : Cfg) (ws : List (Nat × Nat)) : Cfg := ws.foldl setLiveWord c

/-- Whether a FLIP member is ready by its acquire fence (R182). -/
def Dev.flipReady (d : Dev) : Member → Bool
  | .flip _ _ acqEn _ _ acqIdx acqVal _ _ => !acqEn || d.satisfies acqIdx acqVal
  | _ => true

/-- The members of a set that are ready, as a mask. -/
def Dev.readyMask (d : Dev) (q : QSet) : Nat :=
  ((List.range q.members.length).zip q.members).foldl (fun a e => if d.flipReady e.2 then a + 2 ^ e.1 else a) 0

/-- Whether a member is a WAIT member that a mask does not hold ready. -/
def waitMissing (q : QSet) (mask : Nat) : Bool :=
  ((List.range q.members.length).zip q.members).any fun e => match e.2 with
    | .flip _ w _ _ _ _ _ _ _ => w && !bit mask e.1
    | _ => false

/-- The FLIP members that a ready mask leaves held, as a mask. -/
def heldMask (q : QSet) (mask : Nat) : Nat :=
  ((List.range q.members.length).zip q.members).foldl (fun a e => match e.2 with
    | .flip .. => if bit mask e.1 then a else a + 2 ^ e.1
    | _ => a) 0

/-- Some FLIP member's buffer breaks R117 for its layer as the set leaves it (R182). -/
def Dev.buffersBad (d : Dev) (q : QSet) : Bool :=
  let c := liveAfter d.regs q.words
  q.members.any fun m => match m with
    | .flip l _ _ _ buf _ _ _ _ => !bufferGood (layerAt c l) buf
    | _ => false

/-- A ready FLIP gives its layer a new buffer and displaces the old one (R182, R186). -/
def Dev.applyFlip (d : Dev) (layer : Nat) (relEn : Bool) (buf relIdx relVal : Nat) (trunk : Option Nat) : Dev :=
  let had := (layerAt d.regs layer).buffered
  let x : Displaced := {
    last := if had then d.lastUsed layer else none, relEn, relIdx, relVal, trunk, layer, buf := (layerAt d.regs layer).buf }
  let d := d.setPair (Reg.PRT_LD_BUF_LO_LIVE layer) (Reg.PRT_LD_BUF_HI_LIVE layer) buf
  let d := d.setFld (Reg.PRT_LD_CTRL_LIVE layer) Fld.PRT_LD_CTRL_LIVE_BUFFERED 1
  (d.forgetUse layer).displace x

/-- A STACK member applies its snapshot; a layer that is invalid after it loses its buffer (R110, R113, R186, log 57). -/
def Dev.applyStack (d : Dev) (layers : List Nat) (words : List (Nat × Nat)) (trunk : Option Nat) : Dev :=
  let lost := layers.filter fun l => (layerAt d.regs l).buffered && !(layerAt (liveAfter d.regs words) l).valid
  let xs := lost.map fun l => ({ last := d.lastUsed l, relEn := false, relIdx := 0, relVal := 0, trunk, layer := l, buf := (layerAt d.regs l).buf } : Displaced)
  let d := { d with regs := liveAfter d.regs words }
  let d := lost.foldl Dev.forgetUse d
  xs.foldl Dev.displace d

/-- What the members of a set have done so far: the device, and whether a REWIND has found its mark lost. -/
structure Applying where
  dev : Dev
  markLost : Bool := false
  deriving DecidableEq, Repr

/-- Apply member `i` of a set, `held` being the mask of held members (R182). -/
def Applying.member (a : Applying) (held : Nat) (trunk : Option Nat) (i : Nat) : Member → Applying
  | .flip layer _ _ relEn buf _ _ relIdx relVal =>
    if bit held i then
      { a with dev := (a.dev.count Reg.FLP_HELD_CNT).displace { last := none, relEn, relIdx, relVal, trunk } }
    else { a with dev := a.dev.applyFlip layer relEn buf relIdx relVal trunk }
  | .stack _ layers _ _ words => { a with dev := a.dev.applyStack layers words trunk }
  | .plate ring action frame explicit =>
    let r := a.dev.plateAction ring action frame explicit
    { dev := r.2, markLost := a.markLost || r.1 }

/-- The layers that a set flips, held members apart. -/
def QSet.flips (q : QSet) (held : Nat) : List Nat :=
  flippedLayers (((List.range q.members.length).zip q.members).filter (fun e => !bit held e.1) |>.map (·.2))

/-- Apply a set at latch point `m` (R182): its members in order, its settled changes, its apply fence, its completion. -/
def Dev.applySet (d : Dev) (q : QSet) (m held : Nat) : Dev :=
  let trunk := match q.origin with
    | .trunk s => some s
    | _ => none
  let before := d.regs
  let a := ((List.range q.members.length).zip q.members).foldl (fun (a : Applying) e => a.member held trunk e.1 e.2) { dev := d }
  let d := a.dev
  let d := (settledChanges before d.regs q.members (q.flips held)).foldl (fun d k => d.settledApply q.reserved k) d.settledLeave
  let d := if q.words.isEmpty then d else d.controlWritten (q.words.map (·.1))
  let d := if q.afEn then d.fenceWrite q.afIdx q.afVal else d
  let timedOut := waitMissing q (2 ^ 64 - 1 - held)
  let status := if a.markLost then stMarkLost else if timedOut then stFenceTimeout else stDone
  let d := if status == stFenceTimeout then
      ((d.count Reg.FLP_TIMEOUT_CNT).flpEvent Fld.FLP_EVENT_TIMEOUT).raise 0x4101
    else d
  let d := d.count Reg.FLP_APPLY_CNT
  let d := { d with flp := { d.flp with
    last := m, stirred := some m, applications := d.flp.applications + 1
    unreleased := match trunk with | some s => d.flp.unreleased ++ [s] | none => d.flp.unreleased } }
  (d.dequeue q true).completeSet q status m held

/-- A set completes MALFORMED at its latch point and applies nothing (R182, R338). -/
def Dev.dropSet (d : Dev) (q : QSet) (m : Nat) : Dev :=
  ((d.count Reg.FLP_MALFORMED_CNT).dequeue q false).completeSet q stMalformed m 0

/-- A set defers (R182, R184): while timing is STOPPED it counts as deferred once. -/
def Dev.deferSet (d : Dev) (q : QSet) (stopped : Bool) : Dev :=
  if stopped && q.deferred then d
  else
    let d := ((d.count Reg.FLP_DEFER_CNT).flpEvent Fld.FLP_EVENT_DEFER).raise 0x4102
    let mark (x : QSet) : QSet := if x.id == q.id then { x with deferred := stopped } else x
    { d with flp := { d.flp with queue := d.flp.queue.map mark } }

/-- The ring order of a set: sets of one ring, and trunk sets, apply in order (R182). -/
def SetOrigin.lane : SetOrigin → Nat
  | .own r _ => r
  | .mirrored r _ => r
  | .trunk _ => 2 ^ 20

/-- Whether a set counts as read, and may apply at latch point `m`: its target has come, and no earlier set of its ring is
queued (R182, R313). -/
def Dev.eligible (d : Dev) (q : QSet) (m : Nat) : Bool :=
  !q.missed && strokeGe m q.target &&
  (match q.ack with | some s => d.twnAcked s | none => true) &&
  !((d.flp.queue.takeWhile (·.id != q.id)).any fun e => !e.missed && e.origin.lane == q.origin.lane)

/-- The sets that are eligible at latch point `m` when it begins, in read order; of the trunk, or not. -/
def Dev.eligibleSets (d : Dev) (m : Nat) (trunk : Bool) : List QSet :=
  d.flp.queue.filter fun q => (match q.origin with | .trunk _ => trunk | _ => !trunk) && d.eligible q m

/-- Evaluate one set at latch point `m` by this device's own readiness (R182). -/
def Dev.evalLocal (d : Dev) (q : QSet) (m mask : Nat) (stopped : Bool) : Dev :=
  let early := if stopped then 0 < q.deadline else !strokeGe m (strokeAdd q.target q.deadline)
  if waitMissing q mask && early then d.deferSet q stopped
  else if d.buffersBad q then d.dropSet q m
  else d.applySet q m (heldMask q mask)

/-- Evaluate one set at latch point `m` by a decision (R315, R338): apply with held members, defer, or drop. The buffers of a trunk set
have been judged before, by `BAD`; those of a set of the twin are judged here, as R182 says. -/
def Dev.evalDecided (d : Dev) (q : QSet) (m verdict held : Nat) : Dev :=
  match verdict with
  | 0 =>
    let trunk : Bool := match q.origin with | .trunk _ => true | _ => false
    if !trunk && d.buffersBad q then d.dropSet q m else d.applySet q m held
  | 1 => d.deferSet q false
  | _ => d.dropSet q m

/-- The decision of the twin for a set at latch point `m`: that of its place among the sets of the snapshot (R315). -/
def Dev.twnDecisionFor (d : Dev) (m id : Nat) : Option (Bool × Nat) :=
  match d.twn.decision, d.twn.snapshot with
  | some x, some s =>
    if x.1 == m && s.1 == m then (s.2.findIdx? (·.1 == id)).bind fun i => x.2[i]? else none
  | _, _ => none

/-- The decision of the trunk for a set at latch point `m` (R338). -/
def Dev.trunkDecisionFor (d : Dev) (s m : Nat) : Option (Nat × Nat) :=
  (d.flp.decided.find? fun e => e.1 == s && e.2.1 == m).map (·.2.2)

/-- Take the eligible sets of latch point `m` in read order (R182). A member is ready by the fences as they stood before the capture
edge: what an earlier set writes to a fence there counts as after it (R175). The sets after the first of a ring become eligible as
those before them apply; in a pair each is taken by the DECISION, and a set that it does not reach waits (R315, R316). -/
def Dev.takeSets (d : Dev) (m : Nat) : Dev :=
  let applied0 := d.flp.applications
  let ready (q : QSet) : Nat := d.readyMask q
  let step (d : Dev) (q : QSet) : Dev :=
    if !(d.flp.queue.any (·.id == q.id)) || !d.eligible q m then d
    else match q.origin with
      | .trunk s =>
        match d.trunkDecisionFor s m with
        | some v => d.evalDecided q m v.1 v.2
        | none => d
      | _ =>
        if d.paired then
          match d.twnDecisionFor m q.id with
          | some v => d.evalDecided q m (if v.1 then 0 else 1) v.2
          | none => d
        else d.evalLocal q m (ready q) false
  let d := d.flp.queue.foldl step d
  d.raiseIf (d.flp.applications != applied0) 0x4100

/-- One evaluation of every set while timing is STOPPED, with `m` taken as the target (R184); a trunk set waits for a decision
(R338). There is no latch point, so source 0x4100 does not rise (Table 8.12), and nothing applies at one (R440). -/
def Dev.evalStoppedOnce (d : Dev) : Dev :=
  let n0 := d.flp.applications
  let stirred := d.flp.stirred
  let ready (q : QSet) : Nat := d.readyMask q
  let d := d.flp.queue.foldl (fun d q =>
    let first := !((d.flp.queue.takeWhile (·.id != q.id)).any fun e => e.origin.lane == q.origin.lane)
    let own : Bool := match q.origin with | .trunk _ => false | _ => true
    if own && d.flp.queue.any (·.id == q.id) && first && (match q.ack with | some s => d.twnAcked s | none => true) then
      d.evalLocal q q.target (ready q) true else d) d
  let d := { d with flp := { d.flp with stirred } }
  if n0 < d.flp.applications then (d.plateMarks.plateBuffers).updateAdm else d

/-- FLP evaluates its sets again until none applies (R184): one that applies may advance a fence that another awaits. -/
def Dev.evalStopped (d : Dev) : Nat → Dev
  | 0 => d
  | n + 1 =>
    let e := d.evalStoppedOnce
    if e.flp.queue.length < d.flp.queue.length then e.evalStopped n else e

/-- While timing is STOPPED, FLP evaluates on each edge on which it reads a set or a fence advances (R184). -/
def Dev.flpEdge (d : Dev) : Dev :=
  if d.stk.timing == 0 && d.loaded && !d.boot.flush then d.evalStopped (d.flp.queue.length + 1) else d

/-- A fence advances: its waiters are looked at (R174, R184). -/
def Dev.fenceAdvance (d : Dev) (f v : Nat) : Dev := (d.fenceWrite f v).flpEdge

/-! ### Reading a set -/

/-- The first latch point whose capture edge is still to come (R86, R180). -/
def Dev.firstLatch (d : Dev) : Nat := strokeAdd d.stk.stroke (if d.stk.latched then 2 else 1)

/-- Whether latch point `n` has passed; none has while timing is STOPPED (R89, R184). -/
def Dev.latchPassed (d : Dev) (n : Nat) : Bool := d.stk.timing != 0 && !strokeGe n d.firstLatch

/-- A number lies 16,384 or more strokes after the current stroke. -/
def Dev.tooFar (d : Dev) (n : Nat) : Bool :=
  let x := strokeSub n d.stk.stroke
  16384 ≤ x && x < 2 ^ 47

/-- The timing of the coming strokes, and Λ (R189). -/
def Dev.comingTiming (d : Dev) : Timing := if d.stk.reframe.isSome then d.shadowTiming else d.live
/-- The phases whose strokes may be dealt from now on: up to `B₀` of a pending REFRAME those of the live timing too (R120, R154). -/
def Dev.comingPhases (d : Dev) : Nat := max d.comingTiming.phases (if d.stk.running then d.live.phases else 0)
def Timing.lambda (t : Timing) : Nat := if t.racing then 1 else t.compLead

/-- The rules of R113, R117 and R192 for the buffers of a layer that a stack change names: a valid one is fed, the buffer that it keeps
fits it, and the ring of one with `PLATE` set is enabled and all its frames fit. -/
def Dev.layerFed (d : Dev) (c : Cfg) (flipped : List Nat) (i : Nat) : Bool :=
  let l := layerAt c i
  let now := layerAt d.regs i
  (!l.valid || now.buffered || flipped.contains i) &&
  (!(l.valid && !l.plate && now.buffered) || flipped.contains i || bufferGood l now.buf) &&
  (!l.plate || (d.plateEn l.ring && (List.range (d.plateFrames l.ring)).all fun f => bufferGood l (d.plateAddr l.ring f)))

/-- Row 1 of Table 8.3 for the members of a set: whether they break a rule. `after` is the projected configuration with the
set; a phase map that broke R120 before, and that the set does not name, is left to a later change (log 17). -/
def Dev.membersBad (d : Dev) (ms : List Member) (before after : Cfg) : Bool :=
  let flips := flippedLayers ms
  let n := d.comingPhases
  let stackBad := ms.any fun m => match m with
    | .stack _ layers _ _ _ => !(layers.all (d.layerFed after flips))
    | _ => false
  let hasStack := ms.any fun m => match m with | .stack .. => true | _ => false
  let pmap := ms.any fun m => match m with | .stack _ _ p _ _ => p | _ => false
  let named := ms.flatMap fun m => match m with | .stack ks _ _ _ _ => ks | _ => []
  let plateFlip := flips.any fun l => (layerAt after l).plate
  let scene := d.sceneGood after (if pmap || (d.badPhase before n).isNone then n else 0) n named
  let height := !pmap || windowsGood d.regs (parcelHeight after)
  plateFlip || stackBad || (!ms.isEmpty && !d.hasPrt && !d.hasStl) || (hasStack && !(scene && height))

/-- The fused windows of a set's settled changes (R190). -/
def Dev.setWindows (d : Dev) (changes : List Nat) (id n deadline : Nat) : List FusedWindow :=
  let t := d.comingTiming
  changes.map fun k => ⟨k, n, strokeAdd n (deadline + t.phases + t.lambda - 2), id⟩

/-- A window overlaps an accepted window of the same stack, or begins at the latch point right after one (R190). -/
def Dev.windowClash (d : Dev) (ws : List FusedWindow) : Bool :=
  ws.any fun w => (d.flp.windows ++ ws).any fun v => v.stack == w.stack && v.set != w.set &&
    strokeGe (strokeAdd v.last 1) w.first && strokeGe w.last v.first

/-! ### What sets find as they apply (R188 to R190) -/

/-- An accepted set, or the one under test: its number, the latch points at which it can apply, relative, its deadline's target, and its
members. -/
structure Coming where
  id : Nat
  latch : Int
  last : Int
  target : Nat
  deadline : Nat
  members : List Member
  known : List Nat := []
  reserved : List Nat := []
  deriving DecidableEq, Repr

def Coming.words (x : Coming) : List (Nat × Nat) := x.members.flatMap memberWords

/-- The latch points, relative, at which a set of a target and deadline can apply. -/
def Dev.applySpan (d : Dev) (target deadline : Nat) : Int × Int :=
  let a := max d.relLatch (d.rel target)
  (a, max a (d.rel target + deadline))

/-- The accepted sets and one under test, in the order of their targets. -/
def Dev.comingSets (d : Dev) (x : Coming) : List Coming :=
  let of (q : QSet) : Coming :=
    let s := d.applySpan q.target q.deadline
    ⟨q.id, s.1, s.2, q.target, q.deadline, q.members, q.changes, q.reserved.map (·.stack)⟩
  (d.flp.accepted.map of ++ [x]).mergeSort fun a b => a.latch ≤ b.latch

/-- The versions that a set may find as it applies: with the sets that apply before it in any case, and with those that may, one after the
other (DESIGN CHOICE, log 40: in the order of their targets). -/
def versionsFor (now : Cfg) (all : List Coming) (x : Coming) : List Cfg :=
  let before := all.takeWhile (· != x)
  let later := (all.dropWhile (· != x)).drop 1
  let sure := before.filter fun y => y.last ≤ x.latch
  let maybe := (before.filter fun y => x.latch < y.last) ++ later.filter fun y => y.latch < x.last
  let first := sure.foldl (fun c y => cfgOverlay c y.words) now
  (maybe.foldl (fun (a : Cfg × List Cfg) y => let c := cfgOverlay a.1 y.words; (c, a.2 ++ [c])) (first, [first])).2

/-- The stacks that a set's STACK members name. -/
def Coming.named (x : Coming) : List Nat := x.members.flatMap fun m => match m with | .stack ks _ _ _ _ => ks | _ => []

/-- The stacks for which a set is a settled change in a version that it may find (R188). -/
def Coming.changesIn (x : Coming) (versions : List Cfg) : List Nat :=
  let each := versions.map fun v => settledChanges v (cfgOverlay v x.words) x.members (flippedLayers x.members)
  (List.range 64).filter fun k => each.any (·.contains k)

/-- What a set needs beside its own words, and what sets accepted before it come to need with it: settled changes with their windows, and
space for copies (R189, R190). -/
structure SetPlan where
  changes : List Nat
  windows : List FusedWindow
  /-- Settled changes that accepted sets gain, by their numbers. -/
  gains : List (Nat × List Nat)
  /-- The space of the set and of accepted sets, by their numbers; none where a copy cannot be placed. -/
  space : Option (List (Nat × SettledCopies))
  deriving DecidableEq, Repr

/-- The plan of a set under test. -/
def Dev.setPlan (d : Dev) (ms : List Member) (target deadline : Nat) : SetPlan :=
  let s := d.applySpan target deadline
  let me : Coming := ⟨d.flp.nextId, s.1, s.2, target, deadline, ms, [], []⟩
  let all := d.comingSets me
  let without := all.filter (· != me)
  let gained (x : Coming) : List Nat :=
    let old := if x == me then [] else x.known ++ x.changesIn (versionsFor d.regs without x)
    (x.changesIn (versionsFor d.regs all x)).filter fun k => !old.contains k
  let asks (x : Coming) : List (Nat × Nat × Nat) := x.named.eraseDups.filterMap fun k =>
    let n := (stackAt (cfgOverlay d.regs x.words) k).copyUnits
    let old := x != me && (x.reserved.contains k || d.lacksCopies (versionsFor d.regs without x) k n)
    if d.lacksCopies (versionsFor d.regs all x) k n && !old then some (x.id, k, n) else none
  { changes := gained me
    windows := all.flatMap fun x => d.setWindows (gained x) x.id x.target x.deadline
    gains := (without.map fun x => (x.id, gained x)).filter (!·.2.isEmpty)
    space := d.placeCopies (all.flatMap asks) }

/-- The space that a plan gives the set itself, and that which it gives others. -/
def SetPlan.own (p : SetPlan) (id : Nat) : List SettledCopies := ((p.space.getD []).filter (·.1 == id)).map (·.2)
def SetPlan.more (p : SetPlan) (id : Nat) : List (Nat × SettledCopies) := (p.space.getD []).filter (·.1 != id)

/-- The verdict on a set that has been read (Table 8.3): a completion status, or the set to queue. -/
structure Verdict where
  status : Nat
  target : Nat
  set : Option QSet
  fail : Option AdmFail := none
  windows : List FusedWindow := []
  /-- Space, and settled changes, that other accepted sets come to have besides (R189, R190). -/
  more : List (Nat × SettledCopies) := []
  gains : List (Nat × List Nat) := []
  deriving DecidableEq, Repr

/-- Decide a set's fate (Table 8.3). `next` gives a set with `NEXT` its target. -/
def Dev.judgeSet (d : Dev) (origin : SetOrigin) (trunk : Bool) (head : List Nat) (entries : List (List Nat)) (target : Nat)
    (deadline : Nat) : Verdict :=
  let h := setHead head
  match headGood trunk head, d.readMembers entries with
  | true, some ms =>
    let words := ms.flatMap memberWords
    let before := d.projectedWith []
    let after := d.projectedWith words
    let shadowBad := d.shadowHits words
    if shadowBad || d.membersBad ms before after || d.tooFar target then ⟨stMalformed, target, none, none, [], [], []⟩
    else if d.sdp.power == 2 then ⟨stState, target, none, none, [], [], []⟩
    else if !trunk && d.latchPassed target then ⟨stLate, target, none, none, [], [], []⟩
    else
      let p := d.setPlan ms target deadline
      let needs := !words.isEmpty || !p.changes.isEmpty
      let fail := if needs then d.admitChange (d.rel target) words (d.flp.windows ++ p.windows) else none
      if needs && (fail.isSome || d.windowClash p.windows || p.space.isNone) then ⟨stBudget, target, none, fail, [], [], []⟩
      else
        let q : QSet := {
          id := d.flp.nextId, origin, target, deadline, afEn := h.afEn, afIdx := h.afIdx, afVal := h.afVal
          tag := h.tag, members := ms, changes := p.changes, reserved := p.own d.flp.nextId }
        ⟨stDone, target, some q, none, p.windows, p.more d.flp.nextId, p.gains⟩
  | _, _ => ⟨stMalformed, target, none, none, [], [], []⟩

/-- Count a set that completes on reading (Table 8.7). -/
def Dev.countVerdict (d : Dev) (v : Verdict) : Dev :=
  if v.status == stMalformed then d.count Reg.FLP_MALFORMED_CNT
  else if v.status == stLate then d.count Reg.FLP_LATE_CNT
  else if v.status == stBudget then
    let d := d.count Reg.FLP_BUDGET_CNT
    match v.fail with
    | some f => d.admRefused f
    | none => d.count Reg.PRT_ADM_REFUSE_CNT
  else d

/-- Accept a set (R180): it has its number, and one with a settled change its windows and its reservation, from here on; `more` and `gains`
are the space and the settled changes that sets accepted before it come to have (R189, R190). -/
def Dev.acceptSet (d : Dev) (ws : List FusedWindow) (more : List (Nat × SettledCopies)) (gains : List (Nat × List Nat)) : Dev :=
  let d := d.giveSpace more gains
  { d with flp := { d.flp with nextId := d.flp.nextId + 1, windows := d.flp.windows ++ ws } }

/-- Put an accepted set into the queue. -/
def Dev.putSet (d : Dev) (q : QSet) : Dev := { d with flp := { d.flp with queue := d.flp.queue ++ [q] } }

/-- Queue a set at once. -/
def Dev.enqueue (d : Dev) (q : QSet) (ws : List FusedWindow) (more : List (Nat × SettledCopies)) (gains : List (Nat × List Nat)) : Dev :=
  (d.acceptSet ws more gains).putSet q

/-- Whether FLP reads a SUBMIT ring: it has an entry, no FENCE_WAIT holds it, FLP is not full, and the device is not the
acting secondary of a pair (R178, R181, R313). -/
def Dev.submitReadable (d : Dev) (r : Nat) : Bool :=
  d.loaded && d.ringClass r == classSubmit && d.ringReadable r && !(d.flp.waits.any fun w => w.ring == r && !w.mirrored) &&
    !(d.flp.reading.any (·.ring == r)) &&
    !d.secondaryPaired

/-- The entries of a ring from an offset beyond `CONS` on. -/
def Dev.entriesFrom (d : Dev) (r skip n : Nat) : List (List Nat) :=
  (List.range n).map fun k => d.ringEntry r (d.ringCons r + skip + k)

/-- How many entries a ring holds unread. -/
def Dev.unreadIn (d : Dev) (r : Nat) : Nat := cursorSub (d.ringProd r) (d.ringCons r)

/-- The number of entries of a TSET and its groups, counted by `GROUPS` and each group's `COUNT` (R178). -/
def Dev.groupEntries (d : Dev) (r : Nat) : Nat → Nat → Nat
  | _, 0 => 0
  | at_, n + 1 =>
    let k := 1 + bits (wordOf (d.ringEntry r (d.ringCons r + at_)) 0) 13 8
    k + d.groupEntries r (at_ + k) n

/-- The number of entries of the set at the front of a ring: a flip set, a TSET with its groups, or one entry (R178, R334). -/
def Dev.frontEntries (d : Dev) (r : Nat) : Nat :=
  let e := d.ringEntry r (d.ringCons r)
  match opOf e with
  | 1 => 1 + (setHead e).count
  | 8 => 1 + d.groupEntries r 1 (bits (wordOf e 0) 14 8)
  | _ => 1

/-- The completion of a command that its reading completes; a flip set that names no latch point has a free one (log 9). -/
def Dev.rejectSet (d : Dev) (r n : Nat) (op tag status : Nat) : Dev :=
  let m := if op == 1 then d.freshNat else (d.stk.stroke, d)
  m.2.ringReject r n { op, status, tag, stroke := m.1 % two48 }

/-- The failing test as it is kept. -/
def AdmFail.tuple (f : AdmFail) : Nat × Nat × Nat × Nat := (f.test, f.region, f.phase, f.port)

/-- A set counts as read (R180, R313): it leaves its ring, and is queued or completes. A ring that can no longer be read keeps it. -/
def Dev.commitRead (d : Dev) (x : SetRead) : Dev :=
  if !d.ringReadable x.ring then d.unread [x]
  else
    let d := { d with flp := { d.flp with reading := d.flp.reading.filter (· != x) } }
    match x.set with
    | some q => (d.ringTake x.ring x.entries).putSet q
    | none =>
      let fail : Option AdmFail := x.fail.map fun f => ⟨f.1, f.2.1, f.2.2.1, f.2.2.2⟩
      let m := (d.countVerdict ⟨x.status, 0, none, fail, [], [], []⟩).freshNat
      let c : Completion := { op := 1, status := x.status, tag := x.tag, stroke := m.1 % two48 }
      let d := m.2.ringReject x.ring x.entries c
      if x.seq.isSome then d.mirrorCopy c else d

/-- The sets whose mirrored frames have been acknowledged count as read, in the order in which they were judged (R313). -/
def Dev.readsAcked (d : Dev) : Dev :=
  let done := d.flp.reading.filter fun x => match x.seq with
    | some s => d.twnAcked s
    | none => true
  (done.foldl Dev.commitRead d).flpEdge

/-- The blocks of the set at the front of a SUBMIT ring are tested as FLP reads it, once the ring holds it whole (R279); a FENCE_WAIT is read
by itself. -/
def Dev.fetchSet (d : Dev) (r : Nat) : Dev :=
  let n := d.frontEntries r
  if d.unreadIn r < n || opOf (d.ringEntry r (d.ringCons r)) == 5 then d else d.ringFetch r 0 n

/-- FLP takes the flip set, or the entry that belongs to none, at the front of a SUBMIT ring (R178, R180, R181, R185, R313), once the ring
holds it whole. -/
def Dev.takeFront (d : Dev) (r : Nat) : Dev :=
  let e := d.ringEntry r (d.ringCons r)
  match opOf e with
  | 1 =>
    let h := setHead e
    if d.unreadIn r < h.count + 1 then d
    else if !d.queueRoom h.count then
      let d := if d.flp.full.isNone then d.flpEvent Fld.FLP_EVENT_FULL else d
      { d with flp := { d.flp with full := some r } }
    else
      let d := { d with flp := { d.flp with full := none } }
      let d := d.lullExit
      let es := d.entriesFrom r 1 h.count
      let i := d.ringCons r
      let target := if h.next then d.firstLatch else h.target
      let v := d.judgeSet (.own r i) false e es target h.deadline
      let pair := d.primaryPaired
      let seq := d.twn.txSeq
      let item := MirrorItem.set r i (e :: es) v.status target
      let ack := if pair then some seq else none
      let d := if pair then d.twnMirror [item] else d
      let d := if v.set.isSome then d.acceptSet v.windows v.more v.gains else d
      let x : SetRead := {
        ring := r, entries := h.count + 1, tag := h.tag, seq := ack, status := v.status
        set := v.set.map fun q => { q with ack := ack }, fail := v.fail.map (·.tuple) }
      if pair then { d with flp := { d.flp with reading := d.flp.reading ++ [x] } } else (d.commitRead x).flpEdge
  | 5 => d
  | 8 =>
    let n := 1 + d.groupEntries r 1 (bits (wordOf e 0) 14 8)
    if d.unreadIn r < n then d else (d.lullExit).rejectSet r n 8 (wordOf e 7) stMalformed
  | op => d.rejectSet r 1 op 0 stMalformed

/-- FLP reads the front of a SUBMIT ring. -/
def Dev.readSet (d : Dev) (r : Nat) : Dev := (d.fetchSet r).takeFront r

/-- The FLIPSET event: FLP reads a set, unless it is full. -/
def Dev.flipset (d : Dev) (r : Nat) (ecc : ShadowEcc) : Dev :=
  if !d.submitReadable r || d.flp.full.isSome then d else (d.shadowChecked ecc).readSet r

/-- Enough sets have left the queue to take the set that waits (R181); where its ring can no longer be read, no set waits there, and
FLP goes on with the other rings. -/
def Dev.submitResume (d : Dev) (ecc : ShadowEcc) : Dev :=
  match d.flp.full with
  | none => d
  | some r =>
    if !d.submitReadable r then { d with flp := { d.flp with full := none } }
    else if d.queueRoom (setHead (d.ringEntry r (d.ringCons r))).count then (d.shadowChecked ecc).readSet r else d

/-! ### FENCE_WAIT -/

/-- The form of a FENCE_WAIT (R178), and its completion record. -/
def waitGood (e : List Nat) : Bool := reservedClear [0xFF, 0x3FF, all32, 0xFFFF] e
def Dev.waitCompletion (d : Dev) (status : Nat) : Completion := { op := 5, status, tag := 0, stroke := d.stk.stroke }

/-- FLP reads a FENCE_WAIT (R178), which the acting primary of a pair mirrors (R313): a malformed one completes at once. -/
def Dev.fenceWait (d : Dev) (r : Nat) : Dev :=
  if !d.submitReadable r || d.flp.full.isSome then d
  else
    let op (d : Dev) : Nat := opOf (d.ringEntry r (d.ringCons r))
    let d := if op d == 5 then d.ringFetch r 0 1 else d
    let e := d.ringEntry r (d.ringCons r)
    if op d != 5 then d
    else
      let i := d.ringCons r
      let pair := d.primaryPaired
      let item := MirrorItem.wait r i e
      let d := if pair then d.twnMirror [item] else d
      if !waitGood e then
        let d := d.rejectSet r 1 5 0 stMalformed
        if pair then d.mirrorCopy (d.waitCompletion stMalformed) else d
      else
        let w : FenceWaitSt := { ring := r, index := i, idx := wordOf e 1, val := wordOf e 2, limit := wordOf e 3 }
        let d := d.ringTake r 1
        { d with flp := { d.flp with waits := d.flp.waits ++ [w] } }

/-- A FENCE_WAIT completes (R179). -/
def Dev.endWait (d : Dev) (w : FenceWaitSt) (status : Nat) : Dev :=
  let c := d.waitCompletion status
  let d := { d with flp := { d.flp with waits := d.flp.waits.erase w } }
  if w.mirrored then d.mirrorCopy c
  else
    let d := d.ringComplete w.ring w.index c
    if d.paired then d.mirrorCopy c else d

/-- The waited fence has satisfied its value before the limit passed (R179). -/
def Dev.fenceWaitDone (d : Dev) (r : Nat) : Dev :=
  match d.flp.waits.find? fun w => w.ring == r && !w.expired && (w.met || d.satisfies w.idx w.val) with
  | some w => d.endWait w stDone
  | none => d

/-- `LIMIT` ticks have passed first (R179). -/
def Dev.fenceWaitTimeout (d : Dev) (r : Nat) : Dev :=
  match d.flp.waits.find? fun w => w.ring == r && w.expired with
  | some w => d.endWait w stFenceTimeout
  | none => d

/-- A tick passes for every FENCE_WAIT whose fence does not satisfy its value yet. -/
def Dev.waitTick (d : Dev) : Dev :=
  let tick (w : FenceWaitSt) : FenceWaitSt :=
    if !w.expired && (w.met || d.satisfies w.idx w.val) then { w with met := true } else { w with ticks := w.ticks + 1 }
  { d with flp := { d.flp with waits := d.flp.waits.map tick } }

/-- Every FENCE_WAIT completes with a status. -/
def Dev.flushWaits (d : Dev) (status : Nat) : Dev := d.flp.waits.foldl (fun d w => d.endWait w status) d

/-! ### FLP at a latch point -/

/-- Fused windows and changes whose latch points have passed are forgotten (R163, R190), and a group that is still prepared
at the capture edge of its target is discarded (R337). -/
def Dev.flpTidy (d : Dev) (m : Nat) : Dev :=
  let gone := (d.flp.prepared.filter fun q => strokeGe m q.target).map (·.id)
  { d with flp := { d.flp with
    windows := d.flp.windows.filter fun w => !strokeGe m (strokeAdd w.last 2) && !gone.contains w.set
    recent := d.flp.recent.filter fun e => !strokeGe m (strokeAdd e.1 17)
    decided := d.flp.decided.filter fun e => !strokeGe m (strokeAdd e.2.1 1)
    prepared := d.flp.prepared.filter fun q => !strokeGe m q.target } }

/-- The host writes a fence register (R174). -/
def Dev.hostFence (d : Dev) (f v : Nat) : Dev :=
  if d.advances f v then d.fenceAdvance f v else d.refuse Reg.FLP_BLKID 1

/-! ### The commands -/

/-- A host write of a fence: on the acting secondary of a pair it is dropped, and the acting primary mirrors it (R312). -/
def Dev.mirrored (d : Dev) (off v : Nat) (f : Dev → Dev) : Dev :=
  if d.secondaryPaired then d.count Reg.TWN_LOCAL_DROP_CNT
  else
    let item := MirrorItem.write off (BitVec.ofNat 32 v)
    let d := f d
    if d.primaryPaired then d.twnMirror [item] else d

def execFenceWrite (fence : Fin 1024) (value : Word) (s : State) : Host.Outcome State Fault Refusal :=
  s.apply fun d => d.onWrite (Reg.FLP_FENCE fence) fun d =>
    d.mirrored (Reg.FLP_FENCE fence) value.toNat fun d => d.hostFence fence value.toNat

def execFlipset (ring : Fin 16384) (ecc : ShadowEcc) (s : State) : Host.Outcome State Fault Refusal :=
  s.apply fun d => d.flipset ring ecc

def execFenceWait (ring : Fin 16384) (s : State) : Host.Outcome State Fault Refusal := s.apply fun d => d.fenceWait ring

def execFenceWaitDone (ring : Fin 16384) (s : State) : Host.Outcome State Fault Refusal :=
  s.apply fun d => d.fenceWaitDone ring

def execFenceWaitTimeout (ring : Fin 16384) (s : State) : Host.Outcome State Fault Refusal :=
  s.apply fun d => d.fenceWaitTimeout ring

/-- `ecc` is the check of the shadow words that the set takes (R295). -/
def execSubmitResume (s : State) (ecc : ShadowEcc := .good) : Host.Outcome State Fault Refusal := s.apply fun d => d.submitResume ecc

def execBufferRelease (s : State) : Host.Outcome State Fault Refusal := s.apply fun d => d.bufferRelease.flpEdge

/-- `STL_PRr_COMMIT`, a mirrored register (Table 13.4). -/
def execPlateCommit (ring : Fin 64) (s : State) : Host.Outcome State Fault Refusal :=
  s.apply fun d => d.onWrite (Reg.STL_PR_COMMIT ring) fun d =>
    d.mirrored (Reg.STL_PR_COMMIT ring) 1 fun d => d.plateCommit ring

end Sys2Proof.Machine
end

