-- ==== Sys2Proof/Machine/Blit.lean ====
section
/-! DEFINITION. The blitter (R347 to R360): reading descriptors, the order of work, the bounce buffer, watermarks, blend-over
and completion. -/

namespace Sys2Proof.Machine

/-! ### The descriptor -/

/-- A blit descriptor (Table 15.1). Sizes are as used, not minus 1; `e` is the element size in bytes, 0 for a code above 4. -/
structure BlitD where
  op : Nat
  e : Nat
  rot : Nat
  mirror : Bool
  srcHost : Bool
  dstHost : Bool
  fmt : Nat
  straight : Bool
  waitEn : Bool
  sigEn : Bool
  wmEn : Bool
  wmSrc : Bool
  src : Nat
  dst : Nat
  srcPitch : Nat
  dstPitch : Nat
  w : Nat
  h : Nat
  waitIdx : Nat
  waitLimit : Nat
  waitVal : Nat
  sigIdx : Nat
  wmLine : Nat
  sigVal : Nat
  wmVal : Nat
  opacity : Nat
  tag : Nat
  deriving DecidableEq, Repr

/-- The fields of a descriptor's words. -/
def blitD (ws : List Nat) : BlitD :=
  let x := wordOf ws
  { op := bits (x 0) 7 0, e := [1, 2, 4, 6, 8].getD (bits (x 0) 10 8) 0, rot := bits (x 0) 13 12, mirror := bit (x 0) 14
    srcHost := bit (x 0) 16, dstHost := bit (x 0) 17, fmt := bits (x 0) 19 18, straight := bit (x 0) 20
    waitEn := bit (x 0) 24, sigEn := bit (x 0) 25, wmEn := bit (x 0) 26, wmSrc := bit (x 0) 27
    src := x 1 + 2 ^ 32 * x 2, dst := x 3 + 2 ^ 32 * x 4, srcPitch := bits (x 5) 23 0, dstPitch := bits (x 6) 23 0
    w := bits (x 7) 15 0 + 1, h := bits (x 7) 31 16 + 1, waitIdx := bits (x 8) 9 0, waitLimit := bits (x 8) 31 16
    waitVal := x 9, sigIdx := bits (x 10) 9 0, wmLine := bits (x 10) 31 16, sigVal := x 11, wmVal := x 12
    opacity := bits (x 13) 15 0, tag := x 14 }

def opCopy : Nat := 1
def opFill : Nat := 2
def opBlend : Nat := 3

/-- Width and height of the destination rectangle (R347). -/
def BlitD.dw (b : BlitD) : Nat := if b.op != opFill && b.rot % 2 == 1 then b.h else b.w
def BlitD.dh (b : BlitD) : Nat := if b.op != opFill && b.rot % 2 == 1 then b.w else b.h

/-- Whether a blit reads a source. -/
def BlitD.reads (b : BlitD) : Bool := b.op != opFill

/-- The source element of destination element (`x`, `y`) (R348, Table 5.9). -/
def BlitD.source (b : BlitD) (x y : Nat) : Nat × Nat :=
  let a := if b.mirror then b.dw - 1 - x else x
  match b.rot with
  | 0 => (a, y)
  | 1 => (y, b.h - 1 - a)
  | 2 => (b.w - 1 - a, b.h - 1 - y)
  | _ => (b.w - 1 - y, a)

/-- The address of a source element, and of a destination element. -/
def BlitD.srcAddr (b : BlitD) (s t : Nat) : Nat := b.src + t * b.srcPitch + s * b.e
def BlitD.dstAddr (b : BlitD) (x y : Nat) : Nat := b.dst + y * b.dstPitch + x * b.e

/-- The interval from the top-left address to the last byte of a rectangle, as address and length. -/
def extent (a rows pitch rowBytes : Nat) : Nat × Nat := (a, (rows - 1) * pitch + rowBytes)

def BlitD.srcExtent (b : BlitD) : Nat × Nat := extent b.src b.h b.srcPitch (b.w * b.e)
def BlitD.dstExtent (b : BlitD) : Nat × Nat := extent b.dst b.dh b.dstPitch (b.dw * b.e)

/-- A blit overlaps: source and destination lie in the same memory and their intervals intersect. -/
def BlitD.overlaps (b : BlitD) : Bool :=
  let s := b.srcExtent
  let t := b.dstExtent
  b.reads && b.srcHost == b.dstHost && s.1 < t.1 + t.2 && t.1 < s.1 + s.2

/-- A straight copy (R354). -/
def BlitD.isStraight (b : BlitD) : Bool := b.op == opCopy && b.rot == 0 && !b.mirror && b.srcPitch == b.dstPitch

/-- A blit that uses the bounce buffer (R355). -/
def BlitD.bounces (b : BlitD) : Bool := b.overlaps && !b.isStraight

/-- A blit that works in descending order (R354): the two addresses are compared whichever memories they lie in. -/
def BlitD.descends (b : BlitD) : Bool := b.isStraight && b.src < b.dst

/-- The size of the bounce buffer. -/
def bounceSize : Nat := 1048576

/-- A destination row touches a partition that the blitter may not write: SETTLED or STROKE (R68, Table 3.7). -/
def Dev.rowForbidden (d : Dev) (a n : Nat) : Bool :=
  d.wb.parts.any fun p => (p.kind == 2 || p.kind == 4) && a < (p.base + p.size) * partUnit && p.base * partUnit < a + n

/-- A descriptor is MALFORMED (R349). A BLEND of `FMT` 3 names no format (log 21). -/
def Dev.blitBad (d : Dev) (ws : List Nat) : Bool :=
  let b := blitD ws
  let unit := if b.e == 6 then 2 else b.e
  let deviceSrc := b.reads && !b.srcHost
  let se := b.srcExtent
  let de := b.dstExtent
  b.op == 0 || 3 < b.op || b.e == 0 ||
  !(reservedClear [0x0F1F77FF, all32, all32, all32, all32, 0xFFFFFF, 0xFFFFFF, all32, 0xFFFF03FF, all32, 0xFFFF03FF, all32,
    all32, 0xFFFF, all32, 0] ws) ||
  (b.op == opFill && (b.rot != 0 || b.mirror)) ||
  (b.op == opBlend && (b.fmt == 3 || b.e != (if b.fmt == 2 then 8 else 4) || b.srcHost || b.dstHost)) ||
  (b.srcHost && b.dstHost) ||
  (b.reads && b.src % unit != 0) || b.dst % unit != 0 ||
  (b.reads && b.srcPitch < b.w * b.e) || b.dstPitch < b.dw * b.e ||
  (deviceSrc && memEnd < se.1 + se.2) || (!b.dstHost && memEnd < de.1 + de.2) ||
  (!b.dstHost && (List.range b.dh).any fun y => d.rowForbidden (b.dstAddr 0 y) (b.dw * b.e)) ||
  ((b.wmEn || b.wmSrc) && b.dh ≤ b.wmLine)

/-! ### Showing and completing -/

def Dev.setBlt (d : Dev) (x : Blt) : Dev := { d with blt := x }

def Dev.bltHalted (d : Dev) : Bool := d.flag Reg.BLT_CTRL Fld.BLT_CTRL_HALT

/-- Whether the head of a ring may start: its wait fence is satisfied (R351). -/
def Dev.headReady (d : Dev) (ws : List Nat) : Bool :=
  let b := blitD ws
  !b.waitEn || d.satisfies b.waitIdx b.waitVal

/-- `BLT_STATUS.STATE` (Table 15.6). A head with a wait fence waits until it starts, on the edge after the fence satisfies it (R351, log 21). -/
def Dev.bltState (d : Dev) : Nat :=
  match d.blt.current with
  | some r => if r.filling then 2 else 1
  | none =>
    if d.bltHalted then 4
    else if !d.blt.heads.isEmpty && d.blt.heads.all fun h => (blitD h.words).waitEn then 3 else 0

/-- `BLT_STATUS` shows the state and the ring of the blit in progress or of the last one. -/
def Dev.bltShow (d : Dev) : Dev :=
  (d.setFld Reg.BLT_STATUS Fld.BLT_STATUS_STATE d.bltState).setFld Reg.BLT_STATUS Fld.BLT_STATUS_RING d.blt.last

/-- The counter of a completion status (Table 15.6). -/
def bltCounter (status : Nat) : Nat :=
  if status == stDone then Reg.BLT_DONE_CNT
  else if status == stMalformed then Reg.BLT_MALFORMED_CNT
  else if status == stOverlap then Reg.BLT_OVERLAP_CNT
  else if status == stFenceTimeout then Reg.BLT_TIMEOUT_CNT
  else if status == stState then Reg.BLT_STATE_CNT
  else Reg.BLT_ABORT_CNT

/-- The completion record of a blit (R353, Table 17.3). -/
def Dev.blitRecord (d : Dev) (ws : List Nat) (status detail : Nat) : Completion :=
  let b := blitD ws
  { op := b.op, status, tag := b.tag, stroke := d.stk.stroke, detail }

/-- A descriptor that the blitter has read completes. -/
def Dev.blitEnd (d : Dev) (h : BlitHead) (status detail : Nat) : Dev :=
  (d.count (bltCounter status)).ringComplete h.ring h.index (d.blitRecord h.words status detail)

/-- `HALT` has taken effect after the last blit (Table 15.6). -/
def Dev.haltedNow (d : Dev) : Dev :=
  if d.bltHalted && d.blt.current.isNone && !d.flag Reg.BLT_EVENT Fld.BLT_EVENT_HALTED then
    (d.setFlag Reg.BLT_EVENT Fld.BLT_EVENT_HALTED).raise 0x4643
  else d

/-- The details of a blit in progress (R353). -/
def BlitRun.detail (r : BlitRun) : Nat :=
  (if r.bounced then 1 else 0) + (if r.descending then 2 else 0) + if r.poisoned then 4 else 0

/-! ### Reading -/

/-- The blitter may read a descriptor from a ring: the ring has one to read and no head of it waits (R350). -/
def Dev.blitReadable (d : Dev) (r : Nat) : Bool :=
  d.hasBlt && d.ringClass r == classBlit && d.ringReadable r && !(d.blt.heads.any (·.ring == r))

/-- The blitter reads a descriptor and checks it (R349, R360). It runs in Lull and wakes nothing (R442). -/
def Dev.blitRead (d : Dev) (r : Nat) : Dev :=
  let d := d.ringFetch r 0 1
  let ws := d.ringEntry r (d.ringCons r)
  let h : BlitHead := ⟨r, d.ringCons r, ws⟩
  let d := d.ringTake r 1
  let d := if d.blitBad ws then d.blitEnd h stMalformed 0
    else if d.bltHalted || 2 ≤ d.sdp.power then d.blitEnd h stState 0
    else d.setBlt { d.blt with heads := d.blt.heads ++ [h] }
  d.bltShow

/-- The descriptor at the front of a ring has the command of a row: COPY also takes what no row names. -/
def Dev.blitOp (d : Dev) (r op : Nat) : Dev :=
  let o := opOf (d.ringEntry r (d.ringCons r))
  let mine := if op == opCopy then o != opFill && o != opBlend else o == op
  if d.blitReadable r && mine then d.blitRead r else d

/-- The heads that may start, in rotation from the ring after the last one served (R350). -/
def Dev.blitOrder (d : Dev) : List BlitHead :=
  let hs := d.blt.heads.mergeSort fun a b => a.ring ≤ b.ring
  (hs.filter (d.blt.last < ·.ring) ++ hs.filter (·.ring ≤ d.blt.last)).filter fun h => d.headReady h.words

/-- The blitter starts the blit whose turn it is (R350, R351, R355). -/
def Dev.blitStart (d : Dev) : Dev :=
  if d.blt.current.isSome || d.bltHalted || 2 ≤ d.sdp.power || d.boot.flush || !d.loaded then d
  else match d.blitOrder with
    | [] => d
    | h :: _ =>
      let b := blitD h.words
      let d := d.setBlt { d.blt with heads := d.blt.heads.erase h, last := h.ring }
      let d := if b.bounces && bounceSize < b.w * b.h * b.e then d.blitEnd h stOverlap 0
        else
          let d := if b.bounces then d.count Reg.BLT_BOUNCE_CNT else d
          d.setBlt { d.blt with current := some { head := h, bounced := b.bounces, filling := b.bounces, descending := b.descends } }
      d.bltShow

/-- `WAIT_LIMIT` passes first (R351). -/
def Dev.blitTimeout (d : Dev) (r : Nat) : Dev :=
  match d.blt.heads.find? fun h => h.ring == r && !d.headReady h.words && (blitD h.words).waitLimit != 0 with
  | none => d
  | some h =>
    let d := d.setBlt { d.blt with heads := d.blt.heads.erase h }
    (((d.blitEnd h stFenceTimeout 0).setFlag Reg.BLT_EVENT Fld.BLT_EVENT_TIMEOUT).raise 0x4642).bltShow

/-! ### Elements -/

/-- The destination lies in host memory, or reaches a GENERAL partition: a Sealed device then reads no content (Table 19.3). -/
def Dev.blitOpenDst (d : Dev) (b : BlitD) : Bool :=
  b.dstHost || (List.range b.dh).any fun y => d.kindAt (b.dstAddr 0 y) == 0 || d.kindAt (b.dstAddr b.dw y - 1) == 0

/-- Bytes of the source as the security state lets them be read (R359, R429). -/
def Dev.blitFetch (d : Dev) (b : BlitD) (hidden : Bool) (a : Nat) : List Byte :=
  if b.srcHost then d.hostRead a b.e
  else (List.range b.e).map fun i => if hidden && d.kindAt (a + i) != 0 then 0 else d.memByte (a + i)

/-- The blocks of software memory that a range of the source is read from: a forbidden read reaches none, whatever state its blocks
are in, since row 1 of Table 2.6 comes first (R281, R359). -/
def Dev.blitReadBlocks (d : Dev) (b : BlitD) (hidden : Bool) (a : Nat) : List Nat :=
  if b.srcHost then [] else (blocksOf a b.e).filter fun k => !(hidden && d.kindAt (k * 256) != 0)

/-- A source element, byte by byte, each with whether it comes from a damaged block. -/
def Dev.blitElement (d : Dev) (b : BlitD) (hidden : Bool) (s t : Nat) : List (Byte × Bool) :=
  let a := b.srcAddr s t
  let damaged := (d.blitReadBlocks b hidden a).filter d.isDamaged
  ((List.range b.e).zip (d.blitFetch b hidden a)).map fun x => (x.2, damaged.contains ((a + x.1) / 256))

/-- A stored element of a blend in fetch form (R116, R357): `FMT` 0 RGBA8, 1 RGB10A2, 2 RGBA16F. -/
def blendForm (fmt v : Nat) : Rgba :=
  Layer.fetchForm { layerAt [] 0 with fmt := 2 - fmt, srgb := false, isOpaque := false } 0 v

/-- A blended element as it is stored back (R357). -/
def blendStore (fmt : Nat) (p : Rgba) : List Byte :=
  let col (n : Nat) (c : Int) : Nat := (clampInt 0 (2 ^ n - 1) (rneDiv (c * (2 ^ n - 1)) (2 ^ 22))).toNat
  let alpha (n : Nat) : Nat := (rneDiv ((p.2 * (2 ^ n - 1) : Nat) : Int) 65535).toNat
  match fmt with
  | 0 => leBytes 4 (col 8 p.1.1 + col 8 p.1.2.1 * 2 ^ 8 + col 8 p.1.2.2 * 2 ^ 16 + alpha 8 * 2 ^ 24)
  | 1 => leBytes 4 (col 10 p.1.1 + col 10 p.1.2.1 * 2 ^ 10 + col 10 p.1.2.2 * 2 ^ 20 + alpha 2 * 2 ^ 30)
  | _ => settledBytes p

/-- What a blit writes to a destination element (R348, R357), byte by byte, each with whether bytes of a damaged block reach it: a copied
byte comes from its own source byte, a blended one from both its elements (R359). -/
def Dev.blitCell (d : Dev) (r : BlitRun) (b : BlitD) (hidden : Bool) (x y : Nat) : List (Byte × Bool) :=
  if b.op == opFill then (leBytes b.e b.src).map (·, false)
  else
    let st := b.source x y
    let s := if r.bounced then r.buffer.getD (st.2 * b.w + st.1) [] else d.blitElement b hidden st.1 st.2
    if b.op == opCopy then s
    else
      let a := b.dstAddr x y
      let p := blendSlot (if b.straight then 1 else 0) b.opacity 65535 (blendForm b.fmt (leNat (s.map (·.1)))) (blendForm b.fmt (d.memNat a b.e))
      (blendStore b.fmt p).map (·, s.any (·.2) || d.rangeDamaged a b.e)

/-- What a blit writes to a destination row, byte by byte, each with whether bytes of a damaged block reach it. -/
def Dev.blitRow (d : Dev) (r : BlitRun) (b : BlitD) (hidden : Bool) (y : Nat) : List (Byte × Bool) :=
  (List.range b.dw).flatMap fun x => d.blitCell r b hidden x y

/-- The part of a run of bytes at `a` that lies from `lo` to below `hi`, and its address. -/
def clipRun {α : Type} (a : Nat) (xs : List α) (lo hi : Nat) : Nat × List α := (max a lo, (xs.take (hi - a)).drop (lo - a))

/-- A run with the bytes that were read before in their places. -/
def BlitRun.carried (r : BlitRun) (run : Nat × List (Byte × Bool)) : Nat × List (Byte × Bool) :=
  (run.1, ((List.range run.2.length).zip run.2).map fun x =>
    if run.1 + x.1 < r.upTo then x.2 else r.carry.getD (run.1 + x.1 - r.upTo) x.2)

/-- What a blit writes from address `lo` to below `hi`: rows without a gap between them are one run, others a run each. Every byte is
computed from memory as it stands before the first of them lands, which the order of work makes right (R354, R355). -/
def Dev.blitRuns (d : Dev) (r : BlitRun) (b : BlitD) (hidden : Bool) (lo hi : Nat) : List (Nat × List (Byte × Bool)) :=
  let rows := (List.range b.dh).map fun y => (b.dstAddr 0 y, d.blitRow r b hidden y)
  let runs := if b.dstPitch == b.dw * b.e then [(b.dst, rows.flatMap (·.2))] else rows
  (runs.map fun x => r.carried (clipRun x.1 x.2 lo hi)).filter fun x => !x.2.isEmpty

/-- Write a run: the bytes land, and blocks that damaged bytes reach are poisoned (R25, R280, R359). `bad` lists blocks whose own read
within a read-modify-write fails. -/
def Dev.blitPut (d : Dev) (b : BlitD) (bad : List Nat) (run : Nat × List (Byte × Bool)) : Dev :=
  let bs := run.2.map (·.1)
  if b.dstHost then d.hostPut run.1 bs
  else
    let hit := ((List.range bs.length).filter fun i => (run.2.getD i (0, false)).2).map fun i => (run.1 + i) / 256
    hit.eraseDups.foldl (fun d k => d.setDamaged k true) (d.memStore run.1 bs bad)

/-- Written bytes count in KiB (Table 15.6). -/
def Dev.bltBytes (d : Dev) (n : Nat) : Dev :=
  let all_ := d.blt.rest + n
  let d := d.setBlt { d.blt with rest := all_ % 1024 }
  d.setReg Reg.BLT_KIB_CNT ((d.reg Reg.BLT_KIB_CNT + all_ / 1024) % 2 ^ 32)

/-! ### Source blocks that fail -/

/-- The destination elements that lie, whole or in part, from address `lo` to below `hi`. -/
def BlitD.cells (b : BlitD) (lo hi : Nat) : List (Nat × Nat) :=
  ((List.range b.dh).flatMap fun y => (List.range b.dw).map fun x => (x, y)).filter fun c =>
    b.dstAddr c.1 c.2 < hi && lo < b.dstAddr c.1 c.2 + b.e

/-- The end of the destination rectangle. -/
def BlitD.dstEnd (b : BlitD) : Nat := b.dstExtent.1 + b.dstExtent.2

/-- A Sealed device hides content partitions from a blit whose destination is open (Table 19.3). -/
def Dev.blitHides (d : Dev) (b : BlitD) : Bool := d.sdp.sec == 1 && d.blitOpenDst b

/-- The blocks of software memory that a blit reads for the destination from address `lo` to below `hi`. -/
def Dev.blitBlocks (d : Dev) (b : BlitD) (lo hi : Nat) : List Nat :=
  if !b.reads then []
  else ((b.cells lo hi).flatMap fun c =>
    let st := b.source c.1 c.2
    d.blitReadBlocks b (d.blitHides b) (b.srcAddr st.1 st.2)).eraseDups

/-- A reader outside PRT and the packers meets failing blocks: the ladders of those it has not tried open (R281, Table 12.2). -/
def Dev.plainLadders (d : Dev) (reader : Nat) (fails : List Nat) : Dev :=
  fails.foldl (fun d b =>
    let d := d.blockFailed b
    { d with ladders := d.ladders ++ [{ kind := 1, unit_ := 0, block := b, stroke := d.stk.stroke, reader := some reader }] }) d

/-- Whether a ladder of a reader is open. -/
def Dev.readerWaits (d : Dev) (reader : Nat) : Bool := d.ladders.any (·.reader == some reader)

/-- The blocks of a list that fail and have not had their ladder. -/
def Dev.newFails (d : Dev) (blocks bad tried : List Nat) : List Nat :=
  blocks.filter fun k => (bad.contains k || d.isDamaged k) && !tried.contains k

/-- The source blocks in the way of the destination from address `lo` to below `hi`: they fail and have not had their ladder. -/
def Dev.blitFails (d : Dev) (r : BlitRun) (b : BlitD) (lo hi : Nat) (bad : List Nat) : List Nat :=
  if r.bounced && !r.filling then [] else d.newFails (d.blitBlocks b lo hi) bad r.tried

/-- The rest, from address `hi` on, of the destination element that lies across that address. -/
def Dev.blitCarry (d : Dev) (r : BlitRun) (b : BlitD) (hi : Nat) : List (Byte × Bool) :=
  match (b.cells (hi - 1) hi).head? with
  | some c => (d.blitCell r b (d.blitHides b) c.1 c.2).drop (hi - b.dstAddr c.1 c.2)
  | none => []

/-- The controllers of the source blocks for the destination from address `lo` to below `hi` are awake, where the blit reads them now
(R298). -/
def Dev.blitWake (d : Dev) (r : BlitRun) (b : BlitD) (lo hi : Nat) : Dev :=
  if r.bounced && !r.filling then d else d.memWake (d.blitBlocks b lo hi)

/-- The blit reads for the destination from address `lo` to below `hi`: whether it may go on, and the device, with ladders open where it
may not. -/
def Dev.blitMayRead (d : Dev) (r : BlitRun) (b : BlitD) (lo hi : Nat) (bad : List Nat) : Bool × Dev :=
  if d.readerWaits 0 then (false, d)
  else
    let d := d.blitWake r b lo hi
    let fails := d.blitFails r b lo hi bad
    if fails.isEmpty then (true, d)
    else (false, (d.plainLadders 0 fails).setBlt { d.blt with current := some { r with tried := r.tried ++ fails } })

/-! ### Work -/

/-- The bounce fill ends: the source rectangle is in the buffer (R355). -/
def Dev.bounceDone (d : Dev) (bad : List Nat) : Dev :=
  match d.blt.current with
  | none => d
  | some r =>
    if !r.filling then d
    else
      let b := blitD r.head.words
      let go := d.blitMayRead r b 0 b.dstEnd bad
      if !go.1 then go.2
      else
        let d := go.2
        let buffer := (List.range b.h).flatMap fun t => (List.range b.w).map fun s => d.blitElement b (d.blitHides b) s t
        (d.setBlt { d.blt with current := some { r with filling := false, buffer } }).bltShow

/-- Write the destination from address `lo` to below `hi`, and count it. -/
def Dev.blitLand (d : Dev) (r : BlitRun) (b : BlitD) (lo hi : Nat) (bad : List Nat) : Dev :=
  let runs := d.blitRuns r b (d.blitHides b) lo hi
  (runs.foldl (fun d x => d.blitPut b bad x) d).bltBytes ((runs.map (·.2.length)).foldl (· + ·) 0)

/-- Whether a damaged block reaches the destination from address `lo` to below `hi`. -/
def Dev.blitPoisons (d : Dev) (r : BlitRun) (b : BlitD) (lo hi : Nat) : Bool :=
  (d.blitRuns r b (d.blitHides b) lo hi).any fun x => x.2.any (·.2)

/-- The watermark line is reached: `WM_VAL` and source 0x4640 (R356). -/
def Dev.blitMark (d : Dev) (b : BlitD) : Dev :=
  let d := if b.wmEn then d.fenceAdvance b.sigIdx b.wmVal else d
  d.raiseIf b.wmSrc 0x4640

/-- The first address past row `WM_LINE` of the destination. -/
def BlitD.wmEnd (b : BlitD) : Nat := b.dstAddr b.dw b.wmLine

/-- The end of the block that holds the byte before an address. -/
def blockEnd (a : Nat) : Nat := (a + 255) / 256 * 256

/-- Rows 0 to `WM_LINE` hold their final content (R356); in descending order they do so at completion alone. The block that holds the
line's last byte is written whole, with what a later row has in it (R352). -/
def Dev.watermark (d : Dev) (bad : List Nat) : Dev :=
  match d.blt.current with
  | none => d
  | some r =>
    let b := blitD r.head.words
    if r.filling || r.marked || r.descending || !(b.wmEn || b.wmSrc) then d
    else
      let hi := blockEnd b.wmEnd
      let go := d.blitMayRead r b r.upTo hi bad
      if !go.1 then go.2
      else
        let d := go.2
        let poisoned := r.poisoned || d.blitPoisons r b r.upTo hi
        let carry := d.blitCarry r b hi
        let d := d.blitLand r b r.upTo hi bad
        (d.setBlt { d.blt with current := some { r with upTo := hi, carry, marked := true, poisoned } }).blitMark b

/-- A blit that poisoned blocks of its destination has completed (R359, Table 15.7). -/
def Dev.blitPoisoned (d : Dev) (r : BlitRun) : Dev :=
  if r.poisoned then ((d.count Reg.BLT_POISON_CNT).setFlag Reg.BLT_EVENT Fld.BLT_EVENT_POISON).raise 0x4641 else d

/-- The blit in progress completes (R353, R356, R359). -/
def Dev.blitComplete (d : Dev) (bad : List Nat) : Dev :=
  match d.blt.current with
  | none => d
  | some r =>
    let b := blitD r.head.words
    let go := d.blitMayRead r b r.upTo b.dstEnd bad
    if r.filling then d
    else if !go.1 then go.2
    else
      let d := go.2
      let r := { r with poisoned := r.poisoned || d.blitPoisons r b r.upTo b.dstEnd }
      let d := d.blitLand r b r.upTo b.dstEnd bad
      let d := d.setBlt { d.blt with current := none }
      let d := if r.marked then d else d.blitMark b
      let d := if b.sigEn then d.fenceAdvance b.sigIdx b.sigVal else d
      ((d.blitEnd r.head stDone r.detail).blitPoisoned r).haltedNow.bltShow

/-- How far a blit came when it is aborted: the addresses from and below which its destination was written. Whole blocks were, in the
order of work, and no source block that fails was in the way; the number of them is `k`, as far as these allow. -/
def Dev.blitReach (d : Dev) (r : BlitRun) (b : BlitD) (k : Nat) : Nat × Nat :=
  let first := max r.upTo b.dst / 256
  let last := blockEnd b.dstEnd / 256
  let at_ (j : Nat) : Nat × Nat := if r.descending then ((last - j) * 256, last * 256) else (r.upTo, max r.upTo ((first + j) * 256))
  if r.filling || d.readerWaits 0 then (0, 0)
  else
    let j := (List.range (k % (last - first) + 1)).reverse.find? fun j => (d.blitFails r b (at_ j).1 (at_ j).2 []).isEmpty
    at_ (j.getD 0)

/-- The blit in progress completes ABORTED, its destination partly written: how far it came is free (R360, log 9). Where that is past the
watermark line, the line was reached before (R356). One whose record has `POISONED` counts and raises its source as another (Tables 15.6,
15.7). -/
def Dev.blitAbort (d : Dev) : Dev :=
  match d.blt.current with
  | none => d
  | some r =>
    let b := blitD r.head.words
    let n := d.freshNat
    let d := n.2
    let done_ := d.blitReach r b n.1
    let r := { r with poisoned := r.poisoned || d.blitPoisons r b done_.1 done_.2 }
    let d := (d.blitWake r b done_.1 done_.2).blitLand r b done_.1 done_.2 []
    let d := if !r.marked && !r.descending && (b.wmEn || b.wmSrc) && b.wmEnd ≤ done_.2 then d.blitMark b else d
    let d := (d.setBlt { d.blt with current := none }).orphanReader 0
    ((d.blitEnd r.head stAborted r.detail).blitPoisoned r).haltedNow.bltShow

/-- Every descriptor that the blitter has read completes ABORTED: the flush of a reset (R360, R456). -/
def Dev.blitFlush (d : Dev) : Dev :=
  let d := d.blitAbort
  let hs := d.blt.heads
  let d := d.setBlt { d.blt with heads := [] }
  (hs.foldl (fun d h => d.blitEnd h stAborted 0) d).bltShow

/-- Entry to Doze: the blit in progress completes ABORTED (R360); a head that waits is ill-timed (log 21). -/
def Dev.blitDoze (d : Dev) : Dev :=
  let d := d.blitAbort
  let hs := d.blt.heads
  let d := d.setBlt { d.blt with heads := [] }
  (hs.foldl (fun d h => d.blitEnd h stState 0) d).bltShow

/-- A write of `BLT_CTRL` (R360). -/
def Dev.writeBltCtrl (d : Dev) (v : Nat) : Dev := (d.genericWrite Reg.BLT_CTRL v).haltedNow.bltShow

/-! ### The commands -/

def execCopy (ring : Fin 16384) (s : State) : Host.Outcome State Fault Refusal := s.apply fun d => d.blitOp ring opCopy

def execFill (ring : Fin 16384) (s : State) : Host.Outcome State Fault Refusal := s.apply fun d => d.blitOp ring opFill

def execBlend (ring : Fin 16384) (s : State) : Host.Outcome State Fault Refusal := s.apply fun d => d.blitOp ring opBlend

def execBlitStart (s : State) : Host.Outcome State Fault Refusal := s.apply fun d => d.blitStart

def execBounceFillDone (bad : List Nat) (s : State) : Host.Outcome State Fault Refusal := s.apply fun d => d.bounceDone bad

def execWatermark (bad : List Nat) (s : State) : Host.Outcome State Fault Refusal := s.apply fun d => d.watermark bad

def execBlitComplete (bad : List Nat) (s : State) : Host.Outcome State Fault Refusal := s.apply fun d => d.blitComplete bad

def execBlitFenceTimeout (ring : Fin 16384) (s : State) : Host.Outcome State Fault Refusal := s.apply fun d => d.blitTimeout ring

def execHalt (data : Word) (s : State) : Host.Outcome State Fault Refusal :=
  s.apply fun d => d.onWrite Reg.BLT_CTRL fun d => d.writeBltCtrl data.toNat

end Sys2Proof.Machine
end

