-- ==== Sys2Proof/Machine/Coach.lean ====
section
/-! DEFINITION. Coach ports: port states and HOLD (R217, R218), commits of the route map (R214 to R216), frames (R204 to
R206), sending a stroke (R210 to R213), underrun (R219), witnesses (R227) and slack (R228). -/

namespace Sys2Proof.Machine

/-! ### Port states -/

/-- Raise source `k` of a Coach port (R229). -/
def Dev.coachSource (d : Dev) (p k : Nat) : Dev := d.raise (0x4400 + 4 * p + k)

/-- `CPT_SLACK` of a port that reads no memory (R228). -/
def slackIdle : Nat := 0x3FFFFFF

/-- A port goes on with a stroke from its first pixel. What it has covered of one that is cut off midway is forgotten: such a stroke is neither
compared nor counted (R227; DESIGN CHOICE, log 18). -/
def Coach.restart (c : Coach) (stroke : Nat) : Coach :=
  { c with next := stroke, begun := false, stop := 0, at_ := 0, last := none, wits := [], seen := [], holed := [], missed := [] }

/-- What a port's transmitter drives (R202, R217, R414). -/
def Dev.coachDrive (d : Dev) (p : Nat) : LaneDrive := d.linkDrive p (d.coach p).state

/-- The port's transmitter drives what its state asks for, where that differs from `was`; codewords begin with an empty lane, so that
the first frame starts at data byte 0 (Table 9.10), and with a free codeword number and scrambler state (log 54). -/
def Dev.coachLane (d : Dev) (p : Nat) (was : LaneDrive) : Dev :=
  if d.coachDrive p == was then d
  else
    let d := match d.coachDrive p with
      | .codewords =>
        let n := d.freshNat
        let s := n.2.freshNat
        s.2.setCoach p { s.2.coach p with lane := Lane.start n.1 s.1 }
      | _ => d
    d.driveLane p (d.coach p).state was

/-- The stroke that a port sends next: the first dealt one from `next` on whose route map gives the port a stop (R210). -/
def Dev.coachTarget (d : Dev) (p : Nat) : Option StrokeRun :=
  d.prt.strokes.find? fun r =>
    !r.withdrawn && !r.abandoned && strokeGe r.stroke (d.coach p).next && !(portStops r.version p).isEmpty

/-- The first stroke whose frames a port has still to send (`NEXT` of markers and HOLD frames): a withdrawn one, else one
that has been dealt, else the one that the next latch point deals. -/
def Dev.coachNext (d : Dev) (p : Nat) : Nat :=
  let c := d.coach p
  match d.reframing && c.state == 3, c.withdrawn with
  | true, w :: _ => w
  | _, _ => match d.coachTarget p with
    | some r => r.stroke
    | none =>
      let n := if d.timed then strokeAdd d.firstLatch d.latchTiming.ahead else c.next
      if strokeGe n c.next then n else c.next

/-- The version that governs a stroke: the one kept for it, else the live one (R214). -/
def Dev.versionFor (d : Dev) (n : Nat) : Cfg :=
  match d.runOf n with
  | some r => r.version
  | none => d.regs

/-- The CONFIG frames due on entry to RUN: one to each enabled stop, for the stroke that the port sends next, and those of captured
commits that take effect later (R212). -/
def Dev.configsOfRun (d : Dev) (p : Nat) : List (Nat × Nat) :=
  let n := d.coachNext p
  (portStops (d.versionFor n) p).map (fun s => (s.addr, n)) ++ (d.coach p).configs.filter fun e => !strokeGe n e.2

/-- Enter a port state (R217): the source rises, and the state's own beginnings happen. The strokes that a REFRAME withdrew stay to
be skipped over a hold that ends before `B`₀ (R218). -/
def Dev.coachTo (d : Dev) (p x : Nat) : Dev :=
  let c := d.coach p
  let was := d.coachDrive p
  let d := d.setFld (Reg.CPT_STATUS p) Fld.CPT_STATUS_STATE x
  let d := if x == 2 then d else d.setReg (Reg.CPT_SLACK p) slackIdle
  let fresh : Coach := { target := c.target, pending := c.pending, configs := c.configs, tx := if x == 1 then d.reg (Reg.CPT_TX p) else c.tx }
  let c := match x with
    | 2 => { c with state := 2, holdDue := false, withdrawn := if d.stk.timing == 2 then c.withdrawn else [], configs := d.configsOfRun p }
    | 3 => { c with state := 3, holdDue := true, marker := none }
    | _ => { fresh with state := x }
  let d := if x == 3 then d.count (Reg.CPT_HOLD_CNT p) else d
  (((d.setCoach p c).setFlag (Reg.CPT_EVENT p) Fld.CPT_EVENT_LINK).coachSource p 1).coachLane p was

/-- Where a port goes on after a HOLD for another cause than REFRAMING: with the stroke after the present one, or after the
last that it has finished (log 18). -/
def Dev.coachResume (d : Dev) (p : Nat) : Nat :=
  let n := (d.coach p).next
  if strokeGe n d.nextStroke then n else d.nextStroke

/-- A port takes the hold causes as they stand: into HOLD, or back to RUN (Table 9.10). In HOLD for another cause than
REFRAMING it goes on later from `coachResume`, and reads no memory (R228). -/
def Dev.coachHold (d : Dev) (p : Nat) : Dev :=
  let c := d.coach p
  let held := d.reframing || d.holdOther p
  let at_ := if d.holdOther p then d.coachResume p else d.stk.s1
  match c.state, held with
  | 2, true => (d.setCoach p (c.restart at_)).coachTo p 3
  | 3, false => d.coachTo p 2
  | 3, true =>
    if d.holdOther p then (d.setCoach p (c.restart (d.coachResume p))).setReg (Reg.CPT_SLACK p) slackIdle else d
  | _, _ => d

/-- Every Coach port takes the hold causes as they stand. -/
def Dev.coachSettle (d : Dev) : Dev := (d.portsOf 1).foldl Dev.coachHold d

/-- The crossing to a port tears (R422): the epoch, the flag and its count. -/
def Dev.coachTorn (d : Dev) (p : Nat) : Dev :=
  ((d.newEpoch p).setFlag (Reg.CPT_EVENT p) Fld.CPT_EVENT_TORN).count (Reg.CPT_TORN_CNT p)

/-- A port enters TRAIN where `EN` is 1 and its quad PLL is locked (Table 9.10). -/
def Dev.coachUp (d : Dev) (p : Nat) : Dev :=
  if (d.coach p).state == 0 && d.flag (Reg.CPT_CTRL p) Fld.CPT_CTRL_EN && d.quadLocked (p / 4) then d.coachTo p 1 else d

/-- `RETRAIN`, and loss of the quad PLL, in TRAIN, RUN and HOLD: TRAIN from the beginning, its port domain reset (R217, R414). -/
def Dev.coachRetrain (d : Dev) (p : Nat) : Dev :=
  match (d.coach p).state with
  | 0 => d
  | 1 => (d.setCoach p { d.coach p with tx := d.reg (Reg.CPT_TX p) }).coachTorn p
  | _ => (d.coachTo p 1).coachTorn p

/-- The port leaves TRAIN (Table 9.10). -/
def Dev.coachTrained (d : Dev) (p : Nat) : Dev :=
  if (d.coach p).state != 1 || !d.quadLocked (p / 4) then d
  else
    let d := d.setCoach p ((d.coach p).restart d.nextStroke)
    d.coachTo p (if d.reframing || d.holdOther p then 3 else 2)

/-- The reason codes of Table 9.14. -/
def cptReframe : Nat := 1
def cptPower : Nat := 2
def cptCommitBusy : Nat := 3
def cptLate : Nat := 4
def cptTargetRange : Nat := 5
def cptRoute : Nat := 6
def cptBudget : Nat := 7
def cptPendingWrite : Nat := 8
def cptChainBusy : Nat := 9
def cptSplit : Nat := 10
def cptLinkDown : Nat := 11

/-- A write of `CPT_CTRL` (R217): `EN`, `HOLD`, `TRAIN_MS` and `RETRAIN`. The values of a write come before its trigger, so that `RETRAIN` with
`EN` in DOWN finds the port in TRAIN (DESIGN CHOICE, log 45). -/
def Dev.writeCoachCtrl (d : Dev) (p v : Nat) : Dev :=
  let was := d.flag (Reg.CPT_CTRL p) Fld.CPT_CTRL_EN
  let d := d.genericWrite (Reg.CPT_CTRL p) v
  let d := if was && !bit v 0 && (d.coach p).state != 0 then (d.coachTo p 0).coachTorn p else d
  let d := d.coachUp p
  let d := if bit v 1 && bit v 0 then
      (if (d.coach p).state == 0 then d.refuse (Reg.CPT_BLKID p) cptLinkDown else d.coachRetrain p)
    else if bit v 1 then d.refuse (Reg.CPT_BLKID p) cptLinkDown
    else d
  d.coachHold p

/-- A host write of `CPT_CTRL`: its `HOLD` field is mirrored, and an acting secondary keeps its own (R312, Table 13.4). -/
def Dev.hostCoachCtrl (d : Dev) (p v : Nat) : Dev :=
  let f := Fld.CPT_CTRL_HOLD
  if d.secondaryPaired then
    let old := d.fld (Reg.CPT_CTRL p) f
    let d := if f.get v != old then d.count Reg.TWN_LOCAL_DROP_CNT else d
    d.writeCoachCtrl p (f.put v old)
  else
    let d := d.writeCoachCtrl p v
    if d.primaryPaired then d.twnMirror [.write (Reg.CPT_CTRL p % 0x10000000) (BitVec.ofNat 32 v)] else d

/-- The partner's `HOLD` of a port (R312). -/
def Dev.mirroredHold (d : Dev) (p v : Nat) : Dev :=
  (d.setFld (Reg.CPT_CTRL p) Fld.CPT_CTRL_HOLD (Fld.CPT_CTRL_HOLD.get v)).coachHold p

/-- A write of `CPT_CHAIN_ID` (Table 9.13). -/
def Dev.writeChainId (d : Dev) (p v : Nat) : Dev :=
  if 2 ≤ (d.coach p).state then d.refuse (Reg.CPT_BLKID p) cptChainBusy else d.genericWrite (Reg.CPT_CHAIN_ID p) v

/-! ### Commits (R214 to R216) -/

/-- The table rule of R122 for every valid stack of a version, under the stops of another; one that is not valid is not tested (DESIGN CHOICE,
log 57). -/
def Dev.tablesFit (c : Cfg) (ss : List Stop) : Bool :=
  (((List.range 64).map (stackAt c)).filter (·.valid)).all fun k => (k.tableExtents c ss).all fun t => t.1 + t.2 ≤ memEnd

/-- Why a commit of a port is refused (Table 9.9); an uncorrectable shadow word of the projected route map fails ROUTE (R295). -/
def Dev.commitRefusal (d : Dev) (p : Nat) (next : Bool) : Option (Nat × Option AdmFail) :=
  let n := d.reg (Reg.CPT_COMMIT_TGT_LO p) + 2 ^ 32 * d.reg (Reg.CPT_COMMIT_TGT_HI p)
  let words := d.routeWords p
  let after := d.projectedWith words
  let ss := d.allStops after
  if d.stk.timing == 2 || d.stk.timing == 3 then some (cptReframe, none)
  else if d.sdp.power == 2 then some (cptPower, none)
  else if (d.coach p).pending then some (cptCommitBusy, none)
  else if !next && d.tooFar n then some (cptTargetRange, none)
  else if !next && d.latchPassed n then some (cptLate, none)
  else if d.shadowHits (words ++ ((d.portsOf 1).filter fun q => (d.coach q).pending).flatMap d.routeWords) || !d.routeGood after || !Dev.tablesFit d.regs ss || !Dev.tablesFit after ss then some (cptRoute, none)
  else match d.admitChange (if next then 1 else d.rel n) words d.flp.windows with
    | some f => some (cptBudget, some f)
    | none => none

/-- A commit is captured (R214): its live copies, and CONFIG frames for the entries that it changes (R212), with effect from
stroke `eff` at the earliest. -/
def Dev.commitApply (d : Dev) (p eff : Nat) : Dev :=
  let before := d.regs
  let d := (d.routeWords p).foldl (fun (d : Dev) (w : Nat × Nat) => d.setReg w.1 w.2) d
  let changed := (portStops d.regs p).filter fun s => stopAt before p s.addr != some s
  let c := d.coach p
  let d := d.setCoach p { c with
    pending := false, target := none, configs := c.configs ++ changed.map fun s => (s.addr, eff) }
  let d := d.controlWritten ((d.routeWords p).map (·.1))
  (d.setFld (Reg.CPT_COMMIT p) Fld.CPT_COMMIT_PENDING 0).count (Reg.CPT_COMMIT_CNT p)

/-- A write of `CPT_COMMIT` (R214), with the check of the shadow words that it takes (R295). -/
def Dev.writeCommit (d : Dev) (p v : Nat) (ecc : ShadowEcc) : Dev :=
  let d := d.genericWrite (Reg.CPT_COMMIT p) v
  if !bit v 0 then d
  else
    let next := bit v 1
    let d := d.shadowChecked ecc
    match d.commitRefusal p next with
    | some r =>
      let d := (match r.2 with | some f => d.admRefused f | none => d)
      d.refuse (Reg.CPT_BLKID p) r.1
    | none =>
      let n := d.reg (Reg.CPT_COMMIT_TGT_LO p) + 2 ^ 32 * d.reg (Reg.CPT_COMMIT_TGT_HI p)
      let d := d.setCoach p { d.coach p with pending := true, target := if next then none else some n }
      let d := (d.setFld (Reg.CPT_COMMIT p) Fld.CPT_COMMIT_PENDING 1).lullExit
      if d.stk.timing == 0 then (d.commitApply p d.firstLatch).updateAdm else d

/-- The ports whose pending commits capture at latch point `n` (R214, R216). -/
def Dev.captures (d : Dev) (n : Nat) : List Nat :=
  (d.portsOf 1).filter fun p => (d.coach p).pending && match (d.coach p).target with
    | none => true
    | some t => strokeGe n t

/-- A pending commit is dropped with SPLIT (R215). -/
def Dev.commitDrop (d : Dev) (p : Nat) : Dev :=
  let d := d.setCoach p { d.coach p with pending := false, target := none }
  (d.setFld (Reg.CPT_COMMIT p) Fld.CPT_COMMIT_PENDING 0).refuse (Reg.CPT_BLKID p) cptSplit

/-- The ports that hold an entry of a split group that would be incomplete in a configuration: in it, in the live one, as where a commit
alone takes its member out of the group, or in the shadows of their pending commits, whatever latch points those target (R215). -/
def Dev.splitHolders (d : Dev) (after : Cfg) : List Nat :=
  let broken := d.incompleteSplits after
  let shadows := ((d.portsOf 1).filter fun p => (d.coach p).pending).flatMap fun p => portStops (cfgOverlay d.regs (d.routeWords p)) p
  (broken.map (·.port) ++ ((d.allStops d.regs ++ shadows).filter fun b => broken.any b.sameSplit).map (·.port)).eraseDups

/-- Drop the pending commits that hold an entry of a split group that would be incomplete, until none is (R215). -/
def Dev.dropSplits (d : Dev) (n : Nat) : Nat → Dev
  | 0 => d
  | fuel + 1 =>
    let after := (d.captures n).foldl (fun c p => cfgOverlay c (d.routeWords p)) d.regs
    let bad := (d.splitHolders after).filter fun p => (d.coach p).pending
    if (d.captures n).isEmpty || bad.isEmpty then d else (bad.foldl Dev.commitDrop d).dropSplits n fuel

/-- Capture the commits of latch point `n`. -/
def Dev.commitsLatch (d : Dev) (n : Nat) : Dev :=
  let d := d.dropSplits n 128
  let ps := d.captures n
  let d := ps.foldl (fun d p => d.commitApply p (strokeAdd n d.latchTiming.ahead)) d
  if ps.isEmpty then d else { d with flp := { d.flp with stirred := some n } }

/-! ### Frames (R204 to R206) -/

/-- Bytes enter a port's lane, where a frame begins; the codewords that they fill leave as levels (R200 to R202). `FSP` of a
codeword in which no frame begins is a free value (log 54). -/
def Dev.coachBytes (d : Dev) (p : Nat) (bs : List Byte) : Dev :=
  let f := d.freshNat
  let d := f.2
  let c := d.coach p
  let l := c.lane.take bs
  let r := Lane.drain f.1 (l.fill.length / 640) l
  (d.setCoach p { c with lane := r.2 }).sendLevels p r.1

/-- A frame leaves a port: header, payload and check; it counts unless it is an IDLE frame (R204, R206, Table 9.13). -/
def Dev.coachFrame (d : Dev) (p type_ flags stop depth stroke line x count : Nat) (payload : List Byte) : Dev :=
  let c := d.coach p
  let chain := d.reg (Reg.CPT_CHAIN_ID p)
  let header := leBytes 1 type_ ++ leBytes 1 flags ++ leBytes 1 stop ++ leBytes 1 depth ++ leBytes 2 stroke ++ leBytes 2 line ++
    leBytes 2 x ++ leBytes 2 count ++ leBytes 2 payload.length ++ leBytes 2 c.seq ++ leBytes 16 0
  let fold := leBytes 2 chain ++ leBytes 1 stop ++ leBytes 1 0 ++ leBytes 2 stroke ++ leBytes 2 (if type_ ≤ 2 then line else 0xFFFF)
  let d := d.setCoach p { c with seq := (c.seq + 1) % 2 ^ 16 }
  let d := if type_ == 6 then d else d.count (Reg.CPT_FRAME_CNT p)
  let bs := checkedFrame fold header payload
  (d.emit (.frame p bs)).coachBytes p bs

/-- The three stored fields of a pixel's 6 bytes (R150). -/
def storedFields (bs : List Byte) : List Nat := [leNat (bs.take 2), leNat ((bs.drop 2).take 2), leNat ((bs.drop 4).take 2)]

/-- Split bytes into pixels of 6 B. -/
def pixelsOf : Nat → List Byte → List (List Byte)
  | 0, _ => []
  | n + 1, bs => bs.take 6 :: pixelsOf n (bs.drop 6)

/-- A PIXELS payload (R205): the top `depth` bits of each field, as a little-endian bit string. -/
def packPixels (depth : Nat) (fields : List Nat) : List Byte :=
  let v := fields.foldr (fun f (a : Nat) => a * 2 ^ depth + f / 2 ^ (16 - depth)) 0
  leBytes (ceilDiv (fields.length * depth) 8) v

/-- The most pixels of a run, by depth (R210). -/
def Stop.runMax (s : Stop) : Nat := [2730, 3640, 4368].getD s.depth 2730

/-- Line and pixel, in stop coordinates, of the `i`-th pixel that an entry carries (R208). -/
def Stop.lineOf (s : Stop) (i : Nat) : Nat := s.splitI + i / s.w * s.splitG
def Stop.pixelOf (s : Stop) (i : Nat) : Nat := i % s.w

/-- A stop line segment: canvas position, pixels, and the parcel that holds it (R219). -/
structure Segment where
  x : Nat
  y : Nat
  n : Nat
  parcel : Option Parcel
  deriving DecidableEq, Repr

/-- The segment at the `i`-th pixel that an entry carries. -/
def Stop.segment (s : Stop) (r : StrokeRun) (i : Nat) : Segment :=
  let cx := s.x + s.pixelOf i
  let cy := s.y + s.lineOf i
  let q := r.parcelAt cx cy
  let rest := s.w - s.pixelOf i
  ⟨cx, cy, match q with | some q => min rest (q.x + q.w - cx) | none => rest, q⟩

/-- A parcel has passed R211: it is sealed, and no ladder of the packer's holds it (R278, R286). -/
def Dev.parcelReady (d : Dev) (stroke : Nat) (q : Parcel) : Bool :=
  q.st == .sealed &&
  !(d.ladders.any fun l => l.kind == 3 && l.stroke == stroke && l.region == q.region && l.parcel == q.number) &&
  !(d.prt.jobs.any fun j => (j.kind == .packer || j.kind == .record) && j.stroke == stroke && j.region == q.region && j.number == q.number)

def Dev.segmentReady (d : Dev) (stroke : Nat) (g : Segment) : Bool :=
  match g.parcel with
  | some q => d.parcelReady stroke q
  | none => true

/-- A word of a stop's route-map entry is lost: every pixel of the entry is unrecoverable (R296). -/
def StrokeRun.routeLost (r : StrokeRun) (p : Nat) (s : Stop) : Bool :=
  let a := Reg.CPT_RM_CTRL_LIVE p s.addr
  r.lost.any fun w => a ≤ w && w < a + 20

/-- The segments of the run that begins at pixel `i`, at most `room` pixels, up to the first that is not ready. -/
def Dev.readySegments (d : Dev) (r : StrokeRun) (s : Stop) : Nat → Nat → Nat → List Segment
  | 0, _, _ => []
  | fuel + 1, i, room =>
    if s.pixels ≤ i || room == 0 then []
    else
      let g := s.segment r i
      if !d.segmentReady r.stroke g then []
      else
        let n := min g.n room
        { g with n } :: d.readySegments r s fuel (i + n) (room - n)

/-- Whether a port may begin a stroke (R210): no further ahead than its stops have buffers for, and in racing pacing once
its first parcel has passed or is lost. A stroke that it has begun goes on (R211, R219). -/
def Dev.mayBegin (d : Dev) (r : StrokeRun) (ss : List Stop) : Bool :=
  let depth := ss.foldl (fun m s => min m s.buf) 16
  let near := strokeGe d.stk.stroke r.stroke || strokeSub r.stroke d.stk.stroke < depth
  let first := match ss with
    | [] => false
    | s :: _ => match (s.segment r 0).parcel with
      | some q => d.parcelReady r.stroke q || (q.isOver && q.st != .sealed && q.st != .sealFailed)
      | none => true
  near && (!r.racing || first)

/-- The witnesses that a port feeds in a stroke, as they stand (R227). -/
def Dev.witnesses (d : Dev) (p phase : Nat) : List (Nat × Nat × Nat × Nat) :=
  ((List.range 64).filter fun w =>
    let v := d.reg (Reg.PRT_WIT_CTRL w)
    Fld.PRT_WIT_CTRL_EN.get v == 1 && Fld.PRT_WIT_CTRL_PORT.get v == p && Fld.PRT_WIT_CTRL_PHASE.get v == phase).map fun w =>
      (w, d.reg (Reg.PRT_WIT_POS w), d.reg (Reg.PRT_WIT_SIZE w), d.reg (Reg.PRT_WIT_EXPECT w))

/-- The port stands in stroke `r`: it begins it where it has not. -/
def Dev.coachBegin (d : Dev) (p : Nat) (r : StrokeRun) (ss : List Stop) : Dev :=
  let c := d.coach p
  if c.begun && c.next == r.stroke then d
  else d.setCoach p { c.restart r.stroke with begun := true, stop := (ss.head?.map (·.addr)).getD 0, wits := d.witnesses p r.phase }

/-- Where a run of canvas pixels meets a witness rectangle: first pixel and count. -/
def witnessCut (pos size : Nat) (g : Segment) : Option (Nat × Nat) :=
  let x0 := max g.x (bits pos 15 0)
  let x1 := min (g.x + g.n) (bits pos 15 0 + bits size 15 0 + 1)
  if x0 < x1 && bits pos 31 16 ≤ g.y && g.y < bits pos 31 16 + bits size 31 16 + 1 then some (x0, x1 - x0) else none

/-- What the witnesses of the stroke see of a segment: its bytes, or a hole (R227). -/
def Coach.witness (c : Coach) (g : Segment) (bs : Option (List Byte)) : Coach :=
  c.wits.foldl (fun (c : Coach) (w : Nat × Nat × Nat × Nat) =>
    match witnessCut w.2.1 w.2.2.1 g, bs with
    | some x, some b => { c with seen := c.seen ++ [(w.1, g.y, x.1, (b.drop (6 * (x.1 - g.x))).take (6 * x.2))] }
    | some _, none => { c with holed := insertSorted c.holed w.1 }
    | none, _ => c) c

/-- A witness is evaluated when the port has finished the stroke (R227). -/
def Dev.witnessEnd (d : Dev) (p stroke : Nat) (c : Coach) (w : Nat × Nat × Nat × Nat) : Dev :=
  let parts := (c.seen.filter (·.1 == w.1)).mergeSort fun a b => a.2.1 < b.2.1 || (a.2.1 == b.2.1 && a.2.2.1 ≤ b.2.2.1)
  if c.holed.contains w.1 then d.count (Reg.PRT_WIT_SKIP_CNT w.1)
  else if parts.isEmpty then d
  else
    let v := crc32c (parts.flatMap (·.2.2.2))
    if v == w.2.2.2 then d
    else
      let d := d.setFlag (Reg.PRT_WIT_CTRL w.1) Fld.PRT_WIT_CTRL_MISMATCH
      let d := (d.setReg (Reg.PRT_WIT_LAST w.1) v).setReg (Reg.PRT_WIT_STROKE w.1) (stroke % 2 ^ 32)
      (d.count (Reg.PRT_WIT_MISMATCH_CNT w.1)).coachSource p 2

/-- The port has sent `n` more pixels to its present stop; after the last stop it is done with the stroke (R210). -/
def Dev.coachForward (d : Dev) (p : Nat) (r : StrokeRun) (s : Stop) (n : Nat) : Dev :=
  let c := d.coach p
  if c.at_ + n < s.pixels then d.setCoach p { c with at_ := c.at_ + n }
  else match (portStops r.version p).find? fun t => s.addr < t.addr with
    | some t => d.setCoach p { c with stop := t.addr, at_ := 0, last := none }
    | none =>
      let d := d.setCoach p (c.restart (strokeAdd r.stroke 1))
      c.wits.foldl (fun (d : Dev) w => d.witnessEnd p r.stroke c w) d

/-- A parcel is unavailable to a port (R219): once per parcel and port, and once at DEP. -/
def Dev.underrun (d : Dev) (p stroke : Nat) (q : Parcel) : Dev :=
  let c := d.coach p
  if c.missed.contains (q.region, q.number) then d
  else
    let d := d.setCoach p { c with missed := c.missed ++ [(q.region, q.number)] }
    let d := if q.missed then d else (d.count Reg.DEP_UNDERRUN_CNT).mapParcel stroke q.region q.number fun x => { x with missed := true }
    ((d.count (Reg.CPT_UNDERRUN p)).setFlag (Reg.CPT_EVENT p) Fld.CPT_EVENT_UNDERRUN).coachSource p 0

/-- The slack of a port in ns (R228): what its output buffer holds at 13.125 B/ns, rounded down (log 54), and the wait for open(`m`). -/
def slackOf (buffered wait : Nat) : Nat := buffered * 1000 / 13125 + wait

/-- Publish a port's slack, in ns, and mark it crossing below its threshold (R228). -/
def Dev.publishSlack (d : Dev) (p ns : Nat) : Dev :=
  let old := d.reg (Reg.CPT_SLACK p)
  let new := min ns slackIdle
  let mark := d.fld (Reg.CPT_SLACK_MARK p) Fld.CPT_SLACK_MARK_NS
  let d := d.setReg (Reg.CPT_SLACK p) new
  if mark ≤ old && new < mark then
    ((d.setFlag (Reg.CPT_EVENT p) Fld.CPT_EVENT_SLACK_LOW).count (Reg.CPT_SLACK_LOW_CNT p)).coachSource p 3
  else d

/-- Whether a CONFIG frame goes before the pixels of a stroke (R212). -/
def Coach.configBefore (c : Coach) (stroke : Nat) : Bool := c.configs.any fun e => strokeGe stroke e.2

/-- The stroke, stop entry and position that a port's next pixels have; none where it sends none now (R210, R213, R218). -/
def Dev.coachReady (d : Dev) (p : Nat) : Option (StrokeRun × List Stop) :=
  let c := d.coach p
  if !d.coachSends p || c.marker.isSome || c.holdDue || (c.state == 3 && !c.withdrawn.isEmpty) then none
  else match d.coachTarget p with
    | none => none
    | some r =>
      let ss := portStops r.version p
      let begun := c.begun && c.next == r.stroke
      if c.configBefore r.stroke || !(begun || d.mayBegin r ss) then none else some (r, ss)

/-- A port waits for open(`m`): it has a stroke to send and has not begun it, or its next stroke has not been dealt yet (R210, R228). -/
def Dev.waitsOpen (d : Dev) (p : Nat) : Bool :=
  match d.coachTarget p with
  | some r => !((d.coach p).begun && (d.coach p).next == r.stroke)
  | none => !(portStops d.regs p).isEmpty

/-- A port that sends strokes publishes its slack (R228); the wait counts while it waits for open(`m`). -/
def Dev.coachSlack (d : Dev) (p buffered wait : Nat) : Dev :=
  if d.coachSends p then d.publishSlack p (slackOf buffered (if d.waitsOpen p then wait else 0)) else d

/-- The blocks that a packer reads for a segment, as numbers of software memory or of staging (R278). -/
def Dev.segmentBlocks (d : Dev) (r : StrokeRun) (g : Segment) : List Nat := blocksOf (d.pixelPlace r g.x g.y) (6 * g.n)

/-- Whether a block that a packer reads fails: now, or because it is damaged. -/
def Dev.packerFails (d : Dev) (r : StrokeRun) (bad : List Nat) (b : Nat) : Bool :=
  bad.contains b || (if r.racing then d.stagingDamaged.contains b else d.isDamaged b)

/-- A packer's read fails its check: its ladder begins (Table 12.2). -/
def Dev.packerLadder (d : Dev) (p : Nat) (r : StrokeRun) (g : Segment) (b : Nat) : Dev :=
  match g.parcel with
  | none => d
  | some q =>
    let d := if r.racing then d.count Reg.DEP_BLOCK_FAIL_CNT else d.blockFailed b
    { d with ladders := d.ladders ++
      [{ kind := 3, unit_ := p, block := b, stroke := r.stroke, region := q.region, parcel := q.number, staging := r.racing }] }

/-- The packer's check of a parcel of a stroke that Lull replays fails: what the store holds has not the PCV of the stroke that composed it
(R441). -/
def Dev.replayFails (d : Dev) (r : StrokeRun) (q : Parcel) : Bool :=
  r.stroke != r.composedAs &&
    pcvOf r q ((List.range q.h).flatMap fun b => pixelsOf q.w (d.storeRead r q.x (q.y + b) q.w)) != q.pcv

/-- Send the segments of a run as one PIXELS frame (R205, R210). -/
def Dev.sendRun (d : Dev) (p : Nat) (r : StrokeRun) (s : Stop) (gs : List Segment) : Dev :=
  let c := d.coach p
  let count := gs.foldl (fun a g => a + g.n) 0
  let bytes := gs.flatMap fun g => d.storeRead r g.x g.y g.n
  let px := pixelsOf count bytes
  let last := px.getLast?.map fun b => (s.addr, leNat (b.take 2), leNat ((b.drop 2).take 2), leNat ((b.drop 4).take 2))
  let flags := if s.pixels ≤ c.at_ + count then 1 else 0
  let d := d.coachFrame p 1 flags s.addr s.depth (r.stroke % 2 ^ 16) (s.lineOf c.at_) (s.pixelOf c.at_) count
    (packPixels s.d (px.flatMap storedFields))
  let d := gs.foldl (fun (d : Dev) (g : Segment) =>
    let bs := d.storeRead r g.x g.y g.n
    let d := d.setCoach p ((d.coach p).witness g (some bs))
    match g.parcel with
    | some q => d.mapParcel r.stroke q.region q.number fun x => { x with began := x.began + 1 }
    | none => d) d
  (d.setCoach p { d.coach p with last := last <|> c.last }).coachForward p r s count

/-- Send a segment of an unavailable parcel: SKIP, or pixels that repeat the last one (R219). -/
def Dev.sendMissing (d : Dev) (p : Nat) (r : StrokeRun) (s : Stop) (g : Segment) : Dev :=
  let d := match g.parcel with
    | some q => d.underrun p r.stroke q
    | none => d
  let c := d.coach p
  let n := min g.n s.runMax
  let flags := if s.pixels ≤ c.at_ + n then 1 else 0
  let line := s.lineOf c.at_
  let x := s.pixelOf c.at_
  let stroke := r.stroke % 2 ^ 16
  let d := if s.holdOk then (d.coachFrame p 2 flags s.addr 0 stroke line x n []).count (Reg.CPT_SKIP_CNT p)
    else
      let f := match c.last with
        | some v => [v.2.1, v.2.2.1, v.2.2.2]
        | none => [0, 0, 0]
      (d.coachFrame p 1 (flags + 2) s.addr s.depth stroke line x n (packPixels s.d (List.replicate n f).flatten)).count
        (Reg.CPT_REPEAT_CNT p)
  (d.setCoach p ((d.coach p).witness { g with n } none)).coachForward p r s n

/-- A parcel's PCV record cannot be read (R291): the parcel counts as not sealed, and is recomposed. -/
def Dev.recordLost (d : Dev) (p : Nat) (r : StrokeRun) (q : Parcel) : Dev :=
  let d := d.reservedLost contentPcvs (d.pcvBlock r.stroke q.region q.number)
  (d.mapParcel r.stroke q.region q.number fun x => { x with st := .sealFailed }).addJob .record r.stroke q.region q.number p

/-- The packer reads the blocks of segments whose parcels have passed: the frame is sent, or the ladders of what fails begin in its place
(Table 12.2): of blocks, and of parcels that Lull replays, for which re-read and repair of a block have nothing to serve (DEDUCED, log 58). -/
def Dev.packerRead (d : Dev) (p : Nat) (r : StrokeRun) (s : Stop) (bad : List Nat) (gs : List Segment) : Dev :=
  let d := d.memWake (if r.racing then [] else gs.flatMap (d.segmentBlocks r))
  let fails := gs.flatMap fun g => ((d.segmentBlocks r g).filter (d.packerFails r bad)).map fun b => (g, b)
  let wrong := (gs.filterMap (·.parcel)).filter (d.replayFails r)
  if !fails.isEmpty then fails.foldl (fun (d : Dev) (e : Segment × Nat) => d.packerLadder p r e.1 e.2) d
  else if !wrong.isEmpty then wrong.eraseDups.foldl (fun (d : Dev) q => d.addJob .packer r.stroke q.region q.number p) d
  else d.sendRun p r s gs

/-- A PIXELS frame (R210, R211, R219): of the run that is ready, or of a segment that repeats. `record` is the read of the first parcel's PCV
record in reserved memory (R291). -/
def Dev.pixels (d : Dev) (p : Nat) (bad : List Nat) (record : Ecc) : Dev :=
  match d.coachReady p with
  | none => d
  | some x =>
    let r := x.1
    let d := d.coachBegin p r x.2
    let c := d.coach p
    match stopAt r.version p c.stop with
    | none => d
    | some s =>
      match (if r.routeLost p s then [] else d.readySegments r s s.runMax c.at_ s.runMax) with
      | [] => if s.holdOk then d else d.sendMissing p r s (s.segment r c.at_)
      | g :: gs =>
        match record, g.parcel with
        | .bad, some q => d.recordLost p r q
        | _, some q => (d.reserved record contentPcvs (d.pcvBlock r.stroke q.region q.number) 0 r.stroke q.region q.number).packerRead p r s bad (g :: gs)
        | _, none => d.packerRead p r s bad (g :: gs)

/-- Whether a witness rectangle covers a pixel that an entry carries. -/
def Stop.witnessed (s : Stop) (pos size : Nat) : Bool :=
  (List.range (s.pixels / s.w)).any fun k => (witnessCut pos size ⟨s.x, s.y + s.lineOf (k * s.w), s.w, none⟩).isSome

/-- A port has skipped all of a withdrawn stroke: each witness of the stroke with a covered pixel counts it (R227). -/
def Dev.withdrawnWitnesses (d : Dev) (p : Nat) (ss : List Stop) : Dev :=
  let c := d.coach p
  (c.wits.filter fun w => ss.any fun s => s.witnessed w.2.1 w.2.2.1).foldl
    (fun (d : Dev) w => d.count (Reg.PRT_WIT_SKIP_CNT w.1)) (d.setCoach p { c with wits := [] })

/-- A SKIP frame for the first stroke that a REFRAME withdrew (R218), with the version kept for it. -/
def Dev.skipWithdrawn (d : Dev) (p m : Nat) : Dev :=
  let run := d.prt.strokes.find? fun r => r.withdrawn && r.stroke == m
  let version := match run with
    | some r => r.version
    | none => d.regs
  let begins := (d.coach p).skipStop == 0 && (d.coach p).skipAt == 0
  let d := (match begins, run with
    | true, some r => d.setCoach p { d.coach p with wits := d.witnesses p r.phase }
    | _, _ => d)
  let c := d.coach p
  match (portStops version p).find? fun s => c.skipStop ≤ s.addr with
  | none => d.setCoach p { c with withdrawn := c.withdrawn.drop 1, skipStop := 0, skipAt := 0 }
  | some s =>
    let n := min 4368 (s.pixels - c.skipAt)
    let done := s.pixels ≤ c.skipAt + n
    let d := (d.coachFrame p 2 (if done then 1 else 0) s.addr 0 (m % 2 ^ 16) (s.lineOf c.skipAt) (s.pixelOf c.skipAt) n []).count
      (Reg.CPT_SKIP_CNT p)
    let more := (portStops version p).any fun t => s.addr < t.addr
    let d := if done && !more then d.withdrawnWitnesses p (portStops version p) else d
    let c := d.coach p
    d.setCoach p (if !done then { c with skipStop := s.addr, skipAt := c.skipAt + n }
      else if more then { c with skipStop := s.addr + 1, skipAt := 0 }
      else { c with withdrawn := c.withdrawn.drop 1, skipStop := 0, skipAt := 0 })

/-- A SKIP frame: for a withdrawn stroke, or for a segment of an unavailable parcel to a hold-capable stop (R218, R219). -/
def Dev.skip (d : Dev) (p : Nat) : Dev :=
  let c := d.coach p
  match c.state == 3, c.withdrawn with
  | true, m :: _ => if d.coachSends p && !c.holdDue && !c.configBefore m then d.skipWithdrawn p m else d
  | _, _ => match d.coachReady p with
    | none => d
    | some x =>
      let d := d.coachBegin p x.1 x.2
      match stopAt x.1.version p (d.coach p).stop with
      | none => d
      | some s =>
        let g := s.segment x.1 (d.coach p).at_
        if s.holdOk && (x.1.routeLost p s || !d.segmentReady x.1.stroke g) then d.sendMissing p x.1 s g else d

/-- The stroke marker of the stroke in progress (R213, Table 9.6). -/
def Dev.strokeMarker (d : Dev) (p delay : Nat) : Dev :=
  let c := d.coach p
  match c.state, c.marker with
  | 2, some m =>
    let shows := match d.captureFor m with
      | some x => x.show_
      | none => []
    let d := d.setCoach p { c with marker := none }
    (d.coachFrame p 3 0 0xFF 0 (m % 2 ^ 16) 0 0 0
      (leBytes 4 (shows.getD d.stk.phase 0) ++ leBytes 4 delay ++ leBytes 2 (d.coachNext p) ++ leBytes 1 d.stk.phase ++
        leBytes 1 0 ++ leBytes 4 d.stk.cframe)).count (Reg.CPT_MARKER_CNT p)
  | _, _ => d

/-- A HOLD frame (R218). -/
def Dev.holdFrame (d : Dev) (p : Nat) : Dev :=
  let c := d.coach p
  if c.state != 3 then d
  else (d.setCoach p { c with holdDue := false }).coachFrame p 4 0 0xFF 0 0 0 0 0 (leBytes 2 (d.coachNext p) ++ leBytes 2 0)

/-- A CONTROL frame of kind CONFIG (R212, Table 9.7): `EFFECTIVE` is the stroke that the frame was asked for,
or the next that the port sends where that is later; the fields are those of the version that governs it. A waiting marker and a HOLD frame that is due go first (R213,
R217). -/
def Dev.configFrame (d : Dev) (p : Nat) : Dev :=
  let c := d.coach p
  match c.configs, c.state < 2 || c.marker.isSome || c.holdDue with
  | [], _ | _, true => d
  | e :: es, false =>
    let eff := if strokeGe e.2 (d.coachNext p) then e.2 else d.coachNext p
    let version := d.versionFor eff
    let d := d.setCoach p { c with configs := es }
    match stopAt version p e.1 with
    | none => d
    | some s =>
      d.coachFrame p 5 0 s.addr 0 0 0 0 0
        (leBytes 1 1 ++ leBytes 1 0 ++ leBytes 2 eff ++ leBytes 2 (s.w - 1) ++ leBytes 2 (s.h - 1) ++ leBytes 1 s.depth ++
          leBytes 1 (s.splitG - 1 + 8 * s.splitI) ++ leBytes 1 s.buf ++ leBytes 1 (if s.holdOk then 1 else 0) ++ leBytes 4 s.path ++
          leBytes 16 0)

/-- Whether a port has something to send before an IDLE frame (R202): a marker, a HOLD or CONFIG frame, strokes to skip, or the rest
of a stroke that it has begun. -/
def Dev.coachWaits (d : Dev) (p : Nat) : Bool :=
  let c := d.coach p
  c.marker.isSome || c.holdDue || !c.configs.isEmpty || (c.state == 3 && d.coachSends p && !c.withdrawn.isEmpty) ||
    match d.coachReady p with
    | some x => c.begun && c.next == x.1.stroke
    | none => false

/-- An IDLE frame of `n` zero bytes, where nothing else is to be sent (R202). -/
def Dev.idleFrame (d : Dev) (p n : Nat) : Dev :=
  if (d.coach p).state < 2 || d.coachWaits p then d else d.coachFrame p 6 0 0xFF 0 0 0 0 0 (List.replicate n 0)

/-! ### What composite steps ask of the ports -/

/-- A stroke has been dealt: in every 64th stroke each stop has a CONFIG frame (R212), in those whose number is a multiple
of 64 (log 18). -/
def Dev.coachDealt (d : Dev) (s : Nat) : Dev :=
  if s % 64 != 0 then d
  else (d.portsOf 1).foldl (fun (d : Dev) (p : Nat) =>
    let c := d.coach p
    if c.state < 2 then d
    else d.setCoach p { c with configs := (c.configs ++ (portStops d.regs p).map fun t => (t.addr, s)).eraseDups }) d

/-- A tick: the markers of the stroke wait on every port in RUN (R213). -/
def Dev.coachTick (d : Dev) : Dev :=
  (d.portsOf 1).foldl (fun (d : Dev) (p : Nat) =>
    let c := d.coach p
    if c.state != 2 then d
    else
      let c := if (portStops d.regs p).isEmpty && strokeGe d.stk.stroke c.next then c.restart d.nextStroke else c
      d.setCoach p { c with marker := some d.stk.stroke }) d

/-- A REFRAME withdraws the strokes after the present one: a port that has begun one drops it, and has each to skip (R218). -/
def Dev.coachWithdraw (d : Dev) (gone : List Nat) : Dev :=
  (d.portsOf 1).foldl (fun (d : Dev) (p : Nat) =>
    let c := d.coach p
    if c.state < 2 then d
    else
      let c := if strokeGe c.next d.nextStroke then c.restart d.nextStroke else c
      d.setCoach p { c with withdrawn := gone }) d

/-! ### The commands -/

/-- A host write of a register of a Coach port's page; nothing where the port has another role. -/
def Dev.onCoach (d : Dev) (p key : Nat) (f : Dev → Dev) : Dev :=
  if d.role p == 1 || d.role p == 0 then d.onWrite (key % 0x10000000) f else d

def execCoachCommit (port : Fin 128) (data : Word) (ecc : ShadowEcc) (s : State) : Host.Outcome State Fault Refusal :=
  s.apply fun d => d.onCoach port (Reg.CPT_COMMIT port) fun d =>
    d.mirrored (Reg.CPT_COMMIT port % 0x10000000) data.toNat fun d => d.writeCommit port data.toNat ecc

/-- A PIXELS frame, with the port's slack as it stands (R228), where a port that can send waits no more; `record` says that the PCV record
stays damaged after one re-read, `again` that its first read failed and the re-read passed (R291). -/
def execPixels (port : Fin 128) (buffered : Fin 65537) (bad : List Nat) (record : Bool) (s : State) (wait : Nat := 0) (again : Bool := false) :
    Host.Outcome State Fault Refusal :=
  s.apply fun d => (d.coachSlack port buffered (if (d.coachReady port).isSome then 0 else wait)).pixels port bad
    (if record then .bad else if again then .corrected else .good)

def execSkip (port : Fin 128) (s : State) (buffered : Fin 65537 := 0) (wait : Nat := 0) : Host.Outcome State Fault Refusal :=
  s.apply fun d => (d.coachSlack port buffered wait).skip port

def execStrokeMarker (port : Fin 128) (delay : Nat) (s : State) : Host.Outcome State Fault Refusal :=
  s.apply fun d => d.strokeMarker port delay

def execHold (port : Fin 128) (s : State) : Host.Outcome State Fault Refusal := s.apply fun d => d.holdFrame port

def execConfig (port : Fin 128) (s : State) : Host.Outcome State Fault Refusal := s.apply fun d => d.configFrame port

def execIdle (port : Fin 128) (length : Nat) (s : State) (buffered : Fin 65537 := 0) (wait : Nat := 0) : Host.Outcome State Fault Refusal :=
  s.apply fun d => (d.coachSlack port buffered wait).idleFrame port length

/-- A write of 1 to `RETRAIN`, the other fields as they stand (R217). -/
def execCoachRetrain (port : Fin 128) (s : State) : Host.Outcome State Fault Refusal :=
  s.apply fun d => d.onCoach port (Reg.CPT_CTRL port) fun d => d.hostCoachCtrl port (d.reg (Reg.CPT_CTRL port) ||| 2)

def execCoachEn (port : Fin 128) (data : Word) (s : State) : Host.Outcome State Fault Refusal :=
  s.apply fun d => d.onCoach port (Reg.CPT_CTRL port) fun d => d.hostCoachCtrl port data.toNat

def execTrainDone (port : Fin 128) (s : State) : Host.Outcome State Fault Refusal := s.apply fun d => d.coachTrained port

end Sys2Proof.Machine
end

