-- ==== Sys2Proof/Machine/Checks.lean ====
section
/-! DEFINITION. Scrub (R297), power-down of the memory controllers (R298), the error log's index (R299), the SECDED of the
control stores (R291, R295, R296) and the register writes of DEP and MEM. -/

namespace Sys2Proof.Machine

/-! ### Scrub -/

/-- The first block from `b` on that a scrub pass reads: the STROKE partitions are passed over; none past the end of memory. -/
def Dev.scrubFrom (d : Dev) (b : Nat) : Nat → Option Nat
  | 0 => none
  | fuel + 1 =>
    if memEnd ≤ b * 256 then none
    else match d.wb.parts.find? fun p => p.kind == 4 && p.base * partUnit ≤ b * 256 && b * 256 < (p.base + p.size) * partUnit with
      | some p => d.scrubFrom ((p.base + p.size) * partUnit / 256) fuel
      | none => some b

/-- The end of a scrub pass. -/
def Dev.scrubEnd (d : Dev) : Dev :=
  let d := { d with scrub := none }
  ((d.setFld Reg.DEP_STATUS Fld.DEP_STATUS_SCRUB_ACTIVE 0).depEvent Fld.DEP_EVENT_SCRUB_DONE).raise 0x4305

/-- Scrub stops: `SCRUB_HOURS` is 0. -/
def Dev.scrubOff (d : Dev) : Dev := { d with scrub := none }.setFld Reg.DEP_STATUS Fld.DEP_STATUS_SCRUB_ACTIVE 0

/-- DEP reads the next block of a pass, or the first of a new one; `fails` says that its check fails (R297). -/
def Dev.scrubRead (d : Dev) (fails : Bool) : Dev :=
  if d.fld Reg.DEP_CTRL Fld.DEP_CTRL_SCRUB_HOURS == 0 || !d.loaded || d.sdp.power == 3 || d.boot.flush then d
  else
    let fuel := d.wb.parts.length + 1
    match d.scrubFrom (d.scrub.getD 0) fuel with
    | none => d.scrubEnd
    | some b =>
      let d := (d.memWake [b]).setFld Reg.DEP_STATUS Fld.DEP_STATUS_SCRUB_ACTIVE 1
      let d := if fails || d.isDamaged b then
          let d := d.blockFailed b
          { d with ladders := d.ladders ++ [{ kind := 10, unit_ := d.stackOf (b * 256), block := b, stroke := d.stk.stroke }] }
        else d
      match d.scrubFrom (b + 1) fuel with
      | none => d.scrubEnd
      | some n => { d with scrub := some n }

/-! ### Power-down of the memory controllers -/

/-- The least slack over all Coach ports lets a controller power down (R298). -/
def Dev.slackAllows (d : Dev) : Bool :=
  (d.portsOf 1).all fun p => d.fld Reg.MEM_PD_CTRL Fld.MEM_PD_CTRL_EXIT_NS + 2000 < d.reg (Reg.CPT_SLACK p)

/-- Bit `c` of `MEM_STATUS.PD`. -/
def Dev.poweredDown (d : Dev) (c : Nat) : Bool := bit (d.reg Reg.MEM_STATUS) c

/-- A controller that has been idle for `IDLE_NS` enters power-down (R298). -/
def Dev.memPowerDown (d : Dev) (c : Nat) : Dev :=
  if !d.boot.mem || d.sdp.power == 3 || !d.flag Reg.MEM_PD_CTRL Fld.MEM_PD_CTRL_EN || d.poweredDown c || !d.slackAllows then d
  else (d.setReg Reg.MEM_STATUS (d.reg Reg.MEM_STATUS + 2 ^ c)).count (Reg.MEM_PD_CNT c)

/-- A write of `MEM_PD_CTRL` (R298, Table 12.9). -/
def Dev.writeMemPd (d : Dev) (v : Nat) : Dev :=
  if Fld.MEM_PD_CTRL_EXIT_NS.get v < 200 then d.refuse Reg.MEM_BLKID 1 else d.genericWrite Reg.MEM_PD_CTRL v

/-! ### The control stores -/

/-- Whether an offset holds a word of the live copies that SECDED covers: layer descriptors, stacks and recipes, phase map,
route maps (Table 12.4). -/
def isLiveWord (w : Nat) : Bool :=
  w % 4 == 0 &&
  (w == Reg.PRT_PARCEL_LIVE || (Reg.PRT_PMAP_LO_LIVE 0 ≤ w && w < Reg.PRT_PMAP_LO_LIVE 16) ||
   (Reg.PRT_LD_CTRL_LIVE 0 ≤ w && w < Reg.PRT_LD_CTRL_LIVE 1024 && (w - Reg.PRT_LD_CTRL_LIVE 0) % 0x100 < 0x30) ||
   (Reg.PRT_SK_CTRL_LIVE 0 ≤ w && w < Reg.PRT_SK_CTRL_LIVE 64 && (w - Reg.PRT_SK_CTRL_LIVE 0) % 0x1000 < 0x540) ||
   (Reg.CPT_RM_CTRL_LIVE 0 0 ≤ w && w < Reg.CPT_RM_CTRL_LIVE 128 0 && (w - Reg.CPT_RM_CTRL_LIVE 0 0) % 0x10000 < 0x800 &&
     (w - Reg.CPT_RM_CTRL_LIVE 0 0) % 0x20 < 20))

/-- What the SECDED of the control stores found (R291, R295, Table 12.4): a word of the live copies takes the value of the version kept for
the stroke dealt last; where that fails too, the word is lost, for that stroke as well. -/
def Dev.controlChecked (d : Dev) (ecc : ControlEcc) : Dev :=
  if !d.loaded then d
  else match ecc with
  | .none => d
  | .corrected => d.secdedCorrected
  | .live w restored =>
    if !isLiveWord w then d
    else match restored, d.prt.strokes.getLast? with
      | true, some r => (d.secdedBad storeLive 7).setReg w (r.version.get resetWord w).toNat
      | _, last =>
        let d := (d.secdedBad storeLive 0).controlLost w
        let hit (x : StrokeRun) : Bool := match last with | some r => x.stroke == r.stroke && x.withdrawn == r.withdrawn | none => false
        d.mapRuns hit fun x => { x with lost := insertSorted x.lost w }
  | .kept stroke w =>
    match d.runOf stroke with
    | none => d
    | some r =>
      if !isLiveWord w then d
      else if r.version.get resetWord w == d.regs.get resetWord w && !d.prt.lost.contains w then d.secdedBad storeKept 7 stroke
      else (d.secdedBad storeKept 0 stroke).mapRuns (fun x => x.stroke == stroke && !x.withdrawn) fun x => { x with lost := insertSorted x.lost w }
  | .fence => d.secdedBad storeFence 7
  | .directoryAgain k => d.reserved .corrected contentDirectory k 0 d.stk.stroke
  | .directory k => (d.reserved .bad contentDirectory k 0 d.stk.stroke).controlLost (Reg.STL_SK_STATE k)

/-! ### Register writes of DEP -/

def depLambdaRunning : Nat := 1
def depLambdaRange : Nat := 2
def depRingClass : Nat := 3

/-- A write of `DEP_LAMBDA` (R285). -/
def Dev.writeLambda (d : Dev) (v : Nat) : Dev :=
  let us := Fld.DEP_LAMBDA_US.get v
  if d.stk.timing != 0 then d.refuse Reg.DEP_BLKID depLambdaRunning
  else if us < 20 || 2000 < us then d.refuse Reg.DEP_BLKID depLambdaRange
  else d.genericWrite Reg.DEP_LAMBDA v

/-- A write of `DEP_CTRL`: a `SCRUB_HOURS` of 0 ends a pass. -/
def Dev.writeDepCtrl (d : Dev) (v : Nat) : Dev :=
  let d := d.genericWrite Reg.DEP_CTRL v
  if Fld.DEP_CTRL_SCRUB_HOURS.get v == 0 then d.scrubOff else d

/-- A write of `DEP_LOG_RING` (Table 12.7). -/
def Dev.writeLogRing (d : Dev) (v : Nat) : Dev :=
  let c := d.ringClass (Fld.DEP_LOG_RING_RING.get v)
  if Fld.DEP_LOG_RING_EN.get v == 1 && c != classComplete && c != classGeneral then d.refuse Reg.DEP_BLKID depRingClass
  else d.genericWrite Reg.DEP_LOG_RING v

/-- A write of `DEP_LOG_INDEX`: the selected entry's block in reserved memory is read under its check; where it stays damaged the entry
reads with `KIND` 0 (R291, R299). The failed check is an entry of its own. -/
def Dev.writeLogIndex (d : Dev) (v : Nat) (ecc : Ecc) : Dev :=
  let d := d.setReg Reg.DEP_LOG_INDEX v
  let d := if ecc == .bad then d.logDamaged v else d
  (d.reserved ecc contentLogs (v % 524288 / 8) 0 d.stk.stroke).showLog

/-! ### The commands -/

def execScrubRead (fails : Bool) (s : State) : Host.Outcome State Fault Refusal := s.apply fun d => d.scrubRead fails

def execMemPowerDown (controller : Fin 8) (s : State) : Host.Outcome State Fault Refusal := s.apply fun d => d.memPowerDown controller

def execMemPowerUp (controller : Fin 8) (s : State) : Host.Outcome State Fault Refusal := s.apply fun d => d.memPowerUp controller

/-- A write of `DEP_LOG_INDEX`; `bad` says that the entry's block in reserved memory stays damaged after one re-read, `again` that the
first read failed and the re-read passed. -/
def execLogIndex (data : Word) (bad : Bool) (s : State) (again : Bool := false) : Host.Outcome State Fault Refusal :=
  s.apply fun d => d.onWrite Reg.DEP_LOG_INDEX fun d =>
    d.writeLogIndex data.toNat (if bad then .bad else if again then .corrected else .good)

end Sys2Proof.Machine
end

