-- ==== Sys2Proof/Machine/Host.lean ====
section
/-! DEFINITION. The host interface: BAR2 and its aperture (R23, R32 to R34, R281), GLB (R39, R40, R53) and the bridge
(R14 to R16). -/

namespace Sys2Proof.Machine

/-- The GLB reason codes (Table 2.16). -/
def glbApertureRange : Nat := 1
def glbResetSequence : Nat := 2

/-! ### The function's identity -/

/-- The double words of the configuration header that Table 2.1 fixes: vendor and device ID, and class code above the revision, which
it does not give. The table of commands has no configuration request (log 49). -/
def configIdentity (revision : Byte) : Nat → Option Nat
  | 0x00 => some (0x3812 * 2 ^ 16 + 0x1F5A)
  | 0x08 => some (0x038000 * 2 ^ 8 + revision.toNat)
  | _ => none

/-- The sizes of BAR0 and BAR2 (Table 2.1). -/
def bar0Size : Nat := 64 * 2 ^ 20
def bar2Size : Nat := 16 * 2 ^ 30

/-! ### The aperture -/

/-- A write of `GLB_APERTURE` (R32). -/
def Dev.writeAperture (d : Dev) (v : Nat) : Dev :=
  if 112 < Fld.GLB_APERTURE_BASE.get v then d.refuse Reg.GLB_BLKID glbApertureRange else d.genericWrite Reg.GLB_APERTURE v

/-- The device address of a BAR2 offset (R33). -/
def Dev.bar2Addr (d : Dev) (off : Nat) : Nat := d.reg Reg.GLB_APERTURE * 2 ^ 30 + off

/-- Whether a BAR2 access finds memory: MEM released, and the device not in Rest (R446, R457). -/
def Dev.memAnswers (d : Dev) : Bool := d.boot.mem && !d.boot.flush && d.sdp.power != 3

/-- Whether the security state forbids a BAR2 read of a range: in Sealed, content partitions, and all software memory
while no waybill is loaded (Table 19.3). -/
def Dev.bar2Forbidden (d : Dev) (a n : Nat) : Bool :=
  d.sdp.sec == 1 && a < memEnd &&
    (d.wblState != 2 || d.wb.parts.any fun p => p.kind != 0 && !(apart a n (p.base * partUnit) (p.size * partUnit)))

/-- An access of BAR2 that the block does not answer (R39). The address that `GLB_ERR_FAR_ADDR` takes is not stated for
BAR2, and is free. -/
def Dev.bar2Far (d : Dev) (write : Bool) : Dev :=
  let r := d.freshNat
  r.2.farError (r.1 % 2 ^ 26) write

/-- A BAR2 read (R23, R34, R281, Tables 2.6, 19.3); `bad` lists blocks whose check fails on this access, once for
each of its two reads that fails. -/
def Dev.bar2Read (d : Dev) (off n : Nat) (bad : List Nat) : Dev :=
  let a := d.bar2Addr off
  if d.bar2Forbidden a n then d.emit (.bytes false (List.replicate n 0))
  else if memEnd < a + n then d.emit .unsupported
  else if !d.memAnswers then (d.bar2Far false).emit (.bytes false (List.replicate n 0))
  else
    let blocks := blocksOf a n
    let d := d.memWake blocks
    let d := d.failBlocks false (blocks.filter d.isDamaged ++ bad.filter blocks.contains)
    let poisoned := d.rangeDamaged a n
    let d := if poisoned then
        (d.count Reg.DEP_POISON_READ_CNT).depLog
          { kind := 11, outcome := 0, stroke := d.stk.stroke, addr := (blocks.find? d.isDamaged).getD 0 * 256 }
      else d
    d.emit (.bytes poisoned (d.memRead a n))

/-- A BAR2 write (R23, R25, R34). -/
def Dev.bar2Write (d : Dev) (off : Nat) (bs : List Byte) (bad : List Nat) : Dev :=
  let a := d.bar2Addr off
  if memEnd < a + bs.length then
    let r := d.freshNat
    r.2.busError (r.1 % 2 ^ 26)
  else if !d.memAnswers then d.bar2Far true
  else d.memStore a bs bad

/-! ### The reset key -/

def Dev.resetArmed (d : Dev) : Bool := d.flag Reg.GLB_RESET_KEY Fld.GLB_RESET_KEY_ARMED

/-- Disarm, and refuse with RESET_SEQUENCE (R53). -/
def Dev.resetKeyBroken (d : Dev) : Dev := (d.setReg Reg.GLB_RESET_KEY 0).refuse Reg.GLB_BLKID glbResetSequence

/-! ### The bridge -/

/-- How often in a row a transfer has failed its check (R16). -/
def Dev.transferFails (d : Dev) (transfer : Nat) : Nat := d.bridgeFails.get (fun _ => 0) transfer

def Dev.setTransferFails (d : Dev) (transfer n : Nat) : Dev :=
  { d with bridgeFails := d.bridgeFails.set (fun _ => 0) transfer n }

/-- The bridge goes down (R16): status, log entry, source 0x43F0. -/
def Dev.bridgeDown (d : Dev) : Dev :=
  let d := d.setFlag Reg.DEP_STATUS Fld.DEP_STATUS_BRIDGE_DOWN
  (d.depLog { kind := 9, outcome := 0, stroke := d.stk.stroke }).raise 0x43F0

/-! ### The commands -/

/-- A transfer arrives: its check passes (R14). Nothing crosses a bridge that is down. -/
def execBridgeTransfer (s : State) (transfer : Nat := 0) : Host.Outcome State Fault Refusal :=
  s.apply fun d => if d.bridgeIsDown then d else d.setTransferFails transfer 0

def execBar2Read (offset length : Nat) (bad : List Nat) (s : State) : Host.Outcome State Fault Refusal :=
  s.apply fun d => d.bar2Read offset length bad

def execBar2Write (offset : Nat) (data : List Byte) (bad : List Nat) (s : State) : Host.Outcome State Fault Refusal :=
  s.apply fun d => d.bar2Write offset data bad

/-- The fabric ends an access that a block did not answer; an absent block or an offset of no register takes its own row
of Table 2.6 (R39). -/
def execFarAccessTimeout (offset : Nat) (write : Bool) (s : State) : Host.Outcome State Fault Refusal :=
  s.apply fun d =>
    match d.access offset with
    | .fallback => if write then d else d.emit (.completion 0)
    | .unmapped => if write then d.busError offset else d.emit .unsupported
    | _ => if write then d.farError offset true else (d.farError offset false).emit (.completion 0)

/-- A read of `GLB_FLUSH`: every earlier command has taken effect, so it completes with 0 (R40, Table 2.14). -/
def execGlbFlush (s : State) : Host.Outcome State Fault Refusal :=
  s.apply fun d => d.onRead Reg.GLB_FLUSH fun d => (0, d)

def execGlbAperture (data : Word) (s : State) : Host.Outcome State Fault Refusal :=
  s.apply fun d => d.onWrite Reg.GLB_APERTURE fun d => d.writeAperture data.toNat

/-- A write of 0x6A6A: it arms; while armed it is a broken sequence (R53). -/
def execResetKeyArm (s : State) : Host.Outcome State Fault Refusal :=
  s.apply fun d => d.onWrite Reg.GLB_RESET_KEY fun d =>
    if d.resetArmed then d.resetKeyBroken else d.setReg Reg.GLB_RESET_KEY 0x10000

def execResetKeyTimeout (s : State) : Host.Outcome State Fault Refusal :=
  s.apply fun d => if d.resetArmed then d.resetKeyBroken else d

end Sys2Proof.Machine
end

