-- ==== Sys2Proof/Machine/Reset.lean ====
section
/-! DEFINITION. Resets and their reach (R454 to R458, Table 20.3), the boot sequence (R457, R460 to R463) and flash access
(R464 to R466). -/

namespace Sys2Proof.Machine

/-- Kinds of reset, the widest first (R458). -/
def ResetKind.rank : ResetKind → Nat
  | .cold => 0
  | .warm => 1
  | .functionLevel => 2
  | .software => 3

/-- Whether a reset has a flush phase (R456). -/
def ResetKind.flushes (k : ResetKind) : Bool := k == .functionLevel || k == .software

/-- The reset that takes place: with the bridge down or a failed system PLL a function-level or software reset acts as a
warm one (R455), and within another reset the wider reach applies (R458). -/
def Dev.resetKind (d : Dev) (k : ResetKind) : ResetKind :=
  let k := if k.flushes && (d.bridgeIsDown || d.pllFailed) then .warm else k
  match d.boot.inReset with
  | some o => if o.rank < k.rank then o else k
  | none => k

/-- The offset of every `xxx_REFUSED_CNT`: these count since cold reset (R51). -/
def isRefusedCnt (off : Nat) : Bool :=
  (off < 0x120000 && off % 0x10000 == 8) || (0x10000000 ≤ off && off % 0x10000 == 8) ||
  (0x3000000 ≤ off && off < 0x3020000 && off % 0x1000 == 8)

/-- Whether a register keeps its value through a reset (Table 20.3): refusal counts, `SDP_WAKE_EN` and `SDP_AON_TIMER`
through all but a cold one; the scratch registers through a function-level or software one, as do the system and PCI
Express PLLs, which keep running; the MSI-X table through a software one. -/
def keepsReg (k : ResetKind) (off : Nat) : Bool :=
  k != .cold && (isRefusedCnt off || off == Reg.SDP_WAKE_EN || off == Reg.SDP_AON_TIMER ||
    (k.flushes && ((Reg.GLB_SCRATCH 0 ≤ off && off ≤ Reg.GLB_SCRATCH 3) ||
      (0x30100 ≤ off && off < 0x30180) || (0x30800 ≤ off && off < 0x30820) || off == Reg.CKG_REF_STATUS)) ||
    (k == .software && 0x8000 ≤ off && off < 0x9008))

/-- An erase or program under way is abandoned: the sectors it touches hold no stated content (R458, R466). -/
def Dev.abandonFlash (d : Dev) : Dev :=
  match d.boot.flashJob with
  | some (2, off, len, _) =>
    let a := off / 65536 * 65536
    let n := (off + len + 65535) / 65536 * 65536 - a
    let r := d.freshBytes n
    let torn := !(apart a n 0x1000000 65536)
    { r.2 with flash := r.2.flash.write flashDefault a r.1,
               boot := { r.2.boot with flashJob := none, trimTorn := r.2.boot.trimTorn || torn } }
  | _ => { d with boot := { d.boot with flashJob := none } }

/-- A cold reset while fuses are being programmed: the spec states no outcome, so a free choice decides it (log 9). -/
def Dev.fuseAtCold (d : Dev) : Dev :=
  if d.sdp.fuseJob == .none then d
  else
    let r := d.freshBool
    if r.1 then r.2.burn d.sdp.fuseJob else r.2

/-- The device as a reset leaves it, before its boot sequence: every block at its reset values but for what Table 20.3
keeps (R455). -/
def Dev.resetTo (d0 : Dev) (k : ResetKind) : Dev :=
  let d := (if k == .cold then d0.fuseAtCold else d0).abandonFlash
  let cold := k == .cold
  let base : Sdp := {}
  { now := d.now, free := d.free, out := d.out, fuses := d.fuses, flash := d.flash, hostMem := d.hostMem, tap := d.tap,
    regs := d.regs.filter fun e => keepsReg k e.1,
    mem := if cold then [] else d.mem,
    damaged := if cold then [] else d.damaged,
    weak := if cold then [] else d.weak,
    depLogged := if cold then [] else d.depLogged,
    ckg := if k.flushes then { d.ckg with plls := d.ckg.plls.filter (fun e => e.1 < 4 || e.1 == 36), heldOff := [] } else {},
    boot := { inReset := some k, bootsel := d.boot.bootsel, flashOk := d.boot.flashOk, flashSize := d.boot.flashSize,
              trim := if k.flushes then d.boot.trim else none, trimCause := if k.flushes then d.boot.trimCause else 0,
              toff := if k.flushes then d.boot.toff else [], trimTorn := d.boot.trimTorn },
    sdp := { base with
      sec := if cold then (if d.fuses.sealed then 1 else 0) else d.sdp.sec,
      stageKey := if cold then base.stageKey else d.sdp.stageKey,
      keyWritten := if cold then 0 else d.sdp.keyWritten,
      unlockFails := if cold then 0 else d.sdp.unlockFails,
      sealPending := !cold && d.sdp.sealPending,
      fuseJob := if cold then .none else d.sdp.fuseJob,
      audit := if cold then [] else d.sdp.audit, auditSeq := if cold then 0 else d.sdp.auditSeq,
      lifeMs := if cold then 0 else d.sdp.lifeMs, lifeEquiv := if cold then 0 else d.sdp.lifeEquiv } }

/-! ### The trim page (R462, R463, Table 20.8) -/

/-- Whether a 4 KiB page is a valid trim page of the device (R462). -/
def trimGood (page : List Byte) (serial : Nat) : Bool :=
  imgNat page 0 4 == 0x4D495254 && imgNat page 4 2 == 1 && imgNat page 8 8 == serial &&
    imgNat page 0xFFC 4 == crc32c (page.take 0xFFC)

/-- The cause that makes a page invalid, 0 for a valid one (Table 20.11), the causes in the order of their codes (log 14). -/
def Dev.trimCauseOf (d : Dev) (page : List Byte) : Nat :=
  if bit d.boot.bootsel 2 then 5
  else if !d.boot.flashOk then 6
  else if d.boot.trimTorn then 2
  else if imgNat page 0 4 != 0x4D495254 then 1
  else if imgNat page 0xFFC 4 != crc32c (page.take 0xFFC) then 2
  else if imgNat page 4 2 != 1 then 3
  else if imgNat page 8 8 != d.fuses.serial then 4
  else 0

/-- The transmit preset of a port: from the trim page, or built in (`C_PRE` 4, `C_POST` 12, `SWING` 48; R463). What its register
takes of it is `fieldBits`. -/
def Dev.txPreset (d : Dev) (p : Nat) : Nat :=
  match d.boot.trim with
  | some t => imgNat t (0x20 + 4 * p) 4
  | none => 4 + 12 * 2 ^ 8 + 48 * 2 ^ 16

/-- The registers that the trim page, or its built-in values, set (R7, R463). -/
def Dev.applyTrim (d : Dev) : Dev :=
  let exit := match d.boot.trim with
    | some t => imgNat t (0x2C0 + 32 + 30) 2
    | none => 1000
  let d := d.setFld Reg.MEM_PD_CTRL Fld.MEM_PD_CTRL_EXIT_NS exit
  let d := d.setFld Reg.CAL_STATUS Fld.CAL_STATUS_CAUSE d.boot.trimCause
  let d := d.setFld Reg.CAL_STATUS Fld.CAL_STATUS_TRIM_INVALID (if d.boot.trimCause == 0 then 0 else 1)
  d.setReg Reg.CAL_FL_SIZE (if d.boot.flashOk then d.boot.flashSize else 0)

/-- CAL reads and checks the trim page and is released (R457, R460, R462, R463). -/
def Dev.readTrim (d : Dev) : Dev :=
  let page := d.flashRead 0x1000000 4096
  let cause := d.trimCauseOf page
  let trim := if cause == 0 then some page else none
  let toff := match trim with
    | some t => (List.range 16).map fun n => signed 16 (imgNat t (0x2C0 + 2 * n) 2)
    | none => []
  ({ d with boot := { d.boot with cal := true, trim := trim, trimCause := cause, toff := toff } }).applyTrim

/-- Whether a cold or warm boot sequence, or a return from Rest, is under way. -/
def Dev.booting (d : Dev) : Bool := d.boot.inReset == some .cold || d.boot.inReset == some .warm

/-- HBM3E training ends: MEM is released; after a warm reset and after Rest WBL is too (R457, R461, Table 19.9). -/
def Dev.trainingDone (d : Dev) : Dev :=
  if !d.boot.ckg || d.boot.mem || !d.sequencing then d
  else if d.boot.inReset == some .cold then { d with boot := { d.boot with mem := true, trained := true } }
  else { d with boot := { d.boot with mem := true, wbl := true, inReset := none } }

/-- The zeroing of all memory ends: WBL is released (R461). -/
def Dev.clearDone (d : Dev) : Dev :=
  if !d.boot.trained || !d.sequencing then d
  else { d with mem := [], damaged := [], weak := [], boot := { d.boot with trained := false, wbl := true, inReset := none } }

/-! ### Flash commands (R464, Table 20.9) -/

def calFlashBusy : Nat := 1
def calFlashRange : Nat := 2
def calTrimLocked : Nat := 3
def calTrimImage : Nat := 4
def calPower : Nat := 5

/-- The reason of the first row of Table 20.9 that refuses a command. -/
def Dev.flashRefusal (d : Dev) (op : Nat) : Option Nat :=
  let off := d.reg Reg.CAL_FL_OFFSET
  let len := d.reg Reg.CAL_FL_LEN
  let a := d.pair Reg.CAL_FL_ADDR_LO Reg.CAL_FL_ADDR_HI
  let size := d.reg Reg.CAL_FL_SIZE
  let trim := op == 2 && !(apart off len 0x1000000 65536)
  let t := a + (0x1000000 - off)
  let coversPage := off ≤ 0x1000000 && 0x1001000 ≤ off + len
  if d.boot.flashJob.isSome then some calFlashBusy
  else if off % 4096 != 0 || len % 4096 != 0 || len == 0 || size < off + len || !(d.inPart 0 a len) || !(op == 1 || op == 2) then
    some calFlashRange
  else if trim && !(d.flag Reg.CAL_TRIM_KEY Fld.CAL_TRIM_KEY_ARMED) then some calTrimLocked
  else if trim && !(coversPage && trimGood (d.memRead t 4096) d.fuses.serial) then some calTrimImage
  else if d.sdp.power == 3 || d.sdp.waking || d.sdp.request != .none then some calPower
  else none

/-- CAL reads the trim page in memory that a command would write, where the rows above TRIM_IMAGE pass (R279, R298). -/
def Dev.trimImageRead (d : Dev) (op : Nat) : Dev :=
  let off := d.reg Reg.CAL_FL_OFFSET
  let len := d.reg Reg.CAL_FL_LEN
  let r := d.flashRefusal op
  if op == 2 && !(apart off len 0x1000000 65536) && (r == some calTrimImage || r == some calPower || r.isNone) &&
      off ≤ 0x1000000 && 0x1001000 ≤ off + len then
    d.plainReads (blocksOf (d.pair Reg.CAL_FL_ADDR_LO Reg.CAL_FL_ADDR_HI + (0x1000000 - off)) 4096)
  else d

/-- A write of `CAL_FL_CMD` with `GO` (R464); an accepted GO consumes an arming of the trim key (R465). -/
def Dev.flashGo (d : Dev) (op : Nat) : Dev :=
  let d := (d.setReg Reg.CAL_FL_CMD (op * 2)).trimImageRead op
  match d.flashRefusal op with
  | some r => d.refuse Reg.CAL_BLKID r
  | none =>
    let d := d.setReg Reg.CAL_TRIM_KEY 0
    let job := (op, d.reg Reg.CAL_FL_OFFSET, d.reg Reg.CAL_FL_LEN, d.pair Reg.CAL_FL_ADDR_LO Reg.CAL_FL_ADDR_HI)
    { d with boot := { d.boot with flashJob := some job } }

/-- A flash command completes (R464): with `failed`, the flash failed it and what it wrote is not stated (log 9). `bad` lists blocks whose
read within the copy fails, once for each of its two reads (R25, R279, R280). -/
def Dev.flashDone (d : Dev) (failed : Bool) (bad : List Nat := []) : Dev :=
  match d.boot.flashJob with
  | none => d
  | some (op, off, len, a) =>
    if failed then
      let d := if op == 2 then d.abandonFlash
        else
          let r := d.freshBytes len
          { r.2.memStore a r.1 bad with boot := { d.boot with flashJob := none } }
      d.setFlag Reg.CAL_STATUS Fld.CAL_STATUS_ERROR
    else
      let d := if op == 1 then d.memStore a (d.flashRead off len) bad
        else
          let d := d.plainReads (blocksOf a len) bad
          let s := off / 65536 * 65536
          let n := (off + len + 65535) / 65536 * 65536 - s
          let torn := d.boot.trimTorn && apart s n 0x1000000 65536
          { d with flash := (d.flash.clear s n).write flashDefault off (d.memRead a len),
                   boot := { d.boot with trimTorn := torn } }
      ({ d with boot := { d.boot with flashJob := none } }).setFlag Reg.CAL_STATUS Fld.CAL_STATUS_DONE

/-- A write of `CAL_TRIM_KEY` (R465). -/
def Dev.writeTrimKey (d : Dev) (v : Nat) : Dev := d.setReg Reg.CAL_TRIM_KEY (if v % 2 ^ 16 == 0x5452 then 0x10000 else 0)

/-! ### The commands -/

def execTrimRead (s : State) : Host.Outcome State Fault Refusal :=
  s.apply fun d => if d.booting && !d.boot.cal && d.sequencing then d.readTrim else d

def execHbmTrainingDone (s : State) : Host.Outcome State Fault Refusal := s.apply fun d => d.trainingDone

def execMemoryClearDone (s : State) : Host.Outcome State Fault Refusal := s.apply fun d => d.clearDone

def execFlashToMemory (s : State) : Host.Outcome State Fault Refusal :=
  s.apply fun d => d.onWrite Reg.CAL_FL_CMD fun d => d.flashGo 1

def execMemoryToFlash (s : State) : Host.Outcome State Fault Refusal :=
  s.apply fun d => d.onWrite Reg.CAL_FL_CMD fun d => d.flashGo 2

def execFlashCommandDone (failed : Bool) (s : State) (bad : List Nat := []) : Host.Outcome State Fault Refusal :=
  s.apply fun d => d.flashDone failed bad

def execTrimKeyArm (s : State) : Host.Outcome State Fault Refusal :=
  s.apply fun d => d.onWrite Reg.CAL_TRIM_KEY fun d => d.writeTrimKey 0x5452

def execTrimKeyDisarm (s : State) : Host.Outcome State Fault Refusal :=
  s.apply fun d => d.setReg Reg.CAL_TRIM_KEY 0

end Sys2Proof.Machine
end

