-- ==== Sys2Proof/Machine/Rlc.lean ====
section
/-! DEFINITION. Return-line controllers: slots and rounds (R235 to R238), received frames (R239, R241, R246 to R249), enrolment
and commands (R242 to R245), records (R251) and the receive FIFO (R252). -/

namespace Sys2Proof.Machine

def Dev.rlc (d : Dev) (c : Nat) : Rlc := d.lines.get (fun _ => {}) c
def Dev.setRlc (d : Dev) (c : Nat) (x : Rlc) : Dev := { d with lines := d.lines.set (fun _ => {}) c x }

/-- A bit of `RLC_EVENT` sets: the line's source rises (R254). -/
def Dev.lineEvent (d : Dev) (c : Nat) (f : Fld) : Dev :=
  let was := d.flag (Reg.RLC_EVENT c) f
  (d.setFlag (Reg.RLC_EVENT c) f).raiseIf (!was) (0x4600 + c)

/-- `RLC_STATUS` and the FIFO count follow the controller's state. -/
def Dev.lineStatus (d : Dev) (c : Nat) : Dev :=
  let x := d.rlc c
  (d.setReg (Reg.RLC_STATUS c) (x.strangers.length * 2 ^ 24 + x.enrolled.length * 2 ^ 8 + if x.run then 1 else 0)).setReg
    (Reg.RLC_RXF_COUNT c) x.fifo.length

/-- Push an event word into the receive FIFO (R252). -/
def Dev.linePush (d : Dev) (c kind code addr : Nat) : Dev :=
  let x := d.rlc c
  if 64 ≤ x.fifo.length then d.count (Reg.RLC_RXF_DROP_CNT c)
  else
    let x := { x with fifo := x.fifo ++ [kind * 2 ^ 28 + code * 2 ^ 16 + addr] }
    let d := (d.setRlc c x).lineStatus c
    if x.fifo.length == 64 then d.lineEvent c Fld.RLC_EVENT_RX_FULL else d

/-- Write a record on the line's COMPLETE ring (R251). -/
def Dev.lineRecord (d : Dev) (c kind addr tag : Nat) (payload : List Byte) : Dev :=
  let head := leBytes 1 kind ++ leBytes 1 payload.length ++ leBytes 2 addr ++ leBytes 4 (d.reg (Reg.RLC_SLOT_CNT c)) ++
    leBytes 4 d.stk.stroke ++ leBytes 4 tag
  let n := if payload.length ≤ 48 then 1 else 3
  let bytes := head ++ payload ++ List.replicate (64 * n - 16 - payload.length) (0 : Byte)
  let r := d.record (d.fld (Reg.RLC_RING c) Fld.RLC_RING_REC) ((List.range n).map fun i => (bytes.drop (64 * i)).take 64)
  if r.1 then r.2 else (r.2.count (Reg.RLC_REC_DROP_CNT c)).lineEvent c Fld.RLC_EVENT_REC_DROP

/-- A frame as the controller sends it (R232, R233). -/
def lineFrame (addr type_ : Nat) (payload : List Byte) : List Byte :=
  let body := leBytes 2 addr ++ leBytes 1 type_ ++ leBytes 1 payload.length ++ payload
  [0x55, 0x55, 0x55, 0xD5] ++ body ++ leBytes 2 (crcGeneral 16 0x1021 0xFFFF true true 0xFFFF body)

/-- The Manchester half-bits of a frame (R230, R232): bytes least significant bit first, a 1 negative and then positive, a 0 positive
and then negative, and the end-of-frame, positive for 2 bit times. -/
def lineHalves (bs : List Byte) : List Bool :=
  (bs.flatMap fun b => (bitsUp 8 b.toNat).flatMap fun v => if v == 1 then [false, true] else [true, false]) ++ List.replicate 4 true

/-- The controller sends a frame: with `DE_EXT` set it drives `RLcc_DE` high meanwhile (R230). -/
def Dev.lineSend (d : Dev) (c addr type_ : Nat) (payload : List Byte) : Dev :=
  let bs := lineFrame addr type_ payload
  (d.emit (.line c bs)).emit (.wire c (d.flag (Reg.RLC_CTRL c) Fld.RLC_CTRL_DE_EXT) (lineHalves bs))

/-- Complete the host command of a queue entry with a result (R245, R389). -/
def Dev.lineComplete (d : Dev) (j : LineJob) (result : Nat) : Dev :=
  match j.ring with
  | none => d
  | some r =>
    d.ringComplete r.1 r.2 { op := 0x10 + j.kind, status := if result == 0 then stDone else stState, tag := j.tag, stroke := d.stk.stroke,
                             detail := result }

/-- The result codes of Table 17.5. -/
def resNone : Nat := 0
def resAddrInUse : Nat := 1
def resIdInUse : Nat := 2
def resNoAnswer : Nat := 3
def resNotEnrolled : Nat := 4
def resRejected : Nat := 5

/-- The present slot, counted over all rounds of 16. -/
def Rlc.now (x : Rlc) : Nat := 16 * x.round + x.slot

/-- The slots of 256 rounds (R246). -/
def strangerSpan : Nat := 4096

/-- The `ASEQ` of the last alarm accepted from an address (R241). -/
def Rlc.lastAlarm (x : Rlc) (a : Nat) : Option Nat := (x.alarms.find? (·.1 == a)).map (·.2)

def Rlc.entry (x : Rlc) (a : Nat) : Option Enrolled := x.enrolled.find? (·.laddr == a)

/-- Fields of `RLC_STa_STATE`. -/
def Dev.setStop (d : Dev) (c a : Nat) (f : Fld) (v : Nat) : Dev := d.setFld (Reg.RLC_ST_STATE c a) f v

/-- A stop is enrolled, or leaves the table (R244, R245). -/
def Dev.lineEnrol (d : Dev) (c : Nat) (e : Enrolled) : Dev :=
  let x := d.rlc c
  let d := (d.setRlc c { x with enrolled := (x.enrolled.filter (·.laddr != e.laddr)) ++ [e] }).lineStatus c
  let d := d.setStop c e.laddr Fld.RLC_ST_STATE_ENROLLED 1
  (d.setStop c e.laddr Fld.RLC_ST_STATE_PRESENT 1).setStop c e.laddr Fld.RLC_ST_STATE_MISSES 0

def Dev.lineRemove (d : Dev) (c a : Nat) : Dev :=
  let x := d.rlc c
  let d := (d.setRlc c { x with enrolled := x.enrolled.filter (·.laddr != a) }).lineStatus c
  (d.setStop c a Fld.RLC_ST_STATE_ENROLLED 0).setStop c a Fld.RLC_ST_STATE_PRESENT 0

/-! ### Slots (R235 to R238) -/

/-- A poll goes unanswered (R249). -/
def Dev.lineMiss (d : Dev) (c a : Nat) : Dev :=
  let d := (d.count (Reg.RLC_MISS_CNT c)).count (Reg.RLC_ST_MISS_CNT c a)
  d.setStop c a Fld.RLC_ST_STATE_MISSES (min 255 (d.fld (Reg.RLC_ST_STATE c a) Fld.RLC_ST_STATE_MISSES + 1))

/-- The slot ends: what its opening frame asked for has not come (R244, R245, R249). An ASSIGN goes back to the queue until
its fourth; a RELEASE without an ACK leaves the stop enrolled and completes NO_ANSWER (log 19). -/
def Dev.slotClose (d : Dev) (c : Nat) : Dev :=
  let x := d.rlc c
  if x.answered then d
  else match x.present with
    | .poll a => d.lineMiss c a
    | .command j => match j.kind with
      | 0 =>
        if j.tries < 4 then d.setRlc c { x with queue := x.queue ++ [j] }
        else d.setRlc c { x with unanswered := x.unanswered ++ [j] }
      | 3 => d
      | _ => d.lineComplete j resNoAnswer
    | _ => d

/-- The next enrolled address with `POLL_EN` set, in ascending order after the last one polled (R237). -/
def Dev.nextPoll (d : Dev) (c : Nat) : Option Nat :=
  let x := d.rlc c
  ((List.range 256).map fun k => (x.polled + 1 + k) % 256).find? fun a =>
    (x.entry a).isSome && d.flag (Reg.RLC_ST_STATE c a) Fld.RLC_ST_STATE_POLL_EN

/-- A poll slot; with no stop to poll, no opening frame is sent (log 19). -/
def Dev.openPoll (d : Dev) (c : Nat) : Dev :=
  match d.nextPoll c with
  | none => d.setRlc c { d.rlc c with present := .none }
  | some a =>
    let d := d.setRlc c { d.rlc c with present := .poll a, polled := a }
    (d.count (Reg.RLC_POLL_CNT c)).lineSend c a 0x80 []

/-- A contention slot: its POLL carries the outcome of the last one (R237, R239). -/
def Dev.openContention (d : Dev) (c : Nat) : Dev :=
  let x := d.rlc c
  let payload := leBytes 2 x.lastAddr ++ leBytes 1 x.lastOut ++ leBytes 1 0 ++ leBytes 8 x.lastId
  (d.setRlc c { x with present := .contention, lastAddr := 0, lastOut := 0, lastId := 0 }).lineSend c 0xFFFE 0x80 payload

/-- A command slot serves the head of the queue (R238, Table 10.2). -/
def Dev.openCommand (d : Dev) (c : Nat) (j : LineJob) : Dev :=
  let x := d.rlc c
  let j := { j with tries := j.tries + 1 }
  let recent := x.challenged.filter fun e => x.now < e.2 + strangerSpan && e.1 != j.id
  let challenged := if j.kind == 3 then recent ++ [(j.id, x.now)] else x.challenged
  let d := d.setRlc c { x with queue := x.queue.drop 1, present := .command j, challenged }
  match j.kind with
  | 0 => d.lineSend c 0xFFFE 0x82 (leBytes 8 j.id ++ leBytes 2 j.laddr ++ leBytes 2 j.chain ++ leBytes 4 j.seed)
  | 1 => d.lineSend c j.laddr 0x84 []
  | 2 => d.lineSend c j.laddr 0x81 (leBytes 1 (if j.write then 1 else 0) ++ leBytes 1 j.count ++ leBytes 2 j.reg ++ j.data)
  | _ => (d.count (Reg.RLC_CHALLENGE_CNT c)).lineSend c 0xFFFE 0x83 (leBytes 8 j.id ++ leBytes 4 j.nonce)

/-- The controller opens a slot (R235 to R237, R242). -/
def Dev.slotOpen (d : Dev) (c : Nat) (stretched : Bool) : Dev :=
  if !d.hasLine c || !(d.rlc c).run then d
  else
    let d := d.slotClose c
    let d := d.countWrap (Reg.RLC_SLOT_CNT c)
    let d := if stretched then d.count (Reg.RLC_STRETCH_CNT c) else d
    let mask := d.fld (Reg.RLC_SCHED c) Fld.RLC_SCHED_CONT_MASK
    let d := d.setReg (Reg.RLC_SCHED_LIVE c) mask
    let x := d.rlc c
    let j := (x.slot + 1) % 16
    let x := { x with slot := j, round := if j == 0 then x.round + 1 else x.round, answered := false }
    let d := d.setRlc c x
    if x.first then (d.setRlc c { x with first := false, present := .releaseAll }).lineSend c 0xFFFF 0x84 []
    else if j % 2 == 0 then d.openPoll c
    else if bit mask (j / 2) then d.openContention c
    else match x.queue with
      | q :: _ => d.openCommand c q
      | [] => d.openPoll c

/-- The line stays busy for a whole slot: the controller transmits anyway (R236). -/
def Dev.lineJam (d : Dev) (c : Nat) : Dev :=
  if !d.hasLine c || !(d.rlc c).run then d
  else
    let d := (d.count (Reg.RLC_JAM_CNT c)).lineEvent c Fld.RLC_EVENT_JAM
    (d.linePush c 5 0 0).slotOpen c true

/-! ### Received frames -/

/-- Outcome of the present contention slot, unless a frame has been accepted in it (R239). -/
def Dev.contentionOut (d : Dev) (c out addr id : Nat) : Dev :=
  let x := d.rlc c
  if x.lastOut == 1 then d else d.setRlc c { x with lastOut := out, lastAddr := addr, lastId := id }

/-- Whether the present slot allows a frame of a type from an address (R235, R248). An ACK comes from an enrolled address, but for the
ACK of an ASSIGN. -/
def LineSlot.allows (s : LineSlot) (x : Rlc) (type_ addr : Nat) : Bool :=
  match s with
  | .poll a => type_ == 1 && addr == a
  | .contention => (type_ == 2 && (x.entry addr).isSome) || (type_ == 3 && addr == 0xFFFE)
  | .command j => match j.kind with
    | 3 => type_ == 3 && addr == 0xFFFE
    | 0 => type_ == 4 && addr == j.laddr
    | _ => type_ == 4 && addr == j.laddr && (x.entry addr).isSome
  | _ => false

/-- A frame is received (R239, R248): `f` handles one that the slot allows; every other is counted as what it is. -/
def Dev.lineReceive (d : Dev) (c type_ addr least most : Nat) (payload : List Byte) (check : LineCheck) (inWindow : Bool)
    (f : Dev → LineSlot → Dev) : Dev :=
  let x := d.rlc c
  if !d.hasLine c || !x.run then d
  else
    let contention := x.present == .contention
    let foreign :=
      let d := d.count (Reg.RLC_FOREIGN_CNT c)
      if contention then d.contentionOut c 3 0 0 else d
    match check with
    | .good =>
      if x.answered || !inWindow || payload.length < least || most < payload.length || !(x.present.allows x type_ addr) then
        foreign
      else
        let d := d.setRlc c { x with answered := true }
        let d := if contention then d.contentionOut c 1 addr (if type_ == 3 then leNat (payload.take 8) else 0) else d
        f d x.present
    | .otherType | .otherLength => foreign
    | .violation =>
      if contention then (d.count (Reg.RLC_COLLIDE_CNT c)).contentionOut c 2 0 0 else d.count (Reg.RLC_CODE_CNT c)
    | .badCheck =>
      if contention then (d.count (Reg.RLC_COLLIDE_CNT c)).contentionOut c 2 0 0 else d.count (Reg.RLC_CRC_CNT c)

/-- A new alarm of an enrolled stop (R241): its record, the event, the count and the FIFO word. -/
def Dev.newAlarm (d : Dev) (c a aseq code : Nat) (payload : List Byte) : Dev :=
  let x := d.rlc c
  let d := d.setRlc c { x with alarms := x.alarms.filter (·.1 != a) ++ [(a, aseq)] }
  let d := (d.lineRecord c 2 a 0 payload).count (Reg.RLC_ALARM_CNT c)
  (d.linePush c 2 code a).lineEvent c Fld.RLC_EVENT_ALARM

/-- Whether an `ASEQ` is a new alarm (R241). Before any alarm has been accepted, a STATUS carries one where it says that one
is pending (log 19). -/
def Rlc.isNewAlarm (x : Rlc) (a aseq : Nat) (pending : Bool) : Bool :=
  (x.entry a).isSome && match x.lastAlarm a with
    | some s => s != aseq
    | none => pending

/-- A STATUS answers the poll (R241, R249, Table 10.3). An alarm that arrives so has a record whose 12 data bytes no rule
gives (log 9). -/
def Dev.statusFrame (d : Dev) (c a : Nat) (payload : List Byte) : Dev :=
  let byte (i : Nat) : Nat := leNat ((payload.drop i).take 1)
  let d := d.setStop c a Fld.RLC_ST_STATE_MISSES 0
  let d := if d.flag (Reg.RLC_ST_STATE c a) Fld.RLC_ST_STATE_PRESENT then d
    else ((d.setStop c a Fld.RLC_ST_STATE_PRESENT 1).linePush c 4 0 a).lineEvent c Fld.RLC_EVENT_PRESENT
  let d := d.lineRecord c 1 a 0 payload
  if (d.rlc c).isNewAlarm a (byte 28) (bit (byte 0) 6) then
    let r := d.freshBytes 12
    r.2.newAlarm c a (byte 28) (byte 29) (leBytes 1 (byte 28) ++ leBytes 1 (byte 29) ++ leBytes 2 0 ++ r.1)
  else d

/-- An ALARM in a contention slot (R241). -/
def Dev.alarmFrame (d : Dev) (c a : Nat) (payload : List Byte) : Dev :=
  let aseq := leNat (payload.take 1)
  if (d.rlc c).isNewAlarm a aseq true then d.newAlarm c a aseq (leNat ((payload.drop 1).take 1)) payload else d

/-- A stranger's HELLO (R246): its entry, its STRANGER word, and one CHALLENGE. -/
def Dev.stranger (d : Dev) (c id : Nat) : Dev :=
  let d := d.count (Reg.RLC_STRANGER_CNT c)
  let x := d.rlc c
  match x.strangers.find? (·.2.1 == id) with
  | some e => d.setRlc c { x with strangers := x.strangers.map fun s => if s == e then (e.1, id, x.now) else s }
  | none =>
    match (List.range 16).find? fun i => !(x.strangers.any (·.1 == i)) with
    | none => d
    | some i =>
      let d := (d.setRlc c { x with strangers := x.strangers ++ [(i, id, x.now)] }).lineStatus c
      let d := (d.linePush c 1 i 0xFFFE).lineEvent c Fld.RLC_EVENT_STRANGER
      let x := d.rlc c
      if x.queue.any (·.kind == 3) || x.challenged.any (fun e => e.1 == id && x.now < e.2 + strangerSpan) then d
      else
        let r := d.freshBytes 4
        r.2.setRlc c { x with queue := x.queue ++ [{ kind := 3, id, nonce := leNat r.1 }] }

/-- A HELLO (R246, R247): from a stranger, or from a stop that has lost its enrolment. -/
def Dev.helloFrame (d : Dev) (c : Nat) (payload : List Byte) : Dev :=
  let id := leNat (payload.take 8)
  let d := d.lineRecord c 3 0xFFFE 0 payload
  let x := d.rlc c
  match x.enrolled.find? (·.id == id) with
  | some e =>
    if d.flag (Reg.RLC_CTRL c) Fld.RLC_CTRL_AUTO_REASSIGN then
      d.setRlc c { x with queue := x.queue ++ [{ kind := 0, laddr := e.laddr, id, chain := e.chain, seed := e.seed }] }
    else d.stranger c id
  | none => d.stranger c id

/-- An ACK answers the command of the slot (R244, R245). One that rejects an ASSIGN or a RELEASE changes no enrolment (DESIGN CHOICE, log 19). -/
def Dev.ackFrame (d : Dev) (c : Nat) (payload : List Byte) (s : LineSlot) : Dev :=
  match s with
  | .command j =>
    let d := d.lineRecord c 4 j.laddr j.tag payload
    let rejected := leNat (payload.take 1) != 0
    let d := if rejected then d
      else match j.kind with
        | 0 => d.lineEnrol c ⟨j.laddr, j.id, j.chain, j.seed⟩
        | 1 => d.lineRemove c j.laddr
        | _ => d
    d.lineComplete j (if rejected then resRejected else resNone)
  | _ => d

/-! ### Commands of the telemetry ring (Table 10.5) -/

/-- The key by which a controller binds its ring (R381). -/
def lineConsumer (c : Nat) : Nat := Reg.RLC_RING c

/-- The fields of a telemetry entry are legal (R245, Table 10.5); reserved words are ignored (R6). -/
def Dev.telemetryGood (d : Dev) (c op : Nat) (e : List Nat) : Bool :=
  let laddr := wordOf e 0 / 2 ^ 16
  let plain := laddr < 256 && d.role (4 * c + laddr / 64) == 1
  match op with
  | 0x10 | 0x11 => plain
  | 0x12 =>
    let n := bits (wordOf e 1) 23 16
    plain && 1 ≤ n && n ≤ 32
  | _ => false

/-- The controller reads the next entry of its ring, where it is one of `op`; an entry of no command completes MALFORMED. -/
def Dev.telemetry (d : Dev) (c op : Nat) : Dev :=
  let r := d.fld (Reg.RLC_RING c) Fld.RLC_RING_CMD
  if !d.hasLine c || d.ringClass r != classTelemetry || !d.ringReadable r then d
  else
    let b := d.ringBind r (lineConsumer c)
    let d := b.2
    let other (o : Nat) : Bool := o != op && 0x10 ≤ o && o ≤ 0x12
    if !b.1 || other (opOf (d.ringEntry r (d.ringCons r))) then d
    else
      let d := d.ringFetch r 0 1
      let e := d.ringEntry r (d.ringCons r)
      let o := opOf e
      let tag := wordOf e 4
      let reject (op status result : Nat) : Dev := d.ringReject r 1 { op, status, tag, stroke := d.stk.stroke, detail := result }
      if other o then d
      else if !d.telemetryGood c o e then reject o stMalformed 0
      else if !(d.rlc c).run then reject o stState 0
      else
        let laddr := wordOf e 0 / 2 ^ 16
        let id := wordOf e 1 + 2 ^ 32 * wordOf e 2
        let x := d.rlc c
        let i := d.ringCons r
        let enqueue (j : LineJob) : Dev := (d.ringTake r 1).setRlc c { x with queue := x.queue ++ [j] }
        match op with
        | 0x10 =>
          if (x.entry laddr).isSome then reject o stState resAddrInUse
          else if x.enrolled.any (·.id == id) then reject o stState resIdInUse
          else enqueue { kind := 0, ring := some (r, i), laddr, id, seed := wordOf e 3, tag, chain := d.reg (Reg.CPT_CHAIN_ID (4 * c + laddr / 64)) }
        | 0x11 => if (x.entry laddr).isNone then reject o stState resNotEnrolled else enqueue { kind := 1, ring := some (r, i), laddr, tag }
        | _ =>
          let n := bits (wordOf e 1) 23 16
          let write := bit (wordOf e 0) 8
          enqueue { kind := 2, ring := some (r, i), laddr, tag, write, reg := wordOf e 1 % 2 ^ 16, count := n,
                    data := if write then (wordBytes (e.drop 8)).take n else [] }

/-- Four ASSIGNs have passed without ACK (R244). -/
def Dev.enrolNoAnswer (d : Dev) (c : Nat) : Dev :=
  let x := d.rlc c
  match x.unanswered with
  | [] => d
  | j :: js =>
    let release : LineJob := { kind := 1, laddr := j.laddr }
    (d.setRlc c { x with unanswered := js, queue := x.queue ++ [release] }).lineComplete j resNoAnswer

/-- A stranger entry expires (R246). -/
def Dev.strangerExpiry (d : Dev) (c i : Nat) : Dev :=
  let x := d.rlc c
  match x.strangers.find? (·.1 == i) with
  | some e => if e.2.2 + strangerSpan ≤ x.now then (d.setRlc c { x with strangers := x.strangers.filter (· != e) }).lineStatus c else d
  | none => d

/-- A stop has missed `MISS_LIMIT` polls in a row (R249). -/
def Dev.stopAbsent (d : Dev) (c a : Nat) : Dev :=
  let lim := max 1 (d.fld (Reg.RLC_CTRL c) Fld.RLC_CTRL_MISS_LIMIT)
  if d.flag (Reg.RLC_ST_STATE c a) Fld.RLC_ST_STATE_PRESENT && lim ≤ d.fld (Reg.RLC_ST_STATE c a) Fld.RLC_ST_STATE_MISSES then
    ((d.setStop c a Fld.RLC_ST_STATE_PRESENT 0).linePush c 3 0 a).lineEvent c Fld.RLC_EVENT_ABSENT
  else d

/-- A read of `RLC_RXF_DATA` (R252). -/
def Dev.rxfPop (d : Dev) (c : Nat) (ecc : Ecc) : Nat × Dev :=
  let x := d.rlc c
  match x.fifo with
  | [] => (x.lastWord, d.setFlag (Reg.RLC_RXF_STATUS c) Fld.RLC_RXF_STATUS_UNDERRUN)
  | w :: ws =>
    let v := if ecc == .bad then 0xF0000000 else w
    let d := (d.setRlc c { x with fifo := ws, lastWord := v }).lineStatus c
    (v, match ecc with
      | .good => d
      | .corrected => (d.secdedCorrected).count (Reg.RLC_RXF_CORR_CNT c)
      | .bad => d.secdedBad storeFifo 0)

/-! ### RUN and OFF (R242, R253) -/

/-- The controller's domain is reset: its table is empty, and commands that it has read complete ABORTED (log 19); the receive
FIFO keeps its words. -/
def Dev.lineReset (d : Dev) (c : Nat) (run : Bool) : Dev :=
  let x := d.rlc c
  let open_ := (match x.present with | .command j => if x.answered then [] else [j] | _ => []) ++ x.queue ++ x.unanswered
  let d := open_.foldl (fun (d : Dev) (j : LineJob) => match j.ring with
    | some r => d.ringComplete r.1 r.2 { op := 0x10 + j.kind, status := stAborted, tag := j.tag, stroke := d.stk.stroke }
    | none => d) d
  let d := x.enrolled.foldl (fun (d : Dev) (e : Enrolled) => d.lineRemove c e.laddr) d
  let d := (List.range 256).foldl (fun (d : Dev) a => d.setStop c a Fld.RLC_ST_STATE_MISSES 0) d
  (d.setRlc c { run, first := run, fifo := x.fifo, lastWord := x.lastWord }).lineStatus c

/-- The controller enters RUN where `EN` is 1 (R242). -/
def Dev.lineUp (d : Dev) (c : Nat) : Dev :=
  if d.hasLine c && d.flag (Reg.RLC_CTRL c) Fld.RLC_CTRL_EN && !(d.rlc c).run then d.lineReset c true else d

/-- The RLC reason codes. -/
def rlcSched : Nat := 1
def rlcRingClass : Nat := 2

/-- A write of `RLC_CTRL` (R253). -/
def Dev.writeRlcCtrl (d : Dev) (c v : Nat) : Dev :=
  let was := (d.rlc c).run
  let d := d.genericWrite (Reg.RLC_CTRL c) v
  if was && !bit v 0 then ((d.lineReset c false).newEpoch (lineCrossing c)).lineEvent c Fld.RLC_EVENT_TORN else d.lineUp c

/-- A write of `RLC_SCHED` (R238). -/
def Dev.writeRlcSched (d : Dev) (c v : Nat) : Dev :=
  if v % 256 == 0xFF then d.refuse (Reg.RLC_BLKID c) rlcSched else d.genericWrite (Reg.RLC_SCHED c) v

/-- A write of `RLC_RING` (R254, R381). -/
def Dev.writeRlcRing (d : Dev) (c v : Nat) : Dev :=
  let cmd := Fld.RLC_RING_CMD.get v
  if d.ringClass cmd != classTelemetry || d.ringClass (Fld.RLC_RING_REC.get v) != classComplete then
    d.refuse (Reg.RLC_BLKID c) rlcRingClass
  else
    let old := d.fld (Reg.RLC_RING c) Fld.RLC_RING_CMD
    let d := if old == cmd then d else d.ringUnbind old (lineConsumer c)
    ((d.ringBind cmd (lineConsumer c)).2).genericWrite (Reg.RLC_RING c) v

/-! ### The commands -/

def execSlotOpen (line : Fin 32) (stretched : Bool) (s : State) : Host.Outcome State Fault Refusal :=
  s.apply fun d => d.slotOpen line stretched

def execJam (line : Fin 32) (s : State) : Host.Outcome State Fault Refusal := s.apply fun d => d.lineJam line

def execStatus (line : Fin 32) (addr : BitVec 16) (payload : List Byte) (check : LineCheck) (inWindow : Bool) (s : State) :
    Host.Outcome State Fault Refusal :=
  s.apply fun d => d.lineReceive line 1 addr.toNat 32 128 payload check inWindow fun d _ => d.statusFrame line addr.toNat payload

def execAlarm (line : Fin 32) (addr : BitVec 16) (payload : List Byte) (check : LineCheck) (inWindow : Bool) (s : State) :
    Host.Outcome State Fault Refusal :=
  s.apply fun d => d.lineReceive line 2 addr.toNat 16 16 payload check inWindow fun d _ => d.alarmFrame line addr.toNat payload

def execHello (line : Fin 32) (addr : BitVec 16) (payload : List Byte) (check : LineCheck) (inWindow : Bool) (s : State) :
    Host.Outcome State Fault Refusal :=
  s.apply fun d => d.lineReceive line 3 addr.toNat 32 32 payload check inWindow fun d _ => d.helloFrame line payload

def execAck (line : Fin 32) (addr : BitVec 16) (payload : List Byte) (check : LineCheck) (inWindow : Bool) (s : State) :
    Host.Outcome State Fault Refusal :=
  s.apply fun d => d.lineReceive line 4 addr.toNat 4 128 payload check inWindow fun d slot => d.ackFrame line payload slot

def execEnrol (line : Fin 32) (s : State) : Host.Outcome State Fault Refusal := s.apply fun d => d.telemetry line 0x10

def execRelease (line : Fin 32) (s : State) : Host.Outcome State Fault Refusal := s.apply fun d => d.telemetry line 0x11

def execAccess (line : Fin 32) (s : State) : Host.Outcome State Fault Refusal := s.apply fun d => d.telemetry line 0x12

def execEnrolNoAnswer (line : Fin 32) (s : State) : Host.Outcome State Fault Refusal := s.apply fun d => d.enrolNoAnswer line

def execStrangerExpiry (line : Fin 32) (entry : Fin 16) (s : State) : Host.Outcome State Fault Refusal :=
  s.apply fun d => d.strangerExpiry line entry

def execAbsent (line : Fin 32) (addr : Fin 256) (s : State) : Host.Outcome State Fault Refusal :=
  s.apply fun d => d.stopAbsent line addr

def execRxfPop (line : Fin 32) (ecc : Ecc) (s : State) : Host.Outcome State Fault Refusal :=
  s.apply fun d => d.onRead (Reg.RLC_RXF_DATA line) fun d => d.rxfPop line ecc

def execRlcEn (line : Fin 32) (data : Word) (s : State) : Host.Outcome State Fault Refusal :=
  s.apply fun d => d.onWrite (Reg.RLC_CTRL line) fun d => d.writeRlcCtrl line data.toNat

end Sys2Proof.Machine
end

