-- ==== Sys2Proof/Machine/Sip.lean ====
section
/-! DEFINITION. Stream inputs: the link and its filter (R255 to R257), the slow path and its timestamps (R258 to R260), stream
contexts (R261 to R272) and the resets of a port's domain (R274). -/

namespace Sys2Proof.Machine

def Dev.sip (d : Dev) (p : Nat) : Sip := d.sips.get (fun _ => {}) p
def Dev.setSip (d : Dev) (p : Nat) (x : Sip) : Dev := { d with sips := d.sips.set (fun _ => {}) p x }
def Dev.ctx (d : Dev) (p j : Nat) : Ctx := d.ctxs.get (fun _ => {}) (16 * p + j)
def Dev.setCtx (d : Dev) (p j : Nat) (x : Ctx) : Dev :=
  { d with ctxs := d.ctxs.set (fun _ => {}) (16 * p + j) x }.setReg (Reg.SIP_CX_STATE p j) x.state

/-- Raise source `k` of a Stream port (R275). -/
def Dev.sipSource (d : Dev) (p k : Nat) : Dev := d.raise (0x4400 + 4 * p + k)

/-- Latch a bit of `SIP_CX_EVENT`: the port's CONTEXT source rises (R272, Table 11.9). -/
def Dev.ctxEvent (d : Dev) (p j : Nat) (f : Fld) : Dev := (d.setFlag (Reg.SIP_CX_EVENT p j) f).sipSource p 2

/-- An even port whose `PAIR` bit is set (R62). -/
def Dev.isPair (d : Dev) (p : Nat) : Bool := p % 2 == 0 && bit (d.wb.ports.getD p 0) 3

/-- The port whose page holds the contexts that a port feeds: its own, or that of the even port of its pair (R261). -/
def Dev.pairBase (d : Dev) (p : Nat) : Nat := if p % 2 == 1 && d.isPair (p - 1) then p - 1 else p

/-! ### Reading packets -/

/-- A big-endian field of a frame. -/
def pkt (bs : List Byte) (i n : Nat) : Nat := beNat ((bs.drop i).take n)

/-- The sum of the 16-bit words of bytes, an odd last byte being padded with zero. -/
def sum16 : List Byte → Nat
  | [] => 0
  | [a] => a.toNat * 256
  | a :: b :: bs => a.toNat * 256 + b.toNat + sum16 bs

/-- Whether an Internet checksum over bytes that hold it is right. -/
def sumGood (n : Nat) : Bool := n != 0 && n % 65535 == 0

/-- A received frame taken apart: its VLAN TCI, its EtherType, and the place of its payload. -/
structure EthView where
  dst : Nat
  tci : Option Nat
  type_ : Nat
  body : Nat
  doubleTag : Bool
  deriving DecidableEq, Repr

def ethView (bs : List Byte) : EthView :=
  let t := pkt bs 12 2
  if t == 0x8100 then ⟨pkt bs 0 6, some (pkt bs 14 2), pkt bs 16 2, 18, pkt bs 16 2 == 0x8100⟩
  else ⟨pkt bs 0 6, none, t, 14, false⟩

/-- An IPv4 datagram of a frame: whether its checks hold (R257), its protocol, addresses, fragment state, and its UDP part. -/
structure IpView where
  good : Bool
  proto : Nat
  src : Nat
  dst : Nat
  fragment : Bool
  /-- Destination port; none unless UDP with its header in this fragment. -/
  udp : Option Nat
  payload : List Byte
  deriving DecidableEq, Repr

def ipView (bs : List Byte) : IpView :=
  let ihl := 4 * (pkt bs 0 1 % 16)
  let header := bs.take ihl
  let total := min (pkt bs 2 2) bs.length
  let frag := pkt bs 6 2
  let first := frag % 2 ^ 13 == 0
  let whole := first && !bit frag 13
  let proto := pkt bs 9 1
  let l4 := (bs.take total).drop ihl
  let isUdp := proto == 17 && first && 8 ≤ l4.length
  let ulen := min (pkt l4 4 2) l4.length
  let pseudo := (header.drop 12).take 8 ++ beBytes 2 17 ++ beBytes 2 ulen
  let udpGood := !(isUdp && whole) || pkt l4 6 2 == 0 || sumGood (sum16 pseudo + sum16 (l4.take ulen))
  { good := pkt bs 0 1 / 16 == 4 && 20 ≤ ihl && ihl ≤ bs.length && sumGood (sum16 header) && udpGood
    proto, src := pkt bs 12 4, dst := pkt bs 16 4, fragment := !whole
    udp := if isUdp then some (pkt l4 2 2) else none, payload := (l4.take ulen).drop 8 }

/-- The station address of a port (Table 11.6). -/
def Dev.sipMac (d : Dev) (p : Nat) : Nat := d.reg (Reg.SIP_MAC_LO p) + 2 ^ 32 * d.reg (Reg.SIP_MAC_HI p)

/-- The MAC filter (R256); the reserved destinations of IEEE 802.1D are 01:80:C2:00:00:00 to 0F (PRESUMED, log 20). -/
def Dev.macPasses (d : Dev) (p dst : Nat) : Bool :=
  dst == d.sipMac p || dst == 0xFFFFFFFFFFFF || dst / 2 ^ 23 == 0x01005E000000 / 2 ^ 23 || dst / 16 == 0x0180C2000000 / 16

/-! ### Timestamps (R259, R260) -/

/-- Push a transmit timestamp. -/
def Dev.pushStamp (d : Dev) (p tag : Nat) : Dev :=
  let x := d.sip p
  if 64 ≤ x.stamps.length then d.count (Reg.SIP_TSF_DROP_CNT p)
  else
    let d := d.setSip p { x with stamps := x.stamps ++ [(tag, d.todSec, d.todNano)] }
    let d := d.setReg (Reg.SIP_TSF_COUNT p) (x.stamps.length + 1)
    if x.stamps.length == 63 then d.setFlag (Reg.SIP_EVENT p) Fld.SIP_EVENT_TSF_FULL else d

/-- A read of `SIP_TSF_NS` (R260): its value, and the entry's other words captured. An uncorrectable word has no stated value
(log 9). -/
def Dev.tsfPop (d : Dev) (p : Nat) (ecc : Ecc) : Nat × Dev :=
  let x := d.sip p
  let show_ (d : Dev) (e : Nat × Nat × Nat) : Nat × Dev :=
    (2 ^ 30 + e.2.2, (d.setReg (Reg.SIP_TSF_SEC_LO p) (e.2.1 % 2 ^ 32)).setReg (Reg.SIP_TSF_SEC_HI p) (e.1 * 2 ^ 16 + e.2.1 / 2 ^ 32))
  match x.stamps with
  | [] =>
    let d := d.setFlag (Reg.SIP_TSF_STATUS p) Fld.SIP_TSF_STATUS_UNDERRUN
    match x.lastStamp with
    | some e => show_ d e
    | none => (0, d)
  | e :: es =>
    let r : (Nat × Nat × Nat) × Dev := match ecc with
      | .good => (e, d)
      | .corrected => (e, (d.secdedCorrected).count (Reg.SIP_TSF_CORR_CNT p))
      | .bad =>
        let b := d.freshBytes 12
        ((leNat (b.1.take 2), leNat ((b.1.drop 2).take 6), leNat (b.1.drop 8) % 2 ^ 30), b.2.secdedBad storeFifo 0)
    let d := (r.2.setSip p { x with stamps := es, lastStamp := some r.1 }).setReg (Reg.SIP_TSF_COUNT p) es.length
    show_ d r.1

/-! ### The slow path (R258, R388) -/

/-- The keys by which a port binds its two rings (R381). -/
def sipConsumer (p : Nat) (tx : Bool) : Nat := 2 * Reg.SIP_RING p + if tx then 1 else 0

/-- A slow-path entry is well formed (R388, Table 17.4); reserved bits are ignored (R6). -/
def Dev.slowGood (d : Dev) (tx : Bool) (e : List Nat) : Bool :=
  let buf := wordOf e 1 + 2 ^ 32 * (wordOf e 2 % 32)
  let len := wordOf e 3 % 2 ^ 14
  if tx then opOf e == 0x21 && buf % 256 == 0 &&
    60 ≤ len && len ≤ 9212 && d.inPart 0 buf len
  else opOf e == 0x20 && buf % 256 == 0 && d.inPart 0 buf 16384

/-- The port reads the next entry of its receive or transmit ring: it posts a buffer, or sends a frame. -/
def Dev.slowEntry (d : Dev) (p : Nat) (tx : Bool) : Dev :=
  let r := d.fld (Reg.SIP_RING p) (if tx then Fld.SIP_RING_TX else Fld.SIP_RING_RX)
  if d.role p != 2 || d.ringClass r != classSlowpath || !d.ringReadable r || (tx && (d.sip p).state != 2) then d
  else
    let b := d.ringBind r (sipConsumer p tx)
    let d := b.2
    if !b.1 then d
    else
      let d := d.ringFetch r 0 1
      let i := d.ringCons r
      let e := d.ringEntry r i
      let tag := wordOf e (if tx then 4 else 3)
      if !d.slowGood tx e then d.ringReject r 1 { op := opOf e, status := stMalformed, tag, stroke := d.stk.stroke }
      else
        let s : SlowEntry := { ring := r, index := i, buf := wordOf e 1 + 2 ^ 32 * (wordOf e 2 % 32), tag, stamp := tx && bit (wordOf e 3) 16 }
        let d := d.ringTake r 1
        let x := d.sip p
        if tx then
          let d := d.plainReads (blocksOf s.buf (wordOf e 3 % 2 ^ 14))
          let bytes := d.memRead s.buf (wordOf e 3 % 2 ^ 14)
          let fcs := leBytes 4 (crcGeneral 32 0x04C11DB7 0xFFFFFFFF true true 0xFFFFFFFF bytes)
          (d.setSip p { x with sending := x.sending ++ [s] }).emit (.eth p (bytes ++ fcs))
        else d.setSip p { x with posted := x.posted ++ [s] }

/-- The frame sent first has left the port (R258). -/
def Dev.txDone (d : Dev) (p : Nat) : Dev :=
  let x := d.sip p
  match x.sending with
  | [] => d
  | s :: ss =>
    let d := (d.setSip p { x with sending := ss }).count (Reg.SIP_SP_TX_CNT p)
    let d := if s.stamp then d.pushStamp p (s.tag % 2 ^ 16) else d
    d.ringComplete s.ring s.index { op := 0x21, status := stDone, tag := s.tag, stroke := d.stk.stroke }

/-- A frame takes the slow path: into the oldest posted buffer, or dropped (R258, Table 17.3). `bad` lists blocks whose own read within
the write fails (R25). -/
def Dev.slowFrame (d : Dev) (p : Nat) (bs : List Byte) (tci : Option Nat) (stamp : Bool) (bad : List Nat) : Dev :=
  let x := d.sip p
  match x.posted with
  | [] => (d.count (Reg.SIP_SP_DROP_CNT p)).setFlag (Reg.SIP_EVENT p) Fld.SIP_EVENT_SP_DROP
  | s :: ss =>
    let d := ((d.setSip p { x with posted := ss }).memStore s.buf bs bad).count (Reg.SIP_SP_RX_CNT p)
    let sec := d.todSec
    let tagged := match tci with
      | some t => t * 2 ^ 16 + 2 ^ 32
      | none => 0
    let detail := bs.length + tagged + if stamp then 2 ^ 33 + sec / 2 ^ 32 * 2 ^ 48 else 0
    let extra := if stamp then d.todNano + sec % 2 ^ 32 * 2 ^ 32 else 0
    d.ringComplete s.ring s.index { op := 0x20, status := stDone, tag := s.tag, stroke := d.stk.stroke, detail, extra }

/-! ### Context registers (R262) -/

/-- Width and height of a context's frames. -/
def Dev.ctxW (d : Dev) (p j : Nat) : Nat := d.fld (Reg.SIP_CX_SIZE p j) Fld.SIP_CX_SIZE_W + 1
def Dev.ctxH (d : Dev) (p j : Nat) : Nat := d.fld (Reg.SIP_CX_SIZE p j) Fld.SIP_CX_SIZE_H + 1
def Dev.ctxFmt (d : Dev) (p j : Nat) : Nat := d.fld (Reg.SIP_CX_CTRL p j) Fld.SIP_CX_CTRL_FMT
def Dev.ctxPlate (d : Dev) (p j : Nat) : Bool := d.flag (Reg.SIP_CX_CTRL p j) Fld.SIP_CX_CTRL_TARGET
def Dev.ctxRing (d : Dev) (p j : Nat) : Nat := d.fld (Reg.SIP_CX_CTRL p j) Fld.SIP_CX_CTRL_PLATE_RING
def Dev.ctxBufs (d : Dev) (p j : Nat) : Nat := d.fld (Reg.SIP_CX_CTRL p j) Fld.SIP_CX_CTRL_NBUF + 1
def Dev.ctxBuf (d : Dev) (p j k : Nat) : Nat := d.pair (Reg.SIP_CX_BUF_LO p j k) (Reg.SIP_CX_BUF_HI p j k)

/-- The row pitch that a context lands with: its own, or that of its plate ring's layers where any names the ring (R273). -/
def Dev.landPitch (d : Dev) (p j : Nat) : Nat :=
  let x := d.ctxPitch d.regs p j
  if x == 0 then d.fld (Reg.SIP_CX_PITCH p j) Fld.SIP_CX_PITCH_PITCH else x

/-- The layer format that a stream format lands in (Table 11.3). -/
def landFmt (fmt : Nat) : Nat := [1, 4, 3, 0, 1].getD fmt 1

/-- The layer that a context's buffer is, for the buffer rules of R117. -/
def Dev.landLayer (d : Dev) (p j : Nat) : Layer :=
  { layerAt [] 0 with fmt := landFmt (d.ctxFmt p j), pitch := d.landPitch p j, w := d.ctxW p j, h := d.ctxH p j }

/-- The places of a context's frames: its buffers, or its plate ring's frames. -/
def Dev.landPlaces (d : Dev) (p j : Nat) : List Nat :=
  if d.ctxPlate p j then (List.range (d.plateFrames (d.ctxRing p j))).map (d.plateAddr (d.ctxRing p j))
  else (List.range (d.ctxBufs p j)).map (d.ctxBuf p j)

/-- The key of a context: destination address, UDP port, and the VLAN ID where it matches on one (R261). -/
def Dev.ctxKey (d : Dev) (p j : Nat) : Nat × Nat × Option Nat :=
  (d.reg (Reg.SIP_CX_DST_IP p j), d.fld (Reg.SIP_CX_PORTS p j) Fld.SIP_CX_PORTS_UDP,
    if d.flag (Reg.SIP_CX_CTRL p j) Fld.SIP_CX_CTRL_VLAN_EN then some (d.fld (Reg.SIP_CX_PORTS p j) Fld.SIP_CX_PORTS_VLAN) else none)

/-- The SIP reason codes (Table 11.8). -/
def sipContexts : Nat := 1
def sipPaired : Nat := 2
def sipDuplicate : Nat := 3
def sipFormat : Nat := 4
def sipPartition : Nat := 5
def sipBudget : Nat := 6
def sipCtxBusy : Nat := 7
def sipRingClass : Nat := 8
def sipLinkDown : Nat := 9

/-- Why an enable is refused (Table 11.2); `d` is the device with the written register, before it `old`. -/
def Dev.ctxRefusal (d old : Dev) (p j : Nat) : Option (Nat × Option AdmFail) :=
  let others := (List.range 16).filter fun k => k != j && old.ctxEnabled p k
  let total := (old.portsOf 2).foldl (fun a q => a + ((List.range 16).filter (old.ctxEnabled q)).length) 0
  let l := d.landLayer p j
  let places := d.landPlaces p j
  let fmt := d.ctxFmt p j
  let bytes := l.pitch * l.h
  let ring := d.ctxRing p j
  if 256 ≤ total then some (sipContexts, none)
  else if d.pairBase p != p then some (sipPaired, none)
  else if others.any fun k => d.ctxKey p k == d.ctxKey p j then some (sipDuplicate, none)
  else if 5 ≤ fmt || d.ctxBufs p j == 1 || (fmt == 4 && l.w % 2 == 1) || !places.all (bufferGood l) then some (sipFormat, none)
  else if if d.ctxPlate p j then !d.plateEn ring || !d.flag (Reg.STL_PR_CTRL ring) Fld.STL_PR_CTRL_WRITER
      else !places.all fun a => d.inPart 1 a bytes then some (sipPartition, none)
  else if !d.hasPrt then none
  else ((d.plans 1 [] d.flp.windows).findSome? d.memFail).map fun f => (sipBudget, some f)

/-- The bits of `SIP_CX_CTRL` that are fixed while the context is enabled (Table 11.7). -/
def ctxFixed : Nat := 0x7F3F3F9A

/-- A context turns OFF: its open frame is abandoned (Table 11.4). Frames that have closed still land. -/
def Dev.ctxOff (d : Dev) (p j : Nat) : Dev := d.setCtx p j { d.ctx p j with state := 0, frame := none, rx := [] }

/-- A write of `SIP_CX_CTRL` (R262, R272). -/
def Dev.writeCtxCtrl (d : Dev) (p j v : Nat) : Dev :=
  let k := Reg.SIP_CX_CTRL p j
  let old := d.reg k
  let was := bit old 0
  if was then
    let clash := (v ^^^ old) &&& ctxFixed != 0
    let d := d.genericWrite k (if clash then (v &&& (0xFFFFFFFF - ctxFixed)) + (old &&& ctxFixed) else v)
    let d := if clash then d.refuse (Reg.SIP_BLKID p) sipCtxBusy else d
    if bit v 0 then d else d.ctxOff p j
  else
    let e := d.genericWrite k v
    if !bit v 0 then e
    else match e.ctxRefusal d p j with
      | some r =>
        let d := (match r.2 with | some f => d.admRefused f | none => d)
        d.refuse (Reg.SIP_BLKID p) r.1
      | none => e.setCtx p j { state := 1, landing := (e.ctx p j).landing }

/-- A write of a register that is fixed while its context is enabled. -/
def Dev.writeCtxFixed (d : Dev) (p j key v : Nat) : Dev :=
  if d.flag (Reg.SIP_CX_CTRL p j) Fld.SIP_CX_CTRL_EN then d.refuse (Reg.SIP_BLKID p) sipCtxBusy else d.genericWrite key v

/-! ### Packets (R265, R270) -/

/-- An SRD of a packet: row, first pixel and bytes. -/
structure Srd where
  row : Nat
  x : Nat
  data : List Byte
  deriving DecidableEq, Repr

/-- Bytes and pixels of a pgroup (Table 11.3), and bits of a sample. -/
def pgroup (fmt : Nat) : Nat × Nat × Nat := [(15, 4, 10), (9, 2, 12), (6, 1, 16), (6, 1, 16), (5, 2, 10)].getD fmt (6, 1, 16)

/-- An RTP packet of ST 2110-20 taken apart; a packet that is bad has none (R265). -/
structure Rtp where
  marker : Bool
  seq : Nat
  ts : Nat
  ssrc : Nat
  srds : List Srd
  deriving DecidableEq, Repr

/-- The SRD headers of a packet: length, row and field bit, offset; none where a fourth would follow. -/
def srdHeads : Nat → List Byte → Option (List (Nat × Nat × Nat))
  | 0, _ => none
  | n + 1, bs =>
    if bs.length < 6 then none
    else
      let h := (pkt bs 0 2, pkt bs 2 2, pkt bs 4 2 % 2 ^ 15)
      if bit (pkt bs 4 2) 15 then (srdHeads n (bs.drop 6)).map (h :: ·) else some [h]

/-- The data of the SRDs, in order. -/
def srdData (fmt w h : Nat) : List (Nat × Nat × Nat) → List Byte → Option (List Srd)
  | [], _ => some []
  | s :: ss, bs =>
    let g := pgroup fmt
    let row := s.2.1 % 2 ^ 15
    let n := s.1 / g.1 * g.2.1
    if bit s.2.1 15 || s.1 % g.1 != 0 || (0 < n && (h ≤ row || w < s.2.2 + n)) || bs.length < s.1 then none
    else (srdData fmt w h ss (bs.drop s.1)).map (⟨row, s.2.2, bs.take s.1⟩ :: ·)

/-- Take a UDP payload apart (R265; the layouts are those of RTP and ST 2110-20, PRESUMED, log 20). -/
def rtpOf (fmt w h pt : Nat) (bs : List Byte) : Option Rtp :=
  let b0 := pkt bs 0 1
  let b1 := pkt bs 1 1
  let ext := if bit b0 4 then 4 + 4 * pkt bs (12 + 4 * (b0 % 16) + 2) 2 else 0
  let head := 12 + 4 * (b0 % 16) + ext
  let pad := if bit b0 5 then pkt bs (bs.length - 1) 1 else 0
  let body := (bs.take (bs.length - pad)).drop head
  if bs.length < head + 2 + pad || b0 / 64 != 2 || b1 % 128 != pt then none
  else
    match srdHeads 3 (body.drop 2) with
    | none => none
    | some hs =>
      (srdData fmt w h hs (body.drop (2 + 6 * hs.length))).map fun ss =>
        { marker := bit b1 7, seq := pkt bs 2 2 + 2 ^ 16 * pkt body 0 2, ts := pkt bs 4 4, ssrc := pkt bs 8 4, srds := ss }

/-- How far 32-bit number `a` lies after `b`, signed. -/
def signedSub (a b : Nat) : Int := signed 32 (cursorSub a b)

/-- Sequence numbers leave the merge window: those that only one path delivered count as missed on the other (R270). -/
def Dev.mergeTidy (d : Dev) (p j top : Nat) : Dev :=
  let x := d.ctx p j
  let gone (e : Nat × Bool × Bool) : Bool := 32768 ≤ signedSub top e.1
  let d := (x.seqs.filter gone).foldl (fun (d : Dev) (e : Nat × Bool × Bool) =>
    let d := if e.2.1 then d else d.count (Reg.SIP_CX_PATH0_MISS_CNT p j)
    if e.2.2 then d else d.count (Reg.SIP_CX_PATH1_MISS_CNT p j)) d
  d.setCtx p j { x with seqs := x.seqs.filter fun e => !gone e, top := some top }

/-- Merge a packet of a pair (R270): whether it is used, and the device. -/
def Dev.merge (d : Dev) (p j path seq : Nat) : Bool × Dev :=
  let x := d.ctx p j
  let top := match x.top with
    | some t => if 0 < signedSub seq t then seq else t
    | none => seq
  if 32768 ≤ signedSub top seq then (false, d.count (Reg.SIP_CX_STALE_CNT p j))
  else match x.seqs.find? (·.1 == seq) with
    | some e =>
      let e' := (e.1, e.2.1 || path == 0, e.2.2 || path == 1)
      (false, (d.setCtx p j { x with seqs := x.seqs.map fun y => if y == e then e' else y }).count (Reg.SIP_CX_DUP_CNT p j))
    | none => (true, (d.setCtx p j { x with seqs := x.seqs ++ [(seq, path == 0, path == 1)] }).mergeTidy p j top)

/-! ### Pixels (R263, R264) -/

/-- The samples of a pgroup, in network bit order. -/
def samplesOf (bytes bitsEach : Nat) (bs : List Byte) : List Nat :=
  let v := beNat bs
  (List.range (8 * bytes / bitsEach)).map fun i => v / 2 ^ (8 * bytes - bitsEach * (i + 1)) % 2 ^ bitsEach

/-- A pixel in the landing format of `FMT` 0 to 3 (Table 11.3, Table 5.1). -/
def landPixel (fmt r g b : Nat) : Nat :=
  match fmt with
  | 0 => r + g * 2 ^ 10 + b * 2 ^ 20 + 3 * 2 ^ 30
  | 1 => r + g * 2 ^ 12 + b * 2 ^ 24
  | 2 => r + g * 2 ^ 16 + b * 2 ^ 32
  | _ => r + g * 2 ^ 16 + b * 2 ^ 32 + 0x3C00 * 2 ^ 48

/-- The pixels of a list of samples, three to a pixel. -/
def landPixels (fmt : Nat) : List Nat → List Nat
  | r :: g :: b :: rest => landPixel fmt r g b :: landPixels fmt rest
  | _ => []

/-- A YCbCr pixel converted to RGB10A2 (R264); the chroma values may be half-integers. -/
def ycbcr (bt2020 full : Bool) (y : Nat) (cb cr : Rat) : Nat :=
  let kr : Rat := if bt2020 then 2627 / 10000 else 2126 / 10000
  let kb : Rat := if bt2020 then 593 / 10000 else 722 / 10000
  let yy : Rat := if full then (y : Rat) / 1023 else ((y : Rat) - 64) / 876
  let u : Rat := (cb - 512) / if full then 1023 else 896
  let v : Rat := (cr - 512) / if full then 1023 else 896
  let r := yy + 2 * (1 - kr) * v
  let b := yy + 2 * (1 - kb) * u
  let g := (yy - kr * r - kb * b) / (1 - kr - kb)
  let code (x : Rat) : Nat := (clampInt 0 1023 (rne (1023 * x))).toNat
  landPixel 0 (code r) (code g) (code b)

/-- Write a run of `n` pixels, as a little-endian bit string, into a row; `bad` lists blocks whose own read fails (R25). -/
def Dev.writeRun (d : Dev) (row bp s n w : Nat) (bad : List Nat) : Dev :=
  let off := bp * s
  let a := row + off / 8
  let sh := off % 8
  let len := ceilDiv (sh + bp * n) 8
  let old := d.memNat a len
  let new := old % 2 ^ sh + w * 2 ^ sh + old / 2 ^ (sh + bp * n) * 2 ^ (sh + bp * n)
  d.memStore a (leBytes len new) bad

/-- The bit string of pixels. -/
def packRun (bp : Nat) (ps : List Nat) : Nat := ps.foldr (fun p (a : Nat) => a * 2 ^ bp + p) 0

/-- Split bytes into pgroups. -/
def groupsOf (n : Nat) : Nat → List Byte → List (List Byte)
  | 0, _ => []
  | k + 1, bs => bs.take n :: groupsOf n k (bs.drop n)

/-- Add a run of pixel numbers to those that have come. -/
def addRun : List (Nat × Nat) → Nat × Nat → List (Nat × Nat)
  | [], r => [r]
  | x :: xs, r =>
    if r.2 < x.1 then r :: x :: xs
    else if x.2 < r.1 then x :: addRun xs r
    else addRun xs (min x.1 r.1, max x.2 r.2)

/-- The pixels that have come. -/
def runCount (rs : List (Nat × Nat)) : Nat := rs.foldl (fun a r => a + (r.2 - r.1)) 0

/-- Convert one pixel of a YCbCr frame from the pairs that have come (R264): none while its chroma is missing. -/
def ycbcrPixel (pairs : Tab Nat) (bt2020 full : Bool) (half row x : Nat) : Option Nat :=
  let pairAt (k : Nat) : Option Nat :=
    let v := pairs.get (fun _ => 0) (row * half + k)
    if v == 0 then none else some (v - 1)
  match pairAt (x / 2) with
  | none => none
  | some v =>
    let cb := bits v 39 30
    let cr := bits v 19 10
    if x % 2 == 0 then some (ycbcr bt2020 full (bits v 29 20) (cb : Nat) (cr : Nat))
    else if x / 2 + 1 == half then some (ycbcr bt2020 full (bits v 9 0) (cb : Nat) (cr : Nat))
    else match pairAt (x / 2 + 1) with
      | some n => some (ycbcr bt2020 full (bits v 9 0) (((cb + bits n 39 30 : Nat) : Rat) / 2) (((cr + bits n 19 10 : Nat) : Rat) / 2))
      | none => none

/-- A free pixel of RGB10A2 whose alpha is 3 (Table 11.3): one whose chroma the stream does not give (R264, log 9). -/
def Dev.freePixel (d : Dev) : Nat × Dev :=
  let b := d.freshBytes 4
  (leNat b.1 % 2 ^ 30 + 3 * 2 ^ 30, b.2)

/-- Write free pixels into a row. -/
def Dev.freePixels (d : Dev) (row s n : Nat) (bad : List Nat) : Dev :=
  (List.range n).foldl (fun (d : Dev) i =>
    let f := d.freePixel
    f.2.writeRun row 32 (s + i) 1 f.1 bad) d

/-- Place an SRD of the open frame (R263, R264). The colours of a YCbCr SRD at an odd offset, whose chroma stands at no even pixel, are
free (log 9). -/
def Dev.placeSrd (d : Dev) (p j : Nat) (fr : OpenFrame) (s : Srd) (bad : List Nat) : Dev × OpenFrame :=
  let fmt := d.ctxFmt p j
  let g := pgroup fmt
  let w := d.ctxW p j
  let row := fr.base + s.row * d.landPitch p j
  let groups := groupsOf g.1 (s.data.length / g.1) s.data
  let n := groups.length * g.2.1
  let fr := { fr with runs := if n == 0 then fr.runs else addRun fr.runs (s.row * w + s.x, s.row * w + s.x + n) }
  if n == 0 then (d, fr)
  else if fmt == 4 && s.x % 2 == 1 then (d.freePixels row s.x n bad, fr)
  else if fmt == 4 then
    let half := w / 2
    let k0 := s.x / 2
    let pairs := ((List.range groups.length).zip groups).foldl (fun (t : Tab Nat) (e : Nat × List Byte) =>
      t.set (fun _ => 0) (s.row * half + k0 + e.1) (beNat e.2 + 1)) fr.pairs
    let bt := d.flag (Reg.SIP_CX_CTRL p j) Fld.SIP_CX_CTRL_MATRIX
    let full := d.flag (Reg.SIP_CX_CTRL p j) Fld.SIP_CX_CTRL_RANGE
    let first := if s.x == 0 then 0 else s.x - 1
    let d := (List.range (s.x + n - first)).foldl (fun (d : Dev) i =>
      match ycbcrPixel pairs bt full half s.row (first + i) with
      | some v => d.writeRun row 32 (first + i) 1 v bad
      | none => d) d
    (d, { fr with pairs })
  else
    let px := landPixels fmt (groups.flatMap (samplesOf g.1 g.2.2))
    let bp := 4 * bpp2 (landFmt fmt)
    (d.writeRun row bp s.x n (packRun bp px) bad, fr)

/-! ### Frames (R266 to R269, R271) -/

/-- A frame begins (R266): its number, its place, and whether it is dropped whole (R268, R269, Table 19.6). Where a plate ring lies is
not checked: the spec has no such check (log 31). -/
def Dev.openFrame (d : Dev) (p j : Nat) (r : Rtp) : Dev :=
  let x := d.ctx p j
  let ahead := x.landing.length
  let f := (d.reg (Reg.SIP_CX_FRAME p j) + ahead + 1) % 2 ^ 32
  let n := d.ctxBufs p j
  let plate := d.ctxPlate p j
  let ring := d.ctxRing p j
  let slot := ((d.plate ring).write + ahead) % d.plateFrames ring
  let gate := d.fld (Reg.SIP_CX_FENCE p j) Fld.SIP_CX_FENCE_GATE_IDX
  let blocked := if plate then x.cut || !d.plateEn ring || d.plateInUse ring slot
    else d.flag (Reg.SIP_CX_CTRL p j) Fld.SIP_CX_CTRL_GATE_EN && !d.satisfies gate (cursorSub f n)
  let dropped := blocked || d.sdp.power == 2
  let base := if plate then d.plateAddr ring slot else d.ctxBuf p j ((f + 2 ^ 32 - 1) % 2 ^ 32 % n)
  let d := d.setCtx p j { x with frame := some { rtp := r.ts, ssrc := r.ssrc, f, base, dropped }, lastRtp := some r.ts }
  if dropped then (d.count (Reg.SIP_CX_BUSY_CNT p j)).ctxEvent p j Fld.SIP_CX_EVENT_BUSY else d

/-- YCbCr pixels whose chroma never came take free colours in a frame that lands incomplete (R264, log 9). -/
def Dev.fillChroma (d : Dev) (p j : Nat) (fr : OpenFrame) (bad : List Nat) : Dev :=
  if d.ctxFmt p j != 4 then d
  else
    let half := d.ctxW p j / 2
    fr.pairs.foldl (fun (d : Dev) (e : Nat × Nat) =>
      let k := e.1 % half
      let row := e.1 / half
      if k + 1 == half || fr.pairs.get (fun _ => 0) (e.1 + 1) != 0 then d
      else d.freePixels (fr.base + row * d.landPitch p j) (2 * k + 1) 1 bad) d

/-- The open frame closes (R266, R267). -/
def Dev.closeFrame (d : Dev) (p j : Nat) (bad : List Nat) : Dev :=
  let x := d.ctx p j
  match x.frame with
  | none => d
  | some fr =>
    let d := d.setCtx p j { x with frame := none, closed := insertSorted x.closed fr.rtp }
    if fr.dropped then d
    else
      let missing := d.ctxW p j * d.ctxH p j - runCount fr.runs
      let land (d : Dev) : Dev := d.setCtx p j { d.ctx p j with landing := (d.ctx p j).landing ++ [⟨fr.f, fr.rtp, fr.ssrc⟩] }
      if missing == 0 then land d
      else
        let d := ((d.count (Reg.SIP_CX_INCOMPLETE_CNT p j)).countBy (Reg.SIP_CX_MISSING_CNT p j) missing).ctxEvent p j Fld.SIP_CX_EVENT_INCOMPLETE
        if d.flag (Reg.SIP_CX_CTRL p j) Fld.SIP_CX_CTRL_INCOMPLETE then land (d.fillChroma p j fr bad) else d

/-- A good packet reaches the open frame (R266): stale, or placed; one of a later frame closes the open one first. -/
def Dev.framePacket (d : Dev) (p j : Nat) (r : Rtp) (bad : List Nat) : Dev :=
  let x := d.ctx p j
  let stale : Bool := match x.frame with
    | some fr => decide (signedSub r.ts fr.rtp < 0) || x.closed.contains r.ts
    | none => x.lastRtp == some r.ts || x.closed.contains r.ts
  if stale then d.count (Reg.SIP_CX_STALE_CNT p j)
  else
    let d := match x.frame with
      | some fr => if fr.rtp == r.ts then d else (d.closeFrame p j bad).openFrame p j r
      | none => d.openFrame p j r
    let d := match (d.ctx p j).frame with
      | none => d
      | some fr =>
        if fr.dropped then d
        else
          let y := r.srds.foldl (fun (a : Dev × OpenFrame) s => a.1.placeSrd p j a.2 s bad) (d, fr)
          y.1.setCtx p j { y.1.ctx p j with frame := some y.2 }
    if r.marker then d.closeFrame p j bad else d

/-- What a stream frame meets on its way to memory: the receive buffer overruns, or the frame stays in it for now, what the read of its
block there finds when it leaves (R291), and the blocks whose own read within its writes fails (R25). -/
structure RxCare where
  overrun : Bool
  buffer : Ecc
  bad : List Nat
  wait : Bool := false
  deriving DecidableEq, Repr

/-- The first block of a context's 1 MiB among the receive buffers (R24, R270). -/
def bufferBlock (p j : Nat) : Nat := (16 * p + j) * 4096

/-- A packet leaves its context's receive buffer (R265, R270, Table 11.4). It counts when it is good and is not a second copy (log 20). One
that the receive buffer has lost is bad (R291). -/
def Dev.takePacket (d : Dev) (p j path : Nat) (buffer : Ecc) (bad : List Nat) (bs : List Byte) : Dev :=
  let d := d.reserved buffer contentBuffers (bufferBlock p j) 0
  if buffer == .bad then d.count (Reg.SIP_CX_BAD_CNT p j)
  else
    match rtpOf (d.ctxFmt p j) (d.ctxW p j) (d.ctxH p j) (d.fld (Reg.SIP_CX_CTRL p j) Fld.SIP_CX_CTRL_PT) bs with
    | none => d.count (Reg.SIP_CX_BAD_CNT p j)
    | some r =>
      let x := d.ctx p j
      let d := if x.state == 1 || x.state == 3 then d.setCtx p j { x with state := 2 } else d
      let m := if d.isPair p then d.merge p j path r.seq else (true, d)
      if m.1 then (m.2.count (Reg.SIP_CX_PKT_CNT p j)).framePacket p j r bad else m.2

/-- The bytes that wait in receive buffers. -/
def rxBytes (xs : List (Nat × List Byte × Ecc)) : Nat := xs.foldl (fun a x => a + x.2.1.length) 0

/-- A packet of `n` bytes finds room in the receive buffer of its context, 1 MiB of the 256 MiB that reserved memory has for all
(R270, Table 1.4). -/
def Dev.rxRoom (d : Dev) (p j n : Nat) : Bool :=
  decide (rxBytes (d.ctx p j).rx + n ≤ 2 ^ 20) && decide (rxBytes (d.ctxs.flatMap (·.2.rx)) + n ≤ reservedSize 4)

/-- The packets in a context's receive buffer leave it, in order of arrival, each with what the read of its block there finds. -/
def Dev.rxDrain (d : Dev) (p j : Nat) (bad : List Nat) : Dev :=
  let xs := (d.ctx p j).rx
  if xs.isEmpty then d
  else xs.foldl (fun (d : Dev) (e : Nat × List Byte × Ecc) => d.takePacket p j e.1 e.2.2 bad e.2.1)
    (d.setCtx p j { d.ctx p j with rx := [] })

/-- A packet for a context arrives: it overruns the receive buffer, or enters it, and leaves it at once but where it is to wait. -/
def Dev.ctxPacket (d : Dev) (p j path : Nat) (care : RxCare) (bs : List Byte) : Dev :=
  if care.overrun || !d.rxRoom p j bs.length then (d.count (Reg.SIP_CX_OVERRUN_CNT p j)).ctxEvent p j Fld.SIP_CX_EVENT_OVERRUN
  else
    let d := d.reservedWake contentBuffers (bufferBlock p j)
    let d := d.setCtx p j { d.ctx p j with rx := (d.ctx p j).rx ++ [(path, bs, care.buffer)] }
    if care.wait then d else d.rxDrain p j care.bad

/-- The closed frame's pixels have reached memory (R268, R269, R271), and so has what waited in the receive buffer. -/
def Dev.frameLanded (d : Dev) (p j : Nat) : Dev :=
  let d := d.rxDrain p j []
  let x := d.ctx p j
  match x.landing with
  | [] => d
  | l :: ls =>
    let d := d.setCtx p j { x with landing := ls, lastSsrc := some l.ssrc }
    let d := ((d.setReg (Reg.SIP_CX_FRAME p j) l.f).setReg (Reg.SIP_CX_RTP p j) l.rtp).setReg (Reg.SIP_CX_SSRC p j) l.ssrc
    let d := if x.lastSsrc.isSome && x.lastSsrc != some l.ssrc then d.ctxEvent p j Fld.SIP_CX_EVENT_SSRC else d
    let e := signedSub (d.todNs * 9 / 100000 % 2 ^ 32) l.rtp
    let us := d.fld (Reg.SIP_CX_LIMITS p j) Fld.SIP_CX_LIMITS_LATE_US
    let late := us != 0 && (us : Int) * 9000 < e * 100000
    let d := if late then (d.count (Reg.SIP_CX_LATE_CNT p j)).ctxEvent p j Fld.SIP_CX_EVENT_LATE else d
    let acq := d.fld (Reg.SIP_CX_FENCE p j) Fld.SIP_CX_FENCE_ACQ_IDX
    let d := if d.ctxPlate p j then d.plateAdvance (d.ctxRing p j)
      else d.fenceAdvance acq l.f
    d.sipSource p 0

/-! ### Frames from the link (R256, R257) -/

/-- The enabled context that a datagram matches (R261). -/
def Dev.matchCtx (d : Dev) (p : Nat) (ip : IpView) (tci : Option Nat) : Option Nat :=
  (List.range 16).find? fun j =>
    d.ctxEnabled p j && ip.udp == some (d.fld (Reg.SIP_CX_PORTS p j) Fld.SIP_CX_PORTS_UDP) && ip.dst == d.reg (Reg.SIP_CX_DST_IP p j) &&
      (!d.flag (Reg.SIP_CX_CTRL p j) Fld.SIP_CX_CTRL_VLAN_EN ||
        tci.map (· % 2 ^ 12) == some (d.fld (Reg.SIP_CX_PORTS p j) Fld.SIP_CX_PORTS_VLAN)) &&
      (!d.flag (Reg.SIP_CX_CTRL p j) Fld.SIP_CX_CTRL_SRC_EN || ip.src == d.reg (Reg.SIP_CX_SRC_IP p j))

/-- The UDP ports of `SIP_SP_UDP0` and `1`; 0 names none. -/
def Dev.slowPorts (d : Dev) (p : Nat) : List Nat :=
  ((List.range 2).flatMap fun k => [d.reg (Reg.SIP_SP_UDP p k) % 2 ^ 16, d.reg (Reg.SIP_SP_UDP p k) / 2 ^ 16]).filter (· != 0)

/-- Classify a frame that the filter has passed (Table 11.1). -/
def Dev.classify (d : Dev) (p : Nat) (bs : List Byte) (care : RxCare) : Dev :=
  let v := ethView bs
  let ip := ipView (bs.drop v.body)
  let is4 := v.type_ == 0x0800
  let base := d.pairBase p
  let isUnicast := v.dst == d.sipMac p
  let ptp := is4 && (ip.udp == some 319 || ip.udp == some 320)
  let toStack := v.type_ == 0x0806 || (is4 && (ip.proto == 1 || ip.proto == 2))
  let named := is4 && match ip.udp with | some u => (d.slowPorts p).contains u | none => false
  if is4 && !ip.good then d.count (Reg.SIP_IP_ERR_CNT p)
  else match (if is4 && !ip.fragment then d.matchCtx base ip v.tci else none) with
    | some j => d.ctxPacket base j (p % 2) care ip.payload
    | none =>
      if ptp then d.slowFrame p bs v.tci true care.bad
      else if toStack || isUnicast || named then d.slowFrame p bs v.tci false care.bad
      else d.count (Reg.SIP_NOMATCH_CNT p)

/-- A frame arrives: `bs` from its destination address to the last byte before its FCS (R255, R256). A pause frame is a MAC
control frame with opcode 1 (PRESUMED, log 20). -/
def Dev.ethFrame (d : Dev) (p : Nat) (bs : List Byte) (fcsOk : Bool) (care : RxCare) (corrected uncorrected : Nat) : Dev :=
  if d.role p != 2 || (d.sip p).state != 2 then d
  else
    let d := (d.countBy (Reg.SIP_FEC_CORR_CNT p) corrected).countBy (Reg.SIP_FEC_UNCORR_CNT p) uncorrected
    let v := ethView bs
    if bs.length < 60 || 9212 < bs.length || !fcsOk || v.doubleTag then d.count (Reg.SIP_RX_ERR_CNT p)
    else if v.type_ == 0x8808 && pkt bs v.body 2 == 1 then d.count (Reg.SIP_PAUSE_CNT p)
    else if !d.macPasses p v.dst then d
    else d.classify p bs care

/-! ### Port states (R255, R272, R274) -/

/-- A context loses its stream (Table 11.4): its open frame closes. -/
def Dev.ctxLost (d : Dev) (p j : Nat) : Dev :=
  if (d.ctx p j).state != 2 then d
  else
    let d := d.closeFrame p j []
    (d.setCtx p j { d.ctx p j with state := 3 }).ctxEvent p j Fld.SIP_CX_EVENT_LOSS

/-- A context abandons its open frame with its port's domain; what is in its receive buffer is kept where its other path stays UP (R274). -/
def Dev.ctxTorn (d : Dev) (p j : Nat) (kept : Bool) : Dev :=
  if (d.ctx p j).state == 0 then d
  else (d.setCtx p j { d.ctx p j with frame := none, rx := if kept then (d.ctx p j).rx else [] }).ctxEvent p j Fld.SIP_CX_EVENT_TORN

/-- A port begins to train: it takes the ability that `PMD` selects (R255); its transmitter stays in electrical idle until its quad PLL is
locked (R414). -/
def Dev.sipTrain (d : Dev) (p : Nat) : Dev :=
  let cr1 := d.flag (Reg.SIP_CTRL p) Fld.SIP_CTRL_PMD
  (d.setSip p { d.sip p with cr1 }).emit (if d.quadLocked (p / 4) then .train p cr1 else .lane p .idle)

/-- Enter a port state: the LINK source rises. -/
def Dev.sipTo (d : Dev) (p x : Nat) : Dev :=
  let d := if x == 1 then d.sipTrain p else d
  if (d.sip p).state == x then d
  else
    let d := (d.setSip p { d.sip p with state := x }).setReg (Reg.SIP_STATUS p) x
    (d.setFlag (Reg.SIP_EVENT p) Fld.SIP_EVENT_LINK).sipSource p 1

/-- A port's domain is reset alone (R274): its contexts abandon their open frames, and frames it was sending are lost, their
entries completing ABORTED (log 20). A port that leaves UP takes its contexts to LOST, unless the pair's other port stays
UP; whether such a frame closes first, as Table 11.4 says, or is abandoned, as R274 says, is a free choice (log 9). -/
def Dev.sipReset (d : Dev) (p x : Nat) : Dev :=
  let up := (d.sip p).state == 2
  let base := d.pairBase p
  let other := if d.isPair base then (d.sip (if p == base then base + 1 else base)).state == 2 else false
  let f := d.freshBool
  let ctxs := (List.range 16).filter fun j => (d.ctx base j).state != 0
  let lost := up && !other
  let d := f.2
  let d := if lost && f.1 then ctxs.foldl (fun d j => d.ctxLost base j) d else d
  let d := ctxs.foldl (fun d j => d.ctxTorn base j other) d
  let d := if lost && !f.1 then ctxs.foldl (fun d j => d.ctxLost base j) d else d
  let sending := (d.sip p).sending
  let d := d.setSip p { d.sip p with sending := [] }
  let d := sending.foldl (fun (d : Dev) (s : SlowEntry) =>
    d.ringComplete s.ring s.index { op := 0x21, status := stAborted, tag := s.tag, stroke := d.stk.stroke }) d
  let d := ((d.newEpoch p).countBy (Reg.SIP_TORN_CNT p) ctxs.length).setFlag (Reg.SIP_EVENT p) Fld.SIP_EVENT_TORN
  d.sipTo p x

/-- A port trains where `EN` is 1 and its quad PLL is locked. -/
def Dev.sipUp (d : Dev) (p : Nat) : Dev :=
  if d.role p == 2 && (d.sip p).state == 0 && d.flag (Reg.SIP_CTRL p) Fld.SIP_CTRL_EN && d.quadLocked (p / 4) then d.sipTo p 1 else d

/-- `RETRAIN` of a port, and loss of its quad PLL (R274, R414). -/
def Dev.sipRetrain (d : Dev) (p : Nat) : Dev := if (d.sip p).state == 0 then d else d.sipReset p 1

/-- A write of `SIP_CTRL` (Table 11.6). -/
def Dev.writeSipCtrl (d : Dev) (p v : Nat) : Dev :=
  let d := d.genericWrite (Reg.SIP_CTRL p) v
  let d := if !bit v 0 && (d.sip p).state != 0 then d.sipReset p 0 else d.sipUp p
  if !bit v 1 then d
  else if (d.sip p).state == 0 then d.refuse (Reg.SIP_BLKID p) sipLinkDown
  else d.sipRetrain p

/-- A write of `SIP_RING` (R258, R381). -/
def Dev.writeSipRing (d : Dev) (p v : Nat) : Dev :=
  let rx := Fld.SIP_RING_RX.get v
  let tx := Fld.SIP_RING_TX.get v
  if d.ringClass rx != classSlowpath || d.ringClass tx != classSlowpath then d.refuse (Reg.SIP_BLKID p) sipRingClass
  else
    let orx := d.fld (Reg.SIP_RING p) Fld.SIP_RING_RX
    let otx := d.fld (Reg.SIP_RING p) Fld.SIP_RING_TX
    let d := if orx == rx then d else d.ringUnbind orx (sipConsumer p false)
    let d := if otx == tx then d else d.ringUnbind otx (sipConsumer p true)
    let d := (d.ringBind rx (sipConsumer p false)).2
    ((d.ringBind tx (sipConsumer p true)).2).genericWrite (Reg.SIP_RING p) v

/-- `PATH` of a pair: one port delivers nothing while the other does (R270). -/
def Dev.pathEvent (d : Dev) (p j : Nat) : Dev :=
  if d.role p == 2 && d.isPair p && (d.ctx p j).state == 2 then (d.setFlag (Reg.SIP_EVENT p) Fld.SIP_EVENT_PATH).sipSource p 3 else d

/-! ### The commands -/

/-- A host write of a register of a Stream port's page; nothing where the port has another role. -/
def Dev.onStream (d : Dev) (p key : Nat) (f : Dev → Dev) : Dev :=
  if d.role p == 2 || d.role p == 0 then d.onWrite (key % 0x10000000) f else d

def execEthFrame (port : Fin 128) (data : List Byte) (fcsOk overrun : Bool) (corrected uncorrected : Nat) (s : State)
    (buffer : Ecc := .good) (bad : List Nat := []) (wait : Bool := false) : Host.Outcome State Fault Refusal :=
  s.apply fun d => d.ethFrame port data fcsOk ⟨overrun, buffer, bad, wait⟩ corrected uncorrected

def execFrameLanded (port : Fin 128) (window : Fin 16) (s : State) : Host.Outcome State Fault Refusal :=
  s.apply fun d => d.frameLanded port window

def execRxPost (port : Fin 128) (s : State) : Host.Outcome State Fault Refusal := s.apply fun d => d.slowEntry port false

def execTx (port : Fin 128) (s : State) : Host.Outcome State Fault Refusal := s.apply fun d => d.slowEntry port true

def execTxDone (port : Fin 128) (s : State) : Host.Outcome State Fault Refusal := s.apply fun d => d.txDone port

def execTsfPop (port : Fin 128) (ecc : Ecc) (s : State) : Host.Outcome State Fault Refusal :=
  s.apply fun d => if d.role port == 2 || d.role port == 0 then d.onRead (Reg.SIP_TSF_NS port % 0x10000000) fun d => d.tsfPop port ecc else d

/-- A write of `SIP_CX_CTRL` that sets `EN`. -/
def execContextEnable (port : Fin 128) (window : Fin 16) (data : Word) (s : State) : Host.Outcome State Fault Refusal :=
  s.apply fun d => d.onStream port (Reg.SIP_CX_CTRL port window) fun d => d.writeCtxCtrl port window (data.toNat ||| 1)

/-- A write of `SIP_CX_CTRL` that clears `EN`. -/
def execContextDisable (port : Fin 128) (window : Fin 16) (data : Word) (s : State) : Host.Outcome State Fault Refusal :=
  s.apply fun d => d.onStream port (Reg.SIP_CX_CTRL port window) fun d => d.writeCtxCtrl port window (data.toNat / 2 * 2)

def execContextLoss (port : Fin 128) (window : Fin 16) (s : State) : Host.Outcome State Fault Refusal :=
  s.apply fun d => d.ctxLost port window

def execPath (port : Fin 128) (window : Fin 16) (s : State) : Host.Outcome State Fault Refusal :=
  s.apply fun d => d.pathEvent port window

def execLinkUp (port : Fin 128) (s : State) : Host.Outcome State Fault Refusal :=
  s.apply fun d => if (d.sip port).state == 1 && d.quadLocked (port / 4) then d.sipTo port 2 else d

def execLinkLeavesUp (port : Fin 128) (s : State) : Host.Outcome State Fault Refusal :=
  s.apply fun d => if (d.sip port).state == 2 then d.sipReset port 1 else d

/-- A write of 1 to `SIP_CTRL.RETRAIN`, the other fields as they stand (R274). -/
def execSipRetrain (port : Fin 128) (s : State) : Host.Outcome State Fault Refusal :=
  s.apply fun d => d.onStream port (Reg.SIP_CTRL port) fun d => d.writeSipCtrl port (d.reg (Reg.SIP_CTRL port) ||| 2)

end Sys2Proof.Machine
end

