-- ==== Sys2Proof/Machine/Tally.lean ====
section
/-! DEFINITION. The tally units: scans (R364 to R369), binding to a link (R373) and the result FIFO (R374). -/

namespace Sys2Proof.Machine

/-- A scan descriptor (Table 16.2). -/
structure ScanD where
  op : Nat
  unit_ : Nat
  fold : Nat
  waitEn : Bool
  sigEn : Bool
  resEn : Bool
  cmpEn : Bool
  start : Nat
  length : Nat
  seq : Nat
  expect : Nat
  waitIdx : Nat
  waitLimit : Nat
  waitVal : Nat
  sigIdx : Nat
  sigVal : Nat
  result : Nat
  tag : Nat
  deriving DecidableEq, Repr

/-- The fields of a descriptor's words. -/
def scanD (ws : List Nat) : ScanD :=
  let x := wordOf ws
  { op := bits (x 0) 7 0, unit_ := bits (x 0) 11 8, fold := bits (x 0) 13 12, waitEn := bit (x 0) 24, sigEn := bit (x 0) 25
    resEn := bit (x 0) 26, cmpEn := bit (x 0) 27, start := x 1 + 2 ^ 32 * x 2, length := x 3 + 2 ^ 32 * x 4, seq := x 5
    expect := x 6 + 2 ^ 32 * x 7, waitIdx := bits (x 8) 9 0, waitLimit := bits (x 8) 31 16, waitVal := x 9
    sigIdx := bits (x 10) 9 0, sigVal := x 11, result := x 12 + 2 ^ 32 * x 13, tag := x 14 }

/-- A descriptor is MALFORMED (R366). -/
def Dev.scanBad (d : Dev) (ws : List Nat) : Bool :=
  let b := scanD ws
  b.op != 1 || b.fold == 3 ||
  !(reservedClear [0x0F003FFF, all32, 0x1F, all32, 0x1F, all32, all32, all32, 0xFFFF03FF, all32, 0x3FF, all32, all32, 0x1F,
    all32, 0] ws) ||
  b.length == 0 || memEnd < b.start + b.length || (b.resEn && (b.result % 8 != 0 || !d.inPart 0 b.result 8))

/-- The fold prefix (Table 16.2). -/
def ScanD.prefix_ (b : ScanD) : List Byte :=
  match b.fold with
  | 1 => leBytes 8 b.start
  | 2 => leBytes 4 b.seq
  | _ => []

/-- Whether the wait fence of a scan is satisfied (R367). -/
def Dev.scanReady (d : Dev) (ws : List Nat) : Bool :=
  let b := scanD ws
  !b.waitEn || d.satisfies b.waitIdx b.waitVal

/-- `TLY_STATUS.STATE` of a unit (Table 16.4). A head with a wait fence waits until it starts, on the edge after the fence satisfies it (R351,
R367, log 22). -/
def Dev.tlyState (d : Dev) (u : Nat) : Nat :=
  let t := d.tly u
  if t.current.isSome then 1
  else if d.fld (Reg.TLY_CFG u) Fld.TLY_CFG_MODE == 1 then 2
  else if !t.heads.isEmpty && t.heads.all fun h => (scanD h.words).waitEn then 3 else 0

/-- `TLY_STATUS` shows the state and the ring of the scan in progress or of the last one. -/
def Dev.tlyShow (d : Dev) (u : Nat) : Dev :=
  (d.setFld (Reg.TLY_STATUS u) Fld.TLY_STATUS_STATE (d.tlyState u)).setFld (Reg.TLY_STATUS u) Fld.TLY_STATUS_RING (d.tly u).last

/-- A scan completes with a record (R368, Table 17.3). -/
def Dev.scanEnd (d : Dev) (h : Scan) (status detail value : Nat) : Dev :=
  let b := scanD h.words
  d.ringComplete h.ring h.index { op := b.op, status, tag := b.tag, stroke := d.stk.stroke, detail, extra := value }

/-- A head of a ring waits at some unit. -/
def Dev.scanWaiting (d : Dev) (r : Nat) : Bool := d.tallies.any fun e => e.2.heads.any (·.ring == r)

/-- A scan of a ring is in progress at some unit. -/
def Dev.scanRunning (d : Dev) (r : Nat) : Bool := d.tallies.any fun e => e.2.current.any (·.ring == r)

/-- The units read the descriptor at the front of a ring and check it (R366, R367, R369). -/
def Dev.scanRead (d : Dev) (r : Nat) : Dev :=
  if !d.hasTly || d.ringClass r != classTally || !d.ringReadable r || d.scanWaiting r then d
  else
    let d := d.ringFetch r 0 1
    let ws := d.ringEntry r (d.ringCons r)
    let b := scanD ws
    let h : Scan := ⟨r, d.ringCons r, ws⟩
    let d := d.ringTake r 1
    if d.scanBad ws then d.scanEnd h stMalformed 0 0
    else if 2 ≤ d.sdp.power || d.fld (Reg.TLY_CFG b.unit_) Fld.TLY_CFG_MODE == 1 then d.scanEnd h stState 0 0
    else
      let t := d.tly b.unit_
      (d.setTly b.unit_ { t with heads := t.heads ++ [h] }).tlyShow b.unit_

/-- The heads that a unit may start, in rotation from the ring after the last one served; none whose ring has an earlier scan
in progress (R350, R367). -/
def Dev.scanOrder (d : Dev) (u : Nat) : List Scan :=
  let t := d.tly u
  let hs := t.heads.mergeSort fun a b => a.ring ≤ b.ring
  (hs.filter (t.last < ·.ring) ++ hs.filter (·.ring ≤ t.last)).filter fun h => d.scanReady h.words && !d.scanRunning h.ring

/-- A unit starts the scan whose turn it is; it takes its parameters and its mode now: a unit that is in link mode by then names no scan,
which completes STATE (R364, R366, R367). -/
def Dev.scanStart (d : Dev) (u : Nat) : Dev :=
  let t := d.tly u
  if t.current.isSome || 2 ≤ d.sdp.power || d.boot.flush || !d.loaded then d
  else match d.scanOrder u with
    | [] => d
    | h :: _ =>
      if d.fld (Reg.TLY_CFG u) Fld.TLY_CFG_MODE == 1 then
        ((d.setTly u { t with heads := t.heads.erase h }).scanEnd h stState 0 0).tlyShow u
      else (d.setTly u { t with heads := t.heads.erase h, current := some h, last := h.ring, params := some (d.tlyParams u), tried := [] }).tlyShow u

/-- A unit's scan ends (R368): a source block that fails takes its ladder first. -/
def Dev.scanComplete (d : Dev) (u : Nat) (bad : List Nat) : Dev :=
  let t := d.tly u
  match t.current with
  | none => d
  | some h =>
    if d.readerWaits (1 + u) then d
    else
      let b := scanD h.words
      let d := d.memWake (blocksOf b.start b.length)
      let fails := d.newFails (blocksOf b.start b.length) bad t.tried
      if !fails.isEmpty then (d.plainLadders (1 + u) fails).setTly u { t with tried := t.tried ++ fails }
      else
        let p := t.params.getD (d.tlyParams u)
        let v := tlyValue p (b.prefix_ ++ d.memRead b.start b.length)
        let damaged := d.rangeDamaged b.start b.length
        let mismatch := b.cmpEn && v % 2 ^ p.1 != b.expect % 2 ^ p.1
        let flags := (if damaged then 1 else 0) + if mismatch then 2 else 0
        let d := d.setTly u { t with current := none, tried := [] }
        let d := if b.resEn then d.memStore b.result (leBytes 8 v) bad else d
        let x := d.tlyPush u ⟨v, b.tag % 2 ^ 16 * 2 ^ 16 + 2 ^ 4 + flags⟩
        let d := if b.sigEn then x.2.fenceAdvance b.sigIdx b.sigVal else x.2
        let d := d.count (Reg.TLY_SCAN_CNT u)
        let d := if mismatch then (d.count (Reg.TLY_MISMATCH_CNT u)).tlyEvent u Fld.TLY_EVENT_MISMATCH else d
        let d := if damaged then (d.count (Reg.TLY_DAMAGED_CNT u)).tlyEvent u Fld.TLY_EVENT_DAMAGED else d
        (d.scanEnd h stDone (flags + if x.1 then 4 else 0) v).tlyShow u

/-- The wait limit of a ring's head passes (R351, R367). -/
def Dev.scanTimeout (d : Dev) (r : Nat) : Dev :=
  (List.range 16).foldl (fun d u =>
    let t := d.tly u
    match t.heads.find? fun h => h.ring == r && !d.scanReady h.words && (scanD h.words).waitLimit != 0 with
    | none => d
    | some h => ((d.setTly u { t with heads := t.heads.erase h }).scanEnd h stFenceTimeout 0 0).tlyShow u) d

/-- Scans in progress complete ABORTED with no result and no fence; those that wait complete with a status (R369, R456). -/
def Dev.scanStop (d : Dev) (waiting : Nat) : Dev :=
  (List.range 16).foldl (fun d u =>
    let t := d.tly u
    if t.current.isNone && t.heads.isEmpty then d
    else
      let d := (d.setTly u { t with current := none, heads := [], tried := [] }).orphanReader (1 + u)
      let d := match t.current with
        | some h => d.scanEnd h stAborted 0 0
        | none => d
      (t.heads.foldl (fun d h => d.scanEnd h waiting 0 0) d).tlyShow u) d

/-! ### Binding to a link (R373) -/

def tlyUnitBusy : Nat := 1
def tlyLinkActive : Nat := 2
def tlyLinkTaken : Nat := 3
def tlyLinkAbsent : Nat := 4
def tlyModeRange : Nat := 5

/-- A link target's state is IDLE or FAILED (Tables 13.7, 14.9). -/
def Dev.linkQuiet (d : Dev) (link : Nat) : Bool :=
  if link == 0 then
    let s := d.fld Reg.TWN_STATUS Fld.TWN_STATUS_STATE
    s == 0 || s == 5
  else
    let s := d.fld Reg.TRK_STATUS Fld.TRK_STATUS_STATE
    s == 0 || s == 4

/-- The block of a link target is present. -/
def Dev.linkPresent (d : Dev) (link : Nat) : Bool := if link == 0 then d.hasTwn else d.hasTrk

/-- Why a write of `TLY_CFG` is refused (R364, R373). A write that changes neither `MODE`, nor `LINK` while `MODE` is 1, leaves
the binding alone (log 22). -/
def Dev.tlyRefusal (d : Dev) (u v : Nat) : Option Nat :=
  let mode := Fld.TLY_CFG_MODE.get v
  let link := Fld.TLY_CFG_LINK.get v
  let oldMode := d.fld (Reg.TLY_CFG u) Fld.TLY_CFG_MODE
  let oldLink := d.fld (Reg.TLY_CFG u) Fld.TLY_CFG_LINK
  let rebinds := mode != oldMode || (mode == 1 && link != oldLink)
  let targets := (if mode == 1 then [link] else []) ++ if oldMode == 1 then [oldLink] else []
  let state := d.tlyState u
  if state == 1 || state == 3 then some tlyUnitBusy
  else if 2 ≤ mode then some tlyModeRange
  else if !rebinds then none
  else if targets.any fun t => !d.linkPresent t then some tlyLinkAbsent
  else if mode == 1 && (d.tlyBound link).any (· != u) then some tlyLinkTaken
  else if targets.any fun t => !d.linkQuiet t then some tlyLinkActive
  else none

/-- A write of `TLY_CFG`: binding to a link takes the parameters as they stand (R364, R373). -/
def Dev.writeTlyCfg (d : Dev) (u v : Nat) : Dev :=
  match d.tlyRefusal u v with
  | some r => d.refuse Reg.TLY_BLKID r
  | none =>
    let bound := d.fld (Reg.TLY_CFG u) Fld.TLY_CFG_MODE == 1
    let link := d.fld (Reg.TLY_CFG u) Fld.TLY_CFG_LINK
    let d := d.genericWrite (Reg.TLY_CFG u) v
    let now := Fld.TLY_CFG_MODE.get v == 1
    let kept := bound && now && Fld.TLY_CFG_LINK.get v == link
    let d := if kept then d else d.setTly u { d.tly u with params := if now then some (d.tlyParams u) else none }
    d.tlyShow u

/-- A write of a parameter register of a unit (R364). -/
def Dev.writeTlyParam (d : Dev) (u key v : Nat) : Dev :=
  let state := d.tlyState u
  if state == 1 || state == 3 then d.refuse Reg.TLY_BLKID tlyUnitBusy else d.genericWrite key v

/-! ### The result FIFO (R374) -/

/-- Store what `TLY_RF_LO`, `TLY_RF_HI` and `TLY_RF_INFO` show. -/
def Dev.tlyShowResult (d : Dev) (u : Nat) (x : TlyResult) : Dev :=
  d.setRegs (Reg.TLY_RF_LO u) [x.value % 2 ^ 32, x.value / 2 ^ 32, x.info]

/-- A read of `TLY_RF_LO`. What an uncorrectable entry reads as, beside `ECC_BAD`, is free (log 9). -/
def Dev.resultPop (d : Dev) (u : Nat) (ecc : Ecc) : Nat × Dev :=
  let t := d.tly u
  match t.fifo with
  | [] => (t.lastRead.value % 2 ^ 32, d.setFlag (Reg.TLY_RF_STATUS u) Fld.TLY_RF_STATUS_UNDERRUN)
  | x :: xs =>
    let y : TlyResult × Dev := match ecc with
      | .good => (x, d)
      | .corrected => (x, (d.count (Reg.TLY_RF_CORR_CNT u)).secdedCorrected)
      | .bad =>
        let v := d.freshNat
        let i := v.2.freshNat
        (⟨v.1 % 2 ^ 64, i.1 % 2 ^ 28 * 16 + i.1 / 2 ^ 28 % 4 + 4⟩, i.2.secdedBad storeFifo 0)
    (y.1.value % 2 ^ 32, (y.2.setTly u { t with fifo := xs, lastRead := y.1 }).tlyShowResult u y.1)

/-! ### The commands -/

def execScan (ring : Fin 16384) (s : State) : Host.Outcome State Fault Refusal := s.apply fun d => d.scanRead ring

def execScanStart (unit : Fin 16) (s : State) : Host.Outcome State Fault Refusal := s.apply fun d => d.scanStart unit

def execScanComplete (unit : Fin 16) (bad : List Nat) (s : State) : Host.Outcome State Fault Refusal :=
  s.apply fun d => d.scanComplete unit bad

def execScanFenceTimeout (ring : Fin 16384) (s : State) : Host.Outcome State Fault Refusal := s.apply fun d => d.scanTimeout ring

def execTlyCfg (unit : Fin 16) (data : Word) (s : State) : Host.Outcome State Fault Refusal :=
  s.apply fun d => d.onWrite (Reg.TLY_CFG unit) fun d => d.writeTlyCfg unit data.toNat

def execResultPop (unit : Fin 16) (ecc : Ecc) (s : State) : Host.Outcome State Fault Refusal :=
  s.apply fun d => d.onRead (Reg.TLY_RF_LO unit) fun d => d.resultPop unit ecc

end Sys2Proof.Machine
end

