-- ==== Sys2Proof/Machine/Reframe.lean ====
section
/-! DEFINITION. REFRAME as far as the device alone is concerned: its refusals (Table 4.5), its acceptance (R102), and the stroke
numbers that a REFRAME from elsewhere brings (R311, R314, R342). -/

namespace Sys2Proof.Machine

/-- The strokes that the STROKE partition must hold in whole pacing, in bytes (R92). -/
def Dev.storeNeeds (d : Dev) (t : Timing) : Nat := (t.compLead + 1) * d.canvasArea * 6

/-- The size of the STROKE partition. -/
def Dev.storeSize (d : Dev) : Nat := ((d.wb.parts.find? (·.kind == 4)).map (·.size * partUnit)).getD 0

/-- Rows TABLE to BUDGET of Table 4.5 for the shadow timing; a broken structure shows as `TEST` 6 before any test of admission (R120,
R154). -/
def Dev.reframeCheck (d : Dev) : Option (Nat × Option AdmFail) :=
  let t := d.shadowTiming
  if !t.valid then some (stkTable, none)
  else if d.hasPrt && !t.racing && d.storeSize < d.storeNeeds t then some (stkStoreSize, none)
  else if !t.racing && d.stk.timing == 1 && 2 * d.live.period < t.span t.compLead then some (stkLeadSpan, none)
  else match d.admitStructure (d.projectedWith []) t.phases, d.admission (d.reframePlan d.reframeB0 1 [] d.flp.windows) with
    | some f, _ => some (stkBudget, some f)
    | none, some f => some (stkBudget, some f)
    | none, none => none

/-- Why a REFRAME is refused (Table 4.5). -/
def Dev.reframeRefusal (d : Dev) : Option (Nat × Option AdmFail) :=
  if 2 ≤ d.stk.timing then some (stkReframeBusy, none)
  else if d.sdp.power == 2 then some (stkPower, none)
  else if d.wb.hierarchy == 2 then some (stkLodger, none)
  else d.reframeCheck

/-- The stroke numbers of the device take those of another device: `s` comes next. Strokes under other numbers are
gone. Of the captures of `STK_OUT` and `SHOW` the newest is kept, as that of the stroke before `s`: it serves the first `L` strokes, which no
latch point captures (DESIGN CHOICE, log 52). -/
def Dev.renumber (d : Dev) (s : Nat) : Dev :=
  if d.nextStroke == s then d
  else
    let last := strokeAdd s (two48 - 1)
    let d := (d.loseJobs fun _ => true).orphanLadders fun _ => true
    let d := { d with
      stk := { d.stk with stroke := last, captures := (d.stk.captures.take 1).map (fun (c : StkCapture) => { c with stroke := last }) }
      prt := { d.prt with strokes := [], lifting := [], dealStroke := last, doneStroke := last }
      flp := { d.flp with windows := [], recent := [], used := [] } }
    (d.portsOf 1).foldl (fun d p => d.setCoach p { (d.coach p).restart s with withdrawn := [], marker := none, configs := [] }) d

/-- A REFRAME is accepted: it takes effect at `b`, and gives its first stroke a number where one comes from elsewhere (R102). -/
def Dev.reframeAccept (d : Dev) (b : Rat) (given : Option Nat) : Dev :=
  let d := d.lullExit
  let d := (match given with
    | some s => if d.stk.running then d else d.renumber s
    | none => d)
  { d with stk := { d.stk with reframe := some b, given := given, joins := false, timing := 2 } }

/-- The stroke numbers of a REFRAME from elsewhere: at the latch point of its first stroke, or as it takes effect where that latch point has
passed (R311, R342). -/
def Dev.reframeNumbers (d : Dev) : Dev :=
  match d.reframeNext, d.stk.given with
  | true, some s => d.renumber s
  | _, _ => d

end Sys2Proof.Machine
end

