-- ==== Sys2Proof/Machine/Twin.lean ====
section
/-! DEFINITION. Twin pairing (R302 to R325): lanes, heartbeat and serving, the pairing states, the agreement at the latch, and the
register writes of TWN. What a frame that arrives does lies in `TwinRx`. -/

namespace Sys2Proof.Machine

/-! ### Views and small parts -/

/-- The device is live: a Coach port carries stroke markers to the stops, which it does in RUN (R213, R321, log 24). -/
def Dev.isLive (d : Dev) : Bool := (d.portsOf 1).any fun p => (d.coach p).state == 2

/-- The heartbeat output and the heartbeat input of the device, by its waybill role (R306). -/
def Dev.aliveOut (d : Dev) : AlivePin := if d.wb.twin == 2 then .n else .p
def Dev.aliveIn (d : Dev) : AlivePin := if d.wb.twin == 2 then .p else .n

/-- `TWN_STATUS` as it is read (Table 13.7). -/
def Dev.twnStatus (d : Dev) : Nat := Fld.TWN_STATUS_LIVE.put (d.reg Reg.TWN_STATUS) (if d.isLive then 1 else 0)

/-- The device is of a one-live pair (R71). -/
def Dev.oneLive (d : Dev) : Bool := d.wb.twinMode == 1

/-- A change of the pairing state; `CAUSE` is shown in ALONE alone (R308, Table 13.7). -/
def Dev.twnTo (d : Dev) (x : Nat) : Dev :=
  if d.twnState == x then d
  else
    let d := (d.setFld Reg.TWN_STATUS Fld.TWN_STATUS_STATE x)
    let d := if x == 4 then d else d.setFld Reg.TWN_STATUS Fld.TWN_STATUS_CAUSE 0
    (d.twnEvent Fld.TWN_EVENT_STATE).raise 0x4660

/-- PART, from JOIN or PAIRED (Table 13.1). -/
def Dev.twnPart (d : Dev) (cause : Nat) : Dev := if d.paired then d.twnSend 0x03 (leBytes 1 cause) else d

/-! ### Lanes -/

/-- `TWN_STATUS.LANES`: bit `k` is the `k`-th twin port. -/
def Dev.twnLanes (d : Dev) : Nat :=
  (d.portsOf 3).foldr (fun p (a : Nat) => 2 * a + if d.lane p == 2 then 1 else 0) 0

/-- A twin lane takes a state; one that is DOWN drives nothing (R302, R306). -/
def Dev.setLane (d : Dev) (p x : Nat) : Dev :=
  let d := if x == 0 && d.lane p != 0 then d.emit (.lane p .idle) else d
  let d := { d with twn := { d.twn with
    lanes := d.twn.lanes.set (fun _ => 0) p x, queues := if x == 2 then d.twn.queues else d.twn.queues.set (fun _ => (0 : Rat)) p 0 } }
  let d := d.setFld (Reg.TWN_PORT_STATUS p) Fld.TWN_PORT_STATUS_STATE x
  d.setFld Reg.TWN_STATUS Fld.TWN_STATUS_LANES d.twnLanes

/-- A lane's transmitter begins to train (R302). -/
def Dev.laneTrain (d : Dev) (p : Nat) : Dev :=
  { d with twn := { d.twn with codes := d.twn.codes.set (fun _ => {}) p {} } }.emit (.lane p (d.pairDrive p))

/-- A lane that is DOWN trains, where it is enabled, its quad is locked, and the device serves (R302, R306). -/
def Dev.laneUp (d : Dev) (p : Nat) : Dev :=
  if d.lane p == 0 && d.twn.serving && d.flag (Reg.TWN_PORT_CTRL p) Fld.TWN_PORT_CTRL_EN && d.quadLocked (p / 4) then (d.setLane p 1).laneTrain p
  else d

/-- A lane leaves alignment: `LANE` latches (R304). -/
def Dev.laneLost (d : Dev) (p x : Nat) : Dev :=
  let was := d.lane p
  let d := d.setLane p x
  if was == 2 then (d.twnEvent Fld.TWN_EVENT_LANE).raise 0x4666 else d

/-- A lane is trained again: its port domain is reset (R304). -/
def Dev.laneRetrain (d : Dev) (p : Nat) : Dev :=
  if d.lane p == 0 then d else (((d.laneLost p 1).laneTrain p).newEpoch p).twnEvent Fld.TWN_EVENT_TORN

/-- Whether the device serves (R306). -/
def Dev.twnServes (d : Dev) : Bool :=
  d.hasTwn && d.loaded && d.sdp.power != 3 && d.flag Reg.TWN_CTRL Fld.TWN_CTRL_PAIR_EN &&
    !d.flag Reg.TWN_CTRL Fld.TWN_CTRL_STOP_ALIVE && !d.bridgeIsDown && d.boot.inReset.isNone && !d.boot.flush

/-- The heartbeat output and the lanes follow what R306 asks: a device that no longer serves drives its output low and its lanes
into electrical idle; one that begins to serve trains its lanes. -/
def Dev.twnSettle (d : Dev) : Dev :=
  let on := d.twnServes
  if d.twn.serving == on then d
  else
    let d := ({ d with twn := { d.twn with serving := on } }).emit (.alive d.aliveOut on)
    if on then (d.portsOf 3).foldl Dev.laneUp d
    else (d.portsOf 3).foldl (fun (d : Dev) p => d.laneLost p 0) d

/-! ### Leaving JOIN and PAIRED -/

/-- The comparison of every stroke finishes (R319), while the device still counts as paired. -/
def Dev.comparisonsEnd (d : Dev) : Dev :=
  if d.paired then (d.prt.strokes.map (·.stroke)).foldl Dev.comparisonEnd d else d

/-- What ends with a pair (R320, R330): every twin repair that is awaited, and the wait of trunk frames for the twin. -/
def Dev.pairEnded (d : Dev) : Dev :=
  let blocks := ((d.ladders.filter (·.twin)).map (·.block)).eraseDups
  (blocks.foldl Dev.repairFailed d).trkRelease

/-- The hold cause of a standby (R321, R322); a time at which an earlier one was to become live is void. -/
def Dev.setStandby (d : Dev) (on : Bool) : Dev :=
  { d with twn := { d.twn with standby := on, liveAt := none } }

/-- The codes of `CAUSE`. -/
def causeLost : Nat := 1
def causePart : Nat := 2
def causeLink : Nat := 3
def causeDecision : Nat := 4

/-- The partner is gone for a standby: it becomes live at tick `n` + 2 (R322; after PART too, log 24). -/
def Dev.standbyDue (d : Dev) : Dev :=
  if d.twn.standby then { d with twn := { d.twn with liveAt := some (strokeAdd d.stk.stroke 2) } } else d

/-- The device enters ALONE from JOIN or PAIRED (Table 13.2, R316, R319, R321 to R323): in both-live mode it is live at once where the
partner is lost or has sent PART. -/
def Dev.enterAlone (d : Dev) (cause : Nat) : Dev :=
  if !d.paired then d
  else
    let d0 := d
    let d := d.comparisonsEnd
    let d := (d.setFld Reg.TWN_STATUS Fld.TWN_STATUS_CAUSE cause).twnTo 4
    let d := if cause == causeLink || cause == causeDecision then d.setFld Reg.TWN_STATUS Fld.TWN_STATUS_MIRROR_GAP 1 else d
    let d := if (cause == causeLink || cause == causeDecision) && d.secondary then d.setStandby true else d
    let d := if cause == causeLost || cause == causePart then (if d.oneLive then d.standbyDue else d.setStandby false) else d
    (d.readsOver d0).pairEnded.coachSettle.readsAcked

/-- The partner is lost (R307, Table 13.2). -/
def Dev.partnerLost (d : Dev) : Dev :=
  let cause := d.fld Reg.TWN_STATUS Fld.TWN_STATUS_CAUSE
  if d.paired then
    (((d.count Reg.TWN_LOSS_CNT).twnEvent Fld.TWN_EVENT_LOST).raise 0x4661).enterAlone causeLost
  else if d.hasTwn && d.twnState == 4 && (cause == causeLink || cause == causeDecision) then
    (((d.setFld Reg.TWN_STATUS Fld.TWN_STATUS_CAUSE causeLost).twnEvent Fld.TWN_EVENT_LOST).raise 0x4661).standbyDue
  else d

/-- `PAIR_EN` is cleared (Table 13.2). -/
def Dev.unpair (d : Dev) : Dev :=
  let e := (d.twnPart 1).comparisonsEnd
  (((e.twnTo 0).readsOver d).pairEnded).readsAcked

/-! ### Authentication (R309, R310) -/

/-- The AUTH payload of this device: nonce, pairing digest, stroke counter, flags. -/
def Dev.twnAuthPayload (d : Dev) (nonce : List Byte) : List Byte :=
  let flags := (if d.secondary then 1 else 0) + (if d.oneLive then 2 else 0) + (if d.keyPresent then 4 else 0) +
    if d.stk.timing != 0 then 8 else 0
  nonce ++ (d.wb.pairDigest ++ List.replicate 48 0).take 48 ++ leBytes 6 d.stk.stroke ++ leBytes 2 flags

/-- The device enters AUTH: a fresh nonce, and sequence numbers that begin again (log 23). -/
def Dev.enterAuth (d : Dev) : Dev :=
  let r := d.freshBytes 32
  let d := { r.2 with twn := { r.2.twn with
    txSeq := 0, rxNext := 0, held := [], sent := [], session := List.replicate 8 0, nonce := r.1, theirAuth := none, liveAt := none } }
  let d := (d.setFld Reg.TWN_STATUS Fld.TWN_STATUS_FAIL 0).twnTo 1
  d.twnSend 0x01 (d.twnAuthPayload r.1)

/-- The tag of R309. -/
def Dev.twnTag (d : Dev) (theirs : List Byte) : List Byte :=
  let prim := if d.secondary then theirs.take 32 else d.twn.nonce
  let sec := if d.secondary then d.twn.nonce else theirs.take 32
  let name : List Byte := [0x57, 0x53, 0x4E, 0x2D, 0x54, 0x57, 0x49, 0x4E]
  hmac384 d.stageKeyBytes (name ++ prim ++ sec ++ (d.wb.pairDigest ++ List.replicate 48 0).take 48 ++ leBytes 1 d.wb.twinMode)

/-- The first failing row of Table 13.3 before TIMEOUT; 0 where all pass. -/
def Dev.twnCheck (d : Dev) (theirs tag : List Byte) : Nat :=
  let flags := leNat ((theirs.drop 86).take 2)
  if !d.keyPresent || !bit flags 2 then 1
  else if (theirs.drop 32).take 48 != (d.wb.pairDigest ++ List.replicate 48 0).take 48 then 2
  else if bit flags 0 == d.secondary then 3
  else if bit flags 1 != d.oneLive then 4
  else if (if d.secondary then d.stk.timing != 0 else bit flags 3) then 5
  else if tag.take 48 != d.twnTag theirs then 6
  else 0

/-- A pairing check has failed. -/
def Dev.twnFail (d : Dev) (row : Nat) : Dev := (d.setFld Reg.TWN_STATUS Fld.TWN_STATUS_FAIL row).twnTo 5

/-! ### The state image (R311) -/

/-- Shadow registers of Table 13.4, and their live copies: what a state image carries. -/
def isImageReg (k : Nat) : Bool :=
  let page := k % 0x10000
  (0x200000 ≤ k && k < 0x280000) || (0x301000 ≤ k && k < 0x301200) || k == Reg.PRT_PARCEL || k == Reg.PRT_PARCEL_LIVE ||
  (Reg.STK_FRAME_PERIOD ≤ k && k ≤ Reg.STK_PACING_LIVE) || (Reg.STK_PHASE_LEN 0 ≤ k && k < Reg.STK_PHASE_LEN 16) ||
  (Reg.STK_SHOW 0 ≤ k && k < Reg.STK_SHOW_LIVE 16) || k == Reg.STK_OUT || k == Reg.STK_OUT_LIVE ||
  (Reg.FLP_FENCE 0 ≤ k && k < Reg.FLP_FENCE 1024) ||
  (Reg.STL_PR_CTRL 0 ≤ k && k < Reg.STL_PR_CTRL 64 && (k - Reg.STL_PR_CTRL 0) % 0x40 ≤ 12) || k == Reg.DEP_CTRL || k == Reg.DEP_LAMBDA ||
  (Reg.CPT_BLKID 0 ≤ k && k < Reg.CPT_BLKID 128 &&
    ((0x1C ≤ page && page ≤ 0x24) || page == 0x10 || (0x1000 ≤ page && page < 0x2000)))

/-- The next camera-frame boundary, and the stroke that begins there. -/
def Dev.nextBoundary (d : Dev) : Rat × Nat :=
  (d.boundary (d.stk.frame + 1), strokeAdd d.stk.stroke (d.live.phases - d.stk.phase))

/-- A queued set as a state image carries it. -/
def QSet.image (q : QSet) : ImageSet :=
  let at_ : Nat × Nat := match q.origin with
    | .own r i => (r, i)
    | .mirrored r i => (r, i)
    | .trunk s => (0, s)
  { ring := at_.1, index := at_.2, target := q.target, deadline := q.deadline, afEn := q.afEn, afIdx := q.afIdx, afVal := q.afVal,
    tag := q.tag, members := q.members, trunk := match q.origin with | .trunk s => some s | _ => none }

/-- A stroke-clock time on the device's time base, and a time of its time base on its stroke clock. -/
def Dev.timeOf (d : Dev) (b : Rat) : Rat := (d.stk.nowBase : Nat) + (b - d.stk.scBase) / d.scRate
def Dev.scOf (d : Dev) (t : Rat) : Rat := d.stk.scBase + (t - (d.stk.nowBase : Nat)) * d.scRate

/-- A time of another device's time base on this device's stroke clock, placed by the one-way delay and the latest SYNC of the link
(departure and arrival, in 1/16 ns); before the first SYNC its place is free (R305, R311, R314; log 9). -/
def Dev.placed (d : Dev) (sync : Option (Nat × Nat)) (delay : Nat) (t : Rat) : Rat × Dev :=
  match sync with
  | some x => (d.scOf (t + (((x.2 : Int) - (delay : Int) - (x.1 : Int) : Int) : Rat) / 16), d)
  | none =>
    let r := d.freshNat
    (r.2.scOf ((r.1 : Nat) : Rat), r.2)

/-- A time of the twin, placed by `TWN_DELAY` (R311, R314). -/
def Dev.twnPlaced (d : Dev) (t : Rat) : Rat × Dev := d.placed d.twn.syncRx (d.reg Reg.TWN_DELAY) t

/-- `B₀` of a first REFRAME that is pending, on the device's time base, and the stroke that begins there. -/
def Dev.firstBoundary (d : Dev) : Option (Rat × Nat) := d.stk.reframe.map fun b => (d.timeOf b, d.stk.given.getD d.nextStroke)

/-- The most registers of a STATE frame: 500, at 8 B each (R371, log 23). -/
def imageChunk : Nat := 500

/-- The parts of a state image: registers by the chunk, and each queued set alone (R371). -/
def imageParts (regs : List (Nat × Nat)) (sets : List ImageSet) : List (List (Nat × Nat) × List ImageSet) :=
  ((List.range (max 1 (ceilDiv regs.length imageChunk))).map fun k => ((regs.drop (imageChunk * k)).take imageChunk, [])) ++
    sets.map fun x => ([], [x])

/-- The acting primary sends its state image in STATE frames (R311): the registers, every queued set, and with the last frame the next
camera-frame boundary, which is `B₀` where its own first REFRAME is pending. -/
def Dev.sendImage (d : Dev) : Dev :=
  let regs := (d.regs.filter fun e => isImageReg e.1).map fun e => (e.1, e.2.toNat)
  let parts := imageParts regs (d.flp.queue.map QSet.image)
  let start := if d.stk.running then some (d.timeOf d.nextBoundary.1, d.nextBoundary.2) else d.firstBoundary
  ((List.range parts.length).zip parts).foldl (fun (d : Dev) e =>
    let last := e.1 + 1 == parts.length
    d.twnSendMsg (.state (e.1 == 0) last e.2.1 e.2.2 (if last then start else none))) d

/-- The device enters PAIRED (Table 13.2, R316, R321, R322). -/
def Dev.enterPaired (d : Dev) : Dev :=
  let join := d.twnState == 2
  let d := (d.setFld Reg.TWN_STATUS Fld.TWN_STATUS_MIRROR_GAP 0).twnTo 3
  let d := if join then d.raise 0x4667 else d
  ({ d with twn := { d.twn with standby := d.oneLive && d.secondary, liveAt := none } }).coachSettle

/-- The device enters JOIN: the acting primary sends its image, and the secondary counts as standby (R311). -/
def Dev.enterJoin (d : Dev) : Dev :=
  let d := { d.twnTo 2 with twn := { d.twn with agreed := [], liveAt := none } }
  if d.secondary then (d.setStandby true).coachSettle else d.sendImage

/-- The partner's TAG decides the pairing (R310). -/
def Dev.twnTagged (d : Dev) (tag : List Byte) : Dev :=
  match d.twnState == 1, d.twn.theirAuth with
  | true, some theirs =>
    match d.twnCheck theirs tag with
    | 0 =>
      let runs := if d.secondary then bit (leNat ((theirs.drop 86).take 2)) 3 else d.stk.timing != 0
      let d := { d with twn := { d.twn with session := tag.take 8 } }
      if runs then d.enterJoin else d.enterPaired
    | row => d.twnFail row
  | _, _ => d

/-! ### Frames that arrive: lane, check, ACK -/

/-- `ACK` covers frames: those no longer wait (R304), sets that wait for it count as read (R313), and trunk frames leave (R330). -/
def Dev.twnAck (d : Dev) (ack : Nat) : Dev :=
  let old := d.twn.sent
  let left := old.filter fun e => cursorBeyond e.seq ((ack + 1) % 2 ^ 32)
  if left.length == old.length then d
  else ({ d with twn := { d.twn with sent := left } }).trkRelease.readsAcked

/-- A frame arrives on a lane: whether the link takes it, and the device with what it counts (R303, Table 13.9). -/
def Dev.twnHeard (d : Dev) (h : TwinHead) (good : Bool) : Bool × Dev :=
  if !d.hasTwn || d.lane h.lane != 2 then (false, d)
  else
    let d := (d.countBy (Reg.TWN_PORT_CORR_CNT h.lane) h.corr).countBy (Reg.TWN_PORT_UNCORR_CNT h.lane) h.uncorr
    if good then (true, d.twnAck h.ack.toNat) else (false, d.count (Reg.TWN_PORT_BAD_CNT h.lane))

/-- The check of a frame given by its bytes (R303). -/
def Dev.twnCrc (d : Dev) (h : TwinHead) (type_ : Nat) (payload : List Byte) (crc : Word) : Bool :=
  let header := leBytes 1 type_ ++ leBytes 1 0 ++ leBytes 2 payload.length ++ leBytes 4 h.seq.toNat ++ leBytes 4 h.ack.toNat ++ leBytes 4 0
  crc.toNat == crc32c (d.twn.session ++ header ++ payload)

/-! ### SYNC (R305) -/

/-- A SYNC payload: departure, the last that was received (departure and arrival), and the offset of the latest tick, which is
the departure minus that tick (log 23); times in 1/16 ns. -/
def Dev.syncPayload (d : Dev) (departure : Nat) (rx : Option (Nat × Nat)) : List Byte :=
  let e := rx.getD (0, 0)
  let offset := match d.stk.ticks with
    | t :: _ => departure - 16 * t.2
    | [] => 0
  leBytes 8 departure ++ leBytes 8 e.1 ++ leBytes 8 e.2 ++ leBytes 8 offset

/-- Field `k` of a SYNC payload. -/
def syncField (payload : List Byte) (k : Nat) : Nat := leNat ((payload.drop (8 * k)).take 8)

/-- The one-way delay that a SYNC gives, in 1/16 ns; none where it echoes nothing. A half is rounded either way (log 9). -/
def Dev.syncDelay (d : Dev) (payload : List Byte) (arrival : Nat) : Option Nat × Dev :=
  let f := syncField payload
  if f 1 == 0 && f 2 == 0 then (none, d)
  else
    let sum := signed 64 (f 2 + 2 ^ 64 - f 1) + signed 64 (arrival + 2 ^ 64 - f 0)
    let r := d.roundFree ((sum : Rat) / 2)
    (some (r.1 % 2 ^ 24), r.2)

/-- A SYNC of the twin: delay and skew (R305). -/
def Dev.twnSync (d : Dev) (payload : List Byte) (arrival : Nat) : Dev :=
  let f := syncField payload
  let x := d.syncDelay payload arrival
  let d := { x.2 with twn := { x.2.twn with syncRx := some (f 0, arrival) } }
  match x.1, d.stk.ticks with
  | some delay, t :: _ =>
    let d := d.setReg Reg.TWN_DELAY delay
    let skew : Rat := ((arrival : Int) - delay - f 3 - 16 * t.2 : Int) / 16
    let up := d.freshBool
    let ns := clampInt (-32768) 32767 (if skew.den == 1 then skew.floor else if up.1 then skew.floor + 1 else skew.floor)
    let old := signed 16 (d.reg Reg.TWN_SKEW)
    let mark := d.fld Reg.TWN_SKEW_MARK Fld.TWN_SKEW_MARK_NS
    let d := up.2.setReg Reg.TWN_SKEW (toTwos 16 ns)
    if old.natAbs ≤ mark && mark < ns.natAbs then ((d.count Reg.TWN_SKEW_CNT).twnEvent Fld.TWN_EVENT_SKEW).raise 0x4664 else d
  | some delay, [] => d.setReg Reg.TWN_DELAY delay
  | none, _ => d

/-! ### Agreement at the latch (R315, R316) -/

/-- What the acting primary decides for a set of its snapshot, by both snapshots (R182, R315). -/
def Dev.twnVerdict (d : Dev) (m id mine theirs : Nat) : Bool × Nat :=
  match d.flp.queue.find? (·.id == id) with
  | none => (false, 0)
  | some q =>
    let mask := mine &&& theirs
    if waitMissing q mask && !strokeGe m (strokeAdd q.target q.deadline) then (false, 0) else (true, heldMask q mask)

/-- The acting primary sends DECISION once it holds both snapshots of a latch point. -/
def Dev.twnDecide (d : Dev) : Dev :=
  match d.twn.snapshot, d.twn.ready with
  | some s, some r =>
    if !d.primaryPaired || s.1 != r.1 || (d.twn.decision.map (·.1)) == some s.1 then d
    else
      let sets := ((List.range s.2.length).zip s.2).map fun e => d.twnVerdict s.1 e.2.1 e.2.2 (r.2.getD e.1 0)
      let d := { d with twn := { d.twn with decision := some (s.1, sets) } }
      d.twnSendMsg (.decision s.1 sets)
  | _, _ => d

/-- The twin cutoff of the next latch point (R315). -/
def Dev.twnCutoff (d : Dev) : Dev :=
  if !d.paired || !d.timed || d.stk.latched then d
  else
    let m := d.nextStroke
    let d := d.advanceSc (d.nextLatch - 6000)
    let shot := (d.eligibleSets m false).map fun q => (q.id, d.readyMask q)
    let d := { d with twn := { d.twn with snapshot := some (m, shot) } }
    if d.secondary then d.twnSendMsg (.ready m (shot.map (·.2))) else d.twnDecide

/-- At the capture edge of latch point `m`: an acting secondary in PAIRED that holds no DECISION for it leaves PAIRED (R316). The
flag says that no set applies at `m`. -/
def Dev.twnLatch (d : Dev) (m : Nat) : Bool × Dev :=
  if d.hasTwn && d.twnState == 3 && d.secondary && (d.twn.decision.map (·.1)) != some m then
    let d := (d.twnEvent Fld.TWN_EVENT_DECISION_LATE).raise 0x4668
    (true, (d.twnPart 3).enterAlone causeDecision)
  else (false, d)

/-! ### Register writes of TWN -/

def twnLossRange : Nat := 1
def twnSwapState : Nat := 2
def twnRetryState : Nat := 3

/-- `SWAP`: the acting role changes, which aborts the queued sets (R183, R324). -/
def Dev.twnSwap (d : Dev) : Dev :=
  if 1 ≤ d.twnState && d.twnState ≤ 3 then d.refuse Reg.TWN_BLKID twnSwapState
  else
    let toSecondary := !d.secondary
    let d := d.setFld Reg.TWN_STATUS Fld.TWN_STATUS_ACTING (if toSecondary then 1 else 0)
    let d := d.flushSets stAborted
    (if toSecondary then (if d.oneLive then d.setStandby true else d) else d.setStandby false).coachSettle

/-- `RETRY` (Table 13.2). -/
def Dev.twnRetry (d : Dev) : Dev :=
  if (d.twnState == 4 || d.twnState == 5) && !d.alignedLanes.isEmpty then d.enterAuth else d.refuse Reg.TWN_BLKID twnRetryState

/-- A write of `TWN_CTRL` (Table 13.7). -/
def Dev.writeTwnCtrl (d : Dev) (v : Nat) : Dev :=
  let was := d.reg Reg.TWN_CTRL
  let d := d.genericWrite Reg.TWN_CTRL v
  let d := if bit v 1 && !bit was 1 then d.twnPart 1 else d
  let d := if bit was 0 && !bit v 0 then d.unpair else d
  let d := if bit v 2 then d.twnRetry else d
  let d := if bit v 3 then d.twnSwap else d
  d.twnSettle

/-- A write of `TWN_LOSS` (Table 13.8). -/
def Dev.writeTwnLoss (d : Dev) (v : Nat) : Dev :=
  let us := Fld.TWN_LOSS_US.get v
  if us < 10 || 1000 < us then d.refuse Reg.TWN_BLKID twnLossRange else d.genericWrite Reg.TWN_LOSS v

/-- A write of a twin port's `CTRL` (R304, Table 13.9). -/
def Dev.writeTwnPort (d : Dev) (p v : Nat) : Dev :=
  let d := d.genericWrite (Reg.TWN_PORT_CTRL p) v
  let d := if bit v 0 then d.laneUp p else if d.lane p == 0 then d else d.laneLost p 0
  if bit v 1 then (if d.lane p == 0 then d.refuse (Reg.TWN_PORT_BLKID p) 1 else d.laneRetrain p) else d

/-! ### The commands -/

/-- A lane has gained alignment (R302, R308); none does while its quad PLL is not locked (R414). -/
def Dev.laneAligned (d : Dev) (p : Nat) : Dev :=
  if !d.hasTwn || d.role p != 3 || d.lane p != 1 || !d.quadLocked (p / 4) then d
  else
    let d := d.setLane p 2
    if d.twnState == 0 && d.flag Reg.TWN_CTRL Fld.TWN_CTRL_PAIR_EN then d.enterAuth else d

/-- Unacknowledged frames are sent again (R304). -/
def Dev.twnResend (d : Dev) : Dev :=
  if d.alignedLanes.isEmpty then d
  else
    let d := d.twn.sent.foldl (fun (d : Dev) e => (d.twnEmit e.session e.seq e.msg).count Reg.TWN_RETRANSMIT_CNT) d
    { d with twn := { d.twn with sent := d.twn.sent.map fun e => { e with resends := e.resends + 1 } } }

/-- The link is down (R304): no lane is aligned, or a frame has been sent again 16 times. -/
def Dev.twnDown (d : Dev) : Bool := d.alignedLanes.isEmpty || d.twn.sent.any fun e => 16 ≤ e.resends

def execTwinLaneAligned (port : Fin 128) (s : State) : Host.Outcome State Fault Refusal := s.apply fun d => d.laneAligned port

def execLane (port : Fin 128) (s : State) : Host.Outcome State Fault Refusal :=
  s.apply fun d => if d.hasTwn && d.role port == 3 && d.lane port == 2 then d.laneLost port 1 else d

def execTwinResend (s : State) : Host.Outcome State Fault Refusal := s.apply fun d => if d.hasTwn then d.twnResend else d

/-- The link is down; `wire` says that the heartbeat input still toggles: it is link loss (R307). -/
def execTwinLinkDown (wire : Bool) (s : State) : Host.Outcome State Fault Refusal :=
  s.apply fun d => if d.paired && d.twnDown && wire then d.enterAlone causeLink else d

/-- No heartbeat edge, and no frame, for `TWN_LOSS.US` (R307): the heartbeat input does not toggle. -/
def execPartnerLost (s : State) : Host.Outcome State Fault Refusal :=
  s.apply fun d => if d.hasTwn then (d.setFld Reg.TWN_STATUS Fld.TWN_STATUS_WIRE_IN 0).partnerLost else d

/-- No heartbeat edge for 4 µs while frames pass (R307). -/
def execWire (s : State) : Host.Outcome State Fault Refusal :=
  s.apply fun d => if !d.hasTwn || d.sdp.power == 3 then d
    else ((d.setFld Reg.TWN_STATUS Fld.TWN_STATUS_WIRE_IN 0).twnEvent Fld.TWN_EVENT_WIRE).raise 0x4665

/-- 10 ms pass in AUTH (Table 13.3). -/
def execAuthTimeout (s : State) : Host.Outcome State Fault Refusal :=
  s.apply fun d => if d.hasTwn && d.twnState == 1 then d.twnFail 7 else d

/-- `JOIN_STROKES` strokes in a row have agreed; 0 acts as 1 (Table 13.2). -/
def execJoinComplete (s : State) : Host.Outcome State Fault Refusal :=
  s.apply fun d =>
    if d.hasTwn && d.twnState == 2 && max 1 (d.fld Reg.TWN_CTRL Fld.TWN_CTRL_JOIN_STROKES) ≤ d.twn.inRow then d.enterPaired else d

def execTwinCutoff (s : State) : Host.Outcome State Fault Refusal := s.apply fun d => d.twnCutoff

/-- Tick `u` + 2 has passed for the strokes up to `u`: their comparison finishes (R319). -/
def execTwinComparisonEnd (s : State) : Host.Outcome State Fault Refusal :=
  s.apply fun d =>
    let us := (d.prt.strokes.filter fun r => !r.compared && strokeGe d.stk.stroke (strokeAdd r.stroke 2)).map (·.stroke)
    (us.foldl Dev.comparisonEnd d).readsOver d

/-- A standby whose partner is lost becomes live (R322). -/
def execStandbyLive (s : State) : Host.Outcome State Fault Refusal :=
  s.apply fun d => match d.twn.liveAt with
    | some n => if strokeGe d.stk.stroke n then (d.setStandby false).coachSettle else d
    | none => d

/-- `HEARTBEAT`, every 10 µs (Table 13.1). -/
def execHeartbeatSend (s : State) : Host.Outcome State Fault Refusal :=
  s.apply fun d => if d.hasTwn && d.twn.serving then d.twnSendLoose 0x10 (leBytes 6 d.stk.stroke ++ leBytes 4 d.twnStatus) else d

/-- SYNC, every 1 ms (R305); `frac` is the part of the departure below 1 ns, in 1/16 ns. -/
def execTwinSyncSend (frac : Fin 16) (s : State) : Host.Outcome State Fault Refusal :=
  s.apply fun d => if d.hasTwn && d.twn.serving then d.twnSendLoose 0x11 (d.syncPayload (16 * d.now + frac) d.twn.syncRx) else d

/-- A HEARTBEAT arrives; `wire` says that the heartbeat input toggles (R307). -/
def execHeartbeat (head : TwinHead) (crc : Word) (payload : List Byte) (wire : Bool) (s : State) : Host.Outcome State Fault Refusal :=
  s.apply fun d =>
    let r := d.twnHeard head (d.twnCrc head 0x10 payload crc)
    if r.1 then r.2.setFld Reg.TWN_STATUS Fld.TWN_STATUS_WIRE_IN (if wire then 1 else 0) else r.2

/-- A SYNC arrives; `frac` is the part of its arrival below 1 ns, in 1/16 ns. -/
def execTwinSync (head : TwinHead) (crc : Word) (payload : List Byte) (frac : Fin 16) (s : State) : Host.Outcome State Fault Refusal :=
  s.apply fun d =>
    let r := d.twnHeard head (d.twnCrc head 0x11 payload crc)
    if r.1 then r.2.twnSync payload (16 * d.now + frac) else r.2

/-- An IDLE frame carries nothing but its header (R303). -/
def execTwinIdle (head : TwinHead) (crc : Word) (payload : List Byte) (s : State) : Host.Outcome State Fault Refusal :=
  s.apply fun d => (d.twnHeard head (d.twnCrc head 0x00 payload crc)).2

/-- A write of 1 to `SWAP`, the other fields as they stand (R324). -/
def execSwap (s : State) : Host.Outcome State Fault Refusal :=
  s.apply fun d => d.onWrite Reg.TWN_CTRL fun d => d.writeTwnCtrl (d.reg Reg.TWN_CTRL ||| 8)

/-- A write of 1 to `RETRY`. -/
def execTwinRetry (s : State) : Host.Outcome State Fault Refusal :=
  s.apply fun d => d.onWrite Reg.TWN_CTRL fun d => d.writeTwnCtrl (d.reg Reg.TWN_CTRL ||| 4)

/-- A write that clears `PAIR_EN`. -/
def execPairEn (s : State) : Host.Outcome State Fault Refusal :=
  s.apply fun d => d.onWrite Reg.TWN_CTRL fun d => d.writeTwnCtrl (Fld.TWN_CTRL_PAIR_EN.put (d.reg Reg.TWN_CTRL) 0)

/-- A write that sets `STOP_ALIVE` (R306). -/
def execStopAlive (s : State) : Host.Outcome State Fault Refusal :=
  s.apply fun d => d.onWrite Reg.TWN_CTRL fun d => d.writeTwnCtrl (d.reg Reg.TWN_CTRL ||| 2)

/-- A host write of a register of a twin port's page; nothing where the port has another role. -/
def Dev.onTwin (d : Dev) (p key : Nat) (f : Dev → Dev) : Dev :=
  if d.role p == 3 || d.role p == 0 then d.onWrite (key % 0x10000000) f else d

/-- A write of 1 to `RETRAIN` of a twin port. -/
def execTwinPortRetrain (port : Fin 128) (s : State) : Host.Outcome State Fault Refusal :=
  s.apply fun d => d.onTwin port (Reg.TWN_PORT_CTRL port) fun d => d.writeTwnPort port (d.reg (Reg.TWN_PORT_CTRL port) ||| 2)

end Sys2Proof.Machine
end

