-- ==== Sys2Proof/Machine/Trunk.lean ====
section
/-! DEFINITION. Steward and lodgers (R326 to R346): authentication of trunk lanes, TICK and SYNC, trunk sets on the originator and on a
lodger, REFRAME through the hierarchy, the roster, roll-up and doorbells, and the register writes of TRK. -/

namespace Sys2Proof.Machine

/-! ### Times -/

def Dev.cutoffNs (d : Dev) : Nat := d.fld Reg.TRK_TIMES Fld.TRK_TIMES_CUTOFF_US * 1000
def Dev.readyNs (d : Dev) : Nat := d.fld Reg.TRK_TIMES Fld.TRK_TIMES_READY_US * 1000

/-- The stroke-clock time of the latch point of stroke `n`, which lies ahead; none while no ticks are placed. -/
def Dev.latchTime (d : Dev) (n : Nat) : Option Rat :=
  let k := strokeSub n d.stk.stroke
  match d.stk.reframe with
  | some b =>
    let m := d.reframeAhead b
    let t := d.shadowTiming
    if m ≤ k then
      let i := k - m
      let frame := i / max 1 t.phases
      some (b + ((frame * t.ns + frame * t.rem / t.den + t.phaseStart (i % max 1 t.phases) : Nat) : Rat) - (t.lead : Nat))
    else some (d.boundary (d.stk.frame + ((d.stk.phase + k) / d.live.phases : Nat)) +
      (d.live.phaseStart ((d.stk.phase + k) % d.live.phases) : Nat) - (d.live.lead : Nat))
  | none =>
    if !d.stk.running then none
    else some (d.boundary (d.stk.frame + ((d.stk.phase + k) / d.live.phases : Nat)) +
      (d.live.phaseStart ((d.stk.phase + k) % d.live.phases) : Nat) - (d.live.lead : Nat))

/-- Whether the commit cutoff of latch point `n` has passed (R335). -/
def Dev.cutoffPassed (d : Dev) (n : Nat) : Bool :=
  d.latchPassed n || match d.latchTime n with
    | some t => t - (d.cutoffNs : Nat) < d.scNow
    | none => false

/-- The target of a TSET with `NEXT`: the first latch point whose commit cutoff lies at least 50 µs ahead (Table 14.4). -/
def Dev.nextCutoff (d : Dev) : Nat → Nat → Nat
  | 0, n => n
  | fuel + 1, n =>
    match d.latchTime n with
    | some t => if d.scNow + 50000 ≤ t - (d.cutoffNs : Nat) then n else d.nextCutoff fuel (strokeAdd n 1)
    | none => n

/-! ### The timing image (R342) -/

/-- The timing registers of an image: the timing shadows, `STK_SHOW` and `STK_OUT`, each with its live copy. -/
def imageTiming : List (Nat × Nat) :=
  [(Reg.STK_FRAME_PERIOD, Reg.STK_FRAME_PERIOD_LIVE), (Reg.STK_FRAME_FRAC, Reg.STK_FRAME_FRAC_LIVE),
    (Reg.STK_SHUTTER, Reg.STK_SHUTTER_LIVE), (Reg.STK_LATCH_LEAD, Reg.STK_LATCH_LEAD_LIVE), (Reg.STK_PACING, Reg.STK_PACING_LIVE)] ++
  ((List.range 16).map fun p => (Reg.STK_PHASE_LEN p, Reg.STK_PHASE_LEN_LIVE p)) ++
  ((List.range 16).map fun p => (Reg.STK_SHOW p, Reg.STK_SHOW_LIVE p)) ++ [(Reg.STK_OUT, Reg.STK_OUT_LIVE)]

/-- The image of the live timing, which a newly joined lodger gets; and that of the shadows, which a REFRAME proposes. -/
def Dev.liveImage (d : Dev) : TimingImage :=
  ⟨imageTiming.map fun r => d.reg r.2, d.stk.stroke,
    if d.stk.running then some (d.timeOf d.nextBoundary.1, d.nextBoundary.2) else d.firstBoundary⟩
def Dev.shadowImage (d : Dev) : TimingImage := ⟨imageTiming.map fun r => d.reg r.1, d.stk.stroke, none⟩

/-- The shadows take an image's values, of which reserved bits are 0 (R6). -/
def Dev.putImage (d : Dev) (regs : List Nat) : Dev :=
  (imageTiming.zip regs).foldl (fun (d : Dev) (e : (Nat × Nat) × Nat) => d.setReg e.1.1 (fieldBits e.1.1 e.2)) d

/-- A lodger takes the image of the device above it on port `p` and is joined (R342, Table 14.3): the boundary is placed on its own
stroke clock by the lane's delay (R331). -/
def Dev.takeImage (d : Dev) (p : Nat) (im : TimingImage) : Dev :=
  let d := d.putImage im.regs
  let x := d.tlane p
  let d := (match im.start with
    | some s =>
      let b := d.placed x.syncRx x.delay s.1
      let d := b.2.reframeAccept b.1 (some s.2)
      { d with stk := { d.stk with joins := true } }
    | none => d)
  let d := { d with trk := { d.trk with upper := some (x.theirDepth, x.theirIndex) } }
  (d.trkTo 2).trkRoute.coachSettle

/-! ### Authentication of a lane (R328) -/

/-- Whether this device is the upper one of a lane; for equal depths the spec does not say, and a free choice decides (log 9). -/
def Dev.laneUpper (d : Dev) (x : TrkLane) : Bool × Dev :=
  if x.depth == x.theirDepth then d.freshBool else (decide (x.depth < x.theirDepth), d)

/-- The tag of a lane. -/
def Dev.laneTag (d : Dev) (x : TrkLane) (upper : Bool) : List Byte :=
  let theirs := ((x.theirAuth.getD []) ++ List.replicate 32 0).take 32
  let name : List Byte := [0x57, 0x53, 0x4E, 0x2D, 0x54, 0x52, 0x4E, 0x4B]
  let nonces := if upper then x.nonce ++ theirs else theirs ++ x.nonce
  hmac384 d.stageKeyBytes (name ++ nonces ++ leBytes 4 d.wb.stage ++ leBytes 1 (if upper then x.theirIndex else d.trkIndex))

/-- A check of R328 has failed on a lane; a device all of whose trunk ports have failed is FAILED (Table 14.3). -/
def Dev.laneFail (d : Dev) (p row : Nat) : Dev :=
  let d := d.setFld (Reg.TRK_PORT_STATUS p) Fld.TRK_PORT_STATUS_FAIL row
  if d.trkState == 1 && (d.portsOf 4).all fun q => d.fld (Reg.TRK_PORT_STATUS q) Fld.TRK_PORT_STATUS_FAIL != 0 then d.trkTo 4 else d

/-- The partner's AUTH has been taken: TAG goes out (R309, R328). -/
def Dev.laneAuthed (d : Dev) (p : Nat) (payload : List Byte) : Dev :=
  let x := d.tlane p
  if x.state != 2 || x.theirAuth.isSome then d
  else
    let d := d.setTlane p { x with theirAuth := some payload }
    let u := d.laneUpper (d.tlane p)
    u.2.trkSendOn p { type_ := 0x02, origin := d.trkIndex, sseq := 0, body := .bytes (d.laneTag (d.tlane p) u.1) }

/-- The partner's TAG decides the lane (R328). A joined device sends its timing image, a covered frame, to a lodger that
has not joined (R342, R370). -/
def Dev.laneTagged (d : Dev) (p : Nat) (tag : List Byte) : Dev :=
  let x := d.tlane p
  match x.state == 2, x.theirAuth with
  | true, some theirs =>
    let u := d.laneUpper x
    let d := u.2
    if !d.keyPresent then d.laneFail p 1
    else if leNat ((theirs.drop 32).take 4) != d.wb.stage then d.laneFail p 2
    else if (x.depth == 0xFF && x.theirDepth == 0xFF) || min x.depth x.theirDepth == 3 then d.laneFail p 3
    else if tag.take 48 != d.laneTag x u.1 then d.laneFail p 4
    else
      let d := (d.setTlane p { x with state := 3, session := tag.take 8 }).trkRoute
      if d.trkJoined && d.isDownlink p && x.theirDepth == 0xFF then
        (d.tlyAppendTold 1).trkSendOn p { type_ := 0x20, origin := d.trkIndex, sseq := 0, body := .timing 0 d.liveImage }
      else d
  | _, _ => d

/-! ### The roster (R345) -/

/-- Show the roster in `TRK_ROSTER` (Table 14.9). -/
def Dev.showRoster (d : Dev) : Dev :=
  let bits_ (lo : Nat) : Nat := (List.range 32).foldl (fun a i => if d.trk.roster.any (·.1 == lo + i) then a + 2 ^ i else a) 0
  (d.setReg Reg.TRK_ROSTER_LO (bits_ 0)).setReg Reg.TRK_ROSTER_HI (bits_ 32)

/-- An up frame other than LEAVE shows that its device is JOINED (log 25). -/
def Dev.rosterAdd (d : Dev) (x : Nat × Bool) : Dev :=
  if d.trk.roster.contains x || 64 ≤ x.1 || !d.trkJoined then d
  else ({ d with trk := { d.trk with roster := d.trk.roster ++ [x] } }).showRoster

/-- The devices of the roster that a set names; a REFRAME names all. -/
def Dev.setDevices (d : Dev) (s : TrunkSet) : List (Nat × Bool) :=
  if s.ring.isNone then d.trk.roster else d.trk.roster.filter fun x => s.groups.any (·.1 == x.1)

/-! ### Trunk sets on the originator -/

def Dev.putTrunkSet (d : Dev) (s : TrunkSet) : Dev :=
  { d with trk := { d.trk with sets := d.trk.sets.map fun e => if e.number == s.number then s else e } }
def Dev.dropTrunkSet (d : Dev) (n : Nat) : Dev := { d with trk := { d.trk with sets := d.trk.sets.filter (·.number != n) } }

/-- The completion of a trunk set on its ring (R335, R337, R340). -/
def Dev.setComplete (d : Dev) (s : TrunkSet) (status stroke detail : Nat) : Dev :=
  match s.ring with
  | some x => d.ringComplete x.1 x.2 { op := 8, status, tag := s.tag, stroke, detail }
  | none => d

/-- `DETAIL` of a trunk set that concerns a lodger index: the index, and that it is valid (Table 17.3). -/
def indexDetail (i : Nat) : Nat := i % 64 + 64

/-- A set is aborted (R337, R345): its latch stroke is free, since it names none (log 9). -/
def Dev.setAbort (d : Dev) (s : TrunkSet) (status index : Nat) : Dev :=
  let d := ((d.trkDown 0x23 (.bytes (leBytes 4 s.number))).count Reg.TRK_ABORT_CNT).raise 0x4683
  let m := (d.dropTrunkSet s.number).freshNat
  m.2.setComplete s status (m.1 % two48) (indexDetail index)

/-- A trunk set goes on as far as the devices that it names have answered (R340). -/
def Dev.setProgress (d : Dev) (s : TrunkSet) : Dev :=
  let devs := d.setDevices s
  let appliedAll := devs.all fun x => s.applied.any (·.1 == x)
  let status := if s.applied.any (·.2) then stMarkLost else if s.heldAny then stFenceTimeout else stDone
  let r : TrunkSet × Dev := if s.phase == 3 && appliedAll then ({ s with phase := 4 }, d.setComplete s status s.latch 0) else (s, d)
  if r.1.phase == 4 && devs.all r.1.released.contains then
    let d := r.2.dropTrunkSet s.number
    match s.rf with
    | some f => d.fenceAdvance f.1 f.2
    | none => d
  else r.2.putTrunkSet r.1

/-- Every set goes on. -/
def Dev.setsProgress (d : Dev) : Dev :=
  d.trk.sets.foldl (fun (d : Dev) s => match d.trk.sets.find? (·.number == s.number) with
    | some x => d.setProgress x
    | none => d) d

/-- A device leaves the roster (R345). -/
def Dev.rosterLeave (d : Dev) (x : Nat × Bool) : Dev :=
  if !d.trk.roster.contains x then d
  else
    let d := ({ d with trk := { d.trk with roster := d.trk.roster.filter (· != x) } }).showRoster
    let d := (d.trkEvent Fld.TRK_EVENT_LEAVE).raise 0x4682
    let gone := !(d.trk.roster.any (·.1 == x.1))
    let d := (d.trk.sets.filter fun s => gone && s.phase == 0 && s.groups.any (·.1 == x.1)).foldl
      (fun (d : Dev) s => d.setAbort s stState x.1) d
    d.setsProgress

def Dev.trunkRing (d : Dev) : Nat := d.fld Reg.TRK_RING Fld.TRK_RING_SET

/-- The groups of a TSET: each head with its members. -/
def Dev.trunkGroups (d : Dev) (r : Nat) : Nat → Nat → List (List Nat × List (List Nat))
  | _, 0 => []
  | at_, n + 1 =>
    let h := d.ringEntry r (d.ringCons r + at_)
    let k := (setHead h).count
    (h, d.entriesFrom r (at_ + 1) k) :: d.trunkGroups r (at_ + 1 + k) n

/-- The form of a TSET and of its groups, as far as the steward can judge it (R334, R335). -/
def Dev.tsetGood (d : Dev) (e : List Nat) (gs : List (List Nat × List (List Nat))) : Bool :=
  let ids := gs.map fun g => (setHead g.1).lodger
  reservedClear [0xFF017FFF, all32, 0xFFFF, 0x800003FF, all32, 0x800003FF, all32, all32] e &&
    1 ≤ gs.length && gs.length ≤ 64 && ids.eraseDups.length == ids.length &&
    gs.all fun g => headGood true g.1 && (d.readMembers g.2).isSome

/-- For each member of a group: for a FLIP whether it waits. -/
def groupWaits (es : List (List Nat)) : List (Option Bool) := es.map fun e => if opOf e == 2 then some (bit (wordOf e 0) 24) else none

/-- The PREPARE frames of a group (R336). -/
def Dev.sendGroup (d : Dev) (n target : Nat) (g : List Nat × List (List Nat)) : Dev :=
  let es := g.1 :: g.2
  let parts := if 63 < es.length then 2 else 1
  let head (k : Nat) : List Byte := leBytes 1 0 ++ leBytes 1 (setHead g.1).lodger ++ leBytes 4 n ++ leBytes 6 target ++ leBytes 1 k ++
    leBytes 1 parts ++ leBytes 2 0
  let d := d.trkDown 0x20 (.bytes (head 0 ++ (es.take 63).flatMap wordBytes))
  if parts == 2 then d.trkDown 0x20 (.bytes (head 1 ++ (es.drop 63).flatMap wordBytes)) else d

/-- A TSET that completes on reading, with `DETAIL` 0 (R335, R385). -/
def Dev.tsetReject (d : Dev) (r n tag status : Nat) : Dev :=
  let d := if status == stMalformed then d.count Reg.FLP_MALFORMED_CNT else if status == stLate then d.count Reg.FLP_LATE_CNT else d
  let m := d.freshNat
  m.2.ringReject r n { op := 8, status, tag, stroke := m.1 % two48 }

/-- The originator reads the trunk set at the front of its ring (R335). -/
def Dev.readTset (d : Dev) : Dev :=
  let r := d.trunkRing
  if !(d.originator && d.trkJoined && d.loaded && d.ringClass r == classTrunk && d.ringReadable r) then d
  else
    let b := d.ringBind r (2 * Reg.TRK_RING)
    let d := b.2
    let n := if opOf (d.ringEntry r (d.ringCons r)) == 8 then d.frontEntries r else 1
    let d := if b.1 && n ≤ d.unreadIn r then d.ringFetch r 0 n else d
    let e := d.ringEntry r (d.ringCons r)
    if !b.1 then d
    else if opOf e != 8 then d.rejectSet r 1 (opOf e) 0 stMalformed
    else
      let k := bits (wordOf e 0) 14 8
      let n := 1 + d.groupEntries r 1 k
      if d.unreadIn r < n then d
      else
        let d := d.lullExit
        let gs := d.trunkGroups r 1 k
        let h := setHead e
        let tag := wordOf e 7
        let target := if h.next then d.nextCutoff 4096 d.firstLatch else h.target
        if !d.tsetGood e gs || d.tooFar target then d.tsetReject r n tag stMalformed
        else if d.cutoffPassed target then d.tsetReject r n tag stLate
        else match gs.find? fun g => !(d.trk.roster.any (·.1 == (setHead g.1).lodger)) with
          | some _ => d.tsetReject r n tag stState
          | none =>
            let number := d.trk.nextSet
            let s : TrunkSet := {
              number, ring := some (r, d.ringCons r), target, deadline := h.deadline
              af := if bit (wordOf e 3) 31 then some (bits (wordOf e 3) 9 0, wordOf e 4) else none
              rf := if bit (wordOf e 5) 31 then some (bits (wordOf e 5) 9 0, wordOf e 6) else none
              tag, groups := gs.map fun g => ((setHead g.1).lodger, groupWaits g.2) }
            let d := d.ringTake r n
            let d := { d with trk := { d.trk with nextSet := (number + 1) % 2 ^ 32, sets := d.trk.sets ++ [s] } }
            gs.foldl (fun (d : Dev) g => d.sendGroup number target g) d

/-- The answers of the devices that a set names, in lodger-index order: the first refusal, and the first device without an answer. -/
def Dev.setAnswers (d : Dev) (s : TrunkSet) : Option (Nat × Nat) × Option Nat :=
  let devs := (d.setDevices s).mergeSort fun a b => a.1 ≤ b.1
  let ans (x : Nat × Bool) : Option Nat := (s.answers.find? (·.1 == x)).map (·.2)
  (devs.findSome? fun x => match ans x with
    | some v => if v == stDone then none else some (x.1, v)
    | none => none,
   (devs.find? fun x => (ans x).isNone).map (·.1))

/-- A lodger has refused a REFRAME (R342, Table 4.13): the timing stays as it is. -/
def Dev.reframeRefused (d : Dev) : Dev :=
  let d := { d with stk := { d.stk with reframe := none, given := none, timing := if d.stk.running then 1 else 0 } }
  ((d.refuse Reg.STK_BLKID stkLodgerRefused).raise 0x4687).coachSettle

/-- The commit cutoff of a REFRAME (R342): `B₀` travels in 1/16 ns (log 25). The twin of the originator gets it here. -/
def Dev.reframeCutoff (d : Dev) (s : TrunkSet) : Dev :=
  match d.stk.reframe, (d.setAnswers s).1 with
  | none, _ => d.dropTrunkSet s.number
  | some _, some _ => ((d.trkDown 0x23 (.bytes (leBytes 4 s.number))).dropTrunkSet s.number).reframeRefused
  | some b, none =>
    let x := d.roundFree (b * 16)
    let d := x.2.trkDown 0x22 (.bytes (leBytes 4 s.number ++ leBytes 8 x.1 ++ leBytes 6 s.target))
    let d := if d.primaryPaired then d.twnMirror [.reframe (d.timeOf b) s.target] else d
    d.dropTrunkSet s.number

/-- The commit cutoff of the earliest set that awaits it (R337). A set that is committed goes behind those that were before it: lodgers
read them in the order of their COMMITs. -/
def Dev.commitCutoff (d : Dev) : Dev :=
  let due := d.trk.sets.filterMap fun s => if s.phase == 0 then (d.latchTime s.target).map fun t => (s, t) else none
  let first := due.foldl (fun (b : Option (TrunkSet × Rat)) x => match b with
    | some y => if x.2 < y.2 then some x else b
    | none => some x) none
  match first with
  | none => d
  | some (s, t) =>
    let d := d.advanceSc (t - (d.cutoffNs : Nat))
    if s.ring.isNone then d.reframeCutoff s
    else match d.setAnswers s with
      | (some x, _) => d.setAbort s x.2 x.1
      | (none, some i) => d.setAbort s stLate i
      | (none, none) =>
        let d := (d.trkDown 0x22 (.bytes (leBytes 4 s.number))).count Reg.TRK_SET_CNT
        let rest := d.trk.sets.filter (·.number != s.number)
        { d with trk := { d.trk with sets := rest ++ [{ s with phase := 1 }] } }

/-- The trunk set that is eligible at latch point `m` (R338): the first in the order of the COMMITs that has not been decided for good,
once its target has come. -/
def Dev.eligibleTrunk (d : Dev) (m : Nat) : Option TrunkSet :=
  match d.trk.sets.find? fun s => s.ring.isSome && (s.phase == 1 || s.phase == 2) with
  | some s => if s.phase == 1 && strokeGe m s.target then some s else none
  | none => none

/-- The FLIP members of a group that a ready mask leaves unready, and whether one of them waits. -/
def groupMissing (ws : List (Option Bool)) (mask : Nat) : Bool × Bool :=
  let missing := ((List.range ws.length).zip ws).filter fun e => e.2.isSome && !bit mask e.1
  (!missing.isEmpty, missing.any fun e => e.2 == some true)

/-- The originator closes gathering for the next latch point (R338). -/
def Dev.decisionSend (d : Dev) : Dev :=
  if !(d.originator && d.trkJoined && d.timed) || d.stk.latched then d
  else
    let m := d.nextStroke
    let d := d.advanceSc (d.nextLatch - (d.readyNs / 2 : Nat))
    match d.eligibleTrunk m with
    | none => d
    | some s =>
      let devs := d.setDevices s
      let got (x : Nat × Bool) : Option (Nat × Bool) := (s.ready.find? fun r => r.1 == m && r.2.1 == x).map fun r => (r.2.2.1, r.2.2.2)
      let late := devs.filter fun x => (got x).isNone
      let d := late.foldl (fun (d : Dev) _ => ((d.count Reg.TRK_READY_LATE_CNT).trkEvent Fld.TRK_EVENT_READY_LATE).raise 0x4684) d
      let absent := late.foldl (fun a x => a ||| 2 ^ x.1) 0
      let bad := devs.any fun x => match got x with | some r => r.2 | none => false
      let missing := devs.map fun x =>
        let ws := ((s.groups.find? (·.1 == x.1)).map (·.2)).getD []
        groupMissing ws (if bit absent x.1 then 0 else ((got x).map (·.1)).getD 0)
      let outcome := if bad then 2
        else if missing.any (·.2) && !strokeGe m (strokeAdd s.target s.deadline) then 1 else 0
      let d := if outcome == 1 then d.count Reg.FLP_DEFER_CNT else d
      let d := d.putTrunkSet { s with
        ready := [], decided := some (m, outcome), phase := if outcome == 1 then 1 else 2, heldAny := missing.any (·.1) }
      d.trkDown 0x25 (.bytes (leBytes 6 m ++ leBytes 4 s.number ++ leBytes 1 outcome ++ leBytes 8 absent))

/-- What was decided for latch point `m` takes place on the originator (R338, R340). -/
def Dev.trunkOriginLatch (d : Dev) (m : Nat) : Dev :=
  (d.trk.sets.filter fun s => (s.decided.map (·.1)) == some m).foldl (fun (d : Dev) s =>
    match s.decided with
    | some (_, 0) =>
      let d := (match s.af with
        | some f => d.fenceAdvance f.1 f.2
        | none => d)
      (d.putTrunkSet { s with phase := 3, latch := m, decided := none }).setsProgress
    | some (_, 1) => d.putTrunkSet { s with decided := none }
    | _ => (d.dropTrunkSet s.number).setComplete s stMalformed m 0) d

/-! ### Trunk sets on a lodger -/

/-- Answer a PREPARE (R337). -/
def Dev.sendPrepared (d : Dev) (n verdict : Nat) : Dev := d.trkUp 0x21 (leBytes 4 n ++ leBytes 1 verdict)

/-- A whole group has come: it is checked, held prepared where it passes, and answered (R337). `D` of the set is not among what
a PREPARE carries; the group's fused windows are those of `D` 0 (log 25). -/
def Dev.takeGroup (d : Dev) (n target : Nat) (es : List (List Nat)) : Dev :=
  let d := d.lullExit
  let head := es.headD []
  let v := d.judgeSet (.trunk n) true head (es.drop 1) target 0
  match v.set with
  | some q =>
    if (setHead head).count + 1 != es.length then (d.count Reg.FLP_MALFORMED_CNT).sendPrepared n stMalformed
    else if !d.queueRoom q.members.length then (d.count Reg.FLP_BUDGET_CNT).sendPrepared n stBudget
    else
      let d := d.acceptSet v.windows v.more v.gains
      ({ d with flp := { d.flp with prepared := d.flp.prepared ++ [q] } }).sendPrepared n stDone
  | none => (d.countVerdict v).sendPrepared n v.status

/-- The sixteen words of each entry of bytes. -/
def entriesOf : Nat → List Byte → List (List Nat)
  | 0, _ => []
  | n + 1, bs => if bs.length < 64 then []
    else ((List.range 16).map fun k => leNat ((bs.drop (4 * k)).take 4)) :: entriesOf n (bs.drop 64)

/-- A PREPARE part of a set (R336): other lodgers' groups are not this device's. -/
def Dev.preparePart (d : Dev) (payload : List Byte) : Dev :=
  let n := leNat ((payload.drop 2).take 4)
  let target := leNat ((payload.drop 6).take 6)
  let part := leNat ((payload.drop 12).take 1)
  let parts := leNat ((payload.drop 13).take 1)
  if leNat ((payload.drop 1).take 1) != d.wb.lodger then d
  else
    let es := entriesOf 63 (payload.drop 16)
    let old : TrunkGroup := (d.trk.groups.find? (·.number == n)).getD ⟨n, target, parts, []⟩
    let g := { old with got := old.got.filter (·.1 != part) ++ [(part, es)] }
    let rest := d.trk.groups.filter (·.number != n)
    if (List.range parts).all fun k => g.got.any (·.1 == k) then
      let es := (List.range parts).flatMap fun k => ((g.got.find? (·.1 == k)).map (·.2)).getD []
      ({ d with trk := { d.trk with groups := rest } }).takeGroup n target es
    else { d with trk := { d.trk with groups := rest ++ [g] } }

/-- A lodger checks the timing that a REFRAME proposes (R342): MALFORMED answers a failing TABLE row, BUDGET the others (log 25). -/
def Dev.prepareTiming (d : Dev) (n : Nat) (im : TimingImage) : Dev :=
  let verdict := match (d.putImage im.regs).reframeCheck with
    | none => stDone
    | some r => if r.1 == stkTable then stMalformed else stBudget
  let d := if verdict == stDone then { d with trk := { d.trk with image := some (n, im.regs) } } else d
  d.sendPrepared n verdict

/-- The lodger's own camera-frame boundary at which stroke `s` begins, looked for over the coming frames. -/
def Dev.boundaryOf (d : Dev) (s : Nat) : Option Rat :=
  if !d.stk.running then none
  else ((List.range 8).find? fun k => strokeAdd d.stk.stroke (d.live.phases * (k + 1) - d.stk.phase) == s).map fun k =>
    d.boundary (d.stk.frame + ((k + 1 : Nat) : Int))

/-- `B₀` of a COMMIT on this device's stroke clock: its own boundary at which `s₁` begins; a device without a timer places the time that
the COMMIT carries as it does other times from above, by the SYNC and the delay of its active uplink (R342; DESIGN CHOICE, log 25). -/
def Dev.commitB0 (d : Dev) (s1 : Nat) (t : Rat) : Rat × Dev :=
  match d.boundaryOf s1, d.trk.active with
  | some b, _ => (b, d)
  | none, some p => d.placed (d.tlane p).syncRx (d.tlane p).delay t
  | none, none => (t, d)

/-- COMMIT: a prepared group is queued, or a REFRAME is taken at the boundary at which its first stroke begins (R337, R342). -/
def Dev.takeCommit (d : Dev) (payload : List Byte) : Dev :=
  let n := leNat (payload.take 4)
  match d.trk.image, d.flp.prepared.find? fun q => q.origin == .trunk n with
  | some (m, regs), none =>
    if m != n then d
    else
      let s1 := leNat ((payload.drop 12).take 6)
      let b := d.commitB0 s1 ((leNat ((payload.drop 4).take 8) : Nat) / (16 : Rat))
      let d := ({ b.2 with trk := { b.2.trk with image := none } }).putImage regs
      (d.reframeAccept b.1 (some s1)).coachSettle
  | _, some q =>
    { d with flp := { d.flp with prepared := d.flp.prepared.erase q, queue := d.flp.queue ++ [q] } }
  | none, none => d

/-- ABORT: what is prepared under a number is discarded (R337). -/
def Dev.takeAbort (d : Dev) (payload : List Byte) : Dev :=
  let n := leNat (payload.take 4)
  let mine (q : QSet) : Bool := q.origin == .trunk n
  let gone := (d.flp.prepared.filter mine).map (·.id)
  { d with
    flp := { d.flp with
      prepared := d.flp.prepared.filter (fun q => !mine q), windows := d.flp.windows.filter fun w => !gone.contains w.set }
    trk := { d.trk with
      groups := d.trk.groups.filter (·.number != n)
      image := match d.trk.image with
        | some i => if i.1 == n then none else some i
        | none => none } }

/-- The readiness snapshot of a lodger for the next latch point, and its READY (R338): one is sent where a trunk set is eligible. -/
def Dev.readinessSnapshot (d : Dev) : Dev :=
  if !d.joinedLodger || !d.timed || d.stk.latched then d
  else
    let m := d.nextStroke
    let d := d.advanceSc (d.nextLatch - (d.readyNs : Nat))
    let shots := (d.eligibleSets m true).filterMap fun q => match q.origin with
      | .trunk s => some (s, d.readyMask q, d.buffersBad q)
      | _ => none
    let d := { d with trk := { d.trk with snapshot := some (m, shots.map fun x => (x.1, x.2.1)) } }
    if shots.isEmpty then d
    else d.trkUp 0x24 (leBytes 6 m ++ shots.flatMap fun x => leBytes 4 x.1 ++ leBytes 8 x.2.1 ++ leBytes 1 (if x.2.2 then 1 else 0))

/-- A DECISION (R338): a lodger holds the members that its own snapshot had not ready, and all where it is listed as absent. -/
def Dev.takeDecision (d : Dev) (payload : List Byte) : Dev :=
  let m := leNat (payload.take 6)
  let snap := match d.trk.snapshot with
    | some s => if s.1 == m then s.2 else []
    | none => []
  let one (r : List Byte) : Option (Nat × Nat × Nat × Nat) :=
    let n := leNat (r.take 4)
    let absent := bit (leNat ((r.drop 5).take 8)) d.wb.lodger
    let mask := if absent then 0 else ((snap.find? (·.1 == n)).map (·.2)).getD 0
    (d.flp.queue.find? fun q => q.origin == .trunk n).map fun q => (n, m, leNat ((r.drop 4).take 1), heldMask q mask)
  let xs := (chunks 13 ((payload.length - 6) / 13) (payload.drop 6)).filterMap one
  { d with
    flp := { d.flp with decided := d.flp.decided ++ xs }
    trk := { d.trk with decisionFor := some m } }

/-- At the capture edge of latch point `m`, before its sets are taken: a JOINED lodger with an eligible trunk set and no DECISION
leaves (R339). -/
def Dev.trunkLateCheck (d : Dev) (m : Nat) : Dev :=
  if d.joinedLodger && !(d.eligibleSets m true).isEmpty && d.trk.decisionFor != some m then
    let d := ((d.trkEvent Fld.TRK_EVENT_DECISION_LATE).count Reg.TRK_DECISION_LATE_CNT).raise 0x4685
    d.trkQuit 3 (some 3)
  else d

/-- After the sets of latch point `m` have been taken: APPLIED for each trunk set that applied, and RELEASED (R340). -/
def Dev.trunkApplied (d : Dev) : Dev :=
  let xs := d.flp.applied
  let d := { d with flp := { d.flp with applied := [] } }
  let d := xs.foldl (fun (d : Dev) x =>
    if x.2.1 == stMalformed || x.2.1 == stAborted || x.2.1 == stState then d
    else d.trkUp 0x26 (leBytes 4 x.1 ++ leBytes 6 x.2.2.1 ++ leBytes 1 (if x.2.1 == stMarkLost then 1 else 0))) d
  d.trkReleased

/-! ### TICK (R332) -/

/-- The originator's TICK for the stroke that has begun. -/
def Dev.sendTick (d : Dev) : Dev :=
  if d.originator && d.trkJoined then d.trkDown 0x11 (.bytes (leBytes 6 d.stk.stroke ++ leBytes 1 d.stk.phase ++ leBytes 1 0)) else d

/-- A TICK arrives on port `p` at a time in 1/16 ns (R332): it goes on with what it took, gives the reference instant, and shows a
stroke that differs. No stroke is compared while the REFRAME of the join is PENDING: a lodger takes the numbers of the device above it with
that (Table 14.3, R342, log 25). -/
def Dev.takeTick (d : Dev) (p : Nat) (f : TrunkFrame) (payload : List Byte) (arrival residence : Nat) (first : Bool) : Dev :=
  let corr := leNat ((payload.drop 8).take 8)
  let delay := (d.tlane p).delay
  let body := payload.take 7 ++ leBytes 1 (leNat ((payload.drop 7).take 1) + 1) ++ leBytes 8 (corr + delay + residence)
  let d := if first then d.downlinks.foldl (fun (d : Dev) q => d.trkSendOn q { f with body := .bytes body }) d else d
  let joins := d.stk.joins && d.stk.given.isSome
  let d := if first && !joins && (d.stk.running || d.stk.timing != 2) && leNat (payload.take 6) != d.stk.stroke then d.trkQuit 3 (some 4) else d
  if leNat ((payload.drop 6).take 1) == 0 && d.trk.active == some p && d.fld Reg.STK_SRC Fld.STK_SRC_SRC == 3 then
    let at_ : Rat := ((arrival : Int) - corr - delay : Int) / 16
    d.referenceAt (d.scOf at_)
  else d

/-! ### Roll-up and doorbells (R343, R344) -/

/-- A ROLLUP payload (Table 14.6). -/
def Dev.rollup (d : Dev) : List Byte :=
  let b (x : Bool) (i : Nat) : Nat := if x then 2 ^ i else 0
  let flags := b d.secondary 0 + b d.faultLow 1 + b (d.flag Reg.DEP_STATUS Fld.DEP_STATUS_CONTROL_FAULT) 2 + b d.bridgeIsDown 3 +
    d.stk.lock * 16
  let under := (d.portsOf 1).foldl (fun a p => a + d.reg (Reg.CPT_UNDERRUN p)) 0
  leBytes 1 d.wb.lodger ++ leBytes 1 flags ++ leBytes 2 (d.reg Reg.PRT_USE) ++ leBytes 4 (d.reg Reg.STK_ERROR) ++
    leBytes 4 (d.reg Reg.PRT_LATE_CNT) ++ leBytes 4 under ++ leBytes 4 (d.reg Reg.DEP_UNRECOV_CNT) ++ leBytes 2 d.dieMax ++
    leBytes 2 (if d.hasTwn then d.twnStatus else 0) ++ leBytes 8 0

/-- The originator writes a ROLLUP as a record (R343): the first 16 B as four words, and free bytes to 64 B (log 9, log 25). -/
def Dev.takeRollup (d : Dev) (port origin : Nat) (payload : List Byte) : Dev :=
  let head := wordBytes [leNat (payload.take 1), origin, port, d.stk.stroke % 2 ^ 32]
  let pad := d.freshBytes (48 - min 48 payload.length)
  let r := pad.2.record (d.fld Reg.TRK_RING Fld.TRK_RING_REC) [head ++ payload.take 48 ++ pad.1]
  if r.1 then (r.2.count Reg.TRK_ROLLUP_CNT).raise 0x4686
  else (r.2.count Reg.TRK_ROLLUP_DROP_CNT).trkEvent Fld.TRK_EVENT_ROLLUP_DROP

/-- A DOORBELL frame (R344). -/
def Dev.takeDoorbell (d : Dev) (payload : List Byte) : Dev :=
  if bit (leNat (payload.take 8)) d.wb.lodger then (d.raise (leNat ((payload.drop 8).take 2))).count Reg.TRK_DOORBELL_CNT else d

/-! ### Frames -/

/-- What an up frame does at the originator (R337 to R345), its value checked (R372); `x` is the device that sent it. -/
def Dev.originUp (d : Dev) (port type_ : Nat) (x : Nat × Bool) (payload : List Byte) : Dev :=
  let n := leNat (payload.take 4)
  let d := if type_ == 0x32 then d else d.rosterAdd x
  let onSet (f : TrunkSet → TrunkSet) : Dev := match d.trk.sets.find? (·.number == n) with
    | some s => (d.putTrunkSet (f s)).setsProgress
    | none => d
  match type_ with
  | 0x21 => onSet fun s => { s with answers := s.answers.filter (·.1 != x) ++ [(x, leNat ((payload.drop 4).take 1))] }
  | 0x24 =>
    let m := leNat (payload.take 6)
    (chunks 13 ((payload.length - 6) / 13) (payload.drop 6)).foldl (fun (d : Dev) r =>
      match d.trk.sets.find? (·.number == leNat (r.take 4)) with
      | some s => d.putTrunkSet { s with
          ready := s.ready.filter (fun e => !(e.1 == m && e.2.1 == x)) ++
            [(m, x, leNat ((r.drop 4).take 8), leNat ((r.drop 12).take 1) != 0)] }
      | none => d) d
  | 0x26 => onSet fun s => { s with applied := s.applied.filter (·.1 != x) ++ [(x, leNat ((payload.drop 10).take 1) != 0)] }
  | 0x27 => onSet fun s => { s with released := s.released.filter (· != x) ++ [x] }
  | 0x30 => d.takeRollup port x.1 payload
  | 0x32 => d.rosterLeave x
  | _ => d

/-- An up frame reaches the originator under the `SEQ` of its lane (R330, R372). -/
def Dev.takeUp (d : Dev) (port : Nat) (second : Bool) (seq : Nat) (f : TrunkFrame) : Dev :=
  match f.body with
  | .timing _ _ => d
  | .bytes payload =>
    if trunkCovered f.type_ then
      let r := d.tlyStrip 1 f.type_ f.origin f.sseq seq payload
      match r.1 with
      | some body => r.2.originUp port f.type_ (f.origin, second) body
      | none => r.2
    else d.originUp port f.type_ (f.origin, second) payload

/-- What a down frame does on a JOINED lodger, its value taken off (R336 to R344). -/
def Dev.takeDown (d : Dev) (type_ : Nat) (body : TrunkBody) : Dev :=
  match type_, body with
  | 0x20, .timing n im => d.prepareTiming n im
  | 0x20, .bytes payload => d.preparePart payload
  | 0x22, .bytes payload => d.takeCommit payload
  | 0x23, .bytes payload => d.takeAbort payload
  | 0x25, .bytes payload => d.takeDecision payload
  | 0x31, .bytes payload => d.takeDoorbell payload
  | _, _ => d

/-- A strip failure on a lodger, JOINED or still in AUTH: LEAVE with cause 5, and ADRIFT (R372). -/
def Dev.stripLeave (d : Dev) : Dev :=
  if d.trkJoined then d.trkQuit 3 (some 5)
  else if d.trkState == 1 then ((d.trkLeave 5).trkTo 3).trkForget
  else d

/-- The value of a covered frame is taken off and checked (R370): what is left of its payload, or none where it fails (R372). -/
def Dev.trkStrip (d : Dev) (seq : Nat) (f : TrunkFrame) (wrong : Option Nat) : Option TrunkBody × Dev :=
  if !trunkCovered f.type_ then (some f.body, d)
  else match f.body with
    | .bytes payload =>
      let r := d.tlyStrip 1 f.type_ f.origin f.sseq seq payload
      (r.1.map .bytes, r.2)
    | .timing _ _ =>
      let r := d.tlyStripTold 1 f.type_ seq wrong
      (if r.1 then some f.body else none, r.2)

/-- A timing image whose `SSEQ` is 0 is no down frame of the tree: it is the one of R342 for a newly joined lodger (log 25). -/
def joinImage (f : TrunkFrame) : Option TimingImage :=
  match f.type_, f.body with
  | 0x20, .timing _ im => if f.sseq == 0 then some im else none
  | _, _ => none

/-- A frame from above arrives on port `p` (R330). The first copy on an uplink of a JOINED lodger floods on, and the device acts on it; the
image of R342 is taken in AUTH. Every covered frame is stripped and checked, whatever becomes of it (R370), and a lodger leaves on a failure
(R372). -/
def Dev.downFrame (d : Dev) (p seq : Nat) (f : TrunkFrame) (wrong : Option Nat) : Dev :=
  let ours := d.uplinks.contains p && d.wb.hierarchy == 2
  let first := ours && d.trkJoined && (joinImage f).isNone && !(d.trk.seen.contains f.sseq)
  let flood (d : Dev) : Dev := d.downlinks.foldl (fun (d : Dev) q => d.trkSendOn q f)
    { d with trk := { d.trk with seen := (f.sseq :: d.trk.seen).take 4096 } }
  let r := (if first then flood d else d).trkStrip seq f wrong
  match r.1, joinImage f with
  | none, _ => if d.wb.hierarchy == 2 then r.2.stripLeave else r.2
  | some _, some im => if ours && d.trkState == 1 then r.2.takeImage p im else r.2
  | some body, none => if first then r.2.takeDown f.type_ body else r.2

/-- An up frame arrives on a downlink (R330): a relay passes it on, the originator acts, and the acting secondary steward passes it
to its twin. -/
def Dev.upFrame (d : Dev) (p : Nat) (second : Bool) (seq : Nat) (f : TrunkFrame) : Dev :=
  if d.originator then d.takeUp p second seq f
  else if d.steward then (if d.secondaryPaired then d.twnMirror [.up p second seq f] else d)
  else d.uplinks.foldl (fun (d : Dev) q => d.trkSendOn q f) d

/-- LEAVE on a lane (R345): one from a lower device goes up; one from the device above ends its uplink (log 25). -/
def Dev.leaveFrame (d : Dev) (p : Nat) (second : Bool) (seq : Nat) (f : TrunkFrame) : Dev :=
  if d.uplinks.contains p then d.laneTo p 2 else d.upFrame p second seq f

/-- The frames that lodgers send up the tree (Table 14.2). -/
def isUpType (t : Nat) : Bool := t == 0x21 || t == 0x24 || t == 0x26 || t == 0x27 || t == 0x30

/-- A trunk frame in its turn on a lane. One that is neither passed on nor acted on is stripped and checked as every covered frame is
(R370). -/
def Dev.trkDeliver (d : Dev) (p seq : Nat) (f : TrunkFrame) (second : Bool) (wrong : Option Nat) : Dev :=
  match f.type_, f.body with
  | 0x01, .bytes payload => d.laneAuthed p payload
  | 0x02, .bytes payload => d.laneTagged p payload
  | 0x32, _ => if (d.tlane p).state == 3 && d.trkJoined then d.leaveFrame p second seq f else d
  | t, _ =>
    if !isUpType t then d.downFrame p seq f wrong
    else if d.trkJoined && d.isDownlink p then d.upFrame p second seq f
    else (d.trkStrip seq f wrong).2

/-- Deliver the frames of a lane that are next in `SEQ` order (R304, R327). -/
def Dev.trkDrain (d : Dev) (p : Nat) : Nat → Dev
  | 0 => d
  | n + 1 =>
    let x := d.tlane p
    match x.held.find? (·.1 == x.rxNext) with
    | none => d
    | some e =>
      let d := d.setTlane p { x with rxNext := (x.rxNext + 1) % 2 ^ 32, held := x.held.filter (·.1 != e.1) }
      (d.trkDeliver p e.1 e.2.1 e.2.2.1 e.2.2.2).trkDrain p n

/-- `ACK` on a lane. -/
def Dev.trkAck (d : Dev) (p ack : Nat) : Dev :=
  let x := d.tlane p
  d.setTlane p { x with sent := x.sent.filter fun e => cursorBeyond e.seq ((ack + 1) % 2 ^ 32) }

/-- A trunk frame arrives: whether its lane takes it (R303, R327, Table 14.10). -/
def Dev.trkHeard (d : Dev) (h : TrunkHead) (good : Bool) : Bool × Dev :=
  let p : Nat := h.port
  if !d.hasTrk || d.role p != 4 || (d.tlane p).state < 2 then (false, d)
  else
    let d := (d.countBy (Reg.TRK_PORT_CORR_CNT p) h.corr).countBy (Reg.TRK_PORT_UNCORR_CNT p) h.uncorr
    if good then (true, (d.setTlane p { d.tlane p with silent := false }).trkAck p h.ack.toNat)
    else (false, d.count (Reg.TRK_PORT_BAD_CNT p))

/-- The check of a trunk frame: AUTH comes before a session and folds 0 (DEDUCED, log 23). -/
def Dev.trkCrc (d : Dev) (h : TrunkHead) (type_ : Nat) (payload : List Byte) (crc : Word) : Bool :=
  let fold := if type_ == 0x01 then List.replicate 8 0 else (d.tlane h.port).session
  let f : TrunkFrame := { type_, origin := h.origin.toNat, sseq := h.sseq.toNat, body := .bytes payload }
  crc.toNat == crc32c (fold ++ trunkHeader f payload.length h.seq.toNat h.ack.toNat ++ payload)

/-- Take a sequenced frame: now, later, or not again. -/
def Dev.trkTake (d : Dev) (h : TrunkHead) (f : TrunkFrame) (wrong : Option Nat) : Dev :=
  let p : Nat := h.port
  let x := d.tlane p
  let seq := h.seq.toNat
  if !cursorBeyond seq x.rxNext || x.held.any (·.1 == seq) then d
  else (d.setTlane p { x with held := x.held ++ [(seq, f, h.second, wrong)] }).trkDrain p (x.held.length + 1)

/-- A sequenced trunk frame given by its bytes arrives. -/
def Dev.trkFrame (d : Dev) (h : TrunkHead) (type_ : Nat) (crc : Word) (payload : List Byte) : Dev :=
  let f : TrunkFrame := { type_, origin := h.origin.toNat, sseq := h.sseq.toNat, body := .bytes payload }
  let r := d.trkHeard h (d.trkCrc h type_ payload crc)
  if r.1 then r.2.trkTake h f none else r.2

/-- An AUTH that differs from the one that the lane has taken begins the lane's authentication again (log 23); a device in neither
AUTH nor JOINED takes none. -/
def Dev.authFrame (d : Dev) (h : TrunkHead) (crc : Word) (payload : List Byte) : Dev :=
  let p : Nat := h.port
  let f : TrunkFrame := { type_ := 0x01, origin := h.origin.toNat, sseq := h.sseq.toNat, body := .bytes payload }
  let good := d.trkCrc h 0x01 payload crc
  let d := if good && (d.trkState == 1 || d.trkJoined) && (d.tlane p).theirAuth.isSome && (d.tlane p).theirAuth != some payload
    then d.laneAuth p else d
  let r := d.trkHeard h good
  if r.1 && (r.2.trkState == 1 || r.2.trkJoined) then r.2.trkTake h f none else r.2

/-! ### Lanes and register writes of TRK -/

/-- A lane that is DOWN trains, where it is enabled and its quad is locked (R326). -/
def Dev.trkLaneUp (d : Dev) (p : Nat) : Dev :=
  if d.loaded && d.hasTrk && (d.tlane p).state == 0 && d.flag (Reg.TRK_PORT_CTRL p) Fld.TRK_PORT_CTRL_EN && d.quadLocked (p / 4) then
    (d.laneTo p 1).trkTrain p
  else d

/-- Train a lane again: its port domain is reset (R327). -/
def Dev.trkLaneRetrain (d : Dev) (p : Nat) : Dev :=
  if (d.tlane p).state == 0 then d else (((d.laneTo p 1).trkTrain p).newEpoch p).trkEvent Fld.TRK_EVENT_TORN

/-- A lane of a trunk port has gained alignment (R328, Table 14.3); none does while its quad PLL is not locked (R414). -/
def Dev.trkLaneAligned (d : Dev) (p : Nat) : Dev :=
  if !d.hasTrk || d.role p != 4 || (d.tlane p).state != 1 || !d.quadLocked (p / 4) then d
  else
    let d := d.laneTo p 2
    if !d.flag Reg.TRK_CTRL Fld.TRK_CTRL_JOIN_EN || d.sdp.power == 2 then d
    else if d.trkState == 0 then d.trkEnterAuth
    else if d.trkState == 1 || d.trkJoined then d.laneAuth p
    else d

/-- A device in IDLE that may join enters AUTH where a lane is aligned; a steward is JOINED at once (Table 14.3, R330). -/
def Dev.trkBegin (d : Dev) : Dev :=
  if !d.hasTrk || d.trkState != 0 || !d.flag Reg.TRK_CTRL Fld.TRK_CTRL_JOIN_EN || 2 ≤ d.sdp.power then d
  else if d.steward then
    ((d.portsOf 4).filter fun p => (d.tlane p).state == 2).foldl (fun (d : Dev) p => d.laneAuth p) (d.trkTo 2)
  else if (d.portsOf 4).any fun p => 2 ≤ (d.tlane p).state then d.trkEnterAuth
  else d

/-- The device leaves the hierarchy for IDLE (Table 14.3): a steward's roster goes with it (log 25). -/
def Dev.trkIdle (d : Dev) (cause : Nat) : Dev :=
  let d := d.trk.roster.foldl Dev.rosterLeave d
  let d := d.trkQuit 0 (some cause)
  if d.hasTrk then d.trkTo 0 else d

def trkRetryState : Nat := 2
def trkTimesRange : Nat := 3
def trkLossRange : Nat := 4
def trkRingClass : Nat := 5
def trkDbSource : Nat := 6
def trkStateOrigin : Nat := 7

/-- A write of `TRK_CTRL` (Tables 14.3, 14.9). -/
def Dev.writeTrkCtrl (d : Dev) (v : Nat) : Dev :=
  let was := d.reg Reg.TRK_CTRL
  let d := d.genericWrite Reg.TRK_CTRL v
  let d := if bit was 0 && !bit v 0 then d.trkIdle 1 else if bit v 0 then d.trkBegin else d
  if !bit v 1 then d
  else if d.trkState != 3 && d.trkState != 4 then d.refuse Reg.TRK_BLKID trkRetryState
  else if (d.portsOf 4).any fun p => 2 ≤ (d.tlane p).state then d.trkEnterAuth
  else d

/-- A write of `TRK_TIMES` (Table 14.9). -/
def Dev.writeTrkTimes (d : Dev) (v : Nat) : Dev :=
  let c := Fld.TRK_TIMES_CUTOFF_US.get v
  let r := Fld.TRK_TIMES_READY_US.get v
  if c < 50 || 5000 < c || r < 20 || 250 < r then d.refuse Reg.TRK_BLKID trkTimesRange else d.genericWrite Reg.TRK_TIMES v

def Dev.writeTrkLoss (d : Dev) (v : Nat) : Dev :=
  let us := Fld.TRK_LOSS_US.get v
  if us < 10 || 1000 < us then d.refuse Reg.TRK_BLKID trkLossRange else d.genericWrite Reg.TRK_LOSS v

/-- A write of `TRK_RING` (R381, Table 14.9). -/
def Dev.writeTrkRing (d : Dev) (v : Nat) : Dev :=
  let set_ := Fld.TRK_RING_SET.get v
  if d.ringClass (Fld.TRK_RING_REC.get v) != classComplete || d.ringClass set_ != classTrunk then d.refuse Reg.TRK_BLKID trkRingClass
  else
    let old := d.trunkRing
    let who := 2 * Reg.TRK_RING
    let d := if old == set_ then d else d.ringUnbind old who
    ((d.ringBind set_ who).2).genericWrite Reg.TRK_RING v

/-- A write of `TRK_DB_CTRL` (R344). -/
def Dev.writeTrkDb (d : Dev) (v : Nat) : Dev :=
  let src := d.fld Reg.TRK_DB_SOURCE Fld.TRK_DB_SOURCE_SOURCE
  if !bit v 0 then d
  else if !d.originator then d.refuse Reg.TRK_BLKID trkStateOrigin
  else if src < 0x7000 || 0x7EFF < src then d.refuse Reg.TRK_BLKID trkDbSource
  else if d.trkJoined then d.trkDown 0x31 (.bytes (leBytes 4 (d.reg Reg.TRK_DB_MASK_LO) ++ leBytes 4 (d.reg Reg.TRK_DB_MASK_HI) ++ leBytes 2 src))
  else d

/-- A write of a trunk port's `CTRL` (R327, Table 14.10). -/
def Dev.writeTrkPort (d : Dev) (p v : Nat) : Dev :=
  let d := d.genericWrite (Reg.TRK_PORT_CTRL p) v
  let d := if bit v 0 then d.trkLaneUp p else if (d.tlane p).state == 0 then d else d.laneTo p 0
  if bit v 1 then (if (d.tlane p).state == 0 then d.refuse (Reg.TRK_PORT_BLKID p) 1 else d.trkLaneRetrain p) else d

/-- Send the unacknowledged frames of a lane again; after 16 times the lane's link is down, and it trains anew (R304, R327). -/
def Dev.trkResend (d : Dev) (p : Nat) : Dev :=
  let x := d.tlane p
  if x.state < 2 then d
  else if x.sent.any fun e => 16 ≤ e.resends then (d.laneTo p 1).trkTrain p
  else
    let d := x.sent.foldl (fun (d : Dev) e => (d.trkPut p e.session e.seq e.frame).count Reg.TRK_RETRANSMIT_CNT) d
    d.setTlane p { x with sent := x.sent.map fun e => { e with resends := e.resends + 1 } }

/-! ### The commands -/

def execTrunkLaneAligned (port : Fin 128) (s : State) : Host.Outcome State Fault Refusal := s.apply fun d => d.trkLaneAligned port

def execTrunkLaneLosesAlignment (port : Fin 128) (s : State) : Host.Outcome State Fault Refusal :=
  s.apply fun d => if d.hasTrk && d.role port == 4 && 2 ≤ (d.tlane port).state then d.laneTo port 1 else d

/-- 10 ms pass in a lane's authentication (R328). -/
def execTrunkAuthTimeout (port : Fin 128) (s : State) : Host.Outcome State Fault Refusal :=
  s.apply fun d => if d.hasTrk && d.role port == 4 && (d.tlane port).state == 2 && (d.trkState == 1 || d.trkJoined) then d.laneFail port 5 else d

def execTrunkResend (port : Fin 128) (s : State) : Host.Outcome State Fault Refusal :=
  s.apply fun d => if d.hasTrk && d.role port == 4 then d.trkResend port else d

/-- The active uplink has carried no passing frame for `TRK_LOSS.US` (R329). -/
def execUplink (s : State) : Host.Outcome State Fault Refusal :=
  s.apply fun d => match d.trk.active with
    | some p => (d.setTlane p { d.tlane p with silent := true, demoted := true }).trkRoute
    | none => d

def execTrunkAuth (head : TrunkHead) (crc : Word) (payload : List Byte) (s : State) : Host.Outcome State Fault Refusal :=
  s.apply fun d => d.authFrame head crc payload

def execTrunkTag (head : TrunkHead) (crc : Word) (payload : List Byte) (s : State) : Host.Outcome State Fault Refusal :=
  s.apply fun d => d.trkFrame head 0x02 crc payload

def execTrunkIdle (head : TrunkHead) (crc : Word) (payload : List Byte) (s : State) : Host.Outcome State Fault Refusal :=
  s.apply fun d => (d.trkHeard head (d.trkCrc head 0x00 payload crc)).2

/-- A SYNC arrives (R331); `frac` is the part of its arrival below 1 ns, in 1/16 ns. -/
def execTrunkSync (head : TrunkHead) (crc : Word) (payload : List Byte) (frac : Fin 16) (s : State) : Host.Outcome State Fault Refusal :=
  s.apply fun d =>
    let r := d.trkHeard head (d.trkCrc head 0x10 payload crc)
    if !r.1 then r.2
    else
      let arrival := 16 * d.now + frac
      let x := r.2.syncDelay payload arrival
      let old := x.2.tlane head.port
      (x.2.setTlane head.port { old with syncRx := some (syncField payload 0, arrival), delay := x.1.getD old.delay }).trkRoute

/-- SYNC on each trunk port, every 1 ms (R331). -/
def execTrunkSyncSend (frac : Fin 16) (s : State) : Host.Outcome State Fault Refusal :=
  s.apply fun d => if !d.hasTrk then d
    else (d.portsOf 4).foldl (fun (d : Dev) p => d.trkSendOn p
      { type_ := 0x10, origin := d.trkIndex, sseq := 0, body := .bytes (d.syncPayload (16 * d.now + frac) (d.tlane p).syncRx) }) d

/-- A TICK arrives; `residence` is the time, in 1/16 ns, from its arrival to its departure on the downlinks (R332). -/
def execTrunkTick (head : TrunkHead) (crc : Word) (payload : List Byte) (frac : Fin 16) (residence : Nat) (s : State) :
    Host.Outcome State Fault Refusal :=
  s.apply fun d =>
    let r := d.trkHeard head (d.trkCrc head 0x11 payload crc)
    let d := r.2
    let f : TrunkFrame := { type_ := 0x11, origin := head.origin.toNat, sseq := head.sseq.toNat, body := .bytes payload }
    if !r.1 || !d.joinedLodger || !(d.uplinks.contains head.port.val) then d
    else
      let first := !(d.trk.seen.contains f.sseq)
      let d := if first then { d with trk := { d.trk with seen := (f.sseq :: d.trk.seen).take 4096 } } else d
      d.takeTick head.port f payload (16 * d.now + frac) residence first

/-- A PREPARE arrives. Of one with a timing image, whose layout the spec does not give, `ok` says that its check passes and `agrees`
that its value of link mode, else `value`, agrees. `ecc` is the check of the shadow words that a group takes (R295). -/
def execPrepare (head : TrunkHead) (crc : Word) (body : TrunkBody) (ok agrees : Bool) (s : State) (value : Nat := 0)
    (ecc : ShadowEcc := .good) : Host.Outcome State Fault Refusal :=
  s.apply fun d => match body with
    | .bytes payload => (d.shadowChecked ecc).trkFrame head 0x20 crc payload
    | .timing _ _ =>
      let r := d.trkHeard head ok
      let f : TrunkFrame := { type_ := 0x20, origin := head.origin.toNat, sseq := head.sseq.toNat, body }
      if r.1 then r.2.trkTake head f (toldWrong agrees value) else r.2

def execPrepared (head : TrunkHead) (crc : Word) (payload : List Byte) (s : State) : Host.Outcome State Fault Refusal :=
  s.apply fun d => d.trkFrame head 0x21 crc payload

def execTrunkCommit (head : TrunkHead) (crc : Word) (payload : List Byte) (s : State) : Host.Outcome State Fault Refusal :=
  s.apply fun d => d.trkFrame head 0x22 crc payload

def execAbort (head : TrunkHead) (crc : Word) (payload : List Byte) (s : State) : Host.Outcome State Fault Refusal :=
  s.apply fun d => d.trkFrame head 0x23 crc payload

def execTrunkReady (head : TrunkHead) (crc : Word) (payload : List Byte) (s : State) : Host.Outcome State Fault Refusal :=
  s.apply fun d => d.trkFrame head 0x24 crc payload

def execTrunkDecision (head : TrunkHead) (crc : Word) (payload : List Byte) (s : State) : Host.Outcome State Fault Refusal :=
  s.apply fun d => d.trkFrame head 0x25 crc payload

def execApplied (head : TrunkHead) (crc : Word) (payload : List Byte) (s : State) : Host.Outcome State Fault Refusal :=
  s.apply fun d => d.trkFrame head 0x26 crc payload

def execReleased (head : TrunkHead) (crc : Word) (payload : List Byte) (s : State) : Host.Outcome State Fault Refusal :=
  s.apply fun d => d.trkFrame head 0x27 crc payload

def execRollup (head : TrunkHead) (crc : Word) (payload : List Byte) (s : State) : Host.Outcome State Fault Refusal :=
  s.apply fun d => d.trkFrame head 0x30 crc payload

def execDoorbell (head : TrunkHead) (crc : Word) (payload : List Byte) (s : State) : Host.Outcome State Fault Refusal :=
  s.apply fun d => d.trkFrame head 0x31 crc payload

def execLeave (head : TrunkHead) (crc : Word) (payload : List Byte) (s : State) : Host.Outcome State Fault Refusal :=
  s.apply fun d => d.trkFrame head 0x32 crc payload

def execRollupSend (s : State) : Host.Outcome State Fault Refusal :=
  s.apply fun d => if d.joinedLodger then d.trkUp 0x30 d.rollup else d

def execTset (s : State) : Host.Outcome State Fault Refusal := s.apply fun d => d.readTset

def execCommitCutoff (s : State) : Host.Outcome State Fault Refusal :=
  s.apply fun d => if d.originator && d.trkJoined then d.commitCutoff else d

def execReadinessSnapshot (s : State) : Host.Outcome State Fault Refusal := s.apply fun d => d.readinessSnapshot

def execDecisionSend (s : State) : Host.Outcome State Fault Refusal := s.apply fun d => d.decisionSend

/-- No path has carried a passing frame from a lodger device for `TRK_LOSS.US` (R345). -/
def execLodgerLoss (index : Fin 64) (second : Bool) (s : State) : Host.Outcome State Fault Refusal :=
  s.apply fun d => if d.originator then d.rosterLeave (index, second) else d

def execDoorbellSend (s : State) : Host.Outcome State Fault Refusal :=
  s.apply fun d => d.onWrite Reg.TRK_DB_CTRL fun d => d.writeTrkDb 1

def execTrunkRetry (s : State) : Host.Outcome State Fault Refusal :=
  s.apply fun d => d.onWrite Reg.TRK_CTRL fun d => d.writeTrkCtrl (d.reg Reg.TRK_CTRL ||| 2)

/-- A write that clears `JOIN_EN` (Table 14.3). -/
def execJoinEn (s : State) : Host.Outcome State Fault Refusal :=
  s.apply fun d => d.onWrite Reg.TRK_CTRL fun d => d.writeTrkCtrl (Fld.TRK_CTRL_JOIN_EN.put (d.reg Reg.TRK_CTRL) 0)

/-- A host write of a register of a trunk port's page; nothing where the port has another role. -/
def Dev.onTrunk (d : Dev) (p key : Nat) (f : Dev → Dev) : Dev :=
  if d.role p == 4 || d.role p == 0 then d.onWrite (key % 0x10000000) f else d

/-- A write of 1 to `RETRAIN` of a trunk port. -/
def execTrunkPortRetrain (port : Fin 128) (s : State) : Host.Outcome State Fault Refusal :=
  s.apply fun d => d.onTrunk port (Reg.TRK_PORT_CTRL port) fun d => d.writeTrkPort port (d.reg (Reg.TRK_PORT_CTRL port) ||| 2)

end Sys2Proof.Machine
end

