-- ==== Sys2Proof/Machine/Stroke.lean ====
section
/-! DEFINITION. The instants of a stroke over all units: ticks (R85), latch points (R86, R88, R90), Lull (R440, R441), REFRAME
(R100 to R104), the entry to Doze (R443), and the capturing reads (R105, R172). -/

namespace Sys2Proof.Machine

/-! ### The entry to Doze -/

/-- The always-on timer starts on each entry to Doze or Rest; a value of 0 disables it (R448). -/
def Dev.startAonTimer (d : Dev) : Dev := { d with sdp := { d.sdp with timerRunning := d.reg Reg.SDP_AON_TIMER != 0 } }

/-- Enter Doze (R443); the PCI Express link is asked for L1 (R29). -/
def Dev.enterDoze (d : Dev) : Dev :=
  let d := { d with sdp := { d.sdp with request := .none, dozeHold := true, dozeUntil := none } }
  let d := ((d.setPower 2).emit (.linkL1 true)).startAonTimer
  let d := (d.blitDoze.scanStop stState).flushSets stState
  ((d.trkIdle 2).abandonAll).coachSettle

/-! ### Ticks -/

/-- What a tick means to the units beside STK. -/
def Dev.atTick (d : Dev) : Dev :=
  let d := d.useTick.retireStrokes.plateTidy.freeCopies.waitTick
  let d := match d.sdp.dozeUntil with
    | some n => if strokeGe d.stk.stroke n then { d with sdp := { d.sdp with dozeHold := false, dozeUntil := none } } else d
    | none => d
  d.coachSettle.coachTick.sendTick

/-- The time from the tick that comes to the departure of its TICK, in 1/16 ns (R332). -/
def Dev.tickDeparts (d : Dev) (departure : Nat) : Dev := { d with trk := { d.trk with departure := departure } }

/-- A REFRAME takes effect at `B₀` (Table 4.6). -/
def Dev.takeEffect (d : Dev) : Dev :=
  match d.stk.reframe with
  | some b => if d.reframeNext then (d.reframeNumbers.stkTakeEffect b).updateAdm.atTick else d
  | none => d

/-- A tick (R85); where the next tick is `B₀` of a REFRAME, that takes effect. -/
def Dev.tick (d : Dev) : Dev :=
  if d.reframeNext then d.takeEffect
  else if d.stk.running then d.stkTick.atTick
  else d

/-! ### Lull -/

/-- A live recipe dithers in time (R440). -/
def temporalDither (c : Cfg) : Bool :=
  (List.range 64).any fun k =>
    let s := stackAt c k
    s.valid && s.stages.any fun g => g.type_ == tyDither && bit (g.p.getD 0 0) 0 && bits (g.p.getD 0 0) 7 4 != 0

/-- A plate ring that a live layer names runs (R440). -/
def Dev.plateRuns (d : Dev) : Bool :=
  (List.range 1024).any fun i =>
    let l := layerAt d.regs i
    l.valid && l.plate && (d.plate l.ring).run

/-- Stroke `s` is composed whole, every parcel sealed and no ladder pending (R440): none that waits for a read, a repair or a composition
(Table 12.2); an audit alone is no ladder. -/
def Dev.composedWhole (d : Dev) (s : Nat) : Bool :=
  (match d.runOf s with
   | some r => !r.abandoned && r.parcels.all (·.st == .sealed)
   | none => false) &&
  !(d.ladders.any fun l => l.reader.isNone && l.kind ≤ 3 && l.stroke == s) &&
  !(d.prt.jobs.any fun j => j.kind != .audit && j.stroke == s)

/-- Whether something that R440 watches happened at latch points `n` − L to `n`: something applied, or a settled writer was dealt. -/
def Dev.stirredSince (d : Dev) (n lead : Nat) : Bool :=
  (match d.flp.stirred with
   | some m => strokeGe m (strokeAdd n (two48 - lead))
   | none => false) ||
  d.prt.strokes.any fun r => !r.withdrawn && !r.writes.isEmpty && strokeGe r.stroke n

/-- The device is still at latch point `n` (R440). A device without PRT composes nothing, and the condition on strokes is void. -/
def Dev.still (d : Dev) (n : Nat) : Bool :=
  let t := d.live
  d.flag Reg.SDP_POWER Fld.SDP_POWER_LULL_EN && !t.racing && (t.compLead + 1) % t.phases == 0 && d.stk.timing == 1 &&
    d.debugMode != 2 && !d.stirredSince n t.compLead && !temporalDither d.regs && !d.plateRuns &&
    (!d.hasPrt || (List.range (t.compLead + 1)).all fun i => d.composedWhole (strokeAdd d.stk.stroke i))

/-- Run becomes Lull at a latch point at which the device is still (Table 19.7). -/
def Dev.lullEntry (d : Dev) (n : Nat) : Dev :=
  if d.sdp.power == 0 && d.sdp.request == .none && d.still n then d.setPower 1 else d

/-! ### Latch points -/

/-- At the latch point of `s₁` the strokes after the present one are withdrawn (Table 4.6). -/
def Dev.latchWithdraw (d : Dev) : Dev :=
  if !d.reframeNext then d
  else
    let gone := (d.prt.strokes.filter fun r => !r.withdrawn && strokeGe r.stroke d.nextStroke).map (·.stroke)
    d.withdraw.coachWithdraw gone

/-- FLP and the Coach ports capture at latch point `m` (R90, R182, R214): trunk sets and sets that miss their DECISION have their
say before. -/
def Dev.capture (d : Dev) (m : Nat) : Dev :=
  let before := d.regs
  let d := d.trunkLateCheck m
  let l := d.twnLatch m
  let d := if l.1 then l.2 else l.2.takeSets m
  let d := d.commitsLatch m
  if d.flp.stirred == some m then ({ d with flp := { d.flp with recent := d.flp.recent ++ [(m, before)] } }).updateAdm else d

/-- The dispatcher deals at latch point `m`, and the plate rings advance with it (R90, R194, R441, R444). -/
def Dev.dealAt (d : Dev) (m : Nat) : Dev :=
  let t := d.latchTiming
  let s := strokeAdd m t.ahead
  let first := (d.nextPhase + t.ahead) % t.phases == 0
  let d := d.plateLatch (first && d.composes && d.sdp.power == 0)
  let d := d.deal m
  let d := if d.composes then d.coachDealt s else d
  if d.sdp.dozeHold && d.sdp.power ≤ 1 && d.sdp.dozeUntil.isNone then { d with sdp := { d.sdp with dozeUntil := some s } } else d

/-- A latch point (R86, R88): each block captures on its own edge, in the order given here. A pending request for Doze is met at
it, before any set is taken (R443; DEDUCED, log 26). -/
def Dev.latchPoint (d : Dev) (ecc : ControlEcc) : Dev :=
  if !d.loaded || !d.timed || d.stk.latched || d.boot.flush then d
  else
    let d := (d.controlChecked ecc).reframeNumbers
    let m := d.nextStroke
    let d := d.latchWithdraw.stkLatch
    let d := if d.sdp.request == .doze then d.enterDoze else d
    let d := (d.capture m).lullEntry m
    ((((d.dealAt m).trunkApplied).trunkOriginLatch m).flpTidy m)

/-! ### REFRAME -/

/-- `B₀` of a REFRAME of an originator: its commit cutoff lies ahead too (R342). -/
def Dev.reframeB0Roster (d : Dev) : Rat :=
  let b := d.reframeB0
  if !d.stk.running then b + (d.cutoffNs : Nat)
  else
    let need := d.scNow + (d.shadowTiming.lead : Nat) + (d.cutoffNs : Nat)
    let ok (x : Rat) : Bool := decide (b ≤ x) && decide (need ≤ x)
    let cands := (List.range 4).map fun (i : Nat) => d.boundary (d.stk.frame + 1 + (i : Int))
    (cands.find? ok).getD b

/-- A write of 1 to `STK_CTRL.REFRAME` (R100, R102, R314, R342). -/
def Dev.hostReframe (d : Dev) : Dev :=
  if d.secondaryPaired then d.refuse Reg.STK_BLKID stkTwinSecondary
  else match d.reframeRefusal with
    | some r =>
      let d := (match r.2 with
        | some f => d.admRefused f
        | none => d)
      d.refuse Reg.STK_BLKID r.1
    | none =>
      if d.originator && d.trkJoined then
        let b := d.reframeB0Roster
        let s1 := strokeAdd d.stk.stroke (d.reframeAhead b)
        let image := d.shadowImage
        let n := d.trk.nextSet
        let set : TrunkSet := { number := n, ring := none, target := s1, tag := 0, groups := [] }
        let d := d.reframeAccept b none
        let d := { d with trk := { d.trk with nextSet := (n + 1) % 2 ^ 32, sets := d.trk.sets ++ [set] } }
        (d.trkDown 0x20 (.timing n image)).coachSettle
      else
        let b := d.reframeB0
        let s1 := strokeAdd d.stk.stroke (d.reframeAhead b)
        let d := (d.reframeAccept b none).coachSettle
        if d.primaryPaired then d.twnMirror [.reframe (d.timeOf b) s1] else d

/-- Scan-out resumes at tick `tᵣ` (R103, Table 4.6). -/
def Dev.reframeDone (d : Dev) : Dev :=
  match d.stk.timing == 3, d.stk.tr with
  | true, some n => if strokeGe d.stk.stroke n then d.stkReframeDone.coachSettle.coachTick else d
  | _, _ => d

/-! ### Capturing reads (R105, R172, Table 8.7) -/

/-- A read of a capturing register: `STK_STROKE_LO`, `STK_TOD_NS`, `STK_LTC_WORD0`, `PRT_DEAL_STROKE_LO`, `PRT_DONE_STROKE_LO`,
`FLP_LAST_LO`, by number from 0. -/
def Dev.capturingRead (d : Dev) : Nat → Nat × Dev
  | 0 => d.captureStroke
  | 1 => d.captureTod
  | 2 => d.captureLtc
  | 3 =>
    (d.prt.dealStroke % 2 ^ 32,
      (d.setReg Reg.PRT_DEAL_STROKE_HI (d.prt.dealStroke / 2 ^ 32)).setReg Reg.PRT_DEAL_COUNT (d.prt.dealCount % 2 ^ 18))
  | 4 => (d.prt.doneStroke % 2 ^ 32, d.setReg Reg.PRT_DONE_STROKE_HI (d.prt.doneStroke / 2 ^ 32))
  | _ => (d.flp.last % 2 ^ 32, d.setReg Reg.FLP_LAST_HI (d.flp.last / 2 ^ 32))

/-- The offset of a capturing register. -/
def capturingReg : Nat → Nat
  | 0 => Reg.STK_STROKE_LO
  | 1 => Reg.STK_TOD_NS
  | 2 => Reg.STK_LTC_WORD0
  | 3 => Reg.PRT_DEAL_STROKE_LO
  | 4 => Reg.PRT_DONE_STROKE_LO
  | _ => Reg.FLP_LAST_LO

/-! ### The commands -/

/-- A tick; `departure` is the time from it to the departure of its TICK frames, in 1/16 ns (R332). -/
def execTick (s : State) (departure : Nat := 0) : Host.Outcome State Fault Refusal := s.apply fun d => (d.tickDeparts departure).tick

def execLatchPoint (ecc : ControlEcc) (s : State) : Host.Outcome State Fault Refusal := s.apply fun d => d.latchPoint ecc

def execReframe (s : State) : Host.Outcome State Fault Refusal :=
  s.apply fun d => d.onWrite Reg.STK_CTRL fun d => d.hostReframe

def execReframeTakesEffect (s : State) (departure : Nat := 0) : Host.Outcome State Fault Refusal :=
  s.apply fun d => (d.tickDeparts departure).takeEffect

def execReframeDone (s : State) : Host.Outcome State Fault Refusal := s.apply fun d => d.reframeDone

def execCapturingRegisterRead (register : Fin 6) (s : State) : Host.Outcome State Fault Refusal :=
  s.apply fun d => d.onRead (capturingReg register) fun d => d.capturingRead register

end Sys2Proof.Machine
end

