-- ==== Sys2Proof/Machine/Clock.lean ====
section
/-! DEFINITION. The clock generator: reference monitors (R410), PLL settings, windows, lock and failure (R411 to R414), and clock
outputs (R415, R417). -/

namespace Sys2Proof.Machine

def Dev.ckgEvent (d : Dev) (f : Fld) : Dev := d.setFlag Reg.CKG_EVENT f

def ckgLockRange : Nat := 1
def ckgQuadBusy : Nat := 2
def ckgOutRange : Nat := 3

/-! ### Reference monitors -/

def Dev.refMon (d : Dev) (k : Nat) : RefMon := d.ckg.refs.get (fun _ => {}) k
def Dev.setRefMon (d : Dev) (k : Nat) (x : RefMon) : Dev := { d with ckg := { d.ckg with refs := d.ckg.refs.set (fun _ => {}) k x } }

/-- The bit of `CKG_REF_STATUS` for reference A, B or PCI Express. -/
def refBit (k : Nat) : Fld := ⟨k, k⟩

/-- A quad has a port that is not OFF. -/
def Dev.quadUsed (d : Dev) (q : Nat) : Bool := (List.range 4).any fun i => d.role (4 * q + i) != 0

/-- `REFCLK_B` matters: a quad that runs selects it (R409). -/
def Dev.refBUsed (d : Dev) : Bool := (List.range 32).any fun q => d.quadUsed q && d.flag (Reg.CKG_QPLL_CTRL q) Fld.CKG_PLL_CTRL_REF

/-- A reference is lost (R410); `REFCLK_B` raises nothing while no quad selects it (R409). -/
def Dev.refLost (d : Dev) (k : Nat) : Dev :=
  let x := d.refMon k
  let d := (d.setRefMon k { lost := true, run := 0 }).setFld Reg.CKG_REF_STATUS (refBit k) 0
  if x.lost || (k == 1 && !d.refBUsed) then d
  else ((d.ckgEvent Fld.CKG_EVENT_REF_LOST).count Reg.CKG_REF_LOSS_CNT).raise 0x46A2

/-- A window of a reference is good: after a loss the second in a row makes the reference good (R410). -/
def Dev.refGood (d : Dev) (k : Nat) : Dev :=
  let x := d.refMon k
  let run := min 2 (x.run + 1)
  if x.lost && run < 2 then d.setRefMon k { x with run := run }
  else (d.setRefMon k { lost := false, run := run }).setFld Reg.CKG_REF_STATUS (refBit k) 1

/-- Whether a count of a window of 65,536 AON cycles lies within ±200 ppm of nominal (R410). -/
def countGood (k count : Nat) : Bool :=
  if k == 2 then 131072 - 26 ≤ count && count ≤ 131072 + 26 else 204800 - 41 ≤ count && count ≤ 204800 + 41

/-- A window of the reference monitor ends with these counts (R410). -/
def Dev.refWindow (d : Dev) (counts : List Nat) : Dev :=
  ((List.range 3).zip counts).foldl (fun (d : Dev) e => if countGood e.1 e.2 then d.refGood e.1 else d.refLost e.1) d

/-! ### PLLs -/

def Dev.pll (d : Dev) (k : Nat) : Pll := d.ckg.plls.get (fun _ => {}) k
def Dev.setPll (d : Dev) (k : Nat) (x : Pll) : Dev := { d with ckg := { d.ckg with plls := d.ckg.plls.set (fun _ => {}) k x } }

/-- The page of a PLL: SPLL `k`, then the quads, then PCI Express. -/
def pllPage (k : Nat) : Nat :=
  if k < 4 then Reg.CKG_SPLL_CTRL k else if k < 36 then Reg.CKG_QPLL_CTRL (k - 4) else Reg.CKG_PPLL_CTRL 0

/-- Offsets of the registers in a PLL page (Table 18.6). -/
def pllDiv : Nat := 0x04
def pllFrac : Nat := 0x08
def pllMod : Nat := 0x0C
def pllLock : Nat := 0x10
def pllSeed : Nat := 0x14
def pllStatus : Nat := 0x18

/-- The settings of a PLL: `N`, `F`, `MOD`, `Q` (Table 18.2). SPLL0 stands in the row of `CLOCK` 0 until a waybill is loaded. -/
def Dev.pllRow (d : Dev) (k : Nat) : Nat × Nat × Nat × Nat :=
  let half := (51, 1, 5, 8)
  match k with
  | 0 => if d.wb.clock == 1 && d.sdp.power != 3 then (64, 0, 1, 8) else half
  | 1 => half
  | 2 => (61, 11, 25, 32)
  | 3 => half
  | 36 => (80, 0, 1, 8)
  | _ => if (List.range 4).any fun i => d.role (4 * (k - 4) + i) == 2 then (170, 0, 1, 32) else (179, 1, 5, 32)

/-- Whether a PLL is powered and runs: a quad's only while a port of the quad is not OFF, and none in Rest; on the way out the quads
follow the reload (R411, R445, Table 19.9). -/
def Dev.pllRuns (d : Dev) (k : Nat) : Bool :=
  (d.sdp.power != 3 || d.boot.fromRest) && (d.boot.inReset != some .cold && d.boot.inReset != some .warm || d.boot.cal) &&
    (k < 4 || k == 36 || (d.sdp.power != 3 && d.loaded && d.quadUsed (k - 4)))

/-- A step of the LFSR of polynomial x^32 + x^22 + x^2 + x + 1: bit 0 leaves, and the sum of the bits of the lower terms enters at
bit 31 (R412; the form of the register, log 28). -/
def lfsrStep (x : Nat) : Nat := x / 2 + (x ^^^ (x >>> 1) ^^^ (x >>> 2) ^^^ (x >>> 22)) % 2 * 2 ^ 31

/-- One accumulator of modulus `m` takes an input: what it holds, and its carry. -/
def accumulate (m acc : Nat) (x : Int) : Nat × Int := ((((acc : Int) + x) % m).toNat, ((acc : Int) + x) / m)

/-- A reference cycle of a modulator (R412): its input is `F` + d(k) − d(k−1), and each accumulator takes what the one before holds. -/
def Modulator.cycle (f m : Nat) (x : Modulator) : Modulator :=
  let dk := x.lfsr % 2
  let a := accumulate m x.acc1 ((f : Int) + dk - x.dither)
  let b := accumulate m x.acc2 a.1
  let c := accumulate m x.acc3 b.1
  { lfsr := lfsrStep x.lfsr, dither := dk, acc1 := a.1, acc2 := b.1, acc3 := c.1, carry1 := a.2,
    carry2 := (b.2, x.carry2.1), carry3 := (c.2, x.carry3.1, x.carry3.2.1) }

/-- What the feedback divider divides by in a cycle: `N`, the first carry, and the differences of first and of second order of the
others, which cancel the noise of the accumulators before (R412; log 28). -/
def Modulator.divider (n : Nat) (x : Modulator) : Int :=
  n + x.carry1 + (x.carry2.1 - x.carry2.2) + (x.carry3.1 - 2 * x.carry3.2.1 + x.carry3.2.2)

/-- A number of reference cycles of a modulator. -/
def Modulator.run (f m : Nat) : Nat → Modulator → Modulator
  | 0, x => x
  | n + 1, x => Modulator.run f m n (x.cycle f m)

/-- The read-only registers of a PLL page (Table 18.7). -/
def Dev.pllView (d : Dev) (k off stored : Nat) : Nat :=
  let r := d.pllRow k
  if off == 0 then Fld.CKG_PLL_CTRL_RUN.put stored (if d.pllRuns k then 1 else 0)
  else if off == pllDiv then r.1 + r.2.2.2 * 2 ^ 16
  else if off == pllFrac then r.2.1
  else if off == pllMod then r.2.2.1
  else stored

/-- The state of a link port: 0 DOWN, 1 TRAIN (Table 9.10, R255, R302, R326). -/
def Dev.linkState (d : Dev) (p : Nat) : Nat :=
  match d.role p with
  | 1 => (d.coach p).state
  | 2 => (d.sip p).state
  | 3 => d.lane p
  | 4 => (d.tlane p).state
  | _ => 0

/-- The ports of a quad go up once its PLL is locked, and those in training leave electrical idle (R414). -/
def Dev.quadUp (d : Dev) (q : Nat) : Dev :=
  (List.range 4).foldl (fun (d : Dev) i =>
    let p := 4 * q + i
    let training := d.linkState p == 1
    match d.role p with
    | 1 => if training then d.driveLane p 1 .idle else d.coachUp p
    | 2 => if training then d.sipTrain p else d.sipUp p
    | 3 => if training then d.laneTrain p else d.laneUp p
    | 4 => if training then d.trkTrain p else d.trkLaneUp p
    | _ => d) d

/-- Each port of a quad acts as on its own `RETRAIN`, its transmitter in electrical idle: that of one in training goes idle at once (R414). -/
def Dev.quadLoss (d : Dev) (q : Nat) : Dev :=
  let d := ((d.ckgEvent Fld.CKG_EVENT_QUAD_LOST).count Reg.CKG_QUAD_LOSS_CNT).raise 0x46A1
  (List.range 4).foldl (fun (d : Dev) i =>
    let p := 4 * q + i
    let d := if d.linkState p == 1 && d.role p == 1 then d.emit (.lane p .idle) else d
    match d.role p with
    | 1 => d.coachRetrain p
    | 2 => d.sipRetrain p
    | 3 => d.laneRetrain p
    | 4 => d.trkLaneRetrain p
    | _ => d) d

/-- CKG is released when the system PLLs are locked, after a cold or warm reset and on leaving Rest (R457, Table 19.9). -/
def Dev.ckgRelease (d : Dev) : Dev :=
  if d.boot.cal && !d.boot.ckg && d.sequencing && (List.range 4).all fun k => bit (d.reg (Reg.CKG_SPLL_STATUS k)) 31 then
    { d with boot := { d.boot with ckg := true } }
  else d

/-- A PLL gains lock (R413). -/
def Dev.pllLocked (d : Dev) (k : Nat) : Dev :=
  let again := (d.pll k).lost
  let d := d.setPll k { d.pll k with lost := false, out := 0 }
  let d := d.setFld (pllPage k + pllStatus) Fld.CKG_PLL_STATUS_LOCKED 1
  if k < 4 then (d.raiseIf again 0x46A0).ckgRelease
  else if k < 36 then d.quadUp (k - 4)
  else d

/-- A PLL loses lock (R414, Table 18.3); the HOST crossing tears with the PCI Express link (R422). -/
def Dev.pllLost (d : Dev) (k : Nat) : Dev :=
  let d := d.setPll k { d.pll k with lost := true, out := 0 }
  let d := d.setFld (pllPage k + pllStatus) Fld.CKG_PLL_STATUS_LOCKED 0
  if k < 4 then ((d.ckgEvent Fld.CKG_EVENT_SYS_LOST).count Reg.CKG_SYS_LOSS_CNT).raise 0x46A0
  else if k < 36 then d.quadLoss (k - 4)
  else ((d.newEpoch hostCrossing).ckgEvent Fld.CKG_EVENT_HOST_TORN).raise 0x46A4

/-- A comparison window of a PLL ends with this difference of its counts (R413): its modulator ran 2^`WINLOG` reference cycles. A write
of `_LOCK` takes effect here. -/
def Dev.pllWindow (d : Dev) (k : Nat) (diff : Int) : Dev :=
  if !d.pllRuns k then d
  else
    let x := d.pll k
    let st := pllPage k + pllStatus
    let cfg := x.lock.getD (d.reg (pllPage k + pllLock))
    let tol := max 1 (Fld.CKG_PLL_LOCK_TOL.get cfg)
    let need := max 1 (Fld.CKG_PLL_LOCK_COUNT.get cfg)
    let inside := decide (diff.natAbs ≤ tol)
    let good := if inside then min 15 (x.good + 1) else 0
    let row := d.pllRow k
    let sigma := x.sigma.run row.2.1 row.2.2.1 (2 ^ Fld.CKG_PLL_LOCK_WINLOG.get cfg)
    let was := bit (d.reg st) 31
    let d := d.setFld st Fld.CKG_PLL_STATUS_DIFF (toTwos 16 (clampInt (-32768) 32767 diff))
    let d := d.setPll k { x with good := if x.lock.isSome then 0 else good, lock := none, sigma, out := if x.lost then x.out + 1 else 0 }
    if was && !inside then d.pllLost k
    else if !was && need ≤ good then d.pllLocked k
    else d

/-- A system PLL has stayed unlocked for 16 windows: it has failed (R414). -/
def Dev.pllFail (d : Dev) (k : Nat) : Dev :=
  let st := Reg.CKG_SPLL_STATUS k
  if bit (d.reg st) 31 || bit (d.reg st) 30 || !(d.pll k).lost || (d.pll k).out < 16 then d
  else
    let d := d.setFld st Fld.CKG_PLL_STATUS_FAILED 1
    let d := (d.ckgEvent Fld.CKG_EVENT_SYS_FAIL).raise 0x46A3
    d.abandonAll.coachSettle

/-- A write of a PLL's `SEED` loads its LFSR (R412). -/
def Dev.writePllSeed (d : Dev) (k v : Nat) : Dev :=
  (d.setReg (pllPage k + pllSeed) v).setPll k { d.pll k with sigma := { (d.pll k).sigma with lfsr := v } }

/-- A write of a PLL's `_LOCK` (R413, Table 18.7). -/
def Dev.writePllLock (d : Dev) (k v : Nat) : Dev :=
  let w := Fld.CKG_PLL_LOCK_WINLOG.get v
  if w < 8 || 20 < w then d.refuse Reg.CKG_BLKID ckgLockRange
  else
    let key := pllPage k + pllLock
    let old := d.reg key
    let x := d.pll k
    (d.genericWrite key v).setPll k { x with lock := some (x.lock.getD old) }

/-- A port of a quad is not DOWN. -/
def Dev.quadBusy (d : Dev) (q : Nat) : Bool :=
  (List.range 4).any fun i => d.linkState (4 * q + i) != 0

/-- A write of a quad PLL's `_CTRL`. -/
def Dev.writeQpllCtrl (d : Dev) (q v : Nat) : Dev :=
  if d.quadBusy q then d.refuse Reg.CKG_BLKID ckgQuadBusy else d.genericWrite (Reg.CKG_QPLL_CTRL q) v

/-! ### Clock outputs -/

/-- Whether a clock output stays within the limit of its format (R415): frequencies in kHz. -/
def outWithin (ctrl div : Nat) : Bool :=
  let f := [156250, 1000000, 1000000, 50000].getD (Fld.CKG_OUT_CTRL_CLK.get ctrl) 0
  let limit := [0, 800000, 400000, 200000].getD (Fld.CKG_OUT_CTRL_FMT.get ctrl) 0
  Fld.CKG_OUT_CTRL_SRC.get ctrl != 0 || Fld.CKG_OUT_CTRL_FMT.get ctrl == 0 || f ≤ limit * (Fld.CKG_OUT_DIV_DIV.get div + 1)

/-- A clock output takes new settings: a change of `FMT` holds it off for 1 µs before the new format drives, and what another change
gives it meanwhile drives no sooner (R417). -/
def Dev.clockChanged (d : Dev) (was : Dev) (n : Nat) : Dev :=
  let f := Fld.CKG_OUT_CTRL_FMT
  let c := Reg.CKG_OUT_CTRL n
  let d := if was.fld c f == d.fld c f then d else
    { d with ckg := { d.ckg with heldOff := d.ckg.heldOff.set (fun _ => 0) n (d.now + 1000) } }
  if d.clockOf n == was.clockOf n then d else d.emit (.clockOut n (d.ckg.heldOff.get (fun _ => 0) n - d.now) (d.clockOf n))

/-- A write of a clock output's `CTRL`, or of its `DIV` (R415, R417). -/
def Dev.writeClockOut (d : Dev) (n : Nat) (div : Bool) (v : Nat) : Dev :=
  let c := Reg.CKG_OUT_CTRL n
  let k := Reg.CKG_OUT_DIV n
  let ok := if div then outWithin (d.reg c) v else outWithin v (d.reg k)
  if ok then (d.genericWrite (if div then k else c) v).clockChanged d n else d.refuse Reg.CKG_BLKID ckgOutRange

/-! ### The commands -/

def execRefWindow (a b pcie : Nat) (s : State) : Host.Outcome State Fault Refusal := s.apply fun d => d.refWindow [a, b, pcie]

def execRefLoss (reference : Fin 3) (s : State) : Host.Outcome State Fault Refusal := s.apply fun d => d.refLost reference

def execPllWindow (pll : Fin 37) (diff : Int) (s : State) : Host.Outcome State Fault Refusal := s.apply fun d => d.pllWindow pll diff

def execPllFail (pll : Fin 4) (s : State) : Host.Outcome State Fault Refusal := s.apply fun d => d.pllFail pll

def execSeed (pll : Fin 37) (data : Word) (s : State) : Host.Outcome State Fault Refusal :=
  s.apply fun d => d.onWrite (pllPage pll + pllSeed) fun d => d.writePllSeed pll data.toNat

def execCkout (output : Fin 8) (divider : Bool) (data : Word) (s : State) : Host.Outcome State Fault Refusal :=
  s.apply fun d => d.onWrite (if divider then Reg.CKG_OUT_DIV output else Reg.CKG_OUT_CTRL output) fun d =>
    d.writeClockOut output divider data.toNat

end Sys2Proof.Machine
end

