-- ==== Sys2Proof/Machine/Power.lean ====
section
/-! DEFINITION. What reaches the whole device: abortion of commands (R392, R456), resets (R53, R453 to R458), the service unlock (R432),
power states (R438 to R449), the end of a waybill load (R77, R80, R447), and doorbells (R394 to R396, R405). -/

namespace Sys2Proof.Machine

/-! ### Abortion of commands that have been read -/

/-- The completion of an aborted command. -/
def Dev.abortedWith (d : Dev) (op tag : Nat) : Completion := { op, status := stAborted, tag, stroke := d.stk.stroke }

/-- Flip sets and FENCE_WAITs of the rings that `which` names. -/
def Dev.abortFlips (d : Dev) (which : Nat → Bool) : Dev :=
  let mine (q : QSet) : Bool := match q.origin with
    | .own r _ => which r
    | _ => false
  let d := (d.flp.queue.filter mine).foldl (fun (d : Dev) q =>
    let m := d.freshNat
    (m.2.dequeue q false).completeSet q stAborted (m.1 % two48) 0) d
  (d.flp.waits.filter fun w => !w.mirrored && which w.ring).foldl (fun (d : Dev) w => d.endWait w stAborted) d

/-- Trunk sets of the originator that have not completed; one that has still waits to write its release fence (R340). -/
def Dev.abortTrunkSets (d : Dev) (which : Nat → Bool) : Dev :=
  (d.trk.sets.filter fun s => s.phase != 4 && s.ring.any fun x => which x.1).foldl (fun (d : Dev) s =>
    let m := (d.dropTrunkSet s.number).freshNat
    m.2.setComplete s stAborted (m.1 % two48) 0) d

/-- Blits. -/
def Dev.abortBlits (d : Dev) (which : Nat → Bool) : Dev :=
  let d := if d.blt.current.any fun r => which r.head.ring then d.blitAbort else d
  let hs := d.blt.heads.filter fun h => which h.ring
  let d := d.setBlt { d.blt with heads := d.blt.heads.filter fun h => !which h.ring }
  (hs.foldl (fun (d : Dev) h => d.blitEnd h stAborted 0) d).bltShow

/-- Scans. -/
def Dev.abortScans (d : Dev) (which : Nat → Bool) : Dev :=
  (List.range 16).foldl (fun (d : Dev) u =>
    let t := d.tly u
    let run := t.current.filter fun h => which h.ring
    let gone := run.toList ++ t.heads.filter fun h => which h.ring
    if gone.isEmpty then d
    else
      let t := { t with current := if run.isSome then none else t.current, heads := t.heads.filter fun h => !which h.ring }
      let d := d.setTly u t
      let d := if run.isSome then d.orphanReader (1 + u) else d
      (gone.foldl (fun (d : Dev) h => d.scanEnd h stAborted 0 0) d).tlyShow u) d

/-- Commands of the return lines. -/
def Dev.abortLines (d : Dev) (which : Nat → Bool) : Dev :=
  (List.range 32).foldl (fun (d : Dev) c =>
    let x := d.rlc c
    let mine (j : LineJob) : Bool := j.ring.any fun r => which r.1
    let now : Option LineJob := match x.present with
      | .command j => if mine j && !x.answered then some j else none
      | _ => none
    let gone := now.toList ++ x.queue.filter mine ++ x.unanswered.filter mine
    if gone.isEmpty then d
    else
      let d := d.setRlc c { x with
        present := if now.isSome then .none else x.present
        queue := x.queue.filter fun j => !mine j
        unanswered := x.unanswered.filter fun j => !mine j }
      gone.foldl (fun (d : Dev) (j : LineJob) => match j.ring with
        | some r => d.ringComplete r.1 r.2 (d.abortedWith (0x10 + j.kind) j.tag)
        | none => d) d) d

/-- Slow-path entries of the Stream ports. -/
def Dev.abortSlow (d : Dev) (which : Nat → Bool) : Dev :=
  (d.portsOf 2).foldl (fun (d : Dev) p =>
    let x := d.sip p
    let mine (e : SlowEntry) : Bool := which e.ring
    let d := d.setSip p { x with posted := x.posted.filter (fun e => !mine e), sending := x.sending.filter fun e => !mine e }
    let d := (x.posted.filter mine).foldl (fun (d : Dev) e => d.ringComplete e.ring e.index (d.abortedWith 0x20 e.tag)) d
    (x.sending.filter mine).foldl (fun (d : Dev) e => d.ringComplete e.ring e.index (d.abortedWith 0x21 e.tag)) d) d

/-- Every command that has been read from the rings that `which` names, and not completed, completes ABORTED. -/
def Dev.abortRings (d : Dev) (which : Nat → Bool) : Dev :=
  (((((d.abortFlips which).abortTrunkSets which).abortBlits which).abortScans which).abortLines which).abortSlow which

/-- An uncorrectable word of ring state (R392): the ring stops. -/
def Dev.ringFault (d : Dev) (r : Nat) : Dev :=
  let d := ((d.setFld (Reg.RNG_RS_CTRL r) Fld.RNG_RS_CTRL_EN 0).ringStops r).ringEvent r Fld.RNG_RS_EVENT_FAULT
  ((d.count Reg.RNG_FAULT_CNT).secdedBad storeRing 0).abortRings (· == r)

/-! ### Resets -/

/-- What the device stops driving as a reset or entry to Rest takes it: its heartbeat output goes low (R306), its clock outputs off
(R417), and every port down (R445, R455). -/
def Dev.outputsStop (d : Dev) : Dev :=
  let d := (if d.twn.serving then d.emit (.alive d.aliveOut false) else d).clocksOff
  (List.range 128).foldl (fun (d : Dev) p => if d.linkState p == 0 then d else d.emit (.lane p .idle)) d

/-- A reset takes the device; one in Doze or Rest, which the reset ends, asks for L1 no longer (R29). -/
def Dev.fullReset (d : Dev) (k : ResetKind) : Dev :=
  let d := d.outputsStop
  (if 2 ≤ d.sdp.power then d.emit (.linkL1 false) else d).resetTo k

/-- LEAVE of a JOINED lodger. -/
def Dev.lodgerLeave (d : Dev) (cause : Nat) : Dev := if d.joinedLodger then d.trkLeave cause else d

/-- The flush phase of a function-level or software reset begins (R456). WBL is in reset from here on, and gives up a load under way (R457); a
flash operation in progress is abandoned (R458). -/
def Dev.startFlush (d : Dev) (k : ResetKind) : Dev :=
  let d := d.abandonFlash
  let d := { d with boot := { d.boot with inReset := some k, flush := true, load := none, copy := [] } }
  let d := ((d.abortRings fun _ => true).flushSets stAborted).flushWaits stAborted
  (((d.twnPart 1).lodgerLeave 1).coachSettle.twnSettle).abandonAll

/-- A reset starts: with its flush phase, or at once (R455, R456, R458). -/
def Dev.startReset (d : Dev) (k : ResetKind) : Dev :=
  let k := d.resetKind k
  if k.flushes then d.startFlush k else d.fullReset k

/-- The flush phase ends: CKG, CAL, MEM and WBL are released (R457, R461). A bridge that went down or a system PLL that failed in the flush
phase is left through a warm reset alone (R16, R414): what follows the flush phase is one then, as R455 has it of a reset that starts in
that state (log 27). -/
def Dev.flushEnd (d : Dev) : Dev :=
  match d.boot.flush, d.boot.inReset with
  | true, some k =>
    let k := d.resetKind k
    let d := d.fullReset k
    if k.flushes then
      ({ d with boot := { d.boot with inReset := none, cal := true, ckg := true, mem := true, wbl := true } }).applyTrim
    else d
  | _, _ => d

/-- A function-level reset; a hot reset or a link that goes down tears the HOST crossing too (Table 18.4, R422). -/
def Dev.functionLevelReset (d : Dev) (hot : Bool) : Dev :=
  let d := if hot then ((d.newEpoch hostCrossing).ckgEvent Fld.CKG_EVENT_HOST_TORN).raise 0x46A4 else d
  d.startReset .functionLevel

/-- A write of a code other than 0x6A6A to `GLB_RESET_KEY` (R53). A code other than 0x9595 while unarmed is not mentioned, and does
nothing. -/
def Dev.resetKeyConfirm (d : Dev) (key : Nat) : Dev :=
  if key == 0x6A6A then (if d.resetArmed then d.resetKeyBroken else d.setReg Reg.GLB_RESET_KEY 0x10000)
  else if key != 0x9595 then (if d.resetArmed then d.resetKeyBroken else d)
  else if !d.resetArmed then d.refuse Reg.GLB_BLKID glbResetSequence
  else (d.setReg Reg.GLB_RESET_KEY 0).startReset .software

/-! ### The bridge -/

/-- The bridge goes down after 16 failures of one transfer in a row (R16): the last of them is the one that this command stands for. -/
def Dev.bridgeFails16 (d : Dev) (transfer : Nat) : Dev :=
  if d.transferFails transfer < 15 || d.bridgeIsDown then d else d.bridgeDown.abandonAll.coachSettle.twnSettle

/-- A transfer fails its check and is replayed (R15); its sixteenth failure in a row takes the bridge down (R16). -/
def Dev.bridgeReplay (d : Dev) (transfer : Nat) : Dev :=
  if d.bridgeIsDown then d
  else if 15 ≤ d.transferFails transfer then d.bridgeFails16 transfer
  else (d.count Reg.DEP_BRIDGE_REPLAY).setTransferFails transfer (d.transferFails transfer + 1)

/-! ### Unlock (R432) -/

/-- `SDP_CTRL.UNLOCK`. -/
def Dev.unlock (d : Dev) : Dev :=
  let d := d.tokenRead
  match d.unlockRefusal with
  | some r => d.unlockRefused r
  | none =>
    let d := { d with sdp := { d.sdp with nonceValid := false, unlocking := true } }
    (((d.twnPart 1).lodgerLeave 1).abandonAll).coachSettle

/-- The clear of an accepted unlock ends: the device boots in Service. -/
def Dev.unlockClearDone (d : Dev) : Dev :=
  if !d.sdp.unlocking then d
  else
    let d := { d with
      mem := [], damaged := [], weak := [], depLogged := []
      sdp := { d.sdp with sec := 2, stageKey := List.replicate 8 0, keyWritten := 0, audit := [] } }
    d.fullReset .warm

/-- A write of `SDP_CTRL`. -/
def Dev.writeSdpCtrl (d : Dev) (v : Nat) : Dev :=
  let d := if bit v 0 then d.challenge else d
  if bit v 1 then d.unlock else d

/-! ### Power -/

/-- `SDP_POWER.TRANSIT`. -/
def Dev.transit (d : Dev) : Bool := d.sdp.request != .none || d.sdp.waking

/-- Why a request for Doze or Rest is refused (Table 19.7). -/
def Dev.powerRefusal (d : Dev) (rest : Bool) : Option Nat :=
  let host : Bool := match d.boot.lastSource with
    | some (.host _) => true
    | _ => false
  if rest && host then some sdpWaybillHost
  else if !rest && d.paired then some sdpTwinActive
  else if d.originator && !d.trk.roster.isEmpty then some sdpSteward
  else none

/-- A request for Doze or Rest, accepted or refused. -/
def Dev.requestDown (d : Dev) (rest : Bool) : Dev :=
  match d.powerRefusal rest with
  | some r => d.refuse Reg.SDP_BLKID r
  | none => { d with sdp := { d.sdp with request := if rest then .rest else .doze } }

/-- A write of `SDP_POWER` (R439, R442, Table 19.7). -/
def Dev.writePower (d : Dev) (v : Nat) : Dev :=
  let run := bit v 0
  let doze := bit v 1
  let rest := bit v 2
  let lull := Fld.SDP_POWER_LULL_EN.get v
  if (run && (doze || rest)) || (doze && rest) then d.refuse Reg.SDP_BLKID sdpPowerReq
  else
    let d := d.setFld Reg.SDP_POWER Fld.SDP_POWER_LULL_EN lull
    let d := if lull == 0 || doze || rest then d.lullExit else d
    if !(run || doze || rest) then d
    else if d.transit then d.refuse Reg.SDP_BLKID sdpPowerBusy
    else match d.sdp.power with
      | 0 => if run then d else d.requestDown rest
      | 1 => if run then d.refuse Reg.SDP_BLKID sdpPowerReq else d.requestDown rest
      | 2 =>
        if doze then d
        else if run then { d with sdp := { d.sdp with waking := true } }
        else d.requestDown true
      | _ =>
        if rest then d
        else if run then { d with sdp := { d.sdp with waking := true } }
        else d.refuse Reg.SDP_BLKID sdpPowerReq

/-- The word of a write that sets one `GO` bit and leaves `LULL_EN`. -/
def Dev.goWord (d : Dev) (go : Nat) : Nat := go + d.fld Reg.SDP_POWER Fld.SDP_POWER_LULL_EN * 2 ^ 8

/-- The device reaches Run from Doze (R444). -/
def Dev.dozeExit (d : Dev) : Dev :=
  if d.sdp.power != 2 || !d.sdp.waking || d.boot.flush then d
  else
    let d := { d with sdp := { d.sdp with waking := false, timerRunning := false } }
    ((d.setPower 0).emit (.linkL1 false)).trkBegin.coachSettle

/-- A register keeps its value over Rest (R407, R446); refusals are counted since cold reset (R51, log 29). -/
def keepsInRest (off : Nat) : Bool :=
  isRefusedCnt off || off < 0x10000 || (0x20000 ≤ off && off < 0x30000) || (List.range 4).any fun t => off == Reg.BEL_PG_CTRL (64 + t)

/-- The device powers down for Rest (R445, R446, Table 19.8): what is not retained has its reset value. -/
def Dev.restEntry (d : Dev) : Dev :=
  if d.sdp.request != .rest || d.boot.flush then d
  else
    let d := (d.twnPart 2).trkIdle 2
    let d := (d.outputsStop.emit (.linkL1 true)).abandonFlash
    let e : Dev := {
      now := d.now, free := d.free, out := d.out, fuses := d.fuses, flash := d.flash, hostMem := d.hostMem, tap := d.tap
      regs := d.regs.filter fun x => keepsInRest x.1
      mem := d.mem, damaged := d.damaged, weak := d.weak, depLogged := d.depLogged, wb := d.wb
      boot := { d.boot with load := none, copy := [] }
      stk := { stroke := d.stk.stroke, phase := d.stk.phase }
      sdp := { d.sdp with request := .none, dozeHold := false, dozeUntil := none } }
    let e := e.setFld Reg.TWN_STATUS Fld.TWN_STATUS_ACTING (if d.secondary then 1 else 0)
    let e := e.setFld Reg.DEP_STATUS Fld.DEP_STATUS_BRIDGE_DOWN (if d.bridgeIsDown then 1 else 0)
    let e := (List.range 4).foldl (fun (e : Dev) k =>
      e.setFld (Reg.CKG_SPLL_STATUS k) Fld.CKG_PLL_STATUS_FAILED (d.fld (Reg.CKG_SPLL_STATUS k) Fld.CKG_PLL_STATUS_FAILED)) e
    (e.setPower 3).startAonTimer

/-- The domains are powered again after a wake from Rest (R447, Table 19.9); PLLs, training and the reload follow as at boot. The
waybill of before says what is present until the reload ends. -/
def Dev.restExit (d : Dev) : Dev :=
  if d.sdp.power != 3 || !d.sdp.waking || d.boot.fromRest || d.boot.flush then d
  else
    let d := { d with boot := { d.boot with
      fromRest := true, cal := true, ckg := false, mem := false, wbl := false, load := none, copy := [] } }
    d.applyTrim

/-- Run is reached from Rest (R447). -/
def Dev.restDone (d : Dev) : Dev :=
  let d := { d with
    boot := { d.boot with fromRest := false }
    sdp := { d.sdp with waking := false, timerRunning := false } }
  (d.emit (.linkL1 false)).setPower 0

/-- The Bellboard runs again: sources of latches that set in Rest rise (R406), and a level that stands asserts (R394, R407). -/
def Dev.bellRuns (d : Dev) : Dev :=
  let latches := d.sdp.restLatches
  let d := { d with sdp := { d.sdp with restLatches := [] } }
  let d := latches.foldl (fun (d : Dev) i => d.raise (0x46C0 + i)) d
  d.raiseIf d.bridgeIsDown 0x43F0

/-- The always-on timer reaches 0 (R448). -/
def Dev.aonExpiry (d : Dev) : Dev :=
  if d.sdp.timerRunning && 2 ≤ d.sdp.power then
    ({ d with sdp := { d.sdp with timerRunning := false } }).setLatch 10
  else d

/-- A sensor sample; a trip enters Doze where `TRIP_EN` is set, with PART from a paired device (R449, Table 19.7). -/
def Dev.sensorSample (d : Dev) (die hbm : List Nat) : Dev :=
  let r := d.sample die hbm
  let d := r.1
  if r.2 && d.flag Reg.SDP_THERM_CTRL Fld.SDP_THERM_CTRL_TRIP_EN && d.sdp.power ≤ 1 && d.sdp.request == .none then
    let d := d.twnPart 1
    { d with sdp := { d.sdp with request := .doze } }
  else d

/-! ### The end of a waybill load -/

/-- The waybill is LOADED: what it fixes, and the blocks that it releases (R57, R77, R80, R447). -/
def Dev.waybillLoaded (d : Dev) (w : Waybill) : Dev :=
  let rest := d.boot.fromRest
  let d := d.applyWaybill w
  let d := (List.range 128).foldl (fun (d : Dev) p => match d.role p with
    | 1 => d.setReg (Reg.CPT_TX p) (fieldBits (Reg.CPT_TX p) (d.txPreset p))
    | 3 => d.setReg (Reg.TWN_PORT_TX p) (fieldBits (Reg.TWN_PORT_TX p) (d.txPreset p))
    | 4 => d.setReg (Reg.TRK_PORT_TX p) (fieldBits (Reg.TRK_PORT_TX p) (d.txPreset p))
    | _ => d) d
  let d := if rest then d else d.setFld Reg.TWN_STATUS Fld.TWN_STATUS_ACTING (if w.twin == 2 then 1 else 0)
  let d := d.setStandby (d.hasTwn && d.oneLive && d.secondary)
  let d := (if rest then d.restDone else d).bellRuns
  let d := d.twnSettle.trkBegin.updateAdm
  let d := (List.range 32).foldl Dev.lineUp d
  (List.range 32).foldl (fun (d : Dev) q => if d.quadLocked q then d.quadUp q else d) d

/-- A reload after Rest has failed: the device stays in Run with its load FAILED, without a waybill (R447). -/
def Dev.restLoadFailed (d : Dev) : Dev := if d.boot.fromRest && d.wblState == 3 then { d.restDone with wb := {} } else d

/-- WBL starts the load that `BOOTSEL` chooses; with a host load it waits (R76, R459). -/
def Dev.bootLoad (d : Dev) : Dev :=
  match d.boot.bootsel % 4 with
  | 0 => d.startLoad .slotA
  | 1 => d.startLoad .slotB
  | _ => d

/-- WBL has left reset and starts a load by itself, once (R76): after Rest it reloads from the slot of the previous load (R80, R459). With
no previous load in this boot there is nothing to reload: the device reaches Run at once, and WBL goes on as after a reset (DESIGN CHOICE,
log 31). -/
def Dev.flashLoad (d : Dev) : Dev :=
  if !d.boot.wbl || !d.sequencing || d.wblState != 0 then d
  else if d.boot.fromRest then
    match d.boot.lastSource with
    | some src => d.startLoad src
    | none => d.restDone.bootLoad
  else d.bootLoad

/-- The image copy ends. -/
def Dev.imageDone (d : Dev) (readError : Bool) : Dev :=
  let r := d.imageCopied readError
  match r.2 with
  | some w => r.1.waybillLoaded w
  | none => r.1.restLoadFailed

/-! ### Doorbells -/

def belDbRange : Nat := 1
def belTwinDb : Nat := 2

/-- A write of `BEL_DOORBELL` (R396). -/
def Dev.belDoorbell (d : Dev) (v : Nat) : Dev :=
  let src := v % 2 ^ 15
  if src < 0x7000 || 0x7EFF < src || bit v 15 then d.refuse Reg.BEL_BLKID belDbRange
  else
    let d := d.raise src
    if !bit v 16 then d
    else if d.paired then d.twnMirror [.source src]
    else d.refuse Reg.BEL_BLKID belTwinDb

/-- The check of a word of Bellboard state: corrected, it counts (R295); uncorrectable, every source that it covers pends with count 1, or
the page's configuration is reset (R405). -/
def Dev.belEcc (d : Dev) : BelEcc → Dev
  | .none => d
  | .corrected => d.secdedCorrected
  | .sources l =>
    ((l.map (·.toNat)).filter (· < stackFault 64)).foldl (fun (d : Dev) s => match d.routeOf s with
      | some c => ((d.unpend s).pendBy s 1).arm c
      | none => d) (d.secdedBad storeRing 0)
  | .config page =>
    let k := Reg.BEL_PG_CTRL page
    (d.secdedBad storeRing 0).setReg k (resetWord k).toNat

/-! ### The commands -/

def execBridgeReplay (s : State) (transfer : Nat := 0) : Host.Outcome State Fault Refusal := s.apply fun d => d.bridgeReplay transfer

def execBridgeDown (s : State) (transfer : Nat := 0) : Host.Outcome State Fault Refusal := s.apply fun d => d.bridgeFails16 transfer

def execResetKeyConfirm (key : BitVec 16) (s : State) : Host.Outcome State Fault Refusal :=
  s.apply fun d => d.onWrite Reg.GLB_RESET_KEY fun d => d.resetKeyConfirm key.toNat

def execSensorSample (die hbm : List (BitVec 16)) (s : State) : Host.Outcome State Fault Refusal :=
  s.apply fun d => d.sensorSample (die.map (·.toNat)) (hbm.map (·.toNat))

def execFlashLoad (s : State) : Host.Outcome State Fault Refusal := s.apply fun d => d.flashLoad

def execHeaderCopyDone (readError : Bool) (s : State) : Host.Outcome State Fault Refusal :=
  s.apply fun d => (d.headerCopied readError).restLoadFailed

def execImageCopyDone (readError : Bool) (s : State) : Host.Outcome State Fault Refusal := s.apply fun d => d.imageDone readError

/-- The check of a word of ring state that is read: corrected, it counts, and uncorrectable it stops the ring (R295, R392). -/
def Dev.ringChecked (d : Dev) (r : Nat) (ecc : Ecc) : Dev :=
  match ecc with
  | .good => d
  | .corrected => d.secdedCorrected
  | .bad => d.ringFault r

/-- A write of `PROD` (R379); `ecc` is the check of the ring's state, and `weak` lists blocks of software memory in
which a bit error has come up that no read has met (log 50). -/
def execRingDoorbell (ring : Fin 16384) (prod : Word) (ecc : Ecc) (s : State) (weak : List Nat := []) :
    Host.Outcome State Fault Refusal :=
  s.apply fun d =>
    Dev.onWrite { d with weak := d.weak ++ weak } (Reg.RNG_RS_PROD ring) fun d =>
      (d.ringChecked ring ecc).writeProd ring prod.toNat

def execBelDoorbell (data : Word) (s : State) : Host.Outcome State Fault Refusal :=
  s.apply fun d => d.onWrite Reg.BEL_BLKID fun d => d.belDoorbell data.toNat

def execDoorbellMessage (source : BitVec 15) (deassert : Bool) (ecc : BelEcc) (s : State) : Host.Outcome State Fault Refusal :=
  s.apply fun d => (if d.belRunning then d.belEcc ecc else d).message source.toNat deassert

def execUnlock (s : State) : Host.Outcome State Fault Refusal := s.apply fun d => d.onWrite Reg.SDP_CTRL fun d => d.unlock

def execUnlockClearDone (s : State) : Host.Outcome State Fault Refusal := s.apply fun d => d.unlockClearDone

def execGoRun (s : State) : Host.Outcome State Fault Refusal :=
  s.apply fun d => d.onWrite Reg.SDP_POWER fun d => d.writePower (d.goWord 1)

def execGoDoze (s : State) : Host.Outcome State Fault Refusal :=
  s.apply fun d => d.onWrite Reg.SDP_POWER fun d => d.writePower (d.goWord 2)

def execGoRest (s : State) : Host.Outcome State Fault Refusal :=
  s.apply fun d => d.onWrite Reg.SDP_POWER fun d => d.writePower (d.goWord 4)

/-- The entry edge of Doze: the FAB edge after acceptance while timing is STOPPED, or the latch point (R443, log 26). -/
def execDozeEntry (s : State) : Host.Outcome State Fault Refusal :=
  s.apply fun d => if d.sdp.request == .doze && !d.boot.flush then d.enterDoze else d

def execDozeExit (s : State) : Host.Outcome State Fault Refusal := s.apply fun d => d.dozeExit

def execRestEntry (s : State) : Host.Outcome State Fault Refusal := s.apply fun d => d.restEntry

def execRestExit (s : State) : Host.Outcome State Fault Refusal := s.apply fun d => d.restExit

def execAonTimerExpiry (s : State) : Host.Outcome State Fault Refusal := s.apply fun d => d.aonExpiry

def execColdReset (s : State) : Host.Outcome State Fault Refusal := s.apply fun d => d.fullReset .cold

/-- A rail out of its range resets exactly as `PORST_N` does, whichever rail it is (R453). -/
def execRailFault (_hbm : Bool) (s : State) : Host.Outcome State Fault Refusal := s.apply fun d => d.startReset .cold

/-- `SYSRST_N` or `PERST_N` goes low; in Rest `PERST_N` resets nothing (Table 20.2). -/
def execWarmReset (perst : Bool) (s : State) : Host.Outcome State Fault Refusal :=
  s.apply fun d => if perst && d.sdp.power == 3 then d else d.startReset .warm

def execFunctionLevelReset (hot : Bool) (s : State) : Host.Outcome State Fault Refusal := s.apply fun d => d.functionLevelReset hot

def execFlushEnd (s : State) : Host.Outcome State Fault Refusal := s.apply fun d => d.flushEnd

end Sys2Proof.Machine
end

