-- ==== Sys2Proof/Machine/RegWrite.lean ====
section
/-! DEFINITION. A BAR0 write to any register (R5, R40, R47): each block's registers that do more than take the value, the registers
that a twin pair mirrors (R312, Table 13.4), and everything else under the access codes of its fields. -/

namespace Sys2Proof.Machine

/-- A write under the access codes; at offset 4 of a page of `page` bytes lies `xxx_REFUSED`, whose clearing clears `MORE`. -/
def Dev.plainWrite (d : Dev) (page key v : Nat) : Dev :=
  let d := d.genericWrite key v
  if key % page == 4 then d.clearBeside key 31 [30] else d

/-! ### One block at a time -/

def Dev.writeGlb (d : Dev) (off v : Nat) : Dev :=
  if off == Reg.GLB_APERTURE then d.writeAperture v
  else if off == Reg.GLB_RESET_KEY then d.resetKeyConfirm (v % 2 ^ 16)
  else if off == Reg.GLB_ERR_UNMAPPED || off == Reg.GLB_ERR_FAR then (d.genericWrite off v).clearBeside off 0 [1, 2]
  else match indexIn (Reg.MSIX_VCTRL 0) 0x10 64 off with
    | some k => if bit v 0 then d.setReg off 1 else d.unmask k
    | none => d.plainWrite 0x10000 off v

def Dev.writeSdp (d : Dev) (off v : Nat) : Dev :=
  if off == Reg.SDP_POWER then d.writePower v
  else if off == Reg.SDP_CTRL then d.writeSdpCtrl v
  else if off == Reg.SDP_FUSE_PROG then d.writeFuseProg 0 v
  else match indexIn (Reg.SDP_STAGE_KEY 0) 4 8 off with
    | some k => d.writeStageKey 0 k v
    | none =>
      if (indexIn (Reg.SDP_KEYHASH 0) 4 12 off).isSome && d.fuses.hashFused then d
      else d.plainWrite 0x10000 off v

def Dev.writeCkg (d : Dev) (off v : Nat) : Dev :=
  match pllAt off with
  | some k =>
    if off % 0x20 == pllLock then d.writePllLock k v
    else if off % 0x20 == pllSeed then d.writePllSeed k v
    else if off % 0x20 == 0 && 4 ≤ k && k < 36 then d.writeQpllCtrl (k - 4) v
    else d.genericWrite off v
  | none =>
    match indexIn (Reg.CKG_OUT_CTRL 0) 0x10 8 off, indexIn (Reg.CKG_OUT_DIV 0) 0x10 8 off with
    | some n, _ => d.writeClockOut n false v
    | none, some n => d.writeClockOut n true v
    | none, none => d.plainWrite 0x10000 off v

/-- A write of a timing register: a JOINED lodger refuses it, and it is refused while a REFRAME is pending (R101, R342). -/
def Dev.writeTiming (d : Dev) (off v : Nat) : Dev :=
  if d.joinedLodger then d.refuse Reg.STK_BLKID stkLodger
  else if 2 ≤ d.stk.timing then d.refuse Reg.STK_BLKID stkPendingWrite
  else d.genericWrite off v

/-- A write of `STK_LOCK` (Table 4.9). -/
def Dev.writeStkLock (d : Dev) (v : Nat) : Dev :=
  let slew := Fld.STK_LOCK_SLEW.get v
  if slew < 1 || 200 < slew then d.refuse Reg.STK_BLKID stkLockRange else d.genericWrite Reg.STK_LOCK v

def Dev.writeStk (d : Dev) (off v : Nat) : Dev :=
  if off == Reg.STK_CTRL then
    let d := if bit v 0 then d.hostReframe else d
    if bit v 1 then d.todStep else d
  else if off == Reg.STK_SRC then d.writeStkSrc v
  else if off == Reg.STK_LOCK then d.writeStkLock v
  else if isTiming off then d.writeTiming off v
  else d.plainWrite 0x10000 off v

def Dev.writeFlp (d : Dev) (off v : Nat) : Dev :=
  match indexIn (Reg.FLP_FENCE 0) 4 1024 off with
  | some f => d.hostFence f v
  | none => d.plainWrite 0x10000 off v

def Dev.writeBel (d : Dev) (off v : Nat) : Dev :=
  match belPageAt off with
  | some c =>
    match off % 0x100 with
    | 0x04 => d.complete c
    | 0x08 => d.pendAck c 0 v
    | 0x0C => d.pendAck c 32 v
    | 0x14 => if bit v 0 then d.setReg off 1 else d
    | 0x18 => if 64 ≤ c && bit v 2 then d.ack c (stackFault (c - 64)) else d
    | _ => d.genericWrite off v
  | none =>
    if off == Reg.BEL_BLKID then d.belDoorbell v
    else if off == Reg.BEL_FAULT then (d.genericWrite off v).clearBeside off 0 [1]
    else d.plainWrite 0x10000 off v

def Dev.writeRing (d : Dev) (r off v : Nat) : Dev :=
  match off % 0x40 with
  | 0x00 => d.writeRingCtrl r v
  | 0x04 => d.writeRingBase r off v
  | 0x08 => d.writeRingBase r off v
  | 0x0C => d.writeProd r v
  | 0x10 => d.writeCons r v
  | _ => d.genericWrite off v

/-- A unit of the tally block, and the place in its page. -/
def Dev.writeTly (d : Dev) (off v : Nat) : Dev :=
  let u := (off - 0x90000) / 0x400
  let at_ := off % 0x400
  if at_ == 0x10 then d.writeTlyCfg u v
  else if 0x20 ≤ at_ && at_ < 0x38 then d.writeTlyParam u off v
  else d.plainWrite 0x10000 off v

def Dev.writeStl (d : Dev) (off v : Nat) : Dev :=
  if 0xB1000 ≤ off && off < 0xB2000 then
    let r := (off - 0xB1000) / 0x40
    match off % 0x40 with
    | 0x00 => d.writePlateCtrl r v
    | 0x04 => d.writePlateGeom r off v
    | 0x08 => d.writePlateGeom r off v
    | 0x0C => d.writePlateGeom r off v
    | 0x18 => if bit v 0 then d.plateCommit r else d
    | _ => d.genericWrite off v
  else d.plainWrite 0x10000 off v

def Dev.writeDep (d : Dev) (off v : Nat) : Dev :=
  if off == Reg.DEP_CTRL then d.writeDepCtrl v
  else if off == Reg.DEP_LAMBDA then d.writeLambda v
  else if off == Reg.DEP_LOG_RING then d.writeLogRing v
  else if off == Reg.DEP_LOG_INDEX then d.writeLogIndex v .good
  else d.plainWrite 0x10000 off v

def Dev.writeTwn (d : Dev) (off v : Nat) : Dev :=
  if off == Reg.TWN_CTRL then d.writeTwnCtrl v
  else if off == Reg.TWN_LOSS then d.writeTwnLoss v
  else d.plainWrite 0x10000 off v

def Dev.writeTrk (d : Dev) (off v : Nat) : Dev :=
  if off == Reg.TRK_CTRL then d.writeTrkCtrl v
  else if off == Reg.TRK_TIMES then d.writeTrkTimes v
  else if off == Reg.TRK_LOSS then d.writeTrkLoss v
  else if off == Reg.TRK_RING then d.writeTrkRing v
  else if off == Reg.TRK_DB_CTRL then d.writeTrkDb v
  else d.plainWrite 0x10000 off v

/-- A write of `CAL_FL_CMD` takes `OP`; `GO` starts the command (R464). -/
def Dev.writeCal (d : Dev) (off v : Nat) : Dev :=
  if off == Reg.CAL_FL_CMD then (if bit v 0 then d.flashGo (v / 2 % 4) else d.genericWrite off v)
  else if off == Reg.CAL_TRIM_KEY then d.writeTrimKey v
  else d.plainWrite 0x10000 off v

/-- A write to a route-map shadow; refused while a commit is pending (R215). -/
def Dev.writeRoute (d : Dev) (p key v : Nat) : Dev :=
  if (d.coach p).pending then d.refuse (Reg.CPT_BLKID p) cptPendingWrite else d.shadowWrite key v

def Dev.writeCpt (d : Dev) (p key v : Nat) : Dev :=
  if key == Reg.CPT_CTRL p then d.writeCoachCtrl p v
  else if key == Reg.CPT_CHAIN_ID p then d.writeChainId p v
  else if key == Reg.CPT_COMMIT p then d.writeCommit p v .good
  else if 0x1000 ≤ key % 0x10000 && key % 0x10000 < 0x1800 then d.writeRoute p key v
  else d.plainWrite 0x10000 key v

/-- The registers of a context window that are fixed while the context is enabled (Table 11.7). -/
def ctxFixedAt (at_ : Nat) : Bool :=
  at_ == 0x04 || at_ == 0x08 || (0x10 ≤ at_ && at_ < 0x40)

def Dev.writeSip (d : Dev) (p key v : Nat) : Dev :=
  let page := key % 0x10000
  if 0x4000 ≤ page then
    let j := (page - 0x4000) / 0x100
    let at_ := page % 0x100
    if at_ == 0 then d.writeCtxCtrl p j v
    else if ctxFixedAt at_ then d.writeCtxFixed p j key v
    else d.genericWrite key v
  else if key == Reg.SIP_CTRL p then d.writeSipCtrl p v
  else if key == Reg.SIP_RING p then d.writeSipRing p v
  else d.plainWrite 0x10000 key v

def Dev.writePort (d : Dev) (p key v : Nat) : Dev :=
  match d.role p with
  | 1 => d.writeCpt p key v
  | 2 => d.writeSip p key v
  | 3 => if key == Reg.TWN_PORT_CTRL p then d.writeTwnPort p v else d.plainWrite 0x10000 key v
  | _ => if key == Reg.TRK_PORT_CTRL p then d.writeTrkPort p v else d.plainWrite 0x10000 key v

def Dev.writeLine (d : Dev) (c off v : Nat) : Dev :=
  if off == Reg.RLC_CTRL c then d.writeRlcCtrl c v
  else if off == Reg.RLC_SCHED c then d.writeRlcSched c v
  else if off == Reg.RLC_RING c then d.writeRlcRing c v
  else if off % 0x1000 == 4 then d.plainWrite 0x1000 off v
  else d.genericWrite off v

/-! ### Every register -/

/-- A register's own effect of a write, the twin left aside; `key` is the offset in the register file. -/
def Dev.directWrite (d : Dev) (off key v : Nat) : Dev :=
  match blkOf off with
  | some .glb => d.writeGlb off v
  | some .wbl => if off == Reg.WBL_CTRL then (if bit v 0 then d.hostLoad else d) else d.plainWrite 0x10000 off v
  | some .sdp => d.writeSdp off v
  | some .ckg => d.writeCkg off v
  | some .stk => d.writeStk off v
  | some .flp => d.writeFlp off v
  | some .bel => d.writeBel off v
  | some .rng => d.plainWrite 0x10000 off v
  | some .blt => if off == Reg.BLT_CTRL then d.writeBltCtrl v else d.plainWrite 0x10000 off v
  | some .tly => d.writeTly off v
  | some .prt => if off == Reg.PRT_REFUSED then d.plainWrite 0x10000 off v else d.shadowWrite off v
  | some .stl => d.writeStl off v
  | some .mem => if off == Reg.MEM_PD_CTRL then d.writeMemPd v else d.plainWrite 0x10000 off v
  | some .dep => d.writeDep off v
  | some .twn => d.writeTwn off v
  | some .trk => d.writeTrk off v
  | some .cal => d.writeCal off v
  | some .dbg => (d.writeDbg off v).placeJobs
  | some (.ring r) => d.writeRing r off v
  | some (.port p) => d.writePort p key v
  | some (.line c) => d.writeLine c off v
  | none => d

/-- A shadow of PRT: of a layer descriptor, of a stack or recipe table, or of the phase map (R109, Tables 5.2, 5.4, 5.6). -/
def isPrtShadow (off : Nat) : Bool :=
  (0x200000 ≤ off && off < 0x240000 && off % 0x100 < 0x30) || (0x240000 ≤ off && off < 0x280000 && off % 0x1000 < 0x540) ||
    (0x301000 ≤ off && off < 0x301080)

/-- The registers of Table 13.4, but for `CPT_CTRL.HOLD` and `STK_CTRL.REFRAME`: a field of a register, and a trigger. -/
def isMirroredReg (off key : Nat) : Bool :=
  match blkOf off with
  | some .prt => off == Reg.PRT_PARCEL || isPrtShadow off
  | some .stk => isTiming off || (indexIn (Reg.STK_SHOW 0) 4 16 off).isSome || off == Reg.STK_OUT
  | some .flp => (indexIn (Reg.FLP_FENCE 0) 4 1024 off).isSome
  | some .stl => 0xB1000 ≤ off && off < 0xB2000 && (off % 0x40 ≤ 0x0C || off % 0x40 == 0x18)
  | some .dep => off == Reg.DEP_CTRL || off == Reg.DEP_LAMBDA
  | some (.port _) => key / 0x10000000 == 1 &&
      ((0x1C ≤ key % 0x10000 && key % 0x10000 ≤ 0x24) || (0x1000 ≤ key % 0x10000 && key % 0x10000 < 0x1800))
  | _ => false

/-- A host write that reaches its register (R312). -/
def Dev.hostWrite (d : Dev) (off key v : Nat) : Dev :=
  match coachCtrlAt key with
  | some p => d.hostCoachCtrl p v
  | none => if isMirroredReg off key then d.mirrored off v fun d => d.directWrite off key v else d.directWrite off key v

/-- A BAR0 write, by Table 2.6. -/
def Dev.writeBar0 (d : Dev) (off v : Nat) : Dev :=
  if d.forbidsMode off v then d else d.onWrite off fun d => d.hostWrite off (d.keyOf off) v

/-- A write that the acting primary forwards, as if the host had written it here (R312). -/
def Dev.mirroredWrite (d : Dev) (off v : Nat) : Dev :=
  match d.access off with
  | .normal key =>
    match coachCtrlAt key with
    | some p => d.mirroredHold p v
    | none => if isMirroredReg off key then d.directWrite off key v else d
  | _ => d

/-! ### The commands -/

/-- A change of mode can end halts: a composition that waits for a priority entry takes one of theirs (R290, R435). -/
def execDbgMode (data : Word) (s : State) : Host.Outcome State Fault Refusal :=
  s.apply fun d =>
    if d.forbidsMode Reg.DBG_MODE data.toNat then d else d.onWrite Reg.DBG_MODE fun d => (d.writeDbgMode data.toNat).placeJobs

/-- As for a change of mode, a halt that ends frees its porter's priority entries (R290, R435). -/
def execDbgHalt (word : Fin 8) (data : Word) (s : State) : Host.Outcome State Fault Refusal :=
  s.apply fun d => d.onWrite (Reg.DBG_HALT word) fun d => (d.writeDbgHalt word data.toNat).placeJobs


def execRegisterWrite (offset : Nat) (data : Word) (s : State) : Host.Outcome State Fault Refusal :=
  s.apply fun d => d.writeBar0 offset data.toNat

end Sys2Proof.Machine
end

