-- ==== Sys2Proof/Machine/RegRead.lean ====
section
/-! DEFINITION. What a register reads as (R6, R42, R47): the registers whose value is computed from the device's state, the counters
of a snapshot (R434), the common headers in a flush phase (R457), and the register reads and writes of DBGACC (R437). -/

namespace Sys2Proof.Machine

def boolNat (b : Bool) : Nat := if b then 1 else 0

/-- `SDP_SEC` (Table 19.13). -/
def Dev.secWord (d : Dev) : Nat :=
  d.sdp.sec * 2 ^ 16 + boolNat (3 ≤ d.sdp.unlockFails) * 2 ^ 12 + d.sdp.unlockFails * 2 ^ 10 + boolNat d.sdp.nonceValid * 2 ^ 9 +
    boolNat d.keyPresent * 2 ^ 8 + boolNat (d.sdp.fuseJob != .none) * 2 ^ 6 + boolNat d.sdp.sealPending * 2 ^ 5 +
    boolNat d.fuses.hashFused * 2 ^ 4 + boolNat d.fuses.sealed

/-- `SDP_POWER`. -/
def Dev.powerWord (d : Dev) : Nat :=
  Fld.SDP_POWER_STATE.put (Fld.SDP_POWER_TRANSIT.put (d.reg Reg.SDP_POWER) (boolNat d.transit)) d.sdp.power

/-- `STK_STATE` (Table 4.9). -/
def Dev.stkStateWord (d : Dev) : Nat :=
  d.stk.good * 2 ^ 8 + boolNat (d.stk.aligned && d.stk.lock == 1) * 2 ^ 7 + d.stk.lock * 2 ^ 4 + d.stk.timing

/-- `BEL_PG_STATUS` (Table 17.12). -/
def Dev.belStatusWord (d : Dev) (c : Nat) : Nat :=
  let x := d.belClass c
  entrySource x.entry * 2 ^ 16 + boolNat (64 ≤ c && (d.belPending (stackFault (c - 64))).isSome) * 2 ^ 2 + boolNat x.armed * 2 +
    boolNat x.entry.isSome

/-- The whole hours in a count of milliseconds. -/
def wholeHours (ms : Nat) : Nat := min (ms / 3600000) 0xFFFFFFFF

def Dev.viewSdp (d : Dev) (off stored : Nat) : Nat :=
  if off == Reg.SDP_SEC then d.secWord
  else if off == Reg.SDP_POWER then d.powerWord
  else if off == Reg.SDP_SERIAL_LO then d.fuses.serial % 2 ^ 32
  else if off == Reg.SDP_SERIAL_HI then d.fuses.serial / 2 ^ 32 % 2 ^ 32
  else if off == Reg.SDP_IDCODE then d.fuses.idcode
  else match indexIn (Reg.SDP_KEYHASH 0) 4 12 off, indexIn (Reg.SDP_AUDIT_DATA 0) 4 4 off with
    | some k, _ => if d.fuses.hashFused then leNat ((d.fuses.keyHash.drop (4 * k)).take 4) else stored
    | none, some k => d.auditWord k
    | none, none => if (indexIn (Reg.SDP_STAGE_KEY 0) 4 8 off).isSome then 0 else stored

def Dev.viewStk (d : Dev) (off stored : Nat) : Nat :=
  if off == Reg.STK_STATE then d.stkStateWord
  else if off == Reg.STK_RATE then toTwos 32 d.stk.r
  else if off == Reg.STK_STROKE_LO then d.stk.stroke % 2 ^ 32
  else if off == Reg.STK_TOD_NS then d.todNano
  else if off == Reg.STK_LTC_WORD0 then d.stk.ltc.word0
  else stored

def Dev.viewBel (d : Dev) (off stored : Nat) : Nat :=
  match belPageAt off with
  | some c =>
    match off % 0x100 with
    | 0x00 => (d.claim c).1
    | 0x04 => 0
    | 0x08 => d.pendBits c % 2 ^ 32
    | 0x0C => d.pendBits c / 2 ^ 32
    | 0x18 => d.belStatusWord c
    | _ => stored
  | none => stored

def Dev.viewPrt (d : Dev) (off stored : Nat) : Nat :=
  if off == Reg.PRT_DEAL_STROKE_LO then d.prt.dealStroke % 2 ^ 32
  else if off == Reg.PRT_DONE_STROKE_LO then d.prt.doneStroke % 2 ^ 32
  else if 0x1000000 ≤ off && off < 0x1100000 then
    let p := (off - 0x1000000) / 0x1000
    match off % 0x1000 with
    | 0 => d.porterState p
    | 4 => d.inSatchel p
    | _ => stored
  else stored

/-- What a register reads as, `stored` being what the register file holds: the stored value but where the value follows from other
state. A read that also pops or captures has a command of its own; this is the value that it returns. -/
def Dev.view (d : Dev) (off stored : Nat) : Nat :=
  match blkOf off with
  | some .glb => if off == Reg.GLB_GRADE then d.fuses.temp * 16 + d.fuses.speed else stored
  | some .sdp => d.viewSdp off stored
  | some .ckg => match pllAt off with
    | some k => d.pllView k (off % 0x20) stored
    | none => stored
  | some .stk => d.viewStk off stored
  | some .flp => if off == Reg.FLP_STATUS then d.flpStatus else if off == Reg.FLP_LAST_LO then d.flp.last % 2 ^ 32 else stored
  | some .bel => d.viewBel off stored
  | some (.ring r) =>
    match off % 0x40 with
    | 0x00 => Fld.RNG_RS_CTRL_BUSY.put stored (boolNat (d.ringBusy r))
    | 0x1C => d.ringOcc r
    | _ => stored
  | some .prt => d.viewPrt off stored
  | some .stl =>
    if off == Reg.STL_SETTLED_FREE then d.settledFree
    else match (List.range 64).find? fun k => off == Reg.STL_SK_STATE k with
      | some k => Fld.STL_SK_STATE_SETTLED.put stored (boolNat (d.copiesHeld k))
      | none => stored
  | some .dep =>
    if off == Reg.DEP_LIFE_HOURS then wholeHours d.sdp.lifeMs
    else if off == Reg.DEP_LIFE_EQUIV then wholeHours (d.sdp.lifeEquiv / 2 ^ 64)
    else stored
  | some .twn => if off == Reg.TWN_STATUS then d.twnStatus else stored
  | some .trk => if off == Reg.TRK_STATUS then Fld.TRK_STATUS_ORIGIN.put stored (boolNat d.originator) else stored
  | some .cal => if off == Reg.CAL_STATUS then Fld.CAL_STATUS_BUSY.put stored (boolNat d.boot.flashJob.isSome) else stored
  | some .dbg =>
    if off == Reg.DBG_STATUS then
      Fld.DBG_STATUS_BUSY.put (Fld.DBG_STATUS_SNAP_HELD.put stored (boolNat d.dbg.snap.isSome)) (boolNat d.dbg.read.isSome)
    else stored
  | _ => stored

/-- The value that a read of a register returns; a counter that a snapshot holds returns the captured value (R434). -/
def Dev.readKey (d : Dev) (off key : Nat) : Nat :=
  match d.dbg.snap, rowOf key with
  | some snap, some r => if r.cnt then (snap.get resetWord key).toNat else d.view off (d.reg key)
  | _, _ => d.view off (d.reg key)

/-- An offset of a common header (R36). -/
def isHeader (off : Nat) : Bool :=
  match blkOf off with
  | some (.ring _) => false
  | some (.line _) => off % 0x1000 ≤ 8
  | some (.port _) => off % 0x10000 ≤ 8
  | some _ => off < 0x120000 && off % 0x10000 ≤ 8
  | none => false

/-- How a read of a register is decided: as any access, but the common headers answer in a flush phase (R457). -/
def Dev.readAccess (d : Dev) (off : Nat) : Access :=
  if d.boot.flush && isHeader off then { d with boot := { d.boot with flush := false } }.access off else d.access off

/-- The value of a read of a register without an effect of its own: none where it completes with Unsupported Request. A block that
does not answer logs the access (R39). -/
def Dev.readBar0 (d : Dev) (off : Nat) : Option Nat × Dev :=
  match d.readAccess off with
  | .fallback => (some 0, d)
  | .unmapped => (none, d)
  | .far => (some 0, d.farError off false)
  | .normal key => (some (d.readKey off key), d)

/-! ### The test access port (R437) -/

/-- DBGACC: an access to the register at a displacement in the DBG region, which follows Table 2.6 as an access of BAR0 does. A read
without a register returns nothing. -/
def Dev.dbgAccess (d : Dev) (disp : Nat) (write : Option Nat) : Dev :=
  let off := 0x110000 + disp % 0x10000
  let d := { d with tap := .dbgacc }
  match write with
  | some v => d.writeBar0 off v
  | none =>
    let r := d.readBar0 off
    match r.1 with
    | some v => r.2.emit (.tap v)
    | none => r.2.emit .unsupported

def execDbgacc (offset : Nat) (write : Option Word) (s : State) : Host.Outcome State Fault Refusal :=
  s.apply fun d => d.dbgAccess offset (write.map (·.toNat))

end Sys2Proof.Machine
end

