-- ==== Sys2Proof/Machine/TwinRx.lean ====
section
/-! DEFINITION. What a sequenced twin frame does where it arrives (R304, R308 to R320): the link's order, authentication, the state
image, mirrored items, READY and DECISION, check values, and repairs. -/

namespace Sys2Proof.Machine

/-! ### Mirrored items (R312 to R314, R330, R396) -/

/-- The set that a mirrored item queues under its primary's verdict, whatever this device's own checks say (R313). -/
def Dev.mirroredSet (d : Dev) (origin : SetOrigin) (h : SetHead) (target : Nat) (ms : List Member) :
    QSet × SetPlan :=
  let p := d.setPlan ms target h.deadline
  ({ id := d.flp.nextId, origin, target := target, deadline := h.deadline
     afEn := h.afEn, afIdx := h.afIdx, afVal := h.afVal, tag := h.tag, members := ms, changes := p.changes
     reserved := p.own d.flp.nextId }, p)

def Dev.enqueueMirrored (d : Dev) (x : QSet × SetPlan) : Dev := d.enqueue x.1 x.2.windows (x.2.more x.1.id) x.2.gains

/-- A mirrored flip set: it takes the primary's verdict and target; another verdict of this device's own checks is noted (R313). -/
def Dev.mirrorSet (d : Dev) (ring index : Nat) (entries : List (List Nat)) (verdict target : Nat) : Dev :=
  let e := entries.headD []
  let es := entries.drop 1
  let h := setHead e
  let d := d.lullExit
  let v := d.judgeSet (.mirrored ring index) false e es target h.deadline
  let d := if v.status == verdict then d
    else ((d.count Reg.TWN_VERDICT_DIFF_CNT).twnEvent Fld.TWN_EVENT_VERDICT).raise 0x4663
  if verdict == stDone then
    match v.set with
    | some q => (d.enqueue q v.windows v.more v.gains).flpEdge
    | none => (d.enqueueMirrored (d.mirroredSet (.mirrored ring index) h target ((d.readMembers es).getD []))).flpEdge
  else
    let m := (d.countVerdict { v with status := verdict }).freshNat
    m.2.mirrorCopy { op := 1, status := verdict, tag := h.tag, stroke := m.1 % two48 }

/-- A mirrored FENCE_WAIT (R313); of a malformed one the completion record is copied. -/
def Dev.mirrorWait (d : Dev) (ring index : Nat) (e : List Nat) : Dev :=
  if !waitGood e then d.mirrorCopy (d.waitCompletion stMalformed)
  else
  let w : FenceWaitSt := { ring := ring, index := index, idx := wordOf e 1, val := wordOf e 2, limit := wordOf e 3, mirrored := true }
  { d with flp := { d.flp with waits := d.flp.waits ++ [w] } }

/-- One item of a MIRROR frame. A source crosses both ways; up frames of the trunk go to the acting primary, everything else to the
acting secondary. The start of a REFRAME is placed on this device's stroke clock (R314). -/
def Dev.mirrorItem (d : Dev) (x : MirrorItem) : Dev :=
  match x with
  | .source n => d.raise n
  | .up port second seq f => if d.primaryPaired && d.originator then d.takeUp port second seq f else d
  | .write off v => if d.secondaryPaired then d.mirroredWrite off v.toNat else d
  | .reframe t s =>
    if d.secondaryPaired then
      let b := d.twnPlaced t
      (b.2.reframeAccept b.1 (some s)).coachSettle
    else d
  | .set ring index entries verdict target ecc =>
    if d.secondaryPaired then (d.shadowChecked ecc).mirrorSet ring index entries verdict target else d
  | .wait ring index words => if d.secondaryPaired then d.mirrorWait ring index words else d
  | .down f => if d.secondaryPaired && d.steward then d.trkFlood f else d

/-! ### The state image (R311) -/

/-- The image registers that are taken as they come: all but `CPT_CTRL`, of which `HOLD` alone is mirrored (Table 13.4). -/
def takesWhole (k : Nat) : Bool := isImageReg k && (coachCtrlAt k).isNone

/-- The words that a member brings, with their reserved bits at 0: those of a STACK member, and a FLIP's address of a buffer (R6). -/
def Member.fielded : Member → Member
  | .flip layer wait acqEn relEn buf acqIdx acqVal relIdx relVal =>
    .flip layer wait acqEn relEn
      (fieldBits (Reg.PRT_LD_BUF_LO_LIVE layer) (buf % 2 ^ 32) + 2 ^ 32 * fieldBits (Reg.PRT_LD_BUF_HI_LIVE layer) (buf / 2 ^ 32))
      acqIdx acqVal relIdx relVal
  | .stack ks layers p reflat words => .stack ks layers p reflat (words.map fun w => (w.1, fieldBits w.1 w.2))
  | m => m

/-- A set of a state image is queued. -/
def Dev.imageSet (d : Dev) (x : ImageSet) : Dev :=
  let h : SetHead := { setHead [] with deadline := x.deadline, afEn := x.afEn, afIdx := x.afIdx, afVal := x.afVal, tag := x.tag }
  d.enqueueMirrored
    (d.mirroredSet (match x.trunk with | some s => .trunk s | none => .mirrored x.ring x.index) h x.target (x.members.map Member.fielded))

/-- What follows from the registers of an image, once they are all in place: `HOLD` and pending commits of the Coach ports, running
plate rings, and copies for the settled stacks. -/
def Dev.imageRegs (d : Dev) : Dev :=
  let d := (d.portsOf 1).foldl (fun (d : Dev) p =>
    let on := d.flag (Reg.CPT_COMMIT p) Fld.CPT_COMMIT_PENDING
    let n := d.reg (Reg.CPT_COMMIT_TGT_LO p) + 2 ^ 32 * d.reg (Reg.CPT_COMMIT_TGT_HI p)
    let next := d.flag (Reg.CPT_COMMIT p) Fld.CPT_COMMIT_NEXT
    d.setCoach p { d.coach p with pending := on, target := if on && !next then some n else none }) d
  let d := (List.range 64).foldl (fun (d : Dev) r =>
    d.setPlate r { d.plate r with run := d.flag (Reg.STL_PR_CTRL r) Fld.STL_PR_CTRL_RUN }) d
  let ks := (List.range 64).filter fun k => (stackAt d.regs k).valid && 0 < (stackAt d.regs k).settle
  (ks.foldl (fun (d : Dev) k => d.settledApply [] k) d).controlWritten (d.prt.lost.filter isLiveWord)

/-- Part of a state image arrives (R311): the bits that its registers have. The first part ends this device's own sets and clears what
the image covers: registers that it does not list hold their reset values. The last starts the stroke timer (R311). -/
def Dev.takeState (d : Dev) (first last : Bool) (regs : List (Nat × Nat)) (sets : List ImageSet) (start : Option (Rat × Nat)) : Dev :=
  let d := if first then
      let d := d.flushSets stAborted
      let d := { d with regs := d.regs.filter fun e => !takesWhole e.1, prt := { d.prt with badShadow := [] } }
      (d.portsOf 1).foldl (fun (d : Dev) p => d.setFld (Reg.CPT_CTRL p) Fld.CPT_CTRL_HOLD 0) d
    else d
  let d := regs.foldl (fun (d : Dev) e => match coachCtrlAt e.1 with
    | some p => if d.role p == 1 then d.setFld (Reg.CPT_CTRL p) Fld.CPT_CTRL_HOLD (Fld.CPT_CTRL_HOLD.get e.2) else d
    | none => if takesWhole e.1 && (rowOf e.1).isSome then d.setReg e.1 (fieldBits e.1 e.2) else d) d
  let d := sets.foldl Dev.imageSet d
  if !last then d
  else
    let d := d.imageRegs
    let d := match start with
      | some x =>
        let b := d.twnPlaced x.1
        b.2.reframeAccept b.1 (some x.2)
      | none => d
    d.coachSettle.updateAdm

/-! ### Check values (R317, R318) -/

/-- A record of the partner's PCV. -/
def Dev.takePcv (d : Dev) (rec_ : List Byte) : Dev :=
  let stroke := leNat (rec_.take 6)
  let region := leNat ((rec_.drop 6).take 1)
  let number := leNat ((rec_.drop 8).take 4)
  let v := leNat ((rec_.drop 12).take 4)
  let d := d.reservedWake contentPcvs (d.pcvBlock stroke region number)
  match d.parcel stroke region number with
  | some _ => (d.mapParcel stroke region number fun q => { q with theirs := some v }).twnCompare stroke region number
  | none =>
    let fresh (e : Nat × Nat × Nat × Nat) : Bool := strokeGe e.1 d.stk.stroke
    { d with twn := { d.twn with pcvs := (d.twn.pcvs.filter fresh) ++ [(stroke, region, number, v)] } }

/-- A record of the partner's recomposition; `sealOk` is the seal of a write that it makes this device do (R277, R318). -/
def Dev.takeResolve (d : Dev) (sealOk : Bool) (rec_ : List Byte) : Dev :=
  let stroke := leNat (rec_.take 6)
  let region := leNat ((rec_.drop 6).take 1)
  let number := leNat ((rec_.drop 8).take 4)
  let v := leNat ((rec_.drop 12).take 4)
  let step := leNat ((rec_.drop 16).take 1)
  (d.mapParcel stroke region number fun q =>
    if q.redoTheirs.length + 1 == step then { q with redoTheirs := q.redoTheirs ++ [v] } else q).twnResolve stroke region number sealOk

/-- The records of a payload, `n` bytes each. -/
def recordsOf (n : Nat) (payload : List Byte) : List (List Byte) :=
  (List.range (payload.length / n)).map fun i => (payload.drop (n * i)).take n

/-! ### Repairs (R287, R320) -/

/-- Whether each parcel of a stroke that has pixels in a block of the stroke store is sealed, and there is one (R320). -/
def Dev.blockSealed (d : Dev) (stroke block : Nat) : Bool :=
  match d.runOf stroke with
  | none => false
  | some r =>
    let base := d.pixelPlace r 0 0
    let a := block * 256
    let touched := r.parcels.filter fun q =>
      (List.range q.h).any fun b =>
        let p := base + ((q.y + b) * d.wb.canvasW + q.x) * 6
        decide (a < p + 6 * q.w) && decide (p < a + 256)
    !r.racing && !touched.isEmpty && touched.all (·.st == .sealed)

/-- The requests that are being served: the REPAIR_DATA frames that the partner has not acknowledged (R320, log 23). -/
def Dev.repairsServed (d : Dev) : Nat := (d.twn.sent.filter fun e => e.msg.type_ == 0x41).length

/-- Why a REPAIR_REQ is answered with REPAIR_NAK; none where the block is served. `bad` says that the block fails its check now. -/
def Dev.repairNak (d : Dev) (a stroke : Nat) (bad : Bool) : Option Nat :=
  if d.kindAt a == 0 then some 4
  else if 64 ≤ d.repairsServed then some 3
  else if bad || d.isDamaged (a / 256) then some 1
  else if d.kindAt a == 4 && !d.blockSealed stroke (a / 256) then some 2
  else none

/-- The read of a block that a REPAIR_REQ asks for: `again` says that the first read fails its check, `bad` that the re-read fails
too (R280, R299). Its controller is awake for it (R298). -/
def Dev.repairRead (d : Dev) (block : Nat) (again bad : Bool) : Dev :=
  (d.memWake [block]).failBlocks true (if bad then [block, block] else if again || d.isDamaged block then [block] else [])

/-- A REPAIR_REQ is answered. -/
def Dev.repairAsked (d : Dev) (payload : List Byte) (again bad : Bool) : Dev :=
  if !d.paired then d
  else
    let a := leNat (payload.take 8) / 256 * 256
    match d.repairNak a (leNat ((payload.drop 8).take 6)) bad with
    | some reason =>
      let d := if reason ≤ 2 then d.repairRead (a / 256) again bad else d
      (d.twnSend 0x42 (payload.take 8 ++ leBytes 1 reason)).count Reg.TWN_REPAIR_REFUSED_CNT
    | none =>
      let d := d.repairRead (a / 256) again bad
      let bs := d.memRead a 256
      (d.twnSend 0x41 (payload.take 8 ++ bs ++ leBytes 2 (blockCheck (a / 256) bs))).count Reg.TWN_REPAIR_SERVED_CNT

/-- A REPAIR_DATA: the block is written where it passes its check (R287). Its read from the repair staging fails the repair where that
block is damaged (R291). -/
def Dev.repairCame (d : Dev) (payload : List Byte) (staging : Ecc) : Dev :=
  let block := leNat (payload.take 8) / 256
  let bs := (payload.drop 8).take 256
  let d := d.reserved staging contentStaging (block % (reservedSize contentStaging / 256)) 0
  if staging == .bad then d.repairFailed block
  else if bs.length == 256 && blockCheck block bs == leNat ((payload.drop 264).take 2) then d.repairDone block bs else d.repairFailed block

/-! ### Delivery -/

/-- AUTH of the partner: it is kept, and TAG goes out (R309). -/
def Dev.twnAuthed (d : Dev) (payload : List Byte) : Dev :=
  if d.twnState == 1 && d.twn.theirAuth.isNone then
    ({ d with twn := { d.twn with theirAuth := some payload } }).twnSend 0x02 (d.twnTag payload)
  else d

/-- A covered frame's value has failed (R372). -/
def Dev.twnStripLost (d : Dev) : Dev := if d.paired then (d.twnPart 4).enterAlone causeLink else d

/-- The outcome of a read as the byte that stands for it behind a frame. -/
def eccByte (e : Ecc) : Byte :=
  match e with
  | .good => 0
  | .corrected => 1
  | .bad => 2

def eccOf (bs : List Byte) : Ecc :=
  if bs.take 1 == [1] then .corrected else if bs.take 1 == [2] then .bad else .good

/-- A sequenced twin frame in its turn; none: its strip has failed. A byte stands behind a REPAIR_REQ, a REPAIR_DATA and a RESOLVE: what
the command says of the block that this device reads, or of the seal of what it writes. -/
def Dev.twnDeliver (d : Dev) : Option TwinMsg → Dev
  | none => d.twnStripLost
  | some (.bytes t payload) =>
    match t with
    | 0x01 => d.twnAuthed payload
    | 0x02 => d.twnTagged payload
    | 0x03 => d.enterAlone causePart
    | 0x30 => if d.paired then ((recordsOf 16 payload).foldl Dev.takePcv d).readsOver d else d
    | 0x31 =>
      if d.paired then ((recordsOf 17 payload.dropLast).foldl (Dev.takeResolve · (payload.getLast? != some 1) ·) d).readsOver d else d
    | 0x40 => d.repairAsked (payload.take 16) (bit (leNat (payload.drop 16)) 0) (bit (leNat (payload.drop 16)) 1)
    | 0x41 => d.repairCame (payload.take 266) (eccOf (payload.drop 266))
    | 0x42 => d.repairFailed (leNat (payload.take 8) / 256)
    | _ => d
  | some (.mirror items) => items.foldl Dev.mirrorItem d
  | some (.state first last regs sets start) =>
    if d.secondaryPaired && d.twnState == 2 then d.takeState first last regs sets start else d
  | some (.ready latch sets) =>
    if d.primaryPaired then ({ d with twn := { d.twn with ready := some (latch, sets) } }).twnDecide else d
  | some (.decision latch sets) =>
    if d.secondaryPaired then { d with twn := { d.twn with decision := some (latch, sets) } } else d

/-- Deliver the frames that are next in `SEQ` order (R304). -/
def Dev.twnDrain (d : Dev) : Nat → Dev
  | 0 => d
  | n + 1 =>
    match d.twn.held.find? (·.1 == d.twn.rxNext) with
    | none => d
    | some e =>
      let d := { d with twn := { d.twn with
        rxNext := (d.twn.rxNext + 1) % 2 ^ 32, held := d.twn.held.filter (·.1 != e.1) } }
      (d.twnDeliver e.2).twnDrain n

/-- A sequenced frame arrives: its check, its copy taken once, its value stripped, and the frames that it lets through (R304, R372).
IDLE and FAILED take none. -/
def Dev.twnTake (d : Dev) (h : TwinHead) (good : Bool) (strip : Dev → Option TwinMsg × Dev) : Dev :=
  let r := d.twnHeard h good
  let d := r.2
  let seq := h.seq.toNat
  if !r.1 || d.twnState == 0 || d.twnState == 5 then d
  else if !cursorBeyond seq d.twn.rxNext || d.twn.held.any (·.1 == seq) then d
  else
    let s := strip d
    let d := { s.2 with twn := { s.2.twn with held := s.2.twn.held ++ [(seq, s.1)] } }
    d.twnDrain d.twn.held.length

/-- A sequenced frame given by its bytes. -/
def Dev.twnBytes (d : Dev) (h : TwinHead) (type_ : Nat) (payload : List Byte) (crc : Word) (tail : List Byte) : Dev :=
  d.twnTake h (d.twnCrc h type_ payload crc) fun d =>
    if twinCovered type_ then
      let r := d.tlyStrip 0 type_ 0 h.seq.toNat h.seq.toNat payload
      (r.1.map fun body => .bytes type_ (body ++ tail), r.2)
    else (some (.bytes type_ payload), d)

/-- A sequenced frame whose payload the spec gives no layout: `fold` is the session value that its sender folded, `ok` says that it came
whole, and `wrong` the value that came with it where that does not agree. Its check passes where the folded values agree too (R303). -/
def Dev.twnTold (d : Dev) (h : TwinHead) (type_ : Nat) (fold : BitVec 64) (ok : Bool) (wrong : Option Nat) (msg : TwinMsg) : Dev :=
  d.twnTake h (ok && fold.toNat == leNat d.twn.session) fun d =>
    let r := d.tlyStripTold 0 type_ h.seq.toNat wrong
    (if r.1 then some msg else none, r.2)

/-! ### The commands -/

def execTwinAuth (head : TwinHead) (crc : Word) (payload : List Byte) (s : State) : Host.Outcome State Fault Refusal :=
  s.apply fun d => d.twnBytes head 0x01 payload crc []

def execTwinTag (head : TwinHead) (crc : Word) (payload : List Byte) (s : State) : Host.Outcome State Fault Refusal :=
  s.apply fun d => d.twnBytes head 0x02 payload crc []

def execPart (head : TwinHead) (crc : Word) (payload : List Byte) (s : State) : Host.Outcome State Fault Refusal :=
  s.apply fun d => d.twnBytes head 0x03 payload crc []

def execMirror (head : TwinHead) (ok agrees : Bool) (items : List MirrorItem) (s : State) (fold : BitVec 64 := 0) (value : Nat := 0) :
    Host.Outcome State Fault Refusal :=
  s.apply fun d => d.twnTold head 0x20 fold ok (toldWrong agrees value) (.mirror items)

def execState (head : TwinHead) (ok agrees first last : Bool) (regs : List (Nat × Nat)) (sets : List ImageSet)
    (start : Option (Rat × Nat)) (s : State) (fold : BitVec 64 := 0) (value : Nat := 0) : Host.Outcome State Fault Refusal :=
  s.apply fun d => d.twnTold head 0x21 fold ok (toldWrong agrees value) (.state first last regs sets start)

def execTwinReady (head : TwinHead) (ok agrees : Bool) (latch : Nat) (sets : List Nat) (s : State) (fold : BitVec 64 := 0)
    (value : Nat := 0) : Host.Outcome State Fault Refusal :=
  s.apply fun d => d.twnTold head 0x22 fold ok (toldWrong agrees value) (.ready latch sets)

def execTwinDecision (head : TwinHead) (ok agrees : Bool) (latch : Nat) (sets : List (Bool × Nat)) (s : State)
    (fold : BitVec 64 := 0) (value : Nat := 0) : Host.Outcome State Fault Refusal :=
  s.apply fun d => d.twnTold head 0x23 fold ok (toldWrong agrees value) (.decision latch sets)

def execPcv (head : TwinHead) (crc : Word) (payload : List Byte) (s : State) : Host.Outcome State Fault Refusal :=
  s.apply fun d => d.twnBytes head 0x30 payload crc []

def execResolve (head : TwinHead) (crc : Word) (payload : List Byte) (s : State) (sealOk : Bool := true) :
    Host.Outcome State Fault Refusal :=
  s.apply fun d => d.twnBytes head 0x31 payload crc [if sealOk then 0 else 1]

def execRepairReq (head : TwinHead) (crc : Word) (payload : List Byte) (again bad : Bool) (s : State) : Host.Outcome State Fault Refusal :=
  s.apply fun d => d.twnBytes head 0x40 payload crc ((List.replicate (16 - payload.length) 0) ++ [(if again then 1 else 0) + if bad then 2 else 0])

def execRepairData (head : TwinHead) (crc : Word) (payload : List Byte) (s : State) (staging : Ecc := .good) :
    Host.Outcome State Fault Refusal :=
  s.apply fun d => d.twnBytes head 0x41 payload crc ((List.replicate (266 - payload.length) 0) ++ [eccByte staging])

def execRepairNak (head : TwinHead) (crc : Word) (payload : List Byte) (s : State) : Host.Outcome State Fault Refusal :=
  s.apply fun d => d.twnBytes head 0x42 payload crc []

end Sys2Proof.Machine
end

