-- ==== Sys2Proof/Machine/Dispatch.lean ====
section
/-! DEFINITION. The meaning of each command: one arm for each constructor of Instr. -/

namespace Sys2Proof.Machine

/-- The effect of a command on a state whose queue holds the commands after it. -/
def exec (i : Instr) (s : State) : Host.Outcome State Fault Refusal :=
  match i with
  | .bridgeTransfer transfer => Sys2Proof.Machine.execBridgeTransfer s transfer
  | .bridgeReplay transfer => Sys2Proof.Machine.execBridgeReplay s transfer
  | .bridgeDown transfer => Sys2Proof.Machine.execBridgeDown s transfer
  | .bar2Read offset length bad => Sys2Proof.Machine.execBar2Read offset length bad s
  | .bar2Write offset data bad => Sys2Proof.Machine.execBar2Write offset data bad s
  | .registerWrite offset data => Sys2Proof.Machine.execRegisterWrite offset data s
  | .farAccessTimeout offset write => Sys2Proof.Machine.execFarAccessTimeout offset write s
  | .glbFlush => Sys2Proof.Machine.execGlbFlush s
  | .glbAperture data => Sys2Proof.Machine.execGlbAperture data s
  | .resetKeyArm => Sys2Proof.Machine.execResetKeyArm s
  | .resetKeyConfirm key => Sys2Proof.Machine.execResetKeyConfirm key s
  | .resetKeyTimeout => Sys2Proof.Machine.execResetKeyTimeout s
  | .ident pec => Sys2Proof.Machine.execIdent s pec
  | .stepping pec => Sys2Proof.Machine.execStepping s pec
  | .smbusStatus pec => Sys2Proof.Machine.execSmbusStatus s pec
  | .tempMax pec => Sys2Proof.Machine.execTempMax s pec
  | .tempHbmMax pec => Sys2Proof.Machine.execTempHbmMax s pec
  | .tempN sensor pec => Sys2Proof.Machine.execTempN sensor s pec
  | .alert pec => Sys2Proof.Machine.execAlert s pec
  | .alertClear mask pecOk => Sys2Proof.Machine.execAlertClear mask pecOk s
  | .smbusUndefined code write length pec => Sys2Proof.Machine.execSmbusUndefined code write s length pec
  | .alertResponse pec => Sys2Proof.Machine.execAlertResponse s pec
  | .sensorSample die hbm => Sys2Proof.Machine.execSensorSample die hbm s
  | .load => Sys2Proof.Machine.execLoad s
  | .flashLoad => Sys2Proof.Machine.execFlashLoad s
  | .headerCopyDone readError => Sys2Proof.Machine.execHeaderCopyDone readError s
  | .imageCopyDone readError => Sys2Proof.Machine.execImageCopyDone readError s
  | .tick departure => Sys2Proof.Machine.execTick s departure
  | .latchPoint ecc => Sys2Proof.Machine.execLatchPoint ecc s
  | .referenceInstant time => Sys2Proof.Machine.execReferenceInstant time s
  | .missing => Sys2Proof.Machine.execMissing s
  | .acqTimeout => Sys2Proof.Machine.execAcqTimeout s
  | .stkSrc data => Sys2Proof.Machine.execStkSrc data s
  | .todStep => Sys2Proof.Machine.execTodStep s
  | .reframe => Sys2Proof.Machine.execReframe s
  | .reframeTakesEffect departure => Sys2Proof.Machine.execReframeTakesEffect s departure
  | .reframeDone => Sys2Proof.Machine.execReframeDone s
  | .ltcFrame data start rate reverse good => Sys2Proof.Machine.execLtcFrame data start rate reverse good s
  | .parcelStart porter ecc list => Sys2Proof.Machine.execParcelStart porter ecc s list
  | .lift porter => Sys2Proof.Machine.execLift porter s
  | .parcelComposed porter sealOk bad parity err => Sys2Proof.Machine.execParcelComposed porter sealOk bad parity err s
  | .parcelAbandon porter => Sys2Proof.Machine.execParcelAbandon porter s
  | .strokeLate region => Sys2Proof.Machine.execStrokeLate region s
  | .recomposeStart porter ecc => Sys2Proof.Machine.execRecomposeStart porter s ecc
  | .auditStart porter ecc => Sys2Proof.Machine.execAuditStart porter s ecc
  | .auditDrop stroke region parcel => Sys2Proof.Machine.execAuditDrop stroke region parcel s
  | .fenceWrite fence value => Sys2Proof.Machine.execFenceWrite fence value s
  | .flipset ring ecc => Sys2Proof.Machine.execFlipset ring ecc s
  | .fenceWait ring => Sys2Proof.Machine.execFenceWait ring s
  | .fenceWaitDone ring => Sys2Proof.Machine.execFenceWaitDone ring s
  | .fenceWaitTimeout ring => Sys2Proof.Machine.execFenceWaitTimeout ring s
  | .submitResume ecc => Sys2Proof.Machine.execSubmitResume s ecc
  | .bufferRelease => Sys2Proof.Machine.execBufferRelease s
  | .plateCommit ring => Sys2Proof.Machine.execPlateCommit ring s
  | .coachCommit port data ecc => Sys2Proof.Machine.execCoachCommit port data ecc s
  | .pixels port buffered bad record wait again => Sys2Proof.Machine.execPixels port buffered bad record s wait again
  | .skip port buffered wait => Sys2Proof.Machine.execSkip port s buffered wait
  | .strokeMarker port delay => Sys2Proof.Machine.execStrokeMarker port delay s
  | .hold port => Sys2Proof.Machine.execHold port s
  | .config port => Sys2Proof.Machine.execConfig port s
  | .idle port length buffered wait => Sys2Proof.Machine.execIdle port length s buffered wait
  | .coachRetrain port => Sys2Proof.Machine.execCoachRetrain port s
  | .coachEn port data => Sys2Proof.Machine.execCoachEn port data s
  | .trainDone port => Sys2Proof.Machine.execTrainDone port s
  | .slotOpen line stretched => Sys2Proof.Machine.execSlotOpen line stretched s
  | .jam line => Sys2Proof.Machine.execJam line s
  | .status line addr payload check inWindow => Sys2Proof.Machine.execStatus line addr payload check inWindow s
  | .alarm line addr payload check inWindow => Sys2Proof.Machine.execAlarm line addr payload check inWindow s
  | .hello line addr payload check inWindow => Sys2Proof.Machine.execHello line addr payload check inWindow s
  | .ack line addr payload check inWindow => Sys2Proof.Machine.execAck line addr payload check inWindow s
  | .enrol line => Sys2Proof.Machine.execEnrol line s
  | .release line => Sys2Proof.Machine.execRelease line s
  | .access line => Sys2Proof.Machine.execAccess line s
  | .enrolNoAnswer line => Sys2Proof.Machine.execEnrolNoAnswer line s
  | .strangerExpiry line entry => Sys2Proof.Machine.execStrangerExpiry line entry s
  | .absent line addr => Sys2Proof.Machine.execAbsent line addr s
  | .rxfPop line ecc => Sys2Proof.Machine.execRxfPop line ecc s
  | .rlcEn line data => Sys2Proof.Machine.execRlcEn line data s
  | .ethFrame port data fcsOk overrun corrected uncorrected buffer bad wait => Sys2Proof.Machine.execEthFrame port data fcsOk overrun corrected uncorrected s buffer bad wait
  | .frameLanded port window => Sys2Proof.Machine.execFrameLanded port window s
  | .rxPost port => Sys2Proof.Machine.execRxPost port s
  | .tx port => Sys2Proof.Machine.execTx port s
  | .txDone port => Sys2Proof.Machine.execTxDone port s
  | .tsfPop port ecc => Sys2Proof.Machine.execTsfPop port ecc s
  | .contextEnable port window data => Sys2Proof.Machine.execContextEnable port window data s
  | .contextDisable port window data => Sys2Proof.Machine.execContextDisable port window data s
  | .contextLoss port window => Sys2Proof.Machine.execContextLoss port window s
  | .path port window => Sys2Proof.Machine.execPath port window s
  | .linkUp port => Sys2Proof.Machine.execLinkUp port s
  | .linkLeavesUp port => Sys2Proof.Machine.execLinkLeavesUp port s
  | .sipRetrain port => Sys2Proof.Machine.execSipRetrain port s
  | .reread block staging ok => Sys2Proof.Machine.execReread block staging ok s
  | .twinRepairTimeout block => Sys2Proof.Machine.execTwinRepairTimeout block s
  | .scrubRead fails => Sys2Proof.Machine.execScrubRead fails s
  | .memPowerDown controller => Sys2Proof.Machine.execMemPowerDown controller s
  | .memPowerUp controller => Sys2Proof.Machine.execMemPowerUp controller s
  | .logIndex data bad again => Sys2Proof.Machine.execLogIndex data bad s again
  | .twinLaneAligned port => Sys2Proof.Machine.execTwinLaneAligned port s
  | .twinAuth head crc payload => Sys2Proof.Machine.execTwinAuth head crc payload s
  | .twinTag head crc payload => Sys2Proof.Machine.execTwinTag head crc payload s
  | .part head crc payload => Sys2Proof.Machine.execPart head crc payload s
  | .heartbeat head crc payload wire => Sys2Proof.Machine.execHeartbeat head crc payload wire s
  | .heartbeatSend => Sys2Proof.Machine.execHeartbeatSend s
  | .twinSync head crc payload frac => Sys2Proof.Machine.execTwinSync head crc payload frac s
  | .twinSyncSend frac => Sys2Proof.Machine.execTwinSyncSend frac s
  | .mirror head ok agrees items fold value => Sys2Proof.Machine.execMirror head ok agrees items s fold value
  | .state head ok agrees first last regs sets start fold value => Sys2Proof.Machine.execState head ok agrees first last regs sets start s fold value
  | .twinReady head ok agrees latch sets fold value => Sys2Proof.Machine.execTwinReady head ok agrees latch sets s fold value
  | .twinDecision head ok agrees latch sets fold value => Sys2Proof.Machine.execTwinDecision head ok agrees latch sets s fold value
  | .pcv head crc payload => Sys2Proof.Machine.execPcv head crc payload s
  | .resolve head crc payload sealOk => Sys2Proof.Machine.execResolve head crc payload s sealOk
  | .repairReq head crc payload again bad => Sys2Proof.Machine.execRepairReq head crc payload again bad s
  | .repairData head crc payload staging => Sys2Proof.Machine.execRepairData head crc payload s staging
  | .repairNak head crc payload => Sys2Proof.Machine.execRepairNak head crc payload s
  | .twinIdle head crc payload => Sys2Proof.Machine.execTwinIdle head crc payload s
  | .twinResend => Sys2Proof.Machine.execTwinResend s
  | .twinLinkDown wire => Sys2Proof.Machine.execTwinLinkDown wire s
  | .lane port => Sys2Proof.Machine.execLane port s
  | .partnerLost => Sys2Proof.Machine.execPartnerLost s
  | .wire => Sys2Proof.Machine.execWire s
  | .authTimeout => Sys2Proof.Machine.execAuthTimeout s
  | .joinComplete => Sys2Proof.Machine.execJoinComplete s
  | .twinCutoff => Sys2Proof.Machine.execTwinCutoff s
  | .twinComparisonEnd => Sys2Proof.Machine.execTwinComparisonEnd s
  | .standbyLive => Sys2Proof.Machine.execStandbyLive s
  | .swap => Sys2Proof.Machine.execSwap s
  | .twinRetry => Sys2Proof.Machine.execTwinRetry s
  | .pairEn => Sys2Proof.Machine.execPairEn s
  | .stopAlive => Sys2Proof.Machine.execStopAlive s
  | .twinPortRetrain port => Sys2Proof.Machine.execTwinPortRetrain port s
  | .trunkLaneAligned port => Sys2Proof.Machine.execTrunkLaneAligned port s
  | .trunkAuth head crc payload => Sys2Proof.Machine.execTrunkAuth head crc payload s
  | .trunkTag head crc payload => Sys2Proof.Machine.execTrunkTag head crc payload s
  | .trunkSync head crc payload frac => Sys2Proof.Machine.execTrunkSync head crc payload frac s
  | .trunkSyncSend frac => Sys2Proof.Machine.execTrunkSyncSend frac s
  | .trunkTick head crc payload frac residence => Sys2Proof.Machine.execTrunkTick head crc payload frac residence s
  | .prepare head crc body ok agrees value ecc => Sys2Proof.Machine.execPrepare head crc body ok agrees s value ecc
  | .prepared head crc payload => Sys2Proof.Machine.execPrepared head crc payload s
  | .trunkCommit head crc payload => Sys2Proof.Machine.execTrunkCommit head crc payload s
  | .abort head crc payload => Sys2Proof.Machine.execAbort head crc payload s
  | .trunkReady head crc payload => Sys2Proof.Machine.execTrunkReady head crc payload s
  | .trunkDecision head crc payload => Sys2Proof.Machine.execTrunkDecision head crc payload s
  | .applied head crc payload => Sys2Proof.Machine.execApplied head crc payload s
  | .released head crc payload => Sys2Proof.Machine.execReleased head crc payload s
  | .rollup head crc payload => Sys2Proof.Machine.execRollup head crc payload s
  | .rollupSend => Sys2Proof.Machine.execRollupSend s
  | .doorbell head crc payload => Sys2Proof.Machine.execDoorbell head crc payload s
  | .leave head crc payload => Sys2Proof.Machine.execLeave head crc payload s
  | .trunkIdle head crc payload => Sys2Proof.Machine.execTrunkIdle head crc payload s
  | .tset => Sys2Proof.Machine.execTset s
  | .commitCutoff => Sys2Proof.Machine.execCommitCutoff s
  | .readinessSnapshot => Sys2Proof.Machine.execReadinessSnapshot s
  | .decisionSend => Sys2Proof.Machine.execDecisionSend s
  | .trunkResend port => Sys2Proof.Machine.execTrunkResend port s
  | .uplink => Sys2Proof.Machine.execUplink s
  | .lodgerLoss index second => Sys2Proof.Machine.execLodgerLoss index second s
  | .doorbellSend => Sys2Proof.Machine.execDoorbellSend s
  | .trunkRetry => Sys2Proof.Machine.execTrunkRetry s
  | .joinEn => Sys2Proof.Machine.execJoinEn s
  | .trunkPortRetrain port => Sys2Proof.Machine.execTrunkPortRetrain port s
  | .copy ring => Sys2Proof.Machine.execCopy ring s
  | .fill ring => Sys2Proof.Machine.execFill ring s
  | .blend ring => Sys2Proof.Machine.execBlend ring s
  | .blitStart => Sys2Proof.Machine.execBlitStart s
  | .bounceFillDone bad => Sys2Proof.Machine.execBounceFillDone bad s
  | .watermark bad => Sys2Proof.Machine.execWatermark bad s
  | .blitComplete bad => Sys2Proof.Machine.execBlitComplete bad s
  | .blitFenceTimeout ring => Sys2Proof.Machine.execBlitFenceTimeout ring s
  | .halt data => Sys2Proof.Machine.execHalt data s
  | .scan ring => Sys2Proof.Machine.execScan ring s
  | .scanStart unit => Sys2Proof.Machine.execScanStart unit s
  | .scanComplete unit bad => Sys2Proof.Machine.execScanComplete unit bad s
  | .scanFenceTimeout ring => Sys2Proof.Machine.execScanFenceTimeout ring s
  | .tlyCfg unit data => Sys2Proof.Machine.execTlyCfg unit data s
  | .resultPop unit ecc => Sys2Proof.Machine.execResultPop unit ecc s
  | .ringDoorbell ring prod ecc weak => Sys2Proof.Machine.execRingDoorbell ring prod ecc s weak
  | .consWrite ring cons => Sys2Proof.Machine.execConsWrite ring cons s
  | .ringEnable ring data => Sys2Proof.Machine.execRingEnable ring data s
  | .ringDisable ring data => Sys2Proof.Machine.execRingDisable ring data s
  | .belDoorbell data => Sys2Proof.Machine.execBelDoorbell data s
  | .doorbellMessage source deassert ecc => Sys2Proof.Machine.execDoorbellMessage source deassert ecc s
  | .claim page => Sys2Proof.Machine.execClaim page s
  | .pendRead page => Sys2Proof.Machine.execPendRead page s
  | .pendAck page high mask => Sys2Proof.Machine.execPendAck page high mask s
  | .stackFaultAck target => Sys2Proof.Machine.execStackFaultAck target s
  | .complete page => Sys2Proof.Machine.execComplete page s
  | .msixMessage page => Sys2Proof.Machine.execMsixMessage page s
  | .idleSet page => Sys2Proof.Machine.execIdleSet page s
  | .vectorUnmask vector => Sys2Proof.Machine.execVectorUnmask vector s
  | .wakeLatch latch => Sys2Proof.Machine.execWakeLatch latch s
  | .refWindow a b pcie => Sys2Proof.Machine.execRefWindow a b pcie s
  | .refLoss reference => Sys2Proof.Machine.execRefLoss reference s
  | .pllWindow pll diff => Sys2Proof.Machine.execPllWindow pll diff s
  | .pllFail pll => Sys2Proof.Machine.execPllFail pll s
  | .seed pll data => Sys2Proof.Machine.execSeed pll data s
  | .ckout output divider data => Sys2Proof.Machine.execCkout output divider data s
  | .fuseArm => Sys2Proof.Machine.execFuseArm s
  | .programSealed => Sys2Proof.Machine.execProgramSealed s
  | .programKeyHash => Sys2Proof.Machine.execProgramKeyHash s
  | .fuseDisarm => Sys2Proof.Machine.execFuseDisarm s
  | .fuseDone => Sys2Proof.Machine.execFuseDone s
  | .stageKey word data => Sys2Proof.Machine.execStageKey word data s
  | .challenge => Sys2Proof.Machine.execChallenge s
  | .unlock => Sys2Proof.Machine.execUnlock s
  | .unlockClearDone => Sys2Proof.Machine.execUnlockClearDone s
  | .dbgMode data => Sys2Proof.Machine.execDbgMode data s
  | .take => Sys2Proof.Machine.execTake s
  | .snapRelease => Sys2Proof.Machine.execSnapRelease s
  | .dbgHalt word data => Sys2Proof.Machine.execDbgHalt word data s
  | .dbgRead => Sys2Proof.Machine.execDbgRead s
  | .dbgReadDone damaged => Sys2Proof.Machine.execDbgReadDone damaged s
  | .bypass => Sys2Proof.Machine.execBypass s
  | .idcode => Sys2Proof.Machine.execIdcode s
  | .samplePreload balls => Sys2Proof.Machine.execSamplePreload balls s
  | .extest => Sys2Proof.Machine.execExtest s
  | .dbgacc offset write => Sys2Proof.Machine.execDbgacc offset write s
  | .goRun => Sys2Proof.Machine.execGoRun s
  | .goDoze => Sys2Proof.Machine.execGoDoze s
  | .goRest => Sys2Proof.Machine.execGoRest s
  | .dozeEntry => Sys2Proof.Machine.execDozeEntry s
  | .dozeExit => Sys2Proof.Machine.execDozeExit s
  | .restEntry => Sys2Proof.Machine.execRestEntry s
  | .restExit => Sys2Proof.Machine.execRestExit s
  | .aonTimerExpiry => Sys2Proof.Machine.execAonTimerExpiry s
  | .coldReset => Sys2Proof.Machine.execColdReset s
  | .railFault hbm => Sys2Proof.Machine.execRailFault hbm s
  | .warmReset perst => Sys2Proof.Machine.execWarmReset perst s
  | .functionLevelReset hot => Sys2Proof.Machine.execFunctionLevelReset hot s
  | .flushEnd => Sys2Proof.Machine.execFlushEnd s
  | .trimRead => Sys2Proof.Machine.execTrimRead s
  | .hbmTrainingDone => Sys2Proof.Machine.execHbmTrainingDone s
  | .memoryClearDone => Sys2Proof.Machine.execMemoryClearDone s
  | .flashToMemory => Sys2Proof.Machine.execFlashToMemory s
  | .memoryToFlash => Sys2Proof.Machine.execMemoryToFlash s
  | .flashCommandDone failed bad => Sys2Proof.Machine.execFlashCommandDone failed s bad
  | .trimKeyArm => Sys2Proof.Machine.execTrimKeyArm s
  | .trimKeyDisarm => Sys2Proof.Machine.execTrimKeyDisarm s
  | .capturingRegisterRead register => Sys2Proof.Machine.execCapturingRegisterRead register s
  | .trunkAuthTimeout port => Sys2Proof.Machine.execTrunkAuthTimeout port s
  | .trunkLaneLosesAlignment port => Sys2Proof.Machine.execTrunkLaneLosesAlignment port s
  | .trstNAsserted => Sys2Proof.Machine.execTrstNAsserted s

end Sys2Proof.Machine
end

