-- ==== Sys2Proof/Safety.lean ====
section
/-! DEFINITION. What counts as a sound state of the block, and the words that statements about commands use. -/

namespace Sys2Proof.Machine

/-! ### Sound devices -/

/-- The canonical form of software memory: addresses strictly rising, none listed with what an unlisted one reads as. -/
abbrev Memory.wf (m : Tab Byte) : Bool := Tab.wf memDefault m

/-- The tables that a device holds are canonical (so that equal contents are equal data), the error log holds at most its
524,288 entries (R299) and the audit log at most its 1,048,576 (R430). -/
structure Dev.Sound (d : Dev) : Prop where
  regs : Tab.wf resetWord d.regs = true
  mem : Memory.wf d.mem = true
  staging : Memory.wf d.staging = true
  flash : Tab.wf flashDefault d.flash = true
  hostMem : Tab.wf Config.hostByte d.hostMem = true
  rings : Tab.wf (fun _ => {}) d.rings = true
  coaches : Tab.wf (fun _ => {}) d.coaches = true
  lines : Tab.wf (fun _ => {}) d.lines = true
  sips : Tab.wf (fun _ => {}) d.sips = true
  ctxs : Tab.wf (fun _ => {}) d.ctxs = true
  tallies : Tab.wf (fun _ => {}) d.tallies = true
  log : d.depLogged.length ≤ 524288
  audit : d.sdp.audit.length ≤ 1048576
  power : d.sdp.power ≤ 3
  sec : d.sdp.sec ≤ 2

/-- A device has the fuses, the access-port instruction, the waybill, the flash and the security state of another. -/
structure Dev.KeepsFixed (e d : Dev) : Prop where
  fuses : d.fuses = e.fuses
  tap : d.tap = e.tap
  wb : d.wb = e.wb
  flash : d.flash = e.flash
  sec : d.sdp.sec = e.sdp.sec

/-- So it does, and it stands at the same point of its boot sequence. -/
structure Dev.Keeps (e d : Dev) : Prop where
  fuses : d.fuses = e.fuses
  tap : d.tap = e.tap
  wb : d.wb = e.wb
  flash : d.flash = e.flash
  sec : d.sdp.sec = e.sdp.sec
  boot : d.boot = e.boot

/-- A device has every byte of software memory, host memory and output staging of another, and the same damaged blocks. -/
structure Dev.KeepsMemory (e d : Dev) : Prop where
  mem : d.mem = e.mem
  damaged : d.damaged = e.damaged
  hostMem : d.hostMem = e.hostMem
  staging : d.staging = e.staging

/-- The commands that can change the fuses, the test access port's instruction, the waybill, the flash or the security state: those
of fuse programming, of the port, of a waybill load, of flash access, of Rest and of resets; an accepted write of the reset key
is a reset, from the host or mirrored by the partner. -/
def reachesFixedState : Instr → Bool
  | .fuseDone | .bypass | .idcode | .samplePreload .. | .extest | .dbgacc .. | .trstNAsserted | .headerCopyDone .. | .imageCopyDone ..
  | .flashCommandDone .. | .restEntry | .restExit | .coldReset | .railFault .. | .warmReset .. | .functionLevelReset ..
  | .flushEnd | .unlockClearDone | .resetKeyConfirm .. | .registerWrite ..
  | .twinAuth .. | .twinTag .. | .part .. | .mirror .. | .state .. | .twinReady ..
  | .twinDecision .. | .pcv .. | .resolve .. | .repairReq .. | .repairData .. | .repairNak .. => true
  | _ => false

/-! ### Frames -/

/-- Device `d` is device `e` but for the registers named, the outputs of the last command, and the edge of `FAULT_N` with the
SMBus ALERT bits, which every command latches. -/
structure Dev.OnlyRegs (e d : Dev) (offs : List Nat) : Prop where
  regs : ∀ o, o ∉ offs → d.reg o = e.reg o
  rest : { d with regs := e.regs, out := e.out
                  sdp := { d.sdp with alert := e.sdp.alert, faultWas := e.sdp.faultWas } } = e

/-- As `Dev.OnlyRegs`, but for the Bellboard too: a source may have risen, and one that no target takes is counted in
`BEL_UNROUTED_CNT`. -/
structure Dev.OnlyBell (e d : Dev) (offs : List Nat) : Prop where
  regs : ∀ o, o ∉ Reg.BEL_UNROUTED_CNT :: offs → d.reg o = e.reg o
  rest : { d with regs := e.regs, out := e.out, bel := e.bel
                  sdp := { d.sdp with alert := e.sdp.alert, faultWas := e.sdp.faultWas } } = e

/-- An output is a frame of a link, by its bytes or by what it tells, and no codeword. -/
def Out.isFrame : Out → Bool
  | .frame .. => true
  | .twin .. => true
  | .timing .. => true
  | _ => false

/-- Each of these blocks of software memory passes its check as it is read: none is damaged, and in none has a bit error come up that no
read has met (R279). -/
def Dev.ReadsWhole (d : Dev) (blocks : List Nat) : Prop := ∀ b ∈ blocks, d.isDamaged b = false ∧ b ∉ d.weak

/-- A refusal in the block whose header lies at `base` (Table 2.7): `REFUSED` is set, `REASON` holds the code where `REFUSED` was 0
and else stays with `MORE` set, and the count has risen by one, up to its maximum. -/
structure Dev.Refused (e d : Dev) (base reason : Nat) : Prop where
  flag : d.fld (base + 4) Fld.REFUSED_REFUSED = 1
  reason : e.fld (base + 4) Fld.REFUSED_REFUSED = 0 → d.fld (base + 4) Fld.REFUSED_REASON = reason
  more : e.fld (base + 4) Fld.REFUSED_REFUSED = 1 →
    d.fld (base + 4) Fld.REFUSED_REASON = e.fld (base + 4) Fld.REFUSED_REASON ∧ d.fld (base + 4) Fld.REFUSED_MORE = 1
  count : d.reg (base + 8) = min (e.reg (base + 8) + 1) 0xFFFFFFFF

end Sys2Proof.Machine
end

