-- ==== Sys2Proof/Certificates/Slice0/Obligations.lean ====
section
/-! DEFINITION. The statements about the block, for the provers. Each docstring names the rules of the spec that the statement
formalises; where a clause rests on a choice of the model it names the log entry. -/

open Sys2Proof Sys2Proof.Machine

/-! ### The machine as a whole -/

/-- A step carries out the command at the front of the queue, with the queue's rest. -/
def Obligations.StepRunsTheFrontCommand : Prop :=
  ∀ (s : State) (c : Instr) (cs : List Instr), s.pending = c :: cs → step s = exec c { s with pending := cs }

/-- Every step completes: a command answers a next state, with the rest of the queue as it was; no rule of the spec names a behaviour
that stops the device. With no command waiting one nanosecond of the STK time base passes, which is the model's choice (log 2):
time of day goes on, clock pulses may leave, and nothing else changes. -/
def Obligations.EveryStepCompletes : Prop :=
  (∀ (c : Instr) (s : State), ∃ t, exec c s = .next t ∧ t.pending = s.pending) ∧
  (∀ s : State, s.pending = [] → ∃ t, step s = .next t ∧ t.pending = [] ∧ t.dev.now = s.dev.now + 1 ∧
    Dev.OnlyRegs { s.dev with now := s.dev.now + 1, stk := { s.dev.stk with tod := t.dev.stk.tod } } t.dev [])

/-- Soundness of the device is kept by every step: the register file, the memories, the flash and every other table keep their
canonical form, the logs stay within their sizes (R299, R430), and the power and security states stay ones of R438 and R425. -/
def Obligations.StepsKeepTheDeviceSound : Prop :=
  ∀ s t : State, s.dev.Sound → step s = .next t → t.dev.Sound

/-- The device right after reset is sound. -/
def Obligations.ResetDeviceIsSound : Prop := State.reset.dev.Sound

/-- No other command changes the fuses (R426), the instruction of the test access port (R437), the loaded waybill, the flash or the
security state (R425). -/
def Obligations.FixedStateChangesOnlyByItsCommands : Prop :=
  ∀ (c : Instr) (s t : State), reachesFixedState c = false → exec c s = .next t → Dev.KeepsFixed s.dev t.dev

/-- After every command, in EXTEST the balls are taken from the device's own logic, so that only test data leaves it (R437); and the latched
edge of `FAULT_N` is that of the device (R45, R56). -/
def Obligations.ExtestHoldsTheBallsAndFaultIsLatched : Prop :=
  ∀ (c : Instr) (s t : State), exec c s = .next t →
    (t.dev.tap = .extest → ∀ o ∈ t.dev.out, ∃ v, o = .tap v) ∧ t.dev.sdp.faultWas = t.dev.faultLow

/-! ### The host interface -/

/-- The SMBus management view (R54, R55, Table 2.17): each read returns its word, followed by the PEC byte of the message when the
controller clocks one, an undefined code reads 0 and ignores a write, ALERT_CLEAR clears the bits named unless its PEC fails, and
nothing else of the device changes. The polynomial of the PEC is that of the standard that R54 names (log 10). In STATUS, bit 2 is the last
verdict on the trim page (R463) and bit 3 the waybill of before, in Rest too, and bits 8 and 9 show the latched ALERT bits: the
model's choices (log 51). -/
def Obligations.SmbusViewAnswers : Prop :=
  ∀ (s : State) (pec : Bool), s.dev.tap ≠ .extest →
    let two (code v : Nat) : List Out :=
      [.smbus v (if pec then some (pecOf [0xB8, code, 0xB9, v % 256, v / 256 % 256]) else none)]
    let one (code v : Nat) : List Out := [.smbus v (if pec then some (pecOf [0xB8, code, 0xB9, v % 256]) else none)]
    (∃ t, exec (.ident pec) s = .next t ∧ t.dev.out = two 0x01 0x3812 ∧ Dev.OnlyRegs s.dev t.dev []) ∧
    (∃ t, exec (.stepping pec) s = .next t ∧ t.dev.out = one 0x02 (s.dev.reg Reg.GLB_ID / 2 ^ 8 % 2 ^ 8) ∧
      Dev.OnlyRegs s.dev t.dev []) ∧
    (∃ t w, exec (.smbusStatus pec) s = .next t ∧ t.dev.out = two 0x03 w ∧ Dev.OnlyRegs s.dev t.dev [] ∧
      bit w 0 = s.dev.faultLow ∧ bit w 1 = s.dev.flag Reg.DEP_STATUS Fld.DEP_STATUS_BRIDGE_DOWN ∧
      bit w 2 = (s.dev.boot.trimCause != 0) ∧ bit w 3 = s.dev.wb.loaded ∧
      bits w 5 4 = s.dev.sdp.power % 4 ∧ bits w 7 6 = s.dev.sdp.sec % 4 ∧
      bit w 8 = bit s.dev.sdp.alert 0 ∧ bit w 9 = bit s.dev.sdp.alert 1 ∧ w < 2 ^ 10) ∧
    (∃ t v, exec (.tempMax pec) s = .next t ∧ t.dev.out = two 0x04 v ∧ Dev.OnlyRegs s.dev t.dev [] ∧
      (∃ n < 16, v = s.dev.reg (Reg.SDP_TEMP n)) ∧ ∀ n < 16, signed 16 (s.dev.reg (Reg.SDP_TEMP n)) ≤ signed 16 v) ∧
    (∃ t v, exec (.tempHbmMax pec) s = .next t ∧ t.dev.out = two 0x05 v ∧ Dev.OnlyRegs s.dev t.dev [] ∧
      (∃ n < 8, v = s.dev.reg (Reg.SDP_TEMP_HBM n)) ∧ ∀ n < 8, signed 16 (s.dev.reg (Reg.SDP_TEMP_HBM n)) ≤ signed 16 v) ∧
    (∀ n : Fin 16, ∃ t, exec (.tempN n pec) s = .next t ∧ t.dev.out = two (0x10 + n) (s.dev.reg (Reg.SDP_TEMP n)) ∧
      Dev.OnlyRegs s.dev t.dev []) ∧
    (∃ t, exec (.alert pec) s = .next t ∧ t.dev.out = one 0x20 (s.dev.sdp.alert % 8) ∧ Dev.OnlyRegs s.dev t.dev []) ∧
    (∀ (m : Byte) (good : Bool), ∃ t, exec (.alertClear m good) s = .next t ∧ t.dev.out = [] ∧ Dev.OnlyRegs s.dev t.dev [] ∧
      ∀ i < 3, bit t.dev.sdp.alert i =
        ((bit s.dev.sdp.alert i && !(good && bit m.toNat i)) || (i == 2 && s.dev.faultLow && !s.dev.sdp.faultWas))) ∧
    (∀ (c : Byte) (w : Bool) (n : Nat), ∃ t, exec (.smbusUndefined c w n pec) s = .next t ∧
      t.dev.out = (if w then [] else [.smbus 0 (if pec then some (pecOf ([0xB8, c.toNat, 0xB9] ++ List.replicate n 0)) else none)]) ∧
      Dev.OnlyRegs s.dev t.dev []) ∧
    (∃ t, exec (.alertResponse pec) s = .next t ∧
      t.dev.out = (if s.dev.sdp.alert % 8 = 0 then []
        else [.alertResponse 0x5C (if pec then some (pecOf [0x19, 0xB8]) else none)]) ∧ Dev.OnlyRegs s.dev t.dev [])

/-- The aperture base takes values 0 to 112; a write of a larger value leaves it unchanged and is refused with APERTURE_RANGE,
code 1 (R32, Table 2.16). -/
def Obligations.ApertureTakesOnlyBasesInRange : Prop :=
  ∀ (s : State) (v : Word), ∃ t, exec (.glbAperture v) s = .next t ∧ t.dev.out = [] ∧
    (v.toNat % 128 ≤ 112 → t.dev.reg Reg.GLB_APERTURE = v.toNat % 128 ∧ Dev.OnlyRegs s.dev t.dev [Reg.GLB_APERTURE]) ∧
    (112 < v.toNat % 128 → t.dev.reg Reg.GLB_APERTURE = s.dev.reg Reg.GLB_APERTURE ∧
      Dev.Refused s.dev t.dev Reg.GLB_BLKID 1 ∧ Dev.OnlyRegs s.dev t.dev [Reg.GLB_REFUSED, Reg.GLB_REFUSED_CNT])

/-- The key sequence of a software reset (R53): 0x6A6A arms; any other code while armed, a second arming write and the end of the
period disarm with RESET_SEQUENCE, code 2; 0x9595 while not armed is refused with the same reason; 0x9595 while armed starts
the reset, whose flush phase begins where nothing makes it act as a wider one (R455, R456, R458). -/
def Obligations.ResetKeySequence : Prop :=
  ∀ s : State,
    (s.dev.flag Reg.GLB_RESET_KEY Fld.GLB_RESET_KEY_ARMED = false →
      (∃ t, exec .resetKeyArm s = .next t ∧ t.dev.flag Reg.GLB_RESET_KEY Fld.GLB_RESET_KEY_ARMED = true ∧
        Dev.OnlyRegs s.dev t.dev [Reg.GLB_RESET_KEY]) ∧
      (∃ t, exec (.resetKeyConfirm 0x9595) s = .next t ∧ Dev.Refused s.dev t.dev Reg.GLB_BLKID 2 ∧
        Dev.OnlyRegs s.dev t.dev [Reg.GLB_REFUSED, Reg.GLB_REFUSED_CNT]) ∧
      (∃ t, exec .resetKeyTimeout s = .next t ∧ Dev.OnlyRegs s.dev t.dev [])) ∧
    (s.dev.flag Reg.GLB_RESET_KEY Fld.GLB_RESET_KEY_ARMED = true →
      (∀ c : Instr, c = .resetKeyArm ∨ c = .resetKeyTimeout ∨ (∃ k : BitVec 16, k ≠ 0x9595 ∧ c = .resetKeyConfirm k) →
        ∃ t, exec c s = .next t ∧ t.dev.flag Reg.GLB_RESET_KEY Fld.GLB_RESET_KEY_ARMED = false ∧
          Dev.Refused s.dev t.dev Reg.GLB_BLKID 2 ∧
          Dev.OnlyRegs s.dev t.dev [Reg.GLB_RESET_KEY, Reg.GLB_REFUSED, Reg.GLB_REFUSED_CNT]) ∧
      (s.dev.resetKind .software = .software →
        ∃ t, exec (.resetKeyConfirm 0x9595) s = .next t ∧ t.dev.flag Reg.GLB_RESET_KEY Fld.GLB_RESET_KEY_ARMED = false ∧
          t.dev.boot.flush = true ∧ t.dev.boot.inReset = some .software))

/-- What decides an access to a register (Table 2.6, R39, R49, R75, R446): GLB and SDP always answer; while no waybill is loaded every block
but those released by the boot sequence falls back, and while it loads again after Rest every block that may be absent does (R79; its writes
DEDUCED, log 31); in Rest no register of a present region but GLB and SDP answers; an offset without a register is unmapped. -/
def Obligations.AccessesAreDecidedByTable26 : Prop :=
  ∀ (d : Dev) (off : Nat),
    (∀ b, blkOf off = some b → (b = .glb ∨ b = .sdp) → off % 4 = 0 → (rowOf off).isSome = true → d.access off = .normal off) ∧
    (∀ b, blkOf off = some b → b ≠ .glb → b ≠ .sdp → b ≠ .cal → b ≠ .ckg → b ≠ .mem → b ≠ .wbl →
      (d.wb.loaded = false ∨ d.boot.flush = true) → d.access off = .fallback) ∧
    (∀ b, blkOf off = some b → (b ∈ [Blk.blt, .tly, .prt, .stl, .twn, .trk, .dbg] ∨ (∃ p, b = .port p) ∨ ∃ c, b = .line c) →
      d.boot.load ≠ none → d.access off = .fallback) ∧
    (∀ b, blkOf off = some b → b ≠ .glb → b ≠ .sdp → d.sdp.power = 3 → d.present b = true →
      d.access off = if off % 4 = 0 ∧ (rowOf (d.keyOf off)).isSome = true then .far else .unmapped) ∧
    (blkOf off = none → d.access off = .unmapped) ∧
    (∀ k, d.access off = .normal k → off % 4 = 0 ∧ (rowOf k).isSome = true ∧
      (∀ p, blkOf off = some (.port p) → k = off + d.role p * 0x10000000) ∧
      ((∀ p, blkOf off ≠ some (.port p)) → k = off))

/-- A write that Table 2.6 turns away: row 2 ignores it and records nothing (R49); row 3 drops it, logs it in `GLB_ERR_UNMAPPED` and
raises 0x46D8; row 4 drops it, logs it in `GLB_ERR_FAR` and raises 0x46D9 (R39). The first access since `FLAG` was 0 gives the
address; a further one sets `MORE`. -/
def Obligations.WritesTurnedAwayAreLogged : Prop :=
  ∀ (s : State) (off : Nat) (v : Word),
    (s.dev.access off = .fallback → ∃ t, exec (.registerWrite off v) s = .next t ∧ t.dev.out = [] ∧ Dev.OnlyRegs s.dev t.dev []) ∧
    (∀ flagReg addrReg cntReg src, (s.dev.access off = .unmapped ∧ flagReg = Reg.GLB_ERR_UNMAPPED ∧
        addrReg = Reg.GLB_ERR_UNMAPPED_ADDR ∧ cntReg = Reg.GLB_ERR_UNMAPPED_CNT ∧ src = 0x46D8) ∨
      (s.dev.access off = .far ∧ flagReg = Reg.GLB_ERR_FAR ∧ addrReg = Reg.GLB_ERR_FAR_ADDR ∧ cntReg = Reg.GLB_ERR_FAR_CNT ∧
        src = 0x46D9) →
      ∃ t, exec (.registerWrite off v) s = .next t ∧ t.dev.out = [] ∧
        t.dev.reg cntReg = min (s.dev.reg cntReg + 1) 0xFFFFFFFF ∧ bit (t.dev.reg flagReg) 0 = true ∧
        (bit (s.dev.reg flagReg) 0 = false → t.dev.reg addrReg = off / 4 * 4 % 2 ^ 26 ∧ bit (t.dev.reg flagReg) 1 = false ∧
          bit (t.dev.reg flagReg) 2 = (flagReg == Reg.GLB_ERR_FAR)) ∧
        (bit (s.dev.reg flagReg) 0 = true → t.dev.reg addrReg = s.dev.reg addrReg ∧ bit (t.dev.reg flagReg) 1 = true) ∧
        t.dev.bel = (s.dev.raise src).bel ∧ Dev.OnlyBell s.dev t.dev [flagReg, addrReg, cntReg])

/-- A write to a register of RNG, of PRT or of WBL other than `WBL_CTRL` and `xxx_REFUSED` gives each field what its access code says
(R5): RW and SHD fields take the written bits, W1C fields lose the ones written, the others keep theirs; no other register changes, but
a shadow that was uncorrectable is sound again (R295). On a device of no running pair nothing is mirrored (R312). -/
def Obligations.WritesFollowTheAccessCodes : Prop :=
  ∀ (s : State) (off : Nat) (v : Word) (r : RegRow), s.dev.access off = .normal off → rowOf off = some r →
    (blkOf off = some .rng ∨ blkOf off = some .prt ∨ blkOf off = some .wbl ∧ off ≠ Reg.WBL_CTRL) → off % 0x10000 ≠ 4 →
    s.dev.secondaryPaired = false → s.dev.primaryPaired = false →
    ∃ t, exec (.registerWrite off v) s = .next t ∧ t.dev.out = [] ∧
      (∀ w ∈ t.dev.prt.badShadow, w ∈ s.dev.prt.badShadow) ∧
      Dev.OnlyRegs { s.dev with prt := { s.dev.prt with badShadow := t.dev.prt.badShadow } } t.dev [off] ∧
      ∀ f ∈ r.fields, bits (t.dev.reg off) f.hi f.lo = match f.acc with
        | .rw | .shd => bits v.toNat f.hi f.lo
        | .w1c => bits (s.dev.reg off) f.hi f.lo - (bits (s.dev.reg off) f.hi f.lo &&& bits v.toNat f.hi f.lo)
        | .w1s => bits (s.dev.reg off) f.hi f.lo ||| bits v.toNat f.hi f.lo
        | .ro | .once | .trg => bits (s.dev.reg off) f.hi f.lo

/-- Accesses that the fabric ends after 4 µs (R39): a read completes with data 0, a write is dropped, and `GLB_ERR_FAR_CNT` counts; an
absent block falls back and an offset without a register is a bus error. A read of `GLB_FLUSH` completes with 0 and changes
nothing, every earlier write having taken effect (R40). The bridge (R14 to R16), while it is up: a transfer that arrives ends its own run
of failures; a replay counts and lengthens the transfer's run; with 15 failures of one transfer before it the next takes the bridge
down, and `FAULT_N` is driven low. The runs of other transfers stay. Nothing crosses a bridge that is down. -/
def Obligations.FarAccessesFlushReadsAndTheBridge : Prop :=
  (∀ s : State, s.dev.tap ≠ .extest →
    (∀ (off : Nat) (w : Bool), (∃ k, s.dev.access off = .normal k) ∨ s.dev.access off = .far →
      ∃ t, exec (.farAccessTimeout off w) s = .next t ∧ t.dev.out = (if w then [] else [.completion 0]) ∧
        t.dev.reg Reg.GLB_ERR_FAR_CNT = min (s.dev.reg Reg.GLB_ERR_FAR_CNT + 1) 0xFFFFFFFF ∧
        bit (t.dev.reg Reg.GLB_ERR_FAR) 0 = true ∧ t.dev.bel = (s.dev.raise 0x46D9).bel ∧
        Dev.OnlyBell s.dev t.dev [Reg.GLB_ERR_FAR, Reg.GLB_ERR_FAR_ADDR, Reg.GLB_ERR_FAR_CNT]) ∧
    (∀ (off : Nat) (w : Bool), s.dev.access off = .fallback →
      ∃ t, exec (.farAccessTimeout off w) s = .next t ∧ t.dev.out = (if w then [] else [.completion 0]) ∧ Dev.OnlyRegs s.dev t.dev []) ∧
    (∀ off : Nat, s.dev.access off = .unmapped →
      ∃ t, exec (.farAccessTimeout off false) s = .next t ∧ t.dev.out = [.unsupported] ∧ Dev.OnlyRegs s.dev t.dev []) ∧
    (∃ t, exec .glbFlush s = .next t ∧ t.dev.out = [.completion 0] ∧ Dev.OnlyRegs s.dev t.dev [])) ∧
  (∀ s : State,
    let down := s.dev.flag Reg.DEP_STATUS Fld.DEP_STATUS_BRIDGE_DOWN
    ∀ x : Nat,
      (down = true → ∀ c ∈ [Instr.bridgeTransfer x, .bridgeReplay x, .bridgeDown x],
        ∃ t, exec c s = .next t ∧ Dev.OnlyRegs s.dev t.dev []) ∧
      (down = false →
        (∃ t, exec (.bridgeTransfer x) s = .next t ∧ t.dev.transferFails x = 0 ∧
          (∀ y, y ≠ x → t.dev.transferFails y = s.dev.transferFails y) ∧
          Dev.OnlyRegs { s.dev with bridgeFails := t.dev.bridgeFails } t.dev []) ∧
        (s.dev.transferFails x < 15 → ∃ t, exec (.bridgeReplay x) s = .next t ∧ t.dev.transferFails x = s.dev.transferFails x + 1 ∧
          (∀ y, y ≠ x → t.dev.transferFails y = s.dev.transferFails y) ∧
          t.dev.reg Reg.DEP_BRIDGE_REPLAY = min (s.dev.reg Reg.DEP_BRIDGE_REPLAY + 1) 0xFFFFFFFF ∧
          Dev.OnlyRegs { s.dev with bridgeFails := t.dev.bridgeFails } t.dev [Reg.DEP_BRIDGE_REPLAY]) ∧
        (15 ≤ s.dev.transferFails x → ∀ c ∈ [Instr.bridgeReplay x, .bridgeDown x], ∃ t, exec c s = .next t ∧
          t.dev.flag Reg.DEP_STATUS Fld.DEP_STATUS_BRIDGE_DOWN = true ∧ t.dev.faultLow = true) ∧
        (s.dev.transferFails x < 15 → ∃ t, exec (.bridgeDown x) s = .next t ∧ Dev.OnlyRegs s.dev t.dev [])))

/-- A BAR2 access reaches device address `BASE` × 2^30 + offset. A read of whole blocks returns their bytes; a write changes exactly the
bytes it names, and a block written whole is no longer damaged; nothing else changes (R32, R34). A damaged block of which it writes a part
stays damaged, and its failure counts (R25, R280); so does that of a block with a bit error that no read has met (log 50). The controllers
of the blocks reached have left power-down (R298), in the same command by the model's choice (log 56). Above software memory a read
completes with Unsupported Request (R23); so does one that straddles its end, which is the model's choice (log 36). -/
def Obligations.Bar2ReachesTheNamedBytes : Prop :=
  ∀ (s : State) (off : Nat), s.dev.tap ≠ .extest → s.dev.boot.mem = true → s.dev.boot.flush = false → s.dev.sdp.power ≠ 3 →
    let a := s.dev.reg Reg.GLB_APERTURE * 2 ^ 30 + off
    (∀ n, s.dev.bar2Forbidden a n = false → a + n ≤ memEnd → (∀ b ∈ s.dev.damaged, b * 256 + 256 ≤ a ∨ a + n ≤ b * 256) →
      ∃ t bs, exec (.bar2Read off n []) s = .next t ∧ t.dev.out = [.bytes false bs] ∧ bs.length = n ∧
        (∀ i < n, bs[i]? = some (s.dev.memByte (a + i))) ∧
        (∀ b ∈ blocksOf a n, bit (t.dev.reg Reg.MEM_STATUS) (s.dev.stackOf (b * 256)) = false) ∧
        Dev.OnlyRegs s.dev t.dev [Reg.MEM_STATUS]) ∧
    (∀ n, s.dev.bar2Forbidden a n = false → memEnd < a + n →
      ∃ t, exec (.bar2Read off n []) s = .next t ∧ t.dev.out = [.unsupported] ∧ Dev.OnlyRegs s.dev t.dev []) ∧
    (∀ bs : List Byte, a + bs.length ≤ memEnd → ∀ b ∈ partBlocks a bs.length, s.dev.isDamaged b = true ∨ b ∈ s.dev.weak →
      ∃ t, exec (.bar2Write off bs []) s = .next t ∧ (s.dev.isDamaged b = true → t.dev.isDamaged b = true) ∧ b ∉ t.dev.weak ∧
        (s.dev.reg Reg.DEP_BLOCK_FAIL_CNT < t.dev.reg Reg.DEP_BLOCK_FAIL_CNT ∨ t.dev.reg Reg.DEP_BLOCK_FAIL_CNT = 0xFFFFFFFF)) ∧
    (∀ bs : List Byte, a + bs.length ≤ memEnd → (∀ b ∈ partBlocks a bs.length, s.dev.isDamaged b = false ∧ b ∉ s.dev.weak) →
      ∃ t, exec (.bar2Write off bs []) s = .next t ∧ t.dev.out = [] ∧
        (∀ x, t.dev.memByte x = if a ≤ x ∧ x < a + bs.length then bs.getD (x - a) 0 else s.dev.memByte x) ∧
        (∀ b, t.dev.isDamaged b = (s.dev.isDamaged b && !(a ≤ b * 256 && b * 256 + 256 ≤ a + bs.length))) ∧
        t.dev.weak = s.dev.weak.filter (fun b => !(blocksOf a bs.length).contains b) ∧
        (∀ b ∈ blocksOf a bs.length, bit (t.dev.reg Reg.MEM_STATUS) (s.dev.stackOf (b * 256)) = false) ∧
        Dev.OnlyRegs { s.dev with mem := t.dev.mem, damaged := t.dev.damaged, weak := t.dev.weak } t.dev [Reg.MEM_STATUS])

/-- In Sealed a BAR2 read of content tells nothing: it returns zeros and changes nothing, whatever the memory holds (R48, R429,
Table 19.3): two devices that differ in their memory alone answer alike. -/
def Obligations.SealedContentIsNotTold : Prop :=
  ∀ (s : State) (off n : Nat) (bad : List Nat), s.dev.tap ≠ .extest → s.dev.sdp.sec = 1 →
    let a := s.dev.reg Reg.GLB_APERTURE * 2 ^ 30 + off
    a < memEnd → (s.dev.wblState ≠ 2 ∨ 0 < n ∧ ∃ p ∈ s.dev.wb.parts, p.kind ≠ 0 ∧ 0 < p.size ∧
      a < (p.base + p.size) * partUnit ∧ p.base * partUnit < a + n) →
    ∀ m : Tab Byte, ∃ t, exec (.bar2Read off n bad) { s with dev := { s.dev with mem := m } } = .next t ∧
      t.dev.out = [.bytes false (List.replicate n 0)] ∧ Dev.OnlyRegs { s.dev with mem := m } t.dev []

/-! ### The test access port, the debug window, fuses and keys -/

/-- The instructions of the test access port (R437): each but DBGACC changes the instruction alone; IDCODE returns the fused identity,
SAMPLE the balls; a new instruction or `TRST_N` ends EXTEST. DBGACC reaches the DBG region alone: a write is the BAR0 write of
that register, a read returns its value, and an absent block reads as 0 (log 33). -/
def Obligations.TestAccessPortInstructions : Prop :=
  ∀ s : State,
    (∃ t, exec .bypass s = .next t ∧ t.dev.tap = .bypass ∧ t.dev.out = [] ∧ Dev.OnlyRegs { s.dev with tap := .bypass } t.dev []) ∧
    (∃ t, exec .idcode s = .next t ∧ t.dev.tap = .idcode ∧ t.dev.out = [.tap s.dev.fuses.idcode] ∧
      Dev.OnlyRegs { s.dev with tap := .idcode } t.dev []) ∧
    (∀ balls, ∃ t, exec (.samplePreload balls) s = .next t ∧ t.dev.tap = .samplePreload ∧ t.dev.out = [.tap balls] ∧
      Dev.OnlyRegs { s.dev with tap := .samplePreload } t.dev []) ∧
    (∃ t, exec .extest s = .next t ∧ t.dev.tap = .extest ∧ t.dev.out = [] ∧ Dev.OnlyRegs { s.dev with tap := .extest } t.dev []) ∧
    (∃ t, exec .trstNAsserted s = .next t ∧ t.dev.tap ≠ .extest ∧ t.dev.out = [] ∧
      Dev.OnlyRegs { s.dev with tap := t.dev.tap } t.dev []) ∧
    (∀ (disp : Nat) (v : Word), exec (.dbgacc disp (some v)) s =
      exec (.registerWrite (0x110000 + disp % 0x10000) v) { s with dev := { s.dev with tap := .dbgacc } }) ∧
    (∀ disp r, disp % 0x10000 ≠ 0x14 → s.dev.access (0x110000 + disp % 0x10000) = .normal (0x110000 + disp % 0x10000) →
      rowOf (0x110000 + disp % 0x10000) = some r → (r.cnt = false ∨ s.dev.dbg.snap = none) →
      ∃ t, exec (.dbgacc disp none) s = .next t ∧ t.dev.out = [.tap (s.dev.reg (0x110000 + disp % 0x10000))] ∧
        Dev.OnlyRegs { s.dev with tap := .dbgacc } t.dev []) ∧
    (∀ disp, s.dev.boot.flush = false → s.dev.access (0x110000 + disp % 0x10000) = .fallback →
      ∃ t, exec (.dbgacc disp none) s = .next t ∧ t.dev.out = [.tap 0] ∧ Dev.OnlyRegs { s.dev with tap := .dbgacc } t.dev [])

/-- The debug mode (R433, Table 19.3): a write sets Off, Observe or Intrude; 3 is refused with MODE_RANGE, code 2; Intrude in Sealed leaves
the mode; Off ends a snapshot, leaving Intrude clears every halt, and Intrude ends Lull (R434, R435, R442). That leaving Intrude ends a
debug read under way is the model's choice (log 33). Compositions that wait may take the entries of a porter that runs again (R290). -/
def Obligations.DebugModeFollowsItsWrites : Prop :=
  ∀ (s : State) (v : Word), s.dev.access Reg.DBG_MODE = .normal Reg.DBG_MODE →
    (v.toNat % 4 = 3 → ∃ t, exec (.dbgMode v) s = .next t ∧ Dev.Refused s.dev t.dev Reg.DBG_BLKID 2 ∧
      Dev.OnlyRegs s.dev t.dev [Reg.DBG_REFUSED, Reg.DBG_REFUSED_CNT]) ∧
    (v.toNat % 4 = 2 → s.dev.sdp.sec = 1 → ∃ t, exec (.dbgMode v) s = .next t ∧ Dev.OnlyRegs s.dev t.dev []) ∧
    (v.toNat % 4 ≠ 3 → (v.toNat % 4 = 2 → s.dev.sdp.sec ≠ 1) →
      ∃ t, exec (.dbgMode v) s = .next t ∧ t.dev.reg Reg.DBG_MODE = v.toNat % 4 ∧
        t.dev.dbg.snap = (if v.toNat % 4 = 0 then none else s.dev.dbg.snap) ∧
        (s.dev.reg Reg.DBG_MODE = 2 → v.toNat % 4 ≠ 2 → t.dev.dbg.read = none ∧ ∀ k < 8, t.dev.reg (Reg.DBG_HALT k) = 0) ∧
        (v.toNat % 4 = 2 → t.dev.sdp.power ≠ 1) ∧
        (v.toNat % 4 ≠ 2 → s.dev.reg Reg.DBG_MODE ≠ 2 →
          Dev.OnlyRegs { s.dev with dbg := t.dev.dbg, prt := { s.dev.prt with jobs := t.dev.prt.jobs } } t.dev [Reg.DBG_MODE]))

/-- Snapshots, halts and reads of the debug window (R434 to R436): a trigger in a mode that does not allow it is refused with MODE,
code 1. TAKE captures every register at one instant and RELEASE lets it go; a halt word takes its bits; a read of software
memory waits at its address, or is refused with READ_RANGE, code 3; it then passes on the bytes as read, and a failed check counts at DEP
and takes a log entry (R299). Staging reads as it stands but in Rest; the other SRAM reads as zeros in Doze and Rest. -/
def Obligations.DebugWindowTakesItsTriggers : Prop :=
  ∀ s : State, (∀ r ∈ [Reg.DBG_SNAP, Reg.DBG_READ, Reg.DBG_HALT 0, Reg.DBG_HALT 1, Reg.DBG_HALT 2, Reg.DBG_HALT 3, Reg.DBG_HALT 4,
      Reg.DBG_HALT 5, Reg.DBG_HALT 6, Reg.DBG_HALT 7], s.dev.access r = .normal r) →
    let refused (t : State) (reason : Nat) : Prop := Dev.Refused s.dev t.dev Reg.DBG_BLKID reason ∧
      Dev.OnlyRegs s.dev t.dev [Reg.DBG_REFUSED, Reg.DBG_REFUSED_CNT]
    let a := s.dev.pair Reg.DBG_ADDR_LO Reg.DBG_ADDR_HI
    (s.dev.reg Reg.DBG_MODE = 0 → ∀ c, c = .take ∨ c = .snapRelease → ∃ t, exec c s = .next t ∧ refused t 1) ∧
    (s.dev.reg Reg.DBG_MODE ≠ 0 →
      (∃ t, exec .take s = .next t ∧ t.dev.dbg.snap = some s.dev.regs ∧ Dev.OnlyRegs { s.dev with dbg := t.dev.dbg } t.dev []) ∧
      (∃ t, exec .snapRelease s = .next t ∧ t.dev.dbg.snap = none ∧ Dev.OnlyRegs { s.dev with dbg := t.dev.dbg } t.dev [])) ∧
    (s.dev.reg Reg.DBG_MODE ≠ 2 → (∀ k v, ∃ t, exec (.dbgHalt k v) s = .next t ∧ refused t 1) ∧
      ∃ t, exec .dbgRead s = .next t ∧ refused t 1) ∧
    (s.dev.reg Reg.DBG_MODE = 2 →
      (∀ (k : Fin 8) (v : Word), ∃ t, exec (.dbgHalt k v) s = .next t ∧ t.dev.reg (Reg.DBG_HALT k) = v.toNat ∧
        Dev.OnlyRegs { s.dev with prt := { s.dev.prt with jobs := t.dev.prt.jobs } } t.dev [Reg.DBG_HALT k]) ∧
      (s.dev.fld Reg.DBG_SPACE Fld.DBG_SPACE_SPACE = 0 →
        (a % 32 = 0 → a + 32 ≤ memEnd → ∃ t u, exec .dbgRead s = .next t ∧ t.dev.dbg.read = some (0, u, a) ∧
          Dev.OnlyRegs { s.dev with dbg := t.dev.dbg } t.dev []) ∧
        (a % 32 ≠ 0 ∨ memEnd < a + 32 → ∃ t, exec .dbgRead s = .next t ∧ refused t 3))) ∧
    (∀ (bad : Bool) (u x : Nat), s.dev.dbg.read = some (0, u, x) → ∃ t, exec (.dbgReadDone bad) s = .next t ∧
      t.dev.dbg.read = none ∧ (∀ k < 8, t.dev.reg (Reg.DBG_DATA k) = s.dev.memNat (x + 4 * k) 4) ∧
      t.dev.flag Reg.DBG_STATUS Fld.DBG_STATUS_DAMAGED = (bad || s.dev.rangeDamaged x 32) ∧
      (x % 32 = 0 → (bad || s.dev.rangeDamaged x 32) = true →
        s.dev.reg Reg.DEP_BLOCK_FAIL_CNT < t.dev.reg Reg.DEP_BLOCK_FAIL_CNT ∨ t.dev.reg Reg.DEP_BLOCK_FAIL_CNT = 0xFFFFFFFF) ∧
      (x % 32 = 0 → (bad || s.dev.rangeDamaged x 32) = false →
        Dev.OnlyRegs { s.dev with dbg := t.dev.dbg } t.dev
          (Reg.MEM_STATUS :: Reg.DBG_STATUS :: (List.range 8).map Reg.DBG_DATA))) ∧
    (∀ (bad : Bool) (u x : Nat), s.dev.dbg.read = some (3, u, x) → s.dev.hasPrt = true → s.dev.sdp.power ≠ 3 →
      ∃ t, exec (.dbgReadDone bad) s = .next t ∧
        (∀ k < 8, t.dev.reg (Reg.DBG_DATA k) = leNat (s.dev.staging.range memDefault (x + 4 * k) 4)) ∧
        Dev.OnlyRegs { s.dev with dbg := t.dev.dbg } t.dev (Reg.DBG_STATUS :: (List.range 8).map Reg.DBG_DATA)) ∧
    (∀ (sp u x : Nat), s.dev.dbg.read = some (sp, u, x) → sp ≠ 0 → s.dev.sdp.power = 3 ∨ s.dev.sdp.power = 2 ∧ sp ≠ 3 →
      ∃ t, exec (.dbgReadDone false) s = .next t ∧ ∀ k < 8, t.dev.reg (Reg.DBG_DATA k) = 0)

/-- The fuse sequences (R427, R429, Table 19.1). Outside Service the first row that holds refuses a code and disarms: FUSE_STATE 6 (not Open,
or programming in progress), FUSE_SEQUENCE 7 (a second arming, a code while not armed, or the end of the period), FUSE_DONE 14,
SEAL_KEY 8; else 0x53A1 arms and a confirm code starts programming. In Service the write is forbidden and changes no fuse state. When
programming ends the named fuse alone reads programmed, `FUSE_DONE` latches and source 0x46D2 rises; the device stays Open, with
`SEAL_PENDING` 1 where its SEALED fuse is programmed. -/
def Obligations.FuseSequencesProgramTheNamedFuse : Prop :=
  ∀ s : State,
    let armed := s.dev.flag Reg.SDP_FUSE_PROG Fld.SDP_FUSE_PROG_ARMED
    let closed := s.dev.sdp.sec ≠ 0 ∨ s.dev.sdp.fuseJob ≠ .none
    let refused (c : Instr) (reason : Nat) : Prop := ∃ t, exec c s = .next t ∧ t.dev.reg Reg.SDP_FUSE_PROG = 0 ∧
      Dev.Refused s.dev t.dev Reg.SDP_BLKID reason ∧
      Dev.OnlyRegs s.dev t.dev [Reg.SDP_FUSE_PROG, Reg.SDP_REFUSED, Reg.SDP_REFUSED_CNT]
    let starts (c : Instr) (j : FuseJob) : Prop := ∃ t, exec c s = .next t ∧ t.dev.reg Reg.SDP_FUSE_PROG = 0 ∧
      t.dev.sdp.fuseJob = j ∧ Dev.OnlyRegs { s.dev with sdp := { s.dev.sdp with fuseJob := j } } t.dev [Reg.SDP_FUSE_PROG]
    (s.dev.sdp.sec ≠ 2 → closed → ∀ c ∈ [Instr.fuseArm, .programSealed, .programKeyHash], refused c 6) ∧
    (¬closed → armed = false → (∃ t, exec .fuseArm s = .next t ∧ t.dev.flag Reg.SDP_FUSE_PROG Fld.SDP_FUSE_PROG_ARMED = true ∧
      Dev.OnlyRegs s.dev t.dev [Reg.SDP_FUSE_PROG]) ∧ refused .programSealed 7 ∧ refused .programKeyHash 7) ∧
    (¬closed → armed = true → refused .fuseArm 7 ∧ refused .fuseDisarm 7 ∧
      (s.dev.fuses.sealed = true → refused .programSealed 14) ∧
      (s.dev.fuses.sealed = false → s.dev.fuses.hashFused = false → refused .programSealed 8) ∧
      (s.dev.fuses.sealed = false → s.dev.fuses.hashFused = true → starts .programSealed .sealed) ∧
      (s.dev.fuses.hashFused = true → refused .programKeyHash 14) ∧
      (s.dev.fuses.hashFused = false → starts .programKeyHash
        (.keyHash (wordBytes ((List.range 12).map fun k => s.dev.reg (Reg.SDP_KEYHASH k)))))) ∧
    (armed = false → ∃ t, exec .fuseDisarm s = .next t ∧ Dev.OnlyRegs s.dev t.dev []) ∧
    (s.dev.sdp.sec = 2 → ∀ c ∈ [Instr.fuseArm, .programSealed, .programKeyHash], ∃ t, exec c s = .next t ∧
      t.dev.reg Reg.SDP_AUDIT_CNT = min (s.dev.reg Reg.SDP_AUDIT_CNT + 1) 0xFFFFFFFF ∧
      Dev.OnlyRegs { s.dev with sdp := { s.dev.sdp with audit := t.dev.sdp.audit, auditSeq := t.dev.sdp.auditSeq } } t.dev
        [Reg.SDP_AUDIT_CNT, Reg.MEM_STATUS]) ∧
    (∀ f : Fuses → Fuses,
      (s.dev.sdp.fuseJob = .sealed ∧ f = (fun x => { x with sealed := true }) ∨
        ∃ h, s.dev.sdp.fuseJob = .keyHash h ∧ f = fun x => { x with keyHash := h, hashFused := true }) →
      ∃ t, exec .fuseDone s = .next t ∧ t.dev.fuses = f s.dev.fuses ∧ t.dev.sdp.sec = s.dev.sdp.sec ∧ t.dev.sdp.fuseJob = .none ∧
        t.dev.sdp.sealPending = (s.dev.sdp.sealPending || s.dev.sdp.fuseJob == .sealed) ∧
        t.dev.flag Reg.SDP_EVENT Fld.SDP_EVENT_FUSE_DONE = true ∧ t.dev.bel = (s.dev.raise 0x46D2).bel ∧
        Dev.OnlyBell { s.dev with fuses := t.dev.fuses, sdp := { s.dev.sdp with fuseJob := .none, sealPending := t.dev.sdp.sealPending } }
          t.dev [Reg.SDP_EVENT])

/-- Stage key and challenge (R428, R430, R431): outside Service the first write of a key word since cold reset sticks and a later one
changes nothing; in Service a write is forbidden, counted and logged. CHALLENGE draws a nonce and sets `NONCE_VALID`. -/
def Obligations.StageKeyWordsAreWrittenOnce : Prop :=
  ∀ s : State,
    (∀ (k : Fin 8) (v : Word), s.dev.sdp.sec ≠ 2 → bit s.dev.sdp.keyWritten k = false →
      ∃ t, exec (.stageKey k v) s = .next t ∧ bit t.dev.sdp.keyWritten k = true ∧
        (k < s.dev.sdp.stageKey.length → t.dev.sdp.stageKey[k.val]? = some v) ∧
        (∀ j : Nat, j ≠ k → bit t.dev.sdp.keyWritten j = bit s.dev.sdp.keyWritten j ∧
          t.dev.sdp.stageKey[j]? = s.dev.sdp.stageKey[j]?) ∧
        Dev.OnlyRegs { s.dev with sdp := { s.dev.sdp with
          keyWritten := t.dev.sdp.keyWritten, stageKey := t.dev.sdp.stageKey } } t.dev []) ∧
    (∀ (k : Fin 8) (v : Word), s.dev.sdp.sec ≠ 2 → bit s.dev.sdp.keyWritten k = true →
      ∃ t, exec (.stageKey k v) s = .next t ∧ Dev.OnlyRegs s.dev t.dev []) ∧
    (∀ (k : Fin 8) (v : Word), s.dev.sdp.sec = 2 → ∃ t, exec (.stageKey k v) s = .next t ∧
      t.dev.reg Reg.SDP_AUDIT_CNT = min (s.dev.reg Reg.SDP_AUDIT_CNT + 1) 0xFFFFFFFF ∧ t.dev.sdp.auditSeq = s.dev.sdp.auditSeq + 1 ∧
      t.dev.sdp.audit.head? = some [8 + 16, Reg.SDP_STAGE_KEY k, 0, s.dev.stk.stroke % 2 ^ 32] ∧
      Dev.OnlyRegs { s.dev with sdp := { s.dev.sdp with audit := t.dev.sdp.audit, auditSeq := t.dev.sdp.auditSeq } } t.dev
        [Reg.SDP_AUDIT_CNT, Reg.MEM_STATUS]) ∧
    (∃ t, exec .challenge s = .next t ∧ t.dev.sdp.nonceValid = true ∧
      Dev.OnlyRegs { s.dev with free := t.dev.free, sdp := { s.dev.sdp with nonceValid := true } } t.dev
        ((List.range 8).map Reg.SDP_NONCE))

/-- The service unlock (R432, Table 19.1): the first failing row refuses it and every check consumes the nonce; a bad token counts as a
failure, latches `UNLOCK_FAIL` and raises 0x46D1. The token is read where the rows above it pass; where its blocks pass their check it is
as memory has it (R279). An accepted one clears; at the end of the clear the memory and the stage key are
zero, and the device resets warm and boots in Service. -/
def Obligations.UnlockIsCheckedRowByRow : Prop :=
  ∀ s : State,
    (∀ reason, reason = (if s.dev.sdp.sec = 2 then 9 else if 2 ≤ s.dev.sdp.power then 13 else if 3 ≤ s.dev.sdp.unlockFails then 10
        else if s.dev.sdp.nonceValid = false then 11 else if s.dev.tokenGood = false then 12 else 0) →
      (reason = 0 ∨ reason = 12 → s.dev.ReadsWhole (blocksOf (s.dev.pair Reg.SDP_UNLOCK_ADDR_LO Reg.SDP_UNLOCK_ADDR_HI) 256)) →
      (reason ≠ 0 → ∃ t, exec .unlock s = .next t ∧ Dev.Refused s.dev t.dev Reg.SDP_BLKID reason ∧ t.dev.sdp.nonceValid = false ∧
        t.dev.sdp.unlocking = s.dev.sdp.unlocking ∧ t.dev.sdp.sec = s.dev.sdp.sec ∧
        (reason = 12 → t.dev.sdp.unlockFails = min 3 (s.dev.sdp.unlockFails + 1) ∧
          t.dev.flag Reg.SDP_EVENT Fld.SDP_EVENT_UNLOCK_FAIL = true ∧ t.dev.bel = (s.dev.raise 0x46D1).bel) ∧
        (reason ≠ 12 → Dev.OnlyRegs { s.dev with sdp := { s.dev.sdp with nonceValid := false } } t.dev
          [Reg.SDP_REFUSED, Reg.SDP_REFUSED_CNT])) ∧
      (reason = 0 → ∃ t, exec .unlock s = .next t ∧ t.dev.sdp.unlocking = true ∧ t.dev.sdp.nonceValid = false ∧
        t.dev.sdp.sec = s.dev.sdp.sec)) ∧
    (s.dev.sdp.unlocking = true → ∃ t, exec .unlockClearDone s = .next t ∧ t.dev.sdp.sec = 2 ∧ t.dev.wb.loaded = false ∧
      (∀ a, t.dev.memByte a = 0) ∧ t.dev.sdp.stageKey = List.replicate 8 0 ∧ t.dev.sdp.keyWritten = 0 ∧
      t.dev.boot.inReset = some .warm ∧ t.dev.fuses = s.dev.fuses) ∧
    (s.dev.sdp.unlocking = false → ∃ t, exec .unlockClearDone s = .next t ∧ Dev.OnlyRegs s.dev t.dev [])

/-! ### Power -/

/-- Power states (R439, R442 to R448, Table 19.7). A request while a transition is under way is refused with POWER_BUSY, code 2, and one for
the present state has no effect; Run and Lull take Doze and Rest but for TWIN_ACTIVE 4, STEWARD 5 and WAYBILL_HOST 3; Doze takes Run
and Rest; Rest takes Run, and refuses Doze with POWER_REQ 1; GO_DOZE and GO_REST end Lull. That WAYBILL_HOST is tested before STEWARD and
that GO_RUN in Lull is refused with POWER_REQ are the model's choices (log 27). An accepted request takes the device into Doze or Rest,
its counter counts, `POWER` latches and the always-on timer starts where its value is not 0; a wake takes it out of Doze, and out of
Rest begins the boot of Table 19.9. Rest keeps memory (where no roster of a steward ends trunk sets), security state and stroke
counter, and sets the debug mode to Off. In the flush phase of a reset none of this happens (R457). -/
def Obligations.PowerRequestsAreJudgedAndCarriedOut : Prop :=
  ∀ s : State,
    let idle := s.dev.sdp.request = .none ∧ s.dev.sdp.waking = false
    let steward := s.dev.originator = true ∧ s.dev.trk.roster ≠ []
    let host := ∃ a, s.dev.boot.lastSource = some (.host a)
    let unmoved (c : Instr) : Prop := ∃ t, exec c s = .next t ∧ Dev.OnlyRegs s.dev t.dev []
    let refused (c : Instr) (reason : Nat) : Prop := ∃ t, exec c s = .next t ∧ Dev.Refused s.dev t.dev Reg.SDP_BLKID reason ∧
      Dev.OnlyRegs s.dev t.dev [Reg.SDP_REFUSED, Reg.SDP_REFUSED_CNT]
    let takes (c : Instr) (r : PowerReq) : Prop := ∃ t, exec c s = .next t ∧
      Dev.OnlyRegs { s.dev with sdp := { s.dev.sdp with request := r } } t.dev []
    let wakes (c : Instr) : Prop := ∃ t, exec c s = .next t ∧
      Dev.OnlyRegs { s.dev with sdp := { s.dev.sdp with waking := true } } t.dev []
    (¬idle → s.dev.sdp.power ≠ 1 → ∀ c ∈ [Instr.goRun, .goDoze, .goRest], refused c 2) ∧
    (idle → s.dev.sdp.power = 0 → unmoved .goRun ∧
      (s.dev.paired = true → refused .goDoze 4) ∧
      (s.dev.paired = false → steward → refused .goDoze 5) ∧
      (s.dev.paired = false → ¬steward → takes .goDoze .doze)) ∧
    (idle → s.dev.sdp.power = 1 → s.dev.flag Reg.SDP_POWER Fld.SDP_POWER_LULL_EN = true → refused .goRun 1) ∧
    (idle → s.dev.sdp.power = 1 → s.dev.paired = false → ¬steward →
      ∃ t, exec .goDoze s = .next t ∧ t.dev.sdp.power = 0 ∧ t.dev.sdp.request = .doze) ∧
    (idle → s.dev.sdp.power = 1 →
      (host → ∃ t, exec .goRest s = .next t ∧ t.dev.sdp.power = 0 ∧ t.dev.sdp.request = .none ∧ Dev.Refused s.dev t.dev Reg.SDP_BLKID 3) ∧
      (¬host → steward → ∃ t, exec .goRest s = .next t ∧ t.dev.sdp.power = 0 ∧ t.dev.sdp.request = .none ∧
        Dev.Refused s.dev t.dev Reg.SDP_BLKID 5) ∧
      (¬host → ¬steward → ∃ t, exec .goRest s = .next t ∧ t.dev.sdp.power = 0 ∧ t.dev.sdp.request = .rest)) ∧
    (idle → s.dev.sdp.power = 0 ∨ s.dev.sdp.power = 2 →
      (host → refused .goRest 3) ∧ (¬host → steward → refused .goRest 5) ∧ (¬host → ¬steward → takes .goRest .rest)) ∧
    (idle → s.dev.sdp.power = 2 → unmoved .goDoze ∧ wakes .goRun) ∧
    (idle → s.dev.sdp.power = 3 → unmoved .goRest ∧ wakes .goRun ∧ refused .goDoze 1) ∧
    (s.dev.boot.flush = false → s.dev.sdp.request = .doze → s.dev.sdp.power ≤ 1 → ∃ t, exec .dozeEntry s = .next t ∧ t.dev.sdp.power = 2 ∧
      t.dev.sdp.request = .none ∧ t.dev.sdp.dozeHold = true ∧ t.dev.sdp.timerRunning = (s.dev.reg Reg.SDP_AON_TIMER != 0) ∧
      t.dev.reg Reg.SDP_DOZE_CNT = min (s.dev.reg Reg.SDP_DOZE_CNT + 1) 0xFFFFFFFF ∧
      t.dev.flag Reg.SDP_EVENT Fld.SDP_EVENT_POWER = true) ∧
    (s.dev.sdp.request ≠ .doze ∨ s.dev.boot.flush = true → ∃ t, exec .dozeEntry s = .next t ∧ Dev.OnlyRegs s.dev t.dev []) ∧
    (s.dev.boot.flush = false → s.dev.sdp.power = 2 → s.dev.sdp.waking = true → ∃ t, exec .dozeExit s = .next t ∧ t.dev.sdp.power = 0 ∧
      t.dev.sdp.waking = false ∧ t.dev.sdp.timerRunning = false ∧ t.dev.flag Reg.SDP_EVENT Fld.SDP_EVENT_POWER = true) ∧
    (s.dev.sdp.power ≠ 2 ∨ s.dev.sdp.waking = false ∨ s.dev.boot.flush = true → ∃ t, exec .dozeExit s = .next t ∧ Dev.OnlyRegs s.dev t.dev []) ∧
    (s.dev.boot.flush = false → s.dev.sdp.request = .rest → s.dev.sdp.power ≠ 3 → ∃ t, exec .restEntry s = .next t ∧ t.dev.sdp.power = 3 ∧
      t.dev.reg Reg.SDP_REST_CNT = min (s.dev.reg Reg.SDP_REST_CNT + 1) 0xFFFFFFFF ∧
      t.dev.flag Reg.SDP_EVENT Fld.SDP_EVENT_POWER = true ∧
      t.dev.sdp.request = .none ∧ (s.dev.trk.roster = [] → t.dev.mem = s.dev.mem ∧ t.dev.damaged = s.dev.damaged) ∧ t.dev.fuses = s.dev.fuses ∧
      t.dev.sdp.sec = s.dev.sdp.sec ∧ t.dev.sdp.stageKey = s.dev.sdp.stageKey ∧ t.dev.sdp.keyWritten = s.dev.sdp.keyWritten ∧
      t.dev.stk.stroke = s.dev.stk.stroke ∧ t.dev.stk.timing = 0 ∧ t.dev.reg Reg.DBG_MODE = 0 ∧ t.dev.rings = [] ∧ t.dev.bel.pend = [] ∧
      t.dev.reg Reg.SDP_WAKE_EN = s.dev.reg Reg.SDP_WAKE_EN ∧ t.dev.reg Reg.SDP_AON_TIMER = s.dev.reg Reg.SDP_AON_TIMER ∧
      t.dev.sdp.timerRunning = (s.dev.reg Reg.SDP_AON_TIMER != 0)) ∧
    (s.dev.sdp.request ≠ .rest ∨ s.dev.boot.flush = true → ∃ t, exec .restEntry s = .next t ∧ Dev.OnlyRegs s.dev t.dev []) ∧
    (s.dev.boot.flush = false → s.dev.sdp.power = 3 → s.dev.sdp.waking = true → s.dev.boot.fromRest = false → ∃ t, exec .restExit s = .next t ∧
      t.dev.wb = s.dev.wb ∧ t.dev.boot.fromRest = true ∧ t.dev.boot.cal = true ∧ t.dev.boot.ckg = false ∧ t.dev.boot.mem = false ∧
      t.dev.boot.wbl = false ∧ t.dev.sdp = { s.dev.sdp with alert := t.dev.sdp.alert, faultWas := t.dev.sdp.faultWas }) ∧
    (s.dev.sdp.power ≠ 3 ∨ s.dev.sdp.waking = false ∨ s.dev.boot.fromRest = true ∨ s.dev.boot.flush = true →
      ∃ t, exec .restExit s = .next t ∧ Dev.OnlyRegs s.dev t.dev [])

/-- Wake latches and the always-on timer (R406, R448): a latch below 10 that is clear sets; in Run and Lull its source rises; in Doze and
Rest, enabled, it latches `WAKE` and starts the return to Run. Latches 11 to 15 never set. The timer at 0 sets latch 10 in Doze and
Rest alone, and nothing else sets it. -/
def Obligations.WakeLatchesStartTheReturn : Prop :=
  ∀ s : State,
    (∀ i : Fin 16, i.val < 10 → bit (s.dev.reg Reg.SDP_WAKE_STATUS) i = false → ∃ t, exec (.wakeLatch i) s = .next t ∧
      (∀ j < 16, bit (t.dev.reg Reg.SDP_WAKE_STATUS) j = (bit (s.dev.reg Reg.SDP_WAKE_STATUS) j || j == i.val)) ∧
      (s.dev.sdp.power ≠ 3 → t.dev.bel = (s.dev.raise (0x46C0 + i)).bel) ∧
      (s.dev.sdp.power ≤ 1 → Dev.OnlyBell s.dev t.dev [Reg.SDP_WAKE_STATUS]) ∧
      (2 ≤ s.dev.sdp.power → bit (s.dev.reg Reg.SDP_WAKE_EN) i = true →
        t.dev.sdp.waking = true ∧ t.dev.flag Reg.SDP_EVENT Fld.SDP_EVENT_WAKE = true)) ∧
    (∀ i : Fin 16, 10 ≤ i.val ∨ bit (s.dev.reg Reg.SDP_WAKE_STATUS) i = true →
      ∃ t, exec (.wakeLatch i) s = .next t ∧ Dev.OnlyRegs s.dev t.dev []) ∧
    (s.dev.sdp.timerRunning = true → 2 ≤ s.dev.sdp.power → ∃ t, exec .aonTimerExpiry s = .next t ∧ t.dev.sdp.timerRunning = false ∧
      bit (t.dev.reg Reg.SDP_WAKE_STATUS) 10 = true) ∧
    (s.dev.sdp.power ≤ 1 → ∃ t, exec .aonTimerExpiry s = .next t ∧ Dev.OnlyRegs s.dev t.dev [])

/-- A sensor sample (R56, R449): the temperature registers hold it, each die sensor's with its offset of the trim page added (R462); an
upward crossing of an alert threshold sets its flag, its SMBus bit and wake latch 9; each upward crossing of a trip threshold drives
`FAULT_N` low, latches `TRIP` and counts in `SDP_TRIP_CNT`, and with `TRIP_EN` a device in Run or Lull is to enter Doze: the trip makes a
request for Doze, which is the model's choice (log 27). -/
def Obligations.SensorSamplesAreComparedWithTheirThresholds : Prop :=
  ∀ (s : State) (die hbm : List (BitVec 16)), die.length = 16 → hbm.length = 8 →
    let trip (thr old new : Nat) : Prop := signed 16 old < signed 16 (thr / 2 ^ 16) ∧ signed 16 (thr / 2 ^ 16) ≤ signed 16 new
    let alert (thr old new : Nat) : Prop := signed 16 old < signed 16 (thr % 2 ^ 16) ∧ signed 16 (thr % 2 ^ 16) ≤ signed 16 new
    ∃ t, exec (.sensorSample die hbm) s = .next t ∧
      (∀ n : Fin 16, t.dev.reg (Reg.SDP_TEMP n) = toTwos 16 (signed 16 (die.getD n 0).toNat + s.dev.boot.toff.getD n 0)) ∧
      (∀ n : Fin 8, t.dev.reg (Reg.SDP_TEMP_HBM n) = (hbm.getD n 0).toNat) ∧
      (alert (s.dev.reg Reg.SDP_THERM_DIE) s.dev.dieMax t.dev.dieMax →
        t.dev.flag Reg.SDP_EVENT Fld.SDP_EVENT_DIE_ALERT = true ∧ bit t.dev.sdp.alert 0 = true ∧
        bit (t.dev.reg Reg.SDP_WAKE_STATUS) 9 = true) ∧
      (alert (s.dev.reg Reg.SDP_THERM_HBM) s.dev.hbmMax t.dev.hbmMax →
        t.dev.flag Reg.SDP_EVENT Fld.SDP_EVENT_HBM_ALERT = true ∧ bit t.dev.sdp.alert 1 = true ∧
        bit (t.dev.reg Reg.SDP_WAKE_STATUS) 9 = true) ∧
      (trip (s.dev.reg Reg.SDP_THERM_DIE) s.dev.dieMax t.dev.dieMax ∨ trip (s.dev.reg Reg.SDP_THERM_HBM) s.dev.hbmMax t.dev.hbmMax →
        t.dev.faultLow = true ∧ t.dev.flag Reg.SDP_EVENT Fld.SDP_EVENT_TRIP = true ∧
        (s.dev.flag Reg.SDP_THERM_CTRL Fld.SDP_THERM_CTRL_TRIP_EN = true → s.dev.sdp.power ≤ 1 → s.dev.sdp.request = .none →
          t.dev.sdp.request = .doze ∧ t.dev.sdp.power = s.dev.sdp.power)) ∧
      (∀ n, n = (if trip (s.dev.reg Reg.SDP_THERM_DIE) s.dev.dieMax t.dev.dieMax then 1 else 0) +
          (if trip (s.dev.reg Reg.SDP_THERM_HBM) s.dev.hbmMax t.dev.hbmMax then 1 else 0) →
        t.dev.reg Reg.SDP_TRIP_CNT = min (s.dev.reg Reg.SDP_TRIP_CNT + n) 0xFFFFFFFF)

/-! ### Resets, boot, the flash and the waybill -/

/-- What a cold reset leaves (R425, R455, Tables 19.1 and 20.3): every register at its reset value, the security state that the SEALED
fuse gives, no stage key, no waybill, memory cleared to zero, and the boot sequence before its first release. A rail fault is a
cold reset (R453). -/
def Obligations.ColdResetClearsTheDevice : Prop :=
  ∀ s : State,
    (∀ hbm, exec (.railFault hbm) s = exec .coldReset s) ∧
    (s.dev.sdp.fuseJob = .none → ∃ t, exec .coldReset s = .next t ∧ t.dev.fuses = s.dev.fuses ∧
      t.dev.sdp.sec = (if s.dev.fuses.sealed then 1 else 0) ∧ (∀ o, t.dev.reg o = (resetWord o).toNat) ∧ (∀ a, t.dev.memByte a = 0) ∧
      t.dev.wb.loaded = false ∧ t.dev.sdp.stageKey = List.replicate 8 0 ∧ t.dev.sdp.keyWritten = 0 ∧ t.dev.sdp.unlockFails = 0 ∧
      t.dev.sdp.power = 0 ∧ t.dev.stk.stroke = 0 ∧ t.dev.stk.timing = 0 ∧ t.dev.boot.inReset = some .cold ∧
      t.dev.boot.cal = false ∧ t.dev.boot.ckg = false ∧ t.dev.boot.mem = false ∧ t.dev.boot.wbl = false) ∧
    (s.dev.sdp.fuseJob = .none → s.dev.boot.flashJob = none → ∃ t, exec .coldReset s = .next t ∧ t.dev.flash = s.dev.flash)

/-- What the other resets keep (R455, R458, Table 20.3). A warm reset keeps memory, security state, stage key, `SDP_WAKE_EN`,
`SDP_AON_TIMER` and refusal counts, clears the scratch registers and drops the waybill; `PERST_N` in Rest resets nothing. A function-level
or software reset keeps the scratch registers too; its flush phase ends with every block of R457 released, or, where the bridge is down or a
system PLL has failed by then, as a warm reset, the one that leaves that state (R16, R414; that it is the reset under way which becomes one
is the model's choice, log 27). That the refusal counts are kept is read from R51 (log 29), and that a function-level reset takes effect in
Rest too is the model's choice (log 27). -/
def Obligations.ResetsKeepWhatTable203Keeps : Prop :=
  ∀ s : State,
    let keeps (t : State) : Prop := t.dev.mem = s.dev.mem ∧ t.dev.damaged = s.dev.damaged ∧ t.dev.sdp.sec = s.dev.sdp.sec ∧
      t.dev.fuses = s.dev.fuses ∧ t.dev.sdp.stageKey = s.dev.sdp.stageKey ∧ t.dev.sdp.keyWritten = s.dev.sdp.keyWritten ∧
      t.dev.reg Reg.SDP_WAKE_EN = s.dev.reg Reg.SDP_WAKE_EN ∧ t.dev.reg Reg.SDP_AON_TIMER = s.dev.reg Reg.SDP_AON_TIMER ∧
      t.dev.sdp.lifeMs = s.dev.sdp.lifeMs ∧ t.dev.wb.loaded = false ∧ t.dev.stk.stroke = 0 ∧ t.dev.sdp.power = 0 ∧
      t.dev.reg Reg.DBG_MODE = 0 ∧ ∀ o, isRefusedCnt o = true → t.dev.reg o = s.dev.reg o
    (∀ perst, (perst = true → s.dev.sdp.power ≠ 3) → s.dev.boot.inReset ≠ some .cold →
      ∃ t, exec (.warmReset perst) s = .next t ∧ keeps t ∧ (∀ n < 4, t.dev.reg (Reg.GLB_SCRATCH n) = 0) ∧
        t.dev.boot.inReset = some .warm ∧ t.dev.boot.flush = false ∧ t.dev.boot.mem = false) ∧
    (∀ perst, (perst = true → s.dev.sdp.power ≠ 3) → s.dev.boot.inReset = some .cold →
      exec (.warmReset perst) s = exec .coldReset s) ∧
    (s.dev.sdp.power = 3 → ∃ t, exec (.warmReset true) s = .next t ∧ Dev.OnlyRegs s.dev t.dev []) ∧
    (∀ hot, s.dev.resetKind .functionLevel = .functionLevel → ∃ t, exec (.functionLevelReset hot) s = .next t ∧
      t.dev.boot.flush = true ∧ t.dev.boot.inReset = some .functionLevel) ∧
    (∀ hot, s.dev.resetKind .functionLevel = .warm → ∃ t, exec (.functionLevelReset hot) s = .next t ∧
      t.dev.boot.flush = false ∧ t.dev.boot.inReset = some .warm) ∧
    (∀ k, s.dev.boot.flush = true → s.dev.boot.inReset = some k → k = .functionLevel ∨ k = .software → s.dev.resetKind k = k →
      ∃ t, exec .flushEnd s = .next t ∧ keeps t ∧ (∀ n < 4, t.dev.reg (Reg.GLB_SCRATCH n) = s.dev.reg (Reg.GLB_SCRATCH n)) ∧
        (k = .software → ∀ v < 64, t.dev.reg (Reg.MSIX_ADDR_LO v) = s.dev.reg (Reg.MSIX_ADDR_LO v) ∧
          t.dev.reg (Reg.MSIX_DATA v) = s.dev.reg (Reg.MSIX_DATA v)) ∧
        t.dev.boot.flush = false ∧ t.dev.boot.inReset = none ∧ t.dev.boot.cal = true ∧ t.dev.boot.ckg = true ∧
        t.dev.boot.mem = true ∧ t.dev.boot.wbl = true) ∧
    (∀ k, s.dev.boot.flush = true → s.dev.boot.inReset = some k → s.dev.resetKind k = .warm →
      ∃ t, exec .flushEnd s = .next t ∧ keeps t ∧ (∀ n < 4, t.dev.reg (Reg.GLB_SCRATCH n) = 0) ∧
        t.dev.boot.flush = false ∧ t.dev.boot.inReset = some .warm ∧ t.dev.boot.mem = false) ∧
    (s.dev.boot.flush = false → ∃ t, exec .flushEnd s = .next t ∧ Dev.OnlyRegs s.dev t.dev [])

/-- The boot sequence (R457, R461 to R463, Tables 20.6 and 20.11): the trim page is read once and its verdict shown; the end of training
releases MEM, and WBL too where no clear follows; the end of the clear leaves zeros and releases WBL. In the flush phase of a reset, and in
Rest before its wake, none of them happens (R445, R457). -/
def Obligations.BootReleasesBlocksInOrder : Prop :=
  ∀ s : State,
    let runs := s.dev.boot.flush = false ∧ (s.dev.sdp.power ≠ 3 ∨ s.dev.boot.fromRest = true)
    (¬runs → ∀ c ∈ [Instr.trimRead, .hbmTrainingDone, .memoryClearDone], ∃ t, exec c s = .next t ∧ Dev.OnlyRegs s.dev t.dev []) ∧
    (runs → s.dev.boot.inReset = some .cold ∨ s.dev.boot.inReset = some .warm → s.dev.boot.cal = false →
      let page := s.dev.flashRead 0x1000000 4096
      ∃ t, exec .trimRead s = .next t ∧ t.dev.boot.cal = true ∧
        (bit s.dev.boot.bootsel 2 = true → t.dev.fld Reg.CAL_STATUS Fld.CAL_STATUS_CAUSE = 5) ∧
        (bit s.dev.boot.bootsel 2 = false → s.dev.boot.flashOk = false → t.dev.fld Reg.CAL_STATUS Fld.CAL_STATUS_CAUSE = 6) ∧
        (bit s.dev.boot.bootsel 2 = false → s.dev.boot.flashOk = true → s.dev.boot.trimTorn = false →
          (trimGood page s.dev.fuses.serial = true ↔ t.dev.fld Reg.CAL_STATUS Fld.CAL_STATUS_CAUSE = 0)) ∧
        (t.dev.flag Reg.CAL_STATUS Fld.CAL_STATUS_TRIM_INVALID = false ↔ t.dev.fld Reg.CAL_STATUS Fld.CAL_STATUS_CAUSE = 0) ∧
        (t.dev.fld Reg.CAL_STATUS Fld.CAL_STATUS_CAUSE ≠ 0 → t.dev.fld Reg.MEM_PD_CTRL Fld.MEM_PD_CTRL_EXIT_NS = 1000)) ∧
    (s.dev.boot.cal = true → ∃ t, exec .trimRead s = .next t ∧ Dev.OnlyRegs s.dev t.dev []) ∧
    (runs → s.dev.boot.ckg = true → s.dev.boot.mem = false → s.dev.boot.inReset = some .cold → ∃ t, exec .hbmTrainingDone s = .next t ∧
      Dev.OnlyRegs { s.dev with boot := { s.dev.boot with mem := true, trained := true } } t.dev []) ∧
    (runs → s.dev.boot.ckg = true → s.dev.boot.mem = false → s.dev.boot.inReset ≠ some .cold → ∃ t, exec .hbmTrainingDone s = .next t ∧
      Dev.OnlyRegs { s.dev with boot := { s.dev.boot with mem := true, wbl := true, inReset := none } } t.dev []) ∧
    (s.dev.boot.ckg = false ∨ s.dev.boot.mem = true → ∃ t, exec .hbmTrainingDone s = .next t ∧ Dev.OnlyRegs s.dev t.dev []) ∧
    (runs → s.dev.boot.trained = true → ∃ t, exec .memoryClearDone s = .next t ∧ (∀ a, t.dev.memByte a = 0) ∧ (∀ b, t.dev.isDamaged b = false) ∧
      t.dev.boot.wbl = true ∧ t.dev.boot.inReset = none ∧ t.dev.weak = [] ∧
      Dev.OnlyRegs { s.dev with mem := t.dev.mem, damaged := t.dev.damaged, weak := [], boot := t.dev.boot } t.dev []) ∧
    (s.dev.boot.trained = false → ∃ t, exec .memoryClearDone s = .next t ∧ Dev.OnlyRegs s.dev t.dev [])

/-- Flash commands (R464, R465, Table 20.9): the first failing row refuses a GO; an accepted one is taken and uses up an arming of the
trim key. The trim page in memory is read under the block check, which wakes its controllers (R279, R298). -/
def Obligations.FlashCommandsAreRefusedByTable209 : Prop :=
  ∀ (s : State) (op : Nat) (c : Instr), c = .flashToMemory ∧ op = 1 ∨ c = .memoryToFlash ∧ op = 2 →
    s.dev.access Reg.CAL_FL_CMD = .normal Reg.CAL_FL_CMD →
    let off := s.dev.reg Reg.CAL_FL_OFFSET
    let len := s.dev.reg Reg.CAL_FL_LEN
    let a := s.dev.pair Reg.CAL_FL_ADDR_LO Reg.CAL_FL_ADDR_HI
    let trim := op = 2 ∧ len ≠ 0 ∧ off < 0x1010000 ∧ 0x1000000 < off + len
    let reason := if s.dev.boot.flashJob.isSome then 1
      else if off % 4096 ≠ 0 ∨ len % 4096 ≠ 0 ∨ len = 0 ∨ s.dev.reg Reg.CAL_FL_SIZE < off + len ∨ s.dev.inPart 0 a len = false then 2
      else if trim ∧ s.dev.flag Reg.CAL_TRIM_KEY Fld.CAL_TRIM_KEY_ARMED = false then 3
      else if trim ∧ (0x1000000 < off ∨ off + len < 0x1001000 ∨
        trimGood (s.dev.memRead (a + (0x1000000 - off)) 4096) s.dev.fuses.serial = false) then 4
      else if s.dev.sdp.power = 3 ∨ s.dev.sdp.waking = true ∨ s.dev.sdp.request ≠ .none then 5 else 0
    (trim → s.dev.ReadsWhole (blocksOf (a + (0x1000000 - off)) 4096)) →
    (reason ≠ 0 → ∃ t, exec c s = .next t ∧ Dev.Refused s.dev t.dev Reg.CAL_BLKID reason ∧
      Dev.OnlyRegs s.dev t.dev [Reg.CAL_FL_CMD, Reg.CAL_REFUSED, Reg.CAL_REFUSED_CNT, Reg.MEM_STATUS] ∧
      (reason < 4 → t.dev.reg Reg.MEM_STATUS = s.dev.reg Reg.MEM_STATUS)) ∧
    (reason = 0 → ∃ t, exec c s = .next t ∧ t.dev.reg Reg.CAL_TRIM_KEY = 0 ∧
      Dev.OnlyRegs { s.dev with boot := { s.dev.boot with flashJob := some (op, off, len, a) } } t.dev
        (if trim then [Reg.CAL_FL_CMD, Reg.CAL_TRIM_KEY, Reg.MEM_STATUS] else [Reg.CAL_FL_CMD, Reg.CAL_TRIM_KEY]))

/-- A flash command completes (R464): OP 1 copies flash into memory; OP 2 erases the sectors that its range touches and then holds the
memory bytes there; each sets `DONE`, where the copy into memory meets no damaged or weak block that it writes in part (R25) and the one
from memory none at all (R279). A failed one
sets `ERROR`: one of OP 2 leaves memory as it was, one of OP 1 every byte outside its range. The trim key arms, and disarms without
refusal (R465). -/
def Obligations.FlashCommandsCopyTheirRange : Prop :=
  ∀ (s : State) (off len a : Nat),
    (s.dev.boot.flashJob = some (1, off, len, a) → (∀ b ∈ partBlocks a len, s.dev.isDamaged b = false ∧ b ∉ s.dev.weak) →
      ∃ t, exec (.flashCommandDone false) s = .next t ∧
      (∀ x, t.dev.memByte x = if a ≤ x ∧ x < a + len then s.dev.flash.get flashDefault (off + (x - a)) else s.dev.memByte x) ∧
      t.dev.flash = s.dev.flash ∧ t.dev.boot.flashJob = none ∧ t.dev.flag Reg.CAL_STATUS Fld.CAL_STATUS_DONE = true ∧
      Dev.OnlyRegs { s.dev with mem := t.dev.mem, damaged := t.dev.damaged, weak := t.dev.weak, boot := t.dev.boot } t.dev
        [Reg.CAL_STATUS, Reg.MEM_STATUS]) ∧
    (s.dev.boot.flashJob = some (2, off, len, a) → 0 < len → s.dev.ReadsWhole (blocksOf a len) → ∃ t, exec (.flashCommandDone false) s = .next t ∧
      (∀ x, t.dev.flash.get flashDefault x = if off ≤ x ∧ x < off + len then s.dev.memByte (a + (x - off))
        else if off / 65536 ≤ x / 65536 ∧ x / 65536 ≤ (off + len - 1) / 65536 then 0xFF else s.dev.flash.get flashDefault x) ∧
      t.dev.boot.flashJob = none ∧ t.dev.flag Reg.CAL_STATUS Fld.CAL_STATUS_DONE = true ∧
      Dev.OnlyRegs { s.dev with flash := t.dev.flash, boot := t.dev.boot } t.dev [Reg.CAL_STATUS, Reg.MEM_STATUS]) ∧
    (∀ op, op = 1 ∨ op = 2 → s.dev.boot.flashJob = some (op, off, len, a) →
      (op = 1 → ∀ b ∈ partBlocks a len, s.dev.isDamaged b = false ∧ b ∉ s.dev.weak) → ∃ t, exec (.flashCommandDone true) s = .next t ∧
        t.dev.boot.flashJob = none ∧ t.dev.flag Reg.CAL_STATUS Fld.CAL_STATUS_ERROR = true ∧ (op = 2 → t.dev.mem = s.dev.mem) ∧
        ∀ x, x < a ∨ a + len ≤ x → t.dev.memByte x = s.dev.memByte x) ∧
    (∀ failed, s.dev.boot.flashJob = none → ∃ t, exec (.flashCommandDone failed) s = .next t ∧ Dev.OnlyRegs s.dev t.dev []) ∧
    (s.dev.access Reg.CAL_TRIM_KEY = .normal Reg.CAL_TRIM_KEY → ∃ t, exec .trimKeyArm s = .next t ∧
      t.dev.flag Reg.CAL_TRIM_KEY Fld.CAL_TRIM_KEY_ARMED = true ∧ Dev.OnlyRegs s.dev t.dev [Reg.CAL_TRIM_KEY]) ∧
    (∃ t, exec .trimKeyDisarm s = .next t ∧ t.dev.flag Reg.CAL_TRIM_KEY Fld.CAL_TRIM_KEY_ARMED = false ∧
      Dev.OnlyRegs s.dev t.dev [Reg.CAL_TRIM_KEY])

/-- The start of a waybill load (R76, R78, R82, Table 3.14): a host load is refused while LOADED (1) or LOADING (2) and where its place
is not a 4 KiB-aligned one inside software memory (3); else `STATE` is LOADING. The header's blocks are read for this, under their check
(R279). WBL starts a flash load by itself, as `BOOTSEL` says, while
its `STATE` is EMPTY: none after a load that has failed. After Rest it reloads from the slot of the previous load (R80); with none, the
device reaches Run and WBL goes on as `BOOTSEL` says, which is the model's choice (log 31). -/
def Obligations.WaybillLoadsStart : Prop :=
  ∀ s : State,
    let a := s.dev.pair Reg.WBL_HOST_ADDR_LO Reg.WBL_HOST_ADDR_HI
    (s.dev.access Reg.WBL_CTRL = .normal Reg.WBL_CTRL →
      let refused (reason : Nat) : Prop := ∃ t, exec .load s = .next t ∧ Dev.Refused s.dev t.dev Reg.WBL_BLKID reason ∧
        Dev.OnlyRegs s.dev t.dev (Reg.WBL_REFUSED :: Reg.WBL_REFUSED_CNT :: (if reason = 3 then [Reg.MEM_STATUS] else []))
      (s.dev.wblState = 2 → refused 1) ∧ (s.dev.wblState = 1 → refused 2) ∧
      (s.dev.wblState ≠ 1 → s.dev.wblState ≠ 2 → a % 4096 ≠ 0 ∨ memEnd < a + 256 →
        (a + 256 ≤ memEnd → s.dev.ReadsWhole (blocksOf a 256)) → refused 3) ∧
      (s.dev.wblState ≠ 1 → s.dev.wblState ≠ 2 → a % 4096 = 0 → a + 2 ^ 32 ≤ memEnd → s.dev.ReadsWhole (blocksOf a 256) →
        ∃ t, exec .load s = .next t ∧
        t.dev.wblState = 1 ∧ t.dev.boot.load = some (.host a) ∧ t.dev.boot.copy = [] ∧
        Dev.OnlyRegs { s.dev with boot := t.dev.boot } t.dev [Reg.WBL_STATUS, Reg.MEM_STATUS])) ∧
    (s.dev.boot.wbl = true → s.dev.boot.flush = false → s.dev.sdp.power ≠ 3 → s.dev.wblState = 0 → s.dev.boot.fromRest = false →
      (∀ src, s.dev.boot.bootsel % 4 = 0 ∧ src = .slotA ∨ s.dev.boot.bootsel % 4 = 1 ∧ src = .slotB →
        ∃ t, exec .flashLoad s = .next t ∧ t.dev.wblState = 1 ∧ t.dev.boot.load = some src ∧
          Dev.OnlyRegs { s.dev with boot := t.dev.boot } t.dev [Reg.WBL_STATUS]) ∧
      (2 ≤ s.dev.boot.bootsel % 4 → ∃ t, exec .flashLoad s = .next t ∧ Dev.OnlyRegs s.dev t.dev [])) ∧
    (s.dev.boot.wbl = true → s.dev.boot.flush = false → s.dev.wblState = 0 → s.dev.boot.fromRest = true →
      (∀ src, s.dev.boot.lastSource = some src → ∃ t, exec .flashLoad s = .next t ∧ t.dev.wblState = 1 ∧ t.dev.boot.load = some src ∧
        Dev.OnlyRegs { s.dev with boot := t.dev.boot } t.dev [Reg.WBL_STATUS]) ∧
      (s.dev.boot.lastSource = none → ∃ t, exec .flashLoad s = .next t ∧ t.dev.sdp.power = 0 ∧ t.dev.sdp.waking = false ∧
        t.dev.boot.fromRest = false ∧ t.dev.wblState = if s.dev.boot.bootsel % 4 < 2 then 1 else 0)) ∧
    (s.dev.wblState ≠ 0 ∨ s.dev.boot.wbl = false ∨ s.dev.boot.flush = true →
      ∃ t, exec .flashLoad s = .next t ∧ Dev.OnlyRegs s.dev t.dev [])

/-- The course of a load outside a return from Rest (R76 to R78): the header is checked in the order of its conditions and the image by
every check; an error ends the load FAILED with its code and changes no waybill, but slot A goes on with slot B; an image that
passes is the loaded waybill, and `STATE` is LOADED. An image in software memory is read under the block check (R279); the clauses say what
follows where its blocks pass it. -/
def Obligations.WaybillLoadsEndLoadedOrFailed : Prop :=
  ∀ (s : State) (src : LoadSource) (bad : Bool), s.dev.boot.load = some src → s.dev.boot.fromRest = false →
    s.dev.boot.flush = false → s.dev.sdp.power ≠ 3 →
    let failsAs (c : Instr) (code : Nat) : Prop := ∃ t, exec c s = .next t ∧ t.dev.wb = s.dev.wb ∧
      (src = .slotA → t.dev.reg Reg.WBL_SLOT_A_ERROR = code % 2 ^ 32 ∧ t.dev.boot.load = some .slotB ∧ t.dev.wblState = 1) ∧
      (src ≠ .slotA → t.dev.fld Reg.WBL_STATUS Fld.WBL_STATUS_ERROR = code % 2 ^ 8 ∧ t.dev.boot.load = none ∧ t.dev.wblState = 3)
    let h := s.dev.imageBytes src 0 256
    let img := s.dev.boot.copy ++ s.dev.imageBytes src 256 (imgNat s.dev.boot.copy 8 4 - 256)
    (s.dev.boot.copy = [] → s.dev.copyFails src bad = true → failsAs (.headerCopyDone bad) 0x0F) ∧
    (s.dev.boot.copy = [] → s.dev.copyFails src bad = false → (∀ a, src = .host a → s.dev.ReadsWhole (blocksOf a 256)) →
      (imgNat h 0 4 ≠ 0x4C425957 → failsAs (.headerCopyDone bad) 0x01) ∧
      (imgNat h 0 4 = 0x4C425957 → imgNat h 4 2 ≠ 1 → failsAs (.headerCopyDone bad) 0x02) ∧
      (checkHeader h = .ok () → ∃ t, exec (.headerCopyDone bad) s = .next t ∧ t.dev.boot.copy = h ∧
        Dev.OnlyRegs { s.dev with boot := t.dev.boot } t.dev [Reg.MEM_STATUS])) ∧
    (s.dev.boot.copy ≠ [] → s.dev.copyFails src bad = true → failsAs (.imageCopyDone bad) 0x0F) ∧
    (s.dev.boot.copy ≠ [] → s.dev.copyFails src bad = false →
      (∀ a, src = .host a → s.dev.ReadsWhole (blocksOf (a + 256) (imgNat s.dev.boot.copy 8 4 - 256))) →
      (∀ e, checkImage img s.dev.fuses.keyHash s.dev.fuses.hashFused s.dev.sdp.sec s.dev.fuses.speed = .error e →
        failsAs (.imageCopyDone bad) e.1) ∧
      (∀ w, checkImage img s.dev.fuses.keyHash s.dev.fuses.hashFused s.dev.sdp.sec s.dev.fuses.speed = .ok w →
        ∃ t, exec (.imageCopyDone bad) s = .next t ∧ t.dev.wb = w ∧ t.dev.wblState = 2 ∧ t.dev.boot.load = none ∧
          t.dev.boot.inReset = none ∧ t.dev.boot.copy = img))

/-! ### The Bellboard -/

/-- A doorbell message of an edge source (R394, R395): on a routed source it pends, or its count rises by one up to 65,535, every other
source stays as it was, and nothing but the Bellboard changes; an unrouted one counts in `BEL_UNROUTED_CNT`. A level source's copy follows
assertion. An uncorrectable configuration word leaves its page at reset (R405), and a corrected word counts (R295). Without a waybill
nothing happens (R75). -/
def Obligations.DoorbellMessagesPendTheirSource : Prop :=
  ∀ (s : State) (src : BitVec 15),
    (s.dev.belRunning = true → isLevel src.toNat = false → ∀ de, s.dev.routeOf src.toNat ≠ none →
      ∃ t, exec (.doorbellMessage src de .none) s = .next t ∧
        (t.dev.belPending src.toNat).map (·.count) = some (min (((s.dev.belPending src.toNat).map (·.count)).getD 0 + 1) 65535) ∧
        (∀ x, x ≠ src.toNat → t.dev.belPending x = s.dev.belPending x) ∧ Dev.OnlyRegs { s.dev with bel := t.dev.bel } t.dev []) ∧
    (s.dev.belRunning = true → isLevel src.toNat = false → ∀ de, s.dev.routeOf src.toNat = none →
      ∃ t, exec (.doorbellMessage src de .none) s = .next t ∧
        t.dev.reg Reg.BEL_UNROUTED_CNT = min (s.dev.reg Reg.BEL_UNROUTED_CNT + 1) 0xFFFFFFFF ∧
        Dev.OnlyRegs s.dev t.dev [Reg.BEL_UNROUTED_CNT]) ∧
    (s.dev.belRunning = true → isLevel src.toNat = true → ∀ de, s.dev.routeOf src.toNat ≠ none →
      ∃ t, exec (.doorbellMessage src de .none) s = .next t ∧ t.dev.bel.levels.contains src.toNat = !de ∧
        (de = false → (t.dev.belPending src.toNat).map (·.count) = some 1) ∧
        (de = true → t.dev.bel.pend = s.dev.bel.pend) ∧ Dev.OnlyRegs { s.dev with bel := t.dev.bel } t.dev []) ∧
    (s.dev.belRunning = true → ∀ de (page : Fin 128), ∃ t, exec (.doorbellMessage src de (.config page)) s = .next t ∧
      t.dev.reg (Reg.BEL_PG_CTRL page) = (resetWord (Reg.BEL_PG_CTRL page)).toNat) ∧
    (s.dev.belRunning = true → ∀ de, ∃ t, exec (.doorbellMessage src de .corrected) s = .next t ∧
      t.dev.reg Reg.DEP_SECDED_CORR_CNT = min (s.dev.reg Reg.DEP_SECDED_CORR_CNT + 1) 0xFFFFFFFF) ∧
    (s.dev.belRunning = false → ∀ de ecc, ∃ t, exec (.doorbellMessage src de ecc) s = .next t ∧ Dev.OnlyRegs s.dev t.dev [])

/-- The doorbell register (R396): a source of 0x7000 to 0x7EFF is raised; any other is refused with code 1; bit 16 asks for the twin too,
and is refused with code 2 on a device in neither JOIN nor PAIRED. -/
def Obligations.HostDoorbellsRaiseTheirSource : Prop :=
  ∀ (s : State) (v : Word), s.dev.access Reg.BEL_BLKID = .normal Reg.BEL_BLKID →
    let src := v.toNat % 2 ^ 15
    (src < 0x7000 ∨ 0x7EFF < src ∨ bit v.toNat 15 = true → ∃ t, exec (.belDoorbell v) s = .next t ∧
      Dev.Refused s.dev t.dev Reg.BEL_BLKID 1 ∧ Dev.OnlyRegs s.dev t.dev [Reg.BEL_REFUSED, Reg.BEL_REFUSED_CNT]) ∧
    (0x7000 ≤ src → src ≤ 0x7EFF → bit v.toNat 15 = false →
      (bit v.toNat 16 = false → ∃ t, exec (.belDoorbell v) s = .next t ∧ t.dev.bel = (s.dev.raise src).bel ∧
        Dev.OnlyBell s.dev t.dev []) ∧
      (bit v.toNat 16 = true → s.dev.paired = false → ∃ t, exec (.belDoorbell v) s = .next t ∧ t.dev.bel = (s.dev.raise src).bel ∧
        Dev.Refused s.dev t.dev Reg.BEL_BLKID 2 ∧ Dev.OnlyBell s.dev t.dev [Reg.BEL_REFUSED, Reg.BEL_REFUSED_CNT]) ∧
      (bit v.toNat 16 = true → s.dev.paired = true → ∃ t, exec (.belDoorbell v) s = .next t ∧ t.dev.bel = (s.dev.raise src).bel ∧
        t.dev.reg Reg.TWN_MIRROR_CNT = min (s.dev.reg Reg.TWN_MIRROR_CNT + 1) 0xFFFFFFFF))

/-- The service stack (R397 to R401, R404). A CLAIM returns the pending source of highest priority with its count and takes it into service,
with GONE for a level source whose copy reads de-asserted, which counts in `BEL_SPURIOUS_CNT`, or 0 where none may be claimed; under bit
presentation it returns 0 and arms the class; the first read of pending bits pushes an entry, and a 1 written to a bit takes that source out
of pending, a level source while its copy is asserted back into it. COMPLETE retires the class's entry and arms the class, and a claimed
level source that is asserted pends again; on the normal class under a fast entry it is out of order: both entries go, and the target's
source 0x7FFF pends. -/
def Obligations.ServiceStackClaimsAndCompletes : Prop :=
  ∀ (s : State) (c : Fin 128), s.dev.tap ≠ .extest → (∀ r ∈ [Reg.BEL_PG_CLAIM c, Reg.BEL_PG_PEND_LO c, Reg.BEL_PG_PEND_HI c,
      Reg.BEL_PG_COMPLETE c], s.dev.access r = .normal r) →
    let entry (d : Dev) : Option BelEntry := (d.belClass c).entry
    let blocked := c.val < 64 ∧ s.dev.fastInService c = true
    let claims := s.dev.claimMode (c.val % 64) = true
    (∀ p, claims → entry s.dev = none → ¬blocked → s.dev.topPending c = some p → isLevel p.source = false →
      ∃ t, exec (.claim c) s = .next t ∧ t.dev.out = [.completion (BitVec.ofNat 32 (p.count * 2 ^ 16 + shownSource p.source))] ∧
        t.dev.belPending p.source = none ∧ entry t.dev = some (.claimed p.source p.count false) ∧
        (∀ x, x ≠ p.source → t.dev.belPending x = s.dev.belPending x) ∧ Dev.OnlyRegs { s.dev with bel := t.dev.bel } t.dev []) ∧
    (∀ p, claims → entry s.dev = none → ¬blocked → s.dev.topPending c = some p → isLevel p.source = true →
      let gone := !(s.dev.bel.levels.contains p.source)
      ∃ t, exec (.claim c) s = .next t ∧ t.dev.belPending p.source = none ∧ entry t.dev = some (.claimed p.source p.count gone) ∧
        t.dev.out = [.completion (BitVec.ofNat 32 (p.count * 2 ^ 16 + (if gone then 2 ^ 15 else 0) + p.source))] ∧
        (gone = true → t.dev.reg Reg.BEL_SPURIOUS_CNT = min (s.dev.reg Reg.BEL_SPURIOUS_CNT + 1) 0xFFFFFFFF) ∧
        Dev.OnlyRegs { s.dev with bel := t.dev.bel } t.dev (if gone then [Reg.BEL_SPURIOUS_CNT] else [])) ∧
    (claims → entry s.dev = none → blocked ∨ s.dev.topPending c = none → ∃ t, exec (.claim c) s = .next t ∧
      t.dev.out = [.completion 0] ∧ t.dev.bel.pend = s.dev.bel.pend ∧ Dev.OnlyRegs { s.dev with bel := t.dev.bel } t.dev []) ∧
    (∀ e, claims → entry s.dev = some e → ∃ t, exec (.claim c) s = .next t ∧
      t.dev.out = [.completion (BitVec.ofNat 32 (claimWord e))] ∧ Dev.OnlyRegs s.dev t.dev []) ∧
    (¬claims → ∃ t, exec (.claim c) s = .next t ∧ t.dev.out = [.completion 0] ∧ entry t.dev = entry s.dev ∧
      (t.dev.belClass c).armed = true ∧ t.dev.bel.pend = s.dev.bel.pend ∧ Dev.OnlyRegs { s.dev with bel := t.dev.bel } t.dev []) ∧
    (¬claims → entry s.dev = none → ¬blocked → ∃ t, exec (.pendRead c) s = .next t ∧
      t.dev.out = [.completion (BitVec.ofNat 32 (s.dev.pendBits c % 2 ^ 32))] ∧ entry t.dev = some (.bits []) ∧
      t.dev.bel.pend = s.dev.bel.pend ∧ Dev.OnlyRegs { s.dev with bel := t.dev.bel } t.dev []) ∧
    (∀ (high : Bool) (mask : Word), ¬claims → (∀ x ∈ s.dev.routedOrder (c.val % 64), isLevel x = false) →
      ∃ t, exec (.pendAck c high mask) s = .next t ∧ Dev.OnlyRegs { s.dev with bel := t.dev.bel } t.dev [] ∧
        (∀ i src, i < 32 → (s.dev.routedOrder (c.val % 64))[(if high then 32 else 0) + i]? = some src → s.dev.routeOf src = some c.val →
          bit mask.toNat i = true → t.dev.belPending src = none) ∧
        (∀ x, t.dev.belPending x ≠ s.dev.belPending x → ∃ i < 32, bit mask.toNat i = true ∧
          (s.dev.routedOrder (c.val % 64))[(if high then 32 else 0) + i]? = some x)) ∧
    (∀ (high : Bool) (mask : Word), ¬claims → ∃ t, exec (.pendAck c high mask) s = .next t ∧
      ∀ i src, i < 32 → (s.dev.routedOrder (c.val % 64))[(if high then 32 else 0) + i]? = some src → isLevel src = true →
        s.dev.routeOf src = some c.val → bit mask.toNat i = true → s.dev.belPending src ≠ none →
        (t.dev.belPending src).map (·.count) = if s.dev.bel.levels.contains src then some 1 else none) ∧
    (¬blocked → ∃ t, exec (.complete c) s = .next t ∧ entry t.dev = none ∧ (t.dev.belClass c).armed = true ∧
      (entry s.dev = none → t.dev.reg Reg.BEL_EMPTY_CNT = min (s.dev.reg Reg.BEL_EMPTY_CNT + 1) 0xFFFFFFFF) ∧
      (entry s.dev ≠ none → Dev.OnlyRegs { s.dev with bel := t.dev.bel } t.dev []) ∧
      (∀ src n gone, entry s.dev = some (.claimed src n gone) → isLevel src = true → s.dev.bel.levels.contains src = true →
        t.dev.belPending src ≠ none)) ∧
    (blocked → ∃ t, exec (.complete c) s = .next t ∧ entry t.dev = none ∧ (t.dev.belClass (64 + c)).entry = none ∧
      t.dev.belPending (stackFault c) ≠ none ∧ t.dev.reg Reg.BEL_FAULT_CNT = min (s.dev.reg Reg.BEL_FAULT_CNT + 1) 0xFFFFFFFF ∧
      t.dev.flag Reg.BEL_FAULT Fld.BEL_FAULT_FLAG = true)

/-- Stack-fault acknowledgement, messages, IDLE and unmasking (R401 to R403): an acknowledged 0x7FFF leaves pending; a class whose
message is due sends it once and is disarmed, but a masked vector holds it; unmasking lets a held message go. -/
def Obligations.MessagesLeaveOnceAndWaitForTheirMask : Prop :=
  ∀ s : State, s.dev.tap ≠ .extest →
    let sent (v : Nat) : Out := .msix v (s.dev.pair (Reg.MSIX_ADDR_LO v) (Reg.MSIX_ADDR_HI v)) (s.dev.reg (Reg.MSIX_DATA v))
    (∀ g : Fin 64, s.dev.access (Reg.BEL_PG_STATUS (64 + g)) = .normal (Reg.BEL_PG_STATUS (64 + g)) →
      ∃ t, exec (.stackFaultAck g) s = .next t ∧ t.dev.belPending (stackFault g) = none ∧
        (∀ x, x ≠ stackFault g → t.dev.belPending x = s.dev.belPending x) ∧ Dev.OnlyRegs { s.dev with bel := t.dev.bel } t.dev []) ∧
    (∀ c : Fin 128, s.dev.messageDue c = true → ∃ t, exec (.msixMessage c) s = .next t ∧
      (t.dev.belClass c).armed = false ∧ t.dev.bel.pend = s.dev.bel.pend ∧ t.dev.reg (Reg.BEL_PG_IDLE c) = 0 ∧
      t.dev.reg (Reg.BEL_PG_MSG_CNT c) = min (s.dev.reg (Reg.BEL_PG_MSG_CNT c) + 1) 0xFFFFFFFF ∧
      (bit (s.dev.reg (Reg.MSIX_VCTRL (c.val % 64))) 0 = false → t.dev.out = [sent (c.val % 64)]) ∧
      (bit (s.dev.reg (Reg.MSIX_VCTRL (c.val % 64))) 0 = true → t.dev.out = [] ∧
        bit (t.dev.reg (Reg.MSIX_PBA (c.val % 64 / 32))) (c.val % 64 % 32) = true) ∧
      Dev.OnlyRegs { s.dev with bel := t.dev.bel } t.dev
        [Reg.BEL_PG_IDLE c, Reg.BEL_PG_MSG_CNT c, Reg.BEL_MSG_CNT, Reg.MSIX_PBA (c.val % 64 / 32)]) ∧
    (∀ c : Fin 128, s.dev.messageDue c = false → ∃ t, exec (.msixMessage c) s = .next t ∧ t.dev.out = [] ∧
      Dev.OnlyRegs s.dev t.dev []) ∧
    (∀ c : Fin 128, s.dev.access (Reg.BEL_PG_IDLE c) = .normal (Reg.BEL_PG_IDLE c) → ∃ t, exec (.idleSet c) s = .next t ∧
      t.dev.reg (Reg.BEL_PG_IDLE c) = 1 ∧ Dev.OnlyRegs s.dev t.dev [Reg.BEL_PG_IDLE c]) ∧
    (∀ v : Fin 64, ∃ t, exec (.vectorUnmask v) s = .next t ∧ t.dev.reg (Reg.MSIX_VCTRL v) = 0 ∧
      bit (t.dev.reg (Reg.MSIX_PBA (v.val / 32))) (v.val % 32) = false ∧
      t.dev.out = (if bit (s.dev.reg (Reg.MSIX_PBA (v.val / 32))) (v.val % 32) then [sent v] else []) ∧
      Dev.OnlyRegs s.dev t.dev [Reg.MSIX_VCTRL v, Reg.MSIX_PBA (v.val / 32)])

/-! ### Rings -/

/-- A doorbell of an enabled command ring takes effect only within the ring: the new `PROD` is at or beyond the old one, and no more than
N entries beyond `RETIRE`; otherwise `PROD` stays, `PROD_ERR` sets with the ring's number, and the write is refused with
CURSOR_RANGE, code 1 (R380). -/
def Obligations.DoorbellsMoveProdWithinTheRing : Prop :=
  ∀ (s : State) (r : Fin 16384) (v : Word) (weak : List Nat), s.dev.access (Reg.RNG_RS_PROD r) = .normal (Reg.RNG_RS_PROD r) →
    s.dev.ringEn r = true → isRecordClass (s.dev.ringClass r) = false →
    let ok := (v.toNat + 2 ^ 32 - s.dev.ringProd r) % 2 ^ 32 < 2 ^ 31 ∧
      (v.toNat + 2 ^ 32 - s.dev.ringRetire r) % 2 ^ 32 ≤ s.dev.ringN r
    ∃ t, exec (.ringDoorbell r v .good weak) s = .next t ∧
      (ok → t.dev.ringProd r = v.toNat) ∧
      (¬ok → t.dev.ringProd r = s.dev.ringProd r ∧ t.dev.flag Reg.RNG_EVENT Fld.RNG_EVENT_PROD_ERR = true ∧
        (s.dev.flag Reg.RNG_EVENT Fld.RNG_EVENT_PROD_ERR = false → t.dev.reg Reg.RNG_PROD_ERR_RING = r) ∧
        Dev.Refused s.dev t.dev Reg.RNG_BLKID 1 ∧
        Dev.OnlyRegs { s.dev with weak := t.dev.weak } t.dev
          [Reg.RNG_EVENT, Reg.RNG_PROD_ERR_RING, Reg.RNG_PROD_ERR_CNT, Reg.RNG_REFUSED, Reg.RNG_REFUSED_CNT])

/-- Cursors and enabling (R387, R390, R392): `CONS` of a record ring moves between its old value and `PROD`, and any other value is refused
with CURSOR_RANGE. A write that sets `EN`: where the registers as written place the ring well it is enabled, and begins empty at its cursor;
where they do not, the write is refused with RING_PLACE, code 3, and changes no register of the ring; while entries are read and not
retired, a change of `SIZELOG` or `HOST` is refused with RING_BUSY, code 2. That a refused placement keeps every register of the ring, and
that `SIZELOG` can be written, are the model's readings (log 30). Clearing `EN` disables; a set of the ring that has not been read is read
no more. An uncorrectable word at a doorbell stops the ring, and a corrected one counts (R295). That the blocks a doorbell brings are added
to those with a bit error no read has met is the model's choice (log 50). -/
def Obligations.RingsAreEnabledEmpty : Prop :=
  ∀ (s : State) (r : Fin 16384),
    (∀ v : Word, s.dev.access (Reg.RNG_RS_CONS r) = .normal (Reg.RNG_RS_CONS r) → isRecordClass (s.dev.ringClass r) = true →
      ((v.toNat + 2 ^ 32 - s.dev.ringCons r) % 2 ^ 32 < 2 ^ 31 ∧ (s.dev.ringProd r + 2 ^ 32 - v.toNat) % 2 ^ 32 < 2 ^ 31 →
        ∃ t, exec (.consWrite r v) s = .next t ∧ t.dev.ringCons r = v.toNat ∧ Dev.OnlyRegs s.dev t.dev [Reg.RNG_RS_CONS r]) ∧
      (2 ^ 31 ≤ (v.toNat + 2 ^ 32 - s.dev.ringCons r) % 2 ^ 32 ∨ 2 ^ 31 ≤ (s.dev.ringProd r + 2 ^ 32 - v.toNat) % 2 ^ 32 →
        ∃ t, exec (.consWrite r v) s = .next t ∧ Dev.Refused s.dev t.dev Reg.RNG_BLKID 1 ∧
          Dev.OnlyRegs s.dev t.dev [Reg.RNG_REFUSED, Reg.RNG_REFUSED_CNT])) ∧
    (∀ v : Word, s.dev.access (Reg.RNG_RS_CTRL r) = .normal (Reg.RNG_RS_CTRL r) → bit (s.dev.reg (Reg.RNG_RS_CTRL r)) 0 = false →
      let k := Reg.RNG_RS_CTRL r
      let written := s.dev.genericWrite k (v.toNat ||| 1)
      let moves := written.fld k Fld.RNG_RS_CTRL_SIZELOG ≠ s.dev.fld k Fld.RNG_RS_CTRL_SIZELOG ∨
        written.fld k Fld.RNG_RS_CTRL_HOST ≠ s.dev.fld k Fld.RNG_RS_CTRL_HOST
      (s.dev.ringBusy r = false ∨ ¬moves → written.ringPlaced r = true →
        ∃ t, exec (.ringEnable r v) s = .next t ∧ t.dev.ringOcc r = 0 ∧ t.dev.flag k Fld.RNG_RS_CTRL_EN = true ∧
          t.dev.reg k = written.reg k ∧
          Dev.OnlyRegs { s.dev with rings := t.dev.rings } t.dev [k, Reg.RNG_RS_PROD r, Reg.RNG_RS_CONS r, Reg.RNG_RS_RETIRE r]) ∧
      (s.dev.ringBusy r = false ∨ ¬moves → written.ringPlaced r = false →
        ∃ t, exec (.ringEnable r v) s = .next t ∧ Dev.Refused s.dev t.dev Reg.RNG_BLKID 3 ∧
          Dev.OnlyRegs s.dev t.dev [Reg.RNG_REFUSED, Reg.RNG_REFUSED_CNT]) ∧
      (s.dev.ringBusy r = true → moves → s.dev.fld Reg.RNG_REFUSED Fld.REFUSED_REFUSED = 0 → s.dev.ringPlaced r = true →
        ∃ t, exec (.ringEnable r v) s = .next t ∧ t.dev.fld Reg.RNG_REFUSED Fld.REFUSED_REASON = 2 ∧
          t.dev.fld k Fld.RNG_RS_CTRL_SIZELOG = s.dev.fld k Fld.RNG_RS_CTRL_SIZELOG ∧
          t.dev.fld k Fld.RNG_RS_CTRL_HOST = s.dev.fld k Fld.RNG_RS_CTRL_HOST)) ∧
    (∀ v : Word, s.dev.access (Reg.RNG_RS_CTRL r) = .normal (Reg.RNG_RS_CTRL r) → ∃ t, exec (.ringDisable r v) s = .next t ∧
      t.dev.ringEn r = false ∧ (∀ x, x ∈ t.dev.flp.reading ↔ x ∈ s.dev.flp.reading ∧ (s.dev.ringEn r = true → x.ring ≠ r)) ∧
      (∀ w ∈ t.dev.flp.windows, w ∈ s.dev.flp.windows) ∧
      Dev.OnlyRegs { s.dev with flp := { s.dev.flp with reading := t.dev.flp.reading, windows := t.dev.flp.windows } } t.dev
        [Reg.RNG_RS_CTRL r, Reg.RNG_REFUSED, Reg.RNG_REFUSED_CNT]) ∧
    (∀ v weak, s.dev.access (Reg.RNG_RS_PROD r) = .normal (Reg.RNG_RS_PROD r) → ∃ t, exec (.ringDoorbell r v .bad weak) s = .next t ∧
      t.dev.ringEn r = false ∧ t.dev.flag (Reg.RNG_RS_EVENT r) Fld.RNG_RS_EVENT_FAULT = true) ∧
    (∀ v weak, s.dev.access (Reg.RNG_RS_PROD r) = .normal (Reg.RNG_RS_PROD r) → ∃ t, exec (.ringDoorbell r v .corrected weak) s = .next t ∧
      t.dev.reg Reg.DEP_SECDED_CORR_CNT = min (s.dev.reg Reg.DEP_SECDED_CORR_CNT + 1) 0xFFFFFFFF) ∧
    (∀ v weak, ∃ t, exec (.ringDoorbell r v .good weak) s = .next t ∧ t.dev.weak = s.dev.weak ++ weak)

/-! ### Clocks -/

/-- Reference monitors (R409, R410): a window whose count lies off by more than 200 ppm loses its reference; the second good one in a row
after a loss brings it back. A loss of A or of the PCI Express reference that was not lost latches `REF_LOST`, counts and raises
0x46A2; one of B does so only while a quad selects it. -/
def Obligations.ReferencesAreLostAndRegained : Prop :=
  ∀ s : State,
    (∀ k : Fin 3, ∃ t, exec (.refLoss k) s = .next t ∧ bit (t.dev.reg Reg.CKG_REF_STATUS) k = false ∧
      (t.dev.refMon k).lost = true ∧
      ((s.dev.refMon k).lost = false → k ≠ 1 ∨ s.dev.refBUsed = true → t.dev.flag Reg.CKG_EVENT Fld.CKG_EVENT_REF_LOST = true ∧
        t.dev.reg Reg.CKG_REF_LOSS_CNT = min (s.dev.reg Reg.CKG_REF_LOSS_CNT + 1) 0xFFFFFFFF ∧ t.dev.bel = (s.dev.raise 0x46A2).bel) ∧
      ((s.dev.refMon k).lost = true ∨ k = 1 ∧ s.dev.refBUsed = false →
        Dev.OnlyRegs { s.dev with ckg := t.dev.ckg } t.dev [Reg.CKG_REF_STATUS])) ∧
    (∀ a b p : Nat, ∃ t, exec (.refWindow a b p) s = .next t ∧
      ∀ e ∈ [((0 : Nat), a, (204800 : Nat), (41 : Nat)), (1, b, 204800, 41), (2, p, 131072, 26)],
        let good := e.2.2.1 ≤ e.2.1 + e.2.2.2 ∧ e.2.1 ≤ e.2.2.1 + e.2.2.2
        (t.dev.refMon e.1).lost = true ↔ ¬good ∨ (s.dev.refMon e.1).lost = true ∧ (s.dev.refMon e.1).run = 0)

/-- PLL windows (R413, R414, Table 18.3): a locked PLL whose difference passes its tolerance loses lock; an unlocked one locks after the
set number of good windows in a row; `DIFF` shows the clamped difference. A system PLL unlocked for 16 windows has failed, and
holds `FAULT_N` low. Over a window of 2^`WINLOG` reference cycles its modulator takes as many; a write of SEED loads the LFSR (R412; the
form of the modulator is log 28). -/
def Obligations.PllsLockAndFail : Prop :=
  ∀ s : State,
    (∀ (k : Fin 37) (diff : Int), s.dev.pllRuns k = true → (s.dev.pll k).lock = none →
      let st := pllPage k + pllStatus
      let cfg := s.dev.reg (pllPage k + pllLock)
      let inside := diff.natAbs ≤ max 1 (Fld.CKG_PLL_LOCK_TOL.get cfg)
      let good := if diff.natAbs ≤ max 1 (Fld.CKG_PLL_LOCK_TOL.get cfg) then min 15 ((s.dev.pll k).good + 1) else 0
      ∃ t, exec (.pllWindow k diff) s = .next t ∧ (t.dev.pll k).good = good ∧
        (t.dev.pll k).sigma = (s.dev.pll k).sigma.run (s.dev.pllRow k).2.1 (s.dev.pllRow k).2.2.1
          (2 ^ Fld.CKG_PLL_LOCK_WINLOG.get cfg) ∧
        (-32768 ≤ diff → diff ≤ 32767 → t.dev.fld st Fld.CKG_PLL_STATUS_DIFF = (diff % 65536).toNat) ∧
        (bit (s.dev.reg st) 31 = true → (bit (t.dev.reg st) 31 = true ↔ inside)) ∧
        (bit (s.dev.reg st) 31 = false → (bit (t.dev.reg st) 31 = true ↔ max 1 (Fld.CKG_PLL_LOCK_COUNT.get cfg) ≤ good))) ∧
    (∀ (k : Fin 37) (diff : Int), s.dev.pllRuns k = false → ∃ t, exec (.pllWindow k diff) s = .next t ∧ Dev.OnlyRegs s.dev t.dev []) ∧
    (∀ k : Fin 4, bit (s.dev.reg (Reg.CKG_SPLL_STATUS k)) 31 = false → bit (s.dev.reg (Reg.CKG_SPLL_STATUS k)) 30 = false →
      (s.dev.pll k).lost = true → 16 ≤ (s.dev.pll k).out → ∃ t, exec (.pllFail k) s = .next t ∧
        bit (t.dev.reg (Reg.CKG_SPLL_STATUS k)) 30 = true ∧ t.dev.faultLow = true ∧
        t.dev.flag Reg.CKG_EVENT Fld.CKG_EVENT_SYS_FAIL = true) ∧
    (∀ k : Fin 4, (s.dev.pll k).lost = false ∨ (s.dev.pll k).out < 16 → ∃ t, exec (.pllFail k) s = .next t ∧
      Dev.OnlyRegs s.dev t.dev []) ∧
    (∀ (k : Fin 37) (v : Word), s.dev.access (pllPage k + pllSeed) = .normal (pllPage k + pllSeed) →
      ∃ t, exec (.seed k v) s = .next t ∧ (t.dev.pll k).sigma = { (s.dev.pll k).sigma with lfsr := v.toNat } ∧ t.dev.reg (pllPage k + pllSeed) = v.toNat ∧
        Dev.OnlyRegs { s.dev with ckg := t.dev.ckg } t.dev [pllPage k + pllSeed])

/-- Clock outputs (R415, R417): a write that keeps the output within the limit of its format takes effect, and the output's new signal
leaves; a change of its format, from one driven format to another too, holds it off for 1 µs (1,000 ns) first, and what a write in that time
gives it drives no sooner. Any other write is refused with code 3 and changes nothing. -/
def Obligations.ClockOutputsStayWithinTheirFormat : Prop :=
  ∀ (s : State) (n : Fin 8) (isDiv : Bool) (v : Word),
    let k := if isDiv then Reg.CKG_OUT_DIV n else Reg.CKG_OUT_CTRL n
    s.dev.access k = .normal k →
    let ctrl := if isDiv then s.dev.reg (Reg.CKG_OUT_CTRL n) else v.toNat
    let div := if isDiv then v.toNat else s.dev.reg (Reg.CKG_OUT_DIV n)
    let freq := [156250, 1000000, 1000000, 50000].getD (Fld.CKG_OUT_CTRL_CLK.get ctrl) 0
    let limit := [0, 800000, 400000, 200000].getD (Fld.CKG_OUT_CTRL_FMT.get ctrl) 0
    let ok := Fld.CKG_OUT_CTRL_SRC.get ctrl ≠ 0 ∨ Fld.CKG_OUT_CTRL_FMT.get ctrl = 0 ∨
      freq ≤ limit * (Fld.CKG_OUT_DIV_DIV.get div + 1)
    (ok → ∃ t, exec (.ckout n isDiv v) s = .next t ∧
      Dev.OnlyRegs { s.dev with ckg := { s.dev.ckg with heldOff := t.dev.ckg.heldOff } } t.dev [k] ∧
      t.dev.clockOf n = clockSignal (t.dev.reg (Reg.CKG_OUT_CTRL n)) (t.dev.reg (Reg.CKG_OUT_DIV n)) ∧
      (let format (d : Dev) : Nat := d.fld (Reg.CKG_OUT_CTRL n) Fld.CKG_OUT_CTRL_FMT
       t.dev.ckg.heldOff.get (fun _ => 0) n =
          (if format t.dev = format s.dev then s.dev.ckg.heldOff.get (fun _ => 0) n else s.dev.now + 1000) ∧
       (s.dev.tap ≠ .extest →
          t.dev.out = if t.dev.clockOf n = s.dev.clockOf n then [] else [.clockOut n (t.dev.ckg.heldOff.get (fun _ => 0) n - s.dev.now) (t.dev.clockOf n)]) ∧
       (format t.dev ≠ format s.dev → s.dev.tap ≠ .extest → t.dev.out = [.clockOut n 1000 (t.dev.clockOf n)])) ∧
      (isDiv = true → t.dev.fld k Fld.CKG_OUT_DIV_DIV = Fld.CKG_OUT_DIV_DIV.get v.toNat) ∧
      (isDiv = false → t.dev.fld k Fld.CKG_OUT_CTRL_CLK = Fld.CKG_OUT_CTRL_CLK.get v.toNat ∧
        t.dev.fld k Fld.CKG_OUT_CTRL_FMT = Fld.CKG_OUT_CTRL_FMT.get v.toNat ∧
        t.dev.fld k Fld.CKG_OUT_CTRL_SRC = Fld.CKG_OUT_CTRL_SRC.get v.toNat)) ∧
    (¬ok → ∃ t, exec (.ckout n isDiv v) s = .next t ∧ Dev.Refused s.dev t.dev Reg.CKG_BLKID 3 ∧
      Dev.OnlyRegs s.dev t.dev [Reg.CKG_REFUSED, Reg.CKG_REFUSED_CNT])

/-! ### Strokes and the lock loop -/

/-- Ticks and latch points (R85, R86, R90, R91): a tick begins the next stroke in the next phase, and phase 0 begins a camera frame; at a
latch point, once a stroke, the show registers and `STK_OUT` take effect. In a device that is neither paired nor a joined lodger, a
set alone in the queue that may apply there applies: it leaves the queue and counts, its live layer, stack and recipe tables are
those that its words give (R110, R182), and a ready FLIP gives its layer the new buffer. Pending commits that leave no split group
broken are captured (R214). Plate rings that run move `PLAY`, once in `DIV` + 1 latch points that deal a stroke of phase 0, and starve
at `WRITE` (R194). The dispatcher deals stroke *m* + `L`, cut and dealt under the live version there (R90, R154 to R156). Without timing
neither changes anything. -/
def Obligations.TicksAndLatchPointsDriveTheStrokes : Prop :=
  ∀ s : State,
    (∀ dep, s.dev.stk.running = true → s.dev.stk.reframe = none → ∃ t, exec (.tick dep) s = .next t ∧
      t.dev.stk.stroke = (s.dev.stk.stroke + 1) % 2 ^ 48 ∧
      t.dev.stk.phase = (if s.dev.stk.phase + 1 < s.dev.live.phases then s.dev.stk.phase + 1 else 0) ∧
      t.dev.stk.cframe = (if s.dev.stk.phase + 1 < s.dev.live.phases then s.dev.stk.cframe else (s.dev.stk.cframe + 1) % 2 ^ 48) ∧
      t.dev.stk.latched = false ∧ t.dev.stk.timing = s.dev.stk.timing ∧ t.dev.stk.lock = s.dev.stk.lock) ∧
    (∀ dep, s.dev.stk.running = false → s.dev.stk.reframe = none → ∃ t, exec (.tick dep) s = .next t ∧
      Dev.OnlyRegs { s.dev with trk := { s.dev.trk with departure := dep } } t.dev []) ∧
    (∀ ecc, s.dev.wb.loaded = true → s.dev.stk.running = true → s.dev.stk.latched = false → s.dev.boot.flush = false →
      ∃ t, exec (.latchPoint ecc) s = .next t ∧ t.dev.stk.latched = true ∧
        (s.dev.stk.reframe = none → t.dev.stk.stroke = s.dev.stk.stroke) ∧
        (∀ p < 16, t.dev.reg (Reg.STK_SHOW_LIVE p) = s.dev.reg (Reg.STK_SHOW p)) ∧
        t.dev.reg Reg.STK_OUT_LIVE = s.dev.reg Reg.STK_OUT) ∧
    (s.dev.wb.loaded = true → s.dev.stk.running = true → s.dev.stk.latched = false → s.dev.boot.flush = false →
      s.dev.stk.reframe = none → s.dev.stk.timing ≠ 0 → s.dev.sdp.request = .none → s.dev.paired = false →
      s.dev.joinedLodger = false → s.dev.flp.waits = [] → s.dev.flp.applied = [] → s.dev.flp.unreleased = [] → s.dev.trk.sets = [] →
      (∀ q ∈ s.dev.flp.queue, (∃ r i, r < 16384 ∧ q.origin = .own r i) ∧ q.afIdx < 1024 ∧ (∀ w ∈ q.words, isLiveWord w.1 = true) ∧
        ∀ a ∈ q.members, match a with
          | .flip l _ _ _ _ _ _ idx _ => l < 1024 ∧ idx < 1024
          | .plate ring .. => ring < 64
          | .stack .. => True) →
      let m := (s.dev.stk.stroke + 1) % 2 ^ 48
      let live := s.dev.live
      let ahead := if live.racing then 0 else live.compLead
      (∀ q, s.dev.flp.queue = [q] → s.dev.eligible q m = true →
        waitMissing q (s.dev.readyMask q) = false → s.dev.buffersBad q = false → ∃ t, exec (.latchPoint .none) s = .next t ∧
          q.id ∉ t.dev.flp.queue.map (·.id) ∧ t.dev.flp.last = m ∧
          t.dev.reg Reg.FLP_APPLY_CNT = min (s.dev.reg Reg.FLP_APPLY_CNT + 1) 0xFFFFFFFF ∧
          (∀ k < 64, stackAt t.dev.regs k = stackAt (liveAfter s.dev.regs q.words) k) ∧
          (∀ l w acqEn rel buf acq val ri rv, q.members = [.flip l w acqEn rel buf acq val ri rv] → buf < 2 ^ 64 →
            (layerAt s.dev.regs l).plate = false → acqEn = false ∨ s.dev.satisfies acq val = true →
            t.dev.pair (Reg.PRT_LD_BUF_LO_LIVE l) (Reg.PRT_LD_BUF_HI_LIVE l) = buf ∧
            t.dev.fld (Reg.PRT_LD_CTRL_LIVE l) Fld.PRT_LD_CTRL_LIVE_BUFFERED = 1)) ∧
      (∀ p ∈ s.dev.captures m, s.dev.flp.queue = [] →
        (∀ x ∈ s.dev.splitHolders ((s.dev.captures m).foldl (fun c q => cfgOverlay c (s.dev.routeWords q)) s.dev.regs),
          (s.dev.coach x).pending = false) → ∃ t, exec (.latchPoint .none) s = .next t ∧
          (t.dev.coach p).pending = false ∧ t.dev.fld (Reg.CPT_COMMIT p) Fld.CPT_COMMIT_PENDING = 0 ∧
          ∀ w ∈ s.dev.routeWords p, t.dev.reg w.1 = w.2) ∧
      (∀ r : Fin 64, s.dev.flp.queue = [] → s.dev.hasStl = true → s.dev.composes = true → s.dev.sdp.power = 0 →
        s.dev.plateEn r = true → (s.dev.plate r).run = true → (s.dev.nextPhase + ahead) % live.phases = 0 →
        s.dev.flag Reg.SDP_POWER Fld.SDP_POWER_LULL_EN = false →
        let x := s.dev.plate r
        let next := (x.play + 1) % s.dev.plateFrames r
        let due := s.dev.fld (Reg.STL_PR_CTRL r) Fld.STL_PR_CTRL_DIV ≤ x.div
        ∃ t, exec (.latchPoint .none) s = .next t ∧
          (¬due → (t.dev.plate r).play = x.play ∧ (t.dev.plate r).div = x.div + 1) ∧
          (due → next ≠ x.write → (t.dev.plate r).play = next ∧ (t.dev.plate r).div = 0) ∧
          (due → next = x.write → (t.dev.plate r).play = x.play ∧ (t.dev.plate r).div = 0 ∧
            t.dev.flag (Reg.STL_PR_EVENT r) Fld.STL_PR_EVENT_STARVE = true)) ∧
      (s.dev.composes = true → s.dev.sdp.power = 0 → s.dev.flag Reg.SDP_POWER Fld.SDP_POWER_LULL_EN = false →
        let n := (m + ahead) % 2 ^ 48
        ∃ t r, exec (.latchPoint .none) s = .next t ∧ r ∈ t.dev.prt.strokes ∧ r.stroke = n ∧
          r.phase = (s.dev.nextPhase + ahead) % live.phases ∧ r.withdrawn = false ∧ r.abandoned = false ∧
          t.dev.prt.dealStroke = n ∧ t.dev.prt.dealCount = r.parcels.length ∧ r.parcels = s.dev.dealParcels r.version r.phase n ∧
          (∀ k < 64, stackAt r.version k = stackAt t.dev.regs k) ∧ (∀ l < 1024, layerAt r.version l = layerAt t.dev.regs l))) ∧
    (∀ ecc, s.dev.wb.loaded = false ∨ s.dev.boot.flush = true ∨ s.dev.stk.latched = true ∨ s.dev.stk.running = false ∧ s.dev.stk.reframe = none →
      ∃ t, exec (.latchPoint ecc) s = .next t ∧ Dev.OnlyRegs s.dev t.dev [])

/-- The lock loop (R93, R96, R97, Table 4.4): a reference instant aligns in ACQUIRE, where it moves the later boundaries by the distance of
`t` + SHUTTER from the next one, modulo `T`; else it shows its error `e`, moves `f` and `r` as R96 says, and moves LOCKED to HOLDOVER where
its error passes the window; enough good instants in a row lock; with SYNC only every `SYNC_DIV`-th sync frame is a reference instant, and
with PTP the instant lies where the TOD crosses a multiple of `T`; a missing instant ends the run of good ones and LOCKED; `ACQ_LIMIT`
frames end ACQUIRE; a change of source moves the state, and one that the role forbids is refused with SOURCE, code 8. That `GOOD` stays at
15 is the model's choice (log 52). -/
def Obligations.LockStateFollowsTable44 : Prop :=
  ∀ s : State,
    let stk := s.dev.stk
    let src := s.dev.fld Reg.STK_SRC Fld.STK_SRC_SRC
    let due := src = 2 → s.dev.fld Reg.STK_SRC Fld.STK_SRC_SYNC_DIV ≤ stk.syncFrames
    (∀ time, due → stk.running = true → stk.lock = 1 → stk.aligned = false → ∃ t, exec (.referenceInstant time) s = .next t ∧
      t.dev.stk.aligned = true ∧ t.dev.stk.good = 0 ∧ t.dev.stk.f = 0 ∧ t.dev.stk.r = 0 ∧ t.dev.stk.lock = 1 ∧
      (let instant := if src = 1 then s.dev.ptpInstant time else time
       t.dev.stk.b0 = stk.b0 +
        ratMod (instant + (s.dev.live.shutter : Nat) - s.dev.boundary (stk.frame + 1)) s.dev.live.period) ∧
      t.dev.flag Reg.STK_EVENT Fld.STK_EVENT_ALIGN = true) ∧
    (∀ time, due → stk.running = true → stk.lock ≠ 0 → stk.lock ≠ 1 ∨ stk.aligned = true →
      let instant := if src = 1 then s.dev.ptpInstant time else time
      let e := instant + (s.dev.live.shutter : Nat) - s.dev.nearestBoundary (instant + (s.dev.live.shutter : Nat))
      let good := if e.abs ≤ (s.dev.lockWindow : Nat) then stk.good + 1 else 0
      let period := s.dev.live.period
      let follows := stk.lock = 2 ∨ stk.lock = 1
      ∃ t, exec (.referenceInstant time) s = .next t ∧ t.dev.stk.good = min good 15 ∧ t.dev.stk.b0 = stk.b0 ∧
        t.dev.reg Reg.STK_ERROR = toTwos 32 (clampInt (-(2 ^ 31 - 1)) (2 ^ 31 - 1) (rne e)) ∧
        (follows → t.dev.stk.f = rne ((stk.f : Rat) + e * 2 ^ 40 / (16 * period)) ∧
          t.dev.stk.r = clampInt (-s.dev.slew) s.dev.slew (rne ((t.dev.stk.f : Rat) + e * 2 ^ 40 / (2 * period)))) ∧
        (¬follows → t.dev.stk.f = stk.f ∧ t.dev.stk.r = clampInt (-s.dev.slew) s.dev.slew stk.f) ∧
        (stk.lock = 2 → e.abs ≤ (s.dev.lockWindow : Nat) → t.dev.stk.lock = 2) ∧
        (stk.lock = 2 → ¬e.abs ≤ (s.dev.lockWindow : Nat) → t.dev.stk.lock = 3 ∧
          t.dev.reg Reg.STK_HOLDOVER_CNT = min (s.dev.reg Reg.STK_HOLDOVER_CNT + 1) 0xFFFFFFFF ∧
          t.dev.flag Reg.STK_EVENT Fld.STK_EVENT_LOCK_LOST = true) ∧
        (stk.lock ≠ 2 → s.dev.lockCount ≤ good → t.dev.stk.lock = 2) ∧
        (stk.lock ≠ 2 → good < s.dev.lockCount → t.dev.stk.lock = stk.lock)) ∧
    (∀ time, due → stk.running = false ∨ stk.lock = 0 → ∃ t, exec (.referenceInstant time) s = .next t ∧
      Dev.OnlyRegs { s.dev with stk := { stk with syncFrames := if src = 2 then 0 else stk.syncFrames } } t.dev []) ∧
    (∀ time, ¬due → ∃ t, exec (.referenceInstant time) s = .next t ∧ t.dev.stk.syncFrames = stk.syncFrames + 1 ∧
      t.dev.stk.lock = stk.lock ∧ t.dev.stk.good = stk.good ∧ t.dev.stk.aligned = stk.aligned ∧ t.dev.stk.r = stk.r ∧
      t.dev.stk.b0 = stk.b0) ∧
    (stk.running = true → stk.lock ≠ 0 → stk.aligned = true →
      src = 2 ∨ src = 3 → ∃ t, exec .missing s = .next t ∧
        t.dev.stk.good = 0 ∧ t.dev.stk.lock = (if stk.lock = 2 then 3 else stk.lock) ∧
        t.dev.reg Reg.STK_MISSING_CNT = min (s.dev.reg Reg.STK_MISSING_CNT + 1) 0xFFFFFFFF ∧
        t.dev.flag Reg.STK_EVENT Fld.STK_EVENT_MISSING = true) ∧
    (stk.running = false ∨ stk.lock = 0 ∨ stk.aligned = false ∨ src ≠ 2 ∧ src ≠ 3 → ∃ t, exec .missing s = .next t ∧
      Dev.OnlyRegs s.dev t.dev []) ∧
    (stk.lock = 1 → s.dev.fld Reg.STK_LOCK Fld.STK_LOCK_ACQ_LIMIT ≠ 0 → s.dev.fld Reg.STK_LOCK Fld.STK_LOCK_ACQ_LIMIT ≤ stk.acqFrames →
      ∃ t, exec .acqTimeout s = .next t ∧ t.dev.stk.lock = 3 ∧ t.dev.stk.viaAcq = true ∧
        t.dev.flag Reg.STK_EVENT Fld.STK_EVENT_ACQ_TIMEOUT = true ∧ t.dev.bel = (s.dev.raise 0x4006).bel) ∧
    (stk.lock ≠ 1 → ∃ t, exec .acqTimeout s = .next t ∧ Dev.OnlyRegs s.dev t.dev []) ∧
    (∀ v : Word, s.dev.access Reg.STK_SRC = .normal Reg.STK_SRC →
      (s.dev.sourceAllowed v.toNat = false → ∃ t, exec (.stkSrc v) s = .next t ∧ Dev.Refused s.dev t.dev Reg.STK_BLKID 8 ∧
        Dev.OnlyRegs s.dev t.dev [Reg.STK_REFUSED, Reg.STK_REFUSED_CNT]) ∧
      (s.dev.sourceAllowed v.toNat = true → ∃ t, exec (.stkSrc v) s = .next t ∧
        t.dev.fld Reg.STK_SRC Fld.STK_SRC_SRC = v.toNat % 8 ∧
        (v.toNat % 8 = 0 → src ≠ 0 → t.dev.stk.lock = 0) ∧
        (stk.lock ≤ 3 → v.toNat % 8 ≠ 0 → src ≠ v.toNat % 8 →
          t.dev.stk.lock = (if stk.lock = 1 then 1 else 3) ∧ (stk.lock = 1 → t.dev.stk.aligned = false) ∧
          (stk.lock ≠ 1 → t.dev.stk.good = 0))))

/-- REFRAME (R100, R102, R103, Tables 4.5 and 4.6): refused while one is pending or settling (1), in Doze (6), on a lodger (7), on a paired
secondary (12) or for a bad table (2); an accepted one waits for its boundary and ends Lull; there the shadows become live, stroke
numbering goes on, or takes the number that the steward's or the primary's REFRAME gives (R311, R342), at phase 0, and the lock state begins
again; it is done at `tᵣ`. That a tick whose time has come to the boundary
performs the take-effect is the model's choice (log 34), and so is the place of the numbering of a REFRAME from elsewhere (log 42). -/
def Obligations.ReframeReplacesTheTiming : Prop :=
  ∀ s : State,
    let stk := s.dev.stk
    (s.dev.access Reg.STK_CTRL = .normal Reg.STK_CTRL →
      (∀ reason, reason = (if s.dev.secondaryPaired then 12 else if 2 ≤ stk.timing then 1 else if s.dev.sdp.power = 2 then 6
          else if s.dev.wb.hierarchy = 2 then 7 else if s.dev.shadowTiming.valid = false then 2 else 0) → reason ≠ 0 →
        ∃ t, exec .reframe s = .next t ∧ Dev.Refused s.dev t.dev Reg.STK_BLKID reason ∧
          Dev.OnlyRegs s.dev t.dev [Reg.STK_REFUSED, Reg.STK_REFUSED_CNT]) ∧
      (s.dev.secondaryPaired = false → s.dev.reframeRefusal = none → ∃ t b, exec .reframe s = .next t ∧ t.dev.stk.timing = 2 ∧
        t.dev.stk.reframe = some b ∧ t.dev.sdp.power ≠ 1 ∧ t.dev.stk.running = stk.running ∧ t.dev.live = s.dev.live)) ∧
    (∀ b, stk.reframe = some b → s.dev.reframeNext = true → ∀ c dep, c = .reframeTakesEffect dep ∨ c = .tick dep → ∃ t, exec c s = .next t ∧
      t.dev.live = s.dev.shadowTiming ∧ t.dev.stk.timing = 3 ∧ t.dev.stk.running = true ∧ t.dev.stk.reframe = none ∧
      t.dev.stk.b0 = b ∧ t.dev.stk.phase = 0 ∧ t.dev.stk.stroke = (stk.given.getD (stk.stroke + 1)) % 2 ^ 48 ∧
      t.dev.stk.s1 = t.dev.stk.stroke ∧ t.dev.stk.lock = (if s.dev.fld Reg.STK_SRC Fld.STK_SRC_SRC = 0 then 0 else 1)) ∧
    (∀ dep, stk.reframe = none → ∃ t, exec (.reframeTakesEffect dep) s = .next t ∧
      Dev.OnlyRegs { s.dev with trk := { s.dev.trk with departure := dep } } t.dev []) ∧
    (∀ n, stk.timing = 3 → stk.tr = some n → strokeGe stk.stroke n = true → ∃ t, exec .reframeDone s = .next t ∧ t.dev.stk.timing = 1 ∧
      t.dev.flag Reg.STK_EVENT Fld.STK_EVENT_REFRAME_DONE = true ∧
      t.dev.reg Reg.STK_REFRAME_CNT = min (s.dev.reg Reg.STK_REFRAME_CNT + 1) 0xFFFFFFFF) ∧
    (stk.timing ≠ 3 ∨ stk.tr = none → ∃ t, exec .reframeDone s = .next t ∧ Dev.OnlyRegs s.dev t.dev [])

/-- Time of day, time code and capturing reads (R94, R99, R105, R172): a TOD step adds its signed seconds and nanoseconds, or is refused with
TOD_RANGE, code 10; a good LTC frame is the record, with the stroke in progress at its bit 0 and the offset from that stroke's tick, and a
bad one counts as dropped; a read of a capturing register returns its word and captures all its companions, and changes nothing else. -/
def Obligations.CapturingReadsTakeTheirCompanions : Prop :=
  ∀ s : State, s.dev.tap ≠ .extest →
    let ns := signed 32 (s.dev.reg Reg.STK_TOD_STEP_NS)
    let sec := signed 32 (s.dev.reg Reg.STK_TOD_STEP_SEC)
    (s.dev.access Reg.STK_CTRL = .normal Reg.STK_CTRL →
      (999999999 < ns.natAbs → ∃ t, exec .todStep s = .next t ∧ Dev.Refused s.dev t.dev Reg.STK_BLKID 10 ∧
        Dev.OnlyRegs s.dev t.dev [Reg.STK_REFUSED, Reg.STK_REFUSED_CNT]) ∧
      (ns.natAbs ≤ 999999999 → ∃ t, exec .todStep s = .next t ∧
        (t.dev.stk.tod : Int) = ((s.dev.stk.tod : Int) + (sec * 1000000000 + ns) * 2 ^ 40) % (2 ^ 48 * 1000000000 * 2 ^ 40) ∧
        Dev.OnlyRegs { s.dev with stk := { s.dev.stk with tod := t.dev.stk.tod } } t.dev [])) ∧
    (∀ data start rate rev, s.dev.wb.loaded = true →
      (∃ t, exec (.ltcFrame data start rate rev true) s = .next t ∧ t.dev.stk.ltc.word0 = data.toNat % 2 ^ 32 ∧
        t.dev.stk.ltc.word1 = data.toNat / 2 ^ 32 ∧ t.dev.stk.ltc.rate = rate ∧ t.dev.stk.ltc.reverse = rev ∧
        t.dev.stk.ltc.valid = true ∧ (∀ n time, s.dev.stk.ticks.find? (fun x => x.2 ≤ start) = some (n, time) →
          t.dev.stk.ltc.stroke = n ∧ t.dev.stk.ltc.offset = (start - time) % 2 ^ 26) ∧ t.dev.bel = (s.dev.raise 0x4005).bel ∧
        Dev.OnlyBell { s.dev with free := t.dev.free, stk := { s.dev.stk with ltc := t.dev.stk.ltc } } t.dev []) ∧
      (∃ t, exec (.ltcFrame data start rate rev false) s = .next t ∧ t.dev.flag Reg.STK_EVENT Fld.STK_EVENT_LTC_DROP = true ∧
        t.dev.reg Reg.STK_LTC_DROP_CNT = min (s.dev.reg Reg.STK_LTC_DROP_CNT + 1) 0xFFFFFFFF ∧
        Dev.OnlyRegs s.dev t.dev [Reg.STK_EVENT, Reg.STK_LTC_DROP_CNT])) ∧
    (s.dev.access Reg.STK_STROKE_LO = .normal Reg.STK_STROKE_LO → s.dev.stk.stroke < 2 ^ 48 → s.dev.stk.cframe < 2 ^ 48 →
      s.dev.stk.phase < 16 →
      ∃ t, exec (.capturingRegisterRead 0) s = .next t ∧ t.dev.out = [.completion (BitVec.ofNat 32 (s.dev.stk.stroke % 2 ^ 32))] ∧
        t.dev.reg Reg.STK_STROKE_HI = s.dev.stk.stroke / 2 ^ 32 ∧ t.dev.reg Reg.STK_CFRAME_LO = s.dev.stk.cframe % 2 ^ 32 ∧
        t.dev.reg Reg.STK_CFRAME_HI = s.dev.stk.cframe / 2 ^ 32 ∧ t.dev.reg Reg.STK_POSITION = s.dev.stk.phase ∧
        Dev.OnlyRegs s.dev t.dev [Reg.STK_STROKE_HI, Reg.STK_CFRAME_LO, Reg.STK_CFRAME_HI, Reg.STK_POSITION]) ∧
    (s.dev.access Reg.STK_TOD_NS = .normal Reg.STK_TOD_NS → ∃ t, exec (.capturingRegisterRead 1) s = .next t ∧
      t.dev.out = [.completion (BitVec.ofNat 32 (s.dev.stk.tod / 2 ^ 40 % 1000000000))] ∧
      t.dev.reg Reg.STK_TOD_SEC_LO = s.dev.stk.tod / 2 ^ 40 / 1000000000 % 2 ^ 32 ∧
      t.dev.reg Reg.STK_TOD_SEC_HI = s.dev.stk.tod / 2 ^ 40 / 1000000000 % 2 ^ 48 / 2 ^ 32 ∧
      Dev.OnlyRegs s.dev t.dev [Reg.STK_TOD_SEC_LO, Reg.STK_TOD_SEC_HI]) ∧
    (s.dev.access Reg.STK_LTC_WORD0 = .normal Reg.STK_LTC_WORD0 → s.dev.stk.ltc.word1 < 2 ^ 32 → s.dev.stk.ltc.stroke < 2 ^ 48 →
      s.dev.stk.ltc.offset < 2 ^ 26 → s.dev.stk.ltc.rate < 4 → ∃ t,
      exec (.capturingRegisterRead 2) s = .next t ∧ t.dev.out = [.completion (BitVec.ofNat 32 s.dev.stk.ltc.word0)] ∧
      t.dev.reg Reg.STK_LTC_WORD1 = s.dev.stk.ltc.word1 ∧ t.dev.reg Reg.STK_LTC_STROKE_LO = s.dev.stk.ltc.stroke % 2 ^ 32 ∧
      t.dev.reg Reg.STK_LTC_STROKE_HI = s.dev.stk.ltc.stroke / 2 ^ 32 ∧ t.dev.reg Reg.STK_LTC_OFFSET = s.dev.stk.ltc.offset ∧
      t.dev.fld Reg.STK_LTC_STATUS Fld.STK_LTC_STATUS_RATE = s.dev.stk.ltc.rate ∧
      t.dev.flag Reg.STK_LTC_STATUS Fld.STK_LTC_STATUS_REVERSE = s.dev.stk.ltc.reverse ∧
      t.dev.flag Reg.STK_LTC_STATUS Fld.STK_LTC_STATUS_VALID = s.dev.stk.ltc.valid ∧
      Dev.OnlyRegs s.dev t.dev
        [Reg.STK_LTC_WORD1, Reg.STK_LTC_STROKE_LO, Reg.STK_LTC_STROKE_HI, Reg.STK_LTC_OFFSET, Reg.STK_LTC_STATUS]) ∧
    (s.dev.access Reg.PRT_DEAL_STROKE_LO = .normal Reg.PRT_DEAL_STROKE_LO → s.dev.prt.dealStroke < 2 ^ 48 → ∃ t,
      exec (.capturingRegisterRead 3) s = .next t ∧
      t.dev.out = [.completion (BitVec.ofNat 32 (s.dev.prt.dealStroke % 2 ^ 32))] ∧
      t.dev.reg Reg.PRT_DEAL_STROKE_HI = s.dev.prt.dealStroke / 2 ^ 32 ∧ t.dev.reg Reg.PRT_DEAL_COUNT = s.dev.prt.dealCount % 2 ^ 18 ∧
      Dev.OnlyRegs s.dev t.dev [Reg.PRT_DEAL_STROKE_HI, Reg.PRT_DEAL_COUNT]) ∧
    (s.dev.access Reg.PRT_DONE_STROKE_LO = .normal Reg.PRT_DONE_STROKE_LO → s.dev.prt.doneStroke < 2 ^ 48 → ∃ t,
      exec (.capturingRegisterRead 4) s = .next t ∧
      t.dev.out = [.completion (BitVec.ofNat 32 (s.dev.prt.doneStroke % 2 ^ 32))] ∧
      t.dev.reg Reg.PRT_DONE_STROKE_HI = s.dev.prt.doneStroke / 2 ^ 32 ∧ Dev.OnlyRegs s.dev t.dev [Reg.PRT_DONE_STROKE_HI]) ∧
    (s.dev.access Reg.FLP_LAST_LO = .normal Reg.FLP_LAST_LO → s.dev.flp.last < 2 ^ 48 → ∃ t,
      exec (.capturingRegisterRead 5) s = .next t ∧ t.dev.out = [.completion (BitVec.ofNat 32 (s.dev.flp.last % 2 ^ 32))] ∧
      t.dev.reg Reg.FLP_LAST_HI = s.dev.flp.last / 2 ^ 32 ∧ Dev.OnlyRegs s.dev t.dev [Reg.FLP_LAST_HI])

/-! ### Porters, repairs, checks of memory -/

/-- Porters (R157 to R159, R161, R162, R169, R277, R290, R293, R296). The command PARCEL_START completes: a porter without priority entries
starts its next parcel, whatever the check of its satchel's word found. LIFT completes: a porter with no unstarted parcel, be it composing
one or not, takes the later half of the victim's unstarted parcels, and counts. PARCEL_COMPOSED completes: the parcel is sealed with the PCV
of its pixels, or suffers a seal failure that asks for a recomposition, or stalls where blocks that it reads fail; its pixels lie at their
places in the slot of its stroke, or in staging (R161, R162); one that needs a damaged control word is unrecoverable and logged with KIND 12
(R296); an audit that agrees changes no parcel. PARCEL_ABANDON completes: a parcel of a withdrawn or abandoned stroke is given up, and so is
one whose tables have left use (the model's choice, log 39). STROKE_LATE completes: a stroke with a parcel that no porter has composed is
recorded late once and raised. A porter that does not compose does nothing. That lifted parcels are not lifted again is the model's choice
(log 16). -/
def Obligations.PortersComposeLiftAndSeal : Prop :=
  ∀ (s : State) (p : Fin 256),
    let e := s.dev
    (∀ r q ecc list, e.composes = true → e.halted p = false → e.sdp.power ≠ 1 → (∀ j ∈ e.prt.jobs, j.porter ≠ some p.val) →
      e.inProgress p = none → e.nextParcel p = some (r, q) → e.parcel r.stroke q.region q.number = some q →
      ∃ t, exec (.parcelStart p ecc list) s = .next t ∧
        t.dev.parcel r.stroke q.region q.number = some { q with st := .running } ∧ p.val ∉ t.dev.prt.lifting ∧
        (∀ x g n, (x, g, n) ≠ (r.stroke, q.region, q.number) → t.dev.parcel x g n = e.parcel x g n) ∧
        (ecc = .good → list = .good → Dev.OnlyRegs { e with prt := t.dev.prt } t.dev [Reg.MEM_STATUS]) ∧
        (ecc = .bad → t.dev.reg Reg.DEP_SECDED_UNCORR_CNT = min (e.reg Reg.DEP_SECDED_UNCORR_CNT + 1) 0xFFFFFFFF)) ∧
    (∀ (v i n : Nat) (r : StrokeRun), e.composes = true → e.halted p = false → e.sdp.power ≠ 1 →
      (∀ x ∈ e.prt.strokes, x.unstarted p = []) → (e.tiers p).findSome? e.victim = some (v, i, n) → e.prt.strokes[i]? = some r → v < 256 →
      let later := (r.liftable v).drop ((r.liftable v).length / 2)
      ∃ t, exec (.lift p) s = .next t ∧ p.val ∈ t.dev.prt.lifting ∧
        t.dev.prt.strokes = e.prt.strokes.set i { r with
          parcels := r.parcels.map fun q => if later.contains q then { q with porter := p, lifted := true } else q } ∧
        t.dev.reg Reg.PRT_LIFT_CNT = min (e.reg Reg.PRT_LIFT_CNT + 1) 0xFFFFFFFF ∧
        t.dev.reg (Reg.PRT_PW_LIFT_CNT p) = min (e.reg (Reg.PRT_PW_LIFT_CNT p) + 1) 0xFFFFFFFF ∧
        t.dev.reg (Reg.PRT_PW_LIFTED_CNT v) = min (e.reg (Reg.PRT_PW_LIFTED_CNT v) + later.length) 0xFFFFFFFF ∧
        Dev.OnlyRegs { e with prt := t.dev.prt } t.dev
          [Reg.PRT_LIFT_CNT, Reg.PRT_PW_LIFT_CNT p, Reg.PRT_PW_LIFTED_CNT v, Reg.PRT_LIFT_XHALF_CNT, Reg.PRT_PW_BUSY_CNT p]) ∧
    (∀ r q bad err, e.composes = true → e.halted p = false → e.jobOf p = none → e.inProgress p = some (r, q) → r.withdrawn = false →
      r.abandoned = false → e.tablesGone r q = false → q.st = .running → e.parcel r.stroke q.region q.number = some q →
      let fails := e.failing (e.inputBlocks r q) bad
      let px := e.composed r q err
      (∀ ok, r.needsLost q = true → ∃ t ws rest, exec (.parcelComposed p ok bad 0 err) s = .next t ∧
        t.dev.parcel r.stroke q.region q.number = some { q with st := .unrecoverable } ∧
        (e.paired = false → t.dev.reg Reg.DEP_UNRECOV_CNT = min (e.reg Reg.DEP_UNRECOV_CNT + 1) 0xFFFFFFFF) ∧
        (e.paired = false → bit (e.reg Reg.DEP_LOG_RING) 31 = false → t.dev.depLogged = ws :: rest ∧ ws.getD 0 0 % 2 ^ 12 = 12 ∧ ws.getD 3 0 = q.number % 2 ^ 32)) ∧
      (∀ ok, r.needsLost q = false → fails ≠ [] → ∃ t, exec (.parcelComposed p ok bad 0 err) s = .next t ∧
        t.dev.parcel r.stroke q.region q.number = some { q with st := .stalled } ∧
        t.dev.ladders.length = e.ladders.length + fails.length ∧
        (∀ b ∈ fails, ∃ l ∈ t.dev.ladders, l.block = b ∧ l.stroke = r.stroke ∧ l.region = q.region ∧ l.parcel = q.number) ∧
        t.dev.mem = e.mem ∧ t.dev.staging = e.staging) ∧
      (r.needsLost q = false → fails = [] → ∃ t q', exec (.parcelComposed p true bad 0 err) s = .next t ∧
        t.dev.parcel r.stroke q.region q.number = some q' ∧ q'.st = .sealed ∧ q'.composed = true ∧ q'.pcv = pcvOf r q px ∧
        t.dev.reg (Reg.PRT_PW_DONE_CNT p) = min (e.reg (Reg.PRT_PW_DONE_CNT p) + 1) 0xFFFFFFFF) ∧
      (r.needsLost q = false → fails = [] → ∃ t, ∃ j ∈ t.dev.prt.jobs, exec (.parcelComposed p false bad 0 err) s = .next t ∧
        t.dev.parcel r.stroke q.region q.number = some { q with st := .sealFailed, composed := true } ∧
        t.dev.prt.jobs.length = e.prt.jobs.length + 1 ∧ j.kind = .seal1 ∧ j.stroke = r.stroke ∧ j.region = q.region ∧ j.number = q.number ∧
        t.dev.reg Reg.DEP_SEAL_FAIL_CNT = min (e.reg Reg.DEP_SEAL_FAIL_CNT + 1) 0xFFFFFFFF) ∧
      (∀ ok, r.needsLost q = false → fails = [] → bad = [] → e.damaged = [] → e.weak = [] →
        r.writes.find? (·.1 == q.stack) = none → bit (e.reg Reg.DEP_LOG_RING) 31 = false → q.x + q.w ≤ e.wb.canvasW →
        ∃ t, exec (.parcelComposed p ok bad 0 err) s = .next t ∧ ∀ a b j, a < q.w → b < q.h → j < 6 →
          let place := ((q.y + b) * e.wb.canvasW + q.x + a) * 6 + j
          let v := (px.getD (b * q.w + a) []).getD j 0
          let slot := e.storeBase + r.stroke % (r.lead + 1) * (e.wb.canvasW * e.wb.canvasH) * 6
          (r.racing = true → t.dev.staging.get memDefault place = v) ∧ (r.racing = false → t.dev.memByte (slot + place) = v))) ∧
    (∀ j r q bad err ok, e.composes = true → e.halted p = false → e.jobOf p = some j → j.stalled = false → j.kind = .audit →
      e.runOf j.stroke = some r → e.parcel j.stroke j.region j.number = some q → e.tablesGone r q = false → r.needsLost q = false →
      e.failing (e.inputBlocks r q) bad = [] → pcvOf r q (e.composed r q err) = q.pcv →
      ∃ t, exec (.parcelComposed p ok bad 0 err) s = .next t ∧
        t.dev.reg Reg.DEP_AUDIT_CNT = min (e.reg Reg.DEP_AUDIT_CNT + 1) 0xFFFFFFFF ∧
        t.dev.reg (Reg.PRT_PW_RECOMP_CNT p) = min (e.reg (Reg.PRT_PW_RECOMP_CNT p) + 1) 0xFFFFFFFF ∧
        (∀ x g n, t.dev.parcel x g n = e.parcel x g n) ∧ t.dev.mem = e.mem ∧ t.dev.staging = e.staging) ∧
    (e.composes = false ∨ e.halted p = true → ∀ c, c = .lift p ∨ (∃ ecc list, c = .parcelStart p ecc list) ∨
      (∃ ok bad n err, c = .parcelComposed p ok bad n err) ∨ (∃ ecc, c = .recomposeStart p ecc ∨ c = .auditStart p ecc) →
      ∃ t, exec c s = .next t ∧ Dev.OnlyRegs e t.dev []) ∧
    (∀ r q, e.inProgress p = some (r, q) →
      (r.withdrawn = true ∨ r.abandoned = true ∨ e.tablesGone r q = true → ∃ t r' q', exec (.parcelAbandon p) s = .next t ∧
        r' ∈ t.dev.prt.strokes ∧ r'.stroke = r.stroke ∧ q' ∈ r'.parcels ∧ q'.region = q.region ∧ q'.number = q.number ∧
        q'.st = .abandoned ∧ Dev.OnlyBell { e with prt := t.dev.prt } t.dev []) ∧
      (r.withdrawn = false → r.abandoned = false → e.tablesGone r q = false →
        ∃ t, exec (.parcelAbandon p) s = .next t ∧ Dev.OnlyRegs e t.dev [])) ∧
    (e.inProgress p = none → ∃ t, exec (.parcelAbandon p) s = .next t ∧ Dev.OnlyRegs e t.dev []) ∧
    (∀ region : Fin 4,
      let due := fun r : StrokeRun => !r.withdrawn && !r.abandoned && !r.late.contains region.val &&
        r.parcels.any fun q => q.region == region.val && !q.composed
      (∀ r, e.prt.strokes.find? due = some r → ∃ t r', exec (.strokeLate region) s = .next t ∧
        t.dev.runOf r.stroke = some r' ∧ region.val ∈ r'.late ∧ t.dev.flag Reg.PRT_EVENT Fld.PRT_EVENT_LATE = true ∧
        t.dev.reg Reg.PRT_LATE_CNT = min (e.reg Reg.PRT_LATE_CNT + 1) 0xFFFFFFFF ∧ t.dev.bel = (e.raise 0x4201).bel ∧
        Dev.OnlyBell { e with prt := t.dev.prt } t.dev [Reg.PRT_EVENT, Reg.PRT_LATE_CNT]) ∧
      (e.prt.strokes.find? due = none → ∃ t, exec (.strokeLate region) s = .next t ∧ Dev.OnlyRegs e t.dev []))

/-- Recompositions, audits and ladders (R287, R290, R292, R299, Table 12.2). RECOMPOSE_START and AUDIT_START complete: the oldest
recomposition in a porter's entries starts, or the oldest audit where no recomposition waits there, whatever the check of its entry found.
AUDIT_DROP completes: an audit past its need time is dropped and counted. REREAD completes: one that passes ends its ladder, whose entry of
the error log has its KIND and OUTCOME 1; one that fails asks the twin where the twin may repair, and else damages the block.
TWIN_REPAIR_TIMEOUT completes: a twin repair that brings nothing ends its ladder the same way. -/
def Obligations.LaddersAndAuditsRunToTheirEnds : Prop :=
  ∀ s : State,
    let e := s.dev
    (∀ (p : Fin 256) (audit : Bool) (ecc : Ecc),
      let mine := e.prt.jobs.filter fun j => j.porter == some p.val
      (∀ j, e.composes = true → e.halted p = false → (∀ i ∈ mine, i.started = false ∧ (audit = true → i.kind.isAudit = true)) →
        mine.find? (·.kind.isAudit == audit) = some j →
        ∃ t, exec (if audit then .auditStart p ecc else .recomposeStart p ecc) s = .next t ∧
          t.dev.jobOf p = some { j with started := true } ∧
          (ecc = .good → Dev.OnlyRegs { e with prt := t.dev.prt } t.dev []) ∧
          (ecc = .bad → t.dev.reg Reg.DEP_SECDED_UNCORR_CNT = min (e.reg Reg.DEP_SECDED_UNCORR_CNT + 1) 0xFFFFFFFF)) ∧
      (mine.find? (·.kind.isAudit == audit) = none → ∃ t, exec (if audit then .auditStart p ecc else .recomposeStart p ecc) s = .next t ∧
        Dev.OnlyRegs e t.dev [])) ∧
    (∀ (stroke : Nat) (region : Fin 4) (number : Nat),
      let mine := fun j : Job => j.kind.isAudit && !j.started && j.stroke == stroke && j.region == region.val && j.number == number
      (∀ j, e.prt.jobs.find? mine = some j → ∃ t, exec (.auditDrop stroke region number) s = .next t ∧
        t.dev.prt.jobs.length + 1 = e.prt.jobs.length ∧
        t.dev.reg Reg.DEP_AUDIT_DROP_CNT = min (e.reg Reg.DEP_AUDIT_DROP_CNT + 1) 0xFFFFFFFF ∧
        Dev.OnlyRegs { e with prt := t.dev.prt } t.dev [Reg.DEP_AUDIT_DROP_CNT]) ∧
      (e.prt.jobs.find? mine = none → ∃ t, exec (.auditDrop stroke region number) s = .next t ∧ Dev.OnlyRegs e t.dev [])) ∧
    (∀ (block : Nat) (staging : Bool),
      let mine := fun l : Ladder => l.block == block && l.staging == staging && !l.twin
      (∀ l, e.ladders.find? mine = some l →
        (∃ t ws, exec (.reread block staging true) s = .next t ∧ t.dev.ladders = e.ladders.erase l ∧
          (bit (e.reg Reg.DEP_LOG_RING) 31 = false →
            t.dev.reg Reg.DEP_REREAD_OK_CNT = min (e.reg Reg.DEP_REREAD_OK_CNT + 1) 0xFFFFFFFF ∧ t.dev.damaged = e.damaged ∧
            t.dev.depLogged = (ws :: e.depLogged).take 524288 ∧ ws.getD 0 0 % 2 ^ 12 = (if l.reader.isSome then 1 else l.kind % 2 ^ 8) + 2 ^ 8 ∧
            ws.getD 7 0 = e.reg Reg.DEP_LOG_COUNT ∧ t.dev.reg Reg.DEP_LOG_COUNT = (e.reg Reg.DEP_LOG_COUNT + 1) % 2 ^ 32)) ∧
        (staging = false → e.repairable block = true → ∃ t, exec (.reread block false false) s = .next t ∧
          t.dev.ladders = e.ladders.map (fun m => if m == l then { m with twin := true } else m) ∧
          block ∈ t.dev.damaged ∧ t.dev.twn.txSeq = (e.twn.txSeq + 1) % 2 ^ 32) ∧
        (staging = false → e.repairable block = false → ∃ t, exec (.reread block false false) s = .next t ∧
          t.dev.ladders.length < e.ladders.length ∧ block ∈ t.dev.damaged ∧
          t.dev.reg Reg.DEP_TWIN_REPAIR_FAIL_CNT = min (e.reg Reg.DEP_TWIN_REPAIR_FAIL_CNT + 1) 0xFFFFFFFF) ∧
        (staging = true → ∃ t, exec (.reread block true false) s = .next t ∧
          t.dev.ladders.length < e.ladders.length ∧ block ∈ t.dev.stagingDamaged)) ∧
      (e.ladders.find? mine = none → ∀ ok, ∃ t, exec (.reread block staging ok) s = .next t ∧ Dev.OnlyRegs e t.dev [])) ∧
    (∀ block : Nat,
      let asked := e.ladders.filter fun l => l.block == block && l.twin && !l.staging
      (∀ l, asked = [l] → ∃ t, exec (.twinRepairTimeout block) s = .next t ∧ l ∉ t.dev.ladders ∧
        t.dev.reg Reg.DEP_TWIN_REPAIR_FAIL_CNT = min (e.reg Reg.DEP_TWIN_REPAIR_FAIL_CNT + 1) 0xFFFFFFFF) ∧
      (asked = [] → ∃ t, exec (.twinRepairTimeout block) s = .next t ∧ Dev.OnlyRegs e t.dev []))

/-- Scrub, power-down and the log's index (R297 to R299, Table 12.9). SCRUB_READ completes: a pass reads each block in order, passing over
STROKE partitions, begins a ladder of kind 10 for one that fails, and ends at the end of memory with SCRUB_DONE; `SCRUB_HOURS` 0 holds it.
MEM_POWER_DOWN and MEM_POWER_UP complete: a controller powers down where it may, and counts. LOG_INDEX completes: `DEP_LOG_INDEX` shows its
entry, and one already overwritten with `KIND` 0, which the model shows as zeros in all words. A block of the log whose check fails counts
and is an entry of the log itself: KIND 8, with OUTCOME 1 where its re-read passes and 0 where it fails too, and UNIT the stack of the
block, whose failed reads MEM_FAIL_CNT counts; DEP_LOG_COUNT numbers the entries, and each raises 0x4300, after 0x4303 where the block stays
damaged (R301). Which stack holds a block of reserved memory is free (log 53). An entry that cannot be read shows `KIND` 0 and keeps its
other bits, which is the model's choice (log 35). -/
def Obligations.MemoryIsScrubbedAndPoweredDown : Prop :=
  ∀ s : State,
    let e := s.dev
    let holds := fun (x : Nat) (q : Part) => q.kind == 4 && q.base * partUnit ≤ x * 256 && x * 256 < (q.base + q.size) * partUnit
    let leads := fun x y : Nat => e.wb.parts.find? (holds x) = none ∧ y = x ∨
      ∃ q, e.wb.parts.find? (holds x) = some q ∧ y = (q.base + q.size) * partUnit / 256 ∧ e.wb.parts.find? (holds y) = none
    (∀ fails b n, e.fld Reg.DEP_CTRL Fld.DEP_CTRL_SCRUB_HOURS ≠ 0 → e.loaded = true → e.sdp.power ≠ 3 → e.boot.flush = false →
      leads (e.scrub.getD 0) b → b * 256 < memEnd → leads (b + 1) n → ∃ t, exec (.scrubRead fails) s = .next t ∧
        (n * 256 < memEnd → t.dev.scrub = some n ∧ t.dev.flag Reg.DEP_STATUS Fld.DEP_STATUS_SCRUB_ACTIVE = true) ∧
        (memEnd ≤ n * 256 → t.dev.scrub = none ∧ t.dev.flag Reg.DEP_STATUS Fld.DEP_STATUS_SCRUB_ACTIVE = false ∧
          t.dev.flag Reg.DEP_EVENT Fld.DEP_EVENT_SCRUB_DONE = true ∧ t.dev.bel = (e.raise 0x4305).bel) ∧
        (fails = false → e.isDamaged b = false → t.dev.ladders = e.ladders) ∧
        (fails = true ∨ e.isDamaged b = true → t.dev.reg Reg.DEP_BLOCK_FAIL_CNT = min (e.reg Reg.DEP_BLOCK_FAIL_CNT + 1) 0xFFFFFFFF ∧
          ∃ l, t.dev.ladders = e.ladders ++ [l] ∧ l.kind = 10 ∧ l.block = b) ∧
        t.dev.mem = e.mem ∧ t.dev.damaged = e.damaged) ∧
    (∀ fails, e.fld Reg.DEP_CTRL Fld.DEP_CTRL_SCRUB_HOURS = 0 → ∃ t, exec (.scrubRead fails) s = .next t ∧ Dev.OnlyRegs e t.dev []) ∧
    (∀ c : Fin 8,
      (e.boot.mem = true → e.sdp.power ≠ 3 → e.flag Reg.MEM_PD_CTRL Fld.MEM_PD_CTRL_EN = true → e.slackAllows = true →
        bit (e.reg Reg.MEM_STATUS) c = false → ∃ t, exec (.memPowerDown c) s = .next t ∧ bit (t.dev.reg Reg.MEM_STATUS) c = true ∧
          (∀ i, i ≠ c.val → bit (t.dev.reg Reg.MEM_STATUS) i = bit (e.reg Reg.MEM_STATUS) i) ∧
          t.dev.reg (Reg.MEM_PD_CNT c) = min (e.reg (Reg.MEM_PD_CNT c) + 1) 0xFFFFFFFF ∧
          Dev.OnlyRegs e t.dev [Reg.MEM_STATUS, Reg.MEM_PD_CNT c]) ∧
      (e.boot.mem = false ∨ e.sdp.power = 3 ∨ e.flag Reg.MEM_PD_CTRL Fld.MEM_PD_CTRL_EN = false ∨ e.slackAllows = false ∨ bit (e.reg Reg.MEM_STATUS) c = true →
        ∃ t, exec (.memPowerDown c) s = .next t ∧ Dev.OnlyRegs e t.dev []) ∧
      (∃ t, exec (.memPowerUp c) s = .next t ∧ bit (t.dev.reg Reg.MEM_STATUS) c = false ∧
        (∀ i, i ≠ c.val → bit (t.dev.reg Reg.MEM_STATUS) i = bit (e.reg Reg.MEM_STATUS) i) ∧ Dev.OnlyRegs e t.dev [Reg.MEM_STATUS])) ∧
    (∀ (v : Word) (bad again : Bool), e.access Reg.DEP_LOG_INDEX = .normal Reg.DEP_LOG_INDEX →
      ∃ t ws, exec (.logIndex v bad again) s = .next t ∧ t.dev.reg Reg.DEP_LOG_INDEX = v.toNat ∧
        (∀ k < 8, t.dev.reg (Reg.DEP_LOG_DATA k) =
          (((t.dev.depLogged.find? fun ws => ws.getD 7 0 == v.toNat).map (·.getD k 0)).getD 0) % 2 ^ 32) ∧
        (bad = false → again = false →
          Dev.OnlyRegs e t.dev (Reg.DEP_LOG_INDEX :: Reg.MEM_STATUS :: (List.range 8).map Reg.DEP_LOG_DATA)) ∧
        (bad = true ∨ again = true → bit (e.reg Reg.DEP_LOG_RING) 31 = false →
          let stack := reservedStack contentLogs (v.toNat % 524288 / 8)
          let kept := if bad then e.depLogged.map fun x => if x.getD 7 0 == v.toNat then x.set 0 (x.getD 0 0 / 256 * 256) else x
            else e.depLogged
          t.dev.depLogged = (ws :: kept).take 524288 ∧ ws.getD 0 0 = 8 + (if bad then 0 else 2 ^ 8) + stack * 2 ^ 16 ∧
          ws.getD 7 0 = e.reg Reg.DEP_LOG_COUNT ∧ t.dev.reg Reg.DEP_LOG_COUNT = (e.reg Reg.DEP_LOG_COUNT + 1) % 2 ^ 32 ∧
          t.dev.reg Reg.DEP_BLOCK_FAIL_CNT = min (e.reg Reg.DEP_BLOCK_FAIL_CNT + 1) 0xFFFFFFFF ∧
          t.dev.reg (Reg.MEM_FAIL_CNT stack) = min (e.reg (Reg.MEM_FAIL_CNT stack) + if bad then 2 else 1) 0xFFFFFFFF ∧
          t.dev.bel = ((if bad then e.raise 0x4303 else e).raise 0x4300).bel ∧
          (bad = true → v.toNat ≠ e.reg Reg.DEP_LOG_COUNT → t.dev.reg (Reg.DEP_LOG_DATA 0) % 2 ^ 8 = 0)))

/-! ### Flips and fences -/

/-- Fences and plates (R174, R176, R193, R312). A write of a fence takes effect only where it advances it, and else is refused with code 1;
a wait that its fence has satisfied before its LIMIT completes DONE, and one whose LIMIT has passed first FENCE_TIMEOUT; a commit of a plate
ring moves WRITE to the next frame, and is refused where the ring is off or its writer is a stream context. A paired secondary drops host
writes. -/
def Obligations.FencesAdvanceAndWaitsComplete : Prop :=
  ∀ s : State,
    let e := s.dev
    let quiet := fun r : Nat => e.ringHost r = true ∨ e.weak = [] ∧ (e.damaged = [] ∨ bit (e.reg Reg.DEP_LOG_RING) 31 = false)
    (∀ (f : Fin 1024) (v : Word), e.access (Reg.FLP_FENCE f) = .normal (Reg.FLP_FENCE f) →
      let step := (v.toNat + 2 ^ 32 - e.reg (Reg.FLP_FENCE f)) % 2 ^ 32
      (e.secondaryPaired = false → e.primaryPaired = false → e.flp.queue = [] ∨ e.stk.timing ≠ 0 → 1 ≤ step → step < 2 ^ 31 →
        ∃ t, exec (.fenceWrite f v) s = .next t ∧ t.dev.reg (Reg.FLP_FENCE f) = v.toNat ∧
          t.dev.flp.waits = (e.flp.waits.map fun w => if !w.expired && t.dev.satisfies w.idx w.val then { w with met := true } else w) ∧
          Dev.OnlyBell { e with flp := { e.flp with waits := t.dev.flp.waits } } t.dev [Reg.FLP_FENCE f] ∧
          (bit (e.reg (Reg.FLP_FENCE_NOTIFY (f.val / 32))) (f.val % 32) = true → t.dev.bel = (e.raise (0x4110 + f.val / 64)).bel) ∧
          (bit (e.reg (Reg.FLP_FENCE_NOTIFY (f.val / 32))) (f.val % 32) = false → t.dev.bel = e.bel)) ∧
      (e.secondaryPaired = false → e.primaryPaired = false → step = 0 ∨ 2 ^ 31 ≤ step → ∃ t, exec (.fenceWrite f v) s = .next t ∧
        Dev.Refused e t.dev Reg.FLP_BLKID 1 ∧ Dev.OnlyRegs e t.dev [Reg.FLP_REFUSED, Reg.FLP_REFUSED_CNT]) ∧
      (e.secondaryPaired = true → ∃ t, exec (.fenceWrite f v) s = .next t ∧
        t.dev.reg Reg.TWN_LOCAL_DROP_CNT = min (e.reg Reg.TWN_LOCAL_DROP_CNT + 1) 0xFFFFFFFF ∧
        Dev.OnlyRegs e t.dev [Reg.TWN_LOCAL_DROP_CNT])) ∧
    (∀ (r : Fin 16384) (c : Instr) (status : Nat) (ready : FenceWaitSt → Bool),
      c = .fenceWaitDone r ∧ status = 0 ∧ ready = (fun w => !w.expired && (w.met || e.satisfies w.idx w.val)) ∨
        c = .fenceWaitTimeout r ∧ status = 7 ∧ ready = (fun w => w.expired) →
      (∀ w, e.flp.waits.find? (fun w => w.ring == r.val && ready w) = some w → w.mirrored = false → e.paired = false →
        ∃ t, exec c s = .next t ∧ t.dev.flp.waits = e.flp.waits.erase w ∧
          (quiet r → wordOf (t.dev.ringEntry r w.index) 0 = 0xCE + 5 * 2 ^ 8 + status * 2 ^ 16) ∧
          (e.ringClass r = classSubmit →
            t.dev.reg (Reg.RNG_RS_DONE_CNT r) = (e.reg (Reg.RNG_RS_DONE_CNT r) + 1) % 2 ^ 32)) ∧
      (e.flp.waits.find? (fun w => w.ring == r.val && ready w) = none → ∃ t, exec c s = .next t ∧ Dev.OnlyRegs e t.dev [])) ∧
    (∀ r : Fin 64, e.access (Reg.STL_PR_COMMIT r) = .normal (Reg.STL_PR_COMMIT r) → e.secondaryPaired = false →
      e.primaryPaired = false →
      (e.plateEn r = true → e.flag (Reg.STL_PR_CTRL r) Fld.STL_PR_CTRL_WRITER = false → ∃ t, exec (.plateCommit r) s = .next t ∧
        (t.dev.plate r).write = ((e.plate r).write + 1) % e.plateFrames r ∧ ∀ x, x ≠ r.val → t.dev.plate x = e.plate x) ∧
      (e.plateEn r = false ∨ e.flag (Reg.STL_PR_CTRL r) Fld.STL_PR_CTRL_WRITER = true → ∃ t, exec (.plateCommit r) s = .next t ∧
        Dev.Refused e t.dev Reg.STL_BLKID 2 ∧ Dev.OnlyRegs e t.dev [Reg.STL_REFUSED, Reg.STL_REFUSED_CNT]))

/-- SUBMIT rings (R178 to R181, R186, R279, Table 8.3). The blocks of the set at the front of a ring, or of its FENCE_WAIT, are tested as
FLP reads them, and what it reads is what they then hold; where each passes its check, that is what memory had, and nothing changes but
that their controllers wake (R298). A flip set whose header or target breaks its form completes MALFORMED; in Doze a
well-formed one completes STATE; one for which there is no room holds the ring with FULL until the queue has room; an accepted one
joins the queue; `CONS` passes its entries. A FENCE_WAIT that is well formed waits, and else completes MALFORMED. A displaced buffer
that has become free leaves, and writes its release fence. -/
def Obligations.FlipSetsAreReadJudgedAndQueued : Prop :=
  ∀ s : State,
    let e := s.dev
    (∀ (r : Fin 16384) (ecc : ShadowEcc), e.submitReadable r = false ∨ e.flp.full ≠ none → ∀ c, c = .flipset r ecc ∨ c = .fenceWait r →
      ∃ t, exec c s = .next t ∧ Dev.OnlyRegs e t.dev []) ∧
    (∀ r : Fin 16384,
      (e.ReadsWhole (e.entryBlocks r (e.ringCons r) (e.frontEntries r)) → Dev.OnlyRegs e (e.fetchSet r) [Reg.MEM_STATUS]) ∧
      (e.ReadsWhole (e.entryBlocks r (e.ringCons r) 1) → Dev.OnlyRegs e (e.ringFetch r 0 1) [Reg.MEM_STATUS])) ∧
    (∀ r : Fin 16384, e.submitReadable r = true → e.flp.full = none →
      let f := e.fetchSet r
      let cons := Reg.RNG_RS_CONS r
      let done := Reg.RNG_RS_DONE_CNT r
      let en := f.ringEntry r (f.ringCons r)
      let h := setHead en
      (opOf en = 1 → h.count + 1 ≤ f.unreadIn r → f.queueRoom h.count = false → ∃ t, exec (.flipset r .good) s = .next t ∧
        t.dev.flp.full = some r.val ∧ t.dev.flag Reg.FLP_EVENT Fld.FLP_EVENT_FULL = true ∧
        Dev.OnlyRegs { f with flp := t.dev.flp } t.dev [Reg.FLP_EVENT]) ∧
      (opOf en = 1 → h.count + 1 ≤ f.unreadIn r → f.queueRoom h.count = true → f.primaryPaired = false → f.sdp.power ≠ 1 →
        f.stk.timing ≠ 0 →
        let target := if h.next then f.firstLatch else h.target
        let es := f.entriesFrom r 1 h.count
        ∃ t, exec (.flipset r .good) s = .next t ∧ t.dev.reg cons = (f.reg cons + h.count + 1) % 2 ^ 32 ∧ t.dev.flp.full = none ∧
          (headGood false en = false ∨ f.readMembers es = none ∨ f.tooFar target = true → t.dev.flp.queue = f.flp.queue ∧
            t.dev.reg Reg.FLP_MALFORMED_CNT = min (f.reg Reg.FLP_MALFORMED_CNT + 1) 0xFFFFFFFF ∧
            t.dev.reg done = (f.reg done + 1) % 2 ^ 32) ∧
          (f.sdp.power = 2 → t.dev.flp.queue = f.flp.queue ∧ t.dev.reg done = (f.reg done + 1) % 2 ^ 32) ∧
          (let v := f.judgeSet (.own r (f.ringCons r)) false en es target h.deadline
           ∀ q, v.set = some q →
            t.dev.flp.queue = (f.giveSpace v.more v.gains).flp.queue ++ [{ q with ack := none }] ∧
            (v.more = [] → v.gains = [] → t.dev.flp.queue = f.flp.queue ++ [{ q with ack := none }]) ∧
            q.target = target ∧ q.tag = h.tag ∧ q.id = f.flp.nextId ∧
            t.dev.flp.nextId = f.flp.nextId + 1 ∧ t.dev.reg done = f.reg done))) ∧
    (∀ r : Fin 16384, e.submitReadable r = true → e.flp.full = none →
      let f := if opOf (e.ringEntry r (e.ringCons r)) = 5 then e.ringFetch r 0 1 else e
      let quiet := f.ringHost r = true ∨ f.weak = [] ∧ (f.damaged = [] ∨ bit (f.reg Reg.DEP_LOG_RING) 31 = false)
      let cons := Reg.RNG_RS_CONS r
      let done := Reg.RNG_RS_DONE_CNT r
      let en := f.ringEntry r (f.ringCons r)
      (opOf en = 5 → reservedClear [0xFF, 0x3FF, 0xFFFFFFFF, 0xFFFF] en = true → f.primaryPaired = false →
        ∃ t w, exec (.fenceWait r) s = .next t ∧ t.dev.flp.waits = f.flp.waits ++ [w] ∧ w.ring = r.val ∧ w.index = f.ringCons r ∧
          w.idx = wordOf en 1 ∧ w.val = wordOf en 2 ∧ w.limit = wordOf en 3 ∧ w.ticks = 0 ∧
          t.dev.reg cons = (f.reg cons + 1) % 2 ^ 32 ∧ Dev.OnlyRegs { f with flp := t.dev.flp, rings := t.dev.rings } t.dev [cons]) ∧
      (opOf en = 5 → reservedClear [0xFF, 0x3FF, 0xFFFFFFFF, 0xFFFF] en = false → ∃ t, exec (.fenceWait r) s = .next t ∧
        t.dev.flp.waits = f.flp.waits ∧
        (quiet → f.paired = false → wordOf (t.dev.ringEntry r (f.ringCons r)) 0 = 0xCE + 5 * 2 ^ 8 + 4 * 2 ^ 16) ∧
        t.dev.reg cons = (f.reg cons + 1) % 2 ^ 32 ∧ t.dev.reg done = (f.reg done + 1) % 2 ^ 32) ∧
      (opOf en ≠ 5 → ∃ t, exec (.fenceWait r) s = .next t ∧ Dev.OnlyRegs f t.dev [])) ∧
    (e.flp.full = none → ∃ t, exec .submitResume s = .next t ∧ Dev.OnlyRegs e t.dev []) ∧
    (∀ r : Fin 16384, e.flp.full = some r.val → e.submitReadable r = false → ∃ t, exec .submitResume s = .next t ∧
      Dev.OnlyRegs { e with flp := { e.flp with full := none } } t.dev []) ∧
    (∀ r : Fin 16384, e.flp.full = some r.val → e.submitReadable r = true →
      let room := e.queueRoom (setHead (e.ringEntry r (e.ringCons r))).count
      let f := e.fetchSet r
      let h := setHead (f.ringEntry r (f.ringCons r))
      (room = false → ∃ t, exec .submitResume s = .next t ∧ Dev.OnlyRegs e t.dev []) ∧
      (room = true → opOf (f.ringEntry r (f.ringCons r)) = 1 → h.count + 1 ≤ f.unreadIn r → f.queueRoom h.count = true →
        f.primaryPaired = false → f.sdp.power ≠ 1 → f.stk.timing ≠ 0 → ∃ t, exec .submitResume s = .next t ∧ t.dev.flp.full = none ∧
        t.dev.reg (Reg.RNG_RS_CONS r) = (f.reg (Reg.RNG_RS_CONS r) + h.count + 1) % 2 ^ 32)) ∧
    (e.stk.timing ≠ 0 →
      (∀ x, e.flp.displaced.find? e.bufferFree = some x → ∃ t, exec .bufferRelease s = .next t ∧
        t.dev.flp.displaced = e.flp.displaced.erase x ∧
        (x.relEn = true → x.relIdx < 1024 → e.advances x.relIdx x.relVal = true →
          t.dev.reg (Reg.FLP_FENCE x.relIdx) = x.relVal % 2 ^ 32)) ∧
      (e.flp.displaced.find? e.bufferFree = none → ∃ t, exec .bufferRelease s = .next t ∧ Dev.OnlyRegs e t.dev []))

/-! ### Coach ports and return lines -/

/-- The states of a Coach port, and its commits (R214, R217, Tables 9.9 and 9.10). EN takes a port whose PLL is locked from DOWN to TRAIN,
and back; RETRAIN begins TRAIN again and tears the crossing, and is refused with code 11 on a port that is down; after TRAIN the port runs,
or holds where a cause of HOLD stands. A commit is refused while a REFRAME is pending or settles (1), in Doze (2), and while another is
pending (3); one that passes its checks is pending, and while timing is STOPPED it is captured at once. Clearing EN tears the crossing too:
TORN latches and CPT_TORN_CNT counts (R422, Table 18.4). -/
def Obligations.CoachPortsFollowTable910 : Prop :=
  ∀ (s : State) (p : Fin 128),
    let e := s.dev
    let c := e.coach p
    let ctrl := Reg.CPT_CTRL p
    (e.secondaryPaired = false → e.primaryPaired = false → e.access (ctrl % 0x10000000) = .normal ctrl →
      (∀ v : Word, bit v.toNat 0 = true → bit v.toNat 1 = false → c.state = 0 → e.quadLocked (p.val / 4) = true →
        ∃ t, exec (.coachEn p v) s = .next t ∧ (t.dev.coach p).state = 1 ∧
          t.dev.fld (Reg.CPT_STATUS p) Fld.CPT_STATUS_STATE = 1 ∧ t.dev.flag ctrl Fld.CPT_CTRL_EN = true) ∧
      (∀ v : Word, bit v.toNat 0 = false → bit v.toNat 1 = false → e.flag ctrl Fld.CPT_CTRL_EN = true → c.state ≠ 0 →
        ∃ t, exec (.coachEn p v) s = .next t ∧ (t.dev.coach p).state = 0 ∧
          t.dev.fld (Reg.CPT_STATUS p) Fld.CPT_STATUS_STATE = 0 ∧ t.dev.flag (Reg.CPT_EVENT p) Fld.CPT_EVENT_TORN = true ∧
          t.dev.reg (Reg.CPT_TORN_CNT p) = min (e.reg (Reg.CPT_TORN_CNT p) + 1) 0xFFFFFFFF) ∧
      (e.flag ctrl Fld.CPT_CTRL_EN = true → c.state ≠ 0 → ∃ t, exec (.coachRetrain p) s = .next t ∧ (t.dev.coach p).state = 1 ∧
        t.dev.flag (Reg.CPT_EVENT p) Fld.CPT_EVENT_TORN = true ∧
        t.dev.reg (Reg.CPT_TORN_CNT p) = min (e.reg (Reg.CPT_TORN_CNT p) + 1) 0xFFFFFFFF) ∧
      (e.flag ctrl Fld.CPT_CTRL_EN = false → c.state = 0 → ∃ t, exec (.coachRetrain p) s = .next t ∧
        Dev.Refused e t.dev (Reg.CPT_BLKID p) 11 ∧
        Dev.OnlyRegs e t.dev [ctrl, Reg.CPT_BLKID p + 4, Reg.CPT_BLKID p + 8])) ∧
    (c.state = 1 → e.quadLocked (p.val / 4) = true →
      (e.reframing = false → e.holdOther p = false → ∃ t, exec (.trainDone p) s = .next t ∧ (t.dev.coach p).state = 2 ∧
        t.dev.fld (Reg.CPT_STATUS p) Fld.CPT_STATUS_STATE = 2 ∧ t.dev.flag (Reg.CPT_EVENT p) Fld.CPT_EVENT_LINK = true) ∧
      (e.reframing = true ∨ e.holdOther p = true → ∃ t, exec (.trainDone p) s = .next t ∧ (t.dev.coach p).state = 3 ∧
        (t.dev.coach p).holdDue = true ∧ t.dev.reg (Reg.CPT_HOLD_CNT p) = min (e.reg (Reg.CPT_HOLD_CNT p) + 1) 0xFFFFFFFF)) ∧
    (c.state ≠ 1 ∨ e.quadLocked (p.val / 4) = false → ∃ t, exec (.trainDone p) s = .next t ∧ Dev.OnlyRegs e t.dev []) ∧
    (e.secondaryPaired = false → e.primaryPaired = false → e.access (Reg.CPT_COMMIT p % 0x10000000) = .normal (Reg.CPT_COMMIT p) →
      ∀ v : Word,
      (bit v.toNat 0 = false → ∃ t, exec (.coachCommit p v .good) s = .next t ∧ Dev.OnlyRegs e t.dev [Reg.CPT_COMMIT p]) ∧
      (bit v.toNat 0 = true → ∀ code, code = (if e.stk.timing = 2 ∨ e.stk.timing = 3 then 1 else if e.sdp.power = 2 then 2
          else if c.pending = true then 3 else 0) → code ≠ 0 → ∃ t, exec (.coachCommit p v .good) s = .next t ∧
        Dev.Refused e t.dev (Reg.CPT_BLKID p) code ∧ t.dev.coach p = c ∧
        Dev.OnlyRegs e t.dev [Reg.CPT_COMMIT p, Reg.CPT_BLKID p + 4, Reg.CPT_BLKID p + 8]) ∧
      (bit v.toNat 0 = true → (e.genericWrite (Reg.CPT_COMMIT p) v.toNat).commitRefusal p (bit v.toNat 1) = none →
        (e.stk.timing ≠ 0 → ∃ t, exec (.coachCommit p v .good) s = .next t ∧ (t.dev.coach p).pending = true ∧
          (t.dev.coach p).target = (if bit v.toNat 1 = true then none
            else some (e.reg (Reg.CPT_COMMIT_TGT_LO p) + 2 ^ 32 * e.reg (Reg.CPT_COMMIT_TGT_HI p))) ∧
          t.dev.flag (Reg.CPT_COMMIT p) Fld.CPT_COMMIT_PENDING = true) ∧
        (e.stk.timing = 0 → ∃ t, exec (.coachCommit p v .good) s = .next t ∧ (t.dev.coach p).pending = false ∧
          t.dev.reg (Reg.CPT_COMMIT_CNT p) = min (e.reg (Reg.CPT_COMMIT_CNT p) + 1) 0xFFFFFFFF)))

/-- The frames of a Coach port (R202, R204 to R206, R210 to R213, R218, R219, R228). A frame is its 32 B header, its payload and its check,
the CRC-32C over the fold block, header and payload; it counts unless it is an IDLE frame, and advances the frame number. A PIXELS
payload holds the top bits of each field, in order (R205). A run that is ready goes out as one PIXELS frame; a segment that is
unavailable, and each withdrawn stroke, as SKIP frames to a stop that can hold; a marker, a HOLD and a CONFIG frame go out where one is
due, in this order, and an IDLE frame where nothing else waits. With a frame go the codewords that its bytes fill (R201). A port that
sends strokes publishes its slack, which the model rounds down (log 54); that CONFIG's EFFECTIVE is the later of the stroke asked for
and the next one that the port sends is the model's choice (log 18). -/
def Obligations.CoachPortsSendTheirFrames : Prop :=
  (∀ (depth k : Nat) (fields : List Nat), 1 ≤ depth → depth ≤ 16 → k < fields.length → (∀ f ∈ fields, f < 2 ^ 16) →
    leNat (packPixels depth fields) / 2 ^ (depth * k) % 2 ^ depth = fields.getD k 0 / 2 ^ (16 - depth)) ∧
  ∀ (s : State) (p : Fin 128), s.dev.tap ≠ .extest →
    let e := s.dev
    let c := e.coach p
    let frame (type_ flags stop depth stroke line x count : Nat) (payload : List Byte) : List Byte :=
      let header := leBytes 1 type_ ++ leBytes 1 flags ++ leBytes 1 stop ++ leBytes 1 depth ++ leBytes 2 stroke ++ leBytes 2 line ++
        leBytes 2 x ++ leBytes 2 count ++ leBytes 2 payload.length ++ leBytes 2 c.seq ++ List.replicate 16 0
      let fold := leBytes 2 (e.reg (Reg.CPT_CHAIN_ID p)) ++ leBytes 1 stop ++ [0] ++ leBytes 2 stroke ++
        leBytes 2 (if type_ ≤ 2 then line else 0xFFFF)
      header ++ payload ++ leBytes 4 (crc32c (fold ++ header ++ payload))
    let sends (t : State) (bs : List Byte) : Prop := (∃ ws : List (List Nat), t.dev.out = .frame p bs :: ws.map (.codeword p.val ·)) ∧
      (t.dev.coach p).seq = (c.seq + 1) % 2 ^ 16
    let counts (t : State) (n : Nat) : Prop := t.dev.reg (Reg.CPT_FRAME_CNT p) = min (e.reg (Reg.CPT_FRAME_CNT p) + n) 0xFFFFFFFF
    let slack (t : State) (buffered wait : Nat) : Prop := t.dev.reg (Reg.CPT_SLACK p) =
      if e.coachSends p then min (buffered * 1000 / 13125 + if e.waitsOpen p then wait else 0) 0x3FFFFFF else e.reg (Reg.CPT_SLACK p)
    let slackRegs := [Reg.CPT_SLACK p, Reg.CPT_EVENT p, Reg.CPT_SLACK_LOW_CNT p]
    (∀ (buffered : Fin 65537) wait again r ss st g gs, e.coachReady p = some (r, ss) → c.begun = true → c.next = r.stroke →
      (∀ w ∈ c.wits, w.1 < 64) → stopAt r.version p c.stop = some st →
      r.routeLost p st = false → e.readySegments r st st.runMax c.at_ st.runMax = g :: gs →
      (∀ x ∈ g :: gs, (∀ b ∈ e.segmentBlocks r x, e.packerFails r [] b = false) ∧ ∀ q, x.parcel = some q → e.replayFails r q = false) →
      again = false ∨ bit (e.reg Reg.DEP_LOG_RING) 31 = false →
      let count := (g :: gs).foldl (fun a x => a + x.n) 0
      let pixels := pixelsOf count ((g :: gs).flatMap fun x => e.storeRead r x.x x.y x.n)
      ∃ t, exec (.pixels p buffered [] false wait again) s = .next t ∧
        sends t (frame 1 (if st.pixels ≤ c.at_ + count then 1 else 0) st.addr st.depth (r.stroke % 2 ^ 16) (st.lineOf c.at_)
          (st.pixelOf c.at_) count (packPixels st.d (pixels.flatMap storedFields))) ∧
        counts t 1 ∧ slack t buffered 0 ∧ t.dev.mem = e.mem ∧ t.dev.staging = e.staging) ∧
    (e.coachReady p = none →
      (∀ (buffered : Fin 65537) wait bad rec again, ∃ t, exec (.pixels p buffered bad rec wait again) s = .next t ∧ slack t buffered wait ∧
        Dev.OnlyBell e t.dev slackRegs) ∧
      (c.state ≠ 3 ∨ c.withdrawn = [] → ∀ (buffered : Fin 65537) wait, ∃ t, exec (.skip p buffered wait) s = .next t ∧
        slack t buffered wait ∧ Dev.OnlyBell e t.dev slackRegs)) ∧
    (∀ m ms r st (buffered : Fin 65537) wait, c.state = 3 → c.withdrawn = m :: ms → e.coachSends p = true → c.holdDue = false →
      c.configBefore m = false → (∀ w ∈ c.wits, w.1 < 64) →
      e.prt.strokes.find? (fun r => r.withdrawn && r.stroke == m) = some r →
      (portStops r.version p).find? (fun x => c.skipStop ≤ x.addr) = some st →
      let n := min 4368 (st.pixels - c.skipAt)
      ∃ t, exec (.skip p buffered wait) s = .next t ∧
        sends t (frame 2 (if st.pixels ≤ c.skipAt + n then 1 else 0) st.addr 0 (m % 2 ^ 16) (st.lineOf c.skipAt) (st.pixelOf c.skipAt) n []) ∧
        counts t 1 ∧ slack t buffered wait ∧ t.dev.reg (Reg.CPT_SKIP_CNT p) = min (e.reg (Reg.CPT_SKIP_CNT p) + 1) 0xFFFFFFFF) ∧
    (∀ r ss st (buffered : Fin 65537) wait, e.coachReady p = some (r, ss) → c.state ≠ 3 ∨ c.withdrawn = [] → c.begun = true →
      c.next = r.stroke → (∀ w ∈ c.wits, w.1 < 64) → stopAt r.version p c.stop = some st → st.holdOk = true →
      r.routeLost p st = true ∨ e.segmentReady r.stroke (st.segment r c.at_) = false →
      let n := min (st.segment r c.at_).n st.runMax
      ∃ t, exec (.skip p buffered wait) s = .next t ∧
        sends t (frame 2 (if st.pixels ≤ c.at_ + n then 1 else 0) st.addr 0 (r.stroke % 2 ^ 16) (st.lineOf c.at_) (st.pixelOf c.at_) n []) ∧
        counts t 1 ∧ slack t buffered wait ∧ t.dev.reg (Reg.CPT_SKIP_CNT p) = min (e.reg (Reg.CPT_SKIP_CNT p) + 1) 0xFFFFFFFF) ∧
    (∀ delay m, c.state = 2 → c.marker = some m → ∃ t, exec (.strokeMarker p delay) s = .next t ∧
      sends t (frame 3 0 0xFF 0 (m % 2 ^ 16) 0 0 0
        (leBytes 4 ((((e.captureFor m).map (·.show_)).getD []).getD e.stk.phase 0) ++ leBytes 4 delay ++ leBytes 2 (e.coachNext p) ++
          leBytes 1 e.stk.phase ++ [0] ++ leBytes 4 e.stk.cframe)) ∧ counts t 1 ∧
      t.dev.coach p = { c with marker := none, seq := (c.seq + 1) % 2 ^ 16, lane := (t.dev.coach p).lane } ∧
      t.dev.reg (Reg.CPT_MARKER_CNT p) = min (e.reg (Reg.CPT_MARKER_CNT p) + 1) 0xFFFFFFFF ∧
      Dev.OnlyRegs { e with coaches := t.dev.coaches, free := t.dev.free } t.dev [Reg.CPT_FRAME_CNT p, Reg.CPT_MARKER_CNT p]) ∧
    (∀ delay, c.state ≠ 2 ∨ c.marker = none → ∃ t, exec (.strokeMarker p delay) s = .next t ∧ Dev.OnlyRegs e t.dev []) ∧
    (c.state = 3 → ∃ t, exec (.hold p) s = .next t ∧ sends t (frame 4 0 0xFF 0 0 0 0 0 (leBytes 2 (e.coachNext p) ++ [0, 0])) ∧
      counts t 1 ∧ t.dev.coach p = { c with holdDue := false, seq := (c.seq + 1) % 2 ^ 16, lane := (t.dev.coach p).lane } ∧
      Dev.OnlyRegs { e with coaches := t.dev.coaches, free := t.dev.free } t.dev [Reg.CPT_FRAME_CNT p]) ∧
    (c.state ≠ 3 → ∃ t, exec (.hold p) s = .next t ∧ Dev.OnlyRegs e t.dev []) ∧
    (∀ a due more, 2 ≤ c.state → c.marker = none → c.holdDue = false → c.configs = (a, due) :: more →
      let eff := if strokeGe due (e.coachNext p) then due else e.coachNext p
      let version := match e.runOf eff with
        | some r => r.version
        | none => e.regs
      (∀ st, stopAt version p a = some st → ∃ t, exec (.config p) s = .next t ∧
        sends t (frame 5 0 st.addr 0 0 0 0 0
          ([1, 0] ++ leBytes 2 eff ++ leBytes 2 (st.w - 1) ++ leBytes 2 (st.h - 1) ++ leBytes 1 st.depth ++
            leBytes 1 (st.splitG - 1 + 8 * st.splitI) ++ leBytes 1 st.buf ++ leBytes 1 (if st.holdOk then 1 else 0) ++
            leBytes 4 st.path ++ List.replicate 16 0)) ∧ counts t 1 ∧
        t.dev.coach p = { c with configs := more, seq := (c.seq + 1) % 2 ^ 16, lane := (t.dev.coach p).lane } ∧
        Dev.OnlyRegs { e with coaches := t.dev.coaches, free := t.dev.free } t.dev [Reg.CPT_FRAME_CNT p]) ∧
      (stopAt version p a = none → ∃ t, exec (.config p) s = .next t ∧ t.dev.out = [] ∧ t.dev.coach p = { c with configs := more } ∧
        Dev.OnlyRegs { e with coaches := t.dev.coaches, free := t.dev.free } t.dev [])) ∧
    (c.state < 2 ∨ c.configs = [] ∨ c.marker ≠ none ∨ c.holdDue = true → ∃ t, exec (.config p) s = .next t ∧ Dev.OnlyRegs e t.dev []) ∧
    (∀ n (buffered : Fin 65537) wait, 2 ≤ c.state → e.coachWaits p = false → ∃ t, exec (.idle p n buffered wait) s = .next t ∧
      sends t (frame 6 0 0xFF 0 0 0 0 0 (List.replicate n 0)) ∧ slack t buffered wait ∧
      t.dev.coach p = { c with seq := (c.seq + 1) % 2 ^ 16, lane := (t.dev.coach p).lane } ∧
      Dev.OnlyBell { e with coaches := t.dev.coaches, free := t.dev.free } t.dev slackRegs) ∧
    (∀ n (buffered : Fin 65537) wait, c.state < 2 ∨ e.coachWaits p = true → ∃ t, exec (.idle p n buffered wait) s = .next t ∧
      slack t buffered wait ∧ Dev.OnlyBell e t.dev slackRegs)

/-- A return line's slots (R235 to R238, R242, R249, R253). The controller opens each slot with its frame: the RELEASE to all after it enters
RUN; a POLL of the next stop; in the slots of the mask a contention POLL; and in odd slots the oldest command. An unanswered poll is
a miss; a stop that has missed its limit is absent; a jam is counted, and the slot opened all the same; a line off RUN opens none.
EN enters RUN with an empty table, and leaves it torn (R422, Table 18.4); that the receive FIFO is then kept is the model's choice (log
19). -/
def Obligations.ReturnLinesOpenTheirSlots : Prop :=
  ∀ (s : State) (c : Fin 32), s.dev.tap ≠ .extest →
    let e := s.dev
    let x := e.rlc c
    let j := (x.slot + 1) % 16
    let mask := e.fld (Reg.RLC_SCHED c) Fld.RLC_SCHED_CONT_MASK
    let sends (t : State) (bs : List Byte) : Prop :=
      t.dev.out = [.line c bs, .wire c (e.flag (Reg.RLC_CTRL c) Fld.RLC_CTRL_DE_EXT) (lineHalves bs)]
    (e.hasLine c = false ∨ x.run = false → ∀ cmd, cmd = .jam c ∨ (∃ b, cmd = .slotOpen c b) →
      ∃ t, exec cmd s = .next t ∧ Dev.OnlyRegs e t.dev []) ∧
    (∀ stretched, e.hasLine c = true → x.run = true → x.answered = true ∨ x.present = .none →
      ∃ t f, exec (.slotOpen c stretched) s = .next t ∧ (t.dev.rlc c).slot = j ∧ (t.dev.rlc c).answered = false ∧
        t.dev.reg (Reg.RLC_SLOT_CNT c) = (e.reg (Reg.RLC_SLOT_CNT c) + 1) % 2 ^ 32 ∧
        t.dev.reg (Reg.RLC_STRETCH_CNT c) = min (e.reg (Reg.RLC_STRETCH_CNT c) + if stretched then 1 else 0) 0xFFFFFFFF ∧
        (x.first = true → sends t (lineFrame 0xFFFF 0x84 []) ∧ (t.dev.rlc c).first = false) ∧
        (x.first = false → j % 2 = 0 ∨ bit mask (j / 2) = false ∧ x.queue = [] → ∀ a, e.nextPoll c = some a →
          sends t (lineFrame a 0x80 []) ∧ (t.dev.rlc c).present = .poll a ∧
          t.dev.reg (Reg.RLC_POLL_CNT c) = min (e.reg (Reg.RLC_POLL_CNT c) + 1) 0xFFFFFFFF) ∧
        (x.first = false → j % 2 = 1 → bit mask (j / 2) = true → (t.dev.rlc c).present = .contention ∧
          sends t (lineFrame 0xFFFE 0x80 (leBytes 2 x.lastAddr ++ leBytes 1 x.lastOut ++ [0] ++ leBytes 8 x.lastId))) ∧
        (∀ q qs, x.first = false → j % 2 = 1 → bit mask (j / 2) = false → x.queue = q :: qs → sends t f ∧
          (t.dev.rlc c).queue = qs ∧ (t.dev.rlc c).present = .command { q with tries := q.tries + 1 })) ∧
    (∀ a, e.hasLine c = true → x.run = true → x.answered = false → x.present = .poll a → a < 256 → ∃ t, exec (.slotOpen c false) s = .next t ∧
      t.dev.reg (Reg.RLC_MISS_CNT c) = min (e.reg (Reg.RLC_MISS_CNT c) + 1) 0xFFFFFFFF ∧
      t.dev.reg (Reg.RLC_ST_MISS_CNT c a) = min (e.reg (Reg.RLC_ST_MISS_CNT c a) + 1) 0xFFFFFFFF ∧
      t.dev.fld (Reg.RLC_ST_STATE c a) Fld.RLC_ST_STATE_MISSES = min 255 (e.fld (Reg.RLC_ST_STATE c a) Fld.RLC_ST_STATE_MISSES + 1)) ∧
    (e.hasLine c = true → x.run = true → x.answered = true ∨ x.present = .none → x.fifo.length < 64 →
      ∃ t, exec (.jam c) s = .next t ∧ t.dev.flag (Reg.RLC_EVENT c) Fld.RLC_EVENT_JAM = true ∧ (t.dev.rlc c).slot = j ∧
      (t.dev.rlc c).fifo = x.fifo ++ [5 * 2 ^ 28] ∧ t.dev.reg (Reg.RLC_JAM_CNT c) = min (e.reg (Reg.RLC_JAM_CNT c) + 1) 0xFFFFFFFF) ∧
    (∀ a : Fin 256,
      let st := Reg.RLC_ST_STATE c a
      let absent := e.flag st Fld.RLC_ST_STATE_PRESENT = true ∧
        max 1 (e.fld (Reg.RLC_CTRL c) Fld.RLC_CTRL_MISS_LIMIT) ≤ e.fld st Fld.RLC_ST_STATE_MISSES
      (absent → ∃ t, exec (.absent c a) s = .next t ∧ t.dev.flag st Fld.RLC_ST_STATE_PRESENT = false ∧
        t.dev.flag (Reg.RLC_EVENT c) Fld.RLC_EVENT_ABSENT = true ∧ t.dev.fld st Fld.RLC_ST_STATE_MISSES = e.fld st Fld.RLC_ST_STATE_MISSES) ∧
      (¬absent → ∃ t, exec (.absent c a) s = .next t ∧ Dev.OnlyRegs e t.dev [])) ∧
    (∀ v : Word, e.access (Reg.RLC_CTRL c) = .normal (Reg.RLC_CTRL c) →
      (bit v.toNat 0 = true → x.run = false → ∃ t, exec (.rlcEn c v) s = .next t ∧
        t.dev.rlc c = { run := true, first := true, fifo := x.fifo, lastWord := x.lastWord }) ∧
      (bit v.toNat 0 = false → x.run = true → ∃ t, exec (.rlcEn c v) s = .next t ∧
        t.dev.rlc c = { fifo := x.fifo, lastWord := x.lastWord } ∧ t.dev.flag (Reg.RLC_EVENT c) Fld.RLC_EVENT_TORN = true) ∧
      (bit v.toNat 0 = x.run → ∃ t, exec (.rlcEn c v) s = .next t ∧ Dev.OnlyRegs e t.dev [Reg.RLC_CTRL c])) ∧
    (∀ w ws, e.access (Reg.RLC_RXF_DATA c) = .normal (Reg.RLC_RXF_DATA c) → x.fifo = w :: ws → ∃ t, exec (.rxfPop c .good) s = .next t ∧
      t.dev.out = [.completion (BitVec.ofNat 32 w)] ∧ t.dev.rlc c = { x with fifo := ws, lastWord := w } ∧
      Dev.OnlyRegs { e with lines := t.dev.lines } t.dev [Reg.RLC_STATUS c, Reg.RLC_RXF_COUNT c]) ∧
    (∀ ecc, e.access (Reg.RLC_RXF_DATA c) = .normal (Reg.RLC_RXF_DATA c) → x.fifo = [] → ∃ t, exec (.rxfPop c ecc) s = .next t ∧
      t.dev.out = [.completion (BitVec.ofNat 32 x.lastWord)] ∧
      t.dev.flag (Reg.RLC_RXF_STATUS c) Fld.RLC_RXF_STATUS_UNDERRUN = true ∧ Dev.OnlyRegs e t.dev [Reg.RLC_RXF_STATUS c])

/-- Frames and commands of a return line (R238, R239, R241, R244 to R249, R251, Table 10.5). A frame that the slot does not allow is foreign;
a bad one counts by what it is, and in a contention slot as a collision. A STATUS shows its stop present; a new alarm is taken once; a
HELLO of an unknown identity is a stranger, and of an enrolled one asks for its ASSIGN; an ACK enrols or removes. ENROL, RELEASE and
ACCESS entries join the queue, or complete at once; four ASSIGNs without ACK release the address; stranger entries expire. -/
def Obligations.ReturnLinesTakeFramesAndCommands : Prop :=
  ∀ (s : State) (c : Fin 32),
    let e := s.dev
    let x := e.rlc c
    let command (k : Fin 4) (addr : BitVec 16) (p : List Byte) (ok : LineCheck) (w : Bool) : Instr :=
      match k with
      | 0 => .status c addr p ok w
      | 1 => .alarm c addr p ok w
      | 2 => .hello c addr p ok w
      | _ => .ack c addr p ok w
    (∀ k addr p ok w, e.hasLine c = false ∨ x.run = false → ∃ t, exec (command k addr p ok w) s = .next t ∧ Dev.OnlyRegs e t.dev []) ∧
    (∀ k addr p ok w, e.hasLine c = true → x.run = true →
      (ok = .otherType ∨ ok = .otherLength ∨ ok = .good ∧ (w = false ∨ x.answered = true) → x.present ≠ .contention → ∃ t, exec (command k addr p ok w) s = .next t ∧
        t.dev.reg (Reg.RLC_FOREIGN_CNT c) = min (e.reg (Reg.RLC_FOREIGN_CNT c) + 1) 0xFFFFFFFF ∧
        Dev.OnlyRegs e t.dev [Reg.RLC_FOREIGN_CNT c]) ∧
      (∀ cnt, cnt = (if ok = .violation then Reg.RLC_CODE_CNT c else Reg.RLC_CRC_CNT c) → ok = .violation ∨ ok = .badCheck →
        x.present ≠ .contention →
        ∃ t, exec (command k addr p ok w) s = .next t ∧ t.dev.reg cnt = min (e.reg cnt + 1) 0xFFFFFFFF ∧ Dev.OnlyRegs e t.dev [cnt]) ∧
      (ok = .violation ∨ ok = .badCheck → x.present = .contention → ∃ t, exec (command k addr p ok w) s = .next t ∧
        t.dev.reg (Reg.RLC_COLLIDE_CNT c) = min (e.reg (Reg.RLC_COLLIDE_CNT c) + 1) 0xFFFFFFFF ∧
        (x.lastOut ≠ 1 → (t.dev.rlc c).lastOut = 2 ∧ (t.dev.rlc c).lastAddr = 0) ∧
        Dev.OnlyRegs { e with lines := t.dev.lines } t.dev [Reg.RLC_COLLIDE_CNT c])) ∧
    (e.hasLine c = true → x.run = true → x.answered = false →
      (∀ a p, a.toNat < 256 → x.present = .poll a.toNat → 32 ≤ p.length → p.length ≤ 128 → ∃ t, exec (.status c a p .good true) s = .next t ∧
        (t.dev.rlc c).answered = true ∧ t.dev.flag (Reg.RLC_ST_STATE c a.toNat) Fld.RLC_ST_STATE_PRESENT = true ∧
        t.dev.fld (Reg.RLC_ST_STATE c a.toNat) Fld.RLC_ST_STATE_MISSES = 0) ∧
      (∀ a p st, x.present = .contention → p.length = 16 → x.entry a.toNat = some st →
        ∃ t, exec (.alarm c a p .good true) s = .next t ∧ (t.dev.rlc c).answered = true ∧
          (x.lastOut ≠ 1 → (t.dev.rlc c).lastOut = 1 ∧ (t.dev.rlc c).lastAddr = a.toNat) ∧
          (t.dev.rlc c).lastAlarm a.toNat = some (leNat (p.take 1)) ∧ (t.dev.rlc c).entry a.toNat = some st ∧
          (x.lastAlarm a.toNat ≠ some (leNat (p.take 1)) → t.dev.reg (Reg.RLC_ALARM_CNT c) = min (e.reg (Reg.RLC_ALARM_CNT c) + 1) 0xFFFFFFFF ∧
            t.dev.flag (Reg.RLC_EVENT c) Fld.RLC_EVENT_ALARM = true) ∧
          (x.lastAlarm a.toNat = some (leNat (p.take 1)) → t.dev.reg (Reg.RLC_ALARM_CNT c) = e.reg (Reg.RLC_ALARM_CNT c))) ∧
      (∀ p, x.present = .contention → p.length = 32 →
        let id := leNat (p.take 8)
        (∀ i, x.enrolled.find? (·.id == id) = none → x.strangers.find? (·.2.1 == id) = none →
          (List.range 16).find? (fun i => !(x.strangers.any (·.1 == i))) = some i →
          ∃ t, exec (.hello c 0xFFFE p .good true) s = .next t ∧ (t.dev.rlc c).strangers = x.strangers ++ [(i, id, x.now)] ∧
            ((∀ q ∈ x.challenged, q.1 = id → q.2 + 4096 ≤ x.now) → ∃ job ∈ (t.dev.rlc c).queue, job.kind = 3) ∧ t.dev.flag (Reg.RLC_EVENT c) Fld.RLC_EVENT_STRANGER = true ∧
            t.dev.reg (Reg.RLC_STRANGER_CNT c) = min (e.reg (Reg.RLC_STRANGER_CNT c) + 1) 0xFFFFFFFF) ∧
        (∀ st, x.enrolled.find? (·.id == id) = some st → e.flag (Reg.RLC_CTRL c) Fld.RLC_CTRL_AUTO_REASSIGN = true →
          ∃ t job, exec (.hello c 0xFFFE p .good true) s = .next t ∧ (t.dev.rlc c).queue = x.queue ++ [job] ∧ job.kind = 0 ∧
            job.laddr = st.laddr ∧ job.id = id ∧ job.seed = st.seed ∧ (t.dev.rlc c).strangers = x.strangers)) ∧
      (∀ job p, x.present = .command job → job.kind ≠ 3 → job.kind = 0 ∨ (x.entry job.laddr).isSome = true → job.laddr < 2 ^ 16 →
        4 ≤ p.length → p.length ≤ 128 →
        ∃ t, exec (.ack c (BitVec.ofNat 16 job.laddr) p .good true) s = .next t ∧ (t.dev.rlc c).answered = true ∧
          (leNat (p.take 1) = 0 → job.kind = 0 → ∃ st, (t.dev.rlc c).entry job.laddr = some st ∧ st.id = job.id ∧ st.seed = job.seed) ∧
          (leNat (p.take 1) = 0 → job.kind = 1 → (t.dev.rlc c).entry job.laddr = none) ∧
          (leNat (p.take 1) ≠ 0 ∨ 2 ≤ job.kind → (t.dev.rlc c).enrolled = x.enrolled))) ∧
    (∀ cmd op kind, cmd = .enrol c ∧ op = 0x10 ∧ kind = 0 ∨ cmd = .release c ∧ op = 0x11 ∧ kind = 1 ∨ cmd = .access c ∧ op = 0x12 ∧ kind = 2 →
      let r := e.fld (Reg.RLC_RING c) Fld.RLC_RING_CMD
      let f := (e.ringBind r (Reg.RLC_RING c)).2.ringFetch r 0 1
      let y := f.rlc c
      let en := f.ringEntry r (f.ringCons r)
      let laddr := wordOf en 0 / 2 ^ 16
      let took (t : State) : Prop := t.dev.reg (Reg.RNG_RS_CONS r) = (f.reg (Reg.RNG_RS_CONS r) + 1) % 2 ^ 32
      (e.ReadsWhole (e.entryBlocks r (e.ringCons r) 1) → Dev.OnlyRegs (e.ringBind r (Reg.RLC_RING c)).2 f [Reg.MEM_STATUS]) ∧
      (e.ringReadable r = false ∨ e.ringClass r ≠ 5 → ∃ t, exec cmd s = .next t ∧ Dev.OnlyRegs e t.dev []) ∧
      (e.hasLine c = true → e.ringClass r = 5 → e.ringReadable r = true →
        (e.ringSt r).bound = none ∨ (e.ringSt r).bound = some (Reg.RLC_RING c) →
        opOf (e.ringEntry r (e.ringCons r)) = op → opOf en = op →
        (f.telemetryGood c op en = false ∨ y.run = false → ∃ t, exec cmd s = .next t ∧ took t ∧ (t.dev.rlc c).queue = y.queue ∧
          t.dev.reg (Reg.RNG_RS_DONE_CNT r) = (f.reg (Reg.RNG_RS_DONE_CNT r) + 1) % 2 ^ 32) ∧
        (f.telemetryGood c op en = true → y.run = true →
          (op = 0x10 → y.entry laddr = none ∧ ∀ st ∈ y.enrolled, st.id ≠ wordOf en 1 + 2 ^ 32 * wordOf en 2) →
          (op = 0x11 → (y.entry laddr).isSome = true) →
          ∃ t job, exec cmd s = .next t ∧ took t ∧ (t.dev.rlc c).queue = y.queue ++ [job] ∧ job.kind = kind ∧ job.laddr = laddr ∧
            job.tag = wordOf en 4 ∧ job.ring = some (r, f.ringCons r)))) ∧
    (∀ job js, x.unanswered = job :: js → ∃ t, exec (.enrolNoAnswer c) s = .next t ∧ (t.dev.rlc c).unanswered = js ∧
      (t.dev.rlc c).queue = x.queue ++ [{ kind := 1, laddr := job.laddr }]) ∧
    (x.unanswered = [] → ∃ t, exec (.enrolNoAnswer c) s = .next t ∧ Dev.OnlyRegs e t.dev []) ∧
    (∀ i : Fin 16,
      (∀ st, x.strangers.find? (·.1 == i.val) = some st → st.2.2 + 4096 ≤ x.now → ∃ t, exec (.strangerExpiry c i) s = .next t ∧
        (t.dev.rlc c).strangers = x.strangers.filter (· != st) ∧
        Dev.OnlyRegs { e with lines := t.dev.lines } t.dev [Reg.RLC_STATUS c, Reg.RLC_RXF_COUNT c]) ∧
      ((∀ st, x.strangers.find? (·.1 == i.val) = some st → x.now < st.2.2 + 4096) → ∃ t, exec (.strangerExpiry c i) s = .next t ∧
        Dev.OnlyRegs e t.dev []))

/-! ### Stream inputs -/

/-- Stream inputs (R255 to R260, R262, R265 to R270, R272, R274, Tables 11.1, 11.2, 11.4). A frame counts as what it is: an error, a pause
frame, one that the filter drops, a datagram whose checks fail, one that nothing matches, one that the receive buffer has lost; ARP takes
the oldest posted buffer; a packet of a context opens its stream, or waits in its context's receive buffer of 1 MiB, with what the read of
its block will find (R24, R270, R291). The layouts of the packets' headers and of PAUSE are those of the standards that the spec names (log
20). A landed frame shows its number and advances its fence or plate ring. Slow-path entries post buffers and send frames; a context is
enabled unless refused, and disabled and lost as Table 11.4 says; a port that leaves UP is torn. -/
def Obligations.StreamPortsClassifyAndLandFrames : Prop :=
  ∀ (s : State) (p : Fin 128) (j : Fin 16), s.dev.tap ≠ .extest →
    let e := s.dev
    let x := e.sip p
    let c := e.ctx p j
    let up (t : State) (r n : Nat) : Prop := t.dev.reg r = min (e.reg r + n) 0xFFFFFFFF
    let fec := [Reg.SIP_FEC_CORR_CNT p, Reg.SIP_FEC_UNCORR_CNT p]
    (∀ bs f o buffer bad n m wait, e.role p ≠ 2 ∨ x.state ≠ 2 → ∃ t, exec (.ethFrame p bs f o n m buffer bad wait) s = .next t ∧ Dev.OnlyRegs e t.dev []) ∧
    (∀ bs f o buffer bad n m wait, e.role p = 2 → x.state = 2 →
      let v := ethView bs
      let ip := ipView (bs.drop v.body)
      let base := e.pairBase p
      let good := 60 ≤ bs.length ∧ bs.length ≤ 9212 ∧ f = true ∧ v.doubleTag = false
      let pause := v.type_ = 0x8808 ∧ pkt bs v.body 2 = 1
      ∃ t, exec (.ethFrame p bs f o n m buffer bad wait) s = .next t ∧ up t (Reg.SIP_FEC_CORR_CNT p) n ∧ up t (Reg.SIP_FEC_UNCORR_CNT p) m ∧
        (¬good → up t (Reg.SIP_RX_ERR_CNT p) 1 ∧ Dev.OnlyRegs e t.dev (Reg.SIP_RX_ERR_CNT p :: fec)) ∧
        (good → pause → up t (Reg.SIP_PAUSE_CNT p) 1 ∧ Dev.OnlyRegs e t.dev (Reg.SIP_PAUSE_CNT p :: fec)) ∧
        (good → ¬pause → e.macPasses p v.dst = false → Dev.OnlyRegs e t.dev fec) ∧
        (good → ¬pause → e.macPasses p v.dst = true →
          (v.type_ = 0x0800 → ip.good = false → up t (Reg.SIP_IP_ERR_CNT p) 1 ∧ Dev.OnlyRegs e t.dev (Reg.SIP_IP_ERR_CNT p :: fec)) ∧
          (v.type_ ≠ 0x0800 → v.type_ ≠ 0x0806 → v.dst ≠ e.sipMac p → up t (Reg.SIP_NOMATCH_CNT p) 1 ∧
            Dev.OnlyRegs e t.dev (Reg.SIP_NOMATCH_CNT p :: fec)) ∧
          (v.type_ = 0x0806 → x.posted = [] → up t (Reg.SIP_SP_DROP_CNT p) 1 ∧
            t.dev.flag (Reg.SIP_EVENT p) Fld.SIP_EVENT_SP_DROP = true ∧
            Dev.OnlyRegs e t.dev (Reg.SIP_SP_DROP_CNT p :: Reg.SIP_EVENT p :: fec)) ∧
          (∀ b more, v.type_ = 0x0806 → x.posted = b :: more → b.ring < 16384 → e.ringHost b.ring = true →
            up t (Reg.SIP_SP_RX_CNT p) 1 ∧ (t.dev.sip p).posted = more ∧
            (bad = [] → e.weak = [] → e.damaged = [] ∨ bit (e.reg Reg.DEP_LOG_RING) 31 = false → t.dev.memRead b.buf bs.length = bs ∧
              ∀ a, a < b.buf ∨ b.buf + bs.length ≤ a → t.dev.memByte a = e.memByte a)) ∧
          (∀ k, v.type_ = 0x0800 → ip.good = true → ip.fragment = false → e.matchCtx base ip v.tci = some k →
            let room := e.rxRoom base k ip.payload.length
            let taken := o = false ∧ room = true ∧ wait = false ∧ (e.ctx base k).rx = []
            (o = true ∨ room = false → up t (Reg.SIP_CX_OVERRUN_CNT base k) 1 ∧
              t.dev.flag (Reg.SIP_CX_EVENT base k) Fld.SIP_CX_EVENT_OVERRUN = true ∧ t.dev.ctxs = e.ctxs) ∧
            (o = false → room = true → wait = true → (t.dev.ctx base k).rx = (e.ctx base k).rx ++ [(p.val % 2, ip.payload, buffer)] ∧
              Dev.OnlyRegs { e with ctxs := t.dev.ctxs } t.dev (Reg.MEM_STATUS :: Reg.SIP_CX_STATE base k :: fec)) ∧
            (taken → buffer = .bad → up t (Reg.SIP_CX_BAD_CNT base k) 1 ∧ ∀ q i, t.dev.ctx q i = e.ctx q i) ∧
            (taken → buffer = .good → rtpOf (e.ctxFmt base k) (e.ctxW base k) (e.ctxH base k)
                (e.fld (Reg.SIP_CX_CTRL base k) Fld.SIP_CX_CTRL_PT) ip.payload = none →
              up t (Reg.SIP_CX_BAD_CNT base k) 1 ∧ (∀ q i, t.dev.ctx q i = e.ctx q i) ∧
              Dev.OnlyRegs { e with ctxs := t.dev.ctxs } t.dev
                (Reg.MEM_STATUS :: Reg.SIP_CX_BAD_CNT base k :: Reg.SIP_CX_STATE base k :: fec)) ∧
            (∀ r, taken → buffer = .good → rtpOf (e.ctxFmt base k) (e.ctxW base k) (e.ctxH base k)
                (e.fld (Reg.SIP_CX_CTRL base k) Fld.SIP_CX_CTRL_PT) ip.payload = some r → e.isPair base = false →
              (e.ctx base k).state ≠ 0 → up t (Reg.SIP_CX_PKT_CNT base k) 1 ∧ (t.dev.ctx base k).state =
                (if (e.ctx base k).state = 1 ∨ (e.ctx base k).state = 3 then 2 else (e.ctx base k).state))))) ∧
    (c.rx = [] → c.landing = [] → ∃ t, exec (.frameLanded p j) s = .next t ∧ Dev.OnlyRegs e t.dev []) ∧
    (c.rx ≠ [] → ∃ t, exec (.frameLanded p j) s = .next t ∧ (t.dev.ctx p j).rx = []) ∧
    (∀ path bs, c.rx = [(path, bs, .bad)] → c.landing = [] → ∃ t, exec (.frameLanded p j) s = .next t ∧ (t.dev.ctx p j).rx = [] ∧
      up t (Reg.SIP_CX_BAD_CNT p j) 1 ∧ (bit (e.reg Reg.DEP_LOG_RING) 31 = false → t.dev.mem = e.mem)) ∧
    (∀ l ls, c.rx = [] → c.landing = l :: ls → e.stk.timing ≠ 0 → ∃ t, exec (.frameLanded p j) s = .next t ∧ (t.dev.ctx p j).landing = ls ∧
      t.dev.reg (Reg.SIP_CX_FRAME p j) = l.f % 2 ^ 32 ∧ t.dev.reg (Reg.SIP_CX_RTP p j) = l.rtp % 2 ^ 32 ∧
      t.dev.reg (Reg.SIP_CX_SSRC p j) = l.ssrc % 2 ^ 32 ∧
      (let acq := e.fld (Reg.SIP_CX_FENCE p j) Fld.SIP_CX_FENCE_ACQ_IDX
       e.ctxPlate p j = false → e.advances acq l.f = true → t.dev.reg (Reg.FLP_FENCE acq) = l.f % 2 ^ 32) ∧
      (let ring := e.ctxRing p j
       e.ctxPlate p j = true →
        (t.dev.plate ring).write = ((e.plate ring).write + 1) % e.plateFrames ring)) ∧
    (∀ tx : Bool,
      let cmd : Instr := if tx then .tx p else .rxPost p
      let r := e.fld (Reg.SIP_RING p) (if tx then Fld.SIP_RING_TX else Fld.SIP_RING_RX)
      let who := 2 * Reg.SIP_RING p + if tx then 1 else 0
      let f := (e.ringBind r who).2.ringFetch r 0 1
      let y := f.sip p
      let en := f.ringEntry r (f.ringCons r)
      let buf := wordOf en 1 + 2 ^ 32 * (wordOf en 2 % 32)
      let len := wordOf en 3 % 2 ^ 14
      let took (t : State) : Prop := t.dev.reg (Reg.RNG_RS_CONS r) = (f.reg (Reg.RNG_RS_CONS r) + 1) % 2 ^ 32
      (e.ReadsWhole (e.entryBlocks r (e.ringCons r) 1) → Dev.OnlyRegs (e.ringBind r who).2 f [Reg.MEM_STATUS]) ∧
      (e.role p ≠ 2 ∨ e.ringClass r ≠ 6 ∨ e.ringReadable r = false → ∃ t, exec cmd s = .next t ∧ Dev.OnlyRegs e t.dev []) ∧
      (e.role p = 2 → e.ringClass r = 6 → e.ringReadable r = true → (tx = true → x.state = 2) →
        (e.ringSt r).bound = none ∨ (e.ringSt r).bound = some who →
        (f.slowGood tx en = false → ∃ t, exec cmd s = .next t ∧ took t ∧ t.dev.sip p = y ∧
          t.dev.reg (Reg.RNG_RS_DONE_CNT r) = (f.reg (Reg.RNG_RS_DONE_CNT r) + 1) % 2 ^ 32) ∧
        (f.slowGood tx en = true → ∃ t b, exec cmd s = .next t ∧ took t ∧ b.ring = r ∧ b.index = f.ringCons r ∧ b.buf = buf ∧
          (tx = false → (t.dev.sip p).posted = y.posted ++ [b]) ∧
          (tx = true → (t.dev.sip p).sending = y.sending ++ [b] ∧
            ∃ body fcs, body.length = len ∧ fcs.length = 4 ∧ t.dev.out = [.eth p (body ++ fcs)] ∧
              (f.ReadsWhole (blocksOf buf len) → body = f.memRead buf len))))) ∧
    (x.sending = [] → ∃ t, exec (.txDone p) s = .next t ∧ Dev.OnlyRegs e t.dev []) ∧
    (∀ b more, x.sending = b :: more → b.ring < 16384 → ∃ t, exec (.txDone p) s = .next t ∧ (t.dev.sip p).sending = more ∧
      up t (Reg.SIP_SP_TX_CNT p) 1 ∧ (b.stamp = false → (t.dev.sip p).stamps = x.stamps) ∧
      (b.stamp = true → x.stamps.length < 64 → ∃ y, (t.dev.sip p).stamps = x.stamps ++ [(b.tag % 2 ^ 16, y)])) ∧
    (e.access (Reg.SIP_TSF_NS p % 0x10000000) = .normal (Reg.SIP_TSF_NS p) →
      (∀ y ys, x.stamps = y :: ys → ∃ t, exec (.tsfPop p .good) s = .next t ∧
        t.dev.out = [.completion (BitVec.ofNat 32 (2 ^ 30 + y.2.2))] ∧ (t.dev.sip p).stamps = ys ∧
        t.dev.reg (Reg.SIP_TSF_SEC_LO p) = y.2.1 % 2 ^ 32 ∧
        Dev.OnlyRegs { e with sips := t.dev.sips } t.dev [Reg.SIP_TSF_COUNT p, Reg.SIP_TSF_SEC_LO p, Reg.SIP_TSF_SEC_HI p]) ∧
      (x.stamps = [] → x.lastStamp = none → ∃ t, exec (.tsfPop p .good) s = .next t ∧ t.dev.out = [.completion 0] ∧
        t.dev.flag (Reg.SIP_TSF_STATUS p) Fld.SIP_TSF_STATUS_UNDERRUN = true ∧ Dev.OnlyRegs e t.dev [Reg.SIP_TSF_STATUS p])) ∧
    (∀ v : Word, e.access (Reg.SIP_CX_CTRL p j % 0x10000000) = .normal (Reg.SIP_CX_CTRL p j) →
      let on := e.flag (Reg.SIP_CX_CTRL p j) Fld.SIP_CX_CTRL_EN
      let d := e.genericWrite (Reg.SIP_CX_CTRL p j) (v.toNat ||| 1)
      (on = false → d.ctxRefusal e p j = none → ∃ t, exec (.contextEnable p j v) s = .next t ∧ (t.dev.ctx p j).state = 1 ∧
        (t.dev.ctx p j).frame = none ∧ t.dev.flag (Reg.SIP_CX_CTRL p j) Fld.SIP_CX_CTRL_EN = true) ∧
      (∀ code why, on = false → d.ctxRefusal e p j = some (code, why) → ∃ t, exec (.contextEnable p j v) s = .next t ∧
        Dev.Refused e t.dev (Reg.SIP_BLKID p) code ∧ t.dev.ctx p j = c ∧
        t.dev.flag (Reg.SIP_CX_CTRL p j) Fld.SIP_CX_CTRL_EN = false) ∧
      (on = true → ∃ t, exec (.contextDisable p j v) s = .next t ∧ t.dev.ctx p j = { c with state := 0, frame := none, rx := [] } ∧
        t.dev.flag (Reg.SIP_CX_CTRL p j) Fld.SIP_CX_CTRL_EN = false) ∧
      (on = false → ∃ t, exec (.contextDisable p j v) s = .next t ∧ Dev.OnlyRegs e t.dev [Reg.SIP_CX_CTRL p j])) ∧
    (c.state = 2 → ∃ t, exec (.contextLoss p j) s = .next t ∧ (t.dev.ctx p j).state = 3 ∧ (t.dev.ctx p j).frame = none ∧
      t.dev.reg (Reg.SIP_CX_STATE p j) = 3 ∧ t.dev.flag (Reg.SIP_CX_EVENT p j) Fld.SIP_CX_EVENT_LOSS = true) ∧
    (c.state ≠ 2 → ∃ t, exec (.contextLoss p j) s = .next t ∧ Dev.OnlyRegs e t.dev []) ∧
    (e.role p = 2 → e.isPair p = true → c.state = 2 → ∃ t, exec (.path p j) s = .next t ∧
      t.dev.flag (Reg.SIP_EVENT p) Fld.SIP_EVENT_PATH = true ∧ t.dev.bel = (e.raise (0x4400 + 4 * p + 3)).bel ∧
      Dev.OnlyBell e t.dev [Reg.SIP_EVENT p]) ∧
    (e.role p ≠ 2 ∨ e.isPair p = false ∨ c.state ≠ 2 → ∃ t, exec (.path p j) s = .next t ∧ Dev.OnlyRegs e t.dev []) ∧
    (x.state = 1 → e.quadLocked (p.val / 4) = true → ∃ t, exec (.linkUp p) s = .next t ∧ t.dev.sip p = { x with state := 2 } ∧
      t.dev.reg (Reg.SIP_STATUS p) = 2 ∧ t.dev.flag (Reg.SIP_EVENT p) Fld.SIP_EVENT_LINK = true) ∧
    (x.state ≠ 1 ∨ e.quadLocked (p.val / 4) = false → ∃ t, exec (.linkUp p) s = .next t ∧ Dev.OnlyRegs e t.dev []) ∧
    (∀ cmd, cmd = .linkLeavesUp p ∧ x.state = 2 ∨ cmd = .sipRetrain p ∧ x.state ≠ 0 ∧ e.flag (Reg.SIP_CTRL p) Fld.SIP_CTRL_EN = true ∧
        e.access (Reg.SIP_CTRL p % 0x10000000) = .normal (Reg.SIP_CTRL p) →
      (∀ b ∈ x.sending, b.ring < 16384) → ∃ t, exec cmd s = .next t ∧ (t.dev.sip p).state = 1 ∧ (t.dev.sip p).sending = [] ∧
        t.dev.flag (Reg.SIP_EVENT p) Fld.SIP_EVENT_TORN = true ∧
        up t (Reg.SIP_TORN_CNT p) ((List.range 16).filter fun k => (e.ctx (e.pairBase p) k).state != 0).length) ∧
    (x.state ≠ 2 → ∃ t, exec (.linkLeavesUp p) s = .next t ∧ Dev.OnlyRegs e t.dev []) ∧
    (x.state = 0 → e.flag (Reg.SIP_CTRL p) Fld.SIP_CTRL_EN = false →
      e.access (Reg.SIP_CTRL p % 0x10000000) = .normal (Reg.SIP_CTRL p) → ∃ t, exec (.sipRetrain p) s = .next t ∧
      Dev.Refused e t.dev (Reg.SIP_BLKID p) 9 ∧
      Dev.OnlyRegs e t.dev [Reg.SIP_CTRL p, Reg.SIP_BLKID p + 4, Reg.SIP_BLKID p + 8])

/-! ### The blitter and the tally units -/

/-- Blits (R347 to R356, R360). A descriptor is read, under the block check where its ring lies in software memory (R279), and completes at
once where it is malformed or ill-timed; a head starts in its turn, through the bounce buffer where it overlaps, or completes OVERLAP; a
fill and a copy leave exactly the bytes that the descriptor says, below the watermark's block end as they stand already and past it first
those of the element across it (`BlitRun.carry`); the watermark follows its line, in whole blocks; completion counts, signals and completes
its command; a wait that passes its limit completes FENCE_TIMEOUT; HALT holds the blitter once no blit runs. -/
def Obligations.BlitsRunFromDescriptorToCompletion : Prop :=
  ∀ s : State,
    let e := s.dev
    let up (t : State) (r : Nat) : Prop := t.dev.reg r = min (e.reg r + 1) 0xFFFFFFFF
    let ended (t : State) (r : Nat) : Prop := isRecordClass (e.ringClass r) = false →
      t.dev.reg (Reg.RNG_RS_DONE_CNT r) = (e.reg (Reg.RNG_RS_DONE_CNT r) + 1) % 2 ^ 32
    let quiet := e.weak = [] ∧ (e.damaged = [] ∨ bit (e.reg Reg.DEP_LOG_RING) 31 = false)
    (∀ (r : Fin 16384) (op : Nat) (cmd : Instr), cmd = .copy r ∧ op = 1 ∨ cmd = .fill r ∧ op = 2 ∨ cmd = .blend r ∧ op = 3 →
      let front := opOf (e.ringEntry r (e.ringCons r))
      let mine := front = op ∨ op = 1 ∧ front ≠ 2 ∧ front ≠ 3
      let f := e.ringFetch r 0 1
      let en := f.ringEntry r (f.ringCons r)
      let counts (t : State) (n : Nat) : Prop := t.dev.reg n = min (f.reg n + 1) 0xFFFFFFFF
      let done (t : State) : Prop := t.dev.reg (Reg.RNG_RS_DONE_CNT r) = (f.reg (Reg.RNG_RS_DONE_CNT r) + 1) % 2 ^ 32
      (e.ReadsWhole (e.entryBlocks r (e.ringCons r) 1) → Dev.OnlyRegs e f [Reg.MEM_STATUS]) ∧
      (e.blitReadable r = false ∨ ¬mine → ∃ t, exec cmd s = .next t ∧ Dev.OnlyRegs e t.dev []) ∧
      (e.blitReadable r = true → mine → ∃ t, exec cmd s = .next t ∧
        t.dev.reg (Reg.RNG_RS_CONS r) = (f.reg (Reg.RNG_RS_CONS r) + 1) % 2 ^ 32 ∧
        (f.blitBad en = true → counts t Reg.BLT_MALFORMED_CNT ∧ done t ∧ t.dev.blt.heads = f.blt.heads) ∧
        (f.blitBad en = false → f.bltHalted = true ∨ 2 ≤ f.sdp.power → counts t Reg.BLT_STATE_CNT ∧ done t ∧
          t.dev.blt.heads = f.blt.heads) ∧
        (f.blitBad en = false → f.bltHalted = false → f.sdp.power < 2 → t.dev.blt.heads = f.blt.heads ++ [⟨r, f.ringCons r, en⟩]))) ∧
    (e.blt.current ≠ none ∨ e.bltHalted = true ∨ e.blitOrder = [] → ∃ t, exec .blitStart s = .next t ∧ Dev.OnlyRegs e t.dev []) ∧
    (∀ h hs, e.blt.current = none → e.bltHalted = false → e.sdp.power < 2 → e.boot.flush = false → e.loaded = true → e.blitOrder = h :: hs →
      let b := blitD h.words
      ∃ t, exec .blitStart s = .next t ∧ t.dev.blt.heads = e.blt.heads.erase h ∧ t.dev.blt.last = h.ring ∧
        (b.bounces = true → 1048576 < b.w * b.h * b.e → t.dev.blt.current = none ∧
          (h.ring < 16384 → ended t h.ring ∧ up t Reg.BLT_OVERLAP_CNT)) ∧
        (b.bounces = false ∨ b.w * b.h * b.e ≤ 1048576 →
          t.dev.blt.current = some { head := h, bounced := b.bounces, filling := b.bounces, descending := b.descends })) ∧
    (e.blt.current = none → ∀ bad cmd, cmd = .bounceFillDone bad ∨ cmd = .watermark bad ∨ cmd = .blitComplete bad →
      ∃ t, exec cmd s = .next t ∧ Dev.OnlyRegs e t.dev []) ∧
    (∀ r bad, e.blt.current = some r → e.readerWaits 0 = false →
      let b := blitD r.head.words
      let line := blockEnd b.wmEnd
      (r.filling = true → e.blitFails r b 0 b.dstEnd bad = [] → ∃ t buf, exec (.bounceFillDone bad) s = .next t ∧
        t.dev.blt.current = some { r with filling := false, buffer := buf } ∧ buf.length = b.h * b.w ∧ t.dev.mem = e.mem) ∧
      (r.filling = true → e.blitFails r b 0 b.dstEnd bad ≠ [] → ∃ t, exec (.bounceFillDone bad) s = .next t ∧
        t.dev.blt.current = some { r with tried := r.tried ++ e.blitFails r b 0 b.dstEnd bad } ∧
        t.dev.ladders.length = e.ladders.length + (e.blitFails r b 0 b.dstEnd bad).length ∧ t.dev.mem = e.mem) ∧
      (r.filling = false → ∃ t, exec (.bounceFillDone bad) s = .next t ∧ Dev.OnlyRegs e t.dev []) ∧
      (r.filling = false → r.marked = false → r.descending = false → b.wmEn = true ∨ b.wmSrc = true → e.stk.timing ≠ 0 →
        e.blitFails r b r.upTo line bad = [] → ∃ t c, exec (.watermark bad) s = .next t ∧
        t.dev.blt.current = some c ∧ c.upTo = line ∧ c.marked = true ∧ c.head = r.head ∧
        (b.wmEn = true → e.advances b.sigIdx b.wmVal = true → t.dev.reg (Reg.FLP_FENCE b.sigIdx) = b.wmVal % 2 ^ 32)) ∧
      (r.filling = false → e.blitFails r b r.upTo b.dstEnd bad = [] →
        r.head.ring < 16384 → e.stk.timing ≠ 0 → ∃ t, exec (.blitComplete bad) s = .next t ∧ t.dev.blt.current = none ∧
        up t Reg.BLT_DONE_CNT ∧ ended t r.head.ring ∧
        (b.sigEn = true → b.wmEn = false → e.advances b.sigIdx b.sigVal = true →
          t.dev.reg (Reg.FLP_FENCE b.sigIdx) = b.sigVal % 2 ^ 32) ∧
        (b.dstHost = false → b.dw * b.e ≤ b.dstPitch → e.ringHost r.head.ring = true → bad = [] → quiet →
          b.op = 2 ∨ b.op = 1 ∧ b.srcHost = false ∧ r.bounced = false ∧ e.sdp.sec ≠ 1 →
          (∀ x y i, x < b.dw → y < b.dh → i < b.e →
            let a := b.dstAddr x y + i
            (a < r.upTo → t.dev.memByte a = e.memByte a) ∧
            (∀ c, r.upTo ≤ a → r.carry[a - r.upTo]? = some c → t.dev.memByte a = c.1) ∧
            (r.upTo ≤ a → r.carry[a - r.upTo]? = none → t.dev.memByte a =
              if b.op = 2 then (leBytes b.e b.src).getD i 0 else e.memByte (b.srcAddr (b.source x y).1 (b.source x y).2 + i))) ∧
          (∀ a, (∀ y < b.dh, a < b.dstAddr 0 y ∨ b.dstAddr b.dw y ≤ a) → t.dev.memByte a = e.memByte a)))) ∧
    (∀ r : Fin 16384,
      let late := fun h : BlitHead => h.ring == r.val && !e.headReady h.words && (blitD h.words).waitLimit != 0
      (∀ h, e.blt.heads.find? late = some h → ∃ t, exec (.blitFenceTimeout r) s = .next t ∧ t.dev.blt.heads = e.blt.heads.erase h ∧
        up t Reg.BLT_TIMEOUT_CNT ∧ ended t r ∧ t.dev.flag Reg.BLT_EVENT Fld.BLT_EVENT_TIMEOUT = true) ∧
      (e.blt.heads.find? late = none → ∃ t, exec (.blitFenceTimeout r) s = .next t ∧ Dev.OnlyRegs e t.dev [])) ∧
    (∀ v : Word, e.access Reg.BLT_CTRL = .normal Reg.BLT_CTRL → ∃ t, exec (.halt v) s = .next t ∧
      t.dev.fld Reg.BLT_CTRL Fld.BLT_CTRL_HALT = Fld.BLT_CTRL_HALT.get v.toNat ∧
      (Fld.BLT_CTRL_HALT.get v.toNat = 1 → e.blt.current = none → t.dev.flag Reg.BLT_EVENT Fld.BLT_EVENT_HALTED = true) ∧
      (Fld.BLT_CTRL_HALT.get v.toNat = 0 ∨ e.blt.current ≠ none →
        t.dev.flag Reg.BLT_EVENT Fld.BLT_EVENT_HALTED = e.flag Reg.BLT_EVENT Fld.BLT_EVENT_HALTED) ∧
      Dev.OnlyBell e t.dev [Reg.BLT_CTRL, Reg.BLT_STATUS, Reg.BLT_EVENT])

/-- Scans (R364 to R368, R373, R374). A descriptor, read under the block check where its ring lies in software memory (R279), waits at its
unit, or completes at once where it is malformed or ill-timed; a scan that starts takes the unit's parameters, or completes STATE where its
unit is in link mode; one that ends pushes the check value of its bytes, stores it where asked, and counts; a wait past its limit ends. A
write of `TLY_CFG` binds a unit or is refused; a read of the FIFO takes its oldest entry. -/
def Obligations.ScansTellTheirCheckValues : Prop :=
  ∀ s : State, s.dev.tap ≠ .extest →
    let e := s.dev
    let up (t : State) (r : Nat) : Prop := t.dev.reg r = min (e.reg r + 1) 0xFFFFFFFF
    let ended (t : State) (r : Nat) : Prop := isRecordClass (e.ringClass r) = false →
      t.dev.reg (Reg.RNG_RS_DONE_CNT r) = (e.reg (Reg.RNG_RS_DONE_CNT r) + 1) % 2 ^ 32
    let quiet := e.weak = [] ∧ (e.damaged = [] ∨ bit (e.reg Reg.DEP_LOG_RING) 31 = false)
    (∀ r : Fin 16384,
      let f := e.ringFetch r 0 1
      let en := f.ringEntry r (f.ringCons r)
      let u := (scanD en).unit_
      let ready := e.hasTly = true ∧ e.ringClass r = 4 ∧ e.ringReadable r = true ∧ e.scanWaiting r = false
      let illTimed := 2 ≤ f.sdp.power ∨ f.fld (Reg.TLY_CFG u) Fld.TLY_CFG_MODE = 1
      (e.ReadsWhole (e.entryBlocks r (e.ringCons r) 1) → Dev.OnlyRegs e f [Reg.MEM_STATUS]) ∧
      (¬ready → ∃ t, exec (.scan r) s = .next t ∧ Dev.OnlyRegs e t.dev []) ∧
      (ready → ∃ t, exec (.scan r) s = .next t ∧ t.dev.reg (Reg.RNG_RS_CONS r) = (f.reg (Reg.RNG_RS_CONS r) + 1) % 2 ^ 32 ∧
        (f.scanBad en = true ∨ illTimed →
          t.dev.reg (Reg.RNG_RS_DONE_CNT r) = (f.reg (Reg.RNG_RS_DONE_CNT r) + 1) % 2 ^ 32 ∧ t.dev.tallies = f.tallies) ∧
        (f.scanBad en = false → ¬illTimed → t.dev.tly u = { f.tly u with heads := (f.tly u).heads ++ [⟨r, f.ringCons r, en⟩] }))) ∧
    (∀ r : Fin 16384,
      let late := fun h : Scan => h.ring == r.val && !e.scanReady h.words && (scanD h.words).waitLimit != 0
      ((∀ u < 16, (e.tly u).heads.find? late = none) → ∃ t, exec (.scanFenceTimeout r) s = .next t ∧ Dev.OnlyRegs e t.dev []) ∧
      (∀ u h, u < 16 → (e.tly u).heads.find? late = some h → (∀ x < 16, x ≠ u → (e.tly x).heads.find? late = none) →
        ∃ t, exec (.scanFenceTimeout r) s = .next t ∧ t.dev.tly u = { e.tly u with heads := (e.tly u).heads.erase h } ∧ ended t r)) ∧
    (∀ u : Fin 16,
      let x := e.tly u
      (x.current ≠ none ∨ e.scanOrder u = [] → ∃ t, exec (.scanStart u) s = .next t ∧ Dev.OnlyRegs e t.dev []) ∧
      (∀ h hs, x.current = none → e.sdp.power < 2 → e.boot.flush = false → e.loaded = true → e.scanOrder u = h :: hs →
        (e.fld (Reg.TLY_CFG u) Fld.TLY_CFG_MODE ≠ 1 → ∃ t, exec (.scanStart u) s = .next t ∧ t.dev.tly u =
          { x with heads := x.heads.erase h, current := some h, last := h.ring, params := some (e.tlyParams u), tried := [] }) ∧
        (e.fld (Reg.TLY_CFG u) Fld.TLY_CFG_MODE = 1 → ∃ t, exec (.scanStart u) s = .next t ∧
          t.dev.tly u = { x with heads := x.heads.erase h } ∧ (h.ring < 16384 → ended t h.ring))) ∧
      (x.current = none → ∀ bad, ∃ t, exec (.scanComplete u bad) s = .next t ∧ Dev.OnlyRegs e t.dev []) ∧
      (∀ h p bad, x.current = some h → x.params = some p → e.readerWaits (1 + u) = false → h.ring < 16384 →
        let b := scanD h.words
        let v := tlyValue p (b.prefix_ ++ e.memRead b.start b.length)
        let fails := e.newFails (blocksOf b.start b.length) bad x.tried
        (fails ≠ [] → ∃ t, exec (.scanComplete u bad) s = .next t ∧ t.dev.tly u = { x with tried := x.tried ++ fails } ∧
          t.dev.ladders.length = e.ladders.length + fails.length ∧ t.dev.mem = e.mem) ∧
        (fails = [] → e.stk.timing ≠ 0 → ∃ t, exec (.scanComplete u bad) s = .next t ∧ (t.dev.tly u).current = none ∧
          up t (Reg.TLY_SCAN_CNT u) ∧ ended t h.ring ∧
          (x.fifo.length < 16 → ∃ i, (t.dev.tly u).fifo = x.fifo ++ [⟨v, i⟩]) ∧
          (16 ≤ x.fifo.length → (t.dev.tly u).fifo = x.fifo ∧ up t (Reg.TLY_RF_DROP_CNT u)) ∧
          (b.cmpEn = true → v % 2 ^ p.1 ≠ b.expect % 2 ^ p.1 → up t (Reg.TLY_MISMATCH_CNT u)) ∧
          (b.resEn = true → e.ringHost h.ring = true → bad = [] → quiet → t.dev.memRead b.result 8 = leBytes 8 v ∧
            ∀ a, a < b.result ∨ b.result + 8 ≤ a → t.dev.memByte a = e.memByte a))) ∧
      (∀ v : Word, e.access (Reg.TLY_CFG u) = .normal (Reg.TLY_CFG u) →
        (∀ code, e.tlyRefusal u v.toNat = some code → ∃ t, exec (.tlyCfg u v) s = .next t ∧
          Dev.Refused e t.dev Reg.TLY_BLKID code ∧ Dev.OnlyRegs e t.dev [Reg.TLY_REFUSED, Reg.TLY_REFUSED_CNT]) ∧
        (e.tlyRefusal u v.toNat = none → ∃ t, exec (.tlyCfg u v) s = .next t ∧
          t.dev.fld (Reg.TLY_CFG u) Fld.TLY_CFG_MODE = Fld.TLY_CFG_MODE.get v.toNat ∧
          t.dev.fld (Reg.TLY_CFG u) Fld.TLY_CFG_LINK = Fld.TLY_CFG_LINK.get v.toNat ∧
          (Fld.TLY_CFG_MODE.get v.toNat = 0 → (t.dev.tly u).params = none) ∧
          (Fld.TLY_CFG_MODE.get v.toNat = 1 → e.fld (Reg.TLY_CFG u) Fld.TLY_CFG_MODE = 0 →
            (t.dev.tly u).params = some (t.dev.tlyParams u)))) ∧
      (∀ y ys, e.access (Reg.TLY_RF_LO u) = .normal (Reg.TLY_RF_LO u) → x.fifo = y :: ys → ∃ t, exec (.resultPop u .good) s = .next t ∧
        t.dev.out = [.completion (BitVec.ofNat 32 y.value)] ∧ t.dev.tly u = { x with fifo := ys, lastRead := y } ∧
        t.dev.reg (Reg.TLY_RF_COUNT u) = ys.length % 2 ^ 32 ∧ t.dev.reg (Reg.TLY_RF_HI u) = y.value / 2 ^ 32 % 2 ^ 32) ∧
      (∀ ecc, e.access (Reg.TLY_RF_LO u) = .normal (Reg.TLY_RF_LO u) → x.fifo = [] → ∃ t, exec (.resultPop u ecc) s = .next t ∧
        t.dev.out = [.completion (BitVec.ofNat 32 x.lastRead.value)] ∧
        t.dev.flag (Reg.TLY_RF_STATUS u) Fld.TLY_RF_STATUS_UNDERRUN = true ∧ Dev.OnlyRegs e t.dev [Reg.TLY_RF_STATUS u]))

/-! ### Twin pairing -/

/-- Twin frames (R303 to R305, R307, R309 to R319, R287, R320). A frame that fails its check is counted and has no effect; one that came
before is not taken again, and one that comes early is held; the next in order has the effect of its type: authentication, leaving,
mirrored items, the state image, READY and DECISION, check values, and repairs. SYNC gives the delay, HEARTBEAT the wire. Clauses that are
the model's choices of log 23: a SYNC that echoes (0, 0) echoes nothing, the read of a REPAIR_REQ that is refused comes before its NAK, a
DECISION is taken in JOIN too, and a state image comes in parts. -/
def Obligations.TwinFramesAreTakenOnceInOrder : Prop :=
  ∀ (s : State) (h : TwinHead),
    let e := s.dev
    let marks := [Reg.TWN_PORT_CORR_CNT h.lane, Reg.TWN_PORT_UNCORR_CNT h.lane]
    let up (t : State) (r : Nat) : Prop := t.dev.reg r = min (e.reg r + 1) 0xFFFFFFFF
    let heard := e.hasTwn = true ∧ e.lane h.lane = 2 ∧ ∀ x ∈ e.twn.sent, cursorBeyond x.seq ((h.ack.toNat + 1) % 2 ^ 32) = true
    let inTurn := heard ∧ e.twnState ≠ 0 ∧ e.twnState ≠ 5 ∧ e.twn.held = [] ∧ h.seq.toNat = e.twn.rxNext ∧ e.tlyBound 0 = none
    let took (t : State) : Prop := t.dev.twn.rxNext = (e.twn.rxNext + 1) % 2 ^ 32 ∧ t.dev.twn.held = []
    let sent (t : State) : Prop := t.dev.twn.txSeq = (e.twn.txSeq + 1) % 2 ^ 32
    let onlyTwn (t : State) : Prop := Dev.OnlyRegs { e with twn := t.dev.twn } t.dev marks
    let wakesOnly (t : State) : Prop := Dev.OnlyRegs { e with twn := t.dev.twn } t.dev (Reg.MEM_STATUS :: marks)
    -- frames that fail their check, and frames of a lane that is not aligned
    (∀ (cmd : Instr) (t : Nat) (p : List Byte) (crc : Word) (ok : Bool), (ok = e.twnCrc h t p crc ∧
        (cmd = .twinAuth h crc p ∧ t = 0x01 ∨ cmd = .twinTag h crc p ∧ t = 0x02 ∨ cmd = .part h crc p ∧ t = 0x03 ∨
          cmd = .pcv h crc p ∧ t = 0x30 ∨ cmd = .resolve h crc p ∧ t = 0x31 ∨ (∃ x y, cmd = .repairReq h crc p x y ∧ t = 0x40) ∨
          (∃ x, cmd = .repairData h crc p x ∧ t = 0x41) ∨ cmd = .repairNak h crc p ∧ t = 0x42 ∨ cmd = .twinIdle h crc p ∧ t = 0x00 ∨
          (∃ w, cmd = .heartbeat h crc p w ∧ t = 0x10) ∨ ∃ f, cmd = .twinSync h crc p f ∧ t = 0x11)) ∨
        (∃ fold whole, ok = (whole && fold.toNat == leNat e.twn.session) ∧ ((∃ a i, cmd = .mirror h whole a i fold) ∨
          (∃ a f l r x st, cmd = .state h whole a f l r x st fold) ∨ (∃ a l x, cmd = .twinReady h whole a l x fold) ∨
          ∃ a l x, cmd = .twinDecision h whole a l x fold)) →
      (e.hasTwn = false ∨ e.lane h.lane ≠ 2 → ∃ u, exec cmd s = .next u ∧ Dev.OnlyRegs e u.dev []) ∧
      (e.hasTwn = true → e.lane h.lane = 2 → ok = false → ∃ u, exec cmd s = .next u ∧ up u (Reg.TWN_PORT_BAD_CNT h.lane) ∧
        Dev.OnlyRegs e u.dev (Reg.TWN_PORT_BAD_CNT h.lane :: marks))) ∧
    (∀ crc p, heard → e.twnCrc h 0x30 p crc = true → cursorBeyond h.seq.toNat e.twn.rxNext = false →
      ∃ t, exec (.pcv h crc p) s = .next t ∧ Dev.OnlyRegs e t.dev marks) ∧
    (∀ fold items, fold.toNat = leNat e.twn.session → heard → e.twnState ≠ 0 → e.twnState ≠ 5 → e.tlyBound 0 = none → cursorBeyond h.seq.toNat e.twn.rxNext = true →
      (∀ x ∈ e.twn.held, x.1 ≠ e.twn.rxNext ∧ x.1 ≠ h.seq.toNat) → h.seq.toNat ≠ e.twn.rxNext →
      ∃ t, exec (.mirror h true true items fold) s = .next t ∧ t.dev.twn.rxNext = e.twn.rxNext ∧
        t.dev.twn.held = e.twn.held ++ [(h.seq.toNat, some (.mirror items))] ∧ onlyTwn t) ∧
    -- IDLE, HEARTBEAT, SYNC
    (heard → (∀ crc p, e.twnCrc h 0x00 p crc = true → ∃ t, exec (.twinIdle h crc p) s = .next t ∧ Dev.OnlyRegs e t.dev marks) ∧
      (∀ crc p w, e.twnCrc h 0x10 p crc = true → ∃ t, exec (.heartbeat h crc p w) s = .next t ∧
        t.dev.flag Reg.TWN_STATUS Fld.TWN_STATUS_WIRE_IN = w ∧ t.dev.twnState = e.twnState ∧
        Dev.OnlyRegs e t.dev (Reg.TWN_STATUS :: marks)) ∧
      (∀ crc p (frac : Fin 16), e.twnCrc h 0x11 p crc = true →
        let f := fun k => leNat ((p.drop (8 * k)).take 8)
        let arrival := 16 * e.now + frac.val
        let sum := signed 64 (f 2 + 2 ^ 64 - f 1) + signed 64 (arrival + 2 ^ 64 - f 0)
        ∃ t, exec (.twinSync h crc p frac) s = .next t ∧ t.dev.twn.syncRx = some (f 0, arrival) ∧
          (f 1 = 0 → f 2 = 0 → onlyTwn t) ∧
          (∀ k : Nat, f 1 ≠ 0 ∨ f 2 ≠ 0 → sum = 2 * (k : Int) → k < 2 ^ 24 → t.dev.reg Reg.TWN_DELAY = k))) ∧
    -- sequenced frames in their turn
    (∀ fold : BitVec 64, fold.toNat = leNat e.twn.session → inTurn →
      (∀ crc p, e.twnCrc h 0x01 p crc = true → e.twnState = 1 → e.twn.theirAuth = none → ∃ t, exec (.twinAuth h crc p) s = .next t ∧
        took t ∧ sent t ∧ t.dev.twn.theirAuth = some p ∧ t.dev.twnState = 1) ∧
      (∀ crc tag theirs, e.twnCrc h 0x02 tag crc = true → e.twnState = 1 → e.twn.theirAuth = some theirs →
        let runs := if e.secondary = true then bit (leNat ((theirs.drop 86).take 2)) 3 = true else e.stk.timing ≠ 0
        ∃ t, exec (.twinTag h crc tag) s = .next t ∧ took t ∧
          (e.twnCheck theirs tag ≠ 0 → t.dev.twnState = 5 ∧ t.dev.fld Reg.TWN_STATUS Fld.TWN_STATUS_FAIL = e.twnCheck theirs tag) ∧
          (e.twnCheck theirs tag = 0 → t.dev.twn.session = tag.take 8 ∧ (runs → t.dev.twnState = 2) ∧ (¬runs → t.dev.twnState = 3))) ∧
      (∀ crc p, e.twnCrc h 0x03 p crc = true → e.paired = true → e.stk.timing ≠ 0 → ∃ t, exec (.part h crc p) s = .next t ∧ took t ∧
        t.dev.twnState = 4 ∧ t.dev.fld Reg.TWN_STATUS Fld.TWN_STATUS_CAUSE = 2) ∧
      (∀ n, ∃ t, exec (.mirror h true true [.source n] fold) s = .next t ∧ took t ∧ t.dev.bel = (e.raise n).bel ∧
        Dev.OnlyBell { e with twn := t.dev.twn } t.dev marks) ∧
      (∀ ring index words, e.secondaryPaired = true → waitGood words = true → ∃ t w, exec (.mirror h true true [.wait ring index words] fold) s = .next t ∧ took t ∧
        t.dev.flp.waits = e.flp.waits ++ [w] ∧ w.ring = ring ∧ w.index = index ∧ w.mirrored = true ∧
        Dev.OnlyRegs { e with twn := t.dev.twn, flp := t.dev.flp } t.dev marks) ∧
      (∀ ring index words, e.secondaryPaired = true → waitGood words = false → ∃ t, exec (.mirror h true true [.wait ring index words] fold) s = .next t ∧
        took t ∧ t.dev.flp.waits = e.flp.waits) ∧
      (∀ (k : Nat) (v : Word), e.secondaryPaired = true → k < 16 → e.access (Reg.STK_SHOW k) = .normal (Reg.STK_SHOW k) →
        ∃ t, exec (.mirror h true true [.write (Reg.STK_SHOW k) v] fold) s = .next t ∧ took t ∧ t.dev.reg (Reg.STK_SHOW k) = v.toNat % 2 ^ 18) ∧
      (∀ k v, e.secondaryPaired = true → e.twnState = 2 → takesWhole k = true → (rowOf k).isSome = true →
        ∃ t, exec (.state h true true false false [(k, v)] [] none fold) s = .next t ∧ took t ∧ t.dev.reg k = fieldBits k v % 2 ^ 32 ∧
          Dev.OnlyRegs { e with twn := t.dev.twn } t.dev (k :: marks)) ∧
      (∀ latch sets, e.primaryPaired = true → ∃ t, exec (.twinReady h true true latch sets fold) s = .next t ∧ took t ∧
        t.dev.twn.ready = some (latch, sets) ∧ (e.twn.snapshot = none → onlyTwn t) ∧
        (∀ x, e.twn.snapshot = some x → x.1 = latch → e.twn.decision.map (·.1) ≠ some latch →
          t.dev.twn.decision.map (fun y => (y.1, y.2.length)) = some (latch, x.2.length) ∧ sent t)) ∧
      (∀ latch sets, e.secondaryPaired = true → ∃ t, exec (.twinDecision h true true latch sets fold) s = .next t ∧ took t ∧
        t.dev.twn.decision = some (latch, sets) ∧ onlyTwn t) ∧
      (∀ stroke region number v crc, stroke < 2 ^ 48 → region < 2 ^ 8 → number < 2 ^ 32 → v < 2 ^ 32 → e.paired = true →
        (let p := pcvRecord stroke region number v
         e.twnCrc h 0x30 p crc = true → ∃ t, exec (.pcv h crc p) s = .next t ∧ took t ∧
          (e.parcel stroke region number = none → (stroke, region, number, v) ∈ t.dev.twn.pcvs ∧ wakesOnly t) ∧
          (∀ q, e.parcel stroke region number = some q → q.st = .sealed → q.agreed = false → q.diverged = false →
            (v = q.pcv → up t Reg.TWN_PCV_MATCH_CNT ∧ (t.dev.parcel stroke region number).map (·.agreed) = some true) ∧
            (v ≠ q.pcv → up t Reg.TWN_PCV_MISMATCH_CNT ∧ ∃ js j, t.dev.prt.jobs = js ++ [j] ∧ js.length = e.prt.jobs.length ∧
              j.kind = .twin1 ∧ j.stroke = stroke ∧ j.region = region ∧ j.number = number))) ∧
        (∀ step q, step < 2 ^ 8 → e.parcel stroke region number = some q → q.redoTheirs.length + 1 = step →
          let p := pcvRecord stroke region number v ++ leBytes 1 step
          e.twnCrc h 0x31 p crc = true → ∀ sealOk, ∃ t q', exec (.resolve h crc p sealOk) s = .next t ∧ took t ∧
            t.dev.parcel stroke region number = some q' ∧ q'.redoTheirs = q.redoTheirs ++ [v] ∧
            (step = 1 → q.redo = [v] → q.agreed = false → q.diverged = false → q'.agreed = true ∧
              (q.pcv = v ∨ sealOk = true → q'.pcv = v) ∧
              (q.pcv ≠ v → sealOk = false → up t Reg.DEP_SEAL_FAIL_CNT ∧ q'.st = .sealFailed)))) ∧
      (∀ crc p again bad, e.twnCrc h 0x40 p crc = true → e.paired = true → p.length = 16 →
        let block := leNat (p.take 8) / 256
        let reason := e.repairNak (block * 256) (leNat ((p.drop 8).take 6)) bad
        ∃ t, exec (.repairReq h crc p again bad) s = .next t ∧ took t ∧ sent t ∧
          (again = false → bad = false → e.isDamaged block = false → t.dev.mem = e.mem) ∧
          (bit (e.reg Reg.DEP_LOG_RING) 31 = false → ∀ a, a / 256 ≠ block → t.dev.memByte a = e.memByte a) ∧
          (reason ≠ some 3 → reason ≠ some 4 → again = true ∨ bad = true ∨ e.isDamaged block = true → up t Reg.DEP_BLOCK_FAIL_CNT) ∧
          (reason = none → up t Reg.TWN_REPAIR_SERVED_CNT) ∧ (reason ≠ none → up t Reg.TWN_REPAIR_REFUSED_CNT)) ∧
      (∀ crc p,
        let block := leNat (p.take 8) / 256
        let bs := (p.drop 8).take 256
        let good := bs.length = 256 ∧ blockCheck block bs = leNat ((p.drop 264).take 2)
        let asked := e.ladders.filter fun l => l.block == block && l.twin && !l.staging
        (∀ l staging, asked = [l] → e.twnCrc h 0x41 p crc = true → ∃ t, exec (.repairData h crc p staging) s = .next t ∧ took t ∧
          (good → staging ≠ .bad → up t Reg.DEP_TWIN_REPAIR_CNT ∧ t.dev.ladders = e.ladders.erase l ∧ t.dev.isDamaged block = false ∧
            (bit (e.reg Reg.DEP_LOG_RING) 31 = false → t.dev.memRead (block * 256) 256 = bs)) ∧
          (¬good ∨ staging = .bad → up t Reg.DEP_TWIN_REPAIR_FAIL_CNT ∧ l ∉ t.dev.ladders)) ∧
        (∀ l, asked = [l] → e.twnCrc h 0x42 p crc = true → ∃ t, exec (.repairNak h crc p) s = .next t ∧ took t ∧
          up t Reg.DEP_TWIN_REPAIR_FAIL_CNT ∧ l ∉ t.dev.ladders) ∧
        (asked = [] → (e.twnCrc h 0x41 p crc = true → ∃ t, exec (.repairData h crc p .good) s = .next t ∧ took t ∧ wakesOnly t) ∧
          (e.twnCrc h 0x42 p crc = true → ∃ t, exec (.repairNak h crc p) s = .next t ∧ took t ∧ onlyTwn t))))

/-- The pairing states and the lanes (R302, R304, R306 to R308, R310, R315, R319, R321 to R324, Tables 13.2 and 13.3). A lane that aligns in
IDLE begins AUTH; a lane that leaves alignment says so; unacknowledged frames go again. The link down, the partner lost, PART, the end
of AUTH, agreement and PAIR_EN move the state; SWAP changes the role outside AUTH, JOIN and PAIRED, RETRY begins AUTH from ALONE or
FAILED, and else both are refused; STOP_ALIVE ends the heartbeat. HEARTBEAT and SYNC leave while the device serves. A lane's transmitter
trains when the lane is trained again, and goes on with codewords whatever the lane receives, and with nothing while its quad PLL is not
locked, where no lane comes to alignment (R302, R414). That an AUTH begins with `SEQ` 0, and that 0 is then expected (rxNext), are log 23;
that a frame's codewords stand beside the frame is log 55. -/
def Obligations.PairingStatesFollowTable132 : Prop :=
  ∀ (s : State) (p : Fin 128), s.dev.tap ≠ .extest →
    let e := s.dev
    let st := e.twnState
    let up (t : State) (r n : Nat) : Prop := t.dev.reg r = min (e.reg r + n) 0xFFFFFFFF
    let event (t : State) (f : Fld) : Prop := t.dev.flag Reg.TWN_EVENT f = true
    let cause (t : State) : Nat := t.dev.fld Reg.TWN_STATUS Fld.TWN_STATUS_CAUSE
    let still (cmd : Instr) : Prop := ∃ t, exec cmd s = .next t ∧ Dev.OnlyRegs e t.dev []
    -- lanes
    (e.hasTwn = true → e.role p = 3 → e.lane p = 1 → e.quadLocked (p / 4) = true → ∃ t, exec (.twinLaneAligned p) s = .next t ∧
      t.dev.lane p = 2 ∧ (∀ y, Out.lane p y ∉ t.dev.out) ∧
      (st = 0 → e.flag Reg.TWN_CTRL Fld.TWN_CTRL_PAIR_EN = true → t.dev.twnState = 1 ∧ t.dev.twn.nonce.length = 32 ∧
        t.dev.twn.theirAuth = none ∧ t.dev.twn.rxNext = 0) ∧
      (st ≠ 0 → t.dev.twnState = st)) ∧
    (e.hasTwn = false ∨ e.role p ≠ 3 ∨ e.lane p ≠ 1 ∨ e.quadLocked (p / 4) = false → still (.twinLaneAligned p)) ∧
    (e.hasTwn = true → e.role p = 3 → e.lane p = 2 → ∃ t, exec (.lane p) s = .next t ∧ t.dev.lane p = 1 ∧
      t.dev.out = [] ∧ event t Fld.TWN_EVENT_LANE ∧ t.dev.twnState = st) ∧
    (e.hasTwn = false ∨ e.role p ≠ 3 ∨ e.lane p ≠ 2 → still (.lane p)) ∧
    (e.access (Reg.TWN_PORT_CTRL p % 0x10000000) = .normal (Reg.TWN_PORT_CTRL p) →
      (e.lane p ≠ 0 → e.flag (Reg.TWN_PORT_CTRL p) Fld.TWN_PORT_CTRL_EN = true → ∃ t, exec (.twinPortRetrain p) s = .next t ∧
        t.dev.lane p = 1 ∧ Out.lane p (e.pairDrive p) ∈ t.dev.out ∧ event t Fld.TWN_EVENT_TORN ∧ t.dev.epochs = (e.newEpoch p).epochs) ∧
      (e.lane p = 0 → e.twn.serving = false → ∃ t, exec (.twinPortRetrain p) s = .next t ∧
        Dev.Refused e t.dev (Reg.TWN_PORT_BLKID p) 1 ∧
        Dev.OnlyRegs e t.dev [Reg.TWN_PORT_CTRL p, Reg.TWN_PORT_REFUSED p, Reg.TWN_PORT_REFUSED_CNT p])) ∧
    (e.hasTwn = true → e.alignedLanes ≠ [] → ∃ t, exec .twinResend s = .next t ∧ up t Reg.TWN_RETRANSMIT_CNT e.twn.sent.length ∧
      t.dev.twn.sent = e.twn.sent.map (fun x => { x with resends := x.resends + 1 }) ∧
      (t.dev.out.filter Out.isFrame).length = e.twn.sent.length) ∧
    (e.hasTwn = false ∨ e.alignedLanes = [] → still .twinResend) ∧
    -- states
    (e.paired = true → e.twnDown = true → e.stk.timing ≠ 0 → ∃ t, exec (.twinLinkDown true) s = .next t ∧ t.dev.twnState = 4 ∧ cause t = 3) ∧
    (∀ w, e.paired = false ∨ e.twnDown = false ∨ w = false → still (.twinLinkDown w)) ∧
    (e.paired = true → e.stk.timing ≠ 0 → ∃ t, exec .partnerLost s = .next t ∧ t.dev.twnState = 4 ∧ cause t = 1 ∧
      up t Reg.TWN_LOSS_CNT 1 ∧ event t Fld.TWN_EVENT_LOST ∧ t.dev.flag Reg.TWN_STATUS Fld.TWN_STATUS_WIRE_IN = false) ∧
    (let was := e.fld Reg.TWN_STATUS Fld.TWN_STATUS_CAUSE
     e.hasTwn = true → e.paired = false →
      (st = 4 → was = 3 ∨ was = 4 → ∃ t, exec .partnerLost s = .next t ∧ t.dev.twnState = 4 ∧ cause t = 1 ∧ event t Fld.TWN_EVENT_LOST ∧
        t.dev.twn = { e.twn with liveAt := if e.twn.standby then some (strokeAdd e.stk.stroke 2) else e.twn.liveAt }) ∧
      (st ≠ 4 ∨ was ≠ 3 ∧ was ≠ 4 → ∃ t, exec .partnerLost s = .next t ∧
        t.dev.flag Reg.TWN_STATUS Fld.TWN_STATUS_WIRE_IN = false ∧ t.dev.twnState = st ∧ Dev.OnlyRegs e t.dev [Reg.TWN_STATUS])) ∧
    (e.hasTwn = false → still .partnerLost) ∧
    (e.hasTwn = true → e.sdp.power ≠ 3 → ∃ t, exec .wire s = .next t ∧ t.dev.flag Reg.TWN_STATUS Fld.TWN_STATUS_WIRE_IN = false ∧
      event t Fld.TWN_EVENT_WIRE ∧ t.dev.bel = (e.raise 0x4665).bel ∧ Dev.OnlyBell e t.dev [Reg.TWN_STATUS, Reg.TWN_EVENT]) ∧
    (e.hasTwn = false ∨ e.sdp.power = 3 → still .wire) ∧
    (e.hasTwn = true → st = 1 → ∃ t, exec .authTimeout s = .next t ∧ t.dev.twnState = 5 ∧
      t.dev.fld Reg.TWN_STATUS Fld.TWN_STATUS_FAIL = 7 ∧ event t Fld.TWN_EVENT_STATE ∧ t.dev.bel = (e.raise 0x4660).bel ∧
      Dev.OnlyBell e t.dev [Reg.TWN_STATUS, Reg.TWN_EVENT]) ∧
    (st ≠ 1 → still .authTimeout) ∧
    (let enough := max 1 (e.fld Reg.TWN_CTRL Fld.TWN_CTRL_JOIN_STROKES) ≤ e.twn.inRow
     (e.hasTwn = true → st = 2 → enough → ∃ t, exec .joinComplete s = .next t ∧ t.dev.twnState = 3 ∧
       t.dev.twn.standby = (e.oneLive && e.secondary)) ∧
     (st ≠ 2 ∨ ¬enough → still .joinComplete)) ∧
    (e.paired = true → e.timed = true → e.stk.latched = false → ∃ t shot, exec .twinCutoff s = .next t ∧
      t.dev.twn.snapshot = some (e.nextStroke, shot) ∧ (e.secondary = true → t.dev.twn.txSeq = (e.twn.txSeq + 1) % 2 ^ 32) ∧
      t.dev.stk.stroke = e.stk.stroke ∧ t.dev.flp = e.flp) ∧
    (e.paired = false ∨ e.timed = false ∨ e.stk.latched = true → still .twinCutoff) ∧
    (∀ u r, e.runOf u = some r → strokeGe e.stk.stroke (strokeAdd u 2) = true → ∃ t r', exec .twinComparisonEnd s = .next t ∧
      t.dev.runOf u = some r' ∧ r'.compared = true) ∧
    ((∀ r ∈ e.prt.strokes, r.compared = true ∨ strokeGe e.stk.stroke (strokeAdd r.stroke 2) = false) → still .twinComparisonEnd) ∧
    (∀ n, e.twn.liveAt = some n → strokeGe e.stk.stroke n = true → ∃ t, exec .standbyLive s = .next t ∧ t.dev.twn.standby = false ∧
      t.dev.twn.liveAt = none) ∧
    (e.twn.liveAt = none ∨ (∀ n, e.twn.liveAt = some n → strokeGe e.stk.stroke n = false) → still .standbyLive) ∧
    (∀ (cmd : Instr) (type : Byte), cmd = .heartbeatSend ∧ type = 0x10 ∨ (∃ f, cmd = .twinSyncSend f) ∧ type = 0x11 →
      (e.hasTwn = true → e.twn.serving = true → e.alignedLanes ≠ [] → ∃ t l bs x, exec cmd s = .next t ∧ l ∈ e.alignedLanes ∧
        (∀ q ∈ e.alignedLanes, e.laneQueued l ≤ e.laneQueued q) ∧ t.dev.out.filter Out.isFrame = [.frame l bs] ∧ bs[0]? = some type ∧
        (∀ o ∈ t.dev.out, Out.isFrame o = true ∨ ∃ w, o = .codeword l w) ∧ t.dev.twn = { e.twn with queues := x, codes := t.dev.twn.codes }) ∧
      (e.hasTwn = false ∨ e.twn.serving = false → still cmd)) ∧
    -- writes of TWN_CTRL
    (e.access Reg.TWN_CTRL = .normal Reg.TWN_CTRL → bit (e.reg Reg.TWN_CTRL) 2 = false → bit (e.reg Reg.TWN_CTRL) 3 = false →
      e.stk.timing ≠ 0 →
      (1 ≤ st → st ≤ 3 → ∃ t, exec .swap s = .next t ∧ Dev.Refused e t.dev Reg.TWN_BLKID 2 ∧ t.dev.secondary = e.secondary) ∧
      (st = 0 ∨ 3 < st → ∃ t, exec .swap s = .next t ∧ t.dev.secondary = !e.secondary ∧ t.dev.flp.queue = [] ∧ t.dev.twnState = st) ∧
      (st = 4 ∨ st = 5 → e.alignedLanes ≠ [] → ∃ t, exec .twinRetry s = .next t ∧ t.dev.twnState = 1) ∧
      (st ≠ 4 ∧ st ≠ 5 ∨ e.alignedLanes = [] → ∃ t, exec .twinRetry s = .next t ∧ Dev.Refused e t.dev Reg.TWN_BLKID 3 ∧
        t.dev.twnState = st) ∧
      (e.flag Reg.TWN_CTRL Fld.TWN_CTRL_PAIR_EN = true → ∃ t, exec .pairEn s = .next t ∧ t.dev.twnState = 0 ∧
        t.dev.flag Reg.TWN_CTRL Fld.TWN_CTRL_PAIR_EN = false ∧ t.dev.twn.serving = false) ∧
      (∃ t, exec .stopAlive s = .next t ∧ t.dev.flag Reg.TWN_CTRL Fld.TWN_CTRL_STOP_ALIVE = true ∧ t.dev.twn.serving = false ∧
        t.dev.twnState = st ∧ (e.twn.serving = true → .alive e.aliveOut false ∈ t.dev.out)))

/-! ### Steward and lodgers -/

/-- Trunk frames (R327 to R332, R336 to R345). A frame that fails its check is counted and has no effect; one that came before is not taken
again, and one that comes early is held; the next in order has the effect of its type: authentication of the lane, leaving, PREPARE and
its answer, COMMIT, ABORT, READY, DECISION, APPLIED, RELEASED, ROLLUP and DOORBELL. A relay passes up frames on to every uplink; a down
frame is taken once per `SSEQ`. Clauses that are the model's choices: a SYNC that echoes (0, 0) echoes nothing (log 23); TICK is not
compared while the REFRAME of the join is pending, a LEAVE from above ends the uplink, and `SSEQ` 0 tells the join image (log 25). -/
def Obligations.TrunkFramesAreTakenOnceInOrder : Prop :=
  ∀ (s : State) (h : TrunkHead),
    let e := s.dev
    let p : Nat := h.port
    let x := e.tlane p
    let who := (h.origin.toNat, h.second)
    let marks := [Reg.TRK_PORT_CORR_CNT p, Reg.TRK_PORT_UNCORR_CNT p, Reg.TRK_PORT_STATUS p]
    let up (t : State) (r : Nat) : Prop := t.dev.reg r = min (e.reg r + 1) 0xFFFFFFFF
    let heard := e.hasTrk = true ∧ e.role p = 4 ∧ 2 ≤ x.state ∧ ∀ y ∈ x.sent, cursorBeyond y.seq ((h.ack.toNat + 1) % 2 ^ 32) = true
    let inTurn := heard ∧ x.held = [] ∧ h.seq.toNat = x.rxNext ∧ e.tlyBound 1 = none
    let took (t : State) : Prop := (t.dev.tlane p).rxNext = (x.rxNext + 1) % 2 ^ 32 ∧ (t.dev.tlane p).held = []
    let sent (t : State) (q : Nat) : Prop := (t.dev.tlane q).txSeq = ((e.tlane q).txSeq + 1) % 2 ^ 32
    let onlyTrk (t : State) : Prop := Dev.OnlyRegs { e with trk := t.dev.trk } t.dev marks
    let sequenced (cmd : Instr) (type : Nat) (crc : Word) (b : List Byte) : Prop :=
      cmd = .trunkTag h crc b ∧ type = 0x02 ∨ (∃ ok a, cmd = .prepare h crc (.bytes b) ok a) ∧ type = 0x20 ∨
      cmd = .prepared h crc b ∧ type = 0x21 ∨ cmd = .trunkCommit h crc b ∧ type = 0x22 ∨ cmd = .abort h crc b ∧ type = 0x23 ∨
      cmd = .trunkReady h crc b ∧ type = 0x24 ∨ cmd = .trunkDecision h crc b ∧ type = 0x25 ∨ cmd = .applied h crc b ∧ type = 0x26 ∨
      cmd = .released h crc b ∧ type = 0x27 ∨ cmd = .rollup h crc b ∧ type = 0x30 ∨ cmd = .doorbell h crc b ∧ type = 0x31 ∨
      cmd = .leave h crc b ∧ type = 0x32
    -- frames that fail their check, and frames of a lane that is not aligned
    (∀ (cmd : Instr) (type : Nat) (crc : Word) (b : List Byte) (ok : Bool), (ok = e.trkCrc h type b crc ∧
        (sequenced cmd type crc b ∨ cmd = .trunkAuth h crc b ∧ type = 0x01 ∧ x.theirAuth = none ∨ cmd = .trunkIdle h crc b ∧ type = 0x00 ∨
          (∃ f, cmd = .trunkSync h crc b f ∧ type = 0x10) ∨ ∃ f r, cmd = .trunkTick h crc b f r ∧ type = 0x11)) ∨
        (∃ n im a, cmd = .prepare h crc (.timing n im) ok a) →
      (e.hasTrk = false ∨ e.role p ≠ 4 ∨ x.state < 2 → ∃ t, exec cmd s = .next t ∧ Dev.OnlyRegs e t.dev []) ∧
      (e.hasTrk = true → e.role p = 4 → 2 ≤ x.state → ok = false → ∃ t, exec cmd s = .next t ∧ up t (Reg.TRK_PORT_BAD_CNT p) ∧
        Dev.OnlyRegs e t.dev (Reg.TRK_PORT_BAD_CNT p :: marks))) ∧
    (∀ cmd type crc b, sequenced cmd type crc b → heard → e.trkCrc h type b crc = true →
      (cursorBeyond h.seq.toNat x.rxNext = false → ∃ t, exec cmd s = .next t ∧ t.dev.tlane p = { x with silent := false } ∧ onlyTrk t) ∧
      (cursorBeyond h.seq.toNat x.rxNext = true → h.seq.toNat ≠ x.rxNext → (∀ y ∈ x.held, y.1 ≠ x.rxNext ∧ y.1 ≠ h.seq.toNat) →
        ∃ t, exec cmd s = .next t ∧ (t.dev.tlane p).rxNext = x.rxNext ∧ onlyTrk t ∧ (t.dev.tlane p).held = x.held ++
          [(h.seq.toNat, { type_ := type, origin := h.origin.toNat, sseq := h.sseq.toNat, body := .bytes b }, h.second, none)])) ∧
    -- IDLE, SYNC, TICK
    (heard →
      (∀ crc b, e.trkCrc h 0x00 b crc = true → ∃ t, exec (.trunkIdle h crc b) s = .next t ∧ t.dev.tlane p = { x with silent := false } ∧
        onlyTrk t) ∧
      (∀ crc b (frac : Fin 16), e.trkCrc h 0x10 b crc = true →
        let f := fun k => leNat ((b.drop (8 * k)).take 8)
        let arrival := 16 * e.now + frac.val
        let sum := signed 64 (f 2 + 2 ^ 64 - f 1) + signed 64 (arrival + 2 ^ 64 - f 0)
        ∃ t, exec (.trunkSync h crc b frac) s = .next t ∧ (t.dev.tlane p).syncRx = some (f 0, arrival) ∧
          (f 1 = 0 → f 2 = 0 → (t.dev.tlane p).delay = x.delay) ∧
          (∀ k : Nat, f 1 ≠ 0 ∨ f 2 ≠ 0 → sum = 2 * (k : Int) → k < 2 ^ 24 → (t.dev.tlane p).delay = k)) ∧
      (∀ crc b (frac : Fin 16) residence, e.trkCrc h 0x11 b crc = true → e.joinedLodger = true → p ∈ e.uplinks →
        leNat ((b.drop 6).take 1) ≠ 0 → ∃ t, exec (.trunkTick h crc b frac residence) s = .next t ∧
          (h.sseq.toNat ∈ e.trk.seen → onlyTrk t) ∧
          (h.sseq.toNat ∉ e.trk.seen → h.sseq.toNat ∈ t.dev.trk.seen ∧
            (let joins := e.stk.joins = true ∧ e.stk.given ≠ none ∨ e.stk.running = false ∧ e.stk.timing = 2
             (¬joins → leNat (b.take 6) ≠ e.stk.stroke → t.dev.trkState = 3) ∧
             (joins ∨ leNat (b.take 6) = e.stk.stroke → t.dev.trkState = 2))))) ∧
    -- authentication
    (inTurn →
      (∀ crc b, e.trkCrc h 0x01 b crc = true → e.trkState = 1 ∨ e.trkJoined = true → x.state = 2 → x.theirAuth = none →
        ∃ t, exec (.trunkAuth h crc b) s = .next t ∧ took t ∧ sent t p ∧ (t.dev.tlane p).theirAuth = some b) ∧
      (∀ crc tag theirs, e.trkCrc h 0x02 tag crc = true → x.state = 2 → x.theirAuth = some theirs → x.depth ≠ x.theirDepth →
        let check := if e.keyPresent = false then 1 else if leNat ((theirs.drop 32).take 4) ≠ e.wb.stage then 2
          else if min x.depth x.theirDepth = 3 then 3 else if tag.take 48 ≠ e.laneTag x (decide (x.depth < x.theirDepth)) then 4 else 0
        ∃ t, exec (.trunkTag h crc tag) s = .next t ∧ took t ∧
          (check ≠ 0 → t.dev.fld (Reg.TRK_PORT_STATUS p) Fld.TRK_PORT_STATUS_FAIL = check ∧ (t.dev.tlane p).state = 2) ∧
          (check = 0 → (t.dev.tlane p).state = 3 ∧ (t.dev.tlane p).session = tag.take 8)) ∧
      (∀ crc b, e.trkCrc h 0x32 b crc = true → e.trkJoined = true → p ∈ e.uplinks → ∃ t, exec (.leave h crc b) s = .next t ∧
        t.dev.tlane p = { state := 2, delay := x.delay })) ∧
    -- up frames
    (inTurn → e.trkJoined = true → e.isDownlink p = true →
      (∀ cmd type crc b, sequenced cmd type crc b → type = 0x21 ∨ type = 0x24 ∨ type = 0x26 ∨ type = 0x27 ∨ type = 0x30 ∨ type = 0x32 →
        e.trkCrc h type b crc = true → e.originator = false →
        (e.steward = false → ∃ t, exec cmd s = .next t ∧ took t ∧ ∀ q ∈ e.uplinks, sent t q) ∧
        (e.steward = true → e.secondaryPaired = true → ∃ t, exec cmd s = .next t ∧ took t ∧ up t Reg.TWN_MIRROR_CNT)) ∧
      (e.originator = true →
        (∀ crc b, e.trkCrc h 0x32 b crc = true → who ∈ e.trk.roster → ∃ t, exec (.leave h crc b) s = .next t ∧ took t ∧
          who ∉ t.dev.trk.roster ∧ (e.trk.sets = [] → t.dev.flag Reg.TRK_EVENT Fld.TRK_EVENT_LEAVE = true)) ∧
        (∀ crc b, e.trkCrc h 0x30 b crc = true → who ∈ e.trk.roster →
          let r := e.fld Reg.TRK_RING Fld.TRK_RING_REC
          let room := isRecordClass (e.ringClass r) = true ∧ e.ringEn r = true ∧ e.ringOcc r < e.ringN r
          ∃ t, exec (.rollup h crc b) s = .next t ∧ took t ∧
            (room → up t Reg.TRK_ROLLUP_CNT ∧ (e.weak = [] ∧ e.damaged = [] ∨ bit (e.reg Reg.DEP_LOG_RING) 31 = false →
              t.dev.reg (Reg.RNG_RS_PROD r) = (e.reg (Reg.RNG_RS_PROD r) + 1) % 2 ^ 32)) ∧
            (¬room → up t Reg.TRK_ROLLUP_DROP_CNT ∧ t.dev.flag Reg.TRK_EVENT Fld.TRK_EVENT_ROLLUP_DROP = true)) ∧
        (∀ u, e.trk.sets = [u] → who ∈ e.trk.roster →
          (∀ crc b, e.trkCrc h 0x21 b crc = true → leNat (b.take 4) = u.number → u.phase = 0 →
            ∃ t, exec (.prepared h crc b) s = .next t ∧ took t ∧ t.dev.trk.sets =
              [{ u with answers := u.answers.filter (fun a => a.1 != who) ++ [(who, leNat ((b.drop 4).take 1))] }]) ∧
          (∀ crc m mask bad, m < 2 ^ 48 → u.number < 2 ^ 32 → mask < 2 ^ 64 → bad < 2 ^ 8 →
            let b := leBytes 6 m ++ leBytes 4 u.number ++ leBytes 8 mask ++ leBytes 1 bad
            e.trkCrc h 0x24 b crc = true → ∃ t, exec (.trunkReady h crc b) s = .next t ∧ took t ∧ t.dev.trk.sets =
              [{ u with ready := u.ready.filter (fun a => !(a.1 == m && a.2.1 == who)) ++ [(m, who, mask, bad != 0)] }]) ∧
          (∀ crc b, e.trkCrc h 0x26 b crc = true → leNat (b.take 4) = u.number → u.phase = 3 → who ∈ e.setDevices u →
            let now := u.applied.filter (fun a => a.1 != who) ++ [(who, leNat ((b.drop 10).take 1) != 0)]
            ∃ t, exec (.applied h crc b) s = .next t ∧ took t ∧
              ((∃ y ∈ e.setDevices u, ∀ a ∈ now, a.1 ≠ y) → t.dev.trk.sets = [{ u with applied := now }]) ∧
              ((∀ y ∈ e.setDevices u, ∃ a ∈ now, a.1 = y) → who ∉ u.released →
                t.dev.trk.sets = [{ u with applied := now, phase := 4 }])) ∧
          (∀ crc b, e.trkCrc h 0x27 b crc = true → leNat (b.take 4) = u.number → u.phase = 4 →
            ∃ t, exec (.released h crc b) s = .next t ∧ took t ∧
              ((∃ y ∈ e.setDevices u, y ≠ who ∧ y ∉ u.released) →
                t.dev.trk.sets = [{ u with released := u.released.filter (fun a => a != who) ++ [who] }]) ∧
              ((∀ y ∈ e.setDevices u, y = who ∨ y ∈ u.released) → t.dev.trk.sets = [] ∧
                (∀ f v, u.rf = some (f, v) → f < 1024 → e.advances f v = true → e.stk.timing ≠ 0 →
                  t.dev.reg (Reg.FLP_FENCE f) = v % 2 ^ 32)))))) ∧
    -- down frames
    (inTurn → e.joinedLodger = true → p ∈ e.uplinks → h.sseq.toNat ∉ e.trk.seen →
      (∀ cmd type crc b, sequenced cmd type crc b → type = 0x20 ∨ type = 0x22 ∨ type = 0x23 ∨ type = 0x25 ∨ type = 0x31 →
        e.trkCrc h type b crc = true → ∃ t, exec cmd s = .next t ∧ took t ∧ h.sseq.toNat ∈ t.dev.trk.seen ∧ ∀ q ∈ e.downlinks, sent t q) ∧
      (∀ crc b ok a, e.trkCrc h 0x20 b crc = true →
        let n := leNat ((b.drop 2).take 4)
        (leNat ((b.drop 1).take 1) ≠ e.wb.lodger → e.downlinks = [] → ∃ t, exec (.prepare h crc (.bytes b) ok a) s = .next t ∧
          t.dev.trk.groups = e.trk.groups ∧ onlyTrk t) ∧
        (leNat ((b.drop 1).take 1) = e.wb.lodger → e.trk.groups = [] → leNat ((b.drop 12).take 1) = 0 →
          (leNat ((b.drop 13).take 1) = 2 → ∃ t g, exec (.prepare h crc (.bytes b) ok a) s = .next t ∧ t.dev.trk.groups = [g] ∧
            g.number = n ∧ g.got = [(0, entriesOf 63 (b.drop 16))]) ∧
          (leNat ((b.drop 13).take 1) = 1 → ∃ t l more gains, exec (.prepare h crc (.bytes b) ok a) s = .next t ∧ t.dev.trk.groups = [] ∧
            (∀ q ∈ e.uplinks, sent t q) ∧ t.dev.flp.prepared = (e.giveSpace more gains).flp.prepared ++ l ∧ l.length ≤ 1 ∧ ∀ q ∈ l, q.origin = .trunk n))) ∧
      (∀ crc n im a, ∃ t, exec (.prepare h crc (.timing n im) true a) s = .next t ∧ took t ∧
        (h.sseq.toNat ≠ 0 → (∀ q ∈ e.uplinks, sent t q) ∧ (t.dev.trk.image = e.trk.image ∨ t.dev.trk.image = some (n, im.regs))) ∧
        (h.sseq.toNat = 0 → t.dev.trk.image = e.trk.image ∧ onlyTrk t)) ∧
      (∀ crc b, e.trkCrc h 0x22 b crc = true →
        let n := leNat (b.take 4)
        let held := e.flp.prepared.find? fun q => q.origin == .trunk n
        ∃ t, exec (.trunkCommit h crc b) s = .next t ∧
          (∀ q, held = some q → t.dev.flp.prepared = e.flp.prepared.erase q ∧ t.dev.flp.queue = e.flp.queue ++ [q]) ∧
          (∀ regs, held = none → e.trk.image = some (n, regs) → t.dev.trk.image = none ∧ t.dev.flp.prepared = e.flp.prepared)) ∧
      (∀ crc b, e.trkCrc h 0x23 b crc = true → ∃ t, exec (.abort h crc b) s = .next t ∧
        t.dev.flp.prepared = e.flp.prepared.filter (fun q => q.origin != .trunk (leNat (b.take 4))) ∧
        t.dev.trk.image.map (·.1) ≠ some (leNat (b.take 4)) ∧ t.dev.flp.queue = e.flp.queue) ∧
      (∀ crc b, e.trkCrc h 0x25 b crc = true → ∃ t l, exec (.trunkDecision h crc b) s = .next t ∧
        t.dev.trk.decisionFor = some (leNat (b.take 6)) ∧ t.dev.flp.decided = e.flp.decided ++ l ∧ ∀ y ∈ l, y.2.1 = leNat (b.take 6)) ∧
      (∀ crc b, e.trkCrc h 0x31 b crc = true → e.downlinks = [] →
        (bit (leNat (b.take 8)) e.wb.lodger = true → ∃ t, exec (.doorbell h crc b) s = .next t ∧ up t Reg.TRK_DOORBELL_CNT ∧
          t.dev.bel = (e.raise (leNat ((b.drop 8).take 2))).bel ∧
          Dev.OnlyBell { e with trk := t.dev.trk } t.dev (Reg.TRK_DOORBELL_CNT :: marks)) ∧
        (bit (leNat (b.take 8)) e.wb.lodger = false → ∃ t, exec (.doorbell h crc b) s = .next t ∧ onlyTrk t))) ∧
    -- the timing image of a lodger that has not joined
    (inTurn → e.trkState = 1 → e.wb.hierarchy = 2 → p ∈ e.uplinks → h.sseq.toNat = 0 →
      ∀ crc n im a, ∃ t, exec (.prepare h crc (.timing n im) true a) s = .next t ∧ took t ∧ t.dev.trkState = 2)

/-- Lanes, trunk states and trunk sets (R326 to R331, R334 to R340, R342 to R346, Tables 14.3 and 14.9). A lane that aligns begins its
authentication where the device may join; one that leaves alignment ends its session, and a lodger without an uplink goes ADRIFT.
Writes of TRK_CTRL and TRK_DB_CTRL act or are refused. The originator reads a TSET, commits or aborts it at its cutoff, and decides it
for its latch point; a lodger takes its readiness snapshot; a lost device leaves the roster, and its sets are aborted. Clauses that are the
model's choices of log 25: clearing JOIN_EN empties the roster, a lane with a frame sent 16 times again is trained again, STATE_ORIGIN
comes before DB_SOURCE, and a silent uplink is demoted. That a lane's AUTH has `SEQ` 0 (txSeq is 1 after it) and expects 0 (rxNext) is log
23. A lane's transmitter trains when the lane is trained again and goes on with codewords whatever the lane receives; none comes to
alignment while its quad PLL is not locked (R302, R326, R414; that a frame's codewords stand beside the frame is log 55). RETRY outside
ADRIFT and FAILED is refused (Table 14.9). The entries of a TSET are tested as they are read, once the ring holds it whole (R279). -/
def Obligations.TrunkStatesAndSetsGoOn : Prop :=
  ∀ (s : State) (p : Fin 128), s.dev.tap ≠ .extest →
    let e := s.dev
    let st := e.trkState
    let x := e.tlane p
    let ours := e.hasTrk = true ∧ e.role p = 4
    let up (t : State) (r n : Nat) : Prop := t.dev.reg r = min (e.reg r + n) 0xFFFFFFFF
    let event (t : State) (f : Fld) : Prop := t.dev.flag Reg.TRK_EVENT f = true
    let sent (t : State) (q : Nat) : Prop := (t.dev.tlane q).txSeq = ((e.tlane q).txSeq + 1) % 2 ^ 32
    let still (cmd : Instr) : Prop := ∃ t, exec cmd s = .next t ∧ Dev.OnlyRegs e t.dev []
    let torn (t : State) (y : Nat) : Prop := t.dev.tlane p = { state := y, delay := x.delay }
    -- lanes
    (ours → x.state = 1 → e.quadLocked (p / 4) = true → ∃ t, exec (.trunkLaneAligned p) s = .next t ∧ (t.dev.tlane p).state = 2 ∧
      (t.dev.tlane p).rxNext = 0 ∧ (∀ y, Out.lane p y ∉ t.dev.out) ∧
      (e.flag Reg.TRK_CTRL Fld.TRK_CTRL_JOIN_EN = false ∨ e.sdp.power = 2 → torn t 2) ∧
      (e.flag Reg.TRK_CTRL Fld.TRK_CTRL_JOIN_EN = true → e.sdp.power ≠ 2 → st = 0 ∨ st = 1 → t.dev.trkState = 1 ∧
        (t.dev.tlane p).nonce.length = 32 ∧ (t.dev.tlane p).txSeq = 1)) ∧
    (¬ours ∨ x.state ≠ 1 ∨ e.quadLocked (p / 4) = false → still (.trunkLaneAligned p)) ∧
    (ours → 2 ≤ x.state → ∃ t, exec (.trunkLaneLosesAlignment p) s = .next t ∧ torn t 1 ∧ t.dev.out = [] ∧
      (e.trkJoined = true → e.steward = false → (∀ q ∈ e.uplinks, q = p.val) → t.dev.trkState = 3)) ∧
    (¬ours ∨ x.state < 2 → still (.trunkLaneLosesAlignment p)) ∧
    (let waits := ours ∧ x.state = 2 ∧ (st = 1 ∨ e.trkJoined = true)
     (waits → ∃ t, exec (.trunkAuthTimeout p) s = .next t ∧
       t.dev.fld (Reg.TRK_PORT_STATUS p) Fld.TRK_PORT_STATUS_FAIL = 5 ∧ t.dev.tlane p = x ∧
       (st = 1 → (∀ q ∈ e.portsOf 4, q = p.val) → t.dev.trkState = 4) ∧ (st ≠ 1 → t.dev.trkState = st)) ∧
     (¬waits → still (.trunkAuthTimeout p))) ∧
    (ours → 2 ≤ x.state → ∃ t, exec (.trunkResend p) s = .next t ∧
      ((∃ y ∈ x.sent, 16 ≤ y.resends) → torn t 1 ∧ Out.lane p (e.pairDrive p) ∈ t.dev.out) ∧
      ((∀ y ∈ x.sent, y.resends < 16) → up t Reg.TRK_RETRANSMIT_CNT x.sent.length ∧
        (t.dev.out.filter Out.isFrame).length = x.sent.length ∧
        t.dev.tlane p = { x with sent := x.sent.map fun y => { y with resends := y.resends + 1 } })) ∧
    (¬ours ∨ x.state < 2 → still (.trunkResend p)) ∧
    (∀ a, e.trk.active = some a →
      let live := e.uplinks.filter fun q => q != a && !(e.tlane q).silent
      ∃ t, exec .uplink s = .next t ∧ (t.dev.tlane a).silent = true ∧ (t.dev.tlane a).demoted = true ∧
        (∀ q, (live.find? (fun y => !(e.tlane y).demoted) <|> live.head?) = some q → t.dev.trk.active = some q ∧ up t Reg.TRK_UPLINK_CNT 1 ∧ event t Fld.TRK_EVENT_UPLINK) ∧
        (live = [] → t.dev.trk.active = none ∧ (e.trkJoined = true → e.steward = false → t.dev.trkState = 3))) ∧
    (e.trk.active = none → still .uplink) ∧
    (e.access (Reg.TRK_PORT_CTRL p % 0x10000000) = .normal (Reg.TRK_PORT_CTRL p) →
      (x.state ≠ 0 → e.flag (Reg.TRK_PORT_CTRL p) Fld.TRK_PORT_CTRL_EN = true → ∃ t, exec (.trunkPortRetrain p) s = .next t ∧
        torn t 1 ∧ Out.lane p (e.pairDrive p) ∈ t.dev.out ∧ event t Fld.TRK_EVENT_TORN ∧ t.dev.epochs = (e.newEpoch p).epochs) ∧
      (x.state = 0 → e.flag (Reg.TRK_PORT_CTRL p) Fld.TRK_PORT_CTRL_EN = false → ∃ t, exec (.trunkPortRetrain p) s = .next t ∧
        Dev.Refused e t.dev (Reg.TRK_PORT_BLKID p) 1 ∧
        Dev.OnlyRegs e t.dev [Reg.TRK_PORT_CTRL p, Reg.TRK_PORT_REFUSED p, Reg.TRK_PORT_REFUSED_CNT p])) ∧
    (ours → 2 ≤ x.state → ∀ frac, ∃ t bs, exec (.trunkSyncSend frac) s = .next t ∧
      t.dev.trk = { e.trk with codes := t.dev.trk.codes } ∧ Out.frame p bs ∈ t.dev.out ∧
      bs[0]? = some 0x10 ∧ (t.dev.out.filter Out.isFrame).length = ((e.portsOf 4).filter fun q => decide (2 ≤ (e.tlane q).state)).length) ∧
    (e.hasTrk = false → ∀ frac, still (.trunkSyncSend frac)) ∧
    -- writes
    (e.access Reg.TRK_CTRL = .normal Reg.TRK_CTRL → bit (e.reg Reg.TRK_CTRL) 1 = false → e.hasTrk = true →
      (st = 1 ∨ st = 2 → ∃ t, exec .trunkRetry s = .next t ∧ Dev.Refused e t.dev Reg.TRK_BLKID 2 ∧ t.dev.trkState = st) ∧
      (st = 0 → e.flag Reg.TRK_CTRL Fld.TRK_CTRL_JOIN_EN = false ∨ 2 ≤ e.sdp.power → ∃ t, exec .trunkRetry s = .next t ∧
        Dev.Refused e t.dev Reg.TRK_BLKID 2 ∧ t.dev.trkState = 0 ∧
        Dev.OnlyRegs e t.dev [Reg.TRK_CTRL, Reg.TRK_REFUSED, Reg.TRK_REFUSED_CNT]) ∧
      (st = 3 ∨ st = 4 →
        ((∃ q ∈ e.portsOf 4, 2 ≤ (e.tlane q).state) → ∃ t, exec .trunkRetry s = .next t ∧ t.dev.trkState = 1 ∧ t.dev.trk.seen = []) ∧
        ((∀ q ∈ e.portsOf 4, (e.tlane q).state < 2) → ∃ t, exec .trunkRetry s = .next t ∧ Dev.OnlyRegs e t.dev [Reg.TRK_CTRL])) ∧
      (e.flag Reg.TRK_CTRL Fld.TRK_CTRL_JOIN_EN = true → ∃ t, exec .joinEn s = .next t ∧ t.dev.trkState = 0 ∧
        t.dev.trk.roster = [] ∧ (e.trk.sets = [] → t.dev.flag Reg.TRK_CTRL Fld.TRK_CTRL_JOIN_EN = false) ∧
        (e.trkJoined = true → e.trk.roster = [] → ∀ q ∈ e.portsOf 4, (e.tlane q).state = 3 → sent t q)) ∧
      (e.flag Reg.TRK_CTRL Fld.TRK_CTRL_JOIN_EN = false → ∃ t, exec .joinEn s = .next t ∧ Dev.OnlyRegs e t.dev [Reg.TRK_CTRL])) ∧
    (e.access Reg.TRK_DB_CTRL = .normal Reg.TRK_DB_CTRL →
      let src := e.fld Reg.TRK_DB_SOURCE Fld.TRK_DB_SOURCE_SOURCE
      let good := 0x7000 ≤ src ∧ src ≤ 0x7EFF
      (e.originator = false → ∃ t, exec .doorbellSend s = .next t ∧ Dev.Refused e t.dev Reg.TRK_BLKID 7 ∧
        Dev.OnlyRegs e t.dev [Reg.TRK_REFUSED, Reg.TRK_REFUSED_CNT]) ∧
      (e.originator = true → ¬good → ∃ t, exec .doorbellSend s = .next t ∧ Dev.Refused e t.dev Reg.TRK_BLKID 6 ∧
        Dev.OnlyRegs e t.dev [Reg.TRK_REFUSED, Reg.TRK_REFUSED_CNT]) ∧
      (e.originator = true → good → e.trkJoined = false → still .doorbellSend) ∧
      (e.originator = true → good → e.trkJoined = true → e.twnState ≠ 3 → ∃ t, exec .doorbellSend s = .next t ∧
        t.dev.trk.sseq = (e.trk.sseq + 1) % 2 ^ 32 ∧ ∀ q ∈ e.downlinks, sent t q)) ∧
    -- lodgers
    (e.joinedLodger = true → ∃ t, exec .rollupSend s = .next t ∧ ∀ q ∈ e.uplinks, sent t q) ∧
    (e.joinedLodger = false → still .rollupSend) ∧
    (e.joinedLodger = true → e.timed = true → e.stk.latched = false → ∃ t shots, exec .readinessSnapshot s = .next t ∧
      t.dev.trk.snapshot = some (e.nextStroke, shots) ∧
      (e.eligibleSets e.nextStroke true = [] → shots = [] ∧ t.dev.trk = { e.trk with snapshot := some (e.nextStroke, []) }) ∧
      (e.eligibleSets e.nextStroke true ≠ [] → ∀ q ∈ e.uplinks, sent t q)) ∧
    (e.joinedLodger = false ∨ e.timed = false ∨ e.stk.latched = true → still .readinessSnapshot) ∧
    (∀ (i : Fin 64) (second : Bool), let who := (i.val, second)
      (e.originator = true → who ∈ e.trk.roster → ∃ t, exec (.lodgerLoss i second) s = .next t ∧
        t.dev.trk.roster = e.trk.roster.filter (fun y => y != who) ∧
        (e.trk.sets = [] → event t Fld.TRK_EVENT_LEAVE ∧
          bit (t.dev.reg (if i.val < 32 then Reg.TRK_ROSTER_LO else Reg.TRK_ROSTER_HI)) (i.val % 32) =
            e.trk.roster.contains (i.val, !second)) ∧
        (∀ u, e.trk.sets = [u] → u.phase = 0 → (u.groups.any fun g => g.1 == i.val) = true → (i.val, !second) ∉ e.trk.roster →
          (∀ y, u.ring = some y → y.1 < 16384) → t.dev.trk.sets = [] ∧ up t Reg.TRK_ABORT_CNT 1)) ∧
      (e.originator = false ∨ who ∉ e.trk.roster → still (.lodgerLoss i second))) ∧
    -- trunk sets
    (let r := e.trunkRing
     let cons := Reg.RNG_RS_CONS r
     let done := Reg.RNG_RS_DONE_CNT r
     let reads := e.originator = true ∧ e.trkJoined = true ∧ e.loaded = true ∧ e.ringClass r = classTrunk ∧ e.ringReadable r = true
     let whole := if opOf (e.ringEntry r (e.ringCons r)) = 8 then e.frontEntries r else 1
     let bound := (e.ringBind r (2 * Reg.TRK_RING)).2
     let f := if whole ≤ e.unreadIn r then bound.ringFetch r 0 whole else bound
     let en := f.ringEntry r (f.ringCons r)
     let k := bits (wordOf en 0) 14 8
     let n := 1 + f.groupEntries r 1 k
     let gs := f.trunkGroups r 1 k
     let target := if (setHead en).next then f.nextCutoff 4096 f.firstLatch else (setHead en).target
     let passed (t : State) (m : Nat) : Prop := t.dev.reg cons = (f.reg cons + m) % 2 ^ 32
     let rejected (t : State) : Prop := passed t n ∧ t.dev.reg done = (f.reg done + 1) % 2 ^ 32 ∧ t.dev.trk = f.trk
     let counts (t : State) (c : Nat) : Prop := t.dev.reg c = min (f.reg c + 1) 0xFFFFFFFF
     (e.ReadsWhole (e.entryBlocks r (e.ringCons r) whole) → Dev.OnlyRegs bound f [Reg.MEM_STATUS]) ∧
     (¬reads → still .tset) ∧
     (reads → (e.ringSt r).bound = none ∨ (e.ringSt r).bound = some (2 * Reg.TRK_RING) → f.sdp.power ≠ 1 →
       (opOf en ≠ 8 → ∃ t, exec .tset s = .next t ∧ passed t 1 ∧ t.dev.reg done = (f.reg done + 1) % 2 ^ 32 ∧ t.dev.trk = f.trk) ∧
       (opOf en = 8 → f.unreadIn r < n → ∃ t, exec .tset s = .next t ∧ Dev.OnlyRegs f t.dev []) ∧
       (opOf en = 8 → n ≤ f.unreadIn r → ∃ t, exec .tset s = .next t ∧
         (f.tsetGood en gs = false ∨ f.tooFar target = true → rejected t ∧ counts t Reg.FLP_MALFORMED_CNT) ∧
         (f.tsetGood en gs = true → f.tooFar target = false → f.cutoffPassed target = true → rejected t ∧ counts t Reg.FLP_LATE_CNT) ∧
         (f.tsetGood en gs = true → f.tooFar target = false → f.cutoffPassed target = false →
           ((∃ g ∈ gs, ∀ y ∈ f.trk.roster, y.1 ≠ (setHead g.1).lodger) → rejected t) ∧
           ((∀ g ∈ gs, ∃ y ∈ f.trk.roster, y.1 = (setHead g.1).lodger) → ∃ u, t.dev.trk.sets = f.trk.sets ++ [u] ∧
             u.number = f.trk.nextSet ∧ u.target = target ∧ u.deadline = (setHead en).deadline ∧ u.tag = wordOf en 7 ∧ u.phase = 0 ∧
             t.dev.trk.nextSet = (f.trk.nextSet + 1) % 2 ^ 32 ∧ passed t n ∧ t.dev.reg done = f.reg done))))) ∧
    (let acts := e.originator = true ∧ e.trkJoined = true
     (¬acts ∨ (∀ u ∈ e.trk.sets, u.phase ≠ 0 ∨ e.latchTime u.target = none) → still .commitCutoff) ∧
     (∀ u when, acts → e.trk.sets = [u] → u.phase = 0 → e.latchTime u.target = some when →
       let answer (y : Nat × Bool) : Option Nat := (u.answers.find? fun a => a.1 == y).map (·.2)
       ∃ t, exec .commitCutoff s = .next t ∧
         (u.ring ≠ none → (∀ y ∈ e.setDevices u, answer y = some 0) → t.dev.trk.sets = [{ u with phase := 1 }] ∧ up t Reg.TRK_SET_CNT 1) ∧
         (u.ring ≠ none → (∃ y ∈ e.setDevices u, answer y ≠ some 0) → (∀ y, u.ring = some y → y.1 < 16384) →
           t.dev.trk.sets = [] ∧ up t Reg.TRK_ABORT_CNT 1) ∧
         (u.ring = none → t.dev.trk.sets = [] ∧
           ((∃ y ∈ e.setDevices u, ∃ v, answer y = some v ∧ v ≠ 0) → t.dev.stk.reframe = none))) ∧
     (¬acts ∨ e.timed = false ∨ e.stk.latched = true → still .decisionSend) ∧
     (∀ u, acts → e.timed = true → e.stk.latched = false → e.trk.sets = [u] →
       let m := e.nextStroke
       let got (y : Nat × Bool) : Option (Nat × Bool) := (u.ready.find? fun r => r.1 == m && r.2.1 == y).map fun r => (r.2.2.1, r.2.2.2)
       let late := (e.setDevices u).filter fun y => (got y).isNone
       let waits (y : Nat × Bool) : List (Option Bool) := ((u.groups.find? fun g => g.1 == y.1).map (·.2)).getD []
       ∃ t, exec .decisionSend s = .next t ∧
         (u.ring = none ∨ u.phase ≠ 1 ∨ strokeGe m u.target = false → t.dev.trk = e.trk) ∧
         (u.ring ≠ none → u.phase = 1 → strokeGe m u.target = true → ∃ o held, o ≤ 2 ∧
           t.dev.trk.sets = [{ u with ready := [], decided := some (m, o), phase := if o = 1 then 1 else 2, heldAny := held }] ∧
           t.dev.trk.sseq = (e.trk.sseq + 1) % 2 ^ 32 ∧ (late ≠ [] → up t Reg.TRK_READY_LATE_CNT late.length) ∧
           ((∃ y ∈ e.setDevices u, ∃ mask, got y = some (mask, true)) → o = 2) ∧
           ((∀ y ∈ e.setDevices u, ∃ mask, got y = some (mask, false) ∧ groupMissing (waits y) mask = (false, false)) →
             o = 0 ∧ held = false) ∧
           (strokeGe m (strokeAdd u.target u.deadline) = true → (∀ y ∈ e.setDevices u, ∀ mask, got y ≠ some (mask, true)) → o = 0))))
end

