-- ==== Sys2Proof/Laws/KeepsBase.lean ====
section
/-! SUPPORT. What keeps the fuses, the access port, the waybill, the flash, the security state and the point of the boot sequence, one lemma for each operation. -/

set_option linter.unusedVariables false

namespace Sys2Proof.Machine

/-- What the predicate does not look at may change. -/
theorem Dev.Keeps.keep {e d : Dev} (now : Nat) (free : Nat) (out : List Out) (regs : Tab Word) (mem : Tab Byte) (damaged : List Nat) (weak : List Nat) (epochs : Tab Nat) (hostMem : Tab Byte) (bridgeFails : Tab Nat) (sdp : Sdp) (bel : Bel) (rings : Tab RingSt) (dbg : Dbg) (depLogged : List (List Nat)) (stk : Stk) (staging : Tab Byte) (prt : Prt) (ladders : List Ladder) (stagingDamaged : List Nat) (flp : Flp) (stl : Stl) (coaches : Tab Coach) (scrub : Option Nat) (twn : Twn) (lines : Tab Rlc) (sips : Tab Sip) (ctxs : Tab Ctx) (trk : Trk) (blt : Blt) (tallies : Tab Tly) (ckg : Ckg) (hsec : sdp.sec = d.sdp.sec) :
    Dev.Keeps e (Dev.mk now free out regs mem damaged weak epochs hostMem d.flash bridgeFails d.fuses d.wb d.boot sdp bel rings dbg d.tap depLogged stk staging prt ladders stagingDamaged flp stl coaches scrub twn lines sips ctxs trk blt tallies ckg) ↔ Dev.Keeps e d :=
  ⟨fun h => ⟨h.1, h.2, h.3, h.4, (hsec.symm).trans h.5, h.6⟩, fun h => ⟨h.1, h.2, h.3, h.4, (hsec).trans h.5, h.6⟩⟩

/-- The state of the always-on island may be that of an earlier device, if its security state is that of the first. -/
theorem Dev.Keeps.withSdp {e d : Dev} {sdp : Sdp} (h : Dev.Keeps e d) (hs : sdp.sec = e.sdp.sec) :
    Dev.Keeps e { d with sdp := sdp } := ⟨h.1, h.2, h.3, h.4, hs, h.6⟩

theorem Dev.Keeps.refl (d : Dev) : Dev.Keeps d d := ⟨rfl, rfl, rfl, rfl, rfl, rfl⟩

theorem Dev.Keeps.fixed {e d : Dev} (h : Dev.Keeps e d) : Dev.KeepsFixed e d := ⟨h.1, h.2, h.3, h.4, h.5⟩

theorem Dev.Keeps.foldl {α : Type} {f : Dev → α → Dev} (l : List α) {e d : Dev} (h : Dev.Keeps e d)
    (hf : ∀ d x, Dev.Keeps e d → Dev.Keeps e (f d x)) : Dev.Keeps e (l.foldl f d) := by
  induction l generalizing d with
  | nil => exact h
  | cons x l ih => exact ih (hf d x h)

theorem Dev.Keeps.foldl_fst {α β : Type} {f : Dev × β → α → Dev × β} (l : List α) {e : Dev} {a : Dev × β} (h : Dev.Keeps e a.1)
    (hf : ∀ a x, Dev.Keeps e a.1 → Dev.Keeps e (f a x).1) : Dev.Keeps e (l.foldl f a).1 := by
  induction l generalizing a with
  | nil => exact h
  | cons x l ih => exact ih (hf a x h)

theorem Dev.Keeps.ite {c : Prop} [Decidable c] {e a b : Dev} (ha : c → Dev.Keeps e a) (hb : ¬c → Dev.Keeps e b) :
    Dev.Keeps e (if c then a else b) := by
  split
  · exact ha ‹_›
  · exact hb ‹_›

theorem Dev.Keeps.ite_snd {α : Type} {c : Prop} [Decidable c] {e : Dev} {a b : α × Dev} (ha : c → Dev.Keeps e a.2)
    (hb : ¬c → Dev.Keeps e b.2) : Dev.Keeps e (if c then a else b).2 := by
  split
  · exact ha ‹_›
  · exact hb ‹_›

theorem Dev.Keeps.ite_pair {α : Type} {c : Prop} [Decidable c] {e d : Dev} (h : Dev.Keeps e d) (a : α) {r : Nat × Dev}
    (hr : Dev.Keeps e r.2) (g : Nat → α) : Dev.Keeps e (if c then (a, d) else (g r.1, r.2)).2 := by
  split
  · exact h
  · exact hr

end Sys2Proof.Machine
end

