-- ==== Sys2Proof/Laws/KeepsOps.lean ====
section
/-! SUPPORT. Ops. -/

set_option linter.unusedTactic false
set_option linter.unreachableTactic false
set_option linter.unusedVariables false
set_option linter.unusedSimpArgs false

namespace Sys2Proof.Machine

theorem Dev.memPut_keeps {e₀ d : Dev} (h : Dev.Keeps e₀ d) (a : Nat) (bs : List Byte) : Dev.Keeps e₀ (Dev.memPut d a bs) := by
  unfold Dev.memPut
  try dsimp only
  repeat' first
    | with_reducible assumption
    | with_reducible apply Dev.Keeps.ite
    | with_reducible apply Dev.Keeps.ite_snd
    | with_reducible apply Dev.Keeps.foldl
    | simp only [Dev.Keeps.keep]
    | (intro _; intros; try dsimp only)
    | dsimp only
    | (split; all_goals try dsimp only)

theorem Dev.setReg_keeps {e₀ d : Dev} (h : Dev.Keeps e₀ d) (off : Nat) (v : Nat) : Dev.Keeps e₀ (Dev.setReg d off v) := by
  unfold Dev.setReg
  try dsimp only
  repeat' first
    | with_reducible assumption
    | with_reducible apply Dev.Keeps.ite
    | with_reducible apply Dev.Keeps.ite_snd
    | with_reducible apply Dev.Keeps.foldl
    | simp only [Dev.Keeps.keep]
    | (intro _; intros; try dsimp only)
    | dsimp only
    | (split; all_goals try dsimp only)

theorem Dev.memPowerUp_keeps {e₀ d : Dev} (h : Dev.Keeps e₀ d) (c : Nat) : Dev.Keeps e₀ (Dev.memPowerUp d c) := by
  unfold Dev.memPowerUp
  try dsimp only
  repeat' first
    | with_reducible assumption
    | with_reducible apply Dev.setReg_keeps
    | with_reducible apply Dev.Keeps.ite
    | with_reducible apply Dev.Keeps.ite_snd
    | with_reducible apply Dev.Keeps.foldl
    | simp only [Dev.Keeps.keep]
    | (intro _; intros; try dsimp only)
    | dsimp only
    | (split; all_goals try dsimp only)

theorem Dev.memWake_keeps {e₀ d : Dev} (hk : Dev.Keeps e₀ d) (blocks : List Nat) :
    Dev.Keeps e₀ (Dev.memWake d blocks) := by
  unfold Dev.memWake
  try dsimp only
  repeat' first
    | with_reducible assumption
    | with_reducible apply Dev.memPowerUp_keeps
    | with_reducible apply Dev.Keeps.ite
    | with_reducible apply Dev.Keeps.ite_snd
    | with_reducible apply Dev.Keeps.foldl
    | simp only [Dev.Keeps.keep]
    | (intro _; intros; try dsimp only)
    | dsimp only
    | (split; all_goals try dsimp only)

theorem Dev.memWrite_keeps {e₀ d : Dev} (h : Dev.Keeps e₀ d) (a : Nat) (bs : List Byte) : Dev.Keeps e₀ (Dev.memWrite d a bs) := by
  unfold Dev.memWrite
  try dsimp only
  repeat' first
    | with_reducible assumption
    | with_reducible apply Dev.memWake_keeps
    | with_reducible apply Dev.memPut_keeps
    | with_reducible apply Dev.Keeps.ite
    | with_reducible apply Dev.Keeps.ite_snd
    | with_reducible apply Dev.Keeps.foldl
    | simp only [Dev.Keeps.keep]
    | (intro _; intros; try dsimp only)
    | dsimp only
    | (split; all_goals try dsimp only)

theorem Dev.setRegs_keeps {e₀ d : Dev} (h : Dev.Keeps e₀ d) (off : Nat) (x1 : List Nat) : Dev.Keeps e₀ (Dev.setRegs d off x1) := by
  induction x1 generalizing d off with
  | nil => exact h
  | cons v vs ih => exact ih (Dev.setReg_keeps h off v) (off + 4)

theorem Dev.clearRegs_keeps {e₀ d : Dev} (h : Dev.Keeps e₀ d) (off : Nat) (n : Nat) : Dev.Keeps e₀ (Dev.clearRegs d off n) := by
  unfold Dev.clearRegs
  try dsimp only
  repeat' first
    | with_reducible assumption
    | with_reducible apply Dev.Keeps.ite
    | with_reducible apply Dev.Keeps.ite_snd
    | with_reducible apply Dev.Keeps.foldl
    | simp only [Dev.Keeps.keep]
    | (intro _; intros; try dsimp only)
    | dsimp only
    | (split; all_goals try dsimp only)

theorem Dev.tickFree_keeps {e₀ d : Dev} (h : Dev.Keeps e₀ d) : Dev.Keeps e₀ (Dev.tickFree d) := by
  unfold Dev.tickFree
  try dsimp only
  repeat' first
    | with_reducible assumption
    | with_reducible apply Dev.Keeps.ite
    | with_reducible apply Dev.Keeps.ite_snd
    | with_reducible apply Dev.Keeps.foldl
    | simp only [Dev.Keeps.keep]
    | (intro _; intros; try dsimp only)
    | dsimp only
    | (split; all_goals try dsimp only)

theorem Dev.freshNat_keeps {e₀ d : Dev} (h : Dev.Keeps e₀ d) : Dev.Keeps e₀ (Dev.freshNat d).2 := by
  unfold Dev.freshNat
  try dsimp only
  repeat' first
    | with_reducible assumption
    | with_reducible apply Dev.tickFree_keeps
    | with_reducible apply Dev.Keeps.ite
    | with_reducible apply Dev.Keeps.ite_snd
    | with_reducible apply Dev.Keeps.foldl
    | simp only [Dev.Keeps.keep]
    | (intro _; intros; try dsimp only)
    | dsimp only
    | (split; all_goals try dsimp only)

theorem Dev.freshBool_keeps {e₀ d : Dev} (h : Dev.Keeps e₀ d) : Dev.Keeps e₀ (Dev.freshBool d).2 := by
  unfold Dev.freshBool
  try dsimp only
  repeat' first
    | with_reducible assumption
    | with_reducible apply Dev.tickFree_keeps
    | with_reducible apply Dev.Keeps.ite
    | with_reducible apply Dev.Keeps.ite_snd
    | with_reducible apply Dev.Keeps.foldl
    | simp only [Dev.Keeps.keep]
    | (intro _; intros; try dsimp only)
    | dsimp only
    | (split; all_goals try dsimp only)

theorem Dev.freshBytes_keeps {e₀ d : Dev} (h : Dev.Keeps e₀ d) (n : Nat) : Dev.Keeps e₀ (Dev.freshBytes d n).2 := by
  unfold Dev.freshBytes
  try dsimp only
  repeat' first
    | with_reducible assumption
    | with_reducible apply Dev.Keeps.ite
    | with_reducible apply Dev.Keeps.ite_snd
    | with_reducible apply Dev.Keeps.foldl
    | simp only [Dev.Keeps.keep]
    | (intro _; intros; try dsimp only)
    | dsimp only
    | (split; all_goals try dsimp only)

theorem Dev.setFld_keeps {e₀ d : Dev} (h : Dev.Keeps e₀ d) (off : Nat) (f : Fld) (x : Nat) : Dev.Keeps e₀ (Dev.setFld d off f x) := by
  unfold Dev.setFld
  try dsimp only
  repeat' first
    | with_reducible assumption
    | with_reducible apply Dev.setReg_keeps
    | with_reducible apply Dev.Keeps.ite
    | with_reducible apply Dev.Keeps.ite_snd
    | with_reducible apply Dev.Keeps.foldl
    | simp only [Dev.Keeps.keep]
    | (intro _; intros; try dsimp only)
    | dsimp only
    | (split; all_goals try dsimp only)

theorem Dev.hostPut_keeps {e₀ d : Dev} (h : Dev.Keeps e₀ d) (a : Nat) (bs : List Byte) : Dev.Keeps e₀ (Dev.hostPut d a bs) := by
  unfold Dev.hostPut
  try dsimp only
  repeat' first
    | with_reducible assumption
    | with_reducible apply Dev.Keeps.ite
    | with_reducible apply Dev.Keeps.ite_snd
    | with_reducible apply Dev.Keeps.foldl
    | simp only [Dev.Keeps.keep]
    | (intro _; intros; try dsimp only)
    | dsimp only
    | (split; all_goals try dsimp only)

theorem Dev.emit_keeps {e₀ d : Dev} (h : Dev.Keeps e₀ d) (o : Out) : Dev.Keeps e₀ (Dev.emit d o) := by
  unfold Dev.emit
  try dsimp only
  repeat' first
    | with_reducible assumption
    | with_reducible apply Dev.Keeps.ite
    | with_reducible apply Dev.Keeps.ite_snd
    | with_reducible apply Dev.Keeps.foldl
    | simp only [Dev.Keeps.keep]
    | (intro _; intros; try dsimp only)
    | dsimp only
    | (split; all_goals try dsimp only)

theorem Dev.setDamaged_keeps {e₀ d : Dev} (h : Dev.Keeps e₀ d) (b : Nat) (bad : Bool) : Dev.Keeps e₀ (Dev.setDamaged d b bad) := by
  unfold Dev.setDamaged
  try dsimp only
  repeat' first
    | with_reducible assumption
    | with_reducible apply Dev.Keeps.ite
    | with_reducible apply Dev.Keeps.ite_snd
    | with_reducible apply Dev.Keeps.foldl
    | simp only [Dev.Keeps.keep]
    | (intro _; intros; try dsimp only)
    | dsimp only
    | (split; all_goals try dsimp only)

theorem Dev.setPair_keeps {e₀ d : Dev} (h : Dev.Keeps e₀ d) (lo : Nat) (hi : Nat) (x : Nat) : Dev.Keeps e₀ (Dev.setPair d lo hi x) := by
  unfold Dev.setPair
  try dsimp only
  repeat' first
    | with_reducible assumption
    | with_reducible apply Dev.setReg_keeps
    | with_reducible apply Dev.Keeps.ite
    | with_reducible apply Dev.Keeps.ite_snd
    | with_reducible apply Dev.Keeps.foldl
    | simp only [Dev.Keeps.keep]
    | (intro _; intros; try dsimp only)
    | dsimp only
    | (split; all_goals try dsimp only)

end Sys2Proof.Machine
end

