-- ==== Sys2Proof/Laws/KeepsFlags.lean ====
section
/-! SUPPORT. Flags. -/

set_option linter.unusedTactic false
set_option linter.unreachableTactic false
set_option linter.unusedVariables false
set_option linter.unusedSimpArgs false

namespace Sys2Proof.Machine

theorem Dev.countBy_keeps {e₀ d : Dev} (h : Dev.Keeps e₀ d) (off : Nat) (n : Nat) : Dev.Keeps e₀ (Dev.countBy d off n) := by
  unfold Dev.countBy
  try dsimp only
  repeat' first
    | with_reducible assumption
    | with_reducible apply Dev.setReg_keeps
    | with_reducible apply Dev.Keeps.ite
    | with_reducible apply Dev.Keeps.ite_snd
    | with_reducible apply Dev.Keeps.foldl
    | simp only [Dev.Keeps.keep]
    | (intro _; intros; try dsimp only)
    | dsimp only
    | (split; all_goals try dsimp only)

theorem Dev.count_keeps {e₀ d : Dev} (h : Dev.Keeps e₀ d) (off : Nat) : Dev.Keeps e₀ (Dev.count d off) := by
  unfold Dev.count
  try dsimp only
  repeat' first
    | with_reducible assumption
    | with_reducible apply Dev.countBy_keeps
    | with_reducible apply Dev.Keeps.ite
    | with_reducible apply Dev.Keeps.ite_snd
    | with_reducible apply Dev.Keeps.foldl
    | simp only [Dev.Keeps.keep]
    | (intro _; intros; try dsimp only)
    | dsimp only
    | (split; all_goals try dsimp only)

theorem Dev.clearBeside_keeps {e₀ d : Dev} (h : Dev.Keeps e₀ d) (off : Nat) (lead : Nat) (beside : List Nat) : Dev.Keeps e₀ (Dev.clearBeside d off lead beside) := by
  unfold Dev.clearBeside
  try dsimp only
  repeat' first
    | with_reducible assumption
    | with_reducible apply Dev.setReg_keeps
    | with_reducible apply Dev.Keeps.ite
    | with_reducible apply Dev.Keeps.ite_snd
    | with_reducible apply Dev.Keeps.foldl
    | simp only [Dev.Keeps.keep]
    | (intro _; intros; try dsimp only)
    | dsimp only
    | (split; all_goals try dsimp only)

theorem Dev.quiet_keeps {e₀ d : Dev} (h : Dev.Keeps e₀ d) : Dev.Keeps e₀ (Dev.quiet d) := by
  unfold Dev.quiet
  try dsimp only
  repeat' first
    | with_reducible assumption
    | with_reducible apply Dev.Keeps.ite
    | with_reducible apply Dev.Keeps.ite_snd
    | with_reducible apply Dev.Keeps.foldl
    | simp only [Dev.Keeps.keep]
    | (intro _; intros; try dsimp only)
    | dsimp only
    | (split; all_goals try dsimp only)

theorem Dev.countWrap_keeps {e₀ d : Dev} (h : Dev.Keeps e₀ d) (off : Nat) : Dev.Keeps e₀ (Dev.countWrap d off) := by
  unfold Dev.countWrap
  try dsimp only
  repeat' first
    | with_reducible assumption
    | with_reducible apply Dev.setReg_keeps
    | with_reducible apply Dev.Keeps.ite
    | with_reducible apply Dev.Keeps.ite_snd
    | with_reducible apply Dev.Keeps.foldl
    | simp only [Dev.Keeps.keep]
    | (intro _; intros; try dsimp only)
    | dsimp only
    | (split; all_goals try dsimp only)

theorem Dev.setFlag_keeps {e₀ d : Dev} (h : Dev.Keeps e₀ d) (off : Nat) (f : Fld) : Dev.Keeps e₀ (Dev.setFlag d off f) := by
  unfold Dev.setFlag
  try dsimp only
  repeat' first
    | with_reducible assumption
    | with_reducible apply Dev.setFld_keeps
    | with_reducible apply Dev.Keeps.ite
    | with_reducible apply Dev.Keeps.ite_snd
    | with_reducible apply Dev.Keeps.foldl
    | simp only [Dev.Keeps.keep]
    | (intro _; intros; try dsimp only)
    | dsimp only
    | (split; all_goals try dsimp only)

theorem Dev.refuse_keeps {e₀ d : Dev} (h : Dev.Keeps e₀ d) (base : Nat) (reason : Nat) : Dev.Keeps e₀ (Dev.refuse d base reason) := by
  unfold Dev.refuse
  try dsimp only
  repeat' first
    | with_reducible assumption
    | with_reducible apply Dev.setFlag_keeps
    | with_reducible apply Dev.setFld_keeps
    | with_reducible apply Dev.count_keeps
    | with_reducible apply Dev.Keeps.ite
    | with_reducible apply Dev.Keeps.ite_snd
    | with_reducible apply Dev.Keeps.foldl
    | simp only [Dev.Keeps.keep]
    | (intro _; intros; try dsimp only)
    | dsimp only
    | (split; all_goals try dsimp only)

theorem Dev.latchFault_keeps {e₀ d : Dev} (h : Dev.Keeps e₀ d) : Dev.Keeps e₀ (Dev.latchFault d) := by
  unfold Dev.latchFault
  try dsimp only
  repeat' first
    | with_reducible assumption
    | with_reducible apply Dev.Keeps.ite
    | with_reducible apply Dev.Keeps.ite_snd
    | with_reducible apply Dev.Keeps.foldl
    | simp only [Dev.Keeps.keep]
    | (intro _; intros; try dsimp only)
    | dsimp only
    | (split; all_goals try dsimp only)

theorem Dev.genericWrite_keeps {e₀ d : Dev} (h : Dev.Keeps e₀ d) (off : Nat) (v : Nat) : Dev.Keeps e₀ (Dev.genericWrite d off v) := by
  unfold Dev.genericWrite
  try dsimp only
  repeat' first
    | with_reducible assumption
    | with_reducible apply Dev.setReg_keeps
    | with_reducible apply Dev.Keeps.ite
    | with_reducible apply Dev.Keeps.ite_snd
    | with_reducible apply Dev.Keeps.foldl
    | simp only [Dev.Keeps.keep]
    | (intro _; intros; try dsimp only)
    | dsimp only
    | (split; all_goals try dsimp only)

theorem Dev.extest_keeps {e₀ d : Dev} (h : Dev.Keeps e₀ d) : Dev.Keeps e₀ (Dev.extest d) := by
  unfold Dev.extest
  try dsimp only
  repeat' first
    | with_reducible assumption
    | with_reducible apply Dev.Keeps.ite
    | with_reducible apply Dev.Keeps.ite_snd
    | with_reducible apply Dev.Keeps.foldl
    | simp only [Dev.Keeps.keep]
    | (intro _; intros; try dsimp only)
    | dsimp only
    | (split; all_goals try dsimp only)

end Sys2Proof.Machine
end

