-- ==== Sys2Proof/Laws/KeepsBell.lean ====
section
/-! SUPPORT. Bell. -/

set_option linter.unusedTactic false
set_option linter.unreachableTactic false
set_option linter.unusedVariables false
set_option linter.unusedSimpArgs false

namespace Sys2Proof.Machine

theorem Dev.setBelClass_keeps {e₀ d : Dev} (h : Dev.Keeps e₀ d) (c : Nat) (x : BelClass) : Dev.Keeps e₀ (Dev.setBelClass d c x) := by
  unfold Dev.setBelClass
  try dsimp only
  repeat' first
    | with_reducible assumption
    | with_reducible apply Dev.Keeps.ite
    | with_reducible apply Dev.Keeps.ite_snd
    | with_reducible apply Dev.Keeps.foldl
    | simp only [Dev.Keeps.keep]
    | (intro _; intros; try dsimp only)
    | dsimp only
    | (split; all_goals try dsimp only)

theorem Dev.arm_keeps {e₀ d : Dev} (h : Dev.Keeps e₀ d) (c : Nat) : Dev.Keeps e₀ (Dev.arm d c) := by
  unfold Dev.arm
  try dsimp only
  repeat' first
    | with_reducible assumption
    | with_reducible apply Dev.setBelClass_keeps
    | with_reducible apply Dev.Keeps.ite
    | with_reducible apply Dev.Keeps.ite_snd
    | with_reducible apply Dev.Keeps.foldl
    | simp only [Dev.Keeps.keep]
    | (intro _; intros; try dsimp only)
    | dsimp only
    | (split; all_goals try dsimp only)

theorem Dev.pendBy_keeps {e₀ d : Dev} (h : Dev.Keeps e₀ d) (src : Nat) (n : Nat) : Dev.Keeps e₀ (Dev.pendBy d src n) := by
  unfold Dev.pendBy
  try dsimp only
  repeat' first
    | with_reducible assumption
    | with_reducible apply Dev.Keeps.ite
    | with_reducible apply Dev.Keeps.ite_snd
    | with_reducible apply Dev.Keeps.foldl
    | simp only [Dev.Keeps.keep]
    | (intro _; intros; try dsimp only)
    | dsimp only
    | (split; all_goals try dsimp only)

theorem Dev.repend_keeps {e₀ d : Dev} (h : Dev.Keeps e₀ d) (src : Nat) (n : Nat) : Dev.Keeps e₀ (Dev.repend d src n) := by
  unfold Dev.repend
  try dsimp only
  repeat' first
    | with_reducible assumption
    | with_reducible apply Dev.pendBy_keeps
    | with_reducible apply Dev.Keeps.ite
    | with_reducible apply Dev.Keeps.ite_snd
    | with_reducible apply Dev.Keeps.foldl
    | simp only [Dev.Keeps.keep]
    | (intro _; intros; try dsimp only)
    | dsimp only
    | (split; all_goals try dsimp only)

theorem Dev.retire_keeps {e₀ d : Dev} (h : Dev.Keeps e₀ d) (c : Nat) : Dev.Keeps e₀ (Dev.retire d c) := by
  unfold Dev.retire
  try dsimp only
  repeat' first
    | with_reducible assumption
    | with_reducible apply Dev.arm_keeps
    | with_reducible apply Dev.count_keeps
    | with_reducible apply Dev.setBelClass_keeps
    | with_reducible apply Dev.repend_keeps
    | with_reducible apply Dev.Keeps.ite
    | with_reducible apply Dev.Keeps.ite_snd
    | with_reducible apply Dev.Keeps.foldl
    | simp only [Dev.Keeps.keep]
    | (intro _; intros; try dsimp only)
    | dsimp only
    | (split; all_goals try dsimp only)

theorem Dev.message_keeps {e₀ d : Dev} (h : Dev.Keeps e₀ d) (src : Nat) (deassert : Bool) : Dev.Keeps e₀ (Dev.message d src deassert) := by
  unfold Dev.message
  try dsimp only
  repeat' first
    | with_reducible assumption
    | with_reducible apply Dev.count_keeps
    | with_reducible apply Dev.setBelClass_keeps
    | with_reducible apply Dev.pendBy_keeps
    | with_reducible apply Dev.Keeps.ite
    | with_reducible apply Dev.Keeps.ite_snd
    | with_reducible apply Dev.Keeps.foldl
    | simp only [Dev.Keeps.keep]
    | (intro _; intros; try dsimp only)
    | dsimp only
    | (split; all_goals try dsimp only)

theorem Dev.raise_keeps {e₀ d : Dev} (h : Dev.Keeps e₀ d) (src : Nat) : Dev.Keeps e₀ (Dev.raise d src) := by
  unfold Dev.raise
  try dsimp only
  repeat' first
    | with_reducible assumption
    | with_reducible apply Dev.message_keeps
    | with_reducible apply Dev.Keeps.ite
    | with_reducible apply Dev.Keeps.ite_snd
    | with_reducible apply Dev.Keeps.foldl
    | simp only [Dev.Keeps.keep]
    | (intro _; intros; try dsimp only)
    | dsimp only
    | (split; all_goals try dsimp only)

theorem Dev.raiseIf_keeps {e₀ d : Dev} (h : Dev.Keeps e₀ d) (b : Bool) (src : Nat) : Dev.Keeps e₀ (Dev.raiseIf d b src) := by
  unfold Dev.raiseIf
  try dsimp only
  repeat' first
    | with_reducible assumption
    | with_reducible apply Dev.raise_keeps
    | with_reducible apply Dev.Keeps.ite
    | with_reducible apply Dev.Keeps.ite_snd
    | with_reducible apply Dev.Keeps.foldl
    | simp only [Dev.Keeps.keep]
    | (intro _; intros; try dsimp only)
    | dsimp only
    | (split; all_goals try dsimp only)

theorem Dev.logAccess_keeps {e₀ d : Dev} (h : Dev.Keeps e₀ d) (flagReg : Nat) (addrReg : Nat) (cntReg : Nat) (off : Nat) (write : Bool) : Dev.Keeps e₀ (Dev.logAccess d flagReg addrReg cntReg off write) := by
  unfold Dev.logAccess
  try dsimp only
  repeat' first
    | with_reducible assumption
    | with_reducible apply Dev.setReg_keeps
    | with_reducible apply Dev.count_keeps
    | with_reducible apply Dev.Keeps.ite
    | with_reducible apply Dev.Keeps.ite_snd
    | with_reducible apply Dev.Keeps.foldl
    | simp only [Dev.Keeps.keep]
    | (intro _; intros; try dsimp only)
    | dsimp only
    | (split; all_goals try dsimp only)

theorem Dev.busError_keeps {e₀ d : Dev} (h : Dev.Keeps e₀ d) (off : Nat) : Dev.Keeps e₀ (Dev.busError d off) := by
  unfold Dev.busError
  try dsimp only
  repeat' first
    | with_reducible assumption
    | with_reducible apply Dev.raise_keeps
    | with_reducible apply Dev.logAccess_keeps
    | with_reducible apply Dev.Keeps.ite
    | with_reducible apply Dev.Keeps.ite_snd
    | with_reducible apply Dev.Keeps.foldl
    | simp only [Dev.Keeps.keep]
    | (intro _; intros; try dsimp only)
    | dsimp only
    | (split; all_goals try dsimp only)

theorem Dev.pendRead_keeps {e₀ d : Dev} (h : Dev.Keeps e₀ d) (c : Nat) : Dev.Keeps e₀ (Dev.pendRead d c).2 := by
  unfold Dev.pendRead
  try dsimp only
  repeat' first
    | with_reducible assumption
    | with_reducible apply Dev.setBelClass_keeps
    | with_reducible apply Dev.Keeps.ite
    | with_reducible apply Dev.Keeps.ite_snd
    | with_reducible apply Dev.Keeps.foldl
    | simp only [Dev.Keeps.keep]
    | (intro _; intros; try dsimp only)
    | dsimp only
    | (split; all_goals try dsimp only)

theorem Dev.outOfOrder_keeps {e₀ d : Dev} (h : Dev.Keeps e₀ d) (t : Nat) : Dev.Keeps e₀ (Dev.outOfOrder d t) := by
  unfold Dev.outOfOrder
  try dsimp only
  repeat' first
    | with_reducible assumption
    | with_reducible apply Dev.setFlag_keeps
    | with_reducible apply Dev.setReg_keeps
    | with_reducible apply Dev.count_keeps
    | with_reducible apply Dev.setBelClass_keeps
    | with_reducible apply Dev.repend_keeps
    | with_reducible apply Dev.pendBy_keeps
    | with_reducible apply Dev.Keeps.ite
    | with_reducible apply Dev.Keeps.ite_snd
    | with_reducible apply Dev.Keeps.foldl
    | simp only [Dev.Keeps.keep]
    | (intro _; intros; try dsimp only)
    | dsimp only
    | (split; all_goals try dsimp only)

theorem Dev.sendMsix_keeps {e₀ d : Dev} (h : Dev.Keeps e₀ d) (v : Nat) : Dev.Keeps e₀ (Dev.sendMsix d v) := by
  unfold Dev.sendMsix
  try dsimp only
  repeat' first
    | with_reducible assumption
    | with_reducible apply Dev.setReg_keeps
    | with_reducible apply Dev.emit_keeps
    | with_reducible apply Dev.Keeps.ite
    | with_reducible apply Dev.Keeps.ite_snd
    | with_reducible apply Dev.Keeps.foldl
    | simp only [Dev.Keeps.keep]
    | (intro _; intros; try dsimp only)
    | dsimp only
    | (split; all_goals try dsimp only)

theorem Dev.sendMessage_keeps {e₀ d : Dev} (h : Dev.Keeps e₀ d) (c : Nat) : Dev.Keeps e₀ (Dev.sendMessage d c) := by
  unfold Dev.sendMessage
  try dsimp only
  repeat' first
    | with_reducible assumption
    | with_reducible apply Dev.sendMsix_keeps
    | with_reducible apply Dev.setBelClass_keeps
    | with_reducible apply Dev.count_keeps
    | with_reducible apply Dev.setReg_keeps
    | with_reducible apply Dev.Keeps.ite
    | with_reducible apply Dev.Keeps.ite_snd
    | with_reducible apply Dev.Keeps.foldl
    | simp only [Dev.Keeps.keep]
    | (intro _; intros; try dsimp only)
    | dsimp only
    | (split; all_goals try dsimp only)

theorem Dev.recordAck_keeps {e₀ d : Dev} (h : Dev.Keeps e₀ d) (c : Nat) (src : Nat) : Dev.Keeps e₀ (Dev.recordAck d c src) := by
  unfold Dev.recordAck
  try dsimp only
  repeat' first
    | with_reducible assumption
    | with_reducible apply Dev.setBelClass_keeps
    | with_reducible apply Dev.Keeps.ite
    | with_reducible apply Dev.Keeps.ite_snd
    | with_reducible apply Dev.Keeps.foldl
    | simp only [Dev.Keeps.keep]
    | (intro _; intros; try dsimp only)
    | dsimp only
    | (split; all_goals try dsimp only)

theorem Dev.unpend_keeps {e₀ d : Dev} (h : Dev.Keeps e₀ d) (src : Nat) : Dev.Keeps e₀ (Dev.unpend d src) := by
  unfold Dev.unpend
  try dsimp only
  repeat' first
    | with_reducible assumption
    | with_reducible apply Dev.Keeps.ite
    | with_reducible apply Dev.Keeps.ite_snd
    | with_reducible apply Dev.Keeps.foldl
    | simp only [Dev.Keeps.keep]
    | (intro _; intros; try dsimp only)
    | dsimp only
    | (split; all_goals try dsimp only)

theorem Dev.farError_keeps {e₀ d : Dev} (h : Dev.Keeps e₀ d) (off : Nat) (write : Bool) : Dev.Keeps e₀ (Dev.farError d off write) := by
  unfold Dev.farError
  try dsimp only
  repeat' first
    | with_reducible assumption
    | with_reducible apply Dev.raise_keeps
    | with_reducible apply Dev.logAccess_keeps
    | with_reducible apply Dev.Keeps.ite
    | with_reducible apply Dev.Keeps.ite_snd
    | with_reducible apply Dev.Keeps.foldl
    | simp only [Dev.Keeps.keep]
    | (intro _; intros; try dsimp only)
    | dsimp only
    | (split; all_goals try dsimp only)

theorem Dev.onRead_keeps {e₀ d : Dev} (h : Dev.Keeps e₀ d) (off : Nat) (f : Dev → Nat × Dev) (hf : ∀ d, Dev.Keeps e₀ d → Dev.Keeps e₀ (f d).2) : Dev.Keeps e₀ (Dev.onRead d off f) := by
  unfold Dev.onRead
  try dsimp only
  repeat' first
    | with_reducible assumption
    | with_reducible apply hf
    | with_reducible apply Dev.emit_keeps
    | with_reducible apply Dev.farError_keeps
    | with_reducible apply Dev.Keeps.ite
    | with_reducible apply Dev.Keeps.ite_snd
    | with_reducible apply Dev.Keeps.foldl
    | simp only [Dev.Keeps.keep]
    | (intro _; intros; try dsimp only)
    | dsimp only
    | (split; all_goals try dsimp only)

theorem Dev.unmask_keeps {e₀ d : Dev} (h : Dev.Keeps e₀ d) (v : Nat) : Dev.Keeps e₀ (Dev.unmask d v) := by
  unfold Dev.unmask
  try dsimp only
  repeat' first
    | with_reducible assumption
    | with_reducible apply Dev.setReg_keeps
    | with_reducible apply Dev.sendMsix_keeps
    | with_reducible apply Dev.Keeps.ite
    | with_reducible apply Dev.Keeps.ite_snd
    | with_reducible apply Dev.Keeps.foldl
    | simp only [Dev.Keeps.keep]
    | (intro _; intros; try dsimp only)
    | dsimp only
    | (split; all_goals try dsimp only)

theorem Dev.ack_keeps {e₀ d : Dev} (h : Dev.Keeps e₀ d) (c : Nat) (src : Nat) : Dev.Keeps e₀ (Dev.ack d c src) := by
  unfold Dev.ack
  try dsimp only
  repeat' first
    | with_reducible assumption
    | with_reducible apply Dev.recordAck_keeps
    | with_reducible apply Dev.unpend_keeps
    | with_reducible apply Dev.repend_keeps
    | with_reducible apply Dev.Keeps.ite
    | with_reducible apply Dev.Keeps.ite_snd
    | with_reducible apply Dev.Keeps.foldl
    | simp only [Dev.Keeps.keep]
    | (intro _; intros; try dsimp only)
    | dsimp only
    | (split; all_goals try dsimp only)

theorem Dev.pendAck_keeps {e₀ d : Dev} (h : Dev.Keeps e₀ d) (c : Nat) (base : Nat) (mask : Nat) : Dev.Keeps e₀ (Dev.pendAck d c base mask) := by
  unfold Dev.pendAck
  try dsimp only
  repeat' first
    | with_reducible assumption
    | with_reducible apply Dev.ack_keeps
    | with_reducible apply Dev.Keeps.ite
    | with_reducible apply Dev.Keeps.ite_snd
    | with_reducible apply Dev.Keeps.foldl
    | simp only [Dev.Keeps.keep]
    | (intro _; intros; try dsimp only)
    | dsimp only
    | (split; all_goals try dsimp only)

theorem Dev.onWrite_keeps {e₀ d : Dev} (h : Dev.Keeps e₀ d) (off : Nat) (f : Dev → Dev) (hf : ∀ d, Dev.Keeps e₀ d → Dev.Keeps e₀ (f d)) : Dev.Keeps e₀ (Dev.onWrite d off f) := by
  unfold Dev.onWrite
  try dsimp only
  repeat' first
    | with_reducible assumption
    | with_reducible apply hf
    | with_reducible apply Dev.busError_keeps
    | with_reducible apply Dev.farError_keeps
    | with_reducible apply Dev.Keeps.ite
    | with_reducible apply Dev.Keeps.ite_snd
    | with_reducible apply Dev.Keeps.foldl
    | simp only [Dev.Keeps.keep]
    | (intro _; intros; try dsimp only)
    | dsimp only
    | (split; all_goals try dsimp only)

theorem Dev.complete_keeps {e₀ d : Dev} (h : Dev.Keeps e₀ d) (c : Nat) : Dev.Keeps e₀ (Dev.complete d c) := by
  unfold Dev.complete
  try dsimp only
  repeat' first
    | with_reducible assumption
    | with_reducible apply Dev.outOfOrder_keeps
    | with_reducible apply Dev.retire_keeps
    | with_reducible apply Dev.Keeps.ite
    | with_reducible apply Dev.Keeps.ite_snd
    | with_reducible apply Dev.Keeps.foldl
    | simp only [Dev.Keeps.keep]
    | (intro _; intros; try dsimp only)
    | dsimp only
    | (split; all_goals try dsimp only)

theorem Dev.claim_keeps {e₀ d : Dev} (h : Dev.Keeps e₀ d) (c : Nat) : Dev.Keeps e₀ (Dev.claim d c).2 := by
  unfold Dev.claim
  try dsimp only
  repeat' first
    | with_reducible assumption
    | with_reducible apply Dev.arm_keeps
    | with_reducible apply Dev.count_keeps
    | with_reducible apply Dev.unpend_keeps
    | with_reducible apply Dev.setBelClass_keeps
    | with_reducible apply Dev.Keeps.ite
    | with_reducible apply Dev.Keeps.ite_snd
    | with_reducible apply Dev.Keeps.foldl
    | simp only [Dev.Keeps.keep]
    | (intro _; intros; try dsimp only)
    | dsimp only
    | (split; all_goals try dsimp only)

end Sys2Proof.Machine
end

