-- ==== Sys2Proof/Laws/KeepsRings.lean ====
section
/-! SUPPORT. Rings. -/

set_option linter.unusedTactic false
set_option linter.unreachableTactic false
set_option linter.unusedVariables false
set_option linter.unusedSimpArgs false

namespace Sys2Proof.Machine

theorem Dev.setRingSt_keeps {e₀ d : Dev} (h : Dev.Keeps e₀ d) (r : Nat) (x : RingSt) : Dev.Keeps e₀ (Dev.setRingSt d r x) := by
  unfold Dev.setRingSt
  try dsimp only
  repeat' first
    | with_reducible assumption
    | with_reducible apply Dev.Keeps.ite
    | with_reducible apply Dev.Keeps.ite_snd
    | with_reducible apply Dev.Keeps.foldl
    | simp only [Dev.Keeps.keep]
    | (intro _; intros; try dsimp only)
    | dsimp only
    | (split; all_goals try dsimp only)

theorem Dev.ringUnbind_keeps {e₀ d : Dev} (h : Dev.Keeps e₀ d) (r : Nat) (who : Nat) : Dev.Keeps e₀ (Dev.ringUnbind d r who) := by
  unfold Dev.ringUnbind
  try dsimp only
  repeat' first
    | with_reducible assumption
    | with_reducible apply Dev.setRingSt_keeps
    | with_reducible apply Dev.Keeps.ite
    | with_reducible apply Dev.Keeps.ite_snd
    | with_reducible apply Dev.Keeps.foldl
    | simp only [Dev.Keeps.keep]
    | (intro _; intros; try dsimp only)
    | dsimp only
    | (split; all_goals try dsimp only)

theorem Dev.ringEvent_keeps {e₀ d : Dev} (h : Dev.Keeps e₀ d) (r : Nat) (f : Fld) : Dev.Keeps e₀ (Dev.ringEvent d r f) := by
  unfold Dev.ringEvent
  try dsimp only
  repeat' first
    | with_reducible assumption
    | with_reducible apply Dev.raiseIf_keeps
    | with_reducible apply Dev.setFlag_keeps
    | with_reducible apply Dev.Keeps.ite
    | with_reducible apply Dev.Keeps.ite_snd
    | with_reducible apply Dev.Keeps.foldl
    | simp only [Dev.Keeps.keep]
    | (intro _; intros; try dsimp only)
    | dsimp only
    | (split; all_goals try dsimp only)

theorem Dev.ringMark_keeps {e₀ d : Dev} (h : Dev.Keeps e₀ d) (r : Nat) (old : Nat) : Dev.Keeps e₀ (Dev.ringMark d r old) := by
  unfold Dev.ringMark
  try dsimp only
  repeat' first
    | with_reducible assumption
    | with_reducible apply Dev.ringEvent_keeps
    | with_reducible apply Dev.count_keeps
    | with_reducible apply Dev.Keeps.ite
    | with_reducible apply Dev.Keeps.ite_snd
    | with_reducible apply Dev.Keeps.foldl
    | simp only [Dev.Keeps.keep]
    | (intro _; intros; try dsimp only)
    | dsimp only
    | (split; all_goals try dsimp only)

theorem Dev.writeRingBase_keeps {e₀ d : Dev} (h : Dev.Keeps e₀ d) (r : Nat) (key : Nat) (v : Nat) : Dev.Keeps e₀ (Dev.writeRingBase d r key v) := by
  unfold Dev.writeRingBase
  try dsimp only
  repeat' first
    | with_reducible assumption
    | with_reducible apply Dev.genericWrite_keeps
    | with_reducible apply Dev.refuse_keeps
    | with_reducible apply Dev.Keeps.ite
    | with_reducible apply Dev.Keeps.ite_snd
    | with_reducible apply Dev.Keeps.foldl
    | simp only [Dev.Keeps.keep]
    | (intro _; intros; try dsimp only)
    | dsimp only
    | (split; all_goals try dsimp only)

theorem Dev.writeProd_keeps {e₀ d : Dev} (h : Dev.Keeps e₀ d) (r : Nat) (v : Nat) : Dev.Keeps e₀ (Dev.writeProd d r v) := by
  unfold Dev.writeProd
  try dsimp only
  repeat' first
    | with_reducible assumption
    | with_reducible apply Dev.setReg_keeps
    | with_reducible apply Dev.ringMark_keeps
    | with_reducible apply Dev.setFlag_keeps
    | with_reducible apply Dev.count_keeps
    | with_reducible apply Dev.refuse_keeps
    | with_reducible apply Dev.Keeps.ite
    | with_reducible apply Dev.Keeps.ite_snd
    | with_reducible apply Dev.Keeps.foldl
    | simp only [Dev.Keeps.keep]
    | (intro _; intros; try dsimp only)
    | dsimp only
    | (split; all_goals try dsimp only)

theorem Dev.ringWrite_keeps {e₀ d : Dev} (h : Dev.Keeps e₀ d) (r : Nat) (a : Nat) (bs : List Byte) : Dev.Keeps e₀ (Dev.ringWrite d r a bs) := by
  unfold Dev.ringWrite
  try dsimp only
  repeat' first
    | with_reducible assumption
    | with_reducible apply Dev.hostPut_keeps
    | with_reducible apply Dev.memWrite_keeps
    | with_reducible apply Dev.Keeps.ite
    | with_reducible apply Dev.Keeps.ite_snd
    | with_reducible apply Dev.Keeps.foldl
    | simp only [Dev.Keeps.keep]
    | (intro _; intros; try dsimp only)
    | dsimp only
    | (split; all_goals try dsimp only)

theorem Dev.writeCursorLine_keeps {e₀ d : Dev} (h : Dev.Keeps e₀ d) (r : Nat) : Dev.Keeps e₀ (Dev.writeCursorLine d r) := by
  unfold Dev.writeCursorLine
  try dsimp only
  repeat' first
    | with_reducible assumption
    | with_reducible apply Dev.ringWrite_keeps
    | with_reducible apply Dev.Keeps.ite
    | with_reducible apply Dev.Keeps.ite_snd
    | with_reducible apply Dev.Keeps.foldl
    | simp only [Dev.Keeps.keep]
    | (intro _; intros; try dsimp only)
    | dsimp only
    | (split; all_goals try dsimp only)

theorem Dev.putRecord_keeps {e₀ d : Dev} (hk : Dev.Keeps e₀ d) (r : Nat) (entries : List (List Byte)) :
    Dev.Keeps e₀ (Dev.putRecord d r entries).2 := by
  unfold Dev.putRecord
  try dsimp only
  repeat' first
    | with_reducible assumption
    | with_reducible apply Dev.count_keeps
    | with_reducible apply Dev.ringEvent_keeps
    | with_reducible apply Dev.ringWrite_keeps
    | with_reducible apply Dev.setReg_keeps
    | with_reducible apply Dev.writeCursorLine_keeps
    | with_reducible apply Dev.countWrap_keeps
    | with_reducible apply Dev.raiseIf_keeps
    | with_reducible apply Dev.ringMark_keeps
    | with_reducible apply Dev.Keeps.ite
    | with_reducible apply Dev.Keeps.ite_snd
    | with_reducible apply Dev.Keeps.foldl
    | with_reducible apply Dev.Keeps.foldl_fst
    | simp only [Dev.Keeps.keep]
    | (intro _; intros; try dsimp only)
    | dsimp only
    | (split; all_goals try dsimp only)

theorem Dev.blockFailed_keeps {e₀ d : Dev} (h : Dev.Keeps e₀ d) (block : Nat) : Dev.Keeps e₀ (Dev.blockFailed d block) := by
  unfold Dev.blockFailed
  try dsimp only
  repeat' first
    | with_reducible assumption
    | with_reducible apply Dev.count_keeps
    | with_reducible apply Dev.Keeps.ite
    | with_reducible apply Dev.Keeps.ite_snd
    | with_reducible apply Dev.Keeps.foldl
    | simp only [Dev.Keeps.keep]
    | (intro _; intros; try dsimp only)
    | dsimp only
    | (split; all_goals try dsimp only)

theorem Dev.failedAgain_keeps {e₀ d : Dev} (h : Dev.Keeps e₀ d) (block : Nat) : Dev.Keeps e₀ (Dev.failedAgain d block) := by
  unfold Dev.failedAgain
  try dsimp only
  repeat' first
    | with_reducible assumption
    | with_reducible apply Dev.count_keeps
    | with_reducible apply Dev.Keeps.ite
    | with_reducible apply Dev.Keeps.ite_snd
    | with_reducible apply Dev.Keeps.foldl
    | simp only [Dev.Keeps.keep]
    | (intro _; intros; try dsimp only)
    | dsimp only
    | (split; all_goals try dsimp only)

theorem Dev.showLog_keeps {e₀ d : Dev} (h : Dev.Keeps e₀ d) : Dev.Keeps e₀ (Dev.showLog d) := by
  unfold Dev.showLog
  try dsimp only
  repeat' first
    | with_reducible assumption
    | with_reducible apply Dev.setRegs_keeps
    | with_reducible apply Dev.Keeps.ite
    | with_reducible apply Dev.Keeps.ite_snd
    | with_reducible apply Dev.Keeps.foldl
    | simp only [Dev.Keeps.keep]
    | (intro _; intros; try dsimp only)
    | dsimp only
    | (split; all_goals try dsimp only)

theorem Dev.depEvent_keeps {e₀ d : Dev} (h : Dev.Keeps e₀ d) (f : Fld) : Dev.Keeps e₀ (Dev.depEvent d f) := by
  unfold Dev.depEvent
  try dsimp only
  repeat' first
    | with_reducible assumption
    | with_reducible apply Dev.setFlag_keeps
    | with_reducible apply Dev.Keeps.ite
    | with_reducible apply Dev.Keeps.ite_snd
    | with_reducible apply Dev.Keeps.foldl
    | simp only [Dev.Keeps.keep]
    | (intro _; intros; try dsimp only)
    | dsimp only
    | (split; all_goals try dsimp only)

theorem Dev.corrupt_keeps {e₀ d : Dev} (h : Dev.Keeps e₀ d) (b : Nat) : Dev.Keeps e₀ (Dev.corrupt d b) := by
  unfold Dev.corrupt
  try dsimp only
  repeat' first
    | with_reducible assumption
    | with_reducible apply Dev.freshBytes_keeps
    | with_reducible apply Dev.setDamaged_keeps
    | with_reducible apply Dev.memPut_keeps
    | with_reducible apply Dev.Keeps.ite
    | with_reducible apply Dev.Keeps.ite_snd
    | with_reducible apply Dev.Keeps.foldl
    | simp only [Dev.Keeps.keep]
    | (intro _; intros; try dsimp only)
    | dsimp only
    | (split; all_goals try dsimp only)

theorem Dev.blockDamaged_keeps {e₀ d : Dev} (h : Dev.Keeps e₀ d) (block : Nat) : Dev.Keeps e₀ (Dev.blockDamaged d block) := by
  unfold Dev.blockDamaged
  try dsimp only
  repeat' first
    | with_reducible assumption
    | with_reducible apply Dev.raise_keeps
    | with_reducible apply Dev.depEvent_keeps
    | with_reducible apply Dev.setDamaged_keeps
    | with_reducible apply Dev.Keeps.ite
    | with_reducible apply Dev.Keeps.ite_snd
    | with_reducible apply Dev.Keeps.foldl
    | simp only [Dev.Keeps.keep]
    | (intro _; intros; try dsimp only)
    | dsimp only
    | (split; all_goals try dsimp only)

theorem Dev.reservedWake_keeps {e₀ d : Dev} (hk : Dev.Keeps e₀ d) (content block : Nat) :
    Dev.Keeps e₀ (Dev.reservedWake d content block) := by
  unfold Dev.reservedWake
  try dsimp only
  repeat' first
    | with_reducible assumption
    | with_reducible apply Dev.memPowerUp_keeps
    | with_reducible apply Dev.Keeps.ite
    | with_reducible apply Dev.Keeps.ite_snd
    | with_reducible apply Dev.Keeps.foldl
    | simp only [Dev.Keeps.keep]
    | (intro _; intros; try dsimp only)
    | dsimp only
    | (split; all_goals try dsimp only)

theorem Dev.checkBlocks_keeps {e₀ d : Dev} (hk : Dev.Keeps e₀ d) (logged : Bool) (bad : List Nat) :
    Dev.Keeps e₀ (Dev.checkBlocks d logged bad).1 := by
  unfold Dev.checkBlocks
  try dsimp only
  repeat' first
    | with_reducible assumption
    | with_reducible apply Dev.blockFailed_keeps
    | with_reducible apply Dev.failedAgain_keeps
    | with_reducible apply Dev.count_keeps
    | with_reducible apply Dev.corrupt_keeps
    | with_reducible apply Dev.blockDamaged_keeps
    | with_reducible apply Dev.Keeps.ite
    | with_reducible apply Dev.Keeps.ite_snd
    | with_reducible apply Dev.Keeps.foldl
    | with_reducible apply Dev.Keeps.foldl_fst
    | simp only [Dev.Keeps.keep]
    | (intro _; intros; try dsimp only)
    | dsimp only
    | (split; all_goals try dsimp only)

theorem Dev.checkOwn_keeps {e₀ d : Dev} (hk : Dev.Keeps e₀ d) (read met bad : List Nat) :
    Dev.Keeps e₀ (Dev.checkOwn d read met bad).1 := by
  unfold Dev.checkOwn
  try dsimp only
  repeat' first
    | with_reducible assumption
    | with_reducible apply Dev.checkBlocks_keeps
    | with_reducible apply Dev.Keeps.ite
    | with_reducible apply Dev.Keeps.ite_snd
    | with_reducible apply Dev.Keeps.foldl
    | simp only [Dev.Keeps.keep]
    | (intro _; intros; try dsimp only)
    | dsimp only
    | (split; all_goals try dsimp only)

theorem Dev.ownChecks_keeps {e₀ d : Dev} (hk : Dev.Keeps e₀ d) (spans : List (Nat × Nat)) (bad : List Nat) :
    Dev.Keeps e₀ (Dev.ownChecks d spans bad).1 := by
  unfold Dev.ownChecks
  try dsimp only
  repeat' first
    | with_reducible assumption
    | with_reducible apply Dev.checkOwn_keeps
    | with_reducible apply Dev.Keeps.ite
    | with_reducible apply Dev.Keeps.ite_snd
    | with_reducible apply Dev.Keeps.foldl
    | simp only [Dev.Keeps.keep]
    | (intro _; intros; try dsimp only)
    | dsimp only
    | (split; all_goals try dsimp only)

theorem Dev.checkedRecord_keeps {e₀ d : Dev} (hk : Dev.Keeps e₀ d) (r : Nat) (entries : List (List Byte)) :
    Dev.Keeps e₀ (Dev.checkedRecord d r entries).1 := by
  unfold Dev.checkedRecord
  try dsimp only
  repeat' first
    | with_reducible assumption
    | with_reducible apply Dev.putRecord_keeps
    | with_reducible apply Dev.ownChecks_keeps
    | with_reducible apply Dev.Keeps.ite
    | with_reducible apply Dev.Keeps.ite_snd
    | with_reducible apply Dev.Keeps.foldl
    | simp only [Dev.Keeps.keep]
    | (intro _; intros; try dsimp only)
    | dsimp only
    | (split; all_goals try dsimp only)

theorem Dev.logRecord_keeps {e₀ d : Dev} (hk : Dev.Keeps e₀ d) (e : LogEntry) :
    Dev.Keeps e₀ (Dev.logRecord d e).1 := by
  unfold Dev.logRecord
  try dsimp only
  repeat' first
    | with_reducible assumption
    | with_reducible apply Dev.reservedWake_keeps
    | with_reducible apply Dev.countWrap_keeps
    | with_reducible apply Dev.showLog_keeps
    | with_reducible apply Dev.checkedRecord_keeps
    | with_reducible apply Dev.depEvent_keeps
    | with_reducible apply Dev.raise_keeps
    | with_reducible apply Dev.Keeps.ite
    | with_reducible apply Dev.Keeps.ite_snd
    | with_reducible apply Dev.Keeps.foldl
    | simp only [Dev.Keeps.keep]
    | (intro _; intros; try dsimp only)
    | dsimp only
    | (split; all_goals try dsimp only)

theorem Dev.logAt_keeps {e₀ : Dev} (n : Nat) : ∀ {d : Dev} (_ : Dev.Keeps e₀ d) (e : LogEntry), Dev.Keeps e₀ (Dev.logAt n d e) := by
  induction n with
  | zero => intro d h e; exact Dev.logRecord_keeps h e
  | succ n ih =>
    intro d h e
    exact Dev.Keeps.foldl _ (Dev.logRecord_keeps h e) fun _ _ hd => ih hd _

theorem Dev.depLog_keeps {e₀ d : Dev} (h : Dev.Keeps e₀ d) (e : LogEntry) : Dev.Keeps e₀ (Dev.depLog d e) :=
  Dev.logAt_keeps _ h e

theorem Dev.logAll_keeps {e₀ d : Dev} (hk : Dev.Keeps e₀ d) (es : List LogEntry) :
    Dev.Keeps e₀ (Dev.logAll d es) := by
  unfold Dev.logAll
  try dsimp only
  repeat' first
    | with_reducible assumption
    | with_reducible apply Dev.depLog_keeps
    | with_reducible apply Dev.Keeps.ite
    | with_reducible apply Dev.Keeps.ite_snd
    | with_reducible apply Dev.Keeps.foldl
    | simp only [Dev.Keeps.keep]
    | (intro _; intros; try dsimp only)
    | dsimp only
    | (split; all_goals try dsimp only)

theorem Dev.failBlocks_keeps {e₀ d : Dev} (h : Dev.Keeps e₀ d) (logged : Bool) (bad : List Nat) : Dev.Keeps e₀ (Dev.failBlocks d logged bad) :=
  Dev.logAll_keeps (Dev.checkBlocks_keeps h logged bad) _

theorem Dev.ownReads_keeps {e₀ d : Dev} (h : Dev.Keeps e₀ d) (spans : List (Nat × Nat)) (bad : List Nat) : Dev.Keeps e₀ (Dev.ownReads d spans bad) :=
  Dev.logAll_keeps (Dev.ownChecks_keeps h spans bad) _

theorem Dev.record_keeps {e₀ d : Dev} (h : Dev.Keeps e₀ d) (r : Nat) (entries : List (List Byte)) : Dev.Keeps e₀ (Dev.record d r entries).2 := by
  unfold Dev.record
  try dsimp only
  repeat' first
    | with_reducible assumption
    | with_reducible apply Dev.checkedRecord_keeps
    | with_reducible apply Dev.logAll_keeps
    | with_reducible apply Dev.Keeps.ite
    | with_reducible apply Dev.Keeps.ite_snd
    | with_reducible apply Dev.Keeps.foldl
    | simp only [Dev.Keeps.keep]
    | (intro _; intros; try dsimp only)
    | dsimp only
    | (split; all_goals try dsimp only)

theorem Dev.unread_keeps {e₀ d : Dev} (hk : Dev.Keeps e₀ d) (xs : List SetRead) :
    Dev.Keeps e₀ (Dev.unread d xs) := by
  unfold Dev.unread
  try dsimp only
  repeat' first
    | with_reducible assumption
    | with_reducible apply Dev.Keeps.ite
    | with_reducible apply Dev.Keeps.ite_snd
    | with_reducible apply Dev.Keeps.foldl
    | simp only [Dev.Keeps.keep]
    | (intro _; intros; try dsimp only)
    | dsimp only
    | (split; all_goals try dsimp only)

theorem Dev.ringStops_keeps {e₀ d : Dev} (hk : Dev.Keeps e₀ d) (r : Nat) :
    Dev.Keeps e₀ (Dev.ringStops d r) := by
  unfold Dev.ringStops
  try dsimp only
  repeat' first
    | with_reducible assumption
    | with_reducible apply Dev.unread_keeps
    | with_reducible apply Dev.Keeps.ite
    | with_reducible apply Dev.Keeps.ite_snd
    | with_reducible apply Dev.Keeps.foldl
    | simp only [Dev.Keeps.keep]
    | (intro _; intros; try dsimp only)
    | dsimp only
    | (split; all_goals try dsimp only)

theorem Dev.writeRingCtrl_keeps {e₀ d : Dev} (h : Dev.Keeps e₀ d) (r : Nat) (v : Nat) : Dev.Keeps e₀ (Dev.writeRingCtrl d r v) := by
  unfold Dev.writeRingCtrl
  try dsimp only
  repeat' first
    | with_reducible assumption
    | with_reducible apply Dev.genericWrite_keeps
    | with_reducible apply Dev.refuse_keeps
    | with_reducible apply Dev.setRingSt_keeps
    | with_reducible apply Dev.setReg_keeps
    | with_reducible apply Dev.ringStops_keeps
    | with_reducible apply Dev.Keeps.ite
    | with_reducible apply Dev.Keeps.ite_snd
    | with_reducible apply Dev.Keeps.foldl
    | simp only [Dev.Keeps.keep]
    | (intro _; intros; try dsimp only)
    | dsimp only
    | (split; all_goals try dsimp only)

theorem Dev.putCompletion_keeps {e₀ d : Dev} (hk : Dev.Keeps e₀ d) (r i : Nat) (c : Completion) :
    Dev.Keeps e₀ (Dev.putCompletion d r i c) := by
  unfold Dev.putCompletion
  try dsimp only
  repeat' first
    | with_reducible assumption
    | with_reducible apply Dev.ringWrite_keeps
    | with_reducible apply Dev.setRingSt_keeps
    | with_reducible apply Dev.setReg_keeps
    | with_reducible apply Dev.writeCursorLine_keeps
    | with_reducible apply Dev.countWrap_keeps
    | with_reducible apply Dev.raiseIf_keeps
    | with_reducible apply Dev.Keeps.ite
    | with_reducible apply Dev.Keeps.ite_snd
    | with_reducible apply Dev.Keeps.foldl
    | simp only [Dev.Keeps.keep]
    | (intro _; intros; try dsimp only)
    | dsimp only
    | (split; all_goals try dsimp only)

theorem Dev.ringComplete_keeps {e₀ d : Dev} (h : Dev.Keeps e₀ d) (r : Nat) (i : Nat) (c : Completion) : Dev.Keeps e₀ (Dev.ringComplete d r i c) := by
  unfold Dev.ringComplete
  try dsimp only
  repeat' first
    | with_reducible assumption
    | with_reducible apply Dev.ownChecks_keeps
    | with_reducible apply Dev.putCompletion_keeps
    | with_reducible apply Dev.logAll_keeps
    | with_reducible apply Dev.Keeps.ite
    | with_reducible apply Dev.Keeps.ite_snd
    | with_reducible apply Dev.Keeps.foldl
    | simp only [Dev.Keeps.keep]
    | (intro _; intros; try dsimp only)
    | dsimp only
    | (split; all_goals try dsimp only)

theorem Dev.ringTake_keeps {e₀ d : Dev} (h : Dev.Keeps e₀ d) (r : Nat) (n : Nat) : Dev.Keeps e₀ (Dev.ringTake d r n) := by
  unfold Dev.ringTake
  try dsimp only
  repeat' first
    | with_reducible assumption
    | with_reducible apply Dev.memWake_keeps
    | with_reducible apply Dev.setReg_keeps
    | with_reducible apply Dev.setRingSt_keeps
    | with_reducible apply Dev.Keeps.ite
    | with_reducible apply Dev.Keeps.ite_snd
    | with_reducible apply Dev.Keeps.foldl
    | simp only [Dev.Keeps.keep]
    | (intro _; intros; try dsimp only)
    | dsimp only
    | (split; all_goals try dsimp only)

theorem Dev.ringReject_keeps {e₀ d : Dev} (h : Dev.Keeps e₀ d) (r : Nat) (n : Nat) (c : Completion) : Dev.Keeps e₀ (Dev.ringReject d r n c) := by
  unfold Dev.ringReject
  try dsimp only
  repeat' first
    | with_reducible assumption
    | with_reducible apply Dev.ringComplete_keeps
    | with_reducible apply Dev.ringTake_keeps
    | with_reducible apply Dev.Keeps.ite
    | with_reducible apply Dev.Keeps.ite_snd
    | with_reducible apply Dev.Keeps.foldl
    | simp only [Dev.Keeps.keep]
    | (intro _; intros; try dsimp only)
    | dsimp only
    | (split; all_goals try dsimp only)

theorem Dev.writeCons_keeps {e₀ d : Dev} (h : Dev.Keeps e₀ d) (r : Nat) (v : Nat) : Dev.Keeps e₀ (Dev.writeCons d r v) := by
  unfold Dev.writeCons
  try dsimp only
  repeat' first
    | with_reducible assumption
    | with_reducible apply Dev.setReg_keeps
    | with_reducible apply Dev.refuse_keeps
    | with_reducible apply Dev.Keeps.ite
    | with_reducible apply Dev.Keeps.ite_snd
    | with_reducible apply Dev.Keeps.foldl
    | simp only [Dev.Keeps.keep]
    | (intro _; intros; try dsimp only)
    | dsimp only
    | (split; all_goals try dsimp only)

theorem Dev.ringBind_keeps {e₀ d : Dev} (h : Dev.Keeps e₀ d) (r : Nat) (who : Nat) : Dev.Keeps e₀ (Dev.ringBind d r who).2 := by
  unfold Dev.ringBind
  try dsimp only
  repeat' first
    | with_reducible assumption
    | with_reducible apply Dev.setRingSt_keeps
    | with_reducible apply Dev.ringEvent_keeps
    | with_reducible apply Dev.Keeps.ite
    | with_reducible apply Dev.Keeps.ite_snd
    | with_reducible apply Dev.Keeps.foldl
    | simp only [Dev.Keeps.keep]
    | (intro _; intros; try dsimp only)
    | dsimp only
    | (split; all_goals try dsimp only)

end Sys2Proof.Machine
end

