-- ==== Sys2Proof/Laws/KeepsDepLog.lean ====
section
/-! SUPPORT. DepLog. -/

set_option linter.unusedTactic false
set_option linter.unreachableTactic false
set_option linter.unusedVariables false
set_option linter.unusedSimpArgs false

namespace Sys2Proof.Machine

theorem Dev.secdedCorrected_keeps {e₀ d : Dev} (h : Dev.Keeps e₀ d) : Dev.Keeps e₀ (Dev.secdedCorrected d) := by
  unfold Dev.secdedCorrected
  try dsimp only
  repeat' first
    | with_reducible assumption
    | with_reducible apply Dev.count_keeps
    | with_reducible apply Dev.Keeps.ite
    | with_reducible apply Dev.Keeps.ite_snd
    | with_reducible apply Dev.Keeps.foldl
    | simp only [Dev.Keeps.keep]
    | (intro _; intros; try dsimp only)
    | dsimp only
    | (split; all_goals try dsimp only)

theorem Dev.secdedBad_keeps {e₀ d : Dev} (hk : Dev.Keeps e₀ d) (store outcome : Nat) (stroke region parcel : Nat := 0) :
    Dev.Keeps e₀ (Dev.secdedBad d store outcome stroke region parcel) := by
  unfold Dev.secdedBad
  try dsimp only
  repeat' first
    | with_reducible assumption
    | with_reducible apply Dev.count_keeps
    | with_reducible apply Dev.depEvent_keeps
    | with_reducible apply Dev.depLog_keeps
    | with_reducible apply Dev.raise_keeps
    | with_reducible apply Dev.Keeps.ite
    | with_reducible apply Dev.Keeps.ite_snd
    | with_reducible apply Dev.Keeps.foldl
    | simp only [Dev.Keeps.keep]
    | (intro _; intros; try dsimp only)
    | dsimp only
    | (split; all_goals try dsimp only)

end Sys2Proof.Machine
end

