-- ==== Sys2Proof/Laws/KeepsStk.lean ====
section
/-! SUPPORT. Stk. -/

set_option linter.unusedTactic false
set_option linter.unreachableTactic false
set_option linter.unusedVariables false
set_option linter.unusedSimpArgs false

namespace Sys2Proof.Machine

theorem Dev.stkEvent_keeps {e₀ d : Dev} (h : Dev.Keeps e₀ d) (f : Fld) : Dev.Keeps e₀ (Dev.stkEvent d f) := by
  unfold Dev.stkEvent
  try dsimp only
  repeat' first
    | with_reducible assumption
    | with_reducible apply Dev.setFlag_keeps
    | with_reducible apply Dev.Keeps.ite
    | with_reducible apply Dev.Keeps.ite_snd
    | with_reducible apply Dev.Keeps.foldl
    | simp only [Dev.Keeps.keep]
    | (intro _; intros; try dsimp only)
    | dsimp only
    | (split; all_goals try dsimp only)

theorem Dev.clockPulses_keeps {e₀ d : Dev} (h : Dev.Keeps e₀ d) (src : Nat) : Dev.Keeps e₀ (Dev.clockPulses d src) := by
  unfold Dev.clockPulses
  try dsimp only
  repeat' first
    | with_reducible assumption
    | with_reducible apply Dev.emit_keeps
    | with_reducible apply Dev.Keeps.ite
    | with_reducible apply Dev.Keeps.ite_snd
    | with_reducible apply Dev.Keeps.foldl
    | simp only [Dev.Keeps.keep]
    | (intro _; intros; try dsimp only)
    | dsimp only
    | (split; all_goals try dsimp only)

theorem Dev.advance_keeps {e₀ d : Dev} (h : Dev.Keeps e₀ d) (t : Nat) : Dev.Keeps e₀ (Dev.advance d t) := by
  unfold Dev.advance
  try dsimp only
  repeat' first
    | with_reducible assumption
    | with_reducible apply Dev.clockPulses_keeps
    | with_reducible apply Dev.Keeps.ite
    | with_reducible apply Dev.Keeps.ite_snd
    | with_reducible apply Dev.Keeps.foldl
    | simp only [Dev.Keeps.keep]
    | (intro _; intros; try dsimp only)
    | dsimp only
    | (split; all_goals try dsimp only)

theorem Dev.advanceSc_keeps {e₀ d : Dev} (h : Dev.Keeps e₀ d) (t : Rat) : Dev.Keeps e₀ (Dev.advanceSc d t) := by
  unfold Dev.advanceSc
  try dsimp only
  repeat' first
    | with_reducible assumption
    | with_reducible apply Dev.advance_keeps
    | with_reducible apply Dev.Keeps.ite
    | with_reducible apply Dev.Keeps.ite_snd
    | with_reducible apply Dev.Keeps.foldl
    | simp only [Dev.Keeps.keep]
    | (intro _; intros; try dsimp only)
    | dsimp only
    | (split; all_goals try dsimp only)

theorem Dev.strokeOut_keeps {e₀ d : Dev} (h : Dev.Keeps e₀ d) : Dev.Keeps e₀ (Dev.strokeOut d) := by
  unfold Dev.strokeOut
  try dsimp only
  repeat' first
    | with_reducible assumption
    | with_reducible apply Dev.emit_keeps
    | with_reducible apply Dev.Keeps.ite
    | with_reducible apply Dev.Keeps.ite_snd
    | with_reducible apply Dev.Keeps.foldl
    | simp only [Dev.Keeps.keep]
    | (intro _; intros; try dsimp only)
    | dsimp only
    | (split; all_goals try dsimp only)

theorem Dev.beginStroke_keeps {e₀ d : Dev} (h : Dev.Keeps e₀ d) (phase : Nat) (frame : Int) : Dev.Keeps e₀ (Dev.beginStroke d phase frame) := by
  unfold Dev.beginStroke
  try dsimp only
  repeat' first
    | with_reducible assumption
    | with_reducible apply Dev.strokeOut_keeps
    | with_reducible apply Dev.raiseIf_keeps
    | with_reducible apply Dev.raise_keeps
    | with_reducible apply Dev.clockPulses_keeps
    | with_reducible apply Dev.Keeps.ite
    | with_reducible apply Dev.Keeps.ite_snd
    | with_reducible apply Dev.Keeps.foldl
    | simp only [Dev.Keeps.keep]
    | (intro _; intros; try dsimp only)
    | dsimp only
    | (split; all_goals try dsimp only)

theorem Dev.stkLatch_keeps {e₀ d : Dev} (h : Dev.Keeps e₀ d) : Dev.Keeps e₀ (Dev.stkLatch d) := by
  unfold Dev.stkLatch
  try dsimp only
  repeat' first
    | with_reducible assumption
    | with_reducible apply Dev.advanceSc_keeps
    | with_reducible apply Dev.setRegs_keeps
    | with_reducible apply Dev.setReg_keeps
    | with_reducible apply Dev.raise_keeps
    | with_reducible apply Dev.Keeps.ite
    | with_reducible apply Dev.Keeps.ite_snd
    | with_reducible apply Dev.Keeps.foldl
    | simp only [Dev.Keeps.keep]
    | (intro _; intros; try dsimp only)
    | dsimp only
    | (split; all_goals try dsimp only)

theorem Dev.stkReframeDone_keeps {e₀ d : Dev} (h : Dev.Keeps e₀ d) : Dev.Keeps e₀ (Dev.stkReframeDone d) := by
  unfold Dev.stkReframeDone
  try dsimp only
  repeat' first
    | with_reducible assumption
    | with_reducible apply Dev.raise_keeps
    | with_reducible apply Dev.count_keeps
    | with_reducible apply Dev.stkEvent_keeps
    | with_reducible apply Dev.Keeps.ite
    | with_reducible apply Dev.Keeps.ite_snd
    | with_reducible apply Dev.Keeps.foldl
    | simp only [Dev.Keeps.keep]
    | (intro _; intros; try dsimp only)
    | dsimp only
    | (split; all_goals try dsimp only)

theorem Dev.enterHoldover_keeps {e₀ d : Dev} (h : Dev.Keeps e₀ d) (viaAcq : Bool) : Dev.Keeps e₀ (Dev.enterHoldover d viaAcq) := by
  unfold Dev.enterHoldover
  try dsimp only
  repeat' first
    | with_reducible assumption
    | with_reducible apply Dev.count_keeps
    | with_reducible apply Dev.Keeps.ite
    | with_reducible apply Dev.Keeps.ite_snd
    | with_reducible apply Dev.Keeps.foldl
    | simp only [Dev.Keeps.keep]
    | (intro _; intros; try dsimp only)
    | dsimp only
    | (split; all_goals try dsimp only)

theorem Dev.setRate_keeps {e₀ d : Dev} (h : Dev.Keeps e₀ d) (r : Int) : Dev.Keeps e₀ (Dev.setRate d r) := by
  unfold Dev.setRate
  try dsimp only
  repeat' first
    | with_reducible assumption
    | with_reducible apply Dev.Keeps.ite
    | with_reducible apply Dev.Keeps.ite_snd
    | with_reducible apply Dev.Keeps.foldl
    | simp only [Dev.Keeps.keep]
    | (intro _; intros; try dsimp only)
    | dsimp only
    | (split; all_goals try dsimp only)

theorem Dev.stkTakeEffect_keeps {e₀ d : Dev} (h : Dev.Keeps e₀ d) (b : Rat) : Dev.Keeps e₀ (Dev.stkTakeEffect d b) := by
  unfold Dev.stkTakeEffect
  try dsimp only
  repeat' first
    | with_reducible assumption
    | with_reducible apply Dev.advanceSc_keeps
    | with_reducible apply Dev.setReg_keeps
    | with_reducible apply Dev.setRate_keeps
    | with_reducible apply Dev.beginStroke_keeps
    | with_reducible apply Dev.Keeps.ite
    | with_reducible apply Dev.Keeps.ite_snd
    | with_reducible apply Dev.Keeps.foldl
    | simp only [Dev.Keeps.keep]
    | (intro _; intros; try dsimp only)
    | dsimp only
    | (split; all_goals try dsimp only)

theorem Dev.todStep_keeps {e₀ d : Dev} (h : Dev.Keeps e₀ d) : Dev.Keeps e₀ (Dev.todStep d) := by
  unfold Dev.todStep
  try dsimp only
  repeat' first
    | with_reducible assumption
    | with_reducible apply Dev.refuse_keeps
    | with_reducible apply Dev.Keeps.ite
    | with_reducible apply Dev.Keeps.ite_snd
    | with_reducible apply Dev.Keeps.foldl
    | simp only [Dev.Keeps.keep]
    | (intro _; intros; try dsimp only)
    | dsimp only
    | (split; all_goals try dsimp only)

theorem Dev.stkTick_keeps {e₀ d : Dev} (h : Dev.Keeps e₀ d) : Dev.Keeps e₀ (Dev.stkTick d) := by
  unfold Dev.stkTick
  try dsimp only
  repeat' first
    | with_reducible assumption
    | with_reducible apply Dev.advanceSc_keeps
    | with_reducible apply Dev.beginStroke_keeps
    | with_reducible apply Dev.Keeps.ite
    | with_reducible apply Dev.Keeps.ite_snd
    | with_reducible apply Dev.Keeps.foldl
    | simp only [Dev.Keeps.keep]
    | (intro _; intros; try dsimp only)
    | dsimp only
    | (split; all_goals try dsimp only)

theorem Dev.ltcFrame_keeps {e₀ d : Dev} (h : Dev.Keeps e₀ d) (data : Nat) (start : Nat) (rate : Nat) (reverse : Bool) (good : Bool) : Dev.Keeps e₀ (Dev.ltcFrame d data start rate reverse good) := by
  unfold Dev.ltcFrame
  try dsimp only
  repeat' first
    | with_reducible assumption
    | with_reducible apply Dev.count_keeps
    | with_reducible apply Dev.stkEvent_keeps
    | with_reducible apply Dev.freshNat_keeps
    | with_reducible apply Dev.raise_keeps
    | with_reducible apply Dev.Keeps.ite
    | with_reducible apply Dev.Keeps.ite_snd
    | with_reducible apply Dev.Keeps.foldl
    | simp only [Dev.Keeps.keep]
    | (intro _; intros; try dsimp only)
    | dsimp only
    | (split; all_goals try dsimp only)

theorem Dev.acqTimeout_keeps {e₀ d : Dev} (h : Dev.Keeps e₀ d) : Dev.Keeps e₀ (Dev.acqTimeout d) := by
  unfold Dev.acqTimeout
  try dsimp only
  repeat' first
    | with_reducible assumption
    | with_reducible apply Dev.raise_keeps
    | with_reducible apply Dev.stkEvent_keeps
    | with_reducible apply Dev.enterHoldover_keeps
    | with_reducible apply Dev.Keeps.ite
    | with_reducible apply Dev.Keeps.ite_snd
    | with_reducible apply Dev.Keeps.foldl
    | simp only [Dev.Keeps.keep]
    | (intro _; intros; try dsimp only)
    | dsimp only
    | (split; all_goals try dsimp only)

theorem Dev.captureTod_keeps {e₀ d : Dev} (h : Dev.Keeps e₀ d) : Dev.Keeps e₀ (Dev.captureTod d).2 := by
  unfold Dev.captureTod
  try dsimp only
  repeat' first
    | with_reducible assumption
    | with_reducible apply Dev.setReg_keeps
    | with_reducible apply Dev.Keeps.ite
    | with_reducible apply Dev.Keeps.ite_snd
    | with_reducible apply Dev.Keeps.foldl
    | simp only [Dev.Keeps.keep]
    | (intro _; intros; try dsimp only)
    | dsimp only
    | (split; all_goals try dsimp only)

theorem Dev.captureStroke_keeps {e₀ d : Dev} (h : Dev.Keeps e₀ d) : Dev.Keeps e₀ (Dev.captureStroke d).2 := by
  unfold Dev.captureStroke
  try dsimp only
  repeat' first
    | with_reducible assumption
    | with_reducible apply Dev.setReg_keeps
    | with_reducible apply Dev.Keeps.ite
    | with_reducible apply Dev.Keeps.ite_snd
    | with_reducible apply Dev.Keeps.foldl
    | simp only [Dev.Keeps.keep]
    | (intro _; intros; try dsimp only)
    | dsimp only
    | (split; all_goals try dsimp only)

theorem Dev.lockLost_keeps {e₀ d : Dev} (h : Dev.Keeps e₀ d) : Dev.Keeps e₀ (Dev.lockLost d) := by
  unfold Dev.lockLost
  try dsimp only
  repeat' first
    | with_reducible assumption
    | with_reducible apply Dev.raise_keeps
    | with_reducible apply Dev.stkEvent_keeps
    | with_reducible apply Dev.enterHoldover_keeps
    | with_reducible apply Dev.Keeps.ite
    | with_reducible apply Dev.Keeps.ite_snd
    | with_reducible apply Dev.Keeps.foldl
    | simp only [Dev.Keeps.keep]
    | (intro _; intros; try dsimp only)
    | dsimp only
    | (split; all_goals try dsimp only)

theorem Dev.lengthen_keeps {e₀ d : Dev} (h : Dev.Keeps e₀ d) (x : Rat) : Dev.Keeps e₀ (Dev.lengthen d x) := by
  unfold Dev.lengthen
  try dsimp only
  repeat' first
    | with_reducible assumption
    | with_reducible apply Dev.Keeps.ite
    | with_reducible apply Dev.Keeps.ite_snd
    | with_reducible apply Dev.Keeps.foldl
    | simp only [Dev.Keeps.keep]
    | (intro _; intros; try dsimp only)
    | dsimp only
    | (split; all_goals try dsimp only)

theorem Dev.writeStkSrc_keeps {e₀ d : Dev} (h : Dev.Keeps e₀ d) (v : Nat) : Dev.Keeps e₀ (Dev.writeStkSrc d v) := by
  unfold Dev.writeStkSrc
  try dsimp only
  repeat' first
    | with_reducible assumption
    | with_reducible apply Dev.refuse_keeps
    | with_reducible apply Dev.genericWrite_keeps
    | with_reducible apply Dev.setRate_keeps
    | with_reducible apply Dev.enterHoldover_keeps
    | with_reducible apply Dev.Keeps.ite
    | with_reducible apply Dev.Keeps.ite_snd
    | with_reducible apply Dev.Keeps.foldl
    | simp only [Dev.Keeps.keep]
    | (intro _; intros; try dsimp only)
    | dsimp only
    | (split; all_goals try dsimp only)

theorem Dev.referenceAt_keeps {e₀ d : Dev} (hk : Dev.Keeps e₀ d) (t : Rat) :
    Dev.Keeps e₀ (Dev.referenceAt d t) := by
  unfold Dev.referenceAt
  try dsimp only
  repeat' first
    | with_reducible assumption
    | with_reducible apply Dev.advanceSc_keeps
    | with_reducible apply Dev.lengthen_keeps
    | with_reducible apply Dev.setRate_keeps
    | with_reducible apply Dev.stkEvent_keeps
    | with_reducible apply Dev.setReg_keeps
    | with_reducible apply Dev.lockLost_keeps
    | with_reducible apply Dev.raise_keeps
    | with_reducible apply Dev.Keeps.ite
    | with_reducible apply Dev.Keeps.ite_snd
    | with_reducible apply Dev.Keeps.foldl
    | simp only [Dev.Keeps.keep]
    | (intro _; intros; try dsimp only)
    | dsimp only
    | (split; all_goals try dsimp only)

theorem Dev.referenceInstant_keeps {e₀ d : Dev} (h : Dev.Keeps e₀ d) (t : Rat) : Dev.Keeps e₀ (Dev.referenceInstant d t) := by
  unfold Dev.referenceInstant
  try dsimp only
  repeat' first
    | with_reducible assumption
    | with_reducible apply Dev.referenceAt_keeps
    | with_reducible apply Dev.advanceSc_keeps
    | with_reducible apply Dev.Keeps.ite
    | with_reducible apply Dev.Keeps.ite_snd
    | with_reducible apply Dev.Keeps.foldl
    | simp only [Dev.Keeps.keep]
    | (intro _; intros; try dsimp only)
    | dsimp only
    | (split; all_goals try dsimp only)

theorem Dev.missingInstant_keeps {e₀ d : Dev} (h : Dev.Keeps e₀ d) : Dev.Keeps e₀ (Dev.missingInstant d) := by
  unfold Dev.missingInstant
  try dsimp only
  repeat' first
    | with_reducible assumption
    | with_reducible apply Dev.advanceSc_keeps
    | with_reducible apply Dev.stkEvent_keeps
    | with_reducible apply Dev.count_keeps
    | with_reducible apply Dev.raise_keeps
    | with_reducible apply Dev.lockLost_keeps
    | with_reducible apply Dev.Keeps.ite
    | with_reducible apply Dev.Keeps.ite_snd
    | with_reducible apply Dev.Keeps.foldl
    | simp only [Dev.Keeps.keep]
    | (intro _; intros; try dsimp only)
    | dsimp only
    | (split; all_goals try dsimp only)

theorem Dev.captureLtc_keeps {e₀ d : Dev} (h : Dev.Keeps e₀ d) : Dev.Keeps e₀ (Dev.captureLtc d).2 := by
  unfold Dev.captureLtc
  try dsimp only
  repeat' first
    | with_reducible assumption
    | with_reducible apply Dev.setRegs_keeps
    | with_reducible apply Dev.Keeps.ite
    | with_reducible apply Dev.Keeps.ite_snd
    | with_reducible apply Dev.Keeps.foldl
    | simp only [Dev.Keeps.keep]
    | (intro _; intros; try dsimp only)
    | dsimp only
    | (split; all_goals try dsimp only)

end Sys2Proof.Machine
end

