-- ==== Sys2Proof/Laws/KeepsAdmission.lean ====
section
/-! SUPPORT. Admission. -/

set_option linter.unusedTactic false
set_option linter.unreachableTactic false
set_option linter.unusedVariables false
set_option linter.unusedSimpArgs false

namespace Sys2Proof.Machine

theorem Dev.admRefused_keeps {e₀ d : Dev} (h : Dev.Keeps e₀ d) (f : AdmFail) : Dev.Keeps e₀ (Dev.admRefused d f) := by
  unfold Dev.admRefused
  try dsimp only
  repeat' first
    | with_reducible assumption
    | with_reducible apply Dev.count_keeps
    | with_reducible apply Dev.setReg_keeps
    | with_reducible apply Dev.Keeps.ite
    | with_reducible apply Dev.Keeps.ite_snd
    | with_reducible apply Dev.Keeps.foldl
    | simp only [Dev.Keeps.keep]
    | (intro _; intros; try dsimp only)
    | dsimp only
    | (split; all_goals try dsimp only)

end Sys2Proof.Machine
end

