-- ==== Sys2Proof/Laws/KeepsTallyValue.lean ====
section
/-! SUPPORT. TallyValue. -/

set_option linter.unusedTactic false
set_option linter.unreachableTactic false
set_option linter.unusedVariables false
set_option linter.unusedSimpArgs false

namespace Sys2Proof.Machine

theorem Dev.tlyEvent_keeps {e₀ d : Dev} (h : Dev.Keeps e₀ d) (u : Nat) (f : Fld) : Dev.Keeps e₀ (Dev.tlyEvent d u f) := by
  unfold Dev.tlyEvent
  try dsimp only
  repeat' first
    | with_reducible assumption
    | with_reducible apply Dev.raiseIf_keeps
    | with_reducible apply Dev.setFlag_keeps
    | with_reducible apply Dev.Keeps.ite
    | with_reducible apply Dev.Keeps.ite_snd
    | with_reducible apply Dev.Keeps.foldl
    | simp only [Dev.Keeps.keep]
    | (intro _; intros; try dsimp only)
    | dsimp only
    | (split; all_goals try dsimp only)

theorem Dev.tlyAppend_keeps {e₀ d : Dev} (h : Dev.Keeps e₀ d) (link : Nat) (type_ : Nat) (origin : Nat) (seq : Nat) (payload : List Byte) : Dev.Keeps e₀ (Dev.tlyAppend d link type_ origin seq payload).2 := by
  unfold Dev.tlyAppend
  try dsimp only
  repeat' first
    | with_reducible assumption
    | with_reducible apply Dev.count_keeps
    | with_reducible apply Dev.Keeps.ite
    | with_reducible apply Dev.Keeps.ite_snd
    | with_reducible apply Dev.Keeps.foldl
    | simp only [Dev.Keeps.keep]
    | (intro _; intros; try dsimp only)
    | dsimp only
    | (split; all_goals try dsimp only)

theorem Dev.tlyAppendTold_keeps {e₀ d : Dev} (h : Dev.Keeps e₀ d) (link : Nat) : Dev.Keeps e₀ (Dev.tlyAppendTold d link) := by
  unfold Dev.tlyAppendTold
  try dsimp only
  repeat' first
    | with_reducible assumption
    | with_reducible apply Dev.count_keeps
    | with_reducible apply Dev.Keeps.ite
    | with_reducible apply Dev.Keeps.ite_snd
    | with_reducible apply Dev.Keeps.foldl
    | simp only [Dev.Keeps.keep]
    | (intro _; intros; try dsimp only)
    | dsimp only
    | (split; all_goals try dsimp only)

theorem Dev.setTly_keeps {e₀ d : Dev} (h : Dev.Keeps e₀ d) (u : Nat) (t : Tly) : Dev.Keeps e₀ (Dev.setTly d u t) := by
  unfold Dev.setTly
  try dsimp only
  repeat' first
    | with_reducible assumption
    | with_reducible apply Dev.setReg_keeps
    | with_reducible apply Dev.Keeps.ite
    | with_reducible apply Dev.Keeps.ite_snd
    | with_reducible apply Dev.Keeps.foldl
    | simp only [Dev.Keeps.keep]
    | (intro _; intros; try dsimp only)
    | dsimp only
    | (split; all_goals try dsimp only)

theorem Dev.tlyPush_keeps {e₀ d : Dev} (h : Dev.Keeps e₀ d) (u : Nat) (x : TlyResult) : Dev.Keeps e₀ (Dev.tlyPush d u x).2 := by
  unfold Dev.tlyPush
  try dsimp only
  repeat' first
    | with_reducible assumption
    | with_reducible apply Dev.count_keeps
    | with_reducible apply Dev.setTly_keeps
    | with_reducible apply Dev.Keeps.ite
    | with_reducible apply Dev.Keeps.ite_snd
    | with_reducible apply Dev.Keeps.foldl
    | simp only [Dev.Keeps.keep]
    | (intro _; intros; try dsimp only)
    | dsimp only
    | (split; all_goals try dsimp only)

theorem Dev.stripFailed_keeps {e₀ d : Dev} (h : Dev.Keeps e₀ d) (u : Nat) (type_ : Nat) (seq : Nat) (value : Nat) : Dev.Keeps e₀ (Dev.stripFailed d u type_ seq value) := by
  unfold Dev.stripFailed
  try dsimp only
  repeat' first
    | with_reducible assumption
    | with_reducible apply Dev.count_keeps
    | with_reducible apply Dev.tlyPush_keeps
    | with_reducible apply Dev.tlyEvent_keeps
    | with_reducible apply Dev.Keeps.ite
    | with_reducible apply Dev.Keeps.ite_snd
    | with_reducible apply Dev.Keeps.foldl
    | simp only [Dev.Keeps.keep]
    | (intro _; intros; try dsimp only)
    | dsimp only
    | (split; all_goals try dsimp only)

theorem Dev.tlyStripTold_keeps {e₀ d : Dev} (hk : Dev.Keeps e₀ d) (link type_ seq : Nat) (wrong : Option Nat) :
    Dev.Keeps e₀ (Dev.tlyStripTold d link type_ seq wrong).2 := by
  unfold Dev.tlyStripTold
  try dsimp only
  repeat' first
    | with_reducible assumption
    | with_reducible apply Dev.count_keeps
    | with_reducible apply Dev.stripFailed_keeps
    | with_reducible apply Dev.Keeps.ite
    | with_reducible apply Dev.Keeps.ite_snd
    | with_reducible apply Dev.Keeps.foldl
    | simp only [Dev.Keeps.keep]
    | (intro _; intros; try dsimp only)
    | dsimp only
    | (split; all_goals try dsimp only)

theorem Dev.tlyStrip_keeps {e₀ d : Dev} (h : Dev.Keeps e₀ d) (link : Nat) (type_ : Nat) (origin : Nat) (fold : Nat) (seq : Nat) (payload : List Byte) : Dev.Keeps e₀ (Dev.tlyStrip d link type_ origin fold seq payload).2 := by
  unfold Dev.tlyStrip
  try dsimp only
  repeat' first
    | with_reducible assumption
    | with_reducible apply Dev.count_keeps
    | with_reducible apply Dev.stripFailed_keeps
    | with_reducible apply Dev.Keeps.ite
    | with_reducible apply Dev.Keeps.ite_snd
    | with_reducible apply Dev.Keeps.foldl
    | simp only [Dev.Keeps.keep]
    | (intro _; intros; try dsimp only)
    | dsimp only
    | (split; all_goals try dsimp only)

end Sys2Proof.Machine
end

