-- ==== Sys2Proof/Laws/KeepsLink.lean ====
section
/-! SUPPORT. Link. -/

set_option linter.unusedTactic false
set_option linter.unreachableTactic false
set_option linter.unusedVariables false
set_option linter.unusedSimpArgs false

namespace Sys2Proof.Machine

theorem Dev.twnEvent_keeps {e₀ d : Dev} (h : Dev.Keeps e₀ d) (f : Fld) : Dev.Keeps e₀ (Dev.twnEvent d f) := by
  unfold Dev.twnEvent
  try dsimp only
  repeat' first
    | with_reducible assumption
    | with_reducible apply Dev.setFlag_keeps
    | with_reducible apply Dev.Keeps.ite
    | with_reducible apply Dev.Keeps.ite_snd
    | with_reducible apply Dev.Keeps.foldl
    | simp only [Dev.Keeps.keep]
    | (intro _; intros; try dsimp only)
    | dsimp only
    | (split; all_goals try dsimp only)

theorem Dev.leastLane_keeps {e₀ d : Dev} (hk : Dev.Keeps e₀ d) :
    Dev.Keeps e₀ (Dev.leastLane d).2 := by
  unfold Dev.leastLane
  try dsimp only
  repeat' first
    | with_reducible assumption
    | with_reducible apply Dev.freshNat_keeps
    | with_reducible apply Dev.Keeps.ite
    | with_reducible apply Dev.Keeps.ite_snd
    | with_reducible apply Dev.Keeps.foldl
    | simp only [Dev.Keeps.keep]
    | (intro _; intros; try dsimp only)
    | dsimp only
    | (split; all_goals try dsimp only)

theorem Dev.laneQueue_keeps {e₀ d : Dev} (hk : Dev.Keeps e₀ d) (p n : Nat) :
    Dev.Keeps e₀ (Dev.laneQueue d p n) := by
  unfold Dev.laneQueue
  try dsimp only
  repeat' first
    | with_reducible assumption
    | with_reducible apply Dev.Keeps.ite
    | with_reducible apply Dev.Keeps.ite_snd
    | with_reducible apply Dev.Keeps.foldl
    | simp only [Dev.Keeps.keep]
    | (intro _; intros; try dsimp only)
    | dsimp only
    | (split; all_goals try dsimp only)

theorem Dev.idleRun_keeps {e₀ d : Dev} (h : Dev.Keeps e₀ d) (idle : Nat → Nat → List Byte) (n : Nat) : Dev.Keeps e₀ (Dev.idleRun d idle n).2 := by
  induction n with
  | zero => exact h
  | succ n ih => exact Dev.freshNat_keeps (Dev.freshNat_keeps ih)

theorem Dev.sendLevels_keeps {e₀ d : Dev} (hk : Dev.Keeps e₀ d) (p : Nat) (ws : List (List Nat)) :
    Dev.Keeps e₀ (Dev.sendLevels d p ws) := by
  unfold Dev.sendLevels
  try dsimp only
  repeat' first
    | with_reducible assumption
    | with_reducible apply Dev.emit_keeps
    | with_reducible apply Dev.Keeps.ite
    | with_reducible apply Dev.Keeps.ite_snd
    | with_reducible apply Dev.Keeps.foldl
    | simp only [Dev.Keeps.keep]
    | (intro _; intros; try dsimp only)
    | dsimp only
    | (split; all_goals try dsimp only)

theorem Dev.lanePause_keeps {e₀ d : Dev} (hk : Dev.Keeps e₀ d) (p : Nat) (idle : Nat → Nat → List Byte) (l : Lane) :
    Dev.Keeps e₀ (Dev.lanePause d p idle l).2 := by
  unfold Dev.lanePause
  try dsimp only
  repeat' first
    | with_reducible assumption
    | with_reducible apply Dev.idleRun_keeps
    | with_reducible apply Dev.freshNat_keeps
    | with_reducible apply Dev.sendLevels_keeps
    | with_reducible apply Dev.freshBytes_keeps
    | with_reducible apply Dev.freshBool_keeps
    | with_reducible apply Dev.Keeps.ite
    | with_reducible apply Dev.Keeps.ite_snd
    | with_reducible apply Dev.Keeps.foldl
    | with_reducible apply Dev.Keeps.foldl_fst
    | simp only [Dev.Keeps.keep]
    | (intro _; intros; try dsimp only)
    | dsimp only
    | (split; all_goals try dsimp only)

theorem Dev.linkBytes_keeps {e₀ d : Dev} (hk : Dev.Keeps e₀ d) (p : Nat) (idle : Nat → Nat → List Byte) (x : LinkCodes) (bs : List Byte) :
    Dev.Keeps e₀ (Dev.linkBytes d p idle x bs).2 := by
  unfold Dev.linkBytes
  try dsimp only
  repeat' first
    | with_reducible assumption
    | with_reducible apply Dev.lanePause_keeps
    | with_reducible apply Dev.freshNat_keeps
    | with_reducible apply Dev.sendLevels_keeps
    | with_reducible apply Dev.Keeps.ite
    | with_reducible apply Dev.Keeps.ite_snd
    | with_reducible apply Dev.Keeps.foldl
    | simp only [Dev.Keeps.keep]
    | (intro _; intros; try dsimp only)
    | dsimp only
    | (split; all_goals try dsimp only)

theorem Dev.twnCodes_keeps {e₀ d : Dev} (hk : Dev.Keeps e₀ d) (p : Nat) (bs : List Byte) :
    Dev.Keeps e₀ (Dev.twnCodes d p bs) := by
  unfold Dev.twnCodes
  try dsimp only
  repeat' first
    | with_reducible assumption
    | with_reducible apply Dev.linkBytes_keeps
    | with_reducible apply Dev.Keeps.ite
    | with_reducible apply Dev.Keeps.ite_snd
    | with_reducible apply Dev.Keeps.foldl
    | simp only [Dev.Keeps.keep]
    | (intro _; intros; try dsimp only)
    | dsimp only
    | (split; all_goals try dsimp only)

theorem Dev.twnEmit_keeps {e₀ d : Dev} (h : Dev.Keeps e₀ d) (session : List Byte) (seq : Nat) (msg : TwinMsg) : Dev.Keeps e₀ (Dev.twnEmit d session seq msg) := by
  unfold Dev.twnEmit
  try dsimp only
  repeat' first
    | with_reducible assumption
    | with_reducible apply Dev.leastLane_keeps
    | with_reducible apply Dev.emit_keeps
    | with_reducible apply Dev.twnCodes_keeps
    | with_reducible apply Dev.laneQueue_keeps
    | with_reducible apply Dev.freshNat_keeps
    | with_reducible apply Dev.freshBytes_keeps
    | with_reducible apply Dev.Keeps.ite
    | with_reducible apply Dev.Keeps.ite_snd
    | with_reducible apply Dev.Keeps.foldl
    | simp only [Dev.Keeps.keep]
    | (intro _; intros; try dsimp only)
    | dsimp only
    | (split; all_goals try dsimp only)

theorem Dev.twnSendMsg_keeps {e₀ d : Dev} (h : Dev.Keeps e₀ d) (msg : TwinMsg) : Dev.Keeps e₀ (Dev.twnSendMsg d msg) := by
  unfold Dev.twnSendMsg
  try dsimp only
  repeat' first
    | with_reducible assumption
    | with_reducible apply Dev.tlyAppend_keeps
    | with_reducible apply Dev.tlyAppendTold_keeps
    | with_reducible apply Dev.twnEmit_keeps
    | with_reducible apply Dev.Keeps.ite
    | with_reducible apply Dev.Keeps.ite_snd
    | with_reducible apply Dev.Keeps.foldl
    | simp only [Dev.Keeps.keep]
    | (intro _; intros; try dsimp only)
    | dsimp only
    | (split; all_goals try dsimp only)

theorem Dev.twnMirror_keeps {e₀ d : Dev} (h : Dev.Keeps e₀ d) (items : List MirrorItem) : Dev.Keeps e₀ (Dev.twnMirror d items) := by
  unfold Dev.twnMirror
  try dsimp only
  repeat' first
    | with_reducible assumption
    | with_reducible apply Dev.countBy_keeps
    | with_reducible apply Dev.twnSendMsg_keeps
    | with_reducible apply Dev.Keeps.ite
    | with_reducible apply Dev.Keeps.ite_snd
    | with_reducible apply Dev.Keeps.foldl
    | simp only [Dev.Keeps.keep]
    | (intro _; intros; try dsimp only)
    | dsimp only
    | (split; all_goals try dsimp only)

theorem Dev.twnSendLoose_keeps {e₀ d : Dev} (h : Dev.Keeps e₀ d) (type_ : Nat) (payload : List Byte) : Dev.Keeps e₀ (Dev.twnSendLoose d type_ payload) := by
  unfold Dev.twnSendLoose
  try dsimp only
  repeat' first
    | with_reducible assumption
    | with_reducible apply Dev.freshNat_keeps
    | with_reducible apply Dev.twnEmit_keeps
    | with_reducible apply Dev.Keeps.ite
    | with_reducible apply Dev.Keeps.ite_snd
    | with_reducible apply Dev.Keeps.foldl
    | simp only [Dev.Keeps.keep]
    | (intro _; intros; try dsimp only)
    | dsimp only
    | (split; all_goals try dsimp only)

theorem Dev.twnSend_keeps {e₀ d : Dev} (h : Dev.Keeps e₀ d) (type_ : Nat) (payload : List Byte) : Dev.Keeps e₀ (Dev.twnSend d type_ payload) := by
  unfold Dev.twnSend
  try dsimp only
  repeat' first
    | with_reducible assumption
    | with_reducible apply Dev.twnSendMsg_keeps
    | with_reducible apply Dev.Keeps.ite
    | with_reducible apply Dev.Keeps.ite_snd
    | with_reducible apply Dev.Keeps.foldl
    | simp only [Dev.Keeps.keep]
    | (intro _; intros; try dsimp only)
    | dsimp only
    | (split; all_goals try dsimp only)

end Sys2Proof.Machine
end

