-- ==== Sys2Proof/Laws/KeepsWaybill.lean ====
section
/-! SUPPORT. Waybill. -/

set_option linter.unusedTactic false
set_option linter.unreachableTactic false
set_option linter.unusedVariables false
set_option linter.unusedSimpArgs false

namespace Sys2Proof.Machine

theorem Dev.setWblState_keeps {e₀ d : Dev} (h : Dev.Keeps e₀ d) (x : Nat) : Dev.Keeps e₀ (Dev.setWblState d x) := by
  unfold Dev.setWblState
  try dsimp only
  repeat' first
    | with_reducible assumption
    | with_reducible apply Dev.setFld_keeps
    | with_reducible apply Dev.Keeps.ite
    | with_reducible apply Dev.Keeps.ite_snd
    | with_reducible apply Dev.Keeps.foldl
    | simp only [Dev.Keeps.keep]
    | (intro _; intros; try dsimp only)
    | dsimp only
    | (split; all_goals try dsimp only)

theorem Dev.setWblRegs_keeps {e₀ d : Dev} (h : Dev.Keeps e₀ d) (w : Waybill) : Dev.Keeps e₀ (Dev.setWblRegs d w) := by
  unfold Dev.setWblRegs
  try dsimp only
  repeat' first
    | with_reducible assumption
    | with_reducible apply Dev.setReg_keeps
    | with_reducible apply Dev.setRegs_keeps
    | with_reducible apply Dev.Keeps.ite
    | with_reducible apply Dev.Keeps.ite_snd
    | with_reducible apply Dev.Keeps.foldl
    | simp only [Dev.Keeps.keep]
    | (intro _; intros; try dsimp only)
    | dsimp only
    | (split; all_goals try dsimp only)

theorem Dev.setTargetRegs_keeps {e₀ d : Dev} (h : Dev.Keeps e₀ d) : Dev.Keeps e₀ (Dev.setTargetRegs d) := by
  unfold Dev.setTargetRegs
  try dsimp only
  repeat' first
    | with_reducible assumption
    | with_reducible apply Dev.setReg_keeps
    | with_reducible apply Dev.Keeps.ite
    | with_reducible apply Dev.Keeps.ite_snd
    | with_reducible apply Dev.Keeps.foldl
    | simp only [Dev.Keeps.keep]
    | (intro _; intros; try dsimp only)
    | dsimp only
    | (split; all_goals try dsimp only)

theorem Dev.setRingRegs_keeps {e₀ d : Dev} (h : Dev.Keeps e₀ d) (w : Waybill) : Dev.Keeps e₀ (Dev.setRingRegs d w) := by
  unfold Dev.setRingRegs
  try dsimp only
  repeat' first
    | with_reducible assumption
    | with_reducible apply Dev.setReg_keeps
    | with_reducible apply Dev.Keeps.ite
    | with_reducible apply Dev.Keeps.ite_snd
    | with_reducible apply Dev.Keeps.foldl
    | simp only [Dev.Keeps.keep]
    | (intro _; intros; try dsimp only)
    | dsimp only
    | (split; all_goals try dsimp only)

theorem Dev.setPartRegs_keeps {e₀ d : Dev} (h : Dev.Keeps e₀ d) (w : Waybill) : Dev.Keeps e₀ (Dev.setPartRegs d w) := by
  unfold Dev.setPartRegs
  try dsimp only
  repeat' first
    | with_reducible assumption
    | with_reducible apply Dev.setReg_keeps
    | with_reducible apply Dev.Keeps.ite
    | with_reducible apply Dev.Keeps.ite_snd
    | with_reducible apply Dev.Keeps.foldl
    | simp only [Dev.Keeps.keep]
    | (intro _; intros; try dsimp only)
    | dsimp only
    | (split; all_goals try dsimp only)

end Sys2Proof.Machine
end

