-- ==== Sys2Proof/Laws/KeepsSdp.lean ====
section
/-! SUPPORT. Sdp. -/

set_option linter.unusedTactic false
set_option linter.unreachableTactic false
set_option linter.unusedVariables false
set_option linter.unusedSimpArgs false

namespace Sys2Proof.Machine

theorem Dev.sdpEvent_keeps {e₀ d : Dev} (h : Dev.Keeps e₀ d) (f : Fld) : Dev.Keeps e₀ (Dev.sdpEvent d f) := by
  unfold Dev.sdpEvent
  try dsimp only
  repeat' first
    | with_reducible assumption
    | with_reducible apply Dev.setFlag_keeps
    | with_reducible apply Dev.Keeps.ite
    | with_reducible apply Dev.Keeps.ite_snd
    | with_reducible apply Dev.Keeps.foldl
    | simp only [Dev.Keeps.keep]
    | (intro _; intros; try dsimp only)
    | dsimp only
    | (split; all_goals try dsimp only)

theorem Dev.setPower_keeps {e₀ d : Dev} (h : Dev.Keeps e₀ d) (x : Nat) : Dev.Keeps e₀ (Dev.setPower d x) := by
  unfold Dev.setPower
  try dsimp only
  repeat' first
    | with_reducible assumption
    | with_reducible apply Dev.count_keeps
    | with_reducible apply Dev.raise_keeps
    | with_reducible apply Dev.sdpEvent_keeps
    | with_reducible apply Dev.Keeps.ite
    | with_reducible apply Dev.Keeps.ite_snd
    | with_reducible apply Dev.Keeps.foldl
    | simp only [Dev.Keeps.keep]
    | (intro _; intros; try dsimp only)
    | dsimp only
    | (split; all_goals try dsimp only)

theorem Dev.unlockRefused_keeps {e₀ d : Dev} (h : Dev.Keeps e₀ d) (reason : Nat) : Dev.Keeps e₀ (Dev.unlockRefused d reason) := by
  unfold Dev.unlockRefused
  have hr : Dev.Keeps e₀ { d.refuse Reg.SDP_BLKID reason with sdp := { d.sdp with nonceValid := false } } :=
    Dev.Keeps.withSdp (Dev.refuse_keeps h _ _) h.sec
  refine Dev.Keeps.ite (fun _ => ?_) fun _ => hr
  refine Dev.raise_keeps (Dev.sdpEvent_keeps (Dev.Keeps.withSdp hr ?_) _) _
  exact h.sec

theorem Dev.audit_keeps {e₀ d : Dev} (h : Dev.Keeps e₀ d) (path : Nat) (write : Bool) (cause : Nat) (addr : Nat) : Dev.Keeps e₀ (Dev.audit d path write cause addr) := by
  unfold Dev.audit
  split
  · exact h
  · exact Dev.Keeps.withSdp (Dev.count_keeps (Dev.reservedWake_keeps h _ _) _) (Dev.reservedWake_keeps h _ _).sec

theorem Dev.writeStageKey_keeps {e₀ d : Dev} (h : Dev.Keeps e₀ d) (path : Nat) (k : Nat) (v : Nat) : Dev.Keeps e₀ (Dev.writeStageKey d path k v) := by
  unfold Dev.writeStageKey
  try dsimp only
  repeat' first
    | with_reducible assumption
    | with_reducible apply Dev.audit_keeps
    | with_reducible apply Dev.Keeps.ite
    | with_reducible apply Dev.Keeps.ite_snd
    | with_reducible apply Dev.Keeps.foldl
    | simp only [Dev.Keeps.keep]
    | (intro _; intros; try dsimp only)
    | dsimp only
    | (split; all_goals try dsimp only)

theorem Dev.dbgBytes_keeps {e₀ d : Dev} (h : Dev.Keeps e₀ d) (space : Nat) (a : Nat) : Dev.Keeps e₀ (Dev.dbgBytes d space a).2 := by
  unfold Dev.dbgBytes
  try dsimp only
  repeat' first
    | with_reducible assumption
    | with_reducible apply Dev.freshBytes_keeps
    | with_reducible apply Dev.Keeps.ite
    | with_reducible apply Dev.Keeps.ite_snd
    | with_reducible apply Dev.Keeps.foldl
    | simp only [Dev.Keeps.keep]
    | (intro _; intros; try dsimp only)
    | dsimp only
    | (split; all_goals try dsimp only)

theorem Dev.dbgBlock_keeps {e₀ d : Dev} (hk : Dev.Keeps e₀ d) (b : Nat) (bad : Bool) :
    Dev.Keeps e₀ (Dev.dbgBlock d b bad) := by
  unfold Dev.dbgBlock
  try dsimp only
  repeat' first
    | with_reducible assumption
    | with_reducible apply Dev.memWake_keeps
    | with_reducible apply Dev.blockFailed_keeps
    | with_reducible apply Dev.depLog_keeps
    | with_reducible apply Dev.Keeps.ite
    | with_reducible apply Dev.Keeps.ite_snd
    | with_reducible apply Dev.Keeps.foldl
    | simp only [Dev.Keeps.keep]
    | (intro _; intros; try dsimp only)
    | dsimp only
    | (split; all_goals try dsimp only)

theorem Dev.dbgReadDone_keeps {e₀ d : Dev} (h : Dev.Keeps e₀ d) (bad : Bool) : Dev.Keeps e₀ (Dev.dbgReadDone d bad) := by
  unfold Dev.dbgReadDone
  try dsimp only
  repeat' first
    | with_reducible assumption
    | with_reducible apply Dev.setRegs_keeps
    | with_reducible apply Dev.dbgBytes_keeps
    | with_reducible apply Dev.dbgBlock_keeps
    | with_reducible apply Dev.setFlag_keeps
    | with_reducible apply Dev.setFld_keeps
    | with_reducible apply Dev.Keeps.ite
    | with_reducible apply Dev.Keeps.ite_snd
    | with_reducible apply Dev.Keeps.foldl
    | simp only [Dev.Keeps.keep]
    | (intro _; intros; try dsimp only)
    | dsimp only
    | (split; all_goals try dsimp only)

theorem Dev.dbgRead_keeps {e₀ d : Dev} (h : Dev.Keeps e₀ d) : Dev.Keeps e₀ (Dev.dbgRead d) := by
  unfold Dev.dbgRead
  try dsimp only
  repeat' first
    | with_reducible assumption
    | with_reducible apply Dev.refuse_keeps
    | with_reducible apply Dev.Keeps.ite
    | with_reducible apply Dev.Keeps.ite_snd
    | with_reducible apply Dev.Keeps.foldl
    | simp only [Dev.Keeps.keep]
    | (intro _; intros; try dsimp only)
    | dsimp only
    | (split; all_goals try dsimp only)

theorem Dev.lullExit_keeps {e₀ d : Dev} (h : Dev.Keeps e₀ d) : Dev.Keeps e₀ (Dev.lullExit d) := by
  unfold Dev.lullExit
  try dsimp only
  repeat' first
    | with_reducible assumption
    | with_reducible apply Dev.setPower_keeps
    | with_reducible apply Dev.Keeps.ite
    | with_reducible apply Dev.Keeps.ite_snd
    | with_reducible apply Dev.Keeps.foldl
    | simp only [Dev.Keeps.keep]
    | (intro _; intros; try dsimp only)
    | dsimp only
    | (split; all_goals try dsimp only)

theorem Dev.setLatch_keeps {e₀ d : Dev} (h : Dev.Keeps e₀ d) (i : Nat) : Dev.Keeps e₀ (Dev.setLatch d i) := by
  unfold Dev.setLatch
  refine Dev.Keeps.ite (fun _ => h) fun _ => ?_
  have hr : ∀ c : Bool, Dev.Keeps e₀ (if c = true then
      { d.setReg Reg.SDP_WAKE_STATUS (d.reg Reg.SDP_WAKE_STATUS + 2 ^ i) with
        sdp := { (d.setReg Reg.SDP_WAKE_STATUS (d.reg Reg.SDP_WAKE_STATUS + 2 ^ i)).sdp with
          restLatches := (d.setReg Reg.SDP_WAKE_STATUS (d.reg Reg.SDP_WAKE_STATUS + 2 ^ i)).sdp.restLatches ++ [i] } }
      else (d.setReg Reg.SDP_WAKE_STATUS (d.reg Reg.SDP_WAKE_STATUS + 2 ^ i)).raise (0x46C0 + i)) := fun c =>
    Dev.Keeps.ite (fun _ => Dev.Keeps.withSdp (Dev.setReg_keeps h _ _) h.sec) fun _ => Dev.raise_keeps (Dev.setReg_keeps h _ _) _
  exact Dev.Keeps.ite (fun _ => Dev.Keeps.withSdp (Dev.sdpEvent_keeps (hr _) _) (hr _).sec) fun _ => hr _

theorem Dev.thermalAlert_keeps {e₀ d : Dev} (h : Dev.Keeps e₀ d) (f : Fld) (alertBit : Nat) (src : Nat) : Dev.Keeps e₀ (Dev.thermalAlert d f alertBit src) := by
  unfold Dev.thermalAlert
  try dsimp only
  repeat' first
    | with_reducible assumption
    | with_reducible apply Dev.setLatch_keeps
    | with_reducible apply Dev.raise_keeps
    | with_reducible apply Dev.sdpEvent_keeps
    | with_reducible apply Dev.Keeps.ite
    | with_reducible apply Dev.Keeps.ite_snd
    | with_reducible apply Dev.Keeps.foldl
    | simp only [Dev.Keeps.keep]
    | (intro _; intros; try dsimp only)
    | dsimp only
    | (split; all_goals try dsimp only)

theorem Dev.challenge_keeps {e₀ d : Dev} (h : Dev.Keeps e₀ d) : Dev.Keeps e₀ (Dev.challenge d) := by
  unfold Dev.challenge
  try dsimp only
  repeat' first
    | with_reducible assumption
    | with_reducible apply Dev.freshBytes_keeps
    | with_reducible apply Dev.setRegs_keeps
    | with_reducible apply Dev.Keeps.ite
    | with_reducible apply Dev.Keeps.ite_snd
    | with_reducible apply Dev.Keeps.foldl
    | simp only [Dev.Keeps.keep]
    | (intro _; intros; try dsimp only)
    | dsimp only
    | (split; all_goals try dsimp only)

theorem Dev.refuseFuse_keeps {e₀ d : Dev} (h : Dev.Keeps e₀ d) (reason : Nat) : Dev.Keeps e₀ (Dev.refuseFuse d reason) := by
  unfold Dev.refuseFuse
  try dsimp only
  repeat' first
    | with_reducible assumption
    | with_reducible apply Dev.refuse_keeps
    | with_reducible apply Dev.setReg_keeps
    | with_reducible apply Dev.Keeps.ite
    | with_reducible apply Dev.Keeps.ite_snd
    | with_reducible apply Dev.Keeps.foldl
    | simp only [Dev.Keeps.keep]
    | (intro _; intros; try dsimp only)
    | dsimp only
    | (split; all_goals try dsimp only)

theorem Dev.setDebugMode_keeps {e₀ d : Dev} (h : Dev.Keeps e₀ d) (m : Nat) : Dev.Keeps e₀ (Dev.setDebugMode d m) := by
  unfold Dev.setDebugMode
  try dsimp only
  repeat' first
    | with_reducible assumption
    | with_reducible apply Dev.setReg_keeps
    | with_reducible apply Dev.clearRegs_keeps
    | with_reducible apply Dev.lullExit_keeps
    | with_reducible apply Dev.Keeps.ite
    | with_reducible apply Dev.Keeps.ite_snd
    | with_reducible apply Dev.Keeps.foldl
    | simp only [Dev.Keeps.keep]
    | (intro _; intros; try dsimp only)
    | dsimp only
    | (split; all_goals try dsimp only)

theorem Dev.writeDbgMode_keeps {e₀ d : Dev} (h : Dev.Keeps e₀ d) (v : Nat) : Dev.Keeps e₀ (Dev.writeDbgMode d v) := by
  unfold Dev.writeDbgMode
  try dsimp only
  repeat' first
    | with_reducible assumption
    | with_reducible apply Dev.refuse_keeps
    | with_reducible apply Dev.setDebugMode_keeps
    | with_reducible apply Dev.Keeps.ite
    | with_reducible apply Dev.Keeps.ite_snd
    | with_reducible apply Dev.Keeps.foldl
    | simp only [Dev.Keeps.keep]
    | (intro _; intros; try dsimp only)
    | dsimp only
    | (split; all_goals try dsimp only)

theorem Dev.fuseOther_keeps {e₀ d : Dev} (h : Dev.Keeps e₀ d) : Dev.Keeps e₀ (Dev.fuseOther d) := by
  unfold Dev.fuseOther
  try dsimp only
  repeat' first
    | with_reducible assumption
    | with_reducible apply Dev.refuseFuse_keeps
    | with_reducible apply Dev.Keeps.ite
    | with_reducible apply Dev.Keeps.ite_snd
    | with_reducible apply Dev.Keeps.foldl
    | simp only [Dev.Keeps.keep]
    | (intro _; intros; try dsimp only)
    | dsimp only
    | (split; all_goals try dsimp only)

theorem Dev.fuseArm_keeps {e₀ d : Dev} (h : Dev.Keeps e₀ d) : Dev.Keeps e₀ (Dev.fuseArm d) := by
  unfold Dev.fuseArm
  try dsimp only
  repeat' first
    | with_reducible assumption
    | with_reducible apply Dev.refuseFuse_keeps
    | with_reducible apply Dev.setReg_keeps
    | with_reducible apply Dev.Keeps.ite
    | with_reducible apply Dev.Keeps.ite_snd
    | with_reducible apply Dev.Keeps.foldl
    | simp only [Dev.Keeps.keep]
    | (intro _; intros; try dsimp only)
    | dsimp only
    | (split; all_goals try dsimp only)

theorem Dev.fuseTimeout_keeps {e₀ d : Dev} (h : Dev.Keeps e₀ d) : Dev.Keeps e₀ (Dev.fuseTimeout d) := by
  unfold Dev.fuseTimeout
  try dsimp only
  repeat' first
    | with_reducible assumption
    | with_reducible apply Dev.refuseFuse_keeps
    | with_reducible apply Dev.Keeps.ite
    | with_reducible apply Dev.Keeps.ite_snd
    | with_reducible apply Dev.Keeps.foldl
    | simp only [Dev.Keeps.keep]
    | (intro _; intros; try dsimp only)
    | dsimp only
    | (split; all_goals try dsimp only)

theorem Dev.snapTake_keeps {e₀ d : Dev} (h : Dev.Keeps e₀ d) : Dev.Keeps e₀ (Dev.snapTake d) := by
  unfold Dev.snapTake
  try dsimp only
  repeat' first
    | with_reducible assumption
    | with_reducible apply Dev.refuse_keeps
    | with_reducible apply Dev.Keeps.ite
    | with_reducible apply Dev.Keeps.ite_snd
    | with_reducible apply Dev.Keeps.foldl
    | simp only [Dev.Keeps.keep]
    | (intro _; intros; try dsimp only)
    | dsimp only
    | (split; all_goals try dsimp only)

theorem Dev.snapRelease_keeps {e₀ d : Dev} (h : Dev.Keeps e₀ d) : Dev.Keeps e₀ (Dev.snapRelease d) := by
  unfold Dev.snapRelease
  try dsimp only
  repeat' first
    | with_reducible assumption
    | with_reducible apply Dev.refuse_keeps
    | with_reducible apply Dev.Keeps.ite
    | with_reducible apply Dev.Keeps.ite_snd
    | with_reducible apply Dev.Keeps.foldl
    | simp only [Dev.Keeps.keep]
    | (intro _; intros; try dsimp only)
    | dsimp only
    | (split; all_goals try dsimp only)

theorem Dev.writeDbgHalt_keeps {e₀ d : Dev} (h : Dev.Keeps e₀ d) (k : Nat) (v : Nat) : Dev.Keeps e₀ (Dev.writeDbgHalt d k v) := by
  unfold Dev.writeDbgHalt
  try dsimp only
  repeat' first
    | with_reducible assumption
    | with_reducible apply Dev.setReg_keeps
    | with_reducible apply Dev.refuse_keeps
    | with_reducible apply Dev.Keeps.ite
    | with_reducible apply Dev.Keeps.ite_snd
    | with_reducible apply Dev.Keeps.foldl
    | simp only [Dev.Keeps.keep]
    | (intro _; intros; try dsimp only)
    | dsimp only
    | (split; all_goals try dsimp only)

theorem Dev.writeDbg_keeps {e₀ d : Dev} (h : Dev.Keeps e₀ d) (off : Nat) (v : Nat) : Dev.Keeps e₀ (Dev.writeDbg d off v) := by
  unfold Dev.writeDbg
  try dsimp only
  repeat' first
    | with_reducible assumption
    | with_reducible apply Dev.writeDbgMode_keeps
    | with_reducible apply Dev.snapTake_keeps
    | with_reducible apply Dev.snapRelease_keeps
    | with_reducible apply Dev.writeDbgHalt_keeps
    | with_reducible apply Dev.refuse_keeps
    | with_reducible apply Dev.dbgRead_keeps
    | with_reducible apply Dev.genericWrite_keeps
    | with_reducible apply Dev.clearBeside_keeps
    | with_reducible apply Dev.Keeps.ite
    | with_reducible apply Dev.Keeps.ite_snd
    | with_reducible apply Dev.Keeps.foldl
    | simp only [Dev.Keeps.keep]
    | (intro _; intros; try dsimp only)
    | dsimp only
    | (split; all_goals try dsimp only)

theorem Dev.programSealed_keeps {e₀ d : Dev} (h : Dev.Keeps e₀ d) : Dev.Keeps e₀ (Dev.programSealed d) := by
  unfold Dev.programSealed
  try dsimp only
  repeat' first
    | with_reducible assumption
    | with_reducible apply Dev.refuseFuse_keeps
    | with_reducible apply Dev.setReg_keeps
    | with_reducible apply Dev.Keeps.ite
    | with_reducible apply Dev.Keeps.ite_snd
    | with_reducible apply Dev.Keeps.foldl
    | simp only [Dev.Keeps.keep]
    | with_reducible refine Dev.Keeps.withSdp ?_ (Dev.Keeps.sec ‹_›)
    | (intro _; intros; try dsimp only)
    | dsimp only
    | (split; all_goals try dsimp only)

theorem Dev.addLife_keeps {e₀ d : Dev} (h : Dev.Keeps e₀ d) (t : Nat) : Dev.Keeps e₀ (Dev.addLife d t) := by
  unfold Dev.addLife
  try dsimp only
  repeat' first
    | with_reducible assumption
    | with_reducible apply Dev.Keeps.ite
    | with_reducible apply Dev.Keeps.ite_snd
    | with_reducible apply Dev.Keeps.foldl
    | simp only [Dev.Keeps.keep]
    | (intro _; intros; try dsimp only)
    | dsimp only
    | (split; all_goals try dsimp only)

theorem Dev.thermalTrip_keeps {e₀ d : Dev} (h : Dev.Keeps e₀ d) : Dev.Keeps e₀ (Dev.thermalTrip d) := by
  unfold Dev.thermalTrip
  try dsimp only
  repeat' first
    | with_reducible assumption
    | with_reducible apply Dev.raise_keeps
    | with_reducible apply Dev.count_keeps
    | with_reducible apply Dev.sdpEvent_keeps
    | with_reducible apply Dev.Keeps.ite
    | with_reducible apply Dev.Keeps.ite_snd
    | with_reducible apply Dev.Keeps.foldl
    | simp only [Dev.Keeps.keep]
    | (intro _; intros; try dsimp only)
    | dsimp only
    | (split; all_goals try dsimp only)

theorem Dev.sample_keeps {e₀ d : Dev} (h : Dev.Keeps e₀ d) (die : List Nat) (hbm : List Nat) : Dev.Keeps e₀ (Dev.sample d die hbm).1 := by
  unfold Dev.sample
  try dsimp only
  repeat' first
    | with_reducible assumption
    | with_reducible apply Dev.setRegs_keeps
    | with_reducible apply Dev.addLife_keeps
    | with_reducible apply Dev.thermalAlert_keeps
    | with_reducible apply Dev.thermalTrip_keeps
    | with_reducible apply Dev.Keeps.ite
    | with_reducible apply Dev.Keeps.ite_snd
    | with_reducible apply Dev.Keeps.foldl
    | simp only [Dev.Keeps.keep]
    | (intro _; intros; try dsimp only)
    | dsimp only
    | (split; all_goals try dsimp only)

theorem Dev.programKeyHash_keeps {e₀ d : Dev} (h : Dev.Keeps e₀ d) : Dev.Keeps e₀ (Dev.programKeyHash d) := by
  unfold Dev.programKeyHash
  try dsimp only
  repeat' first
    | with_reducible assumption
    | with_reducible apply Dev.refuseFuse_keeps
    | with_reducible apply Dev.setReg_keeps
    | with_reducible apply Dev.Keeps.ite
    | with_reducible apply Dev.Keeps.ite_snd
    | with_reducible apply Dev.Keeps.foldl
    | simp only [Dev.Keeps.keep]
    | with_reducible refine Dev.Keeps.withSdp ?_ (Dev.Keeps.sec ‹_›)
    | (intro _; intros; try dsimp only)
    | dsimp only
    | (split; all_goals try dsimp only)

theorem Dev.writeFuseProg_keeps {e₀ d : Dev} (h : Dev.Keeps e₀ d) (path : Nat) (v : Nat) : Dev.Keeps e₀ (Dev.writeFuseProg d path v) := by
  unfold Dev.writeFuseProg
  try dsimp only
  repeat' first
    | with_reducible assumption
    | with_reducible apply Dev.audit_keeps
    | with_reducible apply Dev.fuseArm_keeps
    | with_reducible apply Dev.programSealed_keeps
    | with_reducible apply Dev.programKeyHash_keeps
    | with_reducible apply Dev.fuseOther_keeps
    | with_reducible apply Dev.Keeps.ite
    | with_reducible apply Dev.Keeps.ite_snd
    | with_reducible apply Dev.Keeps.foldl
    | simp only [Dev.Keeps.keep]
    | (intro _; intros; try dsimp only)
    | dsimp only
    | (split; all_goals try dsimp only)

end Sys2Proof.Machine
end

