-- ==== Sys2Proof/Laws/KeepsPorters.lean ====
section
/-! SUPPORT. Porters. -/

set_option linter.unusedTactic false
set_option linter.unreachableTactic false
set_option linter.unusedVariables false
set_option linter.unusedSimpArgs false

namespace Sys2Proof.Machine

theorem Dev.stagingLost_keeps {e₀ d : Dev} (hk : Dev.Keeps e₀ d) (b : Nat) :
    Dev.Keeps e₀ (Dev.stagingLost d b) := by
  unfold Dev.stagingLost
  try dsimp only
  repeat' first
    | with_reducible assumption
    | with_reducible apply Dev.depEvent_keeps
    | with_reducible apply Dev.raise_keeps
    | with_reducible apply Dev.Keeps.ite
    | with_reducible apply Dev.Keeps.ite_snd
    | with_reducible apply Dev.Keeps.foldl
    | simp only [Dev.Keeps.keep]
    | (intro _; intros; try dsimp only)
    | dsimp only
    | (split; all_goals try dsimp only)

theorem Dev.stagingReads_keeps {e₀ d : Dev} (hk : Dev.Keeps e₀ d) (a n : Nat) (bad : List Nat) :
    Dev.Keeps e₀ (Dev.stagingReads d a n bad) := by
  unfold Dev.stagingReads
  try dsimp only
  repeat' first
    | with_reducible assumption
    | with_reducible apply Dev.count_keeps
    | with_reducible apply Dev.depLog_keeps
    | with_reducible apply Dev.stagingLost_keeps
    | with_reducible apply Dev.Keeps.ite
    | with_reducible apply Dev.Keeps.ite_snd
    | with_reducible apply Dev.Keeps.foldl
    | simp only [Dev.Keeps.keep]
    | (intro _; intros; try dsimp only)
    | dsimp only
    | (split; all_goals try dsimp only)

theorem Dev.stagingWrite_keeps {e₀ d : Dev} (hk : Dev.Keeps e₀ d) (a : Nat) (bs : List Byte) (bad : List Nat) :
    Dev.Keeps e₀ (Dev.stagingWrite d a bs bad) := by
  unfold Dev.stagingWrite
  try dsimp only
  repeat' first
    | with_reducible assumption
    | with_reducible apply Dev.stagingReads_keeps
    | with_reducible apply Dev.Keeps.ite
    | with_reducible apply Dev.Keeps.ite_snd
    | with_reducible apply Dev.Keeps.foldl
    | simp only [Dev.Keeps.keep]
    | (intro _; intros; try dsimp only)
    | dsimp only
    | (split; all_goals try dsimp only)

theorem Dev.memStore_keeps {e₀ d : Dev} (hk : Dev.Keeps e₀ d) (a : Nat) (bs : List Byte) (bad : List Nat) :
    Dev.Keeps e₀ (Dev.memStore d a bs bad) := by
  unfold Dev.memStore
  try dsimp only
  repeat' first
    | with_reducible assumption
    | with_reducible apply Dev.ownChecks_keeps
    | with_reducible apply Dev.memWrite_keeps
    | with_reducible apply Dev.logAll_keeps
    | with_reducible apply Dev.Keeps.ite
    | with_reducible apply Dev.Keeps.ite_snd
    | with_reducible apply Dev.Keeps.foldl
    | simp only [Dev.Keeps.keep]
    | (intro _; intros; try dsimp only)
    | dsimp only
    | (split; all_goals try dsimp only)

theorem Dev.storeWrite_keeps {e₀ d : Dev} (hk : Dev.Keeps e₀ d) (r : StrokeRun) (x y : Nat) (bs : List Byte) (bad : List Nat) :
    Dev.Keeps e₀ (Dev.storeWrite d r x y bs bad) := by
  unfold Dev.storeWrite
  try dsimp only
  repeat' first
    | with_reducible assumption
    | with_reducible apply Dev.stagingWrite_keeps
    | with_reducible apply Dev.memStore_keeps
    | with_reducible apply Dev.Keeps.ite
    | with_reducible apply Dev.Keeps.ite_snd
    | with_reducible apply Dev.Keeps.foldl
    | simp only [Dev.Keeps.keep]
    | (intro _; intros; try dsimp only)
    | dsimp only
    | (split; all_goals try dsimp only)

theorem Dev.writeParcel_keeps {e₀ d : Dev} (hk : Dev.Keeps e₀ d) (r : StrokeRun) (q : Parcel) (px : List (List Byte)) (bad : List Nat) :
    Dev.Keeps e₀ (Dev.writeParcel d r q px bad) := by
  unfold Dev.writeParcel
  try dsimp only
  repeat' first
    | with_reducible assumption
    | with_reducible apply Dev.storeWrite_keeps
    | with_reducible apply Dev.Keeps.ite
    | with_reducible apply Dev.Keeps.ite_snd
    | with_reducible apply Dev.Keeps.foldl
    | simp only [Dev.Keeps.keep]
    | (intro _; intros; try dsimp only)
    | dsimp only
    | (split; all_goals try dsimp only)

theorem Dev.setStrokes_keeps {e₀ d : Dev} (h : Dev.Keeps e₀ d) (rs : List StrokeRun) : Dev.Keeps e₀ (Dev.setStrokes d rs) := by
  unfold Dev.setStrokes
  try dsimp only
  repeat' first
    | with_reducible assumption
    | with_reducible apply Dev.Keeps.ite
    | with_reducible apply Dev.Keeps.ite_snd
    | with_reducible apply Dev.Keeps.foldl
    | simp only [Dev.Keeps.keep]
    | (intro _; intros; try dsimp only)
    | dsimp only
    | (split; all_goals try dsimp only)

theorem Dev.mapRuns_keeps {e₀ d : Dev} (h : Dev.Keeps e₀ d) (p : StrokeRun → Bool) (f : StrokeRun → StrokeRun) : Dev.Keeps e₀ (Dev.mapRuns d p f) := by
  unfold Dev.mapRuns
  try dsimp only
  repeat' first
    | with_reducible assumption
    | with_reducible apply Dev.setStrokes_keeps
    | with_reducible apply Dev.Keeps.ite
    | with_reducible apply Dev.Keeps.ite_snd
    | with_reducible apply Dev.Keeps.foldl
    | simp only [Dev.Keeps.keep]
    | (intro _; intros; try dsimp only)
    | dsimp only
    | (split; all_goals try dsimp only)

theorem Dev.mapParcel_keeps {e₀ d : Dev} (h : Dev.Keeps e₀ d) (stroke : Nat) (region : Nat) (number : Nat) (f : Parcel → Parcel) : Dev.Keeps e₀ (Dev.mapParcel d stroke region number f) := by
  unfold Dev.mapParcel
  try dsimp only
  repeat' first
    | with_reducible assumption
    | with_reducible apply Dev.mapRuns_keeps
    | with_reducible apply Dev.Keeps.ite
    | with_reducible apply Dev.Keeps.ite_snd
    | with_reducible apply Dev.Keeps.foldl
    | simp only [Dev.Keeps.keep]
    | (intro _; intros; try dsimp only)
    | dsimp only
    | (split; all_goals try dsimp only)

theorem Dev.mapJob_keeps {e₀ d : Dev} (h : Dev.Keeps e₀ d) (p : Job → Bool) (f : Job → Option Job) : Dev.Keeps e₀ (Dev.mapJob d p f) := by
  unfold Dev.mapJob
  try dsimp only
  repeat' first
    | with_reducible assumption
    | with_reducible apply Dev.Keeps.ite
    | with_reducible apply Dev.Keeps.ite_snd
    | with_reducible apply Dev.Keeps.foldl
    | simp only [Dev.Keeps.keep]
    | (intro _; intros; try dsimp only)
    | dsimp only
    | (split; all_goals try dsimp only)

theorem Dev.placeJobs_keeps {e₀ d : Dev} (h : Dev.Keeps e₀ d) : Dev.Keeps e₀ (Dev.placeJobs d) := by
  unfold Dev.placeJobs
  try dsimp only
  repeat' first
    | with_reducible assumption
    | with_reducible apply Dev.mapJob_keeps
    | with_reducible apply Dev.Keeps.ite
    | with_reducible apply Dev.Keeps.ite_snd
    | with_reducible apply Dev.Keeps.foldl
    | simp only [Dev.Keeps.keep]
    | (intro _; intros; try dsimp only)
    | dsimp only
    | (split; all_goals try dsimp only)

theorem Dev.addJob_keeps {e₀ d : Dev} (hk : Dev.Keeps e₀ d) (kind : JobKind) (stroke region number : Nat) (unit_ : Nat := 0) (block : Option (Bool × Nat) := none) :
    Dev.Keeps e₀ (Dev.addJob d kind stroke region number unit_ block) := by
  unfold Dev.addJob
  try dsimp only
  repeat' first
    | with_reducible assumption
    | with_reducible apply Dev.placeJobs_keeps
    | with_reducible apply Dev.Keeps.ite
    | with_reducible apply Dev.Keeps.ite_snd
    | with_reducible apply Dev.Keeps.foldl
    | simp only [Dev.Keeps.keep]
    | (intro _; intros; try dsimp only)
    | dsimp only
    | (split; all_goals try dsimp only)

theorem Dev.replaceParcel_keeps {e₀ d : Dev} (hk : Dev.Keeps e₀ d) (r : StrokeRun) (q : Parcel) (px : List (List Byte)) (pcv : Nat) (bad : List Nat) (ok : Bool) (unit_ : Nat) :
    Dev.Keeps e₀ (Dev.replaceParcel d r q px pcv bad ok unit_) := by
  unfold Dev.replaceParcel
  try dsimp only
  repeat' first
    | with_reducible assumption
    | with_reducible apply Dev.writeParcel_keeps
    | with_reducible apply Dev.reservedWake_keeps
    | with_reducible apply Dev.mapParcel_keeps
    | with_reducible apply Dev.count_keeps
    | with_reducible apply Dev.addJob_keeps
    | with_reducible apply Dev.countBy_keeps
    | with_reducible apply Dev.depEvent_keeps
    | with_reducible apply Dev.raise_keeps
    | with_reducible apply Dev.Keeps.ite
    | with_reducible apply Dev.Keeps.ite_snd
    | with_reducible apply Dev.Keeps.foldl
    | simp only [Dev.Keeps.keep]
    | (intro _; intros; try dsimp only)
    | dsimp only
    | (split; all_goals try dsimp only)

theorem Dev.logParcel_keeps {e₀ d : Dev} (h : Dev.Keeps e₀ d) (kind : Nat) (outcome : Nat) (unit_ : Nat) (stroke : Nat) (region : Nat) (number : Nat) (addr : Nat) (escaped : Bool) : Dev.Keeps e₀ (Dev.logParcel d kind outcome unit_ stroke region number addr escaped) := by
  unfold Dev.logParcel
  try dsimp only
  repeat' first
    | with_reducible assumption
    | with_reducible apply Dev.depLog_keeps
    | with_reducible apply Dev.Keeps.ite
    | with_reducible apply Dev.Keeps.ite_snd
    | with_reducible apply Dev.Keeps.foldl
    | simp only [Dev.Keeps.keep]
    | (intro _; intros; try dsimp only)
    | dsimp only
    | (split; all_goals try dsimp only)

theorem Dev.comparisonOver_keeps {e₀ d : Dev} (h : Dev.Keeps e₀ d) (u : Nat) : Dev.Keeps e₀ (Dev.comparisonOver d u) := by
  unfold Dev.comparisonOver
  try dsimp only
  repeat' first
    | with_reducible assumption
    | with_reducible apply Dev.mapRuns_keeps
    | with_reducible apply Dev.Keeps.ite
    | with_reducible apply Dev.Keeps.ite_snd
    | with_reducible apply Dev.Keeps.foldl
    | simp only [Dev.Keeps.keep]
    | (intro _; intros; try dsimp only)
    | dsimp only
    | (split; all_goals try dsimp only)

theorem Dev.comparisonCheck_keeps {e₀ d : Dev} (h : Dev.Keeps e₀ d) : Dev.Keeps e₀ (Dev.comparisonCheck d) := by
  unfold Dev.comparisonCheck
  try dsimp only
  repeat' first
    | with_reducible assumption
    | with_reducible apply Dev.comparisonOver_keeps
    | with_reducible apply Dev.Keeps.ite
    | with_reducible apply Dev.Keeps.ite_snd
    | with_reducible apply Dev.Keeps.foldl
    | simp only [Dev.Keeps.keep]
    | (intro _; intros; try dsimp only)
    | dsimp only
    | (split; all_goals try dsimp only)

theorem Dev.twnCompare_keeps {e₀ d : Dev} (h : Dev.Keeps e₀ d) (stroke : Nat) (region : Nat) (number : Nat) : Dev.Keeps e₀ (Dev.twnCompare d stroke region number) := by
  unfold Dev.twnCompare
  try dsimp only
  repeat' first
    | with_reducible assumption
    | with_reducible apply Dev.comparisonCheck_keeps
    | with_reducible apply Dev.count_keeps
    | with_reducible apply Dev.mapParcel_keeps
    | with_reducible apply Dev.addJob_keeps
    | with_reducible apply Dev.Keeps.ite
    | with_reducible apply Dev.Keeps.ite_snd
    | with_reducible apply Dev.Keeps.foldl
    | simp only [Dev.Keeps.keep]
    | (intro _; intros; try dsimp only)
    | dsimp only
    | (split; all_goals try dsimp only)

theorem Dev.sealedNews_keeps {e₀ d : Dev} (h : Dev.Keeps e₀ d) (stroke : Nat) (region : Nat) (number : Nat) (pcv : Nat) : Dev.Keeps e₀ (Dev.sealedNews d stroke region number pcv) := by
  unfold Dev.sealedNews
  try dsimp only
  repeat' first
    | with_reducible assumption
    | with_reducible apply Dev.reservedWake_keeps
    | with_reducible apply Dev.twnSend_keeps
    | with_reducible apply Dev.mapParcel_keeps
    | with_reducible apply Dev.twnCompare_keeps
    | with_reducible apply Dev.Keeps.ite
    | with_reducible apply Dev.Keeps.ite_snd
    | with_reducible apply Dev.Keeps.foldl
    | simp only [Dev.Keeps.keep]
    | (intro _; intros; try dsimp only)
    | dsimp only
    | (split; all_goals try dsimp only)

theorem Dev.auditAsk_keeps {e₀ d : Dev} (hk : Dev.Keeps e₀ d) (stroke region number unit_ : Nat) :
    Dev.Keeps e₀ (Dev.auditAsk d stroke region number unit_) := by
  unfold Dev.auditAsk
  try dsimp only
  repeat' first
    | with_reducible assumption
    | with_reducible apply Dev.audit_keeps
    | with_reducible apply Dev.mapParcel_keeps
    | with_reducible apply Dev.addJob_keeps
    | with_reducible apply Dev.Keeps.ite
    | with_reducible apply Dev.Keeps.ite_snd
    | with_reducible apply Dev.Keeps.foldl
    | simp only [Dev.Keeps.keep]
    | (intro _; intros; try dsimp only)
    | dsimp only
    | (split; all_goals try dsimp only)

theorem Dev.sealAgain_keeps {e₀ d : Dev} (hk : Dev.Keeps e₀ d) (r : StrokeRun) (q : Parcel) (px : List (List Byte)) (bad : List Nat) (kind : Nat) (j : Job) :
    Dev.Keeps e₀ (Dev.sealAgain d r q px bad kind j) := by
  unfold Dev.sealAgain
  try dsimp only
  repeat' first
    | with_reducible assumption
    | with_reducible apply Dev.replaceParcel_keeps
    | with_reducible apply Dev.logParcel_keeps
    | with_reducible apply Dev.sealedNews_keeps
    | with_reducible apply Dev.auditAsk_keeps
    | with_reducible apply Dev.Keeps.ite
    | with_reducible apply Dev.Keeps.ite_snd
    | with_reducible apply Dev.Keeps.foldl
    | simp only [Dev.Keeps.keep]
    | (intro _; intros; try dsimp only)
    | dsimp only
    | (split; all_goals try dsimp only)

theorem Dev.controlTidy_keeps {e₀ d : Dev} (h : Dev.Keeps e₀ d) : Dev.Keeps e₀ (Dev.controlTidy d) := by
  unfold Dev.controlTidy
  try dsimp only
  repeat' first
    | with_reducible assumption
    | with_reducible apply Dev.message_keeps
    | with_reducible apply Dev.setFld_keeps
    | with_reducible apply Dev.Keeps.ite
    | with_reducible apply Dev.Keeps.ite_snd
    | with_reducible apply Dev.Keeps.foldl
    | simp only [Dev.Keeps.keep]
    | (intro _; intros; try dsimp only)
    | dsimp only
    | (split; all_goals try dsimp only)

theorem Dev.controlWritten_keeps {e₀ d : Dev} (h : Dev.Keeps e₀ d) (words : List Nat) : Dev.Keeps e₀ (Dev.controlWritten d words) := by
  unfold Dev.controlWritten
  try dsimp only
  repeat' first
    | with_reducible assumption
    | with_reducible apply Dev.controlTidy_keeps
    | with_reducible apply Dev.Keeps.ite
    | with_reducible apply Dev.Keeps.ite_snd
    | with_reducible apply Dev.Keeps.foldl
    | simp only [Dev.Keeps.keep]
    | (intro _; intros; try dsimp only)
    | dsimp only
    | (split; all_goals try dsimp only)

theorem Dev.plainLadder_keeps {e₀ d : Dev} (h : Dev.Keeps e₀ d) (l : Ladder) (outcome : Nat) : Dev.Keeps e₀ (Dev.plainLadder d l outcome) := by
  unfold Dev.plainLadder
  try dsimp only
  repeat' first
    | with_reducible assumption
    | with_reducible apply Dev.blockDamaged_keeps
    | with_reducible apply Dev.depLog_keeps
    | with_reducible apply Dev.Keeps.ite
    | with_reducible apply Dev.Keeps.ite_snd
    | with_reducible apply Dev.Keeps.foldl
    | simp only [Dev.Keeps.keep]
    | (intro _; intros; try dsimp only)
    | dsimp only
    | (split; all_goals try dsimp only)

theorem Dev.unrecoverable_keeps {e₀ d : Dev} (h : Dev.Keeps e₀ d) (stroke : Nat) (region : Nat) (number : Nat) : Dev.Keeps e₀ (Dev.unrecoverable d stroke region number) := by
  unfold Dev.unrecoverable
  try dsimp only
  repeat' first
    | with_reducible assumption
    | with_reducible apply Dev.mapParcel_keeps
    | with_reducible apply Dev.count_keeps
    | with_reducible apply Dev.depEvent_keeps
    | with_reducible apply Dev.raise_keeps
    | with_reducible apply Dev.Keeps.ite
    | with_reducible apply Dev.Keeps.ite_snd
    | with_reducible apply Dev.Keeps.foldl
    | simp only [Dev.Keeps.keep]
    | (intro _; intros; try dsimp only)
    | dsimp only
    | (split; all_goals try dsimp only)

theorem Dev.advanceDone_keeps {e₀ d : Dev} (h : Dev.Keeps e₀ d) : Dev.Keeps e₀ (Dev.advanceDone d) := by
  unfold Dev.advanceDone
  try dsimp only
  repeat' first
    | with_reducible assumption
    | with_reducible apply Dev.raise_keeps
    | with_reducible apply Dev.Keeps.ite
    | with_reducible apply Dev.Keeps.ite_snd
    | with_reducible apply Dev.Keeps.foldl
    | simp only [Dev.Keeps.keep]
    | (intro _; intros; try dsimp only)
    | dsimp only
    | (split; all_goals try dsimp only)

theorem Dev.logLadder_keeps {e₀ d : Dev} (hk : Dev.Keeps e₀ d) (l : Ladder) (outcome : Nat) :
    Dev.Keeps e₀ (Dev.logLadder d l outcome) := by
  unfold Dev.logLadder
  try dsimp only
  repeat' first
    | with_reducible assumption
    | with_reducible apply Dev.depLog_keeps
    | with_reducible apply Dev.logParcel_keeps
    | with_reducible apply Dev.Keeps.ite
    | with_reducible apply Dev.Keeps.ite_snd
    | with_reducible apply Dev.Keeps.foldl
    | simp only [Dev.Keeps.keep]
    | (intro _; intros; try dsimp only)
    | dsimp only
    | (split; all_goals try dsimp only)

theorem Dev.readerResumes_keeps {e₀ d : Dev} (hk : Dev.Keeps e₀ d) (l : Ladder) :
    Dev.Keeps e₀ (Dev.readerResumes d l) := by
  unfold Dev.readerResumes
  try dsimp only
  repeat' first
    | with_reducible assumption
    | with_reducible apply Dev.mapJob_keeps
    | with_reducible apply Dev.mapParcel_keeps
    | with_reducible apply Dev.Keeps.ite
    | with_reducible apply Dev.Keeps.ite_snd
    | with_reducible apply Dev.Keeps.foldl
    | simp only [Dev.Keeps.keep]
    | (intro _; intros; try dsimp only)
    | dsimp only
    | (split; all_goals try dsimp only)

theorem Dev.orphanLadders_keeps {e₀ d : Dev} (hk : Dev.Keeps e₀ d) (p : Ladder → Bool) :
    Dev.Keeps e₀ (Dev.orphanLadders d p) := by
  unfold Dev.orphanLadders
  try dsimp only
  repeat' first
    | with_reducible assumption
    | with_reducible apply Dev.Keeps.ite
    | with_reducible apply Dev.Keeps.ite_snd
    | with_reducible apply Dev.Keeps.foldl
    | simp only [Dev.Keeps.keep]
    | (intro _; intros; try dsimp only)
    | dsimp only
    | (split; all_goals try dsimp only)

theorem Dev.jobDamaged_keeps {e₀ d : Dev} (hk : Dev.Keeps e₀ d) (j : Job) :
    Dev.Keeps e₀ (Dev.jobDamaged d j) := by
  unfold Dev.jobDamaged
  try dsimp only
  repeat' first
    | with_reducible assumption
    | with_reducible apply Dev.stagingLost_keeps
    | with_reducible apply Dev.blockDamaged_keeps
    | with_reducible apply Dev.Keeps.ite
    | with_reducible apply Dev.Keeps.ite_snd
    | with_reducible apply Dev.Keeps.foldl
    | simp only [Dev.Keeps.keep]
    | (intro _; intros; try dsimp only)
    | dsimp only
    | (split; all_goals try dsimp only)

theorem Dev.jobLost_keeps {e₀ d : Dev} (hk : Dev.Keeps e₀ d) (j : Job) :
    Dev.Keeps e₀ (Dev.jobLost d j) := by
  unfold Dev.jobLost
  try dsimp only
  repeat' first
    | with_reducible assumption
    | with_reducible apply Dev.jobDamaged_keeps
    | with_reducible apply Dev.logParcel_keeps
    | with_reducible apply Dev.Keeps.ite
    | with_reducible apply Dev.Keeps.ite_snd
    | with_reducible apply Dev.Keeps.foldl
    | simp only [Dev.Keeps.keep]
    | (intro _; intros; try dsimp only)
    | dsimp only
    | (split; all_goals try dsimp only)

theorem Dev.loseJobs_keeps {e₀ d : Dev} (hk : Dev.Keeps e₀ d) (p : Job → Bool) :
    Dev.Keeps e₀ (Dev.loseJobs d p) := by
  unfold Dev.loseJobs
  try dsimp only
  repeat' first
    | with_reducible assumption
    | with_reducible apply Dev.jobLost_keeps
    | with_reducible apply Dev.placeJobs_keeps
    | with_reducible apply Dev.Keeps.ite
    | with_reducible apply Dev.Keeps.ite_snd
    | with_reducible apply Dev.Keeps.foldl
    | simp only [Dev.Keeps.keep]
    | (intro _; intros; try dsimp only)
    | dsimp only
    | (split; all_goals try dsimp only)

theorem Dev.ladderDamaged_keeps {e₀ d : Dev} (hk : Dev.Keeps e₀ d) (l : Ladder) :
    Dev.Keeps e₀ (Dev.ladderDamaged d l) := by
  unfold Dev.ladderDamaged
  try dsimp only
  repeat' first
    | with_reducible assumption
    | with_reducible apply Dev.stagingLost_keeps
    | with_reducible apply Dev.blockDamaged_keeps
    | with_reducible apply Dev.Keeps.ite
    | with_reducible apply Dev.Keeps.ite_snd
    | with_reducible apply Dev.Keeps.foldl
    | simp only [Dev.Keeps.keep]
    | (intro _; intros; try dsimp only)
    | dsimp only
    | (split; all_goals try dsimp only)

theorem Dev.ladderFailed_keeps {e₀ d : Dev} (h : Dev.Keeps e₀ d) (l : Ladder) : Dev.Keeps e₀ (Dev.ladderFailed d l) := by
  unfold Dev.ladderFailed
  try dsimp only
  repeat' first
    | with_reducible assumption
    | with_reducible apply Dev.plainLadder_keeps
    | with_reducible apply Dev.ladderDamaged_keeps
    | with_reducible apply Dev.logLadder_keeps
    | with_reducible apply Dev.blockDamaged_keeps
    | with_reducible apply Dev.mapParcel_keeps
    | with_reducible apply Dev.readerResumes_keeps
    | with_reducible apply Dev.addJob_keeps
    | with_reducible apply Dev.count_keeps
    | with_reducible apply Dev.unrecoverable_keeps
    | with_reducible apply Dev.orphanLadders_keeps
    | with_reducible apply Dev.loseJobs_keeps
    | with_reducible apply Dev.advanceDone_keeps
    | with_reducible apply Dev.Keeps.ite
    | with_reducible apply Dev.Keeps.ite_snd
    | with_reducible apply Dev.Keeps.foldl
    | simp only [Dev.Keeps.keep]
    | (intro _; intros; try dsimp only)
    | dsimp only
    | (split; all_goals try dsimp only)

theorem Dev.repairFailed_keeps {e₀ d : Dev} (h : Dev.Keeps e₀ d) (block : Nat) : Dev.Keeps e₀ (Dev.repairFailed d block) := by
  unfold Dev.repairFailed
  try dsimp only
  repeat' first
    | with_reducible assumption
    | with_reducible apply Dev.ladderFailed_keeps
    | with_reducible apply Dev.count_keeps
    | with_reducible apply Dev.Keeps.ite
    | with_reducible apply Dev.Keeps.ite_snd
    | with_reducible apply Dev.Keeps.foldl
    | simp only [Dev.Keeps.keep]
    | (intro _; intros; try dsimp only)
    | dsimp only
    | (split; all_goals try dsimp only)

theorem Dev.inputLadders_keeps {e₀ d : Dev} (h : Dev.Keeps e₀ d) (porter : Nat) (stroke : Nat) (region : Nat) (number : Nat) (job : Bool) (blocks : List Nat) : Dev.Keeps e₀ (Dev.inputLadders d porter stroke region number job blocks) := by
  unfold Dev.inputLadders
  try dsimp only
  repeat' first
    | with_reducible assumption
    | with_reducible apply Dev.blockFailed_keeps
    | with_reducible apply Dev.Keeps.ite
    | with_reducible apply Dev.Keeps.ite_snd
    | with_reducible apply Dev.Keeps.foldl
    | simp only [Dev.Keeps.keep]
    | (intro _; intros; try dsimp only)
    | dsimp only
    | (split; all_goals try dsimp only)

theorem Dev.busyBy_keeps {e₀ d : Dev} (h : Dev.Keeps e₀ d) (p : Nat) (n : Nat) : Dev.Keeps e₀ (Dev.busyBy d p n) := by
  unfold Dev.busyBy
  try dsimp only
  repeat' first
    | with_reducible assumption
    | with_reducible apply Dev.setReg_keeps
    | with_reducible apply Dev.Keeps.ite
    | with_reducible apply Dev.Keeps.ite_snd
    | with_reducible apply Dev.Keeps.foldl
    | simp only [Dev.Keeps.keep]
    | (intro _; intros; try dsimp only)
    | dsimp only
    | (split; all_goals try dsimp only)

theorem Dev.dropJob_keeps {e₀ d : Dev} (h : Dev.Keeps e₀ d) (j : Job) : Dev.Keeps e₀ (Dev.dropJob d j) := by
  unfold Dev.dropJob
  try dsimp only
  repeat' first
    | with_reducible assumption
    | with_reducible apply Dev.placeJobs_keeps
    | with_reducible apply Dev.mapJob_keeps
    | with_reducible apply Dev.Keeps.ite
    | with_reducible apply Dev.Keeps.ite_snd
    | with_reducible apply Dev.Keeps.foldl
    | simp only [Dev.Keeps.keep]
    | (intro _; intros; try dsimp only)
    | dsimp only
    | (split; all_goals try dsimp only)

theorem Dev.recompFailed_keeps {e₀ d : Dev} (h : Dev.Keeps e₀ d) (r : StrokeRun) (q : Parcel) (kind : Nat) (j : Job) : Dev.Keeps e₀ (Dev.recompFailed d r q kind j) := by
  unfold Dev.recompFailed
  try dsimp only
  repeat' first
    | with_reducible assumption
    | with_reducible apply Dev.unrecoverable_keeps
    | with_reducible apply Dev.logParcel_keeps
    | with_reducible apply Dev.Keeps.ite
    | with_reducible apply Dev.Keeps.ite_snd
    | with_reducible apply Dev.Keeps.foldl
    | simp only [Dev.Keeps.keep]
    | (intro _; intros; try dsimp only)
    | dsimp only
    | (split; all_goals try dsimp only)

theorem Dev.auditResult_keeps {e₀ d : Dev} (h : Dev.Keeps e₀ d) (r : StrokeRun) (q : Parcel) (j : Job) (v : Nat) : Dev.Keeps e₀ (Dev.auditResult d r q j v) := by
  unfold Dev.auditResult
  try dsimp only
  repeat' first
    | with_reducible assumption
    | with_reducible apply Dev.count_keeps
    | with_reducible apply Dev.addJob_keeps
    | with_reducible apply Dev.raise_keeps
    | with_reducible apply Dev.depEvent_keeps
    | with_reducible apply Dev.Keeps.ite
    | with_reducible apply Dev.Keeps.ite_snd
    | with_reducible apply Dev.Keeps.foldl
    | simp only [Dev.Keeps.keep]
    | (intro _; intros; try dsimp only)
    | dsimp only
    | (split; all_goals try dsimp only)

theorem Dev.tieResult_keeps {e₀ d : Dev} (hk : Dev.Keeps e₀ d) (r : StrokeRun) (q : Parcel) (j : Job) (audit v : Nat) (px : List (List Byte)) (sealOk : Bool) (bad : List Nat) :
    Dev.Keeps e₀ (Dev.tieResult d r q j audit v px sealOk bad) := by
  unfold Dev.tieResult
  try dsimp only
  repeat' first
    | with_reducible assumption
    | with_reducible apply Dev.logParcel_keeps
    | with_reducible apply Dev.replaceParcel_keeps
    | with_reducible apply Dev.sealedNews_keeps
    | with_reducible apply Dev.recompFailed_keeps
    | with_reducible apply Dev.Keeps.ite
    | with_reducible apply Dev.Keeps.ite_snd
    | with_reducible apply Dev.Keeps.foldl
    | simp only [Dev.Keeps.keep]
    | (intro _; intros; try dsimp only)
    | dsimp only
    | (split; all_goals try dsimp only)

theorem Dev.twnResolve_keeps {e₀ d : Dev} (hk : Dev.Keeps e₀ d) (stroke region number : Nat) (sealOk : Bool) :
    Dev.Keeps e₀ (Dev.twnResolve d stroke region number sealOk) := by
  unfold Dev.twnResolve
  try dsimp only
  repeat' first
    | with_reducible assumption
    | with_reducible apply Dev.mapParcel_keeps
    | with_reducible apply Dev.replaceParcel_keeps
    | with_reducible apply Dev.count_keeps
    | with_reducible apply Dev.logParcel_keeps
    | with_reducible apply Dev.comparisonCheck_keeps
    | with_reducible apply Dev.addJob_keeps
    | with_reducible apply Dev.twnEvent_keeps
    | with_reducible apply Dev.raise_keeps
    | with_reducible apply Dev.Keeps.ite
    | with_reducible apply Dev.Keeps.ite_snd
    | with_reducible apply Dev.Keeps.foldl
    | simp only [Dev.Keeps.keep]
    | (intro _; intros; try dsimp only)
    | dsimp only
    | (split; all_goals try dsimp only)

theorem Dev.writersDone_keeps {e₀ d : Dev} (h : Dev.Keeps e₀ d) (stroke : Nat) : Dev.Keeps e₀ (Dev.writersDone d stroke) := by
  unfold Dev.writersDone
  try dsimp only
  repeat' first
    | with_reducible assumption
    | with_reducible apply Dev.mapRuns_keeps
    | with_reducible apply Dev.setFlag_keeps
    | with_reducible apply Dev.raise_keeps
    | with_reducible apply Dev.Keeps.ite
    | with_reducible apply Dev.Keeps.ite_snd
    | with_reducible apply Dev.Keeps.foldl
    | simp only [Dev.Keeps.keep]
    | (intro _; intros; try dsimp only)
    | dsimp only
    | (split; all_goals try dsimp only)

theorem Dev.parcelOver_keeps {e₀ d : Dev} (h : Dev.Keeps e₀ d) (stroke : Nat) : Dev.Keeps e₀ (Dev.parcelOver d stroke) := by
  unfold Dev.parcelOver
  try dsimp only
  repeat' first
    | with_reducible assumption
    | with_reducible apply Dev.advanceDone_keeps
    | with_reducible apply Dev.writersDone_keeps
    | with_reducible apply Dev.Keeps.ite
    | with_reducible apply Dev.Keeps.ite_snd
    | with_reducible apply Dev.Keeps.foldl
    | simp only [Dev.Keeps.keep]
    | (intro _; intros; try dsimp only)
    | dsimp only
    | (split; all_goals try dsimp only)

theorem Dev.sealAgainFailed_keeps {e₀ d : Dev} (hk : Dev.Keeps e₀ d) (r : StrokeRun) (q : Parcel) (px : List (List Byte)) (bad : List Nat) (j : Job) (next : JobKind) :
    Dev.Keeps e₀ (Dev.sealAgainFailed d r q px bad j next) := by
  unfold Dev.sealAgainFailed
  try dsimp only
  repeat' first
    | with_reducible assumption
    | with_reducible apply Dev.writeParcel_keeps
    | with_reducible apply Dev.mapParcel_keeps
    | with_reducible apply Dev.record_keeps
    | with_reducible apply Dev.jobLost_keeps
    | with_reducible apply Dev.count_keeps
    | with_reducible apply Dev.addJob_keeps
    | with_reducible apply Dev.Keeps.ite
    | with_reducible apply Dev.Keeps.ite_snd
    | with_reducible apply Dev.Keeps.foldl
    | simp only [Dev.Keeps.keep]
    | (intro _; intros; try dsimp only)
    | dsimp only
    | (split; all_goals try dsimp only)

theorem Dev.finishJob_keeps {e₀ d : Dev} (h : Dev.Keeps e₀ d) (p : Nat) (j : Job) (r : StrokeRun) (q : Parcel) (sealOk : Bool) (bad : List Nat) (err : Option (List Byte)) : Dev.Keeps e₀ (Dev.finishJob d p j r q sealOk bad err) := by
  unfold Dev.finishJob
  try dsimp only
  repeat' first
    | with_reducible assumption
    | with_reducible apply Dev.jobLost_keeps
    | with_reducible apply Dev.dropJob_keeps
    | with_reducible apply Dev.unrecoverable_keeps
    | with_reducible apply Dev.orphanLadders_keeps
    | with_reducible apply Dev.logParcel_keeps
    | with_reducible apply Dev.parcelOver_keeps
    | with_reducible apply Dev.memWake_keeps
    | with_reducible apply Dev.mapJob_keeps
    | with_reducible apply Dev.inputLadders_keeps
    | with_reducible apply Dev.busyBy_keeps
    | with_reducible apply Dev.count_keeps
    | with_reducible apply Dev.sealAgain_keeps
    | with_reducible apply Dev.sealAgainFailed_keeps
    | with_reducible apply Dev.writeParcel_keeps
    | with_reducible apply Dev.recompFailed_keeps
    | with_reducible apply Dev.record_keeps
    | with_reducible apply Dev.audit_keeps
    | with_reducible apply Dev.auditResult_keeps
    | with_reducible apply Dev.tieResult_keeps
    | with_reducible apply Dev.mapParcel_keeps
    | with_reducible apply Dev.twnSend_keeps
    | with_reducible apply Dev.twnResolve_keeps
    | with_reducible apply Dev.Keeps.ite
    | with_reducible apply Dev.Keeps.ite_snd
    | with_reducible apply Dev.Keeps.foldl
    | simp only [Dev.Keeps.keep]
    | (intro _; intros; try dsimp only)
    | dsimp only
    | (split; all_goals try dsimp only)

theorem Dev.parityErrors_keeps {e₀ d : Dev} (hk : Dev.Keeps e₀ d) (porter stroke region number n : Nat) :
    Dev.Keeps e₀ (Dev.parityErrors d porter stroke region number n) := by
  unfold Dev.parityErrors
  try dsimp only
  repeat' first
    | with_reducible assumption
    | with_reducible apply Dev.count_keeps
    | with_reducible apply Dev.logParcel_keeps
    | with_reducible apply Dev.Keeps.ite
    | with_reducible apply Dev.Keeps.ite_snd
    | with_reducible apply Dev.Keeps.foldl
    | simp only [Dev.Keeps.keep]
    | (intro _; intros; try dsimp only)
    | dsimp only
    | (split; all_goals try dsimp only)

theorem Dev.finishParcel_keeps {e₀ d : Dev} (h : Dev.Keeps e₀ d) (p : Nat) (r : StrokeRun) (q : Parcel) (sealOk : Bool) (bad : List Nat) (err : Option (List Byte)) : Dev.Keeps e₀ (Dev.finishParcel d p r q sealOk bad err) := by
  unfold Dev.finishParcel
  try dsimp only
  repeat' first
    | with_reducible assumption
    | with_reducible apply Dev.unrecoverable_keeps
    | with_reducible apply Dev.logParcel_keeps
    | with_reducible apply Dev.parcelOver_keeps
    | with_reducible apply Dev.memWake_keeps
    | with_reducible apply Dev.mapParcel_keeps
    | with_reducible apply Dev.inputLadders_keeps
    | with_reducible apply Dev.busyBy_keeps
    | with_reducible apply Dev.count_keeps
    | with_reducible apply Dev.writeParcel_keeps
    | with_reducible apply Dev.memStore_keeps
    | with_reducible apply Dev.sealedNews_keeps
    | with_reducible apply Dev.auditAsk_keeps
    | with_reducible apply Dev.addJob_keeps
    | with_reducible apply Dev.Keeps.ite
    | with_reducible apply Dev.Keeps.ite_snd
    | with_reducible apply Dev.Keeps.foldl
    | with_reducible apply Dev.Keeps.foldl_fst
    | simp only [Dev.Keeps.keep]
    | (intro _; intros; try dsimp only)
    | dsimp only
    | (split; all_goals try dsimp only)

theorem Dev.parcelComposed_keeps {e₀ d : Dev} (h : Dev.Keeps e₀ d) (p : Nat) (sealOk : Bool) (bad : List Nat) (parity : Nat) (err : Option (List Byte)) : Dev.Keeps e₀ (Dev.parcelComposed d p sealOk bad parity err) := by
  unfold Dev.parcelComposed
  try dsimp only
  repeat' first
    | with_reducible assumption
    | with_reducible apply Dev.jobLost_keeps
    | with_reducible apply Dev.dropJob_keeps
    | with_reducible apply Dev.parityErrors_keeps
    | with_reducible apply Dev.finishJob_keeps
    | with_reducible apply Dev.finishParcel_keeps
    | with_reducible apply Dev.Keeps.ite
    | with_reducible apply Dev.Keeps.ite_snd
    | with_reducible apply Dev.Keeps.foldl
    | simp only [Dev.Keeps.keep]
    | (intro _; intros; try dsimp only)
    | dsimp only
    | (split; all_goals try dsimp only)

theorem Dev.comparisonEnd_keeps {e₀ d : Dev} (h : Dev.Keeps e₀ d) (u : Nat) : Dev.Keeps e₀ (Dev.comparisonEnd d u) := by
  unfold Dev.comparisonEnd
  try dsimp only
  repeat' first
    | with_reducible assumption
    | with_reducible apply Dev.countBy_keeps
    | with_reducible apply Dev.comparisonOver_keeps
    | with_reducible apply Dev.Keeps.ite
    | with_reducible apply Dev.Keeps.ite_snd
    | with_reducible apply Dev.Keeps.foldl
    | simp only [Dev.Keeps.keep]
    | (intro _; intros; try dsimp only)
    | dsimp only
    | (split; all_goals try dsimp only)

theorem Dev.ladderCured_keeps {e₀ d : Dev} (h : Dev.Keeps e₀ d) (l : Ladder) (outcome : Nat) : Dev.Keeps e₀ (Dev.ladderCured d l outcome) := by
  unfold Dev.ladderCured
  try dsimp only
  repeat' first
    | with_reducible assumption
    | with_reducible apply Dev.plainLadder_keeps
    | with_reducible apply Dev.logLadder_keeps
    | with_reducible apply Dev.readerResumes_keeps
    | with_reducible apply Dev.Keeps.ite
    | with_reducible apply Dev.Keeps.ite_snd
    | with_reducible apply Dev.Keeps.foldl
    | simp only [Dev.Keeps.keep]
    | (intro _; intros; try dsimp only)
    | dsimp only
    | (split; all_goals try dsimp only)

theorem Dev.strokeLate_keeps {e₀ d : Dev} (h : Dev.Keeps e₀ d) (region : Nat) : Dev.Keeps e₀ (Dev.strokeLate d region) := by
  unfold Dev.strokeLate
  try dsimp only
  repeat' first
    | with_reducible assumption
    | with_reducible apply Dev.mapRuns_keeps
    | with_reducible apply Dev.setFlag_keeps
    | with_reducible apply Dev.count_keeps
    | with_reducible apply Dev.raise_keeps
    | with_reducible apply Dev.Keeps.ite
    | with_reducible apply Dev.Keeps.ite_snd
    | with_reducible apply Dev.Keeps.foldl
    | simp only [Dev.Keeps.keep]
    | (intro _; intros; try dsimp only)
    | dsimp only
    | (split; all_goals try dsimp only)

theorem Dev.rereadFailed_keeps {e₀ d : Dev} (h : Dev.Keeps e₀ d) (l : Ladder) : Dev.Keeps e₀ (Dev.rereadFailed d l) := by
  unfold Dev.rereadFailed
  try dsimp only
  repeat' first
    | with_reducible assumption
    | with_reducible apply Dev.ladderFailed_keeps
    | with_reducible apply Dev.failedAgain_keeps
    | with_reducible apply Dev.corrupt_keeps
    | with_reducible apply Dev.twnSend_keeps
    | with_reducible apply Dev.count_keeps
    | with_reducible apply Dev.Keeps.ite
    | with_reducible apply Dev.Keeps.ite_snd
    | with_reducible apply Dev.Keeps.foldl
    | simp only [Dev.Keeps.keep]
    | (intro _; intros; try dsimp only)
    | dsimp only
    | (split; all_goals try dsimp only)

theorem Dev.reread_keeps {e₀ d : Dev} (h : Dev.Keeps e₀ d) (block : Nat) (staging : Bool) (ok : Bool) : Dev.Keeps e₀ (Dev.reread d block staging ok) := by
  unfold Dev.reread
  try dsimp only
  repeat' first
    | with_reducible assumption
    | with_reducible apply Dev.memWake_keeps
    | with_reducible apply Dev.count_keeps
    | with_reducible apply Dev.ladderCured_keeps
    | with_reducible apply Dev.rereadFailed_keeps
    | with_reducible apply Dev.Keeps.ite
    | with_reducible apply Dev.Keeps.ite_snd
    | with_reducible apply Dev.Keeps.foldl
    | simp only [Dev.Keeps.keep]
    | (intro _; intros; try dsimp only)
    | dsimp only
    | (split; all_goals try dsimp only)

theorem Dev.controlLost_keeps {e₀ d : Dev} (h : Dev.Keeps e₀ d) (word : Nat) : Dev.Keeps e₀ (Dev.controlLost d word) := by
  unfold Dev.controlLost
  try dsimp only
  repeat' first
    | with_reducible assumption
    | with_reducible apply Dev.setFlag_keeps
    | with_reducible apply Dev.raiseIf_keeps
    | with_reducible apply Dev.Keeps.ite
    | with_reducible apply Dev.Keeps.ite_snd
    | with_reducible apply Dev.Keeps.foldl
    | simp only [Dev.Keeps.keep]
    | (intro _; intros; try dsimp only)
    | dsimp only
    | (split; all_goals try dsimp only)

theorem Dev.auditDrop_keeps {e₀ d : Dev} (h : Dev.Keeps e₀ d) (stroke : Nat) (region : Nat) (number : Nat) : Dev.Keeps e₀ (Dev.auditDrop d stroke region number) := by
  unfold Dev.auditDrop
  try dsimp only
  repeat' first
    | with_reducible assumption
    | with_reducible apply Dev.count_keeps
    | with_reducible apply Dev.dropJob_keeps
    | with_reducible apply Dev.Keeps.ite
    | with_reducible apply Dev.Keeps.ite_snd
    | with_reducible apply Dev.Keeps.foldl
    | simp only [Dev.Keeps.keep]
    | (intro _; intros; try dsimp only)
    | dsimp only
    | (split; all_goals try dsimp only)

theorem Dev.parcelAbandon_keeps {e₀ d : Dev} (h : Dev.Keeps e₀ d) (p : Nat) : Dev.Keeps e₀ (Dev.parcelAbandon d p) := by
  unfold Dev.parcelAbandon
  try dsimp only
  repeat' first
    | with_reducible assumption
    | with_reducible apply Dev.mapRuns_keeps
    | with_reducible apply Dev.mapParcel_keeps
    | with_reducible apply Dev.advanceDone_keeps
    | with_reducible apply Dev.Keeps.ite
    | with_reducible apply Dev.Keeps.ite_snd
    | with_reducible apply Dev.Keeps.foldl
    | simp only [Dev.Keeps.keep]
    | (intro _; intros; try dsimp only)
    | dsimp only
    | (split; all_goals try dsimp only)

theorem Dev.lift_keeps {e₀ d : Dev} (h : Dev.Keeps e₀ d) (p : Nat) : Dev.Keeps e₀ (Dev.lift d p) := by
  unfold Dev.lift
  try dsimp only
  repeat' first
    | with_reducible assumption
    | with_reducible apply Dev.setStrokes_keeps
    | with_reducible apply Dev.count_keeps
    | with_reducible apply Dev.countBy_keeps
    | with_reducible apply Dev.busyBy_keeps
    | with_reducible apply Dev.Keeps.ite
    | with_reducible apply Dev.Keeps.ite_snd
    | with_reducible apply Dev.Keeps.foldl
    | simp only [Dev.Keeps.keep]
    | (intro _; intros; try dsimp only)
    | dsimp only
    | (split; all_goals try dsimp only)

theorem Dev.repairDone_keeps {e₀ d : Dev} (h : Dev.Keeps e₀ d) (block : Nat) (bs : List Byte) : Dev.Keeps e₀ (Dev.repairDone d block bs) := by
  unfold Dev.repairDone
  try dsimp only
  repeat' first
    | with_reducible assumption
    | with_reducible apply Dev.memStore_keeps
    | with_reducible apply Dev.ladderCured_keeps
    | with_reducible apply Dev.count_keeps
    | with_reducible apply Dev.Keeps.ite
    | with_reducible apply Dev.Keeps.ite_snd
    | with_reducible apply Dev.Keeps.foldl
    | simp only [Dev.Keeps.keep]
    | (intro _; intros; try dsimp only)
    | dsimp only
    | (split; all_goals try dsimp only)

theorem Dev.secded_keeps {e₀ d : Dev} (hk : Dev.Keeps e₀ d) (ecc : Ecc) (store outcome : Nat) (stroke region parcel : Nat := 0) :
    Dev.Keeps e₀ (Dev.secded d ecc store outcome stroke region parcel) := by
  unfold Dev.secded
  try dsimp only
  repeat' first
    | with_reducible assumption
    | with_reducible apply Dev.secdedCorrected_keeps
    | with_reducible apply Dev.secdedBad_keeps
    | with_reducible apply Dev.Keeps.ite
    | with_reducible apply Dev.Keeps.ite_snd
    | with_reducible apply Dev.Keeps.foldl
    | simp only [Dev.Keeps.keep]
    | (intro _; intros; try dsimp only)
    | dsimp only
    | (split; all_goals try dsimp only)

theorem Dev.reservedLost_keeps {e₀ d : Dev} (hk : Dev.Keeps e₀ d) (content block : Nat) :
    Dev.Keeps e₀ (Dev.reservedLost d content block) := by
  unfold Dev.reservedLost
  try dsimp only
  repeat' first
    | with_reducible assumption
    | with_reducible apply Dev.reservedWake_keeps
    | with_reducible apply Dev.count_keeps
    | with_reducible apply Dev.depEvent_keeps
    | with_reducible apply Dev.raise_keeps
    | with_reducible apply Dev.Keeps.ite
    | with_reducible apply Dev.Keeps.ite_snd
    | with_reducible apply Dev.Keeps.foldl
    | simp only [Dev.Keeps.keep]
    | (intro _; intros; try dsimp only)
    | dsimp only
    | (split; all_goals try dsimp only)

theorem Dev.reserved_keeps {e₀ d : Dev} (hk : Dev.Keeps e₀ d) (ecc : Ecc) (content block outcome : Nat) (stroke region parcel : Nat := 0) :
    Dev.Keeps e₀ (Dev.reserved d ecc content block outcome stroke region parcel) := by
  unfold Dev.reserved
  try dsimp only
  repeat' first
    | with_reducible assumption
    | with_reducible apply Dev.reservedWake_keeps
    | with_reducible apply Dev.count_keeps
    | with_reducible apply Dev.depLog_keeps
    | with_reducible apply Dev.reservedLost_keeps
    | with_reducible apply Dev.Keeps.ite
    | with_reducible apply Dev.Keeps.ite_snd
    | with_reducible apply Dev.Keeps.foldl
    | simp only [Dev.Keeps.keep]
    | (intro _; intros; try dsimp only)
    | dsimp only
    | (split; all_goals try dsimp only)

theorem Dev.parcelStart_keeps {e₀ d : Dev} (hk : Dev.Keeps e₀ d) (p : Nat) (ecc list : Ecc) :
    Dev.Keeps e₀ (Dev.parcelStart d p ecc list) := by
  unfold Dev.parcelStart
  try dsimp only
  repeat' first
    | with_reducible assumption
    | with_reducible apply Dev.secded_keeps
    | with_reducible apply Dev.reserved_keeps
    | with_reducible apply Dev.mapParcel_keeps
    | with_reducible apply Dev.Keeps.ite
    | with_reducible apply Dev.Keeps.ite_snd
    | with_reducible apply Dev.Keeps.foldl
    | simp only [Dev.Keeps.keep]
    | (intro _; intros; try dsimp only)
    | dsimp only
    | (split; all_goals try dsimp only)

theorem Dev.jobStart_keeps {e₀ d : Dev} (hk : Dev.Keeps e₀ d) (p : Nat) (audit : Bool) (ecc : Ecc) :
    Dev.Keeps e₀ (Dev.jobStart d p audit ecc) := by
  unfold Dev.jobStart
  try dsimp only
  repeat' first
    | with_reducible assumption
    | with_reducible apply Dev.secded_keeps
    | with_reducible apply Dev.mapJob_keeps
    | with_reducible apply Dev.Keeps.ite
    | with_reducible apply Dev.Keeps.ite_snd
    | with_reducible apply Dev.Keeps.foldl
    | simp only [Dev.Keeps.keep]
    | (intro _; intros; try dsimp only)
    | dsimp only
    | (split; all_goals try dsimp only)

end Sys2Proof.Machine
end

