-- ==== Sys2Proof/Laws/KeepsSettle.lean ====
section
/-! SUPPORT. Settle. -/

set_option linter.unusedTactic false
set_option linter.unreachableTactic false
set_option linter.unusedVariables false
set_option linter.unusedSimpArgs false

namespace Sys2Proof.Machine

theorem Dev.setPlate_keeps {e₀ d : Dev} (h : Dev.Keeps e₀ d) (r : Nat) (p : Plate) : Dev.Keeps e₀ (Dev.setPlate d r p) := by
  unfold Dev.setPlate
  try dsimp only
  repeat' first
    | with_reducible assumption
    | with_reducible apply Dev.reservedWake_keeps
    | with_reducible apply Dev.setReg_keeps
    | with_reducible apply Dev.setFld_keeps
    | with_reducible apply Dev.Keeps.ite
    | with_reducible apply Dev.Keeps.ite_snd
    | with_reducible apply Dev.Keeps.foldl
    | simp only [Dev.Keeps.keep]
    | (intro _; intros; try dsimp only)
    | dsimp only
    | (split; all_goals try dsimp only)

theorem Dev.markLost_keeps {e₀ d : Dev} (h : Dev.Keeps e₀ d) (r : Nat) : Dev.Keeps e₀ (Dev.markLost d r) := by
  unfold Dev.markLost
  try dsimp only
  repeat' first
    | with_reducible assumption
    | with_reducible apply Dev.setPlate_keeps
    | with_reducible apply Dev.setFlag_keeps
    | with_reducible apply Dev.count_keeps
    | with_reducible apply Dev.raise_keeps
    | with_reducible apply Dev.Keeps.ite
    | with_reducible apply Dev.Keeps.ite_snd
    | with_reducible apply Dev.Keeps.foldl
    | simp only [Dev.Keeps.keep]
    | (intro _; intros; try dsimp only)
    | dsimp only
    | (split; all_goals try dsimp only)

theorem Dev.plateAdvance_keeps {e₀ d : Dev} (h : Dev.Keeps e₀ d) (r : Nat) : Dev.Keeps e₀ (Dev.plateAdvance d r) := by
  unfold Dev.plateAdvance
  try dsimp only
  repeat' first
    | with_reducible assumption
    | with_reducible apply Dev.setPlate_keeps
    | with_reducible apply Dev.setFlag_keeps
    | with_reducible apply Dev.count_keeps
    | with_reducible apply Dev.raise_keeps
    | with_reducible apply Dev.markLost_keeps
    | with_reducible apply Dev.Keeps.ite
    | with_reducible apply Dev.Keeps.ite_snd
    | with_reducible apply Dev.Keeps.foldl
    | simp only [Dev.Keeps.keep]
    | (intro _; intros; try dsimp only)
    | dsimp only
    | (split; all_goals try dsimp only)

theorem Dev.plateCommit_keeps {e₀ d : Dev} (h : Dev.Keeps e₀ d) (r : Nat) : Dev.Keeps e₀ (Dev.plateCommit d r) := by
  unfold Dev.plateCommit
  try dsimp only
  repeat' first
    | with_reducible assumption
    | with_reducible apply Dev.refuse_keeps
    | with_reducible apply Dev.plateAdvance_keeps
    | with_reducible apply Dev.Keeps.ite
    | with_reducible apply Dev.Keeps.ite_snd
    | with_reducible apply Dev.Keeps.foldl
    | simp only [Dev.Keeps.keep]
    | (intro _; intros; try dsimp only)
    | dsimp only
    | (split; all_goals try dsimp only)

theorem Dev.plateStarve_keeps {e₀ d : Dev} (h : Dev.Keeps e₀ d) (r : Nat) : Dev.Keeps e₀ (Dev.plateStarve d r) := by
  unfold Dev.plateStarve
  try dsimp only
  repeat' first
    | with_reducible assumption
    | with_reducible apply Dev.raise_keeps
    | with_reducible apply Dev.count_keeps
    | with_reducible apply Dev.setFlag_keeps
    | with_reducible apply Dev.Keeps.ite
    | with_reducible apply Dev.Keeps.ite_snd
    | with_reducible apply Dev.Keeps.foldl
    | simp only [Dev.Keeps.keep]
    | (intro _; intros; try dsimp only)
    | dsimp only
    | (split; all_goals try dsimp only)

theorem Dev.platePlay_keeps {e₀ d : Dev} (h : Dev.Keeps e₀ d) (r : Nat) : Dev.Keeps e₀ (Dev.platePlay d r) := by
  unfold Dev.platePlay
  try dsimp only
  repeat' first
    | with_reducible assumption
    | with_reducible apply Dev.setPlate_keeps
    | with_reducible apply Dev.plateStarve_keeps
    | with_reducible apply Dev.Keeps.ite
    | with_reducible apply Dev.Keeps.ite_snd
    | with_reducible apply Dev.Keeps.foldl
    | simp only [Dev.Keeps.keep]
    | (intro _; intros; try dsimp only)
    | dsimp only
    | (split; all_goals try dsimp only)

theorem Dev.plateMark_keeps {e₀ d : Dev} (h : Dev.Keeps e₀ d) (r : Nat) (f : Nat) (late : Bool) : Dev.Keeps e₀ (Dev.plateMark d r f late) := by
  unfold Dev.plateMark
  try dsimp only
  repeat' first
    | with_reducible assumption
    | with_reducible apply Dev.setPlate_keeps
    | with_reducible apply Dev.setFld_keeps
    | with_reducible apply Dev.markLost_keeps
    | with_reducible apply Dev.Keeps.ite
    | with_reducible apply Dev.Keeps.ite_snd
    | with_reducible apply Dev.Keeps.foldl
    | simp only [Dev.Keeps.keep]
    | (intro _; intros; try dsimp only)
    | dsimp only
    | (split; all_goals try dsimp only)

theorem Dev.leaveCopies_keeps {e₀ d : Dev} (h : Dev.Keeps e₀ d) (k : Nat) : Dev.Keeps e₀ (Dev.leaveCopies d k) := by
  unfold Dev.leaveCopies
  try dsimp only
  repeat' first
    | with_reducible assumption
    | with_reducible apply Dev.Keeps.ite
    | with_reducible apply Dev.Keeps.ite_snd
    | with_reducible apply Dev.Keeps.foldl
    | simp only [Dev.Keeps.keep]
    | (intro _; intros; try dsimp only)
    | dsimp only
    | (split; all_goals try dsimp only)

theorem Dev.setFrame_keeps {e₀ d : Dev} (hk : Dev.Keeps e₀ d) (i frame : Nat) (kept : Bool) :
    Dev.Keeps e₀ (Dev.setFrame d i frame kept) := by
  unfold Dev.setFrame
  try dsimp only
  repeat' first
    | with_reducible assumption
    | with_reducible apply Dev.Keeps.ite
    | with_reducible apply Dev.Keeps.ite_snd
    | with_reducible apply Dev.Keeps.foldl
    | simp only [Dev.Keeps.keep]
    | (intro _; intros; try dsimp only)
    | dsimp only
    | (split; all_goals try dsimp only)

theorem Dev.plateBuffers_keeps {e₀ d : Dev} (h : Dev.Keeps e₀ d) : Dev.Keeps e₀ (Dev.plateBuffers d) := by
  unfold Dev.plateBuffers
  try dsimp only
  repeat' first
    | with_reducible assumption
    | with_reducible apply Dev.setFrame_keeps
    | with_reducible apply Dev.setPair_keeps
    | with_reducible apply Dev.setFld_keeps
    | with_reducible apply Dev.Keeps.ite
    | with_reducible apply Dev.Keeps.ite_snd
    | with_reducible apply Dev.Keeps.foldl
    | with_reducible apply Dev.Keeps.foldl_fst
    | simp only [Dev.Keeps.keep]
    | (intro _; intros; try dsimp only)
    | dsimp only
    | (split; all_goals try dsimp only)

theorem Dev.plateMarkSettle_keeps {e₀ d : Dev} (h : Dev.Keeps e₀ d) (r : Nat) : Dev.Keeps e₀ (Dev.plateMarkSettle d r) := by
  unfold Dev.plateMarkSettle
  try dsimp only
  repeat' first
    | with_reducible assumption
    | with_reducible apply Dev.plateMark_keeps
    | with_reducible apply Dev.Keeps.ite
    | with_reducible apply Dev.Keeps.ite_snd
    | with_reducible apply Dev.Keeps.foldl
    | simp only [Dev.Keeps.keep]
    | (intro _; intros; try dsimp only)
    | dsimp only
    | (split; all_goals try dsimp only)

theorem Dev.settledApply_keeps {e₀ d : Dev} (h : Dev.Keeps e₀ d) (reserved : List SettledCopies) (k : Nat) : Dev.Keeps e₀ (Dev.settledApply d reserved k) := by
  unfold Dev.settledApply
  try dsimp only
  repeat' first
    | with_reducible assumption
    | with_reducible apply Dev.leaveCopies_keeps
    | with_reducible apply Dev.reservedWake_keeps
    | with_reducible apply Dev.controlWritten_keeps
    | with_reducible apply Dev.Keeps.ite
    | with_reducible apply Dev.Keeps.ite_snd
    | with_reducible apply Dev.Keeps.foldl
    | simp only [Dev.Keeps.keep]
    | (intro _; intros; try dsimp only)
    | dsimp only
    | (split; all_goals try dsimp only)

theorem Dev.plateRead_keeps {e₀ d : Dev} (hk : Dev.Keeps e₀ d) (r frame stroke : Nat) :
    Dev.Keeps e₀ (Dev.plateRead d r frame stroke) := by
  unfold Dev.plateRead
  try dsimp only
  repeat' first
    | with_reducible assumption
    | with_reducible apply Dev.setPlate_keeps
    | with_reducible apply Dev.Keeps.ite
    | with_reducible apply Dev.Keeps.ite_snd
    | with_reducible apply Dev.Keeps.foldl
    | simp only [Dev.Keeps.keep]
    | (intro _; intros; try dsimp only)
    | dsimp only
    | (split; all_goals try dsimp only)

theorem Dev.writePlateGeom_keeps {e₀ d : Dev} (h : Dev.Keeps e₀ d) (r : Nat) (key : Nat) (v : Nat) : Dev.Keeps e₀ (Dev.writePlateGeom d r key v) := by
  unfold Dev.writePlateGeom
  try dsimp only
  repeat' first
    | with_reducible assumption
    | with_reducible apply Dev.refuse_keeps
    | with_reducible apply Dev.genericWrite_keeps
    | with_reducible apply Dev.Keeps.ite
    | with_reducible apply Dev.Keeps.ite_snd
    | with_reducible apply Dev.Keeps.foldl
    | simp only [Dev.Keeps.keep]
    | (intro _; intros; try dsimp only)
    | dsimp only
    | (split; all_goals try dsimp only)

theorem Dev.plateTidy_keeps {e₀ d : Dev} (h : Dev.Keeps e₀ d) : Dev.Keeps e₀ (Dev.plateTidy d) := by
  unfold Dev.plateTidy
  try dsimp only
  repeat' first
    | with_reducible assumption
    | with_reducible apply Dev.setPlate_keeps
    | with_reducible apply Dev.Keeps.ite
    | with_reducible apply Dev.Keeps.ite_snd
    | with_reducible apply Dev.Keeps.foldl
    | simp only [Dev.Keeps.keep]
    | (intro _; intros; try dsimp only)
    | dsimp only
    | (split; all_goals try dsimp only)

theorem Dev.cutContexts_keeps {e₀ d : Dev} (hk : Dev.Keeps e₀ d) (ks : List Nat) :
    Dev.Keeps e₀ (Dev.cutContexts d ks) := by
  unfold Dev.cutContexts
  try dsimp only
  repeat' first
    | with_reducible assumption
    | with_reducible apply Dev.Keeps.ite
    | with_reducible apply Dev.Keeps.ite_snd
    | with_reducible apply Dev.Keeps.foldl
    | simp only [Dev.Keeps.keep]
    | (intro _; intros; try dsimp only)
    | dsimp only
    | (split; all_goals try dsimp only)

theorem Dev.plateCut_keeps {e₀ d : Dev} (hk : Dev.Keeps e₀ d) (r : Nat) :
    Dev.Keeps e₀ (Dev.plateCut d r) := by
  unfold Dev.plateCut
  try dsimp only
  repeat' first
    | with_reducible assumption
    | with_reducible apply Dev.cutContexts_keeps
    | with_reducible apply Dev.Keeps.ite
    | with_reducible apply Dev.Keeps.ite_snd
    | with_reducible apply Dev.Keeps.foldl
    | simp only [Dev.Keeps.keep]
    | (intro _; intros; try dsimp only)
    | dsimp only
    | (split; all_goals try dsimp only)

theorem Dev.writePlateCtrl_keeps {e₀ d : Dev} (h : Dev.Keeps e₀ d) (r : Nat) (v : Nat) : Dev.Keeps e₀ (Dev.writePlateCtrl d r v) := by
  unfold Dev.writePlateCtrl
  try dsimp only
  repeat' first
    | with_reducible assumption
    | with_reducible apply Dev.genericWrite_keeps
    | with_reducible apply Dev.plateCut_keeps
    | with_reducible apply Dev.setFld_keeps
    | with_reducible apply Dev.refuse_keeps
    | with_reducible apply Dev.Keeps.ite
    | with_reducible apply Dev.Keeps.ite_snd
    | with_reducible apply Dev.Keeps.foldl
    | simp only [Dev.Keeps.keep]
    | (intro _; intros; try dsimp only)
    | dsimp only
    | (split; all_goals try dsimp only)

theorem Dev.plateLatch_keeps {e₀ d : Dev} (h : Dev.Keeps e₀ d) (deals : Bool) : Dev.Keeps e₀ (Dev.plateLatch d deals) := by
  unfold Dev.plateLatch
  try dsimp only
  repeat' first
    | with_reducible assumption
    | with_reducible apply Dev.plateMarkSettle_keeps
    | with_reducible apply Dev.platePlay_keeps
    | with_reducible apply Dev.plateBuffers_keeps
    | with_reducible apply Dev.Keeps.ite
    | with_reducible apply Dev.Keeps.ite_snd
    | with_reducible apply Dev.Keeps.foldl
    | simp only [Dev.Keeps.keep]
    | (intro _; intros; try dsimp only)
    | dsimp only
    | (split; all_goals try dsimp only)

theorem Dev.plateAction_keeps {e₀ d : Dev} (h : Dev.Keeps e₀ d) (r : Nat) (action : Nat) (frame : Nat) (explicit : Bool) : Dev.Keeps e₀ (Dev.plateAction d r action frame explicit).2 := by
  unfold Dev.plateAction
  try dsimp only
  repeat' first
    | with_reducible assumption
    | with_reducible apply Dev.setPlate_keeps
    | with_reducible apply Dev.plateMark_keeps
    | with_reducible apply Dev.setFlag_keeps
    | with_reducible apply Dev.Keeps.ite
    | with_reducible apply Dev.Keeps.ite_snd
    | with_reducible apply Dev.Keeps.foldl
    | simp only [Dev.Keeps.keep]
    | (intro _; intros; try dsimp only)
    | dsimp only
    | (split; all_goals try dsimp only)

theorem Dev.showSettled_keeps {e₀ d : Dev} (h : Dev.Keeps e₀ d) (k : Nat) (fused : Bool) (reads : Bool) : Dev.Keeps e₀ (Dev.showSettled d k fused reads) := by
  unfold Dev.showSettled
  try dsimp only
  repeat' first
    | with_reducible assumption
    | with_reducible apply Dev.setFld_keeps
    | with_reducible apply Dev.Keeps.ite
    | with_reducible apply Dev.Keeps.ite_snd
    | with_reducible apply Dev.Keeps.foldl
    | simp only [Dev.Keeps.keep]
    | (intro _; intros; try dsimp only)
    | dsimp only
    | (split; all_goals try dsimp only)

theorem Dev.freeCopies_keeps {e₀ d : Dev} (h : Dev.Keeps e₀ d) : Dev.Keeps e₀ (Dev.freeCopies d) := by
  unfold Dev.freeCopies
  try dsimp only
  repeat' first
    | with_reducible assumption
    | with_reducible apply Dev.Keeps.ite
    | with_reducible apply Dev.Keeps.ite_snd
    | with_reducible apply Dev.Keeps.foldl
    | simp only [Dev.Keeps.keep]
    | (intro _; intros; try dsimp only)
    | dsimp only
    | (split; all_goals try dsimp only)

end Sys2Proof.Machine
end

