-- ==== Sys2Proof/Laws/KeepsDeal.lean ====
section
/-! SUPPORT. Deal. -/

set_option linter.unusedTactic false
set_option linter.unreachableTactic false
set_option linter.unusedVariables false
set_option linter.unusedSimpArgs false

namespace Sys2Proof.Machine

theorem Dev.roundFree_keeps {e₀ d : Dev} (h : Dev.Keeps e₀ d) (x : Rat) : Dev.Keeps e₀ (Dev.roundFree d x).2 := by
  unfold Dev.roundFree
  try dsimp only
  repeat' first
    | with_reducible assumption
    | with_reducible apply Dev.freshBool_keeps
    | with_reducible apply Dev.Keeps.ite
    | with_reducible apply Dev.Keeps.ite_snd
    | with_reducible apply Dev.Keeps.foldl
    | simp only [Dev.Keeps.keep]
    | (intro _; intros; try dsimp only)
    | dsimp only
    | (split; all_goals try dsimp only)

theorem Dev.updateAdm_keeps {e₀ d : Dev} (h : Dev.Keeps e₀ d) : Dev.Keeps e₀ (Dev.updateAdm d) := by
  unfold Dev.updateAdm
  try dsimp only
  repeat' first
    | with_reducible assumption
    | with_reducible apply Dev.freshNat_keeps
    | with_reducible apply Dev.roundFree_keeps
    | with_reducible apply Dev.setReg_keeps
    | with_reducible apply Dev.Keeps.ite
    | with_reducible apply Dev.Keeps.ite_snd
    | with_reducible apply Dev.Keeps.foldl
    | with_reducible apply Dev.Keeps.foldl_fst
    | simp only [Dev.Keeps.keep]
    | (intro _; intros; try dsimp only)
    | dsimp only
    | (split; all_goals try dsimp only)

theorem Dev.useLayers_keeps {e₀ d : Dev} (hk : Dev.Keeps e₀ d) (layers : List Nat) (s : Nat) :
    Dev.Keeps e₀ (Dev.useLayers d layers s) := by
  unfold Dev.useLayers
  try dsimp only
  repeat' first
    | with_reducible assumption
    | with_reducible apply Dev.Keeps.ite
    | with_reducible apply Dev.Keeps.ite_snd
    | with_reducible apply Dev.Keeps.foldl
    | simp only [Dev.Keeps.keep]
    | (intro _; intros; try dsimp only)
    | dsimp only
    | (split; all_goals try dsimp only)

theorem Dev.replayStroke_keeps {e₀ d : Dev} (h : Dev.Keeps e₀ d) (s : Nat) : Dev.Keeps e₀ (Dev.replayStroke d s) := by
  unfold Dev.replayStroke
  try dsimp only
  repeat' first
    | with_reducible assumption
    | with_reducible apply Dev.setStrokes_keeps
    | with_reducible apply Dev.useLayers_keeps
    | with_reducible apply Dev.plateRead_keeps
    | with_reducible apply Dev.Keeps.ite
    | with_reducible apply Dev.Keeps.ite_snd
    | with_reducible apply Dev.Keeps.foldl
    | with_reducible apply Dev.Keeps.foldl_fst
    | simp only [Dev.Keeps.keep]
    | (intro _; intros; try dsimp only)
    | dsimp only
    | (split; all_goals try dsimp only)

theorem Dev.setCoach_keeps {e₀ d : Dev} (h : Dev.Keeps e₀ d) (p : Nat) (c : Coach) : Dev.Keeps e₀ (Dev.setCoach d p c) := by
  unfold Dev.setCoach
  try dsimp only
  repeat' first
    | with_reducible assumption
    | with_reducible apply Dev.Keeps.ite
    | with_reducible apply Dev.Keeps.ite_snd
    | with_reducible apply Dev.Keeps.foldl
    | simp only [Dev.Keeps.keep]
    | (intro _; intros; try dsimp only)
    | dsimp only
    | (split; all_goals try dsimp only)

theorem Dev.useTick_keeps {e₀ d : Dev} (h : Dev.Keeps e₀ d) : Dev.Keeps e₀ (Dev.useTick d) := by
  unfold Dev.useTick
  try dsimp only
  repeat' first
    | with_reducible assumption
    | with_reducible apply Dev.roundFree_keeps
    | with_reducible apply Dev.setFld_keeps
    | with_reducible apply Dev.raise_keeps
    | with_reducible apply Dev.count_keeps
    | with_reducible apply Dev.setFlag_keeps
    | with_reducible apply Dev.Keeps.ite
    | with_reducible apply Dev.Keeps.ite_snd
    | with_reducible apply Dev.Keeps.foldl
    | simp only [Dev.Keeps.keep]
    | (intro _; intros; try dsimp only)
    | dsimp only
    | (split; all_goals try dsimp only)

theorem Dev.forgetDiscarded_keeps {e₀ d : Dev} (hk : Dev.Keeps e₀ d) (gone : List Nat) :
    Dev.Keeps e₀ (Dev.forgetDiscarded d gone) := by
  unfold Dev.forgetDiscarded
  try dsimp only
  repeat' first
    | with_reducible assumption
    | with_reducible apply Dev.setPlate_keeps
    | with_reducible apply Dev.Keeps.ite
    | with_reducible apply Dev.Keeps.ite_snd
    | with_reducible apply Dev.Keeps.foldl
    | with_reducible apply Dev.Keeps.foldl_fst
    | simp only [Dev.Keeps.keep]
    | (intro _; intros; try dsimp only)
    | dsimp only
    | (split; all_goals try dsimp only)

theorem Dev.liftingTidy_keeps {e₀ d : Dev} (hk : Dev.Keeps e₀ d) :
    Dev.Keeps e₀ (Dev.liftingTidy d) := by
  unfold Dev.liftingTidy
  try dsimp only
  repeat' first
    | with_reducible assumption
    | with_reducible apply Dev.Keeps.ite
    | with_reducible apply Dev.Keeps.ite_snd
    | with_reducible apply Dev.Keeps.foldl
    | simp only [Dev.Keeps.keep]
    | (intro _; intros; try dsimp only)
    | dsimp only
    | (split; all_goals try dsimp only)

theorem Dev.withdraw_keeps {e₀ d : Dev} (h : Dev.Keeps e₀ d) : Dev.Keeps e₀ (Dev.withdraw d) := by
  unfold Dev.withdraw
  try dsimp only
  repeat' first
    | with_reducible assumption
    | with_reducible apply Dev.loseJobs_keeps
    | with_reducible apply Dev.orphanLadders_keeps
    | with_reducible apply Dev.mapRuns_keeps
    | with_reducible apply Dev.forgetDiscarded_keeps
    | with_reducible apply Dev.liftingTidy_keeps
    | with_reducible apply Dev.advanceDone_keeps
    | with_reducible apply Dev.Keeps.ite
    | with_reducible apply Dev.Keeps.ite_snd
    | with_reducible apply Dev.Keeps.foldl
    | simp only [Dev.Keeps.keep]
    | (intro _; intros; try dsimp only)
    | dsimp only
    | (split; all_goals try dsimp only)

theorem Dev.dealSettled_keeps {e₀ d : Dev} (hk : Dev.Keeps e₀ d) (ks : List Nat) (n lambda : Nat) :
    Dev.Keeps e₀ (Dev.dealSettled d ks n lambda).1 := by
  refine Dev.Keeps.foldl_fst _ hk ?_
  intro a k ha
  dsimp only
  split
  · exact ha
  · dsimp only
    repeat' first
      | with_reducible assumption
      | with_reducible apply Dev.count_keeps
      | with_reducible apply Dev.Keeps.ite
      | simp only [Dev.Keeps.keep]
      | intro _

theorem Dev.reservedWakes_keeps {e₀ d : Dev} (hk : Dev.Keeps e₀ d) (content : Nat) (blocks : List Nat) :
    Dev.Keeps e₀ (Dev.reservedWakes d content blocks) := by
  unfold Dev.reservedWakes
  try dsimp only
  repeat' first
    | with_reducible assumption
    | with_reducible apply Dev.reservedWake_keeps
    | with_reducible apply Dev.Keeps.ite
    | with_reducible apply Dev.Keeps.ite_snd
    | with_reducible apply Dev.Keeps.foldl
    | simp only [Dev.Keeps.keep]
    | (intro _; intros; try dsimp only)
    | dsimp only
    | (split; all_goals try dsimp only)

theorem Dev.dealStroke_keeps {e₀ d : Dev} (h : Dev.Keeps e₀ d) (t : Timing) (n : Nat) (s : Nat) (p : Nat) : Dev.Keeps e₀ (Dev.dealStroke d t n s p) := by
  unfold Dev.dealStroke
  try dsimp only
  repeat' first
    | with_reducible assumption
    | with_reducible apply Dev.dealSettled_keeps
    | with_reducible apply Dev.reservedWakes_keeps
    | with_reducible apply Dev.useLayers_keeps
    | with_reducible apply Dev.plateRead_keeps
    | with_reducible apply Dev.showSettled_keeps
    | with_reducible apply Dev.Keeps.ite
    | with_reducible apply Dev.Keeps.ite_snd
    | with_reducible apply Dev.Keeps.foldl
    | with_reducible apply Dev.Keeps.foldl_fst
    | simp only [Dev.Keeps.keep]
    | (intro _; intros; try dsimp only)
    | dsimp only
    | (split; all_goals try dsimp only)

theorem Dev.deal_keeps {e₀ d : Dev} (h : Dev.Keeps e₀ d) (n : Nat) : Dev.Keeps e₀ (Dev.deal d n) := by
  unfold Dev.deal
  try dsimp only
  repeat' first
    | with_reducible assumption
    | with_reducible apply Dev.replayStroke_keeps
    | with_reducible apply Dev.dealStroke_keeps
    | with_reducible apply Dev.Keeps.ite
    | with_reducible apply Dev.Keeps.ite_snd
    | with_reducible apply Dev.Keeps.foldl
    | simp only [Dev.Keeps.keep]
    | (intro _; intros; try dsimp only)
    | dsimp only
    | (split; all_goals try dsimp only)

theorem Dev.endLadder_keeps {e₀ d : Dev} (hk : Dev.Keeps e₀ d) (l : Ladder) :
    Dev.Keeps e₀ (Dev.endLadder d l) := by
  unfold Dev.endLadder
  try dsimp only
  repeat' first
    | with_reducible assumption
    | with_reducible apply Dev.ladderDamaged_keeps
    | with_reducible apply Dev.logLadder_keeps
    | with_reducible apply Dev.Keeps.ite
    | with_reducible apply Dev.Keeps.ite_snd
    | with_reducible apply Dev.Keeps.foldl
    | simp only [Dev.Keeps.keep]
    | (intro _; intros; try dsimp only)
    | dsimp only
    | (split; all_goals try dsimp only)

theorem Dev.giveUpTables_keeps {e₀ d : Dev} (hk : Dev.Keeps e₀ d) :
    Dev.Keeps e₀ (Dev.giveUpTables d) := by
  unfold Dev.giveUpTables
  try dsimp only
  repeat' first
    | with_reducible assumption
    | with_reducible apply Dev.mapRuns_keeps
    | with_reducible apply Dev.endLadder_keeps
    | with_reducible apply Dev.loseJobs_keeps
    | with_reducible apply Dev.liftingTidy_keeps
    | with_reducible apply Dev.advanceDone_keeps
    | with_reducible apply Dev.Keeps.ite
    | with_reducible apply Dev.Keeps.ite_snd
    | with_reducible apply Dev.Keeps.foldl
    | simp only [Dev.Keeps.keep]
    | (intro _; intros; try dsimp only)
    | dsimp only
    | (split; all_goals try dsimp only)

theorem Dev.retireStrokes_keeps {e₀ d : Dev} (h : Dev.Keeps e₀ d) : Dev.Keeps e₀ (Dev.retireStrokes d) := by
  unfold Dev.retireStrokes
  try dsimp only
  repeat' first
    | with_reducible assumption
    | with_reducible apply Dev.giveUpTables_keeps
    | with_reducible apply Dev.setStrokes_keeps
    | with_reducible apply Dev.complete_keeps
    | with_reducible apply Dev.Keeps.ite
    | with_reducible apply Dev.Keeps.ite_snd
    | with_reducible apply Dev.Keeps.foldl
    | simp only [Dev.Keeps.keep]
    | (intro _; intros; try dsimp only)
    | dsimp only
    | (split; all_goals try dsimp only)

theorem Dev.abandonAll_keeps {e₀ d : Dev} (h : Dev.Keeps e₀ d) : Dev.Keeps e₀ (Dev.abandonAll d) := by
  unfold Dev.abandonAll
  try dsimp only
  repeat' first
    | with_reducible assumption
    | with_reducible apply Dev.loseJobs_keeps
    | with_reducible apply Dev.orphanLadders_keeps
    | with_reducible apply Dev.mapRuns_keeps
    | with_reducible apply Dev.complete_keeps
    | with_reducible apply Dev.advanceDone_keeps
    | with_reducible apply Dev.Keeps.ite
    | with_reducible apply Dev.Keeps.ite_snd
    | with_reducible apply Dev.Keeps.foldl
    | simp only [Dev.Keeps.keep]
    | (intro _; intros; try dsimp only)
    | dsimp only
    | (split; all_goals try dsimp only)

end Sys2Proof.Machine
end

