-- ==== Sys2Proof/Laws/KeepsFences.lean ====
section
/-! SUPPORT. Fences. -/

set_option linter.unusedTactic false
set_option linter.unreachableTactic false
set_option linter.unusedVariables false
set_option linter.unusedSimpArgs false

namespace Sys2Proof.Machine

theorem Dev.mirrorCopy_keeps {e₀ d : Dev} (h : Dev.Keeps e₀ d) (c : Completion) : Dev.Keeps e₀ (Dev.mirrorCopy d c) := by
  unfold Dev.mirrorCopy
  try dsimp only
  repeat' first
    | with_reducible assumption
    | with_reducible apply Dev.record_keeps
    | with_reducible apply Dev.Keeps.ite
    | with_reducible apply Dev.Keeps.ite_snd
    | with_reducible apply Dev.Keeps.foldl
    | simp only [Dev.Keeps.keep]
    | (intro _; intros; try dsimp only)
    | dsimp only
    | (split; all_goals try dsimp only)

theorem Dev.completeSet_keeps {e₀ d : Dev} (h : Dev.Keeps e₀ d) (q : QSet) (status : Nat) (m : Nat) (held : Nat) : Dev.Keeps e₀ (Dev.completeSet d q status m held) := by
  unfold Dev.completeSet
  try dsimp only
  repeat' first
    | with_reducible assumption
    | with_reducible apply Dev.mirrorCopy_keeps
    | with_reducible apply Dev.ringComplete_keeps
    | with_reducible apply Dev.Keeps.ite
    | with_reducible apply Dev.Keeps.ite_snd
    | with_reducible apply Dev.Keeps.foldl
    | simp only [Dev.Keeps.keep]
    | (intro _; intros; try dsimp only)
    | dsimp only
    | (split; all_goals try dsimp only)

theorem Dev.dequeue_keeps {e₀ d : Dev} (h : Dev.Keeps e₀ d) (q : QSet) (applied : Bool) : Dev.Keeps e₀ (Dev.dequeue d q applied) := by
  unfold Dev.dequeue
  try dsimp only
  repeat' first
    | with_reducible assumption
    | with_reducible apply Dev.Keeps.ite
    | with_reducible apply Dev.Keeps.ite_snd
    | with_reducible apply Dev.Keeps.foldl
    | simp only [Dev.Keeps.keep]
    | (intro _; intros; try dsimp only)
    | dsimp only
    | (split; all_goals try dsimp only)

theorem Dev.flushSets_keeps {e₀ d : Dev} (h : Dev.Keeps e₀ d) (status : Nat) : Dev.Keeps e₀ (Dev.flushSets d status) := by
  unfold Dev.flushSets
  try dsimp only
  repeat' first
    | with_reducible assumption
    | with_reducible apply Dev.unread_keeps
    | with_reducible apply Dev.freshNat_keeps
    | with_reducible apply Dev.dequeue_keeps
    | with_reducible apply Dev.completeSet_keeps
    | with_reducible apply Dev.Keeps.ite
    | with_reducible apply Dev.Keeps.ite_snd
    | with_reducible apply Dev.Keeps.foldl
    | with_reducible apply Dev.Keeps.foldl_fst
    | simp only [Dev.Keeps.keep]
    | (intro _; intros; try dsimp only)
    | dsimp only
    | (split; all_goals try dsimp only)

theorem Dev.waitsMet_keeps {e₀ d : Dev} (hk : Dev.Keeps e₀ d) :
    Dev.Keeps e₀ (Dev.waitsMet d) := by
  unfold Dev.waitsMet
  try dsimp only
  repeat' first
    | with_reducible assumption
    | with_reducible apply Dev.Keeps.ite
    | with_reducible apply Dev.Keeps.ite_snd
    | with_reducible apply Dev.Keeps.foldl
    | simp only [Dev.Keeps.keep]
    | (intro _; intros; try dsimp only)
    | dsimp only
    | (split; all_goals try dsimp only)

theorem Dev.fenceWrite_keeps {e₀ d : Dev} (h : Dev.Keeps e₀ d) (f : Nat) (v : Nat) : Dev.Keeps e₀ (Dev.fenceWrite d f v) := by
  unfold Dev.fenceWrite
  try dsimp only
  repeat' first
    | with_reducible assumption
    | with_reducible apply Dev.setReg_keeps
    | with_reducible apply Dev.waitsMet_keeps
    | with_reducible apply Dev.raiseIf_keeps
    | with_reducible apply Dev.Keeps.ite
    | with_reducible apply Dev.Keeps.ite_snd
    | with_reducible apply Dev.Keeps.foldl
    | simp only [Dev.Keeps.keep]
    | (intro _; intros; try dsimp only)
    | dsimp only
    | (split; all_goals try dsimp only)

theorem Dev.flpEvent_keeps {e₀ d : Dev} (h : Dev.Keeps e₀ d) (f : Fld) : Dev.Keeps e₀ (Dev.flpEvent d f) := by
  unfold Dev.flpEvent
  try dsimp only
  repeat' first
    | with_reducible assumption
    | with_reducible apply Dev.setFlag_keeps
    | with_reducible apply Dev.Keeps.ite
    | with_reducible apply Dev.Keeps.ite_snd
    | with_reducible apply Dev.Keeps.foldl
    | simp only [Dev.Keeps.keep]
    | (intro _; intros; try dsimp only)
    | dsimp only
    | (split; all_goals try dsimp only)

end Sys2Proof.Machine
end

