-- ==== Sys2Proof/Laws/KeepsTrunkLink.lean ====
section
/-! SUPPORT. TrunkLink. -/

set_option linter.unusedTactic false
set_option linter.unreachableTactic false
set_option linter.unusedVariables false
set_option linter.unusedSimpArgs false

namespace Sys2Proof.Machine

theorem Dev.setTlane_keeps {e₀ d : Dev} (h : Dev.Keeps e₀ d) (p : Nat) (x : TrkLane) : Dev.Keeps e₀ (Dev.setTlane d p x) := by
  unfold Dev.setTlane
  try dsimp only
  repeat' first
    | with_reducible assumption
    | with_reducible apply Dev.setFld_keeps
    | with_reducible apply Dev.Keeps.ite
    | with_reducible apply Dev.Keeps.ite_snd
    | with_reducible apply Dev.Keeps.foldl
    | simp only [Dev.Keeps.keep]
    | (intro _; intros; try dsimp only)
    | dsimp only
    | (split; all_goals try dsimp only)

theorem Dev.trkEvent_keeps {e₀ d : Dev} (h : Dev.Keeps e₀ d) (f : Fld) : Dev.Keeps e₀ (Dev.trkEvent d f) := by
  unfold Dev.trkEvent
  try dsimp only
  repeat' first
    | with_reducible assumption
    | with_reducible apply Dev.setFlag_keeps
    | with_reducible apply Dev.Keeps.ite
    | with_reducible apply Dev.Keeps.ite_snd
    | with_reducible apply Dev.Keeps.foldl
    | simp only [Dev.Keeps.keep]
    | (intro _; intros; try dsimp only)
    | dsimp only
    | (split; all_goals try dsimp only)

theorem Dev.trkCodes_keeps {e₀ d : Dev} (hk : Dev.Keeps e₀ d) (p : Nat) (bs : List Byte) :
    Dev.Keeps e₀ (Dev.trkCodes d p bs) := by
  unfold Dev.trkCodes
  try dsimp only
  repeat' first
    | with_reducible assumption
    | with_reducible apply Dev.linkBytes_keeps
    | with_reducible apply Dev.Keeps.ite
    | with_reducible apply Dev.Keeps.ite_snd
    | with_reducible apply Dev.Keeps.foldl
    | simp only [Dev.Keeps.keep]
    | (intro _; intros; try dsimp only)
    | dsimp only
    | (split; all_goals try dsimp only)

theorem Dev.trkPut_keeps {e₀ d : Dev} (h : Dev.Keeps e₀ d) (p : Nat) (session : List Byte) (seq : Nat) (f : TrunkFrame) : Dev.Keeps e₀ (Dev.trkPut d p session seq f) := by
  unfold Dev.trkPut
  try dsimp only
  repeat' first
    | with_reducible assumption
    | with_reducible apply Dev.emit_keeps
    | with_reducible apply Dev.trkCodes_keeps
    | with_reducible apply Dev.freshNat_keeps
    | with_reducible apply Dev.freshBytes_keeps
    | with_reducible apply Dev.Keeps.ite
    | with_reducible apply Dev.Keeps.ite_snd
    | with_reducible apply Dev.Keeps.foldl
    | simp only [Dev.Keeps.keep]
    | (intro _; intros; try dsimp only)
    | dsimp only
    | (split; all_goals try dsimp only)

theorem Dev.trkSendOn_keeps {e₀ d : Dev} (h : Dev.Keeps e₀ d) (p : Nat) (f : TrunkFrame) : Dev.Keeps e₀ (Dev.trkSendOn d p f) := by
  unfold Dev.trkSendOn
  try dsimp only
  repeat' first
    | with_reducible assumption
    | with_reducible apply Dev.setTlane_keeps
    | with_reducible apply Dev.trkPut_keeps
    | with_reducible apply Dev.freshNat_keeps
    | with_reducible apply Dev.Keeps.ite
    | with_reducible apply Dev.Keeps.ite_snd
    | with_reducible apply Dev.Keeps.foldl
    | simp only [Dev.Keeps.keep]
    | (intro _; intros; try dsimp only)
    | dsimp only
    | (split; all_goals try dsimp only)

theorem Dev.trkLeave_keeps {e₀ d : Dev} (h : Dev.Keeps e₀ d) (cause : Nat) : Dev.Keeps e₀ (Dev.trkLeave d cause) := by
  unfold Dev.trkLeave
  try dsimp only
  repeat' first
    | with_reducible assumption
    | with_reducible apply Dev.trkSendOn_keeps
    | with_reducible apply Dev.Keeps.ite
    | with_reducible apply Dev.Keeps.ite_snd
    | with_reducible apply Dev.Keeps.foldl
    | simp only [Dev.Keeps.keep]
    | (intro _; intros; try dsimp only)
    | dsimp only
    | (split; all_goals try dsimp only)

theorem Dev.trkForget_keeps {e₀ d : Dev} (h : Dev.Keeps e₀ d) : Dev.Keeps e₀ (Dev.trkForget d) := by
  unfold Dev.trkForget
  try dsimp only
  repeat' first
    | with_reducible assumption
    | with_reducible apply Dev.Keeps.ite
    | with_reducible apply Dev.Keeps.ite_snd
    | with_reducible apply Dev.Keeps.foldl
    | simp only [Dev.Keeps.keep]
    | (intro _; intros; try dsimp only)
    | dsimp only
    | (split; all_goals try dsimp only)

theorem Dev.trkTo_keeps {e₀ d : Dev} (h : Dev.Keeps e₀ d) (x : Nat) : Dev.Keeps e₀ (Dev.trkTo d x) := by
  unfold Dev.trkTo
  try dsimp only
  repeat' first
    | with_reducible assumption
    | with_reducible apply Dev.raise_keeps
    | with_reducible apply Dev.trkEvent_keeps
    | with_reducible apply Dev.setFld_keeps
    | with_reducible apply Dev.Keeps.ite
    | with_reducible apply Dev.Keeps.ite_snd
    | with_reducible apply Dev.Keeps.foldl
    | simp only [Dev.Keeps.keep]
    | (intro _; intros; try dsimp only)
    | dsimp only
    | (split; all_goals try dsimp only)

theorem Dev.trkQuit_keeps {e₀ d : Dev} (h : Dev.Keeps e₀ d) (x : Nat) (leave : Option Nat) : Dev.Keeps e₀ (Dev.trkQuit d x leave) := by
  unfold Dev.trkQuit
  try dsimp only
  repeat' first
    | with_reducible assumption
    | with_reducible apply Dev.trkLeave_keeps
    | with_reducible apply Dev.trkForget_keeps
    | with_reducible apply Dev.trkTo_keeps
    | with_reducible apply Dev.Keeps.ite
    | with_reducible apply Dev.Keeps.ite_snd
    | with_reducible apply Dev.Keeps.foldl
    | simp only [Dev.Keeps.keep]
    | (intro _; intros; try dsimp only)
    | dsimp only
    | (split; all_goals try dsimp only)

theorem Dev.trkRoute_keeps {e₀ d : Dev} (h : Dev.Keeps e₀ d) : Dev.Keeps e₀ (Dev.trkRoute d) := by
  unfold Dev.trkRoute
  try dsimp only
  repeat' first
    | with_reducible assumption
    | with_reducible apply Dev.setFld_keeps
    | with_reducible apply Dev.setReg_keeps
    | with_reducible apply Dev.trkEvent_keeps
    | with_reducible apply Dev.count_keeps
    | with_reducible apply Dev.raise_keeps
    | with_reducible apply Dev.trkQuit_keeps
    | with_reducible apply Dev.Keeps.ite
    | with_reducible apply Dev.Keeps.ite_snd
    | with_reducible apply Dev.Keeps.foldl
    | simp only [Dev.Keeps.keep]
    | (intro _; intros; try dsimp only)
    | dsimp only
    | (split; all_goals try dsimp only)

theorem Dev.laneAuth_keeps {e₀ d : Dev} (h : Dev.Keeps e₀ d) (p : Nat) : Dev.Keeps e₀ (Dev.laneAuth d p) := by
  unfold Dev.laneAuth
  try dsimp only
  repeat' first
    | with_reducible assumption
    | with_reducible apply Dev.freshBytes_keeps
    | with_reducible apply Dev.setFld_keeps
    | with_reducible apply Dev.setTlane_keeps
    | with_reducible apply Dev.trkRoute_keeps
    | with_reducible apply Dev.trkSendOn_keeps
    | with_reducible apply Dev.Keeps.ite
    | with_reducible apply Dev.Keeps.ite_snd
    | with_reducible apply Dev.Keeps.foldl
    | simp only [Dev.Keeps.keep]
    | (intro _; intros; try dsimp only)
    | dsimp only
    | (split; all_goals try dsimp only)

theorem Dev.stewardTick_keeps {e₀ d : Dev} (h : Dev.Keeps e₀ d) (p : Nat) (f : TrunkFrame) (payload : List Byte) : Dev.Keeps e₀ (Dev.stewardTick d p f payload) := by
  unfold Dev.stewardTick
  try dsimp only
  repeat' first
    | with_reducible assumption
    | with_reducible apply Dev.trkSendOn_keeps
    | with_reducible apply Dev.Keeps.ite
    | with_reducible apply Dev.Keeps.ite_snd
    | with_reducible apply Dev.Keeps.foldl
    | simp only [Dev.Keeps.keep]
    | (intro _; intros; try dsimp only)
    | dsimp only
    | (split; all_goals try dsimp only)

theorem Dev.trkFlood_keeps {e₀ d : Dev} (h : Dev.Keeps e₀ d) (f : TrunkFrame) : Dev.Keeps e₀ (Dev.trkFlood d f) := by
  unfold Dev.trkFlood
  try dsimp only
  repeat' first
    | with_reducible assumption
    | with_reducible apply Dev.stewardTick_keeps
    | with_reducible apply Dev.trkSendOn_keeps
    | with_reducible apply Dev.Keeps.ite
    | with_reducible apply Dev.Keeps.ite_snd
    | with_reducible apply Dev.Keeps.foldl
    | simp only [Dev.Keeps.keep]
    | (intro _; intros; try dsimp only)
    | dsimp only
    | (split; all_goals try dsimp only)

theorem Dev.trkRelease_keeps {e₀ d : Dev} (h : Dev.Keeps e₀ d) : Dev.Keeps e₀ (Dev.trkRelease d) := by
  unfold Dev.trkRelease
  try dsimp only
  repeat' first
    | with_reducible assumption
    | with_reducible apply Dev.trkFlood_keeps
    | with_reducible apply Dev.Keeps.ite
    | with_reducible apply Dev.Keeps.ite_snd
    | with_reducible apply Dev.Keeps.foldl
    | simp only [Dev.Keeps.keep]
    | (intro _; intros; try dsimp only)
    | dsimp only
    | (split; all_goals try dsimp only)

theorem Dev.trkUp_keeps {e₀ d : Dev} (h : Dev.Keeps e₀ d) (type_ : Nat) (payload : List Byte) : Dev.Keeps e₀ (Dev.trkUp d type_ payload) := by
  unfold Dev.trkUp
  try dsimp only
  repeat' first
    | with_reducible assumption
    | with_reducible apply Dev.tlyAppend_keeps
    | with_reducible apply Dev.trkSendOn_keeps
    | with_reducible apply Dev.Keeps.ite
    | with_reducible apply Dev.Keeps.ite_snd
    | with_reducible apply Dev.Keeps.foldl
    | simp only [Dev.Keeps.keep]
    | (intro _; intros; try dsimp only)
    | dsimp only
    | (split; all_goals try dsimp only)

theorem Dev.driveLane_keeps {e₀ d : Dev} (hk : Dev.Keeps e₀ d) (p state : Nat) (was : LaneDrive) :
    Dev.Keeps e₀ (Dev.driveLane d p state was) := by
  unfold Dev.driveLane
  try dsimp only
  repeat' first
    | with_reducible assumption
    | with_reducible apply Dev.emit_keeps
    | with_reducible apply Dev.Keeps.ite
    | with_reducible apply Dev.Keeps.ite_snd
    | with_reducible apply Dev.Keeps.foldl
    | simp only [Dev.Keeps.keep]
    | (intro _; intros; try dsimp only)
    | dsimp only
    | (split; all_goals try dsimp only)

theorem Dev.laneTo_keeps {e₀ d : Dev} (h : Dev.Keeps e₀ d) (p : Nat) (state : Nat) : Dev.Keeps e₀ (Dev.laneTo d p state) := by
  unfold Dev.laneTo
  try dsimp only
  repeat' first
    | with_reducible assumption
    | with_reducible apply Dev.emit_keeps
    | with_reducible apply Dev.setTlane_keeps
    | with_reducible apply Dev.trkRoute_keeps
    | with_reducible apply Dev.Keeps.ite
    | with_reducible apply Dev.Keeps.ite_snd
    | with_reducible apply Dev.Keeps.foldl
    | simp only [Dev.Keeps.keep]
    | (intro _; intros; try dsimp only)
    | dsimp only
    | (split; all_goals try dsimp only)

theorem Dev.trkReleased_keeps {e₀ d : Dev} (h : Dev.Keeps e₀ d) : Dev.Keeps e₀ (Dev.trkReleased d) := by
  unfold Dev.trkReleased
  try dsimp only
  repeat' first
    | with_reducible assumption
    | with_reducible apply Dev.trkUp_keeps
    | with_reducible apply Dev.Keeps.ite
    | with_reducible apply Dev.Keeps.ite_snd
    | with_reducible apply Dev.Keeps.foldl
    | simp only [Dev.Keeps.keep]
    | (intro _; intros; try dsimp only)
    | dsimp only
    | (split; all_goals try dsimp only)

theorem Dev.trkDown_keeps {e₀ d : Dev} (h : Dev.Keeps e₀ d) (type_ : Nat) (body : TrunkBody) : Dev.Keeps e₀ (Dev.trkDown d type_ body) := by
  unfold Dev.trkDown
  try dsimp only
  repeat' first
    | with_reducible assumption
    | with_reducible apply Dev.tlyAppend_keeps
    | with_reducible apply Dev.tlyAppendTold_keeps
    | with_reducible apply Dev.twnMirror_keeps
    | with_reducible apply Dev.trkFlood_keeps
    | with_reducible apply Dev.Keeps.ite
    | with_reducible apply Dev.Keeps.ite_snd
    | with_reducible apply Dev.Keeps.foldl
    | simp only [Dev.Keeps.keep]
    | (intro _; intros; try dsimp only)
    | dsimp only
    | (split; all_goals try dsimp only)

theorem Dev.trkEnterAuth_keeps {e₀ d : Dev} (h : Dev.Keeps e₀ d) : Dev.Keeps e₀ (Dev.trkEnterAuth d) := by
  unfold Dev.trkEnterAuth
  try dsimp only
  repeat' first
    | with_reducible assumption
    | with_reducible apply Dev.trkTo_keeps
    | with_reducible apply Dev.laneAuth_keeps
    | with_reducible apply Dev.Keeps.ite
    | with_reducible apply Dev.Keeps.ite_snd
    | with_reducible apply Dev.Keeps.foldl
    | simp only [Dev.Keeps.keep]
    | (intro _; intros; try dsimp only)
    | dsimp only
    | (split; all_goals try dsimp only)

end Sys2Proof.Machine
end

