-- ==== Sys2Proof/Laws/KeepsFlips.lean ====
section
/-! SUPPORT. Flips. -/

set_option linter.unusedTactic false
set_option linter.unreachableTactic false
set_option linter.unusedVariables false
set_option linter.unusedSimpArgs false

namespace Sys2Proof.Machine

theorem Dev.releaseFence_keeps {e₀ d : Dev} (h : Dev.Keeps e₀ d) (x : Displaced) : Dev.Keeps e₀ (Dev.releaseFence d x) := by
  unfold Dev.releaseFence
  try dsimp only
  repeat' first
    | with_reducible assumption
    | with_reducible apply Dev.raise_keeps
    | with_reducible apply Dev.fenceWrite_keeps
    | with_reducible apply Dev.Keeps.ite
    | with_reducible apply Dev.Keeps.ite_snd
    | with_reducible apply Dev.Keeps.foldl
    | simp only [Dev.Keeps.keep]
    | (intro _; intros; try dsimp only)
    | dsimp only
    | (split; all_goals try dsimp only)

theorem Dev.displace_keeps {e₀ d : Dev} (h : Dev.Keeps e₀ d) (x : Displaced) : Dev.Keeps e₀ (Dev.displace d x) := by
  unfold Dev.displace
  try dsimp only
  repeat' first
    | with_reducible assumption
    | with_reducible apply Dev.releaseFence_keeps
    | with_reducible apply Dev.Keeps.ite
    | with_reducible apply Dev.Keeps.ite_snd
    | with_reducible apply Dev.Keeps.foldl
    | simp only [Dev.Keeps.keep]
    | (intro _; intros; try dsimp only)
    | dsimp only
    | (split; all_goals try dsimp only)

theorem Dev.forgetUse_keeps {e₀ d : Dev} (h : Dev.Keeps e₀ d) (layer : Nat) : Dev.Keeps e₀ (Dev.forgetUse d layer) := by
  unfold Dev.forgetUse
  try dsimp only
  repeat' first
    | with_reducible assumption
    | with_reducible apply Dev.Keeps.ite
    | with_reducible apply Dev.Keeps.ite_snd
    | with_reducible apply Dev.Keeps.foldl
    | simp only [Dev.Keeps.keep]
    | (intro _; intros; try dsimp only)
    | dsimp only
    | (split; all_goals try dsimp only)

theorem Dev.applyFlip_keeps {e₀ d : Dev} (h : Dev.Keeps e₀ d) (layer : Nat) (relEn : Bool) (buf : Nat) (relIdx : Nat) (relVal : Nat) (trunk : Option Nat) : Dev.Keeps e₀ (Dev.applyFlip d layer relEn buf relIdx relVal trunk) := by
  unfold Dev.applyFlip
  try dsimp only
  repeat' first
    | with_reducible assumption
    | with_reducible apply Dev.setPair_keeps
    | with_reducible apply Dev.setFld_keeps
    | with_reducible apply Dev.forgetUse_keeps
    | with_reducible apply Dev.displace_keeps
    | with_reducible apply Dev.Keeps.ite
    | with_reducible apply Dev.Keeps.ite_snd
    | with_reducible apply Dev.Keeps.foldl
    | simp only [Dev.Keeps.keep]
    | (intro _; intros; try dsimp only)
    | dsimp only
    | (split; all_goals try dsimp only)

theorem Dev.deferSet_keeps {e₀ d : Dev} (h : Dev.Keeps e₀ d) (q : QSet) (stopped : Bool) : Dev.Keeps e₀ (Dev.deferSet d q stopped) := by
  unfold Dev.deferSet
  try dsimp only
  repeat' first
    | with_reducible assumption
    | with_reducible apply Dev.raise_keeps
    | with_reducible apply Dev.flpEvent_keeps
    | with_reducible apply Dev.count_keeps
    | with_reducible apply Dev.Keeps.ite
    | with_reducible apply Dev.Keeps.ite_snd
    | with_reducible apply Dev.Keeps.foldl
    | simp only [Dev.Keeps.keep]
    | (intro _; intros; try dsimp only)
    | dsimp only
    | (split; all_goals try dsimp only)

theorem Dev.dropSet_keeps {e₀ d : Dev} (h : Dev.Keeps e₀ d) (q : QSet) (m : Nat) : Dev.Keeps e₀ (Dev.dropSet d q m) := by
  unfold Dev.dropSet
  try dsimp only
  repeat' first
    | with_reducible assumption
    | with_reducible apply Dev.completeSet_keeps
    | with_reducible apply Dev.dequeue_keeps
    | with_reducible apply Dev.count_keeps
    | with_reducible apply Dev.Keeps.ite
    | with_reducible apply Dev.Keeps.ite_snd
    | with_reducible apply Dev.Keeps.foldl
    | simp only [Dev.Keeps.keep]
    | (intro _; intros; try dsimp only)
    | dsimp only
    | (split; all_goals try dsimp only)

theorem Dev.applyStack_keeps {e₀ d : Dev} (h : Dev.Keeps e₀ d) (layers : List Nat) (words : List (Nat × Nat)) (trunk : Option Nat) : Dev.Keeps e₀ (Dev.applyStack d layers words trunk) := by
  unfold Dev.applyStack
  try dsimp only
  repeat' first
    | with_reducible assumption
    | with_reducible apply Dev.forgetUse_keeps
    | with_reducible apply Dev.displace_keeps
    | with_reducible apply Dev.Keeps.ite
    | with_reducible apply Dev.Keeps.ite_snd
    | with_reducible apply Dev.Keeps.foldl
    | simp only [Dev.Keeps.keep]
    | (intro _; intros; try dsimp only)
    | dsimp only
    | (split; all_goals try dsimp only)

theorem Applying.member_keeps {e : Dev} {a : Applying} (h : Dev.Keeps e a.dev) (held : Nat) (trunk : Option Nat) (i : Nat) (m : Member) :
    Dev.Keeps e (a.member held trunk i m).dev := by
  unfold Applying.member
  split
  · split <;> dsimp only
    · exact Dev.displace_keeps (Dev.count_keeps h _) _
    · exact Dev.applyFlip_keeps h _ _ _ _ _ _
  · exact Dev.applyStack_keeps h _ _ _
  · exact Dev.plateAction_keeps h _ _ _ _

theorem Applying.foldl_keeps {e : Dev} (l : List (Nat × Member)) {a : Applying} (h : Dev.Keeps e a.dev) (held : Nat) (trunk : Option Nat) :
    Dev.Keeps e (l.foldl (fun (a : Applying) e => a.member held trunk e.1 e.2) a).dev := by
  induction l generalizing a with
  | nil => exact h
  | cons x l ih => exact ih (Applying.member_keeps h held trunk x.1 x.2)

theorem Dev.settledLeave_keeps {e₀ d : Dev} (hk : Dev.Keeps e₀ d) :
    Dev.Keeps e₀ (Dev.settledLeave d) := by
  unfold Dev.settledLeave
  try dsimp only
  repeat' first
    | with_reducible assumption
    | with_reducible apply Dev.leaveCopies_keeps
    | with_reducible apply Dev.Keeps.ite
    | with_reducible apply Dev.Keeps.ite_snd
    | with_reducible apply Dev.Keeps.foldl
    | simp only [Dev.Keeps.keep]
    | (intro _; intros; try dsimp only)
    | dsimp only
    | (split; all_goals try dsimp only)

theorem Dev.applySet_keeps {e₀ d : Dev} (h : Dev.Keeps e₀ d) (q : QSet) (m : Nat) (held : Nat) : Dev.Keeps e₀ (Dev.applySet d q m held) := by
  unfold Dev.applySet
  try dsimp only
  repeat' first
    | with_reducible assumption
    | with_reducible apply Applying.foldl_keeps
    | with_reducible apply Dev.settledApply_keeps
    | with_reducible apply Dev.reserved_keeps
    | with_reducible apply Dev.settledLeave_keeps
    | with_reducible apply Dev.controlWritten_keeps
    | with_reducible apply Dev.fenceWrite_keeps
    | with_reducible apply Dev.markLost_keeps
    | with_reducible apply Dev.count_keeps
    | with_reducible apply Dev.flpEvent_keeps
    | with_reducible apply Dev.raise_keeps
    | with_reducible apply Dev.dequeue_keeps
    | with_reducible apply Dev.completeSet_keeps
    | with_reducible apply Dev.Keeps.ite
    | with_reducible apply Dev.Keeps.ite_snd
    | with_reducible apply Dev.Keeps.foldl
    | with_reducible apply Dev.Keeps.foldl_fst
    | with_reducible refine Dev.Keeps.withSdp ?_ (Dev.Keeps.sec ‹_›)
    | simp only [Dev.Keeps.keep]
    | (intro _; intros; try dsimp only)
    | dsimp only
    | (split; all_goals try dsimp only)

theorem Dev.evalLocal_keeps {e₀ d : Dev} (h : Dev.Keeps e₀ d) (q : QSet) (m : Nat) (mask : Nat) (stopped : Bool) : Dev.Keeps e₀ (Dev.evalLocal d q m mask stopped) := by
  unfold Dev.evalLocal
  try dsimp only
  repeat' first
    | with_reducible assumption
    | with_reducible apply Dev.deferSet_keeps
    | with_reducible apply Dev.dropSet_keeps
    | with_reducible apply Dev.applySet_keeps
    | with_reducible apply Dev.Keeps.ite
    | with_reducible apply Dev.Keeps.ite_snd
    | with_reducible apply Dev.Keeps.foldl
    | simp only [Dev.Keeps.keep]
    | (intro _; intros; try dsimp only)
    | dsimp only
    | (split; all_goals try dsimp only)

theorem Dev.plateMarks_keeps {e₀ d : Dev} (hk : Dev.Keeps e₀ d) :
    Dev.Keeps e₀ (Dev.plateMarks d) := by
  unfold Dev.plateMarks
  try dsimp only
  repeat' first
    | with_reducible assumption
    | with_reducible apply Dev.plateMarkSettle_keeps
    | with_reducible apply Dev.Keeps.ite
    | with_reducible apply Dev.Keeps.ite_snd
    | with_reducible apply Dev.Keeps.foldl
    | simp only [Dev.Keeps.keep]
    | (intro _; intros; try dsimp only)
    | dsimp only
    | (split; all_goals try dsimp only)

theorem Dev.evalStoppedOnce_keeps {e₀ d : Dev} (h : Dev.Keeps e₀ d) : Dev.Keeps e₀ (Dev.evalStoppedOnce d) := by
  unfold Dev.evalStoppedOnce
  try dsimp only
  repeat' first
    | with_reducible assumption
    | with_reducible apply Dev.ack_keeps
    | with_reducible apply Dev.evalLocal_keeps
    | with_reducible apply Dev.plateMarks_keeps
    | with_reducible apply Dev.plateBuffers_keeps
    | with_reducible apply Dev.updateAdm_keeps
    | with_reducible apply Dev.Keeps.ite
    | with_reducible apply Dev.Keeps.ite_snd
    | with_reducible apply Dev.Keeps.foldl
    | simp only [Dev.Keeps.keep]
    | (intro _; intros; try dsimp only)
    | dsimp only
    | (split; all_goals try dsimp only)

theorem Dev.evalStopped_keeps {e₀ d : Dev} (h : Dev.Keeps e₀ d) (n : Nat) : Dev.Keeps e₀ (Dev.evalStopped d n) := by
  induction n generalizing d with
  | zero => exact h
  | succ n ih =>
    unfold Dev.evalStopped
    dsimp only
    split
    · exact ih (Dev.evalStoppedOnce_keeps h)
    · exact Dev.evalStoppedOnce_keeps h

theorem Dev.flpEdge_keeps {e₀ d : Dev} (h : Dev.Keeps e₀ d) : Dev.Keeps e₀ (Dev.flpEdge d) := by
  unfold Dev.flpEdge
  try dsimp only
  repeat' first
    | with_reducible assumption
    | with_reducible apply Dev.evalStopped_keeps
    | with_reducible apply Dev.Keeps.ite
    | with_reducible apply Dev.Keeps.ite_snd
    | with_reducible apply Dev.Keeps.foldl
    | simp only [Dev.Keeps.keep]
    | (intro _; intros; try dsimp only)
    | dsimp only
    | (split; all_goals try dsimp only)

theorem Dev.giveSpace_keeps {e₀ d : Dev} (hk : Dev.Keeps e₀ d) (more : List (Nat × SettledCopies)) (gains : List (Nat × List Nat)) :
    Dev.Keeps e₀ (Dev.giveSpace d more gains) := by
  unfold Dev.giveSpace
  try dsimp only
  repeat' first
    | with_reducible assumption
    | with_reducible apply Dev.reserved_keeps
    | with_reducible apply Dev.Keeps.ite
    | with_reducible apply Dev.Keeps.ite_snd
    | with_reducible apply Dev.Keeps.foldl
    | simp only [Dev.Keeps.keep]
    | (intro _; intros; try dsimp only)
    | dsimp only
    | (split; all_goals try dsimp only)

theorem Dev.acceptSet_keeps {e₀ d : Dev} (hk : Dev.Keeps e₀ d) (ws : List FusedWindow) (more : List (Nat × SettledCopies)) (gains : List (Nat × List Nat)) :
    Dev.Keeps e₀ (Dev.acceptSet d ws more gains) := by
  unfold Dev.acceptSet
  try dsimp only
  repeat' first
    | with_reducible assumption
    | with_reducible apply Dev.giveSpace_keeps
    | with_reducible apply Dev.Keeps.ite
    | with_reducible apply Dev.Keeps.ite_snd
    | with_reducible apply Dev.Keeps.foldl
    | simp only [Dev.Keeps.keep]
    | (intro _; intros; try dsimp only)
    | dsimp only
    | (split; all_goals try dsimp only)

theorem Dev.putSet_keeps {e₀ d : Dev} (hk : Dev.Keeps e₀ d) (q : QSet) :
    Dev.Keeps e₀ (Dev.putSet d q) := by
  unfold Dev.putSet
  try dsimp only
  repeat' first
    | with_reducible assumption
    | with_reducible apply Dev.Keeps.ite
    | with_reducible apply Dev.Keeps.ite_snd
    | with_reducible apply Dev.Keeps.foldl
    | simp only [Dev.Keeps.keep]
    | (intro _; intros; try dsimp only)
    | dsimp only
    | (split; all_goals try dsimp only)

theorem Dev.enqueue_keeps {e₀ d : Dev} (hk : Dev.Keeps e₀ d) (q : QSet) (ws : List FusedWindow) (more : List (Nat × SettledCopies)) (gains : List (Nat × List Nat)) :
    Dev.Keeps e₀ (Dev.enqueue d q ws more gains) := by
  unfold Dev.enqueue
  try dsimp only
  repeat' first
    | with_reducible assumption
    | with_reducible apply Dev.acceptSet_keeps
    | with_reducible apply Dev.putSet_keeps
    | with_reducible apply Dev.Keeps.ite
    | with_reducible apply Dev.Keeps.ite_snd
    | with_reducible apply Dev.Keeps.foldl
    | simp only [Dev.Keeps.keep]
    | (intro _; intros; try dsimp only)
    | dsimp only
    | (split; all_goals try dsimp only)

theorem Dev.countVerdict_keeps {e₀ d : Dev} (h : Dev.Keeps e₀ d) (v : Verdict) : Dev.Keeps e₀ (Dev.countVerdict d v) := by
  unfold Dev.countVerdict
  try dsimp only
  repeat' first
    | with_reducible assumption
    | with_reducible apply Dev.count_keeps
    | with_reducible apply Dev.admRefused_keeps
    | with_reducible apply Dev.Keeps.ite
    | with_reducible apply Dev.Keeps.ite_snd
    | with_reducible apply Dev.Keeps.foldl
    | simp only [Dev.Keeps.keep]
    | (intro _; intros; try dsimp only)
    | dsimp only
    | (split; all_goals try dsimp only)

theorem Dev.rejectSet_keeps {e₀ d : Dev} (h : Dev.Keeps e₀ d) (r : Nat) (n : Nat) (op : Nat) (tag : Nat) (status : Nat) : Dev.Keeps e₀ (Dev.rejectSet d r n op tag status) := by
  unfold Dev.rejectSet
  try dsimp only
  repeat' first
    | with_reducible assumption
    | with_reducible apply Dev.freshNat_keeps
    | with_reducible apply Dev.ringReject_keeps
    | with_reducible apply Dev.Keeps.ite
    | with_reducible apply Dev.Keeps.ite_snd
    | with_reducible apply Dev.Keeps.foldl
    | simp only [Dev.Keeps.keep]
    | (intro _; intros; try dsimp only)
    | dsimp only
    | (split; all_goals try dsimp only)

theorem Dev.commitRead_keeps {e₀ d : Dev} (hk : Dev.Keeps e₀ d) (x : SetRead) :
    Dev.Keeps e₀ (Dev.commitRead d x) := by
  unfold Dev.commitRead
  try dsimp only
  repeat' first
    | with_reducible assumption
    | with_reducible apply Dev.unread_keeps
    | with_reducible apply Dev.ringTake_keeps
    | with_reducible apply Dev.putSet_keeps
    | with_reducible apply Dev.countVerdict_keeps
    | with_reducible apply Dev.freshNat_keeps
    | with_reducible apply Dev.ringReject_keeps
    | with_reducible apply Dev.mirrorCopy_keeps
    | with_reducible apply Dev.Keeps.ite
    | with_reducible apply Dev.Keeps.ite_snd
    | with_reducible apply Dev.Keeps.foldl
    | simp only [Dev.Keeps.keep]
    | (intro _; intros; try dsimp only)
    | dsimp only
    | (split; all_goals try dsimp only)

theorem Dev.plainReads_keeps {e₀ d : Dev} (hk : Dev.Keeps e₀ d) (blocks : List Nat) (bad : List Nat := []) :
    Dev.Keeps e₀ (Dev.plainReads d blocks bad) := by
  unfold Dev.plainReads
  try dsimp only
  repeat' first
    | with_reducible assumption
    | with_reducible apply Dev.memWake_keeps
    | with_reducible apply Dev.checkOwn_keeps
    | with_reducible apply Dev.logAll_keeps
    | with_reducible apply Dev.Keeps.ite
    | with_reducible apply Dev.Keeps.ite_snd
    | with_reducible apply Dev.Keeps.foldl
    | simp only [Dev.Keeps.keep]
    | (intro _; intros; try dsimp only)
    | dsimp only
    | (split; all_goals try dsimp only)

theorem Dev.ringFetch_keeps {e₀ d : Dev} (hk : Dev.Keeps e₀ d) (r skip n : Nat) :
    Dev.Keeps e₀ (Dev.ringFetch d r skip n) := by
  unfold Dev.ringFetch
  try dsimp only
  repeat' first
    | with_reducible assumption
    | with_reducible apply Dev.plainReads_keeps
    | with_reducible apply Dev.Keeps.ite
    | with_reducible apply Dev.Keeps.ite_snd
    | with_reducible apply Dev.Keeps.foldl
    | simp only [Dev.Keeps.keep]
    | (intro _; intros; try dsimp only)
    | dsimp only
    | (split; all_goals try dsimp only)

theorem Dev.fetchSet_keeps {e₀ d : Dev} (hk : Dev.Keeps e₀ d) (r : Nat) :
    Dev.Keeps e₀ (Dev.fetchSet d r) := by
  unfold Dev.fetchSet
  try dsimp only
  repeat' first
    | with_reducible assumption
    | with_reducible apply Dev.ringFetch_keeps
    | with_reducible apply Dev.Keeps.ite
    | with_reducible apply Dev.Keeps.ite_snd
    | with_reducible apply Dev.Keeps.foldl
    | simp only [Dev.Keeps.keep]
    | (intro _; intros; try dsimp only)
    | dsimp only
    | (split; all_goals try dsimp only)

theorem Dev.takeFront_keeps {e₀ d : Dev} (hk : Dev.Keeps e₀ d) (r : Nat) :
    Dev.Keeps e₀ (Dev.takeFront d r) := by
  unfold Dev.takeFront
  try dsimp only
  repeat' first
    | with_reducible assumption
    | with_reducible apply Dev.count_keeps
    | with_reducible apply Dev.flpEvent_keeps
    | with_reducible apply Dev.lullExit_keeps
    | with_reducible apply Dev.twnMirror_keeps
    | with_reducible apply Dev.acceptSet_keeps
    | with_reducible apply Dev.commitRead_keeps
    | with_reducible apply Dev.flpEdge_keeps
    | with_reducible apply Dev.rejectSet_keeps
    | with_reducible apply Dev.Keeps.ite
    | with_reducible apply Dev.Keeps.ite_snd
    | with_reducible apply Dev.Keeps.foldl
    | simp only [Dev.Keeps.keep]
    | (intro _; intros; try dsimp only)
    | dsimp only
    | (split; all_goals try dsimp only)

theorem Dev.readSet_keeps {e₀ d : Dev} (hk : Dev.Keeps e₀ d) (r : Nat) :
    Dev.Keeps e₀ (Dev.readSet d r) := by
  unfold Dev.readSet
  try dsimp only
  repeat' first
    | with_reducible assumption
    | with_reducible apply Dev.fetchSet_keeps
    | with_reducible apply Dev.takeFront_keeps
    | with_reducible apply Dev.Keeps.ite
    | with_reducible apply Dev.Keeps.ite_snd
    | with_reducible apply Dev.Keeps.foldl
    | simp only [Dev.Keeps.keep]
    | (intro _; intros; try dsimp only)
    | dsimp only
    | (split; all_goals try dsimp only)

theorem Dev.shadowChecked_keeps {e₀ d : Dev} (hk : Dev.Keeps e₀ d) (ecc : ShadowEcc) :
    Dev.Keeps e₀ (Dev.shadowChecked d ecc) := by
  unfold Dev.shadowChecked
  try dsimp only
  repeat' first
    | with_reducible assumption
    | with_reducible apply Dev.secdedCorrected_keeps
    | with_reducible apply Dev.secdedBad_keeps
    | with_reducible apply Dev.setReg_keeps
    | with_reducible apply Dev.Keeps.ite
    | with_reducible apply Dev.Keeps.ite_snd
    | with_reducible apply Dev.Keeps.foldl
    | simp only [Dev.Keeps.keep]
    | (intro _; intros; try dsimp only)
    | dsimp only
    | (split; all_goals try dsimp only)

theorem Dev.flipset_keeps {e₀ d : Dev} (hk : Dev.Keeps e₀ d) (r : Nat) (ecc : ShadowEcc) :
    Dev.Keeps e₀ (Dev.flipset d r ecc) := by
  unfold Dev.flipset
  try dsimp only
  repeat' first
    | with_reducible assumption
    | with_reducible apply Dev.shadowChecked_keeps
    | with_reducible apply Dev.readSet_keeps
    | with_reducible apply Dev.Keeps.ite
    | with_reducible apply Dev.Keeps.ite_snd
    | with_reducible apply Dev.Keeps.foldl
    | simp only [Dev.Keeps.keep]
    | (intro _; intros; try dsimp only)
    | dsimp only
    | (split; all_goals try dsimp only)

theorem Dev.fenceAdvance_keeps {e₀ d : Dev} (h : Dev.Keeps e₀ d) (f : Nat) (v : Nat) : Dev.Keeps e₀ (Dev.fenceAdvance d f v) := by
  unfold Dev.fenceAdvance
  try dsimp only
  repeat' first
    | with_reducible assumption
    | with_reducible apply Dev.flpEdge_keeps
    | with_reducible apply Dev.fenceWrite_keeps
    | with_reducible apply Dev.Keeps.ite
    | with_reducible apply Dev.Keeps.ite_snd
    | with_reducible apply Dev.Keeps.foldl
    | simp only [Dev.Keeps.keep]
    | (intro _; intros; try dsimp only)
    | dsimp only
    | (split; all_goals try dsimp only)

theorem Dev.mirrored_keeps {e₀ d : Dev} (h : Dev.Keeps e₀ d) (off : Nat) (v : Nat) (f : Dev → Dev) (hf : ∀ d, Dev.Keeps e₀ d → Dev.Keeps e₀ (f d)) : Dev.Keeps e₀ (Dev.mirrored d off v f) := by
  unfold Dev.mirrored
  try dsimp only
  repeat' first
    | with_reducible assumption
    | with_reducible apply hf
    | with_reducible apply Dev.count_keeps
    | with_reducible apply Dev.twnMirror_keeps
    | with_reducible apply Dev.Keeps.ite
    | with_reducible apply Dev.Keeps.ite_snd
    | with_reducible apply Dev.Keeps.foldl
    | simp only [Dev.Keeps.keep]
    | (intro _; intros; try dsimp only)
    | dsimp only
    | (split; all_goals try dsimp only)

theorem Dev.endWait_keeps {e₀ d : Dev} (h : Dev.Keeps e₀ d) (w : FenceWaitSt) (status : Nat) : Dev.Keeps e₀ (Dev.endWait d w status) := by
  unfold Dev.endWait
  try dsimp only
  repeat' first
    | with_reducible assumption
    | with_reducible apply Dev.mirrored_keeps
    | with_reducible apply Dev.mirrorCopy_keeps
    | with_reducible apply Dev.ringComplete_keeps
    | with_reducible apply Dev.Keeps.ite
    | with_reducible apply Dev.Keeps.ite_snd
    | with_reducible apply Dev.Keeps.foldl
    | simp only [Dev.Keeps.keep]
    | (intro _; intros; try dsimp only)
    | dsimp only
    | (split; all_goals try dsimp only)

theorem Dev.flushWaits_keeps {e₀ d : Dev} (h : Dev.Keeps e₀ d) (status : Nat) : Dev.Keeps e₀ (Dev.flushWaits d status) := by
  unfold Dev.flushWaits
  try dsimp only
  repeat' first
    | with_reducible assumption
    | with_reducible apply Dev.endWait_keeps
    | with_reducible apply Dev.Keeps.ite
    | with_reducible apply Dev.Keeps.ite_snd
    | with_reducible apply Dev.Keeps.foldl
    | simp only [Dev.Keeps.keep]
    | (intro _; intros; try dsimp only)
    | dsimp only
    | (split; all_goals try dsimp only)

theorem Dev.waitTick_keeps {e₀ d : Dev} (h : Dev.Keeps e₀ d) : Dev.Keeps e₀ (Dev.waitTick d) := by
  unfold Dev.waitTick
  try dsimp only
  repeat' first
    | with_reducible assumption
    | with_reducible apply Dev.Keeps.ite
    | with_reducible apply Dev.Keeps.ite_snd
    | with_reducible apply Dev.Keeps.foldl
    | simp only [Dev.Keeps.keep]
    | (intro _; intros; try dsimp only)
    | dsimp only
    | (split; all_goals try dsimp only)

theorem Dev.evalDecided_keeps {e₀ d : Dev} (h : Dev.Keeps e₀ d) (q : QSet) (m : Nat) (verdict : Nat) (held : Nat) : Dev.Keeps e₀ (Dev.evalDecided d q m verdict held) := by
  unfold Dev.evalDecided
  try dsimp only
  repeat' first
    | with_reducible assumption
    | with_reducible apply Dev.dropSet_keeps
    | with_reducible apply Dev.applySet_keeps
    | with_reducible apply Dev.deferSet_keeps
    | with_reducible apply Dev.Keeps.ite
    | with_reducible apply Dev.Keeps.ite_snd
    | with_reducible apply Dev.Keeps.foldl
    | simp only [Dev.Keeps.keep]
    | (intro _; intros; try dsimp only)
    | dsimp only
    | (split; all_goals try dsimp only)

theorem Dev.fenceWaitDone_keeps {e₀ d : Dev} (h : Dev.Keeps e₀ d) (r : Nat) : Dev.Keeps e₀ (Dev.fenceWaitDone d r) := by
  unfold Dev.fenceWaitDone
  try dsimp only
  repeat' first
    | with_reducible assumption
    | with_reducible apply Dev.endWait_keeps
    | with_reducible apply Dev.Keeps.ite
    | with_reducible apply Dev.Keeps.ite_snd
    | with_reducible apply Dev.Keeps.foldl
    | simp only [Dev.Keeps.keep]
    | (intro _; intros; try dsimp only)
    | dsimp only
    | (split; all_goals try dsimp only)

theorem Dev.fenceWaitTimeout_keeps {e₀ d : Dev} (h : Dev.Keeps e₀ d) (r : Nat) : Dev.Keeps e₀ (Dev.fenceWaitTimeout d r) := by
  unfold Dev.fenceWaitTimeout
  try dsimp only
  repeat' first
    | with_reducible assumption
    | with_reducible apply Dev.endWait_keeps
    | with_reducible apply Dev.Keeps.ite
    | with_reducible apply Dev.Keeps.ite_snd
    | with_reducible apply Dev.Keeps.foldl
    | simp only [Dev.Keeps.keep]
    | (intro _; intros; try dsimp only)
    | dsimp only
    | (split; all_goals try dsimp only)

theorem Dev.takeSets_keeps {e₀ d : Dev} (h : Dev.Keeps e₀ d) (m : Nat) : Dev.Keeps e₀ (Dev.takeSets d m) := by
  unfold Dev.takeSets
  try dsimp only
  repeat' first
    | with_reducible assumption
    | with_reducible apply Dev.evalDecided_keeps
    | with_reducible apply Dev.evalLocal_keeps
    | with_reducible apply Dev.raiseIf_keeps
    | with_reducible apply Dev.Keeps.ite
    | with_reducible apply Dev.Keeps.ite_snd
    | with_reducible apply Dev.Keeps.foldl
    | with_reducible apply Dev.Keeps.foldl_fst
    | simp only [Dev.Keeps.keep]
    | (intro _; intros; try dsimp only)
    | dsimp only
    | (split; all_goals try dsimp only)

theorem Dev.flpTidy_keeps {e₀ d : Dev} (h : Dev.Keeps e₀ d) (m : Nat) : Dev.Keeps e₀ (Dev.flpTidy d m) := by
  unfold Dev.flpTidy
  try dsimp only
  repeat' first
    | with_reducible assumption
    | with_reducible apply Dev.Keeps.ite
    | with_reducible apply Dev.Keeps.ite_snd
    | with_reducible apply Dev.Keeps.foldl
    | simp only [Dev.Keeps.keep]
    | (intro _; intros; try dsimp only)
    | dsimp only
    | (split; all_goals try dsimp only)

theorem Dev.submitResume_keeps {e₀ d : Dev} (hk : Dev.Keeps e₀ d) (ecc : ShadowEcc) :
    Dev.Keeps e₀ (Dev.submitResume d ecc) := by
  unfold Dev.submitResume
  try dsimp only
  repeat' first
    | with_reducible assumption
    | with_reducible apply Dev.count_keeps
    | with_reducible apply Dev.shadowChecked_keeps
    | with_reducible apply Dev.readSet_keeps
    | with_reducible apply Dev.Keeps.ite
    | with_reducible apply Dev.Keeps.ite_snd
    | with_reducible apply Dev.Keeps.foldl
    | simp only [Dev.Keeps.keep]
    | (intro _; intros; try dsimp only)
    | dsimp only
    | (split; all_goals try dsimp only)

theorem Dev.fenceWait_keeps {e₀ d : Dev} (h : Dev.Keeps e₀ d) (r : Nat) : Dev.Keeps e₀ (Dev.fenceWait d r) := by
  unfold Dev.fenceWait
  try dsimp only
  repeat' first
    | with_reducible assumption
    | with_reducible apply Dev.ringFetch_keeps
    | with_reducible apply Dev.twnMirror_keeps
    | with_reducible apply Dev.rejectSet_keeps
    | with_reducible apply Dev.mirrorCopy_keeps
    | with_reducible apply Dev.ringTake_keeps
    | with_reducible apply Dev.Keeps.ite
    | with_reducible apply Dev.Keeps.ite_snd
    | with_reducible apply Dev.Keeps.foldl
    | simp only [Dev.Keeps.keep]
    | (intro _; intros; try dsimp only)
    | dsimp only
    | (split; all_goals try dsimp only)

theorem Dev.hostFence_keeps {e₀ d : Dev} (h : Dev.Keeps e₀ d) (f : Nat) (v : Nat) : Dev.Keeps e₀ (Dev.hostFence d f v) := by
  unfold Dev.hostFence
  try dsimp only
  repeat' first
    | with_reducible assumption
    | with_reducible apply Dev.fenceAdvance_keeps
    | with_reducible apply Dev.refuse_keeps
    | with_reducible apply Dev.Keeps.ite
    | with_reducible apply Dev.Keeps.ite_snd
    | with_reducible apply Dev.Keeps.foldl
    | simp only [Dev.Keeps.keep]
    | (intro _; intros; try dsimp only)
    | dsimp only
    | (split; all_goals try dsimp only)

theorem Dev.bufferRelease_keeps {e₀ d : Dev} (h : Dev.Keeps e₀ d) : Dev.Keeps e₀ (Dev.bufferRelease d) := by
  unfold Dev.bufferRelease
  try dsimp only
  repeat' first
    | with_reducible assumption
    | with_reducible apply Dev.trkReleased_keeps
    | with_reducible apply Dev.releaseFence_keeps
    | with_reducible apply Dev.Keeps.ite
    | with_reducible apply Dev.Keeps.ite_snd
    | with_reducible apply Dev.Keeps.foldl
    | simp only [Dev.Keeps.keep]
    | (intro _; intros; try dsimp only)
    | dsimp only
    | (split; all_goals try dsimp only)

end Sys2Proof.Machine
end

