-- ==== Sys2Proof/Laws/KeepsBlit.lean ====
section
/-! SUPPORT. Blit. -/

set_option linter.unusedTactic false
set_option linter.unreachableTactic false
set_option linter.unusedVariables false
set_option linter.unusedSimpArgs false

namespace Sys2Proof.Machine

theorem Dev.blitEnd_keeps {e₀ d : Dev} (h : Dev.Keeps e₀ d) (h : BlitHead) (status : Nat) (detail : Nat) : Dev.Keeps e₀ (Dev.blitEnd d h status detail) := by
  unfold Dev.blitEnd
  try dsimp only
  repeat' first
    | with_reducible assumption
    | with_reducible apply Dev.ringComplete_keeps
    | with_reducible apply Dev.count_keeps
    | with_reducible apply Dev.Keeps.ite
    | with_reducible apply Dev.Keeps.ite_snd
    | with_reducible apply Dev.Keeps.foldl
    | simp only [Dev.Keeps.keep]
    | (intro _; intros; try dsimp only)
    | dsimp only
    | (split; all_goals try dsimp only)

theorem Dev.setBlt_keeps {e₀ d : Dev} (h : Dev.Keeps e₀ d) (x : Blt) : Dev.Keeps e₀ (Dev.setBlt d x) := by
  unfold Dev.setBlt
  try dsimp only
  repeat' first
    | with_reducible assumption
    | with_reducible apply Dev.Keeps.ite
    | with_reducible apply Dev.Keeps.ite_snd
    | with_reducible apply Dev.Keeps.foldl
    | simp only [Dev.Keeps.keep]
    | (intro _; intros; try dsimp only)
    | dsimp only
    | (split; all_goals try dsimp only)

theorem Dev.bltShow_keeps {e₀ d : Dev} (h : Dev.Keeps e₀ d) : Dev.Keeps e₀ (Dev.bltShow d) := by
  unfold Dev.bltShow
  try dsimp only
  repeat' first
    | with_reducible assumption
    | with_reducible apply Dev.setFld_keeps
    | with_reducible apply Dev.Keeps.ite
    | with_reducible apply Dev.Keeps.ite_snd
    | with_reducible apply Dev.Keeps.foldl
    | simp only [Dev.Keeps.keep]
    | (intro _; intros; try dsimp only)
    | dsimp only
    | (split; all_goals try dsimp only)

theorem Dev.blitRead_keeps {e₀ d : Dev} (h : Dev.Keeps e₀ d) (r : Nat) : Dev.Keeps e₀ (Dev.blitRead d r) := by
  unfold Dev.blitRead
  try dsimp only
  repeat' first
    | with_reducible assumption
    | with_reducible apply Dev.ringFetch_keeps
    | with_reducible apply Dev.ringTake_keeps
    | with_reducible apply Dev.blitEnd_keeps
    | with_reducible apply Dev.setBlt_keeps
    | with_reducible apply Dev.bltShow_keeps
    | with_reducible apply Dev.Keeps.ite
    | with_reducible apply Dev.Keeps.ite_snd
    | with_reducible apply Dev.Keeps.foldl
    | simp only [Dev.Keeps.keep]
    | (intro _; intros; try dsimp only)
    | dsimp only
    | (split; all_goals try dsimp only)

theorem Dev.blitPut_keeps {e₀ d : Dev} (hk : Dev.Keeps e₀ d) (b : BlitD) (bad : List Nat) (run : Nat × List (Byte × Bool)) :
    Dev.Keeps e₀ (Dev.blitPut d b bad run) := by
  unfold Dev.blitPut
  try dsimp only
  repeat' first
    | with_reducible assumption
    | with_reducible apply Dev.hostPut_keeps
    | with_reducible apply Dev.setDamaged_keeps
    | with_reducible apply Dev.memStore_keeps
    | with_reducible apply Dev.Keeps.ite
    | with_reducible apply Dev.Keeps.ite_snd
    | with_reducible apply Dev.Keeps.foldl
    | with_reducible apply Dev.Keeps.foldl_fst
    | simp only [Dev.Keeps.keep]
    | (intro _; intros; try dsimp only)
    | dsimp only
    | (split; all_goals try dsimp only)

theorem Dev.blitTimeout_keeps {e₀ d : Dev} (h : Dev.Keeps e₀ d) (r : Nat) : Dev.Keeps e₀ (Dev.blitTimeout d r) := by
  unfold Dev.blitTimeout
  try dsimp only
  repeat' first
    | with_reducible assumption
    | with_reducible apply Dev.setBlt_keeps
    | with_reducible apply Dev.bltShow_keeps
    | with_reducible apply Dev.raise_keeps
    | with_reducible apply Dev.setFlag_keeps
    | with_reducible apply Dev.blitEnd_keeps
    | with_reducible apply Dev.Keeps.ite
    | with_reducible apply Dev.Keeps.ite_snd
    | with_reducible apply Dev.Keeps.foldl
    | simp only [Dev.Keeps.keep]
    | (intro _; intros; try dsimp only)
    | dsimp only
    | (split; all_goals try dsimp only)

theorem Dev.blitOp_keeps {e₀ d : Dev} (h : Dev.Keeps e₀ d) (r : Nat) (op : Nat) : Dev.Keeps e₀ (Dev.blitOp d r op) := by
  unfold Dev.blitOp
  try dsimp only
  repeat' first
    | with_reducible assumption
    | with_reducible apply Dev.blitRead_keeps
    | with_reducible apply Dev.Keeps.ite
    | with_reducible apply Dev.Keeps.ite_snd
    | with_reducible apply Dev.Keeps.foldl
    | simp only [Dev.Keeps.keep]
    | (intro _; intros; try dsimp only)
    | dsimp only
    | (split; all_goals try dsimp only)

theorem Dev.bltBytes_keeps {e₀ d : Dev} (h : Dev.Keeps e₀ d) (n : Nat) : Dev.Keeps e₀ (Dev.bltBytes d n) := by
  unfold Dev.bltBytes
  try dsimp only
  repeat' first
    | with_reducible assumption
    | with_reducible apply Dev.setBlt_keeps
    | with_reducible apply Dev.setReg_keeps
    | with_reducible apply Dev.Keeps.ite
    | with_reducible apply Dev.Keeps.ite_snd
    | with_reducible apply Dev.Keeps.foldl
    | simp only [Dev.Keeps.keep]
    | (intro _; intros; try dsimp only)
    | dsimp only
    | (split; all_goals try dsimp only)

theorem Dev.haltedNow_keeps {e₀ d : Dev} (h : Dev.Keeps e₀ d) : Dev.Keeps e₀ (Dev.haltedNow d) := by
  unfold Dev.haltedNow
  try dsimp only
  repeat' first
    | with_reducible assumption
    | with_reducible apply Dev.raise_keeps
    | with_reducible apply Dev.setFlag_keeps
    | with_reducible apply Dev.Keeps.ite
    | with_reducible apply Dev.Keeps.ite_snd
    | with_reducible apply Dev.Keeps.foldl
    | simp only [Dev.Keeps.keep]
    | (intro _; intros; try dsimp only)
    | dsimp only
    | (split; all_goals try dsimp only)

theorem Dev.blitLand_keeps {e₀ d : Dev} (hk : Dev.Keeps e₀ d) (r : BlitRun) (b : BlitD) (lo hi : Nat) (bad : List Nat) :
    Dev.Keeps e₀ (Dev.blitLand d r b lo hi bad) := by
  unfold Dev.blitLand
  try dsimp only
  repeat' first
    | with_reducible assumption
    | with_reducible apply Dev.blitPut_keeps
    | with_reducible apply Dev.bltBytes_keeps
    | with_reducible apply Dev.Keeps.ite
    | with_reducible apply Dev.Keeps.ite_snd
    | with_reducible apply Dev.Keeps.foldl
    | simp only [Dev.Keeps.keep]
    | (intro _; intros; try dsimp only)
    | dsimp only
    | (split; all_goals try dsimp only)

theorem Dev.blitMark_keeps {e₀ d : Dev} (h : Dev.Keeps e₀ d) (b : BlitD) : Dev.Keeps e₀ (Dev.blitMark d b) := by
  unfold Dev.blitMark
  try dsimp only
  repeat' first
    | with_reducible assumption
    | with_reducible apply Dev.fenceAdvance_keeps
    | with_reducible apply Dev.raiseIf_keeps
    | with_reducible apply Dev.Keeps.ite
    | with_reducible apply Dev.Keeps.ite_snd
    | with_reducible apply Dev.Keeps.foldl
    | simp only [Dev.Keeps.keep]
    | (intro _; intros; try dsimp only)
    | dsimp only
    | (split; all_goals try dsimp only)

theorem Dev.blitWake_keeps {e₀ d : Dev} (hk : Dev.Keeps e₀ d) (r : BlitRun) (b : BlitD) (lo hi : Nat) :
    Dev.Keeps e₀ (Dev.blitWake d r b lo hi) := by
  unfold Dev.blitWake
  try dsimp only
  repeat' first
    | with_reducible assumption
    | with_reducible apply Dev.memWake_keeps
    | with_reducible apply Dev.Keeps.ite
    | with_reducible apply Dev.Keeps.ite_snd
    | with_reducible apply Dev.Keeps.foldl
    | simp only [Dev.Keeps.keep]
    | (intro _; intros; try dsimp only)
    | dsimp only
    | (split; all_goals try dsimp only)

theorem Dev.orphanReader_keeps {e₀ d : Dev} (hk : Dev.Keeps e₀ d) (reader : Nat) :
    Dev.Keeps e₀ (Dev.orphanReader d reader) := by
  unfold Dev.orphanReader
  try dsimp only
  repeat' first
    | with_reducible assumption
    | with_reducible apply Dev.Keeps.ite
    | with_reducible apply Dev.Keeps.ite_snd
    | with_reducible apply Dev.Keeps.foldl
    | simp only [Dev.Keeps.keep]
    | (intro _; intros; try dsimp only)
    | dsimp only
    | (split; all_goals try dsimp only)

theorem Dev.blitPoisoned_keeps {e₀ d : Dev} (hk : Dev.Keeps e₀ d) (r : BlitRun) :
    Dev.Keeps e₀ (Dev.blitPoisoned d r) := by
  unfold Dev.blitPoisoned
  try dsimp only
  repeat' first
    | with_reducible assumption
    | with_reducible apply Dev.count_keeps
    | with_reducible apply Dev.setFlag_keeps
    | with_reducible apply Dev.raise_keeps
    | with_reducible apply Dev.Keeps.ite
    | with_reducible apply Dev.Keeps.ite_snd
    | with_reducible apply Dev.Keeps.foldl
    | simp only [Dev.Keeps.keep]
    | (intro _; intros; try dsimp only)
    | dsimp only
    | (split; all_goals try dsimp only)

theorem Dev.blitAbort_keeps {e₀ d : Dev} (h : Dev.Keeps e₀ d) : Dev.Keeps e₀ (Dev.blitAbort d) := by
  unfold Dev.blitAbort
  try dsimp only
  repeat' first
    | with_reducible assumption
    | with_reducible apply Dev.freshNat_keeps
    | with_reducible apply Dev.blitWake_keeps
    | with_reducible apply Dev.blitLand_keeps
    | with_reducible apply Dev.blitMark_keeps
    | with_reducible apply Dev.setBlt_keeps
    | with_reducible apply Dev.orphanReader_keeps
    | with_reducible apply Dev.blitEnd_keeps
    | with_reducible apply Dev.blitPoisoned_keeps
    | with_reducible apply Dev.haltedNow_keeps
    | with_reducible apply Dev.bltShow_keeps
    | with_reducible apply Dev.Keeps.ite
    | with_reducible apply Dev.Keeps.ite_snd
    | with_reducible apply Dev.Keeps.foldl
    | simp only [Dev.Keeps.keep]
    | (intro _; intros; try dsimp only)
    | dsimp only
    | (split; all_goals try dsimp only)

theorem Dev.blitFlush_keeps {e₀ d : Dev} (h : Dev.Keeps e₀ d) : Dev.Keeps e₀ (Dev.blitFlush d) := by
  unfold Dev.blitFlush
  try dsimp only
  repeat' first
    | with_reducible assumption
    | with_reducible apply Dev.blitAbort_keeps
    | with_reducible apply Dev.setBlt_keeps
    | with_reducible apply Dev.bltShow_keeps
    | with_reducible apply Dev.blitEnd_keeps
    | with_reducible apply Dev.Keeps.ite
    | with_reducible apply Dev.Keeps.ite_snd
    | with_reducible apply Dev.Keeps.foldl
    | simp only [Dev.Keeps.keep]
    | (intro _; intros; try dsimp only)
    | dsimp only
    | (split; all_goals try dsimp only)

theorem Dev.blitDoze_keeps {e₀ d : Dev} (h : Dev.Keeps e₀ d) : Dev.Keeps e₀ (Dev.blitDoze d) := by
  unfold Dev.blitDoze
  try dsimp only
  repeat' first
    | with_reducible assumption
    | with_reducible apply Dev.blitAbort_keeps
    | with_reducible apply Dev.setBlt_keeps
    | with_reducible apply Dev.bltShow_keeps
    | with_reducible apply Dev.blitEnd_keeps
    | with_reducible apply Dev.Keeps.ite
    | with_reducible apply Dev.Keeps.ite_snd
    | with_reducible apply Dev.Keeps.foldl
    | simp only [Dev.Keeps.keep]
    | (intro _; intros; try dsimp only)
    | dsimp only
    | (split; all_goals try dsimp only)

theorem Dev.plainLadders_keeps {e₀ d : Dev} (h : Dev.Keeps e₀ d) (reader : Nat) (fails : List Nat) : Dev.Keeps e₀ (Dev.plainLadders d reader fails) := by
  unfold Dev.plainLadders
  try dsimp only
  repeat' first
    | with_reducible assumption
    | with_reducible apply Dev.blockFailed_keeps
    | with_reducible apply Dev.Keeps.ite
    | with_reducible apply Dev.Keeps.ite_snd
    | with_reducible apply Dev.Keeps.foldl
    | simp only [Dev.Keeps.keep]
    | (intro _; intros; try dsimp only)
    | dsimp only
    | (split; all_goals try dsimp only)

theorem Dev.blitMayRead_keeps {e₀ d : Dev} (hk : Dev.Keeps e₀ d) (r : BlitRun) (b : BlitD) (lo hi : Nat) (bad : List Nat) :
    Dev.Keeps e₀ (Dev.blitMayRead d r b lo hi bad).2 := by
  unfold Dev.blitMayRead
  try dsimp only
  repeat' first
    | with_reducible assumption
    | with_reducible apply Dev.blitWake_keeps
    | with_reducible apply Dev.plainLadders_keeps
    | with_reducible apply Dev.setBlt_keeps
    | with_reducible apply Dev.Keeps.ite
    | with_reducible apply Dev.Keeps.ite_snd
    | with_reducible apply Dev.Keeps.foldl
    | simp only [Dev.Keeps.keep]
    | (intro _; intros; try dsimp only)
    | dsimp only
    | (split; all_goals try dsimp only)

theorem Dev.blitComplete_keeps {e₀ d : Dev} (h : Dev.Keeps e₀ d) (bad : List Nat) : Dev.Keeps e₀ (Dev.blitComplete d bad) := by
  unfold Dev.blitComplete
  try dsimp only
  repeat' first
    | with_reducible assumption
    | with_reducible apply Dev.blitMayRead_keeps
    | with_reducible apply Dev.blitLand_keeps
    | with_reducible apply Dev.setBlt_keeps
    | with_reducible apply Dev.blitMark_keeps
    | with_reducible apply Dev.fenceAdvance_keeps
    | with_reducible apply Dev.blitEnd_keeps
    | with_reducible apply Dev.blitPoisoned_keeps
    | with_reducible apply Dev.haltedNow_keeps
    | with_reducible apply Dev.bltShow_keeps
    | with_reducible apply Dev.Keeps.ite
    | with_reducible apply Dev.Keeps.ite_snd
    | with_reducible apply Dev.Keeps.foldl
    | simp only [Dev.Keeps.keep]
    | (intro _; intros; try dsimp only)
    | dsimp only
    | (split; all_goals try dsimp only)

theorem Dev.blitStart_keeps {e₀ d : Dev} (h : Dev.Keeps e₀ d) : Dev.Keeps e₀ (Dev.blitStart d) := by
  unfold Dev.blitStart
  try dsimp only
  repeat' first
    | with_reducible assumption
    | with_reducible apply Dev.setBlt_keeps
    | with_reducible apply Dev.blitEnd_keeps
    | with_reducible apply Dev.count_keeps
    | with_reducible apply Dev.bltShow_keeps
    | with_reducible apply Dev.Keeps.ite
    | with_reducible apply Dev.Keeps.ite_snd
    | with_reducible apply Dev.Keeps.foldl
    | simp only [Dev.Keeps.keep]
    | (intro _; intros; try dsimp only)
    | dsimp only
    | (split; all_goals try dsimp only)

theorem Dev.writeBltCtrl_keeps {e₀ d : Dev} (h : Dev.Keeps e₀ d) (v : Nat) : Dev.Keeps e₀ (Dev.writeBltCtrl d v) := by
  unfold Dev.writeBltCtrl
  try dsimp only
  repeat' first
    | with_reducible assumption
    | with_reducible apply Dev.bltShow_keeps
    | with_reducible apply Dev.haltedNow_keeps
    | with_reducible apply Dev.genericWrite_keeps
    | with_reducible apply Dev.Keeps.ite
    | with_reducible apply Dev.Keeps.ite_snd
    | with_reducible apply Dev.Keeps.foldl
    | simp only [Dev.Keeps.keep]
    | (intro _; intros; try dsimp only)
    | dsimp only
    | (split; all_goals try dsimp only)

theorem Dev.watermark_keeps {e₀ d : Dev} (h : Dev.Keeps e₀ d) (bad : List Nat) : Dev.Keeps e₀ (Dev.watermark d bad) := by
  unfold Dev.watermark
  try dsimp only
  repeat' first
    | with_reducible assumption
    | with_reducible apply Dev.blitMayRead_keeps
    | with_reducible apply Dev.blitLand_keeps
    | with_reducible apply Dev.setBlt_keeps
    | with_reducible apply Dev.blitMark_keeps
    | with_reducible apply Dev.Keeps.ite
    | with_reducible apply Dev.Keeps.ite_snd
    | with_reducible apply Dev.Keeps.foldl
    | simp only [Dev.Keeps.keep]
    | (intro _; intros; try dsimp only)
    | dsimp only
    | (split; all_goals try dsimp only)

theorem Dev.bounceDone_keeps {e₀ d : Dev} (h : Dev.Keeps e₀ d) (bad : List Nat) : Dev.Keeps e₀ (Dev.bounceDone d bad) := by
  unfold Dev.bounceDone
  try dsimp only
  repeat' first
    | with_reducible assumption
    | with_reducible apply Dev.blitMayRead_keeps
    | with_reducible apply Dev.setBlt_keeps
    | with_reducible apply Dev.bltShow_keeps
    | with_reducible apply Dev.Keeps.ite
    | with_reducible apply Dev.Keeps.ite_snd
    | with_reducible apply Dev.Keeps.foldl
    | simp only [Dev.Keeps.keep]
    | (intro _; intros; try dsimp only)
    | dsimp only
    | (split; all_goals try dsimp only)

end Sys2Proof.Machine
end

