-- ==== Sys2Proof/Laws/KeepsCoach.lean ====
section
/-! SUPPORT. Coach. -/

set_option linter.unusedTactic false
set_option linter.unreachableTactic false
set_option linter.unusedVariables false
set_option linter.unusedSimpArgs false

namespace Sys2Proof.Machine

theorem Dev.onCoach_keeps {e₀ d : Dev} (h : Dev.Keeps e₀ d) (p : Nat) (key : Nat) (f : Dev → Dev) (hf : ∀ d, Dev.Keeps e₀ d → Dev.Keeps e₀ (f d)) : Dev.Keeps e₀ (Dev.onCoach d p key f) := by
  unfold Dev.onCoach
  try dsimp only
  repeat' first
    | with_reducible assumption
    | with_reducible apply hf
    | with_reducible apply Dev.onWrite_keeps
    | with_reducible apply Dev.Keeps.ite
    | with_reducible apply Dev.Keeps.ite_snd
    | with_reducible apply Dev.Keeps.foldl
    | simp only [Dev.Keeps.keep]
    | (intro _; intros; try dsimp only)
    | dsimp only
    | (split; all_goals try dsimp only)

theorem Dev.commitApply_keeps {e₀ d : Dev} (h : Dev.Keeps e₀ d) (p : Nat) (eff : Nat) : Dev.Keeps e₀ (Dev.commitApply d p eff) := by
  unfold Dev.commitApply
  try dsimp only
  repeat' first
    | with_reducible assumption
    | with_reducible apply Dev.setReg_keeps
    | with_reducible apply Dev.setCoach_keeps
    | with_reducible apply Dev.controlWritten_keeps
    | with_reducible apply Dev.count_keeps
    | with_reducible apply Dev.setFld_keeps
    | with_reducible apply Dev.Keeps.ite
    | with_reducible apply Dev.Keeps.ite_snd
    | with_reducible apply Dev.Keeps.foldl
    | simp only [Dev.Keeps.keep]
    | (intro _; intros; try dsimp only)
    | dsimp only
    | (split; all_goals try dsimp only)

theorem Dev.writeCommit_keeps {e₀ d : Dev} (hk : Dev.Keeps e₀ d) (p v : Nat) (ecc : ShadowEcc) :
    Dev.Keeps e₀ (Dev.writeCommit d p v ecc) := by
  unfold Dev.writeCommit
  try dsimp only
  repeat' first
    | with_reducible assumption
    | with_reducible apply Dev.genericWrite_keeps
    | with_reducible apply Dev.shadowChecked_keeps
    | with_reducible apply Dev.admRefused_keeps
    | with_reducible apply Dev.refuse_keeps
    | with_reducible apply Dev.setCoach_keeps
    | with_reducible apply Dev.setFld_keeps
    | with_reducible apply Dev.lullExit_keeps
    | with_reducible apply Dev.commitApply_keeps
    | with_reducible apply Dev.updateAdm_keeps
    | with_reducible apply Dev.Keeps.ite
    | with_reducible apply Dev.Keeps.ite_snd
    | with_reducible apply Dev.Keeps.foldl
    | simp only [Dev.Keeps.keep]
    | (intro _; intros; try dsimp only)
    | dsimp only
    | (split; all_goals try dsimp only)

theorem Dev.coachBegin_keeps {e₀ d : Dev} (h : Dev.Keeps e₀ d) (p : Nat) (r : StrokeRun) (ss : List Stop) : Dev.Keeps e₀ (Dev.coachBegin d p r ss) := by
  unfold Dev.coachBegin
  try dsimp only
  repeat' first
    | with_reducible assumption
    | with_reducible apply Dev.setCoach_keeps
    | with_reducible apply Dev.Keeps.ite
    | with_reducible apply Dev.Keeps.ite_snd
    | with_reducible apply Dev.Keeps.foldl
    | simp only [Dev.Keeps.keep]
    | (intro _; intros; try dsimp only)
    | dsimp only
    | (split; all_goals try dsimp only)

theorem Dev.coachSource_keeps {e₀ d : Dev} (h : Dev.Keeps e₀ d) (p : Nat) (k : Nat) : Dev.Keeps e₀ (Dev.coachSource d p k) := by
  unfold Dev.coachSource
  try dsimp only
  repeat' first
    | with_reducible assumption
    | with_reducible apply Dev.raise_keeps
    | with_reducible apply Dev.Keeps.ite
    | with_reducible apply Dev.Keeps.ite_snd
    | with_reducible apply Dev.Keeps.foldl
    | simp only [Dev.Keeps.keep]
    | (intro _; intros; try dsimp only)
    | dsimp only
    | (split; all_goals try dsimp only)

theorem Dev.publishSlack_keeps {e₀ d : Dev} (h : Dev.Keeps e₀ d) (p : Nat) (ns : Nat) : Dev.Keeps e₀ (Dev.publishSlack d p ns) := by
  unfold Dev.publishSlack
  try dsimp only
  repeat' first
    | with_reducible assumption
    | with_reducible apply Dev.setReg_keeps
    | with_reducible apply Dev.coachSource_keeps
    | with_reducible apply Dev.count_keeps
    | with_reducible apply Dev.setFlag_keeps
    | with_reducible apply Dev.Keeps.ite
    | with_reducible apply Dev.Keeps.ite_snd
    | with_reducible apply Dev.Keeps.foldl
    | simp only [Dev.Keeps.keep]
    | (intro _; intros; try dsimp only)
    | dsimp only
    | (split; all_goals try dsimp only)

theorem Dev.writeChainId_keeps {e₀ d : Dev} (h : Dev.Keeps e₀ d) (p : Nat) (v : Nat) : Dev.Keeps e₀ (Dev.writeChainId d p v) := by
  unfold Dev.writeChainId
  try dsimp only
  repeat' first
    | with_reducible assumption
    | with_reducible apply Dev.refuse_keeps
    | with_reducible apply Dev.genericWrite_keeps
    | with_reducible apply Dev.Keeps.ite
    | with_reducible apply Dev.Keeps.ite_snd
    | with_reducible apply Dev.Keeps.foldl
    | simp only [Dev.Keeps.keep]
    | (intro _; intros; try dsimp only)
    | dsimp only
    | (split; all_goals try dsimp only)

theorem Dev.commitDrop_keeps {e₀ d : Dev} (h : Dev.Keeps e₀ d) (p : Nat) : Dev.Keeps e₀ (Dev.commitDrop d p) := by
  unfold Dev.commitDrop
  try dsimp only
  repeat' first
    | with_reducible assumption
    | with_reducible apply Dev.setCoach_keeps
    | with_reducible apply Dev.refuse_keeps
    | with_reducible apply Dev.setFld_keeps
    | with_reducible apply Dev.Keeps.ite
    | with_reducible apply Dev.Keeps.ite_snd
    | with_reducible apply Dev.Keeps.foldl
    | simp only [Dev.Keeps.keep]
    | (intro _; intros; try dsimp only)
    | dsimp only
    | (split; all_goals try dsimp only)

theorem Dev.underrun_keeps {e₀ d : Dev} (h : Dev.Keeps e₀ d) (p : Nat) (stroke : Nat) (q : Parcel) : Dev.Keeps e₀ (Dev.underrun d p stroke q) := by
  unfold Dev.underrun
  try dsimp only
  repeat' first
    | with_reducible assumption
    | with_reducible apply Dev.setCoach_keeps
    | with_reducible apply Dev.mapParcel_keeps
    | with_reducible apply Dev.count_keeps
    | with_reducible apply Dev.coachSource_keeps
    | with_reducible apply Dev.setFlag_keeps
    | with_reducible apply Dev.Keeps.ite
    | with_reducible apply Dev.Keeps.ite_snd
    | with_reducible apply Dev.Keeps.foldl
    | simp only [Dev.Keeps.keep]
    | (intro _; intros; try dsimp only)
    | dsimp only
    | (split; all_goals try dsimp only)

theorem Dev.coachBytes_keeps {e₀ d : Dev} (hk : Dev.Keeps e₀ d) (p : Nat) (bs : List Byte) :
    Dev.Keeps e₀ (Dev.coachBytes d p bs) := by
  unfold Dev.coachBytes
  try dsimp only
  repeat' first
    | with_reducible assumption
    | with_reducible apply Dev.freshNat_keeps
    | with_reducible apply Dev.setCoach_keeps
    | with_reducible apply Dev.sendLevels_keeps
    | with_reducible apply Dev.Keeps.ite
    | with_reducible apply Dev.Keeps.ite_snd
    | with_reducible apply Dev.Keeps.foldl
    | with_reducible apply Dev.Keeps.foldl_fst
    | simp only [Dev.Keeps.keep]
    | (intro _; intros; try dsimp only)
    | dsimp only
    | (split; all_goals try dsimp only)

theorem Dev.coachFrame_keeps {e₀ d : Dev} (h : Dev.Keeps e₀ d) (p : Nat) (type_ : Nat) (flags : Nat) (stop : Nat) (depth : Nat) (stroke : Nat) (line : Nat) (x : Nat) (count : Nat) (payload : List Byte) : Dev.Keeps e₀ (Dev.coachFrame d p type_ flags stop depth stroke line x count payload) := by
  unfold Dev.coachFrame
  try dsimp only
  repeat' first
    | with_reducible assumption
    | with_reducible apply Dev.setCoach_keeps
    | with_reducible apply Dev.count_keeps
    | with_reducible apply Dev.emit_keeps
    | with_reducible apply Dev.coachBytes_keeps
    | with_reducible apply Dev.Keeps.ite
    | with_reducible apply Dev.Keeps.ite_snd
    | with_reducible apply Dev.Keeps.foldl
    | simp only [Dev.Keeps.keep]
    | (intro _; intros; try dsimp only)
    | dsimp only
    | (split; all_goals try dsimp only)

theorem Dev.witnessEnd_keeps {e₀ d : Dev} (h : Dev.Keeps e₀ d) (p : Nat) (stroke : Nat) (c : Coach) (w : Nat × Nat × Nat × Nat) : Dev.Keeps e₀ (Dev.witnessEnd d p stroke c w) := by
  unfold Dev.witnessEnd
  try dsimp only
  repeat' first
    | with_reducible assumption
    | with_reducible apply Dev.count_keeps
    | with_reducible apply Dev.setFlag_keeps
    | with_reducible apply Dev.setReg_keeps
    | with_reducible apply Dev.coachSource_keeps
    | with_reducible apply Dev.Keeps.ite
    | with_reducible apply Dev.Keeps.ite_snd
    | with_reducible apply Dev.Keeps.foldl
    | simp only [Dev.Keeps.keep]
    | (intro _; intros; try dsimp only)
    | dsimp only
    | (split; all_goals try dsimp only)

theorem Dev.coachForward_keeps {e₀ d : Dev} (h : Dev.Keeps e₀ d) (p : Nat) (r : StrokeRun) (s : Stop) (n : Nat) : Dev.Keeps e₀ (Dev.coachForward d p r s n) := by
  unfold Dev.coachForward
  try dsimp only
  repeat' first
    | with_reducible assumption
    | with_reducible apply Dev.setCoach_keeps
    | with_reducible apply Dev.witnessEnd_keeps
    | with_reducible apply Dev.Keeps.ite
    | with_reducible apply Dev.Keeps.ite_snd
    | with_reducible apply Dev.Keeps.foldl
    | simp only [Dev.Keeps.keep]
    | (intro _; intros; try dsimp only)
    | dsimp only
    | (split; all_goals try dsimp only)

theorem Dev.sendMissing_keeps {e₀ d : Dev} (h : Dev.Keeps e₀ d) (p : Nat) (r : StrokeRun) (s : Stop) (g : Segment) : Dev.Keeps e₀ (Dev.sendMissing d p r s g) := by
  unfold Dev.sendMissing
  try dsimp only
  repeat' first
    | with_reducible assumption
    | with_reducible apply Dev.underrun_keeps
    | with_reducible apply Dev.count_keeps
    | with_reducible apply Dev.coachFrame_keeps
    | with_reducible apply Dev.coachForward_keeps
    | with_reducible apply Dev.setCoach_keeps
    | with_reducible apply Dev.Keeps.ite
    | with_reducible apply Dev.Keeps.ite_snd
    | with_reducible apply Dev.Keeps.foldl
    | simp only [Dev.Keeps.keep]
    | (intro _; intros; try dsimp only)
    | dsimp only
    | (split; all_goals try dsimp only)

theorem Dev.sendRun_keeps {e₀ d : Dev} (h : Dev.Keeps e₀ d) (p : Nat) (r : StrokeRun) (s : Stop) (gs : List Segment) : Dev.Keeps e₀ (Dev.sendRun d p r s gs) := by
  unfold Dev.sendRun
  try dsimp only
  repeat' first
    | with_reducible assumption
    | with_reducible apply Dev.coachFrame_keeps
    | with_reducible apply Dev.setCoach_keeps
    | with_reducible apply Dev.mapParcel_keeps
    | with_reducible apply Dev.coachForward_keeps
    | with_reducible apply Dev.Keeps.ite
    | with_reducible apply Dev.Keeps.ite_snd
    | with_reducible apply Dev.Keeps.foldl
    | simp only [Dev.Keeps.keep]
    | (intro _; intros; try dsimp only)
    | dsimp only
    | (split; all_goals try dsimp only)

theorem Dev.packerLadder_keeps {e₀ d : Dev} (h : Dev.Keeps e₀ d) (p : Nat) (r : StrokeRun) (g : Segment) (b : Nat) : Dev.Keeps e₀ (Dev.packerLadder d p r g b) := by
  unfold Dev.packerLadder
  try dsimp only
  repeat' first
    | with_reducible assumption
    | with_reducible apply Dev.count_keeps
    | with_reducible apply Dev.blockFailed_keeps
    | with_reducible apply Dev.Keeps.ite
    | with_reducible apply Dev.Keeps.ite_snd
    | with_reducible apply Dev.Keeps.foldl
    | simp only [Dev.Keeps.keep]
    | (intro _; intros; try dsimp only)
    | dsimp only
    | (split; all_goals try dsimp only)

theorem Dev.recordLost_keeps {e₀ d : Dev} (hk : Dev.Keeps e₀ d) (p : Nat) (r : StrokeRun) (q : Parcel) :
    Dev.Keeps e₀ (Dev.recordLost d p r q) := by
  unfold Dev.recordLost
  try dsimp only
  repeat' first
    | with_reducible assumption
    | with_reducible apply Dev.reservedLost_keeps
    | with_reducible apply Dev.mapParcel_keeps
    | with_reducible apply Dev.addJob_keeps
    | with_reducible apply Dev.record_keeps
    | with_reducible apply Dev.Keeps.ite
    | with_reducible apply Dev.Keeps.ite_snd
    | with_reducible apply Dev.Keeps.foldl
    | simp only [Dev.Keeps.keep]
    | (intro _; intros; try dsimp only)
    | dsimp only
    | (split; all_goals try dsimp only)

theorem Dev.packerRead_keeps {e₀ d : Dev} (hk : Dev.Keeps e₀ d) (p : Nat) (r : StrokeRun) (s : Stop) (bad : List Nat) (gs : List Segment) :
    Dev.Keeps e₀ (Dev.packerRead d p r s bad gs) := by
  unfold Dev.packerRead
  try dsimp only
  repeat' first
    | with_reducible assumption
    | with_reducible apply Dev.memWake_keeps
    | with_reducible apply Dev.packerLadder_keeps
    | with_reducible apply Dev.addJob_keeps
    | with_reducible apply Dev.sendRun_keeps
    | with_reducible apply Dev.Keeps.ite
    | with_reducible apply Dev.Keeps.ite_snd
    | with_reducible apply Dev.Keeps.foldl
    | with_reducible apply Dev.Keeps.foldl_fst
    | simp only [Dev.Keeps.keep]
    | (intro _; intros; try dsimp only)
    | dsimp only
    | (split; all_goals try dsimp only)

theorem Dev.pixels_keeps {e₀ d : Dev} (hk : Dev.Keeps e₀ d) (p : Nat) (bad : List Nat) (record : Ecc) :
    Dev.Keeps e₀ (Dev.pixels d p bad record) := by
  unfold Dev.pixels
  try dsimp only
  repeat' first
    | with_reducible assumption
    | with_reducible apply Dev.coachBegin_keeps
    | with_reducible apply Dev.sendMissing_keeps
    | with_reducible apply Dev.recordLost_keeps
    | with_reducible apply Dev.reserved_keeps
    | with_reducible apply Dev.packerRead_keeps
    | with_reducible apply Dev.Keeps.ite
    | with_reducible apply Dev.Keeps.ite_snd
    | with_reducible apply Dev.Keeps.foldl
    | simp only [Dev.Keeps.keep]
    | (intro _; intros; try dsimp only)
    | dsimp only
    | (split; all_goals try dsimp only)

theorem Dev.withdrawnWitnesses_keeps {e₀ d : Dev} (hk : Dev.Keeps e₀ d) (p : Nat) (ss : List Stop) :
    Dev.Keeps e₀ (Dev.withdrawnWitnesses d p ss) := by
  unfold Dev.withdrawnWitnesses
  try dsimp only
  repeat' first
    | with_reducible assumption
    | with_reducible apply Dev.count_keeps
    | with_reducible apply Dev.setCoach_keeps
    | with_reducible apply Dev.Keeps.ite
    | with_reducible apply Dev.Keeps.ite_snd
    | with_reducible apply Dev.Keeps.foldl
    | with_reducible apply Dev.Keeps.foldl_fst
    | simp only [Dev.Keeps.keep]
    | (intro _; intros; try dsimp only)
    | dsimp only
    | (split; all_goals try dsimp only)

theorem Dev.skipWithdrawn_keeps {e₀ d : Dev} (h : Dev.Keeps e₀ d) (p : Nat) (m : Nat) : Dev.Keeps e₀ (Dev.skipWithdrawn d p m) := by
  unfold Dev.skipWithdrawn
  try dsimp only
  repeat' first
    | with_reducible assumption
    | with_reducible apply Dev.setCoach_keeps
    | with_reducible apply Dev.pixels_keeps
    | with_reducible apply Dev.coachFrame_keeps
    | with_reducible apply Dev.count_keeps
    | with_reducible apply Dev.withdrawnWitnesses_keeps
    | with_reducible apply Dev.Keeps.ite
    | with_reducible apply Dev.Keeps.ite_snd
    | with_reducible apply Dev.Keeps.foldl
    | simp only [Dev.Keeps.keep]
    | (intro _; intros; try dsimp only)
    | dsimp only
    | (split; all_goals try dsimp only)

theorem Dev.holdFrame_keeps {e₀ d : Dev} (h : Dev.Keeps e₀ d) (p : Nat) : Dev.Keeps e₀ (Dev.holdFrame d p) := by
  unfold Dev.holdFrame
  try dsimp only
  repeat' first
    | with_reducible assumption
    | with_reducible apply Dev.coachFrame_keeps
    | with_reducible apply Dev.setCoach_keeps
    | with_reducible apply Dev.Keeps.ite
    | with_reducible apply Dev.Keeps.ite_snd
    | with_reducible apply Dev.Keeps.foldl
    | simp only [Dev.Keeps.keep]
    | (intro _; intros; try dsimp only)
    | dsimp only
    | (split; all_goals try dsimp only)

theorem Dev.coachLane_keeps {e₀ d : Dev} (hk : Dev.Keeps e₀ d) (p : Nat) (was : LaneDrive) :
    Dev.Keeps e₀ (Dev.coachLane d p was) := by
  unfold Dev.coachLane
  try dsimp only
  repeat' first
    | with_reducible assumption
    | with_reducible apply Dev.freshNat_keeps
    | with_reducible apply Dev.setCoach_keeps
    | with_reducible apply Dev.driveLane_keeps
    | with_reducible apply Dev.Keeps.ite
    | with_reducible apply Dev.Keeps.ite_snd
    | with_reducible apply Dev.Keeps.foldl
    | simp only [Dev.Keeps.keep]
    | (intro _; intros; try dsimp only)
    | dsimp only
    | (split; all_goals try dsimp only)

theorem Dev.coachTo_keeps {e₀ d : Dev} (h : Dev.Keeps e₀ d) (p : Nat) (x : Nat) : Dev.Keeps e₀ (Dev.coachTo d p x) := by
  unfold Dev.coachTo
  try dsimp only
  repeat' first
    | with_reducible assumption
    | with_reducible apply Dev.setFld_keeps
    | with_reducible apply Dev.setReg_keeps
    | with_reducible apply Dev.count_keeps
    | with_reducible apply Dev.setCoach_keeps
    | with_reducible apply Dev.setFlag_keeps
    | with_reducible apply Dev.coachSource_keeps
    | with_reducible apply Dev.coachLane_keeps
    | with_reducible apply Dev.Keeps.ite
    | with_reducible apply Dev.Keeps.ite_snd
    | with_reducible apply Dev.Keeps.foldl
    | simp only [Dev.Keeps.keep]
    | (intro _; intros; try dsimp only)
    | dsimp only
    | (split; all_goals try dsimp only)

theorem Dev.coachTrained_keeps {e₀ d : Dev} (h : Dev.Keeps e₀ d) (p : Nat) : Dev.Keeps e₀ (Dev.coachTrained d p) := by
  unfold Dev.coachTrained
  try dsimp only
  repeat' first
    | with_reducible assumption
    | with_reducible apply Dev.setCoach_keeps
    | with_reducible apply Dev.coachTo_keeps
    | with_reducible apply Dev.Keeps.ite
    | with_reducible apply Dev.Keeps.ite_snd
    | with_reducible apply Dev.Keeps.foldl
    | simp only [Dev.Keeps.keep]
    | (intro _; intros; try dsimp only)
    | dsimp only
    | (split; all_goals try dsimp only)

theorem Dev.coachUp_keeps {e₀ d : Dev} (h : Dev.Keeps e₀ d) (p : Nat) : Dev.Keeps e₀ (Dev.coachUp d p) := by
  unfold Dev.coachUp
  try dsimp only
  repeat' first
    | with_reducible assumption
    | with_reducible apply Dev.coachTo_keeps
    | with_reducible apply Dev.Keeps.ite
    | with_reducible apply Dev.Keeps.ite_snd
    | with_reducible apply Dev.Keeps.foldl
    | simp only [Dev.Keeps.keep]
    | (intro _; intros; try dsimp only)
    | dsimp only
    | (split; all_goals try dsimp only)

theorem Dev.coachTick_keeps {e₀ d : Dev} (h : Dev.Keeps e₀ d) : Dev.Keeps e₀ (Dev.coachTick d) := by
  unfold Dev.coachTick
  try dsimp only
  repeat' first
    | with_reducible assumption
    | with_reducible apply Dev.setCoach_keeps
    | with_reducible apply Dev.Keeps.ite
    | with_reducible apply Dev.Keeps.ite_snd
    | with_reducible apply Dev.Keeps.foldl
    | simp only [Dev.Keeps.keep]
    | (intro _; intros; try dsimp only)
    | dsimp only
    | (split; all_goals try dsimp only)

theorem Dev.coachHold_keeps {e₀ d : Dev} (h : Dev.Keeps e₀ d) (p : Nat) : Dev.Keeps e₀ (Dev.coachHold d p) := by
  unfold Dev.coachHold
  try dsimp only
  repeat' first
    | with_reducible assumption
    | with_reducible apply Dev.setCoach_keeps
    | with_reducible apply Dev.coachTo_keeps
    | with_reducible apply Dev.setReg_keeps
    | with_reducible apply Dev.Keeps.ite
    | with_reducible apply Dev.Keeps.ite_snd
    | with_reducible apply Dev.Keeps.foldl
    | simp only [Dev.Keeps.keep]
    | (intro _; intros; try dsimp only)
    | dsimp only
    | (split; all_goals try dsimp only)

theorem Dev.mirroredHold_keeps {e₀ d : Dev} (h : Dev.Keeps e₀ d) (p : Nat) (v : Nat) : Dev.Keeps e₀ (Dev.mirroredHold d p v) := by
  unfold Dev.mirroredHold
  try dsimp only
  repeat' first
    | with_reducible assumption
    | with_reducible apply Dev.coachHold_keeps
    | with_reducible apply Dev.setFld_keeps
    | with_reducible apply Dev.Keeps.ite
    | with_reducible apply Dev.Keeps.ite_snd
    | with_reducible apply Dev.Keeps.foldl
    | simp only [Dev.Keeps.keep]
    | (intro _; intros; try dsimp only)
    | dsimp only
    | (split; all_goals try dsimp only)

theorem Dev.newEpoch_keeps {e₀ d : Dev} (hk : Dev.Keeps e₀ d) (crossing : Nat) :
    Dev.Keeps e₀ (Dev.newEpoch d crossing) := by
  unfold Dev.newEpoch
  try dsimp only
  repeat' first
    | with_reducible assumption
    | with_reducible apply Dev.Keeps.ite
    | with_reducible apply Dev.Keeps.ite_snd
    | with_reducible apply Dev.Keeps.foldl
    | simp only [Dev.Keeps.keep]
    | (intro _; intros; try dsimp only)
    | dsimp only
    | (split; all_goals try dsimp only)

theorem Dev.coachTorn_keeps {e₀ d : Dev} (h : Dev.Keeps e₀ d) (p : Nat) : Dev.Keeps e₀ (Dev.coachTorn d p) := by
  unfold Dev.coachTorn
  try dsimp only
  repeat' first
    | with_reducible assumption
    | with_reducible apply Dev.newEpoch_keeps
    | with_reducible apply Dev.setFlag_keeps
    | with_reducible apply Dev.count_keeps
    | with_reducible apply Dev.Keeps.ite
    | with_reducible apply Dev.Keeps.ite_snd
    | with_reducible apply Dev.Keeps.foldl
    | simp only [Dev.Keeps.keep]
    | (intro _; intros; try dsimp only)
    | dsimp only
    | (split; all_goals try dsimp only)

theorem Dev.coachRetrain_keeps {e₀ d : Dev} (h : Dev.Keeps e₀ d) (p : Nat) : Dev.Keeps e₀ (Dev.coachRetrain d p) := by
  unfold Dev.coachRetrain
  try dsimp only
  repeat' first
    | with_reducible assumption
    | with_reducible apply Dev.coachTorn_keeps
    | with_reducible apply Dev.setCoach_keeps
    | with_reducible apply Dev.coachTo_keeps
    | with_reducible apply Dev.Keeps.ite
    | with_reducible apply Dev.Keeps.ite_snd
    | with_reducible apply Dev.Keeps.foldl
    | simp only [Dev.Keeps.keep]
    | (intro _; intros; try dsimp only)
    | dsimp only
    | (split; all_goals try dsimp only)

theorem Dev.writeCoachCtrl_keeps {e₀ d : Dev} (h : Dev.Keeps e₀ d) (p : Nat) (v : Nat) : Dev.Keeps e₀ (Dev.writeCoachCtrl d p v) := by
  unfold Dev.writeCoachCtrl
  try dsimp only
  repeat' first
    | with_reducible assumption
    | with_reducible apply Dev.genericWrite_keeps
    | with_reducible apply Dev.coachTorn_keeps
    | with_reducible apply Dev.coachTo_keeps
    | with_reducible apply Dev.coachUp_keeps
    | with_reducible apply Dev.refuse_keeps
    | with_reducible apply Dev.coachRetrain_keeps
    | with_reducible apply Dev.coachHold_keeps
    | with_reducible apply Dev.Keeps.ite
    | with_reducible apply Dev.Keeps.ite_snd
    | with_reducible apply Dev.Keeps.foldl
    | simp only [Dev.Keeps.keep]
    | (intro _; intros; try dsimp only)
    | dsimp only
    | (split; all_goals try dsimp only)

theorem Dev.dropSplits_keeps {e₀ d : Dev} (h : Dev.Keeps e₀ d) (n : Nat) (fuel : Nat) : Dev.Keeps e₀ (Dev.dropSplits d n fuel) := by
  induction fuel generalizing d with
  | zero => exact h
  | succ fuel ih =>
    unfold Dev.dropSplits
    dsimp only
    split
    · exact h
    · exact ih (Dev.Keeps.foldl _ h fun d x hd => Dev.commitDrop_keeps hd x)

theorem Dev.hostCoachCtrl_keeps {e₀ d : Dev} (h : Dev.Keeps e₀ d) (p : Nat) (v : Nat) : Dev.Keeps e₀ (Dev.hostCoachCtrl d p v) := by
  unfold Dev.hostCoachCtrl
  try dsimp only
  repeat' first
    | with_reducible assumption
    | with_reducible apply Dev.count_keeps
    | with_reducible apply Dev.writeCoachCtrl_keeps
    | with_reducible apply Dev.twnMirror_keeps
    | with_reducible apply Dev.Keeps.ite
    | with_reducible apply Dev.Keeps.ite_snd
    | with_reducible apply Dev.Keeps.foldl
    | simp only [Dev.Keeps.keep]
    | (intro _; intros; try dsimp only)
    | dsimp only
    | (split; all_goals try dsimp only)

theorem Dev.commitsLatch_keeps {e₀ d : Dev} (h : Dev.Keeps e₀ d) (n : Nat) : Dev.Keeps e₀ (Dev.commitsLatch d n) := by
  unfold Dev.commitsLatch
  try dsimp only
  repeat' first
    | with_reducible assumption
    | with_reducible apply Dev.dropSplits_keeps
    | with_reducible apply Dev.commitApply_keeps
    | with_reducible apply Dev.Keeps.ite
    | with_reducible apply Dev.Keeps.ite_snd
    | with_reducible apply Dev.Keeps.foldl
    | simp only [Dev.Keeps.keep]
    | (intro _; intros; try dsimp only)
    | dsimp only
    | (split; all_goals try dsimp only)

theorem Dev.configFrame_keeps {e₀ d : Dev} (h : Dev.Keeps e₀ d) (p : Nat) : Dev.Keeps e₀ (Dev.configFrame d p) := by
  unfold Dev.configFrame
  try dsimp only
  repeat' first
    | with_reducible assumption
    | with_reducible apply Dev.setCoach_keeps
    | with_reducible apply Dev.coachFrame_keeps
    | with_reducible apply Dev.Keeps.ite
    | with_reducible apply Dev.Keeps.ite_snd
    | with_reducible apply Dev.Keeps.foldl
    | simp only [Dev.Keeps.keep]
    | (intro _; intros; try dsimp only)
    | dsimp only
    | (split; all_goals try dsimp only)

theorem Dev.strokeMarker_keeps {e₀ d : Dev} (h : Dev.Keeps e₀ d) (p : Nat) (delay : Nat) : Dev.Keeps e₀ (Dev.strokeMarker d p delay) := by
  unfold Dev.strokeMarker
  try dsimp only
  repeat' first
    | with_reducible assumption
    | with_reducible apply Dev.setCoach_keeps
    | with_reducible apply Dev.coachFrame_keeps
    | with_reducible apply Dev.count_keeps
    | with_reducible apply Dev.Keeps.ite
    | with_reducible apply Dev.Keeps.ite_snd
    | with_reducible apply Dev.Keeps.foldl
    | simp only [Dev.Keeps.keep]
    | (intro _; intros; try dsimp only)
    | dsimp only
    | (split; all_goals try dsimp only)

theorem Dev.coachDealt_keeps {e₀ d : Dev} (h : Dev.Keeps e₀ d) (s : Nat) : Dev.Keeps e₀ (Dev.coachDealt d s) := by
  unfold Dev.coachDealt
  try dsimp only
  repeat' first
    | with_reducible assumption
    | with_reducible apply Dev.setCoach_keeps
    | with_reducible apply Dev.Keeps.ite
    | with_reducible apply Dev.Keeps.ite_snd
    | with_reducible apply Dev.Keeps.foldl
    | simp only [Dev.Keeps.keep]
    | (intro _; intros; try dsimp only)
    | dsimp only
    | (split; all_goals try dsimp only)

theorem Dev.coachWithdraw_keeps {e₀ d : Dev} (h : Dev.Keeps e₀ d) (gone : List Nat) : Dev.Keeps e₀ (Dev.coachWithdraw d gone) := by
  unfold Dev.coachWithdraw
  try dsimp only
  repeat' first
    | with_reducible assumption
    | with_reducible apply Dev.setCoach_keeps
    | with_reducible apply Dev.Keeps.ite
    | with_reducible apply Dev.Keeps.ite_snd
    | with_reducible apply Dev.Keeps.foldl
    | simp only [Dev.Keeps.keep]
    | (intro _; intros; try dsimp only)
    | dsimp only
    | (split; all_goals try dsimp only)

theorem Dev.idleFrame_keeps {e₀ d : Dev} (h : Dev.Keeps e₀ d) (p : Nat) (n : Nat) : Dev.Keeps e₀ (Dev.idleFrame d p n) := by
  unfold Dev.idleFrame
  try dsimp only
  repeat' first
    | with_reducible assumption
    | with_reducible apply Dev.coachFrame_keeps
    | with_reducible apply Dev.Keeps.ite
    | with_reducible apply Dev.Keeps.ite_snd
    | with_reducible apply Dev.Keeps.foldl
    | simp only [Dev.Keeps.keep]
    | (intro _; intros; try dsimp only)
    | dsimp only
    | (split; all_goals try dsimp only)

theorem Dev.coachSettle_keeps {e₀ d : Dev} (h : Dev.Keeps e₀ d) : Dev.Keeps e₀ (Dev.coachSettle d) := by
  unfold Dev.coachSettle
  try dsimp only
  repeat' first
    | with_reducible assumption
    | with_reducible apply Dev.coachHold_keeps
    | with_reducible apply Dev.Keeps.ite
    | with_reducible apply Dev.Keeps.ite_snd
    | with_reducible apply Dev.Keeps.foldl
    | simp only [Dev.Keeps.keep]
    | (intro _; intros; try dsimp only)
    | dsimp only
    | (split; all_goals try dsimp only)

theorem Dev.skip_keeps {e₀ d : Dev} (h : Dev.Keeps e₀ d) (p : Nat) : Dev.Keeps e₀ (Dev.skip d p) := by
  unfold Dev.skip
  try dsimp only
  repeat' first
    | with_reducible assumption
    | with_reducible apply Dev.skipWithdrawn_keeps
    | with_reducible apply Dev.coachBegin_keeps
    | with_reducible apply Dev.sendMissing_keeps
    | with_reducible apply Dev.Keeps.ite
    | with_reducible apply Dev.Keeps.ite_snd
    | with_reducible apply Dev.Keeps.foldl
    | simp only [Dev.Keeps.keep]
    | (intro _; intros; try dsimp only)
    | dsimp only
    | (split; all_goals try dsimp only)

end Sys2Proof.Machine
end

