-- ==== Sys2Proof/Laws/KeepsChecks.lean ====
section
/-! SUPPORT. Checks. -/

set_option linter.unusedTactic false
set_option linter.unreachableTactic false
set_option linter.unusedVariables false
set_option linter.unusedSimpArgs false

namespace Sys2Proof.Machine

theorem Dev.scrubEnd_keeps {e₀ d : Dev} (h : Dev.Keeps e₀ d) : Dev.Keeps e₀ (Dev.scrubEnd d) := by
  unfold Dev.scrubEnd
  try dsimp only
  repeat' first
    | with_reducible assumption
    | with_reducible apply Dev.raise_keeps
    | with_reducible apply Dev.depEvent_keeps
    | with_reducible apply Dev.setFld_keeps
    | with_reducible apply Dev.Keeps.ite
    | with_reducible apply Dev.Keeps.ite_snd
    | with_reducible apply Dev.Keeps.foldl
    | simp only [Dev.Keeps.keep]
    | (intro _; intros; try dsimp only)
    | dsimp only
    | (split; all_goals try dsimp only)

theorem Dev.scrubRead_keeps {e₀ d : Dev} (h : Dev.Keeps e₀ d) (fails : Bool) : Dev.Keeps e₀ (Dev.scrubRead d fails) := by
  unfold Dev.scrubRead
  try dsimp only
  repeat' first
    | with_reducible assumption
    | with_reducible apply Dev.scrubEnd_keeps
    | with_reducible apply Dev.memWake_keeps
    | with_reducible apply Dev.setFld_keeps
    | with_reducible apply Dev.blockFailed_keeps
    | with_reducible apply Dev.Keeps.ite
    | with_reducible apply Dev.Keeps.ite_snd
    | with_reducible apply Dev.Keeps.foldl
    | simp only [Dev.Keeps.keep]
    | (intro _; intros; try dsimp only)
    | dsimp only
    | (split; all_goals try dsimp only)

theorem Dev.writeLambda_keeps {e₀ d : Dev} (h : Dev.Keeps e₀ d) (v : Nat) : Dev.Keeps e₀ (Dev.writeLambda d v) := by
  unfold Dev.writeLambda
  try dsimp only
  repeat' first
    | with_reducible assumption
    | with_reducible apply Dev.refuse_keeps
    | with_reducible apply Dev.genericWrite_keeps
    | with_reducible apply Dev.Keeps.ite
    | with_reducible apply Dev.Keeps.ite_snd
    | with_reducible apply Dev.Keeps.foldl
    | simp only [Dev.Keeps.keep]
    | (intro _; intros; try dsimp only)
    | dsimp only
    | (split; all_goals try dsimp only)

theorem Dev.writeLogRing_keeps {e₀ d : Dev} (h : Dev.Keeps e₀ d) (v : Nat) : Dev.Keeps e₀ (Dev.writeLogRing d v) := by
  unfold Dev.writeLogRing
  try dsimp only
  repeat' first
    | with_reducible assumption
    | with_reducible apply Dev.refuse_keeps
    | with_reducible apply Dev.genericWrite_keeps
    | with_reducible apply Dev.Keeps.ite
    | with_reducible apply Dev.Keeps.ite_snd
    | with_reducible apply Dev.Keeps.foldl
    | simp only [Dev.Keeps.keep]
    | (intro _; intros; try dsimp only)
    | dsimp only
    | (split; all_goals try dsimp only)

theorem Dev.scrubOff_keeps {e₀ d : Dev} (h : Dev.Keeps e₀ d) : Dev.Keeps e₀ (Dev.scrubOff d) := by
  unfold Dev.scrubOff
  try dsimp only
  repeat' first
    | with_reducible assumption
    | with_reducible apply Dev.setFld_keeps
    | with_reducible apply Dev.Keeps.ite
    | with_reducible apply Dev.Keeps.ite_snd
    | with_reducible apply Dev.Keeps.foldl
    | simp only [Dev.Keeps.keep]
    | (intro _; intros; try dsimp only)
    | dsimp only
    | (split; all_goals try dsimp only)

theorem Dev.writeDepCtrl_keeps {e₀ d : Dev} (h : Dev.Keeps e₀ d) (v : Nat) : Dev.Keeps e₀ (Dev.writeDepCtrl d v) := by
  unfold Dev.writeDepCtrl
  try dsimp only
  repeat' first
    | with_reducible assumption
    | with_reducible apply Dev.genericWrite_keeps
    | with_reducible apply Dev.scrubOff_keeps
    | with_reducible apply Dev.Keeps.ite
    | with_reducible apply Dev.Keeps.ite_snd
    | with_reducible apply Dev.Keeps.foldl
    | simp only [Dev.Keeps.keep]
    | (intro _; intros; try dsimp only)
    | dsimp only
    | (split; all_goals try dsimp only)

theorem Dev.controlChecked_keeps {e₀ d : Dev} (h : Dev.Keeps e₀ d) (ecc : ControlEcc) : Dev.Keeps e₀ (Dev.controlChecked d ecc) := by
  unfold Dev.controlChecked
  try dsimp only
  repeat' first
    | with_reducible assumption
    | with_reducible apply Dev.secdedCorrected_keeps
    | with_reducible apply Dev.secdedBad_keeps
    | with_reducible apply Dev.setReg_keeps
    | with_reducible apply Dev.controlLost_keeps
    | with_reducible apply Dev.mapRuns_keeps
    | with_reducible apply Dev.reserved_keeps
    | with_reducible apply Dev.Keeps.ite
    | with_reducible apply Dev.Keeps.ite_snd
    | with_reducible apply Dev.Keeps.foldl
    | simp only [Dev.Keeps.keep]
    | (intro _; intros; try dsimp only)
    | dsimp only
    | (split; all_goals try dsimp only)

theorem Dev.memPowerDown_keeps {e₀ d : Dev} (h : Dev.Keeps e₀ d) (c : Nat) : Dev.Keeps e₀ (Dev.memPowerDown d c) := by
  unfold Dev.memPowerDown
  try dsimp only
  repeat' first
    | with_reducible assumption
    | with_reducible apply Dev.count_keeps
    | with_reducible apply Dev.setReg_keeps
    | with_reducible apply Dev.Keeps.ite
    | with_reducible apply Dev.Keeps.ite_snd
    | with_reducible apply Dev.Keeps.foldl
    | simp only [Dev.Keeps.keep]
    | (intro _; intros; try dsimp only)
    | dsimp only
    | (split; all_goals try dsimp only)

theorem Dev.writeMemPd_keeps {e₀ d : Dev} (h : Dev.Keeps e₀ d) (v : Nat) : Dev.Keeps e₀ (Dev.writeMemPd d v) := by
  unfold Dev.writeMemPd
  try dsimp only
  repeat' first
    | with_reducible assumption
    | with_reducible apply Dev.refuse_keeps
    | with_reducible apply Dev.genericWrite_keeps
    | with_reducible apply Dev.Keeps.ite
    | with_reducible apply Dev.Keeps.ite_snd
    | with_reducible apply Dev.Keeps.foldl
    | simp only [Dev.Keeps.keep]
    | (intro _; intros; try dsimp only)
    | dsimp only
    | (split; all_goals try dsimp only)

theorem Dev.logDamaged_keeps {e₀ d : Dev} (hk : Dev.Keeps e₀ d) (n : Nat) :
    Dev.Keeps e₀ (Dev.logDamaged d n) := by
  unfold Dev.logDamaged
  try dsimp only
  repeat' first
    | with_reducible assumption
    | with_reducible apply Dev.Keeps.ite
    | with_reducible apply Dev.Keeps.ite_snd
    | with_reducible apply Dev.Keeps.foldl
    | simp only [Dev.Keeps.keep]
    | (intro _; intros; try dsimp only)
    | dsimp only
    | (split; all_goals try dsimp only)

theorem Dev.writeLogIndex_keeps {e₀ d : Dev} (hk : Dev.Keeps e₀ d) (v : Nat) (ecc : Ecc) :
    Dev.Keeps e₀ (Dev.writeLogIndex d v ecc) := by
  unfold Dev.writeLogIndex
  try dsimp only
  repeat' first
    | with_reducible assumption
    | with_reducible apply Dev.setReg_keeps
    | with_reducible apply Dev.logDamaged_keeps
    | with_reducible apply Dev.reserved_keeps
    | with_reducible apply Dev.showLog_keeps
    | with_reducible apply Dev.Keeps.ite
    | with_reducible apply Dev.Keeps.ite_snd
    | with_reducible apply Dev.Keeps.foldl
    | simp only [Dev.Keeps.keep]
    | (intro _; intros; try dsimp only)
    | dsimp only
    | (split; all_goals try dsimp only)

end Sys2Proof.Machine
end

