-- ==== Sys2Proof/Laws/KeepsTally.lean ====
section
/-! SUPPORT. Tally. -/

set_option linter.unusedTactic false
set_option linter.unreachableTactic false
set_option linter.unusedVariables false
set_option linter.unusedSimpArgs false

namespace Sys2Proof.Machine

theorem Dev.scanEnd_keeps {e₀ d : Dev} (h : Dev.Keeps e₀ d) (h : Scan) (status : Nat) (detail : Nat) (value : Nat) : Dev.Keeps e₀ (Dev.scanEnd d h status detail value) := by
  unfold Dev.scanEnd
  try dsimp only
  repeat' first
    | with_reducible assumption
    | with_reducible apply Dev.ringComplete_keeps
    | with_reducible apply Dev.Keeps.ite
    | with_reducible apply Dev.Keeps.ite_snd
    | with_reducible apply Dev.Keeps.foldl
    | simp only [Dev.Keeps.keep]
    | (intro _; intros; try dsimp only)
    | dsimp only
    | (split; all_goals try dsimp only)

theorem Dev.writeTlyParam_keeps {e₀ d : Dev} (h : Dev.Keeps e₀ d) (u : Nat) (key : Nat) (v : Nat) : Dev.Keeps e₀ (Dev.writeTlyParam d u key v) := by
  unfold Dev.writeTlyParam
  try dsimp only
  repeat' first
    | with_reducible assumption
    | with_reducible apply Dev.refuse_keeps
    | with_reducible apply Dev.genericWrite_keeps
    | with_reducible apply Dev.Keeps.ite
    | with_reducible apply Dev.Keeps.ite_snd
    | with_reducible apply Dev.Keeps.foldl
    | simp only [Dev.Keeps.keep]
    | (intro _; intros; try dsimp only)
    | dsimp only
    | (split; all_goals try dsimp only)

theorem Dev.tlyShow_keeps {e₀ d : Dev} (h : Dev.Keeps e₀ d) (u : Nat) : Dev.Keeps e₀ (Dev.tlyShow d u) := by
  unfold Dev.tlyShow
  try dsimp only
  repeat' first
    | with_reducible assumption
    | with_reducible apply Dev.setFld_keeps
    | with_reducible apply Dev.Keeps.ite
    | with_reducible apply Dev.Keeps.ite_snd
    | with_reducible apply Dev.Keeps.foldl
    | simp only [Dev.Keeps.keep]
    | (intro _; intros; try dsimp only)
    | dsimp only
    | (split; all_goals try dsimp only)

theorem Dev.writeTlyCfg_keeps {e₀ d : Dev} (h : Dev.Keeps e₀ d) (u : Nat) (v : Nat) : Dev.Keeps e₀ (Dev.writeTlyCfg d u v) := by
  unfold Dev.writeTlyCfg
  try dsimp only
  repeat' first
    | with_reducible assumption
    | with_reducible apply Dev.refuse_keeps
    | with_reducible apply Dev.genericWrite_keeps
    | with_reducible apply Dev.setTly_keeps
    | with_reducible apply Dev.tlyShow_keeps
    | with_reducible apply Dev.Keeps.ite
    | with_reducible apply Dev.Keeps.ite_snd
    | with_reducible apply Dev.Keeps.foldl
    | simp only [Dev.Keeps.keep]
    | (intro _; intros; try dsimp only)
    | dsimp only
    | (split; all_goals try dsimp only)

theorem Dev.scanTimeout_keeps {e₀ d : Dev} (h : Dev.Keeps e₀ d) (r : Nat) : Dev.Keeps e₀ (Dev.scanTimeout d r) := by
  unfold Dev.scanTimeout
  try dsimp only
  repeat' first
    | with_reducible assumption
    | with_reducible apply Dev.tlyShow_keeps
    | with_reducible apply Dev.scanEnd_keeps
    | with_reducible apply Dev.setTly_keeps
    | with_reducible apply Dev.Keeps.ite
    | with_reducible apply Dev.Keeps.ite_snd
    | with_reducible apply Dev.Keeps.foldl
    | simp only [Dev.Keeps.keep]
    | (intro _; intros; try dsimp only)
    | dsimp only
    | (split; all_goals try dsimp only)

theorem Dev.scanComplete_keeps {e₀ d : Dev} (h : Dev.Keeps e₀ d) (u : Nat) (bad : List Nat) : Dev.Keeps e₀ (Dev.scanComplete d u bad) := by
  unfold Dev.scanComplete
  try dsimp only
  repeat' first
    | with_reducible assumption
    | with_reducible apply Dev.memWake_keeps
    | with_reducible apply Dev.plainLadders_keeps
    | with_reducible apply Dev.setTly_keeps
    | with_reducible apply Dev.memStore_keeps
    | with_reducible apply Dev.tlyPush_keeps
    | with_reducible apply Dev.fenceAdvance_keeps
    | with_reducible apply Dev.count_keeps
    | with_reducible apply Dev.tlyEvent_keeps
    | with_reducible apply Dev.scanEnd_keeps
    | with_reducible apply Dev.tlyShow_keeps
    | with_reducible apply Dev.Keeps.ite
    | with_reducible apply Dev.Keeps.ite_snd
    | with_reducible apply Dev.Keeps.foldl
    | simp only [Dev.Keeps.keep]
    | (intro _; intros; try dsimp only)
    | dsimp only
    | (split; all_goals try dsimp only)

theorem Dev.tlyShowResult_keeps {e₀ d : Dev} (h : Dev.Keeps e₀ d) (u : Nat) (x : TlyResult) : Dev.Keeps e₀ (Dev.tlyShowResult d u x) := by
  unfold Dev.tlyShowResult
  try dsimp only
  repeat' first
    | with_reducible assumption
    | with_reducible apply Dev.setRegs_keeps
    | with_reducible apply Dev.Keeps.ite
    | with_reducible apply Dev.Keeps.ite_snd
    | with_reducible apply Dev.Keeps.foldl
    | simp only [Dev.Keeps.keep]
    | (intro _; intros; try dsimp only)
    | dsimp only
    | (split; all_goals try dsimp only)

theorem Dev.resultPop_keeps {e₀ d : Dev} (h : Dev.Keeps e₀ d) (u : Nat) (ecc : Ecc) : Dev.Keeps e₀ (Dev.resultPop d u ecc).2 := by
  unfold Dev.resultPop
  try dsimp only
  repeat' first
    | with_reducible assumption
    | with_reducible apply Dev.setFlag_keeps
    | with_reducible apply Dev.count_keeps
    | with_reducible apply Dev.secdedCorrected_keeps
    | with_reducible apply Dev.freshNat_keeps
    | with_reducible apply Dev.secdedBad_keeps
    | with_reducible apply Dev.setTly_keeps
    | with_reducible apply Dev.tlyShowResult_keeps
    | with_reducible apply Dev.Keeps.ite
    | with_reducible apply Dev.Keeps.ite_snd
    | with_reducible apply Dev.Keeps.foldl
    | simp only [Dev.Keeps.keep]
    | (intro _; intros; try dsimp only)
    | dsimp only
    | (split; all_goals try dsimp only)

theorem Dev.scanRead_keeps {e₀ d : Dev} (h : Dev.Keeps e₀ d) (r : Nat) : Dev.Keeps e₀ (Dev.scanRead d r) := by
  unfold Dev.scanRead
  try dsimp only
  repeat' first
    | with_reducible assumption
    | with_reducible apply Dev.ringFetch_keeps
    | with_reducible apply Dev.ringTake_keeps
    | with_reducible apply Dev.scanEnd_keeps
    | with_reducible apply Dev.setTly_keeps
    | with_reducible apply Dev.tlyShow_keeps
    | with_reducible apply Dev.Keeps.ite
    | with_reducible apply Dev.Keeps.ite_snd
    | with_reducible apply Dev.Keeps.foldl
    | simp only [Dev.Keeps.keep]
    | (intro _; intros; try dsimp only)
    | dsimp only
    | (split; all_goals try dsimp only)

theorem Dev.scanStart_keeps {e₀ d : Dev} (h : Dev.Keeps e₀ d) (u : Nat) : Dev.Keeps e₀ (Dev.scanStart d u) := by
  unfold Dev.scanStart
  try dsimp only
  repeat' first
    | with_reducible assumption
    | with_reducible apply Dev.setTly_keeps
    | with_reducible apply Dev.scanEnd_keeps
    | with_reducible apply Dev.tlyShow_keeps
    | with_reducible apply Dev.Keeps.ite
    | with_reducible apply Dev.Keeps.ite_snd
    | with_reducible apply Dev.Keeps.foldl
    | simp only [Dev.Keeps.keep]
    | (intro _; intros; try dsimp only)
    | dsimp only
    | (split; all_goals try dsimp only)

theorem Dev.scanStop_keeps {e₀ d : Dev} (h : Dev.Keeps e₀ d) (waiting : Nat) : Dev.Keeps e₀ (Dev.scanStop d waiting) := by
  unfold Dev.scanStop
  try dsimp only
  repeat' first
    | with_reducible assumption
    | with_reducible apply Dev.setTly_keeps
    | with_reducible apply Dev.orphanReader_keeps
    | with_reducible apply Dev.scanEnd_keeps
    | with_reducible apply Dev.tlyShow_keeps
    | with_reducible apply Dev.Keeps.ite
    | with_reducible apply Dev.Keeps.ite_snd
    | with_reducible apply Dev.Keeps.foldl
    | simp only [Dev.Keeps.keep]
    | (intro _; intros; try dsimp only)
    | dsimp only
    | (split; all_goals try dsimp only)

end Sys2Proof.Machine
end

