-- ==== Sys2Proof/Laws/KeepsReframe.lean ====
section
/-! SUPPORT. Reframe. -/

set_option linter.unusedTactic false
set_option linter.unreachableTactic false
set_option linter.unusedVariables false
set_option linter.unusedSimpArgs false

namespace Sys2Proof.Machine

theorem Dev.renumber_keeps {e₀ d : Dev} (h : Dev.Keeps e₀ d) (s : Nat) : Dev.Keeps e₀ (Dev.renumber d s) := by
  unfold Dev.renumber
  try dsimp only
  repeat' first
    | with_reducible assumption
    | with_reducible apply Dev.loseJobs_keeps
    | with_reducible apply Dev.orphanLadders_keeps
    | with_reducible apply Dev.setCoach_keeps
    | with_reducible apply Dev.Keeps.ite
    | with_reducible apply Dev.Keeps.ite_snd
    | with_reducible apply Dev.Keeps.foldl
    | simp only [Dev.Keeps.keep]
    | (intro _; intros; try dsimp only)
    | dsimp only
    | (split; all_goals try dsimp only)

theorem Dev.reframeAccept_keeps {e₀ d : Dev} (h : Dev.Keeps e₀ d) (b : Rat) (given : Option Nat) : Dev.Keeps e₀ (Dev.reframeAccept d b given) := by
  unfold Dev.reframeAccept
  try dsimp only
  repeat' first
    | with_reducible assumption
    | with_reducible apply Dev.lullExit_keeps
    | with_reducible apply Dev.renumber_keeps
    | with_reducible apply Dev.Keeps.ite
    | with_reducible apply Dev.Keeps.ite_snd
    | with_reducible apply Dev.Keeps.foldl
    | simp only [Dev.Keeps.keep]
    | (intro _; intros; try dsimp only)
    | dsimp only
    | (split; all_goals try dsimp only)

theorem Dev.reframeNumbers_keeps {e₀ d : Dev} (h : Dev.Keeps e₀ d) : Dev.Keeps e₀ (Dev.reframeNumbers d) := by
  unfold Dev.reframeNumbers
  try dsimp only
  repeat' first
    | with_reducible assumption
    | with_reducible apply Dev.renumber_keeps
    | with_reducible apply Dev.Keeps.ite
    | with_reducible apply Dev.Keeps.ite_snd
    | with_reducible apply Dev.Keeps.foldl
    | simp only [Dev.Keeps.keep]
    | (intro _; intros; try dsimp only)
    | dsimp only
    | (split; all_goals try dsimp only)

end Sys2Proof.Machine
end

