-- ==== Sys2Proof/Laws/KeepsTwin.lean ====
section
/-! SUPPORT. Twin. -/

set_option linter.unusedTactic false
set_option linter.unreachableTactic false
set_option linter.unusedVariables false
set_option linter.unusedSimpArgs false

namespace Sys2Proof.Machine

theorem Dev.readsAcked_keeps {e₀ d : Dev} (hk : Dev.Keeps e₀ d) :
    Dev.Keeps e₀ (Dev.readsAcked d) := by
  unfold Dev.readsAcked
  try dsimp only
  repeat' first
    | with_reducible assumption
    | with_reducible apply Dev.commitRead_keeps
    | with_reducible apply Dev.flpEdge_keeps
    | with_reducible apply Dev.Keeps.ite
    | with_reducible apply Dev.Keeps.ite_snd
    | with_reducible apply Dev.Keeps.foldl
    | simp only [Dev.Keeps.keep]
    | (intro _; intros; try dsimp only)
    | dsimp only
    | (split; all_goals try dsimp only)

theorem Dev.twnAck_keeps {e₀ d : Dev} (h : Dev.Keeps e₀ d) (ack : Nat) : Dev.Keeps e₀ (Dev.twnAck d ack) := by
  unfold Dev.twnAck
  try dsimp only
  repeat' first
    | with_reducible assumption
    | with_reducible apply Dev.trkRelease_keeps
    | with_reducible apply Dev.readsAcked_keeps
    | with_reducible apply Dev.Keeps.ite
    | with_reducible apply Dev.Keeps.ite_snd
    | with_reducible apply Dev.Keeps.foldl
    | simp only [Dev.Keeps.keep]
    | (intro _; intros; try dsimp only)
    | dsimp only
    | (split; all_goals try dsimp only)

theorem Dev.setLane_keeps {e₀ d : Dev} (h : Dev.Keeps e₀ d) (p : Nat) (x : Nat) : Dev.Keeps e₀ (Dev.setLane d p x) := by
  unfold Dev.setLane
  try dsimp only
  repeat' first
    | with_reducible assumption
    | with_reducible apply Dev.emit_keeps
    | with_reducible apply Dev.setFld_keeps
    | with_reducible apply Dev.Keeps.ite
    | with_reducible apply Dev.Keeps.ite_snd
    | with_reducible apply Dev.Keeps.foldl
    | simp only [Dev.Keeps.keep]
    | (intro _; intros; try dsimp only)
    | dsimp only
    | (split; all_goals try dsimp only)

theorem Dev.comparisonsEnd_keeps {e₀ d : Dev} (h : Dev.Keeps e₀ d) : Dev.Keeps e₀ (Dev.comparisonsEnd d) := by
  unfold Dev.comparisonsEnd
  try dsimp only
  repeat' first
    | with_reducible assumption
    | with_reducible apply Dev.comparisonEnd_keeps
    | with_reducible apply Dev.Keeps.ite
    | with_reducible apply Dev.Keeps.ite_snd
    | with_reducible apply Dev.Keeps.foldl
    | simp only [Dev.Keeps.keep]
    | (intro _; intros; try dsimp only)
    | dsimp only
    | (split; all_goals try dsimp only)

theorem Dev.twnTo_keeps {e₀ d : Dev} (h : Dev.Keeps e₀ d) (x : Nat) : Dev.Keeps e₀ (Dev.twnTo d x) := by
  unfold Dev.twnTo
  try dsimp only
  repeat' first
    | with_reducible assumption
    | with_reducible apply Dev.setFld_keeps
    | with_reducible apply Dev.raise_keeps
    | with_reducible apply Dev.twnEvent_keeps
    | with_reducible apply Dev.Keeps.ite
    | with_reducible apply Dev.Keeps.ite_snd
    | with_reducible apply Dev.Keeps.foldl
    | simp only [Dev.Keeps.keep]
    | (intro _; intros; try dsimp only)
    | dsimp only
    | (split; all_goals try dsimp only)

theorem Dev.setStandby_keeps {e₀ d : Dev} (h : Dev.Keeps e₀ d) (on : Bool) : Dev.Keeps e₀ (Dev.setStandby d on) := by
  unfold Dev.setStandby
  try dsimp only
  repeat' first
    | with_reducible assumption
    | with_reducible apply Dev.Keeps.ite
    | with_reducible apply Dev.Keeps.ite_snd
    | with_reducible apply Dev.Keeps.foldl
    | simp only [Dev.Keeps.keep]
    | (intro _; intros; try dsimp only)
    | dsimp only
    | (split; all_goals try dsimp only)

theorem Dev.standbyDue_keeps {e₀ d : Dev} (h : Dev.Keeps e₀ d) : Dev.Keeps e₀ (Dev.standbyDue d) := by
  unfold Dev.standbyDue
  try dsimp only
  repeat' first
    | with_reducible assumption
    | with_reducible apply Dev.Keeps.ite
    | with_reducible apply Dev.Keeps.ite_snd
    | with_reducible apply Dev.Keeps.foldl
    | simp only [Dev.Keeps.keep]
    | (intro _; intros; try dsimp only)
    | dsimp only
    | (split; all_goals try dsimp only)

theorem Dev.pairEnded_keeps {e₀ d : Dev} (h : Dev.Keeps e₀ d) : Dev.Keeps e₀ (Dev.pairEnded d) := by
  unfold Dev.pairEnded
  try dsimp only
  repeat' first
    | with_reducible assumption
    | with_reducible apply Dev.trkRelease_keeps
    | with_reducible apply Dev.repairFailed_keeps
    | with_reducible apply Dev.Keeps.ite
    | with_reducible apply Dev.Keeps.ite_snd
    | with_reducible apply Dev.Keeps.foldl
    | simp only [Dev.Keeps.keep]
    | (intro _; intros; try dsimp only)
    | dsimp only
    | (split; all_goals try dsimp only)

theorem Dev.readsOver_keeps {e₀ d : Dev} (hk : Dev.Keeps e₀ d) (before : Dev) :
    Dev.Keeps e₀ (Dev.readsOver d before) := by
  unfold Dev.readsOver
  try dsimp only
  repeat' first
    | with_reducible assumption
    | with_reducible apply Dev.giveUpTables_keeps
    | with_reducible apply Dev.plateTidy_keeps
    | with_reducible apply Dev.freeCopies_keeps
    | with_reducible apply Dev.Keeps.ite
    | with_reducible apply Dev.Keeps.ite_snd
    | with_reducible apply Dev.Keeps.foldl
    | simp only [Dev.Keeps.keep]
    | (intro _; intros; try dsimp only)
    | dsimp only
    | (split; all_goals try dsimp only)

theorem Dev.enterAlone_keeps {e₀ d : Dev} (h : Dev.Keeps e₀ d) (cause : Nat) : Dev.Keeps e₀ (Dev.enterAlone d cause) := by
  unfold Dev.enterAlone
  try dsimp only
  repeat' first
    | with_reducible assumption
    | with_reducible apply Dev.comparisonsEnd_keeps
    | with_reducible apply Dev.setFld_keeps
    | with_reducible apply Dev.twnTo_keeps
    | with_reducible apply Dev.setStandby_keeps
    | with_reducible apply Dev.standbyDue_keeps
    | with_reducible apply Dev.readsOver_keeps
    | with_reducible apply Dev.pairEnded_keeps
    | with_reducible apply Dev.coachSettle_keeps
    | with_reducible apply Dev.readsAcked_keeps
    | with_reducible apply Dev.Keeps.ite
    | with_reducible apply Dev.Keeps.ite_snd
    | with_reducible apply Dev.Keeps.foldl
    | simp only [Dev.Keeps.keep]
    | (intro _; intros; try dsimp only)
    | dsimp only
    | (split; all_goals try dsimp only)

theorem Dev.twnPart_keeps {e₀ d : Dev} (h : Dev.Keeps e₀ d) (cause : Nat) : Dev.Keeps e₀ (Dev.twnPart d cause) := by
  unfold Dev.twnPart
  try dsimp only
  repeat' first
    | with_reducible assumption
    | with_reducible apply Dev.twnSend_keeps
    | with_reducible apply Dev.Keeps.ite
    | with_reducible apply Dev.Keeps.ite_snd
    | with_reducible apply Dev.Keeps.foldl
    | simp only [Dev.Keeps.keep]
    | (intro _; intros; try dsimp only)
    | dsimp only
    | (split; all_goals try dsimp only)

theorem Dev.twnLatch_keeps {e₀ d : Dev} (h : Dev.Keeps e₀ d) (m : Nat) : Dev.Keeps e₀ (Dev.twnLatch d m).2 := by
  unfold Dev.twnLatch
  try dsimp only
  repeat' first
    | with_reducible assumption
    | with_reducible apply Dev.raise_keeps
    | with_reducible apply Dev.twnEvent_keeps
    | with_reducible apply Dev.enterAlone_keeps
    | with_reducible apply Dev.twnPart_keeps
    | with_reducible apply Dev.Keeps.ite
    | with_reducible apply Dev.Keeps.ite_snd
    | with_reducible apply Dev.Keeps.foldl
    | simp only [Dev.Keeps.keep]
    | (intro _; intros; try dsimp only)
    | dsimp only
    | (split; all_goals try dsimp only)

theorem Dev.laneLost_keeps {e₀ d : Dev} (h : Dev.Keeps e₀ d) (p : Nat) (x : Nat) : Dev.Keeps e₀ (Dev.laneLost d p x) := by
  unfold Dev.laneLost
  try dsimp only
  repeat' first
    | with_reducible assumption
    | with_reducible apply Dev.setLane_keeps
    | with_reducible apply Dev.raise_keeps
    | with_reducible apply Dev.twnEvent_keeps
    | with_reducible apply Dev.Keeps.ite
    | with_reducible apply Dev.Keeps.ite_snd
    | with_reducible apply Dev.Keeps.foldl
    | simp only [Dev.Keeps.keep]
    | (intro _; intros; try dsimp only)
    | dsimp only
    | (split; all_goals try dsimp only)

theorem Dev.enterPaired_keeps {e₀ d : Dev} (h : Dev.Keeps e₀ d) : Dev.Keeps e₀ (Dev.enterPaired d) := by
  unfold Dev.enterPaired
  try dsimp only
  repeat' first
    | with_reducible assumption
    | with_reducible apply Dev.twnTo_keeps
    | with_reducible apply Dev.setFld_keeps
    | with_reducible apply Dev.raise_keeps
    | with_reducible apply Dev.coachSettle_keeps
    | with_reducible apply Dev.Keeps.ite
    | with_reducible apply Dev.Keeps.ite_snd
    | with_reducible apply Dev.Keeps.foldl
    | simp only [Dev.Keeps.keep]
    | (intro _; intros; try dsimp only)
    | dsimp only
    | (split; all_goals try dsimp only)

theorem Dev.syncDelay_keeps {e₀ d : Dev} (h : Dev.Keeps e₀ d) (payload : List Byte) (arrival : Nat) : Dev.Keeps e₀ (Dev.syncDelay d payload arrival).2 := by
  unfold Dev.syncDelay
  have key := fun (z : Rat) => Dev.roundFree_keeps h z
  generalize signed 64 = s64
  generalize syncField payload = f
  generalize 2 ^ 64 = big
  generalize 2 ^ 24 = lit
  exact Dev.Keeps.ite_pair h none (key _) fun x => some (x % lit)

theorem Dev.enterAuth_keeps {e₀ d : Dev} (h : Dev.Keeps e₀ d) : Dev.Keeps e₀ (Dev.enterAuth d) := by
  unfold Dev.enterAuth
  try dsimp only
  repeat' first
    | with_reducible assumption
    | with_reducible apply Dev.freshBytes_keeps
    | with_reducible apply Dev.setFld_keeps
    | with_reducible apply Dev.twnTo_keeps
    | with_reducible apply Dev.twnSend_keeps
    | with_reducible apply Dev.Keeps.ite
    | with_reducible apply Dev.Keeps.ite_snd
    | with_reducible apply Dev.Keeps.foldl
    | simp only [Dev.Keeps.keep]
    | (intro _; intros; try dsimp only)
    | dsimp only
    | (split; all_goals try dsimp only)

theorem Dev.twnRetry_keeps {e₀ d : Dev} (h : Dev.Keeps e₀ d) : Dev.Keeps e₀ (Dev.twnRetry d) := by
  unfold Dev.twnRetry
  try dsimp only
  repeat' first
    | with_reducible assumption
    | with_reducible apply Dev.enterAuth_keeps
    | with_reducible apply Dev.refuse_keeps
    | with_reducible apply Dev.Keeps.ite
    | with_reducible apply Dev.Keeps.ite_snd
    | with_reducible apply Dev.Keeps.foldl
    | simp only [Dev.Keeps.keep]
    | (intro _; intros; try dsimp only)
    | dsimp only
    | (split; all_goals try dsimp only)

theorem Dev.laneAligned_keeps {e₀ d : Dev} (h : Dev.Keeps e₀ d) (p : Nat) : Dev.Keeps e₀ (Dev.laneAligned d p) := by
  unfold Dev.laneAligned
  try dsimp only
  repeat' first
    | with_reducible assumption
    | with_reducible apply Dev.setLane_keeps
    | with_reducible apply Dev.enterAuth_keeps
    | with_reducible apply Dev.Keeps.ite
    | with_reducible apply Dev.Keeps.ite_snd
    | with_reducible apply Dev.Keeps.foldl
    | simp only [Dev.Keeps.keep]
    | (intro _; intros; try dsimp only)
    | dsimp only
    | (split; all_goals try dsimp only)

theorem Dev.twnHeard_keeps {e₀ d : Dev} (h : Dev.Keeps e₀ d) (h : TwinHead) (good : Bool) : Dev.Keeps e₀ (Dev.twnHeard d h good).2 := by
  unfold Dev.twnHeard
  try dsimp only
  repeat' first
    | with_reducible assumption
    | with_reducible apply Dev.countBy_keeps
    | with_reducible apply Dev.twnAck_keeps
    | with_reducible apply Dev.count_keeps
    | with_reducible apply Dev.Keeps.ite
    | with_reducible apply Dev.Keeps.ite_snd
    | with_reducible apply Dev.Keeps.foldl
    | simp only [Dev.Keeps.keep]
    | (intro _; intros; try dsimp only)
    | dsimp only
    | (split; all_goals try dsimp only)

theorem Dev.laneTrain_keeps {e₀ d : Dev} (hk : Dev.Keeps e₀ d) (p : Nat) :
    Dev.Keeps e₀ (Dev.laneTrain d p) := by
  unfold Dev.laneTrain
  try dsimp only
  repeat' first
    | with_reducible assumption
    | with_reducible apply Dev.emit_keeps
    | with_reducible apply Dev.Keeps.ite
    | with_reducible apply Dev.Keeps.ite_snd
    | with_reducible apply Dev.Keeps.foldl
    | simp only [Dev.Keeps.keep]
    | (intro _; intros; try dsimp only)
    | dsimp only
    | (split; all_goals try dsimp only)

theorem Dev.laneUp_keeps {e₀ d : Dev} (h : Dev.Keeps e₀ d) (p : Nat) : Dev.Keeps e₀ (Dev.laneUp d p) := by
  unfold Dev.laneUp
  try dsimp only
  repeat' first
    | with_reducible assumption
    | with_reducible apply Dev.setLane_keeps
    | with_reducible apply Dev.laneTrain_keeps
    | with_reducible apply Dev.Keeps.ite
    | with_reducible apply Dev.Keeps.ite_snd
    | with_reducible apply Dev.Keeps.foldl
    | simp only [Dev.Keeps.keep]
    | (intro _; intros; try dsimp only)
    | dsimp only
    | (split; all_goals try dsimp only)

theorem Dev.laneRetrain_keeps {e₀ d : Dev} (h : Dev.Keeps e₀ d) (p : Nat) : Dev.Keeps e₀ (Dev.laneRetrain d p) := by
  unfold Dev.laneRetrain
  try dsimp only
  repeat' first
    | with_reducible assumption
    | with_reducible apply Dev.laneLost_keeps
    | with_reducible apply Dev.laneTrain_keeps
    | with_reducible apply Dev.newEpoch_keeps
    | with_reducible apply Dev.twnEvent_keeps
    | with_reducible apply Dev.Keeps.ite
    | with_reducible apply Dev.Keeps.ite_snd
    | with_reducible apply Dev.Keeps.foldl
    | simp only [Dev.Keeps.keep]
    | (intro _; intros; try dsimp only)
    | dsimp only
    | (split; all_goals try dsimp only)

theorem Dev.writeTwnPort_keeps {e₀ d : Dev} (h : Dev.Keeps e₀ d) (p : Nat) (v : Nat) : Dev.Keeps e₀ (Dev.writeTwnPort d p v) := by
  unfold Dev.writeTwnPort
  try dsimp only
  repeat' first
    | with_reducible assumption
    | with_reducible apply Dev.genericWrite_keeps
    | with_reducible apply Dev.laneUp_keeps
    | with_reducible apply Dev.laneLost_keeps
    | with_reducible apply Dev.refuse_keeps
    | with_reducible apply Dev.laneRetrain_keeps
    | with_reducible apply Dev.Keeps.ite
    | with_reducible apply Dev.Keeps.ite_snd
    | with_reducible apply Dev.Keeps.foldl
    | simp only [Dev.Keeps.keep]
    | (intro _; intros; try dsimp only)
    | dsimp only
    | (split; all_goals try dsimp only)

theorem Dev.sendImage_keeps {e₀ d : Dev} (h : Dev.Keeps e₀ d) : Dev.Keeps e₀ (Dev.sendImage d) := by
  unfold Dev.sendImage
  try dsimp only
  repeat' first
    | with_reducible assumption
    | with_reducible apply Dev.twnSendMsg_keeps
    | with_reducible apply Dev.Keeps.ite
    | with_reducible apply Dev.Keeps.ite_snd
    | with_reducible apply Dev.Keeps.foldl
    | with_reducible apply Dev.Keeps.foldl_fst
    | simp only [Dev.Keeps.keep]
    | (intro _; intros; try dsimp only)
    | dsimp only
    | (split; all_goals try dsimp only)

theorem Dev.enterJoin_keeps {e₀ d : Dev} (h : Dev.Keeps e₀ d) : Dev.Keeps e₀ (Dev.enterJoin d) := by
  unfold Dev.enterJoin
  try dsimp only
  repeat' first
    | with_reducible assumption
    | with_reducible apply Dev.twnTo_keeps
    | with_reducible apply Dev.setStandby_keeps
    | with_reducible apply Dev.coachSettle_keeps
    | with_reducible apply Dev.sendImage_keeps
    | with_reducible apply Dev.Keeps.ite
    | with_reducible apply Dev.Keeps.ite_snd
    | with_reducible apply Dev.Keeps.foldl
    | simp only [Dev.Keeps.keep]
    | (intro _; intros; try dsimp only)
    | dsimp only
    | (split; all_goals try dsimp only)

theorem Dev.twnFail_keeps {e₀ d : Dev} (h : Dev.Keeps e₀ d) (row : Nat) : Dev.Keeps e₀ (Dev.twnFail d row) := by
  unfold Dev.twnFail
  try dsimp only
  repeat' first
    | with_reducible assumption
    | with_reducible apply Dev.twnTo_keeps
    | with_reducible apply Dev.setFld_keeps
    | with_reducible apply Dev.Keeps.ite
    | with_reducible apply Dev.Keeps.ite_snd
    | with_reducible apply Dev.Keeps.foldl
    | simp only [Dev.Keeps.keep]
    | (intro _; intros; try dsimp only)
    | dsimp only
    | (split; all_goals try dsimp only)

theorem Dev.twnTagged_keeps {e₀ d : Dev} (h : Dev.Keeps e₀ d) (tag : List Byte) : Dev.Keeps e₀ (Dev.twnTagged d tag) := by
  unfold Dev.twnTagged
  try dsimp only
  repeat' first
    | with_reducible assumption
    | with_reducible apply Dev.enterJoin_keeps
    | with_reducible apply Dev.enterPaired_keeps
    | with_reducible apply Dev.twnFail_keeps
    | with_reducible apply Dev.Keeps.ite
    | with_reducible apply Dev.Keeps.ite_snd
    | with_reducible apply Dev.Keeps.foldl
    | simp only [Dev.Keeps.keep]
    | (intro _; intros; try dsimp only)
    | dsimp only
    | (split; all_goals try dsimp only)

theorem Dev.twnSettle_keeps {e₀ d : Dev} (h : Dev.Keeps e₀ d) : Dev.Keeps e₀ (Dev.twnSettle d) := by
  unfold Dev.twnSettle
  try dsimp only
  repeat' first
    | with_reducible assumption
    | with_reducible apply Dev.emit_keeps
    | with_reducible apply Dev.laneUp_keeps
    | with_reducible apply Dev.laneLost_keeps
    | with_reducible apply Dev.Keeps.ite
    | with_reducible apply Dev.Keeps.ite_snd
    | with_reducible apply Dev.Keeps.foldl
    | simp only [Dev.Keeps.keep]
    | (intro _; intros; try dsimp only)
    | dsimp only
    | (split; all_goals try dsimp only)

theorem Dev.partnerLost_keeps {e₀ d : Dev} (h : Dev.Keeps e₀ d) : Dev.Keeps e₀ (Dev.partnerLost d) := by
  unfold Dev.partnerLost
  try dsimp only
  repeat' first
    | with_reducible assumption
    | with_reducible apply Dev.enterAlone_keeps
    | with_reducible apply Dev.raise_keeps
    | with_reducible apply Dev.twnEvent_keeps
    | with_reducible apply Dev.count_keeps
    | with_reducible apply Dev.standbyDue_keeps
    | with_reducible apply Dev.setFld_keeps
    | with_reducible apply Dev.Keeps.ite
    | with_reducible apply Dev.Keeps.ite_snd
    | with_reducible apply Dev.Keeps.foldl
    | simp only [Dev.Keeps.keep]
    | (intro _; intros; try dsimp only)
    | dsimp only
    | (split; all_goals try dsimp only)

theorem Dev.twnResend_keeps {e₀ d : Dev} (h : Dev.Keeps e₀ d) : Dev.Keeps e₀ (Dev.twnResend d) := by
  unfold Dev.twnResend
  try dsimp only
  repeat' first
    | with_reducible assumption
    | with_reducible apply Dev.count_keeps
    | with_reducible apply Dev.twnEmit_keeps
    | with_reducible apply Dev.Keeps.ite
    | with_reducible apply Dev.Keeps.ite_snd
    | with_reducible apply Dev.Keeps.foldl
    | simp only [Dev.Keeps.keep]
    | (intro _; intros; try dsimp only)
    | dsimp only
    | (split; all_goals try dsimp only)

theorem Dev.twnDecide_keeps {e₀ d : Dev} (h : Dev.Keeps e₀ d) : Dev.Keeps e₀ (Dev.twnDecide d) := by
  unfold Dev.twnDecide
  try dsimp only
  repeat' first
    | with_reducible assumption
    | with_reducible apply Dev.twnSendMsg_keeps
    | with_reducible apply Dev.Keeps.ite
    | with_reducible apply Dev.Keeps.ite_snd
    | with_reducible apply Dev.Keeps.foldl
    | simp only [Dev.Keeps.keep]
    | (intro _; intros; try dsimp only)
    | dsimp only
    | (split; all_goals try dsimp only)

theorem Dev.twnCutoff_keeps {e₀ d : Dev} (h : Dev.Keeps e₀ d) : Dev.Keeps e₀ (Dev.twnCutoff d) := by
  unfold Dev.twnCutoff
  try dsimp only
  repeat' first
    | with_reducible assumption
    | with_reducible apply Dev.advanceSc_keeps
    | with_reducible apply Dev.twnSendMsg_keeps
    | with_reducible apply Dev.twnDecide_keeps
    | with_reducible apply Dev.Keeps.ite
    | with_reducible apply Dev.Keeps.ite_snd
    | with_reducible apply Dev.Keeps.foldl
    | simp only [Dev.Keeps.keep]
    | (intro _; intros; try dsimp only)
    | dsimp only
    | (split; all_goals try dsimp only)

theorem Dev.twnSync_keeps {e₀ d : Dev} (h : Dev.Keeps e₀ d) (payload : List Byte) (arrival : Nat) : Dev.Keeps e₀ (Dev.twnSync d payload arrival) := by
  unfold Dev.twnSync
  try dsimp only
  repeat' first
    | with_reducible assumption
    | with_reducible apply Dev.syncDelay_keeps
    | with_reducible apply Dev.setReg_keeps
    | with_reducible apply Dev.freshBool_keeps
    | with_reducible apply Dev.raise_keeps
    | with_reducible apply Dev.twnEvent_keeps
    | with_reducible apply Dev.count_keeps
    | with_reducible apply Dev.Keeps.ite
    | with_reducible apply Dev.Keeps.ite_snd
    | with_reducible apply Dev.Keeps.foldl
    | simp only [Dev.Keeps.keep]
    | (intro _; intros; try dsimp only)
    | dsimp only
    | (split; all_goals try dsimp only)

theorem Dev.onTwin_keeps {e₀ d : Dev} (h : Dev.Keeps e₀ d) (p : Nat) (key : Nat) (f : Dev → Dev) (hf : ∀ d, Dev.Keeps e₀ d → Dev.Keeps e₀ (f d)) : Dev.Keeps e₀ (Dev.onTwin d p key f) := by
  unfold Dev.onTwin
  try dsimp only
  repeat' first
    | with_reducible assumption
    | with_reducible apply hf
    | with_reducible apply Dev.onWrite_keeps
    | with_reducible apply Dev.Keeps.ite
    | with_reducible apply Dev.Keeps.ite_snd
    | with_reducible apply Dev.Keeps.foldl
    | simp only [Dev.Keeps.keep]
    | (intro _; intros; try dsimp only)
    | dsimp only
    | (split; all_goals try dsimp only)

theorem Dev.unpair_keeps {e₀ d : Dev} (h : Dev.Keeps e₀ d) : Dev.Keeps e₀ (Dev.unpair d) := by
  unfold Dev.unpair
  try dsimp only
  repeat' first
    | with_reducible assumption
    | with_reducible apply Dev.twnPart_keeps
    | with_reducible apply Dev.comparisonsEnd_keeps
    | with_reducible apply Dev.twnTo_keeps
    | with_reducible apply Dev.readsOver_keeps
    | with_reducible apply Dev.pairEnded_keeps
    | with_reducible apply Dev.readsAcked_keeps
    | with_reducible apply Dev.Keeps.ite
    | with_reducible apply Dev.Keeps.ite_snd
    | with_reducible apply Dev.Keeps.foldl
    | simp only [Dev.Keeps.keep]
    | (intro _; intros; try dsimp only)
    | dsimp only
    | (split; all_goals try dsimp only)

theorem Dev.twnSwap_keeps {e₀ d : Dev} (h : Dev.Keeps e₀ d) : Dev.Keeps e₀ (Dev.twnSwap d) := by
  unfold Dev.twnSwap
  try dsimp only
  repeat' first
    | with_reducible assumption
    | with_reducible apply Dev.refuse_keeps
    | with_reducible apply Dev.setFld_keeps
    | with_reducible apply Dev.flushSets_keeps
    | with_reducible apply Dev.coachSettle_keeps
    | with_reducible apply Dev.setStandby_keeps
    | with_reducible apply Dev.Keeps.ite
    | with_reducible apply Dev.Keeps.ite_snd
    | with_reducible apply Dev.Keeps.foldl
    | simp only [Dev.Keeps.keep]
    | (intro _; intros; try dsimp only)
    | dsimp only
    | (split; all_goals try dsimp only)

theorem Dev.writeTwnCtrl_keeps {e₀ d : Dev} (h : Dev.Keeps e₀ d) (v : Nat) : Dev.Keeps e₀ (Dev.writeTwnCtrl d v) := by
  unfold Dev.writeTwnCtrl
  try dsimp only
  repeat' first
    | with_reducible assumption
    | with_reducible apply Dev.genericWrite_keeps
    | with_reducible apply Dev.twnPart_keeps
    | with_reducible apply Dev.unpair_keeps
    | with_reducible apply Dev.twnRetry_keeps
    | with_reducible apply Dev.twnSwap_keeps
    | with_reducible apply Dev.twnSettle_keeps
    | with_reducible apply Dev.Keeps.ite
    | with_reducible apply Dev.Keeps.ite_snd
    | with_reducible apply Dev.Keeps.foldl
    | simp only [Dev.Keeps.keep]
    | (intro _; intros; try dsimp only)
    | dsimp only
    | (split; all_goals try dsimp only)

theorem Dev.writeTwnLoss_keeps {e₀ d : Dev} (h : Dev.Keeps e₀ d) (v : Nat) : Dev.Keeps e₀ (Dev.writeTwnLoss d v) := by
  unfold Dev.writeTwnLoss
  try dsimp only
  repeat' first
    | with_reducible assumption
    | with_reducible apply Dev.refuse_keeps
    | with_reducible apply Dev.genericWrite_keeps
    | with_reducible apply Dev.Keeps.ite
    | with_reducible apply Dev.Keeps.ite_snd
    | with_reducible apply Dev.Keeps.foldl
    | simp only [Dev.Keeps.keep]
    | (intro _; intros; try dsimp only)
    | dsimp only
    | (split; all_goals try dsimp only)

end Sys2Proof.Machine
end

