-- ==== Sys2Proof/Laws/KeepsTrunk.lean ====
section
/-! SUPPORT. Trunk. -/

set_option linter.unusedTactic false
set_option linter.unreachableTactic false
set_option linter.unusedVariables false
set_option linter.unusedSimpArgs false

namespace Sys2Proof.Machine

theorem Dev.laneUpper_keeps {e₀ d : Dev} (h : Dev.Keeps e₀ d) (x : TrkLane) : Dev.Keeps e₀ (Dev.laneUpper d x).2 := by
  unfold Dev.laneUpper
  try dsimp only
  repeat' first
    | with_reducible assumption
    | with_reducible apply Dev.freshBool_keeps
    | with_reducible apply Dev.Keeps.ite
    | with_reducible apply Dev.Keeps.ite_snd
    | with_reducible apply Dev.Keeps.foldl
    | simp only [Dev.Keeps.keep]
    | (intro _; intros; try dsimp only)
    | dsimp only
    | (split; all_goals try dsimp only)

theorem Dev.laneAuthed_keeps {e₀ d : Dev} (h : Dev.Keeps e₀ d) (p : Nat) (payload : List Byte) : Dev.Keeps e₀ (Dev.laneAuthed d p payload) := by
  unfold Dev.laneAuthed
  try dsimp only
  repeat' first
    | with_reducible assumption
    | with_reducible apply Dev.setTlane_keeps
    | with_reducible apply Dev.laneUpper_keeps
    | with_reducible apply Dev.trkSendOn_keeps
    | with_reducible apply Dev.Keeps.ite
    | with_reducible apply Dev.Keeps.ite_snd
    | with_reducible apply Dev.Keeps.foldl
    | simp only [Dev.Keeps.keep]
    | (intro _; intros; try dsimp only)
    | dsimp only
    | (split; all_goals try dsimp only)

theorem Dev.setComplete_keeps {e₀ d : Dev} (h : Dev.Keeps e₀ d) (s : TrunkSet) (status : Nat) (stroke : Nat) (detail : Nat) : Dev.Keeps e₀ (Dev.setComplete d s status stroke detail) := by
  unfold Dev.setComplete
  try dsimp only
  repeat' first
    | with_reducible assumption
    | with_reducible apply Dev.ringComplete_keeps
    | with_reducible apply Dev.Keeps.ite
    | with_reducible apply Dev.Keeps.ite_snd
    | with_reducible apply Dev.Keeps.foldl
    | simp only [Dev.Keeps.keep]
    | (intro _; intros; try dsimp only)
    | dsimp only
    | (split; all_goals try dsimp only)

theorem Dev.dropTrunkSet_keeps {e₀ d : Dev} (h : Dev.Keeps e₀ d) (n : Nat) : Dev.Keeps e₀ (Dev.dropTrunkSet d n) := by
  unfold Dev.dropTrunkSet
  try dsimp only
  repeat' first
    | with_reducible assumption
    | with_reducible apply Dev.Keeps.ite
    | with_reducible apply Dev.Keeps.ite_snd
    | with_reducible apply Dev.Keeps.foldl
    | simp only [Dev.Keeps.keep]
    | (intro _; intros; try dsimp only)
    | dsimp only
    | (split; all_goals try dsimp only)

theorem Dev.putTrunkSet_keeps {e₀ d : Dev} (hk : Dev.Keeps e₀ d) (s : TrunkSet) :
    Dev.Keeps e₀ (Dev.putTrunkSet d s) := by
  unfold Dev.putTrunkSet
  try dsimp only
  repeat' first
    | with_reducible assumption
    | with_reducible apply Dev.Keeps.ite
    | with_reducible apply Dev.Keeps.ite_snd
    | with_reducible apply Dev.Keeps.foldl
    | simp only [Dev.Keeps.keep]
    | (intro _; intros; try dsimp only)
    | dsimp only
    | (split; all_goals try dsimp only)

theorem Dev.setProgress_keeps {e₀ d : Dev} (h : Dev.Keeps e₀ d) (s : TrunkSet) : Dev.Keeps e₀ (Dev.setProgress d s) := by
  unfold Dev.setProgress
  try dsimp only
  repeat' first
    | with_reducible assumption
    | with_reducible apply Dev.setComplete_keeps
    | with_reducible apply Dev.dropTrunkSet_keeps
    | with_reducible apply Dev.fenceAdvance_keeps
    | with_reducible apply Dev.putTrunkSet_keeps
    | with_reducible apply Dev.Keeps.ite
    | with_reducible apply Dev.Keeps.ite_snd
    | with_reducible apply Dev.Keeps.foldl
    | simp only [Dev.Keeps.keep]
    | (intro _; intros; try dsimp only)
    | dsimp only
    | (split; all_goals try dsimp only)

theorem Dev.setsProgress_keeps {e₀ d : Dev} (h : Dev.Keeps e₀ d) : Dev.Keeps e₀ (Dev.setsProgress d) := by
  unfold Dev.setsProgress
  try dsimp only
  repeat' first
    | with_reducible assumption
    | with_reducible apply Dev.setProgress_keeps
    | with_reducible apply Dev.Keeps.ite
    | with_reducible apply Dev.Keeps.ite_snd
    | with_reducible apply Dev.Keeps.foldl
    | simp only [Dev.Keeps.keep]
    | (intro _; intros; try dsimp only)
    | dsimp only
    | (split; all_goals try dsimp only)

theorem Dev.trunkOriginLatch_keeps {e₀ d : Dev} (h : Dev.Keeps e₀ d) (m : Nat) : Dev.Keeps e₀ (Dev.trunkOriginLatch d m) := by
  unfold Dev.trunkOriginLatch
  try dsimp only
  repeat' first
    | with_reducible assumption
    | with_reducible apply Dev.fenceAdvance_keeps
    | with_reducible apply Dev.putTrunkSet_keeps
    | with_reducible apply Dev.setsProgress_keeps
    | with_reducible apply Dev.dropTrunkSet_keeps
    | with_reducible apply Dev.setComplete_keeps
    | with_reducible apply Dev.Keeps.ite
    | with_reducible apply Dev.Keeps.ite_snd
    | with_reducible apply Dev.Keeps.foldl
    | with_reducible apply Dev.Keeps.foldl_fst
    | simp only [Dev.Keeps.keep]
    | (intro _; intros; try dsimp only)
    | dsimp only
    | (split; all_goals try dsimp only)

theorem Dev.trkTrain_keeps {e₀ d : Dev} (hk : Dev.Keeps e₀ d) (p : Nat) :
    Dev.Keeps e₀ (Dev.trkTrain d p) := by
  unfold Dev.trkTrain
  try dsimp only
  repeat' first
    | with_reducible assumption
    | with_reducible apply Dev.emit_keeps
    | with_reducible apply Dev.Keeps.ite
    | with_reducible apply Dev.Keeps.ite_snd
    | with_reducible apply Dev.Keeps.foldl
    | simp only [Dev.Keeps.keep]
    | (intro _; intros; try dsimp only)
    | dsimp only
    | (split; all_goals try dsimp only)

theorem Dev.trkLaneUp_keeps {e₀ d : Dev} (h : Dev.Keeps e₀ d) (p : Nat) : Dev.Keeps e₀ (Dev.trkLaneUp d p) := by
  unfold Dev.trkLaneUp
  try dsimp only
  repeat' first
    | with_reducible assumption
    | with_reducible apply Dev.laneTo_keeps
    | with_reducible apply Dev.trkTrain_keeps
    | with_reducible apply Dev.Keeps.ite
    | with_reducible apply Dev.Keeps.ite_snd
    | with_reducible apply Dev.Keeps.foldl
    | simp only [Dev.Keeps.keep]
    | (intro _; intros; try dsimp only)
    | dsimp only
    | (split; all_goals try dsimp only)

theorem Dev.trunkLateCheck_keeps {e₀ d : Dev} (h : Dev.Keeps e₀ d) (m : Nat) : Dev.Keeps e₀ (Dev.trunkLateCheck d m) := by
  unfold Dev.trunkLateCheck
  try dsimp only
  repeat' first
    | with_reducible assumption
    | with_reducible apply Dev.raise_keeps
    | with_reducible apply Dev.count_keeps
    | with_reducible apply Dev.trkEvent_keeps
    | with_reducible apply Dev.trkQuit_keeps
    | with_reducible apply Dev.Keeps.ite
    | with_reducible apply Dev.Keeps.ite_snd
    | with_reducible apply Dev.Keeps.foldl
    | simp only [Dev.Keeps.keep]
    | (intro _; intros; try dsimp only)
    | dsimp only
    | (split; all_goals try dsimp only)

theorem Dev.putImage_keeps {e₀ d : Dev} (h : Dev.Keeps e₀ d) (regs : List Nat) : Dev.Keeps e₀ (Dev.putImage d regs) := by
  unfold Dev.putImage
  try dsimp only
  repeat' first
    | with_reducible assumption
    | with_reducible apply Dev.setReg_keeps
    | with_reducible apply Dev.Keeps.ite
    | with_reducible apply Dev.Keeps.ite_snd
    | with_reducible apply Dev.Keeps.foldl
    | with_reducible apply Dev.Keeps.foldl_fst
    | simp only [Dev.Keeps.keep]
    | (intro _; intros; try dsimp only)
    | dsimp only
    | (split; all_goals try dsimp only)

theorem Dev.sendPrepared_keeps {e₀ d : Dev} (h : Dev.Keeps e₀ d) (n : Nat) (verdict : Nat) : Dev.Keeps e₀ (Dev.sendPrepared d n verdict) := by
  unfold Dev.sendPrepared
  try dsimp only
  repeat' first
    | with_reducible assumption
    | with_reducible apply Dev.trkUp_keeps
    | with_reducible apply Dev.Keeps.ite
    | with_reducible apply Dev.Keeps.ite_snd
    | with_reducible apply Dev.Keeps.foldl
    | simp only [Dev.Keeps.keep]
    | (intro _; intros; try dsimp only)
    | dsimp only
    | (split; all_goals try dsimp only)

theorem Dev.prepareTiming_keeps {e₀ d : Dev} (h : Dev.Keeps e₀ d) (n : Nat) (im : TimingImage) : Dev.Keeps e₀ (Dev.prepareTiming d n im) := by
  unfold Dev.prepareTiming
  try dsimp only
  repeat' first
    | with_reducible assumption
    | with_reducible apply Dev.putImage_keeps
    | with_reducible apply Dev.sendPrepared_keeps
    | with_reducible apply Dev.Keeps.ite
    | with_reducible apply Dev.Keeps.ite_snd
    | with_reducible apply Dev.Keeps.foldl
    | simp only [Dev.Keeps.keep]
    | (intro _; intros; try dsimp only)
    | dsimp only
    | (split; all_goals try dsimp only)

theorem Dev.reframeRefused_keeps {e₀ d : Dev} (h : Dev.Keeps e₀ d) : Dev.Keeps e₀ (Dev.reframeRefused d) := by
  unfold Dev.reframeRefused
  try dsimp only
  repeat' first
    | with_reducible assumption
    | with_reducible apply Dev.coachSettle_keeps
    | with_reducible apply Dev.raise_keeps
    | with_reducible apply Dev.refuse_keeps
    | with_reducible apply Dev.Keeps.ite
    | with_reducible apply Dev.Keeps.ite_snd
    | with_reducible apply Dev.Keeps.foldl
    | simp only [Dev.Keeps.keep]
    | (intro _; intros; try dsimp only)
    | dsimp only
    | (split; all_goals try dsimp only)

theorem Dev.takeGroup_keeps {e₀ d : Dev} (h : Dev.Keeps e₀ d) (n : Nat) (target : Nat) (es : List (List Nat)) : Dev.Keeps e₀ (Dev.takeGroup d n target es) := by
  unfold Dev.takeGroup
  try dsimp only
  repeat' first
    | with_reducible assumption
    | with_reducible apply Dev.lullExit_keeps
    | with_reducible apply Dev.count_keeps
    | with_reducible apply Dev.sendPrepared_keeps
    | with_reducible apply Dev.acceptSet_keeps
    | with_reducible apply Dev.countVerdict_keeps
    | with_reducible apply Dev.Keeps.ite
    | with_reducible apply Dev.Keeps.ite_snd
    | with_reducible apply Dev.Keeps.foldl
    | simp only [Dev.Keeps.keep]
    | (intro _; intros; try dsimp only)
    | dsimp only
    | (split; all_goals try dsimp only)

theorem Dev.setAbort_keeps {e₀ d : Dev} (h : Dev.Keeps e₀ d) (s : TrunkSet) (status : Nat) (index : Nat) : Dev.Keeps e₀ (Dev.setAbort d s status index) := by
  unfold Dev.setAbort
  try dsimp only
  repeat' first
    | with_reducible assumption
    | with_reducible apply Dev.trkDown_keeps
    | with_reducible apply Dev.count_keeps
    | with_reducible apply Dev.raise_keeps
    | with_reducible apply Dev.dropTrunkSet_keeps
    | with_reducible apply Dev.freshNat_keeps
    | with_reducible apply Dev.setComplete_keeps
    | with_reducible apply Dev.Keeps.ite
    | with_reducible apply Dev.Keeps.ite_snd
    | with_reducible apply Dev.Keeps.foldl
    | simp only [Dev.Keeps.keep]
    | (intro _; intros; try dsimp only)
    | dsimp only
    | (split; all_goals try dsimp only)

theorem Dev.reframeCutoff_keeps {e₀ d : Dev} (h : Dev.Keeps e₀ d) (s : TrunkSet) : Dev.Keeps e₀ (Dev.reframeCutoff d s) := by
  unfold Dev.reframeCutoff
  try dsimp only
  repeat' first
    | with_reducible assumption
    | with_reducible apply Dev.dropTrunkSet_keeps
    | with_reducible apply Dev.trkDown_keeps
    | with_reducible apply Dev.reframeRefused_keeps
    | with_reducible apply Dev.roundFree_keeps
    | with_reducible apply Dev.twnMirror_keeps
    | with_reducible apply Dev.Keeps.ite
    | with_reducible apply Dev.Keeps.ite_snd
    | with_reducible apply Dev.Keeps.foldl
    | simp only [Dev.Keeps.keep]
    | (intro _; intros; try dsimp only)
    | dsimp only
    | (split; all_goals try dsimp only)

theorem Dev.commitCutoff_keeps {e₀ d : Dev} (h : Dev.Keeps e₀ d) : Dev.Keeps e₀ (Dev.commitCutoff d) := by
  unfold Dev.commitCutoff
  try dsimp only
  repeat' first
    | with_reducible assumption
    | with_reducible apply Dev.advanceSc_keeps
    | with_reducible apply Dev.reframeCutoff_keeps
    | with_reducible apply Dev.setAbort_keeps
    | with_reducible apply Dev.trkDown_keeps
    | with_reducible apply Dev.count_keeps
    | with_reducible apply Dev.Keeps.ite
    | with_reducible apply Dev.Keeps.ite_snd
    | with_reducible apply Dev.Keeps.foldl
    | with_reducible apply Dev.Keeps.foldl_fst
    | simp only [Dev.Keeps.keep]
    | (intro _; intros; try dsimp only)
    | dsimp only
    | (split; all_goals try dsimp only)

theorem Dev.trkAck_keeps {e₀ d : Dev} (h : Dev.Keeps e₀ d) (p : Nat) (ack : Nat) : Dev.Keeps e₀ (Dev.trkAck d p ack) := by
  unfold Dev.trkAck
  try dsimp only
  repeat' first
    | with_reducible assumption
    | with_reducible apply Dev.setTlane_keeps
    | with_reducible apply Dev.Keeps.ite
    | with_reducible apply Dev.Keeps.ite_snd
    | with_reducible apply Dev.Keeps.foldl
    | simp only [Dev.Keeps.keep]
    | (intro _; intros; try dsimp only)
    | dsimp only
    | (split; all_goals try dsimp only)

theorem Dev.laneFail_keeps {e₀ d : Dev} (h : Dev.Keeps e₀ d) (p : Nat) (row : Nat) : Dev.Keeps e₀ (Dev.laneFail d p row) := by
  unfold Dev.laneFail
  try dsimp only
  repeat' first
    | with_reducible assumption
    | with_reducible apply Dev.setFld_keeps
    | with_reducible apply Dev.trkTo_keeps
    | with_reducible apply Dev.Keeps.ite
    | with_reducible apply Dev.Keeps.ite_snd
    | with_reducible apply Dev.Keeps.foldl
    | simp only [Dev.Keeps.keep]
    | (intro _; intros; try dsimp only)
    | dsimp only
    | (split; all_goals try dsimp only)

theorem Dev.laneTagged_keeps {e₀ d : Dev} (h : Dev.Keeps e₀ d) (p : Nat) (tag : List Byte) : Dev.Keeps e₀ (Dev.laneTagged d p tag) := by
  unfold Dev.laneTagged
  try dsimp only
  repeat' first
    | with_reducible assumption
    | with_reducible apply Dev.laneUpper_keeps
    | with_reducible apply Dev.laneFail_keeps
    | with_reducible apply Dev.setTlane_keeps
    | with_reducible apply Dev.trkRoute_keeps
    | with_reducible apply Dev.tlyAppendTold_keeps
    | with_reducible apply Dev.trkSendOn_keeps
    | with_reducible apply Dev.Keeps.ite
    | with_reducible apply Dev.Keeps.ite_snd
    | with_reducible apply Dev.Keeps.foldl
    | simp only [Dev.Keeps.keep]
    | (intro _; intros; try dsimp only)
    | dsimp only
    | (split; all_goals try dsimp only)

theorem Dev.readinessSnapshot_keeps {e₀ d : Dev} (h : Dev.Keeps e₀ d) : Dev.Keeps e₀ (Dev.readinessSnapshot d) := by
  unfold Dev.readinessSnapshot
  try dsimp only
  repeat' first
    | with_reducible assumption
    | with_reducible apply Dev.advanceSc_keeps
    | with_reducible apply Dev.trkUp_keeps
    | with_reducible apply Dev.Keeps.ite
    | with_reducible apply Dev.Keeps.ite_snd
    | with_reducible apply Dev.Keeps.foldl
    | simp only [Dev.Keeps.keep]
    | (intro _; intros; try dsimp only)
    | dsimp only
    | (split; all_goals try dsimp only)

theorem Dev.stripLeave_keeps {e₀ d : Dev} (h : Dev.Keeps e₀ d) : Dev.Keeps e₀ (Dev.stripLeave d) := by
  unfold Dev.stripLeave
  try dsimp only
  repeat' first
    | with_reducible assumption
    | with_reducible apply Dev.trkQuit_keeps
    | with_reducible apply Dev.trkLeave_keeps
    | with_reducible apply Dev.trkTo_keeps
    | with_reducible apply Dev.trkForget_keeps
    | with_reducible apply Dev.Keeps.ite
    | with_reducible apply Dev.Keeps.ite_snd
    | with_reducible apply Dev.Keeps.foldl
    | simp only [Dev.Keeps.keep]
    | (intro _; intros; try dsimp only)
    | dsimp only
    | (split; all_goals try dsimp only)

theorem Dev.trkHeard_keeps {e₀ d : Dev} (h : Dev.Keeps e₀ d) (h : TrunkHead) (good : Bool) : Dev.Keeps e₀ (Dev.trkHeard d h good).2 := by
  unfold Dev.trkHeard
  try dsimp only
  repeat' first
    | with_reducible assumption
    | with_reducible apply Dev.countBy_keeps
    | with_reducible apply Dev.trkAck_keeps
    | with_reducible apply Dev.setTlane_keeps
    | with_reducible apply Dev.count_keeps
    | with_reducible apply Dev.Keeps.ite
    | with_reducible apply Dev.Keeps.ite_snd
    | with_reducible apply Dev.Keeps.foldl
    | simp only [Dev.Keeps.keep]
    | (intro _; intros; try dsimp only)
    | dsimp only
    | (split; all_goals try dsimp only)

theorem Dev.showRoster_keeps {e₀ d : Dev} (h : Dev.Keeps e₀ d) : Dev.Keeps e₀ (Dev.showRoster d) := by
  unfold Dev.showRoster
  try dsimp only
  repeat' first
    | with_reducible assumption
    | with_reducible apply Dev.setReg_keeps
    | with_reducible apply Dev.Keeps.ite
    | with_reducible apply Dev.Keeps.ite_snd
    | with_reducible apply Dev.Keeps.foldl
    | simp only [Dev.Keeps.keep]
    | (intro _; intros; try dsimp only)
    | dsimp only
    | (split; all_goals try dsimp only)

theorem Dev.rosterAdd_keeps {e₀ d : Dev} (h : Dev.Keeps e₀ d) (x : Nat × Bool) : Dev.Keeps e₀ (Dev.rosterAdd d x) := by
  unfold Dev.rosterAdd
  try dsimp only
  repeat' first
    | with_reducible assumption
    | with_reducible apply Dev.showRoster_keeps
    | with_reducible apply Dev.Keeps.ite
    | with_reducible apply Dev.Keeps.ite_snd
    | with_reducible apply Dev.Keeps.foldl
    | simp only [Dev.Keeps.keep]
    | (intro _; intros; try dsimp only)
    | dsimp only
    | (split; all_goals try dsimp only)

theorem Dev.takeRollup_keeps {e₀ d : Dev} (h : Dev.Keeps e₀ d) (port : Nat) (origin : Nat) (payload : List Byte) : Dev.Keeps e₀ (Dev.takeRollup d port origin payload) := by
  unfold Dev.takeRollup
  try dsimp only
  repeat' first
    | with_reducible assumption
    | with_reducible apply Dev.freshBytes_keeps
    | with_reducible apply Dev.record_keeps
    | with_reducible apply Dev.raise_keeps
    | with_reducible apply Dev.count_keeps
    | with_reducible apply Dev.trkEvent_keeps
    | with_reducible apply Dev.Keeps.ite
    | with_reducible apply Dev.Keeps.ite_snd
    | with_reducible apply Dev.Keeps.foldl
    | simp only [Dev.Keeps.keep]
    | (intro _; intros; try dsimp only)
    | dsimp only
    | (split; all_goals try dsimp only)

theorem Dev.rosterLeave_keeps {e₀ d : Dev} (h : Dev.Keeps e₀ d) (x : Nat × Bool) : Dev.Keeps e₀ (Dev.rosterLeave d x) := by
  unfold Dev.rosterLeave
  try dsimp only
  repeat' first
    | with_reducible assumption
    | with_reducible apply Dev.showRoster_keeps
    | with_reducible apply Dev.raise_keeps
    | with_reducible apply Dev.trkEvent_keeps
    | with_reducible apply Dev.setAbort_keeps
    | with_reducible apply Dev.setsProgress_keeps
    | with_reducible apply Dev.Keeps.ite
    | with_reducible apply Dev.Keeps.ite_snd
    | with_reducible apply Dev.Keeps.foldl
    | simp only [Dev.Keeps.keep]
    | (intro _; intros; try dsimp only)
    | dsimp only
    | (split; all_goals try dsimp only)

theorem Dev.originUp_keeps {e₀ d : Dev} (h : Dev.Keeps e₀ d) (port : Nat) (type_ : Nat) (x : Nat × Bool) (payload : List Byte) : Dev.Keeps e₀ (Dev.originUp d port type_ x payload) := by
  unfold Dev.originUp
  try dsimp only
  repeat' first
    | with_reducible assumption
    | with_reducible apply Dev.rosterAdd_keeps
    | with_reducible apply Dev.putTrunkSet_keeps
    | with_reducible apply Dev.setsProgress_keeps
    | with_reducible apply Dev.takeRollup_keeps
    | with_reducible apply Dev.rosterLeave_keeps
    | with_reducible apply Dev.Keeps.ite
    | with_reducible apply Dev.Keeps.ite_snd
    | with_reducible apply Dev.Keeps.foldl
    | with_reducible apply Dev.Keeps.foldl_fst
    | simp only [Dev.Keeps.keep]
    | (intro _; intros; try dsimp only)
    | dsimp only
    | (split; all_goals try dsimp only)

theorem Dev.takeUp_keeps {e₀ d : Dev} (hk : Dev.Keeps e₀ d) (port : Nat) (second : Bool) (seq : Nat) (f : TrunkFrame) :
    Dev.Keeps e₀ (Dev.takeUp d port second seq f) := by
  unfold Dev.takeUp
  try dsimp only
  repeat' first
    | with_reducible assumption
    | with_reducible apply Dev.tlyStrip_keeps
    | with_reducible apply Dev.originUp_keeps
    | with_reducible apply Dev.Keeps.ite
    | with_reducible apply Dev.Keeps.ite_snd
    | with_reducible apply Dev.Keeps.foldl
    | simp only [Dev.Keeps.keep]
    | (intro _; intros; try dsimp only)
    | dsimp only
    | (split; all_goals try dsimp only)

theorem Dev.upFrame_keeps {e₀ d : Dev} (hk : Dev.Keeps e₀ d) (p : Nat) (second : Bool) (seq : Nat) (f : TrunkFrame) :
    Dev.Keeps e₀ (Dev.upFrame d p second seq f) := by
  unfold Dev.upFrame
  try dsimp only
  repeat' first
    | with_reducible assumption
    | with_reducible apply Dev.takeUp_keeps
    | with_reducible apply Dev.twnMirror_keeps
    | with_reducible apply Dev.trkSendOn_keeps
    | with_reducible apply Dev.Keeps.ite
    | with_reducible apply Dev.Keeps.ite_snd
    | with_reducible apply Dev.Keeps.foldl
    | simp only [Dev.Keeps.keep]
    | (intro _; intros; try dsimp only)
    | dsimp only
    | (split; all_goals try dsimp only)

theorem Dev.leaveFrame_keeps {e₀ d : Dev} (hk : Dev.Keeps e₀ d) (p : Nat) (second : Bool) (seq : Nat) (f : TrunkFrame) :
    Dev.Keeps e₀ (Dev.leaveFrame d p second seq f) := by
  unfold Dev.leaveFrame
  try dsimp only
  repeat' first
    | with_reducible assumption
    | with_reducible apply Dev.laneTo_keeps
    | with_reducible apply Dev.upFrame_keeps
    | with_reducible apply Dev.Keeps.ite
    | with_reducible apply Dev.Keeps.ite_snd
    | with_reducible apply Dev.Keeps.foldl
    | simp only [Dev.Keeps.keep]
    | (intro _; intros; try dsimp only)
    | dsimp only
    | (split; all_goals try dsimp only)

theorem Dev.placed_keeps {e₀ d : Dev} (hk : Dev.Keeps e₀ d) (sync : Option (Nat × Nat)) (delay : Nat) (t : Rat) :
    Dev.Keeps e₀ (Dev.placed d sync delay t).2 := by
  unfold Dev.placed
  try dsimp only
  repeat' first
    | with_reducible assumption
    | with_reducible apply Dev.freshNat_keeps
    | with_reducible apply Dev.Keeps.ite
    | with_reducible apply Dev.Keeps.ite_snd
    | with_reducible apply Dev.Keeps.foldl
    | simp only [Dev.Keeps.keep]
    | (intro _; intros; try dsimp only)
    | dsimp only
    | (split; all_goals try dsimp only)

theorem Dev.takeImage_keeps {e₀ d : Dev} (hk : Dev.Keeps e₀ d) (p : Nat) (im : TimingImage) :
    Dev.Keeps e₀ (Dev.takeImage d p im) := by
  unfold Dev.takeImage
  try dsimp only
  repeat' first
    | with_reducible assumption
    | with_reducible apply Dev.putImage_keeps
    | with_reducible apply Dev.placed_keeps
    | with_reducible apply Dev.reframeAccept_keeps
    | with_reducible apply Dev.trkTo_keeps
    | with_reducible apply Dev.trkRoute_keeps
    | with_reducible apply Dev.coachSettle_keeps
    | with_reducible apply Dev.Keeps.ite
    | with_reducible apply Dev.Keeps.ite_snd
    | with_reducible apply Dev.Keeps.foldl
    | simp only [Dev.Keeps.keep]
    | (intro _; intros; try dsimp only)
    | dsimp only
    | (split; all_goals try dsimp only)

theorem Dev.preparePart_keeps {e₀ d : Dev} (h : Dev.Keeps e₀ d) (payload : List Byte) : Dev.Keeps e₀ (Dev.preparePart d payload) := by
  unfold Dev.preparePart
  try dsimp only
  repeat' first
    | with_reducible assumption
    | with_reducible apply Dev.takeGroup_keeps
    | with_reducible apply Dev.Keeps.ite
    | with_reducible apply Dev.Keeps.ite_snd
    | with_reducible apply Dev.Keeps.foldl
    | simp only [Dev.Keeps.keep]
    | (intro _; intros; try dsimp only)
    | dsimp only
    | (split; all_goals try dsimp only)

theorem Dev.commitB0_keeps {e₀ d : Dev} (hk : Dev.Keeps e₀ d) (s1 : Nat) (t : Rat) :
    Dev.Keeps e₀ (Dev.commitB0 d s1 t).2 := by
  unfold Dev.commitB0
  try dsimp only
  repeat' first
    | with_reducible assumption
    | with_reducible apply Dev.placed_keeps
    | with_reducible apply Dev.Keeps.ite
    | with_reducible apply Dev.Keeps.ite_snd
    | with_reducible apply Dev.Keeps.foldl
    | simp only [Dev.Keeps.keep]
    | (intro _; intros; try dsimp only)
    | dsimp only
    | (split; all_goals try dsimp only)

theorem Dev.takeCommit_keeps {e₀ d : Dev} (h : Dev.Keeps e₀ d) (payload : List Byte) : Dev.Keeps e₀ (Dev.takeCommit d payload) := by
  unfold Dev.takeCommit
  try dsimp only
  repeat' first
    | with_reducible assumption
    | with_reducible apply Dev.commitB0_keeps
    | with_reducible apply Dev.putImage_keeps
    | with_reducible apply Dev.reframeAccept_keeps
    | with_reducible apply Dev.coachSettle_keeps
    | with_reducible apply Dev.Keeps.ite
    | with_reducible apply Dev.Keeps.ite_snd
    | with_reducible apply Dev.Keeps.foldl
    | simp only [Dev.Keeps.keep]
    | (intro _; intros; try dsimp only)
    | dsimp only
    | (split; all_goals try dsimp only)

theorem Dev.takeAbort_keeps {e₀ d : Dev} (h : Dev.Keeps e₀ d) (payload : List Byte) : Dev.Keeps e₀ (Dev.takeAbort d payload) := by
  unfold Dev.takeAbort
  try dsimp only
  repeat' first
    | with_reducible assumption
    | with_reducible apply Dev.Keeps.ite
    | with_reducible apply Dev.Keeps.ite_snd
    | with_reducible apply Dev.Keeps.foldl
    | simp only [Dev.Keeps.keep]
    | (intro _; intros; try dsimp only)
    | dsimp only
    | (split; all_goals try dsimp only)

theorem Dev.takeDecision_keeps {e₀ d : Dev} (h : Dev.Keeps e₀ d) (payload : List Byte) : Dev.Keeps e₀ (Dev.takeDecision d payload) := by
  unfold Dev.takeDecision
  try dsimp only
  repeat' first
    | with_reducible assumption
    | with_reducible apply Dev.Keeps.ite
    | with_reducible apply Dev.Keeps.ite_snd
    | with_reducible apply Dev.Keeps.foldl
    | simp only [Dev.Keeps.keep]
    | (intro _; intros; try dsimp only)
    | dsimp only
    | (split; all_goals try dsimp only)

theorem Dev.takeDoorbell_keeps {e₀ d : Dev} (h : Dev.Keeps e₀ d) (payload : List Byte) : Dev.Keeps e₀ (Dev.takeDoorbell d payload) := by
  unfold Dev.takeDoorbell
  try dsimp only
  repeat' first
    | with_reducible assumption
    | with_reducible apply Dev.count_keeps
    | with_reducible apply Dev.raise_keeps
    | with_reducible apply Dev.Keeps.ite
    | with_reducible apply Dev.Keeps.ite_snd
    | with_reducible apply Dev.Keeps.foldl
    | simp only [Dev.Keeps.keep]
    | (intro _; intros; try dsimp only)
    | dsimp only
    | (split; all_goals try dsimp only)

theorem Dev.takeDown_keeps {e₀ d : Dev} (h : Dev.Keeps e₀ d) (type_ : Nat) (body : TrunkBody) : Dev.Keeps e₀ (Dev.takeDown d type_ body) := by
  unfold Dev.takeDown
  try dsimp only
  repeat' first
    | with_reducible assumption
    | with_reducible apply Dev.prepareTiming_keeps
    | with_reducible apply Dev.preparePart_keeps
    | with_reducible apply Dev.takeCommit_keeps
    | with_reducible apply Dev.takeAbort_keeps
    | with_reducible apply Dev.takeDecision_keeps
    | with_reducible apply Dev.takeDoorbell_keeps
    | with_reducible apply Dev.Keeps.ite
    | with_reducible apply Dev.Keeps.ite_snd
    | with_reducible apply Dev.Keeps.foldl
    | simp only [Dev.Keeps.keep]
    | (intro _; intros; try dsimp only)
    | dsimp only
    | (split; all_goals try dsimp only)

theorem Dev.trkStrip_keeps {e₀ d : Dev} (hk : Dev.Keeps e₀ d) (seq : Nat) (f : TrunkFrame) (wrong : Option Nat) :
    Dev.Keeps e₀ (Dev.trkStrip d seq f wrong).2 := by
  unfold Dev.trkStrip
  try dsimp only
  repeat' first
    | with_reducible assumption
    | with_reducible apply Dev.tlyStrip_keeps
    | with_reducible apply Dev.tlyStripTold_keeps
    | with_reducible apply Dev.Keeps.ite
    | with_reducible apply Dev.Keeps.ite_snd
    | with_reducible apply Dev.Keeps.foldl
    | simp only [Dev.Keeps.keep]
    | (intro _; intros; try dsimp only)
    | dsimp only
    | (split; all_goals try dsimp only)

theorem Dev.downFrame_keeps {e₀ d : Dev} (hk : Dev.Keeps e₀ d) (p seq : Nat) (f : TrunkFrame) (wrong : Option Nat) :
    Dev.Keeps e₀ (Dev.downFrame d p seq f wrong) := by
  unfold Dev.downFrame
  try dsimp only
  repeat' first
    | with_reducible assumption
    | with_reducible apply Dev.trkSendOn_keeps
    | with_reducible apply Dev.trkStrip_keeps
    | with_reducible apply Dev.stripLeave_keeps
    | with_reducible apply Dev.takeImage_keeps
    | with_reducible apply Dev.takeDown_keeps
    | with_reducible apply Dev.Keeps.ite
    | with_reducible apply Dev.Keeps.ite_snd
    | with_reducible apply Dev.Keeps.foldl
    | with_reducible apply Dev.Keeps.foldl_fst
    | simp only [Dev.Keeps.keep]
    | (intro _; intros; try dsimp only)
    | dsimp only
    | (split; all_goals try dsimp only)

theorem Dev.trkDeliver_keeps {e₀ d : Dev} (hk : Dev.Keeps e₀ d) (p seq : Nat) (f : TrunkFrame) (second : Bool) (wrong : Option Nat) :
    Dev.Keeps e₀ (Dev.trkDeliver d p seq f second wrong) := by
  unfold Dev.trkDeliver
  try dsimp only
  repeat' first
    | with_reducible assumption
    | with_reducible apply Dev.laneAuthed_keeps
    | with_reducible apply Dev.laneTagged_keeps
    | with_reducible apply Dev.leaveFrame_keeps
    | with_reducible apply Dev.downFrame_keeps
    | with_reducible apply Dev.upFrame_keeps
    | with_reducible apply Dev.trkStrip_keeps
    | with_reducible apply Dev.Keeps.ite
    | with_reducible apply Dev.Keeps.ite_snd
    | with_reducible apply Dev.Keeps.foldl
    | simp only [Dev.Keeps.keep]
    | (intro _; intros; try dsimp only)
    | dsimp only
    | (split; all_goals try dsimp only)

theorem Dev.trkDrain_keeps {e₀ d : Dev} (h : Dev.Keeps e₀ d) (p : Nat) (n : Nat) : Dev.Keeps e₀ (Dev.trkDrain d p n) := by
  induction n generalizing d with
  | zero => exact h
  | succ n ih =>
    unfold Dev.trkDrain
    dsimp only
    split
    · exact h
    · exact ih (Dev.trkDeliver_keeps (Dev.setTlane_keeps h _ _) _ _ _ _ _)

theorem Dev.trkTake_keeps {e₀ d : Dev} (hk : Dev.Keeps e₀ d) (h : TrunkHead) (f : TrunkFrame) (wrong : Option Nat) :
    Dev.Keeps e₀ (Dev.trkTake d h f wrong) := by
  unfold Dev.trkTake
  try dsimp only
  repeat' first
    | with_reducible assumption
    | with_reducible apply Dev.trkDrain_keeps
    | with_reducible apply Dev.setTlane_keeps
    | with_reducible apply Dev.Keeps.ite
    | with_reducible apply Dev.Keeps.ite_snd
    | with_reducible apply Dev.Keeps.foldl
    | simp only [Dev.Keeps.keep]
    | (intro _; intros; try dsimp only)
    | dsimp only
    | (split; all_goals try dsimp only)

theorem Dev.authFrame_keeps {e₀ d : Dev} (h : Dev.Keeps e₀ d) (h : TrunkHead) (crc : Word) (payload : List Byte) : Dev.Keeps e₀ (Dev.authFrame d h crc payload) := by
  unfold Dev.authFrame
  try dsimp only
  repeat' first
    | with_reducible assumption
    | with_reducible apply Dev.laneAuth_keeps
    | with_reducible apply Dev.trkHeard_keeps
    | with_reducible apply Dev.trkTake_keeps
    | with_reducible apply Dev.Keeps.ite
    | with_reducible apply Dev.Keeps.ite_snd
    | with_reducible apply Dev.Keeps.foldl
    | simp only [Dev.Keeps.keep]
    | (intro _; intros; try dsimp only)
    | dsimp only
    | (split; all_goals try dsimp only)

theorem Dev.trkFrame_keeps {e₀ d : Dev} (h : Dev.Keeps e₀ d) (h : TrunkHead) (type_ : Nat) (crc : Word) (payload : List Byte) : Dev.Keeps e₀ (Dev.trkFrame d h type_ crc payload) := by
  unfold Dev.trkFrame
  try dsimp only
  repeat' first
    | with_reducible assumption
    | with_reducible apply Dev.trkHeard_keeps
    | with_reducible apply Dev.trkTake_keeps
    | with_reducible apply Dev.Keeps.ite
    | with_reducible apply Dev.Keeps.ite_snd
    | with_reducible apply Dev.Keeps.foldl
    | simp only [Dev.Keeps.keep]
    | (intro _; intros; try dsimp only)
    | dsimp only
    | (split; all_goals try dsimp only)

theorem Dev.decisionSend_keeps {e₀ d : Dev} (h : Dev.Keeps e₀ d) : Dev.Keeps e₀ (Dev.decisionSend d) := by
  unfold Dev.decisionSend
  try dsimp only
  repeat' first
    | with_reducible assumption
    | with_reducible apply Dev.advanceSc_keeps
    | with_reducible apply Dev.count_keeps
    | with_reducible apply Dev.trkEvent_keeps
    | with_reducible apply Dev.raise_keeps
    | with_reducible apply Dev.putTrunkSet_keeps
    | with_reducible apply Dev.trkDown_keeps
    | with_reducible apply Dev.Keeps.ite
    | with_reducible apply Dev.Keeps.ite_snd
    | with_reducible apply Dev.Keeps.foldl
    | with_reducible apply Dev.Keeps.foldl_fst
    | simp only [Dev.Keeps.keep]
    | (intro _; intros; try dsimp only)
    | dsimp only
    | (split; all_goals try dsimp only)

theorem Dev.trkLaneRetrain_keeps {e₀ d : Dev} (h : Dev.Keeps e₀ d) (p : Nat) : Dev.Keeps e₀ (Dev.trkLaneRetrain d p) := by
  unfold Dev.trkLaneRetrain
  try dsimp only
  repeat' first
    | with_reducible assumption
    | with_reducible apply Dev.laneTo_keeps
    | with_reducible apply Dev.trkTrain_keeps
    | with_reducible apply Dev.newEpoch_keeps
    | with_reducible apply Dev.trkEvent_keeps
    | with_reducible apply Dev.Keeps.ite
    | with_reducible apply Dev.Keeps.ite_snd
    | with_reducible apply Dev.Keeps.foldl
    | simp only [Dev.Keeps.keep]
    | (intro _; intros; try dsimp only)
    | dsimp only
    | (split; all_goals try dsimp only)

theorem Dev.writeTrkPort_keeps {e₀ d : Dev} (h : Dev.Keeps e₀ d) (p : Nat) (v : Nat) : Dev.Keeps e₀ (Dev.writeTrkPort d p v) := by
  unfold Dev.writeTrkPort
  try dsimp only
  repeat' first
    | with_reducible assumption
    | with_reducible apply Dev.genericWrite_keeps
    | with_reducible apply Dev.trkLaneUp_keeps
    | with_reducible apply Dev.laneTo_keeps
    | with_reducible apply Dev.refuse_keeps
    | with_reducible apply Dev.trkLaneRetrain_keeps
    | with_reducible apply Dev.Keeps.ite
    | with_reducible apply Dev.Keeps.ite_snd
    | with_reducible apply Dev.Keeps.foldl
    | simp only [Dev.Keeps.keep]
    | (intro _; intros; try dsimp only)
    | dsimp only
    | (split; all_goals try dsimp only)

theorem Dev.writeTrkRing_keeps {e₀ d : Dev} (h : Dev.Keeps e₀ d) (v : Nat) : Dev.Keeps e₀ (Dev.writeTrkRing d v) := by
  unfold Dev.writeTrkRing
  try dsimp only
  repeat' first
    | with_reducible assumption
    | with_reducible apply Dev.refuse_keeps
    | with_reducible apply Dev.ringUnbind_keeps
    | with_reducible apply Dev.genericWrite_keeps
    | with_reducible apply Dev.ringBind_keeps
    | with_reducible apply Dev.Keeps.ite
    | with_reducible apply Dev.Keeps.ite_snd
    | with_reducible apply Dev.Keeps.foldl
    | simp only [Dev.Keeps.keep]
    | (intro _; intros; try dsimp only)
    | dsimp only
    | (split; all_goals try dsimp only)

theorem Dev.trkIdle_keeps {e₀ d : Dev} (h : Dev.Keeps e₀ d) (cause : Nat) : Dev.Keeps e₀ (Dev.trkIdle d cause) := by
  unfold Dev.trkIdle
  try dsimp only
  repeat' first
    | with_reducible assumption
    | with_reducible apply Dev.rosterLeave_keeps
    | with_reducible apply Dev.trkQuit_keeps
    | with_reducible apply Dev.trkTo_keeps
    | with_reducible apply Dev.Keeps.ite
    | with_reducible apply Dev.Keeps.ite_snd
    | with_reducible apply Dev.Keeps.foldl
    | simp only [Dev.Keeps.keep]
    | (intro _; intros; try dsimp only)
    | dsimp only
    | (split; all_goals try dsimp only)

theorem Dev.trkBegin_keeps {e₀ d : Dev} (h : Dev.Keeps e₀ d) : Dev.Keeps e₀ (Dev.trkBegin d) := by
  unfold Dev.trkBegin
  try dsimp only
  repeat' first
    | with_reducible assumption
    | with_reducible apply Dev.laneAuth_keeps
    | with_reducible apply Dev.trkTo_keeps
    | with_reducible apply Dev.trkEnterAuth_keeps
    | with_reducible apply Dev.Keeps.ite
    | with_reducible apply Dev.Keeps.ite_snd
    | with_reducible apply Dev.Keeps.foldl
    | simp only [Dev.Keeps.keep]
    | (intro _; intros; try dsimp only)
    | dsimp only
    | (split; all_goals try dsimp only)

theorem Dev.writeTrkCtrl_keeps {e₀ d : Dev} (h : Dev.Keeps e₀ d) (v : Nat) : Dev.Keeps e₀ (Dev.writeTrkCtrl d v) := by
  unfold Dev.writeTrkCtrl
  try dsimp only
  repeat' first
    | with_reducible assumption
    | with_reducible apply Dev.genericWrite_keeps
    | with_reducible apply Dev.trkIdle_keeps
    | with_reducible apply Dev.trkBegin_keeps
    | with_reducible apply Dev.refuse_keeps
    | with_reducible apply Dev.trkEnterAuth_keeps
    | with_reducible apply Dev.Keeps.ite
    | with_reducible apply Dev.Keeps.ite_snd
    | with_reducible apply Dev.Keeps.foldl
    | simp only [Dev.Keeps.keep]
    | (intro _; intros; try dsimp only)
    | dsimp only
    | (split; all_goals try dsimp only)

theorem Dev.writeTrkLoss_keeps {e₀ d : Dev} (h : Dev.Keeps e₀ d) (v : Nat) : Dev.Keeps e₀ (Dev.writeTrkLoss d v) := by
  unfold Dev.writeTrkLoss
  try dsimp only
  repeat' first
    | with_reducible assumption
    | with_reducible apply Dev.refuse_keeps
    | with_reducible apply Dev.genericWrite_keeps
    | with_reducible apply Dev.Keeps.ite
    | with_reducible apply Dev.Keeps.ite_snd
    | with_reducible apply Dev.Keeps.foldl
    | simp only [Dev.Keeps.keep]
    | (intro _; intros; try dsimp only)
    | dsimp only
    | (split; all_goals try dsimp only)

theorem Dev.tsetReject_keeps {e₀ d : Dev} (hk : Dev.Keeps e₀ d) (r n tag status : Nat) :
    Dev.Keeps e₀ (Dev.tsetReject d r n tag status) := by
  unfold Dev.tsetReject
  try dsimp only
  repeat' first
    | with_reducible assumption
    | with_reducible apply Dev.count_keeps
    | with_reducible apply Dev.freshNat_keeps
    | with_reducible apply Dev.ringReject_keeps
    | with_reducible apply Dev.Keeps.ite
    | with_reducible apply Dev.Keeps.ite_snd
    | with_reducible apply Dev.Keeps.foldl
    | simp only [Dev.Keeps.keep]
    | (intro _; intros; try dsimp only)
    | dsimp only
    | (split; all_goals try dsimp only)

theorem Dev.sendGroup_keeps {e₀ d : Dev} (h : Dev.Keeps e₀ d) (n : Nat) (target : Nat) (g : List Nat × List (List Nat)) : Dev.Keeps e₀ (Dev.sendGroup d n target g) := by
  unfold Dev.sendGroup
  try dsimp only
  repeat' first
    | with_reducible assumption
    | with_reducible apply Dev.trkDown_keeps
    | with_reducible apply Dev.Keeps.ite
    | with_reducible apply Dev.Keeps.ite_snd
    | with_reducible apply Dev.Keeps.foldl
    | simp only [Dev.Keeps.keep]
    | (intro _; intros; try dsimp only)
    | dsimp only
    | (split; all_goals try dsimp only)

theorem Dev.readTset_keeps {e₀ d : Dev} (h : Dev.Keeps e₀ d) : Dev.Keeps e₀ (Dev.readTset d) := by
  unfold Dev.readTset
  try dsimp only
  repeat' first
    | with_reducible assumption
    | with_reducible apply Dev.ringBind_keeps
    | with_reducible apply Dev.ringFetch_keeps
    | with_reducible apply Dev.rejectSet_keeps
    | with_reducible apply Dev.lullExit_keeps
    | with_reducible apply Dev.tsetReject_keeps
    | with_reducible apply Dev.ringTake_keeps
    | with_reducible apply Dev.sendGroup_keeps
    | with_reducible apply Dev.Keeps.ite
    | with_reducible apply Dev.Keeps.ite_snd
    | with_reducible apply Dev.Keeps.foldl
    | with_reducible apply Dev.Keeps.foldl_fst
    | simp only [Dev.Keeps.keep]
    | (intro _; intros; try dsimp only)
    | dsimp only
    | (split; all_goals try dsimp only)

theorem Dev.writeTrkTimes_keeps {e₀ d : Dev} (h : Dev.Keeps e₀ d) (v : Nat) : Dev.Keeps e₀ (Dev.writeTrkTimes d v) := by
  unfold Dev.writeTrkTimes
  try dsimp only
  repeat' first
    | with_reducible assumption
    | with_reducible apply Dev.refuse_keeps
    | with_reducible apply Dev.genericWrite_keeps
    | with_reducible apply Dev.Keeps.ite
    | with_reducible apply Dev.Keeps.ite_snd
    | with_reducible apply Dev.Keeps.foldl
    | simp only [Dev.Keeps.keep]
    | (intro _; intros; try dsimp only)
    | dsimp only
    | (split; all_goals try dsimp only)

theorem Dev.trkResend_keeps {e₀ d : Dev} (h : Dev.Keeps e₀ d) (p : Nat) : Dev.Keeps e₀ (Dev.trkResend d p) := by
  unfold Dev.trkResend
  try dsimp only
  repeat' first
    | with_reducible assumption
    | with_reducible apply Dev.laneTo_keeps
    | with_reducible apply Dev.trkTrain_keeps
    | with_reducible apply Dev.trkPut_keeps
    | with_reducible apply Dev.count_keeps
    | with_reducible apply Dev.setTlane_keeps
    | with_reducible apply Dev.Keeps.ite
    | with_reducible apply Dev.Keeps.ite_snd
    | with_reducible apply Dev.Keeps.foldl
    | simp only [Dev.Keeps.keep]
    | (intro _; intros; try dsimp only)
    | dsimp only
    | (split; all_goals try dsimp only)

theorem Dev.takeTick_keeps {e₀ d : Dev} (h : Dev.Keeps e₀ d) (p : Nat) (f : TrunkFrame) (payload : List Byte) (arrival : Nat) (residence : Nat) (first : Bool) : Dev.Keeps e₀ (Dev.takeTick d p f payload arrival residence first) := by
  unfold Dev.takeTick
  try dsimp only
  repeat' first
    | with_reducible assumption
    | with_reducible apply Dev.trkSendOn_keeps
    | with_reducible apply Dev.trkQuit_keeps
    | with_reducible apply Dev.referenceAt_keeps
    | with_reducible apply Dev.Keeps.ite
    | with_reducible apply Dev.Keeps.ite_snd
    | with_reducible apply Dev.Keeps.foldl
    | simp only [Dev.Keeps.keep]
    | (intro _; intros; try dsimp only)
    | dsimp only
    | (split; all_goals try dsimp only)

theorem Dev.writeTrkDb_keeps {e₀ d : Dev} (h : Dev.Keeps e₀ d) (v : Nat) : Dev.Keeps e₀ (Dev.writeTrkDb d v) := by
  unfold Dev.writeTrkDb
  try dsimp only
  repeat' first
    | with_reducible assumption
    | with_reducible apply Dev.refuse_keeps
    | with_reducible apply Dev.trkDown_keeps
    | with_reducible apply Dev.Keeps.ite
    | with_reducible apply Dev.Keeps.ite_snd
    | with_reducible apply Dev.Keeps.foldl
    | simp only [Dev.Keeps.keep]
    | (intro _; intros; try dsimp only)
    | dsimp only
    | (split; all_goals try dsimp only)

theorem Dev.sendTick_keeps {e₀ d : Dev} (h : Dev.Keeps e₀ d) : Dev.Keeps e₀ (Dev.sendTick d) := by
  unfold Dev.sendTick
  try dsimp only
  repeat' first
    | with_reducible assumption
    | with_reducible apply Dev.trkDown_keeps
    | with_reducible apply Dev.Keeps.ite
    | with_reducible apply Dev.Keeps.ite_snd
    | with_reducible apply Dev.Keeps.foldl
    | simp only [Dev.Keeps.keep]
    | (intro _; intros; try dsimp only)
    | dsimp only
    | (split; all_goals try dsimp only)

theorem Dev.trunkApplied_keeps {e₀ d : Dev} (h : Dev.Keeps e₀ d) : Dev.Keeps e₀ (Dev.trunkApplied d) := by
  unfold Dev.trunkApplied
  try dsimp only
  repeat' first
    | with_reducible assumption
    | with_reducible apply Dev.trkUp_keeps
    | with_reducible apply Dev.trkReleased_keeps
    | with_reducible apply Dev.Keeps.ite
    | with_reducible apply Dev.Keeps.ite_snd
    | with_reducible apply Dev.Keeps.foldl
    | simp only [Dev.Keeps.keep]
    | (intro _; intros; try dsimp only)
    | dsimp only
    | (split; all_goals try dsimp only)

theorem Dev.trkLaneAligned_keeps {e₀ d : Dev} (h : Dev.Keeps e₀ d) (p : Nat) : Dev.Keeps e₀ (Dev.trkLaneAligned d p) := by
  unfold Dev.trkLaneAligned
  try dsimp only
  repeat' first
    | with_reducible assumption
    | with_reducible apply Dev.laneTo_keeps
    | with_reducible apply Dev.trkEnterAuth_keeps
    | with_reducible apply Dev.laneAuth_keeps
    | with_reducible apply Dev.Keeps.ite
    | with_reducible apply Dev.Keeps.ite_snd
    | with_reducible apply Dev.Keeps.foldl
    | simp only [Dev.Keeps.keep]
    | (intro _; intros; try dsimp only)
    | dsimp only
    | (split; all_goals try dsimp only)

theorem Dev.onTrunk_keeps {e₀ d : Dev} (h : Dev.Keeps e₀ d) (p : Nat) (key : Nat) (f : Dev → Dev) (hf : ∀ d, Dev.Keeps e₀ d → Dev.Keeps e₀ (f d)) : Dev.Keeps e₀ (Dev.onTrunk d p key f) := by
  unfold Dev.onTrunk
  try dsimp only
  repeat' first
    | with_reducible assumption
    | with_reducible apply hf
    | with_reducible apply Dev.onWrite_keeps
    | with_reducible apply Dev.Keeps.ite
    | with_reducible apply Dev.Keeps.ite_snd
    | with_reducible apply Dev.Keeps.foldl
    | simp only [Dev.Keeps.keep]
    | (intro _; intros; try dsimp only)
    | dsimp only
    | (split; all_goals try dsimp only)

end Sys2Proof.Machine
end

