-- ==== Sys2Proof/Laws/KeepsStroke.lean ====
section
/-! SUPPORT. Stroke. -/

set_option linter.unusedTactic false
set_option linter.unreachableTactic false
set_option linter.unusedVariables false
set_option linter.unusedSimpArgs false

namespace Sys2Proof.Machine

theorem Dev.startAonTimer_keeps {e₀ d : Dev} (h : Dev.Keeps e₀ d) : Dev.Keeps e₀ (Dev.startAonTimer d) := by
  unfold Dev.startAonTimer
  try dsimp only
  repeat' first
    | with_reducible assumption
    | with_reducible apply Dev.Keeps.ite
    | with_reducible apply Dev.Keeps.ite_snd
    | with_reducible apply Dev.Keeps.foldl
    | simp only [Dev.Keeps.keep]
    | (intro _; intros; try dsimp only)
    | dsimp only
    | (split; all_goals try dsimp only)

theorem Dev.atTick_keeps {e₀ d : Dev} (h : Dev.Keeps e₀ d) : Dev.Keeps e₀ (Dev.atTick d) := by
  unfold Dev.atTick
  try dsimp only
  repeat' first
    | with_reducible assumption
    | with_reducible apply Dev.waitTick_keeps
    | with_reducible apply Dev.freeCopies_keeps
    | with_reducible apply Dev.plateTidy_keeps
    | with_reducible apply Dev.retireStrokes_keeps
    | with_reducible apply Dev.useTick_keeps
    | with_reducible apply Dev.sendTick_keeps
    | with_reducible apply Dev.coachTick_keeps
    | with_reducible apply Dev.coachSettle_keeps
    | with_reducible apply Dev.Keeps.ite
    | with_reducible apply Dev.Keeps.ite_snd
    | with_reducible apply Dev.Keeps.foldl
    | simp only [Dev.Keeps.keep]
    | (intro _; intros; try dsimp only)
    | dsimp only
    | (split; all_goals try dsimp only)

theorem Dev.takeEffect_keeps {e₀ d : Dev} (h : Dev.Keeps e₀ d) : Dev.Keeps e₀ (Dev.takeEffect d) := by
  unfold Dev.takeEffect
  try dsimp only
  repeat' first
    | with_reducible assumption
    | with_reducible apply Dev.reframeNumbers_keeps
    | with_reducible apply Dev.stkTakeEffect_keeps
    | with_reducible apply Dev.updateAdm_keeps
    | with_reducible apply Dev.atTick_keeps
    | with_reducible apply Dev.Keeps.ite
    | with_reducible apply Dev.Keeps.ite_snd
    | with_reducible apply Dev.Keeps.foldl
    | simp only [Dev.Keeps.keep]
    | (intro _; intros; try dsimp only)
    | dsimp only
    | (split; all_goals try dsimp only)

theorem Dev.tick_keeps {e₀ d : Dev} (h : Dev.Keeps e₀ d) : Dev.Keeps e₀ (Dev.tick d) := by
  unfold Dev.tick
  try dsimp only
  repeat' first
    | with_reducible assumption
    | with_reducible apply Dev.takeEffect_keeps
    | with_reducible apply Dev.atTick_keeps
    | with_reducible apply Dev.stkTick_keeps
    | with_reducible apply Dev.Keeps.ite
    | with_reducible apply Dev.Keeps.ite_snd
    | with_reducible apply Dev.Keeps.foldl
    | simp only [Dev.Keeps.keep]
    | (intro _; intros; try dsimp only)
    | dsimp only
    | (split; all_goals try dsimp only)

theorem Dev.lullEntry_keeps {e₀ d : Dev} (h : Dev.Keeps e₀ d) (n : Nat) : Dev.Keeps e₀ (Dev.lullEntry d n) := by
  unfold Dev.lullEntry
  try dsimp only
  repeat' first
    | with_reducible assumption
    | with_reducible apply Dev.setPower_keeps
    | with_reducible apply Dev.Keeps.ite
    | with_reducible apply Dev.Keeps.ite_snd
    | with_reducible apply Dev.Keeps.foldl
    | simp only [Dev.Keeps.keep]
    | (intro _; intros; try dsimp only)
    | dsimp only
    | (split; all_goals try dsimp only)

theorem Dev.latchWithdraw_keeps {e₀ d : Dev} (h : Dev.Keeps e₀ d) : Dev.Keeps e₀ (Dev.latchWithdraw d) := by
  unfold Dev.latchWithdraw
  try dsimp only
  repeat' first
    | with_reducible assumption
    | with_reducible apply Dev.coachWithdraw_keeps
    | with_reducible apply Dev.withdraw_keeps
    | with_reducible apply Dev.Keeps.ite
    | with_reducible apply Dev.Keeps.ite_snd
    | with_reducible apply Dev.Keeps.foldl
    | simp only [Dev.Keeps.keep]
    | (intro _; intros; try dsimp only)
    | dsimp only
    | (split; all_goals try dsimp only)

theorem Dev.enterDoze_keeps {e₀ d : Dev} (h : Dev.Keeps e₀ d) : Dev.Keeps e₀ (Dev.enterDoze d) := by
  unfold Dev.enterDoze
  try dsimp only
  repeat' first
    | with_reducible assumption
    | with_reducible apply Dev.startAonTimer_keeps
    | with_reducible apply Dev.emit_keeps
    | with_reducible apply Dev.setPower_keeps
    | with_reducible apply Dev.flushSets_keeps
    | with_reducible apply Dev.scanStop_keeps
    | with_reducible apply Dev.blitDoze_keeps
    | with_reducible apply Dev.coachSettle_keeps
    | with_reducible apply Dev.abandonAll_keeps
    | with_reducible apply Dev.trkIdle_keeps
    | with_reducible apply Dev.Keeps.ite
    | with_reducible apply Dev.Keeps.ite_snd
    | with_reducible apply Dev.Keeps.foldl
    | simp only [Dev.Keeps.keep]
    | (intro _; intros; try dsimp only)
    | dsimp only
    | (split; all_goals try dsimp only)

theorem Dev.hostReframe_keeps {e₀ d : Dev} (h : Dev.Keeps e₀ d) : Dev.Keeps e₀ (Dev.hostReframe d) := by
  unfold Dev.hostReframe
  try dsimp only
  repeat' first
    | with_reducible assumption
    | with_reducible apply Dev.refuse_keeps
    | with_reducible apply Dev.admRefused_keeps
    | with_reducible apply Dev.reframeAccept_keeps
    | with_reducible apply Dev.trkDown_keeps
    | with_reducible apply Dev.coachSettle_keeps
    | with_reducible apply Dev.twnMirror_keeps
    | with_reducible apply Dev.Keeps.ite
    | with_reducible apply Dev.Keeps.ite_snd
    | with_reducible apply Dev.Keeps.foldl
    | simp only [Dev.Keeps.keep]
    | (intro _; intros; try dsimp only)
    | dsimp only
    | (split; all_goals try dsimp only)

theorem Dev.capture_keeps {e₀ d : Dev} (h : Dev.Keeps e₀ d) (m : Nat) : Dev.Keeps e₀ (Dev.capture d m) := by
  unfold Dev.capture
  try dsimp only
  repeat' first
    | with_reducible assumption
    | with_reducible apply Dev.trunkLateCheck_keeps
    | with_reducible apply Dev.twnLatch_keeps
    | with_reducible apply Dev.takeSets_keeps
    | with_reducible apply Dev.commitsLatch_keeps
    | with_reducible apply Dev.updateAdm_keeps
    | with_reducible apply Dev.Keeps.ite
    | with_reducible apply Dev.Keeps.ite_snd
    | with_reducible apply Dev.Keeps.foldl
    | simp only [Dev.Keeps.keep]
    | (intro _; intros; try dsimp only)
    | dsimp only
    | (split; all_goals try dsimp only)

theorem Dev.dealAt_keeps {e₀ d : Dev} (h : Dev.Keeps e₀ d) (m : Nat) : Dev.Keeps e₀ (Dev.dealAt d m) := by
  unfold Dev.dealAt
  try dsimp only
  repeat' first
    | with_reducible assumption
    | with_reducible apply Dev.plateLatch_keeps
    | with_reducible apply Dev.deal_keeps
    | with_reducible apply Dev.coachDealt_keeps
    | with_reducible apply Dev.Keeps.ite
    | with_reducible apply Dev.Keeps.ite_snd
    | with_reducible apply Dev.Keeps.foldl
    | simp only [Dev.Keeps.keep]
    | (intro _; intros; try dsimp only)
    | dsimp only
    | (split; all_goals try dsimp only)

theorem Dev.capturingRead_keeps {e₀ d : Dev} (h : Dev.Keeps e₀ d) (x1 : Nat) : Dev.Keeps e₀ (Dev.capturingRead d x1).2 := by
  unfold Dev.capturingRead
  try dsimp only
  repeat' first
    | with_reducible assumption
    | with_reducible apply Dev.captureStroke_keeps
    | with_reducible apply Dev.captureTod_keeps
    | with_reducible apply Dev.captureLtc_keeps
    | with_reducible apply Dev.setReg_keeps
    | with_reducible apply Dev.Keeps.ite
    | with_reducible apply Dev.Keeps.ite_snd
    | with_reducible apply Dev.Keeps.foldl
    | simp only [Dev.Keeps.keep]
    | (intro _; intros; try dsimp only)
    | dsimp only
    | (split; all_goals try dsimp only)

theorem Dev.latchPoint_keeps {e₀ d : Dev} (h : Dev.Keeps e₀ d) (ecc : ControlEcc) : Dev.Keeps e₀ (Dev.latchPoint d ecc) := by
  unfold Dev.latchPoint
  try dsimp only
  repeat' first
    | with_reducible assumption
    | with_reducible apply Dev.reframeNumbers_keeps
    | with_reducible apply Dev.controlChecked_keeps
    | with_reducible apply Dev.stkLatch_keeps
    | with_reducible apply Dev.latchWithdraw_keeps
    | with_reducible apply Dev.enterDoze_keeps
    | with_reducible apply Dev.lullEntry_keeps
    | with_reducible apply Dev.capture_keeps
    | with_reducible apply Dev.flpTidy_keeps
    | with_reducible apply Dev.trunkOriginLatch_keeps
    | with_reducible apply Dev.trunkApplied_keeps
    | with_reducible apply Dev.dealAt_keeps
    | with_reducible apply Dev.Keeps.ite
    | with_reducible apply Dev.Keeps.ite_snd
    | with_reducible apply Dev.Keeps.foldl
    | simp only [Dev.Keeps.keep]
    | (intro _; intros; try dsimp only)
    | dsimp only
    | (split; all_goals try dsimp only)

theorem Dev.reframeDone_keeps {e₀ d : Dev} (h : Dev.Keeps e₀ d) : Dev.Keeps e₀ (Dev.reframeDone d) := by
  unfold Dev.reframeDone
  try dsimp only
  repeat' first
    | with_reducible assumption
    | with_reducible apply Dev.coachTick_keeps
    | with_reducible apply Dev.coachSettle_keeps
    | with_reducible apply Dev.stkReframeDone_keeps
    | with_reducible apply Dev.Keeps.ite
    | with_reducible apply Dev.Keeps.ite_snd
    | with_reducible apply Dev.Keeps.foldl
    | simp only [Dev.Keeps.keep]
    | (intro _; intros; try dsimp only)
    | dsimp only
    | (split; all_goals try dsimp only)

end Sys2Proof.Machine
end

