-- ==== Sys2Proof/Laws/KeepsRlc.lean ====
section
/-! SUPPORT. Rlc. -/

set_option linter.unusedTactic false
set_option linter.unreachableTactic false
set_option linter.unusedVariables false
set_option linter.unusedSimpArgs false

namespace Sys2Proof.Machine

theorem Dev.lineEvent_keeps {e₀ d : Dev} (h : Dev.Keeps e₀ d) (c : Nat) (f : Fld) : Dev.Keeps e₀ (Dev.lineEvent d c f) := by
  unfold Dev.lineEvent
  try dsimp only
  repeat' first
    | with_reducible assumption
    | with_reducible apply Dev.raiseIf_keeps
    | with_reducible apply Dev.setFlag_keeps
    | with_reducible apply Dev.Keeps.ite
    | with_reducible apply Dev.Keeps.ite_snd
    | with_reducible apply Dev.Keeps.foldl
    | simp only [Dev.Keeps.keep]
    | (intro _; intros; try dsimp only)
    | dsimp only
    | (split; all_goals try dsimp only)

theorem Dev.lineStatus_keeps {e₀ d : Dev} (h : Dev.Keeps e₀ d) (c : Nat) : Dev.Keeps e₀ (Dev.lineStatus d c) := by
  unfold Dev.lineStatus
  try dsimp only
  repeat' first
    | with_reducible assumption
    | with_reducible apply Dev.setReg_keeps
    | with_reducible apply Dev.Keeps.ite
    | with_reducible apply Dev.Keeps.ite_snd
    | with_reducible apply Dev.Keeps.foldl
    | simp only [Dev.Keeps.keep]
    | (intro _; intros; try dsimp only)
    | dsimp only
    | (split; all_goals try dsimp only)

theorem Dev.setRlc_keeps {e₀ d : Dev} (h : Dev.Keeps e₀ d) (c : Nat) (x : Rlc) : Dev.Keeps e₀ (Dev.setRlc d c x) := by
  unfold Dev.setRlc
  try dsimp only
  repeat' first
    | with_reducible assumption
    | with_reducible apply Dev.Keeps.ite
    | with_reducible apply Dev.Keeps.ite_snd
    | with_reducible apply Dev.Keeps.foldl
    | simp only [Dev.Keeps.keep]
    | (intro _; intros; try dsimp only)
    | dsimp only
    | (split; all_goals try dsimp only)

theorem Dev.linePush_keeps {e₀ d : Dev} (h : Dev.Keeps e₀ d) (c : Nat) (kind : Nat) (code : Nat) (addr : Nat) : Dev.Keeps e₀ (Dev.linePush d c kind code addr) := by
  unfold Dev.linePush
  try dsimp only
  repeat' first
    | with_reducible assumption
    | with_reducible apply Dev.count_keeps
    | with_reducible apply Dev.lineStatus_keeps
    | with_reducible apply Dev.setRlc_keeps
    | with_reducible apply Dev.lineEvent_keeps
    | with_reducible apply Dev.Keeps.ite
    | with_reducible apply Dev.Keeps.ite_snd
    | with_reducible apply Dev.Keeps.foldl
    | simp only [Dev.Keeps.keep]
    | (intro _; intros; try dsimp only)
    | dsimp only
    | (split; all_goals try dsimp only)

theorem Dev.setStop_keeps {e₀ d : Dev} (h : Dev.Keeps e₀ d) (c : Nat) (a : Nat) (f : Fld) (v : Nat) : Dev.Keeps e₀ (Dev.setStop d c a f v) := by
  unfold Dev.setStop
  try dsimp only
  repeat' first
    | with_reducible assumption
    | with_reducible apply Dev.setFld_keeps
    | with_reducible apply Dev.Keeps.ite
    | with_reducible apply Dev.Keeps.ite_snd
    | with_reducible apply Dev.Keeps.foldl
    | simp only [Dev.Keeps.keep]
    | (intro _; intros; try dsimp only)
    | dsimp only
    | (split; all_goals try dsimp only)

theorem Dev.stopAbsent_keeps {e₀ d : Dev} (h : Dev.Keeps e₀ d) (c : Nat) (a : Nat) : Dev.Keeps e₀ (Dev.stopAbsent d c a) := by
  unfold Dev.stopAbsent
  try dsimp only
  repeat' first
    | with_reducible assumption
    | with_reducible apply Dev.lineEvent_keeps
    | with_reducible apply Dev.linePush_keeps
    | with_reducible apply Dev.setStop_keeps
    | with_reducible apply Dev.Keeps.ite
    | with_reducible apply Dev.Keeps.ite_snd
    | with_reducible apply Dev.Keeps.foldl
    | simp only [Dev.Keeps.keep]
    | (intro _; intros; try dsimp only)
    | dsimp only
    | (split; all_goals try dsimp only)

theorem Dev.lineSend_keeps {e₀ d : Dev} (h : Dev.Keeps e₀ d) (c : Nat) (addr : Nat) (type_ : Nat) (payload : List Byte) : Dev.Keeps e₀ (Dev.lineSend d c addr type_ payload) := by
  unfold Dev.lineSend
  try dsimp only
  repeat' first
    | with_reducible assumption
    | with_reducible apply Dev.emit_keeps
    | with_reducible apply Dev.Keeps.ite
    | with_reducible apply Dev.Keeps.ite_snd
    | with_reducible apply Dev.Keeps.foldl
    | simp only [Dev.Keeps.keep]
    | (intro _; intros; try dsimp only)
    | dsimp only
    | (split; all_goals try dsimp only)

theorem Dev.openCommand_keeps {e₀ d : Dev} (h : Dev.Keeps e₀ d) (c : Nat) (j : LineJob) : Dev.Keeps e₀ (Dev.openCommand d c j) := by
  unfold Dev.openCommand
  try dsimp only
  repeat' first
    | with_reducible assumption
    | with_reducible apply Dev.setRlc_keeps
    | with_reducible apply Dev.lineSend_keeps
    | with_reducible apply Dev.count_keeps
    | with_reducible apply Dev.Keeps.ite
    | with_reducible apply Dev.Keeps.ite_snd
    | with_reducible apply Dev.Keeps.foldl
    | simp only [Dev.Keeps.keep]
    | (intro _; intros; try dsimp only)
    | dsimp only
    | (split; all_goals try dsimp only)

theorem Dev.lineMiss_keeps {e₀ d : Dev} (h : Dev.Keeps e₀ d) (c : Nat) (a : Nat) : Dev.Keeps e₀ (Dev.lineMiss d c a) := by
  unfold Dev.lineMiss
  try dsimp only
  repeat' first
    | with_reducible assumption
    | with_reducible apply Dev.count_keeps
    | with_reducible apply Dev.setStop_keeps
    | with_reducible apply Dev.Keeps.ite
    | with_reducible apply Dev.Keeps.ite_snd
    | with_reducible apply Dev.Keeps.foldl
    | simp only [Dev.Keeps.keep]
    | (intro _; intros; try dsimp only)
    | dsimp only
    | (split; all_goals try dsimp only)

theorem Dev.lineComplete_keeps {e₀ d : Dev} (h : Dev.Keeps e₀ d) (j : LineJob) (result : Nat) : Dev.Keeps e₀ (Dev.lineComplete d j result) := by
  unfold Dev.lineComplete
  try dsimp only
  repeat' first
    | with_reducible assumption
    | with_reducible apply Dev.ringComplete_keeps
    | with_reducible apply Dev.Keeps.ite
    | with_reducible apply Dev.Keeps.ite_snd
    | with_reducible apply Dev.Keeps.foldl
    | simp only [Dev.Keeps.keep]
    | (intro _; intros; try dsimp only)
    | dsimp only
    | (split; all_goals try dsimp only)

theorem Dev.slotClose_keeps {e₀ d : Dev} (h : Dev.Keeps e₀ d) (c : Nat) : Dev.Keeps e₀ (Dev.slotClose d c) := by
  unfold Dev.slotClose
  try dsimp only
  repeat' first
    | with_reducible assumption
    | with_reducible apply Dev.lineMiss_keeps
    | with_reducible apply Dev.setRlc_keeps
    | with_reducible apply Dev.lineComplete_keeps
    | with_reducible apply Dev.Keeps.ite
    | with_reducible apply Dev.Keeps.ite_snd
    | with_reducible apply Dev.Keeps.foldl
    | simp only [Dev.Keeps.keep]
    | (intro _; intros; try dsimp only)
    | dsimp only
    | (split; all_goals try dsimp only)

theorem Dev.openPoll_keeps {e₀ d : Dev} (h : Dev.Keeps e₀ d) (c : Nat) : Dev.Keeps e₀ (Dev.openPoll d c) := by
  unfold Dev.openPoll
  try dsimp only
  repeat' first
    | with_reducible assumption
    | with_reducible apply Dev.setRlc_keeps
    | with_reducible apply Dev.lineSend_keeps
    | with_reducible apply Dev.count_keeps
    | with_reducible apply Dev.Keeps.ite
    | with_reducible apply Dev.Keeps.ite_snd
    | with_reducible apply Dev.Keeps.foldl
    | simp only [Dev.Keeps.keep]
    | (intro _; intros; try dsimp only)
    | dsimp only
    | (split; all_goals try dsimp only)

theorem Dev.stranger_keeps {e₀ d : Dev} (h : Dev.Keeps e₀ d) (c : Nat) (id : Nat) : Dev.Keeps e₀ (Dev.stranger d c id) := by
  unfold Dev.stranger
  try dsimp only
  repeat' first
    | with_reducible assumption
    | with_reducible apply Dev.count_keeps
    | with_reducible apply Dev.setRlc_keeps
    | with_reducible apply Dev.lineStatus_keeps
    | with_reducible apply Dev.linePush_keeps
    | with_reducible apply Dev.lineEvent_keeps
    | with_reducible apply Dev.freshBytes_keeps
    | with_reducible apply Dev.Keeps.ite
    | with_reducible apply Dev.Keeps.ite_snd
    | with_reducible apply Dev.Keeps.foldl
    | simp only [Dev.Keeps.keep]
    | (intro _; intros; try dsimp only)
    | dsimp only
    | (split; all_goals try dsimp only)

theorem Dev.rxfPop_keeps {e₀ d : Dev} (h : Dev.Keeps e₀ d) (c : Nat) (ecc : Ecc) : Dev.Keeps e₀ (Dev.rxfPop d c ecc).2 := by
  unfold Dev.rxfPop
  try dsimp only
  repeat' first
    | with_reducible assumption
    | with_reducible apply Dev.setFlag_keeps
    | with_reducible apply Dev.setRlc_keeps
    | with_reducible apply Dev.lineStatus_keeps
    | with_reducible apply Dev.secdedCorrected_keeps
    | with_reducible apply Dev.count_keeps
    | with_reducible apply Dev.secdedBad_keeps
    | with_reducible apply Dev.Keeps.ite
    | with_reducible apply Dev.Keeps.ite_snd
    | with_reducible apply Dev.Keeps.foldl
    | simp only [Dev.Keeps.keep]
    | (intro _; intros; try dsimp only)
    | dsimp only
    | (split; all_goals try dsimp only)

theorem Dev.lineRemove_keeps {e₀ d : Dev} (h : Dev.Keeps e₀ d) (c : Nat) (a : Nat) : Dev.Keeps e₀ (Dev.lineRemove d c a) := by
  unfold Dev.lineRemove
  try dsimp only
  repeat' first
    | with_reducible assumption
    | with_reducible apply Dev.lineStatus_keeps
    | with_reducible apply Dev.setRlc_keeps
    | with_reducible apply Dev.setStop_keeps
    | with_reducible apply Dev.Keeps.ite
    | with_reducible apply Dev.Keeps.ite_snd
    | with_reducible apply Dev.Keeps.foldl
    | simp only [Dev.Keeps.keep]
    | (intro _; intros; try dsimp only)
    | dsimp only
    | (split; all_goals try dsimp only)

theorem Dev.lineReset_keeps {e₀ d : Dev} (h : Dev.Keeps e₀ d) (c : Nat) (run : Bool) : Dev.Keeps e₀ (Dev.lineReset d c run) := by
  unfold Dev.lineReset
  try dsimp only
  repeat' first
    | with_reducible assumption
    | with_reducible apply Dev.ringComplete_keeps
    | with_reducible apply Dev.lineRemove_keeps
    | with_reducible apply Dev.setStop_keeps
    | with_reducible apply Dev.lineStatus_keeps
    | with_reducible apply Dev.setRlc_keeps
    | with_reducible apply Dev.Keeps.ite
    | with_reducible apply Dev.Keeps.ite_snd
    | with_reducible apply Dev.Keeps.foldl
    | simp only [Dev.Keeps.keep]
    | (intro _; intros; try dsimp only)
    | dsimp only
    | (split; all_goals try dsimp only)

theorem Dev.lineUp_keeps {e₀ d : Dev} (h : Dev.Keeps e₀ d) (c : Nat) : Dev.Keeps e₀ (Dev.lineUp d c) := by
  unfold Dev.lineUp
  try dsimp only
  repeat' first
    | with_reducible assumption
    | with_reducible apply Dev.lineReset_keeps
    | with_reducible apply Dev.Keeps.ite
    | with_reducible apply Dev.Keeps.ite_snd
    | with_reducible apply Dev.Keeps.foldl
    | simp only [Dev.Keeps.keep]
    | (intro _; intros; try dsimp only)
    | dsimp only
    | (split; all_goals try dsimp only)

theorem Dev.writeRlcCtrl_keeps {e₀ d : Dev} (h : Dev.Keeps e₀ d) (c : Nat) (v : Nat) : Dev.Keeps e₀ (Dev.writeRlcCtrl d c v) := by
  unfold Dev.writeRlcCtrl
  try dsimp only
  repeat' first
    | with_reducible assumption
    | with_reducible apply Dev.genericWrite_keeps
    | with_reducible apply Dev.lineReset_keeps
    | with_reducible apply Dev.newEpoch_keeps
    | with_reducible apply Dev.lineEvent_keeps
    | with_reducible apply Dev.lineUp_keeps
    | with_reducible apply Dev.Keeps.ite
    | with_reducible apply Dev.Keeps.ite_snd
    | with_reducible apply Dev.Keeps.foldl
    | simp only [Dev.Keeps.keep]
    | (intro _; intros; try dsimp only)
    | dsimp only
    | (split; all_goals try dsimp only)

theorem Dev.lineRecord_keeps {e₀ d : Dev} (h : Dev.Keeps e₀ d) (c : Nat) (kind : Nat) (addr : Nat) (tag : Nat) (payload : List Byte) : Dev.Keeps e₀ (Dev.lineRecord d c kind addr tag payload) := by
  unfold Dev.lineRecord
  try dsimp only
  repeat' first
    | with_reducible assumption
    | with_reducible apply Dev.record_keeps
    | with_reducible apply Dev.lineEvent_keeps
    | with_reducible apply Dev.count_keeps
    | with_reducible apply Dev.Keeps.ite
    | with_reducible apply Dev.Keeps.ite_snd
    | with_reducible apply Dev.Keeps.foldl
    | simp only [Dev.Keeps.keep]
    | (intro _; intros; try dsimp only)
    | dsimp only
    | (split; all_goals try dsimp only)

theorem Dev.newAlarm_keeps {e₀ d : Dev} (h : Dev.Keeps e₀ d) (c : Nat) (a : Nat) (aseq : Nat) (code : Nat) (payload : List Byte) : Dev.Keeps e₀ (Dev.newAlarm d c a aseq code payload) := by
  unfold Dev.newAlarm
  try dsimp only
  repeat' first
    | with_reducible assumption
    | with_reducible apply Dev.setRlc_keeps
    | with_reducible apply Dev.lineRecord_keeps
    | with_reducible apply Dev.count_keeps
    | with_reducible apply Dev.linePush_keeps
    | with_reducible apply Dev.lineEvent_keeps
    | with_reducible apply Dev.Keeps.ite
    | with_reducible apply Dev.Keeps.ite_snd
    | with_reducible apply Dev.Keeps.foldl
    | simp only [Dev.Keeps.keep]
    | (intro _; intros; try dsimp only)
    | dsimp only
    | (split; all_goals try dsimp only)

theorem Dev.openContention_keeps {e₀ d : Dev} (h : Dev.Keeps e₀ d) (c : Nat) : Dev.Keeps e₀ (Dev.openContention d c) := by
  unfold Dev.openContention
  try dsimp only
  repeat' first
    | with_reducible assumption
    | with_reducible apply Dev.lineSend_keeps
    | with_reducible apply Dev.setRlc_keeps
    | with_reducible apply Dev.Keeps.ite
    | with_reducible apply Dev.Keeps.ite_snd
    | with_reducible apply Dev.Keeps.foldl
    | simp only [Dev.Keeps.keep]
    | (intro _; intros; try dsimp only)
    | dsimp only
    | (split; all_goals try dsimp only)

theorem Dev.strangerExpiry_keeps {e₀ d : Dev} (h : Dev.Keeps e₀ d) (c : Nat) (i : Nat) : Dev.Keeps e₀ (Dev.strangerExpiry d c i) := by
  unfold Dev.strangerExpiry
  try dsimp only
  repeat' first
    | with_reducible assumption
    | with_reducible apply Dev.setRlc_keeps
    | with_reducible apply Dev.lineStatus_keeps
    | with_reducible apply Dev.Keeps.ite
    | with_reducible apply Dev.Keeps.ite_snd
    | with_reducible apply Dev.Keeps.foldl
    | simp only [Dev.Keeps.keep]
    | (intro _; intros; try dsimp only)
    | dsimp only
    | (split; all_goals try dsimp only)

theorem Dev.slotOpen_keeps {e₀ d : Dev} (h : Dev.Keeps e₀ d) (c : Nat) (stretched : Bool) : Dev.Keeps e₀ (Dev.slotOpen d c stretched) := by
  unfold Dev.slotOpen
  try dsimp only
  repeat' first
    | with_reducible assumption
    | with_reducible apply Dev.slotClose_keeps
    | with_reducible apply Dev.countWrap_keeps
    | with_reducible apply Dev.count_keeps
    | with_reducible apply Dev.setReg_keeps
    | with_reducible apply Dev.setRlc_keeps
    | with_reducible apply Dev.lineSend_keeps
    | with_reducible apply Dev.openPoll_keeps
    | with_reducible apply Dev.openContention_keeps
    | with_reducible apply Dev.openCommand_keeps
    | with_reducible apply Dev.Keeps.ite
    | with_reducible apply Dev.Keeps.ite_snd
    | with_reducible apply Dev.Keeps.foldl
    | simp only [Dev.Keeps.keep]
    | (intro _; intros; try dsimp only)
    | dsimp only
    | (split; all_goals try dsimp only)

theorem Dev.helloFrame_keeps {e₀ d : Dev} (h : Dev.Keeps e₀ d) (c : Nat) (payload : List Byte) : Dev.Keeps e₀ (Dev.helloFrame d c payload) := by
  unfold Dev.helloFrame
  try dsimp only
  repeat' first
    | with_reducible assumption
    | with_reducible apply Dev.lineRecord_keeps
    | with_reducible apply Dev.setRlc_keeps
    | with_reducible apply Dev.stranger_keeps
    | with_reducible apply Dev.Keeps.ite
    | with_reducible apply Dev.Keeps.ite_snd
    | with_reducible apply Dev.Keeps.foldl
    | simp only [Dev.Keeps.keep]
    | (intro _; intros; try dsimp only)
    | dsimp only
    | (split; all_goals try dsimp only)

theorem Dev.contentionOut_keeps {e₀ d : Dev} (h : Dev.Keeps e₀ d) (c : Nat) (out : Nat) (addr : Nat) (id : Nat) : Dev.Keeps e₀ (Dev.contentionOut d c out addr id) := by
  unfold Dev.contentionOut
  try dsimp only
  repeat' first
    | with_reducible assumption
    | with_reducible apply Dev.setRlc_keeps
    | with_reducible apply Dev.Keeps.ite
    | with_reducible apply Dev.Keeps.ite_snd
    | with_reducible apply Dev.Keeps.foldl
    | simp only [Dev.Keeps.keep]
    | (intro _; intros; try dsimp only)
    | dsimp only
    | (split; all_goals try dsimp only)

theorem Dev.writeRlcRing_keeps {e₀ d : Dev} (h : Dev.Keeps e₀ d) (c : Nat) (v : Nat) : Dev.Keeps e₀ (Dev.writeRlcRing d c v) := by
  unfold Dev.writeRlcRing
  try dsimp only
  repeat' first
    | with_reducible assumption
    | with_reducible apply Dev.refuse_keeps
    | with_reducible apply Dev.ringUnbind_keeps
    | with_reducible apply Dev.genericWrite_keeps
    | with_reducible apply Dev.ringBind_keeps
    | with_reducible apply Dev.Keeps.ite
    | with_reducible apply Dev.Keeps.ite_snd
    | with_reducible apply Dev.Keeps.foldl
    | simp only [Dev.Keeps.keep]
    | (intro _; intros; try dsimp only)
    | dsimp only
    | (split; all_goals try dsimp only)

theorem Dev.enrolNoAnswer_keeps {e₀ d : Dev} (h : Dev.Keeps e₀ d) (c : Nat) : Dev.Keeps e₀ (Dev.enrolNoAnswer d c) := by
  unfold Dev.enrolNoAnswer
  try dsimp only
  repeat' first
    | with_reducible assumption
    | with_reducible apply Dev.lineComplete_keeps
    | with_reducible apply Dev.setRlc_keeps
    | with_reducible apply Dev.Keeps.ite
    | with_reducible apply Dev.Keeps.ite_snd
    | with_reducible apply Dev.Keeps.foldl
    | simp only [Dev.Keeps.keep]
    | (intro _; intros; try dsimp only)
    | dsimp only
    | (split; all_goals try dsimp only)

theorem Dev.telemetry_keeps {e₀ d : Dev} (h : Dev.Keeps e₀ d) (c : Nat) (op : Nat) : Dev.Keeps e₀ (Dev.telemetry d c op) := by
  unfold Dev.telemetry
  try dsimp only
  repeat' first
    | with_reducible assumption
    | with_reducible apply Dev.ringBind_keeps
    | with_reducible apply Dev.ringFetch_keeps
    | with_reducible apply Dev.ringReject_keeps
    | with_reducible apply Dev.ringTake_keeps
    | with_reducible apply Dev.setRlc_keeps
    | with_reducible apply Dev.Keeps.ite
    | with_reducible apply Dev.Keeps.ite_snd
    | with_reducible apply Dev.Keeps.foldl
    | simp only [Dev.Keeps.keep]
    | (intro _; intros; try dsimp only)
    | dsimp only
    | (split; all_goals try dsimp only)

theorem Dev.writeRlcSched_keeps {e₀ d : Dev} (h : Dev.Keeps e₀ d) (c : Nat) (v : Nat) : Dev.Keeps e₀ (Dev.writeRlcSched d c v) := by
  unfold Dev.writeRlcSched
  try dsimp only
  repeat' first
    | with_reducible assumption
    | with_reducible apply Dev.refuse_keeps
    | with_reducible apply Dev.genericWrite_keeps
    | with_reducible apply Dev.Keeps.ite
    | with_reducible apply Dev.Keeps.ite_snd
    | with_reducible apply Dev.Keeps.foldl
    | simp only [Dev.Keeps.keep]
    | (intro _; intros; try dsimp only)
    | dsimp only
    | (split; all_goals try dsimp only)

theorem Dev.lineEnrol_keeps {e₀ d : Dev} (h : Dev.Keeps e₀ d) (c : Nat) (e : Enrolled) : Dev.Keeps e₀ (Dev.lineEnrol d c e) := by
  unfold Dev.lineEnrol
  try dsimp only
  repeat' first
    | with_reducible assumption
    | with_reducible apply Dev.lineStatus_keeps
    | with_reducible apply Dev.setRlc_keeps
    | with_reducible apply Dev.setStop_keeps
    | with_reducible apply Dev.Keeps.ite
    | with_reducible apply Dev.Keeps.ite_snd
    | with_reducible apply Dev.Keeps.foldl
    | simp only [Dev.Keeps.keep]
    | (intro _; intros; try dsimp only)
    | dsimp only
    | (split; all_goals try dsimp only)

theorem Dev.ackFrame_keeps {e₀ d : Dev} (h : Dev.Keeps e₀ d) (c : Nat) (payload : List Byte) (s : LineSlot) : Dev.Keeps e₀ (Dev.ackFrame d c payload s) := by
  unfold Dev.ackFrame
  try dsimp only
  repeat' first
    | with_reducible assumption
    | with_reducible apply Dev.lineRecord_keeps
    | with_reducible apply Dev.lineEnrol_keeps
    | with_reducible apply Dev.lineRemove_keeps
    | with_reducible apply Dev.lineComplete_keeps
    | with_reducible apply Dev.Keeps.ite
    | with_reducible apply Dev.Keeps.ite_snd
    | with_reducible apply Dev.Keeps.foldl
    | simp only [Dev.Keeps.keep]
    | (intro _; intros; try dsimp only)
    | dsimp only
    | (split; all_goals try dsimp only)

theorem Dev.statusFrame_keeps {e₀ d : Dev} (h : Dev.Keeps e₀ d) (c : Nat) (a : Nat) (payload : List Byte) : Dev.Keeps e₀ (Dev.statusFrame d c a payload) := by
  unfold Dev.statusFrame
  try dsimp only
  repeat' first
    | with_reducible assumption
    | with_reducible apply Dev.setStop_keeps
    | with_reducible apply Dev.lineEvent_keeps
    | with_reducible apply Dev.linePush_keeps
    | with_reducible apply Dev.lineRecord_keeps
    | with_reducible apply Dev.freshBytes_keeps
    | with_reducible apply Dev.newAlarm_keeps
    | with_reducible apply Dev.Keeps.ite
    | with_reducible apply Dev.Keeps.ite_snd
    | with_reducible apply Dev.Keeps.foldl
    | simp only [Dev.Keeps.keep]
    | (intro _; intros; try dsimp only)
    | dsimp only
    | (split; all_goals try dsimp only)

theorem Dev.lineReceive_keeps {e₀ d : Dev} (h : Dev.Keeps e₀ d) (c : Nat) (type_ : Nat) (addr : Nat) (least : Nat) (most : Nat) (payload : List Byte) (check : LineCheck) (inWindow : Bool) (f : Dev → LineSlot → Dev) (hf : ∀ d y1, Dev.Keeps e₀ d → Dev.Keeps e₀ (f d y1)) : Dev.Keeps e₀ (Dev.lineReceive d c type_ addr least most payload check inWindow f) := by
  unfold Dev.lineReceive
  try dsimp only
  repeat' first
    | with_reducible assumption
    | with_reducible apply Dev.count_keeps
    | with_reducible apply Dev.contentionOut_keeps
    | with_reducible apply Dev.setRlc_keeps
    | with_reducible apply Dev.Keeps.ite
    | with_reducible apply Dev.Keeps.ite_snd
    | with_reducible apply Dev.Keeps.foldl
    | with_reducible apply hf
    | simp only [Dev.Keeps.keep]
    | (intro _; intros; try dsimp only)
    | dsimp only
    | (split; all_goals try dsimp only)

theorem Dev.alarmFrame_keeps {e₀ d : Dev} (h : Dev.Keeps e₀ d) (c : Nat) (a : Nat) (payload : List Byte) : Dev.Keeps e₀ (Dev.alarmFrame d c a payload) := by
  unfold Dev.alarmFrame
  try dsimp only
  repeat' first
    | with_reducible assumption
    | with_reducible apply Dev.newAlarm_keeps
    | with_reducible apply Dev.Keeps.ite
    | with_reducible apply Dev.Keeps.ite_snd
    | with_reducible apply Dev.Keeps.foldl
    | simp only [Dev.Keeps.keep]
    | (intro _; intros; try dsimp only)
    | dsimp only
    | (split; all_goals try dsimp only)

theorem Dev.lineJam_keeps {e₀ d : Dev} (h : Dev.Keeps e₀ d) (c : Nat) : Dev.Keeps e₀ (Dev.lineJam d c) := by
  unfold Dev.lineJam
  try dsimp only
  repeat' first
    | with_reducible assumption
    | with_reducible apply Dev.lineEvent_keeps
    | with_reducible apply Dev.count_keeps
    | with_reducible apply Dev.slotOpen_keeps
    | with_reducible apply Dev.linePush_keeps
    | with_reducible apply Dev.Keeps.ite
    | with_reducible apply Dev.Keeps.ite_snd
    | with_reducible apply Dev.Keeps.foldl
    | simp only [Dev.Keeps.keep]
    | (intro _; intros; try dsimp only)
    | dsimp only
    | (split; all_goals try dsimp only)

end Sys2Proof.Machine
end

