-- ==== Sys2Proof/Laws/KeepsSip.lean ====
section
/-! SUPPORT. Sip. -/

set_option linter.unusedTactic false
set_option linter.unreachableTactic false
set_option linter.unusedVariables false
set_option linter.unusedSimpArgs false

namespace Sys2Proof.Machine

theorem Dev.setSip_keeps {e₀ d : Dev} (h : Dev.Keeps e₀ d) (p : Nat) (x : Sip) : Dev.Keeps e₀ (Dev.setSip d p x) := by
  unfold Dev.setSip
  try dsimp only
  repeat' first
    | with_reducible assumption
    | with_reducible apply Dev.Keeps.ite
    | with_reducible apply Dev.Keeps.ite_snd
    | with_reducible apply Dev.Keeps.foldl
    | simp only [Dev.Keeps.keep]
    | (intro _; intros; try dsimp only)
    | dsimp only
    | (split; all_goals try dsimp only)

theorem Dev.sipSource_keeps {e₀ d : Dev} (h : Dev.Keeps e₀ d) (p : Nat) (k : Nat) : Dev.Keeps e₀ (Dev.sipSource d p k) := by
  unfold Dev.sipSource
  try dsimp only
  repeat' first
    | with_reducible assumption
    | with_reducible apply Dev.raise_keeps
    | with_reducible apply Dev.Keeps.ite
    | with_reducible apply Dev.Keeps.ite_snd
    | with_reducible apply Dev.Keeps.foldl
    | simp only [Dev.Keeps.keep]
    | (intro _; intros; try dsimp only)
    | dsimp only
    | (split; all_goals try dsimp only)

theorem Dev.sipTrain_keeps {e₀ d : Dev} (hk : Dev.Keeps e₀ d) (p : Nat) :
    Dev.Keeps e₀ (Dev.sipTrain d p) := by
  unfold Dev.sipTrain
  try dsimp only
  repeat' first
    | with_reducible assumption
    | with_reducible apply Dev.setSip_keeps
    | with_reducible apply Dev.emit_keeps
    | with_reducible apply Dev.Keeps.ite
    | with_reducible apply Dev.Keeps.ite_snd
    | with_reducible apply Dev.Keeps.foldl
    | simp only [Dev.Keeps.keep]
    | (intro _; intros; try dsimp only)
    | dsimp only
    | (split; all_goals try dsimp only)

theorem Dev.sipTo_keeps {e₀ d : Dev} (h : Dev.Keeps e₀ d) (p : Nat) (x : Nat) : Dev.Keeps e₀ (Dev.sipTo d p x) := by
  unfold Dev.sipTo
  try dsimp only
  repeat' first
    | with_reducible assumption
    | with_reducible apply Dev.sipTrain_keeps
    | with_reducible apply Dev.setSip_keeps
    | with_reducible apply Dev.setReg_keeps
    | with_reducible apply Dev.setFlag_keeps
    | with_reducible apply Dev.sipSource_keeps
    | with_reducible apply Dev.Keeps.ite
    | with_reducible apply Dev.Keeps.ite_snd
    | with_reducible apply Dev.Keeps.foldl
    | simp only [Dev.Keeps.keep]
    | (intro _; intros; try dsimp only)
    | dsimp only
    | (split; all_goals try dsimp only)

theorem Dev.sipUp_keeps {e₀ d : Dev} (h : Dev.Keeps e₀ d) (p : Nat) : Dev.Keeps e₀ (Dev.sipUp d p) := by
  unfold Dev.sipUp
  try dsimp only
  repeat' first
    | with_reducible assumption
    | with_reducible apply Dev.sipTo_keeps
    | with_reducible apply Dev.Keeps.ite
    | with_reducible apply Dev.Keeps.ite_snd
    | with_reducible apply Dev.Keeps.foldl
    | simp only [Dev.Keeps.keep]
    | (intro _; intros; try dsimp only)
    | dsimp only
    | (split; all_goals try dsimp only)

theorem Dev.setCtx_keeps {e₀ d : Dev} (h : Dev.Keeps e₀ d) (p : Nat) (j : Nat) (x : Ctx) : Dev.Keeps e₀ (Dev.setCtx d p j x) := by
  unfold Dev.setCtx
  try dsimp only
  repeat' first
    | with_reducible assumption
    | with_reducible apply Dev.setReg_keeps
    | with_reducible apply Dev.Keeps.ite
    | with_reducible apply Dev.Keeps.ite_snd
    | with_reducible apply Dev.Keeps.foldl
    | simp only [Dev.Keeps.keep]
    | (intro _; intros; try dsimp only)
    | dsimp only
    | (split; all_goals try dsimp only)

theorem Dev.ctxOff_keeps {e₀ d : Dev} (h : Dev.Keeps e₀ d) (p : Nat) (j : Nat) : Dev.Keeps e₀ (Dev.ctxOff d p j) := by
  unfold Dev.ctxOff
  try dsimp only
  repeat' first
    | with_reducible assumption
    | with_reducible apply Dev.setCtx_keeps
    | with_reducible apply Dev.Keeps.ite
    | with_reducible apply Dev.Keeps.ite_snd
    | with_reducible apply Dev.Keeps.foldl
    | simp only [Dev.Keeps.keep]
    | (intro _; intros; try dsimp only)
    | dsimp only
    | (split; all_goals try dsimp only)

theorem Dev.writeCtxCtrl_keeps {e₀ d : Dev} (h : Dev.Keeps e₀ d) (p : Nat) (j : Nat) (v : Nat) : Dev.Keeps e₀ (Dev.writeCtxCtrl d p j v) := by
  unfold Dev.writeCtxCtrl
  try dsimp only
  repeat' first
    | with_reducible assumption
    | with_reducible apply Dev.genericWrite_keeps
    | with_reducible apply Dev.refuse_keeps
    | with_reducible apply Dev.ctxOff_keeps
    | with_reducible apply Dev.admRefused_keeps
    | with_reducible apply Dev.setCtx_keeps
    | with_reducible apply Dev.Keeps.ite
    | with_reducible apply Dev.Keeps.ite_snd
    | with_reducible apply Dev.Keeps.foldl
    | simp only [Dev.Keeps.keep]
    | (intro _; intros; try dsimp only)
    | dsimp only
    | (split; all_goals try dsimp only)

theorem Dev.ctxEvent_keeps {e₀ d : Dev} (h : Dev.Keeps e₀ d) (p : Nat) (j : Nat) (f : Fld) : Dev.Keeps e₀ (Dev.ctxEvent d p j f) := by
  unfold Dev.ctxEvent
  try dsimp only
  repeat' first
    | with_reducible assumption
    | with_reducible apply Dev.sipSource_keeps
    | with_reducible apply Dev.setFlag_keeps
    | with_reducible apply Dev.Keeps.ite
    | with_reducible apply Dev.Keeps.ite_snd
    | with_reducible apply Dev.Keeps.foldl
    | simp only [Dev.Keeps.keep]
    | (intro _; intros; try dsimp only)
    | dsimp only
    | (split; all_goals try dsimp only)

theorem Dev.openFrame_keeps {e₀ d : Dev} (h : Dev.Keeps e₀ d) (p : Nat) (j : Nat) (r : Rtp) : Dev.Keeps e₀ (Dev.openFrame d p j r) := by
  unfold Dev.openFrame
  try dsimp only
  repeat' first
    | with_reducible assumption
    | with_reducible apply Dev.setCtx_keeps
    | with_reducible apply Dev.count_keeps
    | with_reducible apply Dev.ctxEvent_keeps
    | with_reducible apply Dev.Keeps.ite
    | with_reducible apply Dev.Keeps.ite_snd
    | with_reducible apply Dev.Keeps.foldl
    | simp only [Dev.Keeps.keep]
    | (intro _; intros; try dsimp only)
    | dsimp only
    | (split; all_goals try dsimp only)

theorem Dev.pushStamp_keeps {e₀ d : Dev} (h : Dev.Keeps e₀ d) (p : Nat) (tag : Nat) : Dev.Keeps e₀ (Dev.pushStamp d p tag) := by
  unfold Dev.pushStamp
  try dsimp only
  repeat' first
    | with_reducible assumption
    | with_reducible apply Dev.count_keeps
    | with_reducible apply Dev.setSip_keeps
    | with_reducible apply Dev.setReg_keeps
    | with_reducible apply Dev.setFlag_keeps
    | with_reducible apply Dev.Keeps.ite
    | with_reducible apply Dev.Keeps.ite_snd
    | with_reducible apply Dev.Keeps.foldl
    | simp only [Dev.Keeps.keep]
    | (intro _; intros; try dsimp only)
    | dsimp only
    | (split; all_goals try dsimp only)

theorem Dev.writeRun_keeps {e₀ d : Dev} (hk : Dev.Keeps e₀ d) (row bp s n w : Nat) (bad : List Nat) :
    Dev.Keeps e₀ (Dev.writeRun d row bp s n w bad) := by
  unfold Dev.writeRun
  try dsimp only
  repeat' first
    | with_reducible assumption
    | with_reducible apply Dev.memStore_keeps
    | with_reducible apply Dev.Keeps.ite
    | with_reducible apply Dev.Keeps.ite_snd
    | with_reducible apply Dev.Keeps.foldl
    | simp only [Dev.Keeps.keep]
    | (intro _; intros; try dsimp only)
    | dsimp only
    | (split; all_goals try dsimp only)

theorem Dev.mergeTidy_keeps {e₀ d : Dev} (h : Dev.Keeps e₀ d) (p : Nat) (j : Nat) (top : Nat) : Dev.Keeps e₀ (Dev.mergeTidy d p j top) := by
  unfold Dev.mergeTidy
  try dsimp only
  repeat' first
    | with_reducible assumption
    | with_reducible apply Dev.count_keeps
    | with_reducible apply Dev.setCtx_keeps
    | with_reducible apply Dev.Keeps.ite
    | with_reducible apply Dev.Keeps.ite_snd
    | with_reducible apply Dev.Keeps.foldl
    | simp only [Dev.Keeps.keep]
    | (intro _; intros; try dsimp only)
    | dsimp only
    | (split; all_goals try dsimp only)

theorem Dev.merge_keeps {e₀ d : Dev} (h : Dev.Keeps e₀ d) (p : Nat) (j : Nat) (path : Nat) (seq : Nat) : Dev.Keeps e₀ (Dev.merge d p j path seq).2 := by
  unfold Dev.merge
  generalize (32768 : Int) = lim
  refine Dev.Keeps.ite_snd (fun _ => Dev.count_keeps h _) fun _ => ?_
  split
  · exact Dev.count_keeps (Dev.setCtx_keeps h _ _ _) _
  · exact Dev.mergeTidy_keeps (Dev.setCtx_keeps h _ _ _) _ _ _

theorem Dev.freePixel_keeps {e₀ d : Dev} (hk : Dev.Keeps e₀ d) :
    Dev.Keeps e₀ (Dev.freePixel d).2 := by
  unfold Dev.freePixel
  try dsimp only
  repeat' first
    | with_reducible assumption
    | with_reducible apply Dev.freshBytes_keeps
    | with_reducible apply Dev.Keeps.ite
    | with_reducible apply Dev.Keeps.ite_snd
    | with_reducible apply Dev.Keeps.foldl
    | simp only [Dev.Keeps.keep]
    | (intro _; intros; try dsimp only)
    | dsimp only
    | (split; all_goals try dsimp only)

theorem Dev.freePixels_keeps {e₀ d : Dev} (hk : Dev.Keeps e₀ d) (row s n : Nat) (bad : List Nat) :
    Dev.Keeps e₀ (Dev.freePixels d row s n bad) := by
  unfold Dev.freePixels
  try dsimp only
  repeat' first
    | with_reducible assumption
    | with_reducible apply Dev.freePixel_keeps
    | with_reducible apply Dev.writeRun_keeps
    | with_reducible apply Dev.Keeps.ite
    | with_reducible apply Dev.Keeps.ite_snd
    | with_reducible apply Dev.Keeps.foldl
    | with_reducible apply Dev.Keeps.foldl_fst
    | simp only [Dev.Keeps.keep]
    | (intro _; intros; try dsimp only)
    | dsimp only
    | (split; all_goals try dsimp only)

theorem Dev.fillChroma_keeps {e₀ d : Dev} (hk : Dev.Keeps e₀ d) (p j : Nat) (fr : OpenFrame) (bad : List Nat) :
    Dev.Keeps e₀ (Dev.fillChroma d p j fr bad) := by
  unfold Dev.fillChroma
  try dsimp only
  repeat' first
    | with_reducible assumption
    | with_reducible apply Dev.freePixels_keeps
    | with_reducible apply Dev.Keeps.ite
    | with_reducible apply Dev.Keeps.ite_snd
    | with_reducible apply Dev.Keeps.foldl
    | simp only [Dev.Keeps.keep]
    | (intro _; intros; try dsimp only)
    | dsimp only
    | (split; all_goals try dsimp only)

theorem Dev.closeFrame_keeps {e₀ d : Dev} (hk : Dev.Keeps e₀ d) (p j : Nat) (bad : List Nat) :
    Dev.Keeps e₀ (Dev.closeFrame d p j bad) := by
  unfold Dev.closeFrame
  try dsimp only
  repeat' first
    | with_reducible assumption
    | with_reducible apply Dev.setCtx_keeps
    | with_reducible apply Dev.count_keeps
    | with_reducible apply Dev.countBy_keeps
    | with_reducible apply Dev.ctxEvent_keeps
    | with_reducible apply Dev.fillChroma_keeps
    | with_reducible apply Dev.Keeps.ite
    | with_reducible apply Dev.Keeps.ite_snd
    | with_reducible apply Dev.Keeps.foldl
    | simp only [Dev.Keeps.keep]
    | (intro _; intros; try dsimp only)
    | dsimp only
    | (split; all_goals try dsimp only)

theorem Dev.placeSrd_keeps {e₀ d : Dev} (hk : Dev.Keeps e₀ d) (p j : Nat) (fr : OpenFrame) (s : Srd) (bad : List Nat) :
    Dev.Keeps e₀ (Dev.placeSrd d p j fr s bad).1 := by
  unfold Dev.placeSrd
  try dsimp only
  repeat' first
    | with_reducible assumption
    | with_reducible apply Dev.freePixels_keeps
    | with_reducible apply Dev.writeRun_keeps
    | with_reducible apply Dev.Keeps.ite
    | with_reducible apply Dev.Keeps.ite_snd
    | with_reducible apply Dev.Keeps.foldl
    | with_reducible apply Dev.Keeps.foldl_fst
    | simp only [Dev.Keeps.keep]
    | (intro _; intros; try dsimp only)
    | dsimp only
    | (split; all_goals try dsimp only)

theorem Dev.framePacket_keeps {e₀ d : Dev} (h : Dev.Keeps e₀ d) (p : Nat) (j : Nat) (r : Rtp) (bad : List Nat) : Dev.Keeps e₀ (Dev.framePacket d p j r bad) := by
  have hfold (l : List Srd) (a : Dev × OpenFrame) (ha : Dev.Keeps e₀ a.1) :
      Dev.Keeps e₀ (l.foldl (fun (a : Dev × OpenFrame) s => a.1.placeSrd p j a.2 s bad) a).1 :=
    Dev.Keeps.foldl_fst l ha fun a x ha => Dev.placeSrd_keeps ha _ _ _ _ _
  unfold Dev.framePacket
  dsimp only
  repeat' first
    | with_reducible assumption
    | with_reducible apply Dev.count_keeps
    | with_reducible apply Dev.setCtx_keeps
    | with_reducible apply Dev.closeFrame_keeps
    | with_reducible apply Dev.openFrame_keeps
    | with_reducible apply hfold
    | with_reducible apply Dev.Keeps.ite
    | (intro _; intros; try dsimp only)
    | (split; all_goals try dsimp only)

theorem Dev.takePacket_keeps {e₀ d : Dev} (hk : Dev.Keeps e₀ d) (p j path : Nat) (buffer : Ecc) (bad : List Nat) (bs : List Byte) :
    Dev.Keeps e₀ (Dev.takePacket d p j path buffer bad bs) := by
  unfold Dev.takePacket
  try dsimp only
  repeat' first
    | with_reducible assumption
    | with_reducible apply Dev.reserved_keeps
    | with_reducible apply Dev.count_keeps
    | with_reducible apply Dev.setCtx_keeps
    | with_reducible apply Dev.merge_keeps
    | with_reducible apply Dev.framePacket_keeps
    | with_reducible apply Dev.Keeps.ite
    | with_reducible apply Dev.Keeps.ite_snd
    | with_reducible apply Dev.Keeps.foldl
    | simp only [Dev.Keeps.keep]
    | (intro _; intros; try dsimp only)
    | dsimp only
    | (split; all_goals try dsimp only)

theorem Dev.rxDrain_keeps {e₀ d : Dev} (hk : Dev.Keeps e₀ d) (p j : Nat) (bad : List Nat) :
    Dev.Keeps e₀ (Dev.rxDrain d p j bad) := by
  unfold Dev.rxDrain
  try dsimp only
  repeat' first
    | with_reducible assumption
    | with_reducible apply Dev.takePacket_keeps
    | with_reducible apply Dev.setCtx_keeps
    | with_reducible apply Dev.Keeps.ite
    | with_reducible apply Dev.Keeps.ite_snd
    | with_reducible apply Dev.Keeps.foldl
    | with_reducible apply Dev.Keeps.foldl_fst
    | simp only [Dev.Keeps.keep]
    | (intro _; intros; try dsimp only)
    | dsimp only
    | (split; all_goals try dsimp only)

theorem Dev.ctxPacket_keeps {e₀ d : Dev} (hk : Dev.Keeps e₀ d) (p j path : Nat) (care : RxCare) (bs : List Byte) :
    Dev.Keeps e₀ (Dev.ctxPacket d p j path care bs) := by
  unfold Dev.ctxPacket
  try dsimp only
  repeat' first
    | with_reducible assumption
    | with_reducible apply Dev.count_keeps
    | with_reducible apply Dev.ctxEvent_keeps
    | with_reducible apply Dev.reservedWake_keeps
    | with_reducible apply Dev.setCtx_keeps
    | with_reducible apply Dev.rxDrain_keeps
    | with_reducible apply Dev.Keeps.ite
    | with_reducible apply Dev.Keeps.ite_snd
    | with_reducible apply Dev.Keeps.foldl
    | simp only [Dev.Keeps.keep]
    | (intro _; intros; try dsimp only)
    | dsimp only
    | (split; all_goals try dsimp only)

theorem Dev.slowFrame_keeps {e₀ d : Dev} (hk : Dev.Keeps e₀ d) (p : Nat) (bs : List Byte) (tci : Option Nat) (stamp : Bool) (bad : List Nat) :
    Dev.Keeps e₀ (Dev.slowFrame d p bs tci stamp bad) := by
  unfold Dev.slowFrame
  try dsimp only
  repeat' first
    | with_reducible assumption
    | with_reducible apply Dev.count_keeps
    | with_reducible apply Dev.setFlag_keeps
    | with_reducible apply Dev.setSip_keeps
    | with_reducible apply Dev.memStore_keeps
    | with_reducible apply Dev.ringComplete_keeps
    | with_reducible apply Dev.Keeps.ite
    | with_reducible apply Dev.Keeps.ite_snd
    | with_reducible apply Dev.Keeps.foldl
    | simp only [Dev.Keeps.keep]
    | (intro _; intros; try dsimp only)
    | dsimp only
    | (split; all_goals try dsimp only)

theorem Dev.classify_keeps {e₀ d : Dev} (hk : Dev.Keeps e₀ d) (p : Nat) (bs : List Byte) (care : RxCare) :
    Dev.Keeps e₀ (Dev.classify d p bs care) := by
  unfold Dev.classify
  try dsimp only
  repeat' first
    | with_reducible assumption
    | with_reducible apply Dev.count_keeps
    | with_reducible apply Dev.ctxPacket_keeps
    | with_reducible apply Dev.slowFrame_keeps
    | with_reducible apply Dev.Keeps.ite
    | with_reducible apply Dev.Keeps.ite_snd
    | with_reducible apply Dev.Keeps.foldl
    | simp only [Dev.Keeps.keep]
    | (intro _; intros; try dsimp only)
    | dsimp only
    | (split; all_goals try dsimp only)

theorem Dev.ethFrame_keeps {e₀ d : Dev} (hk : Dev.Keeps e₀ d) (p : Nat) (bs : List Byte) (fcsOk : Bool) (care : RxCare) (corrected uncorrected : Nat) :
    Dev.Keeps e₀ (Dev.ethFrame d p bs fcsOk care corrected uncorrected) := by
  unfold Dev.ethFrame
  try dsimp only
  repeat' first
    | with_reducible assumption
    | with_reducible apply Dev.countBy_keeps
    | with_reducible apply Dev.count_keeps
    | with_reducible apply Dev.classify_keeps
    | with_reducible apply Dev.Keeps.ite
    | with_reducible apply Dev.Keeps.ite_snd
    | with_reducible apply Dev.Keeps.foldl
    | simp only [Dev.Keeps.keep]
    | (intro _; intros; try dsimp only)
    | dsimp only
    | (split; all_goals try dsimp only)

theorem Dev.ctxLost_keeps {e₀ d : Dev} (h : Dev.Keeps e₀ d) (p : Nat) (j : Nat) : Dev.Keeps e₀ (Dev.ctxLost d p j) := by
  unfold Dev.ctxLost
  try dsimp only
  repeat' first
    | with_reducible assumption
    | with_reducible apply Dev.closeFrame_keeps
    | with_reducible apply Dev.setCtx_keeps
    | with_reducible apply Dev.ctxEvent_keeps
    | with_reducible apply Dev.Keeps.ite
    | with_reducible apply Dev.Keeps.ite_snd
    | with_reducible apply Dev.Keeps.foldl
    | simp only [Dev.Keeps.keep]
    | (intro _; intros; try dsimp only)
    | dsimp only
    | (split; all_goals try dsimp only)

theorem Dev.ctxTorn_keeps {e₀ d : Dev} (hk : Dev.Keeps e₀ d) (p j : Nat) (kept : Bool) :
    Dev.Keeps e₀ (Dev.ctxTorn d p j kept) := by
  unfold Dev.ctxTorn
  try dsimp only
  repeat' first
    | with_reducible assumption
    | with_reducible apply Dev.setCtx_keeps
    | with_reducible apply Dev.ctxEvent_keeps
    | with_reducible apply Dev.Keeps.ite
    | with_reducible apply Dev.Keeps.ite_snd
    | with_reducible apply Dev.Keeps.foldl
    | simp only [Dev.Keeps.keep]
    | (intro _; intros; try dsimp only)
    | dsimp only
    | (split; all_goals try dsimp only)

theorem Dev.sipReset_keeps {e₀ d : Dev} (h : Dev.Keeps e₀ d) (p : Nat) (x : Nat) : Dev.Keeps e₀ (Dev.sipReset d p x) := by
  unfold Dev.sipReset
  try dsimp only
  repeat' first
    | with_reducible assumption
    | with_reducible apply Dev.freshBool_keeps
    | with_reducible apply Dev.ctxLost_keeps
    | with_reducible apply Dev.ctxTorn_keeps
    | with_reducible apply Dev.setSip_keeps
    | with_reducible apply Dev.ringComplete_keeps
    | with_reducible apply Dev.newEpoch_keeps
    | with_reducible apply Dev.countBy_keeps
    | with_reducible apply Dev.setFlag_keeps
    | with_reducible apply Dev.sipTo_keeps
    | with_reducible apply Dev.Keeps.ite
    | with_reducible apply Dev.Keeps.ite_snd
    | with_reducible apply Dev.Keeps.foldl
    | with_reducible apply Dev.Keeps.foldl_fst
    | simp only [Dev.Keeps.keep]
    | (intro _; intros; try dsimp only)
    | dsimp only
    | (split; all_goals try dsimp only)

theorem Dev.sipRetrain_keeps {e₀ d : Dev} (h : Dev.Keeps e₀ d) (p : Nat) : Dev.Keeps e₀ (Dev.sipRetrain d p) := by
  unfold Dev.sipRetrain
  try dsimp only
  repeat' first
    | with_reducible assumption
    | with_reducible apply Dev.sipReset_keeps
    | with_reducible apply Dev.Keeps.ite
    | with_reducible apply Dev.Keeps.ite_snd
    | with_reducible apply Dev.Keeps.foldl
    | simp only [Dev.Keeps.keep]
    | (intro _; intros; try dsimp only)
    | dsimp only
    | (split; all_goals try dsimp only)

theorem Dev.writeCtxFixed_keeps {e₀ d : Dev} (h : Dev.Keeps e₀ d) (p : Nat) (j : Nat) (key : Nat) (v : Nat) : Dev.Keeps e₀ (Dev.writeCtxFixed d p j key v) := by
  unfold Dev.writeCtxFixed
  try dsimp only
  repeat' first
    | with_reducible assumption
    | with_reducible apply Dev.refuse_keeps
    | with_reducible apply Dev.genericWrite_keeps
    | with_reducible apply Dev.Keeps.ite
    | with_reducible apply Dev.Keeps.ite_snd
    | with_reducible apply Dev.Keeps.foldl
    | simp only [Dev.Keeps.keep]
    | (intro _; intros; try dsimp only)
    | dsimp only
    | (split; all_goals try dsimp only)

theorem Dev.pathEvent_keeps {e₀ d : Dev} (h : Dev.Keeps e₀ d) (p : Nat) (j : Nat) : Dev.Keeps e₀ (Dev.pathEvent d p j) := by
  unfold Dev.pathEvent
  try dsimp only
  repeat' first
    | with_reducible assumption
    | with_reducible apply Dev.sipSource_keeps
    | with_reducible apply Dev.setFlag_keeps
    | with_reducible apply Dev.Keeps.ite
    | with_reducible apply Dev.Keeps.ite_snd
    | with_reducible apply Dev.Keeps.foldl
    | simp only [Dev.Keeps.keep]
    | (intro _; intros; try dsimp only)
    | dsimp only
    | (split; all_goals try dsimp only)

theorem Dev.writeSipCtrl_keeps {e₀ d : Dev} (h : Dev.Keeps e₀ d) (p : Nat) (v : Nat) : Dev.Keeps e₀ (Dev.writeSipCtrl d p v) := by
  unfold Dev.writeSipCtrl
  try dsimp only
  repeat' first
    | with_reducible assumption
    | with_reducible apply Dev.genericWrite_keeps
    | with_reducible apply Dev.sipReset_keeps
    | with_reducible apply Dev.sipUp_keeps
    | with_reducible apply Dev.refuse_keeps
    | with_reducible apply Dev.sipRetrain_keeps
    | with_reducible apply Dev.Keeps.ite
    | with_reducible apply Dev.Keeps.ite_snd
    | with_reducible apply Dev.Keeps.foldl
    | simp only [Dev.Keeps.keep]
    | (intro _; intros; try dsimp only)
    | dsimp only
    | (split; all_goals try dsimp only)

theorem Dev.tsfPop_keeps {e₀ d : Dev} (h : Dev.Keeps e₀ d) (p : Nat) (ecc : Ecc) : Dev.Keeps e₀ (Dev.tsfPop d p ecc).2 := by
  unfold Dev.tsfPop
  try dsimp only
  repeat' first
    | with_reducible assumption
    | with_reducible apply Dev.setReg_keeps
    | with_reducible apply Dev.setFlag_keeps
    | with_reducible apply Dev.secdedCorrected_keeps
    | with_reducible apply Dev.count_keeps
    | with_reducible apply Dev.freshBytes_keeps
    | with_reducible apply Dev.secdedBad_keeps
    | with_reducible apply Dev.setSip_keeps
    | with_reducible apply Dev.Keeps.ite
    | with_reducible apply Dev.Keeps.ite_snd
    | with_reducible apply Dev.Keeps.foldl
    | simp only [Dev.Keeps.keep]
    | (intro _; intros; try dsimp only)
    | dsimp only
    | (split; all_goals try dsimp only)

theorem Dev.writeSipRing_keeps {e₀ d : Dev} (h : Dev.Keeps e₀ d) (p : Nat) (v : Nat) : Dev.Keeps e₀ (Dev.writeSipRing d p v) := by
  unfold Dev.writeSipRing
  try dsimp only
  repeat' first
    | with_reducible assumption
    | with_reducible apply Dev.refuse_keeps
    | with_reducible apply Dev.ringUnbind_keeps
    | with_reducible apply Dev.ringBind_keeps
    | with_reducible apply Dev.genericWrite_keeps
    | with_reducible apply Dev.Keeps.ite
    | with_reducible apply Dev.Keeps.ite_snd
    | with_reducible apply Dev.Keeps.foldl
    | simp only [Dev.Keeps.keep]
    | (intro _; intros; try dsimp only)
    | dsimp only
    | (split; all_goals try dsimp only)

theorem Dev.frameLanded_keeps {e₀ d : Dev} (h : Dev.Keeps e₀ d) (p : Nat) (j : Nat) : Dev.Keeps e₀ (Dev.frameLanded d p j) := by
  unfold Dev.frameLanded
  try dsimp only
  repeat' first
    | with_reducible assumption
    | with_reducible apply Dev.rxDrain_keeps
    | with_reducible apply Dev.setCtx_keeps
    | with_reducible apply Dev.setReg_keeps
    | with_reducible apply Dev.ctxEvent_keeps
    | with_reducible apply Dev.count_keeps
    | with_reducible apply Dev.plateAdvance_keeps
    | with_reducible apply Dev.fenceAdvance_keeps
    | with_reducible apply Dev.sipSource_keeps
    | with_reducible apply Dev.Keeps.ite
    | with_reducible apply Dev.Keeps.ite_snd
    | with_reducible apply Dev.Keeps.foldl
    | simp only [Dev.Keeps.keep]
    | (intro _; intros; try dsimp only)
    | dsimp only
    | (split; all_goals try dsimp only)

theorem Dev.txDone_keeps {e₀ d : Dev} (h : Dev.Keeps e₀ d) (p : Nat) : Dev.Keeps e₀ (Dev.txDone d p) := by
  unfold Dev.txDone
  try dsimp only
  repeat' first
    | with_reducible assumption
    | with_reducible apply Dev.count_keeps
    | with_reducible apply Dev.setSip_keeps
    | with_reducible apply Dev.pushStamp_keeps
    | with_reducible apply Dev.ringComplete_keeps
    | with_reducible apply Dev.Keeps.ite
    | with_reducible apply Dev.Keeps.ite_snd
    | with_reducible apply Dev.Keeps.foldl
    | simp only [Dev.Keeps.keep]
    | (intro _; intros; try dsimp only)
    | dsimp only
    | (split; all_goals try dsimp only)

theorem Dev.onStream_keeps {e₀ d : Dev} (h : Dev.Keeps e₀ d) (p : Nat) (key : Nat) (f : Dev → Dev) (hf : ∀ d, Dev.Keeps e₀ d → Dev.Keeps e₀ (f d)) : Dev.Keeps e₀ (Dev.onStream d p key f) := by
  unfold Dev.onStream
  try dsimp only
  repeat' first
    | with_reducible assumption
    | with_reducible apply hf
    | with_reducible apply Dev.onWrite_keeps
    | with_reducible apply Dev.Keeps.ite
    | with_reducible apply Dev.Keeps.ite_snd
    | with_reducible apply Dev.Keeps.foldl
    | simp only [Dev.Keeps.keep]
    | (intro _; intros; try dsimp only)
    | dsimp only
    | (split; all_goals try dsimp only)

theorem Dev.slowEntry_keeps {e₀ d : Dev} (h : Dev.Keeps e₀ d) (p : Nat) (tx : Bool) : Dev.Keeps e₀ (Dev.slowEntry d p tx) := by
  unfold Dev.slowEntry
  try dsimp only
  repeat' first
    | with_reducible assumption
    | with_reducible apply Dev.ringBind_keeps
    | with_reducible apply Dev.ringFetch_keeps
    | with_reducible apply Dev.ringReject_keeps
    | with_reducible apply Dev.ringTake_keeps
    | with_reducible apply Dev.plainReads_keeps
    | with_reducible apply Dev.setSip_keeps
    | with_reducible apply Dev.emit_keeps
    | with_reducible apply Dev.Keeps.ite
    | with_reducible apply Dev.Keeps.ite_snd
    | with_reducible apply Dev.Keeps.foldl
    | simp only [Dev.Keeps.keep]
    | (intro _; intros; try dsimp only)
    | dsimp only
    | (split; all_goals try dsimp only)

end Sys2Proof.Machine
end

