-- ==== Sys2Proof/Laws/KeepsClock.lean ====
section
/-! SUPPORT. Clock. -/

set_option linter.unusedTactic false
set_option linter.unreachableTactic false
set_option linter.unusedVariables false
set_option linter.unusedSimpArgs false

namespace Sys2Proof.Machine

theorem Dev.writeQpllCtrl_keeps {e₀ d : Dev} (h : Dev.Keeps e₀ d) (q : Nat) (v : Nat) : Dev.Keeps e₀ (Dev.writeQpllCtrl d q v) := by
  unfold Dev.writeQpllCtrl
  try dsimp only
  repeat' first
    | with_reducible assumption
    | with_reducible apply Dev.refuse_keeps
    | with_reducible apply Dev.genericWrite_keeps
    | with_reducible apply Dev.Keeps.ite
    | with_reducible apply Dev.Keeps.ite_snd
    | with_reducible apply Dev.Keeps.foldl
    | simp only [Dev.Keeps.keep]
    | (intro _; intros; try dsimp only)
    | dsimp only
    | (split; all_goals try dsimp only)

theorem Dev.setRefMon_keeps {e₀ d : Dev} (h : Dev.Keeps e₀ d) (k : Nat) (x : RefMon) : Dev.Keeps e₀ (Dev.setRefMon d k x) := by
  unfold Dev.setRefMon
  try dsimp only
  repeat' first
    | with_reducible assumption
    | with_reducible apply Dev.Keeps.ite
    | with_reducible apply Dev.Keeps.ite_snd
    | with_reducible apply Dev.Keeps.foldl
    | simp only [Dev.Keeps.keep]
    | (intro _; intros; try dsimp only)
    | dsimp only
    | (split; all_goals try dsimp only)

theorem Dev.refGood_keeps {e₀ d : Dev} (h : Dev.Keeps e₀ d) (k : Nat) : Dev.Keeps e₀ (Dev.refGood d k) := by
  unfold Dev.refGood
  try dsimp only
  repeat' first
    | with_reducible assumption
    | with_reducible apply Dev.setRefMon_keeps
    | with_reducible apply Dev.setFld_keeps
    | with_reducible apply Dev.Keeps.ite
    | with_reducible apply Dev.Keeps.ite_snd
    | with_reducible apply Dev.Keeps.foldl
    | simp only [Dev.Keeps.keep]
    | (intro _; intros; try dsimp only)
    | dsimp only
    | (split; all_goals try dsimp only)

theorem Dev.ckgEvent_keeps {e₀ d : Dev} (h : Dev.Keeps e₀ d) (f : Fld) : Dev.Keeps e₀ (Dev.ckgEvent d f) := by
  unfold Dev.ckgEvent
  try dsimp only
  repeat' first
    | with_reducible assumption
    | with_reducible apply Dev.setFlag_keeps
    | with_reducible apply Dev.Keeps.ite
    | with_reducible apply Dev.Keeps.ite_snd
    | with_reducible apply Dev.Keeps.foldl
    | simp only [Dev.Keeps.keep]
    | (intro _; intros; try dsimp only)
    | dsimp only
    | (split; all_goals try dsimp only)

theorem Dev.refLost_keeps {e₀ d : Dev} (h : Dev.Keeps e₀ d) (k : Nat) : Dev.Keeps e₀ (Dev.refLost d k) := by
  unfold Dev.refLost
  try dsimp only
  repeat' first
    | with_reducible assumption
    | with_reducible apply Dev.setFld_keeps
    | with_reducible apply Dev.setRefMon_keeps
    | with_reducible apply Dev.raise_keeps
    | with_reducible apply Dev.count_keeps
    | with_reducible apply Dev.ckgEvent_keeps
    | with_reducible apply Dev.Keeps.ite
    | with_reducible apply Dev.Keeps.ite_snd
    | with_reducible apply Dev.Keeps.foldl
    | simp only [Dev.Keeps.keep]
    | (intro _; intros; try dsimp only)
    | dsimp only
    | (split; all_goals try dsimp only)

theorem Dev.refWindow_keeps {e₀ d : Dev} (h : Dev.Keeps e₀ d) (counts : List Nat) : Dev.Keeps e₀ (Dev.refWindow d counts) := by
  unfold Dev.refWindow
  try dsimp only
  repeat' first
    | with_reducible assumption
    | with_reducible apply Dev.refGood_keeps
    | with_reducible apply Dev.refLost_keeps
    | with_reducible apply Dev.Keeps.ite
    | with_reducible apply Dev.Keeps.ite_snd
    | with_reducible apply Dev.Keeps.foldl
    | simp only [Dev.Keeps.keep]
    | (intro _; intros; try dsimp only)
    | dsimp only
    | (split; all_goals try dsimp only)

theorem Dev.setPll_keeps {e₀ d : Dev} (h : Dev.Keeps e₀ d) (k : Nat) (x : Pll) : Dev.Keeps e₀ (Dev.setPll d k x) := by
  unfold Dev.setPll
  try dsimp only
  repeat' first
    | with_reducible assumption
    | with_reducible apply Dev.Keeps.ite
    | with_reducible apply Dev.Keeps.ite_snd
    | with_reducible apply Dev.Keeps.foldl
    | simp only [Dev.Keeps.keep]
    | (intro _; intros; try dsimp only)
    | dsimp only
    | (split; all_goals try dsimp only)

theorem Dev.quadLoss_keeps {e₀ d : Dev} (h : Dev.Keeps e₀ d) (q : Nat) : Dev.Keeps e₀ (Dev.quadLoss d q) := by
  unfold Dev.quadLoss
  try dsimp only
  repeat' first
    | with_reducible assumption
    | with_reducible apply Dev.ckgEvent_keeps
    | with_reducible apply Dev.count_keeps
    | with_reducible apply Dev.raise_keeps
    | with_reducible apply Dev.emit_keeps
    | with_reducible apply Dev.coachRetrain_keeps
    | with_reducible apply Dev.sipRetrain_keeps
    | with_reducible apply Dev.laneRetrain_keeps
    | with_reducible apply Dev.trkLaneRetrain_keeps
    | with_reducible apply Dev.Keeps.ite
    | with_reducible apply Dev.Keeps.ite_snd
    | with_reducible apply Dev.Keeps.foldl
    | simp only [Dev.Keeps.keep]
    | (intro _; intros; try dsimp only)
    | dsimp only
    | (split; all_goals try dsimp only)

theorem Dev.pllLost_keeps {e₀ d : Dev} (h : Dev.Keeps e₀ d) (k : Nat) : Dev.Keeps e₀ (Dev.pllLost d k) := by
  unfold Dev.pllLost
  try dsimp only
  repeat' first
    | with_reducible assumption
    | with_reducible apply Dev.setPll_keeps
    | with_reducible apply Dev.setFld_keeps
    | with_reducible apply Dev.ckgEvent_keeps
    | with_reducible apply Dev.count_keeps
    | with_reducible apply Dev.raise_keeps
    | with_reducible apply Dev.quadLoss_keeps
    | with_reducible apply Dev.newEpoch_keeps
    | with_reducible apply Dev.Keeps.ite
    | with_reducible apply Dev.Keeps.ite_snd
    | with_reducible apply Dev.Keeps.foldl
    | simp only [Dev.Keeps.keep]
    | (intro _; intros; try dsimp only)
    | dsimp only
    | (split; all_goals try dsimp only)

theorem Dev.quadUp_keeps {e₀ d : Dev} (h : Dev.Keeps e₀ d) (q : Nat) : Dev.Keeps e₀ (Dev.quadUp d q) := by
  unfold Dev.quadUp
  try dsimp only
  repeat' first
    | with_reducible assumption
    | with_reducible apply Dev.driveLane_keeps
    | with_reducible apply Dev.coachUp_keeps
    | with_reducible apply Dev.sipTrain_keeps
    | with_reducible apply Dev.sipUp_keeps
    | with_reducible apply Dev.laneTrain_keeps
    | with_reducible apply Dev.laneUp_keeps
    | with_reducible apply Dev.trkTrain_keeps
    | with_reducible apply Dev.trkLaneUp_keeps
    | with_reducible apply Dev.Keeps.ite
    | with_reducible apply Dev.Keeps.ite_snd
    | with_reducible apply Dev.Keeps.foldl
    | simp only [Dev.Keeps.keep]
    | (intro _; intros; try dsimp only)
    | dsimp only
    | (split; all_goals try dsimp only)

theorem Dev.writePllSeed_keeps {e₀ d : Dev} (h : Dev.Keeps e₀ d) (k : Nat) (v : Nat) : Dev.Keeps e₀ (Dev.writePllSeed d k v) := by
  unfold Dev.writePllSeed
  try dsimp only
  repeat' first
    | with_reducible assumption
    | with_reducible apply Dev.setReg_keeps
    | with_reducible apply Dev.setPll_keeps
    | with_reducible apply Dev.Keeps.ite
    | with_reducible apply Dev.Keeps.ite_snd
    | with_reducible apply Dev.Keeps.foldl
    | simp only [Dev.Keeps.keep]
    | (intro _; intros; try dsimp only)
    | dsimp only
    | (split; all_goals try dsimp only)

theorem Dev.writePllLock_keeps {e₀ d : Dev} (h : Dev.Keeps e₀ d) (k : Nat) (v : Nat) : Dev.Keeps e₀ (Dev.writePllLock d k v) := by
  unfold Dev.writePllLock
  try dsimp only
  repeat' first
    | with_reducible assumption
    | with_reducible apply Dev.refuse_keeps
    | with_reducible apply Dev.setPll_keeps
    | with_reducible apply Dev.genericWrite_keeps
    | with_reducible apply Dev.Keeps.ite
    | with_reducible apply Dev.Keeps.ite_snd
    | with_reducible apply Dev.Keeps.foldl
    | simp only [Dev.Keeps.keep]
    | (intro _; intros; try dsimp only)
    | dsimp only
    | (split; all_goals try dsimp only)

theorem Dev.pllFail_keeps {e₀ d : Dev} (h : Dev.Keeps e₀ d) (k : Nat) : Dev.Keeps e₀ (Dev.pllFail d k) := by
  unfold Dev.pllFail
  try dsimp only
  repeat' first
    | with_reducible assumption
    | with_reducible apply Dev.setFld_keeps
    | with_reducible apply Dev.raise_keeps
    | with_reducible apply Dev.ckgEvent_keeps
    | with_reducible apply Dev.coachSettle_keeps
    | with_reducible apply Dev.abandonAll_keeps
    | with_reducible apply Dev.Keeps.ite
    | with_reducible apply Dev.Keeps.ite_snd
    | with_reducible apply Dev.Keeps.foldl
    | simp only [Dev.Keeps.keep]
    | (intro _; intros; try dsimp only)
    | dsimp only
    | (split; all_goals try dsimp only)

theorem Dev.clockChanged_keeps {e₀ d : Dev} (hk : Dev.Keeps e₀ d) (was : Dev) (n : Nat) :
    Dev.Keeps e₀ (Dev.clockChanged d was n) := by
  unfold Dev.clockChanged
  try dsimp only
  repeat' first
    | with_reducible assumption
    | with_reducible apply Dev.emit_keeps
    | with_reducible apply Dev.Keeps.ite
    | with_reducible apply Dev.Keeps.ite_snd
    | with_reducible apply Dev.Keeps.foldl
    | simp only [Dev.Keeps.keep]
    | (intro _; intros; try dsimp only)
    | dsimp only
    | (split; all_goals try dsimp only)

theorem Dev.writeClockOut_keeps {e₀ d : Dev} (h : Dev.Keeps e₀ d) (n : Nat) (div : Bool) (v : Nat) : Dev.Keeps e₀ (Dev.writeClockOut d n div v) := by
  unfold Dev.writeClockOut
  try dsimp only
  repeat' first
    | with_reducible assumption
    | with_reducible apply Dev.genericWrite_keeps
    | with_reducible apply Dev.clockChanged_keeps
    | with_reducible apply Dev.refuse_keeps
    | with_reducible apply Dev.Keeps.ite
    | with_reducible apply Dev.Keeps.ite_snd
    | with_reducible apply Dev.Keeps.foldl
    | simp only [Dev.Keeps.keep]
    | (intro _; intros; try dsimp only)
    | dsimp only
    | (split; all_goals try dsimp only)

end Sys2Proof.Machine
end

