-- ==== Sys2Proof/Laws/KeepsPower.lean ====
section
/-! SUPPORT. Power. -/

set_option linter.unusedTactic false
set_option linter.unreachableTactic false
set_option linter.unusedVariables false
set_option linter.unusedSimpArgs false

namespace Sys2Proof.Machine

theorem Dev.abortSlow_keeps {e₀ d : Dev} (h : Dev.Keeps e₀ d) (which : Nat → Bool) : Dev.Keeps e₀ (Dev.abortSlow d which) := by
  unfold Dev.abortSlow
  try dsimp only
  repeat' first
    | with_reducible assumption
    | with_reducible apply Dev.setSip_keeps
    | with_reducible apply Dev.ringComplete_keeps
    | with_reducible apply Dev.Keeps.ite
    | with_reducible apply Dev.Keeps.ite_snd
    | with_reducible apply Dev.Keeps.foldl
    | simp only [Dev.Keeps.keep]
    | (intro _; intros; try dsimp only)
    | dsimp only
    | (split; all_goals try dsimp only)

theorem Dev.abortScans_keeps {e₀ d : Dev} (h : Dev.Keeps e₀ d) (which : Nat → Bool) : Dev.Keeps e₀ (Dev.abortScans d which) := by
  unfold Dev.abortScans
  try dsimp only
  repeat' first
    | with_reducible assumption
    | with_reducible apply Dev.setTly_keeps
    | with_reducible apply Dev.orphanReader_keeps
    | with_reducible apply Dev.scanEnd_keeps
    | with_reducible apply Dev.tlyShow_keeps
    | with_reducible apply Dev.Keeps.ite
    | with_reducible apply Dev.Keeps.ite_snd
    | with_reducible apply Dev.Keeps.foldl
    | simp only [Dev.Keeps.keep]
    | (intro _; intros; try dsimp only)
    | dsimp only
    | (split; all_goals try dsimp only)

theorem Dev.dozeExit_keeps {e₀ d : Dev} (h : Dev.Keeps e₀ d) : Dev.Keeps e₀ (Dev.dozeExit d) := by
  unfold Dev.dozeExit
  try dsimp only
  repeat' first
    | with_reducible assumption
    | with_reducible apply Dev.setPower_keeps
    | with_reducible apply Dev.emit_keeps
    | with_reducible apply Dev.trkBegin_keeps
    | with_reducible apply Dev.coachSettle_keeps
    | with_reducible apply Dev.Keeps.ite
    | with_reducible apply Dev.Keeps.ite_snd
    | with_reducible apply Dev.Keeps.foldl
    | simp only [Dev.Keeps.keep]
    | (intro _; intros; try dsimp only)
    | dsimp only
    | (split; all_goals try dsimp only)

theorem Dev.abortLines_keeps {e₀ d : Dev} (h : Dev.Keeps e₀ d) (which : Nat → Bool) : Dev.Keeps e₀ (Dev.abortLines d which) := by
  unfold Dev.abortLines
  try dsimp only
  repeat' first
    | with_reducible assumption
    | with_reducible apply Dev.setRlc_keeps
    | with_reducible apply Dev.ringComplete_keeps
    | with_reducible apply Dev.Keeps.ite
    | with_reducible apply Dev.Keeps.ite_snd
    | with_reducible apply Dev.Keeps.foldl
    | simp only [Dev.Keeps.keep]
    | (intro _; intros; try dsimp only)
    | dsimp only
    | (split; all_goals try dsimp only)

theorem Dev.abortBlits_keeps {e₀ d : Dev} (h : Dev.Keeps e₀ d) (which : Nat → Bool) : Dev.Keeps e₀ (Dev.abortBlits d which) := by
  unfold Dev.abortBlits
  try dsimp only
  repeat' first
    | with_reducible assumption
    | with_reducible apply Dev.blitAbort_keeps
    | with_reducible apply Dev.setBlt_keeps
    | with_reducible apply Dev.bltShow_keeps
    | with_reducible apply Dev.blitEnd_keeps
    | with_reducible apply Dev.Keeps.ite
    | with_reducible apply Dev.Keeps.ite_snd
    | with_reducible apply Dev.Keeps.foldl
    | simp only [Dev.Keeps.keep]
    | (intro _; intros; try dsimp only)
    | dsimp only
    | (split; all_goals try dsimp only)

theorem Dev.abortTrunkSets_keeps {e₀ d : Dev} (h : Dev.Keeps e₀ d) (which : Nat → Bool) : Dev.Keeps e₀ (Dev.abortTrunkSets d which) := by
  unfold Dev.abortTrunkSets
  try dsimp only
  repeat' first
    | with_reducible assumption
    | with_reducible apply Dev.dropTrunkSet_keeps
    | with_reducible apply Dev.freshNat_keeps
    | with_reducible apply Dev.setComplete_keeps
    | with_reducible apply Dev.Keeps.ite
    | with_reducible apply Dev.Keeps.ite_snd
    | with_reducible apply Dev.Keeps.foldl
    | with_reducible apply Dev.Keeps.foldl_fst
    | simp only [Dev.Keeps.keep]
    | (intro _; intros; try dsimp only)
    | dsimp only
    | (split; all_goals try dsimp only)

theorem Dev.abortFlips_keeps {e₀ d : Dev} (h : Dev.Keeps e₀ d) (which : Nat → Bool) : Dev.Keeps e₀ (Dev.abortFlips d which) := by
  unfold Dev.abortFlips
  try dsimp only
  repeat' first
    | with_reducible assumption
    | with_reducible apply Dev.freshNat_keeps
    | with_reducible apply Dev.completeSet_keeps
    | with_reducible apply Dev.dequeue_keeps
    | with_reducible apply Dev.endWait_keeps
    | with_reducible apply Dev.Keeps.ite
    | with_reducible apply Dev.Keeps.ite_snd
    | with_reducible apply Dev.Keeps.foldl
    | simp only [Dev.Keeps.keep]
    | (intro _; intros; try dsimp only)
    | dsimp only
    | (split; all_goals try dsimp only)

theorem Dev.abortRings_keeps {e₀ d : Dev} (h : Dev.Keeps e₀ d) (which : Nat → Bool) : Dev.Keeps e₀ (Dev.abortRings d which) := by
  unfold Dev.abortRings
  try dsimp only
  repeat' first
    | with_reducible assumption
    | with_reducible apply Dev.abortSlow_keeps
    | with_reducible apply Dev.abortLines_keeps
    | with_reducible apply Dev.abortScans_keeps
    | with_reducible apply Dev.abortBlits_keeps
    | with_reducible apply Dev.abortTrunkSets_keeps
    | with_reducible apply Dev.abortFlips_keeps
    | with_reducible apply Dev.Keeps.ite
    | with_reducible apply Dev.Keeps.ite_snd
    | with_reducible apply Dev.Keeps.foldl
    | simp only [Dev.Keeps.keep]
    | (intro _; intros; try dsimp only)
    | dsimp only
    | (split; all_goals try dsimp only)

theorem Dev.lodgerLeave_keeps {e₀ d : Dev} (h : Dev.Keeps e₀ d) (cause : Nat) : Dev.Keeps e₀ (Dev.lodgerLeave d cause) := by
  unfold Dev.lodgerLeave
  try dsimp only
  repeat' first
    | with_reducible assumption
    | with_reducible apply Dev.trkLeave_keeps
    | with_reducible apply Dev.Keeps.ite
    | with_reducible apply Dev.Keeps.ite_snd
    | with_reducible apply Dev.Keeps.foldl
    | simp only [Dev.Keeps.keep]
    | (intro _; intros; try dsimp only)
    | dsimp only
    | (split; all_goals try dsimp only)

theorem Dev.tokenRead_keeps {e₀ d : Dev} (hk : Dev.Keeps e₀ d) :
    Dev.Keeps e₀ (Dev.tokenRead d) := by
  unfold Dev.tokenRead
  try dsimp only
  repeat' first
    | with_reducible assumption
    | with_reducible apply Dev.plainReads_keeps
    | with_reducible apply Dev.Keeps.ite
    | with_reducible apply Dev.Keeps.ite_snd
    | with_reducible apply Dev.Keeps.foldl
    | simp only [Dev.Keeps.keep]
    | (intro _; intros; try dsimp only)
    | dsimp only
    | (split; all_goals try dsimp only)

theorem Dev.unlock_keeps {e₀ d : Dev} (h : Dev.Keeps e₀ d) : Dev.Keeps e₀ (Dev.unlock d) := by
  unfold Dev.unlock
  try dsimp only
  repeat' first
    | with_reducible assumption
    | with_reducible apply Dev.tokenRead_keeps
    | with_reducible apply Dev.unlockRefused_keeps
    | with_reducible apply Dev.twnPart_keeps
    | with_reducible apply Dev.lodgerLeave_keeps
    | with_reducible apply Dev.abandonAll_keeps
    | with_reducible apply Dev.coachSettle_keeps
    | with_reducible apply Dev.Keeps.ite
    | with_reducible apply Dev.Keeps.ite_snd
    | with_reducible apply Dev.Keeps.foldl
    | simp only [Dev.Keeps.keep]
    | (intro _; intros; try dsimp only)
    | dsimp only
    | (split; all_goals try dsimp only)

theorem Dev.writeSdpCtrl_keeps {e₀ d : Dev} (h : Dev.Keeps e₀ d) (v : Nat) : Dev.Keeps e₀ (Dev.writeSdpCtrl d v) := by
  unfold Dev.writeSdpCtrl
  try dsimp only
  repeat' first
    | with_reducible assumption
    | with_reducible apply Dev.challenge_keeps
    | with_reducible apply Dev.unlock_keeps
    | with_reducible apply Dev.Keeps.ite
    | with_reducible apply Dev.Keeps.ite_snd
    | with_reducible apply Dev.Keeps.foldl
    | simp only [Dev.Keeps.keep]
    | (intro _; intros; try dsimp only)
    | dsimp only
    | (split; all_goals try dsimp only)

theorem Dev.aonExpiry_keeps {e₀ d : Dev} (h : Dev.Keeps e₀ d) : Dev.Keeps e₀ (Dev.aonExpiry d) := by
  unfold Dev.aonExpiry
  try dsimp only
  repeat' first
    | with_reducible assumption
    | with_reducible apply Dev.setLatch_keeps
    | with_reducible apply Dev.Keeps.ite
    | with_reducible apply Dev.Keeps.ite_snd
    | with_reducible apply Dev.Keeps.foldl
    | simp only [Dev.Keeps.keep]
    | (intro _; intros; try dsimp only)
    | dsimp only
    | (split; all_goals try dsimp only)

theorem Dev.belEcc_keeps {e₀ d : Dev} (h : Dev.Keeps e₀ d) (x1 : BelEcc) : Dev.Keeps e₀ (Dev.belEcc d x1) := by
  unfold Dev.belEcc
  try dsimp only
  repeat' first
    | with_reducible assumption
    | with_reducible apply Dev.secdedCorrected_keeps
    | with_reducible apply Dev.unpend_keeps
    | with_reducible apply Dev.pendBy_keeps
    | with_reducible apply Dev.arm_keeps
    | with_reducible apply Dev.secdedBad_keeps
    | with_reducible apply Dev.setReg_keeps
    | with_reducible apply Dev.Keeps.ite
    | with_reducible apply Dev.Keeps.ite_snd
    | with_reducible apply Dev.Keeps.foldl
    | simp only [Dev.Keeps.keep]
    | (intro _; intros; try dsimp only)
    | dsimp only
    | (split; all_goals try dsimp only)

theorem Dev.requestDown_keeps {e₀ d : Dev} (h : Dev.Keeps e₀ d) (rest : Bool) : Dev.Keeps e₀ (Dev.requestDown d rest) := by
  unfold Dev.requestDown
  try dsimp only
  repeat' first
    | with_reducible assumption
    | with_reducible apply Dev.refuse_keeps
    | with_reducible apply Dev.Keeps.ite
    | with_reducible apply Dev.Keeps.ite_snd
    | with_reducible apply Dev.Keeps.foldl
    | simp only [Dev.Keeps.keep]
    | (intro _; intros; try dsimp only)
    | dsimp only
    | (split; all_goals try dsimp only)

theorem Dev.writePower_keeps {e₀ d : Dev} (h : Dev.Keeps e₀ d) (v : Nat) : Dev.Keeps e₀ (Dev.writePower d v) := by
  unfold Dev.writePower
  try dsimp only
  repeat' first
    | with_reducible assumption
    | with_reducible apply Dev.refuse_keeps
    | with_reducible apply Dev.setFld_keeps
    | with_reducible apply Dev.lullExit_keeps
    | with_reducible apply Dev.requestDown_keeps
    | with_reducible apply Dev.Keeps.ite
    | with_reducible apply Dev.Keeps.ite_snd
    | with_reducible apply Dev.Keeps.foldl
    | simp only [Dev.Keeps.keep]
    | (intro _; intros; try dsimp only)
    | dsimp only
    | (split; all_goals try dsimp only)

theorem Dev.sensorSample_keeps {e₀ d : Dev} (h : Dev.Keeps e₀ d) (die : List Nat) (hbm : List Nat) : Dev.Keeps e₀ (Dev.sensorSample d die hbm) := by
  unfold Dev.sensorSample
  try dsimp only
  repeat' first
    | with_reducible assumption
    | with_reducible apply Dev.sample_keeps
    | with_reducible apply Dev.twnPart_keeps
    | with_reducible apply Dev.Keeps.ite
    | with_reducible apply Dev.Keeps.ite_snd
    | with_reducible apply Dev.Keeps.foldl
    | simp only [Dev.Keeps.keep]
    | (intro _; intros; try dsimp only)
    | dsimp only
    | (split; all_goals try dsimp only)

theorem Dev.bridgeFails16_keeps {e₀ d : Dev} (hk : Dev.Keeps e₀ d) (transfer : Nat) :
    Dev.Keeps e₀ (Dev.bridgeFails16 d transfer) := by
  unfold Dev.bridgeFails16
  try dsimp only
  repeat' first
    | with_reducible assumption
    | with_reducible apply Dev.bridgeDown_keeps
    | with_reducible apply Dev.abandonAll_keeps
    | with_reducible apply Dev.coachSettle_keeps
    | with_reducible apply Dev.twnSettle_keeps
    | with_reducible apply Dev.Keeps.ite
    | with_reducible apply Dev.Keeps.ite_snd
    | with_reducible apply Dev.Keeps.foldl
    | simp only [Dev.Keeps.keep]
    | (intro _; intros; try dsimp only)
    | dsimp only
    | (split; all_goals try dsimp only)

theorem Dev.belDoorbell_keeps {e₀ d : Dev} (h : Dev.Keeps e₀ d) (v : Nat) : Dev.Keeps e₀ (Dev.belDoorbell d v) := by
  unfold Dev.belDoorbell
  try dsimp only
  repeat' first
    | with_reducible assumption
    | with_reducible apply Dev.refuse_keeps
    | with_reducible apply Dev.raise_keeps
    | with_reducible apply Dev.twnMirror_keeps
    | with_reducible apply Dev.Keeps.ite
    | with_reducible apply Dev.Keeps.ite_snd
    | with_reducible apply Dev.Keeps.foldl
    | simp only [Dev.Keeps.keep]
    | (intro _; intros; try dsimp only)
    | dsimp only
    | (split; all_goals try dsimp only)

theorem Dev.ringFault_keeps {e₀ d : Dev} (h : Dev.Keeps e₀ d) (r : Nat) : Dev.Keeps e₀ (Dev.ringFault d r) := by
  unfold Dev.ringFault
  try dsimp only
  repeat' first
    | with_reducible assumption
    | with_reducible apply Dev.setFld_keeps
    | with_reducible apply Dev.ringStops_keeps
    | with_reducible apply Dev.ringEvent_keeps
    | with_reducible apply Dev.count_keeps
    | with_reducible apply Dev.secdedBad_keeps
    | with_reducible apply Dev.abortRings_keeps
    | with_reducible apply Dev.Keeps.ite
    | with_reducible apply Dev.Keeps.ite_snd
    | with_reducible apply Dev.Keeps.foldl
    | simp only [Dev.Keeps.keep]
    | (intro _; intros; try dsimp only)
    | dsimp only
    | (split; all_goals try dsimp only)

end Sys2Proof.Machine
end

