-- ==== Sys2Proof/Laws/KeepsRegWrite.lean ====
section
/-! SUPPORT. RegWrite. -/

set_option linter.unusedTactic false
set_option linter.unreachableTactic false
set_option linter.unusedVariables false
set_option linter.unusedSimpArgs false

namespace Sys2Proof.Machine

theorem Dev.shadowsWritten_keeps {e₀ d : Dev} (hk : Dev.Keeps e₀ d) (offs : List Nat) :
    Dev.Keeps e₀ (Dev.shadowsWritten d offs) := by
  unfold Dev.shadowsWritten
  try dsimp only
  repeat' first
    | with_reducible assumption
    | with_reducible apply Dev.Keeps.ite
    | with_reducible apply Dev.Keeps.ite_snd
    | with_reducible apply Dev.Keeps.foldl
    | simp only [Dev.Keeps.keep]
    | (intro _; intros; try dsimp only)
    | dsimp only
    | (split; all_goals try dsimp only)

theorem Dev.shadowWrite_keeps {e₀ d : Dev} (hk : Dev.Keeps e₀ d) (off v : Nat) :
    Dev.Keeps e₀ (Dev.shadowWrite d off v) := by
  unfold Dev.shadowWrite
  try dsimp only
  repeat' first
    | with_reducible assumption
    | with_reducible apply Dev.shadowsWritten_keeps
    | with_reducible apply Dev.genericWrite_keeps
    | with_reducible apply Dev.Keeps.ite
    | with_reducible apply Dev.Keeps.ite_snd
    | with_reducible apply Dev.Keeps.foldl
    | simp only [Dev.Keeps.keep]
    | (intro _; intros; try dsimp only)
    | dsimp only
    | (split; all_goals try dsimp only)

theorem Dev.writeRoute_keeps {e₀ d : Dev} (h : Dev.Keeps e₀ d) (p : Nat) (key : Nat) (v : Nat) : Dev.Keeps e₀ (Dev.writeRoute d p key v) := by
  unfold Dev.writeRoute
  try dsimp only
  repeat' first
    | with_reducible assumption
    | with_reducible apply Dev.refuse_keeps
    | with_reducible apply Dev.shadowWrite_keeps
    | with_reducible apply Dev.Keeps.ite
    | with_reducible apply Dev.Keeps.ite_snd
    | with_reducible apply Dev.Keeps.foldl
    | simp only [Dev.Keeps.keep]
    | (intro _; intros; try dsimp only)
    | dsimp only
    | (split; all_goals try dsimp only)

theorem Dev.plainWrite_keeps {e₀ d : Dev} (h : Dev.Keeps e₀ d) (page : Nat) (key : Nat) (v : Nat) : Dev.Keeps e₀ (Dev.plainWrite d page key v) := by
  unfold Dev.plainWrite
  try dsimp only
  repeat' first
    | with_reducible assumption
    | with_reducible apply Dev.genericWrite_keeps
    | with_reducible apply Dev.clearBeside_keeps
    | with_reducible apply Dev.Keeps.ite
    | with_reducible apply Dev.Keeps.ite_snd
    | with_reducible apply Dev.Keeps.foldl
    | simp only [Dev.Keeps.keep]
    | (intro _; intros; try dsimp only)
    | dsimp only
    | (split; all_goals try dsimp only)

theorem Dev.writeCpt_keeps {e₀ d : Dev} (h : Dev.Keeps e₀ d) (p : Nat) (key : Nat) (v : Nat) : Dev.Keeps e₀ (Dev.writeCpt d p key v) := by
  unfold Dev.writeCpt
  try dsimp only
  repeat' first
    | with_reducible assumption
    | with_reducible apply Dev.writeCoachCtrl_keeps
    | with_reducible apply Dev.writeChainId_keeps
    | with_reducible apply Dev.writeCommit_keeps
    | with_reducible apply Dev.writeRoute_keeps
    | with_reducible apply Dev.plainWrite_keeps
    | with_reducible apply Dev.Keeps.ite
    | with_reducible apply Dev.Keeps.ite_snd
    | with_reducible apply Dev.Keeps.foldl
    | simp only [Dev.Keeps.keep]
    | (intro _; intros; try dsimp only)
    | dsimp only
    | (split; all_goals try dsimp only)

theorem Dev.writeSip_keeps {e₀ d : Dev} (h : Dev.Keeps e₀ d) (p : Nat) (key : Nat) (v : Nat) : Dev.Keeps e₀ (Dev.writeSip d p key v) := by
  unfold Dev.writeSip
  try dsimp only
  repeat' first
    | with_reducible assumption
    | with_reducible apply Dev.writeCtxCtrl_keeps
    | with_reducible apply Dev.writeCtxFixed_keeps
    | with_reducible apply Dev.genericWrite_keeps
    | with_reducible apply Dev.writeSipCtrl_keeps
    | with_reducible apply Dev.writeSipRing_keeps
    | with_reducible apply Dev.plainWrite_keeps
    | with_reducible apply Dev.Keeps.ite
    | with_reducible apply Dev.Keeps.ite_snd
    | with_reducible apply Dev.Keeps.foldl
    | simp only [Dev.Keeps.keep]
    | (intro _; intros; try dsimp only)
    | dsimp only
    | (split; all_goals try dsimp only)

theorem Dev.writePort_keeps {e₀ d : Dev} (h : Dev.Keeps e₀ d) (p : Nat) (key : Nat) (v : Nat) : Dev.Keeps e₀ (Dev.writePort d p key v) := by
  unfold Dev.writePort
  try dsimp only
  repeat' first
    | with_reducible assumption
    | with_reducible apply Dev.writeCpt_keeps
    | with_reducible apply Dev.writeSip_keeps
    | with_reducible apply Dev.writeTwnPort_keeps
    | with_reducible apply Dev.plainWrite_keeps
    | with_reducible apply Dev.writeTrkPort_keeps
    | with_reducible apply Dev.Keeps.ite
    | with_reducible apply Dev.Keeps.ite_snd
    | with_reducible apply Dev.Keeps.foldl
    | simp only [Dev.Keeps.keep]
    | (intro _; intros; try dsimp only)
    | dsimp only
    | (split; all_goals try dsimp only)

theorem Dev.writeBel_keeps {e₀ d : Dev} (h : Dev.Keeps e₀ d) (off : Nat) (v : Nat) : Dev.Keeps e₀ (Dev.writeBel d off v) := by
  unfold Dev.writeBel
  try dsimp only
  repeat' first
    | with_reducible assumption
    | with_reducible apply Dev.complete_keeps
    | with_reducible apply Dev.pendAck_keeps
    | with_reducible apply Dev.setReg_keeps
    | with_reducible apply Dev.ack_keeps
    | with_reducible apply Dev.genericWrite_keeps
    | with_reducible apply Dev.belDoorbell_keeps
    | with_reducible apply Dev.clearBeside_keeps
    | with_reducible apply Dev.plainWrite_keeps
    | with_reducible apply Dev.Keeps.ite
    | with_reducible apply Dev.Keeps.ite_snd
    | with_reducible apply Dev.Keeps.foldl
    | simp only [Dev.Keeps.keep]
    | (intro _; intros; try dsimp only)
    | dsimp only
    | (split; all_goals try dsimp only)

theorem Dev.writeSdp_keeps {e₀ d : Dev} (h : Dev.Keeps e₀ d) (off : Nat) (v : Nat) : Dev.Keeps e₀ (Dev.writeSdp d off v) := by
  unfold Dev.writeSdp
  try dsimp only
  repeat' first
    | with_reducible assumption
    | with_reducible apply Dev.writePower_keeps
    | with_reducible apply Dev.writeSdpCtrl_keeps
    | with_reducible apply Dev.writeFuseProg_keeps
    | with_reducible apply Dev.writeStageKey_keeps
    | with_reducible apply Dev.plainWrite_keeps
    | with_reducible apply Dev.Keeps.ite
    | with_reducible apply Dev.Keeps.ite_snd
    | with_reducible apply Dev.Keeps.foldl
    | simp only [Dev.Keeps.keep]
    | (intro _; intros; try dsimp only)
    | dsimp only
    | (split; all_goals try dsimp only)

theorem Dev.writeCkg_keeps {e₀ d : Dev} (h : Dev.Keeps e₀ d) (off : Nat) (v : Nat) : Dev.Keeps e₀ (Dev.writeCkg d off v) := by
  unfold Dev.writeCkg
  try dsimp only
  repeat' first
    | with_reducible assumption
    | with_reducible apply Dev.writePllLock_keeps
    | with_reducible apply Dev.writePllSeed_keeps
    | with_reducible apply Dev.writeQpllCtrl_keeps
    | with_reducible apply Dev.genericWrite_keeps
    | with_reducible apply Dev.writeClockOut_keeps
    | with_reducible apply Dev.plainWrite_keeps
    | with_reducible apply Dev.Keeps.ite
    | with_reducible apply Dev.Keeps.ite_snd
    | with_reducible apply Dev.Keeps.foldl
    | simp only [Dev.Keeps.keep]
    | (intro _; intros; try dsimp only)
    | dsimp only
    | (split; all_goals try dsimp only)

theorem Dev.writeStkLock_keeps {e₀ d : Dev} (h : Dev.Keeps e₀ d) (v : Nat) : Dev.Keeps e₀ (Dev.writeStkLock d v) := by
  unfold Dev.writeStkLock
  try dsimp only
  repeat' first
    | with_reducible assumption
    | with_reducible apply Dev.refuse_keeps
    | with_reducible apply Dev.genericWrite_keeps
    | with_reducible apply Dev.Keeps.ite
    | with_reducible apply Dev.Keeps.ite_snd
    | with_reducible apply Dev.Keeps.foldl
    | simp only [Dev.Keeps.keep]
    | (intro _; intros; try dsimp only)
    | dsimp only
    | (split; all_goals try dsimp only)

theorem Dev.writeTiming_keeps {e₀ d : Dev} (h : Dev.Keeps e₀ d) (off : Nat) (v : Nat) : Dev.Keeps e₀ (Dev.writeTiming d off v) := by
  unfold Dev.writeTiming
  try dsimp only
  repeat' first
    | with_reducible assumption
    | with_reducible apply Dev.refuse_keeps
    | with_reducible apply Dev.genericWrite_keeps
    | with_reducible apply Dev.Keeps.ite
    | with_reducible apply Dev.Keeps.ite_snd
    | with_reducible apply Dev.Keeps.foldl
    | simp only [Dev.Keeps.keep]
    | (intro _; intros; try dsimp only)
    | dsimp only
    | (split; all_goals try dsimp only)

theorem Dev.writeStk_keeps {e₀ d : Dev} (h : Dev.Keeps e₀ d) (off : Nat) (v : Nat) : Dev.Keeps e₀ (Dev.writeStk d off v) := by
  unfold Dev.writeStk
  try dsimp only
  repeat' first
    | with_reducible assumption
    | with_reducible apply Dev.hostReframe_keeps
    | with_reducible apply Dev.todStep_keeps
    | with_reducible apply Dev.writeStkSrc_keeps
    | with_reducible apply Dev.writeStkLock_keeps
    | with_reducible apply Dev.writeTiming_keeps
    | with_reducible apply Dev.plainWrite_keeps
    | with_reducible apply Dev.Keeps.ite
    | with_reducible apply Dev.Keeps.ite_snd
    | with_reducible apply Dev.Keeps.foldl
    | simp only [Dev.Keeps.keep]
    | (intro _; intros; try dsimp only)
    | dsimp only
    | (split; all_goals try dsimp only)

theorem Dev.writeFlp_keeps {e₀ d : Dev} (h : Dev.Keeps e₀ d) (off : Nat) (v : Nat) : Dev.Keeps e₀ (Dev.writeFlp d off v) := by
  unfold Dev.writeFlp
  try dsimp only
  repeat' first
    | with_reducible assumption
    | with_reducible apply Dev.hostFence_keeps
    | with_reducible apply Dev.plainWrite_keeps
    | with_reducible apply Dev.Keeps.ite
    | with_reducible apply Dev.Keeps.ite_snd
    | with_reducible apply Dev.Keeps.foldl
    | simp only [Dev.Keeps.keep]
    | (intro _; intros; try dsimp only)
    | dsimp only
    | (split; all_goals try dsimp only)

theorem Dev.writeTly_keeps {e₀ d : Dev} (h : Dev.Keeps e₀ d) (off : Nat) (v : Nat) : Dev.Keeps e₀ (Dev.writeTly d off v) := by
  unfold Dev.writeTly
  try dsimp only
  repeat' first
    | with_reducible assumption
    | with_reducible apply Dev.writeTlyCfg_keeps
    | with_reducible apply Dev.writeTlyParam_keeps
    | with_reducible apply Dev.plainWrite_keeps
    | with_reducible apply Dev.Keeps.ite
    | with_reducible apply Dev.Keeps.ite_snd
    | with_reducible apply Dev.Keeps.foldl
    | simp only [Dev.Keeps.keep]
    | (intro _; intros; try dsimp only)
    | dsimp only
    | (split; all_goals try dsimp only)

theorem Dev.writeStl_keeps {e₀ d : Dev} (h : Dev.Keeps e₀ d) (off : Nat) (v : Nat) : Dev.Keeps e₀ (Dev.writeStl d off v) := by
  unfold Dev.writeStl
  try dsimp only
  repeat' first
    | with_reducible assumption
    | with_reducible apply Dev.writePlateCtrl_keeps
    | with_reducible apply Dev.writePlateGeom_keeps
    | with_reducible apply Dev.plateCommit_keeps
    | with_reducible apply Dev.genericWrite_keeps
    | with_reducible apply Dev.plainWrite_keeps
    | with_reducible apply Dev.Keeps.ite
    | with_reducible apply Dev.Keeps.ite_snd
    | with_reducible apply Dev.Keeps.foldl
    | simp only [Dev.Keeps.keep]
    | (intro _; intros; try dsimp only)
    | dsimp only
    | (split; all_goals try dsimp only)

theorem Dev.writeDep_keeps {e₀ d : Dev} (h : Dev.Keeps e₀ d) (off : Nat) (v : Nat) : Dev.Keeps e₀ (Dev.writeDep d off v) := by
  unfold Dev.writeDep
  try dsimp only
  repeat' first
    | with_reducible assumption
    | with_reducible apply Dev.writeDepCtrl_keeps
    | with_reducible apply Dev.writeLambda_keeps
    | with_reducible apply Dev.writeLogRing_keeps
    | with_reducible apply Dev.writeLogIndex_keeps
    | with_reducible apply Dev.plainWrite_keeps
    | with_reducible apply Dev.Keeps.ite
    | with_reducible apply Dev.Keeps.ite_snd
    | with_reducible apply Dev.Keeps.foldl
    | simp only [Dev.Keeps.keep]
    | (intro _; intros; try dsimp only)
    | dsimp only
    | (split; all_goals try dsimp only)

theorem Dev.writeTwn_keeps {e₀ d : Dev} (h : Dev.Keeps e₀ d) (off : Nat) (v : Nat) : Dev.Keeps e₀ (Dev.writeTwn d off v) := by
  unfold Dev.writeTwn
  try dsimp only
  repeat' first
    | with_reducible assumption
    | with_reducible apply Dev.writeTwnCtrl_keeps
    | with_reducible apply Dev.writeTwnLoss_keeps
    | with_reducible apply Dev.plainWrite_keeps
    | with_reducible apply Dev.Keeps.ite
    | with_reducible apply Dev.Keeps.ite_snd
    | with_reducible apply Dev.Keeps.foldl
    | simp only [Dev.Keeps.keep]
    | (intro _; intros; try dsimp only)
    | dsimp only
    | (split; all_goals try dsimp only)

theorem Dev.writeTrk_keeps {e₀ d : Dev} (h : Dev.Keeps e₀ d) (off : Nat) (v : Nat) : Dev.Keeps e₀ (Dev.writeTrk d off v) := by
  unfold Dev.writeTrk
  try dsimp only
  repeat' first
    | with_reducible assumption
    | with_reducible apply Dev.writeTrkCtrl_keeps
    | with_reducible apply Dev.writeTrkTimes_keeps
    | with_reducible apply Dev.writeTrkLoss_keeps
    | with_reducible apply Dev.writeTrkRing_keeps
    | with_reducible apply Dev.writeTrkDb_keeps
    | with_reducible apply Dev.plainWrite_keeps
    | with_reducible apply Dev.Keeps.ite
    | with_reducible apply Dev.Keeps.ite_snd
    | with_reducible apply Dev.Keeps.foldl
    | simp only [Dev.Keeps.keep]
    | (intro _; intros; try dsimp only)
    | dsimp only
    | (split; all_goals try dsimp only)

theorem Dev.writeRing_keeps {e₀ d : Dev} (h : Dev.Keeps e₀ d) (r : Nat) (off : Nat) (v : Nat) : Dev.Keeps e₀ (Dev.writeRing d r off v) := by
  unfold Dev.writeRing
  try dsimp only
  repeat' first
    | with_reducible assumption
    | with_reducible apply Dev.writeRingCtrl_keeps
    | with_reducible apply Dev.writeRingBase_keeps
    | with_reducible apply Dev.writeProd_keeps
    | with_reducible apply Dev.writeCons_keeps
    | with_reducible apply Dev.genericWrite_keeps
    | with_reducible apply Dev.Keeps.ite
    | with_reducible apply Dev.Keeps.ite_snd
    | with_reducible apply Dev.Keeps.foldl
    | simp only [Dev.Keeps.keep]
    | (intro _; intros; try dsimp only)
    | dsimp only
    | (split; all_goals try dsimp only)

theorem Dev.writeLine_keeps {e₀ d : Dev} (h : Dev.Keeps e₀ d) (c : Nat) (off : Nat) (v : Nat) : Dev.Keeps e₀ (Dev.writeLine d c off v) := by
  unfold Dev.writeLine
  try dsimp only
  repeat' first
    | with_reducible assumption
    | with_reducible apply Dev.writeRlcCtrl_keeps
    | with_reducible apply Dev.writeRlcSched_keeps
    | with_reducible apply Dev.writeRlcRing_keeps
    | with_reducible apply Dev.plainWrite_keeps
    | with_reducible apply Dev.genericWrite_keeps
    | with_reducible apply Dev.Keeps.ite
    | with_reducible apply Dev.Keeps.ite_snd
    | with_reducible apply Dev.Keeps.foldl
    | simp only [Dev.Keeps.keep]
    | (intro _; intros; try dsimp only)
    | dsimp only
    | (split; all_goals try dsimp only)

end Sys2Proof.Machine
end

