-- ==== Sys2Proof/Laws/KeepsBoot.lean ====
section
/-! SUPPORT. What moves the boot sequence or a load on, and keeps the fuses, the access port, the waybill, the flash and the security state. -/

namespace Sys2Proof.Machine

theorem Dev.KeepsFixed.refl (d : Dev) : Dev.KeepsFixed d d := ⟨rfl, rfl, rfl, rfl, rfl⟩

theorem Dev.KeepsFixed.trans {a b c : Dev} (h : Dev.KeepsFixed a b) (k : Dev.KeepsFixed b c) : Dev.KeepsFixed a c :=
  ⟨k.1.trans h.1, k.2.trans h.2, k.3.trans h.3, k.4.trans h.4, k.5.trans h.5⟩

/-- An operation that keeps more may follow. -/
theorem Dev.KeepsFixed.then {a b c : Dev} (h : Dev.KeepsFixed a b) (k : Dev.Keeps b c) : Dev.KeepsFixed a c := h.trans k.fixed

/-- The boot sequence may move on. -/
theorem Dev.KeepsFixed.withBoot {a b : Dev} {x : Boot} (h : Dev.KeepsFixed a b) : Dev.KeepsFixed a { b with boot := x } :=
  ⟨h.1, h.2, h.3, h.4, h.5⟩

theorem Dev.KeepsFixed.ite {c : Prop} [Decidable c] {e a b : Dev} (ha : Dev.KeepsFixed e a) (hb : Dev.KeepsFixed e b) :
    Dev.KeepsFixed e (if c then a else b) := by
  split
  · exact ha
  · exact hb

theorem Dev.startLoad_fixed (d : Dev) (src : LoadSource) : Dev.KeepsFixed d (d.startLoad src) :=
  (Dev.setWblState_keeps (Dev.Keeps.refl d) 1).fixed.withBoot

theorem Dev.loadFailed_fixed (d : Dev) (code off : Nat) : Dev.KeepsFixed d (d.loadFailed code off) := by
  unfold Dev.loadFailed
  split
  · exact (Dev.setReg_keeps (Dev.Keeps.refl d) _ _).fixed.trans (Dev.startLoad_fixed _ _)
  · exact (Dev.setReg_keeps (Dev.setFld_keeps (Dev.setWblState_keeps (Dev.Keeps.refl d) 3) _ _ _) _ _).fixed.withBoot

theorem Dev.imageRead_keeps (d : Dev) (src : LoadSource) (o n : Nat) : Dev.Keeps d (d.imageRead src o n).2 := by
  unfold Dev.imageRead
  split
  · exact Dev.reservedWakes_keeps (Dev.plainReads_keeps (Dev.Keeps.refl d) _ _) _ _
  · exact Dev.reservedWakes_keeps (Dev.Keeps.refl d) _ _

theorem Dev.headerCopied_fixed (d : Dev) (readError : Bool) : Dev.KeepsFixed d (d.headerCopied readError) := by
  unfold Dev.headerCopied
  split
  · exact Dev.KeepsFixed.refl d
  · split
    · exact Dev.KeepsFixed.refl d
    · split
      · exact Dev.loadFailed_fixed d _ _
      · dsimp only
        split
        · exact (Dev.imageRead_keeps d _ _ _).fixed.trans (Dev.loadFailed_fixed _ _ _)
        · exact (Dev.imageRead_keeps d _ _ _).fixed.withBoot

theorem Dev.imageCopied_fixed (d : Dev) (readError : Bool) : Dev.KeepsFixed d (d.imageCopied readError).1 := by
  unfold Dev.imageCopied
  split
  · exact Dev.KeepsFixed.refl d
  · split
    · exact Dev.KeepsFixed.refl d
    · split
      · exact Dev.loadFailed_fixed d _ _
      · dsimp only
        split
        · exact (Dev.imageRead_keeps d _ _ _).fixed.trans (Dev.loadFailed_fixed _ _ _)
        · exact (Dev.setReg_keeps (Dev.imageRead_keeps d _ _ _) _ _).fixed.withBoot

theorem Dev.hostLoad_fixed (d : Dev) : Dev.KeepsFixed d d.hostLoad := by
  have hr (x : Nat) : Dev.KeepsFixed d (d.refuse Reg.WBL_BLKID x) := (Dev.refuse_keeps (Dev.Keeps.refl d) _ _).fixed
  unfold Dev.hostLoad
  extract_lets a e len
  refine Dev.KeepsFixed.ite (hr _) (Dev.KeepsFixed.ite (hr _) ?_)
  have he : Dev.Keeps d e := Dev.Keeps.ite (fun _ => Dev.plainReads_keeps (Dev.Keeps.refl d) _ _) (fun _ => Dev.Keeps.refl d)
  exact Dev.KeepsFixed.ite (Dev.refuse_keeps he _ _).fixed (he.fixed.trans (Dev.startLoad_fixed _ _))

theorem Dev.readTrim_fixed (d : Dev) : Dev.KeepsFixed d d.readTrim :=
  (Dev.KeepsFixed.refl d).withBoot.then (Dev.applyTrim_keeps (Dev.Keeps.refl _))

theorem Dev.trainingDone_fixed (d : Dev) : Dev.KeepsFixed d d.trainingDone := by
  unfold Dev.trainingDone
  split
  · exact Dev.KeepsFixed.refl d
  · split <;> exact (Dev.KeepsFixed.refl d).withBoot

theorem Dev.clearDone_fixed (d : Dev) : Dev.KeepsFixed d d.clearDone := by
  unfold Dev.clearDone
  split
  · exact Dev.KeepsFixed.refl d
  · exact ⟨rfl, rfl, rfl, rfl, rfl⟩

theorem Dev.trimImageRead_keeps {e₀ d : Dev} (h : Dev.Keeps e₀ d) (op : Nat) : Dev.Keeps e₀ (d.trimImageRead op) := by
  unfold Dev.trimImageRead
  exact Dev.Keeps.ite (fun _ => Dev.plainReads_keeps h _ _) (fun _ => h)

theorem Dev.flashGo_fixed (d : Dev) (op : Nat) : Dev.KeepsFixed d (d.flashGo op) := by
  have h := Dev.trimImageRead_keeps (Dev.setReg_keeps (Dev.Keeps.refl d) Reg.CAL_FL_CMD (op * 2)) op
  unfold Dev.flashGo
  dsimp only
  split
  · exact (Dev.refuse_keeps h _ _).fixed
  · exact (Dev.setReg_keeps h _ _).fixed.withBoot

theorem Dev.ckgRelease_fixed (d : Dev) : Dev.KeepsFixed d d.ckgRelease := by
  unfold Dev.ckgRelease
  split
  · exact (Dev.KeepsFixed.refl d).withBoot
  · exact Dev.KeepsFixed.refl d

theorem Dev.pllLocked_fixed (d : Dev) (k : Nat) : Dev.KeepsFixed d (d.pllLocked k) := by
  have h := Dev.setFld_keeps (Dev.setPll_keeps (Dev.Keeps.refl d) k { d.pll k with lost := false, out := 0 })
    (pllPage k + pllStatus) Fld.CKG_PLL_STATUS_LOCKED 1
  unfold Dev.pllLocked
  dsimp only
  split
  · exact (Dev.raiseIf_keeps h _ _).fixed.trans (Dev.ckgRelease_fixed _)
  · split
    · exact (Dev.quadUp_keeps h _).fixed
    · exact h.fixed

theorem Dev.pllWindow_fixed (d : Dev) (k : Nat) (diff : Int) : Dev.KeepsFixed d (d.pllWindow k diff) := by
  have h (off : Nat) (f : Fld) (v : Nat) (x : Pll) : Dev.Keeps d ((d.setFld off f v).setPll k x) :=
    Dev.setPll_keeps (Dev.setFld_keeps (Dev.Keeps.refl d) _ _ _) _ _
  unfold Dev.pllWindow
  exact Dev.KeepsFixed.ite (Dev.KeepsFixed.refl d) (Dev.KeepsFixed.ite (Dev.pllLost_keeps (h _ _ _ _) _).fixed
    (Dev.KeepsFixed.ite ((h _ _ _ _).fixed.trans (Dev.pllLocked_fixed _ _)) (h _ _ _ _).fixed))

/-- The flush phase keeps them but for the flash, in which an operation in progress is abandoned (R458). -/
theorem Dev.startFlush_fixed (d : Dev) (k : ResetKind) : Dev.KeepsFixed d.abandonFlash (d.startFlush k) :=
  (Dev.KeepsFixed.refl d.abandonFlash).withBoot.then
    (Dev.abandonAll_keeps (Dev.twnSettle_keeps (Dev.coachSettle_keeps (Dev.lodgerLeave_keeps (Dev.twnPart_keeps
      (Dev.flushWaits_keeps (Dev.flushSets_keeps (Dev.abortRings_keeps (Dev.Keeps.refl _) _) _) _) _) _))))

theorem Dev.restDone_fixed (d : Dev) : Dev.KeepsFixed d d.restDone := by
  unfold Dev.restDone
  have h : Dev.KeepsFixed d { d with
    boot := { d.boot with fromRest := false }
    sdp := { d.sdp with waking := false, timerRunning := false } } := ⟨rfl, rfl, rfl, rfl, rfl⟩
  exact h.then (Dev.setPower_keeps (Dev.emit_keeps (Dev.Keeps.refl _) _) 0)

theorem Dev.bootLoad_fixed (d : Dev) : Dev.KeepsFixed d d.bootLoad := by
  unfold Dev.bootLoad
  split
  · exact Dev.startLoad_fixed d _
  · exact Dev.startLoad_fixed d _
  · exact Dev.KeepsFixed.refl d

theorem Dev.flashLoad_fixed (d : Dev) : Dev.KeepsFixed d d.flashLoad := by
  unfold Dev.flashLoad
  split
  · exact Dev.KeepsFixed.refl d
  · split
    · split
      · exact Dev.startLoad_fixed d _
      · exact (Dev.restDone_fixed d).trans (Dev.bootLoad_fixed _)
    · exact Dev.bootLoad_fixed d

end Sys2Proof.Machine
end

