-- ==== Sys2Proof/Laws/KeepsRegRead.lean ====
section
/-! SUPPORT. RegRead. -/

set_option linter.unusedTactic false
set_option linter.unreachableTactic false
set_option linter.unusedVariables false
set_option linter.unusedSimpArgs false

namespace Sys2Proof.Machine

theorem Dev.readBar0_keeps {e₀ d : Dev} (h : Dev.Keeps e₀ d) (off : Nat) : Dev.Keeps e₀ (Dev.readBar0 d off).2 := by
  unfold Dev.readBar0
  try dsimp only
  repeat' first
    | with_reducible assumption
    | with_reducible apply Dev.farError_keeps
    | with_reducible apply Dev.Keeps.ite
    | with_reducible apply Dev.Keeps.ite_snd
    | with_reducible apply Dev.Keeps.foldl
    | simp only [Dev.Keeps.keep]
    | (intro _; intros; try dsimp only)
    | dsimp only
    | (split; all_goals try dsimp only)

end Sys2Proof.Machine
end

