-- ==== Sys2Proof/Laws/KeepsTwinRx.lean ====
section
/-! SUPPORT. TwinRx. -/

set_option linter.unusedTactic false
set_option linter.unreachableTactic false
set_option linter.unusedVariables false
set_option linter.unusedSimpArgs false

namespace Sys2Proof.Machine

theorem Dev.twnStripLost_keeps {e₀ d : Dev} (h : Dev.Keeps e₀ d) : Dev.Keeps e₀ (Dev.twnStripLost d) := by
  unfold Dev.twnStripLost
  try dsimp only
  repeat' first
    | with_reducible assumption
    | with_reducible apply Dev.enterAlone_keeps
    | with_reducible apply Dev.twnPart_keeps
    | with_reducible apply Dev.Keeps.ite
    | with_reducible apply Dev.Keeps.ite_snd
    | with_reducible apply Dev.Keeps.foldl
    | simp only [Dev.Keeps.keep]
    | (intro _; intros; try dsimp only)
    | dsimp only
    | (split; all_goals try dsimp only)

theorem Dev.twnAuthed_keeps {e₀ d : Dev} (h : Dev.Keeps e₀ d) (payload : List Byte) : Dev.Keeps e₀ (Dev.twnAuthed d payload) := by
  unfold Dev.twnAuthed
  try dsimp only
  repeat' first
    | with_reducible assumption
    | with_reducible apply Dev.twnSend_keeps
    | with_reducible apply Dev.Keeps.ite
    | with_reducible apply Dev.Keeps.ite_snd
    | with_reducible apply Dev.Keeps.foldl
    | simp only [Dev.Keeps.keep]
    | (intro _; intros; try dsimp only)
    | dsimp only
    | (split; all_goals try dsimp only)

theorem Dev.takePcv_keeps {e₀ d : Dev} (h : Dev.Keeps e₀ d) (rec_ : List Byte) : Dev.Keeps e₀ (Dev.takePcv d rec_) := by
  unfold Dev.takePcv
  try dsimp only
  repeat' first
    | with_reducible assumption
    | with_reducible apply Dev.reservedWake_keeps
    | with_reducible apply Dev.mapParcel_keeps
    | with_reducible apply Dev.twnCompare_keeps
    | with_reducible apply Dev.Keeps.ite
    | with_reducible apply Dev.Keeps.ite_snd
    | with_reducible apply Dev.Keeps.foldl
    | simp only [Dev.Keeps.keep]
    | (intro _; intros; try dsimp only)
    | dsimp only
    | (split; all_goals try dsimp only)

theorem Dev.takeResolve_keeps {e₀ d : Dev} (hk : Dev.Keeps e₀ d) (sealOk : Bool) (rec_ : List Byte) :
    Dev.Keeps e₀ (Dev.takeResolve d sealOk rec_) := by
  unfold Dev.takeResolve
  try dsimp only
  repeat' first
    | with_reducible assumption
    | with_reducible apply Dev.mapParcel_keeps
    | with_reducible apply Dev.twnResolve_keeps
    | with_reducible apply Dev.Keeps.ite
    | with_reducible apply Dev.Keeps.ite_snd
    | with_reducible apply Dev.Keeps.foldl
    | simp only [Dev.Keeps.keep]
    | (intro _; intros; try dsimp only)
    | dsimp only
    | (split; all_goals try dsimp only)

theorem Dev.repairRead_keeps {e₀ d : Dev} (h : Dev.Keeps e₀ d) (block : Nat) (again bad : Bool) :
    Dev.Keeps e₀ (Dev.repairRead d block again bad) := Dev.failBlocks_keeps (Dev.memWake_keeps h _) true _

theorem Dev.repairAsked_keeps {e₀ d : Dev} (hk : Dev.Keeps e₀ d) (payload : List Byte) (again bad : Bool) :
    Dev.Keeps e₀ (Dev.repairAsked d payload again bad) := by
  unfold Dev.repairAsked
  try dsimp only
  repeat' first
    | with_reducible assumption
    | with_reducible apply Dev.repairRead_keeps
    | with_reducible apply Dev.twnSend_keeps
    | with_reducible apply Dev.count_keeps
    | with_reducible apply Dev.Keeps.ite
    | with_reducible apply Dev.Keeps.ite_snd
    | with_reducible apply Dev.Keeps.foldl
    | simp only [Dev.Keeps.keep]
    | (intro _; intros; try dsimp only)
    | dsimp only
    | (split; all_goals try dsimp only)

theorem Dev.repairCame_keeps {e₀ d : Dev} (hk : Dev.Keeps e₀ d) (payload : List Byte) (staging : Ecc) :
    Dev.Keeps e₀ (Dev.repairCame d payload staging) := by
  unfold Dev.repairCame
  try dsimp only
  repeat' first
    | with_reducible assumption
    | with_reducible apply Dev.reserved_keeps
    | with_reducible apply Dev.repairFailed_keeps
    | with_reducible apply Dev.repairDone_keeps
    | with_reducible apply Dev.Keeps.ite
    | with_reducible apply Dev.Keeps.ite_snd
    | with_reducible apply Dev.Keeps.foldl
    | simp only [Dev.Keeps.keep]
    | (intro _; intros; try dsimp only)
    | dsimp only
    | (split; all_goals try dsimp only)

theorem Dev.enqueueMirrored_keeps {e₀ d : Dev} (hk : Dev.Keeps e₀ d) (x : QSet × SetPlan) :
    Dev.Keeps e₀ (Dev.enqueueMirrored d x) := by
  unfold Dev.enqueueMirrored
  try dsimp only
  repeat' first
    | with_reducible assumption
    | with_reducible apply Dev.enqueue_keeps
    | with_reducible apply Dev.Keeps.ite
    | with_reducible apply Dev.Keeps.ite_snd
    | with_reducible apply Dev.Keeps.foldl
    | simp only [Dev.Keeps.keep]
    | (intro _; intros; try dsimp only)
    | dsimp only
    | (split; all_goals try dsimp only)

theorem Dev.mirrorSet_keeps {e₀ d : Dev} (h : Dev.Keeps e₀ d) (ring : Nat) (index : Nat) (entries : List (List Nat)) (verdict : Nat) (target : Nat) : Dev.Keeps e₀ (Dev.mirrorSet d ring index entries verdict target) := by
  unfold Dev.mirrorSet
  try dsimp only
  repeat' first
    | with_reducible assumption
    | with_reducible apply Dev.lullExit_keeps
    | with_reducible apply Dev.mirrored_keeps
    | with_reducible apply Dev.count_keeps
    | with_reducible apply Dev.twnEvent_keeps
    | with_reducible apply Dev.raise_keeps
    | with_reducible apply Dev.enqueue_keeps
    | with_reducible apply Dev.flpEdge_keeps
    | with_reducible apply Dev.enqueueMirrored_keeps
    | with_reducible apply Dev.countVerdict_keeps
    | with_reducible apply Dev.freshNat_keeps
    | with_reducible apply Dev.mirrorCopy_keeps
    | with_reducible apply Dev.Keeps.ite
    | with_reducible apply Dev.Keeps.ite_snd
    | with_reducible apply Dev.Keeps.foldl
    | simp only [Dev.Keeps.keep]
    | (intro _; intros; try dsimp only)
    | dsimp only
    | (split; all_goals try dsimp only)

theorem Dev.mirrorWait_keeps {e₀ d : Dev} (h : Dev.Keeps e₀ d) (ring : Nat) (index : Nat) (e : List Nat) : Dev.Keeps e₀ (Dev.mirrorWait d ring index e) := by
  unfold Dev.mirrorWait
  try dsimp only
  repeat' first
    | with_reducible assumption
    | with_reducible apply Dev.mirrorCopy_keeps
    | with_reducible apply Dev.Keeps.ite
    | with_reducible apply Dev.Keeps.ite_snd
    | with_reducible apply Dev.Keeps.foldl
    | simp only [Dev.Keeps.keep]
    | (intro _; intros; try dsimp only)
    | dsimp only
    | (split; all_goals try dsimp only)

theorem Dev.imageSet_keeps {e₀ d : Dev} (h : Dev.Keeps e₀ d) (x : ImageSet) : Dev.Keeps e₀ (Dev.imageSet d x) := by
  unfold Dev.imageSet
  try dsimp only
  repeat' first
    | with_reducible assumption
    | with_reducible apply Dev.enqueueMirrored_keeps
    | with_reducible apply Dev.mirrored_keeps
    | with_reducible apply Dev.Keeps.ite
    | with_reducible apply Dev.Keeps.ite_snd
    | with_reducible apply Dev.Keeps.foldl
    | simp only [Dev.Keeps.keep]
    | (intro _; intros; try dsimp only)
    | dsimp only
    | (split; all_goals try dsimp only)

theorem Dev.imageRegs_keeps {e₀ d : Dev} (h : Dev.Keeps e₀ d) : Dev.Keeps e₀ (Dev.imageRegs d) := by
  unfold Dev.imageRegs
  try dsimp only
  repeat' first
    | with_reducible assumption
    | with_reducible apply Dev.setCoach_keeps
    | with_reducible apply Dev.setPlate_keeps
    | with_reducible apply Dev.settledApply_keeps
    | with_reducible apply Dev.controlWritten_keeps
    | with_reducible apply Dev.Keeps.ite
    | with_reducible apply Dev.Keeps.ite_snd
    | with_reducible apply Dev.Keeps.foldl
    | simp only [Dev.Keeps.keep]
    | (intro _; intros; try dsimp only)
    | dsimp only
    | (split; all_goals try dsimp only)

theorem Dev.twnPlaced_keeps {e₀ d : Dev} (hk : Dev.Keeps e₀ d) (t : Rat) :
    Dev.Keeps e₀ (Dev.twnPlaced d t).2 := by
  unfold Dev.twnPlaced
  try dsimp only
  repeat' first
    | with_reducible assumption
    | with_reducible apply Dev.placed_keeps
    | with_reducible apply Dev.Keeps.ite
    | with_reducible apply Dev.Keeps.ite_snd
    | with_reducible apply Dev.Keeps.foldl
    | simp only [Dev.Keeps.keep]
    | (intro _; intros; try dsimp only)
    | dsimp only
    | (split; all_goals try dsimp only)

theorem Dev.takeState_keeps {e₀ d : Dev} (h : Dev.Keeps e₀ d) (first : Bool) (last : Bool) (regs : List (Nat × Nat)) (sets : List ImageSet) (start : Option (Rat × Nat)) : Dev.Keeps e₀ (Dev.takeState d first last regs sets start) := by
  unfold Dev.takeState
  try dsimp only
  repeat' first
    | with_reducible assumption
    | with_reducible apply Dev.flushSets_keeps
    | with_reducible apply Dev.setFld_keeps
    | with_reducible apply Dev.setReg_keeps
    | with_reducible apply Dev.imageSet_keeps
    | with_reducible apply Dev.imageRegs_keeps
    | with_reducible apply Dev.twnPlaced_keeps
    | with_reducible apply Dev.reframeAccept_keeps
    | with_reducible apply Dev.coachSettle_keeps
    | with_reducible apply Dev.updateAdm_keeps
    | with_reducible apply Dev.Keeps.ite
    | with_reducible apply Dev.Keeps.ite_snd
    | with_reducible apply Dev.Keeps.foldl
    | with_reducible apply Dev.Keeps.foldl_fst
    | simp only [Dev.Keeps.keep]
    | (intro _; intros; try dsimp only)
    | dsimp only
    | (split; all_goals try dsimp only)

end Sys2Proof.Machine
end

