-- ==== Sys2Proof/Laws/Table.lean ====
section
/-! SUPPORT. The laws of sparse tables: read after write, and the canonical form that every write keeps. -/

namespace Sys2Proof.Machine

variable {α : Type} [DecidableEq α] {d : Nat → α}

/-! ### Read after write -/

omit [DecidableEq α] in
theorem Tab.get_insert (t : Tab α) (k j : Nat) (v : α) :
    (t.insert k v).get d j = if j = k then v else t.get d j := by
  induction t with
  | nil => simp [Tab.insert, Tab.get, eq_comm]
  | cons e t ih =>
    obtain ⟨k', v'⟩ := e
    simp only [Tab.insert]
    split
    · subst k'
      by_cases h : j = k
      · simp [Tab.get, h]
      · simp [Tab.get, h, Ne.symm h]
    · split
      · by_cases h : j = k
        · simp [Tab.get, h]
        · simp [Tab.get, h, Ne.symm h]
      · by_cases h : j = k
        · subst h
          simp_all [Tab.get]
        · simp [Tab.get, ih, h]

omit [DecidableEq α] in
theorem Tab.get_remove (t : Tab α) (k j : Nat) : (t.remove k).get d j = if j = k then d k else t.get d j := by
  induction t with
  | nil => by_cases h : j = k <;> simp [Tab.remove, Tab.get, h]
  | cons e t ih =>
    obtain ⟨k', v'⟩ := e
    simp only [Tab.remove] at ih ⊢
    by_cases h' : k' = k
    · subst h'
      rw [List.filter_cons_of_neg (by simp), ih]
      by_cases h : j = k'
      · simp [h]
      · simp [Tab.get, h, Ne.symm h]
    · rw [List.filter_cons_of_pos (by simpa using h')]
      by_cases h : j = k
      · subst h
        simp [Tab.get, h', ih]
      · simp [Tab.get, ih, h]

/-- A read after a write gives the value written at its key and what was there at every other key. -/
theorem Tab.get_set (t : Tab α) (k j : Nat) (v : α) :
    (t.set d k v).get d j = if j = k then v else t.get d j := by
  unfold Tab.set
  split
  · subst v
    rw [Tab.get_remove]
  · rw [Tab.get_insert]

@[simp] theorem Tab.get_set_same (t : Tab α) (k : Nat) (v : α) : (t.set d k v).get d k = v := by
  simp [Tab.get_set]

theorem Tab.get_set_other (t : Tab α) {k j : Nat} (v : α) (h : j ≠ k) : (t.set d k v).get d j = t.get d j := by
  simp [Tab.get_set, h]

/-- Below a list of values written, everything reads as before. -/
theorem Tab.get_write_below (t : Tab α) (vs : List α) {k j : Nat} (h : j < k) :
    (t.write d k vs).get d j = t.get d j := by
  induction vs generalizing t k with
  | nil => rfl
  | cons v vs ih => rw [Tab.write, ih _ (by omega), Tab.get_set_other _ _ (by omega)]

/-- What a key reads as after a list of values is written from key `k` on. -/
theorem Tab.get_write (t : Tab α) (vs : List α) (k j : Nat) :
    (t.write d k vs).get d j = if k ≤ j then vs.getD (j - k) (t.get d j) else t.get d j := by
  induction vs generalizing t k with
  | nil => simp [Tab.write]
  | cons v vs ih =>
    rw [Tab.write, ih, Tab.get_set]
    by_cases h1 : j = k
    · subst h1
      simp
    · by_cases h2 : k ≤ j
      · have h3 : k + 1 ≤ j := by omega
        obtain ⟨n, rfl⟩ : ∃ n, j = k + 1 + n := ⟨j - (k + 1), by omega⟩
        have e1 : k + 1 + n - (k + 1) = n := by omega
        have e2 : k + 1 + n - k = n + 1 := by omega
        simp [h1, h2, h3, e1, e2]
      · have h3 : ¬ k + 1 ≤ j := by omega
        simp [h1, h2, h3]

theorem Tab.get_write_other (t : Tab α) (vs : List α) {k j : Nat} (h : j < k ∨ k + vs.length ≤ j) :
    (t.write d k vs).get d j = t.get d j := by
  rw [Tab.get_write]
  split
  · rw [List.getD_eq_default _ _ (by omega)]
  · rfl

/-- Reading back the values just written gives them. -/
theorem Tab.range_write (t : Tab α) (vs : List α) (k : Nat) : (t.write d k vs).range d k vs.length = vs := by
  induction vs generalizing t k with
  | nil => rfl
  | cons v vs ih => rw [Tab.write, List.length_cons, Tab.range, ih, Tab.get_write_below _ _ (by omega), Tab.get_set_same]

omit [DecidableEq α] in
@[simp] theorem Tab.length_range (t : Tab α) (k n : Nat) : (t.range d k n).length = n := by
  induction n generalizing k with
  | zero => rfl
  | succ n ih => simp [Tab.range, ih]

omit [DecidableEq α] in
theorem Tab.get_clear (t : Tab α) (k n j : Nat) :
    (t.clear k n).get d j = if k ≤ j ∧ j < k + n then d j else t.get d j := by
  induction t with
  | nil => simp [Tab.clear, Tab.get]
  | cons e t ih =>
    obtain ⟨k', v'⟩ := e
    simp only [Tab.clear] at ih ⊢
    by_cases h' : k ≤ k' ∧ k' < k + n
    · rw [List.filter_cons_of_neg (by simp [h']), ih]
      by_cases h : k ≤ j ∧ j < k + n
      · simp [h]
      · have : k' ≠ j := by rintro rfl; exact h h'
        simp [h, Tab.get, this]
    · rw [List.filter_cons_of_pos (by simp; omega), Tab.get, Tab.get]
      by_cases h : k' = j
      · subst h
        simp [h']
      · rw [if_neg h, if_neg h]
        exact ih

/-! ### The canonical form -/

/-- A lower bound on the keys may be lowered. -/
theorem Tab.wfFrom_mono {t : Tab α} {lo lo' : Option Nat} (h : Tab.wfFrom d lo t = true)
    (hl : ∀ k, lo.all (· < k) = true → lo'.all (· < k) = true) : Tab.wfFrom d lo' t = true := by
  cases t with
  | nil => rfl
  | cons e t =>
    simp only [Tab.wfFrom, Bool.and_eq_true] at h ⊢
    exact ⟨⟨hl _ h.1.1, h.1.2⟩, h.2⟩

theorem Tab.wfFrom_insert {t : Tab α} {lo : Option Nat} {k : Nat} {v : α} (h : Tab.wfFrom d lo t = true)
    (hk : lo.all (· < k) = true) (hv : v ≠ d k) : Tab.wfFrom d lo (t.insert k v) = true := by
  induction t generalizing lo with
  | nil => simp [Tab.insert, Tab.wfFrom, hk, hv]
  | cons e t ih =>
    obtain ⟨k', v'⟩ := e
    simp only [Tab.wfFrom, Bool.and_eq_true] at h
    simp only [Tab.insert]
    split
    · subst k'
      simp [Tab.wfFrom, hk, hv, h.2]
    · split
      · next hlt => simp [Tab.wfFrom, hk, hv, h.2, hlt, of_decide_eq_true h.1.2]
      · simp only [Tab.wfFrom, Bool.and_eq_true]
        exact ⟨h.1, ih h.2 (by simp; omega)⟩

theorem Tab.wfFrom_filter {t : Tab α} {lo : Option Nat} (p : Nat × α → Bool) (h : Tab.wfFrom d lo t = true) :
    Tab.wfFrom d lo (t.filter p) = true := by
  induction t generalizing lo with
  | nil => rfl
  | cons e t ih =>
    obtain ⟨k, v⟩ := e
    simp only [Tab.wfFrom, Bool.and_eq_true] at h
    by_cases hp : p (k, v) = true
    · rw [List.filter_cons_of_pos hp]
      simp only [Tab.wfFrom, Bool.and_eq_true]
      exact ⟨h.1, ih h.2⟩
    · rw [List.filter_cons_of_neg hp]
      refine ih (Tab.wfFrom_mono h.2 fun j hj => ?_)
      cases lo with
      | none => rfl
      | some l =>
        simp at hj h ⊢
        omega

theorem Tab.wf_set {t : Tab α} (h : Tab.wf d t = true) (k : Nat) (v : α) : Tab.wf d (t.set d k v) = true := by
  unfold Tab.set
  split
  · exact Tab.wfFrom_filter _ h
  · next hv => exact Tab.wfFrom_insert h rfl hv

theorem Tab.wf_write {t : Tab α} (h : Tab.wf d t = true) (k : Nat) (vs : List α) :
    Tab.wf d (t.write d k vs) = true := by
  induction vs generalizing t k with
  | nil => exact h
  | cons v vs ih => exact ih (Tab.wf_set h k v) (k + 1)

theorem Tab.wf_clear {t : Tab α} (h : Tab.wf d t = true) (k n : Nat) : Tab.wf d (t.clear k n) = true :=
  Tab.wfFrom_filter _ h

theorem Tab.wf_filter {t : Tab α} (h : Tab.wf d t = true) (p : Nat × α → Bool) : Tab.wf d (t.filter p) = true :=
  Tab.wfFrom_filter p h

@[simp] theorem Tab.wf_nil : Tab.wf d [] = true := rfl

end Sys2Proof.Machine
end

