-- ==== Sys2Proof/Laws/Reads.lean ====
section
/-! SUPPORT. What a read of software memory under the block check does where every block passes: it wakes the controllers, and no more. -/

namespace Sys2Proof.Machine

/-- A device is itself but for any registers. -/
theorem Dev.OnlyRegs.refl (d : Dev) (offs : List Nat) : Dev.OnlyRegs d d offs := ⟨fun _ _ => rfl, rfl⟩

/-- A wake-up changes `MEM_STATUS` alone. -/
theorem Dev.memPowerUp_eq (d : Dev) (c : Nat) : ∃ v, d.memPowerUp c = d ∨ d.memPowerUp c = d.setReg Reg.MEM_STATUS v := by
  unfold Dev.memPowerUp
  split
  · exact ⟨_, .inr rfl⟩
  · exact ⟨0, .inl rfl⟩

/-- A write of one register leaves the others. -/
theorem Dev.OnlyRegs.setReg {d e : Dev} {offs : List Nat} (h : Dev.OnlyRegs d e offs) {off : Nat} (hm : off ∈ offs) (v : Nat) :
    Dev.OnlyRegs d (e.setReg off v) offs := by
  refine ⟨fun o ho => ?_, h.rest⟩
  have hne : o ≠ off := fun hc => ho (hc ▸ hm)
  rw [← h.regs o ho]
  simp [Dev.reg, Dev.setReg, Tab.get_set, hne]

/-- Waking controllers changes `MEM_STATUS` alone. -/
theorem Dev.memWake_onlyRegs (d : Dev) (blocks : List Nat) : Dev.OnlyRegs d (d.memWake blocks) [Reg.MEM_STATUS] := by
  have step : ∀ (bs : List Nat) (e : Dev), Dev.OnlyRegs d e [Reg.MEM_STATUS] →
      Dev.OnlyRegs d (bs.foldl (fun d b => d.memPowerUp (d.stackOf (b * 256))) e) [Reg.MEM_STATUS] := by
    intro bs
    induction bs with
    | nil => exact fun _ h => h
    | cons b bs ih =>
      intro e h
      refine ih _ ?_
      show Dev.OnlyRegs d (e.memPowerUp (e.stackOf (b * 256))) [Reg.MEM_STATUS]
      obtain ⟨v, hv | hv⟩ := e.memPowerUp_eq (e.stackOf (b * 256))
      · rw [hv]; exact h
      · rw [hv]; exact h.setReg (by simp) v
  unfold Dev.memWake
  split
  · exact Dev.OnlyRegs.refl _ _
  · exact step _ _ (Dev.OnlyRegs.refl _ _)

/-- A read of blocks that all pass their check wakes their controllers, and no more. -/
theorem Dev.plainReads_whole {d : Dev} {blocks : List Nat} (h : d.ReadsWhole blocks) :
    Dev.OnlyRegs d (d.plainReads blocks) [Reg.MEM_STATUS] := by
  have hw := d.memWake_onlyRegs blocks
  have hd : (d.memWake blocks).damaged = d.damaged := by
    have h := congrArg Dev.damaged hw.rest
    exact h
  have hk : (d.memWake blocks).weak = d.weak := by
    have h := congrArg Dev.weak hw.rest
    exact h
  have none : blocks.filter (d.memWake blocks).isDamaged ++ ([] ++ (d.memWake blocks).weak).filter blocks.contains = [] := by
    simp only [List.nil_append, List.append_eq_nil_iff, List.filter_eq_nil_iff, hk, Dev.isDamaged, hd]
    exact ⟨fun b hb => by simpa [Dev.isDamaged] using (h b hb).1, fun b hb hc => (h b (by simpa using hc)).2 hb⟩
  have same : ((d.memWake blocks).weak.filter fun b => !(blocks.contains b)) = (d.memWake blocks).weak := by
    rw [List.filter_eq_self, hk]
    exact fun b hb => by simpa using fun hc => (h b hc).2 hb
  simp only [Dev.plainReads, Dev.checkOwn, none, Dev.checkBlocks, List.eraseDups_nil, List.foldl_nil, same, Dev.logAll]
  exact hw

end Sys2Proof.Machine
end

