-- ==== Sys2Proof/Laws/SoundBase.lean ====
section
/-! SUPPORT. Soundness: what keeps every table canonical, one lemma for each operation. -/

namespace Sys2Proof.Machine

/-- What soundness does not look at may change. -/
theorem Dev.Sound.keep {d : Dev} (now : Nat) (free : Nat) (out : List Out) (damaged : List Nat) (weak : List Nat) (epochs : Tab Nat) (bridgeFails : Tab Nat) (fuses : Fuses) (wb : Waybill) (boot : Boot) (bel : Bel) (dbg : Dbg) (tap : Tap) (stk : Stk) (prt : Prt) (ladders : List Ladder) (stagingDamaged : List Nat) (flp : Flp) (stl : Stl) (scrub : Option Nat) (twn : Twn) (trk : Trk) (blt : Blt) (ckg : Ckg) :
    (Dev.mk now free out d.regs d.mem damaged weak epochs d.hostMem d.flash bridgeFails fuses wb boot d.sdp bel d.rings dbg tap d.depLogged stk d.staging prt ladders stagingDamaged flp stl d.coaches scrub twn d.lines d.sips d.ctxs trk blt d.tallies ckg).Sound ↔ d.Sound :=
  ⟨fun h => ⟨h.1, h.2, h.3, h.4, h.5, h.6, h.7, h.8, h.9, h.10, h.11, h.12, h.13, h.14, h.15⟩,
   fun h => ⟨h.1, h.2, h.3, h.4, h.5, h.6, h.7, h.8, h.9, h.10, h.11, h.12, h.13, h.14, h.15⟩⟩

/-- So may the fields of the always-on island beside its logs and states. -/
theorem Dev.Sound.keepSdp {d : Dev} (now : Nat) (free : Nat) (out : List Out) (damaged : List Nat) (weak : List Nat) (epochs : Tab Nat) (bridgeFails : Tab Nat) (fuses : Fuses) (wb : Waybill) (boot : Boot) (sdp : Sdp) (bel : Bel) (dbg : Dbg) (tap : Tap) (stk : Stk) (prt : Prt) (ladders : List Ladder) (stagingDamaged : List Nat) (flp : Flp) (stl : Stl) (scrub : Option Nat) (twn : Twn) (trk : Trk) (blt : Blt) (ckg : Ckg) (ha : sdp.audit = d.sdp.audit)
    (hp : sdp.power = d.sdp.power) (hs : sdp.sec = d.sdp.sec) :
    (Dev.mk now free out d.regs d.mem damaged weak epochs d.hostMem d.flash bridgeFails fuses wb boot sdp bel d.rings dbg tap d.depLogged stk d.staging prt ladders stagingDamaged flp stl d.coaches scrub twn d.lines d.sips d.ctxs trk blt d.tallies ckg).Sound ↔ d.Sound :=
  ⟨fun h => ⟨h.1, h.2, h.3, h.4, h.5, h.6, h.7, h.8, h.9, h.10, h.11, h.12, ha ▸ h.13, hp ▸ h.14, hs ▸ h.15⟩,
   fun h => ⟨h.1, h.2, h.3, h.4, h.5, h.6, h.7, h.8, h.9, h.10, h.11, h.12, ha.symm ▸ h.13, hp.symm ▸ h.14, hs.symm ▸ h.15⟩⟩

/-- Folding an operation that keeps soundness keeps it. -/
theorem Dev.Sound.foldl {α : Type} {f : Dev → α → Dev} (l : List α) {d : Dev} (h : d.Sound)
    (hf : ∀ d x, d.Sound → (f d x).Sound) : (l.foldl f d).Sound := by
  induction l generalizing d with
  | nil => exact h
  | cons x l ih => exact ih (hf d x h)

theorem Dev.Sound.ite {c : Prop} [Decidable c] {a b : Dev} (ha : c → a.Sound) (hb : ¬c → b.Sound) :
    (if c then a else b).Sound := by
  split
  · exact ha ‹_›
  · exact hb ‹_›

theorem Dev.Sound.ite_snd {α : Type} {c : Prop} [Decidable c] {a b : α × Dev} (ha : c → a.2.Sound) (hb : ¬c → b.2.Sound) :
    (if c then a else b).2.Sound := by
  split
  · exact ha ‹_›
  · exact hb ‹_›

end Sys2Proof.Machine
end

