-- ==== Sys2Proof/Laws/SoundShared.lean ====
section
/-! SUPPORT. What keeps a device sound: the shared operations, the Bellboard, rings, logs, timing, links, the waybill and security. -/

set_option linter.unusedTactic false
set_option linter.unreachableTactic false
set_option linter.unusedSimpArgs false
set_option linter.unusedVariables false

namespace Sys2Proof.Machine

/-! ### Ops -/

theorem Dev.memPut_sound {d : Dev} (h : d.Sound) (a : Nat) (bs : List Byte) : (d.memPut a bs).Sound :=
  { h with mem := Tab.wf_write h.mem _ _ }

theorem Dev.setReg_sound {d : Dev} (h : d.Sound) (a v : Nat) : (d.setReg a v).Sound :=
  { h with regs := Tab.wf_set h.regs _ _ }

theorem Dev.memPowerUp_sound {d : Dev} (h : d.Sound) (c : Nat) : (Dev.memPowerUp d c).Sound := by
  unfold Dev.memPowerUp
  try dsimp only
  repeat' first
    | with_reducible assumption
    | with_reducible apply Dev.setReg_sound
    | with_reducible apply Dev.Sound.ite
    | with_reducible apply Dev.Sound.ite_snd
    | with_reducible apply Dev.Sound.foldl
    | simp only [Dev.Sound.keep]
    | simp only [Dev.Sound.keepSdp]
    | (intro _; intros; try dsimp only)
    | dsimp only
    | (split; all_goals try dsimp only)

theorem Dev.memWake_sound {d : Dev} (hk : d.Sound) (blocks : List Nat) : (Dev.memWake d blocks).Sound := by
  unfold Dev.memWake
  try dsimp only
  repeat' first
    | with_reducible assumption
    | with_reducible apply Dev.memPowerUp_sound
    | with_reducible apply Dev.Sound.ite
    | with_reducible apply Dev.Sound.ite_snd
    | with_reducible apply Dev.Sound.foldl
    | simp only [Dev.Sound.keep]
    | simp only [Dev.Sound.keepSdp]
    | (intro _; intros; try dsimp only)
    | dsimp only
    | (split; all_goals try dsimp only)

theorem Dev.memWrite_sound {d : Dev} (h : d.Sound) (a : Nat) (bs : List Byte) : (Dev.memWrite d a bs).Sound := by
  unfold Dev.memWrite
  try dsimp only
  repeat' first
    | with_reducible assumption
    | with_reducible apply Dev.memWake_sound
    | with_reducible apply Dev.memPut_sound
    | with_reducible apply Dev.Sound.ite
    | with_reducible apply Dev.Sound.ite_snd
    | with_reducible apply Dev.Sound.foldl
    | simp only [Dev.Sound.keep]
    | simp only [Dev.Sound.keepSdp]
    | (intro _; intros; try dsimp only)
    | dsimp only
    | (split; all_goals try dsimp only)

theorem Dev.setRegs_sound {d : Dev} (h : d.Sound) (a : Nat) (l : List Nat) : (d.setRegs a l).Sound := by
  induction l generalizing d a with
  | nil => exact h
  | cons v l ih => exact ih (Dev.setReg_sound h a v) (a + 4)

theorem Dev.clearRegs_sound {d : Dev} (h : d.Sound) (a n : Nat) : (d.clearRegs a n).Sound :=
  { h with regs := Tab.wf_clear h.regs _ _ }

theorem Dev.tickFree_sound {d : Dev} (h : d.Sound) : (Dev.tickFree d).Sound := by
  unfold Dev.tickFree
  try dsimp only
  repeat' first
    | with_reducible assumption
    | simp only [Dev.Sound.keepSdp]

theorem Dev.freshNat_sound {d : Dev} (h : d.Sound) : (Dev.freshNat d).2.Sound := by
  unfold Dev.freshNat
  try dsimp only
  repeat' first
    | with_reducible assumption
    | with_reducible apply Dev.tickFree_sound

theorem Dev.freshBool_sound {d : Dev} (h : d.Sound) : (Dev.freshBool d).2.Sound := by
  unfold Dev.freshBool
  try dsimp only
  repeat' first
    | with_reducible assumption
    | with_reducible apply Dev.tickFree_sound

theorem Dev.freshBytes_sound {d : Dev} (h : d.Sound) (n : Nat) : (Dev.freshBytes d n).2.Sound := by
  unfold Dev.freshBytes
  try dsimp only
  repeat' first
    | with_reducible assumption
    | simp only [Dev.Sound.keepSdp]

theorem Dev.setFld_sound {d : Dev} (h : d.Sound) (off : Nat) (f : Fld) (x : Nat) : (Dev.setFld d off f x).Sound := by
  unfold Dev.setFld
  try dsimp only
  repeat' first
    | with_reducible assumption
    | with_reducible apply Dev.setReg_sound

theorem Dev.hostPut_sound {d : Dev} (h : d.Sound) (a : Nat) (bs : List Byte) : (d.hostPut a bs).Sound :=
  { h with hostMem := Tab.wf_write h.hostMem _ _ }

theorem Dev.emit_sound {d : Dev} (h : d.Sound) (o : Out) : (Dev.emit d o).Sound := by
  unfold Dev.emit
  try dsimp only
  repeat' first
    | with_reducible assumption
    | simp only [Dev.Sound.keepSdp]

theorem Dev.setDamaged_sound {d : Dev} (h : d.Sound) (b : Nat) (bad : Bool) : (Dev.setDamaged d b bad).Sound := by
  unfold Dev.setDamaged
  try dsimp only
  repeat' first
    | with_reducible assumption
    | simp only [Dev.Sound.keepSdp]

theorem Dev.setPair_sound {d : Dev} (h : d.Sound) (lo : Nat) (hi : Nat) (x : Nat) : (Dev.setPair d lo hi x).Sound := by
  unfold Dev.setPair
  try dsimp only
  repeat' first
    | with_reducible assumption
    | with_reducible apply Dev.setReg_sound

/-! ### Flags -/

theorem Dev.countBy_sound {d : Dev} (h : d.Sound) (off : Nat) (n : Nat) : (Dev.countBy d off n).Sound := by
  unfold Dev.countBy
  try dsimp only
  repeat' first
    | with_reducible assumption
    | with_reducible apply Dev.setReg_sound

theorem Dev.count_sound {d : Dev} (h : d.Sound) (off : Nat) : (Dev.count d off).Sound := by
  unfold Dev.count
  try dsimp only
  repeat' first
    | with_reducible assumption
    | with_reducible apply Dev.countBy_sound

theorem Dev.clearBeside_sound {d : Dev} (h : d.Sound) (off : Nat) (lead : Nat) (beside : List Nat) : (Dev.clearBeside d off lead beside).Sound := by
  unfold Dev.clearBeside
  try dsimp only
  repeat' first
    | with_reducible assumption
    | with_reducible apply Dev.setReg_sound
    | with_reducible apply Dev.Sound.ite
    | (intro _; intros; try dsimp only)

theorem Dev.quiet_sound {d : Dev} (h : d.Sound) : (Dev.quiet d).Sound := by
  unfold Dev.quiet
  try dsimp only
  repeat' first
    | with_reducible assumption
    | simp only [Dev.Sound.keepSdp]

theorem Dev.countWrap_sound {d : Dev} (h : d.Sound) (off : Nat) : (Dev.countWrap d off).Sound := by
  unfold Dev.countWrap
  try dsimp only
  repeat' first
    | with_reducible assumption
    | with_reducible apply Dev.setReg_sound

theorem Dev.setFlag_sound {d : Dev} (h : d.Sound) (off : Nat) (f : Fld) : (Dev.setFlag d off f).Sound := by
  unfold Dev.setFlag
  try dsimp only
  repeat' first
    | with_reducible assumption
    | with_reducible apply Dev.setFld_sound

theorem Dev.refuse_sound {d : Dev} (h : d.Sound) (base : Nat) (reason : Nat) : (Dev.refuse d base reason).Sound := by
  unfold Dev.refuse
  try dsimp only
  repeat' first
    | with_reducible assumption
    | with_reducible apply Dev.setFlag_sound
    | with_reducible apply Dev.setFld_sound
    | with_reducible apply Dev.count_sound
    | with_reducible apply Dev.Sound.ite
    | (intro _; intros; try dsimp only)

theorem Dev.latchFault_sound {d : Dev} (h : d.Sound) : (Dev.latchFault d).Sound := by
  unfold Dev.latchFault
  try dsimp only
  repeat' first
    | with_reducible assumption
    | simp only [Dev.Sound.keepSdp]

theorem Dev.genericWrite_sound {d : Dev} (h : d.Sound) (off : Nat) (v : Nat) : (Dev.genericWrite d off v).Sound := by
  unfold Dev.genericWrite
  try dsimp only
  repeat' first
    | with_reducible assumption
    | with_reducible apply Dev.setReg_sound
    | (split; all_goals try dsimp only)

theorem Dev.extest_sound {d : Dev} (h : d.Sound) : (Dev.extest d).Sound := by
  unfold Dev.extest
  try dsimp only
  repeat' first
    | with_reducible assumption
    | with_reducible apply Dev.Sound.ite
    | simp only [Dev.Sound.keepSdp]
    | (intro _; intros; try dsimp only)

/-! ### Bell -/

theorem Dev.setBelClass_sound {d : Dev} (h : d.Sound) (c : Nat) (x : BelClass) : (Dev.setBelClass d c x).Sound := by
  unfold Dev.setBelClass
  try dsimp only
  repeat' first
    | with_reducible assumption
    | simp only [Dev.Sound.keepSdp]

theorem Dev.arm_sound {d : Dev} (h : d.Sound) (c : Nat) : (Dev.arm d c).Sound := by
  unfold Dev.arm
  try dsimp only
  repeat' first
    | with_reducible assumption
    | with_reducible apply Dev.setBelClass_sound

theorem Dev.pendBy_sound {d : Dev} (h : d.Sound) (src : Nat) (n : Nat) : (Dev.pendBy d src n).Sound := by
  unfold Dev.pendBy
  try dsimp only
  repeat' first
    | with_reducible assumption
    | simp only [Dev.Sound.keepSdp]

theorem Dev.repend_sound {d : Dev} (h : d.Sound) (src : Nat) (n : Nat) : (Dev.repend d src n).Sound := by
  unfold Dev.repend
  try dsimp only
  repeat' first
    | with_reducible assumption
    | with_reducible apply Dev.pendBy_sound
    | with_reducible apply Dev.Sound.ite
    | (intro _; intros; try dsimp only)

theorem Dev.retire_sound {d : Dev} (h : d.Sound) (c : Nat) : (Dev.retire d c).Sound := by
  unfold Dev.retire
  try dsimp only
  repeat' first
    | with_reducible assumption
    | with_reducible apply Dev.arm_sound
    | with_reducible apply Dev.count_sound
    | with_reducible apply Dev.setBelClass_sound
    | with_reducible apply Dev.repend_sound
    | with_reducible apply Dev.Sound.ite
    | (intro _; intros; try dsimp only)
    | (split; all_goals try dsimp only)

theorem Dev.message_sound {d : Dev} (h : d.Sound) (src : Nat) (deassert : Bool) : (Dev.message d src deassert).Sound := by
  unfold Dev.message
  try dsimp only
  repeat' first
    | with_reducible assumption
    | with_reducible apply Dev.count_sound
    | with_reducible apply Dev.setBelClass_sound
    | with_reducible apply Dev.pendBy_sound
    | with_reducible apply Dev.Sound.ite
    | simp only [Dev.Sound.keepSdp]
    | (intro _; intros; try dsimp only)
    | (split; all_goals try dsimp only)

theorem Dev.raise_sound {d : Dev} (h : d.Sound) (src : Nat) : (Dev.raise d src).Sound := by
  unfold Dev.raise
  try dsimp only
  repeat' first
    | with_reducible assumption
    | with_reducible apply Dev.message_sound

theorem Dev.raiseIf_sound {d : Dev} (h : d.Sound) (b : Bool) (src : Nat) : (Dev.raiseIf d b src).Sound := by
  unfold Dev.raiseIf
  try dsimp only
  repeat' first
    | with_reducible assumption
    | with_reducible apply Dev.raise_sound
    | with_reducible apply Dev.Sound.ite
    | (intro _; intros; try dsimp only)

theorem Dev.logAccess_sound {d : Dev} (h : d.Sound) (flagReg : Nat) (addrReg : Nat) (cntReg : Nat) (off : Nat) (write : Bool) : (Dev.logAccess d flagReg addrReg cntReg off write).Sound := by
  unfold Dev.logAccess
  try dsimp only
  repeat' first
    | with_reducible assumption
    | with_reducible apply Dev.setReg_sound
    | with_reducible apply Dev.count_sound
    | with_reducible apply Dev.Sound.ite
    | (intro _; intros; try dsimp only)

theorem Dev.busError_sound {d : Dev} (h : d.Sound) (off : Nat) : (Dev.busError d off).Sound := by
  unfold Dev.busError
  try dsimp only
  repeat' first
    | with_reducible assumption
    | with_reducible apply Dev.raise_sound
    | with_reducible apply Dev.logAccess_sound

theorem Dev.pendRead_sound {d : Dev} (h : d.Sound) (c : Nat) : (Dev.pendRead d c).2.Sound := by
  unfold Dev.pendRead
  try dsimp only
  repeat' first
    | with_reducible assumption
    | with_reducible apply Dev.setBelClass_sound
    | with_reducible apply Dev.Sound.ite_snd
    | simp only [Dev.Sound.keepSdp]
    | (intro _; intros; try dsimp only)

theorem Dev.outOfOrder_sound {d : Dev} (h : d.Sound) (t : Nat) : (Dev.outOfOrder d t).Sound := by
  unfold Dev.outOfOrder
  try dsimp only
  repeat' first
    | with_reducible assumption
    | with_reducible apply Dev.setFlag_sound
    | with_reducible apply Dev.setReg_sound
    | with_reducible apply Dev.count_sound
    | with_reducible apply Dev.setBelClass_sound
    | with_reducible apply Dev.repend_sound
    | with_reducible apply Dev.pendBy_sound
    | with_reducible apply Dev.Sound.ite
    | with_reducible apply Dev.Sound.foldl
    | (intro _; intros; try dsimp only)

theorem Dev.sendMsix_sound {d : Dev} (h : d.Sound) (v : Nat) : (Dev.sendMsix d v).Sound := by
  unfold Dev.sendMsix
  try dsimp only
  repeat' first
    | with_reducible assumption
    | with_reducible apply Dev.setReg_sound
    | with_reducible apply Dev.emit_sound
    | with_reducible apply Dev.Sound.ite
    | (intro _; intros; try dsimp only)

theorem Dev.sendMessage_sound {d : Dev} (h : d.Sound) (c : Nat) : (Dev.sendMessage d c).Sound := by
  unfold Dev.sendMessage
  try dsimp only
  repeat' first
    | with_reducible assumption
    | with_reducible apply Dev.sendMsix_sound
    | with_reducible apply Dev.setBelClass_sound
    | with_reducible apply Dev.count_sound
    | with_reducible apply Dev.setReg_sound
    | with_reducible apply Dev.Sound.ite
    | (intro _; intros; try dsimp only)

theorem Dev.recordAck_sound {d : Dev} (h : d.Sound) (c : Nat) (src : Nat) : (Dev.recordAck d c src).Sound := by
  unfold Dev.recordAck
  try dsimp only
  repeat' first
    | with_reducible assumption
    | with_reducible apply Dev.setBelClass_sound
    | (split; all_goals try dsimp only)

theorem Dev.unpend_sound {d : Dev} (h : d.Sound) (src : Nat) : (Dev.unpend d src).Sound := by
  unfold Dev.unpend
  try dsimp only
  repeat' first
    | with_reducible assumption
    | simp only [Dev.Sound.keepSdp]

theorem Dev.farError_sound {d : Dev} (h : d.Sound) (off : Nat) (write : Bool) : (Dev.farError d off write).Sound := by
  unfold Dev.farError
  try dsimp only
  repeat' first
    | with_reducible assumption
    | with_reducible apply Dev.raise_sound
    | with_reducible apply Dev.logAccess_sound

theorem Dev.onRead_sound {d : Dev} (h : d.Sound) (off : Nat) (f : Dev → Nat × Dev) (hf : ∀ d, d.Sound → (f d).2.Sound) : (Dev.onRead d off f).Sound := by
  unfold Dev.onRead
  try dsimp only
  repeat' first
    | with_reducible assumption
    | with_reducible apply Dev.emit_sound
    | with_reducible apply Dev.farError_sound
    | with_reducible apply hf
    | (split; all_goals try dsimp only)

theorem Dev.unmask_sound {d : Dev} (h : d.Sound) (v : Nat) : (Dev.unmask d v).Sound := by
  unfold Dev.unmask
  try dsimp only
  repeat' first
    | with_reducible assumption
    | with_reducible apply Dev.setReg_sound
    | with_reducible apply Dev.sendMsix_sound
    | with_reducible apply Dev.Sound.ite
    | (intro _; intros; try dsimp only)

theorem Dev.ack_sound {d : Dev} (h : d.Sound) (c : Nat) (src : Nat) : (Dev.ack d c src).Sound := by
  unfold Dev.ack
  try dsimp only
  repeat' first
    | with_reducible assumption
    | with_reducible apply Dev.recordAck_sound
    | with_reducible apply Dev.unpend_sound
    | with_reducible apply Dev.repend_sound
    | with_reducible apply Dev.Sound.ite
    | (intro _; intros; try dsimp only)
    | (split; all_goals try dsimp only)

theorem Dev.pendAck_sound {d : Dev} (h : d.Sound) (c : Nat) (base : Nat) (mask : Nat) : (Dev.pendAck d c base mask).Sound := by
  unfold Dev.pendAck
  try dsimp only
  repeat' first
    | with_reducible assumption
    | with_reducible apply Dev.ack_sound
    | with_reducible apply Dev.Sound.ite
    | with_reducible apply Dev.Sound.foldl
    | (intro _; intros; try dsimp only)

theorem Dev.onWrite_sound {d : Dev} (h : d.Sound) (off : Nat) (f : Dev → Dev) (hf : ∀ d, d.Sound → (f d).Sound) : (Dev.onWrite d off f).Sound := by
  unfold Dev.onWrite
  try dsimp only
  repeat' first
    | with_reducible assumption
    | with_reducible apply Dev.busError_sound
    | with_reducible apply Dev.farError_sound
    | with_reducible apply hf
    | (split; all_goals try dsimp only)

theorem Dev.complete_sound {d : Dev} (h : d.Sound) (c : Nat) : (Dev.complete d c).Sound := by
  unfold Dev.complete
  try dsimp only
  repeat' first
    | with_reducible assumption
    | with_reducible apply Dev.outOfOrder_sound
    | with_reducible apply Dev.retire_sound
    | with_reducible apply Dev.Sound.ite
    | (intro _; intros; try dsimp only)

theorem Dev.claim_sound {d : Dev} (h : d.Sound) (c : Nat) : (Dev.claim d c).2.Sound := by
  unfold Dev.claim
  try dsimp only
  repeat' first
    | with_reducible assumption
    | with_reducible apply Dev.arm_sound
    | with_reducible apply Dev.count_sound
    | with_reducible apply Dev.unpend_sound
    | with_reducible apply Dev.setBelClass_sound
    | with_reducible apply Dev.Sound.ite
    | with_reducible apply Dev.Sound.ite_snd
    | with_reducible apply Dev.Sound.foldl
    | simp only [Dev.Sound.keep]
    | simp only [Dev.Sound.keepSdp]
    | (intro _; intros; try dsimp only)
    | dsimp only
    | (split; all_goals try dsimp only)

/-! ### Rings -/

theorem Dev.setRingSt_sound {d : Dev} (h : d.Sound) (r : Nat) (x : RingSt) : (d.setRingSt r x).Sound :=
  { h with rings := Tab.wf_set h.rings _ _ }

theorem Dev.ringUnbind_sound {d : Dev} (h : d.Sound) (r : Nat) (who : Nat) : (Dev.ringUnbind d r who).Sound := by
  unfold Dev.ringUnbind
  try dsimp only
  repeat' first
    | with_reducible assumption
    | with_reducible apply Dev.setRingSt_sound
    | with_reducible apply Dev.Sound.ite
    | (intro _; intros; try dsimp only)

theorem Dev.ringEvent_sound {d : Dev} (h : d.Sound) (r : Nat) (f : Fld) : (Dev.ringEvent d r f).Sound := by
  unfold Dev.ringEvent
  try dsimp only
  repeat' first
    | with_reducible assumption
    | with_reducible apply Dev.raiseIf_sound
    | with_reducible apply Dev.setFlag_sound
    | with_reducible apply Dev.Sound.ite
    | (intro _; intros; try dsimp only)

theorem Dev.ringMark_sound {d : Dev} (h : d.Sound) (r : Nat) (old : Nat) : (Dev.ringMark d r old).Sound := by
  unfold Dev.ringMark
  try dsimp only
  repeat' first
    | with_reducible assumption
    | with_reducible apply Dev.ringEvent_sound
    | with_reducible apply Dev.count_sound
    | with_reducible apply Dev.Sound.ite
    | (intro _; intros; try dsimp only)

theorem Dev.writeRingBase_sound {d : Dev} (h : d.Sound) (r : Nat) (key : Nat) (v : Nat) : (Dev.writeRingBase d r key v).Sound := by
  unfold Dev.writeRingBase
  try dsimp only
  repeat' first
    | with_reducible assumption
    | with_reducible apply Dev.genericWrite_sound
    | with_reducible apply Dev.refuse_sound
    | with_reducible apply Dev.Sound.ite
    | (intro _; intros; try dsimp only)

theorem Dev.writeProd_sound {d : Dev} (h : d.Sound) (r : Nat) (v : Nat) : (Dev.writeProd d r v).Sound := by
  unfold Dev.writeProd
  try dsimp only
  repeat' first
    | with_reducible assumption
    | with_reducible apply Dev.setReg_sound
    | with_reducible apply Dev.ringMark_sound
    | with_reducible apply Dev.setFlag_sound
    | with_reducible apply Dev.count_sound
    | with_reducible apply Dev.refuse_sound
    | with_reducible apply Dev.Sound.ite
    | with_reducible apply Dev.Sound.ite_snd
    | with_reducible apply Dev.Sound.foldl
    | simp only [Dev.Sound.keep]
    | simp only [Dev.Sound.keepSdp]
    | (intro _; intros; try dsimp only)
    | dsimp only
    | (split; all_goals try dsimp only)

theorem Dev.ringWrite_sound {d : Dev} (h : d.Sound) (r : Nat) (a : Nat) (bs : List Byte) : (Dev.ringWrite d r a bs).Sound := by
  unfold Dev.ringWrite
  try dsimp only
  repeat' first
    | with_reducible assumption
    | with_reducible apply Dev.hostPut_sound
    | with_reducible apply Dev.memWrite_sound
    | with_reducible apply Dev.Sound.ite
    | (intro _; intros; try dsimp only)

theorem Dev.writeCursorLine_sound {d : Dev} (h : d.Sound) (r : Nat) : (Dev.writeCursorLine d r).Sound := by
  unfold Dev.writeCursorLine
  try dsimp only
  repeat' first
    | with_reducible assumption
    | with_reducible apply Dev.ringWrite_sound

/-- A property of a pair's device that every element of a fold keeps holds of the fold. -/
theorem Dev.Sound.foldl_fst {α β : Type} {f : Dev × β → α → Dev × β} (l : List α) {a : Dev × β} (h : a.1.Sound)
    (hf : ∀ a x, a.1.Sound → (f a x).1.Sound) : (l.foldl f a).1.Sound := by
  induction l generalizing a with
  | nil => exact h
  | cons x l ih => exact ih (hf a x h)

theorem Dev.putRecord_sound {d : Dev} (hk : d.Sound) (r : Nat) (entries : List (List Byte)) : (Dev.putRecord d r entries).2.Sound := by
  unfold Dev.putRecord
  try dsimp only
  repeat' first
    | with_reducible assumption
    | with_reducible apply Dev.count_sound
    | with_reducible apply Dev.ringEvent_sound
    | with_reducible apply Dev.ringWrite_sound
    | with_reducible apply Dev.setReg_sound
    | with_reducible apply Dev.writeCursorLine_sound
    | with_reducible apply Dev.countWrap_sound
    | with_reducible apply Dev.raiseIf_sound
    | with_reducible apply Dev.ringMark_sound
    | with_reducible apply Dev.Sound.ite
    | with_reducible apply Dev.Sound.ite_snd
    | with_reducible apply Dev.Sound.foldl
    | with_reducible apply Dev.Sound.foldl_fst
    | simp only [Dev.Sound.keep]
    | simp only [Dev.Sound.keepSdp]
    | (intro _; intros; try dsimp only)
    | dsimp only
    | (split; all_goals try dsimp only)

theorem Dev.blockFailed_sound {d : Dev} (h : d.Sound) (block : Nat) : (Dev.blockFailed d block).Sound := by
  unfold Dev.blockFailed
  try dsimp only
  repeat' first
    | with_reducible assumption
    | with_reducible apply Dev.count_sound

theorem Dev.failedAgain_sound {d : Dev} (h : d.Sound) (block : Nat) : (Dev.failedAgain d block).Sound := by
  unfold Dev.failedAgain
  try dsimp only
  repeat' first
    | with_reducible assumption
    | with_reducible apply Dev.count_sound

theorem Dev.showLog_sound {d : Dev} (h : d.Sound) : (Dev.showLog d).Sound := by
  unfold Dev.showLog
  try dsimp only
  repeat' first
    | with_reducible assumption
    | with_reducible apply Dev.setRegs_sound

theorem Dev.depEvent_sound {d : Dev} (h : d.Sound) (f : Fld) : (Dev.depEvent d f).Sound := by
  unfold Dev.depEvent
  try dsimp only
  repeat' first
    | with_reducible assumption
    | with_reducible apply Dev.setFlag_sound

/-! ### DepLog -/

theorem Dev.corrupt_sound {d : Dev} (h : d.Sound) (b : Nat) : (Dev.corrupt d b).Sound := by
  unfold Dev.corrupt
  try dsimp only
  repeat' first
    | with_reducible assumption
    | with_reducible apply Dev.freshBytes_sound
    | with_reducible apply Dev.setDamaged_sound
    | with_reducible apply Dev.memPut_sound

theorem Dev.blockDamaged_sound {d : Dev} (h : d.Sound) (block : Nat) : (Dev.blockDamaged d block).Sound := by
  unfold Dev.blockDamaged
  try dsimp only
  repeat' first
    | with_reducible assumption
    | with_reducible apply Dev.raise_sound
    | with_reducible apply Dev.depEvent_sound
    | with_reducible apply Dev.setDamaged_sound

theorem Dev.reservedWake_sound {d : Dev} (hk : d.Sound) (content block : Nat) : (Dev.reservedWake d content block).Sound := by
  unfold Dev.reservedWake
  try dsimp only
  repeat' first
    | with_reducible assumption
    | with_reducible apply Dev.memPowerUp_sound
    | with_reducible apply Dev.Sound.ite
    | with_reducible apply Dev.Sound.ite_snd
    | with_reducible apply Dev.Sound.foldl
    | simp only [Dev.Sound.keep]
    | simp only [Dev.Sound.keepSdp]
    | (intro _; intros; try dsimp only)
    | dsimp only
    | (split; all_goals try dsimp only)

theorem Dev.checkBlocks_sound {d : Dev} (hk : d.Sound) (logged : Bool) (bad : List Nat) : (Dev.checkBlocks d logged bad).1.Sound := by
  unfold Dev.checkBlocks
  try dsimp only
  repeat' first
    | with_reducible assumption
    | with_reducible apply Dev.blockFailed_sound
    | with_reducible apply Dev.failedAgain_sound
    | with_reducible apply Dev.count_sound
    | with_reducible apply Dev.corrupt_sound
    | with_reducible apply Dev.blockDamaged_sound
    | with_reducible apply Dev.Sound.ite
    | with_reducible apply Dev.Sound.ite_snd
    | with_reducible apply Dev.Sound.foldl
    | with_reducible apply Dev.Sound.foldl_fst
    | simp only [Dev.Sound.keep]
    | simp only [Dev.Sound.keepSdp]
    | (intro _; intros; try dsimp only)
    | dsimp only
    | (split; all_goals try dsimp only)

theorem Dev.checkOwn_sound {d : Dev} (hk : d.Sound) (read met bad : List Nat) : (Dev.checkOwn d read met bad).1.Sound := by
  unfold Dev.checkOwn
  try dsimp only
  repeat' first
    | with_reducible assumption
    | with_reducible apply Dev.checkBlocks_sound
    | with_reducible apply Dev.Sound.ite
    | with_reducible apply Dev.Sound.ite_snd
    | with_reducible apply Dev.Sound.foldl
    | simp only [Dev.Sound.keep]
    | simp only [Dev.Sound.keepSdp]
    | (intro _; intros; try dsimp only)
    | dsimp only
    | (split; all_goals try dsimp only)

theorem Dev.ownChecks_sound {d : Dev} (hk : d.Sound) (spans : List (Nat × Nat)) (bad : List Nat) : (Dev.ownChecks d spans bad).1.Sound := by
  unfold Dev.ownChecks
  try dsimp only
  repeat' first
    | with_reducible assumption
    | with_reducible apply Dev.checkOwn_sound
    | with_reducible apply Dev.Sound.ite
    | with_reducible apply Dev.Sound.ite_snd
    | with_reducible apply Dev.Sound.foldl
    | simp only [Dev.Sound.keep]
    | simp only [Dev.Sound.keepSdp]
    | (intro _; intros; try dsimp only)
    | dsimp only
    | (split; all_goals try dsimp only)

theorem Dev.checkedRecord_sound {d : Dev} (hk : d.Sound) (r : Nat) (entries : List (List Byte)) : (Dev.checkedRecord d r entries).1.Sound := by
  unfold Dev.checkedRecord
  try dsimp only
  repeat' first
    | with_reducible assumption
    | with_reducible apply Dev.putRecord_sound
    | with_reducible apply Dev.ownChecks_sound
    | with_reducible apply Dev.Sound.ite
    | with_reducible apply Dev.Sound.ite_snd
    | with_reducible apply Dev.Sound.foldl
    | simp only [Dev.Sound.keep]
    | simp only [Dev.Sound.keepSdp]
    | (intro _; intros; try dsimp only)
    | dsimp only
    | (split; all_goals try dsimp only)

theorem Dev.logRecord_sound {d : Dev} (h : d.Sound) (e : LogEntry) : (Dev.logRecord d e).1.Sound := by
  have h' : ({ d with depLogged := (e.words (d.reg Reg.DEP_LOG_COUNT) :: d.depLogged).take 524288 } : Dev).Sound :=
    { h with log := by simp only [List.length_take]; omega }
  have h'' := Dev.showLog_sound (Dev.countWrap_sound (Dev.reservedWake_sound h' contentLogs (d.reg Reg.DEP_LOG_COUNT % 524288 / 8)) Reg.DEP_LOG_COUNT)
  unfold Dev.logRecord
  dsimp only
  split
  · apply Dev.raise_sound
    split
    · exact Dev.checkedRecord_sound h'' _ _
    · exact Dev.depEvent_sound (Dev.checkedRecord_sound h'' _ _) _
  · exact Dev.raise_sound h'' _

theorem Dev.logAt_sound (n : Nat) : ∀ {d : Dev} (_ : d.Sound) (e : LogEntry), (Dev.logAt n d e).Sound := by
  induction n with
  | zero => intro d h e; exact Dev.logRecord_sound h e
  | succ n ih =>
    intro d h e
    exact Dev.Sound.foldl _ (Dev.logRecord_sound h e) fun _ _ hd => ih hd _

theorem Dev.depLog_sound {d : Dev} (h : d.Sound) (e : LogEntry) : (Dev.depLog d e).Sound :=
  Dev.logAt_sound _ h e

theorem Dev.logAll_sound {d : Dev} (hk : d.Sound) (es : List LogEntry) : (Dev.logAll d es).Sound := by
  unfold Dev.logAll
  try dsimp only
  repeat' first
    | with_reducible assumption
    | with_reducible apply Dev.depLog_sound
    | with_reducible apply Dev.Sound.ite
    | with_reducible apply Dev.Sound.ite_snd
    | with_reducible apply Dev.Sound.foldl
    | simp only [Dev.Sound.keep]
    | simp only [Dev.Sound.keepSdp]
    | (intro _; intros; try dsimp only)
    | dsimp only
    | (split; all_goals try dsimp only)

theorem Dev.failBlocks_sound {d : Dev} (h : d.Sound) (logged : Bool) (bad : List Nat) : (Dev.failBlocks d logged bad).Sound :=
  Dev.logAll_sound (Dev.checkBlocks_sound h logged bad) _

theorem Dev.ownReads_sound {d : Dev} (h : d.Sound) (spans : List (Nat × Nat)) (bad : List Nat) : (Dev.ownReads d spans bad).Sound :=
  Dev.logAll_sound (Dev.ownChecks_sound h spans bad) _

theorem Dev.record_sound {d : Dev} (h : d.Sound) (r : Nat) (entries : List (List Byte)) : (Dev.record d r entries).2.Sound := by
  unfold Dev.record
  try dsimp only
  repeat' first
    | with_reducible assumption
    | with_reducible apply Dev.checkedRecord_sound
    | with_reducible apply Dev.logAll_sound
    | with_reducible apply Dev.Sound.ite
    | with_reducible apply Dev.Sound.ite_snd
    | with_reducible apply Dev.Sound.foldl
    | simp only [Dev.Sound.keep]
    | simp only [Dev.Sound.keepSdp]
    | (intro _; intros; try dsimp only)
    | dsimp only
    | (split; all_goals try dsimp only)

theorem Dev.unread_sound {d : Dev} (hk : d.Sound) (xs : List SetRead) : (Dev.unread d xs).Sound := by
  unfold Dev.unread
  try dsimp only
  repeat' first
    | with_reducible assumption
    | with_reducible apply Dev.Sound.ite
    | with_reducible apply Dev.Sound.ite_snd
    | with_reducible apply Dev.Sound.foldl
    | simp only [Dev.Sound.keep]
    | simp only [Dev.Sound.keepSdp]
    | (intro _; intros; try dsimp only)
    | dsimp only
    | (split; all_goals try dsimp only)

theorem Dev.ringStops_sound {d : Dev} (hk : d.Sound) (r : Nat) : (Dev.ringStops d r).Sound := by
  unfold Dev.ringStops
  try dsimp only
  repeat' first
    | with_reducible assumption
    | with_reducible apply Dev.unread_sound
    | with_reducible apply Dev.Sound.ite
    | with_reducible apply Dev.Sound.ite_snd
    | with_reducible apply Dev.Sound.foldl
    | simp only [Dev.Sound.keep]
    | simp only [Dev.Sound.keepSdp]
    | (intro _; intros; try dsimp only)
    | dsimp only
    | (split; all_goals try dsimp only)

theorem Dev.writeRingCtrl_sound {d : Dev} (h : d.Sound) (r : Nat) (v : Nat) : (Dev.writeRingCtrl d r v).Sound := by
  unfold Dev.writeRingCtrl
  try dsimp only
  repeat' first
    | with_reducible assumption
    | with_reducible apply Dev.genericWrite_sound
    | with_reducible apply Dev.refuse_sound
    | with_reducible apply Dev.setRingSt_sound
    | with_reducible apply Dev.setReg_sound
    | with_reducible apply Dev.ringStops_sound
    | with_reducible apply Dev.Sound.ite
    | with_reducible apply Dev.Sound.ite_snd
    | with_reducible apply Dev.Sound.foldl
    | simp only [Dev.Sound.keep]
    | simp only [Dev.Sound.keepSdp]
    | (intro _; intros; try dsimp only)
    | dsimp only
    | (split; all_goals try dsimp only)

theorem Dev.putCompletion_sound {d : Dev} (hk : d.Sound) (r i : Nat) (c : Completion) : (Dev.putCompletion d r i c).Sound := by
  unfold Dev.putCompletion
  try dsimp only
  repeat' first
    | with_reducible assumption
    | with_reducible apply Dev.ringWrite_sound
    | with_reducible apply Dev.setRingSt_sound
    | with_reducible apply Dev.setReg_sound
    | with_reducible apply Dev.writeCursorLine_sound
    | with_reducible apply Dev.countWrap_sound
    | with_reducible apply Dev.raiseIf_sound
    | with_reducible apply Dev.Sound.ite
    | with_reducible apply Dev.Sound.ite_snd
    | with_reducible apply Dev.Sound.foldl
    | simp only [Dev.Sound.keep]
    | simp only [Dev.Sound.keepSdp]
    | (intro _; intros; try dsimp only)
    | dsimp only
    | (split; all_goals try dsimp only)

theorem Dev.ringComplete_sound {d : Dev} (h : d.Sound) (r : Nat) (i : Nat) (c : Completion) : (Dev.ringComplete d r i c).Sound := by
  unfold Dev.ringComplete
  try dsimp only
  repeat' first
    | with_reducible assumption
    | with_reducible apply Dev.ownChecks_sound
    | with_reducible apply Dev.putCompletion_sound
    | with_reducible apply Dev.logAll_sound
    | with_reducible apply Dev.Sound.ite
    | with_reducible apply Dev.Sound.ite_snd
    | with_reducible apply Dev.Sound.foldl
    | simp only [Dev.Sound.keep]
    | simp only [Dev.Sound.keepSdp]
    | (intro _; intros; try dsimp only)
    | dsimp only
    | (split; all_goals try dsimp only)

theorem Dev.ringTake_sound {d : Dev} (h : d.Sound) (r : Nat) (n : Nat) : (Dev.ringTake d r n).Sound := by
  unfold Dev.ringTake
  try dsimp only
  repeat' first
    | with_reducible assumption
    | with_reducible apply Dev.memWake_sound
    | with_reducible apply Dev.setReg_sound
    | with_reducible apply Dev.setRingSt_sound
    | with_reducible apply Dev.Sound.ite
    | with_reducible apply Dev.Sound.ite_snd
    | with_reducible apply Dev.Sound.foldl
    | simp only [Dev.Sound.keep]
    | simp only [Dev.Sound.keepSdp]
    | (intro _; intros; try dsimp only)
    | dsimp only
    | (split; all_goals try dsimp only)

theorem Dev.ringReject_sound {d : Dev} (h : d.Sound) (r : Nat) (n : Nat) (c : Completion) : (Dev.ringReject d r n c).Sound := by
  unfold Dev.ringReject
  try dsimp only
  repeat' first
    | with_reducible assumption
    | with_reducible apply Dev.ringComplete_sound
    | with_reducible apply Dev.ringTake_sound

theorem Dev.writeCons_sound {d : Dev} (h : d.Sound) (r : Nat) (v : Nat) : (Dev.writeCons d r v).Sound := by
  unfold Dev.writeCons
  try dsimp only
  repeat' first
    | with_reducible assumption
    | with_reducible apply Dev.setReg_sound
    | with_reducible apply Dev.refuse_sound
    | with_reducible apply Dev.Sound.ite
    | (intro _; intros; try dsimp only)

theorem Dev.ringBind_sound {d : Dev} (h : d.Sound) (r : Nat) (who : Nat) : (Dev.ringBind d r who).2.Sound := by
  unfold Dev.ringBind
  try dsimp only
  repeat' first
    | with_reducible assumption
    | with_reducible apply Dev.setRingSt_sound
    | with_reducible apply Dev.ringEvent_sound
    | with_reducible apply Dev.Sound.ite_snd
    | simp only [Dev.Sound.keepSdp]
    | (intro _; intros; try dsimp only)
    | (split; all_goals try dsimp only)

theorem Dev.secdedCorrected_sound {d : Dev} (h : d.Sound) : (Dev.secdedCorrected d).Sound := by
  unfold Dev.secdedCorrected
  try dsimp only
  repeat' first
    | with_reducible assumption
    | with_reducible apply Dev.count_sound

theorem Dev.secdedBad_sound {d : Dev} (hk : d.Sound) (store outcome : Nat) (stroke region parcel : Nat := 0) : (Dev.secdedBad d store outcome stroke region parcel).Sound := by
  unfold Dev.secdedBad
  try dsimp only
  repeat' first
    | with_reducible assumption
    | with_reducible apply Dev.count_sound
    | with_reducible apply Dev.depEvent_sound
    | with_reducible apply Dev.depLog_sound
    | with_reducible apply Dev.raise_sound
    | with_reducible apply Dev.Sound.ite
    | with_reducible apply Dev.Sound.ite_snd
    | with_reducible apply Dev.Sound.foldl
    | simp only [Dev.Sound.keep]
    | simp only [Dev.Sound.keepSdp]
    | (intro _; intros; try dsimp only)
    | dsimp only
    | (split; all_goals try dsimp only)

/-! ### Stk -/

theorem Dev.stkEvent_sound {d : Dev} (h : d.Sound) (f : Fld) : (Dev.stkEvent d f).Sound := by
  unfold Dev.stkEvent
  try dsimp only
  repeat' first
    | with_reducible assumption
    | with_reducible apply Dev.setFlag_sound

theorem Dev.clockPulses_sound {d : Dev} (h : d.Sound) (src : Nat) : (Dev.clockPulses d src).Sound := by
  unfold Dev.clockPulses
  try dsimp only
  repeat' first
    | with_reducible assumption
    | with_reducible apply Dev.emit_sound
    | with_reducible apply Dev.Sound.ite
    | with_reducible apply Dev.Sound.ite_snd
    | with_reducible apply Dev.Sound.foldl
    | simp only [Dev.Sound.keep]
    | simp only [Dev.Sound.keepSdp]
    | (intro _; intros; try dsimp only)
    | dsimp only
    | (split; all_goals try dsimp only)

theorem Dev.advance_sound {d : Dev} (h : d.Sound) (t : Nat) : (Dev.advance d t).Sound := by
  unfold Dev.advance
  try dsimp only
  repeat' first
    | with_reducible assumption
    | with_reducible apply Dev.clockPulses_sound
    | with_reducible apply Dev.Sound.ite
    | with_reducible apply Dev.Sound.foldl
    | simp only [Dev.Sound.keepSdp]
    | (intro _; intros; try dsimp only)

theorem Dev.advanceSc_sound {d : Dev} (h : d.Sound) (t : Rat) : (Dev.advanceSc d t).Sound := by
  unfold Dev.advanceSc
  try dsimp only
  repeat' first
    | with_reducible assumption
    | with_reducible apply Dev.advance_sound

theorem Dev.strokeOut_sound {d : Dev} (h : d.Sound) : (Dev.strokeOut d).Sound := by
  unfold Dev.strokeOut
  try dsimp only
  repeat' first
    | with_reducible assumption
    | with_reducible apply Dev.emit_sound
    | with_reducible apply Dev.Sound.ite
    | with_reducible apply Dev.Sound.ite_snd
    | with_reducible apply Dev.Sound.foldl
    | simp only [Dev.Sound.keep]
    | simp only [Dev.Sound.keepSdp]
    | (intro _; intros; try dsimp only)
    | dsimp only
    | (split; all_goals try dsimp only)

theorem Dev.beginStroke_sound {d : Dev} (h : d.Sound) (phase : Nat) (frame : Int) : (Dev.beginStroke d phase frame).Sound := by
  unfold Dev.beginStroke
  try dsimp only
  repeat' first
    | with_reducible assumption
    | with_reducible apply Dev.strokeOut_sound
    | with_reducible apply Dev.raiseIf_sound
    | with_reducible apply Dev.raise_sound
    | with_reducible apply Dev.clockPulses_sound
    | with_reducible apply Dev.Sound.ite
    | simp only [Dev.Sound.keepSdp]
    | (intro _; intros; try dsimp only)

theorem Dev.stkLatch_sound {d : Dev} (h : d.Sound) : (Dev.stkLatch d).Sound := by
  unfold Dev.stkLatch
  try dsimp only
  repeat' first
    | with_reducible assumption
    | with_reducible apply Dev.advanceSc_sound
    | with_reducible apply Dev.setRegs_sound
    | with_reducible apply Dev.setReg_sound
    | with_reducible apply Dev.raise_sound
    | simp only [Dev.Sound.keepSdp]

theorem Dev.stkReframeDone_sound {d : Dev} (h : d.Sound) : (Dev.stkReframeDone d).Sound := by
  unfold Dev.stkReframeDone
  try dsimp only
  repeat' first
    | with_reducible assumption
    | with_reducible apply Dev.raise_sound
    | with_reducible apply Dev.count_sound
    | with_reducible apply Dev.stkEvent_sound
    | simp only [Dev.Sound.keepSdp]

theorem Dev.enterHoldover_sound {d : Dev} (h : d.Sound) (viaAcq : Bool) : (Dev.enterHoldover d viaAcq).Sound := by
  unfold Dev.enterHoldover
  try dsimp only
  repeat' first
    | with_reducible assumption
    | with_reducible apply Dev.count_sound
    | simp only [Dev.Sound.keepSdp]

theorem Dev.setRate_sound {d : Dev} (h : d.Sound) (r : Int) : (Dev.setRate d r).Sound := by
  unfold Dev.setRate
  try dsimp only
  repeat' first
    | with_reducible assumption
    | simp only [Dev.Sound.keepSdp]

theorem Dev.stkTakeEffect_sound {d : Dev} (h : d.Sound) (b : Rat) : (Dev.stkTakeEffect d b).Sound := by
  unfold Dev.stkTakeEffect
  try dsimp only
  repeat' first
    | with_reducible assumption
    | with_reducible apply Dev.advanceSc_sound
    | with_reducible apply Dev.setReg_sound
    | with_reducible apply Dev.setRate_sound
    | with_reducible apply Dev.beginStroke_sound
    | with_reducible apply Dev.Sound.ite
    | with_reducible apply Dev.Sound.foldl
    | simp only [Dev.Sound.keepSdp]
    | (intro _; intros; try dsimp only)

theorem Dev.todStep_sound {d : Dev} (h : d.Sound) : (Dev.todStep d).Sound := by
  unfold Dev.todStep
  try dsimp only
  repeat' first
    | with_reducible assumption
    | with_reducible apply Dev.refuse_sound
    | with_reducible apply Dev.Sound.ite
    | simp only [Dev.Sound.keepSdp]
    | (intro _; intros; try dsimp only)

theorem Dev.stkTick_sound {d : Dev} (h : d.Sound) : (Dev.stkTick d).Sound := by
  unfold Dev.stkTick
  try dsimp only
  repeat' first
    | with_reducible assumption
    | with_reducible apply Dev.advanceSc_sound
    | with_reducible apply Dev.beginStroke_sound

theorem Dev.ltcFrame_sound {d : Dev} (h : d.Sound) (data : Nat) (start : Nat) (rate : Nat) (reverse : Bool) (good : Bool) : (Dev.ltcFrame d data start rate reverse good).Sound := by
  unfold Dev.ltcFrame
  try dsimp only
  repeat' first
    | with_reducible assumption
    | with_reducible apply Dev.count_sound
    | with_reducible apply Dev.stkEvent_sound
    | with_reducible apply Dev.freshNat_sound
    | with_reducible apply Dev.raise_sound
    | with_reducible apply Dev.Sound.ite
    | simp only [Dev.Sound.keepSdp]
    | (intro _; intros; try dsimp only)
    | (split; all_goals try dsimp only)

theorem Dev.acqTimeout_sound {d : Dev} (h : d.Sound) : (Dev.acqTimeout d).Sound := by
  unfold Dev.acqTimeout
  try dsimp only
  repeat' first
    | with_reducible assumption
    | with_reducible apply Dev.raise_sound
    | with_reducible apply Dev.stkEvent_sound
    | with_reducible apply Dev.enterHoldover_sound
    | with_reducible apply Dev.Sound.ite
    | (intro _; intros; try dsimp only)

theorem Dev.captureTod_sound {d : Dev} (h : d.Sound) : (Dev.captureTod d).2.Sound := by
  unfold Dev.captureTod
  try dsimp only
  repeat' first
    | with_reducible assumption
    | with_reducible apply Dev.setReg_sound

theorem Dev.captureStroke_sound {d : Dev} (h : d.Sound) : (Dev.captureStroke d).2.Sound := by
  unfold Dev.captureStroke
  try dsimp only
  repeat' first
    | with_reducible assumption
    | with_reducible apply Dev.setReg_sound

theorem Dev.lockLost_sound {d : Dev} (h : d.Sound) : (Dev.lockLost d).Sound := by
  unfold Dev.lockLost
  try dsimp only
  repeat' first
    | with_reducible assumption
    | with_reducible apply Dev.raise_sound
    | with_reducible apply Dev.stkEvent_sound
    | with_reducible apply Dev.enterHoldover_sound

theorem Dev.lengthen_sound {d : Dev} (h : d.Sound) (x : Rat) : (Dev.lengthen d x).Sound := by
  unfold Dev.lengthen
  try dsimp only
  repeat' first
    | with_reducible assumption
    | with_reducible apply Dev.Sound.ite
    | with_reducible apply Dev.Sound.ite_snd
    | with_reducible apply Dev.Sound.foldl
    | simp only [Dev.Sound.keep]
    | simp only [Dev.Sound.keepSdp]
    | (intro _; intros; try dsimp only)
    | dsimp only
    | (split; all_goals try dsimp only)

theorem Dev.writeStkSrc_sound {d : Dev} (h : d.Sound) (v : Nat) : (Dev.writeStkSrc d v).Sound := by
  unfold Dev.writeStkSrc
  try dsimp only
  repeat' first
    | with_reducible assumption
    | with_reducible apply Dev.refuse_sound
    | with_reducible apply Dev.genericWrite_sound
    | with_reducible apply Dev.setRate_sound
    | with_reducible apply Dev.enterHoldover_sound
    | with_reducible apply Dev.Sound.ite
    | with_reducible apply Dev.Sound.ite_snd
    | with_reducible apply Dev.Sound.foldl
    | simp only [Dev.Sound.keep]
    | simp only [Dev.Sound.keepSdp]
    | (intro _; intros; try dsimp only)
    | dsimp only
    | (split; all_goals try dsimp only)

theorem Dev.referenceAt_sound {d : Dev} (hk : d.Sound) (t : Rat) : (Dev.referenceAt d t).Sound := by
  unfold Dev.referenceAt
  try dsimp only
  repeat' first
    | with_reducible assumption
    | with_reducible apply Dev.advanceSc_sound
    | with_reducible apply Dev.lengthen_sound
    | with_reducible apply Dev.setRate_sound
    | with_reducible apply Dev.stkEvent_sound
    | with_reducible apply Dev.setReg_sound
    | with_reducible apply Dev.lockLost_sound
    | with_reducible apply Dev.raise_sound
    | with_reducible apply Dev.Sound.ite
    | with_reducible apply Dev.Sound.ite_snd
    | with_reducible apply Dev.Sound.foldl
    | simp only [Dev.Sound.keep]
    | simp only [Dev.Sound.keepSdp]
    | (intro _; intros; try dsimp only)
    | dsimp only
    | (split; all_goals try dsimp only)

theorem Dev.referenceInstant_sound {d : Dev} (h : d.Sound) (t : Rat) : (Dev.referenceInstant d t).Sound := by
  unfold Dev.referenceInstant
  try dsimp only
  repeat' first
    | with_reducible assumption
    | with_reducible apply Dev.referenceAt_sound
    | with_reducible apply Dev.advanceSc_sound
    | with_reducible apply Dev.Sound.ite
    | with_reducible apply Dev.Sound.ite_snd
    | with_reducible apply Dev.Sound.foldl
    | simp only [Dev.Sound.keep]
    | simp only [Dev.Sound.keepSdp]
    | (intro _; intros; try dsimp only)
    | dsimp only
    | (split; all_goals try dsimp only)

theorem Dev.missingInstant_sound {d : Dev} (h : d.Sound) : (Dev.missingInstant d).Sound := by
  unfold Dev.missingInstant
  try dsimp only
  repeat' first
    | with_reducible assumption
    | with_reducible apply Dev.advanceSc_sound
    | with_reducible apply Dev.stkEvent_sound
    | with_reducible apply Dev.count_sound
    | with_reducible apply Dev.raise_sound
    | with_reducible apply Dev.lockLost_sound
    | with_reducible apply Dev.Sound.ite
    | with_reducible apply Dev.Sound.ite_snd
    | with_reducible apply Dev.Sound.foldl
    | simp only [Dev.Sound.keep]
    | simp only [Dev.Sound.keepSdp]
    | (intro _; intros; try dsimp only)
    | dsimp only
    | (split; all_goals try dsimp only)

theorem Dev.captureLtc_sound {d : Dev} (h : d.Sound) : (Dev.captureLtc d).2.Sound := by
  unfold Dev.captureLtc
  try dsimp only
  repeat' first
    | with_reducible assumption
    | with_reducible apply Dev.setRegs_sound

/-! ### Admission -/

theorem Dev.admRefused_sound {d : Dev} (h : d.Sound) (f : AdmFail) : (Dev.admRefused d f).Sound := by
  unfold Dev.admRefused
  try dsimp only
  repeat' first
    | with_reducible assumption
    | with_reducible apply Dev.count_sound
    | with_reducible apply Dev.setReg_sound

/-! ### TallyValue -/

theorem Dev.tlyEvent_sound {d : Dev} (h : d.Sound) (u : Nat) (f : Fld) : (Dev.tlyEvent d u f).Sound := by
  unfold Dev.tlyEvent
  try dsimp only
  repeat' first
    | with_reducible assumption
    | with_reducible apply Dev.raiseIf_sound
    | with_reducible apply Dev.setFlag_sound

theorem Dev.tlyAppend_sound {d : Dev} (h : d.Sound) (link : Nat) (type_ : Nat) (origin : Nat) (seq : Nat) (payload : List Byte) : (Dev.tlyAppend d link type_ origin seq payload).2.Sound := by
  unfold Dev.tlyAppend
  try dsimp only
  repeat' first
    | with_reducible assumption
    | with_reducible apply Dev.count_sound
    | (split; all_goals try dsimp only)

theorem Dev.tlyAppendTold_sound {d : Dev} (h : d.Sound) (link : Nat) : (Dev.tlyAppendTold d link).Sound := by
  unfold Dev.tlyAppendTold
  try dsimp only
  repeat' first
    | with_reducible assumption
    | with_reducible apply Dev.count_sound
    | (split; all_goals try dsimp only)

theorem Dev.setTly_sound {d : Dev} (h : d.Sound) (u : Nat) (x : Tly) : (d.setTly u x).Sound :=
  Dev.setReg_sound (d := { d with tallies := d.tallies.set (fun _ => {}) u x })
    { h with tallies := Tab.wf_set h.tallies _ _ } _ _

theorem Dev.tlyPush_sound {d : Dev} (h : d.Sound) (u : Nat) (x : TlyResult) : (Dev.tlyPush d u x).2.Sound := by
  unfold Dev.tlyPush
  try dsimp only
  repeat' first
    | with_reducible assumption
    | with_reducible apply Dev.count_sound
    | with_reducible apply Dev.setTly_sound
    | with_reducible apply Dev.Sound.ite_snd
    | simp only [Dev.Sound.keepSdp]
    | (intro _; intros; try dsimp only)

theorem Dev.stripFailed_sound {d : Dev} (h : d.Sound) (u : Nat) (type_ : Nat) (seq : Nat) (value : Nat) : (Dev.stripFailed d u type_ seq value).Sound := by
  unfold Dev.stripFailed
  try dsimp only
  repeat' first
    | with_reducible assumption
    | with_reducible apply Dev.count_sound
    | with_reducible apply Dev.tlyPush_sound
    | with_reducible apply Dev.tlyEvent_sound

theorem Dev.tlyStripTold_sound {d : Dev} (hk : d.Sound) (link type_ seq : Nat) (wrong : Option Nat) : (Dev.tlyStripTold d link type_ seq wrong).2.Sound := by
  unfold Dev.tlyStripTold
  try dsimp only
  repeat' first
    | with_reducible assumption
    | with_reducible apply Dev.count_sound
    | with_reducible apply Dev.stripFailed_sound
    | with_reducible apply Dev.Sound.ite
    | with_reducible apply Dev.Sound.ite_snd
    | with_reducible apply Dev.Sound.foldl
    | simp only [Dev.Sound.keep]
    | simp only [Dev.Sound.keepSdp]
    | (intro _; intros; try dsimp only)
    | dsimp only
    | (split; all_goals try dsimp only)

theorem Dev.tlyStrip_sound {d : Dev} (h : d.Sound) (link : Nat) (type_ : Nat) (origin : Nat) (fold : Nat) (seq : Nat) (payload : List Byte) : (Dev.tlyStrip d link type_ origin fold seq payload).2.Sound := by
  unfold Dev.tlyStrip
  try dsimp only
  repeat' first
    | with_reducible assumption
    | with_reducible apply Dev.count_sound
    | with_reducible apply Dev.stripFailed_sound
    | with_reducible apply Dev.Sound.ite_snd
    | simp only [Dev.Sound.keepSdp]
    | (intro _; intros; try dsimp only)
    | (split; all_goals try dsimp only)

/-! ### Link -/

theorem Dev.twnEvent_sound {d : Dev} (h : d.Sound) (f : Fld) : (Dev.twnEvent d f).Sound := by
  unfold Dev.twnEvent
  try dsimp only
  repeat' first
    | with_reducible assumption
    | with_reducible apply Dev.setFlag_sound

theorem Dev.leastLane_sound {d : Dev} (hk : d.Sound) : (Dev.leastLane d).2.Sound := by
  unfold Dev.leastLane
  try dsimp only
  repeat' first
    | with_reducible assumption
    | with_reducible apply Dev.freshNat_sound
    | with_reducible apply Dev.Sound.ite
    | with_reducible apply Dev.Sound.ite_snd
    | with_reducible apply Dev.Sound.foldl
    | simp only [Dev.Sound.keep]
    | simp only [Dev.Sound.keepSdp]
    | (intro _; intros; try dsimp only)
    | dsimp only
    | (split; all_goals try dsimp only)

theorem Dev.laneQueue_sound {d : Dev} (hk : d.Sound) (p n : Nat) : (Dev.laneQueue d p n).Sound := by
  unfold Dev.laneQueue
  try dsimp only
  repeat' first
    | with_reducible assumption
    | with_reducible apply Dev.Sound.ite
    | with_reducible apply Dev.Sound.ite_snd
    | with_reducible apply Dev.Sound.foldl
    | simp only [Dev.Sound.keep]
    | simp only [Dev.Sound.keepSdp]
    | (intro _; intros; try dsimp only)
    | dsimp only
    | (split; all_goals try dsimp only)

theorem Dev.idleRun_sound {d : Dev} (h : d.Sound) (idle : Nat → Nat → List Byte) (n : Nat) : (Dev.idleRun d idle n).2.Sound := by
  induction n with
  | zero => exact h
  | succ n ih => exact Dev.freshNat_sound (Dev.freshNat_sound ih)

theorem Dev.sendLevels_sound {d : Dev} (hk : d.Sound) (p : Nat) (ws : List (List Nat)) : (Dev.sendLevels d p ws).Sound := by
  unfold Dev.sendLevels
  try dsimp only
  repeat' first
    | with_reducible assumption
    | with_reducible apply Dev.emit_sound
    | with_reducible apply Dev.Sound.ite
    | with_reducible apply Dev.Sound.ite_snd
    | with_reducible apply Dev.Sound.foldl
    | simp only [Dev.Sound.keep]
    | simp only [Dev.Sound.keepSdp]
    | (intro _; intros; try dsimp only)
    | dsimp only
    | (split; all_goals try dsimp only)

theorem Dev.lanePause_sound {d : Dev} (hk : d.Sound) (p : Nat) (idle : Nat → Nat → List Byte) (l : Lane) : (Dev.lanePause d p idle l).2.Sound := by
  unfold Dev.lanePause
  try dsimp only
  repeat' first
    | with_reducible assumption
    | with_reducible apply Dev.idleRun_sound
    | with_reducible apply Dev.freshNat_sound
    | with_reducible apply Dev.sendLevels_sound
    | with_reducible apply Dev.freshBytes_sound
    | with_reducible apply Dev.freshBool_sound
    | with_reducible apply Dev.Sound.ite
    | with_reducible apply Dev.Sound.ite_snd
    | with_reducible apply Dev.Sound.foldl
    | with_reducible apply Dev.Sound.foldl_fst
    | simp only [Dev.Sound.keep]
    | simp only [Dev.Sound.keepSdp]
    | (intro _; intros; try dsimp only)
    | dsimp only
    | (split; all_goals try dsimp only)

theorem Dev.linkBytes_sound {d : Dev} (hk : d.Sound) (p : Nat) (idle : Nat → Nat → List Byte) (x : LinkCodes) (bs : List Byte) : (Dev.linkBytes d p idle x bs).2.Sound := by
  unfold Dev.linkBytes
  try dsimp only
  repeat' first
    | with_reducible assumption
    | with_reducible apply Dev.lanePause_sound
    | with_reducible apply Dev.freshNat_sound
    | with_reducible apply Dev.sendLevels_sound
    | with_reducible apply Dev.Sound.ite
    | with_reducible apply Dev.Sound.ite_snd
    | with_reducible apply Dev.Sound.foldl
    | simp only [Dev.Sound.keep]
    | simp only [Dev.Sound.keepSdp]
    | (intro _; intros; try dsimp only)
    | dsimp only
    | (split; all_goals try dsimp only)

theorem Dev.twnCodes_sound {d : Dev} (hk : d.Sound) (p : Nat) (bs : List Byte) : (Dev.twnCodes d p bs).Sound := by
  unfold Dev.twnCodes
  try dsimp only
  repeat' first
    | with_reducible assumption
    | with_reducible apply Dev.linkBytes_sound
    | with_reducible apply Dev.Sound.ite
    | with_reducible apply Dev.Sound.ite_snd
    | with_reducible apply Dev.Sound.foldl
    | simp only [Dev.Sound.keep]
    | simp only [Dev.Sound.keepSdp]
    | (intro _; intros; try dsimp only)
    | dsimp only
    | (split; all_goals try dsimp only)

theorem Dev.twnEmit_sound {d : Dev} (h : d.Sound) (session : List Byte) (seq : Nat) (msg : TwinMsg) : (Dev.twnEmit d session seq msg).Sound := by
  unfold Dev.twnEmit
  try dsimp only
  repeat' first
    | with_reducible assumption
    | with_reducible apply Dev.leastLane_sound
    | with_reducible apply Dev.emit_sound
    | with_reducible apply Dev.twnCodes_sound
    | with_reducible apply Dev.laneQueue_sound
    | with_reducible apply Dev.freshNat_sound
    | with_reducible apply Dev.freshBytes_sound
    | with_reducible apply Dev.Sound.ite
    | with_reducible apply Dev.Sound.ite_snd
    | with_reducible apply Dev.Sound.foldl
    | simp only [Dev.Sound.keep]
    | simp only [Dev.Sound.keepSdp]
    | (intro _; intros; try dsimp only)
    | dsimp only
    | (split; all_goals try dsimp only)

theorem Dev.twnSendMsg_sound {d : Dev} (h : d.Sound) (msg : TwinMsg) : (Dev.twnSendMsg d msg).Sound := by
  unfold Dev.twnSendMsg
  try dsimp only
  repeat' first
    | with_reducible assumption
    | with_reducible apply Dev.tlyAppend_sound
    | with_reducible apply Dev.tlyAppendTold_sound
    | with_reducible apply Dev.twnEmit_sound
    | with_reducible apply Dev.Sound.ite_snd
    | simp only [Dev.Sound.keepSdp]
    | (intro _; intros; try dsimp only)
    | (split; all_goals try dsimp only)

theorem Dev.twnMirror_sound {d : Dev} (h : d.Sound) (items : List MirrorItem) : (Dev.twnMirror d items).Sound := by
  unfold Dev.twnMirror
  try dsimp only
  repeat' first
    | with_reducible assumption
    | with_reducible apply Dev.countBy_sound
    | with_reducible apply Dev.twnSendMsg_sound

theorem Dev.twnSendLoose_sound {d : Dev} (h : d.Sound) (type_ : Nat) (payload : List Byte) : (Dev.twnSendLoose d type_ payload).Sound := by
  unfold Dev.twnSendLoose
  try dsimp only
  repeat' first
    | with_reducible assumption
    | with_reducible apply Dev.freshNat_sound
    | with_reducible apply Dev.twnEmit_sound

theorem Dev.twnSend_sound {d : Dev} (h : d.Sound) (type_ : Nat) (payload : List Byte) : (Dev.twnSend d type_ payload).Sound := by
  unfold Dev.twnSend
  try dsimp only
  repeat' first
    | with_reducible assumption
    | with_reducible apply Dev.twnSendMsg_sound

/-! ### Waybill -/

theorem Dev.setWblState_sound {d : Dev} (h : d.Sound) (x : Nat) : (Dev.setWblState d x).Sound := by
  unfold Dev.setWblState
  try dsimp only
  repeat' first
    | with_reducible assumption
    | with_reducible apply Dev.setFld_sound

theorem Dev.startLoad_sound {d : Dev} (h : d.Sound) (src : LoadSource) : (Dev.startLoad d src).Sound := by
  unfold Dev.startLoad
  try dsimp only
  repeat' first
    | with_reducible assumption
    | with_reducible apply Dev.setWblState_sound
    | simp only [Dev.Sound.keepSdp]

theorem Dev.loadFailed_sound {d : Dev} (h : d.Sound) (code : Nat) (off : Nat) : (Dev.loadFailed d code off).Sound := by
  unfold Dev.loadFailed
  try dsimp only
  repeat' first
    | with_reducible assumption
    | with_reducible apply Dev.startLoad_sound
    | with_reducible apply Dev.setReg_sound
    | with_reducible apply Dev.setFld_sound
    | with_reducible apply Dev.setWblState_sound
    | simp only [Dev.Sound.keepSdp]
    | (split; all_goals try dsimp only)

theorem Dev.plainReads_sound {d : Dev} (hk : d.Sound) (blocks : List Nat) (bad : List Nat := []) : (Dev.plainReads d blocks bad).Sound := by
  unfold Dev.plainReads
  try dsimp only
  repeat' first
    | with_reducible assumption
    | with_reducible apply Dev.memWake_sound
    | with_reducible apply Dev.checkOwn_sound
    | with_reducible apply Dev.logAll_sound
    | with_reducible apply Dev.Sound.ite
    | with_reducible apply Dev.Sound.ite_snd
    | with_reducible apply Dev.Sound.foldl
    | simp only [Dev.Sound.keep]
    | simp only [Dev.Sound.keepSdp]
    | (intro _; intros; try dsimp only)
    | dsimp only
    | (split; all_goals try dsimp only)

theorem Dev.reservedWakes_sound {d : Dev} (hk : d.Sound) (content : Nat) (blocks : List Nat) : (Dev.reservedWakes d content blocks).Sound := by
  unfold Dev.reservedWakes
  try dsimp only
  repeat' first
    | with_reducible assumption
    | with_reducible apply Dev.reservedWake_sound
    | with_reducible apply Dev.Sound.ite
    | with_reducible apply Dev.Sound.ite_snd
    | with_reducible apply Dev.Sound.foldl
    | simp only [Dev.Sound.keep]
    | simp only [Dev.Sound.keepSdp]
    | (intro _; intros; try dsimp only)
    | dsimp only
    | (split; all_goals try dsimp only)

theorem Dev.imageRead_sound {d : Dev} (hk : d.Sound) (src : LoadSource) (o n : Nat) : (Dev.imageRead d src o n).2.Sound := by
  unfold Dev.imageRead
  try dsimp only
  repeat' first
    | with_reducible assumption
    | with_reducible apply Dev.plainReads_sound
    | with_reducible apply Dev.reservedWakes_sound
    | with_reducible apply Dev.Sound.ite
    | with_reducible apply Dev.Sound.ite_snd
    | with_reducible apply Dev.Sound.foldl
    | simp only [Dev.Sound.keep]
    | simp only [Dev.Sound.keepSdp]
    | (intro _; intros; try dsimp only)
    | dsimp only
    | (split; all_goals try dsimp only)

theorem Dev.imageCopied_sound {d : Dev} (h : d.Sound) (readError : Bool) : (Dev.imageCopied d readError).1.Sound := by
  unfold Dev.imageCopied
  try dsimp only
  repeat' first
    | with_reducible assumption
    | with_reducible apply Dev.loadFailed_sound
    | with_reducible apply Dev.imageRead_sound
    | with_reducible apply Dev.setReg_sound
    | with_reducible apply Dev.Sound.ite
    | with_reducible apply Dev.Sound.ite_snd
    | with_reducible apply Dev.Sound.foldl
    | simp only [Dev.Sound.keep]
    | simp only [Dev.Sound.keepSdp]
    | (intro _; intros; try dsimp only)
    | dsimp only
    | (split; all_goals try dsimp only)

theorem Dev.hostLoad_sound {d : Dev} (h : d.Sound) : (Dev.hostLoad d).Sound := by
  unfold Dev.hostLoad
  try dsimp only
  repeat' first
    | with_reducible assumption
    | with_reducible apply Dev.refuse_sound
    | with_reducible apply Dev.plainReads_sound
    | with_reducible apply Dev.startLoad_sound
    | with_reducible apply Dev.Sound.ite
    | with_reducible apply Dev.Sound.ite_snd
    | with_reducible apply Dev.Sound.foldl
    | simp only [Dev.Sound.keep]
    | simp only [Dev.Sound.keepSdp]
    | (intro _; intros; try dsimp only)
    | dsimp only
    | (split; all_goals try dsimp only)

/-! ### Sdp -/

theorem Dev.sdpEvent_sound {d : Dev} (h : d.Sound) (f : Fld) : (Dev.sdpEvent d f).Sound := by
  unfold Dev.sdpEvent
  try dsimp only
  repeat' first
    | with_reducible assumption
    | with_reducible apply Dev.setFlag_sound

theorem Dev.setPower_sound {d : Dev} (h : d.Sound) (x : Nat) (hx : x ≤ 3) : (d.setPower x).Sound := by
  have h' : ({ d with sdp := { d.sdp with power := x } } : Dev).Sound := { h with power := hx }
  unfold Dev.setPower
  split
  · exact h
  · dsimp only
    apply Dev.raise_sound
    apply Dev.sdpEvent_sound
    split
    · exact Dev.count_sound h' _
    · exact Dev.count_sound h' _
    · exact Dev.count_sound h' _
    · exact h'

theorem Dev.restDone_sound {d : Dev} (h : d.Sound) : (Dev.restDone d).Sound := by
  unfold Dev.restDone
  try dsimp only
  repeat' first
    | with_reducible assumption
    | with_reducible apply Dev.emit_sound
    | with_reducible apply Dev.setPower_sound
    | with_reducible apply Dev.Sound.ite
    | with_reducible apply Dev.Sound.ite_snd
    | with_reducible apply Dev.Sound.foldl
    | decide
    | simp only [Dev.Sound.keep]
    | simp only [Dev.Sound.keepSdp]
    | (intro _; intros; try dsimp only)
    | dsimp only
    | (split; all_goals try dsimp only)

theorem Dev.bootLoad_sound {d : Dev} (hk : d.Sound) : (Dev.bootLoad d).Sound := by
  unfold Dev.bootLoad
  try dsimp only
  repeat' first
    | with_reducible assumption
    | with_reducible apply Dev.startLoad_sound
    | with_reducible apply Dev.Sound.ite
    | with_reducible apply Dev.Sound.ite_snd
    | with_reducible apply Dev.Sound.foldl
    | simp only [Dev.Sound.keep]
    | simp only [Dev.Sound.keepSdp]
    | (intro _; intros; try dsimp only)
    | dsimp only
    | (split; all_goals try dsimp only)

theorem Dev.flashLoad_sound {d : Dev} (h : d.Sound) : (Dev.flashLoad d).Sound := by
  unfold Dev.flashLoad
  try dsimp only
  repeat' first
    | with_reducible assumption
    | with_reducible apply Dev.startLoad_sound
    | with_reducible apply Dev.restDone_sound
    | with_reducible apply Dev.bootLoad_sound
    | with_reducible apply Dev.Sound.ite
    | with_reducible apply Dev.Sound.ite_snd
    | with_reducible apply Dev.Sound.foldl
    | simp only [Dev.Sound.keep]
    | simp only [Dev.Sound.keepSdp]
    | (intro _; intros; try dsimp only)
    | dsimp only
    | (split; all_goals try dsimp only)

theorem Dev.setWblRegs_sound {d : Dev} (h : d.Sound) (w : Waybill) : (Dev.setWblRegs d w).Sound := by
  unfold Dev.setWblRegs
  try dsimp only
  repeat' first
    | with_reducible assumption
    | with_reducible apply Dev.setReg_sound
    | with_reducible apply Dev.setRegs_sound

theorem Dev.headerCopied_sound {d : Dev} (h : d.Sound) (readError : Bool) : (Dev.headerCopied d readError).Sound := by
  unfold Dev.headerCopied
  try dsimp only
  repeat' first
    | with_reducible assumption
    | with_reducible apply Dev.loadFailed_sound
    | with_reducible apply Dev.imageRead_sound
    | with_reducible apply Dev.Sound.ite
    | with_reducible apply Dev.Sound.ite_snd
    | with_reducible apply Dev.Sound.foldl
    | simp only [Dev.Sound.keep]
    | simp only [Dev.Sound.keepSdp]
    | (intro _; intros; try dsimp only)
    | dsimp only
    | (split; all_goals try dsimp only)

theorem Dev.setTargetRegs_sound {d : Dev} (h : d.Sound) : (Dev.setTargetRegs d).Sound := by
  unfold Dev.setTargetRegs
  try dsimp only
  repeat' first
    | with_reducible assumption
    | with_reducible apply Dev.setReg_sound
    | with_reducible apply Dev.Sound.foldl
    | (intro _; intros; try dsimp only)

theorem Dev.setRingRegs_sound {d : Dev} (h : d.Sound) (w : Waybill) : (Dev.setRingRegs d w).Sound := by
  unfold Dev.setRingRegs
  try dsimp only
  repeat' first
    | with_reducible assumption
    | with_reducible apply Dev.setReg_sound
    | with_reducible apply Dev.Sound.foldl
    | (intro _; intros; try dsimp only)

theorem Dev.setPartRegs_sound {d : Dev} (h : d.Sound) (w : Waybill) : (Dev.setPartRegs d w).Sound := by
  unfold Dev.setPartRegs
  try dsimp only
  repeat' first
    | with_reducible assumption
    | with_reducible apply Dev.setReg_sound
    | with_reducible apply Dev.Sound.foldl
    | (intro _; intros; try dsimp only)

theorem Dev.applyWaybill_sound {d : Dev} (h : d.Sound) (w : Waybill) : (Dev.applyWaybill d w).Sound := by
  unfold Dev.applyWaybill
  try dsimp only
  repeat' first
    | with_reducible assumption
    | with_reducible apply Dev.setTargetRegs_sound
    | with_reducible apply Dev.setRingRegs_sound
    | with_reducible apply Dev.setPartRegs_sound
    | with_reducible apply Dev.setWblRegs_sound
    | with_reducible apply Dev.setFld_sound
    | with_reducible apply Dev.Sound.ite
    | simp only [Dev.Sound.keepSdp]
    | (intro _; intros; try dsimp only)

theorem Dev.unlockRefused_sound {d : Dev} (h : d.Sound) (reason : Nat) : (d.unlockRefused reason).Sound := by
  have h' : ({ d.refuse Reg.SDP_BLKID reason with sdp := { d.sdp with nonceValid := false } } : Dev).Sound := by
    have hr := Dev.refuse_sound h Reg.SDP_BLKID reason
    exact { hr with audit := h.audit, power := h.power, sec := h.sec }
  unfold Dev.unlockRefused
  dsimp only
  split
  · apply Dev.raise_sound
    apply Dev.sdpEvent_sound
    exact { h' with audit := h'.audit, power := h'.power, sec := h'.sec }
  · exact h'

theorem Dev.audit_sound {d : Dev} (h : d.Sound) (path : Nat) (write : Bool) (cause addr : Nat) :
    (d.audit path write cause addr).Sound := by
  unfold Dev.audit
  split
  · exact h
  · have hw := Dev.reservedWake_sound h contentLogs (65536 + d.sdp.auditSeq % 1048576 / 16)
    have hc := Dev.count_sound hw Reg.SDP_AUDIT_CNT
    exact { hc with audit := by simp only [List.length_take]; omega, power := hw.power, sec := hw.sec }

theorem Dev.writeStageKey_sound {d : Dev} (h : d.Sound) (path : Nat) (k : Nat) (v : Nat) : (Dev.writeStageKey d path k v).Sound := by
  unfold Dev.writeStageKey
  try dsimp only
  repeat' first
    | with_reducible assumption
    | with_reducible apply Dev.audit_sound
    | with_reducible apply Dev.Sound.ite
    | simp only [Dev.Sound.keepSdp]
    | (intro _; intros; try dsimp only)

theorem Dev.dbgBytes_sound {d : Dev} (h : d.Sound) (space : Nat) (a : Nat) : (Dev.dbgBytes d space a).2.Sound := by
  unfold Dev.dbgBytes
  try dsimp only
  repeat' first
    | with_reducible assumption
    | with_reducible apply Dev.freshBytes_sound
    | with_reducible apply Dev.Sound.ite
    | with_reducible apply Dev.Sound.ite_snd
    | with_reducible apply Dev.Sound.foldl
    | simp only [Dev.Sound.keep]
    | simp only [Dev.Sound.keepSdp]
    | (intro _; intros; try dsimp only)
    | dsimp only
    | (split; all_goals try dsimp only)

theorem Dev.dbgBlock_sound {d : Dev} (hk : d.Sound) (b : Nat) (bad : Bool) : (Dev.dbgBlock d b bad).Sound := by
  unfold Dev.dbgBlock
  try dsimp only
  repeat' first
    | with_reducible assumption
    | with_reducible apply Dev.memWake_sound
    | with_reducible apply Dev.blockFailed_sound
    | with_reducible apply Dev.depLog_sound
    | with_reducible apply Dev.Sound.ite
    | with_reducible apply Dev.Sound.ite_snd
    | with_reducible apply Dev.Sound.foldl
    | simp only [Dev.Sound.keep]
    | simp only [Dev.Sound.keepSdp]
    | (intro _; intros; try dsimp only)
    | dsimp only
    | (split; all_goals try dsimp only)

theorem Dev.dbgReadDone_sound {d : Dev} (h : d.Sound) (bad : Bool) : (Dev.dbgReadDone d bad).Sound := by
  unfold Dev.dbgReadDone
  try dsimp only
  repeat' first
    | with_reducible assumption
    | with_reducible apply Dev.setRegs_sound
    | with_reducible apply Dev.dbgBytes_sound
    | with_reducible apply Dev.dbgBlock_sound
    | with_reducible apply Dev.setFlag_sound
    | with_reducible apply Dev.setFld_sound
    | with_reducible apply Dev.Sound.ite
    | with_reducible apply Dev.Sound.ite_snd
    | with_reducible apply Dev.Sound.foldl
    | simp only [Dev.Sound.keep]
    | simp only [Dev.Sound.keepSdp]
    | (intro _; intros; try dsimp only)
    | dsimp only
    | (split; all_goals try dsimp only)

theorem Dev.dbgRead_sound {d : Dev} (h : d.Sound) : (Dev.dbgRead d).Sound := by
  unfold Dev.dbgRead
  try dsimp only
  repeat' first
    | with_reducible assumption
    | with_reducible apply Dev.refuse_sound
    | with_reducible apply Dev.Sound.ite
    | simp only [Dev.Sound.keepSdp]
    | (intro _; intros; try dsimp only)

theorem Dev.lullExit_sound {d : Dev} (h : d.Sound) : (Dev.lullExit d).Sound := by
  unfold Dev.lullExit
  try dsimp only
  repeat' first
    | with_reducible assumption
    | with_reducible apply Dev.setPower_sound
    | with_reducible apply Dev.Sound.ite
    | (intro _; intros; try dsimp only)
    | decide

theorem Dev.setLatch_sound {d : Dev} (h : d.Sound) (i : Nat) : (d.setLatch i).Sound := by
  unfold Dev.setLatch
  split
  · exact h
  · have h1 := Dev.setReg_sound h Reg.SDP_WAKE_STATUS (d.reg Reg.SDP_WAKE_STATUS + 2 ^ i)
    generalize d.setReg Reg.SDP_WAKE_STATUS (d.reg Reg.SDP_WAKE_STATUS + 2 ^ i) = e at h1
    dsimp only
    have h2 : (if (e.sdp.power == 3) = true then { e with sdp := { e.sdp with restLatches := e.sdp.restLatches ++ [i] } }
        else e.raise (0x46C0 + i)).Sound := by
      split
      · exact { h1 with }
      · exact Dev.raise_sound h1 _
    generalize (if (e.sdp.power == 3) = true then { e with sdp := { e.sdp with restLatches := e.sdp.restLatches ++ [i] } }
        else e.raise (0x46C0 + i)) = g at h2
    split
    · have h3 := Dev.sdpEvent_sound h2 Fld.SDP_EVENT_WAKE
      exact { h3 with audit := h2.audit, power := h2.power, sec := h2.sec }
    · exact h2

theorem Dev.thermalAlert_sound {d : Dev} (h : d.Sound) (f : Fld) (alertBit : Nat) (src : Nat) : (Dev.thermalAlert d f alertBit src).Sound := by
  unfold Dev.thermalAlert
  try dsimp only
  repeat' first
    | with_reducible assumption
    | with_reducible apply Dev.setLatch_sound
    | with_reducible apply Dev.raise_sound
    | with_reducible apply Dev.sdpEvent_sound
    | simp only [Dev.Sound.keepSdp]

theorem Dev.challenge_sound {d : Dev} (h : d.Sound) : (Dev.challenge d).Sound := by
  unfold Dev.challenge
  try dsimp only
  repeat' first
    | with_reducible assumption
    | with_reducible apply Dev.freshBytes_sound
    | with_reducible apply Dev.setRegs_sound
    | simp only [Dev.Sound.keepSdp]

theorem Dev.refuseFuse_sound {d : Dev} (h : d.Sound) (reason : Nat) : (Dev.refuseFuse d reason).Sound := by
  unfold Dev.refuseFuse
  try dsimp only
  repeat' first
    | with_reducible assumption
    | with_reducible apply Dev.refuse_sound
    | with_reducible apply Dev.setReg_sound

theorem Dev.setDebugMode_sound {d : Dev} (h : d.Sound) (m : Nat) : (Dev.setDebugMode d m).Sound := by
  unfold Dev.setDebugMode
  try dsimp only
  repeat' first
    | with_reducible assumption
    | with_reducible apply Dev.setReg_sound
    | with_reducible apply Dev.clearRegs_sound
    | with_reducible apply Dev.lullExit_sound
    | with_reducible apply Dev.Sound.ite
    | simp only [Dev.Sound.keepSdp]
    | (intro _; intros; try dsimp only)

theorem Dev.writeDbgMode_sound {d : Dev} (h : d.Sound) (v : Nat) : (Dev.writeDbgMode d v).Sound := by
  unfold Dev.writeDbgMode
  try dsimp only
  repeat' first
    | with_reducible assumption
    | with_reducible apply Dev.refuse_sound
    | with_reducible apply Dev.setDebugMode_sound
    | with_reducible apply Dev.Sound.ite
    | (intro _; intros; try dsimp only)

theorem Dev.fuseOther_sound {d : Dev} (h : d.Sound) : (Dev.fuseOther d).Sound := by
  unfold Dev.fuseOther
  try dsimp only
  repeat' first
    | with_reducible assumption
    | with_reducible apply Dev.refuseFuse_sound
    | with_reducible apply Dev.Sound.ite
    | (intro _; intros; try dsimp only)

theorem Dev.fuseArm_sound {d : Dev} (h : d.Sound) : (Dev.fuseArm d).Sound := by
  unfold Dev.fuseArm
  try dsimp only
  repeat' first
    | with_reducible assumption
    | with_reducible apply Dev.refuseFuse_sound
    | with_reducible apply Dev.setReg_sound
    | with_reducible apply Dev.Sound.ite
    | (intro _; intros; try dsimp only)

theorem Dev.fuseTimeout_sound {d : Dev} (h : d.Sound) : (Dev.fuseTimeout d).Sound := by
  unfold Dev.fuseTimeout
  try dsimp only
  repeat' first
    | with_reducible assumption
    | with_reducible apply Dev.refuseFuse_sound
    | with_reducible apply Dev.Sound.ite
    | (intro _; intros; try dsimp only)

theorem Dev.snapTake_sound {d : Dev} (h : d.Sound) : (Dev.snapTake d).Sound := by
  unfold Dev.snapTake
  try dsimp only
  repeat' first
    | with_reducible assumption
    | with_reducible apply Dev.refuse_sound
    | with_reducible apply Dev.Sound.ite
    | simp only [Dev.Sound.keepSdp]
    | (intro _; intros; try dsimp only)

theorem Dev.snapRelease_sound {d : Dev} (h : d.Sound) : (Dev.snapRelease d).Sound := by
  unfold Dev.snapRelease
  try dsimp only
  repeat' first
    | with_reducible assumption
    | with_reducible apply Dev.refuse_sound
    | with_reducible apply Dev.Sound.ite
    | simp only [Dev.Sound.keepSdp]
    | (intro _; intros; try dsimp only)

theorem Dev.writeDbgHalt_sound {d : Dev} (h : d.Sound) (k : Nat) (v : Nat) : (Dev.writeDbgHalt d k v).Sound := by
  unfold Dev.writeDbgHalt
  try dsimp only
  repeat' first
    | with_reducible assumption
    | with_reducible apply Dev.setReg_sound
    | with_reducible apply Dev.refuse_sound
    | with_reducible apply Dev.Sound.ite
    | (intro _; intros; try dsimp only)

theorem Dev.writeDbg_sound {d : Dev} (h : d.Sound) (off : Nat) (v : Nat) : (Dev.writeDbg d off v).Sound := by
  unfold Dev.writeDbg
  try dsimp only
  repeat' first
    | with_reducible assumption
    | with_reducible apply Dev.writeDbgMode_sound
    | with_reducible apply Dev.snapTake_sound
    | with_reducible apply Dev.snapRelease_sound
    | with_reducible apply Dev.writeDbgHalt_sound
    | with_reducible apply Dev.refuse_sound
    | with_reducible apply Dev.dbgRead_sound
    | with_reducible apply Dev.genericWrite_sound
    | with_reducible apply Dev.clearBeside_sound
    | with_reducible apply Dev.Sound.ite
    | (intro _; intros; try dsimp only)

theorem Dev.programSealed_sound {d : Dev} (h : d.Sound) : d.programSealed.Sound := by
  have hr := Dev.setReg_sound h Reg.SDP_FUSE_PROG 0
  unfold Dev.programSealed
  repeat' apply Dev.Sound.ite <;> intro _
  all_goals first
    | exact Dev.refuseFuse_sound h _
    | exact { hr with audit := h.audit, power := h.power, sec := h.sec }

theorem Dev.addLife_sound {d : Dev} (h : d.Sound) (t : Nat) : (Dev.addLife d t).Sound := by
  unfold Dev.addLife
  try dsimp only
  repeat' first
    | with_reducible assumption
    | simp only [Dev.Sound.keepSdp]

theorem Dev.thermalTrip_sound {d : Dev} (h : d.Sound) : (Dev.thermalTrip d).Sound := by
  unfold Dev.thermalTrip
  try dsimp only
  repeat' first
    | with_reducible assumption
    | with_reducible apply Dev.raise_sound
    | with_reducible apply Dev.count_sound
    | with_reducible apply Dev.sdpEvent_sound
    | simp only [Dev.Sound.keepSdp]

theorem Dev.sample_sound {d : Dev} (h : d.Sound) (die : List Nat) (hbm : List Nat) : (Dev.sample d die hbm).1.Sound := by
  unfold Dev.sample
  try dsimp only
  repeat' first
    | with_reducible assumption
    | with_reducible apply Dev.setRegs_sound
    | with_reducible apply Dev.addLife_sound
    | with_reducible apply Dev.thermalAlert_sound
    | with_reducible apply Dev.thermalTrip_sound
    | with_reducible apply Dev.Sound.ite
    | simp only [Dev.Sound.keepSdp]
    | (intro _; intros; try dsimp only)

theorem Dev.programKeyHash_sound {d : Dev} (h : d.Sound) : d.programKeyHash.Sound := by
  have hr := Dev.setReg_sound h Reg.SDP_FUSE_PROG 0
  unfold Dev.programKeyHash
  repeat' apply Dev.Sound.ite <;> intro _
  all_goals first
    | exact Dev.refuseFuse_sound h _
    | exact { hr with audit := h.audit, power := h.power, sec := h.sec }

theorem Dev.burn_sound {d : Dev} (h : d.Sound) (x1 : FuseJob) : (Dev.burn d x1).Sound := by
  unfold Dev.burn
  try dsimp only
  repeat' first
    | with_reducible assumption
    | simp only [Dev.Sound.keepSdp]
    | (split; all_goals try dsimp only)

theorem Dev.fuseDone_sound {d : Dev} (h : d.Sound) : (Dev.fuseDone d).Sound := by
  unfold Dev.fuseDone
  try dsimp only
  repeat' first
    | with_reducible assumption
    | with_reducible apply Dev.burn_sound
    | with_reducible apply Dev.raise_sound
    | with_reducible apply Dev.sdpEvent_sound
    | with_reducible apply Dev.Sound.ite
    | simp only [Dev.Sound.keepSdp]
    | (intro _; intros; try dsimp only)

theorem Dev.writeFuseProg_sound {d : Dev} (h : d.Sound) (path : Nat) (v : Nat) : (Dev.writeFuseProg d path v).Sound := by
  unfold Dev.writeFuseProg
  try dsimp only
  repeat' first
    | with_reducible assumption
    | with_reducible apply Dev.audit_sound
    | with_reducible apply Dev.fuseArm_sound
    | with_reducible apply Dev.programSealed_sound
    | with_reducible apply Dev.programKeyHash_sound
    | with_reducible apply Dev.fuseOther_sound
    | with_reducible apply Dev.Sound.ite
    | (intro _; intros; try dsimp only)
    | (split; all_goals try dsimp only)

end Sys2Proof.Machine
end

