-- ==== Sys2Proof/Laws/SoundComposing.lean ====
section
/-! SUPPORT. What keeps a device sound: the porters, settled stacks, plate rings, dealing and fences. -/

set_option linter.unusedTactic false
set_option linter.unreachableTactic false
set_option linter.unusedSimpArgs false
set_option linter.unusedVariables false

namespace Sys2Proof.Machine

theorem Dev.stagingLost_sound {d : Dev} (hk : d.Sound) (b : Nat) : (Dev.stagingLost d b).Sound := by
  unfold Dev.stagingLost
  try dsimp only
  repeat' first
    | with_reducible assumption
    | with_reducible apply Dev.depEvent_sound
    | with_reducible apply Dev.raise_sound
    | with_reducible apply Dev.Sound.ite
    | with_reducible apply Dev.Sound.ite_snd
    | with_reducible apply Dev.Sound.foldl
    | simp only [Dev.Sound.keep]
    | simp only [Dev.Sound.keepSdp]
    | (intro _; intros; try dsimp only)
    | dsimp only
    | (split; all_goals try dsimp only)

theorem Dev.stagingReads_sound {d : Dev} (hk : d.Sound) (a n : Nat) (bad : List Nat) : (Dev.stagingReads d a n bad).Sound := by
  unfold Dev.stagingReads
  try dsimp only
  repeat' first
    | with_reducible assumption
    | with_reducible apply Dev.count_sound
    | with_reducible apply Dev.depLog_sound
    | with_reducible apply Dev.stagingLost_sound
    | with_reducible apply Dev.Sound.ite
    | with_reducible apply Dev.Sound.ite_snd
    | with_reducible apply Dev.Sound.foldl
    | simp only [Dev.Sound.keep]
    | simp only [Dev.Sound.keepSdp]
    | (intro _; intros; try dsimp only)
    | dsimp only
    | (split; all_goals try dsimp only)

/-! ### Porters -/

theorem Dev.stagingWrite_sound {d : Dev} (h : d.Sound) (a : Nat) (bs : List Byte) (bad : List Nat) : (d.stagingWrite a bs bad).Sound := by
  have hr := Dev.stagingReads_sound h a bs.length bad
  unfold Dev.stagingWrite
  dsimp only
  exact { hr with staging := Tab.wf_write hr.staging _ _ }

theorem Dev.memStore_sound {d : Dev} (hk : d.Sound) (a : Nat) (bs : List Byte) (bad : List Nat) : (Dev.memStore d a bs bad).Sound := by
  unfold Dev.memStore
  try dsimp only
  repeat' first
    | with_reducible assumption
    | with_reducible apply Dev.ownChecks_sound
    | with_reducible apply Dev.memWrite_sound
    | with_reducible apply Dev.logAll_sound
    | with_reducible apply Dev.Sound.ite
    | with_reducible apply Dev.Sound.ite_snd
    | with_reducible apply Dev.Sound.foldl
    | simp only [Dev.Sound.keep]
    | simp only [Dev.Sound.keepSdp]
    | (intro _; intros; try dsimp only)
    | dsimp only
    | (split; all_goals try dsimp only)

theorem Dev.storeWrite_sound {d : Dev} (hk : d.Sound) (r : StrokeRun) (x y : Nat) (bs : List Byte) (bad : List Nat) : (Dev.storeWrite d r x y bs bad).Sound := by
  unfold Dev.storeWrite
  try dsimp only
  repeat' first
    | with_reducible assumption
    | with_reducible apply Dev.stagingWrite_sound
    | with_reducible apply Dev.memStore_sound
    | with_reducible apply Dev.Sound.ite
    | with_reducible apply Dev.Sound.ite_snd
    | with_reducible apply Dev.Sound.foldl
    | simp only [Dev.Sound.keep]
    | simp only [Dev.Sound.keepSdp]
    | (intro _; intros; try dsimp only)
    | dsimp only
    | (split; all_goals try dsimp only)

theorem Dev.writeParcel_sound {d : Dev} (hk : d.Sound) (r : StrokeRun) (q : Parcel) (px : List (List Byte)) (bad : List Nat) : (Dev.writeParcel d r q px bad).Sound := by
  unfold Dev.writeParcel
  try dsimp only
  repeat' first
    | with_reducible assumption
    | with_reducible apply Dev.storeWrite_sound
    | with_reducible apply Dev.Sound.ite
    | with_reducible apply Dev.Sound.ite_snd
    | with_reducible apply Dev.Sound.foldl
    | simp only [Dev.Sound.keep]
    | simp only [Dev.Sound.keepSdp]
    | (intro _; intros; try dsimp only)
    | dsimp only
    | (split; all_goals try dsimp only)

theorem Dev.setStrokes_sound {d : Dev} (h : d.Sound) (rs : List StrokeRun) : (Dev.setStrokes d rs).Sound := by
  unfold Dev.setStrokes
  try dsimp only
  repeat' first
    | with_reducible assumption
    | simp only [Dev.Sound.keepSdp]

theorem Dev.mapRuns_sound {d : Dev} (h : d.Sound) (p : StrokeRun → Bool) (f : StrokeRun → StrokeRun) : (Dev.mapRuns d p f).Sound := by
  unfold Dev.mapRuns
  try dsimp only
  repeat' first
    | with_reducible assumption
    | with_reducible apply Dev.setStrokes_sound

theorem Dev.mapParcel_sound {d : Dev} (h : d.Sound) (stroke : Nat) (region : Nat) (number : Nat) (f : Parcel → Parcel) : (Dev.mapParcel d stroke region number f).Sound := by
  unfold Dev.mapParcel
  try dsimp only
  repeat' first
    | with_reducible assumption
    | with_reducible apply Dev.mapRuns_sound

theorem Dev.mapJob_sound {d : Dev} (h : d.Sound) (p : Job → Bool) (f : Job → Option Job) : (Dev.mapJob d p f).Sound := by
  unfold Dev.mapJob
  try dsimp only
  repeat' first
    | with_reducible assumption
    | simp only [Dev.Sound.keepSdp]

theorem Dev.placeJobs_sound {d : Dev} (h : d.Sound) : (Dev.placeJobs d).Sound := by
  unfold Dev.placeJobs
  try dsimp only
  repeat' first
    | with_reducible assumption
    | with_reducible apply Dev.mapJob_sound
    | with_reducible apply Dev.Sound.foldl
    | (intro _; intros; try dsimp only)
    | (split; all_goals try dsimp only)

theorem Dev.addJob_sound {d : Dev} (hk : d.Sound) (kind : JobKind) (stroke region number : Nat) (unit_ : Nat := 0) (block : Option (Bool × Nat) := none) : (Dev.addJob d kind stroke region number unit_ block).Sound := by
  unfold Dev.addJob
  try dsimp only
  repeat' first
    | with_reducible assumption
    | with_reducible apply Dev.placeJobs_sound
    | with_reducible apply Dev.Sound.ite
    | with_reducible apply Dev.Sound.ite_snd
    | with_reducible apply Dev.Sound.foldl
    | simp only [Dev.Sound.keep]
    | simp only [Dev.Sound.keepSdp]
    | (intro _; intros; try dsimp only)
    | dsimp only
    | (split; all_goals try dsimp only)

theorem Dev.replaceParcel_sound {d : Dev} (hk : d.Sound) (r : StrokeRun) (q : Parcel) (px : List (List Byte)) (pcv : Nat) (bad : List Nat) (ok : Bool) (unit_ : Nat) : (Dev.replaceParcel d r q px pcv bad ok unit_).Sound := by
  unfold Dev.replaceParcel
  try dsimp only
  repeat' first
    | with_reducible assumption
    | with_reducible apply Dev.writeParcel_sound
    | with_reducible apply Dev.reservedWake_sound
    | with_reducible apply Dev.mapParcel_sound
    | with_reducible apply Dev.count_sound
    | with_reducible apply Dev.addJob_sound
    | with_reducible apply Dev.countBy_sound
    | with_reducible apply Dev.depEvent_sound
    | with_reducible apply Dev.raise_sound
    | with_reducible apply Dev.Sound.ite
    | with_reducible apply Dev.Sound.ite_snd
    | with_reducible apply Dev.Sound.foldl
    | simp only [Dev.Sound.keep]
    | simp only [Dev.Sound.keepSdp]
    | (intro _; intros; try dsimp only)
    | dsimp only
    | (split; all_goals try dsimp only)

theorem Dev.logParcel_sound {d : Dev} (h : d.Sound) (kind : Nat) (outcome : Nat) (unit_ : Nat) (stroke : Nat) (region : Nat) (number : Nat) (addr : Nat) (escaped : Bool) : (Dev.logParcel d kind outcome unit_ stroke region number addr escaped).Sound := by
  unfold Dev.logParcel
  try dsimp only
  repeat' first
    | with_reducible assumption
    | with_reducible apply Dev.depLog_sound

theorem Dev.comparisonOver_sound {d : Dev} (h : d.Sound) (u : Nat) : (Dev.comparisonOver d u).Sound := by
  unfold Dev.comparisonOver
  try dsimp only
  repeat' first
    | with_reducible assumption
    | with_reducible apply Dev.mapRuns_sound
    | with_reducible apply Dev.Sound.ite
    | with_reducible apply Dev.Sound.ite_snd
    | with_reducible apply Dev.Sound.foldl
    | simp only [Dev.Sound.keep]
    | simp only [Dev.Sound.keepSdp]
    | (intro _; intros; try dsimp only)
    | dsimp only
    | (split; all_goals try dsimp only)

theorem Dev.comparisonCheck_sound {d : Dev} (h : d.Sound) : (Dev.comparisonCheck d).Sound := by
  unfold Dev.comparisonCheck
  try dsimp only
  repeat' first
    | with_reducible assumption
    | with_reducible apply Dev.comparisonOver_sound
    | with_reducible apply Dev.Sound.foldl
    | (intro _; intros; try dsimp only)

theorem Dev.twnCompare_sound {d : Dev} (h : d.Sound) (stroke : Nat) (region : Nat) (number : Nat) : (Dev.twnCompare d stroke region number).Sound := by
  unfold Dev.twnCompare
  try dsimp only
  repeat' first
    | with_reducible assumption
    | with_reducible apply Dev.comparisonCheck_sound
    | with_reducible apply Dev.count_sound
    | with_reducible apply Dev.mapParcel_sound
    | with_reducible apply Dev.addJob_sound
    | with_reducible apply Dev.Sound.ite
    | (intro _; intros; try dsimp only)
    | (split; all_goals try dsimp only)

theorem Dev.sealedNews_sound {d : Dev} (h : d.Sound) (stroke : Nat) (region : Nat) (number : Nat) (pcv : Nat) : (Dev.sealedNews d stroke region number pcv).Sound := by
  unfold Dev.sealedNews
  try dsimp only
  repeat' first
    | with_reducible assumption
    | with_reducible apply Dev.reservedWake_sound
    | with_reducible apply Dev.twnSend_sound
    | with_reducible apply Dev.mapParcel_sound
    | with_reducible apply Dev.twnCompare_sound
    | with_reducible apply Dev.Sound.ite
    | with_reducible apply Dev.Sound.ite_snd
    | with_reducible apply Dev.Sound.foldl
    | simp only [Dev.Sound.keep]
    | simp only [Dev.Sound.keepSdp]
    | (intro _; intros; try dsimp only)
    | dsimp only
    | (split; all_goals try dsimp only)

theorem Dev.auditAsk_sound {d : Dev} (hk : d.Sound) (stroke region number unit_ : Nat) : (Dev.auditAsk d stroke region number unit_).Sound := by
  unfold Dev.auditAsk
  try dsimp only
  repeat' first
    | with_reducible assumption
    | with_reducible apply Dev.audit_sound
    | with_reducible apply Dev.mapParcel_sound
    | with_reducible apply Dev.addJob_sound
    | with_reducible apply Dev.Sound.ite
    | with_reducible apply Dev.Sound.ite_snd
    | with_reducible apply Dev.Sound.foldl
    | simp only [Dev.Sound.keep]
    | simp only [Dev.Sound.keepSdp]
    | (intro _; intros; try dsimp only)
    | dsimp only
    | (split; all_goals try dsimp only)

theorem Dev.sealAgain_sound {d : Dev} (hk : d.Sound) (r : StrokeRun) (q : Parcel) (px : List (List Byte)) (bad : List Nat) (kind : Nat) (j : Job) : (Dev.sealAgain d r q px bad kind j).Sound := by
  unfold Dev.sealAgain
  try dsimp only
  repeat' first
    | with_reducible assumption
    | with_reducible apply Dev.replaceParcel_sound
    | with_reducible apply Dev.logParcel_sound
    | with_reducible apply Dev.sealedNews_sound
    | with_reducible apply Dev.auditAsk_sound
    | with_reducible apply Dev.Sound.ite
    | with_reducible apply Dev.Sound.ite_snd
    | with_reducible apply Dev.Sound.foldl
    | simp only [Dev.Sound.keep]
    | simp only [Dev.Sound.keepSdp]
    | (intro _; intros; try dsimp only)
    | dsimp only
    | (split; all_goals try dsimp only)

theorem Dev.controlTidy_sound {d : Dev} (h : d.Sound) : (Dev.controlTidy d).Sound := by
  unfold Dev.controlTidy
  try dsimp only
  repeat' first
    | with_reducible assumption
    | with_reducible apply Dev.message_sound
    | with_reducible apply Dev.setFld_sound
    | with_reducible apply Dev.Sound.ite
    | (intro _; intros; try dsimp only)

theorem Dev.controlWritten_sound {d : Dev} (h : d.Sound) (words : List Nat) : (Dev.controlWritten d words).Sound := by
  unfold Dev.controlWritten
  try dsimp only
  repeat' first
    | with_reducible assumption
    | with_reducible apply Dev.controlTidy_sound
    | simp only [Dev.Sound.keepSdp]

theorem Dev.plainLadder_sound {d : Dev} (h : d.Sound) (l : Ladder) (outcome : Nat) : (Dev.plainLadder d l outcome).Sound := by
  unfold Dev.plainLadder
  try dsimp only
  repeat' first
    | with_reducible assumption
    | with_reducible apply Dev.blockDamaged_sound
    | with_reducible apply Dev.depLog_sound
    | with_reducible apply Dev.Sound.ite
    | simp only [Dev.Sound.keepSdp]
    | (intro _; intros; try dsimp only)

theorem Dev.unrecoverable_sound {d : Dev} (h : d.Sound) (stroke : Nat) (region : Nat) (number : Nat) : (Dev.unrecoverable d stroke region number).Sound := by
  unfold Dev.unrecoverable
  try dsimp only
  repeat' first
    | with_reducible assumption
    | with_reducible apply Dev.mapParcel_sound
    | with_reducible apply Dev.count_sound
    | with_reducible apply Dev.depEvent_sound
    | with_reducible apply Dev.raise_sound
    | with_reducible apply Dev.Sound.ite
    | with_reducible apply Dev.Sound.ite_snd
    | with_reducible apply Dev.Sound.foldl
    | simp only [Dev.Sound.keep]
    | simp only [Dev.Sound.keepSdp]
    | (intro _; intros; try dsimp only)
    | dsimp only
    | (split; all_goals try dsimp only)

theorem Dev.advanceDone_sound {d : Dev} (h : d.Sound) : (Dev.advanceDone d).Sound := by
  unfold Dev.advanceDone
  try dsimp only
  repeat' first
    | with_reducible assumption
    | with_reducible apply Dev.raise_sound
    | with_reducible apply Dev.Sound.ite
    | simp only [Dev.Sound.keepSdp]
    | (intro _; intros; try dsimp only)
    | (split; all_goals try dsimp only)

theorem Dev.logLadder_sound {d : Dev} (hk : d.Sound) (l : Ladder) (outcome : Nat) : (Dev.logLadder d l outcome).Sound := by
  unfold Dev.logLadder
  try dsimp only
  repeat' first
    | with_reducible assumption
    | with_reducible apply Dev.depLog_sound
    | with_reducible apply Dev.logParcel_sound
    | with_reducible apply Dev.Sound.ite
    | with_reducible apply Dev.Sound.ite_snd
    | with_reducible apply Dev.Sound.foldl
    | simp only [Dev.Sound.keep]
    | simp only [Dev.Sound.keepSdp]
    | (intro _; intros; try dsimp only)
    | dsimp only
    | (split; all_goals try dsimp only)

theorem Dev.readerResumes_sound {d : Dev} (hk : d.Sound) (l : Ladder) : (Dev.readerResumes d l).Sound := by
  unfold Dev.readerResumes
  try dsimp only
  repeat' first
    | with_reducible assumption
    | with_reducible apply Dev.mapJob_sound
    | with_reducible apply Dev.mapParcel_sound
    | with_reducible apply Dev.Sound.ite
    | with_reducible apply Dev.Sound.ite_snd
    | with_reducible apply Dev.Sound.foldl
    | simp only [Dev.Sound.keep]
    | simp only [Dev.Sound.keepSdp]
    | (intro _; intros; try dsimp only)
    | dsimp only
    | (split; all_goals try dsimp only)

theorem Dev.orphanLadders_sound {d : Dev} (hk : d.Sound) (p : Ladder → Bool) : (Dev.orphanLadders d p).Sound := by
  unfold Dev.orphanLadders
  try dsimp only
  repeat' first
    | with_reducible assumption
    | with_reducible apply Dev.Sound.ite
    | with_reducible apply Dev.Sound.ite_snd
    | with_reducible apply Dev.Sound.foldl
    | simp only [Dev.Sound.keep]
    | simp only [Dev.Sound.keepSdp]
    | (intro _; intros; try dsimp only)
    | dsimp only
    | (split; all_goals try dsimp only)

theorem Dev.jobDamaged_sound {d : Dev} (hk : d.Sound) (j : Job) : (Dev.jobDamaged d j).Sound := by
  unfold Dev.jobDamaged
  try dsimp only
  repeat' first
    | with_reducible assumption
    | with_reducible apply Dev.stagingLost_sound
    | with_reducible apply Dev.blockDamaged_sound
    | with_reducible apply Dev.Sound.ite
    | with_reducible apply Dev.Sound.ite_snd
    | with_reducible apply Dev.Sound.foldl
    | simp only [Dev.Sound.keep]
    | simp only [Dev.Sound.keepSdp]
    | (intro _; intros; try dsimp only)
    | dsimp only
    | (split; all_goals try dsimp only)

theorem Dev.jobLost_sound {d : Dev} (hk : d.Sound) (j : Job) : (Dev.jobLost d j).Sound := by
  unfold Dev.jobLost
  try dsimp only
  repeat' first
    | with_reducible assumption
    | with_reducible apply Dev.jobDamaged_sound
    | with_reducible apply Dev.logParcel_sound
    | with_reducible apply Dev.Sound.ite
    | with_reducible apply Dev.Sound.ite_snd
    | with_reducible apply Dev.Sound.foldl
    | simp only [Dev.Sound.keep]
    | simp only [Dev.Sound.keepSdp]
    | (intro _; intros; try dsimp only)
    | dsimp only
    | (split; all_goals try dsimp only)

theorem Dev.loseJobs_sound {d : Dev} (hk : d.Sound) (p : Job → Bool) : (Dev.loseJobs d p).Sound := by
  unfold Dev.loseJobs
  try dsimp only
  repeat' first
    | with_reducible assumption
    | with_reducible apply Dev.jobLost_sound
    | with_reducible apply Dev.placeJobs_sound
    | with_reducible apply Dev.Sound.ite
    | with_reducible apply Dev.Sound.ite_snd
    | with_reducible apply Dev.Sound.foldl
    | simp only [Dev.Sound.keep]
    | simp only [Dev.Sound.keepSdp]
    | (intro _; intros; try dsimp only)
    | dsimp only
    | (split; all_goals try dsimp only)

theorem Dev.ladderDamaged_sound {d : Dev} (hk : d.Sound) (l : Ladder) : (Dev.ladderDamaged d l).Sound := by
  unfold Dev.ladderDamaged
  try dsimp only
  repeat' first
    | with_reducible assumption
    | with_reducible apply Dev.stagingLost_sound
    | with_reducible apply Dev.blockDamaged_sound
    | with_reducible apply Dev.Sound.ite
    | with_reducible apply Dev.Sound.ite_snd
    | with_reducible apply Dev.Sound.foldl
    | simp only [Dev.Sound.keep]
    | simp only [Dev.Sound.keepSdp]
    | (intro _; intros; try dsimp only)
    | dsimp only
    | (split; all_goals try dsimp only)

theorem Dev.ladderFailed_sound {d : Dev} (h : d.Sound) (l : Ladder) : (Dev.ladderFailed d l).Sound := by
  unfold Dev.ladderFailed
  try dsimp only
  repeat' first
    | with_reducible assumption
    | with_reducible apply Dev.plainLadder_sound
    | with_reducible apply Dev.ladderDamaged_sound
    | with_reducible apply Dev.logLadder_sound
    | with_reducible apply Dev.blockDamaged_sound
    | with_reducible apply Dev.mapParcel_sound
    | with_reducible apply Dev.readerResumes_sound
    | with_reducible apply Dev.addJob_sound
    | with_reducible apply Dev.count_sound
    | with_reducible apply Dev.unrecoverable_sound
    | with_reducible apply Dev.orphanLadders_sound
    | with_reducible apply Dev.loseJobs_sound
    | with_reducible apply Dev.advanceDone_sound
    | with_reducible apply Dev.Sound.ite
    | with_reducible apply Dev.Sound.ite_snd
    | with_reducible apply Dev.Sound.foldl
    | simp only [Dev.Sound.keep]
    | simp only [Dev.Sound.keepSdp]
    | (intro _; intros; try dsimp only)
    | dsimp only
    | (split; all_goals try dsimp only)

theorem Dev.repairFailed_sound {d : Dev} (h : d.Sound) (block : Nat) : (Dev.repairFailed d block).Sound := by
  unfold Dev.repairFailed
  try dsimp only
  repeat' first
    | with_reducible assumption
    | with_reducible apply Dev.ladderFailed_sound
    | with_reducible apply Dev.count_sound
    | with_reducible apply Dev.Sound.ite
    | with_reducible apply Dev.Sound.foldl
    | (intro _; intros; try dsimp only)

theorem Dev.inputLadders_sound {d : Dev} (h : d.Sound) (porter : Nat) (stroke : Nat) (region : Nat) (number : Nat) (job : Bool) (blocks : List Nat) : (Dev.inputLadders d porter stroke region number job blocks).Sound := by
  unfold Dev.inputLadders
  try dsimp only
  repeat' first
    | with_reducible assumption
    | with_reducible apply Dev.blockFailed_sound
    | with_reducible apply Dev.Sound.foldl
    | simp only [Dev.Sound.keepSdp]
    | (intro _; intros; try dsimp only)

theorem Dev.busyBy_sound {d : Dev} (h : d.Sound) (p : Nat) (n : Nat) : (Dev.busyBy d p n).Sound := by
  unfold Dev.busyBy
  try dsimp only
  repeat' first
    | with_reducible assumption
    | with_reducible apply Dev.setReg_sound
    | simp only [Dev.Sound.keepSdp]
    | (split; all_goals try dsimp only)

theorem Dev.dropJob_sound {d : Dev} (h : d.Sound) (j : Job) : (Dev.dropJob d j).Sound := by
  unfold Dev.dropJob
  try dsimp only
  repeat' first
    | with_reducible assumption
    | with_reducible apply Dev.placeJobs_sound
    | with_reducible apply Dev.mapJob_sound

theorem Dev.recompFailed_sound {d : Dev} (h : d.Sound) (r : StrokeRun) (q : Parcel) (kind : Nat) (j : Job) : (Dev.recompFailed d r q kind j).Sound := by
  unfold Dev.recompFailed
  try dsimp only
  repeat' first
    | with_reducible assumption
    | with_reducible apply Dev.unrecoverable_sound
    | with_reducible apply Dev.logParcel_sound

theorem Dev.auditResult_sound {d : Dev} (h : d.Sound) (r : StrokeRun) (q : Parcel) (j : Job) (v : Nat) : (Dev.auditResult d r q j v).Sound := by
  unfold Dev.auditResult
  try dsimp only
  repeat' first
    | with_reducible assumption
    | with_reducible apply Dev.count_sound
    | with_reducible apply Dev.addJob_sound
    | with_reducible apply Dev.raise_sound
    | with_reducible apply Dev.depEvent_sound
    | with_reducible apply Dev.Sound.ite
    | (intro _; intros; try dsimp only)

theorem Dev.tieResult_sound {d : Dev} (hk : d.Sound) (r : StrokeRun) (q : Parcel) (j : Job) (audit v : Nat) (px : List (List Byte)) (sealOk : Bool) (bad : List Nat) : (Dev.tieResult d r q j audit v px sealOk bad).Sound := by
  unfold Dev.tieResult
  try dsimp only
  repeat' first
    | with_reducible assumption
    | with_reducible apply Dev.logParcel_sound
    | with_reducible apply Dev.replaceParcel_sound
    | with_reducible apply Dev.sealedNews_sound
    | with_reducible apply Dev.recompFailed_sound
    | with_reducible apply Dev.Sound.ite
    | with_reducible apply Dev.Sound.ite_snd
    | with_reducible apply Dev.Sound.foldl
    | simp only [Dev.Sound.keep]
    | simp only [Dev.Sound.keepSdp]
    | (intro _; intros; try dsimp only)
    | dsimp only
    | (split; all_goals try dsimp only)

theorem Dev.twnResolve_sound {d : Dev} (hk : d.Sound) (stroke region number : Nat) (sealOk : Bool) : (Dev.twnResolve d stroke region number sealOk).Sound := by
  unfold Dev.twnResolve
  try dsimp only
  repeat' first
    | with_reducible assumption
    | with_reducible apply Dev.mapParcel_sound
    | with_reducible apply Dev.replaceParcel_sound
    | with_reducible apply Dev.count_sound
    | with_reducible apply Dev.logParcel_sound
    | with_reducible apply Dev.comparisonCheck_sound
    | with_reducible apply Dev.addJob_sound
    | with_reducible apply Dev.twnEvent_sound
    | with_reducible apply Dev.raise_sound
    | with_reducible apply Dev.Sound.ite
    | with_reducible apply Dev.Sound.ite_snd
    | with_reducible apply Dev.Sound.foldl
    | simp only [Dev.Sound.keep]
    | simp only [Dev.Sound.keepSdp]
    | (intro _; intros; try dsimp only)
    | dsimp only
    | (split; all_goals try dsimp only)

theorem Dev.writersDone_sound {d : Dev} (h : d.Sound) (stroke : Nat) : (Dev.writersDone d stroke).Sound := by
  unfold Dev.writersDone
  try dsimp only
  repeat' first
    | with_reducible assumption
    | with_reducible apply Dev.mapRuns_sound
    | with_reducible apply Dev.setFlag_sound
    | with_reducible apply Dev.raise_sound
    | with_reducible apply Dev.Sound.ite
    | with_reducible apply Dev.Sound.ite_snd
    | with_reducible apply Dev.Sound.foldl
    | simp only [Dev.Sound.keep]
    | simp only [Dev.Sound.keepSdp]
    | (intro _; intros; try dsimp only)
    | dsimp only
    | (split; all_goals try dsimp only)

theorem Dev.parcelOver_sound {d : Dev} (h : d.Sound) (stroke : Nat) : (Dev.parcelOver d stroke).Sound := by
  unfold Dev.parcelOver
  try dsimp only
  repeat' first
    | with_reducible assumption
    | with_reducible apply Dev.advanceDone_sound
    | with_reducible apply Dev.writersDone_sound

theorem Dev.sealAgainFailed_sound {d : Dev} (hk : d.Sound) (r : StrokeRun) (q : Parcel) (px : List (List Byte)) (bad : List Nat) (j : Job) (next : JobKind) : (Dev.sealAgainFailed d r q px bad j next).Sound := by
  unfold Dev.sealAgainFailed
  try dsimp only
  repeat' first
    | with_reducible assumption
    | with_reducible apply Dev.writeParcel_sound
    | with_reducible apply Dev.mapParcel_sound
    | with_reducible apply Dev.record_sound
    | with_reducible apply Dev.jobLost_sound
    | with_reducible apply Dev.count_sound
    | with_reducible apply Dev.addJob_sound
    | with_reducible apply Dev.Sound.ite
    | with_reducible apply Dev.Sound.ite_snd
    | with_reducible apply Dev.Sound.foldl
    | simp only [Dev.Sound.keep]
    | simp only [Dev.Sound.keepSdp]
    | (intro _; intros; try dsimp only)
    | dsimp only
    | (split; all_goals try dsimp only)

theorem Dev.finishJob_sound {d : Dev} (h : d.Sound) (p : Nat) (j : Job) (r : StrokeRun) (q : Parcel) (sealOk : Bool) (bad : List Nat) (err : Option (List Byte)) : (Dev.finishJob d p j r q sealOk bad err).Sound := by
  unfold Dev.finishJob
  try dsimp only
  repeat' first
    | with_reducible assumption
    | with_reducible apply Dev.jobLost_sound
    | with_reducible apply Dev.dropJob_sound
    | with_reducible apply Dev.unrecoverable_sound
    | with_reducible apply Dev.orphanLadders_sound
    | with_reducible apply Dev.logParcel_sound
    | with_reducible apply Dev.parcelOver_sound
    | with_reducible apply Dev.memWake_sound
    | with_reducible apply Dev.mapJob_sound
    | with_reducible apply Dev.inputLadders_sound
    | with_reducible apply Dev.busyBy_sound
    | with_reducible apply Dev.count_sound
    | with_reducible apply Dev.sealAgain_sound
    | with_reducible apply Dev.sealAgainFailed_sound
    | with_reducible apply Dev.writeParcel_sound
    | with_reducible apply Dev.recompFailed_sound
    | with_reducible apply Dev.record_sound
    | with_reducible apply Dev.audit_sound
    | with_reducible apply Dev.auditResult_sound
    | with_reducible apply Dev.tieResult_sound
    | with_reducible apply Dev.mapParcel_sound
    | with_reducible apply Dev.twnSend_sound
    | with_reducible apply Dev.twnResolve_sound
    | with_reducible apply Dev.Sound.ite
    | with_reducible apply Dev.Sound.ite_snd
    | with_reducible apply Dev.Sound.foldl
    | simp only [Dev.Sound.keep]
    | simp only [Dev.Sound.keepSdp]
    | (intro _; intros; try dsimp only)
    | dsimp only
    | (split; all_goals try dsimp only)

theorem Dev.parityErrors_sound {d : Dev} (hk : d.Sound) (porter stroke region number n : Nat) : (Dev.parityErrors d porter stroke region number n).Sound := by
  unfold Dev.parityErrors
  try dsimp only
  repeat' first
    | with_reducible assumption
    | with_reducible apply Dev.count_sound
    | with_reducible apply Dev.logParcel_sound
    | with_reducible apply Dev.Sound.ite
    | with_reducible apply Dev.Sound.ite_snd
    | with_reducible apply Dev.Sound.foldl
    | simp only [Dev.Sound.keep]
    | simp only [Dev.Sound.keepSdp]
    | (intro _; intros; try dsimp only)
    | dsimp only
    | (split; all_goals try dsimp only)

theorem Dev.finishParcel_sound {d : Dev} (h : d.Sound) (p : Nat) (r : StrokeRun) (q : Parcel) (sealOk : Bool) (bad : List Nat) (err : Option (List Byte)) : (Dev.finishParcel d p r q sealOk bad err).Sound := by
  unfold Dev.finishParcel
  try dsimp only
  repeat' first
    | with_reducible assumption
    | with_reducible apply Dev.unrecoverable_sound
    | with_reducible apply Dev.logParcel_sound
    | with_reducible apply Dev.parcelOver_sound
    | with_reducible apply Dev.memWake_sound
    | with_reducible apply Dev.mapParcel_sound
    | with_reducible apply Dev.inputLadders_sound
    | with_reducible apply Dev.busyBy_sound
    | with_reducible apply Dev.count_sound
    | with_reducible apply Dev.writeParcel_sound
    | with_reducible apply Dev.memStore_sound
    | with_reducible apply Dev.sealedNews_sound
    | with_reducible apply Dev.auditAsk_sound
    | with_reducible apply Dev.addJob_sound
    | with_reducible apply Dev.Sound.ite
    | with_reducible apply Dev.Sound.ite_snd
    | with_reducible apply Dev.Sound.foldl
    | with_reducible apply Dev.Sound.foldl_fst
    | simp only [Dev.Sound.keep]
    | simp only [Dev.Sound.keepSdp]
    | (intro _; intros; try dsimp only)
    | dsimp only
    | (split; all_goals try dsimp only)

theorem Dev.parcelComposed_sound {d : Dev} (h : d.Sound) (p : Nat) (sealOk : Bool) (bad : List Nat) (parity : Nat) (err : Option (List Byte)) : (Dev.parcelComposed d p sealOk bad parity err).Sound := by
  unfold Dev.parcelComposed
  try dsimp only
  repeat' first
    | with_reducible assumption
    | with_reducible apply Dev.jobLost_sound
    | with_reducible apply Dev.dropJob_sound
    | with_reducible apply Dev.parityErrors_sound
    | with_reducible apply Dev.finishJob_sound
    | with_reducible apply Dev.finishParcel_sound
    | with_reducible apply Dev.Sound.ite
    | with_reducible apply Dev.Sound.ite_snd
    | with_reducible apply Dev.Sound.foldl
    | simp only [Dev.Sound.keep]
    | simp only [Dev.Sound.keepSdp]
    | (intro _; intros; try dsimp only)
    | dsimp only
    | (split; all_goals try dsimp only)

theorem Dev.comparisonEnd_sound {d : Dev} (h : d.Sound) (u : Nat) : (Dev.comparisonEnd d u).Sound := by
  unfold Dev.comparisonEnd
  try dsimp only
  repeat' first
    | with_reducible assumption
    | with_reducible apply Dev.countBy_sound
    | with_reducible apply Dev.comparisonOver_sound
    | with_reducible apply Dev.Sound.ite
    | (intro _; intros; try dsimp only)
    | (split; all_goals try dsimp only)

theorem Dev.ladderCured_sound {d : Dev} (h : d.Sound) (l : Ladder) (outcome : Nat) : (Dev.ladderCured d l outcome).Sound := by
  unfold Dev.ladderCured
  try dsimp only
  repeat' first
    | with_reducible assumption
    | with_reducible apply Dev.plainLadder_sound
    | with_reducible apply Dev.logLadder_sound
    | with_reducible apply Dev.readerResumes_sound
    | with_reducible apply Dev.Sound.ite
    | with_reducible apply Dev.Sound.ite_snd
    | with_reducible apply Dev.Sound.foldl
    | simp only [Dev.Sound.keep]
    | simp only [Dev.Sound.keepSdp]
    | (intro _; intros; try dsimp only)
    | dsimp only
    | (split; all_goals try dsimp only)

theorem Dev.strokeLate_sound {d : Dev} (h : d.Sound) (region : Nat) : (Dev.strokeLate d region).Sound := by
  unfold Dev.strokeLate
  try dsimp only
  repeat' first
    | with_reducible assumption
    | with_reducible apply Dev.mapRuns_sound
    | with_reducible apply Dev.setFlag_sound
    | with_reducible apply Dev.count_sound
    | with_reducible apply Dev.raise_sound
    | with_reducible apply Dev.Sound.ite
    | with_reducible apply Dev.Sound.ite_snd
    | with_reducible apply Dev.Sound.foldl
    | simp only [Dev.Sound.keep]
    | simp only [Dev.Sound.keepSdp]
    | (intro _; intros; try dsimp only)
    | dsimp only
    | (split; all_goals try dsimp only)

theorem Dev.rereadFailed_sound {d : Dev} (h : d.Sound) (l : Ladder) : (Dev.rereadFailed d l).Sound := by
  unfold Dev.rereadFailed
  try dsimp only
  repeat' first
    | with_reducible assumption
    | with_reducible apply Dev.ladderFailed_sound
    | with_reducible apply Dev.failedAgain_sound
    | with_reducible apply Dev.corrupt_sound
    | with_reducible apply Dev.twnSend_sound
    | with_reducible apply Dev.count_sound
    | with_reducible apply Dev.Sound.ite
    | simp only [Dev.Sound.keepSdp]
    | (intro _; intros; try dsimp only)

theorem Dev.reread_sound {d : Dev} (h : d.Sound) (block : Nat) (staging : Bool) (ok : Bool) : (Dev.reread d block staging ok).Sound := by
  unfold Dev.reread
  try dsimp only
  repeat' first
    | with_reducible assumption
    | with_reducible apply Dev.memWake_sound
    | with_reducible apply Dev.count_sound
    | with_reducible apply Dev.ladderCured_sound
    | with_reducible apply Dev.rereadFailed_sound
    | with_reducible apply Dev.Sound.ite
    | with_reducible apply Dev.Sound.ite_snd
    | with_reducible apply Dev.Sound.foldl
    | simp only [Dev.Sound.keep]
    | simp only [Dev.Sound.keepSdp]
    | (intro _; intros; try dsimp only)
    | dsimp only
    | (split; all_goals try dsimp only)

theorem Dev.controlLost_sound {d : Dev} (h : d.Sound) (word : Nat) : (Dev.controlLost d word).Sound := by
  unfold Dev.controlLost
  try dsimp only
  repeat' first
    | with_reducible assumption
    | with_reducible apply Dev.setFlag_sound
    | with_reducible apply Dev.raiseIf_sound
    | with_reducible apply Dev.Sound.ite
    | with_reducible apply Dev.Sound.ite_snd
    | with_reducible apply Dev.Sound.foldl
    | simp only [Dev.Sound.keep]
    | simp only [Dev.Sound.keepSdp]
    | (intro _; intros; try dsimp only)
    | dsimp only
    | (split; all_goals try dsimp only)

theorem Dev.auditDrop_sound {d : Dev} (h : d.Sound) (stroke : Nat) (region : Nat) (number : Nat) : (Dev.auditDrop d stroke region number).Sound := by
  unfold Dev.auditDrop
  try dsimp only
  repeat' first
    | with_reducible assumption
    | with_reducible apply Dev.count_sound
    | with_reducible apply Dev.dropJob_sound
    | (split; all_goals try dsimp only)

theorem Dev.parcelAbandon_sound {d : Dev} (h : d.Sound) (p : Nat) : (Dev.parcelAbandon d p).Sound := by
  unfold Dev.parcelAbandon
  try dsimp only
  repeat' first
    | with_reducible assumption
    | with_reducible apply Dev.mapRuns_sound
    | with_reducible apply Dev.mapParcel_sound
    | with_reducible apply Dev.advanceDone_sound
    | with_reducible apply Dev.Sound.ite
    | with_reducible apply Dev.Sound.ite_snd
    | with_reducible apply Dev.Sound.foldl
    | simp only [Dev.Sound.keep]
    | simp only [Dev.Sound.keepSdp]
    | (intro _; intros; try dsimp only)
    | dsimp only
    | (split; all_goals try dsimp only)

theorem Dev.lift_sound {d : Dev} (h : d.Sound) (p : Nat) : (Dev.lift d p).Sound := by
  unfold Dev.lift
  try dsimp only
  repeat' first
    | with_reducible assumption
    | with_reducible apply Dev.setStrokes_sound
    | with_reducible apply Dev.count_sound
    | with_reducible apply Dev.countBy_sound
    | with_reducible apply Dev.busyBy_sound
    | with_reducible apply Dev.Sound.ite
    | with_reducible apply Dev.Sound.ite_snd
    | with_reducible apply Dev.Sound.foldl
    | simp only [Dev.Sound.keep]
    | simp only [Dev.Sound.keepSdp]
    | (intro _; intros; try dsimp only)
    | dsimp only
    | (split; all_goals try dsimp only)

theorem Dev.repairDone_sound {d : Dev} (h : d.Sound) (block : Nat) (bs : List Byte) : (Dev.repairDone d block bs).Sound := by
  unfold Dev.repairDone
  try dsimp only
  repeat' first
    | with_reducible assumption
    | with_reducible apply Dev.memStore_sound
    | with_reducible apply Dev.ladderCured_sound
    | with_reducible apply Dev.count_sound
    | with_reducible apply Dev.Sound.ite
    | with_reducible apply Dev.Sound.foldl
    | (intro _; intros; try dsimp only)

theorem Dev.secded_sound {d : Dev} (hk : d.Sound) (ecc : Ecc) (store outcome : Nat) (stroke region parcel : Nat := 0) : (Dev.secded d ecc store outcome stroke region parcel).Sound := by
  unfold Dev.secded
  try dsimp only
  repeat' first
    | with_reducible assumption
    | with_reducible apply Dev.secdedCorrected_sound
    | with_reducible apply Dev.secdedBad_sound
    | with_reducible apply Dev.Sound.ite
    | with_reducible apply Dev.Sound.ite_snd
    | with_reducible apply Dev.Sound.foldl
    | simp only [Dev.Sound.keep]
    | simp only [Dev.Sound.keepSdp]
    | (intro _; intros; try dsimp only)
    | dsimp only
    | (split; all_goals try dsimp only)

theorem Dev.reservedLost_sound {d : Dev} (hk : d.Sound) (content block : Nat) : (Dev.reservedLost d content block).Sound := by
  unfold Dev.reservedLost
  try dsimp only
  repeat' first
    | with_reducible assumption
    | with_reducible apply Dev.reservedWake_sound
    | with_reducible apply Dev.count_sound
    | with_reducible apply Dev.depEvent_sound
    | with_reducible apply Dev.raise_sound
    | with_reducible apply Dev.Sound.ite
    | with_reducible apply Dev.Sound.ite_snd
    | with_reducible apply Dev.Sound.foldl
    | simp only [Dev.Sound.keep]
    | simp only [Dev.Sound.keepSdp]
    | (intro _; intros; try dsimp only)
    | dsimp only
    | (split; all_goals try dsimp only)

theorem Dev.reserved_sound {d : Dev} (hk : d.Sound) (ecc : Ecc) (content block outcome : Nat) (stroke region parcel : Nat := 0) : (Dev.reserved d ecc content block outcome stroke region parcel).Sound := by
  unfold Dev.reserved
  try dsimp only
  repeat' first
    | with_reducible assumption
    | with_reducible apply Dev.reservedWake_sound
    | with_reducible apply Dev.count_sound
    | with_reducible apply Dev.depLog_sound
    | with_reducible apply Dev.reservedLost_sound
    | with_reducible apply Dev.Sound.ite
    | with_reducible apply Dev.Sound.ite_snd
    | with_reducible apply Dev.Sound.foldl
    | simp only [Dev.Sound.keep]
    | simp only [Dev.Sound.keepSdp]
    | (intro _; intros; try dsimp only)
    | dsimp only
    | (split; all_goals try dsimp only)

theorem Dev.parcelStart_sound {d : Dev} (hk : d.Sound) (p : Nat) (ecc list : Ecc) : (Dev.parcelStart d p ecc list).Sound := by
  unfold Dev.parcelStart
  try dsimp only
  repeat' first
    | with_reducible assumption
    | with_reducible apply Dev.secded_sound
    | with_reducible apply Dev.reserved_sound
    | with_reducible apply Dev.mapParcel_sound
    | with_reducible apply Dev.Sound.ite
    | with_reducible apply Dev.Sound.ite_snd
    | with_reducible apply Dev.Sound.foldl
    | simp only [Dev.Sound.keep]
    | simp only [Dev.Sound.keepSdp]
    | (intro _; intros; try dsimp only)
    | dsimp only
    | (split; all_goals try dsimp only)

theorem Dev.jobStart_sound {d : Dev} (hk : d.Sound) (p : Nat) (audit : Bool) (ecc : Ecc) : (Dev.jobStart d p audit ecc).Sound := by
  unfold Dev.jobStart
  try dsimp only
  repeat' first
    | with_reducible assumption
    | with_reducible apply Dev.secded_sound
    | with_reducible apply Dev.mapJob_sound
    | with_reducible apply Dev.Sound.ite
    | with_reducible apply Dev.Sound.ite_snd
    | with_reducible apply Dev.Sound.foldl
    | simp only [Dev.Sound.keep]
    | simp only [Dev.Sound.keepSdp]
    | (intro _; intros; try dsimp only)
    | dsimp only
    | (split; all_goals try dsimp only)

/-! ### Settle -/

theorem Dev.setPlate_sound {d : Dev} (h : d.Sound) (r : Nat) (p : Plate) : (Dev.setPlate d r p).Sound := by
  unfold Dev.setPlate
  try dsimp only
  repeat' first
    | with_reducible assumption
    | with_reducible apply Dev.reservedWake_sound
    | with_reducible apply Dev.setReg_sound
    | with_reducible apply Dev.setFld_sound
    | with_reducible apply Dev.Sound.ite
    | with_reducible apply Dev.Sound.ite_snd
    | with_reducible apply Dev.Sound.foldl
    | simp only [Dev.Sound.keep]
    | simp only [Dev.Sound.keepSdp]
    | (intro _; intros; try dsimp only)
    | dsimp only
    | (split; all_goals try dsimp only)

theorem Dev.markLost_sound {d : Dev} (h : d.Sound) (r : Nat) : (Dev.markLost d r).Sound := by
  unfold Dev.markLost
  try dsimp only
  repeat' first
    | with_reducible assumption
    | with_reducible apply Dev.setPlate_sound
    | with_reducible apply Dev.setFlag_sound
    | with_reducible apply Dev.count_sound
    | with_reducible apply Dev.raise_sound
    | with_reducible apply Dev.Sound.ite
    | with_reducible apply Dev.Sound.ite_snd
    | with_reducible apply Dev.Sound.foldl
    | simp only [Dev.Sound.keep]
    | simp only [Dev.Sound.keepSdp]
    | (intro _; intros; try dsimp only)
    | dsimp only
    | (split; all_goals try dsimp only)

theorem Dev.plateAdvance_sound {d : Dev} (h : d.Sound) (r : Nat) : (Dev.plateAdvance d r).Sound := by
  unfold Dev.plateAdvance
  try dsimp only
  repeat' first
    | with_reducible assumption
    | with_reducible apply Dev.setPlate_sound
    | with_reducible apply Dev.setFlag_sound
    | with_reducible apply Dev.count_sound
    | with_reducible apply Dev.raise_sound
    | with_reducible apply Dev.markLost_sound
    | with_reducible apply Dev.Sound.ite
    | with_reducible apply Dev.Sound.ite_snd
    | with_reducible apply Dev.Sound.foldl
    | simp only [Dev.Sound.keep]
    | simp only [Dev.Sound.keepSdp]
    | (intro _; intros; try dsimp only)
    | dsimp only
    | (split; all_goals try dsimp only)

theorem Dev.plateCommit_sound {d : Dev} (h : d.Sound) (r : Nat) : (Dev.plateCommit d r).Sound := by
  unfold Dev.plateCommit
  try dsimp only
  repeat' first
    | with_reducible assumption
    | with_reducible apply Dev.refuse_sound
    | with_reducible apply Dev.plateAdvance_sound
    | with_reducible apply Dev.Sound.ite
    | (intro _; intros; try dsimp only)

theorem Dev.plateStarve_sound {d : Dev} (h : d.Sound) (r : Nat) : (Dev.plateStarve d r).Sound := by
  unfold Dev.plateStarve
  try dsimp only
  repeat' first
    | with_reducible assumption
    | with_reducible apply Dev.raise_sound
    | with_reducible apply Dev.count_sound
    | with_reducible apply Dev.setFlag_sound

theorem Dev.platePlay_sound {d : Dev} (h : d.Sound) (r : Nat) : (Dev.platePlay d r).Sound := by
  unfold Dev.platePlay
  try dsimp only
  repeat' first
    | with_reducible assumption
    | with_reducible apply Dev.setPlate_sound
    | with_reducible apply Dev.plateStarve_sound
    | with_reducible apply Dev.Sound.ite
    | (intro _; intros; try dsimp only)

theorem Dev.plateMark_sound {d : Dev} (h : d.Sound) (r : Nat) (f : Nat) (late : Bool) : (Dev.plateMark d r f late).Sound := by
  unfold Dev.plateMark
  try dsimp only
  repeat' first
    | with_reducible assumption
    | with_reducible apply Dev.setPlate_sound
    | with_reducible apply Dev.setFld_sound
    | with_reducible apply Dev.markLost_sound
    | with_reducible apply Dev.Sound.ite
    | (intro _; intros; try dsimp only)

theorem Dev.leaveCopies_sound {d : Dev} (h : d.Sound) (k : Nat) : (Dev.leaveCopies d k).Sound := by
  unfold Dev.leaveCopies
  try dsimp only
  repeat' first
    | with_reducible assumption
    | simp only [Dev.Sound.keepSdp]
    | (split; all_goals try dsimp only)

theorem Dev.setFrame_sound {d : Dev} (hk : d.Sound) (i frame : Nat) (kept : Bool) : (Dev.setFrame d i frame kept).Sound := by
  unfold Dev.setFrame
  try dsimp only
  repeat' first
    | with_reducible assumption
    | with_reducible apply Dev.Sound.ite
    | with_reducible apply Dev.Sound.ite_snd
    | with_reducible apply Dev.Sound.foldl
    | simp only [Dev.Sound.keep]
    | simp only [Dev.Sound.keepSdp]
    | (intro _; intros; try dsimp only)
    | dsimp only
    | (split; all_goals try dsimp only)

theorem Dev.plateBuffers_sound {d : Dev} (h : d.Sound) : (Dev.plateBuffers d).Sound := by
  unfold Dev.plateBuffers
  try dsimp only
  repeat' first
    | with_reducible assumption
    | with_reducible apply Dev.setFrame_sound
    | with_reducible apply Dev.setPair_sound
    | with_reducible apply Dev.setFld_sound
    | with_reducible apply Dev.Sound.ite
    | with_reducible apply Dev.Sound.ite_snd
    | with_reducible apply Dev.Sound.foldl
    | with_reducible apply Dev.Sound.foldl_fst
    | simp only [Dev.Sound.keep]
    | simp only [Dev.Sound.keepSdp]
    | (intro _; intros; try dsimp only)
    | dsimp only
    | (split; all_goals try dsimp only)

theorem Dev.plateMarkSettle_sound {d : Dev} (h : d.Sound) (r : Nat) : (Dev.plateMarkSettle d r).Sound := by
  unfold Dev.plateMarkSettle
  try dsimp only
  repeat' first
    | with_reducible assumption
    | with_reducible apply Dev.plateMark_sound
    | with_reducible apply Dev.Sound.ite
    | (intro _; intros; try dsimp only)

theorem Dev.settledApply_sound {d : Dev} (h : d.Sound) (reserved : List SettledCopies) (k : Nat) : (Dev.settledApply d reserved k).Sound := by
  unfold Dev.settledApply
  try dsimp only
  repeat' first
    | with_reducible assumption
    | with_reducible apply Dev.leaveCopies_sound
    | with_reducible apply Dev.reservedWake_sound
    | with_reducible apply Dev.controlWritten_sound
    | with_reducible apply Dev.Sound.ite
    | with_reducible apply Dev.Sound.ite_snd
    | with_reducible apply Dev.Sound.foldl
    | simp only [Dev.Sound.keep]
    | simp only [Dev.Sound.keepSdp]
    | (intro _; intros; try dsimp only)
    | dsimp only
    | (split; all_goals try dsimp only)

theorem Dev.plateRead_sound {d : Dev} (hk : d.Sound) (r frame stroke : Nat) : (Dev.plateRead d r frame stroke).Sound := by
  unfold Dev.plateRead
  try dsimp only
  repeat' first
    | with_reducible assumption
    | with_reducible apply Dev.setPlate_sound
    | with_reducible apply Dev.Sound.ite
    | with_reducible apply Dev.Sound.ite_snd
    | with_reducible apply Dev.Sound.foldl
    | simp only [Dev.Sound.keep]
    | simp only [Dev.Sound.keepSdp]
    | (intro _; intros; try dsimp only)
    | dsimp only
    | (split; all_goals try dsimp only)

theorem Dev.writePlateGeom_sound {d : Dev} (h : d.Sound) (r : Nat) (key : Nat) (v : Nat) : (Dev.writePlateGeom d r key v).Sound := by
  unfold Dev.writePlateGeom
  try dsimp only
  repeat' first
    | with_reducible assumption
    | with_reducible apply Dev.refuse_sound
    | with_reducible apply Dev.genericWrite_sound
    | with_reducible apply Dev.Sound.ite
    | (intro _; intros; try dsimp only)

theorem Dev.plateTidy_sound {d : Dev} (h : d.Sound) : (Dev.plateTidy d).Sound := by
  unfold Dev.plateTidy
  try dsimp only
  repeat' first
    | with_reducible assumption
    | with_reducible apply Dev.setPlate_sound
    | with_reducible apply Dev.Sound.foldl
    | (intro _; intros; try dsimp only)

theorem Dev.cutContexts_sound {d : Dev} (hk : d.Sound) (ks : List Nat) : (Dev.cutContexts d ks).Sound := by
  have set_all (l : List Nat) (t : Tab Ctx) (ht : Tab.wf (fun _ => {}) t = true) :
      Tab.wf (fun _ => {}) (l.foldl (fun t k => t.set (fun _ => {}) k { t.get (fun _ => {}) k with cut := true }) t) = true := by
    induction l generalizing t with
    | nil => exact ht
    | cons k l ih => exact ih _ (Tab.wf_set ht _ _)
  exact { hk with ctxs := set_all ks _ hk.ctxs }

theorem Dev.plateCut_sound {d : Dev} (hk : d.Sound) (r : Nat) : (Dev.plateCut d r).Sound := by
  unfold Dev.plateCut
  try dsimp only
  repeat' first
    | with_reducible assumption
    | with_reducible apply Dev.cutContexts_sound
    | with_reducible apply Dev.Sound.ite
    | with_reducible apply Dev.Sound.ite_snd
    | with_reducible apply Dev.Sound.foldl
    | simp only [Dev.Sound.keep]
    | simp only [Dev.Sound.keepSdp]
    | (intro _; intros; try dsimp only)
    | dsimp only
    | (split; all_goals try dsimp only)

theorem Dev.writePlateCtrl_sound {d : Dev} (h : d.Sound) (r : Nat) (v : Nat) : (Dev.writePlateCtrl d r v).Sound := by
  unfold Dev.writePlateCtrl
  try dsimp only
  repeat' first
    | with_reducible assumption
    | with_reducible apply Dev.genericWrite_sound
    | with_reducible apply Dev.plateCut_sound
    | with_reducible apply Dev.setFld_sound
    | with_reducible apply Dev.refuse_sound
    | with_reducible apply Dev.Sound.ite
    | with_reducible apply Dev.Sound.ite_snd
    | with_reducible apply Dev.Sound.foldl
    | simp only [Dev.Sound.keep]
    | simp only [Dev.Sound.keepSdp]
    | (intro _; intros; try dsimp only)
    | dsimp only
    | (split; all_goals try dsimp only)

theorem Dev.plateLatch_sound {d : Dev} (h : d.Sound) (deals : Bool) : (Dev.plateLatch d deals).Sound := by
  unfold Dev.plateLatch
  try dsimp only
  repeat' first
    | with_reducible assumption
    | with_reducible apply Dev.plateMarkSettle_sound
    | with_reducible apply Dev.platePlay_sound
    | with_reducible apply Dev.plateBuffers_sound
    | with_reducible apply Dev.Sound.ite
    | with_reducible apply Dev.Sound.foldl
    | (intro _; intros; try dsimp only)

theorem Dev.plateAction_sound {d : Dev} (h : d.Sound) (r : Nat) (action : Nat) (frame : Nat) (explicit : Bool) : (Dev.plateAction d r action frame explicit).2.Sound := by
  unfold Dev.plateAction
  try dsimp only
  repeat' first
    | with_reducible assumption
    | with_reducible apply Dev.setPlate_sound
    | with_reducible apply Dev.plateMark_sound
    | with_reducible apply Dev.setFlag_sound
    | with_reducible apply Dev.Sound.ite
    | with_reducible apply Dev.Sound.ite_snd
    | simp only [Dev.Sound.keepSdp]
    | (intro _; intros; try dsimp only)
    | (split; all_goals try dsimp only)

theorem Dev.showSettled_sound {d : Dev} (h : d.Sound) (k : Nat) (fused : Bool) (reads : Bool) : (Dev.showSettled d k fused reads).Sound := by
  unfold Dev.showSettled
  try dsimp only
  repeat' first
    | with_reducible assumption
    | with_reducible apply Dev.setFld_sound
    | (split; all_goals try dsimp only)

theorem Dev.freeCopies_sound {d : Dev} (h : d.Sound) : (Dev.freeCopies d).Sound := by
  unfold Dev.freeCopies
  try dsimp only
  repeat' first
    | with_reducible assumption
    | simp only [Dev.Sound.keepSdp]

/-! ### Deal -/

theorem Dev.roundFree_sound {d : Dev} (h : d.Sound) (x : Rat) : (Dev.roundFree d x).2.Sound := by
  unfold Dev.roundFree
  try dsimp only
  repeat' first
    | with_reducible assumption
    | with_reducible apply Dev.freshBool_sound
    | with_reducible apply Dev.Sound.ite_snd
    | simp only [Dev.Sound.keepSdp]
    | (intro _; intros; try dsimp only)

theorem Dev.updateAdm_sound {d : Dev} (h : d.Sound) : (Dev.updateAdm d).Sound := by
  unfold Dev.updateAdm
  try dsimp only
  repeat' first
    | with_reducible assumption
    | with_reducible apply Dev.freshNat_sound
    | with_reducible apply Dev.roundFree_sound
    | with_reducible apply Dev.setReg_sound
    | with_reducible apply Dev.Sound.ite
    | with_reducible apply Dev.Sound.ite_snd
    | with_reducible apply Dev.Sound.foldl
    | with_reducible apply Dev.Sound.foldl_fst
    | simp only [Dev.Sound.keep]
    | simp only [Dev.Sound.keepSdp]
    | (intro _; intros; try dsimp only)
    | dsimp only
    | (split; all_goals try dsimp only)

theorem Dev.useLayers_sound {d : Dev} (hk : d.Sound) (layers : List Nat) (s : Nat) : (Dev.useLayers d layers s).Sound := by
  unfold Dev.useLayers
  try dsimp only
  repeat' first
    | with_reducible assumption
    | with_reducible apply Dev.Sound.ite
    | with_reducible apply Dev.Sound.ite_snd
    | with_reducible apply Dev.Sound.foldl
    | simp only [Dev.Sound.keep]
    | simp only [Dev.Sound.keepSdp]
    | (intro _; intros; try dsimp only)
    | dsimp only
    | (split; all_goals try dsimp only)

theorem Dev.replayStroke_sound {d : Dev} (h : d.Sound) (s : Nat) : (Dev.replayStroke d s).Sound := by
  unfold Dev.replayStroke
  try dsimp only
  repeat' first
    | with_reducible assumption
    | with_reducible apply Dev.setStrokes_sound
    | with_reducible apply Dev.useLayers_sound
    | with_reducible apply Dev.plateRead_sound
    | with_reducible apply Dev.Sound.ite
    | with_reducible apply Dev.Sound.ite_snd
    | with_reducible apply Dev.Sound.foldl
    | with_reducible apply Dev.Sound.foldl_fst
    | simp only [Dev.Sound.keep]
    | simp only [Dev.Sound.keepSdp]
    | (intro _; intros; try dsimp only)
    | dsimp only
    | (split; all_goals try dsimp only)

theorem Dev.setCoach_sound {d : Dev} (h : d.Sound) (p : Nat) (x : Coach) : (d.setCoach p x).Sound :=
  { h with coaches := Tab.wf_set h.coaches _ _ }

theorem Dev.useTick_sound {d : Dev} (h : d.Sound) : (Dev.useTick d).Sound := by
  unfold Dev.useTick
  try dsimp only
  repeat' first
    | with_reducible assumption
    | with_reducible apply Dev.roundFree_sound
    | with_reducible apply Dev.setFld_sound
    | with_reducible apply Dev.raise_sound
    | with_reducible apply Dev.count_sound
    | with_reducible apply Dev.setFlag_sound
    | with_reducible apply Dev.Sound.ite
    | simp only [Dev.Sound.keepSdp]
    | (intro _; intros; try dsimp only)

theorem Dev.forgetDiscarded_sound {d : Dev} (hk : d.Sound) (gone : List Nat) : (Dev.forgetDiscarded d gone).Sound := by
  unfold Dev.forgetDiscarded
  try dsimp only
  repeat' first
    | with_reducible assumption
    | with_reducible apply Dev.setPlate_sound
    | with_reducible apply Dev.Sound.ite
    | with_reducible apply Dev.Sound.ite_snd
    | with_reducible apply Dev.Sound.foldl
    | with_reducible apply Dev.Sound.foldl_fst
    | simp only [Dev.Sound.keep]
    | simp only [Dev.Sound.keepSdp]
    | (intro _; intros; try dsimp only)
    | dsimp only
    | (split; all_goals try dsimp only)

theorem Dev.liftingTidy_sound {d : Dev} (hk : d.Sound) : (Dev.liftingTidy d).Sound := by
  unfold Dev.liftingTidy
  try dsimp only
  repeat' first
    | with_reducible assumption
    | with_reducible apply Dev.Sound.ite
    | with_reducible apply Dev.Sound.ite_snd
    | with_reducible apply Dev.Sound.foldl
    | simp only [Dev.Sound.keep]
    | simp only [Dev.Sound.keepSdp]
    | (intro _; intros; try dsimp only)
    | dsimp only
    | (split; all_goals try dsimp only)

theorem Dev.withdraw_sound {d : Dev} (h : d.Sound) : (Dev.withdraw d).Sound := by
  unfold Dev.withdraw
  try dsimp only
  repeat' first
    | with_reducible assumption
    | with_reducible apply Dev.loseJobs_sound
    | with_reducible apply Dev.orphanLadders_sound
    | with_reducible apply Dev.mapRuns_sound
    | with_reducible apply Dev.forgetDiscarded_sound
    | with_reducible apply Dev.liftingTidy_sound
    | with_reducible apply Dev.advanceDone_sound
    | with_reducible apply Dev.Sound.ite
    | with_reducible apply Dev.Sound.ite_snd
    | with_reducible apply Dev.Sound.foldl
    | simp only [Dev.Sound.keep]
    | simp only [Dev.Sound.keepSdp]
    | (intro _; intros; try dsimp only)
    | dsimp only
    | (split; all_goals try dsimp only)

theorem Dev.dealSettled_sound {d : Dev} (hk : d.Sound) (ks : List Nat) (n lambda : Nat) : (Dev.dealSettled d ks n lambda).1.Sound := by
  refine Dev.Sound.foldl_fst _ hk ?_
  intro a k ha
  dsimp only
  split
  · exact ha
  · dsimp only
    repeat' first
      | with_reducible assumption
      | with_reducible apply Dev.count_sound
      | with_reducible apply Dev.Sound.ite
      | simp only [Dev.Sound.keep]
      | intro _

theorem Dev.dealStroke_sound {d : Dev} (h : d.Sound) (t : Timing) (n : Nat) (s : Nat) (p : Nat) : (Dev.dealStroke d t n s p).Sound := by
  unfold Dev.dealStroke
  try dsimp only
  repeat' first
    | with_reducible assumption
    | with_reducible apply Dev.dealSettled_sound
    | with_reducible apply Dev.reservedWakes_sound
    | with_reducible apply Dev.useLayers_sound
    | with_reducible apply Dev.plateRead_sound
    | with_reducible apply Dev.showSettled_sound
    | with_reducible apply Dev.Sound.ite
    | with_reducible apply Dev.Sound.ite_snd
    | with_reducible apply Dev.Sound.foldl
    | with_reducible apply Dev.Sound.foldl_fst
    | simp only [Dev.Sound.keep]
    | simp only [Dev.Sound.keepSdp]
    | (intro _; intros; try dsimp only)
    | dsimp only
    | (split; all_goals try dsimp only)

theorem Dev.deal_sound {d : Dev} (h : d.Sound) (n : Nat) : (Dev.deal d n).Sound := by
  unfold Dev.deal
  try dsimp only
  repeat' first
    | with_reducible assumption
    | with_reducible apply Dev.replayStroke_sound
    | with_reducible apply Dev.dealStroke_sound
    | with_reducible apply Dev.Sound.ite
    | (intro _; intros; try dsimp only)

theorem Dev.endLadder_sound {d : Dev} (hk : d.Sound) (l : Ladder) : (Dev.endLadder d l).Sound := by
  unfold Dev.endLadder
  try dsimp only
  repeat' first
    | with_reducible assumption
    | with_reducible apply Dev.ladderDamaged_sound
    | with_reducible apply Dev.logLadder_sound
    | with_reducible apply Dev.Sound.ite
    | with_reducible apply Dev.Sound.ite_snd
    | with_reducible apply Dev.Sound.foldl
    | simp only [Dev.Sound.keep]
    | simp only [Dev.Sound.keepSdp]
    | (intro _; intros; try dsimp only)
    | dsimp only
    | (split; all_goals try dsimp only)

theorem Dev.giveUpTables_sound {d : Dev} (hk : d.Sound) : (Dev.giveUpTables d).Sound := by
  unfold Dev.giveUpTables
  try dsimp only
  repeat' first
    | with_reducible assumption
    | with_reducible apply Dev.mapRuns_sound
    | with_reducible apply Dev.endLadder_sound
    | with_reducible apply Dev.loseJobs_sound
    | with_reducible apply Dev.liftingTidy_sound
    | with_reducible apply Dev.advanceDone_sound
    | with_reducible apply Dev.Sound.ite
    | with_reducible apply Dev.Sound.ite_snd
    | with_reducible apply Dev.Sound.foldl
    | simp only [Dev.Sound.keep]
    | simp only [Dev.Sound.keepSdp]
    | (intro _; intros; try dsimp only)
    | dsimp only
    | (split; all_goals try dsimp only)

theorem Dev.retireStrokes_sound {d : Dev} (h : d.Sound) : (Dev.retireStrokes d).Sound := by
  unfold Dev.retireStrokes
  try dsimp only
  repeat' first
    | with_reducible assumption
    | with_reducible apply Dev.giveUpTables_sound
    | with_reducible apply Dev.setStrokes_sound
    | with_reducible apply Dev.complete_sound
    | with_reducible apply Dev.Sound.ite
    | with_reducible apply Dev.Sound.ite_snd
    | with_reducible apply Dev.Sound.foldl
    | simp only [Dev.Sound.keep]
    | simp only [Dev.Sound.keepSdp]
    | (intro _; intros; try dsimp only)
    | dsimp only
    | (split; all_goals try dsimp only)

theorem Dev.abandonAll_sound {d : Dev} (h : d.Sound) : (Dev.abandonAll d).Sound := by
  unfold Dev.abandonAll
  try dsimp only
  repeat' first
    | with_reducible assumption
    | with_reducible apply Dev.loseJobs_sound
    | with_reducible apply Dev.orphanLadders_sound
    | with_reducible apply Dev.mapRuns_sound
    | with_reducible apply Dev.complete_sound
    | with_reducible apply Dev.advanceDone_sound
    | with_reducible apply Dev.Sound.ite
    | with_reducible apply Dev.Sound.ite_snd
    | with_reducible apply Dev.Sound.foldl
    | simp only [Dev.Sound.keep]
    | simp only [Dev.Sound.keepSdp]
    | (intro _; intros; try dsimp only)
    | dsimp only
    | (split; all_goals try dsimp only)

/-! ### Fences -/

theorem Dev.mirrorCopy_sound {d : Dev} (h : d.Sound) (c : Completion) : (Dev.mirrorCopy d c).Sound := by
  unfold Dev.mirrorCopy
  try dsimp only
  repeat' first
    | with_reducible assumption
    | with_reducible apply Dev.record_sound
    | (split; all_goals try dsimp only)

theorem Dev.completeSet_sound {d : Dev} (h : d.Sound) (q : QSet) (status : Nat) (m : Nat) (held : Nat) : (Dev.completeSet d q status m held).Sound := by
  unfold Dev.completeSet
  try dsimp only
  repeat' first
    | with_reducible assumption
    | with_reducible apply Dev.mirrorCopy_sound
    | with_reducible apply Dev.ringComplete_sound
    | with_reducible apply Dev.Sound.ite
    | simp only [Dev.Sound.keepSdp]
    | (intro _; intros; try dsimp only)
    | (split; all_goals try dsimp only)

theorem Dev.dequeue_sound {d : Dev} (h : d.Sound) (q : QSet) (applied : Bool) : (Dev.dequeue d q applied).Sound := by
  unfold Dev.dequeue
  try dsimp only
  repeat' first
    | with_reducible assumption
    | simp only [Dev.Sound.keepSdp]

theorem Dev.flushSets_sound {d : Dev} (h : d.Sound) (status : Nat) : (Dev.flushSets d status).Sound := by
  unfold Dev.flushSets
  try dsimp only
  repeat' first
    | with_reducible assumption
    | with_reducible apply Dev.unread_sound
    | with_reducible apply Dev.freshNat_sound
    | with_reducible apply Dev.dequeue_sound
    | with_reducible apply Dev.completeSet_sound
    | with_reducible apply Dev.Sound.ite
    | with_reducible apply Dev.Sound.ite_snd
    | with_reducible apply Dev.Sound.foldl
    | with_reducible apply Dev.Sound.foldl_fst
    | simp only [Dev.Sound.keep]
    | simp only [Dev.Sound.keepSdp]
    | (intro _; intros; try dsimp only)
    | dsimp only
    | (split; all_goals try dsimp only)

theorem Dev.waitsMet_sound {d : Dev} (hk : d.Sound) : (Dev.waitsMet d).Sound := by
  unfold Dev.waitsMet
  try dsimp only
  repeat' first
    | with_reducible assumption
    | with_reducible apply Dev.Sound.ite
    | with_reducible apply Dev.Sound.ite_snd
    | with_reducible apply Dev.Sound.foldl
    | simp only [Dev.Sound.keep]
    | simp only [Dev.Sound.keepSdp]
    | (intro _; intros; try dsimp only)
    | dsimp only
    | (split; all_goals try dsimp only)

theorem Dev.fenceWrite_sound {d : Dev} (h : d.Sound) (f : Nat) (v : Nat) : (Dev.fenceWrite d f v).Sound := by
  unfold Dev.fenceWrite
  try dsimp only
  repeat' first
    | with_reducible assumption
    | with_reducible apply Dev.setReg_sound
    | with_reducible apply Dev.waitsMet_sound
    | with_reducible apply Dev.raiseIf_sound
    | with_reducible apply Dev.Sound.ite
    | with_reducible apply Dev.Sound.ite_snd
    | with_reducible apply Dev.Sound.foldl
    | simp only [Dev.Sound.keep]
    | simp only [Dev.Sound.keepSdp]
    | (intro _; intros; try dsimp only)
    | dsimp only
    | (split; all_goals try dsimp only)

theorem Dev.flpEvent_sound {d : Dev} (h : d.Sound) (f : Fld) : (Dev.flpEvent d f).Sound := by
  unfold Dev.flpEvent
  try dsimp only
  repeat' first
    | with_reducible assumption
    | with_reducible apply Dev.setFlag_sound

end Sys2Proof.Machine
end

