-- ==== Sys2Proof/Laws/SoundScanout.lean ====
section
/-! SUPPORT. What keeps a device sound: flip sets, the blitter, Coach ports, checks, tallies and REFRAME. -/

set_option linter.unusedTactic false
set_option linter.unreachableTactic false
set_option linter.unusedSimpArgs false
set_option linter.unusedVariables false

namespace Sys2Proof.Machine

/-! ### TrunkLink -/

theorem Dev.setTlane_sound {d : Dev} (h : d.Sound) (p : Nat) (x : TrkLane) : (Dev.setTlane d p x).Sound := by
  unfold Dev.setTlane
  try dsimp only
  repeat' first
    | with_reducible assumption
    | with_reducible apply Dev.setFld_sound
    | simp only [Dev.Sound.keepSdp]

theorem Dev.trkEvent_sound {d : Dev} (h : d.Sound) (f : Fld) : (Dev.trkEvent d f).Sound := by
  unfold Dev.trkEvent
  try dsimp only
  repeat' first
    | with_reducible assumption
    | with_reducible apply Dev.setFlag_sound

theorem Dev.trkCodes_sound {d : Dev} (hk : d.Sound) (p : Nat) (bs : List Byte) : (Dev.trkCodes d p bs).Sound := by
  unfold Dev.trkCodes
  try dsimp only
  repeat' first
    | with_reducible assumption
    | with_reducible apply Dev.linkBytes_sound
    | with_reducible apply Dev.Sound.ite
    | with_reducible apply Dev.Sound.ite_snd
    | with_reducible apply Dev.Sound.foldl
    | simp only [Dev.Sound.keep]
    | simp only [Dev.Sound.keepSdp]
    | (intro _; intros; try dsimp only)
    | dsimp only
    | (split; all_goals try dsimp only)

theorem Dev.trkPut_sound {d : Dev} (h : d.Sound) (p : Nat) (session : List Byte) (seq : Nat) (f : TrunkFrame) : (Dev.trkPut d p session seq f).Sound := by
  unfold Dev.trkPut
  try dsimp only
  repeat' first
    | with_reducible assumption
    | with_reducible apply Dev.emit_sound
    | with_reducible apply Dev.trkCodes_sound
    | with_reducible apply Dev.freshNat_sound
    | with_reducible apply Dev.freshBytes_sound
    | with_reducible apply Dev.Sound.ite
    | with_reducible apply Dev.Sound.ite_snd
    | with_reducible apply Dev.Sound.foldl
    | simp only [Dev.Sound.keep]
    | simp only [Dev.Sound.keepSdp]
    | (intro _; intros; try dsimp only)
    | dsimp only
    | (split; all_goals try dsimp only)

theorem Dev.trkSendOn_sound {d : Dev} (h : d.Sound) (p : Nat) (f : TrunkFrame) : (Dev.trkSendOn d p f).Sound := by
  unfold Dev.trkSendOn
  try dsimp only
  repeat' first
    | with_reducible assumption
    | with_reducible apply Dev.setTlane_sound
    | with_reducible apply Dev.trkPut_sound
    | with_reducible apply Dev.freshNat_sound
    | with_reducible apply Dev.Sound.ite
    | (intro _; intros; try dsimp only)

theorem Dev.trkLeave_sound {d : Dev} (h : d.Sound) (cause : Nat) : (Dev.trkLeave d cause).Sound := by
  unfold Dev.trkLeave
  try dsimp only
  repeat' first
    | with_reducible assumption
    | with_reducible apply Dev.trkSendOn_sound
    | with_reducible apply Dev.Sound.foldl
    | (intro _; intros; try dsimp only)

theorem Dev.trkForget_sound {d : Dev} (h : d.Sound) : (Dev.trkForget d).Sound := by
  unfold Dev.trkForget
  try dsimp only
  repeat' first
    | with_reducible assumption
    | with_reducible apply Dev.Sound.ite
    | with_reducible apply Dev.Sound.ite_snd
    | with_reducible apply Dev.Sound.foldl
    | simp only [Dev.Sound.keep]
    | simp only [Dev.Sound.keepSdp]
    | (intro _; intros; try dsimp only)
    | dsimp only
    | (split; all_goals try dsimp only)

theorem Dev.trkTo_sound {d : Dev} (h : d.Sound) (x : Nat) : (Dev.trkTo d x).Sound := by
  unfold Dev.trkTo
  try dsimp only
  repeat' first
    | with_reducible assumption
    | with_reducible apply Dev.raise_sound
    | with_reducible apply Dev.trkEvent_sound
    | with_reducible apply Dev.setFld_sound
    | with_reducible apply Dev.Sound.ite
    | (intro _; intros; try dsimp only)

theorem Dev.trkQuit_sound {d : Dev} (h : d.Sound) (x : Nat) (leave : Option Nat) : (Dev.trkQuit d x leave).Sound := by
  unfold Dev.trkQuit
  try dsimp only
  repeat' first
    | with_reducible assumption
    | with_reducible apply Dev.trkLeave_sound
    | with_reducible apply Dev.trkForget_sound
    | with_reducible apply Dev.trkTo_sound
    | with_reducible apply Dev.Sound.ite
    | (intro _; intros; try dsimp only)
    | (split; all_goals try dsimp only)

theorem Dev.trkRoute_sound {d : Dev} (h : d.Sound) : (Dev.trkRoute d).Sound := by
  unfold Dev.trkRoute
  try dsimp only
  repeat' first
    | with_reducible assumption
    | with_reducible apply Dev.setFld_sound
    | with_reducible apply Dev.setReg_sound
    | with_reducible apply Dev.trkEvent_sound
    | with_reducible apply Dev.count_sound
    | with_reducible apply Dev.raise_sound
    | with_reducible apply Dev.trkQuit_sound
    | with_reducible apply Dev.Sound.ite
    | with_reducible apply Dev.Sound.ite_snd
    | with_reducible apply Dev.Sound.foldl
    | simp only [Dev.Sound.keep]
    | simp only [Dev.Sound.keepSdp]
    | (intro _; intros; try dsimp only)
    | dsimp only
    | (split; all_goals try dsimp only)

theorem Dev.laneAuth_sound {d : Dev} (h : d.Sound) (p : Nat) : (Dev.laneAuth d p).Sound := by
  unfold Dev.laneAuth
  try dsimp only
  repeat' first
    | with_reducible assumption
    | with_reducible apply Dev.freshBytes_sound
    | with_reducible apply Dev.setFld_sound
    | with_reducible apply Dev.setTlane_sound
    | with_reducible apply Dev.trkRoute_sound
    | with_reducible apply Dev.trkSendOn_sound

theorem Dev.stewardTick_sound {d : Dev} (h : d.Sound) (p : Nat) (f : TrunkFrame) (payload : List Byte) : (Dev.stewardTick d p f payload).Sound := by
  unfold Dev.stewardTick
  try dsimp only
  repeat' first
    | with_reducible assumption
    | with_reducible apply Dev.trkSendOn_sound
    | with_reducible apply Dev.Sound.ite
    | with_reducible apply Dev.Sound.ite_snd
    | with_reducible apply Dev.Sound.foldl
    | simp only [Dev.Sound.keep]
    | simp only [Dev.Sound.keepSdp]
    | (intro _; intros; try dsimp only)
    | dsimp only
    | (split; all_goals try dsimp only)

theorem Dev.trkFlood_sound {d : Dev} (h : d.Sound) (f : TrunkFrame) : (Dev.trkFlood d f).Sound := by
  unfold Dev.trkFlood
  try dsimp only
  repeat' first
    | with_reducible assumption
    | with_reducible apply Dev.stewardTick_sound
    | with_reducible apply Dev.trkSendOn_sound
    | with_reducible apply Dev.Sound.foldl
    | (intro _; intros; try dsimp only)
    | (split; all_goals try dsimp only)

theorem Dev.trkRelease_sound {d : Dev} (h : d.Sound) : (Dev.trkRelease d).Sound := by
  unfold Dev.trkRelease
  try dsimp only
  repeat' first
    | with_reducible assumption
    | with_reducible apply Dev.trkFlood_sound
    | with_reducible apply Dev.Sound.ite
    | with_reducible apply Dev.Sound.foldl
    | simp only [Dev.Sound.keepSdp]
    | (intro _; intros; try dsimp only)

theorem Dev.trkUp_sound {d : Dev} (h : d.Sound) (type_ : Nat) (payload : List Byte) : (Dev.trkUp d type_ payload).Sound := by
  unfold Dev.trkUp
  try dsimp only
  repeat' first
    | with_reducible assumption
    | with_reducible apply Dev.tlyAppend_sound
    | with_reducible apply Dev.trkSendOn_sound
    | with_reducible apply Dev.Sound.ite_snd
    | with_reducible apply Dev.Sound.foldl
    | simp only [Dev.Sound.keepSdp]
    | (intro _; intros; try dsimp only)

theorem Dev.driveLane_sound {d : Dev} (hk : d.Sound) (p state : Nat) (was : LaneDrive) : (Dev.driveLane d p state was).Sound := by
  unfold Dev.driveLane
  try dsimp only
  repeat' first
    | with_reducible assumption
    | with_reducible apply Dev.emit_sound
    | with_reducible apply Dev.Sound.ite
    | with_reducible apply Dev.Sound.ite_snd
    | with_reducible apply Dev.Sound.foldl
    | simp only [Dev.Sound.keep]
    | simp only [Dev.Sound.keepSdp]
    | (intro _; intros; try dsimp only)
    | dsimp only
    | (split; all_goals try dsimp only)

theorem Dev.laneTo_sound {d : Dev} (h : d.Sound) (p : Nat) (state : Nat) : (Dev.laneTo d p state).Sound := by
  unfold Dev.laneTo
  try dsimp only
  repeat' first
    | with_reducible assumption
    | with_reducible apply Dev.emit_sound
    | with_reducible apply Dev.setTlane_sound
    | with_reducible apply Dev.trkRoute_sound
    | with_reducible apply Dev.Sound.ite
    | with_reducible apply Dev.Sound.ite_snd
    | with_reducible apply Dev.Sound.foldl
    | simp only [Dev.Sound.keep]
    | simp only [Dev.Sound.keepSdp]
    | (intro _; intros; try dsimp only)
    | dsimp only
    | (split; all_goals try dsimp only)

theorem Dev.trkReleased_sound {d : Dev} (h : d.Sound) : (Dev.trkReleased d).Sound := by
  unfold Dev.trkReleased
  try dsimp only
  repeat' first
    | with_reducible assumption
    | with_reducible apply Dev.trkUp_sound
    | with_reducible apply Dev.Sound.foldl
    | simp only [Dev.Sound.keepSdp]
    | (intro _; intros; try dsimp only)

theorem Dev.trkDown_sound {d : Dev} (h : d.Sound) (type_ : Nat) (body : TrunkBody) : (Dev.trkDown d type_ body).Sound := by
  unfold Dev.trkDown
  try dsimp only
  repeat' first
    | with_reducible assumption
    | with_reducible apply Dev.tlyAppend_sound
    | with_reducible apply Dev.tlyAppendTold_sound
    | with_reducible apply Dev.twnMirror_sound
    | with_reducible apply Dev.trkFlood_sound
    | with_reducible apply Dev.Sound.ite
    | with_reducible apply Dev.Sound.ite_snd
    | simp only [Dev.Sound.keepSdp]
    | (intro _; intros; try dsimp only)
    | (split; all_goals try dsimp only)

theorem Dev.trkEnterAuth_sound {d : Dev} (h : d.Sound) : (Dev.trkEnterAuth d).Sound := by
  unfold Dev.trkEnterAuth
  try dsimp only
  repeat' first
    | with_reducible assumption
    | with_reducible apply Dev.trkTo_sound
    | with_reducible apply Dev.laneAuth_sound
    | with_reducible apply Dev.Sound.foldl
    | simp only [Dev.Sound.keepSdp]
    | (intro _; intros; try dsimp only)

/-! ### Flips -/

theorem Dev.releaseFence_sound {d : Dev} (h : d.Sound) (x : Displaced) : (Dev.releaseFence d x).Sound := by
  unfold Dev.releaseFence
  try dsimp only
  repeat' first
    | with_reducible assumption
    | with_reducible apply Dev.raise_sound
    | with_reducible apply Dev.fenceWrite_sound
    | with_reducible apply Dev.Sound.ite
    | (intro _; intros; try dsimp only)

theorem Dev.displace_sound {d : Dev} (h : d.Sound) (x : Displaced) : (Dev.displace d x).Sound := by
  unfold Dev.displace
  try dsimp only
  repeat' first
    | with_reducible assumption
    | with_reducible apply Dev.releaseFence_sound
    | simp only [Dev.Sound.keepSdp]
    | (split; all_goals try dsimp only)

theorem Dev.forgetUse_sound {d : Dev} (h : d.Sound) (layer : Nat) : (Dev.forgetUse d layer).Sound := by
  unfold Dev.forgetUse
  try dsimp only
  repeat' first
    | with_reducible assumption
    | simp only [Dev.Sound.keepSdp]

theorem Dev.applyFlip_sound {d : Dev} (h : d.Sound) (layer : Nat) (relEn : Bool) (buf : Nat) (relIdx : Nat) (relVal : Nat) (trunk : Option Nat) : (Dev.applyFlip d layer relEn buf relIdx relVal trunk).Sound := by
  unfold Dev.applyFlip
  try dsimp only
  repeat' first
    | with_reducible assumption
    | with_reducible apply Dev.setPair_sound
    | with_reducible apply Dev.setFld_sound
    | with_reducible apply Dev.forgetUse_sound
    | with_reducible apply Dev.displace_sound
    | with_reducible apply Dev.Sound.ite
    | with_reducible apply Dev.Sound.ite_snd
    | with_reducible apply Dev.Sound.foldl
    | simp only [Dev.Sound.keep]
    | simp only [Dev.Sound.keepSdp]
    | (intro _; intros; try dsimp only)
    | dsimp only
    | (split; all_goals try dsimp only)

theorem Dev.deferSet_sound {d : Dev} (h : d.Sound) (q : QSet) (stopped : Bool) : (Dev.deferSet d q stopped).Sound := by
  unfold Dev.deferSet
  try dsimp only
  repeat' first
    | with_reducible assumption
    | with_reducible apply Dev.raise_sound
    | with_reducible apply Dev.flpEvent_sound
    | with_reducible apply Dev.count_sound
    | with_reducible apply Dev.Sound.ite
    | simp only [Dev.Sound.keepSdp]
    | (intro _; intros; try dsimp only)

theorem Dev.dropSet_sound {d : Dev} (h : d.Sound) (q : QSet) (m : Nat) : (Dev.dropSet d q m).Sound := by
  unfold Dev.dropSet
  try dsimp only
  repeat' first
    | with_reducible assumption
    | with_reducible apply Dev.completeSet_sound
    | with_reducible apply Dev.dequeue_sound
    | with_reducible apply Dev.count_sound

theorem setLiveWord_wf {c : Cfg} (h : Tab.wf resetWord c = true) (w : Nat × Nat) : Tab.wf resetWord (setLiveWord c w) = true := by
  unfold setLiveWord cfgSet
  dsimp only
  split <;> exact Tab.wf_set h _ _

theorem liveAfter_wf {c : Cfg} (h : Tab.wf resetWord c = true) (ws : List (Nat × Nat)) :
    Tab.wf resetWord (liveAfter c ws) = true := by
  unfold liveAfter
  induction ws generalizing c with
  | nil => exact h
  | cons w ws ih => exact ih (setLiveWord_wf h w)

theorem Dev.applyStack_sound {d : Dev} (h : d.Sound) (layers : List Nat) (words : List (Nat × Nat)) (trunk : Option Nat) :
    (d.applyStack layers words trunk).Sound := by
  have h' : ({ d with regs := liveAfter d.regs words } : Dev).Sound := { h with regs := liveAfter_wf h.regs words }
  unfold Dev.applyStack
  dsimp only
  apply Dev.Sound.foldl
  · exact Dev.Sound.foldl _ h' fun d x hd => Dev.forgetUse_sound hd x
  · exact fun d x hd => Dev.displace_sound hd x

theorem Applying.member_sound {a : Applying} (h : a.dev.Sound) (held : Nat) (trunk : Option Nat) (i : Nat) (m : Member) :
    (a.member held trunk i m).dev.Sound := by
  unfold Applying.member
  split
  · split <;> dsimp only
    · exact Dev.displace_sound (Dev.count_sound h _) _
    · exact Dev.applyFlip_sound h _ _ _ _ _ _
  · exact Dev.applyStack_sound h _ _ _
  · exact Dev.plateAction_sound h _ _ _ _

theorem Applying.foldl_sound (l : List (Nat × Member)) {a : Applying} (h : a.dev.Sound) (held : Nat) (trunk : Option Nat) :
    (l.foldl (fun (a : Applying) e => a.member held trunk e.1 e.2) a).dev.Sound := by
  induction l generalizing a with
  | nil => exact h
  | cons x l ih => exact ih (Applying.member_sound h held trunk x.1 x.2)

theorem Dev.settledLeave_sound {d : Dev} (hk : d.Sound) : (Dev.settledLeave d).Sound := by
  unfold Dev.settledLeave
  try dsimp only
  repeat' first
    | with_reducible assumption
    | with_reducible apply Dev.leaveCopies_sound
    | with_reducible apply Dev.Sound.ite
    | with_reducible apply Dev.Sound.ite_snd
    | with_reducible apply Dev.Sound.foldl
    | simp only [Dev.Sound.keep]
    | simp only [Dev.Sound.keepSdp]
    | (intro _; intros; try dsimp only)
    | dsimp only
    | (split; all_goals try dsimp only)

theorem Dev.applySet_sound {d : Dev} (h : d.Sound) (q : QSet) (m held : Nat) : (d.applySet q m held).Sound := by
  unfold Dev.applySet
  try dsimp only
  repeat' first
    | with_reducible assumption
    | with_reducible apply Applying.foldl_sound
    | with_reducible apply Dev.settledApply_sound
    | with_reducible apply Dev.reserved_sound
    | with_reducible apply Dev.settledLeave_sound
    | with_reducible apply Dev.controlWritten_sound
    | with_reducible apply Dev.fenceWrite_sound
    | with_reducible apply Dev.markLost_sound
    | with_reducible apply Dev.count_sound
    | with_reducible apply Dev.flpEvent_sound
    | with_reducible apply Dev.raise_sound
    | with_reducible apply Dev.dequeue_sound
    | with_reducible apply Dev.completeSet_sound
    | with_reducible apply Dev.Sound.ite
    | with_reducible apply Dev.Sound.ite_snd
    | with_reducible apply Dev.Sound.foldl
    | with_reducible apply Dev.Sound.foldl_fst
    | simp only [Dev.Sound.keep]
    | simp only [Dev.Sound.keepSdp]
    | (intro _; intros; try dsimp only)
    | dsimp only
    | (split; all_goals try dsimp only)

theorem Dev.evalLocal_sound {d : Dev} (h : d.Sound) (q : QSet) (m : Nat) (mask : Nat) (stopped : Bool) : (Dev.evalLocal d q m mask stopped).Sound := by
  unfold Dev.evalLocal
  try dsimp only
  repeat' first
    | with_reducible assumption
    | with_reducible apply Dev.deferSet_sound
    | with_reducible apply Dev.dropSet_sound
    | with_reducible apply Dev.applySet_sound
    | with_reducible apply Dev.Sound.ite
    | (intro _; intros; try dsimp only)

theorem Dev.plateMarks_sound {d : Dev} (hk : d.Sound) : (Dev.plateMarks d).Sound := by
  unfold Dev.plateMarks
  try dsimp only
  repeat' first
    | with_reducible assumption
    | with_reducible apply Dev.plateMarkSettle_sound
    | with_reducible apply Dev.Sound.ite
    | with_reducible apply Dev.Sound.ite_snd
    | with_reducible apply Dev.Sound.foldl
    | simp only [Dev.Sound.keep]
    | simp only [Dev.Sound.keepSdp]
    | (intro _; intros; try dsimp only)
    | dsimp only
    | (split; all_goals try dsimp only)

theorem Dev.evalStoppedOnce_sound {d : Dev} (h : d.Sound) : (Dev.evalStoppedOnce d).Sound := by
  unfold Dev.evalStoppedOnce
  try dsimp only
  repeat' first
    | with_reducible assumption
    | with_reducible apply Dev.ack_sound
    | with_reducible apply Dev.evalLocal_sound
    | with_reducible apply Dev.plateMarks_sound
    | with_reducible apply Dev.plateBuffers_sound
    | with_reducible apply Dev.updateAdm_sound
    | with_reducible apply Dev.Sound.ite
    | with_reducible apply Dev.Sound.ite_snd
    | with_reducible apply Dev.Sound.foldl
    | simp only [Dev.Sound.keep]
    | simp only [Dev.Sound.keepSdp]
    | (intro _; intros; try dsimp only)
    | dsimp only
    | (split; all_goals try dsimp only)

theorem Dev.evalStopped_sound {d : Dev} (h : d.Sound) (n : Nat) : (d.evalStopped n).Sound := by
  induction n generalizing d with
  | zero => exact h
  | succ n ih =>
    unfold Dev.evalStopped
    dsimp only
    split
    · exact ih (Dev.evalStoppedOnce_sound h)
    · exact Dev.evalStoppedOnce_sound h

theorem Dev.flpEdge_sound {d : Dev} (h : d.Sound) : (Dev.flpEdge d).Sound := by
  unfold Dev.flpEdge
  try dsimp only
  repeat' first
    | with_reducible assumption
    | with_reducible apply Dev.evalStopped_sound
    | with_reducible apply Dev.Sound.ite
    | (intro _; intros; try dsimp only)

theorem Dev.giveSpace_sound {d : Dev} (hk : d.Sound) (more : List (Nat × SettledCopies)) (gains : List (Nat × List Nat)) : (Dev.giveSpace d more gains).Sound := by
  unfold Dev.giveSpace
  try dsimp only
  repeat' first
    | with_reducible assumption
    | with_reducible apply Dev.reserved_sound
    | with_reducible apply Dev.Sound.ite
    | with_reducible apply Dev.Sound.ite_snd
    | with_reducible apply Dev.Sound.foldl
    | simp only [Dev.Sound.keep]
    | simp only [Dev.Sound.keepSdp]
    | (intro _; intros; try dsimp only)
    | dsimp only
    | (split; all_goals try dsimp only)

theorem Dev.acceptSet_sound {d : Dev} (hk : d.Sound) (ws : List FusedWindow) (more : List (Nat × SettledCopies)) (gains : List (Nat × List Nat)) : (Dev.acceptSet d ws more gains).Sound := by
  unfold Dev.acceptSet
  try dsimp only
  repeat' first
    | with_reducible assumption
    | with_reducible apply Dev.giveSpace_sound
    | with_reducible apply Dev.Sound.ite
    | with_reducible apply Dev.Sound.ite_snd
    | with_reducible apply Dev.Sound.foldl
    | simp only [Dev.Sound.keep]
    | simp only [Dev.Sound.keepSdp]
    | (intro _; intros; try dsimp only)
    | dsimp only
    | (split; all_goals try dsimp only)

theorem Dev.putSet_sound {d : Dev} (hk : d.Sound) (q : QSet) : (Dev.putSet d q).Sound := by
  unfold Dev.putSet
  try dsimp only
  repeat' first
    | with_reducible assumption
    | with_reducible apply Dev.Sound.ite
    | with_reducible apply Dev.Sound.ite_snd
    | with_reducible apply Dev.Sound.foldl
    | simp only [Dev.Sound.keep]
    | simp only [Dev.Sound.keepSdp]
    | (intro _; intros; try dsimp only)
    | dsimp only
    | (split; all_goals try dsimp only)

theorem Dev.enqueue_sound {d : Dev} (hk : d.Sound) (q : QSet) (ws : List FusedWindow) (more : List (Nat × SettledCopies)) (gains : List (Nat × List Nat)) : (Dev.enqueue d q ws more gains).Sound := by
  unfold Dev.enqueue
  try dsimp only
  repeat' first
    | with_reducible assumption
    | with_reducible apply Dev.acceptSet_sound
    | with_reducible apply Dev.putSet_sound
    | with_reducible apply Dev.Sound.ite
    | with_reducible apply Dev.Sound.ite_snd
    | with_reducible apply Dev.Sound.foldl
    | simp only [Dev.Sound.keep]
    | simp only [Dev.Sound.keepSdp]
    | (intro _; intros; try dsimp only)
    | dsimp only
    | (split; all_goals try dsimp only)

theorem Dev.countVerdict_sound {d : Dev} (h : d.Sound) (v : Verdict) : (Dev.countVerdict d v).Sound := by
  unfold Dev.countVerdict
  try dsimp only
  repeat' first
    | with_reducible assumption
    | with_reducible apply Dev.count_sound
    | with_reducible apply Dev.admRefused_sound
    | with_reducible apply Dev.Sound.ite
    | (intro _; intros; try dsimp only)
    | (split; all_goals try dsimp only)

theorem Dev.rejectSet_sound {d : Dev} (h : d.Sound) (r : Nat) (n : Nat) (op : Nat) (tag : Nat) (status : Nat) : (Dev.rejectSet d r n op tag status).Sound := by
  unfold Dev.rejectSet
  try dsimp only
  repeat' first
    | with_reducible assumption
    | with_reducible apply Dev.freshNat_sound
    | with_reducible apply Dev.ringReject_sound
    | with_reducible apply Dev.Sound.ite_snd
    | simp only [Dev.Sound.keepSdp]
    | (intro _; intros; try dsimp only)

theorem Dev.commitRead_sound {d : Dev} (hk : d.Sound) (x : SetRead) : (Dev.commitRead d x).Sound := by
  unfold Dev.commitRead
  try dsimp only
  repeat' first
    | with_reducible assumption
    | with_reducible apply Dev.unread_sound
    | with_reducible apply Dev.ringTake_sound
    | with_reducible apply Dev.putSet_sound
    | with_reducible apply Dev.countVerdict_sound
    | with_reducible apply Dev.freshNat_sound
    | with_reducible apply Dev.ringReject_sound
    | with_reducible apply Dev.mirrorCopy_sound
    | with_reducible apply Dev.Sound.ite
    | with_reducible apply Dev.Sound.ite_snd
    | with_reducible apply Dev.Sound.foldl
    | simp only [Dev.Sound.keep]
    | simp only [Dev.Sound.keepSdp]
    | (intro _; intros; try dsimp only)
    | dsimp only
    | (split; all_goals try dsimp only)

theorem Dev.ringFetch_sound {d : Dev} (hk : d.Sound) (r skip n : Nat) : (Dev.ringFetch d r skip n).Sound := by
  unfold Dev.ringFetch
  try dsimp only
  repeat' first
    | with_reducible assumption
    | with_reducible apply Dev.plainReads_sound
    | with_reducible apply Dev.Sound.ite
    | with_reducible apply Dev.Sound.ite_snd
    | with_reducible apply Dev.Sound.foldl
    | simp only [Dev.Sound.keep]
    | simp only [Dev.Sound.keepSdp]
    | (intro _; intros; try dsimp only)
    | dsimp only
    | (split; all_goals try dsimp only)

theorem Dev.fetchSet_sound {d : Dev} (hk : d.Sound) (r : Nat) : (Dev.fetchSet d r).Sound := by
  unfold Dev.fetchSet
  try dsimp only
  repeat' first
    | with_reducible assumption
    | with_reducible apply Dev.ringFetch_sound
    | with_reducible apply Dev.Sound.ite
    | with_reducible apply Dev.Sound.ite_snd
    | with_reducible apply Dev.Sound.foldl
    | simp only [Dev.Sound.keep]
    | simp only [Dev.Sound.keepSdp]
    | (intro _; intros; try dsimp only)
    | dsimp only
    | (split; all_goals try dsimp only)

theorem Dev.takeFront_sound {d : Dev} (hk : d.Sound) (r : Nat) : (Dev.takeFront d r).Sound := by
  unfold Dev.takeFront
  try dsimp only
  repeat' first
    | with_reducible assumption
    | with_reducible apply Dev.count_sound
    | with_reducible apply Dev.flpEvent_sound
    | with_reducible apply Dev.lullExit_sound
    | with_reducible apply Dev.twnMirror_sound
    | with_reducible apply Dev.acceptSet_sound
    | with_reducible apply Dev.commitRead_sound
    | with_reducible apply Dev.flpEdge_sound
    | with_reducible apply Dev.rejectSet_sound
    | with_reducible apply Dev.Sound.ite
    | with_reducible apply Dev.Sound.ite_snd
    | with_reducible apply Dev.Sound.foldl
    | simp only [Dev.Sound.keep]
    | simp only [Dev.Sound.keepSdp]
    | (intro _; intros; try dsimp only)
    | dsimp only
    | (split; all_goals try dsimp only)

theorem Dev.readSet_sound {d : Dev} (hk : d.Sound) (r : Nat) : (Dev.readSet d r).Sound := by
  unfold Dev.readSet
  try dsimp only
  repeat' first
    | with_reducible assumption
    | with_reducible apply Dev.fetchSet_sound
    | with_reducible apply Dev.takeFront_sound
    | with_reducible apply Dev.Sound.ite
    | with_reducible apply Dev.Sound.ite_snd
    | with_reducible apply Dev.Sound.foldl
    | simp only [Dev.Sound.keep]
    | simp only [Dev.Sound.keepSdp]
    | (intro _; intros; try dsimp only)
    | dsimp only
    | (split; all_goals try dsimp only)

theorem Dev.shadowChecked_sound {d : Dev} (hk : d.Sound) (ecc : ShadowEcc) : (Dev.shadowChecked d ecc).Sound := by
  unfold Dev.shadowChecked
  try dsimp only
  repeat' first
    | with_reducible assumption
    | with_reducible apply Dev.secdedCorrected_sound
    | with_reducible apply Dev.secdedBad_sound
    | with_reducible apply Dev.setReg_sound
    | with_reducible apply Dev.Sound.ite
    | with_reducible apply Dev.Sound.ite_snd
    | with_reducible apply Dev.Sound.foldl
    | simp only [Dev.Sound.keep]
    | simp only [Dev.Sound.keepSdp]
    | (intro _; intros; try dsimp only)
    | dsimp only
    | (split; all_goals try dsimp only)

theorem Dev.flipset_sound {d : Dev} (hk : d.Sound) (r : Nat) (ecc : ShadowEcc) : (Dev.flipset d r ecc).Sound := by
  unfold Dev.flipset
  try dsimp only
  repeat' first
    | with_reducible assumption
    | with_reducible apply Dev.shadowChecked_sound
    | with_reducible apply Dev.readSet_sound
    | with_reducible apply Dev.Sound.ite
    | with_reducible apply Dev.Sound.ite_snd
    | with_reducible apply Dev.Sound.foldl
    | simp only [Dev.Sound.keep]
    | simp only [Dev.Sound.keepSdp]
    | (intro _; intros; try dsimp only)
    | dsimp only
    | (split; all_goals try dsimp only)

theorem Dev.fenceAdvance_sound {d : Dev} (h : d.Sound) (f : Nat) (v : Nat) : (Dev.fenceAdvance d f v).Sound := by
  unfold Dev.fenceAdvance
  try dsimp only
  repeat' first
    | with_reducible assumption
    | with_reducible apply Dev.flpEdge_sound
    | with_reducible apply Dev.fenceWrite_sound

theorem Dev.mirrored_sound {d : Dev} (h : d.Sound) (off : Nat) (v : Nat) (f : Dev → Dev) (hf : ∀ d, d.Sound → (f d).Sound) : (Dev.mirrored d off v f).Sound := by
  unfold Dev.mirrored
  try dsimp only
  repeat' first
    | with_reducible assumption
    | with_reducible apply Dev.count_sound
    | with_reducible apply Dev.twnMirror_sound
    | with_reducible apply hf
    | with_reducible apply Dev.Sound.ite
    | (intro _; intros; try dsimp only)

theorem Dev.endWait_sound {d : Dev} (h : d.Sound) (w : FenceWaitSt) (status : Nat) : (Dev.endWait d w status).Sound := by
  unfold Dev.endWait
  try dsimp only
  repeat' first
    | with_reducible assumption
    | with_reducible apply Dev.mirrored_sound
    | with_reducible apply Dev.mirrorCopy_sound
    | with_reducible apply Dev.ringComplete_sound
    | with_reducible apply Dev.Sound.ite
    | with_reducible apply Dev.Sound.ite_snd
    | with_reducible apply Dev.Sound.foldl
    | simp only [Dev.Sound.keep]
    | simp only [Dev.Sound.keepSdp]
    | (intro _; intros; try dsimp only)
    | dsimp only
    | (split; all_goals try dsimp only)

theorem Dev.flushWaits_sound {d : Dev} (h : d.Sound) (status : Nat) : (Dev.flushWaits d status).Sound := by
  unfold Dev.flushWaits
  try dsimp only
  repeat' first
    | with_reducible assumption
    | with_reducible apply Dev.endWait_sound
    | with_reducible apply Dev.Sound.foldl
    | (intro _; intros; try dsimp only)

theorem Dev.waitTick_sound {d : Dev} (h : d.Sound) : (Dev.waitTick d).Sound := by
  unfold Dev.waitTick
  try dsimp only
  repeat' first
    | with_reducible assumption
    | with_reducible apply Dev.Sound.ite
    | with_reducible apply Dev.Sound.ite_snd
    | with_reducible apply Dev.Sound.foldl
    | simp only [Dev.Sound.keep]
    | simp only [Dev.Sound.keepSdp]
    | (intro _; intros; try dsimp only)
    | dsimp only
    | (split; all_goals try dsimp only)

theorem Dev.evalDecided_sound {d : Dev} (h : d.Sound) (q : QSet) (m : Nat) (verdict : Nat) (held : Nat) : (Dev.evalDecided d q m verdict held).Sound := by
  unfold Dev.evalDecided
  try dsimp only
  repeat' first
    | with_reducible assumption
    | with_reducible apply Dev.dropSet_sound
    | with_reducible apply Dev.applySet_sound
    | with_reducible apply Dev.deferSet_sound
    | with_reducible apply Dev.Sound.ite
    | with_reducible apply Dev.Sound.ite_snd
    | with_reducible apply Dev.Sound.foldl
    | simp only [Dev.Sound.keep]
    | simp only [Dev.Sound.keepSdp]
    | (intro _; intros; try dsimp only)
    | dsimp only
    | (split; all_goals try dsimp only)

theorem Dev.fenceWaitDone_sound {d : Dev} (h : d.Sound) (r : Nat) : (Dev.fenceWaitDone d r).Sound := by
  unfold Dev.fenceWaitDone
  try dsimp only
  repeat' first
    | with_reducible assumption
    | with_reducible apply Dev.endWait_sound
    | with_reducible apply Dev.Sound.ite
    | with_reducible apply Dev.Sound.ite_snd
    | with_reducible apply Dev.Sound.foldl
    | simp only [Dev.Sound.keep]
    | simp only [Dev.Sound.keepSdp]
    | (intro _; intros; try dsimp only)
    | dsimp only
    | (split; all_goals try dsimp only)

theorem Dev.fenceWaitTimeout_sound {d : Dev} (h : d.Sound) (r : Nat) : (Dev.fenceWaitTimeout d r).Sound := by
  unfold Dev.fenceWaitTimeout
  try dsimp only
  repeat' first
    | with_reducible assumption
    | with_reducible apply Dev.endWait_sound
    | with_reducible apply Dev.Sound.ite
    | with_reducible apply Dev.Sound.ite_snd
    | with_reducible apply Dev.Sound.foldl
    | simp only [Dev.Sound.keep]
    | simp only [Dev.Sound.keepSdp]
    | (intro _; intros; try dsimp only)
    | dsimp only
    | (split; all_goals try dsimp only)

theorem Dev.takeSets_sound {d : Dev} (h : d.Sound) (m : Nat) : (Dev.takeSets d m).Sound := by
  unfold Dev.takeSets
  try dsimp only
  repeat' first
    | with_reducible assumption
    | with_reducible apply Dev.evalDecided_sound
    | with_reducible apply Dev.evalLocal_sound
    | with_reducible apply Dev.raiseIf_sound
    | with_reducible apply Dev.Sound.ite
    | with_reducible apply Dev.Sound.ite_snd
    | with_reducible apply Dev.Sound.foldl
    | with_reducible apply Dev.Sound.foldl_fst
    | simp only [Dev.Sound.keep]
    | simp only [Dev.Sound.keepSdp]
    | (intro _; intros; try dsimp only)
    | dsimp only
    | (split; all_goals try dsimp only)

theorem Dev.flpTidy_sound {d : Dev} (h : d.Sound) (m : Nat) : (Dev.flpTidy d m).Sound := by
  unfold Dev.flpTidy
  try dsimp only
  repeat' first
    | with_reducible assumption
    | simp only [Dev.Sound.keepSdp]

theorem Dev.submitResume_sound {d : Dev} (hk : d.Sound) (ecc : ShadowEcc) : (Dev.submitResume d ecc).Sound := by
  unfold Dev.submitResume
  try dsimp only
  repeat' first
    | with_reducible assumption
    | with_reducible apply Dev.count_sound
    | with_reducible apply Dev.shadowChecked_sound
    | with_reducible apply Dev.readSet_sound
    | with_reducible apply Dev.Sound.ite
    | with_reducible apply Dev.Sound.ite_snd
    | with_reducible apply Dev.Sound.foldl
    | simp only [Dev.Sound.keep]
    | simp only [Dev.Sound.keepSdp]
    | (intro _; intros; try dsimp only)
    | dsimp only
    | (split; all_goals try dsimp only)

theorem Dev.fenceWait_sound {d : Dev} (h : d.Sound) (r : Nat) : (Dev.fenceWait d r).Sound := by
  unfold Dev.fenceWait
  try dsimp only
  repeat' first
    | with_reducible assumption
    | with_reducible apply Dev.ringFetch_sound
    | with_reducible apply Dev.twnMirror_sound
    | with_reducible apply Dev.rejectSet_sound
    | with_reducible apply Dev.mirrorCopy_sound
    | with_reducible apply Dev.ringTake_sound
    | with_reducible apply Dev.Sound.ite
    | with_reducible apply Dev.Sound.ite_snd
    | with_reducible apply Dev.Sound.foldl
    | simp only [Dev.Sound.keep]
    | simp only [Dev.Sound.keepSdp]
    | (intro _; intros; try dsimp only)
    | dsimp only
    | (split; all_goals try dsimp only)

theorem Dev.hostFence_sound {d : Dev} (h : d.Sound) (f : Nat) (v : Nat) : (Dev.hostFence d f v).Sound := by
  unfold Dev.hostFence
  try dsimp only
  repeat' first
    | with_reducible assumption
    | with_reducible apply Dev.fenceAdvance_sound
    | with_reducible apply Dev.refuse_sound
    | with_reducible apply Dev.Sound.ite
    | (intro _; intros; try dsimp only)

theorem Dev.bufferRelease_sound {d : Dev} (h : d.Sound) : (Dev.bufferRelease d).Sound := by
  unfold Dev.bufferRelease
  try dsimp only
  repeat' first
    | with_reducible assumption
    | with_reducible apply Dev.trkReleased_sound
    | with_reducible apply Dev.releaseFence_sound
    | simp only [Dev.Sound.keepSdp]
    | (split; all_goals try dsimp only)

/-! ### Blit -/

theorem Dev.blitEnd_sound {d : Dev} (h : d.Sound) (h : BlitHead) (status : Nat) (detail : Nat) : (Dev.blitEnd d h status detail).Sound := by
  unfold Dev.blitEnd
  try dsimp only
  repeat' first
    | with_reducible assumption
    | with_reducible apply Dev.ringComplete_sound
    | with_reducible apply Dev.count_sound

theorem Dev.setBlt_sound {d : Dev} (h : d.Sound) (x : Blt) : (Dev.setBlt d x).Sound := by
  unfold Dev.setBlt
  try dsimp only
  repeat' first
    | with_reducible assumption
    | simp only [Dev.Sound.keepSdp]

theorem Dev.bltShow_sound {d : Dev} (h : d.Sound) : (Dev.bltShow d).Sound := by
  unfold Dev.bltShow
  try dsimp only
  repeat' first
    | with_reducible assumption
    | with_reducible apply Dev.setFld_sound

theorem Dev.blitRead_sound {d : Dev} (h : d.Sound) (r : Nat) : (Dev.blitRead d r).Sound := by
  unfold Dev.blitRead
  try dsimp only
  repeat' first
    | with_reducible assumption
    | with_reducible apply Dev.ringFetch_sound
    | with_reducible apply Dev.ringTake_sound
    | with_reducible apply Dev.blitEnd_sound
    | with_reducible apply Dev.setBlt_sound
    | with_reducible apply Dev.bltShow_sound
    | with_reducible apply Dev.Sound.ite
    | with_reducible apply Dev.Sound.ite_snd
    | with_reducible apply Dev.Sound.foldl
    | simp only [Dev.Sound.keep]
    | simp only [Dev.Sound.keepSdp]
    | (intro _; intros; try dsimp only)
    | dsimp only
    | (split; all_goals try dsimp only)

theorem Dev.blitPut_sound {d : Dev} (hk : d.Sound) (b : BlitD) (bad : List Nat) (run : Nat × List (Byte × Bool)) : (Dev.blitPut d b bad run).Sound := by
  unfold Dev.blitPut
  try dsimp only
  repeat' first
    | with_reducible assumption
    | with_reducible apply Dev.hostPut_sound
    | with_reducible apply Dev.setDamaged_sound
    | with_reducible apply Dev.memStore_sound
    | with_reducible apply Dev.Sound.ite
    | with_reducible apply Dev.Sound.ite_snd
    | with_reducible apply Dev.Sound.foldl
    | with_reducible apply Dev.Sound.foldl_fst
    | simp only [Dev.Sound.keep]
    | simp only [Dev.Sound.keepSdp]
    | (intro _; intros; try dsimp only)
    | dsimp only
    | (split; all_goals try dsimp only)

theorem Dev.blitTimeout_sound {d : Dev} (h : d.Sound) (r : Nat) : (Dev.blitTimeout d r).Sound := by
  unfold Dev.blitTimeout
  try dsimp only
  repeat' first
    | with_reducible assumption
    | with_reducible apply Dev.setBlt_sound
    | with_reducible apply Dev.bltShow_sound
    | with_reducible apply Dev.raise_sound
    | with_reducible apply Dev.setFlag_sound
    | with_reducible apply Dev.blitEnd_sound
    | (split; all_goals try dsimp only)

theorem Dev.blitOp_sound {d : Dev} (h : d.Sound) (r : Nat) (op : Nat) : (Dev.blitOp d r op).Sound := by
  unfold Dev.blitOp
  try dsimp only
  repeat' first
    | with_reducible assumption
    | with_reducible apply Dev.blitRead_sound
    | with_reducible apply Dev.Sound.ite
    | (intro _; intros; try dsimp only)

theorem Dev.bltBytes_sound {d : Dev} (h : d.Sound) (n : Nat) : (Dev.bltBytes d n).Sound := by
  unfold Dev.bltBytes
  try dsimp only
  repeat' first
    | with_reducible assumption
    | with_reducible apply Dev.setBlt_sound
    | with_reducible apply Dev.setReg_sound

theorem Dev.haltedNow_sound {d : Dev} (h : d.Sound) : (Dev.haltedNow d).Sound := by
  unfold Dev.haltedNow
  try dsimp only
  repeat' first
    | with_reducible assumption
    | with_reducible apply Dev.raise_sound
    | with_reducible apply Dev.setFlag_sound
    | with_reducible apply Dev.Sound.ite
    | (intro _; intros; try dsimp only)

theorem Dev.blitLand_sound {d : Dev} (hk : d.Sound) (r : BlitRun) (b : BlitD) (lo hi : Nat) (bad : List Nat) : (Dev.blitLand d r b lo hi bad).Sound := by
  unfold Dev.blitLand
  try dsimp only
  repeat' first
    | with_reducible assumption
    | with_reducible apply Dev.blitPut_sound
    | with_reducible apply Dev.bltBytes_sound
    | with_reducible apply Dev.Sound.ite
    | with_reducible apply Dev.Sound.ite_snd
    | with_reducible apply Dev.Sound.foldl
    | simp only [Dev.Sound.keep]
    | simp only [Dev.Sound.keepSdp]
    | (intro _; intros; try dsimp only)
    | dsimp only
    | (split; all_goals try dsimp only)

theorem Dev.blitMark_sound {d : Dev} (h : d.Sound) (b : BlitD) : (Dev.blitMark d b).Sound := by
  unfold Dev.blitMark
  try dsimp only
  repeat' first
    | with_reducible assumption
    | with_reducible apply Dev.fenceAdvance_sound
    | with_reducible apply Dev.raiseIf_sound
    | with_reducible apply Dev.Sound.ite
    | (intro _; intros; try dsimp only)

theorem Dev.blitWake_sound {d : Dev} (hk : d.Sound) (r : BlitRun) (b : BlitD) (lo hi : Nat) : (Dev.blitWake d r b lo hi).Sound := by
  unfold Dev.blitWake
  try dsimp only
  repeat' first
    | with_reducible assumption
    | with_reducible apply Dev.memWake_sound
    | with_reducible apply Dev.Sound.ite
    | with_reducible apply Dev.Sound.ite_snd
    | with_reducible apply Dev.Sound.foldl
    | simp only [Dev.Sound.keep]
    | simp only [Dev.Sound.keepSdp]
    | (intro _; intros; try dsimp only)
    | dsimp only
    | (split; all_goals try dsimp only)

theorem Dev.orphanReader_sound {d : Dev} (hk : d.Sound) (reader : Nat) : (Dev.orphanReader d reader).Sound := by
  unfold Dev.orphanReader
  try dsimp only
  repeat' first
    | with_reducible assumption
    | with_reducible apply Dev.Sound.ite
    | with_reducible apply Dev.Sound.ite_snd
    | with_reducible apply Dev.Sound.foldl
    | simp only [Dev.Sound.keep]
    | simp only [Dev.Sound.keepSdp]
    | (intro _; intros; try dsimp only)
    | dsimp only
    | (split; all_goals try dsimp only)

theorem Dev.blitPoisoned_sound {d : Dev} (hk : d.Sound) (r : BlitRun) : (Dev.blitPoisoned d r).Sound := by
  unfold Dev.blitPoisoned
  try dsimp only
  repeat' first
    | with_reducible assumption
    | with_reducible apply Dev.count_sound
    | with_reducible apply Dev.setFlag_sound
    | with_reducible apply Dev.raise_sound
    | with_reducible apply Dev.Sound.ite
    | with_reducible apply Dev.Sound.ite_snd
    | with_reducible apply Dev.Sound.foldl
    | simp only [Dev.Sound.keep]
    | simp only [Dev.Sound.keepSdp]
    | (intro _; intros; try dsimp only)
    | dsimp only
    | (split; all_goals try dsimp only)

theorem Dev.blitAbort_sound {d : Dev} (h : d.Sound) : (Dev.blitAbort d).Sound := by
  unfold Dev.blitAbort
  try dsimp only
  repeat' first
    | with_reducible assumption
    | with_reducible apply Dev.freshNat_sound
    | with_reducible apply Dev.blitWake_sound
    | with_reducible apply Dev.blitLand_sound
    | with_reducible apply Dev.blitMark_sound
    | with_reducible apply Dev.setBlt_sound
    | with_reducible apply Dev.orphanReader_sound
    | with_reducible apply Dev.blitEnd_sound
    | with_reducible apply Dev.blitPoisoned_sound
    | with_reducible apply Dev.haltedNow_sound
    | with_reducible apply Dev.bltShow_sound
    | with_reducible apply Dev.Sound.ite
    | with_reducible apply Dev.Sound.ite_snd
    | with_reducible apply Dev.Sound.foldl
    | simp only [Dev.Sound.keep]
    | simp only [Dev.Sound.keepSdp]
    | (intro _; intros; try dsimp only)
    | dsimp only
    | (split; all_goals try dsimp only)

theorem Dev.blitFlush_sound {d : Dev} (h : d.Sound) : (Dev.blitFlush d).Sound := by
  unfold Dev.blitFlush
  try dsimp only
  repeat' first
    | with_reducible assumption
    | with_reducible apply Dev.blitAbort_sound
    | with_reducible apply Dev.setBlt_sound
    | with_reducible apply Dev.bltShow_sound
    | with_reducible apply Dev.blitEnd_sound
    | with_reducible apply Dev.Sound.foldl
    | (intro _; intros; try dsimp only)

theorem Dev.blitDoze_sound {d : Dev} (h : d.Sound) : (Dev.blitDoze d).Sound := by
  unfold Dev.blitDoze
  try dsimp only
  repeat' first
    | with_reducible assumption
    | with_reducible apply Dev.blitAbort_sound
    | with_reducible apply Dev.setBlt_sound
    | with_reducible apply Dev.bltShow_sound
    | with_reducible apply Dev.blitEnd_sound
    | with_reducible apply Dev.Sound.foldl
    | (intro _; intros; try dsimp only)

theorem Dev.plainLadders_sound {d : Dev} (h : d.Sound) (reader : Nat) (fails : List Nat) : (Dev.plainLadders d reader fails).Sound := by
  unfold Dev.plainLadders
  try dsimp only
  repeat' first
    | with_reducible assumption
    | with_reducible apply Dev.blockFailed_sound
    | with_reducible apply Dev.Sound.foldl
    | simp only [Dev.Sound.keepSdp]
    | (intro _; intros; try dsimp only)

theorem Dev.blitMayRead_sound {d : Dev} (hk : d.Sound) (r : BlitRun) (b : BlitD) (lo hi : Nat) (bad : List Nat) : (Dev.blitMayRead d r b lo hi bad).2.Sound := by
  unfold Dev.blitMayRead
  try dsimp only
  repeat' first
    | with_reducible assumption
    | with_reducible apply Dev.blitWake_sound
    | with_reducible apply Dev.plainLadders_sound
    | with_reducible apply Dev.setBlt_sound
    | with_reducible apply Dev.Sound.ite
    | with_reducible apply Dev.Sound.ite_snd
    | with_reducible apply Dev.Sound.foldl
    | simp only [Dev.Sound.keep]
    | simp only [Dev.Sound.keepSdp]
    | (intro _; intros; try dsimp only)
    | dsimp only
    | (split; all_goals try dsimp only)

theorem Dev.blitComplete_sound {d : Dev} (h : d.Sound) (bad : List Nat) : (Dev.blitComplete d bad).Sound := by
  unfold Dev.blitComplete
  try dsimp only
  repeat' first
    | with_reducible assumption
    | with_reducible apply Dev.blitMayRead_sound
    | with_reducible apply Dev.blitLand_sound
    | with_reducible apply Dev.setBlt_sound
    | with_reducible apply Dev.blitMark_sound
    | with_reducible apply Dev.fenceAdvance_sound
    | with_reducible apply Dev.blitEnd_sound
    | with_reducible apply Dev.blitPoisoned_sound
    | with_reducible apply Dev.haltedNow_sound
    | with_reducible apply Dev.bltShow_sound
    | with_reducible apply Dev.Sound.ite
    | with_reducible apply Dev.Sound.ite_snd
    | with_reducible apply Dev.Sound.foldl
    | simp only [Dev.Sound.keep]
    | simp only [Dev.Sound.keepSdp]
    | (intro _; intros; try dsimp only)
    | dsimp only
    | (split; all_goals try dsimp only)

theorem Dev.blitStart_sound {d : Dev} (h : d.Sound) : (Dev.blitStart d).Sound := by
  unfold Dev.blitStart
  try dsimp only
  repeat' first
    | with_reducible assumption
    | with_reducible apply Dev.setBlt_sound
    | with_reducible apply Dev.blitEnd_sound
    | with_reducible apply Dev.count_sound
    | with_reducible apply Dev.bltShow_sound
    | with_reducible apply Dev.Sound.ite
    | (intro _; intros; try dsimp only)
    | (split; all_goals try dsimp only)

theorem Dev.writeBltCtrl_sound {d : Dev} (h : d.Sound) (v : Nat) : (Dev.writeBltCtrl d v).Sound := by
  unfold Dev.writeBltCtrl
  try dsimp only
  repeat' first
    | with_reducible assumption
    | with_reducible apply Dev.bltShow_sound
    | with_reducible apply Dev.haltedNow_sound
    | with_reducible apply Dev.genericWrite_sound

theorem Dev.watermark_sound {d : Dev} (h : d.Sound) (bad : List Nat) : (Dev.watermark d bad).Sound := by
  unfold Dev.watermark
  try dsimp only
  repeat' first
    | with_reducible assumption
    | with_reducible apply Dev.blitMayRead_sound
    | with_reducible apply Dev.blitLand_sound
    | with_reducible apply Dev.setBlt_sound
    | with_reducible apply Dev.blitMark_sound
    | with_reducible apply Dev.Sound.ite
    | with_reducible apply Dev.Sound.ite_snd
    | with_reducible apply Dev.Sound.foldl
    | simp only [Dev.Sound.keep]
    | simp only [Dev.Sound.keepSdp]
    | (intro _; intros; try dsimp only)
    | dsimp only
    | (split; all_goals try dsimp only)

theorem Dev.bounceDone_sound {d : Dev} (h : d.Sound) (bad : List Nat) : (Dev.bounceDone d bad).Sound := by
  unfold Dev.bounceDone
  try dsimp only
  repeat' first
    | with_reducible assumption
    | with_reducible apply Dev.blitMayRead_sound
    | with_reducible apply Dev.setBlt_sound
    | with_reducible apply Dev.bltShow_sound
    | with_reducible apply Dev.Sound.ite
    | with_reducible apply Dev.Sound.ite_snd
    | with_reducible apply Dev.Sound.foldl
    | simp only [Dev.Sound.keep]
    | simp only [Dev.Sound.keepSdp]
    | (intro _; intros; try dsimp only)
    | dsimp only
    | (split; all_goals try dsimp only)

/-! ### Coach -/

theorem Dev.onCoach_sound {d : Dev} (h : d.Sound) (p : Nat) (key : Nat) (f : Dev → Dev) (hf : ∀ d, d.Sound → (f d).Sound) : (Dev.onCoach d p key f).Sound := by
  unfold Dev.onCoach
  try dsimp only
  repeat' first
    | with_reducible assumption
    | with_reducible apply Dev.onWrite_sound
    | with_reducible apply Dev.Sound.ite
    | (intro _; intros; try dsimp only)

theorem Dev.commitApply_sound {d : Dev} (h : d.Sound) (p : Nat) (eff : Nat) : (Dev.commitApply d p eff).Sound := by
  unfold Dev.commitApply
  try dsimp only
  repeat' first
    | with_reducible assumption
    | with_reducible apply Dev.setReg_sound
    | with_reducible apply Dev.setCoach_sound
    | with_reducible apply Dev.controlWritten_sound
    | with_reducible apply Dev.count_sound
    | with_reducible apply Dev.setFld_sound
    | with_reducible apply Dev.Sound.foldl
    | (intro _; intros; try dsimp only)

theorem Dev.writeCommit_sound {d : Dev} (hk : d.Sound) (p v : Nat) (ecc : ShadowEcc) : (Dev.writeCommit d p v ecc).Sound := by
  unfold Dev.writeCommit
  try dsimp only
  repeat' first
    | with_reducible assumption
    | with_reducible apply Dev.genericWrite_sound
    | with_reducible apply Dev.shadowChecked_sound
    | with_reducible apply Dev.admRefused_sound
    | with_reducible apply Dev.refuse_sound
    | with_reducible apply Dev.setCoach_sound
    | with_reducible apply Dev.setFld_sound
    | with_reducible apply Dev.lullExit_sound
    | with_reducible apply Dev.commitApply_sound
    | with_reducible apply Dev.updateAdm_sound
    | with_reducible apply Dev.Sound.ite
    | with_reducible apply Dev.Sound.ite_snd
    | with_reducible apply Dev.Sound.foldl
    | simp only [Dev.Sound.keep]
    | simp only [Dev.Sound.keepSdp]
    | (intro _; intros; try dsimp only)
    | dsimp only
    | (split; all_goals try dsimp only)

theorem Dev.coachBegin_sound {d : Dev} (h : d.Sound) (p : Nat) (r : StrokeRun) (ss : List Stop) : (Dev.coachBegin d p r ss).Sound := by
  unfold Dev.coachBegin
  try dsimp only
  repeat' first
    | with_reducible assumption
    | with_reducible apply Dev.setCoach_sound
    | with_reducible apply Dev.Sound.ite
    | (intro _; intros; try dsimp only)

theorem Dev.coachSource_sound {d : Dev} (h : d.Sound) (p : Nat) (k : Nat) : (Dev.coachSource d p k).Sound := by
  unfold Dev.coachSource
  try dsimp only
  repeat' first
    | with_reducible assumption
    | with_reducible apply Dev.raise_sound

theorem Dev.publishSlack_sound {d : Dev} (h : d.Sound) (p : Nat) (ns : Nat) : (Dev.publishSlack d p ns).Sound := by
  unfold Dev.publishSlack
  try dsimp only
  repeat' first
    | with_reducible assumption
    | with_reducible apply Dev.setReg_sound
    | with_reducible apply Dev.coachSource_sound
    | with_reducible apply Dev.count_sound
    | with_reducible apply Dev.setFlag_sound
    | with_reducible apply Dev.Sound.ite
    | (intro _; intros; try dsimp only)

theorem Dev.writeChainId_sound {d : Dev} (h : d.Sound) (p : Nat) (v : Nat) : (Dev.writeChainId d p v).Sound := by
  unfold Dev.writeChainId
  try dsimp only
  repeat' first
    | with_reducible assumption
    | with_reducible apply Dev.refuse_sound
    | with_reducible apply Dev.genericWrite_sound
    | with_reducible apply Dev.Sound.ite
    | (intro _; intros; try dsimp only)

theorem Dev.commitDrop_sound {d : Dev} (h : d.Sound) (p : Nat) : (Dev.commitDrop d p).Sound := by
  unfold Dev.commitDrop
  try dsimp only
  repeat' first
    | with_reducible assumption
    | with_reducible apply Dev.setCoach_sound
    | with_reducible apply Dev.refuse_sound
    | with_reducible apply Dev.setFld_sound

theorem Dev.underrun_sound {d : Dev} (h : d.Sound) (p : Nat) (stroke : Nat) (q : Parcel) : (Dev.underrun d p stroke q).Sound := by
  unfold Dev.underrun
  try dsimp only
  repeat' first
    | with_reducible assumption
    | with_reducible apply Dev.setCoach_sound
    | with_reducible apply Dev.mapParcel_sound
    | with_reducible apply Dev.count_sound
    | with_reducible apply Dev.coachSource_sound
    | with_reducible apply Dev.setFlag_sound
    | with_reducible apply Dev.Sound.ite
    | (intro _; intros; try dsimp only)

theorem Dev.coachBytes_sound {d : Dev} (hk : d.Sound) (p : Nat) (bs : List Byte) : (Dev.coachBytes d p bs).Sound := by
  unfold Dev.coachBytes
  try dsimp only
  repeat' first
    | with_reducible assumption
    | with_reducible apply Dev.freshNat_sound
    | with_reducible apply Dev.setCoach_sound
    | with_reducible apply Dev.sendLevels_sound
    | with_reducible apply Dev.Sound.ite
    | with_reducible apply Dev.Sound.ite_snd
    | with_reducible apply Dev.Sound.foldl
    | with_reducible apply Dev.Sound.foldl_fst
    | simp only [Dev.Sound.keep]
    | simp only [Dev.Sound.keepSdp]
    | (intro _; intros; try dsimp only)
    | dsimp only
    | (split; all_goals try dsimp only)

theorem Dev.coachFrame_sound {d : Dev} (h : d.Sound) (p : Nat) (type_ : Nat) (flags : Nat) (stop : Nat) (depth : Nat) (stroke : Nat) (line : Nat) (x : Nat) (count : Nat) (payload : List Byte) : (Dev.coachFrame d p type_ flags stop depth stroke line x count payload).Sound := by
  unfold Dev.coachFrame
  try dsimp only
  repeat' first
    | with_reducible assumption
    | with_reducible apply Dev.setCoach_sound
    | with_reducible apply Dev.count_sound
    | with_reducible apply Dev.emit_sound
    | with_reducible apply Dev.coachBytes_sound
    | with_reducible apply Dev.Sound.ite
    | with_reducible apply Dev.Sound.ite_snd
    | with_reducible apply Dev.Sound.foldl
    | simp only [Dev.Sound.keep]
    | simp only [Dev.Sound.keepSdp]
    | (intro _; intros; try dsimp only)
    | dsimp only
    | (split; all_goals try dsimp only)

theorem Dev.witnessEnd_sound {d : Dev} (h : d.Sound) (p : Nat) (stroke : Nat) (c : Coach) (w : Nat × Nat × Nat × Nat) : (Dev.witnessEnd d p stroke c w).Sound := by
  unfold Dev.witnessEnd
  try dsimp only
  repeat' first
    | with_reducible assumption
    | with_reducible apply Dev.count_sound
    | with_reducible apply Dev.setFlag_sound
    | with_reducible apply Dev.setReg_sound
    | with_reducible apply Dev.coachSource_sound
    | with_reducible apply Dev.Sound.ite
    | (intro _; intros; try dsimp only)

theorem Dev.coachForward_sound {d : Dev} (h : d.Sound) (p : Nat) (r : StrokeRun) (s : Stop) (n : Nat) : (Dev.coachForward d p r s n).Sound := by
  unfold Dev.coachForward
  try dsimp only
  repeat' first
    | with_reducible assumption
    | with_reducible apply Dev.setCoach_sound
    | with_reducible apply Dev.witnessEnd_sound
    | with_reducible apply Dev.Sound.ite
    | with_reducible apply Dev.Sound.foldl
    | (intro _; intros; try dsimp only)
    | (split; all_goals try dsimp only)

theorem Dev.sendMissing_sound {d : Dev} (h : d.Sound) (p : Nat) (r : StrokeRun) (s : Stop) (g : Segment) : (Dev.sendMissing d p r s g).Sound := by
  unfold Dev.sendMissing
  try dsimp only
  repeat' first
    | with_reducible assumption
    | with_reducible apply Dev.underrun_sound
    | with_reducible apply Dev.count_sound
    | with_reducible apply Dev.coachFrame_sound
    | with_reducible apply Dev.coachForward_sound
    | with_reducible apply Dev.setCoach_sound
    | with_reducible apply Dev.Sound.ite
    | (intro _; intros; try dsimp only)
    | (split; all_goals try dsimp only)

theorem Dev.sendRun_sound {d : Dev} (h : d.Sound) (p : Nat) (r : StrokeRun) (s : Stop) (gs : List Segment) : (Dev.sendRun d p r s gs).Sound := by
  unfold Dev.sendRun
  try dsimp only
  repeat' first
    | with_reducible assumption
    | with_reducible apply Dev.coachFrame_sound
    | with_reducible apply Dev.setCoach_sound
    | with_reducible apply Dev.mapParcel_sound
    | with_reducible apply Dev.coachForward_sound
    | with_reducible apply Dev.Sound.foldl
    | (intro _; intros; try dsimp only)
    | (split; all_goals try dsimp only)

theorem Dev.packerLadder_sound {d : Dev} (h : d.Sound) (p : Nat) (r : StrokeRun) (g : Segment) (b : Nat) : (Dev.packerLadder d p r g b).Sound := by
  unfold Dev.packerLadder
  try dsimp only
  repeat' first
    | with_reducible assumption
    | with_reducible apply Dev.count_sound
    | with_reducible apply Dev.blockFailed_sound
    | with_reducible apply Dev.Sound.ite
    | simp only [Dev.Sound.keepSdp]
    | (intro _; intros; try dsimp only)
    | (split; all_goals try dsimp only)

theorem Dev.recordLost_sound {d : Dev} (hk : d.Sound) (p : Nat) (r : StrokeRun) (q : Parcel) : (Dev.recordLost d p r q).Sound := by
  unfold Dev.recordLost
  try dsimp only
  repeat' first
    | with_reducible assumption
    | with_reducible apply Dev.reservedLost_sound
    | with_reducible apply Dev.mapParcel_sound
    | with_reducible apply Dev.addJob_sound
    | with_reducible apply Dev.record_sound
    | with_reducible apply Dev.Sound.ite
    | with_reducible apply Dev.Sound.ite_snd
    | with_reducible apply Dev.Sound.foldl
    | simp only [Dev.Sound.keep]
    | simp only [Dev.Sound.keepSdp]
    | (intro _; intros; try dsimp only)
    | dsimp only
    | (split; all_goals try dsimp only)

theorem Dev.packerRead_sound {d : Dev} (hk : d.Sound) (p : Nat) (r : StrokeRun) (s : Stop) (bad : List Nat) (gs : List Segment) : (Dev.packerRead d p r s bad gs).Sound := by
  unfold Dev.packerRead
  try dsimp only
  repeat' first
    | with_reducible assumption
    | with_reducible apply Dev.memWake_sound
    | with_reducible apply Dev.packerLadder_sound
    | with_reducible apply Dev.addJob_sound
    | with_reducible apply Dev.sendRun_sound
    | with_reducible apply Dev.Sound.ite
    | with_reducible apply Dev.Sound.ite_snd
    | with_reducible apply Dev.Sound.foldl
    | with_reducible apply Dev.Sound.foldl_fst
    | simp only [Dev.Sound.keep]
    | simp only [Dev.Sound.keepSdp]
    | (intro _; intros; try dsimp only)
    | dsimp only
    | (split; all_goals try dsimp only)

theorem Dev.pixels_sound {d : Dev} (hk : d.Sound) (p : Nat) (bad : List Nat) (record : Ecc) : (Dev.pixels d p bad record).Sound := by
  unfold Dev.pixels
  try dsimp only
  repeat' first
    | with_reducible assumption
    | with_reducible apply Dev.coachBegin_sound
    | with_reducible apply Dev.sendMissing_sound
    | with_reducible apply Dev.recordLost_sound
    | with_reducible apply Dev.reserved_sound
    | with_reducible apply Dev.packerRead_sound
    | with_reducible apply Dev.Sound.ite
    | with_reducible apply Dev.Sound.ite_snd
    | with_reducible apply Dev.Sound.foldl
    | simp only [Dev.Sound.keep]
    | simp only [Dev.Sound.keepSdp]
    | (intro _; intros; try dsimp only)
    | dsimp only
    | (split; all_goals try dsimp only)

theorem Dev.withdrawnWitnesses_sound {d : Dev} (hk : d.Sound) (p : Nat) (ss : List Stop) : (Dev.withdrawnWitnesses d p ss).Sound := by
  unfold Dev.withdrawnWitnesses
  try dsimp only
  repeat' first
    | with_reducible assumption
    | with_reducible apply Dev.count_sound
    | with_reducible apply Dev.setCoach_sound
    | with_reducible apply Dev.Sound.ite
    | with_reducible apply Dev.Sound.ite_snd
    | with_reducible apply Dev.Sound.foldl
    | with_reducible apply Dev.Sound.foldl_fst
    | simp only [Dev.Sound.keep]
    | simp only [Dev.Sound.keepSdp]
    | (intro _; intros; try dsimp only)
    | dsimp only
    | (split; all_goals try dsimp only)

theorem Dev.skipWithdrawn_sound {d : Dev} (h : d.Sound) (p : Nat) (m : Nat) : (Dev.skipWithdrawn d p m).Sound := by
  unfold Dev.skipWithdrawn
  try dsimp only
  repeat' first
    | with_reducible assumption
    | with_reducible apply Dev.setCoach_sound
    | with_reducible apply Dev.pixels_sound
    | with_reducible apply Dev.coachFrame_sound
    | with_reducible apply Dev.count_sound
    | with_reducible apply Dev.withdrawnWitnesses_sound
    | with_reducible apply Dev.Sound.ite
    | with_reducible apply Dev.Sound.ite_snd
    | with_reducible apply Dev.Sound.foldl
    | simp only [Dev.Sound.keep]
    | simp only [Dev.Sound.keepSdp]
    | (intro _; intros; try dsimp only)
    | dsimp only
    | (split; all_goals try dsimp only)

theorem Dev.holdFrame_sound {d : Dev} (h : d.Sound) (p : Nat) : (Dev.holdFrame d p).Sound := by
  unfold Dev.holdFrame
  try dsimp only
  repeat' first
    | with_reducible assumption
    | with_reducible apply Dev.coachFrame_sound
    | with_reducible apply Dev.setCoach_sound
    | with_reducible apply Dev.Sound.ite
    | (intro _; intros; try dsimp only)

theorem Dev.coachLane_sound {d : Dev} (hk : d.Sound) (p : Nat) (was : LaneDrive) : (Dev.coachLane d p was).Sound := by
  unfold Dev.coachLane
  try dsimp only
  repeat' first
    | with_reducible assumption
    | with_reducible apply Dev.freshNat_sound
    | with_reducible apply Dev.setCoach_sound
    | with_reducible apply Dev.driveLane_sound
    | with_reducible apply Dev.Sound.ite
    | with_reducible apply Dev.Sound.ite_snd
    | with_reducible apply Dev.Sound.foldl
    | simp only [Dev.Sound.keep]
    | simp only [Dev.Sound.keepSdp]
    | (intro _; intros; try dsimp only)
    | dsimp only
    | (split; all_goals try dsimp only)

theorem Dev.coachTo_sound {d : Dev} (h : d.Sound) (p : Nat) (x : Nat) : (Dev.coachTo d p x).Sound := by
  unfold Dev.coachTo
  try dsimp only
  repeat' first
    | with_reducible assumption
    | with_reducible apply Dev.setFld_sound
    | with_reducible apply Dev.setReg_sound
    | with_reducible apply Dev.count_sound
    | with_reducible apply Dev.setCoach_sound
    | with_reducible apply Dev.setFlag_sound
    | with_reducible apply Dev.coachSource_sound
    | with_reducible apply Dev.coachLane_sound
    | with_reducible apply Dev.Sound.ite
    | with_reducible apply Dev.Sound.ite_snd
    | with_reducible apply Dev.Sound.foldl
    | simp only [Dev.Sound.keep]
    | simp only [Dev.Sound.keepSdp]
    | (intro _; intros; try dsimp only)
    | dsimp only
    | (split; all_goals try dsimp only)

theorem Dev.coachTrained_sound {d : Dev} (h : d.Sound) (p : Nat) : (Dev.coachTrained d p).Sound := by
  unfold Dev.coachTrained
  try dsimp only
  repeat' first
    | with_reducible assumption
    | with_reducible apply Dev.setCoach_sound
    | with_reducible apply Dev.coachTo_sound
    | with_reducible apply Dev.Sound.ite
    | (intro _; intros; try dsimp only)

theorem Dev.coachUp_sound {d : Dev} (h : d.Sound) (p : Nat) : (Dev.coachUp d p).Sound := by
  unfold Dev.coachUp
  try dsimp only
  repeat' first
    | with_reducible assumption
    | with_reducible apply Dev.coachTo_sound
    | with_reducible apply Dev.Sound.ite
    | (intro _; intros; try dsimp only)

theorem Dev.coachTick_sound {d : Dev} (h : d.Sound) : (Dev.coachTick d).Sound := by
  unfold Dev.coachTick
  try dsimp only
  repeat' first
    | with_reducible assumption
    | with_reducible apply Dev.setCoach_sound
    | with_reducible apply Dev.Sound.ite
    | with_reducible apply Dev.Sound.foldl
    | (intro _; intros; try dsimp only)

theorem Dev.coachHold_sound {d : Dev} (h : d.Sound) (p : Nat) : (Dev.coachHold d p).Sound := by
  unfold Dev.coachHold
  try dsimp only
  repeat' first
    | with_reducible assumption
    | with_reducible apply Dev.setCoach_sound
    | with_reducible apply Dev.coachTo_sound
    | with_reducible apply Dev.setReg_sound
    | with_reducible apply Dev.Sound.ite
    | with_reducible apply Dev.Sound.ite_snd
    | with_reducible apply Dev.Sound.foldl
    | simp only [Dev.Sound.keep]
    | simp only [Dev.Sound.keepSdp]
    | (intro _; intros; try dsimp only)
    | dsimp only
    | (split; all_goals try dsimp only)

theorem Dev.mirroredHold_sound {d : Dev} (h : d.Sound) (p : Nat) (v : Nat) : (Dev.mirroredHold d p v).Sound := by
  unfold Dev.mirroredHold
  try dsimp only
  repeat' first
    | with_reducible assumption
    | with_reducible apply Dev.coachHold_sound
    | with_reducible apply Dev.setFld_sound

theorem Dev.newEpoch_sound {d : Dev} (hk : d.Sound) (crossing : Nat) : (Dev.newEpoch d crossing).Sound := by
  unfold Dev.newEpoch
  try dsimp only
  repeat' first
    | with_reducible assumption
    | with_reducible apply Dev.Sound.ite
    | with_reducible apply Dev.Sound.ite_snd
    | with_reducible apply Dev.Sound.foldl
    | simp only [Dev.Sound.keep]
    | simp only [Dev.Sound.keepSdp]
    | (intro _; intros; try dsimp only)
    | dsimp only
    | (split; all_goals try dsimp only)

theorem Dev.coachTorn_sound {d : Dev} (h : d.Sound) (p : Nat) : (Dev.coachTorn d p).Sound := by
  unfold Dev.coachTorn
  try dsimp only
  repeat' first
    | with_reducible assumption
    | with_reducible apply Dev.newEpoch_sound
    | with_reducible apply Dev.setFlag_sound
    | with_reducible apply Dev.count_sound
    | with_reducible apply Dev.Sound.ite
    | with_reducible apply Dev.Sound.ite_snd
    | with_reducible apply Dev.Sound.foldl
    | simp only [Dev.Sound.keep]
    | simp only [Dev.Sound.keepSdp]
    | (intro _; intros; try dsimp only)
    | dsimp only
    | (split; all_goals try dsimp only)

theorem Dev.coachRetrain_sound {d : Dev} (h : d.Sound) (p : Nat) : (Dev.coachRetrain d p).Sound := by
  unfold Dev.coachRetrain
  try dsimp only
  repeat' first
    | with_reducible assumption
    | with_reducible apply Dev.coachTorn_sound
    | with_reducible apply Dev.setCoach_sound
    | with_reducible apply Dev.coachTo_sound
    | (split; all_goals try dsimp only)

theorem Dev.writeCoachCtrl_sound {d : Dev} (h : d.Sound) (p : Nat) (v : Nat) : (Dev.writeCoachCtrl d p v).Sound := by
  unfold Dev.writeCoachCtrl
  try dsimp only
  repeat' first
    | with_reducible assumption
    | with_reducible apply Dev.genericWrite_sound
    | with_reducible apply Dev.coachTorn_sound
    | with_reducible apply Dev.coachTo_sound
    | with_reducible apply Dev.coachUp_sound
    | with_reducible apply Dev.refuse_sound
    | with_reducible apply Dev.coachRetrain_sound
    | with_reducible apply Dev.coachHold_sound
    | with_reducible apply Dev.Sound.ite
    | (intro _; intros; try dsimp only)

theorem Dev.dropSplits_sound {d : Dev} (h : d.Sound) (n fuel : Nat) : (d.dropSplits n fuel).Sound := by
  induction fuel generalizing d with
  | zero => exact h
  | succ fuel ih =>
    unfold Dev.dropSplits
    dsimp only
    split
    · exact h
    · exact ih (Dev.Sound.foldl _ h fun d x hd => Dev.commitDrop_sound hd x)

theorem Dev.hostCoachCtrl_sound {d : Dev} (h : d.Sound) (p : Nat) (v : Nat) : (Dev.hostCoachCtrl d p v).Sound := by
  unfold Dev.hostCoachCtrl
  try dsimp only
  repeat' first
    | with_reducible assumption
    | with_reducible apply Dev.count_sound
    | with_reducible apply Dev.writeCoachCtrl_sound
    | with_reducible apply Dev.twnMirror_sound
    | with_reducible apply Dev.Sound.ite
    | (intro _; intros; try dsimp only)

theorem Dev.commitsLatch_sound {d : Dev} (h : d.Sound) (n : Nat) : (Dev.commitsLatch d n).Sound := by
  unfold Dev.commitsLatch
  try dsimp only
  repeat' first
    | with_reducible assumption
    | with_reducible apply Dev.dropSplits_sound
    | with_reducible apply Dev.commitApply_sound
    | with_reducible apply Dev.Sound.ite
    | with_reducible apply Dev.Sound.foldl
    | simp only [Dev.Sound.keepSdp]
    | (intro _; intros; try dsimp only)

theorem Dev.configFrame_sound {d : Dev} (h : d.Sound) (p : Nat) : (Dev.configFrame d p).Sound := by
  unfold Dev.configFrame
  try dsimp only
  repeat' first
    | with_reducible assumption
    | with_reducible apply Dev.setCoach_sound
    | with_reducible apply Dev.coachFrame_sound
    | with_reducible apply Dev.Sound.ite
    | with_reducible apply Dev.Sound.ite_snd
    | with_reducible apply Dev.Sound.foldl
    | simp only [Dev.Sound.keep]
    | simp only [Dev.Sound.keepSdp]
    | (intro _; intros; try dsimp only)
    | dsimp only
    | (split; all_goals try dsimp only)

theorem Dev.strokeMarker_sound {d : Dev} (h : d.Sound) (p : Nat) (delay : Nat) : (Dev.strokeMarker d p delay).Sound := by
  unfold Dev.strokeMarker
  try dsimp only
  repeat' first
    | with_reducible assumption
    | with_reducible apply Dev.setCoach_sound
    | with_reducible apply Dev.coachFrame_sound
    | with_reducible apply Dev.count_sound
    | with_reducible apply Dev.Sound.ite
    | with_reducible apply Dev.Sound.ite_snd
    | with_reducible apply Dev.Sound.foldl
    | simp only [Dev.Sound.keep]
    | simp only [Dev.Sound.keepSdp]
    | (intro _; intros; try dsimp only)
    | dsimp only
    | (split; all_goals try dsimp only)

theorem Dev.coachDealt_sound {d : Dev} (h : d.Sound) (s : Nat) : (Dev.coachDealt d s).Sound := by
  unfold Dev.coachDealt
  try dsimp only
  repeat' first
    | with_reducible assumption
    | with_reducible apply Dev.setCoach_sound
    | with_reducible apply Dev.Sound.ite
    | with_reducible apply Dev.Sound.foldl
    | (intro _; intros; try dsimp only)

theorem Dev.coachWithdraw_sound {d : Dev} (h : d.Sound) (gone : List Nat) : (Dev.coachWithdraw d gone).Sound := by
  unfold Dev.coachWithdraw
  try dsimp only
  repeat' first
    | with_reducible assumption
    | with_reducible apply Dev.setCoach_sound
    | with_reducible apply Dev.Sound.ite
    | with_reducible apply Dev.Sound.foldl
    | (intro _; intros; try dsimp only)

theorem Dev.idleFrame_sound {d : Dev} (h : d.Sound) (p : Nat) (n : Nat) : (Dev.idleFrame d p n).Sound := by
  unfold Dev.idleFrame
  try dsimp only
  repeat' first
    | with_reducible assumption
    | with_reducible apply Dev.coachFrame_sound
    | with_reducible apply Dev.Sound.ite
    | with_reducible apply Dev.Sound.ite_snd
    | with_reducible apply Dev.Sound.foldl
    | simp only [Dev.Sound.keep]
    | simp only [Dev.Sound.keepSdp]
    | (intro _; intros; try dsimp only)
    | dsimp only
    | (split; all_goals try dsimp only)

theorem Dev.coachSettle_sound {d : Dev} (h : d.Sound) : (Dev.coachSettle d).Sound := by
  unfold Dev.coachSettle
  try dsimp only
  repeat' first
    | with_reducible assumption
    | with_reducible apply Dev.coachHold_sound
    | with_reducible apply Dev.Sound.foldl
    | (intro _; intros; try dsimp only)

theorem Dev.skip_sound {d : Dev} (h : d.Sound) (p : Nat) : (Dev.skip d p).Sound := by
  unfold Dev.skip
  try dsimp only
  repeat' first
    | with_reducible assumption
    | with_reducible apply Dev.skipWithdrawn_sound
    | with_reducible apply Dev.coachBegin_sound
    | with_reducible apply Dev.sendMissing_sound
    | with_reducible apply Dev.Sound.ite
    | with_reducible apply Dev.Sound.ite_snd
    | with_reducible apply Dev.Sound.foldl
    | simp only [Dev.Sound.keep]
    | simp only [Dev.Sound.keepSdp]
    | (intro _; intros; try dsimp only)
    | dsimp only
    | (split; all_goals try dsimp only)

/-! ### Checks -/

theorem Dev.scrubEnd_sound {d : Dev} (h : d.Sound) : (Dev.scrubEnd d).Sound := by
  unfold Dev.scrubEnd
  try dsimp only
  repeat' first
    | with_reducible assumption
    | with_reducible apply Dev.raise_sound
    | with_reducible apply Dev.depEvent_sound
    | with_reducible apply Dev.setFld_sound
    | simp only [Dev.Sound.keepSdp]

theorem Dev.scrubRead_sound {d : Dev} (h : d.Sound) (fails : Bool) : (Dev.scrubRead d fails).Sound := by
  unfold Dev.scrubRead
  try dsimp only
  repeat' first
    | with_reducible assumption
    | with_reducible apply Dev.scrubEnd_sound
    | with_reducible apply Dev.memWake_sound
    | with_reducible apply Dev.setFld_sound
    | with_reducible apply Dev.blockFailed_sound
    | with_reducible apply Dev.Sound.ite
    | with_reducible apply Dev.Sound.ite_snd
    | with_reducible apply Dev.Sound.foldl
    | simp only [Dev.Sound.keep]
    | simp only [Dev.Sound.keepSdp]
    | (intro _; intros; try dsimp only)
    | dsimp only
    | (split; all_goals try dsimp only)

theorem Dev.writeLambda_sound {d : Dev} (h : d.Sound) (v : Nat) : (Dev.writeLambda d v).Sound := by
  unfold Dev.writeLambda
  try dsimp only
  repeat' first
    | with_reducible assumption
    | with_reducible apply Dev.refuse_sound
    | with_reducible apply Dev.genericWrite_sound
    | with_reducible apply Dev.Sound.ite
    | (intro _; intros; try dsimp only)

theorem Dev.writeLogRing_sound {d : Dev} (h : d.Sound) (v : Nat) : (Dev.writeLogRing d v).Sound := by
  unfold Dev.writeLogRing
  try dsimp only
  repeat' first
    | with_reducible assumption
    | with_reducible apply Dev.refuse_sound
    | with_reducible apply Dev.genericWrite_sound
    | with_reducible apply Dev.Sound.ite
    | (intro _; intros; try dsimp only)

theorem Dev.scrubOff_sound {d : Dev} (h : d.Sound) : (Dev.scrubOff d).Sound := by
  unfold Dev.scrubOff
  try dsimp only
  repeat' first
    | with_reducible assumption
    | with_reducible apply Dev.setFld_sound
    | simp only [Dev.Sound.keepSdp]

theorem Dev.writeDepCtrl_sound {d : Dev} (h : d.Sound) (v : Nat) : (Dev.writeDepCtrl d v).Sound := by
  unfold Dev.writeDepCtrl
  try dsimp only
  repeat' first
    | with_reducible assumption
    | with_reducible apply Dev.genericWrite_sound
    | with_reducible apply Dev.scrubOff_sound
    | with_reducible apply Dev.Sound.ite
    | (intro _; intros; try dsimp only)

theorem Dev.controlChecked_sound {d : Dev} (h : d.Sound) (ecc : ControlEcc) : (Dev.controlChecked d ecc).Sound := by
  unfold Dev.controlChecked
  try dsimp only
  repeat' first
    | with_reducible assumption
    | with_reducible apply Dev.secdedCorrected_sound
    | with_reducible apply Dev.secdedBad_sound
    | with_reducible apply Dev.setReg_sound
    | with_reducible apply Dev.controlLost_sound
    | with_reducible apply Dev.mapRuns_sound
    | with_reducible apply Dev.reserved_sound
    | with_reducible apply Dev.Sound.ite
    | with_reducible apply Dev.Sound.ite_snd
    | with_reducible apply Dev.Sound.foldl
    | simp only [Dev.Sound.keep]
    | simp only [Dev.Sound.keepSdp]
    | (intro _; intros; try dsimp only)
    | dsimp only
    | (split; all_goals try dsimp only)

theorem Dev.memPowerDown_sound {d : Dev} (h : d.Sound) (c : Nat) : (Dev.memPowerDown d c).Sound := by
  unfold Dev.memPowerDown
  try dsimp only
  repeat' first
    | with_reducible assumption
    | with_reducible apply Dev.count_sound
    | with_reducible apply Dev.setReg_sound
    | with_reducible apply Dev.Sound.ite
    | (intro _; intros; try dsimp only)

theorem Dev.writeMemPd_sound {d : Dev} (h : d.Sound) (v : Nat) : (Dev.writeMemPd d v).Sound := by
  unfold Dev.writeMemPd
  try dsimp only
  repeat' first
    | with_reducible assumption
    | with_reducible apply Dev.refuse_sound
    | with_reducible apply Dev.genericWrite_sound
    | with_reducible apply Dev.Sound.ite
    | (intro _; intros; try dsimp only)

theorem Dev.logDamaged_sound {d : Dev} (hk : d.Sound) (n : Nat) : (Dev.logDamaged d n).Sound :=
  { hk with log := by simpa only [Dev.logDamaged, List.length_map] using hk.log }

theorem Dev.writeLogIndex_sound {d : Dev} (hk : d.Sound) (v : Nat) (ecc : Ecc) : (Dev.writeLogIndex d v ecc).Sound := by
  unfold Dev.writeLogIndex
  try dsimp only
  repeat' first
    | with_reducible assumption
    | with_reducible apply Dev.setReg_sound
    | with_reducible apply Dev.logDamaged_sound
    | with_reducible apply Dev.reserved_sound
    | with_reducible apply Dev.showLog_sound
    | with_reducible apply Dev.Sound.ite
    | with_reducible apply Dev.Sound.ite_snd
    | with_reducible apply Dev.Sound.foldl
    | simp only [Dev.Sound.keep]
    | simp only [Dev.Sound.keepSdp]
    | (intro _; intros; try dsimp only)
    | dsimp only
    | (split; all_goals try dsimp only)

/-! ### Tally -/

theorem Dev.scanEnd_sound {d : Dev} (h : d.Sound) (h : Scan) (status : Nat) (detail : Nat) (value : Nat) : (Dev.scanEnd d h status detail value).Sound := by
  unfold Dev.scanEnd
  try dsimp only
  repeat' first
    | with_reducible assumption
    | with_reducible apply Dev.ringComplete_sound

theorem Dev.writeTlyParam_sound {d : Dev} (h : d.Sound) (u : Nat) (key : Nat) (v : Nat) : (Dev.writeTlyParam d u key v).Sound := by
  unfold Dev.writeTlyParam
  try dsimp only
  repeat' first
    | with_reducible assumption
    | with_reducible apply Dev.refuse_sound
    | with_reducible apply Dev.genericWrite_sound
    | with_reducible apply Dev.Sound.ite
    | (intro _; intros; try dsimp only)

theorem Dev.tlyShow_sound {d : Dev} (h : d.Sound) (u : Nat) : (Dev.tlyShow d u).Sound := by
  unfold Dev.tlyShow
  try dsimp only
  repeat' first
    | with_reducible assumption
    | with_reducible apply Dev.setFld_sound

theorem Dev.writeTlyCfg_sound {d : Dev} (h : d.Sound) (u : Nat) (v : Nat) : (Dev.writeTlyCfg d u v).Sound := by
  unfold Dev.writeTlyCfg
  try dsimp only
  repeat' first
    | with_reducible assumption
    | with_reducible apply Dev.refuse_sound
    | with_reducible apply Dev.genericWrite_sound
    | with_reducible apply Dev.setTly_sound
    | with_reducible apply Dev.tlyShow_sound
    | with_reducible apply Dev.Sound.ite
    | (intro _; intros; try dsimp only)
    | (split; all_goals try dsimp only)

theorem Dev.scanTimeout_sound {d : Dev} (h : d.Sound) (r : Nat) : (Dev.scanTimeout d r).Sound := by
  unfold Dev.scanTimeout
  try dsimp only
  repeat' first
    | with_reducible assumption
    | with_reducible apply Dev.tlyShow_sound
    | with_reducible apply Dev.scanEnd_sound
    | with_reducible apply Dev.setTly_sound
    | with_reducible apply Dev.Sound.foldl
    | (intro _; intros; try dsimp only)
    | (split; all_goals try dsimp only)

theorem Dev.scanComplete_sound {d : Dev} (h : d.Sound) (u : Nat) (bad : List Nat) : (Dev.scanComplete d u bad).Sound := by
  unfold Dev.scanComplete
  try dsimp only
  repeat' first
    | with_reducible assumption
    | with_reducible apply Dev.memWake_sound
    | with_reducible apply Dev.plainLadders_sound
    | with_reducible apply Dev.setTly_sound
    | with_reducible apply Dev.memStore_sound
    | with_reducible apply Dev.tlyPush_sound
    | with_reducible apply Dev.fenceAdvance_sound
    | with_reducible apply Dev.count_sound
    | with_reducible apply Dev.tlyEvent_sound
    | with_reducible apply Dev.scanEnd_sound
    | with_reducible apply Dev.tlyShow_sound
    | with_reducible apply Dev.Sound.ite
    | with_reducible apply Dev.Sound.ite_snd
    | with_reducible apply Dev.Sound.foldl
    | simp only [Dev.Sound.keep]
    | simp only [Dev.Sound.keepSdp]
    | (intro _; intros; try dsimp only)
    | dsimp only
    | (split; all_goals try dsimp only)

theorem Dev.tlyShowResult_sound {d : Dev} (h : d.Sound) (u : Nat) (x : TlyResult) : (Dev.tlyShowResult d u x).Sound := by
  unfold Dev.tlyShowResult
  try dsimp only
  repeat' first
    | with_reducible assumption
    | with_reducible apply Dev.setRegs_sound

theorem Dev.resultPop_sound {d : Dev} (h : d.Sound) (u : Nat) (ecc : Ecc) : (Dev.resultPop d u ecc).2.Sound := by
  unfold Dev.resultPop
  try dsimp only
  repeat' first
    | with_reducible assumption
    | with_reducible apply Dev.setFlag_sound
    | with_reducible apply Dev.count_sound
    | with_reducible apply Dev.secdedCorrected_sound
    | with_reducible apply Dev.freshNat_sound
    | with_reducible apply Dev.secdedBad_sound
    | with_reducible apply Dev.setTly_sound
    | with_reducible apply Dev.tlyShowResult_sound
    | with_reducible apply Dev.Sound.ite
    | with_reducible apply Dev.Sound.ite_snd
    | with_reducible apply Dev.Sound.foldl
    | simp only [Dev.Sound.keep]
    | simp only [Dev.Sound.keepSdp]
    | (intro _; intros; try dsimp only)
    | dsimp only
    | (split; all_goals try dsimp only)

theorem Dev.scanRead_sound {d : Dev} (h : d.Sound) (r : Nat) : (Dev.scanRead d r).Sound := by
  unfold Dev.scanRead
  try dsimp only
  repeat' first
    | with_reducible assumption
    | with_reducible apply Dev.ringFetch_sound
    | with_reducible apply Dev.ringTake_sound
    | with_reducible apply Dev.scanEnd_sound
    | with_reducible apply Dev.setTly_sound
    | with_reducible apply Dev.tlyShow_sound
    | with_reducible apply Dev.Sound.ite
    | with_reducible apply Dev.Sound.ite_snd
    | with_reducible apply Dev.Sound.foldl
    | simp only [Dev.Sound.keep]
    | simp only [Dev.Sound.keepSdp]
    | (intro _; intros; try dsimp only)
    | dsimp only
    | (split; all_goals try dsimp only)

theorem Dev.scanStart_sound {d : Dev} (h : d.Sound) (u : Nat) : (Dev.scanStart d u).Sound := by
  unfold Dev.scanStart
  try dsimp only
  repeat' first
    | with_reducible assumption
    | with_reducible apply Dev.setTly_sound
    | with_reducible apply Dev.scanEnd_sound
    | with_reducible apply Dev.tlyShow_sound
    | with_reducible apply Dev.Sound.ite
    | with_reducible apply Dev.Sound.ite_snd
    | with_reducible apply Dev.Sound.foldl
    | simp only [Dev.Sound.keep]
    | simp only [Dev.Sound.keepSdp]
    | (intro _; intros; try dsimp only)
    | dsimp only
    | (split; all_goals try dsimp only)

theorem Dev.scanStop_sound {d : Dev} (h : d.Sound) (waiting : Nat) : (Dev.scanStop d waiting).Sound := by
  unfold Dev.scanStop
  try dsimp only
  repeat' first
    | with_reducible assumption
    | with_reducible apply Dev.setTly_sound
    | with_reducible apply Dev.orphanReader_sound
    | with_reducible apply Dev.scanEnd_sound
    | with_reducible apply Dev.tlyShow_sound
    | with_reducible apply Dev.Sound.ite
    | with_reducible apply Dev.Sound.ite_snd
    | with_reducible apply Dev.Sound.foldl
    | simp only [Dev.Sound.keep]
    | simp only [Dev.Sound.keepSdp]
    | (intro _; intros; try dsimp only)
    | dsimp only
    | (split; all_goals try dsimp only)

/-! ### Reframe -/

theorem Dev.renumber_sound {d : Dev} (h : d.Sound) (s : Nat) : (Dev.renumber d s).Sound := by
  unfold Dev.renumber
  try dsimp only
  repeat' first
    | with_reducible assumption
    | with_reducible apply Dev.loseJobs_sound
    | with_reducible apply Dev.orphanLadders_sound
    | with_reducible apply Dev.setCoach_sound
    | with_reducible apply Dev.Sound.ite
    | with_reducible apply Dev.Sound.ite_snd
    | with_reducible apply Dev.Sound.foldl
    | simp only [Dev.Sound.keep]
    | simp only [Dev.Sound.keepSdp]
    | (intro _; intros; try dsimp only)
    | dsimp only
    | (split; all_goals try dsimp only)

theorem Dev.reframeAccept_sound {d : Dev} (h : d.Sound) (b : Rat) (given : Option Nat) : (Dev.reframeAccept d b given).Sound := by
  unfold Dev.reframeAccept
  try dsimp only
  repeat' first
    | with_reducible assumption
    | with_reducible apply Dev.lullExit_sound
    | with_reducible apply Dev.renumber_sound
    | with_reducible apply Dev.Sound.ite
    | with_reducible apply Dev.Sound.ite_snd
    | with_reducible apply Dev.Sound.foldl
    | simp only [Dev.Sound.keep]
    | simp only [Dev.Sound.keepSdp]
    | (intro _; intros; try dsimp only)
    | dsimp only
    | (split; all_goals try dsimp only)

theorem Dev.reframeNumbers_sound {d : Dev} (h : d.Sound) : (Dev.reframeNumbers d).Sound := by
  unfold Dev.reframeNumbers
  try dsimp only
  repeat' first
    | with_reducible assumption
    | with_reducible apply Dev.renumber_sound
    | (split; all_goals try dsimp only)

end Sys2Proof.Machine
end

