-- ==== Sys2Proof/Laws/SoundJoined.lean ====
section
/-! SUPPORT. What keeps a device sound: the twin, the trunk and strokes. -/

set_option linter.unusedTactic false
set_option linter.unreachableTactic false
set_option linter.unusedSimpArgs false
set_option linter.unusedVariables false

namespace Sys2Proof.Machine

theorem Dev.readsAcked_sound {d : Dev} (hk : d.Sound) : (Dev.readsAcked d).Sound := by
  unfold Dev.readsAcked
  try dsimp only
  repeat' first
    | with_reducible assumption
    | with_reducible apply Dev.commitRead_sound
    | with_reducible apply Dev.flpEdge_sound
    | with_reducible apply Dev.Sound.ite
    | with_reducible apply Dev.Sound.ite_snd
    | with_reducible apply Dev.Sound.foldl
    | simp only [Dev.Sound.keep]
    | simp only [Dev.Sound.keepSdp]
    | (intro _; intros; try dsimp only)
    | dsimp only
    | (split; all_goals try dsimp only)

/-! ### Twin -/

theorem Dev.twnAck_sound {d : Dev} (h : d.Sound) (ack : Nat) : (Dev.twnAck d ack).Sound := by
  unfold Dev.twnAck
  try dsimp only
  repeat' first
    | with_reducible assumption
    | with_reducible apply Dev.trkRelease_sound
    | with_reducible apply Dev.readsAcked_sound
    | with_reducible apply Dev.Sound.ite
    | with_reducible apply Dev.Sound.ite_snd
    | with_reducible apply Dev.Sound.foldl
    | simp only [Dev.Sound.keep]
    | simp only [Dev.Sound.keepSdp]
    | (intro _; intros; try dsimp only)
    | dsimp only
    | (split; all_goals try dsimp only)

theorem Dev.setLane_sound {d : Dev} (h : d.Sound) (p : Nat) (x : Nat) : (Dev.setLane d p x).Sound := by
  unfold Dev.setLane
  try dsimp only
  repeat' first
    | with_reducible assumption
    | with_reducible apply Dev.emit_sound
    | with_reducible apply Dev.setFld_sound
    | with_reducible apply Dev.Sound.ite
    | with_reducible apply Dev.Sound.ite_snd
    | with_reducible apply Dev.Sound.foldl
    | simp only [Dev.Sound.keep]
    | simp only [Dev.Sound.keepSdp]
    | (intro _; intros; try dsimp only)
    | dsimp only
    | (split; all_goals try dsimp only)

theorem Dev.comparisonsEnd_sound {d : Dev} (h : d.Sound) : (Dev.comparisonsEnd d).Sound := by
  unfold Dev.comparisonsEnd
  try dsimp only
  repeat' first
    | with_reducible assumption
    | with_reducible apply Dev.comparisonEnd_sound
    | with_reducible apply Dev.Sound.ite
    | with_reducible apply Dev.Sound.foldl
    | (intro _; intros; try dsimp only)

theorem Dev.twnTo_sound {d : Dev} (h : d.Sound) (x : Nat) : (Dev.twnTo d x).Sound := by
  unfold Dev.twnTo
  try dsimp only
  repeat' first
    | with_reducible assumption
    | with_reducible apply Dev.setFld_sound
    | with_reducible apply Dev.raise_sound
    | with_reducible apply Dev.twnEvent_sound
    | with_reducible apply Dev.Sound.ite
    | (intro _; intros; try dsimp only)

theorem Dev.setStandby_sound {d : Dev} (h : d.Sound) (on : Bool) : (Dev.setStandby d on).Sound := by
  unfold Dev.setStandby
  try dsimp only
  repeat' first
    | with_reducible assumption
    | with_reducible apply Dev.Sound.ite
    | with_reducible apply Dev.Sound.ite_snd
    | with_reducible apply Dev.Sound.foldl
    | simp only [Dev.Sound.keep]
    | simp only [Dev.Sound.keepSdp]
    | (intro _; intros; try dsimp only)
    | dsimp only
    | (split; all_goals try dsimp only)

theorem Dev.standbyDue_sound {d : Dev} (h : d.Sound) : (Dev.standbyDue d).Sound := by
  unfold Dev.standbyDue
  try dsimp only
  repeat' first
    | with_reducible assumption
    | with_reducible apply Dev.Sound.ite
    | simp only [Dev.Sound.keepSdp]
    | (intro _; intros; try dsimp only)

theorem Dev.pairEnded_sound {d : Dev} (h : d.Sound) : (Dev.pairEnded d).Sound := by
  unfold Dev.pairEnded
  try dsimp only
  repeat' first
    | with_reducible assumption
    | with_reducible apply Dev.trkRelease_sound
    | with_reducible apply Dev.repairFailed_sound
    | with_reducible apply Dev.Sound.foldl
    | (intro _; intros; try dsimp only)

theorem Dev.readsOver_sound {d : Dev} (hk : d.Sound) (before : Dev) : (Dev.readsOver d before).Sound := by
  unfold Dev.readsOver
  try dsimp only
  repeat' first
    | with_reducible assumption
    | with_reducible apply Dev.giveUpTables_sound
    | with_reducible apply Dev.plateTidy_sound
    | with_reducible apply Dev.freeCopies_sound
    | with_reducible apply Dev.Sound.ite
    | with_reducible apply Dev.Sound.ite_snd
    | with_reducible apply Dev.Sound.foldl
    | simp only [Dev.Sound.keep]
    | simp only [Dev.Sound.keepSdp]
    | (intro _; intros; try dsimp only)
    | dsimp only
    | (split; all_goals try dsimp only)

theorem Dev.enterAlone_sound {d : Dev} (h : d.Sound) (cause : Nat) : (Dev.enterAlone d cause).Sound := by
  unfold Dev.enterAlone
  try dsimp only
  repeat' first
    | with_reducible assumption
    | with_reducible apply Dev.comparisonsEnd_sound
    | with_reducible apply Dev.setFld_sound
    | with_reducible apply Dev.twnTo_sound
    | with_reducible apply Dev.setStandby_sound
    | with_reducible apply Dev.standbyDue_sound
    | with_reducible apply Dev.readsOver_sound
    | with_reducible apply Dev.pairEnded_sound
    | with_reducible apply Dev.coachSettle_sound
    | with_reducible apply Dev.readsAcked_sound
    | with_reducible apply Dev.Sound.ite
    | with_reducible apply Dev.Sound.ite_snd
    | with_reducible apply Dev.Sound.foldl
    | simp only [Dev.Sound.keep]
    | simp only [Dev.Sound.keepSdp]
    | (intro _; intros; try dsimp only)
    | dsimp only
    | (split; all_goals try dsimp only)

theorem Dev.twnPart_sound {d : Dev} (h : d.Sound) (cause : Nat) : (Dev.twnPart d cause).Sound := by
  unfold Dev.twnPart
  try dsimp only
  repeat' first
    | with_reducible assumption
    | with_reducible apply Dev.twnSend_sound
    | with_reducible apply Dev.Sound.ite
    | (intro _; intros; try dsimp only)

theorem Dev.twnLatch_sound {d : Dev} (h : d.Sound) (m : Nat) : (Dev.twnLatch d m).2.Sound := by
  unfold Dev.twnLatch
  try dsimp only
  repeat' first
    | with_reducible assumption
    | with_reducible apply Dev.raise_sound
    | with_reducible apply Dev.twnEvent_sound
    | with_reducible apply Dev.enterAlone_sound
    | with_reducible apply Dev.twnPart_sound
    | with_reducible apply Dev.Sound.ite_snd
    | simp only [Dev.Sound.keepSdp]
    | (intro _; intros; try dsimp only)

theorem Dev.laneLost_sound {d : Dev} (h : d.Sound) (p : Nat) (x : Nat) : (Dev.laneLost d p x).Sound := by
  unfold Dev.laneLost
  try dsimp only
  repeat' first
    | with_reducible assumption
    | with_reducible apply Dev.setLane_sound
    | with_reducible apply Dev.raise_sound
    | with_reducible apply Dev.twnEvent_sound
    | with_reducible apply Dev.Sound.ite
    | (intro _; intros; try dsimp only)

theorem Dev.enterPaired_sound {d : Dev} (h : d.Sound) : (Dev.enterPaired d).Sound := by
  unfold Dev.enterPaired
  try dsimp only
  repeat' first
    | with_reducible assumption
    | with_reducible apply Dev.twnTo_sound
    | with_reducible apply Dev.setFld_sound
    | with_reducible apply Dev.raise_sound
    | with_reducible apply Dev.coachSettle_sound
    | with_reducible apply Dev.Sound.ite
    | simp only [Dev.Sound.keepSdp]
    | (intro _; intros; try dsimp only)

theorem Dev.Sound.ite_pair {α : Type} {c : Prop} [Decidable c] {d : Dev} (h : d.Sound) (a : α) {r : Nat × Dev}
    (hr : r.2.Sound) (g : Nat → α) : (if c then (a, d) else (g r.1, r.2)).2.Sound := by
  split
  · exact h
  · exact hr

theorem Dev.syncDelay_sound {d : Dev} (h : d.Sound) (payload : List Byte) (arrival : Nat) :
    (d.syncDelay payload arrival).2.Sound := by
  unfold Dev.syncDelay
  have key := fun (z : Rat) => Dev.roundFree_sound h z
  generalize signed 64 = s64
  generalize syncField payload = f
  generalize 2 ^ 64 = big
  generalize 2 ^ 24 = lit
  exact Dev.Sound.ite_pair h none (key _) fun x => some (x % lit)

theorem Dev.enterAuth_sound {d : Dev} (h : d.Sound) : (Dev.enterAuth d).Sound := by
  unfold Dev.enterAuth
  try dsimp only
  repeat' first
    | with_reducible assumption
    | with_reducible apply Dev.freshBytes_sound
    | with_reducible apply Dev.setFld_sound
    | with_reducible apply Dev.twnTo_sound
    | with_reducible apply Dev.twnSend_sound
    | with_reducible apply Dev.Sound.ite
    | with_reducible apply Dev.Sound.ite_snd
    | with_reducible apply Dev.Sound.foldl
    | simp only [Dev.Sound.keep]
    | simp only [Dev.Sound.keepSdp]
    | (intro _; intros; try dsimp only)
    | dsimp only
    | (split; all_goals try dsimp only)

theorem Dev.twnRetry_sound {d : Dev} (h : d.Sound) : (Dev.twnRetry d).Sound := by
  unfold Dev.twnRetry
  try dsimp only
  repeat' first
    | with_reducible assumption
    | with_reducible apply Dev.enterAuth_sound
    | with_reducible apply Dev.refuse_sound
    | with_reducible apply Dev.Sound.ite
    | (intro _; intros; try dsimp only)

theorem Dev.laneAligned_sound {d : Dev} (h : d.Sound) (p : Nat) : (Dev.laneAligned d p).Sound := by
  unfold Dev.laneAligned
  try dsimp only
  repeat' first
    | with_reducible assumption
    | with_reducible apply Dev.setLane_sound
    | with_reducible apply Dev.enterAuth_sound
    | with_reducible apply Dev.Sound.ite
    | with_reducible apply Dev.Sound.ite_snd
    | with_reducible apply Dev.Sound.foldl
    | simp only [Dev.Sound.keep]
    | simp only [Dev.Sound.keepSdp]
    | (intro _; intros; try dsimp only)
    | dsimp only
    | (split; all_goals try dsimp only)

theorem Dev.twnHeard_sound {d : Dev} (h : d.Sound) (h : TwinHead) (good : Bool) : (Dev.twnHeard d h good).2.Sound := by
  unfold Dev.twnHeard
  try dsimp only
  repeat' first
    | with_reducible assumption
    | with_reducible apply Dev.countBy_sound
    | with_reducible apply Dev.twnAck_sound
    | with_reducible apply Dev.count_sound
    | with_reducible apply Dev.Sound.ite_snd
    | simp only [Dev.Sound.keepSdp]
    | (intro _; intros; try dsimp only)

theorem Dev.laneTrain_sound {d : Dev} (hk : d.Sound) (p : Nat) : (Dev.laneTrain d p).Sound := by
  unfold Dev.laneTrain
  try dsimp only
  repeat' first
    | with_reducible assumption
    | with_reducible apply Dev.emit_sound
    | with_reducible apply Dev.Sound.ite
    | with_reducible apply Dev.Sound.ite_snd
    | with_reducible apply Dev.Sound.foldl
    | simp only [Dev.Sound.keep]
    | simp only [Dev.Sound.keepSdp]
    | (intro _; intros; try dsimp only)
    | dsimp only
    | (split; all_goals try dsimp only)

theorem Dev.laneUp_sound {d : Dev} (h : d.Sound) (p : Nat) : (Dev.laneUp d p).Sound := by
  unfold Dev.laneUp
  try dsimp only
  repeat' first
    | with_reducible assumption
    | with_reducible apply Dev.setLane_sound
    | with_reducible apply Dev.laneTrain_sound
    | with_reducible apply Dev.Sound.ite
    | with_reducible apply Dev.Sound.ite_snd
    | with_reducible apply Dev.Sound.foldl
    | simp only [Dev.Sound.keep]
    | simp only [Dev.Sound.keepSdp]
    | (intro _; intros; try dsimp only)
    | dsimp only
    | (split; all_goals try dsimp only)

theorem Dev.laneRetrain_sound {d : Dev} (h : d.Sound) (p : Nat) : (Dev.laneRetrain d p).Sound := by
  unfold Dev.laneRetrain
  try dsimp only
  repeat' first
    | with_reducible assumption
    | with_reducible apply Dev.laneLost_sound
    | with_reducible apply Dev.laneTrain_sound
    | with_reducible apply Dev.newEpoch_sound
    | with_reducible apply Dev.twnEvent_sound
    | with_reducible apply Dev.Sound.ite
    | with_reducible apply Dev.Sound.ite_snd
    | with_reducible apply Dev.Sound.foldl
    | simp only [Dev.Sound.keep]
    | simp only [Dev.Sound.keepSdp]
    | (intro _; intros; try dsimp only)
    | dsimp only
    | (split; all_goals try dsimp only)

theorem Dev.writeTwnPort_sound {d : Dev} (h : d.Sound) (p : Nat) (v : Nat) : (Dev.writeTwnPort d p v).Sound := by
  unfold Dev.writeTwnPort
  try dsimp only
  repeat' first
    | with_reducible assumption
    | with_reducible apply Dev.genericWrite_sound
    | with_reducible apply Dev.laneUp_sound
    | with_reducible apply Dev.laneLost_sound
    | with_reducible apply Dev.refuse_sound
    | with_reducible apply Dev.laneRetrain_sound
    | with_reducible apply Dev.Sound.ite
    | (intro _; intros; try dsimp only)

theorem Dev.sendImage_sound {d : Dev} (h : d.Sound) : (Dev.sendImage d).Sound := by
  unfold Dev.sendImage
  try dsimp only
  repeat' first
    | with_reducible assumption
    | with_reducible apply Dev.twnSendMsg_sound
    | with_reducible apply Dev.Sound.ite
    | with_reducible apply Dev.Sound.ite_snd
    | with_reducible apply Dev.Sound.foldl
    | with_reducible apply Dev.Sound.foldl_fst
    | simp only [Dev.Sound.keep]
    | simp only [Dev.Sound.keepSdp]
    | (intro _; intros; try dsimp only)
    | dsimp only
    | (split; all_goals try dsimp only)

theorem Dev.enterJoin_sound {d : Dev} (h : d.Sound) : (Dev.enterJoin d).Sound := by
  unfold Dev.enterJoin
  try dsimp only
  repeat' first
    | with_reducible assumption
    | with_reducible apply Dev.twnTo_sound
    | with_reducible apply Dev.setStandby_sound
    | with_reducible apply Dev.coachSettle_sound
    | with_reducible apply Dev.sendImage_sound
    | with_reducible apply Dev.Sound.ite
    | with_reducible apply Dev.Sound.ite_snd
    | with_reducible apply Dev.Sound.foldl
    | simp only [Dev.Sound.keep]
    | simp only [Dev.Sound.keepSdp]
    | (intro _; intros; try dsimp only)
    | dsimp only
    | (split; all_goals try dsimp only)

theorem Dev.twnFail_sound {d : Dev} (h : d.Sound) (row : Nat) : (Dev.twnFail d row).Sound := by
  unfold Dev.twnFail
  try dsimp only
  repeat' first
    | with_reducible assumption
    | with_reducible apply Dev.twnTo_sound
    | with_reducible apply Dev.setFld_sound

theorem Dev.twnTagged_sound {d : Dev} (h : d.Sound) (tag : List Byte) : (Dev.twnTagged d tag).Sound := by
  unfold Dev.twnTagged
  try dsimp only
  repeat' first
    | with_reducible assumption
    | with_reducible apply Dev.enterJoin_sound
    | with_reducible apply Dev.enterPaired_sound
    | with_reducible apply Dev.twnFail_sound
    | with_reducible apply Dev.Sound.ite
    | simp only [Dev.Sound.keepSdp]
    | (intro _; intros; try dsimp only)
    | (split; all_goals try dsimp only)

theorem Dev.twnSettle_sound {d : Dev} (h : d.Sound) : (Dev.twnSettle d).Sound := by
  unfold Dev.twnSettle
  try dsimp only
  repeat' first
    | with_reducible assumption
    | with_reducible apply Dev.emit_sound
    | with_reducible apply Dev.laneUp_sound
    | with_reducible apply Dev.laneLost_sound
    | with_reducible apply Dev.Sound.ite
    | with_reducible apply Dev.Sound.ite_snd
    | with_reducible apply Dev.Sound.foldl
    | simp only [Dev.Sound.keep]
    | simp only [Dev.Sound.keepSdp]
    | (intro _; intros; try dsimp only)
    | dsimp only
    | (split; all_goals try dsimp only)

theorem Dev.partnerLost_sound {d : Dev} (h : d.Sound) : (Dev.partnerLost d).Sound := by
  unfold Dev.partnerLost
  try dsimp only
  repeat' first
    | with_reducible assumption
    | with_reducible apply Dev.enterAlone_sound
    | with_reducible apply Dev.raise_sound
    | with_reducible apply Dev.twnEvent_sound
    | with_reducible apply Dev.count_sound
    | with_reducible apply Dev.standbyDue_sound
    | with_reducible apply Dev.setFld_sound
    | with_reducible apply Dev.Sound.ite
    | (intro _; intros; try dsimp only)

theorem Dev.twnResend_sound {d : Dev} (h : d.Sound) : (Dev.twnResend d).Sound := by
  unfold Dev.twnResend
  try dsimp only
  repeat' first
    | with_reducible assumption
    | with_reducible apply Dev.count_sound
    | with_reducible apply Dev.twnEmit_sound
    | with_reducible apply Dev.Sound.ite
    | with_reducible apply Dev.Sound.foldl
    | simp only [Dev.Sound.keepSdp]
    | (intro _; intros; try dsimp only)

theorem Dev.twnDecide_sound {d : Dev} (h : d.Sound) : (Dev.twnDecide d).Sound := by
  unfold Dev.twnDecide
  try dsimp only
  repeat' first
    | with_reducible assumption
    | with_reducible apply Dev.twnSendMsg_sound
    | with_reducible apply Dev.Sound.ite
    | simp only [Dev.Sound.keepSdp]
    | (intro _; intros; try dsimp only)
    | (split; all_goals try dsimp only)

theorem Dev.twnCutoff_sound {d : Dev} (h : d.Sound) : (Dev.twnCutoff d).Sound := by
  unfold Dev.twnCutoff
  try dsimp only
  repeat' first
    | with_reducible assumption
    | with_reducible apply Dev.advanceSc_sound
    | with_reducible apply Dev.twnSendMsg_sound
    | with_reducible apply Dev.twnDecide_sound
    | with_reducible apply Dev.Sound.ite
    | simp only [Dev.Sound.keepSdp]
    | (intro _; intros; try dsimp only)

theorem Dev.twnSync_sound {d : Dev} (h : d.Sound) (payload : List Byte) (arrival : Nat) : (Dev.twnSync d payload arrival).Sound := by
  unfold Dev.twnSync
  try dsimp only
  repeat' first
    | with_reducible assumption
    | with_reducible apply Dev.syncDelay_sound
    | with_reducible apply Dev.setReg_sound
    | with_reducible apply Dev.freshBool_sound
    | with_reducible apply Dev.raise_sound
    | with_reducible apply Dev.twnEvent_sound
    | with_reducible apply Dev.count_sound
    | with_reducible apply Dev.Sound.ite
    | simp only [Dev.Sound.keepSdp]
    | (intro _; intros; try dsimp only)
    | (split; all_goals try dsimp only)

theorem Dev.onTwin_sound {d : Dev} (h : d.Sound) (p : Nat) (key : Nat) (f : Dev → Dev) (hf : ∀ d, d.Sound → (f d).Sound) : (Dev.onTwin d p key f).Sound := by
  unfold Dev.onTwin
  try dsimp only
  repeat' first
    | with_reducible assumption
    | with_reducible apply Dev.onWrite_sound
    | with_reducible apply Dev.Sound.ite
    | (intro _; intros; try dsimp only)

theorem Dev.unpair_sound {d : Dev} (h : d.Sound) : (Dev.unpair d).Sound := by
  unfold Dev.unpair
  try dsimp only
  repeat' first
    | with_reducible assumption
    | with_reducible apply Dev.twnPart_sound
    | with_reducible apply Dev.comparisonsEnd_sound
    | with_reducible apply Dev.twnTo_sound
    | with_reducible apply Dev.readsOver_sound
    | with_reducible apply Dev.pairEnded_sound
    | with_reducible apply Dev.readsAcked_sound
    | with_reducible apply Dev.Sound.ite
    | with_reducible apply Dev.Sound.ite_snd
    | with_reducible apply Dev.Sound.foldl
    | simp only [Dev.Sound.keep]
    | simp only [Dev.Sound.keepSdp]
    | (intro _; intros; try dsimp only)
    | dsimp only
    | (split; all_goals try dsimp only)

theorem Dev.twnSwap_sound {d : Dev} (h : d.Sound) : (Dev.twnSwap d).Sound := by
  unfold Dev.twnSwap
  try dsimp only
  repeat' first
    | with_reducible assumption
    | with_reducible apply Dev.refuse_sound
    | with_reducible apply Dev.setFld_sound
    | with_reducible apply Dev.flushSets_sound
    | with_reducible apply Dev.coachSettle_sound
    | with_reducible apply Dev.setStandby_sound
    | with_reducible apply Dev.Sound.ite
    | (intro _; intros; try dsimp only)

theorem Dev.writeTwnCtrl_sound {d : Dev} (h : d.Sound) (v : Nat) : (Dev.writeTwnCtrl d v).Sound := by
  unfold Dev.writeTwnCtrl
  try dsimp only
  repeat' first
    | with_reducible assumption
    | with_reducible apply Dev.genericWrite_sound
    | with_reducible apply Dev.twnPart_sound
    | with_reducible apply Dev.unpair_sound
    | with_reducible apply Dev.twnRetry_sound
    | with_reducible apply Dev.twnSwap_sound
    | with_reducible apply Dev.twnSettle_sound
    | with_reducible apply Dev.Sound.ite
    | (intro _; intros; try dsimp only)

theorem Dev.writeTwnLoss_sound {d : Dev} (h : d.Sound) (v : Nat) : (Dev.writeTwnLoss d v).Sound := by
  unfold Dev.writeTwnLoss
  try dsimp only
  repeat' first
    | with_reducible assumption
    | with_reducible apply Dev.refuse_sound
    | with_reducible apply Dev.genericWrite_sound
    | with_reducible apply Dev.Sound.ite
    | (intro _; intros; try dsimp only)

/-! ### Trunk -/

theorem Dev.laneUpper_sound {d : Dev} (h : d.Sound) (x : TrkLane) : (Dev.laneUpper d x).2.Sound := by
  unfold Dev.laneUpper
  try dsimp only
  repeat' first
    | with_reducible assumption
    | with_reducible apply Dev.freshBool_sound
    | with_reducible apply Dev.Sound.ite_snd
    | simp only [Dev.Sound.keepSdp]
    | (intro _; intros; try dsimp only)

theorem Dev.laneAuthed_sound {d : Dev} (h : d.Sound) (p : Nat) (payload : List Byte) : (Dev.laneAuthed d p payload).Sound := by
  unfold Dev.laneAuthed
  try dsimp only
  repeat' first
    | with_reducible assumption
    | with_reducible apply Dev.setTlane_sound
    | with_reducible apply Dev.laneUpper_sound
    | with_reducible apply Dev.trkSendOn_sound
    | with_reducible apply Dev.Sound.ite
    | (intro _; intros; try dsimp only)

theorem Dev.setComplete_sound {d : Dev} (h : d.Sound) (s : TrunkSet) (status : Nat) (stroke : Nat) (detail : Nat) : (Dev.setComplete d s status stroke detail).Sound := by
  unfold Dev.setComplete
  try dsimp only
  repeat' first
    | with_reducible assumption
    | with_reducible apply Dev.ringComplete_sound
    | (split; all_goals try dsimp only)

theorem Dev.dropTrunkSet_sound {d : Dev} (h : d.Sound) (n : Nat) : (Dev.dropTrunkSet d n).Sound := by
  unfold Dev.dropTrunkSet
  try dsimp only
  repeat' first
    | with_reducible assumption
    | simp only [Dev.Sound.keepSdp]

theorem Dev.putTrunkSet_sound {d : Dev} (hk : d.Sound) (s : TrunkSet) : (Dev.putTrunkSet d s).Sound := by
  unfold Dev.putTrunkSet
  try dsimp only
  repeat' first
    | with_reducible assumption
    | with_reducible apply Dev.Sound.ite
    | with_reducible apply Dev.Sound.ite_snd
    | with_reducible apply Dev.Sound.foldl
    | simp only [Dev.Sound.keep]
    | simp only [Dev.Sound.keepSdp]
    | (intro _; intros; try dsimp only)
    | dsimp only
    | (split; all_goals try dsimp only)

theorem Dev.setProgress_sound {d : Dev} (h : d.Sound) (s : TrunkSet) : (Dev.setProgress d s).Sound := by
  unfold Dev.setProgress
  try dsimp only
  repeat' first
    | with_reducible assumption
    | with_reducible apply Dev.setComplete_sound
    | with_reducible apply Dev.dropTrunkSet_sound
    | with_reducible apply Dev.fenceAdvance_sound
    | with_reducible apply Dev.putTrunkSet_sound
    | with_reducible apply Dev.Sound.ite
    | with_reducible apply Dev.Sound.ite_snd
    | with_reducible apply Dev.Sound.foldl
    | simp only [Dev.Sound.keep]
    | simp only [Dev.Sound.keepSdp]
    | (intro _; intros; try dsimp only)
    | dsimp only
    | (split; all_goals try dsimp only)

theorem Dev.setsProgress_sound {d : Dev} (h : d.Sound) : (Dev.setsProgress d).Sound := by
  unfold Dev.setsProgress
  try dsimp only
  repeat' first
    | with_reducible assumption
    | with_reducible apply Dev.setProgress_sound
    | with_reducible apply Dev.Sound.foldl
    | (intro _; intros; try dsimp only)
    | (split; all_goals try dsimp only)

theorem Dev.trunkOriginLatch_sound {d : Dev} (h : d.Sound) (m : Nat) : (Dev.trunkOriginLatch d m).Sound := by
  unfold Dev.trunkOriginLatch
  try dsimp only
  repeat' first
    | with_reducible assumption
    | with_reducible apply Dev.fenceAdvance_sound
    | with_reducible apply Dev.putTrunkSet_sound
    | with_reducible apply Dev.setsProgress_sound
    | with_reducible apply Dev.dropTrunkSet_sound
    | with_reducible apply Dev.setComplete_sound
    | with_reducible apply Dev.Sound.ite
    | with_reducible apply Dev.Sound.ite_snd
    | with_reducible apply Dev.Sound.foldl
    | with_reducible apply Dev.Sound.foldl_fst
    | simp only [Dev.Sound.keep]
    | simp only [Dev.Sound.keepSdp]
    | (intro _; intros; try dsimp only)
    | dsimp only
    | (split; all_goals try dsimp only)

theorem Dev.trkTrain_sound {d : Dev} (hk : d.Sound) (p : Nat) : (Dev.trkTrain d p).Sound := by
  unfold Dev.trkTrain
  try dsimp only
  repeat' first
    | with_reducible assumption
    | with_reducible apply Dev.emit_sound
    | with_reducible apply Dev.Sound.ite
    | with_reducible apply Dev.Sound.ite_snd
    | with_reducible apply Dev.Sound.foldl
    | simp only [Dev.Sound.keep]
    | simp only [Dev.Sound.keepSdp]
    | (intro _; intros; try dsimp only)
    | dsimp only
    | (split; all_goals try dsimp only)

theorem Dev.trkLaneUp_sound {d : Dev} (h : d.Sound) (p : Nat) : (Dev.trkLaneUp d p).Sound := by
  unfold Dev.trkLaneUp
  try dsimp only
  repeat' first
    | with_reducible assumption
    | with_reducible apply Dev.laneTo_sound
    | with_reducible apply Dev.trkTrain_sound
    | with_reducible apply Dev.Sound.ite
    | with_reducible apply Dev.Sound.ite_snd
    | with_reducible apply Dev.Sound.foldl
    | simp only [Dev.Sound.keep]
    | simp only [Dev.Sound.keepSdp]
    | (intro _; intros; try dsimp only)
    | dsimp only
    | (split; all_goals try dsimp only)

theorem Dev.trunkLateCheck_sound {d : Dev} (h : d.Sound) (m : Nat) : (Dev.trunkLateCheck d m).Sound := by
  unfold Dev.trunkLateCheck
  try dsimp only
  repeat' first
    | with_reducible assumption
    | with_reducible apply Dev.raise_sound
    | with_reducible apply Dev.count_sound
    | with_reducible apply Dev.trkEvent_sound
    | with_reducible apply Dev.trkQuit_sound
    | with_reducible apply Dev.Sound.ite
    | (intro _; intros; try dsimp only)

theorem Dev.putImage_sound {d : Dev} (h : d.Sound) (regs : List Nat) : (Dev.putImage d regs).Sound := by
  unfold Dev.putImage
  try dsimp only
  repeat' first
    | with_reducible assumption
    | with_reducible apply Dev.setReg_sound
    | with_reducible apply Dev.Sound.ite
    | with_reducible apply Dev.Sound.ite_snd
    | with_reducible apply Dev.Sound.foldl
    | with_reducible apply Dev.Sound.foldl_fst
    | simp only [Dev.Sound.keep]
    | simp only [Dev.Sound.keepSdp]
    | (intro _; intros; try dsimp only)
    | dsimp only
    | (split; all_goals try dsimp only)

theorem Dev.sendPrepared_sound {d : Dev} (h : d.Sound) (n : Nat) (verdict : Nat) : (Dev.sendPrepared d n verdict).Sound := by
  unfold Dev.sendPrepared
  try dsimp only
  repeat' first
    | with_reducible assumption
    | with_reducible apply Dev.trkUp_sound

theorem Dev.prepareTiming_sound {d : Dev} (h : d.Sound) (n : Nat) (im : TimingImage) : (Dev.prepareTiming d n im).Sound := by
  unfold Dev.prepareTiming
  try dsimp only
  repeat' first
    | with_reducible assumption
    | with_reducible apply Dev.sendPrepared_sound
    | with_reducible apply Dev.Sound.ite
    | simp only [Dev.Sound.keepSdp]
    | (intro _; intros; try dsimp only)

theorem Dev.reframeRefused_sound {d : Dev} (h : d.Sound) : (Dev.reframeRefused d).Sound := by
  unfold Dev.reframeRefused
  try dsimp only
  repeat' first
    | with_reducible assumption
    | with_reducible apply Dev.coachSettle_sound
    | with_reducible apply Dev.raise_sound
    | with_reducible apply Dev.refuse_sound
    | simp only [Dev.Sound.keepSdp]

theorem Dev.takeGroup_sound {d : Dev} (h : d.Sound) (n : Nat) (target : Nat) (es : List (List Nat)) : (Dev.takeGroup d n target es).Sound := by
  unfold Dev.takeGroup
  try dsimp only
  repeat' first
    | with_reducible assumption
    | with_reducible apply Dev.lullExit_sound
    | with_reducible apply Dev.count_sound
    | with_reducible apply Dev.sendPrepared_sound
    | with_reducible apply Dev.acceptSet_sound
    | with_reducible apply Dev.countVerdict_sound
    | with_reducible apply Dev.Sound.ite
    | with_reducible apply Dev.Sound.ite_snd
    | with_reducible apply Dev.Sound.foldl
    | simp only [Dev.Sound.keep]
    | simp only [Dev.Sound.keepSdp]
    | (intro _; intros; try dsimp only)
    | dsimp only
    | (split; all_goals try dsimp only)

theorem Dev.setAbort_sound {d : Dev} (h : d.Sound) (s : TrunkSet) (status : Nat) (index : Nat) : (Dev.setAbort d s status index).Sound := by
  unfold Dev.setAbort
  try dsimp only
  repeat' first
    | with_reducible assumption
    | with_reducible apply Dev.trkDown_sound
    | with_reducible apply Dev.count_sound
    | with_reducible apply Dev.raise_sound
    | with_reducible apply Dev.dropTrunkSet_sound
    | with_reducible apply Dev.freshNat_sound
    | with_reducible apply Dev.setComplete_sound
    | with_reducible apply Dev.Sound.ite
    | with_reducible apply Dev.Sound.ite_snd
    | with_reducible apply Dev.Sound.foldl
    | simp only [Dev.Sound.keep]
    | simp only [Dev.Sound.keepSdp]
    | (intro _; intros; try dsimp only)
    | dsimp only
    | (split; all_goals try dsimp only)

theorem Dev.reframeCutoff_sound {d : Dev} (h : d.Sound) (s : TrunkSet) : (Dev.reframeCutoff d s).Sound := by
  unfold Dev.reframeCutoff
  try dsimp only
  repeat' first
    | with_reducible assumption
    | with_reducible apply Dev.dropTrunkSet_sound
    | with_reducible apply Dev.trkDown_sound
    | with_reducible apply Dev.reframeRefused_sound
    | with_reducible apply Dev.roundFree_sound
    | with_reducible apply Dev.twnMirror_sound
    | with_reducible apply Dev.Sound.ite
    | with_reducible apply Dev.Sound.ite_snd
    | with_reducible apply Dev.Sound.foldl
    | simp only [Dev.Sound.keep]
    | simp only [Dev.Sound.keepSdp]
    | (intro _; intros; try dsimp only)
    | dsimp only
    | (split; all_goals try dsimp only)

theorem Dev.commitCutoff_sound {d : Dev} (h : d.Sound) : (Dev.commitCutoff d).Sound := by
  unfold Dev.commitCutoff
  try dsimp only
  repeat' first
    | with_reducible assumption
    | with_reducible apply Dev.advanceSc_sound
    | with_reducible apply Dev.reframeCutoff_sound
    | with_reducible apply Dev.setAbort_sound
    | with_reducible apply Dev.trkDown_sound
    | with_reducible apply Dev.count_sound
    | with_reducible apply Dev.Sound.ite
    | with_reducible apply Dev.Sound.ite_snd
    | with_reducible apply Dev.Sound.foldl
    | with_reducible apply Dev.Sound.foldl_fst
    | simp only [Dev.Sound.keep]
    | simp only [Dev.Sound.keepSdp]
    | (intro _; intros; try dsimp only)
    | dsimp only
    | (split; all_goals try dsimp only)

theorem Dev.trkAck_sound {d : Dev} (h : d.Sound) (p : Nat) (ack : Nat) : (Dev.trkAck d p ack).Sound := by
  unfold Dev.trkAck
  try dsimp only
  repeat' first
    | with_reducible assumption
    | with_reducible apply Dev.setTlane_sound

theorem Dev.laneFail_sound {d : Dev} (h : d.Sound) (p : Nat) (row : Nat) : (Dev.laneFail d p row).Sound := by
  unfold Dev.laneFail
  try dsimp only
  repeat' first
    | with_reducible assumption
    | with_reducible apply Dev.setFld_sound
    | with_reducible apply Dev.trkTo_sound
    | with_reducible apply Dev.Sound.ite
    | (intro _; intros; try dsimp only)

theorem Dev.laneTagged_sound {d : Dev} (h : d.Sound) (p : Nat) (tag : List Byte) : (Dev.laneTagged d p tag).Sound := by
  unfold Dev.laneTagged
  try dsimp only
  repeat' first
    | with_reducible assumption
    | with_reducible apply Dev.laneUpper_sound
    | with_reducible apply Dev.laneFail_sound
    | with_reducible apply Dev.setTlane_sound
    | with_reducible apply Dev.trkRoute_sound
    | with_reducible apply Dev.tlyAppendTold_sound
    | with_reducible apply Dev.trkSendOn_sound
    | with_reducible apply Dev.Sound.ite
    | with_reducible apply Dev.Sound.ite_snd
    | with_reducible apply Dev.Sound.foldl
    | simp only [Dev.Sound.keep]
    | simp only [Dev.Sound.keepSdp]
    | (intro _; intros; try dsimp only)
    | dsimp only
    | (split; all_goals try dsimp only)

theorem Dev.readinessSnapshot_sound {d : Dev} (h : d.Sound) : (Dev.readinessSnapshot d).Sound := by
  unfold Dev.readinessSnapshot
  try dsimp only
  repeat' first
    | with_reducible assumption
    | with_reducible apply Dev.advanceSc_sound
    | with_reducible apply Dev.trkUp_sound
    | with_reducible apply Dev.Sound.ite
    | simp only [Dev.Sound.keepSdp]
    | (intro _; intros; try dsimp only)

theorem Dev.stripLeave_sound {d : Dev} (h : d.Sound) : (Dev.stripLeave d).Sound := by
  unfold Dev.stripLeave
  try dsimp only
  repeat' first
    | with_reducible assumption
    | with_reducible apply Dev.trkQuit_sound
    | with_reducible apply Dev.trkLeave_sound
    | with_reducible apply Dev.trkTo_sound
    | with_reducible apply Dev.trkForget_sound
    | with_reducible apply Dev.Sound.ite
    | with_reducible apply Dev.Sound.ite_snd
    | with_reducible apply Dev.Sound.foldl
    | simp only [Dev.Sound.keep]
    | simp only [Dev.Sound.keepSdp]
    | (intro _; intros; try dsimp only)
    | dsimp only
    | (split; all_goals try dsimp only)

theorem Dev.trkHeard_sound {d : Dev} (h : d.Sound) (h : TrunkHead) (good : Bool) : (Dev.trkHeard d h good).2.Sound := by
  unfold Dev.trkHeard
  try dsimp only
  repeat' first
    | with_reducible assumption
    | with_reducible apply Dev.countBy_sound
    | with_reducible apply Dev.trkAck_sound
    | with_reducible apply Dev.setTlane_sound
    | with_reducible apply Dev.count_sound
    | with_reducible apply Dev.Sound.ite_snd
    | simp only [Dev.Sound.keepSdp]
    | (intro _; intros; try dsimp only)

theorem Dev.showRoster_sound {d : Dev} (h : d.Sound) : (Dev.showRoster d).Sound := by
  unfold Dev.showRoster
  try dsimp only
  repeat' first
    | with_reducible assumption
    | with_reducible apply Dev.setReg_sound

theorem Dev.rosterAdd_sound {d : Dev} (h : d.Sound) (x : Nat × Bool) : (Dev.rosterAdd d x).Sound := by
  unfold Dev.rosterAdd
  try dsimp only
  repeat' first
    | with_reducible assumption
    | with_reducible apply Dev.showRoster_sound
    | with_reducible apply Dev.Sound.ite
    | simp only [Dev.Sound.keepSdp]
    | (intro _; intros; try dsimp only)

theorem Dev.takeRollup_sound {d : Dev} (h : d.Sound) (port : Nat) (origin : Nat) (payload : List Byte) : (Dev.takeRollup d port origin payload).Sound := by
  unfold Dev.takeRollup
  try dsimp only
  repeat' first
    | with_reducible assumption
    | with_reducible apply Dev.freshBytes_sound
    | with_reducible apply Dev.record_sound
    | with_reducible apply Dev.raise_sound
    | with_reducible apply Dev.count_sound
    | with_reducible apply Dev.trkEvent_sound
    | with_reducible apply Dev.Sound.ite
    | (intro _; intros; try dsimp only)

theorem Dev.rosterLeave_sound {d : Dev} (h : d.Sound) (x : Nat × Bool) : (Dev.rosterLeave d x).Sound := by
  unfold Dev.rosterLeave
  try dsimp only
  repeat' first
    | with_reducible assumption
    | with_reducible apply Dev.showRoster_sound
    | with_reducible apply Dev.raise_sound
    | with_reducible apply Dev.trkEvent_sound
    | with_reducible apply Dev.setAbort_sound
    | with_reducible apply Dev.setsProgress_sound
    | with_reducible apply Dev.Sound.ite
    | with_reducible apply Dev.Sound.foldl
    | simp only [Dev.Sound.keepSdp]
    | (intro _; intros; try dsimp only)

theorem Dev.originUp_sound {d : Dev} (h : d.Sound) (port : Nat) (type_ : Nat) (x : Nat × Bool) (payload : List Byte) : (Dev.originUp d port type_ x payload).Sound := by
  unfold Dev.originUp
  try dsimp only
  repeat' first
    | with_reducible assumption
    | with_reducible apply Dev.rosterAdd_sound
    | with_reducible apply Dev.putTrunkSet_sound
    | with_reducible apply Dev.setsProgress_sound
    | with_reducible apply Dev.takeRollup_sound
    | with_reducible apply Dev.rosterLeave_sound
    | with_reducible apply Dev.Sound.ite
    | with_reducible apply Dev.Sound.ite_snd
    | with_reducible apply Dev.Sound.foldl
    | with_reducible apply Dev.Sound.foldl_fst
    | simp only [Dev.Sound.keep]
    | simp only [Dev.Sound.keepSdp]
    | (intro _; intros; try dsimp only)
    | dsimp only
    | (split; all_goals try dsimp only)

theorem Dev.takeUp_sound {d : Dev} (hk : d.Sound) (port : Nat) (second : Bool) (seq : Nat) (f : TrunkFrame) : (Dev.takeUp d port second seq f).Sound := by
  unfold Dev.takeUp
  try dsimp only
  repeat' first
    | with_reducible assumption
    | with_reducible apply Dev.tlyStrip_sound
    | with_reducible apply Dev.originUp_sound
    | with_reducible apply Dev.Sound.ite
    | with_reducible apply Dev.Sound.ite_snd
    | with_reducible apply Dev.Sound.foldl
    | simp only [Dev.Sound.keep]
    | simp only [Dev.Sound.keepSdp]
    | (intro _; intros; try dsimp only)
    | dsimp only
    | (split; all_goals try dsimp only)

theorem Dev.upFrame_sound {d : Dev} (hk : d.Sound) (p : Nat) (second : Bool) (seq : Nat) (f : TrunkFrame) : (Dev.upFrame d p second seq f).Sound := by
  unfold Dev.upFrame
  try dsimp only
  repeat' first
    | with_reducible assumption
    | with_reducible apply Dev.takeUp_sound
    | with_reducible apply Dev.twnMirror_sound
    | with_reducible apply Dev.trkSendOn_sound
    | with_reducible apply Dev.Sound.ite
    | with_reducible apply Dev.Sound.ite_snd
    | with_reducible apply Dev.Sound.foldl
    | simp only [Dev.Sound.keep]
    | simp only [Dev.Sound.keepSdp]
    | (intro _; intros; try dsimp only)
    | dsimp only
    | (split; all_goals try dsimp only)

theorem Dev.leaveFrame_sound {d : Dev} (hk : d.Sound) (p : Nat) (second : Bool) (seq : Nat) (f : TrunkFrame) : (Dev.leaveFrame d p second seq f).Sound := by
  unfold Dev.leaveFrame
  try dsimp only
  repeat' first
    | with_reducible assumption
    | with_reducible apply Dev.laneTo_sound
    | with_reducible apply Dev.upFrame_sound
    | with_reducible apply Dev.Sound.ite
    | with_reducible apply Dev.Sound.ite_snd
    | with_reducible apply Dev.Sound.foldl
    | simp only [Dev.Sound.keep]
    | simp only [Dev.Sound.keepSdp]
    | (intro _; intros; try dsimp only)
    | dsimp only
    | (split; all_goals try dsimp only)

theorem Dev.placed_sound {d : Dev} (hk : d.Sound) (sync : Option (Nat × Nat)) (delay : Nat) (t : Rat) : (Dev.placed d sync delay t).2.Sound := by
  unfold Dev.placed
  try dsimp only
  repeat' first
    | with_reducible assumption
    | with_reducible apply Dev.freshNat_sound
    | with_reducible apply Dev.Sound.ite
    | with_reducible apply Dev.Sound.ite_snd
    | with_reducible apply Dev.Sound.foldl
    | simp only [Dev.Sound.keep]
    | simp only [Dev.Sound.keepSdp]
    | (intro _; intros; try dsimp only)
    | dsimp only
    | (split; all_goals try dsimp only)

theorem Dev.takeImage_sound {d : Dev} (hk : d.Sound) (p : Nat) (im : TimingImage) : (Dev.takeImage d p im).Sound := by
  unfold Dev.takeImage
  try dsimp only
  repeat' first
    | with_reducible assumption
    | with_reducible apply Dev.putImage_sound
    | with_reducible apply Dev.placed_sound
    | with_reducible apply Dev.reframeAccept_sound
    | with_reducible apply Dev.trkTo_sound
    | with_reducible apply Dev.trkRoute_sound
    | with_reducible apply Dev.coachSettle_sound
    | with_reducible apply Dev.Sound.ite
    | with_reducible apply Dev.Sound.ite_snd
    | with_reducible apply Dev.Sound.foldl
    | simp only [Dev.Sound.keep]
    | simp only [Dev.Sound.keepSdp]
    | (intro _; intros; try dsimp only)
    | dsimp only
    | (split; all_goals try dsimp only)

theorem Dev.preparePart_sound {d : Dev} (h : d.Sound) (payload : List Byte) : (Dev.preparePart d payload).Sound := by
  unfold Dev.preparePart
  try dsimp only
  repeat' first
    | with_reducible assumption
    | with_reducible apply Dev.takeGroup_sound
    | with_reducible apply Dev.Sound.ite
    | simp only [Dev.Sound.keepSdp]
    | (intro _; intros; try dsimp only)

theorem Dev.commitB0_sound {d : Dev} (hk : d.Sound) (s1 : Nat) (t : Rat) : (Dev.commitB0 d s1 t).2.Sound := by
  unfold Dev.commitB0
  try dsimp only
  repeat' first
    | with_reducible assumption
    | with_reducible apply Dev.placed_sound
    | with_reducible apply Dev.Sound.ite
    | with_reducible apply Dev.Sound.ite_snd
    | with_reducible apply Dev.Sound.foldl
    | simp only [Dev.Sound.keep]
    | simp only [Dev.Sound.keepSdp]
    | (intro _; intros; try dsimp only)
    | dsimp only
    | (split; all_goals try dsimp only)

theorem Dev.takeCommit_sound {d : Dev} (h : d.Sound) (payload : List Byte) : (Dev.takeCommit d payload).Sound := by
  unfold Dev.takeCommit
  try dsimp only
  repeat' first
    | with_reducible assumption
    | with_reducible apply Dev.commitB0_sound
    | with_reducible apply Dev.putImage_sound
    | with_reducible apply Dev.reframeAccept_sound
    | with_reducible apply Dev.coachSettle_sound
    | with_reducible apply Dev.Sound.ite
    | with_reducible apply Dev.Sound.ite_snd
    | with_reducible apply Dev.Sound.foldl
    | simp only [Dev.Sound.keep]
    | simp only [Dev.Sound.keepSdp]
    | (intro _; intros; try dsimp only)
    | dsimp only
    | (split; all_goals try dsimp only)

theorem Dev.takeAbort_sound {d : Dev} (h : d.Sound) (payload : List Byte) : (Dev.takeAbort d payload).Sound := by
  unfold Dev.takeAbort
  try dsimp only
  repeat' first
    | with_reducible assumption
    | simp only [Dev.Sound.keepSdp]

theorem Dev.takeDecision_sound {d : Dev} (h : d.Sound) (payload : List Byte) : (Dev.takeDecision d payload).Sound := by
  unfold Dev.takeDecision
  try dsimp only
  repeat' first
    | with_reducible assumption
    | simp only [Dev.Sound.keepSdp]

theorem Dev.takeDoorbell_sound {d : Dev} (h : d.Sound) (payload : List Byte) : (Dev.takeDoorbell d payload).Sound := by
  unfold Dev.takeDoorbell
  try dsimp only
  repeat' first
    | with_reducible assumption
    | with_reducible apply Dev.count_sound
    | with_reducible apply Dev.raise_sound
    | with_reducible apply Dev.Sound.ite
    | (intro _; intros; try dsimp only)

theorem Dev.takeDown_sound {d : Dev} (h : d.Sound) (type_ : Nat) (body : TrunkBody) : (Dev.takeDown d type_ body).Sound := by
  unfold Dev.takeDown
  try dsimp only
  repeat' first
    | with_reducible assumption
    | with_reducible apply Dev.prepareTiming_sound
    | with_reducible apply Dev.preparePart_sound
    | with_reducible apply Dev.takeCommit_sound
    | with_reducible apply Dev.takeAbort_sound
    | with_reducible apply Dev.takeDecision_sound
    | with_reducible apply Dev.takeDoorbell_sound
    | (split; all_goals try dsimp only)

theorem Dev.trkStrip_sound {d : Dev} (hk : d.Sound) (seq : Nat) (f : TrunkFrame) (wrong : Option Nat) : (Dev.trkStrip d seq f wrong).2.Sound := by
  unfold Dev.trkStrip
  try dsimp only
  repeat' first
    | with_reducible assumption
    | with_reducible apply Dev.tlyStrip_sound
    | with_reducible apply Dev.tlyStripTold_sound
    | with_reducible apply Dev.Sound.ite
    | with_reducible apply Dev.Sound.ite_snd
    | with_reducible apply Dev.Sound.foldl
    | simp only [Dev.Sound.keep]
    | simp only [Dev.Sound.keepSdp]
    | (intro _; intros; try dsimp only)
    | dsimp only
    | (split; all_goals try dsimp only)

theorem Dev.downFrame_sound {d : Dev} (hk : d.Sound) (p seq : Nat) (f : TrunkFrame) (wrong : Option Nat) : (Dev.downFrame d p seq f wrong).Sound := by
  unfold Dev.downFrame
  try dsimp only
  repeat' first
    | with_reducible assumption
    | with_reducible apply Dev.trkSendOn_sound
    | with_reducible apply Dev.trkStrip_sound
    | with_reducible apply Dev.stripLeave_sound
    | with_reducible apply Dev.takeImage_sound
    | with_reducible apply Dev.takeDown_sound
    | with_reducible apply Dev.Sound.ite
    | with_reducible apply Dev.Sound.ite_snd
    | with_reducible apply Dev.Sound.foldl
    | with_reducible apply Dev.Sound.foldl_fst
    | simp only [Dev.Sound.keep]
    | simp only [Dev.Sound.keepSdp]
    | (intro _; intros; try dsimp only)
    | dsimp only
    | (split; all_goals try dsimp only)

theorem Dev.trkDeliver_sound {d : Dev} (hk : d.Sound) (p seq : Nat) (f : TrunkFrame) (second : Bool) (wrong : Option Nat) : (Dev.trkDeliver d p seq f second wrong).Sound := by
  unfold Dev.trkDeliver
  try dsimp only
  repeat' first
    | with_reducible assumption
    | with_reducible apply Dev.laneAuthed_sound
    | with_reducible apply Dev.laneTagged_sound
    | with_reducible apply Dev.leaveFrame_sound
    | with_reducible apply Dev.downFrame_sound
    | with_reducible apply Dev.upFrame_sound
    | with_reducible apply Dev.trkStrip_sound
    | with_reducible apply Dev.Sound.ite
    | with_reducible apply Dev.Sound.ite_snd
    | with_reducible apply Dev.Sound.foldl
    | simp only [Dev.Sound.keep]
    | simp only [Dev.Sound.keepSdp]
    | (intro _; intros; try dsimp only)
    | dsimp only
    | (split; all_goals try dsimp only)

theorem Dev.trkDrain_sound {d : Dev} (h : d.Sound) (p n : Nat) : (d.trkDrain p n).Sound := by
  induction n generalizing d with
  | zero => exact h
  | succ n ih =>
    unfold Dev.trkDrain
    dsimp only
    split
    · exact h
    · exact ih (Dev.trkDeliver_sound (Dev.setTlane_sound h _ _) _ _ _ _ _)

theorem Dev.trkTake_sound {d : Dev} (hk : d.Sound) (h : TrunkHead) (f : TrunkFrame) (wrong : Option Nat) : (Dev.trkTake d h f wrong).Sound := by
  unfold Dev.trkTake
  try dsimp only
  repeat' first
    | with_reducible assumption
    | with_reducible apply Dev.trkDrain_sound
    | with_reducible apply Dev.setTlane_sound
    | with_reducible apply Dev.Sound.ite
    | with_reducible apply Dev.Sound.ite_snd
    | with_reducible apply Dev.Sound.foldl
    | simp only [Dev.Sound.keep]
    | simp only [Dev.Sound.keepSdp]
    | (intro _; intros; try dsimp only)
    | dsimp only
    | (split; all_goals try dsimp only)

theorem Dev.authFrame_sound {d : Dev} (h : d.Sound) (h : TrunkHead) (crc : Word) (payload : List Byte) : (Dev.authFrame d h crc payload).Sound := by
  unfold Dev.authFrame
  try dsimp only
  repeat' first
    | with_reducible assumption
    | with_reducible apply Dev.laneAuth_sound
    | with_reducible apply Dev.trkHeard_sound
    | with_reducible apply Dev.trkTake_sound
    | with_reducible apply Dev.Sound.ite
    | with_reducible apply Dev.Sound.ite_snd
    | with_reducible apply Dev.Sound.foldl
    | simp only [Dev.Sound.keep]
    | simp only [Dev.Sound.keepSdp]
    | (intro _; intros; try dsimp only)
    | dsimp only
    | (split; all_goals try dsimp only)

theorem Dev.trkFrame_sound {d : Dev} (h : d.Sound) (h : TrunkHead) (type_ : Nat) (crc : Word) (payload : List Byte) : (Dev.trkFrame d h type_ crc payload).Sound := by
  unfold Dev.trkFrame
  try dsimp only
  repeat' first
    | with_reducible assumption
    | with_reducible apply Dev.trkHeard_sound
    | with_reducible apply Dev.trkTake_sound
    | with_reducible apply Dev.Sound.ite
    | with_reducible apply Dev.Sound.ite_snd
    | with_reducible apply Dev.Sound.foldl
    | simp only [Dev.Sound.keep]
    | simp only [Dev.Sound.keepSdp]
    | (intro _; intros; try dsimp only)
    | dsimp only
    | (split; all_goals try dsimp only)

theorem Dev.decisionSend_sound {d : Dev} (h : d.Sound) : (Dev.decisionSend d).Sound := by
  unfold Dev.decisionSend
  try dsimp only
  repeat' first
    | with_reducible assumption
    | with_reducible apply Dev.advanceSc_sound
    | with_reducible apply Dev.count_sound
    | with_reducible apply Dev.trkEvent_sound
    | with_reducible apply Dev.raise_sound
    | with_reducible apply Dev.putTrunkSet_sound
    | with_reducible apply Dev.trkDown_sound
    | with_reducible apply Dev.Sound.ite
    | with_reducible apply Dev.Sound.ite_snd
    | with_reducible apply Dev.Sound.foldl
    | with_reducible apply Dev.Sound.foldl_fst
    | simp only [Dev.Sound.keep]
    | simp only [Dev.Sound.keepSdp]
    | (intro _; intros; try dsimp only)
    | dsimp only
    | (split; all_goals try dsimp only)

theorem Dev.trkLaneRetrain_sound {d : Dev} (h : d.Sound) (p : Nat) : (Dev.trkLaneRetrain d p).Sound := by
  unfold Dev.trkLaneRetrain
  try dsimp only
  repeat' first
    | with_reducible assumption
    | with_reducible apply Dev.laneTo_sound
    | with_reducible apply Dev.trkTrain_sound
    | with_reducible apply Dev.newEpoch_sound
    | with_reducible apply Dev.trkEvent_sound
    | with_reducible apply Dev.Sound.ite
    | with_reducible apply Dev.Sound.ite_snd
    | with_reducible apply Dev.Sound.foldl
    | simp only [Dev.Sound.keep]
    | simp only [Dev.Sound.keepSdp]
    | (intro _; intros; try dsimp only)
    | dsimp only
    | (split; all_goals try dsimp only)

theorem Dev.writeTrkPort_sound {d : Dev} (h : d.Sound) (p : Nat) (v : Nat) : (Dev.writeTrkPort d p v).Sound := by
  unfold Dev.writeTrkPort
  try dsimp only
  repeat' first
    | with_reducible assumption
    | with_reducible apply Dev.genericWrite_sound
    | with_reducible apply Dev.trkLaneUp_sound
    | with_reducible apply Dev.laneTo_sound
    | with_reducible apply Dev.refuse_sound
    | with_reducible apply Dev.trkLaneRetrain_sound
    | with_reducible apply Dev.Sound.ite
    | (intro _; intros; try dsimp only)

theorem Dev.writeTrkRing_sound {d : Dev} (h : d.Sound) (v : Nat) : (Dev.writeTrkRing d v).Sound := by
  unfold Dev.writeTrkRing
  try dsimp only
  repeat' first
    | with_reducible assumption
    | with_reducible apply Dev.refuse_sound
    | with_reducible apply Dev.ringUnbind_sound
    | with_reducible apply Dev.genericWrite_sound
    | with_reducible apply Dev.ringBind_sound
    | with_reducible apply Dev.Sound.ite
    | (intro _; intros; try dsimp only)

theorem Dev.trkIdle_sound {d : Dev} (h : d.Sound) (cause : Nat) : (Dev.trkIdle d cause).Sound := by
  unfold Dev.trkIdle
  try dsimp only
  repeat' first
    | with_reducible assumption
    | with_reducible apply Dev.rosterLeave_sound
    | with_reducible apply Dev.trkQuit_sound
    | with_reducible apply Dev.trkTo_sound
    | with_reducible apply Dev.Sound.ite
    | with_reducible apply Dev.Sound.foldl
    | (intro _; intros; try dsimp only)

theorem Dev.trkBegin_sound {d : Dev} (h : d.Sound) : (Dev.trkBegin d).Sound := by
  unfold Dev.trkBegin
  try dsimp only
  repeat' first
    | with_reducible assumption
    | with_reducible apply Dev.laneAuth_sound
    | with_reducible apply Dev.trkTo_sound
    | with_reducible apply Dev.trkEnterAuth_sound
    | with_reducible apply Dev.Sound.ite
    | with_reducible apply Dev.Sound.foldl
    | (intro _; intros; try dsimp only)

theorem Dev.writeTrkCtrl_sound {d : Dev} (h : d.Sound) (v : Nat) : (Dev.writeTrkCtrl d v).Sound := by
  unfold Dev.writeTrkCtrl
  try dsimp only
  repeat' first
    | with_reducible assumption
    | with_reducible apply Dev.genericWrite_sound
    | with_reducible apply Dev.trkIdle_sound
    | with_reducible apply Dev.trkBegin_sound
    | with_reducible apply Dev.refuse_sound
    | with_reducible apply Dev.trkEnterAuth_sound
    | with_reducible apply Dev.Sound.ite
    | (intro _; intros; try dsimp only)

theorem Dev.writeTrkLoss_sound {d : Dev} (h : d.Sound) (v : Nat) : (Dev.writeTrkLoss d v).Sound := by
  unfold Dev.writeTrkLoss
  try dsimp only
  repeat' first
    | with_reducible assumption
    | with_reducible apply Dev.refuse_sound
    | with_reducible apply Dev.genericWrite_sound
    | with_reducible apply Dev.Sound.ite
    | (intro _; intros; try dsimp only)

theorem Dev.tsetReject_sound {d : Dev} (hk : d.Sound) (r n tag status : Nat) : (Dev.tsetReject d r n tag status).Sound := by
  unfold Dev.tsetReject
  try dsimp only
  repeat' first
    | with_reducible assumption
    | with_reducible apply Dev.count_sound
    | with_reducible apply Dev.freshNat_sound
    | with_reducible apply Dev.ringReject_sound
    | with_reducible apply Dev.Sound.ite
    | with_reducible apply Dev.Sound.ite_snd
    | with_reducible apply Dev.Sound.foldl
    | simp only [Dev.Sound.keep]
    | simp only [Dev.Sound.keepSdp]
    | (intro _; intros; try dsimp only)
    | dsimp only
    | (split; all_goals try dsimp only)

theorem Dev.sendGroup_sound {d : Dev} (h : d.Sound) (n : Nat) (target : Nat) (g : List Nat × List (List Nat)) : (Dev.sendGroup d n target g).Sound := by
  unfold Dev.sendGroup
  try dsimp only
  repeat' first
    | with_reducible assumption
    | with_reducible apply Dev.trkDown_sound
    | with_reducible apply Dev.Sound.ite
    | (intro _; intros; try dsimp only)

theorem Dev.readTset_sound {d : Dev} (h : d.Sound) : (Dev.readTset d).Sound := by
  unfold Dev.readTset
  try dsimp only
  repeat' first
    | with_reducible assumption
    | with_reducible apply Dev.ringBind_sound
    | with_reducible apply Dev.ringFetch_sound
    | with_reducible apply Dev.rejectSet_sound
    | with_reducible apply Dev.lullExit_sound
    | with_reducible apply Dev.tsetReject_sound
    | with_reducible apply Dev.ringTake_sound
    | with_reducible apply Dev.sendGroup_sound
    | with_reducible apply Dev.Sound.ite
    | with_reducible apply Dev.Sound.ite_snd
    | with_reducible apply Dev.Sound.foldl
    | with_reducible apply Dev.Sound.foldl_fst
    | simp only [Dev.Sound.keep]
    | simp only [Dev.Sound.keepSdp]
    | (intro _; intros; try dsimp only)
    | dsimp only
    | (split; all_goals try dsimp only)

theorem Dev.writeTrkTimes_sound {d : Dev} (h : d.Sound) (v : Nat) : (Dev.writeTrkTimes d v).Sound := by
  unfold Dev.writeTrkTimes
  try dsimp only
  repeat' first
    | with_reducible assumption
    | with_reducible apply Dev.refuse_sound
    | with_reducible apply Dev.genericWrite_sound
    | with_reducible apply Dev.Sound.ite
    | (intro _; intros; try dsimp only)

theorem Dev.trkResend_sound {d : Dev} (h : d.Sound) (p : Nat) : (Dev.trkResend d p).Sound := by
  unfold Dev.trkResend
  try dsimp only
  repeat' first
    | with_reducible assumption
    | with_reducible apply Dev.laneTo_sound
    | with_reducible apply Dev.trkTrain_sound
    | with_reducible apply Dev.trkPut_sound
    | with_reducible apply Dev.count_sound
    | with_reducible apply Dev.setTlane_sound
    | with_reducible apply Dev.Sound.ite
    | with_reducible apply Dev.Sound.ite_snd
    | with_reducible apply Dev.Sound.foldl
    | simp only [Dev.Sound.keep]
    | simp only [Dev.Sound.keepSdp]
    | (intro _; intros; try dsimp only)
    | dsimp only
    | (split; all_goals try dsimp only)

theorem Dev.takeTick_sound {d : Dev} (h : d.Sound) (p : Nat) (f : TrunkFrame) (payload : List Byte) (arrival : Nat) (residence : Nat) (first : Bool) : (Dev.takeTick d p f payload arrival residence first).Sound := by
  unfold Dev.takeTick
  try dsimp only
  repeat' first
    | with_reducible assumption
    | with_reducible apply Dev.trkSendOn_sound
    | with_reducible apply Dev.trkQuit_sound
    | with_reducible apply Dev.referenceAt_sound
    | with_reducible apply Dev.Sound.ite
    | with_reducible apply Dev.Sound.ite_snd
    | with_reducible apply Dev.Sound.foldl
    | simp only [Dev.Sound.keep]
    | simp only [Dev.Sound.keepSdp]
    | (intro _; intros; try dsimp only)
    | dsimp only
    | (split; all_goals try dsimp only)

theorem Dev.writeTrkDb_sound {d : Dev} (h : d.Sound) (v : Nat) : (Dev.writeTrkDb d v).Sound := by
  unfold Dev.writeTrkDb
  try dsimp only
  repeat' first
    | with_reducible assumption
    | with_reducible apply Dev.refuse_sound
    | with_reducible apply Dev.trkDown_sound
    | with_reducible apply Dev.Sound.ite
    | (intro _; intros; try dsimp only)

theorem Dev.sendTick_sound {d : Dev} (h : d.Sound) : (Dev.sendTick d).Sound := by
  unfold Dev.sendTick
  try dsimp only
  repeat' first
    | with_reducible assumption
    | with_reducible apply Dev.trkDown_sound
    | with_reducible apply Dev.Sound.ite
    | (intro _; intros; try dsimp only)

theorem Dev.trunkApplied_sound {d : Dev} (h : d.Sound) : (Dev.trunkApplied d).Sound := by
  unfold Dev.trunkApplied
  try dsimp only
  repeat' first
    | with_reducible assumption
    | with_reducible apply Dev.trkUp_sound
    | with_reducible apply Dev.trkReleased_sound
    | with_reducible apply Dev.Sound.ite
    | with_reducible apply Dev.Sound.foldl
    | simp only [Dev.Sound.keepSdp]
    | (intro _; intros; try dsimp only)

theorem Dev.trkLaneAligned_sound {d : Dev} (h : d.Sound) (p : Nat) : (Dev.trkLaneAligned d p).Sound := by
  unfold Dev.trkLaneAligned
  try dsimp only
  repeat' first
    | with_reducible assumption
    | with_reducible apply Dev.laneTo_sound
    | with_reducible apply Dev.trkEnterAuth_sound
    | with_reducible apply Dev.laneAuth_sound
    | with_reducible apply Dev.Sound.ite
    | with_reducible apply Dev.Sound.ite_snd
    | with_reducible apply Dev.Sound.foldl
    | simp only [Dev.Sound.keep]
    | simp only [Dev.Sound.keepSdp]
    | (intro _; intros; try dsimp only)
    | dsimp only
    | (split; all_goals try dsimp only)

theorem Dev.onTrunk_sound {d : Dev} (h : d.Sound) (p : Nat) (key : Nat) (f : Dev → Dev) (hf : ∀ d, d.Sound → (f d).Sound) : (Dev.onTrunk d p key f).Sound := by
  unfold Dev.onTrunk
  try dsimp only
  repeat' first
    | with_reducible assumption
    | with_reducible apply Dev.onWrite_sound
    | with_reducible apply Dev.Sound.ite
    | (intro _; intros; try dsimp only)

/-! ### Stroke -/

theorem Dev.startAonTimer_sound {d : Dev} (h : d.Sound) : (Dev.startAonTimer d).Sound := by
  unfold Dev.startAonTimer
  try dsimp only
  repeat' first
    | with_reducible assumption
    | simp only [Dev.Sound.keepSdp]

theorem Dev.atTick_sound {d : Dev} (h : d.Sound) : (Dev.atTick d).Sound := by
  unfold Dev.atTick
  try dsimp only
  repeat' first
    | with_reducible assumption
    | with_reducible apply Dev.waitTick_sound
    | with_reducible apply Dev.freeCopies_sound
    | with_reducible apply Dev.plateTidy_sound
    | with_reducible apply Dev.retireStrokes_sound
    | with_reducible apply Dev.useTick_sound
    | with_reducible apply Dev.sendTick_sound
    | with_reducible apply Dev.coachTick_sound
    | with_reducible apply Dev.coachSettle_sound
    | with_reducible apply Dev.Sound.ite
    | simp only [Dev.Sound.keepSdp]
    | (intro _; intros; try dsimp only)
    | (split; all_goals try dsimp only)

theorem Dev.takeEffect_sound {d : Dev} (h : d.Sound) : (Dev.takeEffect d).Sound := by
  unfold Dev.takeEffect
  try dsimp only
  repeat' first
    | with_reducible assumption
    | with_reducible apply Dev.reframeNumbers_sound
    | with_reducible apply Dev.stkTakeEffect_sound
    | with_reducible apply Dev.updateAdm_sound
    | with_reducible apply Dev.atTick_sound
    | with_reducible apply Dev.Sound.ite
    | with_reducible apply Dev.Sound.ite_snd
    | with_reducible apply Dev.Sound.foldl
    | simp only [Dev.Sound.keep]
    | simp only [Dev.Sound.keepSdp]
    | (intro _; intros; try dsimp only)
    | dsimp only
    | (split; all_goals try dsimp only)

theorem Dev.tick_sound {d : Dev} (h : d.Sound) : (Dev.tick d).Sound := by
  unfold Dev.tick
  try dsimp only
  repeat' first
    | with_reducible assumption
    | with_reducible apply Dev.takeEffect_sound
    | with_reducible apply Dev.atTick_sound
    | with_reducible apply Dev.stkTick_sound
    | with_reducible apply Dev.Sound.ite
    | (intro _; intros; try dsimp only)

theorem Dev.lullEntry_sound {d : Dev} (h : d.Sound) (n : Nat) : (Dev.lullEntry d n).Sound := by
  unfold Dev.lullEntry
  try dsimp only
  repeat' first
    | with_reducible assumption
    | with_reducible apply Dev.setPower_sound
    | with_reducible apply Dev.Sound.ite
    | (intro _; intros; try dsimp only)
    | decide

theorem Dev.latchWithdraw_sound {d : Dev} (h : d.Sound) : (Dev.latchWithdraw d).Sound := by
  unfold Dev.latchWithdraw
  try dsimp only
  repeat' first
    | with_reducible assumption
    | with_reducible apply Dev.coachWithdraw_sound
    | with_reducible apply Dev.withdraw_sound
    | with_reducible apply Dev.Sound.ite
    | (intro _; intros; try dsimp only)

theorem Dev.enterDoze_sound {d : Dev} (h : d.Sound) : (Dev.enterDoze d).Sound := by
  unfold Dev.enterDoze
  try dsimp only
  repeat' first
    | with_reducible assumption
    | with_reducible apply Dev.startAonTimer_sound
    | with_reducible apply Dev.emit_sound
    | with_reducible apply Dev.setPower_sound
    | with_reducible apply Dev.flushSets_sound
    | with_reducible apply Dev.scanStop_sound
    | with_reducible apply Dev.blitDoze_sound
    | with_reducible apply Dev.coachSettle_sound
    | with_reducible apply Dev.abandonAll_sound
    | with_reducible apply Dev.trkIdle_sound
    | simp only [Dev.Sound.keepSdp]
    | decide

theorem Dev.hostReframe_sound {d : Dev} (h : d.Sound) : (Dev.hostReframe d).Sound := by
  unfold Dev.hostReframe
  try dsimp only
  repeat' first
    | with_reducible assumption
    | with_reducible apply Dev.refuse_sound
    | with_reducible apply Dev.admRefused_sound
    | with_reducible apply Dev.reframeAccept_sound
    | with_reducible apply Dev.trkDown_sound
    | with_reducible apply Dev.coachSettle_sound
    | with_reducible apply Dev.twnMirror_sound
    | with_reducible apply Dev.Sound.ite
    | with_reducible apply Dev.Sound.ite_snd
    | with_reducible apply Dev.Sound.foldl
    | simp only [Dev.Sound.keep]
    | simp only [Dev.Sound.keepSdp]
    | (intro _; intros; try dsimp only)
    | dsimp only
    | (split; all_goals try dsimp only)

theorem Dev.capture_sound {d : Dev} (h : d.Sound) (m : Nat) : (Dev.capture d m).Sound := by
  unfold Dev.capture
  try dsimp only
  repeat' first
    | with_reducible assumption
    | with_reducible apply Dev.trunkLateCheck_sound
    | with_reducible apply Dev.twnLatch_sound
    | with_reducible apply Dev.takeSets_sound
    | with_reducible apply Dev.commitsLatch_sound
    | with_reducible apply Dev.updateAdm_sound
    | with_reducible apply Dev.Sound.ite
    | simp only [Dev.Sound.keepSdp]
    | (intro _; intros; try dsimp only)

theorem Dev.dealAt_sound {d : Dev} (h : d.Sound) (m : Nat) : (Dev.dealAt d m).Sound := by
  unfold Dev.dealAt
  try dsimp only
  repeat' first
    | with_reducible assumption
    | with_reducible apply Dev.plateLatch_sound
    | with_reducible apply Dev.deal_sound
    | with_reducible apply Dev.coachDealt_sound
    | with_reducible apply Dev.Sound.ite
    | simp only [Dev.Sound.keepSdp]
    | (intro _; intros; try dsimp only)

theorem Dev.capturingRead_sound {d : Dev} (h : d.Sound) (x1 : Nat) : (Dev.capturingRead d x1).2.Sound := by
  unfold Dev.capturingRead
  try dsimp only
  repeat' first
    | with_reducible assumption
    | with_reducible apply Dev.captureStroke_sound
    | with_reducible apply Dev.captureTod_sound
    | with_reducible apply Dev.captureLtc_sound
    | with_reducible apply Dev.setReg_sound
    | (split; all_goals try dsimp only)

theorem Dev.latchPoint_sound {d : Dev} (h : d.Sound) (ecc : ControlEcc) : (Dev.latchPoint d ecc).Sound := by
  unfold Dev.latchPoint
  try dsimp only
  repeat' first
    | with_reducible assumption
    | with_reducible apply Dev.reframeNumbers_sound
    | with_reducible apply Dev.controlChecked_sound
    | with_reducible apply Dev.stkLatch_sound
    | with_reducible apply Dev.latchWithdraw_sound
    | with_reducible apply Dev.enterDoze_sound
    | with_reducible apply Dev.lullEntry_sound
    | with_reducible apply Dev.capture_sound
    | with_reducible apply Dev.flpTidy_sound
    | with_reducible apply Dev.trunkOriginLatch_sound
    | with_reducible apply Dev.trunkApplied_sound
    | with_reducible apply Dev.dealAt_sound
    | with_reducible apply Dev.Sound.ite
    | (intro _; intros; try dsimp only)

theorem Dev.reframeDone_sound {d : Dev} (h : d.Sound) : (Dev.reframeDone d).Sound := by
  unfold Dev.reframeDone
  try dsimp only
  repeat' first
    | with_reducible assumption
    | with_reducible apply Dev.coachTick_sound
    | with_reducible apply Dev.coachSettle_sound
    | with_reducible apply Dev.stkReframeDone_sound
    | with_reducible apply Dev.Sound.ite
    | (intro _; intros; try dsimp only)
    | (split; all_goals try dsimp only)

end Sys2Proof.Machine
end

