-- ==== Sys2Proof/Laws/SoundPorts.lean ====
section
/-! SUPPORT. What keeps a device sound: return lines, streams, the host, reset and clocks. -/

set_option linter.unusedTactic false
set_option linter.unreachableTactic false
set_option linter.unusedSimpArgs false
set_option linter.unusedVariables false

namespace Sys2Proof.Machine

/-! ### Rlc -/

theorem Dev.lineEvent_sound {d : Dev} (h : d.Sound) (c : Nat) (f : Fld) : (Dev.lineEvent d c f).Sound := by
  unfold Dev.lineEvent
  try dsimp only
  repeat' first
    | with_reducible assumption
    | with_reducible apply Dev.raiseIf_sound
    | with_reducible apply Dev.setFlag_sound

theorem Dev.lineStatus_sound {d : Dev} (h : d.Sound) (c : Nat) : (Dev.lineStatus d c).Sound := by
  unfold Dev.lineStatus
  try dsimp only
  repeat' first
    | with_reducible assumption
    | with_reducible apply Dev.setReg_sound

theorem Dev.setRlc_sound {d : Dev} (h : d.Sound) (p : Nat) (x : Rlc) : (d.setRlc p x).Sound :=
  { h with lines := Tab.wf_set h.lines _ _ }

theorem Dev.linePush_sound {d : Dev} (h : d.Sound) (c : Nat) (kind : Nat) (code : Nat) (addr : Nat) : (Dev.linePush d c kind code addr).Sound := by
  unfold Dev.linePush
  try dsimp only
  repeat' first
    | with_reducible assumption
    | with_reducible apply Dev.count_sound
    | with_reducible apply Dev.lineStatus_sound
    | with_reducible apply Dev.setRlc_sound
    | with_reducible apply Dev.lineEvent_sound
    | with_reducible apply Dev.Sound.ite
    | (intro _; intros; try dsimp only)

theorem Dev.setStop_sound {d : Dev} (h : d.Sound) (c : Nat) (a : Nat) (f : Fld) (v : Nat) : (Dev.setStop d c a f v).Sound := by
  unfold Dev.setStop
  try dsimp only
  repeat' first
    | with_reducible assumption
    | with_reducible apply Dev.setFld_sound

theorem Dev.stopAbsent_sound {d : Dev} (h : d.Sound) (c : Nat) (a : Nat) : (Dev.stopAbsent d c a).Sound := by
  unfold Dev.stopAbsent
  try dsimp only
  repeat' first
    | with_reducible assumption
    | with_reducible apply Dev.lineEvent_sound
    | with_reducible apply Dev.linePush_sound
    | with_reducible apply Dev.setStop_sound
    | with_reducible apply Dev.Sound.ite
    | (intro _; intros; try dsimp only)

theorem Dev.lineSend_sound {d : Dev} (h : d.Sound) (c : Nat) (addr : Nat) (type_ : Nat) (payload : List Byte) : (Dev.lineSend d c addr type_ payload).Sound := by
  unfold Dev.lineSend
  try dsimp only
  repeat' first
    | with_reducible assumption
    | with_reducible apply Dev.emit_sound
    | with_reducible apply Dev.Sound.ite
    | with_reducible apply Dev.Sound.ite_snd
    | with_reducible apply Dev.Sound.foldl
    | simp only [Dev.Sound.keep]
    | simp only [Dev.Sound.keepSdp]
    | (intro _; intros; try dsimp only)
    | dsimp only
    | (split; all_goals try dsimp only)

theorem Dev.openCommand_sound {d : Dev} (h : d.Sound) (c : Nat) (j : LineJob) : (Dev.openCommand d c j).Sound := by
  unfold Dev.openCommand
  try dsimp only
  repeat' first
    | with_reducible assumption
    | with_reducible apply Dev.setRlc_sound
    | with_reducible apply Dev.lineSend_sound
    | with_reducible apply Dev.count_sound
    | with_reducible apply Dev.Sound.ite
    | with_reducible apply Dev.Sound.ite_snd
    | with_reducible apply Dev.Sound.foldl
    | simp only [Dev.Sound.keep]
    | simp only [Dev.Sound.keepSdp]
    | (intro _; intros; try dsimp only)
    | dsimp only
    | (split; all_goals try dsimp only)

theorem Dev.lineMiss_sound {d : Dev} (h : d.Sound) (c : Nat) (a : Nat) : (Dev.lineMiss d c a).Sound := by
  unfold Dev.lineMiss
  try dsimp only
  repeat' first
    | with_reducible assumption
    | with_reducible apply Dev.count_sound
    | with_reducible apply Dev.setStop_sound

theorem Dev.lineComplete_sound {d : Dev} (h : d.Sound) (j : LineJob) (result : Nat) : (Dev.lineComplete d j result).Sound := by
  unfold Dev.lineComplete
  try dsimp only
  repeat' first
    | with_reducible assumption
    | with_reducible apply Dev.ringComplete_sound
    | (split; all_goals try dsimp only)

theorem Dev.slotClose_sound {d : Dev} (h : d.Sound) (c : Nat) : (Dev.slotClose d c).Sound := by
  unfold Dev.slotClose
  try dsimp only
  repeat' first
    | with_reducible assumption
    | with_reducible apply Dev.lineMiss_sound
    | with_reducible apply Dev.setRlc_sound
    | with_reducible apply Dev.lineComplete_sound
    | with_reducible apply Dev.Sound.ite
    | (intro _; intros; try dsimp only)
    | (split; all_goals try dsimp only)

theorem Dev.openPoll_sound {d : Dev} (h : d.Sound) (c : Nat) : (Dev.openPoll d c).Sound := by
  unfold Dev.openPoll
  try dsimp only
  repeat' first
    | with_reducible assumption
    | with_reducible apply Dev.setRlc_sound
    | with_reducible apply Dev.lineSend_sound
    | with_reducible apply Dev.count_sound
    | (split; all_goals try dsimp only)

theorem Dev.stranger_sound {d : Dev} (h : d.Sound) (c : Nat) (id : Nat) : (Dev.stranger d c id).Sound := by
  unfold Dev.stranger
  try dsimp only
  repeat' first
    | with_reducible assumption
    | with_reducible apply Dev.count_sound
    | with_reducible apply Dev.setRlc_sound
    | with_reducible apply Dev.lineStatus_sound
    | with_reducible apply Dev.linePush_sound
    | with_reducible apply Dev.lineEvent_sound
    | with_reducible apply Dev.freshBytes_sound
    | with_reducible apply Dev.Sound.ite
    | with_reducible apply Dev.Sound.ite_snd
    | with_reducible apply Dev.Sound.foldl
    | simp only [Dev.Sound.keep]
    | simp only [Dev.Sound.keepSdp]
    | (intro _; intros; try dsimp only)
    | dsimp only
    | (split; all_goals try dsimp only)

theorem Dev.rxfPop_sound {d : Dev} (h : d.Sound) (c : Nat) (ecc : Ecc) : (Dev.rxfPop d c ecc).2.Sound := by
  unfold Dev.rxfPop
  try dsimp only
  repeat' first
    | with_reducible assumption
    | with_reducible apply Dev.setFlag_sound
    | with_reducible apply Dev.setRlc_sound
    | with_reducible apply Dev.lineStatus_sound
    | with_reducible apply Dev.secdedCorrected_sound
    | with_reducible apply Dev.count_sound
    | with_reducible apply Dev.secdedBad_sound
    | with_reducible apply Dev.Sound.ite
    | with_reducible apply Dev.Sound.ite_snd
    | with_reducible apply Dev.Sound.foldl
    | simp only [Dev.Sound.keep]
    | simp only [Dev.Sound.keepSdp]
    | (intro _; intros; try dsimp only)
    | dsimp only
    | (split; all_goals try dsimp only)

theorem Dev.lineRemove_sound {d : Dev} (h : d.Sound) (c : Nat) (a : Nat) : (Dev.lineRemove d c a).Sound := by
  unfold Dev.lineRemove
  try dsimp only
  repeat' first
    | with_reducible assumption
    | with_reducible apply Dev.lineStatus_sound
    | with_reducible apply Dev.setRlc_sound
    | with_reducible apply Dev.setStop_sound

theorem Dev.lineReset_sound {d : Dev} (h : d.Sound) (c : Nat) (run : Bool) : (Dev.lineReset d c run).Sound := by
  unfold Dev.lineReset
  try dsimp only
  repeat' first
    | with_reducible assumption
    | with_reducible apply Dev.ringComplete_sound
    | with_reducible apply Dev.lineRemove_sound
    | with_reducible apply Dev.setStop_sound
    | with_reducible apply Dev.lineStatus_sound
    | with_reducible apply Dev.setRlc_sound
    | with_reducible apply Dev.Sound.foldl
    | (intro _; intros; try dsimp only)
    | (split; all_goals try dsimp only)

theorem Dev.lineUp_sound {d : Dev} (h : d.Sound) (c : Nat) : (Dev.lineUp d c).Sound := by
  unfold Dev.lineUp
  try dsimp only
  repeat' first
    | with_reducible assumption
    | with_reducible apply Dev.lineReset_sound
    | with_reducible apply Dev.Sound.ite
    | (intro _; intros; try dsimp only)

theorem Dev.writeRlcCtrl_sound {d : Dev} (h : d.Sound) (c : Nat) (v : Nat) : (Dev.writeRlcCtrl d c v).Sound := by
  unfold Dev.writeRlcCtrl
  try dsimp only
  repeat' first
    | with_reducible assumption
    | with_reducible apply Dev.genericWrite_sound
    | with_reducible apply Dev.lineReset_sound
    | with_reducible apply Dev.newEpoch_sound
    | with_reducible apply Dev.lineEvent_sound
    | with_reducible apply Dev.lineUp_sound
    | with_reducible apply Dev.Sound.ite
    | with_reducible apply Dev.Sound.ite_snd
    | with_reducible apply Dev.Sound.foldl
    | simp only [Dev.Sound.keep]
    | simp only [Dev.Sound.keepSdp]
    | (intro _; intros; try dsimp only)
    | dsimp only
    | (split; all_goals try dsimp only)

theorem Dev.lineRecord_sound {d : Dev} (h : d.Sound) (c : Nat) (kind : Nat) (addr : Nat) (tag : Nat) (payload : List Byte) : (Dev.lineRecord d c kind addr tag payload).Sound := by
  unfold Dev.lineRecord
  try dsimp only
  repeat' first
    | with_reducible assumption
    | with_reducible apply Dev.record_sound
    | with_reducible apply Dev.lineEvent_sound
    | with_reducible apply Dev.count_sound
    | with_reducible apply Dev.Sound.ite
    | (intro _; intros; try dsimp only)

theorem Dev.newAlarm_sound {d : Dev} (h : d.Sound) (c : Nat) (a : Nat) (aseq : Nat) (code : Nat) (payload : List Byte) : (Dev.newAlarm d c a aseq code payload).Sound := by
  unfold Dev.newAlarm
  try dsimp only
  repeat' first
    | with_reducible assumption
    | with_reducible apply Dev.setRlc_sound
    | with_reducible apply Dev.lineRecord_sound
    | with_reducible apply Dev.count_sound
    | with_reducible apply Dev.linePush_sound
    | with_reducible apply Dev.lineEvent_sound
    | with_reducible apply Dev.Sound.ite
    | with_reducible apply Dev.Sound.ite_snd
    | with_reducible apply Dev.Sound.foldl
    | simp only [Dev.Sound.keep]
    | simp only [Dev.Sound.keepSdp]
    | (intro _; intros; try dsimp only)
    | dsimp only
    | (split; all_goals try dsimp only)

theorem Dev.openContention_sound {d : Dev} (h : d.Sound) (c : Nat) : (Dev.openContention d c).Sound := by
  unfold Dev.openContention
  try dsimp only
  repeat' first
    | with_reducible assumption
    | with_reducible apply Dev.lineSend_sound
    | with_reducible apply Dev.setRlc_sound

theorem Dev.strangerExpiry_sound {d : Dev} (h : d.Sound) (c : Nat) (i : Nat) : (Dev.strangerExpiry d c i).Sound := by
  unfold Dev.strangerExpiry
  try dsimp only
  repeat' first
    | with_reducible assumption
    | with_reducible apply Dev.setRlc_sound
    | with_reducible apply Dev.lineStatus_sound
    | with_reducible apply Dev.Sound.ite
    | with_reducible apply Dev.Sound.ite_snd
    | with_reducible apply Dev.Sound.foldl
    | simp only [Dev.Sound.keep]
    | simp only [Dev.Sound.keepSdp]
    | (intro _; intros; try dsimp only)
    | dsimp only
    | (split; all_goals try dsimp only)

theorem Dev.slotOpen_sound {d : Dev} (h : d.Sound) (c : Nat) (stretched : Bool) : (Dev.slotOpen d c stretched).Sound := by
  unfold Dev.slotOpen
  try dsimp only
  repeat' first
    | with_reducible assumption
    | with_reducible apply Dev.slotClose_sound
    | with_reducible apply Dev.countWrap_sound
    | with_reducible apply Dev.count_sound
    | with_reducible apply Dev.setReg_sound
    | with_reducible apply Dev.setRlc_sound
    | with_reducible apply Dev.lineSend_sound
    | with_reducible apply Dev.openPoll_sound
    | with_reducible apply Dev.openContention_sound
    | with_reducible apply Dev.openCommand_sound
    | with_reducible apply Dev.Sound.ite
    | (intro _; intros; try dsimp only)
    | (split; all_goals try dsimp only)

theorem Dev.helloFrame_sound {d : Dev} (h : d.Sound) (c : Nat) (payload : List Byte) : (Dev.helloFrame d c payload).Sound := by
  unfold Dev.helloFrame
  try dsimp only
  repeat' first
    | with_reducible assumption
    | with_reducible apply Dev.lineRecord_sound
    | with_reducible apply Dev.setRlc_sound
    | with_reducible apply Dev.stranger_sound
    | with_reducible apply Dev.Sound.ite
    | (intro _; intros; try dsimp only)
    | (split; all_goals try dsimp only)

theorem Dev.contentionOut_sound {d : Dev} (h : d.Sound) (c : Nat) (out : Nat) (addr : Nat) (id : Nat) : (Dev.contentionOut d c out addr id).Sound := by
  unfold Dev.contentionOut
  try dsimp only
  repeat' first
    | with_reducible assumption
    | with_reducible apply Dev.setRlc_sound
    | with_reducible apply Dev.Sound.ite
    | (intro _; intros; try dsimp only)

theorem Dev.writeRlcRing_sound {d : Dev} (h : d.Sound) (c : Nat) (v : Nat) : (Dev.writeRlcRing d c v).Sound := by
  unfold Dev.writeRlcRing
  try dsimp only
  repeat' first
    | with_reducible assumption
    | with_reducible apply Dev.refuse_sound
    | with_reducible apply Dev.ringUnbind_sound
    | with_reducible apply Dev.genericWrite_sound
    | with_reducible apply Dev.ringBind_sound
    | with_reducible apply Dev.Sound.ite
    | (intro _; intros; try dsimp only)

theorem Dev.enrolNoAnswer_sound {d : Dev} (h : d.Sound) (c : Nat) : (Dev.enrolNoAnswer d c).Sound := by
  unfold Dev.enrolNoAnswer
  try dsimp only
  repeat' first
    | with_reducible assumption
    | with_reducible apply Dev.lineComplete_sound
    | with_reducible apply Dev.setRlc_sound
    | (split; all_goals try dsimp only)

theorem Dev.telemetry_sound {d : Dev} (h : d.Sound) (c : Nat) (op : Nat) : (Dev.telemetry d c op).Sound := by
  unfold Dev.telemetry
  try dsimp only
  repeat' first
    | with_reducible assumption
    | with_reducible apply Dev.ringBind_sound
    | with_reducible apply Dev.ringFetch_sound
    | with_reducible apply Dev.ringReject_sound
    | with_reducible apply Dev.ringTake_sound
    | with_reducible apply Dev.setRlc_sound
    | with_reducible apply Dev.Sound.ite
    | with_reducible apply Dev.Sound.ite_snd
    | with_reducible apply Dev.Sound.foldl
    | simp only [Dev.Sound.keep]
    | simp only [Dev.Sound.keepSdp]
    | (intro _; intros; try dsimp only)
    | dsimp only
    | (split; all_goals try dsimp only)

theorem Dev.writeRlcSched_sound {d : Dev} (h : d.Sound) (c : Nat) (v : Nat) : (Dev.writeRlcSched d c v).Sound := by
  unfold Dev.writeRlcSched
  try dsimp only
  repeat' first
    | with_reducible assumption
    | with_reducible apply Dev.refuse_sound
    | with_reducible apply Dev.genericWrite_sound
    | with_reducible apply Dev.Sound.ite
    | (intro _; intros; try dsimp only)

theorem Dev.lineEnrol_sound {d : Dev} (h : d.Sound) (c : Nat) (e : Enrolled) : (Dev.lineEnrol d c e).Sound := by
  unfold Dev.lineEnrol
  try dsimp only
  repeat' first
    | with_reducible assumption
    | with_reducible apply Dev.lineStatus_sound
    | with_reducible apply Dev.setRlc_sound
    | with_reducible apply Dev.setStop_sound

theorem Dev.ackFrame_sound {d : Dev} (h : d.Sound) (c : Nat) (payload : List Byte) (s : LineSlot) : (Dev.ackFrame d c payload s).Sound := by
  unfold Dev.ackFrame
  try dsimp only
  repeat' first
    | with_reducible assumption
    | with_reducible apply Dev.lineRecord_sound
    | with_reducible apply Dev.lineEnrol_sound
    | with_reducible apply Dev.lineRemove_sound
    | with_reducible apply Dev.lineComplete_sound
    | with_reducible apply Dev.Sound.ite
    | with_reducible apply Dev.Sound.ite_snd
    | with_reducible apply Dev.Sound.foldl
    | simp only [Dev.Sound.keep]
    | simp only [Dev.Sound.keepSdp]
    | (intro _; intros; try dsimp only)
    | dsimp only
    | (split; all_goals try dsimp only)

theorem Dev.statusFrame_sound {d : Dev} (h : d.Sound) (c : Nat) (a : Nat) (payload : List Byte) : (Dev.statusFrame d c a payload).Sound := by
  unfold Dev.statusFrame
  try dsimp only
  repeat' first
    | with_reducible assumption
    | with_reducible apply Dev.setStop_sound
    | with_reducible apply Dev.lineEvent_sound
    | with_reducible apply Dev.linePush_sound
    | with_reducible apply Dev.lineRecord_sound
    | with_reducible apply Dev.freshBytes_sound
    | with_reducible apply Dev.newAlarm_sound
    | with_reducible apply Dev.Sound.ite
    | (intro _; intros; try dsimp only)

theorem Dev.lineReceive_sound {d : Dev} (h : d.Sound) (c : Nat) (type_ : Nat) (addr : Nat) (least : Nat) (most : Nat) (payload : List Byte) (check : LineCheck) (inWindow : Bool) (f : Dev → LineSlot → Dev) (hf : ∀ d y1, d.Sound → (f d y1).Sound) : (Dev.lineReceive d c type_ addr least most payload check inWindow f).Sound := by
  unfold Dev.lineReceive
  try dsimp only
  repeat' first
    | with_reducible assumption
    | with_reducible apply Dev.count_sound
    | with_reducible apply Dev.contentionOut_sound
    | with_reducible apply Dev.setRlc_sound
    | with_reducible apply Dev.Sound.ite
    | with_reducible apply Dev.Sound.ite_snd
    | with_reducible apply Dev.Sound.foldl
    | with_reducible apply hf
    | simp only [Dev.Sound.keep]
    | simp only [Dev.Sound.keepSdp]
    | (intro _; intros; try dsimp only)
    | dsimp only
    | (split; all_goals try dsimp only)

theorem Dev.alarmFrame_sound {d : Dev} (h : d.Sound) (c : Nat) (a : Nat) (payload : List Byte) : (Dev.alarmFrame d c a payload).Sound := by
  unfold Dev.alarmFrame
  try dsimp only
  repeat' first
    | with_reducible assumption
    | with_reducible apply Dev.newAlarm_sound
    | with_reducible apply Dev.Sound.ite
    | (intro _; intros; try dsimp only)

theorem Dev.lineJam_sound {d : Dev} (h : d.Sound) (c : Nat) : (Dev.lineJam d c).Sound := by
  unfold Dev.lineJam
  try dsimp only
  repeat' first
    | with_reducible assumption
    | with_reducible apply Dev.lineEvent_sound
    | with_reducible apply Dev.count_sound
    | with_reducible apply Dev.slotOpen_sound
    | with_reducible apply Dev.linePush_sound
    | with_reducible apply Dev.Sound.ite
    | (intro _; intros; try dsimp only)

/-! ### Sip -/

theorem Dev.setSip_sound {d : Dev} (h : d.Sound) (p : Nat) (x : Sip) : (d.setSip p x).Sound :=
  { h with sips := Tab.wf_set h.sips _ _ }

theorem Dev.sipSource_sound {d : Dev} (h : d.Sound) (p : Nat) (k : Nat) : (Dev.sipSource d p k).Sound := by
  unfold Dev.sipSource
  try dsimp only
  repeat' first
    | with_reducible assumption
    | with_reducible apply Dev.raise_sound

theorem Dev.sipTrain_sound {d : Dev} (hk : d.Sound) (p : Nat) : (Dev.sipTrain d p).Sound := by
  unfold Dev.sipTrain
  try dsimp only
  repeat' first
    | with_reducible assumption
    | with_reducible apply Dev.setSip_sound
    | with_reducible apply Dev.emit_sound
    | with_reducible apply Dev.Sound.ite
    | with_reducible apply Dev.Sound.ite_snd
    | with_reducible apply Dev.Sound.foldl
    | simp only [Dev.Sound.keep]
    | simp only [Dev.Sound.keepSdp]
    | (intro _; intros; try dsimp only)
    | dsimp only
    | (split; all_goals try dsimp only)

theorem Dev.sipTo_sound {d : Dev} (h : d.Sound) (p : Nat) (x : Nat) : (Dev.sipTo d p x).Sound := by
  unfold Dev.sipTo
  try dsimp only
  repeat' first
    | with_reducible assumption
    | with_reducible apply Dev.sipTrain_sound
    | with_reducible apply Dev.setSip_sound
    | with_reducible apply Dev.setReg_sound
    | with_reducible apply Dev.setFlag_sound
    | with_reducible apply Dev.sipSource_sound
    | with_reducible apply Dev.Sound.ite
    | with_reducible apply Dev.Sound.ite_snd
    | with_reducible apply Dev.Sound.foldl
    | simp only [Dev.Sound.keep]
    | simp only [Dev.Sound.keepSdp]
    | (intro _; intros; try dsimp only)
    | dsimp only
    | (split; all_goals try dsimp only)

theorem Dev.sipUp_sound {d : Dev} (h : d.Sound) (p : Nat) : (Dev.sipUp d p).Sound := by
  unfold Dev.sipUp
  try dsimp only
  repeat' first
    | with_reducible assumption
    | with_reducible apply Dev.sipTo_sound
    | with_reducible apply Dev.Sound.ite
    | (intro _; intros; try dsimp only)

theorem Dev.setCtx_sound {d : Dev} (h : d.Sound) (p j : Nat) (x : Ctx) : (d.setCtx p j x).Sound :=
  Dev.setReg_sound (d := { d with ctxs := d.ctxs.set (fun _ => {}) (16 * p + j) x })
    { h with ctxs := Tab.wf_set h.ctxs _ _ } _ _

theorem Dev.ctxOff_sound {d : Dev} (h : d.Sound) (p : Nat) (j : Nat) : (Dev.ctxOff d p j).Sound := by
  unfold Dev.ctxOff
  try dsimp only
  repeat' first
    | with_reducible assumption
    | with_reducible apply Dev.setCtx_sound
    | with_reducible apply Dev.Sound.ite
    | with_reducible apply Dev.Sound.ite_snd
    | with_reducible apply Dev.Sound.foldl
    | simp only [Dev.Sound.keep]
    | simp only [Dev.Sound.keepSdp]
    | (intro _; intros; try dsimp only)
    | dsimp only
    | (split; all_goals try dsimp only)

theorem Dev.writeCtxCtrl_sound {d : Dev} (h : d.Sound) (p : Nat) (j : Nat) (v : Nat) : (Dev.writeCtxCtrl d p j v).Sound := by
  unfold Dev.writeCtxCtrl
  try dsimp only
  repeat' first
    | with_reducible assumption
    | with_reducible apply Dev.genericWrite_sound
    | with_reducible apply Dev.refuse_sound
    | with_reducible apply Dev.ctxOff_sound
    | with_reducible apply Dev.admRefused_sound
    | with_reducible apply Dev.setCtx_sound
    | with_reducible apply Dev.Sound.ite
    | (intro _; intros; try dsimp only)
    | (split; all_goals try dsimp only)

theorem Dev.ctxEvent_sound {d : Dev} (h : d.Sound) (p : Nat) (j : Nat) (f : Fld) : (Dev.ctxEvent d p j f).Sound := by
  unfold Dev.ctxEvent
  try dsimp only
  repeat' first
    | with_reducible assumption
    | with_reducible apply Dev.sipSource_sound
    | with_reducible apply Dev.setFlag_sound

theorem Dev.openFrame_sound {d : Dev} (h : d.Sound) (p : Nat) (j : Nat) (r : Rtp) : (Dev.openFrame d p j r).Sound := by
  unfold Dev.openFrame
  try dsimp only
  repeat' first
    | with_reducible assumption
    | with_reducible apply Dev.setCtx_sound
    | with_reducible apply Dev.count_sound
    | with_reducible apply Dev.ctxEvent_sound
    | with_reducible apply Dev.Sound.ite
    | with_reducible apply Dev.Sound.ite_snd
    | with_reducible apply Dev.Sound.foldl
    | simp only [Dev.Sound.keep]
    | simp only [Dev.Sound.keepSdp]
    | (intro _; intros; try dsimp only)
    | dsimp only
    | (split; all_goals try dsimp only)

theorem Dev.pushStamp_sound {d : Dev} (h : d.Sound) (p : Nat) (tag : Nat) : (Dev.pushStamp d p tag).Sound := by
  unfold Dev.pushStamp
  try dsimp only
  repeat' first
    | with_reducible assumption
    | with_reducible apply Dev.count_sound
    | with_reducible apply Dev.setSip_sound
    | with_reducible apply Dev.setReg_sound
    | with_reducible apply Dev.setFlag_sound
    | with_reducible apply Dev.Sound.ite
    | (intro _; intros; try dsimp only)

theorem Dev.writeRun_sound {d : Dev} (hk : d.Sound) (row bp s n w : Nat) (bad : List Nat) : (Dev.writeRun d row bp s n w bad).Sound := by
  unfold Dev.writeRun
  try dsimp only
  repeat' first
    | with_reducible assumption
    | with_reducible apply Dev.memStore_sound
    | with_reducible apply Dev.Sound.ite
    | with_reducible apply Dev.Sound.ite_snd
    | with_reducible apply Dev.Sound.foldl
    | simp only [Dev.Sound.keep]
    | simp only [Dev.Sound.keepSdp]
    | (intro _; intros; try dsimp only)
    | dsimp only
    | (split; all_goals try dsimp only)

theorem Dev.mergeTidy_sound {d : Dev} (h : d.Sound) (p : Nat) (j : Nat) (top : Nat) : (Dev.mergeTidy d p j top).Sound := by
  unfold Dev.mergeTidy
  try dsimp only
  repeat' first
    | with_reducible assumption
    | with_reducible apply Dev.count_sound
    | with_reducible apply Dev.setCtx_sound
    | with_reducible apply Dev.Sound.ite
    | with_reducible apply Dev.Sound.foldl
    | (intro _; intros; try dsimp only)

theorem Dev.merge_sound {d : Dev} (h : d.Sound) (p j path seq : Nat) : (d.merge p j path seq).2.Sound := by
  unfold Dev.merge
  generalize (32768 : Int) = lim
  refine Dev.Sound.ite_snd (fun _ => Dev.count_sound h _) fun _ => ?_
  split
  · exact Dev.count_sound (Dev.setCtx_sound h _ _ _) _
  · exact Dev.mergeTidy_sound (Dev.setCtx_sound h _ _ _) _ _ _

theorem Dev.freePixel_sound {d : Dev} (hk : d.Sound) : (Dev.freePixel d).2.Sound := by
  unfold Dev.freePixel
  try dsimp only
  repeat' first
    | with_reducible assumption
    | with_reducible apply Dev.freshBytes_sound
    | with_reducible apply Dev.Sound.ite
    | with_reducible apply Dev.Sound.ite_snd
    | with_reducible apply Dev.Sound.foldl
    | simp only [Dev.Sound.keep]
    | simp only [Dev.Sound.keepSdp]
    | (intro _; intros; try dsimp only)
    | dsimp only
    | (split; all_goals try dsimp only)

theorem Dev.freePixels_sound {d : Dev} (hk : d.Sound) (row s n : Nat) (bad : List Nat) : (Dev.freePixels d row s n bad).Sound := by
  unfold Dev.freePixels
  try dsimp only
  repeat' first
    | with_reducible assumption
    | with_reducible apply Dev.freePixel_sound
    | with_reducible apply Dev.writeRun_sound
    | with_reducible apply Dev.Sound.ite
    | with_reducible apply Dev.Sound.ite_snd
    | with_reducible apply Dev.Sound.foldl
    | with_reducible apply Dev.Sound.foldl_fst
    | simp only [Dev.Sound.keep]
    | simp only [Dev.Sound.keepSdp]
    | (intro _; intros; try dsimp only)
    | dsimp only
    | (split; all_goals try dsimp only)

theorem Dev.fillChroma_sound {d : Dev} (hk : d.Sound) (p j : Nat) (fr : OpenFrame) (bad : List Nat) : (Dev.fillChroma d p j fr bad).Sound := by
  unfold Dev.fillChroma
  try dsimp only
  repeat' first
    | with_reducible assumption
    | with_reducible apply Dev.freePixels_sound
    | with_reducible apply Dev.Sound.ite
    | with_reducible apply Dev.Sound.ite_snd
    | with_reducible apply Dev.Sound.foldl
    | simp only [Dev.Sound.keep]
    | simp only [Dev.Sound.keepSdp]
    | (intro _; intros; try dsimp only)
    | dsimp only
    | (split; all_goals try dsimp only)

theorem Dev.closeFrame_sound {d : Dev} (hk : d.Sound) (p j : Nat) (bad : List Nat) : (Dev.closeFrame d p j bad).Sound := by
  unfold Dev.closeFrame
  try dsimp only
  repeat' first
    | with_reducible assumption
    | with_reducible apply Dev.setCtx_sound
    | with_reducible apply Dev.count_sound
    | with_reducible apply Dev.countBy_sound
    | with_reducible apply Dev.ctxEvent_sound
    | with_reducible apply Dev.fillChroma_sound
    | with_reducible apply Dev.Sound.ite
    | with_reducible apply Dev.Sound.ite_snd
    | with_reducible apply Dev.Sound.foldl
    | simp only [Dev.Sound.keep]
    | simp only [Dev.Sound.keepSdp]
    | (intro _; intros; try dsimp only)
    | dsimp only
    | (split; all_goals try dsimp only)

theorem Dev.placeSrd_sound {d : Dev} (hk : d.Sound) (p j : Nat) (fr : OpenFrame) (s : Srd) (bad : List Nat) : (Dev.placeSrd d p j fr s bad).1.Sound := by
  unfold Dev.placeSrd
  try dsimp only
  repeat' first
    | with_reducible assumption
    | with_reducible apply Dev.freePixels_sound
    | with_reducible apply Dev.writeRun_sound
    | with_reducible apply Dev.Sound.ite
    | with_reducible apply Dev.Sound.ite_snd
    | with_reducible apply Dev.Sound.foldl
    | with_reducible apply Dev.Sound.foldl_fst
    | simp only [Dev.Sound.keep]
    | simp only [Dev.Sound.keepSdp]
    | (intro _; intros; try dsimp only)
    | dsimp only
    | (split; all_goals try dsimp only)

theorem Dev.framePacket_sound {d : Dev} (h : d.Sound) (p j : Nat) (r : Rtp) (bad : List Nat) : (d.framePacket p j r bad).Sound := by
  have hfold (l : List Srd) (a : Dev × OpenFrame) (ha : a.1.Sound) :
      (l.foldl (fun (a : Dev × OpenFrame) s => a.1.placeSrd p j a.2 s bad) a).1.Sound :=
    Dev.Sound.foldl_fst l ha fun a x ha => Dev.placeSrd_sound ha _ _ _ _ _
  unfold Dev.framePacket
  dsimp only
  repeat' first
    | with_reducible assumption
    | with_reducible apply Dev.count_sound
    | with_reducible apply Dev.setCtx_sound
    | with_reducible apply Dev.closeFrame_sound
    | with_reducible apply Dev.openFrame_sound
    | with_reducible apply hfold
    | with_reducible apply Dev.Sound.ite
    | (intro _; intros; try dsimp only)
    | (split; all_goals try dsimp only)

theorem Dev.takePacket_sound {d : Dev} (hk : d.Sound) (p j path : Nat) (buffer : Ecc) (bad : List Nat) (bs : List Byte) : (Dev.takePacket d p j path buffer bad bs).Sound := by
  unfold Dev.takePacket
  try dsimp only
  repeat' first
    | with_reducible assumption
    | with_reducible apply Dev.reserved_sound
    | with_reducible apply Dev.count_sound
    | with_reducible apply Dev.setCtx_sound
    | with_reducible apply Dev.merge_sound
    | with_reducible apply Dev.framePacket_sound
    | with_reducible apply Dev.Sound.ite
    | with_reducible apply Dev.Sound.ite_snd
    | with_reducible apply Dev.Sound.foldl
    | simp only [Dev.Sound.keep]
    | simp only [Dev.Sound.keepSdp]
    | (intro _; intros; try dsimp only)
    | dsimp only
    | (split; all_goals try dsimp only)

theorem Dev.rxDrain_sound {d : Dev} (hk : d.Sound) (p j : Nat) (bad : List Nat) : (Dev.rxDrain d p j bad).Sound := by
  unfold Dev.rxDrain
  try dsimp only
  repeat' first
    | with_reducible assumption
    | with_reducible apply Dev.takePacket_sound
    | with_reducible apply Dev.setCtx_sound
    | with_reducible apply Dev.Sound.ite
    | with_reducible apply Dev.Sound.ite_snd
    | with_reducible apply Dev.Sound.foldl
    | with_reducible apply Dev.Sound.foldl_fst
    | simp only [Dev.Sound.keep]
    | simp only [Dev.Sound.keepSdp]
    | (intro _; intros; try dsimp only)
    | dsimp only
    | (split; all_goals try dsimp only)

theorem Dev.ctxPacket_sound {d : Dev} (hk : d.Sound) (p j path : Nat) (care : RxCare) (bs : List Byte) : (Dev.ctxPacket d p j path care bs).Sound := by
  unfold Dev.ctxPacket
  try dsimp only
  repeat' first
    | with_reducible assumption
    | with_reducible apply Dev.count_sound
    | with_reducible apply Dev.ctxEvent_sound
    | with_reducible apply Dev.reservedWake_sound
    | with_reducible apply Dev.setCtx_sound
    | with_reducible apply Dev.rxDrain_sound
    | with_reducible apply Dev.Sound.ite
    | with_reducible apply Dev.Sound.ite_snd
    | with_reducible apply Dev.Sound.foldl
    | simp only [Dev.Sound.keep]
    | simp only [Dev.Sound.keepSdp]
    | (intro _; intros; try dsimp only)
    | dsimp only
    | (split; all_goals try dsimp only)

theorem Dev.slowFrame_sound {d : Dev} (hk : d.Sound) (p : Nat) (bs : List Byte) (tci : Option Nat) (stamp : Bool) (bad : List Nat) : (Dev.slowFrame d p bs tci stamp bad).Sound := by
  unfold Dev.slowFrame
  try dsimp only
  repeat' first
    | with_reducible assumption
    | with_reducible apply Dev.count_sound
    | with_reducible apply Dev.setFlag_sound
    | with_reducible apply Dev.setSip_sound
    | with_reducible apply Dev.memStore_sound
    | with_reducible apply Dev.ringComplete_sound
    | with_reducible apply Dev.Sound.ite
    | with_reducible apply Dev.Sound.ite_snd
    | with_reducible apply Dev.Sound.foldl
    | simp only [Dev.Sound.keep]
    | simp only [Dev.Sound.keepSdp]
    | (intro _; intros; try dsimp only)
    | dsimp only
    | (split; all_goals try dsimp only)

theorem Dev.classify_sound {d : Dev} (hk : d.Sound) (p : Nat) (bs : List Byte) (care : RxCare) : (Dev.classify d p bs care).Sound := by
  unfold Dev.classify
  try dsimp only
  repeat' first
    | with_reducible assumption
    | with_reducible apply Dev.count_sound
    | with_reducible apply Dev.ctxPacket_sound
    | with_reducible apply Dev.slowFrame_sound
    | with_reducible apply Dev.Sound.ite
    | with_reducible apply Dev.Sound.ite_snd
    | with_reducible apply Dev.Sound.foldl
    | simp only [Dev.Sound.keep]
    | simp only [Dev.Sound.keepSdp]
    | (intro _; intros; try dsimp only)
    | dsimp only
    | (split; all_goals try dsimp only)

theorem Dev.ethFrame_sound {d : Dev} (hk : d.Sound) (p : Nat) (bs : List Byte) (fcsOk : Bool) (care : RxCare) (corrected uncorrected : Nat) : (Dev.ethFrame d p bs fcsOk care corrected uncorrected).Sound := by
  unfold Dev.ethFrame
  try dsimp only
  repeat' first
    | with_reducible assumption
    | with_reducible apply Dev.countBy_sound
    | with_reducible apply Dev.count_sound
    | with_reducible apply Dev.classify_sound
    | with_reducible apply Dev.Sound.ite
    | with_reducible apply Dev.Sound.ite_snd
    | with_reducible apply Dev.Sound.foldl
    | simp only [Dev.Sound.keep]
    | simp only [Dev.Sound.keepSdp]
    | (intro _; intros; try dsimp only)
    | dsimp only
    | (split; all_goals try dsimp only)

theorem Dev.ctxLost_sound {d : Dev} (h : d.Sound) (p : Nat) (j : Nat) : (Dev.ctxLost d p j).Sound := by
  unfold Dev.ctxLost
  try dsimp only
  repeat' first
    | with_reducible assumption
    | with_reducible apply Dev.closeFrame_sound
    | with_reducible apply Dev.setCtx_sound
    | with_reducible apply Dev.ctxEvent_sound
    | with_reducible apply Dev.Sound.ite
    | with_reducible apply Dev.Sound.ite_snd
    | with_reducible apply Dev.Sound.foldl
    | simp only [Dev.Sound.keep]
    | simp only [Dev.Sound.keepSdp]
    | (intro _; intros; try dsimp only)
    | dsimp only
    | (split; all_goals try dsimp only)

theorem Dev.ctxTorn_sound {d : Dev} (hk : d.Sound) (p j : Nat) (kept : Bool) : (Dev.ctxTorn d p j kept).Sound := by
  unfold Dev.ctxTorn
  try dsimp only
  repeat' first
    | with_reducible assumption
    | with_reducible apply Dev.setCtx_sound
    | with_reducible apply Dev.ctxEvent_sound
    | with_reducible apply Dev.Sound.ite
    | with_reducible apply Dev.Sound.ite_snd
    | with_reducible apply Dev.Sound.foldl
    | simp only [Dev.Sound.keep]
    | simp only [Dev.Sound.keepSdp]
    | (intro _; intros; try dsimp only)
    | dsimp only
    | (split; all_goals try dsimp only)

theorem Dev.sipReset_sound {d : Dev} (h : d.Sound) (p : Nat) (x : Nat) : (Dev.sipReset d p x).Sound := by
  unfold Dev.sipReset
  try dsimp only
  repeat' first
    | with_reducible assumption
    | with_reducible apply Dev.freshBool_sound
    | with_reducible apply Dev.ctxLost_sound
    | with_reducible apply Dev.ctxTorn_sound
    | with_reducible apply Dev.setSip_sound
    | with_reducible apply Dev.ringComplete_sound
    | with_reducible apply Dev.newEpoch_sound
    | with_reducible apply Dev.countBy_sound
    | with_reducible apply Dev.setFlag_sound
    | with_reducible apply Dev.sipTo_sound
    | with_reducible apply Dev.Sound.ite
    | with_reducible apply Dev.Sound.ite_snd
    | with_reducible apply Dev.Sound.foldl
    | with_reducible apply Dev.Sound.foldl_fst
    | simp only [Dev.Sound.keep]
    | simp only [Dev.Sound.keepSdp]
    | (intro _; intros; try dsimp only)
    | dsimp only
    | (split; all_goals try dsimp only)

theorem Dev.sipRetrain_sound {d : Dev} (h : d.Sound) (p : Nat) : (Dev.sipRetrain d p).Sound := by
  unfold Dev.sipRetrain
  try dsimp only
  repeat' first
    | with_reducible assumption
    | with_reducible apply Dev.sipReset_sound
    | with_reducible apply Dev.Sound.ite
    | (intro _; intros; try dsimp only)

theorem Dev.writeCtxFixed_sound {d : Dev} (h : d.Sound) (p : Nat) (j : Nat) (key : Nat) (v : Nat) : (Dev.writeCtxFixed d p j key v).Sound := by
  unfold Dev.writeCtxFixed
  try dsimp only
  repeat' first
    | with_reducible assumption
    | with_reducible apply Dev.refuse_sound
    | with_reducible apply Dev.genericWrite_sound
    | with_reducible apply Dev.Sound.ite
    | (intro _; intros; try dsimp only)

theorem Dev.pathEvent_sound {d : Dev} (h : d.Sound) (p : Nat) (j : Nat) : (Dev.pathEvent d p j).Sound := by
  unfold Dev.pathEvent
  try dsimp only
  repeat' first
    | with_reducible assumption
    | with_reducible apply Dev.sipSource_sound
    | with_reducible apply Dev.setFlag_sound
    | with_reducible apply Dev.Sound.ite
    | (intro _; intros; try dsimp only)

theorem Dev.writeSipCtrl_sound {d : Dev} (h : d.Sound) (p : Nat) (v : Nat) : (Dev.writeSipCtrl d p v).Sound := by
  unfold Dev.writeSipCtrl
  try dsimp only
  repeat' first
    | with_reducible assumption
    | with_reducible apply Dev.genericWrite_sound
    | with_reducible apply Dev.sipReset_sound
    | with_reducible apply Dev.sipUp_sound
    | with_reducible apply Dev.refuse_sound
    | with_reducible apply Dev.sipRetrain_sound
    | with_reducible apply Dev.Sound.ite
    | (intro _; intros; try dsimp only)

theorem Dev.tsfPop_sound {d : Dev} (h : d.Sound) (p : Nat) (ecc : Ecc) : (Dev.tsfPop d p ecc).2.Sound := by
  unfold Dev.tsfPop
  try dsimp only
  repeat' first
    | with_reducible assumption
    | with_reducible apply Dev.setReg_sound
    | with_reducible apply Dev.setFlag_sound
    | with_reducible apply Dev.secdedCorrected_sound
    | with_reducible apply Dev.count_sound
    | with_reducible apply Dev.freshBytes_sound
    | with_reducible apply Dev.secdedBad_sound
    | with_reducible apply Dev.setSip_sound
    | with_reducible apply Dev.Sound.ite
    | with_reducible apply Dev.Sound.ite_snd
    | with_reducible apply Dev.Sound.foldl
    | simp only [Dev.Sound.keep]
    | simp only [Dev.Sound.keepSdp]
    | (intro _; intros; try dsimp only)
    | dsimp only
    | (split; all_goals try dsimp only)

theorem Dev.writeSipRing_sound {d : Dev} (h : d.Sound) (p : Nat) (v : Nat) : (Dev.writeSipRing d p v).Sound := by
  unfold Dev.writeSipRing
  try dsimp only
  repeat' first
    | with_reducible assumption
    | with_reducible apply Dev.refuse_sound
    | with_reducible apply Dev.ringUnbind_sound
    | with_reducible apply Dev.ringBind_sound
    | with_reducible apply Dev.genericWrite_sound
    | with_reducible apply Dev.Sound.ite
    | (intro _; intros; try dsimp only)

theorem Dev.frameLanded_sound {d : Dev} (h : d.Sound) (p : Nat) (j : Nat) : (Dev.frameLanded d p j).Sound := by
  unfold Dev.frameLanded
  try dsimp only
  repeat' first
    | with_reducible assumption
    | with_reducible apply Dev.rxDrain_sound
    | with_reducible apply Dev.setCtx_sound
    | with_reducible apply Dev.setReg_sound
    | with_reducible apply Dev.ctxEvent_sound
    | with_reducible apply Dev.count_sound
    | with_reducible apply Dev.plateAdvance_sound
    | with_reducible apply Dev.fenceAdvance_sound
    | with_reducible apply Dev.sipSource_sound
    | with_reducible apply Dev.Sound.ite
    | with_reducible apply Dev.Sound.ite_snd
    | with_reducible apply Dev.Sound.foldl
    | simp only [Dev.Sound.keep]
    | simp only [Dev.Sound.keepSdp]
    | (intro _; intros; try dsimp only)
    | dsimp only
    | (split; all_goals try dsimp only)

theorem Dev.txDone_sound {d : Dev} (h : d.Sound) (p : Nat) : (Dev.txDone d p).Sound := by
  unfold Dev.txDone
  try dsimp only
  repeat' first
    | with_reducible assumption
    | with_reducible apply Dev.count_sound
    | with_reducible apply Dev.setSip_sound
    | with_reducible apply Dev.pushStamp_sound
    | with_reducible apply Dev.ringComplete_sound
    | with_reducible apply Dev.Sound.ite
    | (intro _; intros; try dsimp only)
    | (split; all_goals try dsimp only)

theorem Dev.onStream_sound {d : Dev} (h : d.Sound) (p : Nat) (key : Nat) (f : Dev → Dev) (hf : ∀ d, d.Sound → (f d).Sound) : (Dev.onStream d p key f).Sound := by
  unfold Dev.onStream
  try dsimp only
  repeat' first
    | with_reducible assumption
    | with_reducible apply Dev.onWrite_sound
    | with_reducible apply Dev.Sound.ite
    | (intro _; intros; try dsimp only)

theorem Dev.slowEntry_sound {d : Dev} (h : d.Sound) (p : Nat) (tx : Bool) : (Dev.slowEntry d p tx).Sound := by
  unfold Dev.slowEntry
  try dsimp only
  repeat' first
    | with_reducible assumption
    | with_reducible apply Dev.ringBind_sound
    | with_reducible apply Dev.ringFetch_sound
    | with_reducible apply Dev.ringReject_sound
    | with_reducible apply Dev.ringTake_sound
    | with_reducible apply Dev.plainReads_sound
    | with_reducible apply Dev.setSip_sound
    | with_reducible apply Dev.emit_sound
    | with_reducible apply Dev.Sound.ite
    | with_reducible apply Dev.Sound.ite_snd
    | with_reducible apply Dev.Sound.foldl
    | simp only [Dev.Sound.keep]
    | simp only [Dev.Sound.keepSdp]
    | (intro _; intros; try dsimp only)
    | dsimp only
    | (split; all_goals try dsimp only)

theorem Dev.bridgeDown_sound {d : Dev} (h : d.Sound) : (Dev.bridgeDown d).Sound := by
  unfold Dev.bridgeDown
  try dsimp only
  repeat' first
    | with_reducible assumption
    | with_reducible apply Dev.setFlag_sound
    | with_reducible apply Dev.raise_sound
    | with_reducible apply Dev.depLog_sound

theorem Dev.bar2Far_sound {d : Dev} (h : d.Sound) (write : Bool) : (Dev.bar2Far d write).Sound := by
  unfold Dev.bar2Far
  try dsimp only
  repeat' first
    | with_reducible assumption
    | with_reducible apply Dev.freshNat_sound
    | with_reducible apply Dev.farError_sound

theorem Dev.bar2Write_sound {d : Dev} (h : d.Sound) (off : Nat) (bs : List Byte) (bad : List Nat) : (Dev.bar2Write d off bs bad).Sound := by
  unfold Dev.bar2Write
  try dsimp only
  repeat' first
    | with_reducible assumption
    | with_reducible apply Dev.freshNat_sound
    | with_reducible apply Dev.busError_sound
    | with_reducible apply Dev.bar2Far_sound
    | with_reducible apply Dev.memStore_sound
    | with_reducible apply Dev.Sound.ite
    | with_reducible apply Dev.Sound.ite_snd
    | with_reducible apply Dev.Sound.foldl
    | simp only [Dev.Sound.keep]
    | simp only [Dev.Sound.keepSdp]
    | (intro _; intros; try dsimp only)
    | dsimp only
    | (split; all_goals try dsimp only)

theorem Dev.writeAperture_sound {d : Dev} (h : d.Sound) (v : Nat) : (Dev.writeAperture d v).Sound := by
  unfold Dev.writeAperture
  try dsimp only
  repeat' first
    | with_reducible assumption
    | with_reducible apply Dev.refuse_sound
    | with_reducible apply Dev.genericWrite_sound
    | with_reducible apply Dev.Sound.ite
    | (intro _; intros; try dsimp only)

theorem Dev.resetKeyBroken_sound {d : Dev} (h : d.Sound) : (Dev.resetKeyBroken d).Sound := by
  unfold Dev.resetKeyBroken
  try dsimp only
  repeat' first
    | with_reducible assumption
    | with_reducible apply Dev.refuse_sound
    | with_reducible apply Dev.setReg_sound

theorem Dev.bar2Read_sound {d : Dev} (h : d.Sound) (off : Nat) (n : Nat) (bad : List Nat) : (Dev.bar2Read d off n bad).Sound := by
  unfold Dev.bar2Read
  try dsimp only
  repeat' first
    | with_reducible assumption
    | with_reducible apply Dev.emit_sound
    | with_reducible apply Dev.bar2Far_sound
    | with_reducible apply Dev.memWake_sound
    | with_reducible apply Dev.failBlocks_sound
    | with_reducible apply Dev.count_sound
    | with_reducible apply Dev.depLog_sound
    | with_reducible apply Dev.Sound.ite
    | with_reducible apply Dev.Sound.ite_snd
    | with_reducible apply Dev.Sound.foldl
    | simp only [Dev.Sound.keep]
    | simp only [Dev.Sound.keepSdp]
    | (intro _; intros; try dsimp only)
    | dsimp only
    | (split; all_goals try dsimp only)

/-! ### Reset -/

theorem Dev.abandonFlash_sound {d : Dev} (h : d.Sound) : d.abandonFlash.Sound := by
  have hw (e : Dev) (he : e.Sound) (a : Nat) (bs : List Byte) (b : Boot) :
      ({ e with flash := e.flash.write flashDefault a bs, boot := b } : Dev).Sound :=
    { he with flash := Tab.wf_write he.flash _ _ }
  unfold Dev.abandonFlash
  generalize 65536 = sector
  split
  · exact hw _ (Dev.freshBytes_sound h _) _ _ _
  · simp only [Dev.Sound.keepSdp]
    exact h

theorem Dev.fuseAtCold_sound {d : Dev} (h : d.Sound) : (Dev.fuseAtCold d).Sound := by
  unfold Dev.fuseAtCold
  try dsimp only
  repeat' first
    | with_reducible assumption
    | with_reducible apply Dev.freshBool_sound
    | with_reducible apply Dev.burn_sound
    | with_reducible apply Dev.Sound.ite
    | (intro _; intros; try dsimp only)

theorem Dev.resetTo_sound {d0 : Dev} (h : d0.Sound) (k : ResetKind) : (d0.resetTo k).Sound := by
  unfold Dev.resetTo
  dsimp only
  have hd : ((if (k == .cold) = true then d0.fuseAtCold else d0).abandonFlash).Sound := by
    apply Dev.abandonFlash_sound
    split
    · exact Dev.fuseAtCold_sound h
    · exact h
  generalize (if (k == .cold) = true then d0.fuseAtCold else d0).abandonFlash = d at hd
  exact {
    regs := Tab.wf_filter hd.regs _
    mem := by dsimp only; split; exacts [rfl, hd.mem]
    staging := rfl, flash := hd.flash, hostMem := hd.hostMem, rings := rfl, coaches := rfl, lines := rfl, sips := rfl
    ctxs := rfl, tallies := rfl
    log := by dsimp only; split; exacts [Nat.zero_le _, hd.log]
    audit := by dsimp only; split; exacts [Nat.zero_le _, hd.audit]
    power := Nat.zero_le _
    sec := by
      dsimp only
      split
      · split <;> decide
      · exact hd.sec }

theorem Dev.trimImageRead_sound {d : Dev} (hk : d.Sound) (op : Nat) : (Dev.trimImageRead d op).Sound := by
  unfold Dev.trimImageRead
  try dsimp only
  repeat' first
    | with_reducible assumption
    | with_reducible apply Dev.plainReads_sound
    | with_reducible apply Dev.Sound.ite
    | with_reducible apply Dev.Sound.ite_snd
    | with_reducible apply Dev.Sound.foldl
    | simp only [Dev.Sound.keep]
    | simp only [Dev.Sound.keepSdp]
    | (intro _; intros; try dsimp only)
    | dsimp only
    | (split; all_goals try dsimp only)

theorem Dev.flashGo_sound {d : Dev} (h : d.Sound) (op : Nat) : (Dev.flashGo d op).Sound := by
  unfold Dev.flashGo
  try dsimp only
  repeat' first
    | with_reducible assumption
    | with_reducible apply Dev.setReg_sound
    | with_reducible apply Dev.trimImageRead_sound
    | with_reducible apply Dev.refuse_sound
    | with_reducible apply Dev.Sound.ite
    | with_reducible apply Dev.Sound.ite_snd
    | with_reducible apply Dev.Sound.foldl
    | simp only [Dev.Sound.keep]
    | simp only [Dev.Sound.keepSdp]
    | (intro _; intros; try dsimp only)
    | dsimp only
    | (split; all_goals try dsimp only)

theorem Dev.flashDone_sound {d : Dev} (h : d.Sound) (failed : Bool) (bad : List Nat := []) : (Dev.flashDone d failed bad).Sound := by
  unfold Dev.flashDone
  try dsimp only
  repeat' first
    | with_reducible assumption
    | with_reducible apply Dev.abandonFlash_sound
    | with_reducible apply Dev.freshBytes_sound
    | with_reducible apply Dev.memStore_sound
    | with_reducible apply Dev.setFlag_sound
    | with_reducible apply Dev.plainReads_sound
    | with_reducible apply Dev.Sound.ite
    | with_reducible apply Dev.Sound.ite_snd
    | with_reducible apply Dev.Sound.foldl
    | exact { Dev.plainReads_sound h _ _ with flash := Tab.wf_write (Tab.wf_clear (Dev.plainReads_sound h _ _).flash _ _) _ _ }
    | simp only [Dev.Sound.keep]
    | simp only [Dev.Sound.keepSdp]
    | (intro _; intros; try dsimp only)
    | dsimp only
    | (split; all_goals try dsimp only)

theorem Dev.trainingDone_sound {d : Dev} (h : d.Sound) : (Dev.trainingDone d).Sound := by
  unfold Dev.trainingDone
  try dsimp only
  repeat' first
    | with_reducible assumption
    | with_reducible apply Dev.Sound.ite
    | with_reducible apply Dev.Sound.ite_snd
    | with_reducible apply Dev.Sound.foldl
    | simp only [Dev.Sound.keep]
    | simp only [Dev.Sound.keepSdp]
    | (intro _; intros; try dsimp only)
    | dsimp only
    | (split; all_goals try dsimp only)

theorem Dev.writeTrimKey_sound {d : Dev} (h : d.Sound) (v : Nat) : (Dev.writeTrimKey d v).Sound := by
  unfold Dev.writeTrimKey
  try dsimp only
  repeat' first
    | with_reducible assumption
    | with_reducible apply Dev.setReg_sound

theorem Dev.applyTrim_sound {d : Dev} (h : d.Sound) : (Dev.applyTrim d).Sound := by
  unfold Dev.applyTrim
  try dsimp only
  repeat' first
    | with_reducible assumption
    | with_reducible apply Dev.setFld_sound
    | with_reducible apply Dev.setReg_sound

theorem Dev.readTrim_sound {d : Dev} (h : d.Sound) : (Dev.readTrim d).Sound := by
  unfold Dev.readTrim
  try dsimp only
  repeat' first
    | with_reducible assumption
    | with_reducible apply Dev.applyTrim_sound
    | simp only [Dev.Sound.keepSdp]

theorem Dev.clearDone_sound {d : Dev} (h : d.Sound) : d.clearDone.Sound := by
  unfold Dev.clearDone
  split
  · exact h
  · exact { h with mem := rfl }

/-! ### Clock -/

theorem Dev.writeQpllCtrl_sound {d : Dev} (h : d.Sound) (q : Nat) (v : Nat) : (Dev.writeQpllCtrl d q v).Sound := by
  unfold Dev.writeQpllCtrl
  try dsimp only
  repeat' first
    | with_reducible assumption
    | with_reducible apply Dev.refuse_sound
    | with_reducible apply Dev.genericWrite_sound
    | with_reducible apply Dev.Sound.ite
    | (intro _; intros; try dsimp only)

theorem Dev.setRefMon_sound {d : Dev} (h : d.Sound) (k : Nat) (x : RefMon) : (Dev.setRefMon d k x).Sound := by
  unfold Dev.setRefMon
  try dsimp only
  repeat' first
    | with_reducible assumption
    | simp only [Dev.Sound.keepSdp]

theorem Dev.refGood_sound {d : Dev} (h : d.Sound) (k : Nat) : (Dev.refGood d k).Sound := by
  unfold Dev.refGood
  try dsimp only
  repeat' first
    | with_reducible assumption
    | with_reducible apply Dev.setRefMon_sound
    | with_reducible apply Dev.setFld_sound
    | with_reducible apply Dev.Sound.ite
    | (intro _; intros; try dsimp only)

theorem Dev.ckgEvent_sound {d : Dev} (h : d.Sound) (f : Fld) : (Dev.ckgEvent d f).Sound := by
  unfold Dev.ckgEvent
  try dsimp only
  repeat' first
    | with_reducible assumption
    | with_reducible apply Dev.setFlag_sound

theorem Dev.refLost_sound {d : Dev} (h : d.Sound) (k : Nat) : (Dev.refLost d k).Sound := by
  unfold Dev.refLost
  try dsimp only
  repeat' first
    | with_reducible assumption
    | with_reducible apply Dev.setFld_sound
    | with_reducible apply Dev.setRefMon_sound
    | with_reducible apply Dev.raise_sound
    | with_reducible apply Dev.count_sound
    | with_reducible apply Dev.ckgEvent_sound
    | with_reducible apply Dev.Sound.ite
    | (intro _; intros; try dsimp only)

theorem Dev.refWindow_sound {d : Dev} (h : d.Sound) (counts : List Nat) : (Dev.refWindow d counts).Sound := by
  unfold Dev.refWindow
  try dsimp only
  repeat' first
    | with_reducible assumption
    | with_reducible apply Dev.refGood_sound
    | with_reducible apply Dev.refLost_sound
    | with_reducible apply Dev.Sound.ite
    | with_reducible apply Dev.Sound.foldl
    | (intro _; intros; try dsimp only)

theorem Dev.setPll_sound {d : Dev} (h : d.Sound) (k : Nat) (x : Pll) : (Dev.setPll d k x).Sound := by
  unfold Dev.setPll
  try dsimp only
  repeat' first
    | with_reducible assumption
    | simp only [Dev.Sound.keepSdp]

theorem Dev.quadLoss_sound {d : Dev} (h : d.Sound) (q : Nat) : (Dev.quadLoss d q).Sound := by
  unfold Dev.quadLoss
  try dsimp only
  repeat' first
    | with_reducible assumption
    | with_reducible apply Dev.ckgEvent_sound
    | with_reducible apply Dev.count_sound
    | with_reducible apply Dev.raise_sound
    | with_reducible apply Dev.emit_sound
    | with_reducible apply Dev.coachRetrain_sound
    | with_reducible apply Dev.sipRetrain_sound
    | with_reducible apply Dev.laneRetrain_sound
    | with_reducible apply Dev.trkLaneRetrain_sound
    | with_reducible apply Dev.Sound.ite
    | with_reducible apply Dev.Sound.ite_snd
    | with_reducible apply Dev.Sound.foldl
    | simp only [Dev.Sound.keep]
    | simp only [Dev.Sound.keepSdp]
    | (intro _; intros; try dsimp only)
    | dsimp only
    | (split; all_goals try dsimp only)

theorem Dev.pllLost_sound {d : Dev} (h : d.Sound) (k : Nat) : (Dev.pllLost d k).Sound := by
  unfold Dev.pllLost
  try dsimp only
  repeat' first
    | with_reducible assumption
    | with_reducible apply Dev.setPll_sound
    | with_reducible apply Dev.setFld_sound
    | with_reducible apply Dev.ckgEvent_sound
    | with_reducible apply Dev.count_sound
    | with_reducible apply Dev.raise_sound
    | with_reducible apply Dev.quadLoss_sound
    | with_reducible apply Dev.newEpoch_sound
    | with_reducible apply Dev.Sound.ite
    | with_reducible apply Dev.Sound.ite_snd
    | with_reducible apply Dev.Sound.foldl
    | simp only [Dev.Sound.keep]
    | simp only [Dev.Sound.keepSdp]
    | (intro _; intros; try dsimp only)
    | dsimp only
    | (split; all_goals try dsimp only)

theorem Dev.ckgRelease_sound {d : Dev} (h : d.Sound) : (Dev.ckgRelease d).Sound := by
  unfold Dev.ckgRelease
  try dsimp only
  repeat' first
    | with_reducible assumption
    | with_reducible apply Dev.Sound.ite
    | with_reducible apply Dev.Sound.ite_snd
    | with_reducible apply Dev.Sound.foldl
    | simp only [Dev.Sound.keep]
    | simp only [Dev.Sound.keepSdp]
    | (intro _; intros; try dsimp only)
    | dsimp only
    | (split; all_goals try dsimp only)

theorem Dev.quadUp_sound {d : Dev} (h : d.Sound) (q : Nat) : (Dev.quadUp d q).Sound := by
  unfold Dev.quadUp
  try dsimp only
  repeat' first
    | with_reducible assumption
    | with_reducible apply Dev.driveLane_sound
    | with_reducible apply Dev.coachUp_sound
    | with_reducible apply Dev.sipTrain_sound
    | with_reducible apply Dev.sipUp_sound
    | with_reducible apply Dev.laneTrain_sound
    | with_reducible apply Dev.laneUp_sound
    | with_reducible apply Dev.trkTrain_sound
    | with_reducible apply Dev.trkLaneUp_sound
    | with_reducible apply Dev.Sound.ite
    | with_reducible apply Dev.Sound.ite_snd
    | with_reducible apply Dev.Sound.foldl
    | simp only [Dev.Sound.keep]
    | simp only [Dev.Sound.keepSdp]
    | (intro _; intros; try dsimp only)
    | dsimp only
    | (split; all_goals try dsimp only)

theorem Dev.pllLocked_sound {d : Dev} (h : d.Sound) (k : Nat) : (Dev.pllLocked d k).Sound := by
  unfold Dev.pllLocked
  try dsimp only
  repeat' first
    | with_reducible assumption
    | with_reducible apply Dev.setPll_sound
    | with_reducible apply Dev.setFld_sound
    | with_reducible apply Dev.ckgRelease_sound
    | with_reducible apply Dev.raiseIf_sound
    | with_reducible apply Dev.quadUp_sound
    | with_reducible apply Dev.Sound.ite
    | (intro _; intros; try dsimp only)

theorem Dev.pllWindow_sound {d : Dev} (h : d.Sound) (k : Nat) (diff : Int) : (Dev.pllWindow d k diff).Sound := by
  unfold Dev.pllWindow
  try dsimp only
  repeat' first
    | with_reducible assumption
    | with_reducible apply Dev.setFld_sound
    | with_reducible apply Dev.setPll_sound
    | with_reducible apply Dev.pllLost_sound
    | with_reducible apply Dev.pllLocked_sound
    | with_reducible apply Dev.Sound.ite
    | with_reducible apply Dev.Sound.ite_snd
    | with_reducible apply Dev.Sound.foldl
    | simp only [Dev.Sound.keep]
    | simp only [Dev.Sound.keepSdp]
    | (intro _; intros; try dsimp only)
    | dsimp only
    | (split; all_goals try dsimp only)

theorem Dev.writePllSeed_sound {d : Dev} (h : d.Sound) (k : Nat) (v : Nat) : (Dev.writePllSeed d k v).Sound := by
  unfold Dev.writePllSeed
  try dsimp only
  repeat' first
    | with_reducible assumption
    | with_reducible apply Dev.setReg_sound
    | with_reducible apply Dev.setPll_sound
    | with_reducible apply Dev.Sound.ite
    | with_reducible apply Dev.Sound.ite_snd
    | with_reducible apply Dev.Sound.foldl
    | simp only [Dev.Sound.keep]
    | simp only [Dev.Sound.keepSdp]
    | (intro _; intros; try dsimp only)
    | dsimp only
    | (split; all_goals try dsimp only)

theorem Dev.writePllLock_sound {d : Dev} (h : d.Sound) (k : Nat) (v : Nat) : (Dev.writePllLock d k v).Sound := by
  unfold Dev.writePllLock
  try dsimp only
  repeat' first
    | with_reducible assumption
    | with_reducible apply Dev.refuse_sound
    | with_reducible apply Dev.setPll_sound
    | with_reducible apply Dev.genericWrite_sound
    | with_reducible apply Dev.Sound.ite
    | (intro _; intros; try dsimp only)

theorem Dev.pllFail_sound {d : Dev} (h : d.Sound) (k : Nat) : (Dev.pllFail d k).Sound := by
  unfold Dev.pllFail
  try dsimp only
  repeat' first
    | with_reducible assumption
    | with_reducible apply Dev.setFld_sound
    | with_reducible apply Dev.raise_sound
    | with_reducible apply Dev.ckgEvent_sound
    | with_reducible apply Dev.coachSettle_sound
    | with_reducible apply Dev.abandonAll_sound
    | with_reducible apply Dev.Sound.ite
    | (intro _; intros; try dsimp only)

theorem Dev.clockChanged_sound {d : Dev} (hk : d.Sound) (was : Dev) (n : Nat) : (Dev.clockChanged d was n).Sound := by
  unfold Dev.clockChanged
  try dsimp only
  repeat' first
    | with_reducible assumption
    | with_reducible apply Dev.emit_sound
    | with_reducible apply Dev.Sound.ite
    | with_reducible apply Dev.Sound.ite_snd
    | with_reducible apply Dev.Sound.foldl
    | simp only [Dev.Sound.keep]
    | simp only [Dev.Sound.keepSdp]
    | (intro _; intros; try dsimp only)
    | dsimp only
    | (split; all_goals try dsimp only)

theorem Dev.writeClockOut_sound {d : Dev} (h : d.Sound) (n : Nat) (div : Bool) (v : Nat) : (Dev.writeClockOut d n div v).Sound := by
  unfold Dev.writeClockOut
  try dsimp only
  repeat' first
    | with_reducible assumption
    | with_reducible apply Dev.genericWrite_sound
    | with_reducible apply Dev.clockChanged_sound
    | with_reducible apply Dev.refuse_sound
    | with_reducible apply Dev.Sound.ite
    | with_reducible apply Dev.Sound.ite_snd
    | with_reducible apply Dev.Sound.foldl
    | simp only [Dev.Sound.keep]
    | simp only [Dev.Sound.keepSdp]
    | (intro _; intros; try dsimp only)
    | dsimp only
    | (split; all_goals try dsimp only)

end Sys2Proof.Machine
end

