-- ==== Sys2Proof/Laws/SoundWhole.lean ====
section
/-! SUPPORT. What keeps a device sound: power, register writes and reads, and what the twin receives. -/

set_option linter.unusedTactic false
set_option linter.unreachableTactic false
set_option linter.unusedSimpArgs false
set_option linter.unusedVariables false

namespace Sys2Proof.Machine

/-! ### Power -/

theorem Dev.restExit_sound {d : Dev} (h : d.Sound) : (Dev.restExit d).Sound := by
  unfold Dev.restExit
  try dsimp only
  repeat' first
    | with_reducible assumption
    | with_reducible apply Dev.applyTrim_sound
    | with_reducible apply Dev.Sound.ite
    | with_reducible apply Dev.Sound.ite_snd
    | with_reducible apply Dev.Sound.foldl
    | simp only [Dev.Sound.keep]
    | simp only [Dev.Sound.keepSdp]
    | (intro _; intros; try dsimp only)
    | dsimp only
    | (split; all_goals try dsimp only)

theorem Dev.clocksOff_sound {d : Dev} (hk : d.Sound) : (Dev.clocksOff d).Sound := by
  unfold Dev.clocksOff
  try dsimp only
  repeat' first
    | with_reducible assumption
    | with_reducible apply Dev.emit_sound
    | with_reducible apply Dev.Sound.ite
    | with_reducible apply Dev.Sound.ite_snd
    | with_reducible apply Dev.Sound.foldl
    | simp only [Dev.Sound.keep]
    | simp only [Dev.Sound.keepSdp]
    | (intro _; intros; try dsimp only)
    | dsimp only
    | (split; all_goals try dsimp only)

theorem Dev.outputsStop_sound {d : Dev} (hk : d.Sound) : (Dev.outputsStop d).Sound := by
  unfold Dev.outputsStop
  try dsimp only
  repeat' first
    | with_reducible assumption
    | with_reducible apply Dev.emit_sound
    | with_reducible apply Dev.clocksOff_sound
    | with_reducible apply Dev.Sound.ite
    | with_reducible apply Dev.Sound.ite_snd
    | with_reducible apply Dev.Sound.foldl
    | simp only [Dev.Sound.keep]
    | simp only [Dev.Sound.keepSdp]
    | (intro _; intros; try dsimp only)
    | dsimp only
    | (split; all_goals try dsimp only)

theorem Dev.fullReset_sound {d : Dev} (h : d.Sound) (k : ResetKind) : (Dev.fullReset d k).Sound := by
  unfold Dev.fullReset
  try dsimp only
  repeat' first
    | with_reducible assumption
    | with_reducible apply Dev.resetTo_sound
    | with_reducible apply Dev.outputsStop_sound
    | with_reducible apply Dev.emit_sound
    | with_reducible apply Dev.Sound.ite
    | with_reducible apply Dev.Sound.ite_snd
    | with_reducible apply Dev.Sound.foldl
    | simp only [Dev.Sound.keep]
    | simp only [Dev.Sound.keepSdp]
    | (intro _; intros; try dsimp only)
    | dsimp only
    | (split; all_goals try dsimp only)

theorem Dev.flushEnd_sound {d : Dev} (h : d.Sound) : (Dev.flushEnd d).Sound := by
  unfold Dev.flushEnd
  try dsimp only
  repeat' first
    | with_reducible assumption
    | with_reducible apply Dev.fullReset_sound
    | with_reducible apply Dev.applyTrim_sound
    | with_reducible apply Dev.Sound.ite
    | with_reducible apply Dev.Sound.ite_snd
    | with_reducible apply Dev.Sound.foldl
    | simp only [Dev.Sound.keep]
    | simp only [Dev.Sound.keepSdp]
    | (intro _; intros; try dsimp only)
    | dsimp only
    | (split; all_goals try dsimp only)

theorem Dev.abortSlow_sound {d : Dev} (h : d.Sound) (which : Nat → Bool) : (Dev.abortSlow d which).Sound := by
  unfold Dev.abortSlow
  try dsimp only
  repeat' first
    | with_reducible assumption
    | with_reducible apply Dev.setSip_sound
    | with_reducible apply Dev.ringComplete_sound
    | with_reducible apply Dev.Sound.foldl
    | (intro _; intros; try dsimp only)

theorem Dev.abortScans_sound {d : Dev} (h : d.Sound) (which : Nat → Bool) : (Dev.abortScans d which).Sound := by
  unfold Dev.abortScans
  try dsimp only
  repeat' first
    | with_reducible assumption
    | with_reducible apply Dev.setTly_sound
    | with_reducible apply Dev.orphanReader_sound
    | with_reducible apply Dev.scanEnd_sound
    | with_reducible apply Dev.tlyShow_sound
    | with_reducible apply Dev.Sound.ite
    | with_reducible apply Dev.Sound.ite_snd
    | with_reducible apply Dev.Sound.foldl
    | simp only [Dev.Sound.keep]
    | simp only [Dev.Sound.keepSdp]
    | (intro _; intros; try dsimp only)
    | dsimp only
    | (split; all_goals try dsimp only)

theorem Dev.dozeExit_sound {d : Dev} (h : d.Sound) : (Dev.dozeExit d).Sound := by
  unfold Dev.dozeExit
  try dsimp only
  repeat' first
    | with_reducible assumption
    | with_reducible apply Dev.setPower_sound
    | with_reducible apply Dev.emit_sound
    | with_reducible apply Dev.trkBegin_sound
    | with_reducible apply Dev.coachSettle_sound
    | with_reducible apply Dev.Sound.ite
    | with_reducible apply Dev.Sound.ite_snd
    | with_reducible apply Dev.Sound.foldl
    | decide
    | simp only [Dev.Sound.keep]
    | simp only [Dev.Sound.keepSdp]
    | (intro _; intros; try dsimp only)
    | dsimp only
    | (split; all_goals try dsimp only)

theorem Dev.unlockClearDone_sound {d : Dev} (h : d.Sound) : d.unlockClearDone.Sound := by
  unfold Dev.unlockClearDone
  split
  · exact h
  · apply Dev.fullReset_sound
    exact { h with mem := rfl, log := Nat.zero_le _, audit := Nat.zero_le _, sec := Nat.le_refl 2 }

theorem Dev.restEntry_sound {d : Dev} (h : d.Sound) : d.restEntry.Sound := by
  unfold Dev.restEntry
  split
  · exact h
  · have h1 := Dev.trkIdle_sound (Dev.twnPart_sound h 2) 2
    dsimp only
    generalize (d.twnPart 2).trkIdle 2 = a at h1
    have h2 := Dev.abandonFlash_sound (Dev.emit_sound (Dev.outputsStop_sound h1) (.linkL1 true))
    generalize (a.outputsStop.emit (.linkL1 true)).abandonFlash = b at h2
    apply Dev.startAonTimer_sound
    apply Dev.setPower_sound _ _ (by decide)
    apply Dev.Sound.foldl
    · apply Dev.setFld_sound
      apply Dev.setFld_sound
      exact {
        regs := Tab.wf_filter h2.regs _
        mem := h2.mem, staging := rfl, flash := h2.flash, hostMem := h2.hostMem, rings := rfl, coaches := rfl
        lines := rfl, sips := rfl, ctxs := rfl, tallies := rfl, log := h2.log, audit := h2.audit, power := h2.power
        sec := h2.sec }
    · exact fun d x hd => Dev.setFld_sound hd _ _ _

theorem Dev.abortLines_sound {d : Dev} (h : d.Sound) (which : Nat → Bool) : (Dev.abortLines d which).Sound := by
  unfold Dev.abortLines
  try dsimp only
  repeat' first
    | with_reducible assumption
    | with_reducible apply Dev.setRlc_sound
    | with_reducible apply Dev.ringComplete_sound
    | with_reducible apply Dev.Sound.ite
    | with_reducible apply Dev.Sound.foldl
    | (intro _; intros; try dsimp only)
    | (split; all_goals try dsimp only)

theorem Dev.abortBlits_sound {d : Dev} (h : d.Sound) (which : Nat → Bool) : (Dev.abortBlits d which).Sound := by
  unfold Dev.abortBlits
  try dsimp only
  repeat' first
    | with_reducible assumption
    | with_reducible apply Dev.blitAbort_sound
    | with_reducible apply Dev.setBlt_sound
    | with_reducible apply Dev.bltShow_sound
    | with_reducible apply Dev.blitEnd_sound
    | with_reducible apply Dev.Sound.ite
    | with_reducible apply Dev.Sound.foldl
    | (intro _; intros; try dsimp only)

theorem Dev.abortTrunkSets_sound {d : Dev} (h : d.Sound) (which : Nat → Bool) : (Dev.abortTrunkSets d which).Sound := by
  unfold Dev.abortTrunkSets
  try dsimp only
  repeat' first
    | with_reducible assumption
    | with_reducible apply Dev.dropTrunkSet_sound
    | with_reducible apply Dev.freshNat_sound
    | with_reducible apply Dev.setComplete_sound
    | with_reducible apply Dev.Sound.ite
    | with_reducible apply Dev.Sound.ite_snd
    | with_reducible apply Dev.Sound.foldl
    | with_reducible apply Dev.Sound.foldl_fst
    | simp only [Dev.Sound.keep]
    | simp only [Dev.Sound.keepSdp]
    | (intro _; intros; try dsimp only)
    | dsimp only
    | (split; all_goals try dsimp only)

theorem Dev.abortFlips_sound {d : Dev} (h : d.Sound) (which : Nat → Bool) : (Dev.abortFlips d which).Sound := by
  unfold Dev.abortFlips
  try dsimp only
  repeat' first
    | with_reducible assumption
    | with_reducible apply Dev.freshNat_sound
    | with_reducible apply Dev.completeSet_sound
    | with_reducible apply Dev.dequeue_sound
    | with_reducible apply Dev.endWait_sound
    | with_reducible apply Dev.Sound.foldl
    | (intro _; intros; try dsimp only)

theorem Dev.abortRings_sound {d : Dev} (h : d.Sound) (which : Nat → Bool) : (Dev.abortRings d which).Sound := by
  unfold Dev.abortRings
  try dsimp only
  repeat' first
    | with_reducible assumption
    | with_reducible apply Dev.abortSlow_sound
    | with_reducible apply Dev.abortLines_sound
    | with_reducible apply Dev.abortScans_sound
    | with_reducible apply Dev.abortBlits_sound
    | with_reducible apply Dev.abortTrunkSets_sound
    | with_reducible apply Dev.abortFlips_sound

theorem Dev.lodgerLeave_sound {d : Dev} (h : d.Sound) (cause : Nat) : (Dev.lodgerLeave d cause).Sound := by
  unfold Dev.lodgerLeave
  try dsimp only
  repeat' first
    | with_reducible assumption
    | with_reducible apply Dev.trkLeave_sound
    | with_reducible apply Dev.Sound.ite
    | (intro _; intros; try dsimp only)

theorem Dev.tokenRead_sound {d : Dev} (hk : d.Sound) : (Dev.tokenRead d).Sound := by
  unfold Dev.tokenRead
  try dsimp only
  repeat' first
    | with_reducible assumption
    | with_reducible apply Dev.plainReads_sound
    | with_reducible apply Dev.Sound.ite
    | with_reducible apply Dev.Sound.ite_snd
    | with_reducible apply Dev.Sound.foldl
    | simp only [Dev.Sound.keep]
    | simp only [Dev.Sound.keepSdp]
    | (intro _; intros; try dsimp only)
    | dsimp only
    | (split; all_goals try dsimp only)

theorem Dev.unlock_sound {d : Dev} (h : d.Sound) : (Dev.unlock d).Sound := by
  unfold Dev.unlock
  try dsimp only
  repeat' first
    | with_reducible assumption
    | with_reducible apply Dev.tokenRead_sound
    | with_reducible apply Dev.unlockRefused_sound
    | with_reducible apply Dev.twnPart_sound
    | with_reducible apply Dev.lodgerLeave_sound
    | with_reducible apply Dev.abandonAll_sound
    | with_reducible apply Dev.coachSettle_sound
    | with_reducible apply Dev.Sound.ite
    | with_reducible apply Dev.Sound.ite_snd
    | with_reducible apply Dev.Sound.foldl
    | simp only [Dev.Sound.keep]
    | simp only [Dev.Sound.keepSdp]
    | (intro _; intros; try dsimp only)
    | dsimp only
    | (split; all_goals try dsimp only)

theorem Dev.writeSdpCtrl_sound {d : Dev} (h : d.Sound) (v : Nat) : (Dev.writeSdpCtrl d v).Sound := by
  unfold Dev.writeSdpCtrl
  try dsimp only
  repeat' first
    | with_reducible assumption
    | with_reducible apply Dev.challenge_sound
    | with_reducible apply Dev.unlock_sound
    | with_reducible apply Dev.Sound.ite
    | (intro _; intros; try dsimp only)

theorem Dev.aonExpiry_sound {d : Dev} (h : d.Sound) : (Dev.aonExpiry d).Sound := by
  unfold Dev.aonExpiry
  try dsimp only
  repeat' first
    | with_reducible assumption
    | with_reducible apply Dev.setLatch_sound
    | with_reducible apply Dev.Sound.ite
    | simp only [Dev.Sound.keepSdp]
    | (intro _; intros; try dsimp only)

theorem Dev.belEcc_sound {d : Dev} (h : d.Sound) (x1 : BelEcc) : (Dev.belEcc d x1).Sound := by
  unfold Dev.belEcc
  try dsimp only
  repeat' first
    | with_reducible assumption
    | with_reducible apply Dev.secdedCorrected_sound
    | with_reducible apply Dev.unpend_sound
    | with_reducible apply Dev.pendBy_sound
    | with_reducible apply Dev.arm_sound
    | with_reducible apply Dev.secdedBad_sound
    | with_reducible apply Dev.setReg_sound
    | with_reducible apply Dev.Sound.ite
    | with_reducible apply Dev.Sound.ite_snd
    | with_reducible apply Dev.Sound.foldl
    | simp only [Dev.Sound.keep]
    | simp only [Dev.Sound.keepSdp]
    | (intro _; intros; try dsimp only)
    | dsimp only
    | (split; all_goals try dsimp only)

theorem Dev.bellRuns_sound {d : Dev} (hk : d.Sound) : (Dev.bellRuns d).Sound := by
  unfold Dev.bellRuns
  try dsimp only
  repeat' first
    | with_reducible assumption
    | with_reducible apply Dev.raise_sound
    | with_reducible apply Dev.raiseIf_sound
    | with_reducible apply Dev.Sound.ite
    | with_reducible apply Dev.Sound.ite_snd
    | with_reducible apply Dev.Sound.foldl
    | simp only [Dev.Sound.keep]
    | simp only [Dev.Sound.keepSdp]
    | (intro _; intros; try dsimp only)
    | dsimp only
    | (split; all_goals try dsimp only)

theorem Dev.waybillLoaded_sound {d : Dev} (h : d.Sound) (w : Waybill) : (Dev.waybillLoaded d w).Sound := by
  unfold Dev.waybillLoaded
  try dsimp only
  repeat' first
    | with_reducible assumption
    | with_reducible apply Dev.applyWaybill_sound
    | with_reducible apply Dev.setReg_sound
    | with_reducible apply Dev.setFld_sound
    | with_reducible apply Dev.setStandby_sound
    | with_reducible apply Dev.restDone_sound
    | with_reducible apply Dev.bellRuns_sound
    | with_reducible apply Dev.twnSettle_sound
    | with_reducible apply Dev.trkBegin_sound
    | with_reducible apply Dev.updateAdm_sound
    | with_reducible apply Dev.lineUp_sound
    | with_reducible apply Dev.quadUp_sound
    | with_reducible apply Dev.Sound.ite
    | with_reducible apply Dev.Sound.ite_snd
    | with_reducible apply Dev.Sound.foldl
    | simp only [Dev.Sound.keep]
    | simp only [Dev.Sound.keepSdp]
    | (intro _; intros; try dsimp only)
    | dsimp only
    | (split; all_goals try dsimp only)

theorem Dev.startFlush_sound {d : Dev} (h : d.Sound) (k : ResetKind) : (Dev.startFlush d k).Sound := by
  unfold Dev.startFlush
  try dsimp only
  repeat' first
    | with_reducible assumption
    | with_reducible apply Dev.abandonFlash_sound
    | with_reducible apply Dev.abortRings_sound
    | with_reducible apply Dev.flushSets_sound
    | with_reducible apply Dev.flushWaits_sound
    | with_reducible apply Dev.twnPart_sound
    | with_reducible apply Dev.lodgerLeave_sound
    | with_reducible apply Dev.coachSettle_sound
    | with_reducible apply Dev.twnSettle_sound
    | with_reducible apply Dev.abandonAll_sound
    | with_reducible apply Dev.Sound.ite
    | with_reducible apply Dev.Sound.ite_snd
    | with_reducible apply Dev.Sound.foldl
    | simp only [Dev.Sound.keep]
    | simp only [Dev.Sound.keepSdp]
    | (intro _; intros; try dsimp only)
    | dsimp only
    | (split; all_goals try dsimp only)

theorem Dev.restLoadFailed_sound {d : Dev} (h : d.Sound) : (Dev.restLoadFailed d).Sound := by
  unfold Dev.restLoadFailed
  try dsimp only
  repeat' first
    | with_reducible assumption
    | with_reducible apply Dev.restDone_sound
    | with_reducible apply Dev.Sound.ite
    | with_reducible apply Dev.Sound.ite_snd
    | with_reducible apply Dev.Sound.foldl
    | simp only [Dev.Sound.keep]
    | simp only [Dev.Sound.keepSdp]
    | (intro _; intros; try dsimp only)
    | dsimp only
    | (split; all_goals try dsimp only)

theorem Dev.requestDown_sound {d : Dev} (h : d.Sound) (rest : Bool) : (Dev.requestDown d rest).Sound := by
  unfold Dev.requestDown
  try dsimp only
  repeat' first
    | with_reducible assumption
    | with_reducible apply Dev.refuse_sound
    | simp only [Dev.Sound.keepSdp]
    | (split; all_goals try dsimp only)

theorem Dev.writePower_sound {d : Dev} (h : d.Sound) (v : Nat) : (Dev.writePower d v).Sound := by
  unfold Dev.writePower
  try dsimp only
  repeat' first
    | with_reducible assumption
    | with_reducible apply Dev.refuse_sound
    | with_reducible apply Dev.setFld_sound
    | with_reducible apply Dev.lullExit_sound
    | with_reducible apply Dev.requestDown_sound
    | with_reducible apply Dev.Sound.ite
    | simp only [Dev.Sound.keepSdp]
    | (intro _; intros; try dsimp only)
    | (split; all_goals try dsimp only)

theorem Dev.startReset_sound {d : Dev} (h : d.Sound) (k : ResetKind) : (Dev.startReset d k).Sound := by
  unfold Dev.startReset
  try dsimp only
  repeat' first
    | with_reducible assumption
    | with_reducible apply Dev.startFlush_sound
    | with_reducible apply Dev.fullReset_sound
    | with_reducible apply Dev.Sound.ite
    | (intro _; intros; try dsimp only)

theorem Dev.resetKeyConfirm_sound {d : Dev} (h : d.Sound) (key : Nat) : (Dev.resetKeyConfirm d key).Sound := by
  unfold Dev.resetKeyConfirm
  try dsimp only
  repeat' first
    | with_reducible assumption
    | with_reducible apply Dev.resetKeyBroken_sound
    | with_reducible apply Dev.setReg_sound
    | with_reducible apply Dev.refuse_sound
    | with_reducible apply Dev.startReset_sound
    | with_reducible apply Dev.Sound.ite
    | (intro _; intros; try dsimp only)

theorem Dev.imageDone_sound {d : Dev} (h : d.Sound) (readError : Bool) : (Dev.imageDone d readError).Sound := by
  unfold Dev.imageDone
  try dsimp only
  repeat' first
    | with_reducible assumption
    | with_reducible apply Dev.imageCopied_sound
    | with_reducible apply Dev.waybillLoaded_sound
    | with_reducible apply Dev.restLoadFailed_sound
    | (split; all_goals try dsimp only)

theorem Dev.sensorSample_sound {d : Dev} (h : d.Sound) (die : List Nat) (hbm : List Nat) : (Dev.sensorSample d die hbm).Sound := by
  unfold Dev.sensorSample
  try dsimp only
  repeat' first
    | with_reducible assumption
    | with_reducible apply Dev.sample_sound
    | with_reducible apply Dev.twnPart_sound
    | with_reducible apply Dev.Sound.ite
    | with_reducible apply Dev.Sound.ite_snd
    | with_reducible apply Dev.Sound.foldl
    | simp only [Dev.Sound.keep]
    | simp only [Dev.Sound.keepSdp]
    | (intro _; intros; try dsimp only)
    | dsimp only
    | (split; all_goals try dsimp only)

theorem Dev.bridgeFails16_sound {d : Dev} (hk : d.Sound) (transfer : Nat) : (Dev.bridgeFails16 d transfer).Sound := by
  unfold Dev.bridgeFails16
  try dsimp only
  repeat' first
    | with_reducible assumption
    | with_reducible apply Dev.bridgeDown_sound
    | with_reducible apply Dev.abandonAll_sound
    | with_reducible apply Dev.coachSettle_sound
    | with_reducible apply Dev.twnSettle_sound
    | with_reducible apply Dev.Sound.ite
    | with_reducible apply Dev.Sound.ite_snd
    | with_reducible apply Dev.Sound.foldl
    | simp only [Dev.Sound.keep]
    | simp only [Dev.Sound.keepSdp]
    | (intro _; intros; try dsimp only)
    | dsimp only
    | (split; all_goals try dsimp only)

theorem Dev.functionLevelReset_sound {d : Dev} (h : d.Sound) (hot : Bool) : (Dev.functionLevelReset d hot).Sound := by
  unfold Dev.functionLevelReset
  try dsimp only
  repeat' first
    | with_reducible assumption
    | with_reducible apply Dev.newEpoch_sound
    | with_reducible apply Dev.ckgEvent_sound
    | with_reducible apply Dev.raise_sound
    | with_reducible apply Dev.startReset_sound
    | with_reducible apply Dev.Sound.ite
    | with_reducible apply Dev.Sound.ite_snd
    | with_reducible apply Dev.Sound.foldl
    | simp only [Dev.Sound.keep]
    | simp only [Dev.Sound.keepSdp]
    | (intro _; intros; try dsimp only)
    | dsimp only
    | (split; all_goals try dsimp only)

theorem Dev.belDoorbell_sound {d : Dev} (h : d.Sound) (v : Nat) : (Dev.belDoorbell d v).Sound := by
  unfold Dev.belDoorbell
  try dsimp only
  repeat' first
    | with_reducible assumption
    | with_reducible apply Dev.refuse_sound
    | with_reducible apply Dev.raise_sound
    | with_reducible apply Dev.twnMirror_sound
    | with_reducible apply Dev.Sound.ite
    | (intro _; intros; try dsimp only)

theorem Dev.ringFault_sound {d : Dev} (h : d.Sound) (r : Nat) : (Dev.ringFault d r).Sound := by
  unfold Dev.ringFault
  try dsimp only
  repeat' first
    | with_reducible assumption
    | with_reducible apply Dev.setFld_sound
    | with_reducible apply Dev.ringStops_sound
    | with_reducible apply Dev.ringEvent_sound
    | with_reducible apply Dev.count_sound
    | with_reducible apply Dev.secdedBad_sound
    | with_reducible apply Dev.abortRings_sound
    | with_reducible apply Dev.Sound.ite
    | with_reducible apply Dev.Sound.ite_snd
    | with_reducible apply Dev.Sound.foldl
    | simp only [Dev.Sound.keep]
    | simp only [Dev.Sound.keepSdp]
    | (intro _; intros; try dsimp only)
    | dsimp only
    | (split; all_goals try dsimp only)

theorem Dev.shadowsWritten_sound {d : Dev} (hk : d.Sound) (offs : List Nat) : (Dev.shadowsWritten d offs).Sound := by
  unfold Dev.shadowsWritten
  try dsimp only
  repeat' first
    | with_reducible assumption
    | with_reducible apply Dev.Sound.ite
    | with_reducible apply Dev.Sound.ite_snd
    | with_reducible apply Dev.Sound.foldl
    | simp only [Dev.Sound.keep]
    | simp only [Dev.Sound.keepSdp]
    | (intro _; intros; try dsimp only)
    | dsimp only
    | (split; all_goals try dsimp only)

theorem Dev.shadowWrite_sound {d : Dev} (hk : d.Sound) (off v : Nat) : (Dev.shadowWrite d off v).Sound := by
  unfold Dev.shadowWrite
  try dsimp only
  repeat' first
    | with_reducible assumption
    | with_reducible apply Dev.shadowsWritten_sound
    | with_reducible apply Dev.genericWrite_sound
    | with_reducible apply Dev.Sound.ite
    | with_reducible apply Dev.Sound.ite_snd
    | with_reducible apply Dev.Sound.foldl
    | simp only [Dev.Sound.keep]
    | simp only [Dev.Sound.keepSdp]
    | (intro _; intros; try dsimp only)
    | dsimp only
    | (split; all_goals try dsimp only)

/-! ### RegWrite -/

theorem Dev.writeRoute_sound {d : Dev} (h : d.Sound) (p : Nat) (key : Nat) (v : Nat) : (Dev.writeRoute d p key v).Sound := by
  unfold Dev.writeRoute
  try dsimp only
  repeat' first
    | with_reducible assumption
    | with_reducible apply Dev.refuse_sound
    | with_reducible apply Dev.shadowWrite_sound
    | with_reducible apply Dev.Sound.ite
    | with_reducible apply Dev.Sound.ite_snd
    | with_reducible apply Dev.Sound.foldl
    | simp only [Dev.Sound.keep]
    | simp only [Dev.Sound.keepSdp]
    | (intro _; intros; try dsimp only)
    | dsimp only
    | (split; all_goals try dsimp only)

theorem Dev.plainWrite_sound {d : Dev} (h : d.Sound) (page : Nat) (key : Nat) (v : Nat) : (Dev.plainWrite d page key v).Sound := by
  unfold Dev.plainWrite
  try dsimp only
  repeat' first
    | with_reducible assumption
    | with_reducible apply Dev.genericWrite_sound
    | with_reducible apply Dev.clearBeside_sound
    | with_reducible apply Dev.Sound.ite
    | (intro _; intros; try dsimp only)

theorem Dev.writeCpt_sound {d : Dev} (h : d.Sound) (p : Nat) (key : Nat) (v : Nat) : (Dev.writeCpt d p key v).Sound := by
  unfold Dev.writeCpt
  try dsimp only
  repeat' first
    | with_reducible assumption
    | with_reducible apply Dev.writeCoachCtrl_sound
    | with_reducible apply Dev.writeChainId_sound
    | with_reducible apply Dev.writeCommit_sound
    | with_reducible apply Dev.writeRoute_sound
    | with_reducible apply Dev.plainWrite_sound
    | with_reducible apply Dev.Sound.ite
    | (intro _; intros; try dsimp only)

theorem Dev.writeSip_sound {d : Dev} (h : d.Sound) (p : Nat) (key : Nat) (v : Nat) : (Dev.writeSip d p key v).Sound := by
  unfold Dev.writeSip
  try dsimp only
  repeat' first
    | with_reducible assumption
    | with_reducible apply Dev.writeCtxCtrl_sound
    | with_reducible apply Dev.writeCtxFixed_sound
    | with_reducible apply Dev.genericWrite_sound
    | with_reducible apply Dev.writeSipCtrl_sound
    | with_reducible apply Dev.writeSipRing_sound
    | with_reducible apply Dev.plainWrite_sound
    | with_reducible apply Dev.Sound.ite
    | (intro _; intros; try dsimp only)

theorem Dev.writePort_sound {d : Dev} (h : d.Sound) (p : Nat) (key : Nat) (v : Nat) : (Dev.writePort d p key v).Sound := by
  unfold Dev.writePort
  try dsimp only
  repeat' first
    | with_reducible assumption
    | with_reducible apply Dev.writeCpt_sound
    | with_reducible apply Dev.writeSip_sound
    | with_reducible apply Dev.writeTwnPort_sound
    | with_reducible apply Dev.plainWrite_sound
    | with_reducible apply Dev.writeTrkPort_sound
    | with_reducible apply Dev.Sound.ite
    | (intro _; intros; try dsimp only)
    | (split; all_goals try dsimp only)

theorem Dev.writeBel_sound {d : Dev} (h : d.Sound) (off : Nat) (v : Nat) : (Dev.writeBel d off v).Sound := by
  unfold Dev.writeBel
  try dsimp only
  repeat' first
    | with_reducible assumption
    | with_reducible apply Dev.complete_sound
    | with_reducible apply Dev.pendAck_sound
    | with_reducible apply Dev.setReg_sound
    | with_reducible apply Dev.ack_sound
    | with_reducible apply Dev.genericWrite_sound
    | with_reducible apply Dev.belDoorbell_sound
    | with_reducible apply Dev.clearBeside_sound
    | with_reducible apply Dev.plainWrite_sound
    | with_reducible apply Dev.Sound.ite
    | (intro _; intros; try dsimp only)
    | (split; all_goals try dsimp only)

theorem Dev.writeGlb_sound {d : Dev} (h : d.Sound) (off : Nat) (v : Nat) : (Dev.writeGlb d off v).Sound := by
  unfold Dev.writeGlb
  try dsimp only
  repeat' first
    | with_reducible assumption
    | with_reducible apply Dev.writeAperture_sound
    | with_reducible apply Dev.resetKeyConfirm_sound
    | with_reducible apply Dev.clearBeside_sound
    | with_reducible apply Dev.genericWrite_sound
    | with_reducible apply Dev.setReg_sound
    | with_reducible apply Dev.unmask_sound
    | with_reducible apply Dev.plainWrite_sound
    | with_reducible apply Dev.Sound.ite
    | (intro _; intros; try dsimp only)
    | (split; all_goals try dsimp only)

theorem Dev.writeSdp_sound {d : Dev} (h : d.Sound) (off : Nat) (v : Nat) : (Dev.writeSdp d off v).Sound := by
  unfold Dev.writeSdp
  try dsimp only
  repeat' first
    | with_reducible assumption
    | with_reducible apply Dev.writePower_sound
    | with_reducible apply Dev.writeSdpCtrl_sound
    | with_reducible apply Dev.writeFuseProg_sound
    | with_reducible apply Dev.writeStageKey_sound
    | with_reducible apply Dev.plainWrite_sound
    | with_reducible apply Dev.Sound.ite
    | (intro _; intros; try dsimp only)
    | (split; all_goals try dsimp only)

theorem Dev.writeCkg_sound {d : Dev} (h : d.Sound) (off : Nat) (v : Nat) : (Dev.writeCkg d off v).Sound := by
  unfold Dev.writeCkg
  try dsimp only
  repeat' first
    | with_reducible assumption
    | with_reducible apply Dev.writePllLock_sound
    | with_reducible apply Dev.writePllSeed_sound
    | with_reducible apply Dev.writeQpllCtrl_sound
    | with_reducible apply Dev.genericWrite_sound
    | with_reducible apply Dev.writeClockOut_sound
    | with_reducible apply Dev.plainWrite_sound
    | with_reducible apply Dev.Sound.ite
    | (intro _; intros; try dsimp only)
    | (split; all_goals try dsimp only)

theorem Dev.writeStkLock_sound {d : Dev} (h : d.Sound) (v : Nat) : (Dev.writeStkLock d v).Sound := by
  unfold Dev.writeStkLock
  try dsimp only
  repeat' first
    | with_reducible assumption
    | with_reducible apply Dev.refuse_sound
    | with_reducible apply Dev.genericWrite_sound
    | with_reducible apply Dev.Sound.ite
    | (intro _; intros; try dsimp only)

theorem Dev.writeTiming_sound {d : Dev} (h : d.Sound) (off : Nat) (v : Nat) : (Dev.writeTiming d off v).Sound := by
  unfold Dev.writeTiming
  try dsimp only
  repeat' first
    | with_reducible assumption
    | with_reducible apply Dev.refuse_sound
    | with_reducible apply Dev.genericWrite_sound
    | with_reducible apply Dev.Sound.ite
    | (intro _; intros; try dsimp only)

theorem Dev.writeStk_sound {d : Dev} (h : d.Sound) (off : Nat) (v : Nat) : (Dev.writeStk d off v).Sound := by
  unfold Dev.writeStk
  try dsimp only
  repeat' first
    | with_reducible assumption
    | with_reducible apply Dev.hostReframe_sound
    | with_reducible apply Dev.todStep_sound
    | with_reducible apply Dev.writeStkSrc_sound
    | with_reducible apply Dev.writeStkLock_sound
    | with_reducible apply Dev.writeTiming_sound
    | with_reducible apply Dev.plainWrite_sound
    | with_reducible apply Dev.Sound.ite
    | (intro _; intros; try dsimp only)

theorem Dev.writeFlp_sound {d : Dev} (h : d.Sound) (off : Nat) (v : Nat) : (Dev.writeFlp d off v).Sound := by
  unfold Dev.writeFlp
  try dsimp only
  repeat' first
    | with_reducible assumption
    | with_reducible apply Dev.hostFence_sound
    | with_reducible apply Dev.plainWrite_sound
    | (split; all_goals try dsimp only)

theorem Dev.writeTly_sound {d : Dev} (h : d.Sound) (off : Nat) (v : Nat) : (Dev.writeTly d off v).Sound := by
  unfold Dev.writeTly
  try dsimp only
  repeat' first
    | with_reducible assumption
    | with_reducible apply Dev.writeTlyCfg_sound
    | with_reducible apply Dev.writeTlyParam_sound
    | with_reducible apply Dev.plainWrite_sound
    | with_reducible apply Dev.Sound.ite
    | (intro _; intros; try dsimp only)

theorem Dev.writeStl_sound {d : Dev} (h : d.Sound) (off : Nat) (v : Nat) : (Dev.writeStl d off v).Sound := by
  unfold Dev.writeStl
  try dsimp only
  repeat' first
    | with_reducible assumption
    | with_reducible apply Dev.writePlateCtrl_sound
    | with_reducible apply Dev.writePlateGeom_sound
    | with_reducible apply Dev.plateCommit_sound
    | with_reducible apply Dev.genericWrite_sound
    | with_reducible apply Dev.plainWrite_sound
    | with_reducible apply Dev.Sound.ite
    | (intro _; intros; try dsimp only)
    | (split; all_goals try dsimp only)

theorem Dev.writeDep_sound {d : Dev} (h : d.Sound) (off : Nat) (v : Nat) : (Dev.writeDep d off v).Sound := by
  unfold Dev.writeDep
  try dsimp only
  repeat' first
    | with_reducible assumption
    | with_reducible apply Dev.writeDepCtrl_sound
    | with_reducible apply Dev.writeLambda_sound
    | with_reducible apply Dev.writeLogRing_sound
    | with_reducible apply Dev.writeLogIndex_sound
    | with_reducible apply Dev.plainWrite_sound
    | with_reducible apply Dev.Sound.ite
    | with_reducible apply Dev.Sound.ite_snd
    | with_reducible apply Dev.Sound.foldl
    | simp only [Dev.Sound.keep]
    | simp only [Dev.Sound.keepSdp]
    | (intro _; intros; try dsimp only)
    | dsimp only
    | (split; all_goals try dsimp only)

theorem Dev.writeTwn_sound {d : Dev} (h : d.Sound) (off : Nat) (v : Nat) : (Dev.writeTwn d off v).Sound := by
  unfold Dev.writeTwn
  try dsimp only
  repeat' first
    | with_reducible assumption
    | with_reducible apply Dev.writeTwnCtrl_sound
    | with_reducible apply Dev.writeTwnLoss_sound
    | with_reducible apply Dev.plainWrite_sound
    | with_reducible apply Dev.Sound.ite
    | (intro _; intros; try dsimp only)

theorem Dev.writeTrk_sound {d : Dev} (h : d.Sound) (off : Nat) (v : Nat) : (Dev.writeTrk d off v).Sound := by
  unfold Dev.writeTrk
  try dsimp only
  repeat' first
    | with_reducible assumption
    | with_reducible apply Dev.writeTrkCtrl_sound
    | with_reducible apply Dev.writeTrkTimes_sound
    | with_reducible apply Dev.writeTrkLoss_sound
    | with_reducible apply Dev.writeTrkRing_sound
    | with_reducible apply Dev.writeTrkDb_sound
    | with_reducible apply Dev.plainWrite_sound
    | with_reducible apply Dev.Sound.ite
    | (intro _; intros; try dsimp only)

theorem Dev.writeCal_sound {d : Dev} (h : d.Sound) (off : Nat) (v : Nat) : (Dev.writeCal d off v).Sound := by
  unfold Dev.writeCal
  try dsimp only
  repeat' first
    | with_reducible assumption
    | with_reducible apply Dev.flashGo_sound
    | with_reducible apply Dev.genericWrite_sound
    | with_reducible apply Dev.writeTrimKey_sound
    | with_reducible apply Dev.plainWrite_sound
    | with_reducible apply Dev.Sound.ite
    | (intro _; intros; try dsimp only)

theorem Dev.writeRing_sound {d : Dev} (h : d.Sound) (r : Nat) (off : Nat) (v : Nat) : (Dev.writeRing d r off v).Sound := by
  unfold Dev.writeRing
  try dsimp only
  repeat' first
    | with_reducible assumption
    | with_reducible apply Dev.writeRingCtrl_sound
    | with_reducible apply Dev.writeRingBase_sound
    | with_reducible apply Dev.writeProd_sound
    | with_reducible apply Dev.writeCons_sound
    | with_reducible apply Dev.genericWrite_sound
    | (split; all_goals try dsimp only)

theorem Dev.writeLine_sound {d : Dev} (h : d.Sound) (c : Nat) (off : Nat) (v : Nat) : (Dev.writeLine d c off v).Sound := by
  unfold Dev.writeLine
  try dsimp only
  repeat' first
    | with_reducible assumption
    | with_reducible apply Dev.writeRlcCtrl_sound
    | with_reducible apply Dev.writeRlcSched_sound
    | with_reducible apply Dev.writeRlcRing_sound
    | with_reducible apply Dev.plainWrite_sound
    | with_reducible apply Dev.genericWrite_sound
    | with_reducible apply Dev.Sound.ite
    | (intro _; intros; try dsimp only)

theorem Dev.directWrite_sound {d : Dev} (h : d.Sound) (off : Nat) (key : Nat) (v : Nat) : (Dev.directWrite d off key v).Sound := by
  unfold Dev.directWrite
  try dsimp only
  repeat' first
    | with_reducible assumption
    | with_reducible apply Dev.writeGlb_sound
    | with_reducible apply Dev.hostLoad_sound
    | with_reducible apply Dev.plainWrite_sound
    | with_reducible apply Dev.writeSdp_sound
    | with_reducible apply Dev.writeCkg_sound
    | with_reducible apply Dev.writeStk_sound
    | with_reducible apply Dev.writeFlp_sound
    | with_reducible apply Dev.writeBel_sound
    | with_reducible apply Dev.writeBltCtrl_sound
    | with_reducible apply Dev.writeTly_sound
    | with_reducible apply Dev.shadowWrite_sound
    | with_reducible apply Dev.writeStl_sound
    | with_reducible apply Dev.writeMemPd_sound
    | with_reducible apply Dev.writeDep_sound
    | with_reducible apply Dev.writeTwn_sound
    | with_reducible apply Dev.writeTrk_sound
    | with_reducible apply Dev.writeCal_sound
    | with_reducible apply Dev.writeDbg_sound
    | with_reducible apply Dev.placeJobs_sound
    | with_reducible apply Dev.writeRing_sound
    | with_reducible apply Dev.writePort_sound
    | with_reducible apply Dev.writeLine_sound
    | with_reducible apply Dev.Sound.ite
    | with_reducible apply Dev.Sound.ite_snd
    | with_reducible apply Dev.Sound.foldl
    | simp only [Dev.Sound.keep]
    | simp only [Dev.Sound.keepSdp]
    | (intro _; intros; try dsimp only)
    | dsimp only
    | (split; all_goals try dsimp only)

theorem Dev.mirroredWrite_sound {d : Dev} (h : d.Sound) (off : Nat) (v : Nat) : (Dev.mirroredWrite d off v).Sound := by
  unfold Dev.mirroredWrite
  try dsimp only
  repeat' first
    | with_reducible assumption
    | with_reducible apply Dev.mirroredHold_sound
    | with_reducible apply Dev.directWrite_sound
    | with_reducible apply Dev.Sound.ite
    | (intro _; intros; try dsimp only)
    | (split; all_goals try dsimp only)

theorem Dev.hostWrite_sound {d : Dev} (h : d.Sound) (off : Nat) (key : Nat) (v : Nat) : (Dev.hostWrite d off key v).Sound := by
  unfold Dev.hostWrite
  try dsimp only
  repeat' first
    | with_reducible assumption
    | with_reducible apply Dev.hostCoachCtrl_sound
    | with_reducible apply Dev.mirrored_sound
    | with_reducible apply Dev.directWrite_sound
    | with_reducible apply Dev.Sound.ite
    | (intro _; intros; try dsimp only)
    | (split; all_goals try dsimp only)

theorem Dev.writeBar0_sound {d : Dev} (h : d.Sound) (off : Nat) (v : Nat) : (Dev.writeBar0 d off v).Sound := by
  unfold Dev.writeBar0
  try dsimp only
  repeat' first
    | with_reducible assumption
    | with_reducible apply Dev.onWrite_sound
    | with_reducible apply Dev.hostWrite_sound
    | with_reducible apply Dev.Sound.ite
    | with_reducible apply Dev.Sound.ite_snd
    | with_reducible apply Dev.Sound.foldl
    | simp only [Dev.Sound.keep]
    | simp only [Dev.Sound.keepSdp]
    | (intro _; intros; try dsimp only)
    | dsimp only
    | (split; all_goals try dsimp only)

/-! ### RegRead -/

theorem Dev.readBar0_sound {d : Dev} (h : d.Sound) (off : Nat) : (Dev.readBar0 d off).2.Sound := by
  unfold Dev.readBar0
  try dsimp only
  repeat' first
    | with_reducible assumption
    | with_reducible apply Dev.farError_sound
    | (split; all_goals try dsimp only)

theorem Dev.dbgAccess_sound {d : Dev} (h : d.Sound) (disp : Nat) (write : Option Nat) : (Dev.dbgAccess d disp write).Sound := by
  unfold Dev.dbgAccess
  try dsimp only
  repeat' first
    | with_reducible assumption
    | with_reducible apply Dev.writeBar0_sound
    | with_reducible apply Dev.readBar0_sound
    | with_reducible apply Dev.emit_sound
    | simp only [Dev.Sound.keepSdp]
    | (split; all_goals try dsimp only)

/-! ### TwinRx -/

theorem Dev.twnStripLost_sound {d : Dev} (h : d.Sound) : (Dev.twnStripLost d).Sound := by
  unfold Dev.twnStripLost
  try dsimp only
  repeat' first
    | with_reducible assumption
    | with_reducible apply Dev.enterAlone_sound
    | with_reducible apply Dev.twnPart_sound
    | with_reducible apply Dev.Sound.ite
    | (intro _; intros; try dsimp only)

theorem Dev.twnAuthed_sound {d : Dev} (h : d.Sound) (payload : List Byte) : (Dev.twnAuthed d payload).Sound := by
  unfold Dev.twnAuthed
  try dsimp only
  repeat' first
    | with_reducible assumption
    | with_reducible apply Dev.twnSend_sound
    | with_reducible apply Dev.Sound.ite
    | simp only [Dev.Sound.keepSdp]
    | (intro _; intros; try dsimp only)

theorem Dev.takePcv_sound {d : Dev} (h : d.Sound) (rec_ : List Byte) : (Dev.takePcv d rec_).Sound := by
  unfold Dev.takePcv
  try dsimp only
  repeat' first
    | with_reducible assumption
    | with_reducible apply Dev.reservedWake_sound
    | with_reducible apply Dev.mapParcel_sound
    | with_reducible apply Dev.twnCompare_sound
    | with_reducible apply Dev.Sound.ite
    | with_reducible apply Dev.Sound.ite_snd
    | with_reducible apply Dev.Sound.foldl
    | simp only [Dev.Sound.keep]
    | simp only [Dev.Sound.keepSdp]
    | (intro _; intros; try dsimp only)
    | dsimp only
    | (split; all_goals try dsimp only)

theorem Dev.takeResolve_sound {d : Dev} (hk : d.Sound) (sealOk : Bool) (rec_ : List Byte) : (Dev.takeResolve d sealOk rec_).Sound := by
  unfold Dev.takeResolve
  try dsimp only
  repeat' first
    | with_reducible assumption
    | with_reducible apply Dev.mapParcel_sound
    | with_reducible apply Dev.twnResolve_sound
    | with_reducible apply Dev.Sound.ite
    | with_reducible apply Dev.Sound.ite_snd
    | with_reducible apply Dev.Sound.foldl
    | simp only [Dev.Sound.keep]
    | simp only [Dev.Sound.keepSdp]
    | (intro _; intros; try dsimp only)
    | dsimp only
    | (split; all_goals try dsimp only)

theorem Dev.repairRead_sound {d : Dev} (h : d.Sound) (block : Nat) (again bad : Bool) : (Dev.repairRead d block again bad).Sound :=
  Dev.failBlocks_sound (Dev.memWake_sound h _) true _

theorem Dev.repairAsked_sound {d : Dev} (hk : d.Sound) (payload : List Byte) (again bad : Bool) :
    (Dev.repairAsked d payload again bad).Sound := by
  unfold Dev.repairAsked
  try dsimp only
  repeat' first
    | with_reducible assumption
    | with_reducible apply Dev.repairRead_sound
    | with_reducible apply Dev.twnSend_sound
    | with_reducible apply Dev.count_sound
    | with_reducible apply Dev.Sound.ite
    | with_reducible apply Dev.Sound.ite_snd
    | with_reducible apply Dev.Sound.foldl
    | simp only [Dev.Sound.keep]
    | simp only [Dev.Sound.keepSdp]
    | (intro _; intros; try dsimp only)
    | dsimp only
    | (split; all_goals try dsimp only)

theorem Dev.repairCame_sound {d : Dev} (hk : d.Sound) (payload : List Byte) (staging : Ecc) : (Dev.repairCame d payload staging).Sound := by
  unfold Dev.repairCame
  try dsimp only
  repeat' first
    | with_reducible assumption
    | with_reducible apply Dev.reserved_sound
    | with_reducible apply Dev.repairFailed_sound
    | with_reducible apply Dev.repairDone_sound
    | with_reducible apply Dev.Sound.ite
    | with_reducible apply Dev.Sound.ite_snd
    | with_reducible apply Dev.Sound.foldl
    | simp only [Dev.Sound.keep]
    | simp only [Dev.Sound.keepSdp]
    | (intro _; intros; try dsimp only)
    | dsimp only
    | (split; all_goals try dsimp only)

theorem Dev.enqueueMirrored_sound {d : Dev} (hk : d.Sound) (x : QSet × SetPlan) : (Dev.enqueueMirrored d x).Sound := by
  unfold Dev.enqueueMirrored
  try dsimp only
  repeat' first
    | with_reducible assumption
    | with_reducible apply Dev.enqueue_sound
    | with_reducible apply Dev.Sound.ite
    | with_reducible apply Dev.Sound.ite_snd
    | with_reducible apply Dev.Sound.foldl
    | simp only [Dev.Sound.keep]
    | simp only [Dev.Sound.keepSdp]
    | (intro _; intros; try dsimp only)
    | dsimp only
    | (split; all_goals try dsimp only)

theorem Dev.mirrorSet_sound {d : Dev} (h : d.Sound) (ring : Nat) (index : Nat) (entries : List (List Nat)) (verdict : Nat) (target : Nat) : (Dev.mirrorSet d ring index entries verdict target).Sound := by
  unfold Dev.mirrorSet
  try dsimp only
  repeat' first
    | with_reducible assumption
    | with_reducible apply Dev.lullExit_sound
    | with_reducible apply Dev.mirrored_sound
    | with_reducible apply Dev.count_sound
    | with_reducible apply Dev.twnEvent_sound
    | with_reducible apply Dev.raise_sound
    | with_reducible apply Dev.enqueue_sound
    | with_reducible apply Dev.flpEdge_sound
    | with_reducible apply Dev.enqueueMirrored_sound
    | with_reducible apply Dev.countVerdict_sound
    | with_reducible apply Dev.freshNat_sound
    | with_reducible apply Dev.mirrorCopy_sound
    | with_reducible apply Dev.Sound.ite
    | with_reducible apply Dev.Sound.ite_snd
    | with_reducible apply Dev.Sound.foldl
    | simp only [Dev.Sound.keep]
    | simp only [Dev.Sound.keepSdp]
    | (intro _; intros; try dsimp only)
    | dsimp only
    | (split; all_goals try dsimp only)

theorem Dev.mirrorWait_sound {d : Dev} (h : d.Sound) (ring : Nat) (index : Nat) (e : List Nat) : (Dev.mirrorWait d ring index e).Sound := by
  unfold Dev.mirrorWait
  try dsimp only
  repeat' first
    | with_reducible assumption
    | with_reducible apply Dev.mirrorCopy_sound
    | with_reducible apply Dev.Sound.ite
    | with_reducible apply Dev.Sound.ite_snd
    | with_reducible apply Dev.Sound.foldl
    | simp only [Dev.Sound.keep]
    | simp only [Dev.Sound.keepSdp]
    | (intro _; intros; try dsimp only)
    | dsimp only
    | (split; all_goals try dsimp only)

theorem Dev.twnPlaced_sound {d : Dev} (hk : d.Sound) (t : Rat) : (Dev.twnPlaced d t).2.Sound := by
  unfold Dev.twnPlaced
  try dsimp only
  repeat' first
    | with_reducible assumption
    | with_reducible apply Dev.placed_sound
    | with_reducible apply Dev.Sound.ite
    | with_reducible apply Dev.Sound.ite_snd
    | with_reducible apply Dev.Sound.foldl
    | simp only [Dev.Sound.keep]
    | simp only [Dev.Sound.keepSdp]
    | (intro _; intros; try dsimp only)
    | dsimp only
    | (split; all_goals try dsimp only)

theorem Dev.mirrorItem_sound {d : Dev} (h : d.Sound) (x : MirrorItem) : (Dev.mirrorItem d x).Sound := by
  unfold Dev.mirrorItem
  try dsimp only
  repeat' first
    | with_reducible assumption
    | with_reducible apply Dev.raise_sound
    | with_reducible apply Dev.takeUp_sound
    | with_reducible apply Dev.mirroredWrite_sound
    | with_reducible apply Dev.twnPlaced_sound
    | with_reducible apply Dev.reframeAccept_sound
    | with_reducible apply Dev.coachSettle_sound
    | with_reducible apply Dev.shadowChecked_sound
    | with_reducible apply Dev.mirrorSet_sound
    | with_reducible apply Dev.mirrorWait_sound
    | with_reducible apply Dev.trkFlood_sound
    | with_reducible apply Dev.Sound.ite
    | with_reducible apply Dev.Sound.ite_snd
    | with_reducible apply Dev.Sound.foldl
    | simp only [Dev.Sound.keep]
    | simp only [Dev.Sound.keepSdp]
    | (intro _; intros; try dsimp only)
    | dsimp only
    | (split; all_goals try dsimp only)

theorem Dev.imageSet_sound {d : Dev} (h : d.Sound) (x : ImageSet) : (Dev.imageSet d x).Sound := by
  unfold Dev.imageSet
  try dsimp only
  repeat' first
    | with_reducible assumption
    | with_reducible apply Dev.enqueueMirrored_sound
    | with_reducible apply Dev.mirrored_sound
    | with_reducible apply Dev.Sound.ite
    | with_reducible apply Dev.Sound.ite_snd
    | with_reducible apply Dev.Sound.foldl
    | simp only [Dev.Sound.keep]
    | simp only [Dev.Sound.keepSdp]
    | (intro _; intros; try dsimp only)
    | dsimp only
    | (split; all_goals try dsimp only)

theorem Dev.imageRegs_sound {d : Dev} (h : d.Sound) : (Dev.imageRegs d).Sound := by
  unfold Dev.imageRegs
  try dsimp only
  repeat' first
    | with_reducible assumption
    | with_reducible apply Dev.setCoach_sound
    | with_reducible apply Dev.setPlate_sound
    | with_reducible apply Dev.settledApply_sound
    | with_reducible apply Dev.controlWritten_sound
    | with_reducible apply Dev.Sound.ite
    | with_reducible apply Dev.Sound.ite_snd
    | with_reducible apply Dev.Sound.foldl
    | simp only [Dev.Sound.keep]
    | simp only [Dev.Sound.keepSdp]
    | (intro _; intros; try dsimp only)
    | dsimp only
    | (split; all_goals try dsimp only)

theorem Dev.takeState_sound {d : Dev} (h : d.Sound) (first last : Bool) (regs : List (Nat × Nat)) (sets : List ImageSet)
    (start : Option (Rat × Nat)) : (d.takeState first last regs sets start).Sound := by
  have hf (p : Prt) : ({ d.flushSets stAborted with
      regs := (d.flushSets stAborted).regs.filter fun e => !takesWhole e.1, prt := p } : Dev).Sound :=
    { Dev.flushSets_sound h _ with regs := Tab.wf_filter (Dev.flushSets_sound h _).regs _ }
  unfold Dev.takeState
  dsimp only
  repeat' first
    | with_reducible assumption
    | with_reducible apply hf
    | with_reducible apply Dev.updateAdm_sound
    | with_reducible apply Dev.coachSettle_sound
    | with_reducible apply Dev.reframeAccept_sound
    | with_reducible apply Dev.imageRegs_sound
    | with_reducible apply Dev.twnPlaced_sound
    | with_reducible apply Dev.imageSet_sound
    | with_reducible apply Dev.setFld_sound
    | with_reducible apply Dev.setReg_sound
    | with_reducible apply Dev.Sound.ite
    | with_reducible apply Dev.Sound.foldl
    | (intro _; intros; try dsimp only)
    | (split; all_goals try dsimp only)

theorem Dev.twnDeliver_sound {d : Dev} (h : d.Sound) (x1 : Option TwinMsg) : (Dev.twnDeliver d x1).Sound := by
  unfold Dev.twnDeliver
  try dsimp only
  repeat' first
    | with_reducible assumption
    | with_reducible apply Dev.twnStripLost_sound
    | with_reducible apply Dev.twnAuthed_sound
    | with_reducible apply Dev.twnTagged_sound
    | with_reducible apply Dev.enterAlone_sound
    | with_reducible apply Dev.takePcv_sound
    | with_reducible apply Dev.readsOver_sound
    | with_reducible apply Dev.takeResolve_sound
    | with_reducible apply Dev.repairAsked_sound
    | with_reducible apply Dev.repairCame_sound
    | with_reducible apply Dev.repairFailed_sound
    | with_reducible apply Dev.mirrorItem_sound
    | with_reducible apply Dev.takeState_sound
    | with_reducible apply Dev.twnDecide_sound
    | with_reducible apply Dev.Sound.ite
    | with_reducible apply Dev.Sound.ite_snd
    | with_reducible apply Dev.Sound.foldl
    | simp only [Dev.Sound.keep]
    | simp only [Dev.Sound.keepSdp]
    | (intro _; intros; try dsimp only)
    | dsimp only
    | (split; all_goals try dsimp only)

theorem Dev.twnDrain_sound {d : Dev} (h : d.Sound) (n : Nat) : (d.twnDrain n).Sound := by
  induction n generalizing d with
  | zero => exact h
  | succ n ih =>
    unfold Dev.twnDrain
    split
    · exact h
    · exact ih (Dev.twnDeliver_sound (by simp only [Dev.Sound.keepSdp]; exact h) _)

theorem Dev.twnTake_sound {d : Dev} (h : d.Sound) (h : TwinHead) (good : Bool) (strip : Dev → Option TwinMsg × Dev) (hstrip : ∀ d, d.Sound → (strip d).2.Sound) : (Dev.twnTake d h good strip).Sound := by
  unfold Dev.twnTake
  try dsimp only
  repeat' first
    | with_reducible assumption
    | with_reducible apply Dev.twnHeard_sound
    | with_reducible apply Dev.twnDrain_sound
    | with_reducible apply hstrip
    | with_reducible apply Dev.Sound.ite
    | simp only [Dev.Sound.keepSdp]
    | (intro _; intros; try dsimp only)

theorem Dev.twnBytes_sound {d : Dev} (h : d.Sound) (h : TwinHead) (type_ : Nat) (payload : List Byte) (crc : Word) (tail : List Byte) : (Dev.twnBytes d h type_ payload crc tail).Sound := by
  unfold Dev.twnBytes
  try dsimp only
  repeat' first
    | with_reducible assumption
    | with_reducible apply Dev.twnTake_sound
    | with_reducible apply Dev.tlyStrip_sound
    | with_reducible apply Dev.Sound.ite_snd
    | simp only [Dev.Sound.keepSdp]
    | (intro _; intros; try dsimp only)

theorem Dev.twnTold_sound {d : Dev} (hk : d.Sound) (h : TwinHead) (type_ : Nat) (fold : BitVec 64) (ok : Bool) (wrong : Option Nat) (msg : TwinMsg) : (Dev.twnTold d h type_ fold ok wrong msg).Sound := by
  unfold Dev.twnTold
  try dsimp only
  repeat' first
    | with_reducible assumption
    | with_reducible apply Dev.twnTake_sound
    | with_reducible apply Dev.tlyStripTold_sound
    | with_reducible apply Dev.Sound.ite
    | with_reducible apply Dev.Sound.ite_snd
    | with_reducible apply Dev.Sound.foldl
    | simp only [Dev.Sound.keep]
    | simp only [Dev.Sound.keepSdp]
    | (intro _; intros; try dsimp only)
    | dsimp only
    | (split; all_goals try dsimp only)

end Sys2Proof.Machine
end

