-- ==== Sys2Proof/Laws/State.lean ====
section
/-! SUPPORT. What the named operations leave of a device: one lemma for each field and each operation that keeps it, so
that no proof unfolds a record update. -/

namespace Sys2Proof.Machine

/-! ### States and outcomes -/

@[simp] theorem State.done_pending (s : State) (d : Dev) : (s.done d).pending = s.pending := rfl
@[simp] theorem State.done_dev (s : State) (d : Dev) : (s.done d).dev = d.latchFault.extest := rfl
@[simp] theorem State.apply_eq (s : State) (f : Dev → Dev) : s.apply f = .next (s.done (f s.dev.quiet)) := rfl

theorem Dev.extest_eq (d : Dev) : d.extest = { d with out := d.extest.out } := by
  unfold Dev.extest
  split <;> rfl

/-! ### A device whose outputs are gone -/

@[simp] theorem Dev.quiet_now (d : Dev) : d.quiet.now = d.now := rfl
@[simp] theorem Dev.quiet_free (d : Dev) : d.quiet.free = d.free := rfl
@[simp] theorem Dev.quiet_regs (d : Dev) : d.quiet.regs = d.regs := rfl
@[simp] theorem Dev.quiet_mem (d : Dev) : d.quiet.mem = d.mem := rfl
@[simp] theorem Dev.quiet_damaged (d : Dev) : d.quiet.damaged = d.damaged := rfl
@[simp] theorem Dev.quiet_weak (d : Dev) : d.quiet.weak = d.weak := rfl
@[simp] theorem Dev.quiet_epochs (d : Dev) : d.quiet.epochs = d.epochs := rfl
@[simp] theorem Dev.quiet_hostMem (d : Dev) : d.quiet.hostMem = d.hostMem := rfl
@[simp] theorem Dev.quiet_flash (d : Dev) : d.quiet.flash = d.flash := rfl
@[simp] theorem Dev.quiet_bridgeFails (d : Dev) : d.quiet.bridgeFails = d.bridgeFails := rfl
@[simp] theorem Dev.quiet_fuses (d : Dev) : d.quiet.fuses = d.fuses := rfl
@[simp] theorem Dev.quiet_wb (d : Dev) : d.quiet.wb = d.wb := rfl
@[simp] theorem Dev.quiet_boot (d : Dev) : d.quiet.boot = d.boot := rfl
@[simp] theorem Dev.quiet_sdp (d : Dev) : d.quiet.sdp = d.sdp := rfl
@[simp] theorem Dev.quiet_bel (d : Dev) : d.quiet.bel = d.bel := rfl
@[simp] theorem Dev.quiet_rings (d : Dev) : d.quiet.rings = d.rings := rfl
@[simp] theorem Dev.quiet_dbg (d : Dev) : d.quiet.dbg = d.dbg := rfl
@[simp] theorem Dev.quiet_tap (d : Dev) : d.quiet.tap = d.tap := rfl
@[simp] theorem Dev.quiet_depLogged (d : Dev) : d.quiet.depLogged = d.depLogged := rfl
@[simp] theorem Dev.quiet_stk (d : Dev) : d.quiet.stk = d.stk := rfl
@[simp] theorem Dev.quiet_staging (d : Dev) : d.quiet.staging = d.staging := rfl
@[simp] theorem Dev.quiet_prt (d : Dev) : d.quiet.prt = d.prt := rfl
@[simp] theorem Dev.quiet_ladders (d : Dev) : d.quiet.ladders = d.ladders := rfl
@[simp] theorem Dev.quiet_stagingDamaged (d : Dev) : d.quiet.stagingDamaged = d.stagingDamaged := rfl
@[simp] theorem Dev.quiet_flp (d : Dev) : d.quiet.flp = d.flp := rfl
@[simp] theorem Dev.quiet_stl (d : Dev) : d.quiet.stl = d.stl := rfl
@[simp] theorem Dev.quiet_coaches (d : Dev) : d.quiet.coaches = d.coaches := rfl
@[simp] theorem Dev.quiet_scrub (d : Dev) : d.quiet.scrub = d.scrub := rfl
@[simp] theorem Dev.quiet_twn (d : Dev) : d.quiet.twn = d.twn := rfl
@[simp] theorem Dev.quiet_lines (d : Dev) : d.quiet.lines = d.lines := rfl
@[simp] theorem Dev.quiet_sips (d : Dev) : d.quiet.sips = d.sips := rfl
@[simp] theorem Dev.quiet_ctxs (d : Dev) : d.quiet.ctxs = d.ctxs := rfl
@[simp] theorem Dev.quiet_trk (d : Dev) : d.quiet.trk = d.trk := rfl
@[simp] theorem Dev.quiet_blt (d : Dev) : d.quiet.blt = d.blt := rfl
@[simp] theorem Dev.quiet_tallies (d : Dev) : d.quiet.tallies = d.tallies := rfl
@[simp] theorem Dev.quiet_ckg (d : Dev) : d.quiet.ckg = d.ckg := rfl

@[simp] theorem Dev.quiet_out (d : Dev) : d.quiet.out = [] := rfl

/-! ### The edge of `FAULT_N` -/

@[simp] theorem Dev.latchFault_now (d : Dev) : d.latchFault.now = d.now := rfl
@[simp] theorem Dev.latchFault_free (d : Dev) : d.latchFault.free = d.free := rfl
@[simp] theorem Dev.latchFault_out (d : Dev) : d.latchFault.out = d.out := rfl
@[simp] theorem Dev.latchFault_regs (d : Dev) : d.latchFault.regs = d.regs := rfl
@[simp] theorem Dev.latchFault_mem (d : Dev) : d.latchFault.mem = d.mem := rfl
@[simp] theorem Dev.latchFault_damaged (d : Dev) : d.latchFault.damaged = d.damaged := rfl
@[simp] theorem Dev.latchFault_weak (d : Dev) : d.latchFault.weak = d.weak := rfl
@[simp] theorem Dev.latchFault_epochs (d : Dev) : d.latchFault.epochs = d.epochs := rfl
@[simp] theorem Dev.latchFault_hostMem (d : Dev) : d.latchFault.hostMem = d.hostMem := rfl
@[simp] theorem Dev.latchFault_flash (d : Dev) : d.latchFault.flash = d.flash := rfl
@[simp] theorem Dev.latchFault_bridgeFails (d : Dev) : d.latchFault.bridgeFails = d.bridgeFails := rfl
@[simp] theorem Dev.latchFault_fuses (d : Dev) : d.latchFault.fuses = d.fuses := rfl
@[simp] theorem Dev.latchFault_wb (d : Dev) : d.latchFault.wb = d.wb := rfl
@[simp] theorem Dev.latchFault_boot (d : Dev) : d.latchFault.boot = d.boot := rfl
@[simp] theorem Dev.latchFault_bel (d : Dev) : d.latchFault.bel = d.bel := rfl
@[simp] theorem Dev.latchFault_rings (d : Dev) : d.latchFault.rings = d.rings := rfl
@[simp] theorem Dev.latchFault_dbg (d : Dev) : d.latchFault.dbg = d.dbg := rfl
@[simp] theorem Dev.latchFault_tap (d : Dev) : d.latchFault.tap = d.tap := rfl
@[simp] theorem Dev.latchFault_depLogged (d : Dev) : d.latchFault.depLogged = d.depLogged := rfl
@[simp] theorem Dev.latchFault_stk (d : Dev) : d.latchFault.stk = d.stk := rfl
@[simp] theorem Dev.latchFault_staging (d : Dev) : d.latchFault.staging = d.staging := rfl
@[simp] theorem Dev.latchFault_prt (d : Dev) : d.latchFault.prt = d.prt := rfl
@[simp] theorem Dev.latchFault_ladders (d : Dev) : d.latchFault.ladders = d.ladders := rfl
@[simp] theorem Dev.latchFault_stagingDamaged (d : Dev) : d.latchFault.stagingDamaged = d.stagingDamaged := rfl
@[simp] theorem Dev.latchFault_flp (d : Dev) : d.latchFault.flp = d.flp := rfl
@[simp] theorem Dev.latchFault_stl (d : Dev) : d.latchFault.stl = d.stl := rfl
@[simp] theorem Dev.latchFault_coaches (d : Dev) : d.latchFault.coaches = d.coaches := rfl
@[simp] theorem Dev.latchFault_scrub (d : Dev) : d.latchFault.scrub = d.scrub := rfl
@[simp] theorem Dev.latchFault_twn (d : Dev) : d.latchFault.twn = d.twn := rfl
@[simp] theorem Dev.latchFault_lines (d : Dev) : d.latchFault.lines = d.lines := rfl
@[simp] theorem Dev.latchFault_sips (d : Dev) : d.latchFault.sips = d.sips := rfl
@[simp] theorem Dev.latchFault_ctxs (d : Dev) : d.latchFault.ctxs = d.ctxs := rfl
@[simp] theorem Dev.latchFault_trk (d : Dev) : d.latchFault.trk = d.trk := rfl
@[simp] theorem Dev.latchFault_blt (d : Dev) : d.latchFault.blt = d.blt := rfl
@[simp] theorem Dev.latchFault_tallies (d : Dev) : d.latchFault.tallies = d.tallies := rfl
@[simp] theorem Dev.latchFault_ckg (d : Dev) : d.latchFault.ckg = d.ckg := rfl

/-! ### EXTEST -/

@[simp] theorem Dev.extest_now (d : Dev) : d.extest.now = d.now := by rw [Dev.extest_eq]
@[simp] theorem Dev.extest_free (d : Dev) : d.extest.free = d.free := by rw [Dev.extest_eq]
@[simp] theorem Dev.extest_regs (d : Dev) : d.extest.regs = d.regs := by rw [Dev.extest_eq]
@[simp] theorem Dev.extest_mem (d : Dev) : d.extest.mem = d.mem := by rw [Dev.extest_eq]
@[simp] theorem Dev.extest_damaged (d : Dev) : d.extest.damaged = d.damaged := by rw [Dev.extest_eq]
@[simp] theorem Dev.extest_weak (d : Dev) : d.extest.weak = d.weak := by rw [Dev.extest_eq]
@[simp] theorem Dev.extest_epochs (d : Dev) : d.extest.epochs = d.epochs := by rw [Dev.extest_eq]
@[simp] theorem Dev.extest_hostMem (d : Dev) : d.extest.hostMem = d.hostMem := by rw [Dev.extest_eq]
@[simp] theorem Dev.extest_flash (d : Dev) : d.extest.flash = d.flash := by rw [Dev.extest_eq]
@[simp] theorem Dev.extest_bridgeFails (d : Dev) : d.extest.bridgeFails = d.bridgeFails := by rw [Dev.extest_eq]
@[simp] theorem Dev.extest_fuses (d : Dev) : d.extest.fuses = d.fuses := by rw [Dev.extest_eq]
@[simp] theorem Dev.extest_wb (d : Dev) : d.extest.wb = d.wb := by rw [Dev.extest_eq]
@[simp] theorem Dev.extest_boot (d : Dev) : d.extest.boot = d.boot := by rw [Dev.extest_eq]
@[simp] theorem Dev.extest_sdp (d : Dev) : d.extest.sdp = d.sdp := by rw [Dev.extest_eq]
@[simp] theorem Dev.extest_bel (d : Dev) : d.extest.bel = d.bel := by rw [Dev.extest_eq]
@[simp] theorem Dev.extest_rings (d : Dev) : d.extest.rings = d.rings := by rw [Dev.extest_eq]
@[simp] theorem Dev.extest_dbg (d : Dev) : d.extest.dbg = d.dbg := by rw [Dev.extest_eq]
@[simp] theorem Dev.extest_tap (d : Dev) : d.extest.tap = d.tap := by rw [Dev.extest_eq]
@[simp] theorem Dev.extest_depLogged (d : Dev) : d.extest.depLogged = d.depLogged := by rw [Dev.extest_eq]
@[simp] theorem Dev.extest_stk (d : Dev) : d.extest.stk = d.stk := by rw [Dev.extest_eq]
@[simp] theorem Dev.extest_staging (d : Dev) : d.extest.staging = d.staging := by rw [Dev.extest_eq]
@[simp] theorem Dev.extest_prt (d : Dev) : d.extest.prt = d.prt := by rw [Dev.extest_eq]
@[simp] theorem Dev.extest_ladders (d : Dev) : d.extest.ladders = d.ladders := by rw [Dev.extest_eq]
@[simp] theorem Dev.extest_stagingDamaged (d : Dev) : d.extest.stagingDamaged = d.stagingDamaged := by rw [Dev.extest_eq]
@[simp] theorem Dev.extest_flp (d : Dev) : d.extest.flp = d.flp := by rw [Dev.extest_eq]
@[simp] theorem Dev.extest_stl (d : Dev) : d.extest.stl = d.stl := by rw [Dev.extest_eq]
@[simp] theorem Dev.extest_coaches (d : Dev) : d.extest.coaches = d.coaches := by rw [Dev.extest_eq]
@[simp] theorem Dev.extest_scrub (d : Dev) : d.extest.scrub = d.scrub := by rw [Dev.extest_eq]
@[simp] theorem Dev.extest_twn (d : Dev) : d.extest.twn = d.twn := by rw [Dev.extest_eq]
@[simp] theorem Dev.extest_lines (d : Dev) : d.extest.lines = d.lines := by rw [Dev.extest_eq]
@[simp] theorem Dev.extest_sips (d : Dev) : d.extest.sips = d.sips := by rw [Dev.extest_eq]
@[simp] theorem Dev.extest_ctxs (d : Dev) : d.extest.ctxs = d.ctxs := by rw [Dev.extest_eq]
@[simp] theorem Dev.extest_trk (d : Dev) : d.extest.trk = d.trk := by rw [Dev.extest_eq]
@[simp] theorem Dev.extest_blt (d : Dev) : d.extest.blt = d.blt := by rw [Dev.extest_eq]
@[simp] theorem Dev.extest_tallies (d : Dev) : d.extest.tallies = d.tallies := by rw [Dev.extest_eq]
@[simp] theorem Dev.extest_ckg (d : Dev) : d.extest.ckg = d.ckg := by rw [Dev.extest_eq]

/-! ### Sending -/

@[simp] theorem Dev.emit_now (d : Dev) (o : Out) : (d.emit o).now = d.now := rfl
@[simp] theorem Dev.emit_free (d : Dev) (o : Out) : (d.emit o).free = d.free := rfl
@[simp] theorem Dev.emit_regs (d : Dev) (o : Out) : (d.emit o).regs = d.regs := rfl
@[simp] theorem Dev.emit_mem (d : Dev) (o : Out) : (d.emit o).mem = d.mem := rfl
@[simp] theorem Dev.emit_damaged (d : Dev) (o : Out) : (d.emit o).damaged = d.damaged := rfl
@[simp] theorem Dev.emit_weak (d : Dev) (o : Out) : (d.emit o).weak = d.weak := rfl
@[simp] theorem Dev.emit_epochs (d : Dev) (o : Out) : (d.emit o).epochs = d.epochs := rfl
@[simp] theorem Dev.emit_hostMem (d : Dev) (o : Out) : (d.emit o).hostMem = d.hostMem := rfl
@[simp] theorem Dev.emit_flash (d : Dev) (o : Out) : (d.emit o).flash = d.flash := rfl
@[simp] theorem Dev.emit_bridgeFails (d : Dev) (o : Out) : (d.emit o).bridgeFails = d.bridgeFails := rfl
@[simp] theorem Dev.emit_fuses (d : Dev) (o : Out) : (d.emit o).fuses = d.fuses := rfl
@[simp] theorem Dev.emit_wb (d : Dev) (o : Out) : (d.emit o).wb = d.wb := rfl
@[simp] theorem Dev.emit_boot (d : Dev) (o : Out) : (d.emit o).boot = d.boot := rfl
@[simp] theorem Dev.emit_sdp (d : Dev) (o : Out) : (d.emit o).sdp = d.sdp := rfl
@[simp] theorem Dev.emit_bel (d : Dev) (o : Out) : (d.emit o).bel = d.bel := rfl
@[simp] theorem Dev.emit_rings (d : Dev) (o : Out) : (d.emit o).rings = d.rings := rfl
@[simp] theorem Dev.emit_dbg (d : Dev) (o : Out) : (d.emit o).dbg = d.dbg := rfl
@[simp] theorem Dev.emit_tap (d : Dev) (o : Out) : (d.emit o).tap = d.tap := rfl
@[simp] theorem Dev.emit_depLogged (d : Dev) (o : Out) : (d.emit o).depLogged = d.depLogged := rfl
@[simp] theorem Dev.emit_stk (d : Dev) (o : Out) : (d.emit o).stk = d.stk := rfl
@[simp] theorem Dev.emit_staging (d : Dev) (o : Out) : (d.emit o).staging = d.staging := rfl
@[simp] theorem Dev.emit_prt (d : Dev) (o : Out) : (d.emit o).prt = d.prt := rfl
@[simp] theorem Dev.emit_ladders (d : Dev) (o : Out) : (d.emit o).ladders = d.ladders := rfl
@[simp] theorem Dev.emit_stagingDamaged (d : Dev) (o : Out) : (d.emit o).stagingDamaged = d.stagingDamaged := rfl
@[simp] theorem Dev.emit_flp (d : Dev) (o : Out) : (d.emit o).flp = d.flp := rfl
@[simp] theorem Dev.emit_stl (d : Dev) (o : Out) : (d.emit o).stl = d.stl := rfl
@[simp] theorem Dev.emit_coaches (d : Dev) (o : Out) : (d.emit o).coaches = d.coaches := rfl
@[simp] theorem Dev.emit_scrub (d : Dev) (o : Out) : (d.emit o).scrub = d.scrub := rfl
@[simp] theorem Dev.emit_twn (d : Dev) (o : Out) : (d.emit o).twn = d.twn := rfl
@[simp] theorem Dev.emit_lines (d : Dev) (o : Out) : (d.emit o).lines = d.lines := rfl
@[simp] theorem Dev.emit_sips (d : Dev) (o : Out) : (d.emit o).sips = d.sips := rfl
@[simp] theorem Dev.emit_ctxs (d : Dev) (o : Out) : (d.emit o).ctxs = d.ctxs := rfl
@[simp] theorem Dev.emit_trk (d : Dev) (o : Out) : (d.emit o).trk = d.trk := rfl
@[simp] theorem Dev.emit_blt (d : Dev) (o : Out) : (d.emit o).blt = d.blt := rfl
@[simp] theorem Dev.emit_tallies (d : Dev) (o : Out) : (d.emit o).tallies = d.tallies := rfl
@[simp] theorem Dev.emit_ckg (d : Dev) (o : Out) : (d.emit o).ckg = d.ckg := rfl

@[simp] theorem Dev.emit_out (d : Dev) (o : Out) : (d.emit o).out = d.out ++ [o] := rfl

/-! ### Free values -/

@[simp] theorem Dev.tickFree_now (d : Dev) : d.tickFree.now = d.now := rfl
@[simp] theorem Dev.tickFree_out (d : Dev) : d.tickFree.out = d.out := rfl
@[simp] theorem Dev.tickFree_regs (d : Dev) : d.tickFree.regs = d.regs := rfl
@[simp] theorem Dev.tickFree_mem (d : Dev) : d.tickFree.mem = d.mem := rfl
@[simp] theorem Dev.tickFree_damaged (d : Dev) : d.tickFree.damaged = d.damaged := rfl
@[simp] theorem Dev.tickFree_weak (d : Dev) : d.tickFree.weak = d.weak := rfl
@[simp] theorem Dev.tickFree_epochs (d : Dev) : d.tickFree.epochs = d.epochs := rfl
@[simp] theorem Dev.tickFree_hostMem (d : Dev) : d.tickFree.hostMem = d.hostMem := rfl
@[simp] theorem Dev.tickFree_flash (d : Dev) : d.tickFree.flash = d.flash := rfl
@[simp] theorem Dev.tickFree_bridgeFails (d : Dev) : d.tickFree.bridgeFails = d.bridgeFails := rfl
@[simp] theorem Dev.tickFree_fuses (d : Dev) : d.tickFree.fuses = d.fuses := rfl
@[simp] theorem Dev.tickFree_wb (d : Dev) : d.tickFree.wb = d.wb := rfl
@[simp] theorem Dev.tickFree_boot (d : Dev) : d.tickFree.boot = d.boot := rfl
@[simp] theorem Dev.tickFree_sdp (d : Dev) : d.tickFree.sdp = d.sdp := rfl
@[simp] theorem Dev.tickFree_bel (d : Dev) : d.tickFree.bel = d.bel := rfl
@[simp] theorem Dev.tickFree_rings (d : Dev) : d.tickFree.rings = d.rings := rfl
@[simp] theorem Dev.tickFree_dbg (d : Dev) : d.tickFree.dbg = d.dbg := rfl
@[simp] theorem Dev.tickFree_tap (d : Dev) : d.tickFree.tap = d.tap := rfl
@[simp] theorem Dev.tickFree_depLogged (d : Dev) : d.tickFree.depLogged = d.depLogged := rfl
@[simp] theorem Dev.tickFree_stk (d : Dev) : d.tickFree.stk = d.stk := rfl
@[simp] theorem Dev.tickFree_staging (d : Dev) : d.tickFree.staging = d.staging := rfl
@[simp] theorem Dev.tickFree_prt (d : Dev) : d.tickFree.prt = d.prt := rfl
@[simp] theorem Dev.tickFree_ladders (d : Dev) : d.tickFree.ladders = d.ladders := rfl
@[simp] theorem Dev.tickFree_stagingDamaged (d : Dev) : d.tickFree.stagingDamaged = d.stagingDamaged := rfl
@[simp] theorem Dev.tickFree_flp (d : Dev) : d.tickFree.flp = d.flp := rfl
@[simp] theorem Dev.tickFree_stl (d : Dev) : d.tickFree.stl = d.stl := rfl
@[simp] theorem Dev.tickFree_coaches (d : Dev) : d.tickFree.coaches = d.coaches := rfl
@[simp] theorem Dev.tickFree_scrub (d : Dev) : d.tickFree.scrub = d.scrub := rfl
@[simp] theorem Dev.tickFree_twn (d : Dev) : d.tickFree.twn = d.twn := rfl
@[simp] theorem Dev.tickFree_lines (d : Dev) : d.tickFree.lines = d.lines := rfl
@[simp] theorem Dev.tickFree_sips (d : Dev) : d.tickFree.sips = d.sips := rfl
@[simp] theorem Dev.tickFree_ctxs (d : Dev) : d.tickFree.ctxs = d.ctxs := rfl
@[simp] theorem Dev.tickFree_trk (d : Dev) : d.tickFree.trk = d.trk := rfl
@[simp] theorem Dev.tickFree_blt (d : Dev) : d.tickFree.blt = d.blt := rfl
@[simp] theorem Dev.tickFree_tallies (d : Dev) : d.tickFree.tallies = d.tallies := rfl
@[simp] theorem Dev.tickFree_ckg (d : Dev) : d.tickFree.ckg = d.ckg := rfl

/-! ### Storing a register -/

@[simp] theorem Dev.setReg_now (d : Dev) (a v : Nat) : (d.setReg a v).now = d.now := rfl
@[simp] theorem Dev.setReg_free (d : Dev) (a v : Nat) : (d.setReg a v).free = d.free := rfl
@[simp] theorem Dev.setReg_out (d : Dev) (a v : Nat) : (d.setReg a v).out = d.out := rfl
@[simp] theorem Dev.setReg_mem (d : Dev) (a v : Nat) : (d.setReg a v).mem = d.mem := rfl
@[simp] theorem Dev.setReg_damaged (d : Dev) (a v : Nat) : (d.setReg a v).damaged = d.damaged := rfl
@[simp] theorem Dev.setReg_weak (d : Dev) (a v : Nat) : (d.setReg a v).weak = d.weak := rfl
@[simp] theorem Dev.setReg_epochs (d : Dev) (a v : Nat) : (d.setReg a v).epochs = d.epochs := rfl
@[simp] theorem Dev.setReg_hostMem (d : Dev) (a v : Nat) : (d.setReg a v).hostMem = d.hostMem := rfl
@[simp] theorem Dev.setReg_flash (d : Dev) (a v : Nat) : (d.setReg a v).flash = d.flash := rfl
@[simp] theorem Dev.setReg_bridgeFails (d : Dev) (a v : Nat) : (d.setReg a v).bridgeFails = d.bridgeFails := rfl
@[simp] theorem Dev.setReg_fuses (d : Dev) (a v : Nat) : (d.setReg a v).fuses = d.fuses := rfl
@[simp] theorem Dev.setReg_wb (d : Dev) (a v : Nat) : (d.setReg a v).wb = d.wb := rfl
@[simp] theorem Dev.setReg_boot (d : Dev) (a v : Nat) : (d.setReg a v).boot = d.boot := rfl
@[simp] theorem Dev.setReg_sdp (d : Dev) (a v : Nat) : (d.setReg a v).sdp = d.sdp := rfl
@[simp] theorem Dev.setReg_bel (d : Dev) (a v : Nat) : (d.setReg a v).bel = d.bel := rfl
@[simp] theorem Dev.setReg_rings (d : Dev) (a v : Nat) : (d.setReg a v).rings = d.rings := rfl
@[simp] theorem Dev.setReg_dbg (d : Dev) (a v : Nat) : (d.setReg a v).dbg = d.dbg := rfl
@[simp] theorem Dev.setReg_tap (d : Dev) (a v : Nat) : (d.setReg a v).tap = d.tap := rfl
@[simp] theorem Dev.setReg_depLogged (d : Dev) (a v : Nat) : (d.setReg a v).depLogged = d.depLogged := rfl
@[simp] theorem Dev.setReg_stk (d : Dev) (a v : Nat) : (d.setReg a v).stk = d.stk := rfl
@[simp] theorem Dev.setReg_staging (d : Dev) (a v : Nat) : (d.setReg a v).staging = d.staging := rfl
@[simp] theorem Dev.setReg_prt (d : Dev) (a v : Nat) : (d.setReg a v).prt = d.prt := rfl
@[simp] theorem Dev.setReg_ladders (d : Dev) (a v : Nat) : (d.setReg a v).ladders = d.ladders := rfl
@[simp] theorem Dev.setReg_stagingDamaged (d : Dev) (a v : Nat) : (d.setReg a v).stagingDamaged = d.stagingDamaged := rfl
@[simp] theorem Dev.setReg_flp (d : Dev) (a v : Nat) : (d.setReg a v).flp = d.flp := rfl
@[simp] theorem Dev.setReg_stl (d : Dev) (a v : Nat) : (d.setReg a v).stl = d.stl := rfl
@[simp] theorem Dev.setReg_coaches (d : Dev) (a v : Nat) : (d.setReg a v).coaches = d.coaches := rfl
@[simp] theorem Dev.setReg_scrub (d : Dev) (a v : Nat) : (d.setReg a v).scrub = d.scrub := rfl
@[simp] theorem Dev.setReg_twn (d : Dev) (a v : Nat) : (d.setReg a v).twn = d.twn := rfl
@[simp] theorem Dev.setReg_lines (d : Dev) (a v : Nat) : (d.setReg a v).lines = d.lines := rfl
@[simp] theorem Dev.setReg_sips (d : Dev) (a v : Nat) : (d.setReg a v).sips = d.sips := rfl
@[simp] theorem Dev.setReg_ctxs (d : Dev) (a v : Nat) : (d.setReg a v).ctxs = d.ctxs := rfl
@[simp] theorem Dev.setReg_trk (d : Dev) (a v : Nat) : (d.setReg a v).trk = d.trk := rfl
@[simp] theorem Dev.setReg_blt (d : Dev) (a v : Nat) : (d.setReg a v).blt = d.blt := rfl
@[simp] theorem Dev.setReg_tallies (d : Dev) (a v : Nat) : (d.setReg a v).tallies = d.tallies := rfl
@[simp] theorem Dev.setReg_ckg (d : Dev) (a v : Nat) : (d.setReg a v).ckg = d.ckg := rfl

/-! ### Storing a field -/

@[simp] theorem Dev.setFld_now (d : Dev) (a : Nat) (f : Fld) (x : Nat) : (d.setFld a f x).now = d.now := rfl
@[simp] theorem Dev.setFld_free (d : Dev) (a : Nat) (f : Fld) (x : Nat) : (d.setFld a f x).free = d.free := rfl
@[simp] theorem Dev.setFld_out (d : Dev) (a : Nat) (f : Fld) (x : Nat) : (d.setFld a f x).out = d.out := rfl
@[simp] theorem Dev.setFld_mem (d : Dev) (a : Nat) (f : Fld) (x : Nat) : (d.setFld a f x).mem = d.mem := rfl
@[simp] theorem Dev.setFld_damaged (d : Dev) (a : Nat) (f : Fld) (x : Nat) : (d.setFld a f x).damaged = d.damaged := rfl
@[simp] theorem Dev.setFld_weak (d : Dev) (a : Nat) (f : Fld) (x : Nat) : (d.setFld a f x).weak = d.weak := rfl
@[simp] theorem Dev.setFld_epochs (d : Dev) (a : Nat) (f : Fld) (x : Nat) : (d.setFld a f x).epochs = d.epochs := rfl
@[simp] theorem Dev.setFld_hostMem (d : Dev) (a : Nat) (f : Fld) (x : Nat) : (d.setFld a f x).hostMem = d.hostMem := rfl
@[simp] theorem Dev.setFld_flash (d : Dev) (a : Nat) (f : Fld) (x : Nat) : (d.setFld a f x).flash = d.flash := rfl
@[simp] theorem Dev.setFld_bridgeFails (d : Dev) (a : Nat) (f : Fld) (x : Nat) : (d.setFld a f x).bridgeFails = d.bridgeFails := rfl
@[simp] theorem Dev.setFld_fuses (d : Dev) (a : Nat) (f : Fld) (x : Nat) : (d.setFld a f x).fuses = d.fuses := rfl
@[simp] theorem Dev.setFld_wb (d : Dev) (a : Nat) (f : Fld) (x : Nat) : (d.setFld a f x).wb = d.wb := rfl
@[simp] theorem Dev.setFld_boot (d : Dev) (a : Nat) (f : Fld) (x : Nat) : (d.setFld a f x).boot = d.boot := rfl
@[simp] theorem Dev.setFld_sdp (d : Dev) (a : Nat) (f : Fld) (x : Nat) : (d.setFld a f x).sdp = d.sdp := rfl
@[simp] theorem Dev.setFld_bel (d : Dev) (a : Nat) (f : Fld) (x : Nat) : (d.setFld a f x).bel = d.bel := rfl
@[simp] theorem Dev.setFld_rings (d : Dev) (a : Nat) (f : Fld) (x : Nat) : (d.setFld a f x).rings = d.rings := rfl
@[simp] theorem Dev.setFld_dbg (d : Dev) (a : Nat) (f : Fld) (x : Nat) : (d.setFld a f x).dbg = d.dbg := rfl
@[simp] theorem Dev.setFld_tap (d : Dev) (a : Nat) (f : Fld) (x : Nat) : (d.setFld a f x).tap = d.tap := rfl
@[simp] theorem Dev.setFld_depLogged (d : Dev) (a : Nat) (f : Fld) (x : Nat) : (d.setFld a f x).depLogged = d.depLogged := rfl
@[simp] theorem Dev.setFld_stk (d : Dev) (a : Nat) (f : Fld) (x : Nat) : (d.setFld a f x).stk = d.stk := rfl
@[simp] theorem Dev.setFld_staging (d : Dev) (a : Nat) (f : Fld) (x : Nat) : (d.setFld a f x).staging = d.staging := rfl
@[simp] theorem Dev.setFld_prt (d : Dev) (a : Nat) (f : Fld) (x : Nat) : (d.setFld a f x).prt = d.prt := rfl
@[simp] theorem Dev.setFld_ladders (d : Dev) (a : Nat) (f : Fld) (x : Nat) : (d.setFld a f x).ladders = d.ladders := rfl
@[simp] theorem Dev.setFld_stagingDamaged (d : Dev) (a : Nat) (f : Fld) (x : Nat) : (d.setFld a f x).stagingDamaged = d.stagingDamaged := rfl
@[simp] theorem Dev.setFld_flp (d : Dev) (a : Nat) (f : Fld) (x : Nat) : (d.setFld a f x).flp = d.flp := rfl
@[simp] theorem Dev.setFld_stl (d : Dev) (a : Nat) (f : Fld) (x : Nat) : (d.setFld a f x).stl = d.stl := rfl
@[simp] theorem Dev.setFld_coaches (d : Dev) (a : Nat) (f : Fld) (x : Nat) : (d.setFld a f x).coaches = d.coaches := rfl
@[simp] theorem Dev.setFld_scrub (d : Dev) (a : Nat) (f : Fld) (x : Nat) : (d.setFld a f x).scrub = d.scrub := rfl
@[simp] theorem Dev.setFld_twn (d : Dev) (a : Nat) (f : Fld) (x : Nat) : (d.setFld a f x).twn = d.twn := rfl
@[simp] theorem Dev.setFld_lines (d : Dev) (a : Nat) (f : Fld) (x : Nat) : (d.setFld a f x).lines = d.lines := rfl
@[simp] theorem Dev.setFld_sips (d : Dev) (a : Nat) (f : Fld) (x : Nat) : (d.setFld a f x).sips = d.sips := rfl
@[simp] theorem Dev.setFld_ctxs (d : Dev) (a : Nat) (f : Fld) (x : Nat) : (d.setFld a f x).ctxs = d.ctxs := rfl
@[simp] theorem Dev.setFld_trk (d : Dev) (a : Nat) (f : Fld) (x : Nat) : (d.setFld a f x).trk = d.trk := rfl
@[simp] theorem Dev.setFld_blt (d : Dev) (a : Nat) (f : Fld) (x : Nat) : (d.setFld a f x).blt = d.blt := rfl
@[simp] theorem Dev.setFld_tallies (d : Dev) (a : Nat) (f : Fld) (x : Nat) : (d.setFld a f x).tallies = d.tallies := rfl
@[simp] theorem Dev.setFld_ckg (d : Dev) (a : Nat) (f : Fld) (x : Nat) : (d.setFld a f x).ckg = d.ckg := rfl

/-! ### Setting a flag -/

@[simp] theorem Dev.setFlag_now (d : Dev) (a : Nat) (f : Fld) : (d.setFlag a f).now = d.now := rfl
@[simp] theorem Dev.setFlag_free (d : Dev) (a : Nat) (f : Fld) : (d.setFlag a f).free = d.free := rfl
@[simp] theorem Dev.setFlag_out (d : Dev) (a : Nat) (f : Fld) : (d.setFlag a f).out = d.out := rfl
@[simp] theorem Dev.setFlag_mem (d : Dev) (a : Nat) (f : Fld) : (d.setFlag a f).mem = d.mem := rfl
@[simp] theorem Dev.setFlag_damaged (d : Dev) (a : Nat) (f : Fld) : (d.setFlag a f).damaged = d.damaged := rfl
@[simp] theorem Dev.setFlag_weak (d : Dev) (a : Nat) (f : Fld) : (d.setFlag a f).weak = d.weak := rfl
@[simp] theorem Dev.setFlag_epochs (d : Dev) (a : Nat) (f : Fld) : (d.setFlag a f).epochs = d.epochs := rfl
@[simp] theorem Dev.setFlag_hostMem (d : Dev) (a : Nat) (f : Fld) : (d.setFlag a f).hostMem = d.hostMem := rfl
@[simp] theorem Dev.setFlag_flash (d : Dev) (a : Nat) (f : Fld) : (d.setFlag a f).flash = d.flash := rfl
@[simp] theorem Dev.setFlag_bridgeFails (d : Dev) (a : Nat) (f : Fld) : (d.setFlag a f).bridgeFails = d.bridgeFails := rfl
@[simp] theorem Dev.setFlag_fuses (d : Dev) (a : Nat) (f : Fld) : (d.setFlag a f).fuses = d.fuses := rfl
@[simp] theorem Dev.setFlag_wb (d : Dev) (a : Nat) (f : Fld) : (d.setFlag a f).wb = d.wb := rfl
@[simp] theorem Dev.setFlag_boot (d : Dev) (a : Nat) (f : Fld) : (d.setFlag a f).boot = d.boot := rfl
@[simp] theorem Dev.setFlag_sdp (d : Dev) (a : Nat) (f : Fld) : (d.setFlag a f).sdp = d.sdp := rfl
@[simp] theorem Dev.setFlag_bel (d : Dev) (a : Nat) (f : Fld) : (d.setFlag a f).bel = d.bel := rfl
@[simp] theorem Dev.setFlag_rings (d : Dev) (a : Nat) (f : Fld) : (d.setFlag a f).rings = d.rings := rfl
@[simp] theorem Dev.setFlag_dbg (d : Dev) (a : Nat) (f : Fld) : (d.setFlag a f).dbg = d.dbg := rfl
@[simp] theorem Dev.setFlag_tap (d : Dev) (a : Nat) (f : Fld) : (d.setFlag a f).tap = d.tap := rfl
@[simp] theorem Dev.setFlag_depLogged (d : Dev) (a : Nat) (f : Fld) : (d.setFlag a f).depLogged = d.depLogged := rfl
@[simp] theorem Dev.setFlag_stk (d : Dev) (a : Nat) (f : Fld) : (d.setFlag a f).stk = d.stk := rfl
@[simp] theorem Dev.setFlag_staging (d : Dev) (a : Nat) (f : Fld) : (d.setFlag a f).staging = d.staging := rfl
@[simp] theorem Dev.setFlag_prt (d : Dev) (a : Nat) (f : Fld) : (d.setFlag a f).prt = d.prt := rfl
@[simp] theorem Dev.setFlag_ladders (d : Dev) (a : Nat) (f : Fld) : (d.setFlag a f).ladders = d.ladders := rfl
@[simp] theorem Dev.setFlag_stagingDamaged (d : Dev) (a : Nat) (f : Fld) : (d.setFlag a f).stagingDamaged = d.stagingDamaged := rfl
@[simp] theorem Dev.setFlag_flp (d : Dev) (a : Nat) (f : Fld) : (d.setFlag a f).flp = d.flp := rfl
@[simp] theorem Dev.setFlag_stl (d : Dev) (a : Nat) (f : Fld) : (d.setFlag a f).stl = d.stl := rfl
@[simp] theorem Dev.setFlag_coaches (d : Dev) (a : Nat) (f : Fld) : (d.setFlag a f).coaches = d.coaches := rfl
@[simp] theorem Dev.setFlag_scrub (d : Dev) (a : Nat) (f : Fld) : (d.setFlag a f).scrub = d.scrub := rfl
@[simp] theorem Dev.setFlag_twn (d : Dev) (a : Nat) (f : Fld) : (d.setFlag a f).twn = d.twn := rfl
@[simp] theorem Dev.setFlag_lines (d : Dev) (a : Nat) (f : Fld) : (d.setFlag a f).lines = d.lines := rfl
@[simp] theorem Dev.setFlag_sips (d : Dev) (a : Nat) (f : Fld) : (d.setFlag a f).sips = d.sips := rfl
@[simp] theorem Dev.setFlag_ctxs (d : Dev) (a : Nat) (f : Fld) : (d.setFlag a f).ctxs = d.ctxs := rfl
@[simp] theorem Dev.setFlag_trk (d : Dev) (a : Nat) (f : Fld) : (d.setFlag a f).trk = d.trk := rfl
@[simp] theorem Dev.setFlag_blt (d : Dev) (a : Nat) (f : Fld) : (d.setFlag a f).blt = d.blt := rfl
@[simp] theorem Dev.setFlag_tallies (d : Dev) (a : Nat) (f : Fld) : (d.setFlag a f).tallies = d.tallies := rfl
@[simp] theorem Dev.setFlag_ckg (d : Dev) (a : Nat) (f : Fld) : (d.setFlag a f).ckg = d.ckg := rfl

/-! ### Storing a pair -/

@[simp] theorem Dev.setPair_now (d : Dev) (a b x : Nat) : (d.setPair a b x).now = d.now := rfl
@[simp] theorem Dev.setPair_free (d : Dev) (a b x : Nat) : (d.setPair a b x).free = d.free := rfl
@[simp] theorem Dev.setPair_out (d : Dev) (a b x : Nat) : (d.setPair a b x).out = d.out := rfl
@[simp] theorem Dev.setPair_mem (d : Dev) (a b x : Nat) : (d.setPair a b x).mem = d.mem := rfl
@[simp] theorem Dev.setPair_damaged (d : Dev) (a b x : Nat) : (d.setPair a b x).damaged = d.damaged := rfl
@[simp] theorem Dev.setPair_weak (d : Dev) (a b x : Nat) : (d.setPair a b x).weak = d.weak := rfl
@[simp] theorem Dev.setPair_epochs (d : Dev) (a b x : Nat) : (d.setPair a b x).epochs = d.epochs := rfl
@[simp] theorem Dev.setPair_hostMem (d : Dev) (a b x : Nat) : (d.setPair a b x).hostMem = d.hostMem := rfl
@[simp] theorem Dev.setPair_flash (d : Dev) (a b x : Nat) : (d.setPair a b x).flash = d.flash := rfl
@[simp] theorem Dev.setPair_bridgeFails (d : Dev) (a b x : Nat) : (d.setPair a b x).bridgeFails = d.bridgeFails := rfl
@[simp] theorem Dev.setPair_fuses (d : Dev) (a b x : Nat) : (d.setPair a b x).fuses = d.fuses := rfl
@[simp] theorem Dev.setPair_wb (d : Dev) (a b x : Nat) : (d.setPair a b x).wb = d.wb := rfl
@[simp] theorem Dev.setPair_boot (d : Dev) (a b x : Nat) : (d.setPair a b x).boot = d.boot := rfl
@[simp] theorem Dev.setPair_sdp (d : Dev) (a b x : Nat) : (d.setPair a b x).sdp = d.sdp := rfl
@[simp] theorem Dev.setPair_bel (d : Dev) (a b x : Nat) : (d.setPair a b x).bel = d.bel := rfl
@[simp] theorem Dev.setPair_rings (d : Dev) (a b x : Nat) : (d.setPair a b x).rings = d.rings := rfl
@[simp] theorem Dev.setPair_dbg (d : Dev) (a b x : Nat) : (d.setPair a b x).dbg = d.dbg := rfl
@[simp] theorem Dev.setPair_tap (d : Dev) (a b x : Nat) : (d.setPair a b x).tap = d.tap := rfl
@[simp] theorem Dev.setPair_depLogged (d : Dev) (a b x : Nat) : (d.setPair a b x).depLogged = d.depLogged := rfl
@[simp] theorem Dev.setPair_stk (d : Dev) (a b x : Nat) : (d.setPair a b x).stk = d.stk := rfl
@[simp] theorem Dev.setPair_staging (d : Dev) (a b x : Nat) : (d.setPair a b x).staging = d.staging := rfl
@[simp] theorem Dev.setPair_prt (d : Dev) (a b x : Nat) : (d.setPair a b x).prt = d.prt := rfl
@[simp] theorem Dev.setPair_ladders (d : Dev) (a b x : Nat) : (d.setPair a b x).ladders = d.ladders := rfl
@[simp] theorem Dev.setPair_stagingDamaged (d : Dev) (a b x : Nat) : (d.setPair a b x).stagingDamaged = d.stagingDamaged := rfl
@[simp] theorem Dev.setPair_flp (d : Dev) (a b x : Nat) : (d.setPair a b x).flp = d.flp := rfl
@[simp] theorem Dev.setPair_stl (d : Dev) (a b x : Nat) : (d.setPair a b x).stl = d.stl := rfl
@[simp] theorem Dev.setPair_coaches (d : Dev) (a b x : Nat) : (d.setPair a b x).coaches = d.coaches := rfl
@[simp] theorem Dev.setPair_scrub (d : Dev) (a b x : Nat) : (d.setPair a b x).scrub = d.scrub := rfl
@[simp] theorem Dev.setPair_twn (d : Dev) (a b x : Nat) : (d.setPair a b x).twn = d.twn := rfl
@[simp] theorem Dev.setPair_lines (d : Dev) (a b x : Nat) : (d.setPair a b x).lines = d.lines := rfl
@[simp] theorem Dev.setPair_sips (d : Dev) (a b x : Nat) : (d.setPair a b x).sips = d.sips := rfl
@[simp] theorem Dev.setPair_ctxs (d : Dev) (a b x : Nat) : (d.setPair a b x).ctxs = d.ctxs := rfl
@[simp] theorem Dev.setPair_trk (d : Dev) (a b x : Nat) : (d.setPair a b x).trk = d.trk := rfl
@[simp] theorem Dev.setPair_blt (d : Dev) (a b x : Nat) : (d.setPair a b x).blt = d.blt := rfl
@[simp] theorem Dev.setPair_tallies (d : Dev) (a b x : Nat) : (d.setPair a b x).tallies = d.tallies := rfl
@[simp] theorem Dev.setPair_ckg (d : Dev) (a b x : Nat) : (d.setPair a b x).ckg = d.ckg := rfl

/-! ### Counting -/

@[simp] theorem Dev.count_now (d : Dev) (a : Nat) : (d.count a).now = d.now := rfl
@[simp] theorem Dev.count_free (d : Dev) (a : Nat) : (d.count a).free = d.free := rfl
@[simp] theorem Dev.count_out (d : Dev) (a : Nat) : (d.count a).out = d.out := rfl
@[simp] theorem Dev.count_mem (d : Dev) (a : Nat) : (d.count a).mem = d.mem := rfl
@[simp] theorem Dev.count_damaged (d : Dev) (a : Nat) : (d.count a).damaged = d.damaged := rfl
@[simp] theorem Dev.count_weak (d : Dev) (a : Nat) : (d.count a).weak = d.weak := rfl
@[simp] theorem Dev.count_epochs (d : Dev) (a : Nat) : (d.count a).epochs = d.epochs := rfl
@[simp] theorem Dev.count_hostMem (d : Dev) (a : Nat) : (d.count a).hostMem = d.hostMem := rfl
@[simp] theorem Dev.count_flash (d : Dev) (a : Nat) : (d.count a).flash = d.flash := rfl
@[simp] theorem Dev.count_bridgeFails (d : Dev) (a : Nat) : (d.count a).bridgeFails = d.bridgeFails := rfl
@[simp] theorem Dev.count_fuses (d : Dev) (a : Nat) : (d.count a).fuses = d.fuses := rfl
@[simp] theorem Dev.count_wb (d : Dev) (a : Nat) : (d.count a).wb = d.wb := rfl
@[simp] theorem Dev.count_boot (d : Dev) (a : Nat) : (d.count a).boot = d.boot := rfl
@[simp] theorem Dev.count_sdp (d : Dev) (a : Nat) : (d.count a).sdp = d.sdp := rfl
@[simp] theorem Dev.count_bel (d : Dev) (a : Nat) : (d.count a).bel = d.bel := rfl
@[simp] theorem Dev.count_rings (d : Dev) (a : Nat) : (d.count a).rings = d.rings := rfl
@[simp] theorem Dev.count_dbg (d : Dev) (a : Nat) : (d.count a).dbg = d.dbg := rfl
@[simp] theorem Dev.count_tap (d : Dev) (a : Nat) : (d.count a).tap = d.tap := rfl
@[simp] theorem Dev.count_depLogged (d : Dev) (a : Nat) : (d.count a).depLogged = d.depLogged := rfl
@[simp] theorem Dev.count_stk (d : Dev) (a : Nat) : (d.count a).stk = d.stk := rfl
@[simp] theorem Dev.count_staging (d : Dev) (a : Nat) : (d.count a).staging = d.staging := rfl
@[simp] theorem Dev.count_prt (d : Dev) (a : Nat) : (d.count a).prt = d.prt := rfl
@[simp] theorem Dev.count_ladders (d : Dev) (a : Nat) : (d.count a).ladders = d.ladders := rfl
@[simp] theorem Dev.count_stagingDamaged (d : Dev) (a : Nat) : (d.count a).stagingDamaged = d.stagingDamaged := rfl
@[simp] theorem Dev.count_flp (d : Dev) (a : Nat) : (d.count a).flp = d.flp := rfl
@[simp] theorem Dev.count_stl (d : Dev) (a : Nat) : (d.count a).stl = d.stl := rfl
@[simp] theorem Dev.count_coaches (d : Dev) (a : Nat) : (d.count a).coaches = d.coaches := rfl
@[simp] theorem Dev.count_scrub (d : Dev) (a : Nat) : (d.count a).scrub = d.scrub := rfl
@[simp] theorem Dev.count_twn (d : Dev) (a : Nat) : (d.count a).twn = d.twn := rfl
@[simp] theorem Dev.count_lines (d : Dev) (a : Nat) : (d.count a).lines = d.lines := rfl
@[simp] theorem Dev.count_sips (d : Dev) (a : Nat) : (d.count a).sips = d.sips := rfl
@[simp] theorem Dev.count_ctxs (d : Dev) (a : Nat) : (d.count a).ctxs = d.ctxs := rfl
@[simp] theorem Dev.count_trk (d : Dev) (a : Nat) : (d.count a).trk = d.trk := rfl
@[simp] theorem Dev.count_blt (d : Dev) (a : Nat) : (d.count a).blt = d.blt := rfl
@[simp] theorem Dev.count_tallies (d : Dev) (a : Nat) : (d.count a).tallies = d.tallies := rfl
@[simp] theorem Dev.count_ckg (d : Dev) (a : Nat) : (d.count a).ckg = d.ckg := rfl

/-! ### Counting by more -/

@[simp] theorem Dev.countBy_now (d : Dev) (a n : Nat) : (d.countBy a n).now = d.now := rfl
@[simp] theorem Dev.countBy_free (d : Dev) (a n : Nat) : (d.countBy a n).free = d.free := rfl
@[simp] theorem Dev.countBy_out (d : Dev) (a n : Nat) : (d.countBy a n).out = d.out := rfl
@[simp] theorem Dev.countBy_mem (d : Dev) (a n : Nat) : (d.countBy a n).mem = d.mem := rfl
@[simp] theorem Dev.countBy_damaged (d : Dev) (a n : Nat) : (d.countBy a n).damaged = d.damaged := rfl
@[simp] theorem Dev.countBy_weak (d : Dev) (a n : Nat) : (d.countBy a n).weak = d.weak := rfl
@[simp] theorem Dev.countBy_epochs (d : Dev) (a n : Nat) : (d.countBy a n).epochs = d.epochs := rfl
@[simp] theorem Dev.countBy_hostMem (d : Dev) (a n : Nat) : (d.countBy a n).hostMem = d.hostMem := rfl
@[simp] theorem Dev.countBy_flash (d : Dev) (a n : Nat) : (d.countBy a n).flash = d.flash := rfl
@[simp] theorem Dev.countBy_bridgeFails (d : Dev) (a n : Nat) : (d.countBy a n).bridgeFails = d.bridgeFails := rfl
@[simp] theorem Dev.countBy_fuses (d : Dev) (a n : Nat) : (d.countBy a n).fuses = d.fuses := rfl
@[simp] theorem Dev.countBy_wb (d : Dev) (a n : Nat) : (d.countBy a n).wb = d.wb := rfl
@[simp] theorem Dev.countBy_boot (d : Dev) (a n : Nat) : (d.countBy a n).boot = d.boot := rfl
@[simp] theorem Dev.countBy_sdp (d : Dev) (a n : Nat) : (d.countBy a n).sdp = d.sdp := rfl
@[simp] theorem Dev.countBy_bel (d : Dev) (a n : Nat) : (d.countBy a n).bel = d.bel := rfl
@[simp] theorem Dev.countBy_rings (d : Dev) (a n : Nat) : (d.countBy a n).rings = d.rings := rfl
@[simp] theorem Dev.countBy_dbg (d : Dev) (a n : Nat) : (d.countBy a n).dbg = d.dbg := rfl
@[simp] theorem Dev.countBy_tap (d : Dev) (a n : Nat) : (d.countBy a n).tap = d.tap := rfl
@[simp] theorem Dev.countBy_depLogged (d : Dev) (a n : Nat) : (d.countBy a n).depLogged = d.depLogged := rfl
@[simp] theorem Dev.countBy_stk (d : Dev) (a n : Nat) : (d.countBy a n).stk = d.stk := rfl
@[simp] theorem Dev.countBy_staging (d : Dev) (a n : Nat) : (d.countBy a n).staging = d.staging := rfl
@[simp] theorem Dev.countBy_prt (d : Dev) (a n : Nat) : (d.countBy a n).prt = d.prt := rfl
@[simp] theorem Dev.countBy_ladders (d : Dev) (a n : Nat) : (d.countBy a n).ladders = d.ladders := rfl
@[simp] theorem Dev.countBy_stagingDamaged (d : Dev) (a n : Nat) : (d.countBy a n).stagingDamaged = d.stagingDamaged := rfl
@[simp] theorem Dev.countBy_flp (d : Dev) (a n : Nat) : (d.countBy a n).flp = d.flp := rfl
@[simp] theorem Dev.countBy_stl (d : Dev) (a n : Nat) : (d.countBy a n).stl = d.stl := rfl
@[simp] theorem Dev.countBy_coaches (d : Dev) (a n : Nat) : (d.countBy a n).coaches = d.coaches := rfl
@[simp] theorem Dev.countBy_scrub (d : Dev) (a n : Nat) : (d.countBy a n).scrub = d.scrub := rfl
@[simp] theorem Dev.countBy_twn (d : Dev) (a n : Nat) : (d.countBy a n).twn = d.twn := rfl
@[simp] theorem Dev.countBy_lines (d : Dev) (a n : Nat) : (d.countBy a n).lines = d.lines := rfl
@[simp] theorem Dev.countBy_sips (d : Dev) (a n : Nat) : (d.countBy a n).sips = d.sips := rfl
@[simp] theorem Dev.countBy_ctxs (d : Dev) (a n : Nat) : (d.countBy a n).ctxs = d.ctxs := rfl
@[simp] theorem Dev.countBy_trk (d : Dev) (a n : Nat) : (d.countBy a n).trk = d.trk := rfl
@[simp] theorem Dev.countBy_blt (d : Dev) (a n : Nat) : (d.countBy a n).blt = d.blt := rfl
@[simp] theorem Dev.countBy_tallies (d : Dev) (a n : Nat) : (d.countBy a n).tallies = d.tallies := rfl
@[simp] theorem Dev.countBy_ckg (d : Dev) (a n : Nat) : (d.countBy a n).ckg = d.ckg := rfl

/-- Two operations that touch the register file alone do so together. -/
theorem Dev.regs_alone {d e f : Dev} (h : e = { d with regs := e.regs }) (h' : f = { e with regs := f.regs }) :
    f = { d with regs := f.regs } := h'.trans (by rw [h])

theorem Dev.setFld_eq (d : Dev) (a : Nat) (f : Fld) (x : Nat) : d.setFld a f x = { d with regs := (d.setFld a f x).regs } := rfl
theorem Dev.setFlag_eq (d : Dev) (a : Nat) (f : Fld) : d.setFlag a f = { d with regs := (d.setFlag a f).regs } := rfl
theorem Dev.count_eq (d : Dev) (a : Nat) : d.count a = { d with regs := (d.count a).regs } := rfl

/-- Refusing touches the register file alone. -/
theorem Dev.refuse_eq (d : Dev) (a r : Nat) : d.refuse a r = { d with regs := (d.refuse a r).regs } := by
  unfold Dev.refuse
  dsimp only
  split
  · exact Dev.regs_alone (e := d.setFlag (a + 4) Fld.REFUSED_MORE) (Dev.setFlag_eq _ _ _) (Dev.count_eq _ _)
  · exact Dev.regs_alone (Dev.regs_alone (Dev.setFlag_eq d _ _) (Dev.setFld_eq _ _ _ _)) (Dev.count_eq _ _)

/-! ### Refusing -/

@[simp] theorem Dev.refuse_now (d : Dev) (a r : Nat) : (d.refuse a r).now = d.now := by rw [Dev.refuse_eq]
@[simp] theorem Dev.refuse_free (d : Dev) (a r : Nat) : (d.refuse a r).free = d.free := by rw [Dev.refuse_eq]
@[simp] theorem Dev.refuse_out (d : Dev) (a r : Nat) : (d.refuse a r).out = d.out := by rw [Dev.refuse_eq]
@[simp] theorem Dev.refuse_mem (d : Dev) (a r : Nat) : (d.refuse a r).mem = d.mem := by rw [Dev.refuse_eq]
@[simp] theorem Dev.refuse_damaged (d : Dev) (a r : Nat) : (d.refuse a r).damaged = d.damaged := by rw [Dev.refuse_eq]
@[simp] theorem Dev.refuse_weak (d : Dev) (a r : Nat) : (d.refuse a r).weak = d.weak := by rw [Dev.refuse_eq]
@[simp] theorem Dev.refuse_epochs (d : Dev) (a r : Nat) : (d.refuse a r).epochs = d.epochs := by rw [Dev.refuse_eq]
@[simp] theorem Dev.refuse_hostMem (d : Dev) (a r : Nat) : (d.refuse a r).hostMem = d.hostMem := by rw [Dev.refuse_eq]
@[simp] theorem Dev.refuse_flash (d : Dev) (a r : Nat) : (d.refuse a r).flash = d.flash := by rw [Dev.refuse_eq]
@[simp] theorem Dev.refuse_bridgeFails (d : Dev) (a r : Nat) : (d.refuse a r).bridgeFails = d.bridgeFails := by rw [Dev.refuse_eq]
@[simp] theorem Dev.refuse_fuses (d : Dev) (a r : Nat) : (d.refuse a r).fuses = d.fuses := by rw [Dev.refuse_eq]
@[simp] theorem Dev.refuse_wb (d : Dev) (a r : Nat) : (d.refuse a r).wb = d.wb := by rw [Dev.refuse_eq]
@[simp] theorem Dev.refuse_boot (d : Dev) (a r : Nat) : (d.refuse a r).boot = d.boot := by rw [Dev.refuse_eq]
@[simp] theorem Dev.refuse_sdp (d : Dev) (a r : Nat) : (d.refuse a r).sdp = d.sdp := by rw [Dev.refuse_eq]
@[simp] theorem Dev.refuse_bel (d : Dev) (a r : Nat) : (d.refuse a r).bel = d.bel := by rw [Dev.refuse_eq]
@[simp] theorem Dev.refuse_rings (d : Dev) (a r : Nat) : (d.refuse a r).rings = d.rings := by rw [Dev.refuse_eq]
@[simp] theorem Dev.refuse_dbg (d : Dev) (a r : Nat) : (d.refuse a r).dbg = d.dbg := by rw [Dev.refuse_eq]
@[simp] theorem Dev.refuse_tap (d : Dev) (a r : Nat) : (d.refuse a r).tap = d.tap := by rw [Dev.refuse_eq]
@[simp] theorem Dev.refuse_depLogged (d : Dev) (a r : Nat) : (d.refuse a r).depLogged = d.depLogged := by rw [Dev.refuse_eq]
@[simp] theorem Dev.refuse_stk (d : Dev) (a r : Nat) : (d.refuse a r).stk = d.stk := by rw [Dev.refuse_eq]
@[simp] theorem Dev.refuse_staging (d : Dev) (a r : Nat) : (d.refuse a r).staging = d.staging := by rw [Dev.refuse_eq]
@[simp] theorem Dev.refuse_prt (d : Dev) (a r : Nat) : (d.refuse a r).prt = d.prt := by rw [Dev.refuse_eq]
@[simp] theorem Dev.refuse_ladders (d : Dev) (a r : Nat) : (d.refuse a r).ladders = d.ladders := by rw [Dev.refuse_eq]
@[simp] theorem Dev.refuse_stagingDamaged (d : Dev) (a r : Nat) : (d.refuse a r).stagingDamaged = d.stagingDamaged := by rw [Dev.refuse_eq]
@[simp] theorem Dev.refuse_flp (d : Dev) (a r : Nat) : (d.refuse a r).flp = d.flp := by rw [Dev.refuse_eq]
@[simp] theorem Dev.refuse_stl (d : Dev) (a r : Nat) : (d.refuse a r).stl = d.stl := by rw [Dev.refuse_eq]
@[simp] theorem Dev.refuse_coaches (d : Dev) (a r : Nat) : (d.refuse a r).coaches = d.coaches := by rw [Dev.refuse_eq]
@[simp] theorem Dev.refuse_scrub (d : Dev) (a r : Nat) : (d.refuse a r).scrub = d.scrub := by rw [Dev.refuse_eq]
@[simp] theorem Dev.refuse_twn (d : Dev) (a r : Nat) : (d.refuse a r).twn = d.twn := by rw [Dev.refuse_eq]
@[simp] theorem Dev.refuse_lines (d : Dev) (a r : Nat) : (d.refuse a r).lines = d.lines := by rw [Dev.refuse_eq]
@[simp] theorem Dev.refuse_sips (d : Dev) (a r : Nat) : (d.refuse a r).sips = d.sips := by rw [Dev.refuse_eq]
@[simp] theorem Dev.refuse_ctxs (d : Dev) (a r : Nat) : (d.refuse a r).ctxs = d.ctxs := by rw [Dev.refuse_eq]
@[simp] theorem Dev.refuse_trk (d : Dev) (a r : Nat) : (d.refuse a r).trk = d.trk := by rw [Dev.refuse_eq]
@[simp] theorem Dev.refuse_blt (d : Dev) (a r : Nat) : (d.refuse a r).blt = d.blt := by rw [Dev.refuse_eq]
@[simp] theorem Dev.refuse_tallies (d : Dev) (a r : Nat) : (d.refuse a r).tallies = d.tallies := by rw [Dev.refuse_eq]
@[simp] theorem Dev.refuse_ckg (d : Dev) (a r : Nat) : (d.refuse a r).ckg = d.ckg := by rw [Dev.refuse_eq]

/-- A plain write touches the register file alone. -/
theorem Dev.genericWrite_eq (d : Dev) (a v : Nat) : d.genericWrite a v = { d with regs := (d.genericWrite a v).regs } := by
  unfold Dev.genericWrite
  split <;> rfl

/-! ### A plain write -/

@[simp] theorem Dev.genericWrite_now (d : Dev) (a v : Nat) : (d.genericWrite a v).now = d.now := by rw [Dev.genericWrite_eq]
@[simp] theorem Dev.genericWrite_free (d : Dev) (a v : Nat) : (d.genericWrite a v).free = d.free := by rw [Dev.genericWrite_eq]
@[simp] theorem Dev.genericWrite_out (d : Dev) (a v : Nat) : (d.genericWrite a v).out = d.out := by rw [Dev.genericWrite_eq]
@[simp] theorem Dev.genericWrite_mem (d : Dev) (a v : Nat) : (d.genericWrite a v).mem = d.mem := by rw [Dev.genericWrite_eq]
@[simp] theorem Dev.genericWrite_damaged (d : Dev) (a v : Nat) : (d.genericWrite a v).damaged = d.damaged := by rw [Dev.genericWrite_eq]
@[simp] theorem Dev.genericWrite_weak (d : Dev) (a v : Nat) : (d.genericWrite a v).weak = d.weak := by rw [Dev.genericWrite_eq]
@[simp] theorem Dev.genericWrite_epochs (d : Dev) (a v : Nat) : (d.genericWrite a v).epochs = d.epochs := by rw [Dev.genericWrite_eq]
@[simp] theorem Dev.genericWrite_hostMem (d : Dev) (a v : Nat) : (d.genericWrite a v).hostMem = d.hostMem := by rw [Dev.genericWrite_eq]
@[simp] theorem Dev.genericWrite_flash (d : Dev) (a v : Nat) : (d.genericWrite a v).flash = d.flash := by rw [Dev.genericWrite_eq]
@[simp] theorem Dev.genericWrite_bridgeFails (d : Dev) (a v : Nat) : (d.genericWrite a v).bridgeFails = d.bridgeFails := by rw [Dev.genericWrite_eq]
@[simp] theorem Dev.genericWrite_fuses (d : Dev) (a v : Nat) : (d.genericWrite a v).fuses = d.fuses := by rw [Dev.genericWrite_eq]
@[simp] theorem Dev.genericWrite_wb (d : Dev) (a v : Nat) : (d.genericWrite a v).wb = d.wb := by rw [Dev.genericWrite_eq]
@[simp] theorem Dev.genericWrite_boot (d : Dev) (a v : Nat) : (d.genericWrite a v).boot = d.boot := by rw [Dev.genericWrite_eq]
@[simp] theorem Dev.genericWrite_sdp (d : Dev) (a v : Nat) : (d.genericWrite a v).sdp = d.sdp := by rw [Dev.genericWrite_eq]
@[simp] theorem Dev.genericWrite_bel (d : Dev) (a v : Nat) : (d.genericWrite a v).bel = d.bel := by rw [Dev.genericWrite_eq]
@[simp] theorem Dev.genericWrite_rings (d : Dev) (a v : Nat) : (d.genericWrite a v).rings = d.rings := by rw [Dev.genericWrite_eq]
@[simp] theorem Dev.genericWrite_dbg (d : Dev) (a v : Nat) : (d.genericWrite a v).dbg = d.dbg := by rw [Dev.genericWrite_eq]
@[simp] theorem Dev.genericWrite_tap (d : Dev) (a v : Nat) : (d.genericWrite a v).tap = d.tap := by rw [Dev.genericWrite_eq]
@[simp] theorem Dev.genericWrite_depLogged (d : Dev) (a v : Nat) : (d.genericWrite a v).depLogged = d.depLogged := by rw [Dev.genericWrite_eq]
@[simp] theorem Dev.genericWrite_stk (d : Dev) (a v : Nat) : (d.genericWrite a v).stk = d.stk := by rw [Dev.genericWrite_eq]
@[simp] theorem Dev.genericWrite_staging (d : Dev) (a v : Nat) : (d.genericWrite a v).staging = d.staging := by rw [Dev.genericWrite_eq]
@[simp] theorem Dev.genericWrite_prt (d : Dev) (a v : Nat) : (d.genericWrite a v).prt = d.prt := by rw [Dev.genericWrite_eq]
@[simp] theorem Dev.genericWrite_ladders (d : Dev) (a v : Nat) : (d.genericWrite a v).ladders = d.ladders := by rw [Dev.genericWrite_eq]
@[simp] theorem Dev.genericWrite_stagingDamaged (d : Dev) (a v : Nat) : (d.genericWrite a v).stagingDamaged = d.stagingDamaged := by rw [Dev.genericWrite_eq]
@[simp] theorem Dev.genericWrite_flp (d : Dev) (a v : Nat) : (d.genericWrite a v).flp = d.flp := by rw [Dev.genericWrite_eq]
@[simp] theorem Dev.genericWrite_stl (d : Dev) (a v : Nat) : (d.genericWrite a v).stl = d.stl := by rw [Dev.genericWrite_eq]
@[simp] theorem Dev.genericWrite_coaches (d : Dev) (a v : Nat) : (d.genericWrite a v).coaches = d.coaches := by rw [Dev.genericWrite_eq]
@[simp] theorem Dev.genericWrite_scrub (d : Dev) (a v : Nat) : (d.genericWrite a v).scrub = d.scrub := by rw [Dev.genericWrite_eq]
@[simp] theorem Dev.genericWrite_twn (d : Dev) (a v : Nat) : (d.genericWrite a v).twn = d.twn := by rw [Dev.genericWrite_eq]
@[simp] theorem Dev.genericWrite_lines (d : Dev) (a v : Nat) : (d.genericWrite a v).lines = d.lines := by rw [Dev.genericWrite_eq]
@[simp] theorem Dev.genericWrite_sips (d : Dev) (a v : Nat) : (d.genericWrite a v).sips = d.sips := by rw [Dev.genericWrite_eq]
@[simp] theorem Dev.genericWrite_ctxs (d : Dev) (a v : Nat) : (d.genericWrite a v).ctxs = d.ctxs := by rw [Dev.genericWrite_eq]
@[simp] theorem Dev.genericWrite_trk (d : Dev) (a v : Nat) : (d.genericWrite a v).trk = d.trk := by rw [Dev.genericWrite_eq]
@[simp] theorem Dev.genericWrite_blt (d : Dev) (a v : Nat) : (d.genericWrite a v).blt = d.blt := by rw [Dev.genericWrite_eq]
@[simp] theorem Dev.genericWrite_tallies (d : Dev) (a v : Nat) : (d.genericWrite a v).tallies = d.tallies := by rw [Dev.genericWrite_eq]
@[simp] theorem Dev.genericWrite_ckg (d : Dev) (a v : Nat) : (d.genericWrite a v).ckg = d.ckg := by rw [Dev.genericWrite_eq]

/-- A message touches the Bellboard, and of the register file the count of unrouted messages. -/
theorem Dev.message_eq (d : Dev) (n : Nat) (b : Bool) :
    d.message n b = { d with bel := (d.message n b).bel, regs := (d.message n b).regs } := by
  unfold Dev.message Dev.pendBy Dev.setBelClass
  dsimp only
  repeat' split
  all_goals rfl

/-! ### A message -/

@[simp] theorem Dev.message_now (d : Dev) (n : Nat) (b : Bool) : (d.message n b).now = d.now := by rw [Dev.message_eq]
@[simp] theorem Dev.message_free (d : Dev) (n : Nat) (b : Bool) : (d.message n b).free = d.free := by rw [Dev.message_eq]
@[simp] theorem Dev.message_out (d : Dev) (n : Nat) (b : Bool) : (d.message n b).out = d.out := by rw [Dev.message_eq]
@[simp] theorem Dev.message_mem (d : Dev) (n : Nat) (b : Bool) : (d.message n b).mem = d.mem := by rw [Dev.message_eq]
@[simp] theorem Dev.message_damaged (d : Dev) (n : Nat) (b : Bool) : (d.message n b).damaged = d.damaged := by rw [Dev.message_eq]
@[simp] theorem Dev.message_weak (d : Dev) (n : Nat) (b : Bool) : (d.message n b).weak = d.weak := by rw [Dev.message_eq]
@[simp] theorem Dev.message_epochs (d : Dev) (n : Nat) (b : Bool) : (d.message n b).epochs = d.epochs := by rw [Dev.message_eq]
@[simp] theorem Dev.message_hostMem (d : Dev) (n : Nat) (b : Bool) : (d.message n b).hostMem = d.hostMem := by rw [Dev.message_eq]
@[simp] theorem Dev.message_flash (d : Dev) (n : Nat) (b : Bool) : (d.message n b).flash = d.flash := by rw [Dev.message_eq]
@[simp] theorem Dev.message_bridgeFails (d : Dev) (n : Nat) (b : Bool) : (d.message n b).bridgeFails = d.bridgeFails := by rw [Dev.message_eq]
@[simp] theorem Dev.message_fuses (d : Dev) (n : Nat) (b : Bool) : (d.message n b).fuses = d.fuses := by rw [Dev.message_eq]
@[simp] theorem Dev.message_wb (d : Dev) (n : Nat) (b : Bool) : (d.message n b).wb = d.wb := by rw [Dev.message_eq]
@[simp] theorem Dev.message_boot (d : Dev) (n : Nat) (b : Bool) : (d.message n b).boot = d.boot := by rw [Dev.message_eq]
@[simp] theorem Dev.message_sdp (d : Dev) (n : Nat) (b : Bool) : (d.message n b).sdp = d.sdp := by rw [Dev.message_eq]
@[simp] theorem Dev.message_rings (d : Dev) (n : Nat) (b : Bool) : (d.message n b).rings = d.rings := by rw [Dev.message_eq]
@[simp] theorem Dev.message_dbg (d : Dev) (n : Nat) (b : Bool) : (d.message n b).dbg = d.dbg := by rw [Dev.message_eq]
@[simp] theorem Dev.message_tap (d : Dev) (n : Nat) (b : Bool) : (d.message n b).tap = d.tap := by rw [Dev.message_eq]
@[simp] theorem Dev.message_depLogged (d : Dev) (n : Nat) (b : Bool) : (d.message n b).depLogged = d.depLogged := by rw [Dev.message_eq]
@[simp] theorem Dev.message_stk (d : Dev) (n : Nat) (b : Bool) : (d.message n b).stk = d.stk := by rw [Dev.message_eq]
@[simp] theorem Dev.message_staging (d : Dev) (n : Nat) (b : Bool) : (d.message n b).staging = d.staging := by rw [Dev.message_eq]
@[simp] theorem Dev.message_prt (d : Dev) (n : Nat) (b : Bool) : (d.message n b).prt = d.prt := by rw [Dev.message_eq]
@[simp] theorem Dev.message_ladders (d : Dev) (n : Nat) (b : Bool) : (d.message n b).ladders = d.ladders := by rw [Dev.message_eq]
@[simp] theorem Dev.message_stagingDamaged (d : Dev) (n : Nat) (b : Bool) : (d.message n b).stagingDamaged = d.stagingDamaged := by rw [Dev.message_eq]
@[simp] theorem Dev.message_flp (d : Dev) (n : Nat) (b : Bool) : (d.message n b).flp = d.flp := by rw [Dev.message_eq]
@[simp] theorem Dev.message_stl (d : Dev) (n : Nat) (b : Bool) : (d.message n b).stl = d.stl := by rw [Dev.message_eq]
@[simp] theorem Dev.message_coaches (d : Dev) (n : Nat) (b : Bool) : (d.message n b).coaches = d.coaches := by rw [Dev.message_eq]
@[simp] theorem Dev.message_scrub (d : Dev) (n : Nat) (b : Bool) : (d.message n b).scrub = d.scrub := by rw [Dev.message_eq]
@[simp] theorem Dev.message_twn (d : Dev) (n : Nat) (b : Bool) : (d.message n b).twn = d.twn := by rw [Dev.message_eq]
@[simp] theorem Dev.message_lines (d : Dev) (n : Nat) (b : Bool) : (d.message n b).lines = d.lines := by rw [Dev.message_eq]
@[simp] theorem Dev.message_sips (d : Dev) (n : Nat) (b : Bool) : (d.message n b).sips = d.sips := by rw [Dev.message_eq]
@[simp] theorem Dev.message_ctxs (d : Dev) (n : Nat) (b : Bool) : (d.message n b).ctxs = d.ctxs := by rw [Dev.message_eq]
@[simp] theorem Dev.message_trk (d : Dev) (n : Nat) (b : Bool) : (d.message n b).trk = d.trk := by rw [Dev.message_eq]
@[simp] theorem Dev.message_blt (d : Dev) (n : Nat) (b : Bool) : (d.message n b).blt = d.blt := by rw [Dev.message_eq]
@[simp] theorem Dev.message_tallies (d : Dev) (n : Nat) (b : Bool) : (d.message n b).tallies = d.tallies := by rw [Dev.message_eq]
@[simp] theorem Dev.message_ckg (d : Dev) (n : Nat) (b : Bool) : (d.message n b).ckg = d.ckg := by rw [Dev.message_eq]

/-! ### Raising a source -/

@[simp] theorem Dev.raise_now (d : Dev) (n : Nat) : (d.raise n).now = d.now := by rw [Dev.raise, Dev.message_eq]
@[simp] theorem Dev.raise_free (d : Dev) (n : Nat) : (d.raise n).free = d.free := by rw [Dev.raise, Dev.message_eq]
@[simp] theorem Dev.raise_out (d : Dev) (n : Nat) : (d.raise n).out = d.out := by rw [Dev.raise, Dev.message_eq]
@[simp] theorem Dev.raise_mem (d : Dev) (n : Nat) : (d.raise n).mem = d.mem := by rw [Dev.raise, Dev.message_eq]
@[simp] theorem Dev.raise_damaged (d : Dev) (n : Nat) : (d.raise n).damaged = d.damaged := by rw [Dev.raise, Dev.message_eq]
@[simp] theorem Dev.raise_weak (d : Dev) (n : Nat) : (d.raise n).weak = d.weak := by rw [Dev.raise, Dev.message_eq]
@[simp] theorem Dev.raise_epochs (d : Dev) (n : Nat) : (d.raise n).epochs = d.epochs := by rw [Dev.raise, Dev.message_eq]
@[simp] theorem Dev.raise_hostMem (d : Dev) (n : Nat) : (d.raise n).hostMem = d.hostMem := by rw [Dev.raise, Dev.message_eq]
@[simp] theorem Dev.raise_flash (d : Dev) (n : Nat) : (d.raise n).flash = d.flash := by rw [Dev.raise, Dev.message_eq]
@[simp] theorem Dev.raise_bridgeFails (d : Dev) (n : Nat) : (d.raise n).bridgeFails = d.bridgeFails := by rw [Dev.raise, Dev.message_eq]
@[simp] theorem Dev.raise_fuses (d : Dev) (n : Nat) : (d.raise n).fuses = d.fuses := by rw [Dev.raise, Dev.message_eq]
@[simp] theorem Dev.raise_wb (d : Dev) (n : Nat) : (d.raise n).wb = d.wb := by rw [Dev.raise, Dev.message_eq]
@[simp] theorem Dev.raise_boot (d : Dev) (n : Nat) : (d.raise n).boot = d.boot := by rw [Dev.raise, Dev.message_eq]
@[simp] theorem Dev.raise_sdp (d : Dev) (n : Nat) : (d.raise n).sdp = d.sdp := by rw [Dev.raise, Dev.message_eq]
@[simp] theorem Dev.raise_rings (d : Dev) (n : Nat) : (d.raise n).rings = d.rings := by rw [Dev.raise, Dev.message_eq]
@[simp] theorem Dev.raise_dbg (d : Dev) (n : Nat) : (d.raise n).dbg = d.dbg := by rw [Dev.raise, Dev.message_eq]
@[simp] theorem Dev.raise_tap (d : Dev) (n : Nat) : (d.raise n).tap = d.tap := by rw [Dev.raise, Dev.message_eq]
@[simp] theorem Dev.raise_depLogged (d : Dev) (n : Nat) : (d.raise n).depLogged = d.depLogged := by rw [Dev.raise, Dev.message_eq]
@[simp] theorem Dev.raise_stk (d : Dev) (n : Nat) : (d.raise n).stk = d.stk := by rw [Dev.raise, Dev.message_eq]
@[simp] theorem Dev.raise_staging (d : Dev) (n : Nat) : (d.raise n).staging = d.staging := by rw [Dev.raise, Dev.message_eq]
@[simp] theorem Dev.raise_prt (d : Dev) (n : Nat) : (d.raise n).prt = d.prt := by rw [Dev.raise, Dev.message_eq]
@[simp] theorem Dev.raise_ladders (d : Dev) (n : Nat) : (d.raise n).ladders = d.ladders := by rw [Dev.raise, Dev.message_eq]
@[simp] theorem Dev.raise_stagingDamaged (d : Dev) (n : Nat) : (d.raise n).stagingDamaged = d.stagingDamaged := by rw [Dev.raise, Dev.message_eq]
@[simp] theorem Dev.raise_flp (d : Dev) (n : Nat) : (d.raise n).flp = d.flp := by rw [Dev.raise, Dev.message_eq]
@[simp] theorem Dev.raise_stl (d : Dev) (n : Nat) : (d.raise n).stl = d.stl := by rw [Dev.raise, Dev.message_eq]
@[simp] theorem Dev.raise_coaches (d : Dev) (n : Nat) : (d.raise n).coaches = d.coaches := by rw [Dev.raise, Dev.message_eq]
@[simp] theorem Dev.raise_scrub (d : Dev) (n : Nat) : (d.raise n).scrub = d.scrub := by rw [Dev.raise, Dev.message_eq]
@[simp] theorem Dev.raise_twn (d : Dev) (n : Nat) : (d.raise n).twn = d.twn := by rw [Dev.raise, Dev.message_eq]
@[simp] theorem Dev.raise_lines (d : Dev) (n : Nat) : (d.raise n).lines = d.lines := by rw [Dev.raise, Dev.message_eq]
@[simp] theorem Dev.raise_sips (d : Dev) (n : Nat) : (d.raise n).sips = d.sips := by rw [Dev.raise, Dev.message_eq]
@[simp] theorem Dev.raise_ctxs (d : Dev) (n : Nat) : (d.raise n).ctxs = d.ctxs := by rw [Dev.raise, Dev.message_eq]
@[simp] theorem Dev.raise_trk (d : Dev) (n : Nat) : (d.raise n).trk = d.trk := by rw [Dev.raise, Dev.message_eq]
@[simp] theorem Dev.raise_blt (d : Dev) (n : Nat) : (d.raise n).blt = d.blt := by rw [Dev.raise, Dev.message_eq]
@[simp] theorem Dev.raise_tallies (d : Dev) (n : Nat) : (d.raise n).tallies = d.tallies := by rw [Dev.raise, Dev.message_eq]
@[simp] theorem Dev.raise_ckg (d : Dev) (n : Nat) : (d.raise n).ckg = d.ckg := by rw [Dev.raise, Dev.message_eq]

theorem Dev.raiseIf_eq (d : Dev) (b : Bool) (n : Nat) :
    d.raiseIf b n = { d with bel := (d.raiseIf b n).bel, regs := (d.raiseIf b n).regs } := by
  unfold Dev.raiseIf
  split
  · rw [Dev.raise, Dev.message_eq]
  · rfl

/-! ### Raising a source under a condition -/

@[simp] theorem Dev.raiseIf_now (d : Dev) (b : Bool) (n : Nat) : (d.raiseIf b n).now = d.now := by rw [Dev.raiseIf_eq]
@[simp] theorem Dev.raiseIf_free (d : Dev) (b : Bool) (n : Nat) : (d.raiseIf b n).free = d.free := by rw [Dev.raiseIf_eq]
@[simp] theorem Dev.raiseIf_out (d : Dev) (b : Bool) (n : Nat) : (d.raiseIf b n).out = d.out := by rw [Dev.raiseIf_eq]
@[simp] theorem Dev.raiseIf_mem (d : Dev) (b : Bool) (n : Nat) : (d.raiseIf b n).mem = d.mem := by rw [Dev.raiseIf_eq]
@[simp] theorem Dev.raiseIf_damaged (d : Dev) (b : Bool) (n : Nat) : (d.raiseIf b n).damaged = d.damaged := by rw [Dev.raiseIf_eq]
@[simp] theorem Dev.raiseIf_weak (d : Dev) (b : Bool) (n : Nat) : (d.raiseIf b n).weak = d.weak := by rw [Dev.raiseIf_eq]
@[simp] theorem Dev.raiseIf_epochs (d : Dev) (b : Bool) (n : Nat) : (d.raiseIf b n).epochs = d.epochs := by rw [Dev.raiseIf_eq]
@[simp] theorem Dev.raiseIf_hostMem (d : Dev) (b : Bool) (n : Nat) : (d.raiseIf b n).hostMem = d.hostMem := by rw [Dev.raiseIf_eq]
@[simp] theorem Dev.raiseIf_flash (d : Dev) (b : Bool) (n : Nat) : (d.raiseIf b n).flash = d.flash := by rw [Dev.raiseIf_eq]
@[simp] theorem Dev.raiseIf_bridgeFails (d : Dev) (b : Bool) (n : Nat) : (d.raiseIf b n).bridgeFails = d.bridgeFails := by rw [Dev.raiseIf_eq]
@[simp] theorem Dev.raiseIf_fuses (d : Dev) (b : Bool) (n : Nat) : (d.raiseIf b n).fuses = d.fuses := by rw [Dev.raiseIf_eq]
@[simp] theorem Dev.raiseIf_wb (d : Dev) (b : Bool) (n : Nat) : (d.raiseIf b n).wb = d.wb := by rw [Dev.raiseIf_eq]
@[simp] theorem Dev.raiseIf_boot (d : Dev) (b : Bool) (n : Nat) : (d.raiseIf b n).boot = d.boot := by rw [Dev.raiseIf_eq]
@[simp] theorem Dev.raiseIf_sdp (d : Dev) (b : Bool) (n : Nat) : (d.raiseIf b n).sdp = d.sdp := by rw [Dev.raiseIf_eq]
@[simp] theorem Dev.raiseIf_rings (d : Dev) (b : Bool) (n : Nat) : (d.raiseIf b n).rings = d.rings := by rw [Dev.raiseIf_eq]
@[simp] theorem Dev.raiseIf_dbg (d : Dev) (b : Bool) (n : Nat) : (d.raiseIf b n).dbg = d.dbg := by rw [Dev.raiseIf_eq]
@[simp] theorem Dev.raiseIf_tap (d : Dev) (b : Bool) (n : Nat) : (d.raiseIf b n).tap = d.tap := by rw [Dev.raiseIf_eq]
@[simp] theorem Dev.raiseIf_depLogged (d : Dev) (b : Bool) (n : Nat) : (d.raiseIf b n).depLogged = d.depLogged := by rw [Dev.raiseIf_eq]
@[simp] theorem Dev.raiseIf_stk (d : Dev) (b : Bool) (n : Nat) : (d.raiseIf b n).stk = d.stk := by rw [Dev.raiseIf_eq]
@[simp] theorem Dev.raiseIf_staging (d : Dev) (b : Bool) (n : Nat) : (d.raiseIf b n).staging = d.staging := by rw [Dev.raiseIf_eq]
@[simp] theorem Dev.raiseIf_prt (d : Dev) (b : Bool) (n : Nat) : (d.raiseIf b n).prt = d.prt := by rw [Dev.raiseIf_eq]
@[simp] theorem Dev.raiseIf_ladders (d : Dev) (b : Bool) (n : Nat) : (d.raiseIf b n).ladders = d.ladders := by rw [Dev.raiseIf_eq]
@[simp] theorem Dev.raiseIf_stagingDamaged (d : Dev) (b : Bool) (n : Nat) : (d.raiseIf b n).stagingDamaged = d.stagingDamaged := by rw [Dev.raiseIf_eq]
@[simp] theorem Dev.raiseIf_flp (d : Dev) (b : Bool) (n : Nat) : (d.raiseIf b n).flp = d.flp := by rw [Dev.raiseIf_eq]
@[simp] theorem Dev.raiseIf_stl (d : Dev) (b : Bool) (n : Nat) : (d.raiseIf b n).stl = d.stl := by rw [Dev.raiseIf_eq]
@[simp] theorem Dev.raiseIf_coaches (d : Dev) (b : Bool) (n : Nat) : (d.raiseIf b n).coaches = d.coaches := by rw [Dev.raiseIf_eq]
@[simp] theorem Dev.raiseIf_scrub (d : Dev) (b : Bool) (n : Nat) : (d.raiseIf b n).scrub = d.scrub := by rw [Dev.raiseIf_eq]
@[simp] theorem Dev.raiseIf_twn (d : Dev) (b : Bool) (n : Nat) : (d.raiseIf b n).twn = d.twn := by rw [Dev.raiseIf_eq]
@[simp] theorem Dev.raiseIf_lines (d : Dev) (b : Bool) (n : Nat) : (d.raiseIf b n).lines = d.lines := by rw [Dev.raiseIf_eq]
@[simp] theorem Dev.raiseIf_sips (d : Dev) (b : Bool) (n : Nat) : (d.raiseIf b n).sips = d.sips := by rw [Dev.raiseIf_eq]
@[simp] theorem Dev.raiseIf_ctxs (d : Dev) (b : Bool) (n : Nat) : (d.raiseIf b n).ctxs = d.ctxs := by rw [Dev.raiseIf_eq]
@[simp] theorem Dev.raiseIf_trk (d : Dev) (b : Bool) (n : Nat) : (d.raiseIf b n).trk = d.trk := by rw [Dev.raiseIf_eq]
@[simp] theorem Dev.raiseIf_blt (d : Dev) (b : Bool) (n : Nat) : (d.raiseIf b n).blt = d.blt := by rw [Dev.raiseIf_eq]
@[simp] theorem Dev.raiseIf_tallies (d : Dev) (b : Bool) (n : Nat) : (d.raiseIf b n).tallies = d.tallies := by rw [Dev.raiseIf_eq]
@[simp] theorem Dev.raiseIf_ckg (d : Dev) (b : Bool) (n : Nat) : (d.raiseIf b n).ckg = d.ckg := by rw [Dev.raiseIf_eq]

/-! ### The register file after each operation -/

theorem Dev.reg_congr {d e : Dev} (h : d.regs = e.regs) (k : Nat) : d.reg k = e.reg k := by rw [Dev.reg, Dev.reg, h]

@[simp] theorem Dev.quiet_reg (d : Dev) (k : Nat) : d.quiet.reg k = d.reg k := rfl
@[simp] theorem Dev.latchFault_reg (d : Dev) (k : Nat) : d.latchFault.reg k = d.reg k := rfl
@[simp] theorem Dev.extest_reg (d : Dev) (k : Nat) : d.extest.reg k = d.reg k := Dev.reg_congr d.extest_regs k
@[simp] theorem Dev.emit_reg (d : Dev) (o : Out) (k : Nat) : (d.emit o).reg k = d.reg k := rfl
@[simp] theorem Dev.tickFree_reg (d : Dev) (k : Nat) : d.tickFree.reg k = d.reg k := rfl

theorem Dev.reg_lt (d : Dev) (k : Nat) : d.reg k < 2 ^ 32 := BitVec.isLt _

/-- A register reads after a store what was stored in it, and every other register reads as before. -/
theorem Dev.setReg_reg (d : Dev) (a v k : Nat) : (d.setReg a v).reg k = if k = a then v % 2 ^ 32 else d.reg k := by
  unfold Dev.reg Dev.setReg
  dsimp only
  rw [Tab.get_set]
  split
  · exact BitVec.toNat_ofNat _ _
  · rfl

theorem Dev.setReg_reg_other (d : Dev) {a k : Nat} (v : Nat) (h : k ≠ a) : (d.setReg a v).reg k = d.reg k := by
  rw [Dev.setReg_reg, if_neg h]

theorem Dev.setFld_reg_other (d : Dev) {a k : Nat} (f : Fld) (x : Nat) (h : k ≠ a) : (d.setFld a f x).reg k = d.reg k :=
  d.setReg_reg_other _ h

theorem Dev.setFlag_reg_other (d : Dev) {a k : Nat} (f : Fld) (h : k ≠ a) : (d.setFlag a f).reg k = d.reg k :=
  d.setReg_reg_other _ h

theorem Dev.countBy_reg (d : Dev) (a n k : Nat) :
    (d.countBy a n).reg k = if k = a then min (d.reg a + n) 0xFFFFFFFF else d.reg k := by
  rw [Dev.countBy, Dev.setReg_reg]
  split
  · exact Nat.mod_eq_of_lt (by omega)
  · rfl

/-- A count rises by one and stays at its ceiling (R46). -/
theorem Dev.count_reg (d : Dev) (a k : Nat) :
    (d.count a).reg k = if k = a then min (d.reg a + 1) 0xFFFFFFFF else d.reg k := d.countBy_reg a 1 k

theorem Dev.count_reg_other (d : Dev) {a k : Nat} (h : k ≠ a) : (d.count a).reg k = d.reg k := by
  rw [Dev.count_reg, if_neg h]

/-- A refusal touches the `REFUSED` register of its block and the count beside it. -/
theorem Dev.refuse_reg_other (d : Dev) {a k : Nat} (r : Nat) (h : k ≠ a + 4) (h' : k ≠ a + 8) :
    (d.refuse a r).reg k = d.reg k := by
  unfold Dev.refuse
  dsimp only
  rw [Dev.count_reg_other _ h']
  split
  · exact d.setFlag_reg_other _ h
  · rw [Dev.setFld_reg_other _ _ _ h, Dev.setFlag_reg_other _ _ h]

/-- A message leaves every register but the count of unrouted messages. -/
theorem Dev.message_reg_other (d : Dev) {k : Nat} (n : Nat) (b : Bool) (h : k ≠ Reg.BEL_UNROUTED_CNT) :
    (d.message n b).reg k = d.reg k := by
  unfold Dev.message Dev.pendBy Dev.setBelClass
  dsimp only
  repeat' split
  all_goals first | rfl | exact Dev.count_reg_other _ h

theorem Dev.raise_reg_other (d : Dev) {k : Nat} (n : Nat) (h : k ≠ Reg.BEL_UNROUTED_CNT) :
    (d.raise n).reg k = d.reg k := d.message_reg_other n false h

theorem Dev.raiseIf_reg_other (d : Dev) {k : Nat} (b : Bool) (n : Nat) (h : k ≠ Reg.BEL_UNROUTED_CNT) :
    (d.raiseIf b n).reg k = d.reg k := by
  unfold Dev.raiseIf
  split
  · exact d.raise_reg_other n h
  · rfl

/-! ### Fields -/

/-- Bits [hi:lo] of a number after they were replaced are the low bits of what replaced them. -/
theorem Fld.get_put_same (f : Fld) (v x : Nat) : f.get (f.put v x) = x % 2 ^ (f.hi + 1 - f.lo) := by
  unfold Fld.put Fld.get bits
  generalize hw : f.hi + 1 - f.lo = w
  have hp : 0 < 2 ^ f.lo := Nat.two_pow_pos _
  have hW : 0 < 2 ^ w := Nat.two_pow_pos _
  set P := 2 ^ f.lo
  set Q := 2 ^ w
  have h1 : v = v % P + P * (v / P) := (Nat.mod_add_div v P).symm
  have h2 : v / P = v / P % Q + Q * (v / P / Q) := (Nat.mod_add_div _ Q).symm
  have h3 : v - v / P % Q * P + x % Q * P = v % P + P * (x % Q + Q * (v / P / Q)) := by
    have : v = v % P + P * (v / P % Q) + P * (Q * (v / P / Q)) := by
      conv_lhs => rw [h1, h2]
      ring
    have e : v / P % Q * P = P * (v / P % Q) := Nat.mul_comm _ _
    have e' : x % Q * P = P * (x % Q) := Nat.mul_comm _ _
    rw [e, e', Nat.mul_add]
    omega
  rw [h3, Nat.add_mul_div_left _ _ hp, Nat.div_eq_of_lt (Nat.mod_lt v hp), Nat.zero_add, Nat.add_mul_mod_self_left,
    Nat.mod_mod]

theorem Fld.put_lt (f : Fld) (v x : Nat) (h : f.lo ≤ f.hi) (hi : f.hi < 32) (hv : v < 2 ^ 32) : f.put v x < 2 ^ 32 := by
  unfold Fld.put Fld.get bits
  have hs : f.lo + (f.hi + 1 - f.lo) = f.hi + 1 := Nat.add_sub_of_le (Nat.le_succ_of_le h)
  have hpow : 2 ^ f.lo * 2 ^ (f.hi + 1 - f.lo) = 2 ^ (f.hi + 1) := by rw [← Nat.pow_add, hs]
  have hp : 0 < 2 ^ f.lo := Nat.two_pow_pos _
  have hW : 0 < 2 ^ (f.hi + 1 - f.lo) := Nat.two_pow_pos _
  have hdvd : 2 ^ (f.hi + 1) ∣ 2 ^ 32 := Nat.pow_dvd_pow 2 (by omega)
  obtain ⟨c, hc⟩ := hdvd
  set P := 2 ^ f.lo
  set Q := 2 ^ (f.hi + 1 - f.lo)
  have h1 : v = v % P + P * (v / P) := (Nat.mod_add_div v P).symm
  have h2 : v / P = v / P % Q + Q * (v / P / Q) := (Nat.mod_add_div _ Q).symm
  have h4 : v = v % P + P * (v / P % Q) + P * Q * (v / P / Q) := by
    conv_lhs => rw [h1, h2]
    ring
  have h5 : v / P / Q < c := by
    rw [Nat.div_div_eq_div_mul, hpow]
    exact Nat.div_lt_of_lt_mul (by rw [← hc]; exact hv)
  have h6 : x % Q + 1 ≤ Q := Nat.mod_lt _ hW
  have h7 : P * (x % Q) + P ≤ P * Q := by
    calc P * (x % Q) + P = P * (x % Q + 1) := by ring
      _ ≤ P * Q := Nat.mul_le_mul_left _ h6
  have h8 : P * Q * (v / P / Q) + P * Q ≤ 2 ^ 32 := by
    rw [hc, ← hpow]
    calc P * Q * (v / P / Q) + P * Q = P * Q * (v / P / Q + 1) := by ring
      _ ≤ P * Q * c := Nat.mul_le_mul_left _ h5
  have e : v / P % Q * P = P * (v / P % Q) := Nat.mul_comm _ _
  have e' : x % Q * P = P * (x % Q) := Nat.mul_comm _ _
  have h9 := Nat.mod_lt v hp
  rw [e, e']
  omega

/-- A field reads after a store what was stored in it. -/
theorem Dev.setFld_fld_same (d : Dev) (a : Nat) (f : Fld) (x : Nat) (h : f.lo ≤ f.hi) (hi : f.hi < 32) :
    (d.setFld a f x).fld a f = x % 2 ^ (f.hi + 1 - f.lo) := by
  rw [Dev.fld, Dev.setFld, Dev.setReg_reg, if_pos rfl,
    Nat.mod_eq_of_lt (Fld.put_lt f _ _ h hi (d.reg_lt a)), Fld.get_put_same f _ _]

/-- A flag reads 1 once set (R44). -/
theorem Dev.setFlag_flag_same (d : Dev) (a : Nat) (f : Fld) (h : f.lo = f.hi) (hi : f.hi < 32) :
    (d.setFlag a f).flag a f = true := by
  rw [Dev.flag, Dev.setFlag, Dev.setFld_fld_same _ _ _ _ (by omega) hi]
  have : f.hi + 1 - f.lo = 1 := by omega
  rw [this]
  rfl

end Sys2Proof.Machine
end

