-- ==== Sys2Proof/Tests/Slice0.lean ====
section
/-! SUPPORT. Small tests of the model: ill-formed commands are refused, a few commands on small devices do what the spec says, and for every
statement concrete states and operands meet the hypotheses of its clauses together. -/

namespace Sys2Proof.Tests

set_option Elab.async false

open Sys2Proof.Machine

/-! ### Devices for the tests -/

/-- A device that has booted with a waybill loaded: every optional block, ports of each role (Coach 0 and 5, capture 1, stream 2 ...), one
region, rings of each class, one partition, one route. -/
def base : Dev :=
  { now := 1000
    boot := { cal := true, ckg := true, mem := true, wbl := true, inReset := none }
    wb := { loaded := true, blocks := 127, ports := [1, 2, 3, 4, 3, 4, 1] ++ List.replicate 121 0, canvasW := 4096, canvasH := 2160
            regions := [⟨0, 0, 4096, 2160, 1⟩]
            rings := [⟨0, 2, 1, 10⟩, ⟨2, 2, 2, 10⟩, ⟨4, 2, 3, 10⟩, ⟨6, 2, 4, 10⟩, ⟨8, 2, 5, 10⟩, ⟨10, 2, 6, 10⟩, ⟨12, 2, 7, 10⟩,
              ⟨14, 2, 8, 10⟩, ⟨16, 2, 9, 10⟩, ⟨18, 2, 0, 10⟩]
            parts := [⟨1, 4, 1⟩], routes := [⟨0, 0x8000, 0, false⟩], stage := 7, seed := 5 } }

def withSdp (f : Sdp → Sdp) (d : Dev) : Dev := { d with sdp := f d.sdp }
def withBoot (f : Boot → Boot) (d : Dev) : Dev := { d with boot := f d.boot }
def withWb (f : Waybill → Waybill) (d : Dev) : Dev := { d with wb := f d.wb }
def withStk (f : Stk → Stk) (d : Dev) : Dev := { d with stk := f d.stk }
def withFlp (f : Flp → Flp) (d : Dev) : Dev := { d with flp := f d.flp }
def withTwn (f : Twn → Twn) (d : Dev) : Dev := { d with twn := f d.twn }
def withTrk (f : Trk → Trk) (d : Dev) : Dev := { d with trk := f d.trk }
def withBel (f : Bel → Bel) (d : Dev) : Dev := { d with bel := f d.bel }
def withRuns (rs : List StrokeRun) (js : List Job) (d : Dev) : Dev := { d with prt := { d.prt with strokes := rs, jobs := js } }

def inPower (n : Nat) : Dev → Dev := withSdp fun x => { x with power := n }
def running : Dev → Dev := withStk fun x => { x with timing := 1, running := true, stroke := 5 }

/-- In a pairing state, acting as the secondary or not. -/
def inTwin (state : Nat) (secondary : Bool) (d : Dev) : Dev :=
  (d.setFld Reg.TWN_STATUS Fld.TWN_STATUS_STATE state).setFld Reg.TWN_STATUS Fld.TWN_STATUS_ACTING (if secondary then 1 else 0)

/-- With a ring enabled at 1 MiB, holding these entries. -/
def withRing (r : Nat) (es : List (List Nat)) (d : Dev) : Dev :=
  let d := (d.setReg (Reg.RNG_RS_CTRL r) (10 * 2 ^ 22 + 4 * 2 ^ 16 + 1)).setReg (Reg.RNG_RS_BASE_LO r) 0x100000
  es.zipIdx.foldl (fun d x => d.memWrite (0x100000 + 64 * x.2) (wordBytes (x.1 ++ List.replicate (16 - x.1.length) 0)))
    (d.setReg (Reg.RNG_RS_PROD r) es.length)

def noWaybill : Dev := withWb (fun w => { w with loaded := false }) base
def inRest : Dev := inPower 3 base
def sealedDevice : Dev := withSdp (fun x => { x with sec := 1 }) base

def normal (d : Dev) (rs : List Nat) : Bool := rs.all fun r => decide (d.access r = .normal r)
/-- The same for a register of a port, whose page is its role's. -/
def normalPort (d : Dev) (r : Nat) : Bool := decide (d.access (r % 0x10000000) = .normal r)

/-! ### Ill-formed commands -/

theorem test_ill_formed_offsets :
    Instr.wellFormed (.registerWrite 2 0) = false ∧ Instr.wellFormed (.registerWrite (2 ^ 26) 0) = false ∧
    Instr.wellFormed (.registerWrite (2 ^ 26 - 4) 0) = true ∧
    Instr.wellFormed (.farAccessTimeout 6 true) = false ∧ Instr.wellFormed (.farAccessTimeout (2 ^ 26) false) = false ∧
    Instr.wellFormed (.dbgacc 1 none) = false ∧ Instr.wellFormed (.dbgacc (2 ^ 26) none) = false := by decide

theorem test_ill_formed_bar2 :
    Instr.wellFormed (.bar2Read 0 0 []) = false ∧ Instr.wellFormed (.bar2Read (2 ^ 34) 1 []) = false ∧
    Instr.wellFormed (.bar2Read (2 ^ 34 - 1) 1 []) = true ∧
    Instr.wellFormed (.bar2Write 0 [] []) = false ∧ Instr.wellFormed (.bar2Write (2 ^ 34) [1] []) = false := by decide

theorem test_ill_formed_lengths :
    Instr.wellFormed (.sensorSample (List.replicate 15 0) (List.replicate 8 0)) = false ∧
    Instr.wellFormed (.sensorSample (List.replicate 16 0) (List.replicate 9 0)) = false ∧
    Instr.wellFormed (.idle 0 16381) = false ∧ Instr.wellFormed (.idle 0 16380) = true ∧
    [Instr.status 0 0 (List.replicate 256 0) .good true, .alarm 0 0 (List.replicate 256 0) .good true,
      .hello 0 0 (List.replicate 256 0) .good true, .ack 0 0 (List.replicate 256 0) .good true].all (fun i => !i.wellFormed) = true := by
  decide +kernel

def longPayload : List Byte := List.replicate 4097 0
def twinHead : TwinHead := { lane := 2, corr := 3, uncorr := 1, seq := 0, ack := 0xFFFFFFFF }
def trunkHead (port : Fin 128) (seq sseq : Word) (origin : Byte) (second : Bool) : TrunkHead :=
  { port := port, corr := 1, uncorr := 2, seq := seq, ack := 0xFFFFFFFF, origin := origin, sseq := sseq, second := second }

theorem test_ill_formed_twin_payloads :
    let h := twinHead
    let p := longPayload
    [Instr.twinAuth h 0 p, .twinTag h 0 p, .part h 0 p, .heartbeat h 0 p true, .twinSync h 0 p 0, .pcv h 0 p, .resolve h 0 p,
      .repairReq h 0 p false true, .repairData h 0 p .good, .repairNak h 0 p, .twinIdle h 0 p].all (fun i => !i.wellFormed) = true := by
  decide +kernel

theorem test_ill_formed_trunk_payloads :
    let h := trunkHead 3 0 0 0 false
    let p := longPayload
    [Instr.trunkAuth h 0 p, .trunkTag h 0 p, .trunkSync h 0 p 0, .trunkTick h 0 p 0 0, .prepared h 0 p, .trunkCommit h 0 p, .abort h 0 p,
      .trunkReady h 0 p, .trunkDecision h 0 p, .applied h 0 p, .released h 0 p, .rollup h 0 p, .doorbell h 0 p, .leave h 0 p,
      .trunkIdle h 0 p].all (fun i => !i.wellFormed) = true := by decide +kernel

/-- No word spells a command (the table gives no bits). -/
theorem test_no_word_decodes : decodeTableWord 32 0x6A6A = none ∧ (State.reset.withFetchWord 32 0x6A6A).pending = [] := by decide

/-! ### One step on a small device -/

/-- What one command leaves. -/
def after (c : Instr) (d : Dev) : Dev :=
  match exec c ⟨[], d⟩ with
  | .next t => t.dev
  | _ => d

/-- IDENT reads 3812h (Table 2.17); the PEC of a message B8h 01h B9h 12h 38h, by the CRC-8 x^8 + x^2 + x + 1, is CBh (log 10). -/
theorem test_ident : (after (.ident false) base).out = [.smbus 0x3812 none] ∧
    (after (.ident true) base).out = [.smbus 0x3812 (some 0xCB)] := by decide +kernel

/-- R200, R201: the levels of Table 9.1, and the lowest coefficients of the generator polynomial of RS(544,514) (IEEE 802.3). -/
theorem test_codewords : pam4Levels [0, 0, 1, 0, 1, 1, 0, 1] = [0, 1, 2, 3] ∧ rsGenerator.take 6 = [523, 834, 128, 158, 185, 127] := by
  decide +kernel

/-- R32: a base of 112 is taken, one of 113 is not and counts as refused. -/
theorem test_aperture : (after (.glbAperture 112) base).reg Reg.GLB_APERTURE = 112 ∧ (after (.glbAperture 113) base).reg Reg.GLB_APERTURE = 0 ∧
    (after (.glbAperture 113) base).reg Reg.GLB_REFUSED_CNT = 1 := by decide +kernel

/-- R53: 0x6A6A arms; 0x9595 while not armed is refused. -/
theorem test_reset_key : (after .resetKeyArm base).flag Reg.GLB_RESET_KEY Fld.GLB_RESET_KEY_ARMED = true ∧
    (after (.resetKeyConfirm 0x9595) base).fld Reg.GLB_REFUSED Fld.REFUSED_REASON = 2 := by decide +kernel

/-- R32, R34: a write of two bytes at an offset is read there, in order. -/
theorem test_bar2 : (after (.bar2Read 4 2 []) (after (.bar2Write 4 [7, 9] []) base)).out = [.bytes false [7, 9]] := by decide +kernel

/-- R5: a write of a register is read back; a read-only one keeps its value. -/
theorem test_register_write : (after (.registerWrite (Reg.GLB_SCRATCH 3) 0x12345678) base).reg (Reg.GLB_SCRATCH 3) = 0x12345678 ∧
    (after (.registerWrite (Reg.SDP_TEMP 0) 5) base).reg (Reg.SDP_TEMP 0) = base.reg (Reg.SDP_TEMP 0) := by decide +kernel

/-- R433: mode 3 is refused with code 2. -/
theorem test_dbg_mode : (after (.dbgMode 3) base).fld Reg.DBG_REFUSED Fld.REFUSED_REASON = 2 ∧ (after (.dbgMode 1) base).reg Reg.DBG_MODE = 1 := by
  decide +kernel

/-- R85: a tick begins the next stroke, and the last stroke number wraps at 48 bits. -/
theorem test_tick_wraps : (after (.tick 0) (withStk (fun x => { x with stroke := 2 ^ 48 - 1 }) (running base))).stk.stroke = 0 := by decide +kernel

/-- R394: a message pends its source, and its count stays at 65,535. -/
theorem test_doorbell_message : ((after (.doorbellMessage 0x7001 false .none) base).belPending 0x7001).map (·.count) = some 1 ∧
    ((after (.doorbellMessage 0x7001 false .none) (withBel (fun b => { b with pend := [⟨0x7001, 65535, 0⟩] }) base)).belPending 0x7001).map
      (·.count) = some 65535 := by decide +kernel

/-- R174: a fence advances across its wrap, and does not go back. -/
theorem test_fence : (after (.fenceWrite 3 1) (base.setReg (Reg.FLP_FENCE 3) 0xFFFFFFFF)).reg (Reg.FLP_FENCE 3) = 1 ∧
    (after (.fenceWrite 3 4) (base.setReg (Reg.FLP_FENCE 3) 5)).reg (Reg.FLP_FENCE 3) = 5 := by decide +kernel

/-! ### Witnesses: concrete states that meet the hypotheses of the statements -/

theorem witness_StepRunsTheFrontCommand : (⟨[.tick 0, .ident true], base⟩ : State).pending = .tick 0 :: [.ident true] := rfl
theorem witness_EveryStepCompletes : (⟨[], base⟩ : State).pending = [] := rfl

theorem witness_StepsKeepTheDeviceSound : base.Sound ∧ ∃ t, step ⟨[.ident true], base⟩ = .next t := by
  refine ⟨by constructor <;> decide +kernel, ?_⟩
  cases h : step ⟨[.ident true], base⟩ with
  | next t => exact ⟨t, rfl⟩
  | fault f => exact absurd h (by simp [step, exec, execIdent, State.apply])
  | refused r => exact absurd h (by simp [step, exec, execIdent, State.apply])

theorem witness_FixedStateChangesOnlyByItsCommands : reachesFixedState (.tick 0) = false ∧ reachesFixedState (.bar2Write 0 [1] []) = false := by
  decide

theorem witness_ExtestHoldsTheBalls : (after .extest base).tap = .extest ∧ (after (.ident true) { base with tap := .extest }).out = [] := by
  decide +kernel

theorem witness_SmbusViewAnswers : base.tap ≠ .extest := by decide
theorem witness_ApertureTakesOnlyBasesInRange : (112 : Word).toNat % 128 ≤ 112 ∧ 112 < (113 : Word).toNat % 128 ∧ (240 : Word).toNat % 128 ≤ 112 := by
  decide

def armedReset : Dev := base.setFlag Reg.GLB_RESET_KEY Fld.GLB_RESET_KEY_ARMED
theorem witness_ResetKeySequence : base.flag Reg.GLB_RESET_KEY Fld.GLB_RESET_KEY_ARMED = false ∧
    armedReset.flag Reg.GLB_RESET_KEY Fld.GLB_RESET_KEY_ARMED = true ∧ armedReset.resetKind .software = .software ∧
    (0x6A6A : BitVec 16) ≠ 0x9595 := by decide +kernel


theorem witness_AccessesAreDecidedByTable26 :
    blkOf Reg.GLB_APERTURE = some .glb ∧ Reg.GLB_APERTURE % 4 = 0 ∧ (rowOf Reg.GLB_APERTURE).isSome = true ∧
    blkOf Reg.STK_SRC = some .stk ∧ noWaybill.wb.loaded = false ∧ noWaybill.access Reg.STK_SRC = .fallback ∧
    inRest.sdp.power = 3 ∧ inRest.present .stk = true ∧ inRest.access Reg.STK_SRC = .far ∧
    (blkOf (Reg.STK_SRC + 2) = some .stk ∧ inRest.access (Reg.STK_SRC + 2) = .unmapped) ∧ blkOf 0x130000 = none ∧ base.access (Reg.CPT_CTRL 0 % 0x10000000) = .normal (Reg.CPT_CTRL 0) := by decide +kernel

theorem witness_WritesTurnedAwayAreLogged :
    noWaybill.access Reg.STK_SRC = .fallback ∧ base.access 0x130000 = .unmapped ∧ inRest.access Reg.STK_SRC = .far ∧
    bit (base.reg Reg.GLB_ERR_UNMAPPED) 0 = false ∧ bit ((base.setReg Reg.GLB_ERR_FAR 1).reg Reg.GLB_ERR_FAR) 0 = true := by decide +kernel

theorem witness_WritesFollowTheAccessCodes : base.access Reg.RNG_EVENT = .normal Reg.RNG_EVENT ∧ (rowOf Reg.RNG_EVENT).isSome = true ∧
    blkOf Reg.RNG_EVENT = some .rng ∧ Reg.RNG_EVENT % 0x10000 ≠ 4 ∧ blkOf Reg.PRT_EVENT = some .prt ∧
    base.access Reg.WBL_HOST_ADDR_LO = .normal Reg.WBL_HOST_ADDR_LO ∧ blkOf Reg.WBL_HOST_ADDR_LO = some .wbl ∧
    Reg.WBL_HOST_ADDR_LO ≠ Reg.WBL_CTRL ∧ base.secondaryPaired = false ∧ base.primaryPaired = false := by decide +kernel

theorem witness_FarAccessesFlushReadsAndTheBridge : base.tap ≠ .extest ∧ base.access Reg.STK_SRC = .normal Reg.STK_SRC ∧
    noWaybill.access Reg.STK_SRC = .fallback ∧ base.access 0x130000 = .unmapped ∧
    15 ≤ { base with bridgeFails := [(3, 15)] }.transferFails 3 ∧ { base with bridgeFails := [(3, 14)] }.transferFails 3 < 15 ∧
    base.flag Reg.DEP_STATUS Fld.DEP_STATUS_BRIDGE_DOWN = false ∧
    (base.setFlag Reg.DEP_STATUS Fld.DEP_STATUS_BRIDGE_DOWN).flag Reg.DEP_STATUS Fld.DEP_STATUS_BRIDGE_DOWN = true := by decide +kernel

theorem witness_Bar2ReachesTheNamedBytes :
    let d := { base with damaged := [2] }
    d.tap ≠ .extest ∧ d.boot.mem = true ∧ d.boot.flush = false ∧ d.sdp.power ≠ 3 ∧ d.bar2Forbidden 0 512 = false ∧
    (2 ∈ partBlocks 600 3 ∧ d.isDamaged 2 = true) ∧ (∀ b ∈ partBlocks 0 512, d.isDamaged b = false) ∧ (∀ b ∈ partBlocks 1 512, b ≠ 2 → d.isDamaged b = false) ∧
    (∀ b ∈ d.damaged, b * 256 + 256 ≤ 0 ∨ 0 + 512 ≤ b * 256) ∧ (0 : Nat) + 512 ≤ memEnd ∧
    (let e := base.setReg Reg.GLB_APERTURE (memEnd / 2 ^ 30)
     e.bar2Forbidden (e.reg Reg.GLB_APERTURE * 2 ^ 30 + (memEnd % 2 ^ 30)) 1 = false ∧
     memEnd < e.reg Reg.GLB_APERTURE * 2 ^ 30 + (memEnd % 2 ^ 30) + 1) := by decide +kernel

theorem witness_SealedContentIsNotTold : sealedDevice.tap ≠ .extest ∧ sealedDevice.sdp.sec = 1 ∧ (0 : Nat) < memEnd ∧ sealedDevice.wblState ≠ 2 ∧
    (let d := sealedDevice.setFld Reg.WBL_STATUS Fld.WBL_STATUS_STATE 2
     d.wblState = 2 ∧ ∃ p ∈ d.wb.parts, p.kind ≠ 0 ∧ 0 < p.size ∧ 5 * partUnit - 1 < (p.base + p.size) * partUnit ∧
       p.base * partUnit < 5 * partUnit - 1 + 1) := by decide +kernel

/-! #### Test access port, debug window, fuses, keys, power -/

theorem witness_TestAccessPortInstructions : 0x10 % 0x10000 ≠ 0x14 ∧
    base.access (0x110000 + 0x10 % 0x10000) = .normal (0x110000 + 0x10 % 0x10000) ∧ (rowOf (0x110000 + 0x10 % 0x10000)).any (!·.cnt) = true ∧
    base.dbg.snap = none ∧ base.boot.flush = false ∧ noWaybill.boot.flush = false ∧
    noWaybill.access (0x110000 + 0x10 % 0x10000) = .fallback := by decide +kernel

def dbgIn (m : Nat) : Dev := base.setReg Reg.DBG_MODE m

theorem witness_DebugModeFollowsItsWrites : normal (dbgIn 2) [Reg.DBG_MODE] = true ∧ (7 : Word).toNat % 4 = 3 ∧ (2 : Word).toNat % 4 = 2 ∧
    normal sealedDevice [Reg.DBG_MODE] = true ∧ sealedDevice.sdp.sec = 1 ∧ (dbgIn 2).reg Reg.DBG_MODE = 2 ∧ base.sdp.sec ≠ 1 ∧
    (dbgIn 1).reg Reg.DBG_MODE ≠ 2 := by decide +kernel

theorem witness_DebugWindowTakesItsTriggers :
    let all := [Reg.DBG_SNAP, Reg.DBG_READ] ++ (List.range 8).map Reg.DBG_HALT
    normal base all = true ∧ base.reg Reg.DBG_MODE = 0 ∧ normal (dbgIn 1) all = true ∧ (dbgIn 1).reg Reg.DBG_MODE ≠ 0 ∧
    (dbgIn 1).reg Reg.DBG_MODE ≠ 2 ∧ normal (dbgIn 2) all = true ∧ (dbgIn 2).reg Reg.DBG_MODE = 2 ∧
    (dbgIn 2).fld Reg.DBG_SPACE Fld.DBG_SPACE_SPACE = 0 ∧ (dbgIn 2).pair Reg.DBG_ADDR_LO Reg.DBG_ADDR_HI % 32 = 0 ∧
    (let d := (dbgIn 2).setReg Reg.DBG_ADDR_LO 31
     d.pair Reg.DBG_ADDR_LO Reg.DBG_ADDR_HI % 32 ≠ 0) ∧
    { dbgIn 2 with dbg := { read := some (0, 1, 64) } }.dbg.read = some (0, 1, 64) ∧
    (let d := inPower 2 { dbgIn 2 with dbg := { read := some (1, 1, 0) } }
     d.dbg.read = some (1, 1, 0) ∧ 2 ≤ d.sdp.power ∧ normal d all = true) := by decide +kernel

/-- With the fuse register armed or not, in a security state, with a programming job and fuses. -/
def fuseDev (armed : Bool) (sec : Nat) (job : FuseJob) (isSealed hash : Bool) : Dev :=
  let d := base.setFld Reg.SDP_FUSE_PROG Fld.SDP_FUSE_PROG_ARMED (if armed then 1 else 0)
  { d with sdp := { d.sdp with sec := sec, fuseJob := job }, fuses := { d.fuses with sealed := isSealed, hashFused := hash } }

theorem witness_FuseSequencesProgramTheNamedFuse :
    let armed (d : Dev) := d.flag Reg.SDP_FUSE_PROG Fld.SDP_FUSE_PROG_ARMED
    let closed (d : Dev) := d.sdp.sec ≠ 0 ∨ d.sdp.fuseJob ≠ .none
    ((fuseDev true 1 .none false false).sdp.sec ≠ 2 ∧ closed (fuseDev true 1 .none false false)) ∧
    (¬closed (fuseDev false 0 .none false false) ∧ armed (fuseDev false 0 .none false false) = false) ∧
    (¬closed (fuseDev true 0 .none true true) ∧ armed (fuseDev true 0 .none true true) = true ∧ (fuseDev true 0 .none true true).fuses.sealed = true ∧
      (fuseDev true 0 .none true true).fuses.hashFused = true) ∧
    (armed (fuseDev true 0 .none false false) = true ∧ (fuseDev true 0 .none false false).fuses.sealed = false ∧
      (fuseDev true 0 .none false false).fuses.hashFused = false) ∧
    (armed (fuseDev true 0 .none false true) = true ∧ (fuseDev true 0 .none false true).fuses.hashFused = true) ∧
    (fuseDev true 2 .none false false).sdp.sec = 2 ∧ (fuseDev false 0 .sealed false true).sdp.fuseJob = .sealed ∧
    (fuseDev false 0 (.keyHash [1]) false false).sdp.fuseJob = .keyHash [1] := by decide +kernel

theorem witness_StageKeyWordsAreWrittenOnce :
    base.sdp.sec ≠ 2 ∧ bit base.sdp.keyWritten 7 = false ∧ 7 < base.sdp.stageKey.length ∧
    (let d := withSdp (fun x => { x with keyWritten := 0x80 }) base
     d.sdp.sec ≠ 2 ∧ bit d.sdp.keyWritten 7 = true) ∧ (withSdp (fun x => { x with sec := 2 }) base).sdp.sec = 2 := by decide +kernel

theorem witness_UnlockIsCheckedRowByRow :
    let judged (d : Dev) : Nat := if d.sdp.sec = 2 then 9 else if 2 ≤ d.sdp.power then 13 else if 3 ≤ d.sdp.unlockFails then 10
      else if d.sdp.nonceValid = false then 11 else 12
    judged (withSdp (fun x => { x with sec := 2 }) base) = 9 ∧ judged (inPower 2 base) = 13 ∧
    judged (withSdp (fun x => { x with unlockFails := 3, nonceValid := true }) base) = 10 ∧ judged base = 11 ∧
    judged (withSdp (fun x => { x with unlockFails := 2, nonceValid := true }) base) = 12 ∧
    (withSdp (fun x => { x with unlocking := true }) base).sdp.unlocking = true ∧ base.sdp.unlocking = false := by decide +kernel

theorem witness_PowerRequestsAreJudgedAndCarriedOut :
    let idle (d : Dev) := d.sdp.request = .none ∧ d.sdp.waking = false
    let steward (d : Dev) := d.originator = true ∧ d.trk.roster ≠ []
    let stew (d : Dev) := withWb (fun w => { w with hierarchy := 1 }) (withTrk (fun x => { x with roster := [(3, false)] }) d)
    let asks (r : PowerReq) (d : Dev) := withSdp (fun x => { x with request := r }) d
    let wakes (d : Dev) := withSdp (fun x => { x with waking := true }) d
    (¬idle (asks .doze base) ∧ (asks .doze base).sdp.power ≠ 1) ∧ (idle base ∧ base.sdp.power = 0 ∧ base.paired = false ∧ ¬steward base) ∧
    (idle (inTwin 3 false base) ∧ (inTwin 3 false base).paired = true) ∧ (idle (stew base) ∧ steward (stew base) ∧ (stew base).paired = false) ∧
    (let d := (inPower 1 base).setFlag Reg.SDP_POWER Fld.SDP_POWER_LULL_EN
     idle d ∧ d.sdp.power = 1 ∧ d.flag Reg.SDP_POWER Fld.SDP_POWER_LULL_EN = true ∧ d.paired = false ∧ ¬steward d) ∧
    (let d := withBoot (fun b => { b with lastSource := some (.host 0) }) base
     idle d ∧ d.sdp.power = 0 ∧ d.boot.lastSource = some (.host 0)) ∧
    (idle (inPower 2 base) ∧ (inPower 2 base).sdp.power = 2) ∧ (idle (inPower 3 base) ∧ (inPower 3 base).sdp.power = 3) ∧
    ((asks .doze (inPower 1 base)).sdp.request = .doze ∧ (asks .doze (inPower 1 base)).sdp.power ≤ 1) ∧ base.sdp.request ≠ .doze ∧
    ((wakes (inPower 2 base)).sdp.power = 2 ∧ (wakes (inPower 2 base)).sdp.waking = true) ∧
    ((asks .rest (inPower 2 base)).sdp.request = .rest ∧ (asks .rest (inPower 2 base)).sdp.power ≠ 3 ∧
      (asks .rest (inPower 2 base)).trk.roster = []) ∧
    ((wakes (inPower 3 base)).sdp.power = 3 ∧ (wakes (inPower 3 base)).sdp.waking = true ∧ (wakes (inPower 3 base)).boot.fromRest = false) := by
  decide +kernel

theorem witness_WakeLatchesStartTheReturn :
    let d := withSdp (fun x => { x with timerRunning := true }) (inPower 2 (base.setReg Reg.SDP_WAKE_EN 0x7FF))
    (bit (base.reg Reg.SDP_WAKE_STATUS) 10 = false ∧ base.sdp.power ≠ 3 ∧ base.sdp.power ≤ 1) ∧
    (bit (d.reg Reg.SDP_WAKE_STATUS) 10 = false ∧ 2 ≤ d.sdp.power ∧ bit (d.reg Reg.SDP_WAKE_EN) 10 = true ∧ d.sdp.timerRunning = true) ∧
    bit ((base.setReg Reg.SDP_WAKE_STATUS 1).reg Reg.SDP_WAKE_STATUS) 0 = true := by decide +kernel

theorem witness_SensorSamplesAreComparedWithTheirThresholds :
    let die : List (BitVec 16) := List.replicate 16 0x7FFF
    let hbm : List (BitVec 16) := List.replicate 8 0x7FFF
    let d := after (.sensorSample die hbm) (base.setFlag Reg.SDP_THERM_CTRL Fld.SDP_THERM_CTRL_TRIP_EN)
    die.length = 16 ∧ hbm.length = 8 ∧ base.boot.toff = [] ∧
    (signed 16 base.dieMax < signed 16 (base.reg Reg.SDP_THERM_DIE / 2 ^ 16) ∧ signed 16 (base.reg Reg.SDP_THERM_DIE / 2 ^ 16) ≤ signed 16 d.dieMax) ∧
    (signed 16 base.dieMax < signed 16 (base.reg Reg.SDP_THERM_DIE % 2 ^ 16) ∧ signed 16 (base.reg Reg.SDP_THERM_DIE % 2 ^ 16) ≤ signed 16 d.dieMax) ∧
    (signed 16 base.hbmMax < signed 16 (base.reg Reg.SDP_THERM_HBM % 2 ^ 16) ∧ signed 16 (base.reg Reg.SDP_THERM_HBM % 2 ^ 16) ≤ signed 16 d.hbmMax) ∧
    (base.setFlag Reg.SDP_THERM_CTRL Fld.SDP_THERM_CTRL_TRIP_EN).flag Reg.SDP_THERM_CTRL Fld.SDP_THERM_CTRL_TRIP_EN = true ∧
    base.sdp.power ≤ 1 ∧ base.sdp.request = .none := by decide +kernel

/-! #### Resets, boot, flash, waybill -/

def inReset (k : ResetKind) : Dev :=
  withBoot (fun b => { b with inReset := some k, cal := false, ckg := false, mem := false, wbl := false }) base
def flushing (k : ResetKind) : Dev := withBoot (fun b => { b with inReset := some k, flush := true }) base

theorem witness_ColdResetClearsTheDevice : base.sdp.fuseJob = .none ∧ base.boot.flashJob = none := by decide

theorem witness_ResetsKeepWhatTable203Keeps : base.sdp.power ≠ 3 ∧ base.boot.inReset ≠ some .cold ∧ (inReset .cold).boot.inReset = some .cold ∧
    inRest.sdp.power = 3 ∧ base.resetKind .functionLevel = .functionLevel ∧
    (base.setFlag Reg.DEP_STATUS Fld.DEP_STATUS_BRIDGE_DOWN).resetKind .functionLevel = .warm ∧
    ((flushing .software).boot.flush = true ∧ (flushing .software).boot.inReset = some .software) ∧
    (flushing .functionLevel).boot.inReset = some .functionLevel ∧ base.boot.flush = false := by decide +kernel

theorem witness_BootReleasesBlocksInOrder :
    ((inReset .cold).boot.inReset = some .cold ∧ (inReset .cold).boot.cal = false ∧ bit (inReset .cold).boot.bootsel 2 = false ∧
      (inReset .cold).boot.flashOk = true ∧ (inReset .cold).boot.trimTorn = false) ∧
    (let d := withBoot (fun b => { b with bootsel := 4 }) (inReset .warm)
     d.boot.inReset = some .warm ∧ d.boot.cal = false ∧ bit d.boot.bootsel 2 = true) ∧
    (let d := withBoot (fun b => { b with flashOk := false }) (inReset .warm)
     d.boot.cal = false ∧ bit d.boot.bootsel 2 = false ∧ d.boot.flashOk = false) ∧
    base.boot.cal = true ∧
    (let d := withBoot (fun b => { b with ckg := true }) (inReset .cold)
     d.boot.ckg = true ∧ d.boot.mem = false ∧ d.boot.inReset = some .cold) ∧
    (let d := withBoot (fun b => { b with ckg := true }) (inReset .warm)
     d.boot.ckg = true ∧ d.boot.mem = false ∧ d.boot.inReset ≠ some .cold) ∧
    base.boot.mem = true ∧ (withBoot (fun b => { b with trained := true }) base).boot.trained = true ∧ base.boot.trained = false := by
  decide +kernel

/-- With a flash command's operands set up. -/
def flashCmd (off len addr : Nat) : Dev :=
  ((base.setReg Reg.CAL_FL_OFFSET off).setReg Reg.CAL_FL_LEN len).setReg Reg.CAL_FL_ADDR_LO addr

theorem witness_FlashCommandsAreRefusedByTable209 :
    let form (d : Dev) : Bool := let off := d.reg Reg.CAL_FL_OFFSET
      let len := d.reg Reg.CAL_FL_LEN
      !(off % 4096 != 0 || len % 4096 != 0 || len == 0 || d.reg Reg.CAL_FL_SIZE < off + len ||
        !d.inPart 0 (d.pair Reg.CAL_FL_ADDR_LO Reg.CAL_FL_ADDR_HI) len)
    let buffers : Dev := withWb (fun w => { w with parts := [⟨0, 4, 0⟩] }) ((flashCmd 0 4096 0).setReg Reg.CAL_FL_SIZE 0x2000000)
    let trim : Dev := (buffers.setReg Reg.CAL_FL_OFFSET 0x1000000)
    (normal base [Reg.CAL_FL_CMD] = true ∧ (withBoot (fun b => { b with flashJob := some (1, 0, 4096, 0) }) base).boot.flashJob.isSome = true) ∧
    (normal base [Reg.CAL_FL_CMD] = true ∧ form (buffers.setReg Reg.CAL_FL_LEN 4095) = false) ∧
    (form buffers = true ∧ normal buffers [Reg.CAL_FL_CMD] = true ∧ buffers.boot.flashJob = none ∧ buffers.sdp.power ≠ 3 ∧
      buffers.sdp.waking = false ∧ buffers.sdp.request = .none) ∧
    (form trim = true ∧ trim.reg Reg.CAL_FL_OFFSET < 0x1010000 ∧ 0x1000000 < trim.reg Reg.CAL_FL_OFFSET + 4096 ∧
      trim.flag Reg.CAL_TRIM_KEY Fld.CAL_TRIM_KEY_ARMED = false) ∧
    (let d := trim.setFlag Reg.CAL_TRIM_KEY Fld.CAL_TRIM_KEY_ARMED
     form d = true ∧ d.flag Reg.CAL_TRIM_KEY Fld.CAL_TRIM_KEY_ARMED = true ∧ trimGood (d.memRead 0 4096) d.fuses.serial = false) ∧
    (form buffers = true ∧ (withSdp (fun x => { x with waking := true }) buffers).sdp.waking = true) := by decide +kernel

theorem witness_FlashCommandsCopyTheirRange :
    (withBoot (fun b => { b with flashJob := some (1, 0, 4096, 8192) }) base).boot.flashJob = some (1, 0, 4096, 8192) ∧
    (∀ b ∈ partBlocks 8192 4096, base.isDamaged b = false) ∧ (∀ b ∈ partBlocks 8200 4096, base.isDamaged b = false) ∧
    (withBoot (fun b => { b with flashJob := some (2, 65536 - 4096, 8192, 0) }) base).boot.flashJob = some (2, 65536 - 4096, 8192, 0) ∧
    base.boot.flashJob = none ∧ normal base [Reg.CAL_TRIM_KEY] = true := by decide +kernel

def wblIn (n : Nat) (d : Dev) : Dev := d.setFld Reg.WBL_STATUS Fld.WBL_STATUS_STATE n

theorem witness_WaybillLoadsStart :
    let addr (d : Dev) := d.pair Reg.WBL_HOST_ADDR_LO Reg.WBL_HOST_ADDR_HI
    normal (wblIn 2 base) [Reg.WBL_CTRL] = true ∧ (wblIn 2 base).wblState = 2 ∧ (wblIn 1 base).wblState = 1 ∧
    (let d := (wblIn 3 base).setReg Reg.WBL_HOST_ADDR_LO 4095
     d.wblState = 3 ∧ addr d % 4096 ≠ 0) ∧
    (let d := (wblIn 3 base).setReg Reg.WBL_HOST_ADDR_LO 4096
     normal d [Reg.WBL_CTRL] = true ∧ addr d % 4096 = 0 ∧ addr d + 2 ^ 32 ≤ memEnd) ∧
    (base.boot.wbl = true ∧ base.boot.flush = false ∧ base.wblState ≠ 1 ∧ base.wblState ≠ 2 ∧ base.boot.fromRest = false ∧
      base.boot.bootsel % 4 = 0) ∧
    (withBoot (fun b => { b with bootsel := 1 }) base).boot.bootsel % 4 = 1 ∧ 2 ≤ (withBoot (fun b => { b with bootsel := 2 }) base).boot.bootsel % 4 ∧
    (let d := withBoot (fun b => { b with fromRest := true, lastSource := some .slotB }) base
     d.boot.fromRest = true ∧ d.boot.lastSource = some .slotB ∧ d.wblState ≠ 1 ∧ d.wblState ≠ 2) := by decide +kernel

/-- A small unsigned image: seven sections, no optional block, no port, ring, partition or route (R58 to R72). -/
def sections : List (Nat × List Byte) :=
  [(1, [0, 0, 1, 0] ++ List.replicate 12 0), (2, leBytes 4 0), (3, List.replicate 512 0), (5, []), (6, []), (7, []), (8, leBytes 4 0)]
def sectionAt (i : Nat) : Nat := 0x170 + ((sections.take i).map fun s => s.2.length).sum
def image : List Byte :=
  leBytes 4 0x4C425957 ++ leBytes 2 1 ++ leBytes 2 7 ++ leBytes 4 (sectionAt 7) ++ List.replicate 244 0 ++
  (sections.zipIdx.flatMap fun s => leBytes 2 s.1.1 ++ leBytes 2 1 ++ leBytes 4 (sectionAt s.2) ++ leBytes 4 s.1.2.length ++
    leBytes 4 (crc32c s.1.2)) ++ sections.flatMap fun s => s.2
def loading (src : LoadSource) (copy img : List Byte) : Dev :=
  withBoot (fun b => { b with load := some src, copy := copy })
    (wblIn 1 { base with mem := (img.zipIdx.map fun x => (4096 + x.2, x.1)).filter fun x => x.2 != memDefault x.1 })

set_option maxRecDepth 100000 in
theorem witness_WaybillLoadsEndLoadedOrFailed :
    let host : LoadSource := .host 4096
    let header : List Byte := image.take 256
    let verdict (d : Dev) : Bool :=
      match checkImage (d.boot.copy ++ d.imageBytes host 256 (imgNat d.boot.copy 8 4 - 256)) d.fuses.keyHash d.fuses.hashFused d.sdp.sec
        d.fuses.speed with
      | .ok _ => true
      | .error _ => false
    (let d := loading .slotA [] []
     d.boot.load = some .slotA ∧ d.boot.fromRest = false ∧ d.boot.copy = [] ∧ d.copyFails .slotA true = true ∧
       d.copyFails .slotA false = false ∧ imgNat (d.imageBytes .slotA 0 256) 0 4 ≠ 0x4C425957) ∧
    (let d := loading host [] (image.set 4 2)
     d.copyFails host false = false ∧ imgNat (d.imageBytes host 0 256) 0 4 = 0x4C425957 ∧ imgNat (d.imageBytes host 0 256) 4 2 ≠ 1) ∧
    (let d := loading host [] image
     d.copyFails host false = false ∧ (match checkHeader (d.imageBytes host 0 256) with | .ok _ => true | .error _ => false) = true) ∧
    (let d := loading .slotB header image
     d.boot.copy ≠ [] ∧ d.copyFails .slotB true = true) ∧
    (let d := loading host header image
     d.boot.copy ≠ [] ∧ d.copyFails host false = false ∧ verdict d = true) ∧
    (let d := loading host header (image.set 300 1)
     d.copyFails host false = false ∧ verdict d = false) := by decide +kernel

/-! #### The Bellboard, rings, clocks -/

/-- Two targets, one of them fast, level sources on target 1; target 0 in bit or claim mode, with these sources pending. -/
def bell (count : Nat) (ps : List BelPend) : Dev :=
  withBel (fun b => { b with pend := ps }) ((withWb (fun w => { w with
    routes := [⟨0x7000, count, 0, false⟩, ⟨0x7100, 20, 0, true⟩, ⟨0x43F0, 2, 1, false⟩] }) base).setReg (Reg.BEL_PG_CTRL 0) 1)

theorem witness_DoorbellMessagesPendTheirSource :
    let d := bell 40 []
    d.belRunning = true ∧ (isLevel 0x7000 = false ∧ d.routeOf 0x7000 ≠ none) ∧ (isLevel 0x7FFF = false ∧ d.routeOf 0x7FFF = none) ∧
    (isLevel 0x43F0 = true ∧ d.routeOf 0x43F0 ≠ none) ∧ (inPower 3 d).belRunning = false := by decide +kernel

theorem witness_HostDoorbellsRaiseTheirSource : normal base [Reg.BEL_BLKID] = true ∧
    ((0x6FFF : Word).toNat % 2 ^ 15 < 0x7000 ∧ 0x7EFF < (0x7F00 : Word).toNat % 2 ^ 15 ∧ bit (0xF000 : Word).toNat 15 = true) ∧
    (0x7000 ≤ (0x17EFF : Word).toNat % 2 ^ 15 ∧ (0x17EFF : Word).toNat % 2 ^ 15 ≤ 0x7EFF ∧ bit (0x17EFF : Word).toNat 15 = false ∧
      bit (0x17EFF : Word).toNat 16 = true ∧ bit (0x7000 : Word).toNat 16 = false ∧ base.paired = false) ∧
    (normal (inTwin 3 false base) [Reg.BEL_BLKID] = true ∧ (inTwin 3 false base).paired = true) := by decide +kernel

theorem witness_ServiceStackClaimsAndCompletes :
    let pages (d : Dev) (c : Nat) : Bool := normal d [Reg.BEL_PG_CLAIM c, Reg.BEL_PG_PEND_LO c, Reg.BEL_PG_PEND_HI c, Reg.BEL_PG_COMPLETE c]
    let entry (d : Dev) (c : Nat) : Option BelEntry := (d.belClass c).entry
    let pend : List BelPend := [⟨0x7001, 3, 100⟩, ⟨0x7002, 65535, 100⟩]
    let d := bell 100 pend
    let e := (bell 100 pend).setBelClass 64 { entry := some (.claimed 0x7100 2 false) }
    let f := bell 40 pend
    (d.tap ≠ .extest ∧ pages d 0 = true ∧ d.claimMode 0 = true ∧ entry d 0 = none ∧ d.fastInService 0 = false ∧
      (d.topPending 0).any (fun p => !isLevel p.source) = true) ∧
    (pages (bell 100 []) 127 = true ∧ (bell 100 []).claimMode 0 = true ∧ (bell 100 []).topPending 0 = none) ∧
    (pages e 0 = true ∧ e.claimMode 0 = true ∧ entry e 0 = none ∧ e.fastInService 0 = true) ∧ entry e 64 = some (.claimed 0x7100 2 false) ∧
    (pages f 0 = true ∧ f.claimMode 0 = false ∧ entry f 0 = none ∧ f.fastInService 0 = false ∧
      (∀ x ∈ f.routedOrder 0, isLevel x = false) ∧ (f.routedOrder 0)[0]? = some 0x7000 ∧ f.routeOf 0x7000 = some 0 ∧
      (f.routedOrder 0)[32]? = some 0x7020 ∧ f.routeOf 0x7020 = some 0) := by decide +kernel

theorem witness_MessagesLeaveOnceAndWaitForTheirMask :
    let d := bell 40 [⟨0x7001, 3, 100⟩]
    d.tap ≠ .extest ∧ normal d [Reg.BEL_PG_STATUS 64, Reg.BEL_PG_STATUS 127, Reg.BEL_PG_IDLE 0, Reg.BEL_PG_IDLE 127] = true ∧
    d.messageDue 0 = true ∧ d.messageDue 127 = false ∧ bit (d.reg (Reg.MSIX_VCTRL 0)) 0 = true ∧
    (let e := d.setReg (Reg.MSIX_VCTRL 0) 0
     e.messageDue 0 = true ∧ bit (e.reg (Reg.MSIX_VCTRL 0)) 0 = false) := by decide +kernel

def cursors (r prod cons retire : Nat) (enabled : Bool) : Dev :=
  (((base.setReg (Reg.RNG_RS_CTRL r) (10 * 2 ^ 22 + 4 * 2 ^ 16 + if enabled then 1 else 0)).setReg (Reg.RNG_RS_PROD r) prod).setReg
    (Reg.RNG_RS_CONS r) cons).setReg (Reg.RNG_RS_RETIRE r) retire

theorem witness_DoorbellsMoveProdWithinTheRing :
    let d := cursors 6 5 5 0xFFFFFFFE true
    let ok (v : Nat) : Bool := decide ((v + 2 ^ 32 - d.ringProd 6) % 2 ^ 32 < 2 ^ 31) && decide ((v + 2 ^ 32 - d.ringRetire 6) % 2 ^ 32 ≤ d.ringN 6)
    normal d [Reg.RNG_RS_PROD 6] = true ∧ d.ringEn 6 = true ∧ isRecordClass (d.ringClass 6) = false ∧
    ok 5 = true ∧ ok 14 = true ∧ ok 15 = false ∧ ok 4 = false := by decide +kernel

theorem witness_RingsAreEnabledEmpty :
    let rec_ : Nat := 2
    let d := cursors 2 20 10 10 true
    (normal d [Reg.RNG_RS_CONS rec_] = true ∧ isRecordClass (d.ringClass rec_) = true ∧
      (20 + 2 ^ 32 - d.ringCons rec_) % 2 ^ 32 < 2 ^ 31 ∧ (d.ringProd rec_ + 2 ^ 32 - 20) % 2 ^ 32 < 2 ^ 31 ∧
      2 ^ 31 ≤ (9 + 2 ^ 32 - d.ringCons rec_) % 2 ^ 32 ∧ 2 ^ 31 ≤ (d.ringProd rec_ + 2 ^ 32 - 21) % 2 ^ 32) ∧
    (let e := cursors 6 20 10 10 false
     normal e [Reg.RNG_RS_CTRL 6] = true ∧ bit (e.reg (Reg.RNG_RS_CTRL 6)) 0 = false ∧ e.ringBusy 6 = false) ∧
    normal base [Reg.RNG_RS_PROD 6] = true := by decide +kernel

theorem witness_ReferencesAreLostAndRegained :
    let lost (k : Nat) (x : RefMon) : Dev := { base with ckg := { base.ckg with refs := base.ckg.refs.set (fun _ => {}) k x } }
    (base.refMon 0).lost = false ∧ base.refBUsed = false ∧ (lost 2 { lost := true }).refMon 2 = { lost := true } ∧
    ((204759 : Nat) ≤ 204800 + 41 ∧ (204800 : Nat) ≤ 204759 + 41) ∧ ¬((204800 : Nat) ≤ 204758 + 41) ∧
    (let d := lost 0 { lost := true, run := 1 }
     (d.refMon 0).lost = true ∧ (d.refMon 0).run = 1) := by decide +kernel

theorem witness_PllsLockAndFail :
    let pll (k : Nat) (x : Pll) (d : Dev) : Dev := { d with ckg := { d.ckg with plls := d.ckg.plls.set (fun _ => {}) k x } }
    (base.pllRuns 0 = true ∧ (base.pll 0).lock = none ∧ bit (base.reg (pllPage 0 + pllStatus)) 31 = false) ∧
    (let d := base.setReg (pllPage 4 + pllStatus) 0x80000000
     d.pllRuns 0 = true ∧ bit (d.reg (pllPage 4 + pllStatus)) 31 = true) ∧ State.reset.dev.pllRuns 36 = false ∧
    (let d := pll 0 { lost := true, out := 16 } base
     bit (d.reg (Reg.CKG_SPLL_STATUS 0)) 31 = false ∧ bit (d.reg (Reg.CKG_SPLL_STATUS 0)) 30 = false ∧ (d.pll 0).lost = true ∧ 16 ≤ (d.pll 0).out) ∧
    (pll 0 { lost := true, out := 15 } base).pll 0 = { lost := true, out := 15 } ∧
    normal base [pllPage 0 + pllSeed, pllPage 36 + pllSeed] = true := by decide +kernel

theorem witness_ClockOutputsStayWithinTheirFormat :
    let ok (ctrl div : Nat) : Bool :=
      decide ([156250, 1000000, 1000000, 50000].getD (Fld.CKG_OUT_CTRL_CLK.get ctrl) 0 ≤
        [0, 800000, 400000, 200000].getD (Fld.CKG_OUT_CTRL_FMT.get ctrl) 0 * (Fld.CKG_OUT_DIV_DIV.get div + 1))
    let ctrl := Fld.CKG_OUT_CTRL_CLK.put (Fld.CKG_OUT_CTRL_FMT.put 0 1) 1
    normal base [Reg.CKG_OUT_CTRL 7, Reg.CKG_OUT_DIV 7] = true ∧ ok ctrl 0 = false ∧ ok ctrl (Fld.CKG_OUT_DIV_DIV.put 0 1) = true ∧
    Fld.CKG_OUT_CTRL_SRC.get ctrl = 0 ∧ Fld.CKG_OUT_CTRL_FMT.get ctrl ≠ 0 := by decide +kernel

/-! #### Strokes and the lock loop -/

def locked (n : Nat) (aligned : Bool) : Dev := withStk (fun x => { x with lock := n, aligned := aligned, good := 7, b0 := 1000 }) (running base)

theorem witness_TicksAndLatchPointsDriveTheStrokes :
    ((running base).stk.running = true ∧ (running base).stk.reframe = none) ∧ (base.stk.running = false ∧ base.stk.reframe = none) ∧
    ((running base).wb.loaded = true ∧ (running base).stk.latched = false ∧ (running base).boot.flush = false) ∧
    noWaybill.wb.loaded = false ∧ (withStk (fun x => { x with latched := true }) (running base)).stk.latched = true := by decide +kernel

theorem witness_LockStateFollowsTable44 :
    ((locked 1 false).stk.running = true ∧ (locked 1 false).stk.lock = 1 ∧ (locked 1 false).stk.aligned = false) ∧
    ((locked 2 true).stk.lock = 2 ∧ (locked 3 true).stk.lock ≠ 2 ∧ (locked 1 true).stk.aligned = true) ∧ base.stk.lock = 0 ∧
    (let d := (locked 2 true).setFld Reg.STK_SRC Fld.STK_SRC_SRC 3
     d.stk.aligned = true ∧ d.fld Reg.STK_SRC Fld.STK_SRC_SRC = 3) ∧
    (let d := withStk (fun x => { x with acqFrames := 10 }) ((locked 1 true).setFld Reg.STK_LOCK Fld.STK_LOCK_ACQ_LIMIT 10)
     d.stk.lock = 1 ∧ d.fld Reg.STK_LOCK Fld.STK_LOCK_ACQ_LIMIT ≠ 0 ∧ d.fld Reg.STK_LOCK Fld.STK_LOCK_ACQ_LIMIT ≤ d.stk.acqFrames) ∧
    normal base [Reg.STK_SRC] = true ∧ base.sourceAllowed 7 = false ∧ base.sourceAllowed 0 = true ∧ base.sourceAllowed 2 = true ∧
    (let sync (n : Nat) : Dev := withStk (fun x => { x with syncFrames := n })
      (((locked 2 true).setFld Reg.STK_SRC Fld.STK_SRC_SRC 2).setFld Reg.STK_SRC Fld.STK_SRC_SYNC_DIV 4)
     (sync 3).fld Reg.STK_SRC Fld.STK_SRC_SRC = 2 ∧ (sync 3).stk.syncFrames < (sync 3).fld Reg.STK_SRC Fld.STK_SRC_SYNC_DIV ∧
     (sync 4).fld Reg.STK_SRC Fld.STK_SRC_SYNC_DIV ≤ (sync 4).stk.syncFrames ∧ (sync 4).stk.running = true ∧ (sync 4).stk.lock ≠ 0) ∧
    ((locked 2 true).setFld Reg.STK_SRC Fld.STK_SRC_SRC 1).fld Reg.STK_SRC Fld.STK_SRC_SRC = 1 ∧
    (locked 2 true).fld Reg.STK_SRC Fld.STK_SRC_SRC = 0 := by
  decide +kernel

theorem witness_ReframeReplacesTheTiming :
    let free : Dev := withWb (fun w => { w with blocks := 123 }) base
    let waiting : Dev := withStk (fun x => { x with timing := 2, reframe := some 5000 }) base
    (normal (inTwin 3 true base) [Reg.STK_CTRL] = true ∧ (inTwin 3 true base).secondaryPaired = true) ∧
    (normal waiting [Reg.STK_CTRL] = true ∧ 2 ≤ waiting.stk.timing) ∧ (inPower 2 base).sdp.power = 2 ∧
    (withWb (fun w => { w with hierarchy := 2 }) base).wb.hierarchy = 2 ∧ (base.setReg Reg.STK_FRAME_PERIOD 1).shadowTiming.valid = false ∧
    (normal free [Reg.STK_CTRL] = true ∧ free.secondaryPaired = false ∧ free.reframeRefusal = none) ∧
    (waiting.stk.reframe = some 5000 ∧ waiting.reframeNext = true) ∧ base.stk.reframe = none ∧
    (let d := withStk (fun x => { x with timing := 3, tr := some 3, stroke := 3 }) base
     d.stk.timing = 3 ∧ d.stk.tr = some 3 ∧ strokeGe d.stk.stroke 3 = true) ∧ base.stk.tr = none := by decide +kernel

theorem witness_CapturingReadsTakeTheirCompanions :
    let d := base.setReg Reg.STK_TOD_STEP_NS 1000000000
    base.tap ≠ .extest ∧ normal base [Reg.STK_CTRL, Reg.STK_STROKE_LO, Reg.STK_TOD_NS, Reg.STK_LTC_WORD0, Reg.PRT_DEAL_STROKE_LO,
      Reg.PRT_DONE_STROKE_LO, Reg.FLP_LAST_LO] = true ∧ normal d [Reg.STK_CTRL] = true ∧
    999999999 < (signed 32 (d.reg Reg.STK_TOD_STEP_NS)).natAbs ∧ (signed 32 (base.reg Reg.STK_TOD_STEP_NS)).natAbs ≤ 999999999 ∧
    base.wb.loaded = true ∧ base.stk.stroke < 2 ^ 48 ∧ base.stk.phase < 16 ∧ base.stk.ltc.word1 < 2 ^ 32 ∧ base.prt.dealStroke < 2 ^ 48 ∧
    base.prt.doneStroke < 2 ^ 48 ∧ base.flp.last < 2 ^ 48 := by decide +kernel

/-! #### Porters, repairs, checks of memory -/

def parcel (n porter : Nat) (st : ParcelSt) : Parcel :=
  { region := 0, number := n, stack := 0, x := 4 * n, y := 0, w := 4, h := 1, dealt := porter, porter := porter, st := st }
def run (stroke : Nat) (version : Tab Word) (ps : List Parcel) : StrokeRun :=
  { stroke := stroke, composedAs := stroke, phase := 0, racing := false, lead := 1, version := version, parcels := ps, fused := [], reads := []
    writes := [], plates := [] }
def job (k : JobKind) (n : Nat) (started : Bool) : Job :=
  { kind := k, stroke := 5, region := 0, number := n, porter := some 0, started := started }
def ladder (block : Nat) (twin staging : Bool) : Ladder := { kind := 1, unit_ := 0, block := block, stroke := 5, staging := staging, twin := twin }

set_option maxRecDepth 100000 in
theorem witness_PortersComposeLiftAndSeal :
    let works (d : Dev) : Prop := d.composes = true ∧ d.halted 0 = false
    let ready := withRuns [run 5 [] [parcel 0 0 .waiting, parcel 1 0 .waiting, parcel 2 0 .waiting, parcel 3 1 .waiting]] [] base
    let lifts := withRuns [run 6 [] [parcel 0 1 .waiting, parcel 1 1 .waiting, parcel 2 1 .waiting]] [] base
    let composing := withRuns [run 5 [] [parcel 0 0 .running]] [] base
    let reading := withRuns [{ run 5 [(Reg.PRT_SK_CTRL_LIVE 0, 1 + 3 * 65536)] [parcel 0 0 .running] with reads := [(0, 0x100)] }] [] base
    let sealedParcel : Parcel :=
      let q := parcel 0 0 .sealed
      { q with pcv := pcvOf (run 5 [] []) q (base.composed (run 5 [] []) q none) }
    let audits := withRuns [run 5 [] [sealedParcel]] [job .audit 0 true] base
    (works ready ∧ ready.sdp.power ≠ 1 ∧ ready.prt.jobs = [] ∧ ready.inProgress 0 = none ∧
      (ready.nextParcel 0).any (fun x => ready.parcel x.1.stroke x.2.region x.2.number == some x.2) = true) ∧
    (works lifts ∧ lifts.inProgress 0 = none ∧ (∀ x ∈ lifts.prt.strokes, x.unstarted 0 = []) ∧ lifts.sdp.power ≠ 1 ∧
      ((lifts.tiers 0).findSome? lifts.victim).any (fun x => (lifts.prt.strokes[x.2.1]?).isSome && decide (x.1 < 256)) = true) ∧
    (works composing ∧ composing.jobOf 0 = none ∧ composing.inProgress 0 = some (run 5 [] [parcel 0 0 .running], parcel 0 0 .running) ∧
      composing.tablesGone (run 5 [] [parcel 0 0 .running]) (parcel 0 0 .running) = false ∧
      (run 5 [] []).needsLost (parcel 0 0 .running) = false ∧ composing.parcel 5 0 0 = some (parcel 0 0 .running) ∧
      composing.failing (composing.inputBlocks (run 5 [] [parcel 0 0 .running]) (parcel 0 0 .running)) [] = [] ∧ composing.damaged = [] ∧
      composing.weak = [] ∧ (run 5 [] []).writes.find? (·.1 == (parcel 0 0 .running).stack) = none ∧
      bit (composing.reg Reg.DEP_LOG_RING) 31 = false ∧ (parcel 0 0 .running).x + (parcel 0 0 .running).w ≤ composing.wb.canvasW) ∧
    ({ run 5 [] [] with lost := [Reg.PRT_PARCEL_LIVE] }.needsLost (parcel 0 0 .running) = true) ∧
    (works audits ∧ audits.jobOf 0 = some (job .audit 0 true) ∧ audits.parcel 5 0 0 = some sealedParcel ∧
      (audits.runOf 5).any (fun r => !audits.tablesGone r sealedParcel && !r.needsLost sealedParcel && audits.failing (audits.inputBlocks r sealedParcel) [] == [] &&
        pcvOf r sealedParcel (audits.composed r sealedParcel none) == sealedParcel.pcv) = true) ∧
    (State.reset.dev.composes = false) ∧ ready.inProgress 1 = none ∧
    (withRuns [{ run 5 [] [parcel 0 0 .stalled] with abandoned := true }] [] base).inProgress 0 =
      some ({ run 5 [] [parcel 0 0 .stalled] with abandoned := true }, parcel 0 0 .stalled) ∧
    (let due := fun r : StrokeRun => !r.withdrawn && !r.abandoned && !r.late.contains 0 && r.parcels.any fun q => q.region == 0 && !q.composed
     (ready.prt.strokes.find? due).isSome = true ∧ base.prt.strokes.find? due = none) ∧
    (reading.inProgress 0).any (fun x => reading.failing (reading.inputBlocks x.1 x.2) (List.range 40) != []) = true := by decide +kernel

theorem witness_LaddersAndAuditsRunToTheirEnds :
    let d := withRuns [run 5 [] [parcel 0 0 .sealed, parcel 1 0 .sealed]] [job .audit 0 false] base
    let e := withRuns [run 5 [] [parcel 0 0 .sealed, parcel 1 0 .sealed]] [job .audit 0 false, job .seal1 1 false] base
    let l := { base with ladders := [ladder 3 false false, ladder 9 true false] }
    let twin := { (inTwin 3 false base).setFlag Reg.DEP_CTRL Fld.DEP_CTRL_TWIN_REPAIR with ladders := [ladder 9000 false false] }
    let mine (x : Dev) : List Job := x.prt.jobs.filter fun j => j.porter == some 0
    (d.composes = true ∧ d.halted 0 = false ∧ (∀ i ∈ mine d, i.started = false ∧ i.kind.isAudit = true) ∧
      (mine d).find? (·.kind.isAudit == true) = some (job .audit 0 false) ∧ (mine d).find? (·.kind.isAudit == false) = none) ∧
    (e.composes = true ∧ e.halted 0 = false ∧ (∀ i ∈ mine e, i.started = false) ∧
      (mine e).find? (·.kind.isAudit == false) = some (job .seal1 1 false)) ∧
    (d.prt.jobs.find? (fun j => j.kind.isAudit && !j.started && j.stroke == 5 && j.region == 0 && j.number == 0) = some (job .audit 0 false) ∧
      d.prt.jobs.find? (fun j => j.kind.isAudit && !j.started && j.stroke == 5 && j.region == 0 && j.number == 1) = none) ∧
    ({ base with ladders := [ladder 3 false true] }.ladders.find? (fun l => l.block == 3 && l.staging == true && !l.twin) =
      some (ladder 3 false true) ∧ base.ladders.find? (fun l => l.block == 3 && l.staging == true && !l.twin) = none) ∧
    (l.ladders.find? (fun l => l.block == 3 && l.staging == false && !l.twin) = some (ladder 3 false false) ∧ l.repairable 3 = false) ∧
    ((withTwn (fun x => { x with lanes := [(2, 2)] }) twin).repairable 9000 = true) ∧
    l.ladders.filter (fun l => l.block == 9 && l.twin && !l.staging) = [ladder 9 true false] ∧
    l.ladders.filter (fun l => l.block == 3 && l.twin && !l.staging) = [] := by decide +kernel

theorem witness_MemoryIsScrubbedAndPoweredDown :
    let hours := base.setFld Reg.DEP_CTRL Fld.DEP_CTRL_SCRUB_HOURS 24
    let pd := ((base.setFlag Reg.MEM_PD_CTRL Fld.MEM_PD_CTRL_EN).setReg (Reg.CPT_SLACK 0) 90000).setReg (Reg.CPT_SLACK 6) 90000
    let skips := withWb (fun w => { w with parts := [⟨1, 4, 1⟩, ⟨5, 2, 4⟩] }) hours
    let holds (x : Nat) (q : Part) : Bool := q.kind == 4 && q.base * partUnit ≤ x * 256 && x * 256 < (q.base + q.size) * partUnit
    let leads (d : Dev) (x y : Nat) : Prop := d.wb.parts.find? (holds x) = none ∧ y = x ∨
      ∃ q ∈ d.wb.parts, d.wb.parts.find? (holds x) = some q ∧ y = (q.base + q.size) * partUnit / 256 ∧ d.wb.parts.find? (holds y) = none
    (hours.fld Reg.DEP_CTRL Fld.DEP_CTRL_SCRUB_HOURS ≠ 0 ∧ hours.loaded = true ∧ hours.sdp.power ≠ 3 ∧ hours.boot.flush = false) ∧
    (leads hours 0 0 ∧ leads hours 1 1) ∧ (leads skips (5 * partUnit / 256 - 1) (5 * partUnit / 256 - 1) ∧ leads skips (5 * partUnit / 256) (7 * partUnit / 256)) ∧
    ({ hours with scrub := some (memEnd / 256 - 1) }.scrub.getD 0 * 256 < memEnd ∧
      memEnd ≤ ({ hours with scrub := some (memEnd / 256 - 1) }.scrub.getD 0 + 1) * 256) ∧
    { hours with scrub := some 7, damaged := [7] }.isDamaged 7 = true ∧
    (base.setFld Reg.DEP_CTRL Fld.DEP_CTRL_SCRUB_HOURS 0).fld Reg.DEP_CTRL Fld.DEP_CTRL_SCRUB_HOURS = 0 ∧
    (pd.boot.mem = true ∧ pd.sdp.power ≠ 3 ∧ pd.flag Reg.MEM_PD_CTRL Fld.MEM_PD_CTRL_EN = true ∧ pd.slackAllows = true ∧
      bit (pd.reg Reg.MEM_STATUS) 7 = false) ∧
    bit ((pd.setReg Reg.MEM_STATUS 0x80).reg Reg.MEM_STATUS) 7 = true ∧ normal base [Reg.DEP_LOG_INDEX] = true := by decide +kernel

/-! #### Flips and fences -/

def waitFor (idx val limit ticks : Nat) : FenceWaitSt := { ring := 0, index := 0, idx := idx, val := val, limit := limit, ticks := ticks }
def queued (target : Nat) : QSet :=
  { id := 0, origin := .own 0 0, target := target, deadline := 0, afEn := false, afIdx := 0, afVal := 0, tag := 0, members := [] }
def fullQueue : Dev → Dev := withFlp fun x => { x with queue := List.replicate 256 (queued 105) }

theorem witness_FencesAdvanceAndWaitsComplete :
    let step (d : Dev) (v : Word) : Nat := (v.toNat + 2 ^ 32 - d.reg (Reg.FLP_FENCE 0)) % 2 ^ 32
    let w (x : FenceWaitSt) : Dev := withFlp (fun y => { y with waits := [x] }) base
    let plate (v : Nat) : Dev := (running base).setReg (Reg.STL_PR_CTRL 0) v
    (normal (running base) [Reg.FLP_FENCE 0, Reg.FLP_FENCE 1023] = true ∧ (running base).secondaryPaired = false ∧
      (running base).primaryPaired = false ∧ (running base).flp.queue = [] ∧ (running base).stk.timing ≠ 0) ∧
    (1 ≤ step base 1 ∧ step base 0x7FFFFFFF < 2 ^ 31 ∧ step base 0 = 0 ∧ 2 ^ 31 ≤ step base 0x80000000) ∧
    (inTwin 3 true base).secondaryPaired = true ∧
    (w (waitFor 0 0 0 0)).flp.waits.find? (fun x => x.ring == 0 && (!x.expired && (x.met || (w (waitFor 0 0 0 0)).satisfies x.idx x.val))) = some (waitFor 0 0 0 0) ∧
    (w (waitFor 0 5 3 3)).flp.waits.find? (fun x => x.ring == 0 && x.expired) = some (waitFor 0 5 3 3) ∧
    (w (waitFor 0 5 3 2)).flp.waits.find? (fun x => x.ring == 0 && x.expired) = none ∧ base.paired = false ∧ base.damaged = [] ∧
    base.ringClass 0 = classSubmit ∧ (normal (plate 1) [Reg.STL_PR_COMMIT 0, Reg.STL_PR_COMMIT 63] = true ∧ (plate 1).plateEn 0 = true ∧
      (plate 1).flag (Reg.STL_PR_CTRL 0) Fld.STL_PR_CTRL_WRITER = false) ∧ (plate 1).plateEn 63 = false := by decide +kernel

def setEntry (count tag target : Nat) (next : Bool) : List Nat :=
  [1 + count * 256 + tag * 2 ^ 24 + (if next then 65536 else 0), target, 0, 0, 0, 0, 0]

set_option maxRecDepth 100000 in
theorem witness_FlipSetsAreReadJudgedAndQueued :
    let read (d : Dev) : Prop := d.submitReadable 0 = true ∧ d.flp.full = none
    let en (d : Dev) := d.ringEntry 0 (d.ringCons 0)
    let h (d : Dev) := setHead (en d)
    let fits (d : Dev) : Prop := opOf (en d) = 1 ∧ (h d).count + 1 ≤ d.unreadIn 0
    let d := withRing 0 [setEntry 0 7 110 false] (running base)
    let wait (xs : List Nat) : Dev := withRing 0 [[5, 0, 5, 0] ++ xs] (running base)
    let hold : Dev := withFlp (fun x => { x with full := some 0 }) d
    base.submitReadable 0 = false ∧ (fullQueue d).submitReadable 0 = true ∧
    (read (fullQueue d) ∧ fits (fullQueue d) ∧ (fullQueue d).queueRoom (h (fullQueue d)).count = false) ∧
    (read d ∧ fits d ∧ d.queueRoom (h d).count = true ∧ d.primaryPaired = false ∧ d.sdp.power ≠ 1 ∧ d.stk.timing ≠ 0 ∧
      (d.judgeSet (.own 0 (d.ringCons 0)) false (en d) (d.entriesFrom 0 1 (h d).count) (h d).target (h d).deadline).set.isSome = true) ∧
    (let far := withRing 0 [setEntry 0 7 20000 false] (running base)
     read far ∧ fits far ∧ far.tooFar (h far).target = true) ∧
    (let long := withRing 0 [setEntry 1 7 110 false, [9]] (running base)
     read long ∧ fits long ∧ long.readMembers (long.entriesFrom 0 1 (h long).count) = none) ∧
    (read (inPower 2 d) ∧ (inPower 2 d).sdp.power = 2) ∧
    (read (wait []) ∧ opOf (en (wait [])) = 5 ∧ reservedClear [0xFF, 0x3FF, 0xFFFFFFFF, 0xFFFF] (en (wait [])) = true) ∧
    reservedClear [0xFF, 0x3FF, 0xFFFFFFFF, 0xFFFF] (en (wait [1])) = false ∧ d.damaged = [] ∧ d.paired = false ∧
    (let off := hold.setReg (Reg.RNG_RS_CTRL 0) 0
     off.flp.full = some 0 ∧ off.submitReadable 0 = false) ∧
    (hold.flp.full = some 0 ∧ hold.submitReadable 0 = true ∧ fits hold ∧ hold.queueRoom (h hold).count = true) ∧
    (fullQueue hold).queueRoom (h (fullQueue hold)).count = false ∧
    (let x : Displaced := { last := some 3, relEn := true, relIdx := 1023, relVal := 9 }
     let r := withFlp (fun y => { y with displaced := [x] }) (running base)
     r.stk.timing ≠ 0 ∧ r.flp.displaced.find? r.bufferFree = some x ∧ x.relIdx < 1024 ∧ r.advances x.relIdx x.relVal = true) := by
  decide +kernel

/-! #### Coach ports and return lines -/

/-- A running device whose quad 0 is locked and whose port 0 is enabled, its port in a state. -/
def coachDev (c : Coach) (d : Dev) : Dev := ((running d).setReg (Reg.CKG_QPLL_STATUS 0) 0x80000000).setReg (Reg.CPT_CTRL 0) 1 |>.setCoach 0 c
def coachIn (n : Nat) : Coach := { state := n, next := 5, begun := true, seq := 65535 }

theorem witness_CoachPortsFollowTable910 :
    let plain (d : Dev) : Prop := d.secondaryPaired = false ∧ d.primaryPaired = false ∧ normalPort d (Reg.CPT_CTRL 0) = true
    let d (n : Nat) : Dev := coachDev (coachIn n) base
    (plain (d 0) ∧ ((d 0).coach 0).state = 0 ∧ (d 0).quadLocked 0 = true) ∧ (plain (d 2) ∧ ((d 2).coach 0).state ≠ 0 ∧
      (d 2).flag (Reg.CPT_CTRL 0) Fld.CPT_CTRL_EN = true) ∧
    (let e := base.setReg (Reg.CPT_CTRL 0) 0
     plain e ∧ e.flag (Reg.CPT_CTRL 0) Fld.CPT_CTRL_EN = false ∧ (e.coach 0).state = 0) ∧
    (((d 1).coach 0).state = 1 ∧ (d 1).quadLocked 0 = true ∧ (d 1).reframing = false ∧ (d 1).holdOther 0 = false) ∧
    (withStk (fun x => { x with timing := 3 }) (d 1)).reframing = true ∧ base.quadLocked 0 = false ∧
    normalPort base (Reg.CPT_COMMIT 0) = true ∧ (withStk (fun x => { x with timing := 2 }) base).stk.timing = 2 ∧ (inPower 2 base).sdp.power = 2 ∧
    ((coachDev { coachIn 2 with pending := true } base).coach 0).pending = true ∧
    (let e := (d 2).genericWrite (Reg.CPT_COMMIT 0) 3
     e.commitRefusal 0 true = none ∧ (d 2).stk.timing ≠ 0) ∧
    (let e : Dev := withStk (fun x => { x with timing := 0, running := false }) (d 2)
     (e.genericWrite (Reg.CPT_COMMIT 0) 3).commitRefusal 0 true = none ∧ e.stk.timing = 0) := by decide +kernel

/-- The live raster of a stop of port 0: columns and rows of region 0. -/
def raster (stop ctrl w h : Nat) : Tab Word :=
  [(Reg.CPT_RM_CTRL_LIVE 0 stop, BitVec.ofNat 32 ctrl), (Reg.CPT_RM_CTRL_LIVE 0 stop + 4, 0),
    (Reg.CPT_RM_CTRL_LIVE 0 stop + 8, BitVec.ofNat 32 (w - 1 + 65536 * (h - 1)))]

theorem witness_CoachPortsSendTheirFrames :
    let stops (hold : Bool) : Tab Word := raster 0 (1 + (if hold then 2 else 0) + 0x400) 8 1 ++ raster 3 (1 + (if hold then 2 else 0) + 0x400) 4 2
    let d (c : Coach) (r : StrokeRun) : Dev := withRuns [r] [] (coachDev c base)
    let shows := d (coachIn 2) (run 5 (stops true) [parcel 0 0 .sealed, parcel 1 0 .sealed])
    let waits := d (coachIn 2) (run 5 (stops true) [parcel 0 0 .running, parcel 1 0 .sealed])
    let gone := withStk (fun x => { x with timing := 3 })
      (d { coachIn 3 with withdrawn := [6, 7] } { run 6 (stops true) [] with withdrawn := true })
    let sends (e : Dev) (ready : Bool) : Bool := match e.coachReady 0 with
      | none => false
      | some (r, _) => (e.coach 0).begun && (e.coach 0).next == r.stroke && match stopAt r.version 0 (e.coach 0).stop with
        | none => false
        | some st => if ready then !(r.routeLost 0 st) && match e.readySegments r st st.runMax (e.coach 0).at_ st.runMax with
            | [] => false
            | gs => gs.all fun g => (e.segmentBlocks r g).all fun b => !(e.packerFails r [] b) && g.parcel.all fun q => !(e.replayFails r q)
          else st.holdOk && !(e.segmentReady r.stroke (st.segment r (e.coach 0).at_))
    shows.tap ≠ .extest ∧ sends shows true = true ∧ sends waits false = true ∧ base.coachReady 0 = none ∧
    ((gone.coach 0).state = 3 ∧ gone.coachSends 0 = true ∧ (gone.coach 0).holdDue = false ∧ (gone.coach 0).configBefore 6 = false ∧
      (gone.prt.strokes.find? fun r => r.withdrawn && r.stroke == 6).any
        (fun r => ((portStops r.version 0).find? fun x => 0 ≤ x.addr).isSome) = true) ∧
    ((coachDev { coachIn 2 with marker := some 5 } base).coach 0).marker = some 5 ∧ ((coachDev (coachIn 3) base).coach 0).state = 3 ∧
    (let e := d { coachIn 2 with configs := [(3, 5)] } (run 5 (stops true) [])
     (e.coach 0).configs = [(3, 5)] ∧ (e.runOf 5).any (fun r => (stopAt r.version 0 3).isSome && (stopAt r.version 0 1).isNone) = true) ∧
    (base.coach 0).state < 2 ∧ (∀ w ∈ (coachIn 2).wits, w.1 < 64) ∧
    (((coachDev (coachIn 2) base).coach 0).marker = none ∧ ((coachDev (coachIn 2) base).coach 0).holdDue = false ∧
      (coachDev (coachIn 2) base).coachWaits 0 = false) ∧ (coachDev { coachIn 2 with marker := some 5 } base).coachWaits 0 = true ∧
    ((coachDev { coachIn 3 with holdDue := true } base).coach 0).holdDue = true := by decide +kernel

def lineDev (x : Rlc) : Dev := base.setRlc 0 x
def enrolled (a id : Nat) : Enrolled := ⟨a, id, 2, 3⟩
def lineRun : Rlc := { run := true, enrolled := [enrolled 0 11, enrolled 5 12], alarms := [(5, 0)], strangers := [(0, 77, 0), (2, 78, 300)]
                       round := 256, fifo := [9] }
def lineJob (k : Nat) : LineJob := { kind := k, laddr := 5, id := 12, seed := 4, ring := none, tag := 6 }

theorem witness_ReturnLinesOpenTheirSlots :
    let d := lineDev lineRun
    let mask (x : Rlc) : Dev := (lineDev x).setFld (Reg.RLC_SCHED 0) Fld.RLC_SCHED_CONT_MASK 1
    d.tap ≠ .extest ∧ State.reset.dev.hasLine 0 = false ∧ (base.rlc 0).run = false ∧
    (d.hasLine 0 = true ∧ (d.rlc 0).run = true ∧ (d.rlc 0).present = .none ∧ (d.rlc 0).first = false ∧ (d.rlc 0).fifo.length < 64) ∧
    ((lineDev { lineRun with first := true }).rlc 0).first = true ∧
    ((d.setFlag (Reg.RLC_ST_STATE 0 5) Fld.RLC_ST_STATE_POLL_EN).nextPoll 0).isSome = true ∧
    (let e := mask { lineRun with slot := 0 }
     ((e.rlc 0).slot + 1) % 16 % 2 = 1 ∧ bit (e.fld (Reg.RLC_SCHED 0) Fld.RLC_SCHED_CONT_MASK) (((e.rlc 0).slot + 1) % 16 / 2) = true) ∧
    (let e := mask { lineRun with slot := 2, queue := [lineJob 0] }
     ((e.rlc 0).slot + 1) % 16 % 2 = 1 ∧ bit (e.fld (Reg.RLC_SCHED 0) Fld.RLC_SCHED_CONT_MASK) (((e.rlc 0).slot + 1) % 16 / 2) = false ∧
       (e.rlc 0).queue = [lineJob 0]) ∧
    (let e := lineDev { lineRun with present := .poll 255 }
     e.hasLine 0 = true ∧ (e.rlc 0).run = true ∧ (e.rlc 0).answered = false ∧ (e.rlc 0).present = .poll 255) ∧
    (let e := (d.setFld (Reg.RLC_ST_STATE 0 255) Fld.RLC_ST_STATE_MISSES 255).setFlag (Reg.RLC_ST_STATE 0 255) Fld.RLC_ST_STATE_PRESENT
     e.flag (Reg.RLC_ST_STATE 0 255) Fld.RLC_ST_STATE_PRESENT = true ∧
       max 1 (e.fld (Reg.RLC_CTRL 0) Fld.RLC_CTRL_MISS_LIMIT) ≤ e.fld (Reg.RLC_ST_STATE 0 255) Fld.RLC_ST_STATE_MISSES) ∧
    d.flag (Reg.RLC_ST_STATE 0 0) Fld.RLC_ST_STATE_PRESENT = false ∧
    normal d [Reg.RLC_CTRL 0, Reg.RLC_RXF_DATA 0] = true ∧ (d.rlc 0).fifo = [9] ∧ ((lineDev { lineRun with fifo := [] }).rlc 0).fifo = [] := by
  decide +kernel

theorem witness_ReturnLinesTakeFramesAndCommands :
    let on (d : Dev) : Prop := d.hasLine 0 = true ∧ (d.rlc 0).run = true ∧ (d.rlc 0).answered = false
    let contention := lineDev { lineRun with present := .contention }
    let poll := lineDev { lineRun with present := .poll 5 }
    let cmd (k : Nat) := lineDev { lineRun with present := .command (lineJob k) }
    let ring (ws : List Nat) := (withRing 8 [ws] (lineDev lineRun)).setReg (Reg.RLC_RING 0) 8
    let good (op : Nat) (d : Dev) : Prop := d.fld (Reg.RLC_RING 0) Fld.RLC_RING_CMD = 8 ∧ d.hasLine 0 = true ∧ d.ringClass 8 = 5 ∧
      d.ringReadable 8 = true ∧ (d.ringSt 8).bound = none ∧ opOf (d.ringEntry 8 (d.ringCons 8)) = op ∧
      d.telemetryGood 0 op (d.ringEntry 8 (d.ringCons 8)) = true
    (base.rlc 0).run = false ∧ (on poll ∧ (poll.rlc 0).present = .poll 5) ∧ (on contention ∧ (contention.rlc 0).present = .contention) ∧
    ((lineDev { lineRun with answered := true, present := .poll 5 }).rlc 0).answered = true ∧
    ((contention.rlc 0).entry 5 = some (enrolled 5 12) ∧ (contention.rlc 0).lastAlarm 5 = some 0 ∧ (contention.rlc 0).lastOut ≠ 1) ∧
    ((contention.rlc 0).enrolled.find? (·.id == 99) = none ∧ (contention.rlc 0).strangers.find? (·.2.1 == 99) = none ∧
      (List.range 16).find? (fun i => !((contention.rlc 0).strangers.any (·.1 == i))) = some 1) ∧
    ((contention.rlc 0).enrolled.find? (·.id == 12) = some (enrolled 5 12) ∧
      (contention.setFlag (Reg.RLC_CTRL 0) Fld.RLC_CTRL_AUTO_REASSIGN).flag (Reg.RLC_CTRL 0) Fld.RLC_CTRL_AUTO_REASSIGN = true) ∧
    (on (cmd 0) ∧ ((cmd 0).rlc 0).present = .command (lineJob 0) ∧ (lineJob 0).laddr < 2 ^ 16 ∧ ((cmd 1).rlc 0).present = .command (lineJob 1)) ∧
    (good 0x10 (ring [0x10 + 0x60000, 55, 0, 3, 9]) ∧ ((ring [0x10 + 0x60000, 55, 0, 3, 9]).rlc 0).entry 6 = none) ∧
    (good 0x11 (ring [0x11 + 0x50000, 0, 0, 0, 9]) ∧ (((ring [0x11 + 0x50000, 0, 0, 0, 9]).rlc 0).entry 5).isSome = true) ∧
    good 0x12 (ring [0x12 + 0x50000, 0x20003, 0, 0, 9]) ∧
    (ring [0x11 + 0x400000]).telemetryGood 0 0x11 ((ring [0x11 + 0x400000]).ringEntry 8 0) = false ∧ base.ringReadable 8 = false ∧
    ((lineDev { lineRun with unanswered := [lineJob 0] }).rlc 0).unanswered = [lineJob 0] ∧ (base.rlc 0).unanswered = [] ∧
    ((lineDev lineRun).rlc 0).strangers.find? (·.1 == 0) = some (0, 77, 0) ∧ (0 : Nat) + 4096 ≤ lineRun.now ∧
    lineRun.now < 300 + 4096 ∧ (contention.rlc 0).challenged = [] ∧ (((cmd 1).rlc 0).entry 5).isSome = true := by
  decide +kernel

/-! #### Stream inputs -/

/-- A frame for the broadcast address, filled up to the shortest length. -/
def ethFrame (type_ : Nat) (body : List Byte) : List Byte :=
  List.replicate 6 0xFF ++ List.replicate 6 1 ++ [BitVec.ofNat 8 (type_ / 256), BitVec.ofNat 8 type_] ++ body ++ List.replicate (46 - body.length) 0
/-- A datagram to UDP port 5004 of 239.0.0.1, without a UDP checksum. -/
def datagram (payload : List Byte) : List Byte :=
  let total := 28 + payload.length
  let head (sum : Nat) : List Byte := [0x45, 0, 0, BitVec.ofNat 8 total, 0, 0, 0, 0, 64, 17, BitVec.ofNat 8 (sum / 256), BitVec.ofNat 8 sum, 10, 0, 0, 1, 239, 0, 0, 1]
  head (65535 - sum16 (head 0) % 65535) ++ [0, 99, 0x13, 0x8C, 0, BitVec.ofNat 8 (8 + payload.length), 0, 0] ++ payload
/-- An RTP packet with one row of two pixels of format 1, and one that is no RTP packet. -/
def rtpGood : List Byte := [0x80, 96, 0, 1, 0, 0, 0, 5, 0, 0, 0, 9, 0, 0, 0, 9, 0, 0, 0, 0] ++ List.replicate 9 7
def rtpBad : List Byte := [0x40, 96]

def streamDev (x : Sip) : Dev := (base.setReg (Reg.CKG_QPLL_STATUS 0) 0x80000000).setSip 1 x
/-- A context of format 1, two pixels by one row, that takes these datagrams. -/
def contextDev (on : Bool) (c : Ctx) : Dev :=
  let d := (streamDev { state := 2 }).setReg (Reg.SIP_CX_CTRL 1 0) (96 * 2 ^ 24 + 2 ^ 10 + 2 ^ 7 + if on then 1 else 0)
  let d := ((d.setReg (Reg.SIP_CX_PORTS 1 0) 5004).setReg (Reg.SIP_CX_DST_IP 1 0) 0xEF000001).setReg (Reg.SIP_CX_SIZE 1 0) 1
  (((d.setReg (Reg.SIP_CX_PITCH 1 0) 256).setReg (Reg.SIP_CX_BUF_LO 1 0 0) 0x200000).setReg (Reg.SIP_CX_BUF_LO 1 0 1) 0x201000).setCtx 1 0 c
def slowEntry (n : Nat) : SlowEntry := { ring := 10, index := n, buf := 0x400000, tag := 5, stamp := true }

/-- Frames: what the link, the filter and Table 11.1 tell apart. -/
theorem witness_StreamPorts_frames :
    let upDev := streamDev { state := 2 }
    let good (bs : List Byte) : Prop := 60 ≤ bs.length ∧ bs.length ≤ 9212 ∧ (ethView bs).doubleTag = false
    let pause (bs : List Byte) : Prop := (ethView bs).type_ = 0x8808 ∧ pkt bs (ethView bs).body 2 = 1
    upDev.tap ≠ .extest ∧ upDev.role 0 ≠ 2 ∧ (upDev.role 1 = 2 ∧ (upDev.sip 1).state = 2) ∧
    ¬good ((ethFrame 0x0806 []).take 59) ∧ (good (ethFrame 0x8808 [0, 1]) ∧ pause (ethFrame 0x8808 [0, 1])) ∧
    (good ((ethFrame 0x0806 []).set 0 2) ∧ upDev.macPasses 1 (ethView ((ethFrame 0x0806 []).set 0 2)).dst = false) ∧
    (good (ethFrame 0x0800 []) ∧ ¬pause (ethFrame 0x0800 []) ∧ upDev.macPasses 1 (ethView (ethFrame 0x0800 [])).dst = true ∧
      (ethView (ethFrame 0x0800 [])).type_ = 0x0800 ∧ (ipView ((ethFrame 0x0800 []).drop 14)).good = false) ∧
    ((ethView (ethFrame 0x88F7 [])).type_ ≠ 0x0800 ∧ (ethView (ethFrame 0x88F7 [])).type_ ≠ 0x0806 ∧
      (ethView (ethFrame 0x88F7 [])).dst ≠ upDev.sipMac 1) ∧
    ((ethView (ethFrame 0x0806 [])).type_ = 0x0806 ∧ (upDev.sip 1).posted = [] ∧ (slowEntry 0).ring < 16384 ∧
      ((streamDev { state := 2, posted := [slowEntry 0] }).setFlag (Reg.RNG_RS_CTRL 10) Fld.RNG_RS_CTRL_HOST).ringHost 10 = true) := by decide +kernel

/-- Packets of a context. -/
theorem witness_StreamPorts_packets :
    let d := contextDev true { state := 1 }
    let matched (bs : List Byte) : Bool := d.matchCtx 1 (ipView (bs.drop 14)) (ethView bs).tci == some 0 && (ipView (bs.drop 14)).good &&
      !(ipView (bs.drop 14)).fragment
    let rtp (bs : List Byte) : Option Rtp := rtpOf (d.ctxFmt 1 0) (d.ctxW 1 0) (d.ctxH 1 0)
      (d.fld (Reg.SIP_CX_CTRL 1 0) Fld.SIP_CX_CTRL_PT) (ipView (bs.drop 14)).payload
    let landed := running (contextDev true { state := 2, landing := [⟨3, 7, 9⟩] })
    (matched (ethFrame 0x0800 (datagram rtpBad)) = true ∧ rtp (ethFrame 0x0800 (datagram rtpBad)) = none) ∧
    (matched (ethFrame 0x0800 (datagram rtpGood)) = true ∧ (rtp (ethFrame 0x0800 (datagram rtpGood))).isSome = true ∧
      d.isPair 1 = false ∧ (d.ctx 1 0).state ≠ 0) ∧
    ((landed.ctx 1 0).landing = [⟨3, 7, 9⟩] ∧ landed.stk.timing ≠ 0 ∧ landed.ctxPlate 1 0 = false) ∧
    (landed.setFlag (Reg.SIP_CX_CTRL 1 0) Fld.SIP_CX_CTRL_TARGET).ctxPlate 1 0 = true ∧ (base.ctx 1 0).landing = [] := by
  decide +kernel

/-- The slow path, contexts, and the link. -/
theorem witness_StreamPortsClassifyAndLandFrames :
    let buffers : Dev → Dev := withWb fun w => { w with parts := [⟨1, 4, 0⟩] }
    let upDev := streamDev { state := 2 }
    let post := buffers ((withRing 10 [[0x20, 0x200000]] upDev).setFld (Reg.SIP_RING 1) Fld.SIP_RING_RX 10)
    let send := buffers ((withRing 10 [[0x21, 0x200000, 0, 60]] upDev).setFld (Reg.SIP_RING 1) Fld.SIP_RING_TX 10)
    (post.fld (Reg.SIP_RING 1) Fld.SIP_RING_RX = 10 ∧ post.ringClass 10 = 6 ∧ post.ringReadable 10 = true ∧ (post.ringSt 10).bound = none ∧
      post.slowGood false (post.ringEntry 10 0) = true) ∧
    (send.fld (Reg.SIP_RING 1) Fld.SIP_RING_TX = 10 ∧ send.ringReadable 10 = true ∧ send.slowGood true (send.ringEntry 10 0) = true ∧
      send.slowGood false (send.ringEntry 10 0) = false) ∧
    ((streamDev { state := 2, sending := [slowEntry 0] }).sip 1).sending = [slowEntry 0] ∧ (upDev.sip 1).sending = [] ∧
    (normalPort base (Reg.SIP_TSF_NS 1) = true ∧ ((streamDev { stamps := [(5, 6, 7)] }).sip 1).stamps = [(5, 6, 7)] ∧
      (upDev.sip 1).stamps = [] ∧ (upDev.sip 1).lastStamp = none) ∧
    (let d := withWb (fun w => { w with blocks := 123 }) (contextDev false {})
     normalPort d (Reg.SIP_CX_CTRL 1 0) = true ∧ d.flag (Reg.SIP_CX_CTRL 1 0) Fld.SIP_CX_CTRL_EN = false ∧
       ((d.genericWrite (Reg.SIP_CX_CTRL 1 0) (96 * 2 ^ 24 + 2 ^ 10 + 2 ^ 7 + 1)).ctxRefusal d 1 0).isNone = true ∧
       ((d.genericWrite (Reg.SIP_CX_CTRL 1 0) 1).ctxRefusal d 1 0).isSome = true) ∧
    ((contextDev true { state := 2 }).flag (Reg.SIP_CX_CTRL 1 0) Fld.SIP_CX_CTRL_EN = true ∧ ((contextDev true { state := 2 }).ctx 1 0).state = 2) ∧
    (let d := withWb (fun w => { w with ports := [0, 0, 0, 0, 10, 2] ++ List.replicate 122 0 }) (base.setCtx 4 0 { state := 2 })
     d.role 4 = 2 ∧ d.isPair 4 = true ∧ (d.ctx 4 0).state = 2) ∧
    (((streamDev { state := 1 }).sip 1).state = 1 ∧ (streamDev { state := 1 }).quadLocked 0 = true ∧ base.quadLocked 0 = false) ∧
    (let d := upDev.setFlag (Reg.SIP_CTRL 1) Fld.SIP_CTRL_EN
     (d.sip 1).state ≠ 0 ∧ d.flag (Reg.SIP_CTRL 1) Fld.SIP_CTRL_EN = true ∧ normalPort d (Reg.SIP_CTRL 1) = true) ∧
    (let d := base.setFld (Reg.SIP_CTRL 1) Fld.SIP_CTRL_EN 0
     (d.sip 1).state = 0 ∧ d.flag (Reg.SIP_CTRL 1) Fld.SIP_CTRL_EN = false ∧ normalPort d (Reg.SIP_CTRL 1) = true) := by decide +kernel

/-! #### The blitter and the tally units -/

/-- A copy (1) or fill (2) of two bytes by one row, from 2 MiB to `dst`; more bits of the first word. -/
def blitWords (op bits0 dst : Nat) : List Nat := [op + bits0, 0x200000, 0, dst, 0, 2, 2, 1] ++ List.replicate 8 0
def blitHead (ws : List Nat) : BlitHead := ⟨4, 0, ws⟩
def blitDev (f : Blt → Blt) : Dev := { running base with blt := f (running base).blt }

theorem witness_BlitsRunFromDescriptorToCompletion :
    let copies := withRing 4 [blitWords 1 0 0x400000] base
    let bad := withRing 4 [blitWords 9 0 0x400000] base
    let cur (r : BlitRun) : Dev := blitDev fun x => { x with current := some r }
    let run (ws : List Nat) : BlitRun := { head := blitHead ws }
    let late := blitWords 2 (2 ^ 24) 0x400000 |>.set 8 (5 + 7 * 65536) |>.set 9 9
    let big := blitWords 1 (2 ^ 14) 0x200001 |>.set 5 0xFFFF |>.set 6 0xFFFF |>.set 7 (0xFFFE + 65536 * 100)
    base.blitReadable 4 = false ∧ (copies.blitReadable 4 = true ∧ opOf (copies.ringEntry 4 (copies.ringCons 4)) = 1 ∧
      copies.blitBad (copies.ringEntry 4 0) = false ∧ copies.bltHalted = false ∧ copies.sdp.power < 2) ∧
    (bad.blitReadable 4 = true ∧ opOf (bad.ringEntry 4 0) ≠ 2 ∧ opOf (bad.ringEntry 4 0) ≠ 3 ∧ bad.blitBad (bad.ringEntry 4 0) = true) ∧
    (2 ≤ (inPower 2 copies).sdp.power) ∧
    (let d := blitDev fun x => { x with heads := [blitHead (blitWords 1 (2 ^ 14) 0x200001)] }
     d.blt.current = none ∧ d.boot.flush = false ∧ d.loaded = true) ∧
    ((blitD big).bounces = true ∧ 1048576 < (blitD big).w * (blitD big).h * (blitD big).e) ∧
    ((blitD (blitWords 1 0 0x400000)).bounces = false) ∧
    (let d := cur { run (blitWords 1 (2 ^ 14) 0x200001) with filling := true, bounced := true }
     let b := blitD (blitWords 1 (2 ^ 14) 0x200001)
     let r : BlitRun := { run (blitWords 1 (2 ^ 14) 0x200001) with filling := true, bounced := true }
     d.readerWaits 0 = false ∧ d.blt.current = some r ∧ d.blitFails r b 0 b.dstEnd [] = [] ∧ d.blitFails r b 0 b.dstEnd [0x2000] = [0x2000]) ∧
    (let ws := blitWords 2 (2 ^ 26) 0x400000 |>.set 10 7 |>.set 12 9
     let d := cur (run ws)
     (blitD ws).wmEn = true ∧ d.stk.timing ≠ 0 ∧ (run ws).descending = false ∧ (run ws).marked = false ∧
       d.blitFails (run ws) (blitD ws) (run ws).upTo (blockEnd (blitD ws).wmEnd) [] = [] ∧ d.advances 7 9 = true) ∧
    (let ws := blitWords 2 (2 ^ 25) 0x400000 |>.set 10 7 |>.set 11 9
     let d := cur (run ws)
     (blitD ws).sigEn = true ∧ (blitD ws).wmEn = false ∧ (blitHead ws).ring < 16384 ∧ d.advances 7 9 = true ∧ (blitD ws).dstHost = false ∧
       d.blitFails (run ws) (blitD ws) (run ws).upTo (blitD ws).dstEnd [] = [] ∧ (run ws).upTo ≤ (blitD ws).dst ∧ d.damaged = [] ∧
       isRecordClass (d.ringClass 4) = false ∧ (blitD ws).dw * (blitD ws).e ≤ (blitD ws).dstPitch ∧ (d.setFlag (Reg.RNG_RS_CTRL 4) Fld.RNG_RS_CTRL_HOST).ringHost 4 = true ∧ (blitD ws).op = 2) ∧
    ((run (blitWords 1 0 0x400000)).bounced = false ∧ (blitD (blitWords 1 0 0x400000)).srcHost = false ∧ (blitD (blitWords 1 0 0x400000)).op = 1) ∧
    (let d := blitDev fun x => { x with heads := [blitHead late] }
     d.blt.heads.find? (fun h => h.ring == 4 && !d.headReady h.words && (blitD h.words).waitLimit != 0) = some (blitHead late)) ∧
    normal base [Reg.BLT_CTRL] = true ∧ Fld.BLT_CTRL_HALT.get 1 = 1 := by decide +kernel

/-- The turn of a waiting head. -/
def headDev : Dev := blitDev fun x => { x with heads := [blitHead (blitWords 1 (2 ^ 14) 0x200001)] }
theorem witness_BlitStart : headDev.blitOrder = [blitHead (blitWords 1 (2 ^ 14) 0x200001)] ∧ base.blitOrder = [] := by
  constructor
  · rw [Dev.blitOrder, show headDev.blt.heads = [blitHead (blitWords 1 (2 ^ 14) 0x200001)] from rfl, List.mergeSort_singleton]
    decide +kernel
  · rw [Dev.blitOrder, show base.blt.heads = [] from rfl, List.mergeSort_nil]
    decide +kernel

/-- A scan of `n` bytes at 2 MiB by unit 0, waiting for fence 5 where asked. -/
def scanWords (n : Nat) (waits : Bool) : List Nat :=
  [1 + (if waits then 2 ^ 24 else 0), 0x200000, 0, n, 0, 0, 0, 0, 5 + 7 * 65536, 9] ++ List.replicate 6 0
def scanHead (waits : Bool) : Scan := ⟨6, 0, scanWords 3 waits⟩

theorem witness_ScansTellTheirCheckValues :
    let asks := withRing 6 [scanWords 3 false] base
    let ready (d : Dev) : Prop := d.hasTly = true ∧ d.ringClass 6 = 4 ∧ d.ringReadable 6 = true ∧ d.scanWaiting 6 = false
    let unit (x : Tly) : Dev := (running base).setTly 0 x
    let late := fun h : Scan => h.ring == 6 && !(unit { heads := [scanHead true] }).scanReady h.words && (scanD h.words).waitLimit != 0
    let scans := unit { current := some (scanHead false), params := some (base.tlyParams 0) }
    base.tap ≠ .extest ∧ (ready asks ∧ (scanD (asks.ringEntry 6 0)).unit_ = 0 ∧ asks.scanBad (asks.ringEntry 6 0) = false ∧ asks.sdp.power < 2 ∧
      asks.fld (Reg.TLY_CFG 0) Fld.TLY_CFG_MODE ≠ 1) ∧
    (let d := withRing 6 [scanWords 0 false] base
     ready d ∧ d.scanBad (d.ringEntry 6 0) = true) ∧ ¬ready base ∧
    ((unit { heads := [scanHead true] }).tly 0).heads.find? late = some (scanHead true) ∧
    (∀ u < 16, u ≠ 0 → ((unit { heads := [scanHead true] }).tly u).heads.find? late = none) ∧
    (let d := unit { heads := [scanHead false] }
     (d.tly 0).current = none ∧ d.boot.flush = false ∧ d.loaded = true) ∧
    ((scans.tly 0).current = some (scanHead false) ∧ (scans.tly 0).params ≠ none ∧ scans.readerWaits 1 = false ∧
      scans.newFails (blocksOf 0x200000 3) [] [] = [] ∧ scans.newFails (blocksOf 0x200000 3) [0x2000] [] ≠ [] ∧ scans.stk.timing ≠ 0 ∧
      (scans.tly 0).fifo.length < 16 ∧ isRecordClass (scans.ringClass 6) = false ∧ scans.damaged = []) ∧
    (normal base [Reg.TLY_CFG 0, Reg.TLY_RF_LO 15] = true ∧ base.tlyRefusal 0 0 = none ∧ base.tlyRefusal 0 (2 * 2 ^ 16) ≠ none) ∧
    ((unit { fifo := [⟨7, 0⟩] }).tly 0).fifo = [⟨7, 0⟩] ∧ (base.tly 0).fifo = [] := by decide +kernel

/-- The turn of a waiting scan. -/
def scanDev : Dev := (running base).setTly 0 { heads := [scanHead false] }
def scanLink : Dev := scanDev.setFld (Reg.TLY_CFG 0) Fld.TLY_CFG_MODE 1
theorem witness_ScanStart : scanDev.scanOrder 0 = [scanHead false] ∧ base.scanOrder 15 = [] ∧
    scanLink.fld (Reg.TLY_CFG 0) Fld.TLY_CFG_MODE = 1 ∧ scanLink.scanOrder 0 = [scanHead false] := by
  refine ⟨?_, ?_, by decide +kernel, ?_⟩
  · rw [Dev.scanOrder, show (scanDev.tly 0).heads = [scanHead false] by decide +kernel, List.mergeSort_singleton]
    decide +kernel
  · rw [Dev.scanOrder, show (base.tly 15).heads = [] by decide +kernel, List.mergeSort_nil]
    decide +kernel
  · rw [Dev.scanOrder, show (scanLink.tly 0).heads = [scanHead false] by decide +kernel, List.mergeSort_singleton]
    decide +kernel

/-! #### Twin pairing -/

/-- A device whose twin port 2 is in a lane state (2 is aligned), in a pairing state. -/
def twinDev (lane state : Nat) (secondary : Bool) (d : Dev) : Dev := withTwn (fun x => { x with lanes := [(2, lane)] }) (inTwin state secondary (running d))
def twinSum (d : Dev) (h : TwinHead) (t : Nat) (p : List Byte) : Word :=
  BitVec.ofNat 32 (crc32c (d.twn.session ++ (leBytes 1 t ++ leBytes 1 0 ++ leBytes 2 p.length ++ leBytes 4 h.seq.toNat ++ leBytes 4 h.ack.toNat ++
    leBytes 4 0) ++ p))
def hears (d : Dev) (h : TwinHead) (t : Nat) (p : List Byte) : Bool := d.twnCrc h t p (twinSum d h t p)
/-- An AUTH payload with its flags. -/
def auth (flags : Nat) : List Byte := List.replicate 80 0 ++ leBytes 6 5 ++ leBytes 2 flags
def authed (flags : Nat) (d : Dev) : Dev := withTwn (fun x => { x with theirAuth := some (auth flags), nonce := List.replicate 32 1 }) d
def keyed (d : Dev) : Dev := withSdp (fun x => { x with keyWritten := 255 }) d
def blockData (check : Nat) : List Byte := leBytes 8 (7 * 256) ++ List.replicate 256 0 ++ leBytes 2 check
/-- The check of block 7 when it holds zeros. -/
def zeroCheck : Nat := blockCheck 7 (List.replicate 256 0)

set_option maxRecDepth 100000 in
/-- The frames that the statement names can be heard, and be in turn. -/
theorem witness_TwinFrames_checks :
    let d := twinDev 2 3 false base
    let h := twinHead
    (d.hasTwn = true ∧ d.lane h.lane = 2 ∧ d.twn.sent = [] ∧ d.twnState ≠ 0 ∧ d.twnState ≠ 5 ∧ d.twn.held = [] ∧ h.seq.toNat = d.twn.rxNext ∧
      d.tlyBound 0 = none ∧ (0 : BitVec 64).toNat = leNat d.twn.session) ∧
    (let w := withTwn (fun x => { x with sent := [⟨0, .bytes 0x01 [], [], 0⟩] }) d
     ∀ x ∈ w.twn.sent, cursorBeyond x.seq ((h.ack.toNat + 1) % 2 ^ 32) = true) ∧ (1 : BitVec 64).toNat ≠ leNat d.twn.session ∧
    waitGood [5, 0, 5, 0] = true ∧ waitGood [5, 0x400, 5, 0] = false ∧
    (hears d h 0x00 [] && hears d h 0x01 (auth 5) && hears d h 0x02 [1] && hears d h 0x03 [1] && hears d h 0x10 [1] &&
      hears d h 0x11 (List.replicate 32 0) && hears d h 0x30 (pcvRecord 5 0 0 77) && hears d h 0x31 (pcvRecord 5 0 0 77 ++ leBytes 1 1) &&
      hears d h 0x40 (List.replicate 16 0) && hears d h 0x41 (blockData 0) && hears d h 0x42 (leBytes 8 0)) = true ∧
    d.twnCrc h 0x00 [] (twinSum d h 0x00 [] + 1) = false ∧ base.lane 2 ≠ 2 ∧ State.reset.dev.hasTwn = false := by decide +kernel

theorem witness_TwinFramesAreTakenOnceInOrder :
    let lateHead : TwinHead := { twinHead with seq := 0xFFFFFFFF }
    let earlyHead : TwinHead := { twinHead with seq := 4 }
    let d (state : Nat) (secondary : Bool) : Dev := twinDev 2 state secondary base
    let q : Parcel := { parcel 0 0 .sealed with pcv := 77, redo := [77] }
    let compares := withRuns [run 5 [] [q]] [] (d 3 false)
    let repairs (l : List Ladder) : Dev := { d 3 false with ladders := l }
    let asked (l : List Ladder) : List Ladder := l.filter fun x => x.block == 7 && x.twin && !x.staging
    (cursorBeyond lateHead.seq.toNat 0 = false ∧ cursorBeyond earlyHead.seq.toNat 0 = true ∧ earlyHead.seq.toNat ≠ 0) ∧
    ((d 1 false).twnState = 1 ∧ (d 1 false).twn.theirAuth = none) ∧
    ((authed 5 (d 1 false)).twn.theirAuth = some (auth 5) ∧ (authed 5 (d 1 false)).twnCheck (auth 5) [1] = 1) ∧
    ((d 3 true).paired = true ∧ (d 3 true).stk.timing ≠ 0 ∧ (d 3 true).secondaryPaired = true ∧ (d 2 true).twnState = 2) ∧
    (normal (d 3 true) [Reg.STK_SHOW 0, Reg.STK_SHOW 15] = true ∧ takesWhole (Reg.STK_SHOW 0) = true ∧ (rowOf (Reg.STK_SHOW 0)).isSome = true) ∧
    ((d 3 false).primaryPaired = true ∧ (d 3 false).twn.snapshot = none) ∧
    (let e := withTwn (fun x => { x with snapshot := some (8, [(1, 3)]) }) (d 3 false)
     e.twn.snapshot = some (8, [(1, 3)]) ∧ e.twn.decision.map (·.1) ≠ some 8) ∧
    (compares.parcel 5 0 0 = some q ∧ compares.parcel 5 0 1 = none ∧ q.st = .sealed ∧ q.agreed = false ∧ q.diverged = false ∧
      q.redoTheirs.length + 1 = 1) ∧
    (asked (repairs [ladder 7 true false]).ladders = [ladder 7 true false] ∧ asked (repairs []).ladders = []) ∧
    ((d 3 false).repairNak 0x400000 5 true = some 1 ∧ (d 3 false).repairNak 0 5 false = some 4) := by decide +kernel

set_option maxRecDepth 100000 in
/-- A block that its check fits, and one that it does not fit. -/
theorem witness_TwinFrames_block :
    let p (c : Nat) := blockData c
    (leNat ((p zeroCheck).take 8) / 256 = 7 ∧ (((p zeroCheck).drop 8).take 256).length = 256 ∧
      blockCheck 7 (((p zeroCheck).drop 8).take 256) = leNat (((p zeroCheck).drop 264).take 2)) ∧
    blockCheck 7 (((p (zeroCheck + 1)).drop 8).take 256) ≠ leNat (((p (zeroCheck + 1)).drop 264).take 2) := by decide +kernel

theorem witness_PairingStatesFollowTable132 :
    let d (lane state : Nat) : Dev := twinDev lane state false base
    let pairEn (x : Dev) : Dev := x.setFlag Reg.TWN_CTRL Fld.TWN_CTRL_PAIR_EN
    let ended := withRuns [run 3 [] [parcel 0 0 .sealed]] [] (d 2 3)
    (base.tap ≠ .extest ∧ (d 1 0).hasTwn = true ∧ (d 1 0).role 2 = 3 ∧ (d 1 0).lane 2 = 1 ∧ (pairEn (d 1 0)).twnState = 0 ∧
      (pairEn (d 1 0)).flag Reg.TWN_CTRL Fld.TWN_CTRL_PAIR_EN = true) ∧ ((d 2 3).lane 2 = 2 ∧ (d 2 3).alignedLanes ≠ []) ∧
    (normalPort (d 1 0) (Reg.TWN_PORT_CTRL 2) = true ∧ ((d 1 0).setFlag (Reg.TWN_PORT_CTRL 2) Fld.TWN_PORT_CTRL_EN).flag
      (Reg.TWN_PORT_CTRL 2) Fld.TWN_PORT_CTRL_EN = true) ∧ ((d 0 0).lane 2 = 0 ∧ (d 0 0).twn.serving = false ∧ (d 0 0).alignedLanes = []) ∧
    ((d 1 3).paired = true ∧ (d 1 3).twnDown = true ∧ (d 1 3).stk.timing ≠ 0) ∧ ((d 2 0).paired = false ∧ (d 2 0).twnState ≠ 4) ∧
    (let e := withTwn (fun x => { x with standby := true }) ((d 2 4).setFld Reg.TWN_STATUS Fld.TWN_STATUS_CAUSE 3)
     e.hasTwn = true ∧ e.paired = false ∧ e.twnState = 4 ∧ e.fld Reg.TWN_STATUS Fld.TWN_STATUS_CAUSE = 3 ∧ e.twn.standby = true) ∧
    (d 2 4).fld Reg.TWN_STATUS Fld.TWN_STATUS_CAUSE = 0 ∧ State.reset.dev.hasTwn = false ∧
    ((d 2 1).twnState = 1 ∧ (d 2 1).sdp.power ≠ 3) ∧
    (let e := withTwn (fun x => { x with agreed := [(40, 300)] }) (d 2 2)
     e.twnState = 2 ∧ max 1 (e.fld Reg.TWN_CTRL Fld.TWN_CTRL_JOIN_STROKES) ≤ e.twn.inRow) ∧
    ((d 2 3).timed = true ∧ (d 2 3).stk.latched = false) ∧ base.timed = false ∧
    ((ended.runOf 3).isSome = true ∧ strokeGe ended.stk.stroke (strokeAdd 3 2) = true) ∧
    (let e := withTwn (fun x => { x with liveAt := some 5, standby := true }) (d 2 3)
     e.twn.liveAt = some 5 ∧ strokeGe e.stk.stroke 5 = true) ∧ strokeGe base.stk.stroke 1 = false ∧
    (let e := withTwn (fun x => { x with serving := true }) (d 2 3)
     e.twn.serving = true ∧ e.alignedLanes ≠ []) ∧
    (normal (d 2 4) [Reg.TWN_CTRL] = true ∧ bit ((d 2 4).reg Reg.TWN_CTRL) 2 = false ∧ bit ((d 2 4).reg Reg.TWN_CTRL) 3 = false ∧
      (d 2 4).stk.timing ≠ 0 ∧ (d 2 4).twnState = 4 ∧ (d 2 5).twnState = 5) := by decide +kernel

/-! #### Steward and lodgers -/

/-- A lane's AUTH payload: its number and depth. -/
def laneAuth (index depth : Nat) : List Byte := List.replicate 32 0 ++ leBytes 4 7 ++ leBytes 1 index ++ leBytes 1 depth ++ leBytes 2 0
def lane (state depth theirs : Nat) : TrkLane := { state := state, depth := depth, theirAuth := some (laneAuth 3 theirs), txSeq := 4 }
def inTrunk (n : Nat) (d : Dev) : Dev := d.setFld Reg.TRK_STATUS Fld.TRK_STATUS_STATE n
/-- A joined steward with a lodger below port 5, and a joined lodger with the steward above port 3. -/
def steward : Dev := withWb (fun w => { w with hierarchy := 1 }) ((inTrunk 2 (running base)).setTlane 5 (lane 3 0 1))
def lodger : Dev := withTrk (fun x => { x with upper := some (0, 3) }) (withWb (fun w => { w with hierarchy := 2, lodger := 7 })
  (((inTrunk 2 (running base)).setTlane 3 (lane 3 1 0)).setFld Reg.TRK_STATUS Fld.TRK_STATUS_DEPTH 1))
def withRoster : Dev := withTrk (fun x => { x with roster := [(7, false), (9, true)] }) steward
def trunkSet (phase : Nat) : TrunkSet :=
  { number := 4, ring := some (14, 0), target := 8, phase := phase, groups := [(7, [some true, none]), (9, [])], deadline := 2 }
def setDev (u : TrunkSet) : Dev := withTrk (fun x => { x with sets := [u] }) withRoster
def fromSteward (seq : Word) : TrunkHead := trunkHead 3 seq 9 0xFF false
def fromLodger : TrunkHead := trunkHead 5 0 0 7 false
def trunkSum (d : Dev) (h : TrunkHead) (t : Nat) (p : List Byte) : Word :=
  BitVec.ofNat 32 (crc32c ((if t = 1 then List.replicate 8 0 else (d.tlane h.port).session) ++
    trunkHeader { type_ := t, origin := h.origin.toNat, sseq := h.sseq.toNat, body := .bytes p } p.length h.seq.toNat h.ack.toNat ++ p))
def hearsTrunk (d : Dev) (h : TrunkHead) (t : Nat) (p : List Byte) : Bool := d.trkCrc h t p (trunkSum d h t p)

set_option maxRecDepth 100000 in
/-- The frames that the statement names can be heard, and be in turn. -/
theorem witness_TrunkFrames_checks :
    let up := fromSteward 0
    let down := fromLodger
    let inTurn (d : Dev) (h : TrunkHead) : Prop := d.hasTrk = true ∧ d.role h.port = 4 ∧ 2 ≤ (d.tlane h.port).state ∧
      (d.tlane h.port).sent = [] ∧ (d.tlane h.port).held = [] ∧ h.seq.toNat = (d.tlane h.port).rxNext ∧ d.tlyBound 1 = none
    inTurn lodger up ∧ inTurn steward down ∧
    (hearsTrunk lodger up 0x00 [] && hearsTrunk lodger up 0x01 (laneAuth 3 0) && hearsTrunk lodger up 0x02 [1] &&
      hearsTrunk lodger up 0x10 (List.replicate 32 0) && hearsTrunk lodger up 0x11 (leBytes 6 5 ++ [1, 0] ++ leBytes 8 77) &&
      hearsTrunk lodger up 0x20 (leBytes 1 0 ++ leBytes 1 7 ++ leBytes 4 4 ++ leBytes 6 40 ++ [0, 1, 0, 0]) && hearsTrunk lodger up 0x22 (leBytes 4 4) &&
      hearsTrunk lodger up 0x23 (leBytes 4 4) && hearsTrunk lodger up 0x25 (leBytes 6 8) && hearsTrunk lodger up 0x31 (leBytes 8 128 ++ leBytes 2 0x7001) &&
      hearsTrunk lodger up 0x32 [1]) = true ∧
    (hearsTrunk steward down 0x21 (leBytes 4 4 ++ [0]) && hearsTrunk steward down 0x24 (leBytes 6 9 ++ leBytes 4 4 ++ leBytes 8 3 ++ leBytes 1 1) &&
      hearsTrunk steward down 0x26 (leBytes 4 4 ++ leBytes 6 9 ++ [1]) && hearsTrunk steward down 0x27 (leBytes 4 4) &&
      hearsTrunk steward down 0x30 (List.replicate 48 3) && hearsTrunk steward down 0x32 [1]) = true ∧
    lodger.trkCrc up 0x22 (leBytes 4 4) (trunkSum lodger up 0x22 (leBytes 4 4) + 1) = false ∧ State.reset.dev.hasTrk = false := by decide +kernel

set_option synthInstance.maxSize 1000 in
theorem witness_TrunkFramesAreTakenOnceInOrder :
    let up := fromSteward 0
    let down := fromLodger
    let who := (down.origin.toNat, down.second)
    let joining := withWb (fun w => { w with hierarchy := 2, lodger := 7 }) ((inTrunk 1 (running base)).setTlane 3 (lane 2 0xFF 0))
    let image := withWb (fun w => { w with hierarchy := 2, lodger := 7 }) ((inTrunk 1 (running base)).setTlane 3 (lane 3 1 0))
    let prepared : QSet := { queued 9 with origin := .trunk 4 }
    (cursorBeyond (fromSteward 0xFFFFFFF0).seq.toNat (lodger.tlane 3).rxNext = false ∧ cursorBeyond (fromSteward 2).seq.toNat (lodger.tlane 3).rxNext = true) ∧
    (lodger.joinedLodger = true ∧ 3 ∈ lodger.uplinks ∧ lodger.stk.running = true ∧ lodger.stk.timing ≠ 2 ∧ up.sseq.toNat ∉ lodger.trk.seen) ∧
    ((withTrk (fun x => { x with seen := [9] }) lodger).trk.seen = [9]) ∧
    (let d := joining.setTlane 3 { lane 2 0xFF 0 with theirAuth := none }
     d.trkState = 1 ∧ (d.tlane 3).state = 2 ∧ (d.tlane 3).theirAuth = none) ∧
    ((joining.tlane 3).state = 2 ∧ (joining.tlane 3).theirAuth = some (laneAuth 3 0) ∧ (joining.tlane 3).depth ≠ (joining.tlane 3).theirDepth ∧
      joining.keyPresent = false ∧ (keyed joining).keyPresent = true ∧ leNat (((laneAuth 3 0).drop 32).take 4) = joining.wb.stage ∧
      min (joining.tlane 3).depth (joining.tlane 3).theirDepth ≠ 3) ∧
    (lodger.trkJoined = true ∧ (withStk (fun x => { x with running := false, timing := 2 }) lodger).stk.running = false) ∧
    (steward.trkJoined = true ∧ steward.isDownlink 5 = true ∧ steward.originator = true ∧ who ∈ withRoster.trk.roster) ∧
    (let relay := lodger.setTlane 5 (lane 3 1 2)
     relay.originator = false ∧ relay.steward = false ∧ relay.isDownlink 5 = true ∧ relay.downlinks = [5]) ∧
    ((inTwin 3 true steward).originator = false ∧ (inTwin 3 true steward).steward = true ∧ (inTwin 3 true steward).secondaryPaired = true) ∧
    (let d := (cursors 2 0 0 0 true)
     isRecordClass (d.ringClass 2) = true ∧ d.ringEn 2 = true ∧ d.ringOcc 2 < d.ringN 2) ∧
    ((setDev (trunkSet 0)).trk.sets = [trunkSet 0] ∧ (trunkSet 0).phase = 0 ∧ (trunkSet 0).number = 4) ∧
    (who ∈ (setDev (trunkSet 3)).setDevices (trunkSet 3) ∧ (∃ y ∈ (setDev (trunkSet 3)).setDevices (trunkSet 3), y ≠ who)) ∧
    (let u : TrunkSet := { trunkSet 3 with applied := [((9, true), true)] }
     ∀ y ∈ (setDev u).setDevices u, y = who ∨ y = (9, true)) ∧
    (let u : TrunkSet := { trunkSet 4 with rf := some (3, 9), released := [(9, true)] }
     (∀ y ∈ (setDev u).setDevices u, y = who ∨ y ∈ u.released) ∧ (setDev u).advances 3 9 = true ∧ (setDev u).stk.timing ≠ 0) ∧
    (lodger.downlinks = [] ∧ lodger.trk.groups = [] ∧ lodger.trk.image = none) ∧
    ((withTrk (fun x => { x with image := some (4, [1]) }) lodger).trk.image = some (4, [1]) ∧
      lodger.flp.prepared.find? (fun q => q.origin == .trunk 4) = none) ∧
    ((withFlp (fun x => { x with prepared := [prepared] }) lodger).flp.prepared.find? (fun q => q.origin == .trunk 4) = some prepared) ∧
    (bit 0x80 lodger.wb.lodger = true ∧ bit 0x100 lodger.wb.lodger = false) ∧
    (image.trkState = 1 ∧ image.steward = false ∧ 3 ∈ image.uplinks ∧ (trunkHead 3 0 0 0xFF false).sseq.toNat = 0 ∧
      up.sseq.toNat ≠ 0) := by decide +kernel

/-- A TSET of one group for lodger 7, at ring 14. -/
def tsetWords (target : Nat) : List (List Nat) := [[8 + 256, target, 0, 3, 0, 0, 0, 55], [1 + 256, 0, 0, 0, 0, 0, 7], [4 + 3 * 256, 1]]
def tsetDev (target : Nat) : Dev := (withRing 14 (tsetWords target) withRoster).setFld Reg.TRK_RING Fld.TRK_RING_SET 14

theorem witness_TrunkStatesAndSetsGoOn :
    let ours (d : Dev) (p : Nat) : Prop := d.hasTrk = true ∧ d.role p = 4
    let at3 (x : TrkLane) (n : Nat) : Dev := withWb (fun w => { w with hierarchy := 2, lodger := 7 }) ((inTrunk n (running base)).setTlane 3 x)
    let join (d : Dev) : Dev := d.setFlag Reg.TRK_CTRL Fld.TRK_CTRL_JOIN_EN
    let sentFrame (n : Nat) : SentTrunk := { seq := 0, frame := { type_ := 0x20, origin := 1, sseq := 0, body := .bytes [1] }, session := [], resends := n }
    (base.tap ≠ .extest ∧ ours base 3 ∧ ¬ours base 0 ∧ ((at3 (lane 1 0xFF 0) 0).tlane 3).state = 1) ∧
    ((join (at3 (lane 1 0xFF 0) 0)).flag Reg.TRK_CTRL Fld.TRK_CTRL_JOIN_EN = true ∧ (join (at3 (lane 1 0xFF 0) 0)).trkState = 0) ∧
    (2 ≤ (lodger.tlane 3).state ∧ lodger.trkJoined = true ∧ lodger.steward = false ∧ ∀ q ∈ lodger.uplinks, q = 3) ∧
    (((at3 (lane 2 0xFF 0) 1).tlane 3).state = 2 ∧ (at3 (lane 2 0xFF 0) 1).trkState = 1) ∧
    ((lodger.setTlane 3 { lane 3 1 0 with sent := [sentFrame 15] }).tlane 3).sent = [sentFrame 15] ∧
    ((lodger.setTlane 3 { lane 3 1 0 with sent := [sentFrame 16] }).tlane 3).sent = [sentFrame 16] ∧
    (let d := withTrk (fun x => { x with active := some 3 }) lodger
     d.trk.active = some 3 ∧ d.uplinks.filter (fun q => q != 3 && !(d.tlane q).silent) = [] ∧
       (d.setTlane 5 (lane 3 1 0)).uplinks.filter (fun q => q != 3 && !((d.setTlane 5 (lane 3 1 0)).tlane q).silent) = [5] ∧
       ((d.setTlane 5 (lane 3 1 0)).tlane 5).demoted = false) ∧
    lodger.trk.active = none ∧
    (normalPort lodger (Reg.TRK_PORT_CTRL 3) = true ∧ (lodger.setFlag (Reg.TRK_PORT_CTRL 3) Fld.TRK_PORT_CTRL_EN).flag (Reg.TRK_PORT_CTRL 3)
      Fld.TRK_PORT_CTRL_EN = true) ∧ (base.tlane 3).state = 0 ∧
    (normal lodger [Reg.TRK_CTRL, Reg.TRK_DB_CTRL] = true ∧ bit (lodger.reg Reg.TRK_CTRL) 1 = false ∧ lodger.trkState = 2 ∧
      (inTrunk 3 lodger).trkState = 3 ∧ lodger.originator = false) ∧
    (let d (n : Nat) := steward.setFld Reg.TRK_DB_SOURCE Fld.TRK_DB_SOURCE_SOURCE n
     normal (d 0x7EFF) [Reg.TRK_DB_CTRL] = true ∧ (d 0x7EFF).fld Reg.TRK_DB_SOURCE Fld.TRK_DB_SOURCE_SOURCE = 0x7EFF ∧
       (d 0x7F00).fld Reg.TRK_DB_SOURCE Fld.TRK_DB_SOURCE_SOURCE = 0x7F00 ∧ steward.originator = true ∧ steward.trkJoined = true ∧
       steward.twnState ≠ 3) ∧
    (lodger.joinedLodger = true ∧ lodger.timed = true ∧ lodger.stk.latched = false ∧ lodger.eligibleSets lodger.nextStroke true = []) ∧
    (let d := withFlp (fun x => { x with queue := [{ queued 5 with origin := .trunk 4 }] }) lodger
     d.eligibleSets d.nextStroke true ≠ []) ∧
    ((7, false) ∈ withRoster.trk.roster ∧ withRoster.trk.sets = [] ∧ (7, true) ∉ (setDev (trunkSet 0)).trk.roster ∧
      ((trunkSet 0).groups.any fun g => g.1 == 7) = true) := by decide +kernel

set_option synthInstance.maxSize 1000 in
/-- Trunk sets: what the originator reads, commits and decides. -/
theorem witness_TrunkSets :
    let reads (d : Dev) : Prop := d.originator = true ∧ d.trkJoined = true ∧ d.loaded = true ∧ d.trunkRing = 14 ∧ d.ringClass 14 = classTrunk ∧
      d.ringReadable 14 = true ∧ (d.ringSt 14).bound = none ∧ d.sdp.power ≠ 1
    let en (d : Dev) := d.ringEntry 14 (d.ringCons 14)
    let n (d : Dev) := 1 + d.groupEntries 14 1 (bits (wordOf (en d) 0) 14 8)
    let gs (d : Dev) := d.trunkGroups 14 1 (bits (wordOf (en d) 0) 14 8)
    let good := tsetDev 100
    let u : TrunkSet := { trunkSet 0 with target := 9, answers := [((7, false), 0), ((9, true), 0)] }
    let decides : TrunkSet := { trunkSet 1 with target := 6, ready := [(6, (7, false), 3, false), (6, (9, true), 0, false)] }
    let got (y : Nat × Bool) : Option (Nat × Bool) :=
      (decides.ready.find? fun r => r.1 == (setDev decides).nextStroke && r.2.1 == y).map fun r => (r.2.2.1, r.2.2.2)
    ¬reads base ∧ (reads good ∧ opOf (en good) = 8 ∧ n good ≤ good.unreadIn 14 ∧ good.tsetGood (en good) (gs good) = true ∧
      (setHead (en good)).next = false ∧ good.tooFar 100 = false ∧ good.cutoffPassed 100 = false ∧
      (∀ g ∈ gs good, ∃ y ∈ good.trk.roster, y.1 = (setHead g.1).lodger)) ∧
    (let d := good.setReg (Reg.RNG_RS_PROD 14) 2
     reads d ∧ opOf (en d) = 8 ∧ d.unreadIn 14 < n d) ∧
    (reads (tsetDev 5) ∧ (tsetDev 5).tooFar 5 = false ∧ (tsetDev 5).cutoffPassed 5 = true) ∧ (tsetDev 20000).tooFar 20000 = true ∧
    (let d := withTrk (fun x => { x with roster := [(8, false)] }) good
     reads d ∧ ∃ g ∈ gs d, ∀ y ∈ d.trk.roster, y.1 ≠ (setHead g.1).lodger) ∧
    ((setDev u).trk.sets = [u] ∧ u.phase = 0 ∧ ((setDev u).latchTime u.target).isSome = true ∧
      (∀ y ∈ (setDev u).setDevices u, (u.answers.find? fun a => a.1 == y).map (·.2) = some 0)) ∧
    ((setDev (trunkSet 0)).setDevices (trunkSet 0) ≠ [] ∧ (trunkSet 0).answers = []) ∧
    ((setDev decides).timed = true ∧ (setDev decides).stk.latched = false ∧ decides.phase = 1 ∧
      strokeGe (setDev decides).nextStroke decides.target = true ∧ (∀ y ∈ (setDev decides).setDevices decides, ∃ m ∈ [0, 3], got y = some (m, false)) ∧
      groupMissing [some true, none] 3 = (false, false) ∧ groupMissing [] 0 = (false, false)) := by decide +kernel

/-! ### Hypotheses that need a keyed hash -/

def twinGood : Dev := keyed (authed 5 (twinDev 2 1 false base))

set_option maxRecDepth 100000 in
/-- A twin TAG that every check of R309 passes: the sender's flags name the other lane order and one key is in place. -/
theorem witness_TwinTagAccepted : twinGood.twnCheck (auth 5) (twinGood.twnTag (auth 5)) = 0 := by decide +kernel

def laneGood : Dev := keyed ((inTrunk 1 (running base)).setTlane 3 (lane 2 0xFF 0))

set_option maxRecDepth 100000 in
/-- A trunk TAG that every check of R328 passes. -/
theorem witness_TrunkTagAccepted :
    let x := laneGood.tlane 3
    let tag := laneGood.laneTag x false
    laneGood.keyPresent = true ∧ leNat (((laneAuth 3 0).drop 32).take 4) = laneGood.wb.stage ∧ x.state = 2 ∧
      x.theirAuth = some (laneAuth 3 0) ∧ ¬x.depth < x.theirDepth ∧ min x.depth x.theirDepth ≠ 3 ∧ tag.take 48 = tag := by decide +kernel

set_option maxRecDepth 100000 in
/-- The token of an UNLOCK: all that R432 asks of it but the signature, whose two point multiplications are too long for the kernel. -/
theorem witness_UnlockToken_but_the_signature :
    let key : List Byte := List.replicate 97 7
    let token : List Byte := leBytes 4 0x4B4C4E55 ++ leBytes 4 0 ++ leBytes 8 0 ++ List.replicate 32 0 ++ key ++ List.replicate 15 0
    let d : Dev := { withSdp (fun x => { x with nonceValid := true }) base with
      mem := (token.zipIdx.map fun x => (x.2, x.1)).filter (fun x => x.2 != memDefault x.1)
      fuses := { base.fuses with serviceHash := sha384 key } }
    let t := d.memRead (d.pair Reg.SDP_UNLOCK_ADDR_LO Reg.SDP_UNLOCK_ADDR_HI) 256
    (imgNat t 0 4 = 0x4B4C4E55 ∧ imgNat t 4 4 = 0 ∧ imgNat t 8 8 = d.fuses.serial ∧
      (t.drop 0x10).take 32 = wordBytes ((List.range 8).map fun k => d.reg (Reg.SDP_NONCE k))) ∧
    (imgNat t 0x91 15 = 0 ∧ sha384 ((t.drop 0x30).take 97) = d.fuses.serviceHash) ∧
    (d.sdp.sec ≠ 2 ∧ d.sdp.power < 2 ∧ d.sdp.unlockFails < 3 ∧ d.sdp.nonceValid = true) := by decide +kernel
/-! ### Witnesses of further clauses -/

theorem witness_AccessesFallBackDuringTheReload :
    let d := withBoot (fun b => { b with load := some .slotA }) base
    d.boot.load ≠ none ∧ blkOf Reg.PRT_EVENT = some .prt ∧ blkOf (Reg.CPT_CTRL 0 % 0x10000000) = some (.port 0) := by decide +kernel

theorem witness_Bar2ReachesWeakBlocks :
    let d := { base with weak := [2] }
    (2 ∈ partBlocks 600 3 ∧ 2 ∈ d.weak ∧ d.isDamaged 2 = false) ∧ (∀ b ∈ partBlocks 1 510, d.isDamaged b = false ∧ b ∉ d.weak) := by
  decide +kernel

theorem witness_DebugReadsOfStagingAndMemory :
    let reads (sp x : Nat) : Dev := { dbgIn 2 with dbg := { read := some (sp, 1, x) } }
    ((reads 0 64).rangeDamaged 64 32 = false ∧ { reads 0 64 with damaged := [0] }.rangeDamaged 64 32 = true) ∧
    ((reads 3 0).dbg.read = some (3, 1, 0) ∧ (reads 3 0).hasPrt = true ∧ (reads 3 0).sdp.power ≠ 3) ∧
    ((inPower 3 (reads 3 0)).dbg.read = some (3, 1, 0) ∧ (inPower 3 (reads 3 0)).sdp.power = 3) ∧ (inPower 2 (reads 1 0)).sdp.power = 2 := by
  decide +kernel

theorem witness_LullTakesRequests :
    let lull := inPower 1 base
    let stew := withWb (fun w => { w with hierarchy := 1 }) (withTrk (fun x => { x with roster := [(3, false)] }) lull)
    (lull.sdp.request = .none ∧ lull.sdp.waking = false ∧ lull.sdp.power = 1 ∧ lull.boot.lastSource = none ∧ lull.originator = false) ∧
    (stew.originator = true ∧ stew.trk.roster ≠ [] ∧ stew.sdp.power = 1 ∧ stew.boot.lastSource = none) ∧
    (withBoot (fun b => { b with lastSource := some (.host 8) }) lull).boot.lastSource = some (.host 8) ∧
    (base.boot.flush = false ∧ (withBoot (fun b => { b with flush := true }) base).boot.flush = true) := by decide +kernel

theorem witness_OneTripOfTwo :
    let hbm : List (BitVec 16) := List.replicate 8 0
    let d := after (.sensorSample (List.replicate 16 0x7FFF) hbm) base
    hbm.length = 8 ∧ signed 16 base.dieMax < signed 16 (base.reg Reg.SDP_THERM_DIE % 2 ^ 16) ∧
    signed 16 (base.reg Reg.SDP_THERM_DIE % 2 ^ 16) ≤ signed 16 d.dieMax ∧ signed 16 d.hbmMax < signed 16 (base.reg Reg.SDP_THERM_HBM % 2 ^ 16) ∧
    d.reg Reg.SDP_TRIP_CNT = 1 := by decide +kernel

theorem witness_BootRunsOutsideFlushAndRest :
    let runs (d : Dev) : Prop := d.boot.flush = false ∧ (d.sdp.power ≠ 3 ∨ d.boot.fromRest = true)
    runs (inReset .cold) ∧ ¬runs (flushing .cold) ∧ ¬runs inRest ∧ runs (withBoot (fun b => { b with fromRest := true }) inRest) ∧
    (runs (withBoot (fun b => { b with trained := true }) base) ∧ (withBoot (fun b => { b with trained := true }) base).boot.trained = true) := by
  decide +kernel

theorem witness_FlashCopiesMeetNoWeakBlock :
    (∀ b ∈ partBlocks 8200 4096, base.isDamaged b = false ∧ b ∉ base.weak) ∧ partBlocks 8200 4096 = [32, 48] := by decide +kernel

theorem witness_FlashLoadsBeginFromEmpty :
    let rest := withBoot (fun b => { b with fromRest := true }) inRest
    (base.boot.wbl = true ∧ base.boot.flush = false ∧ base.sdp.power ≠ 3 ∧ base.wblState = 0 ∧ base.boot.fromRest = false) ∧
    (rest.boot.wbl = true ∧ rest.boot.flush = false ∧ rest.wblState = 0 ∧ rest.boot.fromRest = true ∧ rest.boot.lastSource = none) ∧
    (withBoot (fun b => { b with lastSource := some .slotA }) rest).boot.lastSource = some .slotA ∧ (wblIn 3 base).wblState ≠ 0 := by decide +kernel

theorem witness_LevelSourcesAreServed :
    let d := bell 40 [⟨0x43F1, 1, 0⟩]
    let claims := d.setReg (Reg.BEL_PG_CTRL 1) 1
    let serves := claims.setBelClass 1 { entry := some (.claimed 0x43F1 1 false) }
    ((claims.claimMode 1 = true ∨ claims.claimMode 1 = false) ∧ (claims.belClass 1).entry = none ∧ claims.fastInService 1 = false ∧
      isLevel 0x43F1 = true ∧ claims.bel.levels.contains 0x43F1 = false) ∧
    (withBel (fun b => { b with levels := [0x43F1] }) claims).bel.levels.contains 0x43F1 = true ∧
    ((d.routedOrder 1)[1]? = some 0x43F1 ∧ d.routeOf 0x43F1 = some 1 ∧ d.belPending 0x43F1 ≠ none) ∧
    (serves.belClass 1).entry = some (.claimed 0x43F1 1 false) := by decide +kernel

theorem witness_RingsArePlacedOrRefused :
    let off := cursors 6 20 10 10 false
    let busy := cursors 6 20 15 10 false
    let written (d : Dev) (v : Nat) : Dev := d.genericWrite (Reg.RNG_RS_CTRL 6) (v ||| 1)
    let keeps : Nat := 10 * 2 ^ 22 + 4 * 2 ^ 16
    let log (d : Dev) : Nat := d.fld (Reg.RNG_RS_CTRL 6) Fld.RNG_RS_CTRL_SIZELOG
    (off.ringBusy 6 = false ∧ (written off keeps).ringPlaced 6 = true) ∧ (written off (keeps - 2 ^ 16)).ringPlaced 6 = false ∧
    (busy.ringBusy 6 = true ∧ log (written busy (keeps + 2 ^ 16)) ≠ log busy ∧ busy.fld Reg.RNG_REFUSED Fld.REFUSED_REFUSED = 0 ∧
      busy.ringPlaced 6 = true) := by decide +kernel

theorem witness_FormatChangesHoldTheirOutput :
    let on := base.setReg (Reg.CKG_OUT_CTRL 0) (Fld.CKG_OUT_CTRL_FMT.put (Fld.CKG_OUT_CTRL_SRC.put 0 1) 1)
    let ctrl := Fld.CKG_OUT_CTRL_FMT.put (Fld.CKG_OUT_CTRL_SRC.put 0 1) 2
    normal on [Reg.CKG_OUT_CTRL 0] = true ∧ Fld.CKG_OUT_CTRL_SRC.get ctrl ≠ 0 ∧ on.tap ≠ .extest ∧
    Fld.CKG_OUT_CTRL_FMT.get ctrl ≠ on.fld (Reg.CKG_OUT_CTRL 0) Fld.CKG_OUT_CTRL_FMT := by decide +kernel

/-- What a latch point applies: a set, a commit, a plate ring, the deal. -/
theorem witness_LatchPointsApplyAndDeal :
    let d := running base
    let q : QSet := { queued 5 with id := 3, members := [.flip 7 false false false 0x400000 0 0 0 0] }
    let sets := withFlp (fun x => { x with queue := [q] }) (d.setReg (Reg.PRT_LD_CTRL_LIVE 7 + 4) 256)
    let commits := d.setCoach 0 { pending := true, target := some 6 }
    let plays := ((d.setReg (Reg.STL_PR_CTRL 0) 1).setFld Reg.SDP_POWER Fld.SDP_POWER_LULL_EN 0).setPlate 0 { run := true }
    (d.wb.loaded = true ∧ d.stk.running = true ∧ d.stk.latched = false ∧ d.boot.flush = false ∧ d.stk.reframe = none ∧ d.stk.timing ≠ 0 ∧
      d.sdp.request = .none ∧ d.paired = false ∧ d.joinedLodger = false ∧ d.flp.waits = [] ∧ d.flp.applied = [] ∧ d.flp.unreleased = [] ∧
      d.trk.sets = [] ∧ d.flp.queue = []) ∧
    (sets.flp.queue = [q] ∧ q.origin = .own 0 0 ∧ q.words = [] ∧ sets.eligible q 6 = true ∧ waitMissing q (sets.readyMask q) = false ∧
      sets.buffersBad q = false ∧ (layerAt sets.regs 7).plate = false) ∧
    (0 ∈ commits.captures 6 ∧ (∀ x ∈ commits.splitHolders ((commits.captures 6).foldl (fun c q => cfgOverlay c (commits.routeWords q)) commits.regs),
      (commits.coach x).pending = false)) ∧
    (plays.hasStl = true ∧ plays.composes = true ∧ plays.sdp.power = 0 ∧ plays.plateEn 0 = true ∧ (plays.plate 0).run = true ∧
      (plays.nextPhase + if plays.live.racing then 0 else plays.live.compLead) % plays.live.phases = 0 ∧
      plays.flag Reg.SDP_POWER Fld.SDP_POWER_LULL_EN = false) := by decide +kernel

theorem witness_ReferenceInstantsMoveTheLoop :
    let d := locked 2 true
    d.fld Reg.STK_SRC Fld.STK_SRC_SRC = 0 ∧ d.stk.running = true ∧ d.stk.lock = 2 ∧ (locked 0 true).stk.lock = 0 ∧
    (locked 3 true).stk.lock = 3 := by decide +kernel

theorem witness_LadderEntriesAreLogged :
    let l := { base with ladders := [ladder 3 false false] }
    l.ladders.find? (fun l => l.block == 3 && l.staging == false && !l.twin) = some (ladder 3 false false) ∧
    bit (l.reg Reg.DEP_LOG_RING) 31 = false ∧ base.weak = [] := by decide +kernel

theorem witness_PixelBits : (4 : Nat) ≤ 16 ∧ (∀ f ∈ [0xFFFF, 0x8000, 0], f < 2 ^ 16) ∧
    (leNat (packPixels 12 [0xFFF0, 0x8010, 0]) = 0xFFF + 0x801 * 2 ^ 12) := by decide +kernel

theorem witness_PacketsWaitOrFindNoRoom :
    let d := contextDev true { state := 1 }
    let full := contextDev true { state := 1, rx := [(0, List.replicate 40 0, .good)] }
    (d.rxRoom 1 0 29 = true ∧ (d.ctx 1 0).rx = []) ∧ d.rxRoom 1 0 (2 ^ 20 + 1) = false ∧ d.rxRoom 1 0 (2 ^ 20) = true ∧
    (full.ctx 1 0).rx ≠ [] := by decide +kernel

theorem witness_BlitsGoOnPastTheirWatermark :
    let ws := blitWords 2 (2 ^ 25) 0x400000 |>.set 5 300 |>.set 6 300 |>.set 7 (255 + 65536)
    let r : BlitRun := { head := blitHead ws, upTo := 0x400100, marked := true, carry := [(7, false)] }
    let d := blitDev fun x => { x with current := some r }
    (d.blt.current = some r ∧ (blitD ws).dstHost = false ∧ (blitD ws).dw * (blitD ws).e ≤ (blitD ws).dstPitch ∧ d.weak = [] ∧ d.damaged = []) ∧
    ((blitD ws).dstAddr 0 0 < r.upTo ∧ r.upTo ≤ (blitD ws).dstAddr 0 1 ∧ r.carry[0]? = some (7, false) ∧ r.carry[1]? = none) := by decide +kernel

theorem witness_ResolvesWriteOrFailTheirSeal :
    let q : Parcel := { parcel 0 0 .sealed with pcv := 76, redo := [77] }
    q.redo = [77] ∧ q.agreed = false ∧ q.diverged = false ∧ q.pcv ≠ 77 ∧ q.redoTheirs.length + 1 = 1 := by decide

/-! ### Witnesses of reads under the block check, and of later clauses -/

/-- Every block of a device without damaged and weak blocks passes its check. -/
theorem readsWhole_of_clean {d : Dev} (h : d.damaged = [] ∧ d.weak = []) (blocks : List Nat) : d.ReadsWhole blocks := by
  intro b _
  simp [Dev.isDamaged, h.1, h.2]

/-- What an engine reads of a ring's entry leaves a small device as it was. -/
theorem witness_EntriesAreFetched :
    let clean (d : Dev) : Prop := d.damaged = [] ∧ d.weak = []
    let line := (withRing 8 [[0x10 + 0x60000, 55, 0, 3, 9]] (lineDev lineRun)).setReg (Reg.RLC_RING 0) 8
    let f := (line.ringBind 8 (Reg.RLC_RING 0)).2.ringFetch 8 0 1
    let buffers : Dev → Dev := withWb fun w => { w with parts := [⟨1, 4, 0⟩] }
    let post := buffers ((withRing 10 [[0x20, 0x200000]] (streamDev { state := 2 })).setFld (Reg.SIP_RING 1) Fld.SIP_RING_RX 10)
    let g := (post.ringBind 10 (2 * Reg.SIP_RING 1)).2.ringFetch 10 0 1
    let send := buffers ((withRing 10 [[0x21, 0x200000, 0, 60]] (streamDev { state := 2 })).setFld (Reg.SIP_RING 1) Fld.SIP_RING_TX 10)
    let h := (send.ringBind 10 (2 * Reg.SIP_RING 1 + 1)).2.ringFetch 10 0 1
    let copies := (withRing 4 [blitWords 1 0 0x400000] base).ringFetch 4 0 1
    let bad := (withRing 4 [blitWords 9 0 0x400000] base).ringFetch 4 0 1
    let scans := (withRing 6 [scanWords 3 false] base).ringFetch 6 0 1
    (clean line ∧ opOf (f.ringEntry 8 (f.ringCons 8)) = 0x10 ∧ f.telemetryGood 0 0x10 (f.ringEntry 8 (f.ringCons 8)) = true ∧
      (f.rlc 0).run = true ∧ (f.rlc 0).entry 6 = none ∧ ∀ st ∈ (f.rlc 0).enrolled, st.id ≠ 55) ∧
    (clean post ∧ g.slowGood false (g.ringEntry 10 (g.ringCons 10)) = true) ∧
    (clean send ∧ h.slowGood true (h.ringEntry 10 (h.ringCons 10)) = true ∧ h.slowGood false (h.ringEntry 10 (h.ringCons 10)) = false ∧ clean h) ∧
    (copies.blitBad (copies.ringEntry 4 0) = false ∧ copies.bltHalted = false ∧ copies.sdp.power < 2) ∧
    bad.blitBad (bad.ringEntry 4 0) = true ∧
    (scans.scanBad (scans.ringEntry 6 0) = false ∧ scans.sdp.power < 2 ∧ scans.fld (Reg.TLY_CFG 0) Fld.TLY_CFG_MODE ≠ 1) := by decide +kernel

set_option maxRecDepth 100000 in
/-- A set and a FENCE_WAIT that are read. -/
theorem witness_FetchedFlipSets :
    let d := withRing 0 [setEntry 0 7 110 false] (running base)
    let f := d.fetchSet 0
    let en := f.ringEntry 0 (f.ringCons 0)
    let h := setHead en
    let g := (fullQueue d).fetchSet 0
    let w := (withRing 0 [[5, 0, 5, 0]] (running base)).ringFetch 0 0 1
    let hold := (withFlp (fun x => { x with full := some 0 }) d).fetchSet 0
    (d.damaged = [] ∧ d.weak = [] ∧ opOf en = 1 ∧ h.count + 1 ≤ f.unreadIn 0 ∧ f.queueRoom h.count = true ∧ f.primaryPaired = false ∧
      f.sdp.power ≠ 1 ∧ f.stk.timing ≠ 0 ∧ (f.judgeSet (.own 0 (f.ringCons 0)) false en (f.entriesFrom 0 1 h.count) h.target h.deadline).set.isSome = true) ∧
    (opOf (g.ringEntry 0 (g.ringCons 0)) = 1 ∧ g.queueRoom (setHead (g.ringEntry 0 (g.ringCons 0))).count = false) ∧
    (opOf (w.ringEntry 0 (w.ringCons 0)) = 5 ∧ reservedClear [0xFF, 0x3FF, 0xFFFFFFFF, 0xFFFF] (w.ringEntry 0 (w.ringCons 0)) = true ∧
      w.primaryPaired = false ∧ w.paired = false ∧ w.weak = [] ∧ w.damaged = []) ∧
    (opOf (hold.ringEntry 0 (hold.ringCons 0)) = 1 ∧ hold.queueRoom (setHead (hold.ringEntry 0 (hold.ringCons 0))).count = true ∧
      hold.primaryPaired = false ∧ hold.sdp.power ≠ 1 ∧ hold.stk.timing ≠ 0) := by decide +kernel

set_option synthInstance.maxSize 1000 in
/-- A TSET that is read once its ring holds it whole. -/
theorem witness_FetchedTrunkSets :
    let d := tsetDev 100
    let f := (d.ringBind 14 (2 * Reg.TRK_RING)).2.ringFetch 14 0 (d.frontEntries 14)
    let en := f.ringEntry 14 (f.ringCons 14)
    let gs := f.trunkGroups 14 1 (bits (wordOf en 0) 14 8)
    (d.damaged = [] ∧ d.weak = [] ∧ opOf (d.ringEntry 14 (d.ringCons 14)) = 8 ∧ d.frontEntries 14 ≤ d.unreadIn 14) ∧
    (opOf en = 8 ∧ 1 + f.groupEntries 14 1 (bits (wordOf en 0) 14 8) ≤ f.unreadIn 14 ∧ f.tsetGood en gs = true ∧ f.sdp.power ≠ 1 ∧
      (setHead en).next = false ∧ f.tooFar 100 = false ∧ f.cutoffPassed 100 = false ∧
      (∀ g ∈ gs, ∃ y ∈ f.trk.roster, y.1 = (setHead g.1).lodger)) := by decide +kernel

theorem witness_FlushesEndAsTheBridgeStands :
    let down := (flushing .software).setFlag Reg.DEP_STATUS Fld.DEP_STATUS_BRIDGE_DOWN
    ((flushing .software).resetKind .software = .software ∧ (flushing .functionLevel).resetKind .functionLevel = .functionLevel) ∧
    (down.boot.flush = true ∧ down.boot.inReset = some .software ∧ down.resetKind .software = .warm) := by decide +kernel

theorem witness_ImagesReadWhole :
    let trim := (flashCmd 0x1000000 4096 0).setReg Reg.CAL_FL_SIZE 0x2000000
    let load := loading (.host 4096) [] image
    let unlock := withSdp (fun x => { x with unlockFails := 2, nonceValid := true }) base
    (trim.damaged = [] ∧ trim.weak = []) ∧ (load.damaged = [] ∧ load.weak = []) ∧ (unlock.damaged = [] ∧ unlock.weak = []) := by decide +kernel

theorem witness_TimecodeIsCaptured :
    let d := withStk (fun x => { x with ticks := [(9, 500), (8, 100)] }) base
    (d.stk.ticks.find? (fun x => decide (x.2 ≤ (450 : Rat))) = some (8, 100)) ∧ d.stk.cframe < 2 ^ 48 ∧ d.stk.ltc.stroke < 2 ^ 48 ∧
    d.stk.ltc.offset < 2 ^ 26 ∧ d.stk.ltc.rate < 4 := by decide +kernel

theorem witness_ReframesTakeTheGivenNumber :
    let d := withStk (fun x => { x with timing := 2, reframe := some 5000, given := some 40 }) base
    d.stk.reframe = some 5000 ∧ d.reframeNext = true ∧ d.stk.given.getD (d.stk.stroke + 1) = 40 := by decide +kernel

theorem witness_PortersLiftOverTheirLastParcel :
    let lifts := withRuns [run 6 [] [parcel 0 1 .waiting, parcel 1 1 .waiting, parcel 2 1 .waiting, parcel 3 0 .running]] [] base
    (lifts.inProgress 0).isSome = true ∧ (∀ x ∈ lifts.prt.strokes, x.unstarted 0 = []) ∧
    ((lifts.tiers 0).findSome? lifts.victim).any (fun x => (lifts.prt.strokes[x.2.1]?).isSome && decide (x.1 < 256)) = true ∧
    base.paired = false := by decide +kernel

theorem witness_WaitingPacketsMayBeBad :
    let d := contextDev true { state := 1, rx := [(0, List.replicate 40 0, .bad)] }
    (d.ctx 1 0).rx = [(0, List.replicate 40 0, .bad)] ∧ (d.ctx 1 0).landing = [] ∧ bit (d.reg Reg.DEP_LOG_RING) 31 = false := by decide +kernel

theorem witness_LanesTrainOnALockedQuad :
    let lock (d : Dev) : Dev := d.setReg (Reg.CKG_QPLL_STATUS 0) 0x80000000
    let twin := twinDev 1 0 false base
    let trunk := withWb (fun w => { w with hierarchy := 2, lodger := 7 }) ((inTrunk 0 (running base)).setTlane 3 (lane 1 0xFF 0))
    let en := (twinDev 2 0 false base).setFlag (Reg.TWN_PORT_CTRL 2) Fld.TWN_PORT_CTRL_EN
    (twin.quadLocked 0 = false ∧ twin.hasTwn = true ∧ twin.role 2 = 3 ∧ twin.lane 2 = 1) ∧
    ((lock twin).quadLocked 0 = true ∧ (lock twin).hasTwn = true ∧ (lock twin).role 2 = 3 ∧ (lock twin).lane 2 = 1) ∧
    (trunk.quadLocked 0 = false ∧ trunk.hasTrk = true ∧ trunk.role 3 = 4 ∧ (trunk.tlane 3).state = 1) ∧
    ((lock trunk).quadLocked 0 = true ∧ ((lock trunk).tlane 3).state = 1) ∧
    (en.lane 2 ≠ 0 ∧ normalPort en (Reg.TWN_PORT_CTRL 2) = true ∧ en.flag (Reg.TWN_PORT_CTRL 2) Fld.TWN_PORT_CTRL_EN = true) := by decide +kernel

theorem witness_TrunkRetriesInIdle :
    let d := (inTrunk 0 steward).setFld Reg.TRK_CTRL Fld.TRK_CTRL_JOIN_EN 0
    normal d [Reg.TRK_CTRL] = true ∧ bit (d.reg Reg.TRK_CTRL) 1 = false ∧ d.hasTrk = true ∧ d.trkState = 0 ∧
    d.flag Reg.TRK_CTRL Fld.TRK_CTRL_JOIN_EN = false ∧ ((inPower 2 (d.setFlag Reg.TRK_CTRL Fld.TRK_CTRL_JOIN_EN)).sdp.power = 2) := by decide +kernel

/-- A join's TICK, with the number of the REFRAME that the image brings still to come, and without. -/
theorem witness_JoinsTakeTheirNumber :
    let d := withStk (fun x => { x with joins := true, given := some 9 }) lodger
    (d.stk.joins = true ∧ d.stk.given ≠ none ∧ d.joinedLodger = true ∧ 3 ∈ d.uplinks) ∧ (lodger.stk.joins = false ∧ lodger.stk.running = true) := by
  decide +kernel

theorem witness_CorrectedWordsCount :
    let d := bell 40 []
    d.belRunning = true ∧ normal base [Reg.RNG_RS_PROD 6] = true := by decide +kernel

end Sys2Proof.Tests
end

/-! SUPPORT. Register writes under the access codes (R5): what each field of a word put together from disjoint fields reads, that every
row of the register table has disjoint fields, the way of a host write to its register, and the obligation about RNG, PRT and WBL. -/

namespace Sys2Proof.Machine

/-! ### Fields of a number -/

theorem bits_lt (x hi lo : Nat) : bits x hi lo < 2 ^ (hi + 1 - lo) := Nat.mod_lt _ (Nat.two_pow_pos _)

/-- What is added above bit `hi` does not show in bits [hi:lo]. -/
theorem bits_add_above (x y : Nat) {hi lo k : Nat} (hl : lo ≤ hi) (hk : hi < k) : bits (x * 2 ^ k + y) hi lo = bits y hi lo := by
  have hpow : 2 ^ k = 2 ^ lo * (2 ^ (hi + 1 - lo) * 2 ^ (k - (hi + 1))) := by
    rw [← Nat.pow_add, ← Nat.pow_add]
    congr 1
    omega
  have hx : x * 2 ^ k + y = y + 2 ^ lo * (2 ^ (hi + 1 - lo) * (2 ^ (k - (hi + 1)) * x)) := by rw [hpow]; ring
  unfold bits
  rw [hx, Nat.add_mul_div_left _ _ (Nat.two_pow_pos _), Nat.add_mul_mod_self_left]

/-- A number that fits bits [hi:lo], put there above a smaller one, reads there as itself. -/
theorem bits_mul_add {x y hi lo : Nat} (hx : x < 2 ^ (hi + 1 - lo)) (hy : y < 2 ^ lo) : bits (x * 2 ^ lo + y) hi lo = x := by
  have hdiv : (x * 2 ^ lo + y) / 2 ^ lo = x := by
    rw [Nat.mul_comm, Nat.mul_add_div (Nat.two_pow_pos _), Nat.div_eq_of_lt hy, Nat.add_zero]
  rw [bits, hdiv, Nat.mod_eq_of_lt hx]

/-! ### Words put together from fields -/

/-- The fields of a list run downwards from bit `top`, which is in none of them, and no two share a bit. -/
def fieldsBelow : Nat → List FieldSpec → Bool
  | _, [] => true
  | top, f :: fs => f.lo ≤ f.hi && f.hi < top && fieldsBelow f.lo fs

/-- Every field of such a list lies below `top`. -/
theorem fieldsBelow_hi_lt {top : Nat} {fs : List FieldSpec} (h : fieldsBelow top fs = true) {f : FieldSpec} (hf : f ∈ fs) :
    f.lo ≤ f.hi ∧ f.hi < top := by
  induction fs generalizing top with
  | nil => exact absurd hf List.not_mem_nil
  | cons e fs ih =>
    simp only [fieldsBelow, Bool.and_eq_true, decide_eq_true_eq] at h
    obtain ⟨⟨hle, hlt⟩, hfs⟩ := h
    rcases List.mem_cons.mp hf with rfl | hmem
    · exact ⟨hle, hlt⟩
    · obtain ⟨hle', hlt'⟩ := ih hfs hmem
      exact ⟨hle', by omega⟩

/-- The word whose fields hold the values of `g`. -/
def packFields (g : FieldSpec → Nat) (fs : List FieldSpec) : Nat := (fs.map fun f => g f * 2 ^ f.lo).sum

section Packed

variable {g : FieldSpec → Nat} (hg : ∀ f, g f < 2 ^ (f.hi + 1 - f.lo))
include hg

theorem packFields_lt {top : Nat} {fs : List FieldSpec} (h : fieldsBelow top fs = true) : packFields g fs < 2 ^ top := by
  induction fs generalizing top with
  | nil => exact Nat.two_pow_pos top
  | cons f fs ih =>
    simp only [fieldsBelow, Bool.and_eq_true, decide_eq_true_eq] at h
    obtain ⟨⟨hle, hlt⟩, hfs⟩ := h
    have hsplit : 2 ^ (f.hi + 1 - f.lo) * 2 ^ f.lo = 2 ^ (f.hi + 1) := by
      rw [← Nat.pow_add, Nat.sub_add_cancel (by omega)]
    calc packFields g (f :: fs) = g f * 2 ^ f.lo + packFields g fs := by simp [packFields]
      _ < (g f + 1) * 2 ^ f.lo := by rw [Nat.succ_mul]; exact Nat.add_lt_add_left (ih hfs) _
      _ ≤ 2 ^ (f.hi + 1 - f.lo) * 2 ^ f.lo := Nat.mul_le_mul_right _ (hg f)
      _ = 2 ^ (f.hi + 1) := hsplit
      _ ≤ 2 ^ top := Nat.pow_le_pow_right (by decide) hlt

/-- Each field of a word put together from disjoint fields holds the value that was put there. -/
theorem bits_packFields {top : Nat} {fs : List FieldSpec} (h : fieldsBelow top fs = true) {f : FieldSpec} (hf : f ∈ fs) :
    bits (packFields g fs) f.hi f.lo = g f := by
  induction fs generalizing top with
  | nil => exact absurd hf List.not_mem_nil
  | cons e fs ih =>
    simp only [fieldsBelow, Bool.and_eq_true, decide_eq_true_eq] at h
    obtain ⟨-, hfs⟩ := h
    have hcons : packFields g (e :: fs) = g e * 2 ^ e.lo + packFields g fs := by simp [packFields]
    rw [hcons]
    rcases List.mem_cons.mp hf with rfl | hmem
    · exact bits_mul_add (hg f) (packFields_lt hg hfs)
    · obtain ⟨hle, hlt⟩ := fieldsBelow_hi_lt hfs hmem
      rw [bits_add_above _ _ hle hlt, ih hfs hmem]

end Packed

/-! ### The register table -/

/-- The fields of each row are disjoint and lie within 32 bits. -/
def rowsBelow (rows : List RegRow) : Bool := rows.all fun r => fieldsBelow 32 r.fields

theorem rowsBelow_ite {c : Prop} [Decidable c] {a b : List RegRow} (ha : rowsBelow a = true) (hb : rowsBelow b = true) :
    rowsBelow (if c then a else b) = true := by
  split
  · exact ha
  · exact hb

/-- The fields of every row of the table are disjoint and lie within 32 bits. -/
theorem rowsAt_fieldsBelow (off : Nat) : rowsBelow (RegTable.rowsAt off) = true := by
  unfold RegTable.rowsAt
  repeat' with_reducible refine rowsBelow_ite ?_ ?_
  all_goals decide +kernel

theorem rowOf_fieldsBelow {off : Nat} {r : RegRow} (h : rowOf off = some r) : fieldsBelow 32 r.fields = true :=
  List.all_eq_true.mp (rowsAt_fieldsBelow off) r (List.mem_of_find?_eq_some h)

/-! ### A write under the access codes -/

/-- What a field holds after a write fits the field. -/
theorem FieldSpec.afterWrite_lt (f : FieldSpec) (old v : Nat) : f.afterWrite old v < 2 ^ (f.hi + 1 - f.lo) := by
  obtain ⟨hi, lo, acc, reset⟩ := f
  have ho := bits_lt old hi lo
  have hv := bits_lt v hi lo
  cases acc with
  | rw => exact hv
  | shd => exact hv
  | w1c => exact (Nat.sub_le _ _).trans_lt ho
  | w1s => exact Nat.or_lt_two_pow ho hv
  | ro => exact ho
  | once => exact ho
  | trg => exact ho

theorem RegRow.afterWrite_eq_packFields (r : RegRow) (old v : Nat) :
    r.afterWrite old v = packFields (fun f => f.afterWrite old v) r.fields := by
  rw [packFields, List.sum_eq_foldl, List.foldl_map, RegRow.afterWrite]

theorem Dev.genericWrite_of_row {off : Nat} {r : RegRow} (h : rowOf off = some r) (d : Dev) (v : Nat) :
    d.genericWrite off v = d.setReg off (r.afterWrite (d.reg off) v) := by
  rw [Dev.genericWrite, h]

/-- Each field of a register written under the access codes reads what its code makes of the old value and the written one (R5). -/
theorem Dev.genericWrite_bits {off : Nat} {r : RegRow} (h : rowOf off = some r) {f : FieldSpec} (hf : f ∈ r.fields) (d : Dev) (v : Nat) :
    bits ((d.genericWrite off v).reg off) f.hi f.lo = f.afterWrite (d.reg off) v := by
  have hfit : ∀ f : FieldSpec, f.afterWrite (d.reg off) v < 2 ^ (f.hi + 1 - f.lo) := fun f => f.afterWrite_lt _ _
  have hrow := rowOf_fieldsBelow h
  rw [Dev.genericWrite_of_row h, Dev.setReg_reg, if_pos rfl, RegRow.afterWrite_eq_packFields,
    Nat.mod_eq_of_lt (packFields_lt hfit hrow), bits_packFields hfit hrow hf]

theorem Dev.genericWrite_reg_other (d : Dev) {off k : Nat} (v : Nat) (h : k ≠ off) : (d.genericWrite off v).reg k = d.reg k := by
  unfold Dev.genericWrite
  split
  · exact d.setReg_reg_other _ h
  · rfl

/-- A write under the access codes changes its own register alone. -/
theorem Dev.genericWrite_onlyRegs (d : Dev) (off v : Nat) : Dev.OnlyRegs d (d.genericWrite off v) [off] :=
  ⟨fun _ ho => d.genericWrite_reg_other v (by simpa using ho), by rw [Dev.genericWrite_eq]⟩

/-! ### Frames across a command -/

/-- A command starts from the device without its last outputs, which is no change of the device. -/
theorem Dev.OnlyRegs.of_quiet {e d : Dev} {offs : List Nat} (h : Dev.OnlyRegs e.quiet d offs) : Dev.OnlyRegs e d offs :=
  ⟨h.regs, congrArg (fun x : Dev => { x with out := e.out }) h.rest⟩

/-- The end of a command latches `FAULT_N` and holds back outputs in EXTEST, and no more. -/
theorem Dev.OnlyRegs.done {e d : Dev} {offs : List Nat} (h : Dev.OnlyRegs e d offs) (s : State) : Dev.OnlyRegs e (s.done d).dev offs := by
  refine ⟨fun o ho => ?_, ?_⟩
  · rw [State.done_dev, Dev.extest_reg, Dev.latchFault_reg, h.regs o ho]
  · rw [State.done_dev, Dev.extest_eq]
    exact h.rest

/-- Where a command has put nothing out, nothing leaves the device. -/
theorem State.done_out_nil {d : Dev} (h : d.out = []) (s : State) : (s.done d).dev.out = [] := by
  rw [State.done_dev, Dev.extest]
  split
  · simp [h]
  · exact h

/-! ### The way of a host write -/

theorem Dev.onWrite_normal {d : Dev} {off k : Nat} (h : d.access off = .normal k) (f : Dev → Dev) : d.onWrite off f = f d := by
  rw [Dev.onWrite, h]

theorem Dev.forbidsMode_other (d : Dev) {off : Nat} (v : Nat) (h : off ≠ Reg.DBG_MODE) : d.forbidsMode off v = false := by
  simp [Dev.forbidsMode, h]

/-- Every region ends below 0x3020000 (Table 2.2). -/
theorem blkOf_lt {off : Nat} {b : Blk} (h : blkOf off = some b) : off < 0x3020000 := by
  by_contra hge
  unfold blkOf at h
  repeat rw [if_neg (by omega)] at h
  exact absurd h (by simp)

/-- The registers `CPT_CTRL` lie at keys of Coach pages, above every offset of BAR0. -/
theorem coachCtrlAt_eq_none {key : Nat} (h : key < 0x12000010) : coachCtrlAt key = none := by
  have hlow : ¬ Reg.CPT_CTRL 0 ≤ key := by
    simp only [Reg.CPT_CTRL]
    omega
  simp [coachCtrlAt, indexIn, hlow]

/-- The role in a pair rests on the waybill and on `TWN_STATUS`. -/
theorem Dev.primaryPaired_congr {d e : Dev} (hwb : d.wb = e.wb) (hst : d.reg Reg.TWN_STATUS = e.reg Reg.TWN_STATUS) :
    d.primaryPaired = e.primaryPaired := by
  simp only [Dev.primaryPaired, Dev.paired, Dev.hasTwn, Dev.twnState, Dev.secondary, Dev.flag, Dev.fld, hwb, hst]

/-- On a device of no running pair a mirrored write is a write like any other (R312). -/
theorem Dev.mirrored_unpaired {d : Dev} (off v : Nat) {f : Dev → Dev} (hs : d.secondaryPaired = false)
    (hp : (f d).primaryPaired = false) : d.mirrored off v f = f d := by
  simp [Dev.mirrored, hs, hp]

theorem Dev.plainWrite_of_ne {page key : Nat} (h : key % page ≠ 4) (d : Dev) (v : Nat) : d.plainWrite page key v = d.genericWrite key v := by
  simp [Dev.plainWrite, h]

theorem Dev.shadowsWritten_nil (d : Dev) : d.shadowsWritten [] = d := by simp [Dev.shadowsWritten]

/-- A write of a register of RNG, PRT or WBL is, `WBL_CTRL` and `xxx_REFUSED` left aside, one under the access codes; in PRT the
shadow is sound again first (R5, R295). -/
theorem Dev.directWrite_accessCodes {off : Nat}
    (hb : blkOf off = some .rng ∨ blkOf off = some .prt ∨ blkOf off = some .wbl ∧ off ≠ Reg.WBL_CTRL) (h4 : off % 0x10000 ≠ 4) (v : Nat) :
    ∃ offs, ∀ d : Dev, d.directWrite off off v = (d.shadowsWritten offs).genericWrite off v := by
  rcases hb with hrng | hprt | ⟨hwbl, hctrl⟩
  · refine ⟨[], fun d => ?_⟩
    simp only [Dev.directWrite, hrng]
    rw [Dev.shadowsWritten_nil, Dev.plainWrite_of_ne h4]
  · refine ⟨[off], fun d => ?_⟩
    have hne : off ≠ Reg.PRT_REFUSED := by
      rintro rfl
      exact h4 rfl
    simp only [Dev.directWrite, hprt]
    rw [if_neg (by simpa using hne), Dev.shadowWrite]
  · refine ⟨[], fun d => ?_⟩
    simp only [Dev.directWrite, hwbl]
    rw [if_neg (by simpa using hctrl), Dev.shadowsWritten_nil, Dev.plainWrite_of_ne h4]

/-- Outside the port pages a write that no pair mirrors takes its register's own effect (R312). -/
theorem Dev.hostWrite_unpaired {d : Dev} {off : Nat} (v : Nat) (hoff : off < 0x12000010) (hs : d.secondaryPaired = false)
    (hp : (d.directWrite off off v).primaryPaired = false) : d.hostWrite off off v = d.directWrite off off v := by
  simp only [Dev.hostWrite, coachCtrlAt_eq_none hoff]
  rw [Dev.mirrored_unpaired off v (f := fun d => d.directWrite off off v) hs hp]
  exact ite_self _

/-- The write as a whole: Table 2.6 lets it through, no pair mirrors it, and what is left is one under the access codes. -/
theorem Dev.writeBar0_accessCodes {d : Dev} {off : Nat} (hacc : d.access off = .normal off)
    (hb : blkOf off = some .rng ∨ blkOf off = some .prt ∨ blkOf off = some .wbl ∧ off ≠ Reg.WBL_CTRL) (h4 : off % 0x10000 ≠ 4)
    (hs : d.secondaryPaired = false) (hp : d.primaryPaired = false) (v : Nat) :
    ∃ offs, d.writeBar0 off v = (d.shadowsWritten offs).genericWrite off v := by
  obtain ⟨offs, hdirect⟩ := Dev.directWrite_accessCodes hb h4 v
  refine ⟨offs, ?_⟩
  have hmode : off ≠ Reg.DBG_MODE := by
    rintro rfl
    revert hb
    decide
  have hstat : Reg.TWN_STATUS ≠ off := by
    rintro rfl
    revert hb
    decide
  have hkey : d.keyOf off = off := by
    rcases hb with h | h | ⟨h, -⟩ <;> simp [Dev.keyOf, h]
  have hlt : off < 0x12000010 := by
    rcases hb with h | h | ⟨h, -⟩ <;> exact (blkOf_lt h).trans (by decide)
  have hp' : (d.directWrite off off v).primaryPaired = false := by
    rw [hdirect]
    exact (Dev.primaryPaired_congr (Dev.genericWrite_wb _ _ _) (Dev.genericWrite_reg_other _ _ hstat)).trans hp
  rw [Dev.writeBar0, Dev.forbidsMode_other d v hmode, if_neg Bool.false_ne_true, Dev.onWrite_normal hacc, hkey,
    Dev.hostWrite_unpaired v hlt hs hp', hdirect]

/-- Settles O12: on its way the write meets no other effect than the shadow's, and the fields of its row are disjoint, so that each
reads what its access code gives. -/
theorem writesFollowTheAccessCodes : Obligations.WritesFollowTheAccessCodes := by
  unfold Obligations.WritesFollowTheAccessCodes
  intro s off v r hacc hrow hb h4 hs hp
  obtain ⟨offs, hwrite⟩ := Dev.writeBar0_accessCodes (d := s.dev.quiet) hacc hb h4 hs hp v.toNat
  have hprt : (s.done (s.dev.quiet.writeBar0 off v.toNat)).dev.prt = (s.dev.shadowsWritten offs).prt := by
    rw [hwrite]
    simp [Dev.shadowsWritten]
  refine ⟨s.done (s.dev.quiet.writeBar0 off v.toNat), rfl, State.done_out_nil ?_ s, fun w hw => ?_, ?_, fun f hf => ?_⟩
  · rw [hwrite]
    exact Dev.genericWrite_out _ _ _
  · rw [hprt] at hw
    exact (List.mem_filter.mp hw).1
  · rw [hprt, hwrite]
    exact (Dev.OnlyRegs.of_quiet (e := s.dev.shadowsWritten offs) (Dev.genericWrite_onlyRegs _ off v.toNat)).done s
  · rw [hwrite, State.done_dev, Dev.extest_reg, Dev.latchFault_reg, Dev.genericWrite_bits hrow hf]
    obtain ⟨hi, lo, acc, reset⟩ := f
    cases acc <;> rfl

end Sys2Proof.Machine

/-! SUPPORT. Bits of a number under the operations that the model applies to its registers. -/

namespace Sys2Proof.Machine

theorem bit_eq_testBit (x i : Nat) : bit x i = x.testBit i := by
  rw [Nat.testBit_eq_decide_div_mod_eq]
  by_cases h : x / 2 ^ i % 2 = 1 <;> simp [bit, h]

theorem bit_or (x y i : Nat) : bit (x ||| y) i = (bit x i || bit y i) := by
  simp only [bit_eq_testBit, Nat.testBit_or]

theorem bit_mod_two_pow (x n i : Nat) : bit (x % 2 ^ n) i = (decide (i < n) && bit x i) := by
  simp only [bit_eq_testBit, Nat.testBit_mod_two_pow]

/-- Taking away some of the bits of a number leaves the others. -/
theorem bit_sub_and (x y i : Nat) : bit (x - (x &&& y)) i = (bit x i && !bit y i) := by
  have hmod (x y : Nat) : (x &&& y) % 2 = (x % 2) &&& (y % 2) := Nat.and_mod_two_pow (n := 1)
  have hle (x y : Nat) : (x &&& y) ≤ x := Nat.and_le_left
  simp only [bit_eq_testBit]
  induction i generalizing x y with
  | zero =>
    have hb : ∀ a < 2, ∀ b < 2, a - (a &&& b) = if a = 1 ∧ ¬ b = 1 then 1 else 0 := by decide
    have hb := hb (x % 2) (by omega) (y % 2) (by omega)
    have h : (x - (x &&& y)) % 2 = x % 2 - (x % 2 &&& y % 2) := by
      have h1 := hle x y
      have h2 := hle (x % 2) (y % 2)
      rw [← hmod] at h2 ⊢
      omega
    rw [hb] at h
    simp only [Nat.testBit_zero, h]
    split <;> simp_all
  | succ i ih =>
    have h : (x - (x &&& y)) / 2 = x / 2 - (x / 2 &&& y / 2) := by
      have h1 := hle x y
      have h2 := hle (x % 2) (y % 2)
      rw [← hmod] at h2
      rw [← Nat.and_div_two]
      omega
    rw [Nat.testBit_succ, h, ih, Nat.testBit_succ, Nat.testBit_succ]

end Sys2Proof.Machine

/-! SUPPORT. What the end of a command leaves unchanged, the hotter of two readings, and the words of the SMBus view (Table 2.17). -/

namespace Sys2Proof.Machine

/-! ### What leaves the device -/

/-- Out of EXTEST what a command puts out leaves the device (R437). -/
theorem State.done_out {d : Dev} (h : d.tap ≠ .extest) (s : State) : (s.done d).dev.out = d.out := by
  rw [State.done_dev, Dev.extest, if_neg (by simpa using h)]
  rfl

theorem State.done_reg (s : State) (d : Dev) (k : Nat) : (s.done d).dev.reg k = d.reg k := by simp

/-! ### Frames of the shared operations -/

theorem Dev.OnlyRegs.emit {e d : Dev} {offs : List Nat} (h : Dev.OnlyRegs e d offs) (o : Out) : Dev.OnlyRegs e (d.emit o) offs :=
  ⟨h.regs, h.rest⟩

/-- A command that only sends something changes nothing of the device. -/
theorem State.done_emit_onlyRegs (s : State) (o : Out) : Dev.OnlyRegs s.dev (s.done (s.dev.quiet.emit o)).dev [] :=
  ((Dev.OnlyRegs.refl _ _).emit o).of_quiet.done s

/-- A command that does nothing changes nothing of the device. -/
theorem State.done_quiet_onlyRegs (s : State) : Dev.OnlyRegs s.dev (s.done s.dev.quiet).dev [] :=
  (Dev.OnlyRegs.refl _ _).of_quiet.done s

theorem State.done_emit_out {s : State} (h : s.dev.tap ≠ .extest) (o : Out) : (s.done (s.dev.quiet.emit o)).dev.out = [o] :=
  State.done_out (d := s.dev.quiet.emit o) h s

/-! ### The hottest sensor -/

theorem hotter_eq (a b : Nat) : hotter a b = a ∨ hotter a b = b := by
  unfold hotter
  split
  · exact .inr rfl
  · exact .inl rfl

theorem le_hotter (a b : Nat) : signed 16 a ≤ signed 16 (hotter a b) ∧ signed 16 b ≤ signed 16 (hotter a b) := by
  unfold hotter
  split <;> constructor <;> omega

theorem foldl_hotter_mem (t : Nat) (ts : List Nat) : ts.foldl hotter t ∈ t :: ts := by
  induction ts generalizing t with
  | nil => exact List.mem_singleton_self t
  | cons u us ih =>
    rw [List.foldl_cons]
    rcases hotter_eq t u with h | h <;> rw [h]
    · exact List.mem_cons.mpr ((List.mem_cons.mp (ih t)).imp_right (List.mem_cons_of_mem u))
    · exact List.mem_cons_of_mem t (ih u)

theorem le_foldl_hotter (t : Nat) (ts : List Nat) : ∀ x ∈ t :: ts, signed 16 x ≤ signed 16 (ts.foldl hotter t) := by
  induction ts generalizing t with
  | nil => simp
  | cons u us ih =>
    obtain ⟨ht, hu⟩ := le_hotter t u
    have hmax := ih (hotter t u) _ List.mem_cons_self
    intro x hx
    rw [List.foldl_cons]
    rcases List.mem_cons.mp hx with rfl | hx
    · exact ht.trans hmax
    rcases List.mem_cons.mp hx with rfl | hx
    · exact hu.trans hmax
    · exact ih _ x (List.mem_cons_of_mem _ hx)

/-- The hottest of some temperatures is one of them, and none is above it (R56). -/
theorem hottest_spec (f : Nat → Nat) (n : Nat) :
    (∃ k < n + 1, hottest ((List.range (n + 1)).map f) = f k) ∧
      ∀ k < n + 1, signed 16 (f k) ≤ signed 16 (hottest ((List.range (n + 1)).map f)) := by
  rw [List.range_succ_eq_map, List.map_cons, hottest]
  have hmem (k : Nat) : k < n + 1 → f k ∈ f 0 :: List.map f (List.map Nat.succ (List.range n)) := by
    intro hk
    rw [← List.map_cons, ← List.range_succ_eq_map]
    exact List.mem_map_of_mem (List.mem_range.mpr hk)
  refine ⟨?_, fun k hk => le_foldl_hotter _ _ _ (hmem k hk)⟩
  have h := foldl_hotter_mem (f 0) (List.map f (List.map Nat.succ (List.range n)))
  rw [← List.map_cons, ← List.range_succ_eq_map] at h
  obtain ⟨k, hk, heq⟩ := List.mem_map.mp h
  exact ⟨k, List.mem_range.mp hk, heq.symm⟩

/-! ### The SMBus view -/

theorem smbusAnswer_one (code v : Nat) (pec : Bool) :
    smbusAnswer code 1 v pec = .smbus v (if pec then some (pecOf [0xB8, code, 0xB9, v % 256]) else none) := by
  simp [smbusAnswer, smbusAddress, List.range_succ]

theorem smbusAnswer_two (code v : Nat) (pec : Bool) :
    smbusAnswer code 2 v pec = .smbus v (if pec then some (pecOf [0xB8, code, 0xB9, v % 256, v / 256 % 256]) else none) := by
  simp [smbusAnswer, smbusAddress, List.range_succ]

theorem smbusAnswer_zero (code n : Nat) (pec : Bool) :
    smbusAnswer code n 0 pec = .smbus 0 (if pec then some (pecOf ([0xB8, code, 0xB9] ++ List.replicate n 0)) else none) := by
  simp [smbusAnswer, smbusAddress, List.map_const']

/-- What the bits of STATUS say (Table 2.17). -/
theorem Dev.smbusStatus_bits (d : Dev) :
    bit d.smbusStatus 0 = d.faultLow ∧ bit d.smbusStatus 1 = d.bridgeIsDown ∧ bit d.smbusStatus 2 = (d.boot.trimCause != 0) ∧
      bit d.smbusStatus 3 = d.loaded ∧ bits d.smbusStatus 5 4 = d.sdp.power % 4 ∧ bits d.smbusStatus 7 6 = d.sdp.sec % 4 ∧
      bit d.smbusStatus 8 = bit d.sdp.alert 0 ∧ bit d.smbusStatus 9 = bit d.sdp.alert 1 ∧ d.smbusStatus < 2 ^ 10 := by
  have hite (b : Bool) (n : Nat) : (if b then n else 0) = n * b.toNat := by cases b <;> simp
  have hbit (b : Bool) {x : Nat} (h : x = b.toNat) : (x == 1) = b := by subst h; cases b <;> rfl
  have h0 := d.faultLow.toNat_le
  have h1 := d.bridgeIsDown.toNat_le
  have h2 := (d.boot.trimCause != 0).toNat_le
  have h3 := d.loaded.toNat_le
  have ha : (d.sdp.alert / 2 ^ 0) % 2 = d.sdp.alert % 4 % 2 := by omega
  have hb : (d.sdp.alert / 2 ^ 1) % 2 = d.sdp.alert % 4 / 2 := by omega
  unfold Dev.smbusStatus bit bits
  simp only [hite]
  rw [ha, hb]
  exact ⟨hbit _ (by omega), hbit _ (by omega), hbit _ (by omega), hbit _ (by omega), by omega, by omega, by congr 1; omega,
    by congr 1; omega, by omega⟩

end Sys2Proof.Machine

/-! SUPPORT. The state of `ALERT_N` and `FAULT_N` after a command, a command that only answers, and the obligation about the SMBus view (R54, R55). -/

namespace Sys2Proof.Machine

/-- `FAULT_N` rests on the register file and on a trip that holds it low. -/
theorem Dev.faultLow_congr {d e : Dev} (hr : d.regs = e.regs) (ht : d.sdp.tripHold = e.sdp.tripHold) : d.faultLow = e.faultLow := by
  simp only [Dev.faultLow, Dev.bridgeIsDown, Dev.pllFailed, Dev.flag, Dev.fld, Dev.reg, hr, ht]

/-- The ALERT bits after a command: those it left, and bit 2 where `FAULT_N` went low in it (R45, R56). -/
theorem State.done_alert (s : State) (d : Dev) (i : Nat) : bit (s.done d).dev.sdp.alert i =
    (bit d.sdp.alert i || (i == 2 && d.faultLow && !d.sdp.faultWas)) := by
  have halert : (s.done d).dev.sdp.alert = if d.faultLow && !d.sdp.faultWas then d.sdp.alert ||| 4 else d.sdp.alert := by
    rw [State.done_dev, Dev.extest_sdp]
    rfl
  have h4 : bit 4 i = (i == 2) := by
    rw [bit_eq_testBit, show (4 : Nat) = 2 ^ 2 from rfl, Nat.testBit_two_pow, Bool.eq_iff_iff, decide_eq_true_iff, beq_iff_eq]
    exact eq_comm
  rw [halert, Bool.and_assoc]
  cases d.faultLow && !d.sdp.faultWas <;> simp [bit_or, h4]

/-- A read of the management view: out of EXTEST its answer leaves the device, and nothing changes (R54, R55). -/
theorem State.sends {s : State} (h : s.dev.tap ≠ .extest) {c : Instr} {o o' : Out}
    (hc : exec c s = .next (s.done (s.dev.quiet.emit o))) (ho : o = o') :
    ∃ t, exec c s = .next t ∧ t.dev.out = [o'] ∧ Dev.OnlyRegs s.dev t.dev [] :=
  ⟨_, hc, ho ▸ State.done_emit_out h o, s.done_emit_onlyRegs o⟩

/-- A command that does nothing. -/
theorem State.idles {s : State} {c : Instr} (hc : exec c s = .next (s.done s.dev.quiet)) :
    ∃ t, exec c s = .next t ∧ t.dev.out = [] ∧ Dev.OnlyRegs s.dev t.dev [] :=
  ⟨_, hc, State.done_out_nil rfl s, s.done_quiet_onlyRegs⟩

/-- What an ALERT_CLEAR whose PEC is good leaves: the ALERT bits of its mask are cleared (R55). -/
def Dev.alertCleared (d : Dev) (m : Nat) : Dev := { d with sdp := { d.sdp with alert := d.sdp.alert - (d.sdp.alert &&& (m % 8)) } }

theorem Dev.alertCleared_bit {d : Dev} {m i : Nat} (hi : i < 3) :
    bit (d.alertCleared m).sdp.alert i = (bit d.sdp.alert i && !bit m i) := by
  simp only [Dev.alertCleared, show 8 = 2 ^ 3 from rfl, bit_sub_and, bit_mod_two_pow, hi, decide_true, Bool.true_and]

/-- ALERT_CLEAR clears the bits that it names, unless its PEC fails, and the ALERT bits are all that it reaches (R54, R55). -/
theorem execAlertClear_spec (s : State) (m : Byte) (good : Bool) : ∃ t, exec (.alertClear m good) s = .next t ∧ t.dev.out = [] ∧
    Dev.OnlyRegs s.dev t.dev [] ∧ ∀ i < 3, bit t.dev.sdp.alert i =
      ((bit s.dev.sdp.alert i && !(good && bit m.toNat i)) || (i == 2 && s.dev.faultLow && !s.dev.sdp.faultWas)) := by
  cases good with
  | false =>
    refine ⟨_, rfl, State.done_out_nil rfl s, s.done_quiet_onlyRegs, fun i _ => ?_⟩
    exact (s.done_alert _ i).trans (by simp [Dev.faultLow_congr (d := s.dev.quiet) (e := s.dev) rfl rfl])
  | true =>
    refine ⟨s.done (s.dev.quiet.alertCleared m.toNat), rfl, State.done_out_nil rfl s, ?_, fun i hi => ?_⟩
    · exact Dev.OnlyRegs.done (e := s.dev) (d := s.dev.quiet.alertCleared m.toNat) ⟨fun _ _ => rfl, rfl⟩ s
    · have hlow : (s.dev.quiet.alertCleared m.toNat).faultLow = s.dev.faultLow := Dev.faultLow_congr rfl rfl
      rw [State.done_alert, Dev.alertCleared_bit hi, hlow, Bool.true_and]
      rfl

/-- A code outside Table 2.17 reads as zeros and takes no write (R55). -/
theorem execSmbusUndefined_spec {s : State} (h : s.dev.tap ≠ .extest) (pec : Bool) (c : Byte) (w : Bool) (n : Nat) :
    ∃ t, exec (.smbusUndefined c w n pec) s = .next t ∧
      t.dev.out = (if w then [] else [.smbus 0 (if pec then some (pecOf ([0xB8, c.toNat, 0xB9] ++ List.replicate n 0)) else none)]) ∧
      Dev.OnlyRegs s.dev t.dev [] := by
  cases w with
  | true => exact State.idles rfl
  | false => exact State.sends h rfl (smbusAnswer_zero _ _ _)

/-- The target answers the Alert Response Address while an ALERT bit is 1 (R54, R56). -/
theorem execAlertResponse_spec {s : State} (h : s.dev.tap ≠ .extest) (pec : Bool) : ∃ t, exec (.alertResponse pec) s = .next t ∧
    t.dev.out = (if s.dev.sdp.alert % 8 = 0 then [] else [.alertResponse 0x5C (if pec then some (pecOf [0x19, 0xB8]) else none)]) ∧
    Dev.OnlyRegs s.dev t.dev [] := by
  have hexec : exec (.alertResponse pec) s = .next (s.done (if s.dev.quiet.mbAlertLow then
      s.dev.quiet.emit (.alertResponse 0x5C (if pec then some (pecOf [0x19, 0xB8]) else none)) else s.dev.quiet)) := rfl
  by_cases h0 : s.dev.sdp.alert % 8 = 0
  · rw [if_pos h0]
    exact State.idles (by rw [hexec, if_neg (by simp [Dev.mbAlertLow, h0])])
  · rw [if_neg h0]
    exact State.sends h (by rw [hexec, if_pos (by simp [Dev.mbAlertLow, h0])]) rfl

/-- Settles O7: each read sends the word of Table 2.17, ALERT_CLEAR takes the named bits away, and nothing else changes. -/
theorem smbusViewAnswers : Obligations.SmbusViewAnswers := by
  unfold Obligations.SmbusViewAnswers
  intro s pec htap
  refine ⟨State.sends htap rfl (smbusAnswer_two _ _ _), State.sends htap rfl (smbusAnswer_one _ _ _), ?_, ?_, ?_,
    fun n => State.sends htap rfl (smbusAnswer_two _ _ _), State.sends htap rfl (smbusAnswer_one _ _ _), execAlertClear_spec s,
    execSmbusUndefined_spec htap pec, execAlertResponse_spec htap pec⟩
  · obtain ⟨t, hexec, hout, hframe⟩ := State.sends htap (c := .smbusStatus pec) rfl (smbusAnswer_two _ _ _)
    exact ⟨t, _, hexec, hout, hframe, s.dev.smbusStatus_bits⟩
  · obtain ⟨t, hexec, hout, hframe⟩ := State.sends htap (c := .tempMax pec) rfl (smbusAnswer_two _ _ _)
    exact ⟨t, _, hexec, hout, hframe, hottest_spec (fun n => s.dev.reg (Reg.SDP_TEMP n)) 15⟩
  · obtain ⟨t, hexec, hout, hframe⟩ := State.sends htap (c := .tempHbmMax pec) rfl (smbusAnswer_two _ _ _)
    exact ⟨t, _, hexec, hout, hframe, hottest_spec (fun n => s.dev.reg (Reg.SDP_TEMP_HBM n)) 7⟩

end Sys2Proof.Machine

/-! SUPPORT. Fields of registers: what a field reads after it, or another field of the register, was put; flags, counters and refusals. -/

namespace Sys2Proof.Machine

/-! ### Fields of a register -/

/-- A number with a field replaced, as what lies below the field, the field, and what lies above it. -/
theorem Fld.put_eq (f : Fld) (v x : Nat) :
    f.put v x = 2 ^ f.lo * (2 ^ (f.hi + 1 - f.lo) * (v / 2 ^ f.lo / 2 ^ (f.hi + 1 - f.lo)) + x % 2 ^ (f.hi + 1 - f.lo)) + v % 2 ^ f.lo := by
  unfold Fld.put Fld.get bits
  have hlow := Nat.div_add_mod v (2 ^ f.lo)
  have hmid := Nat.div_add_mod (v / 2 ^ f.lo) (2 ^ (f.hi + 1 - f.lo))
  have hv : v = 2 ^ f.lo * (2 ^ (f.hi + 1 - f.lo) * (v / 2 ^ f.lo / 2 ^ (f.hi + 1 - f.lo))) +
      v / 2 ^ f.lo % 2 ^ (f.hi + 1 - f.lo) * 2 ^ f.lo + v % 2 ^ f.lo := by
    conv_lhs => rw [← hlow, ← hmid]
    ring
  rw [Nat.mul_add, Nat.mul_comm _ (x % _)]
  omega

/-- A bit of a number with a field replaced: of what replaced it in the field, and of the number elsewhere. -/
theorem Fld.put_testBit (f : Fld) (v x i : Nat) (h : f.lo ≤ f.hi) : (f.put v x).testBit i =
    if f.lo ≤ i ∧ i ≤ f.hi then x.testBit (i - f.lo) else v.testBit i := by
  rw [Fld.put_eq, Nat.testBit_two_pow_mul_add _ (Nat.mod_lt _ (Nat.two_pow_pos _)),
    Nat.testBit_two_pow_mul_add _ (Nat.mod_lt _ (Nat.two_pow_pos _))]
  simp only [Nat.testBit_mod_two_pow, Nat.testBit_div_two_pow]
  by_cases hlo : i < f.lo
  · simp [hlo, Nat.not_le.mpr hlo]
  · by_cases hhi : i ≤ f.hi
    · have hw : i - f.lo < f.hi + 1 - f.lo := by omega
      simp [hlo, hhi, hw, Nat.not_lt.mp hlo]
    · have hw : ¬ i - f.lo < f.hi + 1 - f.lo := by omega
      have hi : f.lo + (f.hi + 1 - f.lo + (i - f.lo - (f.hi + 1 - f.lo))) = i := by omega
      simp [hlo, hhi, hw, hi, Nat.add_comm]

theorem Fld.get_testBit (f : Fld) (v i : Nat) : (f.get v).testBit i = (decide (i < f.hi + 1 - f.lo) && v.testBit (f.lo + i)) := by
  rw [Fld.get, bits, Nat.testBit_mod_two_pow, Nat.testBit_div_two_pow, Nat.add_comm i]

/-- Replacing a field leaves a field that shares no bit with it. -/
theorem Fld.get_put_other {f g : Fld} (v x : Nat) (hf : f.lo ≤ f.hi) (h : g.hi < f.lo ∨ f.hi < g.lo) : g.get (f.put v x) = g.get v := by
  apply Nat.eq_of_testBit_eq
  intro i
  rw [Fld.get_testBit, Fld.get_testBit, Fld.put_testBit _ _ _ _ hf]
  by_cases hi : i < g.hi + 1 - g.lo
  · rw [if_neg (by omega)]
  · simp [hi]

theorem Dev.setFld_reg_same (d : Dev) (a : Nat) (f : Fld) (x : Nat) (h : f.lo ≤ f.hi) (hi : f.hi < 32) :
    (d.setFld a f x).reg a = f.put (d.reg a) x := by
  rw [Dev.setFld, Dev.setReg_reg, if_pos rfl, Nat.mod_eq_of_lt (Fld.put_lt f _ _ h hi (d.reg_lt a))]

/-- A store in a field leaves a field of the same register that shares no bit with it. -/
theorem Dev.setFld_fld_disjoint (d : Dev) (a : Nat) {f g : Fld} (x : Nat) (hf : f.lo ≤ f.hi) (hi : f.hi < 32)
    (h : g.hi < f.lo ∨ f.hi < g.lo) : (d.setFld a f x).fld a g = d.fld a g := by
  rw [Dev.fld, Dev.setFld_reg_same d a f x hf hi, Fld.get_put_other _ _ hf h, Dev.fld]

theorem Dev.setFlag_fld_disjoint (d : Dev) (a : Nat) {f g : Fld} (hf : f.lo ≤ f.hi) (hi : f.hi < 32)
    (h : g.hi < f.lo ∨ f.hi < g.lo) : (d.setFlag a f).fld a g = d.fld a g := d.setFld_fld_disjoint a 1 hf hi h

theorem Dev.setFlag_fld_same (d : Dev) (a : Nat) {f : Fld} (h : f.lo = f.hi) (hi : f.hi < 32) : (d.setFlag a f).fld a f = 1 :=
  beq_iff_eq.mp (d.setFlag_flag_same a f h hi)

theorem Dev.fld_congr {d e : Dev} {a : Nat} (h : d.reg a = e.reg a) (f : Fld) : d.fld a f = e.fld a f := by
  rw [Dev.fld, Dev.fld, h]

theorem Dev.flag_congr {d e : Dev} {a : Nat} (h : d.reg a = e.reg a) (f : Fld) : d.flag a f = e.flag a f := by
  rw [Dev.flag, Dev.flag, Dev.fld_congr h]

/-! ### Refusals -/

theorem Dev.count_fld_other (d : Dev) {a b : Nat} (h : b ≠ a) (f : Fld) : (d.count a).fld b f = d.fld b f :=
  Dev.fld_congr (d.count_reg_other h) f

/-- A refusal does what Table 2.7 says of the header of its block. -/
theorem Dev.refuse_refused (d : Dev) (base reason : Nat) (hr : reason < 2 ^ 16) : Dev.Refused d (d.refuse base reason) base reason := by
  have hne : base + 4 ≠ base + 8 := by omega
  by_cases h : d.flag (base + 4) Fld.REFUSED_REFUSED = true
  · have heq : d.refuse base reason = (d.setFlag (base + 4) Fld.REFUSED_MORE).count (base + 8) := by simp [Dev.refuse, h]
    have h1 : d.fld (base + 4) Fld.REFUSED_REFUSED = 1 := beq_iff_eq.mp h
    rw [heq]
    refine ⟨?_, fun h0 => ?_, fun _ => ⟨?_, ?_⟩, ?_⟩
    · rw [Dev.count_fld_other _ hne, Dev.setFlag_fld_disjoint _ _ (by decide) (by decide) (by decide), h1]
    · exact absurd (h1.symm.trans h0) (by decide)
    · rw [Dev.count_fld_other _ hne, Dev.setFlag_fld_disjoint _ _ (by decide) (by decide) (by decide)]
    · rw [Dev.count_fld_other _ hne, Dev.setFlag_fld_same _ _ (by decide) (by decide)]
    · rw [Dev.count_reg, if_pos rfl, Dev.setFlag_reg_other _ _ hne.symm]
  · have heq : d.refuse base reason =
        ((d.setFlag (base + 4) Fld.REFUSED_REFUSED).setFld (base + 4) Fld.REFUSED_REASON reason).count (base + 8) := by
      simp [Dev.refuse, h]
    have h1 : d.fld (base + 4) Fld.REFUSED_REFUSED ≠ 1 := fun hc => h (beq_iff_eq.mpr hc)
    rw [heq]
    refine ⟨?_, fun _ => ?_, fun hc => absurd hc h1, ?_⟩
    · rw [Dev.count_fld_other _ hne, Dev.setFld_fld_disjoint _ _ _ (by decide) (by decide) (by decide),
        Dev.setFlag_fld_same _ _ (by decide) (by decide)]
    · rw [Dev.count_fld_other _ hne, Dev.setFld_fld_same _ _ _ _ (by decide) (by decide)]
      exact Nat.mod_eq_of_lt hr
    · rw [Dev.count_reg, if_pos rfl, Dev.setFld_reg_other _ _ _ hne.symm, Dev.setFlag_reg_other _ _ hne.symm]

/-- What a refusal says holds of any device with the same two registers before and after. -/
theorem Dev.Refused.congr {e e' d d' : Dev} {base reason : Nat} (h : Dev.Refused e d base reason)
    (he4 : e'.reg (base + 4) = e.reg (base + 4)) (he8 : e'.reg (base + 8) = e.reg (base + 8))
    (hd4 : d'.reg (base + 4) = d.reg (base + 4)) (hd8 : d'.reg (base + 8) = d.reg (base + 8)) : Dev.Refused e' d' base reason := by
  obtain ⟨hflag, hreason, hmore, hcount⟩ := h
  constructor <;> simp only [Dev.fld_congr he4, Dev.fld_congr hd4, he8, hd8] <;> assumption

theorem Dev.OnlyRegs.refuse {e d : Dev} {offs : List Nat} (h : Dev.OnlyRegs e d offs) {base : Nat} (h4 : base + 4 ∈ offs)
    (h8 : base + 8 ∈ offs) (reason : Nat) : Dev.OnlyRegs e (d.refuse base reason) offs := by
  refine ⟨fun o ho => ?_, ?_⟩
  · rw [Dev.refuse_reg_other, h.regs o ho]
    · exact fun hc => ho (hc ▸ h4)
    · exact fun hc => ho (hc ▸ h8)
  · rw [Dev.refuse_eq]
    exact h.rest

end Sys2Proof.Machine

/-! SUPPORT. The rows of Table 2.6, and the obligations about the access that each decides and about the writes that are turned away (R39, R49). -/

namespace Sys2Proof.Machine

/-! ### What decides an access -/

/-- An offset of no region is unmapped. -/
theorem Dev.access_of_none {d : Dev} {off : Nat} (h : blkOf off = none) : d.access off = .unmapped := by
  rw [Dev.access, h]

/-- An absent block falls back (R49). -/
theorem Dev.access_of_absent {d : Dev} {off : Nat} {b : Blk} (h : blkOf off = some b) (hp : d.present b = false) :
    d.access off = .fallback := by
  simp [Dev.access, h, hp]

/-- A present block is reached at its registers, but in Rest only GLB and SDP answer (R39, R47). -/
theorem Dev.access_of_present {d : Dev} {off : Nat} {b : Blk} (h : blkOf off = some b) (hp : d.present b = true) :
    d.access off = if off % 4 = 0 ∧ (rowOf (d.keyOf off)).isSome = true then
      (if d.sdp.power = 3 ∧ b ≠ .glb ∧ b ≠ .sdp then .far else .normal (d.keyOf off)) else .unmapped := by
  by_cases hrow : off % 4 = 0 ∧ (rowOf (d.keyOf off)).isSome = true
  · by_cases hfar : d.sdp.power = 3 ∧ b ≠ .glb ∧ b ≠ .sdp
    · rw [if_pos hrow, if_pos hfar]
      simp [Dev.access, h, hp, hrow, hfar]
    · rw [if_pos hrow, if_neg hfar]
      simp only [not_and, not_not] at hfar
      simp [Dev.access, h, hp, hrow]
      exact fun h3 hg => hfar h3 hg
  · rw [if_neg hrow]
    simp only [not_and, Bool.not_eq_true] at hrow
    simp [Dev.access, h, hp]
    exact fun h4 hr => absurd hr (by simpa using hrow h4)

theorem Dev.keyOf_port {d : Dev} {off p : Nat} (h : blkOf off = some (.port p)) : d.keyOf off = off + d.role p * 0x10000000 := by
  rw [Dev.keyOf, h]

theorem Dev.keyOf_other {d : Dev} {off : Nat} (h : ∀ p, blkOf off ≠ some (.port p)) : d.keyOf off = off := by
  unfold Dev.keyOf
  split
  · exact absurd ‹_› (h _)
  · rfl

/-- GLB and SDP answer always, at every register they have (R39, R446). -/
theorem Dev.access_always {d : Dev} {off : Nat} {b : Blk} (h : blkOf off = some b) (hb : b = .glb ∨ b = .sdp) (h4 : off % 4 = 0)
    (hr : (rowOf off).isSome = true) : d.access off = .normal off := by
  have hkey : d.keyOf off = off := by
    refine Dev.keyOf_other fun p hp => ?_
    rcases hb with rfl | rfl <;> exact absurd (h.symm.trans hp) (by simp)
  have hp : d.present b = true := by rcases hb with rfl | rfl <;> rfl
  have hnot : ¬ (d.sdp.power = 3 ∧ b ≠ .glb ∧ b ≠ .sdp) := by rintro ⟨-, hg, hs⟩; exact hb.elim hg hs
  rw [Dev.access_of_present h hp, hkey, if_pos ⟨h4, hr⟩, if_neg hnot]

/-- Without a loaded waybill, and in a flush phase, every block falls back but those of the boot sequence (R75, R457). -/
theorem Dev.present_of_unloaded {d : Dev} {b : Blk} (h : d.wb.loaded = false ∨ d.boot.flush = true) (hglb : b ≠ .glb) (hsdp : b ≠ .sdp)
    (hcal : b ≠ .cal) (hckg : b ≠ .ckg) (hmem : b ≠ .mem) (hwbl : b ≠ .wbl) : d.present b = false := by
  have hoff : (d.loaded && !d.boot.flush) = false := by rcases h with h | h <;> simp [Dev.loaded, h]
  revert hglb hsdp hcal hckg hmem hwbl
  cases b <;> simp [Dev.present, hoff]

/-- While a waybill loads, every block that may be absent falls back (R79). -/
theorem Dev.present_of_loading {d : Dev} {b : Blk}
    (hb : b ∈ [Blk.blt, .tly, .prt, .stl, .twn, .trk, .dbg] ∨ (∃ p, b = .port p) ∨ ∃ c, b = .line c) (h : d.boot.load ≠ none) :
    d.present b = false := by
  have hfixed : d.boot.load.isNone = false := Option.isNone_eq_false_iff.mpr (Option.isSome_iff_ne_none.mpr h)
  simp only [List.mem_cons, List.not_mem_nil, or_false] at hb
  rcases hb with (rfl | rfl | rfl | rfl | rfl | rfl | rfl) | ⟨p, rfl⟩ | ⟨c, rfl⟩ <;> simp [Dev.present, hfixed]

theorem Dev.present_of_normal {d : Dev} {off k : Nat} (h : d.access off = .normal k) : ∃ b, blkOf off = some b ∧ d.present b = true := by
  cases hb : blkOf off with
  | none => exact absurd (h.symm.trans (Dev.access_of_none hb)) (by simp)
  | some b =>
    cases hp : d.present b with
    | true => exact ⟨b, rfl, hp⟩
    | false => exact absurd (h.symm.trans (Dev.access_of_absent hb hp)) (by simp)

/-- An access that its register answers is aligned, and reaches that register at the key of its offset. -/
theorem Dev.access_normal {d : Dev} {off k : Nat} (h : d.access off = .normal k) :
    off % 4 = 0 ∧ (rowOf k).isSome = true ∧ k = d.keyOf off := by
  obtain ⟨b, hb, hp⟩ := Dev.present_of_normal h
  rw [Dev.access_of_present hb hp] at h
  split at h
  · next hrow =>
    split at h
    · exact absurd h (by simp)
    · obtain rfl : d.keyOf off = k := by simpa using h
      exact ⟨hrow.1, hrow.2, rfl⟩
  · exact absurd h (by simp)

/-- Settles O10: the rows of Table 2.6 in their order, over the blocks that are present. -/
theorem accessesAreDecidedByTable26 : Obligations.AccessesAreDecidedByTable26 := by
  unfold Obligations.AccessesAreDecidedByTable26
  intro d off
  refine ⟨fun b hb hglb h4 hrow => Dev.access_always hb hglb h4 hrow,
    fun b hb hglb hsdp hcal hckg hmem hwbl h => Dev.access_of_absent hb (Dev.present_of_unloaded h hglb hsdp hcal hckg hmem hwbl),
    fun b hb hopt h => Dev.access_of_absent hb (Dev.present_of_loading hopt h), fun b hb hglb hsdp hrest hp => ?_,
    Dev.access_of_none, fun k hk => ?_⟩
  · have hfar : d.sdp.power = 3 ∧ b ≠ .glb ∧ b ≠ .sdp := ⟨hrest, hglb, hsdp⟩
    rw [Dev.access_of_present hb hp, if_pos hfar]
  · obtain ⟨h4, hrow, hkey⟩ := Dev.access_normal hk
    exact ⟨h4, hrow, fun p hp => hkey.trans (Dev.keyOf_port hp), fun hno => hkey.trans (Dev.keyOf_other hno)⟩

/-! ### Writes that Table 2.6 turns away -/

/-- A Sealed device in Rest with a waybill that has the DBG block: its DBG registers do not answer (R39, R446). -/
def sealedInRest : Dev :=
  { boot := { inReset := none }, wb := { loaded := true, blocks := 127 }, sdp := { power := 3, sec := 1 } }

/-- Refutes O11: in Rest a Sealed device does not answer at `DBG_MODE` (row 4), but the write of Intrude there is one that its security
state forbids (row 1 of Table 2.6, Table 19.3), which comes first: it is dropped without a log, and `GLB_ERR_FAR_CNT` stays 0. -/
theorem not_writesTurnedAwayAreLogged : ¬ Obligations.WritesTurnedAwayAreLogged := by
  unfold Obligations.WritesTurnedAwayAreLogged
  intro h
  have hfar : sealedInRest.access Reg.DBG_MODE = .far := by decide +kernel
  have hforbid : sealedInRest.quiet.forbidsMode Reg.DBG_MODE 2 = true := by decide
  have hcnt : sealedInRest.reg Reg.GLB_ERR_FAR_CNT = 0 := by decide +kernel
  obtain ⟨t, hexec, -, hcount, -⟩ := (h ⟨[], sealedInRest⟩ Reg.DBG_MODE 2).2 Reg.GLB_ERR_FAR Reg.GLB_ERR_FAR_ADDR Reg.GLB_ERR_FAR_CNT
    0x46D9 (.inr ⟨hfar, rfl, rfl, rfl, rfl⟩)
  have hdrop : exec (.registerWrite Reg.DBG_MODE 2) ⟨[], sealedInRest⟩ =
      .next (State.done ⟨[], sealedInRest⟩ (sealedInRest.quiet.writeBar0 Reg.DBG_MODE 2)) := rfl
  rw [Dev.writeBar0, if_pos hforbid, hexec] at hdrop
  obtain rfl : t = _ := by simpa using hdrop
  rw [State.done_reg, Dev.quiet_reg, hcnt] at hcount
  exact absurd hcount (by decide)

end Sys2Proof.Machine

/-! SUPPORT. Host writes to GLB, and the obligations about the aperture (R32) and about content in Sealed (R48). -/

namespace Sys2Proof.Machine

/-! ### Registers of GLB -/

theorem Dev.onWrite_glb (d : Dev) {off : Nat} (h : blkOf off = some .glb) (h4 : off % 4 = 0) (hr : (rowOf off).isSome = true)
    (f : Dev → Dev) : d.onWrite off f = f d := Dev.onWrite_normal (Dev.access_always h (.inl rfl) h4 hr) f

/-- The row of `GLB_APERTURE`: one field, `BASE` (Table 2.8). -/
theorem rowOf_aperture : rowOf Reg.GLB_APERTURE = some ⟨0x20, [], [⟨6, 0, .rw, 0⟩], false⟩ := by decide +kernel

theorem Dev.genericWrite_aperture (d : Dev) (v : Nat) : (d.genericWrite Reg.GLB_APERTURE v).reg Reg.GLB_APERTURE = v % 128 := by
  rw [Dev.genericWrite_of_row rowOf_aperture, Dev.setReg_reg, if_pos rfl]
  simp [RegRow.afterWrite, FieldSpec.afterWrite, bits]
  omega

/-- A command that ends in a refusal: what it says of the header, and its frame. -/
theorem State.done_refuse (s : State) {e : Dev} (base : Nat) {reason : Nat} (hr : reason < 2 ^ 16) {offs : List Nat}
    (he : Dev.OnlyRegs s.dev e offs) (h4 : base + 4 ∉ offs) (h8 : base + 8 ∉ offs) :
    Dev.Refused s.dev (s.done (e.refuse base reason)).dev base reason ∧
      Dev.OnlyRegs s.dev (s.done (e.refuse base reason)).dev (offs ++ [base + 4, base + 8]) := by
  constructor
  · exact (e.refuse_refused base reason hr).congr (he.regs _ h4).symm (he.regs _ h8).symm (State.done_reg s _ _) (State.done_reg s _ _)
  · have hwide : Dev.OnlyRegs s.dev e (offs ++ [base + 4, base + 8]) :=
      ⟨fun o ho => he.regs o fun hc => ho (List.mem_append_left _ hc), he.rest⟩
    exact (hwide.refuse (by simp) (by simp) reason).done s

/-- Settles O8: a base in range is written under the access code of `BASE`, a larger one is refused. -/
theorem apertureTakesOnlyBasesInRange : Obligations.ApertureTakesOnlyBasesInRange := by
  unfold Obligations.ApertureTakesOnlyBasesInRange
  intro s v
  have hexec : exec (.glbAperture v) s = .next (s.done (s.dev.quiet.writeAperture v.toNat)) := by
    refine congrArg (fun d => Host.Outcome.next (s.done d)) (Dev.onWrite_glb _ ?_ ?_ ?_ _) <;> decide +kernel
  have hbase : Fld.GLB_APERTURE_BASE.get v.toNat = v.toNat % 128 := by simp [Fld.GLB_APERTURE_BASE, Fld.get, bits]
  refine ⟨_, hexec, ?_⟩
  by_cases hr : 112 < v.toNat % 128
  · have hrefused : s.dev.quiet.writeAperture v.toNat = s.dev.quiet.refuse Reg.GLB_BLKID glbApertureRange := by
      rw [Dev.writeAperture, hbase, if_pos hr]
    obtain ⟨hdone, hframe⟩ := s.done_refuse (e := s.dev.quiet) Reg.GLB_BLKID (reason := glbApertureRange) (by decide)
      (Dev.OnlyRegs.refl _ _).of_quiet List.not_mem_nil List.not_mem_nil
    rw [hrefused]
    exact ⟨State.done_out_nil (by simp) s, fun hc => absurd hr (by omega), fun _ => ⟨hframe.regs _ (by decide), hdone, hframe⟩⟩
  · have hwritten : s.dev.quiet.writeAperture v.toNat = s.dev.quiet.genericWrite Reg.GLB_APERTURE v.toNat := by
      rw [Dev.writeAperture, hbase, if_neg hr]
    rw [hwritten]
    refine ⟨State.done_out_nil (by simp) s, fun _ => ⟨?_, ?_⟩, fun hc => absurd hc hr⟩
    · rw [State.done_reg, Dev.genericWrite_aperture]
    · exact (Dev.genericWrite_onlyRegs _ _ _).of_quiet.done s

/-! ### Content of a Sealed device -/

/-- Settles O15: the range is one that Table 19.3 forbids in Sealed, and the answer is made before the memory is looked at. -/
theorem sealedContentIsNotTold : Obligations.SealedContentIsNotTold := by
  unfold Obligations.SealedContentIsNotTold
  intro s off n bad htap hsec a ha hcontent m
  have hforbid : (Dev.quiet { s.dev with mem := m }).bar2Forbidden a n = true := by
    have hwide : s.dev.wblState ≠ 2 ∨ ∃ p ∈ s.dev.wb.parts, p.kind ≠ 0 ∧ apart a n (p.base * partUnit) (p.size * partUnit) = false := by
      refine hcontent.imp_right ?_
      rintro ⟨hn, p, hp, hkind, hsize, hlow, hhigh⟩
      have hpos : 0 < p.size * partUnit := Nat.mul_pos hsize (by decide)
      rw [Nat.add_mul] at hlow
      refine ⟨p, hp, hkind, ?_⟩
      simp only [apart, Bool.or_eq_false_iff, decide_eq_false_iff_not, beq_eq_false_iff_ne]
      omega
    have hstate : (Dev.quiet { s.dev with mem := m }).wblState = s.dev.wblState := rfl
    simp only [Dev.bar2Forbidden, Dev.quiet_sdp, hsec, ha, hstate, Dev.quiet_wb, beq_self_eq_true, decide_true, Bool.true_and,
      Bool.or_eq_true, bne_iff_ne, List.any_eq_true, Bool.and_eq_true, Bool.not_eq_true']
    exact hwide
  have hread : exec (.bar2Read off n bad) { s with dev := { s.dev with mem := m } } = .next (State.done { s with dev := { s.dev with mem := m } }
      ((Dev.quiet { s.dev with mem := m }).bar2Read off n bad)) := rfl
  rw [Dev.bar2Read, show Dev.bar2Addr (Dev.quiet { s.dev with mem := m }) off = a from rfl, if_pos hforbid] at hread
  exact State.sends (s := { s with dev := { s.dev with mem := m } }) htap hread rfl

end Sys2Proof.Machine

/-! SUPPORT. The registers that the operations of the blocks leave alone: all below SDP, and `DEP_STATUS`. -/

namespace Sys2Proof.Machine

/-! ### Registers that the units leave alone -/

/-- The registers of GLB, WBL and SDP (R36), and `DEP_STATUS`: no unit that sends, logs, completes or settles writes them. -/
def Spared (k : Nat) : Prop := k < 0x30000 ∨ k = Reg.DEP_STATUS

/-- Those that the units of rings, logs, links and engines write are none of them. -/
@[simp] theorem not_spared_fixed : ¬ Spared Reg.BEL_UNROUTED_CNT ∧ ¬ Spared Reg.MEM_STATUS ∧ ¬ Spared Reg.DEP_EVENT ∧
    ¬ Spared Reg.DEP_LOG_COUNT ∧ ¬ Spared Reg.DEP_BLOCK_FAIL_CNT ∧ ¬ Spared Reg.DEP_REREAD_OK_CNT ∧ ¬ Spared Reg.RNG_DROP_CNT ∧
    ¬ Spared Reg.TWN_EVENT ∧ ¬ Spared Reg.TWN_STATUS ∧ ¬ Spared Reg.BLT_EVENT ∧ ¬ Spared Reg.BLT_STATUS ∧ ¬ Spared Reg.BLT_KIB_CNT ∧
    ¬ Spared Reg.BLT_POISON_CNT := by
  unfold Spared
  decide

@[simp] theorem not_spared_rings (r : Nat) : ¬ Spared (Reg.RNG_RS_PROD r) ∧ ¬ Spared (Reg.RNG_RS_RETIRE r) ∧
    ¬ Spared (Reg.RNG_RS_EVENT r) ∧ ¬ Spared (Reg.RNG_RS_MARK_CNT r) ∧ ¬ Spared (Reg.RNG_RS_DONE_CNT r) ∧
    ¬ Spared (Reg.RNG_RS_DROP_CNT r) := by
  simp only [Spared, Reg.DEP_STATUS, Reg.RNG_RS_PROD, Reg.RNG_RS_RETIRE, Reg.RNG_RS_EVENT, Reg.RNG_RS_MARK_CNT,
    Reg.RNG_RS_DONE_CNT, Reg.RNG_RS_DROP_CNT]
  omega

@[simp] theorem not_spared_links (p : Nat) : ¬ Spared (Reg.TWN_PORT_STATUS p) ∧
    ¬ Spared (Reg.TRK_PORT_STATUS p) ∧ ¬ Spared (Reg.CPT_STATUS p) ∧ ¬ Spared (Reg.CPT_EVENT p) ∧ ¬ Spared (Reg.CPT_SLACK p) ∧
    ¬ Spared (Reg.CPT_HOLD_CNT p) := by
  simp only [Spared, Reg.DEP_STATUS, Reg.TWN_PORT_STATUS, Reg.TRK_PORT_STATUS, Reg.CPT_STATUS,
    Reg.CPT_EVENT, Reg.CPT_SLACK, Reg.CPT_HOLD_CNT]
  omega

@[simp] theorem not_spared_tallies (u : Nat) : ¬ Spared (Reg.TLY_STATUS u) ∧ ¬ Spared (Reg.TLY_RF_COUNT u) ∧
    ¬ Spared (Reg.TLY_APPEND_CNT u) := by
  simp only [Spared, Reg.DEP_STATUS, Reg.TLY_STATUS,
    Reg.TLY_RF_COUNT, Reg.TLY_APPEND_CNT]
  omega

/-- The stack of an address is one of eight (R170). -/
theorem Dev.stackOf_lt (d : Dev) (a : Nat) : d.stackOf a < 8 := by
  unfold Dev.stackOf
  refine List.foldlRecOn (motive := fun t => t < 8) _ _ (Nat.mod_lt _ (by decide)) fun t ht j _ => ?_
  split
  · exact Nat.xor_lt_two_pow (n := 3) ht (Nat.mod_lt _ (by decide))
  · exact ht

@[simp] theorem not_spared_memFail (d : Dev) (a : Nat) : ¬ Spared (Reg.MEM_FAIL_CNT (d.stackOf a)) := by
  have h := d.stackOf_lt a
  simp only [Spared, Reg.DEP_STATUS, Reg.MEM_FAIL_CNT]
  omega

@[simp] theorem not_spared_bltCounter (status : Nat) : ¬ Spared (bltCounter status) := by
  unfold bltCounter
  repeat' split
  all_goals (unfold Spared; decide)

/-! ### Reading a register through an update of other fields -/

@[simp] theorem Dev.mk_reg {now free : Nat} {out : List Out} {regs : Tab Word} {mem : Tab Byte} {damaged weak : List Nat}
    {epochs : Tab Nat} {hostMem flash : Tab Byte} {bridgeFails : Tab Nat} {fuses : Fuses} {wb : Waybill} {boot : Boot} {sdp : Sdp}
    {bel : Bel} {rings : Tab RingSt} {dbg : Dbg} {tap : Tap} {depLogged : List (List Nat)} {stk : Stk} {staging : Tab Byte} {prt : Prt}
    {ladders : List Ladder} {stagingDamaged : List Nat} {flp : Flp} {stl : Stl} {coaches : Tab Coach} {scrub : Option Nat} {twn : Twn}
    {lines : Tab Rlc} {sips : Tab Sip} {ctxs : Tab Ctx} {trk : Trk} {blt : Blt} {tallies : Tab Tly} {ckg : Ckg} (k : Nat) :
    (Dev.mk now free out regs mem damaged weak epochs hostMem flash bridgeFails fuses wb boot sdp bel rings dbg tap depLogged stk staging
      prt ladders stagingDamaged flp stl coaches scrub twn lines sips ctxs trk blt tallies ckg).reg k = (regs.get resetWord k).toNat := rfl

@[simp] theorem Dev.get_regs (d : Dev) (k : Nat) : (d.regs.get resetWord k).toNat = d.reg k := rfl

@[simp] theorem Dev.ite_reg {c : Prop} [Decidable c] (a b : Dev) (k : Nat) :
    (if c then a else b).reg k = if c then a.reg k else b.reg k := apply_ite (Dev.reg · k) c a b

/-! ### The register file after operations that write elsewhere -/

section Spares
variable {off : Nat} (hoff : Spared off)
include hoff

@[simp] theorem Dev.setReg_spares (d : Dev) {a : Nat} (ha : ¬ Spared a) (v : Nat) : (d.setReg a v).reg off = d.reg off :=
  d.setReg_reg_other v fun hk => ha (hk ▸ hoff)

@[simp] theorem Dev.countBy_spares (d : Dev) {a : Nat} (ha : ¬ Spared a) (n : Nat) : (d.countBy a n).reg off = d.reg off :=
  Dev.setReg_spares hoff d ha _

@[simp] theorem Dev.count_spares (d : Dev) {a : Nat} (ha : ¬ Spared a) : (d.count a).reg off = d.reg off := Dev.countBy_spares hoff d ha 1

@[simp] theorem Dev.countWrap_spares (d : Dev) {a : Nat} (ha : ¬ Spared a) : (d.countWrap a).reg off = d.reg off :=
  Dev.setReg_spares hoff d ha _

@[simp] theorem Dev.setFld_spares (d : Dev) {a : Nat} (ha : ¬ Spared a) (f : Fld) (x : Nat) : (d.setFld a f x).reg off = d.reg off :=
  Dev.setReg_spares hoff d ha _

@[simp] theorem Dev.setFlag_spares (d : Dev) {a : Nat} (ha : ¬ Spared a) (f : Fld) : (d.setFlag a f).reg off = d.reg off :=
  Dev.setFld_spares hoff d ha f 1

omit hoff in
@[simp] theorem Dev.foldl_reg {α : Type} {f : Dev → α → Dev} (hf : ∀ d x, (f d x).reg off = d.reg off) (l : List α) (d : Dev) :
    (l.foldl f d).reg off = d.reg off := by
  induction l generalizing d with
  | nil => rfl
  | cons x l ih => exact (ih _).trans (hf d x)

omit hoff in
@[simp] theorem Dev.foldl_fst_reg {α β : Type} {f : Dev × β → α → Dev × β} (hf : ∀ a x, (f a x).1.reg off = a.1.reg off) (l : List α)
    (a : Dev × β) : (l.foldl f a).1.reg off = a.1.reg off := by
  induction l generalizing a with
  | nil => rfl
  | cons x l ih => exact (ih _).trans (hf a x)

end Spares
end Sys2Proof.Machine

/-! SUPPORT. For each operation of the model that a reset, a bridge failure or a sample runs: the registers it leaves alone. -/

namespace Sys2Proof.Machine

/-! ### Operations that touch no register -/

section NoRegister
variable {off : Nat}

@[simp] theorem Dev.freshNat_reg (d : Dev) : d.freshNat.2.reg off = d.reg off := rfl

@[simp] theorem Dev.leastLane_reg (d : Dev) : d.leastLane.2.reg off = d.reg off := by
  unfold Dev.leastLane
  dsimp only
  repeat' split
  all_goals simp

@[simp] theorem Dev.laneQueue_reg (d : Dev) (p n : Nat) : (d.laneQueue p n).reg off = d.reg off := rfl

@[simp] theorem Dev.sendLevels_reg (d : Dev) (p : Nat) (ws : List (List Nat)) : (d.sendLevels p ws).reg off = d.reg off := by
  unfold Dev.sendLevels
  exact Dev.foldl_reg (fun d x => by simp) _ _

@[simp] theorem Dev.freshBytes_reg (d : Dev) (n : Nat) : (d.freshBytes n).2.reg off = d.reg off := rfl

@[simp] theorem Dev.freshBool_reg (d : Dev) : d.freshBool.2.reg off = d.reg off := rfl

@[simp] theorem Dev.idleRun_reg (d : Dev) (idle : Nat → Nat → List Byte) (n : Nat) : (d.idleRun idle n).2.reg off = d.reg off := by
  induction n with
  | zero => rfl
  | succ n ih => simpa [Dev.idleRun, Dev.freshNat] using ih

@[simp] theorem Dev.lanePause_reg (d : Dev) (p : Nat) (idle : Nat → Nat → List Byte) (l : Lane) :
    (d.lanePause p idle l).2.reg off = d.reg off := by
  simp [Dev.lanePause]

@[simp] theorem Dev.linkBytes_reg (d : Dev) (p : Nat) (idle : Nat → Nat → List Byte) (x : LinkCodes) (bs : List Byte) :
    (d.linkBytes p idle x bs).2.reg off = d.reg off := by
  unfold Dev.linkBytes
  dsimp only
  repeat' split
  all_goals simp

@[simp] theorem Dev.twnCodes_reg (d : Dev) (p : Nat) (bs : List Byte) : (d.twnCodes p bs).reg off = d.reg off := by
  simp [Dev.twnCodes]

@[simp] theorem Dev.twnEmit_reg (d : Dev) (session : List Byte) (seq : Nat) (msg : TwinMsg) :
    (d.twnEmit session seq msg).reg off = d.reg off := by
  unfold Dev.twnEmit
  dsimp only
  repeat' split
  all_goals simp

@[simp] theorem Dev.laneTrain_reg (d : Dev) (p : Nat) : (d.laneTrain p).reg off = d.reg off := rfl

@[simp] theorem Dev.setBelClass_reg (d : Dev) (c : Nat) (x : BelClass) : (d.setBelClass c x).reg off = d.reg off := rfl

@[simp] theorem Dev.pendBy_reg (d : Dev) (src n : Nat) : (d.pendBy src n).reg off = d.reg off := rfl

@[simp] theorem Dev.setCoach_reg (d : Dev) (p : Nat) (c : Coach) : (d.setCoach p c).reg off = d.reg off := rfl

@[simp] theorem Dev.driveLane_reg (d : Dev) (p state : Nat) (was : LaneDrive) : (d.driveLane p state was).reg off = d.reg off := by
  simp [Dev.driveLane]

@[simp] theorem Dev.coachLane_reg (d : Dev) (p : Nat) (was : LaneDrive) : (d.coachLane p was).reg off = d.reg off := by
  unfold Dev.coachLane
  dsimp only
  repeat' split
  all_goals simp

@[simp] theorem Dev.orphanLadders_reg (d : Dev) (p : Ladder → Bool) : (d.orphanLadders p).reg off = d.reg off := rfl

@[simp] theorem Dev.setDamaged_reg (d : Dev) (b : Nat) (bad : Bool) : (d.setDamaged b bad).reg off = d.reg off := rfl

theorem Dev.setRegs_reg_other (d : Dev) (a : Nat) (vs : List Nat) {o : Nat} (h : o < a ∨ a + 4 * vs.length ≤ o) :
    (d.setRegs a vs).reg o = d.reg o := by
  induction vs generalizing d a with
  | nil => rfl
  | cons v vs ih =>
    simp only [List.length_cons] at h
    rw [Dev.setRegs, ih _ _ (by omega), Dev.setReg_reg_other _ _ (by omega)]

@[simp] theorem Dev.hostPut_reg (d : Dev) (a : Nat) (bs : List Byte) : (d.hostPut a bs).reg off = d.reg off := rfl

@[simp] theorem Dev.memPut_reg (d : Dev) (a : Nat) (bs : List Byte) : (d.memPut a bs).reg off = d.reg off := rfl

@[simp] theorem Dev.corrupt_reg (d : Dev) (b : Nat) : (d.corrupt b).reg off = d.reg off := rfl

@[simp] theorem Dev.mapJob_reg (d : Dev) (p : Job → Bool) (f : Job → Option Job) : (d.mapJob p f).reg off = d.reg off := rfl

@[simp] theorem Dev.placeJobs_reg (d : Dev) : d.placeJobs.reg off = d.reg off := by
  unfold Dev.placeJobs
  refine (Dev.foldl_reg (fun d x => ?_) _ _).trans ?_
  · repeat' split
    all_goals simp
  · simp

@[simp] theorem Dev.setStrokes_reg (d : Dev) (rs : List StrokeRun) : (d.setStrokes rs).reg off = d.reg off := rfl

@[simp] theorem Dev.mapRuns_reg (d : Dev) (p : StrokeRun → Bool) (f : StrokeRun → StrokeRun) : (d.mapRuns p f).reg off = d.reg off :=
  rfl

@[simp] theorem Dev.setRingSt_reg (d : Dev) (r : Nat) (x : RingSt) : (d.setRingSt r x).reg off = d.reg off := rfl

@[simp] theorem Dev.unread_reg (d : Dev) (xs : List SetRead) : (d.unread xs).reg off = d.reg off := rfl

@[simp] theorem Dev.dequeue_reg (d : Dev) (q : QSet) (applied : Bool) : (d.dequeue q applied).reg off = d.reg off := rfl

@[simp] theorem Dev.setSip_reg (d : Dev) (p : Nat) (x : Sip) : (d.setSip p x).reg off = d.reg off := rfl

@[simp] theorem Dev.setRlc_reg (d : Dev) (c : Nat) (x : Rlc) : (d.setRlc c x).reg off = d.reg off := rfl

@[simp] theorem Dev.orphanReader_reg (d : Dev) (reader : Nat) : (d.orphanReader reader).reg off = d.reg off := rfl

@[simp] theorem Dev.setBlt_reg (d : Dev) (x : Blt) : (d.setBlt x).reg off = d.reg off := rfl

@[simp] theorem Dev.waitsMet_reg (d : Dev) : d.waitsMet.reg off = d.reg off := rfl

@[simp] theorem Dev.dropTrunkSet_reg (d : Dev) (n : Nat) : (d.dropTrunkSet n).reg off = d.reg off := rfl

@[simp] theorem Dev.trkCodes_reg (d : Dev) (p : Nat) (bs : List Byte) : (d.trkCodes p bs).reg off = d.reg off := by
  simp [Dev.trkCodes]

@[simp] theorem Dev.trkPut_reg (d : Dev) (p : Nat) (session : List Byte) (seq : Nat) (f : TrunkFrame) :
    (d.trkPut p session seq f).reg off = d.reg off := by
  unfold Dev.trkPut
  split <;> simp

end NoRegister

/-! ### Operations that leave the spared registers -/

section Spares
variable {off : Nat} (hoff : Spared off)
include hoff

@[simp] theorem Dev.tlyAppend_spares (d : Dev) (link type_ origin seq : Nat) (payload : List Byte) :
    (d.tlyAppend link type_ origin seq payload).2.reg off = d.reg off := by
  unfold Dev.tlyAppend
  split <;> simp [hoff]

@[simp] theorem Dev.tlyAppendTold_spares (d : Dev) (link : Nat) : (d.tlyAppendTold link).reg off = d.reg off := by
  unfold Dev.tlyAppendTold
  split <;> simp [hoff]

@[simp] theorem Dev.twnSendMsg_spares (d : Dev) (msg : TwinMsg) : (d.twnSendMsg msg).reg off = d.reg off := by
  unfold Dev.twnSendMsg
  dsimp only
  repeat' split
  all_goals simp [hoff]

@[simp] theorem Dev.twnSend_spares (d : Dev) (type_ : Nat) (payload : List Byte) : (d.twnSend type_ payload).reg off = d.reg off := by
  simp [Dev.twnSend, hoff]

@[simp] theorem Dev.twnPart_spares (d : Dev) (cause : Nat) : (d.twnPart cause).reg off = d.reg off := by
  simp [Dev.twnPart, hoff]

@[simp] theorem Dev.setLane_spares (d : Dev) (p x : Nat) : (d.setLane p x).reg off = d.reg off := by
  simp [Dev.setLane, hoff]

@[simp] theorem Dev.laneUp_spares (d : Dev) (p : Nat) : (d.laneUp p).reg off = d.reg off := by
  simp [Dev.laneUp, hoff]

@[simp] theorem Dev.message_spares (d : Dev) (src : Nat) (deassert : Bool) : (d.message src deassert).reg off = d.reg off := by
  unfold Dev.message
  dsimp only
  repeat' split
  all_goals simp [hoff]

@[simp] theorem Dev.raise_spares (d : Dev) (src : Nat) : (d.raise src).reg off = d.reg off := by
  simp [Dev.raise, hoff]

@[simp] theorem Dev.twnEvent_spares (d : Dev) (f : Fld) : (d.twnEvent f).reg off = d.reg off := by
  simp [Dev.twnEvent, hoff]

@[simp] theorem Dev.laneLost_spares (d : Dev) (p x : Nat) : (d.laneLost p x).reg off = d.reg off := by
  simp [Dev.laneLost, hoff]

@[simp] theorem Dev.twnSettle_spares (d : Dev) : d.twnSettle.reg off = d.reg off := by
  simp [Dev.twnSettle, hoff]

@[simp] theorem Dev.coachSource_spares (d : Dev) (p k : Nat) : (d.coachSource p k).reg off = d.reg off := by
  simp [Dev.coachSource, hoff]

@[simp] theorem Dev.coachTo_spares (d : Dev) (p x : Nat) : (d.coachTo p x).reg off = d.reg off := by
  simp [Dev.coachTo, hoff]

@[simp] theorem Dev.coachHold_spares (d : Dev) (p : Nat) : (d.coachHold p).reg off = d.reg off := by
  unfold Dev.coachHold
  dsimp only
  repeat' split
  all_goals simp [hoff]

@[simp] theorem Dev.coachSettle_spares (d : Dev) : d.coachSettle.reg off = d.reg off := by
  simp [Dev.coachSettle, hoff]

@[simp] theorem Dev.depEvent_spares (d : Dev) (f : Fld) : (d.depEvent f).reg off = d.reg off := by
  simp [Dev.depEvent, hoff]

@[simp] theorem Dev.stagingLost_spares (d : Dev) (b : Nat) : (d.stagingLost b).reg off = d.reg off := by
  simp [Dev.stagingLost, hoff]

@[simp] theorem Dev.blockDamaged_spares (d : Dev) (block : Nat) : (d.blockDamaged block).reg off = d.reg off := by
  simp [Dev.blockDamaged, hoff]

@[simp] theorem Dev.jobDamaged_spares (d : Dev) (j : Job) : (d.jobDamaged j).reg off = d.reg off := by
  unfold Dev.jobDamaged
  split <;> simp [hoff]

@[simp] theorem Dev.memPowerUp_spares (d : Dev) (c : Nat) : (d.memPowerUp c).reg off = d.reg off := by
  simp [Dev.memPowerUp, hoff]

@[simp] theorem Dev.reservedWake_spares (d : Dev) (content block : Nat) : (d.reservedWake content block).reg off = d.reg off := by
  simp [Dev.reservedWake, hoff]

@[simp] theorem Dev.showLog_spares (d : Dev) : d.showLog.reg off = d.reg off := by
  refine Dev.setRegs_reg_other _ _ _ (.inl ?_)
  rcases hoff with h | rfl
  · exact h.trans (by decide)
  · decide

@[simp] theorem Dev.raiseIf_spares (d : Dev) (b : Bool) (src : Nat) : (d.raiseIf b src).reg off = d.reg off := by
  simp [Dev.raiseIf, hoff]

@[simp] theorem Dev.ringEvent_spares (d : Dev) (r : Nat) (f : Fld) : (d.ringEvent r f).reg off = d.reg off := by
  simp [Dev.ringEvent, hoff]

@[simp] theorem Dev.memWake_spares (d : Dev) (blocks : List Nat) : (d.memWake blocks).reg off = d.reg off := by
  simp [Dev.memWake, hoff]

@[simp] theorem Dev.memWrite_spares (d : Dev) (a : Nat) (bs : List Byte) : (d.memWrite a bs).reg off = d.reg off := by
  simp [Dev.memWrite, hoff]

@[simp] theorem Dev.ringWrite_spares (d : Dev) (r a : Nat) (bs : List Byte) : (d.ringWrite r a bs).reg off = d.reg off := by
  simp [Dev.ringWrite, hoff]

@[simp] theorem Dev.writeCursorLine_spares (d : Dev) (r : Nat) : (d.writeCursorLine r).reg off = d.reg off := by
  simp [Dev.writeCursorLine, hoff]

@[simp] theorem Dev.ringMark_spares (d : Dev) (r old : Nat) : (d.ringMark r old).reg off = d.reg off := by
  simp [Dev.ringMark, hoff]

@[simp] theorem Dev.putRecord_spares (d : Dev) (r : Nat) (entries : List (List Byte)) : (d.putRecord r entries).2.reg off = d.reg off := by
  unfold Dev.putRecord
  dsimp only
  repeat' split
  all_goals simp [hoff]

@[simp] theorem Dev.failedAgain_spares (d : Dev) (block : Nat) : (d.failedAgain block).reg off = d.reg off := by
  simp [Dev.failedAgain, hoff]

@[simp] theorem Dev.blockFailed_spares (d : Dev) (block : Nat) : (d.blockFailed block).reg off = d.reg off := by
  simp [Dev.blockFailed, hoff]

@[simp] theorem Dev.checkBlocks_spares (d : Dev) (logged : Bool) (bad : List Nat) : (d.checkBlocks logged bad).1.reg off = d.reg off := by
  unfold Dev.checkBlocks
  refine Dev.foldl_fst_reg (fun x b => ?_) _ _
  dsimp only
  repeat' split
  all_goals simp [hoff]

@[simp] theorem Dev.checkOwn_spares (d : Dev) (read met bad : List Nat) : (d.checkOwn read met bad).1.reg off = d.reg off := by
  simp [Dev.checkOwn, hoff]

@[simp] theorem Dev.ownChecks_spares (d : Dev) (spans : List (Nat × Nat)) (bad : List Nat) :
    (d.ownChecks spans bad).1.reg off = d.reg off := by
  simp [Dev.ownChecks, hoff]

@[simp] theorem Dev.checkedRecord_spares (d : Dev) (r : Nat) (entries : List (List Byte)) :
    (d.checkedRecord r entries).1.reg off = d.reg off := by
  unfold Dev.checkedRecord
  dsimp only
  repeat' split
  all_goals simp [hoff]

@[simp] theorem Dev.logRecord_spares (d : Dev) (e : LogEntry) : (d.logRecord e).1.reg off = d.reg off := by
  unfold Dev.logRecord
  dsimp only
  repeat' split
  all_goals simp [hoff]

@[simp] theorem Dev.logAt_spares (n : Nat) (d : Dev) (e : LogEntry) : (Dev.logAt n d e).reg off = d.reg off := by
  induction n generalizing d e with
  | zero => exact Dev.logRecord_spares hoff d e
  | succ n ih => exact (Dev.foldl_reg (fun d e => ih d e) _ _).trans (Dev.logRecord_spares hoff d e)

@[simp] theorem Dev.depLog_spares (d : Dev) (e : LogEntry) : (d.depLog e).reg off = d.reg off := by
  simp [Dev.depLog, hoff]

@[simp] theorem Dev.logParcel_spares (d : Dev) (kind outcome unit_ stroke region number addr : Nat) (escaped : Bool) :
    (d.logParcel kind outcome unit_ stroke region number addr escaped).reg off = d.reg off := by
  simp [Dev.logParcel, hoff]

@[simp] theorem Dev.jobLost_spares (d : Dev) (j : Job) : (d.jobLost j).reg off = d.reg off := by
  unfold Dev.jobLost
  split <;> simp [hoff]

@[simp] theorem Dev.loseJobs_spares (d : Dev) (p : Job → Bool) : (d.loseJobs p).reg off = d.reg off := by
  simp [Dev.loseJobs, hoff]

@[simp] theorem Dev.advanceDone_spares (d : Dev) : d.advanceDone.reg off = d.reg off := by
  unfold Dev.advanceDone
  dsimp only
  repeat' split
  all_goals simp [hoff]

@[simp] theorem Dev.abandonAll_spares (d : Dev) : d.abandonAll.reg off = d.reg off := by
  simp [Dev.abandonAll, hoff]

@[simp] theorem Dev.logAll_spares (d : Dev) (es : List LogEntry) : (d.logAll es).reg off = d.reg off := by
  simp [Dev.logAll, hoff]

@[simp] theorem Dev.record_spares (d : Dev) (r : Nat) (entries : List (List Byte)) : (d.record r entries).2.reg off = d.reg off := by
  simp [Dev.record, hoff]

@[simp] theorem Dev.mirrorCopy_spares (d : Dev) (c : Completion) : (d.mirrorCopy c).reg off = d.reg off := by
  unfold Dev.mirrorCopy
  split <;> simp [hoff]

@[simp] theorem Dev.putCompletion_spares (d : Dev) (r i : Nat) (c : Completion) : (d.putCompletion r i c).reg off = d.reg off := by
  simp [Dev.putCompletion, hoff]

@[simp] theorem Dev.ringComplete_spares (d : Dev) (r i : Nat) (c : Completion) : (d.ringComplete r i c).reg off = d.reg off := by
  simp [Dev.ringComplete, hoff]

@[simp] theorem Dev.endWait_spares (d : Dev) (w : FenceWaitSt) (status : Nat) : (d.endWait w status).reg off = d.reg off := by
  simp [Dev.endWait, hoff]

@[simp] theorem Dev.flushWaits_spares (d : Dev) (status : Nat) : (d.flushWaits status).reg off = d.reg off := by
  simp [Dev.flushWaits, hoff]

@[simp] theorem Dev.completeSet_spares (d : Dev) (q : QSet) (status m held : Nat) :
    (d.completeSet q status m held).reg off = d.reg off := by
  unfold Dev.completeSet
  split <;> simp [hoff]

@[simp] theorem Dev.flushSets_spares (d : Dev) (status : Nat) : (d.flushSets status).reg off = d.reg off := by
  simp [Dev.flushSets, hoff]

@[simp] theorem Dev.abortSlow_spares (d : Dev) (which : Nat → Bool) : (d.abortSlow which).reg off = d.reg off := by
  unfold Dev.abortSlow
  exact Dev.foldl_reg (fun d p => by simp [hoff]) _ _

@[simp] theorem Dev.abortLines_spares (d : Dev) (which : Nat → Bool) : (d.abortLines which).reg off = d.reg off := by
  unfold Dev.abortLines
  refine Dev.foldl_reg (fun d c => ?_) _ _
  rw [Dev.ite_reg, ite_eq_left_iff]
  intro _
  refine (Dev.foldl_reg (fun d j => ?_) _ _).trans (Dev.setRlc_reg _ _ _)
  split <;> simp [hoff]

@[simp] theorem Dev.setTly_spares (d : Dev) (u : Nat) (t : Tly) : (d.setTly u t).reg off = d.reg off := by
  simp [Dev.setTly, hoff]

@[simp] theorem Dev.tlyShow_spares (d : Dev) (u : Nat) : (d.tlyShow u).reg off = d.reg off := by
  simp [Dev.tlyShow, hoff]

@[simp] theorem Dev.scanEnd_spares (d : Dev) (h : Scan) (status detail value : Nat) :
    (d.scanEnd h status detail value).reg off = d.reg off := by
  simp [Dev.scanEnd, hoff]

@[simp] theorem Dev.abortScans_spares (d : Dev) (which : Nat → Bool) : (d.abortScans which).reg off = d.reg off := by
  unfold Dev.abortScans
  refine Dev.foldl_reg (fun d u => ?_) _ _
  rw [Dev.ite_reg, ite_eq_left_iff]
  intro _
  refine (Dev.tlyShow_spares hoff _ _).trans ((Dev.foldl_reg (fun d s => ?_) _ _).trans ?_) <;> simp [hoff]

@[simp] theorem Dev.bltBytes_spares (d : Dev) (n : Nat) : (d.bltBytes n).reg off = d.reg off := by
  simp [Dev.bltBytes, hoff]

@[simp] theorem Dev.memStore_spares (d : Dev) (a : Nat) (bs : List Byte) (bad : List Nat) : (d.memStore a bs bad).reg off = d.reg off := by
  simp [Dev.memStore, hoff]

@[simp] theorem Dev.blitPut_spares (d : Dev) (b : BlitD) (bad : List Nat) (run : Nat × List (Byte × Bool)) :
    (d.blitPut b bad run).reg off = d.reg off := by
  unfold Dev.blitPut
  dsimp only
  split
  · rfl
  · exact (Dev.foldl_reg (fun d b => d.setDamaged_reg b true) _ _).trans (Dev.memStore_spares hoff _ _ _ _)

@[simp] theorem Dev.blitLand_spares (d : Dev) (r : BlitRun) (b : BlitD) (lo hi : Nat) (bad : List Nat) :
    (d.blitLand r b lo hi bad).reg off = d.reg off := by
  simp [Dev.blitLand, hoff]

@[simp] theorem Dev.blitWake_spares (d : Dev) (r : BlitRun) (b : BlitD) (lo hi : Nat) : (d.blitWake r b lo hi).reg off = d.reg off := by
  simp [Dev.blitWake, hoff]

@[simp] theorem Dev.bltShow_spares (d : Dev) : d.bltShow.reg off = d.reg off := by
  simp [Dev.bltShow, hoff]

@[simp] theorem Dev.haltedNow_spares (d : Dev) : d.haltedNow.reg off = d.reg off := by
  simp [Dev.haltedNow, hoff]

@[simp] theorem Dev.blitPoisoned_spares (d : Dev) (r : BlitRun) : (d.blitPoisoned r).reg off = d.reg off := by
  simp [Dev.blitPoisoned, hoff]

@[simp] theorem Dev.blitEnd_spares (d : Dev) (h : BlitHead) (status detail : Nat) : (d.blitEnd h status detail).reg off = d.reg off := by
  simp [Dev.blitEnd, hoff]

@[simp] theorem Dev.setComplete_spares (d : Dev) (s : TrunkSet) (status stroke detail : Nat) :
    (d.setComplete s status stroke detail).reg off = d.reg off := by
  unfold Dev.setComplete
  split <;> simp [hoff]

@[simp] theorem Dev.abortTrunkSets_spares (d : Dev) (which : Nat → Bool) : (d.abortTrunkSets which).reg off = d.reg off := by
  simp [Dev.abortTrunkSets, hoff]

@[simp] theorem Dev.abortFlips_spares (d : Dev) (which : Nat → Bool) : (d.abortFlips which).reg off = d.reg off := by
  simp [Dev.abortFlips, hoff]

@[simp] theorem Dev.setTlane_spares (d : Dev) (p : Nat) (x : TrkLane) : (d.setTlane p x).reg off = d.reg off := by
  simp [Dev.setTlane, hoff]

@[simp] theorem Dev.trkSendOn_spares (d : Dev) (p : Nat) (f : TrunkFrame) : (d.trkSendOn p f).reg off = d.reg off := by
  simp [Dev.trkSendOn, hoff]

@[simp] theorem Dev.trkLeave_spares (d : Dev) (cause : Nat) : (d.trkLeave cause).reg off = d.reg off := by
  simp [Dev.trkLeave, hoff]

@[simp] theorem Dev.lodgerLeave_spares (d : Dev) (cause : Nat) : (d.lodgerLeave cause).reg off = d.reg off := by
  simp [Dev.lodgerLeave, hoff]

end Spares

end Sys2Proof.Machine

/-! SUPPORT. The start of a reset, and the obligation about the key sequence of a software reset (R53). -/

namespace Sys2Proof.Machine

/-! ### The flush phase of a reset (R456) -/

@[simp] theorem Dev.abandonFlash_reg (d : Dev) (k : Nat) : d.abandonFlash.reg k = d.reg k := by
  unfold Dev.abandonFlash
  split <;> rfl

/-- In a flush phase a fence's advance applies no flip set (R456). -/
theorem Dev.fenceAdvance_of_flush {d : Dev} (h : d.boot.flush = true) (f v : Nat) : d.fenceAdvance f v = d.fenceWrite f v := by
  have hboot : (d.fenceWrite f v).boot = d.boot := (Dev.fenceWrite_keeps (Dev.Keeps.refl d) f v).boot
  simp [Dev.fenceAdvance, Dev.flpEdge, hboot, h]

section Low
variable {off : Nat} (hoff : off < 0x30000)
include hoff

theorem Dev.fenceWrite_low (d : Dev) (f v : Nat) : (d.fenceWrite f v).reg off = d.reg off := by
  have hne : off ≠ Reg.FLP_FENCE f := by
    unfold Reg.FLP_FENCE
    omega
  unfold Dev.fenceWrite
  split
  · rw [Dev.raiseIf_spares (.inl hoff), Dev.waitsMet_reg, Dev.setReg_reg_other _ _ hne]
  · rfl

theorem Dev.blitMark_low {d : Dev} (h : d.boot.flush = true) (b : BlitD) : (d.blitMark b).reg off = d.reg off := by
  unfold Dev.blitMark
  rw [Dev.raiseIf_spares (.inl hoff), Dev.ite_reg, Dev.fenceAdvance_of_flush h, Dev.fenceWrite_low hoff, ite_self]

theorem Dev.blitAbort_low {d : Dev} (h : d.boot.flush = true) : d.blitAbort.reg off = d.reg off := by
  have hs : Spared off := .inl hoff
  unfold Dev.blitAbort
  split
  · rfl
  · next r _ =>
    have hflush (lo hi : Nat) (r' : BlitRun) : ((d.freshNat.2.blitWake r' (blitD r.head.words) lo hi).blitLand r' (blitD r.head.words)
        lo hi []).boot.flush = true := by
      have hkeeps := (Dev.blitLand_keeps (Dev.blitWake_keeps (Dev.freshNat_keeps (Dev.Keeps.refl d)) r' (blitD r.head.words) lo hi)
        r' (blitD r.head.words) lo hi []).boot
      rw [hkeeps, h]
    simp only [Dev.bltShow_spares hs, Dev.haltedNow_spares hs, Dev.blitPoisoned_spares hs, Dev.blitEnd_spares hs, Dev.orphanReader_reg,
      Dev.setBlt_reg, Dev.ite_reg, Dev.blitMark_low hoff (hflush _ _ _), Dev.blitLand_spares hs, Dev.blitWake_spares hs,
      Dev.freshNat_reg, ite_self]

theorem Dev.abortBlits_low {d : Dev} (h : d.boot.flush = true) (which : Nat → Bool) : (d.abortBlits which).reg off = d.reg off := by
  have hs : Spared off := .inl hoff
  unfold Dev.abortBlits
  rw [Dev.bltShow_spares hs, Dev.foldl_reg (fun d x => Dev.blitEnd_spares hs d x _ _), Dev.setBlt_reg, Dev.ite_reg,
    Dev.blitAbort_low hoff h, ite_self]

theorem Dev.abortRings_low {d : Dev} (h : d.boot.flush = true) (which : Nat → Bool) : (d.abortRings which).reg off = d.reg off := by
  have hs : Spared off := .inl hoff
  have hflush : ((d.abortFlips which).abortTrunkSets which).boot.flush = true := by
    rw [(Dev.abortTrunkSets_keeps (Dev.abortFlips_keeps (Dev.Keeps.refl d) which) which).boot, h]
  unfold Dev.abortRings
  rw [Dev.abortSlow_spares hs, Dev.abortLines_spares hs, Dev.abortScans_spares hs, Dev.abortBlits_low hoff hflush,
    Dev.abortTrunkSets_spares hs, Dev.abortFlips_spares hs]

/-- Nothing in a flush phase writes a register of GLB, WBL or SDP. -/
theorem Dev.startFlush_low (d : Dev) (k : ResetKind) : (d.startFlush k).reg off = d.reg off := by
  have hs : Spared off := .inl hoff
  unfold Dev.startFlush
  rw [Dev.abandonAll_spares hs, Dev.twnSettle_spares hs, Dev.coachSettle_spares hs, Dev.lodgerLeave_spares hs, Dev.twnPart_spares hs,
    Dev.flushWaits_spares hs, Dev.flushSets_spares hs, Dev.abortRings_low hoff rfl]
  exact d.abandonFlash_reg off

end Low

/-- A flush phase begins, and what it ends does not end it. -/
theorem Dev.startFlush_boot (d : Dev) (k : ResetKind) : (d.startFlush k).boot.flush = true ∧ (d.startFlush k).boot.inReset = some k := by
  have hboot : (d.startFlush k).boot = { d.abandonFlash.boot with inReset := some k, flush := true, load := none, copy := [] } := by
    unfold Dev.startFlush
    exact (Dev.abandonAll_keeps (Dev.twnSettle_keeps (Dev.coachSettle_keeps (Dev.lodgerLeave_keeps (Dev.twnPart_keeps
      (Dev.flushWaits_keeps (Dev.flushSets_keeps (Dev.abortRings_keeps (Dev.Keeps.refl _) _) _) _) _) _)))).boot
  rw [hboot]
  exact ⟨rfl, rfl⟩

/-! ### The reset key (R53) -/

theorem blkOf_resetKey : blkOf Reg.GLB_RESET_KEY = some .glb := by decide
theorem rowOf_resetKey : (rowOf Reg.GLB_RESET_KEY).isSome = true := by decide +kernel

theorem exec_resetKeyArm (s : State) : exec .resetKeyArm s =
    .next (s.done (if s.dev.quiet.resetArmed then s.dev.quiet.resetKeyBroken else s.dev.quiet.setReg Reg.GLB_RESET_KEY 0x10000)) :=
  congrArg (fun d => Host.Outcome.next (s.done d)) (Dev.onWrite_glb _ blkOf_resetKey rfl rowOf_resetKey _)

theorem exec_resetKeyConfirm (s : State) (k : BitVec 16) : exec (.resetKeyConfirm k) s =
    .next (s.done (s.dev.quiet.resetKeyConfirm k.toNat)) :=
  congrArg (fun d => Host.Outcome.next (s.done d)) (Dev.onWrite_glb _ blkOf_resetKey rfl rowOf_resetKey _)

theorem Dev.setReg_resetKey_flag (d : Dev) (v : Nat) : (d.setReg Reg.GLB_RESET_KEY v).flag Reg.GLB_RESET_KEY Fld.GLB_RESET_KEY_ARMED =
    (Fld.GLB_RESET_KEY_ARMED.get (v % 2 ^ 32) == 1) := by
  rw [Dev.flag, Dev.fld, Dev.setReg_reg, if_pos rfl]

theorem State.done_flag (s : State) (d : Dev) (a : Nat) (f : Fld) : (s.done d).dev.flag a f = d.flag a f :=
  Dev.flag_congr (s.done_reg d a) f

/-- A broken sequence disarms, and is refused with RESET_SEQUENCE (R53). -/
theorem State.done_resetKeyBroken (s : State) :
    (s.done s.dev.quiet.resetKeyBroken).dev.flag Reg.GLB_RESET_KEY Fld.GLB_RESET_KEY_ARMED = false ∧
      Dev.Refused s.dev (s.done s.dev.quiet.resetKeyBroken).dev Reg.GLB_BLKID 2 ∧
      Dev.OnlyRegs s.dev (s.done s.dev.quiet.resetKeyBroken).dev [Reg.GLB_RESET_KEY, Reg.GLB_REFUSED, Reg.GLB_REFUSED_CNT] := by
  have hframe : Dev.OnlyRegs s.dev (s.dev.quiet.setReg Reg.GLB_RESET_KEY 0) [Reg.GLB_RESET_KEY] :=
    ((Dev.OnlyRegs.refl _ _).setReg (by simp) 0).of_quiet
  refine ⟨?_, s.done_refuse Reg.GLB_BLKID (by decide) hframe (by decide) (by decide)⟩
  rw [State.done_flag, Dev.resetKeyBroken, Dev.flag_congr (Dev.refuse_reg_other _ _ (by decide) (by decide)), Dev.setReg_resetKey_flag]
  rfl

/-- 0x9595 while armed starts the reset (R53, R455, R456). -/
theorem Dev.resetKeyConfirm_armed {d : Dev} (harm : d.resetArmed = true) (hkind : d.resetKind .software = .software) :
    d.resetKeyConfirm 0x9595 = (d.setReg Reg.GLB_RESET_KEY 0).startFlush .software := by
  have hkey (k : Nat) (hk : k ≠ Reg.GLB_RESET_KEY) : (d.setReg Reg.GLB_RESET_KEY 0).reg k = d.reg k := d.setReg_reg_other 0 hk
  have hsame : (d.setReg Reg.GLB_RESET_KEY 0).resetKind .software = d.resetKind .software := by
    have hspll (i : Nat) : Reg.CKG_SPLL_STATUS i ≠ Reg.GLB_RESET_KEY := by
      simp only [Reg.CKG_SPLL_STATUS, Reg.GLB_RESET_KEY]
      omega
    have hpll : (d.setReg Reg.GLB_RESET_KEY 0).pllFailed = d.pllFailed := by
      simp only [Dev.pllFailed, hkey _ (hspll _)]
    have hbridge : (d.setReg Reg.GLB_RESET_KEY 0).bridgeIsDown = d.bridgeIsDown := Dev.flag_congr (hkey _ (by decide)) _
    simp only [Dev.resetKind, hpll, hbridge, Dev.setReg_boot]
  have hstart : (d.setReg Reg.GLB_RESET_KEY 0).startReset .software = (d.setReg Reg.GLB_RESET_KEY 0).startFlush .software := by
    rw [Dev.startReset, hsame, hkind]
    rfl
  rw [← hstart]
  simp [Dev.resetKeyConfirm, harm]

/-- Settles O9: the key is GLB's, which always answers, and the flush phase that a reset begins leaves the registers of GLB alone. -/
theorem resetKeySequence : Obligations.ResetKeySequence := by
  unfold Obligations.ResetKeySequence
  intro s
  refine ⟨fun hidle => ?_, fun harmed => ⟨fun c hc => ?_, fun hkind => ?_⟩⟩
  · have hnot : s.dev.quiet.resetArmed = false := hidle
    refine ⟨⟨_, exec_resetKeyArm s, ?_⟩, ⟨_, exec_resetKeyConfirm s _, ?_⟩, ⟨s.done s.dev.quiet, ?_, s.done_quiet_onlyRegs⟩⟩
    · rw [hnot, if_neg Bool.false_ne_true, State.done_flag, Dev.setReg_resetKey_flag]
      exact ⟨rfl, (((Dev.OnlyRegs.refl _ _).setReg (by simp) _).of_quiet).done s⟩
    · have hrefuse : s.dev.quiet.resetKeyConfirm (0x9595 : BitVec 16).toNat = s.dev.quiet.refuse Reg.GLB_BLKID glbResetSequence := by
        simp [Dev.resetKeyConfirm, hnot]
      rw [hrefuse]
      exact s.done_refuse (e := s.dev.quiet) Reg.GLB_BLKID (by decide) (Dev.OnlyRegs.refl _ _).of_quiet List.not_mem_nil List.not_mem_nil
    · show Host.Outcome.next (s.done (if s.dev.quiet.resetArmed then s.dev.quiet.resetKeyBroken else s.dev.quiet)) = _
      rw [hnot, if_neg Bool.false_ne_true]
  · have harm : s.dev.quiet.resetArmed = true := harmed
    refine ⟨s.done s.dev.quiet.resetKeyBroken, ?_, s.done_resetKeyBroken⟩
    rcases hc with rfl | rfl | ⟨k, hk, rfl⟩
    · rw [exec_resetKeyArm, if_pos harm]
    · show Host.Outcome.next (s.done (if s.dev.quiet.resetArmed then s.dev.quiet.resetKeyBroken else s.dev.quiet)) = _
      rw [if_pos harm]
    · have hk' : k.toNat ≠ 0x9595 := fun hc => hk (BitVec.eq_of_toNat_eq hc)
      rw [exec_resetKeyConfirm]
      simp [Dev.resetKeyConfirm, harm, hk']
  · refine ⟨_, exec_resetKeyConfirm s _, ?_⟩
    have hstart : s.dev.quiet.resetKeyConfirm (0x9595 : BitVec 16).toNat =
        (s.dev.quiet.setReg Reg.GLB_RESET_KEY 0).startFlush .software := Dev.resetKeyConfirm_armed harmed hkind
    rw [hstart, State.done_flag, Dev.flag_congr (Dev.startFlush_low (by decide) _ _), Dev.setReg_resetKey_flag, State.done_dev,
      Dev.extest_boot, Dev.latchFault_boot]
    exact ⟨rfl, Dev.startFlush_boot _ _⟩

end Sys2Proof.Machine

/-! SUPPORT. Accesses that the fabric ends, the transfers of the bridge, and the obligation about them (R14 to R16, R39, R40). -/

namespace Sys2Proof.Machine

/-! ### Frames with a source raised -/

/-- Raising a source is within the Bellboard. -/
theorem Dev.OnlyRegs.raise {e d : Dev} {offs : List Nat} (h : Dev.OnlyRegs e d offs) (n : Nat) : Dev.OnlyBell e (d.raise n) offs := by
  refine ⟨fun o ho => ?_, ?_⟩
  · rw [List.mem_cons, not_or] at ho
    rw [Dev.raise_reg_other _ _ ho.1, h.regs o ho.2]
  · rw [Dev.raise, Dev.message_eq]
    exact congrArg (fun x : Dev => { x with bel := e.bel }) h.rest

theorem Dev.OnlyBell.emit {e d : Dev} {offs : List Nat} (h : Dev.OnlyBell e d offs) (o : Out) : Dev.OnlyBell e (d.emit o) offs :=
  ⟨h.regs, h.rest⟩

theorem Dev.OnlyBell.done {e d : Dev} {offs : List Nat} (h : Dev.OnlyBell e d offs) (s : State) : Dev.OnlyBell e (s.done d).dev offs := by
  refine ⟨fun o ho => ?_, ?_⟩
  · rw [State.done_reg, h.regs o ho]
  · rw [State.done_dev, Dev.extest_eq]
    exact h.rest

theorem Dev.OnlyBell.of_quiet {e d : Dev} {offs : List Nat} (h : Dev.OnlyBell e.quiet d offs) : Dev.OnlyBell e d offs :=
  ⟨h.regs, congrArg (fun x : Dev => { x with out := e.out }) h.rest⟩

theorem State.done_bel (s : State) (d : Dev) : (s.done d).dev.bel = d.bel := by simp

/-- What raising a source does to the Bellboard rests on the Bellboard, the waybill, the power state and the time. -/
theorem Dev.raise_bel_congr {d e : Dev} (hbel : d.bel = e.bel) (hwb : d.wb = e.wb) (hpower : d.sdp.power = e.sdp.power) (hnow : d.now = e.now)
    (n : Nat) : (d.raise n).bel = (e.raise n).bel := by
  have hrun : d.belRunning = e.belRunning := by simp only [Dev.belRunning, Dev.loaded, hwb, hpower]
  unfold Dev.raise Dev.message
  rw [hrun]
  cases e.belRunning with
  | false => exact hbel
  | true =>
    cases hlevel : isLevel n <;>
    · simp only [Bool.not_true, Bool.false_eq_true, if_false, if_true, Dev.routeOf, hwb]
      generalize (ite (0x8000 ≤ n) _ _ : Option Nat) = route
      cases route <;> simp [Dev.setBelClass, Dev.pendBy, Dev.belPending, Dev.belClass, hbel, hnow]

theorem Dev.OnlyRegs.raise_bel {e d : Dev} {offs : List Nat} (h : Dev.OnlyRegs e d offs) (n : Nat) : (d.raise n).bel = (e.raise n).bel := by
  have hbel : d.bel = e.bel := (congrArg Dev.bel h.rest :)
  have hwb : d.wb = e.wb := (congrArg Dev.wb h.rest :)
  have hpower : d.sdp.power = e.sdp.power := (congrArg (fun x : Dev => x.sdp.power) h.rest :)
  have hnow : d.now = e.now := (congrArg Dev.now h.rest :)
  exact Dev.raise_bel_congr hbel hwb hpower hnow n

/-! ### Accesses that GLB logs (Tables 2.12, 2.13) -/

/-- Three registers of a log are distinct. -/
theorem Dev.logAccess_onlyRegs (d : Dev) (flagReg addrReg cntReg off : Nat) (write : Bool) :
    Dev.OnlyRegs d (d.logAccess flagReg addrReg cntReg off write) [flagReg, addrReg, cntReg] := by
  have h := Dev.OnlyRegs.refl d [flagReg, addrReg, cntReg]
  unfold Dev.logAccess Dev.count Dev.countBy
  dsimp only
  split
  · exact (h.setReg (by simp) _).setReg (by simp) _
  · exact ((h.setReg (by simp) _).setReg (by simp) _).setReg (by simp) _

theorem Dev.logAccess_out (d : Dev) (flagReg addrReg cntReg off : Nat) (write : Bool) :
    (d.logAccess flagReg addrReg cntReg off write).out = d.out := by
  unfold Dev.logAccess
  dsimp only
  rw [Dev.count_out]
  split <;> rfl

theorem Dev.logAccess_cnt (d : Dev) {flagReg addrReg cntReg : Nat} (hf : cntReg ≠ flagReg) (ha : cntReg ≠ addrReg) (off : Nat) (write : Bool) :
    (d.logAccess flagReg addrReg cntReg off write).reg cntReg = min (d.reg cntReg + 1) 0xFFFFFFFF := by
  unfold Dev.logAccess
  dsimp only
  rw [Dev.count_reg, if_pos rfl]
  split
  · rw [Dev.setReg_reg_other _ _ hf]
  · rw [Dev.setReg_reg_other _ _ ha, Dev.setReg_reg_other _ _ hf]

theorem Dev.logAccess_flag (d : Dev) {flagReg addrReg cntReg : Nat} (ha : flagReg ≠ addrReg) (hc : flagReg ≠ cntReg) (off : Nat) (write : Bool) :
    bit ((d.logAccess flagReg addrReg cntReg off write).reg flagReg) 0 = true := by
  unfold Dev.logAccess
  dsimp only
  rw [Dev.count_reg_other _ hc]
  split
  · next hset =>
    have hlt : d.reg flagReg ||| 2 < 2 ^ 32 := Nat.or_lt_two_pow (d.reg_lt _) (by decide)
    rw [Dev.setReg_reg, if_pos rfl, Nat.mod_eq_of_lt hlt, bit_or, hset, Bool.true_or]
  · rw [Dev.setReg_reg_other _ _ ha, Dev.setReg_reg, if_pos rfl]
    cases write <;> decide

/-- An access that its block did not answer is logged, counted and raised (R39). -/
theorem Dev.farError_spec (d : Dev) (off : Nat) (write : Bool) :
    (d.farError off write).reg Reg.GLB_ERR_FAR_CNT = min (d.reg Reg.GLB_ERR_FAR_CNT + 1) 0xFFFFFFFF ∧
      bit ((d.farError off write).reg Reg.GLB_ERR_FAR) 0 = true ∧ (d.farError off write).bel = (d.raise 0x46D9).bel ∧
      Dev.OnlyBell d (d.farError off write) [Reg.GLB_ERR_FAR, Reg.GLB_ERR_FAR_ADDR, Reg.GLB_ERR_FAR_CNT] := by
  have hframe := d.logAccess_onlyRegs Reg.GLB_ERR_FAR Reg.GLB_ERR_FAR_ADDR Reg.GLB_ERR_FAR_CNT off write
  refine ⟨?_, ?_, ?_, hframe.raise _⟩
  · rw [Dev.farError, Dev.raise_reg_other _ _ (by decide), Dev.logAccess_cnt _ (by decide) (by decide)]
  · rw [Dev.farError, Dev.raise_reg_other _ _ (by decide), Dev.logAccess_flag _ (by decide) (by decide)]
  · exact hframe.raise_bel _

theorem Dev.farError_out (d : Dev) (off : Nat) (write : Bool) : (d.farError off write).out = d.out := by
  rw [Dev.farError, Dev.raise_out, Dev.logAccess_out]

theorem exec_farAccessTimeout (s : State) (off : Nat) (w : Bool) : exec (.farAccessTimeout off w) s = .next (s.done
    (match s.dev.quiet.access off with
      | .fallback => if w then s.dev.quiet else s.dev.quiet.emit (.completion 0)
      | .unmapped => if w then s.dev.quiet.busError off else s.dev.quiet.emit .unsupported
      | _ => if w then s.dev.quiet.farError off true else (s.dev.quiet.farError off false).emit (.completion 0))) := rfl

/-- An access that the fabric ends after 4 µs (R39). -/
theorem exec_farAccessTimeout_far {s : State} {off : Nat} (h : (∃ k, s.dev.access off = .normal k) ∨ s.dev.access off = .far) (w : Bool) :
    exec (.farAccessTimeout off w) s =
      .next (s.done (if w then s.dev.quiet.farError off true else (s.dev.quiet.farError off false).emit (.completion 0))) := by
  have h : (∃ k, s.dev.quiet.access off = .normal k) ∨ s.dev.quiet.access off = .far := h
  rw [exec_farAccessTimeout]
  rcases h with ⟨k, h⟩ | h <;> rw [h]

theorem farAccessTimeout_spec {s : State} (htap : s.dev.tap ≠ .extest) {off : Nat}
    (h : (∃ k, s.dev.access off = .normal k) ∨ s.dev.access off = .far) (w : Bool) :
    ∃ t, exec (.farAccessTimeout off w) s = .next t ∧ t.dev.out = (if w then [] else [.completion 0]) ∧
      t.dev.reg Reg.GLB_ERR_FAR_CNT = min (s.dev.reg Reg.GLB_ERR_FAR_CNT + 1) 0xFFFFFFFF ∧
      bit (t.dev.reg Reg.GLB_ERR_FAR) 0 = true ∧ t.dev.bel = (s.dev.raise 0x46D9).bel ∧
      Dev.OnlyBell s.dev t.dev [Reg.GLB_ERR_FAR, Reg.GLB_ERR_FAR_ADDR, Reg.GLB_ERR_FAR_CNT] := by
  obtain ⟨hcnt, hflag, hbel, hframe⟩ := s.dev.quiet.farError_spec off w
  have hraise : (s.dev.quiet.raise 0x46D9).bel = (s.dev.raise 0x46D9).bel := Dev.raise_bel_congr (d := s.dev.quiet) (e := s.dev) rfl rfl rfl rfl _
  have hout : (s.dev.quiet.farError off w).out = [] := Dev.farError_out _ _ _
  have htap' : (s.dev.quiet.farError off w).tap = s.dev.tap := (congrArg Dev.tap hframe.rest :)
  cases w with
  | true =>
    refine ⟨s.done (s.dev.quiet.farError off true), exec_farAccessTimeout_far h true, State.done_out_nil hout s, ?_, ?_, ?_,
      hframe.of_quiet.done s⟩
    · rw [State.done_reg, hcnt]
      rfl
    · rw [State.done_reg, hflag]
    · rw [State.done_bel, hbel, hraise]
  | false =>
    refine ⟨s.done ((s.dev.quiet.farError off false).emit (.completion 0)), exec_farAccessTimeout_far h false, ?_, ?_, ?_, ?_,
      (hframe.emit _).of_quiet.done s⟩
    · have hemit : ((s.dev.quiet.farError off false).emit (.completion 0)).out = [.completion 0] := congrArg (· ++ [Out.completion 0]) hout
      rw [State.done_out (by rwa [Dev.emit_tap, htap']), hemit]
      rfl
    · rw [State.done_reg, Dev.emit_reg, hcnt]
      rfl
    · rw [State.done_reg, Dev.emit_reg, hflag]
    · rw [State.done_bel, Dev.emit_bel, hbel, hraise]

/-- GLB answers a read of `GLB_FLUSH` (R40). -/
theorem exec_glbFlush (s : State) : exec .glbFlush s = .next (s.done (s.dev.quiet.emit (.completion 0))) := by
  have hrow : (rowOf Reg.GLB_FLUSH).isSome = true := by decide +kernel
  have haccess : s.dev.quiet.access Reg.GLB_FLUSH = .normal Reg.GLB_FLUSH := Dev.access_always (b := .glb) (by decide) (.inl rfl) rfl hrow
  show Host.Outcome.next (s.done (s.dev.quiet.onRead Reg.GLB_FLUSH fun d => (0, d))) = _
  rw [Dev.onRead, haccess]
  rfl

/-! ### The bridge (R14 to R16) -/

section Transfers
variable (d : Dev) (x : Nat)

@[simp] theorem Dev.setTransferFails_same (n : Nat) : (d.setTransferFails x n).transferFails x = n := Tab.get_set_same _ _ _

theorem Dev.setTransferFails_reg (n k : Nat) : (d.setTransferFails x n).reg k = d.reg k := rfl

theorem Dev.setTransferFails_other (n : Nat) {y : Nat} (h : y ≠ x) : (d.setTransferFails x n).transferFails y = d.transferFails y :=
  Tab.get_set_other _ _ h

end Transfers

theorem State.done_bridgeFails (s : State) (d : Dev) : (s.done d).dev.bridgeFails = d.bridgeFails := by simp

theorem State.done_transferFails (s : State) (d : Dev) (x : Nat) : (s.done d).dev.transferFails x = d.transferFails x :=
  congrArg (fun t : Tab Nat => t.get (fun _ => 0) x) (s.done_bridgeFails d)

theorem Dev.OnlyRegs.setTransferFails {e d : Dev} {offs : List Nat} (h : Dev.OnlyRegs e d offs) (x n : Nat) :
    Dev.OnlyRegs { e with bridgeFails := (d.setTransferFails x n).bridgeFails } (d.setTransferFails x n) offs :=
  ⟨h.regs, congrArg (fun y : Dev => { y with bridgeFails := (d.setTransferFails x n).bridgeFails }) h.rest⟩

theorem State.done_transfers {s : State} {d : Dev} {offs : List Nat} (h : Dev.OnlyRegs { s.dev with bridgeFails := d.bridgeFails } d offs) :
    Dev.OnlyRegs { s.dev with bridgeFails := (s.done d).dev.bridgeFails } (s.done d).dev offs := by
  rw [State.done_bridgeFails]
  exact h.done s

/-- The failure that takes the bridge down shows in `DEP_STATUS` once all that the bridge carried has settled (R16). -/
theorem Dev.bridgeFails16_down {d : Dev} {x : Nat} (hup : d.bridgeIsDown = false) (h : 15 ≤ d.transferFails x) :
    (d.bridgeFails16 x).bridgeIsDown = true := by
  have hs : Spared Reg.DEP_STATUS := .inr rfl
  have hnot : ¬ (decide (d.transferFails x < 15) || d.bridgeIsDown) = true := by simp [hup]; omega
  have hreg : (d.bridgeFails16 x).reg Reg.DEP_STATUS = (d.setFlag Reg.DEP_STATUS Fld.DEP_STATUS_BRIDGE_DOWN).reg Reg.DEP_STATUS := by
    rw [Dev.bridgeFails16, if_neg hnot, Dev.twnSettle_spares hs, Dev.coachSettle_spares hs, Dev.abandonAll_spares hs, Dev.bridgeDown,
      Dev.raise_spares hs, Dev.depLog_spares hs]
  rw [Dev.bridgeIsDown, Dev.flag_congr hreg]
  exact d.setFlag_flag_same Reg.DEP_STATUS (f := Fld.DEP_STATUS_BRIDGE_DOWN) (by decide) (by decide)

theorem State.done_faultLow (s : State) (d : Dev) : (s.done d).dev.faultLow = d.faultLow := by
  rw [State.done_dev]
  exact Dev.faultLow_congr (by simp) (by rw [Dev.extest_sdp]; rfl)

/-- A command of the bridge whose effect is that of a transfer failing its check for the sixteenth time. -/
theorem bridge_goes_down {s : State} {c : Instr} {x : Nat} (hc : exec c s = .next (s.done (s.dev.quiet.bridgeFails16 x)))
    (hup : s.dev.bridgeIsDown = false) (h : 15 ≤ s.dev.transferFails x) : ∃ t, exec c s = .next t ∧
      t.dev.flag Reg.DEP_STATUS Fld.DEP_STATUS_BRIDGE_DOWN = true ∧ t.dev.faultLow = true := by
  have hdown : (s.dev.quiet.bridgeFails16 x).bridgeIsDown = true := Dev.bridgeFails16_down hup h
  refine ⟨_, hc, ?_, ?_⟩
  · rw [State.done_flag]
    exact hdown
  · rw [State.done_faultLow, Dev.faultLow, hdown]
    rfl

theorem exec_bridgeTransfer (s : State) (x : Nat) : exec (.bridgeTransfer x) s =
    .next (s.done (if s.dev.quiet.bridgeIsDown then s.dev.quiet else s.dev.quiet.setTransferFails x 0)) := rfl

theorem exec_bridgeReplay (s : State) (x : Nat) : exec (.bridgeReplay x) s = .next (s.done (s.dev.quiet.bridgeReplay x)) := rfl

theorem exec_bridgeDown (s : State) (x : Nat) : exec (.bridgeDown x) s = .next (s.done (s.dev.quiet.bridgeFails16 x)) := rfl

theorem exec_bridgeReplay_of_fails {s : State} {x : Nat} (hup : s.dev.bridgeIsDown = false) (h : 15 ≤ s.dev.transferFails x) :
    exec (.bridgeReplay x) s = .next (s.done (s.dev.quiet.bridgeFails16 x)) := by
  have hup : s.dev.quiet.bridgeIsDown = false := hup
  have h : 15 ≤ s.dev.quiet.transferFails x := h
  rw [exec_bridgeReplay, Dev.bridgeReplay, hup, if_neg Bool.false_ne_true, if_pos h]

/-- A command that leaves the device as it is. -/
theorem State.unmoved {s : State} {c : Instr} {d : Dev} (hc : exec c s = .next (s.done d)) (h : d = s.dev.quiet) :
    ∃ t, exec c s = .next t ∧ Dev.OnlyRegs s.dev t.dev [] :=
  ⟨_, hc, h ▸ s.done_quiet_onlyRegs⟩

/-- Nothing crosses a bridge that is down (R16). -/
theorem bridge_is_closed {s : State} (hdown : s.dev.bridgeIsDown = true) (x : Nat) :
    ∀ c ∈ [Instr.bridgeTransfer x, .bridgeReplay x, .bridgeDown x], ∃ t, exec c s = .next t ∧ Dev.OnlyRegs s.dev t.dev [] := by
  have hdown : s.dev.quiet.bridgeIsDown = true := hdown
  simp only [List.forall_mem_cons, List.not_mem_nil, false_implies, implies_true, and_true]
  refine ⟨State.unmoved (exec_bridgeTransfer s x) (if_pos hdown), State.unmoved (exec_bridgeReplay s x) (if_pos hdown),
    State.unmoved (exec_bridgeDown s x) (if_pos ?_)⟩
  rw [hdown, Bool.or_true]

/-- A transfer that arrives ends its own run of failures (R14). -/
theorem bridgeTransfer_spec {s : State} (hup : s.dev.bridgeIsDown = false) (x : Nat) :
    ∃ t, exec (.bridgeTransfer x) s = .next t ∧ t.dev.transferFails x = 0 ∧
      (∀ y, y ≠ x → t.dev.transferFails y = s.dev.transferFails y) ∧
      Dev.OnlyRegs { s.dev with bridgeFails := t.dev.bridgeFails } t.dev [] := by
  have hup : s.dev.quiet.bridgeIsDown = false := hup
  refine ⟨s.done (s.dev.quiet.setTransferFails x 0), ?_, ?_, ?_, ?_⟩
  · rw [exec_bridgeTransfer, hup, if_neg Bool.false_ne_true]
  · rw [State.done_transferFails, Dev.setTransferFails_same]
  · intro y hy
    rw [State.done_transferFails, Dev.setTransferFails_other _ _ _ hy]
    rfl
  · have hframe : Dev.OnlyRegs s.dev s.dev.quiet [] := (Dev.OnlyRegs.refl _ _).of_quiet
    exact State.done_transfers (hframe.setTransferFails x 0)

/-- A replay counts, and lengthens the run of failures of its transfer (R15, R16). -/
theorem bridgeReplay_spec {s : State} {x : Nat} (hup : s.dev.bridgeIsDown = false) (h : s.dev.transferFails x < 15) :
    ∃ t, exec (.bridgeReplay x) s = .next t ∧ t.dev.transferFails x = s.dev.transferFails x + 1 ∧
      (∀ y, y ≠ x → t.dev.transferFails y = s.dev.transferFails y) ∧
      t.dev.reg Reg.DEP_BRIDGE_REPLAY = min (s.dev.reg Reg.DEP_BRIDGE_REPLAY + 1) 0xFFFFFFFF ∧
      Dev.OnlyRegs { s.dev with bridgeFails := t.dev.bridgeFails } t.dev [Reg.DEP_BRIDGE_REPLAY] := by
  have hreplay : s.dev.quiet.bridgeReplay x =
      (s.dev.quiet.count Reg.DEP_BRIDGE_REPLAY).setTransferFails x (s.dev.transferFails x + 1) := by
    have hup : s.dev.quiet.bridgeIsDown = false := hup
    have hfew : ¬ 15 ≤ s.dev.quiet.transferFails x := Nat.not_le.mpr h
    rw [Dev.bridgeReplay, hup, if_neg Bool.false_ne_true, if_neg hfew]
    rfl
  rw [exec_bridgeReplay, hreplay]
  refine ⟨_, rfl, ?_, fun y hy => ?_, ?_, ?_⟩
  · rw [State.done_transferFails, Dev.setTransferFails_same]
  · rw [State.done_transferFails, Dev.setTransferFails_other _ _ _ hy]
    rfl
  · rw [State.done_reg, Dev.setTransferFails_reg, Dev.count_reg, if_pos rfl, Dev.quiet_reg]
  · have hcount : Dev.OnlyRegs s.dev (s.dev.quiet.count Reg.DEP_BRIDGE_REPLAY) [Reg.DEP_BRIDGE_REPLAY] :=
      ((Dev.OnlyRegs.refl _ _).setReg (by simp) _).of_quiet
    exact State.done_transfers (hcount.setTransferFails x _)

/-- Settles O13: the accesses by the rows of Table 2.6, and the bridge by whether it is down and how often the transfer has failed. -/
theorem farAccessesFlushReadsAndTheBridge : Obligations.FarAccessesFlushReadsAndTheBridge := by
  unfold Obligations.FarAccessesFlushReadsAndTheBridge
  refine ⟨fun s htap => ⟨fun off w h => farAccessTimeout_spec htap h w, fun off w h => ?_, fun off h => ?_,
    State.sends htap (exec_glbFlush s) rfl⟩, fun s => ?_⟩
  · have h : s.dev.quiet.access off = .fallback := h
    cases w with
    | true => exact State.idles (by rw [exec_farAccessTimeout, h]; rfl)
    | false => exact State.sends htap (by rw [exec_farAccessTimeout, h]; rfl) rfl
  · have h : s.dev.quiet.access off = .unmapped := h
    exact State.sends htap (by rw [exec_farAccessTimeout, h]; rfl) rfl
  · intro down x
    refine ⟨fun hdown => bridge_is_closed hdown x, fun hup => ⟨bridgeTransfer_spec hup x, bridgeReplay_spec hup, fun h => ?_,
      fun h => State.unmoved (exec_bridgeDown s x) (if_pos ?_)⟩⟩
    · simp only [List.forall_mem_cons, List.not_mem_nil, false_implies, implies_true, and_true]
      exact ⟨bridge_goes_down (exec_bridgeReplay_of_fails hup h) hup h, bridge_goes_down (exec_bridgeDown s x) hup h⟩
    · have hfew : s.dev.quiet.transferFails x < 15 := h
      rw [decide_eq_true hfew, Bool.true_or]

end Sys2Proof.Machine

/-! SUPPORT. Sensor samples, and the obligation about their thresholds (R56, R449). -/

namespace Sys2Proof.Machine

/-! ### What a notice to the twin leaves of SDP -/

section Twin
variable (d : Dev)

@[simp] theorem Dev.ite_sdp {c : Prop} [Decidable c] (a b : Dev) : (if c then a else b).sdp = if c then a.sdp else b.sdp :=
  apply_ite Dev.sdp c a b

@[simp] theorem Dev.freshNat_sdp : d.freshNat.2.sdp = d.sdp := rfl
@[simp] theorem Dev.freshBytes_sdp (n : Nat) : (d.freshBytes n).2.sdp = d.sdp := rfl
@[simp] theorem Dev.freshBool_sdp : d.freshBool.2.sdp = d.sdp := rfl
@[simp] theorem Dev.laneQueue_sdp (p n : Nat) : (d.laneQueue p n).sdp = d.sdp := rfl

@[simp] theorem Dev.tlyAppend_sdp (link type_ origin seq : Nat) (payload : List Byte) :
    (d.tlyAppend link type_ origin seq payload).2.sdp = d.sdp := by
  unfold Dev.tlyAppend
  split <;> rfl

@[simp] theorem Dev.tlyAppendTold_sdp (link : Nat) : (d.tlyAppendTold link).sdp = d.sdp := by
  unfold Dev.tlyAppendTold
  split <;> rfl

@[simp] theorem Dev.leastLane_sdp : d.leastLane.2.sdp = d.sdp := by
  unfold Dev.leastLane
  dsimp only
  split <;> rfl

@[simp] theorem Dev.sendLevels_sdp (p : Nat) (ws : List (List Nat)) : (d.sendLevels p ws).sdp = d.sdp :=
  List.foldlRecOn (motive := fun e : Dev => e.sdp = d.sdp) ws _ rfl fun _ he _ _ => he

@[simp] theorem Dev.idleRun_sdp (idle : Nat → Nat → List Byte) (n : Nat) : (d.idleRun idle n).2.sdp = d.sdp := by
  induction n with
  | zero => rfl
  | succ n ih => exact ih

@[simp] theorem Dev.lanePause_sdp (p : Nat) (idle : Nat → Nat → List Byte) (l : Lane) : (d.lanePause p idle l).2.sdp = d.sdp := by
  simp [Dev.lanePause]

@[simp] theorem Dev.linkBytes_sdp (p : Nat) (idle : Nat → Nat → List Byte) (x : LinkCodes) (bs : List Byte) :
    (d.linkBytes p idle x bs).2.sdp = d.sdp := by
  unfold Dev.linkBytes
  dsimp only
  split <;> simp

@[simp] theorem Dev.twnCodes_sdp (p : Nat) (bs : List Byte) : (d.twnCodes p bs).sdp = d.sdp := by
  simp [Dev.twnCodes]

@[simp] theorem Dev.twnEmit_sdp (session : List Byte) (seq : Nat) (msg : TwinMsg) : (d.twnEmit session seq msg).sdp = d.sdp := by
  unfold Dev.twnEmit
  dsimp only
  repeat' split
  all_goals simp

@[simp] theorem Dev.twnPart_sdp (cause : Nat) : (d.twnPart cause).sdp = d.sdp := by
  unfold Dev.twnPart Dev.twnSend Dev.twnSendMsg
  dsimp only
  repeat' split
  all_goals simp

end Twin

/-! ### A run of registers written -/

theorem Dev.setRegs_reg_same (d : Dev) (a : Nat) {vs : List Nat} {i : Nat} (h : i < vs.length) :
    (d.setRegs a vs).reg (a + i * 4) = vs[i] % 2 ^ 32 := by
  induction vs generalizing d a i with
  | nil => exact absurd h (Nat.not_lt_zero i)
  | cons v vs ih =>
    cases i with
    | zero => rw [Dev.setRegs, Dev.setRegs_reg_other _ _ _ (.inl (by omega)), Dev.setReg_reg, if_pos (by omega)]; rfl
    | succ i =>
      have ha : a + (i + 1) * 4 = a + 4 + i * 4 := by omega
      rw [Dev.setRegs, ha, ih _ _ (Nat.lt_of_succ_lt_succ h)]
      rfl

theorem Dev.setRegs_sdp (d : Dev) (a : Nat) (vs : List Nat) : (d.setRegs a vs).sdp = d.sdp := by
  induction vs generalizing d a with
  | nil => rfl
  | cons v vs ih => exact ih _ _

/-! ### Flags of one bit -/

theorem Dev.flag_eq_bit (d : Dev) (a : Nat) {f : Fld} (h : f.lo = f.hi) : d.flag a f = bit (d.reg a) f.lo := by
  simp [Dev.flag, Dev.fld, Fld.get, bits, bit, ← h]

/-- Setting a flag sets its bit and no other. -/
theorem Dev.setFlag_bit (d : Dev) (a : Nat) {f : Fld} (h : f.lo = f.hi) (hi : f.hi < 32) (i : Nat) :
    bit ((d.setFlag a f).reg a) i = (bit (d.reg a) i || i == f.lo) := by
  rw [Dev.setFlag, Dev.setFld_reg_same _ _ _ _ h.le hi, bit_eq_testBit, bit_eq_testBit, Fld.put_testBit _ _ _ _ h.le]
  by_cases hb : i = f.lo
  · subst hb
    simp [h]
  · have hout : ¬ (f.lo ≤ i ∧ i ≤ f.hi) := by omega
    simp [hout, hb]

/-! ### What the comparisons of a sample keep -/

/-- What the steps of a sensor sample after its readings keep of a device, `n` of them crossings of a trip threshold: event flags, wake
latches and ALERT bits stay set, `SDP_TRIP_CNT` counts, and no other register of GLB, WBL or SDP changes (R449). -/
structure Dev.Heated (n : Nat) (e d : Dev) : Prop where
  regs : ∀ k < 0x30000, k ∉ [Reg.SDP_EVENT, Reg.SDP_WAKE_STATUS, Reg.SDP_TRIP_CNT] → d.reg k = e.reg k
  event : ∀ i, bit (e.reg Reg.SDP_EVENT) i = true → bit (d.reg Reg.SDP_EVENT) i = true
  latch : ∀ i, bit (e.reg Reg.SDP_WAKE_STATUS) i = true → bit (d.reg Reg.SDP_WAKE_STATUS) i = true
  trips : d.reg Reg.SDP_TRIP_CNT = min (e.reg Reg.SDP_TRIP_CNT + n) 0xFFFFFFFF
  alert : ∀ i, bit e.sdp.alert i = true → bit d.sdp.alert i = true
  power : d.sdp.power = e.sdp.power
  request : d.sdp.request = e.sdp.request

theorem Dev.Heated.trans {m n : Nat} {a b c : Dev} (h : Dev.Heated m a b) (k : Dev.Heated n b c) : Dev.Heated (m + n) a c where
  regs o ho hn := (k.regs o ho hn).trans (h.regs o ho hn)
  event i hi := k.event i (h.event i hi)
  latch i hi := k.latch i (h.latch i hi)
  trips := by rw [k.trips, h.trips]; omega
  alert i hi := k.alert i (h.alert i hi)
  power := k.power.trans h.power
  request := k.request.trans h.request

/-- A step that writes no register of GLB, WBL or SDP. -/
theorem Dev.Heated.of_regs {e d : Dev} (hr : ∀ k < 0x30000, d.reg k = e.reg k) (ha : d.sdp.alert = e.sdp.alert)
    (hp : d.sdp.power = e.sdp.power) (hq : d.sdp.request = e.sdp.request) : Dev.Heated 0 e d where
  regs k hk _ := hr k hk
  event i hi := by rwa [hr _ (by decide)]
  latch i hi := by rwa [hr _ (by decide)]
  trips := by
    have hlt := e.reg_lt Reg.SDP_TRIP_CNT
    rw [hr _ (by decide)]
    omega
  alert i hi := by rwa [ha]
  power := hp
  request := hq

theorem Dev.Heated.refl (d : Dev) : Dev.Heated 0 d d := .of_regs (fun _ _ => rfl) rfl rfl rfl

theorem Dev.Heated.raise (d : Dev) (n : Nat) : Dev.Heated 0 d (d.raise n) :=
  .of_regs (fun _ hk => Dev.raise_spares (.inl hk) d n) (by rw [Dev.raise_sdp]) (by rw [Dev.raise_sdp]) (by rw [Dev.raise_sdp])

theorem Dev.Heated.sdpEvent (d : Dev) {f : Fld} (h : f.lo = f.hi) (hi : f.hi < 32) : Dev.Heated 0 d (d.sdpEvent f) where
  regs k _ hn := by
    have hne : k ≠ Reg.SDP_EVENT := fun hc => hn (hc ▸ List.mem_cons_self)
    exact Dev.setFlag_reg_other d f hne
  event i hb := by rw [Dev.sdpEvent, Dev.setFlag_bit d _ h hi, hb, Bool.true_or]
  latch i hb := by rwa [Dev.sdpEvent, Dev.setFlag_reg_other d f (by decide)]
  trips := by
    have hlt := d.reg_lt Reg.SDP_TRIP_CNT
    rw [Dev.sdpEvent, Dev.setFlag_reg_other d f (by decide)]
    omega
  alert _ hb := hb
  power := rfl
  request := rfl

/-- A latch that is not set is set as a flag of its bit. -/
theorem Dev.setReg_latch_eq {d : Dev} {i : Nat} (h : bit (d.reg Reg.SDP_WAKE_STATUS) i = false) :
    d.setReg Reg.SDP_WAKE_STATUS (d.reg Reg.SDP_WAKE_STATUS + 2 ^ i) = d.setFlag Reg.SDP_WAKE_STATUS ⟨i, i⟩ := by
  have hget : Fld.get ⟨i, i⟩ (d.reg Reg.SDP_WAKE_STATUS) = 0 := by
    have hmod := Nat.mod_two_eq_zero_or_one (d.reg Reg.SDP_WAKE_STATUS / 2 ^ i)
    simp only [bit, beq_eq_false_iff_ne] at h
    simpa [Fld.get, bits] using hmod.resolve_right h
  rw [Dev.setFlag, Dev.setFld, Fld.put, hget]
  simp

theorem Dev.Heated.setFlag_latch (d : Dev) {i : Nat} (hi : i < 32) : Dev.Heated 0 d (d.setFlag Reg.SDP_WAKE_STATUS ⟨i, i⟩) where
  regs k _ hn := by
    have hne : k ≠ Reg.SDP_WAKE_STATUS := fun hc => hn (by simp [hc])
    exact Dev.setFlag_reg_other d _ hne
  event i hb := by rwa [Dev.setFlag_reg_other d _ (by decide)]
  latch i hb := by rw [Dev.setFlag_bit d _ rfl hi, hb, Bool.true_or]
  trips := by
    have hlt := d.reg_lt Reg.SDP_TRIP_CNT
    rw [Dev.setFlag_reg_other d _ (by decide)]
    omega
  alert _ hb := hb
  power := rfl
  request := rfl

/-- A latch tells its source, or is held for the host in Rest (R444). -/
def Dev.latchTold (d : Dev) (i : Nat) : Dev :=
  if d.sdp.power == 3 then { d with sdp := { d.sdp with restLatches := d.sdp.restLatches ++ [i] } } else d.raise (0x46C0 + i)

/-- A latch that is enabled wakes the device from Doze or Rest (R444). -/
def Dev.latchWakes (d : Dev) (i : Nat) : Dev :=
  if 2 ≤ d.sdp.power && bit (d.reg Reg.SDP_WAKE_EN) i then
    { d.sdpEvent Fld.SDP_EVENT_WAKE with sdp := { d.sdp with waking := true } }
  else d

theorem Dev.Heated.latchTold (d : Dev) (i : Nat) : Dev.Heated 0 d (d.latchTold i) := by
  unfold Dev.latchTold
  split
  · exact .of_regs (fun _ _ => rfl) rfl rfl rfl
  · exact .raise d _

theorem Dev.Heated.latchWakes (d : Dev) (i : Nat) : Dev.Heated 0 d (d.latchWakes i) := by
  unfold Dev.latchWakes
  split
  · have hevent := Dev.Heated.sdpEvent d (f := Fld.SDP_EVENT_WAKE) rfl (by decide)
    exact hevent.trans (n := 0) (.of_regs (fun _ _ => rfl) rfl rfl rfl)
  · exact .refl d

/-- An ALERT bit is set. -/
def Dev.withAlert (d : Dev) (a : Nat) : Dev := { d with sdp := { d.sdp with alert := d.sdp.alert ||| 2 ^ a } }

theorem Dev.Heated.withAlert (d : Dev) (a : Nat) : Dev.Heated 0 d (d.withAlert a) :=
  { Dev.Heated.refl d with alert := fun i hi => by rw [Dev.withAlert, bit_or, hi, Bool.true_or] }

/-- A trip holds `FAULT_N` low. -/
def Dev.withHold (d : Dev) : Dev := { d with sdp := { d.sdp with tripHold := true } }

theorem Dev.Heated.withHold (d : Dev) : Dev.Heated 0 d d.withHold := .of_regs (fun _ _ => rfl) rfl rfl rfl

theorem Dev.Heated.countTrip (d : Dev) : Dev.Heated 1 d (d.count Reg.SDP_TRIP_CNT) where
  regs k _ hn := Dev.count_reg_other _ fun hc => hn (by simp [hc])
  event i hb := by rwa [Dev.count_reg_other _ (by decide)]
  latch i hb := by rwa [Dev.count_reg_other _ (by decide)]
  trips := by rw [Dev.count_reg, if_pos rfl]
  alert _ hb := hb
  power := rfl
  request := rfl

/-- Setting a wake latch: it is set, and what a sample has set stays. -/
theorem Dev.Heated.setLatch (d : Dev) {i : Nat} (hi : i < 11) :
    Dev.Heated 0 d (d.setLatch i) ∧ bit ((d.setLatch i).reg Reg.SDP_WAKE_STATUS) i = true := by
  by_cases hset : bit (d.reg Reg.SDP_WAKE_STATUS) i = true
  · rw [show d.setLatch i = d from if_pos (by simp [hset])]
    exact ⟨.refl d, hset⟩
  · have hclear : bit (d.reg Reg.SDP_WAKE_STATUS) i = false := Bool.eq_false_iff.mpr hset
    have hflag := Dev.Heated.setFlag_latch d (by omega : i < 32)
    have hbit : bit ((d.setFlag Reg.SDP_WAKE_STATUS ⟨i, i⟩).reg Reg.SDP_WAKE_STATUS) i = true := by
      rw [Dev.setFlag_bit d _ rfl (show i < 32 by omega)]
      simp
    have heq : d.setLatch i = ((d.setFlag Reg.SDP_WAKE_STATUS ⟨i, i⟩).latchTold i).latchWakes i := by
      rw [Dev.setLatch, if_neg (by simp [hset]; omega), Dev.setReg_latch_eq hclear]
      rfl
    have hrest := (Dev.Heated.latchTold (d.setFlag Reg.SDP_WAKE_STATUS ⟨i, i⟩) i).trans (.latchWakes _ i)
    rw [heq]
    exact ⟨hflag.trans hrest, hrest.latch i hbit⟩

/-- An alert: its event flag, its ALERT bit and wake latch 9 (R449). -/
theorem Dev.Heated.thermalAlert (d : Dev) {f : Fld} (h : f.lo = f.hi) (hi : f.hi < 32) (a src : Nat) :
    Dev.Heated 0 d (d.thermalAlert f a src) ∧ bit ((d.thermalAlert f a src).reg Reg.SDP_EVENT) f.lo = true ∧
      bit (d.thermalAlert f a src).sdp.alert a = true ∧ bit ((d.thermalAlert f a src).reg Reg.SDP_WAKE_STATUS) 9 = true := by
  have hlow : Dev.Heated 0 d (d.withAlert a) := .withAlert d a
  have hbit : bit (d.withAlert a).sdp.alert a = true := by simp [Dev.withAlert, bit_eq_testBit]
  have hevent := Dev.Heated.sdpEvent (d.withAlert a) h hi
  have hset : bit (((d.withAlert a).sdpEvent f).reg Reg.SDP_EVENT) f.lo = true := by
    rw [Dev.sdpEvent, Dev.setFlag_bit _ _ h hi]
    simp
  obtain ⟨hlatch, hnine⟩ := Dev.Heated.setLatch (((d.withAlert a).sdpEvent f).raise src) (i := 9) (by decide)
  have hrest := (Dev.Heated.raise ((d.withAlert a).sdpEvent f) src).trans hlatch
  exact ⟨hlow.trans (hevent.trans hrest), hrest.event _ hset, (hevent.trans hrest).alert _ hbit, hnine⟩

/-- A trip: it latches `TRIP`, holds `FAULT_N` low and counts (R449). -/
theorem Dev.Heated.thermalTrip (d : Dev) : Dev.Heated 1 d d.thermalTrip ∧
    bit (d.thermalTrip.reg Reg.SDP_EVENT) Fld.SDP_EVENT_TRIP.lo = true ∧ d.thermalTrip.sdp.tripHold = true := by
  have hevent := Dev.Heated.sdpEvent d.withHold (f := Fld.SDP_EVENT_TRIP) rfl (by decide)
  have hset : bit ((d.withHold.sdpEvent Fld.SDP_EVENT_TRIP).reg Reg.SDP_EVENT) Fld.SDP_EVENT_TRIP.lo = true := by
    rw [Dev.sdpEvent, Dev.setFlag_bit _ _ rfl (by decide), beq_self_eq_true, Bool.or_true]
  have hrest := (Dev.Heated.countTrip (d.withHold.sdpEvent Fld.SDP_EVENT_TRIP)).trans (.raise _ 0x46E2)
  refine ⟨(Dev.Heated.withHold d).trans (hevent.trans hrest), hrest.event _ hset, ?_⟩
  rw [Dev.thermalTrip, Dev.raise_sdp]
  rfl

/-! ### A sample (R56, R449) -/

/-- The readings of a sample in their registers, each die sensor's with its offset of the trim page (R462). -/
def Dev.measured (d : Dev) (die hbm : List Nat) : Dev :=
  (d.setRegs (Reg.SDP_TEMP 0) ((((List.range 16).zip die).map fun p => toTwos 16 (signed 16 p.2 + d.boot.toff.getD p.1 0)).take 16)).setRegs
    (Reg.SDP_TEMP_HBM 0) (hbm.take 8)

/-- The comparison with an alert threshold. -/
def Dev.alerted (d : Dev) (b : Bool) (f : Fld) (a src : Nat) : Dev := if b then d.thermalAlert f a src else d

/-- The comparison with a trip threshold. -/
def Dev.tripped (d : Dev) (b : Bool) : Dev := if b then d.thermalTrip else d

/-- A trip lets go of `FAULT_N` once both readings are 5 °C below their thresholds. -/
def Dev.cooled (d : Dev) (b : Bool) : Dev := if b then { d with sdp := { d.sdp with tripHold := false } } else d

/-- Whether a reading is 5 °C below its trip threshold. -/
def tripCooled (t thr : Nat) : Bool := signed 16 t ≤ signed 16 (thr / 2 ^ 16) - 40

/-- The comparisons of a sample one after another, by what each finds: the alerts, the trips, and whether both readings have cooled. -/
def Dev.compared (d : Dev) (alertD alertH tripD tripH cool : Bool) : Dev :=
  ((((d.alerted alertD Fld.SDP_EVENT_DIE_ALERT 0 0x46E0).alerted alertH Fld.SDP_EVENT_HBM_ALERT 1 0x46E1).tripped tripD).tripped
    tripH).cooled cool

theorem toTwos_lt (n : Nat) (x : Int) : toTwos n x < 2 ^ n := by
  have hpos : (0 : Int) < (2 ^ n : Nat) := by exact_mod_cast Nat.two_pow_pos n
  have hlt := Int.emod_lt_of_pos x hpos
  have hge := Int.emod_nonneg x hpos.ne'
  unfold toTwos
  omega

section Measured
variable (d : Dev) {die hbm : List Nat}

theorem Dev.measured_sdp : (d.measured die hbm).sdp = d.sdp := by
  rw [Dev.measured, Dev.setRegs_sdp, Dev.setRegs_sdp]

/-- Only the registers of the readings take them. -/
theorem Dev.measured_reg_other {k : Nat} (h : k < Reg.SDP_TEMP 0 ∨ Reg.SDP_AUDIT_CNT ≤ k) : (d.measured die hbm).reg k = d.reg k := by
  have hd : (0x200C0 : Nat) = Reg.SDP_TEMP 0 := rfl
  have hh : (0x20100 : Nat) = Reg.SDP_TEMP_HBM 0 := rfl
  have ha : (0x20120 : Nat) = Reg.SDP_AUDIT_CNT := rfl
  rw [Dev.measured, Dev.setRegs_reg_other _ _ _ (by simp only [List.length_take]; omega),
    Dev.setRegs_reg_other _ _ _ (by simp only [List.length_take]; omega)]

theorem Dev.measured_die (hdie : die.length = 16) {n : Nat} (hn : n < 16) :
    (d.measured die hbm).reg (Reg.SDP_TEMP n) = toTwos 16 (signed 16 (die.getD n 0) + d.boot.toff.getD n 0) := by
  have hlow : Reg.SDP_TEMP n < Reg.SDP_TEMP_HBM 0 := by simp only [Reg.SDP_TEMP, Reg.SDP_TEMP_HBM]; omega
  have hn' : n < die.length := by omega
  have hreg : Reg.SDP_TEMP n = Reg.SDP_TEMP 0 + n * 4 := rfl
  have hlt := toTwos_lt 16 (signed 16 die[n] + d.boot.toff.getD n 0)
  rw [Dev.measured, Dev.setRegs_reg_other _ _ _ (.inl hlow), hreg, Dev.setRegs_reg_same _ _ (by simp [hdie]; omega)]
  simp only [List.getElem_take, List.getElem_map, List.getElem_zip, List.getElem_range, List.getD_eq_getElem _ _ hn']
  omega

theorem Dev.measured_hbm (hhbm : hbm.length = 8) {n : Nat} (hn : n < 8) :
    (d.measured die hbm).reg (Reg.SDP_TEMP_HBM n) = hbm.getD n 0 % 2 ^ 32 := by
  have hreg : Reg.SDP_TEMP_HBM n = Reg.SDP_TEMP_HBM 0 + n * 4 := rfl
  rw [Dev.measured, hreg, Dev.setRegs_reg_same _ _ (by simp [hhbm]; omega)]
  simp [hhbm, hn]

end Measured

/-- The readings stay, and so do the hottest of them. -/
theorem Dev.Heated.temps {n : Nat} {e d : Dev} (h : Dev.Heated n e d) {k : Nat} (hk : Reg.SDP_TEMP 0 ≤ k ∧ k < Reg.SDP_AUDIT_CNT) :
    d.reg k = e.reg k := by
  simp only [Reg.SDP_TEMP, Reg.SDP_AUDIT_CNT] at hk
  refine h.regs k (by omega) ?_
  simp only [Reg.SDP_EVENT, Reg.SDP_WAKE_STATUS, Reg.SDP_TRIP_CNT, List.mem_cons, List.not_mem_nil, or_false, not_or]
  omega

/-- The hottest die and stack rest on the registers of the readings. -/
theorem Dev.hottest_congr {e d : Dev} (h : ∀ k, Reg.SDP_TEMP 0 ≤ k ∧ k < Reg.SDP_AUDIT_CNT → d.reg k = e.reg k) :
    d.dieMax = e.dieMax ∧ d.hbmMax = e.hbmMax := by
  refine ⟨congrArg hottest (List.map_congr_left fun n hn => h _ ?_), congrArg hottest (List.map_congr_left fun n hn => h _ ?_)⟩ <;>
  · have hn := List.mem_range.mp hn
    simp only [Reg.SDP_TEMP, Reg.SDP_TEMP_HBM, Reg.SDP_AUDIT_CNT]
    omega

/-- What a comparison with an alert threshold has set once it finds a crossing. -/
def Dev.Alerted (d : Dev) (f : Fld) (a : Nat) : Prop :=
  bit (d.reg Reg.SDP_EVENT) f.lo = true ∧ bit d.sdp.alert a = true ∧ bit (d.reg Reg.SDP_WAKE_STATUS) 9 = true

theorem Dev.Alerted.of_heated {e d : Dev} {f : Fld} {a n : Nat} (h : e.Alerted f a) (hk : Dev.Heated n e d) : d.Alerted f a :=
  ⟨hk.event _ h.1, hk.alert _ h.2.1, hk.latch _ h.2.2⟩

theorem Dev.Heated.alerted (d : Dev) (b : Bool) {f : Fld} (h : f.lo = f.hi) (hi : f.hi < 32) (a src : Nat) :
    Dev.Heated 0 d (d.alerted b f a src) ∧ (b = true → (d.alerted b f a src).Alerted f a) := by
  cases b with
  | false => exact ⟨.refl d, fun hb => absurd hb Bool.false_ne_true⟩
  | true =>
    obtain ⟨hheat, hset⟩ := Dev.Heated.thermalAlert d h hi a src
    exact ⟨hheat, fun _ => hset⟩

/-- What a comparison with a trip threshold has set once it finds a crossing. -/
def Dev.Tripped (d : Dev) : Prop := bit (d.reg Reg.SDP_EVENT) Fld.SDP_EVENT_TRIP.lo = true ∧ d.sdp.tripHold = true

theorem Dev.Heated.tripped (d : Dev) (b : Bool) :
    Dev.Heated b.toNat d (d.tripped b) ∧ (b = true ∨ d.Tripped → (d.tripped b).Tripped) := by
  cases b with
  | false => exact ⟨.refl d, fun h => h.resolve_left Bool.false_ne_true⟩
  | true =>
    obtain ⟨hheat, hset⟩ := Dev.Heated.thermalTrip d
    exact ⟨hheat, fun _ => hset⟩

theorem Dev.Heated.cooled (d : Dev) (b : Bool) : Dev.Heated 0 d (d.cooled b) := by
  cases b with
  | false => exact .refl d
  | true => exact .of_regs (fun _ _ => rfl) rfl rfl rfl

/-- A reading that has just reached its trip threshold is not 5 °C below it. -/
theorem not_tripCooled {old new thr : Nat} (h : tempCrosses old new (thr / 2 ^ 16) = true) : tripCooled new thr = false := by
  simp only [tempCrosses, tripCooled, Bool.and_eq_true, decide_eq_true_eq, decide_eq_false_iff_not] at h ⊢
  omega

section Sample
variable (d : Dev) (die hbm : List Nat)

/-- Whether the hottest die crosses its trip threshold with a sample (R449). -/
def Dev.dieTrips : Bool :=
  tempCrosses d.dieMax (d.measured die hbm).dieMax ((d.measured die hbm).reg Reg.SDP_THERM_DIE / 2 ^ 16)

/-- Whether the hottest stack crosses its trip threshold with a sample (R449). -/
def Dev.hbmTrips : Bool :=
  tempCrosses d.hbmMax (d.measured die hbm).hbmMax ((d.measured die hbm).reg Reg.SDP_THERM_HBM / 2 ^ 16)

/-- Whether the hottest die crosses its alert threshold with a sample (R449). -/
def Dev.dieAlerts : Bool :=
  tempCrosses d.dieMax (d.measured die hbm).dieMax ((d.measured die hbm).reg Reg.SDP_THERM_DIE % 2 ^ 16)

/-- Whether the hottest stack crosses its alert threshold with a sample (R449). -/
def Dev.hbmAlerts : Bool :=
  tempCrosses d.hbmMax (d.measured die hbm).hbmMax ((d.measured die hbm).reg Reg.SDP_THERM_HBM % 2 ^ 16)

/-- Whether both are 5 °C below their trip thresholds after it. -/
def Dev.cools : Bool :=
  tripCooled (d.measured die hbm).dieMax ((d.measured die hbm).reg Reg.SDP_THERM_DIE) &&
    tripCooled (d.measured die hbm).hbmMax ((d.measured die hbm).reg Reg.SDP_THERM_HBM)

/-- A sample takes its readings, then compares the hottest die and stack with their thresholds. -/
theorem Dev.sample_eq : d.sample die hbm =
    (((d.measured die hbm).addLife (d.measured die hbm).dieMax).compared (d.dieAlerts die hbm) (d.hbmAlerts die hbm)
      (d.dieTrips die hbm) (d.hbmTrips die hbm) (d.cools die hbm), d.dieTrips die hbm || d.hbmTrips die hbm) := rfl

theorem Dev.cools_of_trips (h : (d.dieTrips die hbm || d.hbmTrips die hbm) = true) : d.cools die hbm = false := by
  rcases (Bool.or_eq_true _ _).mp h with h | h <;> simp [Dev.cools, not_tripCooled h]

end Sample

/-- What the comparisons of a sample leave (R449). -/
theorem Dev.compared_spec (d : Dev) (alertD alertH tripD tripH cool : Bool) (hcool : (tripD || tripH) = true → cool = false) :
    Dev.Heated (tripD.toNat + tripH.toNat) d (d.compared alertD alertH tripD tripH cool) ∧
      (alertD = true → (d.compared alertD alertH tripD tripH cool).Alerted Fld.SDP_EVENT_DIE_ALERT 0) ∧
      (alertH = true → (d.compared alertD alertH tripD tripH cool).Alerted Fld.SDP_EVENT_HBM_ALERT 1) ∧
      ((tripD || tripH) = true → (d.compared alertD alertH tripD tripH cool).Tripped) := by
  unfold Dev.compared
  obtain ⟨h1, hdie⟩ := Dev.Heated.alerted d alertD (f := Fld.SDP_EVENT_DIE_ALERT) rfl (by decide) 0 0x46E0
  generalize d.alerted alertD Fld.SDP_EVENT_DIE_ALERT 0 0x46E0 = d1 at h1 hdie ⊢
  obtain ⟨h2, hhbm⟩ := Dev.Heated.alerted d1 alertH (f := Fld.SDP_EVENT_HBM_ALERT) rfl (by decide) 1 0x46E1
  generalize d1.alerted alertH Fld.SDP_EVENT_HBM_ALERT 1 0x46E1 = d2 at h2 hhbm ⊢
  obtain ⟨h3, htripD⟩ := Dev.Heated.tripped d2 tripD
  generalize d2.tripped tripD = d3 at h3 htripD ⊢
  obtain ⟨h4, htripH⟩ := Dev.Heated.tripped d3 tripH
  generalize d3.tripped tripH = d4 at h4 htripH ⊢
  have h5 := Dev.Heated.cooled d4 cool
  have hrest := h3.trans (h4.trans h5)
  refine ⟨by simpa using h1.trans (h2.trans hrest), fun h => (hdie h).of_heated (h2.trans hrest), fun h => (hhbm h).of_heated hrest,
    fun h => ?_⟩
  have hset : d4.Tripped := htripH ((Bool.or_eq_true _ _).mp h |>.symm.imp_right fun hd => htripD (.inl hd))
  rw [hcool h]
  exact hset

/-- A trip asks for Doze where the host has enabled it (R449); the twin hears of it. -/
def Dev.tripDozes (d : Dev) (trip : Bool) : Dev :=
  if trip && d.flag Reg.SDP_THERM_CTRL Fld.SDP_THERM_CTRL_TRIP_EN && d.sdp.power ≤ 1 && d.sdp.request == .none then
    { d.twnPart 1 with sdp := { (d.twnPart 1).sdp with request := .doze } }
  else d

theorem Dev.tripDozes_reg (d : Dev) (trip : Bool) {k : Nat} (hk : k < 0x30000) : (d.tripDozes trip).reg k = d.reg k := by
  unfold Dev.tripDozes
  split
  · exact Dev.twnPart_spares (.inl hk) d 1
  · rfl

/-- A request for Doze is all that it makes of the state of SDP. -/
theorem Dev.tripDozes_sdp (d : Dev) (trip : Bool) : (d.tripDozes trip).sdp = { d.sdp with request := (d.tripDozes trip).sdp.request } := by
  unfold Dev.tripDozes
  split
  · rw [Dev.twnPart_sdp]
  · rfl

theorem Dev.tripDozes_request (d : Dev) (hen : d.flag Reg.SDP_THERM_CTRL Fld.SDP_THERM_CTRL_TRIP_EN = true) (hp : d.sdp.power ≤ 1)
    (hq : d.sdp.request = .none) : (d.tripDozes true).sdp.request = .doze := by
  rw [Dev.tripDozes, if_pos (by simp [hen, hp, hq])]

theorem tempCrosses_iff (old new thr : Nat) :
    tempCrosses old new thr = true ↔ signed 16 old < signed 16 thr ∧ signed 16 thr ≤ signed 16 new := by simp [tempCrosses]

/-- What a sample leaves once its readings stand, before a trip asks for Doze (R56, R449). -/
theorem Dev.sample_spec (d : Dev) (die hbm : List Nat) :
    Dev.Heated ((d.dieTrips die hbm).toNat + (d.hbmTrips die hbm).toNat) (d.measured die hbm) (d.sample die hbm).1 ∧
      (d.dieAlerts die hbm = true → (d.sample die hbm).1.Alerted Fld.SDP_EVENT_DIE_ALERT 0) ∧
      (d.hbmAlerts die hbm = true → (d.sample die hbm).1.Alerted Fld.SDP_EVENT_HBM_ALERT 1) ∧
      ((d.dieTrips die hbm || d.hbmTrips die hbm) = true → (d.sample die hbm).1.Tripped) := by
  rw [Dev.sample_eq]
  have hlife : Dev.Heated 0 (d.measured die hbm) ((d.measured die hbm).addLife (d.measured die hbm).dieMax) :=
    .of_regs (fun _ _ => rfl) rfl rfl rfl
  obtain ⟨hheat, hset⟩ := Dev.compared_spec ((d.measured die hbm).addLife (d.measured die hbm).dieMax) (d.dieAlerts die hbm)
    (d.hbmAlerts die hbm) (d.dieTrips die hbm) (d.hbmTrips die hbm) (d.cools die hbm) (d.cools_of_trips die hbm)
  exact ⟨by simpa using hlife.trans hheat, hset⟩

theorem exec_sensorSample (s : State) (die hbm : List (BitVec 16)) : exec (.sensorSample die hbm) s = .next (s.done
    ((s.dev.quiet.sample (die.map (·.toNat)) (hbm.map (·.toNat))).1.tripDozes
      (s.dev.quiet.dieTrips (die.map (·.toNat)) (hbm.map (·.toNat)) || s.dev.quiet.hbmTrips (die.map (·.toNat)) (hbm.map (·.toNat))))) :=
  rfl

theorem State.done_request (s : State) (d : Dev) : (s.done d).dev.sdp.request = d.sdp.request := by
  rw [State.done_dev, Dev.extest_sdp]
  rfl

theorem State.done_power (s : State) (d : Dev) : (s.done d).dev.sdp.power = d.sdp.power := by
  rw [State.done_dev, Dev.extest_sdp]
  rfl

section Told
variable (s : State) (d : Dev) (trip : Bool)

theorem State.sampled_reg {k : Nat} (hk : k < 0x30000) : (s.done (d.tripDozes trip)).dev.reg k = d.reg k := by
  rw [State.done_reg, Dev.tripDozes_reg _ _ hk]

theorem State.sampled_alerted {f : Fld} (h : f.lo = f.hi) {a : Nat} (hset : d.Alerted f a) :
    (s.done (d.tripDozes trip)).dev.flag Reg.SDP_EVENT f = true ∧ bit (s.done (d.tripDozes trip)).dev.sdp.alert a = true ∧
      bit ((s.done (d.tripDozes trip)).dev.reg Reg.SDP_WAKE_STATUS) 9 = true := by
  obtain ⟨hevent, halert, hlatch⟩ := hset
  refine ⟨?_, ?_, ?_⟩
  · rw [Dev.flag_eq_bit _ _ h, State.sampled_reg _ _ _ (by decide), hevent]
  · rw [State.done_alert, Dev.tripDozes_sdp, halert, Bool.true_or]
  · rw [State.sampled_reg _ _ _ (by decide), hlatch]

theorem State.sampled_tripped (hset : d.Tripped) :
    (s.done (d.tripDozes trip)).dev.faultLow = true ∧ (s.done (d.tripDozes trip)).dev.flag Reg.SDP_EVENT Fld.SDP_EVENT_TRIP = true := by
  obtain ⟨hevent, hhold⟩ := hset
  refine ⟨?_, ?_⟩
  · rw [State.done_faultLow, Dev.faultLow, Dev.tripDozes_sdp, hhold, Bool.or_true]
  · rw [Dev.flag_eq_bit _ _ rfl, State.sampled_reg _ _ _ (by decide), hevent]

end Told

section Crossings
variable (d : Dev) (die hbm : List Nat)

theorem Dev.dieTrips_iff : d.dieTrips die hbm = true ↔
    signed 16 d.dieMax < signed 16 (d.reg Reg.SDP_THERM_DIE / 2 ^ 16) ∧
      signed 16 (d.reg Reg.SDP_THERM_DIE / 2 ^ 16) ≤ signed 16 (d.measured die hbm).dieMax := by
  rw [Dev.dieTrips, d.measured_reg_other (.inl (by decide)), tempCrosses_iff]

theorem Dev.hbmTrips_iff : d.hbmTrips die hbm = true ↔
    signed 16 d.hbmMax < signed 16 (d.reg Reg.SDP_THERM_HBM / 2 ^ 16) ∧
      signed 16 (d.reg Reg.SDP_THERM_HBM / 2 ^ 16) ≤ signed 16 (d.measured die hbm).hbmMax := by
  rw [Dev.hbmTrips, d.measured_reg_other (.inl (by decide)), tempCrosses_iff]

theorem Dev.dieAlerts_iff : d.dieAlerts die hbm = true ↔
    signed 16 d.dieMax < signed 16 (d.reg Reg.SDP_THERM_DIE % 2 ^ 16) ∧
      signed 16 (d.reg Reg.SDP_THERM_DIE % 2 ^ 16) ≤ signed 16 (d.measured die hbm).dieMax := by
  rw [Dev.dieAlerts, d.measured_reg_other (.inl (by decide)), tempCrosses_iff]

theorem Dev.hbmAlerts_iff : d.hbmAlerts die hbm = true ↔
    signed 16 d.hbmMax < signed 16 (d.reg Reg.SDP_THERM_HBM % 2 ^ 16) ∧
      signed 16 (d.reg Reg.SDP_THERM_HBM % 2 ^ 16) ≤ signed 16 (d.measured die hbm).hbmMax := by
  rw [Dev.hbmAlerts, d.measured_reg_other (.inl (by decide)), tempCrosses_iff]

end Crossings

theorem toNat_eq_ite (b : Bool) {p : Prop} [Decidable p] (h : b = true ↔ p) : b.toNat = if p then 1 else 0 := by
  cases b <;> simp [← h]

theorem getD_toNat (l : List (BitVec 16)) (n : Nat) : (l.map (·.toNat)).getD n 0 = (l.getD n 0).toNat :=
  List.getD_map (f := BitVec.toNat) (d := 0) ..

/-- Settles O24: a sample puts its readings in their registers and then only sets flags, latches and counts, by the crossings that it finds. -/
theorem sensorSamplesAreComparedWithTheirThresholds : Obligations.SensorSamplesAreComparedWithTheirThresholds := by
  unfold Obligations.SensorSamplesAreComparedWithTheirThresholds
  intro s die hbm hdie hhbm trip alert
  obtain ⟨hheat, halertD, halertH, htrip⟩ := s.dev.quiet.sample_spec (die.map (·.toNat)) (hbm.map (·.toNat))
  refine ⟨_, exec_sensorSample s die hbm, ?_⟩
  have hdieTrips := s.dev.quiet.dieTrips_iff (die.map (·.toNat)) (hbm.map (·.toNat))
  have hhbmTrips := s.dev.quiet.hbmTrips_iff (die.map (·.toNat)) (hbm.map (·.toNat))
  have hdieAlerts := s.dev.quiet.dieAlerts_iff (die.map (·.toNat)) (hbm.map (·.toNat))
  have hhbmAlerts := s.dev.quiet.hbmAlerts_iff (die.map (·.toNat)) (hbm.map (·.toNat))
  generalize (s.dev.quiet.dieTrips (die.map (·.toNat)) (hbm.map (·.toNat))) = tripD at *
  generalize (s.dev.quiet.hbmTrips (die.map (·.toNat)) (hbm.map (·.toNat))) = tripH at *
  generalize (s.dev.quiet.sample (die.map (·.toNat)) (hbm.map (·.toNat))).1 = r at *
  have htemps : ∀ k, Reg.SDP_TEMP 0 ≤ k ∧ k < Reg.SDP_AUDIT_CNT → (s.done (r.tripDozes (tripD || tripH))).dev.reg k =
      (s.dev.quiet.measured (die.map (·.toNat)) (hbm.map (·.toNat))).reg k := fun k hk =>
    (State.sampled_reg _ _ _ (hk.2.trans (by decide))).trans (hheat.temps hk)
  obtain ⟨hdieMax, hhbmMax⟩ := Dev.hottest_congr htemps
  rw [← hdieMax] at hdieTrips hdieAlerts
  rw [← hhbmMax] at hhbmTrips hhbmAlerts
  refine ⟨fun n => ?_, fun n => ?_, fun h => State.sampled_alerted _ _ _ rfl (halertD (hdieAlerts.mpr h)),
    fun h => State.sampled_alerted _ _ _ rfl (halertH (hhbmAlerts.mpr h)), fun h => ?_, fun n hn => ?_⟩
  · rw [htemps _ (by simp only [Reg.SDP_TEMP, Reg.SDP_AUDIT_CNT]; omega), Dev.measured_die _ (by simp [hdie]) n.isLt, getD_toNat]
    rfl
  · rw [htemps _ (by simp only [Reg.SDP_TEMP, Reg.SDP_TEMP_HBM, Reg.SDP_AUDIT_CNT]; omega), Dev.measured_hbm _ (by simp [hhbm]) n.isLt, getD_toNat]
    omega
  · have htripped : (tripD || tripH) = true := (Bool.or_eq_true _ _).mpr (h.imp hdieTrips.mpr hhbmTrips.mpr)
    obtain ⟨hlow, hflag⟩ := State.sampled_tripped s r (tripD || tripH) (htrip htripped)
    refine ⟨hlow, hflag, fun hen hp hq => ?_⟩
    have hctrl : r.reg Reg.SDP_THERM_CTRL = s.dev.reg Reg.SDP_THERM_CTRL := by
      rw [hheat.regs _ (by decide) (by decide), Dev.measured_reg_other _ (.inl (by decide)), Dev.quiet_reg]
    have hpower : r.sdp.power = s.dev.sdp.power := by rw [hheat.power, Dev.measured_sdp, Dev.quiet_sdp]
    have hrequest : r.sdp.request = s.dev.sdp.request := by rw [hheat.request, Dev.measured_sdp, Dev.quiet_sdp]
    rw [State.done_request, State.done_power, htripped, Dev.tripDozes_sdp]
    exact ⟨r.tripDozes_request ((Dev.flag_congr hctrl _).trans hen) (hpower ▸ hp) (hrequest.trans hq), hpower⟩
  · rw [hn, State.sampled_reg _ _ _ (by decide), hheat.trips, Dev.measured_reg_other _ (.inr (by decide)), Dev.quiet_reg,
      toNat_eq_ite tripD hdieTrips, toNat_eq_ite tripH hhbmTrips]
    rfl

end Sys2Proof.Machine

/-! SUPPORT. What the deposit log leaves of the memory: a damaged block stays damaged, and the count of failures does not fall. -/

namespace Sys2Proof.Machine

/-! ### What the deposit log leaves of damage -/

@[simp] theorem leBytes_length (n x : Nat) : (leBytes n x).length = n := by
  induction n generalizing x with
  | zero => rfl
  | succ n ih => rw [leBytes, List.length_cons, ih]

theorem mem_insertSorted (l : List Nat) (x y : Nat) : y ∈ insertSorted l x ↔ y = x ∨ y ∈ l := by
  induction l with
  | nil => simp [insertSorted]
  | cons z l ih =>
    unfold insertSorted
    split
    · simp
    · split
      · next h => simp [h]
      · simp [ih, or_left_comm]

theorem wordBytes_length (ws : List Nat) : (wordBytes ws).length = 4 * ws.length := by
  simp [wordBytes, List.length_flatMap, Nat.mul_comm]

/-- The registers that a record writes lie elsewhere than the count of failed block checks. -/
theorem not_ringReg (r : Nat) : Reg.DEP_BLOCK_FAIL_CNT ≠ Reg.RNG_RS_PROD r ∧ Reg.DEP_BLOCK_FAIL_CNT ≠ Reg.RNG_RS_EVENT r ∧
    Reg.DEP_BLOCK_FAIL_CNT ≠ Reg.RNG_RS_DONE_CNT r := by
  simp only [Reg.DEP_BLOCK_FAIL_CNT, Reg.RNG_RS_PROD, Reg.RNG_RS_EVENT, Reg.RNG_RS_DONE_CNT]
  omega

/-- Device `d` has all the damage of device `e`, no bit error unmet that `e` has not, and no fewer failed block checks counted. -/
structure Dev.Wears (e d : Dev) : Prop where
  damaged : ∀ b, e.isDamaged b = true → d.isDamaged b = true
  weak : ∀ b ∈ d.weak, b ∈ e.weak
  fails : e.reg Reg.DEP_BLOCK_FAIL_CNT ≤ d.reg Reg.DEP_BLOCK_FAIL_CNT

namespace Dev.Wears

theorem refl (d : Dev) : Dev.Wears d d := ⟨fun _ h => h, fun _ h => h, le_rfl⟩

theorem trans {a b c : Dev} (h : Dev.Wears a b) (k : Dev.Wears b c) : Dev.Wears a c :=
  ⟨fun x hx => k.damaged x (h.damaged x hx), fun x hx => h.weak x (k.weak x hx), h.fails.trans k.fails⟩

/-- A step that touches neither the damage nor the count. -/
theorem of_eq {e d : Dev} (hd : d.damaged = e.damaged) (hw : d.weak = e.weak)
    (hr : d.reg Reg.DEP_BLOCK_FAIL_CNT = e.reg Reg.DEP_BLOCK_FAIL_CNT) : Dev.Wears e d :=
  ⟨fun b h => by rwa [Dev.isDamaged, hd], fun b h => hw ▸ h, hr.ge⟩

theorem foldl {α : Type} {f : Dev → α → Dev} {l : List α} (hf : ∀ d, ∀ x ∈ l, Dev.Wears d (f d x)) (d : Dev) :
    Dev.Wears d (l.foldl f d) :=
  List.foldlRecOn (motive := fun e => Dev.Wears d e) l f (refl d) fun e he x hx => he.trans (hf e x hx)

theorem ite {c : Prop} [Decidable c] {e a b : Dev} (ha : Dev.Wears e a) (hb : Dev.Wears e b) : Dev.Wears e (if c then a else b) := by
  split
  · exact ha
  · exact hb

section Steps
variable (d : Dev)

theorem setReg {a : Nat} (h : Reg.DEP_BLOCK_FAIL_CNT ≠ a) (v : Nat) : Dev.Wears d (d.setReg a v) :=
  of_eq rfl rfl (d.setReg_reg_other v h)

theorem setRegs {a : Nat} {vs : List Nat} (h : a + 4 * vs.length ≤ Reg.DEP_BLOCK_FAIL_CNT) : Dev.Wears d (d.setRegs a vs) := by
  induction vs generalizing d a with
  | nil => exact refl d
  | cons v vs ih =>
    rw [List.length_cons] at h
    have hne : Reg.DEP_BLOCK_FAIL_CNT ≠ a := by omega
    exact (setReg d hne v).trans (ih _ (by omega))

theorem setFlag {a : Nat} (h : Reg.DEP_BLOCK_FAIL_CNT ≠ a) (f : Fld) : Dev.Wears d (d.setFlag a f) := setReg d h _

theorem countWrap {a : Nat} (h : Reg.DEP_BLOCK_FAIL_CNT ≠ a) : Dev.Wears d (d.countWrap a) := setReg d h _

/-- A counter never falls. -/
theorem count (a : Nat) : Dev.Wears d (d.count a) := by
  refine ⟨fun _ h => h, fun _ h => h, ?_⟩
  have hlt := d.reg_lt a
  rw [Dev.count_reg]
  split
  · next h => rw [← h] at hlt ⊢; omega
  · exact le_rfl

theorem raise (n : Nat) : Dev.Wears d (d.raise n) :=
  of_eq (by rw [Dev.raise_damaged]) (by rw [Dev.raise_weak]) (Dev.raise_reg_other _ _ (by decide))

theorem raiseIf (b : Bool) (n : Nat) : Dev.Wears d (d.raiseIf b n) := ite (raise d n) (refl d)

/-- A frame of registers that does not name the count. -/
theorem of_onlyRegs {e : Dev} {offs : List Nat} (h : Dev.OnlyRegs d e offs) (hn : Reg.DEP_BLOCK_FAIL_CNT ∉ offs) : Dev.Wears d e :=
  of_eq (congrArg Dev.damaged h.rest :) (congrArg Dev.weak h.rest :) (h.regs _ hn)

theorem memPowerUp (c : Nat) : Dev.Wears d (d.memPowerUp c) := ite (setReg d (by decide) _) (refl d)

theorem memWake (blocks : List Nat) : Dev.Wears d (d.memWake blocks) := of_onlyRegs d (d.memWake_onlyRegs blocks) (by decide)

theorem reservedWake (content block : Nat) : Dev.Wears d (d.reservedWake content block) := ite (refl d) (memPowerUp d _)

/-- A write that covers no whole block takes no damage away (R280). -/
theorem memWrite {a : Nat} {bs : List Byte} (h : bs.length < 256) : Dev.Wears d (d.memWrite a bs) := by
  refine (memWake d (blocksOf a bs.length)).trans ⟨fun b hb => ?_, fun _ hw => hw, le_rfl⟩
  have hpart : (decide (a ≤ b * 256) && decide (b * 256 + 256 ≤ a + bs.length)) = false := by
    simp only [Bool.and_eq_false_iff, decide_eq_false_iff_not]
    omega
  simp only [Dev.isDamaged, List.contains_iff_mem] at hb
  simp only [Dev.isDamaged, Dev.memWrite, List.contains_iff_mem, List.mem_filter, hpart]
  exact ⟨hb, rfl⟩

theorem ringWrite {r a : Nat} {bs : List Byte} (h : bs.length < 256) : Dev.Wears d (d.ringWrite r a bs) := by
  refine ite (of_eq rfl rfl rfl) (memWrite d h)

theorem ringEvent (r : Nat) (f : Fld) : Dev.Wears d (d.ringEvent r f) :=
  ite (refl d) ((setFlag d (not_ringReg r).2.1 f).trans (raiseIf _ _ r))

theorem ringMark (r old : Nat) : Dev.Wears d (d.ringMark r old) :=
  ite ((count d (Reg.RNG_RS_MARK_CNT r)).trans (ringEvent _ r _)) (refl d)

theorem writeCursorLine (r : Nat) : Dev.Wears d (d.writeCursorLine r) := by
  refine ringWrite d ?_
  rw [List.length_append, wordBytes_length, List.length_replicate, List.length_cons, List.length_cons, List.length_singleton]
  decide

/-- A record of entries shorter than a block. -/
theorem putRecord (r : Nat) {entries : List (List Byte)} (h : ∀ e ∈ entries, e.length < 256) : Dev.Wears d (d.putRecord r entries).2 := by
  obtain ⟨hprod, -, hdone⟩ := not_ringReg r
  have hwrite : ∀ (d : Dev) (p : Nat), ∀ x ∈ (List.range entries.length).zip entries,
      Dev.Wears d (d.ringWrite r (d.ringAddr r (p + x.1)) x.2) :=
    fun d p x hx => ringWrite d (h _ (List.of_mem_zip hx).2)
  unfold Dev.putRecord
  split
  · exact refl d
  dsimp only
  split
  · exact ((count d _).trans (count _ _)).trans (ringEvent _ r _)
  · exact (((((foldl (fun d => hwrite d _) d).trans (setReg _ hprod _)).trans (writeCursorLine _ r)).trans
      (countWrap _ hdone)).trans (raiseIf _ _ r)).trans (ringMark _ r _)

theorem blockFailed (b : Nat) : Dev.Wears d (d.blockFailed b) := (count d _).trans (count _ _)

theorem failedAgain (b : Nat) : Dev.Wears d (d.failedAgain b) := count d _

theorem depEvent (f : Fld) : Dev.Wears d (d.depEvent f) := setFlag d (by decide) f

theorem setDamaged (b : Nat) : Dev.Wears d (d.setDamaged b true) := by
  refine ⟨fun x hx => ?_, fun _ h => h, le_rfl⟩
  simp only [Dev.isDamaged, List.contains_iff_mem] at hx
  simp only [Dev.isDamaged, Dev.setDamaged, List.contains_iff_mem, mem_insertSorted, if_true]
  exact .inr hx

theorem corrupt (b : Nat) : Dev.Wears d (d.corrupt b) := by
  have hput : Dev.Wears d ((d.freshBytes 256).2.memPut (b * 256) (d.freshBytes 256).1) := of_eq rfl rfl rfl
  exact hput.trans (setDamaged _ b)

theorem blockDamaged (b : Nat) : Dev.Wears d (d.blockDamaged b) := ((setDamaged d b).trans (depEvent _ _)).trans (raise _ _)

end Steps

theorem foldl_fst {α β : Type} {f : Dev × β → α → Dev × β} (hf : ∀ x a, Dev.Wears x.1 (f x a).1) (l : List α) (x : Dev × β) :
    Dev.Wears x.1 (l.foldl f x).1 :=
  List.foldlRecOn (motive := fun y => Dev.Wears x.1 y.1) l f (refl x.1) fun y hy a _ => hy.trans (hf y a)

end Dev.Wears

/-- A failed block check has been counted since, or the count stands at its end (R46). -/
def Dev.Counted (e d : Dev) : Prop :=
  e.reg Reg.DEP_BLOCK_FAIL_CNT < d.reg Reg.DEP_BLOCK_FAIL_CNT ∨ d.reg Reg.DEP_BLOCK_FAIL_CNT = 0xFFFFFFFF

/-- Nothing that wears the device on takes a counted failure away. -/
theorem Dev.Counted.wears {e d c : Dev} (h : Dev.Counted e d) (k : Dev.Wears d c) : Dev.Counted e c := by
  have hlt := c.reg_lt Reg.DEP_BLOCK_FAIL_CNT
  have hle := k.fails
  rcases h with h | h
  · exact .inl (h.trans_le hle)
  · exact .inr (by omega)

theorem Dev.blockFailed_counted (d : Dev) (b : Nat) : Dev.Counted d (d.blockFailed b) := by
  have hcount : Dev.Counted d (d.count Reg.DEP_BLOCK_FAIL_CNT) := by
    have hlt := d.reg_lt Reg.DEP_BLOCK_FAIL_CNT
    rw [Dev.Counted, Dev.count_reg, if_pos rfl]
    omega
  exact hcount.wears (.count _ _)

/-- The check of blocks that fail takes no damage away and counts them. -/
theorem Dev.checkBlocks_wears (d : Dev) (logged : Bool) (bad : List Nat) :
    Dev.Wears d (d.checkBlocks logged bad).1 ∧ (bad ≠ [] → Dev.Counted d (d.checkBlocks logged bad).1) := by
  unfold Dev.checkBlocks
  generalize hf : (fun (x : Dev × List LogEntry) (b : Nat) => _ : Dev × List LogEntry → Nat → Dev × List LogEntry) = f
  have hstep (x : Dev × List LogEntry) (b : Nat) : Dev.Wears (x.1.blockFailed b) (f x b).1 := by
    subst hf
    dsimp only
    split
    · exact .failedAgain _ b
    · split
      · exact .count _ _
      · exact ((Dev.Wears.failedAgain _ b).trans (.corrupt _ b)).trans (.blockDamaged _ b)
  have hwears (x : Dev × List LogEntry) (b : Nat) : Dev.Wears x.1 (f x b).1 := (Dev.Wears.blockFailed x.1 b).trans (hstep x b)
  refine ⟨Dev.Wears.foldl_fst hwears _ (d, []), fun hbad => ?_⟩
  obtain ⟨b, bad, rfl⟩ := List.exists_cons_of_ne_nil hbad
  rw [List.eraseDups_cons, List.foldl_cons]
  exact ((d.blockFailed_counted b).wears (hstep (d, []) b)).wears (Dev.Wears.foldl_fst hwears _ _)

/-- A controller's own reads take no damage away, and leave no bit error of the blocks met (R280). -/
theorem Dev.checkOwn_wears (d : Dev) (read met bad : List Nat) : Dev.Wears d (d.checkOwn read met bad).1 := by
  have hcheck := (d.checkBlocks_wears true (read.filter d.isDamaged ++ (bad ++ d.weak).filter read.contains)).1
  exact ⟨hcheck.damaged, fun b hb => hcheck.weak b (List.mem_filter.mp hb).1, hcheck.fails⟩

theorem Dev.checkOwn_counted {d : Dev} {read : List Nat} {b : Nat} (hb : b ∈ read) (h : d.isDamaged b = true ∨ b ∈ d.weak)
    (met bad : List Nat) : Dev.Counted d (d.checkOwn read met bad).1 := by
  refine (d.checkBlocks_wears true _).2 (List.ne_nil_of_mem (a := b) ?_)
  rw [List.mem_append, List.mem_filter, List.mem_filter]
  exact h.imp (fun hd => ⟨hb, hd⟩) fun hw => ⟨List.mem_append_right _ hw, List.contains_iff_mem.mpr hb⟩

theorem Dev.checkOwn_weak (d : Dev) (read bad : List Nat) {met : List Nat} {b : Nat} (h : b ∈ met) : b ∉ (d.checkOwn read met bad).1.weak := by
  intro hb
  have hnot := (List.mem_filter.mp hb).2
  simp [h] at hnot

/-- A log entry is half a ring entry. -/
theorem logWords_length (e : LogEntry) (seq : Nat) : (wordBytes (e.words seq)).length < 256 := by
  rw [wordBytes_length]
  show 4 * 8 < 256
  decide

namespace Dev.Wears

theorem checkedRecord (d : Dev) (r : Nat) {entries : List (List Byte)} (h : ∀ e ∈ entries, e.length < 256) :
    Dev.Wears d (d.checkedRecord r entries).1 := by
  unfold Dev.checkedRecord
  dsimp only
  split
  · exact (d.checkOwn_wears _ _ _).trans (putRecord _ r h)
  · exact putRecord d r h

theorem showLog (d : Dev) : Dev.Wears d d.showLog := setRegs d (by simp [Reg.DEP_LOG_DATA, Reg.DEP_BLOCK_FAIL_CNT])

theorem logRecord (d : Dev) (e : LogEntry) : Dev.Wears d (d.logRecord e).1 := by
  have hentry : ∀ bs ∈ [wordBytes (e.words (d.reg Reg.DEP_LOG_COUNT))], bs.length < 256 := by
    simpa using logWords_length e _
  have hseq (x : List (List Nat)) (b : Nat) :
      Dev.Wears d (({ d with depLogged := x }.reservedWake contentLogs b).countWrap Reg.DEP_LOG_COUNT).showLog :=
    (((of_eq rfl rfl rfl : Dev.Wears d { d with depLogged := x }).trans (reservedWake _ _ _)).trans (countWrap _ (by decide))).trans (showLog _)
  unfold Dev.logRecord
  dsimp only
  split
  · exact ((hseq _ _).trans ((checkedRecord _ _ hentry).trans (ite (refl _) (depEvent _ _)))).trans (raise _ _)
  · exact (hseq _ _).trans (raise _ _)

theorem logAt (n : Nat) (d : Dev) (e : LogEntry) : Dev.Wears d (Dev.logAt n d e) := by
  induction n generalizing d e with
  | zero => exact logRecord d e
  | succ n ih => exact (logRecord d e).trans (foldl (fun d x _ => ih d x) _)

theorem logAll (d : Dev) (es : List LogEntry) : Dev.Wears d (d.logAll es) := foldl (fun d e _ => logAt _ d e) d

end Dev.Wears

end Sys2Proof.Machine

/-! SUPPORT. BAR2 accesses, and the obligation about the bytes they reach (R23, R25, R32, R34, R280). -/

namespace Sys2Proof.Machine

/-! ### Blocks of a range -/

theorem mem_blocksOf {a n b : Nat} : b ∈ blocksOf a n ↔ 0 < n ∧ a < b * 256 + 256 ∧ b * 256 < a + n := by
  unfold blocksOf
  split
  · next h => simp [h]
  · simp only [List.mem_map, List.mem_range]
    constructor
    · rintro ⟨k, hk, rfl⟩
      omega
    · intro h
      exact ⟨b - a / 256, by omega, by omega⟩

/-- A block that a range touches in part is one that it does not cover. -/
theorem mem_partBlocks {a n b : Nat} : b ∈ partBlocks a n ↔ b ∈ blocksOf a n ∧ ¬ (a ≤ b * 256 ∧ b * 256 + 256 ≤ a + n) := by
  rw [partBlocks, List.mem_filter, Bool.not_eq_true', Bool.and_eq_false_iff, decide_eq_false_iff_not, decide_eq_false_iff_not, not_and_or]

/-! ### Controllers that wake (R298) -/

theorem Dev.stackOf_congr {d e : Dev} (h : d.wb = e.wb) (a : Nat) : d.stackOf a = e.stackOf a := by
  simp only [Dev.stackOf, h]

theorem Dev.memPowerUp_wb (d : Dev) (c : Nat) : (d.memPowerUp c).wb = d.wb := by
  unfold Dev.memPowerUp
  split <;> rfl

/-- A controller that wakes clears its bit of `MEM_STATUS` and no other. -/
theorem Dev.memPowerUp_bit (d : Dev) (c i : Nat) :
    bit ((d.memPowerUp c).reg Reg.MEM_STATUS) i = (bit (d.reg Reg.MEM_STATUS) i && i != c) := by
  have hlt := d.reg_lt Reg.MEM_STATUS
  unfold Dev.memPowerUp
  split
  · next h =>
    have hand : d.reg Reg.MEM_STATUS &&& 2 ^ c = 2 ^ c := by
      rw [bit_eq_testBit] at h
      rw [Nat.and_two_pow, h, Bool.toNat_true, Nat.one_mul]
    have hbit : bit (2 ^ c) i = (i == c) := by
      rw [bit_eq_testBit, Nat.testBit_two_pow, Bool.eq_iff_iff, decide_eq_true_iff, beq_iff_eq, eq_comm]
    rw [Dev.setReg_reg, if_pos rfl, Nat.mod_eq_of_lt (by omega)]
    conv_lhs => rw [← hand]
    rw [bit_sub_and, hbit]
    rfl
  · next h =>
    by_cases hi : i = c
    · subst hi
      simp [h]
    · simp [hi]

/-- Wake-ups clear the bits of the controllers named, and set none. -/
theorem Dev.memPowerUps_bit (blocks : List Nat) (d : Dev) {i : Nat}
    (h : bit (d.reg Reg.MEM_STATUS) i = false ∨ ∃ b ∈ blocks, d.stackOf (b * 256) = i) :
    bit ((blocks.foldl (fun d b => d.memPowerUp (d.stackOf (b * 256))) d).reg Reg.MEM_STATUS) i = false := by
  induction blocks generalizing d with
  | nil => exact h.resolve_right (by simp)
  | cons c bs ih =>
    refine ih _ ?_
    rw [Dev.memPowerUp_bit]
    rcases h with h | ⟨b, hb, rfl⟩
    · exact .inl (by rw [h, Bool.false_and])
    · rcases List.mem_cons.mp hb with rfl | hb
      · exact .inl (by simp)
      · exact .inr ⟨b, hb, Dev.stackOf_congr (d.memPowerUp_wb _) _⟩

/-- The controllers of blocks that a request reaches have left power-down (R298). -/
theorem Dev.memWake_bit (d : Dev) {blocks : List Nat} {b : Nat} (hb : b ∈ blocks) :
    bit ((d.memWake blocks).reg Reg.MEM_STATUS) (d.stackOf (b * 256)) = false := by
  unfold Dev.memWake
  split
  · next h => simp [beq_iff_eq.mp h, bit]
  · exact Dev.memPowerUps_bit blocks d (.inr ⟨b, hb, rfl⟩)

/-! ### BAR2 reads -/

/-- A request that meets no damaged block and no bit error has no failed check. -/
theorem Dev.checkBlocks_nil (d : Dev) (logged : Bool) : d.checkBlocks logged [] = (d, []) := by
  simp [Dev.checkBlocks, List.eraseDups_nil]

section Memory
variable (d : Dev) (blocks : List Nat)

theorem Dev.memWake_damaged : (d.memWake blocks).damaged = d.damaged := (congrArg Dev.damaged (d.memWake_onlyRegs blocks).rest :)
theorem Dev.memWake_weak : (d.memWake blocks).weak = d.weak := (congrArg Dev.weak (d.memWake_onlyRegs blocks).rest :)
theorem Dev.memWake_mem : (d.memWake blocks).mem = d.mem := (congrArg Dev.mem (d.memWake_onlyRegs blocks).rest :)
theorem Dev.memWake_tap : (d.memWake blocks).tap = d.tap := (congrArg Dev.tap (d.memWake_onlyRegs blocks).rest :)

theorem Dev.memWake_isDamaged (b : Nat) : (d.memWake blocks).isDamaged b = d.isDamaged b := by
  rw [Dev.isDamaged, Dev.memWake_damaged, Dev.isDamaged]

theorem Dev.memWake_out : (d.memWake blocks).out = d.out := by
  unfold Dev.memWake
  split
  · rfl
  · refine List.foldlRecOn (motive := fun e : Dev => e.out = d.out) _ _ rfl fun e he b _ => ?_
    unfold Dev.memPowerUp
    split <;> exact he

end Memory

theorem Dev.getElem?_memRead (d : Dev) (a : Nat) {n i : Nat} (h : i < n) : (d.memRead a n)[i]? = some (d.memByte (a + i)) := by
  unfold Dev.memRead Dev.memByte
  induction n generalizing a i with
  | zero => exact absurd h (Nat.not_lt_zero i)
  | succ n ih =>
    cases i with
    | zero => rfl
    | succ i =>
      rw [Tab.range, List.getElem?_cons_succ, ih _ (Nat.lt_of_succ_lt_succ h), Nat.add_assoc, Nat.add_comm 1 i]

/-- A read of blocks none of which is damaged returns their bytes (R32, R34). -/
theorem Dev.bar2Read_whole {d : Dev} {off n : Nat} (hforbid : d.bar2Forbidden (d.bar2Addr off) n = false)
    (hin : d.bar2Addr off + n ≤ memEnd) (hmem : d.memAnswers = true) (hwhole : ∀ b ∈ blocksOf (d.bar2Addr off) n, d.isDamaged b = false) :
    d.bar2Read off n [] = (d.memWake (blocksOf (d.bar2Addr off) n)).emit (.bytes false (d.memRead (d.bar2Addr off) n)) := by
  generalize ha : d.bar2Addr off = a at *
  have hnone : (blocksOf a n).filter (d.memWake (blocksOf a n)).isDamaged = [] := by
    rw [List.filter_eq_nil_iff]
    intro b hb
    simp [Dev.memWake_isDamaged, hwhole b hb]
  have hclean : (d.memWake (blocksOf a n)).rangeDamaged a n = false := by
    simpa [Dev.rangeDamaged, Dev.memWake_isDamaged] using hwhole
  have hread : (d.memWake (blocksOf a n)).memRead a n = d.memRead a n := by rw [Dev.memRead, Dev.memWake_mem, Dev.memRead]
  unfold Dev.bar2Read
  rw [ha]
  dsimp only
  rw [hforbid, if_neg Bool.false_ne_true, if_neg (Nat.not_lt.mpr hin), hmem]
  simp [hnone, Dev.failBlocks, Dev.checkBlocks_nil, Dev.logAll, hclean, hread]

/-- A read that does not end within software memory completes with Unsupported Request (R23). -/
theorem Dev.bar2Read_outside {d : Dev} {off n : Nat} (hforbid : d.bar2Forbidden (d.bar2Addr off) n = false)
    (hout : memEnd < d.bar2Addr off + n) : d.bar2Read off n [] = d.emit .unsupported := by
  unfold Dev.bar2Read
  dsimp only
  rw [hforbid, if_neg Bool.false_ne_true, if_pos hout]

/-! ### BAR2 writes -/

theorem Dev.bar2Write_inside {d : Dev} {off : Nat} {bs : List Byte} (hin : d.bar2Addr off + bs.length ≤ memEnd)
    (hmem : d.memAnswers = true) : d.bar2Write off bs [] = d.memStore (d.bar2Addr off) bs [] := by
  unfold Dev.bar2Write
  dsimp only
  rw [if_neg (Nat.not_lt.mpr hin), hmem]
  rfl

section Writes
variable (d : Dev) (a : Nat) (bs : List Byte)

/-- A write makes the blocks that it covers whole, and no other (R25, R280). -/
theorem Dev.memWrite_isDamaged (b : Nat) :
    (d.memWrite a bs).isDamaged b = (d.isDamaged b && !(a ≤ b * 256 && b * 256 + 256 ≤ a + bs.length)) := by
  rw [Bool.eq_iff_iff]
  simp [Dev.isDamaged, Dev.memWrite, List.mem_filter, Dev.memWake_damaged]

theorem Dev.memWrite_weak : (d.memWrite a bs).weak = d.weak := d.memWake_weak _

theorem Dev.memWrite_reg (k : Nat) : (d.memWrite a bs).reg k = (d.memWake (blocksOf a bs.length)).reg k := rfl

theorem Dev.memWrite_out : (d.memWrite a bs).out = d.out := d.memWake_out _

/-- A write changes exactly the bytes that it names. -/
theorem Dev.memWrite_memByte (x : Nat) :
    (d.memWrite a bs).memByte x = if a ≤ x ∧ x < a + bs.length then bs.getD (x - a) 0 else d.memByte x := by
  have hmem : (d.memWrite a bs).mem = d.mem.write memDefault a bs := congrArg (fun m : Tab Byte => m.write memDefault a bs) (d.memWake_mem _)
  rw [Dev.memByte, hmem, Tab.get_write]
  by_cases hin : a ≤ x ∧ x < a + bs.length
  · rw [if_pos hin, if_pos hin.1, List.getD_eq_getElem _ _ (by omega), List.getD_eq_getElem _ _ (by omega)]
  · rw [if_neg hin]
    split
    · next ha => rw [List.getD_eq_default _ _ (by omega), Dev.memByte]
    · rfl

/-- A device no bit error of which lies unmet in the blocks of a range (R280). -/
def Dev.metIn (d : Dev) (a n : Nat) : Dev := { d with weak := d.weak.filter fun b => !(blocksOf a n).contains b }

/-- A write that meets the bit errors of its blocks changes bytes, damage and bit errors, and wakes controllers. -/
theorem Dev.metIn_memWrite_frame {e : Dev} (he : e = (d.metIn a bs.length).memWrite a bs) :
    Dev.OnlyRegs { d with mem := e.mem, damaged := e.damaged, weak := e.weak } e [Reg.MEM_STATUS] := by
  have hwake := (d.metIn a bs.length).memWake_onlyRegs (blocksOf a bs.length)
  have hrest := congrArg (fun x : Dev => { x with mem := e.mem, damaged := e.damaged, weak := e.weak }) hwake.rest
  subst he
  exact ⟨hwake.regs, hrest⟩

/-- The reads of a write are of the blocks that it covers in part (R25). -/
theorem Dev.memStore_eq : d.memStore a bs [] =
    (((d.checkOwn (partBlocks a bs.length) (blocksOf a bs.length) []).1.memWrite a bs).logAll
      (d.checkOwn (partBlocks a bs.length) (blocksOf a bs.length) []).2) := by
  simp only [Dev.memStore, Dev.ownChecks, List.flatMap_cons, List.flatMap_nil, List.append_nil]

/-- A write into part of a block that fails its check: the failure counts, and damage stays (R25, R280). -/
theorem Dev.memStore_fails {b : Nat} (hb : b ∈ partBlocks a bs.length) (h : d.isDamaged b = true ∨ b ∈ d.weak) :
    (d.isDamaged b = true → (d.memStore a bs []).isDamaged b = true) ∧ b ∉ (d.memStore a bs []).weak ∧
      Dev.Counted d (d.memStore a bs []) := by
  obtain ⟨hin, hpart⟩ := mem_partBlocks.mp hb
  rw [Dev.memStore_eq]
  have hwears := d.checkOwn_wears (partBlocks a bs.length) (blocksOf a bs.length) []
  have hcounted := Dev.checkOwn_counted hb h (blocksOf a bs.length) []
  have hmet := d.checkOwn_weak (partBlocks a bs.length) [] hin
  generalize d.checkOwn (partBlocks a bs.length) (blocksOf a bs.length) [] = x at *
  have hlog := Dev.Wears.logAll (x.1.memWrite a bs) x.2
  refine ⟨fun hd => hlog.damaged b ?_, fun hw => hmet ?_, Dev.Counted.wears ?_ hlog⟩
  · have hnot : (decide (a ≤ b * 256) && decide (b * 256 + 256 ≤ a + bs.length)) = false := by simpa using hpart
    rw [Dev.memWrite_isDamaged, hwears.damaged b hd, hnot]
    rfl
  · exact x.1.memWrite_weak a bs ▸ hlog.weak b hw
  · rw [Dev.Counted, Dev.memWrite_reg, (x.1.memWake_onlyRegs _).regs _ (by decide)]
    exact hcounted

/-- A write that reads no block which fails its check. -/
theorem Dev.memStore_whole (h : ∀ b ∈ partBlocks a bs.length, d.isDamaged b = false ∧ b ∉ d.weak) : d.memStore a bs [] =
    (d.metIn a bs.length).memWrite a bs := by
  have hnone : (partBlocks a bs.length).filter d.isDamaged ++ ([] ++ d.weak).filter (partBlocks a bs.length).contains = [] := by
    rw [List.nil_append, List.append_eq_nil_iff, List.filter_eq_nil_iff, List.filter_eq_nil_iff]
    refine ⟨fun b hb => by simp [(h b hb).1], fun b hw hc => ?_⟩
    exact (h b (List.contains_iff_mem.mp hc)).2 hw
  have hcheck : d.checkOwn (partBlocks a bs.length) (blocksOf a bs.length) [] =
      (d.metIn a bs.length, []) := by
    rw [Dev.checkOwn, hnone, Dev.checkBlocks_nil, Dev.metIn]
  rw [Dev.memStore_eq, hcheck]
  rfl

end Writes

/-! ### The commands -/

theorem exec_bar2Write (s : State) (off : Nat) (bs : List Byte) :
    exec (.bar2Write off bs []) s = .next (s.done (s.dev.quiet.bar2Write off bs [])) := rfl

theorem State.done_isDamaged (s : State) (d : Dev) (b : Nat) : (s.done d).dev.isDamaged b = d.isDamaged b := by
  simp [Dev.isDamaged]

theorem State.done_memByte (s : State) (d : Dev) (x : Nat) : (s.done d).dev.memByte x = d.memByte x := by
  simp [Dev.memByte]

theorem State.done_weak (s : State) (d : Dev) : (s.done d).dev.weak = d.weak := by simp

/-- A write that reads no block which fails its check changes the bytes, the damage and the bit errors of what it covers, and wakes
controllers. -/
theorem bar2Write_spec {s : State} {off : Nat} {bs : List Byte} (hin : s.dev.bar2Addr off + bs.length ≤ memEnd)
    (hmem : s.dev.memAnswers = true) (h : ∀ b ∈ partBlocks (s.dev.bar2Addr off) bs.length, s.dev.isDamaged b = false ∧ b ∉ s.dev.weak) :
    exec (.bar2Write off bs []) s =
      .next (s.done ((s.dev.quiet.metIn (s.dev.bar2Addr off) bs.length).memWrite (s.dev.bar2Addr off) bs)) := by
  have hin : s.dev.quiet.bar2Addr off + bs.length ≤ memEnd := hin
  have hmem : s.dev.quiet.memAnswers = true := hmem
  have hstore := Dev.memStore_whole s.dev.quiet (s.dev.bar2Addr off) bs h
  rw [exec_bar2Write, Dev.bar2Write_inside hin hmem]
  exact congrArg (fun d => Host.Outcome.next (s.done d)) hstore

theorem State.done_memory {s : State} {d : Dev} {offs : List Nat}
    (h : Dev.OnlyRegs { s.dev.quiet with mem := d.mem, damaged := d.damaged, weak := d.weak } d offs) :
    Dev.OnlyRegs { s.dev with mem := (s.done d).dev.mem, damaged := (s.done d).dev.damaged, weak := (s.done d).dev.weak } (s.done d).dev
      offs := by
  have hloud : Dev.OnlyRegs { s.dev with mem := d.mem, damaged := d.damaged, weak := d.weak } d offs :=
    ⟨h.regs, congrArg (fun x : Dev => { x with out := s.dev.out }) h.rest⟩
  have hdone := hloud.done s
  rwa [show (s.done d).dev.mem = d.mem by simp, show (s.done d).dev.damaged = d.damaged by simp, State.done_weak]

/-- Settles O14: a read of whole blocks wakes their controllers and sends their bytes; a write checks the blocks that it covers in part,
then lands; what it logs covers no whole block. -/
theorem bar2ReachesTheNamedBytes : Obligations.Bar2ReachesTheNamedBytes := by
  unfold Obligations.Bar2ReachesTheNamedBytes
  intro s off htap hmem hflush hpower a
  have hanswers : s.dev.quiet.memAnswers = true := by simp [Dev.memAnswers, hmem, hflush, hpower]
  refine ⟨fun n hforbid hin hclean => ?_, fun n hforbid hout => ?_, fun bs hin b hb hbad => ?_, fun bs hin hgood => ?_⟩
  · have hwhole : ∀ b ∈ blocksOf a n, s.dev.quiet.isDamaged b = false := by
      intro b hb
      have hmeet := mem_blocksOf.mp hb
      rw [← Bool.not_eq_true, Dev.isDamaged, List.contains_iff_mem]
      intro hd
      have hapart := hclean b hd
      omega
    have hwake := s.dev.quiet.memWake_onlyRegs (blocksOf a n)
    refine ⟨s.done ((s.dev.quiet.memWake (blocksOf a n)).emit (.bytes false (s.dev.quiet.memRead a n))), s.dev.quiet.memRead a n, ?_, ?_,
      Tab.length_range _ _ _, fun i hi => s.dev.quiet.getElem?_memRead a hi, fun b hb => ?_, (hwake.emit _).of_quiet.done s⟩
    · exact congrArg (fun d => Host.Outcome.next (s.done d)) (Dev.bar2Read_whole hforbid hin hanswers hwhole)
    · have htap' : ((s.dev.quiet.memWake (blocksOf a n)).emit (.bytes false (s.dev.quiet.memRead a n))).tap ≠ .extest := by
        rwa [Dev.emit_tap, Dev.memWake_tap]
      rw [State.done_out htap', Dev.emit, Dev.memWake_out]
      rfl
    · rw [State.done_reg, Dev.emit_reg]
      exact s.dev.quiet.memWake_bit hb
  · exact State.sends htap (congrArg (fun d => Host.Outcome.next (s.done d)) (Dev.bar2Read_outside (d := s.dev.quiet) hforbid hout)) rfl
  · obtain ⟨hkeep, hmet, hcount⟩ := Dev.memStore_fails s.dev.quiet a bs hb hbad
    refine ⟨s.done (s.dev.quiet.memStore a bs []), ?_, ?_, ?_, ?_⟩
    · exact congrArg (fun d => Host.Outcome.next (s.done d)) (Dev.bar2Write_inside (d := s.dev.quiet) hin hanswers)
    · rw [State.done_isDamaged]
      exact hkeep
    · rw [State.done_weak]
      exact hmet
    · rw [State.done_reg]
      exact hcount
  · refine ⟨_, bar2Write_spec hin hanswers hgood, ?_, fun x => ?_, fun b => ?_, ?_, fun b hb => ?_, ?_⟩
    · exact State.done_out_nil (Dev.memWrite_out _ _ _) s
    · rw [State.done_memByte, Dev.memWrite_memByte]
      rfl
    · rw [State.done_isDamaged, Dev.memWrite_isDamaged]
      rfl
    · rw [State.done_weak, Dev.memWrite_weak]
      rfl
    · rw [State.done_reg, Dev.memWrite_reg]
      exact (s.dev.quiet.metIn a bs.length).memWake_bit hb
    · exact State.done_memory (s.dev.quiet.metIn_memWrite_frame a bs rfl)

end Sys2Proof.Machine

/-! SUPPORT. What a loaded waybill sets and releases (R57, R77) leaves alone: registers below those that it names, and the boot sequence. -/

namespace Sys2Proof.Machine

/-! ### Registers of ports, lines and the hierarchy -/

@[simp] theorem not_spared_trunk : ¬ Spared Reg.TRK_STATUS ∧ ¬ Spared Reg.TRK_EVENT ∧ ¬ Spared Reg.TRK_DELAY0 ∧
    ¬ Spared Reg.TRK_DELAY1 ∧ ¬ Spared Reg.TRK_UPLINK_CNT := by
  unfold Spared
  decide

@[simp] theorem not_spared_admission : ¬ Spared Reg.PRT_ADM_CLOCKS ∧ ¬ Spared Reg.PRT_ADM_BYTES ∧ ¬ Spared Reg.PRT_ADM_SLACK := by
  unfold Spared
  decide

@[simp] theorem not_spared_lines (c : Nat) : ¬ Spared (Reg.RLC_STATUS c) ∧ ¬ Spared (Reg.RLC_RXF_COUNT c) := by
  simp only [Spared, Reg.DEP_STATUS, Reg.RLC_STATUS, Reg.RLC_RXF_COUNT]
  omega

@[simp] theorem not_spared_stops (c a : Nat) : ¬ Spared (Reg.RLC_ST_STATE c a) := by
  simp only [Spared, Reg.DEP_STATUS, Reg.RLC_ST_STATE]
  omega

@[simp] theorem not_spared_streams (p : Nat) : ¬ Spared (Reg.SIP_STATUS p) ∧ ¬ Spared (Reg.SIP_EVENT p) := by
  simp only [Spared, Reg.DEP_STATUS, Reg.SIP_STATUS, Reg.SIP_EVENT]
  omega

@[simp] theorem not_spared_presets (p : Nat) : ¬ Spared (Reg.CPT_TX p) ∧ ¬ Spared (Reg.TWN_PORT_TX p) ∧
    ¬ Spared (Reg.TRK_PORT_TX p) := by
  simp only [Spared, Reg.DEP_STATUS, Reg.CPT_TX, Reg.TWN_PORT_TX, Reg.TRK_PORT_TX]
  omega

/-! ### Operations that touch no register -/

section NoRegister
variable {off : Nat}

@[simp] theorem Dev.trkForget_reg (d : Dev) : d.trkForget.reg off = d.reg off := rfl

@[simp] theorem Dev.trkTrain_reg (d : Dev) (p : Nat) : (d.trkTrain p).reg off = d.reg off := rfl

@[simp] theorem Dev.sipTrain_reg (d : Dev) (p : Nat) : (d.sipTrain p).reg off = d.reg off := rfl

@[simp] theorem Dev.setStandby_reg (d : Dev) (on : Bool) : (d.setStandby on).reg off = d.reg off := rfl

@[simp] theorem Dev.roundFree_reg (d : Dev) (x : Rat) : (d.roundFree x).2.reg off = d.reg off := by
  unfold Dev.roundFree
  split <;> rfl

end NoRegister

/-! ### Operations that leave the spared registers -/

section Spares
variable {off : Nat} (hoff : Spared off)
include hoff

@[simp] theorem Dev.trkEvent_spares (d : Dev) (f : Fld) : (d.trkEvent f).reg off = d.reg off := by
  simp [Dev.trkEvent, hoff]

@[simp] theorem Dev.trkTo_spares (d : Dev) (x : Nat) : (d.trkTo x).reg off = d.reg off := by
  simp [Dev.trkTo, hoff]

@[simp] theorem Dev.trkQuit_spares (d : Dev) (x : Nat) (leave : Option Nat) : (d.trkQuit x leave).reg off = d.reg off := by
  cases leave <;> simp [Dev.trkQuit, hoff]

@[simp] theorem Dev.trkRoute_spares (d : Dev) : d.trkRoute.reg off = d.reg off := by
  simp [Dev.trkRoute, hoff]

@[simp] theorem Dev.laneAuth_spares (d : Dev) (p : Nat) : (d.laneAuth p).reg off = d.reg off := by
  unfold Dev.laneAuth
  dsimp only
  rw [Dev.trkRoute_spares hoff, Dev.trkSendOn_spares hoff, Dev.setFld_spares hoff _ (by simp), Dev.setTlane_spares hoff, Dev.freshBytes_reg]

@[simp] theorem Dev.trkEnterAuth_spares (d : Dev) : d.trkEnterAuth.reg off = d.reg off := by
  simp [Dev.trkEnterAuth, hoff]

@[simp] theorem Dev.trkBegin_spares (d : Dev) : d.trkBegin.reg off = d.reg off := by
  simp [Dev.trkBegin, hoff]

@[simp] theorem Dev.laneTo_spares (d : Dev) (p x : Nat) : (d.laneTo p x).reg off = d.reg off := by
  simp [Dev.laneTo, hoff]

@[simp] theorem Dev.trkLaneUp_spares (d : Dev) (p : Nat) : (d.trkLaneUp p).reg off = d.reg off := by
  simp [Dev.trkLaneUp, hoff]

@[simp] theorem Dev.coachUp_spares (d : Dev) (p : Nat) : (d.coachUp p).reg off = d.reg off := by
  simp [Dev.coachUp, hoff]

@[simp] theorem Dev.sipTo_spares (d : Dev) (p x : Nat) : (d.sipTo p x).reg off = d.reg off := by
  simp [Dev.sipTo, Dev.sipSource, hoff]

@[simp] theorem Dev.sipUp_spares (d : Dev) (p : Nat) : (d.sipUp p).reg off = d.reg off := by
  simp [Dev.sipUp, hoff]

/-- The ports of a quad go up, whatever their role (R414). -/
@[simp] theorem Dev.quadUp_spares (d : Dev) (q : Nat) : (d.quadUp q).reg off = d.reg off := by
  refine Dev.foldl_reg (fun d i => ?_) _ _
  dsimp only
  split <;> simp [hoff]

@[simp] theorem Dev.lineStatus_spares (d : Dev) (c : Nat) : (d.lineStatus c).reg off = d.reg off := by
  simp [Dev.lineStatus, hoff]

@[simp] theorem Dev.setStop_spares (d : Dev) (c a : Nat) (f : Fld) (v : Nat) : (d.setStop c a f v).reg off = d.reg off := by
  simp [Dev.setStop, hoff]

@[simp] theorem Dev.lineRemove_spares (d : Dev) (c a : Nat) : (d.lineRemove c a).reg off = d.reg off := by
  simp [Dev.lineRemove, hoff]

/-- A line's domain is reset: its table is emptied, and commands that it has read complete (R242, R253). -/
@[simp] theorem Dev.lineReset_spares (d : Dev) (c : Nat) (run : Bool) : (d.lineReset c run).reg off = d.reg off := by
  unfold Dev.lineReset
  dsimp only
  rw [Dev.lineStatus_spares hoff, Dev.setRlc_reg, Dev.foldl_reg (fun d a => Dev.setStop_spares hoff d c a _ _),
    Dev.foldl_reg (fun d e => Dev.lineRemove_spares hoff d c _)]
  refine Dev.foldl_reg (fun d j => ?_) _ _
  split <;> simp [hoff]

@[simp] theorem Dev.lineUp_spares (d : Dev) (c : Nat) : (d.lineUp c).reg off = d.reg off := by
  simp [Dev.lineUp, hoff]

@[simp] theorem Dev.bellRuns_spares (d : Dev) : d.bellRuns.reg off = d.reg off := by
  simp [Dev.bellRuns, hoff]

@[simp] theorem Dev.updateAdm_spares (d : Dev) : d.updateAdm.reg off = d.reg off := by
  obtain ⟨hclocks, hbytes, hslack⟩ := not_spared_admission
  have hround (d : Dev) (racing : Bool) (x : Rat) : (if racing = true then d.freshNat else d.roundFree x).2.reg off = d.reg off := by
    split <;> simp
  unfold Dev.updateAdm
  split
  · rfl
  · dsimp only
    split
    · rw [Dev.setReg_spares hoff _ hslack, Dev.setReg_spares hoff _ hbytes, hround, Dev.setReg_spares hoff _ hclocks, hround]
    · rw [Dev.setReg_spares hoff _ hslack, Dev.roundFree_reg, Dev.setReg_spares hoff _ hbytes, hround,
        Dev.setReg_spares hoff _ hclocks, hround]

end Spares

/-! ### The items of a waybill -/

section Low
variable {off : Nat} (hoff : off < Reg.WBL_SERIAL)
include hoff

/-- The registers of WBL that follow the waybill begin at `WBL_SERIAL` (Table 3.11). -/
theorem Dev.setWblRegs_low (d : Dev) (w : Waybill) : (d.setWblRegs w).reg off = d.reg off := by
  have hlow {a : Nat} (ha : Reg.WBL_SERIAL ≤ a) : off < a := hoff.trans_le ha
  have hset {a : Nat} (d : Dev) (v : Nat) (ha : Reg.WBL_SERIAL ≤ a) : (d.setReg a v).reg off = d.reg off :=
    d.setReg_reg_other v (hlow ha).ne
  unfold Dev.setWblRegs
  dsimp only
  simp only [Dev.setRegs_reg_other _ _ _ (.inl (hlow (show Reg.WBL_SERIAL ≤ Reg.WBL_PORT_ROLE 0 by decide))),
    Dev.setRegs_reg_other _ _ _ (.inl (hlow (show Reg.WBL_SERIAL ≤ Reg.WBL_PAIR_DIGEST 0 by decide))),
    Dev.setRegs_reg_other _ _ _ (.inl (hlow (show Reg.WBL_SERIAL ≤ Reg.WBL_DIGEST 0 by decide)))]
  rw [hset _ _ (by decide), hset _ _ (by decide), hset _ _ (by decide), hset _ _ (by decide), hset _ _ (by decide),
    hset _ _ (by decide), hset _ _ (by decide), hset _ _ (by decide)]

theorem Dev.setPartRegs_low (d : Dev) (w : Waybill) : (d.setPartRegs w).reg off = d.reg off := by
  refine Dev.foldl_reg (fun d q => ?_) _ _
  have hspan : off ≠ Reg.MEM_PART_SPAN q.1 := by
    simp only [Reg.WBL_SERIAL, Reg.MEM_PART_SPAN] at *
    omega
  have hkind : off ≠ Reg.MEM_PART_KIND q.1 := by
    simp only [Reg.WBL_SERIAL, Reg.MEM_PART_KIND] at *
    omega
  rw [Dev.setReg_reg_other _ _ hkind, Dev.setReg_reg_other _ _ hspan]

theorem Dev.setRingRegs_low (d : Dev) (w : Waybill) : (d.setRingRegs w).reg off = d.reg off := by
  refine Dev.foldl_reg (fun d e => Dev.foldl_reg (fun d k => Dev.setReg_reg_other _ _ ?_) _ _) _ _
  simp only [Reg.WBL_SERIAL, Reg.RNG_RS_CTRL] at *
  omega

theorem Dev.setTargetRegs_low (d : Dev) : d.setTargetRegs.reg off = d.reg off := by
  have hne (i : Nat) : off ≠ Reg.BEL_PG_SIZE i := by
    simp only [Reg.WBL_SERIAL, Reg.BEL_PG_SIZE] at *
    omega
  refine Dev.foldl_reg (fun d t => ?_) _ _
  rw [Dev.setReg_reg_other _ _ (hne _), Dev.setReg_reg_other _ _ (hne _)]

theorem Dev.applyWaybill_low (d : Dev) (w : Waybill) : (d.applyWaybill w).reg off = d.reg off := by
  have hsrc : off ≠ Reg.STK_SRC := (hoff.trans (by decide)).ne
  unfold Dev.applyWaybill
  dsimp only
  rw [Dev.ite_reg, Dev.setFld_reg_other _ _ _ hsrc, ite_self, Dev.setTargetRegs_low hoff, Dev.setRingRegs_low hoff,
    Dev.setPartRegs_low hoff, Dev.setWblRegs_low hoff]
  rfl

/-- A load outside a return from Rest ends with the registers below `WBL_SERIAL` as they were. -/
theorem Dev.waybillLoaded_low {d : Dev} (h : d.boot.fromRest = false) (w : Waybill) : (d.waybillLoaded w).reg off = d.reg off := by
  have hs : Spared off := .inl (hoff.trans (by decide))
  unfold Dev.waybillLoaded
  rw [h]
  simp only [Bool.false_eq_true, if_false]
  rw [Dev.foldl_reg (fun d q => by simp [hs]), Dev.foldl_reg (Dev.lineUp_spares hs), Dev.updateAdm_spares hs, Dev.trkBegin_spares hs,
    Dev.twnSettle_spares hs, Dev.bellRuns_spares hs, Dev.setStandby_reg, Dev.setFld_spares hs _ (by simp)]
  refine (Dev.foldl_reg (fun d p => ?_) _ _).trans (Dev.applyWaybill_low hoff d w)
  split <;> simp [hs]

end Low

/-! ### The boot sequence at the end of a load -/

theorem Dev.bellRuns_keeps {e d : Dev} (h : Dev.Keeps e d) : Dev.Keeps e d.bellRuns :=
  Dev.raiseIf_keeps (Dev.Keeps.foldl _ (h.withSdp (sdp := { d.sdp with restLatches := [] }) h.sec) fun _ _ h => Dev.raise_keeps h _) _ _

theorem Dev.applyWaybill_keeps (d : Dev) (w : Waybill) : Dev.Keeps { d with wb := w } (d.applyWaybill w) := by
  have hregs := Dev.setTargetRegs_keeps (Dev.setRingRegs_keeps (Dev.setPartRegs_keeps (Dev.setWblRegs_keeps
    (Dev.Keeps.refl { d with wb := w }) w) w) w)
  exact Dev.Keeps.ite (fun _ => Dev.setFld_keeps hregs _ _ _) fun _ => hregs

/-- Outside a return from Rest the end of a load puts the waybill in force and leaves the boot sequence where it is. -/
theorem Dev.waybillLoaded_keeps {d : Dev} (h : d.boot.fromRest = false) (w : Waybill) :
    Dev.Keeps { d with wb := w } (d.waybillLoaded w) := by
  unfold Dev.waybillLoaded
  rw [h]
  simp only [Bool.false_eq_true, if_false]
  refine Dev.Keeps.foldl _ (Dev.Keeps.foldl _ (Dev.updateAdm_keeps (Dev.trkBegin_keeps (Dev.twnSettle_keeps (Dev.bellRuns_keeps
    (Dev.setStandby_keeps (Dev.setFld_keeps (Dev.Keeps.foldl _ (d.applyWaybill_keeps w) fun d p hd => ?_) _ _ _) _)))))
    fun _ _ hd => Dev.lineUp_keeps hd _) fun _ _ hd => Dev.Keeps.ite (fun _ => Dev.quadUp_keeps hd _) fun _ => hd
  split
  · exact Dev.setReg_keeps hd _ _
  · exact Dev.setReg_keeps hd _ _
  · exact Dev.setReg_keeps hd _ _
  · exact hd

end Sys2Proof.Machine

/-! SUPPORT. The start of a waybill load, and the obligation about it (R76, R78, R80, R82, Table 3.14). -/

namespace Sys2Proof.Machine

/-! ### Frames that leave the boot sequence open -/

theorem Dev.OnlyRegs.mono {e d : Dev} {offs offs' : List Nat} (h : Dev.OnlyRegs e d offs) (hsub : offs ⊆ offs') :
    Dev.OnlyRegs e d offs' :=
  ⟨fun o ho => h.regs o fun hc => ho (hsub hc), h.rest⟩

/-- A frame does not speak of a boot sequence that both devices are given. -/
theorem Dev.OnlyRegs.withBoot {e d : Dev} {offs : List Nat} (h : Dev.OnlyRegs e d offs) (b : Boot) :
    Dev.OnlyRegs { e with boot := b } { d with boot := b } offs :=
  ⟨h.regs, congrArg (fun x : Dev => { x with boot := b }) h.rest⟩

theorem State.done_boot (s : State) (d : Dev) : (s.done d).dev.boot = d.boot := by simp

/-- The frame of a command that moves the boot sequence. -/
theorem State.done_bootFrame {s : State} {d : Dev} {offs : List Nat} (h : Dev.OnlyRegs { s.dev.quiet with boot := d.boot } d offs) :
    Dev.OnlyRegs { s.dev with boot := (s.done d).dev.boot } (s.done d).dev offs := by
  rw [State.done_boot]
  exact (Dev.OnlyRegs.of_quiet (e := { s.dev with boot := d.boot }) h).done s

theorem State.done_fld (s : State) (d : Dev) (a : Nat) (f : Fld) : (s.done d).dev.fld a f = d.fld a f := Dev.fld_congr (s.done_reg d a) f

theorem State.done_wblState (s : State) (d : Dev) : (s.done d).dev.wblState = d.wblState := s.done_fld d _ _

/-! ### Where a load stands -/

theorem Dev.setWblState_wblState (d : Dev) (x : Nat) : (d.setWblState x).wblState = x % 4 :=
  d.setFld_fld_same _ _ _ (by decide) (by decide)

/-- A load that starts is LOADING from its source, with an empty copy. -/
theorem Dev.startLoad_wblState (d : Dev) (src : LoadSource) : (d.startLoad src).wblState = 1 := d.setWblState_wblState 1

theorem Dev.startLoad_load (d : Dev) (src : LoadSource) : (d.startLoad src).boot.load = some src := rfl

theorem Dev.startLoad_frame {e d : Dev} {offs : List Nat} (h : Dev.OnlyRegs e d offs) (hm : Reg.WBL_STATUS ∈ offs) (src : LoadSource) :
    Dev.OnlyRegs { e with boot := (d.startLoad src).boot } (d.startLoad src) offs :=
  (h.setReg hm _).withBoot _

/-! ### A host load (R78, R82) -/

theorem exec_load {s : State} (h : s.dev.access Reg.WBL_CTRL = .normal Reg.WBL_CTRL) :
    exec .load s = .next (s.done s.dev.quiet.hostLoad) := by
  have h : s.dev.quiet.access Reg.WBL_CTRL = .normal Reg.WBL_CTRL := h
  exact congrArg (fun d => Host.Outcome.next (s.done d)) (Dev.onWrite_normal h Dev.hostLoad)

theorem leNat_lt (bs : List Byte) : leNat bs < 256 ^ bs.length := by
  induction bs with
  | nil => decide
  | cons b bs ih =>
    have hb := b.isLt
    rw [leNat, List.length_cons, pow_succ]
    omega

/-- The length that an image in memory is judged by: that of its header where it is one, and the header's else (R82). -/
def Dev.hostLength (d : Dev) (a : Nat) : Nat := if d.memNat a 4 == 0x4C425957 then max 256 (d.memNat (a + 8) 4) else 256

theorem Dev.hostLength_bounds (d : Dev) (a : Nat) : 256 ≤ d.hostLength a ∧ d.hostLength a < 2 ^ 32 := by
  have hlt : d.memNat (a + 8) 4 < 256 ^ 4 := by
    have h := leNat_lt (d.memRead (a + 8) 4)
    rwa [Dev.memRead, Tab.length_range] at h
  unfold Dev.hostLength
  split <;> omega

/-- The header of an image within software memory is read under the block check (R279). -/
def Dev.hostHeaderRead (d : Dev) (a : Nat) : Dev := if a + 256 ≤ memEnd then d.plainReads (blocksOf a 256) else d

theorem Dev.hostHeaderRead_whole {d : Dev} {a : Nat} (h : a + 256 ≤ memEnd → d.ReadsWhole (blocksOf a 256)) :
    Dev.OnlyRegs d (d.hostHeaderRead a) [Reg.MEM_STATUS] := by
  unfold Dev.hostHeaderRead
  split
  · next hin => exact Dev.plainReads_whole (h hin)
  · exact Dev.OnlyRegs.refl _ _

section HostLoad
variable {d : Dev}

theorem Dev.hostLoad_loaded (h : d.wblState = 2) : d.hostLoad = d.refuse Reg.WBL_BLKID wblAlreadyLoaded := by
  simp [Dev.hostLoad, h]

theorem Dev.hostLoad_loading (h : d.wblState = 1) : d.hostLoad = d.refuse Reg.WBL_BLKID wblLoadBusy := by
  simp [Dev.hostLoad, h]

/-- The device and the place that a load in EMPTY or FAILED is decided by. -/
theorem Dev.hostLoad_of_idle {a : Nat} (ha : d.pair Reg.WBL_HOST_ADDR_LO Reg.WBL_HOST_ADDR_HI = a) (h1 : d.wblState ≠ 1)
    (h2 : d.wblState ≠ 2) : d.hostLoad =
      if a % 4096 ≠ 0 ∨ memEnd < a + (d.hostHeaderRead a).hostLength a then (d.hostHeaderRead a).refuse Reg.WBL_BLKID wblHostAddr
      else (d.hostHeaderRead a).startLoad (.host a) := by
  unfold Dev.hostLoad
  rw [ha]
  simp [h1, h2, Dev.hostHeaderRead, Dev.hostLength]

end HostLoad

/-- A refused host load: what it tells, and its frame. -/
theorem load_refuses {s : State} {e : Dev} {reason : Nat} {offs : List Nat}
    (hexec : exec .load s = .next (s.done (e.refuse Reg.WBL_BLKID reason))) (hreason : reason < 2 ^ 16) (he : Dev.OnlyRegs s.dev e offs)
    (h4 : Reg.WBL_REFUSED ∉ offs) (h8 : Reg.WBL_REFUSED_CNT ∉ offs) :
    ∃ t, exec .load s = .next t ∧ Dev.Refused s.dev t.dev Reg.WBL_BLKID reason ∧
      Dev.OnlyRegs s.dev t.dev (Reg.WBL_REFUSED :: Reg.WBL_REFUSED_CNT :: offs) := by
  obtain ⟨hrefused, hframe⟩ := s.done_refuse Reg.WBL_BLKID hreason he h4 h8
  refine ⟨_, hexec, hrefused, hframe.mono fun o ho => ?_⟩
  simp only [List.mem_append, List.mem_cons, List.not_mem_nil, or_false] at ho ⊢
  rcases ho with ho | rfl | rfl
  · exact .inr (.inr ho)
  · exact .inl rfl
  · exact .inr (.inl rfl)

/-! ### The load that WBL starts by itself (R76, R80) -/

theorem exec_flashLoad (s : State) : exec .flashLoad s = .next (s.done s.dev.quiet.flashLoad) := rfl

section FlashLoad
variable {d : Dev}

theorem Dev.flashLoad_held (h : d.wblState ≠ 0 ∨ d.boot.wbl = false ∨ d.boot.flush = true) : d.flashLoad = d := by
  unfold Dev.flashLoad
  rw [if_pos]
  rcases h with h | h | h <;> simp [Dev.sequencing, h]

theorem Dev.flashLoad_boot (hwbl : d.boot.wbl = true) (hseq : d.sequencing = true) (h0 : d.wblState = 0) (hrest : d.boot.fromRest = false) :
    d.flashLoad = d.bootLoad := by
  simp [Dev.flashLoad, hwbl, hseq, h0, hrest]

/-- After Rest WBL reloads from the slot of the load before (R80). -/
theorem Dev.flashLoad_reload (hwbl : d.boot.wbl = true) (hseq : d.sequencing = true) (h0 : d.wblState = 0)
    (hrest : d.boot.fromRest = true) {src : LoadSource} (hsrc : d.boot.lastSource = some src) : d.flashLoad = d.startLoad src := by
  simp [Dev.flashLoad, hwbl, hseq, h0, hrest, hsrc]

theorem Dev.flashLoad_no_reload (hwbl : d.boot.wbl = true) (hseq : d.sequencing = true) (h0 : d.wblState = 0)
    (hrest : d.boot.fromRest = true) (hnone : d.boot.lastSource = none) : d.flashLoad = d.restDone.bootLoad := by
  simp [Dev.flashLoad, hwbl, hseq, h0, hrest, hnone]

theorem Dev.sequencing_of_run (hflush : d.boot.flush = false) (hpower : d.sdp.power ≠ 3) : d.sequencing = true := by
  simp [Dev.sequencing, hflush, hpower]

theorem Dev.sequencing_of_rest (hflush : d.boot.flush = false) (hrest : d.boot.fromRest = true) : d.sequencing = true := by
  simp [Dev.sequencing, hflush, hrest]

/-- `BOOTSEL` chooses slot A, slot B, or a load by the host, for which WBL waits (R459). -/
theorem Dev.bootLoad_slot {src : LoadSource} (h : d.boot.bootsel % 4 = 0 ∧ src = .slotA ∨ d.boot.bootsel % 4 = 1 ∧ src = .slotB) :
    d.bootLoad = d.startLoad src := by
  rcases h with ⟨h, rfl⟩ | ⟨h, rfl⟩ <;> simp [Dev.bootLoad, h]

theorem Dev.bootLoad_host (h : 2 ≤ d.boot.bootsel % 4) : d.bootLoad = d := by
  unfold Dev.bootLoad
  split
  · omega
  · omega
  · rfl

theorem Dev.bootLoad_cases (d : Dev) : d.bootLoad = d ∧ 2 ≤ d.boot.bootsel % 4 ∨
    ∃ src, d.bootLoad = d.startLoad src ∧ d.boot.bootsel % 4 < 2 := by
  by_cases hhost : 2 ≤ d.boot.bootsel % 4
  · exact .inl ⟨Dev.bootLoad_host hhost, hhost⟩
  · refine .inr ?_
    have hslot : d.boot.bootsel % 4 = 0 ∨ d.boot.bootsel % 4 = 1 := by omega
    rcases hslot with h | h
    · exact ⟨.slotA, Dev.bootLoad_slot (.inl ⟨h, rfl⟩), by omega⟩
    · exact ⟨.slotB, Dev.bootLoad_slot (.inr ⟨h, rfl⟩), by omega⟩

end FlashLoad

/-- WBL starts a load: LOADING from its source, in the frame of `WBL_STATUS`. -/
theorem flashLoad_starts {s : State} {src : LoadSource} (h : s.dev.quiet.flashLoad = s.dev.quiet.startLoad src) :
    ∃ t, exec .flashLoad s = .next t ∧ t.dev.wblState = 1 ∧ t.dev.boot.load = some src ∧
      Dev.OnlyRegs { s.dev with boot := t.dev.boot } t.dev [Reg.WBL_STATUS] := by
  refine ⟨_, h ▸ exec_flashLoad s, ?_, ?_, State.done_bootFrame ?_⟩
  · rw [State.done_wblState, Dev.startLoad_wblState]
  · rw [State.done_boot, Dev.startLoad_load]
  · exact Dev.startLoad_frame (Dev.OnlyRegs.refl _ _) (by simp) src

/-- WBL waits. -/
theorem flashLoad_waits {s : State} (h : s.dev.quiet.flashLoad = s.dev.quiet) :
    ∃ t, exec .flashLoad s = .next t ∧ Dev.OnlyRegs s.dev t.dev [] :=
  ⟨_, h ▸ exec_flashLoad s, s.done_quiet_onlyRegs⟩

/-! ### Run reached from Rest without a reload (log 31) -/

/-- Entering a power state writes no register of WBL. -/
theorem Dev.setPower_wblState (d : Dev) (x : Nat) : (d.setPower x).wblState = d.wblState := by
  have hs : Spared Reg.WBL_STATUS := .inl (by decide)
  refine Dev.fld_congr ?_ _
  unfold Dev.setPower
  split
  · rfl
  · dsimp only
    rw [Dev.raise_spares hs, Dev.sdpEvent, Dev.setFlag_reg_other _ _ (by decide)]
    split
    · exact Dev.count_reg_other _ (by decide)
    · exact Dev.count_reg_other _ (by decide)
    · exact Dev.count_reg_other _ (by decide)
    · rfl

/-- The state entered is the state that the device is then in, and nothing else of SDP moves. -/
theorem Dev.setPower_sdp (d : Dev) (x : Nat) : (d.setPower x).sdp = { d.sdp with power := x } := by
  unfold Dev.setPower
  split
  · next h =>
    have hx : d.sdp.power = x := by simpa using h
    rw [← hx]
  · dsimp only
    rw [Dev.raise_sdp, Dev.sdpEvent, Dev.setFlag_sdp]
    split <;> rfl

theorem Dev.restDone_boot (d : Dev) : d.restDone.boot = { d.boot with fromRest := false } :=
  (Dev.setPower_keeps (Dev.emit_keeps (Dev.Keeps.refl _) _) 0).boot

theorem Dev.restDone_sdp (d : Dev) : d.restDone.sdp = { d.sdp with waking := false, timerRunning := false, power := 0 } :=
  Dev.setPower_sdp _ 0

theorem Dev.restDone_wblState (d : Dev) : d.restDone.wblState = d.wblState := Dev.setPower_wblState _ 0

/-- With no load to repeat the device reaches Run, and `BOOTSEL` decides as after a reset. -/
theorem Dev.restDone_bootLoad (d : Dev) : d.restDone.bootLoad.sdp.power = 0 ∧ d.restDone.bootLoad.sdp.waking = false ∧
    d.restDone.bootLoad.boot.fromRest = false ∧ d.restDone.bootLoad.wblState = if d.boot.bootsel % 4 < 2 then 1 else d.wblState := by
  have hboot := d.restDone_boot
  have hsdp := d.restDone_sdp
  rcases d.restDone.bootLoad_cases with ⟨heq, hsel⟩ | ⟨src, heq, hsel⟩ <;> rw [hboot] at hsel <;> rw [heq]
  · rw [if_neg (Nat.not_lt.mpr hsel), Dev.restDone_wblState, hsdp, hboot]
    exact ⟨rfl, rfl, rfl, rfl⟩
  · have hstart : (d.restDone.startLoad src).sdp = d.restDone.sdp := rfl
    have hfrom : (d.restDone.startLoad src).boot.fromRest = d.restDone.boot.fromRest := rfl
    rw [if_pos hsel, Dev.startLoad_wblState, hstart, hfrom, hsdp, hboot]
    exact ⟨rfl, rfl, rfl, rfl⟩

/-! ### The obligation -/

/-- Settles O30: a host load by `WBL_STATUS.STATE`, then by the place of the image, whose length lies between 256 B and 4 GiB; a load by
WBL itself by `BOOTSEL`, or after Rest by the source of the load before. -/
theorem waybillLoadsStart : Obligations.WaybillLoadsStart := by
  unfold Obligations.WaybillLoadsStart
  intro s a
  have hquiet : Dev.OnlyRegs s.dev s.dev.quiet [] := (Dev.OnlyRegs.refl _ _).of_quiet
  refine ⟨fun hacc => ⟨fun h2 => ?_, fun h1 => ?_, fun h1 h2 hplace hwhole => ?_, fun h1 h2 halign hin hwhole => ?_⟩,
    fun hwbl hflush hpower h0 hrest => ?_, fun hwbl hflush h0 hrest => ?_, fun hheld => flashLoad_waits (Dev.flashLoad_held hheld)⟩
  · exact load_refuses (Dev.hostLoad_loaded (d := s.dev.quiet) h2 ▸ exec_load hacc) (by decide) hquiet (by simp) (by simp)
  · exact load_refuses (Dev.hostLoad_loading (d := s.dev.quiet) h1 ▸ exec_load hacc) (by decide) hquiet (by simp) (by simp)
  · have hlen := ((s.dev.quiet.hostHeaderRead a).hostLength_bounds a).1
    have hload := Dev.hostLoad_of_idle (d := s.dev.quiet) (a := a) rfl h1 h2
    rw [if_pos (by omega)] at hload
    exact load_refuses (hload ▸ exec_load hacc) (by decide) (Dev.hostHeaderRead_whole (d := s.dev.quiet) hwhole).of_quiet (by decide)
      (by decide)
  · have hlen := ((s.dev.quiet.hostHeaderRead a).hostLength_bounds a).2
    have hload := Dev.hostLoad_of_idle (d := s.dev.quiet) (a := a) rfl h1 h2
    rw [if_neg (by omega)] at hload
    have hread := (Dev.hostHeaderRead_whole (d := s.dev.quiet) fun _ => hwhole).mono (List.subset_cons_self Reg.WBL_STATUS _)
    refine ⟨_, hload ▸ exec_load hacc, ?_, ?_, ?_, State.done_bootFrame (Dev.startLoad_frame hread (by simp) _)⟩
    · rw [State.done_wblState, Dev.startLoad_wblState]
    · rw [State.done_boot, Dev.startLoad_load]
    · rw [State.done_boot]
      rfl
  · have hboot := Dev.flashLoad_boot (d := s.dev.quiet) hwbl (Dev.sequencing_of_run hflush hpower) h0 hrest
    exact ⟨fun src hsrc => flashLoad_starts (hboot.trans (Dev.bootLoad_slot hsrc)),
      fun hhost => flashLoad_waits (hboot.trans (Dev.bootLoad_host hhost))⟩
  · have hseq : s.dev.quiet.sequencing = true := Dev.sequencing_of_rest hflush hrest
    refine ⟨fun src hsrc => flashLoad_starts (Dev.flashLoad_reload (d := s.dev.quiet) hwbl hseq h0 hrest hsrc), fun hnone => ?_⟩
    · have hreload := Dev.flashLoad_no_reload (d := s.dev.quiet) hwbl hseq h0 hrest hnone
      obtain ⟨hpower, hwaking, hfrom, hstate⟩ := s.dev.quiet.restDone_bootLoad
      refine ⟨_, hreload ▸ exec_flashLoad s, ?_, ?_, ?_, ?_⟩
      · rw [State.done_power, hpower]
      · rw [State.done_dev, Dev.extest_sdp]
        exact hwaking
      · rw [State.done_boot, hfrom]
      · rw [State.done_wblState, hstate]
        exact congrArg (fun n => if s.dev.boot.bootsel % 4 < 2 then 1 else n) h0

end Sys2Proof.Machine

/-! SUPPORT. The course of a waybill load, and the obligation about it (R76 to R78, R279). -/

namespace Sys2Proof.Machine

/-! ### What a copy step reads (R77, R279) -/

/-- The bytes of an image rest on software memory and the flash. -/
theorem Dev.imageBytes_congr {d e : Dev} (hmem : d.mem = e.mem) (hflash : d.flash = e.flash) (src : LoadSource) (o n : Nat) :
    d.imageBytes src o n = e.imageBytes src o n := by
  cases src <;> simp only [Dev.imageBytes, Dev.flashRead, Dev.memRead, hmem, hflash]

/-- The writes of the copy into reserved memory wake controllers, and no more. -/
theorem Dev.reservedWakes_frame {e d : Dev} (h : Dev.OnlyRegs e d [Reg.MEM_STATUS]) (content : Nat) (blocks : List Nat) :
    Dev.OnlyRegs e (d.reservedWakes content blocks) [Reg.MEM_STATUS] := by
  have hwake (d : Dev) (hd : Dev.OnlyRegs e d [Reg.MEM_STATUS]) (b : Nat) : Dev.OnlyRegs e (d.reservedWake content b) [Reg.MEM_STATUS] := by
    unfold Dev.reservedWake
    split
    · exact hd
    · obtain ⟨v, hv | hv⟩ := d.memPowerUp_eq (reservedStack content b) <;> rw [hv]
      · exact hd
      · exact hd.setReg (by simp) v
  unfold Dev.reservedWakes
  split
  · exact h
  · exact List.foldlRecOn (motive := fun d => Dev.OnlyRegs e d [Reg.MEM_STATUS]) _ _ h fun d hd b _ => hwake d hd b

section Read
variable {d : Dev} {src : LoadSource} {o n : Nat} (h : ∀ a, src = .host a → d.ReadsWhole (blocksOf (a + o) n))
include h

/-- A copy step whose blocks pass their check wakes controllers, and no more. -/
theorem Dev.imageRead_frame : Dev.OnlyRegs d (d.imageRead src o n).2 [Reg.MEM_STATUS] := by
  unfold Dev.imageRead
  cases src with
  | slotA => exact Dev.reservedWakes_frame (Dev.OnlyRegs.refl _ _) _ _
  | slotB => exact Dev.reservedWakes_frame (Dev.OnlyRegs.refl _ _) _ _
  | host a => exact Dev.reservedWakes_frame (Dev.plainReads_whole (h a rfl)) _ _

/-- It copies the bytes that its source holds. -/
theorem Dev.imageRead_bytes : (d.imageRead src o n).1 = d.imageBytes src o n := by
  cases src with
  | slotA => rfl
  | slotB => rfl
  | host a =>
    have hread := (Dev.plainReads_whole (h a rfl)).rest
    have hmem : (d.plainReads (blocksOf (a + o) n)).mem = d.mem := (congrArg Dev.mem hread :)
    have hflash : (d.plainReads (blocksOf (a + o) n)).flash = d.flash := (congrArg Dev.flash hread :)
    exact Dev.imageBytes_congr hmem hflash (.host a) o n

end Read

/-! ### A load that fails (R76, R78) -/

/-- What the failure of a load from `src` leaves: slot B is tried after slot A, whose code is kept; else the load is FAILED with its
code. -/
def Dev.LoadFails (src : LoadSource) (code : Nat) (d : Dev) : Prop :=
  (src = .slotA → d.reg Reg.WBL_SLOT_A_ERROR = code % 2 ^ 32 ∧ d.boot.load = some .slotB ∧ d.wblState = 1) ∧
  (src ≠ .slotA → d.fld Reg.WBL_STATUS Fld.WBL_STATUS_ERROR = code % 2 ^ 8 ∧ d.boot.load = none ∧ d.wblState = 3)

/-- The end of a command leaves it. -/
theorem Dev.LoadFails.done {src : LoadSource} {code : Nat} {d : Dev} (h : Dev.LoadFails src code d) (s : State) :
    Dev.LoadFails src code (s.done d).dev := by
  unfold Dev.LoadFails
  rwa [State.done_reg, State.done_fld, State.done_boot, State.done_wblState]

/-- `WBL_STATUS` and `WBL_ERR_OFFSET` of a load that has failed for good. -/
def Dev.failureShown (d : Dev) (code off : Nat) : Dev :=
  ((d.setWblState 3).setFld Reg.WBL_STATUS Fld.WBL_STATUS_ERROR code).setReg Reg.WBL_ERR_OFFSET off

theorem Dev.withBoot_fld (d : Dev) (b : Boot) (a : Nat) (f : Fld) : ({ d with boot := b } : Dev).fld a f = d.fld a f := rfl

section Failed
variable {d : Dev} {src : LoadSource} (code off : Nat)

theorem Dev.loadFailed_slotA (h : d.boot.load = some .slotA) :
    d.loadFailed code off = (d.setReg Reg.WBL_SLOT_A_ERROR code).startLoad .slotB := by
  simp [Dev.loadFailed, h]

theorem Dev.failureShown_status (d : Dev) : (d.failureShown code off).wblState = 3 ∧
    (d.failureShown code off).fld Reg.WBL_STATUS Fld.WBL_STATUS_ERROR = code % 2 ^ 8 := by
  have hstatus : (d.failureShown code off).reg Reg.WBL_STATUS =
      ((d.setWblState 3).setFld Reg.WBL_STATUS Fld.WBL_STATUS_ERROR code).reg Reg.WBL_STATUS := Dev.setReg_reg_other _ _ (by decide)
  constructor
  · rw [Dev.wblState, Dev.fld_congr hstatus, Dev.setFld_fld_disjoint _ _ _ (by decide) (by decide) (by decide)]
    exact d.setWblState_wblState 3
  · rw [Dev.fld_congr hstatus]
    exact Dev.setFld_fld_same _ _ _ _ (by decide) (by decide)

theorem Dev.loadFailed_other (h : d.boot.load = some src) (hsrc : src ≠ .slotA) :
    d.loadFailed code off = { d.failureShown code off with boot := { d.boot with load := none, copy := [] } } := by
  unfold Dev.loadFailed
  rw [h]
  cases src with
  | slotA => exact absurd rfl hsrc
  | slotB => rfl
  | host a => rfl

theorem Dev.loadFailed_loadFails (h : d.boot.load = some src) : Dev.LoadFails src code (d.loadFailed code off) := by
  refine ⟨fun hA => ?_, fun hne => ?_⟩
  · subst hA
    rw [Dev.loadFailed_slotA code off h, Dev.startLoad_wblState, Dev.startLoad_load]
    refine ⟨?_, rfl, rfl⟩
    have hkeep := (d.setReg Reg.WBL_SLOT_A_ERROR code).setFld_reg_other (a := Reg.WBL_STATUS) (k := Reg.WBL_SLOT_A_ERROR)
      Fld.WBL_STATUS_STATE 1 (by decide)
    exact hkeep.trans (by rw [Dev.setReg_reg, if_pos rfl])
  · obtain ⟨hstate, herror⟩ := d.failureShown_status code off
    rw [Dev.loadFailed_other code off h hne]
    exact ⟨(Dev.withBoot_fld _ _ _ _).trans herror, rfl, (Dev.withBoot_fld _ _ _ _).trans hstate⟩

theorem Dev.loadFailed_fromRest (d : Dev) : (d.loadFailed code off).boot.fromRest = d.boot.fromRest := by
  unfold Dev.loadFailed
  split <;> rfl

/-- Outside a return from Rest a load that fails changes no waybill (R447). -/
theorem Dev.restLoadFailed_of_run (h : d.boot.fromRest = false) : d.restLoadFailed = d := by
  simp [Dev.restLoadFailed, h]

end Failed

/-- A command by which the load of a device fails: the waybill stays. -/
theorem State.load_fails {s : State} {c : Instr} {e : Dev} {src : LoadSource} {code off : Nat}
    (hexec : exec c s = .next (s.done (e.loadFailed code off).restLoadFailed)) (hkeep : Dev.Keeps s.dev.quiet e)
    (hload : s.dev.boot.load = some src) (hrest : s.dev.boot.fromRest = false) :
    ∃ t, exec c s = .next t ∧ t.dev.wb = s.dev.wb ∧ Dev.LoadFails src code t.dev := by
  have hrun : (e.loadFailed code off).boot.fromRest = false := by rw [Dev.loadFailed_fromRest, hkeep.boot, Dev.quiet_boot, hrest]
  have hfails : Dev.LoadFails src code (e.loadFailed code off) :=
    Dev.loadFailed_loadFails code off (by rw [hkeep.boot, Dev.quiet_boot, hload])
  rw [Dev.restLoadFailed_of_run hrun] at hexec
  refine ⟨_, hexec, ?_, hfails.done s⟩
  rw [State.done_dev, Dev.extest_wb, Dev.latchFault_wb, (Dev.loadFailed_fixed e code off).wb, hkeep.wb, Dev.quiet_wb]

/-! ### The header (R77) -/

theorem exec_headerCopyDone (s : State) (bad : Bool) :
    exec (.headerCopyDone bad) s = .next (s.done (s.dev.quiet.headerCopied bad).restLoadFailed) := rfl

/-- An image without the magic number is none (Table 3.9). -/
theorem checkHeader_noImage {img : List Byte} (h : imgNat img 0 4 ≠ 0x4C425957) : checkHeader img = .error (errNoImage, 0) := by
  simp [checkHeader, need, h, bind, Except.bind]

theorem checkHeader_format {img : List Byte} (h : imgNat img 0 4 = 0x4C425957) (hversion : imgNat img 4 2 ≠ 1) :
    checkHeader img = .error (errFormat, 4) := by
  simp [checkHeader, need, h, hversion, bind, Except.bind]

/-- A good header stays in the waybill copy. -/
def Dev.headerTaken (d : Dev) (h : List Byte) : Dev := { d with boot := { d.boot with copy := h } }

section Header
variable {d : Dev} {src : LoadSource} {bad : Bool} (hload : d.boot.load = some src) (hcopy : d.boot.copy = []) (hseq : d.sequencing = true)
include hload hcopy hseq

theorem Dev.headerCopied_unread (hfails : d.copyFails src bad = true) : d.headerCopied bad = d.loadFailed errFlash 0 := by
  simp [Dev.headerCopied, hload, hcopy, hseq, hfails]

variable (hfails : d.copyFails src bad = false) {r : List Byte × Dev} (hr : d.imageRead src 0 256 = r)
include hfails hr

theorem Dev.headerCopied_rejected {e : Nat × Nat} (hcheck : checkHeader r.1 = .error e) :
    d.headerCopied bad = r.2.loadFailed e.1 e.2 := by
  simp [Dev.headerCopied, hload, hcopy, hseq, hfails, hr, hcheck]

theorem Dev.headerCopied_accepted (hcheck : checkHeader r.1 = .ok ()) : d.headerCopied bad = r.2.headerTaken r.1 := by
  simp [Dev.headerCopied, Dev.headerTaken, hload, hcopy, hseq, hfails, hr, hcheck]

end Header

/-! ### The rest of the image (R77) -/

theorem exec_imageCopyDone (s : State) (bad : Bool) :
    exec (.imageCopyDone bad) s = .next (s.done (s.dev.quiet.imageDone bad)) := rfl

/-- The check of an image against what the device holds fused and the state it is in (R73, R74, R77). -/
def Dev.imageVerdict (d : Dev) (img : List Byte) : Except (Nat × Nat) Waybill :=
  checkImage img d.fuses.keyHash d.fuses.hashFused d.sdp.sec d.fuses.speed

theorem Dev.imageVerdict_congr {e d : Dev} (h : Dev.Keeps e d) (img : List Byte) : d.imageVerdict img = e.imageVerdict img := by
  rw [Dev.imageVerdict, h.fuses, h.sec, Dev.imageVerdict]

/-- A load that has passed its checks: `WBL_STATUS` shows LOADED with its source, and the copy is whole. -/
def Dev.imageTaken (d : Dev) (src : LoadSource) (img : List Byte) : Dev :=
  let fell := src == .slotB && d.reg Reg.WBL_SLOT_A_ERROR != 0
  let st := 2 + sourceCode src * 4 + (if bit (imgNat img 0x10 4) 0 then 0 else 16) + (if fell then 32 else 0)
  { d.setReg Reg.WBL_STATUS (st + d.fld Reg.WBL_STATUS Fld.WBL_STATUS_ERROR * 2 ^ 8) with
    boot := { d.boot with load := none, copy := img, lastSource := some src, inReset := none } }

theorem Dev.imageTaken_wblState (d : Dev) (src : LoadSource) (img : List Byte) : (d.imageTaken src img).wblState = 2 := by
  have hlow : ∀ st e : Nat, st % 4 = 2 → (st + e * 2 ^ 8) % 2 ^ 32 / 2 ^ 0 % 2 ^ 2 = 2 := fun st e h => by omega
  refine (congrArg Fld.WBL_STATUS_STATE.get (d.setReg_reg _ _ _)).trans ?_
  rw [if_pos rfl]
  refine hlow _ _ ?_
  split <;> split <;> omega

section Image
variable {d : Dev} {src : LoadSource} {bad : Bool} (hload : d.boot.load = some src) (hcopy : d.boot.copy ≠ [])
  (hseq : d.sequencing = true)
include hload hcopy hseq

theorem Dev.imageDone_unread (hfails : d.copyFails src bad = true) : d.imageDone bad = (d.loadFailed errFlash 256).restLoadFailed := by
  simp [Dev.imageDone, Dev.imageCopied, hload, hcopy, hseq, hfails]

variable (hfails : d.copyFails src bad = false) {r : List Byte × Dev} (hr : d.imageRead src 256 (imgNat d.boot.copy 8 4 - 256) = r)
include hfails hr

theorem Dev.imageDone_rejected {e : Nat × Nat} (hcheck : r.2.imageVerdict (d.boot.copy ++ r.1) = .error e) :
    d.imageDone bad = (r.2.loadFailed e.1 e.2).restLoadFailed := by
  rw [Dev.imageVerdict] at hcheck
  simp [Dev.imageDone, Dev.imageCopied, hload, hcopy, hseq, hfails, hr, hcheck]

theorem Dev.imageDone_accepted {w : Waybill} (hcheck : r.2.imageVerdict (d.boot.copy ++ r.1) = .ok w) :
    d.imageDone bad = (r.2.imageTaken src (d.boot.copy ++ r.1)).waybillLoaded w := by
  rw [Dev.imageVerdict] at hcheck
  simp [Dev.imageDone, Dev.imageCopied, Dev.imageTaken, hload, hcopy, hseq, hfails, hr, hcheck]

end Image

/-- The end of a load that has passed: the waybill is in force, `STATE` is LOADED, and no load or reset is under way. -/
theorem Dev.imageTaken_waybillLoaded {d : Dev} (hrest : d.boot.fromRest = false) (src : LoadSource) (img : List Byte) (w : Waybill) :
    ((d.imageTaken src img).waybillLoaded w).wb = w ∧ ((d.imageTaken src img).waybillLoaded w).wblState = 2 ∧
      ((d.imageTaken src img).waybillLoaded w).boot =
        { d.boot with load := none, copy := img, lastSource := some src, inReset := none } := by
  have hrun : (d.imageTaken src img).boot.fromRest = false := hrest
  have hkeeps := Dev.waybillLoaded_keeps hrun w
  refine ⟨hkeeps.wb, ?_, hkeeps.boot⟩
  rw [Dev.wblState, Dev.fld_congr (Dev.waybillLoaded_low (by decide) hrun w)]
  exact d.imageTaken_wblState src img

/-! ### The obligation -/

/-- Settles O31: a copy step that cannot be read or whose check fails ends the load with its code; a good header stays in the copy, and a
good image is put in force by operations that leave `WBL_STATUS` and the boot sequence alone. -/
theorem waybillLoadsEndLoadedOrFailed : Obligations.WaybillLoadsEndLoadedOrFailed := by
  unfold Obligations.WaybillLoadsEndLoadedOrFailed
  intro s src bad hload hrest hflush hpower failsAs h img
  have hload' : s.dev.quiet.boot.load = some src := hload
  have hseq : s.dev.quiet.sequencing = true := Dev.sequencing_of_run hflush hpower
  refine ⟨fun hcopy hfails => ?_, fun hcopy hfails hwhole => ?_, fun hcopy hfails => ?_, fun hcopy hfails hwhole => ?_⟩
  · exact State.load_fails (Dev.headerCopied_unread hload' hcopy hseq hfails ▸ exec_headerCopyDone s bad) (Dev.Keeps.refl _) hload hrest
  · have hbytes := Dev.imageRead_bytes (d := s.dev.quiet) (o := 0) hwhole
    have hframe := Dev.imageRead_frame (d := s.dev.quiet) (o := 0) hwhole
    have hkeeps := s.dev.quiet.imageRead_keeps src 0 256
    generalize hr : s.dev.quiet.imageRead src 0 256 = r at hbytes hframe hkeeps
    have hheader : r.1 = h := hbytes
    have hrejects {e : Nat × Nat} (hcheck : checkHeader h = .error e) : failsAs (.headerCopyDone bad) e.1 :=
      State.load_fails (Dev.headerCopied_rejected hload' hcopy hseq hfails hr (hheader ▸ hcheck) ▸ exec_headerCopyDone s bad) hkeeps
        hload hrest
    refine ⟨fun hmagic => hrejects (checkHeader_noImage hmagic), fun hmagic hversion => hrejects (checkHeader_format hmagic hversion),
      fun hcheck => ?_⟩
    have hrun : (r.2.headerTaken r.1).boot.fromRest = false := (congrArg Boot.fromRest hkeeps.boot).trans hrest
    have hexec := exec_headerCopyDone s bad
    rw [Dev.headerCopied_accepted hload' hcopy hseq hfails hr (hheader ▸ hcheck), Dev.restLoadFailed_of_run hrun] at hexec
    refine ⟨_, hexec, ?_, State.done_bootFrame (hframe.withBoot _)⟩
    rw [State.done_boot]
    exact hheader
  · exact State.load_fails (Dev.imageDone_unread hload' hcopy hseq hfails ▸ exec_imageCopyDone s bad) (Dev.Keeps.refl _) hload hrest
  · have hbytes := Dev.imageRead_bytes (d := s.dev.quiet) hwhole
    have hkeeps := s.dev.quiet.imageRead_keeps src 256 (imgNat s.dev.boot.copy 8 4 - 256)
    generalize hr : s.dev.quiet.imageRead src 256 (imgNat s.dev.boot.copy 8 4 - 256) = r at hbytes hkeeps
    have himg : s.dev.quiet.boot.copy ++ r.1 = img := congrArg (s.dev.boot.copy ++ ·) hbytes
    have hverdict : r.2.imageVerdict (s.dev.quiet.boot.copy ++ r.1) = s.dev.quiet.imageVerdict img := by
      rw [himg, Dev.imageVerdict_congr hkeeps]
    refine ⟨fun e hcheck => ?_, fun w hcheck => ?_⟩
    · exact State.load_fails (Dev.imageDone_rejected hload' hcopy hseq hfails hr (hverdict.trans hcheck) ▸ exec_imageCopyDone s bad)
        hkeeps hload hrest
    · have hrun : r.2.boot.fromRest = false := (congrArg Boot.fromRest hkeeps.boot).trans hrest
      obtain ⟨hwb, hstate, hboot⟩ := Dev.imageTaken_waybillLoaded hrun src img w
      have hexec := exec_imageCopyDone s bad
      rw [Dev.imageDone_accepted hload' hcopy hseq hfails hr (hverdict.trans hcheck), himg] at hexec
      refine ⟨_, hexec, ?_, ?_, ?_⟩
      · rw [State.done_dev, Dev.extest_wb, Dev.latchFault_wb, hwb]
      · rw [State.done_wblState, hstate]
      · rw [State.done_boot, hboot]
        exact ⟨rfl, rfl, rfl⟩

end Sys2Proof.Machine

/-! SUPPORT. Time of day, time code and capturing reads, and the obligation about them (R94, R99, R105, R172). -/

namespace Sys2Proof.Machine

/-! ### The TOD step (R94) -/

theorem exec_todStep {s : State} (h : s.dev.access Reg.STK_CTRL = .normal Reg.STK_CTRL) :
    exec .todStep s = .next (s.done s.dev.quiet.todStep) := by
  have hacc : s.dev.quiet.access Reg.STK_CTRL = .normal Reg.STK_CTRL := h
  exact congrArg (fun d => Host.Outcome.next (s.done d)) (Dev.onWrite_normal hacc _)

/-- The TOD that a step leaves, in 2^-40 ns: its signed seconds and nanoseconds are added, over the wrap of the seconds. -/
def Dev.todStepped (d : Dev) : Int :=
  ((d.stk.tod : Int) + (signed 32 (d.reg Reg.STK_TOD_STEP_SEC) * 1000000000 + signed 32 (d.reg Reg.STK_TOD_STEP_NS)) * 2 ^ 40) %
    (2 ^ 48 * 1000000000 * 2 ^ 40)

theorem Dev.todStepped_toNat (d : Dev) : (d.todStepped.toNat : Int) = d.todStepped :=
  Int.toNat_of_nonneg (Int.emod_nonneg _ (by decide))

theorem Dev.todStep_refused {d : Dev} (h : 999999999 < (signed 32 (d.reg Reg.STK_TOD_STEP_NS)).natAbs) :
    d.todStep = d.refuse Reg.STK_BLKID stkTodRange := if_pos h

theorem Dev.todStep_taken {d : Dev} (h : (signed 32 (d.reg Reg.STK_TOD_STEP_NS)).natAbs ≤ 999999999) :
    d.todStep = { d with stk := { d.stk with tod := d.todStepped.toNat } } := if_neg (Nat.not_lt.mpr h)

/-! ### Time code (R99) -/

/-- The device with the record of a good LTC frame, and with the counter of free values as the frame leaves it. -/
def Dev.ltcTaken (d : Dev) (free : Nat) (l : LtcRecord) : Dev := { d with free := free, stk := { d.stk with ltc := l } }

/-- A good LTC frame becomes the record, of the stroke whose tick came last before its bit 0; where none did, the stroke is the counter and
the offset free (log 9). -/
theorem Dev.ltcFrame_good {d : Dev} (h : d.wb.loaded = true) {data : Nat} (hdata : data < 2 ^ 64) (start rate : Nat) (rev : Bool) :
    ∃ free n off, d.ltcFrame data start rate rev true =
        (d.ltcTaken free ⟨data % 2 ^ 32, data / 2 ^ 32, n, off % 2 ^ 26, rate, rev, true⟩).raise 0x4005 ∧
      ∀ m time, d.stk.ticks.find? (fun x => x.2 ≤ start) = some (m, time) → n = m ∧ off = start - time := by
  have hhigh : data / 2 ^ 32 % 2 ^ 32 = data / 2 ^ 32 := Nat.mod_eq_of_lt (by omega)
  unfold Dev.ltcFrame Dev.loaded Dev.ltcTaken
  rw [h, hhigh]
  cases d.stk.ticks.find? fun x => x.2 ≤ start with
  | some x =>
    refine ⟨d.free, x.1, start - x.2, rfl, fun m time hx => ?_⟩
    obtain rfl : x = (m, time) := Option.some.inj hx
    exact ⟨rfl, rfl⟩
  | none => exact ⟨d.free + 1, d.stk.stroke, d.freshNat.1, rfl, fun m time hx => absurd hx (by simp)⟩

/-- The state that a good LTC frame leaves: the record, and source 0x4005 risen. -/
theorem State.ltcTaken_done (s : State) (free : Nat) (l : LtcRecord) :
    let t := s.done ((s.dev.quiet.ltcTaken free l).raise 0x4005)
    t.dev.stk = { s.dev.stk with ltc := l } ∧ t.dev.bel = (s.dev.raise 0x4005).bel ∧
      Dev.OnlyBell { s.dev with free := t.dev.free, stk := { s.dev.stk with ltc := l } } t.dev [] := by
  have hfree : (s.done ((s.dev.quiet.ltcTaken free l).raise 0x4005)).dev.free = free := by
    simp only [State.done_dev, Dev.extest_free, Dev.latchFault_free, Dev.raise_free, Dev.ltcTaken]
  have hframe := (Dev.OnlyRegs.refl (s.dev.quiet.ltcTaken free l) []).raise 0x4005
  refine ⟨?_, ?_, ?_⟩
  · simp only [State.done_dev, Dev.extest_stk, Dev.latchFault_stk, Dev.raise_stk, Dev.ltcTaken, Dev.quiet_stk]
  · rw [State.done_bel]
    exact Dev.raise_bel_congr (d := s.dev.quiet.ltcTaken free l) (e := s.dev) rfl rfl rfl rfl _
  · rw [hfree]
    exact (Dev.OnlyBell.of_quiet (e := s.dev.ltcTaken free l) hframe).done s

theorem Dev.ltcFrame_bad {d : Dev} (h : d.wb.loaded = true) (data start rate : Nat) (rev : Bool) :
    d.ltcFrame data start rate rev false = (d.stkEvent Fld.STK_EVENT_LTC_DROP).count Reg.STK_LTC_DROP_CNT := by
  unfold Dev.ltcFrame Dev.loaded
  rw [h]
  rfl

theorem exec_ltcFrame (s : State) (data : BitVec 64) (start : Nat) (rate : Fin 4) (rev good : Bool) :
    exec (.ltcFrame data start rate rev good) s = .next (s.done (s.dev.quiet.ltcFrame data.toNat start rate rev good)) := rfl

/-! ### Capturing reads (R105, R172) -/

/-- A read of a capturing register that Table 2.6 lets through: the word goes out, and of the device only the companions change. -/
theorem capturingRead_answers {s : State} (htap : s.dev.tap ≠ .extest) {n : Fin 6} {v : Nat} {d : Dev} {offs : List Nat}
    (hacc : s.dev.access (capturingReg n) = .normal (capturingReg n)) (hread : s.dev.quiet.capturingRead n = (v, d))
    (hout : d.out = []) (hframe : Dev.OnlyRegs s.dev.quiet d offs) : ∃ t, exec (.capturingRegisterRead n) s = .next t ∧
      t.dev.out = [.completion (BitVec.ofNat 32 v)] ∧ (∀ k, t.dev.reg k = d.reg k) ∧ Dev.OnlyRegs s.dev t.dev offs := by
  have hacc' : s.dev.quiet.access (capturingReg n) = .normal (capturingReg n) := hacc
  have hemit : s.dev.quiet.onRead (capturingReg n) (fun d => d.capturingRead n) = d.emit (.completion (BitVec.ofNat 32 v)) := by
    simp only [Dev.onRead, hacc', hread]
  have htap' : d.tap ≠ .extest := fun hc => htap ((congrArg Dev.tap hframe.rest).symm.trans hc)
  refine ⟨_, congrArg (fun d => Host.Outcome.next (s.done d)) hemit, ?_, fun k => State.done_reg s _ k, (hframe.emit _).of_quiet.done s⟩
  exact (State.done_out (d := d.emit _) htap' s).trans (congrArg (· ++ [_]) hout)

/-- `STK_LTC_WORD0` and its companions are five registers 4 B apart. -/
theorem Dev.captureLtc_eq (d : Dev) : d.captureLtc = (d.stk.ltc.word0,
    ((((d.setReg Reg.STK_LTC_WORD1 d.stk.ltc.word1).setReg Reg.STK_LTC_STROKE_LO (d.stk.ltc.stroke % 2 ^ 32)).setReg
      Reg.STK_LTC_STROKE_HI (d.stk.ltc.stroke / 2 ^ 32)).setReg Reg.STK_LTC_OFFSET d.stk.ltc.offset).setReg Reg.STK_LTC_STATUS
        (d.stk.ltc.rate * 4 + (if d.stk.ltc.reverse then 2 else 0) + if d.stk.ltc.valid then 1 else 0)) := rfl

/-- The fields of `STK_LTC_STATUS` as the capture puts them together. -/
theorem ltcStatus_fields {rate : Nat} (hrate : rate < 4) (rev valid : Bool) :
    let v := rate * 4 + (if rev then 2 else 0) + if valid then 1 else 0
    v % 2 ^ 32 = v ∧ Fld.STK_LTC_STATUS_RATE.get v = rate ∧ (Fld.STK_LTC_STATUS_REVERSE.get v == 1) = rev ∧
      (Fld.STK_LTC_STATUS_VALID.get v == 1) = valid := by
  interval_cases rate <;> cases rev <;> cases valid <;> decide

section Capture
variable (d : Dev)

theorem Dev.captureStroke_frame : Dev.OnlyRegs d d.captureStroke.2
    [Reg.STK_STROKE_HI, Reg.STK_CFRAME_LO, Reg.STK_CFRAME_HI, Reg.STK_POSITION] :=
  ((((Dev.OnlyRegs.refl d _).setReg (by decide) _).setReg (by decide) _).setReg (by decide) _).setReg (by decide) _

theorem Dev.captureStroke_reads (hs : d.stk.stroke < 2 ^ 48) (hc : d.stk.cframe < 2 ^ 48) (hp : d.stk.phase < 16) :
    d.captureStroke.2.reg Reg.STK_STROKE_HI = d.stk.stroke / 2 ^ 32 ∧ d.captureStroke.2.reg Reg.STK_CFRAME_LO = d.stk.cframe % 2 ^ 32 ∧
      d.captureStroke.2.reg Reg.STK_CFRAME_HI = d.stk.cframe / 2 ^ 32 ∧ d.captureStroke.2.reg Reg.STK_POSITION = d.stk.phase := by
  simp [Dev.captureStroke, Dev.setReg_reg, Reg.STK_STROKE_HI, Reg.STK_CFRAME_LO, Reg.STK_CFRAME_HI, Reg.STK_POSITION]
  omega

theorem Dev.captureTod_frame : Dev.OnlyRegs d d.captureTod.2 [Reg.STK_TOD_SEC_LO, Reg.STK_TOD_SEC_HI] :=
  ((Dev.OnlyRegs.refl d _).setReg (by decide) _).setReg (by decide) _

theorem Dev.captureTod_reads : d.captureTod.2.reg Reg.STK_TOD_SEC_LO = d.stk.tod / 2 ^ 40 / 1000000000 % 2 ^ 32 ∧
    d.captureTod.2.reg Reg.STK_TOD_SEC_HI = d.stk.tod / 2 ^ 40 / 1000000000 % 2 ^ 48 / 2 ^ 32 := by
  simp [Dev.captureTod, Dev.setReg_reg, Reg.STK_TOD_SEC_LO, Reg.STK_TOD_SEC_HI, Dev.todSec, Dev.todNs, two48]
  omega

theorem Dev.captureLtc_frame : Dev.OnlyRegs d d.captureLtc.2
    [Reg.STK_LTC_WORD1, Reg.STK_LTC_STROKE_LO, Reg.STK_LTC_STROKE_HI, Reg.STK_LTC_OFFSET, Reg.STK_LTC_STATUS] :=
  (((((Dev.OnlyRegs.refl d _).setReg (by decide) _).setReg (by decide) _).setReg (by decide) _).setReg (by decide) _).setReg (by decide) _

theorem Dev.captureLtc_reads (hw : d.stk.ltc.word1 < 2 ^ 32) (hs : d.stk.ltc.stroke < 2 ^ 48) (ho : d.stk.ltc.offset < 2 ^ 26)
    (hr : d.stk.ltc.rate < 4) :
    d.captureLtc.2.reg Reg.STK_LTC_WORD1 = d.stk.ltc.word1 ∧ d.captureLtc.2.reg Reg.STK_LTC_STROKE_LO = d.stk.ltc.stroke % 2 ^ 32 ∧
      d.captureLtc.2.reg Reg.STK_LTC_STROKE_HI = d.stk.ltc.stroke / 2 ^ 32 ∧ d.captureLtc.2.reg Reg.STK_LTC_OFFSET = d.stk.ltc.offset ∧
      d.captureLtc.2.fld Reg.STK_LTC_STATUS Fld.STK_LTC_STATUS_RATE = d.stk.ltc.rate ∧
      d.captureLtc.2.flag Reg.STK_LTC_STATUS Fld.STK_LTC_STATUS_REVERSE = d.stk.ltc.reverse ∧
      d.captureLtc.2.flag Reg.STK_LTC_STATUS Fld.STK_LTC_STATUS_VALID = d.stk.ltc.valid := by
  obtain ⟨hfit, hrate, hrev, hvalid⟩ := ltcStatus_fields hr d.stk.ltc.reverse d.stk.ltc.valid
  have hstatus : d.captureLtc.2.reg Reg.STK_LTC_STATUS =
      d.stk.ltc.rate * 4 + (if d.stk.ltc.reverse then 2 else 0) + if d.stk.ltc.valid then 1 else 0 := by
    rw [Dev.captureLtc_eq, Dev.setReg_reg, if_pos rfl, hfit]
  simp only [Dev.flag, Dev.fld, hstatus, hrate, hrev, hvalid]
  simp [Dev.captureLtc_eq, Dev.setReg_reg, Reg.STK_LTC_WORD1, Reg.STK_LTC_STROKE_LO, Reg.STK_LTC_STROKE_HI, Reg.STK_LTC_OFFSET,
    Reg.STK_LTC_STATUS]
  omega

end Capture

/-- Settles O44: a TOD step, an LTC frame and a capturing read each by what its operation makes of the device, within its frame. -/
theorem capturingReadsTakeTheirCompanions : Obligations.CapturingReadsTakeTheirCompanions := by
  unfold Obligations.CapturingReadsTakeTheirCompanions
  intro s htap ns sec
  refine ⟨fun hacc => ⟨fun hrange => ?_, fun hrange => ?_⟩, fun data start rate rev hload => ⟨?_, ?_⟩, fun hacc hs hc hp => ?_, fun hacc => ?_,
    fun hacc hw hs ho hr => ?_, fun hacc hs => ?_, fun hacc hs => ?_, fun hacc hs => ?_⟩
  · have hexec := exec_todStep hacc
    rw [Dev.todStep_refused (d := s.dev.quiet) hrange] at hexec
    exact ⟨_, hexec, s.done_refuse (e := s.dev.quiet) Reg.STK_BLKID (reason := stkTodRange) (by decide) (Dev.OnlyRegs.refl _ _).of_quiet
      List.not_mem_nil List.not_mem_nil⟩
  · have hexec := exec_todStep hacc
    rw [Dev.todStep_taken (d := s.dev.quiet) hrange] at hexec
    refine ⟨_, hexec, ?_, ?_⟩
    · simp only [State.done_dev, Dev.extest_stk, Dev.latchFault_stk, Dev.todStepped_toNat]
      rfl
    · simp only [State.done_dev, Dev.extest_stk, Dev.latchFault_stk]
      exact Dev.OnlyRegs.done (Dev.OnlyRegs.refl _ _).of_quiet s
  · obtain ⟨free, n, off, htaken, htick⟩ := Dev.ltcFrame_good (d := s.dev.quiet) hload data.isLt start rate rev
    have hexec := exec_ltcFrame s data start rate rev true
    rw [htaken] at hexec
    obtain ⟨hstk, hbel, hframe⟩ := s.ltcTaken_done free ⟨data.toNat % 2 ^ 32, data.toNat / 2 ^ 32, n, off % 2 ^ 26, rate, rev, true⟩
    refine ⟨_, hexec, ?_⟩
    rw [hstk]
    refine ⟨rfl, rfl, rfl, rfl, rfl, fun m time hx => ?_, hbel, hframe⟩
    obtain ⟨rfl, rfl⟩ := htick m time hx
    exact ⟨rfl, rfl⟩
  · have hexec := exec_ltcFrame s data start rate rev false
    rw [Dev.ltcFrame_bad (d := s.dev.quiet) hload] at hexec
    refine ⟨_, hexec, ?_, ?_, ?_⟩
    · rw [State.done_flag, Dev.flag_congr (Dev.count_reg_other _ (by decide))]
      exact Dev.setFlag_flag_same _ _ _ rfl (by decide)
    · rw [State.done_reg, Dev.count_reg, if_pos rfl, Dev.stkEvent, Dev.setFlag_reg_other _ _ (by decide), Dev.quiet_reg]
    · exact (((Dev.OnlyRegs.refl _ _).setReg (by simp) _).setReg (by simp) _).of_quiet.done s
  · obtain ⟨t, hexec, hout, hreg, hframe⟩ := capturingRead_answers (n := 0) htap hacc rfl rfl s.dev.quiet.captureStroke_frame
    obtain ⟨hstroke, hlow, hhigh, hphase⟩ := s.dev.quiet.captureStroke_reads hs hc hp
    exact ⟨t, hexec, hout, (hreg _).trans hstroke, (hreg _).trans hlow, (hreg _).trans hhigh, (hreg _).trans hphase, hframe⟩
  · obtain ⟨t, hexec, hout, hreg, hframe⟩ := capturingRead_answers (n := 1) htap hacc rfl rfl s.dev.quiet.captureTod_frame
    obtain ⟨hlow, hhigh⟩ := s.dev.quiet.captureTod_reads
    exact ⟨t, hexec, hout, (hreg _).trans hlow, (hreg _).trans hhigh, hframe⟩
  · obtain ⟨t, hexec, hout, hreg, hframe⟩ := capturingRead_answers (n := 2) htap hacc rfl rfl s.dev.quiet.captureLtc_frame
    obtain ⟨hword, hlow, hhigh, hoff, hrate, hrev, hvalid⟩ := s.dev.quiet.captureLtc_reads hw hs ho hr
    exact ⟨t, hexec, hout, (hreg _).trans hword, (hreg _).trans hlow, (hreg _).trans hhigh, (hreg _).trans hoff,
      (Dev.fld_congr (hreg _) _).trans hrate, (Dev.flag_congr (hreg _) _).trans hrev, (Dev.flag_congr (hreg _) _).trans hvalid, hframe⟩
  · obtain ⟨t, hexec, hout, hreg, hframe⟩ := capturingRead_answers (n := 3) (offs := [Reg.PRT_DEAL_STROKE_HI, Reg.PRT_DEAL_COUNT])
      htap hacc rfl rfl (((Dev.OnlyRegs.refl _ _).setReg List.mem_cons_self _).setReg (List.mem_cons_of_mem _ List.mem_cons_self) _)
    refine ⟨t, hexec, hout, (hreg _).trans ?_, (hreg _).trans ?_, hframe⟩
    · rw [Dev.setReg_reg_other _ _ (by decide), Dev.setReg_reg, if_pos rfl]
      exact Nat.mod_eq_of_lt (Nat.div_lt_of_lt_mul (lt_trans hs (by decide)))
    · rw [Dev.setReg_reg, if_pos rfl]
      exact Nat.mod_eq_of_lt ((Nat.mod_lt _ (by decide)).trans (by decide))
  · obtain ⟨t, hexec, hout, hreg, hframe⟩ := capturingRead_answers (n := 4) htap hacc rfl rfl
      ((Dev.OnlyRegs.refl _ _).setReg List.mem_cons_self _)
    refine ⟨t, hexec, hout, (hreg _).trans ?_, hframe⟩
    rw [Dev.setReg_reg, if_pos rfl]
    exact Nat.mod_eq_of_lt (Nat.div_lt_of_lt_mul (lt_trans hs (by decide)))
  · obtain ⟨t, hexec, hout, hreg, hframe⟩ := capturingRead_answers (n := 5) htap hacc rfl rfl
      ((Dev.OnlyRegs.refl _ _).setReg List.mem_cons_self _)
    refine ⟨t, hexec, hout, (hreg _).trans ?_, hframe⟩
    rw [Dev.setReg_reg, if_pos rfl]
    exact Nat.mod_eq_of_lt (Nat.div_lt_of_lt_mul (lt_trans hs (by decide)))

end Sys2Proof.Machine

/-! SUPPORT. The lock loop and its transitions, and the obligation about them (R93, R96, R97, Table 4.4). -/

namespace Sys2Proof.Machine

/-! ### Time that passes -/

/-- Clock pulses leave, and the device is as it was. -/
theorem Dev.clockPulses_eq (d : Dev) (src : Nat) : ∃ out, d.clockPulses src = { d with out := out } := by
  refine List.foldlRecOn (motive := fun e : Dev => ∃ out, e = { d with out := out }) _ _ ⟨_, rfl⟩ fun e he n _ => ?_
  obtain ⟨out, rfl⟩ := he
  split
  · split
    · exact ⟨_, rfl⟩
    · exact ⟨_, rfl⟩
  · exact ⟨_, rfl⟩

/-- As time passes the time of day goes on and pulses leave (R94, R415). -/
theorem Dev.advance_eq (d : Dev) (t : Nat) :
    ∃ now tod out, d.advance t = { d with now := now, out := out, stk := { d.stk with tod := tod } } := by
  unfold Dev.advance
  split
  · exact ⟨d.now, d.stk.tod, d.out, rfl⟩
  · refine List.foldlRecOn
      (motive := fun e : Dev => ∃ now tod out, e = { d with now := now, out := out, stk := { d.stk with tod := tod } }) _ _
      ⟨_, _, _, rfl⟩ fun e he n _ => ?_
    obtain ⟨now, tod, out, rfl⟩ := he
    obtain ⟨out', h⟩ := Dev.clockPulses_eq { d with now := now, out := out, stk := { d.stk with tod := tod } } 3
    exact ⟨now, tod, out', h⟩

theorem Dev.advanceSc_eq (d : Dev) (t : Rat) :
    ∃ now tod out, d.advanceSc t = { d with now := now, out := out, stk := { d.stk with tod := tod } } := d.advance_eq _

/-! ### HOLDOVER (Table 4.4) -/

theorem Dev.enterHoldover_reg (d : Dev) (via : Bool) (k : Nat) :
    (d.enterHoldover via).reg k = if k = Reg.STK_HOLDOVER_CNT then min (d.reg Reg.STK_HOLDOVER_CNT + 1) 0xFFFFFFFF else d.reg k :=
  d.count_reg _ _

theorem Dev.lockLost_stk (d : Dev) : d.lockLost.stk = { d.stk with lock := 3, viaAcq := false } := by
  rw [Dev.lockLost, Dev.raise_stk]
  rfl

/-- Beside the Bellboard's count, a loss of lock touches its own count and `STK_EVENT`. -/
theorem Dev.lockLost_reg_other (d : Dev) {k : Nat} (hbell : k ≠ Reg.BEL_UNROUTED_CNT) (hevent : k ≠ Reg.STK_EVENT)
    (hcnt : k ≠ Reg.STK_HOLDOVER_CNT) : d.lockLost.reg k = d.reg k := by
  rw [Dev.lockLost, Dev.raise_reg_other _ _ hbell, Dev.stkEvent, Dev.setFlag_reg_other _ _ hevent, Dev.enterHoldover_reg, if_neg hcnt]

theorem Dev.lockLost_counts (d : Dev) : d.lockLost.reg Reg.STK_HOLDOVER_CNT = min (d.reg Reg.STK_HOLDOVER_CNT + 1) 0xFFFFFFFF := by
  rw [Dev.lockLost, Dev.raise_reg_other _ _ (by decide), Dev.stkEvent, Dev.setFlag_reg_other _ _ (by decide), Dev.enterHoldover_reg,
    if_pos rfl]

theorem Dev.lockLost_event (d : Dev) : d.lockLost.flag Reg.STK_EVENT Fld.STK_EVENT_LOCK_LOST = true := by
  rw [Dev.lockLost, Dev.flag_congr (Dev.raise_reg_other _ _ (by decide))]
  exact Dev.setFlag_flag_same _ _ _ rfl (by decide)

/-- The other flags of `STK_EVENT` stay. -/
theorem Dev.lockLost_flag_other (d : Dev) {f : Fld} (h : f.hi < Fld.STK_EVENT_LOCK_LOST.lo ∨ Fld.STK_EVENT_LOCK_LOST.hi < f.lo) :
    d.lockLost.flag Reg.STK_EVENT f = d.flag Reg.STK_EVENT f := by
  rw [Dev.lockLost, Dev.flag_congr (Dev.raise_reg_other _ _ (by decide)), Dev.flag, Dev.flag, Dev.stkEvent,
    Dev.setFlag_fld_disjoint _ _ (by decide) (by decide) h, Dev.fld_congr ((d.enterHoldover_reg false _).trans (if_neg (by decide)))]

/-! ### The loop at a reference instant (R96) -/

theorem Dev.referenceAt_idle {d : Dev} (h : d.stk.running = false ∨ d.stk.lock = 0) (t : Rat) : d.referenceAt t = d := by
  unfold Dev.referenceAt
  rcases h with h | h <;> simp [h]

/-- The device at an instant of time `t`, before the loop moves. -/
def Dev.atInstant (d : Dev) (t : Rat) : Dev := { d.advanceSc t with stk := { (d.advanceSc t).stk with lastRef := t } }

/-- What the first instant in ACQUIRE does: the boundaries to come move onto it, and the loop begins anew. -/
def Dev.alignOnto (d : Dev) (t : Rat) : Dev :=
  let e := d.lengthen (ratMod (t + (d.live.shutter : Nat) - d.boundary (d.stk.frame + 1)) d.live.period)
  let e := (e.setRate 0).stkEvent Fld.STK_EVENT_ALIGN
  { e with stk := { e.stk with aligned := true, good := 0, f := 0 } }

/-- The error of an instant of time `t` (R96). -/
def Dev.refError (d : Dev) (t : Rat) : Rat := t + (d.live.shutter : Nat) - d.nearestBoundary (t + (d.live.shutter : Nat))

/-- The device with the error `x` of an instant in `STK_ERROR`. -/
def Dev.showError (d : Dev) (x : Rat) : Dev := d.setReg Reg.STK_ERROR (toTwos 32 (clampInt (-(2 ^ 31 - 1)) (2 ^ 31 - 1) (rne x)))

/-- The run of good instants with one of error `x`, before it saturates. -/
def Dev.goodRun (d : Dev) (x : Rat) : Nat := if x.abs ≤ (d.lockWindow : Nat) then d.stk.good + 1 else 0

/-- Whether the loop follows its reference: `f` and `r` take the error up in ACQUIRE and LOCKED only. -/
def Dev.follows (d : Dev) : Bool := d.stk.lock == 2 || d.stk.lock == 1

/-- The `f` that the loop takes from an instant of error `x`, with the period `T`. -/
def Dev.followedF (d : Dev) (T x : Rat) : Int := if d.follows then rne ((d.stk.f : Rat) + x * 2 ^ 40 / (16 * T)) else d.stk.f

/-- The `r` that the loop takes from an instant of error `x`, with the period `T`. -/
def Dev.followedR (d : Dev) (T x : Rat) : Int :=
  if d.follows then clampInt (-d.slew) d.slew (rne ((d.followedF T x : Rat) + x * 2 ^ 40 / (2 * T)))
  else clampInt (-d.slew) d.slew (d.followedF T x)

/-- What the loop makes of an instant of error `x`, the transitions of Table 4.4 aside. -/
def Dev.track (d : Dev) (T x : Rat) : Dev :=
  let e := d.setRate (d.followedR T x)
  { e with stk := { e.stk with good := min (d.goodRun x) 15, f := d.followedF T x } }

theorem Dev.track_reg (d : Dev) (T x : Rat) (k : Nat) : (d.track T x).reg k = d.reg k := rfl

/-- The transitions of Table 4.4 at an instant whose error lies within the window or not, after a run of good ones. -/
def Dev.lockTransition (d : Dev) (inWindow : Prop) [Decidable inWindow] (good : Nat) : Dev :=
  if d.stk.lock == 2 then (if inWindow then d else d.lockLost)
  else if d.lockCount ≤ good then { d.raise 0x4003 with stk := { d.stk with lock := 2, viaAcq := false } } else d

theorem Dev.atInstant_eq (d : Dev) (t : Rat) : ∃ now tod out,
    d.atInstant t = { d with now := now, out := out, stk := { d.stk with tod := tod, lastRef := t } } := by
  obtain ⟨now, tod, out, h⟩ := d.advanceSc_eq t
  exact ⟨now, tod, out, by rw [Dev.atInstant, h]⟩

theorem Dev.atInstant_lock (d : Dev) (t : Rat) : (d.atInstant t).stk.lock = d.stk.lock := by
  obtain ⟨now, tod, out, h⟩ := d.atInstant_eq t
  rw [h]

theorem Dev.atInstant_aligned (d : Dev) (t : Rat) : (d.atInstant t).stk.aligned = d.stk.aligned := by
  obtain ⟨now, tod, out, h⟩ := d.atInstant_eq t
  rw [h]

theorem Dev.referenceAt_runs {d : Dev} (hrun : d.stk.running = true) (hlock : d.stk.lock ≠ 0) :
    ¬(!d.stk.running || d.stk.lock == 0) = true := by simp [hrun, hlock]

theorem Dev.referenceAt_aligns {d : Dev} (hrun : d.stk.running = true) (hlock : d.stk.lock = 1) (haligned : d.stk.aligned = false)
    (t : Rat) : d.referenceAt t = (d.atInstant t).alignOnto t := by
  have hacq : ((d.atInstant t).stk.lock == 1 && !(d.atInstant t).stk.aligned) = true := by
    rw [d.atInstant_lock, d.atInstant_aligned, hlock, haligned]
    rfl
  exact (if_neg (Dev.referenceAt_runs hrun (by simp [hlock]))).trans (if_pos hacq)

theorem Dev.referenceAt_tracks {d : Dev} (hrun : d.stk.running = true) (hlock : d.stk.lock ≠ 0)
    (h : d.stk.lock ≠ 1 ∨ d.stk.aligned = true) (t : Rat) :
    let x := (d.atInstant t).refError t
    let e := (d.atInstant t).showError x
    d.referenceAt t = (e.track (d.atInstant t).live.period x).lockTransition (x.abs ≤ (e.lockWindow : Nat)) (e.goodRun x) := by
  have hacq : ¬((d.atInstant t).stk.lock == 1 && !(d.atInstant t).stk.aligned) = true := by
    rw [d.atInstant_lock, d.atInstant_aligned]
    rcases h with h | h <;> simp [h]
  exact (if_neg (Dev.referenceAt_runs hrun hlock)).trans (if_neg hacq)

theorem Dev.atInstant_refError (d : Dev) (t : Rat) : (d.atInstant t).refError t = d.refError t := by
  obtain ⟨now, tod, out, h⟩ := d.atInstant_eq t
  rw [h]
  rfl

theorem Dev.atInstant_live (d : Dev) (t : Rat) : (d.atInstant t).live = d.live := by
  obtain ⟨now, tod, out, h⟩ := d.atInstant_eq t
  rw [h]
  rfl

theorem Dev.shown_reg (d : Dev) (t x : Rat) (k : Nat) : ((d.atInstant t).showError x).reg k =
    if k = Reg.STK_ERROR then toTwos 32 (clampInt (-(2 ^ 31 - 1)) (2 ^ 31 - 1) (rne x)) else d.reg k := by
  obtain ⟨now, tod, out, h⟩ := d.atInstant_eq t
  rw [h, Dev.showError, Dev.setReg_reg, Nat.mod_eq_of_lt (toTwos_lt 32 _)]
  rfl

/-- The fields of `STK_LOCK` are what they were as the loop shows its error. -/
theorem Dev.shown_lockFld (d : Dev) (t x : Rat) (f : Fld) : ((d.atInstant t).showError x).fld Reg.STK_LOCK f = d.fld Reg.STK_LOCK f :=
  Dev.fld_congr ((d.shown_reg t x _).trans (if_neg (by decide))) f

theorem Dev.shown_slew (d : Dev) (t x : Rat) : ((d.atInstant t).showError x).slew = d.slew := by
  rw [Dev.slew, Dev.slew, Dev.shown_lockFld]

theorem Dev.shown_lockWindow (d : Dev) (t x : Rat) : ((d.atInstant t).showError x).lockWindow = d.lockWindow := by
  rw [Dev.lockWindow, Dev.lockWindow, Dev.shown_lockFld]

theorem Dev.shown_lockCount (d : Dev) (t x : Rat) : ((d.atInstant t).showError x).lockCount = d.lockCount := by
  rw [Dev.lockCount, Dev.lockCount, Dev.shown_lockFld]

theorem Dev.shown_stk (d : Dev) (t x : Rat) : ∃ tod, ((d.atInstant t).showError x).stk = { d.stk with tod := tod, lastRef := t } := by
  obtain ⟨now, tod, out, h⟩ := d.atInstant_eq t
  exact ⟨tod, by rw [h]; rfl⟩

/-- The loop at an instant of time `t`, the transitions of Table 4.4 aside. -/
def Dev.trackAt (d : Dev) (t : Rat) : Dev := ((d.atInstant t).showError (d.refError t)).track d.live.period (d.refError t)

theorem Dev.trackAt_reg (d : Dev) (t : Rat) (k : Nat) : (d.trackAt t).reg k =
    if k = Reg.STK_ERROR then toTwos 32 (clampInt (-(2 ^ 31 - 1)) (2 ^ 31 - 1) (rne (d.refError t))) else d.reg k :=
  (((d.atInstant t).showError _).track_reg _ _ k).trans (d.shown_reg t _ k)

theorem Dev.shown_goodRun (d : Dev) (t x : Rat) : ((d.atInstant t).showError x).goodRun x = d.goodRun x := by
  obtain ⟨tod, hstk⟩ := d.shown_stk t x
  rw [Dev.goodRun, Dev.goodRun, Dev.shown_lockWindow, hstk]

theorem Dev.shown_follows (d : Dev) (t x : Rat) : ((d.atInstant t).showError x).follows = d.follows := by
  obtain ⟨tod, hstk⟩ := d.shown_stk t x
  rw [Dev.follows, Dev.follows, hstk]

theorem Dev.shown_followedF (d : Dev) (t T x : Rat) : ((d.atInstant t).showError x).followedF T x = d.followedF T x := by
  obtain ⟨tod, hstk⟩ := d.shown_stk t x
  rw [Dev.followedF, Dev.followedF, Dev.shown_follows, hstk]

theorem Dev.shown_followedR (d : Dev) (t T x : Rat) : ((d.atInstant t).showError x).followedR T x = d.followedR T x := by
  rw [Dev.followedR, Dev.followedR, Dev.shown_follows, Dev.shown_followedF, Dev.shown_slew]

theorem Dev.trackAt_good (d : Dev) (t : Rat) : (d.trackAt t).stk.good = min (d.goodRun (d.refError t)) 15 :=
  congrArg (min · 15) (d.shown_goodRun t _)

theorem Dev.trackAt_f (d : Dev) (t : Rat) : (d.trackAt t).stk.f = d.followedF d.live.period (d.refError t) := d.shown_followedF t _ _

theorem Dev.trackAt_r (d : Dev) (t : Rat) : (d.trackAt t).stk.r = d.followedR d.live.period (d.refError t) := d.shown_followedR t _ _

theorem Dev.trackAt_b0 (d : Dev) (t : Rat) : (d.trackAt t).stk.b0 = d.stk.b0 := by
  obtain ⟨tod, hstk⟩ := d.shown_stk t (d.refError t)
  exact congrArg (·.b0) hstk

theorem Dev.trackAt_lock (d : Dev) (t : Rat) : (d.trackAt t).stk.lock = d.stk.lock := by
  obtain ⟨tod, hstk⟩ := d.shown_stk t (d.refError t)
  exact congrArg (·.lock) hstk

theorem Dev.trackAt_lockCount (d : Dev) (t : Rat) : (d.trackAt t).lockCount = d.lockCount := by
  rw [Dev.lockCount, Dev.lockCount, Dev.fld_congr ((d.trackAt_reg t _).trans (if_neg (by decide)))]

/-- In LOCKED the window decides, and elsewhere the run of good instants. -/
theorem Dev.referenceAt_moves {d : Dev} (hrun : d.stk.running = true) (hlock : d.stk.lock ≠ 0)
    (h : d.stk.lock ≠ 1 ∨ d.stk.aligned = true) (t : Rat) :
    d.referenceAt t = (d.trackAt t).lockTransition ((d.refError t).abs ≤ (d.lockWindow : Nat)) (d.goodRun (d.refError t)) := by
  have htracks := Dev.referenceAt_tracks hrun hlock h t
  simp only [d.atInstant_refError, d.atInstant_live, d.shown_lockWindow, d.shown_goodRun] at htracks
  exact htracks

/-! ### The transitions of Table 4.4 -/

section
variable {d : Dev} {inWindow : Prop} [Decidable inWindow] {good : Nat}

theorem Dev.lockTransition_holds (hlock : d.stk.lock = 2) (h : inWindow) : d.lockTransition inWindow good = d :=
  (if_pos (beq_iff_eq.mpr hlock)).trans (if_pos h)

theorem Dev.lockTransition_loses (hlock : d.stk.lock = 2) (h : ¬inWindow) : d.lockTransition inWindow good = d.lockLost :=
  (if_pos (beq_iff_eq.mpr hlock)).trans (if_neg h)

theorem Dev.lockTransition_locks (hlock : d.stk.lock ≠ 2) (h : d.lockCount ≤ good) :
    d.lockTransition inWindow good = { d.raise 0x4003 with stk := { d.stk with lock := 2, viaAcq := false } } :=
  (if_neg (mt beq_iff_eq.mp hlock)).trans (if_pos h)

theorem Dev.lockTransition_stays (hlock : d.stk.lock ≠ 2) (h : good < d.lockCount) : d.lockTransition inWindow good = d :=
  (if_neg (mt beq_iff_eq.mp hlock)).trans (if_neg (Nat.not_le.mpr h))

/-- A transition moves the lock state, and leaves the loop's own values. -/
theorem Dev.lockTransition_stk (d : Dev) (inWindow : Prop) [Decidable inWindow] (good : Nat) :
    ∃ lock viaAcq, (d.lockTransition inWindow good).stk = { d.stk with lock := lock, viaAcq := viaAcq } := by
  by_cases hlock : d.stk.lock = 2
  · by_cases hin : inWindow
    · exact ⟨_, _, by rw [Dev.lockTransition_holds hlock hin]⟩
    · exact ⟨_, _, by rw [Dev.lockTransition_loses hlock hin, Dev.lockLost_stk]⟩
  · by_cases hgood : d.lockCount ≤ good
    · exact ⟨_, _, by rw [Dev.lockTransition_locks hlock hgood]⟩
    · exact ⟨_, _, by rw [Dev.lockTransition_stays hlock (Nat.not_le.mp hgood)]⟩

theorem Dev.lockTransition_error (d : Dev) (inWindow : Prop) [Decidable inWindow] (good : Nat) :
    (d.lockTransition inWindow good).reg Reg.STK_ERROR = d.reg Reg.STK_ERROR := by
  by_cases hlock : d.stk.lock = 2
  · by_cases hin : inWindow
    · rw [Dev.lockTransition_holds hlock hin]
    · rw [Dev.lockTransition_loses hlock hin, Dev.lockLost_reg_other _ (by decide) (by decide) (by decide)]
  · by_cases hgood : d.lockCount ≤ good
    · rw [Dev.lockTransition_locks hlock hgood]
      exact d.raise_reg_other _ (by decide)
    · rw [Dev.lockTransition_stays hlock (Nat.not_le.mp hgood)]

end

/-! ### What an instant leaves (R96) -/

theorem Dev.follows_iff {d : Dev} : d.follows = true ↔ d.stk.lock = 2 ∨ d.stk.lock = 1 := by simp [Dev.follows]

theorem Dev.followedF_follows {d : Dev} (h : d.stk.lock = 2 ∨ d.stk.lock = 1) (T x : Rat) :
    d.followedF T x = rne ((d.stk.f : Rat) + x * 2 ^ 40 / (16 * T)) := if_pos (Dev.follows_iff.mpr h)

theorem Dev.followedF_stays {d : Dev} (h : ¬(d.stk.lock = 2 ∨ d.stk.lock = 1)) (T x : Rat) : d.followedF T x = d.stk.f :=
  if_neg (mt Dev.follows_iff.mp h)

theorem Dev.followedR_follows {d : Dev} (h : d.stk.lock = 2 ∨ d.stk.lock = 1) (T x : Rat) :
    d.followedR T x = clampInt (-d.slew) d.slew (rne ((d.followedF T x : Rat) + x * 2 ^ 40 / (2 * T))) :=
  if_pos (Dev.follows_iff.mpr h)

theorem Dev.followedR_stays {d : Dev} (h : ¬(d.stk.lock = 2 ∨ d.stk.lock = 1)) (T x : Rat) :
    d.followedR T x = clampInt (-d.slew) d.slew d.stk.f := by
  rw [Dev.followedR, if_neg (mt Dev.follows_iff.mp h), Dev.followedF_stays h]

theorem Dev.alignOnto_loop (d : Dev) (t : Rat) : (d.alignOnto t).stk.aligned = true ∧ (d.alignOnto t).stk.good = 0 ∧
    (d.alignOnto t).stk.f = 0 ∧ (d.alignOnto t).stk.r = 0 ∧ (d.alignOnto t).stk.lock = d.stk.lock := ⟨rfl, rfl, rfl, rfl, rfl⟩

theorem Dev.alignOnto_b0 (d : Dev) (t : Rat) : (d.alignOnto t).stk.b0 =
    d.stk.b0 + ratMod (t + (d.live.shutter : Nat) - d.boundary (d.stk.frame + 1)) d.live.period := rfl

theorem Dev.alignOnto_event (d : Dev) (t : Rat) : (d.alignOnto t).flag Reg.STK_EVENT Fld.STK_EVENT_ALIGN = true :=
  Dev.setFlag_flag_same ((d.lengthen (ratMod (t + (d.live.shutter : Nat) - d.boundary (d.stk.frame + 1)) d.live.period)).setRate 0)
    Reg.STK_EVENT Fld.STK_EVENT_ALIGN rfl (by decide)

/-- The boundary that an alignment moves is that of the device as it was: time that passes moves none. -/
theorem Dev.atInstant_alignOnto_b0 (d : Dev) (t : Rat) : ((d.atInstant t).alignOnto t).stk.b0 =
    d.stk.b0 + ratMod (t + (d.live.shutter : Nat) - d.boundary (d.stk.frame + 1)) d.live.period := by
  obtain ⟨now, tod, out, h⟩ := d.atInstant_eq t
  rw [Dev.alignOnto_b0, h]
  rfl

section
variable {d : Dev} (hrun : d.stk.running = true) (hlock : d.stk.lock ≠ 0) (h : d.stk.lock ≠ 1 ∨ d.stk.aligned = true) (t : Rat)
include hrun hlock h

/-- The loop's own values after an instant. -/
theorem Dev.referenceAt_loop : (d.referenceAt t).stk.good = min (d.goodRun (d.refError t)) 15 ∧ (d.referenceAt t).stk.b0 = d.stk.b0 ∧
    (d.referenceAt t).stk.f = d.followedF d.live.period (d.refError t) ∧
    (d.referenceAt t).stk.r = d.followedR d.live.period (d.refError t) := by
  obtain ⟨lock, viaAcq, hstk⟩ :=
    (d.trackAt t).lockTransition_stk ((d.refError t).abs ≤ (d.lockWindow : Nat)) (d.goodRun (d.refError t))
  rw [Dev.referenceAt_moves hrun hlock h, hstk]
  exact ⟨d.trackAt_good t, d.trackAt_b0 t, d.trackAt_f t, d.trackAt_r t⟩

theorem Dev.referenceAt_error : (d.referenceAt t).reg Reg.STK_ERROR =
    toTwos 32 (clampInt (-(2 ^ 31 - 1)) (2 ^ 31 - 1) (rne (d.refError t))) := by
  rw [Dev.referenceAt_moves hrun hlock h, Dev.lockTransition_error, Dev.trackAt_reg, if_pos rfl]

theorem Dev.referenceAt_holds (hlocked : d.stk.lock = 2) (hin : (d.refError t).abs ≤ (d.lockWindow : Nat)) :
    (d.referenceAt t).stk.lock = 2 := by
  have hkept := (d.trackAt_lock t).trans hlocked
  rw [Dev.referenceAt_moves hrun hlock h, Dev.lockTransition_holds hkept hin, hkept]

theorem Dev.referenceAt_loses (hlocked : d.stk.lock = 2) (hout : ¬(d.refError t).abs ≤ (d.lockWindow : Nat)) :
    (d.referenceAt t).stk.lock = 3 ∧ (d.referenceAt t).reg Reg.STK_HOLDOVER_CNT = min (d.reg Reg.STK_HOLDOVER_CNT + 1) 0xFFFFFFFF ∧
      (d.referenceAt t).flag Reg.STK_EVENT Fld.STK_EVENT_LOCK_LOST = true := by
  rw [Dev.referenceAt_moves hrun hlock h, Dev.lockTransition_loses ((d.trackAt_lock t).trans hlocked) hout, Dev.lockLost_stk,
    Dev.lockLost_counts, Dev.trackAt_reg, if_neg (by decide)]
  exact ⟨rfl, rfl, Dev.lockLost_event _⟩

theorem Dev.referenceAt_locks (hunlocked : d.stk.lock ≠ 2) (hgood : d.lockCount ≤ d.goodRun (d.refError t)) :
    (d.referenceAt t).stk.lock = 2 := by
  rw [Dev.referenceAt_moves hrun hlock h,
    Dev.lockTransition_locks (ne_of_eq_of_ne (d.trackAt_lock t) hunlocked) (by rwa [Dev.trackAt_lockCount])]

theorem Dev.referenceAt_stays (hunlocked : d.stk.lock ≠ 2) (hgood : d.goodRun (d.refError t) < d.lockCount) :
    (d.referenceAt t).stk.lock = d.stk.lock := by
  rw [Dev.referenceAt_moves hrun hlock h,
    Dev.lockTransition_stays (ne_of_eq_of_ne (d.trackAt_lock t) hunlocked) (by rwa [Dev.trackAt_lockCount]), Dev.trackAt_lock]

end

/-! ### Which instants count (R95) -/

/-- The source that `STK_SRC` selects. -/
def Dev.lockSource (d : Dev) : Nat := d.fld Reg.STK_SRC Fld.STK_SRC_SRC

/-- The device as an instant that counts finds it: with SYNC the count of sync frames begins anew. -/
def Dev.syncCounted (d : Dev) : Dev := { d with stk := { d.stk with syncFrames := if d.lockSource = 2 then 0 else d.stk.syncFrames } }

/-- The stroke-clock time of an instant that the source reports at `time`. -/
def Dev.instantOf (d : Dev) (time : Rat) : Rat := if d.lockSource = 1 then d.ptpInstant time else time

theorem Dev.syncCounted_sync {d : Dev} (h : d.lockSource = 2) : d.syncCounted = { d with stk := { d.stk with syncFrames := 0 } } := by
  rw [Dev.syncCounted, if_pos h]

theorem Dev.syncCounted_other {d : Dev} (h : d.lockSource ≠ 2) : d.syncCounted = d := by
  rw [Dev.syncCounted, if_neg h]

theorem Dev.referenceInstant_due {d : Dev} (h : d.lockSource = 2 → d.fld Reg.STK_SRC Fld.STK_SRC_SYNC_DIV ≤ d.stk.syncFrames)
    (time : Rat) : d.referenceInstant time = d.syncCounted.referenceAt (d.instantOf time) := by
  unfold Dev.referenceInstant
  split
  next hptp =>
    rw [Dev.syncCounted_other (ne_of_eq_of_ne hptp (by decide))]
    exact congrArg d.referenceAt (if_pos hptp).symm
  next hsync =>
    rw [if_neg (Nat.not_lt.mpr (h hsync)), Dev.syncCounted_sync hsync]
    exact congrArg _ (if_neg (ne_of_eq_of_ne hsync (by decide))).symm
  next hptp hsync =>
    rw [Dev.syncCounted_other hsync]
    exact congrArg d.referenceAt (if_neg hptp).symm

theorem Dev.referenceInstant_counts {d : Dev} (hsrc : d.lockSource = 2)
    (h : d.stk.syncFrames < d.fld Reg.STK_SRC Fld.STK_SRC_SYNC_DIV) (time : Rat) : d.referenceInstant time =
      { d.advanceSc time with stk := { (d.advanceSc time).stk with syncFrames := d.stk.syncFrames + 1 } } := by
  have hsrc' : d.fld Reg.STK_SRC Fld.STK_SRC_SRC = 2 := hsrc
  unfold Dev.referenceInstant
  rw [hsrc']
  exact if_pos h

/-! ### A missing instant, and the limit of ACQUIRE (Table 4.4) -/

/-- What a missing instant does before LOCKED is lost. -/
def Dev.missed (d : Dev) : Dev :=
  let expected := d.stk.lastRef + d.live.period * d.refFrames
  let e := d.advanceSc (expected + 3 / 2 * (d.live.period * d.refFrames))
  let e := { e with stk := { e.stk with lastRef := expected } }
  let e := ((e.stkEvent Fld.STK_EVENT_MISSING).count Reg.STK_MISSING_CNT).raise 0x4007
  { e with stk := { e.stk with good := 0 } }

theorem Dev.missingInstant_missed {d : Dev} (hrun : d.stk.running = true) (hlock : d.stk.lock ≠ 0) (haligned : d.stk.aligned = true)
    (hsrc : d.lockSource = 2 ∨ d.lockSource = 3) :
    d.missingInstant = if d.missed.stk.lock == 2 then d.missed.lockLost else d.missed := by
  have hexpected : ¬(!d.stk.running || d.stk.lock == 0 || !d.stk.aligned || !(d.lockSource == 2 || d.lockSource == 3)) = true := by
    rcases hsrc with h | h <;> simp [hrun, hlock, haligned, h]
  exact if_neg hexpected

theorem Dev.missingInstant_idle {d : Dev}
    (h : d.stk.running = false ∨ d.stk.lock = 0 ∨ d.stk.aligned = false ∨ d.lockSource ≠ 2 ∧ d.lockSource ≠ 3) :
    d.missingInstant = d := by
  have hidle : (!d.stk.running || d.stk.lock == 0 || !d.stk.aligned || !(d.lockSource == 2 || d.lockSource == 3)) = true := by
    rcases h with h | h | h | ⟨h2, h3⟩ <;> simp [*]
  exact if_pos hidle

theorem Dev.missed_reg (d : Dev) {k : Nat} (hbell : k ≠ Reg.BEL_UNROUTED_CNT) :
    d.missed.reg k = ((d.stkEvent Fld.STK_EVENT_MISSING).count Reg.STK_MISSING_CNT).reg k := by
  obtain ⟨now, tod, out, h⟩ := d.advanceSc_eq (d.stk.lastRef + d.live.period * d.refFrames + 3 / 2 * (d.live.period * d.refFrames))
  refine (Dev.raise_reg_other _ _ hbell).trans ?_
  rw [h]
  rfl

theorem Dev.missed_counts (d : Dev) : d.missed.reg Reg.STK_MISSING_CNT = min (d.reg Reg.STK_MISSING_CNT + 1) 0xFFFFFFFF := by
  rw [d.missed_reg (by decide), Dev.count_reg, if_pos rfl, Dev.stkEvent, Dev.setFlag_reg_other _ _ (by decide)]

theorem Dev.missed_event (d : Dev) : d.missed.flag Reg.STK_EVENT Fld.STK_EVENT_MISSING = true := by
  rw [Dev.flag_congr ((d.missed_reg (by decide)).trans (Dev.count_reg_other _ (by decide)))]
  exact Dev.setFlag_flag_same _ _ _ rfl (by decide)

theorem Dev.missed_good (d : Dev) : d.missed.stk.good = 0 := rfl

theorem Dev.missed_lock (d : Dev) : d.missed.stk.lock = d.stk.lock := by
  obtain ⟨now, tod, out, h⟩ := d.advanceSc_eq (d.stk.lastRef + d.live.period * d.refFrames + 3 / 2 * (d.live.period * d.refFrames))
  refine (congrArg (·.lock) (Dev.raise_stk _ _)).trans ?_
  rw [h]
  rfl

theorem Dev.acqTimeout_expires {d : Dev} (hlock : d.stk.lock = 1) (hlimit : d.fld Reg.STK_LOCK Fld.STK_LOCK_ACQ_LIMIT ≠ 0)
    (hframes : d.fld Reg.STK_LOCK Fld.STK_LOCK_ACQ_LIMIT ≤ d.stk.acqFrames) :
    d.acqTimeout = ((d.enterHoldover true).stkEvent Fld.STK_EVENT_ACQ_TIMEOUT).raise 0x4006 := by
  refine if_pos ?_
  simp [hlock, hlimit, hframes]

theorem Dev.acqTimeout_idle {d : Dev} (h : d.stk.lock ≠ 1) : d.acqTimeout = d := by
  refine if_neg ?_
  simp [h]

/-! ### A write of STK_SRC (R93) -/

/-- The count of sync frames, and the wait for the next instant, begin as `STK_SRC` is written. -/
def Dev.sourceBegins (d : Dev) : Dev := { d with stk := { d.stk with syncFrames := 0, lastRef := d.scNow } }

/-- FREE is selected (Table 4.4). -/
def Dev.sourceFree (d : Dev) : Dev :=
  if d.stk.lock == 0 then d else { d.setRate 0 with stk := { (d.setRate 0).stk with lock := 0 } }

/-- HOLDOVER from LOCKED; HOLDOVER stays, and is no longer that of `ACQ_LIMIT`. -/
def Dev.sourceHoldover (d : Dev) : Dev :=
  if d.stk.lock == 2 then d.enterHoldover false else { d with stk := { d.stk with viaAcq := false } }

/-- Another source than FREE is selected (Table 4.4). -/
def Dev.sourceReference (d : Dev) : Dev :=
  if d.stk.lock == 1 then { d with stk := { d.stk with aligned := false } }
  else if d.stk.lock == 0 then { d.enterHoldover false with stk := { (d.enterHoldover false).stk with f := 0, good := 0 } }
  else { d.sourceHoldover with stk := { d.sourceHoldover.stk with good := 0 } }

/-- What another source, or another of the fields in use, does. -/
def Dev.sourceChanged (d : Dev) (free : Bool) : Dev := if free then d.sourceBegins.sourceFree else d.sourceBegins.sourceReference

theorem Dev.writeStkSrc_refused {d : Dev} {v : Nat} (h : d.sourceAllowed v = false) :
    d.writeStkSrc v = d.refuse Reg.STK_BLKID stkSource := by
  refine if_pos ?_
  rw [h]
  rfl

theorem Dev.writeStkSrc_taken {d : Dev} {v : Nat} (h : d.sourceAllowed v = true) :
    d.writeStkSrc v = if srcUsed (d.reg Reg.STK_SRC) == srcUsed v then d.genericWrite Reg.STK_SRC v
      else (d.genericWrite Reg.STK_SRC v).sourceChanged (Fld.STK_SRC_SRC.get v == 0) := by
  refine if_neg ?_
  rw [h]
  decide

/-- A write that selects another source changes what is in use. -/
theorem Dev.writeStkSrc_changes {d : Dev} {v : Nat} (h : d.sourceAllowed v = true) (hsrc : d.lockSource ≠ Fld.STK_SRC_SRC.get v) :
    d.writeStkSrc v = (d.genericWrite Reg.STK_SRC v).sourceChanged (Fld.STK_SRC_SRC.get v == 0) := by
  have hused : ¬(srcUsed (d.reg Reg.STK_SRC) == srcUsed v) = true := fun hc =>
    hsrc (List.cons.inj (beq_iff_eq.mp hc)).1
  rw [Dev.writeStkSrc_taken h, if_neg hused]

theorem Dev.sourceFree_reg (d : Dev) (k : Nat) : d.sourceFree.reg k = d.reg k := by
  unfold Dev.sourceFree
  split
  · rfl
  · rfl

theorem Dev.sourceHoldover_reg (d : Dev) {k : Nat} (h : k ≠ Reg.STK_HOLDOVER_CNT) : d.sourceHoldover.reg k = d.reg k := by
  unfold Dev.sourceHoldover
  split
  · exact (d.enterHoldover_reg _ _).trans (if_neg h)
  · rfl

theorem Dev.sourceReference_reg (d : Dev) {k : Nat} (h : k ≠ Reg.STK_HOLDOVER_CNT) : d.sourceReference.reg k = d.reg k := by
  unfold Dev.sourceReference
  split
  · rfl
  · split
    · exact (d.enterHoldover_reg false _).trans (if_neg h)
    · exact d.sourceHoldover_reg h

theorem Dev.sourceChanged_reg (d : Dev) (free : Bool) {k : Nat} (h : k ≠ Reg.STK_HOLDOVER_CNT) :
    (d.sourceChanged free).reg k = d.reg k := by
  cases free with
  | false => exact d.sourceBegins.sourceReference_reg h
  | true => exact d.sourceBegins.sourceFree_reg k

theorem Dev.sourceFree_lock (d : Dev) : d.sourceFree.stk.lock = 0 := by
  unfold Dev.sourceFree
  split
  next h => exact beq_iff_eq.mp h
  next => rfl

theorem Dev.sourceReference_acquire {d : Dev} (h : d.stk.lock = 1) :
    d.sourceReference = { d with stk := { d.stk with aligned := false } } := if_pos (beq_iff_eq.mpr h)

theorem Dev.sourceHoldover_lock {d : Dev} (h : d.stk.lock = 2 ∨ d.stk.lock = 3) : d.sourceHoldover.stk.lock = 3 := by
  unfold Dev.sourceHoldover
  split
  next => rfl
  next hne => exact h.resolve_left (mt beq_iff_eq.mpr hne)

/-- Every state but ACQUIRE goes to HOLDOVER, with no good instant. -/
theorem Dev.sourceReference_holdover {d : Dev} (hle : d.stk.lock ≤ 3) (h : d.stk.lock ≠ 1) :
    d.sourceReference.stk.lock = 3 ∧ d.sourceReference.stk.good = 0 := by
  unfold Dev.sourceReference
  rw [if_neg (mt beq_iff_eq.mp h)]
  split
  next => exact ⟨rfl, rfl⟩
  next hfree =>
    have hne : d.stk.lock ≠ 0 := mt beq_iff_eq.mpr hfree
    exact ⟨Dev.sourceHoldover_lock (by omega), rfl⟩

theorem rowOf_stkSrc : rowOf Reg.STK_SRC = some ⟨0x40018, [],
    [⟨26, 24, .rw, 0⟩, ⟨22, 20, .rw, 0⟩, ⟨16, 16, .rw, 0⟩, ⟨14, 8, .rw, 0⟩, ⟨2, 0, .rw, 0⟩], false⟩ := by decide +kernel

/-- A write that the role allows leaves its `SRC`. -/
theorem Dev.writeStkSrc_src {d : Dev} {v : Nat} (h : d.sourceAllowed v = true) :
    (d.writeStkSrc v).fld Reg.STK_SRC Fld.STK_SRC_SRC = v % 8 := by
  have hwritten : (d.genericWrite Reg.STK_SRC v).fld Reg.STK_SRC Fld.STK_SRC_SRC = v % 8 := by
    refine (Dev.genericWrite_bits rowOf_stkSrc (f := ⟨2, 0, .rw, 0⟩) (by decide) d v).trans ?_
    simp [FieldSpec.afterWrite, bits]
  rw [Dev.writeStkSrc_taken h]
  split
  · exact hwritten
  · rw [Dev.fld_congr (Dev.sourceChanged_reg _ _ (by decide))]
    exact hwritten

theorem stkSrc_get (v : Nat) : Fld.STK_SRC_SRC.get v = v % 8 := by
  simp [Fld.get, bits, Fld.STK_SRC_SRC]

theorem Dev.writeStkSrc_free {d : Dev} {v : Nat} (h : d.sourceAllowed v = true) (hv : v % 8 = 0) (hsrc : d.lockSource ≠ 0) :
    (d.writeStkSrc v).stk.lock = 0 := by
  rw [Dev.writeStkSrc_changes h (by rwa [stkSrc_get, hv]), stkSrc_get, hv]
  exact Dev.sourceFree_lock _

theorem Dev.writeStkSrc_reference {d : Dev} {v : Nat} (h : d.sourceAllowed v = true) (hv : v % 8 ≠ 0) (hsrc : d.lockSource ≠ v % 8) :
    d.writeStkSrc v = (d.genericWrite Reg.STK_SRC v).sourceBegins.sourceReference := by
  rw [Dev.writeStkSrc_changes h (by rwa [stkSrc_get]), stkSrc_get, Dev.sourceChanged, if_neg (mt beq_iff_eq.mp hv)]

theorem Dev.sourceBegins_lock (d : Dev) : d.sourceBegins.stk.lock = d.stk.lock := rfl

theorem Dev.written_lock (d : Dev) (v : Nat) : (d.genericWrite Reg.STK_SRC v).sourceBegins.stk.lock = d.stk.lock := by
  rw [Dev.sourceBegins_lock, Dev.genericWrite_stk]

theorem Dev.writeStkSrc_acquires {d : Dev} {v : Nat} (h : d.sourceAllowed v = true) (hv : v % 8 ≠ 0) (hsrc : d.lockSource ≠ v % 8)
    (hlock : d.stk.lock = 1) : (d.writeStkSrc v).stk.lock = 1 ∧ (d.writeStkSrc v).stk.aligned = false := by
  have hbegun := (d.written_lock v).trans hlock
  rw [Dev.writeStkSrc_reference h hv hsrc, Dev.sourceReference_acquire hbegun]
  exact ⟨hbegun, rfl⟩

theorem Dev.writeStkSrc_holdover {d : Dev} {v : Nat} (h : d.sourceAllowed v = true) (hv : v % 8 ≠ 0) (hsrc : d.lockSource ≠ v % 8)
    (hle : d.stk.lock ≤ 3) (hlock : d.stk.lock ≠ 1) : (d.writeStkSrc v).stk.lock = 3 ∧ (d.writeStkSrc v).stk.good = 0 := by
  rw [Dev.writeStkSrc_reference h hv hsrc]
  exact Dev.sourceReference_holdover (by rwa [Dev.written_lock]) (by rwa [Dev.written_lock])

/-! ### The commands -/

theorem State.done_stk (s : State) (d : Dev) : (s.done d).dev.stk = d.stk := by
  simp only [State.done_dev, Dev.extest_stk, Dev.latchFault_stk]

section
variable {s : State}

theorem exec_missing (s : State) : exec .missing s = .next (s.done s.dev.quiet.missingInstant) := rfl

theorem exec_acqTimeout (s : State) : exec .acqTimeout s = .next (s.done s.dev.quiet.acqTimeout) := rfl

theorem exec_referenceInstant (time : Rat) (s : State) :
    exec (.referenceInstant time) s = .next (s.done (s.dev.quiet.referenceInstant time)) := rfl

theorem exec_referenceInstant_due (h : s.dev.lockSource = 2 → s.dev.fld Reg.STK_SRC Fld.STK_SRC_SYNC_DIV ≤ s.dev.stk.syncFrames)
    (time : Rat) : exec (.referenceInstant time) s = .next (s.done (s.dev.quiet.syncCounted.referenceAt (s.dev.instantOf time))) :=
  congrArg (fun d => Host.Outcome.next (s.done d)) (Dev.referenceInstant_due (d := s.dev.quiet) h time)

theorem exec_stkSrc (h : s.dev.access Reg.STK_SRC = .normal Reg.STK_SRC) (v : Word) :
    exec (.stkSrc v) s = .next (s.done (s.dev.quiet.writeStkSrc v.toNat)) := by
  have hacc : s.dev.quiet.access Reg.STK_SRC = .normal Reg.STK_SRC := h
  exact congrArg (fun d => Host.Outcome.next (s.done d)) (Dev.onWrite_normal hacc _)

/-- An instant that counts and finds no loop leaves the count of sync frames alone changed. -/
theorem State.done_syncCounted (s : State) : Dev.OnlyRegs
    { s.dev with stk := { s.dev.stk with syncFrames := if s.dev.lockSource = 2 then 0 else s.dev.stk.syncFrames } }
    (s.done s.dev.quiet.syncCounted).dev [] := by
  have hsame : Dev.OnlyRegs s.dev.syncCounted.quiet s.dev.quiet.syncCounted [] := Dev.OnlyRegs.refl _ _
  exact hsame.of_quiet.done s

theorem exec_missing_missed (hrun : s.dev.stk.running = true) (hlock : s.dev.stk.lock ≠ 0) (haligned : s.dev.stk.aligned = true)
    (hsrc : s.dev.lockSource = 2 ∨ s.dev.lockSource = 3) : ∃ t, exec .missing s = .next t ∧
      t.dev.stk.good = 0 ∧ t.dev.stk.lock = (if s.dev.stk.lock = 2 then 3 else s.dev.stk.lock) ∧
      t.dev.reg Reg.STK_MISSING_CNT = min (s.dev.reg Reg.STK_MISSING_CNT + 1) 0xFFFFFFFF ∧
      t.dev.flag Reg.STK_EVENT Fld.STK_EVENT_MISSING = true := by
  have hlockKept : s.dev.quiet.missed.stk.lock = s.dev.stk.lock := Dev.missed_lock _
  have hcount : s.dev.quiet.missed.reg Reg.STK_MISSING_CNT = min (s.dev.reg Reg.STK_MISSING_CNT + 1) 0xFFFFFFFF := Dev.missed_counts _
  refine ⟨_, exec_missing s, ?_⟩
  rw [State.done_stk, State.done_reg, State.done_flag, Dev.missingInstant_missed (d := s.dev.quiet) hrun hlock haligned hsrc, hlockKept]
  by_cases hlocked : s.dev.stk.lock = 2
  · rw [if_pos (beq_iff_eq.mpr hlocked), if_pos hlocked, Dev.lockLost_stk,
      Dev.lockLost_reg_other _ (by decide) (by decide) (by decide), Dev.lockLost_flag_other _ (by decide)]
    exact ⟨rfl, rfl, hcount, Dev.missed_event _⟩
  · rw [if_neg (mt beq_iff_eq.mp hlocked), if_neg hlocked]
    exact ⟨rfl, hlockKept, hcount, Dev.missed_event _⟩

theorem exec_acqTimeout_expires (hlock : s.dev.stk.lock = 1) (hlimit : s.dev.fld Reg.STK_LOCK Fld.STK_LOCK_ACQ_LIMIT ≠ 0)
    (hframes : s.dev.fld Reg.STK_LOCK Fld.STK_LOCK_ACQ_LIMIT ≤ s.dev.stk.acqFrames) : ∃ t, exec .acqTimeout s = .next t ∧
      t.dev.stk.lock = 3 ∧ t.dev.stk.viaAcq = true ∧ t.dev.flag Reg.STK_EVENT Fld.STK_EVENT_ACQ_TIMEOUT = true ∧
      t.dev.bel = (s.dev.raise 0x4006).bel := by
  refine ⟨_, exec_acqTimeout s, ?_⟩
  rw [State.done_stk, State.done_flag, State.done_bel, Dev.acqTimeout_expires (d := s.dev.quiet) hlock hlimit hframes, Dev.raise_stk,
    Dev.flag_congr (Dev.raise_reg_other _ _ (by decide))]
  exact ⟨rfl, rfl, Dev.setFlag_flag_same _ _ _ rfl (by decide),
    Dev.raise_bel_congr (d := (s.dev.quiet.enterHoldover true).stkEvent _) (e := s.dev) rfl rfl rfl rfl _⟩

/-- A write of `STK_SRC` that the role allows. -/
theorem exec_stkSrc_allowed (h : s.dev.access Reg.STK_SRC = .normal Reg.STK_SRC) {v : Word} (hv : s.dev.sourceAllowed v.toNat = true) :
    ∃ t, exec (.stkSrc v) s = .next t ∧ t.dev.fld Reg.STK_SRC Fld.STK_SRC_SRC = v.toNat % 8 ∧
      (v.toNat % 8 = 0 → s.dev.lockSource ≠ 0 → t.dev.stk.lock = 0) ∧
      (s.dev.stk.lock ≤ 3 → v.toNat % 8 ≠ 0 → s.dev.lockSource ≠ v.toNat % 8 →
        t.dev.stk.lock = (if s.dev.stk.lock = 1 then 1 else 3) ∧ (s.dev.stk.lock = 1 → t.dev.stk.aligned = false) ∧
        (s.dev.stk.lock ≠ 1 → t.dev.stk.good = 0)) := by
  have hq : s.dev.quiet.sourceAllowed v.toNat = true := hv
  refine ⟨_, exec_stkSrc h v, ?_⟩
  rw [State.done_stk, State.done_fld]
  refine ⟨Dev.writeStkSrc_src hq, Dev.writeStkSrc_free hq, fun hle hne hsrc => ?_⟩
  by_cases hlock : s.dev.stk.lock = 1
  · obtain ⟨hstays, haligned⟩ := Dev.writeStkSrc_acquires hq hne hsrc hlock
    exact ⟨hstays.trans (if_pos hlock).symm, fun _ => haligned, fun hc => absurd hlock hc⟩
  · obtain ⟨hmoves, hgood⟩ := Dev.writeStkSrc_holdover hq hne hsrc hle hlock
    exact ⟨hmoves.trans (if_neg hlock).symm, fun hc => absurd hc hlock, fun _ => hgood⟩

end

/-- Settles O42. The loop's part is stated of the device that the instant finds (`Dev.syncCounted`), whose error, window and limits are those
of the state before. -/
theorem lockStateFollowsTable44 : Obligations.LockStateFollowsTable44 := by
  unfold Obligations.LockStateFollowsTable44
  intro s
  refine ⟨fun time hdue hrun hlock haligned => ?_, fun time hdue hrun hlock hacq => ?_, fun time hdue hidle => ?_, fun time hcounts => ?_,
    exec_missing_missed, fun hidle => ?_, exec_acqTimeout_expires, fun hlock => ?_,
    fun v hacc => ⟨fun hrole => ?_, exec_stkSrc_allowed hacc⟩⟩
  · refine ⟨_, exec_referenceInstant_due hdue time, ?_⟩
    rw [State.done_stk, State.done_flag, Dev.referenceAt_aligns (d := s.dev.quiet.syncCounted) hrun hlock haligned]
    obtain ⟨haligns, hgood, hf, hr, hkept⟩ :=
      (s.dev.quiet.syncCounted.atInstant (s.dev.instantOf time)).alignOnto_loop (s.dev.instantOf time)
    exact ⟨haligns, hgood, hf, hr, hkept.trans ((Dev.atInstant_lock _ _).trans hlock), Dev.atInstant_alignOnto_b0 _ _,
      Dev.alignOnto_event _ _⟩
  · refine ⟨_, exec_referenceInstant_due hdue time, ?_⟩
    rw [State.done_stk, State.done_flag, State.done_reg, State.done_reg]
    obtain ⟨hgood, hb0, hf, hr⟩ := Dev.referenceAt_loop (d := s.dev.quiet.syncCounted) hrun hlock hacq (s.dev.instantOf time)
    refine ⟨hgood, hb0, Dev.referenceAt_error (d := s.dev.quiet.syncCounted) hrun hlock hacq _, fun hfollows => ⟨?_, ?_⟩,
      fun hfollows => ⟨?_, ?_⟩, Dev.referenceAt_holds (d := s.dev.quiet.syncCounted) hrun hlock hacq _,
      Dev.referenceAt_loses (d := s.dev.quiet.syncCounted) hrun hlock hacq _,
      Dev.referenceAt_locks (d := s.dev.quiet.syncCounted) hrun hlock hacq _,
      Dev.referenceAt_stays (d := s.dev.quiet.syncCounted) hrun hlock hacq _⟩
    · exact hf.trans (Dev.followedF_follows hfollows _ _)
    · rw [hr, hf]
      exact Dev.followedR_follows hfollows _ _
    · exact hf.trans (Dev.followedF_stays hfollows _ _)
    · exact hr.trans (Dev.followedR_stays hfollows _ _)
  · refine ⟨_, exec_referenceInstant_due hdue time, ?_⟩
    rw [Dev.referenceAt_idle (d := s.dev.quiet.syncCounted) hidle]
    exact s.done_syncCounted
  · obtain ⟨hsrc, hcount⟩ := Classical.not_imp.mp hcounts
    refine ⟨_, exec_referenceInstant time s, ?_⟩
    obtain ⟨now, tod, out, h⟩ := s.dev.quiet.advanceSc_eq time
    rw [State.done_stk, Dev.referenceInstant_counts (d := s.dev.quiet) hsrc (Nat.not_le.mp hcount), h]
    exact ⟨rfl, rfl, rfl, rfl, rfl, rfl⟩
  · refine ⟨_, exec_missing s, ?_⟩
    rw [Dev.missingInstant_idle (d := s.dev.quiet) hidle]
    exact s.done_quiet_onlyRegs
  · refine ⟨_, exec_acqTimeout s, ?_⟩
    rw [Dev.acqTimeout_idle (d := s.dev.quiet) hlock]
    exact s.done_quiet_onlyRegs
  · refine ⟨_, exec_stkSrc hacc v, ?_⟩
    rw [Dev.writeStkSrc_refused (d := s.dev.quiet) hrole]
    exact s.done_refuse Reg.STK_BLKID (by decide) (Dev.OnlyRegs.refl s.dev.quiet []).of_quiet (by decide) (by decide)

end Sys2Proof.Machine

/-! SUPPORT. The obligation about ticks and latch points fails (R86, R110, R182). -/

namespace Sys2Proof.Machine

/-- A device on its first stroke, whose queue holds a set for the next one. The set's STACK member carries a word of the live show register
of phase 0, which no snapshot of R110 holds, and the show register itself is 0. -/
def latchWithStrayWord : State :=
  { dev :=
    { wb := { loaded := true }
      stk := { running := true, timing := 1 }
      flp :=
      { queue :=
        [{ id := 0, origin := .own 0 0, target := 1, deadline := 2, afEn := false, afIdx := 0, afVal := 0, tag := 0
           members := [.stack [] [] false false [(Reg.STK_SHOW_LIVE 0, 5)]] }] } } }

/-- The set applies after the show registers have taken effect, and so writes over the live one. -/
theorem latchWithStrayWord_showLive :
    (latchWithStrayWord.dev.quiet.latchPoint .none).reg (Reg.STK_SHOW_LIVE 0) = 5 := by decide +kernel

/-- Refutes O41: that the live show registers are the show registers after a latch point needs the words of the queued sets to be live words
of layers, stacks and recipes, a bound that the statement asks for only where a set alone in the queue applies. -/
theorem not_ticksAndLatchPointsDriveTheStrokes : ¬ Obligations.TicksAndLatchPointsDriveTheStrokes := by
  unfold Obligations.TicksAndLatchPointsDriveTheStrokes
  intro h
  obtain ⟨-, -, hlatch, -⟩ := h latchWithStrayWord
  obtain ⟨t, ht, -, -, hshow, -⟩ := hlatch .none rfl rfl rfl rfl
  cases Host.Outcome.next.inj ht
  have hlive := (State.done_reg _ _ _).symm.trans (hshow 0 (by decide))
  rw [latchWithStrayWord_showLive] at hlive
  exact absurd hlive (by decide)

end Sys2Proof.Machine

/-! SUPPORT. The REFRAME's obligation fails (R100, R102, Table 4.6). -/

namespace Sys2Proof.Machine

/-- What a command leaves live is what its effect left so. -/
theorem State.done_live (s : State) (d : Dev) : (s.done d).dev.live = d.live := by
  simp only [Dev.live, State.done_reg]

/-- A device whose REFRAME takes effect at its next tick, and whose plate table lists ring 0x93C0, far past the 64 rings of R194. Of such a
ring `STL_PR_MARK`, at 0xB1014 + 0x40 × 0x93C0, lies where `STK_PHASE_LEN_LIVE` 1 does. -/
def reframeWithStrayRing : State :=
  { dev := { stk := { running := false, reframe := some 0 }, stl := { plates := [(0x93C0, {})] }, regs := [(Reg.STK_PHASE_LEN 1, 600000)] } }

theorem reframeWithStrayRing_next : reframeWithStrayRing.dev.reframeNext = true := by decide +kernel

theorem reframeWithStrayRing_shadow : reframeWithStrayRing.dev.shadowTiming.lens[1]? = some 600000 := by decide +kernel

/-- The tick at the boundary shows the mark of every plate ring in the table, and so overwrites the phase length that just became live. -/
theorem reframeWithStrayRing_live :
    (reframeWithStrayRing.dev.quiet.tickDeparts 0).takeEffect.live.lens[1]? = some 0 := by decide +kernel

/-- Refutes O43: that the shadows are live after the boundary needs the plate table to list no ring past the 64, a bound that the statement
does not ask of the state. -/
theorem not_reframeReplacesTheTiming : ¬ Obligations.ReframeReplacesTheTiming := by
  unfold Obligations.ReframeReplacesTheTiming
  intro h
  obtain ⟨-, htakes, -⟩ := h reframeWithStrayRing
  obtain ⟨t, ht, hlive, -⟩ := htakes 0 rfl reframeWithStrayRing_next _ 0 (.inl rfl)
  cases Host.Outcome.next.inj ht
  have hlens := congrArg (·.lens[1]?) ((State.done_live _ _).symm.trans hlive)
  rw [reframeWithStrayRing_live, reframeWithStrayRing_shadow] at hlens
  exact absurd hlens (by decide)

end Sys2Proof.Machine

/-! SUPPORT. Strokes and parcels under changes of the strokes, and what logging, storing and asking for compositions leave of the
porters' state and of the registers that count what porters do. -/

namespace Sys2Proof.Machine

/-! ### Strokes and parcels -/

/-- A change of strokes that keeps their numbers, and whether they are withdrawn. -/
def KeepsRuns (f : StrokeRun → StrokeRun) : Prop := ∀ r, (f r).stroke = r.stroke ∧ (f r).withdrawn = r.withdrawn

/-- A change of parcels that keeps their regions and numbers. -/
def KeepsPlaces (f : Parcel → Parcel) : Prop := ∀ q, (f q).region = q.region ∧ (f q).number = q.number

theorem Dev.runOf_mapRuns {f : StrokeRun → StrokeRun} (hf : KeepsRuns f) (d : Dev) (p : StrokeRun → Bool) (x : Nat) :
    (d.mapRuns p f).runOf x = (d.runOf x).map fun r => if p r then f r else r := by
  unfold Dev.runOf Dev.mapRuns Dev.setStrokes
  rw [List.find?_map]
  congr 2
  funext r
  obtain ⟨hstroke, hwithdrawn⟩ := hf r
  simp only [Function.comp_apply]
  split <;> simp [hstroke, hwithdrawn]

theorem Dev.runOf_some {d : Dev} {x : Nat} {r : StrokeRun} (h : d.runOf x = some r) : r.stroke = x ∧ r.withdrawn = false := by
  have hr := List.find?_some h
  simpa using hr

theorem StrokeRun.parcel_some {r : StrokeRun} {g n : Nat} {q : Parcel} (h : r.parcel g n = some q) : q.region = g ∧ q.number = n := by
  have hq := List.find?_some h
  simpa using hq

theorem StrokeRun.parcel_map {k : Parcel → Parcel} (hk : KeepsPlaces k) (r : StrokeRun) (g n : Nat) :
    ({ r with parcels := r.parcels.map k }.parcel g n) = (r.parcel g n).map k := by
  unfold StrokeRun.parcel
  rw [List.find?_map]
  congr 2
  funext q
  obtain ⟨hregion, hnumber⟩ := hk q
  simp only [Function.comp_apply, hregion, hnumber]

theorem Dev.parcel_congr {d e : Dev} (h : d.prt.strokes = e.prt.strokes) (x g n : Nat) : d.parcel x g n = e.parcel x g n := by
  rw [Dev.parcel, Dev.parcel, Dev.runOf, Dev.runOf, h]

theorem Dev.parcel_some {d : Dev} {x g n : Nat} {q : Parcel} (h : d.parcel x g n = some q) :
    ∃ r, d.runOf x = some r ∧ r.parcel g n = some q := Option.bind_eq_some_iff.mp h

/-- Strokes changed in something other than their parcels. -/
theorem Dev.parcel_mapRuns {f : StrokeRun → StrokeRun} (hf : KeepsRuns f) (hp : ∀ r, (f r).parcels = r.parcels) (d : Dev)
    (p : StrokeRun → Bool) (x g n : Nat) : (d.mapRuns p f).parcel x g n = d.parcel x g n := by
  rw [Dev.parcel, Dev.runOf_mapRuns hf, Dev.parcel, Option.bind_map]
  congr 1
  funext r
  simp only [Function.comp_apply]
  split
  · rw [StrokeRun.parcel, hp, StrokeRun.parcel]
  · rfl

theorem StrokeRun.mapParcel_keepsRuns (g n : Nat) (k : Parcel → Parcel) : KeepsRuns (·.mapParcel g n k) := fun _ => ⟨rfl, rfl⟩

theorem KeepsPlaces.guarded {k : Parcel → Parcel} (hk : KeepsPlaces k) (c : Parcel → Bool) : KeepsPlaces fun q => if c q then k q else q := by
  intro q
  dsimp only
  split
  · exact hk q
  · exact ⟨rfl, rfl⟩

/-- A change of one parcel shows in it, and in no other. -/
theorem Dev.parcel_mapParcel {k : Parcel → Parcel} (hk : KeepsPlaces k) (d : Dev) (x g n y h m : Nat) :
    (d.mapParcel x g n k).parcel y h m = if (y, h, m) = (x, g, n) then (d.parcel x g n).map k else d.parcel y h m := by
  rw [Dev.parcel, Dev.mapParcel, Dev.runOf_mapRuns (StrokeRun.mapParcel_keepsRuns g n k), Option.bind_map]
  cases hr : d.runOf y with
  | none =>
    split
    · next heq =>
      obtain ⟨rfl, rfl, rfl⟩ := heq
      simp [Dev.parcel, hr]
    · simp [Dev.parcel, hr]
  | some r =>
    obtain ⟨hstroke, hwithdrawn⟩ := Dev.runOf_some hr
    have hy : d.parcel y h m = r.parcel h m := by rw [Dev.parcel, hr, Option.bind_some]
    have hmap := StrokeRun.parcel_map (hk.guarded fun q => q.region == g && q.number == n) r h m
    rw [Option.bind_some, Function.comp_apply, hstroke, hwithdrawn, Bool.not_false, Bool.and_true]
    by_cases hxy : y = x
    · subst hxy
      rw [if_pos (beq_self_eq_true y), StrokeRun.mapParcel, hmap]
      cases hq : r.parcel h m with
      | none =>
        split
        · next heq =>
          obtain ⟨-, rfl, rfl⟩ := heq
          rw [hy, hq]
          rfl
        · rw [hy, hq]
          rfl
      | some q =>
        obtain ⟨rfl, rfl⟩ := StrokeRun.parcel_some hq
        by_cases hplace : q.region = g ∧ q.number = n
        · obtain ⟨rfl, rfl⟩ := hplace
          rw [if_pos rfl, hy, hq]
          simp
        · have hne : (y, q.region, q.number) ≠ (y, g, n) := by simpa using hplace
          rw [if_neg hne, hy, hq]
          simpa using fun hg hn => absurd ⟨hg, hn⟩ hplace
    · rw [if_neg (by simpa using hxy), if_neg (by simp [hxy]), hy]

theorem Dev.parcel_mapParcel_same {k : Parcel → Parcel} (hk : KeepsPlaces k) {d : Dev} {x g n : Nat} {q : Parcel}
    (h : d.parcel x g n = some q) : (d.mapParcel x g n k).parcel x g n = some (k q) := by
  rw [Dev.parcel_mapParcel hk, if_pos rfl, h, Option.map_some]

/-- The parcel that a porter has in progress is one of a stroke's, and it is running or stalled. -/
theorem Dev.inProgress_some {d : Dev} {p : Nat} {r : StrokeRun} {q : Parcel} (h : d.inProgress p = some (r, q)) :
    r ∈ d.prt.strokes ∧ q ∈ r.parcels := by
  obtain ⟨x, hx, hfound⟩ := List.exists_of_findSome?_eq_some h
  obtain ⟨y, hy, heq⟩ := Option.map_eq_some_iff.mp hfound
  obtain ⟨rfl, rfl⟩ := Prod.mk.inj heq
  exact ⟨hx, List.mem_of_find?_eq_some hy⟩

/-! ### Registers that the units beside the porters leave alone -/

/-- The counts of what fails under the porters, the ring of the error log and the pairing state. -/
def heldFixed : List Nat := [Reg.DEP_LOG_RING, Reg.DEP_SEAL_FAIL_CNT, Reg.DEP_AUDIT_CNT, Reg.DEP_UNRECOV_CNT, Reg.DEP_SECDED_UNCORR_CNT,
  Reg.TWN_STATUS]

/-- Those, and the counts of what a porter composes: no unit that logs, stores, sends or settles writes them. -/
def Held (k : Nat) : Prop := k ∈ heldFixed ∨ ∃ p, k = Reg.PRT_PW_DONE_CNT p ∨ k = Reg.PRT_PW_RECOMP_CNT p

theorem held_done (p : Nat) : Held (Reg.PRT_PW_DONE_CNT p) := .inr ⟨p, .inl rfl⟩
theorem held_recomp (p : Nat) : Held (Reg.PRT_PW_RECOMP_CNT p) := .inr ⟨p, .inr rfl⟩

theorem not_held {a : Nat} (hfixed : a ∉ heldFixed) (hporter : a < 0x1000000 ∨ a % 64 ≠ 8 ∧ a % 64 ≠ 24) : ¬ Held a := by
  rintro (h | ⟨p, h | h⟩)
  · exact hfixed h
  · simp only [Reg.PRT_PW_DONE_CNT] at h
    omega
  · simp only [Reg.PRT_PW_RECOMP_CNT] at h
    omega

/-- A register below those of the porters. -/
theorem not_held_low {a : Nat} (hfixed : a ∉ heldFixed := by decide) (hlow : a < 0x1000000 := by decide) : ¬ Held a := not_held hfixed (.inl hlow)

theorem not_mem_heldFixed {a : Nat} : a ∉ heldFixed ↔
    a ≠ 0xD0020 ∧ a ≠ 0xD0094 ∧ a ≠ 0xD009C ∧ a ≠ 0xD00AC ∧ a ≠ 0xD00BC ∧ a ≠ 0xE0014 := by
  simp [heldFixed, Reg.DEP_LOG_RING, Reg.DEP_SEAL_FAIL_CNT, Reg.DEP_AUDIT_CNT, Reg.DEP_UNRECOV_CNT, Reg.DEP_SECDED_UNCORR_CNT, Reg.TWN_STATUS]

theorem not_held_rings (r : Nat) : ¬ Held (Reg.RNG_RS_PROD r) ∧ ¬ Held (Reg.RNG_RS_EVENT r) ∧ ¬ Held (Reg.RNG_RS_MARK_CNT r) ∧
    ¬ Held (Reg.RNG_RS_DONE_CNT r) ∧ ¬ Held (Reg.RNG_RS_DROP_CNT r) := by
  simp only [Reg.RNG_RS_PROD, Reg.RNG_RS_EVENT, Reg.RNG_RS_MARK_CNT, Reg.RNG_RS_DONE_CNT, Reg.RNG_RS_DROP_CNT]
  refine ⟨?_, ?_, ?_, ?_, ?_⟩
  all_goals exact not_held (not_mem_heldFixed.mpr (by omega)) (.inr (by omega))

theorem not_held_memFail {c : Nat} (h : c < 8) : ¬ Held (Reg.MEM_FAIL_CNT c) := by
  simp only [Reg.MEM_FAIL_CNT]
  exact not_held (not_mem_heldFixed.mpr (by omega)) (.inl (by omega))

theorem not_held_append (u : Nat) : ¬ Held (Reg.TLY_APPEND_CNT u) := by
  simp only [Reg.TLY_APPEND_CNT]
  exact not_held (not_mem_heldFixed.mpr (by omega)) (.inr (by omega))

theorem not_held_busy (p : Nat) : ¬ Held (Reg.PRT_PW_BUSY_CNT p) := by
  simp only [Reg.PRT_PW_BUSY_CNT]
  exact not_held (not_mem_heldFixed.mpr (by omega)) (.inr (by omega))

/-- The pairing rests on the waybill and on `TWN_STATUS`. -/
theorem Dev.paired_congr {d e : Dev} (hwb : d.wb = e.wb) (hst : d.reg Reg.TWN_STATUS = e.reg Reg.TWN_STATUS) : d.paired = e.paired := by
  simp only [Dev.paired, Dev.hasTwn, Dev.twnState, Dev.fld, hwb, hst]

end Sys2Proof.Machine

/-! SUPPORT. What logs, checks of blocks and stores leave of the porters' state. -/

namespace Sys2Proof.Machine

/-- Device `d` is device `e` after steps that may write memory, log and tell: the held registers, the waybill, output staging and the
porters' state are as they were. -/
structure Dev.Logs (e d : Dev) : Prop where
  regs : ∀ k, Held k → d.reg k = e.reg k
  wb : d.wb = e.wb
  staging : d.staging = e.staging
  prt : d.prt = e.prt

namespace Dev.Logs

theorem refl (d : Dev) : Dev.Logs d d := ⟨fun _ _ => rfl, rfl, rfl, rfl⟩

theorem trans {a b c : Dev} (h : Dev.Logs a b) (k : Dev.Logs b c) : Dev.Logs a c :=
  ⟨fun o ho => (k.regs o ho).trans (h.regs o ho), k.wb.trans h.wb, k.staging.trans h.staging, k.prt.trans h.prt⟩

theorem foldl {α : Type} {f : Dev → α → Dev} (hf : ∀ d x, Dev.Logs d (f d x)) (l : List α) (d : Dev) : Dev.Logs d (l.foldl f d) :=
  List.foldlRecOn (motive := fun e => Dev.Logs d e) l f (refl d) fun e he x _ => he.trans (hf e x)

theorem foldl_fst {α β : Type} {f : Dev × β → α → Dev × β} (hf : ∀ x a, Dev.Logs x.1 (f x a).1) (l : List α) (x : Dev × β) :
    Dev.Logs x.1 (l.foldl f x).1 :=
  List.foldlRecOn (motive := fun y => Dev.Logs x.1 y.1) l f (refl x.1) fun y hy a _ => hy.trans (hf y a)

theorem ite {c : Prop} [Decidable c] {e a b : Dev} (ha : Dev.Logs e a) (hb : Dev.Logs e b) : Dev.Logs e (if c then a else b) := by
  split
  · exact ha
  · exact hb

section Steps
variable (d : Dev)

theorem setReg {a : Nat} (h : ¬ Held a) (v : Nat) : Dev.Logs d (d.setReg a v) :=
  ⟨fun _ hk => d.setReg_reg_other v fun heq => h (heq ▸ hk), rfl, rfl, rfl⟩

theorem setFlag {a : Nat} (h : ¬ Held a) (f : Fld) : Dev.Logs d (d.setFlag a f) := setReg d h _
theorem count {a : Nat} (h : ¬ Held a) : Dev.Logs d (d.count a) := setReg d h _
theorem countWrap {a : Nat} (h : ¬ Held a) : Dev.Logs d (d.countWrap a) := setReg d h _

/-- The words that show a log entry lie between the ring of the log and its counts. -/
theorem showLog : Dev.Logs d d.showLog := by
  have hregs : ∀ (vs : List Nat) (a : Nat) (e : Dev), 0xD0030 ≤ a → a + 4 * vs.length ≤ 0xD0094 → Dev.Logs e (e.setRegs a vs) := by
    intro vs
    induction vs with
    | nil => exact fun _ e _ _ => refl e
    | cons v vs ih =>
      intro a e hlo hhi
      rw [List.length_cons] at hhi
      have hlow : ¬ Held a := not_held (not_mem_heldFixed.mpr (by omega)) (.inl (by omega))
      exact (setReg e hlow v).trans (ih _ _ (by omega) (by omega))
  exact hregs _ _ d (by decide) (by simp [Reg.DEP_LOG_DATA])

theorem raise (n : Nat) : Dev.Logs d (d.raise n) :=
  ⟨fun _ hk => d.raise_reg_other n fun heq => (not_held_low : ¬ Held Reg.BEL_UNROUTED_CNT) (heq ▸ hk), d.raise_wb n,
    d.raise_staging n, d.raise_prt n⟩

theorem raiseIf (b : Bool) (n : Nat) : Dev.Logs d (d.raiseIf b n) := ite (raise d n) (refl d)

theorem depEvent (f : Fld) : Dev.Logs d (d.depEvent f) := setFlag d not_held_low f

theorem memPowerUp (c : Nat) : Dev.Logs d (d.memPowerUp c) := ite (setReg d not_held_low _) (refl d)

theorem memWake (blocks : List Nat) : Dev.Logs d (d.memWake blocks) := ite (refl d) (foldl (fun d _ => memPowerUp d _) _ d)

theorem reservedWake (content block : Nat) : Dev.Logs d (d.reservedWake content block) := ite (refl d) (memPowerUp d _)

theorem memWrite (a : Nat) (bs : List Byte) : Dev.Logs d (d.memWrite a bs) :=
  (memWake d (blocksOf a bs.length)).trans ⟨fun _ _ => rfl, rfl, rfl, rfl⟩

theorem ringWrite (r a : Nat) (bs : List Byte) : Dev.Logs d (d.ringWrite r a bs) :=
  ite ⟨fun _ _ => rfl, rfl, rfl, rfl⟩ (memWrite d a bs)

theorem ringEvent (r : Nat) (f : Fld) : Dev.Logs d (d.ringEvent r f) := by
  obtain ⟨-, hevent, -⟩ := not_held_rings r
  exact ite (refl d) ((setFlag d hevent f).trans (raiseIf _ _ r))

theorem ringMark (r old : Nat) : Dev.Logs d (d.ringMark r old) := by
  obtain ⟨-, -, hmark, -⟩ := not_held_rings r
  exact ite ((count d hmark).trans (ringEvent _ r _)) (refl d)

theorem putRecord (r : Nat) (entries : List (List Byte)) : Dev.Logs d (d.putRecord r entries).2 := by
  obtain ⟨hprod, -, -, hdone, hdrop⟩ := not_held_rings r
  unfold Dev.putRecord
  split
  · exact refl d
  · dsimp only
    split
    · exact ((count d hdrop).trans (count _ not_held_low)).trans (ringEvent _ r _)
    · exact (((((foldl (fun d _ => ringWrite d r _ _) _ d).trans (setReg _ hprod _)).trans (ringWrite _ r _ _)).trans
        (countWrap _ hdone)).trans (raiseIf _ _ r)).trans (ringMark _ r _)

theorem memFails (a : Nat) : Dev.Logs d (d.count (Reg.MEM_FAIL_CNT (d.stackOf a))) := count d (not_held_memFail (d.stackOf_lt a))

theorem failedAgain (b : Nat) : Dev.Logs d (d.failedAgain b) := memFails d _

theorem blockFailed (b : Nat) : Dev.Logs d (d.blockFailed b) :=
  (count d not_held_low).trans (count _ (not_held_memFail (d.stackOf_lt _)))

theorem corrupt (b : Nat) : Dev.Logs d (d.corrupt b) := ⟨fun _ _ => rfl, rfl, rfl, rfl⟩

theorem blockDamaged (b : Nat) : Dev.Logs d (d.blockDamaged b) := by
  have hset : Dev.Logs d (d.setDamaged b true) := ⟨fun _ _ => rfl, rfl, rfl, rfl⟩
  exact (hset.trans (depEvent _ _)).trans (raise _ _)

theorem checkBlocks (logged : Bool) (bad : List Nat) : Dev.Logs d (d.checkBlocks logged bad).1 := by
  refine foldl_fst (fun x b => ?_) _ (d, [])
  dsimp only
  split
  · exact (blockFailed _ b).trans (failedAgain _ b)
  · split
    · exact (blockFailed _ b).trans (count _ not_held_low)
    · exact (((blockFailed _ b).trans (failedAgain _ b)).trans (corrupt _ b)).trans (blockDamaged _ b)

theorem ownChecks (spans : List (Nat × Nat)) (bad : List Nat) : Dev.Logs d (d.ownChecks spans bad).1 :=
  (checkBlocks d true _).trans ⟨fun _ _ => rfl, rfl, rfl, rfl⟩

theorem checkedRecord (r : Nat) (entries : List (List Byte)) : Dev.Logs d (d.checkedRecord r entries).1 := by
  unfold Dev.checkedRecord
  dsimp only
  split
  · exact (ownChecks d _ _).trans (putRecord _ r entries)
  · exact putRecord d r entries

/-- An entry lands in the log, and shows. -/
theorem entered (x : List (List Nat)) (b : Nat) :
    Dev.Logs d (({ d with depLogged := x }.reservedWake contentLogs b).countWrap Reg.DEP_LOG_COUNT).showLog := by
  have hset : Dev.Logs d { d with depLogged := x } := ⟨fun _ _ => rfl, rfl, rfl, rfl⟩
  exact ((hset.trans (reservedWake _ _ _)).trans (countWrap _ not_held_low)).trans (showLog _)

theorem logRecord (e : LogEntry) : Dev.Logs d (d.logRecord e).1 := by
  unfold Dev.logRecord
  dsimp only
  split
  · exact ((entered d _ _).trans ((checkedRecord _ _ _).trans (ite (refl _) (depEvent _ _)))).trans (raise _ _)
  · exact (entered d _ _).trans (raise _ _)

end Steps

theorem logAt (n : Nat) (d : Dev) (e : LogEntry) : Dev.Logs d (Dev.logAt n d e) := by
  induction n generalizing d e with
  | zero => exact logRecord d e
  | succ n ih => exact (logRecord d e).trans (foldl (fun d x => ih d x) _ _)

theorem depLog (d : Dev) (e : LogEntry) : Dev.Logs d (d.depLog e) := logAt _ d e

theorem logAll (d : Dev) (es : List LogEntry) : Dev.Logs d (d.logAll es) := foldl (fun d e => depLog d e) es d

theorem memStore (d : Dev) (a : Nat) (bs : List Byte) (bad : List Nat) : Dev.Logs d (d.memStore a bs bad) :=
  ((ownChecks d _ _).trans (memWrite _ a bs)).trans (logAll _ _)

end Dev.Logs

/-! ### The log where it has no ring -/

/-- The log has no ring: nothing of it lands in memory (R299). -/
def Dev.Ringless (d : Dev) : Prop := bit (d.reg Reg.DEP_LOG_RING) 31 = false

theorem Dev.Logs.ringless {e d : Dev} (h : Dev.Logs e d) (hr : e.Ringless) : d.Ringless := by
  rw [Dev.Ringless, h.regs _ (.inl (by decide))]
  exact hr

theorem Dev.setRegs_eq (d : Dev) (a : Nat) (vs : List Nat) : d.setRegs a vs = { d with regs := (d.setRegs a vs).regs } := by
  induction vs generalizing d a with
  | nil => rfl
  | cons v vs ih => exact ih (d.setReg a v) (a + 4)

theorem Dev.reservedWake_eq (d : Dev) (content block : Nat) :
    d.reservedWake content block = { d with regs := (d.reservedWake content block).regs } := by
  unfold Dev.reservedWake Dev.memPowerUp
  repeat' split
  all_goals rfl

/-- What the log without a ring leaves of an entry: it stands first, and no other is to be logged (R299). -/
theorem Dev.logRecord_ringless {d : Dev} (h : d.Ringless) (e : LogEntry) : (d.logRecord e).2 = [] ∧ (d.logRecord e).1.mem = d.mem ∧
    (d.logRecord e).1.depLogged = (e.words (d.reg Reg.DEP_LOG_COUNT) :: d.depLogged).take 524288 := by
  unfold Dev.logRecord
  dsimp only
  have hring := (Dev.Logs.entered d ((e.words (d.reg Reg.DEP_LOG_COUNT) :: d.depLogged).take 524288)
    (d.reg Reg.DEP_LOG_COUNT % 524288 / 8)).ringless h
  rw [if_neg (by rw [hring]; exact Bool.false_ne_true)]
  rw [Dev.showLog, Dev.setRegs_eq, Dev.countWrap, Dev.reservedWake_eq]
  simp

theorem Dev.depLog_ringless {d : Dev} (h : d.Ringless) (e : LogEntry) : (d.depLog e).mem = d.mem ∧
    (d.depLog e).depLogged = (e.words (d.reg Reg.DEP_LOG_COUNT) :: d.depLogged).take 524288 := by
  obtain ⟨hnone, hspec⟩ := d.logRecord_ringless h e
  unfold Dev.depLog
  generalize d.ringN _ = n
  cases n with
  | zero => exact hspec
  | succ n =>
    rw [Dev.logAt, hnone]
    exact hspec

end Sys2Proof.Machine

/-! SUPPORT. What goes on beside the parcels of a stroke: asking for compositions, telling the twin, and ending strokes. -/

namespace Sys2Proof.Machine

/-! ### What leaves on the twin link -/

/-- Device `d` is device `e` but for what has left it, the free values and the twin link. -/
def Dev.SendsOnly (e d : Dev) : Prop := { d with out := e.out, free := e.free, twn := e.twn } = e

namespace Dev.SendsOnly

theorem refl (d : Dev) : Dev.SendsOnly d d := rfl

theorem trans {a b c : Dev} (h : Dev.SendsOnly a b) (k : Dev.SendsOnly b c) : Dev.SendsOnly a c := by
  unfold Dev.SendsOnly at *
  exact (congrArg (fun x : Dev => { x with out := a.out, free := a.free, twn := a.twn }) k).trans h

theorem ite {c : Prop} [Decidable c] {e a b : Dev} (ha : Dev.SendsOnly e a) (hb : Dev.SendsOnly e b) : Dev.SendsOnly e (if c then a else b) := by
  split
  · exact ha
  · exact hb

section Steps
variable (d : Dev)

theorem emit (o : Out) : Dev.SendsOnly d (d.emit o) := rfl
theorem tickFree : Dev.SendsOnly d d.tickFree := rfl
theorem freshBytes (n : Nat) : Dev.SendsOnly d (d.freshBytes n).2 := rfl
theorem laneQueue (p n : Nat) : Dev.SendsOnly d (d.laneQueue p n) := rfl

theorem leastLane : Dev.SendsOnly d d.leastLane.2 := by
  unfold Dev.leastLane
  dsimp only
  split <;> rfl

theorem sendLevels (p : Nat) (ws : List (List Nat)) : Dev.SendsOnly d (d.sendLevels p ws) :=
  List.foldlRecOn (motive := fun e => Dev.SendsOnly d e) ws _ (refl d) fun _ he _ _ => he.trans (emit _ _)

theorem idleRun (idle : Nat → Nat → List Byte) (n : Nat) : Dev.SendsOnly d (d.idleRun idle n).2 := by
  induction n with
  | zero => rfl
  | succ n ih => exact (ih.trans (tickFree _)).trans (tickFree _)

theorem lanePause (p : Nat) (idle : Nat → Nat → List Byte) (l : Lane) : Dev.SendsOnly d (d.lanePause p idle l).2 := by
  have hrun : Dev.SendsOnly d (d.idleRun idle 32).2.tickFree := (idleRun d idle 32).trans (tickFree _)
  have hends (e : Dev) (h : Dev.SendsOnly d e) (n : Nat) :
      Dev.SendsOnly d (e.tickFree.freshBytes n).2.tickFree.tickFree.tickFree.tickFree :=
    (((((h.trans (tickFree _)).trans (freshBytes _ n)).trans (tickFree _)).trans (tickFree _)).trans (tickFree _)).trans (tickFree _)
  exact hends _ (ite hrun (hrun.trans (sendLevels _ p _))) _

theorem linkBytes (p : Nat) (idle : Nat → Nat → List Byte) (x : LinkCodes) (bs : List Byte) : Dev.SendsOnly d (d.linkBytes p idle x bs).2 := by
  have hpause : Dev.SendsOnly d (if x.until_ < ((d.now : Nat) : Rat) then d.lanePause p idle x.lane else (x.lane, d)).2 := by
    split
    · exact lanePause d p idle _
    · rfl
  exact (hpause.trans (tickFree _)).trans (sendLevels _ p _)

theorem twnCodes (p : Nat) (bs : List Byte) : Dev.SendsOnly d (d.twnCodes p bs) := (linkBytes d p _ _ bs).trans rfl

theorem twnEmit (session : List Byte) (seq : Nat) (msg : TwinMsg) : Dev.SendsOnly d (d.twnEmit session seq msg) := by
  have hlane := leastLane d
  unfold Dev.twnEmit
  dsimp only
  split
  · rfl
  · split
    · exact ((hlane.trans (emit _ _)).trans (twnCodes _ _ _)).trans (laneQueue _ _ _)
    · exact ((((hlane.trans (tickFree _)).trans (freshBytes _ _)).trans (emit _ _)).trans (twnCodes _ _ _)).trans (laneQueue _ _ _)

end Steps
end Dev.SendsOnly

/-! ### Steps that change no parcel -/

/-- Device `d` is device `e` after steps that leave the held registers, the waybill, staging, and software memory where the log has no
ring. -/
structure Dev.Apart (e d : Dev) : Prop where
  regs : ∀ k, Held k → d.reg k = e.reg k
  wb : d.wb = e.wb
  staging : d.staging = e.staging
  mem : e.Ringless → d.mem = e.mem

/-- Such steps that change no parcel, and end no comparison. -/
structure Dev.Beside (e d : Dev) : Prop extends Dev.Apart e d where
  parcels : ∀ x g n, d.parcel x g n = e.parcel x g n
  compared : (d.prt.strokes.filter (·.compared)).length = (e.prt.strokes.filter (·.compared)).length

theorem Dev.Apart.refl (d : Dev) : Dev.Apart d d := ⟨fun _ _ => rfl, rfl, rfl, fun _ => rfl⟩

theorem Dev.Apart.ringless {e d : Dev} (h : Dev.Apart e d) (hr : e.Ringless) : d.Ringless := by
  rw [Dev.Ringless, h.regs _ (.inl (by decide))]
  exact hr

theorem Dev.Apart.trans {a b c : Dev} (h : Dev.Apart a b) (k : Dev.Apart b c) : Dev.Apart a c :=
  ⟨fun o ho => (k.regs o ho).trans (h.regs o ho), k.wb.trans h.wb, k.staging.trans h.staging,
    fun hr => (k.mem (h.ringless hr)).trans (h.mem hr)⟩

theorem Dev.Apart.paired {e d : Dev} (h : Dev.Apart e d) : d.paired = e.paired := Dev.paired_congr h.wb (h.regs _ (.inl (by decide)))

namespace Dev.Beside

theorem refl (d : Dev) : Dev.Beside d d := ⟨.refl d, fun _ _ _ => rfl, rfl⟩

theorem trans {a b c : Dev} (h : Dev.Beside a b) (k : Dev.Beside b c) : Dev.Beside a c :=
  ⟨h.toApart.trans k.toApart, fun x g n => (k.parcels x g n).trans (h.parcels x g n), k.compared.trans h.compared⟩

theorem ite {c : Prop} [Decidable c] {e a b : Dev} (ha : Dev.Beside e a) (hb : Dev.Beside e b) : Dev.Beside e (if c then a else b) := by
  split
  · exact ha
  · exact hb

theorem foldl {α : Type} {f : Dev → α → Dev} (hf : ∀ d x, Dev.Beside d (f d x)) (l : List α) (d : Dev) : Dev.Beside d (l.foldl f d) :=
  List.foldlRecOn (motive := fun e => Dev.Beside d e) l f (refl d) fun e he x _ => he.trans (hf e x)

theorem of_logs {e d : Dev} (h : Dev.Logs e d) (hmem : e.Ringless → d.mem = e.mem) : Dev.Beside e d :=
  ⟨⟨h.regs, h.wb, h.staging, hmem⟩, fun x g n => Dev.parcel_congr (by rw [h.prt]) x g n, by rw [h.prt]⟩

/-- A step that touches no register, no memory and no stroke. -/
theorem of_eq {e d : Dev} (hregs : d.regs = e.regs) (hwb : d.wb = e.wb) (hstaging : d.staging = e.staging) (hmem : d.mem = e.mem)
    (hstrokes : d.prt.strokes = e.prt.strokes) : Dev.Beside e d :=
  ⟨⟨fun k _ => Dev.reg_congr hregs k, hwb, hstaging, fun _ => hmem⟩, fun x g n => Dev.parcel_congr hstrokes x g n, by rw [hstrokes]⟩

section Steps
variable (d : Dev)

theorem withPrt (x : Prt) (h : x.strokes = d.prt.strokes := by rfl) : Dev.Beside d { d with prt := x } := of_eq rfl rfl rfl rfl h
theorem withTwn (x : Twn) : Dev.Beside d { d with twn := x } := of_eq rfl rfl rfl rfl rfl
theorem withLadders (x : List Ladder) : Dev.Beside d { d with ladders := x } := of_eq rfl rfl rfl rfl rfl

theorem setReg {a : Nat} (h : ¬ Held a) (v : Nat) : Dev.Beside d (d.setReg a v) := of_logs (.setReg d h v) fun _ => rfl
theorem setFlag {a : Nat} (h : ¬ Held a) (f : Fld) : Dev.Beside d (d.setFlag a f) := setReg d h _
theorem count {a : Nat} (h : ¬ Held a) : Dev.Beside d (d.count a) := setReg d h _
theorem raise (n : Nat) : Dev.Beside d (d.raise n) := of_logs (.raise d n) fun _ => d.raise_mem n
theorem depEvent (f : Fld) : Dev.Beside d (d.depEvent f) := setFlag d not_held_low f
theorem depLog (e : LogEntry) : Dev.Beside d (d.depLog e) := of_logs (.depLog d e) fun h => (Dev.depLog_ringless h e).1
theorem logParcel (kind outcome unit_ stroke region number addr : Nat) (escaped : Bool) :
    Dev.Beside d (d.logParcel kind outcome unit_ stroke region number addr escaped) := depLog d _
theorem memWake (blocks : List Nat) : Dev.Beside d (d.memWake blocks) := of_logs (.memWake d blocks) fun _ => d.memWake_mem blocks

theorem reservedWake (content block : Nat) : Dev.Beside d (d.reservedWake content block) :=
  of_logs (.reservedWake d content block) fun _ => by rw [Dev.reservedWake_eq]

theorem stagingLost (b : Nat) : Dev.Beside d (d.stagingLost b) :=
  ((of_eq rfl rfl rfl rfl rfl : Dev.Beside d { d with stagingDamaged := insertSorted d.stagingDamaged b }).trans (depEvent _ _)).trans (raise _ _)

theorem blockDamaged (b : Nat) : Dev.Beside d (d.blockDamaged b) :=
  ((of_eq rfl rfl rfl rfl rfl : Dev.Beside d (d.setDamaged b true)).trans (depEvent _ _)).trans (raise _ _)

theorem jobDamaged (j : Job) : Dev.Beside d (d.jobDamaged j) := by
  unfold Dev.jobDamaged
  split
  · exact ite (stagingLost d _) (refl d)
  · exact ite (blockDamaged d _) (refl d)
  · exact refl d

theorem jobLost (j : Job) : Dev.Beside d (d.jobLost j) := by
  unfold Dev.jobLost
  split
  · exact (jobDamaged d j).trans (logParcel _ _ _ _ _ _ _ _ _)
  · exact jobDamaged d j

theorem mapJob (p : Job → Bool) (f : Job → Option Job) : Dev.Beside d (d.mapJob p f) := of_eq rfl rfl rfl rfl rfl

theorem placeJobs : Dev.Beside d d.placeJobs := by
  refine foldl (fun d j => ?_) _ d
  split
  · exact mapJob d _ _
  · exact refl d

theorem addJob (kind : JobKind) (stroke region number unit_ : Nat) (block : Option (Bool × Nat)) :
    Dev.Beside d (d.addJob kind stroke region number unit_ block) :=
  (withPrt d _).trans (placeJobs _)

theorem dropJob (j : Job) : Dev.Beside d (d.dropJob j) := (mapJob d _ _).trans (placeJobs _)

theorem loseJobs (p : Job → Bool) : Dev.Beside d (d.loseJobs p) := by
  have hlost : Dev.Beside d ((d.prt.jobs.filter p).foldl (fun d j => d.jobLost j)
      { d with prt := { d.prt with jobs := d.prt.jobs.filter fun j => !p j } }) := (withPrt d _).trans (foldl jobLost _ _)
  exact ite hlost (hlost.trans (placeJobs _))

theorem busyBy (p n : Nat) : Dev.Beside d (d.busyBy p n) := by
  unfold Dev.busyBy
  dsimp only
  split
  · exact (setReg d (not_held_busy p) _).trans (withPrt _ _)
  · exact (setReg d (not_held_busy p) _).trans (withPrt _ _)

/-- Strokes changed in something other than their parcels and the end of their comparison. -/
theorem mapRuns (p : StrokeRun → Bool) (f : StrokeRun → StrokeRun) (hf : KeepsRuns f := by exact fun _ => ⟨rfl, rfl⟩)
    (hp : ∀ r, (f r).parcels = r.parcels ∧ (f r).compared = r.compared := by exact fun _ => ⟨rfl, rfl⟩) : Dev.Beside d (d.mapRuns p f) := by
  refine ⟨⟨fun _ _ => rfl, rfl, rfl, fun _ => rfl⟩, Dev.parcel_mapRuns hf (fun r => (hp r).1) d p, ?_⟩
  rw [Dev.mapRuns, Dev.setStrokes, List.filter_map, List.length_map]
  congr 2
  funext r
  simp only [Function.comp_apply]
  split
  · exact (hp r).2
  · rfl

theorem writersDone (stroke : Nat) : Dev.Beside d (d.writersDone stroke) := by
  unfold Dev.writersDone
  split
  · exact refl d
  · dsimp only
    split
    · exact refl d
    · exact ((mapRuns d _ _).trans (setFlag _ not_held_low _)).trans (raise _ _)

theorem advanceDone : Dev.Beside d d.advanceDone := by
  unfold Dev.advanceDone
  split
  · exact refl d
  · split
    · exact refl d
    · exact ite ((withPrt d _).trans (raise _ _)) (refl d)

theorem parcelOver (stroke : Nat) : Dev.Beside d (d.parcelOver stroke) := (writersDone d stroke).trans (advanceDone _)

theorem of_sends {e d : Dev} (h : Dev.SendsOnly e d) : Dev.Beside e d :=
  of_eq (congrArg Dev.regs h :) (congrArg Dev.wb h :) (congrArg Dev.staging h :) (congrArg Dev.mem h :) (congrArg (·.prt.strokes) h :)

theorem tlyAppend (link type_ origin seq : Nat) (payload : List Byte) : Dev.Beside d (d.tlyAppend link type_ origin seq payload).2 := by
  unfold Dev.tlyAppend
  split
  · exact refl d
  · exact count d (not_held_append _)

theorem twnSend (type_ : Nat) (payload : List Byte) : Dev.Beside d (d.twnSend type_ payload) := by
  unfold Dev.twnSend Dev.twnSendMsg
  dsimp only
  split
  · exact ((tlyAppend d 0 _ 0 _ _).trans (of_sends (.twnEmit _ _ _ _))).trans (withTwn _ _)
  · exact (of_sends (.twnEmit d _ _ _)).trans (withTwn _ _)

theorem logLadder (l : Ladder) (outcome : Nat) : Dev.Beside d (d.logLadder l outcome) := ite (depLog d _) (logParcel d _ _ _ _ _ _ _ _)

theorem ladderDamaged (l : Ladder) : Dev.Beside d (d.ladderDamaged l) := ite (stagingLost d _) (blockDamaged d _)

theorem endLadder (l : Ladder) : Dev.Beside d (d.endLadder l) := by
  have herase := withLadders d (d.ladders.erase l)
  exact (ite (herase.trans (ladderDamaged _ l)) herase).trans (logLadder _ l 0)

end Steps
end Dev.Beside

/-! ### A sealed parcel stays sealed -/

/-- A parcel has been composed and is sealed with a value. -/
def Parcel.SealedAs (v : Nat) (q : Parcel) : Prop := q.st = .sealed ∧ q.composed = true ∧ q.pcv = v

/-- The parcel of these numbers has been composed and is sealed with a value. -/
def Dev.SealedAs (d : Dev) (x g n v : Nat) : Prop := ∃ q, d.parcel x g n = some q ∧ q.SealedAs v

/-- Device `d` is device `e` after steps after which every sealed parcel is sealed still, with the same value. -/
structure Dev.Onward (e d : Dev) : Prop extends Dev.Apart e d where
  seals : ∀ x g n v, e.SealedAs x g n v → d.SealedAs x g n v

namespace Dev.Onward

theorem of_apart {e d : Dev} (h : Dev.Apart e d) (hp : ∀ x g n, d.parcel x g n = e.parcel x g n) : Dev.Onward e d :=
  ⟨h, fun x g n _ ⟨q, hq, hv⟩ => ⟨q, (hp x g n).trans hq, hv⟩⟩

theorem of_beside {e d : Dev} (h : Dev.Beside e d) : Dev.Onward e d := of_apart h.toApart h.parcels

theorem refl (d : Dev) : Dev.Onward d d := of_beside (.refl d)

theorem trans {a b c : Dev} (h : Dev.Onward a b) (k : Dev.Onward b c) : Dev.Onward a c :=
  ⟨h.toApart.trans k.toApart, fun x g n v hs => k.seals x g n v (h.seals x g n v hs)⟩

theorem ite {c : Prop} [Decidable c] {e a b : Dev} (ha : Dev.Onward e a) (hb : Dev.Onward e b) : Dev.Onward e (if c then a else b) := by
  split
  · exact ha
  · exact hb

theorem foldl {α : Type} {f : Dev → α → Dev} (hf : ∀ d x, Dev.Onward d (f d x)) (l : List α) (d : Dev) : Dev.Onward d (l.foldl f d) :=
  List.foldlRecOn (motive := fun e => Dev.Onward d e) l f (refl d) fun e he x _ => he.trans (hf e x)

section Steps
variable (d : Dev)

/-- A change of a parcel in something other than its seal. -/
theorem mapParcel (x g n : Nat) (k : Parcel → Parcel) (hk : KeepsPlaces k := by exact fun _ => ⟨rfl, rfl⟩)
    (hs : ∀ v q, q.SealedAs v → (k q).SealedAs v := by exact fun _ _ h => h) : Dev.Onward d (d.mapParcel x g n k) := by
  refine ⟨⟨fun _ _ => rfl, rfl, rfl, fun _ => rfl⟩, fun y h m v hsealed => ?_⟩
  obtain ⟨q, hq, hv⟩ := hsealed
  rw [Dev.SealedAs, Dev.parcel_mapParcel hk]
  split
  · next heq =>
    obtain ⟨rfl, rfl, rfl⟩ := heq
    exact ⟨k q, by rw [hq, Option.map_some], hs v q hv⟩
  · exact ⟨q, hq, hv⟩

theorem comparisonOver (u : Nat) : Dev.Onward d (d.comparisonOver u) := by
  have hmap (p : StrokeRun → Bool) (ok : Bool) : Dev.Onward d (d.mapRuns p fun x => { x with compared := true, agreed := ok }) :=
    of_apart ⟨fun _ _ => rfl, rfl, rfl, fun _ => rfl⟩ fun x g n =>
        Dev.parcel_mapRuns (f := fun x => { x with compared := true, agreed := ok }) (fun _ => ⟨rfl, rfl⟩) (fun _ => rfl) d p x g n
  unfold Dev.comparisonOver
  split
  · exact refl d
  · dsimp only
    split
    · exact refl d
    · exact ite ((hmap _ _).trans (of_beside (.withTwn _ _))) (hmap _ _)

theorem comparisonCheck : Dev.Onward d d.comparisonCheck := foldl (fun d u => comparisonOver d u) _ d

theorem twnCompare (stroke region number : Nat) : Dev.Onward d (d.twnCompare stroke region number) := by
  unfold Dev.twnCompare
  split
  · exact refl d
  · split
    · refine ite (refl d) (ite ?_ ?_)
      · exact ((mapParcel d _ _ _ _).trans (of_beside (.count _ not_held_low))).trans (comparisonCheck _)
      · exact (of_beside (.count d not_held_low)).trans (of_beside (.addJob _ _ _ _ _ _ _))
    · exact refl d

theorem sealedNews (stroke region number pcv : Nat) : Dev.Onward d (d.sealedNews stroke region number pcv) := by
  unfold Dev.sealedNews
  dsimp only
  have hwake : Dev.Onward d (d.reservedWake contentPcvs (d.pcvBlock stroke region number)) := of_beside (.reservedWake d _ _)
  refine ite hwake (trans (trans hwake (of_beside (.twnSend _ 0x30 (pcvRecord stroke region number pcv)))) (trans ?_ (twnCompare _ _ _ _)))
  generalize Dev.twnSend _ _ _ = e
  split
  · exact (of_beside (.withTwn e _)).trans (mapParcel _ _ _ _ _)
  · exact refl _

theorem auditAsk (stroke region number unit_ : Nat) : Dev.Onward d (d.auditAsk stroke region number unit_) := by
  unfold Dev.auditAsk
  split
  · exact ite ((mapParcel d _ _ _ _).trans (of_beside (.addJob _ _ _ _ _ _ _))) (refl d)
  · exact refl d

theorem giveUpTables : Dev.Onward d d.giveUpTables := by
  have hdrop (p : StrokeRun → Bool) (c : StrokeRun → Parcel → Bool) : Dev.Onward d (d.mapRuns p (fun r => { r with
      parcels := r.parcels.map (fun q => if q.st == .waiting && c r q then { q with st := .abandoned } else q) })) := by
    refine ⟨⟨fun _ _ => rfl, rfl, rfl, fun _ => rfl⟩, fun x g n v hsealed => ?_⟩
    obtain ⟨q, hq, hv⟩ := hsealed
    obtain ⟨r, hr, hrq⟩ := Dev.parcel_some hq
    refine ⟨q, ?_, hv⟩
    rw [Dev.parcel, Dev.runOf_mapRuns (by exact fun _ => ⟨rfl, rfl⟩), hr, Option.map_some, Option.bind_some]
    split
    · rw [StrokeRun.parcel_map (KeepsPlaces.guarded (k := fun q => { q with st := .abandoned }) (fun _ => ⟨rfl, rfl⟩) _), hrq,
        Option.map_some, hv.1]
      rfl
    · exact hrq
  unfold Dev.giveUpTables
  refine trans (trans (trans (trans ?_ (of_beside (.loseJobs _ _))) (of_beside (.foldl .endLadder _ _))) (of_beside (.withPrt _ _)))
    (of_beside (.advanceDone _))
  exact hdrop _ fun r q => d.tablesGone r q

end Steps
end Dev.Onward

/-! ### Where comparisons have ended -/

/-- A plate ring is shown in registers none of which is a porter's count. -/
theorem Dev.setPlate_spec (d : Dev) (r : Nat) (x : Plate) : (d.setPlate r x).prt = d.prt ∧ (d.setPlate r x).mem = d.mem ∧
    (d.setPlate r x).staging = d.staging ∧ ∀ p, (d.setPlate r x).reg (Reg.PRT_PW_DONE_CNT p) = d.reg (Reg.PRT_PW_DONE_CNT p) := by
  have hwake := Dev.Logs.reservedWake d contentDirectory (64 + r)
  have hmem : (d.reservedWake contentDirectory (64 + r)).mem = d.mem := by rw [Dev.reservedWake_eq]
  unfold Dev.setPlate
  generalize d.reservedWake contentDirectory (64 + r) = e at *
  refine ⟨by simp [hwake.prt], by simp [hmem], by simp [hwake.staging], fun p => ?_⟩
  dsimp only
  rw [Dev.setFld_reg_other, Dev.setReg_reg_other, Dev.setReg_reg_other]
  · exact hwake.regs _ (held_done p)
  all_goals
    simp only [Reg.PRT_PW_DONE_CNT, Reg.STL_PR_CTRL, Reg.STL_PR_POS, Reg.STL_PR_MARK]
    omega

theorem Dev.plateTidy_spec (d : Dev) : d.plateTidy.prt = d.prt ∧ d.plateTidy.mem = d.mem ∧ d.plateTidy.staging = d.staging ∧
    ∀ p, d.plateTidy.reg (Reg.PRT_PW_DONE_CNT p) = d.reg (Reg.PRT_PW_DONE_CNT p) := by
  unfold Dev.plateTidy
  refine List.foldlRecOn (motive := fun e : Dev => e.prt = d.prt ∧ e.mem = d.mem ∧ e.staging = d.staging ∧
    ∀ p, e.reg (Reg.PRT_PW_DONE_CNT p) = d.reg (Reg.PRT_PW_DONE_CNT p)) _ _ ⟨rfl, rfl, rfl, fun _ => rfl⟩ fun e he r _ => ?_
  obtain ⟨hprt, hmem, hstaging, hdone⟩ := he
  obtain ⟨hprt', hmem', hstaging', hdone'⟩ := e.setPlate_spec r
    { e.plate r with reads := (e.plate r).reads.filter fun x => !e.strokeFinished x.2 }
  exact ⟨hprt'.trans hprt, hmem'.trans hmem, hstaging'.trans hstaging, fun p => (hdone' p).trans (hdone p)⟩

/-- What comparisons that end release (R146, R189, R193) leaves every sealed parcel, the counts of parcels, staging, and software memory
where the log has no ring. -/
theorem Dev.readsOver_spec (d before : Dev) : (∀ x g n v, d.SealedAs x g n v → (d.readsOver before).SealedAs x g n v) ∧
    (∀ p, (d.readsOver before).reg (Reg.PRT_PW_DONE_CNT p) = d.reg (Reg.PRT_PW_DONE_CNT p)) ∧
    (d.readsOver before).staging = d.staging ∧ (d.Ringless → (d.readsOver before).mem = d.mem) := by
  unfold Dev.readsOver
  dsimp only
  split
  · have hgive := Dev.Onward.giveUpTables d
    obtain ⟨hprt, hmem, hstaging, hdone⟩ := d.giveUpTables.plateTidy_spec
    refine ⟨fun x g n v hs => ?_, fun p => (hdone p).trans (hgive.regs _ (held_done p)), hstaging.trans hgive.staging,
      fun hr => hmem.trans (hgive.mem hr)⟩
    obtain ⟨q, hq, hv⟩ := hgive.seals x g n v hs
    exact ⟨q, (Dev.parcel_congr (congrArg Prt.strokes hprt) x g n).trans hq, hv⟩
  · exact ⟨fun _ _ _ _ hs => hs, fun _ => rfl, rfl, fun _ => rfl⟩

/-- Where no comparison has ended and the pairing stands, nothing is released. -/
theorem Dev.readsOver_of_beside {e d : Dev} (hcompared : (d.prt.strokes.filter (·.compared)).length = (e.prt.strokes.filter (·.compared)).length)
    (hpaired : d.paired = e.paired) : d.readsOver e = d := by
  unfold Dev.readsOver
  dsimp only
  simp [hcompared, hpaired]

end Sys2Proof.Machine

/-! SUPPORT. A porter's start of a parcel, its lift, and what it does where it does not compose; a parcel given up, and a stroke that is
late (R157, R158, R159, R169). -/

namespace Sys2Proof.Machine

/-! ### Frames of commands that change the porters' state -/

theorem State.done_prt (s : State) (d : Dev) : (s.done d).dev.prt = d.prt := by simp

theorem State.done_parcel (s : State) (d : Dev) (x g n : Nat) : (s.done d).dev.parcel x g n = d.parcel x g n :=
  Dev.parcel_congr (by rw [State.done_prt]) x g n

theorem Dev.OnlyRegs.withPrt {e d : Dev} {offs : List Nat} (h : Dev.OnlyRegs e d offs) (x : Prt) :
    Dev.OnlyRegs { e with prt := x } { d with prt := x } offs :=
  ⟨h.regs, congrArg (fun y : Dev => { y with prt := x }) h.rest⟩

theorem Dev.OnlyRegs.count {e d : Dev} {offs : List Nat} (h : Dev.OnlyRegs e d offs) {a : Nat} (ha : a ∈ offs) :
    Dev.OnlyRegs e (d.count a) offs := h.setReg ha _

theorem State.done_prtFrame {s : State} {d : Dev} {offs : List Nat} (h : Dev.OnlyRegs { s.dev.quiet with prt := d.prt } d offs) :
    Dev.OnlyRegs { s.dev with prt := (s.done d).dev.prt } (s.done d).dev offs := by
  rw [State.done_prt]
  exact (Dev.OnlyRegs.of_quiet (e := { s.dev with prt := d.prt }) h).done s

theorem State.done_prtBell {s : State} {d : Dev} {offs : List Nat} (h : Dev.OnlyBell { s.dev.quiet with prt := d.prt } d offs) :
    Dev.OnlyBell { s.dev with prt := (s.done d).dev.prt } (s.done d).dev offs := by
  rw [State.done_prt]
  exact (Dev.OnlyBell.of_quiet (e := { s.dev with prt := d.prt }) h).done s

theorem Dev.OnlyRegs.onlyBell {e d : Dev} {offs : List Nat} (h : Dev.OnlyRegs e d offs) : Dev.OnlyBell e d offs :=
  ⟨fun o ho => h.regs o fun hmem => ho (List.mem_cons_of_mem _ hmem), congrArg (fun x : Dev => { x with bel := e.bel }) h.rest⟩

theorem Dev.reservedWake_frame (d : Dev) (content block : Nat) : Dev.OnlyRegs d (d.reservedWake content block) [Reg.MEM_STATUS] := by
  unfold Dev.reservedWake
  split
  · exact .refl _ _
  · obtain ⟨v, hv | hv⟩ := d.memPowerUp_eq (reservedStack content block) <;> rw [hv]
    · exact .refl _ _
    · exact (Dev.OnlyRegs.refl _ _).setReg (List.mem_singleton_self _) v

/-! ### Starting a parcel (R157) -/

theorem exec_parcelStart (s : State) (p : Fin 256) (ecc list : Ecc) :
    exec (.parcelStart p ecc list) s = .next (s.done (s.dev.quiet.parcelStart p ecc list)) := rfl

/-- An uncorrectable word is counted; the rest of its check is logged and told (R295). -/
theorem Dev.secded_logs (d : Dev) (ecc : Ecc) (store outcome stroke region parcel : Nat) :
    Dev.Logs (if ecc = .bad then d.count Reg.DEP_SECDED_UNCORR_CNT else d) (d.secded ecc store outcome stroke region parcel) := by
  cases ecc with
  | good => exact .refl d
  | corrected => exact .count d not_held_low
  | bad => exact ((Dev.Logs.depEvent _ _).trans (.depLog _ _)).trans (.raise _ _)

theorem reservedStack_lt (content block : Nat) : reservedStack content block < 8 := Nat.mod_lt _ (by decide)

/-- The read of a block of reserved memory is counted, logged and told (R291). -/
theorem Dev.reserved_logs (d : Dev) (ecc : Ecc) (content block outcome stroke region parcel : Nat) :
    Dev.Logs d (d.reserved ecc content block outcome stroke region parcel) := by
  have hfail := not_held_memFail (reservedStack_lt content block)
  have hwake := Dev.Logs.reservedWake d content block
  cases ecc with
  | good => exact hwake
  | corrected =>
    exact (((hwake.trans (.count _ not_held_low)).trans (.count _ hfail)).trans (.depLog _ _)).trans (.count _ not_held_low)
  | bad =>
    exact (((((hwake.trans (.count _ not_held_low)).trans (.count _ hfail)).trans (.count _ hfail)).trans (.depEvent _ _)).trans
      (.raise _ _)).trans (.depLog _ _)

/-- The checks at the start of a parcel: that of its satchel's word, and that of the entry that moves up from the parcel list. -/
def Dev.startChecked (d : Dev) (p : Nat) (r : StrokeRun) (q : Parcel) (ecc list : Ecc) : Dev :=
  let e := d.secded ecc storeSatchel 7 r.stroke q.region q.number
  match (d.parcelList p).head? with
  | some y => e.reserved list contentLists (e.listBlock y.1.stroke y.2.region y.2.number) 7 y.1.stroke y.2.region y.2.number
  | none => e

theorem Dev.startChecked_logs (d : Dev) (p : Nat) (r : StrokeRun) (q : Parcel) (ecc list : Ecc) :
    Dev.Logs (if ecc = .bad then d.count Reg.DEP_SECDED_UNCORR_CNT else d) (d.startChecked p r q ecc list) := by
  have hword := d.secded_logs ecc storeSatchel 7 r.stroke q.region q.number
  unfold Dev.startChecked
  dsimp only
  cases (d.parcelList p).head? with
  | some y => exact hword.trans (Dev.reserved_logs _ _ _ _ _ _ _ _)
  | none => exact hword

theorem Dev.startChecked_prt (d : Dev) (p : Nat) (r : StrokeRun) (q : Parcel) (ecc list : Ecc) : (d.startChecked p r q ecc list).prt = d.prt := by
  rw [(d.startChecked_logs p r q ecc list).prt]
  split <;> rfl

/-- Where both checks find good words, controllers of reserved memory wake. -/
theorem Dev.startChecked_frame (d : Dev) (p : Nat) (r : StrokeRun) (q : Parcel) :
    Dev.OnlyRegs d (d.startChecked p r q .good .good) [Reg.MEM_STATUS] := by
  unfold Dev.startChecked
  dsimp only
  split
  · exact d.reservedWake_frame _ _
  · exact .refl _ _

/-- The parcel runs, and the porter's lift is over. -/
def Dev.started (d : Dev) (p x g n : Nat) : Dev :=
  { d with prt := { d.prt with lifting := d.prt.lifting.filter (· != p) } }.mapParcel x g n fun q => { q with st := .running }

theorem Dev.started_parcel (d : Dev) (p x g n y h m : Nat) : (d.started p x g n).parcel y h m =
    if (y, h, m) = (x, g, n) then (d.parcel x g n).map (fun q => { q with st := .running }) else d.parcel y h m :=
  Dev.parcel_mapParcel (k := fun q => { q with st := .running }) (fun _ => ⟨rfl, rfl⟩) _ x g n y h m

theorem Dev.not_mem_started (d : Dev) (p x g n : Nat) : p ∉ (d.started p x g n).prt.lifting := by
  simp [Dev.started, Dev.mapParcel, Dev.mapRuns, Dev.setStrokes]

theorem Dev.parcelStart_eq {d : Dev} {p : Nat} {r : StrokeRun} {q : Parcel} (hcomposes : d.composes = true) (hhalted : d.halted p = false)
    (hpower : d.sdp.power ≠ 1) (hjobs : ∀ j ∈ d.prt.jobs, j.porter ≠ some p) (hidle : d.inProgress p = none)
    (hnext : d.nextParcel p = some (r, q)) (ecc list : Ecc) :
    d.parcelStart p ecc list = (d.startChecked p r q ecc list).started p r.stroke q.region q.number := by
  have hentries : d.prt.jobs.any (·.porter == some p) = false := by simpa using hjobs
  unfold Dev.parcelStart
  rw [hnext, hcomposes, hhalted, hentries, hidle]
  simp only [hpower, beq_iff_eq, Bool.not_true, Bool.false_or, Bool.or_false, Option.isSome_none, if_false]
  rfl

/-- A porter without priority entries starts its next parcel, whatever the checks found. -/
theorem parcelStart_spec {s : State} {p : Fin 256} {r : StrokeRun} {q : Parcel} (hcomposes : s.dev.composes = true)
    (hhalted : s.dev.halted p = false) (hpower : s.dev.sdp.power ≠ 1) (hjobs : ∀ j ∈ s.dev.prt.jobs, j.porter ≠ some p.val)
    (hidle : s.dev.inProgress p = none) (hnext : s.dev.nextParcel p = some (r, q))
    (hparcel : s.dev.parcel r.stroke q.region q.number = some q) (ecc list : Ecc) :
    ∃ t, exec (.parcelStart p ecc list) s = .next t ∧
      t.dev.parcel r.stroke q.region q.number = some { q with st := .running } ∧ p.val ∉ t.dev.prt.lifting ∧
      (∀ x g n, (x, g, n) ≠ (r.stroke, q.region, q.number) → t.dev.parcel x g n = s.dev.parcel x g n) ∧
      (ecc = .good → list = .good → Dev.OnlyRegs { s.dev with prt := t.dev.prt } t.dev [Reg.MEM_STATUS]) ∧
      (ecc = .bad → t.dev.reg Reg.DEP_SECDED_UNCORR_CNT = min (s.dev.reg Reg.DEP_SECDED_UNCORR_CNT + 1) 0xFFFFFFFF) := by
  have heq := Dev.parcelStart_eq (d := s.dev.quiet) hcomposes hhalted hpower hjobs hidle hnext ecc list
  have hlogs := s.dev.quiet.startChecked_logs p r q ecc list
  have hprt := s.dev.quiet.startChecked_prt p r q ecc list
  have hkept (x g n : Nat) : (s.dev.quiet.startChecked p r q ecc list).parcel x g n = s.dev.parcel x g n :=
    Dev.parcel_congr (congrArg Prt.strokes hprt) x g n
  refine ⟨_, (exec_parcelStart s p ecc list).trans (congrArg (fun d => Host.Outcome.next (s.done d)) heq), ?_, ?_, fun x g n hne => ?_, ?_, ?_⟩
  · rw [State.done_parcel, Dev.started_parcel, if_pos rfl, hkept, hparcel, Option.map_some]
  · rw [State.done_prt]
    exact Dev.not_mem_started _ _ _ _ _
  · rw [State.done_parcel, Dev.started_parcel, if_neg hne, hkept]
  · rintro rfl rfl
    exact State.done_prtFrame ((s.dev.quiet.startChecked_frame p r q).withPrt _)
  · rintro rfl
    rw [State.done_reg]
    refine (hlogs.regs _ (.inl (by decide))).trans ?_
    rw [if_pos rfl, Dev.count_reg, if_pos rfl, Dev.quiet_reg]

/-! ### Lifting (R158, R159) -/

theorem exec_lift (s : State) (p : Fin 256) : exec (.lift p) s = .next (s.done (s.dev.quiet.lift p)) := rfl

theorem Dev.busyBy_prt (d : Dev) (p n : Nat) : (d.busyBy p n).prt = { d.prt with busy := (d.busyBy p n).prt.busy } := by
  unfold Dev.busyBy
  dsimp only
  split <;> rfl

theorem Dev.busyBy_eq (d : Dev) (p n : Nat) : d.busyBy p n =
    { d.setReg (Reg.PRT_PW_BUSY_CNT p) ((d.reg (Reg.PRT_PW_BUSY_CNT p) + n) % 2 ^ 32) with prt := (d.busyBy p n).prt } := by
  unfold Dev.busyBy
  dsimp only
  split <;> rfl

theorem Dev.busyBy_frame (d : Dev) (p n : Nat) : (d.busyBy p n).wb = d.wb ∧ (d.busyBy p n).mem = d.mem ∧
    (d.busyBy p n).damaged = d.damaged ∧ (d.busyBy p n).weak = d.weak := by
  rw [Dev.busyBy_eq]
  exact ⟨rfl, rfl, rfl, rfl⟩

theorem Dev.busyBy_reg_other (d : Dev) {p k : Nat} (n : Nat) (h : k ≠ Reg.PRT_PW_BUSY_CNT p) : (d.busyBy p n).reg k = d.reg k := by
  rw [Dev.busyBy_eq]
  exact d.setReg_reg_other _ h

/-- What a lift of `n` parcels from a victim counts (Tables 7.3, 7.4). -/
def Dev.liftCounted (d : Dev) (p v n : Nat) : Dev :=
  let d := ((d.count Reg.PRT_LIFT_CNT).count (Reg.PRT_PW_LIFT_CNT p)).countBy (Reg.PRT_PW_LIFTED_CNT v) n
  (if v / 128 != p / 128 then d.count Reg.PRT_LIFT_XHALF_CNT else d).busyBy p 64

section LiftCounted
variable (d : Dev) (p v n : Nat)

theorem Dev.liftCounted_prt : (d.liftCounted p v n).prt = { d.prt with busy := (d.liftCounted p v n).prt.busy } := by
  unfold Dev.liftCounted
  dsimp only
  rw [Dev.busyBy_prt]
  split <;> rfl

theorem Dev.liftCounted_frame : Dev.OnlyRegs { d with prt := (d.liftCounted p v n).prt } (d.liftCounted p v n)
    [Reg.PRT_LIFT_CNT, Reg.PRT_PW_LIFT_CNT p, Reg.PRT_PW_LIFTED_CNT v, Reg.PRT_LIFT_XHALF_CNT, Reg.PRT_PW_BUSY_CNT p] := by
  have hcounts := (((Dev.OnlyRegs.refl d [Reg.PRT_LIFT_CNT, Reg.PRT_PW_LIFT_CNT p, Reg.PRT_PW_LIFTED_CNT v, Reg.PRT_LIFT_XHALF_CNT,
    Reg.PRT_PW_BUSY_CNT p]).count (a := Reg.PRT_LIFT_CNT) (by simp)).count (a := Reg.PRT_PW_LIFT_CNT p) (by simp)).setReg
      (off := Reg.PRT_PW_LIFTED_CNT v) (by simp) (min (((d.count Reg.PRT_LIFT_CNT).count (Reg.PRT_PW_LIFT_CNT p)).reg
        (Reg.PRT_PW_LIFTED_CNT v) + n) 0xFFFFFFFF)
  unfold Dev.liftCounted
  dsimp only
  split
  · rw [Dev.busyBy_eq]
    exact ((hcounts.count (by simp)).setReg (by simp) _).withPrt _
  · rw [Dev.busyBy_eq]
    exact (hcounts.setReg (by simp) _).withPrt _

/-- Beside the count of the victim's half, a lift counts once at the device and once at the porter, and every parcel at the victim. -/
theorem Dev.liftCounted_reg {k : Nat} (hk : k ≠ Reg.PRT_LIFT_XHALF_CNT ∧ k ≠ Reg.PRT_PW_BUSY_CNT p) : (d.liftCounted p v n).reg k =
    (((d.count Reg.PRT_LIFT_CNT).count (Reg.PRT_PW_LIFT_CNT p)).countBy (Reg.PRT_PW_LIFTED_CNT v) n).reg k := by
  unfold Dev.liftCounted
  dsimp only
  rw [Dev.busyBy_reg_other _ _ hk.2]
  split
  · exact Dev.count_reg_other _ hk.1
  · rfl

theorem Dev.liftCounted_counts : (d.liftCounted p v n).reg Reg.PRT_LIFT_CNT = min (d.reg Reg.PRT_LIFT_CNT + 1) 0xFFFFFFFF ∧
    (d.liftCounted p v n).reg (Reg.PRT_PW_LIFT_CNT p) = min (d.reg (Reg.PRT_PW_LIFT_CNT p) + 1) 0xFFFFFFFF ∧
    (d.liftCounted p v n).reg (Reg.PRT_PW_LIFTED_CNT v) = min (d.reg (Reg.PRT_PW_LIFTED_CNT v) + n) 0xFFFFFFFF := by
  have hdevice : Reg.PRT_LIFT_CNT ≠ Reg.PRT_LIFT_XHALF_CNT ∧ Reg.PRT_LIFT_CNT ≠ Reg.PRT_PW_BUSY_CNT p := by
    simp only [Reg.PRT_LIFT_CNT, Reg.PRT_LIFT_XHALF_CNT, Reg.PRT_PW_BUSY_CNT]
    omega
  have hporter : Reg.PRT_PW_LIFT_CNT p ≠ Reg.PRT_LIFT_XHALF_CNT ∧ Reg.PRT_PW_LIFT_CNT p ≠ Reg.PRT_PW_BUSY_CNT p := by
    simp only [Reg.PRT_PW_LIFT_CNT, Reg.PRT_LIFT_XHALF_CNT, Reg.PRT_PW_BUSY_CNT]
    omega
  have hvictim : Reg.PRT_PW_LIFTED_CNT v ≠ Reg.PRT_LIFT_XHALF_CNT ∧ Reg.PRT_PW_LIFTED_CNT v ≠ Reg.PRT_PW_BUSY_CNT p := by
    simp only [Reg.PRT_PW_LIFTED_CNT, Reg.PRT_LIFT_XHALF_CNT, Reg.PRT_PW_BUSY_CNT]
    omega
  have hdistinct : Reg.PRT_PW_LIFT_CNT p ≠ Reg.PRT_LIFT_CNT ∧ Reg.PRT_PW_LIFTED_CNT v ≠ Reg.PRT_LIFT_CNT ∧
      Reg.PRT_PW_LIFTED_CNT v ≠ Reg.PRT_PW_LIFT_CNT p := by
    simp only [Reg.PRT_LIFT_CNT, Reg.PRT_PW_LIFT_CNT, Reg.PRT_PW_LIFTED_CNT]
    omega
  obtain ⟨hpd, hvd, hvp⟩ := hdistinct
  rw [Dev.liftCounted_reg _ _ _ _ hdevice, Dev.liftCounted_reg _ _ _ _ hporter, Dev.liftCounted_reg _ _ _ _ hvictim]
  simp only [Dev.countBy_reg, Dev.count_reg, hpd, hpd.symm, hvd, hvd.symm, hvp, hvp.symm, if_true, if_false, and_self]

end LiftCounted

theorem sub_ceilDiv_two (n : Nat) : n - ceilDiv n 2 = n / 2 := by
  unfold ceilDiv
  omega

/-- The strokes after porter `p` has taken the later half of the parcels of stroke `r`, at place `i`, that victim `v` has to start. -/
def Dev.halfLifted (d : Dev) (p v i : Nat) (r : StrokeRun) : Dev :=
  { d with prt := { d.prt with
    strokes := d.prt.strokes.set i { r with parcels := r.parcels.map fun q =>
      if ((r.liftable v).drop ((r.liftable v).length / 2)).contains q then { q with porter := p, lifted := true } else q }
    lifting := insertSorted d.prt.lifting p } }

theorem Dev.toCompose_nil {d : Dev} {p : Nat} (h : ∀ x ∈ d.prt.strokes, x.unstarted p = []) : d.toCompose p = [] := by
  rw [Dev.toCompose, List.flatMap_eq_nil_iff]
  exact fun x hx => by rw [h x hx, List.map_nil]

theorem Dev.lift_eq {d : Dev} {p v i n : Nat} {r : StrokeRun} (hcomposes : d.composes = true) (hhalted : d.halted p = false)
    (hpower : d.sdp.power ≠ 1) (hidle : ∀ x ∈ d.prt.strokes, x.unstarted p = [])
    (hvictim : (d.tiers p).findSome? d.victim = some (v, i, n)) (hrun : d.prt.strokes[i]? = some r) :
    d.lift p = (d.halfLifted p v i r).liftCounted p v ((r.liftable v).drop ((r.liftable v).length / 2)).length := by
  have hhalf := sub_ceilDiv_two (r.liftable v).length
  unfold Dev.lift
  rw [hcomposes, hhalted, Dev.toCompose_nil hidle, hvictim]
  simp only [hpower, hrun, hhalf, beq_iff_eq, Bool.not_true, Bool.false_or, Bool.or_false, List.isEmpty_nil, if_false]
  rfl

/-- A porter with nothing left to start takes the later half of its victim's parcels, and the lift is counted. -/
theorem lift_spec {s : State} {p : Fin 256} {v i n : Nat} {r : StrokeRun} (hcomposes : s.dev.composes = true)
    (hhalted : s.dev.halted p = false) (hpower : s.dev.sdp.power ≠ 1) (hidle : ∀ x ∈ s.dev.prt.strokes, x.unstarted p = [])
    (hvictim : (s.dev.tiers p).findSome? s.dev.victim = some (v, i, n)) (hrun : s.dev.prt.strokes[i]? = some r) :
    let later := (r.liftable v).drop ((r.liftable v).length / 2)
    ∃ t, exec (.lift p) s = .next t ∧ p.val ∈ t.dev.prt.lifting ∧
      t.dev.prt.strokes = s.dev.prt.strokes.set i { r with
        parcels := r.parcels.map fun q => if later.contains q then { q with porter := p, lifted := true } else q } ∧
      t.dev.reg Reg.PRT_LIFT_CNT = min (s.dev.reg Reg.PRT_LIFT_CNT + 1) 0xFFFFFFFF ∧
      t.dev.reg (Reg.PRT_PW_LIFT_CNT p) = min (s.dev.reg (Reg.PRT_PW_LIFT_CNT p) + 1) 0xFFFFFFFF ∧
      t.dev.reg (Reg.PRT_PW_LIFTED_CNT v) = min (s.dev.reg (Reg.PRT_PW_LIFTED_CNT v) + later.length) 0xFFFFFFFF ∧
      Dev.OnlyRegs { s.dev with prt := t.dev.prt } t.dev
        [Reg.PRT_LIFT_CNT, Reg.PRT_PW_LIFT_CNT p, Reg.PRT_PW_LIFTED_CNT v, Reg.PRT_LIFT_XHALF_CNT, Reg.PRT_PW_BUSY_CNT p] := by
  intro later
  have heq := Dev.lift_eq (d := s.dev.quiet) hcomposes hhalted hpower hidle hvictim hrun
  have hprt := (s.dev.quiet.halfLifted p v i r).liftCounted_prt p v later.length
  obtain ⟨hlift, hporter, hvictims⟩ := (s.dev.quiet.halfLifted p v i r).liftCounted_counts p v later.length
  refine ⟨_, (exec_lift s p).trans (congrArg (fun d => Host.Outcome.next (s.done d)) heq), ?_, ?_, ?_, ?_, ?_, State.done_prtFrame ?_⟩
  · rw [State.done_prt, hprt]
    exact (mem_insertSorted _ _ _).mpr (.inl rfl)
  · rw [State.done_prt, hprt]
    rfl
  · exact (s.done_reg _ _).trans hlift
  · exact (s.done_reg _ _).trans hporter
  · exact (s.done_reg _ _).trans hvictims
  · exact (s.dev.quiet.halfLifted p v i r).liftCounted_frame p v later.length

/-! ### Porters that do not compose -/

theorem exec_parcelComposed (s : State) (p : Fin 256) (ok : Bool) (bad : List Nat) (parity : Nat) (err : Option (List Byte)) :
    exec (.parcelComposed p ok bad parity err) s = .next (s.done ((s.dev.quiet.parcelComposed p ok bad parity err).readsOver s.dev.quiet)) := rfl

section Idle
variable {d : Dev} {p : Nat} (h : d.composes = false ∨ d.halted p = true)
include h

theorem Dev.lift_idle : d.lift p = d := by
  rcases h with h | h <;> simp [Dev.lift, h]

theorem Dev.parcelStart_idle (ecc list : Ecc) : d.parcelStart p ecc list = d := by
  rcases h with h | h <;> simp [Dev.parcelStart, h]

theorem Dev.parcelComposed_idle (ok : Bool) (bad : List Nat) (parity : Nat) (err : Option (List Byte)) :
    d.parcelComposed p ok bad parity err = d := by
  rcases h with h | h <;> simp [Dev.parcelComposed, h]

theorem Dev.jobStart_idle (audit : Bool) (ecc : Ecc) : d.jobStart p audit ecc = d := by
  rcases h with h | h <;> simp [Dev.jobStart, h]

end Idle

/-- A porter that does not compose does nothing. -/
theorem porter_idles {s : State} {p : Fin 256} (h : s.dev.composes = false ∨ s.dev.halted p = true) (c : Instr)
    (hc : c = .lift p ∨ (∃ ecc list, c = .parcelStart p ecc list) ∨ (∃ ok bad n err, c = .parcelComposed p ok bad n err) ∨
      (∃ ecc, c = .recomposeStart p ecc ∨ c = .auditStart p ecc)) :
    ∃ t, exec c s = .next t ∧ Dev.OnlyRegs s.dev t.dev [] := by
  have hq : s.dev.quiet.composes = false ∨ s.dev.quiet.halted p = true := h
  rcases hc with rfl | ⟨ecc, list, rfl⟩ | ⟨ok, bad, n, err, rfl⟩ | ⟨ecc, rfl | rfl⟩
  · exact State.unmoved (exec_lift s p) (Dev.lift_idle hq)
  · exact State.unmoved (exec_parcelStart s p ecc list) (Dev.parcelStart_idle hq ecc list)
  · refine State.unmoved (exec_parcelComposed s p ok bad n err) ?_
    rw [Dev.parcelComposed_idle hq, Dev.readsOver_of_beside rfl rfl]
  · exact State.unmoved (d := s.dev.quiet.jobStart p false ecc) rfl (Dev.jobStart_idle hq false ecc)
  · exact State.unmoved (d := s.dev.quiet.jobStart p true ecc) rfl (Dev.jobStart_idle hq true ecc)

/-! ### Giving a parcel up (R146, R157) -/

theorem exec_parcelAbandon (s : State) (p : Fin 256) : exec (.parcelAbandon p) s = .next (s.done (s.dev.quiet.parcelAbandon p)) := rfl

theorem Dev.advanceDone_prt (d : Dev) : d.advanceDone.prt = { d.prt with doneStroke := d.advanceDone.prt.doneStroke } := by
  unfold Dev.advanceDone
  split
  · rfl
  · split
    · rfl
    · split
      · rw [Dev.raise_prt]
      · rfl

theorem Dev.advanceDone_frame (d : Dev) : Dev.OnlyBell { d with prt := d.advanceDone.prt } d.advanceDone [] := by
  unfold Dev.advanceDone
  split
  · exact (Dev.OnlyRegs.refl d []).onlyBell
  · split
    · exact (Dev.OnlyRegs.refl d []).onlyBell
    · split
      · rw [Dev.raise_prt]
        exact (Dev.OnlyRegs.refl _ []).raise _
      · exact (Dev.OnlyRegs.refl d []).onlyBell

theorem Dev.parcelAbandon_idle {d : Dev} {p : Nat} (h : d.inProgress p = none) : d.parcelAbandon p = d := by
  rw [Dev.parcelAbandon, h]

theorem Dev.parcelAbandon_kept {d : Dev} {p : Nat} {r : StrokeRun} {q : Parcel} (h : d.inProgress p = some (r, q))
    (hkept : (r.withdrawn || r.abandoned || d.tablesGone r q) = false) : d.parcelAbandon p = d := by
  simp [Dev.parcelAbandon, h, hkept]

theorem Dev.parcelAbandon_gone {d : Dev} {p : Nat} {r : StrokeRun} {q : Parcel} (h : d.inProgress p = some (r, q))
    (hgone : (r.withdrawn || r.abandoned || d.tablesGone r q) = true) : d.parcelAbandon p =
      (d.mapRuns (· == r) (·.mapParcel q.region q.number fun q => { q with st := .abandoned })).advanceDone := by
  simp [Dev.parcelAbandon, h, hgone]

/-- The parcel in progress is given up where its stroke or its tables are gone. -/
theorem parcelAbandon_spec {s : State} {p : Fin 256} {r : StrokeRun} {q : Parcel} (h : s.dev.inProgress p = some (r, q))
    (hgone : r.withdrawn = true ∨ r.abandoned = true ∨ s.dev.tablesGone r q = true) : ∃ t r' q', exec (.parcelAbandon p) s = .next t ∧
      r' ∈ t.dev.prt.strokes ∧ r'.stroke = r.stroke ∧ q' ∈ r'.parcels ∧ q'.region = q.region ∧ q'.number = q.number ∧
      q'.st = .abandoned ∧ Dev.OnlyBell { s.dev with prt := t.dev.prt } t.dev [] := by
  obtain ⟨hr, hq⟩ := Dev.inProgress_some h
  have hquiet : (r.withdrawn || r.abandoned || s.dev.tablesGone r q) = true := by simpa [or_assoc] using hgone
  have heq := Dev.parcelAbandon_gone (d := s.dev.quiet) h hquiet
  refine ⟨_, r.mapParcel q.region q.number fun q => { q with st := .abandoned }, { q with st := .abandoned },
    (exec_parcelAbandon s p).trans (congrArg (fun d => Host.Outcome.next (s.done d)) heq), ?_, rfl, ?_, rfl, rfl, rfl, State.done_prtBell ?_⟩
  · rw [State.done_prt, Dev.advanceDone_prt]
    exact List.mem_map.mpr ⟨r, hr, if_pos (beq_self_eq_true r)⟩
  · exact List.mem_map.mpr ⟨q, hq, if_pos (by simp)⟩
  · exact Dev.advanceDone_frame (s.dev.quiet.mapRuns (· == r) _)

theorem parcelAbandon_keeps {s : State} {p : Fin 256} {r : StrokeRun} {q : Parcel} (h : s.dev.inProgress p = some (r, q))
    (hkept : (r.withdrawn || r.abandoned || s.dev.tablesGone r q) = false) :
    ∃ t, exec (.parcelAbandon p) s = .next t ∧ Dev.OnlyRegs s.dev t.dev [] :=
  State.unmoved (exec_parcelAbandon s p) (Dev.parcelAbandon_kept (d := s.dev.quiet) h hkept)

theorem parcelAbandon_idles {s : State} {p : Fin 256} (h : s.dev.inProgress p = none) :
    ∃ t, exec (.parcelAbandon p) s = .next t ∧ Dev.OnlyRegs s.dev t.dev [] :=
  State.unmoved (exec_parcelAbandon s p) (Dev.parcelAbandon_idle (d := s.dev.quiet) h)

/-! ### Late strokes (R169) -/

theorem exec_strokeLate (s : State) (g : Fin 4) : exec (.strokeLate g) s = .next (s.done (s.dev.quiet.strokeLate g)) := rfl

/-- A stroke that a region may be recorded late for: a parcel of the region has not been composed, and it is not recorded yet. -/
def StrokeRun.lateIn (g : Nat) (r : StrokeRun) : Bool :=
  !r.withdrawn && !r.abandoned && !r.late.contains g && r.parcels.any fun q => q.region == g && !q.composed

/-- A stroke's lateness in a region, recorded and counted. -/
def Dev.lateCounted (d : Dev) (r : StrokeRun) (g : Nat) : Dev :=
  ((d.mapRuns (fun x => x.stroke == r.stroke && !x.withdrawn) fun x => { x with late := g :: x.late }).setFlag
    Reg.PRT_EVENT Fld.PRT_EVENT_LATE).count Reg.PRT_LATE_CNT

theorem Dev.strokeLate_some {d : Dev} {g : Nat} {r : StrokeRun} (h : d.prt.strokes.find? (StrokeRun.lateIn g) = some r) :
    d.strokeLate g = (d.lateCounted r g).raise 0x4201 := by
  unfold Dev.strokeLate
  unfold StrokeRun.lateIn at h
  rw [h]
  rfl

theorem Dev.strokeLate_none {d : Dev} {g : Nat} (h : d.prt.strokes.find? (StrokeRun.lateIn g) = none) : d.strokeLate g = d := by
  unfold Dev.strokeLate
  unfold StrokeRun.lateIn at h
  rw [h]

theorem Dev.lateCounted_frame (d : Dev) (r : StrokeRun) (g : Nat) :
    Dev.OnlyRegs { d with prt := (d.lateCounted r g).prt } (d.lateCounted r g) [Reg.PRT_EVENT, Reg.PRT_LATE_CNT] :=
  ((Dev.OnlyRegs.refl _ _).setReg (by simp) _).count (by simp)

/-- The lateness of a stroke shows in the stroke of its number. -/
theorem Dev.lateCounted_runOf {d : Dev} {r : StrokeRun} {g : Nat} (h : d.prt.strokes.find? (StrokeRun.lateIn g) = some r) :
    ∃ r', (d.lateCounted r g).runOf r.stroke = some r' ∧ g ∈ r'.late := by
  have hpresent : (d.runOf r.stroke).isSome := by
    have hlate := List.find?_some h
    simp only [StrokeRun.lateIn, Bool.and_eq_true] at hlate
    obtain ⟨⟨⟨hwithdrawn, -⟩, -⟩, -⟩ := hlate
    exact List.find?_isSome.mpr ⟨r, List.mem_of_find?_eq_some h, by simpa using hwithdrawn⟩
  obtain ⟨x, hx⟩ := Option.isSome_iff_exists.mp hpresent
  obtain ⟨hstroke, hwithdrawn⟩ := Dev.runOf_some hx
  have hmap := Dev.runOf_mapRuns (f := fun x => { x with late := g :: x.late }) (fun _ => ⟨rfl, rfl⟩) d
    (fun x => x.stroke == r.stroke && !x.withdrawn) r.stroke
  rw [hx, Option.map_some, hstroke, hwithdrawn, if_pos (by simp)] at hmap
  exact ⟨_, hmap, List.mem_cons_self⟩

/-- A stroke with a parcel that no porter has composed is recorded late, counted and told. -/
theorem strokeLate_spec {s : State} {g : Fin 4} {r : StrokeRun} (h : s.dev.prt.strokes.find? (StrokeRun.lateIn g) = some r) :
    ∃ t r', exec (.strokeLate g) s = .next t ∧ t.dev.runOf r.stroke = some r' ∧ g.val ∈ r'.late ∧
      t.dev.flag Reg.PRT_EVENT Fld.PRT_EVENT_LATE = true ∧ t.dev.reg Reg.PRT_LATE_CNT = min (s.dev.reg Reg.PRT_LATE_CNT + 1) 0xFFFFFFFF ∧
      t.dev.bel = (s.dev.raise 0x4201).bel ∧ Dev.OnlyBell { s.dev with prt := t.dev.prt } t.dev [Reg.PRT_EVENT, Reg.PRT_LATE_CNT] := by
  have heq := Dev.strokeLate_some (d := s.dev.quiet) h
  obtain ⟨r', hr', hlate⟩ := Dev.lateCounted_runOf (d := s.dev.quiet) h
  have hframe := s.dev.quiet.lateCounted_frame r g
  refine ⟨_, r', (exec_strokeLate s g).trans (congrArg (fun d => Host.Outcome.next (s.done d)) heq), ?_, hlate, ?_, ?_, ?_, State.done_prtBell ?_⟩
  · rw [Dev.runOf, State.done_prt, Dev.raise_prt]
    exact hr'
  · rw [State.done_flag, Dev.flag_congr (Dev.raise_reg_other _ _ (by decide)), Dev.lateCounted,
      Dev.flag_congr (Dev.count_reg_other _ (by decide)), Dev.setFlag_flag_same _ _ _ rfl (by decide)]
  · rw [State.done_reg, Dev.raise_reg_other _ _ (by decide), Dev.lateCounted, Dev.count_reg, if_pos rfl,
      Dev.setFlag_reg_other _ _ (by decide), Dev.mapRuns_reg, Dev.quiet_reg]
  · rw [State.done_bel, hframe.raise_bel]
    exact Dev.raise_bel_congr (d := { s.dev.quiet with prt := (s.dev.quiet.lateCounted r g).prt }) (e := s.dev) rfl rfl rfl rfl _
  · rw [Dev.raise_prt]
    exact hframe.raise _

theorem strokeLate_idles {s : State} {g : Fin 4} (h : s.dev.prt.strokes.find? (StrokeRun.lateIn g) = none) :
    ∃ t, exec (.strokeLate g) s = .next t ∧ Dev.OnlyRegs s.dev t.dev [] :=
  State.unmoved (exec_strokeLate s g) (Dev.strokeLate_none (d := s.dev.quiet) h)

end Sys2Proof.Machine

/-! SUPPORT. How a parcel that is composed ends: what it needs is lost, blocks that it reads fail, or its pixels are written and its seal
holds or fails (R277, R286, R290, R296). -/

namespace Sys2Proof.Machine

/-! ### Which end a composition takes -/

section Ends
variable {d : Dev} {p : Nat} {r : StrokeRun} {q : Parcel}

theorem Dev.parcelComposed_parcel (hcomposes : d.composes = true) (hhalted : d.halted p = false) (hjob : d.jobOf p = none)
    (hin : d.inProgress p = some (r, q)) (hwithdrawn : r.withdrawn = false) (habandoned : r.abandoned = false)
    (hgone : d.tablesGone r q = false) (hst : q.st = .running) (ok : Bool) (bad : List Nat) (err : Option (List Byte)) :
    d.parcelComposed p ok bad 0 err = d.finishParcel p r q ok bad err := by
  unfold Dev.parcelComposed
  rw [hcomposes, hhalted, hjob, hin]
  simp only [hwithdrawn, habandoned, hgone, hst]
  rfl

theorem Dev.parcelComposed_job {j : Job} (hcomposes : d.composes = true) (hhalted : d.halted p = false) (hjob : d.jobOf p = some j)
    (hstalled : j.stalled = false) (hrun : d.runOf j.stroke = some r) (hparcel : d.parcel j.stroke j.region j.number = some q)
    (hgone : d.tablesGone r q = false) (ok : Bool) (bad : List Nat) (err : Option (List Byte)) :
    d.parcelComposed p ok bad 0 err = d.finishJob p j r q ok bad err := by
  unfold Dev.parcelComposed
  rw [hcomposes, hhalted, hjob]
  simp only [hstalled, hrun, hparcel, hgone]
  rfl

end Ends

/-! ### What composing reads -/

theorem Dev.routeOfPixel_congr {d e : Dev} (hwb : d.wb = e.wb) : d.routeOfPixel = e.routeOfPixel := by
  funext c x y
  simp only [Dev.routeOfPixel, Dev.allStops, Dev.portsOf, Dev.role, hwb]

section Reads
variable {d e : Dev} (hmem : d.mem = e.mem) (hwb : d.wb = e.wb)
include hmem

theorem Dev.memByte_congr : d.memByte = e.memByte := by
  funext a
  rw [Dev.memByte, hmem, Dev.memByte]

theorem Dev.memNat_congr : d.memNat = e.memNat := by
  funext a n
  rw [Dev.memNat, Dev.memRead, hmem, Dev.memNat, Dev.memRead]

/-- The pixels that a layer gives rest on memory alone. -/
theorem Dev.sampled_congr : d.sampled = e.sampled := by
  have hnat := Dev.memNat_congr hmem
  have hfetch : d.fetchPixel = e.fetchPixel := by
    funext l s t
    rw [Dev.fetchPixel, hnat, Dev.fetchPixel]
  have hacross : d.bankH = e.bankH := by
    funext bank phase i
    rw [Dev.bankH, hnat, Dev.bankH]
  have hdown : d.bankV = e.bankV := by
    funext bank phase i
    rw [Dev.bankV, hnat, Dev.bankV]
  funext k j l s
  rw [Dev.sampled.eq_def, hfetch, hacross, hdown, Dev.sampled.eq_def]

theorem Dev.sampleOf_congr : d.sampleOf = e.sampleOf := by
  have hpoint : d.meshPoint = e.meshPoint := by
    funext l x y
    rw [Dev.meshPoint, Dev.memNat_congr hmem, Dev.meshPoint]
  have hshift : d.warpShift = e.warpShift := by
    funext l x y
    rw [Dev.warpShift, hpoint, Dev.warpShift]
  funext k j l p
  rw [Dev.sampleOf, hshift, Dev.sampleOf]

theorem Dev.calibrate_congr : d.calibrate = e.calibrate := by
  funext k s i x y c
  rw [Dev.calibrate, Dev.memNat_congr hmem, Dev.memByte_congr hmem, Dev.calibrate]

include hwb

theorem Dev.colourStage_congr : d.colourStage = e.colourStage := by
  have htable : d.tableEntry = e.tableEntry := by
    funext a i
    rw [Dev.tableEntry, Dev.memNat_congr hmem, Dev.tableEntry]
  funext s c
  rw [Dev.colourStage, htable, hwb, Dev.colourStage]

theorem Dev.blendSlots_congr : d.blendSlots = e.blendSlots := by
  have hslot : d.slotPixel = e.slotPixel := by
    funext c k j s x y
    rw [Dev.slotPixel, Dev.sampled_congr hmem, Dev.sampleOf_congr hmem, Dev.colourStage_congr hmem hwb, Dev.slotPixel]
  have hmatte : d.matteAt = e.matteAt := by
    funext c k s x y
    rw [Dev.matteAt, hslot, Dev.matteAt]
  funext c k x y lo hi acc
  rw [Dev.blendSlots, hmatte, hslot, Dev.blendSlots]

theorem Dev.blended_congr : d.blended = e.blended := by
  have hsettled : d.settledValue = e.settledValue := by
    funext c k x y
    rw [Dev.settledValue, Dev.blendSlots_congr hmem hwb, Dev.settledValue]
  funext c k form x y
  rw [Dev.blended.eq_def, hsettled, Dev.blendSlots_congr hmem hwb, Dev.memNat_congr hmem, Dev.blended.eq_def]

/-- What a parcel composes to rests on memory and the waybill. -/
theorem Dev.composed_congr : d.composed = e.composed := by
  have hpixel : d.composePixel = e.composePixel := by
    funext c k form stroke x y
    rw [Dev.composePixel, Dev.routeOfPixel_congr hwb, Dev.colourStage_congr hmem hwb, Dev.blended_congr hmem hwb,
      Dev.calibrate_congr hmem, hwb, Dev.composePixel]
  have hcut : d.composeCut = e.composeCut := by
    funext c form stroke q
    rw [Dev.composeCut, hpixel, Dev.composeCut]
  funext r q err
  rw [Dev.composed.eq_def, hcut, Dev.composed.eq_def]

/-- What a parcel reads rests on memory and the waybill. -/
theorem Dev.inputBlocks_congr : d.inputBlocks = e.inputBlocks := by
  have hslot : d.slotReads = e.slotReads := by
    funext c k j s x y
    rw [Dev.slotReads, Dev.sampleOf_congr hmem, Dev.slotReads]
  have hcut : d.parcelBlocks = e.parcelBlocks := by
    funext c form q
    rw [Dev.parcelBlocks.eq_def, hslot, Dev.routeOfPixel_congr hwb, Dev.parcelBlocks.eq_def]
  funext r q
  rw [Dev.inputBlocks, hcut, Dev.inputBlocks]

end Reads

theorem Dev.quiet_composed (d : Dev) : d.quiet.composed = d.composed := Dev.composed_congr rfl rfl

theorem Dev.quiet_failing (d : Dev) (r : StrokeRun) (q : Parcel) (bad : List Nat) :
    d.quiet.failing (d.quiet.inputBlocks r q) bad = d.failing (d.inputBlocks r q) bad := by
  rw [Dev.inputBlocks_congr (e := d) rfl rfl]
  rfl

theorem Dev.memWake_composed (d : Dev) (blocks : List Nat) (r : StrokeRun) (q : Parcel) (err : Option (List Byte)) :
    (d.memWake blocks).composed r q err = d.composed r q err :=
  congrFun (congrFun (congrFun (Dev.composed_congr (d.memWake_mem blocks) (Dev.Logs.memWake d blocks).wb) r) q) err

theorem Dev.memWake_failing (d : Dev) (woken blocks bad : List Nat) : (d.memWake woken).failing blocks bad = d.failing blocks bad := by
  simp only [Dev.failing, Dev.memWake_isDamaged]

/-! ### The porters' state that ends keep -/

theorem Dev.parcelOver_frame (d : Dev) (x : Nat) : (d.parcelOver x).mem = d.mem ∧ (d.parcelOver x).depLogged = d.depLogged ∧
    (d.parcelOver x).prt.jobs = d.prt.jobs := by
  have hwriters : (d.writersDone x).mem = d.mem ∧ (d.writersDone x).depLogged = d.depLogged ∧ (d.writersDone x).prt.jobs = d.prt.jobs := by
    unfold Dev.writersDone
    split
    · exact ⟨rfl, rfl, rfl⟩
    · dsimp only
      split
      · exact ⟨rfl, rfl, rfl⟩
      · simp [Dev.mapRuns, Dev.setStrokes]
  obtain ⟨hmem, hlogged, hjobs⟩ := hwriters
  have hframe := (d.writersDone x).advanceDone_frame
  refine ⟨?_, ?_, ?_⟩
  · exact (congrArg Dev.mem hframe.rest :).trans hmem
  · exact (congrArg Dev.depLogged hframe.rest :).trans hlogged
  · rw [Dev.parcelOver, Dev.advanceDone_prt]
    exact hjobs

theorem Dev.mapParcel_compared (d : Dev) (x g n : Nat) (k : Parcel → Parcel) :
    ((d.mapParcel x g n k).prt.strokes.filter (·.compared)).length = (d.prt.strokes.filter (·.compared)).length := by
  rw [Dev.mapParcel, Dev.mapRuns, Dev.setStrokes, List.filter_map, List.length_map]
  congr 2
  funext r
  simp only [Function.comp_apply]
  split <;> rfl

/-- Changing a parcel and counting it leaves the pairing. -/
theorem Dev.mapParcel_count_paired (d : Dev) (x g n : Nat) (k : Parcel → Parcel) {a : Nat} (ha : Reg.TWN_STATUS ≠ a) :
    ((d.mapParcel x g n k).count a).paired = d.paired := by
  refine Dev.paired_congr ?_ ?_
  · rw [Dev.count_wb, Dev.mapParcel, Dev.mapRuns, Dev.setStrokes]
  · rw [Dev.count_reg_other _ ha, Dev.mapParcel, Dev.mapRuns_reg]

/-- A composition that leaves device `m`, where no comparison ends. -/
theorem exec_composed {s : State} {p : Fin 256} {ok : Bool} {bad : List Nat} {err : Option (List Byte)} {m : Dev}
    (hend : s.dev.quiet.parcelComposed p ok bad 0 err = m) (hreads : m.readsOver s.dev.quiet = m) :
    exec (.parcelComposed p ok bad 0 err) s = .next (s.done m) := by
  rw [exec_parcelComposed, hend, hreads]

/-! ### A parcel that needs a damaged word (R296) -/

/-- A parcel that becomes unrecoverable, and is counted. -/
def Dev.lostCounted (d : Dev) (x g n : Nat) : Dev :=
  (d.mapParcel x g n fun q => { q with st := .unrecoverable }).count Reg.DEP_UNRECOV_CNT

/-- A parcel becomes unrecoverable, is counted and told; its composition is logged with KIND 12, and is over. -/
def Dev.lostOver (d : Dev) (p x g n : Nat) : Dev :=
  ((((d.lostCounted x g n).depEvent Fld.DEP_EVENT_UNRECOV).raise 0x4301).logParcel 12 0 p x g n 0 false).parcelOver x

theorem Dev.finishParcel_lost {d : Dev} {p : Nat} {r : StrokeRun} {q : Parcel} (hlost : r.needsLost q = true)
    (hparcel : d.parcel r.stroke q.region q.number = some q) (hst : q.st = .running) (ok : Bool) (bad : List Nat) (err : Option (List Byte)) :
    d.finishParcel p r q ok bad err = d.lostOver p r.stroke q.region q.number := by
  unfold Dev.finishParcel Dev.unrecoverable
  rw [hlost, hparcel, Option.any_some, hst]
  rfl

section LostOver
variable (d : Dev) (p x g n : Nat)

theorem Dev.lostCounted_prt : (d.lostCounted x g n).prt = (d.mapParcel x g n fun q => { q with st := .unrecoverable }).prt := by
  rw [Dev.lostCounted, Dev.count_prt]

theorem Dev.lostOver_beside : Dev.Beside (d.lostCounted x g n) (d.lostOver p x g n) :=
  (((Dev.Beside.depEvent _ _).trans (.raise _ _)).trans (.logParcel _ _ _ _ _ _ _ _ _)).trans (.parcelOver _ _)

theorem Dev.lostOver_parcel {q : Parcel} (h : d.parcel x g n = some q) :
    (d.lostOver p x g n).parcel x g n = some { q with st := .unrecoverable } := by
  rw [(d.lostOver_beside p x g n).parcels, Dev.parcel_congr (congrArg Prt.strokes (d.lostCounted_prt x g n))]
  exact Dev.parcel_mapParcel_same (k := fun q => { q with st := .unrecoverable }) (fun _ => ⟨rfl, rfl⟩) h

theorem Dev.lostOver_count : (d.lostOver p x g n).reg Reg.DEP_UNRECOV_CNT = min (d.reg Reg.DEP_UNRECOV_CNT + 1) 0xFFFFFFFF := by
  rw [(d.lostOver_beside p x g n).regs _ (.inl (by decide)), Dev.lostCounted, Dev.count_reg, if_pos rfl, Dev.mapParcel, Dev.mapRuns_reg]

theorem Dev.lostOver_readsOver : (d.lostOver p x g n).readsOver d = d.lostOver p x g n := by
  have hbeside := d.lostOver_beside p x g n
  refine Dev.readsOver_of_beside ?_ (hbeside.paired.trans (Dev.mapParcel_count_paired _ _ _ _ _ (by decide)))
  rw [hbeside.compared, Dev.lostCounted_prt, Dev.mapParcel_compared]

end LostOver

/-- Word 0 of a log entry with OUTCOME 0 begins with its KIND. -/
theorem LogEntry.words_kind {e : LogEntry} {k : Nat} (hkind : e.kind = k) (hk : k < 256) (houtcome : e.outcome = 0) (seq : Nat) :
    (e.words seq).getD 0 0 % 2 ^ 12 = k := by
  simp only [LogEntry.words, List.getD_cons_zero, hkind, houtcome]
  split <;> split <;> omega

/-- Where the log has no ring, the entry of a lost parcel stands first. -/
theorem Dev.lostOver_logged {d : Dev} (h : d.Ringless) (p x g n : Nat) : ∃ ws rest, (d.lostOver p x g n).depLogged = ws :: rest ∧
    ws.getD 0 0 % 2 ^ 12 = 12 ∧ ws.getD 3 0 = n % 2 ^ 32 := by
  have hbefore : Dev.Logs (d.lostCounted x g n) (((d.lostCounted x g n).depEvent Fld.DEP_EVENT_UNRECOV).raise 0x4301) :=
    (Dev.Logs.depEvent _ _).trans (.raise _ _)
  have hcounted : (d.lostCounted x g n).Ringless := by
    rw [Dev.Ringless, Dev.lostCounted, Dev.count_reg_other _ (by decide), Dev.mapParcel, Dev.mapRuns_reg]
    exact h
  obtain ⟨-, hlogged, -⟩ := Dev.parcelOver_frame
    ((((d.lostCounted x g n).depEvent Fld.DEP_EVENT_UNRECOV).raise 0x4301).logParcel 12 0 p x g n 0 false) x
  rw [Dev.lostOver, hlogged, Dev.logParcel, (Dev.depLog_ringless (hbefore.ringless hcounted) _).2, List.take_cons (by decide)]
  refine ⟨_, _, rfl, ?_, ?_⟩
  · exact LogEntry.words_kind (k := 12) rfl (by decide) rfl _
  · rw [LogEntry.words]
    rfl

/-- A parcel that needs a damaged control word is unrecoverable, and logged with KIND 12. -/
theorem parcelComposed_lost {s : State} {p : Fin 256} {r : StrokeRun} {q : Parcel} {ok : Bool} {bad : List Nat} {err : Option (List Byte)}
    (heq : s.dev.quiet.parcelComposed p ok bad 0 err = s.dev.quiet.finishParcel p r q ok bad err) (hst : q.st = .running)
    (hparcel : s.dev.parcel r.stroke q.region q.number = some q) (hlost : r.needsLost q = true) :
    ∃ t ws rest, exec (.parcelComposed p ok bad 0 err) s = .next t ∧
      t.dev.parcel r.stroke q.region q.number = some { q with st := .unrecoverable } ∧
      t.dev.reg Reg.DEP_UNRECOV_CNT = min (s.dev.reg Reg.DEP_UNRECOV_CNT + 1) 0xFFFFFFFF ∧
      (bit (s.dev.reg Reg.DEP_LOG_RING) 31 = false → t.dev.depLogged = ws :: rest ∧ ws.getD 0 0 % 2 ^ 12 = 12 ∧
        ws.getD 3 0 = q.number % 2 ^ 32) := by
  have hend := heq.trans (Dev.finishParcel_lost (d := s.dev.quiet) hlost hparcel hst ok bad err)
  have hexec := exec_composed hend (s.dev.quiet.lostOver_readsOver _ _ _ _)
  have hnow := (s.done_parcel _ _ _ _).trans (s.dev.quiet.lostOver_parcel p r.stroke q.region q.number hparcel)
  have hcount := (s.done_reg _ _).trans (s.dev.quiet.lostOver_count p r.stroke q.region q.number)
  by_cases hring : bit (s.dev.reg Reg.DEP_LOG_RING) 31 = false
  · obtain ⟨ws, rest, hlogged, hkind, hnumber⟩ := Dev.lostOver_logged (d := s.dev.quiet) hring p r.stroke q.region q.number
    refine ⟨_, ws, rest, hexec, hnow, hcount, fun _ => ⟨?_, hkind, hnumber⟩⟩
    rw [← hlogged]
    simp
  · exact ⟨_, [], [], hexec, hnow, hcount, fun h => absurd h hring⟩

/-! ### A parcel that reads blocks that fail (Table 12.2) -/

/-- Ladders of a parcel, one for each of its blocks. -/
structure LaddersOf (stroke region number : Nat) (blocks : List Nat) (ls : List Ladder) : Prop where
  length : ls.length = blocks.length
  each : ∀ b ∈ blocks, ∃ l ∈ ls, l.block = b ∧ l.stroke = stroke ∧ l.region = region ∧ l.parcel = number

/-- The ladder of a block that a parcel reads and that fails begins (Table 12.2). -/
def Dev.ladderBegun (d : Dev) (p x g n : Nat) (job : Bool) (b : Nat) : Dev :=
  let kind := if d.kindAt (b * 256) == 2 then 2 else 1
  let d := d.blockFailed b
  { d with ladders := d.ladders ++ [{ kind, unit_ := p, block := b, stroke := x, region := g, parcel := n, job }] }

theorem Dev.inputLadders_cons (d : Dev) (p x g n : Nat) (job : Bool) (b : Nat) (bs : List Nat) :
    d.inputLadders p x g n job (b :: bs) = (d.ladderBegun p x g n job b).inputLadders p x g n job bs := rfl

theorem Dev.ladderBegun_spec (d : Dev) (p x g n : Nat) (job : Bool) (b : Nat) :
    ∃ l : Ladder, (d.ladderBegun p x g n job b).ladders = d.ladders ++ [l] ∧
      (l.block = b ∧ l.stroke = x ∧ l.region = g ∧ l.parcel = n) ∧ (d.ladderBegun p x g n job b).mem = d.mem ∧
      Dev.Logs d (d.ladderBegun p x g n job b) := by
  have hfailed := Dev.Logs.blockFailed d b
  have hsame : (d.blockFailed b).ladders = d.ladders ∧ (d.blockFailed b).mem = d.mem := by simp [Dev.blockFailed]
  obtain ⟨hladders, hmem⟩ := hsame
  unfold Dev.ladderBegun
  generalize d.blockFailed b = f at *
  exact ⟨_, congrArg (· ++ _) hladders, ⟨rfl, rfl, rfl, rfl⟩, hmem, hfailed.trans ⟨fun _ _ => rfl, rfl, rfl, rfl⟩⟩

/-- Each block that fails begins its ladder; memory, and what logging leaves, are as before. -/
theorem Dev.inputLadders_spec (p x g n : Nat) (job : Bool) (blocks : List Nat) (d : Dev) :
    ∃ ls, (d.inputLadders p x g n job blocks).ladders = d.ladders ++ ls ∧ LaddersOf x g n blocks ls ∧
      (d.inputLadders p x g n job blocks).mem = d.mem ∧ Dev.Logs d (d.inputLadders p x g n job blocks) := by
  induction blocks generalizing d with
  | nil => exact ⟨[], (List.append_nil _).symm, ⟨rfl, fun _ h => absurd h List.not_mem_nil⟩, rfl, .refl d⟩
  | cons b bs ih =>
    rw [Dev.inputLadders_cons]
    obtain ⟨l, hfirst, hl, hmem, hlogs⟩ := d.ladderBegun_spec p x g n job b
    generalize d.ladderBegun p x g n job b = m at *
    obtain ⟨ls, hladders, ⟨hlength, heach⟩, hmem', hlogs'⟩ := ih m
    refine ⟨l :: ls, ?_, ⟨by simp [hlength], fun c hc => ?_⟩, hmem'.trans hmem, hlogs.trans hlogs'⟩
    · rw [hladders, hfirst, List.append_assoc, List.singleton_append]
    · rcases List.mem_cons.mp hc with rfl | hc
      · exact ⟨l, List.mem_cons_self, hl⟩
      · obtain ⟨k, hk, hfields⟩ := heach c hc
        exact ⟨k, List.mem_cons_of_mem _ hk, hfields⟩

/-- The parcel stalls at the blocks that it reads and that fail. -/
def Dev.stalledAt (d : Dev) (p : Nat) (r : StrokeRun) (q : Parcel) (fails : List Nat) : Dev :=
  ((d.memWake (d.inputBlocks r q)).mapParcel r.stroke q.region q.number fun x => { x with st := .stalled }).inputLadders p r.stroke
    q.region q.number false fails

theorem Dev.finishParcel_stalled {d : Dev} {p : Nat} {r : StrokeRun} {q : Parcel} {bad : List Nat} (hlost : r.needsLost q = false)
    (hfails : d.failing (d.inputBlocks r q) bad ≠ []) (ok : Bool) (err : Option (List Byte)) :
    d.finishParcel p r q ok bad err = d.stalledAt p r q (d.failing (d.inputBlocks r q) bad) := by
  unfold Dev.finishParcel
  rw [hlost]
  dsimp only
  rw [if_neg Bool.false_ne_true, Dev.memWake_failing, if_pos (by simpa using hfails)]
  rfl

/-- The parcel stalls, its ladders begin, and memory, staging and the comparisons are as before. -/
theorem Dev.stalledAt_spec {d : Dev} {r : StrokeRun} {q : Parcel} (h : d.parcel r.stroke q.region q.number = some q) (p : Nat)
    (fails : List Nat) : ∃ ls, (d.stalledAt p r q fails).ladders = d.ladders ++ ls ∧ LaddersOf r.stroke q.region q.number fails ls ∧
      (d.stalledAt p r q fails).parcel r.stroke q.region q.number = some { q with st := .stalled } ∧
      (d.stalledAt p r q fails).mem = d.mem ∧ (d.stalledAt p r q fails).staging = d.staging ∧
      (d.stalledAt p r q fails).readsOver d = d.stalledAt p r q fails := by
  have hwake := Dev.Logs.memWake d (d.inputBlocks r q)
  have hwoken : (d.memWake (d.inputBlocks r q)).ladders = d.ladders := (congrArg Dev.ladders (d.memWake_onlyRegs _).rest :)
  have hmem := d.memWake_mem (d.inputBlocks r q)
  unfold Dev.stalledAt
  generalize d.memWake (d.inputBlocks r q) = w at *
  have hparcel : w.parcel r.stroke q.region q.number = some q := (Dev.parcel_congr (congrArg Prt.strokes hwake.prt) _ _ _).trans h
  have hmap := Dev.parcel_mapParcel_same (k := fun x => { x with st := .stalled }) (fun _ => ⟨rfl, rfl⟩) hparcel
  have hcompared := w.mapParcel_compared r.stroke q.region q.number fun x => { x with st := .stalled }
  have hsame : Dev.Logs d w → (w.mapParcel r.stroke q.region q.number fun x => { x with st := .stalled }).wb = d.wb ∧
      (w.mapParcel r.stroke q.region q.number fun x => { x with st := .stalled }).staging = d.staging ∧
      (∀ k, Held k → (w.mapParcel r.stroke q.region q.number fun x => { x with st := .stalled }).reg k = d.reg k) :=
    fun h => ⟨h.wb, h.staging, h.regs⟩
  have hladders : (w.mapParcel r.stroke q.region q.number fun x => { x with st := .stalled }).ladders = d.ladders := hwoken
  have hmemory : (w.mapParcel r.stroke q.region q.number fun x => { x with st := .stalled }).mem = d.mem := hmem
  obtain ⟨hwb, hstaging, hregs⟩ := hsame hwake
  generalize (w.mapParcel r.stroke q.region q.number fun x => { x with st := .stalled }) = m at *
  obtain ⟨ls, hls, hof, hmem', hlogs⟩ := Dev.inputLadders_spec p r.stroke q.region q.number false fails m
  refine ⟨ls, by rw [hls, hladders], hof, ?_, hmem'.trans hmemory, hlogs.staging.trans hstaging, Dev.readsOver_of_beside ?_ ?_⟩
  · rw [Dev.parcel_congr (congrArg Prt.strokes hlogs.prt), hmap]
  · rw [hlogs.prt, hcompared, hwake.prt]
  · exact Dev.paired_congr (hlogs.wb.trans hwb) ((hlogs.regs _ (.inl (by decide))).trans (hregs _ (.inl (by decide))))

/-- A parcel that reads blocks that fail stalls, with a ladder for each of them. -/
theorem parcelComposed_stalled {s : State} {p : Fin 256} {r : StrokeRun} {q : Parcel} {ok : Bool} {bad : List Nat} {err : Option (List Byte)}
    (heq : s.dev.quiet.parcelComposed p ok bad 0 err = s.dev.quiet.finishParcel p r q ok bad err)
    (hparcel : s.dev.parcel r.stroke q.region q.number = some q) (hlost : r.needsLost q = false)
    (hfails : s.dev.failing (s.dev.inputBlocks r q) bad ≠ []) :
    ∃ t, exec (.parcelComposed p ok bad 0 err) s = .next t ∧
      t.dev.parcel r.stroke q.region q.number = some { q with st := .stalled } ∧
      t.dev.ladders.length = s.dev.ladders.length + (s.dev.failing (s.dev.inputBlocks r q) bad).length ∧
      (∀ b ∈ s.dev.failing (s.dev.inputBlocks r q) bad, ∃ l ∈ t.dev.ladders, l.block = b ∧ l.stroke = r.stroke ∧ l.region = q.region ∧
        l.parcel = q.number) ∧ t.dev.mem = s.dev.mem ∧ t.dev.staging = s.dev.staging := by
  rw [← Dev.quiet_failing] at *
  have hend := heq.trans (Dev.finishParcel_stalled hlost hfails ok err)
  generalize s.dev.quiet.failing (s.dev.quiet.inputBlocks r q) bad = fails at *
  obtain ⟨ls, hladders, hof, hnow, hmem, hstaging, hreads⟩ := Dev.stalledAt_spec (d := s.dev.quiet) hparcel p fails
  refine ⟨_, exec_composed hend hreads, (s.done_parcel _ _ _ _).trans hnow, ?_, fun b hb => ?_, by simpa using hmem, by simpa using hstaging⟩
  · simp [hladders, hof.length]
  · obtain ⟨l, hl, hfields⟩ := hof.each b hb
    exact ⟨l, by simp [hladders, hl], hfields⟩

end Sys2Proof.Machine

/-! SUPPORT. Where the pixels of a parcel lie once it is written (R161, R162), and what writing them leaves as it was. -/

namespace Sys2Proof.Machine

/-! ### What writing a parcel leaves -/

/-- Device `d` is device `e` after steps that may write memory and staging, log and tell: the held registers, the waybill and the porters'
state are as they were. -/
structure Dev.Stores (e d : Dev) : Prop where
  regs : ∀ k, Held k → d.reg k = e.reg k
  wb : d.wb = e.wb
  prt : d.prt = e.prt

namespace Dev.Stores

theorem refl (d : Dev) : Dev.Stores d d := ⟨fun _ _ => rfl, rfl, rfl⟩

theorem trans {a b c : Dev} (h : Dev.Stores a b) (k : Dev.Stores b c) : Dev.Stores a c :=
  ⟨fun o ho => (k.regs o ho).trans (h.regs o ho), k.wb.trans h.wb, k.prt.trans h.prt⟩

theorem foldl {α : Type} {f : Dev → α → Dev} (hf : ∀ d x, Dev.Stores d (f d x)) (l : List α) (d : Dev) : Dev.Stores d (l.foldl f d) :=
  List.foldlRecOn (motive := fun e => Dev.Stores d e) l f (refl d) fun e he x _ => he.trans (hf e x)

theorem of_logs {e d : Dev} (h : Dev.Logs e d) : Dev.Stores e d := ⟨h.regs, h.wb, h.prt⟩

theorem memStore (d : Dev) (a : Nat) (bs : List Byte) (bad : List Nat) : Dev.Stores d (d.memStore a bs bad) := of_logs (.memStore d a bs bad)

end Dev.Stores

theorem Dev.Logs.stagingLost (d : Dev) (b : Nat) : Dev.Logs d (d.stagingLost b) := by
  have hset : Dev.Logs d { d with stagingDamaged := insertSorted d.stagingDamaged b } := ⟨fun _ _ => rfl, rfl, rfl, rfl⟩
  exact (hset.trans (.depEvent _ _)).trans (.raise _ _)

theorem Dev.Logs.stagingReads (d : Dev) (a n : Nat) (bad : List Nat) : Dev.Logs d (d.stagingReads a n bad) := by
  refine Dev.Logs.foldl (fun d b => ?_) _ d
  dsimp only
  have hcount := Dev.Logs.count d (a := Reg.DEP_BLOCK_FAIL_CNT) not_held_low
  exact .ite (.refl d) (.ite ((hcount.trans (.count _ not_held_low)).trans (.depLog _ _)) ((hcount.trans (.stagingLost _ b)).trans (.depLog _ _)))

theorem Dev.stagingWrite_stores (d : Dev) (a : Nat) (bs : List Byte) (bad : List Nat) : Dev.Stores d (d.stagingWrite a bs bad) :=
  (Dev.Stores.of_logs (.stagingReads d a bs.length bad)).trans ⟨fun _ _ => rfl, rfl, rfl⟩

/-- What is written into staging lands there, whatever its reads met. -/
theorem Dev.stagingWrite_staging (d : Dev) (a : Nat) (bs : List Byte) (bad : List Nat) :
    (d.stagingWrite a bs bad).staging = d.staging.write memDefault a bs := by
  rw [Dev.stagingWrite, (Dev.Logs.stagingReads d a bs.length bad).staging]

theorem Dev.storeWrite_stores (d : Dev) (r : StrokeRun) (x y : Nat) (bs : List Byte) (bad : List Nat) :
    Dev.Stores d (d.storeWrite r x y bs bad) := by
  unfold Dev.storeWrite
  dsimp only
  split
  · exact d.stagingWrite_stores _ _ _
  · exact .memStore d _ _ _

theorem Dev.writeParcel_stores (d : Dev) (r : StrokeRun) (q : Parcel) (px : List (List Byte)) (bad : List Nat) :
    Dev.Stores d (d.writeParcel r q px bad) := .foldl (fun d _ => d.storeWrite_stores r _ _ _ bad) _ d

/-! ### Rows that lie apart -/

/-- Rows of bytes written one after another, each to a place past those before it, all lie at their places. -/
theorem foldl_rows_get {get : Dev → Nat → Byte} {write : Dev → Nat → Dev} {ok : Dev → Prop} {place : Nat → Nat} {row : Nat → List Byte}
    (hok : ∀ d b, ok d → ok (write d b))
    (hget : ∀ d b, ok d → ∀ x, get (write d b) x =
      if place b ≤ x ∧ x < place b + (row b).length then (row b).getD (x - place b) 0 else get d x)
    (hapart : ∀ b c, b < c → place b + (row b).length ≤ place c) (h : Nat) (d : Dev) (hd : ok d) :
    ok ((List.range h).foldl write d) ∧
      ∀ b < h, ∀ i < (row b).length, get ((List.range h).foldl write d) (place b + i) = (row b).getD i 0 := by
  induction h with
  | zero => exact ⟨hd, fun _ hb => absurd hb (Nat.not_lt_zero _)⟩
  | succ h ih =>
    obtain ⟨hokh, hrows⟩ := ih
    rw [List.range_succ, List.foldl_append]
    refine ⟨hok _ _ hokh, fun b hb i hi => ?_⟩
    rw [List.foldl_cons, List.foldl_nil, hget _ _ hokh]
    rcases Nat.lt_succ_iff_lt_or_eq.mp hb with hlt | rfl
    · have hbelow := hapart b h hlt
      rw [if_neg (by omega)]
      exact hrows b hlt i hi
    · rw [if_pos (by omega), Nat.add_sub_cancel_left]

theorem getD_flatten_uniform {l : List (List Byte)} {n j : Nat} (hl : ∀ x ∈ l, x.length = n) (hj : j < n) (a : Nat) :
    l.flatten.getD (n * a + j) 0 = (l.getD a []).getD j 0 := by
  induction l generalizing a with
  | nil => simp
  | cons x xs ih =>
    have hx := hl x List.mem_cons_self
    cases a with
    | zero =>
      rw [List.flatten_cons, Nat.mul_zero, Nat.zero_add, List.getD_append _ _ _ _ (by omega), List.getD_cons_zero]
    | succ a =>
      have hskip : n * (a + 1) + j - x.length = n * a + j := by rw [Nat.mul_succ]; omega
      rw [List.flatten_cons, List.getD_append_right _ _ _ _ (by rw [Nat.mul_succ]; omega), hskip, List.getD_cons_succ,
        ih (fun y hy => hl y (List.mem_cons_of_mem _ hy))]

theorem length_flatten_uniform {l : List (List Byte)} {n : Nat} (hl : ∀ x ∈ l, x.length = n) : l.flatten.length = n * l.length := by
  rw [List.length_flatten, List.map_congr_left hl, List.map_const', List.sum_replicate, smul_eq_mul, Nat.mul_comm]

/-! ### The pixels of a parcel -/

theorem pixelBytes_length (c : Nat × Nat × Nat × Nat) : (pixelBytes c).length = 6 := by
  simp [pixelBytes]

theorem Cut.pixels_length (q : Cut) : q.pixels.length = q.w * q.h := by
  simp [Cut.pixels, List.length_flatMap, Nat.mul_comm]

/-- A parcel composes to as many pixels as it has, of 6 B each (R150). -/
theorem Dev.composed_length (d : Dev) (r : StrokeRun) (q : Parcel) (err : Option (List Byte)) :
    (d.composed r q err).length = q.w * q.h ∧ ∀ x ∈ d.composed r q err, x.length = 6 := by
  cases err with
  | some bs => simp [Dev.composed, Parcel.area]
  | none =>
    have hcomposed : d.composed r q none = d.composeCut r.version (r.form q) r.composedAs q.cut := rfl
    rw [hcomposed, Dev.composeCut]
    refine ⟨by rw [List.length_map, Cut.pixels_length]; rfl, fun x hx => ?_⟩
    obtain ⟨c, -, rfl⟩ := List.mem_map.mp hx
    exact pixelBytes_length _

/-- The bytes of row `b` of a parcel's pixels. -/
def rowBytes (q : Parcel) (px : List (List Byte)) (b : Nat) : List Byte := ((px.drop (b * q.w)).take q.w).flatten

section Rows
variable {q : Parcel} {px : List (List Byte)} (hsix : ∀ x ∈ px, x.length = 6)
include hsix

theorem rowBytes_six (b : Nat) : ∀ x ∈ (px.drop (b * q.w)).take q.w, x.length = 6 :=
  fun x hx => hsix x (List.mem_of_mem_drop (List.mem_of_mem_take hx))

theorem rowBytes_length_le (b : Nat) : (rowBytes q px b).length ≤ 6 * q.w := by
  rw [rowBytes, length_flatten_uniform (rowBytes_six hsix b)]
  exact Nat.mul_le_mul_left 6 (List.length_take_le _ _)

theorem rowBytes_length (hpx : px.length = q.w * q.h) {b : Nat} (hb : b < q.h) : (rowBytes q px b).length = 6 * q.w := by
  have hrow : b * q.w + q.w ≤ px.length := by
    rw [hpx, ← Nat.succ_mul, Nat.mul_comm q.w]
    exact Nat.mul_le_mul_right _ hb
  rw [rowBytes, length_flatten_uniform (rowBytes_six hsix b), List.length_take, List.length_drop, Nat.min_eq_left (by omega)]

theorem rowBytes_getD {a j : Nat} (ha : a < q.w) (hj : j < 6) (b : Nat) :
    (rowBytes q px b).getD (6 * a + j) 0 = (px.getD (b * q.w + a) []).getD j 0 := by
  rw [rowBytes, getD_flatten_uniform (rowBytes_six hsix b) hj]
  simp [List.getD_eq_getElem?_getD, ha]

end Rows

/-! ### Their places -/

theorem Dev.pixelPlace_congr {d e : Dev} (hwb : d.wb = e.wb) (r : StrokeRun) (x y : Nat) : d.pixelPlace r x y = e.pixelPlace r x y := by
  simp only [Dev.pixelPlace, Dev.storeBase, Dev.canvasArea, hwb]

/-- Rows of a parcel that lies on the canvas follow one another. -/
theorem Dev.pixelPlace_rows (d : Dev) (r : StrokeRun) {q : Parcel} (hin : q.x + q.w ≤ d.wb.canvasW) {b c : Nat} (h : b < c) :
    d.pixelPlace r q.x (q.y + b) + 6 * q.w ≤ d.pixelPlace r q.x (q.y + c) := by
  have hstep : (q.y + b) * d.wb.canvasW + d.wb.canvasW ≤ (q.y + c) * d.wb.canvasW := by
    rw [← Nat.succ_mul]
    exact Nat.mul_le_mul_right _ (by omega)
  unfold Dev.pixelPlace
  dsimp only
  split <;> omega

/-- A device no block of whose software memory fails its check. -/
def Dev.Whole (d : Dev) : Prop := d.damaged = [] ∧ d.weak = []

/-- A write into memory none of whose blocks fails lands where it says, and damages nothing. -/
theorem Dev.memStore_of_whole {d : Dev} (h : d.Whole) (a : Nat) (bs : List Byte) : (d.memStore a bs []).Whole ∧ ∀ x,
    (d.memStore a bs []).memByte x = if a ≤ x ∧ x < a + bs.length then bs.getD (x - a) 0 else d.memByte x := by
  obtain ⟨hdamaged, hweak⟩ := h
  rw [d.memStore_whole a bs fun b _ => ⟨by simp [Dev.isDamaged, hdamaged], by simp [hweak]⟩]
  refine ⟨⟨List.eq_nil_iff_forall_not_mem.mpr fun b hb => ?_, ?_⟩, fun x => ?_⟩
  · have hmet : (d.metIn a bs.length).isDamaged b = false := by
      rw [Dev.isDamaged, show (d.metIn a bs.length).damaged = [] from hdamaged, List.contains_nil]
    have hnone := (d.metIn a bs.length).memWrite_isDamaged a bs b
    rw [hmet, Bool.false_and] at hnone
    exact absurd (List.contains_iff_mem.mpr hb) (by rw [← Dev.isDamaged, hnone]; decide)
  · simp [Dev.memWrite_weak, Dev.metIn, hweak]
  · exact Dev.memWrite_memByte _ _ _ _

/-- Where the bytes of a stroke's pixels are read back. -/
def Dev.pixelByte (r : StrokeRun) (d : Dev) (x : Nat) : Byte := if r.racing then d.staging.get memDefault x else d.memByte x

/-- A row of pixels that is written lies at its place. -/
theorem Dev.storeWrite_pixelByte {d : Dev} {r : StrokeRun} (h : r.racing = false → d.Whole) (x y : Nat) (bs : List Byte) :
    (r.racing = false → (d.storeWrite r x y bs []).Whole) ∧ ∀ k, Dev.pixelByte r (d.storeWrite r x y bs []) k =
      if d.pixelPlace r x y ≤ k ∧ k < d.pixelPlace r x y + bs.length then bs.getD (k - d.pixelPlace r x y) 0 else Dev.pixelByte r d k := by
  unfold Dev.storeWrite Dev.pixelByte
  dsimp only
  cases hr : r.racing with
  | true =>
    refine ⟨fun h => absurd h (by decide), fun k => ?_⟩
    simp only [if_true]
    rw [Dev.stagingWrite_staging, Tab.get_write]
    by_cases hin : d.pixelPlace r x y ≤ k ∧ k < d.pixelPlace r x y + bs.length
    · rw [if_pos hin, if_pos hin.1, List.getD_eq_getElem _ _ (by omega), List.getD_eq_getElem _ _ (by omega)]
    · rw [if_neg hin]
      split
      · rw [List.getD_eq_default _ _ (by omega)]
      · rfl
  | false =>
    obtain ⟨hwhole, hbytes⟩ := Dev.memStore_of_whole (h hr) (d.pixelPlace r x y) bs
    exact ⟨fun _ => hwhole, hbytes⟩

/-- A parcel that is written where no block fails has each byte of its pixels at the place of its pixel. -/
theorem Dev.writeParcel_pixelByte {d : Dev} {r : StrokeRun} {q : Parcel} {px : List (List Byte)} (h : r.racing = false → d.Whole)
    (hin : q.x + q.w ≤ d.wb.canvasW) (hpx : px.length = q.w * q.h) (hsix : ∀ x ∈ px, x.length = 6) {a b j : Nat} (ha : a < q.w)
    (hb : b < q.h) (hj : j < 6) : Dev.pixelByte r (d.writeParcel r q px []) (d.pixelPlace r q.x (q.y + b) + (6 * a + j)) =
      (px.getD (b * q.w + a) []).getD j 0 := by
  have hwritten := foldl_rows_get (get := Dev.pixelByte r) (write := fun d b => d.storeWrite r q.x (q.y + b) (rowBytes q px b) [])
    (ok := fun e => (r.racing = false → e.Whole) ∧ e.wb = d.wb) (place := fun b => d.pixelPlace r q.x (q.y + b)) (row := rowBytes q px)
    (fun e b he => ⟨(Dev.storeWrite_pixelByte he.1 _ _ _).1, (e.storeWrite_stores _ _ _ _ _).wb.trans he.2⟩)
    (fun e b he k => by rw [(Dev.storeWrite_pixelByte he.1 _ _ _).2, Dev.pixelPlace_congr he.2])
    (fun b c hbc => (Nat.add_le_add_left (rowBytes_length_le hsix b) _).trans (d.pixelPlace_rows r hin hbc)) q.h d ⟨h, rfl⟩
  rw [← rowBytes_getD hsix ha hj]
  exact hwritten.2 b hb (6 * a + j) (by rw [rowBytes_length hsix hpx hb]; omega)

/-- The place of a byte of a pixel, in staging or in the slot of its stroke. -/
theorem Dev.pixelPlace_eq (d : Dev) (r : StrokeRun) (q : Parcel) (a b j : Nat) : d.pixelPlace r q.x (q.y + b) + (6 * a + j) =
    (if r.racing then 0 else d.storeBase + r.stroke % (r.lead + 1) * (d.wb.canvasW * d.wb.canvasH) * 6) +
      (((q.y + b) * d.wb.canvasW + q.x + a) * 6 + j) := by
  unfold Dev.pixelPlace Dev.canvasArea
  dsimp only
  split <;> omega

end Sys2Proof.Machine

/-! SUPPORT. The end of a parcel whose pixels are written: its seal holds, or fails and asks for a recomposition (R277, R290). -/

namespace Sys2Proof.Machine

/-! ### Asking for a composition -/

/-- What a recomposition or audit is of. -/
def Job.asks (j : Job) : JobKind × Nat × Nat × Nat := (j.kind, j.stroke, j.region, j.number)

theorem replaceJob_asks {g : Job → Job} (hg : ∀ j, (g j).asks = j.asks) (p : Job → Bool) (js : List Job) :
    (replaceJob p (fun j => some (g j)) js).map Job.asks = js.map Job.asks := by
  induction js with
  | nil => rfl
  | cons j js ih =>
    rw [replaceJob]
    split
    · rw [List.map_cons, hg, List.map_cons]
    · rw [List.map_cons, ih, List.map_cons]

/-- Entries given to what waits for one change nothing else of it. -/
theorem Dev.placeJobs_asks (d : Dev) : d.placeJobs.prt.jobs.map Job.asks = d.prt.jobs.map Job.asks := by
  unfold Dev.placeJobs
  refine List.foldlRecOn (motive := fun e : Dev => e.prt.jobs.map Job.asks = d.prt.jobs.map Job.asks) _ _ rfl fun e he j _ => ?_
  split
  · next q _ => exact (replaceJob_asks (g := fun j => { j with porter := some q }) (fun _ => rfl) _ _).trans he
  · exact he

theorem Dev.addJob_asks (d : Dev) (kind : JobKind) (x g n unit_ : Nat) :
    (d.addJob kind x g n unit_).prt.jobs.map Job.asks = d.prt.jobs.map Job.asks ++ [(kind, x, g, n)] := by
  rw [Dev.addJob, Dev.placeJobs_asks, List.map_append]
  rfl

/-! ### Counting and writing the parcel -/

/-- The blocks that a parcel reads are awake, and its porter's clocks and the parcel are counted. -/
def Dev.composedCounted (d : Dev) (p : Nat) (r : StrokeRun) (q : Parcel) : Dev :=
  ((d.memWake (d.inputBlocks r q)).busyBy p (r.parcelClocks q)).count (Reg.PRT_PW_DONE_CNT p)

/-- The parcel's pixels are written, and the settled values of a writer too (R161, R162, R189). -/
def Dev.parcelWritten (d : Dev) (p : Nat) (r : StrokeRun) (q : Parcel) (px : List (List Byte)) (bad : List Nat) : Dev :=
  let d := (d.composedCounted p r q).writeParcel r q px bad
  match r.writes.find? (·.1 == q.stack) with
  | some w => (d.settledCut r.version w.2 q.cut).foldl (fun (d : Dev) (e : Nat × List Byte) => d.memStore e.1 e.2 bad) d
  | none => d

section Written
variable (d : Dev) (p : Nat) (r : StrokeRun) (q : Parcel)

theorem Dev.composedCounted_reg {k : Nat} (hk : Held k) : (d.composedCounted p r q).reg k =
    if k = Reg.PRT_PW_DONE_CNT p then min (d.reg k + 1) 0xFFFFFFFF else d.reg k := by
  have hwoken {k : Nat} (hk : Held k) : ((d.memWake (d.inputBlocks r q)).busyBy p (r.parcelClocks q)).reg k = d.reg k := by
    rw [Dev.busyBy_reg_other _ _ fun h => not_held_busy p (h ▸ hk)]
    exact (Dev.Logs.memWake d _).regs k hk
  rw [Dev.composedCounted, Dev.count_reg, hwoken hk, hwoken (held_done p)]
  split
  · next h => rw [h]
  · rfl

theorem Dev.composedCounted_prt : (d.composedCounted p r q).prt = { d.prt with busy := (d.composedCounted p r q).prt.busy } := by
  rw [Dev.composedCounted, Dev.count_prt, Dev.busyBy_prt, (Dev.Logs.memWake d _).prt]

theorem Dev.composedCounted_frame : (d.composedCounted p r q).wb = d.wb ∧ (d.composedCounted p r q).mem = d.mem ∧
    (d.composedCounted p r q).damaged = d.damaged ∧ (d.composedCounted p r q).weak = d.weak := by
  obtain ⟨hwb, hmem, hdamaged, hweak⟩ := (d.memWake (d.inputBlocks r q)).busyBy_frame p (r.parcelClocks q)
  rw [Dev.composedCounted, Dev.count_wb, Dev.count_mem, Dev.count_damaged, Dev.count_weak, hwb, hmem, hdamaged, hweak]
  exact ⟨(Dev.Logs.memWake d _).wb, d.memWake_mem _, d.memWake_damaged _, d.memWake_weak _⟩

theorem Dev.parcelWritten_stores (px : List (List Byte)) (bad : List Nat) :
    Dev.Stores (d.composedCounted p r q) (d.parcelWritten p r q px bad) := by
  have hwrite := (d.composedCounted p r q).writeParcel_stores r q px bad
  unfold Dev.parcelWritten
  dsimp only
  generalize (d.composedCounted p r q).writeParcel r q px bad = w at *
  split
  · exact hwrite.trans (Dev.Stores.foldl (f := fun (d : Dev) (e : Nat × List Byte) => d.memStore e.1 e.2 bad)
      (fun d e => .memStore d e.1 e.2 bad) _ w)
  · exact hwrite

theorem Dev.parcelWritten_reg (px : List (List Byte)) (bad : List Nat) {k : Nat} (hk : Held k) : (d.parcelWritten p r q px bad).reg k =
    if k = Reg.PRT_PW_DONE_CNT p then min (d.reg k + 1) 0xFFFFFFFF else d.reg k :=
  ((d.parcelWritten_stores p r q px bad).regs k hk).trans (d.composedCounted_reg p r q hk)

theorem Dev.parcelWritten_prt (px : List (List Byte)) (bad : List Nat) : (d.parcelWritten p r q px bad).prt.strokes = d.prt.strokes ∧
    (d.parcelWritten p r q px bad).prt.jobs = d.prt.jobs := by
  rw [(d.parcelWritten_stores p r q px bad).prt, Dev.composedCounted_prt]
  exact ⟨rfl, rfl⟩

theorem Dev.parcelWritten_paired (px : List (List Byte)) (bad : List Nat) : (d.parcelWritten p r q px bad).paired = d.paired := by
  have hstores := d.parcelWritten_stores p r q px bad
  have hst := d.parcelWritten_reg p r q px bad (k := Reg.TWN_STATUS) (.inl (by decide))
  obtain ⟨hwb, -, -, -⟩ := d.composedCounted_frame p r q
  have hother : Reg.TWN_STATUS ≠ Reg.PRT_PW_DONE_CNT p := by
    simp only [Reg.TWN_STATUS, Reg.PRT_PW_DONE_CNT]
    omega
  rw [if_neg hother] at hst
  generalize d.parcelWritten p r q px bad = w at *
  exact Dev.paired_congr (hstores.wb.trans hwb) hst

theorem Dev.parcelWritten_ringless (px : List (List Byte)) (bad : List Nat) (h : d.Ringless) : (d.parcelWritten p r q px bad).Ringless := by
  rw [Dev.Ringless, Dev.parcelWritten_reg _ _ _ _ _ _ (.inl (by decide)), if_neg]
  · exact h
  · simp only [Reg.DEP_LOG_RING, Reg.PRT_PW_DONE_CNT]
    omega

end Written

/-! ### The seal -/

/-- The seal holds: the twin is told, the parcel may be audited, and the stroke may be done. -/
def Dev.sealedOver (d : Dev) (p x g n pcv : Nat) : Dev :=
  (((d.mapParcel x g n fun q => { q with st := .sealed, pcv := pcv, composed := true }).sealedNews x g n pcv).auditAsk x g n p).parcelOver x

/-- A seal failure, counted. -/
def Dev.sealFailCounted (d : Dev) (x g n : Nat) : Dev :=
  (d.mapParcel x g n fun q => { q with st := .sealFailed, composed := true }).count Reg.DEP_SEAL_FAIL_CNT

/-- The seal fails: the parcel is to be composed again. -/
def Dev.sealFailedOver (d : Dev) (p x g n : Nat) : Dev := ((d.sealFailCounted x g n).addJob .seal1 x g n p).parcelOver x

theorem Dev.finishParcel_written {d : Dev} {p : Nat} {r : StrokeRun} {q : Parcel} {bad : List Nat} (hlost : r.needsLost q = false)
    (hfails : d.failing (d.inputBlocks r q) bad = []) (ok : Bool) (err : Option (List Byte)) : d.finishParcel p r q ok bad err =
      if ok then (d.parcelWritten p r q (d.composed r q err) bad).sealedOver p r.stroke q.region q.number (pcvOf r q (d.composed r q err))
      else (d.parcelWritten p r q (d.composed r q err) bad).sealFailedOver p r.stroke q.region q.number := by
  unfold Dev.finishParcel
  rw [hlost]
  dsimp only
  rw [if_neg Bool.false_ne_true, Dev.memWake_failing, hfails, if_neg (by decide), Dev.memWake_composed]
  cases ok with
  | true => rfl
  | false => rfl

section Seals
variable (d : Dev) (p x g n : Nat)

theorem Dev.sealedOver_onward (pcv : Nat) :
    Dev.Onward (d.mapParcel x g n fun q => { q with st := .sealed, pcv := pcv, composed := true }) (d.sealedOver p x g n pcv) :=
  ((Dev.Onward.sealedNews _ _ _ _ _).trans (.auditAsk _ _ _ _ _)).trans (.of_beside (.parcelOver _ _))

theorem Dev.sealedOver_seals {pcv : Nat} {q : Parcel} (h : d.parcel x g n = some q) : (d.sealedOver p x g n pcv).SealedAs x g n pcv :=
  (d.sealedOver_onward p x g n pcv).seals x g n pcv ⟨_, Dev.parcel_mapParcel_same
    (k := fun q => { q with st := .sealed, pcv := pcv, composed := true }) (fun _ => ⟨rfl, rfl⟩) h, rfl, rfl, rfl⟩

theorem Dev.sealFailCounted_prt :
    (d.sealFailCounted x g n).prt = (d.mapParcel x g n fun q => { q with st := .sealFailed, composed := true }).prt := by
  rw [Dev.sealFailCounted, Dev.count_prt]

theorem Dev.sealFailCounted_paired : (d.sealFailCounted x g n).paired = d.paired := Dev.mapParcel_count_paired _ _ _ _ _ (by decide)

theorem Dev.sealFailedOver_beside : Dev.Beside (d.sealFailCounted x g n) (d.sealFailedOver p x g n) :=
  (Dev.Beside.addJob _ _ _ _ _ _ _).trans (.parcelOver _ _)

theorem Dev.sealFailedOver_parcel {q : Parcel} (h : d.parcel x g n = some q) :
    (d.sealFailedOver p x g n).parcel x g n = some { q with st := .sealFailed, composed := true } := by
  rw [(d.sealFailedOver_beside p x g n).parcels, Dev.parcel_congr (congrArg Prt.strokes (d.sealFailCounted_prt x g n))]
  exact Dev.parcel_mapParcel_same (k := fun q => { q with st := .sealFailed, composed := true }) (fun _ => ⟨rfl, rfl⟩) h

theorem Dev.sealFailedOver_asks :
    (d.sealFailedOver p x g n).prt.jobs.map Job.asks = d.prt.jobs.map Job.asks ++ [(.seal1, x, g, n)] := by
  rw [Dev.sealFailedOver, (Dev.parcelOver_frame _ _).2.2, Dev.addJob_asks]
  rfl

theorem Dev.sealFailedOver_count : (d.sealFailedOver p x g n).reg Reg.DEP_SEAL_FAIL_CNT = min (d.reg Reg.DEP_SEAL_FAIL_CNT + 1) 0xFFFFFFFF := by
  rw [(d.sealFailedOver_beside p x g n).regs _ (.inl (by decide)), Dev.sealFailCounted, Dev.count_reg, if_pos rfl, Dev.mapParcel,
    Dev.mapRuns_reg]

/-- A seal failure ends no comparison. -/
theorem Dev.sealFailedOver_readsOver {e : Dev} (hstrokes : d.prt.strokes = e.prt.strokes) (hpaired : d.paired = e.paired) :
    (d.sealFailedOver p x g n).readsOver e = d.sealFailedOver p x g n := by
  have hbeside := d.sealFailedOver_beside p x g n
  refine Dev.readsOver_of_beside ?_ ((hbeside.paired.trans (d.sealFailCounted_paired x g n)).trans hpaired)
  rw [hbeside.compared, Dev.sealFailCounted_prt, Dev.mapParcel_compared, hstrokes]

end Seals

/-! ### The three clauses of a parcel that is written -/

section Clauses
variable {s : State} {p : Fin 256} {r : StrokeRun} {q : Parcel} {bad : List Nat} {err : Option (List Byte)}
  (hparcel : s.dev.parcel r.stroke q.region q.number = some q) (hlost : r.needsLost q = false)
  (hfails : s.dev.failing (s.dev.inputBlocks r q) bad = [])

include hlost hfails

theorem parcelComposed_written {ok : Bool}
    (heq : s.dev.quiet.parcelComposed p ok bad 0 err = s.dev.quiet.finishParcel p r q ok bad err) :
    s.dev.quiet.parcelComposed p ok bad 0 err = if ok
      then (s.dev.quiet.parcelWritten p r q (s.dev.composed r q err) bad).sealedOver p r.stroke q.region q.number
        (pcvOf r q (s.dev.composed r q err))
      else (s.dev.quiet.parcelWritten p r q (s.dev.composed r q err) bad).sealFailedOver p r.stroke q.region q.number := by
  rw [← Dev.quiet_failing] at hfails
  rw [heq, Dev.finishParcel_written hlost hfails, Dev.quiet_composed]

include hparcel

/-- The parcel is sealed with the PCV of its pixels, and its porter has composed one parcel more. -/
theorem parcelComposed_sealed (heq : s.dev.quiet.parcelComposed p true bad 0 err = s.dev.quiet.finishParcel p r q true bad err) :
    ∃ t q', exec (.parcelComposed p true bad 0 err) s = .next t ∧
      t.dev.parcel r.stroke q.region q.number = some q' ∧ q'.st = .sealed ∧ q'.composed = true ∧
      q'.pcv = pcvOf r q (s.dev.composed r q err) ∧
      t.dev.reg (Reg.PRT_PW_DONE_CNT p) = min (s.dev.reg (Reg.PRT_PW_DONE_CNT p) + 1) 0xFFFFFFFF := by
  have hend := (parcelComposed_written hlost hfails heq).trans (if_pos rfl)
  have hstrokes := (s.dev.quiet.parcelWritten_prt p r q (s.dev.composed r q err) bad).1
  have hdone := s.dev.quiet.parcelWritten_reg p r q (s.dev.composed r q err) bad (held_done p)
  generalize s.dev.quiet.parcelWritten p r q (s.dev.composed r q err) bad = w at *
  generalize pcvOf r q (s.dev.composed r q err) = v at *
  have hw : w.parcel r.stroke q.region q.number = some q := (Dev.parcel_congr hstrokes _ _ _).trans hparcel
  have honward := w.sealedOver_onward p r.stroke q.region q.number v
  obtain ⟨hseals, hcounts, -, -⟩ := Dev.readsOver_spec (w.sealedOver p r.stroke q.region q.number v) s.dev.quiet
  obtain ⟨q', hq', hst, hcomposed, hpcv⟩ := hseals _ _ _ _ (w.sealedOver_seals p _ _ _ (pcv := v) hw)
  refine ⟨_, q', (exec_parcelComposed s p true bad 0 err).trans (by rw [hend]), (s.done_parcel _ _ _ _).trans hq', hst, hcomposed, hpcv, ?_⟩
  rw [State.done_reg, hcounts, honward.regs _ (held_done p), Dev.mapParcel, Dev.mapRuns_reg, hdone, if_pos rfl, Dev.quiet_reg]

/-- A seal failure is counted, and the parcel is to be composed again. -/
theorem parcelComposed_sealFailed (heq : s.dev.quiet.parcelComposed p false bad 0 err = s.dev.quiet.finishParcel p r q false bad err) :
    ∃ t, ∃ j ∈ t.dev.prt.jobs, exec (.parcelComposed p false bad 0 err) s = .next t ∧
      t.dev.parcel r.stroke q.region q.number = some { q with st := .sealFailed, composed := true } ∧
      t.dev.prt.jobs.length = s.dev.prt.jobs.length + 1 ∧ j.kind = .seal1 ∧ j.stroke = r.stroke ∧ j.region = q.region ∧
      j.number = q.number ∧ t.dev.reg Reg.DEP_SEAL_FAIL_CNT = min (s.dev.reg Reg.DEP_SEAL_FAIL_CNT + 1) 0xFFFFFFFF := by
  have hend := (parcelComposed_written hlost hfails heq).trans (if_neg Bool.false_ne_true)
  obtain ⟨hstrokes, hjobs⟩ := s.dev.quiet.parcelWritten_prt p r q (s.dev.composed r q err) bad
  have hpaired := s.dev.quiet.parcelWritten_paired p r q (s.dev.composed r q err) bad
  have hfail : (s.dev.quiet.parcelWritten p r q (s.dev.composed r q err) bad).reg Reg.DEP_SEAL_FAIL_CNT = s.dev.reg Reg.DEP_SEAL_FAIL_CNT := by
    rw [Dev.parcelWritten_reg _ _ _ _ _ _ (.inl (by decide)), if_neg, Dev.quiet_reg]
    simp only [Reg.DEP_SEAL_FAIL_CNT, Reg.PRT_PW_DONE_CNT]
    omega
  generalize s.dev.quiet.parcelWritten p r q (s.dev.composed r q err) bad = w at *
  have hw : w.parcel r.stroke q.region q.number = some q := (Dev.parcel_congr hstrokes _ _ _).trans hparcel
  have hasks := w.sealFailedOver_asks p r.stroke q.region q.number
  have hreads := w.sealFailedOver_readsOver p r.stroke q.region q.number hstrokes hpaired
  obtain ⟨j, hj, hasked⟩ := List.mem_map.mp (hasks ▸ List.mem_append_right _ (List.mem_singleton_self _) :
    (.seal1, r.stroke, q.region, q.number) ∈ (w.sealFailedOver p r.stroke q.region q.number).prt.jobs.map Job.asks)
  obtain ⟨hkind, hstroke, hregion, hnumber⟩ : j.kind = .seal1 ∧ j.stroke = r.stroke ∧ j.region = q.region ∧ j.number = q.number := by
    simpa [Job.asks] using hasked
  have hlength := congrArg List.length hasks
  refine ⟨s.done (w.sealFailedOver p r.stroke q.region q.number), j, by rw [State.done_prt]; exact hj, exec_composed hend hreads,
    (s.done_parcel _ _ _ _).trans (w.sealFailedOver_parcel p _ _ _ hw), ?_, hkind, hstroke, hregion, hnumber, ?_⟩
  · rw [State.done_prt]
    simpa [hjobs] using hlength
  · rw [State.done_reg, Dev.sealFailedOver_count, hfail]

end Clauses

end Sys2Proof.Machine

/-! SUPPORT. Where the pixels of a composed parcel lie after the command, and an audit that agrees (R161, R162, R293). -/

namespace Sys2Proof.Machine

/-! ### The pixels stay where they were written -/

theorem Dev.pixelByte_congr {d e : Dev} (hstaging : d.staging = e.staging) (hmem : d.mem = e.mem) (r : StrokeRun) (x : Nat) :
    Dev.pixelByte r d x = Dev.pixelByte r e x := by
  simp only [Dev.pixelByte, Dev.memByte, hstaging, hmem]

section Ends
variable (d : Dev) (p x g n : Nat)

theorem Dev.sealedOver_bytes (pcv : Nat) : (d.sealedOver p x g n pcv).staging = d.staging ∧
    (d.Ringless → (d.sealedOver p x g n pcv).mem = d.mem ∧ (d.sealedOver p x g n pcv).Ringless) := by
  have honward := d.sealedOver_onward p x g n pcv
  generalize d.sealedOver p x g n pcv = m at *
  exact ⟨honward.staging, fun h => ⟨honward.mem h, honward.ringless h⟩⟩

theorem Dev.sealFailedOver_bytes : (d.sealFailedOver p x g n).staging = d.staging ∧
    (d.Ringless → (d.sealFailedOver p x g n).mem = d.mem ∧ (d.sealFailedOver p x g n).Ringless) := by
  have hbeside := d.sealFailedOver_beside p x g n
  refine ⟨hbeside.staging, fun h => ?_⟩
  have hcounted : (d.sealFailCounted x g n).Ringless := by
    rw [Dev.Ringless, Dev.sealFailCounted, Dev.count_reg_other _ (by decide), Dev.mapParcel, Dev.mapRuns_reg]
    exact h
  exact ⟨hbeside.mem hcounted, hbeside.ringless hcounted⟩

end Ends

/-- Where no block fails and the parcel's stack has no writer, each byte of a pixel is written to the place of its pixel. -/
theorem Dev.parcelWritten_pixelByte {d : Dev} {r : StrokeRun} {q : Parcel} {px : List (List Byte)} (h : d.Whole)
    (hwriter : r.writes.find? (·.1 == q.stack) = none) (hin : q.x + q.w ≤ d.wb.canvasW) (hpx : px.length = q.w * q.h)
    (hsix : ∀ x ∈ px, x.length = 6) (p : Nat) {a b j : Nat} (ha : a < q.w) (hb : b < q.h) (hj : j < 6) :
    Dev.pixelByte r (d.parcelWritten p r q px []) (d.pixelPlace r q.x (q.y + b) + (6 * a + j)) = (px.getD (b * q.w + a) []).getD j 0 := by
  obtain ⟨hwb, -, hdamaged, hweak⟩ := d.composedCounted_frame p r q
  unfold Dev.parcelWritten
  rw [hwriter]
  generalize d.composedCounted p r q = c at *
  rw [← Dev.pixelPlace_congr hwb]
  exact Dev.writeParcel_pixelByte (fun _ => ⟨hdamaged.trans h.1, hweak.trans h.2⟩) (hwb ▸ hin) hpx hsix ha hb hj

/-- Each byte of a pixel of a composed parcel lies at its place in the slot of its stroke, or in staging. -/
theorem parcelComposed_pixels {s : State} {p : Fin 256} {r : StrokeRun} {q : Parcel} {ok : Bool} {err : Option (List Byte)}
    (hlost : r.needsLost q = false) (hfails : s.dev.failing (s.dev.inputBlocks r q) [] = [])
    (heq : s.dev.quiet.parcelComposed p ok [] 0 err = s.dev.quiet.finishParcel p r q ok [] err) (hwhole : s.dev.Whole)
    (hwriter : r.writes.find? (·.1 == q.stack) = none) (hring : s.dev.Ringless) (hin : q.x + q.w ≤ s.dev.wb.canvasW) :
    ∃ t, exec (.parcelComposed p ok [] 0 err) s = .next t ∧ ∀ a b j, a < q.w → b < q.h → j < 6 →
      let place := ((q.y + b) * s.dev.wb.canvasW + q.x + a) * 6 + j
      let v := ((s.dev.composed r q err).getD (b * q.w + a) []).getD j 0
      let slot := s.dev.storeBase + r.stroke % (r.lead + 1) * (s.dev.wb.canvasW * s.dev.wb.canvasH) * 6
      (r.racing = true → t.dev.staging.get memDefault place = v) ∧ (r.racing = false → t.dev.memByte (slot + place) = v) := by
  have hend := parcelComposed_written hlost hfails heq
  obtain ⟨hpx, hsix⟩ := s.dev.composed_length r q err
  have hbytes {a b j : Nat} (ha : a < q.w) (hb : b < q.h) (hj : j < 6) := Dev.parcelWritten_pixelByte (d := s.dev.quiet) hwhole hwriter hin
    hpx hsix p ha hb hj
  have hringless := s.dev.quiet.parcelWritten_ringless p r q (s.dev.composed r q err) [] hring
  generalize s.dev.composed r q err = px at *
  generalize s.dev.quiet.parcelWritten p r q px [] = w at *
  have hkept : (s.dev.quiet.parcelComposed p ok [] 0 err).staging = w.staging ∧ (w.Ringless →
      (s.dev.quiet.parcelComposed p ok [] 0 err).mem = w.mem ∧ (s.dev.quiet.parcelComposed p ok [] 0 err).Ringless) := by
    rw [hend]
    split
    · exact w.sealedOver_bytes _ _ _ _ _
    · exact w.sealFailedOver_bytes _ _ _ _
  obtain ⟨hstaging, hmemory⟩ := hkept
  obtain ⟨hmem, hringless⟩ := hmemory hringless
  obtain ⟨-, -, hstaging', hmem'⟩ := Dev.readsOver_spec (s.dev.quiet.parcelComposed p ok [] 0 err) s.dev.quiet
  refine ⟨_, exec_parcelComposed s p ok [] 0 err, fun a b j ha hb hj => ?_⟩
  have hpixel := hbytes ha hb hj
  rw [← Dev.pixelByte_congr (d := (s.done ((s.dev.quiet.parcelComposed p ok [] 0 err).readsOver s.dev.quiet)).dev)
    (by simpa using hstaging'.trans hstaging) (by simpa using (hmem' hringless).trans hmem),
    Dev.pixelPlace_congr (d := s.dev.quiet) (e := s.dev) rfl, Dev.pixelPlace_eq] at hpixel
  refine ⟨fun hracing => ?_, fun hstored => ?_⟩
  · simpa only [Dev.pixelByte, hracing, if_true, Nat.zero_add] using hpixel
  · simpa only [Dev.pixelByte, hstored, Bool.false_eq_true, if_false] using hpixel

/-! ### An audit that agrees (R293) -/

theorem Dev.placeJobs_mem (d : Dev) : d.placeJobs.mem = d.mem := by
  unfold Dev.placeJobs
  refine List.foldlRecOn (motive := fun e : Dev => e.mem = d.mem) _ _ rfl fun e he j _ => ?_
  split <;> exact he

/-- A recomposition or audit whose inputs pass: the porter's clocks and the composition are counted. -/
def Dev.recompCounted (d : Dev) (p : Nat) (r : StrokeRun) (q : Parcel) : Dev :=
  ((d.memWake (d.inputBlocks r q)).busyBy p (r.parcelClocks q)).count (Reg.PRT_PW_RECOMP_CNT p)

/-- An audit that agrees is counted, and leaves its porter's entry. -/
def Dev.auditCounted (d : Dev) (p : Nat) (j : Job) (r : StrokeRun) (q : Parcel) : Dev :=
  ((d.recompCounted p r q).dropJob j).count Reg.DEP_AUDIT_CNT

theorem Dev.finishJob_audit {d : Dev} {p : Nat} {j : Job} {r : StrokeRun} {q : Parcel} {bad : List Nat} {err : Option (List Byte)}
    (hkind : j.kind = .audit) (hlost : r.needsLost q = false) (hfails : d.failing (d.inputBlocks r q) bad = [])
    (hpcv : pcvOf r q (d.composed r q err) = q.pcv) (ok : Bool) :
    d.finishJob p j r q ok bad err = (d.auditCounted p j r q).parcelOver r.stroke := by
  unfold Dev.finishJob
  dsimp only
  rw [hlost, hfails, hkind, hpcv, if_neg Bool.false_ne_true, if_neg (by decide), Dev.auditResult, beq_self_eq_true]
  rfl

section Audit
variable (d : Dev) (p : Nat) (j : Job) (r : StrokeRun) (q : Parcel)

theorem Dev.recompCounted_beside : Dev.Beside d ((d.memWake (d.inputBlocks r q)).busyBy p (r.parcelClocks q)) :=
  (Dev.Beside.memWake _ _).trans (.busyBy _ _ _)

theorem Dev.recompCounted_mem : (d.recompCounted p r q).mem = d.mem := by
  obtain ⟨-, hmem, -, -⟩ := (d.memWake (d.inputBlocks r q)).busyBy_frame p (r.parcelClocks q)
  rw [Dev.recompCounted, Dev.count_mem, hmem, Dev.memWake_mem]

theorem Dev.recompCounted_drops : Dev.Beside (d.recompCounted p r q) ((d.recompCounted p r q).dropJob j) := .dropJob _ j

theorem Dev.recompCounted_prt : (d.recompCounted p r q).prt = ((d.memWake (d.inputBlocks r q)).busyBy p (r.parcelClocks q)).prt := by
  rw [Dev.recompCounted, Dev.count_prt]

theorem Dev.auditCounted_prt : (d.auditCounted p j r q).prt = ((d.recompCounted p r q).dropJob j).prt := by
  rw [Dev.auditCounted, Dev.count_prt]

theorem Dev.auditCounted_parcel (x g n : Nat) : (d.auditCounted p j r q).parcel x g n = d.parcel x g n := by
  rw [Dev.parcel_congr (congrArg Prt.strokes (d.auditCounted_prt p j r q)), (d.recompCounted_drops p j r q).parcels,
    Dev.parcel_congr (congrArg Prt.strokes (d.recompCounted_prt p r q)), (d.recompCounted_beside p r q).parcels]

theorem Dev.auditCounted_compared :
    ((d.auditCounted p j r q).prt.strokes.filter (·.compared)).length = (d.prt.strokes.filter (·.compared)).length := by
  rw [Dev.auditCounted_prt, (d.recompCounted_drops p j r q).compared, Dev.recompCounted_prt, (d.recompCounted_beside p r q).compared]

theorem Dev.auditCounted_bytes : (d.auditCounted p j r q).mem = d.mem ∧ (d.auditCounted p j r q).staging = d.staging := by
  constructor
  · rw [Dev.auditCounted, Dev.count_mem, Dev.dropJob, Dev.placeJobs_mem]
    exact d.recompCounted_mem p r q
  · rw [Dev.auditCounted, Dev.count_staging, (d.recompCounted_drops p j r q).staging, Dev.recompCounted, Dev.count_staging]
    exact (d.recompCounted_beside p r q).staging

/-- A register held beside the porters: an audit counts at DEP, and the composition at its porter. -/
theorem Dev.auditCounted_reg {k : Nat} (hk : Held k) : (d.auditCounted p j r q).reg k =
    if k = Reg.DEP_AUDIT_CNT ∨ k = Reg.PRT_PW_RECOMP_CNT p then min (d.reg k + 1) 0xFFFFFFFF else d.reg k := by
  have hother : Reg.DEP_AUDIT_CNT ≠ Reg.PRT_PW_RECOMP_CNT p := by
    simp only [Reg.DEP_AUDIT_CNT, Reg.PRT_PW_RECOMP_CNT]
    omega
  have hrecomp {k : Nat} (hk : Held k) : ((d.recompCounted p r q).dropJob j).reg k =
      if k = Reg.PRT_PW_RECOMP_CNT p then min (d.reg (Reg.PRT_PW_RECOMP_CNT p) + 1) 0xFFFFFFFF else d.reg k := by
    rw [(d.recompCounted_drops p j r q).regs k hk, Dev.recompCounted, Dev.count_reg, (d.recompCounted_beside p r q).regs k hk,
      (d.recompCounted_beside p r q).regs _ (held_recomp p)]
  rw [Dev.auditCounted, Dev.count_reg, hrecomp hk, hrecomp (.inl (by decide)), if_neg hother]
  by_cases haudit : k = Reg.DEP_AUDIT_CNT
  · rw [if_pos haudit, if_pos (.inl haudit), haudit]
  · rw [if_neg haudit]
    by_cases hporter : k = Reg.PRT_PW_RECOMP_CNT p
    · rw [if_pos hporter, if_pos (.inr hporter), hporter]
    · rw [if_neg hporter, if_neg (by tauto)]

theorem Dev.auditCounted_paired : (d.auditCounted p j r q).paired = d.paired := by
  have hst := d.auditCounted_reg p j r q (k := Reg.TWN_STATUS) (.inl (by decide))
  have hother : ¬ (Reg.TWN_STATUS = Reg.DEP_AUDIT_CNT ∨ Reg.TWN_STATUS = Reg.PRT_PW_RECOMP_CNT p) := by
    simp only [Reg.TWN_STATUS, Reg.DEP_AUDIT_CNT, Reg.PRT_PW_RECOMP_CNT]
    omega
  rw [if_neg hother] at hst
  refine Dev.paired_congr ?_ hst
  rw [Dev.auditCounted, Dev.count_wb, (d.recompCounted_drops p j r q).wb, Dev.recompCounted, Dev.count_wb]
  exact (d.recompCounted_beside p r q).wb

end Audit

/-- An audit that agrees is counted, and changes no parcel, no memory and no staging. -/
theorem audit_spec {s : State} {p : Fin 256} {j : Job} {r : StrokeRun} {q : Parcel} {bad : List Nat} {err : Option (List Byte)} {ok : Bool}
    (heq : s.dev.quiet.parcelComposed p ok bad 0 err = s.dev.quiet.finishJob p j r q ok bad err) (hkind : j.kind = .audit)
    (hlost : r.needsLost q = false) (hfails : s.dev.failing (s.dev.inputBlocks r q) bad = [])
    (hpcv : pcvOf r q (s.dev.composed r q err) = q.pcv) : ∃ t, exec (.parcelComposed p ok bad 0 err) s = .next t ∧
      t.dev.reg Reg.DEP_AUDIT_CNT = min (s.dev.reg Reg.DEP_AUDIT_CNT + 1) 0xFFFFFFFF ∧
      t.dev.reg (Reg.PRT_PW_RECOMP_CNT p) = min (s.dev.reg (Reg.PRT_PW_RECOMP_CNT p) + 1) 0xFFFFFFFF ∧
      (∀ x g n, t.dev.parcel x g n = s.dev.parcel x g n) ∧ t.dev.mem = s.dev.mem ∧ t.dev.staging = s.dev.staging := by
  rw [← Dev.quiet_failing] at hfails
  rw [← Dev.quiet_composed] at hpcv
  have hend := heq.trans (Dev.finishJob_audit hkind hlost hfails hpcv ok)
  have hcompared := s.dev.quiet.auditCounted_compared p j r q
  have hpaired := s.dev.quiet.auditCounted_paired p j r q
  have haudit := s.dev.quiet.auditCounted_reg p j r q (k := Reg.DEP_AUDIT_CNT) (.inl (by decide))
  have hrecomp := s.dev.quiet.auditCounted_reg p j r q (held_recomp p)
  obtain ⟨hmem, hstaging⟩ := s.dev.quiet.auditCounted_bytes p j r q
  have hparcel := s.dev.quiet.auditCounted_parcel p j r q
  rw [if_pos (.inl rfl)] at haudit
  rw [if_pos (.inr rfl)] at hrecomp
  generalize s.dev.quiet.auditCounted p j r q = c at *
  have hbeside := Dev.Beside.parcelOver c r.stroke
  obtain ⟨hmem', -, -⟩ := c.parcelOver_frame r.stroke
  have hreads := Dev.readsOver_of_beside (hbeside.compared.trans hcompared) (hbeside.paired.trans hpaired)
  refine ⟨_, exec_composed hend hreads, ?_, ?_, fun x g n => ?_, by simpa using hmem'.trans hmem, by simpa using hbeside.staging.trans hstaging⟩
  · rw [State.done_reg, hbeside.regs _ (.inl (by decide)), haudit, Dev.quiet_reg]
  · rw [State.done_reg, hbeside.regs _ (held_recomp p), hrecomp, Dev.quiet_reg]
  · rw [State.done_parcel, hbeside.parcels, hparcel]
    rfl

end Sys2Proof.Machine

/-! SUPPORT. Porters compose, lift and seal: the statement, from its parts. -/

namespace Sys2Proof.Machine

/-- Settles O45: each clause is a specification of its command, proved from what the command leaves unchanged; where a comparison ends and
releases tables, a sealed parcel stays sealed. -/
theorem portersComposeLiftAndSeal : Obligations.PortersComposeLiftAndSeal := by
  unfold Obligations.PortersComposeLiftAndSeal
  intro s p
  refine ⟨?_, ?_, ?_, ?_, ?_, ?_, parcelAbandon_idles, fun g => ⟨fun r h => strokeLate_spec h, strokeLate_idles⟩⟩
  · intro r q ecc list hcomposes hhalted hpower hjobs hidle hnext hparcel
    exact parcelStart_spec hcomposes hhalted hpower hjobs hidle hnext hparcel ecc list
  · intro v i n r hcomposes hhalted hpower hidle hvictim hrun _
    exact lift_spec hcomposes hhalted hpower hidle hvictim hrun
  · intro r q bad err hcomposes hhalted hjob hin hwithdrawn habandoned hgone hst hparcel
    have heq (ok : Bool) := Dev.parcelComposed_parcel (d := s.dev.quiet) hcomposes hhalted hjob hin hwithdrawn habandoned hgone hst ok bad err
    refine ⟨fun ok hlost => ?_, fun ok hlost hfails => parcelComposed_stalled (heq ok) hparcel hlost hfails,
      fun hlost hfails => parcelComposed_sealed hparcel hlost hfails (heq true),
      fun hlost hfails => parcelComposed_sealFailed hparcel hlost hfails (heq false), ?_⟩
    · obtain ⟨t, ws, rest, hexec, hnow, hcount, hlogged⟩ := parcelComposed_lost (heq ok) hst hparcel hlost
      exact ⟨t, ws, rest, hexec, hnow, fun _ => hcount, fun _ => hlogged⟩
    · rintro ok hlost hfails rfl hdamaged hweak hwriter hring hin
      exact parcelComposed_pixels hlost hfails (heq ok) ⟨hdamaged, hweak⟩ hwriter hring hin
  · intro j r q bad err ok hcomposes hhalted hjob hstalled hkind hrun hparcel hgone hlost hfails hpcv
    exact audit_spec (Dev.parcelComposed_job (d := s.dev.quiet) hcomposes hhalted hjob hstalled hrun hparcel hgone ok bad err) hkind hlost
      hfails hpcv
  · intro h c hc
    exact porter_idles h c hc
  · intro r q hin
    refine ⟨parcelAbandon_spec hin, fun hwithdrawn habandoned hgone => parcelAbandon_keeps hin ?_⟩
    rw [hwithdrawn, habandoned, hgone]
    rfl

end Sys2Proof.Machine

/-! SUPPORT. The obligation about fences, waits and plate rings fails (R174, R176, R179). -/

namespace Sys2Proof.Machine

/-- A host write of a fence on a device that is not of a pair. -/
theorem exec_fenceWrite_alone {s : State} {f : Fin 1024} {v : Word} (h : s.dev.access (Reg.FLP_FENCE f) = .normal (Reg.FLP_FENCE f))
    (hsecond : s.dev.secondaryPaired = false) (hfirst : (s.dev.quiet.hostFence f v.toNat).primaryPaired = false) :
    exec (.fenceWrite f v) s = .next (s.done (s.dev.quiet.hostFence f v.toNat)) := by
  show execFenceWrite f v s = _
  rw [execFenceWrite, State.apply_eq, Dev.onWrite_normal (d := s.dev.quiet) h, Dev.mirrored]
  simp only [show s.dev.quiet.secondaryPaired = false from hsecond, hfirst, Bool.false_eq_true, if_false]

/-- The fences after a command are as it left them. -/
theorem State.done_satisfies (s : State) (d : Dev) (f v : Nat) : (s.done d).dev.satisfies f v = d.satisfies f v := by
  rw [Dev.satisfies, Dev.satisfies, Dev.fence, Dev.fence, State.done_reg]

/-- A FENCE_WAIT whose fence number is far past the 1,024 fences of R174 and the 10 bits of `IDX`: of such a fence `FLP_FENCE` would lie where
`BEL_UNROUTED_CNT` does. -/
def strayWait : FenceWaitSt := { ring := 0, index := 0, idx := 15370, val := 1, limit := 0 }

/-- A running device with that wait, whose fence 0 raises its source, 0x4110; no target takes it. -/
def fenceWithStrayWait : State :=
  { dev := { wb := { loaded := true }, regs := [(Reg.FLP_FENCE_NOTIFY 0, 1)], flp := { waits := [strayWait] } } }

theorem fenceWithStrayWait_normal : fenceWithStrayWait.dev.access (Reg.FLP_FENCE 0) = .normal (Reg.FLP_FENCE 0) := by decide +kernel

/-- The device once fence 0 has been written with 1. -/
def strayWaitWritten : Dev := fenceWithStrayWait.dev.quiet.hostFence 0 1

/-- As the waits are looked at the count of unrouted messages is 0, which does not satisfy the wait. -/
theorem strayWaitWritten_waits : strayWaitWritten.flp.waits = [strayWait] := by decide +kernel

/-- Then the fence's source is counted there, and the count satisfies it. -/
theorem strayWaitWritten_satisfies : (!strayWait.expired && strayWaitWritten.satisfies strayWait.idx strayWait.val) = true := by
  decide +kernel

/-- Refutes O48: that the waits are judged by the fences as they stand after the command needs each wait to name one of the 1,024 fences, a
bound that the statement does not ask of the state. -/
theorem not_fencesAdvanceAndWaitsComplete : ¬ Obligations.FencesAdvanceAndWaitsComplete := by
  unfold Obligations.FencesAdvanceAndWaitsComplete
  intro h
  obtain ⟨hfence, -⟩ := h fenceWithStrayWait
  obtain ⟨hadvance, -⟩ := hfence 0 1 fenceWithStrayWait_normal
  obtain ⟨t, ht, -, hwaits, -⟩ := hadvance (by decide +kernel) (by decide +kernel) (.inl rfl) (by decide +kernel) (by decide +kernel)
  have hexec := exec_fenceWrite_alone (f := 0) (v := 1) fenceWithStrayWait_normal (by decide +kernel) (by decide +kernel)
  cases Host.Outcome.next.inj (ht.symm.trans hexec)
  simp only [State.done_satisfies] at hwaits
  rw [State.done_dev, Dev.extest_flp] at hwaits
  have hwait := (List.cons.inj (strayWaitWritten_waits.symm.trans hwaits)).1.trans (if_pos strayWaitWritten_satisfies)
  exact absurd (congrArg FenceWaitSt.met hwait) (by decide)

end Sys2Proof.Machine

/-! SUPPORT. What logs, checks of blocks and what is told on the links leave of the flip unit, the fences and the command rings. -/

namespace Sys2Proof.Machine

/-! ### Registers that stand aside -/

/-- The flip unit's event and count of malformed sets, the ring of the error log and the pairing state. -/
def flipFixed : List Nat := [Reg.FLP_EVENT, Reg.FLP_MALFORMED_CNT, Reg.DEP_LOG_RING, Reg.TWN_STATUS]

/-- A register of one of the command rings. -/
def Dev.CommandRing (d : Dev) (r : Nat) : Prop := r < 16384 ∧ isRecordClass (d.ringClass r) = false

/-- Those, the fences, and the registers of the command rings: nothing that logs, checks or tells writes them. -/
def Dev.FlipHeld (d : Dev) (k : Nat) : Prop :=
  k ∈ flipFixed ∨ (∃ f < 1024, k = Reg.FLP_FENCE f) ∨ ∃ r, d.CommandRing r ∧ Reg.RNG_RS_CTRL r ≤ k ∧ k < Reg.RNG_RS_CTRL (r + 1)

theorem Dev.flipHeld_fence (d : Dev) {f : Nat} (h : f < 1024) : d.FlipHeld (Reg.FLP_FENCE f) := .inr (.inl ⟨f, h, rfl⟩)

theorem Dev.CommandRing.held {d : Dev} {r k : Nat} (h : d.CommandRing r) (hlo : Reg.RNG_RS_CTRL r ≤ k) (hhi : k < Reg.RNG_RS_CTRL (r + 1)) :
    d.FlipHeld k := .inr (.inr ⟨r, h, hlo, hhi⟩)

/-- A register that is written aside from the flips: none of those, and not the one that shows which controllers sleep. -/
def Dev.Free (d : Dev) (a : Nat) : Prop := ¬ d.FlipHeld a ∧ a ≠ Reg.MEM_STATUS

/-- A register outside the blocks of those. -/
theorem Dev.not_flipHeld (d : Dev) {a : Nat} (hfixed : a ∉ flipFixed)
    (houtside : a < 0x51000 ∨ 0x52000 ≤ a ∧ a < 0x800000 ∨ 0x900000 ≤ a) : ¬ d.FlipHeld a := by
  rintro (h | ⟨f, hf, rfl⟩ | ⟨r, ⟨hr, -⟩, hlo, hhi⟩)
  · exact hfixed h
  · simp only [Reg.FLP_FENCE] at houtside
    omega
  · simp only [Reg.RNG_RS_CTRL] at hlo hhi
    omega

theorem Dev.free_outside (d : Dev) {a : Nat} (hfixed : a ∉ flipFixed ∧ a ≠ Reg.MEM_STATUS)
    (houtside : a < 0x51000 ∨ 0x52000 ≤ a ∧ a < 0x800000 ∨ 0x900000 ≤ a) : d.Free a := ⟨d.not_flipHeld hfixed.1 houtside, hfixed.2⟩

/-- A register that is named by a numeral. -/
theorem Dev.free_at (d : Dev) {a : Nat} (hfixed : a ∉ flipFixed ∧ a ≠ Reg.MEM_STATUS := by decide)
    (houtside : a < 0x51000 ∨ 0x52000 ≤ a ∧ a < 0x800000 ∨ 0x900000 ≤ a := by decide) : d.Free a := d.free_outside hfixed houtside

theorem not_fixed_of_ge {a : Nat} (h : 0xE0015 ≤ a) : a ∉ flipFixed ∧ a ≠ Reg.MEM_STATUS := by
  simp only [flipFixed, List.mem_cons, List.not_mem_nil, or_false, Reg.FLP_EVENT, Reg.FLP_MALFORMED_CNT, Reg.DEP_LOG_RING, Reg.TWN_STATUS,
    Reg.MEM_STATUS]
  omega

/-- A register of a record ring. -/
theorem Dev.free_record {d : Dev} {l a : Nat} (h : isRecordClass (d.ringClass l) = true) (hlo : Reg.RNG_RS_CTRL l ≤ a)
    (hhi : a < Reg.RNG_RS_CTRL (l + 1)) : d.Free a := by
  simp only [Reg.RNG_RS_CTRL] at hlo hhi
  obtain ⟨hnone, hawake⟩ := not_fixed_of_ge (a := a) (by omega)
  refine ⟨?_, hawake⟩
  rintro (hfixed | ⟨f, hf, rfl⟩ | ⟨r, ⟨-, hr⟩, hlo', hhi'⟩)
  · exact hnone hfixed
  · simp only [Reg.FLP_FENCE] at hlo
    omega
  · simp only [Reg.RNG_RS_CTRL] at hlo' hhi'
    obtain rfl : r = l := by omega
    exact absurd (hr.symm.trans h) (by decide)

theorem Dev.free_recordRing {d : Dev} {l : Nat} (h : isRecordClass (d.ringClass l) = true) :
    d.Free (Reg.RNG_RS_PROD l) ∧ d.Free (Reg.RNG_RS_EVENT l) ∧ d.Free (Reg.RNG_RS_MARK_CNT l) ∧ d.Free (Reg.RNG_RS_DONE_CNT l) ∧
      d.Free (Reg.RNG_RS_DROP_CNT l) := by
  refine ⟨?_, ?_, ?_, ?_, ?_⟩ <;> refine Dev.free_record h ?_ ?_ <;>
    simp only [Reg.RNG_RS_CTRL, Reg.RNG_RS_PROD, Reg.RNG_RS_EVENT, Reg.RNG_RS_MARK_CNT, Reg.RNG_RS_DONE_CNT, Reg.RNG_RS_DROP_CNT] <;> omega

theorem Dev.free_memFail (d : Dev) {c : Nat} (h : c < 8) : d.Free (Reg.MEM_FAIL_CNT c) := by
  refine d.free_outside ⟨?_, ?_⟩ (.inr (.inl ⟨?_, ?_⟩)) <;>
    simp only [flipFixed, List.mem_cons, List.not_mem_nil, or_false, Reg.FLP_EVENT, Reg.FLP_MALFORMED_CNT, Reg.DEP_LOG_RING,
      Reg.TWN_STATUS, Reg.MEM_STATUS, Reg.MEM_FAIL_CNT] <;> omega

/-! ### Steps aside -/

/-- Device `d` has the units of device `e`, the flips among them; registers, memory, the Bellboard, the logs, the links and the rings'
open commands apart. -/
def Dev.SameUnits (e d : Dev) : Prop :=
  { d with free := e.free, out := e.out, regs := e.regs, mem := e.mem, damaged := e.damaged, weak := e.weak, hostMem := e.hostMem
           bel := e.bel, rings := e.rings, depLogged := e.depLogged, twn := e.twn, trk := e.trk } = e

namespace Dev.SameUnits

theorem trans {a b c : Dev} (h : Dev.SameUnits a b) (k : Dev.SameUnits b c) : Dev.SameUnits a c := by
  unfold Dev.SameUnits at *
  exact (congrArg (fun x : Dev => { x with
    free := a.free, out := a.out, regs := a.regs, mem := a.mem, damaged := a.damaged, weak := a.weak, hostMem := a.hostMem
    bel := a.bel, rings := a.rings, depLogged := a.depLogged, twn := a.twn, trk := a.trk }) k).trans h

variable {e d : Dev} (h : Dev.SameUnits e d)
include h

theorem flp : d.flp = e.flp := (congrArg Dev.flp h :)
theorem wb : d.wb = e.wb := (congrArg Dev.wb h :)
theorem boot : d.boot = e.boot := (congrArg Dev.boot h :)
theorem sdp : d.sdp = e.sdp := (congrArg Dev.sdp h :)
theorem stk : d.stk = e.stk := (congrArg Dev.stk h :)
theorem ringClass (r : Nat) : d.ringClass r = e.ringClass r := by rw [Dev.ringClass, Dev.ringClass, Dev.ringDef, Dev.ringDef, h.wb]

end Dev.SameUnits

/-- Device `d` is device `e` after steps aside from the flips: they can log, test blocks, write memory and records, raise sources, wake
controllers and send. -/
structure Dev.Aside (e d : Dev) : Prop where
  regs : ∀ k, e.FlipHeld k → d.reg k = e.reg k
  awake : ∀ c, bit (e.reg Reg.MEM_STATUS) c = false → bit (d.reg Reg.MEM_STATUS) c = false
  units : Dev.SameUnits e d

theorem Dev.FlipHeld.congr {d e : Dev} (h : ∀ r, d.ringClass r = e.ringClass r) {k : Nat} (hk : d.FlipHeld k) : e.FlipHeld k := by
  unfold Dev.FlipHeld Dev.CommandRing at hk ⊢
  simpa only [h] using hk

namespace Dev.Aside

theorem refl (d : Dev) : Dev.Aside d d := ⟨fun _ _ => rfl, fun _ h => h, rfl⟩

theorem trans {a b c : Dev} (h : Dev.Aside a b) (k : Dev.Aside b c) : Dev.Aside a c :=
  ⟨fun o ho => (k.regs o (ho.congr fun r => (h.units.ringClass r).symm)).trans (h.regs o ho), fun x hx => k.awake x (h.awake x hx),
    h.units.trans k.units⟩

theorem foldl {α : Type} {f : Dev → α → Dev} (hf : ∀ d x, Dev.Aside d (f d x)) (l : List α) (d : Dev) : Dev.Aside d (l.foldl f d) :=
  List.foldlRecOn (motive := fun e => Dev.Aside d e) l f (refl d) fun e he x _ => he.trans (hf e x)

theorem ite {c : Prop} [Decidable c] {e a b : Dev} (ha : Dev.Aside e a) (hb : Dev.Aside e b) : Dev.Aside e (if c then a else b) := by
  split
  · exact ha
  · exact hb

/-- A step that touches no register. -/
theorem of_regs {e d : Dev} (hregs : d.regs = e.regs) (h : Dev.SameUnits e d) : Dev.Aside e d :=
  ⟨fun k _ => Dev.reg_congr hregs k, fun _ hc => by rwa [Dev.reg_congr hregs], h⟩

section Steps
variable (d : Dev)

theorem setReg {a : Nat} (h : d.Free a) (v : Nat) : Dev.Aside d (d.setReg a v) := by
  obtain ⟨hheld, hawake⟩ := h
  exact ⟨fun _ hk => d.setReg_reg_other v fun heq => hheld (heq ▸ hk), fun _ hc => by rwa [d.setReg_reg_other v hawake.symm], rfl⟩

theorem setFlag {a : Nat} (h : d.Free a) (f : Fld) : Dev.Aside d (d.setFlag a f) := setReg d h _
theorem count {a : Nat} (h : d.Free a) : Dev.Aside d (d.count a) := setReg d h _
theorem countBy {a : Nat} (h : d.Free a) (n : Nat) : Dev.Aside d (d.countBy a n) := setReg d h _
theorem countWrap {a : Nat} (h : d.Free a) : Dev.Aside d (d.countWrap a) := setReg d h _
theorem depEvent (f : Fld) : Dev.Aside d (d.depEvent f) := setFlag d d.free_at f

theorem raise (n : Nat) : Dev.Aside d (d.raise n) := by
  obtain ⟨hheld, hawake⟩ := (d.free_at : d.Free Reg.BEL_UNROUTED_CNT)
  refine ⟨fun k hk => d.raise_reg_other n fun heq => hheld (heq ▸ hk), fun c hc => by rwa [d.raise_reg_other n hawake.symm], ?_⟩
  rw [Dev.raise, Dev.message_eq]
  rfl

theorem raiseIf (b : Bool) (n : Nat) : Dev.Aside d (d.raiseIf b n) := ite (raise d n) (refl d)

/-- The words that show a log entry lie between the ring of the log and its counts. -/
theorem showLog : Dev.Aside d d.showLog := by
  have hregs : ∀ (vs : List Nat) (a : Nat) (e : Dev), 0xD0030 ≤ a → a + 4 * vs.length ≤ 0xD0094 → Dev.Aside e (e.setRegs a vs) := by
    intro vs
    induction vs with
    | nil => exact fun _ e _ _ => refl e
    | cons v vs ih =>
      intro a e hlo hhi
      rw [List.length_cons] at hhi
      have hfixed : a ∉ flipFixed ∧ a ≠ Reg.MEM_STATUS := by
        simp only [flipFixed, List.mem_cons, List.not_mem_nil, or_false, Reg.FLP_EVENT, Reg.FLP_MALFORMED_CNT, Reg.DEP_LOG_RING,
          Reg.TWN_STATUS, Reg.MEM_STATUS]
        omega
      exact (setReg e (e.free_outside hfixed (by omega)) v).trans (ih _ _ (by omega) (by omega))
  exact hregs _ _ d (by decide) (by simp [Reg.DEP_LOG_DATA])

theorem memPowerUp (c : Nat) : Dev.Aside d (d.memPowerUp c) := by
  refine ⟨fun k hk => ?_, fun i hi => by rw [d.memPowerUp_bit, hi, Bool.false_and], ?_⟩
  · unfold Dev.memPowerUp
    split
    · exact d.setReg_reg_other _ fun heq => d.not_flipHeld (by decide) (by decide) (heq ▸ hk)
    · rfl
  · unfold Dev.memPowerUp
    split <;> rfl

theorem memWake (blocks : List Nat) : Dev.Aside d (d.memWake blocks) := ite (refl d) (foldl (fun d _ => memPowerUp d _) _ d)

theorem reservedWake (content block : Nat) : Dev.Aside d (d.reservedWake content block) := ite (refl d) (memPowerUp d _)

theorem memWrite (a : Nat) (bs : List Byte) : Dev.Aside d (d.memWrite a bs) := (memWake d (blocksOf a bs.length)).trans (of_regs rfl rfl)

theorem ringWrite (r a : Nat) (bs : List Byte) : Dev.Aside d (d.ringWrite r a bs) := ite (of_regs rfl rfl) (memWrite d a bs)

theorem memFails (a : Nat) : Dev.Aside d (d.count (Reg.MEM_FAIL_CNT (d.stackOf a))) := count d (d.free_memFail (d.stackOf_lt a))

theorem failedAgain (b : Nat) : Dev.Aside d (d.failedAgain b) := memFails d _

theorem blockFailed (b : Nat) : Dev.Aside d (d.blockFailed b) :=
  (count d d.free_at).trans (count _ (Dev.free_memFail _ (d.stackOf_lt _)))

theorem blockDamaged (b : Nat) : Dev.Aside d (d.blockDamaged b) :=
  ((of_regs rfl rfl : Dev.Aside d (d.setDamaged b true)).trans (depEvent _ _)).trans (raise _ _)

theorem corrupt (b : Nat) : Dev.Aside d (d.corrupt b) := of_regs rfl rfl

theorem checkBlocks (logged : Bool) (bad : List Nat) : Dev.Aside d (d.checkBlocks logged bad).1 := by
  refine List.foldlRecOn (motive := fun x : Dev × List LogEntry => Dev.Aside d x.1) _ _ (refl d) fun x hx b _ => hx.trans ?_
  dsimp only
  split
  · exact (blockFailed _ b).trans (failedAgain _ b)
  · split
    · exact (blockFailed _ b).trans (count _ (Dev.free_at _))
    · exact (((blockFailed _ b).trans (failedAgain _ b)).trans (corrupt _ b)).trans (blockDamaged _ b)

theorem checkOwn (read met bad : List Nat) : Dev.Aside d (d.checkOwn read met bad).1 := (checkBlocks d true _).trans (of_regs rfl rfl)

theorem ownChecks (spans : List (Nat × Nat)) (bad : List Nat) : Dev.Aside d (d.ownChecks spans bad).1 := checkOwn d _ _ bad

variable {d} in
theorem ringEvent {l : Nat} (h : isRecordClass (d.ringClass l) = true) (f : Fld) : Dev.Aside d (d.ringEvent l f) := by
  obtain ⟨-, hevent, -⟩ := Dev.free_recordRing h
  exact ite (refl d) ((setFlag d hevent f).trans (raiseIf _ _ l))

variable {d} in
theorem ringMark {l : Nat} (h : isRecordClass (d.ringClass l) = true) (old : Nat) : Dev.Aside d (d.ringMark l old) := by
  obtain ⟨-, -, hmark, -⟩ := Dev.free_recordRing h
  exact ite ((count d hmark).trans (ringEvent (d := d.count _) h _)) (refl d)

theorem recordClass {e d : Dev} (h : Dev.Aside e d) {l : Nat} (hl : isRecordClass (e.ringClass l) = true) :
    isRecordClass (d.ringClass l) = true := by rwa [h.units.ringClass]

/-- The entries of a record, its producer's cursor and line, and its count. -/
theorem putRecord (l : Nat) (entries : List (List Byte)) : Dev.Aside d (d.putRecord l entries).2 := by
  unfold Dev.putRecord
  split
  · exact refl d
  · next hrecord =>
    have hl : isRecordClass (d.ringClass l) = true := by
      simp only [Bool.or_eq_true, Bool.not_eq_true', not_or] at hrecord
      simpa using hrecord.2
    obtain ⟨-, -, -, -, hdrop⟩ := Dev.free_recordRing hl
    have hput {x : Dev} (h : Dev.Aside d x) (v : Nat) : Dev.Aside d (x.setReg (Reg.RNG_RS_PROD l) v) := by
      obtain ⟨hprod, -⟩ := Dev.free_recordRing (h.recordClass hl)
      exact h.trans (setReg x hprod v)
    have hcount {x : Dev} (h : Dev.Aside d x) : Dev.Aside d (x.countWrap (Reg.RNG_RS_DONE_CNT l)) := by
      obtain ⟨-, -, -, hdone, -⟩ := Dev.free_recordRing (h.recordClass hl)
      exact h.trans (countWrap x hdone)
    have hmark {x : Dev} (h : Dev.Aside d x) (old : Nat) : Dev.Aside d (x.ringMark l old) := h.trans (ringMark (h.recordClass hl) old)
    dsimp only
    split
    · exact ((count d hdrop).trans (count _ (Dev.free_at _))).trans (ringEvent (d := (d.count _).count _) hl _)
    · exact hmark ((hcount ((hput (foldl (fun d _ => ringWrite d l _ _) _ d) _).trans (ringWrite _ l _ _))).trans (raiseIf _ _ l)) _

theorem checkedRecord (l : Nat) (entries : List (List Byte)) : Dev.Aside d (d.checkedRecord l entries).1 := by
  unfold Dev.checkedRecord
  dsimp only
  split
  · exact (ownChecks d _ _).trans (putRecord _ l entries)
  · exact putRecord d l entries

/-- An entry lands in the log, and shows. -/
theorem entered (x : List (List Nat)) (b : Nat) :
    Dev.Aside d (({ d with depLogged := x }.reservedWake contentLogs b).countWrap Reg.DEP_LOG_COUNT).showLog :=
  (((of_regs rfl rfl : Dev.Aside d { d with depLogged := x }).trans (reservedWake _ _ _)).trans (countWrap _ (Dev.free_at _))).trans (showLog _)

theorem logRecord (e : LogEntry) : Dev.Aside d (d.logRecord e).1 := by
  unfold Dev.logRecord
  dsimp only
  split
  · exact ((entered d _ _).trans ((checkedRecord _ _ _).trans (ite (refl _) (depEvent _ _)))).trans (raise _ _)
  · exact (entered d _ _).trans (raise _ _)

end Steps

theorem logAt (n : Nat) (d : Dev) (e : LogEntry) : Dev.Aside d (Dev.logAt n d e) := by
  induction n generalizing d e with
  | zero => exact logRecord d e
  | succ n ih => exact (logRecord d e).trans (foldl (fun d x => ih d x) _ _)

theorem logAll (d : Dev) (es : List LogEntry) : Dev.Aside d (d.logAll es) := foldl (fun d e => logAt _ d e) es d

theorem record (d : Dev) (l : Nat) (entries : List (List Byte)) : Dev.Aside d (d.record l entries).2 :=
  (checkedRecord d l entries).trans (logAll _ _)

theorem plainReads (d : Dev) (blocks bad : List Nat) : Dev.Aside d (d.plainReads blocks bad) :=
  ((memWake d blocks).trans (checkOwn _ _ _ _)).trans (logAll _ _)

theorem ringFetch (d : Dev) (r skip n : Nat) : Dev.Aside d (d.ringFetch r skip n) := plainReads d _ _

theorem fetchSet (d : Dev) (r : Nat) : Dev.Aside d (d.fetchSet r) := ite (refl d) (ringFetch d r 0 _)

/-! ### What leaves on the links -/

theorem of_sends {e d : Dev} (h : Dev.SendsOnly e d) : Dev.Aside e d := by
  refine of_regs (congrArg Dev.regs h :) ?_
  exact (congrArg (fun x : Dev => { x with
    regs := e.regs, mem := e.mem, damaged := e.damaged, weak := e.weak, hostMem := e.hostMem, bel := e.bel, rings := e.rings
    depLogged := e.depLogged, trk := e.trk }) h :)

section Sending
variable (d : Dev)

/-- Of the sixteen tally units one that is bound to a link counts what it appends. -/
theorem appended {link u : Nat} (h : d.tlyBound link = some u) : Dev.Aside d (d.count (Reg.TLY_APPEND_CNT u)) := by
  have hu : u < 16 := by
    unfold Dev.tlyBound at h
    split at h
    · exact absurd h (by simp)
    · exact List.mem_range.mp (List.mem_of_find?_eq_some h)
  refine count d (d.free_outside ?_ (.inr (.inl ?_))) <;>
    simp only [flipFixed, List.mem_cons, List.not_mem_nil, or_false, Reg.FLP_EVENT, Reg.FLP_MALFORMED_CNT, Reg.DEP_LOG_RING,
      Reg.TWN_STATUS, Reg.MEM_STATUS, Reg.TLY_APPEND_CNT] <;> omega

theorem tlyAppend (link t origin seq : Nat) (payload : List Byte) : Dev.Aside d (d.tlyAppend link t origin seq payload).2 := by
  unfold Dev.tlyAppend
  split
  · exact refl d
  · next h => exact appended d h

theorem tlyAppendTold (link : Nat) : Dev.Aside d (d.tlyAppendTold link) := by
  unfold Dev.tlyAppendTold
  split
  · exact refl d
  · next h => exact appended d h

theorem twnSendMsg (msg : TwinMsg) : Dev.Aside d (d.twnSendMsg msg) := by
  have hemit {x : Dev} (h : Dev.Aside d x) (m : TwinMsg) (y : Twn) :
      Dev.Aside d { x.twnEmit d.twn.session d.twn.txSeq m with twn := y } :=
    (h.trans (of_sends (.twnEmit x _ _ m))).trans (of_regs rfl rfl)
  unfold Dev.twnSendMsg
  dsimp only
  split
  · split
    · exact hemit (tlyAppend d _ _ _ _ _) _ _
    · exact hemit (refl d) _ _
  · exact hemit (tlyAppendTold d 0) _ _

theorem twnMirror (items : List MirrorItem) : Dev.Aside d (d.twnMirror items) :=
  (twnSendMsg d _).trans (countBy _ (Dev.free_at _) _)

theorem mirrorCopy (c : Completion) : Dev.Aside d (d.mirrorCopy c) := by
  unfold Dev.mirrorCopy
  split
  · exact record d _ _
  · exact refl d

/-- A trunk port's state shows in a register of its own page. -/
theorem setTlane (p : Nat) (x : TrkLane) : Dev.Aside d (d.setTlane p x) := by
  have hfree (e : Dev) : e.Free (Reg.TRK_PORT_STATUS p) := by
    refine e.free_outside (not_fixed_of_ge ?_) (.inr (.inr ?_)) <;> simp only [Reg.TRK_PORT_STATUS] <;> omega
  exact (of_regs rfl rfl : Dev.Aside d { d with trk := { d.trk with lanes := d.trk.lanes.set (fun _ => {}) p x } }).trans
    (setReg _ (hfree _) _)

theorem trkCodes (p : Nat) (bs : List Byte) : Dev.Aside d (d.trkCodes p bs) :=
  (of_sends (.linkBytes d p _ _ bs)).trans (of_regs rfl rfl)

theorem trkPut (p : Nat) (session : List Byte) (seq : Nat) (f : TrunkFrame) : Dev.Aside d (d.trkPut p session seq f) := by
  unfold Dev.trkPut
  split
  · exact (of_sends (.emit d _)).trans (trkCodes _ _ _)
  · exact (of_sends (((Dev.SendsOnly.tickFree d).trans (.freshBytes _ _)).trans (.emit _ _))).trans (trkCodes _ _ _)

theorem trkSendOn (p : Nat) (f : TrunkFrame) : Dev.Aside d (d.trkSendOn p f) := by
  unfold Dev.trkSendOn
  dsimp only
  split
  · exact refl d
  · split
    · exact (trkPut d _ _ _ _).trans (setTlane _ _ _)
    · exact (of_sends (.tickFree d)).trans (trkPut _ _ _ _ _)

theorem trkUp (t : Nat) (payload : List Byte) : Dev.Aside d (d.trkUp t payload) := by
  unfold Dev.trkUp
  dsimp only
  split
  · exact (tlyAppend d _ _ _ _ _).trans (foldl (fun d p => trkSendOn d p _) _ _)
  · exact foldl (fun d p => trkSendOn d p _) _ d

end Sending
end Dev.Aside
end Sys2Proof.Machine

/-! SUPPORT. What a device reads and logs does not look at what has left it: a fetch with the last outputs gone is the fetch with its outputs
gone. -/

namespace Sys2Proof.Machine

/-! ### Steps that do not look at the outputs -/

theorem Dev.quiet_foldl {α : Type} {f : Dev → α → Dev} (h : ∀ d x, f d.quiet x = (f d x).quiet) (l : List α) (d : Dev) :
    l.foldl f d.quiet = (l.foldl f d).quiet := List.foldl_hom Dev.quiet fun x y => h x y

theorem Dev.quiet_ite (c : Prop) [Decidable c] (a b : Dev) : (if c then a.quiet else b.quiet) = (if c then a else b).quiet :=
  (apply_ite Dev.quiet c a b).symm

section Steps
variable (d : Dev)

theorem Dev.quiet_raise (n : Nat) : d.quiet.raise n = (d.raise n).quiet := by
  unfold Dev.raise Dev.message
  rw [show d.quiet.belRunning = d.belRunning from rfl]
  cases d.belRunning with
  | false => rfl
  | true =>
    cases isLevel n <;>
    · simp only [Bool.not_true, Bool.false_eq_true, if_false, if_true, Dev.routeOf, Dev.quiet_wb]
      generalize (ite (0x8000 ≤ n) _ _ : Option Nat) = route
      cases route <;> rfl

theorem Dev.quiet_raiseIf (b : Bool) (n : Nat) : d.quiet.raiseIf b n = (d.raiseIf b n).quiet := by
  rw [Dev.raiseIf, Dev.raiseIf, Dev.quiet_raise, Dev.quiet_ite]

theorem Dev.quiet_memPowerUp (c : Nat) : d.quiet.memPowerUp c = (d.memPowerUp c).quiet := Dev.quiet_ite _ (d.setReg _ _) d

theorem Dev.quiet_memWake (blocks : List Nat) : d.quiet.memWake blocks = (d.memWake blocks).quiet := by
  have hfold := Dev.quiet_foldl (f := fun d b => d.memPowerUp (d.stackOf (b * 256))) (fun d b => d.quiet_memPowerUp _) blocks d
  rw [Dev.memWake, hfold]
  exact Dev.quiet_ite _ _ _

theorem Dev.quiet_reservedWake (content block : Nat) : d.quiet.reservedWake content block = (d.reservedWake content block).quiet := by
  rw [Dev.reservedWake, Dev.quiet_memPowerUp]
  exact Dev.quiet_ite _ _ _

theorem Dev.quiet_memWrite (a : Nat) (bs : List Byte) : d.quiet.memWrite a bs = (d.memWrite a bs).quiet := by
  unfold Dev.memWrite
  dsimp only
  rw [Dev.quiet_memWake]
  rfl

theorem Dev.quiet_ringWrite (r a : Nat) (bs : List Byte) : d.quiet.ringWrite r a bs = (d.ringWrite r a bs).quiet := by
  rw [Dev.ringWrite, Dev.quiet_memWrite]
  exact Dev.quiet_ite _ (d.hostPut a bs) _

theorem Dev.quiet_ringEvent (r : Nat) (f : Fld) : d.quiet.ringEvent r f = (d.ringEvent r f).quiet := by
  rw [Dev.ringEvent, show d.quiet.setFlag (Reg.RNG_RS_EVENT r) f = (d.setFlag (Reg.RNG_RS_EVENT r) f).quiet from rfl, Dev.quiet_raiseIf]
  exact Dev.quiet_ite _ _ _

theorem Dev.quiet_ringMark (r old : Nat) : d.quiet.ringMark r old = (d.ringMark r old).quiet := by
  unfold Dev.ringMark
  dsimp only
  rw [show d.quiet.count (Reg.RNG_RS_MARK_CNT r) = (d.count (Reg.RNG_RS_MARK_CNT r)).quiet from rfl, Dev.quiet_ringEvent]
  exact Dev.quiet_ite _ _ _

theorem Dev.quiet_writeCursorLine (r : Nat) : d.quiet.writeCursorLine r = (d.writeCursorLine r).quiet := d.quiet_ringWrite r _ _

/-- A step that also answers does not look at the outputs either. -/
theorem Dev.quiet_pair {β : Type} (c : Prop) [Decidable c] (x y : β) (a b : Dev) :
    (if c then (x, a.quiet) else (y, b.quiet)) = ((if c then (x, a) else (y, b)).1, (if c then (x, a) else (y, b)).2.quiet) := by
  split <;> rfl

theorem Dev.quiet_putRecord (r : Nat) (entries : List (List Byte)) :
    d.quiet.putRecord r entries = ((d.putRecord r entries).1, (d.putRecord r entries).2.quiet) := by
  have hwrite (p : Nat) := Dev.quiet_foldl (f := fun d (x : Nat × List Byte) => d.ringWrite r (d.ringAddr r (p + x.1)) x.2)
    fun d x => d.quiet_ringWrite r _ _
  have hcount (e : Dev) : e.quiet.countWrap (Reg.RNG_RS_DONE_CNT r) = (e.countWrap (Reg.RNG_RS_DONE_CNT r)).quiet := rfl
  have hset (e : Dev) (v : Nat) : e.quiet.setReg (Reg.RNG_RS_PROD r) v = (e.setReg (Reg.RNG_RS_PROD r) v).quiet := rfl
  have hraise (e : Dev) : e.quiet.raiseIf (e.quiet.flag (Reg.RNG_RS_CTRL r) Fld.RNG_RS_CTRL_NOTIFY) r =
      (e.raiseIf (e.flag (Reg.RNG_RS_CTRL r) Fld.RNG_RS_CTRL_NOTIFY) r).quiet := e.quiet_raiseIf _ r
  have hdrop : ((d.quiet.count (Reg.RNG_RS_DROP_CNT r)).count Reg.RNG_DROP_CNT) =
    ((d.count (Reg.RNG_RS_DROP_CNT r)).count Reg.RNG_DROP_CNT).quiet := rfl
  unfold Dev.putRecord
  dsimp only
  rw [show d.quiet.ringProd r = d.ringProd r from rfl, show d.quiet.ringOcc r = d.ringOcc r from rfl,
    show d.quiet.ringN r = d.ringN r from rfl, show d.quiet.ringEn r = d.ringEn r from rfl,
    show d.quiet.ringDef r = d.ringDef r from rfl, show d.quiet.ringClass r = d.ringClass r from rfl]
  rw [hdrop, hwrite, hset, Dev.quiet_writeCursorLine, hcount, hraise, Dev.quiet_ringMark, Dev.quiet_ringEvent, Dev.quiet_pair, Dev.quiet_pair]

theorem Dev.quiet_stackOf (a : Nat) : d.quiet.stackOf a = d.stackOf a := Dev.stackOf_congr rfl a

theorem Dev.quiet_count (a : Nat) : d.quiet.count a = (d.count a).quiet := rfl

theorem Dev.quiet_failedAgain (b : Nat) : d.quiet.failedAgain b = (d.failedAgain b).quiet := by
  rw [Dev.failedAgain, Dev.quiet_stackOf, Dev.quiet_count, Dev.failedAgain]

theorem Dev.quiet_blockFailed (b : Nat) : d.quiet.blockFailed b = (d.blockFailed b).quiet := by
  rw [Dev.blockFailed, Dev.quiet_stackOf, Dev.quiet_count, Dev.quiet_count, Dev.blockFailed]

theorem Dev.quiet_corrupt (b : Nat) : d.quiet.corrupt b = (d.corrupt b).quiet := by
  have hput (e : Dev) (a : Nat) (bs : List Byte) : (e.quiet.memPut a bs).setDamaged b true = ((e.memPut a bs).setDamaged b true).quiet := rfl
  exact hput (d.freshBytes 256).2 (b * 256) (d.freshBytes 256).1

theorem Dev.quiet_blockDamaged (b : Nat) : d.quiet.blockDamaged b = (d.blockDamaged b).quiet :=
  ((d.setDamaged b true).depEvent Fld.DEP_EVENT_DAMAGED).quiet_raise 0x4303

/-- The check of a block on a list of blocks, and the entries to log so far. -/
theorem Dev.quiet_checkBlocks (logged : Bool) (bad : List Nat) :
    d.quiet.checkBlocks logged bad = ((d.checkBlocks logged bad).1.quiet, (d.checkBlocks logged bad).2) := by
  unfold Dev.checkBlocks
  refine List.foldl_hom (init := (d, [])) (fun x : Dev × List LogEntry => (x.1.quiet, x.2)) fun x b => ?_
  dsimp only
  rw [Dev.quiet_blockFailed, Dev.quiet_failedAgain, Dev.quiet_corrupt, Dev.quiet_blockDamaged, Dev.quiet_count, Dev.quiet_stackOf,
    show x.1.quiet.isDamaged b = x.1.isDamaged b from rfl]
  split
  · rfl
  · split <;> rfl

theorem Dev.quiet_checkOwn (read met bad : List Nat) :
    d.quiet.checkOwn read met bad = ((d.checkOwn read met bad).1.quiet, (d.checkOwn read met bad).2) := by
  unfold Dev.checkOwn
  dsimp only
  rw [show d.quiet.isDamaged = d.isDamaged from rfl, Dev.quiet_weak, Dev.quiet_checkBlocks]
  rfl

theorem Dev.quiet_ownChecks (spans : List (Nat × Nat)) (bad : List Nat) :
    d.quiet.ownChecks spans bad = ((d.ownChecks spans bad).1.quiet, (d.ownChecks spans bad).2) := d.quiet_checkOwn _ _ bad

theorem Dev.quiet_checkedRecord (r : Nat) (entries : List (List Byte)) :
    d.quiet.checkedRecord r entries = ((d.checkedRecord r entries).1.quiet, (d.checkedRecord r entries).2) := by
  unfold Dev.checkedRecord
  dsimp only
  rw [Dev.quiet_putRecord, Dev.quiet_ownChecks, show d.quiet.recordSpans = d.recordSpans from rfl]
  dsimp only
  rw [Dev.quiet_putRecord]
  split <;> dsimp only

theorem Dev.quiet_setRegs (a : Nat) (vs : List Nat) : d.quiet.setRegs a vs = (d.setRegs a vs).quiet := by
  induction vs generalizing d a with
  | nil => rfl
  | cons v vs ih => exact ih (d.setReg a v) (a + 4)

theorem Dev.quiet_showLog : d.quiet.showLog = d.showLog.quiet := d.quiet_setRegs _ _

theorem Dev.quiet_logRecord (e : LogEntry) : d.quiet.logRecord e = ((d.logRecord e).1.quiet, (d.logRecord e).2) := by
  have hentered (x : List (List Nat)) (b : Nat) : ({ d.quiet with depLogged := x }.reservedWake contentLogs b) =
      ({ d with depLogged := x }.reservedWake contentLogs b).quiet :=
    ({ d with depLogged := x } : Dev).quiet_reservedWake contentLogs b
  have hcount (x : Dev) : (x.quiet.countWrap Reg.DEP_LOG_COUNT).showLog = (x.countWrap Reg.DEP_LOG_COUNT).showLog.quiet :=
    (x.countWrap Reg.DEP_LOG_COUNT).quiet_showLog
  have hdrop (x : Dev) : x.quiet.depEvent Fld.DEP_EVENT_LOG_DROP = (x.depEvent Fld.DEP_EVENT_LOG_DROP).quiet := rfl
  unfold Dev.logRecord
  dsimp only
  rw [hentered, hcount]
  simp only [Dev.quiet_reg, Dev.quiet_depLogged, Dev.quiet_checkedRecord, hdrop, Dev.quiet_ite, Dev.quiet_raise]
  split <;> rfl

end Steps

theorem Dev.quiet_logAt (n : Nat) (d : Dev) (e : LogEntry) : Dev.logAt n d.quiet e = (Dev.logAt n d e).quiet := by
  induction n generalizing d e with
  | zero => exact congrArg Prod.fst (d.quiet_logRecord e)
  | succ n ih =>
    rw [Dev.logAt, Dev.logAt, Dev.quiet_logRecord]
    exact Dev.quiet_foldl ih _ _

theorem Dev.quiet_logAll (d : Dev) (es : List LogEntry) : d.quiet.logAll es = (d.logAll es).quiet :=
  Dev.quiet_foldl (f := Dev.depLog) (fun d e => Dev.quiet_logAt _ d e) es d

theorem Dev.quiet_plainReads (d : Dev) (blocks bad : List Nat) : d.quiet.plainReads blocks bad = (d.plainReads blocks bad).quiet := by
  unfold Dev.plainReads
  dsimp only
  rw [Dev.quiet_memWake, Dev.quiet_checkOwn, Dev.quiet_logAll]

theorem Dev.quiet_ringFetch (d : Dev) (r skip n : Nat) : d.quiet.ringFetch r skip n = (d.ringFetch r skip n).quiet :=
  d.quiet_plainReads _ _

/-! ### What a set is judged by -/

theorem Dev.quiet_sendFrom (d : Dev) (a : Plan) (q : Nat) (prev : Option Rat) (is : List Int) :
    d.quiet.sendFrom a q prev is = d.sendFrom a q prev is := by
  induction is generalizing prev with
  | nil => rfl
  | cons i is ih =>
    have hload : d.quiet.portLoad = d.portLoad := rfl
    have hready : d.quiet.readyTime = d.readyTime := rfl
    rw [Dev.sendFrom, Dev.sendFrom, hload, hready]
    simp only [ih]

theorem Dev.quiet_admission (d : Dev) (a : Plan) : d.quiet.admission a = d.admission a := by
  have hracing : d.quiet.admitRacing a = d.admitRacing a := rfl
  have hwhole : d.quiet.admitWhole a = d.admitWhole a := by
    unfold Dev.admitWhole
    simp only [Dev.quiet_sendFrom]
    rfl
  rw [Dev.admission, hracing, hwhole]
  rfl

theorem Dev.quiet_judgeSet (d : Dev) : d.quiet.judgeSet = d.judgeSet := by
  have hadmit : d.quiet.admitChange = d.admitChange := by
    funext l ws fs
    rw [Dev.admitChange, funext d.quiet_admission]
    rfl
  have hmembers : d.quiet.readMembers = d.readMembers := rfl
  have hbad : d.quiet.membersBad = d.membersBad := rfl
  have hplan : d.quiet.setPlan = d.setPlan := rfl
  have hprojected : d.quiet.projectedWith = d.projectedWith := rfl
  have hclash : d.quiet.windowClash = d.windowClash := rfl
  funext origin trunk head entries target deadline
  unfold Dev.judgeSet
  rw [hmembers, hbad, hplan, hprojected, hclash, hadmit]
  rfl

theorem Dev.quiet_groupEntries (d : Dev) (r at_ n : Nat) : d.quiet.groupEntries r at_ n = d.groupEntries r at_ n := by
  induction n generalizing at_ with
  | zero => rfl
  | succ n ih =>
    rw [Dev.groupEntries, Dev.groupEntries, ih]
    rfl

theorem Dev.quiet_frontEntries (d : Dev) (r : Nat) : d.quiet.frontEntries r = d.frontEntries r := by
  unfold Dev.frontEntries
  simp only [Dev.quiet_groupEntries]
  rfl

theorem Dev.quiet_fetchSet (d : Dev) (r : Nat) : d.quiet.fetchSet r = (d.fetchSet r).quiet := by
  unfold Dev.fetchSet
  dsimp only
  rw [Dev.quiet_ringFetch, Dev.quiet_frontEntries]
  exact Dev.quiet_ite _ d _

end Sys2Proof.Machine

/-! SUPPORT. What taking and completing a command of a ring leaves: its cursors, its count and the first word of its record (R381, R382). -/

namespace Sys2Proof.Machine

/-! ### The registers of one ring -/

/-- The registers of a ring that a read of its entries rests on. -/
theorem Dev.CommandRing.held_regs {d : Dev} {r : Nat} (h : d.CommandRing r) :
    d.FlipHeld (Reg.RNG_RS_CTRL r) ∧ d.FlipHeld (Reg.RNG_RS_BASE_LO r) ∧ d.FlipHeld (Reg.RNG_RS_BASE_HI r) ∧
      d.FlipHeld (Reg.RNG_RS_PROD r) ∧ d.FlipHeld (Reg.RNG_RS_CONS r) ∧ d.FlipHeld (Reg.RNG_RS_DONE_CNT r) := by
  refine ⟨?_, ?_, ?_, ?_, ?_, ?_⟩ <;> refine h.held ?_ ?_ <;>
    simp only [Reg.RNG_RS_CTRL, Reg.RNG_RS_BASE_LO, Reg.RNG_RS_BASE_HI, Reg.RNG_RS_PROD, Reg.RNG_RS_CONS, Reg.RNG_RS_DONE_CNT] <;> omega

theorem Dev.SameUnits.commandRing {e d : Dev} (h : Dev.SameUnits e d) {r : Nat} (hr : e.CommandRing r) : d.CommandRing r :=
  ⟨hr.1, by rw [h.ringClass]; exact hr.2⟩

theorem Dev.SameUnits.flipHeld {e d : Dev} (h : Dev.SameUnits e d) {k : Nat} (hk : e.FlipHeld k) : d.FlipHeld k :=
  hk.congr fun r => (h.ringClass r).symm

/-- The place of a ring and of its entries rests on its `CTRL` and `BASE`. -/
structure Dev.SamePlace (e d : Dev) (r : Nat) : Prop where
  ctrl : d.reg (Reg.RNG_RS_CTRL r) = e.reg (Reg.RNG_RS_CTRL r)
  lo : d.reg (Reg.RNG_RS_BASE_LO r) = e.reg (Reg.RNG_RS_BASE_LO r)
  hi : d.reg (Reg.RNG_RS_BASE_HI r) = e.reg (Reg.RNG_RS_BASE_HI r)

theorem Dev.Aside.samePlace {e d : Dev} (h : Dev.Aside e d) {r : Nat} (hr : e.CommandRing r) : Dev.SamePlace e d r := by
  obtain ⟨hctrl, hlo, hhi, -⟩ := hr.held_regs
  exact ⟨h.regs _ hctrl, h.regs _ hlo, h.regs _ hhi⟩

namespace Dev.SamePlace

theorem trans {a b c : Dev} {r : Nat} (h : Dev.SamePlace a b r) (k : Dev.SamePlace b c r) : Dev.SamePlace a c r :=
  ⟨k.ctrl.trans h.ctrl, k.lo.trans h.lo, k.hi.trans h.hi⟩

/-- Registers of a ring above its `BASE` do not move it. -/
theorem setReg (d : Dev) {r a : Nat} (h : Reg.RNG_RS_BASE_HI r < a) (v : Nat) : Dev.SamePlace d (d.setReg a v) r := by
  simp only [Reg.RNG_RS_BASE_HI] at h
  refine ⟨d.setReg_reg_other v ?_, d.setReg_reg_other v ?_, d.setReg_reg_other v ?_⟩ <;>
    simp only [Reg.RNG_RS_CTRL, Reg.RNG_RS_BASE_LO, Reg.RNG_RS_BASE_HI] <;> omega

variable {e d : Dev} {r : Nat} (h : Dev.SamePlace e d r)
include h

theorem ringHost : d.ringHost r = e.ringHost r := by simp only [Dev.ringHost, Dev.flag, Dev.fld, h.ctrl]
theorem ringN : d.ringN r = e.ringN r := by simp only [Dev.ringN, Dev.fld, h.ctrl]
theorem ringBase : d.ringBase r = e.ringBase r := by simp only [Dev.ringBase, Dev.pair, h.lo, h.hi]
theorem ringAddr (i : Nat) : d.ringAddr r i = e.ringAddr r i := by rw [Dev.ringAddr, Dev.ringAddr, h.ringBase, h.ringN]

/-- Where the bytes of a ring's area are the same, its entries are. -/
theorem ringEntry (hmem : e.ringHost r = false → d.mem = e.mem) (hhost : e.ringHost r = true → d.hostMem = e.hostMem) (i : Nat) :
    d.ringEntry r i = e.ringEntry r i := by
  unfold Dev.ringEntry Dev.ringRead
  rw [h.ringHost, h.ringAddr]
  cases hr : e.ringHost r with
  | true => simp only [Dev.hostRead, hhost hr, if_true]
  | false => simp only [Dev.memRead, hmem hr, Bool.false_eq_true, if_false]

end Dev.SamePlace

/-! ### Taking a command (R381) -/

section Take
variable {d : Dev} {r : Nat}

theorem Dev.ringTake_eq (d : Dev) (r n : Nat) : ∃ x rs, Dev.Aside d x ∧
    d.ringTake r n = { x.setReg (Reg.RNG_RS_CONS r) ((d.ringCons r + n) % 2 ^ 32) with rings := rs } := by
  unfold Dev.ringTake
  dsimp only
  split
  · exact ⟨d, _, .refl d, rfl⟩
  · exact ⟨_, _, .memWake d _, rfl⟩

theorem Dev.ringTake_units (d : Dev) (r n : Nat) : Dev.SameUnits d (d.ringTake r n) := by
  obtain ⟨x, rs, h, heq⟩ := d.ringTake_eq r n
  rw [heq]
  exact h.units.trans rfl

theorem Dev.ringTake_cons (d : Dev) (r n : Nat) : (d.ringTake r n).reg (Reg.RNG_RS_CONS r) = (d.reg (Reg.RNG_RS_CONS r) + n) % 2 ^ 32 := by
  obtain ⟨x, rs, -, heq⟩ := d.ringTake_eq r n
  rw [heq]
  show (x.setReg _ _).reg _ = _
  rw [Dev.setReg_reg, if_pos rfl, Nat.mod_mod]
  rfl

theorem Dev.ringTake_held (d : Dev) (r n : Nat) {k : Nat} (hk : d.FlipHeld k) (hne : k ≠ Reg.RNG_RS_CONS r) :
    (d.ringTake r n).reg k = d.reg k := by
  obtain ⟨x, rs, h, heq⟩ := d.ringTake_eq r n
  rw [heq]
  exact (x.setReg_reg_other _ hne).trans (h.regs k hk)

end Take

/-! ### Completing a command (R382) -/

/-- A completion before it is counted: its record has landed, and `RETIRE` and the cursor line where its command leads. -/
def Dev.completionLanded (d : Dev) (r i : Nat) (c : Completion) : Dev :=
  let d := d.ringWrite r (d.ringAddr r i) (wordBytes c.words)
  let st := d.ringSt r
  let lead := leadDone (st.open_.map fun e => if e.index == i then { e with done := true } else e)
  let d := d.setRingSt r { st with open_ := lead.2 }
  if lead.1 == 0 then d else (d.setReg (Reg.RNG_RS_RETIRE r) ((d.ringRetire r + lead.1) % 2 ^ 32)).writeCursorLine r

theorem Dev.putCompletion_eq (d : Dev) (r i : Nat) (c : Completion) : d.putCompletion r i c =
    ((d.completionLanded r i c).countWrap (Reg.RNG_RS_DONE_CNT r)).raiseIf
      (((d.completionLanded r i c).countWrap (Reg.RNG_RS_DONE_CNT r)).flag (Reg.RNG_RS_CTRL r) Fld.RNG_RS_CTRL_NOTIFY) r := rfl

section Complete
variable (d : Dev) (r i : Nat) (c : Completion)

/-- The record is written; then `RETIRE` stands, or it moves and the cursor line is written. -/
theorem Dev.completionLanded_cases : ∃ st v, let x := (d.ringWrite r (d.ringAddr r i) (wordBytes c.words)).setRingSt r st
    d.completionLanded r i c = x ∨ d.completionLanded r i c = (x.setReg (Reg.RNG_RS_RETIRE r) v).writeCursorLine r := by
  unfold Dev.completionLanded
  dsimp only
  split
  · exact ⟨_, 0, .inl rfl⟩
  · exact ⟨_, _, .inr rfl⟩

theorem Dev.Aside.recordWritten (st : RingSt) : Dev.Aside d ((d.ringWrite r (d.ringAddr r i) (wordBytes c.words)).setRingSt r st) :=
  (Dev.Aside.ringWrite d r _ _).trans (.of_regs rfl rfl)

/-- What lands leaves but for `RETIRE`. -/
theorem Dev.completionLanded_spec : Dev.SameUnits d (d.completionLanded r i c) ∧
    ∀ k, d.FlipHeld k → k ≠ Reg.RNG_RS_RETIRE r → (d.completionLanded r i c).reg k = d.reg k := by
  obtain ⟨st, v, hlanded | hlanded⟩ := d.completionLanded_cases r i c
  · rw [hlanded]
    have haside := Dev.Aside.recordWritten d r i c st
    exact ⟨haside.units, fun k hk _ => haside.regs k hk⟩
  · rw [hlanded]
    have haside := Dev.Aside.recordWritten d r i c st
    generalize (d.ringWrite r (d.ringAddr r i) (wordBytes c.words)).setRingSt r st = x at haside ⊢
    have hset : Dev.SameUnits d (x.setReg (Reg.RNG_RS_RETIRE r) v) := haside.units.trans rfl
    have hline : Dev.Aside _ ((x.setReg (Reg.RNG_RS_RETIRE r) v).writeCursorLine r) := .ringWrite _ r _ _
    exact ⟨hset.trans hline.units, fun k hk hne => (hline.regs k (hset.flipHeld hk)).trans
      ((x.setReg_reg_other v hne).trans (haside.regs k hk))⟩

/-- A completion raises the ring's source, if any, after its count. -/
theorem Dev.putCompletion_spec : Dev.SameUnits d (d.putCompletion r i c) ∧
    (∀ k, d.FlipHeld k → k ≠ Reg.RNG_RS_RETIRE r → k ≠ Reg.RNG_RS_DONE_CNT r → (d.putCompletion r i c).reg k = d.reg k) ∧
    (d.FlipHeld (Reg.RNG_RS_DONE_CNT r) →
      (d.putCompletion r i c).reg (Reg.RNG_RS_DONE_CNT r) = (d.reg (Reg.RNG_RS_DONE_CNT r) + 1) % 2 ^ 32) := by
  obtain ⟨hunits, hregs⟩ := d.completionLanded_spec r i c
  rw [Dev.putCompletion_eq]
  generalize d.completionLanded r i c = x at hunits hregs ⊢
  have hcount : Dev.SameUnits d (x.countWrap (Reg.RNG_RS_DONE_CNT r)) := hunits.trans rfl
  have hraise := Dev.Aside.raiseIf (x.countWrap (Reg.RNG_RS_DONE_CNT r))
    ((x.countWrap (Reg.RNG_RS_DONE_CNT r)).flag (Reg.RNG_RS_CTRL r) Fld.RNG_RS_CTRL_NOTIFY) r
  refine ⟨hcount.trans hraise.units, fun k hk hretire hdone => ?_, fun hdone => ?_⟩
  · rw [hraise.regs k (hcount.flipHeld hk), ← hregs k hk hretire]
    exact x.setReg_reg_other _ hdone
  · rw [hraise.regs _ (hcount.flipHeld hdone), ← hregs _ hdone (by simp only [Reg.RNG_RS_DONE_CNT, Reg.RNG_RS_RETIRE]; omega), Dev.countWrap,
      Dev.setReg_reg, if_pos rfl, Nat.mod_mod]

/-- What completing a command leaves: the units, and every held register but `RETIRE` and the count, which rises by one. -/
theorem Dev.ringComplete_spec : Dev.SameUnits d (d.ringComplete r i c) ∧
    (∀ k, d.FlipHeld k → k ≠ Reg.RNG_RS_RETIRE r → k ≠ Reg.RNG_RS_DONE_CNT r → (d.ringComplete r i c).reg k = d.reg k) ∧
    (d.FlipHeld (Reg.RNG_RS_DONE_CNT r) →
      (d.ringComplete r i c).reg (Reg.RNG_RS_DONE_CNT r) = (d.reg (Reg.RNG_RS_DONE_CNT r) + 1) % 2 ^ 32) := by
  have hchecks := Dev.Aside.ownChecks d (d.completionSpans r i c) []
  obtain ⟨hunits, hregs, hdone⟩ := (d.ownChecks (d.completionSpans r i c) []).1.putCompletion_spec r i c
  have hput := hchecks.units.trans hunits
  have hlog := Dev.Aside.logAll ((d.ownChecks (d.completionSpans r i c) []).1.putCompletion r i c)
    (d.ownChecks (d.completionSpans r i c) []).2
  refine ⟨hput.trans hlog.units, fun k hk hretire hcount => ?_, fun hk => ?_⟩
  · exact (hlog.regs k (hput.flipHeld hk)).trans ((hregs k (hchecks.units.flipHeld hk) hretire hcount).trans (hchecks.regs k hk))
  · exact (hlog.regs _ (hput.flipHeld hk)).trans ((hdone (hchecks.units.flipHeld hk)).trans (by rw [hchecks.regs _ hk]))

/-- A command that its reading completes: `CONS` passes it, the count rises by one, and the rest stands. -/
theorem Dev.ringReject_spec (n : Nat) : Dev.SameUnits d (d.ringReject r n c) ∧
    (∀ k, d.FlipHeld k → k ≠ Reg.RNG_RS_CONS r → k ≠ Reg.RNG_RS_RETIRE r → k ≠ Reg.RNG_RS_DONE_CNT r →
      (d.ringReject r n c).reg k = d.reg k) ∧
    (d.CommandRing r → (d.ringReject r n c).reg (Reg.RNG_RS_CONS r) = (d.reg (Reg.RNG_RS_CONS r) + n) % 2 ^ 32 ∧
      (d.ringReject r n c).reg (Reg.RNG_RS_DONE_CNT r) = (d.reg (Reg.RNG_RS_DONE_CNT r) + 1) % 2 ^ 32) := by
  have htake := d.ringTake_units r n
  obtain ⟨hunits, hregs, hcount⟩ := (d.ringTake r n).ringComplete_spec r (d.ringCons r) c
  refine ⟨htake.trans hunits, fun k hk hcons hretire hdone => ?_, fun hr => ?_⟩
  · exact (hregs k (htake.flipHeld hk) hretire hdone).trans (d.ringTake_held r n hk hcons)
  · obtain ⟨-, -, -, -, hcons, hdone⟩ := hr.held_regs
    refine ⟨(hregs _ (htake.flipHeld hcons) ?_ ?_).trans (d.ringTake_cons r n), (hcount (htake.flipHeld hdone)).trans ?_⟩
    · simp only [Reg.RNG_RS_CONS, Reg.RNG_RS_RETIRE]
      omega
    · simp only [Reg.RNG_RS_CONS, Reg.RNG_RS_DONE_CNT]
      omega
    · rw [d.ringTake_held r n hdone (by simp only [Reg.RNG_RS_CONS, Reg.RNG_RS_DONE_CNT]; omega)]

end Complete

/-! ### The record of a completion -/

theorem leNat_leBytes (n x : Nat) : leNat (leBytes n x) = x % 256 ^ n := by
  induction n generalizing x with
  | zero => simp [leBytes, leNat, Nat.mod_one]
  | succ n ih =>
    have hpow : 256 ^ (n + 1) = 256 * 256 ^ n := Nat.pow_succ'
    rw [leBytes, leNat, ih, BitVec.toNat_ofNat, hpow]
    exact Nat.mod_mul.symm

section Tables
variable {α : Type} [DecidableEq α] {d : Nat → α}

omit [DecidableEq α] in
theorem Tab.range_take (t : Tab α) (k : Nat) {n m : Nat} (h : n ≤ m) : (t.range d k m).take n = t.range d k n := by
  induction m generalizing k n with
  | zero => rw [Nat.le_zero.mp h, List.take_zero, Tab.range]
  | succ m ih =>
    cases n with
    | zero => rfl
    | succ n => rw [Tab.range, Tab.range, List.take_succ_cons, ih _ (Nat.le_of_succ_le_succ h)]

/-- A write leaves the values below it. -/
theorem Tab.range_write_above (t : Tab α) (vs : List α) {j k n : Nat} (h : j + n ≤ k) : (t.write d k vs).range d j n = t.range d j n := by
  induction n generalizing j with
  | zero => rfl
  | succ n ih => rw [Tab.range, Tab.range, Tab.get_write_below t vs (by omega), ih (by omega)]

/-- The first values of those just written. -/
theorem Tab.range_write_take (t : Tab α) (vs : List α) (k : Nat) {n : Nat} (h : n ≤ vs.length) : (t.write d k vs).range d k n = vs.take n := by
  rw [← Tab.range_take _ _ h, Tab.range_write]

end Tables

section Area
variable (d : Dev) (r : Nat)

/-- The first word of an entry is that of its first four bytes. -/
theorem Dev.ringEntry_first (i : Nat) : wordOf (d.ringEntry r i) 0 = leNat (d.ringRead r (d.ringAddr r i) 4) := by
  have htake : (d.ringRead r (d.ringAddr r i) 64).take 4 = d.ringRead r (d.ringAddr r i) 4 := by
    unfold Dev.ringRead
    split
    · exact Tab.range_take _ _ (by decide)
    · exact Tab.range_take _ _ (by decide)
  rw [← htake]
  rfl

theorem Dev.ringRead_congr {d e : Dev} {r : Nat} (hplace : d.ringHost r = e.ringHost r) (hmem : d.mem = e.mem) (hhost : d.hostMem = e.hostMem)
    (a n : Nat) : d.ringRead r a n = e.ringRead r a n := by
  simp only [Dev.ringRead, Dev.hostRead, Dev.memRead, hplace, hmem, hhost]

theorem Dev.ringHost_ringWrite (a : Nat) (bs : List Byte) : (d.ringWrite r a bs).ringHost r = d.ringHost r := by
  have hctrl : (d.ringWrite r a bs).reg (Reg.RNG_RS_CTRL r) = d.reg (Reg.RNG_RS_CTRL r) := by
    unfold Dev.ringWrite
    split
    · rfl
    · refine (d.memWake_onlyRegs (blocksOf a bs.length)).regs _ ?_
      simp only [List.mem_singleton, Reg.RNG_RS_CTRL, Reg.MEM_STATUS]
      omega
  simp only [Dev.ringHost, Dev.flag, Dev.fld, hctrl]

/-- The bytes of a ring's area after a write to it: the write of the table that holds it. -/
theorem Dev.ringRead_ringWrite (a : Nat) (bs : List Byte) (j n : Nat) : (d.ringWrite r a bs).ringRead r j n =
    if d.ringHost r then (d.hostMem.write Config.hostByte a bs).range Config.hostByte j n else (d.mem.write memDefault a bs).range memDefault j n := by
  unfold Dev.ringRead
  rw [Dev.ringHost_ringWrite]
  unfold Dev.ringWrite
  cases d.ringHost r with
  | true => rfl
  | false =>
    have hmem : (d.memWrite a bs).mem = d.mem.write memDefault a bs := congrArg (fun m : Tab Byte => m.write memDefault a bs) (d.memWake_mem _)
    simp only [Bool.false_eq_true, if_false, Dev.memRead, hmem]

theorem Dev.ringRead_written (a : Nat) {bs : List Byte} {n : Nat} (h : n ≤ bs.length) : (d.ringWrite r a bs).ringRead r a n = bs.take n := by
  rw [Dev.ringRead_ringWrite, Tab.range_write_take _ _ _ h, Tab.range_write_take _ _ _ h, ite_self]

theorem Dev.ringRead_below (a : Nat) (bs : List Byte) {j n : Nat} (h : j + n ≤ a) : (d.ringWrite r a bs).ringRead r j n = d.ringRead r j n := by
  rw [Dev.ringRead_ringWrite, Tab.range_write_above _ _ h, Tab.range_write_above _ _ h]
  rfl

/-- An entry lies below the cursor line (R376, R481). -/
theorem Dev.ringAddr_lt (i : Nat) : d.ringAddr r i + 64 ≤ d.ringBase r + d.ringN r * 64 := by
  have hlt : i % d.ringN r < d.ringN r := Nat.mod_lt _ (by unfold Dev.ringN; positivity)
  rw [Dev.ringAddr]
  omega

end Area

/-- The first four bytes of a record. -/
theorem Completion.words_take (c : Completion) :
    4 ≤ (wordBytes c.words).length ∧ (wordBytes c.words).take 4 = leBytes 4 (0xCE + c.op % 256 * 2 ^ 8 + c.status * 2 ^ 16) := ⟨by
  simp [wordBytes, Completion.words], rfl⟩

variable {d : Dev} {r : Nat} in
/-- The record of a completion stands at its entry, the cursor line beside it. -/
theorem Dev.completionLanded_read (hr : d.CommandRing r) (i : Nat) (c : Completion) :
    (d.completionLanded r i c).ringRead r (d.ringAddr r i) 4 = leBytes 4 (0xCE + c.op % 256 * 2 ^ 8 + c.status * 2 ^ 16) := by
  obtain ⟨hlen, htake⟩ := c.words_take
  have hwritten (st : RingSt) : ((d.ringWrite r (d.ringAddr r i) (wordBytes c.words)).setRingSt r st).ringRead r (d.ringAddr r i) 4 =
      leBytes 4 (0xCE + c.op % 256 * 2 ^ 8 + c.status * 2 ^ 16) := (d.ringRead_written r _ hlen).trans htake
  obtain ⟨st, v, hlanded | hlanded⟩ := d.completionLanded_cases r i c
  · rw [hlanded, hwritten]
  · rw [hlanded, ← hwritten st]
    have hplace := (Dev.Aside.recordWritten d r i c st).samePlace hr
    generalize (d.ringWrite r (d.ringAddr r i) (wordBytes c.words)).setRingSt r st = x at hplace ⊢
    have hset : Dev.SamePlace x (x.setReg (Reg.RNG_RS_RETIRE r) v) r :=
      .setReg x (by simp only [Reg.RNG_RS_BASE_HI, Reg.RNG_RS_RETIRE]; omega) v
    have hbelow := (x.setReg (Reg.RNG_RS_RETIRE r) v).ringAddr_lt r i
    rw [(hplace.trans hset).ringAddr] at hbelow
    exact (Dev.ringRead_below _ r _ _ (by omega)).trans (Dev.ringRead_congr hset.ringHost rfl rfl _ _)

/-- The record of a completion stands at its entry. -/
theorem Dev.putCompletion_entry {d : Dev} {r : Nat} (hr : d.CommandRing r) (i : Nat) {c : Completion} (hstatus : c.status < 2 ^ 16) :
    wordOf ((d.putCompletion r i c).ringEntry r i) 0 = 0xCE + c.op % 256 * 2 ^ 8 + c.status * 2 ^ 16 := by
  obtain ⟨hunits, hregs⟩ := d.completionLanded_spec r i c
  have hread := Dev.completionLanded_read hr i c
  have hplace : Dev.SamePlace d (d.completionLanded r i c) r := by
    obtain ⟨hctrl, hlo, hhi, -⟩ := hr.held_regs
    refine ⟨hregs _ hctrl ?_, hregs _ hlo ?_, hregs _ hhi ?_⟩ <;>
      simp only [Reg.RNG_RS_CTRL, Reg.RNG_RS_BASE_LO, Reg.RNG_RS_BASE_HI, Reg.RNG_RS_RETIRE] <;> omega
  rw [Dev.putCompletion_eq]
  generalize d.completionLanded r i c = x at hunits hread hplace ⊢
  have hcount : Dev.SamePlace x (x.countWrap (Reg.RNG_RS_DONE_CNT r)) r :=
    .setReg x (by simp only [Reg.RNG_RS_BASE_HI, Reg.RNG_RS_DONE_CNT]; omega) _
  have hraise := (Dev.Aside.raiseIf (x.countWrap (Reg.RNG_RS_DONE_CNT r))
    ((x.countWrap (Reg.RNG_RS_DONE_CNT r)).flag (Reg.RNG_RS_CTRL r) Fld.RNG_RS_CTRL_NOTIFY) r).samePlace
      ((hunits.trans rfl : Dev.SameUnits d (x.countWrap _)).commandRing hr)
  have hall := hcount.trans hraise
  rw [Dev.ringEntry_first, (hplace.trans hall).ringAddr, Dev.ringRead_congr hall.ringHost (Dev.raiseIf_mem _ _ _) (Dev.raiseIf_hostMem _ _ _)]
  refine (congrArg leNat hread).trans ((leNat_leBytes 4 _).trans (Nat.mod_eq_of_lt ?_))
  omega

theorem Dev.putCompletion_samePlace {d : Dev} {r : Nat} (hr : d.CommandRing r) (i : Nat) (c : Completion) :
    Dev.SamePlace d (d.putCompletion r i c) r := by
  obtain ⟨-, hregs, -⟩ := d.putCompletion_spec r i c
  obtain ⟨hctrl, hlo, hhi, -⟩ := hr.held_regs
  refine ⟨hregs _ hctrl ?_ ?_, hregs _ hlo ?_ ?_, hregs _ hhi ?_ ?_⟩ <;>
    simp only [Reg.RNG_RS_CTRL, Reg.RNG_RS_BASE_LO, Reg.RNG_RS_BASE_HI, Reg.RNG_RS_RETIRE, Reg.RNG_RS_DONE_CNT] <;> omega

/-- Where the blocks that a write merges into pass their check, there is nothing to log. -/
theorem Dev.checkOwn_whole {d : Dev} {read : List Nat} (h : d.ReadsWhole read) (met : List Nat) : (d.checkOwn read met []).2 = [] := by
  have hnone : read.filter d.isDamaged ++ ([] ++ d.weak).filter read.contains = [] := by
    rw [List.append_eq_nil_iff, List.filter_eq_nil_iff, List.filter_eq_nil_iff]
    refine ⟨fun b hb => ?_, fun b hb hread => ?_⟩
    · rw [(h b hb).1]
      exact Bool.false_ne_true
    · exact (h b (List.contains_iff_mem.mp hread)).2 hb
  unfold Dev.checkOwn
  rw [hnone]
  rfl

theorem Dev.logAll_ringless {d : Dev} (h : d.Ringless) (es : List LogEntry) : (d.logAll es).mem = d.mem := by
  have hall : (d.logAll es).Ringless ∧ (d.logAll es).mem = d.mem :=
    List.foldlRecOn (motive := fun x : Dev => x.Ringless ∧ x.mem = d.mem) es Dev.depLog ⟨h, rfl⟩ fun x hx e _ =>
      ⟨(Dev.Logs.depLog x e).ringless hx.1, (Dev.depLog_ringless hx.1 e).1.trans hx.2⟩
  exact hall.2

/-- What is logged of the blocks that a completion's writes merge into moves no byte of the ring: nothing is, or the log has no ring. -/
theorem Dev.ringComplete_entry {d : Dev} {r : Nat} (hr : d.CommandRing r) (i : Nat) {c : Completion} (hstatus : c.status < 2 ^ 16)
    (hquiet : d.ringHost r = true ∨ d.weak = [] ∧ (d.damaged = [] ∨ d.Ringless)) :
    wordOf ((d.ringComplete r i c).ringEntry r i) 0 = 0xCE + c.op % 256 * 2 ^ 8 + c.status * 2 ^ 16 := by
  have hchecks := Dev.Aside.ownChecks d (d.completionSpans r i c) []
  have hentry := Dev.putCompletion_entry (hchecks.units.commandRing hr) i hstatus
  obtain ⟨hunits, hregs, -⟩ := (d.ownChecks (d.completionSpans r i c) []).1.putCompletion_spec r i c
  have hunlogged (h : d.ReadsWhole ((d.completionSpans r i c).flatMap fun x => partBlocks x.1 x.2)) :
      d.ringComplete r i c = (d.ownChecks (d.completionSpans r i c) []).1.putCompletion r i c := by
    unfold Dev.ringComplete
    dsimp only
    rw [show (d.ownChecks (d.completionSpans r i c) []).2 = [] from Dev.checkOwn_whole h _]
    rfl
  cases hhost : d.ringHost r with
  | true =>
    rw [hunlogged, hentry]
    rw [Dev.completionSpans, if_pos hhost]
    exact fun b hb => absurd hb (List.not_mem_nil)
  | false =>
    obtain ⟨hweak, hdamaged | hringless⟩ := hquiet.resolve_left (by simp [hhost])
    · rw [hunlogged, hentry]
      exact fun b _ => ⟨by simp [Dev.isDamaged, hdamaged], by simp [hweak]⟩
    · have hput : ((d.ownChecks (d.completionSpans r i c) []).1.putCompletion r i c).Ringless := by
        have hheld : d.FlipHeld Reg.DEP_LOG_RING := .inl (by decide)
        rw [Dev.Ringless, hregs _ (hchecks.units.flipHeld hheld), hchecks.regs _ hheld]
        · exact hringless
        · simp only [Reg.DEP_LOG_RING, Reg.RNG_RS_RETIRE]
          omega
        · simp only [Reg.DEP_LOG_RING, Reg.RNG_RS_DONE_CNT]
          omega
      have hlog := (Dev.Aside.logAll _ (d.ownChecks (d.completionSpans r i c) []).2).samePlace
        ((hchecks.units.trans hunits).commandRing hr)
      have hplace := (hchecks.samePlace hr).trans (Dev.putCompletion_samePlace (hchecks.units.commandRing hr) i c)
      refine (congrArg (wordOf · 0) (hlog.ringEntry (fun _ => Dev.logAll_ringless hput _) (fun h => ?_) i)).trans hentry
      exact absurd (h.symm.trans (hplace.ringHost.trans hhost)) (by decide)

end Sys2Proof.Machine

/-! SUPPORT. How FLP judges the set at the front of a ring, and what taking it leaves (R178, R180, R181, Table 8.3). -/

namespace Sys2Proof.Machine

/-! ### The verdict (Table 8.3) -/

section Verdict
variable {d : Dev} {origin : SetOrigin} {trunk : Bool} {head : List Nat} {entries : List (List Nat)} {target deadline : Nat}

/-- Row 1: a form that breaks R178, and a target too far ahead. -/
theorem Dev.judgeSet_malformed (h : headGood trunk head = false ∨ d.readMembers entries = none ∨ d.tooFar target = true) :
    (d.judgeSet origin trunk head entries target deadline).status = stMalformed ∧
      (d.judgeSet origin trunk head entries target deadline).set = none := by
  unfold Dev.judgeSet
  dsimp only
  split
  · next hhead hmembers =>
    have hfar : d.tooFar target = true := by simpa [hhead, hmembers] using h
    rw [hfar, Bool.or_true, if_pos rfl]
    exact ⟨rfl, rfl⟩
  · exact ⟨rfl, rfl⟩

/-- Row 2: in Doze no set is queued. -/
theorem Dev.judgeSet_doze (h : d.sdp.power = 2) : (d.judgeSet origin trunk head entries target deadline).set = none := by
  unfold Dev.judgeSet
  dsimp only
  split
  · split
    · rfl
    · rw [if_pos (beq_iff_eq.mpr h)]
  · rfl

/-- Row 5: a set that is queued has the target and the tag that it was read with, and the next number. -/
theorem Dev.judgeSet_queued {q : QSet} (h : (d.judgeSet origin trunk head entries target deadline).set = some q) :
    q.target = target ∧ q.tag = (setHead head).tag ∧ q.id = d.flp.nextId := by
  unfold Dev.judgeSet at h
  dsimp only at h
  repeat' split at h
  all_goals cases h
  all_goals exact ⟨rfl, rfl, rfl⟩

end Verdict

/-! ### Taking the front of a ring -/

/-- FLP holds no ring as full. -/
def Dev.emptied (d : Dev) : Dev := { d with flp := { d.flp with full := none } }

theorem Dev.emptied_eq {d : Dev} (h : d.flp.full = none) : d.emptied = d := by
  unfold Dev.emptied
  rw [← h]

/-- An accepted set has its number, its windows and its space. -/
def Dev.accepting (d : Dev) (v : Verdict) : Dev := if v.set.isSome then d.acceptSet v.windows v.more v.gains else d

/-- The set of a ring as it counts as read, on a device that is not of a pair. -/
def frontRead (r : Nat) (h : SetHead) (v : Verdict) : SetRead :=
  { ring := r, entries := h.count + 1, tag := h.tag, seq := none, status := v.status
    set := v.set.map fun q => { q with ack := none }, fail := v.fail.map (·.tuple) }

/-- The verdict on the set at the front of a ring. -/
def Dev.frontVerdict (d : Dev) (r : Nat) : Verdict :=
  let en := d.ringEntry r (d.ringCons r)
  let h := setHead en
  d.judgeSet (.own r (d.ringCons r)) false en (d.entriesFrom r 1 h.count) (if h.next then d.firstLatch else h.target) h.deadline

section Front
variable {d : Dev} {r : Nat}

/-- Where the queue has no room, FLP is full with the ring (R181). -/
theorem Dev.takeFront_full (hop : opOf (d.ringEntry r (d.ringCons r)) = 1)
    (hwhole : (setHead (d.ringEntry r (d.ringCons r))).count + 1 ≤ d.unreadIn r)
    (hroom : d.queueRoom (setHead (d.ringEntry r (d.ringCons r))).count = false) (hfull : d.flp.full = none) :
    d.takeFront r = { d.flpEvent Fld.FLP_EVENT_FULL with flp := { d.flp with full := some r } } := by
  unfold Dev.takeFront
  dsimp only
  rw [hop]
  rw [if_neg (by omega), hroom, hfull]
  rfl

/-- Else the set counts as read under its verdict. -/
theorem Dev.takeFront_takes (hop : opOf (d.ringEntry r (d.ringCons r)) = 1)
    (hwhole : (setHead (d.ringEntry r (d.ringCons r))).count + 1 ≤ d.unreadIn r)
    (hroom : d.queueRoom (setHead (d.ringEntry r (d.ringCons r))).count = true) (hpair : d.primaryPaired = false)
    (hpower : d.sdp.power ≠ 1) : d.takeFront r = ((d.emptied.accepting (d.emptied.frontVerdict r)).commitRead
      (frontRead r (setHead (d.ringEntry r (d.ringCons r))) (d.emptied.frontVerdict r))).flpEdge := by
  have hlull : d.emptied.lullExit = d.emptied := if_neg (by simpa [Dev.emptied] using hpower)
  have hnone : d.emptied.primaryPaired = false := hpair
  unfold Dev.emptied at hlull hnone
  dsimp only at hlull hnone
  unfold Dev.takeFront
  dsimp only
  rw [hop, if_neg (by omega), hroom]
  simp only [Bool.not_true, Bool.false_eq_true, if_false, hlull, hnone]
  rfl

end Front

end Sys2Proof.Machine

/-! SUPPORT. What a set that counts as read leaves: its ring's cursors, the queue and the count of malformed sets (R180, R181, Table 8.7). -/

namespace Sys2Proof.Machine

/-! ### The count of its verdict (Table 8.7) -/

section Count
variable (d : Dev) (v : Verdict)

/-- Counts of refused sets leave the rings, the fences and the flip unit's event. -/
theorem Dev.countVerdict_spec : Dev.SameUnits d (d.countVerdict v) ∧
    (∀ k, d.FlipHeld k → k ≠ Reg.FLP_MALFORMED_CNT → (d.countVerdict v).reg k = d.reg k) := by
  have haside {x : Dev} (h : Dev.Aside d x) : Dev.SameUnits d x ∧ ∀ k, d.FlipHeld k → k ≠ Reg.FLP_MALFORMED_CNT → x.reg k = d.reg k :=
    ⟨h.units, fun k hk _ => h.regs k hk⟩
  have hbudget := Dev.Aside.count d (a := Reg.FLP_BUDGET_CNT) (Dev.free_at _)
  unfold Dev.countVerdict
  split
  · exact ⟨rfl, fun k _ hne => d.count_reg_other hne⟩
  · split
    · exact haside (.count d (Dev.free_at _))
    · split
      · dsimp only
        split
        · exact haside (hbudget.trans ((Dev.Aside.setReg _ (Dev.free_at _) _).trans (.count _ (Dev.free_at _))))
        · exact haside (hbudget.trans (.count _ (Dev.free_at _)))
      · exact haside (.refl d)

theorem Dev.countVerdict_malformed (h : v.status = stMalformed) :
    (d.countVerdict v).reg Reg.FLP_MALFORMED_CNT = min (d.reg Reg.FLP_MALFORMED_CNT + 1) 0xFFFFFFFF := by
  rw [Dev.countVerdict, if_pos (beq_iff_eq.mpr h), Dev.count_reg, if_pos rfl]

end Count

/-! ### A set that counts as read -/

/-- A set is no longer among those that are read and wait for their acknowledgement. -/
def Dev.readOff (d : Dev) (x : SetRead) : Dev := { d with flp := { d.flp with reading := d.flp.reading.filter (· != x) } }

section Commit
variable {d : Dev} {x : SetRead}

/-- One that is refused completes on its ring (R180). -/
theorem Dev.commitRead_refused (hr : d.CommandRing x.ring) (hread : d.ringReadable x.ring = true) (hset : x.set = none)
    (hseq : x.seq = none) : Dev.SameUnits (d.readOff x) (d.commitRead x) ∧
      (d.commitRead x).reg (Reg.RNG_RS_CONS x.ring) = (d.reg (Reg.RNG_RS_CONS x.ring) + x.entries) % 2 ^ 32 ∧
      (d.commitRead x).reg (Reg.RNG_RS_DONE_CNT x.ring) = (d.reg (Reg.RNG_RS_DONE_CNT x.ring) + 1) % 2 ^ 32 ∧
      (x.status = stMalformed →
        (d.commitRead x).reg Reg.FLP_MALFORMED_CNT = min (d.reg Reg.FLP_MALFORMED_CNT + 1) 0xFFFFFFFF) := by
  let v : Verdict := ⟨x.status, 0, none, x.fail.map fun f => ⟨f.1, f.2.1, f.2.2.1, f.2.2.2⟩, [], [], []⟩
  let y : Dev := ((d.readOff x).countVerdict v).tickFree
  let c : Completion := {
    op := 1, status := x.status, tag := x.tag, stroke := Config.freeNat ((d.readOff x).countVerdict v).free % two48 }
  have hcommit : d.commitRead x = y.ringReject x.ring x.entries c := by
    unfold Dev.commitRead
    simp only [hread, hset, hseq, Bool.not_true, Bool.false_eq_true, if_false, Option.isSome_none]
    rfl
  have hv : v.status = x.status := rfl
  obtain ⟨hunits, hregs⟩ := (d.readOff x).countVerdict_spec v
  have hmalformed := (d.readOff x).countVerdict_malformed v
  have hy : Dev.SameUnits (d.readOff x) y := hunits.trans rfl
  have hyregs (k : Nat) : y.reg k = ((d.readOff x).countVerdict v).reg k := rfl
  have hr' : (d.readOff x).CommandRing x.ring := hr
  have hoff (k : Nat) : (d.readOff x).reg k = d.reg k := rfl
  obtain ⟨-, -, -, -, hcons, hdone⟩ := hr'.held_regs
  obtain ⟨hreject, hheld, hcursors⟩ := y.ringReject_spec x.ring c x.entries
  obtain ⟨hc, hd⟩ := hcursors (hy.commandRing hr')
  rw [hcommit]
  refine ⟨hy.trans hreject, ?_, ?_, fun hstatus => ?_⟩
  · rw [hc, hyregs, hregs _ hcons (by simp only [Reg.RNG_RS_CONS, Reg.FLP_MALFORMED_CNT]; omega), hoff]
  · rw [hd, hyregs, hregs _ hdone (by simp only [Reg.RNG_RS_DONE_CNT, Reg.FLP_MALFORMED_CNT]; omega), hoff]
  · rw [hheld _ (hy.flipHeld (.inl (by decide))), hyregs, hmalformed (hv.trans hstatus), hoff] <;>
      simp only [Reg.RNG_RS_CONS, Reg.RNG_RS_RETIRE, Reg.RNG_RS_DONE_CNT, Reg.FLP_MALFORMED_CNT] <;> omega

/-- One that is accepted joins the queue (R180). -/
theorem Dev.commitRead_accepted (hr : d.CommandRing x.ring) (hread : d.ringReadable x.ring = true) {q : QSet} (hset : x.set = some q) :
    Dev.SameUnits ((d.readOff x).putSet q) (d.commitRead x) ∧
      (d.commitRead x).reg (Reg.RNG_RS_CONS x.ring) = (d.reg (Reg.RNG_RS_CONS x.ring) + x.entries) % 2 ^ 32 ∧
      (d.commitRead x).reg (Reg.RNG_RS_DONE_CNT x.ring) = d.reg (Reg.RNG_RS_DONE_CNT x.ring) := by
  have hcommit : d.commitRead x = ((d.readOff x).ringTake x.ring x.entries).putSet q := by
    unfold Dev.commitRead
    simp only [hread, hset, Bool.not_true, Bool.false_eq_true, if_false]
    rfl
  have hr' : (d.readOff x).CommandRing x.ring := hr
  obtain ⟨-, -, -, -, -, hdone⟩ := hr'.held_regs
  have hunits := (d.readOff x).ringTake_units x.ring x.entries
  have hcons := (d.readOff x).ringTake_cons x.ring x.entries
  have hheld := (d.readOff x).ringTake_held x.ring x.entries hdone (by simp only [Reg.RNG_RS_CONS, Reg.RNG_RS_DONE_CNT]; omega)
  rw [hcommit]
  generalize (d.readOff x).ringTake x.ring x.entries = y at hunits hcons hheld ⊢
  refine ⟨?_, hcons, hheld⟩
  exact congrArg (fun z : Dev => z.putSet q) hunits

end Commit

/-! ### Taking the front of a ring, as a whole -/

/-- While timing runs no edge of a read evaluates the queue (R184). -/
theorem Dev.flpEdge_running {d : Dev} (h : d.stk.timing ≠ 0) : d.flpEdge = d := by
  rw [Dev.flpEdge, beq_false_of_ne h]
  rfl

/-- Where no set gains anything, those in the queue stand as they are. -/
theorem Dev.giveSpace_queue_nil (d : Dev) : (d.giveSpace [] []).flp.queue = d.flp.queue := by
  show d.flp.queue.map _ = d.flp.queue
  refine (List.map_congr_left fun q _ => ?_).trans (List.map_id _)
  simp

end Sys2Proof.Machine

/-! SUPPORT. FLP takes a set from the front of a SUBMIT ring (R178, R180, R181, Table 8.3). -/

namespace Sys2Proof.Machine

/-! ### Rings that FLP reads -/

section Readable
variable {d e : Dev} {r : Nat}

theorem Dev.submitReadable_ring (hr : r < 16384) (h : d.submitReadable r = true) : d.CommandRing r ∧ d.ringReadable r = true := by
  simp only [Dev.submitReadable, Bool.and_eq_true, beq_iff_eq] at h
  obtain ⟨⟨⟨⟨⟨-, hclass⟩, hread⟩, -⟩, -⟩, -⟩ := h
  exact ⟨⟨hr, by rw [hclass]; decide⟩, hread⟩

/-- Steps aside from the flips leave a ring readable. -/
theorem Dev.Aside.ringReadable (h : Dev.Aside e d) (hr : e.CommandRing r) : d.ringReadable r = e.ringReadable r := by
  obtain ⟨hctrl, -, -, hprod, hcons, -⟩ := hr.held_regs
  simp only [Dev.ringReadable, Dev.ringEn, Dev.ringDef, Dev.flag, Dev.fld, Dev.ringProd, Dev.ringCons, h.regs _ hctrl, h.regs _ hprod,
    h.regs _ hcons, h.units.ringClass, h.units.wb, h.units.boot, h.units.sdp]

end Readable

/-! ### What is taken -/

/-- Device `t` is device `f` after FLP has taken the `n` entries of a set under a verdict: the set leaves its ring, and joins the queue or
completes. -/
structure Dev.FrontTaken (f t : Dev) (r n : Nat) (v : Verdict) : Prop where
  cons : t.reg (Reg.RNG_RS_CONS r) = (f.reg (Reg.RNG_RS_CONS r) + n) % 2 ^ 32
  full : t.flp.full = none
  refused : v.set = none → t.flp.queue = f.flp.queue ∧ t.reg (Reg.RNG_RS_DONE_CNT r) = (f.reg (Reg.RNG_RS_DONE_CNT r) + 1) % 2 ^ 32 ∧
    (v.status = stMalformed → t.reg Reg.FLP_MALFORMED_CNT = min (f.reg Reg.FLP_MALFORMED_CNT + 1) 0xFFFFFFFF)
  accepted : ∀ q, v.set = some q → t.flp.queue = (f.giveSpace v.more v.gains).flp.queue ++ [{ q with ack := none }] ∧
    t.flp.nextId = f.flp.nextId + 1 ∧ t.reg (Reg.RNG_RS_DONE_CNT r) = f.reg (Reg.RNG_RS_DONE_CNT r)

/-- A ring is as readable whatever FLP holds. -/
theorem Dev.ringReadable_flp (d : Dev) (x : Flp) (r : Nat) : ({ d with flp := x } : Dev).ringReadable r = d.ringReadable r := rfl

/-- An accepted set changes the flip unit alone until it leaves its ring. -/
theorem Dev.acceptSet_stk (d : Dev) (x : SetRead) (q : QSet) (ws : List FusedWindow) (more : List (Nat × SettledCopies))
    (gains : List (Nat × List Nat)) : (((d.emptied.acceptSet ws more gains).readOff x).putSet q).stk = d.stk := by
  unfold Dev.putSet Dev.readOff Dev.acceptSet Dev.giveSpace Dev.emptied
  dsimp only

section Taken
variable {d : Dev} {r : Nat}

/-- A set that counts as read under its verdict. -/
theorem Dev.commitRead_taken (hr : d.CommandRing r) (hread : d.ringReadable r = true) (h : SetHead) (v : Verdict) :
    Dev.FrontTaken d ((d.emptied.accepting v).commitRead (frontRead r h v)) r (h.count + 1) v ∧
      ((d.emptied.accepting v).commitRead (frontRead r h v)).stk = d.stk := by
  cases hset : v.set with
  | none =>
    have hidle : d.emptied.accepting v = d.emptied := by
      rw [Dev.accepting, hset]
      rfl
    obtain ⟨hunits, hcons, hdone, hmalformed⟩ := Dev.commitRead_refused (d := d.emptied) (x := frontRead r h v) hr hread
      (by simp only [frontRead, hset, Option.map_none]) rfl
    rw [hidle]
    generalize d.emptied.commitRead (frontRead r h v) = t at hunits hcons hdone hmalformed ⊢
    refine ⟨⟨hcons, ?_, fun _ => ⟨?_, hdone, hmalformed⟩, fun q hq => ?_⟩, hunits.stk⟩
    · rw [hunits.flp]
      rfl
    · rw [hunits.flp]
      rfl
    · rw [hset] at hq
      cases hq
  | some q =>
    have hidle : d.emptied.accepting v = d.emptied.acceptSet v.windows v.more v.gains := by
      rw [Dev.accepting, hset]
      rfl
    obtain ⟨hunits, hcons, hdone⟩ := Dev.commitRead_accepted (d := d.emptied.acceptSet v.windows v.more v.gains) (x := frontRead r h v)
      hr ((Dev.ringReadable_flp d (d.emptied.acceptSet v.windows v.more v.gains).flp r).trans hread) (q := { q with ack := none })
      (by simp only [frontRead, hset, Option.map_some])
    rw [hidle]
    generalize (d.emptied.acceptSet v.windows v.more v.gains).commitRead (frontRead r h v) = t at hunits hcons hdone ⊢
    refine ⟨⟨hcons, ?_, fun hnone => ?_, fun q' hq => ?_⟩, hunits.stk.trans (d.acceptSet_stk _ _ _ _ _)⟩
    · rw [hunits.flp]
      rfl
    · rw [hset] at hnone
      cases hnone
    · rw [hset] at hq
      cases hq
      rw [hunits.flp]
      exact ⟨rfl, rfl, hdone⟩

/-- FLP takes the set at the front of a ring that it reads, while timing runs. -/
theorem Dev.takeFront_taken (hr : d.CommandRing r) (hread : d.ringReadable r = true) (hop : opOf (d.ringEntry r (d.ringCons r)) = 1)
    (hwhole : (setHead (d.ringEntry r (d.ringCons r))).count + 1 ≤ d.unreadIn r)
    (hroom : d.queueRoom (setHead (d.ringEntry r (d.ringCons r))).count = true) (hpair : d.primaryPaired = false)
    (hpower : d.sdp.power ≠ 1) (htiming : d.stk.timing ≠ 0) :
    Dev.FrontTaken d (d.takeFront r) r ((setHead (d.ringEntry r (d.ringCons r))).count + 1) (d.emptied.frontVerdict r) := by
  obtain ⟨htaken, hstk⟩ := Dev.commitRead_taken hr hread (setHead (d.ringEntry r (d.ringCons r))) (d.emptied.frontVerdict r)
  rw [Dev.takeFront_takes hop hwhole hroom hpair hpower, Dev.flpEdge_running (by rwa [hstk])]
  exact htaken

end Taken
end Sys2Proof.Machine

/-! SUPPORT. The commands by which FLP reads flip sets (R178, R180, R181, R279, Table 8.3). -/

namespace Sys2Proof.Machine

/-! ### What the commands run -/

theorem Dev.quiet_queueRoom (d : Dev) (n : Nat) : d.quiet.queueRoom n = d.queueRoom n := by
  rw [Dev.queueRoom, Dev.queueRoom, Dev.quiet_flp]

theorem Dev.quiet_unreadIn (d : Dev) (r : Nat) : d.quiet.unreadIn r = d.unreadIn r := by
  unfold Dev.unreadIn Dev.ringProd Dev.ringCons
  rw [Dev.reg_congr d.quiet_regs, Dev.reg_congr d.quiet_regs]

theorem Dev.quiet_frontHead (d : Dev) (r : Nat) : d.quiet.ringEntry r (d.quiet.ringCons r) = d.ringEntry r (d.ringCons r) := rfl

section Runs
variable {s : State} {r : Fin 16384}

/-- A ring that FLP does not read, or any ring while FLP is full (R181). -/
theorem Dev.flp_idle {d : Dev} {r : Nat} (h : d.submitReadable r = false ∨ d.flp.full ≠ none) :
    (!d.submitReadable r || d.flp.full.isSome) = true := by
  rw [Bool.or_eq_true, Bool.not_eq_true']
  exact h.imp_right Option.isSome_iff_ne_none.mpr

theorem exec_flipset_idle (ecc : ShadowEcc) (h : s.dev.submitReadable r = false ∨ s.dev.flp.full ≠ none) :
    exec (.flipset r ecc) s = .next (s.done s.dev.quiet) := by
  show s.apply (fun d => d.flipset r ecc) = _
  rw [State.apply_eq, Dev.flipset, if_pos (Dev.flp_idle (d := s.dev.quiet) h)]

theorem exec_fenceWait_idle (h : s.dev.submitReadable r = false ∨ s.dev.flp.full ≠ none) :
    exec (.fenceWait r) s = .next (s.done s.dev.quiet) := by
  show s.apply (fun d => d.fenceWait r) = _
  rw [State.apply_eq, Dev.fenceWait, if_pos (Dev.flp_idle (d := s.dev.quiet) h)]

theorem exec_flipset_reads (hread : s.dev.submitReadable r = true) (hfull : s.dev.flp.full = none) :
    exec (.flipset r .good) s = .next (s.done ((s.dev.fetchSet r).quiet.takeFront r)) := by
  have hreads : ¬ (!s.dev.quiet.submitReadable r || s.dev.quiet.flp.full.isSome) = true := by
    rw [Bool.or_eq_true, Bool.not_eq_true', not_or]
    exact ⟨fun h => absurd (h.symm.trans hread) (by decide), fun h => Option.isSome_iff_ne_none.mp h hfull⟩
  show s.apply (fun d => d.flipset r .good) = _
  rw [State.apply_eq, Dev.flipset, if_neg hreads, Dev.readSet, ← Dev.quiet_fetchSet]
  rfl

theorem exec_submitResume_none (hfull : s.dev.flp.full = none) : exec .submitResume s = .next (s.done s.dev.quiet) := by
  have hnone : s.dev.quiet.flp.full = none := hfull
  show s.apply (fun d => d.submitResume .good) = _
  rw [State.apply_eq, Dev.submitResume, hnone]

theorem exec_submitResume_unreadable (hfull : s.dev.flp.full = some r.val) (hread : s.dev.submitReadable r = false) :
    exec .submitResume s = .next (s.done s.dev.quiet.emptied) := by
  have hsome : s.dev.quiet.flp.full = some r.val := hfull
  have hidle : s.dev.quiet.submitReadable r = false := hread
  show s.apply (fun d => d.submitResume .good) = _
  rw [State.apply_eq, Dev.submitResume, hsome]
  dsimp only
  rw [hidle]
  rfl

theorem exec_submitResume_full (hfull : s.dev.flp.full = some r.val) (hread : s.dev.submitReadable r = true)
    (hroom : s.dev.queueRoom (setHead (s.dev.ringEntry r (s.dev.ringCons r))).count = false) :
    exec .submitResume s = .next (s.done s.dev.quiet) := by
  have hsome : s.dev.quiet.flp.full = some r.val := hfull
  have hreads : s.dev.quiet.submitReadable r = true := hread
  show s.apply (fun d => d.submitResume .good) = _
  rw [State.apply_eq, Dev.submitResume, hsome]
  dsimp only
  rw [hreads, Dev.quiet_frontHead, Dev.quiet_queueRoom, hroom]
  simp only [Bool.not_true, Bool.false_eq_true, if_false]

theorem exec_submitResume_reads (hfull : s.dev.flp.full = some r.val) (hread : s.dev.submitReadable r = true)
    (hroom : s.dev.queueRoom (setHead (s.dev.ringEntry r (s.dev.ringCons r))).count = true) :
    exec .submitResume s = .next (s.done ((s.dev.fetchSet r).quiet.takeFront r)) := by
  have hsome : s.dev.quiet.flp.full = some r.val := hfull
  have hreads : s.dev.quiet.submitReadable r = true := hread
  show s.apply (fun d => d.submitResume .good) = _
  rw [State.apply_eq, Dev.submitResume, hsome]
  dsimp only
  rw [hreads, Dev.quiet_frontHead, Dev.quiet_queueRoom, hroom]
  simp only [Bool.not_true, Bool.false_eq_true, if_false, if_true, Dev.readSet, Dev.shadowChecked, Dev.quiet_fetchSet]

end Runs

/-! ### Reading a set -/

section Reads
variable (s : State) (r : Fin 16384)

theorem flipset_fenceWait_idle (ecc : ShadowEcc) (h : s.dev.submitReadable r = false ∨ s.dev.flp.full ≠ none) (c : Instr)
    (hc : c = .flipset r ecc ∨ c = .fenceWait r) : ∃ t, exec c s = .next t ∧ Dev.OnlyRegs s.dev t.dev [] := by
  obtain rfl | rfl := hc
  · exact ⟨_, exec_flipset_idle ecc h, s.done_quiet_onlyRegs⟩
  · exact ⟨_, exec_fenceWait_idle h, s.done_quiet_onlyRegs⟩

/-- Entries whose blocks pass their check are what memory had; their controllers wake (R298). -/
theorem Dev.ringFetch_whole {d : Dev} {r n : Nat} (h : d.ReadsWhole (d.entryBlocks r (d.ringCons r) n)) :
    Dev.OnlyRegs d (d.ringFetch r 0 n) [Reg.MEM_STATUS] :=
  Dev.plainReads_whole fun b hb => h b (List.mem_eraseDups.mp hb)

theorem Dev.fetchSet_whole {d : Dev} {r : Nat} (h : d.ReadsWhole (d.entryBlocks r (d.ringCons r) (d.frontEntries r))) :
    Dev.OnlyRegs d (d.fetchSet r) [Reg.MEM_STATUS] := by
  unfold Dev.fetchSet
  dsimp only
  split
  · exact .refl d _
  · exact Dev.ringFetch_whole h

variable {s r}

/-- A set for which the queue has no room holds its ring with FULL (R181). -/
theorem Dev.quiet_takeFront_full {f : Dev} (hop : opOf (f.ringEntry r (f.ringCons r)) = 1)
    (hwhole : (setHead (f.ringEntry r (f.ringCons r))).count + 1 ≤ f.unreadIn r)
    (hroom : f.queueRoom (setHead (f.ringEntry r (f.ringCons r))).count = false) (hfull : f.flp.full = none) :
    f.quiet.takeFront r = { f.quiet.flpEvent Fld.FLP_EVENT_FULL with flp := { f.flp with full := some r.val } } :=
  Dev.takeFront_full (by rwa [Dev.quiet_frontHead]) (by rwa [Dev.quiet_frontHead, Dev.quiet_unreadIn])
    (by rwa [Dev.quiet_frontHead, Dev.quiet_queueRoom]) hfull

theorem State.done_heldFull (s : State) (f : Dev) :
    let t := s.done { f.quiet.flpEvent Fld.FLP_EVENT_FULL with flp := { f.flp with full := some r.val } }
    t.dev.flp.full = some r.val ∧ t.dev.flag Reg.FLP_EVENT Fld.FLP_EVENT_FULL = true ∧
      Dev.OnlyRegs { f with flp := t.dev.flp } t.dev [Reg.FLP_EVENT] := by
  intro t
  have hflp : t.dev.flp = { f.flp with full := some r.val } := by rw [State.done_dev, Dev.extest_flp, Dev.latchFault_flp]
  refine ⟨by rw [hflp], ?_, ?_⟩
  · rw [Dev.flag, Dev.fld, State.done_reg]
    exact f.setFlag_flag_same _ _ rfl (by decide)
  · rw [hflp]
    have hheld : Dev.OnlyRegs { f with flp := { f.flp with full := some r.val } }.quiet
        ({ f with flp := { f.flp with full := some r.val } }.quiet.flpEvent Fld.FLP_EVENT_FULL) [Reg.FLP_EVENT] :=
      (Dev.OnlyRegs.refl _ _).setReg (List.mem_singleton_self _) _
    exact hheld.of_quiet.done s

end Reads
end Sys2Proof.Machine

/-! SUPPORT. The commands by which FLP takes a flip set leave it judged and queued (R180, R181, Table 8.3). -/

namespace Sys2Proof.Machine

theorem Dev.quiet_frontVerdict (d : Dev) (r : Nat) : d.quiet.frontVerdict r = d.frontVerdict r := by
  unfold Dev.frontVerdict
  rw [Dev.quiet_judgeSet]
  rfl

/-- The end of a command leaves what was taken. -/
theorem Dev.FrontTaken.done {f t : Dev} {r n : Nat} {v : Verdict} (h : Dev.FrontTaken f.quiet t r n v) (s : State) :
    Dev.FrontTaken f (s.done t).dev r n v := by
  have hflp : (s.done t).dev.flp = t.flp := by rw [State.done_dev, Dev.extest_flp, Dev.latchFault_flp]
  obtain ⟨hcons, hfull, hrefused, haccepted⟩ := h
  refine ⟨?_, by rwa [hflp], fun hv => ?_, fun q hq => ?_⟩
  · rw [State.done_reg, hcons, Dev.reg_congr f.quiet_regs]
  · obtain ⟨hqueue, hdone, hmalformed⟩ := hrefused hv
    rw [hflp, State.done_reg, State.done_reg]
    exact ⟨hqueue, hdone, hmalformed⟩
  · obtain ⟨hqueue, hid, hdone⟩ := haccepted q hq
    rw [hflp, State.done_reg]
    exact ⟨hqueue, hid, hdone⟩

section Takes
variable {s : State} {r : Fin 16384} {f : Dev}

/-- The set that FLP has just read is taken under its verdict. -/
theorem State.done_takeFront (hr : f.CommandRing r) (hread : f.ringReadable r = true)
    (hop : opOf (f.ringEntry r (f.ringCons r)) = 1) (hwhole : (setHead (f.ringEntry r (f.ringCons r))).count + 1 ≤ f.unreadIn r)
    (hroom : f.queueRoom (setHead (f.ringEntry r (f.ringCons r))).count = true) (hpair : f.primaryPaired = false)
    (hpower : f.sdp.power ≠ 1) (htiming : f.stk.timing ≠ 0) :
    Dev.FrontTaken f (s.done (f.quiet.takeFront r)).dev r ((setHead (f.ringEntry r (f.ringCons r))).count + 1)
      (f.emptied.frontVerdict r) := by
  have htaken : Dev.FrontTaken f.quiet (f.quiet.takeFront r) r ((setHead (f.ringEntry r (f.ringCons r))).count + 1)
      (f.emptied.quiet.frontVerdict r) := by
    rw [← f.quiet_frontHead] at hop hwhole hroom ⊢
    rw [← f.quiet_unreadIn] at hwhole
    rw [← f.quiet_queueRoom] at hroom
    exact Dev.takeFront_taken hr hread hop hwhole hroom hpair hpower htiming
  rw [Dev.quiet_frontVerdict] at htaken
  exact htaken.done s

variable (hf : s.dev.fetchSet r = f)
include hf

/-- What is read of a ring leaves it a SUBMIT ring that is readable. -/
theorem fetched_ring (hread : s.dev.submitReadable r = true) : f.CommandRing r ∧ f.ringReadable r = true := by
  obtain ⟨hr, hreadable⟩ := Dev.submitReadable_ring r.isLt hread
  have haside := Dev.Aside.fetchSet s.dev r
  rw [hf] at haside
  exact ⟨haside.units.commandRing hr, (haside.ringReadable hr).trans hreadable⟩

theorem fetched_full (hfull : s.dev.flp.full = none) : f.flp.full = none := by
  have haside := Dev.Aside.fetchSet s.dev r
  rw [hf] at haside
  rw [haside.units.flp, hfull]

/-- A flip set for which the queue has no room holds its ring (R181). -/
theorem flipset_full (hread : s.dev.submitReadable r = true) (hfull : s.dev.flp.full = none)
    (hop : opOf (f.ringEntry r (f.ringCons r)) = 1) (hwhole : (setHead (f.ringEntry r (f.ringCons r))).count + 1 ≤ f.unreadIn r)
    (hroom : f.queueRoom (setHead (f.ringEntry r (f.ringCons r))).count = false) :
    ∃ t, exec (.flipset r .good) s = .next t ∧ t.dev.flp.full = some r.val ∧ t.dev.flag Reg.FLP_EVENT Fld.FLP_EVENT_FULL = true ∧
      Dev.OnlyRegs { f with flp := t.dev.flp } t.dev [Reg.FLP_EVENT] := by
  refine ⟨_, exec_flipset_reads hread hfull, ?_⟩
  rw [hf, Dev.quiet_takeFront_full hop hwhole hroom (fetched_full hf hfull)]
  exact s.done_heldFull f

section Room
variable (hop : opOf (f.ringEntry r (f.ringCons r)) = 1) (hwhole : (setHead (f.ringEntry r (f.ringCons r))).count + 1 ≤ f.unreadIn r)
  (hroom : f.queueRoom (setHead (f.ringEntry r (f.ringCons r))).count = true) (hpair : f.primaryPaired = false)
  (hpower : f.sdp.power ≠ 1) (htiming : f.stk.timing ≠ 0)
include hop hwhole hroom hpair hpower htiming

/-- A flip set that FLP reads is judged and queued (Table 8.3). -/
theorem flipset_taken (hread : s.dev.submitReadable r = true) (hfull : s.dev.flp.full = none) :
    let cons := Reg.RNG_RS_CONS r
    let done := Reg.RNG_RS_DONE_CNT r
    let en := f.ringEntry r (f.ringCons r)
    let h := setHead en
    let target := if h.next then f.firstLatch else h.target
    let es := f.entriesFrom r 1 h.count
    ∃ t, exec (.flipset r .good) s = .next t ∧ t.dev.reg cons = (f.reg cons + h.count + 1) % 2 ^ 32 ∧ t.dev.flp.full = none ∧
      (headGood false en = false ∨ f.readMembers es = none ∨ f.tooFar target = true → t.dev.flp.queue = f.flp.queue ∧
        t.dev.reg Reg.FLP_MALFORMED_CNT = min (f.reg Reg.FLP_MALFORMED_CNT + 1) 0xFFFFFFFF ∧
        t.dev.reg done = (f.reg done + 1) % 2 ^ 32) ∧
      (f.sdp.power = 2 → t.dev.flp.queue = f.flp.queue ∧ t.dev.reg done = (f.reg done + 1) % 2 ^ 32) ∧
      (let v := f.judgeSet (.own r (f.ringCons r)) false en es target h.deadline
       ∀ q, v.set = some q →
        t.dev.flp.queue = (f.giveSpace v.more v.gains).flp.queue ++ [{ q with ack := none }] ∧
        (v.more = [] → v.gains = [] → t.dev.flp.queue = f.flp.queue ++ [{ q with ack := none }]) ∧
        q.target = target ∧ q.tag = h.tag ∧ q.id = f.flp.nextId ∧
        t.dev.flp.nextId = f.flp.nextId + 1 ∧ t.dev.reg done = f.reg done) := by
  intro cons done en h target es
  obtain ⟨hr, hreadable⟩ := fetched_ring hf hread
  obtain ⟨hcons, hnone, hrefused, haccepted⟩ := State.done_takeFront (s := s) hr hreadable hop hwhole hroom hpair hpower htiming
  rw [Dev.emptied_eq (fetched_full hf hfull)] at hrefused haccepted
  rw [← Nat.add_assoc] at hcons
  have hexec := exec_flipset_reads hread hfull
  rw [hf] at hexec
  refine ⟨_, hexec, hcons, hnone, fun hbad => ?_, fun hdoze => ?_, fun q hq => ?_⟩
  · obtain ⟨hstatus, hset⟩ := Dev.judgeSet_malformed (d := f) (origin := .own r (f.ringCons r)) (deadline := h.deadline) hbad
    obtain ⟨hqueue, hdone, hmalformed⟩ := hrefused hset
    exact ⟨hqueue, hmalformed hstatus, hdone⟩
  · obtain ⟨hqueue, hdone, -⟩ := hrefused (Dev.judgeSet_doze hdoze)
    exact ⟨hqueue, hdone⟩
  · obtain ⟨hqueue, hid, hdone⟩ := haccepted q hq
    obtain ⟨htarget, htag, hnumber⟩ := Dev.judgeSet_queued hq
    refine ⟨hqueue, fun hmore hgains => ?_, htarget, htag, hnumber, hid, hdone⟩
    have hspace : (f.giveSpace (f.frontVerdict r).more (f.frontVerdict r).gains).flp.queue = f.flp.queue := by
      rw [show (f.frontVerdict r).more = [] from hmore, show (f.frontVerdict r).gains = [] from hgains, Dev.giveSpace_queue_nil]
    rw [hqueue, hspace]

/-- Once the queue has room the set of the ring that was held is taken (R181). -/
theorem submitResume_taken (hfull : s.dev.flp.full = some r.val) (hread : s.dev.submitReadable r = true)
    (hresume : s.dev.queueRoom (setHead (s.dev.ringEntry r (s.dev.ringCons r))).count = true) :
    ∃ t, exec .submitResume s = .next t ∧ t.dev.flp.full = none ∧
      t.dev.reg (Reg.RNG_RS_CONS r) = (f.reg (Reg.RNG_RS_CONS r) + (setHead (f.ringEntry r (f.ringCons r))).count + 1) % 2 ^ 32 := by
  obtain ⟨hr, hreadable⟩ := fetched_ring hf hread
  have htaken := State.done_takeFront (s := s) hr hreadable hop hwhole hroom hpair hpower htiming
  have hexec := exec_submitResume_reads hfull hread hresume
  rw [hf] at hexec
  exact ⟨_, hexec, htaken.full, htaken.cons.trans (by rw [← Nat.add_assoc])⟩

end Room
end Takes

/-- A ring that can no longer be read is no longer held as full (R181). -/
theorem submitResume_unreadable {s : State} {r : Fin 16384} (hfull : s.dev.flp.full = some r.val) (hread : s.dev.submitReadable r = false) :
    ∃ t, exec .submitResume s = .next t ∧ Dev.OnlyRegs { s.dev with flp := { s.dev.flp with full := none } } t.dev [] :=
  ⟨_, exec_submitResume_unreadable hfull hread,
    ((Dev.OnlyRegs.refl s.dev.emptied.quiet []).of_quiet.done s : Dev.OnlyRegs s.dev.emptied _ [])⟩

end Sys2Proof.Machine

/-! SUPPORT. FLP reads a FENCE_WAIT (R178, R179, R298, R382). -/

namespace Sys2Proof.Machine

/-! ### Controllers that are awake -/

section Awake
variable {d : Dev} {r : Nat}

theorem Dev.memPowerUp_awake {c : Nat} (h : bit (d.reg Reg.MEM_STATUS) c = false) : d.memPowerUp c = d := by
  rw [Dev.memPowerUp, h]
  rfl

theorem Dev.memWake_awake {b : Nat} (h : bit (d.reg Reg.MEM_STATUS) (d.stackOf (b * 256)) = false) : d.memWake [b] = d := by
  unfold Dev.memWake
  split
  · rfl
  · exact Dev.memPowerUp_awake h

/-- The ring's next entry lies in host memory, or its controller is awake. -/
def Dev.FrontAwake (d : Dev) (r : Nat) : Prop :=
  d.ringHost r = true ∨ bit (d.reg Reg.MEM_STATUS) (d.stackOf (d.ringAddr r (d.ringCons r) / 256 * 256)) = false

/-- An entry that has been read has woken the controller of its block (R298). -/
theorem Dev.ringFetch_frontAwake (hr : d.CommandRing r) : (d.ringFetch r 0 1).FrontAwake r := by
  have haside := Dev.Aside.ringFetch d r 0 1
  have hplace := haside.samePlace hr
  obtain ⟨-, -, -, -, hcons, -⟩ := hr.held_regs
  have hindex : (d.ringFetch r 0 1).ringCons r = d.ringCons r := haside.regs _ hcons
  rw [Dev.FrontAwake, hplace.ringHost, hplace.ringAddr, hindex, Dev.stackOf_congr haside.units.wb]
  cases hhost : d.ringHost r with
  | true => exact .inl rfl
  | false =>
    have hblocks : (d.entryBlocks r (d.ringCons r + 0) 1).eraseDups = [d.ringAddr r (d.ringCons r) / 256] := by
      rw [Dev.entryBlocks, hhost]
      rfl
    have hwoken := d.memWake_bit (List.mem_singleton_self (d.ringAddr r (d.ringCons r) / 256))
    refine .inr ?_
    rw [Dev.ringFetch, hblocks]
    exact ((Dev.Aside.checkOwn _ _ _ _).trans (.logAll _ _)).awake _ hwoken

/-- A consumer that takes one entry whose controller is awake moves `CONS`, and the ring has one open command more (R381). -/
theorem Dev.ringTake_one (h : d.FrontAwake r) : ∃ rs, d.ringTake r 1 =
    { d.setReg (Reg.RNG_RS_CONS r) ((d.ringCons r + 1) % 2 ^ 32) with rings := rs } := by
  unfold Dev.ringTake
  dsimp only
  cases hhost : d.ringHost r with
  | true => exact ⟨_, rfl⟩
  | false =>
    have hawake : d.memWake ((List.range 1).map fun k => d.ringAddr r (d.ringCons r + k) / 256) = d :=
      Dev.memWake_awake (h.resolve_left (by simp [hhost]))
    rw [if_neg Bool.false_ne_true, hawake]
    exact ⟨_, rfl⟩

/-- A command that is taken leaves every block as sound as it was. -/
theorem Dev.ringTake_blocks (d : Dev) (r n : Nat) : (d.ringTake r n).weak = d.weak ∧ (d.ringTake r n).damaged = d.damaged := by
  unfold Dev.ringTake
  dsimp only
  split
  · exact ⟨rfl, rfl⟩
  · exact ⟨d.memWake_weak _, d.memWake_damaged _⟩

end Awake

/-! ### The command -/

/-- FLP has read the entry at the front of a ring, where it is a FENCE_WAIT. -/
def Dev.waitFetched (d : Dev) (r : Nat) : Dev := if opOf (d.ringEntry r (d.ringCons r)) = 5 then d.ringFetch r 0 1 else d

theorem Dev.quiet_waitFetched (d : Dev) (r : Nat) : d.quiet.waitFetched r = (d.waitFetched r).quiet := by
  unfold Dev.waitFetched
  rw [Dev.quiet_frontHead, Dev.quiet_ringFetch, Dev.quiet_ite]

theorem Dev.Aside.waitFetched (d : Dev) (r : Nat) : Dev.Aside d (d.waitFetched r) := ite (ringFetch d r 0 1) (refl d)

/-- The FENCE_WAIT at the front of a ring, as it waits (R178). -/
def Dev.frontWait (d : Dev) (r : Nat) : FenceWaitSt :=
  let e := d.ringEntry r (d.ringCons r)
  { ring := r, index := d.ringCons r, idx := wordOf e 1, val := wordOf e 2, limit := wordOf e 3 }

/-- A FENCE_WAIT that breaks its form completes MALFORMED (R178). -/
def Dev.waitRefused (d : Dev) (r : Nat) : Dev :=
  d.ringReject r 1 { op := 5, status := stMalformed, tag := 0, stroke := d.stk.stroke % two48 }

theorem Dev.rejectSet_wait (d : Dev) (r : Nat) : d.rejectSet r 1 5 0 stMalformed = d.waitRefused r := rfl

/-- A FENCE_WAIT joins those that wait. -/
def Dev.putWait (d : Dev) (w : FenceWaitSt) : Dev := { d with flp := { d.flp with waits := d.flp.waits ++ [w] } }

section Fetched
variable {d : Dev} {r : Nat}

section
variable (hread : d.submitReadable r = true) (hfull : d.flp.full = none)
include hread hfull

theorem Dev.fenceWait_other (hop : opOf ((d.waitFetched r).ringEntry r ((d.waitFetched r).ringCons r)) ≠ 5) :
    d.fenceWait r = d.waitFetched r := by
  unfold Dev.waitFetched at hop ⊢
  unfold Dev.fenceWait
  simp only [hread, hfull, Bool.not_true, Option.isSome_none, Bool.or_self, Bool.false_eq_true, if_false, beq_iff_eq, bne_iff_ne, ne_eq]
  rw [if_pos hop]

theorem Dev.fenceWait_waits (hop : opOf ((d.waitFetched r).ringEntry r ((d.waitFetched r).ringCons r)) = 5)
    (hgood : waitGood ((d.waitFetched r).ringEntry r ((d.waitFetched r).ringCons r)) = true)
    (hpair : (d.waitFetched r).primaryPaired = false) :
    d.fenceWait r = ((d.waitFetched r).ringTake r 1).putWait ((d.waitFetched r).frontWait r) := by
  unfold Dev.waitFetched at hop hgood hpair ⊢
  unfold Dev.fenceWait
  simp only [hread, hfull, Bool.not_true, Option.isSome_none, Bool.or_self, Bool.false_eq_true, if_false, beq_iff_eq, bne_iff_ne, ne_eq,
    hop, hgood, hpair, not_true_eq_false]
  rfl

section
variable (hop : opOf ((d.waitFetched r).ringEntry r ((d.waitFetched r).ringCons r)) = 5)
  (hbad : waitGood ((d.waitFetched r).ringEntry r ((d.waitFetched r).ringCons r)) = false)
include hop hbad

theorem Dev.fenceWait_malformed (hpair : (d.waitFetched r).primaryPaired = false) : d.fenceWait r = (d.waitFetched r).waitRefused r := by
  unfold Dev.waitFetched at hop hbad hpair ⊢
  unfold Dev.fenceWait
  simp only [hread, hfull, Bool.not_true, Option.isSome_none, Bool.or_self, Bool.false_eq_true, if_false, beq_iff_eq, bne_iff_ne, ne_eq,
    hop, hbad, hpair, Bool.not_false, if_true, not_true_eq_false, Dev.rejectSet_wait]

theorem Dev.fenceWait_malformed_paired (hpair : (d.waitFetched r).primaryPaired = true) :
    let f := d.waitFetched r
    let told := f.twnMirror [.wait r (f.ringCons r) (f.ringEntry r (f.ringCons r))]
    d.fenceWait r = (told.waitRefused r).mirrorCopy ((told.waitRefused r).waitCompletion stMalformed) := by
  unfold Dev.waitFetched at hop hbad hpair ⊢
  unfold Dev.fenceWait
  simp only [hread, hfull, Bool.not_true, Option.isSome_none, Bool.or_self, Bool.false_eq_true, if_false, beq_iff_eq, bne_iff_ne, ne_eq,
    hop, hbad, hpair, Bool.not_false, if_true, not_true_eq_false, Dev.rejectSet_wait]

end
end

/-! ### A malformed FENCE_WAIT -/

/-- Its ring passes it and counts it, and the waits stand. -/
theorem Dev.waitRefused_spec (hr : d.CommandRing r) : Dev.SameUnits d (d.waitRefused r) ∧
    (d.waitRefused r).reg (Reg.RNG_RS_CONS r) = (d.reg (Reg.RNG_RS_CONS r) + 1) % 2 ^ 32 ∧
    (d.waitRefused r).reg (Reg.RNG_RS_DONE_CNT r) = (d.reg (Reg.RNG_RS_DONE_CNT r) + 1) % 2 ^ 32 := by
  obtain ⟨hunits, -, hcursors⟩ := d.ringReject_spec r { op := 5, status := stMalformed, tag := 0, stroke := d.stk.stroke % two48 } 1
  exact ⟨hunits, hcursors hr⟩

/-- Its record says so (Tables 8.3 and 17.2). -/
theorem Dev.waitRefused_entry (hr : d.CommandRing r) (hquiet : d.ringHost r = true ∨ d.weak = [] ∧ (d.damaged = [] ∨ d.Ringless)) :
    wordOf ((d.waitRefused r).ringEntry r (d.ringCons r)) 0 = 0xCE + 5 * 2 ^ 8 + 4 * 2 ^ 16 := by
  obtain ⟨hctrl, -⟩ := hr.held_regs
  obtain ⟨hweak, hdamaged⟩ := d.ringTake_blocks r 1
  have hhost : (d.ringTake r 1).ringHost r = d.ringHost r := by
    simp only [Dev.ringHost, Dev.flag, Dev.fld, d.ringTake_held r 1 hctrl (by simp only [Reg.RNG_RS_CTRL, Reg.RNG_RS_CONS]; omega)]
  have hlog : (d.ringTake r 1).reg Reg.DEP_LOG_RING = d.reg Reg.DEP_LOG_RING :=
    d.ringTake_held r 1 (.inl (by decide)) (by simp only [Reg.DEP_LOG_RING, Reg.RNG_RS_CONS]; omega)
  refine Dev.ringComplete_entry ((d.ringTake_units r 1).commandRing hr) (d.ringCons r) (show stMalformed < 2 ^ 16 by decide) ?_
  rw [hhost, hweak, hdamaged, Dev.Ringless, hlog]
  exact hquiet

/-- What a malformed FENCE_WAIT leaves, of a pair or not. -/
theorem Dev.fenceWait_refused (hr : d.CommandRing r) (hread : d.submitReadable r = true) (hfull : d.flp.full = none)
    (hop : opOf ((d.waitFetched r).ringEntry r ((d.waitFetched r).ringCons r)) = 5)
    (hbad : waitGood ((d.waitFetched r).ringEntry r ((d.waitFetched r).ringCons r)) = false) :
    (d.fenceWait r).flp = (d.waitFetched r).flp ∧
      (d.fenceWait r).reg (Reg.RNG_RS_CONS r) = ((d.waitFetched r).reg (Reg.RNG_RS_CONS r) + 1) % 2 ^ 32 ∧
      (d.fenceWait r).reg (Reg.RNG_RS_DONE_CNT r) = ((d.waitFetched r).reg (Reg.RNG_RS_DONE_CNT r) + 1) % 2 ^ 32 := by
  have hring := (Dev.Aside.waitFetched d r).units.commandRing hr
  cases hpair : (d.waitFetched r).primaryPaired with
  | true =>
    rw [Dev.fenceWait_malformed_paired hread hfull hop hbad hpair]
    generalize d.waitFetched r = f at hring ⊢
    generalize [MirrorItem.wait r (f.ringCons r) (f.ringEntry r (f.ringCons r))] = items
    generalize ((f.twnMirror items).waitRefused r).waitCompletion stMalformed = c
    have htold := Dev.Aside.twnMirror f items
    obtain ⟨hunits, hcons, hdone⟩ := Dev.waitRefused_spec (htold.units.commandRing hring)
    have hcopy := Dev.Aside.mirrorCopy ((f.twnMirror items).waitRefused r) c
    obtain ⟨-, -, -, -, hconsHeld, hdoneHeld⟩ := hring.held_regs
    have hall := htold.units.trans hunits
    refine ⟨(hall.trans hcopy.units).flp, ?_, ?_⟩
    · rw [hcopy.regs _ (hall.flipHeld hconsHeld), hcons, htold.regs _ hconsHeld]
    · rw [hcopy.regs _ (hall.flipHeld hdoneHeld), hdone, htold.regs _ hdoneHeld]
  | false =>
    rw [Dev.fenceWait_malformed hread hfull hop hbad hpair]
    obtain ⟨hunits, hcons, hdone⟩ := Dev.waitRefused_spec hring
    exact ⟨hunits.flp, hcons, hdone⟩

end Fetched

/-! ### The clauses -/

theorem State.done_ringEntry (s : State) (d : Dev) (r i : Nat) : (s.done d).dev.ringEntry r i = d.ringEntry r i := by
  rw [State.done_dev, Dev.extest_eq]
  rfl

theorem exec_fenceWait (s : State) (r : Fin 16384) : exec (.fenceWait r) s = .next (s.done (s.dev.quiet.fenceWait r)) := rfl

/-- A FENCE_WAIT that waits moves `CONS` and joins those that wait, and its ring has one open command more. -/
theorem State.done_putWait (s : State) (f : Dev) (a v : Nat) (rs : Tab RingSt) (w : FenceWaitSt) :
    let t := s.done ({ f.quiet.setReg a v with rings := rs }.putWait w)
    t.dev.flp.waits = f.flp.waits ++ [w] ∧ t.dev.reg a = v % 2 ^ 32 ∧
      Dev.OnlyRegs { f with flp := t.dev.flp, rings := t.dev.rings } t.dev [a] := by
  intro t
  have hflp : t.dev.flp = { f.flp with waits := f.flp.waits ++ [w] } := by
    rw [State.done_dev, Dev.extest_flp, Dev.latchFault_flp]
    rfl
  have hrings : t.dev.rings = rs := by
    rw [State.done_dev, Dev.extest_rings, Dev.latchFault_rings]
    rfl
  refine ⟨by rw [hflp], ?_, ?_⟩
  · rw [State.done_reg]
    exact (f.setReg_reg a v a).trans (if_pos rfl)
  · rw [hflp, hrings]
    have hheld : Dev.OnlyRegs { f with flp := { f.flp with waits := f.flp.waits ++ [w] }, rings := rs }.quiet
        ({ f with flp := { f.flp with waits := f.flp.waits ++ [w] }, rings := rs }.quiet.setReg a v) [a] :=
      (Dev.OnlyRegs.refl _ _).setReg (List.mem_singleton_self _) _
    exact hheld.of_quiet.done s

section Clauses
variable {s : State} {r : Fin 16384} {f : Dev} (hread : s.dev.submitReadable r = true) (hfull : s.dev.flp.full = none)
  (hf : s.dev.waitFetched r = f)
include hread hfull hf

theorem fenceWait_other (hop : opOf (f.ringEntry r (f.ringCons r)) ≠ 5) :
    ∃ t, exec (.fenceWait r) s = .next t ∧ Dev.OnlyRegs f t.dev [] := by
  have hfetched : s.dev.quiet.waitFetched r = f.quiet := by rw [Dev.quiet_waitFetched, hf]
  have hrun := Dev.fenceWait_other (d := s.dev.quiet) (r := r) hread hfull (by rwa [hfetched, Dev.quiet_frontHead])
  refine ⟨_, exec_fenceWait s r, ?_⟩
  rw [hrun, hfetched]
  exact (Dev.OnlyRegs.refl _ _).of_quiet.done s

/-- A FENCE_WAIT that is well formed waits (R178). -/
theorem fenceWait_waits (hop : opOf (f.ringEntry r (f.ringCons r)) = 5) (hgood : waitGood (f.ringEntry r (f.ringCons r)) = true)
    (hpair : f.primaryPaired = false) : ∃ t, exec (.fenceWait r) s = .next t ∧ t.dev.flp.waits = f.flp.waits ++ [f.frontWait r] ∧
      t.dev.reg (Reg.RNG_RS_CONS r) = (f.reg (Reg.RNG_RS_CONS r) + 1) % 2 ^ 32 ∧
      Dev.OnlyRegs { f with flp := t.dev.flp, rings := t.dev.rings } t.dev [Reg.RNG_RS_CONS r] := by
  have hfetched : s.dev.quiet.waitFetched r = f.quiet := by rw [Dev.quiet_waitFetched, hf]
  have hawake : f.quiet.FrontAwake r := by
    have hring := (Dev.submitReadable_ring (d := s.dev.quiet) r.isLt hread).1
    have hfront : opOf (s.dev.quiet.ringEntry r (s.dev.quiet.ringCons r)) = 5 := by
      by_contra hne
      rw [Dev.waitFetched, if_neg hne] at hfetched
      rw [hfetched] at hne
      exact hne hop
    rw [← hfetched, Dev.waitFetched, if_pos hfront]
    exact Dev.ringFetch_frontAwake hring
  obtain ⟨rs, htake⟩ := Dev.ringTake_one hawake
  have hrun := Dev.fenceWait_waits (d := s.dev.quiet) (r := r) hread hfull (by rwa [hfetched, Dev.quiet_frontHead])
    (by rwa [hfetched, Dev.quiet_frontHead]) (by rwa [hfetched])
  rw [hfetched, htake, show f.quiet.frontWait r = f.frontWait r from rfl, show f.quiet.ringCons r = f.ringCons r from rfl] at hrun
  obtain ⟨hwaits, hcons, honly⟩ := s.done_putWait f (Reg.RNG_RS_CONS r) ((f.ringCons r + 1) % 2 ^ 32) rs (f.frontWait r)
  rw [Nat.mod_mod] at hcons
  refine ⟨_, (exec_fenceWait s r).trans (by rw [hrun]), hwaits, hcons, honly⟩

/-- A malformed one completes so (R178, Table 8.3). -/
theorem fenceWait_malformed (hop : opOf (f.ringEntry r (f.ringCons r)) = 5) (hbad : waitGood (f.ringEntry r (f.ringCons r)) = false) :
    ∃ t, exec (.fenceWait r) s = .next t ∧ t.dev.flp.waits = f.flp.waits ∧
      (f.ringHost r = true ∨ f.weak = [] ∧ (f.damaged = [] ∨ f.Ringless) → f.paired = false →
        wordOf (t.dev.ringEntry r (f.ringCons r)) 0 = 0xCE + 5 * 2 ^ 8 + 4 * 2 ^ 16) ∧
      t.dev.reg (Reg.RNG_RS_CONS r) = (f.reg (Reg.RNG_RS_CONS r) + 1) % 2 ^ 32 ∧
      t.dev.reg (Reg.RNG_RS_DONE_CNT r) = (f.reg (Reg.RNG_RS_DONE_CNT r) + 1) % 2 ^ 32 := by
  have hfetched : s.dev.quiet.waitFetched r = f.quiet := by rw [Dev.quiet_waitFetched, hf]
  have hring := (Dev.submitReadable_ring (d := s.dev.quiet) r.isLt hread).1
  have hfring := (Dev.Aside.waitFetched s.dev.quiet r).units.commandRing hring
  have hop' : opOf ((s.dev.quiet.waitFetched r).ringEntry r ((s.dev.quiet.waitFetched r).ringCons r)) = 5 := by
    rwa [hfetched, Dev.quiet_frontHead]
  have hbad' : waitGood ((s.dev.quiet.waitFetched r).ringEntry r ((s.dev.quiet.waitFetched r).ringCons r)) = false := by
    rwa [hfetched, Dev.quiet_frontHead]
  obtain ⟨hflp, hcons, hdone⟩ := Dev.fenceWait_refused hring hread hfull hop' hbad'
  rw [hfetched] at hflp hcons hdone hfring
  refine ⟨_, exec_fenceWait s r, ?_, fun hquiet halone => ?_, ?_, ?_⟩
  · rw [State.done_dev, Dev.extest_flp, Dev.latchFault_flp, hflp, Dev.quiet_flp]
  · have hprimary : f.quiet.primaryPaired = false := by
      show (f.paired && !f.secondary) = false
      rw [halone, Bool.false_and]
    rw [State.done_ringEntry, Dev.fenceWait_malformed (d := s.dev.quiet) hread hfull hop' hbad' (by rwa [hfetched]), hfetched]
    exact Dev.waitRefused_entry hfring hquiet
  · rw [State.done_reg, hcons, Dev.reg_congr f.quiet_regs]
  · rw [State.done_reg, hdone, Dev.reg_congr f.quiet_regs]

end Clauses
end Sys2Proof.Machine

/-! SUPPORT. A displaced buffer that has become free leaves, and writes its release fence (R174, R186, R340). -/

namespace Sys2Proof.Machine

section Release
variable {d : Dev}

/-- A write of a fence leaves the displaced buffers and timing. -/
theorem Dev.fenceWrite_rest (d : Dev) (f v : Nat) :
    (d.fenceWrite f v).flp.displaced = d.flp.displaced ∧ (d.fenceWrite f v).stk = d.stk := by
  unfold Dev.fenceWrite
  split
  · have haside := Dev.Aside.raiseIf (d.setReg (Reg.FLP_FENCE f) v).waitsMet (bit (d.reg (Reg.FLP_FENCE_NOTIFY (f / 32))) (f % 32))
      (0x4110 + f / 64)
    exact ⟨(congrArg Flp.displaced haside.units.flp).trans rfl, haside.units.stk⟩
  · exact ⟨rfl, rfl⟩

/-- A value that advances a fence is what it then holds (R174). -/
theorem Dev.fenceWrite_fence {f v : Nat} (hf : f < 1024) (h : d.advances f v = true) :
    (d.fenceWrite f v).reg (Reg.FLP_FENCE f) = v % 2 ^ 32 := by
  have haside := Dev.Aside.raiseIf (d.setReg (Reg.FLP_FENCE f) v).waitsMet (bit (d.reg (Reg.FLP_FENCE_NOTIFY (f / 32))) (f % 32))
    (0x4110 + f / 64)
  rw [Dev.fenceWrite, if_pos h, haside.regs _ (Dev.flipHeld_fence _ hf)]
  exact (d.setReg_reg (Reg.FLP_FENCE f) v _).trans (if_pos rfl)

/-- So does the release of a displaced buffer, whose source it raises. -/
theorem Dev.releaseFence_rest (d : Dev) (x : Displaced) :
    (d.releaseFence x).flp.displaced = d.flp.displaced ∧ (d.releaseFence x).stk = d.stk := by
  obtain ⟨hdisplaced, hstk⟩ := d.fenceWrite_rest x.relIdx x.relVal
  have haside := Dev.Aside.raise (d.fenceWrite x.relIdx x.relVal) 0x4103
  unfold Dev.releaseFence
  split
  · exact ⟨(congrArg Flp.displaced haside.units.flp).trans hdisplaced, haside.units.stk.trans hstk⟩
  · exact ⟨rfl, rfl⟩

theorem Dev.releaseFence_fence {x : Displaced} (hen : x.relEn = true) (hidx : x.relIdx < 1024) (h : d.advances x.relIdx x.relVal = true) :
    (d.releaseFence x).reg (Reg.FLP_FENCE x.relIdx) = x.relVal % 2 ^ 32 := by
  rw [Dev.releaseFence, if_pos hen, (Dev.Aside.raise _ _).regs _ (Dev.flipHeld_fence _ hidx), Dev.fenceWrite_fence hidx h]

/-- What a lodger says of its released groups touches no fence and no other buffer (R340). -/
theorem Dev.trkReleased_aside (d : Dev) : ∃ go, Dev.Aside { d with flp := { d.flp with unreleased := go } } d.trkReleased :=
  ⟨_, Dev.Aside.foldl (fun x s => Dev.Aside.trkUp x 0x27 (leBytes 4 s)) _ _⟩

theorem Dev.bufferRelease_none (h : d.flp.displaced.find? d.bufferFree = none) : d.bufferRelease = d := by
  rw [Dev.bufferRelease, h]

/-- The oldest free buffer leaves, and its release fence has its value. -/
theorem Dev.bufferRelease_some {x : Displaced} (h : d.flp.displaced.find? d.bufferFree = some x) :
    d.bufferRelease.flp.displaced = d.flp.displaced.erase x ∧ d.bufferRelease.stk = d.stk ∧
      (x.relEn = true → x.relIdx < 1024 → d.advances x.relIdx x.relVal = true →
        d.bufferRelease.reg (Reg.FLP_FENCE x.relIdx) = x.relVal % 2 ^ 32) := by
  let y : Dev := { d with flp := { d.flp with displaced := d.flp.displaced.erase x } }
  have hrelease : d.bufferRelease = (y.releaseFence x).trkReleased := by rw [Dev.bufferRelease, h]
  obtain ⟨hdisplaced, hstk⟩ := y.releaseFence_rest x
  obtain ⟨go, haside⟩ := (y.releaseFence x).trkReleased_aside
  rw [hrelease]
  refine ⟨(congrArg Flp.displaced haside.units.flp).trans hdisplaced, haside.units.stk.trans hstk, fun hen hidx hadvances => ?_⟩
  exact (haside.regs _ (Dev.flipHeld_fence _ hidx)).trans (Dev.releaseFence_fence (d := y) hen hidx hadvances)

end Release

section Clauses
variable {s : State} (htiming : s.dev.stk.timing ≠ 0)
include htiming

theorem bufferRelease_some {x : Displaced} (h : s.dev.flp.displaced.find? s.dev.bufferFree = some x) :
    ∃ t, exec .bufferRelease s = .next t ∧ t.dev.flp.displaced = s.dev.flp.displaced.erase x ∧
      (x.relEn = true → x.relIdx < 1024 → s.dev.advances x.relIdx x.relVal = true →
        t.dev.reg (Reg.FLP_FENCE x.relIdx) = x.relVal % 2 ^ 32) := by
  obtain ⟨hdisplaced, hstk, hfence⟩ := Dev.bufferRelease_some (d := s.dev.quiet) h
  have hedge : s.dev.quiet.bufferRelease.flpEdge = s.dev.quiet.bufferRelease := Dev.flpEdge_running (by rwa [hstk])
  refine ⟨s.done s.dev.quiet.bufferRelease.flpEdge, rfl, ?_, fun hen hidx hadvances => ?_⟩
  · rw [hedge, State.done_dev, Dev.extest_flp, Dev.latchFault_flp, hdisplaced, Dev.quiet_flp]
  · rw [hedge, State.done_reg, hfence hen hidx hadvances]

theorem bufferRelease_none (h : s.dev.flp.displaced.find? s.dev.bufferFree = none) :
    ∃ t, exec .bufferRelease s = .next t ∧ Dev.OnlyRegs s.dev t.dev [] := by
  have hedge : s.dev.quiet.bufferRelease.flpEdge = s.dev.quiet := by
    rw [Dev.bufferRelease_none (d := s.dev.quiet) h]
    exact Dev.flpEdge_running htiming
  refine ⟨s.done s.dev.quiet.bufferRelease.flpEdge, rfl, ?_⟩
  rw [hedge]
  exact s.done_quiet_onlyRegs

end Clauses

/-- Settles O49, clause by clause: what each command of FLP runs is read off its definition, and what the checks of blocks, the logs and the
links add leaves the flip unit, the fences and the cursors of the command rings. -/
theorem flipSetsAreReadJudgedAndQueued : Obligations.FlipSetsAreReadJudgedAndQueued := by
  unfold Obligations.FlipSetsAreReadJudgedAndQueued
  intro s e
  refine ⟨fun r ecc => flipset_fenceWait_idle s r ecc, fun r => ⟨Dev.fetchSet_whole, Dev.ringFetch_whole⟩, fun r hread hfull => ?_,
    fun r hread hfull => ?_, fun hfull => ?_, fun r => submitResume_unreadable, fun r hfull hread => ?_, fun htiming => ?_⟩
  · exact ⟨flipset_full rfl hread hfull, fun hop hwhole hroom hpair hpower htiming =>
      flipset_taken rfl hop hwhole hroom hpair hpower htiming hread hfull⟩
  · refine ⟨fun hop hgood hpair => ?_, fenceWait_malformed hread hfull rfl, fenceWait_other hread hfull rfl⟩
    obtain ⟨t, hexec, hwaits, hcons, honly⟩ := fenceWait_waits hread hfull rfl hop hgood hpair
    exact ⟨t, _, hexec, hwaits, rfl, rfl, rfl, rfl, rfl, rfl, hcons, honly⟩
  · exact ⟨_, exec_submitResume_none hfull, s.done_quiet_onlyRegs⟩
  · exact ⟨fun hroom => ⟨_, exec_submitResume_full hfull hread hroom, s.done_quiet_onlyRegs⟩,
      fun hroom hop hwhole hfits hpair hpower htiming =>
        submitResume_taken rfl hop hwhole hfits hpair hpower htiming hfull hread hroom⟩
  · exact ⟨fun x => bufferRelease_some htiming, bufferRelease_none htiming⟩

end Sys2Proof.Machine

/-! SUPPORT. A Coach port's state and registers: what entering a state, a tear and a retraining leave of them (R217, R422, Table 9.10). -/

namespace Sys2Proof.Machine

/-! ### Registers of a port's page -/

/-- Two registers of one page differ where their places in it do. -/
theorem pageReg_ne {a b : Nat} (h : a ≠ b) (n : Nat) : a + n ≠ b + n := by omega

/-- No register below the port pages is one of them. -/
theorem pageReg_ne_low {a b : Nat} (h : b < a) (n : Nat) : a + n ≠ b := by omega

/-! ### The state of a port -/

@[simp] theorem Dev.setCoach_coach_same (d : Dev) (p : Nat) (c : Coach) : (d.setCoach p c).coach p = c := Tab.get_set_same _ _ _

theorem Dev.coach_congr {d e : Dev} (h : d.coaches = e.coaches) (p : Nat) : d.coach p = e.coach p := by rw [Dev.coach, h, Dev.coach]

theorem State.done_coach (s : State) (d : Dev) (p : Nat) : (s.done d).dev.coach p = d.coach p := Dev.coach_congr (by simp) p

theorem Dev.raise_coach (d : Dev) (n p : Nat) : (d.raise n).coach p = d.coach p := Dev.coach_congr (d.raise_coaches n) p

theorem Dev.genericWrite_coach (d : Dev) (a v p : Nat) : (d.genericWrite a v).coach p = d.coach p :=
  Dev.coach_congr (d.genericWrite_coaches a v) p

theorem Dev.driveLane_coaches (d : Dev) (p state : Nat) (was : LaneDrive) : (d.driveLane p state was).coaches = d.coaches := by
  unfold Dev.driveLane
  split <;> rfl

/-- What a transmitter begins to drive may empty its lane, and leaves the port otherwise. -/
theorem Dev.coachLane_coach (d : Dev) (p : Nat) (was : LaneDrive) : ∃ l, (d.coachLane p was).coach p = { d.coach p with lane := l } := by
  unfold Dev.coachLane
  split
  · exact ⟨_, rfl⟩
  · dsimp only
    rw [Dev.coach_congr (Dev.driveLane_coaches _ _ _ _)]
    split
    · exact ⟨_, Dev.setCoach_coach_same _ _ _⟩
    · exact ⟨_, rfl⟩

/-! ### Entering a state (Table 9.10) -/

/-- The registers that show a state as it is entered. -/
def Dev.stateShown (d : Dev) (p x : Nat) : Dev :=
  let d := d.setFld (Reg.CPT_STATUS p) Fld.CPT_STATUS_STATE x
  if x == 2 then d else d.setReg (Reg.CPT_SLACK p) slackIdle

/-- The port as it stands in a state that it enters. -/
def Dev.coachEntered (d : Dev) (p x : Nat) : Coach :=
  let c := d.coach p
  let d := d.stateShown p x
  match x with
  | 2 => { c with state := 2, holdDue := false, withdrawn := if d.stk.timing == 2 then c.withdrawn else [], configs := d.configsOfRun p }
  | 3 => { c with state := 3, holdDue := true, marker := none }
  | _ => { target := c.target, pending := c.pending, configs := c.configs, tx := if x == 1 then d.reg (Reg.CPT_TX p) else c.tx, state := x }

theorem Dev.coachTo_eq (d : Dev) (p x : Nat) : d.coachTo p x =
    ((((if x == 3 then (d.stateShown p x).count (Reg.CPT_HOLD_CNT p) else d.stateShown p x).setCoach p (d.coachEntered p x)).setFlag
      (Reg.CPT_EVENT p) Fld.CPT_EVENT_LINK).coachSource p 1).coachLane p (d.coachDrive p) := rfl

theorem Dev.coachEntered_state (d : Dev) (p x : Nat) : (d.coachEntered p x).state = x := by
  unfold Dev.coachEntered
  dsimp only
  split <;> rfl

theorem Dev.coachTo_coach (d : Dev) (p x : Nat) : ∃ l, (d.coachTo p x).coach p = { d.coachEntered p x with lane := l } := by
  obtain ⟨l, hl⟩ := Dev.coachLane_coach ((((if x == 3 then (d.stateShown p x).count (Reg.CPT_HOLD_CNT p) else d.stateShown p x).setCoach p
    (d.coachEntered p x)).setFlag (Reg.CPT_EVENT p) Fld.CPT_EVENT_LINK).coachSource p 1) p (d.coachDrive p)
  have hset (y : Dev) : ((y.setCoach p (d.coachEntered p x)).setFlag (Reg.CPT_EVENT p) Fld.CPT_EVENT_LINK).coach p = d.coachEntered p x :=
    y.setCoach_coach_same p _
  rw [Dev.coachSource, Dev.raise_coach, hset] at hl
  exact ⟨l, hl⟩

theorem Dev.coachTo_state (d : Dev) (p x : Nat) : ((d.coachTo p x).coach p).state = x := by
  obtain ⟨l, hl⟩ := d.coachTo_coach p x
  rw [hl]
  exact d.coachEntered_state p x

theorem Dev.coachTo_holdDue (d : Dev) (p : Nat) : ((d.coachTo p 3).coach p).holdDue = true := by
  obtain ⟨l, hl⟩ := d.coachTo_coach p 3
  rw [hl]
  rfl

/-- The registers that entering a state can touch. -/
def coachToRegs (p : Nat) : List Nat :=
  [Reg.CPT_STATUS p, Reg.CPT_SLACK p, Reg.CPT_HOLD_CNT p, Reg.CPT_EVENT p, Reg.BEL_UNROUTED_CNT]

theorem Dev.stateShown_reg_other (d : Dev) (p x : Nat) {k : Nat} (hstatus : k ≠ Reg.CPT_STATUS p) (hslack : k ≠ Reg.CPT_SLACK p) :
    (d.stateShown p x).reg k = d.reg k := by
  unfold Dev.stateShown
  dsimp only
  split
  · exact Dev.setFld_reg_other _ _ _ hstatus
  · rw [Dev.setReg_reg_other _ _ hslack, Dev.setFld_reg_other _ _ _ hstatus]

theorem Dev.coachTo_reg (d : Dev) (p x : Nat) {k : Nat} (hevent : k ≠ Reg.CPT_EVENT p) (hbell : k ≠ Reg.BEL_UNROUTED_CNT) :
    (d.coachTo p x).reg k = (if x == 3 then (d.stateShown p x).count (Reg.CPT_HOLD_CNT p) else d.stateShown p x).reg k := by
  rw [Dev.coachTo_eq, Dev.coachLane_reg, Dev.coachSource, Dev.raise_reg_other _ _ hbell, Dev.setFlag_reg_other _ _ hevent, Dev.setCoach_reg]

theorem Dev.coachTo_reg_other (d : Dev) (p x : Nat) {k : Nat} (hk : k ∉ coachToRegs p) : (d.coachTo p x).reg k = d.reg k := by
  simp only [coachToRegs, List.mem_cons, List.not_mem_nil, or_false, not_or] at hk
  obtain ⟨hstatus, hslack, hhold, hevent, hbell⟩ := hk
  rw [Dev.coachTo_reg d p x hevent hbell]
  split
  · rw [Dev.count_reg_other _ hhold, Dev.stateShown_reg_other d p x hstatus hslack]
  · exact Dev.stateShown_reg_other d p x hstatus hslack

theorem Dev.stateShown_status (d : Dev) (p : Nat) {x : Nat} (hx : x < 8) :
    (d.stateShown p x).fld (Reg.CPT_STATUS p) Fld.CPT_STATUS_STATE = x := by
  have hset := d.setFld_fld_same (Reg.CPT_STATUS p) Fld.CPT_STATUS_STATE x (by decide) (by decide)
  have hput : (d.setFld (Reg.CPT_STATUS p) Fld.CPT_STATUS_STATE x).fld (Reg.CPT_STATUS p) Fld.CPT_STATUS_STATE = x :=
    hset.trans (Nat.mod_eq_of_lt hx)
  unfold Dev.stateShown
  dsimp only
  split
  · exact hput
  · exact (Dev.fld_congr (Dev.setReg_reg_other _ _ (pageReg_ne (by decide) _)) _).trans hput

theorem Dev.coachTo_status (d : Dev) (p : Nat) {x : Nat} (hx : x < 8) : (d.coachTo p x).fld (Reg.CPT_STATUS p) Fld.CPT_STATUS_STATE = x := by
  refine (Dev.fld_congr ?_ _).trans (d.stateShown_status p hx)
  rw [Dev.coachTo_reg d p x (k := Reg.CPT_STATUS p) (pageReg_ne (by decide) _) (pageReg_ne_low (by decide) _)]
  split
  · exact Dev.count_reg_other _ (pageReg_ne (by decide) _)
  · rfl

theorem Dev.coachTo_link (d : Dev) (p x : Nat) : (d.coachTo p x).flag (Reg.CPT_EVENT p) Fld.CPT_EVENT_LINK = true := by
  have hbell : Reg.CPT_EVENT p ≠ Reg.BEL_UNROUTED_CNT := pageReg_ne_low (by decide) _
  refine Eq.trans (Dev.flag_congr ?_ _) (Dev.setFlag_flag_same
    ((if x == 3 then (d.stateShown p x).count (Reg.CPT_HOLD_CNT p) else d.stateShown p x).setCoach p (d.coachEntered p x)) _ _ rfl (by decide))
  rw [Dev.coachTo_eq, Dev.coachLane_reg, Dev.coachSource, Dev.raise_reg_other _ _ hbell]

theorem Dev.coachTo_holds (d : Dev) (p : Nat) : (d.coachTo p 3).reg (Reg.CPT_HOLD_CNT p) = min (d.reg (Reg.CPT_HOLD_CNT p) + 1) 0xFFFFFFFF := by
  have hcount : ((d.stateShown p 3).count (Reg.CPT_HOLD_CNT p)).reg (Reg.CPT_HOLD_CNT p) = min (d.reg (Reg.CPT_HOLD_CNT p) + 1) 0xFFFFFFFF := by
    rw [Dev.count_reg, if_pos rfl, Dev.stateShown_reg_other d p 3 (k := Reg.CPT_HOLD_CNT p) (pageReg_ne (by decide) _) (pageReg_ne (by decide) _)]
  exact (Dev.coachTo_reg d p 3 (pageReg_ne (by decide) _) (pageReg_ne_low (by decide) _)).trans hcount

/-! ### A tear (R422, Table 18.4) -/

theorem Dev.coachTorn_coach (d : Dev) (p : Nat) : (d.coachTorn p).coach p = d.coach p := rfl

theorem Dev.coachTorn_reg_other (d : Dev) (p : Nat) {k : Nat} (hevent : k ≠ Reg.CPT_EVENT p) (hcount : k ≠ Reg.CPT_TORN_CNT p) :
    (d.coachTorn p).reg k = d.reg k := by
  rw [Dev.coachTorn, Dev.count_reg_other _ hcount, Dev.setFlag_reg_other _ _ hevent]
  rfl

theorem Dev.coachTorn_counts (d : Dev) (p : Nat) :
    (d.coachTorn p).reg (Reg.CPT_TORN_CNT p) = min (d.reg (Reg.CPT_TORN_CNT p) + 1) 0xFFFFFFFF := by
  have hevent : Reg.CPT_TORN_CNT p ≠ Reg.CPT_EVENT p := pageReg_ne (by decide) _
  rw [Dev.coachTorn, Dev.count_reg, if_pos rfl, Dev.setFlag_reg_other _ _ hevent]
  rfl

theorem Dev.coachTorn_event (d : Dev) (p : Nat) : (d.coachTorn p).flag (Reg.CPT_EVENT p) Fld.CPT_EVENT_TORN = true :=
  (Dev.flag_congr (Dev.count_reg_other _ (pageReg_ne (by decide) _)) _).trans (Dev.setFlag_flag_same _ _ _ rfl (by decide))

/-! ### A port in DOWN or TRAIN stays there (Table 9.10) -/

theorem Dev.coachHold_below {d : Dev} {p : Nat} (h : (d.coach p).state ≤ 1) : d.coachHold p = d := by
  unfold Dev.coachHold
  dsimp only
  split
  · omega
  · omega
  · omega
  · rfl

end Sys2Proof.Machine

/-! SUPPORT. Coach ports follow Table 9.10, and their commits Table 9.9: the obligation, from the writes of `CPT_CTRL` and `CPT_COMMIT`. -/

namespace Sys2Proof.Machine

/-! ### A write that reaches a Coach port -/

/-- Where the register of a Coach page answers at its offset, the port is a Coach port. -/
theorem Dev.role_of_coachAccess {d : Dev} {p o : Nat} (hp : p < 128) (ho : o < 0x10000) {k : Nat} (hk : k = 0x12000000 + o + p * 0x10000)
    (h : d.access (k % 0x10000000) = .normal k) : d.role p = 1 := by
  obtain ⟨-, -, hkey⟩ := Dev.access_normal h
  have hoff : k % 0x10000000 = 0x2000000 + o + p * 0x10000 := by omega
  have hblk : blkOf (k % 0x10000000) = some (.port p) := by
    rw [hoff, blkOf]
    iterate 10 rw [if_neg (by omega)]
    rw [if_pos (by omega)]
    congr 2
    omega
  rw [Dev.keyOf_port hblk] at hkey
  omega

theorem Dev.onCoach_normal {d : Dev} {p k : Nat} (hrole : d.role p = 1) (h : d.access (k % 0x10000000) = .normal k) (f : Dev → Dev) :
    d.onCoach p k f = f d := by
  rw [Dev.onCoach, if_pos (by rw [hrole]; rfl), Dev.onWrite_normal h]

theorem rowOf_coachCtrl : ∀ p : Fin 128, rowOf (Reg.CPT_CTRL p) = some ⟨0x12000010, [(128, 0x10000)],
    [⟨15, 8, .rw, 20⟩, ⟨2, 2, .rw, 0⟩, ⟨1, 1, .trg, 0⟩, ⟨0, 0, .rw, 1⟩], false⟩ := by decide +kernel

/-- `EN` reads what was written (R5). -/
theorem Dev.genericWrite_coachEn (d : Dev) (p : Fin 128) (v : Nat) :
    (d.genericWrite (Reg.CPT_CTRL p) v).flag (Reg.CPT_CTRL p) Fld.CPT_CTRL_EN = bit v 0 :=
  congrArg (· == 1) (Dev.genericWrite_bits (rowOf_coachCtrl p) (f := ⟨0, 0, .rw, 1⟩) (by decide) d v)

/-! ### The stages of a write of `CPT_CTRL` (R217, R422) -/

/-- The values of a write of `CPT_CTRL`. -/
def Dev.ctrlWritten (d : Dev) (p v : Nat) : Dev := d.genericWrite (Reg.CPT_CTRL p) v

/-- The values of a write of `CPT_CTRL`, and where it clears `EN` the way to DOWN. -/
def Dev.ctrlStopped (d : Dev) (p v : Nat) : Dev :=
  if d.flag (Reg.CPT_CTRL p) Fld.CPT_CTRL_EN && !bit v 0 && ((d.ctrlWritten p v).coach p).state != 0 then
    ((d.ctrlWritten p v).coachTo p 0).coachTorn p
  else d.ctrlWritten p v

/-- What the trigger `RETRAIN` of a write of `CPT_CTRL` does. -/
def Dev.ctrlTriggered (d : Dev) (p v : Nat) : Dev :=
  if bit v 1 && bit v 0 then (if (d.coach p).state == 0 then d.refuse (Reg.CPT_BLKID p) cptLinkDown else d.coachRetrain p)
  else if bit v 1 then d.refuse (Reg.CPT_BLKID p) cptLinkDown
  else d

theorem Dev.writeCoachCtrl_eq (d : Dev) (p v : Nat) :
    d.writeCoachCtrl p v = (((d.ctrlStopped p v).coachUp p).ctrlTriggered p v).coachHold p := rfl

theorem Dev.ctrlWritten_coach (d : Dev) (p v q : Nat) : (d.ctrlWritten p v).coach q = d.coach q := d.genericWrite_coach _ _ _

theorem Dev.ctrlWritten_reg_other (d : Dev) (p v : Nat) {k : Nat} (h : k ≠ Reg.CPT_CTRL p) : (d.ctrlWritten p v).reg k = d.reg k :=
  d.genericWrite_reg_other v h

theorem Dev.ctrlStopped_running {d : Dev} {p v : Nat}
    (h : d.flag (Reg.CPT_CTRL p) Fld.CPT_CTRL_EN = false ∨ bit v 0 = true ∨ (d.coach p).state = 0) : d.ctrlStopped p v = d.ctrlWritten p v := by
  refine if_neg ?_
  rw [Dev.ctrlWritten_coach]
  rcases h with h | h | h <;> simp [h]

theorem Dev.ctrlStopped_stops {d : Dev} {p v : Nat} (hwas : d.flag (Reg.CPT_CTRL p) Fld.CPT_CTRL_EN = true) (hen : bit v 0 = false)
    (h0 : (d.coach p).state ≠ 0) : d.ctrlStopped p v = ((d.ctrlWritten p v).coachTo p 0).coachTorn p := by
  refine if_pos ?_
  rw [Dev.ctrlWritten_coach]
  simp [hwas, hen, h0]

theorem Dev.coachUp_held {d : Dev} {p : Nat} (h : (d.coach p).state ≠ 0 ∨ d.flag (Reg.CPT_CTRL p) Fld.CPT_CTRL_EN = false) :
    d.coachUp p = d := by
  refine if_neg ?_
  rcases h with h | h <;> simp [h]

theorem Dev.coachUp_rises {d : Dev} {p : Nat} (h0 : (d.coach p).state = 0) (hen : d.flag (Reg.CPT_CTRL p) Fld.CPT_CTRL_EN = true)
    (hlock : d.quadLocked (p / 4) = true) : d.coachUp p = d.coachTo p 1 := if_pos (by simp [h0, hen, hlock])

theorem Dev.ctrlTriggered_none {v : Nat} (h : bit v 1 = false) (d : Dev) (p : Nat) : d.ctrlTriggered p v = d := by
  simp [Dev.ctrlTriggered, h]

theorem Dev.ctrlTriggered_retrains {d : Dev} {p v : Nat} (hen : bit v 0 = true) (hre : bit v 1 = true) (h0 : (d.coach p).state ≠ 0) :
    d.ctrlTriggered p v = d.coachRetrain p := by
  simp [Dev.ctrlTriggered, hen, hre, h0]

theorem Dev.ctrlTriggered_refused {v : Nat} (hen : bit v 0 = false) (hre : bit v 1 = true) (d : Dev) (p : Nat) :
    d.ctrlTriggered p v = d.refuse (Reg.CPT_BLKID p) cptLinkDown := by
  simp [Dev.ctrlTriggered, hen, hre]

theorem Dev.coachRetrain_state {d : Dev} {p : Nat} (h0 : (d.coach p).state ≠ 0) : ((d.coachRetrain p).coach p).state = 1 := by
  unfold Dev.coachRetrain
  split
  · next h => exact absurd h h0
  · next h =>
    rw [Dev.coachTorn_coach, Dev.setCoach_coach_same]
    exact h
  · rw [Dev.coachTorn_coach, Dev.coachTo_state]

/-- A port that trains again has torn its crossing: what stands before the tear differs from it in no register but those of its state. -/
theorem Dev.coachRetrain_torn {d : Dev} {p : Nat} (h0 : (d.coach p).state ≠ 0) :
    ∃ e : Dev, d.coachRetrain p = e.coachTorn p ∧ ∀ k ∉ coachToRegs p, e.reg k = d.reg k := by
  unfold Dev.coachRetrain
  split
  · next h => exact absurd h h0
  · exact ⟨_, rfl, fun _ _ => rfl⟩
  · exact ⟨_, rfl, fun _ hk => Dev.coachTo_reg_other _ _ _ hk⟩

theorem not_coachTo (p : Nat) : Reg.CPT_CTRL p ∉ coachToRegs p ∧ Reg.CPT_TORN_CNT p ∉ coachToRegs p ∧ Reg.TWN_STATUS ∉ coachToRegs p := by
  simp only [coachToRegs, Reg.CPT_CTRL, Reg.CPT_TORN_CNT, Reg.TWN_STATUS, Reg.CPT_STATUS, Reg.CPT_SLACK, Reg.CPT_HOLD_CNT, Reg.CPT_EVENT,
    Reg.BEL_UNROUTED_CNT, List.mem_cons, List.not_mem_nil, or_false, not_or]
  omega

theorem coachTorn_apart (p : Nat) : Reg.TWN_STATUS ≠ Reg.CPT_EVENT p ∧ Reg.TWN_STATUS ≠ Reg.CPT_TORN_CNT p ∧
    Reg.CPT_STATUS p ≠ Reg.CPT_EVENT p ∧ Reg.CPT_STATUS p ≠ Reg.CPT_TORN_CNT p ∧ Reg.CPT_CTRL p ≠ Reg.CPT_EVENT p ∧
    Reg.CPT_CTRL p ≠ Reg.CPT_TORN_CNT p := by
  simp only [Reg.TWN_STATUS, Reg.CPT_EVENT, Reg.CPT_TORN_CNT, Reg.CPT_STATUS, Reg.CPT_CTRL]
  omega

theorem coachCtrl_apart (p : Nat) : Reg.TWN_STATUS ≠ Reg.CPT_CTRL p ∧ Reg.CPT_TORN_CNT p ≠ Reg.CPT_CTRL p := by
  simp only [Reg.TWN_STATUS, Reg.CPT_TORN_CNT, Reg.CPT_CTRL]
  omega

/-! ### Writes of `CPT_CTRL` (Table 9.10) -/

theorem Dev.quadLocked_congr {d e : Dev} {q : Nat} (h : d.reg (Reg.CKG_QPLL_STATUS q) = e.reg (Reg.CKG_QPLL_STATUS q)) :
    d.quadLocked q = e.quadLocked q := by
  rw [Dev.quadLocked, h, Dev.quadLocked]

section Ctrl
variable {d : Dev} {p : Fin 128} {v : Nat}

/-- `EN` takes a port whose PLL is locked from DOWN to TRAIN. -/
theorem Dev.writeCoachCtrl_trains (hen : bit v 0 = true) (hre : bit v 1 = false) (h0 : (d.coach p).state = 0)
    (hlock : d.quadLocked (p / 4) = true) : d.writeCoachCtrl p v = (d.ctrlWritten p v).coachTo p 1 := by
  have hqpll : Reg.CKG_QPLL_STATUS (p / 4) ≠ Reg.CPT_CTRL p := by
    simp only [Reg.CKG_QPLL_STATUS, Reg.CPT_CTRL]
    omega
  have hup : (d.ctrlWritten p v).coachUp p = (d.ctrlWritten p v).coachTo p 1 :=
    Dev.coachUp_rises (by rw [Dev.ctrlWritten_coach, h0]) ((d.genericWrite_coachEn p v).trans hen)
      ((Dev.quadLocked_congr (d.ctrlWritten_reg_other p v hqpll)).trans hlock)
  rw [Dev.writeCoachCtrl_eq, Dev.ctrlStopped_running (.inr (.inl hen)), hup, Dev.ctrlTriggered_none hre,
    Dev.coachHold_below (by rw [Dev.coachTo_state])]

/-- Clearing `EN` takes a port to DOWN, and its crossing tears. -/
theorem Dev.writeCoachCtrl_stops (hen : bit v 0 = false) (hre : bit v 1 = false) (hwas : d.flag (Reg.CPT_CTRL p) Fld.CPT_CTRL_EN = true)
    (h0 : (d.coach p).state ≠ 0) : d.writeCoachCtrl p v = ((d.ctrlWritten p v).coachTo p 0).coachTorn p := by
  obtain ⟨-, -, -, -, hevent, hcount⟩ := coachTorn_apart p
  have hflag : (((d.ctrlWritten p v).coachTo p 0).coachTorn p).flag (Reg.CPT_CTRL p) Fld.CPT_CTRL_EN = false :=
    (Dev.flag_congr ((Dev.coachTorn_reg_other _ _ hevent hcount).trans (Dev.coachTo_reg_other _ _ _ (not_coachTo p).1)) _).trans
      ((d.genericWrite_coachEn p v).trans hen)
  rw [Dev.writeCoachCtrl_eq, Dev.ctrlStopped_stops hwas hen h0, Dev.coachUp_held (.inr hflag), Dev.ctrlTriggered_none hre,
    Dev.coachHold_below (by rw [Dev.coachTorn_coach, Dev.coachTo_state]; decide)]

/-- `RETRAIN` begins TRAIN again on a port that is not down. -/
theorem Dev.writeCoachCtrl_retrains (hen : bit v 0 = true) (hre : bit v 1 = true) (h0 : (d.coach p).state ≠ 0) :
    d.writeCoachCtrl p v = (d.ctrlWritten p v).coachRetrain p := by
  have h0' : ((d.ctrlWritten p v).coach p).state ≠ 0 := by rwa [Dev.ctrlWritten_coach]
  rw [Dev.writeCoachCtrl_eq, Dev.ctrlStopped_running (.inr (.inl hen)), Dev.coachUp_held (.inl h0'), Dev.ctrlTriggered_retrains hen hre h0',
    Dev.coachHold_below (by rw [Dev.coachRetrain_state h0'])]

/-- `RETRAIN` is refused on a port that is down and stays so. -/
theorem Dev.writeCoachCtrl_refused (hen : bit v 0 = false) (hre : bit v 1 = true) (h0 : (d.coach p).state = 0) :
    d.writeCoachCtrl p v = (d.ctrlWritten p v).refuse (Reg.CPT_BLKID p) cptLinkDown := by
  have hlow : ((d.ctrlWritten p v).refuse (Reg.CPT_BLKID p) cptLinkDown).coach p = d.coach p :=
    (Dev.coach_congr (Dev.refuse_coaches _ _ _) p).trans (d.ctrlWritten_coach p v p)
  have hup : (d.ctrlWritten p v).coachUp p = d.ctrlWritten p v := Dev.coachUp_held (.inr ((d.genericWrite_coachEn p v).trans hen))
  rw [Dev.writeCoachCtrl_eq, Dev.ctrlStopped_running (.inr (.inr h0)), hup, Dev.ctrlTriggered_refused hen hre,
    Dev.coachHold_below (by rw [hlow, h0]; decide)]

end Ctrl

/-- On a device of no running pair the write is like any other (R312). -/
theorem Dev.hostCoachCtrl_unpaired {d e : Dev} {p v : Nat} (hs : d.secondaryPaired = false) (hp : d.primaryPaired = false)
    (he : d.writeCoachCtrl p v = e) (hst : e.reg Reg.TWN_STATUS = d.reg Reg.TWN_STATUS) : d.hostCoachCtrl p v = e := by
  have hwb : e.wb = d.wb := he ▸ (Dev.writeCoachCtrl_keeps (.refl d) p v).wb
  have hpair : e.primaryPaired = false := (Dev.primaryPaired_congr hwb hst).trans hp
  rw [Dev.hostCoachCtrl]
  simp only [hs, he, hpair, Bool.false_eq_true, if_false]

/-! ### The commands that write `CPT_CTRL`, and the end of training -/

theorem Dev.role_of_ctrlAccess {d : Dev} {p : Fin 128} (h : d.access (Reg.CPT_CTRL p % 0x10000000) = .normal (Reg.CPT_CTRL p)) :
    d.role p = 1 := Dev.role_of_coachAccess (o := 0x10) p.isLt (by decide) rfl h

theorem exec_coachEn {s : State} {p : Fin 128} (h : s.dev.access (Reg.CPT_CTRL p % 0x10000000) = .normal (Reg.CPT_CTRL p)) (v : Word) :
    exec (.coachEn p v) s = .next (s.done (s.dev.quiet.hostCoachCtrl p v.toNat)) :=
  congrArg (fun d => Host.Outcome.next (s.done d)) (Dev.onCoach_normal (d := s.dev.quiet) (Dev.role_of_ctrlAccess h) h _)

theorem exec_coachRetrain {s : State} {p : Fin 128} (h : s.dev.access (Reg.CPT_CTRL p % 0x10000000) = .normal (Reg.CPT_CTRL p)) :
    exec (.coachRetrain p) s = .next (s.done (s.dev.quiet.hostCoachCtrl p (s.dev.reg (Reg.CPT_CTRL p) ||| 2))) :=
  congrArg (fun d => Host.Outcome.next (s.done d)) (Dev.onCoach_normal (d := s.dev.quiet) (Dev.role_of_ctrlAccess h) h _)

theorem exec_trainDone (s : State) (p : Fin 128) : exec (.trainDone p) s = .next (s.done (s.dev.quiet.coachTrained p)) := rfl

/-- A write of 1 to `RETRAIN` with the other fields as they stand. -/
theorem retrainWord_bits (d : Dev) (p : Nat) : bit (d.reg (Reg.CPT_CTRL p) ||| 2) 0 = d.flag (Reg.CPT_CTRL p) Fld.CPT_CTRL_EN ∧
    bit (d.reg (Reg.CPT_CTRL p) ||| 2) 1 = true := by
  rw [Dev.flag_eq_bit _ _ rfl, bit_or, bit_or]
  exact ⟨Bool.or_false _, Bool.or_true _⟩

section CtrlClauses
variable {s : State} {p : Fin 128} (hs : s.dev.secondaryPaired = false) (hp : s.dev.primaryPaired = false)
  (hacc : s.dev.access (Reg.CPT_CTRL p % 0x10000000) = .normal (Reg.CPT_CTRL p))
include hs hp hacc

theorem coachEn_trains {v : Word} (hen : bit v.toNat 0 = true) (hre : bit v.toNat 1 = false) (h0 : (s.dev.coach p).state = 0)
    (hlock : s.dev.quadLocked (p.val / 4) = true) :
    ∃ t, exec (.coachEn p v) s = .next t ∧ (t.dev.coach p).state = 1 ∧ t.dev.fld (Reg.CPT_STATUS p) Fld.CPT_STATUS_STATE = 1 ∧
      t.dev.flag (Reg.CPT_CTRL p) Fld.CPT_CTRL_EN = true := by
  obtain ⟨hctrl, -, htwn⟩ := not_coachTo p
  obtain ⟨hapart, -⟩ := coachCtrl_apart p
  have hwrite := Dev.hostCoachCtrl_unpaired (d := s.dev.quiet) hs hp (Dev.writeCoachCtrl_trains hen hre h0 hlock)
    ((Dev.coachTo_reg_other _ _ _ htwn).trans (Dev.ctrlWritten_reg_other _ _ _ hapart))
  refine ⟨_, exec_coachEn hacc v, ?_, ?_, ?_⟩
  · rw [State.done_coach, hwrite, Dev.coachTo_state]
  · rw [State.done_fld, hwrite, Dev.coachTo_status _ _ (by decide)]
  · rw [State.done_flag, hwrite, Dev.flag_congr (Dev.coachTo_reg_other _ _ _ hctrl)]
    exact (Dev.genericWrite_coachEn _ p _).trans hen

theorem coachEn_stops {v : Word} (hen : bit v.toNat 0 = false) (hre : bit v.toNat 1 = false)
    (hwas : s.dev.flag (Reg.CPT_CTRL p) Fld.CPT_CTRL_EN = true) (h0 : (s.dev.coach p).state ≠ 0) :
    ∃ t, exec (.coachEn p v) s = .next t ∧ (t.dev.coach p).state = 0 ∧ t.dev.fld (Reg.CPT_STATUS p) Fld.CPT_STATUS_STATE = 0 ∧
      t.dev.flag (Reg.CPT_EVENT p) Fld.CPT_EVENT_TORN = true ∧
      t.dev.reg (Reg.CPT_TORN_CNT p) = min (s.dev.reg (Reg.CPT_TORN_CNT p) + 1) 0xFFFFFFFF := by
  obtain ⟨-, htorn, htwn⟩ := not_coachTo p
  obtain ⟨hapart, hctrl⟩ := coachCtrl_apart p
  obtain ⟨hevent, hcount, hstatus, hstatus', -⟩ := coachTorn_apart p
  have hwrite := Dev.hostCoachCtrl_unpaired (d := s.dev.quiet) hs hp (Dev.writeCoachCtrl_stops hen hre hwas h0)
    ((Dev.coachTorn_reg_other _ _ hevent hcount).trans
      ((Dev.coachTo_reg_other _ _ _ htwn).trans (Dev.ctrlWritten_reg_other _ _ _ hapart)))
  refine ⟨_, exec_coachEn hacc v, ?_, ?_, ?_, ?_⟩
  · rw [State.done_coach, hwrite, Dev.coachTorn_coach, Dev.coachTo_state]
  · rw [State.done_fld, hwrite, Dev.fld_congr (Dev.coachTorn_reg_other _ _ hstatus hstatus'), Dev.coachTo_status _ _ (by decide)]
  · rw [State.done_flag, hwrite, Dev.coachTorn_event]
  · rw [State.done_reg, hwrite, Dev.coachTorn_counts, Dev.coachTo_reg_other _ _ _ htorn, Dev.ctrlWritten_reg_other _ _ _ hctrl, Dev.quiet_reg]

theorem coachRetrain_trains (hen : s.dev.flag (Reg.CPT_CTRL p) Fld.CPT_CTRL_EN = true) (h0 : (s.dev.coach p).state ≠ 0) :
    ∃ t, exec (.coachRetrain p) s = .next t ∧ (t.dev.coach p).state = 1 ∧ t.dev.flag (Reg.CPT_EVENT p) Fld.CPT_EVENT_TORN = true ∧
      t.dev.reg (Reg.CPT_TORN_CNT p) = min (s.dev.reg (Reg.CPT_TORN_CNT p) + 1) 0xFFFFFFFF := by
  obtain ⟨-, htorn, htwn⟩ := not_coachTo p
  obtain ⟨hapart, hctrl⟩ := coachCtrl_apart p
  obtain ⟨hevent, hcount, hstatus, hstatus', -⟩ := coachTorn_apart p
  obtain ⟨hbit, hre⟩ := retrainWord_bits s.dev p
  have hexec := exec_coachRetrain hacc
  generalize s.dev.reg (Reg.CPT_CTRL p) ||| 2 = v at hbit hre hexec
  have h0' : ((s.dev.quiet.ctrlWritten p v).coach p).state ≠ 0 := by rwa [Dev.ctrlWritten_coach]
  obtain ⟨e, he, hregs⟩ := Dev.coachRetrain_torn h0'
  have hretrain : s.dev.quiet.writeCoachCtrl p v = (s.dev.quiet.ctrlWritten p v).coachRetrain p :=
    Dev.writeCoachCtrl_retrains (hbit.trans hen) hre h0
  have hwrite := Dev.hostCoachCtrl_unpaired (d := s.dev.quiet) hs hp (hretrain.trans he)
    ((Dev.coachTorn_reg_other _ _ hevent hcount).trans ((hregs _ htwn).trans (Dev.ctrlWritten_reg_other _ _ _ hapart)))
  refine ⟨_, hexec, ?_, ?_, ?_⟩
  · rw [State.done_coach, hwrite, ← he, Dev.coachRetrain_state h0']
  · rw [State.done_flag, hwrite, Dev.coachTorn_event]
  · rw [State.done_reg, hwrite, Dev.coachTorn_counts, hregs _ htorn, Dev.ctrlWritten_reg_other _ _ _ hctrl, Dev.quiet_reg]

theorem coachRetrain_refused (hen : s.dev.flag (Reg.CPT_CTRL p) Fld.CPT_CTRL_EN = false) (h0 : (s.dev.coach p).state = 0) :
    ∃ t, exec (.coachRetrain p) s = .next t ∧ Dev.Refused s.dev t.dev (Reg.CPT_BLKID p) 11 ∧
      Dev.OnlyRegs s.dev t.dev [Reg.CPT_CTRL p, Reg.CPT_BLKID p + 4, Reg.CPT_BLKID p + 8] := by
  obtain ⟨hbit, hre⟩ := retrainWord_bits s.dev p
  have hmem : Reg.CPT_BLKID p + 4 ∉ [Reg.CPT_CTRL p] ∧ Reg.CPT_BLKID p + 8 ∉ [Reg.CPT_CTRL p] := by
    simp only [Reg.CPT_BLKID, Reg.CPT_CTRL, List.mem_singleton]
    omega
  have htwn : Reg.TWN_STATUS ≠ Reg.CPT_BLKID p + 4 ∧ Reg.TWN_STATUS ≠ Reg.CPT_BLKID p + 8 := by
    simp only [Reg.CPT_BLKID, Reg.TWN_STATUS]
    omega
  have hwrite := Dev.hostCoachCtrl_unpaired (d := s.dev.quiet) hs hp (Dev.writeCoachCtrl_refused (hbit.trans hen) hre h0)
    ((Dev.refuse_reg_other _ _ htwn.1 htwn.2).trans (Dev.ctrlWritten_reg_other _ _ _ (coachCtrl_apart p).1))
  have hframe : Dev.OnlyRegs s.dev (s.dev.quiet.ctrlWritten p (s.dev.reg (Reg.CPT_CTRL p) ||| 2)) [Reg.CPT_CTRL p] :=
    (Dev.genericWrite_onlyRegs _ _ _).of_quiet
  refine ⟨_, exec_coachRetrain hacc, ?_⟩
  rw [hwrite]
  exact s.done_refuse (Reg.CPT_BLKID p) (by decide) hframe hmem.1 hmem.2

end CtrlClauses

/-! ### The end of training (Table 9.10) -/

/-- A port that has trained goes on with the stroke after the present one. -/
def Dev.trained (d : Dev) (p : Nat) : Dev := d.setCoach p ((d.coach p).restart d.nextStroke)

theorem Dev.coachTrained_idle {d : Dev} {p : Nat} (h : (d.coach p).state ≠ 1 ∨ d.quadLocked (p / 4) = false) : d.coachTrained p = d :=
  if_pos (by rcases h with h | h <;> simp [h])

theorem Dev.coachTrained_leaves {d : Dev} {p : Nat} (h1 : (d.coach p).state = 1) (hlock : d.quadLocked (p / 4) = true) :
    d.coachTrained p = (d.trained p).coachTo p (if d.reframing || d.holdOther p then 3 else 2) := if_neg (by simp [h1, hlock])

section Trained
variable {s : State} {p : Fin 128} (h1 : (s.dev.coach p).state = 1) (hlock : s.dev.quadLocked (p.val / 4) = true)
include h1 hlock

theorem trainDone_runs (hre : s.dev.reframing = false) (hother : s.dev.holdOther p = false) :
    ∃ t, exec (.trainDone p) s = .next t ∧ (t.dev.coach p).state = 2 ∧ t.dev.fld (Reg.CPT_STATUS p) Fld.CPT_STATUS_STATE = 2 ∧
      t.dev.flag (Reg.CPT_EVENT p) Fld.CPT_EVENT_LINK = true := by
  have hcause : (s.dev.quiet.reframing || s.dev.quiet.holdOther p) = false := Bool.or_eq_false_iff.mpr ⟨hre, hother⟩
  have heq := Dev.coachTrained_leaves (d := s.dev.quiet) (p := p) h1 hlock
  rw [hcause, if_neg Bool.false_ne_true] at heq
  refine ⟨_, exec_trainDone s p, ?_, ?_, ?_⟩
  · rw [State.done_coach, heq, Dev.coachTo_state]
  · rw [State.done_fld, heq, Dev.coachTo_status _ _ (by decide)]
  · rw [State.done_flag, heq, Dev.coachTo_link]

theorem trainDone_holds (h : s.dev.reframing = true ∨ s.dev.holdOther p = true) :
    ∃ t, exec (.trainDone p) s = .next t ∧ (t.dev.coach p).state = 3 ∧ (t.dev.coach p).holdDue = true ∧
      t.dev.reg (Reg.CPT_HOLD_CNT p) = min (s.dev.reg (Reg.CPT_HOLD_CNT p) + 1) 0xFFFFFFFF := by
  have hcause : (s.dev.quiet.reframing || s.dev.quiet.holdOther p) = true := (Bool.or_eq_true _ _).mpr h
  have heq := Dev.coachTrained_leaves (d := s.dev.quiet) (p := p) h1 hlock
  rw [hcause, if_pos rfl] at heq
  refine ⟨_, exec_trainDone s p, ?_, ?_, ?_⟩
  · rw [State.done_coach, heq, Dev.coachTo_state]
  · rw [State.done_coach, heq, Dev.coachTo_holdDue]
  · rw [State.done_reg, heq, Dev.coachTo_holds]
    rfl

end Trained

theorem trainDone_idle {s : State} {p : Fin 128} (h : (s.dev.coach p).state ≠ 1 ∨ s.dev.quadLocked (p.val / 4) = false) :
    ∃ t, exec (.trainDone p) s = .next t ∧ Dev.OnlyRegs s.dev t.dev [] :=
  State.unmoved (exec_trainDone s p) (Dev.coachTrained_idle (d := s.dev.quiet) h)

/-! ### Why a commit is refused (Table 9.9) -/

/-- The first three rows of Table 9.9 are decided by timing, power and the port's own pending commit. -/
theorem Dev.commitRefusal_early {d : Dev} {p code : Nat} (next : Bool) (hne : code ≠ 0)
    (h : code = if d.stk.timing = 2 ∨ d.stk.timing = 3 then 1 else if d.sdp.power = 2 then 2 else if (d.coach p).pending = true then 3 else 0) :
    d.commitRefusal p next = some (code, none) := by
  unfold Dev.commitRefusal
  dsimp only
  by_cases htiming : d.stk.timing = 2 ∨ d.stk.timing = 3
  · rw [if_pos htiming] at h
    rw [if_pos (by simpa using htiming), h]
    rfl
  · rw [if_neg htiming] at h
    rw [if_neg (by simpa using htiming)]
    by_cases hpower : d.sdp.power = 2
    · rw [if_pos hpower] at h
      rw [if_pos (by simpa using hpower), h]
      rfl
    · rw [if_neg hpower] at h
      rw [if_neg (by simpa using hpower)]
      by_cases hpending : (d.coach p).pending = true
      · rw [if_pos hpending] at h
        rw [if_pos hpending, h]
        rfl
      · rw [if_neg hpending] at h
        exact absurd h hne

/-- The tests of a commit do not look at what has left the device. -/
theorem Dev.quiet_commitRefusal (d : Dev) (p : Nat) (next : Bool) : d.quiet.commitRefusal p next = d.commitRefusal p next := by
  have hadmit : d.quiet.admitChange = d.admitChange := by
    funext l ws fs
    rw [Dev.admitChange, funext d.quiet_admission]
    rfl
  have hwords : d.quiet.routeWords = d.routeWords := rfl
  have hafter : d.quiet.projectedWith = d.projectedWith := rfl
  have hstops : d.quiet.allStops = d.allStops := rfl
  have hhits : d.quiet.shadowHits = d.shadowHits := rfl
  have hroute : d.quiet.routeGood = d.routeGood := rfl
  unfold Dev.commitRefusal
  rw [hadmit, hwords, hafter, hstops, hhits, hroute]
  rfl

end Sys2Proof.Machine

/-! SUPPORT. The commits of a Coach port: what stands once one is pending and once it is captured (R214, Table 9.9). -/

namespace Sys2Proof.Machine

/-! ### A commit that is pending, and its capture (R214) -/

/-- The stroke that a commit asks for. -/
def Dev.commitTarget (d : Dev) (p : Nat) : Nat := d.reg (Reg.CPT_COMMIT_TGT_LO p) + 2 ^ 32 * d.reg (Reg.CPT_COMMIT_TGT_HI p)

/-- A commit that passes its checks is pending. -/
def Dev.commitMarked (d : Dev) (p : Nat) (next : Bool) : Dev :=
  (d.setCoach p { d.coach p with pending := true, target := if next then none else some (d.commitTarget p) }).setFld (Reg.CPT_COMMIT p)
    Fld.CPT_COMMIT_PENDING 1

/-- A commit that is pending, which is a wake cause of Lull (R442). -/
def Dev.commitPends (d : Dev) (p : Nat) (next : Bool) : Dev := (d.commitMarked p next).lullExit

section Commit
variable {d : Dev} {p v : Nat}

theorem Dev.writeCommit_plain (h : bit v 0 = false) : d.writeCommit p v .good = d.genericWrite (Reg.CPT_COMMIT p) v := by
  simp [Dev.writeCommit, h]

theorem Dev.writeCommit_refused (h : bit v 0 = true) {code : Nat}
    (hr : (d.genericWrite (Reg.CPT_COMMIT p) v).commitRefusal p (bit v 1) = some (code, none)) :
    d.writeCommit p v .good = (d.genericWrite (Reg.CPT_COMMIT p) v).refuse (Reg.CPT_BLKID p) code := by
  simp [Dev.writeCommit, h, Dev.shadowChecked, hr]

theorem Dev.writeCommit_accepted (h : bit v 0 = true) (hr : (d.genericWrite (Reg.CPT_COMMIT p) v).commitRefusal p (bit v 1) = none) :
    let e := (d.genericWrite (Reg.CPT_COMMIT p) v).commitPends p (bit v 1)
    d.writeCommit p v .good = if e.stk.timing == 0 then (e.commitApply p e.firstLatch).updateAdm else e := by
  simp [Dev.writeCommit, h, Dev.shadowChecked, hr, Dev.commitPends, Dev.commitMarked, Dev.commitTarget]

end Commit

/-- The end of Lull tells of itself in SDP alone (R439, R442). -/
theorem Dev.lullExit_rest (d : Dev) : d.lullExit.coaches = d.coaches ∧ d.lullExit.stk = d.stk ∧
    ∀ k, k ≠ Reg.SDP_EVENT → k ≠ Reg.BEL_UNROUTED_CNT → d.lullExit.reg k = d.reg k := by
  unfold Dev.lullExit Dev.setPower Dev.sdpEvent
  split
  · split
    · exact ⟨rfl, rfl, fun _ _ _ => rfl⟩
    · refine ⟨Dev.raise_coaches _ _, Dev.raise_stk _ _, fun k hevent hbell => ?_⟩
      rw [Dev.raise_reg_other _ _ hbell, Dev.setFlag_reg_other _ _ hevent]
      rfl
  · exact ⟨rfl, rfl, fun _ _ _ => rfl⟩

theorem Dev.commitPends_coach (d : Dev) (p : Nat) (next : Bool) :
    (d.commitPends p next).coach p = { d.coach p with pending := true, target := if next then none else some (d.commitTarget p) } := by
  obtain ⟨hcoaches, -⟩ := (d.commitMarked p next).lullExit_rest
  rw [Dev.commitPends, Dev.coach_congr hcoaches, Dev.commitMarked, Dev.coach_congr (Dev.setFld_coaches _ _ _ _), Dev.setCoach_coach_same]

theorem Dev.commitPends_stk (d : Dev) (p : Nat) (next : Bool) : (d.commitPends p next).stk = d.stk := by
  obtain ⟨-, hstk, -⟩ := (d.commitMarked p next).lullExit_rest
  rw [Dev.commitPends, hstk, Dev.commitMarked, Dev.setFld_stk]
  rfl

theorem Dev.commitPends_reg_other (d : Dev) (p : Nat) (next : Bool) {k : Nat} (hevent : k ≠ Reg.SDP_EVENT) (hbell : k ≠ Reg.BEL_UNROUTED_CNT)
    (hcommit : k ≠ Reg.CPT_COMMIT p) : (d.commitPends p next).reg k = d.reg k := by
  obtain ⟨-, -, hregs⟩ := (d.commitMarked p next).lullExit_rest
  rw [Dev.commitPends, hregs k hevent hbell, Dev.commitMarked, Dev.setFld_reg_other _ _ _ hcommit, Dev.setCoach_reg]

theorem coachCommit_apart (p : Nat) : Reg.CPT_COMMIT p ≠ Reg.SDP_EVENT ∧ Reg.CPT_COMMIT p ≠ Reg.BEL_UNROUTED_CNT ∧
    Reg.TWN_STATUS ≠ Reg.SDP_EVENT ∧ Reg.TWN_STATUS ≠ Reg.BEL_UNROUTED_CNT ∧ Reg.TWN_STATUS ≠ Reg.CPT_COMMIT p := by
  simp only [Reg.CPT_COMMIT, Reg.SDP_EVENT, Reg.BEL_UNROUTED_CNT, Reg.TWN_STATUS]
  omega

theorem Dev.commitPends_flag (d : Dev) (p : Nat) (next : Bool) : (d.commitPends p next).flag (Reg.CPT_COMMIT p) Fld.CPT_COMMIT_PENDING = true := by
  obtain ⟨hevent, hbell, -⟩ := coachCommit_apart p
  obtain ⟨-, -, hregs⟩ := (d.commitMarked p next).lullExit_rest
  have hset : (d.commitMarked p next).flag (Reg.CPT_COMMIT p) Fld.CPT_COMMIT_PENDING = true := Dev.setFlag_flag_same _ _ _ rfl (by decide)
  exact (Dev.flag_congr (hregs _ hevent hbell) _).trans hset

/-- Words of the control stores that are written anew end `CONTROL_FAULT` at most. -/
theorem Dev.controlWritten_rest (d : Dev) (words : List Nat) : (d.controlWritten words).coaches = d.coaches ∧
    ∀ k, k ≠ Reg.DEP_STATUS → k ≠ Reg.BEL_UNROUTED_CNT → (d.controlWritten words).reg k = d.reg k := by
  unfold Dev.controlWritten Dev.controlTidy
  split
  · refine ⟨Dev.message_coaches _ _ _, fun k hstatus hbell => ?_⟩
    rw [Dev.message_reg_other _ _ _ hbell, Dev.setFld_reg_other _ _ _ hstatus]
    rfl
  · exact ⟨rfl, fun _ _ _ => rfl⟩

theorem Dev.roundFree_coaches (d : Dev) (x : Rat) : (d.roundFree x).2.coaches = d.coaches := by
  unfold Dev.roundFree
  split <;> rfl

/-- The figures of admission stand in PRT (Table 7.3). -/
theorem Dev.updateAdm_rest (d : Dev) : d.updateAdm.coaches = d.coaches ∧
    ∀ k, k ≠ Reg.PRT_ADM_CLOCKS → k ≠ Reg.PRT_ADM_BYTES → k ≠ Reg.PRT_ADM_SLACK → d.updateAdm.reg k = d.reg k := by
  have hreg (d : Dev) (racing : Bool) (x : Rat) (k : Nat) : (if racing = true then d.freshNat else d.roundFree x).2.reg k = d.reg k := by
    split <;> simp
  have hcoaches (d : Dev) (racing : Bool) (x : Rat) : (if racing = true then d.freshNat else d.roundFree x).2.coaches = d.coaches := by
    split
    · rfl
    · exact d.roundFree_coaches x
  unfold Dev.updateAdm
  split
  · exact ⟨rfl, fun _ _ _ _ => rfl⟩
  · dsimp only
    split
    · refine ⟨by rw [Dev.setReg_coaches, Dev.setReg_coaches, hcoaches, Dev.setReg_coaches, hcoaches], fun k hclocks hbytes hslack => ?_⟩
      rw [Dev.setReg_reg_other _ _ hslack, Dev.setReg_reg_other _ _ hbytes, hreg, Dev.setReg_reg_other _ _ hclocks, hreg]
    · refine ⟨by rw [Dev.setReg_coaches, Dev.roundFree_coaches, Dev.setReg_coaches, hcoaches, Dev.setReg_coaches, hcoaches],
        fun k hclocks hbytes hslack => ?_⟩
      rw [Dev.setReg_reg_other _ _ hslack, Dev.roundFree_reg, Dev.setReg_reg_other _ _ hbytes, hreg, Dev.setReg_reg_other _ _ hclocks, hreg]

/-- The words of a route map that a commit sets lie behind the port's own registers. -/
theorem Dev.routeWords_ge {d : Dev} {p : Nat} {w : Nat × Nat} (h : w ∈ d.routeWords p) : Reg.CPT_RM_CTRL_LIVE p 0 ≤ w.1 := by
  simp only [Dev.routeWords, List.mem_flatMap, List.mem_map] at h
  obtain ⟨s, -, k, -, rfl⟩ := h
  simp only [Reg.CPT_RM_CTRL_LIVE]
  omega

/-- The live copies that a capture sets. -/
def Dev.wordsSet (d : Dev) (ws : List (Nat × Nat)) : Dev := ws.foldl (fun (d : Dev) (w : Nat × Nat) => d.setReg w.1 w.2) d

theorem Dev.wordsSet_reg_other (d : Dev) {ws : List (Nat × Nat)} {k : Nat} (h : ∀ w ∈ ws, k ≠ w.1) : (d.wordsSet ws).reg k = d.reg k :=
  List.foldlRecOn (motive := fun e : Dev => e.reg k = d.reg k) ws _ rfl
    (fun _ he w hw => (Dev.setReg_reg_other _ _ (h w hw)).trans he)

/-- A captured port, before its commit counts. -/
def Dev.commitTaken (d : Dev) (p eff : Nat) : Dev :=
  let before := d.regs
  let d := d.wordsSet (d.routeWords p)
  let changed := (portStops d.regs p).filter fun s => stopAt before p s.addr != some s
  let c := d.coach p
  let d := d.setCoach p { c with pending := false, target := none, configs := c.configs ++ changed.map fun s => (s.addr, eff) }
  d.controlWritten ((d.routeWords p).map (·.1))

theorem Dev.commitApply_eq (d : Dev) (p eff : Nat) : d.commitApply p eff =
    ((d.commitTaken p eff).setFld (Reg.CPT_COMMIT p) Fld.CPT_COMMIT_PENDING 0).count (Reg.CPT_COMMIT_CNT p) := by
  rw [Dev.commitApply, Dev.commitTaken, Dev.wordsSet]

theorem Dev.commitApply_pending (d : Dev) (p eff : Nat) : ((d.commitApply p eff).coach p).pending = false := by
  rw [Dev.commitApply_eq, Dev.coach_congr (Dev.count_coaches _ _), Dev.coach_congr (Dev.setFld_coaches _ _ _ _), Dev.commitTaken,
    Dev.coach_congr (Dev.controlWritten_rest _ _).1, Dev.setCoach_coach_same]

theorem Dev.commitTaken_reg_other (d : Dev) (p eff : Nat) {k : Nat} (hlow : k < Reg.CPT_RM_CTRL_LIVE p 0) (hstatus : k ≠ Reg.DEP_STATUS)
    (hbell : k ≠ Reg.BEL_UNROUTED_CNT) : (d.commitTaken p eff).reg k = d.reg k := by
  rw [Dev.commitTaken, (Dev.controlWritten_rest _ _).2 k hstatus hbell, Dev.setCoach_reg]
  exact d.wordsSet_reg_other fun w hw => Nat.ne_of_lt (Nat.lt_of_lt_of_le hlow (Dev.routeWords_ge hw))

theorem coachCommitCnt_apart (p : Nat) : Reg.CPT_COMMIT_CNT p < Reg.CPT_RM_CTRL_LIVE p 0 ∧ Reg.CPT_COMMIT_CNT p ≠ Reg.DEP_STATUS ∧
    Reg.CPT_COMMIT_CNT p ≠ Reg.BEL_UNROUTED_CNT ∧ Reg.CPT_COMMIT_CNT p ≠ Reg.CPT_COMMIT p ∧ Reg.CPT_COMMIT_CNT p ≠ Reg.SDP_EVENT ∧
    Reg.CPT_COMMIT_CNT p ≠ Reg.PRT_ADM_CLOCKS ∧ Reg.CPT_COMMIT_CNT p ≠ Reg.PRT_ADM_BYTES ∧ Reg.CPT_COMMIT_CNT p ≠ Reg.PRT_ADM_SLACK := by
  simp only [Reg.CPT_COMMIT_CNT, Reg.CPT_RM_CTRL_LIVE, Reg.DEP_STATUS, Reg.BEL_UNROUTED_CNT, Reg.CPT_COMMIT, Reg.SDP_EVENT,
    Reg.PRT_ADM_CLOCKS, Reg.PRT_ADM_BYTES, Reg.PRT_ADM_SLACK]
  omega

theorem twnStatus_apart (p : Nat) : Reg.TWN_STATUS < Reg.CPT_RM_CTRL_LIVE p 0 ∧ Reg.TWN_STATUS ≠ Reg.DEP_STATUS ∧
    Reg.TWN_STATUS ≠ Reg.CPT_COMMIT_CNT p ∧ Reg.TWN_STATUS ≠ Reg.PRT_ADM_CLOCKS ∧ Reg.TWN_STATUS ≠ Reg.PRT_ADM_BYTES ∧
    Reg.TWN_STATUS ≠ Reg.PRT_ADM_SLACK := by
  simp only [Reg.TWN_STATUS, Reg.CPT_COMMIT_CNT, Reg.CPT_RM_CTRL_LIVE, Reg.DEP_STATUS, Reg.PRT_ADM_CLOCKS, Reg.PRT_ADM_BYTES, Reg.PRT_ADM_SLACK]
  omega

theorem Dev.commitApply_twnStatus (d : Dev) (p eff : Nat) : (d.commitApply p eff).reg Reg.TWN_STATUS = d.reg Reg.TWN_STATUS := by
  obtain ⟨-, -, -, hbell, hcommit⟩ := coachCommit_apart p
  obtain ⟨hlow, hstatus, hcount, -⟩ := twnStatus_apart p
  rw [Dev.commitApply_eq, Dev.count_reg_other _ hcount, Dev.setFld_reg_other _ _ _ hcommit, Dev.commitTaken_reg_other _ _ _ hlow hstatus hbell]

theorem Dev.commitApply_counts (d : Dev) (p eff : Nat) :
    (d.commitApply p eff).reg (Reg.CPT_COMMIT_CNT p) = min (d.reg (Reg.CPT_COMMIT_CNT p) + 1) 0xFFFFFFFF := by
  obtain ⟨hlow, hstatus, hbell, hcommit, -⟩ := coachCommitCnt_apart p
  rw [Dev.commitApply_eq, Dev.count_reg, if_pos rfl, Dev.setFld_reg_other _ _ _ hcommit, Dev.commitTaken_reg_other _ _ _ hlow hstatus hbell]

/-! ### The command that writes `CPT_COMMIT` -/

theorem exec_coachCommit {s : State} {p : Fin 128} {v : Word} {e : Dev}
    (hacc : s.dev.access (Reg.CPT_COMMIT p % 0x10000000) = .normal (Reg.CPT_COMMIT p)) (hs : s.dev.secondaryPaired = false)
    (hp : s.dev.primaryPaired = false) (he : s.dev.quiet.writeCommit p v.toNat .good = e)
    (hst : e.reg Reg.TWN_STATUS = s.dev.reg Reg.TWN_STATUS) : exec (.coachCommit p v .good) s = .next (s.done e) := by
  have hrole : s.dev.quiet.role p = 1 := Dev.role_of_coachAccess (d := s.dev) (o := 0x1C) p.isLt (by decide) rfl hacc
  have hwb : e.wb = s.dev.wb := he ▸ (Dev.writeCommit_keeps (.refl s.dev.quiet) p v.toNat .good).wb
  have hmirror := Dev.mirrored_unpaired (d := s.dev.quiet) (Reg.CPT_COMMIT p % 0x10000000) v.toNat
    (f := fun d => d.writeCommit p v.toNat .good) hs ((congrArg Dev.primaryPaired he).trans ((Dev.primaryPaired_congr hwb hst).trans hp))
  exact congrArg (fun d => Host.Outcome.next (s.done d)) ((Dev.onCoach_normal hrole hacc _).trans (hmirror.trans he))

section CommitClauses
variable {s : State} {p : Fin 128} {v : Word} (hs : s.dev.secondaryPaired = false) (hp : s.dev.primaryPaired = false)
  (hacc : s.dev.access (Reg.CPT_COMMIT p % 0x10000000) = .normal (Reg.CPT_COMMIT p))
include hs hp hacc

theorem coachCommit_plain (h0 : bit v.toNat 0 = false) :
    ∃ t, exec (.coachCommit p v .good) s = .next t ∧ Dev.OnlyRegs s.dev t.dev [Reg.CPT_COMMIT p] :=
  ⟨_, exec_coachCommit hacc hs hp (Dev.writeCommit_plain h0) (Dev.genericWrite_reg_other _ _ (coachCommit_apart p).2.2.2.2),
    (Dev.OnlyRegs.of_quiet (Dev.genericWrite_onlyRegs _ _ _)).done s⟩

theorem coachCommit_refused (h0 : bit v.toNat 0 = true) {code : Nat} (hne : code ≠ 0)
    (hcode : code = if s.dev.stk.timing = 2 ∨ s.dev.stk.timing = 3 then 1 else if s.dev.sdp.power = 2 then 2
      else if (s.dev.coach p).pending = true then 3 else 0) :
    ∃ t, exec (.coachCommit p v .good) s = .next t ∧ Dev.Refused s.dev t.dev (Reg.CPT_BLKID p) code ∧ t.dev.coach p = s.dev.coach p ∧
      Dev.OnlyRegs s.dev t.dev [Reg.CPT_COMMIT p, Reg.CPT_BLKID p + 4, Reg.CPT_BLKID p + 8] := by
  have hearly : (s.dev.quiet.genericWrite (Reg.CPT_COMMIT p) v.toNat).commitRefusal p (bit v.toNat 1) = some (code, none) :=
    Dev.commitRefusal_early _ hne (by rw [Dev.genericWrite_stk, Dev.genericWrite_sdp, Dev.genericWrite_coach]; exact hcode)
  have htwn : Reg.TWN_STATUS ≠ Reg.CPT_BLKID p + 4 ∧ Reg.TWN_STATUS ≠ Reg.CPT_BLKID p + 8 := by
    simp only [Reg.CPT_BLKID, Reg.TWN_STATUS]
    omega
  have hmem : Reg.CPT_BLKID p + 4 ∉ [Reg.CPT_COMMIT p] ∧ Reg.CPT_BLKID p + 8 ∉ [Reg.CPT_COMMIT p] := by
    simp only [Reg.CPT_BLKID, Reg.CPT_COMMIT, List.mem_singleton]
    omega
  have hlt : code < 2 ^ 16 := by
    subst hcode
    repeat' split
    all_goals decide
  have hframe : Dev.OnlyRegs s.dev (s.dev.quiet.genericWrite (Reg.CPT_COMMIT p) v.toNat) [Reg.CPT_COMMIT p] :=
    (Dev.genericWrite_onlyRegs _ _ _).of_quiet
  obtain ⟨hrefused, honly⟩ := s.done_refuse (Reg.CPT_BLKID p) hlt hframe hmem.1 hmem.2
  refine ⟨_, exec_coachCommit hacc hs hp (Dev.writeCommit_refused h0 hearly) ?_, hrefused, ?_, honly⟩
  · exact (Dev.refuse_reg_other _ _ htwn.1 htwn.2).trans (Dev.genericWrite_reg_other _ _ (coachCommit_apart p).2.2.2.2)
  · rw [State.done_coach, Dev.coach_congr (Dev.refuse_coaches _ _ _), Dev.genericWrite_coach]
    rfl

variable (h0 : bit v.toNat 0 = true) (hr : (s.dev.genericWrite (Reg.CPT_COMMIT p) v.toNat).commitRefusal p (bit v.toNat 1) = none)
include h0 hr

omit hs hp hacc in
/-- The write of a commit that passes its checks, on the device that a command finds. -/
theorem writeCommit_pends : let e := (s.dev.quiet.genericWrite (Reg.CPT_COMMIT p) v.toNat).commitPends p (bit v.toNat 1)
    s.dev.quiet.writeCommit p v.toNat .good = if e.stk.timing == 0 then (e.commitApply p e.firstLatch).updateAdm else e := by
  refine Dev.writeCommit_accepted h0 ?_
  have hquiet : s.dev.quiet.genericWrite (Reg.CPT_COMMIT p) v.toNat = (s.dev.genericWrite (Reg.CPT_COMMIT p) v.toNat).quiet := by
    unfold Dev.genericWrite
    split <;> rfl
  rw [hquiet, Dev.quiet_commitRefusal, hr]

omit hs hp hacc h0 hr in
theorem commitPends_timing : ((s.dev.quiet.genericWrite (Reg.CPT_COMMIT p) v.toNat).commitPends p (bit v.toNat 1)).stk = s.dev.stk := by
  rw [Dev.commitPends_stk, Dev.genericWrite_stk, Dev.quiet_stk]

omit hs hp hacc h0 hr in
theorem commitPends_twnStatus :
    ((s.dev.quiet.genericWrite (Reg.CPT_COMMIT p) v.toNat).commitPends p (bit v.toNat 1)).reg Reg.TWN_STATUS = s.dev.reg Reg.TWN_STATUS := by
  obtain ⟨-, -, hevent, hbell, hcommit⟩ := coachCommit_apart p
  rw [Dev.commitPends_reg_other _ _ _ hevent hbell hcommit, Dev.genericWrite_reg_other _ _ hcommit, Dev.quiet_reg]

/-- While timing runs, a commit that passes its checks waits for its latch point. -/
theorem coachCommit_pends (htiming : s.dev.stk.timing ≠ 0) :
    ∃ t, exec (.coachCommit p v .good) s = .next t ∧ (t.dev.coach p).pending = true ∧
      (t.dev.coach p).target = (if bit v.toNat 1 = true then none
        else some (s.dev.reg (Reg.CPT_COMMIT_TGT_LO p) + 2 ^ 32 * s.dev.reg (Reg.CPT_COMMIT_TGT_HI p))) ∧
      t.dev.flag (Reg.CPT_COMMIT p) Fld.CPT_COMMIT_PENDING = true := by
  have hwrite := writeCommit_pends h0 hr
  dsimp only at hwrite
  rw [commitPends_timing, if_neg (by simpa using htiming)] at hwrite
  have hlo : Reg.CPT_COMMIT_TGT_LO p ≠ Reg.CPT_COMMIT p := pageReg_ne (by decide) _
  have hhi : Reg.CPT_COMMIT_TGT_HI p ≠ Reg.CPT_COMMIT p := pageReg_ne (by decide) _
  refine ⟨_, exec_coachCommit hacc hs hp hwrite commitPends_twnStatus, ?_, ?_, ?_⟩
  · rw [State.done_coach, Dev.commitPends_coach]
  · rw [State.done_coach, Dev.commitPends_coach, Dev.commitTarget, Dev.genericWrite_reg_other _ _ hlo, Dev.genericWrite_reg_other _ _ hhi]
    rfl
  · rw [State.done_flag, Dev.commitPends_flag]

/-- While timing is STOPPED, it is captured at once. -/
theorem coachCommit_captured (htiming : s.dev.stk.timing = 0) :
    ∃ t, exec (.coachCommit p v .good) s = .next t ∧ (t.dev.coach p).pending = false ∧
      t.dev.reg (Reg.CPT_COMMIT_CNT p) = min (s.dev.reg (Reg.CPT_COMMIT_CNT p) + 1) 0xFFFFFFFF := by
  obtain ⟨-, -, -, htwnClocks, htwnBytes, htwnSlack⟩ := twnStatus_apart p
  obtain ⟨-, -, hbell, hcommit, hevent, hclocks, hbytes, hslack⟩ := coachCommitCnt_apart p
  have hwrite := writeCommit_pends h0 hr
  dsimp only at hwrite
  rw [commitPends_timing, if_pos (by simpa using htiming)] at hwrite
  refine ⟨_, exec_coachCommit hacc hs hp hwrite ?_, ?_, ?_⟩
  · rw [(Dev.updateAdm_rest _).2 _ htwnClocks htwnBytes htwnSlack, Dev.commitApply_twnStatus, commitPends_twnStatus]
  · rw [State.done_coach, Dev.coach_congr (Dev.updateAdm_rest _).1, Dev.commitApply_pending]
  · rw [State.done_reg, (Dev.updateAdm_rest _).2 _ hclocks hbytes hslack, Dev.commitApply_counts,
      Dev.commitPends_reg_other _ _ _ hevent hbell hcommit, Dev.genericWrite_reg_other _ _ hcommit, Dev.quiet_reg]

end CommitClauses

/-! ### The obligation -/

/-- Settles O50, from the stages of a write of `CPT_CTRL`, the state that a port enters, and the first three rows of Table 9.9. -/
theorem coachPortsFollowTable910 : Obligations.CoachPortsFollowTable910 := by
  unfold Obligations.CoachPortsFollowTable910
  intro s p
  refine ⟨fun hs hp hacc => ⟨?_, ?_, ?_, ?_⟩, fun h1 hlock => ⟨?_, ?_⟩, trainDone_idle,
    fun hs hp hacc v => ⟨?_, ?_, fun h0 hr => ⟨?_, ?_⟩⟩⟩
  · exact fun _ => coachEn_trains hs hp hacc
  · exact fun _ => coachEn_stops hs hp hacc
  · exact coachRetrain_trains hs hp hacc
  · exact coachRetrain_refused hs hp hacc
  · exact trainDone_runs h1 hlock
  · exact trainDone_holds h1 hlock
  · exact coachCommit_plain hs hp hacc
  · exact fun h0 _ hcode hne => coachCommit_refused hs hp hacc h0 hne hcode
  · exact coachCommit_pends hs hp hacc h0 hr
  · exact coachCommit_captured hs hp hacc h0 hr

end Sys2Proof.Machine

/-! SUPPORT. The frames of a Coach port: their bytes, what a frame leaves of the device, and what publishing the slack does (R204 to R206,
R228). -/

namespace Sys2Proof.Machine

/-! ### A PIXELS payload (R205) -/

/-- The fields of a PIXELS payload as one number: the top `depth` bits of each, the first lowest. -/
def packedFields (depth : Nat) (fields : List Nat) : Nat := fields.foldr (fun f (a : Nat) => a * 2 ^ depth + f / 2 ^ (16 - depth)) 0

theorem packPixels_eq (depth : Nat) (fields : List Nat) :
    packPixels depth fields = leBytes (ceilDiv (fields.length * depth) 8) (packedFields depth fields) := rfl

theorem topBits_lt {depth f : Nat} (hd : depth ≤ 16) (hf : f < 2 ^ 16) : f / 2 ^ (16 - depth) < 2 ^ depth := by
  rw [Nat.div_lt_iff_lt_mul (Nat.two_pow_pos _), ← Nat.pow_add, Nat.add_sub_cancel' hd]
  exact hf

section Packed
variable {depth : Nat} {fields : List Nat} (hd : depth ≤ 16) (hf : ∀ f ∈ fields, f < 2 ^ 16)
include hd hf

theorem packedFields_lt : packedFields depth fields < 2 ^ (fields.length * depth) := by
  induction fields with
  | nil => simp [packedFields]
  | cons f fs ih =>
    have htop := topBits_lt hd (hf f (List.mem_cons_self ..))
    have hrest := ih fun g hg => hf g (List.mem_cons_of_mem _ hg)
    calc packedFields depth (f :: fs) = packedFields depth fs * 2 ^ depth + f / 2 ^ (16 - depth) := rfl
      _ < (packedFields depth fs + 1) * 2 ^ depth := by rw [Nat.succ_mul]; omega
      _ ≤ 2 ^ (fs.length * depth) * 2 ^ depth := Nat.mul_le_mul_right _ hrest
      _ = 2 ^ ((f :: fs).length * depth) := by rw [← Nat.pow_add, List.length_cons, Nat.succ_mul]

theorem packedFields_digit {k : Nat} (hk : k < fields.length) :
    packedFields depth fields / 2 ^ (depth * k) % 2 ^ depth = fields.getD k 0 / 2 ^ (16 - depth) := by
  induction fields generalizing k with
  | nil => exact absurd hk (Nat.not_lt_zero k)
  | cons f fs ih =>
    have htop := topBits_lt hd (hf f (List.mem_cons_self ..))
    have hcons : packedFields depth (f :: fs) = f / 2 ^ (16 - depth) + packedFields depth fs * 2 ^ depth := Nat.add_comm _ _
    cases k with
    | zero => rw [Nat.mul_zero, Nat.pow_zero, Nat.div_one, hcons, Nat.add_mul_mod_self_right, Nat.mod_eq_of_lt htop, List.getD_cons_zero]
    | succ k =>
      have hpow : 2 ^ (depth * (k + 1)) = 2 ^ depth * 2 ^ (depth * k) := by rw [← Nat.pow_add, Nat.mul_succ, Nat.add_comm]
      rw [hpow, ← Nat.div_div_eq_div_mul, hcons, Nat.add_mul_div_right _ _ (Nat.two_pow_pos _), Nat.div_eq_of_lt htop, Nat.zero_add,
        List.getD_cons_succ]
      exact ih (fun g hg => hf g (List.mem_cons_of_mem _ hg)) (Nat.lt_of_succ_lt_succ hk)

/-- A PIXELS payload holds the top bits of each field, in order. -/
theorem leNat_packPixels {k : Nat} (hk : k < fields.length) :
    leNat (packPixels depth fields) / 2 ^ (depth * k) % 2 ^ depth = fields.getD k 0 / 2 ^ (16 - depth) := by
  have hfits : fields.length * depth ≤ 8 * ceilDiv (fields.length * depth) 8 := by
    rw [ceilDiv]
    omega
  have hlt : packedFields depth fields < 256 ^ ceilDiv (fields.length * depth) 8 := by
    calc packedFields depth fields < 2 ^ (fields.length * depth) := packedFields_lt hd hf
      _ ≤ 2 ^ (8 * ceilDiv (fields.length * depth) 8) := Nat.pow_le_pow_right Nat.two_pos hfits
      _ = 256 ^ ceilDiv (fields.length * depth) 8 := Nat.pow_mul 2 8 _
  rw [packPixels_eq, leNat_leBytes, Nat.mod_eq_of_lt hlt, packedFields_digit hd hf hk]

end Packed

/-! ### A frame -/

/-- The bytes of a frame of a port with the given chain and frame number (Table 9.4). -/
def coachFrameBytes (chain seq type_ flags stop depth stroke line x count : Nat) (payload : List Byte) : List Byte :=
  let header := leBytes 1 type_ ++ leBytes 1 flags ++ leBytes 1 stop ++ leBytes 1 depth ++ leBytes 2 stroke ++ leBytes 2 line ++
    leBytes 2 x ++ leBytes 2 count ++ leBytes 2 payload.length ++ leBytes 2 seq ++ List.replicate 16 0
  let fold := leBytes 2 chain ++ leBytes 1 stop ++ [0] ++ leBytes 2 stroke ++ leBytes 2 (if type_ ≤ 2 then line else 0xFFFF)
  header ++ payload ++ leBytes 4 (crc32c (fold ++ header ++ payload))

/-- The frame with the port's own chain and frame number. -/
def Dev.frameBytes (d : Dev) (p type_ flags stop depth stroke line x count : Nat) (payload : List Byte) : List Byte :=
  coachFrameBytes (d.reg (Reg.CPT_CHAIN_ID p)) (d.coach p).seq type_ flags stop depth stroke line x count payload

/-- The port takes the next frame number, and counts a frame that is not an IDLE frame (R204, Table 9.13). -/
def Dev.frameCounted (d : Dev) (p type_ : Nat) : Dev :=
  let d' := d.setCoach p { d.coach p with seq := ((d.coach p).seq + 1) % 2 ^ 16 }
  if type_ == 6 then d' else d'.count (Reg.CPT_FRAME_CNT p)

theorem Dev.coachFrame_eq (d : Dev) (p type_ flags stop depth stroke line x count : Nat) (payload : List Byte) :
    d.coachFrame p type_ flags stop depth stroke line x count payload =
      ((d.frameCounted p type_).emit (.frame p (d.frameBytes p type_ flags stop depth stroke line x count payload))).coachBytes p
        (d.frameBytes p type_ flags stop depth stroke line x count payload) := rfl

/-- Levels that leave a port are codewords of it, and nothing else changes. -/
theorem Dev.sendLevels_eq (d : Dev) (p : Nat) (ws : List (List Nat)) :
    ∃ vs : List (List Nat), d.sendLevels p ws = { d with out := d.out ++ vs.map (.codeword p ·) } := by
  unfold Dev.sendLevels
  dsimp only
  generalize d.txInverted p = inverted
  induction ws generalizing d with
  | nil => exact ⟨[], by simp⟩
  | cons w ws ih =>
    obtain ⟨vs, hvs⟩ := ih (d.emit (.codeword p (if inverted = true then w.map (3 - ·) else w)))
    refine ⟨(if inverted = true then w.map (3 - ·) else w) :: vs, ?_⟩
    rw [List.foldl_cons, hvs, Dev.emit, List.map_cons, List.append_assoc, List.singleton_append]

/-- Bytes that enter a port's lane move the lane and the free values, and send codewords (R200 to R202). -/
theorem Dev.coachBytes_eq (d : Dev) (p : Nat) (bs : List Byte) : ∃ (l : Lane) (n : Nat) (vs : List (List Nat)),
    d.coachBytes p bs = { (d.setCoach p { d.coach p with lane := l }) with free := n, out := d.out ++ vs.map (.codeword p ·) } := by
  unfold Dev.coachBytes
  dsimp only
  generalize Lane.drain _ _ _ = r
  obtain ⟨vs, hvs⟩ := (d.freshNat.2.setCoach p { d.freshNat.2.coach p with lane := r.2 }).sendLevels_eq p r.1
  exact ⟨r.2, d.free + 1, vs, hvs⟩

section Frame
variable (d : Dev) (p type_ flags stop depth stroke line x count : Nat) (payload : List Byte)

/-- What a frame does: it leaves with the codewords that it fills, and the port counts it and goes on with the next number. -/
theorem Dev.coachFrame_spec : ∃ (l : Lane) (n : Nat) (vs : List (List Nat)),
    d.coachFrame p type_ flags stop depth stroke line x count payload =
      { (d.frameCounted p type_).setCoach p { d.coach p with seq := ((d.coach p).seq + 1) % 2 ^ 16, lane := l } with
        free := n
        out := d.out ++ .frame p (d.frameBytes p type_ flags stop depth stroke line x count payload) :: vs.map (.codeword p ·) } := by
  obtain ⟨l, n, vs, h⟩ := Dev.coachBytes_eq
    ((d.frameCounted p type_).emit (.frame p (d.frameBytes p type_ flags stop depth stroke line x count payload))) p
    (d.frameBytes p type_ flags stop depth stroke line x count payload)
  have hout : (d.frameCounted p type_).out = d.out := by
    unfold Dev.frameCounted
    dsimp only
    split <;> rfl
  have hcoach : (d.frameCounted p type_).coach p = { d.coach p with seq := ((d.coach p).seq + 1) % 2 ^ 16 } := by
    unfold Dev.frameCounted
    dsimp only
    split
    · exact Dev.setCoach_coach_same _ _ _
    · exact Dev.setCoach_coach_same d p _
  have hemit (o : Out) : ((d.frameCounted p type_).emit o).coach p = (d.frameCounted p type_).coach p := rfl
  refine ⟨l, n, vs, ?_⟩
  rw [Dev.coachFrame_eq, h, hemit, hcoach, Dev.emit_out, hout, List.append_assoc, List.singleton_append]
  rfl

/-- The frame leaves, and with it the codewords that its bytes fill. -/
theorem Dev.coachFrame_out : ∃ vs : List (List Nat), (d.coachFrame p type_ flags stop depth stroke line x count payload).out =
    d.out ++ .frame p (d.frameBytes p type_ flags stop depth stroke line x count payload) :: vs.map (.codeword p ·) := by
  obtain ⟨l, n, vs, h⟩ := d.coachFrame_spec p type_ flags stop depth stroke line x count payload
  exact ⟨vs, congrArg Dev.out h⟩

/-- The port goes on with the next frame number. -/
theorem Dev.coachFrame_coach : ∃ l : Lane, (d.coachFrame p type_ flags stop depth stroke line x count payload).coach p =
    { d.coach p with seq := ((d.coach p).seq + 1) % 2 ^ 16, lane := l } := by
  obtain ⟨l, n, vs, h⟩ := d.coachFrame_spec p type_ flags stop depth stroke line x count payload
  exact ⟨l, (congrArg (Dev.coach · p) h).trans (Dev.setCoach_coach_same _ p _)⟩

/-- A frame other than an IDLE frame changes the count of frames, the ports, the free values and what has left. -/
theorem Dev.coachFrame_counted (h6 : type_ ≠ 6) : let t := d.coachFrame p type_ flags stop depth stroke line x count payload
    t = { d.count (Reg.CPT_FRAME_CNT p) with coaches := t.coaches, free := t.free, out := t.out } := by
  obtain ⟨l, n, vs, h⟩ := d.coachFrame_spec p type_ flags stop depth stroke line x count payload
  rw [Dev.frameCounted, if_neg (by simpa using h6)] at h
  dsimp only
  rw [h]
  rfl

/-- An IDLE frame changes no register. -/
theorem Dev.coachFrame_idle : let t := d.coachFrame p 6 flags stop depth stroke line x count payload
    t = { d with coaches := t.coaches, free := t.free, out := t.out } := by
  obtain ⟨l, n, vs, h⟩ := d.coachFrame_spec p 6 flags stop depth stroke line x count payload
  dsimp only
  rw [h]
  rfl

end Frame
end Sys2Proof.Machine

/-! SUPPORT. Markers, HOLD, CONFIG and IDLE frames of a Coach port, and the slack that a port publishes (R202, R212, R213, R218, R228). -/

namespace Sys2Proof.Machine

/-! ### What a frame leaves of the device -/

/-- A frame has left a port, and the port goes on with the next frame number. -/
def Dev.Sends (e d : Dev) (p : Nat) (bs : List Byte) : Prop :=
  (∃ ws : List (List Nat), d.out = .frame p bs :: ws.map (.codeword p ·)) ∧ (d.coach p).seq = ((e.coach p).seq + 1) % 2 ^ 16

section Frame
variable (d : Dev) (p : Nat) {type_ : Nat} (flags stop depth stroke line x count : Nat) (payload : List Byte)

theorem Dev.coachFrame_onlyRegs (h6 : type_ ≠ 6) : let t := d.coachFrame p type_ flags stop depth stroke line x count payload
    Dev.OnlyRegs { d with coaches := t.coaches, free := t.free } t [Reg.CPT_FRAME_CNT p] := by
  intro t
  have ht : t = { d.count (Reg.CPT_FRAME_CNT p) with coaches := t.coaches, free := t.free, out := t.out } :=
    d.coachFrame_counted p type_ flags stop depth stroke line x count payload h6
  have hcount := (Dev.OnlyRegs.refl { d with coaches := t.coaches, free := t.free } [Reg.CPT_FRAME_CNT p]).count (List.mem_singleton_self _)
  refine ⟨fun o ho => ?_, ?_⟩
  · rw [ht]
    exact hcount.regs o ho
  · rw [ht]
    rfl

theorem Dev.coachFrame_counts (h6 : type_ ≠ 6) : (d.coachFrame p type_ flags stop depth stroke line x count payload).reg (Reg.CPT_FRAME_CNT p) =
    min (d.reg (Reg.CPT_FRAME_CNT p) + 1) 0xFFFFFFFF := by
  have hcount : (d.count (Reg.CPT_FRAME_CNT p)).reg (Reg.CPT_FRAME_CNT p) = min (d.reg (Reg.CPT_FRAME_CNT p) + 1) 0xFFFFFFFF := by
    rw [Dev.count_reg, if_pos rfl]
  rw [d.coachFrame_counted p type_ flags stop depth stroke line x count payload h6]
  exact hcount

theorem Dev.coachFrame_tap (type_ : Nat) : (d.coachFrame p type_ flags stop depth stroke line x count payload).tap = d.tap :=
  (Dev.coachFrame_keeps (.refl d) p type_ flags stop depth stroke line x count payload).tap

end Frame

/-! ### The end of a command that sends -/

theorem State.done_portFrame {s : State} {d : Dev} {offs : List Nat}
    (h : Dev.OnlyRegs { s.dev.quiet with coaches := d.coaches, free := d.free } d offs) :
    Dev.OnlyRegs { s.dev with coaches := (s.done d).dev.coaches, free := (s.done d).dev.free } (s.done d).dev offs := by
  rw [State.done_dev, Dev.extest_coaches, Dev.extest_free, Dev.latchFault_coaches, Dev.latchFault_free]
  exact (Dev.OnlyRegs.of_quiet (e := { s.dev with coaches := d.coaches, free := d.free }) h).done s

theorem State.done_portBell {s : State} {d : Dev} {offs : List Nat}
    (h : Dev.OnlyBell { s.dev.quiet with coaches := d.coaches, free := d.free } d offs) :
    Dev.OnlyBell { s.dev with coaches := (s.done d).dev.coaches, free := (s.done d).dev.free } (s.done d).dev offs := by
  rw [State.done_dev, Dev.extest_coaches, Dev.extest_free, Dev.latchFault_coaches, Dev.latchFault_free]
  exact (Dev.OnlyBell.of_quiet (e := { s.dev with coaches := d.coaches, free := d.free }) h).done s

theorem State.done_sends {s : State} {d : Dev} {p : Nat} {bs : List Byte} (htap : s.dev.tap ≠ .extest) (hkeep : d.tap = s.dev.tap)
    (hout : ∃ ws : List (List Nat), d.out = .frame p bs :: ws.map (.codeword p ·)) (hseq : (d.coach p).seq = ((s.dev.coach p).seq + 1) % 2 ^ 16) :
    Dev.Sends s.dev (s.done d).dev p bs := by
  refine ⟨?_, by rw [State.done_coach, hseq]⟩
  rw [State.done_out (by rwa [hkeep])]
  exact hout

/-- A frame that a port sends of a device whose outputs are gone, with what the command counts after it. -/
theorem State.done_coachFrame {s : State} {p : Nat} (htap : s.dev.tap ≠ .extest) (c : Coach) {type_ : Nat} (h6 : type_ ≠ 6)
    (flags stop depth stroke line x count : Nat) (payload : List Byte) (hseq : c.seq = (s.dev.coach p).seq) :
    let f := (s.dev.quiet.setCoach p c).coachFrame p type_ flags stop depth stroke line x count payload
    let t := (s.done f).dev
    Dev.Sends s.dev t p (s.dev.frameBytes p type_ flags stop depth stroke line x count payload) ∧
      t.reg (Reg.CPT_FRAME_CNT p) = min (s.dev.reg (Reg.CPT_FRAME_CNT p) + 1) 0xFFFFFFFF ∧
      t.coach p = { c with seq := ((s.dev.coach p).seq + 1) % 2 ^ 16, lane := (t.coach p).lane } ∧
      Dev.OnlyRegs { s.dev with coaches := t.coaches, free := t.free } t [Reg.CPT_FRAME_CNT p] := by
  intro f t
  have hset : (s.dev.quiet.setCoach p c).coach p = c := Dev.setCoach_coach_same _ _ _
  obtain ⟨ws, hout⟩ := (s.dev.quiet.setCoach p c).coachFrame_out p type_ flags stop depth stroke line x count payload
  obtain ⟨l, hcoach⟩ := (s.dev.quiet.setCoach p c).coachFrame_coach p type_ flags stop depth stroke line x count payload
  have hbytes : (s.dev.quiet.setCoach p c).frameBytes p type_ flags stop depth stroke line x count payload =
      s.dev.frameBytes p type_ flags stop depth stroke line x count payload := by
    rw [Dev.frameBytes, Dev.frameBytes, hset, hseq]
    rfl
  rw [hset, hseq] at hcoach
  rw [hbytes] at hout
  refine ⟨State.done_sends htap (Dev.coachFrame_tap _ _ _ _ _ _ _ _ _ _ _) ⟨ws, hout⟩ (congrArg Coach.seq hcoach), ?_, ?_, ?_⟩
  · exact (State.done_reg _ _ _).trans (Dev.coachFrame_counts _ _ _ _ _ _ _ _ _ _ h6)
  · have hdone : t.coach p = f.coach p := State.done_coach _ _ _
    rw [hdone, hcoach]
  · exact State.done_portFrame (Dev.coachFrame_onlyRegs (s.dev.quiet.setCoach p c) p flags stop depth stroke line x count payload h6)

/-! ### The stroke that a port sends next -/

/-- `NEXT` rests on where the port stands, and not on its marker, its HOLD frame or its CONFIG frames. -/
theorem Dev.coachNext_setCoach (d : Dev) (p : Nat) {c : Coach} (hstate : c.state = (d.coach p).state) (hnext : c.next = (d.coach p).next)
    (hwithdrawn : c.withdrawn = (d.coach p).withdrawn) : (d.setCoach p c).coachNext p = d.coachNext p := by
  have htarget : (d.setCoach p c).coachTarget p = d.coachTarget p := by
    rw [Dev.coachTarget, Dev.setCoach_coach_same, hnext]
    rfl
  unfold Dev.coachNext
  dsimp only
  rw [htarget, Dev.setCoach_coach_same, hstate, hnext, hwithdrawn]
  rfl

/-! ### Markers (R213) -/

section Marker
variable {d : Dev} {p : Nat}

/-- The payload of a stroke marker (Table 9.6). -/
def Dev.markerPayload (d : Dev) (p delay m : Nat) : List Byte :=
  leBytes 4 ((((d.captureFor m).map (·.show_)).getD []).getD d.stk.phase 0) ++ leBytes 4 delay ++ leBytes 2 (d.coachNext p) ++
    leBytes 1 d.stk.phase ++ [0] ++ leBytes 4 d.stk.cframe

theorem Dev.strokeMarker_sends (delay : Nat) {m : Nat} (h2 : (d.coach p).state = 2) (hm : (d.coach p).marker = some m) :
    d.strokeMarker p delay = ((d.setCoach p { d.coach p with marker := none }).coachFrame p 3 0 0xFF 0 (m % 2 ^ 16) 0 0 0
      (d.markerPayload p delay m)).count (Reg.CPT_MARKER_CNT p) := by
  have hnext := d.coachNext_setCoach p (c := { d.coach p with marker := none }) rfl rfl rfl
  have hzero : leBytes 1 0 = [0] := rfl
  unfold Dev.strokeMarker Dev.markerPayload
  dsimp only
  split
  · next m' _ hm' =>
    obtain rfl : m = m' := Option.some.inj (hm.symm.trans hm')
    rw [hnext, hzero]
    cases d.captureFor m <;> rfl
  · next hno => exact absurd hm (hno m h2)

theorem Dev.strokeMarker_idle (delay : Nat) (h : (d.coach p).state ≠ 2 ∨ (d.coach p).marker = none) : d.strokeMarker p delay = d := by
  unfold Dev.strokeMarker
  dsimp only
  split
  · next h2 hm => simp [h2, hm] at h
  · rfl

end Marker

/-! ### HOLD frames (R218) -/

theorem Dev.holdFrame_sends {d : Dev} {p : Nat} (h3 : (d.coach p).state = 3) : d.holdFrame p =
    (d.setCoach p { d.coach p with holdDue := false }).coachFrame p 4 0 0xFF 0 0 0 0 0 (leBytes 2 (d.coachNext p) ++ [0, 0]) :=
  if_neg (by simp [h3])

theorem Dev.holdFrame_idle {d : Dev} {p : Nat} (h3 : (d.coach p).state ≠ 3) : d.holdFrame p = d := if_pos (by simpa using h3)

/-! ### CONFIG frames (R212) -/

/-- The payload of a CONFIG frame (Table 9.7). -/
def configPayload (eff : Nat) (st : Stop) : List Byte :=
  [1, 0] ++ leBytes 2 eff ++ leBytes 2 (st.w - 1) ++ leBytes 2 (st.h - 1) ++ leBytes 1 st.depth ++
    leBytes 1 (st.splitG - 1 + 8 * st.splitI) ++ leBytes 1 st.buf ++ leBytes 1 (if st.holdOk then 1 else 0) ++
    leBytes 4 st.path ++ List.replicate 16 0

/-- The stroke from which a CONFIG frame has effect: the later of the one asked for and the next that the port sends. -/
def Dev.configEff (d : Dev) (p due : Nat) : Nat := if strokeGe due (d.coachNext p) then due else d.coachNext p

section Config
variable {d : Dev} {p : Nat}

section Due
variable {a due : Nat} {more : List (Nat × Nat)} (h2 : 2 ≤ (d.coach p).state) (hm : (d.coach p).marker = none)
  (hh : (d.coach p).holdDue = false) (hc : (d.coach p).configs = (a, due) :: more)
include h2 hm hh hc

theorem Dev.configFrame_due : d.configFrame p =
    match stopAt (d.versionFor (d.configEff p due)) p a with
    | none => d.setCoach p { d.coach p with configs := more }
    | some st => (d.setCoach p { d.coach p with configs := more }).coachFrame p 5 0 st.addr 0 0 0 0 0 (configPayload (d.configEff p due) st) := by
  have hwaits : (decide ((d.coach p).state < 2) || (d.coach p).marker.isSome || (d.coach p).holdDue) = false := by
    simp [hm, hh, Nat.not_lt.mpr h2]
  unfold Dev.configFrame
  dsimp only
  rw [hwaits, hc]
  rfl

end Due

theorem Dev.configFrame_idle (h : (d.coach p).state < 2 ∨ (d.coach p).configs = [] ∨ (d.coach p).marker ≠ none ∨ (d.coach p).holdDue = true) :
    d.configFrame p = d := by
  unfold Dev.configFrame
  dsimp only
  split
  · rfl
  · rfl
  · next hcs hno =>
    simp only [Bool.or_eq_false_iff, decide_eq_false_iff_not] at hno
    obtain ⟨⟨h2, hm⟩, hh⟩ := hno
    rcases h with h | h | h | h
    · exact absurd h h2
    · simp [hcs] at h
    · exact absurd (by simpa using hm) h
    · simp [hh] at h

end Config

/-! ### Those commands -/

section Clauses
variable {s : State} {p : Fin 128}

theorem exec_strokeMarker (s : State) (p : Fin 128) (delay : Nat) :
    exec (.strokeMarker p delay) s = .next (s.done (s.dev.quiet.strokeMarker p delay)) := rfl

theorem exec_hold (s : State) (p : Fin 128) : exec (.hold p) s = .next (s.done (s.dev.quiet.holdFrame p)) := rfl

theorem exec_config (s : State) (p : Fin 128) : exec (.config p) s = .next (s.done (s.dev.quiet.configFrame p)) := rfl

theorem strokeMarker_idle (delay : Nat) (h : (s.dev.coach p).state ≠ 2 ∨ (s.dev.coach p).marker = none) :
    ∃ t, exec (.strokeMarker p delay) s = .next t ∧ Dev.OnlyRegs s.dev t.dev [] :=
  State.unmoved (exec_strokeMarker s p delay) (Dev.strokeMarker_idle (d := s.dev.quiet) delay h)

theorem hold_idle (h : (s.dev.coach p).state ≠ 3) : ∃ t, exec (.hold p) s = .next t ∧ Dev.OnlyRegs s.dev t.dev [] :=
  State.unmoved (exec_hold s p) (Dev.holdFrame_idle (d := s.dev.quiet) h)

theorem config_idle (h : (s.dev.coach p).state < 2 ∨ (s.dev.coach p).configs = [] ∨ (s.dev.coach p).marker ≠ none ∨
    (s.dev.coach p).holdDue = true) : ∃ t, exec (.config p) s = .next t ∧ Dev.OnlyRegs s.dev t.dev [] :=
  State.unmoved (exec_config s p) (Dev.configFrame_idle (d := s.dev.quiet) h)

theorem hold_sends (htap : s.dev.tap ≠ .extest) (h3 : (s.dev.coach p).state = 3) : ∃ t, exec (.hold p) s = .next t ∧
    Dev.Sends s.dev t.dev p (s.dev.frameBytes p 4 0 0xFF 0 0 0 0 0 (leBytes 2 (s.dev.coachNext p) ++ [0, 0])) ∧
    t.dev.reg (Reg.CPT_FRAME_CNT p) = min (s.dev.reg (Reg.CPT_FRAME_CNT p) + 1) 0xFFFFFFFF ∧
    t.dev.coach p = { s.dev.coach p with
      holdDue := false, seq := ((s.dev.coach p).seq + 1) % 2 ^ 16, lane := (t.dev.coach p).lane } ∧
    Dev.OnlyRegs { s.dev with coaches := t.dev.coaches, free := t.dev.free } t.dev [Reg.CPT_FRAME_CNT p] := by
  refine ⟨_, exec_hold s p, ?_⟩
  rw [Dev.holdFrame_sends (d := s.dev.quiet) h3]
  exact State.done_coachFrame htap { s.dev.coach p with holdDue := false } (by decide) _ _ _ _ _ _ _ _ rfl

section Config
variable {a due : Nat} {more : List (Nat × Nat)} (h2 : 2 ≤ (s.dev.coach p).state) (hm : (s.dev.coach p).marker = none)
  (hh : (s.dev.coach p).holdDue = false) (hc : (s.dev.coach p).configs = (a, due) :: more)
include h2 hm hh hc

theorem config_sends (htap : s.dev.tap ≠ .extest) {st : Stop}
    (hst : stopAt (s.dev.versionFor (s.dev.configEff p due)) p a = some st) : ∃ t, exec (.config p) s = .next t ∧
    Dev.Sends s.dev t.dev p (s.dev.frameBytes p 5 0 st.addr 0 0 0 0 0 (configPayload (s.dev.configEff p due) st)) ∧
    t.dev.reg (Reg.CPT_FRAME_CNT p) = min (s.dev.reg (Reg.CPT_FRAME_CNT p) + 1) 0xFFFFFFFF ∧
    t.dev.coach p = { s.dev.coach p with
      configs := more, seq := ((s.dev.coach p).seq + 1) % 2 ^ 16, lane := (t.dev.coach p).lane } ∧
    Dev.OnlyRegs { s.dev with coaches := t.dev.coaches, free := t.dev.free } t.dev [Reg.CPT_FRAME_CNT p] := by
  have hquiet : stopAt (s.dev.quiet.versionFor (s.dev.quiet.configEff p due)) p a = some st := hst
  refine ⟨_, exec_config s p, ?_⟩
  rw [Dev.configFrame_due (d := s.dev.quiet) h2 hm hh hc, hquiet]
  exact State.done_coachFrame htap { s.dev.coach p with configs := more } (by decide) _ _ _ _ _ _ _ _ rfl

theorem config_dropped (hst : stopAt (s.dev.versionFor (s.dev.configEff p due)) p a = none) : ∃ t, exec (.config p) s = .next t ∧
    t.dev.out = [] ∧ t.dev.coach p = { s.dev.coach p with configs := more } ∧
    Dev.OnlyRegs { s.dev with coaches := t.dev.coaches, free := t.dev.free } t.dev [] := by
  have hquiet : stopAt (s.dev.quiet.versionFor (s.dev.quiet.configEff p due)) p a = none := hst
  refine ⟨_, exec_config s p, ?_⟩
  rw [Dev.configFrame_due (d := s.dev.quiet) h2 hm hh hc, hquiet]
  refine ⟨State.done_out_nil rfl s, ?_, State.done_portFrame (.refl _ _)⟩
  rw [State.done_coach]
  exact Dev.setCoach_coach_same _ _ _

end Config

theorem strokeMarker_sends (htap : s.dev.tap ≠ .extest) (delay : Nat) {m : Nat} (h2 : (s.dev.coach p).state = 2)
    (hm : (s.dev.coach p).marker = some m) : ∃ t, exec (.strokeMarker p delay) s = .next t ∧
    Dev.Sends s.dev t.dev p (s.dev.frameBytes p 3 0 0xFF 0 (m % 2 ^ 16) 0 0 0 (s.dev.markerPayload p delay m)) ∧
    t.dev.reg (Reg.CPT_FRAME_CNT p) = min (s.dev.reg (Reg.CPT_FRAME_CNT p) + 1) 0xFFFFFFFF ∧
    t.dev.coach p = { s.dev.coach p with
      marker := none, seq := ((s.dev.coach p).seq + 1) % 2 ^ 16, lane := (t.dev.coach p).lane } ∧
    t.dev.reg (Reg.CPT_MARKER_CNT p) = min (s.dev.reg (Reg.CPT_MARKER_CNT p) + 1) 0xFFFFFFFF ∧
    Dev.OnlyRegs { s.dev with coaches := t.dev.coaches, free := t.dev.free } t.dev [Reg.CPT_FRAME_CNT p, Reg.CPT_MARKER_CNT p] := by
  have hne : Reg.CPT_FRAME_CNT p ≠ Reg.CPT_MARKER_CNT p := pageReg_ne (by decide) _
  obtain ⟨⟨hout, hseq⟩, hframes, hcoach, -⟩ := State.done_coachFrame (s := s) (p := p) htap { s.dev.coach p with marker := none } (type_ := 3)
    (by decide) 0 0xFF 0 (m % 2 ^ 16) 0 0 0 (s.dev.markerPayload p delay m) rfl
  have honly := Dev.coachFrame_onlyRegs (s.dev.quiet.setCoach p { s.dev.coach p with marker := none }) p (type_ := 3) 0 0xFF 0
    (m % 2 ^ 16) 0 0 0 (s.dev.markerPayload p delay m) (by decide)
  have hkeep := Dev.coachFrame_tap (s.dev.quiet.setCoach p { s.dev.coach p with marker := none }) p 0 0xFF 0
    (m % 2 ^ 16) 0 0 0 (s.dev.markerPayload p delay m) 3
  refine ⟨_, exec_strokeMarker s p delay, ?_⟩
  rw [Dev.strokeMarker_sends (d := s.dev.quiet) delay h2 hm]
  have hpayload : s.dev.quiet.markerPayload p delay m = s.dev.markerPayload p delay m := rfl
  have hquiet : s.dev.quiet.coach p = s.dev.coach p := rfl
  rw [hpayload, hquiet]
  generalize (s.dev.quiet.setCoach p { s.dev.coach p with marker := none }).coachFrame p 3 0 0xFF 0 (m % 2 ^ 16) 0 0 0
    (s.dev.markerPayload p delay m) = f at *
  have htap' : f.tap ≠ .extest := by rw [hkeep]; exact htap
  have hdone : (s.done (f.count (Reg.CPT_MARKER_CNT p))).dev.coach p = (s.done f).dev.coach p := by
    rw [State.done_coach, State.done_coach]
    rfl
  refine ⟨⟨?_, by rw [hdone, hseq]⟩, ?_, by rw [hdone]; exact hcoach, ?_, ?_⟩
  · rw [State.done_out (by rw [Dev.count_tap]; exact htap'), Dev.count_out, ← State.done_out htap' s]
    exact hout
  · rw [State.done_reg, Dev.count_reg_other _ hne, ← State.done_reg s, hframes]
  · rw [State.done_reg, Dev.count_reg, if_pos rfl, honly.regs _ (by simpa using hne.symm)]
    rfl
  · exact State.done_portFrame ((honly.mono (List.cons_subset_cons _ (List.nil_subset _))).count
      (List.mem_cons_of_mem _ (List.mem_singleton_self _)))

end Clauses

end Sys2Proof.Machine

/-! SUPPORT. The slack that a Coach port publishes, and IDLE frames (R202, R228). -/

namespace Sys2Proof.Machine

/-! ### Publishing the slack (R228) -/

/-- The registers that publishing a port's slack can touch. -/
def slackRegs (p : Nat) : List Nat := [Reg.CPT_SLACK p, Reg.CPT_EVENT p, Reg.CPT_SLACK_LOW_CNT p]

theorem Dev.publishSlack_onlyBell (d : Dev) (p ns : Nat) : Dev.OnlyBell d (d.publishSlack p ns) (slackRegs p) := by
  have hset : Dev.OnlyRegs d (d.setReg (Reg.CPT_SLACK p) (min ns slackIdle)) (slackRegs p) :=
    (Dev.OnlyRegs.refl _ _).setReg (List.mem_cons_self ..) _
  have hevent : Reg.CPT_EVENT p ∈ slackRegs p := by simp [slackRegs]
  have hlow : Reg.CPT_SLACK_LOW_CNT p ∈ slackRegs p := by simp [slackRegs]
  unfold Dev.publishSlack
  dsimp only
  split
  · exact ((hset.setReg hevent _).count hlow).raise _
  · exact hset.onlyBell

theorem Dev.publishSlack_slack (d : Dev) (p ns : Nat) : (d.publishSlack p ns).reg (Reg.CPT_SLACK p) = min ns 0x3FFFFFF := by
  have hbell : Reg.CPT_SLACK p ≠ Reg.BEL_UNROUTED_CNT := pageReg_ne_low (by decide) _
  have hlow : Reg.CPT_SLACK p ≠ Reg.CPT_SLACK_LOW_CNT p := pageReg_ne (by decide) _
  have hevent : Reg.CPT_SLACK p ≠ Reg.CPT_EVENT p := pageReg_ne (by decide) _
  have hset : (d.setReg (Reg.CPT_SLACK p) (min ns slackIdle)).reg (Reg.CPT_SLACK p) = min ns 0x3FFFFFF := by
    rw [Dev.setReg_reg, if_pos rfl, slackIdle]
    omega
  unfold Dev.publishSlack
  dsimp only
  split
  · rw [Dev.coachSource, Dev.raise_reg_other _ _ hbell, Dev.count_reg_other _ hlow, Dev.setFlag_reg_other _ _ hevent, hset]
  · exact hset

theorem Dev.publishSlack_out (d : Dev) (p ns : Nat) : (d.publishSlack p ns).out = d.out := by
  unfold Dev.publishSlack
  dsimp only
  split
  · rw [Dev.coachSource, Dev.raise_out]
    rfl
  · rfl

/-- What a port's slack reads once it is published. -/
def Dev.slackShown (d : Dev) (p buffered wait : Nat) : Nat :=
  if d.coachSends p then min (buffered * 1000 / 13125 + if d.waitsOpen p then wait else 0) 0x3FFFFFF else d.reg (Reg.CPT_SLACK p)

theorem Dev.coachSlack_spec (d : Dev) (p buffered wait : Nat) : Dev.OnlyBell d (d.coachSlack p buffered wait) (slackRegs p) ∧
    (d.coachSlack p buffered wait).reg (Reg.CPT_SLACK p) = d.slackShown p buffered wait ∧ (d.coachSlack p buffered wait).out = d.out := by
  unfold Dev.coachSlack Dev.slackShown
  split
  · exact ⟨d.publishSlack_onlyBell p _, d.publishSlack_slack p _, d.publishSlack_out p _⟩
  · exact ⟨(Dev.OnlyRegs.refl _ _).onlyBell, rfl, rfl⟩

/-! ### What the slack leaves as it was -/

/-- A device that differs in registers, outputs, the Bellboard and what has been alerted, written out. -/
theorem Dev.OnlyBell.eq {e d : Dev} {offs : List Nat} (h : Dev.OnlyBell e d offs) : d = { e with
    regs := d.regs, out := d.out, bel := d.bel, sdp := { e.sdp with alert := d.sdp.alert, faultWas := d.sdp.faultWas } } :=
  congrArg (fun x : Dev => { x with
    regs := d.regs, out := d.out, bel := d.bel, sdp := { x.sdp with alert := d.sdp.alert, faultWas := d.sdp.faultWas } }) h.rest

theorem Dev.OnlyBell.tap {e d : Dev} {offs : List Nat} (h : Dev.OnlyBell e d offs) : d.tap = e.tap := by rw [h.eq]

theorem not_slackRegs (p : Nat) : Reg.CPT_CTRL p ∉ Reg.BEL_UNROUTED_CNT :: slackRegs p ∧
    Reg.DEP_STATUS ∉ Reg.BEL_UNROUTED_CNT :: slackRegs p ∧
    ∀ k < 4, Reg.CKG_SPLL_STATUS k ∉ Reg.BEL_UNROUTED_CNT :: slackRegs p := by
  simp only [slackRegs, Reg.CPT_CTRL, Reg.DEP_STATUS, Reg.CKG_SPLL_STATUS, Reg.BEL_UNROUTED_CNT, Reg.CPT_SLACK, Reg.CPT_EVENT,
    Reg.CPT_SLACK_LOW_CNT, List.mem_cons, List.not_mem_nil, or_false, not_or]
  exact ⟨by omega, by omega, fun k hk => by omega⟩

section Slack
variable {e d : Dev} {p : Nat} (h : Dev.OnlyBell e d (slackRegs p))
include h

theorem Dev.OnlyBell.slack_holdOther : d.holdOther p = e.holdOther p := by
  obtain ⟨hctrl, hbridge, hpll⟩ := not_slackRegs p
  have hflag : d.flag (Reg.CPT_CTRL p) Fld.CPT_CTRL_HOLD = e.flag (Reg.CPT_CTRL p) Fld.CPT_CTRL_HOLD := Dev.flag_congr (h.regs _ hctrl) _
  have hdown : d.bridgeIsDown = e.bridgeIsDown := Dev.flag_congr (h.regs _ hbridge) _
  have hfailed : d.pllFailed = e.pllFailed := by
    rw [Dev.pllFailed, Bool.eq_iff_iff, List.any_eq_true, Dev.pllFailed, List.any_eq_true]
    refine exists_congr fun k => and_congr_right fun hk => ?_
    rw [h.regs _ (hpll k (List.mem_range.mp hk))]
  rw [Dev.holdOther, hflag, hdown, hfailed, h.eq]
  rfl

theorem Dev.OnlyBell.slack_coachSends : d.coachSends p = e.coachSends p := by
  rw [Dev.coachSends, h.slack_holdOther, h.eq]
  rfl

theorem Dev.OnlyBell.slack_coachReady : d.coachReady p = e.coachReady p := by
  unfold Dev.coachReady
  dsimp only
  rw [h.slack_coachSends, h.eq]
  rfl

theorem Dev.OnlyBell.slack_coachWaits : d.coachWaits p = e.coachWaits p := by
  unfold Dev.coachWaits
  dsimp only
  rw [h.slack_coachSends, h.slack_coachReady, h.eq]
  rfl

theorem Dev.OnlyBell.slack_coach (q : Nat) : d.coach q = e.coach q := Dev.coach_congr (congrArg Dev.coaches h.rest) q

/-- A frame after the slack carries what the port stood at before it. -/
theorem Dev.OnlyBell.slack_frameBytes (type_ flags stop depth stroke line x count : Nat) (payload : List Byte) :
    d.frameBytes p type_ flags stop depth stroke line x count payload = e.frameBytes p type_ flags stop depth stroke line x count payload := by
  have hchain : Reg.CPT_CHAIN_ID p ∉ Reg.BEL_UNROUTED_CNT :: slackRegs p := by
    simp only [slackRegs, Reg.CPT_CHAIN_ID, Reg.BEL_UNROUTED_CNT, Reg.CPT_SLACK, Reg.CPT_EVENT, Reg.CPT_SLACK_LOW_CNT, List.mem_cons,
      List.not_mem_nil, or_false, not_or]
    omega
  rw [Dev.frameBytes, h.regs _ hchain, h.slack_coach, Dev.frameBytes]

/-- An IDLE frame after the slack. -/
theorem Dev.OnlyBell.slack_idle (flags stop depth stroke line x count : Nat) (payload : List Byte) :
    let t := d.coachFrame p 6 flags stop depth stroke line x count payload
    Dev.OnlyBell { e with coaches := t.coaches, free := t.free } t (slackRegs p) ∧ t.reg (Reg.CPT_SLACK p) = d.reg (Reg.CPT_SLACK p) := by
  intro t
  have ht : t = { d with coaches := t.coaches, free := t.free, out := t.out } := d.coachFrame_idle p flags stop depth stroke line x count payload
  have hreg (o : Nat) : t.reg o = d.reg o := by
    rw [ht]
    rfl
  refine ⟨⟨fun o ho => (hreg o).trans (h.regs o ho), ?_⟩, hreg _⟩
  rw [ht]
  exact congrArg (fun y : Dev => { y with coaches := t.coaches, free := t.free }) h.rest

end Slack

/-! ### A command that publishes the slack alone -/

/-- A command that publishes the slack and sends nothing. -/
theorem State.done_slack (s : State) (p : Nat) (buffered wait : Nat) :
    (s.done (s.dev.quiet.coachSlack p buffered wait)).dev.reg (Reg.CPT_SLACK p) = s.dev.slackShown p buffered wait ∧
      Dev.OnlyBell s.dev (s.done (s.dev.quiet.coachSlack p buffered wait)).dev (slackRegs p) := by
  obtain ⟨hbell, hslack, -⟩ := s.dev.quiet.coachSlack_spec p buffered wait
  exact ⟨(State.done_reg _ _ _).trans hslack, (Dev.OnlyBell.of_quiet (e := s.dev) hbell).done s⟩

theorem State.slackAlone {s : State} {c : Instr} {d : Dev} {p : Nat} {buffered wait : Nat} (hc : exec c s = .next (s.done d))
    (h : d = s.dev.quiet.coachSlack p buffered wait) : ∃ t, exec c s = .next t ∧
      t.dev.reg (Reg.CPT_SLACK p) = s.dev.slackShown p buffered wait ∧ Dev.OnlyBell s.dev t.dev (slackRegs p) :=
  ⟨_, hc, h ▸ s.done_slack p buffered wait⟩

/-! ### IDLE frames (R202) -/

section Idle
variable {s : State} {p : Fin 128}

theorem exec_idle (s : State) (p : Fin 128) (n : Nat) (buffered : Fin 65537) (wait : Nat) : exec (.idle p n buffered wait) s =
    .next (s.done ((s.dev.quiet.coachSlack p buffered wait).idleFrame p n)) := rfl

theorem Dev.idleFrame_waits {d : Dev} {p : Nat} (n : Nat) (h : (d.coach p).state < 2 ∨ d.coachWaits p = true) : d.idleFrame p n = d :=
  if_pos (by simpa using h)

theorem Dev.idleFrame_sends {d : Dev} {p : Nat} (n : Nat) (h2 : 2 ≤ (d.coach p).state) (h : d.coachWaits p = false) :
    d.idleFrame p n = d.coachFrame p 6 0 0xFF 0 0 0 0 0 (List.replicate n 0) := if_neg (by simp [h, Nat.not_lt.mpr h2])

theorem idle_waits (n : Nat) (buffered : Fin 65537) (wait : Nat) (h : (s.dev.coach p).state < 2 ∨ s.dev.coachWaits p = true) :
    ∃ t, exec (.idle p n buffered wait) s = .next t ∧ t.dev.reg (Reg.CPT_SLACK p) = s.dev.slackShown p buffered wait ∧
      Dev.OnlyBell s.dev t.dev (slackRegs p) := by
  obtain ⟨hbell, -⟩ := s.dev.quiet.coachSlack_spec p buffered wait
  exact State.slackAlone (exec_idle s p n buffered wait)
    (Dev.idleFrame_waits n (by rw [hbell.slack_coach, hbell.slack_coachWaits]; exact h))

theorem idle_sends (htap : s.dev.tap ≠ .extest) (n : Nat) (buffered : Fin 65537) (wait : Nat) (h2 : 2 ≤ (s.dev.coach p).state)
    (h : s.dev.coachWaits p = false) : ∃ t, exec (.idle p n buffered wait) s = .next t ∧
      Dev.Sends s.dev t.dev p (s.dev.frameBytes p 6 0 0xFF 0 0 0 0 0 (List.replicate n 0)) ∧
      t.dev.reg (Reg.CPT_SLACK p) = s.dev.slackShown p buffered wait ∧
      t.dev.coach p = { s.dev.coach p with seq := ((s.dev.coach p).seq + 1) % 2 ^ 16, lane := (t.dev.coach p).lane } ∧
      Dev.OnlyBell { s.dev with coaches := t.dev.coaches, free := t.dev.free } t.dev (slackRegs p) := by
  obtain ⟨hbell, hslack, hquiet⟩ := s.dev.quiet.coachSlack_spec p buffered wait
  have hsends := Dev.idleFrame_sends (d := s.dev.quiet.coachSlack p buffered wait) (p := p) n (by rw [hbell.slack_coach]; exact h2)
    (by rw [hbell.slack_coachWaits]; exact h)
  obtain ⟨ws, hout⟩ := (s.dev.quiet.coachSlack p buffered wait).coachFrame_out p 6 0 0xFF 0 0 0 0 0 (List.replicate n 0)
  obtain ⟨l, hcoach⟩ := (s.dev.quiet.coachSlack p buffered wait).coachFrame_coach p 6 0 0xFF 0 0 0 0 0 (List.replicate n 0)
  obtain ⟨honly, hkeep⟩ := hbell.slack_idle 0 0xFF 0 0 0 0 0 (List.replicate n 0)
  have htap' := ((s.dev.quiet.coachSlack p buffered wait).coachFrame_tap p 0 0xFF 0 0 0 0 0 (List.replicate n 0) 6).trans hbell.tap
  rw [hquiet, hbell.slack_frameBytes] at hout
  rw [hbell.slack_coach] at hcoach
  refine ⟨_, exec_idle s p n buffered wait, ?_⟩
  rw [hsends]
  refine ⟨State.done_sends htap htap' ⟨ws, hout⟩ (congrArg Coach.seq hcoach), ?_, ?_, State.done_portBell honly⟩
  · rw [State.done_reg, hkeep, hslack]
    rfl
  · rw [State.done_coach, hcoach]
    rfl

end Idle
end Sys2Proof.Machine

/-! SUPPORT. What happens around a frame of a Coach port: the checks of what it reads, and what it counts for its strokes and witnesses. -/

namespace Sys2Proof.Machine

/-! ### Steps that leave what a port sends with -/

/-- The registers of a port that a frame and its slack speak of. -/
def frameRegs (p : Nat) : List Nat := [Reg.CPT_CHAIN_ID p, Reg.CPT_FRAME_CNT p, Reg.CPT_SKIP_CNT p, Reg.CPT_SLACK p]

theorem not_frameRegs_low {a : Nat} (h : a < 0x12000000) (p : Nat) : a ∉ frameRegs p := by
  simp only [frameRegs, Reg.CPT_CHAIN_ID, Reg.CPT_FRAME_CNT, Reg.CPT_SKIP_CNT, Reg.CPT_SLACK, List.mem_cons, List.not_mem_nil, or_false, not_or]
  omega

theorem frameRegs_high {p k : Nat} (h : k ∈ frameRegs p) : 0x12000000 ≤ k :=
  Nat.le_of_not_lt fun hlt => not_frameRegs_low hlt p h

theorem not_frameRegs_underrun (p : Nat) : Reg.CPT_UNDERRUN p ∉ frameRegs p ∧ Reg.CPT_EVENT p ∉ frameRegs p := by
  simp only [frameRegs, Reg.CPT_CHAIN_ID, Reg.CPT_FRAME_CNT, Reg.CPT_SKIP_CNT, Reg.CPT_SLACK, Reg.CPT_UNDERRUN, Reg.CPT_EVENT, List.mem_cons,
    List.not_mem_nil, or_false, not_or]
  omega

/-- The witnesses that a port has are those of R227. -/
def Coach.WitsIn (c : Coach) : Prop := ∀ w ∈ c.wits, w.1 < 64

/-- Nothing has left the device, and port `p` has counted no frame; the bytes of memory and staging are as they were. -/
structure Dev.PortKept (p : Nat) (e d : Dev) : Prop where
  regs : ∀ k ∈ frameRegs p, d.reg k = e.reg k
  out : d.out = e.out
  tap : d.tap = e.tap
  mem : d.mem = e.mem
  staging : d.staging = e.staging
  seq : (d.coach p).seq = (e.coach p).seq
  wits : (e.coach p).WitsIn → (d.coach p).WitsIn

namespace Dev.PortKept

theorem refl (p : Nat) (d : Dev) : Dev.PortKept p d d := ⟨fun _ _ => rfl, rfl, rfl, rfl, rfl, rfl, id⟩

theorem trans {p : Nat} {a b c : Dev} (h : Dev.PortKept p a b) (k : Dev.PortKept p b c) : Dev.PortKept p a c :=
  ⟨fun o ho => (k.regs o ho).trans (h.regs o ho), k.out.trans h.out, k.tap.trans h.tap, k.mem.trans h.mem, k.staging.trans h.staging,
    k.seq.trans h.seq, fun hw => k.wits (h.wits hw)⟩

theorem foldl {p : Nat} {α : Type} {f : Dev → α → Dev} {l : List α} (hf : ∀ d, ∀ x ∈ l, Dev.PortKept p d (f d x)) (d : Dev) :
    Dev.PortKept p d (l.foldl f d) :=
  List.foldlRecOn (motive := fun e => Dev.PortKept p d e) l f (refl p d) fun e he x hx => he.trans (hf e x hx)

section Steps
variable {p : Nat} (d : Dev)

theorem setReg {a : Nat} (h : a ∉ frameRegs p) (v : Nat) : Dev.PortKept p d (d.setReg a v) :=
  ⟨fun _ ho => Dev.setReg_reg_other _ _ fun hc => h (hc ▸ ho), rfl, rfl, rfl, rfl, rfl, id⟩

theorem count {a : Nat} (h : a ∉ frameRegs p) : Dev.PortKept p d (d.count a) := setReg d h _

theorem setFlag {a : Nat} (h : a ∉ frameRegs p) (f : Fld) : Dev.PortKept p d (d.setFlag a f) := setReg d h _

theorem raise (n : Nat) : Dev.PortKept p d (d.raise n) := by
  refine ⟨fun o ho => Dev.raise_reg_other _ _ fun hc => ?_, d.raise_out n, d.raise_tap n, d.raise_mem n, d.raise_staging n,
    by rw [Dev.raise_coach], by rw [Dev.raise_coach]; exact id⟩
  exact not_frameRegs_low (by decide) p (hc ▸ ho)

theorem setCoach {c : Coach} (hseq : c.seq = (d.coach p).seq) (hwits : (d.coach p).WitsIn → c.WitsIn) : Dev.PortKept p d (d.setCoach p c) :=
  ⟨fun _ _ => rfl, rfl, rfl, rfl, rfl, by rw [Dev.setCoach_coach_same, hseq], by rwa [Dev.setCoach_coach_same]⟩

theorem mapParcel (x g n : Nat) (f : Parcel → Parcel) : Dev.PortKept p d (d.mapParcel x g n f) := ⟨fun _ _ => rfl, rfl, rfl, rfl, rfl, rfl, id⟩

end Steps
end Dev.PortKept

/-! ### Witnesses (R227) -/

theorem Dev.witnesses_in {d : Dev} {p phase : Nat} : ∀ w ∈ d.witnesses p phase, w.1 < 64 := by
  intro w hw
  simp only [Dev.witnesses, List.mem_map, List.mem_filter, List.mem_range] at hw
  obtain ⟨k, ⟨hk, -⟩, rfl⟩ := hw
  exact hk

/-- What a port's witnesses see of a segment changes neither the frame number nor which witnesses they are. -/
theorem Coach.witness_keeps (c : Coach) (g : Segment) (bs : Option (List Byte)) :
    (c.witness g bs).seq = c.seq ∧ (c.witness g bs).wits = c.wits ∧ (c.witness g bs).at_ = c.at_ := by
  unfold Coach.witness
  refine List.foldlRecOn (motive := fun x : Coach => x.seq = c.seq ∧ x.wits = c.wits ∧ x.at_ = c.at_) _ _ ⟨rfl, rfl, rfl⟩ fun x hx w _ => ?_
  split <;> exact hx

theorem Dev.PortKept.witness {p : Nat} (d : Dev) (g : Segment) (bs : Option (List Byte)) :
    Dev.PortKept p d (d.setCoach p ((d.coach p).witness g bs)) := by
  obtain ⟨hseq, hwits, -⟩ := (d.coach p).witness_keeps g bs
  refine .setCoach d hseq ?_
  rw [Coach.WitsIn, Coach.WitsIn, hwits]
  exact id

theorem Dev.PortKept.witnessEnd {p : Nat} (d : Dev) (stroke : Nat) (c : Coach) {w : Nat × Nat × Nat × Nat} (hw : w.1 < 64) :
    Dev.PortKept p d (d.witnessEnd p stroke c w) := by
  have hlow {base : Nat} (h : base ≤ 0xA101C) : base + w.1 * 0x20 ∉ frameRegs p := not_frameRegs_low (by omega) p
  unfold Dev.witnessEnd
  dsimp only
  split
  · exact count d (hlow (by decide))
  · split
    · exact refl p d
    · split
      · exact refl p d
      · exact ((((setFlag d (hlow (by decide)) _).trans (setReg _ (hlow (by decide)) _)).trans (setReg _ (hlow (by decide)) _)).trans
          (count _ (hlow (by decide)))).trans (raise _ _)

/-- A port goes on by what it has sent; after the last stop its witnesses are evaluated. -/
theorem Dev.PortKept.coachForward {p : Nat} {d : Dev} (hwits : (d.coach p).WitsIn) (r : StrokeRun) (s : Stop) (n : Nat) :
    Dev.PortKept p d (d.coachForward p r s n) := by
  unfold Dev.coachForward
  dsimp only
  split
  · exact .setCoach d rfl id
  · split
    · exact .setCoach d rfl id
    · exact (setCoach d (c := (d.coach p).restart (strokeAdd r.stroke 1)) rfl fun _ _ hw => absurd hw List.not_mem_nil).trans
        (.foldl (fun x w hw => witnessEnd x r.stroke _ (hwits w hw)) _)

/-- A port begins a stroke with its witnesses. -/
theorem Dev.PortKept.coachBegin {p : Nat} (d : Dev) (r : StrokeRun) (ss : List Stop) : Dev.PortKept p d (d.coachBegin p r ss) := by
  unfold Dev.coachBegin
  dsimp only
  split
  · exact refl p d
  · exact .setCoach d rfl fun _ => Dev.witnesses_in

theorem Dev.PortKept.withdrawnWitnesses {p : Nat} {d : Dev} (hwits : (d.coach p).WitsIn) (ss : List Stop) :
    Dev.PortKept p d (d.withdrawnWitnesses p ss) := by
  refine (setCoach d (c := { d.coach p with wits := [] }) rfl fun _ _ hw => absurd hw List.not_mem_nil).trans (.foldl (fun x w hw => count x ?_) _)
  have hlt := hwits w (List.mem_of_mem_filter hw)
  refine not_frameRegs_low ?_ p
  simp only [Reg.PRT_WIT_SKIP_CNT]
  omega

/-! ### An unavailable parcel (R219) -/

theorem Dev.PortKept.underrun {p : Nat} (d : Dev) (stroke : Nat) (q : Parcel) : Dev.PortKept p d (d.underrun p stroke q) := by
  obtain ⟨hcount, hevent⟩ := not_frameRegs_underrun p
  unfold Dev.underrun
  dsimp only
  split
  · exact refl p d
  · have hset : Dev.PortKept p d (d.setCoach p { d.coach p with missed := (d.coach p).missed ++ [(q.region, q.number)] }) := setCoach d rfl id
    generalize d.setCoach p { d.coach p with missed := (d.coach p).missed ++ [(q.region, q.number)] } = f at hset
    have hdep : Dev.PortKept p f (if q.missed = true then f
        else (f.count Reg.DEP_UNDERRUN_CNT).mapParcel stroke q.region q.number fun x => { x with missed := true }) := by
      split
      · exact refl p f
      · exact (count f (not_frameRegs_low (by decide) p)).trans (mapParcel _ _ _ _ _)
    exact (((hset.trans hdep).trans (count _ hcount)).trans (setFlag _ hevent _)).trans (raise _ _)

/-- It is where it was in its stroke. -/
theorem Dev.underrun_at (d : Dev) (p stroke : Nat) (q : Parcel) : ((d.underrun p stroke q).coach p).at_ = (d.coach p).at_ := by
  unfold Dev.underrun
  dsimp only
  split
  · rfl
  · have hset (m : List (Nat × Nat)) : ((d.setCoach p { d.coach p with missed := m }).coach p).at_ = (d.coach p).at_ := by
      rw [Dev.setCoach_coach_same]
    rw [Dev.coachSource, Dev.raise_coach]
    split
    · exact hset _
    · exact hset _

/-! ### A frame and what goes with it -/

/-- Port `p` has sent one frame, and counted it, and has counted `skips` SKIP frames. -/
structure Dev.Sent (p : Nat) (bs : List Byte) (skips : Nat) (e d : Dev) : Prop where
  out : ∃ ws : List (List Nat), d.out = e.out ++ .frame p bs :: ws.map (.codeword p ·)
  tap : d.tap = e.tap
  mem : d.mem = e.mem
  staging : d.staging = e.staging
  seq : (d.coach p).seq = ((e.coach p).seq + 1) % 2 ^ 16
  wits : (e.coach p).WitsIn → (d.coach p).WitsIn
  frames : d.reg (Reg.CPT_FRAME_CNT p) = min (e.reg (Reg.CPT_FRAME_CNT p) + 1) 0xFFFFFFFF
  skips : d.reg (Reg.CPT_SKIP_CNT p) = min (e.reg (Reg.CPT_SKIP_CNT p) + skips) 0xFFFFFFFF
  slack : d.reg (Reg.CPT_SLACK p) = e.reg (Reg.CPT_SLACK p)

namespace Dev.Sent

section
variable {p skips : Nat} {bs : List Byte} {a b c : Dev}

/-- Steps before the frame. -/
theorem after (h : Dev.PortKept p a b) (k : Dev.Sent p bs skips b c) : Dev.Sent p bs skips a c := by
  obtain ⟨ws, hout⟩ := k.out
  refine ⟨⟨ws, by rw [hout, h.out]⟩, k.tap.trans h.tap, k.mem.trans h.mem, k.staging.trans h.staging, by rw [k.seq, h.seq],
    fun hw => k.wits (h.wits hw), ?_, ?_, ?_⟩
  · rw [k.frames, h.regs _ (by simp [frameRegs])]
  · rw [k.skips, h.regs _ (by simp [frameRegs])]
  · rw [k.slack, h.regs _ (by simp [frameRegs])]

/-- Steps after the frame. -/
theorem before (k : Dev.Sent p bs skips a b) (h : Dev.PortKept p b c) : Dev.Sent p bs skips a c := by
  obtain ⟨ws, hout⟩ := k.out
  refine ⟨⟨ws, by rw [h.out, hout]⟩, h.tap.trans k.tap, h.mem.trans k.mem, h.staging.trans k.staging, by rw [h.seq, k.seq],
    fun hw => h.wits (k.wits hw), ?_, ?_, ?_⟩
  · rw [h.regs _ (by simp [frameRegs]), k.frames]
  · rw [h.regs _ (by simp [frameRegs]), k.skips]
  · rw [h.regs _ (by simp [frameRegs]), k.slack]

/-- The frame was a SKIP frame, and counts as one. -/
theorem skip (k : Dev.Sent p bs 0 a b) : Dev.Sent p bs 1 a (b.count (Reg.CPT_SKIP_CNT p)) := by
  have hframe : Reg.CPT_FRAME_CNT p ≠ Reg.CPT_SKIP_CNT p := pageReg_ne (by decide) _
  have hslack : Reg.CPT_SLACK p ≠ Reg.CPT_SKIP_CNT p := pageReg_ne (by decide) _
  refine ⟨k.out, k.tap, k.mem, k.staging, k.seq, k.wits, ?_, ?_, ?_⟩
  · rw [Dev.count_reg_other _ hframe, k.frames]
  · rw [Dev.count_reg, if_pos rfl, k.skips]
    omega
  · rw [Dev.count_reg_other _ hslack, k.slack]

end

theorem coachFrame (d : Dev) (p : Nat) {type_ : Nat} (h6 : type_ ≠ 6) (flags stop depth stroke line x count : Nat) (payload : List Byte) :
    Dev.Sent p (d.frameBytes p type_ flags stop depth stroke line x count payload) 0 d
      (d.coachFrame p type_ flags stop depth stroke line x count payload) := by
  have honly := d.coachFrame_onlyRegs p flags stop depth stroke line x count payload h6
  obtain ⟨l, hcoach⟩ := d.coachFrame_coach p type_ flags stop depth stroke line x count payload
  have hskip : Reg.CPT_SKIP_CNT p ∉ [Reg.CPT_FRAME_CNT p] := List.mem_singleton.not.mpr (pageReg_ne (by decide) _)
  have hslack : Reg.CPT_SLACK p ∉ [Reg.CPT_FRAME_CNT p] := List.mem_singleton.not.mpr (pageReg_ne (by decide) _)
  have hwhole := d.coachFrame_counted p type_ flags stop depth stroke line x count payload h6
  refine ⟨d.coachFrame_out p type_ flags stop depth stroke line x count payload,
    d.coachFrame_tap p flags stop depth stroke line x count payload type_, by rw [hwhole]; rfl, by rw [hwhole]; rfl, by rw [hcoach],
    by rw [hcoach]; exact id, d.coachFrame_counts p flags stop depth stroke line x count payload h6, ?_, honly.regs _ hslack⟩
  have hlt : d.reg (Reg.CPT_SKIP_CNT p) < 2 ^ 32 := d.reg_lt _
  rw [Nat.add_zero, Nat.min_eq_left (by omega)]
  exact honly.regs _ hskip

end Dev.Sent

theorem Dev.PortKept.frameBytes {p : Nat} {e d : Dev} (h : Dev.PortKept p e d) (type_ flags stop depth stroke line x count : Nat)
    (payload : List Byte) :
    d.frameBytes p type_ flags stop depth stroke line x count payload = e.frameBytes p type_ flags stop depth stroke line x count payload := by
  rw [Dev.frameBytes, h.regs _ (by simp [frameRegs]), h.seq, Dev.frameBytes]

/-- The end of a command that publishes the slack and sends one frame. -/
theorem State.done_sent {s : State} {p : Nat} {buffered wait : Nat} {bs : List Byte} {skips : Nat} {d : Dev} (htap : s.dev.tap ≠ .extest)
    (h : Dev.Sent p bs skips (s.dev.quiet.coachSlack p buffered wait) d) : Dev.Sends s.dev (s.done d).dev p bs ∧
      (s.done d).dev.reg (Reg.CPT_FRAME_CNT p) = min (s.dev.reg (Reg.CPT_FRAME_CNT p) + 1) 0xFFFFFFFF ∧
      (s.done d).dev.reg (Reg.CPT_SLACK p) = s.dev.slackShown p buffered wait ∧
      (s.done d).dev.reg (Reg.CPT_SKIP_CNT p) = min (s.dev.reg (Reg.CPT_SKIP_CNT p) + skips) 0xFFFFFFFF ∧
      (s.done d).dev.mem = s.dev.mem ∧ (s.done d).dev.staging = s.dev.staging := by
  obtain ⟨hbell, hslack, hout⟩ := s.dev.quiet.coachSlack_spec p buffered wait
  have hapart : Reg.CPT_FRAME_CNT p ∉ Reg.BEL_UNROUTED_CNT :: slackRegs p ∧ Reg.CPT_SKIP_CNT p ∉ Reg.BEL_UNROUTED_CNT :: slackRegs p := by
    simp only [slackRegs, Reg.CPT_FRAME_CNT, Reg.CPT_SKIP_CNT, Reg.BEL_UNROUTED_CNT, Reg.CPT_SLACK, Reg.CPT_EVENT, Reg.CPT_SLACK_LOW_CNT,
      List.mem_cons, List.not_mem_nil, or_false, not_or]
    omega
  have hmem : (s.dev.quiet.coachSlack p buffered wait).mem = s.dev.mem ∧ (s.dev.quiet.coachSlack p buffered wait).staging = s.dev.staging := by
    rw [hbell.eq]
    exact ⟨rfl, rfl⟩
  obtain ⟨ws, hws⟩ := h.out
  rw [hout] at hws
  refine ⟨State.done_sends htap (h.tap.trans hbell.tap) ⟨ws, hws⟩ (by rw [h.seq, hbell.slack_coach]; rfl), ?_, ?_, ?_, ?_, ?_⟩
  · rw [State.done_reg, h.frames, hbell.regs _ hapart.1, Dev.quiet_reg]
  · rw [State.done_reg, h.slack, hslack]
    rfl
  · rw [State.done_reg, h.skips, hbell.regs _ hapart.2, Dev.quiet_reg]
  · rw [State.done_dev, Dev.extest_mem, Dev.latchFault_mem, h.mem, hmem.1]
  · rw [State.done_dev, Dev.extest_staging, Dev.latchFault_staging, h.staging, hmem.2]

end Sys2Proof.Machine

/-! SUPPORT. PIXELS and SKIP frames of a Coach port, and the obligation on its frames (R205, R210, R211, R218, R219). -/

namespace Sys2Proof.Machine

/-! ### Steps that take note and change nothing that a port reads -/

/-- Device `d` is device `e` but for registers, outputs, the Bellboard, the log and the power unit. -/
def Dev.NotesOnly (e d : Dev) : Prop :=
  d = { e with regs := d.regs, out := d.out, bel := d.bel, depLogged := d.depLogged, sdp := d.sdp }

theorem Dev.OnlyBell.notesOnly {e d : Dev} {offs : List Nat} (h : Dev.OnlyBell e d offs) : Dev.NotesOnly e d := by
  unfold Dev.NotesOnly
  exact congrArg (fun x : Dev => { x with regs := d.regs, out := d.out, bel := d.bel, depLogged := d.depLogged, sdp := d.sdp }) h.rest

namespace Dev.NotesOnly

theorem trans {a b c : Dev} (h : Dev.NotesOnly a b) (k : Dev.NotesOnly b c) : Dev.NotesOnly a c := by
  have hb : { b with regs := c.regs, out := c.out, bel := c.bel, depLogged := c.depLogged, sdp := c.sdp } =
      { a with regs := c.regs, out := c.out, bel := c.bel, depLogged := c.depLogged, sdp := c.sdp } :=
    congrArg (fun x : Dev => { x with regs := c.regs, out := c.out, bel := c.bel, depLogged := c.depLogged, sdp := c.sdp }) h
  exact Eq.trans k hb

theorem quiet (d : Dev) : Dev.NotesOnly d d.quiet := rfl

section
variable {e d : Dev} (h : Dev.NotesOnly e d)
include h

theorem coach (p : Nat) : d.coach p = e.coach p := by
  rw [h]
  rfl

theorem segmentReady (stroke : Nat) (g : Segment) : d.segmentReady stroke g = e.segmentReady stroke g := by
  rw [h]
  rfl

theorem storeRead (r : StrokeRun) (x y n : Nat) : d.storeRead r x y n = e.storeRead r x y n := by
  rw [h]
  rfl

theorem segmentBlocks (r : StrokeRun) (g : Segment) : d.segmentBlocks r g = e.segmentBlocks r g := by
  rw [h]
  rfl

theorem packerFails (r : StrokeRun) (bad : List Nat) (b : Nat) : d.packerFails r bad b = e.packerFails r bad b := by
  rw [h]
  rfl

theorem replayFails (r : StrokeRun) (q : Parcel) : d.replayFails r q = e.replayFails r q := by
  rw [h]
  rfl

theorem readySegments (r : StrokeRun) (st : Stop) (fuel i room : Nat) :
    d.readySegments r st fuel i room = e.readySegments r st fuel i room := by
  induction fuel generalizing i room with
  | zero => rfl
  | succ fuel ih => simp only [Dev.readySegments, h.segmentReady, ih]

/-- Such a step sends nothing and leaves the ports' registers: the port is where it was. -/
theorem portKept {p : Nat} (hout : d.out = e.out) (hregs : ∀ k, 0x12000000 ≤ k → d.reg k = e.reg k) : Dev.PortKept p e d := by
  refine ⟨fun k hk => hregs k (frameRegs_high hk), hout, ?_, ?_, ?_, by rw [h.coach], by rw [h.coach]; exact id⟩
  · rw [h]
  · rw [h]
  · rw [h]

end
end Dev.NotesOnly

/-- A step that takes note, sends nothing and leaves the ports' registers. -/
structure Dev.Noted (e d : Dev) : Prop where
  notes : Dev.NotesOnly e d
  out : d.out = e.out
  regs : ∀ k, 0x12000000 ≤ k → d.reg k = e.reg k

namespace Dev.Noted

theorem trans {a b c : Dev} (h : Dev.Noted a b) (k : Dev.Noted b c) : Dev.Noted a c :=
  ⟨h.notes.trans k.notes, k.out.trans h.out, fun o ho => (k.regs o ho).trans (h.regs o ho)⟩

theorem portKept {e d : Dev} (h : Dev.Noted e d) (p : Nat) : Dev.PortKept p e d := h.notes.portKept h.out h.regs

theorem count (d : Dev) {a : Nat} (h : a < 0x12000000) : Dev.Noted d (d.count a) :=
  ⟨rfl, rfl, fun _ hk => Dev.count_reg_other _ (Nat.ne_of_gt (Nat.lt_of_lt_of_le h hk))⟩

theorem memWake (d : Dev) (blocks : List Nat) : Dev.Noted d (d.memWake blocks) := by
  have honly := d.memWake_onlyRegs blocks
  exact ⟨honly.onlyBell.notesOnly, d.memWake_out blocks, fun k hk => honly.regs k
    (List.mem_singleton.not.mpr (Nat.ne_of_gt (Nat.lt_of_lt_of_le (by decide) hk)))⟩

theorem reservedWake (d : Dev) (content block : Nat) : Dev.Noted d (d.reservedWake content block) := by
  have honly := d.reservedWake_frame content block
  exact ⟨honly.onlyBell.notesOnly, by rw [Dev.reservedWake_eq], fun k hk => honly.regs k
    (List.mem_singleton.not.mpr (Nat.ne_of_gt (Nat.lt_of_lt_of_le (by decide) hk)))⟩

theorem entered (d : Dev) (l : List (List Nat)) : Dev.Noted d { d with depLogged := l } := ⟨rfl, rfl, fun _ _ => rfl⟩

/-- What the log without a ring does with an entry (R299). -/
theorem logRecord {d : Dev} (h : d.Ringless) (e : LogEntry) : Dev.Noted d (d.logRecord e).1 := by
  have hshow (x : Dev) : Dev.Noted x x.showLog :=
    ⟨by rw [Dev.NotesOnly, Dev.showLog, Dev.setRegs_eq], by rw [Dev.showLog, Dev.setRegs_eq], fun k hk =>
      Dev.setRegs_reg_other _ _ _ (.inr (Nat.le_trans (by rw [List.length_map, List.length_range]; decide) hk))⟩
  have hraise (x : Dev) : Dev.Noted x (x.raise 0x4300) :=
    ⟨by rw [Dev.NotesOnly, Dev.raise, Dev.message_eq], x.raise_out _,
      fun k hk => Dev.raise_reg_other _ _ (Nat.ne_of_gt (Nat.lt_of_lt_of_le (by decide) hk))⟩
  have hwrap (x : Dev) : Dev.Noted x (x.countWrap Reg.DEP_LOG_COUNT) :=
    ⟨rfl, rfl, fun _ hk => Dev.setReg_reg_other _ _ (Nat.ne_of_gt (Nat.lt_of_lt_of_le (by decide) hk))⟩
  have hring := (Dev.Logs.entered d ((e.words (d.reg Reg.DEP_LOG_COUNT) :: d.depLogged).take 524288)
    (d.reg Reg.DEP_LOG_COUNT % 524288 / 8)).ringless h
  unfold Dev.logRecord
  dsimp only
  rw [if_neg (by rw [hring]; exact Bool.false_ne_true)]
  exact ((((entered d _).trans (reservedWake _ _ _)).trans (hwrap _)).trans (hshow _)).trans (hraise _)

theorem depLog {d : Dev} (h : d.Ringless) (e : LogEntry) : Dev.Noted d (d.depLog e) := by
  have hnone := (d.logRecord_ringless h e).1
  unfold Dev.depLog
  generalize d.ringN _ = n
  cases n with
  | zero => exact logRecord h e
  | succ n =>
    rw [Dev.logAt, hnone]
    exact logRecord h e

/-- A read of reserved memory that passes, at once or after one re-read (R291). -/
theorem reserved {d : Dev} {ecc : Ecc} (h : ecc = .good ∨ ecc = .corrected ∧ d.Ringless) (content block outcome stroke region parcel : Nat) :
    Dev.Noted d (d.reserved ecc content block outcome stroke region parcel) := by
  have hwake := reservedWake d content block
  rcases h with rfl | ⟨rfl, hring⟩
  · exact hwake
  · have hlogs : Dev.Logs d (((d.reservedWake content block).count Reg.DEP_BLOCK_FAIL_CNT).count (Reg.MEM_FAIL_CNT (reservedStack content block))) :=
      ((Dev.Logs.reservedWake d content block).trans (.count _ not_held_low)).trans (.count _ (not_held_memFail (reservedStack_lt content block)))
    have hfail : Reg.MEM_FAIL_CNT (reservedStack content block) < 0x12000000 := by
      have hlt := reservedStack_lt content block
      simp only [Reg.MEM_FAIL_CNT]
      omega
    exact (((hwake.trans (count _ (by decide))).trans (count _ hfail)).trans (depLog (hlogs.ringless hring) _)).trans (count _ (by decide))

end Dev.Noted

/-! ### A run that is ready (R205, R210) -/

/-- The pixels of segments. -/
def segmentsCount (gs : List Segment) : Nat := gs.foldl (fun a g => a + g.n) 0

/-- The payload of a run: the pixels of its segments as the store holds them, packed (R205). -/
def Dev.runPayload (d : Dev) (r : StrokeRun) (st : Stop) (gs : List Segment) : List Byte :=
  packPixels st.d ((pixelsOf (segmentsCount gs) (gs.flatMap fun g => d.storeRead r g.x g.y g.n)).flatMap storedFields)

/-- The frame of a run. -/
def Dev.runBytes (d : Dev) (p : Nat) (r : StrokeRun) (st : Stop) (gs : List Segment) : List Byte :=
  d.frameBytes p 1 (if st.pixels ≤ (d.coach p).at_ + segmentsCount gs then 1 else 0) st.addr st.depth (r.stroke % 2 ^ 16)
    (st.lineOf (d.coach p).at_) (st.pixelOf (d.coach p).at_) (segmentsCount gs) (d.runPayload r st gs)

theorem Dev.NotesOnly.runPayload {e d : Dev} (h : Dev.NotesOnly e d) (r : StrokeRun) (st : Stop) (gs : List Segment) :
    d.runPayload r st gs = e.runPayload r st gs := by
  simp only [Dev.runPayload, h.storeRead]

theorem Dev.sendRun_sent {d : Dev} {p : Nat} (hwits : (d.coach p).WitsIn) (r : StrokeRun) (st : Stop) (gs : List Segment) :
    Dev.Sent p (d.runBytes p r st gs) 0 d (d.sendRun p r st gs) := by
  have hseen (x : Dev) (g : Segment) : Dev.PortKept p x (match g.parcel with
      | some q => (x.setCoach p ((x.coach p).witness g (some (x.storeRead r g.x g.y g.n)))).mapParcel r.stroke q.region q.number
          fun y => { y with began := y.began + 1 }
      | none => x.setCoach p ((x.coach p).witness g (some (x.storeRead r g.x g.y g.n)))) := by
    split
    · exact (Dev.PortKept.witness x g _).trans (.mapParcel _ _ _ _ _)
    · exact Dev.PortKept.witness x g _
  have hframe : Dev.Sent p (d.runBytes p r st gs) 0 d _ := Dev.Sent.coachFrame d p (type_ := 1) (by decide) _ _ _ _ _ _ _ _
  have hfold := hframe.before (.foldl (l := gs) (fun x g _ => hseen x g) _)
  have hlast := hfold.before (.setCoach _ (c := { Dev.coach _ p with
    last := ((pixelsOf (segmentsCount gs) (gs.flatMap fun g => d.storeRead r g.x g.y g.n)).getLast?.map fun b =>
      (st.addr, leNat (b.take 2), leNat ((b.drop 2).take 2), leNat ((b.drop 4).take 2))) <|> (d.coach p).last }) rfl id)
  exact hlast.before (.coachForward (hlast.wits hwits) r st (segmentsCount gs))

end Sys2Proof.Machine

/-! SUPPORT. The commands that send PIXELS and SKIP frames, and the obligation on the frames of a Coach port. -/

namespace Sys2Proof.Machine

/-! ### Reading a run (R210, R291) -/

/-- No block of the segments fails, and no parcel of them that Lull replays. -/
def Dev.RunReads (d : Dev) (r : StrokeRun) (gs : List Segment) : Prop :=
  ∀ x ∈ gs, (∀ b ∈ d.segmentBlocks r x, d.packerFails r [] b = false) ∧ ∀ q, x.parcel = some q → d.replayFails r q = false

theorem Dev.NotesOnly.runReads {e d : Dev} (h : Dev.NotesOnly e d) {r : StrokeRun} {gs : List Segment} (hr : e.RunReads r gs) :
    d.RunReads r gs := by
  simpa only [Dev.RunReads, h.segmentBlocks, h.packerFails, h.replayFails] using hr

/-- A packer whose reads pass sends the run. -/
theorem Dev.packerRead_sends {d : Dev} {p : Nat} {r : StrokeRun} {gs : List Segment} (h : d.RunReads r gs) (st : Stop) :
    ∃ blocks, d.packerRead p r st [] gs = (d.memWake blocks).sendRun p r st gs := by
  refine ⟨if r.racing then [] else gs.flatMap (d.segmentBlocks r), ?_⟩
  have hw := (Dev.Noted.memWake d (if r.racing then [] else gs.flatMap (d.segmentBlocks r))).notes.runReads h
  unfold Dev.packerRead
  dsimp only
  generalize d.memWake (if r.racing then [] else gs.flatMap (d.segmentBlocks r)) = f at *
  have hfails : (gs.flatMap fun g => ((f.segmentBlocks r g).filter (f.packerFails r [])).map fun b => (g, b)) = [] := by
    refine List.flatMap_eq_nil_iff.mpr fun g hg => ?_
    rw [List.map_eq_nil_iff, List.filter_eq_nil_iff]
    exact fun b hb => by simp [(hw g hg).1 b hb]
  have hwrong : (gs.filterMap (·.parcel)).filter (f.replayFails r) = [] := by
    refine List.filter_eq_nil_iff.mpr fun q hq => ?_
    obtain ⟨g, hg, hgq⟩ := List.mem_filterMap.mp hq
    simp [(hw g hg).2 q hgq]
  rw [hfails, hwrong]
  rfl

/-- The packer reads the record of the first parcel where it has one, and then the blocks of the run. -/
theorem Dev.pixels_reads {d : Dev} {p : Nat} {r : StrokeRun} {ss : List Stop} {st : Stop} {g : Segment} {gs : List Segment} {record : Ecc}
    (hready : d.coachReady p = some (r, ss)) (hbegun : (d.coach p).begun = true) (hnext : (d.coach p).next = r.stroke)
    (hst : stopAt r.version p (d.coach p).stop = some st) (hroute : r.routeLost p st = false)
    (hsegs : d.readySegments r st st.runMax (d.coach p).at_ st.runMax = g :: gs)
    (hrecord : record = .good ∨ record = .corrected ∧ d.Ringless) :
    ∃ f, d.pixels p [] record = f.packerRead p r st [] (g :: gs) ∧ (f = d ∨ Dev.Noted d f) := by
  have hbegin : d.coachBegin p r ss = d := if_pos (by simp [hbegun, hnext])
  unfold Dev.pixels
  rw [hready]
  dsimp only
  rw [hbegin, hst]
  dsimp only
  rw [hroute, if_neg Bool.false_ne_true, hsegs]
  dsimp only
  have hnotes (q : Parcel) := Dev.Noted.reserved hrecord contentPcvs (d.pcvBlock r.stroke q.region q.number) 0 r.stroke q.region q.number
  cases hq : g.parcel with
  | none => exact ⟨d, by rcases hrecord with rfl | ⟨rfl, -⟩ <;> rfl, .inl rfl⟩
  | some q => exact ⟨_, by rcases hrecord with rfl | ⟨rfl, -⟩ <;> rfl, .inr (hnotes q)⟩

theorem Dev.pixels_sent {d : Dev} {p : Nat} {r : StrokeRun} {ss : List Stop} {st : Stop} {g : Segment} {gs : List Segment} {record : Ecc}
    (hready : d.coachReady p = some (r, ss)) (hbegun : (d.coach p).begun = true) (hnext : (d.coach p).next = r.stroke)
    (hst : stopAt r.version p (d.coach p).stop = some st) (hroute : r.routeLost p st = false)
    (hsegs : d.readySegments r st st.runMax (d.coach p).at_ st.runMax = g :: gs)
    (hrecord : record = .good ∨ record = .corrected ∧ d.Ringless) (hwits : (d.coach p).WitsIn) (hwhole : d.RunReads r (g :: gs)) :
    Dev.Sent p (d.runBytes p r st (g :: gs)) 0 d (d.pixels p [] record) := by
  obtain ⟨f, hpixels, hf⟩ := Dev.pixels_reads hready hbegun hnext hst hroute hsegs hrecord
  have hnoted : Dev.Noted d f := hf.elim (fun h => h ▸ ⟨rfl, rfl, fun _ _ => rfl⟩) id
  obtain ⟨blocks, hsend⟩ := Dev.packerRead_sends (p := p) (hnoted.notes.runReads hwhole) st
  have hwake := hnoted.trans (.memWake f blocks)
  have hkept := hwake.portKept p
  rw [hpixels, hsend]
  generalize f.memWake blocks = m at *
  have hbytes : m.runBytes p r st (g :: gs) = d.runBytes p r st (g :: gs) := by
    rw [Dev.runBytes, hkept.frameBytes, hwake.notes.coach, hwake.notes.runPayload, Dev.runBytes]
  exact hbytes ▸ (Dev.sendRun_sent (hkept.wits hwits) r st (g :: gs)).after hkept

theorem Dev.pixels_idle {d : Dev} {p : Nat} (h : d.coachReady p = none) (bad : List Nat) (record : Ecc) : d.pixels p bad record = d := by
  rw [Dev.pixels, h]

/-! ### SKIP frames (R218, R219) -/

/-- The frame that skips `n` pixels of a stop from its `i`-th on. -/
def Dev.skipBytes (d : Dev) (p : Nat) (st : Stop) (stroke i n : Nat) : List Byte :=
  d.frameBytes p 2 (if st.pixels ≤ i + n then 1 else 0) st.addr 0 (stroke % 2 ^ 16) (st.lineOf i) (st.pixelOf i) n []

theorem Dev.PortKept.skipBytes {p : Nat} {e d : Dev} (h : Dev.PortKept p e d) (st : Stop) (stroke i n : Nat) :
    d.skipBytes p st stroke i n = e.skipBytes p st stroke i n := h.frameBytes ..

/-- A SKIP frame leaves, and counts. -/
def Dev.skipSent (d : Dev) (p : Nat) (st : Stop) (stroke i n : Nat) : Dev :=
  (d.coachFrame p 2 (if st.pixels ≤ i + n then 1 else 0) st.addr 0 (stroke % 2 ^ 16) (st.lineOf i) (st.pixelOf i) n []).count
    (Reg.CPT_SKIP_CNT p)

theorem Dev.skipSent_sent (d : Dev) (p : Nat) (st : Stop) (stroke i n : Nat) :
    Dev.Sent p (d.skipBytes p st stroke i n) 1 d (d.skipSent p st stroke i n) := (Dev.Sent.coachFrame d p (by decide) _ _ _ _ _ _ _ _).skip

/-- The parcel of an unavailable segment counts as such. -/
def Dev.segmentMissed (d : Dev) (p stroke : Nat) (g : Segment) : Dev :=
  match g.parcel with
  | some q => d.underrun p stroke q
  | none => d

theorem Dev.segmentMissed_kept (d : Dev) (p stroke : Nat) (g : Segment) : Dev.PortKept p d (d.segmentMissed p stroke g) ∧
    ((d.segmentMissed p stroke g).coach p).at_ = (d.coach p).at_ := by
  unfold Dev.segmentMissed
  split
  · exact ⟨.underrun d stroke _, d.underrun_at p stroke _⟩
  · exact ⟨.refl p d, rfl⟩

theorem Dev.sendMissing_hold {st : Stop} (hhold : st.holdOk = true) (d : Dev) (p : Nat) (r : StrokeRun) (g : Segment) :
    let n := min g.n st.runMax
    let f := d.segmentMissed p r.stroke g
    let t := f.skipSent p st r.stroke (f.coach p).at_ n
    d.sendMissing p r st g = (t.setCoach p ((t.coach p).witness { g with n } none)).coachForward p r st n := by
  unfold Dev.sendMissing
  dsimp only
  rw [if_pos hhold]
  rfl

/-- An unavailable segment of a stop that can hold is skipped (R219). -/
theorem Dev.sendMissing_sent {d : Dev} {p : Nat} (hwits : (d.coach p).WitsIn) {st : Stop} (hhold : st.holdOk = true) (r : StrokeRun) (g : Segment) :
    Dev.Sent p (d.skipBytes p st r.stroke (d.coach p).at_ (min g.n st.runMax)) 1 d (d.sendMissing p r st g) := by
  obtain ⟨hkept, hat⟩ := d.segmentMissed_kept p r.stroke g
  have hframe := ((d.segmentMissed p r.stroke g).skipSent_sent p st r.stroke (d.coach p).at_ (min g.n st.runMax)).after hkept
  have hseen := hframe.before (.witness _ { g with n := min g.n st.runMax } none)
  have hforward := hseen.before (.coachForward (hseen.wits hwits) r st (min g.n st.runMax))
  rw [hkept.skipBytes] at hforward
  rw [Dev.sendMissing_hold hhold, hat]
  exact hforward

/-- A port begins to skip a withdrawn stroke: it has the witnesses of the stroke. -/
def Dev.withdrawnBegun (d : Dev) (p : Nat) (r : StrokeRun) : Dev :=
  if ((d.coach p).skipStop == 0 && (d.coach p).skipAt == 0) = true then d.setCoach p { d.coach p with wits := d.witnesses p r.phase } else d

theorem Dev.withdrawnBegun_kept (d : Dev) (p : Nat) (r : StrokeRun) : Dev.PortKept p d (d.withdrawnBegun p r) ∧
    ((d.withdrawnBegun p r).coach p).skipStop = (d.coach p).skipStop ∧ ((d.withdrawnBegun p r).coach p).skipAt = (d.coach p).skipAt := by
  unfold Dev.withdrawnBegun
  split
  · exact ⟨.setCoach d rfl fun _ => Dev.witnesses_in, by rw [Dev.setCoach_coach_same], by rw [Dev.setCoach_coach_same]⟩
  · exact ⟨.refl p d, rfl, rfl⟩

/-- The last stop of a withdrawn stroke has been skipped: its witnesses count it. -/
def Dev.withdrawnEnded (d : Dev) (p : Nat) (ss : List Stop) (ended : Bool) : Dev := if ended then d.withdrawnWitnesses p ss else d

theorem Dev.PortKept.withdrawnEnded {d : Dev} {p : Nat} (hwits : (d.coach p).WitsIn) (ss : List Stop) (ended : Bool) :
    Dev.PortKept p d (d.withdrawnEnded p ss ended) := by
  unfold Dev.withdrawnEnded
  split
  · exact .withdrawnWitnesses hwits ss
  · exact .refl p d

/-- A port goes on from `n` skipped pixels: with the stop, the next stop, or the next stroke. -/
def Coach.skipOn (c : Coach) (addr n : Nat) (done more : Bool) : Coach :=
  if !done then { c with skipStop := addr, skipAt := c.skipAt + n }
  else if more then { c with skipStop := addr + 1, skipAt := 0 }
  else { c with withdrawn := c.withdrawn.drop 1, skipStop := 0, skipAt := 0 }

theorem Coach.skipOn_keeps (c : Coach) (addr n : Nat) (done more : Bool) :
    (c.skipOn addr n done more).seq = c.seq ∧ (c.skipOn addr n done more).wits = c.wits := by
  unfold Coach.skipOn
  split
  · exact ⟨rfl, rfl⟩
  · split <;> exact ⟨rfl, rfl⟩

theorem Dev.PortKept.skipOn {p : Nat} (d : Dev) (addr n : Nat) (done more : Bool) :
    Dev.PortKept p d (d.setCoach p ((d.coach p).skipOn addr n done more)) := by
  obtain ⟨hseq, hwits⟩ := (d.coach p).skipOn_keeps addr n done more
  refine .setCoach d hseq ?_
  rw [Coach.WitsIn, Coach.WitsIn, hwits]
  exact id

/-- A port has skipped `n` pixels of a stop of a withdrawn stroke. -/
def Dev.withdrawnForward (d : Dev) (p : Nat) (ss : List Stop) (addr n : Nat) (done : Bool) : Dev :=
  let more := ss.any fun t => addr < t.addr
  let d := d.withdrawnEnded p ss (done && !more)
  d.setCoach p ((d.coach p).skipOn addr n done more)

theorem Dev.PortKept.withdrawnForward {d : Dev} {p : Nat} (hwits : (d.coach p).WitsIn) (ss : List Stop) (addr n : Nat) (done : Bool) :
    Dev.PortKept p d (d.withdrawnForward p ss addr n done) :=
  (withdrawnEnded hwits ss _).trans (skipOn _ _ _ _ _)

section Withdrawn
variable {d : Dev} {p m : Nat} {r : StrokeRun} {st : Stop}
  (hrun : d.prt.strokes.find? (fun x => x.withdrawn && x.stroke == m) = some r)
  (hst : (portStops r.version p).find? (fun x => (d.coach p).skipStop ≤ x.addr) = some st)
include hrun hst

theorem Dev.skipWithdrawn_eq : let i := (d.coach p).skipAt
    let n := min 4368 (st.pixels - i)
    d.skipWithdrawn p m =
      ((d.withdrawnBegun p r).skipSent p st m i n).withdrawnForward p (portStops r.version p) st.addr n (st.pixels ≤ i + n) := by
  unfold Dev.skipWithdrawn Dev.withdrawnBegun
  dsimp only
  rw [hrun]
  cases (d.coach p).skipStop == 0 && (d.coach p).skipAt == 0 with
  | false =>
    dsimp only
    rw [hst]
    rfl
  | true =>
    dsimp only
    rw [Dev.setCoach_coach_same, hst]
    rfl

/-- A stroke that a REFRAME withdrew is skipped, by the version kept for it (R218). -/
theorem Dev.skipWithdrawn_sent (hwits : (d.coach p).WitsIn) :
    Dev.Sent p (d.skipBytes p st m (d.coach p).skipAt (min 4368 (st.pixels - (d.coach p).skipAt))) 1 d (d.skipWithdrawn p m) := by
  obtain ⟨hkept, -⟩ := d.withdrawnBegun_kept p r
  have hframe := ((d.withdrawnBegun p r).skipSent_sent p st m (d.coach p).skipAt (min 4368 (st.pixels - (d.coach p).skipAt))).after hkept
  rw [hkept.skipBytes] at hframe
  rw [Dev.skipWithdrawn_eq hrun hst]
  exact hframe.before (.withdrawnForward (hframe.wits hwits) _ _ _ _)

end Withdrawn

end Sys2Proof.Machine

/-! SUPPORT. Coach ports send their frames: the obligation, command by command (R202, R204 to R206, R210 to R213, R218, R219, R228). -/

namespace Sys2Proof.Machine

/-! ### What the command `skip` sends -/

section Skip
variable {d : Dev} {p : Nat}

theorem Dev.skip_idle (hrun : (d.coach p).state ≠ 3 ∨ (d.coach p).withdrawn = []) (hready : d.coachReady p = none) : d.skip p = d := by
  unfold Dev.skip
  dsimp only
  split
  · next h3 hw => exact absurd (eq_of_beq h3) (hrun.resolve_right (by simp [hw]))
  · rw [hready]

theorem Dev.skip_withdrawn {m : Nat} {ms : List Nat} (h3 : (d.coach p).state = 3) (hw : (d.coach p).withdrawn = m :: ms)
    (hsends : d.coachSends p = true) (hhold : (d.coach p).holdDue = false) (hconfig : (d.coach p).configBefore m = false) :
    d.skip p = d.skipWithdrawn p m := by
  unfold Dev.skip
  dsimp only
  split
  · next m' ms' _ hw' =>
    obtain ⟨rfl, -⟩ := List.cons.inj (hw.symm.trans hw')
    exact if_pos (by simp [hsends, hhold, hconfig])
  · next hno => exact absurd hw (hno m ms (by simp [h3]))

theorem Dev.skip_missing {r : StrokeRun} {ss : List Stop} {st : Stop} (hrun : (d.coach p).state ≠ 3 ∨ (d.coach p).withdrawn = [])
    (hready : d.coachReady p = some (r, ss)) (hbegun : (d.coach p).begun = true) (hnext : (d.coach p).next = r.stroke)
    (hst : stopAt r.version p (d.coach p).stop = some st) (hhold : st.holdOk = true)
    (hlost : r.routeLost p st = true ∨ d.segmentReady r.stroke (st.segment r (d.coach p).at_) = false) :
    d.skip p = d.sendMissing p r st (st.segment r (d.coach p).at_) := by
  have hbegin : d.coachBegin p r ss = d := if_pos (by simp [hbegun, hnext])
  have hmissing : (st.holdOk && (r.routeLost p st || !d.segmentReady r.stroke (st.segment r (d.coach p).at_))) = true := by
    rcases hlost with h | h <;> simp [hhold, h]
  unfold Dev.skip
  dsimp only
  split
  · next h3 hw => exact absurd (eq_of_beq h3) (hrun.resolve_right (by simp [hw]))
  · rw [hready]
    dsimp only
    rw [hbegin, hst]
    exact if_pos hmissing

end Skip

/-! ### The commands that send strokes -/

section Clauses
variable {s : State} {p : Fin 128}

theorem exec_pixels (s : State) (p : Fin 128) (buffered : Fin 65537) (bad : List Nat) (rec : Bool) (wait : Nat) (again : Bool) :
    exec (.pixels p buffered bad rec wait again) s = .next (s.done ((s.dev.quiet.coachSlack p buffered
      (if (s.dev.coachReady p).isSome then 0 else wait)).pixels p bad (if rec then .bad else if again then .corrected else .good))) := rfl

theorem exec_skip (s : State) (p : Fin 128) (buffered : Fin 65537) (wait : Nat) :
    exec (.skip p buffered wait) s = .next (s.done ((s.dev.quiet.coachSlack p buffered wait).skip p)) := rfl

theorem pixels_idle (h : s.dev.coachReady p = none) (buffered : Fin 65537) (wait : Nat) (bad : List Nat) (rec again : Bool) :
    ∃ t, exec (.pixels p buffered bad rec wait again) s = .next t ∧ t.dev.reg (Reg.CPT_SLACK p) = s.dev.slackShown p buffered wait ∧
      Dev.OnlyBell s.dev t.dev (slackRegs p) := by
  obtain ⟨hbell, -⟩ := s.dev.quiet.coachSlack_spec p buffered wait
  have hexec := exec_pixels s p buffered bad rec wait again
  rw [h] at hexec
  exact State.slackAlone hexec (Dev.pixels_idle (hbell.slack_coachReady.trans h) _ _)

theorem skip_idle (h : s.dev.coachReady p = none) (hrun : (s.dev.coach p).state ≠ 3 ∨ (s.dev.coach p).withdrawn = []) (buffered : Fin 65537)
    (wait : Nat) : ∃ t, exec (.skip p buffered wait) s = .next t ∧ t.dev.reg (Reg.CPT_SLACK p) = s.dev.slackShown p buffered wait ∧
      Dev.OnlyBell s.dev t.dev (slackRegs p) := by
  obtain ⟨hbell, -⟩ := s.dev.quiet.coachSlack_spec p buffered wait
  exact State.slackAlone (exec_skip s p buffered wait)
    (Dev.skip_idle (by rw [hbell.slack_coach]; exact hrun) (hbell.slack_coachReady.trans h))

variable (htap : s.dev.tap ≠ .extest) (hwits : (s.dev.coach p).WitsIn)
include htap hwits

/-- A run that is ready goes out as one PIXELS frame. -/
theorem pixels_sends (buffered : Fin 65537) (wait : Nat) (again : Bool) {r : StrokeRun} {ss : List Stop} {st : Stop} {g : Segment}
    {gs : List Segment} (hready : s.dev.coachReady p = some (r, ss)) (hbegun : (s.dev.coach p).begun = true)
    (hnext : (s.dev.coach p).next = r.stroke) (hst : stopAt r.version p (s.dev.coach p).stop = some st) (hroute : r.routeLost p st = false)
    (hsegs : s.dev.readySegments r st st.runMax (s.dev.coach p).at_ st.runMax = g :: gs) (hwhole : s.dev.RunReads r (g :: gs))
    (hagain : again = false ∨ bit (s.dev.reg Reg.DEP_LOG_RING) 31 = false) :
    ∃ t, exec (.pixels p buffered [] false wait again) s = .next t ∧ Dev.Sends s.dev t.dev p (s.dev.runBytes p r st (g :: gs)) ∧
      t.dev.reg (Reg.CPT_FRAME_CNT p) = min (s.dev.reg (Reg.CPT_FRAME_CNT p) + 1) 0xFFFFFFFF ∧
      t.dev.reg (Reg.CPT_SLACK p) = s.dev.slackShown p buffered 0 ∧ t.dev.mem = s.dev.mem ∧ t.dev.staging = s.dev.staging := by
  obtain ⟨hbell, -⟩ := s.dev.quiet.coachSlack_spec p buffered 0
  have hnotes := (Dev.NotesOnly.quiet s.dev).trans hbell.notesOnly
  have hring : Reg.DEP_LOG_RING ∉ Reg.BEL_UNROUTED_CNT :: slackRegs p := by
    simp only [slackRegs, Reg.DEP_LOG_RING, Reg.BEL_UNROUTED_CNT, Reg.CPT_SLACK, Reg.CPT_EVENT, Reg.CPT_SLACK_LOW_CNT, List.mem_cons,
      List.not_mem_nil, or_false, not_or]
    omega
  have hrecord : (if again then Ecc.corrected else .good) = .good ∨
      (if again then Ecc.corrected else .good) = .corrected ∧ (s.dev.quiet.coachSlack p buffered 0).Ringless := by
    cases again with
    | false => exact .inl rfl
    | true => exact .inr ⟨rfl, by rw [Dev.Ringless, hbell.regs _ hring]; exact hagain.resolve_left (by decide)⟩
  have hexec := exec_pixels s p buffered [] false wait again
  rw [hready] at hexec
  have hcoach : (s.dev.quiet.coachSlack p buffered 0).coach p = s.dev.coach p := hbell.slack_coach p
  have hsent := Dev.pixels_sent (d := s.dev.quiet.coachSlack p buffered 0) (p := p) (record := if again then .corrected else .good)
    (hbell.slack_coachReady.trans hready) (by rw [hcoach, hbegun]) (by rw [hcoach, hnext]) (by rw [hcoach, hst]) hroute
    (by rw [hcoach, hnotes.readySegments, hsegs]) hrecord (by rw [hcoach]; exact hwits) (hnotes.runReads hwhole)
  have hbytes : (s.dev.quiet.coachSlack p buffered 0).runBytes p r st (g :: gs) = s.dev.runBytes p r st (g :: gs) := by
    rw [Dev.runBytes, hbell.slack_frameBytes, hcoach, hnotes.runPayload]
    rfl
  rw [hbytes] at hsent
  obtain ⟨hsends, hframes, hslack, -, hmem, hstaging⟩ := State.done_sent htap hsent
  exact ⟨_, hexec, hsends, hframes, hslack, hmem, hstaging⟩

/-- Each withdrawn stroke goes out as SKIP frames. -/
theorem skip_sendsWithdrawn (buffered : Fin 65537) (wait : Nat) {m : Nat} {ms : List Nat} {r : StrokeRun} {st : Stop}
    (h3 : (s.dev.coach p).state = 3) (hw : (s.dev.coach p).withdrawn = m :: ms) (hsends : s.dev.coachSends p = true)
    (hhold : (s.dev.coach p).holdDue = false) (hconfig : (s.dev.coach p).configBefore m = false)
    (hrun : s.dev.prt.strokes.find? (fun x => x.withdrawn && x.stroke == m) = some r)
    (hst : (portStops r.version p).find? (fun x => (s.dev.coach p).skipStop ≤ x.addr) = some st) :
    ∃ t, exec (.skip p buffered wait) s = .next t ∧
      Dev.Sends s.dev t.dev p (s.dev.skipBytes p st m (s.dev.coach p).skipAt (min 4368 (st.pixels - (s.dev.coach p).skipAt))) ∧
      t.dev.reg (Reg.CPT_FRAME_CNT p) = min (s.dev.reg (Reg.CPT_FRAME_CNT p) + 1) 0xFFFFFFFF ∧
      t.dev.reg (Reg.CPT_SLACK p) = s.dev.slackShown p buffered wait ∧
      t.dev.reg (Reg.CPT_SKIP_CNT p) = min (s.dev.reg (Reg.CPT_SKIP_CNT p) + 1) 0xFFFFFFFF := by
  obtain ⟨hbell, -⟩ := s.dev.quiet.coachSlack_spec p buffered wait
  have hcoach : (s.dev.quiet.coachSlack p buffered wait).coach p = s.dev.coach p := hbell.slack_coach p
  have hskip := Dev.skip_withdrawn (d := s.dev.quiet.coachSlack p buffered wait) (p := p) (by rw [hcoach, h3]) (by rw [hcoach, hw])
    (hbell.slack_coachSends.trans hsends) (by rw [hcoach, hhold]) (by rw [hcoach, hconfig])
  have hstrokes : (s.dev.quiet.coachSlack p buffered wait).prt.strokes = s.dev.prt.strokes := by
    rw [hbell.eq]
    rfl
  have hsent := Dev.skipWithdrawn_sent (d := s.dev.quiet.coachSlack p buffered wait) (p := p) (by rw [hstrokes, hrun]) (by rw [hcoach]; exact hst)
    (by rw [hcoach]; exact hwits)
  rw [← hskip, hcoach, Dev.skipBytes, hbell.slack_frameBytes] at hsent
  obtain ⟨hout, hframes, hslack, hskips, -⟩ := State.done_sent htap hsent
  exact ⟨_, exec_skip s p buffered wait, hout, hframes, hslack, hskips⟩

/-- A segment that is unavailable goes out as a SKIP frame to a stop that can hold. -/
theorem skip_sendsMissing (buffered : Fin 65537) (wait : Nat) {r : StrokeRun} {ss : List Stop} {st : Stop}
    (hready : s.dev.coachReady p = some (r, ss)) (hrun : (s.dev.coach p).state ≠ 3 ∨ (s.dev.coach p).withdrawn = [])
    (hbegun : (s.dev.coach p).begun = true) (hnext : (s.dev.coach p).next = r.stroke)
    (hst : stopAt r.version p (s.dev.coach p).stop = some st) (hhold : st.holdOk = true)
    (hlost : r.routeLost p st = true ∨ s.dev.segmentReady r.stroke (st.segment r (s.dev.coach p).at_) = false) :
    ∃ t, exec (.skip p buffered wait) s = .next t ∧
      Dev.Sends s.dev t.dev p (s.dev.skipBytes p st r.stroke (s.dev.coach p).at_ (min (st.segment r (s.dev.coach p).at_).n st.runMax)) ∧
      t.dev.reg (Reg.CPT_FRAME_CNT p) = min (s.dev.reg (Reg.CPT_FRAME_CNT p) + 1) 0xFFFFFFFF ∧
      t.dev.reg (Reg.CPT_SLACK p) = s.dev.slackShown p buffered wait ∧
      t.dev.reg (Reg.CPT_SKIP_CNT p) = min (s.dev.reg (Reg.CPT_SKIP_CNT p) + 1) 0xFFFFFFFF := by
  obtain ⟨hbell, -⟩ := s.dev.quiet.coachSlack_spec p buffered wait
  have hnotes := (Dev.NotesOnly.quiet s.dev).trans hbell.notesOnly
  have hcoach : (s.dev.quiet.coachSlack p buffered wait).coach p = s.dev.coach p := hbell.slack_coach p
  have hskip := Dev.skip_missing (d := s.dev.quiet.coachSlack p buffered wait) (p := p) (by rw [hcoach]; exact hrun)
    (hbell.slack_coachReady.trans hready) (by rw [hcoach, hbegun]) (by rw [hcoach, hnext]) (by rw [hcoach, hst]) hhold
    (by rw [hcoach, hnotes.segmentReady]; exact hlost)
  have hsent := Dev.sendMissing_sent (d := s.dev.quiet.coachSlack p buffered wait) (p := p) (by rw [hcoach]; exact hwits) hhold r
    (st.segment r (s.dev.coach p).at_)
  rw [hcoach] at hskip hsent
  rw [← hskip, Dev.skipBytes, hbell.slack_frameBytes] at hsent
  obtain ⟨hout, hframes, hslack, hskips, -⟩ := State.done_sent htap hsent
  exact ⟨_, exec_skip s p buffered wait, hout, hframes, hslack, hskips⟩

end Clauses

/-! ### The obligation -/

/-- Settles O51, from what a frame does to its port, what publishing the slack leaves, and the steps around the frames of a stroke. -/
theorem coachPortsSendTheirFrames : Obligations.CoachPortsSendTheirFrames := by
  unfold Obligations.CoachPortsSendTheirFrames
  refine ⟨fun depth k fields _ hd hk hf => leNat_packPixels hd hf hk, ?_⟩
  intro s p htap
  refine ⟨?_, fun hready => ⟨?_, ?_⟩, ?_, ?_, ?_, ?_, ?_, ?_, ?_, ?_, ?_, ?_⟩
  · intro buffered wait again r ss st g gs hready hbegun hnext hwits hst hroute hsegs hwhole hagain
    exact pixels_sends htap hwits buffered wait again hready hbegun hnext hst hroute hsegs hwhole hagain
  · exact pixels_idle hready
  · exact skip_idle hready
  · intro m ms r st buffered wait h3 hw hsends hhold hconfig hwits hrun hst
    exact skip_sendsWithdrawn htap hwits buffered wait h3 hw hsends hhold hconfig hrun hst
  · intro r ss st buffered wait hready hrun hbegun hnext hwits hst hhold hlost
    exact skip_sendsMissing htap hwits buffered wait hready hrun hbegun hnext hst hhold hlost
  · exact fun delay m h2 hm => strokeMarker_sends htap delay h2 hm
  · exact strokeMarker_idle
  · exact hold_sends htap
  · exact hold_idle
  · exact fun a due more h2 hm hh hc => ⟨fun st hst => config_sends h2 hm hh hc htap hst, config_dropped h2 hm hh hc⟩
  · exact config_idle
  · exact fun n buffered wait h2 h => idle_sends htap n buffered wait h2 h
  · exact idle_waits

end Sys2Proof.Machine
